-- ==== Sys2Proof/Word.lean ====
section
/-! DEFINITION. The word types of the Zarel module and the two sparse containers its state is built from. -/

namespace Sys2Proof

/-- One byte of memory, of a frame or of a record. -/
abbrev Byte := BitVec 8
/-- A 16-bit word. -/
abbrev W16 := BitVec 16
/-- A 32-bit word: one vector lane, one accumulator, one token ID. -/
abbrev W32 := BitVec 32
/-- A 64-bit word: one beat value, one dictionary value widened (R277). -/
abbrev W64 := BitVec 64

/-- A byte string (DOMAIN and VISIBLE_STRING values of R277, payloads, text). -/
abbrev Bytes := List Byte

/-- A keyed table: (key, value) pairs, keys strictly rising. A key with no pair has the table's default value. -/
abbrev Tab (α : Type) := List (Nat × α)

/-- Matrix Core number in the module, 0 to 63 (R16). -/
abbrev CoreId := Fin 64
/-- Whippet number in the module, 0 to 255 (R16). -/
abbrev WhipId := Fin 256
/-- Compute die number, 0 to 15 (R15). -/
abbrev DieId := Fin 16
/-- DRAM stack number, 0 to 7 (R15). -/
abbrev StackId := Fin 8
/-- Lightbed site number that is assigned, 0 to 28 (R14). -/
abbrev SiteId := Fin 29
/-- String number, 0 to 1,125 (R125). -/
abbrev StringId := Fin 1126
/-- Line number of a string, 0 to 16 (R127). -/
abbrev LineId := Fin 17
/-- Fabric port number, 0 to 15 (R188). -/
abbrev PortId := Fin 16
/-- Light domain number, 0 to 7 (R151). -/
abbrev DomainId := Fin 8
/-- Harp slot number, 0 to 9 (R11). -/
abbrev HarpSlot := Fin 10
/-- Image slot number, 0 to 15 (R253). -/
abbrev SlotId := Fin 16
/-- Pod number, 0 to 15 (R197). -/
abbrev PodId := Fin 16
/-- Gateway slice, one per rim die: 0 +x, 1 −x, 2 +y, 3 −y (R188, R232). -/
abbrev RimId := Fin 4
/-- Vector register number (R53). -/
abbrev VReg := Fin 32

end Sys2Proof
end

