-- ==== Sys2Proof/Syntax.lean ====
section
/-! DEFINITION. The commands the Zarel module takes, one constructor for each row of spec/opcode_table.json, and the
records their operands are made of. What a command does is in Sys2Proof/Machine. -/

namespace Sys2Proof

/-- The clear header of a dictionary request and how it reached the module (R279, R280). `key` is the key the sender
sealed the datagram under: it authenticates when that is the module's `mgmt_key`. On the UART `crcOk` says whether
the frame's CRC-32C is right and there is no key. -/
structure DictHdr where
  uart   : Bool
  crcOk  : Bool
  key    : Bytes
  levHi  : BitVec 4
  levLo  : BitVec 4
  client : W32
  boot   : W32
  seq    : BitVec 62
  deriving DecidableEq, Repr

/-- One WRITE or STAGE message (R281): type code, total length, offset of this segment, last-segment flag, data. -/
structure WReq where
  hdr    : DictHdr
  ty     : Byte
  total  : Nat
  offset : Nat
  last   : Bool
  data   : Bytes
  deriving DecidableEq, Repr

/-- A lightbed frame as received (R128, R129). -/
structure Frame where
  hdr     : BitVec 96
  payload : Bytes
  crc     : W32
  deriving DecidableEq, Repr

/-- A fabric packet: its header flit (R198) and its payload bytes. -/
structure Packet where
  hdr     : BitVec 256
  payload : Bytes
  deriving DecidableEq, Repr

/-- A serving datagram (R240). `key` is the key the sender sealed it under. -/
structure Dgram where
  port    : Fin 2
  version : Byte
  kind    : Byte
  tenant  : W16
  session : W32
  seq     : W64
  ack     : W64
  key     : Bytes
  body    : Bytes
  deriving DecidableEq, Repr

/-- A Retriever message between gateways (R234). `key` is the key the sender sealed it under. -/
structure GwMsg where
  slice   : RimId
  version : BitVec 4
  kind    : BitVec 4
  srcPod  : BitVec 4
  dstPod  : BitVec 4
  session : W32
  seq     : W64
  ack     : W64
  readCr  : W16
  storeCr : W16
  key     : Bytes
  body    : BitVec 256
  payload : Bytes
  deriving DecidableEq, Repr

/-- Where and when a bundle slot operation issues: the core, the ticks since the core's last issue, and the index of
the bundle it belongs to (R61, R72). -/
structure Issue where
  core   : CoreId
  dt     : Nat
  bundle : BitVec 24
  deriving DecidableEq, Repr

/-- The lightbed measurement of one lane in a margin test or a lane check (R142): string, line, received power in
0.1 dBm, eye width in 1/64 UI, margin in 0.01 dB, one-hop latency in ps. -/
structure LaneMeas where
  string  : Nat
  line    : Nat
  rx      : Int
  eye     : Nat
  margin  : Int
  latency : Nat
  deriving DecidableEq, Repr

/-- One line of a cartridge at the selector's monitor bank (R166): power in 0.01 dBm, whether its tone is present at the
level of R152, frequency offset in 0.01 GHz. -/
structure HarpLine where
  power  : Int
  toneOk : Bool
  offset : Int
  deriving DecidableEq, Repr

/-- One measurement of a calibration turn (R169, R170): the four corrections, the margin in 0.01 dB and the eye centre in
0.001 UI. -/
structure CalMeas where
  bias   : Int
  drop   : Int
  thresh : Int
  deskew : Int
  margin : Int
  eye    : Int
  deriving DecidableEq, Repr

/-- Which check-value unit a register access names, and for a hub unit the agent that makes it (R342, R347). -/
inductive CvuRef where
  | whippet (w : WhipId)
  | hub (n : Fin 8) (agent : Nat)
  deriving DecidableEq, Repr

/-- What a REGISTER_WRITE writes: a dictionary object, a register of a check-value unit, or an object over the Pod's calibration
interface (R278, R319, R345). -/
inductive WriteTarget where
  | object (index : W16) (sub : Byte) (w : WReq)
  | cvu (u : CvuRef) (off : BitVec 7) (v : W64)
  | calibration (index : W16) (sub : Byte) (w : WReq)
  deriving DecidableEq, Repr

/-- What a READ reads: a dictionary object's value or description record (R281), or a register of a check-value unit
(R345). -/
inductive ReadTarget where
  | object (hdr : DictHdr) (index : W16) (sub : Byte) (what : Byte) (offset max : Nat)
  | cvu (u : CvuRef) (off : BitVec 7)
  deriving DecidableEq, Repr

/-- One kernel of a window (R57): its header, stream descriptors (R63), send entries (R69), conversion identifiers
(R46) and bundles (R61). -/
structure Kernel where
  header  : BitVec 256
  streams : List (BitVec 256)
  sends   : List (BitVec 128)
  conv    : List W32
  bundles : List (BitVec 256)
  deriving DecidableEq, Repr

/-- One locked window of an image (R57): its descriptor, reservation list (R60), barrier table and kernels. -/
structure WindowImg where
  desc     : BitVec 512
  reserve  : List (BitVec 64)
  barriers : List W64
  kernels  : List Kernel
  deriving DecidableEq, Repr

/-- One section of an image with the bytes it places (R250). -/
structure Section where
  kind     : W16
  target   : Byte
  reserved : Byte
  dest     : W32
  source   : W64
  length   : W64
  data     : Bytes
  deriving DecidableEq, Repr

/-- An Ikimor image file (R250): its 128-byte header and manifest, its section table with the placed bytes, the records
of its descriptor sections, the SHA-256 digest of its bytes, and the public key under which its trailer verifies. -/
structure Image where
  header      : BitVec 1024
  manifest    : BitVec 1024
  fileBytes   : Nat
  digest      : Bytes
  signedBy    : Option Bytes
  sections    : List Section
  windows     : List WindowImg
  routines    : List Bytes
  items       : List (BitVec 256)
  variants    : List (BitVec 64)
  successors  : List W32
  collectives : List (BitVec 256)
  sendDescs   : List (BitVec 128)
  winEntries  : List (BitVec 256)
  deriving DecidableEq, Repr

/-- A firmware copy in NOR (R289): its version, and whether its signature verifies. -/
structure NorCopy where
  version : W32
  valid   : Bool
  deriving DecidableEq, Repr

/-- A BEAT_SYNC record's fields (R261); the stamps are in units of 1/65,536 ns. -/
structure SyncRec where
  flags   : Byte
  refNode : W16
  hops    : Byte
  source  : Byte
  utcOff  : W16
  t3      : Nat
  t1      : Nat
  t2      : Nat
  error   : W16
  deriving DecidableEq, Repr

/-- A fabric training record (R191, R192): the agreed level (an accept's alone, 0 in an offer), the highest level offered and the
lowest one, node, port, pod width and height, digest of the active route set. The lowest level stands in no record of the spec: it
tells an offer without level 1 (log entry 95). -/
structure TrainRec where
  agreed : Nat := 0
  level  : Nat
  lowest : Nat
  node   : W16
  port   : Nat
  width  : Nat
  height : Nat
  digest : W32
  deriving DecidableEq, Repr

/-- One tenant entry of a TALLY (R309). -/
structure TallyEntry where
  tenant : W16
  input  : W32
  output : W32
  deriving DecidableEq, Repr

/-- A TALLY message (R309). `crc` is the CRC it carries; `jump` marks the message after a dropped one (R310). -/
structure Tally where
  flags   : Byte
  seq     : W32
  beat    : W64
  entries : List TallyEntry
  jump    : Bool
  crc     : W32
  deriving DecidableEq, Repr

/-- The operand form of an accumulator or stream-out conversion (R65, R67). -/
structure CvtMode where
  sat   : Bool
  stoch : Bool
  conv  : Fin 64
  deriving DecidableEq, Repr

/-- The rows that an ACLR clears: their number less 1, and whether the shadow panel becomes active first; bits 27:22 and 28 of the
matrix slot (R66). -/
structure ClearRows where
  count : Fin 64
  swap  : Bool
  deriving DecidableEq, Repr

/-- The module's input as measured: voltage in mV, power in W (R326). -/
structure InputReading where
  mv : Nat
  w  : Nat
  deriving DecidableEq, Repr

/-- The references of a calibration or verification run: the voltage in mV, and whether the current source is in its range (R319). -/
structure RunReference where
  mv : Nat
  ok : Bool
  deriving DecidableEq, Repr

/-- The commands of the module, one for each row of spec/opcode_table.json, in the table's order. -/
inductive Instr where
  -- disabled-unit map (R22)
  | isolationClear (w : WReq)
  -- windows and kernels (chapter 03)
  | windowSelect (item variant : Nat)
  | slotCutoff (win : Nat)
  | windowLaunch (win : Nat)
  | noOperation (i : Issue)
  | mark (i : Issue)
  | panel (i : Issue) (desc : Fin 32) (row : W16) (adv : Bool)
  | rows (i : Issue) (desc : Fin 32) (row : W16) (count : Fin 64) (adv : Bool)
  | vload (i : Issue) (desc : Fin 32) (row : W16) (vd : VReg) (adv : Bool)
  | astore (i : Issue) (desc : Fin 32) (bank : Fin 4) (row count : Fin 64) (m : CvtMode) (adv : Bool)
  | vstore (i : Issue) (desc : Fin 32) (v : VReg) (m : CvtMode) (adv : Bool)
  | mma (i : Issue) (fa fb : BitVec 5) (bank : Fin 4) (row count : Fin 64) (swap : Bool)
  | mmz (i : Issue) (fa fb : BitVec 5) (bank : Fin 4) (row count : Fin 64) (swap : Bool)
  | aclr (i : Issue) (fa fb : BitVec 5) (bank : Fin 4) (row : Fin 64) (rows : ClearRows)
  | vnop (i : Issue)
  | vadd (i : Issue) (vd va vb : VReg)
  | vsub (i : Issue) (vd va vb : VReg)
  | vmul (i : Issue) (vd va vb : VReg)
  | vfma (i : Issue) (vd va vb vc : VReg)
  | vmax (i : Issue) (vd va vb : VReg)
  | vmin (i : Issue) (vd va vb : VReg)
  | vexp2 (i : Issue) (vd va : VReg)
  | vlog2 (i : Issue) (vd va : VReg)
  | vrcp (i : Issue) (vd va : VReg)
  | vrsqrt (i : Issue) (vd va : VReg)
  | vrsum (i : Issue) (vd va : VReg)
  | vrmax (i : Issue) (vd va : VReg)
  | vbcast (i : Issue) (vd va : VReg) (imm : BitVec 9)
  | vsel (i : Issue) (vd va vb vc : VReg)
  | vcvt (i : Issue) (vd va vc : VReg) (fmt : BitVec 5) (m : CvtMode)
  | acc2v (i : Issue) (vd : VReg) (imm : BitVec 9)
  | viadd (i : Issue) (vd va vb : VReg)
  | vcvti (i : Issue) (vd va : VReg)
  | vcvtf (i : Issue) (vd va : VReg)
  | vl8mul (i : Issue) (vd va vb : VReg)
  | vl8enc (i : Issue) (vd va : VReg)
  | vl8dec (i : Issue) (vd va : VReg)
  | send (i : Issue) (entry : Fin 32) (fromDesc : Bool) (reg : Fin 32) (frames : BitVec 12) (adv : Bool)
  | rsend (i : Issue) (entry : Fin 32) (fromDesc : Bool) (reg : Fin 32) (frames : BitVec 12) (adv : Bool)
  | barrier (i : Issue) (bar : Byte) (offset : W16)
  | barrierCheck (core : CoreId) (bar : Byte)
  | flagSet (i : Issue) (entry : Fin 32) (flag : Fin 64) (value : W32)
  | flagCheck (i : Issue) (flag : Fin 64) (value : W32)
  | beatWait (i : Issue) (offset : BitVec 40)
  | beatWaitEnd (die : DieId)
  | loop (i : Issue) (dist : BitVec 12) (iters : BitVec 12)
  | kernelEnd (i : Issue)
  | drainEnd (core : CoreId)
  | endNotice (core : CoreId)
  | declaredTicksExpiry (core : CoreId)
  | lwWatchdogExpiry (win : Nat)
  | workItemRerun (item : Nat)
  | governorInterval (die : DieId) (ends : Nat)
  | mcClockMhz (w : WReq)
  | ballastEnable (w : WReq)
  -- Whippets, Sheepdog, speculation (chapter 04)
  | stepInstantiate (slot : SlotId)
  | workItemTake (item : Nat) (taker : Nat) (victim : Nat)
  | workItemComplete (item : Nat)
  | stealAttempt (thief : Nat)
  | stealBackoffExpiry (thief : Nat)
  | tokenizer (whip : WhipId) (session req : W32)
  | sampler (whip : WhipId) (ctx : Nat)
  | draftExecutor (whip : WhipId) (ctx : Nat) (level : Nat)
  | treeBuilder (whip : WhipId) (ctx : Nat)
  | detokenizer (whip : WhipId) (ctx : Nat)
  | prefixHasher (whip : WhipId) (session req : W32)
  | housekeeping (whip : WhipId)
  -- on-die memory and arbitration (chapter 05)
  | arbiterDecision (arb : Nat) (cand : List Nat)
  | arbCommit (w : WReq)
  | scrubPass (die : DieId) (words : List (Nat × Nat))
  | cacheAccess (die : DieId) (home : Nat) (store : Option Bytes) (len : Nat)
  | pageFillDone (die : DieId) (page : Nat)
  | kvOwnerMove (page : Nat) (dst : DieId)
  | dieReset (die : DieId)
  | dieResetEnd (die : DieId) (xing : List (Nat × List (Nat × Int)))
  -- strings (chapter 06)
  | frameTime (n : StringId)
  | writeFrame (n : StringId) (f : Frame)
  | sendWindowFlush (rim : RimId) (win : Nat)
  | rpart (n : StringId) (f : Frame)
  | readReq (n : StringId) (f : Frame)
  | readDataFrame (n : StringId) (f : Frame)
  | flagFrame (n : StringId) (f : Frame)
  | barrierFrame (n : StringId) (f : Frame)
  | statusFrame (n : StringId) (f : Frame)
  | launchFrame (n : StringId) (f : Frame)
  | idleFrame (n : StringId) (f : Frame)
  | bcast (n : StringId) (tap : SiteId) (f : Frame)
  | bcastSend (n : StringId) (kind : Byte)
  | trainOffer (n : StringId) (f : Frame)
  | trainAccept (n : StringId) (f : Frame)
  | laneMap (n : StringId) (f : Frame)
  | laneMapEffect (n : StringId)
  | relayCredits (n : StringId) (f : Frame)
  | echo (n : StringId) (f : Frame)
  | ackTimeout (n : StringId)
  | lossOfLock (n : StringId)
  | laneCheckDone (n : StringId) (lanes : List LaneMeas)
  | frozenTimeout (n : StringId)
  | laneRecheck (n : StringId) (lanes : List LaneMeas)
  | marginEstimate (n : StringId) (line : LineId) (rx : Int)
  | marginTest
  | marginTestDone (lanes : List LaneMeas)
  | marginTestRequest (w : WReq)
  | tileReset (w : WReq)
  | tileResetDrained (site : SiteId)
  | tileWatchdog (site : SiteId)
  -- Harps, pegs, calibration, Sounding (chapter 07)
  | harpInsert (slot : HarpSlot) (serial : W64) (hours : W32)
  | harpTestDone (slot : HarpSlot) (lines : List HarpLine)
  | harpRemovalRequest (w : WReq)
  | cartridgeRemoved (slot : HarpSlot)
  | pegSample (n : StringId) (line : LineId) (ring : Fin 5) (detuning : Int) (heater : W16)
  | fretCheckDone (n : StringId) (line : LineId) (ring : Fin 5) (expected : Int) (tones : List Int)
  | harpMonitorSample (slot : HarpSlot) (power : List Int)
  | handoverManual (w : WReq)
  | spareReady (slot : HarpSlot) (lines : List HarpLine)
  | creditHoldStart (d : DomainId)
  | selectorSwitch (d : DomainId)
  | handoverRelease (d : DomainId)
  | holdLimitExpiry (d : DomainId)
  | fadeFit (d : DomainId)
  | calTurnStart (n : StringId) (line : LineId)
  | calTurnDone (n : StringId) (first repeated : CalMeas)
  | soundingStart (w : WReq)
  | soundingDone (powers : List Int)
  -- DRAM (chapter 08)
  | dramTrainingDone (k : StackId) (channels : W16) (full : Bool)
  | dramRecenter (k : StackId) (channel : Fin 16)
  | refresh (k : StackId)
  | dramScrub (k : StackId) (unit : Nat) (err : Fin 3)
  | imageDataReloadDone (slot : SlotId)
  -- fabric (chapter 09)
  | portPhyLock (p : PortId)
  | fabricTrainOffer (p : PortId) (r : TrainRec)
  | fabricTrainAccept (p : PortId) (r : TrainRec)
  | portTrainRetry (p : PortId)
  | fabricEcho (p : PortId) (beat : W64) (own : Bool)
  | dataBlock (p : PortId) (ctl : BitVec 80) (flits : Bytes)
  | blockTime (p : PortId)
  | linkRetryTimeout (p : PortId)
  | portDown (p : PortId)
  | packetRoute (p : PortId) (pkt : Packet)
  | load (p : PortId) (pkt : Packet)
  | get (p : PortId) (pkt : Packet)
  | atomic (p : PortId) (pkt : Packet)
  | fabricFlag (p : PortId) (pkt : Packet)
  | fabricBarrier (p : PortId) (pkt : Packet)
  | store (p : PortId) (pkt : Packet)
  | put (p : PortId) (pkt : Packet)
  | mcastPut (p : PortId) (pkt : Packet)
  | cpart (p : PortId) (pkt : Packet)
  | collTimeout (rim : RimId) (slot : Byte)
  | loadData (pkt : Packet)
  | getData (pkt : Packet)
  | atomicData (pkt : Packet)
  | ack (pkt : Packet)
  | status (pkt : Packet)
  | rateIncreaseTick
  | routeSetStaged (w : WReq)
  | routeActivateBeat (w : WReq)
  | routeActivation
  | drainRound
  | routeQuery (p : PortId) (pkt : Packet)
  | routeReport (pkt : Packet)
  | routeRelease (p : PortId) (pkt : Packet)
  | silentMemberExpiry (node : W16)
  | coordinatorTakeover
  | activationMissed (node : W16)
  | fiApply (w : WReq)
  -- remote memory and Retriever (chapter 10)
  | commandRecord (queue : Fin 64) (r : BitVec 512)
  | rmemTimeout (tag : W16)
  | unreachableHoldExpiry (node : W16)
  | tagQuarantineExpiry (tag : W16)
  | windowTableEffect
  | retrieverEnable (w : WReq)
  | retrieverOpen (m : GwMsg)
  | retrieverAccept (m : GwMsg)
  | retrieverRead (m : GwMsg)
  | retrieverReadData (m : GwMsg)
  | flush (m : GwMsg)
  | flushAck (m : GwMsg)
  | retrieverIdle (m : GwMsg)
  | retrieverResend (q : PodId)
  | retrieverSessionTimeout (q : PodId)
  | coalesceExpiry (slice : RimId) (buf : Nat)
  | storeAgeExpiry (slice : RimId) (buf : Nat)
  -- serving and images (chapter 11)
  | ipv4Frame (port : Fin 2)
  | icmpv6Message (port : Fin 2) (type : Byte) (data : Bytes)
  | openSession (d : Dgram)
  | request (d : Dgram)
  | prompt (d : Dgram)
  | cancel (d : Dgram)
  | serveAck (d : Dgram)
  | close (d : Dgram)
  | reservedKind (d : Dgram)
  | serveResend (session : W32)
  | ackDue (session : W32)
  | sessionTimeout (session : W32)
  | promptTimeout (session : W32) (req : W32)
  | prefillComplete (ctx : Nat) (ns : Nat)
  | deadlineExpiry (ctx : Nat)
  | slotLoad (slot : SlotId) (w : WReq)
  | slotLoadDone (slot : SlotId)
  | slotUnloadDrain (slot : SlotId) (w : WReq)
  | slotUnloadForce (slot : SlotId) (w : WReq)
  | slotDrained (slot : SlotId)
  | imageUpload (w : WReq) (image : Option Image)
  | imageTrustKey (k : Fin 4) (w : WReq)
  | tenantKey (t : BitVec 12) (w : WReq)
  | storeSel (w : WReq)
  -- time base and clocks (chapter 12)
  | ppsEdge (interval : Nat) (ppb : Int) (phase : Int)
  | refClockLoss
  | ptpSync (offset : Int) (tai : Nat) (utc : Option W16) (master : W64)
  | ptpLoss
  | fabricSyncLoss
  | sourceRevalid (src : Fin 4)
  | timeLock
  | beatSync (p : PortId) (r : SyncRec) (t4 : Nat)
  | beatSyncSend (p : PortId)
  | beatSecondsSet (w : WReq)
  | syncReferenceNode (w : WReq)
  | droopTrip (site : SiteId) (edges : Fin 3)
  | freqStep (die : DieId) (xing : List (Nat × List (Nat × Int)))
  -- dictionary, states, controllers, ensembles (chapter 13)
  | read (t : ReadTarget)
  | registerWrite (t : WriteTarget)
  | stage (index : W16) (sub : Byte) (w : WReq)
  | commit (hdr : DictHdr) (count : W32) (digest : W32)
  | subscribe (hdr : DictHdr) (index : W16) (sub : Byte) (mode : Byte) (period : W16) (id : W16)
  | notify (client : W32) (id : W16)
  | stageIdleTimeout
  | stageDiscard (w : WReq)
  | configRestore (w : WReq)
  | powerOnRequest (w : WReq)
  | serveEnable (w : WReq)
  | drainRequest (w : WReq)
  | drainingDone
  | restartRequest (w : WReq)
  | bootStart (nor0 nor1 : List NorCopy) (pass0 pass1 : Bool) (copy0 copy1 : Bytes) (fails : List Nat)
  | bootComplete (elapsedMs : W32)
  | controlCycle (input : InputReading) (agree : Bool)
  | controllerKatDone (active standby : Bool)
  | tandemLoss
  | cycleWatchdog
  | controllerRestore (w : WReq) (pass : Bool)
  | takeoverDrill (w : WReq)
  | drillAuto
  | drillTakeoverTimeout
  | ensRecord (key : Bytes) (r : BitVec 512)
  | rollCall
  | ensembleStart
  | heartbeat
  | heartbeatMissing (node : W16)
  | ensResume (w : WReq)
  | ensDissolve (w : WReq)
  -- Metering Pod (chapter 14)
  | tallySend
  | tally (m : Tally)
  | tallyAck (seq : W32)
  | tallyResend
  | timeSend
  | time (utc : W64)
  | intervalClose (energyUwh : Nat)
  | podPowerLoss (energyUwh : Nat)
  | podPowerUp (clockNow : W64)
  | coverOpen
  | coverClose
  | calRunCalibrate
  | calRunDone (ref : RunReference) (temp : Int) (first repeated : List Int)
  | calRunVerify
  | verifyDone (ref : RunReference) (temp : Int) (first repeated : List Int)
  | podFirmwareReplace (version : W32) (digest : Bytes)
  | podSelfCheck
  -- power and thermal (chapter 15)
  | inputInRange (mv : Nat)
  | overVoltage (mv : Nat)
  | inputHigh (mv : Nat)
  | brownOut (mv : Nat)
  | inputLoss (mv : Nat)
  | rideThrough (mv : Nat)
  | holdupExpiry
  | currentLimitExpiry
  | thermalSample (site : SiteId) (die : Fin 14) (reading : List Int) (model : List Int)
  | ceilingStep (die : DieId)
  | thermalShutdownClear (w : WReq)
  | partitionReloadDone (die : DieId)
  -- check-value units (chapter 16)
  | data8 (u : CvuRef) (v : Byte)
  | data16 (u : CvuRef) (v : W16)
  | data32 (u : CvuRef) (v : W32)
  | ctrl (u : CvuRef) (v : W32)
  | cvuStart (u : CvuRef) (v : W32)
  | value (u : CvuRef) (v : W64)
  | owner (n : Fin 8) (agent : Nat) (v : Byte)
  -- self-test, test mode, injection, trace, log (chapter 17)
  | katPeriodic (unit : Nat)
  | katRequest (w : WReq)
  | matrixCoreKat (c : CoreId)
  | matrixCoreKatDone (c : CoreId) (pass : Bool)
  | whippetKat (w : WhipId)
  | whippetKatDone (w : WhipId) (pass : Bool)
  | testModePermit (w : WReq)
  | testModeUnlock (w : WReq)
  | testModeLock (w : WReq)
  | testModeExpiry
  | sfiApply (w : WReq)
  | fiStopAll (w : WReq)
  | traceRecord (site : SiteId) (unit : W16) (kind : Byte) (payload : Bytes)
  | beagleEnable (w : WReq)
  | beagleClear (w : WReq)
  | logSuppressSummary
  | logSel (w : WReq)
  | logClear (w : WReq)
  -- the table's last rows
  | tileResetDone (site : SiteId)
  | servingPortLinkChange (port : Fin 2) (up : Bool)
  | inputThresholdClear (mv : Nat)
  | uartIdleResync
  | supercapacitorExhausted
  | coinCellExhausted
  deriving DecidableEq, Repr

end Sys2Proof
end

