-- ==== Sys2Proof/Config.lean ====
section
/-! DEFINITION. What the spec leaves open: constants with no body, so that nothing can be proved of a value. -/

namespace Sys2Proof.Config

/-- The byte drawn at count n: bytes a window exit or a failed transfer leaves undefined (R76, R137, R225), bytes of a
page that no fill has covered. -/
opaque freeByte : Nat → BitVec 8
/-- Whether the read drawn at count n met an error that the code corrected (R112, R185). -/
opaque readCorrected : Nat → Bool
/-- The 64-bit value drawn at count n, for a quantity whose value the spec does not give. -/
opaque freeWord : Nat → BitVec 64
/-- The draft model of R90, whose layers the spec names without their formats: element code of the last hidden row, from the bytes of
the draft section, the token history and the draft KV entries attended to. -/
opaque draftHidden : List (BitVec 8) → List (BitVec 32) → List (List (BitVec 8)) → Nat → Nat
/-- Block scale code of that row. -/
opaque draftHiddenScale : List (BitVec 8) → List (BitVec 32) → List (List (BitVec 8)) → Nat → Nat
/-- Element code of a token's row of the shared embedding and output matrix, from the bytes of the draft section (R90). -/
opaque draftEmbed : List (BitVec 8) → Nat → Nat → Nat
/-- Block scale code of that row. -/
opaque draftEmbedScale : List (BitVec 8) → Nat → Nat → Nat
/-- Draft KV entry of the last token of a history (R90, R103). -/
opaque draftEntry : List (BitVec 8) → List (BitVec 32) → List (BitVec 8)
/-- Flags that the layers of the draft model raise in one pass (R52). -/
opaque draftFlags : List (BitVec 8) → List (BitVec 32) → Nat
/-- Where a tree record stands in die-shared SRAM (R92), which the spec does not say: tree builder descriptor and first logit row of
the stream. -/
opaque treeRecordAt : List (BitVec 8) → Nat → Nat
/-- Weight of an activity counter of a die, calibrated at manufacture (R78): die and counter, in 0.1 W / 2²⁰ for one unit counted in
1 µs; counter 8 is the power of the idle die. -/
opaque powerCoeff : Nat → Nat → Nat
/-- Die holds that a ceiling inserts in one governor interval (R78, R331): die power wanted and ceiling, 0.1 W. -/
opaque holdsFor : Nat → Nat → Nat
/-- Ballast cycles that raise a die to its floor in one governor interval (R78): power wanted and floor, 0.1 W. -/
opaque ballastFor : Nat → Nat → Nat
/-- Length bound that the description record of a segmented DOMAIN shows where the tables give none (R277): object key. -/
opaque domainMaxLength : Nat → BitVec 32
/-- The Ed25519 signature the Pod puts on a record (R312): the record's bytes before it. -/
opaque podSignature : List (BitVec 8) → List (BitVec 8)
/-- Heater codes that the feed-forward of a peg loop adds (R154), whose function of the neighbours the spec does not state: the rim
number and averaged power, 0.1 W, of each neighbouring site it has heard by BCAST 0x02. -/
opaque pegForward : List (Nat × Nat) → Int

/-- What the replica of a site reads while it runs free on its die's clock source (R271): site and hub counter. -/
opaque replicaFree : Nat → Nat → Nat

end Sys2Proof.Config
end

