-- ==== Sys2Proof/Machine/State.lean ====
section
/-! DEFINITION. The state of the Zarel module: plain data, every field with the rule of spec/ that names it and, after
`:=`, its value at reset. `State.reset` is the module as manufactured, before input power is applied. -/

namespace Sys2Proof.Machine

/-- Why the module stops. -/
inductive Fault where
  /-- Raised by OVER_VOLTAGE: the input is above 450 V, where R323 promises no behaviour. Safe: nothing is claimed of a
  module beyond its absolute maximum. -/
  | beyondAbsoluteMaximum
  deriving DecidableEq, Repr

/-- Why a command has no meaning here. -/
inductive Refusal where
  /-- Raised by an arm of `exec` that has no meaning yet, with the row's mnemonic. Safe: nothing is claimed of it. -/
  | notModelled (mnemonic : String)
  deriving DecidableEq, Repr

/-- Accumulator type of a row (R66). -/
inductive AccTag where
  | untagged | fp32 | int32
  deriving DecidableEq, Repr

/-- A row of operand codes: format, element codes (`none` marks a padding lane, R56), block or row scales, and the tick
from which it is usable (R62). -/
structure Row where
  fmt    : Nat := 0
  codes  : List (Option Nat) := []
  scales : List Nat := []
  usable : Nat := 0
  deriving DecidableEq, Repr

/-- A panel: its format (none before it is read), one row of codes for each output column (R53, R55), and the tick from
which it is usable. -/
structure Panel where
  fmt    : Option Nat := none
  cols   : List Row := []
  usable : Nat := 0
  deriving DecidableEq, Repr

/-- A vector register: its lanes, and the results in flight: tick due and leading lanes written (R68, R72). -/
structure VecReg where
  lanes  : List W32 := List.replicate 512 0
  flight : List (Nat × List W32) := []
  deriving DecidableEq, Repr

/-- An accumulator row: tag, 192 columns, and the first tick at which it may be touched (R66, R72). -/
structure AccRow where
  tag   : AccTag := .untagged
  vals  : List W32 := List.replicate 192 0
  ready : Nat := 0
  deriving DecidableEq, Repr

/-- A matrix operation under way (R66): MMZ or MMA, its fields, the tick of its first row and the rows issued. -/
structure MxOp where
  zero  : Bool
  fa    : Nat
  fb    : Nat
  bank  : Nat
  row   : Nat
  count : Nat
  start : Nat
  done  : Nat
  deriving DecidableEq, Repr

/-- An ASTORE under way (R65): descriptor and cursor at issue, its fields, the tick of its first row, rows read. -/
structure OutOp where
  desc  : BitVec 256
  cur   : Nat
  bank  : Nat
  row   : Nat
  count : Nat
  mode  : CvtMode
  start : Nat
  done  : Nat
  deriving DecidableEq, Repr

/-- A write that has left a core and becomes visible at tick `vis` (R62). -/
structure PendWrite where
  vis  : Nat
  addr : Nat
  data : Bytes
  deriving DecidableEq, Repr

/-- A held send channel (R139): its number and the frames not yet accepted at the first hop. -/
structure SendChan where
  id   : Nat
  left : Nat
  deriving DecidableEq, Repr

/-- The kernel of no bundles. -/
def emptyKernel : Kernel := { header := 0, streams := [], sends := [], conv := [], bundles := [] }

/-- One Matrix Core (R53) with its window state (R73). -/
structure Core where
  /-- `core_state_n` (R80): 0 free, 1 in window, 2 draining, 3 known-answer test; 4 and 5 follow from the map. -/
  state    : Nat := 0
  /-- Handle of the open window it takes part in (R57, R73). -/
  win      : Option Nat := none
  /-- Kernel, descriptors and identifiers in use (R57). -/
  kernel   : Kernel := emptyKernel
  /-- Flush-to-zero setting of the window (R57). -/
  ftz      : Bool := false
  /-- Work item the window runs (R79). -/
  item     : Nat := 0
  /-- Launch beat B_L (R73). -/
  launch   : Nat := 0
  /-- Tick of the last issue (R53, R61). -/
  tick     : Nat := 0
  /-- Index of the bundle last issued, and of the one to issue next (R61, R70). -/
  bundle   : Nat := 0
  /-- Index of the bundle that follows the last repetition of this one (R70). -/
  nextBundle : Nat := 0
  /-- Repetitions of the bundle issued before this one, and the slots of it that have issued at this tick: 0 stream-in, 1
  matrix, 2 vector, 3 stream-out, 4 sync/send, 5 the mark, 6 the end (R61). -/
  rep      : Nat := 0
  did      : List Nat := []
  /-- Loop stack: bundle index of the LOOP and iterations left (R53, R70). -/
  loops    : List (Nat × Nat) := []
  /-- Exit code of R76; 0 while none. -/
  exit     : Nat := 0
  /-- Bundle at which the window ended (R79); 0xFF_FFFF for OK or PEER. -/
  faultBundle : Nat := 0xFFFFFF
  /-- The end bundle has issued (R73). -/
  ended    : Bool := false
  /-- Arithmetic status word (R52). -/
  astat    : W16 := 0
  /-- Stream cursors by descriptor (R63). -/
  cursors  : Tab Nat := []
  /-- The 64 flags (R53, R70). -/
  flags    : Tab W32 := []
  /-- Tick at which each flag was last written (R115). -/
  flagAt   : Tab Nat := []
  /-- Barrier arrivals: mask of arrived cores by barrier (R70). -/
  arrivals : Tab W64 := []
  /-- Armed barrier checks: barrier and check tick (R70). -/
  checks   : List (Nat × Nat) := []
  /-- Vector registers v0–v31 (R53). -/
  regs     : Tab VecReg := []
  /-- Active panel (R53). -/
  active   : Panel := {}
  /-- Shadow panel read and not yet swapped in (R53, R72). -/
  shadow   : Option Panel := none
  /-- Activation queue, head first (R53). -/
  queue    : List Row := []
  /-- Accumulator file by 64 × bank + row (R53). -/
  acc      : Tab AccRow := []
  /-- Row-token table (R65, R73). -/
  tokens   : List W32 := []
  /-- End ticks of stream-in operations in progress (R64). -/
  inBusy   : List Nat := []
  /-- End ticks of stream-out operations in progress (R65), and the ASTOREs among them. -/
  outBusy  : List Nat := []
  outs     : List OutOp := []
  /-- Matrix operation under way (R66), and the first tick at which the matrix slot is free. -/
  mx       : Option MxOp := none
  mxBusy   : Nat := 0
  /-- Activity of the governor's interval under way (R78): 0 to 3 MACs of the pairs at 24,576, 49,152, 98,304 and 196,608 MACs
  per cycle, 4 SRAM bytes, 5 Soundboard bytes, 6 vector operations. -/
  acts     : Tab Nat := []
  /-- Flag writes on their way to this core: tick, flag, value (R70). -/
  flagIn   : List (Nat × Nat × W32) := []
  /-- Tick by which its flag writes to cores of its own die have taken effect (R73 step 6). -/
  flagsBy  : Nat := 0
  /-- Writes on their way to memory (R62). -/
  pend     : List PendWrite := []
  /-- Send channels held (R139). -/
  sends    : List SendChan := []
  /-- Next send channel number. -/
  nextChan : Nat := 0
  /-- Address progress of each send entry (R69). -/
  sendCur  : Tab Nat := []
  /-- Die holds and BEAT_WAIT cycles in the window (R79). -/
  holds    : Nat := 0
  /-- Cycles stretched during the window (R79). -/
  stretch  : Nat := 0
  /-- Beat a BEAT_WAIT waits for, and the beat at which it began (R70). -/
  waitBeat : Option Nat := none
  waitFrom : Nat := 0
  /-- A known-answer test of this core failed once and is repeating, and the beat at which the run under way began (R356). -/
  katRepeat : Bool := false
  katAt    : Nat := 0
  /-- Kernel status ring, oldest first, at most 64 (R79). -/
  ring     : List (BitVec 256) := []
  deriving DecidableEq, Repr

/-- A reduce target of a window (R114, R138): die, window handle, memory key of its start, length, reduce type,
contributing cores. -/
structure RedTarget where
  die  : Nat
  win  : Nat
  addr : Nat
  len  : Nat
  type : Nat
  mask : W64
  deriving DecidableEq, Repr

/-- Staging of one 64-byte chunk of a reduce target (R114, R138): memory key, cores added, running sum, and the partials
that wait for a lower core: core, where the frame waits (0 a relay sub-buffer, 2 a Collective sub-buffer, 1 its sender's send
channel), that
string or channel, payload. -/
structure RedChunk where
  win   : Nat
  addr  : Nat
  added : W64
  sum   : Bytes
  wait  : List (Nat × Nat × Nat × Bytes)
  deriving DecidableEq, Repr

/-- A locked window from selection to release (R73). -/
structure Win where
  id       : Nat := 0
  windowId : W32 := 0
  slot     : Nat := 0
  item     : Nat := 0
  parts    : W64 := 0
  b0       : Nat := 0
  launch   : Nat := 0
  /-- `lw_watchdog_beats` as it stood at launch (R75, R76). -/
  watchdog : Nat := 0
  /-- 0 selected, 1 cut off, 2 open. -/
  phase    : Nat := 0
  desc     : BitVec 512 := 0
  barriers : List W64 := []
  reserve  : List (BitVec 64) := []
  kernels  : List Kernel := []
  drained  : W64 := 0
  /-- Exit code that ended the window, 0 for OK (R76). -/
  code     : Nat := 0
  /-- Ranges the window has written: key and length. -/
  wrote    : List (Nat × Nat) := []
  /-- Request seeds by row and image seed of its conversions (R46). -/
  seeds    : List W64 := []
  imageSeed : W64 := 0
  plan     : List RedTarget := []
  deriving DecidableEq, Repr

/-- A page of the Soundboard cache (R118). -/
structure CacheEnt where
  page   : Nat
  valid  : Bool
  dirty  : Bool
  pinned : Bool
  age    : Nat
  deriving DecidableEq, Repr

/-- A read at a die-shared SRAM port group that later reads may join (R113). -/
structure MergeRead where
  at_    : Nat
  who    : Nat
  addr   : Nat
  len    : Nat
  joined : Nat
  deriving DecidableEq, Repr

/-- A flag write or barrier arrival accepted at a die and held until sums that its source has contributed to, and inbound
writes that stand before it, are written (R70, R136): target core, flag or barrier number, value, source die of an arrival (none
for a flag), the targets that it waits for (window and key), the numbers of the inbound writes, and the core that issued it on
this die (64 for one from another die). -/
structure FlagWait where
  core : Nat
  num  : Nat
  value : W32
  src  : Option Nat
  deps : List (Nat × Nat)
  writes : List Nat := []
  issuer : Nat := 64
  deriving DecidableEq, Repr

/-- A place in the order of the partials that wait at a die (R136, R138): core, where its frame waits and that string or channel,
as in `RedChunk`, the window and the key of its chunk. -/
structure RedPos where
  core : Nat
  kind : Nat
  id   : Nat
  win  : Nat
  addr : Nat
  deriving DecidableEq, Repr

/-- An inbound WRITE that waits for the die-port arbiter (R140): its number, port (0 die-shared, 1 Soundboard), source site, byte
address in the die's map, bytes, and the string and buffer whose credit it holds: string 1,126 for the sum of a window that has
no participant on the die, with the window's handle for the buffer. -/
structure InWrite where
  n    : Nat
  port : Nat
  src  : Nat
  addr : Nat
  data : Bytes
  string : Nat
  buf  : Nat
  deriving DecidableEq, Repr

/-- A locked partition on a die (R117): image slot, first MiB, MiB. -/
structure Partition where
  slot : Nat
  base : Nat
  mib  : Nat
  deriving DecidableEq, Repr

/-- One compute die: memory system, governor, clocks (R78, R110–R119, R269, R331). -/
structure Die where
  /-- Soundboard state (R124): 0 active, 1 retention, 2 throttled, 3 fault. -/
  sb        : Nat := 0
  /-- Soundboard contents lost in a shutdown, to be reloaded (R333). -/
  sbLost    : Bool := false
  /-- In functional reset (R119), with the beat at which it began. -/
  reset     : Option Nat := none
  /-- Rails off in thermal shutdown (R332). -/
  off       : Bool := false
  /-- Cache directory by entry (R118). -/
  dir       : Tab CacheEnt := []
  /-- Page fills in progress: home page and reads outstanding (R118, R178). -/
  fills     : List (Nat × Nat) := []
  /-- Dynamic stores that wait for their page's fill: home address and bytes (R118). -/
  late      : List (Nat × Bytes) := []
  /-- Locked partitions (R117). -/
  parts     : List Partition := []
  /-- Staging area in KiB (R111). -/
  stageKib  : Nat := 0
  /-- Reads that may still be joined (R113). -/
  merges    : List MergeRead := []
  /-- Reduction staging (R114, R138). -/
  chunks    : List RedChunk := []
  /-- The partials that wait, in order of arrival (R136, R138). -/
  redq      : List RedPos := []
  /-- Flags and arrivals held behind sums and writes (R136). -/
  flagWait  : List FlagWait := []
  /-- Inbound writes that wait for the port arbiter, and the number of the next (R140). -/
  inq       : List InWrite := []
  inN       : Nat := 0
  /-- Frames the lightbed tile has sent in the governor's interval under way, and the beat at which the last interval ended
  (R78). -/
  tileActs  : Nat := 0
  intervalAt : Nat := 0
  /-- Interval powers of the governor, newest first, at most 49 (R78), 0.1 W. -/
  hist      : List Nat := []
  /-- Ceiling of thermal conditions, 0.1 W (R331). -/
  thermCeil : Option Nat := none
  /-- Ceiling of the power cap, 0.1 W (R326). -/
  capCeil   : Option Nat := none
  /-- Beat of the last step of its ceilings (R326, R331). -/
  ceilBeat  : Nat := 0
  /-- Present Matrix Core clock, MHz (R275). -/
  clock     : Nat := 1600
  /-- Clock wanted while a change is pending (R269). -/
  want      : Option Nat := none
  /-- Beat of the last frequency step (R269). -/
  stepBeat  : Nat := 0
  /-- Crossing results by index: 0 pass, 1 passed on retry, 2 failed; residual in ps (R268). -/
  xing      : Tab (Nat × Int) := []
  /-- Scrub passes done, and the beat of the last (R112). -/
  scrubs    : Nat := 0
  scrubAt   : Nat := 0
  /-- Launch records received and not yet launched: window_id, launch beat, participants (R73, R130). -/
  launches  : List (Nat × Nat × Nat) := []
  deriving DecidableEq, Repr

/-- One Whippet (R81, R83). -/
structure Whip where
  /-- 0 idle, 1 running a routine, 2 known-answer test. -/
  state     : Nat := 0
  /-- Work item it runs. -/
  item      : Nat := 0
  /-- Arithmetic status word (R52). -/
  astat     : W16 := 0
  /-- A known-answer test failed once and is repeating (R358). -/
  katRepeat : Bool := false
  /-- Local SRAM, 1 MiB (R81), in the form of `State.mem`: the buffer the last routine left there. -/
  sram      : List Host.Cell := []
  /-- The two DMA channels (R81): memory key and bytes of the last transfer inwards and of the last outwards. -/
  dmaIn     : Nat × Nat := (0, 0)
  dmaOut    : Nat × Nat := (0, 0)
  /-- The matrix unit's accumulator column and the operand lanes of the vector unit that the last routine left (R81, R82). -/
  mxAcc     : List W32 := List.replicate 32 0
  lanes     : List W32 := List.replicate 16 0
  deriving DecidableEq, Repr

/-- A work item in flight (R95). -/
structure WorkItem where
  id       : Nat := 0
  slot     : Nat := 0
  kind     : Nat := 0
  pending  : Nat := 0
  deadline : W64 := 0xFFFFFFFFFFFFFFFF
  variants : List (BitVec 64) := []
  succ     : List Nat := []
  set_     : Nat := 0
  /-- Context the item serves, for routines and prefill. -/
  ctx      : Option Nat := none
  /-- 0 queued, 1 taken, 2 failed and waiting to rerun, 3 run. -/
  status   : Nat := 0
  /-- Variant it runs as, once taken. -/
  taken    : Option (BitVec 64) := none
  /-- Successive reruns (R77). -/
  reruns   : Nat := 0
  /-- Exit code of the last failed run, 0 for none (R77). -/
  failed   : Nat := 0
  /-- Cores under the tests of R77 that the rerun waits for, and whether the tests of this row of failures have been run. -/
  tests    : W64 := 0
  tested   : Bool := false
  /-- Position of its first token, for a prefill chunk (R245). -/
  first    : Nat := 0
  deriving DecidableEq, Repr

/-- Stealing state of a core (0–63) or Whippet (64 + w) (R98, R99). -/
structure Thief where
  /-- Depth average of each victim queue, unsigned 8.8 (R99). -/
  avg     : Tab W16 := []
  /-- Beat until which an empty attempt waits (R98). -/
  backoff : Option Nat := none
  deriving DecidableEq, Repr

/-- A stream-set record (R95, R102): image slot, its streams as context and speculation nodes granted (0 for a plain
step), and the contexts whose part of the step is over. -/
structure StepSet where
  slot    : Nat := 0
  streams : List (Nat × Nat) := []
  over_   : List Nat := []
  deriving DecidableEq, Repr

/-- The Sheepdog (R95–R103). -/
structure Sched where
  items   : List WorkItem := []
  nextId  : Nat := 0
  thieves : Tab Thief := []
  /-- Latency class in 0.5 ns steps by 16 × from-die + to-die (R99). -/
  latency : Tab Nat := []
  /-- Stream-set records by number (R95, R102). -/
  sets    : Tab StepSet := []
  nextSet : Nat := 0
  nextWin : Nat := 0
  /-- Launches stopped by an input loss (R325). -/
  halted  : Bool := false
  deriving DecidableEq, Repr

/-- An arbiter (R121). -/
structure Arb where
  /-- Wait counts by requester. -/
  wait   : Tab Nat := []
  rr     : Nat := 0
  /-- Priorities and limit in force here, once a commit has reached the arbiter (R122); `none` for the defaults. -/
  prio   : Option (List Nat) := none
  limit  : Nat := 16
  /-- Committed priorities and limit that take effect at the next decision point, and the beat by which they have (R122). -/
  next   : Option (List Nat × Nat × Nat) := none
  /-- Of a port that throttle halves (R332): decision points of the present sixteen, and grants among them. -/
  points : Nat := 0
  given  : Nat := 0
  deriving DecidableEq, Repr

/-- A frame held by a string transmitter: header without seq, ack, credit and link_tag, its payload, the TDM slots of a
window frame (R60, R71), and the send channel to release (R139). -/
structure TxFrame where
  hdr     : BitVec 96
  payload : Bytes
  slots   : Option W16 := none
  chan    : Option (Nat × Nat) := none
  /-- Window whose traffic it is (R60), and whether it is replayed over a relay (R145). -/
  win     : Option Nat := none
  replay  : Bool := false
  /-- Order in which it reached the transmitter, and the beat at which it was last serialised (R135, R145). -/
  n       : Nat := 0
  sent    : Nat := 0
  deriving DecidableEq, Repr

/-- One lane of a string: last measurement and role (R142, R149). -/
structure Lane where
  rx       : Int := 0
  eye      : Nat := 0
  /-- Current margin estimate, 0.01 dB. -/
  margin   : Int := 0
  /-- Received power and margin at the last test (R142). -/
  testRx   : Int := 0
  testMargin : Int := 0
  /-- Usable and not mapped out. -/
  usable   : Bool := false
  /-- Logical lane it served when a peg alarm moved that lane away (R157). -/
  lane     : Option Nat := none
  /-- Successive calibration refusals (R170). -/
  refusals : Nat := 0
  /-- Tile temperatures of the transmitting and the receiving end at the last calibration, 0.1 °C (R168). -/
  calTx    : Int := 0
  calRx    : Int := 0
  /-- Correction sets at 30, 50, 70, 85 and 100 °C (R169): bias of the transmitting end; drop, threshold and deskew of the receiving
  end, for each drop ring of a bus from 1 on. -/
  bias     : List Int := List.replicate 5 0
  cal      : Tab (List (Int × Int × Int)) := []
  deriving DecidableEq, Repr

/-- A peg loop (R154); of a string, ring r of line l at 8 l + r. -/
structure Peg where
  /-- 0 IDLE, 1 ACQUIRE, 2 VERIFY, 3 LOCKED, 4 PARKED, 5 FAILED. -/
  state    : Nat := 0
  heater   : W16 := 0
  /-- Detuning from the set point, 0.1 GHz. -/
  detuning : Int := 0
  /-- Successive samples beyond 8 GHz (R155). -/
  beyond   : Nat := 0
  /-- Line decoded at the last fret check; 0xFF dark. -/
  fret     : Nat := 0xFF
  /-- Steps taken in wrong-line recovery, and the line spacings stepped, upward in line number (R157). -/
  steps    : Nat := 0
  toward   : Int := 0
  /-- Frozen while its light is interrupted; not yet locked since it began to sweep from code 0 (R154). -/
  frozen   : Bool := false
  cold     : Bool := true
  /-- Set point from its calibration set (R154, R169). -/
  setPoint : Int := 0
  deriving DecidableEq, Repr

/-- Fault injection on a string or a port (R221, R362, R363). -/
structure Inject where
  mode    : Nat := 0
  rate    : Nat := 20
  pattern : Nat := 0
  burst   : Nat := 1
  seed    : W32 := 0
  classes : Nat := 0x0F
  /-- Units counted since the apply write. -/
  unit    : Nat := 0
  /-- Units left of a burst. -/
  left    : Nat := 0
  /-- Beat of the apply write; the first of a pair that mode 3 may swap has passed. -/
  at_     : Nat := 0
  half    : Bool := false
  deriving DecidableEq, Repr

/-- A string: link state at both ends (R125–R148). -/
structure Str where
  /-- R144: 0 FULL, 1 FULL_NOSPARE, 2 REDUCED, 3 OUT, 4 FROZEN, 5 DOWN, 6 TRAINING. -/
  state     : Nat := 3
  /-- Lane map: physical line of each logical lane, entry 16 the spare (R127). -/
  map       : List Nat := List.replicate 17 0x1F
  /-- Lane map to come and its frame count, which counts once the announcement has been sent (R127). -/
  newMap    : Option (Nat × List Nat) := none
  announced : Bool := false
  /-- Scrambler state of each logical lane since the end of training, empty before (R127). -/
  scr       : List (BitVec 31) := []
  lanes     : Tab Lane := []
  pegs      : Tab Peg := []
  /-- Frame count since the end of training, mod 2¹⁶ (R127). -/
  count     : W16 := 0
  /-- Agreed level, once trained (R132). -/
  level     : Nat := 0
  /-- At the transmitting end: a valid offer received on the reverse string, its accept sent, an accept received (R132). -/
  offerGot  : Bool := false
  acceptSent : Bool := false
  acceptGot  : Bool := false
  /-- Transmitter: next sequence number, unacknowledged frames oldest first with their numbers (R135). -/
  txSeq     : Byte := 0
  unacked   : List (Byte × TxFrame) := []
  /-- Frames of the retry buffer still to be resent (R135). -/
  resend    : List (Byte × TxFrame) := []
  /-- New frames by class (0 Request, 1 Forward, 2 Collective, 3 Reply), oldest first (R134). -/
  txq       : Tab (List TxFrame) := []
  ctrlq     : List Bytes := []
  /-- Credits spent and credit limit by buffer: class 0, 1, 3; 16 + sub-buffer for Collective; 32 + core for relay; the
  limit's first value, advertised at training, at 100 + buffer (R132, R133). -/
  spent     : Tab Nat := []
  granted   : Tab Nat := []
  /-- Times each class was passed over while ready (R134). -/
  passed    : Tab Nat := []
  /-- Frames that have reached the transmitter, and the source queue last served in each class (R134). -/
  enq       : Nat := 0
  lastSrc   : Tab Nat := []
  /-- Successive timeouts without progress (R135). -/
  timeouts  : Nat := 0
  /-- A frame that mode 3 of fault injection holds back by one frame (R362). -/
  swap      : List (Byte × TxFrame) := []
  /-- Receiver: number of the frame expected and last number accepted (R135). -/
  rxSeq     : Byte := 0
  rxAck     : Byte := 0xFF
  /-- Freed-credit counters since training by buffer, and the order in which they changed unreported (R133). -/
  freed     : Tab Nat := []
  unreported : List Nat := []
  /-- Beat of the last RELAY_CREDITS sent for its receiver (R133). -/
  relayBeat : Nat := 0
  /-- Beat at which it became FROZEN (R144), and T of a tile reset whose training has not ended (R147). -/
  frozenAt  : Option Nat := none
  resetAt   : Option Nat := none
  /-- In a credit hold (R162). -/
  held      : Bool := false
  /-- A tile reset stops new frames on it (R147). -/
  stopped   : Bool := false
  /-- Measured one-hop latency, ps; the training under way belongs to a margin test; an ECHO is to be sent; the beat sent in one
  not yet back, and whether its receiver has returned it (R132, R142). -/
  latency   : Nat := 0
  measure   : Bool := false
  echoDue   : Bool := false
  echo      : Option Nat := none
  echoBack  : Bool := false
  /-- Beat of the last lane check while OUT or DOWN (R144). -/
  checked   : Nat := 0
  /-- Calibration turn in progress: the spare line under calibration (R168). -/
  turn      : Option Nat := none
  /-- Line whose new values are applied, and whose lane moves once its rings have passed their fret checks (R156, R168). -/
  rotate    : Option Nat := none
  /-- Beat of the last calibration turn (R168). -/
  turnBeat  : Nat := 0
  /-- Returned from OUT and waiting for windows on its relay legs to close (R144). -/
  waiting   : Bool := false
  /-- Fault injection (R362). -/
  inject    : Inject := {}
  deriving DecidableEq, Repr

/-- Source of queue-depth and neighbour records kept by a receiver (R141): record bytes and the beat of arrival. -/
structure BusRec where
  payload : Bytes := []
  beat    : Nat := 0
  deriving DecidableEq, Repr

/-- A lightbed tile (R147). -/
structure Tile where
  /-- 0 running, 1 draining for a requested reset, 2 resetting. -/
  state   : Nat := 0
  /-- Beat T of the reset (R147). -/
  since   : Nat := 0
  deriving DecidableEq, Repr

/-- A read outstanding under a reply tag (R137): requester's landing key, bytes left, purpose and its argument. -/
structure ReadTag where
  site    : Nat
  tag     : Nat
  landing : Nat
  left    : Nat
  /-- 0 page fill (argument: home page), 1 fabric LOAD or GET (argument: pending answer), 2 other. -/
  purpose : Nat
  arg     : Nat
  deriving DecidableEq, Repr

/-- A Harp slot (R150, R166). -/
structure Harp where
  /-- `harp_role` (R175): 0 empty, 1 active, 2 spare cold, 3 warming, 4 spare ready, 5 retired, 6 failed, 7 under test,
  8 ready for return. -/
  role    : Nat := 0
  serial  : W64 := 0
  hours   : W32 := 0
  /-- Line powers, 0.01 dBm, and frequency offsets, 0.01 GHz. -/
  power   : List Int := List.replicate 17 0
  offset  : List Int := List.replicate 17 0
  /-- Removal LED: 0 off, 1 green, 2 red; the latch is closed (R165). -/
  led     : Nat := 0
  latch   : Bool := false
  /-- Output shutter open (R150), and nanoseconds of light since the last full powered hour. -/
  shutter : Bool := false
  ns      : Nat := 0
  deriving DecidableEq, Repr

/-- A light domain (R151, R158–R164). -/
structure Domain where
  /-- `domain_source_d`: 0 own slot, 1 spare A, 2 spare B, 3 none (R166: none before the first test). -/
  source   : Nat := 3
  /-- Mt(l): lowest margin of line l at the reference point, 0.01 dB (R158). -/
  base     : List Int := []
  /-- Feeding cartridge's line powers at the reference point (R158). -/
  ref      : List Int := []
  /-- F(l): fall of each line since then (R158). -/
  fall     : List Int := List.replicate 17 0
  /-- Domain margin D, 0.01 dB (R158). -/
  margin   : Int := 0
  /-- Thresholds crossed and not cleared: warn, request, force, failing (R158). -/
  crossed  : List Bool := [false, false, false, false]
  /-- Hourly samples since the reference point, newest first, 10⁻⁶ dB (R159). -/
  samples  : List Int := []
  /-- Sum and count of the largest F(l) in the running hour (R159). -/
  hourSum  : Int := 0
  hourN    : Nat := 0
  /-- `handover_state_d` (R175): 0 idle, 1 spare warming, 2 launch hold, 3 credit hold, 4 return pending, 5 no spare,
  6 failing. -/
  state    : Nat := 0
  /-- Slot of the spare (or returning cartridge) assigned (R160, R167). -/
  target   : Option Nat := none
  forced   : Bool := false
  /-- Switched to the target: selector done, relock running (R161). -/
  switched : Bool := false
  /-- H: beat at which the credit hold began (R161). -/
  holdBeat : Nat := 0
  /-- After an abrupt loss, until every string is back; its source has been lost and not yet replaced (R164). -/
  abrupt   : Bool := false
  lost     : Bool := false
  /-- Source before the switch (R161, R164). -/
  from_    : Nat := 3
  /-- Sources already failed in this handover (R160, R164). -/
  refused  : List Nat := []
  deriving DecidableEq, Repr

/-- Sounding (R173–R175). -/
structure Sounding where
  state  : Nat := 0
  string : Nat := 0
  half   : Nat := 0
  points : List Int := []
  deriving DecidableEq, Repr

/-- What a page of the pool holds (R181, R182, R186). -/
inductive PageUse where
  | image (slot : Nat)
  | context (ctx : Nat)
  | prefix_ (block : Nat)
  deriving DecidableEq, Repr

/-- An entry of the prefix table (R249) with its pages (R182). -/
structure PrefixBlock where
  id     : Nat
  tenant : Nat
  digest : Bytes
  hash   : W64
  seed   : W64
  tokens : List W32
  pages  : List Nat
  refs   : Nat
  used   : Nat
  deriving DecidableEq, Repr

/-- The DRAM stacks and the page pool (R176–R187). -/
structure Dram where
  /-- `stack_state_k`: 0 active, 1 throttled, 2 failed, 3 training (R187). -/
  stackSt  : Tab Nat := []
  /-- Stored training values: temperature at which they were stored, 0.1 °C (R183). -/
  trained  : Tab Int := []
  spareRows : Tab Nat := []
  /-- Beats of the corrected reads of each row in the last 24 h, by 2³⁰ × stack + row (R185). -/
  rowHits  : Tab (List Nat) := []
  /-- Rows marked for repair at the next boot training (R185). -/
  repair   : List Nat := []
  /-- Pages taken from the head of the never-used part of the free list: next page (R181). -/
  fresh    : Nat := 0
  /-- Freed pages at the tail of the free list, oldest first (R181). -/
  freed    : List Nat := []
  /-- Pages in use (R181). -/
  used     : Tab PageUse := []
  poisoned : List Nat := []
  /-- Owner die of each cached page's KV (R118). -/
  owner    : Tab Nat := []
  /-- Prefix blocks (R182, R249). -/
  blocks   : List PrefixBlock := []
  nextBlock : Nat := 0
  /-- Image data pages lost and to be reloaded, by slot (R186). -/
  lost     : List (Nat × Nat) := []
  /-- Units refreshed, re-centred: beat of the last by stack and by 16 × stack + channel (R183, R184). -/
  refreshed : Tab Nat := []
  recentred : Tab Nat := []
  /-- Scrub sequencer of each stack: beat at which its pass began and the next unit of the pass (R185). -/
  scrub     : Tab (Nat × Nat) := []
  deriving DecidableEq, Repr

/-- A packet in an output queue; one that crossed the lightbed still stands in its transit ring, by key (R201, R206, R210). -/
structure OutPkt where
  pkt  : Packet
  ring : Option Nat := none
  deriving DecidableEq, Repr

/-- A fabric port (R188–R195). -/
structure FPort where
  /-- `port_state_p` (R222): 0 down, 1 training, 2 up, 3 wrong neighbour, 4 refused level, 5 disabled. -/
  state     : Nat := 0
  neighbour : W16 := 0xFFFF
  /-- Offer received, accept sent, accept received (R191). -/
  offerGot  : Bool := false
  acceptSent : Bool := false
  acceptGot  : Bool := false
  /-- Beat at which it last began to train or was refused (R191). -/
  tried     : Nat := 0
  /-- One-way latency from ECHO, ps (R192). -/
  latency   : Nat := 0
  /-- Output queues by virtual channel, oldest first (R194). -/
  outq      : Tab (List OutPkt) := []
  /-- Packet under way and its bytes not yet laid into a block (R193). -/
  under     : Option (Packet × Bytes) := none
  /-- Packets whose last flit is in an unacknowledged block: block number and packet (R195, R204). -/
  flight    : List (BitVec 10 × Packet) := []
  /-- Control records that wait (R192): 256 bytes, or the kind alone of a BEAT_SYNC or an ECHO of its own, which is filled in as
  its block leaves; the beat of its own ECHO under way. -/
  ctrlq     : List Bytes := []
  echo      : Option Nat := none
  /-- Transmitter: number of the next data block, unacknowledged blocks with their flits and the beat of their start, numbers
  due to be resent, successive timeouts (R195). -/
  txSeq     : BitVec 10 := 0
  unacked   : List (BitVec 10 × Bytes × Nat) := []
  resend    : List (BitVec 10) := []
  timeouts  : Nat := 0
  /-- Receiver: number expected and number last accepted (R195). -/
  rxSeq     : BitVec 10 := 0
  rxAck     : BitVec 10 := 0
  /-- Flits the neighbour has freed and flits spent here, by virtual channel (R194). -/
  granted   : Tab Nat := []
  spent     : Tab Nat := []
  /-- Flits freed here by virtual channel, and the channels in the order in which they are reported (R192, R194). -/
  freed     : Tab Nat := []
  unreported : List Nat := List.range 8
  /-- Times each channel was passed over while ready (R195). -/
  passed    : Tab Nat := []
  /-- Receive buffers by virtual channel: whole packets; and the bytes of a packet still arriving (R193, R194). -/
  inq       : Tab (List Packet) := []
  partial_  : Bytes := []
  /-- Beat of the retrain in progress (R195). -/
  retrainAt : Option Nat := none
  /-- Beat-sync receive state: t3 and receive stamp of the last record, the last 16 delays (R261, R262), the beat of the last
  record sent. -/
  syncT3    : Nat := 0
  syncT4    : Nat := 0
  delays    : List Int := []
  offsets   : List Int := []
  sync      : Option SyncRec := none
  syncBeat  : Nat := 0
  syncSent  : Nat := 0
  /-- Every second block idle, for a throttled rim die (R332); the last block was not an idle one for it. -/
  skip      : Bool := false
  even      : Bool := false
  inject    : Inject := {}
  deriving DecidableEq, Repr

/-- A route set (R201): pod tables by node, 256 two-byte entries each, membership, escape list. -/
structure RouteSet where
  tables : Tab (List W16) := []
  member : BitVec 256 := 0
  escape : List (Nat × Nat) := []
  digest : W32 := 0
  deriving DecidableEq, Repr

/-- A rate entry (R212): destination, rate in 1/256 port rate, tokens in 1/25,600 byte, beats. -/
structure RateEnt where
  dest     : W16
  rate     : Nat
  tokens   : Int
  lastDec  : Int
  lastMark : Nat
  filled   : Nat
  used     : Nat
  deriving DecidableEq, Repr

/-- A collective declared by a resident image (R214): image slot, descriptor, combining rim die and first collective slot. -/
structure CollRes where
  slot : Nat
  desc : BitVec 256
  rim  : Nat
  base : Nat
  deriving DecidableEq, Repr

/-- A collective slot at a rim die (R214–R216): the instance held, or expected next; the beat of its first addend, if one is
in; and by arm (0 own partial, 1 negative x, 2 positive x, 3 negative y, 4 positive y) and 64-byte chunk, at 65,536 × arm +
chunk, the addends. -/
structure CollSlot where
  inst  : Nat := 0
  began : Option Nat := none
  parts : Tab Bytes := []
  deriving DecidableEq, Repr

/-- A send window packet being packed at a rim die (R205): rim die, window, sending site, offset of its first byte in the
window, bytes, beat of its last frame. -/
structure SendPack where
  rim    : Nat
  win    : Nat
  src    : Nat
  offset : Nat
  data   : Bytes
  beat   : Nat
  deriving DecidableEq, Repr

/-- Routing, pacing and collective state of the fabric (R197–R219). -/
structure Fabric where
  /-- Node number and pod size in force since boot (R197). -/
  node      : W16 := 0
  width     : Nat := 1
  height    : Nat := 1
  banks     : Tab RouteSet := []
  bankValid : List Bool := [false, false]
  epoch     : Nat := 0
  drain     : Bool := false
  /-- Scheduled activation beat, and B_A of the drain under way (R218). -/
  activate  : Option Nat := none
  began     : Nat := 0
  /-- Packets injected, and packets delivered, discarded or answered path-lost, by epoch bit since the bank was installed
  (R219). -/
  injected  : Tab Nat := []
  delivered : Tab Nat := []
  /-- Drain round number and its beat; reports received in it: node, occupancy, injected, delivered; members excluded; beat of
  a first round with no occupancy (R219). -/
  round     : Nat := 0
  roundBeat : Nat := 0
  reports   : List (W16 × Nat × Nat × Nat) := []
  excluded  : List W16 := []
  zeroBeat  : Option Nat := none
  /-- Beat of the last report from each member, and of the last query from the coordinator (R219). -/
  heard     : Tab Nat := []
  queried   : Nat := 0
  /-- Node acting as coordinator (R218, R222); members known to be activated, and members logged as not activated. -/
  coord     : W16 := 0xFFFF
  activated : List W16 := []
  missed    : List W16 := []
  rates     : List RateEnt := []
  /-- Beat of the last rate increase (R212). -/
  rateBeat  : Nat := 0
  /-- Packets that wait for their rate entry: site they are injected at, reply bytes asked for, packet (R212). -/
  paced     : List (Nat × Nat × Packet) := []
  /-- Collectives of the resident images, and the slots by 256 × rim die + slot (R214). -/
  colRes    : List CollRes := []
  colls     : Tab CollSlot := []
  packs     : List SendPack := []
  /-- Packets that wait for a tag and a tracking entry (R207): site, reply bytes asked for, replies to come, packet. -/
  untagged  : List (Nat × Nat × Nat × Packet) := []
  /-- Next sequence number by 4 × destination + class, and expected one by 4 × source + class (R198, R200). -/
  seqOut    : Tab W16 := []
  seqIn     : Tab W16 := []
  /-- Transit rings (R206) by 256 × receiving site + 8 × sending site + virtual channel. Receiver: units of a packet still
  arriving, and units freed; sender: packets waiting for ring space, units written and units known to be freed. -/
  ringIn    : Tab Bytes := []
  ringFreed : Tab Nat := []
  ringWait  : Tab (List Packet) := []
  ringSent  : Tab Nat := []
  ringCred  : Tab Nat := []
  deriving DecidableEq, Repr

/-- A tracking entry of the remote-operation engine (R224, R230): tag, queue (64 and above: a gateway's own operation, R209,
with its number), command record, beat taken, bytes (reads) or acknowledgements (writes) still to come. -/
structure Track where
  tag     : W16
  queue   : Nat
  record  : BitVec 512
  began   : Nat
  left    : Nat
  /-- First failure in offset order: offset, status, error code (R229). -/
  failure : Option (Nat × Nat × Nat) := none
  /-- Landing ranges that replies have filled: position and bytes (R230). -/
  got     : List (Nat × Nat) := []
  deriving DecidableEq, Repr

/-- An access to a site's memory that a rim die carries out over the lightbed (R225, R228): its number, rim die, the packet's header,
site and byte address, whether it reads; frames of a write not yet acknowledged, or bytes of a read still to come; bytes of a read
already returned; the beat from which its reply may leave; its failure: status and error code. -/
structure RimOp where
  n      : Nat
  rim    : Nat
  hdr    : BitVec 256
  site   : Nat
  addr   : Nat
  read   : Bool
  left   : Nat
  got    : Nat := 0
  doneAt : Option Nat := none
  failed : Option (Nat × Nat) := none
  deriving DecidableEq, Repr

/-- Remote-operation engine (R223–R231). -/
structure Rmem where
  tracks      : List Track := []
  nextTag     : W16 := 0
  /-- Quarantined tags with the beat at which they leave, and unreachable nodes with the beat at which the mark clears. -/
  quarantine  : List (W16 × Nat) := []
  unreachable : List (W16 × Nat) := []
  /-- Accesses that the rim dies are carrying out over the lightbed, and the number of the next (R225, R228). -/
  ops         : List RimOp := []
  nextOp      : Nat := 0
  /-- Send-window packets and route control whose operation failed (R223). -/
  sendLost    : Nat := 0
  /-- Completion records by queue, oldest first (R224). -/
  done        : Tab (List (BitVec 256)) := []
  /-- Records not yet taken, by queue, oldest first, and the queue served last (R224). -/
  waiting     : Tab (List (BitVec 512)) := []
  lastQueue   : Nat := 63
  /-- Window table in force, and the one that takes effect at a beat (R227, R228). -/
  table       : Tab (BitVec 256) := []
  next        : Option (Nat × Tab (BitVec 256)) := none
  /-- Entries the loader installed, by index, with their slot (R227). -/
  loader      : Tab Nat := []
  deriving DecidableEq, Repr

/-- A read or store buffer at the gateway near the source (R235, R236): slice, buffer ID, kind, source (of a store buffer), far
node, job, page; units asked for; bytes held, by offset in the page; beat it opened; sent; a store to the page was accepted
since the READ was sent; packets to be answered from it (arrival rim die and header), and reads that wait for this flush. -/
structure GwBuf where
  slice  : Nat
  id     : Nat
  read   : Bool
  src    : W16
  node   : W16
  job    : W16
  page   : Nat
  units  : W64 := 0
  data   : Tab Byte := []
  began  : Nat
  due    : Bool := false
  sent   : Bool := false
  stale  : Bool := false
  joined : List (Nat × BitVec 256) := []
  waits  : List (Nat × BitVec 256) := []
  deriving DecidableEq, Repr

/-- A READ or FLUSH being served at the gateway near the target (R235, R236): its number, pod, slice, kind, body, bytes of the
page or of the flush with its byte mask, whether its operations have been issued, how many are outstanding, and the first
failure: status and error code. -/
structure GwServe where
  n      : Nat
  pod    : Nat
  slice  : Nat
  read   : Bool
  body   : BitVec 256
  data   : Bytes
  issued : Bool := false
  left   : Nat := 0
  failed : Option (Nat × Nat) := none
  deriving DecidableEq, Repr

/-- A session with the gateway of a pod (R234). -/
structure GwSess where
  /-- 0 closed, 1 opening, 2 open. -/
  state   : Nat := 0
  number  : W32 := 0
  /-- Key taken at the last OPEN (R238). -/
  key     : Bytes := []
  /-- Number of the next message, number expected, number last accepted. -/
  txSeq   : Nat := 0
  rxSeq   : Nat := 0
  rxAck   : Nat := 0
  /-- Messages not acknowledged: number, kind, body header, payload. -/
  unacked : List (Nat × Nat × BitVec 256 × Bytes) := []
  /-- Cumulative credits of the peer's read and store buffers, and those used; and the same counters of the own buffers. -/
  readCr  : Nat := 0
  storeCr : Nat := 0
  readUse : Nat := 0
  storeUse : Nat := 0
  readFreed : Nat := 0
  storeFreed : Nat := 0
  /-- Beat of the last progress on ack, and of the last resend. -/
  progress : Nat := 0
  resent   : Nat := 0
  deriving DecidableEq, Repr

/-- The Retriever (R232–R236). -/
structure Retr where
  enabled  : Bool := false
  /-- Link of the second serving port, which a gateway gives to the Retriever, is in `Serve.links` (R232). -/
  bufs     : List GwBuf := []
  /-- Far packets that wait at a slice for a free buffer, oldest first: slice and packet (R232, R236). -/
  held     : List (Nat × Packet) := []
  /-- Failed pages of read packets that wait for other pages: packet, page, status, error code (R229, R235). -/
  failed   : List ((Nat × BitVec 256) × Nat × Nat × Nat) := []
  serving  : List GwServe := []
  nextServe : Nat := 0
  /-- Sessions by pod. -/
  sessions : Tab GwSess := []
  /-- Session counter per peer pod, in NAND (R234). -/
  counter  : Tab W32 := []
  deriving DecidableEq, Repr

/-- A record of the module's direction, held until acknowledged (R242): number, kind, body, and the beat at which it last
left; `none` while the window keeps it back. -/
structure ServeRec where
  seq  : Nat
  kind : Nat
  body : Bytes
  sent : Option Nat
  deriving DecidableEq, Repr

/-- A serving session (R242). -/
structure Sess where
  num      : W32
  tenant   : Nat
  port     : Nat
  key      : Bytes
  rxNext   : Nat := 0
  txNext   : Nat := 0
  ackRx    : Option Nat := none
  ackTx    : Nat := 0
  unacked  : List ServeRec := []
  /-- Beat of the last progress on ack while records are unacknowledged (R242). -/
  progress : Nat := 0
  closing  : Bool := false
  /-- Received records not yet reported (R242). -/
  due      : Bool := false
  deriving DecidableEq, Repr

/-- A node of a speculation tree (R91, R92): token, depth, parent in the record's numbering, and the shape's number. -/
structure TreeNode where
  token  : W32
  depth  : Nat
  parent : Nat
  shape  : Nat
  deriving DecidableEq, Repr

/-- A request being assembled (R243). Phase: 0 prompt incomplete, 1 waiting for the tokenizer, 2 for the prefix hasher. -/
structure Assembly where
  session : W32
  req     : W32
  fixed   : Bytes
  stops   : List Bytes
  prompt  : List (Nat × Bytes)
  length  : Nat
  arrival : Nat
  phase   : Nat := 0
  tokens  : List W32 := []
  deriving DecidableEq, Repr

/-- A context: an admitted request from admission to its end (R245). -/
structure Ctx where
  id       : Nat
  session  : W32
  tenant   : Nat
  req      : W32
  slot     : Nat
  maxTok   : Nat
  temp     : W32
  topK     : Nat
  topP     : W32
  minP     : W32
  penalty  : W32
  seed     : W64
  deadline : W64
  stops    : List Bytes
  prompt   : List W32
  output   : List W32 := []
  arrival  : Nat
  /-- 0 prefill queue, 1 waiting resident, 2 active, 3 ending. -/
  phase    : Nat := 0
  pages    : List Nat := []
  blocks   : List Nat := []
  reused   : Nat := 0
  hashes   : List W64 := []
  owner    : Nat := 0
  /-- Tokens emitted by the sampler in the step under way. -/
  step     : List W32 := []
  /-- Tree of the step under way, root first (R92), and the levels the draft executor has run (R90). -/
  tree     : List TreeNode := []
  drafted  : Nat := 0
  /-- Tree scratch: target KV entry and draft KV entry of a node; and the draft KV of committed positions (R103). -/
  scratch  : List (Nat × Bytes) := []
  draftNew : List (Nat × Bytes) := []
  draftKv  : Tab Bytes := []
  /-- Pending text of the detokenizer (R93), text released in this step. -/
  text     : Bytes := []
  release  : Bytes := []
  chunks   : Nat := 0
  firstBeat : W64 := 0
  inputCounted : Bool := false
  /-- First tokens of the prefill chunks one of whose windows ended with a nonzero exit code (R249). -/
  faulted  : List Nat := []
  /-- End requested at the next step boundary: reason and cause (R105, R247). -/
  ending   : Option (Nat × Nat) := none
  deriving DecidableEq, Repr

/-- The serving front end and admission (R239–R249). -/
structure Serve where
  links    : List Bool := [false, false]
  sessions : List Sess := []
  nextSess : W32 := 0
  asm      : List Assembly := []
  ctxs     : List Ctx := []
  nextCtx  : Nat := 0
  /-- Prefill time and tokens measured by slot, and items completed (R245). -/
  rate     : Tab (Nat × Nat × Nat) := []
  /-- Counts per tenant since the last TALLY: input, output (R248, R309). -/
  counts   : Tab (Nat × Nat) := []
  deriving DecidableEq, Repr

/-- An image slot (R253). -/
structure ImgSlot where
  /-- 0 Empty, 1 Loading, 2 Resident, 3 Draining, 4 Faulty. -/
  state  : Nat := 0
  digest : Bytes := []
  image  : Option Image := none
  job    : W16 := 0
  last   : W16 := 0
  /-- A drain by force: end reason 5, cause 5 (R253). -/
  pages  : List Nat := []
  /-- Refused at the last boot and not Resident since (R288). -/
  bootRefused : Bool := false
  deriving DecidableEq, Repr

/-- The image store and the slots (R250–R253). -/
structure Images where
  slots   : Tab ImgSlot := []
  store   : List Image := []
  /-- Free MiB of the store: 61,440 less what is stored (R252, R255). -/
  freeMib : Nat := 61440
  /-- Loads asked for, in order of the writes (R254). -/
  order   : List Nat := []
  deriving DecidableEq, Repr

/-- The time base (R256–R262). -/
structure TimeBase where
  /-- Source in use (R258): 0 none, 1 REF, 2 PTP, 3 FABRIC. -/
  source   : Nat := 0
  /-- 0 free run, 1 acquiring, 2 locked, 3 holdover (R259). -/
  state    : Nat := 0
  /-- Valid sources and the beat from which each has been valid without interruption. -/
  valid    : Tab Nat := []
  /-- Good 1PPS intervals in a row; Sync exchanges and their last 16 offsets; FABRIC records (R258). -/
  ppsGood  : Nat := 0
  ptpN     : Nat := 0
  ptpOff   : List Int := []
  /-- Last offset to the source, ps (R276). -/
  offset   : Int := 0
  /-- Offset still to be removed by slewing, 0.1 ps (R257). -/
  slew     : Int := 0
  /-- Fraction of a beat gained by slewing, 0.1 ps. -/
  frac     : Int := 0
  /-- Offset awaiting a step, ns (R257). -/
  pendingOff : Int := 0
  /-- REF has taken the seconds of its count since it was last selected (R258). -/
  refSecs  : Bool := false
  /-- 0 none, 1 reference seconds, 2 TAI (R276). -/
  anchored : Nat := 0
  upstream : Nat := 0xFF
  hops     : Nat := 0xFF
  master   : W64 := 0
  /-- Error bound against the reference, 0.01 ns (R261, R298). -/
  bound    : Nat := 0xFFFF
  /-- Beat from which the offset has stayed within bound (R259). -/
  within   : Option Nat := none
  deriving DecidableEq, Repr

/-- An entry of the staged set or of the stored configuration (R282, R285). -/
structure Entry where
  key  : Nat
  ty   : Byte
  data : Bytes
  deriving DecidableEq, Repr

/-- One NAND copy of the configuration (R285). -/
structure ConfigCopy where
  /-- 0 valid, 1 invalid, 2 empty. -/
  status  : Nat := 0
  gen     : W64 := 1
  entries : List Entry := []
  deriving DecidableEq, Repr

/-- A subscription (R281). -/
structure Sub where
  client : W32
  id     : W16
  key    : Nat
  mode   : Nat
  period : Nat
  last   : Nat
  uart   : Bool
  /-- Value at the last NOTIFY, or at the SUBSCRIBE. -/
  value  : Bytes
  deriving DecidableEq, Repr

/-- A segmented value being received (R281). -/
structure Segments where
  client : W32
  key    : Nat
  data   : Bytes
  deriving DecidableEq, Repr

/-- Configuration and the dictionary protocol (R277–R285). -/
structure CfgState where
  staged   : List Entry := []
  owner    : Option W32 := none
  ownerBeat : Nat := 0
  copyA    : ConfigCopy := {}
  copyB    : ConfigCopy := {}
  /-- Generation in force, 0 while none is (R285). -/
  gen      : W64 := 0
  subs     : List Sub := []
  segs     : List Segments := []
  /-- Highest seq accepted by client since boot (R279), and notify counts. -/
  seqs     : Tab Nat := []
  notifies : Tab Nat := []
  /-- UART receiver hunting for a frame start (R280). -/
  uartHunt : Bool := false
  deriving DecidableEq, Repr

/-- Device state (R286–R289). -/
structure Device where
  /-- 0 Off, 1 Standby, 2 Boot, 3 Held, 4 Ready, 5 Serving, 6 Degraded, 7 Draining, 8 Fault-stop. -/
  state     : Nat := 0
  /-- Value of `drain_request` being served. -/
  drainTo   : Nat := 0
  /-- Steps 2 to 4 of the boot under way have run (R289). -/
  started   : Bool := false
  /-- Boot stopped at step 8: no configuration applied (R289). -/
  heldAtBoot : Bool := false
  /-- Firmware running (0x1000:05). -/
  firmware  : W32 := 0
  /-- Whippets fused off at manufacture (R19), bit w for Whippet w. -/
  fusedWhips : Nat := 0
  /-- Margin test under way (R142): 0 none, 1 at start, 2 the commissioning test, 3 that test asked for (R143, R171). -/
  marginRun : Nat := 0
  /-- Windows under repeated rerun (R77, R288 bit 2). -/
  rerunning : List Nat := []
  bootBeat  : Nat := 0
  deriving DecidableEq, Repr

/-- What leaves the module, or leaves one die for another whose receipt is a command of its own. -/
inductive Output where
  /-- A frame put on string `n`, and the bits that each of its physical lines carries for it, the first in bit 0 (R127, R128,
  R134). -/
  | frame (n : Nat) (f : Frame) (wire : List (Nat × Nat))
  /-- A block put on fabric port `p`: control word and flit space (R192). -/
  | block (p : Nat) (ctl : BitVec 80) (flits : Bytes)
  /-- A packet delivered to local memory handling at a rim die (R201). -/
  | deliver (p : Nat) (pkt : Packet)
  /-- Launch frames of a window to the die at a site (R73). -/
  | launch (site win : Nat)
  /-- A dictionary response or NOTIFY on the management port: clear header of 24 bytes, nonce of 12 bytes, body before encryption
  (R279, R281). -/
  | dict (header nonce body : Bytes)
  /-- The same on the service UART, as framed there (R280). -/
  | uart (frame : Bytes)
  /-- A SUBSCRIBE of an ensemble member to an object of another: its address, own client_id, index, sub, mode (R298). -/
  | subscribe (peer : Bytes) (client index sub mode : Nat)
  /-- A serving record: port, its clear header of 24 bytes, nonce of 12 bytes and body before encryption (R240). -/
  | serve (port : Nat) (header nonce body : Bytes)
  /-- A gateway message: own IPv6 address, that of the peer's gateway, UDP port; pod, kind, session, seq, ack, read and store
  credits, body header, payload (R234). -/
  | gateway (own peer : BitVec 128) (port : Nat) (pod kind session seq ack readCr storeCr : Nat) (body : BitVec 256)
      (payload : Bytes)
  /-- A message on the tally link as its bytes, controller to Pod or Pod to controller (R309, R317). -/
  | pod (message : Bytes)
  /-- The Pod's answer on its calibration interface, framed as on the service UART (R280, R319). -/
  | calibration (frame : Bytes)
  /-- A grant of an arbiter: arbiter, requester (R121). -/
  | grant (arb req : Nat)
  /-- An ICMPv6 answer (R239). -/
  | icmp (port type : Nat) (data : Bytes)
  /-- A write of a hub check-value unit's register by the controllers: unit, offset, value (R347). -/
  | cvuPut (unit off value : Nat)
  /-- A register of a check-value unit read by its Whippet or by a hub agent: unit, offset, value (R345). -/
  | cvu (unit off value : Nat)
  deriving DecidableEq, Repr

/-- The controller pair (R290–R296). -/
structure Pair where
  /-- 0 paired, 1 simplex on half 0, 2 simplex on half 1, 3 simplex with Standby unsynchronised (R295, R305). -/
  state     : Nat := 0
  active    : Nat := 0
  /-- Firmware of the halves differs (R295). -/
  differ    : Bool := false
  /-- Outputs of the cycle under way, and of the cycle under comparison (R290, R291). -/
  cur       : List Output := []
  prev      : List Output := []
  /-- Recovery under way since beat T (R293); the second mismatch rule of R294 armed. -/
  recover   : Option Nat := none
  second    : Bool := false
  /-- Drill under way (R296): 0 none, 1 asked for, 2 outputs withheld since beat `drill`, 3 the new Active runs and its first
  comparison is due. -/
  phase     : Nat := 0
  drill     : Nat := 0
  /-- Number of the control cycle (R290), and the beat at which the last one completed. -/
  cycle     : Nat := 0
  lastCycle : Nat := 0
  lastAuto  : Nat := 0
  deriving DecidableEq, Repr

/-- Ensemble membership (R297–R302). -/
structure Ens where
  /-- 0 none, 1 roll call, 2 running, 3 stopped. -/
  state   : Nat := 0
  /-- Latest record of each node, with the beat of arrival. -/
  records : List (W16 × BitVec 512 × Nat) := []
  own     : BitVec 512 := 0
  start   : Option Nat := none
  /-- Map digests recorded at the roll call (R302). -/
  maps    : Tab W32 := []
  /-- Nodes whose last heartbeat had a time bound above 8.00 ns (R302). -/
  slow    : List W16 := []
  items   : Nat := 0
  badNode : W16 := 0xFFFF
  lastBeat : Nat := 0
  deriving DecidableEq, Repr

/-- A closed Pod record (R312). -/
structure PodRecord where
  kind    : Nat
  flags   : Nat
  number  : Nat
  start   : Nat
  length  : Nat
  energy  : Nat
  unattr  : Nat
  testSec : Nat
  outage  : Nat
  gaps    : Nat
  entries : List (Nat × Nat × Nat × Nat)
  /-- SHA-256 of the previous record, and the signature. -/
  prev    : Bytes
  sig     : Bytes
  deriving DecidableEq, Repr

/-- What an interval has gathered that began at the boundary, while the one before it is not yet closed (R312, R321). -/
structure PodAcc where
  counts  : Tab (Nat × Nat) := []
  testSec : Nat := 0
  flags   : Nat := 0
  gaps    : Nat := 0
  deriving DecidableEq, Repr

/-- The Metering Pod (R306–R322). -/
structure Pod where
  /-- Calendar clock, UTC ns; lost (R316). -/
  clock     : Nat := 0
  lost      : Bool := false
  /-- Clock slewing still to be done, ns, and thousandths of a nanosecond of it gathered (R317). -/
  slew      : Int := 0
  frac      : Nat := 0
  supply    : Nat := 1
  /-- Start of the interval under way. -/
  start     : Nat := 0
  /-- Energy of the interval so far, µWh; total since manufacture, µWh (R307). -/
  energy    : Nat := 0
  total     : Nat := 0
  /-- Tenant counts of the interval (R312). -/
  counts    : Tab (Nat × Nat) := []
  seqLast   : Option W32 := none
  testSec   : Nat := 0
  /-- Seconds of its clock that count as test-mode seconds (R311). -/
  testAt    : List Nat := []
  flags     : Nat := 0
  gaps      : Nat := 0
  /-- The same of the interval that begins at the boundary passed (R321). -/
  next      : PodAcc := {}
  /-- Seconds without input in the interval under way (R312). -/
  outage    : Nat := 0
  number    : Nat := 0
  archive   : List PodRecord := []
  powered   : Bool := false
  lostAt    : Option Nat := none
  /-- Accepted adjustments of the last 24 h: time and absolute ns (R317). -/
  adjusts   : List (Nat × Nat) := []
  refusing  : Bool := false
  /-- Seal: open, and whether a run completed while open (R318). -/
  coverOpen : Bool := false
  verified  : Bool := false
  sealSt    : Nat := 0
  /-- Closed after an accepted run; sealed from the next power-up (R318). -/
  resealed  : Bool := false
  /-- Run under way: 0 none, 1 calibration, 2 verification (R319, R320). -/
  calRun    : Nat := 0
  /-- Correction sets at 10, 25, 40, 55, 70 °C, one value for each of the points 0, 0.050, 0.500 and 5.000 A (R319); sets that
  take effect at the next second. -/
  cal       : List (List Int) := List.replicate 5 [0, 0, 0, 0]
  newCal    : Option (List (List Int)) := none
  /-- Logged events: time, code, particulars (R317, R318, R320). -/
  events    : List (Nat × Nat × Bytes) := []
  testLine  : Bool := false
  fwDigest  : Bytes := []
  checks    : Nat := 0
  deriving DecidableEq, Repr

/-- The controller's side of the tally link (R309, R310). -/
structure Tallies where
  seq     : W32 := 0
  unacked : List Tally := []
  oldest  : Nat := 0
  /-- Beats of the last TALLY and the last TIME made. -/
  last    : Nat := 0
  timeSent : Nat := 0
  /-- Test mode was unlocked at some moment of the second under way (R361). -/
  tested  : Bool := false
  deriving DecidableEq, Repr

/-- Power input (R323–R326). -/
structure Power where
  mv        : Nat := 0
  /-- 0 operating, 1 high, 2 brown-out, 3 loss declared (R340). -/
  input     : Nat := 0
  lossBeat  : Option Nat := none
  /-- The input switch is open (R323). -/
  switchOpen : Bool := false
  rails     : Nat := 0
  watts     : Nat := 0
  /-- Beat at which a ceiling under R326 began. -/
  capSince  : Option Nat := none
  deriving DecidableEq, Repr

/-- One thermal die at a site: sensor readings, values used, marks and level (R329–R336). -/
structure ThermDie where
  /-- Readings and the thermal model's estimates of the last sample, and the values used. -/
  reading : List Int := []
  model   : List Int := []
  used    : List Int := []
  /-- Sensors suspect by the neighbour check (R335); the die violates the vertical order (R336). -/
  suspect : List Bool := []
  order   : Bool := false
  bad     : List Nat := []
  good    : List (Option Nat) := []
  /-- 0 normal, 1 warn, 2 throttle, 3 shutdown latched. -/
  level   : Nat := 0
  /-- Beat from which the die has been colder than the one above (R336), and in order again. -/
  coldAt  : Option Nat := none
  orderAt : Option Nat := none
  /-- Beat of the last sample. -/
  sampled : Nat := 0
  deriving DecidableEq, Repr

/-- Thermal state (R329–R337). -/
structure Therm where
  dies      : Tab ThermDie := []
  /-- Beats of recent compute-die shutdowns (R334). -/
  shutdowns : List Nat := []
  deriving DecidableEq, Repr

/-- A check-value unit (R343–R347). -/
structure Cvu where
  ctrl   : W32 := 0x1F
  poly   : W64 := 0
  init   : W64 := 0
  xorout : W64 := 0
  reg    : W64 := 0
  /-- Cycles of work left (STATUS busy), counted down by the clock. -/
  busy   : Nat := 0
  refused : Bool := false
  owner  : Nat := 0xFF
  /-- A routine's saved CTRL, POLY, XOROUT and VALUE (R349). -/
  saved  : Option (W32 × W64 × W64 × W64) := none
  deriving DecidableEq, Repr

/-- A queued known-answer test (R357): unit, priority class 1–4, header of the request to answer (R22). -/
structure KatReq where
  unit   : Nat
  prio   : Nat
  answer : Option DictHdr
  deriving DecidableEq, Repr

/-- Known-answer tests (R355–R359). -/
structure Kat where
  queue   : List KatReq := []
  core    : Option Nat := none
  /-- Requests to be answered by the running test, by unit (R22). -/
  running : List KatReq := []
  /-- Core, and Whippet of each die, that the next periodic test visits; beats of the last ones queued. -/
  nextCore : Nat := 0
  nextWhip : Tab Nat := []
  lastCore : Nat := 0
  lastWhip : Tab Nat := []
  deriving DecidableEq, Repr

/-- Test mode (R360, R361). -/
structure TestMode where
  unlocked : Bool := false
  since    : Nat := 0
  deriving DecidableEq, Repr

/-- A trace record (R365). -/
structure TraceRec where
  beat    : Nat
  kind    : Nat
  site    : Nat
  unit    : Nat
  lost    : Bool
  seq     : Nat
  payload : Bytes
  deriving DecidableEq, Repr

/-- The Beagle (R364–R367). -/
structure Beagle where
  /-- Source queues by site (4 KiB each), the next sequence number and the lost-before mark of each. -/
  queues  : Tab (List TraceRec) := []
  seqs    : Tab Nat := []
  lostAt  : Tab Bool := []
  hubq    : List TraceRec := []
  buffer  : List TraceRec := []
  sizeMib : Nat := 256
  /-- `beagle_state`: 0 off, 1 capturing, 2 stopped full, 3 stopped by trigger. -/
  state   : Nat := 0
  /-- Records left after a trigger. -/
  post    : Option Nat := none
  deriving DecidableEq, Repr

/-- An error log entry (R368). -/
structure LogEntry where
  seq    : Nat
  boot   : Nat
  beat   : Nat
  utc    : Nat
  key    : Nat
  sev    : Nat
  code   : Nat
  site   : Nat
  flags  : Nat
  unit   : Nat
  detail : Bytes
  deriving DecidableEq, Repr

/-- The error log (R368–R370). -/
structure Log where
  /-- Stored entries, oldest first; manufacture writes entry 0, identified by 0x7000:05 (R370). -/
  entries : List LogEntry :=
    [{ seq := 0, boot := 0, beat := 0, utc := 0, key := 0x700005, sev := 0, code := 0, site := 0xFF, flags := 0,
       unit := 0, detail := [] }]
  nextSeq : Nat := 1
  /-- Counts of the second under way by key, site, unit, code: written, suppressed, highest severity suppressed; and the
  number of that second (R370). -/
  secondNo : Nat := 0
  second  : List ((Nat × Nat × Nat × Nat) × Nat × Nat × Nat) := []
  deriving DecidableEq, Repr

/-- The module. -/
structure State where
  /-- Beat counter of the hub (R256); starts at 0 at power-up (R257). -/
  beat    : Nat := 0
  /-- Dictionary objects and counters that are written values: by 256 × index + sub (R277). -/
  od      : Tab W64 := []
  /-- Dictionary objects of DOMAIN and VISIBLE_STRING type that are written values (R277). -/
  odb     : Tab Bytes := []
  /-- The module's memories, byte by byte (R131): key 2⁴² × site + byte address in the site's own map. -/
  mem     : List Host.Cell := []
  cores   : Tab Core := []
  wins    : List Win := []
  dies    : Tab Die := []
  whips   : Tab Whip := []
  sched   : Sched := {}
  arbs    : Tab Arb := []
  strings : Tab Str := []
  tiles   : Tab Tile := []
  /-- Latest bus records by 4,096 × receiving site + 64 × source site + kind (R141). -/
  bus     : Tab BusRec := []
  tags    : List ReadTag := []
  harps   : Tab Harp := []
  domains : Tab Domain := []
  sounding : Sounding := {}
  dram    : Dram := {}
  ports   : Tab FPort := []
  fabric  : Fabric := {}
  rmem    : Rmem := {}
  retr    : Retr := {}
  serve   : Serve := {}
  images  : Images := {}
  time    : TimeBase := {}
  config  : CfgState := {}
  dev     : Device := {}
  pair    : Pair := {}
  ens     : Ens := {}
  pod     : Pod := {}
  tallies : Tallies := {}
  power   : Power := {}
  therm   : Therm := {}
  /-- Check-value units: Whippet w at w, hub unit n at 256 + n (R342). -/
  cvus    : Tab Cvu := []
  kat     : Kat := {}
  test    : TestMode := {}
  beagle  : Beagle := {}
  log     : Log := {}
  /-- Memory words known to hold an uncorrectable error: keys of their first bytes (R112). -/
  bad     : List Nat := []
  /-- What has left, oldest first. -/
  out     : List Output := []
  /-- The model's own counter of free values drawn: each draw reads a fresh one. -/
  free    : Nat := 0
  /-- Commands waiting, first in, first out. -/
  pending : List Instr := []
  deriving DecidableEq, Repr

/-- The module right after reset: as manufactured, in state Off, before input power is applied. The map digest is that of
R21 over an empty map, the fused-Whippet digest that of R23; the vendor and part names are those of R305 (a module with no
fused core is a PZL-1680, R20). -/
def State.reset : State :=
  { od := [(0x101006, 1499445213), (0x101008, 2324772522)]
    odb := [(0x100001, [0x47, 0x72, 0x65, 0x6E, 0x76, 0x6F, 0x73]),
            (0x100002, [0x50, 0x5A, 0x4C, 0x2D, 0x31, 0x36, 0x38, 0x30])] }

end Sys2Proof.Machine
end

