-- ==== Sys2Proof/Machine/Ops.lean ====
section
/-! DEFINITION. The shared operations: tables, bytes and fields, check values, memory, and the state's parts by number. -/

namespace Sys2Proof.Machine

/-- What a command answers. -/
abbrev Out := Host.Outcome State Fault Refusal

/-! Tables. -/

/-- The value at key `k`, if one is listed. -/
def tfind {α : Type} (k : Nat) : Tab α → Option α
  | [] => none
  | p :: r => if k = p.1 then some p.2 else tfind k r

/-- The value at key `k`, `d` where none is listed. -/
def tget {α : Type} (d : α) (k : Nat) (t : Tab α) : α := (tfind k t).getD d

/-- List `v` at key `k`, keeping the keys rising. -/
def tset {α : Type} (k : Nat) (v : α) : Tab α → Tab α
  | [] => [(k, v)]
  | p :: r => if k < p.1 then (k, v) :: p :: r else if k = p.1 then (k, v) :: r else p :: tset k v r

/-- Remove key `k`. -/
def terase {α : Type} (k : Nat) (t : Tab α) : Tab α := t.filter (fun p => p.1 != k)

/-- Change the value at key `k`. -/
def tmod {α : Type} (d : α) (k : Nat) (f : α → α) (t : Tab α) : Tab α := tset k (f (tget d k t)) t

/-- Replace entry `i` of a list; a list too short is unchanged. -/
def lset {α : Type} (i : Nat) (v : α) : List α → List α
  | [] => []
  | x :: r => if i = 0 then v :: r else x :: lset (i - 1) v r

/-! Bits and bytes. -/

/-- Bits [lo + n − 1 : lo] of a number (R6). -/
def bitsAt (x lo n : Nat) : Nat := (x >>> lo) % 2 ^ n

/-- A field of a bit vector, as a number. -/
def fieldAt {w : Nat} (x : BitVec w) (lo n : Nat) : Nat := bitsAt x.toNat lo n

/-- Signed reading of an n-bit number. -/
def signedAt (n x : Nat) : Int := if x < 2 ^ (n - 1) then x else (x : Int) - 2 ^ n

/-- n-bit two's complement of an integer. -/
def wrapTo (n : Nat) (x : Int) : Nat := (x % (2 ^ n : Int)).toNat

/-- The low n bytes of a number, least significant first (R6). -/
def leBytes : Nat → Nat → Bytes
  | 0, _ => []
  | n + 1, x => BitVec.ofNat 8 x :: leBytes n (x / 256)

/-- The number that bytes spell, least significant first (R6). -/
def leNat : Bytes → Nat
  | [] => 0
  | b :: r => b.toNat + 256 * leNat r

/-- A bit vector of n bytes as bytes (R6). -/
def bvBytes {w : Nat} (x : BitVec w) : Bytes := leBytes (w / 8) x.toNat

/-- Cut or zero-fill to n bytes. -/
def fitBytes (n : Nat) (b : Bytes) : Bytes := (b ++ List.replicate (n - b.length) 0).take n

/-- Bytes [off + n − 1 : off] of a string, as a number. -/
def leAt (b : Bytes) (off n : Nat) : Nat := leNat ((b.drop off).take n)

/-- Bytes of a list of 32-bit words. -/
def wordsBytes (ws : List W32) : Bytes := ws.flatMap (fun w => leBytes 4 w.toNat)

/-- The 32-bit words that a byte string holds. -/
def bytesWords (n : Nat) (b : Bytes) : List W32 := (List.range n).map (fun i => BitVec.ofNat 32 (leAt b (4 * i) 4))

/-- Number of bits set in the low n bits. -/
def popcount (n x : Nat) : Nat := ((List.range n).filter (fun i => x.testBit i)).length

/-- Numbers below n whose bit is set, ascending. -/
def bitList (n x : Nat) : List Nat := (List.range n).filter (fun i => x.testBit i)

/-- The mask with the listed bits set. -/
def maskOf (l : List Nat) : Nat := l.foldl (fun m i => m ||| 2 ^ i) 0

/-- Integer division rounding up. -/
def ceilDiv (a b : Nat) : Nat := (a + b - 1) / b

/-- Least member of a list, `d` if it is empty. -/
def listMin (d : Int) : List Int → Int
  | [] => d
  | x :: r => if r.isEmpty then x else min x (listMin d r)

/-- Greatest member of a list, `d` if it is empty. -/
def listMax (d : Int) : List Int → Int
  | [] => d
  | x :: r => if r.isEmpty then x else max x (listMax d r)

/-- Put a value in ascending order. -/
def addSorted (x : Int) : List Int → List Int
  | [] => [x]
  | y :: r => if x < y then x :: y :: r else y :: addSorted x r

/-- Twice the median of a list: the middle value twice, or the sum of the two middle ones of an even count. -/
def median2 (l : List Int) : Int :=
  let a := l.foldl (fun r x => addSorted x r) []
  let n := a.length
  a.getD (n / 2) 0 + a.getD ((n - 1) / 2) 0

/-! Check values (R343). -/

/-- Reverse the low n bits. -/
def revBits (n x : Nat) : Nat := (List.range n).foldl (fun a i => if x.testBit i then a + 2 ^ (n - 1 - i) else a) 0

/-- One byte into a CRC register of width w, polynomial without its leading bit, bits taken most significant first, or
least significant first where `refin` is set. -/
def crcByte (w poly : Nat) (refin : Bool) (reg : Nat) (b : Nat) : Nat :=
  (List.range 8).foldl (fun r i =>
    let bit := if refin then b.testBit i else b.testBit (7 - i)
    let top := r.testBit (w - 1)
    let sh := (r * 2) % 2 ^ w
    if top != bit then sh ^^^ poly else sh) reg

/-- Fold bytes into a number, each step's number worked out before the next (so that a CRC is evaluated step by step). -/
def foldBytes (f : Nat → Byte → Nat) : Nat → Bytes → Nat
  | r, [] => r
  | 0, b :: l => foldBytes f (f 0 b) l
  | r + 1, b :: l => foldBytes f (f (r + 1) b) l

/-- CRC of a byte string: width, polynomial, initial register, input and output reflected, final exclusive or. -/
def crcOf (w poly init : Nat) (refin refout : Bool) (xo : Nat) (b : Bytes) : Nat :=
  let r := foldBytes (fun r x => crcByte w poly refin r x.toNat) init b
  (if refout then revBits w r else r) ^^^ xo

/-- CRC-32C (R350). -/
def crc32c (b : Bytes) : Nat := crcOf 32 0x1EDC6F41 0xFFFFFFFF true true 0xFFFFFFFF b

/-! SHA-256 (FIPS 180-4), of the image digest and of the Pod's record chain (R250, R312). -/

/-- The 64 round constants. -/
def shaK : List W32 :=
  [0x428A2F98, 0x71374491, 0xB5C0FBCF, 0xE9B5DBA5, 0x3956C25B, 0x59F111F1, 0x923F82A4, 0xAB1C5ED5] ++
  [0xD807AA98, 0x12835B01, 0x243185BE, 0x550C7DC3, 0x72BE5D74, 0x80DEB1FE, 0x9BDC06A7, 0xC19BF174] ++
  [0xE49B69C1, 0xEFBE4786, 0x0FC19DC6, 0x240CA1CC, 0x2DE92C6F, 0x4A7484AA, 0x5CB0A9DC, 0x76F988DA] ++
  [0x983E5152, 0xA831C66D, 0xB00327C8, 0xBF597FC7, 0xC6E00BF3, 0xD5A79147, 0x06CA6351, 0x14292967] ++
  [0x27B70A85, 0x2E1B2138, 0x4D2C6DFC, 0x53380D13, 0x650A7354, 0x766A0ABB, 0x81C2C92E, 0x92722C85] ++
  [0xA2BFE8A1, 0xA81A664B, 0xC24B8B70, 0xC76C51A3, 0xD192E819, 0xD6990624, 0xF40E3585, 0x106AA070] ++
  [0x19A4C116, 0x1E376C08, 0x2748774C, 0x34B0BCB5, 0x391C0CB3, 0x4ED8AA4A, 0x5B9CCA4F, 0x682E6FF3] ++
  [0x748F82EE, 0x78A5636F, 0x84C87814, 0x8CC70208, 0x90BEFFFA, 0xA4506CEB, 0xBEF9A3F7, 0xC67178F2]

/-- The initial hash value. -/
def shaInit : List W32 := [0x6A09E667, 0xBB67AE85, 0x3C6EF372, 0xA54FF53A, 0x510E527F, 0x9B05688C, 0x1F83D9AB, 0x5BE0CD19]

/-- A message with its padding: a one bit, zeros, and the length in bits. -/
def shaPad (b : Bytes) : Bytes := b ++ [0x80] ++ List.replicate ((119 - b.length % 64) % 64) 0 ++ (leBytes 8 (8 * b.length)).reverse

/-- The sixteen words of a block, then 48 more from the message schedule: the list holds the latest word first. -/
def shaSchedule : Nat → List W32 → List W32
  | 0, w => w
  | n + 1, w =>
    let s0 (x : W32) : W32 := x.rotateRight 7 ^^^ x.rotateRight 18 ^^^ (x >>> 3)
    let s1 (x : W32) : W32 := x.rotateRight 17 ^^^ x.rotateRight 19 ^^^ (x >>> 10)
    shaSchedule n ((s1 (w.getD 1 0) + w.getD 6 0 + s0 (w.getD 14 0) + w.getD 15 0) :: w)

/-- One round on the eight working words. -/
def shaRound (v : List W32) (k w : W32) : List W32 :=
  match v with
  | [a, b, c, d, e, f, g, h] =>
    let t1 := h + (e.rotateRight 6 ^^^ e.rotateRight 11 ^^^ e.rotateRight 25) + ((e &&& f) ^^^ (~~~e &&& g)) + k + w
    let t2 := (a.rotateRight 2 ^^^ a.rotateRight 13 ^^^ a.rotateRight 22) + ((a &&& b) ^^^ (a &&& c) ^^^ (b &&& c))
    [t1 + t2, a, b, c, d + t1, e, f, g]
  | _ => v

/-- One block of 64 bytes. -/
def shaBlock (h : List W32) (b : Bytes) : List W32 :=
  let first : List W32 := (List.range 16).map (fun i => BitVec.ofNat 32 (leNat ((b.drop (4 * i)).take 4).reverse))
  let w := (shaSchedule 48 first.reverse).reverse
  let v := (shaK.zip w).foldl (fun v x => shaRound v x.1 x.2) h
  List.zipWith (· + ·) h v

/-- Blocks of a padded message. -/
def shaBlocks : Nat → List W32 → Bytes → List W32
  | 0, h, _ => h
  | n + 1, h, b => shaBlocks n (shaBlock h (b.take 64)) (b.drop 64)

/-- SHA-256 of a byte string. -/
def sha256 (b : Bytes) : Bytes :=
  let p := shaPad b
  (shaBlocks (p.length / 64) shaInit p).flatMap (fun w => (leBytes 4 w.toNat).reverse)

/-! Memory: one canonical list of cells. -/

/-- Keys strictly rising, and no cell equal to what an unlisted address reads as (zero). -/
def Memory.wf (m : List Host.Cell) : Bool :=
  m.all (fun c => c.2 != 0) && decide (m.Pairwise (fun a b => a.1 < b.1))

/-- The byte at a key; an unlisted one reads zero (DESIGN CHOICE, log entry 1). -/
def Memory.read (m : List Host.Cell) (a : Nat) : Byte :=
  match m with
  | [] => 0
  | c :: r => if a = c.1 then c.2 else Memory.read r a

/-- Put a byte at a key, in canonical form. -/
def Memory.write (a : Nat) (v : Byte) : List Host.Cell → List Host.Cell
  | [] => if v = 0 then [] else [(a, v)]
  | c :: r =>
    if a < c.1 then (if v = 0 then c :: r else (a, v) :: c :: r)
    else if a = c.1 then (if v = 0 then r else (a, v) :: r)
    else c :: Memory.write a v r

/-- Bytes from a key on. -/
def Memory.readN (m : List Host.Cell) (a : Nat) : Nat → Bytes
  | 0 => []
  | n + 1 => Memory.read m a :: Memory.readN m (a + 1) n

/-- Put bytes from a key on. -/
def Memory.writeN (a : Nat) : Bytes → List Host.Cell → List Host.Cell
  | [], m => m
  | b :: r, m => Memory.writeN (a + 1) r (Memory.write a b m)

/-- Key of a byte address of a site (R131): the site number above 42 address bits. -/
def memKey (site addr : Nat) : Nat := 2 ^ 42 * site + addr

/-- Bytes of the module's memory. -/
def State.load (s : State) (a n : Nat) : Bytes := Memory.readN s.mem a n

/-- Store bytes in the module's memory. -/
def State.store (s : State) (a : Nat) (b : Bytes) : State := { s with mem := Memory.writeN a b s.mem }

/-! Parts of the state by number. -/

def State.core (s : State) (n : Nat) : Core := tget {} n s.cores
def State.setCore (s : State) (n : Nat) (c : Core) : State := { s with cores := tset n c s.cores }
def State.die (s : State) (n : Nat) : Die := tget {} n s.dies
def State.setDie (s : State) (n : Nat) (d : Die) : State := { s with dies := tset n d s.dies }
def State.whip (s : State) (n : Nat) : Whip := tget {} n s.whips
def State.setWhip (s : State) (n : Nat) (w : Whip) : State := { s with whips := tset n w s.whips }
def State.arb (s : State) (n : Nat) : Arb := tget {} n s.arbs
def State.setArb (s : State) (n : Nat) (a : Arb) : State := { s with arbs := tset n a s.arbs }
def State.str (s : State) (n : Nat) : Str := tget {} n s.strings
def State.setStr (s : State) (n : Nat) (t : Str) : State := { s with strings := tset n t s.strings }
def State.tile (s : State) (n : Nat) : Tile := tget {} n s.tiles
def State.setTile (s : State) (n : Nat) (t : Tile) : State := { s with tiles := tset n t s.tiles }
def State.harp (s : State) (n : Nat) : Harp := tget {} n s.harps
def State.setHarp (s : State) (n : Nat) (h : Harp) : State := { s with harps := tset n h s.harps }
def State.domain (s : State) (n : Nat) : Domain := tget {} n s.domains
def State.setDomain (s : State) (n : Nat) (d : Domain) : State := { s with domains := tset n d s.domains }
def State.port (s : State) (n : Nat) : FPort := tget {} n s.ports
def State.setPort (s : State) (n : Nat) (p : FPort) : State := { s with ports := tset n p s.ports }
def State.imgSlot (s : State) (n : Nat) : ImgSlot := tget {} n s.images.slots
def State.setImgSlot (s : State) (n : Nat) (x : ImgSlot) : State :=
  { s with images := { s.images with slots := tset n x s.images.slots } }
def State.cvu (s : State) (n : Nat) : Cvu := tget {} n s.cvus
def State.setCvu (s : State) (n : Nat) (u : Cvu) : State := { s with cvus := tset n u s.cvus }
def State.thermDie (s : State) (site die : Nat) : ThermDie := tget {} (16 * site + die) s.therm.dies
def State.setThermDie (s : State) (site die : Nat) (t : ThermDie) : State :=
  { s with therm := { s.therm with dies := tset (16 * site + die) t s.therm.dies } }

/-- Something leaves the module or a die. -/
def State.emit (s : State) (o : Output) : State := { s with out := s.out ++ [o] }

/-- n fresh free bytes. -/
def State.freeBytes (s : State) (n : Nat) : Bytes := (List.range n).map (fun i => Sys2Proof.Config.freeByte (s.free + i))

/-- A fresh free 64-bit value. -/
def State.freeWord (s : State) : W64 := Sys2Proof.Config.freeWord s.free

/-- Count n free values as drawn. -/
def State.drawn (s : State) (n : Nat) : State := { s with free := s.free + n }

/-! Where units stand (R15, R16). -/

/-- Site of compute die d (R15). -/
def dieSite (d : Nat) : Nat := [1, 3, 5, 6, 7, 8, 9, 11, 13, 15, 16, 17, 18, 19, 21, 23].getD d 31

/-- Site of DRAM stack k (R15). -/
def stackSite (k : Nat) : Nat := [0, 2, 4, 10, 14, 20, 22, 24].getD k 31

/-- Compute die at a site, if one is there. -/
def siteDie (site : Nat) : Option Nat := (List.range 16).find? (fun d => dieSite d == site)

/-- DRAM stack at a site, if one is there. -/
def siteStack (site : Nat) : Option Nat := (List.range 8).find? (fun k => stackSite k == site)

/-- The hub's site. -/
def hubSite : Nat := 12

/-- Site of rim die r: 25 +x, 26 −x, 27 +y, 28 −y (R14). -/
def rimSite (r : Nat) : Nat := 25 + r

/-- Compute die of Matrix Core c (R16). -/
def coreDie (c : Nat) : Nat := c / 4

/-- Compute die of Whippet w (R16). -/
def whipDie (w : Nat) : Nat := w / 16

end Sys2Proof.Machine
end

