-- ==== Sys2Proof/Machine/Objects.lean ====
section
/-! DEFINITION. The object dictionary's description rows, from the object tables of the chapters (R277, R304), and the key
of each object: 256 × index + sub of its first subindex. -/

namespace Sys2Proof.Machine

/-- One row of an object table: key of the first sub, consecutive subs, consecutive index families (slots every 0x10
indices, tenants every index), type code (R277), access (1 RO, 2 WO, 3 RW), description flags (R277: 1 persistent, 2
group, 4 selector, 8 metrology, 16 segmented), length in bytes (the longest for a DOMAIN, 0 where the tables fix none),
default, lower and upper bound. -/
structure ObjRow where
  key   : Nat
  n     : Nat
  reps  : Nat
  ty    : Nat
  acc   : Nat
  flags : Nat
  len   : Nat
  dflt  : Nat
  lo    : Int
  hi    : Int
  deriving DecidableEq, Repr

/-! Keys of the objects. -/

-- R23
def Obj.coreDisableMask : Nat := 0x101001
def Obj.whippetDisableMask0 : Nat := 0x101002
def Obj.whippetDisableMask1 : Nat := 0x101003
def Obj.whippetDisableMask2 : Nat := 0x101004
def Obj.whippetDisableMask3 : Nat := 0x101005
def Obj.mapDigest : Nat := 0x101006
def Obj.fusedCoreMask : Nat := 0x101007
def Obj.fusedWhippetDigest : Nat := 0x101008
def Obj.mapChangeCount : Nat := 0x101009
def Obj.isolationClear : Nat := 0x10100A

-- R25
def Obj.formatSupportMask : Nat := 0x101101
def Obj.mxSpecVersion : Nat := 0x101102

-- R80
def Obj.mcClockMhz : Nat := 0x260001
def Obj.lwLaunchLeadBeats : Nat := 0x260002
def Obj.lwWatchdogBeats : Nat := 0x260003
def Obj.lwRerunLimit : Nat := 0x260004
def Obj.slewLimitW : Nat := 0x260005
def Obj.ballastEnable : Nat := 0x260006
def Obj.coreStateN : Nat := 0x261001
def Obj.diePowerWN : Nat := 0x262001
def Obj.lwLaunched : Nat := 0x660001
def Obj.lwCompleted : Nat := 0x660002
def Obj.lwLate : Nat := 0x660003
def Obj.lwImageFaults : Nat := 0x660004
def Obj.lwOtherExits : Nat := 0x660005
def Obj.lwReruns : Nat := 0x660006
def Obj.governorHoldCycles : Nat := 0x660007
def Obj.ballastCycles : Nat := 0x660008

-- R106
def Obj.whippetClockMhz : Nat := 0x270001
def Obj.specMaxStreams : Nat := 0x270002
def Obj.stealProbeLimit : Nat := 0x270003
def Obj.stealBackoffNs : Nat := 0x270004
def Obj.stealHistoryThreshold : Nat := 0x270005
def Obj.stealOrderMode : Nat := 0x270006
def Obj.stealsSincePowerup : Nat := 0x270007
def Obj.whippetQueueDepthN : Nat := 0x271001
def Obj.coreQueueDepthN : Nat := 0x272001
def Obj.steals : Nat := 0x670001
def Obj.stealEmptyProbes : Nat := 0x670002
def Obj.plainSteps : Nat := 0x670003
def Obj.specSteps : Nat := 0x670004
def Obj.specNodesVerified : Nat := 0x670005
def Obj.specNodesAccepted : Nat := 0x670006
def Obj.samplerResidualFallbacks : Nat := 0x670007
def Obj.stopStringHits : Nat := 0x670008
def Obj.tokInvalidUtf8 : Nat := 0x670009

-- R124
def Obj.mergeWindowTicks : Nat := 0x280001
def Obj.mergeEnable : Nat := 0x280002
def Obj.sbCacheFloorMib : Nat := 0x280003
def Obj.sbPageKib : Nat := 0x280004
def Obj.scrubPeriodH : Nat := 0x280005
def Obj.sbStateN : Nat := 0x281001
def Obj.sbLockedMibN : Nat := 0x281101
def Obj.reduceStageKibN : Nat := 0x281201
def Obj.sbLockedRunMibN : Nat := 0x281301
def Obj.arbDiePrioShadowR : Nat := 0x283001
def Obj.arbDiePrioR : Nat := 0x283101
def Obj.arbDramPrioShadowR : Nat := 0x283201
def Obj.arbDramPrioR : Nat := 0x283301
def Obj.arbHubPrioShadowR : Nat := 0x283401
def Obj.arbHubPrioR : Nat := 0x283501
def Obj.arbWaitLimitShadowC : Nat := 0x283601
def Obj.arbWaitLimitC : Nat := 0x283701
def Obj.arbCommit : Nat := 0x283801
def Obj.arbCommitPending : Nat := 0x283802
def Obj.mergedReads : Nat := 0x680001
def Obj.sramCorrected : Nat := 0x680002
def Obj.sramUncorrected : Nat := 0x680003
def Obj.sbCorrected : Nat := 0x680004
def Obj.sbUncorrected : Nat := 0x680005
def Obj.sbCacheHits : Nat := 0x680006
def Obj.sbCacheMisses : Nat := 0x680007
def Obj.sbWritebacks : Nat := 0x680008
def Obj.sbFillBypass : Nat := 0x680009
def Obj.sbRetentionEntries : Nat := 0x68000A
def Obj.arbForcedWins : Nat := 0x68000B
def Obj.reduceTargetsCompleted : Nat := 0x68000C

-- R149
def Obj.laneSelString : Nat := 0x250001
def Obj.laneSelLine : Nat := 0x250002
def Obj.laneRxPower : Nat := 0x250003
def Obj.laneEyeWidth : Nat := 0x250004
def Obj.laneMargin : Nat := 0x250005
def Obj.laneRole : Nat := 0x250006
def Obj.stringState : Nat := 0x250007
def Obj.stringLatencyPs : Nat := 0x250008
def Obj.marginTestRequest : Nat := 0x250009
def Obj.commissionResult : Nat := 0x25000A
def Obj.commissionWorstMargin : Nat := 0x25000B
def Obj.tileReset : Nat := 0x25000C
def Obj.laneMinMargin : Nat := 0x250101
def Obj.laneWarnMargin : Nat := 0x250102
def Obj.commissionMargin : Nat := 0x250103
def Obj.laneMinEye : Nat := 0x250104
def Obj.ackTimeoutNs : Nat := 0x250105
def Obj.retryBufferFrames : Nat := 0x250106
def Obj.relockLimitMs : Nat := 0x250107
def Obj.stringsInStateN : Nat := 0x250201
def Obj.crcErrors : Nat := 0x650001
def Obj.retryTimeouts : Nat := 0x650002
def Obj.framesReplayed : Nat := 0x650003
def Obj.laneMapouts : Nat := 0x650004
def Obj.lanesWarning : Nat := 0x650005
def Obj.relayedFrames : Nat := 0x650006
def Obj.retrains : Nat := 0x650007
def Obj.stringsDownEvents : Nat := 0x650008
def Obj.tileResets : Nat := 0x650009
def Obj.pathLostTransfers : Nat := 0x65000A
def Obj.busDrops : Nat := 0x65000B
def Obj.unassignedSiteDiscards : Nat := 0x65000C
def Obj.refusedAddresses : Nat := 0x65000D
def Obj.rpartFramesAdded : Nat := 0x65000E

-- R175
def Obj.harpSel : Nat := 0x240001
def Obj.harpRole : Nat := 0x240002
def Obj.harpDomain : Nat := 0x240003
def Obj.harpSerial : Nat := 0x240004
def Obj.harpHours : Nat := 0x240005
def Obj.harpLineSel : Nat := 0x240006
def Obj.harpLinePower : Nat := 0x240007
def Obj.harpLineOffset : Nat := 0x240008
def Obj.harpRemovalRequest : Nat := 0x240009
def Obj.domainSourceD : Nat := 0x240101
def Obj.domainMarginD : Nat := 0x240201
def Obj.domainFadeD : Nat := 0x240301
def Obj.domainTimeToHandoverD : Nat := 0x240401
def Obj.handoverStateD : Nat := 0x240501
def Obj.handoverWarnMargin : Nat := 0x240601
def Obj.handoverRequestMargin : Nat := 0x240602
def Obj.handoverForceMargin : Nat := 0x240603
def Obj.handoverManual : Nat := 0x240604
def Obj.handoverHoldLimitUs : Nat := 0x240605
def Obj.pegSelString : Nat := 0x241001
def Obj.pegSelLine : Nat := 0x241002
def Obj.pegSelRing : Nat := 0x241003
def Obj.pegState : Nat := 0x241004
def Obj.pegHeaterCode : Nat := 0x241005
def Obj.pegDetuning : Nat := 0x241006
def Obj.pegLastFretLine : Nat := 0x241007
def Obj.calEnable : Nat := 0x251001
def Obj.calTurnIntervalS : Nat := 0x251002
def Obj.calTempTriggerC : Nat := 0x251003
def Obj.calTolMargin : Nat := 0x251004
def Obj.calTolEye : Nat := 0x251005
def Obj.calRefusalLimit : Nat := 0x251006
def Obj.calSetTempK : Nat := 0x251101
def Obj.soundingRim : Nat := 0x243001
def Obj.soundingHalfSpanGhz : Nat := 0x243002
def Obj.soundingStart : Nat := 0x243003
def Obj.soundingState : Nat := 0x243004
def Obj.soundingPoints : Nat := 0x243005
def Obj.soundingPointSel : Nat := 0x243006
def Obj.soundingPointPower : Nat := 0x243007
def Obj.soundingPointFreq : Nat := 0x243008
def Obj.handoversPlanned : Nat := 0x640001
def Obj.handoversForced : Nat := 0x640002
def Obj.handoverFallbacks : Nat := 0x640003
def Obj.harpAbruptLosses : Nat := 0x640004
def Obj.wrongLineLocks : Nat := 0x640005
def Obj.fretFailures : Nat := 0x640006
def Obj.pegAlarms : Nat := 0x640007
def Obj.calAccepted : Nat := 0x640008
def Obj.calRefused : Nat := 0x640009
def Obj.harpInsertions : Nat := 0x64000A
def Obj.soundingRuns : Nat := 0x64000B

-- R187
def Obj.dramPoolPages : Nat := 0x290001
def Obj.dramFreePages : Nat := 0x290002
def Obj.kvReserveGib : Nat := 0x290003
def Obj.dramScrubPeriodH : Nat := 0x290004
def Obj.dramTrainMode : Nat := 0x290005
def Obj.stackStateK : Nat := 0x291001
def Obj.stackTempK : Nat := 0x291101
def Obj.stackRefreshMsK : Nat := 0x291201
def Obj.stackSpareRowsK : Nat := 0x291301
def Obj.dramCorrected : Nat := 0x690001
def Obj.dramUncorrected : Nat := 0x690002
def Obj.dramRowsRepaired : Nat := 0x690003
def Obj.dramPagesPoisoned : Nat := 0x690004
def Obj.dramFills : Nat := 0x690005
def Obj.dramWritebacks : Nat := 0x690006
def Obj.kvAdmissionRefusals : Nat := 0x690007
def Obj.prefixBlocksReclaimed : Nat := 0x690008
def Obj.stackFailures : Nat := 0x690009

-- R222
def Obj.podNumber : Nat := 0x2A0001
def Obj.podWidth : Nat := 0x2A0002
def Obj.podHeight : Nat := 0x2A0003
def Obj.nodeX : Nat := 0x2A0004
def Obj.nodeY : Nat := 0x2A0005
def Obj.nodeNumber : Nat := 0x2A0006
def Obj.fabricLevel : Nat := 0x2A0007
def Obj.portStateP : Nat := 0x2A1001
def Obj.portNeighbourP : Nat := 0x2A1101
def Obj.portEnableP : Nat := 0x2A1201
def Obj.portLatencyPsP : Nat := 0x2A1301
def Obj.routeSetStaged : Nat := 0x2A2001
def Obj.routeSetDigest : Nat := 0x2A2002
def Obj.routeInactiveDigest : Nat := 0x2A2003
def Obj.routeActiveEpoch : Nat := 0x2A2004
def Obj.routeActivateBeat : Nat := 0x2A2005
def Obj.routeActivateDigest : Nat := 0x2A2006
def Obj.routeDrainPending : Nat := 0x2A2007
def Obj.routeCoordinator : Nat := 0x2A2008
def Obj.cmarkLevel1Flits : Nat := 0x2A3001
def Obj.cmarkLevel2Flits : Nat := 0x2A3002
def Obj.cmarkLevel3Flits : Nat := 0x2A3003
def Obj.ccFirstRate : Nat := 0x2A3004
def Obj.ccIncreaseStep : Nat := 0x2A3005
def Obj.collTimeoutUs : Nat := 0x2A4001
def Obj.collMemoryKib : Nat := 0x2A4002
def Obj.fiPort : Nat := 0x2A5001
def Obj.fiMode : Nat := 0x2A5002
def Obj.fiRateLog2 : Nat := 0x2A5003
def Obj.fiPattern : Nat := 0x2A5004
def Obj.fiBurstLen : Nat := 0x2A5005
def Obj.fiSeed : Nat := 0x2A5006
def Obj.fiClassMask : Nat := 0x2A5007
def Obj.fiApply : Nat := 0x2A5008
def Obj.linkCrcErrors : Nat := 0x6A0001
def Obj.linkRetryTimeouts : Nat := 0x6A0002
def Obj.linkBlocksReplayed : Nat := 0x6A0003
def Obj.portRetrains : Nat := 0x6A0004
def Obj.fabricHeaderDiscards : Nat := 0x6A0005
def Obj.fabricPathLost : Nat := 0x6A0006
def Obj.seqGaps : Nat := 0x6A0007
def Obj.seqOutOfOrder : Nat := 0x6A0008
def Obj.cmarksSet : Nat := 0x6A0009
def Obj.ccDecreases : Nat := 0x6A000A
def Obj.transitDirect : Nat := 0x6A000B
def Obj.transitHub : Nat := 0x6A000C
def Obj.mcastPackets : Nat := 0x6A000D
def Obj.collInstancesCompleted : Nat := 0x6A000E
def Obj.collTimeouts : Nat := 0x6A000F
def Obj.collSlotConflicts : Nat := 0x6A0010
def Obj.epochChanges : Nat := 0x6A0011
def Obj.fiEvents : Nat := 0x6A0012

-- R237
def Obj.rmemTimeoutUs : Nat := 0x2B0001
def Obj.rmemUnreachableHoldUs : Nat := 0x2B0002
def Obj.rmemTrackingEntries : Nat := 0x2B0003
def Obj.rmemTagQuarantineMs : Nat := 0x2B0004
def Obj.winEntriesFree : Nat := 0x2B0005
def Obj.winEntryN : Nat := 0x2B1001
def Obj.rmemLastFaultNode : Nat := 0x2B2001
def Obj.rmemLastFaultBeat : Nat := 0x2B2002
def Obj.rmemCommands : Nat := 0x6B0001
def Obj.rmemRefusals : Nat := 0x6B0002
def Obj.rmemTimeouts : Nat := 0x6B0003
def Obj.rmemPoisoned : Nat := 0x6B0004
def Obj.rmemLateReplies : Nat := 0x6B0005
def Obj.rmemFastFails : Nat := 0x6B0006
def Obj.rmemAtomics : Nat := 0x6B0007

-- R238
def Obj.retrieverEnable : Nat := 0x2C0001
def Obj.retrieverIpv6Hi : Nat := 0x2C0002
def Obj.retrieverIpv6Lo : Nat := 0x2C0003
def Obj.retrieverUdpPort : Nat := 0x2C0004
def Obj.retrieverTimeoutUs : Nat := 0x2C0005
def Obj.retrieverCoalesceNs : Nat := 0x2C0006
def Obj.retrieverStoreAgeUs : Nat := 0x2C0007
def Obj.retrieverState : Nat := 0x2C0008
def Obj.retrieverPeerHiQ : Nat := 0x2C1001
def Obj.retrieverPeerLoQ : Nat := 0x2C1101
def Obj.retrieverGatewayNodeQ : Nat := 0x2C1201
def Obj.retrieverKeyQ : Nat := 0x2C1301
def Obj.retrieverSessionQ : Nat := 0x2C1401
def Obj.retrieverReads : Nat := 0x6C0001
def Obj.retrieverLoadsJoined : Nat := 0x6C0002
def Obj.retrieverFlushes : Nat := 0x6C0003
def Obj.retrieverResends : Nat := 0x6C0004
def Obj.retrieverAuthFailures : Nat := 0x6C0005
def Obj.retrieverRefusals : Nat := 0x6C0006
def Obj.retrieverSessionOpens : Nat := 0x6C0007

-- R255
def Obj.servePortModeS : Nat := 0x2D0001
def Obj.serveIpv6HiS : Nat := 0x2D0101
def Obj.serveIpv6LoS : Nat := 0x2D0201
def Obj.serveUdpPort : Nat := 0x2D0301
def Obj.serveMaxSessions : Nat := 0x2D0302
def Obj.serveWindowRecords : Nat := 0x2D0303
def Obj.serveResendUs : Nat := 0x2D0304
def Obj.serveSessionTimeoutMs : Nat := 0x2D0305
def Obj.servePromptTimeoutMs : Nat := 0x2D0306
def Obj.prefillQueueLimit : Nat := 0x2D0307
def Obj.maxContexts : Nat := 0x2D0308
def Obj.maxActiveStreams : Nat := 0x2D0309
def Obj.contextsResident : Nat := 0x2D0401
def Obj.streamsActive : Nat := 0x2D0402
def Obj.prefillQueueTokens : Nat := 0x2D0403
def Obj.slotState : Nat := 0x400001
def Obj.slotDigest : Nat := 0x400002
def Obj.slotLoad : Nat := 0x400003
def Obj.slotUnload : Nat := 0x400004
def Obj.slotLastResult : Nat := 0x400005
def Obj.slotJob : Nat := 0x400006
def Obj.slotBootDigest : Nat := 0x400007
def Obj.slotPrefillNs : Nat := 0x400008
def Obj.imageUpload : Nat := 0x410001
def Obj.storeFreeMib : Nat := 0x410002
def Obj.storeCount : Nat := 0x410003
def Obj.storeSel : Nat := 0x410004
def Obj.storeDigest : Nat := 0x410005
def Obj.imageTrustKeyK : Nat := 0x411001
def Obj.tenantEnable : Nat := 0x500001
def Obj.tenantKey : Nat := 0x500002
def Obj.tenantSlotMask : Nat := 0x500003
def Obj.tenantMaxStreams : Nat := 0x500004
def Obj.tenantMaxSessions : Nat := 0x500005
def Obj.serveRequests : Nat := 0x6D0001
def Obj.serveRefusals : Nat := 0x6D0002
def Obj.serveAuthDrops : Nat := 0x6D0003
def Obj.serveResends : Nat := 0x6D0004
def Obj.deadlineExpiries : Nat := 0x6D0005
def Obj.prefixBlocksReused : Nat := 0x6D0006
def Obj.prefixCollisions : Nat := 0x6D0007
def Obj.imageLoads : Nat := 0x6D0008
def Obj.imageRefusals : Nat := 0x6D0009
def Obj.ipv4Discards : Nat := 0x6D000A
def Obj.serveKindDrops : Nat := 0x6D000B

-- R275
def Obj.clkStepIntervalUs : Nat := 0x220001
def Obj.droopThresholdPct : Nat := 0x220002
def Obj.dieClockMhzN : Nat := 0x220101
def Obj.dieClockChangePendingN : Nat := 0x220201
def Obj.xingSelSite : Nat := 0x221001
def Obj.xingSelIndex : Nat := 0x221002
def Obj.xingNominalCycles : Nat := 0x221003
def Obj.xingResidualPs : Nat := 0x221004
def Obj.xingWorstResidualPs : Nat := 0x221005
def Obj.xingCalResult : Nat := 0x221006
def Obj.stretchEvents : Nat := 0x620001
def Obj.clockSteps : Nat := 0x620002
def Obj.xingCalRetries : Nat := 0x620003
def Obj.stretchedCyclesN : Nat := 0x621001

-- R276
def Obj.timeSourceEnable : Nat := 0x230001
def Obj.timeSource : Nat := 0x230002
def Obj.timeState : Nat := 0x230003
def Obj.beatNow : Nat := 0x230004
def Obj.beatOffsetPs : Nat := 0x230005
def Obj.beatQualityPs : Nat := 0x230006
def Obj.beatAnchored : Nat := 0x230007
def Obj.utcOffsetS : Nat := 0x230008
def Obj.beatSlewLimitNs : Nat := 0x230009
def Obj.beatMaxSlewPpm : Nat := 0x23000A
def Obj.beatPendingOffsetNs : Nat := 0x23000B
def Obj.ppsDelayPs : Nat := 0x23000C
def Obj.syncReferenceNode : Nat := 0x23000D
def Obj.beatSyncIntervalUs : Nat := 0x23000E
def Obj.syncHops : Nat := 0x23000F
def Obj.syncUpstreamPort : Nat := 0x230010
def Obj.ptpDomain : Nat := 0x230011
def Obj.ptpMasterIdentity : Nat := 0x230012
def Obj.beatSecondsSet : Nat := 0x230013
def Obj.sourceSwitches : Nat := 0x630001
def Obj.holdoverEntries : Nat := 0x630002
def Obj.beatSteps : Nat := 0x630003
def Obj.beatSyncRejects : Nat := 0x630004

-- R305
def Obj.vendorName : Nat := 0x100001
def Obj.partNumber : Nat := 0x100002
def Obj.serialNumber : Nat := 0x100003
def Obj.archLevel : Nat := 0x100004
def Obj.firmwareVersion : Nat := 0x100005
def Obj.bootCount : Nat := 0x100006
def Obj.mgmtIpv6Hi : Nat := 0x110001
def Obj.mgmtIpv6Lo : Nat := 0x110002
def Obj.mgmtUdpPort : Nat := 0x110003
def Obj.mgmtKey : Nat := 0x110004
def Obj.mgmtAuthDrops : Nat := 0x110005
def Obj.ptpPortState : Nat := 0x110006
def Obj.stageOwner : Nat := 0x120001
def Obj.stageEntries : Nat := 0x120002
def Obj.stageDigest : Nat := 0x120003
def Obj.stageDiscard : Nat := 0x120004
def Obj.stageIdleTimeoutS : Nat := 0x120005
def Obj.configGeneration : Nat := 0x120006
def Obj.configCopyStatusC : Nat := 0x120007
def Obj.configCopyGenerationC : Nat := 0x120009
def Obj.configRestore : Nat := 0x12000B
def Obj.deviceState : Nat := 0x130001
def Obj.stateReasons : Nat := 0x130002
def Obj.autoBoot : Nat := 0x130003
def Obj.powerOnRequest : Nat := 0x130004
def Obj.serveEnable : Nat := 0x130005
def Obj.drainRequest : Nat := 0x130006
def Obj.restartRequest : Nat := 0x130007
def Obj.bootElapsedMs : Nat := 0x130008
def Obj.pairState : Nat := 0x131001
def Obj.activeHalf : Nat := 0x131002
def Obj.controllerRestore : Nat := 0x131003
def Obj.pairLastResult : Nat := 0x131004
def Obj.takeoverDrill : Nat := 0x131005
def Obj.drillResult : Nat := 0x131006
def Obj.drillLastBeat : Nat := 0x131007
def Obj.drillAutoDays : Nat := 0x131008
def Obj.controlCycles : Nat := 0x638001
def Obj.pairMismatches : Nat := 0x638002
def Obj.takeovers : Nat := 0x638003
def Obj.ensId : Nat := 0x300001
def Obj.ensSize : Nat := 0x300002
def Obj.ensSlot : Nat := 0x300003
def Obj.ensMemberTable : Nat := 0x300004
def Obj.ensKey : Nat := 0x300005
def Obj.ensHeartbeatMs : Nat := 0x300006
def Obj.ensState : Nat := 0x300007
def Obj.ensMismatchItems : Nat := 0x300008
def Obj.ensMismatchNode : Nat := 0x300009
def Obj.ensResume : Nat := 0x30000A
def Obj.ensDissolve : Nat := 0x30000B
def Obj.ensRecord : Nat := 0x301001

-- R322
def Obj.meterFwVersion : Nat := 0x900001
def Obj.meterFwDigest : Nat := 0x900002
def Obj.podSerial : Nat := 0x900003
def Obj.podPublicKey : Nat := 0x900004
def Obj.sealState : Nat := 0x900005
def Obj.tamperCount : Nat := 0x900006
def Obj.energyTotalMwh : Nat := 0x901001
def Obj.powerNowMw : Nat := 0x901002
def Obj.podInputVoltageMv : Nat := 0x901003
def Obj.inputCurrentUa : Nat := 0x901004
def Obj.podTemp : Nat := 0x901005
def Obj.podUtcNs : Nat := 0x902001
def Obj.clockLastAdjustUs : Nat := 0x902002
def Obj.clockAdjust24hUs : Nat := 0x902003
def Obj.clockRefusals : Nat := 0x902004
def Obj.backupSource : Nat := 0x902005
def Obj.coinCellMv : Nat := 0x902006
def Obj.allocInputWeight : Nat := 0x903001
def Obj.calRun : Nat := 0x903002
def Obj.calResult : Nat := 0x903003
def Obj.calResidual : Nat := 0x903004
def Obj.calLastUtcNs : Nat := 0x903005
def Obj.calCount : Nat := 0x903006
def Obj.verResult : Nat := 0x903007
def Obj.verWorstError : Nat := 0x903008
def Obj.recordLatest : Nat := 0x904001
def Obj.recordOldest : Nat := 0x904002
def Obj.meterIndex : Nat := 0x904003
def Obj.meterArchive : Nat := 0x904004
def Obj.tallySeqLast : Nat := 0x904005
def Obj.tallyGapsTotal : Nat := 0x904006
def Obj.testSecondsTotal : Nat := 0x904007

-- R340
def Obj.inputVoltageMv : Nat := 0x200001
def Obj.inputCurrentMa : Nat := 0x200002
def Obj.inputPowerW : Nat := 0x200003
def Obj.inputState : Nat := 0x200004
def Obj.powerCapW : Nat := 0x200005
def Obj.inputCurrentLimitMa : Nat := 0x200006
def Obj.railState : Nat := 0x200007
def Obj.diePowerCeilingN : Nat := 0x200101
def Obj.inputLosses : Nat := 0x600001
def Obj.rideThroughs : Nat := 0x600002
def Obj.overvoltageCutouts : Nat := 0x600003
def Obj.brownoutEntries : Nat := 0x600004
def Obj.capLimitedMs : Nat := 0x600005

-- R341
def Obj.thermSelSite : Nat := 0x210001
def Obj.thermSelDie : Nat := 0x210002
def Obj.thermSelSensor : Nat := 0x210003
def Obj.thermReading : Nat := 0x210004
def Obj.thermValueUsed : Nat := 0x210005
def Obj.thermSuspect : Nat := 0x210006
def Obj.thermDieLevel : Nat := 0x210007
def Obj.thermalShutdownClear : Nat := 0x210008
def Obj.siteTempN : Nat := 0x211001
def Obj.thermWarnings : Nat := 0x610001
def Obj.thermThrottles : Nat := 0x610002
def Obj.thermShutdowns : Nat := 0x610003
def Obj.sensorsSuspect : Nat := 0x610004
def Obj.verticalOrderEvents : Nat := 0x610005
def Obj.thermHoldCycles : Nat := 0x610006

-- R352
def Obj.cvuWhippetUnits : Nat := 0x2E0001
def Obj.cvuHubUnits : Nat := 0x2E0002
def Obj.cvuHubClockMhz : Nat := 0x2E0003
def Obj.cvuHubOwnerN : Nat := 0x2E1001
def Obj.cvuWhippetBytes : Nat := 0x6E0001
def Obj.cvuHubBytes : Nat := 0x6E0002
def Obj.cvuBusyStalls : Nat := 0x6E0003
def Obj.cvuOwnerRefusals : Nat := 0x6E0004

-- R372
def Obj.testModePermit : Nat := 0x2F0001
def Obj.testModeUnlock : Nat := 0x2F0002
def Obj.testModeLock : Nat := 0x2F0003
def Obj.testModeState : Nat := 0x2F0004
def Obj.testModeMaxS : Nat := 0x2F0005
def Obj.testModeRemainingS : Nat := 0x2F0006
def Obj.fiStopAll : Nat := 0x2F0007
def Obj.sfiString : Nat := 0x2F1001
def Obj.sfiMode : Nat := 0x2F1002
def Obj.sfiRateLog2 : Nat := 0x2F1003
def Obj.sfiPattern : Nat := 0x2F1004
def Obj.sfiBurstLen : Nat := 0x2F1005
def Obj.sfiSeed : Nat := 0x2F1006
def Obj.sfiClassMask : Nat := 0x2F1007
def Obj.sfiApply : Nat := 0x2F1008
def Obj.sfiActiveStrings : Nat := 0x2F1009
def Obj.katPeriodH : Nat := 0x2F2001
def Obj.katRequest : Nat := 0x2F2002
def Obj.katPending : Nat := 0x2F2003
def Obj.katLastUnit : Nat := 0x2F2004
def Obj.katLastResult : Nat := 0x2F2005
def Obj.katLastBeat : Nat := 0x2F2006
def Obj.beagleEnable : Nat := 0x2F3001
def Obj.beagleSourceMask : Nat := 0x2F3002
def Obj.beagleBufferMib : Nat := 0x2F3003
def Obj.beagleMode : Nat := 0x2F3004
def Obj.beagleTriggerKind : Nat := 0x2F3005
def Obj.beaglePostTrigger : Nat := 0x2F3006
def Obj.beagleState : Nat := 0x2F3007
def Obj.beagleRecords : Nat := 0x2F3008
def Obj.beagleBuffer : Nat := 0x2F3009
def Obj.beagleClear : Nat := 0x2F300A

-- R373
def Obj.logOldest : Nat := 0x700001
def Obj.logNewest : Nat := 0x700002
def Obj.logSel : Nat := 0x700003
def Obj.logEntry : Nat := 0x700004
def Obj.logClear : Nat := 0x700005
def Obj.katRuns : Nat := 0x6F0001
def Obj.katTransients : Nat := 0x6F0002
def Obj.katFailures : Nat := 0x6F0003
def Obj.testModeUnlocks : Nat := 0x6F0004
def Obj.sfiEvents : Nat := 0x6F0005
def Obj.beagleRecordsCaptured : Nat := 0x6F0006
def Obj.beagleLost : Nat := 0x6F0007
def Obj.logOverwritten : Nat := 0x6F0008
def Obj.logSuppressed : Nat := 0x6F0009

/-! Description rows. -/

/-- Rows of indices 0x1000 to 0x10FF. -/
def objRows10 : List ObjRow := [
   ⟨0x101001, 1, 1, 9, 1, 0, 8, 0, 0, 18446744073709551615⟩,
   ⟨0x101002, 1, 1, 9, 1, 0, 8, 0, 0, 18446744073709551615⟩,
   ⟨0x101003, 1, 1, 9, 1, 0, 8, 0, 0, 18446744073709551615⟩,
   ⟨0x101004, 1, 1, 9, 1, 0, 8, 0, 0, 18446744073709551615⟩,
   ⟨0x101005, 1, 1, 9, 1, 0, 8, 0, 0, 18446744073709551615⟩,
   ⟨0x101006, 1, 1, 8, 1, 0, 4, 0, 0, 4294967295⟩,
   ⟨0x101007, 1, 1, 9, 1, 0, 8, 0, 0, 18446744073709551615⟩,
   ⟨0x101008, 1, 1, 8, 1, 0, 4, 0, 0, 4294967295⟩,
   ⟨0x101009, 1, 1, 8, 1, 0, 4, 0, 0, 4294967295⟩,
   ⟨0x10100A, 1, 1, 7, 2, 0, 2, 0, 0, 319⟩,
   ⟨0x101101, 1, 1, 8, 1, 2, 4, 131071, 0, 4294967295⟩,
   ⟨0x101102, 1, 1, 7, 1, 0, 2, 256, 0, 65535⟩,
   ⟨0x100001, 1, 1, 11, 1, 0, 255, 0, 0, 0⟩,
   ⟨0x100002, 1, 1, 11, 1, 0, 255, 0, 0, 0⟩,
   ⟨0x100003, 1, 1, 9, 1, 0, 8, 0, 0, 18446744073709551615⟩,
   ⟨0x100004, 1, 1, 6, 1, 0, 1, 1, 0, 255⟩,
   ⟨0x100005, 1, 1, 8, 1, 0, 4, 0, 0, 4294967295⟩,
   ⟨0x100006, 1, 1, 8, 1, 0, 4, 0, 0, 4294967295⟩]

/-- Rows of indices 0x1100 to 0x11FF. -/
def objRows11 : List ObjRow := [
   ⟨0x110001, 1, 1, 9, 3, 1, 8, 0, 0, 18446744073709551615⟩,
   ⟨0x110002, 1, 1, 9, 3, 1, 8, 0, 0, 18446744073709551615⟩,
   ⟨0x110003, 1, 1, 7, 3, 1, 2, 47620, 1024, 65535⟩,
   ⟨0x110004, 1, 1, 15, 2, 1, 32, 0, 0, 0⟩,
   ⟨0x110005, 1, 1, 9, 1, 0, 8, 0, 0, 18446744073709551615⟩,
   ⟨0x110006, 1, 1, 6, 1, 0, 1, 0, 0, 3⟩]

/-- Rows of indices 0x1200 to 0x12FF. -/
def objRows12 : List ObjRow := [
   ⟨0x120001, 1, 1, 8, 1, 0, 4, 0, 0, 4294967295⟩,
   ⟨0x120002, 1, 1, 8, 1, 0, 4, 0, 0, 4294967295⟩,
   ⟨0x120003, 1, 1, 8, 1, 0, 4, 0, 0, 4294967295⟩,
   ⟨0x120004, 1, 1, 6, 2, 0, 1, 0, 1, 1⟩,
   ⟨0x120005, 1, 1, 7, 3, 1, 2, 60, 5, 3600⟩,
   ⟨0x120006, 1, 1, 9, 1, 0, 8, 0, 0, 18446744073709551615⟩,
   ⟨0x120007, 2, 1, 6, 1, 0, 1, 0, 0, 2⟩,
   ⟨0x120009, 2, 1, 9, 1, 0, 8, 0, 0, 18446744073709551615⟩,
   ⟨0x12000B, 1, 1, 6, 2, 0, 1, 0, 0, 1⟩]

/-- Rows of indices 0x1300 to 0x13FF. -/
def objRows13 : List ObjRow := [
   ⟨0x130001, 1, 1, 6, 1, 0, 1, 0, 0, 8⟩,
   ⟨0x130002, 1, 1, 8, 1, 0, 4, 0, 0, 4294967295⟩,
   ⟨0x130003, 1, 1, 1, 3, 1, 1, 1, 0, 1⟩,
   ⟨0x130004, 1, 1, 6, 2, 0, 1, 0, 1, 1⟩,
   ⟨0x130005, 1, 1, 1, 3, 1, 1, 1, 0, 1⟩,
   ⟨0x130006, 1, 1, 6, 2, 0, 1, 0, 1, 2⟩,
   ⟨0x130007, 1, 1, 6, 2, 0, 1, 0, 1, 2⟩,
   ⟨0x130008, 1, 1, 8, 1, 0, 4, 0, 0, 4294967295⟩,
   ⟨0x131001, 1, 1, 6, 1, 0, 1, 0, 0, 3⟩,
   ⟨0x131002, 1, 1, 6, 1, 0, 1, 0, 0, 1⟩,
   ⟨0x131003, 1, 1, 6, 2, 0, 1, 0, 1, 1⟩,
   ⟨0x131004, 1, 1, 7, 1, 0, 2, 0, 0, 65535⟩,
   ⟨0x131005, 1, 1, 6, 2, 0, 1, 0, 1, 1⟩,
   ⟨0x131006, 1, 1, 6, 1, 0, 1, 0, 0, 2⟩,
   ⟨0x131007, 1, 1, 9, 1, 0, 8, 0, 0, 18446744073709551615⟩,
   ⟨0x131008, 1, 1, 6, 3, 1, 1, 0, 0, 90⟩]

/-- Rows of indices 0x2000 to 0x20FF. -/
def objRows20 : List ObjRow := [
   ⟨0x200001, 1, 1, 8, 1, 0, 4, 0, 0, 500000⟩,
   ⟨0x200002, 1, 1, 8, 1, 0, 4, 0, 0, 25000⟩,
   ⟨0x200003, 1, 1, 7, 1, 0, 2, 0, 0, 2500⟩,
   ⟨0x200004, 1, 1, 6, 1, 0, 1, 0, 0, 3⟩,
   ⟨0x200005, 1, 1, 7, 3, 1, 2, 1800, 600, 1800⟩,
   ⟨0x200006, 1, 1, 7, 1, 0, 2, 7000, 0, 65535⟩,
   ⟨0x200007, 1, 1, 6, 1, 0, 1, 0, 0, 255⟩,
   ⟨0x200101, 16, 1, 7, 1, 0, 2, 65535, 0, 65535⟩]

/-- Rows of indices 0x2100 to 0x21FF. -/
def objRows21 : List ObjRow := [
   ⟨0x210001, 1, 1, 6, 3, 4, 1, 0, 0, 28⟩,
   ⟨0x210002, 1, 1, 6, 3, 4, 1, 0, 0, 13⟩,
   ⟨0x210003, 1, 1, 6, 3, 4, 1, 0, 0, 63⟩,
   ⟨0x210004, 1, 1, 3, 1, 0, 2, 0, (-400), 1500⟩,
   ⟨0x210005, 1, 1, 3, 1, 0, 2, 0, (-400), 1500⟩,
   ⟨0x210006, 1, 1, 6, 1, 0, 1, 0, 0, 2⟩,
   ⟨0x210007, 1, 1, 6, 1, 0, 1, 0, 0, 3⟩,
   ⟨0x210008, 1, 1, 6, 2, 0, 1, 0, 0, 28⟩,
   ⟨0x211001, 29, 1, 3, 1, 0, 2, 0, (-400), 1500⟩]

/-- Rows of indices 0x2200 to 0x22FF. -/
def objRows22 : List ObjRow := [
   ⟨0x220001, 1, 1, 7, 1, 0, 2, 50, 0, 65535⟩,
   ⟨0x220002, 1, 1, 6, 1, 0, 1, 4, 0, 255⟩,
   ⟨0x220101, 16, 1, 7, 1, 0, 2, 1600, 800, 1800⟩,
   ⟨0x220201, 16, 1, 1, 1, 0, 1, 0, 0, 1⟩,
   ⟨0x221001, 1, 1, 6, 3, 4, 1, 1, 0, 28⟩,
   ⟨0x221002, 1, 1, 6, 3, 4, 1, 0, 0, 63⟩,
   ⟨0x221003, 1, 1, 6, 1, 0, 1, 2, 0, 255⟩,
   ⟨0x221004, 1, 1, 3, 1, 0, 2, 0, (-500), 500⟩,
   ⟨0x221005, 1, 1, 7, 1, 0, 2, 0, 0, 500⟩,
   ⟨0x221006, 1, 1, 6, 1, 0, 1, 0, 0, 2⟩]

/-- Rows of indices 0x2300 to 0x23FF. -/
def objRows23 : List ObjRow := [
   ⟨0x230001, 1, 1, 6, 3, 1, 1, 7, 0, 7⟩,
   ⟨0x230002, 1, 1, 6, 1, 0, 1, 0, 0, 3⟩,
   ⟨0x230003, 1, 1, 6, 1, 0, 1, 0, 0, 3⟩,
   ⟨0x230004, 1, 1, 9, 1, 0, 8, 0, 0, 18446744073709551615⟩,
   ⟨0x230005, 1, 1, 4, 1, 0, 4, 0, (-2147483648), 2147483647⟩,
   ⟨0x230006, 1, 1, 8, 1, 0, 4, 4294967295, 0, 4294967295⟩,
   ⟨0x230007, 1, 1, 6, 1, 0, 1, 0, 0, 2⟩,
   ⟨0x230008, 1, 1, 3, 3, 1, 2, 37, 0, 255⟩,
   ⟨0x230009, 1, 1, 8, 3, 1, 4, 1000000, 1000, 10000000⟩,
   ⟨0x23000A, 1, 1, 6, 1, 0, 1, 100, 0, 255⟩,
   ⟨0x23000B, 1, 1, 5, 1, 0, 8, 0, (-9223372036854775808), 9223372036854775807⟩,
   ⟨0x23000C, 1, 1, 8, 3, 1, 4, 0, 0, 1000000⟩,
   ⟨0x23000D, 1, 1, 7, 3, 1, 2, 65535, 0, 65535⟩,
   ⟨0x23000E, 1, 1, 7, 3, 1, 2, 100, 10, 1000⟩,
   ⟨0x23000F, 1, 1, 6, 1, 0, 1, 255, 0, 255⟩,
   ⟨0x230010, 1, 1, 6, 1, 0, 1, 255, 0, 255⟩,
   ⟨0x230011, 1, 1, 6, 3, 1, 1, 0, 0, 127⟩,
   ⟨0x230012, 1, 1, 9, 1, 0, 8, 0, 0, 18446744073709551615⟩,
   ⟨0x230013, 1, 1, 9, 2, 0, 8, 0, 0, 18446744073709551615⟩]

/-- Rows of indices 0x2400 to 0x24FF. -/
def objRows24 : List ObjRow := [
   ⟨0x240001, 1, 1, 6, 3, 4, 1, 0, 0, 9⟩,
   ⟨0x240002, 1, 1, 6, 1, 0, 1, 0, 0, 8⟩,
   ⟨0x240003, 1, 1, 6, 1, 0, 1, 0, 0, 255⟩,
   ⟨0x240004, 1, 1, 9, 1, 0, 8, 0, 0, 18446744073709551615⟩,
   ⟨0x240005, 1, 1, 8, 1, 0, 4, 0, 0, 4294967295⟩,
   ⟨0x240006, 1, 1, 6, 3, 4, 1, 0, 0, 16⟩,
   ⟨0x240007, 1, 1, 3, 1, 0, 2, 0, (-1000), 2500⟩,
   ⟨0x240008, 1, 1, 3, 1, 0, 2, 0, (-200), 200⟩,
   ⟨0x240009, 1, 1, 6, 2, 0, 1, 0, 0, 9⟩,
   ⟨0x240101, 8, 1, 6, 1, 0, 1, 0, 0, 3⟩,
   ⟨0x240201, 8, 1, 3, 1, 0, 2, 0, (-100), 800⟩,
   ⟨0x240301, 8, 1, 4, 1, 0, 4, 0, (-2147483648), 2147483647⟩,
   ⟨0x240401, 8, 1, 8, 1, 0, 4, 4294967295, 0, 4294967295⟩,
   ⟨0x240501, 8, 1, 6, 1, 0, 1, 0, 0, 6⟩,
   ⟨0x240601, 1, 1, 3, 1, 0, 2, 200, (-32768), 32767⟩,
   ⟨0x240602, 1, 1, 3, 1, 0, 2, 150, (-32768), 32767⟩,
   ⟨0x240603, 1, 1, 3, 1, 0, 2, 100, (-32768), 32767⟩,
   ⟨0x240604, 1, 1, 6, 2, 0, 1, 0, 0, 7⟩,
   ⟨0x240605, 1, 1, 7, 1, 0, 2, 400, 0, 65535⟩,
   ⟨0x241001, 1, 1, 7, 3, 4, 2, 0, 0, 1125⟩,
   ⟨0x241002, 1, 1, 6, 3, 4, 1, 0, 0, 16⟩,
   ⟨0x241003, 1, 1, 6, 3, 4, 1, 0, 0, 4⟩,
   ⟨0x241004, 1, 1, 6, 1, 0, 1, 0, 0, 5⟩,
   ⟨0x241005, 1, 1, 7, 1, 0, 2, 0, 0, 65535⟩,
   ⟨0x241006, 1, 1, 3, 1, 0, 2, 0, (-2000), 2000⟩,
   ⟨0x241007, 1, 1, 6, 1, 0, 1, 0, 0, 255⟩,
   ⟨0x243001, 1, 1, 6, 3, 1, 1, 25, 25, 28⟩,
   ⟨0x243002, 1, 1, 6, 3, 1, 1, 20, 0, 100⟩,
   ⟨0x243003, 1, 1, 6, 2, 0, 1, 0, 1, 1⟩,
   ⟨0x243004, 1, 1, 6, 1, 0, 1, 0, 0, 3⟩,
   ⟨0x243005, 1, 1, 7, 1, 0, 2, 0, 0, 1717⟩,
   ⟨0x243006, 1, 1, 7, 3, 4, 2, 0, 0, 1716⟩,
   ⟨0x243007, 1, 1, 3, 1, 0, 2, 0, (-500), 100⟩,
   ⟨0x243008, 1, 1, 8, 1, 0, 4, 0, 0, 4294967295⟩]

/-- Rows of indices 0x2500 to 0x25FF. -/
def objRows25 : List ObjRow := [
   ⟨0x250001, 1, 1, 7, 3, 4, 2, 0, 0, 1125⟩,
   ⟨0x250002, 1, 1, 6, 3, 4, 1, 0, 0, 16⟩,
   ⟨0x250003, 1, 1, 3, 1, 0, 2, 0, (-400), 100⟩,
   ⟨0x250004, 1, 1, 6, 1, 0, 1, 0, 0, 64⟩,
   ⟨0x250005, 1, 1, 3, 1, 0, 2, 0, (-100), 800⟩,
   ⟨0x250006, 1, 1, 6, 1, 0, 1, 0, 0, 18⟩,
   ⟨0x250007, 1, 1, 6, 1, 0, 1, 0, 0, 6⟩,
   ⟨0x250008, 1, 1, 8, 1, 0, 4, 0, 0, 35000⟩,
   ⟨0x250009, 1, 1, 6, 2, 0, 1, 0, 1, 1⟩,
   ⟨0x25000A, 1, 1, 6, 1, 0, 1, 0, 0, 2⟩,
   ⟨0x25000B, 1, 1, 3, 1, 0, 2, 0, (-100), 800⟩,
   ⟨0x25000C, 1, 1, 6, 2, 0, 1, 0, 0, 28⟩,
   ⟨0x250101, 1, 1, 3, 1, 0, 2, 100, (-32768), 32767⟩,
   ⟨0x250102, 1, 1, 3, 1, 0, 2, 200, (-32768), 32767⟩,
   ⟨0x250103, 1, 1, 3, 1, 0, 2, 300, (-32768), 32767⟩,
   ⟨0x250104, 1, 1, 6, 1, 0, 1, 20, 0, 255⟩,
   ⟨0x250105, 1, 1, 7, 1, 0, 2, 200, 0, 65535⟩,
   ⟨0x250106, 1, 1, 6, 1, 0, 1, 64, 0, 255⟩,
   ⟨0x250107, 1, 1, 6, 1, 0, 1, 10, 0, 255⟩,
   ⟨0x250201, 7, 1, 7, 1, 0, 2, 0, 0, 1076⟩,
   ⟨0x251001, 1, 1, 1, 3, 1, 1, 1, 0, 1⟩,
   ⟨0x251002, 1, 1, 7, 3, 1, 2, 30, 10, 3600⟩,
   ⟨0x251003, 1, 1, 6, 3, 1, 1, 5, 2, 20⟩,
   ⟨0x251004, 1, 1, 7, 1, 0, 2, 30, 0, 65535⟩,
   ⟨0x251005, 1, 1, 7, 1, 0, 2, 20, 0, 65535⟩,
   ⟨0x251006, 1, 1, 6, 1, 0, 1, 3, 0, 255⟩,
   ⟨0x251101, 5, 1, 6, 1, 0, 1, 0, 0, 255⟩]

/-- Rows of indices 0x2600 to 0x26FF. -/
def objRows26 : List ObjRow := [
   ⟨0x260001, 1, 1, 7, 3, 3, 2, 1600, 800, 1800⟩,
   ⟨0x260002, 1, 1, 8, 3, 3, 4, 1000, 200, 100000⟩,
   ⟨0x260003, 1, 1, 8, 3, 1, 4, 1000000, 10000, 100000000⟩,
   ⟨0x260004, 1, 1, 6, 3, 1, 1, 3, 1, 8⟩,
   ⟨0x260005, 1, 1, 6, 3, 1, 1, 8, 2, 8⟩,
   ⟨0x260006, 1, 1, 1, 3, 0, 1, 1, 0, 1⟩,
   ⟨0x261001, 64, 1, 6, 1, 0, 1, 0, 0, 5⟩,
   ⟨0x262001, 16, 1, 7, 1, 0, 2, 0, 0, 2000⟩]

/-- Rows of indices 0x2700 to 0x27FF. -/
def objRows27 : List ObjRow := [
   ⟨0x270001, 1, 1, 7, 1, 0, 2, 2000, 0, 65535⟩,
   ⟨0x270002, 1, 1, 7, 3, 3, 2, 8, 0, 256⟩,
   ⟨0x270003, 1, 1, 6, 3, 1, 1, 8, 1, 63⟩,
   ⟨0x270004, 1, 1, 7, 3, 1, 2, 200, 50, 10000⟩,
   ⟨0x270005, 1, 1, 7, 1, 0, 2, 1000, 0, 65535⟩,
   ⟨0x270006, 1, 1, 6, 1, 0, 1, 0, 0, 1⟩,
   ⟨0x270007, 1, 1, 8, 1, 0, 4, 0, 0, 4294967295⟩,
   ⟨0x271001, 16, 1, 7, 1, 0, 2, 0, 0, 4096⟩,
   ⟨0x272001, 64, 1, 7, 1, 0, 2, 0, 0, 4096⟩]

/-- Rows of indices 0x2800 to 0x28FF. -/
def objRows28 : List ObjRow := [
   ⟨0x280001, 1, 1, 6, 1, 0, 1, 8, 0, 255⟩,
   ⟨0x280002, 1, 1, 1, 3, 1, 1, 1, 0, 1⟩,
   ⟨0x280003, 1, 1, 7, 1, 0, 2, 64, 0, 65535⟩,
   ⟨0x280004, 1, 1, 7, 1, 0, 2, 64, 0, 65535⟩,
   ⟨0x280005, 1, 1, 7, 3, 1, 2, 24, 1, 168⟩,
   ⟨0x281001, 16, 1, 6, 1, 0, 1, 0, 0, 3⟩,
   ⟨0x281101, 16, 1, 7, 1, 0, 2, 0, 0, 447⟩,
   ⟨0x281201, 16, 1, 7, 1, 0, 2, 0, 0, 8192⟩,
   ⟨0x281301, 16, 1, 7, 1, 0, 2, 447, 0, 447⟩,
   ⟨0x283001, 8, 1, 6, 3, 1, 1, 0, 0, 7⟩,
   ⟨0x283101, 8, 1, 6, 1, 0, 1, 0, 0, 7⟩,
   ⟨0x283201, 29, 1, 6, 3, 1, 1, 4, 0, 7⟩,
   ⟨0x283301, 29, 1, 6, 1, 0, 1, 4, 0, 7⟩,
   ⟨0x283401, 33, 1, 6, 3, 1, 1, 0, 0, 7⟩,
   ⟨0x283501, 33, 1, 6, 1, 0, 1, 0, 0, 7⟩,
   ⟨0x283601, 3, 1, 6, 3, 1, 1, 16, 1, 255⟩,
   ⟨0x283701, 3, 1, 6, 1, 0, 1, 16, 1, 255⟩,
   ⟨0x283801, 1, 1, 6, 2, 0, 1, 0, 0, 2⟩,
   ⟨0x283802, 1, 1, 6, 1, 0, 1, 0, 0, 7⟩]

/-- Rows of indices 0x2900 to 0x29FF. -/
def objRows29 : List ObjRow := [
   ⟨0x290001, 1, 1, 8, 1, 0, 4, 0, 0, 12566528⟩,
   ⟨0x290002, 1, 1, 8, 1, 0, 4, 0, 0, 12566528⟩,
   ⟨0x290003, 1, 1, 7, 3, 1, 2, 256, 0, 700⟩,
   ⟨0x290004, 1, 1, 7, 3, 1, 2, 24, 6, 168⟩,
   ⟨0x290005, 1, 1, 6, 1, 0, 1, 0, 0, 1⟩,
   ⟨0x291001, 8, 1, 6, 1, 0, 1, 0, 0, 3⟩,
   ⟨0x291101, 8, 1, 3, 1, 0, 2, 0, (-400), 1250⟩,
   ⟨0x291201, 8, 1, 6, 1, 0, 1, 32, 16, 32⟩,
   ⟨0x291301, 8, 1, 8, 1, 0, 4, 0, 0, 4294967295⟩]

/-- Rows of indices 0x2A00 to 0x2AFF. -/
def objRows2A : List ObjRow := [
   ⟨0x2A0001, 1, 1, 6, 3, 3, 1, 0, 0, 15⟩,
   ⟨0x2A0002, 1, 1, 6, 3, 3, 1, 1, 1, 16⟩,
   ⟨0x2A0003, 1, 1, 6, 3, 3, 1, 1, 1, 16⟩,
   ⟨0x2A0004, 1, 1, 6, 3, 1, 1, 0, 0, 15⟩,
   ⟨0x2A0005, 1, 1, 6, 3, 1, 1, 0, 0, 15⟩,
   ⟨0x2A0006, 1, 1, 7, 1, 0, 2, 0, 0, 4095⟩,
   ⟨0x2A0007, 1, 1, 6, 1, 0, 1, 1, 0, 255⟩,
   ⟨0x2A1001, 16, 1, 6, 1, 0, 1, 0, 0, 5⟩,
   ⟨0x2A1101, 16, 1, 7, 1, 0, 2, 65535, 0, 65535⟩,
   ⟨0x2A1201, 16, 1, 1, 3, 1, 1, 1, 0, 1⟩,
   ⟨0x2A1301, 16, 1, 8, 1, 0, 4, 0, 0, 4294967295⟩,
   ⟨0x2A2001, 1, 1, 15, 2, 16, 0, 0, 0, 0⟩,
   ⟨0x2A2002, 1, 1, 8, 1, 2, 4, 0, 0, 4294967295⟩,
   ⟨0x2A2003, 1, 1, 8, 1, 0, 4, 0, 0, 4294967295⟩,
   ⟨0x2A2004, 1, 1, 6, 1, 0, 1, 0, 0, 1⟩,
   ⟨0x2A2005, 1, 1, 9, 3, 1, 8, 0, 0, 18446744073709551615⟩,
   ⟨0x2A2006, 1, 1, 8, 3, 1, 4, 0, 0, 4294967295⟩,
   ⟨0x2A2007, 1, 1, 1, 1, 0, 1, 0, 0, 1⟩,
   ⟨0x2A2008, 1, 1, 7, 1, 0, 2, 65535, 0, 65535⟩,
   ⟨0x2A3001, 1, 1, 7, 3, 1, 2, 512, 64, 2047⟩,
   ⟨0x2A3002, 1, 1, 7, 3, 1, 2, 1024, 64, 2047⟩,
   ⟨0x2A3003, 1, 1, 7, 3, 1, 2, 1536, 64, 2047⟩,
   ⟨0x2A3004, 1, 1, 7, 1, 0, 2, 64, 0, 65535⟩,
   ⟨0x2A3005, 1, 1, 6, 3, 1, 1, 2, 1, 16⟩,
   ⟨0x2A4001, 1, 1, 8, 3, 3, 4, 1000, 100, 100000⟩,
   ⟨0x2A4002, 1, 1, 8, 1, 0, 4, 16384, 0, 4294967295⟩,
   ⟨0x2A5001, 1, 1, 6, 3, 4, 1, 0, 0, 15⟩,
   ⟨0x2A5002, 1, 1, 6, 3, 0, 1, 0, 0, 4⟩,
   ⟨0x2A5003, 1, 1, 6, 3, 1, 1, 20, 4, 40⟩,
   ⟨0x2A5004, 1, 1, 6, 3, 1, 1, 0, 0, 2⟩,
   ⟨0x2A5005, 1, 1, 6, 3, 1, 1, 1, 1, 64⟩,
   ⟨0x2A5006, 1, 1, 8, 3, 1, 4, 0, 0, 4294967295⟩,
   ⟨0x2A5007, 1, 1, 6, 3, 1, 1, 15, 1, 15⟩,
   ⟨0x2A5008, 1, 1, 6, 2, 0, 1, 0, 1, 1⟩]

/-- Rows of indices 0x2B00 to 0x2BFF. -/
def objRows2B : List ObjRow := [
   ⟨0x2B0001, 1, 1, 6, 3, 3, 1, 20, 5, 20⟩,
   ⟨0x2B0002, 1, 1, 7, 3, 1, 2, 1000, 100, 10000⟩,
   ⟨0x2B0003, 1, 1, 7, 1, 0, 2, 4096, 0, 65535⟩,
   ⟨0x2B0004, 1, 1, 6, 1, 0, 1, 20, 0, 255⟩,
   ⟨0x2B0005, 1, 1, 6, 1, 0, 1, 128, 0, 128⟩,
   ⟨0x2B1001, 128, 1, 15, 3, 1, 32, 0, 0, 0⟩,
   ⟨0x2B2001, 1, 1, 7, 1, 0, 2, 65535, 0, 65535⟩,
   ⟨0x2B2002, 1, 1, 9, 1, 0, 8, 0, 0, 18446744073709551615⟩]

/-- Rows of indices 0x2C00 to 0x2CFF. -/
def objRows2C : List ObjRow := [
   ⟨0x2C0001, 1, 1, 1, 3, 1, 1, 0, 0, 1⟩,
   ⟨0x2C0002, 1, 1, 9, 3, 1, 8, 0, 0, 18446744073709551615⟩,
   ⟨0x2C0003, 1, 1, 9, 3, 1, 8, 0, 0, 18446744073709551615⟩,
   ⟨0x2C0004, 1, 1, 7, 3, 1, 2, 47611, 1024, 65535⟩,
   ⟨0x2C0005, 1, 1, 7, 3, 1, 2, 200, 50, 10000⟩,
   ⟨0x2C0006, 1, 1, 7, 3, 1, 2, 200, 0, 5000⟩,
   ⟨0x2C0007, 1, 1, 6, 3, 1, 1, 2, 1, 100⟩,
   ⟨0x2C0008, 1, 1, 6, 1, 0, 1, 0, 0, 2⟩,
   ⟨0x2C1001, 16, 1, 9, 3, 1, 8, 0, 0, 18446744073709551615⟩,
   ⟨0x2C1101, 16, 1, 9, 3, 1, 8, 0, 0, 18446744073709551615⟩,
   ⟨0x2C1201, 16, 1, 7, 3, 1, 2, 65535, 0, 65535⟩,
   ⟨0x2C1301, 16, 1, 15, 2, 1, 32, 0, 0, 0⟩,
   ⟨0x2C1401, 16, 1, 6, 1, 0, 1, 0, 0, 2⟩]

/-- Rows of indices 0x2D00 to 0x2DFF. -/
def objRows2D : List ObjRow := [
   ⟨0x2D0001, 2, 1, 6, 3, 1, 1, 2, 0, 2⟩,
   ⟨0x2D0101, 2, 1, 9, 3, 1, 8, 0, 0, 18446744073709551615⟩,
   ⟨0x2D0201, 2, 1, 9, 3, 1, 8, 0, 0, 18446744073709551615⟩,
   ⟨0x2D0301, 1, 1, 7, 3, 1, 2, 47600, 1024, 65535⟩,
   ⟨0x2D0302, 1, 1, 7, 3, 1, 2, 1024, 1, 1024⟩,
   ⟨0x2D0303, 1, 1, 7, 3, 1, 2, 1024, 64, 4096⟩,
   ⟨0x2D0304, 1, 1, 7, 3, 1, 2, 500, 100, 10000⟩,
   ⟨0x2D0305, 1, 1, 7, 3, 1, 2, 2000, 100, 60000⟩,
   ⟨0x2D0306, 1, 1, 7, 3, 1, 2, 100, 10, 10000⟩,
   ⟨0x2D0307, 1, 1, 7, 3, 1, 2, 1024, 1, 4096⟩,
   ⟨0x2D0308, 1, 1, 7, 1, 0, 2, 4096, 0, 65535⟩,
   ⟨0x2D0309, 1, 1, 7, 1, 0, 2, 256, 0, 65535⟩,
   ⟨0x2D0401, 1, 1, 7, 1, 0, 2, 0, 0, 4096⟩,
   ⟨0x2D0402, 1, 1, 7, 1, 0, 2, 0, 0, 256⟩,
   ⟨0x2D0403, 1, 1, 8, 1, 0, 4, 0, 0, 4294967295⟩]

/-- Rows of indices 0x2E00 to 0x2EFF. -/
def objRows2E : List ObjRow := [
   ⟨0x2E0001, 1, 1, 7, 1, 0, 2, 0, 0, 256⟩,
   ⟨0x2E0002, 1, 1, 6, 1, 0, 1, 8, 0, 255⟩,
   ⟨0x2E0003, 1, 1, 7, 1, 0, 2, 1000, 0, 65535⟩,
   ⟨0x2E1001, 8, 1, 6, 1, 0, 1, 255, 29, 255⟩]

/-- Rows of indices 0x2F00 to 0x2FFF. -/
def objRows2F : List ObjRow := [
   ⟨0x2F0001, 1, 1, 1, 3, 1, 1, 0, 0, 1⟩,
   ⟨0x2F0002, 1, 1, 6, 2, 0, 1, 0, 1, 1⟩,
   ⟨0x2F0003, 1, 1, 6, 2, 0, 1, 0, 1, 1⟩,
   ⟨0x2F0004, 1, 1, 6, 1, 0, 1, 0, 0, 1⟩,
   ⟨0x2F0005, 1, 1, 8, 3, 1, 4, 3600, 60, 86400⟩,
   ⟨0x2F0006, 1, 1, 8, 1, 0, 4, 0, 0, 4294967295⟩,
   ⟨0x2F0007, 1, 1, 6, 2, 0, 1, 0, 1, 1⟩,
   ⟨0x2F1001, 1, 1, 7, 3, 4, 2, 0, 0, 1125⟩,
   ⟨0x2F1002, 1, 1, 6, 3, 0, 1, 0, 0, 4⟩,
   ⟨0x2F1003, 1, 1, 6, 3, 1, 1, 20, 4, 40⟩,
   ⟨0x2F1004, 1, 1, 6, 3, 1, 1, 0, 0, 2⟩,
   ⟨0x2F1005, 1, 1, 6, 3, 1, 1, 1, 1, 64⟩,
   ⟨0x2F1006, 1, 1, 8, 3, 1, 4, 0, 0, 4294967295⟩,
   ⟨0x2F1007, 1, 1, 6, 3, 1, 1, 15, 1, 15⟩,
   ⟨0x2F1008, 1, 1, 6, 2, 0, 1, 0, 1, 1⟩,
   ⟨0x2F1009, 1, 1, 6, 1, 0, 1, 0, 0, 64⟩,
   ⟨0x2F2001, 1, 1, 7, 3, 1, 2, 24, 0, 168⟩,
   ⟨0x2F2002, 1, 1, 7, 2, 0, 2, 0, 0, 319⟩,
   ⟨0x2F2003, 1, 1, 7, 1, 0, 2, 0, 0, 65535⟩,
   ⟨0x2F2004, 1, 1, 7, 1, 0, 2, 65535, 0, 65535⟩,
   ⟨0x2F2005, 1, 1, 6, 1, 0, 1, 0, 0, 2⟩,
   ⟨0x2F2006, 1, 1, 9, 1, 0, 8, 0, 0, 18446744073709551615⟩,
   ⟨0x2F3001, 1, 1, 1, 3, 1, 1, 0, 0, 1⟩,
   ⟨0x2F3002, 1, 1, 8, 3, 1, 4, 4095, 0, 4294967295⟩,
   ⟨0x2F3003, 1, 1, 7, 3, 1, 2, 256, 16, 768⟩,
   ⟨0x2F3004, 1, 1, 6, 3, 1, 1, 0, 0, 1⟩,
   ⟨0x2F3005, 1, 1, 6, 3, 1, 1, 255, 1, 255⟩,
   ⟨0x2F3006, 1, 1, 8, 3, 1, 4, 65536, 0, 16777216⟩,
   ⟨0x2F3007, 1, 1, 6, 1, 0, 1, 0, 0, 3⟩,
   ⟨0x2F3008, 1, 1, 8, 1, 0, 4, 0, 0, 4294967295⟩,
   ⟨0x2F3009, 1, 1, 15, 1, 16, 0, 0, 0, 0⟩,
   ⟨0x2F300A, 1, 1, 6, 2, 0, 1, 0, 1, 1⟩]

/-- Rows of indices 0x3000 to 0x30FF. -/
def objRows30 : List ObjRow := [
   ⟨0x300001, 1, 1, 7, 3, 3, 2, 0, 0, 65535⟩,
   ⟨0x300002, 1, 1, 7, 3, 3, 2, 1, 1, 256⟩,
   ⟨0x300003, 1, 1, 6, 3, 3, 1, 0, 0, 15⟩,
   ⟨0x300004, 1, 1, 15, 3, 19, 6144, 0, 0, 0⟩,
   ⟨0x300005, 1, 1, 15, 2, 1, 32, 0, 0, 0⟩,
   ⟨0x300006, 1, 1, 7, 3, 1, 2, 10, 1, 1000⟩,
   ⟨0x300007, 1, 1, 6, 1, 0, 1, 0, 0, 3⟩,
   ⟨0x300008, 1, 1, 6, 1, 0, 1, 0, 0, 255⟩,
   ⟨0x300009, 1, 1, 7, 1, 0, 2, 65535, 0, 65535⟩,
   ⟨0x30000A, 1, 1, 6, 2, 0, 1, 0, 1, 1⟩,
   ⟨0x30000B, 1, 1, 6, 2, 0, 1, 0, 1, 1⟩,
   ⟨0x301001, 1, 1, 15, 1, 0, 64, 0, 0, 0⟩]

/-- Rows of indices 0x4000 to 0x40FF. -/
def objRows40 : List ObjRow := [
   ⟨0x400001, 1, 16, 6, 1, 0, 1, 0, 0, 4⟩,
   ⟨0x400002, 1, 16, 15, 1, 0, 32, 0, 0, 0⟩,
   ⟨0x400003, 1, 16, 15, 2, 0, 32, 0, 0, 0⟩,
   ⟨0x400004, 1, 16, 6, 2, 0, 1, 0, 1, 2⟩,
   ⟨0x400005, 1, 16, 7, 1, 0, 2, 0, 0, 65535⟩,
   ⟨0x400006, 1, 16, 7, 3, 1, 2, 0, 1, 65535⟩,
   ⟨0x400007, 1, 16, 15, 3, 1, 32, 0, 0, 0⟩,
   ⟨0x400008, 1, 16, 8, 1, 0, 4, 0, 0, 4294967295⟩]

/-- Rows of indices 0x4100 to 0x41FF. -/
def objRows41 : List ObjRow := [
   ⟨0x410001, 1, 1, 15, 2, 16, 0, 0, 0, 0⟩,
   ⟨0x410002, 1, 1, 8, 1, 0, 4, 0, 0, 61440⟩,
   ⟨0x410003, 1, 1, 7, 1, 0, 2, 0, 0, 65535⟩,
   ⟨0x410004, 1, 1, 7, 3, 4, 2, 0, 0, 65535⟩,
   ⟨0x410005, 1, 1, 15, 1, 0, 32, 0, 0, 0⟩,
   ⟨0x411001, 4, 1, 15, 3, 1, 32, 0, 0, 0⟩]

/-- Rows of indices 0x5000 to 0x50FF. -/
def objRows50 : List ObjRow := [
   ⟨0x500001, 1, 4096, 1, 3, 1, 1, 0, 0, 1⟩,
   ⟨0x500002, 1, 4096, 15, 2, 1, 32, 0, 0, 0⟩,
   ⟨0x500003, 1, 4096, 7, 3, 1, 2, 0, 0, 65535⟩,
   ⟨0x500004, 1, 4096, 7, 3, 1, 2, 256, 0, 4096⟩,
   ⟨0x500005, 1, 4096, 7, 3, 1, 2, 64, 0, 1024⟩]

/-- Rows of indices 0x6000 to 0x60FF. -/
def objRows60 : List ObjRow := [
   ⟨0x600001, 1, 1, 8, 1, 0, 4, 0, 0, 4294967295⟩,
   ⟨0x600002, 1, 1, 8, 1, 0, 4, 0, 0, 4294967295⟩,
   ⟨0x600003, 1, 1, 8, 1, 0, 4, 0, 0, 4294967295⟩,
   ⟨0x600004, 1, 1, 8, 1, 0, 4, 0, 0, 4294967295⟩,
   ⟨0x600005, 1, 1, 9, 1, 0, 8, 0, 0, 18446744073709551615⟩]

/-- Rows of indices 0x6100 to 0x61FF. -/
def objRows61 : List ObjRow := [
   ⟨0x610001, 1, 1, 9, 1, 0, 8, 0, 0, 18446744073709551615⟩,
   ⟨0x610002, 1, 1, 9, 1, 0, 8, 0, 0, 18446744073709551615⟩,
   ⟨0x610003, 1, 1, 8, 1, 0, 4, 0, 0, 4294967295⟩,
   ⟨0x610004, 1, 1, 7, 1, 0, 2, 0, 0, 65535⟩,
   ⟨0x610005, 1, 1, 8, 1, 0, 4, 0, 0, 4294967295⟩,
   ⟨0x610006, 1, 1, 9, 1, 0, 8, 0, 0, 18446744073709551615⟩]

/-- Rows of indices 0x6200 to 0x62FF. -/
def objRows62 : List ObjRow := [
   ⟨0x620001, 1, 1, 9, 1, 0, 8, 0, 0, 18446744073709551615⟩,
   ⟨0x620002, 1, 1, 9, 1, 0, 8, 0, 0, 18446744073709551615⟩,
   ⟨0x620003, 1, 1, 9, 1, 0, 8, 0, 0, 18446744073709551615⟩,
   ⟨0x621001, 29, 1, 9, 1, 0, 8, 0, 0, 18446744073709551615⟩]

/-- Rows of indices 0x6300 to 0x63FF. -/
def objRows63 : List ObjRow := [
   ⟨0x630001, 1, 1, 9, 1, 0, 8, 0, 0, 18446744073709551615⟩,
   ⟨0x630002, 1, 1, 9, 1, 0, 8, 0, 0, 18446744073709551615⟩,
   ⟨0x630003, 1, 1, 9, 1, 0, 8, 0, 0, 18446744073709551615⟩,
   ⟨0x630004, 1, 1, 9, 1, 0, 8, 0, 0, 18446744073709551615⟩,
   ⟨0x638001, 1, 1, 9, 1, 0, 8, 0, 0, 18446744073709551615⟩,
   ⟨0x638002, 1, 1, 9, 1, 0, 8, 0, 0, 18446744073709551615⟩,
   ⟨0x638003, 1, 1, 8, 1, 0, 4, 0, 0, 4294967295⟩]

/-- Rows of indices 0x6400 to 0x64FF. -/
def objRows64 : List ObjRow := [
   ⟨0x640001, 1, 1, 9, 1, 0, 8, 0, 0, 18446744073709551615⟩,
   ⟨0x640002, 1, 1, 9, 1, 0, 8, 0, 0, 18446744073709551615⟩,
   ⟨0x640003, 1, 1, 9, 1, 0, 8, 0, 0, 18446744073709551615⟩,
   ⟨0x640004, 1, 1, 9, 1, 0, 8, 0, 0, 18446744073709551615⟩,
   ⟨0x640005, 1, 1, 9, 1, 0, 8, 0, 0, 18446744073709551615⟩,
   ⟨0x640006, 1, 1, 9, 1, 0, 8, 0, 0, 18446744073709551615⟩,
   ⟨0x640007, 1, 1, 9, 1, 0, 8, 0, 0, 18446744073709551615⟩,
   ⟨0x640008, 1, 1, 9, 1, 0, 8, 0, 0, 18446744073709551615⟩,
   ⟨0x640009, 1, 1, 9, 1, 0, 8, 0, 0, 18446744073709551615⟩,
   ⟨0x64000A, 1, 1, 9, 1, 0, 8, 0, 0, 18446744073709551615⟩,
   ⟨0x64000B, 1, 1, 9, 1, 0, 8, 0, 0, 18446744073709551615⟩]

/-- Rows of indices 0x6500 to 0x65FF. -/
def objRows65 : List ObjRow := [
   ⟨0x650001, 1, 1, 9, 1, 0, 8, 0, 0, 18446744073709551615⟩,
   ⟨0x650002, 1, 1, 9, 1, 0, 8, 0, 0, 18446744073709551615⟩,
   ⟨0x650003, 1, 1, 9, 1, 0, 8, 0, 0, 18446744073709551615⟩,
   ⟨0x650004, 1, 1, 9, 1, 0, 8, 0, 0, 18446744073709551615⟩,
   ⟨0x650005, 1, 1, 8, 1, 0, 4, 0, 0, 4294967295⟩,
   ⟨0x650006, 1, 1, 9, 1, 0, 8, 0, 0, 18446744073709551615⟩,
   ⟨0x650007, 1, 1, 9, 1, 0, 8, 0, 0, 18446744073709551615⟩,
   ⟨0x650008, 1, 1, 9, 1, 0, 8, 0, 0, 18446744073709551615⟩,
   ⟨0x650009, 1, 1, 9, 1, 0, 8, 0, 0, 18446744073709551615⟩,
   ⟨0x65000A, 1, 1, 9, 1, 0, 8, 0, 0, 18446744073709551615⟩,
   ⟨0x65000B, 1, 1, 9, 1, 0, 8, 0, 0, 18446744073709551615⟩,
   ⟨0x65000C, 1, 1, 9, 1, 0, 8, 0, 0, 18446744073709551615⟩,
   ⟨0x65000D, 1, 1, 9, 1, 0, 8, 0, 0, 18446744073709551615⟩,
   ⟨0x65000E, 1, 1, 9, 1, 0, 8, 0, 0, 18446744073709551615⟩]

/-- Rows of indices 0x6600 to 0x66FF. -/
def objRows66 : List ObjRow := [
   ⟨0x660001, 1, 1, 9, 1, 0, 8, 0, 0, 18446744073709551615⟩,
   ⟨0x660002, 1, 1, 9, 1, 0, 8, 0, 0, 18446744073709551615⟩,
   ⟨0x660003, 1, 1, 9, 1, 0, 8, 0, 0, 18446744073709551615⟩,
   ⟨0x660004, 1, 1, 9, 1, 0, 8, 0, 0, 18446744073709551615⟩,
   ⟨0x660005, 1, 1, 9, 1, 0, 8, 0, 0, 18446744073709551615⟩,
   ⟨0x660006, 1, 1, 9, 1, 0, 8, 0, 0, 18446744073709551615⟩,
   ⟨0x660007, 1, 1, 9, 1, 0, 8, 0, 0, 18446744073709551615⟩,
   ⟨0x660008, 1, 1, 9, 1, 0, 8, 0, 0, 18446744073709551615⟩]

/-- Rows of indices 0x6700 to 0x67FF. -/
def objRows67 : List ObjRow := [
   ⟨0x670001, 1, 1, 9, 1, 0, 8, 0, 0, 18446744073709551615⟩,
   ⟨0x670002, 1, 1, 9, 1, 0, 8, 0, 0, 18446744073709551615⟩,
   ⟨0x670003, 1, 1, 9, 1, 0, 8, 0, 0, 18446744073709551615⟩,
   ⟨0x670004, 1, 1, 9, 1, 0, 8, 0, 0, 18446744073709551615⟩,
   ⟨0x670005, 1, 1, 9, 1, 0, 8, 0, 0, 18446744073709551615⟩,
   ⟨0x670006, 1, 1, 9, 1, 0, 8, 0, 0, 18446744073709551615⟩,
   ⟨0x670007, 1, 1, 9, 1, 0, 8, 0, 0, 18446744073709551615⟩,
   ⟨0x670008, 1, 1, 9, 1, 0, 8, 0, 0, 18446744073709551615⟩,
   ⟨0x670009, 1, 1, 9, 1, 0, 8, 0, 0, 18446744073709551615⟩]

/-- Rows of indices 0x6800 to 0x68FF. -/
def objRows68 : List ObjRow := [
   ⟨0x680001, 1, 1, 9, 1, 0, 8, 0, 0, 18446744073709551615⟩,
   ⟨0x680002, 1, 1, 9, 1, 0, 8, 0, 0, 18446744073709551615⟩,
   ⟨0x680003, 1, 1, 9, 1, 0, 8, 0, 0, 18446744073709551615⟩,
   ⟨0x680004, 1, 1, 9, 1, 0, 8, 0, 0, 18446744073709551615⟩,
   ⟨0x680005, 1, 1, 9, 1, 0, 8, 0, 0, 18446744073709551615⟩,
   ⟨0x680006, 1, 1, 9, 1, 0, 8, 0, 0, 18446744073709551615⟩,
   ⟨0x680007, 1, 1, 9, 1, 0, 8, 0, 0, 18446744073709551615⟩,
   ⟨0x680008, 1, 1, 9, 1, 0, 8, 0, 0, 18446744073709551615⟩,
   ⟨0x680009, 1, 1, 9, 1, 0, 8, 0, 0, 18446744073709551615⟩,
   ⟨0x68000A, 1, 1, 9, 1, 0, 8, 0, 0, 18446744073709551615⟩,
   ⟨0x68000B, 1, 1, 9, 1, 0, 8, 0, 0, 18446744073709551615⟩,
   ⟨0x68000C, 1, 1, 9, 1, 0, 8, 0, 0, 18446744073709551615⟩]

/-- Rows of indices 0x6900 to 0x69FF. -/
def objRows69 : List ObjRow := [
   ⟨0x690001, 1, 1, 9, 1, 0, 8, 0, 0, 18446744073709551615⟩,
   ⟨0x690002, 1, 1, 9, 1, 0, 8, 0, 0, 18446744073709551615⟩,
   ⟨0x690003, 1, 1, 9, 1, 0, 8, 0, 0, 18446744073709551615⟩,
   ⟨0x690004, 1, 1, 8, 1, 0, 4, 0, 0, 4294967295⟩,
   ⟨0x690005, 1, 1, 9, 1, 0, 8, 0, 0, 18446744073709551615⟩,
   ⟨0x690006, 1, 1, 9, 1, 0, 8, 0, 0, 18446744073709551615⟩,
   ⟨0x690007, 1, 1, 9, 1, 0, 8, 0, 0, 18446744073709551615⟩,
   ⟨0x690008, 1, 1, 9, 1, 0, 8, 0, 0, 18446744073709551615⟩,
   ⟨0x690009, 1, 1, 8, 1, 0, 4, 0, 0, 4294967295⟩]

/-- Rows of indices 0x6A00 to 0x6AFF. -/
def objRows6A : List ObjRow := [
   ⟨0x6A0001, 1, 1, 9, 1, 0, 8, 0, 0, 18446744073709551615⟩,
   ⟨0x6A0002, 1, 1, 9, 1, 0, 8, 0, 0, 18446744073709551615⟩,
   ⟨0x6A0003, 1, 1, 9, 1, 0, 8, 0, 0, 18446744073709551615⟩,
   ⟨0x6A0004, 1, 1, 9, 1, 0, 8, 0, 0, 18446744073709551615⟩,
   ⟨0x6A0005, 1, 1, 9, 1, 0, 8, 0, 0, 18446744073709551615⟩,
   ⟨0x6A0006, 1, 1, 9, 1, 0, 8, 0, 0, 18446744073709551615⟩,
   ⟨0x6A0007, 1, 1, 9, 1, 0, 8, 0, 0, 18446744073709551615⟩,
   ⟨0x6A0008, 1, 1, 9, 1, 0, 8, 0, 0, 18446744073709551615⟩,
   ⟨0x6A0009, 1, 1, 9, 1, 0, 8, 0, 0, 18446744073709551615⟩,
   ⟨0x6A000A, 1, 1, 9, 1, 0, 8, 0, 0, 18446744073709551615⟩,
   ⟨0x6A000B, 1, 1, 9, 1, 0, 8, 0, 0, 18446744073709551615⟩,
   ⟨0x6A000C, 1, 1, 9, 1, 0, 8, 0, 0, 18446744073709551615⟩,
   ⟨0x6A000D, 1, 1, 9, 1, 0, 8, 0, 0, 18446744073709551615⟩,
   ⟨0x6A000E, 1, 1, 9, 1, 0, 8, 0, 0, 18446744073709551615⟩,
   ⟨0x6A000F, 1, 1, 9, 1, 0, 8, 0, 0, 18446744073709551615⟩,
   ⟨0x6A0010, 1, 1, 9, 1, 0, 8, 0, 0, 18446744073709551615⟩,
   ⟨0x6A0011, 1, 1, 8, 1, 0, 4, 0, 0, 4294967295⟩,
   ⟨0x6A0012, 1, 1, 9, 1, 0, 8, 0, 0, 18446744073709551615⟩]

/-- Rows of indices 0x6B00 to 0x6BFF. -/
def objRows6B : List ObjRow := [
   ⟨0x6B0001, 1, 1, 9, 1, 0, 8, 0, 0, 18446744073709551615⟩,
   ⟨0x6B0002, 1, 1, 9, 1, 0, 8, 0, 0, 18446744073709551615⟩,
   ⟨0x6B0003, 1, 1, 9, 1, 0, 8, 0, 0, 18446744073709551615⟩,
   ⟨0x6B0004, 1, 1, 9, 1, 0, 8, 0, 0, 18446744073709551615⟩,
   ⟨0x6B0005, 1, 1, 9, 1, 0, 8, 0, 0, 18446744073709551615⟩,
   ⟨0x6B0006, 1, 1, 9, 1, 0, 8, 0, 0, 18446744073709551615⟩,
   ⟨0x6B0007, 1, 1, 9, 1, 0, 8, 0, 0, 18446744073709551615⟩]

/-- Rows of indices 0x6C00 to 0x6CFF. -/
def objRows6C : List ObjRow := [
   ⟨0x6C0001, 1, 1, 9, 1, 0, 8, 0, 0, 18446744073709551615⟩,
   ⟨0x6C0002, 1, 1, 9, 1, 0, 8, 0, 0, 18446744073709551615⟩,
   ⟨0x6C0003, 1, 1, 9, 1, 0, 8, 0, 0, 18446744073709551615⟩,
   ⟨0x6C0004, 1, 1, 9, 1, 0, 8, 0, 0, 18446744073709551615⟩,
   ⟨0x6C0005, 1, 1, 9, 1, 0, 8, 0, 0, 18446744073709551615⟩,
   ⟨0x6C0006, 1, 1, 9, 1, 0, 8, 0, 0, 18446744073709551615⟩,
   ⟨0x6C0007, 1, 1, 8, 1, 0, 4, 0, 0, 4294967295⟩]

/-- Rows of indices 0x6D00 to 0x6DFF. -/
def objRows6D : List ObjRow := [
   ⟨0x6D0001, 1, 1, 9, 1, 0, 8, 0, 0, 18446744073709551615⟩,
   ⟨0x6D0002, 1, 1, 9, 1, 0, 8, 0, 0, 18446744073709551615⟩,
   ⟨0x6D0003, 1, 1, 9, 1, 0, 8, 0, 0, 18446744073709551615⟩,
   ⟨0x6D0004, 1, 1, 9, 1, 0, 8, 0, 0, 18446744073709551615⟩,
   ⟨0x6D0005, 1, 1, 9, 1, 0, 8, 0, 0, 18446744073709551615⟩,
   ⟨0x6D0006, 1, 1, 9, 1, 0, 8, 0, 0, 18446744073709551615⟩,
   ⟨0x6D0007, 1, 1, 9, 1, 0, 8, 0, 0, 18446744073709551615⟩,
   ⟨0x6D0008, 1, 1, 8, 1, 0, 4, 0, 0, 4294967295⟩,
   ⟨0x6D0009, 1, 1, 8, 1, 0, 4, 0, 0, 4294967295⟩,
   ⟨0x6D000A, 1, 1, 9, 1, 0, 8, 0, 0, 18446744073709551615⟩,
   ⟨0x6D000B, 1, 1, 9, 1, 0, 8, 0, 0, 18446744073709551615⟩]

/-- Rows of indices 0x6E00 to 0x6EFF. -/
def objRows6E : List ObjRow := [
   ⟨0x6E0001, 1, 1, 9, 1, 0, 8, 0, 0, 18446744073709551615⟩,
   ⟨0x6E0002, 1, 1, 9, 1, 0, 8, 0, 0, 18446744073709551615⟩,
   ⟨0x6E0003, 1, 1, 9, 1, 0, 8, 0, 0, 18446744073709551615⟩,
   ⟨0x6E0004, 1, 1, 9, 1, 0, 8, 0, 0, 18446744073709551615⟩]

/-- Rows of indices 0x6F00 to 0x6FFF. -/
def objRows6F : List ObjRow := [
   ⟨0x6F0001, 1, 1, 9, 1, 0, 8, 0, 0, 18446744073709551615⟩,
   ⟨0x6F0002, 1, 1, 8, 1, 0, 4, 0, 0, 4294967295⟩,
   ⟨0x6F0003, 1, 1, 8, 1, 0, 4, 0, 0, 4294967295⟩,
   ⟨0x6F0004, 1, 1, 8, 1, 0, 4, 0, 0, 4294967295⟩,
   ⟨0x6F0005, 1, 1, 9, 1, 0, 8, 0, 0, 18446744073709551615⟩,
   ⟨0x6F0006, 1, 1, 9, 1, 0, 8, 0, 0, 18446744073709551615⟩,
   ⟨0x6F0007, 1, 1, 9, 1, 0, 8, 0, 0, 18446744073709551615⟩,
   ⟨0x6F0008, 1, 1, 9, 1, 0, 8, 0, 0, 18446744073709551615⟩,
   ⟨0x6F0009, 1, 1, 9, 1, 0, 8, 0, 0, 18446744073709551615⟩]

/-- Rows of indices 0x7000 to 0x70FF. -/
def objRows70 : List ObjRow := [
   ⟨0x700001, 1, 1, 8, 1, 0, 4, 0, 0, 4294967295⟩,
   ⟨0x700002, 1, 1, 8, 1, 0, 4, 0, 0, 4294967295⟩,
   ⟨0x700003, 1, 1, 8, 3, 4, 4, 0, 0, 4294967295⟩,
   ⟨0x700004, 1, 1, 15, 1, 0, 64, 0, 0, 0⟩,
   ⟨0x700005, 1, 1, 6, 2, 0, 1, 0, 1, 1⟩]

/-- Rows of indices 0x9000 to 0x90FF. -/
def objRows90 : List ObjRow := [
   ⟨0x900001, 1, 1, 8, 1, 8, 4, 0, 0, 4294967295⟩,
   ⟨0x900002, 1, 1, 15, 1, 8, 32, 0, 0, 0⟩,
   ⟨0x900003, 1, 1, 9, 1, 8, 8, 0, 0, 18446744073709551615⟩,
   ⟨0x900004, 1, 1, 15, 1, 8, 32, 0, 0, 0⟩,
   ⟨0x900005, 1, 1, 6, 1, 8, 1, 0, 0, 2⟩,
   ⟨0x900006, 1, 1, 8, 1, 8, 4, 0, 0, 4294967295⟩,
   ⟨0x901001, 1, 1, 9, 1, 8, 8, 0, 0, 18446744073709551615⟩,
   ⟨0x901002, 1, 1, 8, 1, 8, 4, 0, 0, 4294967295⟩,
   ⟨0x901003, 1, 1, 8, 1, 8, 4, 0, 0, 4294967295⟩,
   ⟨0x901004, 1, 1, 8, 1, 8, 4, 0, 0, 4294967295⟩,
   ⟨0x901005, 1, 1, 3, 1, 8, 2, 0, (-32768), 32767⟩,
   ⟨0x902001, 1, 1, 9, 1, 8, 8, 0, 0, 18446744073709551615⟩,
   ⟨0x902002, 1, 1, 4, 1, 8, 4, 0, (-2147483648), 2147483647⟩,
   ⟨0x902003, 1, 1, 8, 1, 8, 4, 0, 0, 2000000⟩,
   ⟨0x902004, 1, 1, 8, 1, 8, 4, 0, 0, 4294967295⟩,
   ⟨0x902005, 1, 1, 6, 1, 8, 1, 0, 0, 2⟩,
   ⟨0x902006, 1, 1, 7, 1, 8, 2, 0, 0, 65535⟩,
   ⟨0x903001, 1, 1, 7, 1, 8, 2, 32, 0, 256⟩,
   ⟨0x903002, 1, 1, 6, 1, 8, 1, 0, 1, 2⟩,
   ⟨0x903003, 1, 1, 7, 1, 8, 2, 0, 0, 65535⟩,
   ⟨0x903004, 1, 1, 7, 1, 8, 2, 0, 0, 65535⟩,
   ⟨0x903005, 1, 1, 9, 1, 8, 8, 0, 0, 18446744073709551615⟩,
   ⟨0x903006, 1, 1, 8, 1, 8, 4, 0, 0, 4294967295⟩,
   ⟨0x903007, 1, 1, 6, 1, 8, 1, 0, 0, 2⟩,
   ⟨0x903008, 1, 1, 7, 1, 8, 2, 0, 0, 65535⟩,
   ⟨0x904001, 1, 1, 8, 1, 8, 4, 0, 0, 4294967295⟩,
   ⟨0x904002, 1, 1, 8, 1, 8, 4, 0, 0, 4294967295⟩,
   ⟨0x904003, 1, 1, 15, 1, 24, 0, 0, 0, 0⟩,
   ⟨0x904004, 1, 1, 15, 1, 24, 0, 0, 0, 0⟩,
   ⟨0x904005, 1, 1, 8, 1, 8, 4, 0, 0, 4294967295⟩,
   ⟨0x904006, 1, 1, 8, 1, 8, 4, 0, 0, 4294967295⟩,
   ⟨0x904007, 1, 1, 8, 1, 8, 4, 0, 0, 4294967295⟩]

/-- Every object row of the dictionary. -/
def objRows : List ObjRow :=
  objRows10 ++ objRows11 ++ objRows12 ++ objRows13 ++ objRows20 ++ objRows21 ++ objRows22 ++ objRows23 ++ objRows24 ++ objRows25 ++ objRows26 ++ objRows27 ++ objRows28 ++ objRows29 ++ objRows2A ++ objRows2B ++ objRows2C ++ objRows2D ++ objRows2E ++ objRows2F ++ objRows30 ++ objRows40 ++ objRows41 ++ objRows50 ++ objRows60 ++ objRows61 ++ objRows62 ++ objRows63 ++ objRows64 ++ objRows65 ++ objRows66 ++ objRows67 ++ objRows68 ++ objRows69 ++ objRows6A ++ objRows6B ++ objRows6C ++ objRows6D ++ objRows6E ++ objRows6F ++ objRows70 ++ objRows90

/-- Rows of the objects whose index has high byte `h`; tenants take indices 0x5000 to 0x5FFF. -/
def objRowsAt (h : Nat) : List ObjRow :=
  match h with
  | 0x10 => objRows10
  | 0x11 => objRows11
  | 0x12 => objRows12
  | 0x13 => objRows13
  | 0x20 => objRows20
  | 0x21 => objRows21
  | 0x22 => objRows22
  | 0x23 => objRows23
  | 0x24 => objRows24
  | 0x25 => objRows25
  | 0x26 => objRows26
  | 0x27 => objRows27
  | 0x28 => objRows28
  | 0x29 => objRows29
  | 0x2A => objRows2A
  | 0x2B => objRows2B
  | 0x2C => objRows2C
  | 0x2D => objRows2D
  | 0x2E => objRows2E
  | 0x2F => objRows2F
  | 0x30 => objRows30
  | 0x40 => objRows40
  | 0x41 => objRows41
  | 0x50 => objRows50
  | 0x60 => objRows60
  | 0x61 => objRows61
  | 0x62 => objRows62
  | 0x63 => objRows63
  | 0x64 => objRows64
  | 0x65 => objRows65
  | 0x66 => objRows66
  | 0x67 => objRows67
  | 0x68 => objRows68
  | 0x69 => objRows69
  | 0x6A => objRows6A
  | 0x6B => objRows6B
  | 0x6C => objRows6C
  | 0x6D => objRows6D
  | 0x6E => objRows6E
  | 0x6F => objRows6F
  | 0x70 => objRows70
  | 0x90 => objRows90
  | _ => []

/-- The row that describes a key. -/
def objRow (k : Nat) : Option ObjRow :=
  let h := k / 0x10000
  (objRowsAt (if 0x50 ≤ h ∧ h ≤ 0x5F then 0x50 else h)).find? (fun r =>
    if r.reps = 1 then decide (r.key ≤ k ∧ k < r.key + r.n)
    else
      let stride := if r.reps = 16 then 0x1000 else 0x100
      decide (r.key ≤ k ∧ (k - r.key) % stride = 0 ∧ (k - r.key) / stride < r.reps))

/-- Default priorities of arbiter class 0 (R120). -/
def arbDieDefault (r : Nat) : Nat := [5, 4, 4, 4, 4, 4, 4, 1].getD r 0

/-- Default priorities of arbiter class 2 (R120). -/
def arbHubDefault (r : Nat) : Nat := if r < 29 then 4 else [6, 7, 2, 3].getD (r - 29) 0

/-- Default of an object of integer type (R277); 0 where the tables give none (DESIGN CHOICE, log entry 2). -/
def objDefault (k : Nat) : Nat :=
  if Obj.arbDiePrioShadowR ≤ k ∧ k < Obj.arbDiePrioShadowR + 8 then arbDieDefault (k - Obj.arbDiePrioShadowR)
  else if Obj.arbDiePrioR ≤ k ∧ k < Obj.arbDiePrioR + 8 then arbDieDefault (k - Obj.arbDiePrioR)
  else if Obj.arbHubPrioShadowR ≤ k ∧ k < Obj.arbHubPrioShadowR + 33 then arbHubDefault (k - Obj.arbHubPrioShadowR)
  else if Obj.arbHubPrioR ≤ k ∧ k < Obj.arbHubPrioR + 33 then arbHubDefault (k - Obj.arbHubPrioR)
  else if Obj.calSetTempK ≤ k ∧ k < Obj.calSetTempK + 5 then [30, 50, 70, 85, 100].getD (k - Obj.calSetTempK) 0
  else match objRow k with
    | some r => if r.key = Obj.slotJob then (k - r.key) / 0x1000 + 1 else r.dflt
    | none => 0

/-- The written value of an object, its default where nothing was written. -/
def State.obj (s : State) (k : Nat) : Nat :=
  match tfind k s.od with
  | some v => v.toNat
  | none => objDefault k

/-- The same, read as two's complement of 64 bits. -/
def State.objI (s : State) (k : Nat) : Int := signedAt 64 (s.obj k)

/-- Give an object a value. -/
def State.setObj (s : State) (k v : Nat) : State := { s with od := tset k (BitVec.ofNat 64 v) s.od }

/-- Give a signed object a value. -/
def State.setObjI (s : State) (k : Nat) (v : Int) : State := s.setObj k (wrapTo 64 v)

/-- Width of the counter at a key, in bits; 64 where it is no integer object. -/
def objBits (k : Nat) : Nat := match objRow k with | some r => if r.len = 0 then 64 else 8 * r.len | none => 64

/-- Add to a counter, which wraps at its width (log entry 3). -/
def State.count (s : State) (k n : Nat) : State := s.setObj k ((s.obj k + n) % 2 ^ objBits k)

/-- The written bytes of a DOMAIN or VISIBLE_STRING object. -/
def State.objB (s : State) (k : Nat) : Bytes := tget [] k s.odb

/-- Give a DOMAIN object its bytes. -/
def State.setObjB (s : State) (k : Nat) (b : Bytes) : State := { s with odb := tset k b s.odb }

/-- Key of slot object `base` for slot s (0x4000 + 0x10 × s, R255). -/
def slotKey (base slot : Nat) : Nat := base + 0x1000 * slot

/-- Key of tenant object `base` for tenant t (0x5000 + t, R255). -/
def tenantKeyOf (base t : Nat) : Nat := base + 0x100 * t

end Sys2Proof.Machine
end

