-- ==== Sys2Proof/Machine/Events.lean ====
section
/-! DEFINITION. What every chapter's events share: the error log (R368 to R370), trace records (R364 to R367), the device
state and its reasons (R286 to R288), the test-mode latch (R360, R361), field isolation (R22) and controller outputs
(R290). -/

namespace Sys2Proof.Machine

/-! Trace capture. -/

/-- Trace records that a source's 4 KiB queue holds (R364, R365). -/
def traceQueueLen : Nat := 85

/-- A trace record as bytes (R365). -/
def traceBytes (r : TraceRec) : Bytes :=
  leBytes 8 r.beat ++ leBytes 1 r.kind ++ leBytes 1 r.site ++ leBytes 2 r.unit ++ leBytes 1 (if r.lost then 1 else 0)
    ++ leBytes 3 r.seq ++ fitBytes 32 r.payload

/-- A source makes a trace record: enabled kinds only, dropped when the source's queue is full (R364, R366). -/
def traceMake (site unit kind : Nat) (payload : Bytes) (s : State) : State :=
  if s.beagle.state = 1 ∧ (s.obj Obj.beagleSourceMask).testBit (kind - 1) then
    let q := tget [] site s.beagle.queues
    let n := tget 0 site s.beagle.seqs
    if traceQueueLen ≤ q.length then
      let s := { s with beagle := { s.beagle with
        lostAt := tset site true s.beagle.lostAt, seqs := tset site ((n + 1) % 2 ^ 24) s.beagle.seqs } }
      s.count Obj.beagleLost 1
    else
      let r : TraceRec := { beat := s.beat, kind, site, unit, lost := tget false site s.beagle.lostAt, seq := n,
                            payload := fitBytes 32 payload }
      { s with beagle := { s.beagle with
        queues := tset site (q ++ [r]) s.beagle.queues
        lostAt := tset site false s.beagle.lostAt
        seqs := tset site ((n + 1) % 2 ^ 24) s.beagle.seqs } }
  else s

/-- Trace records that the buffer in force holds (R365, R367). -/
def traceBufferLen (s : State) : Nat := s.beagle.sizeMib * 2 ^ 20 / 48

/-- The hub writes a trace record to the buffer: ring or stop when full, and the trigger's count (R367). -/
def traceStore (r : TraceRec) (s : State) : State :=
  if s.beagle.state ≠ 1 then s
  else if s.obj Obj.beagleMode = 1 ∧ traceBufferLen s ≤ s.beagle.buffer.length then
    { s with beagle := { s.beagle with state := 2 } }
  else
    let full := traceBufferLen s ≤ s.beagle.buffer.length
    let buf := (if full then s.beagle.buffer.drop 1 else s.beagle.buffer) ++ [r]
    let post := match s.beagle.post with
      | some n => some (n - 1)
      | none => if r.kind = s.obj Obj.beagleTriggerKind then some (s.obj Obj.beaglePostTrigger) else none
    let state := if post = some 0 then 3
      else if s.obj Obj.beagleMode = 1 ∧ traceBufferLen s ≤ buf.length then 2 else 1
    let s := { s with beagle := { s.beagle with buffer := buf, post, state } }
    s.count Obj.beagleRecordsCaptured 1

/-! The error log. -/

/-- UTC nanoseconds while `beat_anchored` is 2, 0 otherwise (R257, R368). -/
def utcNow (s : State) : Nat :=
  if s.time.anchored = 2 then s.beat - 1000000000 * s.obj Obj.utcOffsetS else 0

/-- An error log entry as bytes (R368). -/
def logBytes (e : LogEntry) : Bytes :=
  leBytes 4 e.seq ++ leBytes 4 e.boot ++ leBytes 8 e.beat ++ leBytes 8 e.utc ++ leBytes 2 (e.key / 256)
    ++ leBytes 1 e.key ++ leBytes 1 e.sev ++ leBytes 2 e.code ++ leBytes 1 e.site ++ leBytes 1 e.flags
    ++ leBytes 2 e.unit ++ fitBytes 30 e.detail

/-- Entries the log ring holds (R370). -/
def logCapacity : Nat := 262144

/-- Put an entry in the log; a full ring loses its oldest (R370). The entry is traced as kind 0x0C (R366). -/
def logWrite (key sev code site unit flags : Nat) (detail : Bytes) (s : State) : State :=
  let e : LogEntry :=
    { seq := s.log.nextSeq % 2 ^ 32, boot := s.obj Obj.bootCount, beat := s.beat, utc := utcNow s, key, sev, code, site
      flags := (if s.test.unlocked then 1 else 0) + (if s.pair.state = 0 then 0 else 2) + flags
      unit, detail := fitBytes 30 detail }
  let full := logCapacity ≤ s.log.entries.length
  let s := { s with log := { s.log with
    entries := (if full then s.log.entries.drop 1 else s.log.entries) ++ [e], nextSeq := s.log.nextSeq + 1 } }
  let s := if full then s.count Obj.logOverwritten 1 else s
  traceMake hubSite 0 0x0C ((logBytes e).take 32) s

/-- The row of a second's counts for one identity: entries written, suppressed, highest severity suppressed. -/
def secondRow (id : Nat × Nat × Nat × Nat) : List ((Nat × Nat × Nat × Nat) × Nat × Nat × Nat) → Nat × Nat × Nat
  | [] => (0, 0, 0)
  | r :: l => if r.1 = id then r.2 else secondRow id l

/-- At the end of a second one summary entry for each identity with suppressed entries: flag [2], the count in detail bytes
[37:34] of the entry, the highest severity among them (R370). -/
def closeSecond (s : State) : State :=
  let s := s.log.second.foldl (fun s r =>
    if 0 < r.2.2.1 then
      logWrite r.1.1 r.2.2.2 r.1.2.2.2 r.1.2.1 r.1.2.2.1 4 (leBytes 4 r.2.2.1) s
    else s) s
  { s with log := { s.log with second := [], secondNo := s.beat / 1000000000 } }

/-- Log an event (R369): at most 16 entries of one identity in a second, later ones counted as suppressed (R370). -/
def logEvent (key sev code site unit : Nat) (detail : Bytes) (s : State) : State :=
  let s := if s.beat / 1000000000 = s.log.secondNo then s else closeSecond s
  let id := (key, site, unit, code)
  let (w, sup, top) := secondRow id s.log.second
  let rest := s.log.second.filter (fun r => r.1 ≠ id)
  if w < 16 then
    logWrite key sev code site unit 0 detail { s with log := { s.log with second := rest ++ [(id, w + 1, sup, top)] } }
  else
    let s := { s with log := { s.log with second := rest ++ [(id, w, sup + 1, max top sev)] } }
    s.count Obj.logSuppressed 1

/-- Increment a counter and log the event it identifies (R369). -/
def countLog (key sev code site unit : Nat) (detail : Bytes) (s : State) : State :=
  logEvent key sev code site unit detail (s.count key 1)

/-! Controller outputs. -/

/-- The controllers are replaced by the boot monitor (R292). -/
def State.faultStop (s : State) : Bool := s.dev.state == 8

/-- The module is powered: any state but Off. -/
def State.powered (s : State) : Bool := s.dev.state != 0

/-- A controller output: held in the output buffer of the cycle under way (R290); the boot monitor of Fault-stop answers
at once (R292). -/
def ctlEmit (o : Output) (s : State) : State :=
  if s.faultStop then s.emit o else { s with pair := { s.pair with cur := s.pair.cur ++ [o] } }

/-- The clear header of a dictionary message (R279). -/
def dictHeader (level msg client boot seq : Nat) : Bytes :=
  leBytes 1 level ++ leBytes 1 msg ++ leBytes 2 0 ++ leBytes 4 client ++ leBytes 4 boot ++ leBytes 8 seq ++ leBytes 4 0

/-- A message as framed on the UART (R280): 0x7E, length of header and body, these, and the CRC-32C over all but the first byte. -/
def uartFrame (message : Bytes) : Bytes :=
  let b := leBytes 2 message.length ++ message
  [0x7E] ++ b ++ leBytes 4 (crc32c b)

/-- A dictionary message as it leaves: framed on the UART, or on the management port with the nonce of its client and seq (R279,
R280). -/
def dictOut (uart : Bool) (level msg client boot seq : Nat) (body : Bytes) : Output :=
  let h := dictHeader level msg client boot seq
  if uart then .uart (uartFrame (h ++ body)) else .dict h (leBytes 4 client ++ leBytes 8 seq) body

/-- A dictionary response (R279, R281): the request's message code with bit 7 set, its client, the current boot_id, and
seq bits [63:62] 0b10 with the request's [61:0]. -/
def respondAt (level msg : Nat) (h : DictHdr) (body : Bytes) (s : State) : State :=
  ctlEmit (dictOut h.uart level (0x80 + msg) h.client.toNat (s.obj Obj.bootCount) (2 ^ 63 + h.seq.toNat) body) s

/-- A response at the agreed level, 1 (R10, R279). -/
def respond (msg : Nat) (h : DictHdr) (body : Bytes) (s : State) : State := respondAt 1 msg h body s

/-- The response to a WRITE (R281). -/
def answerWrite (h : DictHdr) (code : Nat) (s : State) : State := respond 0x02 h (leBytes 2 code) s

/-! Test mode (R360, R361). -/

/-- Lock test mode: injection stops everywhere, ballast is on, the Pod's line is cleared (R361). -/
def lockTest (s : State) : State :=
  if s.test.unlocked then
    let s := { s with
      test := { s.test with unlocked := false }
      ports := s.ports.map (fun (p : Nat × FPort) => (p.1, { p.2 with inject := { p.2.inject with mode := 0 } }))
      strings := s.strings.map (fun (p : Nat × Str) => (p.1, { p.2 with inject := { p.2.inject with mode := 0 } }))
      pod := { s.pod with testLine := false } }
    ((s.setObj Obj.ballastEnable 1).setObj Obj.fiMode 0).setObj Obj.sfiMode 0
  else s

/-! Device states (R286 to R288). -/

/-- An offset awaiting a step is applied on entry to Boot or Held with no window open (R257). -/
def stepPending (s : State) : State :=
  if s.time.pendingOff = 0 ∨ s.wins.any (fun w => w.phase = 2) then s
  else
    let s := { s with beat := ((s.beat : Int) + s.time.pendingOff).toNat, time := { s.time with pendingOff := 0 } }
    s.count Obj.beatSteps 1

/-- Enter a device state: traced (kind 0x09), test mode relocks in Boot, Off and Fault-stop (R360), and an offset that
waits is stepped in Boot and Held (R257). -/
def enterState (n : Nat) (s : State) : State :=
  if s.dev.state = n then s
  else
    let old := s.dev.state
    let s := { s with dev := { s.dev with state := n } }
    let s := if n = 2 ∨ n = 0 ∨ n = 8 then lockTest s else s
    let s := if n = 2 ∨ n = 3 then stepPending s else s
    traceMake hubSite 0 0x09 (leBytes 1 old ++ leBytes 1 n ++ leBytes 4 (s.obj Obj.stateReasons)) s

/-- Serving and Degraded follow the reasons (R287). -/
def settleReasons (s : State) : State :=
  if s.dev.state = 5 ∧ s.obj Obj.stateReasons ≠ 0 then enterState 6 s
  else if s.dev.state = 6 ∧ s.obj Obj.stateReasons = 0 then enterState 5 s
  else s

/-- Set or clear a condition of R288. -/
def setReason (bit : Nat) (on : Bool) (s : State) : State :=
  let r := s.obj Obj.stateReasons
  let cleared := if r.testBit bit then r - 2 ^ bit else r
  settleReasons (s.setObj Obj.stateReasons (if on then cleared + 2 ^ bit else cleared))

/-! The disabled-unit map (R19 to R22). -/

/-- Key of the map word of a unit: 0–63 a core, 64–319 Whippet unit − 64. -/
def mapKey (unit : Nat) : Nat := if unit < 64 then Obj.coreDisableMask else Obj.whippetDisableMask0 + (unit - 64) / 64

/-- The unit's bit is set in the map. -/
def unitDisabled (s : State) (unit : Nat) : Bool := (s.obj (mapKey unit)).testBit (if unit < 64 then unit else (unit - 64) % 64)

/-- Bytes of the effective map (R21). -/
def mapBytes (s : State) : Bytes :=
  leBytes 8 (s.obj Obj.coreDisableMask) ++ leBytes 8 (s.obj Obj.whippetDisableMask0)
    ++ leBytes 8 (s.obj Obj.whippetDisableMask1) ++ leBytes 8 (s.obj Obj.whippetDisableMask2)
    ++ leBytes 8 (s.obj Obj.whippetDisableMask3)

/-- Set or clear a unit's map bit, recompute the digest and count the change (R21, R22). -/
def mapChange (unit : Nat) (on : Bool) (s : State) : State :=
  let b := if unit < 64 then unit else (unit - 64) % 64
  let m := s.obj (mapKey unit)
  let cleared := if m.testBit b then m - 2 ^ b else m
  let s := s.setObj (mapKey unit) (if on then cleared + 2 ^ b else cleared)
  let s := s.setObj Obj.mapDigest (crc32c (mapBytes s))
  s.count Obj.mapChangeCount 1

/-- Site of a unit of the map. -/
def unitSite (unit : Nat) : Nat := dieSite (if unit < 64 then coreDie unit else whipDie (unit - 64))

/-- The unit was fused off at manufacture (R19). The Whippet fuses of a module are bits of `fusedWhips`. -/
def unitFused (s : State) (unit : Nat) : Bool :=
  if unit < 64 then (s.obj Obj.fusedCoreMask).testBit unit else s.dev.fusedWhips.testBit (unit - 64)

/-- A unit that is in the map and was not fused off is isolated in the field (R19). -/
def unitIsolated (s : State) (unit : Nat) : Bool := unitDisabled s unit && !unitFused s unit

/-- Field isolation of a unit (R22): map bit, digest, count, a condition of R288, and an entry of severity 3 (R369). -/
def isolateUnit (unit : Nat) (s : State) : State :=
  if unitDisabled s unit then s
  else
    let s := mapChange unit true s
    let s := logEvent Obj.mapChangeCount 3 0 (unitSite unit) unit [] s
    setReason 0 true s

/-- Some unit is isolated in the field: the condition of bit 0 (R288). -/
def anyIsolated (s : State) : Bool := (List.range 320).any (unitIsolated s)

/-- Clear a unit's isolation after its test passed (R22, R369). -/
def clearIsolation (unit : Nat) (s : State) : State :=
  let s := mapChange unit false s
  let s := logEvent Obj.mapChangeCount 0 0 (unitSite unit) unit [] s
  setReason 0 (anyIsolated s) s

end Sys2Proof.Machine
end

