-- ==== Sys2Proof/Machine/MeteringPod.lean ====
section
/-! DEFINITION. The Metering Pod (R306 to R322): tallies, interval and outage records, its calendar clock, seal, calibration
and verification. -/

namespace Sys2Proof.Machine

/-! Messages of the tally link (R309). -/

/-- Bytes of a TALLY before its CRC (R309). -/
def tallyBytes (m : Tally) : Bytes :=
  leBytes 1 1 ++ leBytes 1 m.flags.toNat ++ leBytes 2 m.entries.length ++ leBytes 4 m.seq.toNat ++ leBytes 8 m.beat.toNat
    ++ m.entries.flatMap (fun e => leBytes 2 e.tenant.toNat ++ leBytes 2 0 ++ leBytes 4 e.input.toNat ++ leBytes 4 e.output.toNat)

/-- A TALLY with its CRC-32C (R309). -/
def sealTally (m : Tally) : Tally := { m with crc := BitVec.ofNat 32 (crc32c (tallyBytes m)) }

/-- A TALLY as it leaves (R309). -/
def tallyMessage (m : Tally) : Output := .pod (tallyBytes m ++ leBytes 4 m.crc.toNat)

/-- A message without entries: TIME carries UTC in bytes [15:8], ACK the last number accepted in [7:4] (R309, R317). The bytes that
neither uses are 0 (DESIGN CHOICE, log entry 101). -/
def podMessage (kind seq value : Nat) : Output :=
  let b := leBytes 1 kind ++ leBytes 3 0 ++ leBytes 4 seq ++ leBytes 8 value
  .pod (b ++ leBytes 4 (crc32c b))

/-- Messages that the controller holds, seven days of them (R310). -/
def tallyHeld : Nat := 604800

/-- TALLY_SEND: a second after the last, the counts since then leave as the next message, kept until acknowledged (R309,
R310). Where one must be dropped, the message after it carries the jump. -/
def execTallySend (s : State) : Out :=
  if !s.powered ∨ s.dev.state = 8 ∨ s.beat < s.tallies.last + 1000000000 then .next s
  else
    let tested := s.tallies.tested || s.test.unlocked
    let m := sealTally
      { flags := if tested then 1 else 0, seq := s.tallies.seq, beat := BitVec.ofNat 64 s.beat
        entries := (s.serve.counts.filter (fun p => p.2 != (0, 0))).map (fun p =>
          { tenant := BitVec.ofNat 16 p.1, input := BitVec.ofNat 32 p.2.1, output := BitVec.ofNat 32 p.2.2 })
        jump := false, crc := 0 }
    let held := s.tallies.unacked
    let kept := if tallyHeld ≤ held.length then
        (match held.drop 1 with
        | [] => []
        | x :: r => { x with jump := true } :: r)
      else held
    let s := { s with
      serve := { s.serve with counts := [] }
      tallies := { s.tallies with
        seq := s.tallies.seq + 1, unacked := kept ++ [m], last := s.beat, tested := s.test.unlocked
        oldest := if kept.isEmpty then s.beat else s.tallies.oldest } }
    .next (ctlEmit (tallyMessage m) s)

/-- TALLY_ACK: messages up to the one the Pod names are released (R310). -/
def execTallyAck (seq : W32) (s : State) : Out :=
  let left := s.tallies.unacked.filter (fun m => !decide (m.seq ≤ seq))
  if left.length = s.tallies.unacked.length then .next s
  else .next { s with tallies := { s.tallies with unacked := left, oldest := s.beat } }

/-- TALLY_RESEND: 100 ms without an acknowledgement of the oldest; all are sent again in order (R310). -/
def execTallyResend (s : State) : Out :=
  if !s.powered ∨ s.dev.state = 8 ∨ s.tallies.unacked.isEmpty ∨ s.beat < s.tallies.oldest + 100000000 then .next s
  else
    .next (s.tallies.unacked.foldl (fun s m => ctlEmit (tallyMessage m) s)
      { s with tallies := { s.tallies with oldest := s.beat } })

/-- TIME_SEND: hourly while `beat_anchored` reads 2, UTC by the beat counter goes to the Pod (R317). -/
def execTimeSend (s : State) : Out :=
  if s.dev.state = 8 ∨ !s.powered ∨ s.time.anchored ≠ 2 ∨ s.beat < s.tallies.timeSent + 3600000000000 then .next s
  else
    .next (ctlEmit (podMessage 2 0 (utcNow s)) { s with tallies := { s.tallies with timeSent := s.beat } })

/-! Acceptance at the Pod (R309 to R311). -/

/-- Tenant counts of the interval with an entry added. -/
def addCounts (c : Tab (Nat × Nat)) (e : TallyEntry) : Tab (Nat × Nat) :=
  let old := tget (0, 0) e.tenant.toNat c
  tset e.tenant.toNat (old.1 + e.input.toNat, old.2 + e.output.toNat) c

/-- Nanoseconds of a quarter hour. -/
def quarterNs : Nat := 900000000000

/-- End of the interval that is not yet closed: the next quarter hour after its start (R312). -/
def intervalEnd (p : Pod) : Nat := p.start / quarterNs * quarterNs + quarterNs

/-- The interval that a moment of the Pod's clock belongs to gathers something; the boundary instant opens the next (R310, R321). -/
def podGather (time : Nat) (f : PodAcc → PodAcc) (p : Pod) : Pod :=
  if intervalEnd p ≤ time then { p with next := f p.next }
  else
    let a := f { counts := p.counts, testSec := p.testSec, flags := p.flags, gaps := p.gaps }
    { p with counts := a.counts, testSec := a.testSec, flags := a.flags, gaps := a.gaps }

/-- Set a flag bit of the interval that the present moment belongs to (R312). -/
def podFlag (bit : Nat) (p : Pod) : Pod := podGather p.clock (fun a => { a with flags := a.flags ||| 2 ^ bit }) p

/-- A second counts as a test-mode second of its interval, once (R311, R321). -/
def testSecond (sec : Nat) (p : Pod) : Pod :=
  if p.testAt.contains sec then p
  else podGather (sec * 1000000000) (fun a => { a with testSec := a.testSec + 1 }) { p with testAt := p.testAt ++ [sec] }

/-- A TALLY whose flag is set counts the second of the Pod's clock in which it was made (R311; which second that is, DEDUCED, log
entry 47). -/
def tallySecond (beat : Nat) (m : Tally) (p : Pod) : Pod :=
  if m.flags.toNat.testBit 0 then testSecond ((p.clock - (beat - m.beat.toNat)) / 1000000000) p else p

/-- The test-mode line is sampled at each millisecond of the Pod's clock, which read `before` (R311). -/
def sampleTestLine (before : Nat) (p : Pod) : Pod :=
  if p.testLine ∧ p.powered ∧ before / 1000000 ≠ p.clock / 1000000 then testSecond (p.clock / 1000000000) p else p

/-- Accepted correction values take effect together at a boundary of a second (R319), and the record is flagged (R321). -/
def takeCal (before : Nat) (p : Pod) : Pod :=
  match p.newCal with
  | some c => if before / 1000000000 = p.clock / 1000000000 then p else podFlag 7 { p with cal := c, newCal := none }
  | none => p

/-- TALLY: the next in sequence is accepted and acknowledged; one with a bad CRC or a higher number is discarded. A lower number is
discarded as a duplicate, and the last number accepted is named again (DEDUCED, log entry 47). A marked jump is accepted and its
gap counted (R309, R310). -/
def execTally (m : Tally) (s : State) : Out :=
  let p := s.pod
  let want : Nat := (p.seqLast.map (fun l => l.toNat + 1)).getD 0
  if !p.powered ∨ m.crc.toNat ≠ crc32c (tallyBytes m) then .next s
  else if m.seq.toNat = want ∨ (m.jump ∧ want < m.seq.toNat) then
    let gap := m.seq.toNat - want
    let p := podGather p.clock (fun a => { a with counts := m.entries.foldl addCounts a.counts, gaps := a.gaps + gap })
      { p with seqLast := some m.seq }
    let p := if 0 < gap then podFlag 5 p else p
    let p := if m.beat.toNat + 2000000000 < s.beat then podFlag 6 p else p
    let s := { s with pod := tallySecond s.beat m p }
    let s := if 0 < gap then s.count Obj.tallyGapsTotal gap else s
    .next (s.emit (podMessage 3 m.seq.toNat 0))
  else if m.seq.toNat < want then .next (s.emit (podMessage 3 (want - 1) 0))
  else .next s

/-! Records (R312 to R315). -/

/-- Energy shares by weighted tokens: entries with their mWh, and what is left (R313). -/
def apportion (k e : Nat) (c : Tab (Nat × Nat)) : List (Nat × Nat × Nat × Nat) × Nat :=
  let rows := c.filter (fun p => p.2 != (0, 0))
  let w (p : Nat × Nat × Nat) : Nat := 256 * p.2.2 + k * p.2.1
  let total := (rows.map w).sum
  let out := rows.map (fun p => (p.1, p.2.1, p.2.2, if total = 0 then 0 else e * w p / total))
  (out, e - (out.map (fun x => x.2.2.2)).sum)

/-- Bytes of a record before its signature (R312). -/
def recordBody (s : State) (r : PodRecord) : Bytes :=
  leBytes 4 0x4D455452 ++ leBytes 1 (1 + 16 * r.kind) ++ leBytes 1 r.flags ++ leBytes 2 r.entries.length
    ++ leBytes 4 r.number ++ leBytes 8 (s.obj Obj.podSerial) ++ leBytes 8 r.start ++ leBytes 4 r.length ++ leBytes 8 r.energy
    ++ leBytes 4 r.unattr ++ leBytes 2 r.testSec ++ leBytes 2 r.outage ++ leBytes 2 r.gaps
    ++ leBytes 4 (s.obj Obj.meterFwVersion) ++ leBytes 10 0 ++ fitBytes 32 r.prev
    ++ r.entries.flatMap (fun e => leBytes 2 e.1 ++ leBytes 2 0 ++ leBytes 4 e.2.1 ++ leBytes 4 e.2.2.1 ++ leBytes 4 e.2.2.2)

/-- A record as stored. -/
def recordBytes (s : State) (r : PodRecord) : Bytes := recordBody s r ++ fitBytes 64 r.sig

/-- Bytes of a stored record (R312). -/
def recordLength (r : PodRecord) : Nat := 96 + 16 * r.entries.length + 64

/-- Records kept of an archive of `size` bytes: the ring of 3 GiB overwrites a record only for space and once it is more than 400 days old (R314). -/
def trimArchive (now : Nat) : Nat → List PodRecord → List PodRecord
  | _, [] => []
  | size, r :: rest =>
    if 3 * 2 ^ 30 < size ∧ r.start + 400 * 86400000000000 < now then trimArchive now (size - recordLength r) rest else r :: rest

/-- A record is chained, signed and stored under the next number (R312, R314). -/
def signRecord (r : PodRecord) (s : State) : State :=
  let r := { r with
    number := s.pod.number
    prev := match s.pod.archive.getLast? with
      | some l => sha256 (recordBytes s l)
      | none => List.replicate 32 0 }
  let r := { r with sig := Sys2Proof.Config.podSignature (recordBody s r) }
  let all := s.pod.archive ++ [r]
  { s with pod := { s.pod with number := s.pod.number + 1, archive := trimArchive s.pod.clock (all.map recordLength).sum all } }

/-- The cover was open at some moment from `a` on and before `b`: it was opened or closed there, or stood open (R318). -/
def openIn (a b : Nat) (p : Pod) : Bool :=
  let cover := p.events.filter (fun e => e.2.1 == 3 || e.2.1 == 4)
  cover.any (fun e => decide (a ≤ e.1 ∧ e.1 < b)) ||
    ((cover.filter (fun e => decide (e.1 < a))).getLast?.map (fun e => e.2.1 == 3)).getD false

/-- Flags that a record from `a` to `b` takes from the seal, open or not closed properly, and from a clock lost or refused (R316 to
R318). -/
def standingFlags (a b : Nat) (p : Pod) : Nat :=
  (if p.sealSt = 2 ∨ (p.sealSt = 1 ∧ p.coverOpen) ∨ openIn a b p then 2 else 0) + (if p.lost ∨ p.refusing then 16 else 0)

/-- The interval under way is closed, apportioned and signed; the next begins (R312, R313). -/
def closeInterval (start next : Nat) (s : State) : State :=
  let p := s.pod
  let (entries, unattr) := apportion (s.obj Obj.allocInputWeight) (p.energy / 1000) p.counts
  let r : PodRecord :=
    { kind := 1, flags := p.flags ||| standingFlags start (start + quarterNs) p ||| (if 0 < p.testSec then 1 else 0), number := 0, start
      length := 900, energy := p.energy / 1000, unattr, testSec := p.testSec, outage := p.outage, gaps := p.gaps, entries, prev := []
      sig := [] }
  let s := (signRecord r s).count Obj.testSecondsTotal p.testSec
  let a := p.next
  { s with pod := { s.pod with
    start := next, energy := 0, counts := a.counts, testSec := a.testSec, flags := a.flags, gaps := a.gaps, outage := 0, next := {} } }

/-- Energy measured since the last figure joins the interval and the total (R307, R308). -/
def addEnergy (uwh : Nat) (s : State) : State :=
  { s with pod := { s.pod with energy := s.pod.energy + uwh, total := s.pod.total + uwh } }

/-- INTERVAL_CLOSE: the Pod's clock has reached the next quarter hour; `energyUwh` is what it measured since the interval
began, or since it was last powered up (R312). -/
def execIntervalClose (energyUwh : Nat) (s : State) : Out :=
  let p := s.pod
  let start := p.start / quarterNs * quarterNs
  if !p.powered ∨ p.clock < intervalEnd p then .next s
  else .next (closeInterval start (start + quarterNs) (addEnergy energyUwh s))

/-- POD_POWER_LOSS: within 2 ms the accumulators and the time are in flash; the supercapacitor takes the clock (R315, R316). -/
def execPodPowerLoss (energyUwh : Nat) (s : State) : Out :=
  if !s.pod.powered then .next s
  else
    let s := addEnergy energyUwh s
    .next { s with pod := { s.pod with powered := false, supply := 1, lostAt := some s.pod.clock } }

/-- Seconds without input join the interval under way, which was interrupted (R312, R315). -/
def noteOutage (ns : Nat) (p : Pod) : Pod := { p with outage := p.outage + ns / 1000000000, flags := p.flags ||| 4 }

/-- The interrupted record, one outage record for the whole quarter hours that passed, and the interval resumed (R315). An interval
that ended before the loss and was not yet signed is signed first (R321). -/
def closeOutage (lost now : Nat) (s : State) : State :=
  let ended := intervalEnd s.pod
  let s := if ended ≤ lost then closeInterval (ended - quarterNs) ended s else s
  let stop := intervalEnd s.pod
  let current := now / quarterNs * quarterNs
  if current < stop then { s with pod := noteOutage (now - lost) s.pod }
  else
    let s := closeInterval (stop - quarterNs) current { s with pod := noteOutage (stop - lost) s.pod }
    let gap := current - stop
    let r : PodRecord :=
      { kind := 2, flags := 4 ||| standingFlags stop current s.pod, number := 0, start := stop, length := gap / 1000000000
        energy := 0, unattr := 0, testSec := 0, outage := 0, gaps := 0, entries := [], prev := [], sig := [] }
    let s := if gap = 0 then s else signRecord r s
    { s with pod := noteOutage (now - current) s.pod }

/-- POD_POWER_UP: input is back and the clock reads `clockNow`; where the clock was lost it starts from the last time in
flash. Interrupted and outage records are signed, and a seal closed after an accepted run reads sealed (R315, R316, R318). -/
def execPodPowerUp (clockNow : W64) (s : State) : Out :=
  if s.pod.powered then .next s
  else
    let first := s.pod.lostAt.isNone
    let lost := s.pod.lostAt.getD 0
    let now := if s.pod.lost ∧ !first then lost else clockNow.toNat
    let s := { s with pod := { s.pod with
      powered := true, supply := 0, clock := now, lostAt := none
      sealSt := if s.pod.resealed then 0 else s.pod.sealSt, resealed := false
      start := if first then now else s.pod.start } }
    .next (if first then s else closeOutage lost now s)

/-- SUPERCAPACITOR_EXHAUSTED: 72 h after input loss the coin cell takes over (R316). -/
def execSupercapacitorExhausted (s : State) : Out :=
  if s.pod.supply = 1 ∧ !s.pod.powered ∧ s.pod.lostAt.getD 0 + 259200000000000 ≤ s.pod.clock then .next { s with pod := { s.pod with supply := 2 } } else .next s

/-- COIN_CELL_EXHAUSTED: the clock is lost (R316). -/
def execCoinCellExhausted (s : State) : Out :=
  if s.pod.supply = 2 ∧ !s.pod.powered then .next { s with pod := { s.pod with lost := true } } else .next s

/-! The calendar clock (R316, R317). -/

/-- Absolute adjustments accepted in the last 24 h, ns. -/
def adjusted (p : Pod) : Nat :=
  ((p.adjusts.filter (fun a => decide (p.clock < a.1 + 86400000000000))).map (·.2)).sum

/-- The Pod logs an event with its time (R317, R318, R320): codes 1 adjustment and 2 refusal, with the offset in ns; 3 cover opened
and 4 closed; 5 calibration, with the residual error; 6 verification, with result and worst error; 7 firmware, with the versions
and the digest. The codes and the layout are the model's (DESIGN CHOICE, log entry 101). -/
def podLog (code : Nat) (detail : Bytes) (p : Pod) : Pod := { p with events := p.events ++ [(p.clock, code, detail)] }

/-- An offset of the clock in a logged event: 8 bytes, signed. -/
def offsetBytes (off : Int) : Bytes := leBytes 8 (BitVec.ofInt 64 off).toNat

/-- TIME: an offset below 1 ms is ignored; one that keeps the day's adjustments within 2 s is slewed; a larger one is refused.
After a lost clock it is applied in full (R316, R317). -/
def execTime (utc : W64) (s : State) : Out :=
  let p := s.pod
  let off : Int := (utc.toNat : Int) - p.clock
  let us := off / 1000
  if !p.powered then .next s
  else if p.lost then
    let s := s.setObjI Obj.clockLastAdjustUs us
    .next { s with pod := podFlag 4 (podFlag 3 (podLog 1 (offsetBytes off) { p with clock := utc.toNat, lost := false, slew := 0, refusing := false })) }
  else if off.natAbs < 1000000 then .next s
  else if adjusted p + off.natAbs ≤ 2000000000 then
    let s := s.setObjI Obj.clockLastAdjustUs us
    let p := if p.refusing then podFlag 4 p else p
    .next { s with pod := podFlag 3 (podLog 1 (offsetBytes off) { p with
      slew := off, refusing := false
      adjusts := p.adjusts.filter (fun a => decide (p.clock < a.1 + 86400000000000)) ++ [(p.clock, off.natAbs)] }) }
  else
    let s := s.count Obj.clockRefusals 1
    .next { s with pod := podFlag 4 (podLog 2 (offsetBytes off) { s.pod with refusing := true }) }

/-! Seal (R318). -/

/-- COVER_OPEN: logged, counted, and flagged on every record it overlaps (R318). -/
def execCoverOpen (s : State) : Out :=
  if s.pod.coverOpen then .next s
  else
    let s := s.count Obj.tamperCount 1
    .next { s with pod := podFlag 1 (podLog 3 [] { s.pod with coverOpen := true, verified := false, resealed := false, sealSt := 1 }) }

/-- COVER_CLOSE: after an accepted run with the cover open the seal reads 0 from the next power-up; otherwise it reads closed
and not verified (R318). -/
def execCoverClose (s : State) : Out :=
  if !s.pod.coverOpen then .next s
  else if s.pod.verified then
    .next { s with pod := podFlag 1 <| podLog 4 [] { s.pod with
      coverOpen := false, resealed := true, verified := false, calRun := 0 } }
  else .next { s with pod := podFlag 1 <| podLog 4 [] { s.pod with coverOpen := false, sealSt := 2, calRun := 0 } }

/-! Calibration and verification (R319, R320). -/

/-- CAL_RUN_CALIBRATE: 1 is written to `cal_run` on the calibration interface, with the seal open (R319). -/
def execCalRunCalibrate (s : State) : Out :=
  if s.pod.coverOpen ∧ s.pod.powered ∧ s.pod.calRun = 0 then .next { s with pod := { s.pod with calRun := 1 } } else .next s

/-- CAL_RUN_VERIFY: 2 is written to `cal_run` on the calibration interface, with the seal open (R320). -/
def execCalRunVerify (s : State) : Out :=
  if s.pod.coverOpen ∧ s.pod.powered ∧ s.pod.calRun = 0 then .next { s with pod := { s.pod with calRun := 2 } } else .next s

/-- Set temperatures of the correction sets, 0.1 °C (R319). -/
def podSets : List Int := [100, 250, 400, 550, 700]

/-- Board within 3 °C of a set temperature (R319). -/
def nearSet (temp : Int) : Bool := podSets.any (fun t => decide ((temp - t).natAbs ≤ 30))

/-- Two runs agree within 0.05 % at every point with a current; errors there are in 0.001 % (R319). -/
def runsAgree (a b : List Int) : Bool := ((a.zip b).drop 1).all (fun x => decide ((x.1 - x.2).natAbs ≤ 50))

/-- Result code of a run: the voltage reference lies within 370 to 390 V, the current source is in its range, the board is at the
temperature of a set, and the two runs agree (R319, R320). -/
def runCode (ref : RunReference) (temp : Int) (first repeated : List Int) : Nat :=
  if ref.mv < 370000 ∨ 390000 < ref.mv ∨ !ref.ok ∨ !nearSet temp then 0x1802 else if !runsAgree first repeated then 0x1801 else 0

/-- Index of the set at or below a board temperature between 10 and 70 °C (R319). -/
def setBelow (temp : Int) : Nat := ((temp - 100) / 150).toNat

/-- Corrections at a board temperature, interpolated between the bracketing sets (R319). -/
def correctionAt (cal : List (List Int)) (temp : Int) : List Int :=
  if temp ≤ 100 then cal.getD 0 []
  else if 700 ≤ temp then cal.getD 4 []
  else
    let i := setBelow temp
    ((cal.getD i []).zip (cal.getD (i + 1) [])).map (fun x => x.1 + (x.2 - x.1) * (temp - podSets.getD i 0) / 150)

/-- A set with the errors measured added. -/
def addErrors (err : List Int) (x : List Int) : List Int := (x.zip err).map (fun p => p.1 + p.2)

/-- The measured errors are added to both bracketing sets, or to the end set (R319). -/
def correctSets (cal : List (List Int)) (temp : Int) (err : List Int) : List (List Int) :=
  if temp ≤ 100 then lset 0 (addErrors err (cal.getD 0 [])) cal
  else if 700 ≤ temp then lset 4 (addErrors err (cal.getD 4 [])) cal
  else
    let i := setBelow temp
    lset (i + 1) (addErrors err (cal.getD (i + 1) [])) (lset i (addErrors err (cal.getD i [])) cal)

/-- Error measured at each point: the mean of the two runs. -/
def measuredErrors (first repeated : List Int) : List Int := (first.zip repeated).map (fun x => (x.1 + x.2) / 2)

/-- CAL_RUN_DONE: a refused run changes nothing; an accepted one adds the errors measured (0.001 %, at the four points) to
its sets, in force together from the next second of integration (R319). -/
def execCalRunDone (ref : RunReference) (temp : Int) (first repeated : List Int) (s : State) : Out :=
  if s.pod.calRun ≠ 1 then .next s
  else
    let code := runCode ref temp first repeated
    let s := s.setObj Obj.calResult code
    let s := { s with pod := { s.pod with calRun := 0 } }
    if code ≠ 0 then .next s
    else
      let err := measuredErrors first repeated
      let cal := correctSets (s.pod.newCal.getD s.pod.cal) temp err
      let worst : Nat := ((first ++ repeated).zip (err ++ err)).foldl (fun m x => max m (x.1 - x.2).natAbs) 0
      let s := ((s.setObj Obj.calResidual worst).setObj Obj.calLastUtcNs s.pod.clock).count Obj.calCount 1
      .next { s with pod := podLog 5 (leBytes 2 worst) { s.pod with newCal := some cal, verified := s.pod.coverOpen } }

/-- Limit of point i (R307, R320): 10 mW at 0 A; in 0.001 %, 1 % at 0.050 A, which is below 20 W, and 0.5 % at the others. -/
def pointLimit (i : Nat) : Nat := [10, 1000, 500, 500].getD i 500

/-- An error as a fraction of its point's limit, 0.1 % each (R320). -/
def limitFraction (i : Nat) (x : Int) : Nat := x.natAbs * 1000 / pointLimit i

/-- VERIFY_DONE: errors in mW at 0 A and in 0.001 % at the other points; every point within its limit passes, and no
correction changes. After one that fails the Pod must be calibrated (R320). -/
def execVerifyDone (ref : RunReference) (temp : Int) (first repeated : List Int) (s : State) : Out :=
  if s.pod.calRun ≠ 2 then .next s
  else
    let code := runCode ref temp first repeated
    let s := s.setObj Obj.calResult code
    let s := { s with pod := { s.pod with calRun := 0 } }
    if code ≠ 0 then .next s
    else
      let at_ (l : List Int) : List (Nat × Int) := (List.range 4).zip l
      let points := at_ first ++ at_ repeated
      let worst : Nat := points.foldl (fun m x => max m (limitFraction x.1 x.2)) 0
      let pass := points.all (fun x => decide (x.2.natAbs ≤ pointLimit x.1))
      let s := (s.setObj Obj.verResult (if pass then 1 else 2)).setObj Obj.verWorstError worst
      let p := { s.pod with verified := pass && s.pod.coverOpen }
      .next { s with pod := podLog 6 (leBytes 1 (if pass then 1 else 2) ++ leBytes 2 worst) p }

/-- POD_FIRMWARE_REPLACE: through the calibration interface, with the seal open; logged (R318). -/
def execPodFirmwareReplace (version : W32) (digest : Bytes) (s : State) : Out :=
  if s.pod.coverOpen ∧ s.pod.powered then
    let old := s.obj Obj.meterFwVersion
    let s := s.setObj Obj.meterFwVersion version.toNat
    .next { s with pod := podLog 7 (leBytes 4 old ++ leBytes 4 version.toNat ++ fitBytes 32 digest) { s.pod with fwDigest := digest } }
  else .next s

/-- POD_SELF_CHECK: hourly on the Pod's own clock; integration goes on (R308, R353). -/
def execPodSelfCheck (s : State) : Out :=
  if s.pod.powered then .next { s with pod := { s.pod with checks := s.pod.checks + 1 } } else .next s

end Sys2Proof.Machine
end

