-- ==== Sys2Proof/Machine/Operands.lean ====
section
/-! DEFINITION. Number formats and exact arithmetic (R24 to R51): every value is a NaN, an infinity or an exact dyadic
number; each rounding is one function. -/

namespace Sys2Proof.Machine

/-- A value: NaN, a signed infinity, or (−1)^neg × m × 2^e exactly (m = 0 is a signed zero). -/
inductive Val where
  | nan
  | inf (neg : Bool)
  | fin (neg : Bool) (m : Nat) (e : Int)
  deriving DecidableEq, Repr

/-- Arithmetic status flags of R52, as a mask. -/
abbrev Flags := Nat

def flagNV : Flags := 1
def flagOF : Flags := 2
def flagSAT : Flags := 4
def flagISAT : Flags := 8
def flagUF : Flags := 16
def flagTRIT : Flags := 32
def flagSCALENAN : Flags := 64

/-- Format codes (R24). -/
def fmtFP32 : Nat := 0x00
def fmtFP16 : Nat := 0x01
def fmtBF16 : Nat := 0x02
def fmtE4M3 : Nat := 0x03
def fmtE5M2 : Nat := 0x04
def fmtE3M2 : Nat := 0x05
def fmtE2M3 : Nat := 0x06
def fmtE2M1 : Nat := 0x07
def fmtINT8 : Nat := 0x08
def fmtUINT8 : Nat := 0x09
def fmtINT4 : Nat := 0x0A
def fmtBFP8 : Nat := 0x0B
def fmtBFP6 : Nat := 0x0C
def fmtBFP4 : Nat := 0x0D
def fmtBINT8 : Nat := 0x0E
def fmtTRIT5 : Nat := 0x0F
def fmtLOG8 : Nat := 0x10

/-- Codes 0x11 and above are reserved (R24). -/
def fmtSupported (f : Nat) : Bool := f ≤ 0x10

/-- A block format (R34). -/
def fmtBlock (f : Nat) : Bool := fmtBFP8 ≤ f && f ≤ fmtBINT8

/-- An integer format. -/
def fmtInteger (f : Nat) : Bool := f == fmtINT8 || f == fmtUINT8 || f == fmtINT4

/-- Element format of a block format (R35): E4M3, E2M3, E2M1 or INT8 codes; others are their own. -/
def fmtElement (f : Nat) : Nat :=
  if f = fmtBFP8 then fmtE4M3 else if f = fmtBFP6 then fmtE2M3 else if f = fmtBFP4 then fmtE2M1
  else if f = fmtBINT8 then fmtINT8 else f

/-- Bits of one element in the element plane (R24); TRIT5 has none of its own. -/
def fmtBits (f : Nat) : Nat :=
  match f with
  | 0x00 => 32 | 0x01 => 16 | 0x02 => 16 | 0x03 => 8 | 0x04 => 8 | 0x05 => 6 | 0x06 => 6 | 0x07 => 4
  | 0x08 => 8 | 0x09 => 8 | 0x0A => 4 | 0x0B => 8 | 0x0C => 6 | 0x0D => 4 | 0x0E => 8 | 0x10 => 8 | _ => 0

/-- A float format's parameters: exponent bits, mantissa bits, bias, whether it has infinities, and the largest finite
magnitude as mantissa and power of two (R26, R27). -/
structure FloatFmt where
  eb    : Nat
  mb    : Nat
  bias  : Nat
  inf   : Bool
  maxM  : Nat
  maxE  : Int
  deriving DecidableEq, Repr

/-- Parameters of the float formats (R26, R27). -/
def floatFmt (f : Nat) : Option FloatFmt :=
  match f with
  | 0x00 => some ⟨8, 23, 127, true, 2 ^ 24 - 1, 104⟩
  | 0x01 => some ⟨5, 10, 15, true, 2 ^ 11 - 1, 5⟩
  | 0x02 => some ⟨8, 7, 127, true, 2 ^ 8 - 1, 120⟩
  | 0x03 => some ⟨4, 3, 7, false, 14, 5⟩
  | 0x04 => some ⟨5, 2, 15, true, 7, 13⟩
  | 0x05 => some ⟨3, 2, 3, false, 7, 2⟩
  | 0x06 => some ⟨2, 3, 1, false, 15, -1⟩
  | 0x07 => some ⟨2, 1, 1, false, 3, 1⟩
  | _ => none

/-- The value of a code of a float format (R26 to R28). -/
def floatDecode (f : Nat) (code : Nat) : Val :=
  match floatFmt f with
  | none => .nan
  | some p =>
    let neg := code.testBit (p.eb + p.mb)
    let e := bitsAt code p.mb p.eb
    let m := bitsAt code 0 p.mb
    if p.inf && e == 2 ^ p.eb - 1 then (if m = 0 then .inf neg else .nan)
    else if f = fmtE4M3 ∧ e = 15 ∧ m = 7 then .nan
    else if e = 0 then .fin neg m (1 - (p.bias : Int) - p.mb)
    else .fin neg (2 ^ p.mb + m) ((e : Int) - p.bias - p.mb)

/-- The canonical NaN (R49); formats with none read +0. -/
def nanCode (f : Nat) : Nat :=
  match f with
  | 0x00 => 0x7FC00000 | 0x01 => 0x7E00 | 0x02 => 0x7FC0 | 0x03 => 0x7F | 0x04 => 0x7E | 0x10 => 0xFF | _ => 0

/-- How a rounding step rounds (R45): to nearest even, or stochastically with a random word. -/
inductive RMode where
  | rne
  | stoch (r : Nat)
  deriving DecidableEq, Repr

/-- Round a positive m × 2^e to a multiple of 2^q: the multiple (R45). -/
def roundAt (mode : RMode) (m : Nat) (e q : Int) : Nat :=
  if q ≤ e then m <<< (e - q).toNat
  else
    let sh := (q - e).toNat
    let lo := m >>> sh
    let rem := m % 2 ^ sh
    match mode with
    | .rne =>
      let half := 2 ^ (sh - 1)
      if half < rem ∨ (rem = half ∧ lo % 2 = 1) then lo + 1 else lo
    | .stoch r => if 2 ^ 32 ≤ (rem <<< 32) >>> sh + r then lo + 1 else lo

/-- Power of two of the quantum at a magnitude m × 2^e in a float format. -/
def quantum (p : FloatFmt) (m : Nat) (e : Int) : Int :=
  max ((m.log2 : Int) + e - p.mb) (1 - (p.bias : Int) - p.mb)

/-- a × 2^x > b × 2^y. -/
def dyGt (a : Nat) (x : Int) (b : Nat) (y : Int) : Bool :=
  let z := min x y
  b <<< (y - z).toNat < a <<< (x - z).toNat

/-- Code of a magnitude k × 2^q that the format holds, q its quantum there. -/
def floatPack (p : FloatFmt) (neg : Bool) (k : Nat) (q : Int) : Nat :=
  let (k, q) := if k = 2 ^ (p.mb + 1) then (2 ^ p.mb, q + 1) else (k, q)
  let body := if k < 2 ^ p.mb then k else ((q + p.mb + p.bias).toNat <<< p.mb) + (k - 2 ^ p.mb)
  body + (if neg then 2 ^ (p.eb + p.mb) else 0)

/-- Code of an infinity. -/
def infCode (p : FloatFmt) (neg : Bool) : Nat := ((2 ^ p.eb - 1) <<< p.mb) + (if neg then 2 ^ (p.eb + p.mb) else 0)

/-- Code of the largest finite magnitude. -/
def maxCode (p : FloatFmt) (neg : Bool) : Nat := floatPack p neg p.maxM p.maxE

/-- Formats whose subnormal results flush-to-zero affects: FP32, FP16 and BF16 (R41, R47, R51). -/
def fmtFlushes (f : Nat) : Bool := f ≤ fmtBF16

/-- Convert a value to a float format (R47): rounding, overflow by the saturate bit, flush-to-zero of a subnormal result
of a format of `fmtFlushes` when `ftz` is set; the code and the flags it raises. -/
def floatEncode (f : Nat) (mode : RMode) (sat ftz : Bool) (x : Val) : Nat × Flags :=
  match floatFmt f with
  | none => (0, 0)
  | some p =>
    match x with
    | .nan => (nanCode f, if nanCode f = 0 then flagNV else 0)
    | .inf neg => if p.inf then (infCode p neg, 0) else (maxCode p neg, flagSAT)
    | .fin neg 0 _ => (floatPack p neg 0 0, 0)
    | .fin neg m e =>
      let q := quantum p m e
      let k := roundAt mode m e q
      if dyGt k q p.maxM p.maxE then
        (if p.inf && !sat then (infCode p neg, flagOF) else (maxCode p neg, flagSAT))
      else if k = 0 then (floatPack p neg 0 0, flagUF)
      else if ftz ∧ fmtFlushes f ∧ k < 2 ^ p.mb ∧ q = 1 - (p.bias : Int) - p.mb then (floatPack p neg 0 0, flagUF)
      else (floatPack p neg k q, 0)

/-- Convert a value to an integer range (R47), rounding to nearest even or stochastically. -/
def intEncode (lo hi : Int) (mode : RMode) (x : Val) : Int × Flags :=
  match x with
  | .nan => (0, flagNV)
  | .inf neg => (if neg then lo else hi, flagISAT)
  | .fin neg m e =>
    let k := roundAt mode m e 0
    let v : Int := if neg then -(k : Int) else k
    if v < lo then (lo, flagISAT) else if hi < v then (hi, flagISAT) else (v, 0)

/-- The value of an integer. -/
def Val.ofInt (v : Int) : Val := .fin (decide (v < 0)) v.natAbs 0

/-- The value of an FP32 pattern. -/
def f32 (w : W32) : Val := floatDecode fmtFP32 w.toNat

/-- The FP32 pattern of a value, rounded to nearest even, and its flags (R51). -/
def toF32 (ftz : Bool) (x : Val) : W32 × Flags :=
  let (c, f) := floatEncode fmtFP32 .rne false ftz x
  (BitVec.ofNat 32 c, f)

/-! Exact arithmetic on values. -/

/-- The signed integer of a finite value at a common power of two. -/
def Val.scaled (z : Int) : Val → Int
  | .fin neg m e => (if neg then -1 else 1) * ((m <<< (e - z).toNat : Nat) : Int)
  | _ => 0

/-- Exact sum (IEEE 754 sign rules for zeros under round to nearest). -/
def Val.add (x y : Val) : Val :=
  match x, y with
  | .nan, _ => .nan
  | _, .nan => .nan
  | .inf a, .inf b => if a = b then .inf a else .nan
  | .inf a, _ => .inf a
  | _, .inf b => .inf b
  | .fin a m e, .fin b n d =>
    let z := min e d
    let v := (Val.fin a m e).scaled z + (Val.fin b n d).scaled z
    if v = 0 then .fin (a && b) 0 0 else .fin (decide (v < 0)) v.natAbs z

/-- Exact product. -/
def Val.mul (x y : Val) : Val :=
  match x, y with
  | .nan, _ => .nan
  | _, .nan => .nan
  | .inf a, .inf b => .inf (a != b)
  | .inf a, .fin b n _ => if n = 0 then .nan else .inf (a != b)
  | .fin a m _, .inf b => if m = 0 then .nan else .inf (a != b)
  | .fin a m e, .fin b n d => .fin (a != b) (m * n) (e + d)

/-- Negation. -/
def Val.neg : Val → Val
  | .nan => .nan
  | .inf a => .inf (!a)
  | .fin a m e => .fin (!a) m e

/-- The value is a NaN. -/
def Val.isNan : Val → Bool
  | .nan => true
  | _ => false

/-- The value is finite and zero. -/
def Val.isZero : Val → Bool
  | .fin _ m _ => m == 0
  | _ => false

/-- x < y for values that are no NaN, −0 below +0 (the order of VMAX and VMIN, R68). -/
def Val.lt (x y : Val) : Bool :=
  match x, y with
  | .nan, _ => false
  | _, .nan => false
  | .inf a, .inf b => a && !b
  | .inf a, _ => a
  | _, .inf b => !b
  | .fin a m e, .fin b n d =>
    let z := min e d
    let v := (Val.fin a m e).scaled z
    let w := (Val.fin b n d).scaled z
    if v = w then (v == 0 && a && !b) else v < w

/-- One IEEE 754 binary32 operation's result and flags: rounding once, NV where a NaN comes of no NaN (R51, R52). -/
def f32Result (ftz : Bool) (operandsNan : Bool) (r : Val) : W32 × Flags :=
  let (c, f) := toF32 ftz r
  (c, f ||| (if r.isNan && !operandsNan then flagNV else 0))

/-- FP32 addition (R51). -/
def f32Add (ftz : Bool) (a b : W32) : W32 × Flags :=
  f32Result ftz ((f32 a).isNan || (f32 b).isNan) ((f32 a).add (f32 b))

/-- FP32 subtraction (R51). -/
def f32Sub (ftz : Bool) (a b : W32) : W32 × Flags :=
  f32Result ftz ((f32 a).isNan || (f32 b).isNan) ((f32 a).add (f32 b).neg)

/-- FP32 multiplication (R51). -/
def f32Mul (ftz : Bool) (a b : W32) : W32 × Flags :=
  f32Result ftz ((f32 a).isNan || (f32 b).isNan) ((f32 a).mul (f32 b))

/-- FP32 fused multiply-add, one rounding (R51). -/
def f32Fma (ftz : Bool) (a b c : W32) : W32 × Flags :=
  f32Result ftz ((f32 a).isNan || (f32 b).isNan || (f32 c).isNan) (((f32 a).mul (f32 b)).add (f32 c))

/-- BF16 addition of codes, rounded to nearest even (R51). -/
def bf16Add (ftz : Bool) (a b : Nat) : Nat × Flags :=
  let x := floatDecode fmtBF16 a
  let y := floatDecode fmtBF16 b
  let r := x.add y
  let (c, f) := floatEncode fmtBF16 .rne false ftz r
  (c, f ||| (if r.isNan && !(x.isNan || y.isNan) then flagNV else 0))

/-- INT32 addition, clamped, with ISAT (R51, R68). -/
def i32Add (a b : W32) : W32 × Flags :=
  let (v, f) := intEncode (-2 ^ 31) (2 ^ 31 - 1) .rne (Val.ofInt (a.toInt + b.toInt))
  (BitVec.ofInt 32 v, f)

/-- INT32 to FP32 with rounding (R48). -/
def f32OfInt (a : W32) : W32 × Flags := toF32 false (Val.ofInt a.toInt)

/-- FP32 to INT32, nearest even, clamped (R47). -/
def intOfF32 (a : W32) : W32 × Flags :=
  let (v, f) := intEncode (-2 ^ 31) (2 ^ 31 - 1) .rne (f32 a)
  (BitVec.ofInt 32 v, f)

/-- The larger by the VMAX rule (R68). -/
def f32Max (a b : W32) : W32 :=
  if (f32 a).isNan || (f32 b).isNan then BitVec.ofNat 32 (nanCode fmtFP32)
  else if (f32 a).lt (f32 b) then b else a

/-- The smaller by the VMIN rule (R68). -/
def f32Min (a b : W32) : W32 :=
  if (f32 a).isNan || (f32 b).isNan then BitVec.ofNat 32 (nanCode fmtFP32)
  else if (f32 b).lt (f32 a) then b else a

/-! Elements of a tensor (R28, R32, R35). -/

/-- The integer a code stands for. -/
def intDecode (f code : Nat) : Int :=
  if f = fmtINT4 then signedAt 4 (code % 16) else if f = fmtUINT8 then ((code % 256 : Nat) : Int) else signedAt 8 (code % 256)

/-- The value of an E8M0 scale code as a power of two; `none` for NaN (R35). -/
def scaleExp (e : Nat) : Option Int := if e = 0xFF then none else some ((e : Int) - 127)

/-- The value of an element code under its block scale (R35); BINT8 elements are i × 2⁻⁶. -/
def elemValue (f code scale : Nat) : Val :=
  let v : Val :=
    if f = fmtBINT8 then (let i := intDecode fmtINT8 code; .fin (decide (i < 0)) i.natAbs (-6))
    else if fmtInteger f then Val.ofInt (intDecode f code)
    else floatDecode (fmtElement f) code
  if fmtBlock f then
    match scaleExp scale with
    | none => .nan
    | some k => (match v with | .fin n m e => .fin n m (e + k) | other => other)
  else v

/-- Five trits of a trit byte, 0, +1 or −1; an invalid byte gives zeros (R37, R38). -/
def tritsOf (b : Nat) : List Int :=
  if 242 < b then [0, 0, 0, 0, 0]
  else (List.range 5).map (fun i => let d : Nat := (b / 3 ^ i) % 3; if d = 2 then (-1 : Int) else (d : Int))

/-! LOG8 (R50). -/

/-- ⌊log₂⌋ of a nonzero dyadic. -/
def dyLog2 (m : Nat) (e : Int) : Int := (m.log2 : Int) + e

/-- x^n ≥ 2^k for a positive dyadic x = m × 2^e. -/
def dyPowGe (m : Nat) (e : Int) (n : Nat) (k : Int) : Bool :=
  let t := e * n - k
  if 0 ≤ t then 1 ≤ m else 2 ^ (-t).toNat ≤ m ^ n

/-- LOG8 code of an FP32 value and its flags (R50): L is the nearest integer to −16 log₂|x|; a nonzero value that becomes
zero underflows (R52). -/
def log8Encode (x : Val) : Nat × Flags :=
  match x with
  | .nan => (0xFF, 0)
  | .inf neg => (if neg then 0x80 else 0x00, flagSAT)
  | .fin neg m e =>
    let s := if neg then 0x80 else 0
    if m = 0 then (0x7F, 0)
    else if dyGt m e 1 0 then (s, flagSAT)
    else
      -- L ≤ n exactly when |x|^32 ≥ 2^(−(2n + 1))
      let fits : Option Nat := (List.range 127).find? (fun n => dyPowGe m e 32 (-(2 * (n : Int) + 1)))
      match fits with
      | some n => (s + n, 0)
      | none => (0x7F, flagUF)

/-- Round a value between two exact bounds: the FP32 magnitude k × 2^q nearest to 2^(a/b), by comparing b-th powers. The
candidate k runs by bisection over 25 bits. -/
def pow2Root (a : Int) (b : Nat) : Nat × Int :=
  let fl := a.fdiv b
  let r := (a - fl * b).toNat
  -- largest k in [2^23, 2^24) with k^b ≤ 2^(23 b + r)
  let k := (List.range 24).foldl (fun k i =>
    let c := k + 2 ^ (23 - i)
    if c ^ b ≤ 2 ^ (23 * b + r) then c else k) 0
  -- round up when (2k + 1)^b < 2^(24 b + r)
  let k := if (2 * k + 1) ^ b < 2 ^ (24 * b + r) then k + 1 else k
  (k, fl - 23)

/-- The FP32 value of a LOG8 code (R50): 2^(−L/16) rounded correctly. -/
def log8Decode (code : Nat) : Val :=
  let l := code % 128
  let neg := code.testBit 7
  if l = 127 then (if neg then .nan else .fin false 0 0)
  else let (k, q) := pow2Root (-(l : Int)) 16; .fin neg k q

/-- LOG8 multiplication on codes (R50); a product of nonzero values that becomes zero underflows (R52). -/
def log8Mul (a b : Nat) : Nat × Flags :=
  if a = 0xFF ∨ b = 0xFF then (0xFF, 0)
  else
    let l := a % 128 + b % 128
    if 127 ≤ l then (0x7F, if a % 128 = 127 ∨ b % 128 = 127 then 0 else flagUF)
    else (l + (if a.testBit 7 != b.testBit 7 then 0x80 else 0), 0)

/-! Correctly rounded functions of R68. -/

/-- A value known to lie strictly between lo × 2^q and (lo + 1) × 2^q as a dyadic with a sticky bit below. -/
def stickyVal (neg : Bool) (lo : Nat) (q : Int) (exact : Bool) : Val :=
  .fin neg (2 * lo + (if exact then 0 else 1)) (q - 1)

/-- Integer square root, bit by bit. -/
def isqrt (n : Nat) : Nat :=
  (List.range (n.log2 / 2 + 1)).foldl (fun r i =>
    let c := r + 2 ^ (n.log2 / 2 - i)
    if c * c ≤ n then c else r) 0

/-- 1 / x as a value that rounds as the exact quotient does. -/
def rcpVal : Val → Val
  | .nan => .nan
  | .inf a => .fin a 0 0
  | .fin a m e =>
    if m = 0 then .inf a
    else
      let n := 2 ^ (m.log2 + 64)
      stickyVal a (n / m) (-(e + m.log2 + 64)) (n % m == 0)

/-- x / y as a value that rounds as the exact quotient does. -/
def Val.div (x y : Val) : Val :=
  match x, y with
  | .nan, _ => .nan
  | _, .nan => .nan
  | .inf _, .inf _ => .nan
  | .inf a, .fin b _ _ => .inf (a != b)
  | .fin a _ _, .inf b => .fin (a != b) 0 0
  | .fin a m e, .fin b n d =>
    if n = 0 then (if m = 0 then .nan else .inf (a != b))
    else if m = 0 then .fin (a != b) 0 0
    else
      let k := n.log2 + 64
      stickyVal (a != b) ((m <<< k) / n) (e - d - k) ((m <<< k) % n == 0)

/-- FP32 division (R51, R87). -/
def f32Div (ftz : Bool) (a b : W32) : W32 × Flags :=
  f32Result ftz ((f32 a).isNan || (f32 b).isNan) ((f32 a).div (f32 b))

/-- 1 / √x as a value that rounds as the exact one does; negative input gives NaN. -/
def rsqrtVal : Val → Val
  | .nan => .nan
  | .inf a => if a then .nan else .fin false 0 0
  | .fin a m e =>
    if m = 0 then .inf a
    else if a then .nan
    else
      -- x = m' × 2^(2h), m' = m or 2m;  1/√x = 2^(−h) / √m' = √(2^(2t) / m') × 2^(−t−h)
      let odd := e % 2 != 0
      let m' := if odd then 2 * m else m
      let h := if odd then (e - 1) / 2 else e / 2
      let t := m'.log2 + 64
      let n := 2 ^ (2 * t) / m'
      let r := isqrt n
      stickyVal false r (-(t : Int) - h) (r * r == n && 2 ^ (2 * t) % m' == 0)

/-- Fraction bits carried by the exponential and the logarithm: more than the worst case of binary32 needs, so that the
last rounding is that of the exact function. -/
def fnBits : Nat := 160

/-- Fixed-point 2^(2^(−i)) for i from 1 to n, by successive square roots, fnBits fraction bits. -/
def roots : Nat → Nat → List Nat
  | 0, _ => []
  | n + 1, x => let r := isqrt (x <<< fnBits); r :: roots n r

/-- Square-root table of 2: entry i is 2^(2^(−i−1)) in fixed point. -/
def rootTable : List Nat := roots fnBits (2 <<< fnBits)

/-- 2^x for a fraction x in [0, 1) given as fnBits bits: product of the roots of its set bits, in fixed point. -/
def exp2Frac (x : Nat) : Nat :=
  ((List.range fnBits).zip rootTable).foldl (fun acc p =>
    if x.testBit (fnBits - 1 - p.1) then (acc * p.2) >>> fnBits else acc) (1 <<< fnBits)

/-- 2^x as a value that rounds as the exact one does. A nonzero x too small to move 1 rounds as 1 with a sticky bit. -/
def exp2Val : Val → Val
  | .nan => .nan
  | .inf a => if a then .fin false 0 0 else .inf false
  | .fin a m e =>
    if m = 0 then .fin false 1 0
    else
      let v := (Val.fin a m e)
      if dyGt m e 512 0 then (if a then .fin false 1 (-600) else .fin false 1 600)
      else if dyLog2 m e < -60 then
        (if a then .fin false (2 ^ 61 - 1) (-61) else .fin false (2 ^ 61 + 1) (-61))
      else
        let z : Int := min e (-(fnBits : Int))
        let x := v.scaled z
        let one : Int := 2 ^ (-z).toNat
        let fl := x.fdiv one
        let fr := (x - fl * one).toNat >>> ((-z).toNat - fnBits)
        if fr = 0 ∧ x = fl * one then .fin false 1 fl
        else stickyVal false (exp2Frac fr) (fl - fnBits) false

/-- Fraction bits of log₂ of a fixed-point number in [1, 2), by repeated squaring: n bits, most significant first. -/
def log2Bits : Nat → Nat → Nat → Nat
  | 0, _, acc => acc
  | n + 1, x, acc =>
    let y := (x * x) >>> fnBits
    if 2 <<< fnBits ≤ y then log2Bits n (y / 2) (2 * acc + 1) else log2Bits n y (2 * acc)

/-- log₂ x as a value that rounds as the exact one does; negative input gives NaN and ±0 gives −∞ (R68). -/
def log2Val : Val → Val
  | .nan => .nan
  | .inf a => if a then .nan else .inf false
  | .fin a m e =>
    if m = 0 then .inf true
    else if a then .nan
    else
      let l := m.log2
      let k := (l : Int) + e
      if m = 2 ^ l then Val.ofInt k
      else
        let fr := log2Bits 100 ((m <<< fnBits) >>> l) 0
        let v : Int := k * 2 ^ 100 + fr
        if 0 ≤ v then stickyVal false v.natAbs (-100) false
        else stickyVal true (v.natAbs - 1) (-100) false

/-! Random words (R46). -/

/-- One Philox-4x32 round. -/
def philoxRound (c : Nat × Nat × Nat × Nat) (k0 k1 : Nat) : Nat × Nat × Nat × Nat :=
  let (c0, c1, c2, c3) := c
  let p0 := 0xD2511F53 * c0
  let p1 := 0xCD9E8D57 * c2
  ((p1 / 2 ^ 32) ^^^ c1 ^^^ k0, p1 % 2 ^ 32, (p0 / 2 ^ 32) ^^^ c3 ^^^ k1, p0 % 2 ^ 32)

/-- Philox-4x32 with n rounds left. -/
def philoxRounds : Nat → Nat × Nat × Nat × Nat → Nat → Nat → Nat × Nat × Nat × Nat
  | 0, c, _, _ => c
  | n + 1, c, k0, k1 => philoxRounds n (philoxRound c k0 k1) ((k0 + 0x9E3779B9) % 2 ^ 32) ((k1 + 0xBB67AE85) % 2 ^ 32)

/-- Output word w of Philox-4x32-10. -/
def philox (k0 k1 c0 c1 c2 c3 w : Nat) : Nat :=
  let (a, b, c, d) := philoxRounds 10 (c0 % 2 ^ 32, c1 % 2 ^ 32, c2 % 2 ^ 32, c3 % 2 ^ 32) (k0 % 2 ^ 32) (k1 % 2 ^ 32)
  [a, b, c, d].getD w 0

/-- Random word of element i of a conversion (R46): the two seeds, the conversion identifier, the token position. -/
def convWord (imageSeed requestSeed convId token i : Nat) : Nat :=
  philox ((imageSeed % 2 ^ 32) ^^^ (requestSeed % 2 ^ 32)) ((imageSeed >>> 32) ^^^ (requestSeed >>> 32))
    (i / 4) convId token 0 (i % 4)

/-! Conversions of a row (R36, R47, R48). -/

/-- Stochastic rounding may be selected for targets of 8 bits or fewer, LOG8 and TRIT5 excepted (R45). -/
def stochAllowed (f : Nat) : Bool := (3 ≤ f && f ≤ 0x0E)

/-- One element to a plain format: code and flags. -/
def elemEncode (f : Nat) (mode : RMode) (sat ftz : Bool) (x : Val) : Nat × Flags :=
  if f = fmtLOG8 then log8Encode x
  else if f = fmtINT8 then (let r := intEncode (-128) 127 mode x; (wrapTo 8 r.1, r.2))
  else if f = fmtUINT8 then (let r := intEncode 0 255 mode x; (wrapTo 8 r.1, r.2))
  else if f = fmtINT4 then (let r := intEncode (-8) 7 mode x; (wrapTo 4 r.1, r.2))
  else floatEncode f mode sat ftz x

/-- emax of a block format's elements (R36). -/
def blockEmax (f : Nat) : Int := if f = fmtBFP8 then 8 else if f = fmtBINT8 then 0 else 2

/-- One element of a block under scale 2^k: saturates to the largest finite element (R36). -/
def blockElem (f : Nat) (k : Int) (mode : RMode) (x : Val) : Nat × Flags :=
  match x with
  | .fin neg m e =>
    if f = fmtBINT8 then
      -- element i stands for i × 2⁻⁶
      let r := intEncode (-128) 127 mode (.fin neg m (e - k + 6))
      (wrapTo 8 r.1, if r.2 = flagISAT then flagSAT else r.2)
    else floatEncode (fmtElement f) mode true false (.fin neg m (e - k))
  | _ => (0, 0)

/-- A subnormal FP32 magnitude, flushed where the kernel selects it (R36). -/
def flushSource (ftz : Bool) (x : Val) : Val :=
  match x with
  | .fin neg m e => if ftz ∧ m ≠ 0 ∧ dyLog2 m e < -126 then .fin neg 0 0 else x
  | _ => x

/-- A block of up to 32 values to a block format: scale code, element codes, flags (R36). `mode j` is the rounding of element
j. DESIGN CHOICE (log entry 81): an infinity that makes the scale 0xFF raises no NV, and a source that is flushed raises no UF. -/
def blockEncode (f : Nat) (mode : Nat → RMode) (ftz : Bool) (xs : List Val) : Nat × List Nat × Flags :=
  let xs := xs.map (flushSource ftz)
  let special := xs.any (fun x => match x with | .fin _ _ _ => false | _ => true)
  if special then (0xFF, xs.map (fun _ => 0), 0)
  else
    let top := xs.foldl (fun (a : Option Int) x => match x with
      | .fin _ m e => if m = 0 then a else some (match a with | none => dyLog2 m e | some t => max t (dyLog2 m e))
      | _ => a) none
    match top with
    | none => (0x00, xs.map (fun x => (floatEncode (fmtElement f) .rne true false x).1), 0)
    | some t =>
      let code := (t - blockEmax f + 127)
      let code := if code < 0 then 0 else code.toNat
      let es := (xs.zip (List.range xs.length)).map (fun p => blockElem f ((code : Int) - 127) (mode p.2) p.1)
      (code, es.map (·.1), es.foldl (fun a e => a ||| e.2) 0)

/-- A row to a block format: scale codes of its blocks, element codes, flags. -/
def blockRow (f : Nat) (mode : Nat → RMode) (ftz : Bool) : Nat → Nat → List Val → List Nat × List Nat × Flags
  | 0, _, _ => ([], [], 0)
  | n + 1, i, xs =>
    let (c, es, g) := blockEncode f (fun j => mode (i + j)) ftz (xs.take 32)
    let (cs, rest, h) := blockRow f mode ftz n (i + 32) (xs.drop 32)
    (c :: cs, es ++ rest, g ||| h)

/-- A row of values to a format: scale codes (block formats only), element codes, flags. -/
def rowEncode (f : Nat) (mode : Nat → RMode) (sat ftz : Bool) (xs : List Val) : List Nat × List Nat × Flags :=
  if fmtBlock f then blockRow f mode ftz ((xs.length + 31) / 32) 0 xs
  else
    let es := (xs.zip (List.range xs.length)).map (fun p => elemEncode f (mode p.2) sat ftz p.1)
    ([], es.map (·.1), es.foldl (fun a e => a ||| e.2) 0)

/-- Pack element codes of w bits, ascending from bit 0 (R33), into bytes. -/
def packBits (w : Nat) (codes : List Nat) : Bytes :=
  leBytes ((w * codes.length + 7) / 8)
    ((codes.zip (List.range codes.length)).foldl (fun a p => a + (p.1 % 2 ^ w) <<< (w * p.2)) 0)

end Sys2Proof.Machine
end

