-- ==== Sys2Proof/Machine/Flags.lean ====
section
/-! DEFINITION. The arithmetic status word (R52) and lane-wise results with the flags they raise. -/

namespace Sys2Proof.Machine

/-- Raise flags in a Matrix Core's status word: they are sticky (R52). -/
def raiseCore (n : Nat) (f : Flags) (s : State) : State :=
  let c := s.core n
  s.setCore n { c with astat := c.astat ||| BitVec.ofNat 16 (f % 128) }

/-- Raise flags in a Whippet's status word (R52). -/
def raiseWhip (w : Nat) (f : Flags) (s : State) : State :=
  let x := s.whip w
  s.setWhip w { x with astat := x.astat ||| BitVec.ofNat 16 (f % 128) }

/-- Results of lanes and the flags of all of them. -/
def gatherFlags (l : List (W32 × Flags)) : List W32 × Flags := (l.map (·.1), l.foldl (fun a x => a ||| x.2) 0)

/-- A unary operation on every lane. -/
def lanes1 (f : W32 → W32 × Flags) (a : List W32) : List W32 × Flags := gatherFlags (a.map f)

/-- A binary operation on every lane. -/
def lanes2 (f : W32 → W32 → W32 × Flags) (a b : List W32) : List W32 × Flags := gatherFlags (List.zipWith f a b)

/-- A ternary operation on every lane. -/
def lanes3 (f : W32 → W32 → W32 → W32 × Flags) (a b c : List W32) : List W32 × Flags :=
  gatherFlags ((a.zip (b.zip c)).map (fun p => f p.1 p.2.1 p.2.2))

/-- One level of the lane tree: adjacent pairs combined (R51). -/
def treeLevel (f : W32 → W32 → W32 × Flags) : List W32 → List W32 × Flags
  | a :: b :: r =>
    let (x, g) := f a b
    let (xs, h) := treeLevel f r
    (x :: xs, g ||| h)
  | l => (l, 0)

/-- The nine-level tree over 512 lanes (R51). -/
def laneTree (f : W32 → W32 → W32 × Flags) : Nat → List W32 → W32 × Flags
  | 0, l => (l.headD 0, 0)
  | n + 1, l =>
    let (l', g) := treeLevel f l
    let (x, h) := laneTree f n l'
    (x, g ||| h)

end Sys2Proof.Machine
end

