-- ==== Sys2Proof/Machine/Frames.lean ====
section
/-! DEFINITION. Strings, frame headers and the path of a frame (R125 to R131, R144 to R146): what every chapter that sends
over the lightbed shares. -/

namespace Sys2Proof.Machine

/-- Primary string from site s to site d (R125). -/
def primaryString (src dst : Nat) : Nat := 28 * src + dst - (if src < dst then 1 else 0)

/-- A site's replica of the beat counter, aligned by the hub over its primary string (R256). It runs free while that string is OUT,
FROZEN or DOWN (R271); aligned replicas, within 0.5 ns of each other, are held as the counter itself (log entry 20). -/
def replica (s : State) (site : Nat) : Nat :=
  let t := s.str (primaryString hubSite site)
  if site ≠ hubSite ∧ 3 ≤ t.state ∧ t.state ≤ 5 then Sys2Proof.Config.replicaFree site s.beat else s.beat

/-- Second string from site s to site d, where the pair has one (R125). -/
def secondString (src dst : Nat) : Option Nat :=
  match siteDie src, siteStack dst, siteStack src, siteDie dst with
  | some c, some k, _, _ => some (812 + 8 * c + k)
  | _, _, some k, some c => some (940 + 16 * k + c)
  | _, _, _, _ =>
    if src = hubSite ∧ 25 ≤ dst then some (1068 + (dst - 25))
    else if dst = hubSite ∧ 25 ≤ src then some (1072 + (src - 25))
    else none

/-- Transmitting and receiving site of a string; a bus names its owner twice (R125, R141). -/
def stringEnds (n : Nat) : Nat × Nat :=
  if n < 812 then
    let src := n / 28
    let d := n % 28
    (src, if src ≤ d then d + 1 else d)
  else if n < 940 then (dieSite ((n - 812) / 8), stackSite ((n - 812) % 8))
  else if n < 1068 then (stackSite ((n - 940) / 16), dieSite ((n - 940) % 16))
  else if n < 1072 then (hubSite, 25 + (n - 1068))
  else if n < 1076 then (25 + (n - 1072), hubSite)
  else if n < 1101 then (n - 1076, n - 1076)
  else (n - 1101, n - 1101)

/-- A broadcast bus (R125). -/
def isBus (n : Nat) : Bool := 1076 ≤ n

/-- The string of the same index for the opposite pair (R126). -/
def reverseString (n : Nat) : Nat :=
  if n < 812 then primaryString (stringEnds n).2 (stringEnds n).1
  else if n < 940 then 940 + 16 * ((n - 812) % 8) + (n - 812) / 8
  else if n < 1068 then 812 + 8 * ((n - 940) % 16) + (n - 940) / 16
  else if n < 1072 then n + 4
  else if n < 1076 then n - 4
  else n

/-- String of a frame from site to site by its unit address (R126). -/
def pickString (src dst unit : Nat) : Nat :=
  match secondString src dst with
  | some n => if unit % 2 = 1 then n else primaryString src dst
  | none => primaryString src dst

/-! Frame headers (R129). -/

def hLevel (h : BitVec 96) : Nat := fieldAt h 0 2
def hClass (h : BitVec 96) : Nat := fieldAt h 2 2
def hOp (h : BitVec 96) : Nat := fieldAt h 4 4
def hDest (h : BitVec 96) : Nat := fieldAt h 8 5
def hSrc (h : BitVec 96) : Nat := fieldAt h 13 5
def hTag (h : BitVec 96) : Nat := fieldAt h 18 4
def hSeq (h : BitVec 96) : Nat := fieldAt h 22 8
def hAck (h : BitVec 96) : Nat := fieldAt h 30 8
def hCrClass (h : BitVec 96) : Nat := fieldAt h 38 2
def hCrCount (h : BitVec 96) : Nat := fieldAt h 40 8
def hRelay (h : BitVec 96) : Bool := fieldAt h 48 1 == 1
def hLength (h : BitVec 96) : Nat := fieldAt h 49 6
def hOffset (h : BitVec 96) : Nat := fieldAt h 55 6
def hUnit (h : BitVec 96) : Nat := fieldAt h 61 35

/-- Ops of R130. -/
def opIDLE : Nat := 0x0
def opCTRL : Nat := 0x1
def opWRITE : Nat := 0x2
def opRPART : Nat := 0x3
def opREADREQ : Nat := 0x4
def opREADDATA : Nat := 0x5
def opFLAG : Nat := 0x6
def opBARRIER : Nat := 0x7
def opSTATUS : Nat := 0x8
def opBCAST : Nat := 0x9
def opLAUNCH : Nat := 0xA

/-- Class of each op: 0 Request, 1 Forward, 2 Collective, 3 Reply (R130). -/
def opClass (op : Nat) : Nat :=
  if op = opWRITE then 1 else if op = opRPART then 2 else if op = opREADDATA ∨ op = opSTATUS then 3 else 0

/-- Ops that carry a sequence number (R130). -/
def opSequenced (op : Nat) : Bool := (2 ≤ op && op ≤ 8) || op == 0xA

/-- A header with level 1, its class by the op; the link fields (link_tag, seq, ack, credits) are zero until it is sent. -/
def mkHdr (op dest src length offset unit : Nat) (relay : Bool) : BitVec 96 :=
  BitVec.ofNat 96 (1 + opClass op * 2 ^ 2 + op * 2 ^ 4 + (dest % 32) * 2 ^ 8 + (src % 32) * 2 ^ 13
    + (if relay then 2 ^ 48 else 0) + (length % 64) * 2 ^ 49 + (offset % 64) * 2 ^ 55 + (unit % 2 ^ 35) * 2 ^ 61)

/-- Put the link fields into a header (R129). -/
def withLink (h : BitVec 96) (string seq ack crClass crCount : Nat) : BitVec 96 :=
  BitVec.ofNat 96 (h.toNat % 2 ^ 18 + (string % 16) * 2 ^ 18 + (seq % 256) * 2 ^ 22 + (ack % 256) * 2 ^ 30
    + (crClass % 4) * 2 ^ 38 + (crCount % 256) * 2 ^ 40 + h.toNat / 2 ^ 48 * 2 ^ 48)

/-- CRC-32 of IEEE 802.3 over a frame's header and payload (R128). -/
def frameCrc (h : BitVec 96) (payload : Bytes) : Nat :=
  crcOf 32 0x04C11DB7 0xFFFFFFFF true true 0xFFFFFFFF (bvBytes h ++ fitBytes 64 payload)

/-- A frame with its CRC (R128). -/
def mkFrame (h : BitVec 96) (payload : Bytes) : Frame :=
  { hdr := h, payload := fitBytes 64 payload, crc := BitVec.ofNat 32 (frameCrc h payload) }

/-! Lanes (R127, R128). -/

/-- Bits of a frame in order, the first in bit 0. -/
def frameBits (f : Frame) : Nat :=
  f.hdr.toNat + leNat (fitBytes 64 f.payload) * 2 ^ 96 + f.crc.toNat * 2 ^ 608

/-- Bit times of a frame on each lane, at full width or reduced (R128). -/
def laneLen (full : Bool) : Nat := if full then 40 else 54

/-- Bits of a frame that logical lane j carries, the first in bit 0: 40 on each of 16 lanes at full width; at reduced width 54 on
each of 12, the last of which ends in 8 zero bits (R128). -/
def laneBits (full : Bool) (x j : Nat) : Nat := if full then bitsAt x (40 * j) 40 else bitsAt x (54 * j) (if j < 11 then 54 else 46)

/-- Key bits of a scrambler x³¹ + x²⁸ + 1 over some bit times, the first in bit 0, and its state after them (R127). -/
def scramble : Nat → BitVec 31 → Nat × BitVec 31
  | 0, st => (0, st)
  | k + 1, st =>
    let b : Bool := st.getLsbD 30 ^^ st.getLsbD 27
    let (key, next) := scramble k (st <<< 1 ||| (if b then 1 else 0))
    ((if b then 1 else 0) + 2 * key, next)

/-- The string runs at full width: its map serves 16 lanes. -/
def Str.full (t : Str) : Bool := (t.map.take 16).all (fun l => l ≤ 16)

/-- What each physical line of a string carries of a frame, each logical lane scrambled by its own scrambler; the scramblers follow
the lanes, and before the end of training there are none (R127, R128). -/
def wireOf (t : Str) (f : Frame) : List (Nat × Nat) :=
  let x := frameBits f
  let k := laneLen t.full
  ((List.range 16).filter (fun j => t.map.getD j 0x1F ≤ 16)).map (fun j =>
    (t.map.getD j 0, laneBits t.full x j ^^^ (match t.scr[j]? with
      | some st => (scramble k st).1
      | none => 0)))

/-- A frame goes on a string's lines, and its scramblers run on (R127, R128). -/
def emitFrame (n : Nat) (f : Frame) (s : State) : State :=
  let t := s.str n
  let s := s.emit (.frame n f (wireOf t f))
  s.setStr n { t with scr := t.scr.map (fun st => (scramble (laneLen t.full) st).2) }

/-! Paths. -/

/-- The string can carry frames, or will once its retrain or training ends. -/
def stringUsable (s : State) (n : Nat) : Bool := let k := (s.str n).state; k ≤ 2 || k == 4 || k == 6

/-- The relay of an OUT pair (R145): the hub, or the lowest rim site with two legs not OUT where the hub is an end. -/
def relaySite (s : State) (src dst : Nat) : Option Nat :=
  let legs (r : Nat) : Bool := [primaryString src r, primaryString r dst].all (fun n => (s.str n).state ≤ 2 || (s.str n).state == 6)
  if src ≠ hubSite ∧ dst ≠ hubSite then (if legs hubSite then some hubSite else none)
  else ([25, 26, 27, 28].filter (fun r => r ≠ src && r ≠ dst)).find? legs

/-- A string's traffic is relayed: it is OUT, or back from OUT while an open window uses its relay legs (R144, R145). -/
def strOut (s : State) (n : Nat) : Bool := (s.str n).state == 3 || (s.str n).waiting

/-- First string of a frame's path and whether it is relayed; `none` where the pair has no path (R144 to R146). -/
def pathOf (s : State) (src dst unit : Nat) : Option (Nat × Bool) :=
  let n := pickString src dst unit
  if (s.str n).state = 5 then none
  else if strOut s n then (relaySite s src dst).map (fun r => (primaryString src r, true))
  else some (n, false)

/-- Change an access that a rim die carries out. -/
def modOp (n : Nat) (f : RimOp → RimOp) (s : State) : State :=
  { s with rmem := { s.rmem with ops := s.rmem.ops.map (fun x => if x.n = n then f x else x) } }

/-- One WRITE frame of a rim die's access is acknowledged: 60 ns after the last of them the packet's ACK may leave (R225). -/
def opFrameDone (n : Nat) (s : State) : State :=
  modOp n (fun x => { x with left := x.left - 1, doneAt := if x.left ≤ 1 then some (s.beat + 60) else x.doneAt }) s

/-- A rim die's access fails with a status and an error code: a read is over at once (R228). -/
def opFail (n status code : Nat) (s : State) : State :=
  modOp n (fun x => { x with
    failed := some (x.failed.getD (status, code)), doneAt := if x.read then some s.beat else x.doneAt }) s

/-- Number that stands for a rim die's access in place of a core in a frame's send channel. -/
def rimChan : Nat := 64

/-- Release one frame of a core's send channel (R139), or of a rim die's access (R225). -/
def chanFrameDone (core id : Nat) (s : State) : State :=
  if core = rimChan then opFrameDone id s
  else
    let c := s.core core
    let step : SendChan → SendChan := fun ch => if ch.id = id then { ch with left := ch.left - 1 } else ch
    s.setCore core { c with sends := (c.sends.map step).filter (fun ch => 0 < ch.left) }

/-- A transfer ends with path-lost (R145, R147): counted, and its send channel is released. -/
def pathLost (chan : Option (Nat × Nat)) (s : State) : State :=
  let s := s.count Obj.pathLostTransfers 1
  match chan with
  | some (core, id) => chanFrameDone core id (if core = rimChan then opFail id 0x01 0 s else s)
  | none => s

/-- A frame joins a string's transmitter (R134). -/
def enqueueFrame (n : Nat) (f : TxFrame) (s : State) : State :=
  let t := s.str n
  let c := opClass (hOp f.hdr)
  s.setStr n { t with txq := tset c (tget [] c t.txq ++ [{ f with n := t.enq }]) t.txq, enq := t.enq + 1 }

/-- Hand a frame to its first string's transmitter, over the relay where its string is OUT (R145); without a path it ends
with path-lost. `win` is the window it belongs to. -/
def sendWinFrame (op src dst length offset unit : Nat) (payload : Bytes) (slots : Option W16) (chan : Option (Nat × Nat))
    (win : Option Nat) (s : State) : State :=
  match pathOf s src dst unit with
  | none => pathLost chan s
  | some (n, relay) =>
    enqueueFrame n { hdr := mkHdr op dst src length offset unit relay, payload := fitBytes 64 payload, slots, chan, win } s

/-- A frame that belongs to no window. -/
def sendFrame (op src dst length offset unit : Nat) (payload : Bytes) (slots : Option W16) (chan : Option (Nat × Nat))
    (s : State) : State := sendWinFrame op src dst length offset unit payload slots chan none s

/-- Write bytes to a site as WRITE frames, one for each 64-byte unit they touch (R129, R130). -/
def sendWrite (fuel src dst addr : Nat) (data : Bytes) (slots : Option W16) (chan : Option (Nat × Nat)) (s : State) : State :=
  match fuel with
  | 0 => s
  | fuel + 1 =>
    if data.isEmpty then s
    else
      let off := addr % 64
      let n := min (64 - off) data.length
      let payload := List.replicate off 0 ++ data.take n
      let s := sendFrame opWRITE src dst (n - 1) off (addr / 64) payload slots chan s
      sendWrite fuel src dst (addr + n) (data.drop n) slots chan s

/-- Receive buffer of a frame on string n (R133): its class, 16 + sub-buffer for Collective, 32 + core for a partial on the
second leg of a relay. -/
def rxBuffer (n : Nat) (h : BitVec 96) : Nat :=
  if hOp h = opRPART then
    (if hRelay h && (stringEnds n).1 != hSrc h then 32 + hLength h else 16 + hLength h % 4)
  else opClass (hOp h)

/-- A frame leaves its receive buffer: one credit is freed, to be reported (R133). -/
def freeCredit (n buf : Nat) (s : State) : State :=
  let t := s.str n
  s.setStr n { t with
    freed := tset buf (tget 0 buf t.freed + 1) t.freed
    unreported := if t.unreported.contains buf then t.unreported else t.unreported ++ [buf] }

/-! Windows by handle. -/

/-- The window with a handle. -/
def State.win (s : State) (id : Nat) : Option Win := s.wins.find? (fun w => w.id == id)

/-- Change the window with a handle. -/
def State.modWin (s : State) (id : Nat) (f : Win → Win) : State :=
  { s with wins := s.wins.map (fun w => if w.id = id then f w else w) }

/-- End a participant's window with an exit code (R76): it stops issuing and drains; the window takes the first code that
is not PEER. -/
def endCore (n code : Nat) (s : State) : State :=
  let c := s.core n
  if c.state ≠ 1 then s
  else
    let s := s.setCore n { c with state := 2, exit := code, mx := none, outs := [], waitBeat := none, checks := []
                                  faultBundle := if code = 0 ∨ code = 6 then 0xFFFFFF else c.bundle }
    match c.win with
    | none => s
    | some id => s.modWin id (fun w => if w.code = 0 ∧ code ≠ 6 then { w with code } else w)

/-- Exit codes of R76. -/
def exitLATE : Nat := 1
def exitHAZARD : Nat := 2
def exitFORMAT : Nat := 3
def exitBOUNDS : Nat := 4
def exitPATHLOST : Nat := 5
def exitPEER : Nat := 6
def exitMEMERR : Nat := 7
def exitWATCHDOG : Nat := 8
def exitSHUTDOWN : Nat := 9

/-- End an open window with a code at every participant that still issues (R76). -/
def endWindow (id code : Nat) (s : State) : State :=
  match s.win id with
  | none => s
  | some w => if w.phase ≠ 2 then s else (bitList 64 w.parts.toNat).foldl (fun s n => endCore n code s) s

/-! Addresses (R131). -/

/-- Base of a core's SRAM, of die-shared SRAM, of the Soundboard and of DRAM homes in a compute site's map (R131). -/
def coreSramBase (c : Nat) : Nat := (c % 4) * 0x4000000
def dieSramBase : Nat := 0x10000000
def sbBase : Nat := 0x20000000
def dramHomeBase : Nat := 0x10000000000

/-- Size of core SRAM and of die-shared SRAM, bytes (R62). -/
def coreSramSize : Nat := 48 * 2 ^ 20
def dieSramSize : Nat := 64 * 2 ^ 20

/-- Locked partition of an image slot on a die: first MiB and MiB (R117). -/
def partitionOf (s : State) (die slot : Nat) : Option (Nat × Nat) :=
  ((s.die die).parts.find? (fun p => p.slot = slot)).map (fun p => (p.base, p.mib))

/-- Where a Soundboard address lies (R116): bank port, layer, and row within the bank port, of its 128-byte unit. -/
def sbBank (a : Nat) : Nat × Nat × Nat :=
  let u := a / 128
  (u % 64, u % 64 / 16, u / 64)

/-- A double-bit error is known in a word of the range (R112). -/
def rangeBad (s : State) (key len : Nat) : Bool := s.bad.any (fun b => b < key + len && key < b + 8)

/-- Store bytes; a word written whole loses its known error (R112). -/
def storeClean (key : Nat) (b : Bytes) (s : State) : State :=
  let s := s.store key b
  { s with bad := s.bad.filter (fun w => !(key ≤ w && w + 8 ≤ key + b.length)) }

/-- A read of die-shared SRAM or the Soundboard by an address of the die's map: an error that the code corrects is counted, and
which reads meet one is the world's (R112, log entry 88). -/
def sramRead (addr : Nat) (s : State) : State :=
  let hit := Sys2Proof.Config.readCorrected s.free
  let s := s.drawn 1
  if !hit ∨ addr < dieSramBase then s
  else s.count (if addr < sbBase then Obj.sramCorrected else Obj.sbCorrected) 1

/-- A read has met an uncorrectable word of die-shared SRAM or the Soundboard (R112). Core SRAM has no count. -/
def sramBad (site addr : Nat) (s : State) : State :=
  if addr < dieSramBase then s
  else countLog (if addr < sbBase then Obj.sramUncorrected else Obj.sbUncorrected) 0 0 site 0 (leBytes 8 addr) s

end Sys2Proof.Machine
end

