-- ==== Sys2Proof/Machine/Reduce.lean ====
section
/-! DEFINITION. Receive-side reduction (R114, R138): partials of a chunk added in ascending core order, the sum written
over its target when the last contribution is in. -/

namespace Sys2Proof.Machine

/-- Sum of two 64-byte partials in a reduce type, 0 FP32, 1 BF16, 2 INT32, and the flags raised; the kernels' flush-to-zero
setting holds (R51). -/
def addPartials (ftz : Bool) (type : Nat) (a b : Bytes) : Bytes × Flags :=
  let lanes : List (Bytes × Flags) :=
    if type = 1 then
      (List.range 32).map (fun i =>
        let (c, f) := bf16Add ftz (leAt a (2 * i) 2) (leAt b (2 * i) 2)
        (leBytes 2 c, f))
    else
      (List.range 16).map (fun i =>
        let x : W32 := BitVec.ofNat 32 (leAt a (4 * i) 4)
        let y : W32 := BitVec.ofNat 32 (leAt b (4 * i) 4)
        let (w, f) := if type = 2 then i32Add x y else f32Add ftz x y
        (leBytes 4 w.toNat, f))
  (lanes.flatMap (·.1), lanes.foldl (fun f x => f ||| x.2) 0)

/-- The reduce target of an open window that holds a chunk's key. -/
def reduceTarget (s : State) (die key : Nat) : Option RedTarget :=
  (s.wins.flatMap (fun w => if w.phase = 2 then w.plan else [])).find? (fun t =>
    t.die == die && t.addr ≤ key && key < t.addr + t.len)

/-- The staging of a chunk, new if none is held. -/
def redChunk (s : State) (t : RedTarget) (key : Nat) : RedChunk :=
  ((s.die t.die).chunks.find? (fun c => c.win == t.win && c.addr == key)).getD
    { win := t.win, addr := key, added := 0, sum := [], wait := [] }

/-- Keep a chunk's staging. -/
def setChunk (die : Nat) (c : RedChunk) (s : State) : State :=
  let d := s.die die
  s.setDie die { d with chunks := d.chunks.filter (fun x => !(x.win == c.win && x.addr == c.addr)) ++ [c] }

/-- Lowest contributing core not yet added. -/
def nextContributor (mask added : W64) : Option Nat :=
  (List.range 64).find? (fun i => mask.getLsbD i && !added.getLsbD i)

/-- The frame that carried a partial leaves the place it waited in (R133, R139). -/
def releasePartial (core kind id : Nat) (s : State) : State :=
  if kind = 0 then freeCredit id (32 + core) s else if kind = 2 then freeCredit id (16 + core % 4) s
  else chanFrameDone core id s

/-- Flush-to-zero setting of a window's kernels (R57). -/
def winFlush (s : State) (id : Nat) : Bool := ((s.win id).map (fun w => fieldAt w.desc 34 1 == 1)).getD false

/-- Flags of a reduction at a die are raised in every core of the die that takes part in the window (DESIGN CHOICE, log entry
82; a rim die has none). -/
def raiseSum (die win : Nat) (f : Flags) (s : State) : State :=
  if f = 0 ∨ 16 ≤ die then s
  else (List.range 4).foldl (fun s j => if (s.core (4 * die + j)).win = some win then raiseCore (4 * die + j) f s else s) s

/-- Two waiting partials stand in one queue: those of one core, and on the die itself those of one send channel (R136, R138). -/
def samePath (x y : RedPos) : Bool := x.core == y.core && (x.kind != 1 || y.kind != 1 || x.id == y.id)

/-- The partial that may be added next at a die: at the head of its queue, and of the lowest contributing core that its chunk
still lacks (R138). -/
def ripePartial (s : State) (die : Nat) : Option RedPos :=
  let q := (s.die die).redq
  q.find? (fun x =>
    q.find? (samePath x) == some x &&
    (match reduceTarget s die x.addr with
     | some t => nextContributor t.mask (redChunk s t x.addr).added == some x.core
     | none => false))

/-- Every chunk of a target holds all its contributions. -/
def targetDone (s : State) (t : RedTarget) : Bool :=
  (List.range ((t.len + 63) / 64)).all (fun i => (redChunk s t (t.addr + 64 * i)).added == t.mask)

/-- Add one waiting partial to its chunk's sum (R138): the first one is the initial value. -/
def addPartial (die : Nat) (x : RedPos) (t : RedTarget) (s : State) : State :=
  let c := redChunk s t x.addr
  match c.wait.find? (fun w => w.1 == x.core) with
  | none => s
  | some (_, kind, id, payload) =>
    let (sum, f) := if c.added = 0 then (payload, 0) else addPartials (winFlush s t.win) t.type c.sum payload
    let c := { c with added := c.added ||| BitVec.ofNat 64 (2 ^ x.core), sum, wait := c.wait.filter (fun w => w.1 != x.core) }
    let s := setChunk die c s
    let s := s.setDie die { s.die die with redq := (s.die die).redq.erase x }
    releasePartial x.core kind id (raiseSum die t.win f (s.count Obj.rpartFramesAdded 1))

/-! Flags and arrivals behind sums (R70, R115, R136). -/

/-- Targets on a die whose sums are not yet written and to which one of the given cores has contributed: window and key. A sum that
waits for the port arbiter is one of them (R140). -/
def openSums (s : State) (die : Nat) (who : Nat → Bool) : List (Nat × Nat) :=
  ((s.die die).chunks.filterMap (fun c =>
    if (List.range 64).any (fun i => who i && (c.added.getLsbD i || c.wait.any (fun w => w.1 == i))) then
      (reduceTarget s die c.addr).map (fun t => (t.win, t.addr))
    else none) ++
  ((s.die die).inq.filter (fun w => w.string == 1126)).filterMap (fun w =>
    (reduceTarget s die (memKey (dieSite die) w.addr)).bind (fun t =>
      if (List.range 64).any (fun i => who i && t.mask.getLsbD i) then some (t.win, t.addr) else none))).eraseDups

/-- Inbound writes of a die from a site that still wait for the port arbiter (R136, R140). -/
def openWrites (s : State) (die src : Nat) : List Nat := ((s.die die).inq.filter (fun w => w.src == src)).map (·.n)

/-- A flag write in order of its tick; of two in one tick the larger value stays (R115). -/
def addFlag (x : Nat × Nat × W32) : List (Nat × Nat × W32) → List (Nat × Nat × W32)
  | [] => [x]
  | y :: r =>
    if x.1 < y.1 then x :: y :: r
    else if x.1 = y.1 ∧ x.2.1 = y.2.1 then (if y.2.2 < x.2.2 then x else y) :: r
    else y :: addFlag x r

/-- Record an arrival of core `who` at a barrier in core `at_` (R70). -/
def arrive (at_ bar who : Nat) (s : State) : State :=
  let c := s.core at_
  s.setCore at_ { c with arrivals := tset bar (tget 0 bar c.arrivals ||| BitVec.ofNat 64 (2 ^ who)) c.arrivals }

/-- Tick of a core by the beat counter: beats since launch at its die's clock, less held and stretched cycles (R73, R75). -/
def beatTick (s : State) (n : Nat) : Nat :=
  let c := s.core n
  (s.beat - c.launch) * (s.die (coreDie n)).clock / 1000 - c.holds - c.stretch

/-- A flag write reaches its core at tick `at_`, an arrival from another die its core now: it counts for the lowest core of
that die in the barrier's mask that has not arrived, since the frame names no core. -/
def applyFlag (at_ : Nat) (f : FlagWait) (s : State) : State :=
  match f.src with
  | none =>
    let c := s.core f.core
    s.setCore f.core { c with flagIn := addFlag (at_, f.num, f.value) c.flagIn }
  | some d =>
    let c := s.core f.core
    let mask : W64 := ((c.win.bind s.win).map (fun w => w.barriers.getD f.num 0)).getD 0
    match (List.range 4).find? (fun j =>
        mask.getLsbD (4 * d + j) && !(tget 0 f.num c.arrivals).getLsbD (4 * d + j)) with
    | some j => arrive f.core f.num (4 * d + j) s
    | none => s

/-- A flag write or arrival takes effect at once, or waits for the sums and writes ahead of it (R136). -/
def holdFlag (die : Nat) (f : FlagWait) (at_ : Nat) (s : State) : State :=
  if f.deps.isEmpty && f.writes.isEmpty then applyFlag at_ f s
  else s.setDie die { s.die die with flagWait := (s.die die).flagWait ++ [f] }

/-- Sums or writes are done or given up: flags and arrivals that waited for them alone take effect. -/
def settleFlags (die : Nat) (gone : Nat × Nat → Bool) (done : Nat → Bool) (s : State) : State :=
  let d := s.die die
  let ws := d.flagWait.map (fun f => { f with deps := f.deps.filter (fun x => !gone x), writes := f.writes.filter (fun x => !done x) })
  let free (f : FlagWait) : Bool := f.deps.isEmpty && f.writes.isEmpty
  let s := s.setDie die { d with flagWait := ws.filter (fun f => !free f) }
  (ws.filter free).foldl (fun s f => applyFlag (beatTick s f.core) f s) s

/-- Bytes reach a die's memory (R113): reads of die-shared SRAM that they meet can no longer be joined. -/
def landWrite (die key : Nat) (b : Bytes) (s : State) : State :=
  let d := s.die die
  let hit (m : MergeRead) : Bool := key < m.addr + m.len && m.addr < key + b.length
  let s := if d.merges.any hit then s.setDie die { d with merges := d.merges.filter (fun m => !hit m) } else s
  storeClean key b s

/-- A finished sum of a window reaches its target, and the flags that waited for it go on. -/
def landSum (die win addr : Nat) (data : Bytes) (s : State) : State :=
  let s := landWrite die addr data s
  let s := s.modWin win (fun w => { w with wrote := w.wrote ++ [(addr, data.length)] })
  settleFlags die (fun x => x == (win, addr)) (fun _ => false) (s.count Obj.reduceTargetsCompleted 1)

/-- The window has a participant on a die: writes there go through its slots (R140). A rim die has no port arbiter. -/
def sumSlots (s : State) (die win : Nat) : Bool :=
  16 ≤ die || ((s.win win).map (fun w => (bitList 64 w.parts.toNat).any (fun n => coreDie n == die))).getD false

/-- A finished target is written in one transfer and its staging freed (R114): through its window's slots, or, on a die where the
window has no participant, once the port arbiter grants it (R140). -/
def reduceComplete (t : RedTarget) (s : State) : State :=
  if !targetDone s t then s
  else
    let data := ((List.range ((t.len + 63) / 64)).flatMap (fun i => (redChunk s t (t.addr + 64 * i)).sum)).take t.len
    let d := s.die t.die
    let s := s.setDie t.die { d with chunks := d.chunks.filter (fun c =>
      !(c.win == t.win && decide (t.addr ≤ c.addr) && decide (c.addr < t.addr + t.len))) }
    if sumSlots s t.die t.win then landSum t.die t.win t.addr data s
    else
      let addr := t.addr - memKey (dieSite t.die) 0
      let d := s.die t.die
      s.setDie t.die { d with
        inq := d.inq ++ [{ n := d.inN, port := if addr < sbBase then 0 else 1, src := dieSite t.die, addr, data, string := 1126, buf := t.win }]
        inN := d.inN + 1 }

/-- Add every partial of a die that may be added, and write the targets that this completes (R138). -/
def drainSums : Nat → Nat → State → State
  | 0, _, s => s
  | fuel + 1, die, s =>
    match ripePartial s die with
    | none => s
    | some x =>
      match reduceTarget s die x.addr with
      | none => s
      | some t => drainSums fuel die (reduceComplete t (addPartial die x t s))

/-- A partial reaches the reduction unit of a die (R138): kept, added in order, and the target written when complete. A
partial for no target of an open window is dropped and counted (R131). -/
def rpartArrive (die key core kind id : Nat) (payload : Bytes) (s : State) : State :=
  match reduceTarget s die key with
  | none => releasePartial core kind id (s.count Obj.refusedAddresses 1)
  | some t =>
    let c := redChunk s t key
    if c.added.getLsbD core ∨ !t.mask.getLsbD core ∨ c.wait.any (fun w => w.1 == core) then
      releasePartial core kind id (s.count Obj.refusedAddresses 1)
    else
      let s := setChunk die { c with wait := c.wait ++ [(core, kind, id, fitBytes 64 payload)] } s
      let s := s.setDie die { s.die die with redq := (s.die die).redq ++ [{ core, kind, id, win := t.win, addr := key }] }
      drainSums ((s.die die).redq.length + 1) die s

/-- A closing window's partials are discarded and their credits returned (R114, R138); partials of other windows that stood
behind them go on. -/
def discardPartials (win : Nat) (s : State) : State :=
  (List.range 20).foldl (fun s die =>
    let d := s.die die
    let waits := d.chunks.flatMap (fun c => if c.win = win then c.wait else [])
    if d.chunks.any (fun c => c.win == win) || d.flagWait.any (fun f => f.deps.any (fun x => x.1 == win)) then
      let s := s.setDie die { d with
        chunks := d.chunks.filter (fun c => c.win != win), redq := d.redq.filter (fun x => x.win != win) }
      let s := settleFlags die (fun x => x.1 == win) (fun _ => false)
        (waits.foldl (fun s w => releasePartial w.1 w.2.1 w.2.2.1 s) s)
      drainSums ((s.die die).redq.length + 1) die s
    else s) s

end Sys2Proof.Machine
end

