-- ==== Sys2Proof/Machine/Sched.lean ====
section
/-! DEFINITION. What the Sheepdog, the loader and the serving front end share: images and their descriptors (R57, R84, R95,
R250), pages of DRAM (R177, R180 to R182, R186), the Soundboard directory (R118), serving records (R240, R242), and the end
of a context (R105, R247, R248). -/

namespace Sys2Proof.Machine

/-! Images. -/

/-- The image in a slot, while it holds one. -/
def imageOf (s : State) (slot : Nat) : Option Image := (s.imgSlot slot).image

/-- n bytes of the manifest at byte `off` (R250). -/
def imgMf (im : Image) (off n : Nat) : Nat := fieldAt im.manifest (8 * off) (8 * n)

def imgSeed (im : Image) : Nat := imgMf im 0 8
def imgLockedMib (im : Image) : Nat := imgMf im 24 2
def imgStageKib (im : Image) : Nat := imgMf im 26 2
def imgDramPages (im : Image) : Nat := imgMf im 28 4
def imgKvBytes (im : Image) : Nat := imgMf im 32 4
def imgPrefillNs (im : Image) : Nat := imgMf im 36 4
/-- Stochastic rounding reaches KV (R249, R250). -/
def imgKvStochastic (im : Image) : Bool := (imgMf im 40 1).testBit 0

/-- The first routine descriptor with a code (R83, R84). -/
def imgRoutine (im : Image) (code : Nat) : Option Bytes := im.routines.find? (fun b => leAt b 0 1 == code)

/-- The routine descriptor with an identifier (R84). -/
def imgRoutineById (im : Image) (id : Nat) : Option Bytes := im.routines.find? (fun b => leAt b 4 4 == id)

/-- Shards of a descriptor (R84). -/
def shardsOf (d : Bytes) : Nat := leAt d 8 1

/-- The window with a window_id (R57). -/
def imgWindow (im : Image) (id : Nat) : Option WindowImg := im.windows.find? (fun w => fieldAt w.desc 0 32 == id)

def winMask (d : BitVec 512) : Nat := fieldAt d 96 64
def winTicks (d : BitVec 512) : Nat := fieldAt d 64 32
def winFtz (d : BitVec 512) : Bool := fieldAt d 34 1 == 1

/-! Units that may take part (R97, R101). -/

/-- A compute die serves: neither off nor in functional reset, nor waiting for its partitions (R119, R332, R333). -/
def dieUp (s : State) (d : Nat) : Bool := !(s.die d).off && (s.die d).reset.isNone && !(s.die d).sbLost

/-- A variant's window in its slot's image. -/
def variantWindow (s : State) (slot : Nat) (v : BitVec 64) : Option WindowImg :=
  (imageOf s slot).bind (fun im => imgWindow im (fieldAt v 0 32))

/-- Participants of a variant of kinds 0 to 3. -/
def variantParts (s : State) (slot : Nat) (v : BitVec 64) : Nat := ((variantWindow s slot v).map (fun w => winMask w.desc)).getD 0

/-- Compute dies of a kind-4 variant (R95). -/
def variantDies (v : BitVec 64) : Nat := fieldAt v 32 16

/-- The core is claimed by an item taken and not yet run, other than item `self`. -/
def claimed (s : State) (n self : Nat) : Bool :=
  s.sched.items.any (fun it => it.id != self && it.status == 1 && it.kind < 4 &&
    ((it.taken.map (fun v => (variantParts s it.slot v).testBit n)).getD false))

/-- A core is free for an item (R73 step 1): in no window and no test, not in the map, not due for a test (R356), its die
up, and claimed by nobody else. -/
def coreFree (s : State) (n self : Nat) : Bool :=
  (s.core n).state == 0 && !unitDisabled s n && dieUp s (coreDie n) && s.kat.core != some n && !claimed s n self &&
    !s.wins.any (fun w => w.parts.getLsbD n)

/-- A Whippet is enabled and idle. -/
def whipIdle (s : State) (w : Nat) : Bool := (s.whip w).state == 0 && !unitDisabled s (64 + w) && dieUp s (whipDie w)

/-- Idle Whippets of a die, ascending. -/
def idleWhips (s : State) (d : Nat) : List Nat := ((List.range 16).map (fun j => 16 * d + j)).filter (whipIdle s)

/-- The variant's units are all enabled in the map (R96, R101). -/
def variantEnabled (s : State) (slot kind : Nat) (v : BitVec 64) : Bool :=
  if kind < 4 then
    let m := variantParts s slot v
    m != 0 && (bitList 64 m).all (fun n => !unitDisabled s n)
  else
    let need := ((imageOf s slot).bind (fun im => imgRoutineById im (fieldAt v 0 32))).map shardsOf
    match need with
    | none => false
    | some k => (bitList 16 (variantDies v)).any (fun d =>
        k ≤ (((List.range 16).map (fun j => 16 * d + j)).filter (fun w => !unitDisabled s (64 + w))).length)

/-! DRAM pages. -/

/-- Stack of a page (R177). -/
def pageStack (p : Nat) : Nat := (p % 8) ^^^ (p / 8 % 8) ^^^ (p / 64 % 8)

/-- Stack-local offset of a home address (R177). -/
def homeOffset (g : Nat) : Nat := g / 65536 / 8 * 65536 + g % 65536

/-- Channel of a home address (R177): bits [11:8] of its offset. -/
def homeChannel (g : Nat) : Nat := bitsAt (homeOffset g) 8 4

/-- Memory key of a home address: its stack's site and offset. -/
def homeKey (g : Nat) : Nat := memKey (stackSite (pageStack (g / 65536))) (homeOffset g)

/-- Pages of the pool (R180). -/
def poolPages : Nat := 12566528

/-- A stack has failed (R186). -/
def stackFailed (s : State) (k : Nat) : Bool := tget 0 k s.dram.stackSt == 2

/-- A page may be allocated: its stack has not failed and it is not poisoned. -/
def pageGood (s : State) (p : Nat) : Bool := !stackFailed s (pageStack p) && !s.dram.poisoned.contains p

/-- Pages of stack k among pages 0 to n − 1: one in each run of eight (R177). -/
def stackPagesBelow (k n : Nat) : Nat := n / 8 + ((List.range (n % 8)).filter (fun j => pageStack (n / 8 * 8 + j) == k)).length

/-- Unreferenced prefix pages: they count as free (R181). -/
def reusablePages (s : State) : Nat := ((s.dram.blocks.filter (fun b => b.refs == 0)).map (fun b => b.pages.length)).sum

/-- Pages on the free list. -/
def listedPages (s : State) : Nat :=
  let good := (List.range 8).filter (fun k => !stackFailed s k)
  let ahead := (good.map (fun k => stackPagesBelow k poolPages - stackPagesBelow k s.dram.fresh)).sum
  let bad := (s.dram.poisoned.filter (fun p => s.dram.fresh ≤ p && !stackFailed s (pageStack p))).length
  ahead - bad + (s.dram.freed.filter (pageGood s)).length

/-- `dram_free_pages` (R187). -/
def freePages (s : State) : Nat := listedPages s + reusablePages s

/-- `dram_pool_pages` (R187). -/
def goodPool (s : State) : Nat :=
  (((List.range 8).filter (fun k => !stackFailed s k)).map (fun k => stackPagesBelow k poolPages)).sum

/-- Head of the free list: the lowest page never used, then the page freed longest ago (R181); the page, and the state
without it. -/
def takePage (s : State) : Option (Nat × State) :=
  -- an aligned run of eight pages holds one page of each stack, so one run more than there are poisoned pages is enough
  let fuel := 8 * (s.dram.poisoned.length + 2)
  match ((List.range fuel).map (fun i => s.dram.fresh + i)).find? (fun p => p < poolPages && pageGood s p) with
  | some p => some (p, { s with dram := { s.dram with fresh := p + 1 } })
  | none =>
    match s.dram.freed.find? (pageGood s) with
    | some p => some (p, { s with dram := { s.dram with freed := s.dram.freed.erase p } })
    | none => none

/-- Directory entries for a page leave every cache, dirty data and fills discarded (R182). -/
def dropCached (p : Nat) (s : State) : State :=
  { s with
    dies := s.dies.map (fun (x : Nat × Die) => (x.1, { x.2 with
      dir := x.2.dir.filter (fun (e : Nat × CacheEnt) => e.2.page != p)
      fills := x.2.fills.filter (fun (f : Nat × Nat) => f.1 != p)
      late := x.2.late.filter (fun (w : Nat × Bytes) => w.1 / 65536 != p) }))
    tags := s.tags.filter (fun t => !(t.purpose == 0 && t.arg == p))
    dram := { s.dram with owner := terase p s.dram.owner } }

/-- A page is freed: its cached copies are invalidated and it joins the tail of the free list (R181, R182). -/
def freePage (p : Nat) (s : State) : State :=
  let s := dropCached p s
  { s with dram := { s.dram with used := terase p s.dram.used, freed := s.dram.freed ++ [p] } }

/-- The least recently used unreferenced prefix block. -/
def oldestBlock (s : State) : Option PrefixBlock :=
  (s.dram.blocks.filter (fun b => b.refs == 0)).foldl (fun (o : Option PrefixBlock) b =>
    match o with
    | none => some b
    | some x => if b.used < x.used then some b else some x) none

/-- A prefix block leaves the table and its pages are freed (R182, R249). -/
def dropBlock (id : Nat) (s : State) : State :=
  match s.dram.blocks.find? (fun b => b.id == id) with
  | none => s
  | some b =>
    let s := { s with dram := { s.dram with blocks := s.dram.blocks.filter (fun x => x.id != id) } }
    b.pages.foldl (fun s p => freePage p s) s

/-- Allocate a page for a use, freeing unreferenced prefix blocks where the free list is empty (R182). -/
def allocPage (use : PageUse) : Nat → State → Option (Nat × State)
  | 0, _ => none
  | fuel + 1, s =>
    match takePage s with
    | some (p, s) => some (p, { s with dram := { s.dram with used := tset p use s.dram.used } })
    | none =>
      match oldestBlock s with
      | none => none
      | some b => allocPage use fuel ((dropBlock b.id s).count Obj.prefixBlocksReclaimed 1)

/-- Allocate n pages, all or none. -/
def allocPages (use : PageUse) : Nat → State → Option (List Nat × State)
  | 0, s => some ([], s)
  | n + 1, s =>
    match allocPage use (s.dram.blocks.length + 1) s with
    | none => none
    | some (p, s) => (allocPages use n s).map (fun x => (p :: x.1, x.2))

/-- Image data of a slot is not being reloaded: its work items do not wait for it (R186). -/
def dataReady (s : State) (slot : Nat) : Bool := !s.dram.lost.any (fun (p : Nat × Nat) => p.1 == slot)

/-- Pages for n tokens of KV (R182). -/
def kvPages (im : Image) (n : Nat) : Nat := ceilDiv (n * imgKvBytes im) 65536

/-! Serving records. -/

/-- The open session with a number. -/
def sessOf (s : State) (num : W32) : Option Sess := s.serve.sessions.find? (fun q => q.num == num)

/-- Change a session. -/
def modSess (num : W32) (f : Sess → Sess) (s : State) : State :=
  { s with serve := { s.serve with sessions := s.serve.sessions.map (fun q => if q.num = num then f q else q) } }

/-- The ack field of a record: the last number accepted (R240); with none accepted yet the spec gives no value. -/
def ackField (s : State) (q : Sess) : Nat := if q.rxNext = 0 then s.freeWord.toNat else q.rxNext - 1

/-- The clear header of a record of the module (R240). -/
def serveHeader (kind tenant session seq ack : Nat) : Bytes :=
  leBytes 1 1 ++ leBytes 1 kind ++ leBytes 2 tenant ++ leBytes 4 session ++ leBytes 8 (seq % 2 ^ 63) ++ leBytes 8 ack

/-- The nonce of a record of the module: session, then seq with bit 63 set (R240). -/
def serveNonce (session seq : Nat) : Bytes := leBytes 4 session ++ leBytes 8 (2 ^ 63 + seq % 2 ^ 63)

/-- A serving port carries sessions (R232, R239, R286): its mode is not off, its link is up, the state keeps serving ports
up, and it is not the port that a Retriever takes. -/
def servePortUp (s : State) (p : Nat) : Bool :=
  s.obj (Obj.servePortModeS + p) != 0 && s.serve.links.getD p false && decide (3 ≤ s.dev.state ∧ s.dev.state ≤ 7)
    && !(p == 1 && s.obj Obj.retrieverEnable == 1)

/-- A record leaves for the client with the session's ack (R240, R242). -/
def serveOut (num : W32) (seq kind : Nat) (body : Bytes) (s : State) : State :=
  match sessOf s num with
  | none => s
  | some q =>
    let s := if servePortUp s q.port then 
        s.emit (.serve q.port (serveHeader kind q.tenant num.toNat seq (ackField s q)) (serveNonce num.toNat seq) body) else s
    (modSess num (fun q => { q with due := false }) s).drawn 1

/-- A numbered record of a session: it takes the next number, is held until acknowledged, and leaves while at most
`serve_window_records` are unacknowledged (R242). -/
def serveSend (num : W32) (kind : Nat) (body : Bytes) (s : State) : State :=
  match sessOf s num with
  | none => s
  | some q =>
    let fits := decide (q.unacked.length < s.obj Obj.serveWindowRecords)
    let s := modSess num (fun q => { q with
      txNext := q.txNext + 1
      unacked := q.unacked ++ [{ seq := q.txNext, kind, body, sent := if fits then some s.beat else none }]
      progress := if q.unacked.isEmpty then s.beat else q.progress }) s
    if fits then serveOut num q.txNext kind body s else s

/-- A REFUSE record in a session (R241, R244). -/
def refuse (num : W32) (req code : Nat) (s : State) : State :=
  let s := serveSend num 0x08 (leBytes 4 req ++ leBytes 2 code) s
  s.count Obj.serveRefusals 1

/-- A closing session whose records are all acknowledged, that owes no ACK, and whose requests have ended, is over (R242). -/
def closeSession (num : W32) (s : State) : State :=
  match sessOf s num with
  | none => s
  | some q =>
    if q.closing ∧ q.unacked.isEmpty ∧ !q.due ∧ !s.serve.ctxs.any (fun c => c.session == num) then
      { s with serve := { s.serve with
        sessions := s.serve.sessions.filter (fun q => q.num != num), asm := s.serve.asm.filter (fun a => a.session != num) } }
    else s

/-! Contexts. -/

/-- The context with a number. -/
def State.ctx (s : State) (id : Nat) : Option Ctx := s.serve.ctxs.find? (fun c => c.id == id)

/-- Change a context. -/
def modCtx (id : Nat) (f : Ctx → Ctx) (s : State) : State :=
  { s with serve := { s.serve with ctxs := s.serve.ctxs.map (fun c => if c.id = id then f c else c) } }

/-- Streams in the active set (R245). -/
def activeCount (s : State) : Nat := (s.serve.ctxs.filter (fun c => c.phase == 2)).length

/-- The resident context, waiting for a place, that joins next: deadline beat, then arrival (R245). -/
def nextToJoin (s : State) : Option Ctx :=
  (s.serve.ctxs.filter (fun c => c.phase == 1)).foldl (fun (o : Option Ctx) c =>
    match o with
    | none => some c
    | some x => if c.deadline < x.deadline || (c.deadline == x.deadline && c.arrival < x.arrival) then some c else some x) none

/-- Waiting contexts join while fewer than 256 streams are active (R245). -/
def joinActive : Nat → State → State
  | 0, s => s
  | fuel + 1, s =>
    if 256 ≤ activeCount s then s
    else
      match nextToJoin s with
      | none => s
      | some c => joinActive fuel (modCtx c.id (fun c => { c with phase := 2 }) s)

/-- Body of a FINAL record (R247). -/
def finalBody (c : Ctx) (reason cause endBeat : Nat) : Bytes :=
  let n (x : Nat) := if c.inputCounted then x else 0
  leBytes 4 c.req.toNat ++ leBytes 1 reason ++ leBytes 1 cause ++ leBytes 2 (if reason = 4 then 0x1902 else 0)
    ++ leBytes 4 (n c.prompt.length) ++ leBytes 4 (n c.output.length) ++ leBytes 4 c.reused ++ leBytes 4 c.chunks
    ++ leBytes 8 c.firstBeat.toNat ++ leBytes 8 endBeat ++ leBytes 8 0

/-- The context gives up its pages and its references to prefix blocks (R182). -/
def releasePages (c : Ctx) (s : State) : State :=
  let s := c.pages.foldl (fun s p => freePage p s) s
  { s with dram := { s.dram with blocks := s.dram.blocks.map (fun b =>
    if c.blocks.contains b.id then { b with refs := b.refs - 1, used := s.beat } else b) } }

/-- A context leaves every stream set and its prefill items leave the queues. -/
def dropStreams (id : Nat) (s : State) : State :=
  { s with sched := { s.sched with
    sets := (s.sched.sets.map (fun (p : Nat × StepSet) =>
      (p.1, { p.2 with over_ := if p.2.streams.any (·.1 == id) && !p.2.over_.contains id then p.2.over_ ++ [id] else p.2.over_ })))
    items := s.sched.items.filter (fun it => !(it.kind == 0 && it.ctx == some id && it.status != 1)) } }

/-- A request ends (R105, R247, R248): FINAL is sent, the counts go to the tenant's tally, pages are freed, and a waiting
stream may join the active set. -/
def endCtx (id reason cause : Nat) (s : State) : State :=
  match s.ctx id with
  | none => s
  | some c =>
    let s := serveSend c.session 0x07 (finalBody c reason cause s.beat) s
    let outp := if c.inputCounted then c.output.length else 0
    let old := tget (0, 0) c.tenant s.serve.counts
    let s := { s with serve := { s.serve with
      counts := tset c.tenant (old.1, old.2 + outp) s.serve.counts
      ctxs := s.serve.ctxs.filter (fun x => x.id != id) } }
    let s := dropStreams id (releasePages c s)
    let s := if reason = 4 then countLog Obj.deadlineExpiries 2 0x1902 0xFF 0 (leBytes 4 c.req.toNat) s
      else if reason = 5 then logEvent Obj.contextsResident 2 0 0xFF 0 (leBytes 1 cause) s else s
    closeSession c.session (joinActive 256 s)

/-- A request is to end at its next step boundary: a failure prevails over a cancellation, which prevails over a deadline
(R254). -/
def markEnding (id reason cause : Nat) (s : State) : State :=
  modCtx id (fun c =>
    match c.ending with
    | none => { c with ending := some (reason, cause) }
    | some (5, _) => c
    | some (r, _) => if reason = 5 ∨ (reason = 3 ∧ r = 4) then { c with ending := some (reason, cause) } else c) s

/-- The context takes part in a step under way. -/
def inStep (s : State) (id : Nat) : Bool :=
  s.sched.sets.any (fun (p : Nat × StepSet) => p.2.streams.any (·.1 == id) && !p.2.over_.contains id)

/-- A prefill item of the context is under way. -/
def inPrefill (s : State) (id : Nat) : Bool :=
  s.sched.items.any (fun it => it.kind == 0 && it.ctx == some id && it.status == 1)

/-- A context whose end is asked for ends at once where it is between steps (R105). -/
def settleEnding (id : Nat) (s : State) : State :=
  match s.ctx id with
  | none => s
  | some c =>
    match c.ending with
    | none => s
    | some (r, k) => if inStep s id || inPrefill s id then s else endCtx id r k s

/-- End requests that meet a condition, at their next step boundary. -/
def endRequests (p : Ctx → Bool) (reason cause : Nat) (s : State) : State :=
  ((s.serve.ctxs.filter p).map (·.id)).foldl (fun s id => settleEnding id (markEnding id reason cause s)) s

/-- An image slot becomes Faulty: its requests fail with cause 2 (R77, R253) or another cause (R186). -/
def slotFaulty (slot cause : Nat) (s : State) : State :=
  let x := s.imgSlot slot
  if x.state = 2 ∨ x.state = 3 then
    let s := s.setImgSlot slot { x with state := 4 }
    let s := logEvent (slotKey Obj.slotState slot) 2 0 0xFF slot [] s
    endRequests (fun c => c.slot == slot) 5 cause s
  else s

/-- After a change of the map: requests of work items left without an enabled variant end with cause 3 (R254). -/
def failUnlaunchable (s : State) : State :=
  let dead := s.sched.items.filter (fun it => it.status != 1 && it.status != 3 && !it.variants.any (variantEnabled s it.slot it.kind))
  let s := { s with sched := { s.sched with items := s.sched.items.filter (fun it => !dead.any (fun d => d.id == it.id)) } }
  dead.foldl (fun s it =>
    match it.ctx with
    | some c => endRequests (fun x => x.id == c) 5 3 s
    | none =>
      let ids := ((tget {} it.set_ s.sched.sets).streams).map (·.1)
      let s := ids.foldl (fun s id => markEnding id 5 3 s) s
      let s := { s with sched := { s.sched with
        items := s.sched.items.filter (fun x => x.set_ != it.set_ || x.status == 1), sets := terase it.set_ s.sched.sets } }
      ids.foldl (fun s id => settleEnding id s) s) s
/-- A unit is isolated in the field, and requests that no enabled variant can serve end (R22, R254). -/
def isolate (unit : Nat) (s : State) : State := failUnlaunchable (isolateUnit unit s)

/-- The due core test (R356 step 1, R357): where none is due or running, the first queued one of the lowest kind whose die
serves. -/
def settleKat (s : State) : State :=
  if s.kat.core.isSome then s
  else
    let q := s.kat.queue.filter (fun r => r.unit < 64 && dieUp s (coreDie r.unit))
    match [1, 2, 3, 4].findSome? (fun p => q.find? (fun r => r.prio == p)) with
    | some r => { s with kat := { s.kat with core := some r.unit } }
    | none => s

/-- A known-answer test joins the module's queue (R357): 1 after the rerun limit, 2 for `isolation_clear`, 3 for
`kat_request`, 4 periodic. -/
def queueKat (unit prio : Nat) (answer : Option DictHdr) (s : State) : State :=
  settleKat { s with kat := { s.kat with queue := s.kat.queue ++ [{ unit, prio, answer }] } }

end Sys2Proof.Machine
end

