-- ==== Sys2Proof/Machine/Dram.lean ====
section
/-! DEFINITION. The DRAM stacks (R176 to R187): training, refresh, correction, lost pages and failed stacks. -/

namespace Sys2Proof.Machine

/-- Page at run q of eight of stack k: the inverse of R177. -/
def stackPage (k q : Nat) : Nat := 8 * q + (k ^^^ (q % 8) ^^^ (q / 8 % 8))

/-- Home address of a stack-local offset (R177). -/
def offsetHome (k off : Nat) : Nat := 65536 * stackPage k (off / 65536) + off % 65536

/-- The condition of R288 bit 4: a stack failed, image data being reloaded, or a die's partitions being reloaded (R333). -/
def dramCondition (s : State) : Bool :=
  s.dram.stackSt.any (fun (p : Nat × Nat) => p.2 == 2) || !s.dram.lost.isEmpty || s.dies.any (fun (p : Nat × Die) => p.2.sbLost)

/-- Bring R288 bit 4 to its condition. -/
def settleDram (s : State) : State :=
  if (s.obj Obj.stateReasons).testBit 4 = dramCondition s then s else setReason 4 (dramCondition s) s

/-- Bytes that an image places in page i of its own pages (R250, kind 0x09). -/
def imagePage (im : Image) (i : Nat) : List (Nat × Bytes) :=
  im.sections.filterMap (fun x =>
    if x.kind.toNat = 9 ∧ x.dest.toNat ≤ i then
      let part := (x.data.drop ((i - x.dest.toNat) * 65536)).take 65536
      if part.isEmpty then none else some (0, part)
    else none)

/-- Page i of an image is written at a page of the pool; bytes no section covers are undefined (R250). -/
def writeImagePage (im : Image) (i page : Nat) (s : State) : State :=
  let s := (s.store (homeKey (65536 * page)) (s.freeBytes 65536)).drawn 65536
  (imagePage im i).foldl (fun s x => storeClean (homeKey (65536 * page) + x.1) x.2 s) s

/-- Position of a value in a list. -/
def indexIn (x : Nat) (l : List Nat) : Option Nat := (List.range l.length).find? (fun i => l.getD i (x + 1) == x)

/-- A lost image page is replaced by page q, to be reloaded (R186). -/
def movePage (slot p i q : Nat) (x : ImgSlot) (s : State) : State :=
  let s := s.setImgSlot slot { x with pages := lset i q x.pages }
  settleDram { s with dram := { s.dram with lost := s.dram.lost.filter (fun e => e != (slot, p)) ++ [(slot, q)] } }

/-- A page of a resident image is lost: a fresh page takes its place and waits for its data; with none to be had the slot
is Faulty with cause 1 (R186). -/
def loseImagePage (slot p : Nat) (s : State) : State :=
  match indexIn p (s.imgSlot slot).pages with
  | none => s
  | some i =>
    match allocPage (.image slot) (s.dram.blocks.length + 1) s with
    | none => slotFaulty slot 1 s
    | some (q, t) => movePage slot p i q (s.imgSlot slot) t

/-- What a lost page of the pool does to what it holds (R186). A page that is still sound (one whose contents alone were lost,
R332) is freed; a poisoned one, or one of a failed stack, is not. -/
def losePage (p : Nat) (s : State) : State :=
  let use := tfind p s.dram.used
  let s := dropCached p s
  let freed := if use.isSome && pageGood s p then s.dram.freed ++ [p] else s.dram.freed
  let s := { s with dram := { s.dram with used := terase p s.dram.used, freed } }
  match use with
  | some (.context id) =>
    let s := modCtx id (fun c => { c with pages := c.pages.erase p }) s
    endRequests (fun c => c.id == id) 5 1 s
  | some (.prefix_ b) =>
    let s := { s with dram := { s.dram with blocks := s.dram.blocks.map (fun x =>
      if x.id = b then { x with pages := x.pages.erase p } else x) } }
    let s := endRequests (fun c => c.blocks.contains b) 5 1 s
    dropBlock b s
  | some (.image slot) => loseImagePage slot p s
  | none => s

/-- Trace records held in a unit of the firmware area are lost and counted (R186). The spec does not say where in the area the
buffer stands, so which of its records, and whether any, are free; a unit of 64 bytes meets at most three of 48 bytes. -/
def loseTrace (s : State) : State :=
  let len := s.beagle.buffer.length
  let at_ := s.freeWord.toNat % (len + 1)
  let n := min ((Sys2Proof.Config.freeWord (s.free + 1)).toNat % 4) (len - at_)
  let s := { s with beagle := { s.beagle with buffer := s.beagle.buffer.take at_ ++ s.beagle.buffer.drop (at_ + n) } }
  (s.drawn 2).count Obj.beagleLost n

/-- A 64-byte unit is known to hold an uncorrectable error, until it is written (R185, R186). -/
def markBad (key : Nat) (s : State) : State :=
  let words := (List.range 8).map (fun i => key + 8 * i)
  { s with bad := s.bad ++ words.filter (fun w => !s.bad.contains w) }

/-- An uncorrectable read of a home address (R186): counted; its unit is answered so until it is written; the first of a pool page
poisons the page. A unit of the firmware area is rebuilt, and may lose trace records. -/
def uncorrectable (g : Nat) (s : State) : State :=
  let p := g / 65536
  let k := pageStack p
  let s := countLog Obj.dramUncorrected 0 0 (stackSite k) 0 (leBytes 8 g) s
  if poolPages ≤ p then loseTrace s
  else
  let s := markBad (homeKey (g / 64 * 64)) s
  if s.dram.poisoned.contains p then s
  else
    let s := { s with dram := { s.dram with poisoned := s.dram.poisoned ++ [p] } }
    losePage p (s.count Obj.dramPagesPoisoned 1)

/-- A fill in progress from a page ends without its data. -/
def dropFill (p : Nat) (s : State) : State :=
  { s with
    dies := s.dies.map (fun (x : Nat × Die) => (x.1, { x.2 with
      fills := x.2.fills.filter (fun (f : Nat × Nat) => f.1 != p)
      late := x.2.late.filter (fun (f : Nat × Bytes) => f.1 / 65536 != p)
      dir := x.2.dir.filter (fun (e : Nat × CacheEnt) => !(!e.2.valid && e.2.page == p)) }))
    tags := s.tags.filter (fun t => !(t.purpose == 0 && t.arg == p)) }

/-- A stack fails: its pages are lost, the pool shrinks, and the module is Degraded (R186). -/
def stackFails (k : Nat) (s : State) : State :=
  if stackFailed s k then s
  else
    let s := { s with dram := { s.dram with stackSt := tset k 2 s.dram.stackSt } }
    let s := countLog Obj.stackFailures 3 0 (stackSite k) 0 [] s
    let fills := ((s.dies.flatMap (fun (x : Nat × Die) => x.2.fills.map (fun (f : Nat × Nat) => f.1))).filter
      (fun p => pageStack p == k)).eraseDups
    let s := fills.foldl (fun s p => (dropFill p s).count Obj.pathLostTransfers 1) s
    let lost := (s.dram.used.filter (fun (x : Nat × PageUse) => pageStack x.1 == k)).map (fun (x : Nat × PageUse) => x.1)
    settleDram (lost.foldl (fun s p => losePage p s) s)

/-- The dies of a stack: those of its site above the lightbed, die 0 (R329). -/
def stackDies (s : State) (k : Nat) : List ThermDie :=
  (s.therm.dies.filter (fun (p : Nat × ThermDie) => p.1 / 16 == stackSite k && p.1 % 16 != 0)).map (·.2)

/-- Hottest die of a stack (R187). -/
def stackTemp (s : State) (k : Nat) : Int := listMax 0 ((stackDies s k).map (fun x => listMax 0 x.used))

/-- State of a stack that has trained: 1 while one of its dies is at throttle (R187, R332). -/
def stackServes (s : State) (k : Nat) : Nat := if (stackDies s k).any (fun x => decide (2 ≤ x.level)) then 1 else 0

/-- Stored training values exist and the stack is within 15 °C of the temperature at which they were stored (R183). -/
def quickTrains (s : State) (k : Nat) : Bool :=
  match tfind k s.dram.trained with
  | some t => decide ((stackTemp s k - t).natAbs ≤ 150)
  | none => false

/-- Rows of a stack marked for repair are replaced while spares last; their counts begin anew (R185). -/
def repairRows (k : Nat) (s : State) : State :=
  let mine := s.dram.repair.filter (fun r => r / 2 ^ 30 == k)
  let spare := tget 0 k s.dram.spareRows
  let n := min mine.length spare
  let done := mine.take n
  let s := { s with dram := { s.dram with
    repair := s.dram.repair.filter (fun r => !done.contains r), spareRows := tset k (spare - n) s.dram.spareRows
    rowHits := s.dram.rowHits.filter (fun (p : Nat × List Nat) => !done.contains p.1) } }
  s.count Obj.dramRowsRepaired n

/-- DRAM_TRAINING_DONE: a stack in training passes, is trained again in full, or fails (R183); rows marked for repair are
replaced by spares (R185). Quick training runs on stored values for the stack's temperature and full training without them; a
failed check makes the stored values invalid, and only full training stores new ones. -/
def execDramTrainingDone (k : StackId) (channels : W16) (full : Bool) (s : State) : Out :=
  if tget 0 k.val s.dram.stackSt ≠ 3 ∨ full = quickTrains s k then .next s
  else
    let s := if full then s.setObj Obj.dramTrainMode 1 else s
    if channels = 0xFFFF then
      let trained := if full then tset k.val (stackTemp s k) s.dram.trained else s.dram.trained
      let s := { s with dram := { s.dram with stackSt := tset k.val (stackServes s k) s.dram.stackSt, trained } }
      .next (settleDram (repairRows k s))
    else if full then .next (stackFails k s)
    else .next { s with dram := { s.dram with trained := terase k.val s.dram.trained } }

/-- DRAM_RECENTER: a channel re-centres its timing once per second (R183). -/
def execDramRecenter (k : StackId) (channel : Fin 16) (s : State) : Out :=
  let key := 16 * k.val + channel.val
  if tget 0 k.val s.dram.stackSt ≤ 1 ∧ tget 0 key s.dram.recentred + 1000000000 ≤ s.beat then
    .next { s with dram := { s.dram with recentred := tset key s.beat s.dram.recentred } }
  else .next s

/-- Refresh interval in force, ms (R184): 16 above 85 °C or at throttle (R332), otherwise 32. -/
def refreshMs (s : State) (k : Nat) : Nat := if 850 < stackTemp s k ∨ tget 0 k s.dram.stackSt = 1 then 16 else 32

/-- REFRESH: every row of a stack has been refreshed (R184). -/
def execRefresh (k : StackId) (s : State) : Out :=
  if tget 0 k.val s.dram.stackSt = 2 then .next s
  else .next { s with dram := { s.dram with refreshed := tset k.val s.beat s.dram.refreshed } }

/-- A corrected read in a unit of a stack: counted, and a row with 8 within 24 h is logged and marked for repair (R185). The
spec gives no size of a row: 16 units are taken (log entry 18). -/
def correctedRead (k unit : Nat) (s : State) : State :=
  let row := 2 ^ 30 * k + unit / 16
  let hits := (tget [] row s.dram.rowHits).filter (fun b => s.beat < b + 86400000000000) ++ [s.beat]
  let s := { s with dram := { s.dram with rowHits := tset row hits s.dram.rowHits } }
  let s := s.count Obj.dramCorrected 1
  if 8 ≤ hits.length ∧ !s.dram.repair.contains row then
    let s := { s with dram := { s.dram with repair := s.dram.repair ++ [row] } }
    logEvent Obj.dramCorrected 1 0 (stackSite k) 0 (leBytes 8 (unit / 16)) s
  else s

/-- A demand read of a stack may meet an error that is corrected: which reads do is the world's (log entry 88). -/
def demandRead (k off : Nat) (s : State) : State :=
  let hit := Sys2Proof.Config.readCorrected s.free
  let s := s.drawn 1
  if hit then correctedRead k (off / 64) s else s

/-- 64-byte units of a stack (R176). -/
def stackUnits : Nat := 0x60000000

/-- Scrub sequencer of a stack once it has read a unit: each unit once in `dram_scrub_period_h`, in ascending order (DESIGN CHOICE,
log entry 89); `none` where the unit is not due. -/
def scrubStep (s : State) (k unit : Nat) : Option (Nat × Nat) :=
  let (start, next) := tget (0, 0) k s.dram.scrub
  if next ≤ unit then some (start, unit + 1)
  else if start + 3600000000000 * s.obj Obj.dramScrubPeriodH ≤ s.beat then some (s.beat, unit + 1) else none

/-- DRAM_SCRUB: one unit is read, and rewritten where an error was corrected (R185): 0 no error, 1 corrected, 2
uncorrectable. -/
def execDramScrub (k : StackId) (unit : Nat) (err : Fin 3) (s : State) : Out :=
  if tget 0 k.val s.dram.stackSt = 2 ∨ stackUnits ≤ unit then .next s
  else
    match scrubStep s k unit with
    | none => .next s
    | some x =>
      let s := { s with dram := { s.dram with scrub := tset k.val x s.dram.scrub } }
      match err with
      | 0 => .next s
      | 1 => .next (correctedRead k unit s)
      | _ => .next (uncorrectable (offsetHome k (64 * unit)) s)

/-- IMAGE_DATA_RELOAD_DONE: the slot's lost pages have their data again, and its work items go on (R186). -/
def execImageDataReloadDone (slot : SlotId) (s : State) : Out :=
  let sl := slot.val
  let mine := s.dram.lost.filter (fun (p : Nat × Nat) => p.1 == sl)
  match imageOf s sl with
  | none => .next s
  | some im =>
    if mine.isEmpty then .next s
    else
      let pages := (s.imgSlot sl).pages
      let s := mine.foldl (fun s (p : Nat × Nat) =>
        match indexIn p.2 pages with
        | some i => writeImagePage im i p.2 s
        | none => s) s
      .next (settleDram { s with dram := { s.dram with lost := s.dram.lost.filter (fun (p : Nat × Nat) => p.1 != sl) } })

end Sys2Proof.Machine
end

