-- ==== Sys2Proof/Machine/Kernel.lean ====
section
/-! DEFINITION. The Matrix Core inside a locked window: issue, stream, matrix, vector and sync/send slots (R53 to R72). -/

namespace Sys2Proof.Machine

/-! Stream descriptors (R63). -/

def dFmt (d : BitVec 256) : Nat := fieldAt d 0 5
def dSpace (d : BitVec 256) : Nat := fieldAt d 5 3
def dRows (d : BitVec 256) : Nat := fieldAt d 16 16
def dBase (d : BitVec 256) : Nat := fieldAt d 32 32
def dScaleBase (d : BitVec 256) : Nat := fieldAt d 64 32
def dRowStride (d : BitVec 256) : Nat := fieldAt d 96 32
def dScaleStride (d : BitVec 256) : Nat := fieldAt d 128 32
def dStep (d : BitVec 256) : Nat := fieldAt d 160 32
def dRowLength (d : BitVec 256) : Nat := fieldAt d 192 32
def dIndexBase (d : BitVec 256) : Nat := fieldAt d 224 32

/-- Stream descriptor j of the kernel a core runs. -/
def Core.desc (c : Core) (j : Nat) : BitVec 256 := c.kernel.streams.getD j 0

/-- Conversion identifier at a table index (R46, R57). -/
def Core.convId (c : Core) (j : Nat) : Nat := (c.kernel.conv.getD j 0).toNat

/-- Accumulator row at bank and row; row and count beyond row 63 go on at row 0 of the bank (DESIGN CHOICE, log entry 83). -/
def Core.accRow (c : Core) (bank row : Nat) : AccRow := tget {} (64 * bank + row % 64) c.acc

/-- Vector register. -/
def Core.vreg (c : Core) (r : Nat) : VecReg := tget {} r c.regs

/-! Operand pairs (R39, R55). -/

/-- Accumulator type and panel depth K_P of an operand pair; `none` for a pair the tile array does not accept (R39, R55). -/
def pairClass (fa fb : Nat) : Option (AccTag × Nat) :=
  let n8 (f : Nat) : Bool := 3 ≤ f && f ≤ 6
  let b8 (f : Nat) : Bool := f == fmtBFP8 || f == fmtBFP6 || f == fmtBINT8
  let plain (f : Nat) : Bool := n8 f || f == fmtE2M1
  let half (f : Nat) : Bool := f == fmtFP16 || f == fmtBF16
  let i8 (f : Nat) : Bool := f == fmtINT8 || f == fmtUINT8
  if fa = fmtE2M1 ∧ fb = fmtE2M1 then some (.fp32, 512)
  else if plain fa && plain fb then some (.fp32, 256)
  else if fa = fmtBFP4 ∧ fb = fmtBFP4 then some (.fp32, 512)
  else if (b8 fa || fa == fmtBFP4) && (b8 fb || fb == fmtBFP4) then some (.fp32, 256)
  else if (plain fa && fmtBlock fb) || (fmtBlock fa && plain fb) then some (.fp32, 256)
  else if half fa && half fb then some (.fp32, 128)
  else if fa = fmtINT4 ∧ fb = fmtINT4 then some (.int32, 512)
  else if (i8 fa || fa == fmtINT4) && (i8 fb || fb == fmtINT4) then some (.int32, 256)
  else if fb = fmtTRIT5 ∧ (fa = fmtINT8 ∨ fa = fmtINT4) then some (.fp32, 1024)
  else none

/-- Group size G (R39). -/
def groupSize (fa fb : Nat) : Nat :=
  if fb = fmtTRIT5 then 64 else if fa = fmtFP16 ∨ fa = fmtBF16 ∨ fb = fmtFP16 ∨ fb = fmtBF16 then 1 else 32

/-- Matrix slot of a bundle: op, fmt_a, fmt_b (R61, R66). -/
def bundleMatrix (b : BitVec 256) : Nat × Nat × Nat := (fieldAt b 64 4, fieldAt b 68 5, fieldAt b 73 5)

/-- Panel depth of a read by a bundle (R55): that of the operand pair of the next matrix operation of the kernel, in bundle
order and wrapping, that takes the format as B (`isB`) or as A; by the format alone where none does (log entry 12). -/
def panelDepth (k : Kernel) (bundle fmt : Nat) (isB : Bool) : Nat :=
  let l := (k.bundles.drop bundle ++ k.bundles.take bundle).map bundleMatrix
  let uses := l.filterMap (fun m =>
    if (m.1 = 1 ∨ m.1 = 2) ∧ (if isB then m.2.2 else m.2.1) = fmt then (pairClass m.2.1 m.2.2).map (·.2) else none)
  match uses.head? with
  | some n => n
  | none => if fmt = fmtTRIT5 then 1024 else if fmt = fmtFP16 ∨ fmt = fmtBF16 then 128
            else if fmt = fmtE2M1 ∨ fmt = fmtBFP4 ∨ fmt = fmtINT4 then 512 else 256

/-! Bundles (R61): a slot is 0 stream-in, 1 matrix, 2 vector, 3 stream-out, 4 sync/send; 5 is the mark bit and 6 the end bit. -/

/-- First bit of a slot in its bundle. -/
def slotLow (k : Nat) : Nat := [16, 64, 104, 168, 208, 7, 6].getD k 0

/-- Operation code of a slot; the bit itself of the mark and the end. -/
def slotOp (b : BitVec 256) (k : Nat) : Nat := fieldAt b (slotLow k) ([4, 4, 6, 4, 4, 1, 1].getD k 0)

/-- Slots of a bundle that issue something. -/
def slotsOf (b : BitVec 256) : List Nat := (List.range 7).filter (fun k => slotOp b k != 0)

/-- The slot an operation takes of its bundle, its operation code, and the fields that must hold its operands: first bit within
the slot, width, value. Slot 7 stands for a no-operation in some slot but the vector one, 8 for one in the vector slot. -/
structure SlotUse where
  slot   : Nat
  op     : Nat
  fields : List (Nat × Nat × Nat) := []
  deriving DecidableEq, Repr

/-- A bundle holds an operation (R61, R64 to R67, R70). -/
def holdsSlot (b : BitVec 256) (u : SlotUse) : Bool :=
  if u.slot = 7 then [0, 1, 3, 4].any (fun k => slotOp b k == 0)
  else if u.slot = 8 then slotOp b 2 == 0
  else slotOp b u.slot == u.op && u.fields.all (fun f => fieldAt b (slotLow u.slot + f.1) f.2.1 == f.2.2)

/-- A Boolean as a bit. -/
def bitOf (b : Bool) : Nat := if b then 1 else 0

/-- Stream-in slot (R64). -/
def useIn (op desc row : Nat) (adv : Bool) (more : List (Nat × Nat × Nat)) : SlotUse :=
  { slot := 0, op, fields := [(4, 5, desc), (20, 1, bitOf adv), (21, 16, row)] ++ more }

/-- Stream-out slot (R65). -/
def useOut (op desc : Nat) (m : CvtMode) (adv : Bool) (more : List (Nat × Nat × Nat)) : SlotUse :=
  { slot := 3, op
    fields := [(4, 5, desc), (28, 1, bitOf m.sat), (29, 2, bitOf m.stoch), (31, 6, m.conv.val), (37, 1, bitOf adv)] ++ more }

/-- Matrix slot (R66); `count` is rows − 1. -/
def useMx (op fa fb bank row count : Nat) (swap : Bool) : SlotUse :=
  { slot := 1, op
    fields := [(4, 5, fa), (9, 5, fb), (14, 2, bank), (16, 6, row), (22, 6, count), (28, 1, bitOf swap)] }

/-- Vector slot (R67) with destination and operands a, b and c, as many as the operation has. -/
def useVec (op vd : Nat) (regs : List Nat) (more : List (Nat × Nat × Nat) := []) : SlotUse :=
  { slot := 2, op, fields := (6, 5, vd) :: ([11, 16, 21].zip regs).map (fun p => (p.1, 5, p.2)) ++ more }

/-- Sync/send slot (R70). -/
def useSync (op : Nat) (fields : List (Nat × Nat × Nat)) : SlotUse := { slot := 4, op, fields }

/-- The bundle a core is at (R61). -/
def Core.now (c : Core) : Option (BitVec 256) := c.kernel.bundles[c.bundle]?

/-- An operation of bundle `bundle` may issue at the core's tick: the core is at that bundle, the bundle holds it, its slot has
not issued at this tick, and the end issues after every other slot. -/
def slotReady (c : Core) (bundle : Nat) (u : SlotUse) : Bool :=
  match c.now with
  | none => false
  | some b => c.bundle == bundle && holdsSlot b u && !c.did.contains u.slot &&
      (u.slot != 6 || (slotsOf b).all (fun k => k == 6 || c.did.contains k))

/-- The core at its next tick, once every slot of this one has issued: the next repetition of the bundle, or the bundle that
follows; `none` beyond the end bundle (R61, R70). -/
def nextTick (c : Core) : Option Core :=
  match c.now with
  | none => none
  | some b =>
    if !(slotsOf b).all (fun k => c.did.contains k) then none
    else if c.rep < fieldAt b 0 6 then some { c with tick := c.tick + 1, rep := c.rep + 1, did := [] }
    else if slotOp b 6 = 1 then none
    else some { c with tick := c.tick + 1, bundle := c.nextBundle, nextBundle := c.nextBundle + 1, rep := 0, did := [] }

/-- This is the last repetition of the core's bundle. -/
def lastRep (c : Core) : Bool := (c.now.map (fun b => decide (fieldAt b 0 6 ≤ c.rep))).getD true

/-! Spaces (R62). -/

/-- Key of a space's byte 0 and its size, for a core: core SRAM, die-shared SRAM, the image's locked partition. -/
def spaceAt (s : State) (core space : Nat) : Option (Nat × Nat) :=
  let site := dieSite (coreDie core)
  if space = 0 then some (memKey site (coreSramBase core), coreSramSize)
  else if space = 1 then some (memKey site dieSramBase, dieSramSize)
  else if space = 2 then
    match (s.core core).win.bind s.win with
    | none => none
    | some w => (partitionOf s (coreDie core) w.slot).map (fun p => (memKey site (sbBase + p.1 * 2 ^ 20), p.2 * 2 ^ 20))
  else none

/-- Read latency of a space (R62). -/
def readLatency (space : Nat) : Nat := [8, 24, 32].getD space 32
/-- Write latency of a space (R62). -/
def writeLatency (space : Nat) : Nat := [6, 24, 32].getD space 32

/-- Slots of the period that a core holds at a die port: its default four and those reserved for it (R59, R60). -/
def portSlots (s : State) (core space : Nat) : Nat :=
  match (s.core core).win.bind s.win with
  | none => 4
  | some w =>
    let extra := w.reserve.foldl (fun m e =>
      if fieldAt e 0 8 = space ∧ fieldAt e 8 16 = coreDie core ∧ fieldAt e 40 8 = core then m ||| fieldAt e 24 16 else m) 0
    popcount 16 (extra ||| maskOf ((List.range 4).map (fun j => 4 * j + core % 4)))

/-- Read rate in bytes per tick (R62). -/
def readRate (s : State) (core space : Nat) : Nat :=
  if space = 0 then 2560 else [0, 1280, 2560].getD space 1 * portSlots s core space / 4

/-- Write rate in bytes per tick (R62). -/
def writeRate (s : State) (core space : Nat) : Nat :=
  if space = 0 then 1280 else [0, 1280, 2560].getD space 1 * portSlots s core space / 4

/-! Writes in flight (R62, R70). -/

/-- Add a write in order of its tick. -/
def addPend (w : PendWrite) : List PendWrite → List PendWrite
  | [] => [w]
  | x :: r => if w.vis < x.vis then w :: x :: r else x :: addPend w r

/-- A core's writes visible at or before a tick reach memory (R62). -/
def commitCore (n T : Nat) (s : State) : State :=
  let c := s.core n
  let due := c.pend.takeWhile (fun w => w.vis ≤ T)
  if due.isEmpty then s
  else
    let s := s.setCore n { c with pend := c.pend.dropWhile (fun w => w.vis ≤ T) }
    let s := match c.win with
      | none => s
      | some id => s.modWin id (fun w => { w with wrote := w.wrote ++ due.map (fun (p : PendWrite) => (p.addr, p.data.length)) })
    due.foldl (fun s (p : PendWrite) => landWrite (coreDie n) p.addr p.data s) s

/-- Flag writes to a core due at or before a tick take effect; of two in one tick the larger value stays (R70, R115). -/
def commitFlags (n T : Nat) (s : State) : State :=
  let c := s.core n
  let due := c.flagIn.filter (fun f => f.1 ≤ T)
  if due.isEmpty then s
  else s.setCore n { c with
    flagIn := c.flagIn.filter (fun f => !(f.1 ≤ T))
    flags := due.foldl (fun t f =>
      let old := tget 0 f.2.1 t
      let again := tfind f.2.1 c.flagAt == some f.1
      tset f.2.1 (if again && decide (f.2.2 < old) then old else f.2.2) t) c.flags
    flagAt := due.foldl (fun t f => tset f.2.1 f.1 t) c.flagAt }

/-- Cores of a core's die that run in the same window: they share its ticks (R74). -/
def dieMates (s : State) (n : Nat) : List Nat :=
  (List.range 4).map (fun j => 4 * coreDie n + j) |>.filter (fun m => (s.core m).win == (s.core n).win)

/-! Reads. -/

/-- Bytes of a window read, with the exit code that an out-of-space range or an uncorrectable word gives (R63, R112). -/
def spaceRead (s : State) (core space addr len : Nat) : Except (Nat × Nat) Bytes :=
  match spaceAt s core space with
  | none => .error (exitBOUNDS, 0)
  | some (key, size) =>
    if size < addr + len then .error (exitBOUNDS, 0)
    else if rangeBad s (key + addr) len then .error (exitMEMERR, key + addr - memKey (dieSite (coreDie core)) 0)
    else .ok (s.load (key + addr) len)

/-- Bytes one row of n elements occupies, scales included: what the read rate counts (R62, R34, R37). Elements beyond the
descriptor's row length count too (DESIGN CHOICE, log entry 84). -/
def rowBytes (fmt n : Nat) : Nat :=
  if fmt = fmtTRIT5 then n / 64 * 16 else (n * fmtBits fmt + 7) / 8 + (if fmtBlock fmt then (n + 31) / 32 else 0)

/-- Digits of a TRIT5 row record as codes 0, 1, 2, and whether a trit byte is invalid (R37, R38). -/
def tritRecord (b : Bytes) : List Nat × Bool :=
  let bytes := ((b.drop 2).take 13).map (·.toNat)
  ((bytes.flatMap (fun v => (tritsOf v).map (fun t => if t = -1 then 2 else t.toNat))).take 64, bytes.any (242 < ·))

/-- n elements of row r of a descriptor from its cursor: codes with padding marked, scales, and flags raised (R33 to R37,
R56, R63). -/
def readRow (s : State) (core : Nat) (d : BitVec 256) (cur r n usable : Nat) : Except (Nat × Nat) (Row × Flags) := do
  let fmt := dFmt d
  let valid := min n (dRowLength d - cur)
  let pad (l : List Nat) : List (Option Nat) := l.map some ++ List.replicate (n - l.length) none
  if valid = 0 then return ({ fmt, codes := List.replicate n none, scales := [], usable }, 0)
  if fmt = fmtTRIT5 then
    let recs := (valid + 63) / 64
    let b ← spaceRead s core (dSpace d) (dBase d + r * dRowStride d + 16 * (cur / 64)) (16 * recs)
    let rs := (List.range recs).map (fun i => ((b.drop (16 * i)).take 16))
    let ts := rs.map tritRecord
    return ({ fmt, codes := pad ((ts.flatMap (·.1)).take valid), scales := rs.map (fun x => leAt x 0 2), usable },
            if ts.any (·.2) then flagTRIT else 0)
  let w := fmtBits fmt
  let first := w * cur / 8
  let last := (w * (cur + valid) + 7) / 8
  let b ← spaceRead s core (dSpace d) (dBase d + r * dRowStride d + first) (last - first)
  let x := leNat b
  let codes := (List.range valid).map (fun i => bitsAt x (w * (cur + i) - 8 * first) w)
  if fmtBlock fmt then
    let nb := (valid + 31) / 32
    let sc ← spaceRead s core (dSpace d) (dScaleBase d + r * dScaleStride d + cur / 32) nb
    let scales := sc.map (·.toNat)
    return ({ fmt, codes := pad codes, scales, usable }, if scales.contains 0xFF then flagSCALENAN else 0)
  return ({ fmt, codes := pad codes, scales := [], usable }, 0)

/-- The value of element e of a row (R35). -/
def rowValue (ftz : Bool) (r : Row) (e : Nat) (code : Nat) : Val :=
  let v := elemValue r.fmt code (r.scales.getD (e / 32) 127)
  if ftz && (r.fmt == fmtFP16 || r.fmt == fmtBF16) then
    match floatFmt r.fmt, v with
    | some p, .fin neg m _ => if m < 2 ^ p.mb then .fin neg 0 0 else v
    | _, _ => v
  else v

/-! Matrix products (R40 to R43). -/

/-- Exact products of a group; a padding lane gives +0 (R56). -/
def groupProducts (ftz : Bool) (a b : Row) (lo n : Nat) : List (Val × Bool) :=
  (List.range n).map (fun i =>
    let e := lo + i
    match (a.codes.getD e none), (b.codes.getD e none) with
    | some x, some y =>
      let u := rowValue ftz a e x
      let v := rowValue ftz b e y
      (u.mul v, u.isNan || v.isNan)
    | _, _ => (.fin false 0 0, false))

/-- The exact sum of a list of values. -/
def valSum : List Val → Val
  | [] => .fin false 0 0
  | x :: r => r.foldl Val.add x

/-- One FP32 accumulator update by a group sum (R41): the result and its flags. -/
def accUpdate (ftz : Bool) (acc : W32) (sum : Val) (operandNan : Bool) : W32 × Flags :=
  f32Result ftz ((f32 acc).isNan || operandNan) ((f32 acc).add sum)

/-- Trit value of a code. -/
def tritValue (c : Nat) : Int := if c = 1 then 1 else if c = 2 then -1 else 0

/-- An integer group's exact sum; TRIT5 codes count as trits (R42). -/
def groupInt (a b : Row) (lo n : Nat) : Int :=
  (List.range n).foldl (fun t i =>
    match (a.codes.getD (lo + i) none), (b.codes.getD (lo + i) none) with
    | some x, some y => t + intDecode a.fmt x * (if b.fmt = fmtTRIT5 then tritValue y else intDecode b.fmt y)
    | _, _ => t) 0

/-- One output column: all groups of the panel depth added in ascending k (R40 to R43). -/
def columnUpdate (ftz : Bool) (tag : AccTag) (a b : Row) (depth : Nat) (acc : W32) : W32 × Flags :=
  let g := groupSize a.fmt b.fmt
  (List.range (depth / g)).foldl (fun (st : W32 × Flags) i =>
    let lo := g * i
    if tag = .int32 then
      let (v, f) := i32Add st.1 0
      let sum := v.toInt + groupInt a b lo g
      let (w, f2) := intEncode (-2 ^ 31) (2 ^ 31 - 1) .rne (Val.ofInt sum)
      (BitVec.ofInt 32 w, st.2 ||| f ||| f2)
    else if b.fmt = fmtTRIT5 then
      -- a group of padding lanes alone contributes zero, whatever the record's scale (R56)
      let live := (List.range g).any (fun j => (a.codes.getD (lo + j) none).isSome && (b.codes.getD (lo + j) none).isSome)
      let scale := if live then floatDecode fmtFP16 (b.scales.getD i 0) else .fin false 0 0
      let sum := (Val.ofInt (groupInt a b lo g)).mul scale
      let (w, f) := accUpdate ftz st.1 sum scale.isNan
      (w, st.2 ||| f)
    else
      let ps := groupProducts ftz a b lo g
      let opNan := ps.any (·.2)
      let (w, f) := accUpdate ftz st.1 (valSum (ps.map (·.1))) opNan
      (w, st.2 ||| f)) (acc, 0)

/-- A padding column's zero products leave the accumulator as it is (R56). -/
def rowUpdate (ftz : Bool) (tag : AccTag) (a : Row) (p : Panel) (depth : Nat) (vals : List W32) : List W32 × Flags :=
  gatherFlags ((vals.zip (List.range vals.length)).map (fun x =>
    match p.cols[x.2]? with
    | none => (x.1, 0)
    | some b => columnUpdate ftz tag a b depth x.1))

/-! Operations under way. -/

/-- Activity of a core that the governor counts (R78). -/
def coreAct (n k amount : Nat) (s : State) : State :=
  let c := s.core n
  s.setCore n { c with acts := tset k (tget 0 k c.acts + amount) c.acts }

/-- Counter of MACs by the panel depth of the pair (R55, R78). -/
def macClass (depth : Nat) : Nat := if depth = 128 then 0 else if depth = 256 then 1 else if depth = 512 then 2 else 3

/-- Counter of the bytes of a space (R78). -/
def spaceAct (space : Nat) : Nat := if space = 2 then 5 else 4

/-- The next row of the matrix operation issues at tick T (R66, R72). An MMA of either type adds to a row that no MMZ or ACLR of
the window has tagged, and leaves it so (DESIGN CHOICE, log entry 83). -/
def mxStep (n T : Nat) (s : State) : State :=
  let c := s.core n
  match c.mx with
  | none => s
  | some o =>
    let row := o.row + o.done
    let ar := c.accRow o.bank row
    match c.queue, pairClass o.fa o.fb with
    | [], _ => endCore n exitHAZARD s
    | a :: rest, cls =>
      if T < a.usable then endCore n exitHAZARD s
      else
        match cls with
        | none => endCore n exitFORMAT s
        | some (tag, depth) =>
          if a.fmt ≠ o.fa ∨ c.active.fmt ≠ some o.fb then endCore n exitFORMAT s
          else if !o.zero && (ar.tag != .untagged && ar.tag != tag) then endCore n exitFORMAT s
          else if !o.zero && decide (T < ar.ready) then endCore n exitHAZARD s
          else
            let start := if o.zero then List.replicate 192 0 else ar.vals
            let (vals, f) := rowUpdate c.ftz tag a c.active depth start
            let ar := { tag := if o.zero then tag else ar.tag, vals, ready := T + 12 : AccRow }
            let s := s.setCore n { c with
              acc := tset (64 * o.bank + row % 64) ar c.acc, queue := rest
              mx := if o.done + 1 = o.count then none else some { o with done := o.done + 1 } }
            raiseCore n f (coreAct n (macClass depth) (192 * depth) s)

/-- Rounding mode of element i of a conversion (R45, R46). -/
def cvtMode (m : CvtMode) (imageSeed requestSeed convId token base : Nat) (i : Nat) : RMode :=
  if m.stoch then .stoch (convWord imageSeed requestSeed convId token ((base + i) % 2 ^ 32)) else .rne

/-- The value an accumulator column or a vector lane stands for. -/
def laneValue (int : Bool) (w : W32) : Val := if int then Val.ofInt w.toInt else f32 w

/-- Store a converted row at row r of a descriptor from its cursor, visible under the write latency (R62, R65): all its elements,
whatever the descriptor's row length (DESIGN CHOICE, log entry 84). -/
def storeRow (n T r : Nat) (d : BitVec 256) (cur : Nat) (scales codes : List Nat) (s : State) : State :=
  let fmt := dFmt d
  let w := fmtBits fmt
  let body := packBits w codes
  let addr := dBase d + r * dRowStride d + w * cur / 8
  let saddr := dScaleBase d + r * dScaleStride d + cur / 32
  match spaceAt s n (dSpace d) with
  | none => endCore n exitBOUNDS s
  | some (key, size) =>
    if size < addr + body.length ∨ (fmtBlock fmt ∧ size < saddr + scales.length) then endCore n exitBOUNDS s
    else
      let vis := T + writeLatency (dSpace d) + ceilDiv (body.length + scales.length) (writeRate s n (dSpace d))
      let c := s.core n
      let pend := addPend { vis, addr := key + addr, data := body } c.pend
      let pend := if scales.isEmpty then pend
        else addPend { vis, addr := key + saddr, data := scales.map (BitVec.ofNat 8) } pend
      coreAct n (spaceAct (dSpace d)) (body.length + scales.length) (s.setCore n { c with pend })

/-- Image seed, and request seed of row r, of the window a core runs (R46). -/
def windowSeeds (s : State) (n r : Nat) : Nat × Nat :=
  match (s.core n).win.bind s.win with
  | none => (0, 0)
  | some w => (w.imageSeed.toNat, (w.seeds.getD r 0).toNat)

/-- ASTORE k of those under way reads and converts its next row at tick T (R65). -/
def outStep (n T k : Nat) (s : State) : State :=
  let c := s.core n
  match c.outs[k]? with
  | none => s
  | some o =>
    let row := o.row + o.done
    let ar := c.accRow o.bank row
    if T < ar.ready then endCore n exitHAZARD s
    else
      let fmt := dFmt o.desc
      let (img, req) := windowSeeds s n row
      let token := (c.tokens.getD row 0).toNat
      let mode := cvtMode o.mode img req (c.convId o.mode.conv) token (dIndexBase o.desc)
      let (scales, codes, f) := rowEncode fmt mode o.mode.sat c.ftz (ar.vals.map (laneValue (ar.tag == .int32)))
      let s := s.setCore n { c with
        outs := if o.done + 1 = o.count then c.outs.eraseIdx k else c.outs.set k { o with done := o.done + 1 } }
      let s := raiseCore n f s
      storeRow n T row o.desc o.cur scales codes s

/-- The ASTORE whose next row is the earliest, the older first, and that row's tick. -/
def nextOut (outs : List OutOp) : Option (Nat × Nat) :=
  (outs.zip (List.range outs.length)).foldl (fun (b : Option (Nat × Nat)) p =>
    let t := p.1.start + p.1.done
    match b with
    | none => some (p.2, t)
    | some x => if t < x.2 then some (p.2, t) else some x) none

/-- Run the core's matrix rows and ASTORE rows up to and including tick T, in tick order: every operation under way takes one row
in each tick (R65, R66). -/
def runRows : Nat → Nat → Nat → State → State
  | 0, _, _, s => s
  | fuel + 1, n, T, s =>
    let c := s.core n
    if c.state ≠ 1 then s
    else
      match c.mx.map (fun o => o.start + o.done), nextOut c.outs with
      | some a, some (k, b) =>
        if a ≤ b then (if a ≤ T then runRows fuel n T (mxStep n a s) else s)
        else if b ≤ T then runRows fuel n T (outStep n b k s) else s
      | some a, none => if a ≤ T then runRows fuel n T (mxStep n a s) else s
      | none, some (k, b) => if b ≤ T then runRows fuel n T (outStep n b k s) else s
      | none, none => s

/-- Participants of a barrier of the window a core runs (R57). -/
def barrierMask (s : State) (n bar : Nat) : W64 :=
  (((s.core n).win.bind s.win).map (fun w => w.barriers.getD bar 0)).getD 0

/-- One barrier check: every arrival must be present, or the window ends with LATE (R70). -/
def runCheck (n : Nat) (x : Nat × Nat) (s : State) : State :=
  let c := s.core n
  if c.state ≠ 1 then s
  else
    let s := s.setCore n { c with checks := c.checks.erase x }
    let mask := barrierMask s n x.1
    if (tget 0 x.1 c.arrivals) &&& mask = mask then s else endCore n exitLATE s

/-- Barrier checks of a core that are due before tick T (R70). -/
def runChecks (n T : Nat) (s : State) : State :=
  ((s.core n).checks.filter (fun x => x.2 < T)).foldl (fun s x => runCheck n x s) s

/-- Bring a core to tick T: barrier checks of earlier ticks and rows under way on the cores of its die that share its window, then
writes and flags visible by then (R62, R70, R74). -/
def progress (n T : Nat) (s : State) : State :=
  let s := (dieMates s n).foldl (fun s m => runRows 512 m T (runChecks m T s)) s
  let s := (dieMates s n).foldl (fun s m => commitCore m T s) s
  commitFlags n T s

/-- Beats at which a core issues its ticks are not modelled; its port time for merging is the launch plus the tick. -/
def portTick (s : State) (n T : Nat) : Nat := (s.core n).launch * (s.die (coreDie n)).clock / 1000 + T

/-! Issue (R61, R72). -/

/-- The core may issue: in an open window and not ended. -/
def issuing (s : State) (n : Nat) : Bool :=
  let c := s.core n
  c.state == 1 && !c.ended && ((c.win.bind s.win).map (fun w => w.phase == 2)).getD false

/-- Cores of a core's die that still issue in its window. -/
def issuingMates (s : State) (n : Nat) : List Nat := (dieMates s n).filter (issuing s)

/-- Move on by k ticks, all cores of the die that share the window together (R74): each has issued every slot of its bundle at
each tick left, and none is held by a BEAT_WAIT (R70). -/
def moveOn (n : Nat) : Nat → State → Option State
  | 0, s => some s
  | k + 1, s =>
    let ms := issuingMates s n
    if ms.all (fun m => (s.core m).waitBeat.isNone && (nextTick (s.core m)).isSome) then
      moveOn n k (ms.foldl (fun s m => match nextTick (s.core m) with
        | some c => s.setCore m c
        | none => s) s)
    else none

/-- declared_ticks of the window a core runs (R57). -/
def declaredTicks (s : State) (n : Nat) : Nat :=
  match (s.core n).win.bind s.win with
  | none => 0
  | some w => fieldAt w.desc 64 32

/-- One operation of a bundle issues (R61): the core comes to the tick, where its stored bundle must hold the operation in a slot
that has not issued yet; a participant past its declared ticks ends with HAZARD (R73). Otherwise nothing happens. -/
def issue (i : Issue) (u : SlotUse) (f : Nat → Nat → State → State) (s : State) : State :=
  let n := i.core.val
  if !issuing s n then s
  else
    match moveOn n i.dt s with
    | none => s
    | some m =>
      if !slotReady (m.core n) i.bundle.toNat u then s
      else
        let T := (m.core n).tick
        let s := progress n T m
        if !issuing s n then s
        else if declaredTicks s n ≤ T then endCore n exitHAZARD s
        else
          let c := s.core n
          f n T (if u.slot < 7 then s.setCore n { c with did := c.did ++ [u.slot] } else s)

/-- Advance a descriptor's cursor (R63). -/
def advance (n desc : Nat) (adv : Bool) (s : State) : State :=
  if adv then
    let c := s.core n
    s.setCore n { c with cursors := tset desc (tget 0 desc c.cursors + dStep (c.desc desc)) c.cursors }
  else s

/-- A read of die-shared SRAM by a requester reaches the port at cycle `at_`: it joins an identical read of another requester that
came within 8 ticks and has fewer than 8 readers, or may itself be joined (R113). -/
def mergeRead (die at_ who key len : Nat) (s : State) : State :=
  if s.obj Obj.mergeEnable = 0 then s
  else
    let d := s.die die
    let live := d.merges.filter (fun m => at_ < m.at_ + 8)
    match live.find? (fun m => m.addr == key && m.len == len && m.who != who && m.joined < 8) with
    | some m =>
      let s := s.setDie die { d with merges := live.map (fun x => if x = m then { x with joined := x.joined + 1 } else x) }
      s.count Obj.mergedReads 1
    | none => s.setDie die { d with merges := live ++ [{ at_, who, addr := key, len, joined := 1 }] }

/-- A stream-in channel is free, counting operations still in progress (R64). -/
def inFree (c : Core) (T : Nat) : Bool := (c.inBusy.filter (T < ·)).length < 4

/-- A stream-out channel is free (R65). -/
def outFree (c : Core) (T : Nat) : Bool := (c.outBusy.filter (T < ·)).length < 2

/-! Stream-in slot (R64). -/

/-- Rows r to r + k − 1 of a descriptor, n elements each; the first failure's exit code. -/
def readRows (s : State) (core : Nat) (d : BitVec 256) (cur n usableOf : Nat) (usable : Nat → Nat) :
    Nat → Nat → Except (Nat × Nat) (List Row × Flags)
  | 0, _ => .ok ([], 0)
  | k + 1, r => do
    let (x, f) ← readRow s core d cur r n (usable usableOf)
    let (xs, g) ← readRows s core d cur n (usableOf + 1) usable k (r + 1)
    return (x :: xs, f ||| g)

/-- A kernel's read of die-shared SRAM or a locked partition may meet an error that the code corrects (R112). -/
def spaceTouch (space : Nat) (s : State) : State :=
  if space = 0 then s else sramRead (if space = 1 then dieSramBase else sbBase) s

/-- Note a stream read: its bytes for the governor, errors corrected, and one of die-shared SRAM for merging (R78, R112, R113). -/
def mergeRow (n T : Nat) (d : BitVec 256) (r cur len : Nat) (s : State) : State :=
  let s := spaceTouch (dSpace d) (coreAct n (spaceAct (dSpace d)) len s)
  if dSpace d = 1 then
    mergeRead (coreDie n) (portTick s n T) n
      (memKey (dieSite (coreDie n)) (dieSramBase + dBase d + r * dRowStride d + fmtBits (dFmt d) * cur / 8)) len s
  else s

/-- A read ends the window with an exit code; an uncorrectable word that it met is counted (R76, R112). -/
def readFailed (n : Nat) (e : Nat × Nat) (s : State) : State :=
  endCore n e.1 (if e.1 = exitMEMERR then sramBad (dieSite (coreDie n)) e.2 s else s)

/-- PANEL: column rows into the shadow panel as one item (R64). -/
def opPanel (desc row : Nat) (adv : Bool) (n T : Nat) (s : State) : State :=
  let c := s.core n
  let d := c.desc desc
  let cur := tget 0 desc c.cursors
  if c.shadow.isSome || !inFree c T then endCore n exitHAZARD s
  else
    let depth := panelDepth c.kernel c.bundle (dFmt d) true
    let usable := T + readLatency (dSpace d) + ceilDiv (dRows d * rowBytes (dFmt d) depth) (readRate s n (dSpace d))
    match readRows s n d cur depth 0 (fun _ => usable) (dRows d) row with
    | .error e => readFailed n e s
    | .ok (cols, f) =>
      let s := s.setCore n { c with
        shadow := some { fmt := some (dFmt d), cols, usable }, inBusy := c.inBusy.filter (T < ·) ++ [usable] }
      let s := mergeRow n T d row cur (dRows d * rowBytes (dFmt d) depth) s
      advance n desc adv (raiseCore n f s)

/-- ROWS: rows into the activation queue, each usable by its own byte count (R62, R64). -/
def opRows (desc row count : Nat) (adv : Bool) (n T : Nat) (s : State) : State :=
  let c := s.core n
  let d := c.desc desc
  let cur := tget 0 desc c.cursors
  if 64 < c.queue.length + count ∨ !inFree c T then endCore n exitHAZARD s
  else
    let depth := panelDepth c.kernel c.bundle (dFmt d) false
    let rb := rowBytes (dFmt d) depth
    let usable (j : Nat) : Nat := T + readLatency (dSpace d) + ceilDiv (rb * (j + 1)) (readRate s n (dSpace d))
    match readRows s n d cur depth 0 usable count row with
    | .error e => readFailed n e s
    | .ok (rows, f) =>
      let s := s.setCore n { c with
        queue := c.queue ++ rows, inBusy := c.inBusy.filter (T < ·) ++ [usable (count - 1)] }
      let s := mergeRow n T d row cur (rb * count) s
      advance n desc adv (raiseCore n f s)

/-- A result joins a register's flight; two results due at one tick are a write clash (R72). -/
def putResult (n vd due : Nat) (lanes : List W32) (s : State) : State :=
  let c := s.core n
  let r := c.vreg vd
  if r.flight.any (fun x => x.1 == due) then endCore n exitHAZARD s
  else s.setCore n { c with regs := tset vd { r with flight := r.flight ++ [(due, lanes)] } c.regs }

/-- Put a result into a list in order of its tick. -/
def addFlight (x : Nat × List W32) : List (Nat × List W32) → List (Nat × List W32)
  | [] => [x]
  | y :: r => if x.1 < y.1 then x :: y :: r else y :: addFlight x r

/-- A register's lanes once every result due by tick T is in; `none` if one is still in flight (R72). -/
def VecReg.at (r : VecReg) (T : Nat) : Option (List W32) :=
  if r.flight.any (fun x => T < x.1) then none
  else some ((r.flight.foldl (fun l x => addFlight x l) []).foldl (fun l x => x.2 ++ l.drop x.2.length) r.lanes)

/-- Read vector registers at tick T: the operation runs on their lanes, or the window ends with HAZARD (R72). -/
def withRegs (n T : Nat) (rs : List Nat) (f : List (List W32) → State → State) (s : State) : State :=
  let c := s.core n
  match rs.mapM (fun r => (c.vreg r).at T) with
  | none => endCore n exitHAZARD s
  | some ls =>
    let regs := rs.foldl (fun t r => match (c.vreg r).at T with
      | some l => tset r { lanes := l, flight := [] } t
      | none => t) c.regs
    f ls (s.setCore n { c with regs })

/-- FP32 lane of a loaded element (R48, R64). -/
def loadLane (ftz : Bool) (row : Row) (e code : Nat) : W32 × Flags :=
  if fmtInteger row.fmt then (BitVec.ofInt 32 (intDecode row.fmt code), 0)
  else if row.fmt = fmtLOG8 then (BitVec.ofNat 32 (code % 256), 0)
  else toF32 ftz (elemValue row.fmt code (row.scales.getD (e / 32) 127))

/-- VLOAD: 512 elements of one row into a register, converted (R64). Lanes beyond the valid row are free values. -/
def opVload (desc row vd : Nat) (adv : Bool) (n T : Nat) (s : State) : State :=
  let c := s.core n
  let d := c.desc desc
  let cur := tget 0 desc c.cursors
  if !inFree c T then endCore n exitHAZARD s
  else if dFmt d = fmtTRIT5 then endCore n exitFORMAT s
  else
    let usable := T + readLatency (dSpace d) + ceilDiv (rowBytes (dFmt d) 512) (readRate s n (dSpace d))
    match readRow s n d cur row 512 usable with
    | .error e => readFailed n e s
    | .ok (r, f) =>
      let (lanes, g) := gatherFlags ((r.codes.zip (List.range 512)).map (fun p =>
        match p.1 with
        | some code => loadLane c.ftz r p.2 code
        | none => ((Sys2Proof.Config.freeWord (s.free + p.2)).setWidth 32, 0)))
      let s := s.setCore n { c with inBusy := c.inBusy.filter (T < ·) ++ [usable] }
      let s := mergeRow n T d row cur (rowBytes (dFmt d) 512) (s.drawn 512)
      let s := putResult n vd usable lanes (raiseCore n (f ||| g) s)
      advance n desc adv s

/-! Stream-out slot (R65). -/

/-- ASTORE: accumulator rows converted and written, one per tick (R65). -/
def opAstore (desc bank row count : Nat) (m : CvtMode) (adv : Bool) (n T : Nat) (s : State) : State :=
  let c := s.core n
  let d := c.desc desc
  if !outFree c T then endCore n exitHAZARD s
  else if dFmt d = fmtTRIT5 ∨ (m.stoch ∧ !stochAllowed (dFmt d)) then endCore n exitFORMAT s
  else
    let o : OutOp := { desc := d, cur := tget 0 desc c.cursors, bank, row, count, mode := m, start := T, done := 0 }
    let s := s.setCore n { c with outs := c.outs ++ [o], outBusy := c.outBusy.filter (T < ·) ++ [T + count] }
    runRows 512 n T (advance n desc adv s)

/-- VSTORE: 512 lanes converted and written to row 0 of the descriptor (R65). -/
def opVstore (desc v : Nat) (m : CvtMode) (adv : Bool) (n T : Nat) (s : State) : State :=
  let d := (s.core n).desc desc
  if !outFree (s.core n) T then endCore n exitHAZARD s
  else if dFmt d = fmtTRIT5 ∨ (m.stoch ∧ !stochAllowed (dFmt d)) then endCore n exitFORMAT s
  else withRegs n T [v] (fun ls s =>
    let c := s.core n
    let lanes := ls.headD []
    let fmt := dFmt d
    let (img, req) := windowSeeds s n 0
    let mode := cvtMode m img req (c.convId m.conv) (lanes.headD 0).toNat (dIndexBase d)
    let (scales, codes, f) :=
      if fmt = fmtLOG8 then ([], lanes.map (fun w => w.toNat % 256), 0)
      else rowEncode fmt mode m.sat c.ftz (lanes.map (laneValue (fmtInteger fmt)))
    let s := s.setCore n { c with outBusy := c.outBusy.filter (T < ·) ++ [T + 1] }
    let s := storeRow n T 0 d (tget 0 desc c.cursors) scales codes (raiseCore n f s)
    advance n desc adv s) s

/-! Matrix slot (R66). -/

/-- MMA or MMZ: rows of A against the active panel, one per tick, after an optional swap (R66, R72). -/
def opMatrix (zero : Bool) (fa fb bank row count : Nat) (swap : Bool) (n T : Nat) (s : State) : State :=
  let c := s.core n
  if T < c.mxBusy then endCore n exitHAZARD s
  else if (pairClass fa fb).isNone then endCore n exitFORMAT s
  else
    let go (c : Core) : State :=
      runRows 512 n T (s.setCore n { c with
        mxBusy := T + count, mx := some { zero, fa, fb, bank, row, count, start := T, done := 0 } })
    if swap then
      match c.shadow with
      | some p => if T < p.usable then endCore n exitHAZARD s else go { c with active := p, shadow := none }
      | none => endCore n exitHAZARD s
    else go c

/-- ACLR: rows set to +0, one per tick, and tagged by the pair; a swap first makes the shadow panel active (R66, R72). -/
def opAclr (fa fb bank row count : Nat) (swap : Bool) (n T : Nat) (s : State) : State :=
  let c := s.core n
  if T < c.mxBusy then endCore n exitHAZARD s
  else
    match pairClass fa fb with
    | none => endCore n exitFORMAT s
    | some (tag, _) =>
      let go (c : Core) : State :=
        let acc := (List.range count).foldl (fun t j =>
          tset (64 * bank + (row + j) % 64) { tag, vals := List.replicate 192 0, ready := T + j + 1 } t) c.acc
        s.setCore n { c with acc, mxBusy := T + count }
      if swap then
        match c.shadow with
        | some p => if T < p.usable then endCore n exitHAZARD s else go { c with active := p, shadow := none }
        | none => endCore n exitHAZARD s
      else go c

/-! Vector slot (R67, R68). -/

/-- A vector operation: operands read at T, result due after the latency, flags raised (R68). -/
def opVector (vd latency : Nat) (rs : List Nat) (f : Bool → List (List W32) → List W32 × Flags) (n T : Nat) (s : State) :
    State :=
  withRegs n T rs (fun ls s =>
    let (r, g) := f (s.core n).ftz ls
    putResult n vd (T + latency) r (raiseCore n g (coreAct n 6 1 s))) s

/-- Operand k of a vector operation. -/
def arg (ls : List (List W32)) (k : Nat) : List W32 := ls.getD k []

/-- A result with no flags. -/
def noFlags (w : W32) : W32 × Flags := (w, 0)

/-- A correctly rounded function of one lane, NV where it makes a NaN of no NaN (R52, R68). -/
def f32Fn (f : Val → Val) (ftz : Bool) (a : W32) : W32 × Flags := f32Result ftz (f32 a).isNan (f (f32 a))

/-- VSEL's choice: vc ≥ +0, −0 included; a NaN selects b (R68). -/
def selLane (a b c : W32) : W32 :=
  match f32 c with
  | .nan => b
  | .inf neg => if neg then b else a
  | .fin neg m _ => if neg && m != 0 then b else a

/-- VCVT: va converted to a format and read back to FP32 (R68). -/
def vcvtLanes (fmt : Nat) (mode : Nat → RMode) (sat ftz : Bool) (a : List W32) : List W32 × Flags :=
  let (scales, codes, f) := rowEncode fmt mode sat ftz (a.map f32)
  let back := (codes.zip (List.range codes.length)).map (fun p =>
    if fmt = fmtLOG8 then toF32 ftz (log8Decode p.1) else toF32 ftz (elemValue fmt p.1 (scales.getD (p.2 / 32) 127)))
  let (r, g) := gatherFlags back
  (r, f ||| g)

/-- ACC2V: an accumulator row into lanes 0 to 191 (R68). -/
def opAcc2v (vd imm : Nat) (n T : Nat) (s : State) : State :=
  let c := s.core n
  let ar := c.accRow (bitsAt imm 6 2) (bitsAt imm 0 6)
  if T < ar.ready then endCore n exitHAZARD s else putResult n vd (T + 2) ar.vals (coreAct n 6 1 s)

/-! Sync/send slot (R69 to R71). -/

/-- Destination byte address in the site's map of a send entry's unit and address (R131); `none` for a reserved unit or a
partition the die does not hold. At a rim site unit 4 takes a byte address of its map (R205). -/
def sendAddress (s : State) (site unit slot addr : Nat) : Option Nat :=
  if 25 ≤ site ∧ site < 29 then (if unit = 4 then some addr else none)
  else if unit ≤ 3 then some (coreSramBase unit + addr)
  else if unit = 4 then some (dieSramBase + addr)
  else if unit = 5 then
    (siteDie site).bind (fun d => (partitionOf s d slot).map (fun p => sbBase + p.1 * 2 ^ 20 + addr))
  else if unit = 6 then some addr
  else none

/-- Size of the space a send entry's unit names on a die (R62). -/
def sendLimit (s : State) (site unit slot : Nat) : Nat :=
  if unit ≤ 3 then coreSramSize else if unit = 4 then dieSramSize
  else if unit = 5 then ((siteDie site).bind (fun d => (partitionOf s d slot).map (fun p => p.2 * 2 ^ 20))).getD 0
  else 2 ^ 26

/-- FP32 lanes narrowed to BF16 by nearest even under the kernel's flush-to-zero setting, with the flags raised (R47, R69). -/
def narrowLanes (ftz : Bool) (b : Bytes) : Bytes × Flags :=
  let ls := (List.range (b.length / 4)).map (fun i => floatEncode fmtBF16 .rne false ftz (floatDecode fmtFP32 (leAt b (4 * i) 4)))
  (ls.flatMap (fun x => leBytes 2 x.1), ls.foldl (fun f x => f ||| x.2) 0)

/-- Payload bytes of a send and the flags raised: from a register or from a stream descriptor's row 0 at its cursor (R70);
RSENDs of BF16 round FP32 lanes to BF16 (R69). -/
def sendPayload (n T : Nat) (fromDesc : Bool) (reg bytes : Nat) (bf16 : Bool) (s : State) : Except (Nat × Nat) (Bytes × Flags) :=
  let c := s.core n
  if fromDesc then
    let d := c.desc reg
    let wide := bf16 && dFmt d == fmtFP32
    match spaceRead s n (dSpace d) (dBase d + fmtBits (dFmt d) * tget 0 reg c.cursors / 8) (if wide then 2 * bytes else bytes) with
    | .error e => .error e
    | .ok b => .ok (if wide then narrowLanes c.ftz b else (b, 0))
  else
    match (c.vreg reg).at T with
    | none => .error (exitHAZARD, 0)
    | some l =>
      let b := wordsBytes l
      if bf16 then
        let (x, f) := narrowLanes c.ftz (b.take (2 * bytes))
        .ok (fitBytes bytes x, f)
      else .ok (fitBytes bytes b, 0)

/-- SEND or RSEND in the sync/send slot (R70); `frames` is frames − 1. -/
def useSend (op entry : Nat) (fromDesc : Bool) (reg frames : Nat) (adv : Bool) : SlotUse :=
  useSync op [(4, 5, entry), (9, 1, bitOf fromDesc), (10, 5, reg), (15, 12, frames), (27, 1, bitOf adv)]

/-- Slot of the window a core runs. -/
def windowSlot (s : State) (n : Nat) : Nat := (((s.core n).win.bind s.win).map (·.slot)).getD 0

/-- SEND or RSEND (R69 to R71, R139): 64-byte payloads to the entry's destination; a send to the core's own die uses the
mesh, an RSEND there goes to the reduction unit. -/
def opSend (reduce : Bool) (entry : Nat) (fromDesc : Bool) (reg frames : Nat) (adv : Bool) (n T : Nat) (s : State) : State :=
  let c := s.core n
  let e := c.kernel.sends.getD entry 0
  let site := fieldAt e 0 5
  let unit := fieldAt e 5 3
  let type := fieldAt e 8 2
  let slots : W16 := BitVec.ofNat 16 (fieldAt e 16 16)
  let addr := fieldAt e 32 32 + tget 0 entry c.sendCur
  let slot := windowSlot s n
  if 16 ≤ c.sends.length then endCore n exitHAZARD s
  else
    match sendPayload n T fromDesc reg (64 * frames) (reduce && type == 1) s, sendAddress s site unit slot addr with
    | .error x, _ => readFailed n x s
    | .ok _, none => endCore n exitBOUNDS s
    | .ok (data, fl), some dst =>
      let own := dieSite (coreDie n)
      if site = own ∧ sendLimit s site unit slot < addr + data.length then endCore n exitBOUNDS s
      else
        let chan := c.nextChan
        let s := raiseCore n fl (if fromDesc then spaceTouch (dSpace (c.desc reg)) s else s)
        let c := s.core n
        let s := s.setCore n { c with
          sends := if site = own ∧ !reduce then c.sends else c.sends ++ [{ id := chan, left := frames }]
          nextChan := chan + 1
          sendCur := if adv then tset entry (tget 0 entry c.sendCur + fieldAt e 64 32) c.sendCur else c.sendCur }
        let s := advance n reg (adv && fromDesc) s
        if site = own then
          if reduce then
            (List.range frames).foldl (fun s i =>
              rpartArrive (coreDie n) (memKey site (dst + 64 * i)) n 1 chan ((data.drop (64 * i)).take 64) s) s
          else
            let c := s.core n
            let vis := T + writeLatency 1 + ceilDiv data.length (writeRate s n 1)
            s.setCore n { c with pend := addPend { vis, addr := memKey site dst, data } c.pend }
        else
          (List.range frames).foldl (fun s i =>
            sendWinFrame (if reduce then opRPART else opWRITE) own site (if reduce then n else 63) (if reduce then type else 0)
              (dst / 64 + i) ((data.drop (64 * i)).take 64) (some slots) (some (n, chan)) c.win s) s

/-- Tick by which every write of a core to its own die is visible, the rows of an ASTORE still under way among them (R62, R70). -/
def ownVisible (s : State) (n T : Nat) : Nat :=
  let c := s.core n
  let rows := c.outs.map (fun o =>
    o.start + o.count - 1 + writeLatency (dSpace o.desc) + ceilDiv (rowBytes (dFmt o.desc) 192) (writeRate s n (dSpace o.desc)))
  (c.pend.map (·.vis) ++ rows).foldl max T

/-- FLAG_SET: the value reaches the target core's flag after the core's earlier writes to that die (R70): on its own die in the
tick after the last of them is visible, or after this tick where there is none. One for another die holds a send channel. -/
def opFlagSet (entry flag : Nat) (value : W32) (n T : Nat) (s : State) : State :=
  let c := s.core n
  let e := c.kernel.sends.getD entry 0
  let site := fieldAt e 0 5
  let unit := fieldAt e 5 3
  if site = dieSite (coreDie n) then
    let at_ := ownVisible s n T + 1
    let s := s.setCore n { c with flagsBy := max c.flagsBy at_ }
    holdFlag (coreDie n) { core := 4 * coreDie n + unit % 4, num := flag, value, src := none,
                           deps := openSums s (coreDie n) (fun i => i == n), issuer := n } at_ s
  else
    let chan := c.nextChan
    let s := s.setCore n { c with sends := c.sends ++ [{ id := chan, left := 1 }], nextChan := chan + 1 }
    sendWinFrame opFLAG (dieSite (coreDie n)) site 63 0 (coreSramBase unit / 64) (leBytes 1 flag ++ leBytes 4 value.toNat)
      (some (BitVec.ofNat 16 (fieldAt e 16 16))) (some (n, chan)) c.win s

/-- FLAG_CHECK: passes if the local flag is at least the value, otherwise ends the window with LATE (R70). -/
def opFlagCheck (flag : Nat) (value : W32) (n _T : Nat) (s : State) : State :=
  if tget 0 flag (s.core n).flags < value then endCore n exitLATE s else s

/-- window_id of the window a core runs. -/
def windowIdOf (s : State) (n : Nat) : Nat := (((s.core n).win.bind s.win).map (fun w => w.windowId.toNat)).getD 0

/-- BARRIER: an arrival to every participant in the mask, and a check at t + offset (R70). -/
def opBarrier (bar offset : Nat) (n T : Nat) (s : State) : State :=
  let mask := barrierMask s n bar
  let own := coreDie n
  let s := (bitList 64 mask.toNat).foldl (fun s m =>
    if coreDie m = own then arrive m bar n s
    else sendWinFrame opBARRIER (dieSite own) (dieSite (coreDie m)) 63 0 (coreSramBase m / 64)
           (leBytes 1 bar ++ leBytes 4 (windowIdOf s n)) none none (s.core n).win s) s
  let c := s.core n
  s.setCore n { c with checks := c.checks ++ [(bar, T + offset)] }

/-- BEAT_WAIT: the die's participants are held until the die's replica has reached the launch beat plus the offset; one already
reached waits no cycle (R70, R256). -/
def opBeatWait (offset : Nat) (n _T : Nat) (s : State) : State :=
  let c := s.core n
  let now := replica s (dieSite (coreDie n))
  if c.launch + offset ≤ now then s
  else s.setCore n { c with waitBeat := some (c.launch + offset), waitFrom := now }

/-- LOOP: after the bundle's last repetition, branch back until the body has run the stated number of times (R70). -/
def opLoop (dist iters : Nat) (n _T : Nat) (s : State) : State :=
  let c := s.core n
  if !lastRep c then s else
  let back (left : Nat) (rest : List (Nat × Nat)) : State :=
    s.setCore n { c with loops := (c.bundle, left) :: rest, nextBundle := c.bundle - dist }
  match c.loops with
  | (b, left) :: rest =>
    if b = c.bundle then
      (if left = 0 then s.setCore n { c with loops := rest } else back (left - 1) rest)
    else if iters = 0 then s else back (iters - 1) c.loops
  | [] => if iters = 0 then s else back (iters - 1) []

/-- MARK: the Beagle records the tick of the bundle (R61, R366 kind 0x02). -/
def opMark (n T : Nat) (s : State) : State :=
  let c := s.core n
  traceMake (dieSite (coreDie n)) n 0x02
    (leBytes 4 c.item ++ leBytes 4 (fieldAt c.kernel.header 0 32) ++ leBytes 4 c.bundle ++ leBytes 4 T) s

/-- The end bundle's last repetition: a kernel that reaches it before its declared tick ends with HAZARD, otherwise the checks due
by now are made and it drains, rows still under way included (R70, R73). -/
def opKernelEnd (n T : Nat) (s : State) : State :=
  if !lastRep (s.core n) then s
  else if T + 1 < declaredTicks s n then endCore n exitHAZARD s
  else
    let s := runRows 512 n (T + 64) (runChecks n (T + 1) s)
    let c := s.core n
    if c.state ≠ 1 then s else s.setCore n { c with ended := true, state := 2 }

/-! The commands. -/

def execNoOperation (i : Issue) (s : State) : Out := .next (issue i { slot := 7, op := 0 } (fun _ _ s => s) s)
def execMark (i : Issue) (s : State) : Out := .next (issue i { slot := 5, op := 1 } opMark s)
def execPanel (i : Issue) (desc : Fin 32) (row : W16) (adv : Bool) (s : State) : Out :=
  .next (issue i (useIn 1 desc row.toNat adv []) (opPanel desc row.toNat adv) s)
def execRows (i : Issue) (desc : Fin 32) (row : W16) (count : Fin 64) (adv : Bool) (s : State) : Out :=
  .next (issue i (useIn 2 desc row.toNat adv [(9, 6, count.val)]) (opRows desc row.toNat (count + 1) adv) s)
def execVload (i : Issue) (desc : Fin 32) (row : W16) (vd : VReg) (adv : Bool) (s : State) : Out :=
  .next (issue i (useIn 3 desc row.toNat adv [(15, 5, vd.val)]) (opVload desc row.toNat vd adv) s)
def execAstore (i : Issue) (desc : Fin 32) (bank : Fin 4) (row count : Fin 64) (m : CvtMode) (adv : Bool) (s : State) : Out :=
  .next (issue i (useOut 2 desc m adv [(14, 2, bank.val), (16, 6, row.val), (22, 6, count.val)])
    (opAstore desc bank row (count + 1) m adv) s)
def execVstore (i : Issue) (desc : Fin 32) (v : VReg) (m : CvtMode) (adv : Bool) (s : State) : Out :=
  .next (issue i (useOut 1 desc m adv [(9, 5, v.val)]) (opVstore desc v m adv) s)
def execMma (i : Issue) (fa fb : BitVec 5) (bank : Fin 4) (row count : Fin 64) (swap : Bool) (s : State) : Out :=
  .next (issue i (useMx 1 fa.toNat fb.toNat bank row count swap) (opMatrix false fa.toNat fb.toNat bank row (count + 1) swap) s)
def execMmz (i : Issue) (fa fb : BitVec 5) (bank : Fin 4) (row count : Fin 64) (swap : Bool) (s : State) : Out :=
  .next (issue i (useMx 2 fa.toNat fb.toNat bank row count swap) (opMatrix true fa.toNat fb.toNat bank row (count + 1) swap) s)
def execAclr (i : Issue) (fa fb : BitVec 5) (bank : Fin 4) (row : Fin 64) (rows : ClearRows) (s : State) : Out :=
  .next (issue i (useMx 3 fa.toNat fb.toNat bank row rows.count rows.swap)
    (opAclr fa.toNat fb.toNat bank row (rows.count + 1) rows.swap) s)
def execVnop (i : Issue) (s : State) : Out := .next (issue i { slot := 8, op := 0 } (fun _ _ s => s) s)
def execVadd (i : Issue) (vd va vb : VReg) (s : State) : Out :=
  .next (issue i (useVec 0x01 vd [va, vb]) (opVector vd 4 [va, vb] (fun z l => lanes2 (f32Add z) (arg l 0) (arg l 1))) s)
def execVsub (i : Issue) (vd va vb : VReg) (s : State) : Out :=
  .next (issue i (useVec 0x02 vd [va, vb]) (opVector vd 4 [va, vb] (fun z l => lanes2 (f32Sub z) (arg l 0) (arg l 1))) s)
def execVmul (i : Issue) (vd va vb : VReg) (s : State) : Out :=
  .next (issue i (useVec 0x03 vd [va, vb]) (opVector vd 4 [va, vb] (fun z l => lanes2 (f32Mul z) (arg l 0) (arg l 1))) s)
def execVfma (i : Issue) (vd va vb vc : VReg) (s : State) : Out :=
  .next (issue i (useVec 0x04 vd [va, vb, vc]) (opVector vd 4 [va, vb, vc] (fun z l => lanes3 (f32Fma z) (arg l 0) (arg l 1) (arg l 2))) s)
def execVmax (i : Issue) (vd va vb : VReg) (s : State) : Out :=
  .next (issue i (useVec 0x05 vd [va, vb]) (opVector vd 2 [va, vb] (fun _ l => lanes2 (fun a b => noFlags (f32Max a b)) (arg l 0) (arg l 1))) s)
def execVmin (i : Issue) (vd va vb : VReg) (s : State) : Out :=
  .next (issue i (useVec 0x06 vd [va, vb]) (opVector vd 2 [va, vb] (fun _ l => lanes2 (fun a b => noFlags (f32Min a b)) (arg l 0) (arg l 1))) s)
def execVexp2 (i : Issue) (vd va : VReg) (s : State) : Out :=
  .next (issue i (useVec 0x07 vd [va]) (opVector vd 6 [va] (fun z l => lanes1 (f32Fn exp2Val z) (arg l 0))) s)
def execVlog2 (i : Issue) (vd va : VReg) (s : State) : Out :=
  .next (issue i (useVec 0x08 vd [va]) (opVector vd 6 [va] (fun z l => lanes1 (f32Fn log2Val z) (arg l 0))) s)
def execVrcp (i : Issue) (vd va : VReg) (s : State) : Out :=
  .next (issue i (useVec 0x09 vd [va]) (opVector vd 6 [va] (fun z l => lanes1 (f32Fn rcpVal z) (arg l 0))) s)
def execVrsqrt (i : Issue) (vd va : VReg) (s : State) : Out :=
  .next (issue i (useVec 0x0A vd [va]) (opVector vd 6 [va] (fun z l => lanes1 (f32Fn rsqrtVal z) (arg l 0))) s)
def execVrsum (i : Issue) (vd va : VReg) (s : State) : Out :=
  .next (issue i (useVec 0x0B vd [va]) (opVector vd 12 [va] (fun z l =>
    let (x, f) := laneTree (f32Add z) 9 (arg l 0)
    (List.replicate 512 x, f))) s)
def execVrmax (i : Issue) (vd va : VReg) (s : State) : Out :=
  .next (issue i (useVec 0x0C vd [va]) (opVector vd 10 [va] (fun _ l =>
    (List.replicate 512 (laneTree (fun a b => noFlags (f32Max a b)) 9 (arg l 0)).1, 0))) s)
def execVbcast (i : Issue) (vd va : VReg) (imm : BitVec 9) (s : State) : Out :=
  .next (issue i (useVec 0x0D vd [va] [(40, 9, imm.toNat)]) (opVector vd 3 [va] (fun _ l => (List.replicate 512 ((arg l 0).getD imm.toNat 0), 0))) s)
def execVsel (i : Issue) (vd va vb vc : VReg) (s : State) : Out :=
  .next (issue i (useVec 0x0E vd [va, vb, vc]) (opVector vd 2 [va, vb, vc] (fun _ l =>
    lanes3 (fun a b c => noFlags (selLane a b c)) (arg l 0) (arg l 1) (arg l 2))) s)
def execVcvt (i : Issue) (vd va vc : VReg) (fmt : BitVec 5) (m : CvtMode) (s : State) : Out :=
  .next (issue i (useVec 0x0F vd [va]
      [(21, 5, vc.val), (26, 5, fmt.toNat), (31, 1, bitOf m.sat), (32, 2, bitOf m.stoch), (34, 6, m.conv.val)]) (fun n T s =>
    if fmt.toNat = fmtTRIT5 ∨ !fmtSupported fmt.toNat ∨ (m.stoch ∧ !stochAllowed fmt.toNat) then endCore n exitFORMAT s
    else
      let (img, req) := windowSeeds s n 0
      let id := (s.core n).convId m.conv
      opVector vd 3 (if m.stoch then [va, vc] else [va]) (fun z l =>
        vcvtLanes fmt.toNat (cvtMode m img req id ((arg l 1).headD 0).toNat 0) m.sat z (arg l 0)) n T s) s)
def execAcc2v (i : Issue) (vd : VReg) (imm : BitVec 9) (s : State) : Out := 
  .next (issue i (useVec 0x10 vd [] [(40, 9, imm.toNat)]) (opAcc2v vd imm.toNat) s)
def execViadd (i : Issue) (vd va vb : VReg) (s : State) : Out :=
  .next (issue i (useVec 0x11 vd [va, vb]) (opVector vd 2 [va, vb] (fun _ l => lanes2 i32Add (arg l 0) (arg l 1))) s)
def execVcvti (i : Issue) (vd va : VReg) (s : State) : Out :=
  .next (issue i (useVec 0x12 vd [va]) (opVector vd 3 [va] (fun _ l => lanes1 intOfF32 (arg l 0))) s)
def execVcvtf (i : Issue) (vd va : VReg) (s : State) : Out :=
  .next (issue i (useVec 0x13 vd [va]) (opVector vd 3 [va] (fun _ l => lanes1 f32OfInt (arg l 0))) s)
def execVl8mul (i : Issue) (vd va vb : VReg) (s : State) : Out :=
  .next (issue i (useVec 0x14 vd [va, vb]) (opVector vd 2 [va, vb] (fun _ l =>
    lanes2 (fun a b => let r := log8Mul (a.toNat % 256) (b.toNat % 256); (BitVec.ofNat 32 r.1, r.2)) (arg l 0) (arg l 1))) s)
def execVl8enc (i : Issue) (vd va : VReg) (s : State) : Out :=
  .next (issue i (useVec 0x15 vd [va]) (opVector vd 3 [va] (fun _ l =>
    lanes1 (fun a => let r := log8Encode (f32 a); (BitVec.ofNat 32 r.1, r.2)) (arg l 0))) s)
def execVl8dec (i : Issue) (vd va : VReg) (s : State) : Out :=
  .next (issue i (useVec 0x16 vd [va]) (opVector vd 3 [va] (fun z l => lanes1 (fun a => toF32 z (log8Decode (a.toNat % 256))) (arg l 0))) s)
def execSend (i : Issue) (entry : Fin 32) (fromDesc : Bool) (reg : Fin 32) (frames : BitVec 12) (adv : Bool) (s : State) : Out :=
  .next (issue i (useSend 1 entry fromDesc reg frames.toNat adv) (opSend false entry fromDesc reg (frames.toNat + 1) adv) s)
def execRsend (i : Issue) (entry : Fin 32) (fromDesc : Bool) (reg : Fin 32) (frames : BitVec 12) (adv : Bool) (s : State) : Out :=
  .next (issue i (useSend 2 entry fromDesc reg frames.toNat adv) (opSend true entry fromDesc reg (frames.toNat + 1) adv) s)
def execBarrier (i : Issue) (bar : Byte) (offset : W16) (s : State) : Out :=
  .next (issue i (useSync 3 [(4, 8, bar.toNat), (12, 16, offset.toNat)]) (opBarrier bar.toNat offset.toNat) s)
def execFlagSet (i : Issue) (entry : Fin 32) (flag : Fin 64) (value : W32) (s : State) : Out :=
  .next (issue i (useSync 4 [(4, 5, entry.val), (9, 6, flag.val), (15, 32, value.toNat)]) (opFlagSet entry flag value) s)
def execFlagCheck (i : Issue) (flag : Fin 64) (value : W32) (s : State) : Out :=
  .next (issue i (useSync 5 [(9, 6, flag.val), (15, 32, value.toNat)]) (opFlagCheck flag value) s)
def execBeatWait (i : Issue) (offset : BitVec 40) (s : State) : Out :=
  .next (issue i (useSync 6 [(4, 40, offset.toNat)]) (opBeatWait offset.toNat) s)
def execLoop (i : Issue) (dist : BitVec 12) (iters : BitVec 12) (s : State) : Out :=
  .next (issue i (useSync 7 [(4, 12, dist.toNat), (16, 12, iters.toNat)]) (opLoop dist.toNat iters.toNat) s)
def execKernelEnd (i : Issue) (s : State) : Out := .next (issue i { slot := 6, op := 1 } opKernelEnd s)

/-- BARRIER_CHECK: at t + offset every arrival must be present, or the window ends with LATE (R70). The check is made once the core
is at that tick, or the beat counter says that it has come. -/
def execBarrierCheck (core : CoreId) (bar : Byte) (s : State) : Out :=
  let n := core.val
  match (s.core n).checks.find? (fun x => x.1 == bar.toNat) with
  | none => .next s
  | some x =>
    if (s.core n).tick < x.2 ∧ beatTick s n < x.2 then .next s
    else .next (runCheck n x (progress n (min x.2 (s.core n).tick) s))

/-- BEAT_WAIT_END: the beat is reached on the die (R256), its participants issue again; the wait counts as held cycles (R70, R79). -/
def execBeatWaitEnd (die : DieId) (s : State) : Out :=
  .next ((List.range 4).foldl (fun s j =>
    let n := 4 * die.val + j
    let c := s.core n
    match c.waitBeat with
    | none => s
    | some b =>
      if b ≤ replica s (dieSite die.val) then
        s.setCore n { c with waitBeat := none, holds := c.holds + (b - c.waitFrom) * (s.die die).clock / 1000 }
      else s) s)

end Sys2Proof.Machine
end

