-- ==== Sys2Proof/Machine/Window.lean ====
section
/-! DEFINITION. Locked windows from selection to release, failure and rerun, and the slew governor (R57 to R60, R73 to R79,
R114, R146). -/

namespace Sys2Proof.Machine

/-! What a window uses. -/

/-- Core of a kernel (R57). -/
def kernelCore (k : Kernel) : Nat := fieldAt k.header 32 8

/-- Claims on TDM slots: kind, resource, slot mask (R59, R60). -/
abbrev SlotClaim := Nat × Nat × Nat

/-- Strings that carry a string's frames: itself, or the two legs of its relay while it is OUT (R145, R146). -/
def carrying (s : State) (n : Nat) : List Nat :=
  if strOut s n then
    let (a, b) := stringEnds n
    match relaySite s a b with
    | some r => [primaryString a r, primaryString r b]
    | none => [n]
  else [n]

/-- Slots a window holds: the default die-port slots of its cores and its reservations, on both legs of a relay (R59, R60,
R146). -/
def slotClaims (s : State) (parts : Nat) (reserve : List (BitVec 64)) : List SlotClaim :=
  let own := (bitList 64 parts).flatMap (fun n =>
    let m := maskOf ((List.range 4).map (fun j => 4 * j + n % 4))
    [(1, coreDie n, m), (2, coreDie n, m)])
  own ++ reserve.flatMap (fun e =>
    let m := fieldAt e 24 16
    if fieldAt e 0 8 = 0 then (carrying s (fieldAt e 8 16)).map (fun n => (0, n, m)) else [(fieldAt e 0 8, fieldAt e 8 16, m)])

/-- Slots that windows and cores under test hold (R60, R355). -/
def heldClaims (s : State) : List SlotClaim :=
  s.wins.flatMap (fun x => slotClaims s x.parts.toNat x.reserve) ++
    ((List.range 64).filter (fun n => (s.core n).state == 3)).flatMap (fun n => slotClaims s (2 ^ n) [])

/-- Two claims meet. -/
def claimsMeet (a b : SlotClaim) : Bool := a.1 == b.1 && a.2.1 == b.2.1 && (a.2.2 &&& b.2.2) != 0

/-- Both strings of an ordered pair of sites. -/
def pairStrings (src dst : Nat) : List Nat :=
  if src = dst then [] else primaryString src dst :: (secondString src dst).toList

/-- Strings a window's kernels use: reserved ones, those of its send entries, and those of its barriers. -/
def windowStrings (reserve : List (BitVec 64)) (kernels : List Kernel) (barriers : List W64) : List Nat :=
  let res := reserve.filterMap (fun e => if fieldAt e 0 8 = 0 then some (fieldAt e 8 16) else none)
  let sends := kernels.flatMap (fun k =>
    k.sends.flatMap (fun e => pairStrings (dieSite (coreDie (kernelCore k))) (fieldAt e 0 5)))
  let bars := barriers.flatMap (fun m =>
    let dies := ((bitList 64 m.toNat).map coreDie).eraseDups
    dies.flatMap (fun a => dies.flatMap (fun b => pairStrings (dieSite a) (dieSite b))))
  (res ++ sends ++ bars).eraseDups

/-- Light domain of a string (R151). -/
def stringDomain (n : Nat) : Nat := n % 8

/-- A string belongs to a domain, or its reverse does. -/
def inDomain (d n : Nat) : Bool := stringDomain n == d || stringDomain (reverseString n) == d

/-- A window may be launched over a string: it or its relay has a path, no tile reset has stopped it (R147), and no domain
it touches, through its relay too, is in a launch hold, a credit hold or a return (R161, R167). -/
def stringOpen (s : State) (n : Nat) : Bool :=
  let path := match (s.str n).state with
    | 5 | 4 => false
    | 3 => (relaySite s (stringEnds n).1 (stringEnds n).2).isSome
    | _ => true
  let held := (n :: carrying s n).any (fun m =>
    [stringDomain m, stringDomain (reverseString m)].any (fun d => let k := (s.domain d).state; decide (2 ≤ k ∧ k ≤ 4)))
  path && !(s.str n).stopped && !held

/-- A variant's window can be launched now (R73 step 1, R97, R146, R161, R186, R269, R325). -/
def windowReady (s : State) (slot item : Nat) (w : WindowImg) : Bool :=
  let parts := winMask w.desc
  parts != 0 && !s.sched.halted && dataReady s slot &&
  (bitList 64 parts).all (fun n => coreFree s n item && (s.die (coreDie n)).want.isNone) &&
  (windowStrings w.reserve w.kernels w.barriers).all (stringOpen s) &&
  ((s.imgSlot slot).state == 2 || (s.imgSlot slot).state == 3) &&
  (let held := heldClaims s
   (slotClaims s parts w.reserve).all (fun a => !held.any (claimsMeet a)))

/-! The reduce plan (R114, R138). -/

/-- One RSEND of a kernel: destination site, unit, address, bytes, reduce type. -/
abbrev PlanSend := Nat × Nat × Nat × Nat × Nat

/-- RSENDs of a kernel in issue order, one bundle issue for each unit of fuel: bundle index, repetition, loop stack and
address progress of each send entry. -/
def planWalk : Nat → Kernel → Nat → Nat → List (Nat × Nat) → Tab Nat → List PlanSend
  | 0, _, _, _, _, _ => []
  | fuel + 1, k, pc, rep, loops, prog =>
    match k.bundles[pc]? with
    | none => []
    | some b =>
      let sync := fieldAt b 208 48
      let op := bitsAt sync 0 4
      let entry := bitsAt sync 4 5
      let e := k.sends.getD entry 0
      let at_ := fieldAt e 32 32 + tget 0 entry prog
      let here : List PlanSend :=
        if op = 2 then [(fieldAt e 0 5, fieldAt e 5 3, at_, 64 * (bitsAt sync 15 12 + 1), fieldAt e 8 2)] else []
      let prog := if (op = 1 ∨ op = 2) ∧ bitsAt sync 27 1 = 1 then tset entry (tget 0 entry prog + fieldAt e 64 32) prog else prog
      here ++
        (if rep < fieldAt b 0 6 then planWalk fuel k pc (rep + 1) loops prog
         else if fieldAt b 6 1 = 1 then []
         else if op = 7 then
           let dist := bitsAt sync 4 12
           let iters := bitsAt sync 16 12
           match loops with
           | (l, left) :: rest =>
             if l = pc then
               (if left = 0 then planWalk fuel k (pc + 1) 0 rest prog
                else planWalk fuel k (pc - dist) 0 ((l, left - 1) :: rest) prog)
             else if iters = 0 then planWalk fuel k (pc + 1) 0 loops prog
             else planWalk fuel k (pc - dist) 0 ((pc, iters - 1) :: loops) prog
           | [] =>
             if iters = 0 then planWalk fuel k (pc + 1) 0 [] prog
             else planWalk fuel k (pc - dist) 0 [(pc, iters - 1)] prog
         else planWalk fuel k (pc + 1) 0 loops prog)

/-- A contribution joins the plan: one target for each range, with the mask of its contributing cores. -/
def planAdd (t : RedTarget) (l : List RedTarget) : List RedTarget :=
  if l.any (fun x => x.die == t.die && x.addr == t.addr && x.len == t.len) then
    l.map (fun x => if x.die == t.die && x.addr == t.addr && x.len == t.len then { x with mask := x.mask ||| t.mask } else x)
  else l ++ [t]

/-- Number of the reduction unit at a site: of compute die d, d; of rim die r, 16 + r (R205). -/
def redUnit (site : Nat) : Option Nat := if 25 ≤ site ∧ site < 29 then some (site - 9) else siteDie site

/-- Reduce plan of a window (R114). -/
def reducePlan (s : State) (win slot : Nat) (w : WindowImg) : List RedTarget :=
  w.kernels.foldl (fun l k =>
    (planWalk (winTicks w.desc) k 0 0 [] []).foldl (fun l (p : PlanSend) =>
      let (site, unit, addr, len, type) := p
      match redUnit site, sendAddress s site unit slot addr with
      | some d, some a =>
        planAdd { die := d, win, addr := memKey site a, len, type, mask := BitVec.ofNat 64 (2 ^ kernelCore k) } l
      | _, _ => l) l) []

/-! Rows of a work item (R46, R65, R103). -/

/-- Position of the last token of a context. -/
def rootPosition (c : Ctx) : Nat := c.prompt.length + c.output.length - 1

/-- Token position and request seed of each row of a work item: the nodes of its streams in order, or the tokens of its
prefill chunk. -/
def itemRows (s : State) (it : WorkItem) : List (Nat × W64) :=
  match it.ctx with
  | some id =>
    match s.ctx id with
    | none => []
    | some c => (List.range (min 64 (c.prompt.length - it.first))).map (fun r => (it.first + r, c.seed))
  | none =>
    ((tget {} it.set_ s.sched.sets).streams.flatMap (fun p =>
      match s.ctx p.1 with
      | none => []
      | some c =>
        if c.tree.isEmpty then [(rootPosition c, c.seed)]
        else c.tree.map (fun t => (rootPosition c + t.depth, c.seed)))).take 64

/-! From selection to launch (R73 steps 1 to 4). -/

/-- The work item with an identifier. -/
def itemOf (s : State) (id : Nat) : Option WorkItem := s.sched.items.find? (fun it => it.id == id)

/-- Change a work item. -/
def modItem (id : Nat) (f : WorkItem → WorkItem) (s : State) : State :=
  { s with sched := { s.sched with items := s.sched.items.map (fun it => if it.id = id then f it else it) } }

/-- A window is selected: B_L is set and launch frames go to every participating die (R73 steps 1 and 2). -/
def selectWindow (it : WorkItem) (v : BitVec 64) (im : Image) (w : WindowImg) (s : State) : State :=
  let id := s.sched.nextWin
  let parts := winMask w.desc
  let rows := itemRows s it
  let win : Win :=
    { id, windowId := BitVec.ofNat 32 (fieldAt w.desc 0 32), slot := it.slot, item := it.id, parts := BitVec.ofNat 64 parts
      b0 := s.beat, launch := s.beat + s.obj Obj.lwLaunchLeadBeats, desc := w.desc, barriers := w.barriers
      reserve := w.reserve, kernels := w.kernels, seeds := rows.map (·.2), imageSeed := BitVec.ofNat 64 (imgSeed im)
      plan := reducePlan s id it.slot w }
  let s := { s with wins := s.wins ++ [win], sched := { s.sched with nextWin := id + 1 } }
  let s := modItem it.id (fun it => { it with status := 1, taken := some v }) s
  ((bitList 64 parts).map coreDie).eraseDups.foldl (fun s d => ctlEmit (.launch (dieSite d) id) s) s

/-- The tree of every stream that speculates in a set has been built, before verification may start (R103). -/
def treesBuilt (s : State) (set : Nat) : Bool :=
  (tget {} set s.sched.sets).streams.all (fun p => p.2 == 0 || ((s.ctx p.1).map (fun c => decide (0 < c.drafted ∧ c.tree ≠ []))).getD true)

/-- WINDOW_SELECT: the item has been taken with this variant (R97) and its window is launchable (R73 step 1); otherwise it waits. -/
def execWindowSelect (item variant : Nat) (s : State) : Out :=
  match itemOf s item with
  | none => .next s
  | some it =>
    match it.variants[variant]?, imageOf s it.slot with
    | some v, some im =>
      match imgWindow im (fieldAt v 0 32) with
      | none => .next s
      | some w =>
        if it.kind < 4 ∧ it.pending = 0 ∧ it.status = 1 ∧ it.taken = some v
            ∧ (it.kind ≠ 2 ∨ treesBuilt s it.set_) ∧ !s.wins.any (fun x => x.item == item) ∧ windowReady s it.slot item w
        then .next (selectWindow it v im w s) else .next s
    | _, _ => .next s

/-- SLOT_CUTOFF: 100 beats before launch the window's slots are taken from dynamic requesters (R73 step 3). -/
def execSlotCutoff (win : Nat) (s : State) : Out :=
  match s.win win with
  | none => .next s
  | some w =>
    if w.phase = 0 ∧ w.launch ≤ s.beat + 100 then .next (s.modWin win (fun w => { w with phase := 1 })) else .next s

/-- A selected window that cannot be launched at its beat gives its slots and launch records back; its item, still taken, may be
selected again (DESIGN CHOICE, log entry 85). -/
def withdrawWindow (w : Win) (s : State) : State :=
  let s := { s with wins := s.wins.filter (fun x => x.id != w.id) }
  ((bitList 64 w.parts.toNat).map coreDie).eraseDups.foldl (fun s d =>
    s.setDie d { s.die d with launches := (s.die d).launches.filter (fun x => x.1 != w.windowId.toNat) }) s

/-- A selected window may still be launched: no frequency change waits on a participating die (R75), and every string it uses has
a path, no hold and no tile reset (R146, R147, R161). -/
def stillOpen (s : State) (w : Win) : Bool :=
  (bitList 64 w.parts.toNat).all (fun n => (s.die (coreDie n)).want.isNone) &&
    (windowStrings w.reserve w.kernels w.barriers).all (stringOpen s)

/-- A participant at tick 0 (R73 step 4): everything of the window's state is zero, and the row-token table is loaded. -/
def enterWindow (w : Win) (tokens : List W32) (n : Nat) (s : State) : State :=
  let old := s.core n
  s.setCore n { ({} : Core) with
    state := 1, win := some w.id, kernel := (w.kernels.find? (fun k => kernelCore k == n)).getD emptyKernel
    ftz := winFtz w.desc, item := w.item, launch := w.launch, tokens
    nextBundle := 1, nextChan := old.nextChan, ring := old.ring, katRepeat := old.katRepeat, acts := old.acts }

/-- Every participant's die has reached the launch beat (R73, R256). -/
def beatReached (s : State) (w : Win) : Bool :=
  (bitList 64 w.parts.toNat).all (fun n => decide (w.launch ≤ replica s (dieSite (coreDie n))))

/-- WINDOW_LAUNCH: at the launch beat every participant enters the window (R73 step 4), unless something that bars its launch has
come up since its selection. A die that has gone down meanwhile ends it with SHUTDOWN (R76). -/
def execWindowLaunch (win : Nat) (s : State) : Out :=
  match s.win win with
  | none => .next s
  | some w =>
    if 2 ≤ w.phase ∨ !beatReached s w then .next s
    else if !stillOpen s w then .next (withdrawWindow w s)
    else
      let tokens := (((itemOf s w.item).map (itemRows s)).getD []).map (fun r => BitVec.ofNat 32 r.1)
      let parts := bitList 64 w.parts.toNat
      let s := parts.foldl (fun s n => enterWindow w tokens n s) s
      let s := (parts.map coreDie).eraseDups.foldl (fun s d =>
        s.setDie d { s.die d with launches := (s.die d).launches.filter (fun x => x.1 != w.windowId.toNat) }) s
      let s := s.modWin win (fun w => { w with phase := 2, watchdog := s.obj Obj.lwWatchdogBeats })
      let s := s.count Obj.lwLaunched 1
      let s := traceMake hubSite 0 0x03 (leBytes 4 w.windowId.toNat ++ leBytes 8 w.launch ++ leBytes 8 w.parts.toNat) s
      .next (parts.foldl (fun s n => if dieUp s (coreDie n) then s else endCore n exitSHUTDOWN s) s)

/-! Drain and release (R73 steps 6 to 8). -/

/-- The 32-byte kernel status record (R79). -/
def statusRecord (c : Core) : BitVec 256 :=
  BitVec.ofNat 256 (leNat (leBytes 4 c.item ++ leBytes 4 (fieldAt c.kernel.header 0 32) ++ leBytes 8 c.launch
    ++ leBytes 4 (c.tick + 1) ++ leBytes 4 c.stretch ++ leBytes 2 (min c.holds 0xFFFF) ++ leBytes 2 c.astat.toNat
    ++ leBytes 1 c.exit ++ leBytes 3 c.faultBundle))

/-- Bytes a failed window wrote are undefined (R76): each is a free value. -/
def forgetRange (r : Nat × Nat) (s : State) : State := (s.store r.1 (s.freeBytes r.2)).drawn r.2

/-- Counter of a window's end (R80). -/
def exitCounter (code : Nat) : Nat :=
  if code = 0 then Obj.lwCompleted else if code = exitLATE then Obj.lwLate
  else if code = exitHAZARD ∨ code = exitFORMAT ∨ code = exitBOUNDS then Obj.lwImageFaults else Obj.lwOtherExits

/-- An item's window completed: reruns start anew, and the condition of repeated rerun clears for it (R288 bit 2). -/
def windowOk (item : Nat) (s : State) : State :=
  let s := modItem item (fun it => { it with status := 3, reruns := 0, failed := 0, tests := 0, tested := false }) s
  if s.dev.rerunning.contains item then
    let s := { s with dev := { s.dev with rerunning := s.dev.rerunning.erase item } }
    setReason 2 (!s.dev.rerunning.isEmpty) s
  else s

/-- An open window holds slots on, or sends over, one of some strings (R144, R146, R161). -/
def windowOver (s : State) (w : Win) (ns : List Nat) : Bool :=
  (windowStrings w.reserve w.kernels w.barriers).any (fun n => ns.contains n || (carrying s n).any ns.contains)

/-- Strings back from OUT are used again once no open window uses their relay legs (R144). -/
def settleWaiting (s : State) : State :=
  { s with strings := s.strings.map (fun (p : Nat × Str) =>
    if p.2.waiting && !s.wins.any (fun w => w.phase == 2 && windowOver s w (carrying s p.1)) then
      (p.1, { p.2 with waiting := false }) else p) }

/-- A window of a prefill chunk failed: the prefix blocks it wrote are not to be entered (R249). -/
def taintPrefill (item : Nat) (s : State) : State :=
  match itemOf s item with
  | some it =>
    (match it.ctx with
    | some c => modCtx c (fun c => { c with faulted := c.faulted ++ [it.first] }) s
    | none => s)
  | none => s

/-- The last participant has drained (R73 step 8): the slots are free, the window is counted by its exit code (R76, R80),
partials still held are discarded (R138), and its item goes on, waits for a rerun, or takes its slot down (R77). -/
def releaseWindow (w : Win) (s : State) : State :=
  let s := discardPartials w.id s
  let s := settleWaiting { s with wins := s.wins.filter (fun x => x.id != w.id) }
  let site := dieSite (coreDie ((bitList 64 w.parts.toNat).headD 0))
  if w.code = 0 then windowOk w.item (s.count Obj.lwCompleted 1)
  else
    let s := taintPrefill w.item (w.wrote.foldl (fun s r => forgetRange r s) s)
    let s := countLog (exitCounter w.code) 2 0 site 0 (leBytes 4 w.windowId.toNat ++ leBytes 1 w.code) s
    if w.code = exitHAZARD ∨ w.code = exitFORMAT ∨ w.code = exitBOUNDS then
      let s := modItem w.item (fun it => { it with status := 3, failed := w.code }) s
      slotFaulty w.slot 2 s
    else modItem w.item (fun it => { it with status := 2, failed := w.code }) s

/-- Every write of a core becomes visible. -/
def commitAll (n : Nat) (s : State) : State := commitCore n (((s.core n).pend.map (·.vis)).foldl max 0) s

/-- Tick by which every write of a core and every flag write to its own die has taken effect. -/
def drainBy (c : Core) : Nat := (c.pend.map (·.vis)).foldl max c.flagsBy

/-- Everything a draining core has sent off is visible or accepted (R73 step 6): no send channel is held, no flag write of it waits
behind sums or writes on its die, and the cores of the die that still issue have come to the tick of its last effect. -/
def drained (s : State) (n : Nat) : Bool :=
  (s.core n).sends.isEmpty && !(s.die (coreDie n)).flagWait.any (fun f => f.issuer == n) &&
    (issuingMates s n).all (fun m => decide (drainBy (s.core n) ≤ (s.core m).tick))

/-- DRAIN_END: with everything visible or accepted, the participant writes its status record and becomes free; the last one
releases the window (R73 steps 6 to 8). Until then it goes on draining. -/
def execDrainEnd (core : CoreId) (s : State) : Out :=
  let n := core.val
  let c := s.core n
  match c.state, c.win.bind s.win with
  | 2, some w =>
    let s := if w.code = 0 then s else discardPartials w.id s
    if !drained s n then .next s
    else
      let s := commitAll n s
      let c := s.core n
      let rec_ := statusRecord c
      let s := s.setCore n { c with state := 0, win := none, ring := (c.ring ++ [rec_]).drop ((c.ring.length + 1) - 64) }
      let s := traceMake (dieSite (coreDie n)) n 0x01 (bvBytes rec_) s
      let drained := w.drained ||| BitVec.ofNat 64 (2 ^ n)
      let s := s.modWin w.id (fun w => { w with drained })
      match s.win w.id with
      | some w => if w.drained = w.parts then .next (releaseWindow w s) else .next s
      | none => .next s
  | _, _ => .next s

/-- END_NOTICE: another participant has ended the window; this one stops and records PEER (R76). -/
def execEndNotice (core : CoreId) (s : State) : Out :=
  match (s.core core).win.bind s.win with
  | some w => if w.code = 0 then .next s else .next (endCore core exitPEER s)
  | none => .next s

/-- DECLARED_TICKS_EXPIRY: no end bundle by tick declared_ticks − 1 (R73). -/
def execDeclaredTicksExpiry (core : CoreId) (s : State) : Out :=
  let n := core.val
  if (s.core n).state = 1 ∧ (declaredTicks s n ≤ (s.core n).tick + 1 ∨ declaredTicks s n ≤ beatTick s n)
  then .next (endCore n exitHAZARD s) else .next s

/-- LW_WATCHDOG_EXPIRY: a window open for more than `lw_watchdog_beats` (R76). -/
def execLwWatchdogExpiry (win : Nat) (s : State) : Out :=
  match s.win win with
  | none => .next s
  | some w =>
    if w.phase = 2 ∧ w.launch + w.watchdog < s.beat then
      let s := endWindow win exitWATCHDOG s
      .next (s.modWin win (fun w => if w.code = 0 then { w with code := exitWATCHDOG } else w))
    else .next s

/-! Queues and waits (R97, R98). -/

/-- Home queue: 0–63 a core's, 64 + d the Whippet queue of die d (R97). -/
def homeQueue (s : State) (it : WorkItem) : Nat :=
  match it.variants.head? with
  | none => 0
  | some v =>
    if it.kind < 4 then (bitList 64 (variantParts s it.slot v)).headD 0 else 64 + (bitList 16 (variantDies v)).headD 0

/-- Queue of a taker: 0–63 a core, 64 + w Whippet w. -/
def ownQueue (taker : Nat) : Nat := if taker < 64 then taker else 64 + whipDie (taker - 64)

/-- Items that arrive in a queue, ready, end the waits of the thieves whose own queue it is (R98). -/
def endWaits (ids : List Nat) (s : State) : State :=
  let qs := (s.sched.items.filter (fun it => ids.contains it.id && it.pending == 0)).map (homeQueue s)
  { s with sched := { s.sched with thieves := s.sched.thieves.map (fun (p : Nat × Thief) =>
    (p.1, if qs.contains (ownQueue p.1) then { p.2 with backoff := none } else p.2)) } }

/-! Reruns (R77). -/

/-- Queue the known-answer tests of an item's last participants (R77 step 2, R357). -/
def queueTests (mask : Nat) (s : State) : State := (bitList 64 mask).foldl (fun s n => queueKat n 1 none s) s

/-- WORK_ITEM_RERUN: a failed item is queued again; at the limit its participants are tested first, and an item whose cores
all pass makes the module Degraded and runs again (R77). A due test goes first (R371). -/
def execWorkItemRerun (item : Nat) (s : State) : Out :=
  match itemOf s item with
  | none => .next s
  | some it =>
    if it.status ≠ 2 ∨ it.tests ≠ 0 then .next s
    else
      let again (r : Nat) (s : State) : State :=
        endWaits [item] ((modItem item (fun it => { it with status := 0, reruns := r, taken := none }) s).count Obj.lwReruns 1)
      let limit := s.obj Obj.lwRerunLimit
      if it.reruns < limit then .next (again (it.reruns + 1) s)
      else if !it.tested then
        let mask := (it.taken.map (variantParts s it.slot)).getD 0
        .next (queueTests mask (modItem item (fun it => { it with tests := BitVec.ofNat 64 mask, tested := true }) s))
      else
        let passed := (it.taken.map (variantEnabled s it.slot it.kind)).getD false
        let s :=
          if passed ∧ !s.dev.rerunning.contains item then
            let s := logEvent Obj.stateReasons 1 0 0xFF 0 (leBytes 1 it.failed) s
            setReason 2 true { s with dev := { s.dev with rerunning := s.dev.rerunning ++ [item] } }
          else s
        .next (again it.reruns s)

/-! The slew governor (R78) and the ceilings it enforces (R331). -/

/-- Lower of two optional ceilings. -/
def minCeil : Option Nat → Option Nat → Option Nat
  | some a, some b => some (min a b)
  | some a, none => some a
  | none, b => b

/-- Ceiling in force on a die (R331). -/
def ceilingOf (d : Die) : Option Nat := minCeil d.thermCeil d.capCeil

/-- Held cycles counted in every open window of a die (R79). -/
def holdDie (die k : Nat) (s : State) : State :=
  (List.range 4).foldl (fun s j =>
    let c := s.core (4 * die + j)
    if c.state = 1 then s.setCore (4 * die + j) { c with holds := c.holds + k } else s) s

/-- Activity of a die in the interval under way (R78): counters 0 to 6 of its cores, and 7 the frames of its lightbed tile. -/
def dieActivity (s : State) (die : Nat) : List Nat :=
  (List.range 7).map (fun k => ((List.range 4).map (fun j => tget 0 k (s.core (4 * die + j)).acts)).sum) ++ [(s.die die).tileActs]

/-- Power that a die's activity stands for, 0.1 W: each counter times its weight, above the idle die (R78). -/
def activityPower (s : State) (die : Nat) : Nat :=
  let acts := dieActivity s die
  Sys2Proof.Config.powerCoeff die 8 / 2 ^ 20 +
    ((acts.zip (List.range 8)).map (fun p => p.1 * Sys2Proof.Config.powerCoeff die p.2)).sum / 2 ^ 20

/-- The counters start anew at the beat at which an interval ended. -/
def clearActivity (die ends : Nat) (s : State) : State :=
  let s := (List.range 4).foldl (fun s j => s.setCore (4 * die + j) { s.core (4 * die + j) with acts := [] }) s
  s.setDie die { s.die die with tileActs := 0, intervalAt := ends }

/-- Power of an interval whose activity wants `want`: limit, the powers of the last 49 intervals, ceiling, and whether ballast is on
(R78, R331): what the slew limit leaves of it, what the ceiling leaves of that, and what ballast makes of that. -/
def governed (limit want : Nat) (hist : List Nat) (ceiling : Option Nat) (ballast : Bool) : Nat × Nat × Nat :=
  let lo := hist.foldl min (hist.headD want)
  let hi := hist.foldl max (hist.headD want)
  let rise := if lo + limit < want then lo + limit else want
  let top := match ceiling with
    | some c => min rise c
    | none => rise
  let fill := if top + limit < hi ∧ ballast then hi - limit else top
  let power := match ceiling with
    | some c => if c < fill then top else fill
    | none => fill
  (rise, top, power)

/-- GOVERNOR_INTERVAL: at the end of each 1 µs, the beat `ends`, the die's power is taken from its activity; a rise above the least of the last 49
intervals by more than the limit is held back, a fall below the greatest is filled with ballast, and a ceiling holds the die
below it (R78, R331). -/
def execGovernorInterval (die : DieId) (ends : Nat) (s : State) : Out :=
  let d := s.die die
  if ends < d.intervalAt + 1000 ∨ s.beat < ends then .next s
  else
    let want := activityPower s die
    let (rise, top, power) := governed (10 * s.obj Obj.slewLimitW) want d.hist (ceilingOf d) (s.obj Obj.ballastEnable == 1)
    let heldSlew := if rise < want then Sys2Proof.Config.holdsFor want rise else 0
    let heldCeil := if top < rise then Sys2Proof.Config.holdsFor rise top else 0
    let ballast := if top < power then Sys2Proof.Config.ballastFor top power else 0
    let s := clearActivity die ends s
    let s := s.setDie die { s.die die with hist := (power :: d.hist).take 49 }
    let s := holdDie die (heldSlew + heldCeil) s
    let s := s.count Obj.governorHoldCycles heldSlew
    let s := s.count Obj.thermHoldCycles heldCeil
    .next (s.count Obj.ballastCycles ballast)

end Sys2Proof.Machine
end

