-- ==== Sys2Proof/Machine/Sheepdog.lean ====
section
/-! DEFINITION. The Sheepdog: steps and their work items (R95, R102), readiness, queues and takes (R97, R101), and stealing
(R98 to R100). -/

namespace Sys2Proof.Machine

/-! Templates (R95). -/

def tmplId (t : BitVec 256) : Nat := fieldAt t 0 32
def tmplKind (t : BitVec 256) : Nat := fieldAt t 32 8

/-- Variant entries of a template. -/
def tmplVariants (im : Image) (t : BitVec 256) : List (BitVec 64) := (im.variants.drop (fieldAt t 128 32)).take (fieldAt t 40 8)

/-- Identifiers of a template's successors. -/
def tmplSuccessors (im : Image) (t : BitVec 256) : List Nat :=
  ((im.successors.drop (fieldAt t 160 32)).take (fieldAt t 192 16)).map (·.toNat)

/-- Routine code that a kind-4 template invokes. -/
def tmplRoutine (im : Image) (t : BitVec 256) : Nat :=
  (((tmplVariants im t).head?.bind (fun v => imgRoutineById im (fieldAt v 0 32))).map (fun d => leAt d 0 1)).getD 0

/-- Work items are instantiated from templates: identifiers run on, pending counts the instantiated predecessors, and
successors are those instantiated with them (R95). -/
def instantiate (slot set : Nat) (ctx : Option Nat) (deadline : W64) (first : Nat) (im : Image) (ts : List (BitVec 256))
    (s : State) : State :=
  let base := s.sched.nextId
  let numbered := ts.zip (List.range ts.length)
  let idOf (t : Nat) : Option Nat := (numbered.find? (fun p => tmplId p.1 == t)).map (fun p => base + p.2)
  let items := numbered.map (fun p =>
    ({ id := base + p.2, slot, kind := tmplKind p.1
       pending := (ts.filter (fun t => (tmplSuccessors im t).contains (tmplId p.1))).length
       deadline, variants := tmplVariants im p.1, succ := (tmplSuccessors im p.1).filterMap idOf, set_ := set, ctx, first } : WorkItem))
  endWaits (items.map (·.id)) { s with sched := { s.sched with items := s.sched.items ++ items, nextId := base + ts.length } }

/-- A positive or negative zero: a greedy request's temperature (R87, R243). -/
def isZeroF (w : W32) : Bool := w.toNat % 2 ^ 31 == 0

/-- Active greedy streams (R102). -/
def activeGreedy (s : State) : Nat := (s.serve.ctxs.filter (fun c => c.phase == 2 && isZeroF c.temp)).length

/-- Speculation nodes a stream is granted in its next step, 0 for a plain step (R102). -/
def specNodes (s : State) (im : Image) (c : Ctx) : Nat :=
  match imgRoutine im 0x04 with
  | none => 0
  | some d =>
    let count := leAt d 16 1
    let limit := s.obj Obj.specMaxStreams
    let active := activeGreedy s
    if !isZeroF c.temp then count
    else if limit = 0 then 0
    else if active ≤ limit then count
    else if (leAt d 17 1).testBit 0 then max 1 (limit * count / active)
    else 0

/-- A session's records window is full: its streams are taken into no new step (R242). -/
def sessionFull (s : State) (num : W32) : Bool :=
  ((sessOf s num).map (fun q => decide (s.obj Obj.serveWindowRecords ≤ q.unacked.length))).getD true

/-- Pages of a context and of the prefix blocks it uses. -/
def ctxPages (s : State) (c : Ctx) : List Nat :=
  c.pages ++ (s.dram.blocks.filter (fun b => c.blocks.contains b.id)).flatMap (·.pages)

/-- Pin cached pages (R118). -/
def pinPages (ps : List Nat) (s : State) : State :=
  { s with dies := s.dies.map (fun (x : Nat × Die) => (x.1, { x.2 with
    dir := x.2.dir.map (fun (e : Nat × CacheEnt) => (e.1, { e.2 with pinned := e.2.pinned || ps.contains e.2.page })) })) }

/-- Pages of the streams of the steps under way (R118). -/
def stepPages (s : State) : List Nat :=
  let ids := s.sched.sets.flatMap (fun (p : Nat × StepSet) => p.2.streams.map (·.1))
  (s.serve.ctxs.filter (fun c => ids.contains c.id)).flatMap (ctxPages s)

/-- Of the cached pages the listed ones alone stay pinned. -/
def pinOnly (ps : List Nat) (s : State) : State :=
  { s with dies := s.dies.map (fun (x : Nat × Die) => (x.1, { x.2 with
    dir := x.2.dir.map (fun (e : Nat × CacheEnt) => (e.1, { e.2 with pinned := e.2.pinned && ps.contains e.2.page })) })) }

/-- Templates of a step: plain decode for plain streams, verification and the draft routines for speculating ones,
attention blocks and the step's other routines for both; prefill chunks, the tokenizer and the hasher belong to no step. -/
def stepTemplate (im : Image) (plain spec : Bool) (t : BitVec 256) : Bool :=
  match tmplKind t with
  | 1 => plain
  | 2 => spec
  | 3 => true
  | 4 => (match tmplRoutine im t with
    | 0x02 | 0x05 => true
    | 0x03 | 0x04 => spec
    | _ => false)
  | _ => false

/-- STEP_INSTANTIATE: at a step boundary of the slot, requests due to end there end (R105); its active streams form a stream
set, each plain or speculative, their KV pages are pinned, and the step's work items are instantiated (R95, R102, R118). -/
def execStepInstantiate (slot : SlotId) (s : State) : Out :=
  let sl := slot.val
  if s.sched.sets.any (fun (p : Nat × StepSet) => p.2.slot == sl) then .next s
  else
    let s := ((s.serve.ctxs.filter (fun c => c.slot == sl && c.ending.isSome)).map (·.id)).foldl (fun s id => settleEnding id s) s
    match imageOf s sl with
    | none => .next s
    | some im =>
      let run := (s.imgSlot sl).state == 2 || (s.imgSlot sl).state == 3
      let streams := s.serve.ctxs.filter (fun c => c.slot == sl && c.phase == 2 && c.ending.isNone && !sessionFull s c.session)
      if streams.isEmpty || !run || !(s.dev.state == 5 || s.dev.state == 6 || s.dev.state == 7)
          || !dataReady s sl then .next s
      else
        let granted := streams.map (fun c => (c.id, specNodes s im c))
        let plain := granted.any (fun p => p.2 == 0)
        let spec := granted.any (fun p => p.2 != 0)
        let set := s.sched.nextSet
        let deadline := streams.foldl (fun (m : W64) c => if c.deadline < m then c.deadline else m) 0xFFFFFFFFFFFFFFFF
        let s := pinPages (streams.flatMap (ctxPages s)) s
        let s := streams.foldl (fun s c => modCtx c.id (fun c => { c with step := [], tree := [], drafted := 0, scratch := [], draftNew := [] }) s) s
        let s := { s with sched := { s.sched with
          sets := tset set { slot := sl, streams := granted } s.sched.sets, nextSet := set + 1 } }
        .next (instantiate sl set none deadline 0 im (im.items.filter (stepTemplate im plain spec)) s)

/-- A step is over once its items are complete and every stream of it is through: its pages are unpinned (R118). -/
def settleStep (set : Nat) (s : State) : State :=
  match tfind set s.sched.sets with
  | none => s
  | some x =>
    if s.sched.items.any (fun it => it.kind != 0 && it.set_ == set && it.ctx.isNone) || !x.streams.all (fun p => x.over_.contains p.1)
    then s
    else
      let ids := x.streams.map (·.1)
      let s := { s with sched := { s.sched with sets := terase set s.sched.sets } }
      let s := pinOnly (stepPages s) s
      ids.foldl (fun s id => settleEnding id s) s

/-! Queues and takes (R97). -/

/-- Put an item in queue order: deadline beat, then identifier (R97). -/
def addQueue (it : WorkItem) : List WorkItem → List WorkItem
  | [] => [it]
  | x :: r => if it.deadline < x.deadline || (it.deadline == x.deadline && it.id < x.id) then it :: x :: r else x :: addQueue it r

/-- Ready items of a queue, in order. -/
def readyQueue (s : State) (q : Nat) : List WorkItem :=
  (s.sched.items.filter (fun it => it.pending == 0 && it.status == 0 && homeQueue s it == q)).foldl (fun l it => addQueue it l) []

/-- Compute die of a taker. -/
def takerDie (taker : Nat) : Nat := if taker < 64 then coreDie taker else whipDie (taker - 64)

/-- The taker can launch a variant: it takes part and every participant is free, or its die's idle Whippets suffice; an item that
waits for image data is launched by none (R97, R101, R186). -/
def canTake (s : State) (taker : Nat) (it : WorkItem) (v : BitVec 64) : Bool :=
  if !dataReady s it.slot then false
  else if it.kind < 4 then
    let m := variantParts s it.slot v
    taker < 64 && m.testBit taker && (bitList 64 m).all (fun n => coreFree s n it.id)
  else
    let need := (((imageOf s it.slot).bind (fun im => imgRoutineById im (fieldAt v 0 32))).map shardsOf).getD 17
    64 ≤ taker && whipIdle s (taker - 64) && (variantDies v).testBit (takerDie taker)
      && need ≤ (idleWhips s (takerDie taker)).length

/-- First item of a queue that a taker can launch, with its variant (R97). -/
def firstTake (s : State) (q taker : Nat) : Option (WorkItem × BitVec 64) :=
  (readyQueue s q).findSome? (fun it => (it.variants.find? (canTake s taker it)).map (fun v => (it, v)))

/-- The item is taken: all participants are claimed at once; from another's queue it is stolen (R97, R98). -/
def takeItem (it : WorkItem) (v : BitVec 64) (taker victim : Nat) (s : State) : State :=
  let s := modItem it.id (fun it => { it with status := 1, taken := some v }) s
  let s :=
    if it.kind < 4 then s
    else
      let need := (((imageOf s it.slot).bind (fun im => imgRoutineById im (fieldAt v 0 32))).map shardsOf).getD 1
      let ws := ((taker - 64) :: (idleWhips s (takerDie taker)).erase (taker - 64)).take (max 1 need)
      ws.foldl (fun s w => s.setWhip w { s.whip w with state := 1, item := it.id }) s
  let stolen := victim != ownQueue taker
  let s := if stolen then (s.count Obj.steals 1).count Obj.stealsSincePowerup 1 else s
  let t := tget {} taker s.sched.thieves
  let s := { s with sched := { s.sched with thieves := tset taker { t with backoff := none } s.sched.thieves } }
  -- a Whippet's number is 0 to 255 (R16), and a Whippet queue's byte is that of its die (DESIGN CHOICE, log entry 86)
  let number (n : Nat) : Nat := if n < 64 then n else n - 64
  traceMake (dieSite (takerDie taker)) (number taker) 0x04
    (leBytes 4 it.id ++ leBytes 1 (number taker) ++ leBytes 1 (number victim) ++ leBytes 1 (if stolen then 1 else 0)) s

/-- A verification step has run: the tree scratch holds the target KV of every node of its streams, bytes that the window wrote
(R103). -/
def fillScratch (set : Nat) (s : State) : State :=
  (tget {} set s.sched.sets).streams.foldl (fun s p =>
    match s.ctx p.1 with
    | none => s
    | some c =>
      let n := ((imageOf s c.slot).map imgKvBytes).getD 0
      let entry (i : Nat) : Bytes := (List.range n).map (fun j => Sys2Proof.Config.freeByte (s.free + n * i + j))
      let s := modCtx c.id (fun c => { c with scratch := (List.range c.tree.length).map (fun i => (i, entry i)) }) s
      s.drawn (n * c.tree.length)) s

/-- WORK_ITEM_COMPLETE: a window item that ran, or a routine item taken; each successor waits for one predecessor less
(R97). -/
def execWorkItemComplete (item : Nat) (s : State) : Out :=
  match itemOf s item with
  | none => .next s
  | some it =>
    if !(it.status == 3 || (it.kind == 4 && it.status == 1)) then .next s
    else
      let s := { s with
        whips := s.whips.map (fun (p : Nat × Whip) => (p.1,
          if p.2.state = 1 ∧ p.2.item = item ∧ it.kind = 4 then { p.2 with state := 0, item := 0 } else p.2))
        sched := { s.sched with items := (s.sched.items.filter (fun x => x.id != item)).map (fun x =>
          if it.succ.contains x.id && it.failed == 0 then { x with pending := x.pending - 1 } else x) } }
      let s := endWaits it.succ (if it.kind = 2 then fillScratch it.set_ s else s)
      match it.ctx with
      | some c => .next (settleEnding c s)
      | none => .next (settleStep it.set_ s)

/-! Stealing. -/

/-- Grid distance of two compute dies (R15, R100). -/
def dieDistance (a b : Nat) : Nat :=
  let x := dieSite a
  let y := dieSite b
  (Int.natAbs ((x % 5 : Int) - (y % 5 : Int))) + (Int.natAbs ((x / 5 : Int) - (y / 5 : Int)))

/-- Put a victim in order of its key. -/
def addVictim (x : Nat × Nat × Nat × Nat) : List (Nat × Nat × Nat × Nat) → List (Nat × Nat × Nat × Nat)
  | [] => [x]
  | y :: r =>
    let before : Bool := x.1 < y.1 || (x.1 == y.1 && (x.2.1 < y.2.1 || (x.2.1 == y.2.1 && x.2.2.1 < y.2.2.1)))
    if before then x :: y :: r else y :: addVictim x r

/-- Victims by three ascending keys. -/
def orderVictims (l : List (Nat × Nat × Nat × Nat)) : List Nat := (l.foldl (fun l x => addVictim x l) []).map (fun x => x.2.2.2)

/-- History is in force: `steal_order_mode` (R99, R100). -/
def historyMode (s : State) : Bool := s.obj Obj.stealHistoryThreshold ≤ s.obj Obj.stealsSincePowerup

/-- Victim queues of a thief in order (R99, R100). -/
def victimOrder (s : State) (thief : Nat) : List Nat :=
  let d := takerDie thief
  let t := tget {} thief s.sched.thieves
  let others := (List.range 16).filter (· != d)
  let deep (q : Nat) : Nat := 65535 - (tget 0 q t.avg).toNat
  let cls (e : Nat) : Nat := tget 0 (16 * e + d) s.sched.latency
  if thief < 64 then
    if historyMode s then
      let own := ((List.range 4).map (fun j => 4 * d + j)).filter (· != thief)
      orderVictims (own.map (fun q => (0, deep q, q, q))
        ++ others.flatMap (fun e => (List.range 4).map (fun j => (cls e, deep (4 * e + j), 4 * e + j, 4 * e + j))))
    else
      ((List.range 3).map (fun j => 4 * d + (thief + j + 1) % 4))
        ++ (orderVictims (others.map (fun e => (dieDistance d e, 0, e, e)))).flatMap (fun e => (List.range 4).map (fun j => 4 * e + j))
  else if historyMode s then orderVictims (others.map (fun e => (cls e, deep (64 + e), e, 64 + e)))
  else (orderVictims (others.map (fun e => (dieDistance d e, 0, e, e)))).map (64 + ·)

/-- Probe victims in turn; an empty answer counts and the next is probed (R97, R98). -/
def probe (thief : Nat) : List Nat → State → State
  | [], s =>
    let t := tget {} thief s.sched.thieves
    { s with sched := { s.sched with
      thieves := tset thief { t with backoff := some (s.beat + s.obj Obj.stealBackoffNs) } s.sched.thieves } }
  | q :: r, s =>
    match firstTake s q thief with
    | some (it, v) => takeItem it v thief q s
    | none => probe thief r (s.count Obj.stealEmptyProbes 1)

/-- A thief has nothing to do: free or idle, and nothing to take in its own queue (R98). -/
def idleThief (s : State) (thief : Nat) : Bool :=
  thief < 320 && (if thief < 64 then coreFree s thief 0xFFFFFFFF else whipIdle s (thief - 64)) &&
    (firstTake s (ownQueue thief) thief).isNone

/-- A thief that may probe: idle, and not waiting after an empty attempt (R98). -/
def mayProbe (s : State) (thief : Nat) : Bool := idleThief s thief && (tget {} thief s.sched.thieves).backoff.isNone

/-- Victims of one attempt (R98). -/
def attemptOrder (s : State) (thief : Nat) : List Nat := (victimOrder s thief).take (s.obj Obj.stealProbeLimit)

/-- WORK_ITEM_TAKE: an owner takes the first ready item of its queue that it can launch; a thief that may probe takes the first such
item of the first victim that has one, in its victim order (R97, R98). -/
def execWorkItemTake (item : Nat) (taker : Nat) (victim : Nat) (s : State) : Out :=
  match firstTake s victim taker with
  | some (it, v) =>
    if it.id ≠ item then .next s
    else if victim = ownQueue taker then .next (takeItem it v taker victim s)
    else if mayProbe s taker ∧ (attemptOrder s taker).find? (fun q => (firstTake s q taker).isSome) = some victim then
      .next (probe taker (attemptOrder s taker) s)
    else .next s
  | none => .next s

/-- STEAL_ATTEMPT: up to `steal_probe_limit` victims are probed; when all are empty the thief waits (R98). -/
def execStealAttempt (thief : Nat) (s : State) : Out :=
  if mayProbe s thief then .next (probe thief (attemptOrder s thief) s) else .next s

/-- STEAL_BACKOFF_EXPIRY: the wait is over; the next attempt starts from the first victim (R98). -/
def execStealBackoffExpiry (thief : Nat) (s : State) : Out :=
  let t := tget {} thief s.sched.thieves
  match t.backoff with
  | none => .next s
  | some b =>
    if b ≤ s.beat then
      .next { s with sched := { s.sched with thieves := tset thief { t with backoff := none } s.sched.thieves } }
    else .next s

end Sys2Proof.Machine
end

