-- ==== Sys2Proof/Machine/Unicode.lean ====
section
/-! DEFINITION. The tables of Unicode 15.0 that R85 names: letters, decimal digits, white space and canonical composition. They are
the Unicode Character Database's (PRESUMED, log entry 13: the spec names the version and gives no table). -/

namespace Sys2Proof.Machine

/-- Part 0 of `uniLetters`. -/
def uniLetters0 : List Nat :=
  [188743745, 255852641, 356516010, 379584693, 390070458, 448790720, 515899608, 1478492408, 1512047302, 1551893216,
   1568670444, 1572864750, 1853883248, 1860174710, 1872757626, 1876951935, 1891632006, 1900020616, 1904214924,
   1948255118, 2124415907, 2418017271, 2782921866, 2864710961, 2871002457, 2969568608, 3175089616, 3191866863,
   3376416288, 3454010990, 3663726193, 3667920597, 3703572197, 3722446574, 3749709562, 3756001023, 3791652624,
   3856664338, 4104128333, 4129294257, 4248831946, 4271900660, 4282386426, 4339009536, 4349495322, 4370466852,
   4378855464, 4479518784]

/-- Part 1 of `uniLetters`. -/
def uniLetters1 : List Nat :=
  [4517267552, 4578084976, 4592765065, 4716497056, 4951378180, 4959766845, 4999612752, 5035264344, 5100276081,
   5125441925, 5133830543, 5184162195, 5200939434, 5205133746, 5219813814, 5228202429, 5263854030, 5295311324,
   5303699935, 5337254384, 5360323068, 5389683205, 5402266127, 5452597779, 5469375018, 5475666482, 5481957941,
   5488249400, 5561649753, 5565844062, 5611981426, 5664410245, 5672798863, 5721033363, 5737810602, 5744102066,
   5756684981, 5765073597, 5804919504, 5840571104, 5890902777, 5930748677, 5939137295, 5989468947, 6006246186,
   6012537650, 6025120565, 6033509181]

/-- Part 2 of `uniLetters`. -/
def uniLetters2 : List Nat :=
  [6100618076, 6109006687, 6142561137, 6180309891, 6194989957, 6207572878, 6218058642, 6228544409, 6232738716,
   6239030174, 6249515939, 6262098856, 6293556142, 6341790672, 6467619845, 6476008462, 6526340114, 6561991722,
   6570380349, 6631197784, 6637489245, 6645877856, 6710889600, 6736055429, 6744444046, 6794775698, 6817844394,
   6830427317, 6838815933, 6908021981, 6914313440, 6949965041, 7004491012, 7012879630, 7100960018, 7107251517,
   7142903118, 7159680340, 7182749023, 7245663610, 7293898117, 7350521242, 7371492787, 7375687101, 7394561472,
   7616859649, 7623151154, 7662997056]

/-- Part 3 of `uniLetters`. -/
def uniLetters3 : List Nat :=
  [7788826241, 7793020548, 7805603462, 7858032268, 7862226597, 7885295271, 7891586738, 7912558269, 7927238336,
   7931432646, 7983861468, 8053067520, 8201965376, 8279560009, 8346668936, 8678019072, 8722059327, 8768196688,
   8784973914, 8793362529, 8803848293, 8824819822, 8860471413, 8887734414, 9003077792, 9007272135, 9019855053,
   9114226896, 9814675708, 9825161802, 9844036176, 9848230488, 9858716250, 9948893792, 9959379594, 10032779920,
   10043265714, 10062140088, 10066334400, 10076820162, 10112471752, 10234106584, 10244592402, 10389295896, 10500445056,
   10714354592, 10731131896, 12037657601]

/-- Part 4 of `uniLetters`. -/
def uniLetters4 : List Nat :=
  [12077504111, 12134127233, 12301899424, 12331259633, 12383688448, 12450797343, 12517906240, 12574529376, 12582917998,
   12723427200, 12798924759, 12809410524, 13136566304, 13161732224, 13237229703, 13241424042, 13398710448, 13484693760,
   13650368848, 13665048944, 13780392320, 13843306928, 14004787712, 14134811168, 14308874919, 14602476293, 14654905157,
   14831065987, 14862523310, 14975769530, 15105793024, 15198067789, 15294536794, 15317605504, 15422463120, 15432948925,
   15527320809, 15542000878, 15548292341, 15556680954, 15969819904, 16687046144, 16703823640, 16787709728, 16804486984,
   16825458512, 16829652825, 16833847131]

/-- Part 5 of `uniLetters`. -/
def uniLetters5 : List Nat :=
  [16838041437, 16905150303, 17020493696, 17037270966, 17041465278, 17054048194, 17070825414, 17085505488, 17102282710,
   17137934304, 17154711538, 17171488758, 17416855665, 17446215807, 17507033232, 17720942850, 17731428615, 17756594442,
   17760788757, 17777565977, 17792246052, 17796440358, 17800634664, 17811120426, 17836286255, 17848869180, 17869840709,
   17880326478, 17993572739, 24100482048, 24121453803, 24131939570, 24236797184, 24240991527, 24253574445, 24375209264,
   24391986543, 24473775488, 24507329952, 24524107176, 24540884400, 24557661624, 24574438848, 24591216072, 24607993296,
   24624770520, 24794639919, 25782398981]

/-- Part 6 of `uniLetters`. -/
def uniLetters6 : List Nat :=
  [25880965169, 25895645243, 26084388929, 26103263389, 26294104225, 26304590076, 26405253381, 26604482865, 26707243424,
   26841461232, 41739629568, 88340450816, 88577451216, 89145779456, 89185625616, 89210791466, 89351300672, 89449866879,
   89600861856, 89722496791, 89942697762, 90081109899, 90095790032, 90099984339, 90112567253, 90196453362, 90204841987,
   90215327751, 90265659404, 90435528768, 90569746562, 90712353010, 90720741627, 90727033085, 90808822026, 90878028080,
   90991274336, 91104520580, 91165338063, 91209378272, 91232446950, 91263904250, 91351984640, 91406510656, 91425385028,
   91515562592, 91523951226, 91635100286]

/-- Part 7 of `uniLetters`. -/
def uniLetters7 : List Nat :=
  [91639294641, 91649780405, 91664460473, 91670751936, 91674946242, 91731569371, 91758832352, 91779803890, 91817552641,
   91834329865, 91851107089, 91884661536, 91901438760, 91993713456, 92025170780, 92278926192, 115769125888,
   115842537392, 115953686475, 134446381312, 134672874096, 134767246080, 134802897683, 134815480605, 134838549279,
   134867909418, 134880492344, 134884686654, 134890978112, 134897269571, 135125859142, 135956331475, 136128298320,
   136245738898, 136354790896, 136608546416, 136893759094, 137023782689, 137090891585, 137300606822, 137319481282,
   137336258506, 137353035730, 137363521498, 137462087680, 137518710797, 137560653864, 137566945340]

/-- Part 8 of `uniLetters`. -/
def uniLetters8 : List Nat :=
  [137600499775, 137634054224, 137963307136, 138839917184, 138948969120, 139114644224, 139183850285, 139202724674,
   139294999376, 139378885504, 139458577312, 139483743176, 139915756544, 140029002928, 140112889048, 140205163776,
   140330992944, 140379227504, 140412781948, 140429559180, 140435850644, 140461016471, 140494570915, 140511348147,
   140517639611, 141310363136, 141375375168, 141413123936, 141476038528, 141566216071, 141587187634, 141744474112,
   141750765576, 141845137418, 141851428919, 141859817532, 141912246335, 141981452384, 142065338496, 142241499360,
   142247790836, 142314899712, 142390397216, 142654638464, 142671415742, 142807730688, 142847576592, 142855965205]

/-- Part 9 of `uniLetters`. -/
def uniLetters9 : List Nat :=
  [142918879769, 143067777632, 143134886528, 143225064128, 143285881545, 143455750912, 143522859840, 143583677280,
   143648689024, 144032467968, 144254766208, 144388984000, 144491744512, 145309634176, 145326411440, 145550806784,
   145573875495, 145636790064, 145762619248, 145903128496, 146007986144, 146144301059, 146268033137, 146274324597,
   146395959427, 146515497168, 146645520643, 146708435268, 146714726727, 146804904272, 146813292918, 146939122051,
   146976870849, 147023008218, 147027202524, 147138351616, 147192877587, 147236917823, 147383718528, 147387912840,
   147398398602, 147431953039, 147455021727, 147568267952, 147664737029, 147673125647, 147723457299, 147740234538]

/-- Part 10 of `uniLetters`. -/
def uniLetters10 : List Nat :=
  [147746526002, 147759108917, 147767497533, 147807343440, 147842995037, 148285494272, 148331631687, 148379866207,
   148543444096, 148589581508, 148593775815, 149078218112, 149172590040, 149348750848, 149392791108, 149606700672,
   149636060856, 149841581824, 149933856576, 150414104576, 150791592096, 150873381119, 150879672585, 150900644108,
   150906935573, 150959364376, 150992918847, 150997113153, 151211022752, 151297005994, 151332657633, 151336851939,
   151397669376, 151502526987, 151519304250, 151565441616, 151684979292, 151726922397, 151917763248, 152488188928,
   152567880714, 152605629504, 152771304562, 153020865792, 153027157256, 153108946187, 153155083590, 153220095328]

/-- Part 11 of `uniLetters`. -/
def uniLetters11 : List Nat :=
  [153226386791, 153295592810, 153327050136, 154052665056, 154086219522, 154115579652, 154188979986, 154451124144,
   156550373376, 157443761280, 163175280528, 165454884864, 165503120449, 175166800896, 194464802816, 194544495168,
   194745821808, 194844388048, 194982800128, 195024743232, 195133795171, 195184126845, 196761185856, 197186907904,
   197199490896, 197365165971, 197503578080, 197507772387, 210434617344, 213047674880, 213154630912, 231901081584,
   231917858805, 231924150269, 232536518656, 232570073394, 232637182288, 232643473749, 232681222500, 233528471920,
   238593096704, 238630845552, 238656011392, 238691662992, 251431867392, 251582862422, 251589153950, 251595445410]

/-- Part 12 of `uniLetters`. -/
def uniLetters12 : List Nat :=
  [251603834021, 251616416937, 251643679918, 251647874235, 251664651453, 251803063493, 251813549319, 251834520845,
   251851298070, 251912115486, 251922601275, 251935184192, 251939378502, 251960350026, 252675478866, 252732102312,
   252786628290, 252853737180, 252908263164, 252975372054, 253029898038, 253097006928, 253151532912, 253218641802,
   253273167786, 253292042180, 257224204032, 257249369893, 257926750256, 258327306496, 258362958135, 258398609742,
   259134710416, 259264733888, 260338476240, 261938604000, 261949089768, 261955381229, 261988935664, 262404171776,
   262670510336, 262687287627, 265220648448, 265279368709, 265285660193, 265289854500, 265296145959, 265319214633]

/-- Part 13 of `uniLetters`. -/
def uniLetters13 : List Nat :=
  [265329700404, 265333894713, 265338089019, 265352769090, 265363254855, 265367449161, 265371643467, 265380032077,
   265386323537, 265390517844, 265396809303, 265401003609, 265405197915, 265409392221, 265413586527, 265419877985,
   265424072292, 265436655207, 265453432428, 265463918196, 265474403961, 265478598270, 265501666944, 265539415691,
   265556192929, 265568775845, 265606524587, 364466274304, 373244995328, 373723150144, 385811134496, 401512517296,
   409156646912, 422672793600, 431474545488]

/-- Ranges of category L: first code point + 2²¹ × last. -/
def uniLetters : List Nat :=
  uniLetters0 ++ uniLetters1 ++ uniLetters2 ++ uniLetters3 ++ uniLetters4 ++ uniLetters5 ++ uniLetters6 ++
    uniLetters7 ++ uniLetters8 ++ uniLetters9 ++ uniLetters10 ++ uniLetters11 ++ uniLetters12 ++ uniLetters13

/-- Part 0 of `uniDigits`. -/
def uniDigits0 : List Nat :=
  [119537712, 3441428064, 3743418096, 4179625920, 5064624486, 5333060070, 5601495654, 5869931238, 6138366822,
   6406802406, 6675237990, 6943673574, 7212109158, 7480544742, 7702842960, 7971278544, 8139050784, 8743030848,
   8910803088, 12836673504, 12937336848, 13587454278, 13876861392, 14245960320, 14279514768, 14682168144, 14883494832,
   15185484864, 15219039312, 89206597152, 90649438416, 90750101760, 91186309584, 91253418480, 91454745168, 92327160816,
   136954576656, 139940922528, 144537881904, 146261741670, 146551148784, 146697949494, 147020911056, 147624891120,
   148363088976, 148631524560, 149436831312, 149671712448]

/-- Part 1 of `uniDigits`. -/
def uniDigits1 : List Nat :=
  [149906593584, 150812563680, 151047444816, 152658058320, 153194929488, 153362701728, 154268671824, 194567563872,
   194768890560, 195070880592, 253401094094, 258388123968, 259294094064, 260367836400, 262716647760, 272715873264]

/-- Ranges of category Nd: first code point + 2²¹ × last. -/
def uniDigits : List Nat :=
  uniDigits0 ++ uniDigits1

/-- Part 0 of `uniSpaces`. -/
def uniSpaces0 : List Nat :=
  [27262985, 67108896, 278921349, 335544480, 12079601280, 17200848896, 17265860648, 17278443567, 17379106911,
   25769816064]

/-- Ranges of white space: first code point + 2²¹ × last. -/
def uniSpaces : List Nat :=
  uniSpaces0

/-- Part 0 of `uniCcc`. -/
def uniCcc0 : List Nat :=
  [1011552350110464, 1020348445229845, 967571895485206, 1020348455715610, 949979713635099, 967571910165276,
   888407077159713, 967571922748195, 888407089742631, 967571950011177, 4399774565172, 967571968885561, 1011552450773821,
   1055532917982021, 1011552454968134, 967571996148551, 1011552467551050, 967572006634317, 1011552480133968,
   967572023411539, 1011552490619735, 1020348585739096, 967572031800153, 1011552499008347, 1024746640638812,
   1029144691344221, 1024746646930271, 1029144697635680, 1024746653221730, 1011552540951395, 1011553128154243,
   967573220885905, 1011553694385554, 967573231371670, 1011553702774167, 976369332782490, 967573241857435,
   1011553719551388, 967573267023266, 1011553736328616, 967573273314730, 1011553742620075, 976369372628397,
   1002757653792174, 1011553748911535, 43983518565808, 48381567174065, 52779615782322]

/-- Part 1 of `uniCcc`. -/
def uniCcc1 : List Nat :=
  [57177664390579, 61575712998836, 65973761607093, 70371810215350, 74769858823607, 79167907431864, 83565958137273,
   87964006745531, 92362055353788, 96760103962045, 101158154667455, 105556205372865, 109954253981122, 1011553792951748,
   967573329937861, 79167938889159, 1011553967015440, 131944666891800, 136342715500057, 140740764108314,
   118750634313291, 123148682921548, 127546731529805, 131944780138062, 136342828746319, 140740877354576,
   145138925962833, 149536974571090, 1011554094941779, 967573634025045, 1011554109621847, 967573646607964,
   1011554115913309, 967573652899423, 153935083996784, 1011554380154582, 1011554392737503, 967573929723619,
   1011554396931812, 1011554405320423, 967573944403690, 1011554413709035, 967573950695149, 158333468149521,
   1011554556315440, 967574093301553, 1011554562606898, 967574099593012]

/-- Part 2 of `uniCcc`. -/
def uniCcc2 : List Nat :=
  [1011554568898357, 967574110078775, 1011554577286970, 967574116370235, 1011554583578429, 967574120564542,
   1011554591967039, 967574128953154, 1011554596161347, 967574133147460, 1011554600355653, 967574137341766,
   1011554604549959, 967574141536072, 1011554610841417, 1011554961065963, 967574498052082, 1011554965260275,
   967574521120765, 1011555044952086, 1011555065923611, 1011555074312229, 1011555086895145, 967574718253145,
   1011555311290520, 967574852470937, 1011555325970588, 1011555424536778, 967574969911503, 1011555464382676,
   967575003465955, 1011555472771300, 967575009757414, 1011555479062759, 967575016048873, 1011555487451370,
   967575028631789, 118752054085872, 123150102694129, 127548151302386, 1011555506325747, 967575043311862,
   1011555512617207, 967575051700473, 1011555527297275, 30791283247420, 39587411921229, 1011555699263825]

/-- Part 3 of `uniCcc`. -/
def uniCcc3 : List Nat :=
  [967575236249938, 1011555705555283, 30791551683004, 39587680356813, 1011556062071294, 30791820118588, 39587948792397,
   30792088554172, 39588217227981, 30792356989756, 39588485663565, 39588754099149, 30792893860924, 39589022534733,
   369442527644757, 400228855319638, 30793162296508, 39589290970317, 39589523754299, 39589559405901, 39589821550026,
   453006426377784, 39590056431162, 470598650170952, 518977392479928, 39590324866746, 536569616273096, 967578337939224,
   967578396659509, 967578400853815, 949986219003705, 567356289978225, 571754338586482, 580550435802996,
   571754361655162, 571754367946624, 1011559025348482, 39590748491652, 1011559033737094, 967578700746694,
   30795030859831, 39591130173497, 967579118080141, 1011561097335645, 39594810677012, 39594875688756, 39595207038930,
   1011563509061597]

/-- Part 4 of `uniCcc`. -/
def uniCcc4 : List Nat :=
  [1002767843858601, 976379866782009, 1011564240967994, 967583777954107, 1011564704438807, 967584241424920,
   39596578576992, 1011564916251253, 967584457431679, 1011565033691824, 967584581163701, 1011565050469051,
   967584587455165, 967584593746623, 1011565063051969, 967584602135235, 1011565077732037, 967584614718154,
   1011565088217803, 30800930151220, 39597056727876, 1011565417470827, 967584954456940, 1011565434248045,
   39597272734634, 30801303444454, 39597423729650, 30801473313847, 1011566170348752, 4413523500244, 967585719917781,
   1011566189223130, 967585732500700, 1011566199708896, 4413565443298, 967585761860845, 1011566241651956,
   1011566252137720, 1011566671568320, 967586208554434, 1011566688345539, 967586225331658, 1011566694637003,
   1029158882778573, 941197954653646, 967586235817423, 888421400714704, 1011566780620241]

/-- Part 5 of `uniCcc`. -/
def uniCcc5 : List Nat :=
  [1020362875739638, 1002770693889527, 967586323897849, 958790232972794, 1011566793203195, 1024760934833660,
   967586332286461, 1011566799494654, 967586336480767, 1011568315736272, 4415668887762, 1011568328319188, 4415683567832,
   1011568338804955, 1011568349290721, 4415708733669, 1011568361873639, 967587898859752, 1011568366067945,
   4415719219434, 967587913539820, 1011568380748016, 1011574825299183, 39606844140927, 1011575391530464,
   958799997317162, 1002780464525355, 1020372652666924, 976392189653037, 985188286869550, 35210464866457,
   1011640050951791, 1011640080311924, 1011640151615134, 1011640323581680, 39672625539078, 39672705230892,
   39673023998148, 1011641397324000, 967661058042155, 39673323891027, 30877432195507, 39673552480704, 1011642334751408,
   1011642341042866, 967661878028980, 1011642351528631, 1011642366208702]

/-- Part 6 of `uniCcc`. -/
def uniCcc6 : List Nat :=
  [1011642370403009, 39674202598134, 39674720594925, 114484026866462, 1011687142522400, 967706692091431,
   1011687161396782, 967708738912765, 967709214966496, 1011690003039094, 967713067436557, 1011693536741903,
   1011693622725176, 4540973779513, 967713161808442, 39725358451263, 1011693985532645, 967713522518758,
   1011695197687076, 1011696013479595, 967715722432253, 967715873427270, 1011696344829768, 967715881815883,
   1011696349024076, 967715892301645, 1011696462270338, 967715999256451, 1011696466464644, 967716003450757,
   39728594358342, 39728682438768, 39728713896063, 39728835530937, 30932744605882, 1011697267577088, 39729093480755,
   30933132579187, 39729387082176, 30933315031498, 39729632449077, 30933541524022, 30933916914409, 39730012033770,
   30934090978107, 39730219651917, 1011698563617638, 1011698580394864]

/-- Part 7 of `uniCcc`. -/
def uniCcc7 : List Nat :=
  [39730733454402, 30934648820806, 1011699071128670, 39731001889986, 30934910964931, 39731532469695, 30935441544640,
   39731800905279, 39732050466486, 30935959541431, 39732295833387, 39732862064697, 30936771139642, 39733409421629,
   30937326885187, 39733749160416, 39733925321268, 39733965167175, 39734137133721, 39735022132287, 30939472272706,
   39735571586372, 39735743552919, 39736639037249, 4592905579248, 1011745695034160, 26585816199152, 4636748659870,
   950227905401189, 4647911805287, 994208385192301, 950227930567022, 967820150165883, 1011800629956997, 967820169040266,
   1011800705454506, 1011801022124610, 1011808408297472, 1011808446046216, 1011808464920603, 1011808471212067,
   1011808483794982, 1011808695607439, 1011809045831984, 1011809834361518, 1011809970676460, 1020607133246700,
   967830577210606]

/-- Part 8 of `uniCcc`. -/
def uniCcc8 : List Nat :=
  [1011811044418799, 967832674363600, 1011813380647236, 31049010768202]

/-- Canonical combining classes other than 0: first code point + 2²¹ × last + 2⁴² × class. -/
def uniCcc : List Nat :=
  uniCcc0 ++ uniCcc1 ++ uniCcc2 ++ uniCcc3 ++ uniCcc4 ++ uniCcc5 ++ uniCcc6 ++ uniCcc7 ++ uniCcc8

/-- Part 0 of `uniDecomp`. -/
def uniDecomp0 : List Nat :=
  [3377699856842944, 3382097903354049, 3386495949865154, 3390893996376259, 3412884228931780, 3421680321953989,
   3549223674970311, 3377699865231560, 3382097911742665, 3386495958253770, 3412884237320395, 3377699873620172,
   3382097920131277, 3386495966642382, 3412884245709007, 3390894023639249, 3377699886203090, 3382097932714195,
   3386495979225300, 3390894025736405, 3412884258291926, 3377699898786009, 3382097945297114, 3386495991808219,
   3412884270874844, 3382097953685725, 3377699923951840, 3382097970462945, 3386496016974050, 3390894063485155,
   3412884296040676, 3421680389062885, 3549223742079207, 3377699932340456, 3382097978851561, 3386496025362666,
   3412884304429291, 3377699940729068, 3382097987240173, 3386496033751278, 3412884312817903, 3390894090748145,
   3377699953311986, 3382097999823091, 3386496046334196, 3390894092845301, 3412884325400822, 3377699965894905]

/-- Part 1 of `uniDecomp`. -/
def uniDecomp1 : List Nat :=
  [3382098012406010, 3386496058917115, 3412884337983740, 3382098020794621, 3412884346372351, 3395292042887424,
   3395292109996289, 3404088135909634, 3404088203018499, 3553621717287172, 3553621784396037, 3382097907548422,
   3382097974657287, 3386495954059528, 3386496021168393, 3408486186615050, 3408486253723915, 3430476419170572,
   3430476486279437, 3430476421267726, 3430476488376591, 3395292051276050, 3395292118384915, 3404088144298260,
   3404088211407125, 3408486190809366, 3408486257918231, 3553621725675800, 3553621792784665, 3430476423364890,
   3430476490473755, 3386495962448156, 3386496029557021, 3404088148492574, 3404088215601439, 3408486195003680,
   3408486262112545, 3549223683359010, 3549223750467875, 3386495964545316, 3386496031654181, 3390894013153576,
   3390894080262441, 3395292059664682, 3395292126773547, 3404088152686892, 3404088219795757, 3553621734064430]

/-- Part 2 of `uniDecomp`. -/
def uniDecomp2 : List Nat :=
  [3553621801173295, 3408486199198000, 3386495968739636, 3386496035848501, 3549223691747638, 3549223758856503,
   3382097926422841, 3382097993531706, 3549223693844795, 3549223760953660, 3430476438044989, 3430476505153854,
   3382097930617155, 3382097997726020, 3549223698039109, 3549223765147974, 3430476442239303, 3430476509348168,
   3395292072247628, 3395292139356493, 3404088165269838, 3404088232378703, 3426078397825360, 3426078464934225,
   3382097939005780, 3382098006114645, 3549223706427734, 3549223773536599, 3430476450627928, 3430476517736793,
   3382097941102938, 3382098008211803, 3386495987614044, 3386496054722909, 3549223708524894, 3549223775633759,
   3430476452725088, 3430476519833953, 3549223710622050, 3549223777730915, 3430476454822244, 3430476521931109,
   3390894038319464, 3390894105428329, 3395292084830570, 3395292151939435, 3404088177852780, 3404088244961645]

/-- Part 3 of `uniDecomp`. -/
def uniDecomp3 : List Nat :=
  [3421680363897198, 3421680431006063, 3426078410408304, 3426078477517169, 3553621759230322, 3553621826339187,
   3386495996002676, 3386496063111541, 3386496000196982, 3386496067305847, 3412884279263608, 3382097955783033,
   3382098022891898, 3408486234849659, 3408486301958524, 3430476467405181, 3430476534514046, 3496447142003104,
   3496447209111969, 3496447154586031, 3496447221694896, 3430476414976461, 3430476482085326, 3430476431753679,
   3430476498862544, 3430476444336593, 3430476511445458, 3430476456919507, 3430476524028372, 3395292367946197,
   3395292435055062, 3382098228412887, 3382098295521752, 3430476740035033, 3430476807143898, 3377700181901787,
   3377700249010652, 3395292317614558, 3395292384723423, 3395293060006368, 3395293062103521, 3395292321808866,
   3395292388917731, 3430476427559398, 3430476494668263, 3430476435948008, 3430476503056873, 3553621746647530]

/-- Part 4 of `uniDecomp`. -/
def uniDecomp4 : List Nat :=
  [3553621813756395, 3395292934177260, 3395292936274413, 3430477199311342, 3430477658587631, 3430476500959728,
   3382097915937268, 3382097983046133, 3377699884106232, 3377699951215097, 3382098180178426, 3382098247287291,
   3382098182275580, 3382098249384445, 3382098220024318, 3382098287133183, 3443670554509824, 3443670621618689,
   3452466647532034, 3452466714640899, 3443670562898436, 3443670630007301, 3452466655920646, 3452466723029511,
   3443670571287048, 3443670638395913, 3452466664309258, 3452466731418123, 3443670583869964, 3443670650978829,
   3452466676892174, 3452466744001039, 3443670590161424, 3443670657270289, 3452466683183634, 3452466750292499,
   3443670596452884, 3443670663561749, 3452466689475094, 3452466756583959, 3544825662013976, 3544825729122841,
   3544825664111130, 3544825731219995, 3430476429656606, 3430476496765471, 3408486182421030, 3408486249529895]

/-- Part 5 of `uniDecomp`. -/
def uniDecomp5 : List Nat :=
  [3549223679164968, 3549223746273833, 3395292355363370, 3395292422472235, 3395292353266220, 3395292420375085,
   3408486211781166, 3408486278890031, 3395293076783664, 3395293078880817, 3395292093219378, 3395292160328243,
   9223372038465389376, 9223372038467486529, 9223372038505235267, 9226754136249205572, 9223372038316491636,
   9223372036978508670, 3382098119361413, 3382099681739654, 9223372037238555527, 3382099690128264, 3382099694322569,
   3382099698516874, 3382099711099788, 3382099723682702, 3382099732071311, 3382099801277328, 3412886024094634,
   3412886049260459, 3382099748848556, 3382099757237165, 3382099761431470, 3382099765625775, 3382099803374512,
   3412886091203530, 3412886116369355, 3382099778208716, 3382099790791629, 3382099799180238, 3382099818054611,
   3412886143632340, 3377701912052736, 3412886284141569, 3382099954369539, 3412886252684295, 3382099969049612,
   3377701918344205]

/-- Part 6 of `uniDecomp`. -/
def uniDecomp6 : List Nat :=
  [3404090220479502, 3404090197410841, 3404090264519737, 3377701979161680, 3412886351250513, 3382100021478483,
   3412886420456535, 3382100036158556, 3377701985453149, 3404090287588446, 3443672808948854, 3443672811046007,
   3404090193216705, 3404090260325570, 3404090180633808, 3404090247742673, 3412886273656018, 3412886340764883,
   3404090191119574, 3404090258228439, 3412886693086426, 3412886695183579, 3412886286238940, 3412886353347805,
   3412886288336094, 3412886355444959, 3395294104388834, 3395294171497699, 3412886290433252, 3412886357542117,
   3412886303016166, 3412886370125031, 3412886726640874, 3412886728738027, 3412886334473452, 3412886401582317,
   3395294127457518, 3395294194566383, 3412886313501936, 3412886380610801, 3426080453035250, 3426080520144115,
   3412886321890548, 3412886388999413, 3412886330279160, 3412886397388025, 7120440604493346, 7124838651004451]

/-- Part 7 of `uniDecomp`. -/
def uniDecomp7 : List Nat :=
  [7124838720210468, 7129236697515557, 7124838724404774, 7124839015909056, 7124838973966018, 7124839009617619,
   10396986867976489, 10396986884753713, 10396986891045172, 9233769023682906456, 9233769023685003609,
   9233769023687100762, 9233769023697586523, 9233769023708072284, 9233769023710169437, 9233769023729043806,
   9233769023737432415, 10968733247867339, 11078684410644940, 9234331973929929180, 9234331973932026333,
   9234331973959289311, 9234894924187437619, 9234894924200020534, 9234894924128717401, 9234894924130814554,
   9234894924141300315, 9234894924172757598, 12763137029704520, 12657583913438027, 12767535076215628,
   9236020824595499868, 9236020824597597021, 13330485186923412, 13220534133197770, 13220534135294923, 13330485295975372,
   13889037471321160, 14447589631986880, 14447589646666951, 14451987693178056, 14364026762955978, 14447589655055563,
   14909384798768458, 14909384800865611, 15019335961546060, 15525111618604506, 15547101851160028]

/-- Part 8 of `uniDecomp`. -/
def uniDecomp8 : List Nat :=
  [15525111624895965, 15617470595337694, 9241065386160426819, 9241065386181398349, 9241065386191884114,
   9241065386202369879, 9241065386212855644, 9241056590063210345, 9240761921049726835, 9240770717142749045,
   9240823493837197174, 9240823493839294328, 9240823493700882305, 9241065386328199059, 9241065386349170589,
   9241065386359656354, 9241065386370142119, 9241065386380627884, 9241056590230982585, 18216717316526118,
   30632408455846662, 30632408460040968, 30632408464235274, 30632408468429580, 30632408472623886, 30632408481012498,
   30632408566995771, 30632408571190077, 30632408575384384, 30632408577481537, 30632408583772995, 3540427577761280,
   3540427644870145, 3408486184525314, 3408486251634179, 3531631486836228, 3531631553945093, 3593204137991686,
   3593204205100551, 3382098184379912, 3382098251488777, 3408486188719626, 3408486255828491, 3531631491030540,
   3531631558139405, 3593204142185998, 3593204209294863, 3549223677074960]

/-- Part 9 of `uniDecomp`. -/
def uniDecomp9 : List Nat :=
  [3549223744183825, 3575611956141586, 3575612023250451, 3377700295155220, 3377700297252373, 3382098341666326,
   3382098343763479, 3575611958238744, 3575612025347609, 3588806097772058, 3588806164880923, 3404089157230108,
   3404089159327261, 3408486192913950, 3408486260022815, 3395292055477792, 3395292122586657, 3408486197108258,
   3408486264217123, 3531631499419172, 3531631566528037, 3412884243619366, 3412884310728231, 3549223685463592,
   3549223752572457, 3580010011041322, 3580010078150187, 3588806106160684, 3588806173269549, 3382098201157166,
   3382098268266031, 3382097924333104, 3382097991441969, 3531631505710642, 3531631572819507, 3593204156866100,
   3593204223974965, 3531631507807798, 3531631574916663, 3395308125953592, 3395308128050745, 3593204158963258,
   3593204226072123, 3575611972918844, 3575612040027709, 3382097928527422, 3382097995636287, 3408486207594048]

/-- Part 10 of `uniDecomp`. -/
def uniDecomp10 : List Nat :=
  [3408486274702913, 3531631509904962, 3531631577013827, 3408486209691204, 3408486276800069, 3531631512002118,
   3531631579110983, 3593204163157576, 3593204230266441, 3575611977113162, 3575612044222027, 3382098213740108,
   3382098280848973, 3412884539317838, 3412884606426703, 3377700416790096, 3377700418887249, 3382098463301202,
   3382098465398355, 3382097934818900, 3382098001927765, 3408486213885526, 3408486280994391, 3408486218079832,
   3408486285188697, 3531631520390746, 3531631587499611, 3395308201451100, 3395308203548253, 3593204171546206,
   3593204238655071, 3408486220176992, 3408486287285857, 3531631522487906, 3531631589596771, 3408486771727972,
   3408486773825125, 3408486784310886, 3408486786408039, 3408502357761640, 3408502359858793, 3408486222274154,
   3408486289383019, 3531631524585068, 3531631591693933, 3593204175740526, 3593204242849391, 3575611989696112]

/-- Part 11 of `uniDecomp`. -/
def uniDecomp11 : List Nat :=
  [3575612056804977, 3536029573193330, 3536029640302195, 3588806131326580, 3588806198435445, 3575611991793270,
   3575612058902135, 3382098522021496, 3382098524118649, 3412884851793530, 3412884853890683, 3390894040424060,
   3390894107532925, 3531631528779390, 3531631595888255, 3377699902987904, 3377699970096769, 3382097949499010,
   3382098016607875, 3412884275076740, 3412884342185605, 3408486228565638, 3408486295674503, 3531631530876552,
   3531631597985417, 3408486230662794, 3408486297771659, 3412884277173900, 3412884344282765, 3408486232759950,
   3408486299868815, 3386496002301584, 3386496069410449, 3531631537168018, 3531631604276883, 3593204188323476,
   3593204255432341, 3593204217683606, 3412884335894167, 3421680435207832, 3421680439402137, 3408486849322651,
   3531631484739232, 3531631551848097, 3417282275450530, 3417282342559395, 3382098173894308, 3382098241003173]

/-- Part 12 of `uniDecomp`. -/
def uniDecomp12 : List Nat :=
  [3377700127383206, 3377700194492071, 3417282545983144, 3417282613092009, 3390894266916522, 3390894334025387,
   3386512255229612, 3386512257326765, 3382098308112046, 3382098310209199, 3377700261600944, 3377700263698097,
   3417282680200882, 3417282682298035, 3390894401134260, 3390894403231413, 3404104441274038, 3404104443371191,
   3531631493127864, 3531631560236729, 3417282283839162, 3417282350948027, 3390894004772540, 3390894071881405,
   3382098190671550, 3382098257780415, 3377700144160448, 3377700211269313, 3417282562760386, 3417282629869251,
   3390894283693764, 3390894350802629, 3386512305561286, 3386512307658439, 3417282292227784, 3417282359336649,
   3531631501516490, 3531631568625355, 3531631514099404, 3531631581208269, 3417282304810702, 3417282371919567,
   3382098211643088, 3382098278751953, 3377700165131986, 3377700232240851, 3417282583731924, 3417282650840789]

/-- Part 13 of `uniDecomp`. -/
def uniDecomp13 : List Nat :=
  [3390894304665302, 3390894371774167, 3386512347504344, 3386512349601497, 3382098639462106, 3382098641559259,
   3377700592951004, 3377700595048157, 3417283011550942, 3417283013648095, 3390894732484320, 3390894734581473,
   3531632220839650, 3531632222936803, 3531631526682340, 3531631593791205, 3417282317393638, 3417282384502503,
   3382098670919400, 3382098673016553, 3377700624408298, 3377700626505451, 3417283043008236, 3417283045105389,
   3390894763941614, 3390894766038767, 3531632252296944, 3531632254394097, 3377699907182322, 3377699974291187,
   3531631535070964, 3531631602179829, 3417282325782262, 3417282392891127, 3390894046715640, 3390894113824505,
   3461264586055424, 3465662632566529, 3377716363534082, 3377716365631235, 3382114410045188, 3382114412142341,
   3667987433266950, 3667987435364103, 3461264518946568, 3465662565457673, 3377716380311306, 3377716382408459]

/-- Part 14 of `uniDecomp`. -/
def uniDecomp14 : List Nat :=
  [3382114426822412, 3382114428919565, 3667987450044174, 3667987452141327, 3461264594444048, 3465662640955153,
   3377716397088530, 3377716399185683, 3382114443599636, 3382114445696789, 3461264527335192, 3465662573846297,
   3377716413865754, 3377716415962907, 3382114460376860, 3382114462474013, 3461264598638368, 3465662645149473,
   3377716430642978, 3377716432740131, 3382114477154084, 3382114479251237, 3667987500375846, 3667987502472999,
   3461264531529512, 3465662578040617, 3377716447420202, 3377716449517355, 3382114493931308, 3382114496028461,
   3667987517153070, 3667987519250223, 3461264602832688, 3465662649343793, 3377716464197426, 3377716466294579,
   3382114510708532, 3382114512805685, 3667987533930294, 3667987536027447, 3461264535723832, 3465662582234937,
   3377716480974650, 3377716483071803, 3382114527485756, 3382114529582909, 3667987550707518, 3667987552804671]

/-- Part 15 of `uniDecomp`. -/
def uniDecomp15 : List Nat :=
  [3461264615415616, 3465662661926721, 3377716497751874, 3377716499849027, 3382114544262980, 3382114546360133,
   3461264548306760, 3465662594817865, 3377716514529098, 3377716516626251, 3382114561040204, 3382114563137357,
   3461264627998544, 3465662674509649, 3377716531306322, 3377716533403475, 3382114577817428, 3382114579914581,
   3667987601039190, 3667987603136343, 3465662607400793, 3377716550180699, 3382114596691805, 3667987619913567,
   3461264636387168, 3465662682898273, 3377716564860770, 3377716566957923, 3382114611371876, 3382114613469029,
   3667987634593638, 3667987636690791, 3461264569278312, 3465662615789417, 3377716581637994, 3377716583735147,
   3382114628149100, 3382114630246253, 3667987651370862, 3667987653468015, 3377701702344560, 9223372038826106737,
   3377701710733170, 9223372038828203891, 3377701714927476, 9223372038830301045, 3377701719121782, 9223372038832398199]

/-- Part 16 of `uniDecomp`. -/
def uniDecomp16 : List Nat :=
  [3377701731704696, 9223372038893215609, 3377701744287610, 9223372038895312763, 3377701752676220, 9223372038897409917,
   3681181572800384, 3681181574897537, 3681181576994690, 3681181579091843, 3681181581188996, 3681181583286149,
   3681181585383302, 3681181587480455, 3681181589577608, 3681181591674761, 3681181593771914, 3681181595869067,
   3681181597966220, 3681181600063373, 3681181602160526, 3681181604257679, 3681181639909264, 3681181642006417,
   3681181644103570, 3681181646200723, 3681181648297876, 3681181650395029, 3681181652492182, 3681181654589335,
   3681181656686488, 3681181658783641, 3681181660880794, 3681181662977947, 3681181665075100, 3681181667172253,
   3681181669269406, 3681181671366559, 3681181774127008, 3681181776224161, 3681181778321314, 3681181780418467,
   3681181782515620, 3681181784612773, 3681181786709926, 3681181788807079, 3681181790904232, 3681181793001385]

/-- Part 17 of `uniDecomp`. -/
def uniDecomp17 : List Nat :=
  [3681181795098538, 3681181797195691, 3681181799292844, 3681181801389997, 3681181803487150, 3681181805584303,
   3404089981411248, 3395293888389041, 3681181807681458, 3681166911610803, 3681166901125044, 3667972772077494,
   3681181954482103, 3404089914302392, 3395293821280185, 3377701635235770, 9223372038746415035, 3681166844501948,
   9223372038853369790, 3667971142590401, 3681181816070082, 3681166924193731, 3681166905319364, 3667972784660422,
   3681181988036551, 3377701643624392, 9223372038750609353, 3377701647818698, 9223372038752706507, 3681166857084876,
   3377716764090317, 3382114810601422, 3667987833823183, 3404089998188496, 3395293905166289, 3377701754773458,
   9223372038767386579, 3667972788854742, 3667972824506327, 3404089931079640, 3395293838057433, 3377701652013018,
   9223372038754803675, 3377716896210909, 3382114942722014, 3667987965943775, 3404090023354336, 3395293930332129]

/-- Part 18 of `uniDecomp`. -/
def uniDecomp18 : List Nat :=
  [3377701756870626, 9223372038834495459, 3461264619610084, 3465662666121189, 3667972814020582, 3667972826603495,
   3404089956245480, 3395293863223273, 3377701677178858, 9223372038763192299, 3465662599012332, 3377700072857581,
   9223372038744317934, 9223372037056110575, 3681181832847346, 3681166961942515, 3681166972428276, 3667972822409206,
   3681182088699895, 3377701664595960, 9223372038758998009, 3377701685567482, 9223372038765289467, 3681166894833660,
   9223372037232271357, 9223372054038847488, 9223372054040944641, 9223372038819815718, 9223372037012070698,
   9223372037267923243, 3624008343888282, 3624008348082587, 3624008352276910, 3624008478106061, 3624008486494670,
   3624008482300367, 3624008585060868, 3624008595546633, 3624008601838092, 3624008652169764, 3624008656364070,
   3624008704598593, 3624008719278660, 3624008723472967, 3624008729764425, 3623990453084768, 3624008782193250,
   3624008740250221]

/-- Part 19 of `uniDecomp`. -/
def uniDecomp19 : List Nat :=
  [3623990450987630, 3623990455181935, 3624008788484720, 3624008790581873, 3624008817844852, 3624008819942005,
   3624008826233464, 3624008828330617, 3624008834622080, 3624008836719233, 3624008851399300, 3624008853496453,
   3624008859787912, 3624008861885065, 3624008918508204, 3624008931091117, 3624008933188270, 3624008937382575,
   3624008838816480, 3624008840913633, 3624008882856674, 3624008884953827, 3624008952062698, 3624008954159851,
   3624008956257004, 3624008958354157, 9223372062641365801, 9223372062643462954, 9226996050191985372, 54716122571747404,
   54716122575941710, 54716122580136016, 54716122584330322, 54716122588524628, 54716122592718934, 54716122596913240,
   54716122601107546, 54716122605301852, 54716122609496158, 54716122613690464, 54716122617884770, 54716122624176229,
   54716122628370535, 54716122632564841, 54716122647244912, 54720520693756017, 54716122653536371, 54720520700047476]

/-- Part 20 of `uniDecomp`. -/
def uniDecomp20 : List Nat :=
  [54716122659827830, 54720520706338935, 54716122666119289, 54720520712630394, 54716122672410748, 54720520718921853,
   54716122561261716, 54716122743713950, 54716122773074092, 54716122777268398, 54716122781462704, 54716122785657010,
   54716122789851316, 54716122794045622, 54716122798239928, 54716122802434234, 54716122806628540, 54716122810822846,
   54716122815017152, 54716122819211458, 54716122825502917, 54716122829697223, 54716122833891529, 54716122848571600,
   54720520895082705, 54716122854863059, 54720520901374164, 54716122861154518, 54720520907665623, 54716122867445977,
   54720520913957082, 54716122873737436, 54720520920248541, 54716122762588404, 54716122915680503, 54716122917777656,
   54716122919874809, 54716122921971962, 54716122945040638, 9223372112167762176, 9223372092127377665,
   9223372113514133762, 9223372112436197635, 9223372096348944644, 9223372078835628293, 9223372081895373062,
   9223372122544470279, 9223372122544470280]

/-- Part 21 of `uniDecomp`. -/
def uniDecomp21 : List Nat :=
  [9223372084806220041, 9223372115139426570, 9223372082771982603, 9223372084787345676, 9223372089447217421,
   9223372100425808142, 9223372105316366607, 9223372108927662352, 9223372109722482961, 9223372110389377298,
   9223372114464143635, 9223372093767350548, 9223372095430392085, 9223372097439463702, 9223372099060562199,
   9223372107849726232, 9223372114923419929, 9223372119501502746, 9223372079003400475, 9223372081660492060,
   9223372094308415773, 9223372098114746654, 9223372108889913631, 9223372121743358240, 9223372086951606561,
   9223372096940341538, 9223372108688587043, 9223372110615869732, 9223372089889716517, 9223372106564172070,
   9223372109934295335, 9223372087744330024, 9223372092200778025, 9223372095596067114, 9223372098586605867,
   9223372114596264236, 9223372079548660013, 9223372080725162286, 9223372081343822127, 9223372090952972592,
   9223372094205655345, 9223372098091678002, 9223372100690049331, 9223372105576413492, 9223372108808124725,
   9223372108988479798, 9223372113054857527, 9223372118027204920]

/-- Part 22 of `uniDecomp`. -/
def uniDecomp22 : List Nat :=
  [9223372120302614841, 9223372121667860794, 9223372101572950331, 9223372102082558268, 9223372104299247933,
   9223372107606456638, 9223372115783252287, 9223372121946782016, 9223372111391816001, 9223372084567144770,
   9223372087865964867, 9223372103628159300, 9223372105838557509, 9223372098263644486, 9223372101702973767,
   9223372112423614792, 9223372117903472969, 9223372084552464714, 9223372086452484427, 9223372093803002188,
   9223372095830948173, 9223372096478968142, 9223372104062269775, 9223372104615917904, 9223372117542762833,
   9223372081318656338, 9223372105865820499, 9223372080802756948, 9223372080769202517, 9223372102411811158,
   9223372104362162519, 9223372107690342744, 9223372117630843225, 9223372111748331866, 9223372089902299483,
   9223372093767350620, 9223372111475702109, 9223372078850308446, 9223372086194534751, 9223372088432195936,
   9223372098878110049, 9223372099903617378, 9223372081463359843, 9223372101805734244, 9223372079668197733,
   9223372088211994982, 9223372078758033767, 9223372095264717160]

/-- Part 23 of `uniDecomp`. -/
def uniDecomp23 : List Nat :=
  [9223372091330460009, 9223372104035006826, 9223372081824069995, 9223372084296612204, 9223372100744575341,
   9223372107874892142, 9223372111299541359, 9223372094690097520, 9223372113996478833, 9223372095122110834,
   9223372090000865651, 9223372107128306036, 9223372090340604277, 9223372099880548726, 9223372079095675255,
   9223372080561584504, 9223372080762911097, 9223372092959947130, 9223372103911274875, 9223372106880842108,
   9223372111383427453, 9223372115135232382, 9223372081392056703, 9223372082090408320, 9223372084877523329,
   9223372087815633282, 9223372091491940739, 9223372096980187524, 9223372101904300421, 9223372117211412870,
   9223372119755258247, 9223372121997113736, 9223372122112457097, 9223372081203313034, 9223372092030908811,
   9223372094549588364, 9223372113832901005, 9223372087563975054, 9223372089233308047, 9223372089468189072,
   9223372090864892305, 9223372096520911250, 9223372097674344851, 9223372099419175316, 9223372102239844757,
   9223372104475408790, 9223372105807100311, 9223372113707071896]

/-- Part 24 of `uniDecomp`. -/
def uniDecomp24 : List Nat :=
  [9223372108220922265, 9223372114237651354, 9223372115930053019, 9223372080926488988, 9223372081220090269,
   9223372082348358046, 9223372097403812255, 9223372110276131232, 9223372111299541409, 9223372087742232994,
   9223372088371378595, 9223372090263009700, 9223372094664931749, 9223372103556856230, 9223372098840361383,
   9223372079208921512, 9223372083547929001, 9223372086194534826, 9223372087173904811, 9223372088453167532,
   9223372098968287661, 9223372099352066478, 9223372105360406959, 9223372105721117104, 9223372115347044785,
   9223372117901375922, 9223372118073342387, 9223372118509550004, 9223372079559145909, 9223372102181124534,
   9223372115078609335, 9223372117771352504, 9223372088866306489, 9223372079011789242, 9223372080261691835,
   9223372086209214908, 9223372086379084221, 9223372091399666110, 9223372093767350719, 9223372097953266112,
   9223372100344019393, 9223372108250282434, 9223372114424297923, 9223372122513013188, 9223372091900885445,
   9223372117481945542, 9223372081165564359, 9223372092410493384]

/-- Part 25 of `uniDecomp`. -/
def uniDecomp25 : List Nat :=
  [9223372092662151625, 9223372095510084042, 9223372096237795787, 9223372099150739916, 9223372099855382989,
   9223372101503744462, 9223372103997258191, 9223372118656350672, 9223372080569973201, 9223372089564658130,
   9223372117637134803, 9223372079894690260, 9223372086836263381, 9223372095864502742, 9223372113715460567,
   9223372088149080536, 9223372089073924569, 9223372092737649114, 9223372098878110171, 9223372117666494940,
   9223372080964237789, 9223372081983453662, 9223372086458776031, 9223372091655518688, 9223372092316121569,
   9223372093041736162, 9223372095317146083, 9223372099144448484, 9223372100142692837, 9223372105291200998,
   9223372110303394279, 9223372110341143016, 9223372115128941033, 9223372117859432938, 9223372081547246059,
   9223372096300710380, 9223372082012813805, 9223372097957460462, 9223372099450632687, 9223372108782959088,
   9223372117727312369, 9223372120789154290, 9223372122013891059, 9223372092469213684, 9223372095799491061,
   9223372106597726710, 9223372102778812919, 9223372102957070840]

/-- Part 26 of `uniDecomp`. -/
def uniDecomp26 : List Nat :=
  [9223372103733017081, 9223372098460776954, 9223372097305246203, 9223372111664445948, 9223372079133424125,
   9223372107298175486, 9223372080999889407, 9223372080892934656, 9223372087668832769, 9223372089910688258,
   9223372103875623427, 9223372085989014020, 9223372095436683781, 9223372091993160198, 9223372113751112199,
   9223372110028667400, 9223372117546957321, 9223372110697658890, 9223372087763204619, 9223372080475601420,
   9223372082891520525, 9223372084288223760, 9223372091858942482, 9223372080806951445, 9223372098683075094,
   9223372100629232151, 9223372101942049304, 9223372102013352473, 9223372102028032538, 9223372102116112923,
   9223372118102702620, 9223372103825291805, 9223372105433807390, 9223372108833290784, 9223372111463119394,
   9223372114281691685, 9223372114694830630, 9223372118960437802, 9223372118987700779, 9223372119079975468,
   9223372121521060397, 9223372114629818926, 9223372117769255471, 9223372079632546352, 9223372080288954929,
   9223372080502864434, 9223372081299782195, 9223372081356405300]

/-- Part 27 of `uniDecomp`. -/
def uniDecomp27 : List Nat :=
  [9223372081584994869, 9223372082818120246, 9223372083038321207, 9223372083243842104, 9223372084233697849,
   9223372084451801658, 9223372086456678971, 9223372086477650492, 9223372088704825917, 9223372089149422142,
   9223372089229113919, 9223372089438829120, 9223372091244476993, 9223372091552758338, 9223372091919759939,
   9223372092968335940, 9223372095623330373, 9223372095965166150, 9223372096518814279, 9223372097751939656,
   9223372098148301385, 9223372099203168842, 9223372101583436363, 9223372101946243660, 9223372101969312333,
   9223372101967215182, 9223372101983992399, 9223372101996575312, 9223372102011255377, 9223372102111918674,
   9223372102114015827, 9223372102487308884, 9223372102623623765, 9223372103292615254, 9223372104475408983,
   9223372104519449176, 9223372104636889689, 9223372105276521050, 9223372105584802395, 9223372106608212572,
   9223372106901813853, 9223372106901813854, 9223372107904252511, 9223372110439709280, 9223372110720727649,
   9223372111481993826, 9223372111599434339, 9223372112459266660]

/-- Part 28 of `uniDecomp`. -/
def uniDecomp28 : List Nat :=
  [9223372112570415717, 9223372114009061990, 9223372114281691751, 9223372117861530216, 9223372118457121385,
   9223372118582950506, 9223372088639814251, 9223372347665349228, 9223372106698390125, 9223372078810462832,
   9223372080720968305, 9223372080559487602, 9223372079536077427, 9223372080486087284, 9223372080609819253,
   9223372081295587958, 9223372081402542711, 9223372082818120312, 9223372082667125369, 9223372082809731706,
   9223372082962823803, 9223372084288223868, 9223372084474870397, 9223372084778957438, 9223372084812511871,
   9223372085378742912, 9223372085793979009, 9223372087761107586, 9223372087775787651, 9223372088077777540,
   9223372088220383877, 9223372088847432326, 9223372089094896263, 9223372088948095624, 9223372089229113993,
   9223372089132645002, 9223372089438829195, 9223372089577241228, 9223372090416102029, 9223372090600651406,
   9223372090713897615, 9223372091259157136, 9223372091858942609, 9223372092200778386, 9223372092209166995,
   9223372092332898964, 9223372094553782933, 9223372094690097814]

/-- Part 29 of `uniDecomp`. -/
def uniDecomp29 : List Nat :=
  [9223372095510084247, 9223372096369916568, 9223372096336362137, 9223372096518814362, 9223372097047296667,
   9223372097751939740, 9223372101092702877, 9223372098169272990, 9223372098425125535, 9223372098683075232,
   9223372099368843937, 9223372099681319586, 9223372099792468643, 9223372100266424996, 9223372100270619301,
   9223372100629232294, 9223372100664883879, 9223372100717312680, 9223372100897667753, 9223372100876696234,
   9223372101707168427, 9223372102724287148, 9223372103292615341, 9223372103684782766, 9223372104154544815,
   9223372104475409072, 9223372105167469233, 9223372105584802482, 9223372107356895923, 9223372107686148788,
   9223372109586168501, 9223372110542469814, 9223372110687173303, 9223372110720727736, 9223372111343581881,
   9223372111463119546, 9223372111368747707, 9223372111481993916, 9223372111475702461, 9223372111440050878,
   9223372111599434431, 9223372111769303744, 9223372112570415809, 9223372113744820930, 9223372114403326659,
   9223372115021986500, 9223372115485457093, 9223372117645523654]

/-- Part 30 of `uniDecomp`. -/
def uniDecomp30 : List Nat :=
  [9223372117861530311, 9223372118102702792, 9223372118381624009, 9223372118457121482, 9223372118482287307,
   9223372118582950604, 9223372120107580109, 9223372122544470734, 9223372333362772687, 9223372333350189776,
   9223372339559856849, 9223372068859476690, 9223372071264910035, 9223372071334116052, 9223372355909253845,
   9223372361561078486, 9223372379820980951, 9223372122357824216, 9223372122515110617, 9229793187900488477,
   9229806382092450591, 9229850362538687274, 9229854760585198379, 9229850494273387308, 9229854892319898413,
   9229806382021147438, 9229810780067658543, 9229828372253702960, 9229828372255800113, 9229828372257897266,
   9229828372259994419, 9229828372262091572, 9229828372264188725, 9229828372266285878, 9229828372270480184,
   9229828372272577337, 9229828372274674490, 9229828372276771643, 9229828372278868796, 9229828372283063102,
   9229828372287257408, 9229828372289354561, 9229828372293548867, 9229828372295646020, 9229828372299840326,
   9229828372301937479, 9229828372304034632, 9229828372306131785]

/-- Part 31 of `uniDecomp`. -/
def uniDecomp31 : List Nat :=
  [9229828372308228938, 9229815178124655435, 9229841566395333452, 9229841566416304973, 9229841566435179342,
   307062957662081178, 307062957666275484, 307062957687247019, 307542345050558766, 307542345052655919,
   309895301053879115, 310005252216656716, 311566559504045243, 311522579038934204, 311579753643578558,
   312644081434039738, 312644081436136891, 316589131027257656, 9747359946061762910, 9747359946063860063,
   9747399528497140064, 9747403926543651169, 9747408324590162274, 9747412722636673379, 9747417120683184484,
   9747359946267283899, 9747359946269381052, 9747399528690078141, 9747399528692175294, 9747403926736589247,
   9747403926738686400, 9223372078858827776, 9223372078848342017, 9223372078867216386, 9223372312341051395,
   9223372079469099012, 9223372079632676869, 9223372079659939846, 9223372079808837639, 9223372080060495880,
   9223372080125507593, 9223372080289085450, 9223372080238753803, 9223372065103607820, 9223372315075737613,
   9223372080502994958, 9223372080517675023, 9223372080551229456]

/-- Part 32 of `uniDecomp`. -/
def uniDecomp32 : List Nat :=
  [9223372080591075345, 9223372314475952146, 9223372065160230931, 9223372080557520916, 9223372080637212693,
   9223372314574518294, 9223372080658184215, 9223372080685447192, 9223372079158720537, 9223372080702224410,
   9223372080721098779, 9223372390046824476, 9223372080855316509, 9223372080884676638, 9223372065239922719,
   9223372081002117152, 9223372081025185825, 9223372081117460514, 9223372081127946275, 9223372065353168932,
   9223372081295718437, 9223372081299912742, 9223372081356535847, 9223372081402673192, 9223372081425741865,
   9223372081427839018, 9223372081463490603, 9223372081568348204, 9223372081585125421, 9223372081603999790,
   9223372081656428591, 9223372081677400112, 9223372081681594417, 9223372081681594418, 9223372081681594419,
   9223372317193861172, 9223372097219393589, 9223372081838880822, 9223372081882921015, 9223372317846075448,
   9223372081908086841, 9223372081920669754, 9223372081964709947, 9223372082283477052, 9223372082069567549,
   9223372082103121982, 9223372082170230847, 9223372082291865664]

/-- Part 33 of `uniDecomp`. -/
def uniDecomp33 : List Nat :=
  [9223372082468026433, 9223372082522552386, 9223372082663061571, 9223372082696616004, 9223372082765822021,
   9223372082765822022, 9223372082809862215, 9223372082847610952, 9223372082864388169, 9223372082895845450,
   9223372083608877131, 9223372083038451788, 9223372083610974285, 9223372083195738190, 9223372083269138511,
   9223372080893065296, 9223372084598732881, 9223372083994753106, 9223372084074444883, 9223372084126873684,
   9223372083854243925, 9223372084204468310, 9223372084202371159, 9223372084460320856, 9223372322948446297,
   9223372084607121498, 9223372084617607259, 9223372084649064540, 9223372084691007581, 9223372084707784798,
   9223372084842002527, 9223372323896359008, 9223372324034771041, 9223372085131409506, 9223372085229975651,
   9223372085255141476, 9223372085089466469, 9223372085387262054, 9223372066345121895, 9223372066374482024,
   9223372085727000681, 9223372085840246890, 9223372085840246891, 9223372325574080620, 9223372086119168109,
   9223372086163208302, 9223372086194665583, 9223372086219831408]

/-- Part 34 of `uniDecomp`. -/
def uniDecomp34 : List Nat :=
  [9223372326278723697, 9223372086244997234, 9223372086259677299, 9223372088031770740, 9223372086318397557,
   9223372066653403254, 9223372086448420983, 9223372086477781112, 9223372086649747577, 9223372086542792826,
   9223372327780284539, 9223372086924474492, 9223372327784478845, 9223372087014652030, 9223372087008360575,
   9223372087044012160, 9223372087255824513, 9223372087257921666, 9223372067018307715, 9223372087314544772,
   9223372087404722309, 9223372087448762502, 9223372087541037191, 9223372067125262472, 9223372329724344457,
   9223372067179788426, 9223372087689934987, 9223372087696226444, 9223372087702517901, 9223372087744460942,
   9223372399549020303, 9223372087853512848, 9223372330626119825, 9223372330626119826, 9223372106650286227,
   9223372087929010324, 9223372087929010325, 9223372067337074838, 9223372338962299031, 9223372364266535064,
   9223372088063228057, 9223372088082102426, 9223372067395795099, 9223372088180668572, 9223372088287623325,
   9223372088308594846, 9223372088379898015, 9223372088665110688]

/-- Part 35 of `uniDecomp`. -/
def uniDecomp35 : List Nat :=
  [9223372067578247329, 9223372067515332770, 9223372088704956579, 9223372332578568356, 9223372088811911333,
   9223372089082443942, 9223372089090832551, 9223372089095026856, 9223372089090832553, 9223372089187301546,
   9223372089229244587, 9223372089304742060, 9223372089275381933, 9223372089298450606, 9223372089397016751,
   9223372089438959792, 9223372089447348401, 9223372089501874354, 9223372089524943027, 9223372089663355060,
   9223372089839515829, 9223372089912916150, 9223372090172962999, 9223372334843492536, 9223372090133117113,
   9223372089996802234, 9223372090223294651, 9223372090279917756, 9223372090483341501, 9223372335323740350,
   9223372090613364927, 9223372090418329792, 9223372090359609537, 9223372068089952450, 9223372090762262723,
   9223372090806302916, 9223372090871314629, 9223372090791622854, 9223372068219975879, 9223372091244607688,
   9223372091305425097, 9223372337523652810, 9223372091554986187, 9223372092135897292, 9223372091768895693,
   9223372068582783182, 9223372091919890639, 9223372068547131600]

/-- Part 36 of `uniDecomp`. -/
def uniDecomp36 : List Nat :=
  [9223372068471634129, 9223372080647698642, 9223372080653990099, 9223372092152674516, 9223372091942959317,
   9223372105937254614, 9223372073280403671, 9223372092200909016, 9223372092209297625, 9223372092221880538,
   9223372092349806811, 9223372092326738140, 9223372339522238685, 9223372068683446494, 9223372092676962527,
   9223372092431595744, 9223372092861511905, 9223372092968466658, 9223372339878754531, 9223372092987341028,
   9223372092754557157, 9223372093268359398, 9223372068859607271, 9223372093364828392, 9223372093568252137,
   9223372093717149930, 9223372094115608811, 9223372341065742572, 9223372094222563565, 9223372069117556974,
   9223372094369364207, 9223372342147873008, 9223372094476318961, 9223372069230803186, 9223372094539233523,
   9223372094633605364, 9223372094690228469, 9223372094692325622, 9223372343167088887, 9223372327325202680,
   9223372343395678457, 9223372095000606970, 9223372344339396859, 9223372095237585148, 9223372095266945277,
   9223372095053035774, 9223372095420037375, 9223372095503923456]

/-- Part 37 of `uniDecomp`. -/
def uniDecomp37 : List Nat :=
  [9223372095623461121, 9223372095510214914, 9223372095594100995, 9223372095625558276, 9223372095652821253,
   9223372344544917766, 9223372095482951943, 9223372096009337096, 9223372096141457673, 9223372069711051018,
   9223372096336492811, 9223372096328104204, 9223372345457178893, 9223372095896090894, 9223372096678328591,
   9223372345752877328, 9223372345853540625, 9223372096862877970, 9223372097104050451, 9223372097047427348,
   9223372097041135893, 9223372069918669078, 9223372097139702039, 9223372097246656792, 9223372097234073881,
   9223372097347320090, 9223372314494826779, 9223372097666087196, 9223372347373975837, 9223372097848539422,
   9223372348061841695, 9223372098142140704, 9223372098169403681, 9223372098226026786, 9223372349330618659,
   9223372098326690084, 9223372098370730277, 9223372349961861414, 9223372350429526311, 9223372098850978088,
   9223372098886629673, 9223372070501677354, 9223372098941155627, 9223372070526843180, 9223372070526843181,
   9223372099280894254, 9223372099324934447, 9223372099368974640]

/-- Part 38 of `uniDecomp`. -/
def uniDecomp38 : List Nat :=
  [9223372099410917681, 9223372099555621170, 9223372070734461235, 9223372099744364852, 9223372352648313141,
   9223372099798890806, 9223372352841251127, 9223372099903748408, 9223372329783064889, 9223372100239292730,
   9223372354483321147, 9223372354531555644, 9223372354825156925, 9223372071206320446, 9223372071231486271,
   9223372100717443392, 9223372355192158529, 9223372355190061378, 9223372355271850307, 9223372355326376260,
   9223372100805523781, 9223372100807620934, 9223372100807620935, 9223372100897798472, 9223372071334246729,
   9223372101034113354, 9223372071361509707, 9223372071529281868, 9223372356890851661, 9223372101443057998,
   9223372101573081423, 9223372101707299152, 9223372071690762577, 9223372357983467858, 9223372101996706131,
   9223372358226737492, 9223372358316915029, 9223372102116243798, 9223372102309181783, 9223372071850146136,
   9223372102487439705, 9223372102508411226, 9223372102518896987, 9223372359774435676, 9223372360401484125,
   9223372360401484126, 9223372102852344159, 9223372072292645216]

/-- Part 39 of `uniDecomp`. -/
def uniDecomp39 : List Nat :=
  [9223372360946743649, 9223372103305328994, 9223372103311620451, 9223372072370239844, 9223372361393437029,
   9223372103867365734, 9223372072623995239, 9223372103913503080, 9223372103903017321, 9223372103963834730,
   9223372363016632683, 9223372104171452780, 9223372072827418989, 9223372104381167982, 9223372104504899951,
   9223372104645409136, 9223372072934373745, 9223372364430113138, 9223372364495124851, 9223372073011968372,
   9223372364801309045, 9223372105293429110, 9223372365013121399, 9223372105350052216, 9223372105561864569,
   9223372105584933242, 9223372365877148027, 9223372366030240124, 9223372105775774077, 9223372366309161342,
   9223372105809328511, 9223372339312523648, 9223372073272015233, 9223372105947740546, 9223372106117609859,
   9223372073385261444, 9223372106241341829, 9223372085552937350, 9223372367380806023, 9223372367410166152,
   9223372339421575561, 9223372339440449930, 9223372106650286475, 9223372106656577932, 9223372113958861197,
   9223372073586588046, 9223372106952276367, 9223372106939693456]

/-- Part 40 of `uniDecomp`. -/
def uniDecomp40 : List Nat :=
  [9223372106977442193, 9223372081253775762, 9223372107019385235, 9223372107023579540, 9223372107044551061,
   9223372107130534294, 9223372369303894423, 9223372107128437144, 9223372107245877657, 9223372107392678298,
   9223372107547867547, 9223372107258460572, 9223372107581421981, 9223372107669502366, 9223372107904383391,
   9223372107359123872, 9223372107608684961, 9223372107612879266, 9223372107646433699, 9223372369828182436,
   9223372370476202405, 9223372370161629606, 9223372073989241255, 9223372108227344808, 9223372108231539113,
   9223372108304939434, 9223372373896657323, 9223372108468517292, 9223372371417823661, 9223372074094098862,
   9223372074102487471, 9223372371696744880, 9223372372302821809, 9223372074123458994, 9223372108963445171,
   9223372108988610996, 9223372109011679669, 9223372109015873974, 9223372109150091703, 9223372109080885688,
   9223372109361904057, 9223372109269629370, 9223372109586299323, 9223372109416430012, 9223372109556939197,
   9223372109613562302, 9223372074349951423, 9223372109804403136]

/-- Part 41 of `uniDecomp`. -/
def uniDecomp41 : List Nat :=
  [9223372109871512001, 9223372074421254594, 9223372110070741443, 9223372110077032900, 9223372375299652037,
   9223372110320302534, 9223372110334982599, 9223372074547083720, 9223372110393702857, 9223372065164425674,
   9223372376522291659, 9223372376908167628, 9223372074834393549, 9223372074853267918, 9223372111278701007,
   9223372111440181712, 9223372111769434577, 9223372112195156434, 9223372378657192403, 9223372112375511508,
   9223372112421648853, 9223372112610392534, 9223372112803330519, 9223372380014049752, 9223372316036233689,
   9223372112979491290, 9223372112948034011, 9223372113057085916, 9223372316493412829, 9223372113535236574,
   9223372113744951775, 9223372383577111008, 9223372383633734113, 9223372114474760674, 9223372114669795811,
   9223372114736904676, 9223372384306919909, 9223372114757876198, 9223372115355564519, 9223372115689011688,
   9223372115691108841, 9223372115498170858, 9223372116297185771, 9223372116355906028, 9223372386882222573,
   9223372117140240878, 9223372076359023087, 9223372117232515568]

/-- Part 42 of `uniDecomp`. -/
def uniDecomp42 : List Nat :=
  [9223372387681237489, 9223372076528892402, 9223372117794552307, 9223372087157258740, 9223372117995878901,
   9223372389723863542, 9223372390170556919, 9223372076814105080, 9223372076830882297, 9223372118392240634,
   9223372391210744315, 9223372076956711420, 9223372391504345597, 9223372118482418174, 9223372118482418175,
   9223372118545332736, 9223372392108325377, 9223372118933305858, 9223372077227244035, 9223372119082203652,
   9223372119346444805, 9223372119403067910, 9223372119528897031, 9223372077552302600, 9223372395048532489,
   9223372120107710986, 9223372120741050891, 9223372121137412620, 9223372078089173517, 9223372078154185230,
   9223372121359710735, 9223372398064237072, 9223372078177253905, 9223372398179580434, 9223372398735325715,
   9223372399010052628, 9223372122072742421, 9223372078374386198, 9223372122202765847, 9223372122213251608,
   9223372122227931673, 9223372122248903194, 9223372122263583259, 9223372122341177884, 9223372400853449245]

/-- Canonical decompositions: code point + 2²¹ × first + 2⁴² × second (0 for a single one) + 2⁶³ where it is excluded from
composition. -/
def uniDecomp : List Nat :=
  uniDecomp0 ++ uniDecomp1 ++ uniDecomp2 ++ uniDecomp3 ++ uniDecomp4 ++ uniDecomp5 ++ uniDecomp6 ++ uniDecomp7 ++
    uniDecomp8 ++ uniDecomp9 ++ uniDecomp10 ++ uniDecomp11 ++ uniDecomp12 ++ uniDecomp13 ++ uniDecomp14 ++
    uniDecomp15 ++ uniDecomp16 ++ uniDecomp17 ++ uniDecomp18 ++ uniDecomp19 ++ uniDecomp20 ++ uniDecomp21 ++
    uniDecomp22 ++ uniDecomp23 ++ uniDecomp24 ++ uniDecomp25 ++ uniDecomp26 ++ uniDecomp27 ++ uniDecomp28 ++
    uniDecomp29 ++ uniDecomp30 ++ uniDecomp31 ++ uniDecomp32 ++ uniDecomp33 ++ uniDecomp34 ++ uniDecomp35 ++
    uniDecomp36 ++ uniDecomp37 ++ uniDecomp38 ++ uniDecomp39 ++ uniDecomp40 ++ uniDecomp41 ++ uniDecomp42

/-- A code point lies in a table of ranges. -/
def inRanges (l : List Nat) (c : Nat) : Bool := l.any (fun r => r % 2 ^ 21 ≤ c && c ≤ r / 2 ^ 21)

/-- Character class of a code point (R85): 0 letter, 1 digit, 2 white space, 3 other, unassigned ones among them. -/
def charClass (c : Nat) : Nat :=
  if inRanges uniLetters c then 0 else if inRanges uniDigits c then 1 else if inRanges uniSpaces c then 2 else 3

/-- Canonical combining class. -/
def combining (c : Nat) : Nat :=
  match uniCcc.find? (fun r => r % 2 ^ 21 ≤ c && c ≤ r / 2 ^ 21 % 2 ^ 21) with
  | some r => r / 2 ^ 42
  | none => 0

/-- Full canonical decomposition of a code point; Hangul syllables by their arithmetic. -/
def decompose : Nat → Nat → List Nat
  | 0, c => [c]
  | fuel + 1, c =>
    if 0xAC00 ≤ c ∧ c < 0xAC00 + 11172 then
      let i := c - 0xAC00
      let t := i % 28
      [0x1100 + i / 588, 0x1161 + i % 588 / 28] ++ (if t = 0 then [] else [0x11A7 + t])
    else
      match uniDecomp.find? (fun r => r % 2 ^ 21 == c) with
      | none => [c]
      | some r =>
        let b := r / 2 ^ 42 % 2 ^ 21
        decompose fuel (r / 2 ^ 21 % 2 ^ 21) ++ (if b = 0 then [] else decompose fuel b)

/-- Put a code point with its class into a run of marks: after those of a class no higher. -/
def addMark (x : Nat × Nat) : List (Nat × Nat) → List (Nat × Nat)
  | [] => [x]
  | y :: r => if x.2 < y.2 then x :: y :: r else y :: addMark x r

/-- Canonical order: each run of marks in ascending class, equal ones as they stood. `run` is the run being gathered. -/
def canonOrder : List (Nat × Nat) → List Nat → List (Nat × Nat)
  | run, [] => run
  | run, c :: r =>
    let k := combining c
    if k = 0 then run ++ (c, 0) :: canonOrder [] r else canonOrder (addMark (c, k) run) r

/-- The primary composite of a pair. -/
def composite (a b : Nat) : Option Nat :=
  if 0x1100 ≤ a ∧ a < 0x1113 ∧ 0x1161 ≤ b ∧ b < 0x1176 then some (0xAC00 + 588 * (a - 0x1100) + 28 * (b - 0x1161))
  else if 0xAC00 ≤ a ∧ a < 0xAC00 + 11172 ∧ (a - 0xAC00) % 28 = 0 ∧ 0x11A7 < b ∧ b < 0x11C3 then some (a + b - 0x11A7)
  else (uniDecomp.find? (fun r => r / 2 ^ 21 == a + b * 2 ^ 21)).map (fun r => r % 2 ^ 21)

/-- Canonical composition: `starter` is the last starter, `marks` what has stayed after it in reverse, `last` the class of the last of
these. -/
def compose : Option Nat → List Nat → Nat → List (Nat × Nat) → List Nat
  | st, marks, _, [] => st.toList ++ marks.reverse
  | none, marks, _, (c, k) :: r =>
    if k = 0 then marks.reverse ++ compose (some c) [] 0 r else compose none (c :: marks) k r
  | some st, marks, last, (c, k) :: r =>
    let free : Bool := marks.isEmpty || last < k
    match (if free then composite st c else none) with
    | some x => compose (some x) marks last r
    | none => if k = 0 then st :: marks.reverse ++ compose (some c) [] 0 r else compose (some st) (c :: marks) k r

/-- Normalisation form C of a string of code points (R85). -/
def nfcPoints (l : List Nat) : List Nat := compose none [] 0 (canonOrder [] (l.flatMap (decompose 8)))

/-- UTF-8 of a code point. -/
def utf8Bytes (c : Nat) : Bytes :=
  let cont (k : Nat) : Byte := BitVec.ofNat 8 (0x80 + c / 2 ^ (6 * k) % 64)
  if c < 0x80 then [BitVec.ofNat 8 c]
  else if c < 0x800 then [BitVec.ofNat 8 (0xC0 + c / 64), cont 0]
  else if c < 0x10000 then [BitVec.ofNat 8 (0xE0 + c / 4096), cont 1, cont 0]
  else [BitVec.ofNat 8 (0xF0 + c / 2 ^ 18), cont 2, cont 1, cont 0]

end Sys2Proof.Machine
end

