-- ==== Sys2Proof/Machine/Whippet.lean ====
section
/-! DEFINITION. The Whippet routines: tokenizer (R85), sampler and acceptance (R86 to R89, R104), draft executor (R90), tree
builder (R91, R92), detokenizer (R93, R105, R246), prefix hasher (R94) and housekeeping (R83, R349). -/

namespace Sys2Proof.Machine

/-! Memory a routine reads (R84, R86). -/

/-- n bytes at an offset of an image's locked partition on a die. -/
def partBytes (s : State) (die slot off n : Nat) : Bytes :=
  match partitionOf s die slot with
  | none => []
  | some p => s.load (memKey (dieSite die) (sbBase + p.1 * 2 ^ 20 + off)) n

/-- A 32-bit word of an image's locked partition. -/
def partWord (s : State) (die slot off : Nat) : Nat := leNat (partBytes s die slot off 4)

/-- Memory key of an offset in die-shared SRAM. -/
def sharedKey (die off : Nat) : Nat := memKey (dieSite die) (dieSramBase + off)

/-! Text (R85). -/

/-- Continuation bytes that a lead byte asks for; `none` for a byte that begins no sequence. -/
def utf8Need (b : Nat) : Option Nat :=
  if b < 0x80 then some 0 else if 0xC2 ≤ b ∧ b < 0xE0 then some 1
  else if 0xE0 ≤ b ∧ b < 0xF0 then some 2 else if 0xF0 ≤ b ∧ b < 0xF5 then some 3 else none

/-- The code point at the start of a byte string and its length, if a valid UTF-8 sequence stands there. -/
def utf8At (t : Bytes) : Option (Nat × Nat) :=
  match t with
  | [] => none
  | b :: r =>
    match utf8Need b.toNat with
    | none => none
    | some n =>
      let cont := r.take n
      if cont.length < n ∨ !cont.all (fun c => c.toNat / 64 == 2) then none
      else
        let lead := if n = 0 then b.toNat else b.toNat % 2 ^ (6 - n)
        let cp := cont.foldl (fun a c => a * 64 + c.toNat % 64) lead
        let low := [0, 0x80, 0x800, 0x10000].getD n 0
        if cp < low ∨ (0xD800 ≤ cp ∧ cp < 0xE000) ∨ 0x10FFFF < cp then none else some (cp, n + 1)

/-- Text as units: each valid character with its code point, and each byte of an invalid sequence alone (R85). -/
def textUnits : Nat → Bytes → List (Option Nat × Bytes)
  | 0, _ => []
  | fuel + 1, t =>
    match t with
    | [] => []
    | b :: r =>
      match utf8At t with
      | some (cp, n) => (some cp, t.take n) :: textUnits fuel (t.drop n)
      | none => (none, [b]) :: textUnits fuel r

/-- The whole text is valid UTF-8. -/
def utf8Valid (t : Bytes) : Bool := (textUnits t.length t).all (fun u => u.1.isSome)

/-- Character class of a unit (R85): 0 letter, 1 digit, 2 whitespace, 3 other, each byte of an invalid sequence among them. -/
def unitClass (u : Option Nat × Bytes) : Nat :=
  match u.1 with
  | none => 3
  | some c => charClass c

/-- Text in normalisation form C: the valid runs normalised, bytes of invalid sequences as they stand (R85). `run` holds the code
points of the run under way. -/
def nfcUnits : List Nat → List (Option Nat × Bytes) → Bytes
  | run, [] => (nfcPoints run).flatMap utf8Bytes
  | run, u :: r =>
    match u.1 with
    | some c => nfcUnits (run ++ [c]) r
    | none => (nfcPoints run).flatMap utf8Bytes ++ u.2 ++ nfcUnits [] r

/-- Normalisation form C of a byte string (R85). -/
def nfcOf (t : Bytes) : Bytes := nfcUnits [] (textUnits t.length t)

/-- Bytes of units. -/
def unitBytes (l : List (Option Nat × Bytes)) : Bytes := l.flatMap (·.2)

/-- A single space. -/
def isSpace (u : Option Nat × Bytes) : Bool := u.1 == some 32

/-- Pieces of split rule set 1 (R85). -/
def splitPieces : Nat → List (Option Nat × Bytes) → List Bytes
  | 0, _ => []
  | fuel + 1, l =>
    match l with
    | [] => []
    | u :: _ =>
      let run (k : Nat) (l : List (Option Nat × Bytes)) := l.takeWhile (fun x => unitClass x == k)
      let k := unitClass u
      if k = 1 then
        let d := (run 1 l).take 3
        unitBytes d :: splitPieces fuel (l.drop d.length)
      else if k = 2 then
        let w := run 2 l
        let after := l.drop w.length
        let joins := ((w.getLast?.map isSpace).getD false) && ((after.head?.map (fun x => unitClass x == 0 || unitClass x == 3)).getD false)
        if joins then
          if w.length = 1 then
            let r := run (unitClass (after.headD (none, []))) after
            unitBytes (w ++ r) :: splitPieces fuel (after.drop r.length)
          else unitBytes w.dropLast :: splitPieces fuel (l.drop (w.length - 1))
        else unitBytes w :: splitPieces fuel after
      else
        let r := run k l
        unitBytes r :: splitPieces fuel (l.drop r.length)

/-- A merge table entry: left, right, rank, result (R85). -/
abbrev Merge := Nat × Nat × Nat × Nat

/-- The merge of an adjacent pair. -/
def mergeOf (ms : List Merge) (a b : Nat) : Option (Nat × Nat) :=
  (ms.find? (fun m => m.1 == a && m.2.1 == b)).map (fun m => (m.2.2.1, m.2.2.2))

/-- Lowest rank among the adjacent pairs. -/
def bestRank (ms : List Merge) : List Nat → Option Nat
  | a :: b :: r =>
    match (mergeOf ms a b).map (·.1), bestRank ms (b :: r) with
    | some x, some y => some (min x y)
    | some x, none => some x
    | none, y => y
  | _ => none

/-- Merge the leftmost pair of a rank. -/
def mergeAt (ms : List Merge) (rank : Nat) : List Nat → List Nat
  | a :: b :: r =>
    match mergeOf ms a b with
    | some (k, t) => if k = rank then t :: r else a :: mergeAt ms rank (b :: r)
    | none => a :: mergeAt ms rank (b :: r)
  | l => l

/-- Merge until no pair has an entry (R85 step 4). -/
def mergeAll (ms : List Merge) : Nat → List Nat → List Nat
  | 0, l => l
  | fuel + 1, l =>
    match bestRank ms l with
    | none => l
    | some r => mergeAll ms fuel (mergeAt ms r l)

/-- Longest special string at the start of the text. -/
def specialAt (sp : List (Nat × Bytes)) (t : Bytes) : Option (Nat × Bytes) :=
  (sp.filter (fun e => e.2 != [] && e.2.isPrefixOf t)).foldl (fun (o : Option (Nat × Bytes)) e =>
    match o with
    | none => some e
    | some x => if x.2.length < e.2.length then some e else some x) none

/-- Text cut at special strings: the leftmost position first, the longest there (R85 step 2). A segment is a special token or
the text between. -/
def cutSpecials (sp : List (Nat × Bytes)) : Nat → Bytes → Bytes → List (Sum Nat Bytes)
  | 0, acc, t => [.inr (acc ++ t)]
  | fuel + 1, acc, t =>
    match t with
    | [] => [.inr acc]
    | b :: r =>
      match specialAt sp t with
      | some e => .inr acc :: .inl e.1 :: cutSpecials sp fuel [] (t.drop e.2.length)
      | none => cutSpecials sp fuel (acc ++ [b]) r

/-- Entries of the special table (R85). -/
def specialTable (s : State) (die slot : Nat) (d : Bytes) : List (Nat × Bytes) :=
  (List.range (leAt d 40 2)).map (fun i =>
    let e := partBytes s die slot (leAt d 36 4 + 72 * i) 72
    (leAt e 0 4, (e.drop 8).take (leAt e 4 1)))

/-- Entries of the merge table (R85), taken as a list of merge_count entries (log entry 14). -/
def mergeTable (s : State) (die slot : Nat) (d : Bytes) : List Merge :=
  (List.range (leAt d 32 4)).map (fun i =>
    let e := partBytes s die slot (leAt d 28 4 + 16 * i) 16
    (leAt e 0 4, leAt e 4 4, leAt e 8 4, leAt e 12 4))

/-- The tokenizer (R85): tokens of a text prompt by a descriptor whose tables stand in the partition of a die. -/
def tokenize (s : State) (die slot : Nat) (d : Bytes) (text : Bytes) : List W32 :=
  let text := if leAt d 16 1 = 1 then nfcOf text else text
  let segs := if (leAt d 18 1).testBit 0 then cutSpecials (specialTable s die slot d) (text.length + 1) [] text else [.inr text]
  let ms := mergeTable s die slot d
  (segs.flatMap (fun g =>
    match g with
    | .inl t => [t]
    | .inr t =>
      let pieces := if leAt d 17 1 = 1 then splitPieces (t.length + 1) (textUnits t.length t) else [t]
      pieces.flatMap (fun p =>
        mergeAll ms p.length (p.map (fun b => partWord s die slot (leAt d 24 4 + 4 * b.toNat)))))).map (BitVec.ofNat 32)

/-! FP32 arithmetic with the routine's status flags (R51, R52, R82). -/

/-- A computation that raises flags. -/
abbrev FM := StateM Flags

/-- Note a result's flags. -/
def note (r : W32 × Flags) : FM W32 := do
  modify (fun f => f ||| r.2)
  return r.1

def fAdd (a b : W32) : FM W32 := note (f32Add false a b)
def fSub (a b : W32) : FM W32 := note (f32Sub false a b)
def fMul (a b : W32) : FM W32 := note (f32Mul false a b)
def fDiv (a b : W32) : FM W32 := note (f32Div false a b)
def fExp2 (a : W32) : FM W32 := note (f32Result false (f32 a).isNan (exp2Val (f32 a)))

/-- Key that orders FP32 values; −0 and +0 are equal, and a NaN is below all. -/
def fkey (w : W32) : Int :=
  let m : Nat := w.toNat % 2 ^ 31
  if 0x7F800000 < m then -2 ^ 32 else if w.toNat < 2 ^ 31 then (m : Int) else -(m : Int)

def fLt (a b : W32) : Bool := !(f32 a).isNan && !(f32 b).isNan && fkey a < fkey b

/-- log₂ e rounded to FP32 (R87). -/
def log2e : W32 := 0x3FB8AA3B

/-- A logit as the sampler reads it: NaN as −∞, +∞ as the largest finite value (R87). -/
def readLogit (w : W32) : W32 :=
  if (f32 w).isNan then 0xFF800000 else if w = 0x7F800000 then 0x7F7FFFFF else w

/-- Put an entry in ranking order: larger value first, lower identifier first among equals (R87). -/
def addRank (x : Nat × W32) : List (Nat × W32) → List (Nat × W32)
  | [] => [x]
  | y :: r => if fkey y.2 < fkey x.2 || (fkey y.2 == fkey x.2 && x.1 < y.1) then x :: y :: r else y :: addRank x r

/-- Entries in ranking order. -/
def ranked (l : List (Nat × W32)) : List (Nat × W32) := l.foldl (fun r x => addRank x r) []

/-- Put an entry in ascending order of its identifier. -/
def addId (x : Nat × W32) : List (Nat × W32) → List (Nat × W32)
  | [] => [x]
  | y :: r => if x.1 < y.1 then x :: y :: r else y :: addId x r

/-- Entries in ascending identifier. -/
def byId (l : List (Nat × W32)) : List (Nat × W32) := l.foldl (fun r x => addId x r) []

/-- Sum of a list from left to right, starting with +0. -/
def fSum (l : List W32) : FM W32 := l.foldlM fAdd 0

/-- Shard of an identifier: equal contiguous ranges, the last taking the remainder (R84). -/
def shardOf (vocab shards id : Nat) : Nat := if vocab / shards = 0 then 0 else min (id / (vocab / shards)) (shards - 1)

/-- Fixed-order sum: each shard in ascending identifier, partials in ascending shard (R84). -/
def shardSum (vocab shards : Nat) (l : List (Nat × W32)) : FM W32 := do
  let parts ← (List.range shards).mapM (fun i => fSum ((l.filter (fun x => shardOf vocab shards x.1 == i)).map (·.2)))
  match parts with
  | [] => return 0
  | p :: r => r.foldlM fAdd p

/-- The first step of R87: the repetition penalty on tokens of the window. -/
def penalise (penalty : W32) (window : List W32) (logits : List (Nat × W32)) : FM (List (Nat × W32)) :=
  logits.mapM (fun x => do
    if window.any (fun t => t.toNat == x.1) then
      let v ← if 0 < fkey x.2 then fDiv x.2 penalty else fMul x.2 penalty
      return (x.1, v)
    else return x)

/-- A request's sampling parameters (R243). -/
structure SampleParams where
  vocab  : Nat
  shards : Nat
  temp   : W32
  topK   : Nat
  topP   : W32
  minP   : W32

/-- Steps 3 to 8 of R87: kept weights and probabilities by identifier. -/
def distribution (p : SampleParams) (logits : List (Nat × W32)) : FM (List (Nat × W32) × List (Nat × W32)) := do
  let xs ← logits.mapM (fun x => do return (x.1, ← fDiv x.2 p.temp))
  let kept := if 0 < p.topK then byId ((ranked xs).take p.topK) else xs
  let m := ((ranked kept).head?.map (·.2)).getD 0xFF800000
  let live := kept.filter (fun x => x.2 != 0xFF800000)
  if live.isEmpty then return ([], [])
  let ws ← live.mapM (fun x => do
    let d ← fSub x.2 m
    let e ← fMul d log2e
    return (x.1, ← fExp2 e))
  let total ← shardSum p.vocab p.shards ws
  let ps ← ws.mapM (fun x => do return (x.1, ← fDiv x.2 total))
  let ps ←
    if fLt p.topP 0x3F800000 then
      let go ← (ranked ps).foldlM (fun (st : List (Nat × W32) × W32 × Bool) x => do
        if st.2.2 then return st
        let t ← fAdd st.2.1 x.2
        return (st.1 ++ [x], t, !fLt t p.topP)) ([], 0, false)
      pure (byId go.1)
    else pure ps
  let ps ←
    if 0 < fkey p.minP then
      let top := ((ranked ps).head?.map (·.2)).getD 0
      let bar ← fMul p.minP top
      pure (ps.filter (fun x => !fLt x.2 bar))
    else pure ps
  let ws := ws.filter (fun w => ps.any (fun x => x.1 == w.1))
  let total ← shardSum p.vocab p.shards ws
  let ps ← ws.mapM (fun x => do return (x.1, ← fDiv x.2 total))
  return (ws, ps)

/-- A draw by a uniform variate from kept weights in ascending identifier (R89). -/
def drawFrom (p : SampleParams) (u : W32) (ws : List (Nat × W32)) : FM Nat := do
  let total ← shardSum p.vocab p.shards ws
  let t ← fMul u total
  let go ← (List.range p.shards).foldlM (fun (st : Option Nat × Option W32) i => do
    let own := ws.filter (fun x => shardOf p.vocab p.shards x.1 == i)
    let r ← own.foldlM (fun (a : Option Nat × W32) x => do
      let seq ← fAdd a.2 x.2
      let run ← match st.2 with
        | some before => fAdd before seq
        | none => pure seq
      return (if a.1.isNone && fLt t run then some x.1 else a.1, seq)) (st.1, (0 : W32))
    let before ← match st.2 with
      | some b => fAdd b r.2
      | none => pure r.2
    return (r.1, some before)) (none, none)
  return go.1.getD ((ws.getLast?.map (·.1)).getD 0)

/-- The uniform variate of R88: image and request seeds, output position, purpose, rank, node. -/
def variate (imageSeed requestSeed pos purpose rank node : Nat) : W32 :=
  let w := philox ((imageSeed % 2 ^ 32) ^^^ (requestSeed % 2 ^ 32)) ((imageSeed >>> 32) ^^^ (requestSeed >>> 32))
    pos (purpose * 256 + rank) node 1 0
  (toF32 false (.fin false (w / 256) (-24))).1

/-- Entries divided by their sum in ascending identifier; unchanged where the sum is 0 (R104). -/
def normalise (l : List (Nat × W32)) : FM (List (Nat × W32)) := do
  let t ← fSum (l.map (·.2))
  if fkey t = 0 then return l
  l.mapM (fun x => do return (x.1, ← fDiv x.2 t))

/-- An entry's value, +0 where it is absent. -/
def massOf (l : List (Nat × W32)) (id : Nat) : W32 := ((l.find? (fun x => x.1 == id)).map (·.2)).getD 0

/-! Logit rows and parameters of a context. -/

/-- First logit row of a context's part of a step: rows of earlier streams of the set on the same owner die come first (log
entry 15). -/
def firstRow (s : State) (id : Nat) : Nat :=
  match s.sched.sets.find? (fun (p : Nat × StepSet) => p.2.streams.any (·.1 == id)) with
  | none => 0
  | some p =>
    let owner := ((s.ctx id).map (·.owner)).getD 0
    (((p.2.streams.takeWhile (fun x => x.1 != id)).filter (fun x => ((s.ctx x.1).map (·.owner)).getD 0 == owner)).map
      (fun x => 1 + x.2)).sum

/-- Row r of a logit area on a die (R86). -/
def logitRow (s : State) (die base stride fmt vocab r : Nat) : List (Nat × W32) :=
  (List.range vocab).map (fun i =>
    if fmt = fmtBF16 then (i, readLogit (BitVec.ofNat 32 (leNat (s.load (sharedKey die (base + stride * r + 2 * i)) 2) * 65536)))
    else (i, readLogit (BitVec.ofNat 32 (leNat (s.load (sharedKey die (base + stride * r + 4 * i)) 4)))))

/-- Sampling parameters of a context under a sampler descriptor. -/
def paramsOf (d : Bytes) (c : Ctx) : SampleParams :=
  { vocab := leAt d 20 4, shards := max 1 (shardsOf d), temp := c.temp, topK := c.topK, topP := c.topP, minP := c.minP }

/-- Tokens that stand before a decision at a node: prompt, output, and the path of the tree down to the node (R87). -/
def pathTokens (c : Ctx) : Nat → Nat → List W32
  | 0, _ => c.prompt ++ c.output
  | fuel + 1, i =>
    match c.tree[i]? with
    | none => c.prompt ++ c.output
    | some t => if i = 0 then c.prompt ++ c.output else pathTokens c fuel t.parent ++ [t.token]

/-- The rep_window most recent tokens. -/
def recent (n : Nat) (l : List W32) : List W32 := l.drop (l.length - n)

/-- Target logits at a node after the repetition penalty. -/
def nodeLogits (s : State) (d : Bytes) (c : Ctx) (row0 node : Nat) : FM (List (Nat × W32)) :=
  penalise c.penalty (recent (leAt d 34 2) (pathTokens c 8 node))
    (logitRow s c.owner (leAt d 24 4) (leAt d 28 4) (leAt d 16 1) (leAt d 20 4) (row0 + node))

/-- Draft logits at a node after the repetition penalty; draft rows are FP32 (R90), in the shape's numbering (log entry 16). -/
def draftLogits (s : State) (d : Bytes) (c : Ctx) (row0 node shape : Nat) : FM (List (Nat × W32)) :=
  penalise c.penalty (recent (leAt d 34 2) (pathTokens c 8 node))
    (logitRow s c.owner (leAt d 40 4) (leAt d 28 4) fmtFP32 (leAt d 20 4) (row0 + shape))

/-- Children of a node, in rank order. -/
def childrenOf (c : Ctx) (node : Nat) : List (Nat × TreeNode) :=
  ((List.range c.tree.length).zip c.tree).filter (fun p => p.1 != 0 && p.2.parent == node)

/-! Acceptance (R104). -/

/-- The greedy decision at a node: largest logit, lowest identifier among equals. -/
def argmax (l : List (Nat × W32)) : Nat := ((ranked l).head?.map (·.1)).getD 0

/-- Test a node's children in rank order: the accepted child, or the residual that is left. -/
def testChildren (u : Nat → W32) (ps : List (Nat × W32)) : List ((Nat × TreeNode) × Nat) → List (Nat × W32) →
    FM (Option Nat × List (Nat × W32))
  | [], _ => return (none, ps)
  | (c, rank) :: r, qs => do
    let tok := c.2.token.toNat
    let lhs ← fMul (u rank) (massOf qs tok)
    if fLt lhs (massOf ps tok) then return (some c.1, ps)
    let left ← ps.mapM (fun x => do
      let d ← fSub x.2 (massOf qs x.1)
      return (x.1, if 0 < fkey d then d else 0))
    let left ← normalise left
    let qs ← normalise (qs.map (fun x => if x.1 = tok then (x.1, 0) else x))
    testChildren u left r qs

/-- Acceptance from a node on: the tokens emitted, and whether the residual fell back (R104). -/
def acceptFrom (s : State) (im : Image) (d : Bytes) (c : Ctx) (row0 : Nat) : Nat → Nat → FM (List W32 × Nat)
  | 0, _ => return ([], 0)
  | fuel + 1, node => do
    let depth := ((c.tree[node]?).map (·.depth)).getD 0
    let pos := c.output.length + depth
    let logits ← nodeLogits s d c row0 node
    let kids := childrenOf c node
    if isZeroF c.temp then
      let t := argmax logits
      match kids.find? (fun k => k.2.token.toNat == t) with
      | some k =>
        let (r, f) ← acceptFrom s im d c row0 fuel k.1
        return (BitVec.ofNat 32 t :: r, f)
      | none => return ([BitVec.ofNat 32 t], 0)
    else
      let p := paramsOf d c
      let (ws, ps) ← distribution p logits
      let u (purpose rank : Nat) : W32 := variate (imgSeed im) c.seed.toNat pos purpose rank node
      if kids.isEmpty then
        let t ← drawFrom p (u 2 0) ws
        return ([BitVec.ofNat 32 t], 0)
      else
        let shape := ((c.tree[node]?).map (·.shape)).getD 0
        let (_, qs) ← distribution p (← draftLogits s d c row0 node shape)
        match ← testChildren (u 1) ps (kids.zip (List.range kids.length)) qs with
        | (some k, _) =>
          let tok := ((c.tree[k]?).map (·.token)).getD 0
          let (r, f) ← acceptFrom s im d c row0 fuel k
          return (tok :: r, f)
        | (none, rest) =>
          let sum ← fSum (rest.map (·.2))
          if fkey sum = 0 then
            let t ← drawFrom p (u 2 0) ws
            return ([BitVec.ofNat 32 t], 1)
          else
            let t ← drawFrom p (u 2 0) (rest.filter (fun x => 0 < fkey x.2))
            return ([BitVec.ofNat 32 t], 0)

/-- A Whippet may run a routine: enabled, its die up, and not under test. -/
def whipRuns (s : State) (w : Nat) : Bool := (s.whip w).state != 2 && !unitDisabled s (64 + w) && dieUp s (whipDie w)

/-- A routine has run from a fresh start (R52, R81): its Whippet's status word holds the flags it raised, its local SRAM the buffer it
left, and its DMA channels the memory it moved in and out, by key and bytes. -/
def routineEnd (w : Nat) (f : Flags) (inb outb : Nat × Nat) (buf : Bytes) (s : State) : State :=
  s.setWhip w { s.whip w with
    astat := BitVec.ofNat 16 (f % 128), sram := Memory.writeN 0 (buf.take (2 ^ 20)) [], dmaIn := inb, dmaOut := outb }

/-- A routine has run that neither raised flags nor moved data of its own (R52). -/
def routineFlags (w : Nat) (f : Flags) (s : State) : State := routineEnd w f (0, 0) (0, 0) [] s

/-! KV of a tree (R103). -/

/-- Home address of a byte of a context's KV: byte o of the pages that follow its whole prefix blocks (R182). -/
def kvHome (im : Image) (c : Ctx) (o : Nat) : Option Nat :=
  let tail := kvPages im (c.prompt.length + c.maxTok - 64 * c.hashes.length)
  ((c.pages.drop (c.pages.length - tail))[o / 65536]?).map (fun p => 65536 * p + o % 65536)

/-- Bytes of a page reach its copy in the owner's Soundboard, where there is one, or its home (R118). -/
def kvPut (die g : Nat) (b : Bytes) (s : State) : State :=
  match (s.die die).dir.find? (fun (p : Nat × CacheEnt) => p.2.page == g / 65536 && p.2.valid) with
  | some (e, x) =>
    let s := s.setDie die { s.die die with dir := tset e { x with dirty := true, age := s.beat } (s.die die).dir }
    storeClean (memKey (dieSite die) (sbBase + 65536 * e + g % 65536)) b s
  | none => storeClean (homeKey g) b s

/-- A target KV entry moves into the context at a position: byte o on of its pages, split where a page ends (R103). -/
def moveEntry (im : Image) (c : Ctx) : Nat → Nat → Bytes → State → State
  | 0, _, _, s => s
  | fuel + 1, o, b, s =>
    if b.isEmpty then s
    else
      let k := min b.length (65536 - o % 65536)
      let s := match kvHome im c o with
        | some g => kvPut c.owner g (b.take k) s
        | none => s
      moveEntry im c fuel (o + k) (b.drop k) s

/-- Nodes of the tree that a step accepted: the root and the child of each accepted token (R103). -/
def acceptedPath (c : Ctx) : Nat → List W32 → List Nat
  | node, t :: r =>
    node :: (match ((List.range c.tree.length).zip c.tree).find? (fun p => p.1 != 0 && p.2.parent == node && p.2.token == t) with
      | some p => acceptedPath c p.1 r
      | none => [])
  | node, [] => [node]

/-- After acceptance the entries of the root and of the accepted nodes move into the context at their positions, target and draft
KV alike, and the rest are discarded (R103). -/
def commitTree (im : Image) (c : Ctx) (accepted : List W32) (s : State) : State :=
  let path := acceptedPath c 0 accepted
  let P := rootPosition c
  let pos (i : Nat) : Nat := P + ((c.tree[i]?).map (·.depth)).getD 0
  let s := path.foldl (fun s i =>
    match c.scratch.find? (fun e => e.1 == i) with
    | some e => moveEntry im c (e.2.length + 1) ((pos i - 64 * c.hashes.length) * imgKvBytes im) e.2 s
    | none => s) s
  let kept := path.filterMap (fun i => (c.draftNew.find? (fun e => e.1 == i)).map (fun e => (pos i, e.2)))
  modCtx c.id (fun c => { c with
    scratch := [], draftNew := [], draftKv := kept.foldl (fun t e => tset e.1 e.2 t) c.draftKv }) s

/-- The Matrix Core part of a context's step is over: no verification item of its set is left where it speculates, no decode item
where it does not (R103). -/
def stepVerified (s : State) (id : Nat) (spec : Bool) : Bool :=
  s.sched.sets.all (fun (p : Nat × StepSet) => !p.2.streams.any (fun x => x.1 == id) ||
    !s.sched.items.any (fun it => it.set_ == p.1 && it.ctx.isNone && it.kind == (if spec then 2 else 1)))

/-- SAMPLER: the decision of a context in a step, with acceptance along its tree (R87, R104). -/
def execSampler (whip : WhipId) (ctx : Nat) (s : State) : Out :=
  match s.ctx ctx with
  | none => .next s
  | some c =>
    match (imageOf s c.slot).bind (fun im => (imgRoutine im 0x02).map (fun d => (im, d))) with
    | none => .next s
    | some (im, d) =>
      if !whipRuns s whip || !inStep s ctx || !c.step.isEmpty || !stepVerified s ctx (!c.tree.isEmpty) then .next s
      else
        let row0 := firstRow s ctx
        let ((toks, fall), f) := (acceptFrom s im d c row0 8 0).run 0
        let s := modCtx ctx (fun c => { c with step := toks }) s
        let s := s.count Obj.samplerResidualFallbacks fall
        let s :=
          if c.tree.isEmpty then s.count Obj.plainSteps 1
          else
            let s := commitTree im c toks.dropLast s
            ((s.count Obj.specSteps 1).count Obj.specNodesVerified (c.tree.length - 1)).count
              Obj.specNodesAccepted (toks.length - 1)
        .next (routineEnd whip f (sharedKey c.owner (leAt d 24 4 + leAt d 28 4 * row0), leAt d 28 4) (0, 0) (wordsBytes toks) s)

/-! Speculation (R90 to R92). -/

/-- Bytes of an image that the draft executor's weights and tables stand in. -/
def draftSection (im : Image) (d : Bytes) : Bytes :=
  d ++ (im.sections.filter (fun x => x.kind == 8)).flatMap (·.data)

/-- Root of a tree: the last token of the context. -/
def treeRoot (c : Ctx) : TreeNode := { token := ((c.prompt ++ c.output).getLast?).getD 0, depth := 0, parent := 0xFF, shape := 0 }

/-- Accumulator type of an operand pair of the Whippet matrix unit; `none` for a pair it does not accept (R82). -/
def whipPair (fa fb : Nat) : Option AccTag :=
  let narrow (f : Nat) : Bool := f == fmtE4M3 || f == fmtE5M2 || f == fmtBFP8
  if narrow fa && narrow fb then some .fp32 else if fa = fmtINT8 ∧ fb = fmtINT8 then some .int32 else none

/-- One output of the Whippet matrix unit: the groups of 32 of two rows added to an accumulator in ascending order (R40 to R43,
R82). -/
def whipProduct (a b : Row) (depth : Nat) (acc : W32) : W32 × Flags :=
  match whipPair a.fmt b.fmt with
  | some tag => columnUpdate false tag a b depth acc
  | none => (acc, 0)

/-- The last hidden row of the draft model after a history (R90). -/
def draftHiddenRow (sec : Bytes) (fmt hidden : Nat) (hist : List W32) (kv : List Bytes) : Row :=
  { fmt, codes := (List.range hidden).map (fun i => some (Sys2Proof.Config.draftHidden sec hist kv i % 256))
    scales := (List.range (hidden / 32)).map (fun i => Sys2Proof.Config.draftHiddenScale sec hist kv i % 256) }

/-- A token's row of the shared embedding and output matrix (R90). -/
def draftEmbedRow (sec : Bytes) (fmt hidden t : Nat) : Row :=
  { fmt, codes := (List.range hidden).map (fun i => some (Sys2Proof.Config.draftEmbed sec t i % 256))
    scales := (List.range (hidden / 32)).map (fun i => Sys2Proof.Config.draftEmbedScale sec t i % 256) }

/-- Draft logits after a history and the flags raised: the hidden row times the output matrix (R82, R90). -/
def draftRow (d sec : Bytes) (hist : List W32) (kv : List Bytes) : List W32 × Flags :=
  let fmt := leAt d 16 1
  let hidden := leAt d 18 2
  let x := draftHiddenRow sec fmt hidden hist kv
  let (r, f) := gatherFlags ((List.range (leAt d 36 4)).map (fun t => whipProduct x (draftEmbedRow sec fmt hidden t) hidden 0))
  (r, f ||| Sys2Proof.Config.draftFlags sec hist)

/-- Draft KV entries that a node attends to: the committed positions among the draft_context most recent, and its ancestors' (R90,
R103). -/
def draftAttends (c : Ctx) (context : Nat) : Nat → Nat → List Bytes
  | 0, _ => []
  | fuel + 1, node =>
    let own := ((c.draftNew.find? (fun e => e.1 == node)).map (·.2)).toList
    match c.tree[node]? with
    | none => own
    | some t =>
      if node = 0 then
        ((c.draftKv.filter (fun p => rootPosition c < p.1 + context ∧ p.1 < rootPosition c)).map (·.2)) ++ own
      else draftAttends c context fuel t.parent ++ own

/-- Nodes a step grants a context. -/
def grantedNodes (s : State) (id : Nat) : Nat :=
  ((s.sched.sets.findSome? (fun (p : Nat × StepSet) => p.2.streams.find? (fun x => x.1 == id))).map (·.2)).getD 0

/-- DRAFT_EXECUTOR: one tree level of a speculating context (R102): one FP32 draft logit row for each node of the level, on the
context's owner die, and its draft KV entry in the scratch (R90, R103). -/
def execDraftExecutor (whip : WhipId) (ctx : Nat) (level : Nat) (s : State) : Out :=
  match s.ctx ctx with
  | none => .next s
  | some c =>
    match (imageOf s c.slot).bind (fun im => (imgRoutine im 0x03).bind (fun d => (imgRoutine im 0x02).map (fun sd => (im, d, sd)))) with
    | none => .next s
    | some (im, d, sd) =>
      if !whipRuns s whip || !inStep s ctx || level != c.drafted || !c.step.isEmpty || grantedNodes s ctx == 0
          || (imgRoutine im 0x04).isNone then .next s
      else
        let c := { c with tree := if c.tree.isEmpty then [treeRoot c] else c.tree }
        let row0 := firstRow s ctx
        let sec := draftSection im d
        let nodes := ((List.range c.tree.length).zip c.tree).filter (fun p => p.2.depth == level)
        let hist (i : Nat) : List W32 := recent (leAt d 32 2) (pathTokens c 8 i)
        let rows := nodes.map (fun p => (p, draftRow d sec (hist p.1) (draftAttends c (leAt d 32 2) 8 p.1)))
        let at_ (p : Nat × TreeNode) : Nat := sharedKey c.owner (leAt sd 40 4 + leAt sd 28 4 * (row0 + p.2.shape))
        let s := rows.foldl (fun s r => storeClean (at_ r.1) (wordsBytes r.2.1) s) s
        let s := modCtx ctx (fun x => { x with
          tree := c.tree, drafted := level + 1
          draftNew := x.draftNew ++ nodes.map (fun p => (p.1, Sys2Proof.Config.draftEntry sec (hist p.1))) }) s
        let last := rows.getLast?
        .next (routineEnd whip (rows.foldl (fun f r => f ||| r.2.2) 0) (0, 0)
          ((last.map (fun r => at_ r.1)).getD 0, 4 * leAt d 36 4) ((last.map (fun r => wordsBytes r.2.1)).getD []) s)

/-- One node of the shape: left out where its parent is, where the parent's level has not been drafted, or where no token
remains (R91). -/
def growNode (s : State) (im : Image) (sd : Bytes) (c : Ctx) (row0 : Nat) (shape : Bytes) (i : Nat) (tree : List TreeNode) :
    FM (List TreeNode) := do
  let parent := leAt shape (2 * (i - 1)) 1 % 32
  match ((List.range tree.length).zip tree).find? (fun p => p.2.shape == parent) with
  | none => return tree
  | some (j, t) =>
    if c.drafted ≤ t.depth then return tree
    let c := { c with tree }
    let sibs := (tree.filter (fun x => x.shape != 0 && x.parent == j)).map (fun x => x.token.toNat)
    let rank := leAt shape (2 * (i - 1) + 1) 1
    let logits ← draftLogits s sd c row0 j parent
    let tok ←
      if isZeroF c.temp then pure (((ranked logits)[rank]?).map (·.1))
      else do
        let p := paramsOf sd c
        let (ws, _) ← distribution p logits
        let left := ws.filter (fun x => !sibs.contains x.1)
        if left.isEmpty then pure none
        else do
          let u := variate (imgSeed im) c.seed.toNat (c.output.length + t.depth) 0 rank parent
          pure (some (← drawFrom p u left))
    match tok with
    | none => return tree
    | some k => return tree ++ [{ token := BitVec.ofNat 32 k, depth := t.depth + 1, parent := j, shape := i }]

/-- Ancestor mask of a node, itself included (R92). -/
def ancestors (tree : List TreeNode) : Nat → Nat → Nat
  | 0, _ => 0
  | fuel + 1, i =>
    match tree[i]? with
    | none => 0
    | some t => 2 ^ i ||| (if i = 0 then 0 else ancestors tree fuel t.parent)

/-- The 192-byte tree record of a context (R92). -/
def treeRecord (c : Ctx) : Bytes :=
  let pad (n : Nat) (b : Bytes) : Bytes := fitBytes n b
  pad 192 (leBytes 4 (rootPosition c) ++ leBytes 1 c.tree.length ++ leBytes 1 (if isZeroF c.temp then 1 else 0) ++ List.replicate 10 0
    ++ pad 68 (c.tree.flatMap (fun t => leBytes 4 t.token.toNat)) ++ pad 17 (c.tree.map (fun t => BitVec.ofNat 8 t.depth))
    ++ pad 17 (c.tree.map (fun t => BitVec.ofNat 8 t.parent))
    ++ pad 68 ((List.range c.tree.length).flatMap (fun i => leBytes 4 (ancestors c.tree 8 i))))

/-- Where the tree record of a stream stands in die-shared SRAM of its owner die: the place is the image's (log entry 87). -/
def treeRecordKey (d : Bytes) (c : Ctx) (row0 : Nat) : Nat :=
  sharedKey c.owner (Sys2Proof.Config.treeRecordAt d row0 % (dieSramSize - 192))

/-- TREE_BUILDER: the children of every drafted node are chosen in shape order, and the tree record is what results, written for the
verification kernels (R91, R92). -/
def execTreeBuilder (whip : WhipId) (ctx : Nat) (s : State) : Out :=
  match s.ctx ctx with
  | none => .next s
  | some c =>
    match (imageOf s c.slot).bind (fun im => (imgRoutine im 0x04).bind (fun d => (imgRoutine im 0x02).map (fun sd => (im, d, sd)))) with
    | none => .next s
    | some (im, d, sd) =>
      let n := grantedNodes s ctx
      if !whipRuns s whip || !inStep s ctx || n == 0 || c.drafted == 0 || !c.step.isEmpty then .next s
      else
        let row0 := firstRow s ctx
        let (tree, f) := ((List.range n).foldlM (fun t i => growNode s im sd c row0 (d.drop 20) (i + 1) t) [treeRoot c]).run 0
        let rec_ := treeRecord { c with tree }
        let s := storeClean (treeRecordKey d c row0) rec_ (modCtx ctx (fun c => { c with tree }) s)
        .next (routineEnd whip f (sharedKey c.owner (leAt sd 40 4 + leAt sd 28 4 * row0), leAt sd 28 4)
          (treeRecordKey d c row0, 192) rec_ s)

/-! The detokenizer (R93, R105, R246). -/

/-- Bytes of a token: from the string table, none for a special token where flag [0] says so (R93). -/
def tokenBytes (s : State) (im : Image) (die slot : Nat) (d : Bytes) (t : W32) : Bytes :=
  let specials : List Nat := match imgRoutine im 0x01 with
    | some td => (specialTable s die slot td).map (fun (e : Nat × Bytes) => e.1)
    | none => []
  if (leAt d 28 1).testBit 0 && specials.contains t.toNat then []
  else
    let e := partBytes s die slot (leAt d 20 4 + 6 * t.toNat) 6
    partBytes s die slot (leAt e 0 4) (leAt e 4 2)

/-- Position at which the earliest completed stop string begins. -/
def stopAt (stops : List Bytes) (t : Bytes) : Option Nat :=
  (List.range t.length).find? (fun i => stops.any (fun x => x != [] && x.isPrefixOf (t.drop i)))

/-- First byte that could still begin a stop string; the length where none could. -/
def holdFrom (stops : List Bytes) (t : Bytes) : Nat :=
  ((List.range t.length).find? (fun i => stops.any (fun x => (t.drop i).isPrefixOf x))).getD t.length

/-- Length of the text without an incomplete UTF-8 sequence at its end. -/
def wholeChars (t : Bytes) : Nat :=
  let n := t.length
  match (List.range (min 3 n)).find? (fun k =>
      match utf8Need ((t.getD (n - 1 - k) 0).toNat) with
      | some need => k < need
      | none => false) with
  | some k => if ((t.drop (n - k)).all (fun b => b.toNat / 64 == 2)) then n - 1 - k else n
  | none => n

/-- A text cut into chunks of at most 8,180 bytes at character boundaries (R246). -/
def chunkText : Nat → Bytes → List Bytes
  | 0, _ => []
  | fuel + 1, t =>
    if t.isEmpty then []
    else if t.length ≤ 8180 then [t]
    else
      let k := wholeChars (t.take 8180)
      let k := if k = 0 then 8180 else k
      t.take k :: chunkText fuel (t.drop k)

/-- Send a context's released text as chunk records (R246). -/
def sendChunks (id : Nat) (text : Bytes) (s : State) : State :=
  (chunkText (text.length + 1) text).foldl (fun s t =>
    match s.ctx id with
    | none => s
    | some c =>
      let s := serveSend c.session 0x06
        (leBytes 4 c.req.toNat ++ leBytes 4 c.chunks ++ leBytes 2 t.length ++ leBytes 2 0 ++ t) s
      modCtx id (fun c => { c with chunks := c.chunks + 1 }) s) s

/-- Pending text, released text, tokens counted and the end of the stream, token by token (R93, R105). -/
structure Detok where
  text  : Bytes
  out   : Bytes
  count : List W32
  ended : Option (Nat × Bool) := none
  deriving DecidableEq, Repr

/-- One token: its bytes join the pending text; end of sequence, a stop string or the token limit ends the stream; a token
that is both end of sequence and completes a stop string ends it as end of sequence (R105). -/
def detokStep (bytesOf : W32 → Bytes) (stops : List Bytes) (eos : Option Nat) (maxTok before : Nat) (x : Detok) (t : W32) : Detok :=
  if x.ended.isSome then x
  else
    let text := x.text ++ bytesOf t
    let count := x.count ++ [t]
    let isEos := eos == some t.toNat
    match stopAt stops text with
    | some k =>
      { text := [], out := x.out ++ text.take k, count, ended := some (if isEos then (0, false) else (1, true)) }
    | none =>
      if isEos then { text := [], out := x.out ++ text, count, ended := some (0, false) }
      else if maxTok ≤ before + count.length then { text := [], out := x.out ++ text, count, ended := some (2, false) }
      else
        let k := min (holdFrom stops text) (wholeChars text)
        { text := text.drop k, out := x.out ++ text.take k, count }

/-- Run the detokenizer over the tokens a step emitted: text goes out, tokens are counted, and a stream that ends sends
FINAL (R93, R105, R246, R247). -/
def detokenize (die id : Nat) (toks : List W32) (s : State) : State :=
  match s.ctx id with
  | none => s
  | some c =>
    match (imageOf s c.slot).bind (fun im => (imgRoutine im 0x05).map (fun d => (im, d))) with
    | none => s
    | some (im, d) =>
      let eos := (imgRoutine im 0x02).map (fun x => leAt x 36 4)
      let r := toks.foldl (detokStep (tokenBytes s im die c.slot d) c.stops eos c.maxTok c.output.length)
        { text := c.text, out := [], count := [] }
      let s := modCtx id (fun c => { c with
        text := r.text, output := c.output ++ r.count, step := []
        firstBeat := if c.output.isEmpty ∧ !r.count.isEmpty then BitVec.ofNat 64 s.beat else c.firstBeat }) s
      let s := sendChunks id r.out s
      match r.ended with
      | none => s
      | some (reason, stop) =>
        let s := if stop then s.count Obj.stopStringHits 1 else s
        endCtx id reason 0 s

/-- The context's part of its step is over. -/
def leaveStep (id : Nat) (s : State) : State :=
  { s with sched := { s.sched with sets := s.sched.sets.map (fun (p : Nat × StepSet) => (p.1,
    if p.2.streams.any (·.1 == id) && !p.2.over_.contains id then { p.2 with over_ := p.2.over_ ++ [id] } else p.2)) } }

/-- DETOKENIZER: the tokens of a context's step become text; a cancellation, deadline or failure that took effect during the
step discards them uncounted (R93, R105). -/
def execDetokenizer (whip : WhipId) (ctx : Nat) (s : State) : Out :=
  match s.ctx ctx with
  | none => .next s
  | some c =>
    if !whipRuns s whip || !inStep s ctx || (c.step.isEmpty && c.ending.isNone) then .next s
    else
      let sets := (s.sched.sets.filter (fun (p : Nat × StepSet) => p.2.streams.any (·.1 == ctx))).map (fun (p : Nat × StepSet) => p.1)
      let s :=
        match c.ending with
        | some (r, k) => endCtx ctx r k (modCtx ctx (fun c => { c with step := [] }) s)
        | none => detokenize (whipDie whip) ctx c.step s
      let s := leaveStep ctx s
      .next (sets.foldl (fun s n => settleStep n s) (routineEnd whip 0 (0, 0) (0, 0) (wordsBytes c.step) s))

/-! The prefix hasher (R94). -/

/-- Hash of a block: CRC of width 64 over the previous hash and the block's 64 tokens (R94). -/
def blockHash (seed prev : Nat) (toks : List W32) : Nat :=
  crcOf 64 0x42F0E1EBA9EA3693 seed false false 0 (leBytes 8 prev ++ wordsBytes toks)

/-- Hashes of the first n whole blocks of a prompt, chained (R94). -/
def blockHashes (seed : Nat) : Nat → Nat → List W32 → List W64
  | 0, _, _ => []
  | n + 1, prev, toks =>
    let h := blockHash seed prev (toks.take 64)
    BitVec.ofNat 64 h :: blockHashes seed n h (toks.drop 64)

/-- The hasher's settings and last check stay in its Whippet's unit (R94, R343). -/
def hasherUnit (w seed : Nat) (hs : List W64) (s : State) : State :=
  match hs.getLast? with
  | none => s
  | some h =>
    let s := s.setCvu w { s.cvu w with
      ctrl := 0x3F, poly := 0x42F0E1EBA9EA3693, init := BitVec.ofNat 64 seed, xorout := 0, reg := h }
    s.count Obj.cvuWhippetBytes (264 * hs.length)

/-- HOUSEKEEPING: firmware work on an idle Whippet; it saves the routine's check state and restores it (R83, R349), so the
unit's registers stand as before. -/
def execHousekeeping (whip : WhipId) (s : State) : Out :=
  if whipIdle s whip then
    let u := s.cvu whip
    .next (routineFlags whip 0 (s.setCvu whip { u with saved := some (u.ctrl, u.poly, u.xorout, u.reg) }))
  else .next s

end Sys2Proof.Machine
end

