-- ==== Sys2Proof/Machine/DieMemory.lean ====
section
/-! DEFINITION. On-die memory and arbitration (R107 to R124): arbiters, scrubbing, the Soundboard cache and die resets, with
the calibration of a die's clock crossings (R268). -/

namespace Sys2Proof.Machine

/-! Arbiters (R120 to R122). Number 2d is the die-shared SRAM port group of die d and 2d + 1 its Soundboard port group; 32 +
16k + c is channel c of stack k; 160 is the hub SRAM port and 161 the check-value pool. -/

/-- Class of an arbiter. -/
def arbClass (a : Nat) : Option Nat :=
  if a < 32 then some 0 else if a < 160 then some 1 else if a < 162 then some 2 else none

/-- Arbiters of a class. -/
def arbsOf (c : Nat) : List Nat := (List.range 162).filter (fun a => arbClass a == some c)

/-- Requesters of a class (R120). -/
def arbRequesters (c : Nat) : Nat := [8, 29, 33].getD c 0

/-- Default priority of a requester (R120). -/
def arbDefault (c r : Nat) : Nat := if c = 0 then arbDieDefault r else if c = 1 then 4 else arbHubDefault r

/-- Priority in force at an arbiter. -/
def arbPrio (x : Arb) (c r : Nat) : Nat :=
  match x.prio with
  | some l => l.getD r 0
  | none => arbDefault c r

/-- A committed set takes effect at the arbiter's decision point, whole (R122). -/
def arbSwitch (x : Arb) : Arb :=
  match x.next with
  | some (p, l, _) => { x with prio := some p, limit := l, next := none }
  | none => x

/-- The first of a list of requesters at or after `rr`, in index order, wrapping. -/
def firstFrom (rr n : Nat) (l : List Nat) : Option Nat :=
  l.foldl (fun (o : Option Nat) r =>
    match o with
    | none => some r
    | some w => if (r + n - rr) % n < (w + n - rr) % n then some r else some w) none

/-- The requester that R121 grants among `cand`, and whether its wait count forced it. -/
def arbPick (x : Arb) (c : Nat) (cand : List Nat) : Option (Nat × Bool) :=
  let n := arbRequesters c
  let forced := cand.filter (fun r => x.limit ≤ tget 0 r x.wait)
  if forced.isEmpty then
    let hi := cand.foldl (fun m r => max m (arbPrio x c r)) 0
    (firstFrom x.rr n (cand.filter (fun r => arbPrio x c r == hi))).map (fun w => (w, false))
  else (firstFrom x.rr n forced).map (fun w => (w, true))

/-- Counters after a grant (R121). -/
def arbGranted (x : Arb) (c win : Nat) (cand : List Nat) : Arb :=
  let wait := cand.foldl (fun w r => if r = win then w else tset r (min (tget 0 r w + 1) 255) w) x.wait
  { x with wait := tset win 0 wait, rr := (win + 1) % arbRequesters c, given := x.given + 1 }

/-- TDM slots of a die's port that windows from their cut-off on hold, and cores under test (R73 step 3, R121, R355): kind 1 die-shared, 2 Soundboard. -/
def reservedSlots (s : State) (die kind : Nat) : Nat :=
  (heldClaims { s with wins := s.wins.filter (fun w => 1 ≤ w.phase) }).foldl (fun m c =>
    if c.1 = kind ∧ c.2.1 = die then m ||| c.2.2 else m) 0

/-- An arbiter can grant now: its port is powered and out of reset, and a die port has an unreserved slot. -/
def arbOpen (s : State) (a : Nat) : Bool :=
  if a < 32 then
    dieUp s (a / 2) && reservedSlots s (a / 2) (a % 2 + 1) != 0xFFFF
      && (a % 2 == 0 || (s.die (a / 2)).sb == 0 || (s.die (a / 2)).sb == 2)
  else if a < 160 then tget 0 ((a - 32) / 16) s.dram.stackSt ≤ 1
  else true

/-- Throttle halves what a port grants: the dynamic grants of a Soundboard's port group (R332, R337), and a channel of a DRAM stack
(R332). -/
def arbHalved (s : State) (a : Nat) : Bool :=
  if a < 32 then a % 2 == 1 && (s.die (a / 2)).sb == 2
  else decide (a < 160) && tget 0 ((a - 32) / 16) s.dram.stackSt == 1

/-- A decision point of an arbiter: of each sixteen in turn a halved port grants at eight, the first that have a requester (DESIGN
CHOICE, log entry 102). -/
def arbPoint (halved : Bool) (x : Arb) : Arb :=
  if !halved then { x with points := 0, given := 0 }
  else if 16 ≤ x.points then { x with points := 1, given := 0 }
  else { x with points := x.points + 1 }

/-- Requests an arbiter may see: those of its class, and no site at the check-value pool (R120). -/
def arbCand (a c : Nat) (cand : List Nat) : List Nat :=
  cand.eraseDups.filter (fun r => r < arbRequesters c && (a != 161 || 29 ≤ r))

/-- Trace records of the hub's 64 KiB queue (R364, R365). -/
def hubQueueLen : Nat := 1365

/-- The hub's queue, the last 64 KiB of hub SRAM, to which the sources write their records (R364; the address is a DESIGN CHOICE, log
entry 104). -/
def traceBase : Nat := 0x3FF0000

/-- A trace record read back from its 48 bytes (R365). -/
def traceOf (b : Bytes) : TraceRec :=
  { beat := leAt b 0 8, kind := leAt b 8 1, site := leAt b 9 1, unit := leAt b 10 2, lost := leAt b 12 1 % 2 == 1, seq := leAt b 13 3
    payload := b.drop 16 }

/-- A trace record joins the hub's queue, where there is room: one that finds it full is lost (log entry 104). -/
def traceArrive (r : TraceRec) (s : State) : State :=
  if s.beagle.hubq.length < hubQueueLen then { s with beagle := { s.beagle with hubq := s.beagle.hubq ++ [r] } }
  else s.count Obj.beagleLost 1

/-- The oldest record of a site's queue, and the state without it. -/
def traceTake (site : Nat) (s : State) : Option (TraceRec × State) :=
  match tget [] site s.beagle.queues with
  | r :: q => some (r, { s with beagle := { s.beagle with queues := tset site q s.beagle.queues } })
  | [] => none

/-- The hub is a source of its own: its oldest record moves into the queue while there is room (R364). -/
def traceMove (s : State) : State :=
  if s.beagle.hubq.length < hubQueueLen then
    match traceTake hubSite s with
    | some (r, s) => traceArrive r s
    | none => s
  else s

/-- One trace record moves from the hub's queue, the hub's own source among those that feed it, to the buffer: the Beagle's
grant at the hub SRAM port (R364). -/
def beagleGrant (s : State) : State :=
  let s := traceMove s
  match s.beagle.hubq with
  | r :: q => traceStore r { s with beagle := { s.beagle with hubq := q } }
  | [] => s

/-- Port of a die's memory that serves an address of its map (R131): 0 die-shared SRAM, core SRAM with it (log entry 90), 1 the
Soundboard with what it caches. -/
def portOf (addr : Nat) : Nat := if addr < sbBase then 0 else 1

/-- An inbound write is at the head of what its source has waiting here: writes of one source take effect in order (R136). -/
def inHead (d : Die) (w : InWrite) : Bool := (d.inq.find? (fun x => x.src == w.src)) == some w

/-- The inbound write that the lightbed receive path, requester 0, asks a port for (R120, R140): the oldest of those that may go. -/
def inNext (d : Die) (port : Nat) : Option InWrite := d.inq.find? (fun w => w.port == port && inHead d w)

/-- Pending requesters of an arbiter: those named, and at a die port the receive path while an inbound write waits for it. -/
def arbAsking (s : State) (a : Nat) (cand : List Nat) : List Nat :=
  if a < 32 ∧ (inNext (s.die (a / 2)) (a % 2)).isSome then 0 :: cand else cand

/-- Class c has a commit under way (R122). -/
def arbPending (s : State) (c : Nat) : Bool :=
  (arbsOf c).any (fun a => match (s.arb a).next with
    | some (_, _, t) => s.beat < t
    | none => false)

/-- Shadow objects, active objects and their number for a class (R124). -/
def arbKeys (c : Nat) : Nat × Nat :=
  if c = 0 then (Obj.arbDiePrioShadowR, Obj.arbDiePrioR)
  else if c = 1 then (Obj.arbDramPrioShadowR, Obj.arbDramPrioR) else (Obj.arbHubPrioShadowR, Obj.arbHubPrioR)

/-- A commit copies a class's shadow priorities and limit to its active objects and to every arbiter (R122). -/
def commitArb (c : Nat) (s : State) : State :=
  let prios := (List.range (arbRequesters c)).map (fun r => s.obj ((arbKeys c).1 + r))
  let limit := s.obj (Obj.arbWaitLimitShadowC + c)
  let s := (List.range (arbRequesters c)).foldl (fun s r => s.setObj ((arbKeys c).2 + r) (prios.getD r 0)) s
  let s := s.setObj (Obj.arbWaitLimitC + c) limit
  (arbsOf c).foldl (fun s a => s.setArb a { s.arb a with next := some (prios, limit, s.beat + 2000) }) s

/-! Scrubbing (R112). -/

/-- A word found in error: counted, and an uncorrectable one is remembered until it is written whole. -/
def scrubWord (die : Nat) (s : State) (w : Nat × Nat) : State :=
  let shared := dieSramBase ≤ w.1 && w.1 < dieSramBase + dieSramSize
  let sb := sbBase ≤ w.1 && w.1 < sbBase + 512 * 2 ^ 20
  if !shared && !sb then s
  else if w.2 = 1 then s.count (if shared then Obj.sramCorrected else Obj.sbCorrected) 1
  else if w.2 = 2 then
    let key := memKey (dieSite die) (w.1 / 8 * 8)
    let s := if s.bad.contains key then s else { s with bad := s.bad ++ [key] }
    countLog (if shared then Obj.sramUncorrected else Obj.sbUncorrected) 0 0 (dieSite die) 0 (leBytes 8 w.1) s
  else s

/-- SCRUB_PASS: a die's scrub engine has read and rewritten every word, once per `scrub_period_h`; `words` are the words in error,
by address in the die's map (1 corrected, 2 uncorrectable). -/
def execScrubPass (die : DieId) (words : List (Nat × Nat)) (s : State) : Out :=
  let d := s.die die
  if !dieUp s die ∨ (0 < d.scrubs ∧ s.beat < d.scrubAt + 3600000000000 * s.obj Obj.scrubPeriodH) then .next s
  else
    let s := words.foldl (scrubWord die) s
    .next (s.setDie die { s.die die with scrubs := (s.die die).scrubs + 1, scrubAt := s.beat })

/-! The Soundboard cache (R117, R118). Entry e of the directory holds the 64 KiB at Soundboard address 65,536 e. -/

/-- Entries of the directory: the top 1 MiB cannot be allocated (R116). -/
def cacheEntries : Nat := 511 * 16

/-- The entry lies in a locked partition (R117). -/
def entryLocked (d : Die) (e : Nat) : Bool := d.parts.any (fun p => p.base ≤ e / 16 && e / 16 < p.base + p.mib)

/-- Memory key of a byte of an entry. -/
def entryKey (die e off : Nat) : Nat := memKey (dieSite die) (sbBase + 65536 * e + off)

/-- Directory entry of a page: its number and the entry. -/
def cacheFind (d : Die) (page : Nat) : Option (Nat × CacheEnt) := d.dir.find? (fun (p : Nat × CacheEnt) => p.2.page == page)

/-- Lowest entry from e on that holds no page and is not locked. -/
def freeEntry (d : Die) : Nat → Nat → Option Nat
  | 0, _ => none
  | fuel + 1, e =>
    if e < cacheEntries then
      (if (tfind e d.dir).isNone && !entryLocked d e then some e else freeEntry d fuel (e + 1))
    else none

/-- The victim: the least recently used page that is neither pinned nor being filled, the lowest entry winning a tie. -/
def cacheVictim (d : Die) : Option (Nat × CacheEnt) :=
  (d.dir.filter (fun (p : Nat × CacheEnt) => p.2.valid && !p.2.pinned)).foldl
    (fun (o : Option (Nat × CacheEnt)) p =>
      match o with
      | none => some p
      | some x => if p.2.age < x.2.age then some p else some x) none

/-- A dirty page goes home as 1,024 WRITE frames (R118, R178). -/
def writeBack (die e page : Nat) (s : State) : State :=
  let data := s.load (entryKey die e 0) 65536
  let s := sendWrite 1025 (dieSite die) (stackSite (pageStack page)) (homeOffset (65536 * page)) data none none s
  (s.count Obj.sbWritebacks 1).count Obj.dramWritebacks 1

/-- An entry leaves the directory, written back first if it is dirty (R118). -/
def evictEntry (die e : Nat) (s : State) : State :=
  match tfind e (s.die die).dir with
  | none => s
  | some x =>
    let s := if x.valid && x.dirty then writeBack die e x.page s else s
    s.setDie die { s.die die with dir := terase e (s.die die).dir }

/-- Free reply tags of a site, lowest first (R137). -/
def freeTags (s : State) (site : Nat) : List Nat :=
  (List.range 256).filter (fun t => !s.tags.any (fun x => x.site == site && x.tag == t))

/-- What a read was for goes without its data: a page fill is given up (R118), a rim die's access fails (R228). `status` is that of
R130. -/
def readFails (purpose arg status : Nat) (s : State) : State :=
  if purpose = 0 then dropFill arg s
  else if purpose = 1 then (if status = 1 ∨ status = 2 then opFail arg status 0 s else opFail arg 0x03 0x1205 s)
  else s

/-- A read leaves for another site under a tag: READ_REQ for n bytes at `addr`, to land at byte address `landing` of the
requester's map (R130, R137). Without a path it ends with path-lost. -/
def sendRead (src dst addr n landing tag purpose arg : Nat) (s : State) : State :=
  if (pathOf s src dst (addr / 64)).isNone then readFails purpose arg 1 (pathLost none s)
  else
    let s := { s with tags := s.tags ++ [{ site := src, tag, landing, left := n, purpose, arg }] }
    let payload := leBytes 5 (landing / 64) ++ leBytes 2 (n - 1) ++ leBytes 1 tag
    sendFrame opREADREQ src dst 63 (addr % 64) (addr / 64) payload none none s

/-- The 32 reads of a page fill (R178): first unit of read j. -/
def fillUnit (j : Nat) : Nat := if j = 32 then 1024 else 32 * j + j % 2

/-- Start the fill of a page into entry e under the given tags. -/
def startFill (die e page : Nat) (tags : List Nat) (s : State) : State :=
  let pin := (stepPages s).contains page
  let d := s.die die
  let s := s.setDie die { d with
    dir := tset e { page, valid := false, dirty := false, pinned := pin, age := s.beat } d.dir
    fills := d.fills ++ [(page, 32)] }
  let at_ := homeOffset (65536 * page)
  (List.range 32).foldl (fun s j =>
    let b := fillUnit j
    let n := 64 * (fillUnit (j + 1) - b)
    sendRead (dieSite die) (stackSite (pageStack page)) (at_ + 64 * b) n (sbBase + 65536 * e + 64 * b) (tags.getD j 0) 0 page s) s

/-- A store or read that hits an entry: counted, the age renewed, the bytes written (R118). -/
def cacheHit (die e : Nat) (x : CacheEnt) (off : Nat) (data : Option Bytes) (s : State) : State :=
  let s := s.count Obj.sbCacheHits 1
  let d := s.die die
  let s := s.setDie die { d with dir := tset e { x with age := s.beat, dirty := x.dirty || data.isSome } d.dir }
  match data with
  | some b => storeClean (entryKey die e off) b s
  | none => s

/-- A store waits for its page's fill; a read has its data from the page's home. -/
def lateStore (die g : Nat) (data : Option Bytes) (s : State) : State :=
  match data with
  | some b => s.setDie die { s.die die with late := (s.die die).late ++ [(g, b)] }
  | none => s

/-- A miss under 32 free reply tags (R118, R137, R178): a fill into a free or evicted entry, or, with every page pinned, an access
served without allocation. -/
def cacheMiss (die g : Nat) (data : Option Bytes) (tags : List Nat) (s : State) : State :=
  let page := g / 65536
  let s := s.count Obj.sbCacheMisses 1
  match freeEntry (s.die die) cacheEntries 0 with
  | some e => lateStore die g data (startFill die e page tags s)
  | none =>
    match cacheVictim (s.die die) with
    | some (e, _) => lateStore die g data (startFill die e page tags (evictEntry die e s))
    | none =>
      let s := s.count Obj.sbFillBypass 1
      match data with
      | some b => sendWrite (b.length + 1) (dieSite die) (stackSite (pageStack page)) (homeOffset g) b none none s
      | none => s

/-- A die's Soundboard serves: the die is up and the stack is not in retention or fault (R119, R124). -/
def sbServes (s : State) (die : Nat) : Bool := dieUp s die && ((s.die die).sb == 0 || (s.die die).sb == 2)

/-- A dynamic access of bytes inside one page of the pool by its owner die (R118, R180): a hit, an access that joins the page's fill,
or a miss. A page that no die owns is taken by the die that first accesses it. A read of a failed stack ends with path-lost
(R186); a miss waits while fewer than 32 reply tags are free (R137), and its store is kept. -/
def cacheAccess (die g : Nat) (data : Option Bytes) (s : State) : State :=
  let page := g / 65536
  let mine := match tfind page s.dram.owner with
    | some o => o == die
    | none => true
  if !mine || poolPages ≤ page || !sbServes s die then s
  else
    let s := { s with dram := { s.dram with owner := tset page die s.dram.owner } }
    match cacheFind (s.die die) page with
    | some (e, x) => if x.valid then cacheHit die e x (g % 65536) data s else lateStore die g data s
    | none =>
      let tags := freeTags s (dieSite die)
      if stackFailed s (pageStack page) then pathLost none s
      else if tags.length < 32 then lateStore die g data s
      else cacheMiss die g data tags s

/-- Fills start for the stores that waited for reply tags (R137). -/
def startWaiting (die : Nat) (s : State) : State :=
  (((s.die die).late.map (fun (w : Nat × Bytes) => w.1 / 65536)).eraseDups).foldl (fun s page =>
    let tags := freeTags s (dieSite die)
    if (cacheFind (s.die die) page).isSome ∨ tags.length < 32 then s
    else
      let s := cacheMiss die (65536 * page) none tags s
      if (cacheFind (s.die die) page).isSome then s
      else
        -- every page is pinned: the stores go home without allocation
        let mine := (s.die die).late.filter (fun (w : Nat × Bytes) => w.1 / 65536 == page)
        let s := s.setDie die { s.die die with late := (s.die die).late.filter (fun (w : Nat × Bytes) => w.1 / 65536 != page) }
        mine.foldl (fun s (w : Nat × Bytes) =>
          sendWrite (w.2.length + 1) (dieSite die) (stackSite (pageStack page)) (homeOffset w.1) w.2 none none s) s) s

/-- CACHE_ACCESS: a dynamic read or write of a DRAM home address of the pool at a die; one that crosses a page is two accesses
(R118, R180). -/
def execCacheAccess (die : DieId) (home : Nat) (store : Option Bytes) (len : Nat) (s : State) : Out :=
  let n := min (match store with
    | some b => b.length
    | none => len) 65536
  if n = 0 ∨ 65536 * poolPages < home + n then .next s
  else
    let n1 := min n (65536 - home % 65536)
    let s := cacheAccess die home (store.map (fun b => b.take n1)) s
    .next (if n1 < n then cacheAccess die (home + n1) (store.map (fun b => (b.drop n1).take (n - n1))) s else s)

/-- PAGE_FILL_DONE: every read of the fill has landed; the page is usable, stores that waited are applied, and fills that waited for
its reply tags start (R118, R137, R178). -/
def execPageFillDone (die : DieId) (page : Nat) (s : State) : Out :=
  let d := s.die die
  match d.fills.find? (fun (f : Nat × Nat) => f.1 == page), cacheFind d page with
  | some (_, 0), some (e, x) =>
    let mine := d.late.filter (fun (w : Nat × Bytes) => w.1 / 65536 == page)
    let s := s.setDie die { d with
      fills := d.fills.filter (fun (f : Nat × Nat) => f.1 != page)
      late := d.late.filter (fun (w : Nat × Bytes) => w.1 / 65536 != page)
      dir := tset e { x with valid := true, dirty := !mine.isEmpty, age := s.beat } d.dir }
    let s := mine.foldl (fun s (w : Nat × Bytes) => storeClean (entryKey die e (w.1 % 65536)) w.2 s) s
    .next (startWaiting die (s.count Obj.dramFills 1))
  | _, _ => .next s

/-- KV_OWNER_MOVE: the old owner flushes and invalidates the page before its new owner takes it (R118). A page under fill, or with
stores that wait for one, does not move, and a page of the firmware area has no owner (R180). -/
def execKvOwnerMove (page : Nat) (dst : DieId) (s : State) : Out :=
  let own (s : State) : State := { s with dram := { s.dram with owner := tset page dst.val s.dram.owner } }
  if poolPages ≤ page then .next s
  else
  match tfind page s.dram.owner with
  | none => .next (own s)
  | some old =>
    if (s.die old).fills.any (fun (f : Nat × Nat) => f.1 == page) ∨ (s.die old).late.any (fun (w : Nat × Bytes) => w.1 / 65536 == page)
    then .next s
    else
      match cacheFind (s.die old) page with
      | some (e, _) => .next (own (evictEntry old e s))
      | none => .next (own s)

/-! Die resets (R119, R268, R348). -/

/-- A window not yet launched is given up, and its item waits again. -/
def cancelWindow (w : Win) (s : State) : State :=
  let s := { s with wins := s.wins.filter (fun x => x.id != w.id) }
  modItem w.item (fun it => { it with status := 0, taken := none }) s

/-- Every window that takes part on a die ends: an open one with SHUTDOWN (R76), one not yet launched is given up. -/
def endDieWindows (die : Nat) (s : State) : State :=
  (s.wins.filter (fun w => (bitList 64 w.parts.toNat).any (fun n => coreDie n == die))).foldl (fun s w =>
    if w.phase = 2 then endWindow w.id exitSHUTDOWN s else cancelWindow w s) s

/-- A core's sends not yet accepted end with path-lost; its writes already under way complete (R119 step 1). -/
def stopCore (n : Nat) (s : State) : State :=
  let s := (s.core n).sends.foldl (fun s ch => (List.range ch.left).foldl (fun s _ => pathLost (some (n, ch.id)) s) s) s
  commitAll n s

/-- A Whippet stops: its routine's item waits again, and its check-value unit has its reset values (R348). -/
def stopWhip (w : Nat) (s : State) : State :=
  let x := s.whip w
  let s := if x.state = 1 then
      let s := modItem x.item (fun it => if it.status = 1 then { it with status := 0, taken := none } else it) s
      { s with whips := s.whips.map (fun (p : Nat × Whip) =>
        if p.2.state = 1 ∧ p.2.item = x.item then (p.1, { p.2 with state := 0 }) else p) }
    else s
  (s.setWhip w { s.whip w with state := 0, katRepeat := false }).setCvu w {}

/-- A test running on the die is queued again (R357). -/
def stopTests (die : Nat) (s : State) : State :=
  let on (q : KatReq) : Bool := if q.unit < 64 then coreDie q.unit == die else whipDie (q.unit - 64) == die
  let back := s.kat.running.filter on
  let s := { s with kat := { s.kat with
    queue := back ++ s.kat.queue, running := s.kat.running.filter (fun q => !on q)
    core := s.kat.core.filter (fun n => coreDie n != die) } }
  (List.range 4).foldl (fun s j =>
    let n := 4 * die + j
    let c := s.core n
    if c.state = 3 then s.setCore n { c with state := 0, katRepeat := false } else s) s

/-- Open windows that send from site `src` to site `dst`. -/
def sendsTo (s : State) (src dst : Nat) : List Win :=
  s.wins.filter (fun w => w.phase == 2 && w.kernels.any (fun k =>
    dieSite (coreDie (kernelCore k)) == src && k.sends.any (fun e => fieldAt e 0 5 == dst)))

/-- A write, partial, flag or arrival that a die does not take ends with path-lost, and its sender is told (R76, R119): a STATUS 0x01
goes back with the work item of each open window that sends from there to here, or to a rim die with the number of its access.
Unit 1 marks the field as one of these, unit 0 as a tag (DESIGN CHOICE, log entry 91). -/
def lostBack (site src : Nat) (s : State) : State :=
  let items := if 25 ≤ src then (s.rmem.ops.filter (fun x => !x.read && rimSite x.rim == src && x.site == site)).map (·.n)
    else (sendsTo s src site).map (·.item)
  items.foldl (fun s n => sendFrame opSTATUS site src 63 0 1 (leBytes 1 0x01 ++ leBytes 4 n) none none s) (pathLost none s)

/-- An inbound write leaves the port's queue: its credit is freed (R133); the sum of a window holds none. -/
def freeIn (w : InWrite) (s : State) : State := if w.string < 1126 then freeCredit w.string w.buf s else s

/-- Inbound writes and late stores not yet accepted are discarded, and their senders receive path-lost (R119 step 1). -/
def dropInbound (die : Nat) (s : State) : State :=
  let d := s.die die
  let s := s.setDie die { d with inq := [], late := [] }
  let s := d.inq.foldl (fun s w => lostBack (dieSite die) w.src (freeIn w s)) s
  let s := d.late.foldl (fun s _ => pathLost none s) s
  settleFlags die (fun _ => false) (fun _ => true) s

/-- The die or a layer of its Soundboard is at throttle: the stack's dynamic grants are limited (R332, R337). -/
def sbHot (s : State) (die : Nat) : Bool :=
  s.therm.dies.any (fun (p : Nat × ThermDie) => p.1 / 16 == dieSite die && p.1 % 16 != 0 && decide (2 ≤ p.2.level))

/-- What a compute die gives up when it is reset or shut down (R119, R121, R332): its windows, sends, inbound writes, routines and
tests, reads outstanding, merges, and the counts of its arbiters. Its Soundboard goes into retention. -/
def dieStops (die : Nat) (s : State) : State :=
  let s := dropInbound die (endDieWindows die s)
  let s := (List.range 4).foldl (fun s j => stopCore (4 * die + j) s) s
  let s := (List.range 16).foldl (fun s j => stopWhip (16 * die + j) s) s
  let s := stopTests die s
  let s := [2 * die, 2 * die + 1].foldl (fun s a => s.setArb a { s.arb a with wait := [], rr := 0 }) s
  let d := s.die die
  let s := { s with tags := s.tags.filter (fun t => t.site != dieSite die) }
  let s := s.setDie die { d with
    sb := 1, fills := [], merges := []
    dir := d.dir.filter (fun (e : Nat × CacheEnt) => e.2.valid) }
  s.count Obj.sbRetentionEntries 1

/-- DIE_RESET: a functional reset of a compute die (R119). -/
def execDieReset (die : DieId) (s : State) : Out :=
  if !dieUp s die then .next s
  else
    let s := dieStops die s
    .next (s.setDie die { s.die die with reset := some s.beat })

/-- Cores that a crossing's failure isolates (R268): crossings 8n to 8n + 7 are those of region C_n, 32 to 63 those of S and
M (log entry 17). -/
def crossingCores (die i : Nat) : List Nat :=
  if i < 32 then [4 * die + i / 8] else (List.range 4).map (fun j => 4 * die + j)

/-- Outcome of a crossing's attempts (R268), each the difference in taps of its two measurements and the residual in ps: 255
for no tap with the margin. The result (0 pass, 1 passed on retry, 2 failed), disagreements, residual. -/
def crossingResult : Nat → List (Nat × Int) → Nat × Nat × Int
  | _, [] => (2, 0, 0)
  | k, (d, r) :: rest =>
    if d = 255 then (2, 0, r)
    else if d ≤ 1 then ((if k = 0 then 0 else 1), 0, r)
    else if 2 ≤ k then (2, 1, r)
    else
      let (o, n, x) := crossingResult (k + 1) rest
      (o, n + 1, x)

/-- Calibrate one crossing: disagreements are logged with 0x1801 and counted, the result kept. -/
def calibrateOne (die : Nat) (x : Nat × List (Nat × Int)) (s : State) : State :=
  let (o, n, r) := crossingResult 0 x.2
  let s := (List.range n).foldl (fun s _ => countLog Obj.xingCalRetries 0 0x1801 (dieSite die) x.1 [] s) s
  s.setDie die { s.die die with xing := tset x.1 (o, r) (s.die die).xing }

/-- Calibrate the crossings of a die; false where one failed. Cores of a failed region are isolated (R22, R268). -/
def calibrateDie (die : Nat) (xing : List (Nat × List (Nat × Int))) (s : State) : State × Bool :=
  let xs := xing.filter (fun (x : Nat × List (Nat × Int)) => x.1 < 64)
  let s := xs.foldl (fun s x => calibrateOne die x s) s
  let bad := xs.filter (fun x => (crossingResult 0 x.2).1 == 2)
  let cores := (bad.flatMap (fun x => crossingCores die x.1)).eraseDups
  (cores.foldl (fun s n => isolate n s) s, bad.isEmpty)

/-- DIE_RESET_END: the crossings are calibrated and the Soundboard leaves retention (R119 step 4, R268). A die whose rails
are off stays in retention; one whose Soundboard lost its contents waits for its partitions (R333). -/
def execDieResetEnd (die : DieId) (xing : List (Nat × List (Nat × Int))) (s : State) : Out :=
  if (s.die die).reset.isNone ∨ (s.die die).off then .next s
  else
    let s := (calibrateDie die xing s).1
    .next (s.setDie die { s.die die with reset := none, sb := if sbHot s die then 2 else 0 })

end Sys2Proof.Machine
end

