-- ==== Sys2Proof/Machine/Link.lean ====
section
/-! DEFINITION. The Zither's links (R125 to R149): frame times, sequence, credits and retry, training, lane maps, margin
tests, the degrade ladder, tile resets and the broadcast buses. What an accepted frame does is in Deliver.lean. -/

namespace Sys2Proof.Machine

/-! Fault injection patterns (R221, R363). -/

/-- Decide unit `unit` of an injector, with counter words (unit, id, purpose): faulted, word 2 of the call, and the injector
after the unit. -/
def injectUnit (x : Inject) (id purpose : Nat) : Bool × Nat × Inject :=
  let w (i : Nat) : Nat := philox x.seed.toNat 0 x.unit id purpose 0 i
  let random : Bool := w 1 * 2 ^ 32 + w 0 < 2 ^ (64 - x.rate)
  let y := { x with unit := x.unit + 1 }
  if x.pattern = 1 then (x.unit % 2 ^ x.rate == 2 ^ x.rate - 1, w 2, y)
  else if x.pattern = 2 then
    let left := max (if random then x.burst - 1 else 0) (x.left - 1)
    (random || 0 < x.left, w 2, { y with left })
  else (random, w 2, y)

/-! Strings by state (R144). -/

/-- The string carries frames in both directions of its protocol: in service or in training, and no bus. -/
def stringLive (s : State) (n : Nat) : Bool := !isBus n && ((s.str n).state ≤ 2 || (s.str n).state == 6)

/-- A credit hold suspends loss of lock, the ack timer and the retrain count of a string and its reverse (R162). -/
def suspended (s : State) (n : Nat) : Bool := (s.str n).held || (s.str (reverseString n)).held

/-- Lines of a string that are usable. -/
def usableLines (t : Str) : List Nat := (List.range 17).filter (fun l => (tget {} l t.lanes).usable)

/-- State and width of U usable lines (R144). -/
def stateOf (u : Nat) : Nat := if u = 17 then 0 else if u = 16 then 1 else if 13 ≤ u then 2 else 3
def widthOf (u : Nat) : Nat := if 16 ≤ u then 16 else if 13 ≤ u then 12 else 0

/-- Lane map of a fresh string: usable lines in ascending order, then the spare (R142 step 5). -/
def freshMap (lines : List Nat) : List Nat :=
  let w := widthOf lines.length
  (List.range 16).map (fun j => if j < w then lines.getD j 0x1F else 0x1F) ++ [if w = 0 then 0x1F else lines.getD w 0x1F]

/-- Give empty lanes lines from a pool, in order. -/
def fillLanes : List Nat → List Nat → List Nat × List Nat
  | [], pool => ([], pool)
  | l :: r, pool =>
    if l = 0x1F then
      match pool with
      | p :: q => let x := fillLanes r q; (p :: x.1, x.2)
      | [] => let x := fillLanes r []; (0x1F :: x.1, x.2)
    else let x := fillLanes r pool; (l :: x.1, x.2)

/-- Lane map after a change of the usable lines: lanes stay on their lines, lanes without a line take the spare, then the
lowest free line, and a line left over is the spare (R127, R142, R144). -/
def remap (cur lines : List Nat) : List Nat :=
  let w := widthOf lines.length
  let kept := ((List.range w).map (fun j => let l := cur.getD j 0x1F; if lines.contains l then l else 0x1F))
  let spare := cur.getD 16 0x1F
  let free := lines.filter (fun l => !kept.contains l)
  let pool := if free.contains spare then spare :: free.filter (· != spare) else free
  let (lanes, rest) := fillLanes kept pool
  lanes ++ List.replicate (16 - w) 0x1F ++ [if w = 0 then 0x1F else rest.headD 0x1F]

/-- A line carries a logical lane. -/
def inService (t : Str) (line : Nat) : Bool := (t.map.take 16).contains line

/-! Entering a state. -/

/-- A control frame waits at a string's transmitter. -/
def pushCtrl (n : Nat) (payload : Bytes) (s : State) : State :=
  let t := s.str n
  s.setStr n { t with ctrlq := t.ctrlq ++ [fitBytes 64 payload] }

/-- Every string of a site, point to point (R147). -/
def siteStrings (site : Nat) : List Nat :=
  (List.range 29).flatMap (fun o => if o = site then [] else pairStrings site o ++ pairStrings o site)

/-- Every string to a stack is DOWN (R186). -/
def stackCutOff (s : State) (k : Nat) : Bool :=
  (List.range 29).all (fun o => o == stackSite k || (pairStrings o (stackSite k)).all (fun n => (s.str n).state == 5))

/-- The read under a tag ends without its data (R137, R145, R147), with a status of R130. -/
def readEnds (site tag status : Nat) (s : State) : State :=
  match s.tags.find? (fun t => t.site == site && t.tag == tag) with
  | none => s
  | some t =>
    readFails t.purpose t.arg status { s with tags := s.tags.filter (fun x => !(x.site == site && x.tag == tag)) }

/-- The tag whose next data land at a byte address of a site (R137). -/
def landingTag (s : State) (site addr : Nat) : Option ReadTag := s.tags.find? (fun t => t.site == site && t.landing == addr)

/-- A frame ends with path-lost (R145, R147): its send channel is released, or the read it belongs to ends. -/
def frameLost (f : TxFrame) (s : State) : State :=
  let h := f.hdr
  let s := pathLost f.chan s
  if hOp h = opREADREQ then readEnds (hSrc h) (leAt f.payload 7 1) 1 s
  else if hOp h = opREADDATA then
    match landingTag s (hDest h) (64 * hUnit h + hOffset h) with
    | some t => readEnds t.site t.tag 1 s
    | none => s
  else if hOp h = opSTATUS ∧ hUnit h ≠ 1 then readEnds (hDest h) (leAt f.payload 1 4) 1 s
  else s

/-- Frames a string still has to deliver, oldest first: those its receiver has not accepted, then those not yet sent. -/
def undelivered (t : Str) : List TxFrame :=
  let kept := (t.unacked.filter (fun x => (x.1 - t.rxSeq).toNat < 128)).map (·.2)
  let rec ins (f : TxFrame) : List TxFrame → List TxFrame
    | [] => [f]
    | g :: r => if f.n < g.n then f :: g :: r else g :: ins f r
  kept ++ ([0, 1, 2, 3].flatMap (fun c => tget [] c t.txq)).foldl (fun l f => ins f l) []

/-- A string's transmitter is emptied. -/
def clearTx (n : Nat) (s : State) : State :=
  let t := s.str n
  s.setStr n { t with unacked := [], resend := [], swap := [], txq := [], timeouts := 0 }

/-- Frames of a string that went OUT are replayed over the relay, before any newer frame (R145). -/
def replayOver (n : Nat) (s : State) : State :=
  let kept := (s.str n).unacked.map (fun x => x.2.n)
  let fs := undelivered (s.str n)
  let (src, dst) := stringEnds n
  let acked := (s.str n).unacked.filter (fun x => 128 ≤ (x.1 - (s.str n).rxSeq).toNat)
  let s := clearTx n s
  let s := acked.foldl (fun s x => match x.2.chan with
    | some (c, id) => chanFrameDone c id s
    | none => s) s
  fs.foldl (fun s f =>
    if hRelay f.hdr then frameLost f s
    else
      match relaySite s src dst with
      | none => frameLost f s
      | some r => enqueueFrame (primaryString src r)
          { f with hdr := BitVec.ofNat 96 (f.hdr.toNat ||| 2 ^ 48), replay := kept.contains f.n } s) s

/-- A string enters a state (R144): traced; entering OUT, FROZEN or DOWN ends the open windows that use it (R146); OUT replays
over the relay, and DOWN ends its transfers with path-lost, which may fail a stack (R147, R186). -/
def enterString (n new : Nat) (s : State) : State :=
  let t := s.str n
  if t.state = new then s
  else
    let using_ := if new = 3 ∨ new = 4 ∨ new = 5 then s.wins.filter (fun w => w.phase = 2 && windowOver s w [n]) else []
    let s := s.setStr n { t with state := new, frozenAt := if new = 4 then some s.beat else none
                                 resetAt := if new = 4 ∨ new = 6 then t.resetAt else none
                                 checked := if new = 3 ∨ new = 5 then s.beat else t.checked }
    let s := traceMake (stringEnds n).1 n 0x05 (leBytes 2 n ++ leBytes 1 t.state ++ leBytes 1 new) s
    let s := using_.foldl (fun s w => endWindow w.id exitPATHLOST s) s
    if new = 3 then replayOver n s
    else if new = 5 then
      let s := countLog Obj.stringsDownEvents 2 0 (stringEnds n).1 n [] s
      let fs := undelivered (s.str n)
      let s := fs.foldl (fun s f => frameLost f s) (clearTx n s)
      match siteStack (stringEnds n).2 with
      | some k => if stackCutOff s k then stackFails k s else s
      | none => s
    else s

/-- The rings of a string are to pass a fret check anew: locked ones are verified, parked and failed ones sweep from code 0
(R142, R154, R156). -/
def recheckRings (t : Str) : Str :=
  { t with pegs := t.pegs.map (fun (q : Nat × Peg) =>
    (q.1, if q.2.state = 3 then { q.2 with state := 2, beyond := 0 }
      else if 4 ≤ q.2.state then { q.2 with state := 1, cold := true, steps := 0 } else q.2)) }

/-- A string retrains: counted, FROZEN until its lane check is over (R143). -/
def retrain (n : Nat) (s : State) : State :=
  let s := s.setStr n (recheckRings (s.str n))
  enterString n 4 (countLog Obj.retrains 0 0 (stringEnds n).1 n [] s)

/-- A string begins to train, with a fresh map of its usable lines (R132, R142). -/
def startTraining (n : Nat) (s : State) : State :=
  let t := s.str n
  let s := enterString n 6 (s.setStr n { t with map := freshMap (usableLines t), newMap := none, waiting := t.state == 3 })
  [n, reverseString n].foldl (fun s m =>
    s.setStr m { s.str m with offerGot := false, acceptSent := false, acceptGot := false }) s

/-- After a lane check: enough lines train, fewer leave the string OUT (R143, R144). -/
def afterLaneCheck (n : Nat) (s : State) : State :=
  if 13 ≤ (usableLines (s.str n)).length then startTraining n s else enterString n 3 s

/-! Lane maps (R127, R157). -/

/-- Announce a lane map from one end: it takes effect 64 frame times after the announcement has been sent, in which its frame count
is filled in (R127). A bus, which carries no control frame, takes it at once (DESIGN CHOICE, log entry 98). -/
def announceMap (n : Nat) (map : List Nat) (atReceiver : Bool) (s : State) : State :=
  let t := s.str n
  if isBus n then s.setStr n { t with map }
  else
    let at_ := (t.count.toNat + 64) % 65536
    let s := s.setStr n { t with newMap := some (at_, map), announced := false }
    pushCtrl (if atReceiver then reverseString n else n)
      ([0x03, 0] ++ leBytes 2 at_ ++ map.map (fun l => BitVec.ofNat 8 l)) s

/-- An announcement goes out on string n: the frame count of its map, which belongs to that string or to its reverse, is settled
(R127). -/
def sendMap (n : Nat) (p : Bytes) (s : State) : Bytes × State :=
  let map := (List.range 17).map (fun j => leAt p (4 + j) 1)
  let fits (k : Nat) : Bool := (s.str k).newMap.any (fun x => x.2 == map) && !(s.str k).announced
  match [n, reverseString n].find? fits with
  | none => (p, s)
  | some k =>
    let at_ := ((s.str k).count.toNat + 64) % 65536
    (lset 3 (BitVec.ofNat 8 (at_ / 256)) (lset 2 (BitVec.ofNat 8 at_) p), s.setStr k { s.str k with newMap := some (at_, map), announced := true })

/-- The map in force or announced. -/
def mapAhead (t : Str) : List Nat := match t.newMap with
  | some (_, m) => m
  | none => t.map

/-- State of a string in service after a change of its usable lines (R144). -/
def settleString (n : Nat) (s : State) : State :=
  if (s.str n).state ≤ 2 then enterString n (stateOf (usableLines (s.str n)).length) s else s

/-- A line leaves use: its lane moves to the spare, or the string to REDUCED or OUT (R142, R144, R157). -/
def dropLine (n line : Nat) (atReceiver : Bool) (s : State) : State :=
  let t := s.str n
  let ahead := mapAhead t
  let j := (indexIn line ahead).filter (· < 16)
  let lane := tget {} line t.lanes
  let t := { t with lanes := tset line { lane with usable := false, lane := j } t.lanes, turn := none, rotate := none }
  let s := s.setStr n t
  if !lane.usable then s
  else
    let s := if j.isSome then s.count Obj.laneMapouts 1 else s
    let s := if t.state ≤ 2 ∨ isBus n then announceMap n (remap ahead (usableLines t)) atReceiver s else s
    settleString n s

/-- A line returns: the lane that a peg alarm moved away goes back to it, and the line that served is the spare again
(R157 step 5); otherwise it fills a gap or becomes the spare. -/
def returnLine (n line : Nat) (atReceiver : Bool) (s : State) : State :=
  let t := s.str n
  let ahead := mapAhead t
  let lane := tget {} line t.lanes
  let t := { t with lanes := tset line { lane with usable := true, lane := none } t.lanes }
  let s := s.setStr n t
  if lane.usable ∨ (2 < t.state ∧ !isBus n) then s
  else
    let map := match lane.lane with
      | some j =>
        if (usableLines t).length = 17 ∧ ahead.getD j 0x1F ≠ 0x1F then lset 16 (ahead.getD j 0x1F) (lset j line ahead)
        else remap ahead (usableLines t)
      | none => remap ahead (usableLines t)
    settleString n (announceMap n map atReceiver s)

def pegKey (line ring : Nat) : Nat := 8 * line + ring
def Str.peg (t : Str) (line ring : Nat) : Peg := tget {} (pegKey line ring) t.pegs
def setPeg (n line ring : Nat) (p : Peg) (s : State) : State :=
  s.setStr n { s.str n with pegs := tset (pegKey line ring) p (s.str n).pegs }

/-- A peg alarm (R155, R157): counted and logged; the ring's lane moves to the spare, and the loop re-acquires. During a credit hold it is left to the fret checks of the handover (R171). -/
def pegAlarm (n line ring : Nat) (s : State) : State :=
  if (s.str n).held then s
  else
    let s := countLog Obj.pegAlarms 1 0 (if ring = 0 then (stringEnds n).1 else (stringEnds n).2) n
      (leBytes 1 line ++ leBytes 1 ring) s
    let p := (s.str n).peg line ring
    let s := setPeg n line ring { p with state := 1, beyond := 0, steps := 0 } s
    dropLine n line (ring != 0) s

/-! Sending (R133 to R135). -/

/-- Window from its cut-off on that has a slot of a string reserved (R60, R134). -/
def stringOwner (s : State) (n slot : Nat) : Option Nat :=
  (s.wins.find? (fun w => 1 ≤ w.phase && w.reserve.any (fun e =>
    fieldAt e 0 8 = 0 && (carrying s (fieldAt e 8 16)).contains n && (fieldAt e 24 16).testBit slot))).map (·.id)

/-- Frames queued or unacknowledged at a transmitter. -/
def allQueued (t : Str) : List TxFrame := [0, 1, 2, 3].flatMap (fun c => tget [] c t.txq)

/-- A FLAG goes after its source's earlier writes and partials to the same site (R70); on the second leg of a relay a FLAG
or BARRIER goes once the destination has accepted every earlier frame from the same source, and replayed frames go in their order
before any newer one (R145). -/
def inOrder (n : Nat) (t : Str) (f : TxFrame) : Bool :=
  let before (g : TxFrame) : Bool := g.n < f.n && hSrc g.hdr == hSrc f.hdr && hDest g.hdr == hDest f.hdr
  let op := hOp f.hdr
  if (allQueued t).any (fun g => g.replay && before g) then false
  else if op ≠ opFLAG ∧ op ≠ opBARRIER then true
  else if hRelay f.hdr && (stringEnds n).1 != hSrc f.hdr then !((allQueued t ++ t.unacked.map (·.2)).any before)
  else op == opBARRIER || !((tget [] 1 t.txq ++ tget [] 2 t.txq).any before)

/-- A frame may use the slot under way: a reserved slot carries only its window's frames, and a frame with a slot mask waits for a
slot of it (R60, R71). -/
def slotAllows (owner : Option Nat) (slot : Nat) (f : TxFrame) : Bool :=
  (owner.isNone || f.win == owner) && (match f.slots with
    | some m => m.toNat.testBit slot
    | none => true)

/-- Its receive buffer has a credit (R133). -/
def hasCredit (n : Nat) (t : Str) (f : TxFrame) : Bool :=
  let b := rxBuffer n f.hdr
  tget 0 b t.spent < tget 0 b t.granted

/-- Source queue of a frame (R134). -/
def sourceOf (f : TxFrame) : Nat := 128 * hSrc f.hdr + (match f.chan with
  | some (c, _) => c + 1
  | none => 0)

/-- Heads of the source queues of a class, in order of arrival. -/
def queueHeads : List TxFrame → List Nat → List TxFrame
  | [], _ => []
  | f :: r, seen => if seen.contains (sourceOf f) then queueHeads r seen else f :: queueHeads r (sourceOf f :: seen)

/-- The frame a class would send: among the heads that may go, the first source after the one served last, round-robin. -/
def classPick (n : Nat) (t : Str) (owner : Option Nat) (slot c : Nat) : Option TxFrame :=
  let ok := (queueHeads (tget [] c t.txq) []).filter (fun f => slotAllows owner slot f && hasCredit n t f && inOrder n t f)
  let last := tget 0 c t.lastSrc
  let key (f : TxFrame) : Nat := (sourceOf f + 4096 - (last + 1) % 4096) % 4096
  ok.foldl (fun (o : Option TxFrame) f =>
    match o with
    | none => some f
    | some g => if key f < key g then some f else some g) none

/-- The class that sends: one passed over 16 times while ready, else the highest ranked (R134). -/
def classTurn (t : Str) (ready : List Nat) : Option Nat :=
  let forced := ready.filter (fun c => 16 ≤ tget 0 c t.passed)
  let l := if forced.isEmpty then ready else forced
  if l.isEmpty then none else some (l.foldl max 0)

/-- The counter a header reports: cr_class and cr_count of the buffer that changed longest ago (R133). -/
def creditField (r : Str) (b : Nat) : Nat × Nat :=
  let v := tget 0 b r.freed
  if 16 ≤ b then (2, b % 4 + 4 * (v % 64)) else (b, v % 256)

/-- Put a frame on the string's wire: link fields filled in, one credit counter reported (R129, R133, R135). -/
def putFrame (n : Nat) (h : BitVec 96) (seq : Nat) (payload : Bytes) (s : State) : State :=
  let m := reverseString n
  let r := s.str m
  let pick := r.unreported.find? (fun b => b < 32)
  let (cls, cnt) := creditField r (pick.getD 0)
  let s := match pick with
    | some b => s.setStr m { r with unreported := r.unreported.filter (· != b) }
    | none => s
  emitFrame n (mkFrame (withLink h n seq r.rxAck.toNat cls cnt) payload) s

/-- An IDLE frame. -/
def putIdle (n : Nat) (s : State) : State := putFrame n (mkHdr opIDLE (stringEnds n).2 (stringEnds n).1 0 0 0 false) 0 [] s

/-- A CTRL frame. -/
def putCtrl (n : Nat) (payload : Bytes) (s : State) : State :=
  putFrame n (mkHdr opCTRL (stringEnds n).2 (stringEnds n).1 0 0 0 false) 0 payload s

/-- Receive buffers (R133). -/
def bufferFrames (b : Nat) : Nat := if b = 0 then 16 else if b = 1 ∨ b = 3 then 128 else if b < 32 then 32 else 4

/-- Partials of string n that still stand in one of its receive buffers. -/
def standing (s : State) (n : Nat) (b : Nat) : Nat :=
  match siteDie (stringEnds n).2 with
  | none => 0
  | some d => (((s.die d).chunks.flatMap (·.wait)).filter (fun w =>
      w.2.2.1 == n && ((w.2.1 == 2 && b == 16 + w.1 % 4) || (w.2.1 == 0 && b == 32 + w.1)))).length

/-- Credits that the receiving end of string n advertises for a buffer: the frames it has free. A sub-buffer count holds for
each sub-buffer of its kind, so the least is taken. -/
def advertised (s : State) (n b : Nat) : Nat :=
  if b = 16 then (List.range 4).foldl (fun m k => min m (32 - standing s n (16 + k))) 32
  else if b = 32 then (List.range 64).foldl (fun m k => min m (4 - standing s n (32 + k))) 4
  else bufferFrames b

/-- A TRAIN_OFFER or TRAIN_ACCEPT payload of the end that transmits string n: credits of the buffers at its receiver (R132). -/
def trainPayload (s : State) (kind n : Nat) : Bytes :=
  let m := reverseString n
  leBytes 1 kind ++ leBytes 1 1 ++ leBytes 2 n ++ leBytes 1 (stringEnds n).1 ++ leBytes 2 (advertised s m 0)
    ++ leBytes 2 (advertised s m 1) ++ leBytes 1 (advertised s m 16) ++ leBytes 2 (advertised s m 3) ++ leBytes 1 (advertised s m 32)

/-- The pair of a string and its reverse is in link training. -/
def pairTraining (s : State) (n : Nat) : Bool := (s.str n).state == 6 || (s.str (reverseString n)).state == 6

/-- RELAY_CREDITS of the receiver of string m (R132, R133). -/
def relayPayload (r : Str) : Bytes :=
  leBytes 1 0x04 ++ leBytes 48 ((List.range 64).foldl (fun x c => x + (tget 0 (32 + c) r.freed % 64) * 2 ^ (6 * c)) 0)

/-- Take the RELAY_CREDITS that is due on string n for the receiver of its reverse (R133). -/
def takeRelay (n : Nat) (s : State) : Option (Bytes × State) :=
  let m := reverseString n
  let r := s.str m
  if r.unreported.any (fun b => 32 ≤ b) then
    some (relayPayload r, s.setStr m { r with unreported := r.unreported.filter (fun b => b < 32), relayBeat := s.beat })
  else none

/-- Relay counters have changed and 100 ns are about to pass since the last RELAY_CREDITS: it goes before new frames (R133). -/
def relayDue (n : Nat) (s : State) : Bool :=
  let r := s.str (reverseString n)
  r.unreported.any (fun b => 32 ≤ b) && decide (r.relayBeat + 99 ≤ s.beat)

/-- The control frame that is due, if one is (R132, R133), and the state once it is taken. -/
def takeCtrl (n : Nat) (s : State) : Option (Bytes × State) :=
  let t := s.str n
  if pairTraining s n ∧ !t.offerGot then some (trainPayload s 0x01 n, s)
  else if pairTraining s n ∧ !t.acceptSent then some (trainPayload s 0x02 n, s.setStr n { t with acceptSent := true })
  else if t.echoDue ∧ t.state ≤ 2 then
    some (leBytes 1 0x05 ++ leBytes 8 s.beat, s.setStr n { t with echoDue := false, echo := some s.beat, echoBack := false })
  else
    match t.ctrlq with
    | c :: q =>
      let s := s.setStr n { t with ctrlq := q }
      some (if leAt c 0 1 = 0x03 then sendMap n c s else (c, s))
    | [] => takeRelay n s

/-- CTRL if one is pending, else IDLE (R134 steps 4 and 5). -/
def ctrlOrIdle (n : Nat) (s : State) : State :=
  match takeCtrl n s with
  | some (c, s) => putCtrl n c s
  | none => putIdle n s

/-- A frame is resent (R135): counted, its timer started anew. -/
def resendFrame (n : Nat) (q : Byte) (f : TxFrame) (rest : List (Byte × TxFrame)) (s : State) : State :=
  let t := s.str n
  let s := s.setStr n { t with
    resend := rest, unacked := t.unacked.map (fun x => if x.1 = q then (q, { x.2 with sent := s.beat }) else x) }
  putFrame n f.hdr q.toNat f.payload (s.count Obj.framesReplayed 1)

/-- A new sequenced frame goes (R133, R135): it takes the next number, spends a credit and stays in the retry buffer; with a
go-back under way it is resent in its turn too, since its receiver will not accept it yet. Modes 1 and 3 of fault injection act here (R362): the wire carries IDLE in its place, or the frame goes one frame late. -/
def sendNew (n c : Nat) (f : TxFrame) (s : State) : State :=
  let t := s.str n
  let q := t.txSeq
  let f := { f with sent := s.beat }
  let b := rxBuffer n f.hdr
  let x := t.inject
  let unit := (x.mode == 1 || x.mode == 3) && x.classes.testBit c
  let (hit, _, y) := if unit && !(x.mode == 3 && x.half) then injectUnit x n 1 else (false, 0, x)
  let y := if unit && x.mode == 3 then { y with half := !x.half } else y
  let s := s.setStr n { t with
    txSeq := q + 1, unacked := t.unacked ++ [(q, f)], resend := if t.resend.isEmpty then [] else t.resend ++ [(q, f)], spent := tset b (tget 0 b t.spent + 1) t.spent
    txq := tset c ((tget [] c t.txq).filter (fun g => g.n != f.n)) t.txq, lastSrc := tset c (sourceOf f) t.lastSrc
    inject := y, swap := if hit && x.mode == 3 then [(q, f)] else t.swap }
  let s := if hit then s.count Obj.sfiEvents 1 else s
  if hit then putIdle n s else putFrame n f.hdr q.toNat f.payload s

/-- A trace record as the WRITE frame that carries it to the hub (R364). -/
def traceFrame (site n : Nat) (r : TraceRec) : TxFrame :=
  { hdr := mkHdr opWRITE hubSite site 47 0 (traceBase / 64) false, payload := fitBytes 64 (traceBytes r), n }

/-- An unreserved frame time that no other frame uses, on a site's primary string to the hub: the oldest of its trace records goes as
a WRITE frame (R364), control or IDLE where there is none or no credit. -/
def traceSlot (n : Nat) (free : Bool) (s : State) : State :=
  let e := stringEnds n
  if !free ∨ e.2 ≠ hubSite ∨ primaryString e.1 e.2 ≠ n ∨ (takeCtrl n s).isSome then ctrlOrIdle n s
  else
    let t := s.str n
    match traceTake e.1 s with
    | none => ctrlOrIdle n s
    | some (r, s') =>
      let f := traceFrame e.1 t.enq r
      if hasCredit n t f then sendNew n 1 f (s'.setStr n { t with enq := t.enq + 1 }) else ctrlOrIdle n s

/-- A new frame of a class goes, as R134 step 3 chooses it, or else what `idle` does. -/
def sendPick (n : Nat) (owner : Option Nat) (slot : Nat) (free : Bool) (idle : State → State) (s : State) : State :=
  let t := s.str n
  let ready := if free then [0, 1, 2, 3].filter (fun c => (classPick n t owner slot c).isSome) else []
  match classTurn t ready with
  | some c =>
    match classPick n t owner slot c with
    | some f =>
      let passed := ready.foldl (fun p k => tset k (if k = c then 0 else tget 0 k p + 1) p) t.passed
      sendNew n c f (s.setStr n { t with passed })
    | none => idle s
  | none => idle s

/-- The choice of R134 in one frame time of a string in service. A reserved slot carries a retransmission of its window's, a new
frame of it, or IDLE; another slot a retransmission, RELAY_CREDITS that are due (R133), a new frame, control or IDLE. A frame
that fault injection holds back goes one frame late (R362). -/
def sendChoice (n : Nat) (s : State) : State :=
  let t := s.str n
  let slot := t.count.toNat % 16
  let owner := stringOwner s n slot
  let free := !t.held && !t.stopped && t.unacked.length < 64
  match t.swap, t.resend with
  | (q, f) :: r, _ =>
    if t.inject.half then (if free then (match classPick n t owner slot 3, classPick n t owner slot 2,
        classPick n t owner slot 1, classPick n t owner slot 0 with
      | some g, _, _, _ => sendNew n 3 g s
      | none, some g, _, _ => sendNew n 2 g s
      | none, none, some g, _ => sendNew n 1 g s
      | none, none, none, some g => sendNew n 0 g s
      | none, none, none, none => ctrlOrIdle n s) else ctrlOrIdle n s)
    else putFrame n f.hdr q.toNat f.payload (s.setStr n { t with swap := r })
  | [], resend =>
    if owner.isSome then
      match if t.held then none else resend.find? (fun x => slotAllows owner slot x.2) with
      | some (q, f) => resendFrame n q f (if (resend.head?.map (·.1)) = some q then resend.drop 1 else resend) s
      | none => sendPick n owner slot free (putIdle n) s
    else
      match resend with
      | (q, f) :: r => if t.held then ctrlOrIdle n s else resendFrame n q f r s
      | [] =>
        match if relayDue n s then takeRelay n s else none with
        | some (c, s) => putCtrl n c s
        | none => sendPick n none slot free (traceSlot n free) s

/-- Mode 4 of fault injection: a unit is a 1 ms interval, and a faulted one raises a peg alarm on the drop ring of a lane in
service (R362). -/
def injectAlarms : Nat → Nat → State → State
  | 0, _, s => s
  | fuel + 1, n, s =>
    let x := (s.str n).inject
    if x.mode = 4 ∧ x.at_ + 1000000 * (x.unit + 1) ≤ s.beat then
      let (hit, w, y) := injectUnit x n 1
      let s := s.setStr n { s.str n with inject := y }
      let line := (s.str n).map.getD (w % 16) 0x1F
      injectAlarms fuel n (if hit && line ≤ 16 then pegAlarm n line 1 (s.count Obj.sfiEvents 1) else s)
    else s

/-- FRAME_TIME: one frame time of a transmitter (R128, R134). FROZEN, OUT and DOWN strings send nothing, a training one CTRL and
IDLE only (R144); a bus sends IDLE between its records (R141). -/
def execFrameTime (n : StringId) (s : State) : Out :=
  let o := (stringEnds n).1
  if isBus n then
    .next (if s.powered then emitFrame n (mkFrame (withLink (mkHdr opIDLE o o 0 0 0 false) n 0 0 0 0) []) s else s)
  else if !stringLive s n then .next s
  else
    let s := injectAlarms 64 n s
    let s := if (s.str n).state = 6 then ctrlOrIdle n s else sendChoice n s
    .next (s.setStr n { s.str n with count := (s.str n).count + 1 })

/-! Receiving: the checks of R129, acknowledgements and credits. -/

/-- The receiver's checks: CRC, link_tag, class and op, reserved fields (R129). -/
def frameOk (n : Nat) (f : Frame) : Bool :=
  f.crc.toNat == frameCrc f.hdr f.payload && hTag f.hdr == n % 16 && hOp f.hdr ≤ 0xA && hClass f.hdr == opClass (hOp f.hdr)
    && (hOp f.hdr != opRPART || hOffset f.hdr / 4 == 0)

/-- Invert one bit of a frame's 640 (R362 mode 2). -/
def flipBit (b : Nat) (f : Frame) : Frame :=
  if b < 96 then { f with hdr := f.hdr ^^^ BitVec.ofNat 96 (2 ^ b) }
  else if b < 608 then
    let i := (b - 96) / 8
    { f with payload := lset i ((fitBytes 64 f.payload).getD i 0 ^^^ BitVec.ofNat 8 (2 ^ (b % 8))) (fitBytes 64 f.payload) }
  else { f with crc := f.crc ^^^ BitVec.ofNat 32 (2 ^ (b - 608)) }

/-- Fault injection at a receiver (R362 mode 2): the frame as it is checked. -/
def injectRx (n : Nat) (f : Frame) (s : State) : Frame × State :=
  let x := (s.str n).inject
  if x.mode = 2 ∧ x.classes.testBit (hClass f.hdr) then
    let (hit, w, y) := injectUnit x n 1
    let s := s.setStr n { s.str n with inject := y }
    if hit then (flipBit (w % 640) f, s.count Obj.sfiEvents 1) else (f, s)
  else (f, s)

/-- An acknowledgement covers the frames of string n up to its number (R135, R139). -/
def ackTo (n : Nat) (a : Nat) (s : State) : State :=
  let t := s.str n
  match (List.range t.unacked.length).find? (fun i => ((t.unacked.map (fun x => x.1.toNat)).getD i 256) == a) with
  | none => s
  | some i =>
    let done := t.unacked.take (i + 1)
    let s := s.setStr n { t with
      unacked := t.unacked.drop (i + 1), timeouts := 0
      resend := t.resend.filter (fun x => !(done.any (fun d => d.1 == x.1)))
      swap := t.swap.filter (fun x => !(done.any (fun d => d.1 == x.1))) }
    done.foldl (fun s x => match x.2.chan with
      | some (c, id) => chanFrameDone c id s
      | none => s) s

/-- A cumulative credit counter of width 2ʷ for a buffer of string n has arrived (R133). -/
def creditTo (n b mod v : Nat) (s : State) : State :=
  let t := s.str n
  let first := tget 0 (100 + b) t.granted
  let seen := tget 0 b t.granted - first
  s.setStr n { t with granted := tset b (first + seen + (v + mod - seen % mod) % mod) t.granted }

/-- Acknowledgement and credit counter of a header received on string n, for the transmitter of its reverse. -/
def linkIn (n : Nat) (h : BitVec 96) (s : State) : State :=
  let m := reverseString n
  if 2 < (s.str m).state then s
  else
    let s := ackTo m (hAck h) s
    if hCrClass h = 2 then creditTo m (16 + hCrCount h % 4) 64 (hCrCount h / 4) s else creditTo m (hCrClass h) 256 (hCrCount h) s

/-- A frame sent with the given op arrives on string n: corrupted if a fault is injected, discarded and counted if it fails its
checks, whatever op it then shows, its acknowledgement and credits taken; a sequenced frame is accepted only in sequence and in service (R129, R135).
The frame if it is accepted, and the state. -/
def receive (n op : Nat) (f : Frame) (s : State) : Option Frame × State :=
  if !stringLive s n ∨ (hOp f.hdr ≠ op ∧ frameOk n f) then (none, s)
  else
    let (f, s) := injectRx n f s
    if !frameOk n f then (none, s.count Obj.crcErrors 1)
    else if !opSequenced op ∧ 29 ≤ hDest f.hdr then (none, s.count Obj.unassignedSiteDiscards 1)
    else
      let s := linkIn n f.hdr s
      if !opSequenced op then (some f, s)
      else if (s.str n).state = 6 ∨ hSeq f.hdr ≠ (s.str n).rxSeq.toNat then (none, s)
      else (some f, s.setStr n { s.str n with rxSeq := (s.str n).rxSeq + 1, rxAck := BitVec.ofNat 8 (hSeq f.hdr) })

/-- A control frame of a kind arrives (R132). -/
def receiveCtrl (n kind : Nat) (f : Frame) (s : State) : Option Bytes × State :=
  match receive n opCTRL f s with
  | (some f, s) => if leAt f.payload 0 1 = kind then (some f.payload, s) else (none, s)
  | (none, s) => (none, s)

/-- IDLE_FRAME: acknowledgement and credits only (R133); on a bus nothing, but one that fails its checks is dropped and counted
(R141). -/
def execIdleFrame (n : StringId) (f : Frame) (s : State) : Out :=
  if isBus n then .next (if frameOk n f then s else s.count Obj.busDrops 1) else .next (receive n opIDLE f s).2

/-- Credits that an offer or accept advertises, for the transmitter of string n: the first credits of a fresh string, so one in
service keeps its own (R132). -/
def noteCredits (n : Nat) (p : Bytes) (s : State) : State :=
  let t := s.str n
  if t.state ≠ 6 then s else
  let g := tset 100 (leAt p 5 2) (tset 101 (leAt p 7 2) (tset 103 (leAt p 10 2) t.granted))
  let g := (List.range 4).foldl (fun g k => tset (116 + k) (leAt p 9 1) g) g
  s.setStr n { t with granted := (List.range 64).foldl (fun g k => tset (132 + k) (leAt p 12 1) g) g }

/-- TRAIN_OFFER: a valid offer lets this end answer with its accept; one without level 1, whose highest level is 0 (DESIGN CHOICE,
log entry 95), gets none, and the string is OUT (R132). -/
def execTrainOffer (n : StringId) (f : Frame) (s : State) : Out :=
  match receiveCtrl n 0x01 f s with
  | (none, s) => .next s
  | (some p, s) =>
    if !pairTraining s n ∨ leAt p 2 2 ≠ n.val then .next s
    else if leAt p 1 1 = 0 then
      .next (logEvent Obj.stringState 0 0x1603 (stringEnds n).2 n p (enterString n 3 s))
    else
      let m := reverseString n
      let s := noteCredits m p s
      .next (s.setStr m { s.str m with offerGot := true })

/-- Training of a string ends: fresh numbers, credits and scramblers, frames its receiver had not accepted are sent again, and
after a margin test an ECHO measures it (R127, R132, R142, R147). -/
def trainDone (n : Nat) (s : State) : State :=
  let t := s.str n
  if t.state ≠ 6 then s
  else
    let old := t.unacked.filter (fun x => (x.1 - t.rxSeq).toNat < 128)
    let gone := t.unacked.filter (fun x => !((x.1 - t.rxSeq).toNat < 128))
    let kept := (List.range old.length).map (fun i => (BitVec.ofNat 8 i, (old.getD i (0, { hdr := 0, payload := [] })).2))
    let spent := kept.foldl (fun (g : Tab Nat) x => let b := rxBuffer n x.2.hdr; tset b (tget 0 b g + 1) g) []
    let first := t.granted.filter (fun (p : Nat × Nat) => 100 ≤ p.1)
    let granted := first.foldl (fun (g : Tab Nat) p => tset (p.1 - 100) p.2 g) first
    let s := s.setStr n { t with
      count := 0, level := 1, txSeq := BitVec.ofNat 8 kept.length, unacked := kept, resend := kept, swap := []
      spent, granted, passed := [], timeouts := 0, rxSeq := 0, rxAck := 0xFF, freed := [], unreported := []
      waiting := t.waiting && s.wins.any (fun w => w.phase == 2 && windowOver s w (carrying s n))
      stopped := false, echo := none, echoDue := t.measure, measure := false, echoBack := false, announced := false
      scr := (List.range 16).map (fun j => BitVec.ofNat 31 (j + 1)) }
    let s := gone.foldl (fun s x => match x.2.chan with
      | some (c, id) => chanFrameDone c id s
      | none => s) s
    enterString n (stateOf (usableLines (s.str n)).length) s

/-- The condition of R288 bit 3: a domain failing, without a spare, or after an abrupt loss. -/
def settleHarp (s : State) : State :=
  let on := s.domains.any (fun (p : Nat × Domain) => p.2.crossed.getD 3 false || p.2.state == 5 || p.2.abrupt)
  if (s.obj Obj.stateReasons).testBit 3 = on then s else setReason 3 on s

/-- An abrupt loss is over once its source has been replaced and every string of the domain is back (R164). -/
def settleAbrupt (s : State) : State :=
  settleHarp ((List.range 8).foldl (fun s d =>
    let x := s.domain d
    if x.abrupt ∧ !x.lost ∧ x.state = 0 ∧ x.source ≠ 3 ∧ s.strings.all (fun (p : Nat × Str) => p.1 % 8 != d || isBus p.1 || p.2.state ≤ 2) then
      s.setDomain d { x with abrupt := false }
    else s) s)

/-- TRAIN_ACCEPT: training ends once each end has both sent and received an accept (R132). -/
def execTrainAccept (n : StringId) (f : Frame) (s : State) : Out :=
  match receiveCtrl n 0x02 f s with
  | (none, s) => .next s
  | (some p, s) =>
    let m := reverseString n
    if !pairTraining s n ∨ leAt p 2 2 ≠ n.val ∨ leAt p 1 1 ≠ 1 then .next s
    else
      let s := noteCredits m p s
      let s := s.setStr m { s.str m with acceptGot := true }
      let both (k : Nat) : Bool := (s.str k).acceptSent && (s.str k).acceptGot
      .next (if both n && both m then settleAbrupt (trainDone m (trainDone n s)) else s)

/-- LANE_MAP: the other end's announcement (R127). It concerns the reverse string where that one has announced this map, and
otherwise the string it came on. -/
def execLaneMap (n : StringId) (f : Frame) (s : State) : Out :=
  match receiveCtrl n 0x03 f s with
  | (none, s) => .next s
  | (some p, s) =>
    let new := (leAt p 2 2, (List.range 17).map (fun j => leAt p (4 + j) 1))
    if (s.str (reverseString n)).newMap = some new then .next s
    else .next (s.setStr n { s.str n with newMap := some new, announced := true })

/-- LANE_MAP_EFFECT: at its frame count the new map is in force at both ends, and a modulator ring in recovery is parked
(R127, R157 step 2). -/
def execLaneMapEffect (n : StringId) (s : State) : Out :=
  let t := s.str n
  match t.newMap with
  | none => .next s
  | some (at_, m) =>
    if !t.announced ∨ 32768 ≤ (t.count.toNat + 65536 - at_) % 65536 then .next s
    else
      let pegs := t.pegs.map (fun (p : Nat × Peg) =>
        if p.1 % 8 = 0 ∧ (p.2.state = 1 ∨ (p.2.state = 2 ∧ 0 < p.2.steps)) ∧ !(m.take 16).contains (p.1 / 8) then (p.1, { p.2 with state := 4 }) else p)
      let s := s.setStr n { t with map := m, newMap := none, announced := false, pegs }
      .next (traceMake (stringEnds n).1 n 0x06 (leBytes 2 n ++ leBytes 2 at_ ++ m.map (fun l => BitVec.ofNat 8 l)) s)

/-- RELAY_CREDITS: the 64 relay sub-buffer counters (R133). -/
def execRelayCredits (n : StringId) (f : Frame) (s : State) : Out :=
  match receiveCtrl n 0x04 f s with
  | (none, s) => .next s
  | (some p, s) =>
    let x := leAt p 1 48
    .next ((List.range 64).foldl (fun s c => creditTo (reverseString n) (32 + c) 64 (bitsAt x (6 * c) 6) s) s)

/-- Latency class of a pair of compute dies, in steps of 0.5 ns rounded up (R99, R142). -/
def noteLatency (n ps : Nat) (s : State) : State :=
  let s := s.setStr n { s.str n with latency := min ps 35000 }
  match siteDie (stringEnds n).1, siteDie (stringEnds n).2 with
  | some a, some b =>
    if n < 812 then { s with sched := { s.sched with latency := tset (16 * a + b) (ceilDiv (min ps 35000) 500) s.sched.latency } } else s
  | _, _ => s

/-- ECHO: elsewhere it is returned unchanged; at its origin half the round trip is the one-hop latency (R132, R142). The ECHO that
string n's own end has sent and its receiver has not yet returned is the one that arrives first. -/
def execEcho (n : StringId) (f : Frame) (s : State) : Out :=
  match receiveCtrl n 0x05 f s with
  | (none, s) => .next s
  | (some p, s) =>
    let m := reverseString n
    let v := leAt p 1 8
    let other : Bool := (s.str n).echo == some v && !(s.str n).echoBack
    if !other && (s.str m).echo = some v then
      .next (noteLatency m ((s.beat - v) * 500) (s.setStr m { s.str m with echo := none }))
    else .next (pushCtrl m p (s.setStr n { s.str n with echoBack := true }))

/-! Timeouts, retrains and rechecks (R135, R143, R144). -/

/-- ACK_TIMEOUT: 200 ns without an ack for the oldest frame: everything unacknowledged is sent again, and the eighth time in
succession the string retrains (R135). -/
def execAckTimeout (n : StringId) (s : State) : Out :=
  let t := s.str n
  match t.unacked with
  | [] => .next s
  | (q, f) :: _ =>
    if 2 < t.state ∨ suspended s n ∨ t.resend.any (fun x => x.1 == q) ∨ s.beat < f.sent + 200 then .next s
    else
      let s := s.count Obj.retryTimeouts 1
      let s := s.setStr n { t with resend := t.unacked, swap := [], timeouts := if t.timeouts = 7 then 0 else t.timeouts + 1 }
      .next (if t.timeouts = 7 then retrain n s else s)

/-- LOSS_OF_LOCK: 32 frame times in which no frame passed its checks (R143). -/
def execLossOfLock (n : StringId) (s : State) : Out :=
  if (s.str n).state ≤ 2 ∧ !isBus n ∧ !suspended s n then .next (retrain n s) else .next s

/-- Rings that a line of a string has: a modulator, and a drop ring for each receiver (R126, R175). -/
def ringCount (n : Nat) : Nat := if isBus n then 5 else 2

/-- Every ring of a line is locked, its last fret check passed (R156). -/
def ringsLocked (s : State) (n line : Nat) : Bool := (List.range (ringCount n)).all (fun r => ((s.str n).peg line r).state == 3)

/-- A line's measurement in a margin test or lane check: usable from 1.00 dB margin and 20/64 UI, with its rings locked (R142 steps
1 and 5, R156). -/
def measureLane (s : State) (m : LaneMeas) : State :=
  let t := s.str m.string
  let l := tget {} m.line t.lanes
  let ok : Bool := 100 ≤ m.margin && 20 ≤ m.eye && ringsLocked s m.string m.line
  let l := { l with rx := m.rx, eye := m.eye, margin := m.margin, testRx := m.rx, testMargin := m.margin, usable := ok, lane := none }
  s.setStr m.string { t with lanes := tset m.line l t.lanes }

/-- Measurements of one string's lines. -/
def measureString (n : Nat) (lanes : List LaneMeas) (s : State) : State :=
  (lanes.filter (fun m => m.string == n && m.line < 17)).foldl measureLane s

/-- The string's domain has a source that lights it (R166). -/
def lit (s : State) (n : Nat) : Bool := (s.domain (stringDomain n)).source != 3

/-- LANE_CHECK_DONE: the shortened lane check of a retraining string is over (R143); on a string in service it is the offline
check of lines mapped out, and those that pass return (R164). -/
def execLaneCheckDone (n : StringId) (lanes : List LaneMeas) (s : State) : Out :=
  let (a, b) := stringEnds n
  if isBus n ∨ (s.tile a).state = 2 ∨ (s.tile b).state = 2 then .next s
  else if (s.str n).state = 4 then .next (afterLaneCheck n (measureString n lanes s))
  else if (s.str n).state ≤ 2 then
    .next ((lanes.filter (fun m => m.string == n.val && m.line < 17)).foldl (fun s m =>
      if (tget {} m.line (s.str n).lanes).usable then s
      else
        let s := measureLane s m
        let l := tget {} m.line (s.str n).lanes
        if l.usable then
          returnLine n m.line true (s.setStr n { s.str n with lanes := tset m.line { l with usable := false } (s.str n).lanes })
        else s) s)
  else .next s

/-- FROZEN_TIMEOUT: FROZEN for more than 10 ms (R144), or not trained 10 ms after a tile reset (R147 step 6), the string is DOWN. -/
def execFrozenTimeout (n : StringId) (s : State) : Out :=
  let t := s.str n
  let frozen : Bool := t.state == 4 && t.frozenAt.any (fun b => decide (b + 10000000 < s.beat))
  let reset : Bool := (t.state == 4 || t.state == 6) && t.resetAt.any (fun b => decide (b + 10000000 ≤ s.beat))
  .next (if frozen || reset then enterString n 5 s else s)

/-- LANE_RECHECK: every 60 s an OUT or DOWN string repeats its lane check, at once after an abrupt loss, and trains with 13
lines (R144, R164). A string in use for sounding stays OUT (R173). -/
def execLaneRecheck (n : StringId) (lanes : List LaneMeas) (s : State) : Out :=
  let t := s.str n
  let due := t.checked + 60000000000 ≤ s.beat || (s.domain (stringDomain n)).abrupt
  if isBus n ∨ !(t.state = 3 ∨ t.state = 5) ∨ !due ∨ !lit s n ∨ (s.sounding.state = 1 ∧ s.sounding.string = n.val) then .next s
  else
    let s := measureString n lanes s
    let s := s.setStr n { s.str n with checked := s.beat }
    .next (if 13 ≤ (usableLines (s.str n)).length then startTraining n s else s)

/-! Margins (R142, R143, R158). -/

/-- Cartridge slot that feeds a domain (R151). -/
def feedingSlot (s : State) (d : Nat) : Option Nat :=
  match (s.domain d).source with
  | 0 => some d
  | 1 => some 8
  | 2 => some 9
  | _ => none

/-- Lowest margin among the in-service lanes of a line on a domain's strings (R158); the top of the range with none. -/
def domainBase (s : State) (d line : Nat) : Int :=
  listMin 800 ((s.strings.filter (fun (p : Nat × Str) => p.1 % 8 == d && p.2.state ≤ 2 || p.1 % 8 == d && p.2.state == 6)).filterMap
    (fun (p : Nat × Str) => if inService p.2 line then some (tget {} line p.2.lanes).margin else none))

/-- A reference point of a domain (R158, R159). -/
def setReference (d : Nat) (s : State) : State :=
  let x := s.domain d
  let base := (List.range 17).map (domainBase s d)
  let power := match feedingSlot s d with
    | some k => (s.harp k).power
    | none => x.ref
  s.setDomain d { x with base, ref := power, fall := List.replicate 17 0, margin := listMin 800 base, samples := [], hourSum := 0, hourN := 0 }

/-- MARGIN_ESTIMATE: margin less the fall in received power since the test; a lane below 1.00 dB moves to the spare, unless a
handover under way explains it (R142, R158). -/
def execMarginEstimate (n : StringId) (line : LineId) (rx : Int) (s : State) : Out :=
  let t := s.str n
  let l := tget {} line.val t.lanes
  if !l.usable ∨ (2 < t.state ∧ !isBus n) then .next s
  else
    let est := l.testMargin - 10 * (l.testRx - rx)
    let s := s.setStr n { t with lanes := tset line.val { l with rx, margin := est } t.lanes }
    let d := s.domain (stringDomain n)
    let spared : Bool := d.state != 0 && 100 ≤ est + d.fall.getD line 0
    if est < 100 ∧ !spared then
      .next (dropLine n line true (logEvent Obj.laneMapouts 1 0 (stringEnds n).2 n (leBytes 1 line) s))
    else .next s

/-- The test of every string begins, its rings' fret checks first (R142 step 1). -/
def beginTest (run : Nat) (s : State) : State :=
  { s with strings := s.strings.map (fun (p : Nat × Str) => (p.1, recheckRings p.2)), dev := { s.dev with marginRun := run } }

/-- MARGIN_TEST: the test of every string begins, after laser warm-up at a start, or as the commissioning test asked for, once
no handover is pending (R142, R143, R171). -/
def execMarginTest (s : State) : Out :=
  let warming := s.harps.any (fun (p : Nat × Harp) => p.2.role == 3 || p.2.role == 7)
  if s.dev.state = 2 ∧ s.dev.started ∧ s.dev.marginRun = 0 ∧ !warming then .next (beginTest 1 s)
  else if s.dev.marginRun = 3 ∧ !(s.domains.any (fun (p : Nat × Domain) => 1 ≤ p.2.state && p.2.state ≤ 4)) then
    .next (beginTest 2 s)
  else .next s

/-- Margins of the in-service lanes of some strings. -/
def serviceMargins (s : State) (ns : List Nat) : List Int :=
  ns.flatMap (fun n =>
    let t := s.str n
    ((t.map.take 16).filter (· ≤ 16)).map (fun l => (tget {} l t.lanes).margin))

/-- MARGIN_TEST_DONE: usable lines, lane maps and one-hop latencies are known, strings train, each domain has a reference
point, and a commissioning test its result (R142, R143, R158). -/
def execMarginTestDone (lanes : List LaneMeas) (s : State) : Out :=
  if s.dev.marginRun ≠ 1 ∧ s.dev.marginRun ≠ 2 then .next s
  else
    let lanes := lanes.filter (fun m => m.string < 1126 && m.line < 17)
    let ns := (lanes.map (·.string)).eraseDups
    let s := lanes.foldl measureLane s
    let s := lanes.foldl (fun s m => noteLatency m.string m.latency s) s
    let ptp := ns.filter (fun n => !isBus n)
    let s := ptp.foldl (fun s n => afterLaneCheck n (s.setStr n { s.str n with measure := true })) s
    let s := (ns.filter isBus).foldl (fun s n => s.setStr n { s.str n with map := freshMap (usableLines (s.str n)) }) s
    let weak := lanes.filter (fun m => 100 ≤ m.margin && 20 ≤ m.eye && m.margin < 200)
    let s := s.setObj Obj.lanesWarning weak.length
    let s := weak.foldl (fun s m => logEvent Obj.lanesWarning 1 0 (stringEnds m.string).2 m.string (leBytes 1 m.line) s) s
    let s := (List.range 8).foldl (fun s d => setReference d s) s
    let ms := serviceMargins s ns
    let s := if s.dev.marginRun = 2 ∨ s.obj Obj.commissionResult = 0 then
        (s.setObj Obj.commissionResult (if ms.all (fun m => 300 ≤ m) then 1 else 2)).setObjI Obj.commissionWorstMargin (listMin 0 ms)
      else s
    .next { s with dev := { s.dev with marginRun := 0 } }

/-! Tile resets (R147). -/

/-- The reset moment T: strings of the tile freeze as they stand. -/
def tileFreeze (site : Nat) (s : State) : State :=
  let s := s.setTile site { state := 2, since := s.beat }
  let s := countLog Obj.tileResets 0 0 site 0 [] s
  (siteStrings site).foldl (fun s n =>
    let t := recheckRings (s.str n)
    if t.state ≤ 2 ∨ t.state = 4 ∨ t.state = 6 then enterString n 4 (s.setStr n { t with held := false, resetAt := some s.beat }) else s) s

/-- TILE_RESET_DRAINED: the retry buffers of a requested reset are empty: T (R147 step 2). -/
def execTileResetDrained (site : SiteId) (s : State) : Out :=
  if (s.tile site).state = 1 ∧ (siteStrings site).all (fun n => (s.str n).unacked.isEmpty) then .next (tileFreeze site s) else .next s

/-- TILE_WATCHDOG: no progress in the tile's frame logic for 1 ms forces a reset (R147). -/
def execTileWatchdog (site : SiteId) (s : State) : Out :=
  if (s.tile site).state = 2 ∨ !s.dev.started then .next s else .next (tileFreeze site s)

/-- TILE_RESET_DONE: the tile has reset and its strings train; those already DOWN return under R144 (R147 steps 4 to 7). -/
def execTileResetDone (site : SiteId) (s : State) : Out :=
  if (s.tile site).state ≠ 2 then .next s
  else
    let s := s.setTile site {}
    .next ((siteStrings site).foldl (fun s n =>
      let s := s.setStr n { s.str n with stopped := false }
      let (a, b) := stringEnds n
      if (s.str n).state = 4 ∧ (s.tile a).state ≠ 2 ∧ (s.tile b).state ≠ 2 then startTraining n s else s) s)

/-! Broadcast buses (R99, R141, R338). -/

/-- Owner of a bus and whether a site is one of its four taps: the rest of the owner's row or column. -/
def busTap (n site : Nat) : Bool :=
  let o := (stringEnds n).1
  site < 25 && site != o && (if n < 1101 then site / 5 == o / 5 else site % 5 == o % 5)

/-- e + (d − e) / 16 in unsigned 8.8, truncated (R99); a depth above the format's range counts as its top. -/
def depthAverage (e : W16) (depth : Nat) : W16 :=
  let d : Int := min (256 * depth) 0xFFFF
  BitVec.ofInt 16 ((e.toNat : Int) + Int.tdiv (d - e.toNat) 16)

/-- A queue-depth record from a die reaches the thieves of another (R99). -/
def depthRecord (die src : Nat) (p : Bytes) (s : State) : State :=
  let qs := (List.range 5).map (fun j => (if j < 4 then 4 * src + j else 64 + src, leAt p (1 + 2 * j) 2))
  let thieves := (List.range 4).map (fun j => 4 * die + j) ++ (List.range 16).map (fun j => 64 + 16 * die + j)
  thieves.foldl (fun s t =>
    let x := tget {} t s.sched.thieves
    let avg := qs.foldl (fun (a : Tab W16) q => tset q.1 (depthAverage (tget 0 q.1 a) q.2) a) x.avg
    { s with sched := { s.sched with thieves := tset t { x with avg } s.sched.thieves } }) s

/-- BCAST: a tap receives a status record; one that fails its checks, or whose dest is not its src, is dropped and counted (R141).
Mode 2 of fault injection inverts a bit first, and so drops it too (R362). -/
def execBcast (n : StringId) (tap : SiteId) (f : Frame) (s : State) : Out :=
  let (o, _) := stringEnds n
  if !isBus n ∨ !busTap n tap ∨ (hOp f.hdr ≠ opBCAST ∧ frameOk n f) then .next s
  else
    let (f, s) := injectRx n f s
    if !frameOk n f ∨ hDest f.hdr ≠ hSrc f.hdr ∨ hSrc f.hdr ≠ o then .next (s.count Obj.busDrops 1)
    else
      let kind := leAt f.payload 0 1
      if kind ≠ 1 ∧ kind ≠ 2 then .next s
      else
        let s := { s with bus := tset (4096 * tap.val + 64 * o + kind) { payload := fitBytes 64 f.payload, beat := s.beat } s.bus }
        match kind, siteDie tap, siteDie o with
        | 1, some d, some src => .next (depthRecord d src f.payload s)
        | _, _, _ => .next s

/-- Temperature of a tile: the mean of the two lightbed sensors of the site as they are used, 0.1 °C (R168, R335). -/
def tileTemp (s : State) (site : Nat) : Int :=
  let u := (s.thermDie site 0).used
  if u.isEmpty then 0 else u.sum / (u.length : Int)

/-- Hottest value used among the sensors of a die at a site. -/
def dieTemp (s : State) (site die : Nat) : Int := listMax 0 (s.thermDie site die).used

/-- Record of queue depths: ready items of the die's four cores, then of its Whippets, 16 bits each. -/
def depthPayload (s : State) (d : Nat) : Bytes :=
  leBytes 1 1 ++ (List.range 5).flatMap (fun j => leBytes 2 (readyQueue s (if j < 4 then 4 * d + j else 64 + d)).length)

/-- Record of kind 0x02 (R338). -/
def thermalPayload (s : State) (site : Nat) : Bytes :=
  let mine := (s.therm.dies.filter (fun (p : Nat × ThermDie) => p.1 / 16 == site)).map (·.2)
  let d := siteDie site
  let level := mine.foldl (fun m x => max m x.level) 0
  let suspect := mine.any (fun x => x.order || x.suspect.any id)
  leBytes 1 2 ++ leBytes 2 (wrapTo 16 (dieTemp s site 1)) ++ leBytes 2 ((d.map (fun k => (s.die k).hist.headD 0)).getD 0)
    ++ leBytes 1 (level + (if suspect then 4 else 0))
    ++ leBytes 2 ((d.bind (fun k => ceilingOf (s.die k))).getD 0xFFFF)

/-- A record goes on a bus; mode 1 of fault injection withholds it, which is counted as a drop (R362). -/
def busSend (n : Nat) (f : Frame) (s : State) : State :=
  let x := (s.str n).inject
  if x.mode = 1 ∧ x.classes.testBit (hClass f.hdr) then
    let (hit, _, y) := injectUnit x n 1
    let s := s.setStr n { s.str n with inject := y }
    if hit then (s.count Obj.sfiEvents 1).count Obj.busDrops 1 else emitFrame n f s
  else emitFrame n f s

/-- BCAST_SEND: a site puts a record of a kind on one of its buses (R141). Queue depths are a compute die's, and its own thieves
take the record it puts on its row bus (R99). -/
def execBcastSend (n : StringId) (kind : Byte) (s : State) : Out :=
  let (o, _) := stringEnds n
  let record (p : Bytes) : Frame := mkFrame (withLink (mkHdr opBCAST o o 63 0 0 false) n 0 0 0 0) p
  if !isBus n ∨ !s.powered then .next s
  else
    match kind.toNat, siteDie o with
    | 1, some d =>
      if dieUp s d then
        let p := depthPayload s d
        let s := if n < 1101 then depthRecord d d p s else s
        .next (busSend n (record p) s)
      else .next s
    | 2, _ => .next (busSend n (record (thermalPayload s o)) s)
    | _, _ => .next s

end Sys2Proof.Machine
end

