-- ==== Sys2Proof/Machine/FabricLink.lean ====
section
/-! DEFINITION. The fabric's links (R188 to R200): packet headers, ports and their training, link blocks, credits and retry. What
a router does with a packet is in FabricRoute.lean. -/

namespace Sys2Proof.Machine

/-! Packet headers (R198, R199). -/

def pkVersion (h : BitVec 256) : Nat := fieldAt h 0 4
def pkClass (h : BitVec 256) : Nat := fieldAt h 4 2
def pkDl (h : BitVec 256) : Nat := fieldAt h 6 1
def pkEpoch (h : BitVec 256) : Nat := fieldAt h 7 1
def pkOp (h : BitVec 256) : Nat := fieldAt h 8 5
def pkDest (h : BitVec 256) : Nat := fieldAt h 16 16
def pkSrc (h : BitVec 256) : Nat := fieldAt h 32 16
def pkJob (h : BitVec 256) : Nat := fieldAt h 48 16
def pkOffset (h : BitVec 256) : Nat := fieldAt h 64 44
/-- Bytes of the packet, or asked for: the field holds one less. -/
def pkLength (h : BitVec 256) : Nat := fieldAt h 112 20 + 1
def pkCmark (h : BitVec 256) : Nat := fieldAt h 132 2
def pkCecho (h : BitVec 256) : Nat := fieldAt h 134 2
def pkSeq (h : BitVec 256) : Nat := fieldAt h 136 16
def pkTag (h : BitVec 256) : Nat := fieldAt h 152 16
def pkSpecA (h : BitVec 256) : Nat := fieldAt h 168 16
def pkSpecB (h : BitVec 256) : Nat := fieldAt h 184 16
def pkSpecC (h : BitVec 256) : Nat := fieldAt h 200 16
def pkCheck (h : BitVec 256) : Nat := fieldAt h 224 32

/-- Virtual channel: 2 × class + dl (R198). -/
def pkVc (h : BitVec 256) : Nat := 2 * pkClass h + pkDl h

/-- Ops of R199. -/
def fLOAD : Nat := 0x01
def fGET : Nat := 0x02
def fATOMIC : Nat := 0x03
def fFLAG : Nat := 0x04
def fBARRIER : Nat := 0x05
def fQUERY : Nat := 0x06
def fRELEASE : Nat := 0x07
def fSTORE : Nat := 0x08
def fPUT : Nat := 0x09
def fMCAST : Nat := 0x0A
def fCPART : Nat := 0x0C
def fLOADDATA : Nat := 0x10
def fGETDATA : Nat := 0x11
def fATOMICDATA : Nat := 0x12
def fACK : Nat := 0x13
def fSTATUS : Nat := 0x14
def fREPORT : Nat := 0x15

/-- Class of an op; `none` for a reserved one (R199). -/
def fabricClass (op : Nat) : Option Nat :=
  if 1 ≤ op ∧ op ≤ 7 then some 0
  else if op = fSTORE ∨ op = fPUT ∨ op = fMCAST then some 1
  else if op = fCPART then some 2
  else if fLOADDATA ≤ op ∧ op ≤ fREPORT then some 3
  else none

/-- Replace n bits of a word from bit lo on. -/
def putField (h : BitVec 256) (lo n v : Nat) : BitVec 256 :=
  BitVec.ofNat 256 (h.toNat - fieldAt h lo n * 2 ^ lo + (v % 2 ^ n) * 2 ^ lo)

/-- The header check: CRC-32C over bytes [27:0] with dl and cmark set to 0 (R198). -/
def headerCheck (h : BitVec 256) : Nat := crc32c (leBytes 28 (putField (putField h 6 1 0) 132 2 0).toNat)

/-- The header with its check. -/
def sealHeader (h : BitVec 256) : BitVec 256 := putField h 224 32 (headerCheck h)

/-- A header without seq, epoch and check: version 1, class by the op (R198). -/
def fabricHdr (op dest src job offset length cecho tag a b c : Nat) : BitVec 256 :=
  BitVec.ofNat 256 (1 + ((fabricClass op).getD 0) * 2 ^ 4 + op * 2 ^ 8 + (dest % 2 ^ 12) * 2 ^ 16 + (src % 2 ^ 12) * 2 ^ 32
    + (job % 2 ^ 16) * 2 ^ 48 + (offset % 2 ^ 44) * 2 ^ 64 + ((length - 1) % 2 ^ 20) * 2 ^ 112 + (cecho % 4) * 2 ^ 134
    + (tag % 2 ^ 16) * 2 ^ 152 + (a % 2 ^ 16) * 2 ^ 168 + (b % 2 ^ 16) * 2 ^ 184 + (c % 2 ^ 16) * 2 ^ 200)

/-- Payload bytes that follow a header: those of its length for a packet with data, one flit of operands for the ops of R199
that say so, none for the others. -/
def payloadBytes (h : BitVec 256) : Nat :=
  let op := pkOp h
  if op = fSTORE ∨ op = fPUT ∨ op = fMCAST ∨ op = fCPART ∨ op = fLOADDATA ∨ op = fGETDATA then min (pkLength h) 1024
  else if op = fATOMIC ∨ op = fFLAG ∨ op = fBARRIER ∨ op = fATOMICDATA ∨ op = fREPORT then 32
  else 0

/-- Flits of a packet: a header flit and ⌈bytes / 32⌉ payload flits (R193). -/
def packetFlits (h : BitVec 256) : Nat := 1 + ceilDiv (payloadBytes h) 32

/-- The packet as flits. -/
def packetBytes (k : Packet) : Bytes := bvBytes k.hdr ++ fitBytes (32 * (packetFlits k.hdr - 1)) k.payload

/-- The packet that a flit sequence spells (R193). -/
def flitPacket (b : Bytes) : Packet :=
  let h : BitVec 256 := BitVec.ofNat 256 (leAt b 0 32)
  { hdr := h, payload := (b.drop 32).take (payloadBytes h) }

/-! Ports (R188, R191, R222). -/

/-- Direction of a port: 0 +x, 1 −x, 2 +y, 3 −y (R188). -/
def portDir (p : Nat) : Nat := p / 4

/-- Differential pair of a lane of a port in each direction of the edge connector (R188). -/
def fabricPair (p lane : Nat) : Nat := 8 * p + lane

/-- The opposite direction. -/
def opposite (d : Nat) : Nat := if d % 2 = 0 then d + 1 else d - 1

/-- Coordinates of a node number (R197). -/
def nodeX (n : Nat) : Nat := bitsAt n 0 4
def nodeY (n : Nat) : Nat := bitsAt n 4 4
def nodePod (n : Nat) : Nat := bitsAt n 8 4

/-- Node at coordinates of this module's pod. -/
def podNode (s : State) (x y : Nat) : Nat := nodePod s.fabric.node.toNat * 256 + 16 * y + x

/-- The node one hop from `n` in a direction, on the torus of the pod (R191). -/
def nextNode (s : State) (n d : Nat) : Nat :=
  let w := s.fabric.width
  let h := s.fabric.height
  let x := nodeX n
  let y := nodeY n
  let at_ (x y : Nat) : Nat := nodePod n * 256 + 16 * y + x
  if d = 0 then at_ ((x + 1) % w) y else if d = 1 then at_ ((x + w - 1) % w) y
  else if d = 2 then at_ x ((y + 1) % h) else at_ x ((y + h - 1) % h)

/-- Ports of a dimension of size 1 are not trained (R191). -/
def portUsed (s : State) (p : Nat) : Bool := if portDir p < 2 then s.fabric.width != 1 else s.fabric.height != 1

/-- Ports run from Boot on, Held included, and not in Fault-stop (R191, R286). -/
def portsPowered (s : State) : Bool := 2 ≤ s.dev.state && s.dev.state ≤ 7

/-- The states in which ports carry packets: Ready to Draining (R286); in Boot and Held they only train (R191). -/
def carries (s : State) : Bool := 4 ≤ s.dev.state && s.dev.state ≤ 7

/-- A port changes state: traced (kind 0x07). -/
def enterPort (p new : Nat) (s : State) : State :=
  let q := s.port p
  if q.state = new then s
  else
    let s := s.setPort p { q with state := new }
    traceMake (rimSite (portDir p)) p 0x07 (leBytes 1 p ++ leBytes 1 q.state ++ leBytes 1 new) s

/-- A port begins to train (R191). Its numbers and credits stand where it retrains, so that blocks held for retry go again
and none is taken twice (R195). -/
def trainPort (p : Nat) (s : State) : State :=
  let q := s.port p
  enterPort p 1 (s.setPort p { q with offerGot := false, acceptSent := false, acceptGot := false, tried := s.beat })

/-- PORT_PHY_LOCK: the physical layer has locked and aligned, and the port offers (R191); not at a rim die in latched shutdown
(R332). -/
def execPortPhyLock (p : PortId) (s : State) : Out :=
  let q := s.port p
  if !portsPowered s ∨ !portUsed s p ∨ s.obj (Obj.portEnableP + p) = 0 then .next s
  else if (s.thermDie (rimSite (portDir p)) 1).level = 3 then .next s
  else if q.state = 0 ∨ q.state = 5 ∨ q.retrainAt.isSome then .next (trainPort p s)
  else .next s

/-- Digest of the active route set (R203). -/
def activeDigest (s : State) : W32 :=
  if s.fabric.bankValid.getD s.fabric.epoch false then (tget { digest := 0 } s.fabric.epoch s.fabric.banks).digest else 0

/-- A TRAIN_OFFER record: highest level, node, port, pod width and height, digest of the active route set; a TRAIN_ACCEPT has the
agreed level, which is 1, before them (R191, R192). -/
def trainBytes (s : State) (kind p : Nat) : Bytes :=
  fitBytes 256 (leBytes 1 kind ++ (if kind = 0x02 then leBytes 1 1 else []) ++ leBytes 1 1 ++ leBytes 2 s.fabric.node.toNat ++ leBytes 1 p ++ leBytes 1 s.fabric.width
    ++ leBytes 1 s.fabric.height ++ leBytes 4 (activeDigest s).toNat)

/-- The neighbour that R191 step 4 asks for across a port. -/
def rightNeighbour (s : State) (p : Nat) (r : TrainRec) : Bool :=
  r.node.toNat == nextNode s s.fabric.node.toNat (portDir p) && r.port == 4 * opposite (portDir p) + p % 4

/-- A port is up once both ends have sent and received TRAIN_ACCEPT (R191); fresh numbers and credits unless it retrains. Then an
ECHO of its own measures its latency (R192). -/
def portUp (p : Nat) (s : State) : State :=
  let q := s.port p
  if q.state ≠ 1 ∨ !q.acceptSent ∨ !q.acceptGot then s
  else
    let s := enterPort p 2 s
    let q := s.port p
    if q.retrainAt.isSome then
      s.setPort p { q with
        retrainAt := none, timeouts := 0, resend := q.unacked.map (·.1), ctrlq := q.ctrlq ++ [[0x04]], echo := none }
    else
      s.setPort p { q with
        txSeq := 0, unacked := [], resend := [], flight := [], timeouts := 0, rxSeq := 0, rxAck := 0, granted := [], spent := []
        freed := [], unreported := List.range 8, passed := [], partial_ := [], ctrlq := q.ctrlq ++ [[0x04]], echo := none }

/-- A port retrains (R195): within 10 ms, with what it holds for retry. -/
def retrainPort (p : Nat) (s : State) : State :=
  trainPort p (s.setPort p { s.port p with timeouts := 0, resend := [], retrainAt := some s.beat })

/-- FABRIC_TRAIN_OFFER: the level is agreed, or the port refused with 0x1603; a wrong neighbour holds it, with 0x1205
(R10, R191). On a port that is up the neighbour retrains, and the port with it (R195). A refusal for want of level 1 is an offer
whose highest level is 0 or whose lowest, the operand that no record of the spec carries, is above 1 (log entry 95). -/
def execFabricTrainOffer (p : PortId) (r : TrainRec) (s : State) : Out :=
  let s := if (s.port p).state = 2 then retrainPort p s else s
  let q := s.port p
  if q.state ≠ 1 then .next s
  else if r.level = 0 ∨ 1 < r.lowest then
    .next (logEvent (Obj.portStateP + p) 0 0x1603 (rimSite (portDir p)) p []
      (enterPort p 4 (s.setPort p { q with tried := s.beat, neighbour := r.node })))
  else if !rightNeighbour s p r then
    .next (logEvent (Obj.portStateP + p) 0 0x1205 (rimSite (portDir p)) p (leBytes 2 r.node.toNat)
      (enterPort p 3 (s.setPort p { q with tried := s.beat, neighbour := r.node })))
  else .next (s.setPort p { q with offerGot := true, neighbour := r.node })

/-- FABRIC_TRAIN_ACCEPT at the agreed level (R191). -/
def execFabricTrainAccept (p : PortId) (r : TrainRec) (s : State) : Out :=
  let q := s.port p
  if q.state ≠ 1 ∨ r.agreed ≠ 1 ∨ !rightNeighbour s p r then .next s
  else .next (portUp p (s.setPort p { q with acceptGot := true, neighbour := r.node }))

/-- PORT_TRAIN_RETRY: 1 s after it was left untrained or refused, a port trains again (R191). -/
def execPortTrainRetry (p : PortId) (s : State) : Out :=
  let q := s.port p
  if !portsPowered s ∨ !portUsed s p ∨ q.state = 2 ∨ q.state = 5 ∨ s.beat < q.tried + 1000000000 then .next s
  else .next (trainPort p s)

/-- FABRIC_ECHO: another end's beat is returned unchanged; the own one come back gives the port latency, half the round trip
(R192). -/
def execFabricEcho (p : PortId) (beat : W64) (own : Bool) (s : State) : Out :=
  let q := s.port p
  if q.state ≠ 2 then .next s
  else if own then
    (if q.echo ≠ some beat.toNat ∨ s.beat < beat.toNat then .next s
     else .next (s.setPort p { q with latency := (s.beat - beat.toNat) * 500, echo := none }))
  else .next (s.setPort p { q with ctrlq := q.ctrlq ++ [fitBytes 256 (leBytes 1 0x04 ++ leBytes 8 beat.toNat)] })

/-! Link blocks (R192, R193). -/

/-- Buffer of a virtual channel at an input port, flits (R194). -/
def vcFlits (vc : Nat) : Nat := if vc < 2 then 256 else if vc < 4 then 2048 else if vc < 6 then 1024 else 2048

/-- A block's control word with its CRC-32C over bits [47:0] and the flit space (R192). -/
def blockCtl (kind seq ack vc count : Nat) (flits : Bytes) : BitVec 80 :=
  let low := kind + (seq % 1024) * 2 ^ 2 + (ack % 1024) * 2 ^ 12 + vc * 2 ^ 22 + (count % 4096) * 2 ^ 25
  BitVec.ofNat 80 (low + crc32c (leBytes 6 low ++ flits) * 2 ^ 48)

/-- A block leaves a port; it reports the credit counter that has gone longest unreported (R192, R194). -/
def putBlock (p kind seq : Nat) (flits : Bytes) (s : State) : State :=
  let q := s.port p
  let vc := q.unreported.headD 0
  let s := s.setPort p { q with unreported := q.unreported.drop 1 ++ [vc] }
  let flits := fitBytes 256 flits
  s.emit (.block p (blockCtl kind seq q.rxAck.toNat vc (tget 0 vc q.freed) flits) flits)

/-- Flits queued at an output port for a virtual channel, packets that wait in transit rings included (R210). -/
def queueDepth (q : FPort) (vc : Nat) : Nat := ((tget [] vc q.outq).map (fun k => packetFlits k.pkt.hdr)).sum

/-- Congestion level of a queue depth (R210). -/
def markLevel (s : State) (depth : Nat) : Nat :=
  if depth < s.obj Obj.cmarkLevel1Flits then 0
  else if depth < s.obj Obj.cmarkLevel2Flits then 1
  else if depth < s.obj Obj.cmarkLevel3Flits then 2
  else 3

/-- A packet leaves an output queue marked with the larger of its mark and its queue's level (R210). -/
def markPacket (p vc : Nat) (k : Packet) (s : State) : Packet × State :=
  let m := markLevel s (queueDepth (s.port p) vc)
  if m ≤ pkCmark k.hdr then (k, s) else ({ k with hdr := putField k.hdr 132 2 m }, s.count Obj.cmarksSet 1)

/-- Index of a site among the senders of another's transit rings (R206): the other rim dies in ascending order, then the hub. -/
def ringIndex (at_ src : Nat) : Nat :=
  if at_ = hubSite then src - 25 else if src = hubSite then 3 else if src < at_ then src - 25 else src - 26

/-- The sender with an index. -/
def ringSource (at_ i : Nat) : Nat :=
  if at_ = hubSite then 25 + i else if i = 3 then hubSite else if 25 + i < at_ then 25 + i else 26 + i

/-- Units of a packet in a transit ring: ⌈packet bytes / 64⌉ (R206). -/
def ringUnits (k : Packet) : Nat := ceilDiv (32 + payloadBytes k.hdr) 64

/-- Space of a transit ring is freed, and the sender's credit word written (R206). -/
def ringFree (key units : Nat) (s : State) : State :=
  let recv := key / 256
  let src := key % 256 / 8
  let total := tget 0 key s.fabric.ringFreed + units
  let s := { s with fabric := { s.fabric with ringFreed := tset key total s.fabric.ringFreed } }
  sendWrite 2 recv src (0x3000000000 + 8 * (8 * ringIndex src recv + key % 8)) (leBytes 8 total) none none s

/-- A packet of virtual channel vc can start: it holds credits for the whole packet (R194). -/
def vcReady (q : FPort) (vc : Nat) : Bool :=
  match tget [] vc q.outq with
  | k :: _ => tget 0 vc q.spent + packetFlits k.pkt.hdr ≤ vcFlits vc + tget 0 vc q.granted
  | [] => false

/-- The channel that starts a packet: one passed over 16 times while ready, else the highest ranked (R195). -/
def vcTurn (q : FPort) : Option Nat :=
  let ready := (List.range 8).filter (vcReady q)
  let forced := ready.filter (fun v => 16 ≤ tget 0 v q.passed)
  let l := if forced.isEmpty then ready else forced
  if l.isEmpty then none else some (l.foldl max 0)

/-- A packet starts on its port: marked, its credits spent, its transit ring freed, the other ready channels passed over. -/
def startPacket (p : Nat) (s : State) : State :=
  let q := s.port p
  match vcTurn q with
  | none => s
  | some vc =>
    match tget [] vc q.outq with
    | [] => s
    | k :: rest =>
      let (m, s) := markPacket p vc k.pkt s
      let passed := ((List.range 8).filter (vcReady q)).foldl (fun t v => tset v (if v = vc then 0 else tget 0 v t + 1) t) q.passed
      let s := s.setPort p { q with
        outq := tset vc rest q.outq, under := some (m, packetBytes m), passed
        spent := tset vc (tget 0 vc q.spent + packetFlits m.hdr) q.spent }
      match k.ring with
      | some key => ringFree key (ringUnits k.pkt) s
      | none => s

/-- Lay up to n flits into the block with number `seq`: the packet under way goes on, then the next one starts (R193). -/
def layFlits : Nat → Nat → BitVec 10 → Bytes → State → Bytes × State
  | 0, _, _, acc, s => (acc, s)
  | n + 1, p, seq, acc, s =>
    let s := if (s.port p).under.isNone then startPacket p s else s
    let q := s.port p
    match q.under with
    | none => (acc, s)
    | some (k, b) =>
      let rest := b.drop 32
      let q := if rest.isEmpty then { q with under := none, flight := q.flight ++ [(seq, k)] } else { q with under := some (k, rest) }
      layFlits n p seq (acc ++ b.take 32) (s.setPort p q)

/-- Class of the packet at the head of a block's flits, for fault injection. -/
def blockClass (q : FPort) : Nat :=
  match q.under with
  | some (k, _) => pkClass k.hdr
  | none => match vcTurn q with
    | some v => v / 2
    | none => 0

/-- A data block: flits laid, kept for retry, and put on the wire; mode 1 of fault injection withholds it where its class is set:
every data block is a unit (R195, R221). -/
def sendBlock (p : Nat) (s : State) : State :=
  let q := s.port p
  let cls := blockClass q
  let seq := q.txSeq
  let (flits, s) := layFlits 8 p seq [] s
  let q := s.port p
  let x := q.inject
  let (hit, _, y) := if x.mode = 1 then injectUnit x p 0 else (false, 0, x)
  let hit := hit && x.classes.testBit cls
  let s := s.setPort p { q with
    txSeq := seq + 1, unacked := q.unacked ++ [(seq, fitBytes 256 flits, s.beat)], inject := y }
  if hit then s.count Obj.fiEvents 1 else putBlock p 0 seq.toNat flits s

/-- A block is resent (R195). -/
def resendBlock (p : Nat) (a : BitVec 10) (rest : List (BitVec 10)) (s : State) : State :=
  let q := s.port p
  match q.unacked.find? (fun x => x.1 == a) with
  | none => s.setPort p { q with resend := rest }
  | some (_, flits, _) =>
    let s := s.setPort p { q with
      resend := rest, unacked := q.unacked.map (fun x => if x.1 = a then (a, flits, s.beat) else x) }
    putBlock p 0 a.toNat flits (s.count Obj.linkBlocksReplayed 1)

/-! BEAT_SYNC records (R261, R262, R297). -/

/-- The module belongs to an ensemble (R297). -/
def inEnsemble (s : State) : Bool := s.obj Obj.ensSize != 1

/-- Nodes of the member table, in table order (R297). -/
def memberNodes (s : State) : List Nat :=
  (List.range ((s.objB Obj.ensMemberTable).length / 24)).map (fun i => leAt (s.objB Obj.ensMemberTable) (24 * i) 2)

/-- Lowest node of a list, 0xFFFF of none. -/
def lowestNode (l : List Nat) : Nat := l.foldl min 0xFFFF

/-- `sync_reference_node`: the table's lowest node in an ensemble, the written value outside one (R262, R297). -/
def refNode (s : State) : Nat := if inEnsemble s then lowestNode (memberNodes s) else s.obj Obj.syncReferenceNode

/-- The module is its own reference (R262). -/
def isReference (s : State) : Bool := refNode s == s.fabric.node.toNat

/-- Stamp of the present count, in 1/65,536 ns. -/
def stampNow (s : State) : Nat := 65536 * s.beat + (s.time.frac * 65536 / 10000).toNat

/-- Hops of this module from its reference node: 0 at the reference, the upstream's plus 1 while it follows FABRIC, and 0xFF while
it is not synchronised to the reference (R261, R262). -/
def ownHops (s : State) : Nat := if isReference s then 0 else if s.time.source = 3 then s.time.hops else 0xFF

/-- The BEAT_SYNC record that a port sends now (R261, R262). -/
def syncRecord (s : State) (p : Nat) : SyncRec :=
  { flags := BitVec.ofNat 8 ((if s.time.anchored ≠ 0 then 1 else 0) + (if s.time.anchored = 2 then 2 else 0)
      + (if s.time.state = 2 then 4 else 0))
    refNode := BitVec.ofNat 16 (refNode s), hops := BitVec.ofNat 8 (ownHops s)
    source := BitVec.ofNat 8 s.time.source, utcOff := BitVec.ofNat 16 (s.obj Obj.utcOffsetS), t3 := stampNow s
    t1 := (s.port p).syncT3, t2 := (s.port p).syncT4
    error := if isReference s then 0 else if ownHops s = 0xFF then 0xFFFF else BitVec.ofNat 16 s.time.bound }

/-- The 256 bytes of a BEAT_SYNC record (R261): a stamp is its beat, then its fraction. -/
def syncBytes (r : SyncRec) : Bytes :=
  let stamp (t : Nat) : Bytes := leBytes 8 (t / 65536) ++ leBytes 2 (t % 65536)
  fitBytes 256 (leBytes 1 0x03 ++ [r.flags] ++ leBytes 2 r.refNode.toNat ++ [r.hops] ++ [r.source] ++ leBytes 2 r.utcOff.toNat
    ++ stamp r.t3 ++ stamp r.t1 ++ stamp r.t2 ++ leBytes 2 r.error.toNat)

/-- The record of a control block that leaves: a BEAT_SYNC takes its stamp and an ECHO its beat now (R192, R261). -/
def fillRecord (s : State) (p : Nat) (c : Bytes) : Bytes :=
  if c = [0x03] then syncBytes (syncRecord s p)
  else if c = [0x04] then fitBytes 256 (leBytes 1 0x04 ++ leBytes 8 s.beat)
  else c

/-- A control record leaves a port. -/
def sendRecord (p : Nat) (c : Bytes) (rest : List Bytes) (s : State) : State :=
  let q := s.port p
  putBlock p 2 q.txSeq.toNat (fillRecord s p c)
    (s.setPort p { q with ctrlq := rest, echo := if c = [0x04] then some s.beat else q.echo })

/-- The choice of one block time of a port that is up: a due retransmission, a control record, a data block, an idle block
(R195). In Boot and Held no packets go, first or again (R191, R286); a throttled rim die idles every second block (R332). -/
def blockChoice (p : Nat) (s : State) : State :=
  let q := s.port p
  if q.skip ∧ q.even then putBlock p 1 q.txSeq.toNat [] (s.setPort p { q with even := false })
  else
    let s := s.setPort p { q with even := true }
    let again := if carries s then q.resend else []
    match again, q.ctrlq with
    | a :: r, _ => resendBlock p a r s
    | [], c :: r => sendRecord p c r s
    | [], [] =>
      if q.unacked.length < 512 ∧ carries s ∧ (q.under.isSome ∨ (vcTurn q).isSome) then sendBlock p s
      else putBlock p 1 q.txSeq.toNat [] s

/-- BLOCK_TIME: one block time of a port's transmitter (R192, R195); a port in training offers until it has an offer, then
accepts (R191). -/
def execBlockTime (p : PortId) (s : State) : Out :=
  let q := s.port p
  if q.state = 1 then
    if !q.offerGot then .next (putBlock p 2 q.txSeq.toNat (trainBytes s 0x01 p) s)
    else if !q.acceptSent then
      .next (portUp p (putBlock p 2 q.txSeq.toNat (trainBytes s 0x02 p) (s.setPort p { q with acceptSent := true })))
    else .next (putBlock p 1 q.txSeq.toNat [] s)
  else if q.state = 2 then .next (blockChoice p s)
  else .next s

/-! Receiving (R192 to R195). -/

/-- Bytes of a block: control word, then flit space. -/
def blockBytes (ctl : BitVec 80) (flits : Bytes) : Bytes := bvBytes ctl ++ fitBytes 256 flits

/-- Invert bit b of a block (R221 mode 2). -/
def flipBlock (b : Nat) (ctl : BitVec 80) (flits : Bytes) : BitVec 80 × Bytes :=
  if b < 80 then (ctl ^^^ BitVec.ofNat 80 (2 ^ b), flits)
  else
    let f := fitBytes 256 flits
    let i := (b - 80) / 8
    (ctl, lset i (f.getD i 0 ^^^ BitVec.ofNat 8 (2 ^ (b % 8))) f)

/-- Class of the first packet whose header starts a block's flit space, or of the packet still arriving. -/
def arrivingClass (q : FPort) (flits : Bytes) : Nat :=
  bitsAt (if q.partial_.isEmpty then leAt flits 0 1 else leAt q.partial_ 0 1) 4 2

/-- Place a block's flits: packets back to back, a null flit ends them (R193). -/
def placeFlits : Nat → Nat → Bytes → State → State
  | 0, _, _, s => s
  | n + 1, p, b, s =>
    let q := s.port p
    if q.partial_.isEmpty ∧ leAt b 0 1 % 16 = 0 then s
    else
      let got := q.partial_ ++ b.take 32
      let k := flitPacket got
      let s :=
        if got.length < 32 * packetFlits k.hdr then s.setPort p { q with partial_ := got }
        else
          let vc := pkVc k.hdr
          s.setPort p { q with partial_ := [], inq := tset vc (tget [] vc q.inq ++ [k]) q.inq }
      placeFlits n p (b.drop 32) s

/-- An ack covers the data blocks up to its number; progress starts the count of timeouts anew (R195). -/
def blockAck (p a : Nat) (s : State) : State :=
  let q := s.port p
  match (List.range q.unacked.length).find? (fun i => (q.unacked.map (fun x => x.1.toNat)).getD i 1024 == a) with
  | none => s
  | some i =>
    let done := (q.unacked.take (i + 1)).map (·.1)
    s.setPort p { q with
      unacked := q.unacked.drop (i + 1), timeouts := 0, resend := q.resend.filter (fun x => !done.contains x)
      flight := q.flight.filter (fun x => !done.contains x.1) }

/-- A credit counter arrives: flits freed since training, mod 4,096 (R192, R194). -/
def blockCredit (p vc v : Nat) (s : State) : State :=
  let q := s.port p
  let seen := tget 0 vc q.granted
  s.setPort p { q with granted := tset vc (seen + (v + 4096 - seen % 4096) % 4096) q.granted }

/-- DATA_BLOCK: the block is checked, its ack and credit counter taken, and a data block in sequence is accepted and its flits
placed (R192 to R195). In Boot and Held the port carries no packets and takes none in (R191, R286). Mode 2 of fault injection inverts one bit
before the check (R221). -/
def execDataBlock (p : PortId) (ctl : BitVec 80) (flits : Bytes) (s : State) : Out :=
  let q := s.port p
  if q.state ≠ 2 then .next s
  else
    let flits := fitBytes 256 flits
    let x := q.inject
    let (hit, w, y) := if x.mode = 2 ∧ fieldAt ctl 0 2 = 0 then injectUnit x p 0 else (false, 0, x)
    let hit := hit && x.classes.testBit (arrivingClass q flits)
    let s := s.setPort p { q with inject := y }
    let s := if hit then s.count Obj.fiEvents 1 else s
    let (ctl, flits) := if hit then flipBlock (w % 2128) ctl flits else (ctl, flits)
    if fieldAt ctl 48 32 ≠ crc32c (leBytes 6 ctl.toNat ++ flits) then .next (s.count Obj.linkCrcErrors 1)
    else
      let s := blockAck p (fieldAt ctl 12 10) s
      let s := blockCredit p (fieldAt ctl 22 3) (fieldAt ctl 25 12) s
      let q := s.port p
      if fieldAt ctl 0 2 ≠ 0 ∨ fieldAt ctl 2 10 ≠ q.rxSeq.toNat ∨ !carries s then .next s
      else
        let s := s.setPort p { q with rxAck := q.rxSeq, rxSeq := q.rxSeq + 1 }
        .next (placeFlits 8 p flits s)

/-- LINK_RETRY_TIMEOUT: 2 µs without an ack for the oldest block: everything unacknowledged goes again; the eighth time in
succession the port retrains (R195). Where nothing is resent nothing times out (R191, R286). -/
def execLinkRetryTimeout (p : PortId) (s : State) : Out :=
  let q := s.port p
  match q.unacked with
  | [] => .next s
  | (a, _, at_) :: _ =>
    if q.state ≠ 2 ∨ !carries s ∨ q.resend.contains a ∨ s.beat < at_ + 2000 then .next s
    else
      let s := s.count Obj.linkRetryTimeouts 1
      if q.timeouts = 7 then
        let s := countLog Obj.portRetrains 0 0 (rimSite (portDir p)) p [] s
        .next (retrainPort p s)
      else .next (s.setPort p { q with timeouts := q.timeouts + 1, resend := q.unacked.map (·.1) })

/-- The packets that a port still holds for its neighbour: those of its retry buffer, the one under way, its output queues,
with the transit ring each stands in. -/
def heldPackets (q : FPort) : List OutPkt :=
  q.flight.map (fun x => { pkt := x.2 }) ++ (match q.under with
    | some (k, _) => [{ pkt := k }]
    | none => []) ++ (List.range 8).flatMap (fun v => tget [] v q.outq)

/-- A port goes down or is disabled: its link state is dropped (R195, R204). -/
def dropPort (p new : Nat) (s : State) : State :=
  let s := enterPort p new s
  s.setPort p { s.port p with
    outq := [], under := none, flight := [], ctrlq := [], unacked := [], resend := [], timeouts := 0, retrainAt := none, echo := none
    partial_ := [], tried := s.beat, sync := none }

end Sys2Proof.Machine
end

