-- ==== Sys2Proof/Machine/FabricRoute.lean ====
section
/-! DEFINITION. The fabric router (R198 to R213, R217 to R220): route banks, port choice, datelines, transit rings, path-lost,
pacing, and the change of routes. -/

namespace Sys2Proof.Machine

/-! Where a packet goes (R201, R202). -/

/-- A router's choice: local delivery, a port, or no usable output. -/
inductive Way where
  | here
  | out (p : Nat)
  | lost
  deriving DecidableEq, Repr

/-- Index of a node in tables and masks: 16 × y + x (R201). -/
def nodeIndex (n : Nat) : Nat := n % 256

/-- Entry of a module's table in a bank for a destination. -/
def routeEntry (b : RouteSet) (at_ dest : Nat) : W16 := (tget [] (nodeIndex at_) b.tables).getD (nodeIndex dest) 7

/-- The k-th allowed port of a direction that is up, k = (src.x + src.y + class) mod their number (R201). -/
def portPick (s : State) (h : BitVec 256) (d mask : Nat) : Way :=
  let ports := ((List.range 4).filter (fun i => mask.testBit i && (s.port (4 * d + i)).state == 2)).map (fun i => 4 * d + i)
  if ports.isEmpty then .lost
  else .out (ports.getD ((nodeX (pkSrc h) + nodeY (pkSrc h) + pkClass h) % ports.length) 0)

/-- Way of a packet by the bank its epoch names (R201, R204). -/
def tableWay (s : State) (h : BitVec 256) : Way :=
  if !s.fabric.bankValid.getD (pkEpoch h) false then .lost
  else
    let e := (routeEntry (tget {} (pkEpoch h) s.fabric.banks) s.fabric.node.toNat (pkDest h)).toNat
    if e % 8 = 4 then .here else if 4 < e % 8 then .lost else portPick s h (e % 8) (bitsAt e 3 4)

/-- Ops that no table routes (R213, R216). -/
def straightOp (h : BitVec 256) : Bool := pkOp h == fMCAST || pkOp h == fCPART

/-- A link out of a node in a direction crosses the dateline of its ring (R202). -/
def crossesDateline (w h n d : Nat) : Bool :=
  if d = 0 then nodeX n == w - 1 else if d = 1 then nodeX n == 0 else if d = 2 then nodeY n == h - 1 else nodeY n == 0

/-- Dateline bit after a turn from one direction of travel into another (R202). -/
def turnDl (inDir : Option Nat) (d dl : Nat) : Nat :=
  match inDir with
  | none => 0
  | some e => if e / 2 = d / 2 then dl else 0

/-! Counts of an epoch (R219). -/

/-- A packet ends here: delivered, discarded or answered path-lost. -/
def countEnd (h : BitVec 256) (s : State) : State :=
  { s with fabric := { s.fabric with
    delivered := tset (pkEpoch h) (tget 0 (pkEpoch h) s.fabric.delivered + 1) s.fabric.delivered } }

/-- A packet of an epoch is injected. -/
def countStart (epoch : Nat) (s : State) : State :=
  { s with fabric := { s.fabric with injected := tset epoch (tget 0 epoch s.fabric.injected + 1) s.fabric.injected } }

/-- A packet reaches local memory handling at a rim die (R201). -/
def deliverLocal (site : Nat) (k : Packet) (s : State) : State :=
  (countEnd k.hdr s).emit (.deliver (if 25 ≤ site then 4 * (site - 25) else 0) k)

/-! Output queues and transit rings (R206, R221). -/

/-- A packet joins a port's output queue, its dateline bit set where the link crosses the dateline (R202). Modes 3 and 4 of fault
injection act here: it changes places with the packet ahead of it, or is removed (R221). -/
def joinQueue (p : Nat) (k : Packet) (ring : Option Nat) (s : State) : State :=
  let k := if crossesDateline s.fabric.width s.fabric.height s.fabric.node.toNat (portDir p) then
      { k with hdr := putField k.hdr 6 1 1 } else k
  let q := s.port p
  let vc := pkVc k.hdr
  let l := tget [] vc q.outq
  let x := q.inject
  let (hit, _, y) := if x.mode = 3 ∨ x.mode = 4 then injectUnit x p 0 else (false, 0, x)
  let hit := hit && x.classes.testBit (pkClass k.hdr)
  if hit ∧ x.mode = 4 then
    let s := countEnd k.hdr ((s.setPort p { q with inject := y }).count Obj.fiEvents 1)
    match ring with
    | some key => ringFree key (ringUnits k) s
    | none => s
  else if hit ∧ !l.isEmpty then
    (s.setPort p { q with inject := y, outq := tset vc (l.dropLast ++ [{ pkt := k, ring }] ++ l.drop (l.length - 1)) q.outq }).count Obj.fiEvents 1
  else s.setPort p { q with inject := y, outq := tset vc (l ++ [{ pkt := k, ring }]) q.outq }

/-- Key of a transit ring. -/
def ringKey (recv src vc : Nat) : Nat := 256 * recv + 8 * src + vc

/-- Write waiting packets into a ring while it has room for all their units (R206). -/
def ringDrain : Nat → Nat → State → State
  | 0, _, s => s
  | fuel + 1, key, s =>
    let f := s.fabric
    match tget [] key f.ringWait with
    | [] => s
    | k :: rest =>
      let sent := tget 0 key f.ringSent
      let units := ringUnits k
      if 128 < sent + units - tget 0 key f.ringCred then s
      else
        let recv := key / 256
        let src := key % 256 / 8
        let s := { s with fabric := { f with
          ringWait := tset key rest f.ringWait, ringSent := tset key (sent + units) f.ringSent } }
        let base := 0x2000000000 + 8192 * (8 * ringIndex recv src + key % 8)
        let bytes := fitBytes (64 * units) (packetBytes k)
        let s := (List.range units).foldl (fun s i =>
          sendWrite 2 src recv (base + 64 * ((sent + i) % 128)) ((bytes.drop (64 * i)).take 64) none none s) s
        ringDrain fuel key s

/-- A packet goes into the ring of another rim die or the hub (R206). -/
def ringSend (recv src : Nat) (k : Packet) (s : State) : State :=
  let key := ringKey recv src (pkVc k.hdr)
  let f := s.fabric
  ringDrain 64 key { s with fabric := { f with ringWait := tset key (tget [] key f.ringWait ++ [k]) f.ringWait } }

/-- A packet leaves for a port from the site where it stands: into the port's queue at its own rim die, by the direct string
where (src.x + src.y + class) mod 3 = 0, through the hub otherwise, and straight from the hub (R206). -/
def sendOut (site p : Nat) (inDir : Option Nat) (k : Packet) (s : State) : State :=
  let h := putField k.hdr 6 1 (turnDl inDir (portDir p) (pkDl k.hdr))
  let k := { k with hdr := h }
  let rim := rimSite (portDir p)
  if site = rim then joinQueue p k none s
  else if site = hubSite then ringSend rim hubSite k s
  else if (nodeX (pkSrc h) + nodeY (pkSrc h) + pkClass h) % 3 = 0 then ringSend rim site k (s.count Obj.transitDirect 1)
  else ringSend hubSite site k (s.count Obj.transitHub 1)

/-! Injection (R198, R200, R202). -/

/-- Stamp a packet: the active epoch, the next sequence number of its flow, the header check; injected packets are counted for
the drain (R219). -/
def stampPacket (k : Packet) (s : State) : Packet × State :=
  let f := s.fabric
  let key := 4 * pkDest k.hdr + pkClass k.hdr
  let seq := tget 0 key f.seqOut
  let h := sealHeader (putField (putField k.hdr 7 1 f.epoch) 136 16 seq.toNat)
  ({ k with hdr := h }, countStart f.epoch { s with fabric := { f with seqOut := tset key (seq + 1) f.seqOut } })

/-- Send a stamped packet on its way: to local memory, out of a port, or counted as lost where the tables give no way (R201). -/
def injectStamped (site : Nat) (k : Packet) (s : State) : State :=
  match tableWay s k.hdr with
  | .here => deliverLocal site k s
  | .out p => sendOut site p none k s
  | .lost => (countEnd k.hdr s).count Obj.fabricPathLost 1

/-- Inject a Reply at a site; without a usable output it is discarded and counted (R204). -/
def injectReply (site : Nat) (k : Packet) (s : State) : State :=
  injectStamped site (stampPacket k s).1 (stampPacket k s).2

/-- Answer a packet: a reply to its source with its job, tag and congestion mark (R198, R211). -/
def replyTo (site op offset length a b : Nat) (payload : Bytes) (h : BitVec 256) (s : State) : State :=
  injectReply site
    { hdr := fabricHdr op (pkSrc h) s.fabric.node.toNat (pkJob h) offset length (pkCmark h) (pkTag h) a b 0, payload } s

/-- STATUS for a packet (R199). -/
def replyStatus (site status code : Nat) (h : BitVec 256) (s : State) : State :=
  replyTo site fSTATUS (pkOffset h) 1 status code [] h s

/-- A packet with no usable output leaves the network: a Request or Forward packet is answered path-lost, others are counted
(R204). -/
def packetLost (site : Nat) (k : Packet) (s : State) : State :=
  let s := countEnd k.hdr s
  if pkClass k.hdr ≤ 1 then replyStatus site 0x01 0 k.hdr s else s.count Obj.fabricPathLost 1

/-- A packet goes its way from a site. -/
def followWay (site : Nat) (inDir : Option Nat) (k : Packet) (w : Way) (s : State) : State :=
  match w with
  | .here => deliverLocal site k s
  | .out p => sendOut site p inDir k s
  | .lost => packetLost site k s

/-- Direction of a packet that no table routes, at its source: of MCAST_PUT in spec_a (R213). -/
def mcastDir (h : BitVec 256) : Nat := bitsAt (pkSpecA h) 4 2

/-- Inject a packet at a site: MCAST_PUT leaves straight in its direction (R213). -/
def injectPacket (site : Nat) (k : Packet) (s : State) : State :=
  let (k, s) := stampPacket k s
  if pkOp k.hdr = fMCAST then
    followWay site none k (portPick s k.hdr (mcastDir k.hdr) 0xF) (s.count Obj.mcastPackets 1)
  else followWay site none k (tableWay s k.hdr) s

/-! Rate control (R212). -/

/-- A new rate entry. -/
def newRate (s : State) (d : W16) : RateEnt :=
  { dest := d, rate := s.obj Obj.ccFirstRate, tokens := 4096 * 25600, lastDec := (s.beat : Int) - 2000, lastMark := s.beat
    filled := s.beat, used := s.beat }

/-- Drop the least recently used of 256 entries. -/
def evictRate (l : List RateEnt) : List RateEnt :=
  if l.length < 256 then l
  else
    let oldest := l.foldl (fun m e => min m e.used) ((l.map (·.used)).headD 0)
    match l.find? (fun e => e.used == oldest) with
    | some e => l.erase e
    | none => l

/-- Tokens of an entry at a beat: rate / 256 × 96.24 bytes for each nanosecond, up to 4,096. -/
def refill (now : Nat) (e : RateEnt) : RateEnt :=
  { e with tokens := min (4096 * 25600) (e.tokens + e.rate * 9624 * (now - e.filled)), filled := now }

/-- The rate entry of a destination, allocated at the first packet to it. -/
def rateEntry (d : W16) (s : State) : RateEnt × State :=
  match s.fabric.rates.find? (fun e => e.dest == d) with
  | some e =>
    let e := { refill s.beat e with used := s.beat }
    (e, { s with fabric := { s.fabric with rates := s.fabric.rates.map (fun x => if x.dest = d then e else x) } })
  | none =>
    let e := newRate s d
    (e, { s with fabric := { s.fabric with rates := evictRate s.fabric.rates ++ [e] } })

/-- The entry of a destination lets a packet go. -/
def rateAllows (d : W16) (s : State) : Bool := 0 ≤ (rateEntry d s).1.tokens

/-- Bytes are spent at a destination's entry. -/
def rateSpend (d : W16) (bytes : Nat) (s : State) : State :=
  let (e, s) := rateEntry d s
  let e := { e with tokens := e.tokens - 25600 * (bytes : Int) }
  { s with fabric := { s.fabric with rates := s.fabric.rates.map (fun x => if x.dest = d then e else x) } }

/-- Paced packets: Request and Forward, route control excepted (R212). -/
def isPaced (h : BitVec 256) : Bool := pkClass h ≤ 1 && pkOp h != fQUERY && pkOp h != fRELEASE

/-- Packets that wait for their rate entry go, in order, as entries allow. -/
def drainPaced : Nat → State → State
  | 0, s => s
  | fuel + 1, s =>
    let rec first (seen : List Nat) : List (Nat × Nat × Packet) → Option (Nat × Nat × Packet)
      | [] => none
      | x :: r =>
        let d := pkDest x.2.2.hdr
        if !seen.contains d && rateAllows (BitVec.ofNat 16 d) s then some x else first (d :: seen) r
    match first [] s.fabric.paced with
    | none => s
    | some x =>
      let s := { s with fabric := { s.fabric with paced := s.fabric.paced.erase x } }
      let s := rateSpend (BitVec.ofNat 16 (pkDest x.2.2.hdr)) (32 + x.2.2.payload.length + x.2.1) s
      drainPaced fuel (injectPacket x.1 x.2.2 s)

/-- Send a packet to its destination: a paced one waits until its entry has tokens (R212). `reply` is the reply bytes that a LOAD
or GET asks for. -/
def sendPaced (site reply : Nat) (k : Packet) (s : State) : State :=
  if !isPaced k.hdr then injectPacket site k s
  else
    let s := { s with fabric := { s.fabric with paced := s.fabric.paced ++ [(site, reply, k)] } }
    drainPaced (s.fabric.paced.length + 1) s

/-- A reply from a node echoes a mark: the rate falls at most once in 2 µs (R212). -/
def noteEcho (h : BitVec 256) (s : State) : State :=
  let m := pkCecho h
  let d : W16 := BitVec.ofNat 16 (pkSrc h)
  if m = 0 then s
  else
    match s.fabric.rates.find? (fun e => e.dest == d) with
    | none => s
    | some e =>
      let e := { refill s.beat e with lastMark := s.beat }
      let cut : Bool := decide (e.lastDec + 2000 ≤ (s.beat : Int))
      let rate := max 1 (if m = 1 then e.rate * 7 / 8 else if m = 2 then e.rate * 3 / 4 else e.rate / 2)
      let e := if cut then { e with rate, lastDec := s.beat } else e
      let s := { s with fabric := { s.fabric with rates := s.fabric.rates.map (fun x => if x.dest = d then e else x) } }
      if cut then s.count Obj.ccDecreases 1 else s

/-- RATE_INCREASE_TICK: every 4 µs, entries unmarked for 4 µs rise by the step (R212), and packets that waited go. -/
def execRateIncreaseTick (s : State) : Out :=
  if s.beat < s.fabric.rateBeat + 4000 then .next s
  else
    let step (e : RateEnt) : RateEnt :=
      let e := refill s.beat e
      if e.lastMark + 4000 ≤ s.beat then { e with rate := min 256 (e.rate + s.obj Obj.ccIncreaseStep) } else e
    let s := { s with fabric := { s.fabric with rates := s.fabric.rates.map step, rateBeat := s.beat } }
    .next (drainPaced (s.fabric.paced.length + 1) s)

/-! Arrival (R200). -/

/-- The checks of R200 on a header. -/
def headerGood (s : State) (h : BitVec 256) : Bool :=
  pkCheck h == headerCheck h && pkVersion h == 1 && fabricClass (pkOp h) == some (pkClass h)
    && fieldAt h 13 3 == 0 && fieldAt h 108 4 == 0 && fieldAt h 216 8 == 0 && pkDest h / 256 == s.fabric.node.toNat / 256

/-- A packet that stands at the head of a port's receive buffer leaves it, and its flits are freed (R194); `none` where it does
not stand there. -/
def takeIn (p : Nat) (k : Packet) (s : State) : Option State :=
  let q := s.port p
  let vc := pkVc k.hdr
  match tget [] vc q.inq with
  | x :: rest =>
    if x = k then
      some (s.setPort p { q with
        inq := tset vc rest q.inq, freed := tset vc (tget 0 vc q.freed + packetFlits k.hdr) q.freed })
    else none
  | [] => none

/-- A packet fails the checks of R200. -/
def discardHeader (k : Packet) (s : State) : State := (countEnd k.hdr s).count Obj.fabricHeaderDiscards 1

/-- PACKET_ROUTE: the packet at the head of a receive buffer is checked and routed by its epoch's bank, or ends path-lost
(R200, R201, R204). MCAST_PUT and CPART take no table and have commands of their own. -/
def execPacketRoute (p : PortId) (pkt : Packet) (s : State) : Out :=
  match takeIn p pkt s with
  | none => .next s
  | some t =>
    if !headerGood s pkt.hdr then .next (discardHeader pkt t)
    else if straightOp pkt.hdr then .next s
    else .next (followWay (rimSite (portDir p)) (some (portDir p)) pkt (tableWay t pkt.hdr) t)

/-- A packet has come out of a transit ring at a rim die or the hub (R206): on to its port's queue, or from the hub to the rim die
of its direction. -/
def ringArrive (recv key : Nat) (k : Packet) (s : State) : State :=
  if recv = hubSite then
    let w := if pkOp k.hdr = fMCAST then portPick s k.hdr (mcastDir k.hdr) 0xF else tableWay s k.hdr
    let s := ringFree key (ringUnits k) s
    match w with
    | .out p => ringSend (rimSite (portDir p)) hubSite k s
    | .here => deliverLocal recv k s
    | .lost => packetLost recv k s
  else
    let d := recv - 25
    let mask := if straightOp k.hdr then 0xF
      else bitsAt (routeEntry (tget {} (pkEpoch k.hdr) s.fabric.banks) s.fabric.node.toNat (pkDest k.hdr)).toNat 3 4
    match portPick s k.hdr d mask with
    | .out p => joinQueue p k (some key) s
    | _ => packetLost recv k (ringFree key (ringUnits k) s)

/-- A WRITE into a transit ring (R206): units gather until the packet is whole. -/
def ringWrite (recv addr : Nat) (unit : Bytes) (s : State) : State :=
  let i := (addr - 0x2000000000) / 8192
  let key := ringKey recv (ringSource recv (i / 8)) (i % 8)
  let got := tget [] key s.fabric.ringIn ++ fitBytes 64 unit
  let k := flitPacket got
  if got.length < 64 * ringUnits k then { s with fabric := { s.fabric with ringIn := tset key got s.fabric.ringIn } }
  else ringArrive recv key k { s with fabric := { s.fabric with ringIn := terase key s.fabric.ringIn } }

/-- A WRITE to a transit credit word: the sender's rings have room again (R206). -/
def ringCredit (at_ addr : Nat) (v : Nat) (s : State) : State :=
  let i := (addr - 0x3000000000) / 8
  let key := ringKey (ringSource at_ (i / 8)) at_ (i % 8)
  ringDrain 64 key { s with fabric := { s.fabric with ringCred := tset key (max v (tget 0 key s.fabric.ringCred)) s.fabric.ringCred } }

/-- The packets a port holds end under R204 and its rings are freed; the link state goes (R195, R220). -/
def portFalls (p new : Nat) (s : State) : State :=
  let held := heldPackets (s.port p)
  held.foldl (fun s k =>
    let s := match k.ring with
      | some key => ringFree key (ringUnits k.pkt) s
      | none => s
    packetLost (rimSite (portDir p)) k.pkt s) (dropPort p new s)

/-- PORT_DOWN: a retrain not complete within 10 ms leaves the port down (R195, R203, R204). -/
def execPortDown (p : PortId) (s : State) : Out :=
  let q := s.port p
  match q.retrainAt with
  | some b => if q.state ≠ 2 ∧ b + 10000000 < s.beat then .next (portFalls p 0 s) else .next s
  | none => .next s

/-- Order of a flow at its destination (R200): a packet ahead of the expected number, or behind it, is counted. -/
def checkSeq (h : BitVec 256) (s : State) : State :=
  if pkDest h ≠ s.fabric.node.toNat then s
  else
    let key := 4 * pkSrc h + pkClass h
    let want := tget 0 key s.fabric.seqIn
    let got : W16 := BitVec.ofNat 16 (pkSeq h)
    let ahead := (got - want).toNat
    if 32768 ≤ ahead then s.count Obj.seqOutOfOrder 1
    else
      let s := { s with fabric := { s.fabric with seqIn := tset key (got + 1) s.fabric.seqIn } }
      if ahead = 0 then s else s.count Obj.seqGaps 1

/-- What every packet from a node shows: it is reachable (R230), and activated once it stamps the new epoch (R218). -/
def noteNode (h : BitVec 256) (s : State) : State :=
  let n : W16 := BitVec.ofNat 16 (pkSrc h)
  let s := { s with rmem := { s.rmem with unreachable := s.rmem.unreachable.filter (fun x => x.1 != n) } }
  if s.fabric.drain ∧ pkEpoch h = s.fabric.epoch ∧ !s.fabric.activated.contains n then
    { s with fabric := { s.fabric with activated := s.fabric.activated ++ [n] } }
  else s

/-- A packet of an op arrives for this module: checked, its order and its sender noted. The state if it is taken up, else the
state after its discard (R200). -/
def arriveHere (op : Nat) (k : Packet) (s : State) : Bool × State :=
  if pkOp k.hdr ≠ op then (false, s)
  else if !headerGood s k.hdr then (false, s.count Obj.fabricHeaderDiscards 1)
  else (true, noteNode k.hdr (checkSeq k.hdr s))

/-! Route sets (R201, R203, R217). -/

/-- Members of a set, ascending by 16 × y + x. -/
def members (r : RouteSet) : List Nat := bitList 256 r.member.toNat

/-- A route set from its bytes (DESIGN CHOICE: R201 gives no layout): 32 bytes of membership, the members' tables in ascending
order, 512 bytes each, then pairs of 4 bytes: node, input direction. -/
def parseRoutes (b : Bytes) : RouteSet :=
  let member : BitVec 256 := BitVec.ofNat 256 (leAt b 0 32)
  let ms := bitList 256 member.toNat
  let rest := b.drop (32 + 512 * ms.length)
  { member, digest := BitVec.ofNat 32 (crc32c b)
    tables := (List.range ms.length).map (fun i =>
      (ms.getD i 0, (List.range 256).map (fun j => BitVec.ofNat 16 (leAt b (32 + 512 * i + 2 * j) 2))))
    escape := (List.range (min 64 (rest.length / 4))).map (fun i => (nodeIndex (leAt rest (4 * i) 2), leAt rest (4 * i + 2) 1)) }

/-- The route from a member to another: nodes and the direction taken out of each; `none` where it does not arrive in `fuel` hops
without revisiting a node. -/
def walkRoute (s : State) (r : RouteSet) (dst : Nat) : Nat → Nat → List Nat → Option (List (Nat × Nat × W16))
  | fuel, n, seen =>
    let e := routeEntry r n dst
    let d := e.toNat % 8
    if n = dst then (if d = 4 then some [] else none)
    else
      match fuel with
      | 0 => none
      | fuel + 1 =>
        if 4 ≤ d ∨ bitsAt e.toNat 3 4 = 0 ∨ seen.contains n ∨ !r.member.getLsbD n then none
        else (walkRoute s r dst fuel (nodeIndex (nextNode s n d)) (n :: seen)).map (fun l => (n, d, e) :: l)

/-- A route's turns from a Y port onto an X port are all marked and listed (R203 step 2). -/
def escapesMarked (r : RouteSet) : List (Nat × Nat × W16) → Bool
  | (_, d, _) :: (n, d', e) :: l =>
    (if 2 ≤ d ∧ d' < 2 then e.getLsbD 7 && r.escape.contains (n, opposite d) else true) && escapesMarked r ((n, d', e) :: l)
  | _ => true

/-- Channels of a route: node, output direction, dateline bit (R202, R203 step 3). -/
def channels (s : State) : Option Nat → Nat → List (Nat × Nat × W16) → List (Nat × Nat × Nat)
  | _, _, [] => []
  | prev, dl, (n, d, _) :: l =>
    let dl := turnDl prev d dl
    let dl := if crossesDateline s.fabric.width s.fabric.height n d then 1 else dl
    (n, d, dl) :: channels s (some d) dl l

/-- Edges of a list of channels. -/
def channelEdges : List (Nat × Nat × Nat) → List ((Nat × Nat × Nat) × (Nat × Nat × Nat))
  | a :: b :: l => (a, b) :: channelEdges (b :: l)
  | _ => []

/-- A graph has no cycle: edges whose head has no edge of its own fall away until none is left. -/
def acyclic : Nat → List ((Nat × Nat × Nat) × (Nat × Nat × Nat)) → Bool
  | 0, l => l.isEmpty
  | fuel + 1, l =>
    let l' := l.filter (fun e => l.any (fun f => f.1 == e.2))
    l'.isEmpty || (l'.length < l.length && acyclic fuel l')

/-- Validation of a route set (R203): 0, or the error code that refuses it. -/
def validateRoutes (s : State) (r : RouteSet) : Nat :=
  let ms := members r
  let routes := ms.flatMap (fun a => ms.map (fun b => walkRoute s r b (s.fabric.width + s.fabric.height) a []))
  if routes.any (·.isNone) then 0x1205
  else
    let routes := routes.filterMap id
    if !routes.all (escapesMarked r) then 0x1501
    else
      let edges := (routes.flatMap (fun l => channelEdges (channels s none 0 l))).eraseDups
      if acyclic edges.length edges then 0 else 0x1501

/-- A set that passed becomes the inactive bank (R217). -/
def installRoutes (r : RouteSet) (s : State) : State :=
  let b := 1 - s.fabric.epoch
  let f := s.fabric
  { s with fabric := { f with
    banks := tset b r f.banks, bankValid := lset b true f.bankValid, injected := tset b 0 f.injected, delivered := tset b 0 f.delivered } }

/-- Digest of the inactive bank, 0 if it is invalid (R222). -/
def inactiveDigest (s : State) : W32 :=
  let b := 1 - s.fabric.epoch
  if s.fabric.bankValid.getD b false then (tget {} b s.fabric.banks).digest else 0

/-! Activation and drain (R218, R219). -/

/-- Members of the active set, as node numbers. -/
def activeMembers (s : State) : List Nat :=
  (members (tget {} s.fabric.epoch s.fabric.banks)).map (fun i => nodePod s.fabric.node.toNat * 256 + i)

/-- Some port of this module is up. -/
def anyPortUp (s : State) : Bool := (List.range 16).any (fun p => (s.port p).state == 2)

/-- Lowest member from a node on that may coordinate: this module only with a port up (R218). A pod of one module has none. -/
def coordinatorFrom (s : State) (n : Nat) : Nat :=
  ((activeMembers s).find? (fun m => n ≤ m && (m != s.fabric.node.toNat || anyPortUp s || (activeMembers s).length == 1))).getD 0xFFFF

/-- ROUTE_ACTIVATION: at B_A, where the inactive bank is the one that `route_activate_digest` names, the member stamps the new
epoch and begins to drain the old one (R218). -/
def execRouteActivation (s : State) : Out :=
  match s.fabric.activate with
  | none => .next s
  | some b =>
    if s.beat < b ∨ !s.fabric.bankValid.getD (1 - s.fabric.epoch) false
        ∨ s.obj Obj.routeActivateDigest ≠ (inactiveDigest s).toNat then .next s
    else
      let f := s.fabric
      let s := { s with fabric := { f with
        epoch := 1 - f.epoch, drain := true, activate := none, began := b, round := 0, reports := [], excluded := []
        zeroBeat := none, queried := s.beat, activated := [f.node], missed := [] } }
      let heard := (activeMembers s).map (fun m => (m, s.beat))
      .next { s with fabric := { s.fabric with heard, coord := BitVec.ofNat 16 (coordinatorFrom s 0) } }

/-- Old-epoch flits in receive buffers, those of a packet still arriving with them, output queues, retry buffers and transit rings
(R219). -/
def occupancy (s : State) (old : Nat) : Nat :=
  let mine (k : Packet) : Nat := if pkEpoch k.hdr = old then packetFlits k.hdr else 0
  let partOf (b : Bytes) : Nat := if !b.isEmpty ∧ pkEpoch (flitPacket b).hdr = old then b.length / 32 else 0
  let ports := (s.ports.map (fun (p : Nat × FPort) =>
    (((List.range 8).flatMap (fun v => tget [] v p.2.inq)).map mine).sum + partOf p.2.partial_
      + ((heldPackets p.2).map (fun k => mine k.pkt)).sum)).sum
  let waits := (s.fabric.ringWait.map (fun (p : Nat × List Packet) => (p.2.map mine).sum)).sum
  let rings := (s.fabric.ringIn.map (fun (p : Nat × Bytes) => mine (flitPacket p.2))).sum
  ports + waits + rings

/-- This module's report on an epoch: occupancy, injected, delivered. -/
def ownReport (s : State) (old : Nat) : Nat × Nat × Nat :=
  (occupancy s old, tget 0 old s.fabric.injected, tget 0 old s.fabric.delivered)

/-! Reply space (R207, R224). -/

/-- Tag of packets that cause no reply: those of the Collective class. -/
def noTag : Nat := 0xFFFF

/-- Queue of operations that no record waits for: send windows and route control. -/
def noQueue : Nat := 2 ^ 40

/-- A record that stands for an operation of no command queue (R207, R209). -/
def ownRecord (op dest off n : Nat) : BitVec 512 :=
  BitVec.ofNat 512 (op + (dest % 2 ^ 16) * 2 ^ 32 + (off % 2 ^ 44) * 2 ^ 64 + (n % 2 ^ 32) * 2 ^ 128)

/-- A tag that is neither in use nor in quarantine, the first from the counter on (R224, R230). -/
def freeRmemTag (s : State) : Option W16 :=
  let used := s.rmem.tracks.map (·.tag) ++ s.rmem.quarantine.map (·.1) ++ [BitVec.ofNat 16 noTag]
  ((List.range (min 65536 (used.length + 1))).map (fun i => s.rmem.nextTag + BitVec.ofNat 16 i)).find? (fun t => !used.contains t)

/-- The engine has a free tag and a free tracking entry: 4,096 for a module (R224). -/
def trackFree (s : State) : Bool := s.rmem.tracks.length < 4096 && (freeRmemTag s).isSome

/-- Take a tag and a tracking entry for an operation; the caller sees to it that they are free. -/
def takeTrack (queue : Nat) (r : BitVec 512) (left : Nat) (s : State) : W16 × State :=
  let tag := (freeRmemTag s).getD s.rmem.nextTag
  (tag, { s with rmem := { s.rmem with
    nextTag := tag + 1, tracks := s.rmem.tracks ++ [{ tag, queue, record := r, began := s.beat, left }] } })

/-- A packet that no record stands for leaves with reply space held for it (R207). -/
def sendHeld (site reply left : Nat) (k : Packet) (s : State) : State :=
  let (tag, s) := takeTrack noQueue (ownRecord (pkOp k.hdr) (pkDest k.hdr) (pkOffset k.hdr) (pkLength k.hdr)) left s
  sendPaced site reply { k with hdr := putField k.hdr 152 16 tag.toNat } s

/-- Packets that waited for reply space leave, in order, as it comes free (R207). -/
def drainUntagged : Nat → State → State
  | 0, s => s
  | fuel + 1, s =>
    match s.fabric.untagged with
    | [] => s
    | (site, reply, left, k) :: r =>
      if trackFree s then drainUntagged fuel (sendHeld site reply left k { s with fabric := { s.fabric with untagged := r } }) else s

/-- Send a packet once reply space is held for it (R207): `left` replies are to come. -/
def sendTracked (site reply left : Nat) (k : Packet) (s : State) : State :=
  let s := { s with fabric := { s.fabric with untagged := s.fabric.untagged ++ [(site, reply, left, k)] } }
  drainUntagged s.fabric.untagged.length s

/-- A route control packet from this module's hub. -/
def routeControl (op dest round : Nat) (s : State) : State :=
  sendTracked hubSite 0 1 { hdr := fabricHdr op dest s.fabric.node.toNat 0 0 1 0 0 0 round 0, payload := [] } s

/-- The old bank is invalid and the drain over at this member (R218 step 4). -/
def releaseBank (s : State) : State :=
  if !s.fabric.drain then s
  else
    let f := s.fabric
    ({ s with fabric := { f with
      bankValid := lset (1 - f.epoch) false f.bankValid, drain := false, coord := 0xFFFF, excluded := [], zeroBeat := none } }).count Obj.epochChanges 1

/-- The drain is done: every other member gets ROUTE_RELEASE (R218 step 4). -/
def drainDone (s : State) : State :=
  let own := s.fabric.node.toNat
  releaseBank ((activeMembers s).foldl (fun s m => if m = own then s else routeControl fRELEASE m s.fabric.round s) s)

/-- The coordinator judges its round (R219): every remaining member has answered with zero occupancy, and the totals agree, or,
with members excluded, a round 1 ms before showed the same. -/
def judgeDrain (s : State) : State :=
  let f := s.fabric
  let left := (activeMembers s).filter (fun m => !f.excluded.contains (BitVec.ofNat 16 m))
  let got := f.reports.filter (fun r => left.contains r.1.toNat)
  if !f.drain ∨ f.coord ≠ f.node ∨ !left.all (fun m => got.any (fun r => r.1.toNat == m)) then s
  else if got.any (fun r => r.2.1 != 0) then { s with fabric := { f with zeroBeat := none } }
  else if f.excluded.isEmpty then
    (if (got.map (fun r => r.2.2.1)).sum = (got.map (fun r => r.2.2.2)).sum then drainDone s else s)
  else
    match f.zeroBeat with
    | some b => if b + 1000000 ≤ f.roundBeat then drainDone s else s
    | none => { s with fabric := { f with zeroBeat := some f.roundBeat } }

/-- DRAIN_ROUND: from 20 µs after B_A, every 20 µs, the coordinator queries every member (R218, R219). -/
def execDrainRound (s : State) : Out :=
  let f := s.fabric
  if !f.drain ∨ f.coord ≠ f.node ∨ s.beat < f.began + 20000 ∨ (f.round ≠ 0 ∧ s.beat < f.roundBeat + 20000) then .next s
  else
    let own := f.node.toNat
    let round := (f.round + 1) % 65536
    let s := { s with fabric := { f with round, roundBeat := s.beat, queried := s.beat, reports := [(f.node, ownReport s (1 - f.epoch))] } }
    let others := (activeMembers s).filter (fun m => m != own && !f.excluded.contains (BitVec.ofNat 16 m))
    .next (judgeDrain (others.foldl (fun s m => routeControl fQUERY m round s) s))

/-- ROUTE_QUERY: a member answers with its counts of the epoch that the query's own epoch replaces (R219). -/
def execRouteQuery (p : PortId) (pkt : Packet) (s : State) : Out :=
  match arriveHere fQUERY pkt s with
  | (false, s) => .next s
  | (true, s) =>
    let s := { s with fabric := { s.fabric with queried := s.beat, coord := BitVec.ofNat 16 (pkSrc pkt.hdr) } }
    let (occ, inj, del) := ownReport s (1 - pkEpoch pkt.hdr)
    .next (replyTo (rimSite (portDir p)) fREPORT 0 32 0 (pkSpecB pkt.hdr)
      (fitBytes 32 (leBytes 4 occ ++ leBytes 8 inj ++ leBytes 8 del)) pkt.hdr s)

/-- ROUTE_REPORT: the coordinator collects a report of its round and judges (R219). -/
def execRouteReport (pkt : Packet) (s : State) : Out :=
  match arriveHere fREPORT pkt s with
  | (false, s) => .next s
  | (true, s) =>
    let tag : W16 := BitVec.ofNat 16 (pkTag pkt.hdr)
    let s := { s with rmem := { s.rmem with tracks := s.rmem.tracks.filter (fun t => !(t.tag == tag && t.queue == noQueue)) } }
    let s := drainUntagged s.fabric.untagged.length s
    let f := s.fabric
    if !f.drain ∨ f.coord ≠ f.node ∨ pkSpecB pkt.hdr ≠ f.round then .next s
    else
      let n : W16 := BitVec.ofNat 16 (pkSrc pkt.hdr)
      let b := pkt.payload
      .next (judgeDrain { s with fabric := { f with
        heard := tset n.toNat s.beat f.heard
        reports := f.reports.filter (fun r => r.1 != n) ++ [(n, leAt b 0 4, leAt b 4 8, leAt b 12 8)] } })

/-- ROUTE_RELEASE: a member marks the old bank invalid, ends its drain, and acknowledges (R208, R218). -/
def execRouteRelease (p : PortId) (pkt : Packet) (s : State) : Out :=
  match arriveHere fRELEASE pkt s with
  | (false, s) => .next s
  | (true, s) => .next (replyTo (rimSite (portDir p)) fACK 0 1 0 0 [] pkt.hdr (releaseBank s))

/-- SILENT_MEMBER_EXPIRY: a member silent for 10 ms is excluded from the drain (R219). -/
def execSilentMemberExpiry (node : W16) (s : State) : Out :=
  let f := s.fabric
  if !f.drain ∨ f.coord ≠ f.node ∨ node = f.node ∨ !(activeMembers s).contains node.toNat ∨ f.excluded.contains node
      ∨ s.beat < tget 0 node.toNat f.heard + 10000000 then .next s
  else .next (judgeDrain { s with fabric := { f with excluded := f.excluded ++ [node] } })

/-- COORDINATOR_TAKEOVER: 10 ms without the coordinator, the next lowest member takes the role (R219). -/
def execCoordinatorTakeover (s : State) : Out :=
  let f := s.fabric
  if !f.drain ∨ f.coord = f.node ∨ f.coord = 0xFFFF ∨ s.beat < f.queried + 10000000 then .next s
  else
    let next := coordinatorFrom s (f.coord.toNat + 1)
    .next { s with fabric := { f with
      coord := BitVec.ofNat 16 next, queried := s.beat, excluded := f.excluded ++ [f.coord], zeroBeat := none
      heard := (activeMembers s).map (fun m => (m, s.beat)) } }

/-- ACTIVATION_MISSED: a member not activated within 100 ms of B_A is logged by the coordinator (R218). -/
def execActivationMissed (node : W16) (s : State) : Out :=
  let f := s.fabric
  if !f.drain ∨ f.coord ≠ f.node ∨ !(activeMembers s).contains node.toNat ∨ f.activated.contains node ∨ f.missed.contains node
      ∨ s.beat < f.began + 100000000 then .next s
  else
    .next (logEvent Obj.routeDrainPending 0 0 0xFF 0 (leBytes 2 node.toNat)
      { s with fabric := { f with missed := f.missed ++ [node] } })

end Sys2Proof.Machine
end

