-- ==== Sys2Proof/Machine/Remote.lean ====
section
/-! DEFINITION. Remote memory (R223 to R231): the window table and what an admitted packet does at its target; the remote-operation
engine, its command and completion records, and the end of a record. Replies, which a gateway also takes, are in
Retriever.lean. -/

namespace Sys2Proof.Machine

/-! The window table (R227, R228). -/

def winJob (e : BitVec 256) : Nat := fieldAt e 0 16
def winPerm (e : BitVec 256) : Nat := fieldAt e 16 8
def winValid (e : BitVec 256) : Bool := (winPerm e).testBit 0
def winSite (e : BitVec 256) : Nat := fieldAt e 24 8
def winBase (e : BitVec 256) : Nat := fieldAt e 32 44
def winLimit (e : BitVec 256) : Nat := fieldAt e 80 44
def winTarget (e : BitVec 256) : Nat := fieldAt e 128 48

/-- Areas of R131 that a window may lie in: first address and size, for a compute or hub site; `locked` are the site's locked
partitions. -/
def siteAreas (site : Nat) (locked : List (Nat × Nat)) : List (Nat × Nat) :=
  if site = hubSite then [(0, 0x4000000)]
  else if (siteDie site).isSome then
    (List.range 4).map (fun c => (coreSramBase c, coreSramSize)) ++ [(dieSramBase, dieSramSize), (dramHomeBase, 0xC000000000)] ++ locked
  else []

/-- Locked partitions of a compute site as address ranges. -/
def lockedAreas (s : State) (site : Nat) : List (Nat × Nat) :=
  match siteDie site with
  | some d => (s.die d).parts.map (fun p => (sbBase + p.base * 2 ^ 20, p.mib * 2 ^ 20))
  | none => []

/-- The range lies within one area. -/
def inArea (areas : List (Nat × Nat)) (a n : Nat) : Bool := areas.any (fun x => x.1 ≤ a && a + n ≤ x.1 + x.2)

/-- A window entry that R227 allows by itself: base and limit multiples of 64, limit above base, and the target range within one
area of a compute or hub site, which for an atomic window is die-shared SRAM or hub SRAM. The Soundboard counts as one area. -/
def winEntryGood (e : BitVec 256) : Bool :=
  let n := winLimit e - winBase e
  let areas := siteAreas (winSite e) [(sbBase, 512 * 2 ^ 20)]
  let atomic := if winSite e = hubSite then areas else [(dieSramBase, dieSramSize)]
  !winValid e || (winBase e % 64 == 0 && winLimit e % 64 == 0 && decide (winBase e < winLimit e) && inArea areas (winTarget e) n
    && (!(winPerm e).testBit 3 || inArea atomic (winTarget e) n))

/-- Two valid entries of one job overlap. -/
def winOverlap (a b : BitVec 256) : Bool :=
  winValid a && winValid b && winJob a == winJob b && decide (winBase a < winLimit b) && decide (winBase b < winLimit a)

/-- Every entry of a list is well formed and no two overlap. -/
def winListGood : List (BitVec 256) → Bool
  | [] => true
  | e :: l => winEntryGood e && l.all (fun f => !winOverlap e f) && winListGood l

/-- A set of entries passes the rules of R227. -/
def winTableGood (t : Tab (BitVec 256)) : Bool := winListGood (t.map (fun (p : Nat × BitVec 256) => p.2))

/-- WINDOW_TABLE_EFFECT: 10 µs after its commit, the new table is in force in all four rim dies at once (R228, R231). -/
def execWindowTableEffect (s : State) : Out :=
  match s.rmem.next with
  | some (b, t) => if b ≤ s.beat then .next { s with rmem := { s.rmem with table := t, next := none } } else .next s
  | none => .next s

/-- What an access needs of its window. -/
inductive Need where
  | read | write | atomic | flag
  deriving DecidableEq, Repr

/-- Bit of `perm` that grants it (R227). -/
def Need.bit : Need → Nat
  | .read => 1
  | .write => 2
  | .atomic => 3
  | .flag => 4

/-- The first valid entry that admits the packet's job and range (R228). -/
def winFind (s : State) (job off n : Nat) : Option (BitVec 256) :=
  (s.rmem.table.map (fun (p : Nat × BitVec 256) => p.2)).find? (fun e =>
    winValid e && winJob e == job && decide (winBase e ≤ off) && decide (off + n ≤ winLimit e))

/-! Local memory (R131). -/

/-- How an access to a site's memory may fail (R228). -/
inductive MemFail where
  | refused | unreachable
  /-- An uncorrectable word is met, at this address of the site's map. -/
  | uncorrectable (addr : Nat)
  deriving DecidableEq, Repr

/-- A DRAM home address is owned by the die at the site (R118, R131). -/
def ownsPages (s : State) (die g n : Nat) : Bool :=
  (List.range ((g + n - 1) / 65536 - g / 65536 + 1)).all (fun i => tfind (g / 65536 + i) s.dram.owner == some die)

/-- The site can be reached from another: a path of strings, its tile not in reset, its die up (R119, R147). -/
def siteReachable (s : State) (src site : Nat) : Bool :=
  (src == site || (pathOf s src site 0).isSome) && (s.tile site).state != 2 &&
    (match siteDie site with
     | some d => dieUp s d
     | none => true)

/-- Bytes of a DRAM home range as its owner die sees them: the cached page, or the page's home with the stores that wait for
its fill (R118). -/
def homeBytes : Nat → State → Nat → Nat → Nat → Bytes
  | 0, _, _, _, _ => []
  | fuel + 1, s, die, g, n =>
    if n = 0 then []
    else
      let k := min n (65536 - g % 65536)
      let here := match cacheFind (s.die die) (g / 65536) with
        | some (e, x) => if x.valid then s.load (entryKey die e (g % 65536)) k else s.load (homeKey g) k
        | none => s.load (homeKey g) k
      let late := (s.die die).late
      let seen := (List.range k).map (fun i => late.foldl (fun b w =>
        if w.1 ≤ g + i ∧ g + i < w.1 + w.2.length then w.2.getD (g + i - w.1) b else b) (here.getD i 0))
      seen ++ homeBytes fuel s die (g + k) (n - k)

/-- Store bytes to a DRAM home range through the owner die's cache (R118). -/
def homeStore : Nat → Nat → Nat → Bytes → State → State
  | 0, _, _, _, s => s
  | fuel + 1, die, g, b, s =>
    if b.isEmpty then s
    else
      let k := min b.length (65536 - g % 65536)
      homeStore fuel die (g + k) (b.drop k) (cacheAccess die g (some (b.take k)) s)

/-- Why an access of n bytes of DRAM home addresses fails, page by page: its stack has failed, or the copy that is read, the cached
one or the home, holds a word in error (R112, R118, R186). Its address is a home address. -/
def homeFail (s : State) (d : Nat) : Nat → Nat → Nat → Option MemFail
  | 0, _, _ => none
  | fuel + 1, g, n =>
    if n = 0 then none
    else
      let k := min n (65536 - g % 65536)
      let here : Option MemFail := match cacheFind (s.die d) (g / 65536) with
        | some (e, x) =>
          if x.valid then (if rangeBad s (entryKey d e (g % 65536)) k then some (.uncorrectable (sbBase + 65536 * e + g % 65536)) else none)
          else if stackFailed s (pageStack (g / 65536)) then some .unreachable
          else if rangeBad s (homeKey g) k then some (.uncorrectable (dramHomeBase + g)) else none
        | none =>
          if stackFailed s (pageStack (g / 65536)) then some .unreachable
          else if rangeBad s (homeKey g) k then some (.uncorrectable (dramHomeBase + g)) else none
      match here with
      | some x => some x
      | none => homeFail s d fuel (g + k) (n - k)

/-- Why an access of n bytes at a site fails, if it does (R131, R228). -/
def memFail (s : State) (site addr n : Nat) : Option MemFail :=
  if !inArea (siteAreas site (lockedAreas s site)) addr n then some .refused
  else
    match siteDie site with
    | some d =>
      if dramHomeBase ≤ addr then
        let g := addr - dramHomeBase
        if !ownsPages s d g n then some .refused else homeFail s d (n / 65536 + 2) g n
      else if rangeBad s (memKey site addr) n then some (.uncorrectable addr) else none
    | none => if rangeBad s (memKey site addr) n then some (.uncorrectable addr) else none

/-- An uncorrectable word met by a read at a site is counted (R112, R186). -/
def readBad (site addr : Nat) (s : State) : State :=
  match siteDie site with
  | some _ => if dramHomeBase ≤ addr then uncorrectable (addr - dramHomeBase) s else sramBad site addr s
  | none => s

/-- A read of DRAM home addresses uses the owner die's cache, page by page (R118). -/
def touchHome : Nat → Nat → Nat → Nat → State → State
  | 0, _, _, _, s => s
  | fuel + 1, d, g, n, s =>
    if n = 0 then s
    else
      let k := min n (65536 - g % 65536)
      touchHome fuel d (g + k) (n - k) (cacheAccess d g none s)

/-- What a read at a site leaves behind: cache accesses, and corrected errors counted (R112, R118). -/
def siteTouch (site addr n : Nat) (s : State) : State :=
  match siteDie site with
  | some d => if dramHomeBase ≤ addr then touchHome (n / 65536 + 2) d (addr - dramHomeBase) n s else sramRead addr s
  | none => s

/-- Read n bytes at a site. -/
def siteRead (s : State) (site addr n : Nat) : Bytes :=
  match siteDie site with
  | some d => if dramHomeBase ≤ addr then homeBytes (n / 65536 + 2) s d (addr - dramHomeBase) n else s.load (memKey site addr) n
  | none => s.load (memKey site addr) n

/-- Write bytes at a site. -/
def siteWrite (site addr : Nat) (b : Bytes) (s : State) : State :=
  match siteDie site with
  | some d =>
    if dramHomeBase ≤ addr then homeStore (b.length / 65536 + 2) d (addr - dramHomeBase) b s else landWrite d (memKey site addr) b s
  | none => storeClean (memKey site addr) b s

/-! Admission (R228). -/

/-- Outcome of the window check: the site and address, or the status and error code of the answer. -/
abbrev Admit := Except (Nat × Nat) (Nat × Nat)

/-- WINDOW_CHECK: an arriving packet at rim die r is admitted or refused by the first matching entry (R228). A write without its
permission on an entry without read has no stated code: it is a free value. A read learns from its READ_REQ what the memory
itself answers. -/
def windowCheck (s : State) (rim : Nat) (h : BitVec 256) (n : Nat) (need : Need) : Admit :=
  match winFind s (pkJob h) (pkOffset h) n with
  | none => .error (0x03, 0x1205)
  | some e =>
    let addr := winTarget e + (pkOffset h - winBase e)
    let site := winSite e
    let has (b : Nat) : Bool := (winPerm e).testBit b
    if !has need.bit then
      .error (0x03, if need = .read then 0x1104 else if has 1 then 0x1103 else s.freeWord.toNat % 65536)
    else if (need = .atomic ∨ need = .flag) ∧ (pkOffset h % n ≠ 0 ∨ addr % n ≠ 0) then .error (0x03, 0x1204)
    else if !inArea (siteAreas site (lockedAreas s site)) addr n then .error (0x03, 0x1205)
    else if !siteReachable s (rimSite rim) site then .error (0x01, 0)
    else
      let rmw : Bool := need = .atomic ∨ need = .flag
      match memFail s site addr n with
      | some .refused => .error (0x03, 0x1205)
      | some .unreachable => if rmw then .error (0x01, 0) else .ok (site, addr)
      | some (.uncorrectable _) => if rmw then .error (0x02, 0) else .ok (site, addr)
      | none => .ok (site, addr)

/-- An atomic access that meets an uncorrectable word counts it (R112). -/
def noteBad (h : BitVec 256) (n : Nat) (s : State) : State :=
  match winFind s (pkJob h) (pkOffset h) n with
  | none => s
  | some e =>
    match memFail s (winSite e) (winTarget e + (pkOffset h - winBase e)) n with
    | some (.uncorrectable u) => readBad (winSite e) u s
    | _ => s

/-- A refused packet is answered; one the window table refused is counted (R228, R237). -/
def refuseAccess (rim : Nat) (h : BitVec 256) (x : Nat × Nat) (s : State) : State :=
  let s := if x.1 = 0x03 then s.count Obj.rmemRefusals 1 else s
  replyStatus (rimSite rim) x.1 x.2 h (s.drawn 1)

/-- A packet marked far reached this module (R233). -/
def isFar (h : BitVec 256) : Bool := (pkSpecB h).testBit 15

/-! What an admitted packet does (R225, R226). -/

/-- An access begins at a rim die. -/
def addOp (rim : Nat) (h : BitVec 256) (site addr : Nat) (read : Bool) (left : Nat) (s : State) : Nat × State :=
  let n := s.rmem.nextOp
  (n, { s with rmem := { s.rmem with nextOp := n + 1, ops := s.rmem.ops ++ [{ n, rim, hdr := h, site, addr, read, left }] } })

/-- Where the data of a read under a tag land at a rim die, above its map of R205 (DESIGN CHOICE, log entry 92). -/
def opLanding (tag : Nat) : Nat := 0x4000000000 + 4096 * tag

/-- The next READ_REQ of an access: at most 4,096 bytes, under a free reply tag; without one it waits (R130, R137, R225). -/
def readOn (x : RimOp) (s : State) : State :=
  match freeTags s (rimSite x.rim) with
  | tag :: _ => sendRead (rimSite x.rim) x.site (x.addr + x.got) (min x.left 4096) (opLanding tag) tag 1 x.n s
  | [] => s

/-- The access has a read under way. -/
def reading (s : State) (x : RimOp) : Bool := s.tags.any (fun t => t.purpose == 1 && t.arg == x.n)

/-- An access is over: a write is acknowledged, a failure answered with its status (R225, R228). -/
def endOp (x : RimOp) (s : State) : State :=
  let s := { s with rmem := { s.rmem with ops := s.rmem.ops.filter (fun y => y.n != x.n) } }
  match x.failed with
  | some f => refuseAccess x.rim x.hdr f s
  | none => if x.read then s else replyTo (rimSite x.rim) fACK (pkOffset x.hdr) 1 0 0 [] x.hdr s

/-- Accesses whose reply is due end, and reads that waited for a tag go on. -/
def settleOps : Nat → State → State
  | 0, s => s
  | fuel + 1, s =>
    match s.rmem.ops.find? (fun x => x.doneAt.any (fun b => decide (b ≤ s.beat))) with
    | some x => settleOps fuel (endOp x s)
    | none =>
      match s.rmem.ops.find? (fun x => x.read && x.doneAt.isNone && !reading s x) with
      | some x => if (freeTags s (rimSite x.rim)).isEmpty then s else settleOps fuel (readOn x s)
      | none => s

/-- Enough steps of `settleOps` for the accesses under way. -/
def opFuel (s : State) : Nat := 2 * s.rmem.ops.length + 1

/-- The data of an access's read have landed under a tag: a LOAD returns one LOAD_DATA, a GET packets of 1,024 bytes in ascending
offset, which is the position within the GET (R225); then the next read goes. -/
def opLanded (n tag : Nat) (s : State) : State :=
  match s.rmem.ops.find? (fun x => x.n == n) with
  | none => s
  | some x =>
    let site := rimSite x.rim
    let k := min x.left 4096
    let data := s.load (memKey site (opLanding tag)) k
    let s := if pkOp x.hdr = fLOAD then replyTo site fLOADDATA (pkOffset x.hdr) k 0 0 data x.hdr s
      else (List.range (ceilDiv k 1024)).foldl (fun s i =>
        let part := (data.drop (1024 * i)).take 1024
        replyTo site fGETDATA (x.got + 1024 * i) part.length 0 0 part x.hdr s) s
    let s := modOp n (fun y => { y with
      left := y.left - k, got := y.got + k, doneAt := if y.left ≤ k then some s.beat else y.doneAt }) s
    settleOps (opFuel s) s

/-- LOAD or GET at its target: read with READ_REQ (R225). -/
def localRead (rim : Nat) (h : BitVec 256) (s : State) : State :=
  let n := pkLength h
  match windowCheck s rim h n .read with
  | .error x => refuseAccess rim h x s
  | .ok (site, addr) => let s := (addOp rim h site addr true n s).2; settleOps (opFuel s) s

/-- WRITE frames of a range: one for each 64-byte unit it touches. -/
def writeFrames (addr n : Nat) : Nat := (addr + n - 1) / 64 - addr / 64 + 1

/-- STORE, PUT or MCAST_PUT at its target: the bytes go as WRITE frames, and the ACK waits until all of them are acknowledged on the
lightbed and 60 ns have passed (R225). -/
def localWrite (rim : Nat) (k : Packet) (s : State) : State :=
  let n := pkLength k.hdr
  match windowCheck s rim k.hdr n .write with
  | .error x => refuseAccess rim k.hdr x s
  | .ok (site, addr) =>
    let (op, s) := addOp rim k.hdr site addr false (writeFrames addr n) s
    let s := sendWrite (n + 1) (rimSite rim) site addr (fitBytes n k.payload) none (some (rimChan, op)) s
    settleOps (opFuel s) s

/-- Bytes of an atomic type (R224, R226). -/
def atomicWidth (ty : Nat) : Nat := if ty = 1 ∨ ty = 4 then 8 else 4

/-- The operation and type are a pair of R226. -/
def atomicPair (op ty : Nat) : Bool :=
  if op = 1 ∨ op = 2 then ty ≤ 2
  else if op = 3 ∨ op = 4 then ty ≤ 4
  else if op = 5 then ty ≤ 1
  else op == 6 && ty == 1

/-- The smaller or larger of two values of a type: signed, unsigned, or FP32 by VMAX and VMIN (R68, R226). -/
def atomicPick (larger : Bool) (ty : Nat) (a b : Nat) : Nat :=
  if ty = 2 then
    (if larger then f32Max (BitVec.ofNat 32 a) (BitVec.ofNat 32 b) else f32Min (BitVec.ofNat 32 a) (BitVec.ofNat 32 b)).toNat
  else if ty ≤ 1 then
    let w := 8 * atomicWidth ty
    if (signedAt w a < signedAt w b) = larger then b else a
  else if (a < b) = larger then b else a

/-- Value written by an atomic (R226). -/
def atomicNew (op ty old a b : Nat) : Nat :=
  let m := 2 ^ (8 * atomicWidth ty)
  let a := a % m
  if op = 1 ∨ op = 2 then
    (if ty = 2 then (f32Add false (BitVec.ofNat 32 old) (BitVec.ofNat 32 a)).1.toNat else (old + a) % m)
  else if op = 3 then atomicPick false ty old a
  else if op = 4 then atomicPick true ty old a
  else if op = 5 then a
  else if old = b % m then a else old

/-- ATOMIC at its target (R226): one step there (log entry 92). A pair of operation and type that R226 does not allow is refused as R224 does at the source. -/
def localAtomic (rim : Nat) (k : Packet) (s : State) : State :=
  let h := k.hdr
  let op := bitsAt (pkSpecA h) 0 4
  let ty := bitsAt (pkSpecA h) 4 4
  let n := pkLength h
  match windowCheck s rim h n .atomic with
  | .error x => refuseAccess rim h x (if x.1 = 0x02 then noteBad h n s else s)
  | .ok (site, addr) =>
    if !atomicPair op ty ∨ n ≠ atomicWidth ty then refuseAccess rim h (0x03, 0x1204) s
    else
      let old := leNat (siteRead s site addr n)
      let s := siteTouch site addr n s
      let new := atomicNew op ty old (leAt k.payload 0 8) (leAt k.payload 8 8)
      let s := siteWrite site addr (leBytes n new) (s.count Obj.rmemAtomics 1)
      replyTo (rimSite rim) fATOMICDATA (pkOffset h) 32 0 0 (fitBytes 32 (leBytes 8 (if op = 1 then 0 else old))) h s

/-- FLAG at its target: the word becomes the unsigned maximum of itself and the value (R225). -/
def localFlag (rim : Nat) (k : Packet) (s : State) : State :=
  match windowCheck s rim k.hdr 8 .flag with
  | .error x => refuseAccess rim k.hdr x (if x.1 = 0x02 then noteBad k.hdr 8 s else s)
  | .ok (site, addr) =>
    let old := leNat (siteRead s site addr 8)
    let s := siteTouch site addr 8 s
    replyTo (rimSite rim) fACK (pkOffset k.hdr) 1 0 0 [] k.hdr (siteWrite site addr (leBytes 8 (max old (leAt k.payload 0 8))) s)

/-- BARRIER at its target: the word rises by one, modulo 2³² (R225). -/
def localBarrier (rim : Nat) (k : Packet) (s : State) : State :=
  match windowCheck s rim k.hdr 4 .flag with
  | .error x => refuseAccess rim k.hdr x (if x.1 = 0x02 then noteBad k.hdr 4 s else s)
  | .ok (site, addr) =>
    let old := leNat (siteRead s site addr 4)
    let s := siteTouch site addr 4 s
    replyTo (rimSite rim) fACK (pkOffset k.hdr) 1 0 0 [] k.hdr (siteWrite site addr (leBytes 4 (old + 1)) s)

/-- A far operation that no gateway carries (R233): STATUS 0x05 with 0x1503 at a gateway. A module that is none has no window
for it. -/
def refuseFar (rim code : Nat) (h : BitVec 256) (s : State) : State :=
  if s.retr.enabled then replyStatus (rimSite rim) 0x05 code h (s.count Obj.retrieverRefusals 1)
  else refuseAccess rim h (0x03, 0x1205) s

/-- ATOMIC arrives (R225, R226, R233). -/
def execAtomic (p : PortId) (pkt : Packet) (s : State) : Out :=
  match arriveHere fATOMIC pkt s with
  | (false, s) => .next s
  | (true, s) => .next (if isFar pkt.hdr then refuseFar (portDir p) 0x1503 pkt.hdr s else localAtomic (portDir p) pkt s)

/-- FLAG arrives (R225, R233). -/
def execFabricFlag (p : PortId) (pkt : Packet) (s : State) : Out :=
  match arriveHere fFLAG pkt s with
  | (false, s) => .next s
  | (true, s) => .next (if isFar pkt.hdr then refuseFar (portDir p) 0x1503 pkt.hdr s else localFlag (portDir p) pkt s)

/-- BARRIER arrives (R225, R233). -/
def execFabricBarrier (p : PortId) (pkt : Packet) (s : State) : Out :=
  match arriveHere fBARRIER pkt s with
  | (false, s) => .next s
  | (true, s) => .next (if isFar pkt.hdr then refuseFar (portDir p) 0x1503 pkt.hdr s else localBarrier (portDir p) pkt s)

/-- MCAST_PUT: the packet at the head of a receive buffer is delivered here and, unless this is its last receiver, forwarded in
its direction with span reduced by 1 (R213). For a drain the local copy ends here and the forwarded one begins (R219, log entry
69). -/
def execMcastPut (p : PortId) (pkt : Packet) (s : State) : Out :=
  if pkOp pkt.hdr ≠ fMCAST then .next s
  else
    match takeIn p pkt s with
    | none => .next s
    | some s =>
      if !headerGood s pkt.hdr then .next (discardHeader pkt s)
      else
        let h := pkt.hdr
        let s := countEnd h (noteNode h (checkSeq h s))
        let rim := portDir p
        let s := localWrite rim pkt s
        let span := bitsAt (pkSpecA h) 0 4
        if span ≤ 1 ∨ pkDest h = s.fabric.node.toNat then .next s
        else
          let on := sealHeader (putField h 168 4 (span - 1))
          .next (followWay (rimSite rim) (some rim) { pkt with hdr := on } (portPick s on (mcastDir on) 0xF)
            (countStart (pkEpoch on) s))

/-! The remote-operation engine (R224). -/

def crOp (r : BitVec 512) : Nat := fieldAt r 0 8
def crFence (r : BitVec 512) : Bool := fieldAt r 8 1 == 1
def crFar (r : BitVec 512) : Bool := fieldAt r 9 1 == 1
def crAtomic (r : BitVec 512) : Nat := fieldAt r 16 8
def crDest (r : BitVec 512) : Nat := fieldAt r 32 16
def crOffset (r : BitVec 512) : Nat := fieldAt r 64 44
def crLength (r : BitVec 512) : Nat := fieldAt r 128 32
def crSite (r : BitVec 512) : Nat := fieldAt r 160 8
def crLocal (r : BitVec 512) : Nat := fieldAt r 192 48
def crA (r : BitVec 512) : Nat := fieldAt r 256 64
def crB (r : BitVec 512) : Nat := fieldAt r 320 64
def crUser (r : BitVec 512) : Nat := fieldAt r 384 32

/-- Span and direction of a MCAST_PUT record. -/
def crSpan (r : BitVec 512) : Nat := bitsAt (crAtomic r) 0 4
def crDir (r : BitVec 512) : Nat := bitsAt (crAtomic r) 4 2

/-- A reserved field, or a reserved bit of flags or of the atomic byte, is not zero (R224 check 1). -/
def crReserved (r : BitVec 512) : Bool :=
  fieldAt r 10 6 != 0 || fieldAt r 24 8 != 0 || fieldAt r 48 16 != 0 || fieldAt r 108 4 != 0 || fieldAt r 112 16 != 0
    || fieldAt r 168 24 != 0 || fieldAt r 240 16 != 0 || fieldAt r 416 96 != 0
    || (crOp r == fMCAST && bitsAt (crAtomic r) 6 2 != 0)

/-- Lengths an op allows, lowest and highest (R225). -/
def crRange (op : Nat) : Nat × Nat :=
  if op = fLOAD ∨ op = fSTORE then (1, 64)
  else if op = fGET ∨ op = fPUT then (64, 2 ^ 20)
  else if op = fMCAST then (1, 1024)
  else if op = fATOMIC then (4, 8)
  else if op = fFLAG then (8, 8) else (4, 4)

/-- Node in this pod that serves a far pod, if one is configured (R233, R238). -/
def gatewayNode (s : State) (pod : Nat) : Option Nat :=
  let n := s.obj (Obj.retrieverGatewayNodeQ + pod)
  if pod < 16 ∧ n ≠ 0xFFFF then some n else none

/-- The checks of R224 in their order: 0, or the error code of the first that fails. -/
def recordError (s : State) (r : BitVec 512) : Nat :=
  let op := crOp r
  let n := crLength r
  let ops := [fLOAD, fGET, fATOMIC, fFLAG, fBARRIER, fSTORE, fPUT, fMCAST]
  let ty := bitsAt (crAtomic r) 4 4
  let ring := if crDir r < 2 then s.fabric.width else s.fabric.height
  if crReserved r then 0x1201
  else if !ops.contains op then 0x1204
  else if n < (crRange op).1 then 0x1202
  else if (crRange op).2 < n ∨ (op = fMCAST ∧ (crSpan r = 0 ∨ ring - 1 < crSpan r)) then 0x1203
  else if op = fATOMIC ∧ (n ≠ atomicWidth ty ∨ !atomicPair (bitsAt (crAtomic r) 0 4) ty) then 0x1204
  else if (op = fATOMIC ∨ op = fFLAG ∨ op = fBARRIER) ∧ crOffset r % n ≠ 0 then 0x1204
  else if crFar r then
    (if op = fATOMIC ∨ op = fFLAG ∨ op = fBARRIER then 0x1503
     else if op = fMCAST then 0x1205
     else if (gatewayNode s (nodePod (crDest r))).isNone then 0x1205 else 0)
  else 0

/-- A completion record is written to its queue (R224). -/
def putCompletion (queue : Nat) (r : BitVec 512) (status flags code value : Nat) (s : State) : State :=
  let c : BitVec 256 := BitVec.ofNat 256 (crUser r + crOp r * 2 ^ 32 + status * 2 ^ 40 + flags * 2 ^ 48 + code * 2 ^ 64
    + (value % 2 ^ 64) * 2 ^ 128 + (s.beat % 2 ^ 64) * 2 ^ 192)
  { s with rmem := { s.rmem with done := tset queue (tget [] queue s.rmem.done ++ [c]) s.rmem.done } }

/-- The record writes or counts at its target, so that its outcome is unknown without a reply (R230). -/
def crWrites (r : BitVec 512) : Bool := crOp r != fLOAD && crOp r != fGET

/-- A record of a command queue ends (R230): poison for a LOAD path-lost, uncorrectable or timed out and for a failed ATOMIC, the
completion record, and a fault record for a failure. -/
def endRecord (queue : Nat) (r : BitVec 512) (status code value : Nat) (s : State) : State :=
  if status = 0 then putCompletion queue r 0 0 0 value s
  else
    let load : Bool := crOp r = fLOAD ∧ (status = 1 ∨ status = 2 ∨ status = 6)
    let poison : Bool := load || crOp r == fATOMIC
    let s := if load then siteWrite (crSite r) (crLocal r) (List.replicate (crLength r) 0xFF) s else s
    let unknown : Bool := status = 6 && crWrites r
    let flags := 1 + (if poison then 2 else 0) + (if unknown then 4 else 0)
    let s := putCompletion queue r status flags code (if crOp r = fATOMIC then 2 ^ 64 - 1 else 0) s
    let s := if poison then s.count Obj.rmemPoisoned 1 else s
    let s := (s.setObj Obj.rmemLastFaultNode (crDest r)).setObj Obj.rmemLastFaultBeat s.beat
    logEvent (if status = 6 then Obj.rmemTimeouts else if poison then Obj.rmemPoisoned else Obj.rmemLastFaultNode) 2 code hubSite
      queue (leBytes 2 (crDest r) ++ leBytes 8 s.beat) s

/-- A timeout or a path-lost reply marks the node unreachable (R230). -/
def markUnreachable (n : Nat) (s : State) : State :=
  let w : W16 := BitVec.ofNat 16 n
  { s with rmem := { s.rmem with
    unreachable := s.rmem.unreachable.filter (fun x => x.1 != w) ++ [(w, s.beat + 1000 * s.obj Obj.rmemUnreachableHoldUs)] } }

/-- Bytes of a record's local data. -/
def recordData (s : State) (r : BitVec 512) : Bytes := siteRead s (crSite r) (crLocal r) (crLength r)

/-- Packets of a record (R225): header without seq and check, payload, reply bytes asked for. -/
def recordPackets (s : State) (job : Nat) (tag : W16) (r : BitVec 512) : List (Nat × Packet) :=
  let op := crOp r
  let own := s.fabric.node.toNat
  let dest := if crFar r then (gatewayNode s (nodePod (crDest r))).getD 0 else crDest r
  let b := if crFar r then 0x8000 else 0
  let c := if crFar r then crDest r % 2 ^ 12 else 0
  let hdr (off len a : Nat) : BitVec 256 := fabricHdr op dest own job off len 0 tag.toNat a b c
  let off := crOffset r
  let n := crLength r
  if op = fLOAD ∨ op = fGET then [(n, { hdr := hdr off n 0, payload := [] })]
  else if op = fATOMIC then
    [(0, { hdr := hdr off n (crAtomic r)
           payload := fitBytes 32 (leBytes 8 (crA r % 2 ^ (8 * n)) ++ leBytes 8 (crB r % 2 ^ (8 * n))) })]
  else if op = fFLAG then [(0, { hdr := hdr off n 0, payload := fitBytes 32 (leBytes 8 (crA r)) })]
  else if op = fBARRIER then [(0, { hdr := hdr off n 0, payload := fitBytes 32 [] })]
  else if op = fPUT then
    let data := recordData s r
    (List.range (ceilDiv n 1024)).map (fun i =>
      let part := (data.drop (1024 * i)).take 1024
      (0, { hdr := hdr (off + 1024 * i) part.length 0, payload := part }))
  else [(0, { hdr := hdr off n (if op = fMCAST then crAtomic r else 0), payload := recordData s r })]

/-- Replies or bytes a record waits for (R225). -/
def recordLeft (r : BitVec 512) : Nat :=
  let op := crOp r
  if op = fLOAD ∨ op = fGET then crLength r
  else if op = fPUT then ceilDiv (crLength r) 1024
  else if op = fMCAST then crSpan r else 1

/-- The head of a queue may be looked at: a fence waits for every earlier record of the queue (R224). -/
def headReady (s : State) (q : Nat) (r : BitVec 512) : Bool := !crFence r || !s.rmem.tracks.any (fun t => t.queue == q)

/-- A destination is marked unreachable (R230). -/
def isUnreachable (s : State) (n : Nat) : Bool := s.rmem.unreachable.any (fun x => x.1.toNat == n)

/-- Job of a command queue (R224): queue k + 1 is that of image slot k and takes the slot's job, for k from 0 to 15; the others are
firmware's, with job 0 (DESIGN CHOICE, log entry 93). -/
def queueJob (s : State) (q : Nat) : Nat := if 1 ≤ q ∧ q ≤ 16 then (s.imgSlot (q - 1)).job.toNat else 0

/-- The head record of a queue is refused, failed at once, or taken and its packets sent; `none` while it must wait (R224,
R230). -/
def takeRecord (q : Nat) (s : State) : Option State :=
  match tget [] q s.rmem.waiting with
  | [] => none
  | r :: rest =>
    let popped : State := { s with rmem := { s.rmem with waiting := tset q rest s.rmem.waiting, lastQueue := q } }
    let op := crOp r
    let code := recordError s r
    let dest := if crFar r then (gatewayNode s (nodePod (crDest r))).getD 0 else crDest r
    if !headReady s q r then none
    else if code ≠ 0 then
      (if crOp r = fATOMIC then some ((putCompletion q r 0x07 3 code (2 ^ 64 - 1) popped).count Obj.rmemPoisoned 1)
       else some (putCompletion q r 0x07 1 code 0 popped))
    else if isUnreachable s (crDest r) then some (endRecord q r 0x01 0 0 (popped.count Obj.rmemFastFails 1))
    else if !trackFree s ∨ !rateAllows (BitVec.ofNat 16 dest) s then none
    else
      let (tag, s) := takeTrack q r (recordLeft r) (popped.count Obj.rmemCommands 1)
      let s := if op = fSTORE ∨ op = fPUT ∨ op = fMCAST then siteTouch (crSite r) (crLocal r) (crLength r) s else s
      some ((recordPackets s (queueJob s q) tag r).foldl (fun s x => sendPaced hubSite x.1 x.2 s) s)

/-- The engine takes records, in order within a queue and round-robin across queues, until every head must wait (R224). -/
def takeRecords : Nat → State → State
  | 0, s => s
  | fuel + 1, s =>
    let qs := (List.range 64).map (fun i => (s.rmem.lastQueue + 1 + i) % 64)
    match qs.findSome? (fun q => takeRecord q s) with
    | some s => takeRecords fuel s
    | none => s

/-- Records that wait. -/
def waitingRecords (s : State) : Nat := (s.rmem.waiting.map (fun (p : Nat × List (BitVec 512)) => p.2.length)).sum

/-- COMMAND_RECORD: a record joins its queue, and the engine takes what it can (R224). -/
def execCommandRecord (queue : Fin 64) (r : BitVec 512) (s : State) : Out :=
  let s := { s with rmem := { s.rmem with waiting := tset queue.val (tget [] queue.val s.rmem.waiting ++ [r]) s.rmem.waiting } }
  .next (takeRecords (waitingRecords s) s)

/-- UNREACHABLE_HOLD_EXPIRY: the mark clears after `rmem_unreachable_hold_us` (R230). -/
def execUnreachableHoldExpiry (node : W16) (s : State) : Out :=
  let s := { s with rmem := { s.rmem with unreachable := s.rmem.unreachable.filter (fun x => !(x.1 == node && decide (x.2 ≤ s.beat))) } }
  .next (takeRecords (waitingRecords s) s)

/-- TAG_QUARANTINE_EXPIRY: a timed-out record's tag is free again after 20 ms (R230). -/
def execTagQuarantineExpiry (tag : W16) (s : State) : Out :=
  .next { s with rmem := { s.rmem with quarantine := s.rmem.quarantine.filter (fun x => !(x.1 == tag && decide (x.2 ≤ s.beat))) } }

/-! Send windows (R205). -/

/-- Descriptor n of the resident image: of the lowest slot whose resident image declares that many. -/
def sendDesc (s : State) (n : Nat) : Option (BitVec 128) :=
  (List.range 16).findSome? (fun k =>
    if (s.imgSlot k).state = 2 ∨ (s.imgSlot k).state = 3 then (imageOf s k).bind (fun im => im.sendDescs[n]?) else none)

/-- A packed range leaves as a PUT or MCAST_PUT of its bound descriptor; the rim die consumes the replies (R205, R223). -/
def sendPack (x : SendPack) (s : State) : State :=
  match sendDesc s x.win with
  | none => s
  | some d =>
    let mcast : Bool := fieldAt d 80 8 = 1
    let span := fieldAt d 88 4
    let dir := fieldAt d 92 2
    let ring := if dir < 2 then s.fabric.width else s.fabric.height
    let off := fieldAt d 32 44 + x.offset
    let h := fabricHdr (if mcast then fMCAST else fPUT) (fieldAt d 0 16) s.fabric.node.toNat (fieldAt d 16 16) off x.data.length 0
      0 (if mcast then span + 16 * dir else 0) 0 0
    if mcast ∧ (span = 0 ∨ ring - 1 < span) then
      logEvent Obj.mcastPackets 2 0x1203 (rimSite x.rim) x.win (leBytes 2 x.win) s
    else sendTracked (rimSite x.rim) 0 (if mcast then span else 1) { hdr := h, payload := x.data } s

/-- Packed ranges that some condition picks leave. -/
def flushPacks (p : SendPack → Bool) (s : State) : State :=
  let out := s.fabric.packs.filter p
  out.foldl (fun s x => sendPack x s) { s with fabric := { s.fabric with packs := s.fabric.packs.filter (fun x => !p x) } }

/-- A sender's packet at a rim die has waited for more than 16 frame times of its string, 10 ns at full width and 13.5 ns at reduced
width (R128, R205). -/
def packStale (s : State) (x : SendPack) : Bool :=
  (if (s.str (primaryString x.src (rimSite x.rim))).state = 2 then 27 else 20) < 2 * (s.beat - x.beat)

/-- SEND_WINDOW_PACKING: a WRITE into a send window joins its sender's packet where it carries on within 16 frame times and fits
in 1,024 bytes; else that packet leaves and a new one begins (R205). -/
def packWrite (rim src addr : Nat) (data : Bytes) (s : State) : State :=
  let win := addr / 0x1000000
  let off := addr % 0x1000000
  let mine (x : SendPack) : Bool := x.rim == rim && x.win == win && x.src == src
  let joins (x : SendPack) : Bool := mine x && x.offset + x.data.length == off && x.data.length + data.length ≤ 1024 && !packStale s x
  let s :=
    match s.fabric.packs.find? joins with
    | some x =>
      { s with fabric := { s.fabric with packs := s.fabric.packs.map (fun y =>
        if y = x then { x with data := x.data ++ data, beat := s.beat } else y) } }
    | none =>
      let s := flushPacks mine s
      { s with fabric := { s.fabric with packs := s.fabric.packs ++ [{ rim, win, src, offset := off, data, beat := s.beat }] } }
  flushPacks (fun x => mine x && x.data.length == 1024) s

/-- SEND_WINDOW_FLUSH: a packet of the window that nothing joined for 16 frame times leaves (R205). -/
def execSendWindowFlush (rim : RimId) (win : Nat) (s : State) : Out :=
  .next (flushPacks (fun x => x.rim == rim.val && x.win == win && packStale s x) s)

end Sys2Proof.Machine
end

