-- ==== Sys2Proof/Machine/Collective.lean ====
section
/-! DEFINITION. In-network reduction (R214 to R216): members and their combining rim dies, collective slots, the fixed order of
addition, and the sum's way to the parent or the root's memory. -/

namespace Sys2Proof.Machine

/-! The collective descriptor (R214). -/

def colId (d : BitVec 256) : Nat := fieldAt d 0 16
def colType (d : BitVec 256) : Nat := fieldAt d 16 8
def colSlots (d : BitVec 256) : Nat := fieldAt d 24 8
def colX0 (d : BitVec 256) : Nat := fieldAt d 32 4
def colY0 (d : BitVec 256) : Nat := fieldAt d 36 4
def colW (d : BitVec 256) : Nat := fieldAt d 40 4 + 1
def colH (d : BitVec 256) : Nat := fieldAt d 44 4 + 1
def colRootX (d : BitVec 256) : Nat := fieldAt d 48 4
def colRootY (d : BitVec 256) : Nat := fieldAt d 52 4
def colLength (d : BitVec 256) : Nat := fieldAt d 64 32
def colSite (d : BitVec 256) : Nat := fieldAt d 96 8
def colUnit (d : BitVec 256) : Nat := fieldAt d 104 8
def colJob (d : BitVec 256) : Nat := fieldAt d 112 16
def colDest (d : BitVec 256) : Nat := fieldAt d 128 32

/-- Position of coordinate v in a run of n from v0 on a ring of w; `none` outside it. -/
def ringPos (w n v0 v : Nat) : Option Nat := let a := (v + w - v0 % w) % w; if a < n then some a else none

/-- A member's place in a collective (R214, R215): signed offsets from the root, and the lowest and highest offsets in x and y. -/
structure ColPlace where
  ox  : Int
  oy  : Int
  xlo : Int
  xhi : Int
  ylo : Int
  yhi : Int
  deriving DecidableEq, Repr

/-- This module's place in a collective, if it is a member. -/
def colPlace (s : State) (d : BitVec 256) : Option ColPlace :=
  let w := s.fabric.width
  let h := s.fabric.height
  let n := s.fabric.node.toNat
  match ringPos w (colW d) (colX0 d) (nodeX n), ringPos h (colH d) (colY0 d) (nodeY n),
      ringPos w (colW d) (colX0 d) (colRootX d), ringPos h (colH d) (colY0 d) (colRootY d) with
  | some a, some b, some ra, some rb =>
    some { ox := (a : Int) - ra, oy := (b : Int) - rb, xlo := -(ra : Int), xhi := (colW d : Int) - 1 - ra
           ylo := -(rb : Int), yhi := (colH d : Int) - 1 - rb }
  | _, _, _, _ => none

/-- The root of the collective. -/
def ColPlace.root (c : ColPlace) : Bool := c.ox == 0 && c.oy == 0

/-- Combining rim die of a member, which is the direction in which its sum goes (R215). -/
def ColPlace.rim (c : ColPlace) : Nat :=
  if c.ox < 0 then 0 else if 0 < c.ox then 1 else if c.oy < 0 then 2 else if 0 < c.oy then 3 else 0

/-- Addends a member waits for, in the order in which it adds them (R215): 0 its own partial, 1 the sum from the negative x side, 2
from the positive x side, 3 and 4 the same in y. -/
def ColPlace.arms (c : ColPlace) : List Nat :=
  let row := (if c.ox ≤ 0 ∧ c.xlo < c.ox then [1] else []) ++ [0] ++ (if 0 ≤ c.ox ∧ c.ox < c.xhi then [2] else [])
  if c.ox = 0 then (if c.oy ≤ 0 ∧ c.ylo < c.oy then [3] else []) ++ row ++ (if 0 ≤ c.oy ∧ c.oy < c.yhi then [4] else []) else row

/-- Slots of 64 KiB that one instance takes (R205). -/
def colSpan (d : BitVec 256) : Nat := ceilDiv (colLength d) 65536

/-- First slot of an instance (R214). -/
def instSlot (r : CollRes) (k : Nat) : Nat := r.base + k % max 1 (colSlots r.desc) * colSpan r.desc

/-- Key of a slot at a rim die. -/
def collKey (rim slot : Nat) : Nat := 256 * rim + slot

/-- The collective and the first slot of its instance that a slot belongs to. -/
def slotOwner (s : State) (rim slot : Nat) : Option (CollRes × Nat) :=
  s.fabric.colRes.findSome? (fun r =>
    let n := max 1 (colSlots r.desc) * colSpan r.desc
    if r.rim = rim ∧ r.base ≤ slot ∧ slot < r.base + n then some (r, slot - (slot - r.base) % max 1 (colSpan r.desc)) else none)

def setSlot (key : Nat) (x : CollSlot) (s : State) : State :=
  { s with fabric := { s.fabric with colls := tset key x s.fabric.colls } }

/-- Slots of instances 0 to slots − 1 when a collective is declared: each expects the instance of its number. -/
def slotNow (s : State) (r : CollRes) (slot : Nat) : CollSlot :=
  (tfind (collKey r.rim slot) s.fabric.colls).getD { inst := (slot - r.base) / max 1 (colSpan r.desc) }

/-- Sum of two addends; a rim die keeps no flags, and its sums keep subnormals (log entry 82). -/
def sumOf (type : Nat) (a b : Bytes) : Bytes := (addPartials false type a b).1

/-- Sum of the addends of one chunk in the order of R215: the row first, then the column around it. -/
def chunkSum (type : Nat) (place : ColPlace) (parts : Tab Bytes) (i : Nat) : Bytes :=
  let part (arm : Nat) : Bytes := tget [] (65536 * arm + i) parts
  let has (arm : Nat) : Bool := place.arms.contains arm
  let row := part 0
  let row := if has 1 then sumOf type (part 1) row else row
  let row := if has 2 then sumOf type row (part 2) else row
  let col := if has 3 then sumOf type (part 3) row else row
  if has 4 then sumOf type col (part 4) else col

/-- Chunks of 64 bytes of an instance. -/
def colChunks (d : BitVec 256) : Nat := ceilDiv (colLength d) 64

/-- Every expected addend is in. -/
def slotComplete (d : BitVec 256) (place : ColPlace) (x : CollSlot) : Bool :=
  place.arms.all (fun arm => (List.range (colChunks d)).all (fun i => (tfind (65536 * arm + i) x.parts).isSome))

/-- READ_DATA frames of a finished sum (R208). -/
def sendSum : Nat → Nat → Nat → Nat → Bytes → State → State
  | 0, _, _, _, _, s => s
  | fuel + 1, src, dst, addr, data, s =>
    if data.isEmpty then s
    else
      let off := addr % 64
      let n := min (64 - off) data.length
      let s := sendFrame opREADDATA src dst (n - 1) off (addr / 64) (List.replicate off 0 ++ data.take n) none none s
      sendSum fuel src dst (addr + n) (data.drop n) s

/-- The sum of a completed instance leaves (R215, R216): at the root as READ_DATA into its destination, elsewhere as CPART packets
one hop to the parent. -/
def sendTotal (r : CollRes) (place : ColPlace) (inst : Nat) (sum : Bytes) (s : State) : State :=
  let d := r.desc
  if place.root then
    let s := s.count Obj.collInstancesCompleted 1
    match sendAddress s (colSite d) (colUnit d) r.slot (colDest d) with
    | some a => sendSum (sum.length + 1) (rimSite r.rim) (colSite d) a sum s
    | none => s
  else
    let own := s.fabric.node.toNat
    (List.range (ceilDiv sum.length 1024)).foldl (fun s i =>
      let part := (sum.drop (1024 * i)).take 1024
      let k : Packet := { hdr := fabricHdr fCPART (nextNode s own r.rim) own (colJob d) (1024 * i) part.length 0 noTag (colType d) (colId d) inst
                          payload := part }
      let (k, s) := stampPacket k s
      followWay (rimSite r.rim) none k (portPick s k.hdr r.rim 0xF) s) s

/-- An addend's bytes enter a slot; a complete slot sends its sum and is free for the next instance (R216). -/
def addPart (r : CollRes) (slot arm off : Nat) (data : Bytes) (s : State) : State :=
  match colPlace s r.desc with
  | none => s
  | some place =>
    if !place.arms.contains arm then s.count Obj.rmemRefusals 1
    else
      let x := slotNow s r slot
      let parts := (List.range (ceilDiv data.length 64)).foldl (fun (t : Tab Bytes) i =>
        tset (65536 * arm + off / 64 + i) (fitBytes 64 (data.drop (64 * i))) t) x.parts
      let x := { x with parts, began := some (x.began.getD s.beat) }
      let s := setSlot (collKey r.rim slot) x s
      if !slotComplete r.desc place x then s
      else
        let sum := ((List.range (colChunks r.desc)).flatMap (chunkSum (colType r.desc) place parts)).take (colLength r.desc)
        sendTotal r place x.inst sum
          (setSlot (collKey r.rim slot) { inst := (x.inst + max 1 (colSlots r.desc)) % 65536 } s)

/-- Arm that a partial from a port or a rim die of a direction belongs to (R215): from +x the positive x side, and so on. -/
def armOf (dir : Nat) : Nat := if dir = 0 then 2 else if dir = 1 then 1 else if dir = 2 then 4 else 3

/-- A partial from another rim die of the module, or the module's own: bytes at an address of the collective slots (R205, R215). -/
def slotBytes (rim addr arm : Nat) (data : Bytes) (s : State) : State :=
  let slot := (addr - 0x1000000000) / 65536
  match slotOwner s rim slot with
  | none => s.count Obj.refusedAddresses 1
  | some (r, first) => addPart r first arm (65536 * (slot - first) + addr % 65536) data s

/-- CPART: a partial of the instance that its slot can take is added, at the combining rim die or over the lightbed; one for a slot
that still holds an earlier instance is discarded (R215, R216, R228). -/
def execCpart (p : PortId) (pkt : Packet) (s : State) : Out :=
  let h := pkt.hdr
  if pkOp h ≠ fCPART then .next s
  else
    match takeIn p pkt s with
    | none => .next s
    | some s =>
      if !headerGood s h then .next (discardHeader pkt s)
      else
        let s := countEnd h (noteNode h (checkSeq h s))
        match s.fabric.colRes.find? (fun r => colId r.desc == pkSpecB h && colJob r.desc == pkJob h) with
        | none => .next (s.count Obj.rmemRefusals 1)
        | some r =>
          let slot := instSlot r (pkSpecC h)
          let x := slotNow s r slot
          if bitsAt (pkSpecA h) 0 2 ≠ colType r.desc ∨ pkOffset h % 64 ≠ 0 ∨ colLength r.desc < pkOffset h + pkLength h then
            .next (s.count Obj.rmemRefusals 1)
          else if x.began.isSome ∧ x.inst ≠ pkSpecC h then
            .next (countLog Obj.collSlotConflicts 2 0 (rimSite r.rim) slot (leBytes 2 (pkSpecC h)) s)
          else
            let s := setSlot (collKey r.rim slot) { x with inst := pkSpecC h, began := some (x.began.getD s.beat) } s
            let data := fitBytes (pkLength h) pkt.payload
            let rim := portDir p
            if rim = r.rim then .next (addPart r slot (armOf rim) (pkOffset h) data s)
            else
              .next (sendWrite (data.length + 1) (rimSite rim) (rimSite r.rim) (0x1000000000 + 65536 * slot + pkOffset h) data none none s)

/-- A slot is discarded and freed, and its instance timed out (R216). -/
def timeOutSlot (r : CollRes) (first : Nat) (s : State) : State :=
  let x := slotNow s r first
  countLog Obj.collTimeouts 2 0 (rimSite r.rim) first (leBytes 2 x.inst)
    (setSlot (collKey r.rim first) { inst := (x.inst + max 1 (colSlots r.desc)) % 65536 } s)

/-- A rim die resets: the instances in its slots time out, and its rate entries go (R212, R220). The module holds one table of rate
entries, and each rim die's reset clears it (log entry 100). -/
def resetRim (rim : Nat) (s : State) : State :=
  let s := { s with fabric := { s.fabric with rates := [] } }
  s.fabric.colRes.foldl (fun s r =>
    if r.rim ≠ rim then s
    else (List.range (max 1 (colSlots r.desc))).foldl (fun s k =>
      let first := r.base + k * colSpan r.desc
      if (slotNow s r first).began.isSome then timeOutSlot r first s else s) s) s

/-- COLL_TIMEOUT: a slot not complete `coll_timeout_us` after its first addend is discarded and freed (R216). -/
def execCollTimeout (rim : RimId) (slot : Byte) (s : State) : Out :=
  match slotOwner s rim slot.toNat with
  | none => .next s
  | some (r, first) =>
    let x := slotNow s r first
    match x.began with
    | none => .next s
    | some b =>
      if s.beat < b + 1000 * s.obj Obj.collTimeoutUs then .next s
      else
        .next (timeOutSlot r first s)

end Sys2Proof.Machine
end

