-- ==== Sys2Proof/Machine/Retriever.lean ====
section
/-! DEFINITION. The Retriever (R232 to R236): gateway buffers, sessions and messages; and the packets that a gateway may take over:
LOAD, GET, STORE, PUT and the replies that end an operation (R225, R230). -/

namespace Sys2Proof.Machine

/-! Sessions and messages (R234). -/

def gwOPEN : Nat := 1
def gwACCEPT : Nat := 2
def gwREAD : Nat := 3
def gwREADDATA : Nat := 4
def gwFLUSH : Nat := 5
def gwFLUSHACK : Nat := 6
def gwIDLE : Nat := 7

def State.gw (s : State) (pod : Nat) : GwSess := tget {} pod s.retr.sessions
def State.setGw (s : State) (pod : Nat) (x : GwSess) : State :=
  { s with retr := { s.retr with sessions := tset pod x s.retr.sessions } }

/-- Buffers of each kind that a gateway advertises to a peer (DESIGN CHOICE, log entry 74: R234 gives no number). -/
def gwAdvertised : Nat := 256

/-- An IPv6 address from its two halves (R238). -/
def ipv6 (hi lo : Nat) : BitVec 128 := BitVec.ofNat 128 (hi % 2 ^ 64 * 2 ^ 64 + lo % 2 ^ 64)

/-- Put a message on the wire while the second serving port has its link: from the module's own address to that of the pod's
gateway, on `retriever_udp_port` (R234, R238). -/
def gwEmit (pod kind seq : Nat) (body : BitVec 256) (payload : Bytes) (s : State) : State :=
  let x := s.gw pod
  if s.serve.links.getD 1 false then
    s.emit (.gateway (ipv6 (s.obj Obj.retrieverIpv6Hi) (s.obj Obj.retrieverIpv6Lo))
      (ipv6 (s.obj (Obj.retrieverPeerHiQ + pod)) (s.obj (Obj.retrieverPeerLoQ + pod))) (s.obj Obj.retrieverUdpPort)
      pod kind x.number.toNat seq x.rxAck ((gwAdvertised + x.readFreed) % 65536) ((gwAdvertised + x.storeFreed) % 65536) body payload)
  else s

/-- Send a message in its session: numbered and kept until acknowledged. -/
def gwSend (pod kind : Nat) (body : BitVec 256) (payload : Bytes) (s : State) : State :=
  let x := s.gw pod
  let x := { x with
    txSeq := x.txSeq + 1, unacked := x.unacked ++ [(x.txSeq, kind, body, payload)]
    progress := if x.unacked.isEmpty then s.beat else x.progress }
  gwEmit pod kind (x.txSeq - 1) body payload (s.setGw pod x)

/-- Payload of OPEN and ACCEPT: the level and the session number. -/
def levelPayload (n : W32) : Bytes := leBytes 1 1 ++ leBytes 4 n.toNat

/-- Open a session under a new number, with the key in force now (R234, R238). Numbers in a session start at 1. -/
def gwOpen (pod : Nat) (s : State) : State :=
  let n := tget 0 pod s.retr.counter + 1
  let s := { s with retr := { s.retr with counter := tset pod n s.retr.counter } }
  let s := s.setGw pod { state := 1, number := n, key := s.objB (Obj.retrieverKeyQ + pod), txSeq := 1, rxSeq := 1, progress := s.beat, resent := s.beat }
  gwSend pod gwOPEN 0 (levelPayload n) s

/-- The peer's credits left, of a cumulative counter that wraps at 65,536. -/
def creditLeft (cr used : Nat) : Nat := cr - used

/-- Body header fields. -/
def bodyJob (b : BitVec 256) : Nat := fieldAt b 0 16
def bodySrc (b : BitVec 256) : Nat := fieldAt b 16 16
def bodyNode (b : BitVec 256) : Nat := fieldAt b 32 16
def bodyBuf (b : BitVec 256) : Nat := fieldAt b 48 16
def bodyPage (b : BitVec 256) : Nat := fieldAt b 64 64
def bodyMask (b : BitVec 256) : Nat := fieldAt b 128 64
def bodyStatus (b : BitVec 256) : Nat := fieldAt b 192 8
def bodyCode (b : BitVec 256) : Nat := fieldAt b 208 16

/-- A body header. -/
def gwBody (job src node buf page mask status code : Nat) : BitVec 256 :=
  BitVec.ofNat 256 (job % 2 ^ 16 + (src % 2 ^ 16) * 2 ^ 16 + (node % 2 ^ 16) * 2 ^ 32 + (buf % 2 ^ 16) * 2 ^ 48 + (page % 2 ^ 64) * 2 ^ 64
    + (mask % 2 ^ 64) * 2 ^ 128 + (status % 2 ^ 8) * 2 ^ 192 + (code % 2 ^ 16) * 2 ^ 208)

/-! Buffers at the gateway near the source (R235, R236). -/

def modBuf (slice id : Nat) (f : GwBuf → GwBuf) (s : State) : State :=
  { s with retr := { s.retr with bufs := s.retr.bufs.map (fun (b : GwBuf) => if b.slice = slice ∧ b.id = id then f b else b) } }

def dropBuf (slice id : Nat) (s : State) : State :=
  { s with retr := { s.retr with bufs := s.retr.bufs.filter (fun (b : GwBuf) => !(b.slice == slice && b.id == id)) } }

/-- A free buffer ID of a slice: read buffers 4,096 × slice to + 2,047, store buffers above them (R232). -/
def freeBuf (s : State) (slice : Nat) (read : Bool) : Option Nat :=
  let base := 4096 * slice + (if read then 0 else 2048)
  ((List.range 2048).map (fun i => base + i)).find? (fun id => !s.retr.bufs.any (fun (b : GwBuf) => b.id == id))

/-- Pod of a buffer's far node. -/
def GwBuf.pod (b : GwBuf) : Nat := nodePod b.node.toNat

/-- Byte mask and data of a store buffer: 512 bytes of mask, then the page (R234). -/
def flushPayload (b : GwBuf) : Bytes :=
  let mask := maskOf (b.data.map (fun (p : Nat × Byte) => p.1))
  leBytes 512 mask ++ (List.range 4096).map (fun i => tget 0 i b.data)

/-- The buffer may go: it is due, the session of its pod is open and the peer has a buffer for it (R234). -/
def gwCan (s : State) (b : GwBuf) : Bool :=
  let x := s.gw b.pod
  b.due && !b.sent && x.state == 2 && (if b.read then 0 < creditLeft x.readCr x.readUse else 0 < creditLeft x.storeCr x.storeUse)

/-- The first buffer that may go, in the order in which they opened: a store buffer only after the earlier ones of its source
(R236). `held` are sources with an earlier buffer that has not gone. -/
def gwNext (s : State) (held : List W16) : List GwBuf → Option GwBuf
  | [] => none
  | b :: r =>
    if gwCan s b && (b.read || !held.contains b.src) then some b
    else gwNext s (if !b.read && !b.sent then b.src :: held else held) r

/-- Send what is due (R234 to R236). -/
def gwPump : Nat → State → State
  | 0, s => s
  | fuel + 1, s =>
    match gwNext s [] s.retr.bufs with
    | none => s
    | some b =>
      let x := s.gw b.pod
      let s := s.setGw b.pod (if b.read then { x with readUse := x.readUse + 1 } else { x with storeUse := x.storeUse + 1 })
      let s := modBuf b.slice b.id (fun y => { y with sent := true, stale := false }) s
      let body := gwBody b.job.toNat b.src.toNat b.node.toNat b.id b.page (if b.read then b.units.toNat else 0) 0 0
      gwPump fuel (if b.read then gwSend b.pod gwREAD body [] (s.count Obj.retrieverReads 1)
        else gwSend b.pod gwFLUSH body (flushPayload b) (s.count Obj.retrieverFlushes 1))

/-- Send all that is due. -/
def gwPumpAll (s : State) : State := gwPump (s.retr.bufs.length + 1) s

/-- Buffers of some pods wait for their sessions: those closed are opened, and what is due goes. -/
def gwNeed (pods : List Nat) (s : State) : State :=
  gwPumpAll (pods.foldl (fun s q => if (s.gw q).state = 0 then gwOpen q s else s) s)

/-- A store buffer is flushed, and before it the buffers of its source that opened earlier (R236). -/
def gwFlush (slice id : Nat) (s : State) : State :=
  match s.retr.bufs.find? (fun b => b.slice == slice && b.id == id) with
  | none => s
  | some b =>
    let rec mark : List GwBuf → List GwBuf
      | [] => []
      | y :: r =>
        if y.slice = slice ∧ y.id = id then { y with due := true } :: r
        else (if !y.read ∧ y.src = b.src then { y with due := true } else y) :: mark r
    let bufs := mark s.retr.bufs
    gwNeed ((bufs.filter (fun (y : GwBuf) => !y.read && y.src == b.src && y.due && !y.sent)).map GwBuf.pod)
      { s with retr := { s.retr with bufs } }

/-- Part of a packet's range that lies in a 4 KiB page: first offset and bytes. -/
def pagePart (off n page : Nat) : Nat × Nat :=
  let a := max off page
  (a, min (off + n) (page + 4096) - a)

/-- Pages of 4 KiB that a range touches. -/
def rangePages (off n : Nat) : List Nat := (List.range ((off + n - 1) / 4096 - off / 4096 + 1)).map (fun i => 4096 * (off / 4096 + i))

/-- 64-byte units of a page that a range touches. -/
def unitMask (off n page : Nat) : Nat :=
  let (a, k) := pagePart off n page
  maskOf ((List.range 64).filter (fun u => a < page + 64 * (u + 1) && page + 64 * u < a + k))

/-- Where a read of one page goes: to wait for a store buffer of its source that must be flushed first (R236), into a buffer that
can still serve it (R235), or into a new one. -/
inductive ReadPlace where
  | waits (b : GwBuf)
  | joins (b : GwBuf)
  | opens
  deriving DecidableEq, Repr

/-- Place of a read of one page. -/
def readPlace (s : State) (rim : Nat) (h : BitVec 256) (page : Nat) : ReadPlace :=
  let node : W16 := BitVec.ofNat 16 (pkSpecC h)
  let job : W16 := BitVec.ofNat 16 (pkJob h)
  let units : W64 := BitVec.ofNat 64 (unitMask (pkOffset h) (pkLength h) page)
  let same (b : GwBuf) : Bool := b.slice == rim && b.node == node && b.job == job && b.page == page
  match s.retr.bufs.find? (fun b => !b.read && same b && b.src.toNat == pkSrc h) with
  | some b => .waits b
  | none =>
    match s.retr.bufs.find? (fun b => b.read && same b && (!b.sent || (b.units &&& units == units && !b.stale))) with
    | some b => .joins b
    | none => .opens

/-- GATEWAY_LOAD for one page. `gwRoom` sees to it that a buffer is free. -/
def gwReadPage (rim : Nat) (h : BitVec 256) (page : Nat) (s : State) : State :=
  let units : W64 := BitVec.ofNat 64 (unitMask (pkOffset h) (pkLength h) page)
  match readPlace s rim h page with
  | .waits b => gwFlush rim b.id (modBuf rim b.id (fun y => { y with waits := y.waits ++ [(rim, h)] }) s)
  | .joins b =>
    modBuf rim b.id (fun y => { y with units := y.units ||| units, joined := y.joined ++ [(rim, h)] }) (s.count Obj.retrieverLoadsJoined 1)
  | .opens =>
    match freeBuf s rim true with
    | none => refuseFar rim 0 h s
    | some id =>
      let b : GwBuf := { slice := rim, id, read := true, src := BitVec.ofNat 16 (pkSrc h), node := BitVec.ofNat 16 (pkSpecC h)
                         job := BitVec.ofNat 16 (pkJob h), page, units, began := s.beat, joined := [(rim, h)] }
      gwNeed [b.pod] { s with retr := { s.retr with bufs := s.retr.bufs ++ [b] } }

/-- A far LOAD or GET at the gateway, one READ for each page (R235). -/
def gwRead (rim : Nat) (h : BitVec 256) (s : State) : State :=
  (rangePages (pkOffset h) (pkLength h)).foldl (fun s page => gwReadPage rim h page s) s

/-- Store buffer of its source that a store of one page joins (R236). -/
def storePlace (s : State) (rim : Nat) (h : BitVec 256) (page : Nat) : Option GwBuf :=
  s.retr.bufs.find? (fun b => !b.read && !b.due && b.slice == rim && b.node.toNat == pkSpecC h && b.job.toNat == pkJob h && b.page == page
    && b.src.toNat == pkSrc h)

/-- GATEWAY_STORE for one page: the bytes join the source's store buffer for the page or open one (R236); reads already sent for
the page, through any slice, can be joined no more (R235). `gwRoom` sees to it that a buffer is free. -/
def gwStorePage (rim : Nat) (k : Packet) (page : Nat) (s : State) : State :=
  let h := k.hdr
  let node : W16 := BitVec.ofNat 16 (pkSpecC h)
  let job : W16 := BitVec.ofNat 16 (pkJob h)
  let src : W16 := BitVec.ofNat 16 (pkSrc h)
  let (a, n) := pagePart (pkOffset h) (pkLength h) page
  let bytes := ((fitBytes (pkLength h) k.payload).drop (a - pkOffset h)).take n
  let put (t : Tab Byte) : Tab Byte := (List.range n).foldl (fun t i => tset (a - page + i) (bytes.getD i 0) t) t
  let s := { s with retr := { s.retr with bufs := s.retr.bufs.map (fun (b : GwBuf) =>
    if b.read ∧ b.sent ∧ b.node = node ∧ b.page = page then { b with stale := true } else b) } }
  match storePlace s rim h page with
  | some b => modBuf rim b.id (fun y => { y with data := put y.data, joined := y.joined ++ [(rim, h)] }) s
  | none =>
    match freeBuf s rim false with
    | none => refuseFar rim 0 h s
    | some id =>
      let b : GwBuf := { slice := rim, id, read := false, src, node, job, page, data := put [], began := s.beat, joined := [(rim, h)] }
      { s with retr := { s.retr with bufs := s.retr.bufs ++ [b] } }

/-- A far STORE or PUT at the gateway (R236). -/
def gwStore (rim : Nat) (k : Packet) (s : State) : State :=
  (rangePages (pkOffset k.hdr) (pkLength k.hdr)).foldl (fun s page => gwStorePage rim k page s) s

/-- The packet is a far LOAD or GET, which takes read buffers; a far STORE or PUT takes store buffers. -/
def gwReads (k : Packet) : Bool := pkOp k.hdr == fLOAD || pkOp k.hdr == fGET

/-- Buffers of a kind that a slice has given: those in use, and for reads one for each that waits for a flush (R209). -/
def gwUsed (s : State) (rim : Nat) (read : Bool) : Nat :=
  let mine := s.retr.bufs.filter (fun (b : GwBuf) => b.slice == rim)
  (mine.filter (fun b => b.read == read)).length + (if read then (mine.map (fun b => b.waits.length)).sum else 0)

/-- The slice has a buffer for each page of the packet that needs one (R209, R232). -/
def gwRoom (s : State) (rim : Nat) (k : Packet) : Bool :=
  let needs (page : Nat) : Bool :=
    if gwReads k then (match readPlace s rim k.hdr page with
      | .joins _ => false
      | _ => true)
    else (storePlace s rim k.hdr page).isNone
  gwUsed s rim (gwReads k) + ((rangePages (pkOffset k.hdr) (pkLength k.hdr)).filter needs).length ≤ 2048

/-- A far packet with room for it is taken into buffers. -/
def gwTake (rim : Nat) (k : Packet) (s : State) : State := if gwReads k then gwRead rim k.hdr s else gwStore rim k s

/-- A far packet at the gateway: taken, or held behind the packets that wait for a buffer of its slice; running out of store buffers
flushes the oldest (R236). -/
def gwEnter (rim : Nat) (k : Packet) (s : State) : State :=
  let before : Bool := s.retr.held.any (fun (x : Nat × Packet) => x.1 == rim && gwReads x.2 == gwReads k)
  if gwRoom s rim k && !before then gwTake rim k s
  else
    let s := { s with retr := { s.retr with held := s.retr.held ++ [(rim, k)] } }
    match s.retr.bufs.find? (fun b => !gwReads k && !b.read && b.slice == rim && !b.due) with
    | some b => gwFlush rim b.id s
    | none => s

/-- The first of the held packets that has room now, with the rest. -/
def gwNextHeld (s : State) : List (Nat × Packet) → Option ((Nat × Packet) × List (Nat × Packet))
  | [] => none
  | x :: r => if gwRoom s x.1 x.2 then some (x, r) else (gwNextHeld s r).map (fun (y : (Nat × Packet) × List (Nat × Packet)) => (y.1, x :: y.2))

/-- Held packets are taken as buffers come free; with no store buffer free the oldest is flushed. -/
def gwRetry : Nat → State → State
  | 0, s => s
  | fuel + 1, s =>
    match gwNextHeld s s.retr.held with
    | none => s
    | some (x, rest) => gwRetry fuel (gwTake x.1 x.2 { s with retr := { s.retr with held := rest } })

/-- COALESCE_EXPIRY: `retriever_coalesce_ns` after its buffer opened, a READ is due (R235). -/
def execCoalesceExpiry (slice : RimId) (buf : Nat) (s : State) : Out :=
  match s.retr.bufs.find? (fun b => b.slice == slice.val && b.id == buf && b.read && !b.due) with
  | none => .next s
  | some b =>
    if s.beat < b.began + s.obj Obj.retrieverCoalesceNs then .next s
    else .next (gwNeed [b.pod] (modBuf slice buf (fun y => { y with due := true }) s))

/-- STORE_AGE_EXPIRY: `retriever_store_age_us` after it opened, a store buffer is flushed (R236). -/
def execStoreAgeExpiry (slice : RimId) (buf : Nat) (s : State) : Out :=
  match s.retr.bufs.find? (fun b => b.slice == slice.val && b.id == buf && !b.read && !b.due) with
  | none => .next s
  | some b => if s.beat < b.began + 1000 * s.obj Obj.retrieverStoreAgeUs then .next s else .next (gwFlush slice buf s)

/-- Another page of the read packet is still to be answered. -/
def gwPending (s : State) (x : Nat × BitVec 256) : Bool :=
  s.retr.bufs.any (fun (b : GwBuf) => (b.read && b.joined.contains x) || b.waits.contains x)

/-- One page of a read packet, no longer in any buffer, is answered: its data at once; a failure by one STATUS once every page has
been answered, with the status of the first in offset order (R229, R235). -/
def gwAnswer (rim : Nat) (h : BitVec 256) (page : Nat) (data : Bytes) (status code : Nat) (s : State) : State :=
  let (a, n) := pagePart (pkOffset h) (pkLength h) page
  let part := (data.drop (a - page)).take n
  let s :=
    if status ≠ 0 then { s with retr := { s.retr with failed := s.retr.failed ++ [((rim, h), page, status, code)] } }
    else if pkOp h = fLOAD then replyTo (rimSite rim) fLOADDATA a n 0 0 part h s
    else
      (List.range (ceilDiv n 1024)).foldl (fun s i =>
        let d := (part.drop (1024 * i)).take 1024
        replyTo (rimSite rim) fGETDATA (a - pkOffset h + 1024 * i) d.length 0 0 d h s) s
  if gwPending s (rim, h) then s
  else
    let mine := s.retr.failed.filter (fun y => y.1 == (rim, h))
    let first := mine.foldl (fun (m : Option (Nat × Nat × Nat)) y =>
      match m with
      | some f => if y.2.1 < f.1 then some y.2 else m
      | none => some y.2) none
    let s := { s with retr := { s.retr with failed := s.retr.failed.filter (fun y => y.1 != (rim, h)) } }
    match first with
    | some (_, st, c) => replyStatus (rimSite rim) st c h s
    | none => s

/-- Every page of a far packet that no buffer has taken is answered path-lost (R234). -/
def gwHeldLost (x : Nat × Packet) (s : State) : State := replyStatus (rimSite x.1) 0x01 0 x.2.hdr s

/-- A store packet is answered once no other buffer holds a part of it, or at its first failure (R236). -/
def gwStored (id : Nat) (x : Nat × BitVec 256) (status code : Nat) (s : State) : State :=
  if status ≠ 0 then
    let s := { s with retr := { s.retr with bufs := s.retr.bufs.map (fun (b : GwBuf) =>
      if b.read then b else { b with joined := b.joined.filter (· != x) }) } }
    replyStatus (rimSite x.1) status code x.2 s
  else if s.retr.bufs.any (fun (b : GwBuf) => !b.read && b.id != id && b.joined.contains x) then s
  else replyTo (rimSite x.1) fACK (pkOffset x.2) 1 0 0 [] x.2 s

/-- A buffer is lost with its session: what waits for it is answered path-lost (R234). -/
def gwLose (b : GwBuf) (s : State) : State :=
  let s := dropBuf b.slice b.id s
  let s := if b.read then s else b.joined.foldl (fun s x => gwStored b.id x 0x01 0 s) s
  ((if b.read then b.joined else []) ++ b.waits).foldl (fun s x => gwAnswer x.1 x.2 b.page [] 0x01 0 s) s

/-- A flush is over: its packets are answered, its buffer freed, and the reads that waited for it go on (R236). -/
def gwFlushed (b : GwBuf) (status code : Nat) (s : State) : State :=
  let s := b.joined.foldl (fun s x => gwStored b.id x status code s) s
  let s := dropBuf b.slice b.id s
  b.waits.foldl (fun s x => gwReadPage x.1 x.2 b.page s) s

/-! Service at the gateway near the target (R235, R236). -/

/-- Runs of consecutive numbers in an ascending list: first and length. -/
def runsOf : List Nat → List (Nat × Nat)
  | [] => []
  | a :: r =>
    match runsOf r with
    | (b, n) :: l => if b = a + 1 then (a, n + 1) :: l else (a, 1) :: (b, n) :: l
    | [] => [(a, 1)]

/-- Operations of a READ or FLUSH: offset in the page and bytes of each run. -/
def serveRuns (v : GwServe) : List (Nat × Nat) :=
  if v.read then (runsOf (bitList 64 (bodyMask v.body))).map (fun x => (64 * x.1, 64 * x.2))
  else runsOf (bitList 4096 (leAt v.data 0 512))

/-- Queue number of a gateway's operations. -/
def gwQueue (n : Nat) : Nat := 64 + n

/-- Issue the GETs or PUTs of one request as new packets with this gateway as source and the original job (R209, R233). -/
def gwIssue (v : GwServe) (s : State) : State :=
  let own := s.fabric.node.toNat
  let site := rimSite v.slice
  let node := bodyNode v.body
  let runs := serveRuns v
  let s := { s with retr := { s.retr with serving := s.retr.serving.map (fun (y : GwServe) =>
    if y.n = v.n then { y with issued := true, left := runs.length } else y) } }
  runs.foldl (fun s x =>
    let off := bodyPage v.body + x.1
    if v.read then
      let (tag, s) := takeTrack (gwQueue v.n) (ownRecord fGET node off x.2) x.2 s
      sendPaced site x.2 { hdr := fabricHdr fGET node own (bodyJob v.body) off x.2 0 tag.toNat 0 0 0, payload := [] } s
    else
      let n := ceilDiv x.2 1024
      let (tag, s) := takeTrack (gwQueue v.n) (ownRecord fPUT node off x.2) n s
      (List.range n).foldl (fun s i =>
        let part := (v.data.drop (512 + x.1 + 1024 * i)).take (min 1024 (x.2 - 1024 * i))
        sendPaced site 0 { hdr := fabricHdr fPUT node own (bodyJob v.body) (off + 1024 * i) part.length 0 tag.toNat 0 0 0, payload := part } s) s) s

/-- The request may be issued: a FLUSH only when no earlier one of its source is unfinished (R236), and tracking entries and tags are
free (R207). -/
def gwMayIssue (s : State) (v : GwServe) : Bool :=
  !v.issued && s.rmem.tracks.length + (serveRuns v).length ≤ 4096 &&
    s.rmem.tracks.length + s.rmem.quarantine.length + (serveRuns v).length < 65536 &&
    (v.read || !s.retr.serving.any (fun y => !y.read && y.n < v.n && y.pod == v.pod && bodySrc y.body == bodySrc v.body))

/-- Answer a finished request: one READ_DATA or one FLUSH_ACK; its buffer is freed (R235, R236). -/
def gwFinish (v : GwServe) (s : State) : State :=
  let (st, code) := v.failed.getD (0, 0)
  let body := gwBody (bodyJob v.body) (bodySrc v.body) (bodyNode v.body) (bodyBuf v.body) (bodyPage v.body) (bodyMask v.body) st code
  let s := { s with retr := { s.retr with serving := s.retr.serving.filter (fun y => y.n != v.n) } }
  let x := s.gw v.pod
  let s := s.setGw v.pod (if v.read then { x with readFreed := x.readFreed + 1 } else { x with storeFreed := x.storeFreed + 1 })
  if v.read then gwSend v.pod gwREADDATA body (fitBytes 4096 v.data) s else gwSend v.pod gwFLUSHACK body [] s

/-- Issue what may be issued and answer what is finished. -/
def gwServeOn : Nat → State → State
  | 0, s => s
  | fuel + 1, s =>
    match s.retr.serving.find? (fun v => v.issued && v.left == 0) with
    | some v => gwServeOn fuel (gwFinish v s)
    | none =>
      match s.retr.serving.find? (gwMayIssue s) with
      | some v => gwServeOn fuel (gwIssue v s)
      | none => s

/-- One operation of a gateway's request has ended, in success or with a status and code. -/
def gwOpDone (queue status code : Nat) (s : State) : State :=
  let st := if status = 6 then 1 else status
  let s := { s with retr := { s.retr with serving := s.retr.serving.map (fun (v : GwServe) =>
    if gwQueue v.n = queue then
      { v with left := v.left - 1, failed := if st = 0 then v.failed else some (v.failed.getD (st, code)) }
    else v) } }
  gwServeOn (2 * s.retr.serving.length + 2) s

/-! Messages (R234). -/

/-- Credits that a message carries. -/
def gwCredit (seen v : Nat) : Nat := seen + (v + 65536 - seen % 65536) % 65536

/-- A message arrives: authenticated under the session's key and number, accepted only in sequence, and only then are its ack and
credits taken. One that was accepted before is answered with an IDLE where nothing of this side's is on its way to carry the ack
(DESIGN CHOICE, log entry 74). Whether it is to be acted on, and the state. -/
def gwReceive (kind : Nat) (m : GwMsg) (s : State) : Bool × State :=
  let pod := m.srcPod.toNat
  let x := s.gw pod
  if !s.retr.enabled ∨ m.kind.toNat ≠ kind ∨ m.version ≠ 1 ∨ m.dstPod.toNat ≠ nodePod s.fabric.node.toNat then (false, s)
  else if m.key ≠ x.key ∨ m.session ≠ x.number ∨ x.state = 0 then (false, s.count Obj.retrieverAuthFailures 1)
  else if m.seq.toNat ≠ x.rxSeq then
    (false, if m.seq.toNat < x.rxSeq ∧ x.state = 2 ∧ x.unacked.isEmpty then gwSend pod gwIDLE 0 [] s else s)
  else
    let left := x.unacked.filter (fun u => m.ack.toNat < u.1)
    (true, s.setGw pod { x with
      unacked := left, progress := if left.length < x.unacked.length then s.beat else x.progress
      readCr := gwCredit x.readCr m.readCr.toNat, storeCr := gwCredit x.storeCr m.storeCr.toNat
      rxSeq := x.rxSeq + 1, rxAck := m.seq.toNat })

/-- After a message: what is due goes; with nothing sent in answer an IDLE carries the ack. -/
def gwAfter (pod : Nat) (before : Nat) (s : State) : State :=
  let s := gwPumpAll (gwRetry (s.retr.held.length + 1) s)
  if (s.gw pod).txSeq = before then gwSend pod gwIDLE 0 [] s else s

/-- A session of a pod is over: what had been sent in it is answered path-lost, and the peer's requests in it are dropped (R234). -/
def gwDrop (pod : Nat) (s : State) : State :=
  let mine := s.retr.bufs.filter (fun (b : GwBuf) => b.pod == pod && b.sent)
  mine.foldl (fun s b => gwLose b s) { s with retr := { s.retr with serving := s.retr.serving.filter (fun v => v.pod != pod) } }

/-- OPEN: the level is agreed and the session accepted under the peer's number, below which none is used again; an offer without
level 1, whose highest level is 0 (DESIGN CHOICE, log entry 95), is refused with 0x1603 (R10, R234). Where both gateways open at
once, the lower pod's OPEN stands (DESIGN CHOICE, log entry 74). -/
def execRetrieverOpen (m : GwMsg) (s : State) : Out :=
  let pod := m.srcPod.toNat
  let own := nodePod s.fabric.node.toNat
  if !s.retr.enabled ∨ m.kind.toNat ≠ gwOPEN ∨ m.version ≠ 1 ∨ m.dstPod.toNat ≠ own then .next s
  else if m.key ≠ s.objB (Obj.retrieverKeyQ + pod) then .next (s.count Obj.retrieverAuthFailures 1)
  else if leAt m.payload 0 1 = 0 then .next (logEvent (Obj.retrieverSessionQ + pod) 0 0x1603 0xFF pod [] s)
  else if (s.gw pod).state = 1 ∧ own < pod then .next s
  else
    let s := gwDrop pod s
    let last : W32 := BitVec.ofNat 32 (max (tget 0 pod s.retr.counter).toNat m.session.toNat)
    let s := { s with retr := { s.retr with counter := tset pod last s.retr.counter } }
    let s := s.setGw pod { state := 2, number := m.session, key := m.key, txSeq := 1, rxSeq := m.seq.toNat + 1, rxAck := m.seq.toNat
                           readCr := m.readCr.toNat, storeCr := m.storeCr.toNat, progress := s.beat, resent := s.beat }
    let s := s.count Obj.retrieverSessionOpens 1
    .next (gwPumpAll (gwSend pod gwACCEPT 0 (levelPayload m.session) s))

/-- ACCEPT: the session is open with the peer's credits, and what waited goes (R234). -/
def execRetrieverAccept (m : GwMsg) (s : State) : Out :=
  let pod := m.srcPod.toNat
  if (s.gw pod).state ≠ 1 ∨ leAt m.payload 0 1 ≠ 1 then .next s
  else
    let s := s.setGw pod { s.gw pod with rxSeq := m.seq.toNat }
    match gwReceive gwACCEPT m s with
    | (false, s) => .next s
    | (true, s) =>
      let s := (s.setGw pod { s.gw pod with state := 2 }).count Obj.retrieverSessionOpens 1
      .next (gwPumpAll s)

/-- READ: the gateway near the target issues one GET for each run of masked units (R235). -/
def execRetrieverRead (m : GwMsg) (s : State) : Out :=
  match gwReceive gwREAD m s with
  | (false, s) => .next s
  | (true, s) =>
    let before := (s.gw m.srcPod.toNat).txSeq
    let v : GwServe := { n := s.retr.nextServe, pod := m.srcPod.toNat, slice := m.slice, read := true, body := m.body, data := s.freeBytes 4096 }
    let s := (s.drawn 4096)
    let s := { s with retr := { s.retr with serving := s.retr.serving ++ [v], nextServe := v.n + 1 } }
    .next (gwAfter m.srcPod.toNat before (gwServeOn (2 * s.retr.serving.length + 2) s))

/-- READ_DATA: every joined load is answered from the page, and the buffer freed (R235). -/
def execRetrieverReadData (m : GwMsg) (s : State) : Out :=
  match gwReceive gwREADDATA m s with
  | (false, s) => .next s
  | (true, s) =>
    let pod := m.srcPod.toNat
    let before := (s.gw pod).txSeq
    match s.retr.bufs.find? (fun b => b.read && b.sent && b.id == bodyBuf m.body && b.pod == pod) with
    | none => .next (gwAfter pod before s)
    | some b =>
      let s := dropBuf b.slice b.id s
      .next (gwAfter pod before (b.joined.foldl (fun s x =>
        gwAnswer x.1 x.2 b.page (fitBytes 4096 m.payload) (bodyStatus m.body) (bodyCode m.body) s) s))

/-- FLUSH: a source's flushes are applied in order, each as PUTs once every PUT of the one before is acknowledged (R236). -/
def execFlush (m : GwMsg) (s : State) : Out :=
  match gwReceive gwFLUSH m s with
  | (false, s) => .next s
  | (true, s) =>
    let before := (s.gw m.srcPod.toNat).txSeq
    let v : GwServe := { n := s.retr.nextServe, pod := m.srcPod.toNat, slice := m.slice, read := false, body := m.body, data := fitBytes 4608 m.payload }
    let s := { s with retr := { s.retr with serving := s.retr.serving ++ [v], nextServe := v.n + 1 } }
    .next (gwAfter m.srcPod.toNat before (gwServeOn (2 * s.retr.serving.length + 2) s))

/-- FLUSH_ACK: every packet held in the flushed buffer is acknowledged, or answered with the flush's status (R236). -/
def execFlushAck (m : GwMsg) (s : State) : Out :=
  match gwReceive gwFLUSHACK m s with
  | (false, s) => .next s
  | (true, s) =>
    let pod := m.srcPod.toNat
    let before := (s.gw pod).txSeq
    match s.retr.bufs.find? (fun b => !b.read && b.sent && b.id == bodyBuf m.body && b.pod == pod) with
    | none => .next (gwAfter pod before s)
    | some b => .next (gwAfter pod before (gwFlushed b (bodyStatus m.body) (bodyCode m.body) s))

/-- IDLE: ack and credits only (R234). -/
def execRetrieverIdle (m : GwMsg) (s : State) : Out :=
  match gwReceive gwIDLE m s with
  | (false, s) => .next s
  | (true, s) => .next (gwPumpAll s)

/-- RETRIEVER_RESEND: 50 µs without progress on ack, every unacknowledged message goes again in order (R234). -/
def execRetrieverResend (q : PodId) (s : State) : Out :=
  let x := s.gw q
  if x.unacked.isEmpty ∨ s.beat < max x.progress x.resent + 50000 then .next s
  else
    let s := (s.setGw q { x with resent := s.beat }).count Obj.retrieverResends x.unacked.length
    .next (x.unacked.foldl (fun s u => gwEmit q u.2.1 u.1 u.2.2.1 u.2.2.2 s) s)

/-- RETRIEVER_SESSION_TIMEOUT: 10 ms without progress, every operation waiting for the pod is answered path-lost, and the session
opens anew under a new number (R234). -/
def execRetrieverSessionTimeout (q : PodId) (s : State) : Out :=
  let x := s.gw q
  if x.state = 0 ∨ x.unacked.isEmpty ∨ s.beat < x.progress + 10000000 then .next s
  else
    let held := s.retr.held.filter (fun (x : Nat × Packet) => nodePod (pkSpecC x.2.hdr) == q.val)
    let s := { s with retr := { s.retr with held := s.retr.held.filter (fun (x : Nat × Packet) => nodePod (pkSpecC x.2.hdr) != q.val) } }
    let s := gwDrop q.val s
    let s := (s.retr.bufs.filter (fun (b : GwBuf) => b.pod == q.val)).foldl (fun s b => gwLose b s) s
    .next (gwRetry (s.retr.held.length + 1) (gwOpen q (held.foldl (fun s x => gwHeldLost x s) s)))

/-! Packets for memory, here or far away (R225, R233). -/

/-- LOAD arrives: for this module's memory, or at a gateway for a far node. -/
def execLoad (p : PortId) (pkt : Packet) (s : State) : Out :=
  match arriveHere fLOAD pkt s with
  | (false, s) => .next s
  | (true, s) =>
    if isFar pkt.hdr then .next (if s.retr.enabled then gwEnter (portDir p) pkt s else refuseFar (portDir p) 0 pkt.hdr s)
    else .next (localRead (portDir p) pkt.hdr s)

/-- GET arrives. -/
def execGet (p : PortId) (pkt : Packet) (s : State) : Out :=
  match arriveHere fGET pkt s with
  | (false, s) => .next s
  | (true, s) =>
    if isFar pkt.hdr then .next (if s.retr.enabled then gwEnter (portDir p) pkt s else refuseFar (portDir p) 0 pkt.hdr s)
    else .next (localRead (portDir p) pkt.hdr s)

/-- STORE arrives. -/
def execStore (p : PortId) (pkt : Packet) (s : State) : Out :=
  match arriveHere fSTORE pkt s with
  | (false, s) => .next s
  | (true, s) =>
    if isFar pkt.hdr then .next (if s.retr.enabled then gwEnter (portDir p) pkt s else refuseFar (portDir p) 0 pkt.hdr s)
    else .next (localWrite (portDir p) pkt s)

/-- PUT arrives. -/
def execPut (p : PortId) (pkt : Packet) (s : State) : Out :=
  match arriveHere fPUT pkt s with
  | (false, s) => .next s
  | (true, s) =>
    if isFar pkt.hdr then .next (if s.retr.enabled then gwEnter (portDir p) pkt s else refuseFar (portDir p) 0 pkt.hdr s)
    else .next (localWrite (portDir p) pkt s)

/-! Replies (R225, R229, R230). -/

/-- Positions of an operation's landing space that no reply filled (R230). -/
def unfilled (t : Track) : List Nat :=
  (List.range (crLength t.record)).filter (fun i => !t.got.any (fun g => decide (g.1 ≤ i) && decide (i < g.1 + g.2)))

/-- A GET failed: landing bytes that no GET_DATA filled are undefined (R230). -/
def spoilGet (t : Track) (s : State) : State :=
  (runsOf (unfilled t)).foldl (fun s x =>
    siteWrite (crSite t.record) (crLocal t.record + x.1) (s.freeBytes x.2) (s.drawn x.2)) s

/-- An operation ends: the record of a command queue, a gateway's own, or one that nothing waits for (R223, R230). -/
def endTrack (t : Track) (status code value : Nat) (s : State) : State :=
  let s := { s with rmem := { s.rmem with tracks := s.rmem.tracks.filter (fun x => x.tag != t.tag) } }
  if t.queue < 64 then
    endRecord t.queue t.record status code value (if status ≠ 0 ∧ crOp t.record = fGET then spoilGet t s else s)
  else if t.queue = noQueue then s
  else gwOpDone t.queue status code s

/-- A reply arrives: its mark feeds rate control (R212), and the operation under its tag is found. A reply for a quarantined tag is
discarded and counted (R230). -/
def replyFor (op : Nat) (k : Packet) (s : State) : Option Track × State :=
  match arriveHere op k s with
  | (false, s) => (none, s)
  | (true, s) =>
    let s := noteEcho k.hdr s
    let tag : W16 := BitVec.ofNat 16 (pkTag k.hdr)
    match s.rmem.tracks.find? (fun t => t.tag == tag) with
    | some t => (some t, s)
    | none => (none, if s.rmem.quarantine.any (fun x => x.1 == tag) then s.count Obj.rmemLateReplies 1 else s)

/-- What waited for the reply may go on: paced packets, packets without reply space, then records (R207, R212, R224). -/
def afterReply (s : State) : State :=
  let s := drainPaced (s.fabric.paced.length + 1) s
  let s := drainUntagged s.fabric.untagged.length s
  takeRecords (waitingRecords s) s

/-- Put the bytes of a reply into the landing space of its operation. -/
def landReply (t : Track) (at_ : Nat) (b : Bytes) (s : State) : State :=
  if t.queue < 64 then siteWrite (crSite t.record) (crLocal t.record + at_) b s
  else if t.queue = noQueue then s
  else
    { s with retr := { s.retr with serving := s.retr.serving.map (fun (v : GwServe) =>
      if gwQueue v.n = t.queue then
        let o := crOffset t.record - bodyPage v.body + at_
        { v with data := v.data.take o ++ b ++ v.data.drop (o + b.length) }
      else v) } }

/-- One of an operation's replies is in: with none left it ends, in success or with its first failure in offset order (R229). -/
def countReply (t : Track) (n : Nat) (s : State) : State :=
  let t := { t with left := t.left - n }
  if t.left = 0 then
    match t.failure with
    | some (_, st, code) => endTrack t st code 0 s
    | none => endTrack t 0 0 0 s
  else { s with rmem := { s.rmem with tracks := s.rmem.tracks.map (fun x => if x.tag = t.tag then t else x) } }

/-- LOAD_DATA: the data land. A LOAD that a gateway answers by pages ends with its last bytes. -/
def execLoadData (pkt : Packet) (s : State) : Out :=
  match replyFor fLOADDATA pkt s with
  | (none, s) => .next (afterReply s)
  | (some t, s) =>
    if crOp t.record ≠ fLOAD then .next (afterReply s)
    else
      let n := min (pkLength pkt.hdr) t.left
      let at_ := pkOffset pkt.hdr - crOffset t.record
      let s := landReply t at_ ((fitBytes (pkLength pkt.hdr) pkt.payload).take (crLength t.record - at_)) s
      .next (afterReply (countReply t n s))

/-- GET_DATA: its bytes land at its position; the last of them ends the GET. -/
def execGetData (pkt : Packet) (s : State) : Out :=
  match replyFor fGETDATA pkt s with
  | (none, s) => .next (afterReply s)
  | (some t, s) =>
    if crOp t.record ≠ fGET then .next (afterReply s)
    else
      let at_ := pkOffset pkt.hdr
      let b := (fitBytes (pkLength pkt.hdr) pkt.payload).take (crLength t.record - at_)
      .next (afterReply (countReply { t with got := t.got ++ [(at_, b.length)] } b.length (landReply t at_ b s)))

/-- ATOMIC_DATA: the old value lands and is returned in the completion record. -/
def execAtomicData (pkt : Packet) (s : State) : Out :=
  match replyFor fATOMICDATA pkt s with
  | (none, s) => .next (afterReply s)
  | (some t, s) =>
    if crOp t.record ≠ fATOMIC then .next (afterReply s)
    else
      let s := landReply t 0 (fitBytes (crLength t.record) (pkt.payload.take 8)) s
      .next (afterReply (endTrack t 0 0 (leAt pkt.payload 0 8) s))

/-- ACK: one packet of a write is visible at its target; the last completes the record (R225). -/
def execAck (pkt : Packet) (s : State) : Out :=
  match replyFor fACK pkt s with
  | (none, s) => .next (afterReply s)
  | (some t, s) => if crWrites t.record ∧ crOp t.record ≠ fATOMIC then .next (afterReply (countReply t 1 s)) else .next (afterReply s)

/-- STATUS: an operation fails. A read or a single packet ends with it; of several packets the first failure in offset order is kept.
Path-lost marks the node unreachable (R229, R230). For a send window or route control it is logged and counted (R223; the counter
is no object, log entry 96). -/
def execStatus (pkt : Packet) (s : State) : Out :=
  let status := bitsAt (pkSpecA pkt.hdr) 0 8
  let code := pkSpecB pkt.hdr
  match replyFor fSTATUS pkt s with
  | (none, s) => .next (afterReply s)
  | (some t, s) =>
    let s := if status = 1 then markUnreachable (crDest t.record) s else s
    let s :=
      if t.queue = noQueue then
        let s := { s with rmem := { s.rmem with sendLost := s.rmem.sendLost + 1 } }
        logEvent Obj.rmemLastFaultNode 2 code 0xFF 0 (bvBytes pkt.hdr)
          ((s.setObj Obj.rmemLastFaultNode (crDest t.record)).setObj Obj.rmemLastFaultBeat s.beat)
      else s
    if crOp t.record = fPUT ∨ crOp t.record = fMCAST then
      let off := pkOffset pkt.hdr
      let failure := match t.failure with
        | some (o, st, c) => if off < o then (off, status, code) else (o, st, c)
        | none => (off, status, code)
      .next (afterReply (countReply { t with failure := some failure } 1 s))
    else .next (afterReply (endTrack t status code 0 s))

/-- RMEM_TIMEOUT: no final reply in time (R230): status 0x06, the node marked unreachable, the tag in quarantine for 20 ms. An
operation that nothing waits for only frees its reply space (R207, log entry 96). -/
def execRmemTimeout (tag : W16) (s : State) : Out :=
  match s.rmem.tracks.find? (fun t => t.tag == tag) with
  | none => .next s
  | some t =>
    let us := s.obj (if crFar t.record then Obj.retrieverTimeoutUs else Obj.rmemTimeoutUs)
    if s.beat < t.began + 1000 * us then .next s
    else
      let s := if t.queue = noQueue then s else markUnreachable (crDest t.record) (s.count Obj.rmemTimeouts 1)
      let s := { s with rmem := { s.rmem with
        quarantine := s.rmem.quarantine ++ [(tag, s.beat + 1000000 * s.obj Obj.rmemTagQuarantineMs)] } }
      .next (afterReply (endTrack t 0x06 0 0 s))

end Sys2Proof.Machine
end

