-- ==== Sys2Proof/Machine/Clock.lean ====
section
/-! DEFINITION. What one nanosecond does on its own: the beat counter and its slewing (R256, R257), the Pod's calendar clock
(R316, R317), the cycles that keep a check-value unit busy (R344), and what the fabric's agents hold back for time alone. -/

namespace Sys2Proof.Machine

/-- Slewing removes at most 100 ppm of the rate, 0.1 ps for each nanosecond (R257): amount taken in this nanosecond, in 0.1
ps units of the counter. -/
def slewStep (slew : Int) : Int := if 0 < slew then 1 else if slew < 0 then -1 else 0

/-- One nanosecond of the beat counter: it never stops while the module is powered (R256). -/
def tickBeat (s : State) : State :=
  let d := slewStep s.time.slew
  let fr := s.time.frac + d
  let (adv, fr) := if 10000 ≤ fr then (2, fr - 10000) else if fr ≤ -10000 then (0, fr + 10000) else (1, fr)
  { s with beat := s.beat + adv, time := { s.time with slew := s.time.slew - d, frac := fr } }

/-- One nanosecond of the Pod's clock, which runs on every supply until it is lost, and again once the Pod is powered (R316), slewed at 1,000 ppm (R317). -/
def tickPod (s : State) : State :=
  let p := s.pod
  if p.lost ∧ !p.powered then s
  else if p.slew = 0 then { s with pod := takeCal p.clock <| sampleTestLine p.clock { p with clock := p.clock + 1, frac := 0 } }
  else if p.frac < 999 then { s with pod := takeCal p.clock <| sampleTestLine p.clock { p with clock := p.clock + 1, frac := p.frac + 1 } }
  else
    let d : Int := if 0 < p.slew then 1 else -1
    let q : Pod := { p with clock := p.clock + (if 0 < p.slew then 2 else 0), slew := p.slew - d, frac := 0 }
    { s with pod := takeCal p.clock <| sampleTestLine p.clock q }

/-- A check-value unit works off its busy cycles (R344). -/
def tickCvus (s : State) : State :=
  { s with cvus := s.cvus.map (fun (p : Nat × Cvu) => (p.1, { p.2 with busy := p.2.busy - (if p.1 < 256 then 2 else 1) })) }

/-- A cartridge that is lit counts its powered hours (R150). -/
def tickHarp (h : Harp) : Harp :=
  if !h.shutter then h
  else if h.ns + 1 < 3600000000000 then { h with ns := h.ns + 1 }
  else { h with ns := 0, hours := h.hours + 1 }

/-- Every cartridge's hours. -/
def tickHarps (s : State) : State := { s with harps := s.harps.map (fun (p : Nat × Harp) => (p.1, tickHarp p.2)) }

/-- Rim dies and the remote-operation engine go on with what time alone holds back: accesses whose reply is due (R225), packets
and records held for a rate (R212, R224). -/
def tickFabric (s : State) : State :=
  let s := if s.rmem.ops.isEmpty then s else settleOps (opFuel s) s
  let s := if s.fabric.paced.isEmpty then s else drainPaced (s.fabric.paced.length + 1) s
  if s.rmem.waiting.isEmpty then s else takeRecords (waitingRecords s) s

/-- One nanosecond passes (DESIGN CHOICE, log entry 4). -/
def tick (s : State) : State :=
  if s.powered then tickFabric (tickHarps (tickCvus (tickPod (tickBeat s)))) else tickPod s

end Sys2Proof.Machine
end

