-- ==== Sys2Proof/Machine/ConfigStore.lean ====
section
/-! DEFINITION. Values of objects as bytes, the digests over them, and the stored configuration (R277, R282, R283, R285, R300). -/

namespace Sys2Proof.Machine

/-- An object whose value is a byte string (R277). -/
def byteType (ty : Nat) : Bool := ty == 0x0B || ty == 0x0F

/-- A signed integer type (R277). -/
def signedType (ty : Nat) : Bool := decide (2 ≤ ty ∧ ty ≤ 5)

/-- Bytes of the written value of an object, little-endian (R277). -/
def storedBytes (s : State) (k : Nat) : Bytes :=
  match objRow k with
  | some r => if byteType r.ty then s.objB k else leBytes r.len (s.obj k)
  | none => []

/-- An entry as it enters a digest: index, sub, type, length, value (R282). -/
def entryBytes (key ty : Nat) (data : Bytes) : Bytes :=
  leBytes 2 (key / 256) ++ leBytes 1 key ++ leBytes 1 ty ++ leBytes 4 data.length ++ data

/-- Digest of a set of entries, in their order (R282). -/
def entriesDigest (l : List Entry) : Nat := crc32c (l.flatMap (fun e => entryBytes e.key e.ty.toNat e.data))

/-- Digest of the active routing bank; 0 while none is valid (R201). -/
def activeRouteDigest (s : State) : Nat :=
  if s.fabric.bankValid.getD s.fabric.epoch false then (tget {} s.fabric.epoch s.fabric.banks).digest.toNat else 0

/-- The `slot_job` that carries the group flag: that of the slot `ens_slot` names (R300). -/
def groupJobKey (s : State) : Nat := slotKey Obj.slotJob (s.obj Obj.ensSlot)

/-- The group objects, in ascending index:sub (R300). -/
def groupKeys (s : State) : List Nat :=
  [Obj.formatSupportMask, Obj.mcClockMhz, Obj.lwLaunchLeadBeats, Obj.specMaxStreams, Obj.podNumber, Obj.podWidth, Obj.podHeight,
   Obj.routeSetDigest, Obj.collTimeoutUs, Obj.rmemTimeoutUs, Obj.ensId, Obj.ensSize, Obj.ensSlot, Obj.ensMemberTable,
   groupJobKey s]

/-- The group digest (R300). -/
def groupDigest (s : State) : Nat :=
  crc32c ((groupKeys s).flatMap (fun k =>
    let ty := ((objRow k).map (·.ty)).getD 0
    entryBytes k ty (if k = Obj.routeSetDigest then leBytes 4 (activeRouteDigest s) else storedBytes s k)))

/-! The stored configuration (R283, R285). -/

/-- The record of a copy as NAND holds it (R285): magic, generation, count and length of the entries, their CRC-32C, and that of the
header; nothing where the copy is empty. -/
def copyBytes (c : ConfigCopy) : Bytes :=
  let body := c.entries.flatMap (fun e => entryBytes e.key e.ty.toNat e.data)
  let head := leBytes 4 0x5A434647 ++ leBytes 8 c.gen.toNat ++ leBytes 4 c.entries.length ++ leBytes 4 body.length
    ++ leBytes 4 (crc32c body)
  if c.status = 2 then [] else head ++ leBytes 4 (crc32c head) ++ body

/-- Up to n entries at the start of a byte string (R282). -/
def parseEntries : Nat → Bytes → List Entry
  | 0, _ => []
  | n + 1, b =>
    let len := leAt b 4 4
    if b.length < 8 + len then []
    else { key := 256 * leAt b 0 2 + leAt b 2 1, ty := BitVec.ofNat 8 (leAt b 3 1), data := (b.drop 8).take len }
      :: parseEntries n (b.drop (8 + len))

/-- What a copy that reads back as `b` is: empty, valid with its generation and entries, or invalid (R285). -/
def readCopy (b : Bytes) : ConfigCopy :=
  let body := b.drop 28
  let entries := parseEntries (leAt b 12 4) body
  if b.isEmpty then { status := 2, gen := 0 }
  else if leAt b 0 4 = 0x5A434647 ∧ leAt b 24 4 = crc32c (b.take 24) ∧ leAt b 16 4 = body.length ∧ leAt b 20 4 = crc32c body
      ∧ entries.length = leAt b 12 4 then
    { status := 0, gen := BitVec.ofNat 64 (leAt b 4 8), entries }
  else { status := 1, gen := 0 }

/-- Put an entry among stored ones, by key. -/
def putEntry (e : Entry) : List Entry → List Entry
  | [] => [e]
  | x :: r => if e.key = x.key then e :: r else if e.key < x.key then e :: x :: r else x :: putEntry e r

/-- The copy that a commit builds on: the valid one of the higher generation (R283, R285). -/
def baseCopy (c : CfgState) : Option ConfigCopy :=
  match c.copyA.status, c.copyB.status with
  | 0, 0 => some (if c.copyA.gen < c.copyB.gen then c.copyB else c.copyA)
  | 0, _ => some c.copyA
  | _, 0 => some c.copyB
  | _, _ => none

/-- Entries as a new generation in both copies; it is in force (R283 step 6, R285). -/
def newGeneration (base entries : List Entry) (s : State) : State :=
  let gen := ((baseCopy s.config).map (fun (c : ConfigCopy) => c.gen)).getD 0 + 1
  let copy : ConfigCopy := { status := 0, gen, entries := entries.foldl (fun l e => putEntry e l) base }
  { s with config := { s.config with copyA := copy, copyB := copy, gen } }

/-- Persistent entries are merged into the stored configuration (R283 step 6), and the commit is traced (R366). -/
def storeEntries (client digest : Nat) (l : List Entry) (s : State) : State :=
  let s := newGeneration (((baseCopy s.config).map (fun (c : ConfigCopy) => c.entries)).getD []) l s
  traceMake hubSite 0 0x08 (leBytes 8 s.config.gen.toNat ++ leBytes 4 client ++ leBytes 4 l.length ++ leBytes 4 digest) s

end Sys2Proof.Machine
end

