-- ==== Sys2Proof/Machine/Cvu.lean ====
section
/-! DEFINITION. Check-value units (R342 to R352): 256 in the Whippets, eight on the hub. A unit works off its bytes in the
order in which they were accepted, so a write or a read that finds it busy has, after its wait, the same effect as on an
idle unit; the wait is counted and its length is in `busy`. -/

namespace Sys2Proof.Machine

/-- Number of a unit: Whippet w at w, hub unit n at 256 + n. -/
def cvuKey : CvuRef → Nat
  | .whippet w => w.val
  | .hub n _ => 256 + n.val

/-- A hub unit. -/
def cvuIsHub : CvuRef → Bool
  | .whippet _ => false
  | .hub _ _ => true

/-- The unit is there for the agent that names it (R342): an enabled Whippet of a die that serves, or an agent of the hub
(R120: 29 front end, 30 controllers, 31 Beagle, 32 loader) while the hub runs. -/
def cvuReach (s : State) : CvuRef → Bool
  | .whippet w => !unitDisabled s (64 + w.val) && dieUp s (whipDie w.val)
  | .hub _ agent => decide (2 ≤ s.dev.state ∧ s.dev.state ≠ 8 ∧ 29 ≤ agent ∧ agent ≤ 32)

/-- Width W (R346). -/
def cvuW (u : Cvu) : Nat := fieldAt u.ctrl 0 6 + 1
def cvuRefin (u : Cvu) : Bool := u.ctrl.getLsbD 6
def cvuRefout (u : Cvu) : Bool := u.ctrl.getLsbD 7

/-- Bits [W − 1 : 0] of a register (R345). -/
def cvuMask (u : Cvu) (v : W64) : Nat := v.toNat % 2 ^ cvuW u

/-- RESULT (R343). -/
def cvuResult (u : Cvu) : Nat :=
  let r := cvuMask u u.reg
  (if cvuRefout u then revBits (cvuW u) r else r) ^^^ cvuMask u u.xorout

/-- One byte enters the register (R343). -/
def cvuFeed (u : Cvu) (b : Byte) : Cvu :=
  { u with reg := BitVec.ofNat 64 (crcByte (cvuW u) (cvuMask u u.poly) (cvuRefin u) (cvuMask u u.reg) b.toNat) }

/-- An access that waits for a unit with bytes left is counted (R344). -/
def cvuStall (k : Nat) (s : State) : State := if (s.cvu k).busy = 0 then s else s.count Obj.cvuBusyStalls 1

/-- A CTRL write: width and reflection, the register cut to the new width, then the load of INIT where start is set (R345,
R346). -/
def cvuCtrl (v : Nat) (u : Cvu) : Cvu :=
  let u := { u with ctrl := BitVec.ofNat 32 (v % 256) }
  let u := { u with reg := BitVec.ofNat 64 (cvuMask u u.reg) }
  if v.testBit 8 then { u with reg := BitVec.ofNat 64 (cvuMask u u.init) } else u

/-- Bytes enter a unit: one cycle for each (R344). -/
def cvuData (r : CvuRef) (b : Bytes) (s : State) : State :=
  let k := cvuKey r
  let s := cvuStall k s
  let u := b.foldl cvuFeed (s.cvu k)
  let s := s.setCvu k { u with busy := u.busy + b.length }
  s.count (if cvuIsHub r then Obj.cvuHubBytes else Obj.cvuWhippetBytes) b.length

/-- A write of a register other than OWNER that the unit accepts (R345). -/
def cvuPut (r : CvuRef) (off v : Nat) (s : State) : State :=
  let k := cvuKey r
  let put (f : Cvu → Cvu) : State := (cvuStall k s).setCvu k (f (s.cvu k))
  match off with
  | 0x00 => put (cvuCtrl (v % 2 ^ 32))
  | 0x08 => put (fun u => { u with poly := BitVec.ofNat 64 (v % 2 ^ cvuW u) })
  | 0x10 => put (fun u => { u with init := BitVec.ofNat 64 (v % 2 ^ cvuW u) })
  | 0x18 => put (fun u => { u with xorout := BitVec.ofNat 64 (v % 2 ^ cvuW u) })
  | 0x20 => put (fun u => { u with reg := BitVec.ofNat 64 (v % 2 ^ cvuW u) })
  | 0x30 => cvuData r (leBytes 1 v) s
  | 0x34 => cvuData r (leBytes 2 v) s
  | 0x38 => cvuData r (leBytes 4 v) s
  | _ => s

/-- A hub unit refuses a write (R347). -/
def cvuRefuse (k : Nat) (s : State) : State :=
  (s.setCvu k { s.cvu k with refused := true }).count Obj.cvuOwnerRefusals 1

/-- A write of a hub unit's OWNER (R347): a claim of a free unit by its own index, or a release by the owner. -/
def cvuOwner (k agent v : Nat) (s : State) : State :=
  let u := s.cvu k
  if u.owner = 0xFF ∧ v = agent then s.setCvu k { u with owner := agent }
  else if u.owner = agent ∧ v = 0xFF then s.setCvu k { u with owner := 0xFF }
  else cvuRefuse k s

/-- The unit has the register: OWNER is a hub unit's only. -/
def cvuHas (r : CvuRef) (off : Nat) : Bool :=
  [0x00, 0x08, 0x10, 0x18, 0x20, 0x28, 0x30, 0x34, 0x38, 0x3C].contains off || (off == 0x40 && cvuIsHub r)

/-- A register write that reaches its unit (R345, R347): an agent that does not hold a hub unit is refused. -/
def cvuReached (r : CvuRef) (off v : Nat) (s : State) : State :=
  match r with
  | .whippet _ => cvuPut r off v s
  | .hub _ agent =>
    if off = 0x40 then cvuOwner (cvuKey r) agent (v % 256) s
    else if (s.cvu (cvuKey r)).owner ≠ agent then cvuRefuse (cvuKey r) s
    else cvuPut r off v s

/-- A register write (R345 to R347): a reserved offset is ignored; a write of a hub unit by the controllers is an output of their
control cycle (R290), and reaches the unit when that leaves. -/
def cvuWrite (r : CvuRef) (off v : Nat) (s : State) : State :=
  if !cvuReach s r || !cvuHas r off then s
  else
    match r with
    | .hub n 30 => ctlEmit (.cvuPut n.val off v) s
    | r => cvuReached r off v s

/-- Value of a register; a data register is write-only and reads a free value. -/
def cvuValue (r : CvuRef) (off : Nat) (s : State) : Nat :=
  let u := s.cvu (cvuKey r)
  if !cvuHas r off then 0
  else match off with
  | 0x00 => u.ctrl.toNat
  | 0x08 => cvuMask u u.poly
  | 0x10 => cvuMask u u.init
  | 0x18 => cvuMask u u.xorout
  | 0x20 => cvuMask u u.reg
  | 0x28 => cvuResult u
  | 0x3C => (if u.busy = 0 then 0 else 1) + (if u.refused then 2 else 0)
  | 0x40 => u.owner
  | _ => s.freeWord.toNat

/-- A register read: VALUE and RESULT wait until the unit is idle (R344), and a read of STATUS clears owner_refused (R346). -/
def cvuRead (r : CvuRef) (off : Nat) (s : State) : State :=
  if !cvuReach s r then s
  else
    let k := cvuKey r
    let v := cvuValue r off s
    let s := if off = 0x20 ∨ off = 0x28 then cvuStall k s else s
    let s := if off = 0x3C then s.setCvu k { s.cvu k with refused := false } else s
    (s.emit (.cvu k off v)).drawn 1

/-- DATA8 (R344). -/
def execData8 (u : CvuRef) (v : Byte) (s : State) : Out := .next (cvuWrite u 0x30 v.toNat s)

/-- DATA16 (R344): low byte first. -/
def execData16 (u : CvuRef) (v : W16) (s : State) : Out := .next (cvuWrite u 0x34 v.toNat s)

/-- DATA32 (R344): low byte first. -/
def execData32 (u : CvuRef) (v : W32) (s : State) : Out := .next (cvuWrite u 0x38 v.toNat s)

/-- CTRL (R346). -/
def execCtrl (u : CvuRef) (v : W32) (s : State) : Out := .next (cvuWrite u 0x00 v.toNat s)

/-- CVU_START (R346): a CTRL write with start set. -/
def execCvuStart (u : CvuRef) (v : W32) (s : State) : Out := .next (cvuWrite u 0x00 (v.toNat ||| 0x100) s)

/-- VALUE (R345). -/
def execValue (u : CvuRef) (v : W64) (s : State) : Out := .next (cvuWrite u 0x20 v.toNat s)

/-- OWNER (R347). -/
def execOwner (n : Fin 8) (agent : Nat) (v : Byte) (s : State) : Out := .next (cvuWrite (.hub n agent) 0x40 v.toNat s)

end Sys2Proof.Machine
end

