-- ==== Sys2Proof/Machine/PowerThermal.lean ====
section
/-! DEFINITION. Power input and thermal management (R323 to R341): input levels, loss and hold-up, ceilings, sensors with their
cross-checks, levels and shutdowns; and what is lost when supplies go off. -/

namespace Sys2Proof.Machine

/-! Supplies off (R286, R292, R325). -/

/-- What stays of a string without power: the calibration of its lanes (R169). -/
def coldString (t : Str) : Str :=
  { ({} : Str) with lanes := t.lanes.map (fun (p : Nat × Lane) => (p.1, { p.2 with usable := false })) }

/-- Compute, Soundboard, DRAM, lightbed and Harp rails are off: what they held is lost. Cartridges stay in their slots, and
stored training values, calibrations, the image store and NAND stay (R169, R183, R234, R325). -/
def railsOff (s : State) : State :=
  { s with
    mem := [], bad := [], cores := [], wins := [], dies := [], whips := [], sched := {}, arbs := [], tiles := [], bus := []
    tags := [], domains := [], sounding := {}, ports := [], fabric := {}, rmem := {}, cvus := []
    strings := s.strings.map (fun (p : Nat × Str) => (p.1, coldString p.2))
    harps := s.harps.map (fun (p : Nat × Harp) => (p.1, { p.2 with led := 0, shutter := false }))
    dram := { ({} : Dram) with
      trained := s.dram.trained, spareRows := s.dram.spareRows, repair := s.dram.repair, rowHits := s.dram.rowHits
      nextBlock := s.dram.nextBlock }
    retr := { ({} : Retr) with counter := s.retr.counter }
    serve := { ({} : Serve) with
      links := s.serve.links, nextSess := s.serve.nextSess, nextCtx := s.serve.nextCtx, counts := s.serve.counts }
    images := { s.images with slots := [], order := [] }
    kat := { ({} : Kat) with nextCore := s.kat.nextCore, nextWhip := s.kat.nextWhip }
    beagle := { s.beagle with queues := [], hubq := [], buffer := [], lostAt := [], state := 0, post := none }
    dev := { s.dev with rerunning := [], marginRun := 0, started := false, heldAtBoot := false }
    power := { s.power with rails := s.power.rails % 4, capSince := none } }

/-- The module goes Off (R325 step 5): every pending log entry is written, and the controller halves go off too, the beat counter with
them (R257, R370). -/
def powerOff (s : State) : State :=
  let s := enterState 0 (railsOff (closeSecond s))
  { s with
    beat := 0, time := {}, pair := {}, ens := {}, therm := {}
    tallies := { s.tallies with last := 0, oldest := 0, timeSent := 0 }, log := { s.log with secondNo := 0, second := [] }
    config := { s.config with staged := [], owner := none, subs := [], segs := [], seqs := [], notifies := [], gen := 0 }
    power := { s.power with rails := 0, lossBeat := none } }

/-- Fault-stop (R292, R334): supplies off, latched thermal levels kept. -/
def faultStop (s : State) : State :=
  if s.dev.state = 8 then s
  else
    let s := enterState 8 (railsOff s)
    let s := logEvent Obj.deviceState 3 0 0xFF 0 [] s
    { s with config := { s.config with staged := [], owner := none, subs := [], segs := [] } }

/-! Input voltage (R323 to R326). -/

/-- INPUT_IN_RANGE: the input has stayed within 260 to 410 V for 100 ms; the module leaves Off for Standby, and Boot follows
where `auto_boot` is 1 (R287, R324). The beat counter starts at 0 (R257), and so do the counts since power-up (R100, R187). -/
def execInputInRange (mv : Nat) (s : State) : Out :=
  if s.dev.state ≠ 0 ∨ mv < 260000 ∨ 410000 < mv then .next s
  else
    let s := { s with
      beat := 0, time := {}, power := { s.power with mv, input := 0, switchOpen := false, rails := 3, lossBeat := none } }
    let s := enterState 1 ((s.setObj Obj.stealsSincePowerup 0).setObj Obj.stackFailures 0)
    .next (if s.obj Obj.autoBoot = 1 then enterState 2 s else s)

/-- A loss is declared, T half a millisecond earlier: no new window is launched, and the event is written (R325 steps 1 to
3). -/
def declareLoss (s : State) : State :=
  let s := { s with
    power := { s.power with input := 3, lossBeat := some (s.beat - 500000) }, sched := { s.sched with halted := true } }
  logEvent Obj.inputState 1 0 0xFF 0 (leBytes 4 s.power.mv) s

/-- OVER_VOLTAGE: at 430 to 450 V for 50 µs the input switch opens and the module goes Off as for a loss; above 450 V no
behaviour is promised (R323). -/
def execOverVoltage (mv : Nat) (s : State) : Out :=
  if 450000 < mv then .fault .beyondAbsoluteMaximum
  else if mv < 430000 ∨ !s.powered ∨ s.power.switchOpen then .next s
  else
    let s := { s with power := { s.power with mv, switchOpen := true } }
    let s := countLog Obj.overvoltageCutouts 1 0 0xFF 0 (leBytes 4 mv) s
    .next (if s.power.input = 3 then s else declareLoss s)

/-- INPUT_HIGH: 410 to 430 V, logged once per crossing (R323). -/
def execInputHigh (mv : Nat) (s : State) : Out :=
  if mv ≤ 410000 ∨ 430000 ≤ mv ∨ !s.powered ∨ s.power.input = 1 ∨ s.power.input = 3 then .next s
  else
    .next (logEvent Obj.inputState 1 0 0xFF 0 (leBytes 4 mv) { s with power := { s.power with mv, input := 1 } })

/-- BROWN_OUT: 240 to 260 V; the current is limited under R326 (R323). No effect in Standby (R339). -/
def execBrownOut (mv : Nat) (s : State) : Out :=
  if mv < 240000 ∨ 260000 ≤ mv ∨ s.dev.state ≤ 1 ∨ s.power.input = 2 ∨ s.power.input = 3 then .next s
  else .next (countLog Obj.brownoutEntries 1 0 0xFF 0 (leBytes 4 mv) { s with power := { s.power with mv, input := 2 } })

/-- INPUT_THRESHOLD_CLEAR: the voltage is 5 V inside the range again (R323). -/
def execInputThresholdClear (mv : Nat) (s : State) : Out :=
  if (s.power.input = 1 ∧ mv ≤ 405000) ∨ (s.power.input = 2 ∧ 265000 ≤ mv) then
    .next { s with power := { s.power with mv, input := 0 } }
  else .next s

/-- INPUT_LOSS: below 240 V for 0.5 ms (R325 step 2). -/
def execInputLoss (mv : Nat) (s : State) : Out :=
  if 240000 ≤ mv ∨ !s.powered ∨ s.power.input = 3 then .next s
  else .next (declareLoss { s with power := { s.power with mv } })

/-- RIDE_THROUGH: the input is back at 260 V for 1 ms before hold-up ends (R325 step 4). -/
def execRideThrough (mv : Nat) (s : State) : Out :=
  match s.power.lossBeat with
  | some t =>
    if s.power.input = 3 ∧ 260000 ≤ mv ∧ !s.power.switchOpen ∧ s.beat < t + 5000000 then
      let s := { s with
        power := { s.power with mv, input := 0, lossBeat := none }, sched := { s.sched with halted := false } }
      .next (countLog Obj.rideThroughs 1 0 0xFF 0 [] s)
    else .next s
  | none => .next s

/-- HOLDUP_EXPIRY: 5 ms after T the rails switch off and the module is Off (R325 step 5). -/
def execHoldupExpiry (s : State) : Out :=
  match s.power.lossBeat with
  | some t =>
    if s.power.input = 3 ∧ t + 5000000 ≤ s.beat then .next (powerOff (countLog Obj.inputLosses 2 0 0xFF 0 [] s)) else .next s
  | none => .next s

/-- CURRENT_LIMIT_EXPIRY: the hardware limiter has acted for more than 5 ms (R326). -/
def execCurrentLimitExpiry (s : State) : Out :=
  if !s.powered ∨ s.power.input = 3 then .next s else .next (declareLoss s)

/-! The power cap (R326). -/

/-- Input power limit, W: the lower of `power_cap_w` and 7.0 A × V. -/
def powerLimit (s : State) : Nat := min (s.obj Obj.powerCapW) (7 * s.power.mv / 1000)

/-- Governor estimate of a die, 0.1 W (R78). -/
def estimate (d : Die) : Nat := d.hist.headD 0

/-- The input voltage and power of a control cycle: over the limit, every die without a cap ceiling gets one at its estimate (R326). -/
def notePower (mv watts : Nat) (s : State) : State :=
  let s := { s with power := { s.power with mv, watts } }
  if powerLimit s < watts ∧ 2 ≤ s.dev.state ∧ s.dev.state ≠ 8 then
    let s := { s with power := { s.power with capSince := some (s.power.capSince.getD s.beat) } }
    (List.range 16).foldl (fun s n =>
      let d := s.die n
      if d.capCeil.isNone then s.setDie n { d with capCeil := some (estimate d), ceilBeat := s.beat } else s) s
  else s

/-- Once the last cap ceiling is gone the time under R326 is counted. -/
def settleCap (s : State) : State :=
  match s.power.capSince with
  | some b =>
    if (List.range 16).any (fun n => (s.die n).capCeil.isSome) then s
    else
      ({ s with power := { s.power with capSince := none } }).count Obj.capLimitedMs ((s.beat - b) / 1000000)
  | none => s

/-! Dies and sensors (R329, R330). -/

/-- Kind of a die at a site: 0 lightbed, 1 compute, hub or rim, 2 Soundboard layer, 3 DRAM die or logic base; none where no
such die is. -/
def dieKind (site die : Nat) : Option Nat :=
  if 28 < site then none
  else if die = 0 then some 0
  else if (siteStack site).isSome then (if die ≤ 13 then some 3 else none)
  else if die = 1 then some 1
  else if (siteDie site).isSome ∧ die ≤ 5 then some 2
  else none

/-- Sensors of a die (R329). -/
def sensorCount (site die : Nat) : Nat :=
  match dieKind site die with
  | some 0 => 2
  | some 1 => if (siteDie site).isSome then 64 else if site = hubSite then 16 else 8
  | some 2 => 8
  | some 3 => 4
  | _ => 0

/-- Warn, its clear, throttle, its clear, shutdown; 0.1 °C (R330). -/
def thresholds (kind : Nat) : Nat × Nat × Nat × Nat × Nat :=
  match kind with
  | 0 => (800, 760, 880, 840, 1000)
  | 1 => (950, 900, 1050, 1000, 1180)
  | 2 => (900, 850, 1000, 950, 1100)
  | _ => (850, 800, 950, 900, 1050)

/-- Columns of a sensor grid: 8 × 8 of a compute die (R329); 4 × 4 of the hub and 4 × 2 of a rim die (log entry 19). -/
def gridCols (site : Nat) : Nat := if (siteDie site).isSome then 8 else 4

/-- Grid sites adjacent in row or column (R15). -/
def adjacentSites (site : Nat) : List Nat :=
  if 24 < site then []
  else (List.range 25).filter (fun o =>
    let dx := Int.natAbs ((site % 5 : Int) - (o % 5 : Int))
    let dy := Int.natAbs ((site / 5 : Int) - (o / 5 : Int))
    dx + dy == 1)

/-- Neighbours of sensor i: site, die, sensor (R335). -/
def neighbours (site die i : Nat) : List (Nat × Nat × Nat) :=
  let n := sensorCount site die
  match dieKind site die with
  | some 0 => (site, 0, 1 - i) :: (adjacentSites site).flatMap (fun o => [(o, 0, 0), (o, 0, 1)])
  | some 1 =>
    if (siteStack site).isSome then []
    else
      let c := gridCols site
      ((List.range n).filter (fun (j : Nat) =>
        let dx := Int.natAbs ((i % c : Int) - (j % c : Int))
        let dy := Int.natAbs ((i / c : Int) - (j / c : Int))
        dx + dy == 1)).map (fun j => (site, die, j))
  | some _ =>
    ((List.range n).filter (· != i)).map (fun j => (site, die, j))
      ++ (([die - 1, die + 1].filter (fun o => o != die && sensorCount site o == n)).map (fun o => (site, o, i)))
  | none => []

/-- A sensor is suspect by either check. -/
def isSuspect (t : ThermDie) (i : Nat) : Bool := t.order || t.suspect.getD i false

/-- Readings of a sensor's non-suspect neighbours, with each neighbour's estimate. -/
def goodNeighbours (s : State) (model : List Int) (site die i : Nat) : List (Int × Int) :=
  (neighbours site die i).filterMap (fun x =>
    let t := s.thermDie x.1 x.2.1
    if isSuspect t x.2.2 then none
    else
      match t.reading[x.2.2]? with
      | some r => some (r, (if x.1 = site ∧ x.2.1 = die then model else t.model).getD x.2.2 r)
      | none => none)

/-- The neighbour check of one sensor at a sample: new run of violations, new start of agreement, suspect mark (R335). -/
def checkSensor (beat : Nat) (near : List (Int × Int)) (r e : Int) (bad : Nat) (good : Option Nat) (mark : Bool) :
    Nat × Option Nat × Bool :=
  let far := !near.isEmpty && decide (160 < (2 * r - median2 (near.map (·.1))).natAbs)
  let off := decide (40 < (r - e).natAbs)
  let bad := if far && off then bad + 1 else 0
  let good := if far || off then none else some (good.getD beat)
  let clear := (good.map (fun b => decide (b + 10000000000 ≤ beat))).getD false
  (bad, good, if mark then !clear else decide (16 ≤ bad))

/-- Value used for a sensor suspect by its neighbours (R335). -/
def standIn (near : List (Int × Int)) (e : Int) : Int :=
  if near.length < 2 then e + 50
  else
    let h := near.foldl (fun (m : Int × Int) x => if m.1 < x.1 then x else m) (near.headD (0, 0))
    h.1 + (e - h.2)

/-- Temperature of a die: the highest value used (R329). -/
def temperature (t : ThermDie) : Int := listMax 0 t.used

/-- The mean of a die's sensors lies more than 2 °C below the mean of the die above, which has as many (R336). -/
def colderThan (t above : ThermDie) : Bool :=
  !above.reading.isEmpty && decide (t.reading.sum + 20 * (t.reading.length : Int) < above.reading.sum)

/-- A die's next sample is due: 10 µs after the last where a value is within 2 °C of the shutdown level, 100 µs where one is within
5 °C of the throttle level, 1 ms otherwise (R329). -/
def sampleDue (s : State) (kind : Nat) (t : ThermDie) : Bool :=
  let (_, _, throttle, _, shutdown) := thresholds kind
  let period := if (shutdown : Int) ≤ temperature t + 20 then 10000 else if (throttle : Int) ≤ temperature t + 50 then 100000 else 1000000
  t.used.isEmpty || decide (t.sampled + period ≤ s.beat)

/-- The vertical-order check applies to a die now (R336): Soundboard layers 0 to 2 over a die drawing 20 W, DRAM dies 0 to 10 of
a powered stack. -/
def orderChecked (s : State) (site die : Nat) : Bool :=
  match siteDie site with
  | some d => decide (2 ≤ die ∧ die ≤ 4) && decide (200 ≤ estimate (s.die d))
  | none => (siteStack site).isSome && decide (2 ≤ die ∧ die ≤ 12) && decide (2 ≤ s.dev.state ∧ s.dev.state ≠ 8)

/-- The vertical-order check of a die against the one above it (R336). -/
def checkOrder (site die : Nat) (t : ThermDie) (s : State) : ThermDie × State :=
  if !orderChecked s site die then ({ t with coldAt := none }, s)
  else
    let above := s.thermDie site (die + 1)
    let cold := colderThan t above
    let coldAt := if cold then some (t.coldAt.getD s.beat) else none
    let orderAt := if cold then none else some (t.orderAt.getD s.beat)
    let enter := (coldAt.map (fun b => decide (b + 100000000 ≤ s.beat))).getD false
    let leave := (orderAt.map (fun b => decide (b + 10000000000 ≤ s.beat))).getD false
    let s := if enter && !t.order then countLog Obj.verticalOrderEvents 1 0 site die [] s else s
    ({ t with coldAt, orderAt, order := if t.order then !leave else enter }, s)

/-- New level of a die at a temperature (R330): shutdown is latched. -/
def nextLevel (kind : Nat) (temp : Int) (old : Nat) : Nat :=
  let (w, wc, t, tc, sh) := thresholds kind
  if old = 3 ∨ (sh : Int) ≤ temp then 3
  else if (t : Int) ≤ temp ∨ (old = 2 ∧ (tc : Int) < temp) then 2
  else if (w : Int) ≤ temp ∨ (1 ≤ old ∧ (wc : Int) < temp) then 1
  else 0

/-! What the levels do (R331 to R334, R337). -/

/-- State-reason bit 6: a die at throttle or in latched shutdown, or a Soundboard being reloaded (R330, R333). -/
def settleThermal (s : State) : State :=
  setReason 6 (s.therm.dies.any (fun (p : Nat × ThermDie) => decide (2 ≤ p.2.level))
    || s.dies.any (fun (p : Nat × Die) => p.2.sbLost)) s

/-- Cells of a range of keys hold free values. -/
def forgetCells (lo hi : Nat) (s : State) : State :=
  ((s.mem.filter (fun c => decide (lo ≤ c.1 ∧ c.1 < hi))).map (fun (c : Nat × Byte) => c.1)).foldl (fun s a =>
    (s.store a (s.freeBytes 1)).drawn 1) s

/-- A compute die shuts down (R332): what a reset takes, and its core, SRAM and Whippet rails are off. -/
def shutDie (d : Nat) (s : State) : State :=
  if (s.die d).off then s
  else
    let s := forgetCells (memKey (dieSite d) 0) (memKey (dieSite d) sbBase) (dieStops d s)
    let s := (List.range 16).foldl (fun s j => s.setWhip (16 * d + j) { s.whip (16 * d + j) with sram := [] }) s
    s.setDie d { s.die d with off := true, reset := none, thermCeil := none }

/-- A Soundboard stack loses its contents (R332): requests with dirty KV there fail, and the die beneath is shut down. -/
def loseSoundboard (d : Nat) (s : State) : State :=
  let dirty := (((s.die d).dir.filter (fun (e : Nat × CacheEnt) => e.2.valid && e.2.dirty)).map (fun (e : Nat × CacheEnt) => e.2.page)).eraseDups
  let s := shutDie d s
  let s := dirty.foldl (fun s p => losePage p s) s
  let x := s.die d
  let s := s.setDie d { x with dir := [], fills := [], late := [], sbLost := true }
  forgetCells (memKey (dieSite d) sbBase) (memKey (dieSite d) (sbBase + 2 ^ 29)) s

/-- The ports of a rim die (R188, R332). -/
def rimPorts (r : Nat) : List Nat := (List.range 4).map (fun j => 4 * r + j)

/-- Shutdown of a die (R332, R334). -/
def shutdownActs (site die : Nat) (s : State) : State :=
  match dieKind site die with
  | some 0 => faultStop s
  | some 1 =>
    (match siteDie site with
    | some d =>
      let times := s.beat :: s.therm.shutdowns.filter (fun b => decide (s.beat < b + 1000000000))
      let s := shutDie d { s with therm := { s.therm with shutdowns := times } }
      if 3 ≤ times.length then faultStop s else s
    | none =>
      if site = hubSite then faultStop s
      else resetRim (site - 25) ((rimPorts (site - 25)).foldl (fun s p => portFalls p 0 s) s))
  | some 2 => (match siteDie site with
    | some d => loseSoundboard d s
    | none => s)
  | some _ => (match siteStack site with
    | some k => stackFails k s
    | none => s)
  | none => s

/-- Compute dies whose ceiling a throttled die controls (R331). -/
def controlled (site die : Nat) : List Nat :=
  match dieKind site die with
  | some 0 => ((site :: adjacentSites site).filterMap siteDie)
  | some 1 => if site = hubSite then [7, 11, 13, 17].filterMap siteDie else (siteDie site).toList
  | some 2 => (siteDie site).toList
  | _ => []

/-- Dies at throttle that control a compute die, with their temperatures (R331). -/
def controlling (s : State) (d : Nat) : List (Nat × Int) :=
  (s.therm.dies.filter (fun (p : Nat × ThermDie) => p.2.level == 2 && (controlled (p.1 / 16) (p.1 % 16)).contains d)).map
    (fun (p : Nat × ThermDie) => ((dieKind (p.1 / 16) (p.1 % 16)).getD 0, temperature p.2))

/-- Throttle of a die begins or ends (R331, R332, R337). -/
def throttleActs (site die : Nat) (on : Bool) (s : State) : State :=
  let s := (controlled site die).foldl (fun s d =>
    let x := s.die d
    if on && x.thermCeil.isNone && !x.off then s.setDie d { x with thermCeil := some (estimate x), ceilBeat := s.beat } else s) s
  let s := if 25 ≤ site ∧ site ≤ 28 ∧ die = 1 then
      (rimPorts (site - 25)).foldl (fun s p => s.setPort p { s.port p with skip := on, even := false }) s
    else s
  match siteStack site with
  | some k =>
    if die = 0 ∨ stackFailed s k ∨ tget 0 k s.dram.stackSt = 3 then s
    else
      let hot := s.therm.dies.any (fun (p : Nat × ThermDie) => p.1 / 16 == site && p.1 % 16 != 0 && decide (2 ≤ p.2.level))
      { s with dram := { s.dram with stackSt := tset k (if hot then 1 else 0) s.dram.stackSt } }
  | none =>
    match siteDie site with
    | some d =>
      let x := s.die d
      if x.sb = 0 ∨ x.sb = 2 then s.setDie d { x with sb := if sbHot s d then 2 else 0 } else s
    | none => s

/-- Level changes of a die are counted, logged and acted on (R330, R332). -/
def changeLevel (site die old new : Nat) (s : State) : State :=
  let s := if old < 1 ∧ 1 ≤ new then countLog Obj.thermWarnings 1 0 site die [] s else s
  let s := if old < 2 ∧ 2 ≤ new then countLog Obj.thermThrottles 1 0 site die [] s else s
  let s := if old < 3 ∧ new = 3 then countLog Obj.thermShutdowns 2 0 site die [] s else s
  let s := if (old = 2) ≠ (new = 2) then throttleActs site die (decide (new = 2)) s else s
  let s := if old < 3 ∧ new = 3 then shutdownActs site die s else s
  settleThermal s

/-- THERMAL_SAMPLE: once it is due (R329), readings and model estimates (0.1 °C) of every sensor of a die; the cross-checks decide the values used
(R335, R336), and the levels follow them (R330). -/
def execThermalSample (site : SiteId) (die : Fin 14) (reading : List Int) (model : List Int) (s : State) : Out :=
  let st := site.val
  let dn := die.val
  let n := sensorCount st dn
  match dieKind st dn with
  | none => .next s
  | some kind =>
    if !s.powered ∨ reading.length ≠ n ∨ model.length ≠ n ∨ !sampleDue s kind (s.thermDie st dn) then .next s
    else
      let t0 := { s.thermDie st dn with reading, model, sampled := s.beat }
      let s := s.setThermDie st dn t0
      let checks := (List.range n).map (fun i =>
        (i, goodNeighbours s model st dn i, checkSensor s.beat (goodNeighbours s model st dn i) (reading.getD i 0) (model.getD i 0)
          (t0.bad.getD i 0) ((t0.good.getD i none)) (t0.suspect.getD i false)))
      let t1 := { t0 with
        bad := checks.map (fun x => x.2.2.1), good := checks.map (fun x => x.2.2.2.1), suspect := checks.map (fun x => x.2.2.2.2) }
      let (t2, s) := checkOrder st dn t1 s
      let below := temperature (s.thermDie st (dn - 1))
      let used := checks.map (fun x =>
        let r := reading.getD x.1 0
        let v := if x.2.2.2.2 then standIn x.2.1 (model.getD x.1 0) else r
        if t2.order then (if x.2.2.2.2 then max below v else below) else v)
      let t3 := { t2 with used }
      let level := nextLevel kind (temperature t3) t3.level
      let old := t3.level
      let s := s.setThermDie st dn { t3 with level }
      .next (if old = level then s else changeLevel st dn old level s)

/-- One step of a ceiling: the condition holds, lies between clear and throttle, or is over (R326, R331). -/
def ceilStep (fall hold : Bool) (step : Nat) (c : Option Nat) : Option Nat :=
  match c with
  | none => none
  | some x =>
    if fall then some (if x ≤ 120 then x else max 120 (x - step))
    else if hold then some x
    else if 580 ≤ x + step then none
    else some (x + step)

/-- CEILING_STEP: every 50 µs a compute die's ceilings fall, hold or rise by `slew_limit_w` (R326, R331, R339). -/
def execCeilingStep (die : DieId) (s : State) : Out :=
  let d := s.die die
  if s.beat < d.ceilBeat + 50000 then .next s
  else
    let step := 10 * s.obj Obj.slewLimitW
    let cs := controlling s die
    let fall := cs.any (fun x => decide (((thresholds x.1).2.2.1 : Int) ≤ x.2))
    let start := if d.thermCeil.isNone ∧ !cs.isEmpty ∧ !d.off then some (estimate d) else d.thermCeil
    let over_ := decide (powerLimit s < s.power.watts)
    let holdCap := decide (powerLimit s ≤ s.power.watts + 50)
    .next (settleCap (s.setDie die { d with
      thermCeil := ceilStep fall (!cs.isEmpty) step start, capCeil := ceilStep over_ holdCap step d.capCeil
      ceilBeat := s.beat }))

/-! Clearing a shutdown (R333). -/

/-- Every die at a site reads 60 °C or below. -/
def siteCool (s : State) (site : Nat) : Bool :=
  s.therm.dies.all (fun (p : Nat × ThermDie) => p.1 / 16 != site || decide (temperature p.2 ≤ 600))

/-- Every latched die reads 60 °C or below. -/
def latchedCool (s : State) : Bool :=
  s.therm.dies.all (fun (p : Nat × ThermDie) => p.2.level != 3 || decide (temperature p.2 ≤ 600))

/-- A latched site is cleared: a compute die is reset and its lost partitions are reloaded (R333). -/
def clearSite (site : Nat) (s : State) : State :=
  let s := { s with therm := { s.therm with dies := s.therm.dies.map (fun (p : Nat × ThermDie) =>
    if p.1 / 16 = site ∧ p.2.level = 3 then (p.1, { p.2 with level := 0 }) else p) } }
  let s := match siteDie site with
    | some d =>
      let x := s.die d
      if x.off then s.setDie d { x with off := false, reset := some s.beat, sbLost := x.sbLost && !x.parts.isEmpty } else s
    | none => s
  settleThermal s

/-- Code that a write of `thermal_shutdown_clear` is refused with, 0 for none (R333, R339). -/
def shutdownClearCode (site : Nat) (s : State) : Nat :=
  if (siteStack site).isSome then 0x1205
  else if !siteCool s site then 0x1105
  else if (siteDie site).any (fun d => (s.die d).sbLost && !(s.die d).off) then 0x1303
  else 0

end Sys2Proof.Machine
end

