-- ==== Sys2Proof/Machine/Controllers.lean ====
section
/-! DEFINITION. The controller pair (R290 to R296): control cycles, comparison and recovery, simplex, takeover drills, and
restore. What the controllers send during a cycle is held in the pair's output buffers. -/

namespace Sys2Proof.Machine

/-- The pair runs simplex (R294, R295). -/
def simplex (s : State) : Bool := s.pair.state != 0

/-- An output leaves: launch frames go to their die as LAUNCH frames (R73, R130), a write of a check-value unit to the unit (R347),
all else out of the module. -/
def releaseOut (s : State) (o : Output) : State :=
  match o with
  | .launch site win =>
    match s.win win with
    | some w => sendFrame opLAUNCH hubSite site 19 0 0
        (leBytes 4 w.windowId.toNat ++ leBytes 8 w.launch ++ leBytes 8 w.parts.toNat) none none s
    | none => s
  | .cvuPut unit off v => cvuReached (.hub (Fin.ofNat 8 unit) 30) off v s
  | o => s.emit o

/-- A pair event is traced (kind 0x0A): 0 mismatch, 1 takeover, 2 simplex, 3 restore, 4 drill (R366). -/
def tracePair (event : Nat) (s : State) : State := traceMake hubSite 0 0x0A (leBytes 8 s.pair.cycle ++ leBytes 1 event) s

/-- The pair runs simplex in state `st` from now on: bit 5 of R288, an entry in the log (R294, R295). -/
def goSimplex (st sev : Nat) (s : State) : State :=
  let s := { s with pair := { s.pair with state := st, recover := none, second := false, phase := 0 } }
  let s := logEvent Obj.pairState sev 0 hubSite 0 [] s
  setReason 5 true (tracePair 2 s)

/-- Simplex state on a half. -/
def simplexOn (half : Nat) : Nat := half + 1

/-- The outputs of the cycle under comparison leave (R291). -/
def releasePrev (s : State) : State :=
  let l := s.pair.prev
  l.foldl releaseOut { s with pair := { s.pair with prev := [] } }

/-- Outputs of both cycles leave: those of a re-executed pair of cycles (R294), or of a simplex cycle. -/
def releaseAll (s : State) : State :=
  let l := s.pair.prev ++ s.pair.cur
  l.foldl releaseOut { s with pair := { s.pair with prev := [], cur := [] } }

/-- The other half takes over (R294, R296): it re-executes both cycles from their input logs and writes their outputs. -/
def takeOver (s : State) : State :=
  let s := { s with pair := { s.pair with active := 1 - s.pair.active } }
  let s := countLog Obj.takeovers 0 0 hubSite 0 [] s
  releaseAll (tracePair 1 s)

/-- The halves agree: the outputs of the earlier cycle are written, and a drill's first compared cycle passes it (R291,
R296). -/
def cycleAgrees (s : State) : State :=
  let s := (releasePrev s).count Obj.controlCycles 1
  let drilled := s.pair.phase = 3
  let s := { s with pair := { s.pair with
    prev := s.pair.cur, cur := [], second := false, phase := if s.pair.phase = 3 then 0 else s.pair.phase } }
  if drilled then (s.setObj Obj.drillResult 1).setObj Obj.drillLastBeat s.beat else s

/-- The halves differ: recovery starts at T with every output withheld (R293), or, right after a recovery that both halves
passed, Standby is isolated (R294 third row). -/
def cycleDiffers (s : State) : State :=
  let s := countLog Obj.pairMismatches 1 0 hubSite 0 [] (s.count Obj.controlCycles 1)
  let s := tracePair 0 s
  let s := if s.pair.phase = 3 then (s.setObj Obj.drillResult 2).setObj Obj.drillLastBeat s.beat else s
  if s.pair.second then releaseAll (goSimplex (simplexOn s.pair.active) 3 s)
  else { s with pair := { s.pair with recover := some s.beat, phase := 0 } }

/-- The end of one control cycle: in simplex its outputs are written without comparison; a drill that was asked for withholds
them, and the next cycle shows the new Active started; else the halves compare (R291, R294, R296). -/
def cycleEnd (agree : Bool) (s : State) : State :=
  if simplex s then releaseAll s
  else if s.pair.recover.isSome then s
  else match s.pair.phase with
  | 1 => tracePair 4 { s with pair := { s.pair with phase := 2, drill := s.beat } }
  | 2 => if s.beat ≤ s.pair.drill + 20000 then
      let s := takeOver s
      { s with pair := { s.pair with phase := 3 } }
    else s
  | _ => if agree then cycleAgrees s else cycleDiffers s

/-- CONTROL_CYCLE: one 10 µs cycle ends (R290, R291); the measured input voltage and power are compared with the limit (R326). `agree` says
whether the halves' digests of the earlier cycle are equal. -/
def execControlCycle (input : InputReading) (agree : Bool) (s : State) : Out :=
  if !s.powered ∨ s.faultStop then .next s
  else
    let s := if s.dev.state = 1 then s else notePower input.mv input.w s
    let s := { s with pair := { s.pair with cycle := s.pair.cycle + 1, lastCycle := s.beat } }
    .next (cycleEnd agree s)

/-- CONTROLLER_KAT_DONE: both halves' test results of a recovery are in (R293, R294). -/
def execControllerKatDone (active standby : Bool) (s : State) : Out :=
  if s.pair.recover.isNone ∨ s.faultStop then .next s
  else
    let half := s.pair.active
    match active, standby with
    | false, true => .next (takeOver (goSimplex (simplexOn (1 - half)) 3 s))
    | true, false => .next (releasePrev (goSimplex (simplexOn half) 3 s))
    | true, true => .next { s with pair := { s.pair with recover := none, second := true } }
    | false, false => .next (faultStop s)

/-- TANDEM_LOSS: no tandem transfer for two cycles; Standby is unsynchronised (R295). -/
def execTandemLoss (s : State) : Out :=
  if !s.powered ∨ s.faultStop ∨ simplex s ∨ s.pair.recover.isSome then .next s
  else .next (releaseAll (goSimplex 3 1 s))

/-- CYCLE_WATCHDOG: the Active half has completed no cycle for two periods (R294). -/
def execCycleWatchdog (s : State) : Out :=
  if 2 ≤ s.dev.state ∧ s.dev.state ≤ 7 ∧ s.pair.recover.isNone ∧ s.pair.lastCycle + 20000 ≤ s.beat then .next (faultStop s)
  else .next s

/-- Code of a write of `controller_restore` (R295). -/
def restoreCode (s : State) : Nat := if s.dev.state = 2 ∨ s.dev.state = 8 then 0x1105 else 0

/-- `controller_restore`: the isolated or unsynchronised half runs its test, takes the full state, and comparison resumes; with
different firmware no test runs (R295). -/
def restorePair (pass : Bool) (s : State) : State :=
  if !simplex s then s.setObj Obj.pairLastResult 0
  else if s.pair.differ then s.setObj Obj.pairLastResult 0x1205
  else if !pass then
    ({ s with pair := { s.pair with state := simplexOn s.pair.active } }).setObj Obj.pairLastResult 0x1205
  else
    let s := { s with pair := { s.pair with state := 0, second := false } }
    setReason 5 false (tracePair 3 (s.setObj Obj.pairLastResult 0))

/-- Code of a write of `takeover_drill` (R296). -/
def drillCode (s : State) : Nat :=
  if s.pair.state = 0 ∧ s.pair.recover.isNone ∧ s.pair.phase = 0 ∧ 3 ≤ s.dev.state ∧ s.dev.state ≤ 6 then 0 else 0x1105

/-- A drill is asked for: it starts at the next cycle boundary. -/
def askDrill (s : State) : State := { s with pair := { s.pair with phase := 1 } }

/-- DRILL_AUTO: every `drill_auto_days`, where a drill is accepted (R296). -/
def execDrillAuto (s : State) : Out :=
  let days := s.obj Obj.drillAutoDays
  if days ≠ 0 ∧ drillCode s = 0 ∧ s.pair.lastAuto + days * 86400000000000 ≤ s.beat then
    .next (askDrill { s with pair := { s.pair with lastAuto := s.beat } })
  else .next s

/-- DRILL_TAKEOVER_TIMEOUT: the new Active has not started within 20 µs: the former one resumes and the other half's takeover path
is marked failed (R296). -/
def execDrillTakeoverTimeout (s : State) : Out :=
  if s.pair.phase = 2 ∧ s.pair.drill + 20000 < s.beat then
    let s := (s.setObj Obj.drillResult 2).setObj Obj.drillLastBeat s.beat
    .next (releaseAll (goSimplex (simplexOn s.pair.active) 1 s))
  else .next s

end Sys2Proof.Machine
end

