-- ==== Sys2Proof/Machine/ImageCheck.lean ====
section
/-! DEFINITION. The loader's seven checks of an image, in order (R251), with the rules of the descriptors that they hold it to
(R39, R45, R57, R58, R60 to R70, R84 to R96, R111, R114, R115, R117, R123, R205, R214, R227). -/

namespace Sys2Proof.Machine

/-- Every key of a list is found once. -/
def noRepeat : List Nat → Bool
  | [] => true
  | x :: r => !r.contains x && noRepeat r

/-! Check 1: the file (R250, R252). -/

def ihLevel (im : Image) : Nat := fieldAt im.header 32 8
def ihKey (im : Image) : Nat := fieldAt im.header 40 8
def ihSections (im : Image) : Nat := fieldAt im.header 48 16
def ihLength (im : Image) : Nat := fieldAt im.header 64 64

/-- Key k is provisioned: 32 bytes that are not all zero. -/
def trustKey (s : State) (k : Nat) : Option Bytes :=
  let b := s.objB (Obj.imageTrustKeyK + k)
  if k < 4 ∧ b.any (· != 0) then some b else none

/-- Magic, lengths and offsets within the image; the trust key of key_id provisioned; the signature verifies (R251 check 1). -/
def checkFile (s : State) (im : Image) : Bool :=
  let body := im.fileBytes - 64
  fieldAt im.header 0 32 == 0x4D494B49 && ihLength im == im.fileBytes && decide (192 ≤ im.fileBytes)
    && fieldAt im.header 160 32 == 128 && decide (fieldAt im.header 128 32 + 128 ≤ body)
    && ihSections im == im.sections.length && decide (fieldAt im.header 192 32 + 24 * im.sections.length ≤ body)
    && im.sections.all (fun x => decide (x.source.toNat + x.length.toNat ≤ body) && x.data.length == x.length.toNat)
    && (match trustKey s (ihKey im) with
        | some k => im.signedBy == some k
        | none => false)

/-! Check 2: fields of the header, sections and manifest. -/

/-- A section's kind, target and reserved byte, and the place of what it puts down (R123, R250). -/
def checkSection (im : Image) (x : Section) : Bool :=
  let k := x.kind.toNat
  let t := x.target.toNat
  let hi := x.dest.toNat + x.length.toNat
  x.reserved == 0 && decide (1 ≤ k ∧ k ≤ 0x0A)
    && (if k = 7 then decide (t < 64 ∧ hi ≤ 1024 * imgMf im 16 4)
        else if k = 8 then decide (t < 16 ∧ hi ≤ 2 ^ 20 * imgLockedMib im)
        else if k = 0x0A then decide (t < 16 ∧ hi ≤ 1024 * imgMf im 20 4)
        else t == 0xFF && (k != 9 || decide (65536 * x.dest.toNat + x.length.toNat ≤ 65536 * imgDramPages im)))

/-- Header and manifest fields (R250). -/
def checkFields (s : State) (im : Image) : Bool :=
  ihLevel im == 1 && decide (1 ≤ ihSections im ∧ ihSections im ≤ 4096 ∧ ihKey im ≤ 3) && fieldAt im.header 224 800 == 0
    && decide (1 ≤ imgMf im 8 2 ∧ imgMf im 8 2 ≤ 256) && imgMf im 10 2 == 0
    && decide (imgMf im 16 4 ≤ 48 * 1024 ∧ imgMf im 20 4 ≤ 64 * 1024 ∧ imgLockedMib im ≤ 447)
    && imgStageKib im % 64 == 0 && decide (imgStageKib im ≤ 8192)
    && decide (imgMf im 40 1 < 4) && imgMf im 41 3 == 0 && imgMf im 80 48 == 0
    && (imgMf im 12 4 ||| s.obj Obj.formatSupportMask) == s.obj Obj.formatSupportMask
    && im.sections.all (checkSection im)

/-! Check 2: windows (R57, R58). -/

/-- Issues of a kernel in order: bundle index of each, one for each unit of fuel; repetition and loop stack as they stand. -/
def issueWalk : Nat → Kernel → Nat → Nat → List (Nat × Nat) → List Nat
  | 0, _, _, _, _ => []
  | fuel + 1, k, pc, rep, loops =>
    match k.bundles[pc]? with
    | none => []
    | some b =>
      let sync := fieldAt b 208 48
      pc :: (if rep < fieldAt b 0 6 then issueWalk fuel k pc (rep + 1) loops
        else if fieldAt b 6 1 = 1 then []
        else if bitsAt sync 0 4 = 7 then
          let dist := bitsAt sync 4 12
          let iters := bitsAt sync 16 12
          match loops with
          | (l, left) :: rest =>
            if l = pc then
              (if left = 0 then issueWalk fuel k (pc + 1) 0 rest
               else issueWalk fuel k (pc - dist) 0 ((l, left - 1) :: rest))
            else if iters = 0 then issueWalk fuel k (pc + 1) 0 loops
            else issueWalk fuel k (pc - dist) 0 ((pc, iters - 1) :: loops)
          | [] =>
            if iters = 0 then issueWalk fuel k (pc + 1) 0 []
            else issueWalk fuel k (pc - dist) 0 [(pc, iters - 1)]
        else issueWalk fuel k (pc + 1) 0 loops)

/-- First byte of the staging area, as an offset in die-shared SRAM (R111). -/
def stageStart (kib : Nat) : Nat := dieSramSize - 1024 * kib

/-- A stream descriptor (R58, R63): format and space in use, reserved byte, rows, cursor step; none addresses the staging area
(R111). -/
def checkStream (kib : Nat) (d : BitVec 256) : Bool :=
  let f := dFmt d
  let unit := if fmtBlock f then 32 else if f = fmtTRIT5 then 64 else if fmtBits f = 4 then 2 else if fmtBits f = 6 then 4 else 1
  fmtSupported f && decide (dSpace d ≤ 2) && fieldAt d 8 8 == 0 && decide (1 ≤ dRows d ∧ dRows d ≤ 192)
    && dStep d % unit == 0
    && (dSpace d != 1 ||
        (decide (dBase d + (dRows d - 1) * dRowStride d + rowBytes f (dRowLength d) ≤ stageStart kib)
          && (!fmtBlock f || decide (dScaleBase d + (dRows d - 1) * dScaleStride d + (dRowLength d + 31) / 32 ≤ stageStart kib))))

/-- A send entry (R69, R111, R205): an assigned site, a unit that the site has, a reduce type in use, reserved fields 0. Its range
is held to the staging area and to the declared sizes over the kernel's issues (`touchGood`). -/
def checkSend (kib : Nat) (e : BitVec 128) : Bool :=
  let site := fieldAt e 0 5
  let unit := fieldAt e 5 3
  (if (siteDie site).isSome then decide (unit ≤ 5) && (unit != 4 || decide (fieldAt e 32 32 < stageStart kib))
   else if site = hubSite then unit == 6
   else decide (25 ≤ site ∧ site < 29) && unit == 4)
    && decide (fieldAt e 8 2 ≤ 2) && fieldAt e 10 6 == 0 && fieldAt e 96 32 == 0

/-- Rounding field of a conversion: a stochastic one names a format that allows it and a conversion identifier in range (R45,
R65). -/
def checkRound (k : Kernel) (fmt round conv : Nat) : Bool :=
  round == 0 || (round == 1 && stochAllowed fmt && decide (conv < k.conv.length))

/-- The slots of bundle j of a kernel (R58, R61, R64 to R70). -/
def checkBundle (w : WindowImg) (k : Kernel) (j : Nat) (b : BitVec 256) : Bool :=
  let sin := fieldAt b 16 48
  let mx := fieldAt b 64 40
  let v := fieldAt b 104 64
  let so := fieldAt b 168 40
  let sy := fieldAt b 208 48
  let desc (i : Nat) : Bool := decide (i < k.streams.length)
  let fmtOf (i : Nat) : Nat := dFmt (k.streams.getD i 0)
  let op := bitsAt sy 0 4
  fieldAt b 8 8 == 0
    && decide (bitsAt sin 0 4 ≤ 3) && bitsAt sin 37 11 == 0 && (bitsAt sin 0 4 == 0 || desc (bitsAt sin 4 5))
    && decide (bitsAt mx 0 4 ≤ 3) && bitsAt mx 29 11 == 0
    && fmtSupported (bitsAt mx 4 5) && fmtSupported (bitsAt mx 9 5)
    && (bitsAt mx 0 4 == 0 || (pairClass (bitsAt mx 4 5) (bitsAt mx 9 5)).isSome)
    && decide (bitsAt v 0 6 ≤ 0x16) && bitsAt v 49 15 == 0 && fmtSupported (bitsAt v 26 5)
    && (bitsAt v 0 6 != 0x0F || (checkRound k (bitsAt v 26 5) (bitsAt v 32 2) (bitsAt v 34 6)))
    && decide (bitsAt so 0 4 ≤ 2) && bitsAt so 38 2 == 0
    && (bitsAt so 0 4 == 0 ||
        (desc (bitsAt so 4 5) && checkRound k (fmtOf (bitsAt so 4 5)) (bitsAt so 29 2) (bitsAt so 31 6)))
    && (if op = 1 ∨ op = 2 then
          decide (bitsAt sy 4 5 < k.sends.length)
            && (if bitsAt sy 9 1 = 1 then desc (bitsAt sy 10 5) else decide (bitsAt sy 15 12 < 32))
        else if op = 3 then decide (bitsAt sy 4 8 < w.barriers.length ∧ 1 ≤ bitsAt sy 12 16)
        else if op = 4 then
          let e := k.sends.getD (bitsAt sy 4 5) 0
          decide (bitsAt sy 4 5 < k.sends.length ∧ fieldAt e 5 3 ≤ 3) && (siteDie (fieldAt e 0 5)).isSome
        else if op = 7 then
          let d := bitsAt sy 4 12
          decide (1 ≤ d ∧ d ≤ j) && (List.range (d + 1)).all (fun i => fieldAt (k.bundles.getD (j - i) 0) 6 1 == 0)
        else decide (op ≤ 7))

/-- Loops of a kernel nest at most two deep (R70): bundles whose LOOP body holds bundle j. -/
def loopDepth (k : Kernel) (j : Nat) : Nat :=
  ((List.range k.bundles.length).filter (fun i =>
    let sy := fieldAt (k.bundles.getD i 0) 208 48
    bitsAt sy 0 4 == 7 && decide (i - bitsAt sy 4 12 ≤ j ∧ j ≤ i))).length

/-- A kernel of a window (R57, R58). -/
def checkKernel (kib : Nat) (w : WindowImg) (k : Kernel) : Bool :=
  fieldAt k.header 40 8 == k.streams.length && fieldAt k.header 48 8 == k.sends.length
    && fieldAt k.header 56 8 == k.conv.length && fieldAt k.header 64 32 == k.bundles.length && fieldAt k.header 96 160 == 0
    && decide (k.streams.length ≤ 32 ∧ k.sends.length ≤ 32 ∧ k.conv.length ≤ 64)
    && k.streams.all (checkStream kib) && k.sends.all (checkSend kib)
    && (List.range k.bundles.length).all (fun j => checkBundle w k j (k.bundles.getD j 0) && decide (loopDepth k j ≤ 2))

/-- BEAT_WAITs of a kernel: tick and offset of each (R70). -/
def beatWaits (w : WindowImg) (k : Kernel) : List (Nat × Nat) :=
  let l := issueWalk (winTicks w.desc) k 0 0 []
  ((List.range l.length).zip l).filterMap (fun (p : Nat × Nat) =>
    let sy := fieldAt (k.bundles.getD p.2 0) 208 48
    if bitsAt sy 0 4 = 6 then some (p.1, bitsAt sy 4 40) else none)

/-- A range that a window writes or sums into: destination site, unit of a send entry (R69), first byte, bytes. -/
abbrev WriteRange := Nat × Nat × Nat × Nat

/-- Ranges overlap. -/
def rangesMeet (a b : WriteRange) : Bool :=
  a.1 == b.1 && a.2.1 == b.2.1 && decide (a.2.2.1 < b.2.2.1 + b.2.2.2 ∧ b.2.2.1 < a.2.2.1 + a.2.2.2)

/-- Unit number of a core's space, as a send entry names it. -/
def spaceUnit (core space : Nat) : Nat := if space = 0 then core % 4 else if space = 1 then 4 else 5

/-- Ranges that `rows` rows of n elements of a descriptor take from a cursor: elements and block scales (R63, R65). -/
def storeRanges (core : Nat) (d : BitVec 256) (cur row rows n : Nat) : List WriteRange :=
  let site := dieSite (coreDie core)
  let u := spaceUnit core (dSpace d)
  let w := fmtBits (dFmt d)
  (List.range rows).flatMap (fun (i : Nat) =>
    let r := row + i
    (site, u, dBase d + r * dRowStride d + w * cur / 8, (w * n + 7) / 8) ::
      (if fmtBlock (dFmt d) then [(site, u, dScaleBase d + r * dScaleStride d + cur / 32, n / 32)] else []))

/-- Ranges that `rows` rows of n elements read through a descriptor at a cursor, padding left out (R56, R63). -/
def readRanges (core : Nat) (d : BitVec 256) (cur row rows n : Nat) : List WriteRange :=
  let site := dieSite (coreDie core)
  let u := spaceUnit core (dSpace d)
  let w := fmtBits (dFmt d)
  let valid := min n (dRowLength d - cur)
  if valid = 0 then []
  else (List.range rows).flatMap (fun (i : Nat) =>
    let r := row + i
    if dFmt d = fmtTRIT5 then [(site, u, dBase d + r * dRowStride d + 16 * (cur / 64), 16 * ((valid + 63) / 64))]
    else (site, u, dBase d + r * dRowStride d + w * cur / 8, (w * (cur + valid) + 7) / 8 - w * cur / 8) ::
      (if fmtBlock (dFmt d) then [(site, u, dScaleBase d + r * dScaleStride d + cur / 32, (valid + 31) / 32)] else []))

/-- What the kernel reads and what it stores or sends to outside its RSENDs, over its issues (R111, R115, R123): each range with
whether it is written; cursors, then address progress of the send entries. -/
def kernelTouches (k : Kernel) : List Nat → Tab Nat → Tab Nat → List (Bool × WriteRange)
  | [], _, _ => []
  | j :: rest, cur, prog =>
    let b := k.bundles.getD j 0
    let sin := fieldAt b 16 48
    let so := fieldAt b 168 40
    let sy := fieldAt b 208 48
    let core := kernelCore k
    let di := bitsAt sin 4 5
    let dIn := k.streams.getD di 0
    let reads : List WriteRange :=
      match bitsAt sin 0 4 with
      | 1 => readRanges core dIn (tget 0 di cur) (bitsAt sin 21 16) (dRows dIn) (panelDepth k j (dFmt dIn) true)
      | 2 => readRanges core dIn (tget 0 di cur) (bitsAt sin 21 16) (bitsAt sin 9 6 + 1) (panelDepth k j (dFmt dIn) false)
      | 3 => readRanges core dIn (tget 0 di cur) (bitsAt sin 21 16) 1 512
      | _ => []
    let cur := if bitsAt sin 0 4 ≠ 0 ∧ bitsAt sin 20 1 = 1 then tset di (tget 0 di cur + dStep dIn) cur else cur
    let do_ := bitsAt so 4 5
    let d := k.streams.getD do_ 0
    let stores : List WriteRange :=
      if bitsAt so 0 4 = 1 then storeRanges core d (tget 0 do_ cur) 0 1 512
      else if bitsAt so 0 4 = 2 then storeRanges core d (tget 0 do_ cur) (bitsAt so 16 6) (bitsAt so 22 6 + 1) 192 else []
    let cur := if bitsAt so 0 4 ≠ 0 ∧ bitsAt so 37 1 = 1 then tset do_ (tget 0 do_ cur + dStep d) cur else cur
    let op := bitsAt sy 0 4
    let sends : Bool := op == 1 || op == 2
    let ei := bitsAt sy 4 5
    let e := k.sends.getD ei 0
    let bytes := 64 * (bitsAt sy 15 12 + 1)
    let fromDesc : Bool := sends && bitsAt sy 9 1 == 1
    let si := bitsAt sy 10 5
    let ds := k.streams.getD si 0
    let source : List WriteRange :=
      if fromDesc then
        [(dieSite (coreDie core), spaceUnit core (dSpace ds), dBase ds + fmtBits (dFmt ds) * tget 0 si cur / 8,
          if op = 2 ∧ fieldAt e 8 2 = 1 ∧ dFmt ds = fmtFP32 then 2 * bytes else bytes)]
      else []
    let sent : List WriteRange := if op = 1 then [(fieldAt e 0 5, fieldAt e 5 3, fieldAt e 32 32 + tget 0 ei prog, bytes)] else []
    let adv : Bool := sends && bitsAt sy 27 1 == 1
    let prog := if adv then tset ei (tget 0 ei prog + fieldAt e 64 32) prog else prog
    let cur := if adv && fromDesc then tset si (tget 0 si cur + dStep ds) cur else cur
    (reads ++ source).map (fun r => (false, r)) ++ (stores ++ sent).map (fun r => (true, r)) ++ kernelTouches k rest cur prog

/-- All that a kernel of a window touches outside its RSENDs. -/
def touchesOf (w : WindowImg) (k : Kernel) : List (Bool × WriteRange) := kernelTouches k (issueWalk (winTicks w.desc) k 0 0 []) [] []

/-- A range of die-shared SRAM lies below the staging area and within the declared size, one of a locked partition within its
size (R111, R123). -/
def touchGood (kib : Nat) (im : Image) (r : WriteRange) : Bool :=
  (siteDie r.1).isNone || decide (
    (r.2.1 = 4 → r.2.2.1 + r.2.2.2 ≤ min (stageStart kib) (1024 * imgMf im 20 4))
      ∧ (r.2.1 = 5 → r.2.2.1 + r.2.2.2 ≤ 2 ^ 20 * imgLockedMib im))

/-- Reduce targets of a window (R114): site, unit, first byte, bytes, each once. -/
def targetRanges (w : WindowImg) : List WriteRange :=
  (w.kernels.flatMap (fun k => (planWalk (winTicks w.desc) k 0 0 [] []).map (fun (p : PlanSend) =>
    (p.1, p.2.1, p.2.2.1, p.2.2.2.1)))).eraseDups

/-- A reservation entry (R60). -/
def checkReserve (e : BitVec 64) : Bool :=
  decide (fieldAt e 0 8 ≤ 2 ∧ fieldAt e 8 16 < (if fieldAt e 0 8 = 0 then 1126 else 16) ∧ fieldAt e 40 8 < 64)
    && fieldAt e 48 16 == 0

/-- No two entries of a list claim one slot (R58). -/
def reserveApart : List (BitVec 64) → Bool
  | [] => true
  | e :: l => l.all (fun f => !(fieldAt e 0 8 == fieldAt f 0 8 && fieldAt e 8 16 == fieldAt f 8 16
      && (fieldAt e 24 16 &&& fieldAt f 24 16) != 0)) && reserveApart l

/-- A window: its descriptor, lists and kernels (R57, R58, R60, R70, R111, R115, R123). -/
def checkWindow (kib : Nat) (im : Image) (w : WindowImg) : Bool :=
  let d := w.desc
  let cores := w.kernels.map kernelCore
  fieldAt d 32 2 == 1 && fieldAt d 35 5 == 0 && fieldAt d 40 8 == 0 && fieldAt d 192 320 == 0
    && fieldAt d 48 16 == w.reserve.length && decide (w.reserve.length ≤ 64)
    && decide (1 ≤ winTicks d ∧ winTicks d ≤ 262144) && winMask d != 0
    && fieldAt d 160 16 == w.barriers.length && decide (w.barriers.length ≤ 256 ∧ fieldAt d 176 16 ≤ 256)
    && noRepeat cores && maskOf cores == winMask d
    && w.reserve.all checkReserve && reserveApart w.reserve
    && w.kernels.all (checkKernel kib w)
    && w.kernels.all (fun a => w.kernels.all (fun b =>
        coreDie (kernelCore a) != coreDie (kernelCore b) || beatWaits w a == beatWaits w b))
    && (let ts := targetRanges w
        ts.all (touchGood kib im)
          && w.kernels.all (fun k => (touchesOf w k).all (fun t => touchGood kib im t.2 && !(t.1 && ts.any (rangesMeet t.2)))))

/-! Check 2: routine descriptors (R84 to R94). -/

/-- Bytes [off + n − 1 : off] of an image's locked partition on a die, as its sections place them; the rest reads 0. -/
def placedAt (im : Image) (die off n : Nat) : Bytes :=
  (List.range n).map (fun i =>
    (im.sections.filter (fun x => x.kind.toNat == 8 && x.target.toNat == die)).foldl (fun (b : Byte) x =>
      if x.dest.toNat ≤ off + i ∧ off + i < x.dest.toNat + x.data.length then x.data.getD (off + i - x.dest.toNat) 0 else b) 0)

/-- Variants of an item in the table (R95). -/
def itemVariants (im : Image) (it : BitVec 256) : List (BitVec 64) := (im.variants.drop (fieldAt it 128 32)).take (fieldAt it 40 8)

/-- Dies whose Whippets some kind-4 variant lets run a descriptor (R84, R95). -/
def routineDies (im : Image) (id : Nat) : Nat :=
  im.items.foldl (fun m it => if fieldAt it 32 8 = 4 then
      (itemVariants im it).foldl (fun m v => if fieldAt v 0 32 = id then m ||| variantDies v else m) m
    else m) 0

/-- The special table of a tokenizer on one die: entries in range, no string twice (R85). -/
def specialsGood (im : Image) (d : Bytes) (die : Nat) : Bool :=
  let es := (List.range (leAt d 40 2)).map (fun j => placedAt im die (leAt d 36 4 + 72 * j) 72)
  es.all (fun e => decide (leAt e 0 4 < leAt d 20 4 ∧ 1 ≤ leAt e 4 1 ∧ leAt e 4 1 ≤ 64) && leAt e 5 3 == 0
      && (e.drop (8 + leAt e 4 1)).all (· == 0))
    && (es.map (fun e => (e.drop 8).take (leAt e 4 1))).eraseDups.length == es.length

/-- Dies on which a tokenizer's special table is read: those whose Whippets may run it or a detokenizer, and those where a section
puts down a part of it; the first where there is none (R85, R93). -/
def specialDies (im : Image) (d : Bytes) : List Nat :=
  let base := leAt d 36 4
  let end_ := base + 72 * leAt d 40 2
  let runs := im.routines.foldl (fun m r => if leAt r 0 1 = 1 ∨ leAt r 0 1 = 5 then m ||| routineDies im (leAt r 4 4) else m) 0
  let held := (List.range 16).filter (fun die => runs.testBit die || im.sections.any (fun x =>
    x.kind.toNat == 8 && x.target.toNat == die && decide (x.dest.toNat < end_ ∧ base < x.dest.toNat + x.data.length)))
  if held.isEmpty then [0] else held

/-- A tree shape (R91): parents below their nodes, ranks in table order, depth at most 6, nothing beyond node_count; depths of
the nodes so far. -/
def shapeGood (d : Bytes) : Nat → List Nat → List (Nat × Nat) → Bool
  | 0, _, _ => true
  | fuel + 1, depths, ranks =>
    let i := depths.length
    let at_ := 20 + 2 * (i - 1)
    if i ≤ leAt d 16 1 then
      let p := leAt d at_ 1
      let r := leAt d (at_ + 1) 1
      decide (p < i) && r == tget 0 p ranks && decide (depths.getD p 0 + 1 ≤ 6)
        && shapeGood d fuel (depths ++ [depths.getD p 0 + 1]) (tset p (r + 1) ranks)
    else leAt d at_ 2 == 0 && shapeGood d fuel (depths ++ [0]) ranks

/-- A routine descriptor by its own fields (R84 to R94). -/
def checkRoutine (im : Image) (d : Bytes) : Bool :=
  let code := leAt d 0 1
  let n := d.length
  leAt d 1 1 == 1 && leAt d 2 2 == n && decide (1 ≤ shardsOf d ∧ shardsOf d ≤ 16) && leAt d 9 1 == 0
    && decide (1 ≤ leAt d 10 2 ∧ leAt d 10 2 ≤ 1024) && leAt d 12 4 == 0
    && (match code with
        | 1 => n == 48 && shardsOf d == 1 && decide (leAt d 16 1 ≤ 1 ∧ leAt d 17 1 ≤ 1 ∧ leAt d 18 1 ≤ 1) && leAt d 19 1 == 0
            && decide (256 ≤ leAt d 20 4 ∧ leAt d 20 4 ≤ 262144 ∧ leAt d 40 2 ≤ 1024) && leAt d 42 2 == 0 && decide (1 ≤ leAt d 44 4 ∧ leAt d 44 4 ≤ 1048576)
            && (specialDies im d).all (specialsGood im d)
        | 2 => n == 48 && (leAt d 16 1 == 0 || leAt d 16 1 == 2) && leAt d 17 3 == 0
            && decide (1 ≤ leAt d 32 2 ∧ leAt d 32 2 ≤ 1024 ∧ leAt d 34 2 ≤ 4096) && leAt d 44 4 == 0
        | 3 => n == 48 && [3, 4, 0x0B].contains (leAt d 16 1) && decide (1 ≤ leAt d 17 1 ∧ leAt d 17 1 ≤ 32)
            && decide (256 ≤ leAt d 18 2 ∧ leAt d 18 2 ≤ 4096) && leAt d 18 2 % 32 == 0
            && decide (256 ≤ leAt d 20 2 ∧ leAt d 20 2 ≤ 16384) && leAt d 20 2 % 32 == 0
            && decide (1 ≤ leAt d 22 1 ∧ leAt d 22 1 ≤ 64 ∧ 1 ≤ leAt d 23 1 ∧ leAt d 23 1 ≤ 64)
            && leAt d 22 1 % max 1 (leAt d 23 1) == 0
            && decide (256 ≤ leAt d 32 2 ∧ leAt d 32 2 ≤ 8192) && leAt d 40 8 == 0
        | 4 => n == 64 && shardsOf d == 1 && decide (1 ≤ leAt d 16 1 ∧ leAt d 16 1 ≤ 16 ∧ leAt d 17 1 ≤ 1)
            && leAt d 18 2 == 0 && leAt d 52 12 == 0 && shapeGood d 16 [0] []
        | 5 => n == 32 && shardsOf d == 1 && decide (leAt d 16 1 ≤ 8 ∧ 1 ≤ leAt d 17 1 ∧ leAt d 17 1 ≤ 64) && leAt d 18 2 == 0
            && decide (leAt d 28 1 ≤ 1) && leAt d 29 3 == 0
        | 6 => n == 32 && shardsOf d == 1 && leAt d 16 1 == 64 && leAt d 17 7 == 0
        | _ => false)

/-- Descriptors contradict one another (R84): unequal vocabulary sizes (R86, R90, R93). -/
def routinesAgree (im : Image) : Bool :=
  let vocab (code o : Nat) : List Nat := (im.routines.filter (fun d => leAt d 0 1 == code)).map (fun d => leAt d o 4)
  let all := vocab 1 20 ++ vocab 2 20 ++ vocab 3 36 ++ vocab 5 24
  all.all (· == all.headD 0)

/-! Check 2: work items, collectives, send descriptors. -/

/-- A work item of the image (R95): its fields in range, and what its variants name exists. -/
def checkItem (im : Image) (it : BitVec 256) : Bool :=
  let kind := fieldAt it 32 8
  let vs := itemVariants im it
  decide (kind ≤ 4 ∧ 1 ≤ fieldAt it 40 8 ∧ fieldAt it 40 8 ≤ 8) && vs.length == fieldAt it 40 8
    && decide (fieldAt it 192 16 ≤ 1024 ∧ fieldAt it 160 32 + fieldAt it 192 16 ≤ im.successors.length)
    && fieldAt it 224 32 == 0
    && vs.all (fun v => fieldAt v 48 16 == 0 &&
        (if kind = 4 then (imgRoutineById im (fieldAt v 0 32)).isSome else (imgWindow im (fieldAt v 0 32)).isSome))

/-- A collective descriptor (R214). -/
def checkCollective (s : State) (d : BitVec 256) : Bool :=
  decide (fieldAt d 16 8 ≤ 2 ∧ 1 ≤ colSlots d ∧ colSlots d ≤ 4) && fieldAt d 56 8 == 0 && fieldAt d 160 96 == 0
    && colLength d % 64 == 0 && decide (64 ≤ colLength d ∧ colLength d ≤ 1048576)
    && (ringPos s.fabric.width (colW d) (colX0 d) (colRootX d)).isSome && (ringPos s.fabric.height (colH d) (colY0 d) (colRootY d)).isSome
    && (siteDie (fieldAt d 96 8)).isSome && (fieldAt d 104 8 == 4 || fieldAt d 104 8 == 5)

/-- A fabric send descriptor (R205). -/
def checkSendDesc (d : BitVec 128) : Bool :=
  decide (fieldAt d 80 8 ≤ 1) && fieldAt d 94 2 == 0 && fieldAt d 96 32 == 0 && fieldAt d 76 4 == 0

/-- Check 2 of R251: 0, 0x1405, or 0x1205 for a contradiction between descriptors where nothing else is wrong. -/
def checkDescriptors (s : State) (im : Image) : Nat :=
  let kib := (s.images.slots.foldl (fun m (p : Nat × ImgSlot) => max m ((p.2.image.map imgStageKib).getD 0)) (imgStageKib im))
  if checkFields s im && im.windows.all (checkWindow kib im) && noRepeat (im.windows.map (fun w => fieldAt w.desc 0 32))
      && im.routines.all (checkRoutine im) && noRepeat (im.routines.map (fun d => leAt d 4 4))
      && im.items.all (checkItem im)
      && im.collectives.all (checkCollective s) && noRepeat (im.collectives.map colId)
      && im.sendDescs.all checkSendDesc && decide (im.sendDescs.length ≤ 4096)
  then (if routinesAgree im then 0 else 0x1205)
  else 0x1405

/-! Checks 3 to 7. -/

/-- Size of the ensemble the module belongs to, 1 for none (R251 check 3, R297). -/
def ensembleSize (s : State) : Nat := s.obj Obj.ensSize

/-- Enabled Whippets of a die, w not counted. -/
def enabledWhips (s : State) (die w : Nat) : Nat :=
  (((List.range 16).map (fun j => 16 * die + j)).filter (fun x => x != w && !unitDisabled s (64 + x))).length

/-- R96: one unit's loss leaves each item a variant. -/
def itemSurvives (s : State) (im : Image) (it : BitVec 256) : Bool :=
  let vs := itemVariants im it
  if fieldAt it 32 8 = 4 then
    ((List.range 256).filter (fun w => !unitDisabled s (64 + w))).all (fun w => vs.any (fun v =>
      let need := ((imgRoutineById im (fieldAt v 0 32)).map shardsOf).getD 17
      (bitList 16 (variantDies v)).any (fun d => decide (need ≤ enabledWhips s d w))))
  else
    ((List.range 64).filter (fun c => !unitDisabled s c)).all (fun c => vs.any (fun v =>
      let m := ((imgWindow im (fieldAt v 0 32)).map (fun w => winMask w.desc)).getD (2 ^ c)
      !m.testBit c && (bitList 64 m).all (fun n => !unitDisabled s n)))

/-- Check 4: participants enabled, and every item survives (R58, R96). -/
def checkUnits (s : State) (im : Image) : Bool :=
  im.windows.all (fun w => (bitList 64 (winMask w.desc)).all (fun n => !unitDisabled s n)) && im.items.all (itemSurvives s im)

/-- Slots that hold an image and its resources. -/
def loadedImages (s : State) : List Image :=
  s.images.slots.filterMap (fun (p : Nat × ImgSlot) => if 2 ≤ p.2.state then p.2.image else none)

/-- MiB of a die's Soundboard that no locked partition occupies: the free runs, first MiB and length (R117). -/
def lockedRuns (d : Die) : List (Nat × Nat) :=
  let free (m : Nat) : Bool := !d.parts.any (fun p => p.base ≤ m && m < p.base + p.mib)
  (List.range 511).foldl (fun (l : List (Nat × Nat)) m =>
    if free m then
      match l.getLast? with
      | some (b, n) => if b + n = m then l.dropLast ++ [(b, n + 1)] else l ++ [(m, 1)]
      | none => [(m, 1)]
    else l) []

/-- Lowest place for a partition of n MiB on a die, within the floor of the cache (R117). -/
def placePartition (d : Die) (n : Nat) : Option Nat :=
  let used := (d.parts.map (fun p => p.mib)).sum
  if n = 0 then some 0
  else if 447 < used + n then none
  else ((lockedRuns d).find? (fun r => n ≤ r.2)).map (·.1)

/-- KiB of a Whippet's local SRAM that an image takes on a die (R84). -/
def localKib (im : Image) (die : Nat) : Nat :=
  ((im.routines.filter (fun d => (routineDies im (leAt d 4 4)).testBit die)).map (fun d => leAt d 10 2)).sum

/-- Bytes of staging that collectives of an image take at each rim die of this module (R214, R215). -/
def collBytes (s : State) (im : Image) (rim : Nat) : Nat :=
  ((im.collectives.filter (fun d => ((colPlace s d).map ColPlace.rim) == some rim)).map (fun d => colSlots d * colLength d)).sum

/-- Reduce targets of a window on a die: how many, and the bytes that stage them (R114). -/
def planSize (w : WindowImg) (die : Nat) : Nat × Nat :=
  let l := (targetRanges w).filter (fun r => siteDie r.1 == some die)
  (l.length, (l.map (fun r => r.2.2.2)).sum)

/-- The image needs SRAM of a fused-off core: for a section, a window's access, or an entry of the window table (R17; DEDUCED: such
an image does not fit the SRAM, log entry 97). -/
def needsFused (s : State) (im : Image) : Bool :=
  let core (site unit : Nat) : Bool := (siteDie site).any (fun d => decide (unit < 4) && unitFused s (4 * d + unit))
  im.sections.any (fun x => x.kind.toNat == 7 && unitFused s x.target.toNat)
    || im.windows.any (fun w => w.kernels.any (fun k => (touchesOf w k).any (fun t => core t.2.1 t.2.2.1)))
    || im.winEntries.any (fun e => winValid e && (List.range 4).any (fun c => core (winSite e) c
        && decide (winTarget e < coreSramBase c + coreSramSize ∧ coreSramBase c < winTarget e + (winLimit e - winBase e))))

/-- Check 5: SRAM, summed with the resident images (R251). -/
def checkSram (s : State) (im : Image) : Bool :=
  let all := im :: loadedImages s
  let kib := all.foldl (fun m x => max m (imgStageKib x)) 0
  !needsFused s im && decide ((all.map (fun x => imgMf x 16 4)).sum ≤ 48 * 1024)
    && decide ((all.map (fun x => imgMf x 20 4)).sum + kib ≤ 64 * 1024)
    && (List.range 16).all (fun d => (placePartition (s.die d) (imgLockedMib im)).isSome
        && decide ((all.map (fun x => localKib x d)).sum ≤ 1024)
        && im.windows.all (fun w => decide ((planSize w d).1 ≤ 256 ∧ (planSize w d).2 ≤ 1024 * kib)))
    && (List.range 4).all (fun r => decide ((all.map (fun x => collBytes s x r)).sum ≤ 16 * 2 ^ 20))

/-- Check 6: DRAM pages left once `kv_reserve_gib` is taken (R181). -/
def checkDram (s : State) (im : Image) : Bool := decide (imgDramPages im + 16384 * s.obj Obj.kvReserveGib ≤ freePages s)

/-- The window table as it will stand: the committed one that waits, else the one in force. -/
def windowTable (s : State) : Tab (BitVec 256) := match s.rmem.next with | some (_, t) => t | none => s.rmem.table

/-- Entries of the window table that hold no valid window. -/
def freeEntries (s : State) : List Nat := (List.range 128).filter (fun i => !winValid (tget 0 i (windowTable s)))

/-- An image's window entry with the job of its slot (R227). -/
def withJob (job : Nat) (e : BitVec 256) : BitVec 256 := BitVec.ofNat 256 (e.toNat / 65536 * 65536 + job % 65536)

/-- Check 7: the image's window entries fit the free ones and keep the rules (R227). -/
def checkWindows (s : State) (im : Image) (job : Nat) : Bool :=
  decide (im.winEntries.length ≤ (freeEntries s).length)
    && winListGood ((windowTable s).map (fun (p : Nat × BitVec 256) => p.2) ++ im.winEntries.map (withJob job))

/-- Result of the loader's checks, the first failure (R251). -/
def loadCode (s : State) (im : Image) (slot : Nat) : Nat :=
  if !checkFile s im then 0x1401
  else if checkDescriptors s im ≠ 0 then checkDescriptors s im
  else if imgMf im 8 2 ≠ ensembleSize s then 0x1406
  else if !checkUnits s im then 0x1404
  else if !checkSram s im then 0x1402
  else if !checkDram s im then 0x1403
  else if !checkWindows s im (s.obj (slotKey Obj.slotJob slot)) then 0x1205
  else 0

end Sys2Proof.Machine
end

