-- ==== Sys2Proof/Machine/Image.lean ====
section
/-! DEFINITION. Loading and unloading images, the image store, and the reload of lost partitions (R117, R181, R227, R231, R250 to
R254, R333). -/

namespace Sys2Proof.Machine

/-! Placing an image. -/

/-- First collective slot for each collective of an image, first fit at its combining rim die, those already declared passed
over (R214); `none` where the 256 slots do not hold them. -/
def placeColls (s : State) (slot : Nat) : List (BitVec 256) → List CollRes → Option (List CollRes)
  | [], have_ => some have_
  | d :: rest, have_ =>
    match colPlace s d with
    | none => placeColls s slot rest have_
    | some p =>
      let n := colSlots d * colSpan d
      let taken (i : Nat) : Bool := have_.any (fun r =>
        r.rim == p.rim && decide (r.base ≤ i ∧ i < r.base + colSlots r.desc * colSpan r.desc))
      let fits (b : Nat) : Bool := decide (b + n ≤ 256) && (List.range n).all (fun i => !taken (b + i))
      match (List.range 256).find? fits with
      | some b => placeColls s slot rest (have_ ++ [{ slot, desc := d, rim := p.rim, base := b }])
      | none => none

/-- The partition of an image on one die: pages of the cache in its range leave first, dirty ones written back (R117). -/
def addPartition (slot mib die : Nat) (s : State) : State :=
  match placePartition (s.die die) mib with
  | none => s
  | some b =>
    if mib = 0 then s
    else
      let es := ((s.die die).dir.filter (fun (p : Nat × CacheEnt) => b ≤ p.1 / 16 && p.1 / 16 < b + mib))
      let s := es.foldl (fun s (p : Nat × CacheEnt) =>
        if p.2.valid then evictEntry die p.1 s
        else
          let d := s.die die
          { (s.setDie die { d with dir := terase p.1 d.dir, fills := d.fills.filter (fun (f : Nat × Nat) => f.1 != p.2.page) }) with
            tags := s.tags.filter (fun t => !(t.site == dieSite die && t.purpose == 0 && t.arg == p.2.page)) }) s
      s.setDie die { s.die die with parts := (s.die die).parts ++ [{ slot, base := b, mib }] }

/-- A section's bytes go to their place: core SRAM, a locked partition, or die-shared SRAM (R250). -/
def placeSection (slot : Nat) (s : State) (x : Section) : State :=
  let t := x.target.toNat
  let off := x.dest.toNat
  match x.kind.toNat with
  | 7 => storeClean (memKey (dieSite (coreDie t)) (coreSramBase t + off)) x.data s
  | 8 => match partitionOf s t slot with
    | some p => storeClean (memKey (dieSite t) (sbBase + p.1 * 2 ^ 20 + off)) x.data s
    | none => s
  | 0x0A => storeClean (memKey (dieSite t) (dieSramBase + off)) x.data s
  | _ => s

/-- The staging area of every die is the largest that a loaded image asks for (R111). -/
def settleStaging (s : State) : State :=
  let kib := (loadedImages s).foldl (fun m x => max m (imgStageKib x)) 0
  (List.range 16).foldl (fun s d => s.setDie d { s.die d with stageKib := kib }) s

/-- Window entries of an image go to the lowest free ones, in the table in force and in one that waits (R227). -/
def installWindows (slot job : Nat) (im : Image) (s : State) : State :=
  let es := ((freeEntries s).zip im.winEntries).map (fun (p : Nat × BitVec 256) => (p.1, withJob job p.2))
  let put (t : Tab (BitVec 256)) : Tab (BitVec 256) := es.foldl (fun t p => tset p.1 p.2 t) t
  { s with rmem := { s.rmem with
    table := put s.rmem.table, next := s.rmem.next.map (fun (p : Nat × Tab (BitVec 256)) => (p.1, put p.2))
    loader := es.foldl (fun t p => tset p.1 slot t) s.rmem.loader } }

/-- A slot refused at boot has since become Resident: R288 bit 1 clears once none is left. -/
def settleBootRefused (s : State) : State :=
  let on := s.images.slots.any (fun (p : Nat × ImgSlot) => p.2.bootRefused)
  if (s.obj Obj.stateReasons).testBit 1 = on then s else setReason 1 on s

/-- What an image with its pages places: DRAM pages, locked partitions, sections, windows, the slot's entry, its collectives
(R205, R214, R254). -/
def placeImage (slot job : Nat) (im : Image) (pages : List Nat) (cols : List CollRes) (s : State) : State :=
  let s := ((List.range pages.length).zip pages).foldl (fun s (p : Nat × Nat) => writeImagePage im p.1 p.2 s) s
  let s := (List.range 16).foldl (fun s d => addPartition slot (imgLockedMib im) d s) s
  let s := im.sections.foldl (placeSection slot) s
  let s := installWindows slot job im s
  let s := s.setImgSlot slot { s.imgSlot slot with
    state := 2, digest := im.digest, image := some im, job := BitVec.ofNat 16 job, last := 0, pages, bootRefused := false }
  let s := { s with fabric := { s.fabric with colRes := cols }, serve := { s.serve with rate := terase slot s.serve.rate } }
  settleBootRefused (settleStaging (s.count Obj.imageLoads 1))

/-- An image that passed every check is placed and its slot is Resident (R251): pages, partitions, sections, windows,
collectives, staging, the slot's job; its prefill figures start anew (R245). -/
def installImage (slot : Nat) (im : Image) (s : State) : State :=
  match allocPages (.image slot) (imgDramPages im) s, placeColls s slot im.collectives s.fabric.colRes with
  | some (pages, t), some cols => placeImage slot (s.obj (slotKey Obj.slotJob slot)) im pages cols t
  | _, _ => s

/-- A load is refused: the slot is Empty again, with the code (R251, R253). -/
def refuseLoad (slot code : Nat) (s : State) : State :=
  let x := s.imgSlot slot
  let boot := s.dev.state = 2
  let s := s.setImgSlot slot { x with
    state := 0, digest := [], image := none, last := BitVec.ofNat 16 code, bootRefused := x.bootRefused || decide boot }
  let s := countLog Obj.imageRefusals (if boot then 1 else 0) code 0xFF slot [] s
  settleBootRefused s

/-- Result of the checks of a load, the place of its collectives among them (R205, R214, R251). -/
def loadResult (s : State) (im : Image) (slot : Nat) : Nat :=
  match loadCode s im slot with
  | 0 => if (placeColls s slot im.collectives s.fabric.colRes).isSome then 0 else 0x1402
  | c => c

/-- SLOT_LOAD_DONE: the checks of the load that comes first in the order of the writes end (R251, R254). -/
def execSlotLoadDone (slot : SlotId) (s : State) : Out :=
  let sl := slot.val
  let x := s.imgSlot sl
  let up := (s.dev.state = 2 ∧ s.dev.started) ∨ (3 ≤ s.dev.state ∧ s.dev.state ≤ 7)
  if x.state ≠ 1 ∨ s.images.order.head? ≠ some sl ∨ ¬up then .next s
  else
    let s := { s with images := { s.images with order := s.images.order.drop 1 } }
    match s.images.store.find? (fun im => im.digest == x.digest) with
    | none => .next (refuseLoad sl 0x1205 s)
    | some im =>
      let code := loadResult s im sl
      .next (if code = 0 then installImage sl im s else refuseLoad sl code s)

/-! Writes of a slot's objects (R253). -/

/-- Code of a write of `slot_load` (R253). -/
def slotLoadCode (s : State) (slot : Nat) (digest : Bytes) : Nat :=
  if (s.imgSlot slot).state ≠ 0 then 0x1105
  else if s.images.store.any (fun im => im.digest == digest) then 0 else 0x1205

/-- A load starts: the slot reads Loading, and its checks run in the order of the writes (R251, R254). -/
def startLoad (slot : Nat) (digest : Bytes) (s : State) : State :=
  let s := s.setImgSlot slot { s.imgSlot slot with state := 1, digest, image := none }
  { s with images := { s.images with order := s.images.order ++ [slot] } }

/-- Code of a write of `slot_unload` (R253). -/
def slotUnloadCode (s : State) (slot : Nat) : Nat := if (s.imgSlot slot).state ≤ 1 then 0x1105 else 0

/-- An image's windows are removed first, then its partitions, staging and collectives, and its pages are freed (R117, R181,
R231, R253). Prefix blocks of it hold pages of their own and stay in the table (R182). -/
def unloadImage (slot : Nat) (s : State) : State :=
  let x := s.imgSlot slot
  let mine := (s.rmem.loader.filter (fun (p : Nat × Nat) => p.2 == slot)).map (fun (p : Nat × Nat) => p.1)
  let cut (t : Tab (BitVec 256)) : Tab (BitVec 256) := t.filter (fun (p : Nat × BitVec 256) => !mine.contains p.1)
  let s := { s with rmem := { s.rmem with
    table := cut s.rmem.table, next := s.rmem.next.map (fun (p : Nat × Tab (BitVec 256)) => (p.1, cut p.2))
    loader := s.rmem.loader.filter (fun (p : Nat × Nat) => p.2 != slot) } }
  let gone := s.fabric.colRes.filter (fun r => r.slot == slot)
  let held (k : Nat) : Bool := gone.any (fun r =>
    decide (collKey r.rim r.base ≤ k ∧ k < collKey r.rim r.base + colSlots r.desc * colSpan r.desc))
  let s := { s with
    fabric := { s.fabric with
      colRes := s.fabric.colRes.filter (fun r => r.slot != slot)
      colls := s.fabric.colls.filter (fun (p : Nat × CollSlot) => !held p.1) }
    dies := s.dies.map (fun (p : Nat × Die) => (p.1, { p.2 with parts := p.2.parts.filter (fun q => q.slot != slot) }))
    dram := { s.dram with lost := s.dram.lost.filter (fun (p : Nat × Nat) => p.1 != slot) } }
  let s := s.setImgSlot slot { x with state := 0, digest := [], image := none, job := 0, pages := [] }
  let s := x.pages.foldl (fun s p => freePage p s) s
  settleDram (settleStaging s)

/-- No request and no work item of the slot is left. -/
def slotQuiet (s : State) (slot : Nat) : Bool :=
  !s.serve.ctxs.any (fun c => c.slot == slot) && !s.sched.items.any (fun it => it.slot == slot && it.status != 3)
    && !s.wins.any (fun w => w.slot == slot)

/-- SLOT_DRAINED: a Draining slot with no work item left becomes Empty (R253). -/
def execSlotDrained (slot : SlotId) (s : State) : Out :=
  let sl := slot.val
  if (s.imgSlot sl).state = 3 ∧ slotQuiet s sl then .next (unloadImage sl s) else .next s

/-- `slot_unload` 1: the slot drains (R253). -/
def drainSlot (slot : Nat) (s : State) : State := s.setImgSlot slot { s.imgSlot slot with state := 3 }

/-- `slot_unload` 2: unfinished requests end at their next step boundary with cause 5, and the slot is Empty as soon as nothing of
it is left (R253). -/
def forceSlot (slot : Nat) (s : State) : State :=
  let s := endRequests (fun c => c.slot == slot) 5 5 (drainSlot slot s)
  if slotQuiet s slot then unloadImage slot s else s

/-! The image store (R252, R255). -/

/-- MiB that an image takes in the store. -/
def storeMib (im : Image) : Nat := ceilDiv im.fileBytes (2 ^ 20)

/-- Code of an upload (R252): beyond the free store, then check 1; bytes that form no image fail it. -/
def uploadCode (s : State) (bytes : Nat) (im : Option Image) : Nat :=
  if s.images.freeMib < ceilDiv bytes (2 ^ 20) then 0x1203
  else match im with
    | none => 0x1401
    | some im => if checkFile s im then 0 else 0x1401

/-- An upload that passed is kept under its digest (R252); one stored already stays once. -/
def storeImage (im : Image) (s : State) : State :=
  if s.images.store.any (fun x => x.digest == im.digest) then s
  else { s with images := { s.images with
    store := s.images.store ++ [im], freeMib := s.images.freeMib - storeMib im } }

/-- Slots that boot loads: those with a committed digest (R253). -/
def bootSlots (s : State) : List Nat :=
  (List.range 16).filter (fun sl => (s.objB (slotKey Obj.slotBootDigest sl)).any (· != 0))

/-- Boot starts the loads of the committed assignments in ascending slot order; a digest not in the store refuses its slot at
once (R253). -/
def startBootLoads (s : State) : State :=
  (bootSlots s).foldl (fun s sl =>
    let d := s.objB (slotKey Obj.slotBootDigest sl)
    if s.images.store.any (fun im => im.digest == d) then startLoad sl d s else refuseLoad sl 0x1205 s) s

/-! Reload of locked partitions (R333). -/

/-- PARTITION_RELOAD_DONE: the partitions of a die that lost its Soundboard hold their images' contents again; the cells that no
section places are undefined, and the die serves. -/
def execPartitionReloadDone (die : DieId) (s : State) : Out :=
  let d := s.die die
  if !d.sbLost ∨ d.off ∨ d.reset.isSome then .next s
  else
    let s := d.parts.foldl (fun s p =>
      match imageOf s p.slot with
      | none => s
      | some im => (im.sections.filter (fun x => x.kind.toNat == 8 && x.target.toNat == die.val)).foldl (placeSection p.slot) s) s
    .next (settleDram (s.setDie die { s.die die with sbLost := false }))

end Sys2Proof.Machine
end

