-- ==== Sys2Proof/Machine/Serving.lean ====
section
/-! DEFINITION. The serving front end (R239 to R249): ports, sessions and their records, requests from assembly to admission,
prefix reuse, the end of a prefill, and deadlines. -/

namespace Sys2Proof.Machine

/-! Ports (R239). -/

/-- Differential pair of a lane of a serving port (R239). -/
def servePair (port lane : Nat) : Nat := 128 + 8 * port + lane

/-- Lanes that a serving port's mode uses: none, 0 to 3 at 400 Gb/s, all eight at 800 Gb/s (R239). -/
def serveLanes (s : State) (port : Nat) : Nat :=
  if s.obj (Obj.servePortModeS + port) = 1 then 4 else if s.obj (Obj.servePortModeS + port) = 2 then 8 else 0

/-- SERVING_PORT_LINK_CHANGE: the link of a serving port comes up or goes down. -/
def execServingPortLinkChange (port : Fin 2) (up : Bool) (s : State) : Out :=
  .next { s with serve := { s.serve with links := lset port.val up s.serve.links } }

/-- IPV4_FRAME: discarded and counted (R239). -/
def execIpv4Frame (port : Fin 2) (s : State) : Out :=
  if servePortUp s port.val then .next (s.count Obj.ipv4Discards 1) else .next s

/-- The unicast address of a serving port, in network order (R239). -/
def serveAddress (s : State) (p : Nat) : Bytes :=
  (leBytes 8 (s.obj (Obj.serveIpv6HiS + p))).reverse ++ (leBytes 8 (s.obj (Obj.serveIpv6LoS + p))).reverse

/-- ICMPV6_MESSAGE: an echo request is answered with its data, a solicitation of the port's own address with that address
(R239; types and form of RFC 4443 and RFC 4861). -/
def execIcmpv6Message (port : Fin 2) (type : Byte) (data : Bytes) (s : State) : Out :=
  let p := port.val
  if !servePortUp s p then .next s
  else if type = 128 then .next (s.emit (.icmp p 129 data))
  else if type = 135 ∧ (data.drop 4).take 16 = serveAddress s p then .next (s.emit (.icmp p 136 (serveAddress s p)))
  else .next s

/-! Sessions (R240 to R242). -/

/-- A datagram discarded without reply (R240). -/
def authDrop (s : State) : State := s.count Obj.serveAuthDrops 1

/-- A tenant that exists and is enabled, and the level nibble of the record (R240). -/
def datagramKnown (s : State) (d : Dgram) : Bool :=
  d.version.toNat % 16 == 1 && decide (d.tenant.toNat < 4096) && s.obj (tenantKeyOf Obj.tenantEnable d.tenant.toNat) == 1

/-- The session a datagram belongs to, if it authenticates there. -/
def datagramSession (s : State) (d : Dgram) : Option Sess :=
  if datagramKnown s d then
    match sessOf s d.session with
    | some q => if q.tenant = d.tenant.toNat ∧ q.key = d.key then some q else none
    | none => none
  else none

/-- Records that the window now lets leave (R242). -/
def sendQueued (num : W32) (s : State) : State :=
  match sessOf s num with
  | none => s
  | some q =>
    let ready := (q.unacked.take (s.obj Obj.serveWindowRecords)).filter (fun r => r.sent.isNone)
    ready.foldl (fun s r =>
      serveOut num r.seq r.kind r.body (modSess num (fun q => { q with
        unacked := q.unacked.map (fun x => if x.seq = r.seq then { x with sent := some s.beat } else x) }) s)) s

/-- An ack field is taken: acknowledged records are released, and the window moves (R242). -/
def takeAck (num : W32) (ack : Nat) (s : State) : State :=
  match sessOf s num with
  | none => s
  | some q =>
    if q.unacked.any (fun r => r.seq ≤ ack) ∧ ack < q.txNext then
      closeSession num (sendQueued num (modSess num (fun q => { q with
        unacked := q.unacked.filter (fun r => !decide (r.seq ≤ ack)), progress := s.beat }) s))
    else s

/-- A numbered record arrives (R242): one that authenticates and is the next in order is accepted, its ack taken and `op`
done; any other is discarded, and the last number accepted is reported again. -/
def takeInOrder (d : Dgram) (op : Sess → State → State) (s : State) : State :=
  if !servePortUp s d.port.val then s
  else
    match datagramSession s d with
    | none => authDrop s
    | some q =>
      let s := modSess q.num (fun q => { q with due := true }) s
      if d.seq.toNat % 2 ^ 63 = q.rxNext then
        let s := takeAck q.num d.ack.toNat (modSess q.num (fun q => { q with rxNext := q.rxNext + 1 }) s)
        match sessOf s q.num with
        | some q => op q s
        | none => s
      else s

/-- The slot whose descriptors give the limits of an ACCEPT (R241): detokenizer and sampler of the lowest Resident slot
that the tenant may use and that holds both. -/
def acceptLimits (s : State) (tenant : Nat) : Nat × Nat × Nat :=
  ((List.range 16).findSome? (fun sl =>
    if (s.imgSlot sl).state = 2 ∧ (s.obj (tenantKeyOf Obj.tenantSlotMask tenant)).testBit sl then
      match (imageOf s sl).bind (fun im => imgRoutine im 0x02), (imageOf s sl).bind (fun im => imgRoutine im 0x05) with
      | some sd, some dd => some (leAt sd 32 2, leAt dd 16 1, leAt dd 17 1)
      | _, _ => none
    else none)).getD (0, 0, 0)

/-- Code that an OPEN is refused with, 0 for none (R242 step 1). -/
def openCode (s : State) (d : Dgram) : Nat :=
  let hi := leAt d.body 0 1
  let lo := if leAt d.body 1 1 = 0 then 1 else leAt d.body 1 1
  if hi = 0 ∨ 1 < lo ∨ hi < lo then 0x1603
  else if ¬(s.dev.state = 5 ∨ s.dev.state = 6) then 0x1105
  else if s.obj Obj.serveMaxSessions ≤ s.serve.sessions.length
      ∨ s.obj (tenantKeyOf Obj.tenantMaxSessions d.tenant.toNat)
          ≤ (s.serve.sessions.filter (fun q => q.tenant == d.tenant.toNat)).length then 0x1901
  else 0

/-- OPEN: level 1 is agreed and a session opened with an ACCEPT, or the OPEN is refused outside any session (R241, R242). -/
def execOpenSession (d : Dgram) (s : State) : Out :=
  if !servePortUp s d.port.val then .next s
  else if !datagramKnown s d || s.objB (tenantKeyOf Obj.tenantKey d.tenant.toNat) != d.key then .next (authDrop s)
  else
    let code := openCode s d
    if code ≠ 0 then
      let seq := d.seq.toNat % 2 ^ 62
      let s := (s.emit (.serve d.port.val (serveHeader 0x08 d.tenant.toNat 0xFFFFFFFF seq s.freeWord.toNat)
        (serveNonce 0xFFFFFFFF seq) (leBytes 4 0 ++ leBytes 2 code))).drawn 1
      .next (s.count Obj.serveRefusals 1)
    else
      let num := s.serve.nextSess
      let (k, ns, nb) := acceptLimits s d.tenant.toNat
      let s := { s with serve := { s.serve with
        nextSess := num + 1
        sessions := s.serve.sessions ++ [{ num, tenant := d.tenant.toNat, port := d.port.val, key := d.key }] } }
      .next (serveSend num 0x02 (leBytes 1 1 ++ leBytes 2 k ++ leBytes 1 ns ++ leBytes 1 nb ++ leBytes 3 0) s)

/-- SERVE_ACK: outside the record sequence; taken when its ACK count is above the highest accepted (R242). -/
def execServeAck (d : Dgram) (s : State) : Out :=
  if !servePortUp s d.port.val then .next s
  else
    match datagramSession s d with
    | none => .next (authDrop s)
    | some q =>
      let n := d.seq.toNat % 2 ^ 62
      if d.seq.toNat.testBit 62 && (q.ackRx.map (fun h => decide (h < n))).getD true then
        .next (takeAck q.num d.ack.toNat (modSess q.num (fun q => { q with ackRx := some n }) s))
      else .next s

/-- RESERVED_KIND: acknowledged in sequence, otherwise ignored, and counted (R241, R242). -/
def execReservedKind (d : Dgram) (s : State) : Out :=
  .next (takeInOrder d (fun _ s => s.count Obj.serveKindDrops 1) s)

/-- SERVE_RESEND: the oldest unacknowledged record has gone `serve_resend_us` without an ack; all that have left are sent
again in order (R242). -/
def execServeResend (session : W32) (s : State) : Out :=
  match sessOf s session with
  | none => .next s
  | some q =>
    match q.unacked.head?.bind (·.sent) with
    | none => .next s
    | some b =>
      if b + 1000 * s.obj Obj.serveResendUs ≤ s.beat then
        let sent := q.unacked.filter (fun r => r.sent.isSome)
        let s := modSess session (fun q => { q with
          unacked := q.unacked.map (fun r => if r.sent.isSome then { r with sent := some s.beat } else r) }) s
        let s := sent.foldl (fun s r => serveOut session r.seq r.kind r.body s) s
        .next (s.count Obj.serveResends sent.length)
      else .next s

/-- ACK_DUE: records were received and nothing else was sent: an ACK record leaves with the session's next ACK count
(R242). -/
def execAckDue (session : W32) (s : State) : Out :=
  match sessOf s session with
  | none => .next s
  | some q =>
    if q.due then
      let s := serveOut session (2 ^ 62 + q.ackTx) 0x09 [] s
      .next (closeSession session (modSess session (fun q => { q with ackTx := q.ackTx + 1 }) s))
    else .next s

/-! Requests in assembly (R243). -/

/-- A request of a session in assembly. -/
def asmOf (s : State) (session req : W32) : Option Assembly :=
  s.serve.asm.find? (fun a => a.session == session && a.req == req)

/-- Change a request in assembly. -/
def modAsm (session req : W32) (f : Assembly → Assembly) (s : State) : State :=
  { s with serve := { s.serve with asm := s.serve.asm.map (fun a => if a.session = session ∧ a.req = req then f a else a) } }

/-- A request leaves assembly. -/
def dropAsm (session req : W32) (s : State) : State :=
  { s with serve := { s.serve with asm := s.serve.asm.filter (fun a => !(a.session == session && a.req == req)) } }

/-- FINAL of a request that ends before it is admitted: no tokens (R247, R248). -/
def finalEmpty (req : W32) (beat : Nat) : Bytes :=
  leBytes 4 req.toNat ++ leBytes 1 3 ++ leBytes 1 0 ++ leBytes 2 0 ++ leBytes 24 0 ++ leBytes 8 beat ++ leBytes 8 0

/-- A request in assembly is cancelled: FINAL with end reason 3 and no counts (R245, R248). -/
def cancelAsm (a : Assembly) (s : State) : State :=
  serveSend a.session 0x07 (finalEmpty a.req s.beat) (dropAsm a.session a.req s)

/-- Every unfinished request of a session is cancelled (R242). -/
def cancelSession (num : W32) (s : State) : State :=
  let s := (s.serve.asm.filter (fun a => a.session == num)).foldl (fun s a => cancelAsm a s) s
  endRequests (fun c => c.session == num) 3 0 s

/-- CLOSE: the session is closing and its requests are cancelled; it ends once its records are acknowledged (R242). -/
def execClose (d : Dgram) (s : State) : Out :=
  .next (takeInOrder d (fun q s => closeSession q.num (cancelSession q.num (modSess q.num (fun q => { q with closing := true }) s))) s)

/-- SESSION_TIMEOUT: records have waited `serve_session_timeout_ms` without progress on ack; the session is closed without
waiting for them (R242). -/
def execSessionTimeout (session : W32) (s : State) : Out :=
  match sessOf s session with
  | none => .next s
  | some q =>
    if !q.unacked.isEmpty ∧ q.progress + 1000000 * s.obj Obj.serveSessionTimeoutMs ≤ s.beat then
      let s := cancelSession session s
      .next { s with serve := { s.serve with sessions := s.serve.sessions.filter (fun q => q.num != session) } }
    else .next s

/-- CANCEL: an admitted request ends at its next step boundary with end reason 3, one in assembly at once; an unknown one is
ignored (R245). -/
def execCancel (d : Dgram) (s : State) : Out :=
  .next (takeInOrder d (fun q s =>
    let req := BitVec.ofNat 32 (leAt d.body 0 4)
    match asmOf s q.num req with
    | some a => cancelAsm a s
    | none => endRequests (fun c => c.session == q.num && c.req == req) 3 0 s) s)

/-- The stop strings after the fixed part, and what follows them; `none` where they overrun the body (R243). -/
def stopStrings : Nat → Bytes → Option (List Bytes × Bytes)
  | 0, b => some ([], b)
  | _ + 1, [] => none
  | n + 1, l :: r =>
    if r.length < l.toNat then none
    else (stopStrings n (r.drop l.toNat)).map (fun x => (r.take l.toNat :: x.1, x.2))

/-- Reserved fields of the fixed part are zero (R243). -/
def fixedReservedClear (f : Bytes) : Bool :=
  leAt f 5 1 / 2 == 0 && leAt f 7 1 == 0 && leAt f 22 2 == 0 && leAt f 48 16 == 0

/-- The prompt is token IDs (R243). -/
def asmTokens (a : Assembly) : Bool := (leAt a.fixed 5 1).testBit 0

/-- Prompt bytes a request declares (R243). -/
def asmTotal (fixed : Bytes) : Nat := (if (leAt fixed 5 1).testBit 0 then 4 else 1) * leAt fixed 8 4

/-- Prompt bytes received. -/
def asmHave (a : Assembly) : Nat := (a.prompt.map (fun p => p.2.length)).sum

/-- Put a part of the prompt in order of its offset. -/
def addPart_ (p : Nat × Bytes) : List (Nat × Bytes) → List (Nat × Bytes)
  | [] => [p]
  | x :: r => if p.1 < x.1 then p :: x :: r else x :: addPart_ p r

/-- The assembled prompt. -/
def asmText (a : Assembly) : Bytes := (a.prompt.foldl (fun l p => addPart_ p l) []).flatMap (·.2)

/-! The checks of R244. -/

def reqSlot (a : Assembly) : Nat := leAt a.fixed 4 1
def reqMax (a : Assembly) : Nat := leAt a.fixed 12 4
def reqTemp (a : Assembly) : W32 := BitVec.ofNat 32 (leAt a.fixed 16 4)
def reqTopK (a : Assembly) : Nat := leAt a.fixed 20 2
def reqTopP (a : Assembly) : W32 := BitVec.ofNat 32 (leAt a.fixed 24 4)
def reqMinP (a : Assembly) : W32 := BitVec.ofNat 32 (leAt a.fixed 28 4)
def reqPenalty (a : Assembly) : W32 := BitVec.ofNat 32 (leAt a.fixed 32 4)
def reqSeed (a : Assembly) : Nat := leAt a.fixed 36 8
def reqDeadlineUs (a : Assembly) : Nat := leAt a.fixed 44 4

/-- Check 3: the slot, the tenant's mask and the descriptors the request needs. -/
def slotServes (s : State) (q : Sess) (a : Assembly) : Bool :=
  let sl := reqSlot a
  decide (sl < 16) && ((s.imgSlot sl).state == 2 || (s.imgSlot sl).state == 3)
    && (s.obj (tenantKeyOf Obj.tenantSlotMask q.tenant)).testBit sl
    && (match imageOf s sl with
      | none => false
      | some im => (imgRoutine im 0x02).isSome && (imgRoutine im 0x05).isSome && (asmTokens a || (imgRoutine im 0x01).isSome))

/-- Check 5: a field below its range (R243); floats compare in FP32. -/
def reqBelow (a : Assembly) : Bool :=
  leAt a.fixed 8 4 == 0 || reqMax a == 0 || (!isZeroF (reqTemp a) && decide (fkey (reqTemp a) < fkey 0x3C23D70A))
    || decide (fkey (reqTopP a) ≤ 0) || decide (fkey (reqMinP a) < 0) || decide (fkey (reqPenalty a) < fkey 0x3F800000)
    || a.stops.any (fun x => x.isEmpty)

/-- Check 6: a field above its range, a token outside the vocabulary, or too many tokens (R85, R86, R93, R243). -/
def reqAbove (im : Image) (a : Assembly) : Bool :=
  let sd := (imgRoutine im 0x02).getD []
  let dd := (imgRoutine im 0x05).getD []
  decide (1048576 < reqMax a) || decide (fkey 0x42C80000 < fkey (reqTemp a)) || decide (leAt sd 32 2 < reqTopK a)
    || decide (fkey 0x3F800000 < fkey (reqTopP a)) || decide (fkey 0x3F800000 ≤ fkey (reqMinP a))
    || decide (fkey 0x41200000 < fkey (reqPenalty a)) || decide (600000000 < reqDeadlineUs a)
    || decide (leAt dd 16 1 < a.stops.length) || a.stops.any (fun x => decide (leAt dd 17 1 < x.length))
    || a.tokens.any (fun t => decide (leAt sd 20 4 ≤ t.toNat))
    || (!asmTokens a && (match imgRoutine im 0x01 with
      | some td => decide (leAt td 44 4 < a.tokens.length)
      | none => false))

/-- Checks 3 to 5, and 6 where the prompt's tokens are known; 0 where they pass (R244). -/
def reqCode (s : State) (q : Sess) (a : Assembly) (known : Bool) : Nat :=
  if !slotServes s q a then 0x1204
  else if (s.imgSlot (reqSlot a)).state = 3 ∨ q.closing ∨ ¬(s.dev.state = 5 ∨ s.dev.state = 6) then 0x1105
  else if reqBelow a then 0x1202
  else
    match imageOf s (reqSlot a) with
    | some im => if known && reqAbove im a then 0x1203 else 0
    | none => 0x1204

/-- A request in assembly is refused: nothing of it stays (R244). -/
def refuseAsm (a : Assembly) (code : Nat) (s : State) : State :=
  refuse a.session a.req.toNat code (dropAsm a.session a.req s)

/-! Admission (R245, R249). -/

/-- Uncached tokens of a context's prompt. -/
def uncached (c : Ctx) : Nat := c.prompt.length - c.reused

/-- Uncached tokens of a context whose prefill items are not done. -/
def waitingTokens (s : State) (c : Ctx) : Nat :=
  ((List.range (ceilDiv (uncached c) 512)).map (fun k =>
    if s.sched.items.any (fun it => it.kind == 0 && it.ctx == some c.id && it.first == c.reused + 512 * k)
      then min 512 (uncached c - 512 * k) else 0)).sum

/-- Uncached tokens in the prefill queue: `prefill_queue_tokens` (R245). -/
def queuedTokens (s : State) : Nat := ((s.serve.ctxs.filter (fun c => c.phase == 0)).map (waitingTokens s)).sum

/-- Nanoseconds that n uncached tokens of a slot take: the measured mean once 64 prefill items have completed, the
manifest's figure before (R245). -/
def prefillTime (s : State) (im : Image) (slot n : Nat) : Nat :=
  let (ns, tokens, items) := tget (0, 0, 0) slot s.serve.rate
  if 64 ≤ items ∧ tokens ≠ 0 then n * ns / tokens else n * imgPrefillNs im

/-- Deadline beat of a request (R245). -/
def deadlineOf (a : Assembly) : W64 :=
  if reqDeadlineUs a = 0 then 0xFFFFFFFFFFFFFFFF else BitVec.ofNat 64 (a.arrival + 1000 * reqDeadlineUs a)

/-- The prefix table's key holds for an entry (R249). -/
def prefixKey (tenant : Nat) (digest : Bytes) (seed : W64) (h : W64) (b : PrefixBlock) : Bool :=
  b.tenant == tenant && b.digest == digest && b.seed == seed && b.hash == h

/-- Lookup in ascending order with the full compare (R249): the entries that match, and whether a mismatch ended it. -/
def prefixMatch (s : State) (tenant : Nat) (digest : Bytes) (seed : W64) : List W64 → List W32 → List PrefixBlock × Bool
  | [], _ => ([], false)
  | h :: r, toks =>
    match s.dram.blocks.find? (prefixKey tenant digest seed h) with
    | none => ([], false)
    | some b =>
      if b.tokens = toks.take 64 then
        let x := prefixMatch s tenant digest seed r (toks.drop 64)
        (b :: x.1, x.2)
      else ([], true)

/-- Seed in the prefix key: the request's where stochastic rounding reaches KV (R249). -/
def prefixSeed (im : Image) (seed : Nat) : W64 := if imgKvStochastic im then BitVec.ofNat 64 seed else 0

/-- Owner die that the Sheepdog gives a stream's KV (R118): the spec gives no rule of choice. -/
def chooseOwner (s : State) : Nat :=
  let up := (List.range 16).filter (dieUp s)
  up.getD (s.freeWord.toNat % max 1 up.length) 0

/-- Pages that a request reserves (R182): its own whole hashed blocks, each on its own pages, and the rest of its tokens. -/
def pagesNeeded (im : Image) (a : Assembly) (hashed matched : Nat) : Nat :=
  (hashed - matched) * kvPages im 64 + kvPages im (a.tokens.length + reqMax a - 64 * hashed)

/-- Prefill work items of a context, one set of templates for each 512 uncached tokens (R245). -/
def queuePrefill (im : Image) (c : Ctx) (s : State) : State :=
  (List.range (ceilDiv (uncached c) 512)).foldl (fun s k =>
    instantiate c.slot 0 (some c.id) c.deadline (c.reused + 512 * k) im (im.items.filter (fun t => tmplKind t == 0)) s) s

/-- The context of an admitted request: its pages and reused blocks, a free choice of owner die (log entry 34), and its
prefill queued (R245, R249). -/
def enterCtx (q : Sess) (a : Assembly) (im : Image) (hashes : List W64) (found : List PrefixBlock) (pages : List Nat) (t : State) : State :=
  let owner := chooseOwner t
  let t := t.drawn 1
  let id := t.serve.nextCtx
  let c : Ctx :=
    { id, session := a.session, tenant := q.tenant, req := a.req, slot := reqSlot a, maxTok := reqMax a, temp := reqTemp a
      topK := reqTopK a, topP := reqTopP a, minP := reqMinP a, penalty := reqPenalty a
      seed := BitVec.ofNat 64 (reqSeed a), deadline := deadlineOf a, stops := a.stops, prompt := a.tokens
      arrival := a.arrival, pages, blocks := found.map (·.id), reused := 64 * found.length, hashes, owner }
  let t := { t with
    serve := { t.serve with ctxs := t.serve.ctxs ++ [c], nextCtx := id + 1 }
    dram := { t.dram with owner := pages.foldl (fun o p => tset p owner o) t.dram.owner } }
  let t := t.count Obj.prefixBlocksReused found.length
  queuePrefill im c (dropAsm a.session a.req t)

/-- Pages for a request, reclaimed if need be; its contents follow if its estimate meets the deadline (R245, R249). -/
def admitPages (q : Sess) (a : Assembly) (im : Image) (hashes : List W64) (found : List PrefixBlock) (s : State) : State :=
  let slot := reqSlot a
  let ids := found.map (·.id)
  let held := { s with dram := { s.dram with blocks := s.dram.blocks.map (fun b =>
    if ids.contains b.id then { b with refs := b.refs + 1, used := s.beat } else b) } }
  match allocPages (.context s.serve.nextCtx) (pagesNeeded im a hashes.length found.length) held with
  | none => refuseAsm a 0x1901 (s.count Obj.kvAdmissionRefusals 1)
  | some (pages, t) =>
    let own := a.tokens.length - 64 * found.length
    let est := s.beat + prefillTime s im slot (queuedTokens s + own)
    if reqDeadlineUs a ≠ 0 ∧ (deadlineOf a).toNat < est then refuseAsm a 0x1902 s
    else enterCtx q a im hashes found pages t

/-- Checks 7 to 9 of R244, then the context with its pages, its reused blocks and its prefill items (R182, R245, R249). -/
def admitRequest (q : Sess) (a : Assembly) (im : Image) (hashes : List W64) (s : State) : State :=
  let m := prefixMatch s q.tenant (s.imgSlot (reqSlot a)).digest (prefixSeed im (reqSeed a)) hashes a.tokens
  let s := if m.2 then s.count Obj.prefixCollisions 1 else s
  if s.obj Obj.maxContexts ≤ s.serve.ctxs.length
      ∨ s.obj Obj.prefillQueueLimit ≤ (s.serve.ctxs.filter (fun c => c.phase == 0)).length
      ∨ s.obj (tenantKeyOf Obj.tenantMaxStreams q.tenant) ≤ (s.serve.ctxs.filter (fun c => c.tenant == q.tenant)).length then
    refuseAsm a 0x1901 s
  else admitPages q a im hashes m.1 s

/-- A prompt whose tokens are known: check 6 passed, it waits for the prefix hasher, or is admitted at once where the image
has none (R249). -/
def hashOrAdmit (q : Sess) (a : Assembly) (s : State) : State :=
  let code := reqCode s q a true
  if code ≠ 0 then refuseAsm a code s
  else
    match imageOf s (reqSlot a) with
    | none => refuseAsm a 0x1204 s
    | some im =>
      if (imgRoutine im 0x06).isSome then modAsm a.session a.req (fun x => { x with phase := 2, tokens := a.tokens }) s
      else admitRequest q a im [] s

/-- A complete prompt is judged: checks 3 to 5, then the tokenizer for text, or check 6 for token IDs (R244). -/
def judge (q : Sess) (a : Assembly) (s : State) : State :=
  if asmTokens a then
    let a := { a with tokens := bytesWords (asmHave a / 4) (asmText a) }
    let code := reqCode s q a false
    if code ≠ 0 then refuseAsm a code s else hashOrAdmit q a s
  else
    let code := reqCode s q a false
    if code ≠ 0 then refuseAsm a code s else modAsm a.session a.req (fun x => { x with phase := 1 }) s

/-- A request is judged once its prompt is complete, or at once in a closing session (R242, R243). -/
def judgeIfComplete (num req : W32) (s : State) : State :=
  match sessOf s num, asmOf s num req with
  | some q, some a => if asmHave a = asmTotal a.fixed ∨ q.closing then judge q a s else s
  | _, _ => s

/-- REQUEST: counted, put through checks 1 and 2, assembled, and judged when its prompt is complete (R243, R244). -/
def execRequest (d : Dgram) (s : State) : Out :=
  .next (takeInOrder d (fun q s =>
    let s := s.count Obj.serveRequests 1
    let fixed := d.body.take 64
    let req := BitVec.ofNat 32 (leAt fixed 0 4)
    match (if d.body.length < 64 ∨ 8192 < d.body.length ∨ !fixedReservedClear fixed then none
           else stopStrings (leAt fixed 6 1) (d.body.drop 64)) with
    | none => refuse q.num req.toNat 0x1201 s
    | some (stops, first) =>
      if asmTotal fixed < first.length then refuse q.num req.toNat 0x1201 s
      else if (asmOf s q.num req).isSome ∨ s.serve.ctxs.any (fun c => c.session == q.num && c.req == req) then
        refuse q.num req.toNat 0x1205 s
      else
        let a : Assembly :=
          { session := q.num, req, fixed, stops, prompt := if first.isEmpty then [] else [(0, first)]
            length := leAt fixed 8 4, arrival := s.beat }
        judgeIfComplete q.num req { s with serve := { s.serve with asm := s.serve.asm ++ [a] } }) s)

/-- PROMPT: bytes at their offset join a request in assembly; an overlap, or bytes beyond the prompt, refuse it; a request
not in assembly is ignored (R243, R244). -/
def execPrompt (d : Dgram) (s : State) : Out :=
  .next (takeInOrder d (fun q s =>
    let req := BitVec.ofNat 32 (leAt d.body 0 4)
    let off := leAt d.body 4 4
    let data := d.body.drop 8
    match asmOf s q.num req with
    | none => s
    | some a =>
      if a.phase ≠ 0 then s
      else if 8192 < d.body.length ∨ asmTotal a.fixed < off + data.length ∨
          a.prompt.any (fun p => decide (off < p.1 + p.2.length ∧ p.1 < off + data.length)) then refuseAsm a 0x1201 s
      else judgeIfComplete q.num req (modAsm q.num req (fun a => { a with prompt := a.prompt ++ [(off, data)] }) s)) s)

/-- PROMPT_TIMEOUT: a prompt still incomplete `serve_prompt_timeout_ms` after its REQUEST is refused (R243). -/
def execPromptTimeout (session : W32) (req : W32) (s : State) : Out :=
  match asmOf s session req with
  | none => .next s
  | some a =>
    if a.phase = 0 ∧ a.arrival + 1000000 * s.obj Obj.servePromptTimeoutMs ≤ s.beat then .next (refuseAsm a 0x1201 s)
    else .next s

/-- TOKENIZER: a waiting text prompt becomes tokens, with the tables of the Whippet's die (R85); then check 6 (R244). -/
def execTokenizer (whip : WhipId) (session req : W32) (s : State) : Out :=
  match sessOf s session, asmOf s session req with
  | some q, some a =>
    if a.phase ≠ 1 ∨ !whipIdle s whip then .next s
    else
      match (imageOf s (reqSlot a)).bind (fun im => imgRoutine im 0x01) with
      | none => .next (refuseAsm a 0x1204 s)
      | some td =>
        let text := asmText a
        let s := if utf8Valid text then s else s.count Obj.tokInvalidUtf8 1
        let toks := tokenize s (whipDie whip) (reqSlot a) td text
        .next (hashOrAdmit q { a with tokens := toks } (routineEnd whip 0 (0, 0) (0, 0) (wordsBytes toks) s))
  | _, _ => .next s

/-- PREFIX_HASHER: the prompt's candidate blocks are hashed (R94), looked up and compared (R249), and the request goes through
checks 7 to 9 (R244). -/
def execPrefixHasher (whip : WhipId) (session req : W32) (s : State) : Out :=
  match sessOf s session, asmOf s session req with
  | some q, some a =>
    if a.phase ≠ 2 ∨ !whipIdle s whip then .next s
    else
      let code := reqCode s q a true
      if code ≠ 0 then .next (refuseAsm a code s)
      else
        match (imageOf s (reqSlot a)).bind (fun im => (imgRoutine im 0x06).map (fun d => (im, d))) with
        | none => .next (refuseAsm a 0x1204 s)
        | some (im, d) =>
          let seed := leAt d 24 8
          let hashes := blockHashes seed ((a.tokens.length - 1) / 64) 0 a.tokens
          .next (admitRequest q a im hashes
            (routineEnd whip 0 (0, 0) (0, 0) (hashes.flatMap (fun h => leBytes 8 h.toNat)) (hasherUnit whip seed hashes s)))
  | _, _ => .next s

/-! From prefill to decode (R245, R248, R249). -/

/-- Pages of a context's own block b: each whole hashed block of its own stands on pages of its own (R182). -/
def blockPages (im : Image) (c : Ctx) (b : Nat) : List Nat :=
  (c.pages.drop ((b - c.reused / 64) * kvPages im 64)).take (kvPages im 64)

/-- Blocks b and later enter the prefix table in ascending order; an entry with the same tokens is kept and the block stays
the context's own, one with other tokens is a collision and ends it, and a block that a failed window wrote is passed over
(R249). -/
def enterBlocks (im : Image) (id : Nat) : List (Nat × W64) → State → State
  | [], s => s
  | (b, h) :: r, s =>
    match s.ctx id with
    | none => s
    | some c =>
      let toks := (c.prompt.drop (64 * b)).take 64
      let digest := (s.imgSlot c.slot).digest
      let seed := prefixSeed im c.seed.toNat
      match s.dram.blocks.find? (prefixKey c.tenant digest seed h) with
      | some e => if e.tokens = toks then enterBlocks im id r s else s.count Obj.prefixCollisions 1
      | none =>
        if c.faulted.any (fun p => decide (p < 64 * b + 64 ∧ 64 * b < p + 512)) then enterBlocks im id r s
        else
          let pages := blockPages im c b
          let n := s.dram.nextBlock
          let s := { s with dram := { s.dram with
            blocks := s.dram.blocks ++ [{ id := n, tenant := c.tenant, digest, hash := h, seed, tokens := toks, pages, refs := 1
                                          used := s.beat }]
            nextBlock := n + 1
            used := pages.foldl (fun u p => tset p (PageUse.prefix_ n) u) s.dram.used } }
          enterBlocks im id r (modCtx id (fun c => { c with blocks := c.blocks ++ [n] }) s)

/-- The context's pages that its entered blocks took over. -/
def giveBlocks (id : Nat) (s : State) : State :=
  modCtx id (fun c => { c with pages := c.pages.filter (fun p =>
    !s.dram.blocks.any (fun b => c.blocks.contains b.id && b.pages.contains p)) }) s

/-- Its first token: the sampler's decision over the prefill's last row, which stands as logit row 0 of the owner die. -/
def firstToken (s : State) (im : Image) (c : Ctx) : List W32 × Flags :=
  match imgRoutine im 0x02 with
  | none => ([], 0)
  | some d =>
    let r := (acceptFrom s im d { c with tree := [] } 0 1 0).run 0
    (r.1.1, r.2)

/-- The Whippet that samples a first token: the lowest enabled one of the context's owner die. -/
def firstWhip (s : State) (c : Ctx) : Nat :=
  (((List.range 16).map (fun j => 16 * c.owner + j)).find? (fun w => !unitDisabled s (64 + w))).getD (16 * c.owner)

/-- PREFILL_COMPLETE: all prefill items of the context are done, in `ns` nanoseconds. Its input is counted (R248), its
blocks enter the prefix table (R249), its first token is sampled and released, and it joins the active set where there is
room (R245). -/
def execPrefillComplete (ctx : Nat) (ns : Nat) (s : State) : Out :=
  match s.ctx ctx with
  | none => .next s
  | some c =>
    match imageOf s c.slot with
    | none => .next s
    | some im =>
      if c.phase ≠ 0 ∨ s.sched.items.any (fun it => it.kind == 0 && it.ctx == some ctx) then .next s
      else
        let n := uncached c
        let (t, k, m) := tget (0, 0, 0) c.slot s.serve.rate
        let old := tget (0, 0) c.tenant s.serve.counts
        let s := { s with serve := { s.serve with
          rate := tset c.slot (t + ns, k + n, m + ceilDiv n 512) s.serve.rate
          counts := tset c.tenant (old.1 + c.prompt.length, old.2) s.serve.counts } }
        let s := modCtx ctx (fun c => { c with inputCounted := true, phase := 1 }) s
        let own := ((List.range c.hashes.length).zip c.hashes).drop (c.reused / 64)
        let s := giveBlocks ctx (enterBlocks im ctx own s)
        let (toks, f) := firstToken s im c
        let s := routineEnd (firstWhip s c) f (0, 0) (0, 0) (wordsBytes toks) s
        let s := detokenize c.owner ctx toks s
        .next (joinActive 256 s)

/-- DEADLINE_EXPIRY: at its deadline beat a request ends at its next step boundary with end reason 4 (R245). -/
def execDeadlineExpiry (ctx : Nat) (s : State) : Out :=
  match s.ctx ctx with
  | none => .next s
  | some c =>
    if c.deadline ≠ 0xFFFFFFFFFFFFFFFF ∧ c.deadline.toNat ≤ s.beat then .next (settleEnding ctx (markEnding ctx 4 0 s))
    else .next s

end Sys2Proof.Machine
end

