-- ==== Sys2Proof/Machine/TimeBase.lean ====
section
/-! DEFINITION. The time base and the clocks (R256 to R271): sources, discipline of the beat counter, BEAT_SYNC, droop and
frequency steps. -/

namespace Sys2Proof.Machine

/-! Sources (R258, R259). -/

/-- A source may be used: valid, its bit set, and not FABRIC at the reference itself (R258, R262). -/
def sourceUsable (s : State) (src : Nat) : Bool :=
  (tfind src s.time.valid).isSome && (s.obj Obj.timeSourceEnable).testBit (src - 1) && !(src == 3 && isReference s)

/-- The time base follows another source (R259): acquiring, no beat changed. -/
def switchTo (src : Nat) (s : State) : State :=
  if s.time.source = src then s
  else
    ({ s with time := { s.time with source := src, state := 1, within := none, refSecs := false } }).count Obj.sourceSwitches 1

/-- The most preferred usable source, or holdover with the last frequency (R259). -/
def reselect (s : State) : State :=
  match ([1, 2, 3] : List Nat).find? (sourceUsable s) with
  | some b => switchTo b s
  | none =>
    if s.time.source = 0 then s
    else ({ s with time := { s.time with source := 0, state := 3, within := none } }).count Obj.holdoverEntries 1

/-- A source becomes valid; with none in use it is followed at once (R258, R259). -/
def gainSource (src : Nat) (s : State) : State :=
  if (tfind src s.time.valid).isSome then s
  else
    let s := { s with time := { s.time with valid := tset src s.beat s.time.valid } }
    if s.time.source = 0 then reselect s else s

/-- A source is lost; one in use gives way to the most preferred valid one (R259). -/
def loseSource (src : Nat) (s : State) : State :=
  let s := { s with time := { s.time with valid := terase src s.time.valid } }
  if s.time.source = src then reselect s else s

/-! Discipline (R257). -/

/-- The counter is stepped by an offset in 0.1 ps; measured offsets move with it (R257). -/
def stepCounter (d : Int) (s : State) : State :=
  let total := (s.beat : Int) * 10000 + s.time.frac + d
  let ps := d / 10
  let s := { s with
    beat := (total / 10000).toNat
    time := { s.time with
      frac := total % 10000, slew := 0, pendingOff := 0, ptpOff := s.time.ptpOff.map (fun o => o - ps) }
    ports := s.ports.map (fun (p : Nat × FPort) => (p.1, { p.2 with offsets := p.2.offsets.map (fun o => o - ps) })) }
  if d = 0 then s else s.count Obj.beatSteps 1

/-- Bound within which an offset counts towards LOCKED, ps (R259). -/
def lockBound (src : Nat) : Nat := if src = 2 then 200000 else 2000

/-- An offset to the source in use, in ps: removed by a step in Boot or Held with no window open, slewed elsewhere, or kept
pending where it is too large; the lock timer runs while it stays within bound (R257, R259). The estimate of the error bound
is not given and is a free value. -/
def applyOffset (off : Int) (s : State) : State :=
  let ok := decide (off.natAbs ≤ lockBound s.time.source)
  let s := { s with time := { s.time with
    offset := off, bound := s.freeWord.toNat % 0xFFFF
    within := if ok then some (s.time.within.getD s.beat) else none
    state := if ok then s.time.state else 1 } }
  let s := s.drawn 1
  if (s.dev.state = 2 ∨ s.dev.state = 3) ∧ !s.wins.any (fun w => w.phase == 2) then stepCounter (off * 10) s
  else if off.natAbs ≤ 1000 * s.obj Obj.beatSlewLimitNs then
    { s with time := { s.time with slew := off * 10, pendingOff := 0 } }
  else { s with time := { s.time with pendingOff := off / 1000 } }

/-- Whole seconds nearest to an offset in ps, in ps. -/
def wholeSeconds (off : Int) : Int := (off + 500000000000) / 1000000000000 * 1000000000000

/-- Spread of a list of offsets. -/
def spread (l : List Int) : Int := listMax 0 l - listMin 0 l

/-! REF. -/

/-- Seconds that REF takes at acquisition, as an offset in ps, and the anchor that comes with them (R258): from PTP, from
the reference node's records, or from 0 at the edge. -/
def refSeconds (phase : Int) (s : State) : Int × Nat :=
  if (tfind 2 s.time.valid).isSome then (wholeSeconds (s.time.ptpOff.headD 0 - phase), 2)
  else
    match s.ports.findSome? (fun (p : Nat × FPort) =>
        if s.time.upstream = p.1 then (match p.2.sync, p.2.offsets.head? with
          | some r, some o => if r.flags.toNat.testBit 0 then some (o, r.flags.toNat.testBit 1) else none
          | _, _ => none) else none) with
    | some (o, tai) => (wholeSeconds (o - phase), if tai then 2 else 1)
    | none => ((s.obj Obj.ppsDelayPs : Int) - (1000 * (s.beat : Int) + s.time.frac / 10) - phase, 0)

/-- PPS_EDGE: an edge `interval` ns after the last on the 10 MHz count, with the 10 MHz input `ppb` off the OCXO and the count
`phase` ps past a multiple of 10⁹. Four successive good edges make REF valid; while it is followed the edge, less
`pps_delay_ps`, marks a multiple of 10⁹ (R258). -/
def execPpsEdge (interval : Nat) (ppb : Int) (phase : Int) (s : State) : Out :=
  if !s.powered then .next s
  else if 2000 < ppb.natAbs then
    .next (logEvent Obj.timeSource 1 0x1802 hubSite 0 [] { s with time := { s.time with ppsGood := 0 } })
  else
    let good := s.time.ppsGood != 0 && decide (999999900 ≤ interval ∧ interval ≤ 1000000100)
    let n := if good then s.time.ppsGood + 1 else 1
    let s := { s with time := { s.time with ppsGood := min n 4 } }
    let s := if 4 ≤ n then gainSource 1 s else s
    if s.time.source ≠ 1 then .next s
    else
      let off : Int := (s.obj Obj.ppsDelayPs : Int) - phase
      if s.time.refSecs then .next (applyOffset off s)
      else
        let (secs, anchor) := refSeconds off s
        .next (applyOffset (off + secs) { s with time := { s.time with refSecs := true, anchored := anchor } })

/-- REF_CLOCK_LOSS: no 10 MHz edge for 10 µs, or two 1PPS edges missing (R258). -/
def execRefClockLoss (s : State) : Out :=
  .next (loseSource 1 { s with time := { s.time with ppsGood := 0 } })

/-! PTP. -/

/-- PTP_SYNC: a completed Sync exchange with the selected master, whose TAI was `tai` ns and `offset` ps more when the own
count read its present value. Sixteen exchanges with a spread below 200 ns make PTP valid (R258, R260). -/
def execPtpSync (offset : Int) (tai : Nat) (utc : Option W16) (master : W64) (s : State) : Out :=
  if !s.powered then .next s
  else
    let same := s.time.master == master
    let off := 1000 * ((tai : Int) - s.beat) + offset
    let offs := (off :: (if same then s.time.ptpOff else [])).take 16
    let n := (if same then s.time.ptpN else 0) + 1
    let s := { s with time := { s.time with master, ptpN := min n 16, ptpOff := offs } }
    let s := match utc with
      | some u => s.setObj Obj.utcOffsetS u.toNat
      | none => s
    let s := if 16 ≤ n ∧ spread offs < 200000 then gainSource 2 s else s
    if s.time.source = 2 then .next (applyOffset off { s with time := { s.time with anchored := 2 } }) else .next s

/-- PTP_LOSS: no Sync for three announce intervals (R258). -/
def execPtpLoss (s : State) : Out :=
  .next (loseSource 2 { s with time := { s.time with ptpN := 0, ptpOff := [], master := 0 } })

/-! FABRIC (R261, R262). -/

/-- A port may be the upstream: up, its latest record of the same reference, LOCKED, at most 15 hops (R262). -/
def upstreamHops (s : State) (p : FPort) : Option Nat :=
  match p.sync with
  | some r =>
    if p.state = 2 ∧ r.refNode.toNat = refNode s ∧ r.flags.toNat.testBit 2 ∧ r.hops.toNat ≤ 15 then some r.hops.toNat else none
  | none => none

/-- The upstream port: fewest hops, then the lowest number (R262). -/
def chooseUpstream (s : State) : Option (Nat × Nat) :=
  if refNode s = 0xFFFF ∨ isReference s then none
  else
    ((List.range 16).filterMap (fun p => (upstreamHops s (s.port p)).map (fun h => (h, p)))).foldl
      (fun (o : Option (Nat × Nat)) x =>
        match o with
        | none => some x
        | some y => if x.1 < y.1 then some x else some y) none

/-- The upstream in force, with own hops (R262). -/
def takeUpstream (s : State) : State :=
  match chooseUpstream s with
  | some (h, p) => { s with time := { s.time with upstream := p, hops := h + 1 } }
  | none => { s with time := { s.time with upstream := 0xFF, hops := 0xFF } }

/-- A record of the upstream port with its stamps (R262): one whose delay lies more than 2 ns from the median of the last 16
is rejected; 16 records with a spread below 1 ns make FABRIC valid; while FABRIC is followed its offset disciplines the
count, with the seconds while they are valid. -/
def followUpstream (p : Nat) (r : SyncRec) (t4 : Nat) (s : State) : State :=
  let x := s.port p
  let delay := (((t4 : Int) - r.t1) - ((r.t3 : Int) - r.t2)) / 2
  let off := ((r.t3 : Int) + delay - t4) * 1000 / 65536
  let far := !x.delays.isEmpty && decide (262144 < (2 * delay - median2 x.delays).natAbs)
  let s := s.setPort p { x with delays := (delay :: x.delays).take 16 }
  if far then s.count Obj.beatSyncRejects 1
  else
    let offs := (off :: x.offsets).take 16
    let s := s.setPort p { s.port p with offsets := offs }
    let s := if 16 ≤ offs.length ∧ spread offs < 1000 then gainSource 3 s else s
    if s.time.source ≠ 3 then s
    else if r.flags.toNat.testBit 0 then
      let s := { s with time := { s.time with anchored := if r.flags.toNat.testBit 1 then 2 else 1 } }
      applyOffset off (s.setObj Obj.utcOffsetS r.utcOff.toNat)
    else applyOffset (off - wholeSeconds off) s

/-- BEAT_SYNC: a record received on a trained port, its first bit stamped `t4` (R261, R262). -/
def execBeatSync (p : PortId) (r : SyncRec) (t4 : Nat) (s : State) : Out :=
  let n := p.val
  if (s.port n).state ≠ 2 then .next s
  else
    let s := s.setPort n { s.port n with sync := some r, syncT3 := r.t3, syncT4 := t4, syncBeat := s.beat }
    let s := takeUpstream s
    if s.time.upstream = n ∧ r.t1 ≠ 0 then .next (followUpstream n r t4 s) else .next s

/-- BEAT_SYNC_SEND: every `beat_sync_interval_us` a trained port queues a record, which is filled in and stamped as its block
leaves (R192, R261). -/
def execBeatSyncSend (p : PortId) (s : State) : Out :=
  let n := p.val
  if (s.port n).state = 2 ∧ (s.port n).syncSent + 1000 * s.obj Obj.beatSyncIntervalUs ≤ s.beat then
    .next (s.setPort n { s.port n with syncSent := s.beat, ctrlq := (s.port n).ctrlq ++ [[0x03]] })
  else .next s

/-- FABRIC is lost (R259), and its upstream with it. -/
def loseFabric (s : State) : State :=
  takeUpstream (loseSource 3 { s with time := { s.time with upstream := 0xFF, hops := 0xFF } })

/-- FABRIC_SYNC_LOSS: the upstream port is down: the next port under R262 takes over, and where there is none FABRIC is lost 1 ms
after the last record (R271); or it is up and has brought no record for 1 ms: FABRIC is lost (R258). -/
def execFabricSyncLoss (s : State) : Out :=
  let u := s.time.upstream
  let silent := decide ((s.port u).syncBeat + 1000000 ≤ s.beat)
  if u = 0xFF then .next s
  else if (s.port u).state = 2 then
    (if silent then .next (loseFabric (s.setPort u { s.port u with sync := none, delays := [], offsets := [] })) else .next s)
  else
    let s := s.setPort u { s.port u with sync := none, delays := [], offsets := [] }
    match chooseUpstream s with
    | some _ => .next (takeUpstream s)
    | none => if silent then .next (loseFabric s) else .next s

/-- The reference node changed: FABRIC is lost, and acquired anew (R271). -/
def reacquireFabric (s : State) : State :=
  let s := { s with ports := s.ports.map (fun (p : Nat × FPort) => (p.1, { p.2 with delays := [], offsets := [] })) }
  takeUpstream (loseSource 3 s)

/-- SOURCE_REVALID: a more preferred source has been valid for 10 s without interruption (R259). -/
def execSourceRevalid (src : Fin 4) (s : State) : Out :=
  let n := src.val
  if sourceUsable s n ∧ 0 < n ∧ n < s.time.source ∧ tget 0 n s.time.valid + 10000000000 ≤ s.beat then .next (switchTo n s)
  else .next s

/-- TIME_LOCK: the offset has stayed within bound for 1 s (R259). -/
def execTimeLock (s : State) : Out :=
  match s.time.within with
  | some b =>
    if s.time.source ≠ 0 ∧ s.time.state = 1 ∧ b + 1000000000 ≤ s.beat then
      .next { s with time := { s.time with state := 2 } }
    else .next s
  | none => .next s

/-- The sources enabled have changed: a source no longer enabled is left (R258). -/
def settleSources (s : State) : State :=
  if s.time.source ≠ 0 ∧ !sourceUsable s s.time.source then reselect s
  else if s.time.source = 0 then reselect s else s

/-- The seconds of the count are set (R276). -/
def setSeconds (v : Nat) (s : State) : State :=
  { s with beat := (1000000000 * v + s.beat % 1000000000) % 2 ^ 64, time := { s.time with anchored := 1 } }

/-! Clocks (R269, R270). -/

/-- DROOP_TRIP: one to three edges are withheld in every region of the die (R270); they are counted by site and by window,
and are no ticks (R75). -/
def execDroopTrip (site : SiteId) (edges : Fin 3) (s : State) : Out :=
  let k := edges.val + 1
  let off : Bool := match siteDie site.val with
    | some d => (s.die d).off
    | none => false
  if s.dev.state < 2 ∨ s.dev.state = 8 ∨ off then .next s
  else
    let s := (s.count Obj.stretchEvents 1).count (Obj.stretchedCyclesN + site.val) k
    match siteDie site.val with
    | none => .next s
    | some d => .next ((List.range 4).foldl (fun s j =>
        let c := s.core (4 * d + j)
        if c.state = 1 then s.setCore (4 * d + j) { c with stretch := c.stretch + k } else s) s)

/-- A die may take a frequency step: no window open on it and no core under test (R269, R356). -/
def stepFree (s : State) (d : Nat) : Bool :=
  dieUp s d && !s.wins.any (fun w => w.phase == 2 && (bitList 64 w.parts.toNat).any (fun n => coreDie n == d))
    && (List.range 4).all (fun j => (s.core (4 * d + j)).state != 3)

/-- FREQ_STEP: the die moves 50 MHz towards the clock wanted, at least 50 µs after its last step, and its crossings are
calibrated within the stop; a failure leaves it at the last clock that calibrated (R268, R269). No step starts once a loss
is declared (R339). -/
def execFreqStep (die : DieId) (xing : List (Nat × List (Nat × Int))) (s : State) : Out :=
  let n := die.val
  let d := s.die n
  match d.want with
  | none => .next s
  | some w =>
    if !stepFree s n ∨ s.beat < d.stepBeat + 50000 ∨ s.power.input = 3 then .next s
    else
      let next := if d.clock < w then min w (d.clock + 50) else max w (d.clock - 50)
      let (s, ok) := calibrateDie n xing s
      let d := s.die n
      if ok then
        .next ((s.setDie n { d with clock := next, stepBeat := s.beat, want := if next = w then none else some w }).count
          Obj.clockSteps 1)
      else .next (s.setDie n { d with stepBeat := s.beat, want := none })

/-- A write of `mc_clock_mhz`: each die whose clock differs has a change pending (R75, R269). -/
def wantClock (v : Nat) (s : State) : State :=
  (List.range 16).foldl (fun s n =>
    let d := s.die n
    s.setDie n { d with want := if d.clock = v then none else some v }) s

end Sys2Proof.Machine
end

