-- ==== Sys2Proof/Machine/States.lean ====
section
/-! DEFINITION. The device states (R286, R287): entering and leaving service, draining, restart, and the two timers of the
management interfaces. -/

namespace Sys2Proof.Machine

/-- Some slot is Resident. -/
def anyResident (s : State) : Bool := s.images.slots.any (fun (p : Nat × ImgSlot) => p.2.state == 2)

/-- Serving, or Degraded while a condition of R288 holds. -/
def enterService (s : State) : State := enterState (if s.obj Obj.stateReasons = 0 then 5 else 6) s

/-- A serving port would be up in service (R239, R287). -/
def portReady (s : State) : Bool :=
  ([0, 1] : List Nat).any (fun p => s.obj (Obj.servePortModeS + p) != 0 && s.serve.links.getD p false
    && !(p == 1 && s.obj Obj.retrieverEnable == 1))

/-- The state that follows Boot, or Held once an ensemble starts or is dissolved: Serving or Degraded where `serve_enable` is 1,
a slot is Resident and a serving port is up, else Ready (R287). -/
def goServe (s : State) : State :=
  if s.obj Obj.serveEnable = 1 ∧ anyResident s ∧ portReady s then enterService s else enterState 4 s

/-- A session closes from the module's side: CLOSE is sent, its requests are cancelled (R242). -/
def moduleClose (num : W32) (s : State) : State :=
  let s := serveSend num 0x0A [] (modSess num (fun q => { q with closing := true }) s)
  closeSession num (cancelSession num s)

/-- Every session closes (R242, R287). -/
def closeAll (s : State) : State := (s.serve.sessions.map (·.num)).foldl (fun s n => moduleClose n s) s

/-- `serve_enable` has taken a value (R287): 1 in Ready with a slot Resident enters service; 0 in service goes to Ready, and
sessions close. -/
def serveSwitch (v : Nat) (s : State) : State :=
  if v = 1 ∧ s.dev.state = 4 ∧ anyResident s then enterService s
  else if v = 0 ∧ (s.dev.state = 5 ∨ s.dev.state = 6) then enterState 4 (closeAll s)
  else s

/-- Code of a write of `drain_request` (R305). -/
def drainCode (s : State) : Nat := if s.dev.state = 5 ∨ s.dev.state = 6 then 0 else 0x1105

/-- `drain_request`: the module drains towards Ready (1) or Standby (2) (R287). -/
def startDrain (v : Nat) (s : State) : State := enterState 7 { s with dev := { s.dev with drainTo := v } }

/-- DRAINING_DONE: no stream remains (R287). -/
def execDrainingDone (s : State) : Out :=
  if s.dev.state = 7 ∧ s.serve.ctxs.isEmpty then
    .next (if s.dev.drainTo = 2 then enterState 1 (railsOff s) else enterState 4 s)
  else .next s

/-- Code of a write of `power_on_request` (R305). -/
def powerOnCode (s : State) : Nat := if s.dev.state = 1 then 0 else 0x1105

/-- `power_on_request`: Standby goes to Boot (R287). -/
def powerOn (s : State) : State := enterState 2 s

/-- Code of a write of `restart_request`: refused while a latched die has not cooled (R334). -/
def restartCode (s : State) : Nat := if latchedCool s then 0 else 0x1105

/-- Every stream ends as at a session close, at once (R287). -/
def endStreams (s : State) : State :=
  let s := closeAll s
  (s.serve.ctxs.map (·.id)).foldl (fun s id => endCtx id 3 0 s) s

/-- `restart_request`: 1 boots again, 2 goes to Standby; open streams end as at a session close (R287). -/
def restart (v : Nat) (s : State) : State :=
  let s := railsOff (endStreams s)
  let s := { s with therm := { s.therm with dies := s.therm.dies.map (fun (p : Nat × ThermDie) =>
    (p.1, if p.2.level = 3 then { p.2 with level := 0 } else p.2)) } }
  let s := settleThermal s
  if v = 1 then
    -- a boot begins even where the module was in Boot already
    enterState 2 (if s.dev.state = 2 then lockTest s else s)
  else enterState 1 s

/-- STAGE_IDLE_TIMEOUT: the owner of the staged set has been idle for `stage_idle_timeout_s` (R282). -/
def execStageIdleTimeout (s : State) : Out :=
  if s.config.owner.isSome ∧ s.config.ownerBeat + s.obj Obj.stageIdleTimeoutS * 1000000000 ≤ s.beat then
    .next { s with config := { s.config with staged := [], owner := none } }
  else .next s

/-- UART_IDLE_RESYNC: after 1 ms of idle line the receiver takes frames again (R280). -/
def execUartIdleResync (s : State) : Out := .next { s with config := { s.config with uartHunt := false } }

end Sys2Proof.Machine
end

