-- ==== Sys2Proof/Machine/Ensemble.lean ====
section
/-! DEFINITION. Ensembles (R297 to R302): records, roll call, start, heartbeats, and the stop. -/

namespace Sys2Proof.Machine

/-! Records (R298). -/

def erLevel (r : BitVec 512) : Nat := fieldAt r 0 8
def erKind (r : BitVec 512) : Nat := fieldAt r 8 8
def erId (r : BitVec 512) : Nat := fieldAt r 16 16
def erNode (r : BitVec 512) : Nat := fieldAt r 32 16
def erSize (r : BitVec 512) : Nat := fieldAt r 48 16
def erGroup (r : BitVec 512) : Nat := fieldAt r 64 32
def erFirmware (r : BitVec 512) : Nat := fieldAt r 96 32
def erMap (r : BitVec 512) : Nat := fieldAt r 128 32
def erImage (r : BitVec 512) : Nat := fieldAt r 160 256
def erBound (r : BitVec 512) : Nat := fieldAt r 416 16
def erLocked (r : BitVec 512) : Bool := fieldAt r 432 1 == 1
def erRef (r : BitVec 512) : Bool := fieldAt r 433 1 == 1
def erBeat (r : BitVec 512) : Nat := fieldAt r 448 64

/-- The slot the ensemble serves (R297). -/
def ensSlotState (s : State) : ImgSlot := s.imgSlot (s.obj Obj.ensSlot)

/-- Error bound against the reference node, 0.01 ns (R261, R298). -/
def ownBound (s : State) : Nat := if isReference s then 0 else if ownHops s = 0xFF then 0xFFFF else s.time.bound

/-- The member's own record of a kind, made for a beat (R298). -/
def ensRec (s : State) (kind beat : Nat) : BitVec 512 :=
  BitVec.ofNat 512 (leNat (leBytes 1 1 ++ leBytes 1 kind ++ leBytes 2 (s.obj Obj.ensId) ++ leBytes 2 s.fabric.node.toNat
    ++ leBytes 2 (s.obj Obj.ensSize) ++ leBytes 4 (groupDigest s) ++ leBytes 4 s.dev.firmware.toNat
    ++ leBytes 4 (s.obj Obj.mapDigest) ++ fitBytes 32 (ensSlotState s).digest ++ leBytes 2 (ownBound s)
    ++ leBytes 1 ((if s.time.state = 2 then 1 else 0) + (if refNode s = lowestNode (memberNodes s) then 2 else 0))
    ++ leBytes 1 0 ++ leBytes 8 beat))

/-- The record is published: subscribers of `ens_record` are notified of the change (R298). -/
def publish (kind beat : Nat) (s : State) : State :=
  { s with ens := { s.ens with own := ensRec s kind beat, lastBeat := s.beat } }

/-- Expected map digest of a node in the member table; 0 accepts any (R297). -/
def expectedMap (s : State) (node : Nat) : Nat :=
  match (List.range (memberNodes s).length).find? (fun i => (memberNodes s).getD i 0xFFFF == node) with
  | some i => leAt (s.objB Obj.ensMemberTable) (24 * i + 4) 4
  | none => 0

/-! Items (R299). -/

/-- Time passes: locked, the reference matches, and the bound is at most 8.00 ns. -/
def timeGood (r : BitVec 512) : Bool := erLocked r && erRef r && decide (erBound r ≤ 800)

/-- Failing items of a record against the own one, the map digest against `map` (0 for any) (R299). -/
def recordItems (s : State) (own r : BitVec 512) (map : Nat) : Nat :=
  maskOf (([
    (0, erLevel r == 1),
    (1, erGroup r == erGroup own),
    (2, erFirmware r == erFirmware own),
    (3, erImage r == erImage own && (ensSlotState s).state == 2),
    (4, map == 0 || erMap r == map),
    (5, timeGood r),
    (6, erId r == erId own && erSize r == erSize own)].filter (fun (p : Nat × Bool) => !p.2)).map (fun (p : Nat × Bool) => p.1))

/-- The record that counts for a node in a roll call: the own one made now, or the latest of kind 1 or 3 (R301). -/
def rollRecord (s : State) (node : Nat) : Option (BitVec 512) :=
  if node = s.fabric.node.toNat then some (ensRec s 1 s.beat)
  else
    match s.ens.records.find? (fun (r : W16 × BitVec 512 × Nat) => r.1.toNat == node) with
    | some (_, r, _) => if erKind r = 1 ∨ erKind r = 3 then some r else none
    | none => none

/-- Items of a node in the roll call; a missing record fails membership. -/
def nodeItems (s : State) (node : Nat) : Nat :=
  match rollRecord s node with
  | some r => recordItems s (ensRec s 1 s.beat) r (expectedMap s node)
  | none => 64

/-- Some member published STOP last. -/
def anyStop (s : State) : Bool :=
  erKind s.ens.own == 4 || s.ens.records.any (fun (r : W16 × BitVec 512 × Nat) => erKind r.2.1 == 4)

/-- Failing items over all members, and the first failing node (R299). -/
def rollItems (s : State) : Nat × Nat :=
  (memberNodes s).foldl (fun (a : Nat × Nat) n =>
    let m := nodeItems s n
    (a.1 ||| m, if m ≠ 0 ∧ a.2 = 0xFFFF then n else a.2)) (0, 0xFFFF)

/-- Every table node has a record. -/
def fullSet (s : State) : Bool := (memberNodes s).all (fun n => (rollRecord s n).isSome)

/-- Code of the lowest failing item (R299). -/
def itemCode (items : Nat) : Nat :=
  if items.testBit 0 then 0x1603 else if items % 32 ≠ 0 then 0x1601 else if items.testBit 5 then 0x1602 else 0x1601

/-- The items of a roll call are shown; a change of a failing full set is logged with the code of its lowest bit (R299,
R301). -/
def noteItems (items node : Nat) (s : State) : State :=
  let old := s.ens.items
  let s := { s with ens := { s.ens with items, badNode := BitVec.ofNat 16 node } }
  if items ≠ 0 ∧ items ≠ old ∧ (fullSet s ∨ items ≠ 64) then logEvent Obj.ensMismatchItems 0 (itemCode items) 0xFF 0 (leBytes 2 node) s else s

/-- The roll call is judged (R301): the lowest node with a full set that passes publishes START; a member whose check fails
with a full set, or while a START stands, publishes STOP. -/
def judgeRoll (s : State) : State :=
  let (items, node) := rollItems s
  let s := noteItems items node s
  if items ≠ 0 ∧ (fullSet s ∨ (s.ens.start.isSome ∧ items ≠ 64)) then
    let s := { s with ens := { s.ens with start := none } }
    if erKind s.ens.own = 1 ∨ erKind s.ens.own = 3 then publish 4 s.beat s else s
  else if items = 0 ∧ !anyStop s ∧ s.ens.start.isNone ∧ erKind s.ens.own = 1
      ∧ lowestNode (memberNodes s) = s.fabric.node.toNat then
    let b := s.beat + 10000000
    publish 3 b { s with ens := { s.ens with start := some b } }
  else s

/-- A member subscribes with mode 1 to `ens_record` of every other member, under its client_id (R279, R298). -/
def subscribeMembers (s : State) : State :=
  let own := s.fabric.node.toNat
  (List.range (memberNodes s).length).foldl (fun s i =>
    if (memberNodes s).getD i own = own then s
    else ctlEmit (.subscribe (((s.objB Obj.ensMemberTable).drop (24 * i + 8)).take 16) (2 ^ 31 + own)
      (Obj.ensRecord / 256) (Obj.ensRecord % 256) 1) s) s

/-- A roll call begins: no record counts, the other members' are subscribed to (R298), and the own one is published at once by
ROLL_CALL (R301). -/
def startRollCall (s : State) : State :=
  subscribeMembers { s with ens := { state := 1 } }

/-- ROLL_CALL: the roll-call record is published, and again every second until the ensemble starts (R301). -/
def execRollCall (s : State) : Out :=
  if s.ens.state ≠ 1 ∨ s.dev.state < 3 ∨ s.dev.state = 8 ∨ erKind s.ens.own = 3
      ∨ (erKind s.ens.own ≠ 0 ∧ s.beat < s.ens.lastBeat + 1000000000) then .next s
  else .next (judgeRoll (publish 1 s.beat s))

/-- The ensemble stops (R302): streams end at their next step boundary with reason 5, cause 4, outputs close, the member is
Held. -/
def stopEnsemble (s : State) : State :=
  let s := { s with ens := { s.ens with state := 3, start := none } }
  if 4 ≤ s.dev.state ∧ s.dev.state ≤ 7 then
    let s := logEvent Obj.deviceState 2 (itemCode s.ens.items) 0xFF 0 (leBytes 2 s.ens.badNode.toNat) s
    enterState 3 (endRequests (fun _ => true) 5 4 s)
  else s

/-- A member detects a failing item in the run: it publishes STOP and stops (R302). -/
def detectStop (items node : Nat) (s : State) : State :=
  let s := { s with ens := { s.ens with items, badNode := BitVec.ofNat 16 node } }
  stopEnsemble (publish 4 s.beat s)

/-- A node's record replaces its former one. -/
def keepRecord (r : BitVec 512) (s : State) : State :=
  let n := BitVec.ofNat 16 (erNode r)
  let rest := s.ens.records.filter (fun (x : W16 × BitVec 512 × Nat) => x.1 != n)
  { s with ens := { s.ens with records := (n, r, s.beat) :: rest } }

/-- A heartbeat of the run is compared (R302): the bound stops the ensemble only in two successive records. -/
def judgeHeartbeat (r : BitVec 512) (s : State) : State :=
  let n := BitVec.ofNat 16 (erNode r)
  let own := ensRec s 2 s.beat
  let items := recordItems s own r 0
  let items := if tget 0 n.toNat s.ens.maps = (BitVec.ofNat 32 (erMap r)) then items else items ||| 16
  let onlyBound := !timeGood r && erLocked r && erRef r
  let was := s.ens.slow.contains n
  let s := { s with ens := { s.ens with
    slow := if onlyBound then n :: s.ens.slow.filter (· != n) else s.ens.slow.filter (· != n) } }
  let items := if onlyBound && !was && items.testBit 5 then items - 32 else items
  if items = 0 then s else detectStop items n.toNat s

/-- ENS_RECORD: a member's record arrives under `ens_key` (R298 to R302). -/
def execEnsRecord (key : Bytes) (r : BitVec 512) (s : State) : Out :=
  if !s.powered ∨ s.faultStop then .next s
  else if s.objB Obj.ensKey = [] ∨ key ≠ s.objB Obj.ensKey then .next (s.count Obj.mgmtAuthDrops 1)
  else if !inEnsemble s ∨ erNode r = s.fabric.node.toNat ∨ !(memberNodes s).contains (erNode r) then .next s
  else
    let s := keepRecord r s
    match s.ens.state with
    | 1 =>
      let s :=
        if erKind r = 4 then { s with ens := { s.ens with start := none } }
        else if erKind r = 3 ∧ erNode r = lowestNode (memberNodes s) ∧ !anyStop s then
          { s with ens := { s.ens with start := some (erBeat r) } }
        else s
      .next (if erKind s.ens.own = 0 then s else judgeRoll s)
    | 2 =>
      if erKind r = 4 then .next (stopEnsemble s)
      else if erKind r = 2 then .next (judgeHeartbeat r s)
      else .next s
    | _ => .next s

/-- ENSEMBLE_START: at B_S a member whose own check passes opens its outputs; one whose check fails publishes STOP (R301). -/
def execEnsembleStart (s : State) : Out :=
  match s.ens.start with
  | some b =>
    if s.ens.state ≠ 1 ∨ s.beat < b ∨ s.dev.state < 3 ∨ s.dev.state = 8 then .next s
    else
      let (items, node) := rollItems s
      let s := noteItems items node { s with ens := { s.ens with start := none } }
      if items ≠ 0 ∨ anyStop s then .next (publish 4 s.beat s)
      else
        let maps := (memberNodes s).foldl (fun (t : Tab W32) n =>
          match rollRecord s n with
          | some r => tset n (BitVec.ofNat 32 (erMap r)) t
          | none => t) []
        let records := s.ens.records.map (fun (x : W16 × BitVec 512 × Nat) => (x.1, x.2.1, s.beat))
        let s := { s with ens := { s.ens with state := 2, maps, records, slow := [], lastBeat := s.beat } }
        .next (if s.dev.state = 3 then goServe s else s)
  | none => .next s

/-- HEARTBEAT: every `ens_heartbeat_ms` of a run a member publishes its record (R302). -/
def execHeartbeat (s : State) : Out :=
  if s.ens.state = 2 ∧ s.ens.lastBeat + 1000000 * s.obj Obj.ensHeartbeatMs ≤ s.beat then .next (publish 2 s.beat s) else .next s

/-- HEARTBEAT_MISSING: a member has sent no record for three intervals: item 6 fails (R302). -/
def execHeartbeatMissing (node : W16) (s : State) : Out :=
  if s.ens.state ≠ 2 ∨ node = s.fabric.node ∨ !(memberNodes s).contains node.toNat then .next s
  else
    match s.ens.records.find? (fun (x : W16 × BitVec 512 × Nat) => x.1 == node) with
    | some (_, _, b) =>
      if b + 3 * (1000000 * s.obj Obj.ensHeartbeatMs) ≤ s.beat then .next (detectStop 64 node.toNat s) else .next s
    | none => .next s

/-- Code of a write of `ens_resume` (R305). -/
def resumeCode (s : State) : Nat := if s.dev.state = 3 ∧ (s.ens.state = 1 ∨ s.ens.state = 3) then 0 else 0x1105

/-- `ens_dissolve` (R302): the ensemble size is 1, stored as well; the image of `ens_slot` is unloaded where it was made for
another size (check 3 of R251); a Held module that boot did not hold leaves Held. -/
def dissolve (client : Nat) (s : State) : State :=
  let e : Entry := { key := Obj.ensSize, ty := 7, data := leBytes 2 1 }
  let s := storeEntries client (entriesDigest [e]) [e] s
  let s := { (s.setObj Obj.ensSize 1) with ens := {} }
  let sl := s.obj Obj.ensSlot
  let x := s.imgSlot sl
  let s : State := match x.image with
    | some im => if 2 ≤ x.state ∧ imgMf im 8 2 ≠ 1 then forceSlot sl s else s
    | none => s
  if s.dev.state = 3 ∧ !s.dev.heldAtBoot then goServe s else s

/-- Ensemble objects were committed: a member runs the roll call, and a module with size 1 belongs to none (R297, R301). A run under
way goes on, and stops at the next heartbeat once the group digest differs (R302). -/
def ensCommitted (s : State) : State :=
  if !inEnsemble s then { s with ens := {} }
  else if s.ens.state = 2 then s else startRollCall s

end Sys2Proof.Machine
end

