-- ==== Sys2Proof/Machine/SelfTest.lean ====
section
/-! DEFINITION. Known-answer tests, test mode, fault injection on strings, the Beagle and the error log (R355 to R371): their
events, and the codes and effects of the dictionary writes that drive them. -/

namespace Sys2Proof.Machine

/-! Known-answer tests (R355 to R358). -/

/-- Code of a write of `isolation_clear` (R22), 0 where its test is queued. -/
def isolationClearCode (s : State) (unit : Nat) : Nat :=
  if s.dev.state = 2 ∨ s.dev.state = 8 then 0x1105
  else if unitFused s unit then 0x1204
  else if !unitDisabled s unit then 0x1205 else 0

/-- Code of a write of `kat_request` (R357). -/
def katRequestCode (s : State) (unit : Nat) : Nat :=
  if s.dev.state = 2 ∨ s.dev.state = 8 then 0x1105 else if unitFused s unit then 0x1204 else 0

/-- The first unit at or after `k`, going round `n` units from unit `base`, that was not fused off: its index. -/
def nextUnfused (s : State) (base n k : Nat) : Nat :=
  ((List.range n).map (fun i => (k + i) % n)).findSome? (fun j => if unitFused s (base + j) then none else some j) |>.getD (k % n)

/-- KAT_PERIODIC: the next core, or the next Whippet of its die, in ascending number is queued (R357, R358): one core each
`kat_period_h` / 64, one Whippet of a die each `kat_period_h` / 16. -/
def execKatPeriodic (unit : Nat) (s : State) : Out :=
  let hours := s.obj Obj.katPeriodH
  if hours = 0 ∨ s.dev.state < 3 ∨ 7 < s.dev.state ∨ 320 ≤ unit then .next s
  else if unit < 64 then
    if unit = nextUnfused s 0 64 s.kat.nextCore ∧ s.kat.lastCore + hours * 3600000000000 / 64 ≤ s.beat then
      .next (queueKat unit 4 none { s with kat := { s.kat with nextCore := (unit + 1) % 64, lastCore := s.beat } })
    else .next s
  else
    let die := whipDie (unit - 64)
    let j := (unit - 64) % 16
    if j = nextUnfused s (64 + 16 * die) 16 (tget 0 die s.kat.nextWhip) ∧
        tget 0 die s.kat.lastWhip + hours * 3600000000000 / 16 ≤ s.beat then
      .next (queueKat unit 4 none { s with kat := { s.kat with
        nextWhip := tset die ((j + 1) % 16) s.kat.nextWhip, lastWhip := tset die s.beat s.kat.lastWhip } })
    else .next s

/-- A unit's test starts: one test serves every request queued for it (R371). -/
def katStart (unit : Nat) (s : State) : State :=
  let mine := s.kat.queue.filter (fun r => r.unit == unit)
  let s := { s with kat := { s.kat with
    queue := s.kat.queue.filter (fun r => r.unit != unit), running := s.kat.running ++ mine } }
  s.count Obj.katRuns 1

/-- MATRIX_CORE_KAT: the due core starts its test once no window has it, and while no frequency step of its die is pending
(R356 step 2, R269). -/
def execMatrixCoreKat (c : CoreId) (s : State) : Out :=
  let s := settleKat s
  let n := c.val
  if s.kat.core = some n ∧ (s.core n).state = 0 ∧ !s.wins.any (fun w => w.parts.getLsbD n) ∧ dieUp s (coreDie n)
      ∧ (s.die (coreDie n)).want.isNone then
    .next (katStart n (s.setCore n { s.core n with state := 3, katRepeat := false, katAt := s.beat }))
  else .next s

/-- Answers of the requests that a finished test served (R22): a passed test clears the isolation they name. -/
def katAnswers (unit : Nat) (pass : Bool) (s : State) : State :=
  let mine := s.kat.running.filter (fun r => r.unit == unit)
  let s := { s with kat := { s.kat with running := s.kat.running.filter (fun r => r.unit != unit) } }
  let clears := mine.filter (fun r => r.prio == 2)
  let s := if pass && !clears.isEmpty && unitIsolated s unit then clearIsolation unit s else s
  clears.foldl (fun s r => match r.answer with
    | some h => answerWrite h (if pass then 0 else 0x1205) s
    | none => s) s

/-- A test of a unit is over (R356 step 5): result 0 pass, 1 pass on repeat, 2 fail. A second failure isolates the unit, and
work items that waited for the test go on (R77). -/
def katResult (unit result : Nat) (s : State) : State :=
  let s := ((s.setObj Obj.katLastUnit unit).setObj Obj.katLastResult result).setObj Obj.katLastBeat s.beat
  let s := if result = 1 then countLog Obj.katTransients 0 0 (unitSite unit) unit [] s else s
  let s := if result = 2 ∧ !unitDisabled s unit then isolate unit (s.count Obj.katFailures 1) else s
  let s := if unit < 64 then
      { s with sched := { s.sched with items := s.sched.items.map (fun it =>
        { it with tests := it.tests &&& ~~~(BitVec.ofNat 64 (2 ^ unit)) }) } }
    else s
  katAnswers unit (result ≠ 2) s

/-- Length of a Matrix Core's test on a die: 4,800,000 ticks at the die's clock, ns (R355). -/
def katLength (d : Die) : Nat := 4800000000 / max 1 d.clock

/-- MATRIX_CORE_KAT_DONE, once the test has run its length: a first failure repeats the test at once; otherwise the core is free, and the next test is due
(R356). -/
def execMatrixCoreKatDone (c : CoreId) (pass : Bool) (s : State) : Out :=
  let n := c.val
  let x := s.core n
  if x.state ≠ 3 ∨ s.beat < x.katAt + katLength (s.die (coreDie n)) then .next s
  else if !pass ∧ !x.katRepeat then .next (s.setCore n { x with katRepeat := true, katAt := s.beat })
  else
    let s := s.setCore n { x with state := 0, katRepeat := false }
    let s := { s with kat := { s.kat with core := none } }
    .next (settleKat (katResult n (if !pass then 2 else if x.katRepeat then 1 else 0) s))

/-- The next Whippet to be tested on a die (R357, R358). -/
def nextWhipKat (s : State) (die : Nat) : Option Nat :=
  let q := s.kat.queue.filter (fun r => 64 ≤ r.unit && whipDie (r.unit - 64) == die)
  ([1, 2, 3, 4].findSome? (fun p => q.find? (fun r => r.prio == p))).map (fun r => r.unit - 64)

/-- WHIPPET_KAT: the next Whippet due on its die, idle, starts its test while no other of the die runs one (R358). -/
def execWhippetKat (w : WhipId) (s : State) : Out :=
  let n := w.val
  if nextWhipKat s (whipDie n) = some n ∧ (s.whip n).state = 0 ∧ dieUp s (whipDie n)
      ∧ (List.range 16).all (fun j => (s.whip (16 * whipDie n + j)).state != 2) then
    .next (katStart (64 + n) (s.setWhip n { s.whip n with state := 2, katRepeat := false }))
  else .next s

/-- WHIPPET_KAT_DONE (R358): as a core's (R356 step 5). -/
def execWhippetKatDone (w : WhipId) (pass : Bool) (s : State) : Out :=
  let n := w.val
  let x := s.whip n
  if x.state ≠ 2 then .next s
  else if !pass ∧ !x.katRepeat then .next (s.setWhip n { x with katRepeat := true })
  else
    let s := s.setWhip n { x with state := 0, katRepeat := false }
    .next (katResult (64 + n) (if !pass then 2 else if x.katRepeat then 1 else 0) s)

/-! Test mode (R360, R361). -/

/-- Code of a write of `test_mode_unlock` (R360). -/
def testUnlockCode (s : State) : Nat :=
  if s.dev.state = 2 ∨ s.dev.state = 8 then 0x1105 else if s.obj Obj.testModePermit = 1 then 0 else 0x1701

/-- The latch is unlocked: the line to the Pod is driven, and this second's TALLY is flagged (R361). -/
def unlockTest (s : State) : State :=
  if s.test.unlocked then s
  else
    let s := { s with
      test := { s.test with unlocked := true, since := s.beat }, pod := { s.pod with testLine := true }
      tallies := { s.tallies with tested := true } }
    countLog Obj.testModeUnlocks 0 0 0xFF 0 [] s

/-- TEST_MODE_EXPIRY: `test_mode_max_s` after the unlock (R360). -/
def execTestModeExpiry (s : State) : Out :=
  if s.test.unlocked ∧ s.test.since + s.obj Obj.testModeMaxS * 1000000000 ≤ s.beat then .next (lockTest s) else .next s

/-- `test_mode_remaining_s`: whole seconds until the latch relocks. -/
def testRemaining (s : State) : Nat :=
  if s.test.unlocked then (s.test.since + s.obj Obj.testModeMaxS * 1000000000 - s.beat) / 1000000000 else 0

/-! Fault injection on strings (R362, R363). -/

/-- Strings that inject. -/
def injecting (s : State) : Nat := (s.strings.filter (fun (p : Nat × Str) => p.2.inject.mode != 0)).length

/-- Code of a write of `sfi_apply` (R362). -/
def sfiApplyCode (s : State) : Nat :=
  let n := s.obj Obj.sfiString
  let mode := s.obj Obj.sfiMode
  if !s.test.unlocked then 0x1701
  else if isBus n ∧ 3 ≤ mode then 0x1205
  else if mode ≠ 0 ∧ (s.str n).inject.mode = 0 ∧ 64 ≤ injecting s then 0x1205 else 0

/-- `sfi_apply`: the selected string takes the configured fault; units count from here (R363). -/
def sfiApplyDo (s : State) : State :=
  let n := s.obj Obj.sfiString
  s.setStr n { s.str n with inject :=
    { mode := s.obj Obj.sfiMode, rate := s.obj Obj.sfiRateLog2, pattern := s.obj Obj.sfiPattern, burst := s.obj Obj.sfiBurstLen
      seed := BitVec.ofNat 32 (s.obj Obj.sfiSeed), classes := s.obj Obj.sfiClassMask, at_ := s.beat } }

/-- `fi_apply`: the same on the selected fabric port (R221). -/
def fiApplyDo (s : State) : State :=
  let p := s.obj Obj.fiPort
  s.setPort p { s.port p with inject :=
    { mode := s.obj Obj.fiMode, rate := s.obj Obj.fiRateLog2, pattern := s.obj Obj.fiPattern, burst := s.obj Obj.fiBurstLen
      seed := BitVec.ofNat 32 (s.obj Obj.fiSeed), classes := s.obj Obj.fiClassMask, at_ := s.beat } }

/-- `fi_stop_all`: injection stops on every string and every port (R362). -/
def stopInjection (s : State) : State :=
  { s with
    ports := s.ports.map (fun (p : Nat × FPort) => (p.1, { p.2 with inject := { p.2.inject with mode := 0 } }))
    strings := s.strings.map (fun (p : Nat × Str) => (p.1, { p.2 with inject := { p.2.inject with mode := 0 } })) }

/-! The Beagle (R364 to R367). -/

/-- TRACE_RECORD: a source makes a record of an enabled kind (R364, R366). -/
def execTraceRecord (site : SiteId) (unit : W16) (kind : Byte) (payload : Bytes) (s : State) : Out :=
  if kind.toNat = 0 ∨ 0x0C < kind.toNat then .next s else .next (traceMake site.val unit.toNat kind.toNat payload s)

/-- Capture starts as `beagle_enable` becomes 1, with the buffer size then configured, and stops as it becomes 0 (R367). -/
def beagleSwitch (on : Bool) (s : State) : State :=
  if on ∧ s.beagle.state = 0 then
    let s := { s with beagle := { s.beagle with state := 1, post := none, sizeMib := s.obj Obj.beagleBufferMib } }
    { s with beagle := { s.beagle with buffer := s.beagle.buffer.drop (s.beagle.buffer.length - traceBufferLen s) } }
  else if !on then { s with beagle := { s.beagle with state := 0, post := none } }
  else s

/-- Code of a write of `beagle_clear` (R367). -/
def beagleClearCode (s : State) : Nat := if s.beagle.state = 1 then 0x1105 else 0

/-- `beagle_clear` empties the buffer. -/
def beagleEmpty (s : State) : State := { s with beagle := { s.beagle with buffer := [] } }

/-! The error log (R368 to R370). -/

/-- `log_oldest`. -/
def logOldest (s : State) : Nat := ((s.log.entries.head?).map (·.seq)).getD 0

/-- `log_newest`. -/
def logNewest (s : State) : Nat := ((s.log.entries.getLast?).map (·.seq)).getD 0

/-- Code of a write of `log_sel` (R370). -/
def logSelCode (s : State) (v : Nat) : Nat := if v < logOldest s then 0x1202 else if logNewest s < v then 0x1203 else 0

/-- The selected entry, if it is still stored (R370). -/
def logSelected (s : State) : Option LogEntry := s.log.entries.find? (fun e => e.seq == s.obj Obj.logSel)

/-- `log_clear`: the log holds its own entry alone (R370). -/
def logEmpty (s : State) : State :=
  logWrite Obj.logClear 0 0 0xFF 0 0 [] { s with log := { s.log with entries := [] } }

/-- LOG_SUPPRESS_SUMMARY: the second whose entries were counted is over (R370). -/
def execLogSuppressSummary (s : State) : Out :=
  if s.log.secondNo < s.beat / 1000000000 then .next (closeSecond s) else .next s

end Sys2Proof.Machine
end

