-- ==== Sys2Proof/Machine/Boot.lean ====
section
/-! DEFINITION. Boot (R277, R285, R289, R359): BOOT_START does steps 2 to 4 and starts the loads of step 9, BOOT_COMPLETE steps 8,
10 and 11; what comes between has commands of its own. -/

namespace Sys2Proof.Machine

/-- The stored configuration is good: both copies valid, of the same generation (R285). -/
def configGood (c : CfgState) : Bool := c.copyA.status == 0 && c.copyB.status == 0 && c.copyA.gen == c.copyB.gen

/-- An object that takes written values, or the active side of an arbiter's shadow objects: it holds its default or its stored
value from a boot on (R277). -/
def bootObject (k : Nat) : Bool :=
  match objRow k with
  | some r => (decide (2 ≤ r.acc) && !r.flags.testBit 3) || r.key == Obj.arbDiePrioR || r.key == Obj.arbDramPrioR
      || r.key == Obj.arbHubPrioR || r.key == Obj.arbWaitLimitC
  | none => false

/-- Written values go back to their defaults (R277). -/
def dropWritten (s : State) : State :=
  { s with od := s.od.filter (fun (p : Nat × W64) => !bootObject p.1), odb := s.odb.filter (fun (p : Nat × Bytes) => !bootObject p.1) }

/-- A stored value, widened with its sign (R277). -/
def widen (ty : Nat) (b : Bytes) : Nat :=
  if signedType ty then wrapTo 64 (signedAt (8 * b.length) (leNat b)) else leNat b

/-- A stored value is in force. -/
def putValue (e : Entry) (s : State) : State :=
  if byteType e.ty.toNat then s.setObjB e.key e.data else s.setObj e.key (widen e.ty.toNat e.data)

/-- The node number that the configuration gives (R197). -/
def configNode (s : State) : W16 := BitVec.ofNat 16 (256 * s.obj Obj.podNumber + 16 * s.obj Obj.nodeY + s.obj Obj.nodeX)

/-- The window entries that the configuration holds, by index (R227). -/
def configWindows (s : State) : Tab (BitVec 256) :=
  (List.range 128).filterMap (fun i =>
    let b := s.objB (Obj.winEntryN + i)
    if b.any (· != 0) then some (i, BitVec.ofNat 256 (leNat b)) else none)

/-- Node, pod size, the Retriever's switch and the window table come from the configuration (R197, R227, R232). -/
def takeNode (s : State) : State :=
  let f : Fabric := { s.fabric with node := configNode s, width := s.obj Obj.podWidth, height := s.obj Obj.podHeight }
  let q : Retr := { s.retr with enabled := s.obj Obj.retrieverEnable == 1 }
  let m : Rmem := { s.rmem with table := configWindows s }
  { s with fabric := f, retr := q, rmem := m }

/-- A port that the configuration disables (R222). -/
def takePort (p : Nat) (s : State) : State :=
  if s.obj (Obj.portEnableP + p) = 0 then s.setPort p { s.port p with state := 5 } else s

/-- What the fabric, the Retriever, the Beagle and the time base take from the configuration at boot (R197, R222, R232, R258,
R367). -/
def takeConfig (s : State) : State :=
  let s := (List.range 16).foldl (fun s p => takePort p s) (takeNode s)
  let s := if s.obj Obj.beagleEnable = 1 ∧ s.beagle.state = 0 then beagleSwitch true s else s
  settleSources s

/-- The version a half starts: the newer of its NOR copies whose signature verifies (R289 step 2). -/
def norStart (l : List NorCopy) : Option W32 :=
  (l.filter (·.valid)).foldl (fun (o : Option W32) c => match o with
    | some v => some (if v < c.version then c.version else v)
    | none => some c.version) none

/-- The controller halves after their tests (R289 step 2, R294, R295). -/
def bootPair (firmware0 firmware1 : W32) (pass0 pass1 : Bool) (s : State) : State :=
  let differ := firmware0 != firmware1
  let active := if pass0 then 0 else 1
  let state := if pass0 ∧ pass1 then (if differ then 3 else 0) else simplexOn active
  let s := { s with
    pair := { s.pair with state, active, differ, recover := none, second := false, phase := 0, lastCycle := s.beat }
    dev := { s.dev with firmware := if active = 0 then firmware0 else firmware1 } }
  if state = 0 then s else logEvent Obj.pairState (if state = 3 then 1 else 3) 0 hubSite 0 [] s

/-- The configuration copies are classed and read; a good one is in force (R277, R285, R289 step 3). -/
def bootConfig (copy0 copy1 : Bytes) (s : State) : State :=
  let c := { s.config with copyA := readCopy copy0, copyB := readCopy copy1 }
  let good := configGood c
  let s := dropWritten { s with config := { c with
    staged := [], owner := none, subs := [], segs := [], seqs := [], notifies := [], gen := if good then c.copyA.gen else 0 } }
  if good then c.copyA.entries.foldl (fun s e => putValue e s) s else s

/-- Rails rise: dies reset, stacks train, cartridges in their slots warm up (R289 steps 4 and 5). What the DRAM objects say of the
last boot, or since boot, starts again (R187). -/
def bootRails (s : State) : State :=
  let mhz := s.obj Obj.mcClockMhz
  let s := (s.setObj Obj.dramTrainMode 0).setObj Obj.dramPagesPoisoned 0
  let s := { s with
    power := { s.power with rails := 127 }
    dies := (List.range 16).map (fun n => (n, { ({} : Die) with reset := some s.beat, clock := mhz }))
    dram := { s.dram with stackSt := (List.range 8).map (fun k => (k, 3)) }
    harps := s.harps.map (fun (p : Nat × Harp) => (p.1, if p.2.role = 0 then p.2 else { p.2 with role := 3, shutter := true }))
    images := { s.images with slots := [], order := [] }
    dev := { s.dev with started := true, heldAtBoot := false, marginRun := 0, bootBeat := s.beat } }
  (List.range 8).foldl (fun s d =>
    if (s.harp d).role = 0 then s.setDomain d { s.domain d with state := 5 } else s) s

/-- Every core and every Whippet runs its test; a unit that fails twice is isolated (R359). -/
def bootTests (fails : List Nat) (s : State) : State :=
  let s := s.count Obj.katRuns ((List.range 320).filter (fun u => !unitFused s u)).length
  (fails.filter (fun u => decide (u < 320) && !unitFused s u)).foldl (fun s u => isolateUnit u (s.count Obj.katFailures 1)) s

/-- The conditions of R288 that a boot starts with. -/
def bootReasons (s : State) : State :=
  let s := s.setObj Obj.stateReasons 0
  let s := setReason 0 (anyIsolated s) s
  let s := setReason 5 (s.pair.state != 0) s
  settleThermal (settleDram (settleHarp s))

/-- BOOT_START: steps 2 to 4 of a boot (R289): each half's NOR copies and test, the bytes that the configuration copies read back
as, and the units whose test failed twice. A half with no copy that verifies starts nothing, and fails. -/
def execBootStart (nor0 nor1 : List NorCopy) (pass0 pass1 : Bool) (copy0 copy1 : Bytes) (fails : List Nat) (s : State) : Out :=
  let ok0 := pass0 && (norStart nor0).isSome
  let ok1 := pass1 && (norStart nor1).isSome
  if s.dev.state ≠ 2 ∨ s.dev.started then .next s
  else if !ok0 ∧ !ok1 then .next (faultStop s)
  else
    let s := s.count Obj.bootCount 1
    let s := bootPair ((norStart nor0).getD 0) ((norStart nor1).getD 0) ok0 ok1 s
    let s := bootConfig copy0 copy1 { s with ens := {} }
    let s := s.setObj Obj.mapDigest (crc32c (mapBytes s))
    let s := bootReasons (bootTests fails (bootRails s))
    let s := takeConfig s
    .next (if configGood s.config then startBootLoads s else s)

/-- Nothing of steps 4 to 9 is still under way. -/
def bootQuiet (s : State) : Bool :=
  !s.images.slots.any (fun (p : Nat × ImgSlot) => p.2.state == 1) && !s.dies.any (fun (p : Nat × Die) => p.2.reset.isSome)
    && !s.dram.stackSt.any (fun (p : Nat × Nat) => p.2 == 3) && s.dev.marginRun == 0

/-- BOOT_COMPLETE: without a configuration in force the module is Held; an ensemble member runs the roll call in Held; else the
state of R287 follows (R285, R289 steps 8, 10 and 11, R301). -/
def execBootComplete (elapsedMs : W32) (s : State) : Out :=
  if s.dev.state ≠ 2 ∨ !s.dev.started ∨ !bootQuiet s then .next s
  else
    let s := s.setObj Obj.bootElapsedMs elapsedMs.toNat
    if s.config.gen = 0 then .next (enterState 3 { s with dev := { s.dev with heldAtBoot := true } })
    else if inEnsemble s then .next (startRollCall (enterState 3 s))
    else .next (goServe s)

/-- A commit that passes while boot was held: its generation is in force whole, and boot resumes at step 9 (R285, R287). -/
def resumeBoot (s : State) : State :=
  if s.dev.state = 3 ∧ s.dev.heldAtBoot then
    let s := s.config.copyA.entries.foldl (fun s e => putValue e s) s
    let s := enterState 2 { s with dev := { s.dev with heldAtBoot := false } }
    startBootLoads (wantClock (s.obj Obj.mcClockMhz) (takeConfig s))
  else s

/-- Code of a write of `config_restore` (R285, R305). -/
def configRestoreCode (s : State) (c : Nat) : Nat :=
  if s.dev.state ≠ 3 then 0x1105
  else if (if c = 0 then s.config.copyA else s.config.copyB).status = 0 then 0 else 0x1205

/-- `config_restore`: copy c is committed again, as a new generation (R285). -/
def restoreCopy (client c : Nat) (s : State) : State :=
  let l := (if c = 0 then s.config.copyA else s.config.copyB).entries
  let s := newGeneration [] l s
  let s := traceMake hubSite 0 0x08
    (leBytes 8 s.config.gen.toNat ++ leBytes 4 client ++ leBytes 4 l.length ++ leBytes 4 (entriesDigest l)) s
  if s.dev.heldAtBoot then resumeBoot s
  else l.foldl (fun s e => putValue e s) s

end Sys2Proof.Machine
end

