-- ==== Sys2Proof/Machine/Harp.lean ====
section
/-! DEFINITION. Harps, pegs and wavelength control (R150 to R175): cartridges, handovers, abrupt losses, peg loops and fret
checks, calibration turns and Sounding. -/

namespace Sys2Proof.Machine

/-! Domains and spares (R151, R160). -/

/-- Strings of a domain (R151). -/
def domainStrings (d : Nat) : List Nat := (List.range 1126).filter (fun n => n % 8 == d)

/-- Domain that a slot feeds. -/
def fedBy (s : State) (slot : Nat) : Option Nat := (List.range 8).find? (fun d => feedingSlot s d == some slot)

/-- Domain that has a slot as its handover's target. -/
def assignedTo (s : State) (slot : Nat) : Option Nat := (List.range 8).find? (fun d => (s.domain d).target == some slot)

/-- Selector input of a slot for a domain: 0 its own, 1 spare A, 2 spare B (R151). -/
def inputOf (slot : Nat) : Nat := if slot = 8 then 1 else if slot = 9 then 2 else 0

/-- A role in which the Zarel has commanded light (R150, R166). -/
def litRole (role : Nat) : Bool := role = 1 ∨ role = 3 ∨ role = 4 ∨ 7 ≤ role

/-- A cartridge takes a role, and its shutter follows (R150). -/
def setRole (slot role : Nat) (s : State) : State :=
  s.setHarp slot { s.harp slot with role, shutter := litRole role }

/-- A handover step is traced (R366 kind 0x0B). -/
def traceStep (d step : Nat) (s : State) : State := traceMake hubSite d 0x0B (leBytes 1 d ++ leBytes 1 step) s

/-- Assign a spare to a domain (R160): spare A before spare B, cold or ready, feeding and assigned to nobody, and not one that
failed in this handover. A cold one warms up; with none free the domain has no spare. -/
def requestSpare (d : Nat) (s : State) : State :=
  let x := s.domain d
  match [8, 9].find? (fun k =>
      ((s.harp k).role == 2 || (s.harp k).role == 4) && (fedBy s k).isNone && (assignedTo s k).isNone && !x.refused.contains k) with
  | some k =>
    let ready := (s.harp k).role = 4
    let s := setRole k (if ready then 4 else 3) s
    let s := s.setHarp k { s.harp k with led := 0 }
    settleHarp (traceStep d 1 (s.setDomain d { x with target := some k, state := if ready then 2 else 1, switched := false }))
  | none =>
    let s := s.setDomain d { x with target := none, state := 5 }
    settleHarp (logEvent (Obj.handoverStateD + d) 1 0 0xFF d [] s)

/-- A spare has become free: domains without one are served in ascending order (R160, R171). -/
def serveWaiting (s : State) : State :=
  (List.range 8).foldl (fun s d => if (s.domain d).state = 5 then requestSpare d s else s) s

/-- A handover of the domain is in progress (R161). -/
def handoverOn (s : State) (d : Nat) : Bool := let k := (s.domain d).state; 1 ≤ k && k ≤ 4

/-- The cartridge in a domain's own slot is ready to take over from the spare that feeds it (R167). -/
def startReturn (d : Nat) (s : State) : State :=
  let x := s.domain d
  if (s.harp d).role = 8 ∧ (x.source = 1 ∨ x.source = 2) ∧ !handoverOn s d then
    traceStep d 3 (s.setDomain d { x with target := some d, state := 4, switched := false })
  else s

/-- A slot's cartridge has changed: it counts as refused for no domain (R160). -/
def newCartridge (slot : Nat) (s : State) : State :=
  { s with domains := s.domains.map (fun (p : Nat × Domain) => (p.1, { p.2 with refused := p.2.refused.filter (· != slot) })) }

/-- HARP_INSERT: a cartridge enters an empty slot, is identified and warms up (R166); its shutter stays closed while the Zarel's
supplies are off (R150). -/
def execHarpInsert (slot : HarpSlot) (serial : W64) (hours : W32) (s : State) : Out :=
  if (s.harp slot).role ≠ 0 then .next s
  else
    let s := newCartridge slot (s.setHarp slot { role := 3, serial, hours, latch := true, shutter := s.dev.started })
    .next (if s.powered then s.count Obj.harpInsertions 1 else s)

/-- The test of R166 step 3. -/
def harpPasses (lines : List HarpLine) : Bool :=
  let ps := lines.map (·.power)
  lines.length == 17 && lines.all (fun l => 2050 ≤ l.power && l.power ≤ 2250 && l.toneOk && -200 ≤ l.offset && l.offset ≤ 200)
    && listMax 0 ps - listMin 0 ps ≤ 100

/-- A cartridge has failed (R153, R160, R166): dark, its LED red. -/
def harpFails (slot code : Nat) (s : State) : State :=
  logEvent Obj.harpRole 0 code 0xFF slot [] (s.setHarp slot { s.harp slot with role := 6, led := 2, shutter := false })

/-- Code of a failed test: 0x1802 where the comb is not within 2 GHz of the grid (R153). -/
def testCode (lines : List HarpLine) : Nat := if lines.any (fun l => l.offset < -200 || 200 < l.offset) then 0x1802 else 0

/-- HARP_TEST_DONE: the cartridge takes its role from its slot and its domain, or is failed (R153, R166, R167). The rings of a
domain that it lights begin to acquire with their next samples (R154). -/
def execHarpTestDone (slot : HarpSlot) (lines : List HarpLine) (s : State) : Out :=
  let h := s.harp slot
  let k := slot.val
  if !(h.role = 3 ∨ h.role = 7) ∨ (assignedTo s k).isSome then .next s
  else
    let s := s.setHarp k { h with power := lines.map (·.power), offset := lines.map (·.offset) }
    if !harpPasses lines then
      let s := harpFails k (testCode lines) s
      .next (if k < 8 ∧ (s.domain k).source = 3 ∧ !handoverOn s k then requestSpare k s else s)
    else if 8 ≤ k then .next (serveWaiting (setRole k 2 s))
    else
      let x := s.domain k
      if x.source = 3 then
        let s := setRole k 1 s
        let s := match x.target with
          | some t => setRole t 2 s
          | none => s
        .next (serveWaiting (settleHarp (s.setDomain k { x with source := 0, state := 0, target := none, lost := false })))
      else .next (startReturn k (setRole k 8 s))

/-! Abrupt losses (R164). -/

/-- Lines of a domain's strings go dark: the lanes on them fail at once; a string that loses too many retrains. -/
def darken (d : Nat) (lines : List Nat) (s : State) : State :=
  let ns := (s.strings.filter (fun (p : Nat × Str) => p.1 % 8 == d && !isBus p.1 && p.2.state ≤ 2)).map (fun (p : Nat × Str) => p.1)
  ns.foldl (fun s n =>
    if 4 < lines.length then retrain n s
    else lines.foldl (fun s l => if (tget {} l (s.str n).lanes).usable then dropLine n l true s else s) s) s

/-- Peg loops of some lines of a domain's strings change together. -/
def linePegs (d : Nat) (lines : List Nat) (f : Peg → Peg) (s : State) : State :=
  { s with strings := s.strings.map (fun (p : Nat × Str) =>
    if p.1 % 8 = d then
      (p.1, { p.2 with pegs := p.2.pegs.map (fun (q : Nat × Peg) => (q.1, if lines.contains (q.1 / 8) then f q.2 else q.2)) })
    else p) }

/-- Peg loops of a domain's strings change together. -/
def domainPegs (d : Nat) (f : Peg → Peg) (s : State) : State := linePegs d (List.range 17) f s

/-- An abrupt loss (R164): counted, the loops of the lines freeze (R154), the lanes fail, the module is Degraded, and a spare takes over as soon as it is ready. A
handover already in progress goes on with its spare (R171). -/
def abruptLoss (d : Nat) (lines : List Nat) (s : State) : State :=
  let x := s.domain d
  let s := s.setDomain d { x with abrupt := true, lost := true }
  let s := countLog Obj.harpAbruptLosses 1 0 0xFF d [] s
  let s := linePegs d lines (fun p => { p with frozen := true }) (darken d lines s)
  let s := settleHarp s
  if handoverOn s d then s else requestSpare d s

/-- CARTRIDGE_REMOVED: taking out a cartridge that feeds a domain is an abrupt loss; a spare taken out while assigned is
replaced (R165). -/
def execCartridgeRemoved (slot : HarpSlot) (s : State) : Out :=
  let k := slot.val
  if (s.harp k).role = 0 then .next s
  else
    let fed := fedBy s k
    let for_ := assignedTo s k
    let s := newCartridge k (s.setHarp k {})
    let s := match for_ with
      | some d => if (s.domain d).state = 3 then s else requestSpare d (s.setDomain d { s.domain d with target := none })
      | none => s
    match fed with
    | some d => .next (abruptLoss d (List.range 17) (s.setDomain d { s.domain d with source := 3 }))
    | none => .next s

/-! Fade tracking (R158, R159). -/

/-- Thresholds on D: warning, request, force, failing, 0.01 dB (R158). -/
def domainThresholds (s : State) : List Int :=
  [s.objI Obj.handoverWarnMargin, s.objI Obj.handoverRequestMargin, s.objI Obj.handoverForceMargin, 0]

/-- Thresholds in force after a new D: crossed at or below, cleared 0.20 dB above. -/
def crossings (ths : List Int) (old : List Bool) (d : Int) : List Bool :=
  (List.range 4).map (fun i => let t := ths.getD i 0; d ≤ t || (old.getD i false && d < t + 20))

/-- HARP_MONITOR_SAMPLE: line powers of a cartridge. For the one that feeds a domain, the falls and the margin D follow, and
the thresholds act: warning, handover request, forced handover, domain failing; a line that falls more than 3 dB is an abrupt
loss (R158, R160, R163, R164). One that warms up is under test once every line is at the level of R150 (DEDUCED, log entry 99). -/
def execHarpMonitorSample (slot : HarpSlot) (power : List Int) (s : State) : Out :=
  let h := s.harp slot
  if h.role = 0 ∨ power.length ≠ 17 then .next s
  else
    let level : Bool := h.role = 3 && power.all (fun p => 2100 ≤ p && p ≤ 2200)
    let s := s.setHarp slot { h with power, role := if level then 7 else h.role }
    match fedBy s slot with
    | none => .next s
    | some d =>
      let x := s.domain d
      let fall := (List.range 17).map (fun l => x.ref.getD l 0 - power.getD l 0)
      let dm := listMin 800 ((List.range 17).map (fun l => x.base.getD l 800 - fall.getD l 0))
      let ths := domainThresholds s
      let now := if x.base.isEmpty then x.crossed else crossings ths x.crossed dm
      let new (i : Nat) : Bool := now.getD i false && !x.crossed.getD i false
      let lost := (List.range 17).filter (fun l => h.power.getD l 0 - power.getD l 0 > 300)
      let s := s.setDomain d { x with
        fall, margin := dm, crossed := now, hourSum := x.hourSum + listMax 0 fall, hourN := x.hourN + 1
        forced := x.forced || now.getD 2 false }
      let s := if new 0 then logEvent (Obj.domainMarginD + d) 1 0 0xFF d (leBytes 2 (wrapTo 16 dm)) s else s
      let s := if now.getD 1 false ∧ !handoverOn s d ∧ (s.domain d).state ≠ 5 then requestSpare d s else s
      let s := if new 3 then logEvent (Obj.handoverStateD + d) 1 0 0xFF d [] s else s
      let s := settleHarp s
      .next (if lost.isEmpty then s else abruptLoss d lost s)

/-- Least squares of samples against their hour, newest first: the slope as a quotient (R159). -/
def fadeSlope (samples : List Int) : Int × Int :=
  let ys := samples.reverse
  let n : Int := ys.length
  let sx : Int := n * (n - 1) / 2
  let sxx : Int := (n - 1) * n * (2 * n - 1) / 6
  let sy := ys.foldl (· + ·) 0
  let sxy := (List.range ys.length).foldl (fun (a : Int) i => a + i * ys.getD i 0) 0
  (n * sxy - sx * sy, n * sxx - sx * sx)

/-- `domain_fade_d`: the fitted slope in mdB per day, from 10⁻⁶ dB per hour (R159). -/
def fadeRate (x : Domain) : Int :=
  let (a, b) := fadeSlope x.samples
  if b = 0 then 0 else Int.tdiv (24 * a) (1000 * b)

/-- `domain_time_to_handover_d`: hours until D reaches 1.50 dB at the slope, or 0xFFFF_FFFF (R159). -/
def fadeHours (x : Domain) : Nat :=
  let (a, b) := fadeSlope x.samples
  if 24 ≤ x.samples.length ∧ 1000 * b ≤ 48 * a ∧ 150 < x.margin ∧ 0 < a then min 0xFFFFFFFE ((x.margin - 150) * 10000 * b / a).toNat
  else 0xFFFFFFFF

/-- FADE_FIT: the hour's mean of the largest fall is kept, and the last 168 are fitted (R159). -/
def execFadeFit (d : DomainId) (s : State) : Out :=
  let x := s.domain d
  if x.hourN = 0 then .next s
  else .next (s.setDomain d { x with samples := (Int.tdiv (10000 * x.hourSum) x.hourN :: x.samples).take 168, hourSum := 0, hourN := 0 })

/-! Handovers (R160 to R164, R167). -/

/-- SPARE_READY: the assigned spare is warm, locked and tested at its selector input: the launch hold begins; a spare that fails the
test of R166 is replaced by the other (R153, R160, R161 steps 2 and 3). -/
def execSpareReady (slot : HarpSlot) (lines : List HarpLine) (s : State) : Out :=
  match assignedTo s slot with
  | none => .next s
  | some d =>
    let x := s.domain d
    let h := s.harp slot
    if x.state ≠ 1 ∨ !(h.role = 3 ∨ h.role = 7) then .next s
    else
      let s := s.setHarp slot { h with power := lines.map (·.power), offset := lines.map (·.offset) }
      if harpPasses lines then .next (traceStep d 3 ((setRole slot 4 s).setDomain d { x with state := 2 }))
      else
        .next (requestSpare d ((harpFails slot (testCode lines) s).setDomain d { x with target := none, refused := x.refused ++ [slot.val] }))

/-- A window touches a domain: it uses one of its strings or the reverse of one (R161). -/
def touches (s : State) (w : Win) (d : Nat) : Bool := (windowStrings w.reserve w.kernels w.barriers).any (fun n =>
  inDomain d n || (carrying s n).any (inDomain d))

/-- Step 4 of R161 can begin for a domain: a ready target and no window, or a forced handover. -/
def holdReady (s : State) (d : Nat) : Bool :=
  let x := s.domain d
  (x.state == 2 || x.state == 4) && !x.lost && (x.forced || !s.wins.any (fun w => touches s w d))

/-- A running Sounding ends without result, and its string trains (R174). -/
def abortSounding (s : State) : State :=
  if s.sounding.state = 1 then
    let n := s.sounding.string
    startTraining n { s with sounding := { s.sounding with state := 3 } }
  else s

/-- CREDIT_HOLD_START: the credit hold of the domain's strings starts; one hold at a time, in ascending domain number (R161
step 4, R162, R163). Calibration turns in the domain are abandoned and a Sounding on one of its strings is aborted (R171,
R174). -/
def execCreditHoldStart (d : DomainId) (s : State) : Out :=
  if !holdReady s d ∨ (List.range 8).any (fun e => (s.domain e).state == 3 || (e < d.val && holdReady s e)) then .next s
  else
    let s := if s.sounding.state = 1 ∧ stringDomain s.sounding.string = d.val then abortSounding s else s
    let s := (domainStrings d).foldl (fun s n => s.setStr n { s.str n with held := true, turn := none, rotate := none }) s
    let x := s.domain d
    .next (traceStep d 4 (s.setDomain d { x with state := 3, holdBeat := s.beat, switched := false, from_ := x.source }))

/-- The source that a domain leaves takes its next role: retired with its LED green (R161 step 10), a spare cold again after a
return (R167), failed after an abrupt loss. -/
def leaveSource (old d : Nat) (failed : Bool) (s : State) : State :=
  let slot := if old = 0 then d else 7 + old
  if old = 3 ∨ (s.harp slot).role = 0 then s
  else if failed then s.setHarp slot { s.harp slot with role := 6, led := 2, shutter := false }
  else if (s.domain d).source = 0 then setRole slot 2 s
  else s.setHarp slot { s.harp slot with role := 5, led := 1, shutter := false }

/-- A domain is fed from its new source for good: roles, reference point, thresholds as the new D leaves them (R158), failed rings of
lines mapped out to be checked anew (R164), and the spare that is free again. -/
def handoverDone (d : Nat) (failed : Bool) (s : State) : State :=
  let x := s.domain d
  let s := match x.target with
    | some t => let s := setRole t 1 s; s.setHarp t { s.harp t with led := 0 }
    | none => s
  let s := leaveSource x.from_ d failed s
  let s := domainPegs d (fun p => if p.state = 5 then { p with state := 1, cold := true, steps := 0 } else p) s
  let s := setReference d (s.setDomain d { x with
    state := 0, target := none, forced := false, switched := false, lost := false, refused := [] })
  let y := s.domain d
  let s := s.setDomain d { y with crossed := crossings (domainThresholds s) y.crossed y.margin }
  serveWaiting (startReturn d (settleHarp s))

/-- SELECTOR_SWITCH: at H + 1 µs the loops freeze and the selector switches, and every ring that was locked is to pass a fret check
(R156, R161 step 5). After an abrupt loss it switches as soon as the spare is ready, with no hold; the light is away for longer
than a string keeps its lock, so every string of the domain retrains (R143, R151, R164). -/
def execSelectorSwitch (d : DomainId) (s : State) : Out :=
  let x := s.domain d
  let input := (x.target.map inputOf).getD 3
  if x.lost ∧ (x.state = 2 ∨ x.state = 4) then
    let s := domainPegs d (fun p => { p with frozen := false }) (s.setDomain d { x with from_ := x.source, source := input })
    let live := (domainStrings d).filter (fun n => !isBus n && decide ((s.str n).state ≤ 2))
    let s := live.foldl (fun s n => retrain n s) s
    let s := ((domainStrings d).filter isBus).foldl (fun s n => s.setStr n (recheckRings (s.str n))) s
    .next (settleAbrupt (handoverDone d true (traceStep d 5 s)))
  else if x.state = 3 ∧ !x.switched ∧ x.holdBeat + 1000 ≤ s.beat then
    let s := domainPegs d (fun p => { p with frozen := true, state := if p.state = 3 then 2 else p.state }) s
    .next (traceStep d 5 (s.setDomain d { x with source := input, switched := true }))
  else .next s

/-- No ring of the domain is still in its fret check (R156, R161 step 8). -/
def checksOver (s : State) (d : Nat) : Bool :=
  s.strings.all (fun (p : Nat × Str) => p.1 % 8 != d || p.2.pegs.all (fun (q : Nat × Peg) => q.2.state != 2))

/-- A held string is released: its timers restart and what is unacknowledged is sent again (R161 step 9, R135). -/
def releaseHold (n : Nat) (s : State) : State :=
  let t := s.str n
  s.setStr n { t with held := false, resend := t.unacked, unacked := t.unacked.map (fun x => (x.1, { x.2 with sent := s.beat })) }

/-- HANDOVER_RELEASE: relock and every fret check are over within the limit, failures handled under R157: credits are released, the old source retired, and a
reference point set (R161 steps 9 and 10). -/
def execHandoverRelease (d : DomainId) (s : State) : Out :=
  let x := s.domain d
  if x.state ≠ 3 ∨ !x.switched ∨ !checksOver s d ∨ x.holdBeat + 1000 * s.obj Obj.handoverHoldLimitUs < s.beat then .next s
  else
    let s := (domainStrings d).foldl (fun s n => if (s.str n).held then releaseHold n s else s) s
    let s := domainPegs d (fun p => { p with frozen := false }) s
    let s := s.count (if x.forced then Obj.handoversForced else Obj.handoversPlanned) 1
    .next (handoverDone d x.lost (traceStep d 10 s))

/-- HOLD_LIMIT_EXPIRY: the handover has not finished in time: the selector goes back to the old source, the held strings
retrain on its light, the spare is failed and the other is assigned (R164). -/
def execHoldLimitExpiry (d : DomainId) (s : State) : Out :=
  let x := s.domain d
  if x.state ≠ 3 ∨ s.beat < x.holdBeat + 1000 * s.obj Obj.handoverHoldLimitUs then .next s
  else
    let s := countLog Obj.handoverFallbacks 2 0 0xFF d.val [] s
    let s := domainPegs d (fun p => { p with frozen := false }) s
    let s := (domainStrings d).foldl (fun s n =>
      let s := s.setStr n { s.str n with held := false }
      if (s.str n).state ≤ 2 ∧ !isBus n then
        let s := retrain n s
        s.setStr n { s.str n with frozenAt := some x.holdBeat, resetAt := some x.holdBeat }
      else s) s
    let s := match x.target with
      | some t => if (s.harp t).role = 0 then s else harpFails t 0 s
      | none => s
    .next (requestSpare d (s.setDomain d { x with
      source := x.from_, target := none, switched := false, refused := x.refused ++ x.target.toList }))

/-! Peg loops (R154 to R157). -/

/-- Detuning at which a ring counts as held, and at which it alarms, 0.1 GHz (R154, R155). -/
def pegHeld : Nat := 20
def pegLimit : Nat := 80

/-- Receivers of a bus in order of distance, or the one of a point-to-point string (R141, R175). -/
def ringTaps (n : Nat) : List Nat :=
  let (o, d) := stringEnds n
  if !isBus n then [d]
  else
    let dist (a : Nat) : Nat := if n < 1101 then (max a o - min a o) else (max a o - min a o) / 5
    let taps := (List.range 25).filter (busTap n)
    [1, 2, 3, 4].flatMap (fun k => taps.filter (fun a => dist a == k))

/-- Site of a ring: the modulator at the source, drop ring r at the r-th receiver (R175). -/
def ringSite (n ring : Nat) : Nat := if ring = 0 then (stringEnds n).1 else (ringTaps n).getD (ring - 1) 0

/-- Powers of neighbouring sites that the latest records of kind 0x02 at a site report, by site (R141, R154). -/
def neighbourPower (s : State) (site : Nat) : List (Nat × Nat) :=
  (s.bus.filter (fun (p : Nat × BusRec) => p.1 / 4096 == site && p.1 % 64 == 2)).map (fun (p : Nat × BusRec) =>
    (p.1 / 64 % 64, leAt p.2.payload 3 2))

/-- PEG_SAMPLE: the loop's monitor and heater at 1 MHz, with the feed-forward of the neighbours' power added (R154; how many codes
it is, is a free value). A loop whose domain is lit starts to sweep from IDLE, and a failed one of a string that is being
checked sweeps again; one that is on a resonance goes on to its fret check (R154, R157 step 3). Two samples beyond 8 GHz in
LOCKED raise a peg alarm (R155). A loop frozen for want of light keeps its code until the light is back, after a switch within
41 µs of H (R154, R161). -/
def execPegSample (n : StringId) (line : LineId) (ring : Fin 5) (detuning : Int) (heater : W16) (s : State) : Out :=
  let t := s.str n
  let p := t.peg line ring
  let d := s.domain (stringDomain n)
  let light : Bool := d.state == 3 && d.switched && decide (d.holdBeat + 41000 ≤ s.beat)
  if (p.frozen ∧ !light) ∨ (p.state = 5 ∧ t.state ≤ 2) ∨ ringCount n ≤ ring.val then .next s
  else
    let forward := Sys2Proof.Config.pegForward (neighbourPower s (ringSite n ring))
    let p := { p with detuning, heater := heater + BitVec.ofInt 16 forward, frozen := false }
    let p := if (p.state = 0 ∧ lit s n) ∨ p.state = 5 then { p with state := 1, cold := true, steps := 0 } else p
    if p.state = 3 then
      if pegLimit < detuning.natAbs then
        if 1 ≤ p.beyond ∧ !t.held then .next (pegAlarm n line ring (setPeg n line ring p s))
        else .next (setPeg n line ring { p with beyond := p.beyond + 1 } s)
      else .next (setPeg n line ring { p with beyond := 0 } s)
    else if (p.state = 1 ∨ p.state = 4) ∧ detuning.natAbs ≤ pegHeld then .next (setPeg n line ring { p with state := 2 } s)
    else .next (setPeg n line ring p s)

/-! Correction sets (R169). -/

/-- Temperatures of the correction sets, 0.1 °C (R169). -/
def calTemps : List Int := [300, 500, 700, 850, 1000]

/-- Sets that bracket a temperature: two neighbours, or an end set twice. -/
def calBracket (T : Int) : Nat × Nat :=
  if T ≤ 300 then (0, 0) else if 1000 ≤ T then (4, 4)
  else if T < 500 then (0, 1) else if T < 700 then (1, 2) else if T < 850 then (2, 3) else (3, 4)

/-- Linear interpolation of one quantity, rounded down (R169). -/
def calValue (sets : List Int) (T : Int) : Int :=
  let (i, j) := calBracket T
  let a := sets.getD i 0
  let b := sets.getD j 0
  let ta := calTemps.getD i 0
  let tb := calTemps.getD j 0
  if i = j then a else a + (b - a) * (T - ta) / (tb - ta)

/-- Receiving sets of a drop ring. -/
def Lane.rxSets (l : Lane) (ring : Nat) : List (Int × Int × Int) := tget (List.replicate 5 (0, 0, 0)) ring l.cal

/-- Set point of a ring at its tile's present temperature: the bias of a modulator ring, the offset of a drop ring (R154, R169). -/
def ringSet (s : State) (n line ring : Nat) : Int :=
  let l := tget {} line (s.str n).lanes
  let T := tileTemp s (ringSite n ring)
  if ring = 0 then calValue l.bias T else calValue ((l.rxSets ring).map (fun x => x.1)) T

/-- The error of a quantity is added to the bracketing sets (R170). -/
def addError (sets : List Int) (T measured : Int) : List Int :=
  let (i, j) := calBracket T
  let e := measured - calValue sets T
  (List.range 5).map (fun k => sets.getD k 0 + (if k = i ∨ k = j then e else 0))

/-- The measurement of a turn is added to the sets of its line, each end at its own tile's temperature (R169, R170). -/
def calApply (s : State) (n : Nat) (l : Lane) (m : CalMeas) : Lane :=
  let tx := tileTemp s (stringEnds n).1
  let rx := tileTemp s (stringEnds n).2
  let r := l.rxSets 1
  let a := addError (r.map (fun x => x.1)) rx m.drop
  let b := addError (r.map (fun x => x.2.1)) rx m.thresh
  let c := addError (r.map (fun x => x.2.2)) rx m.deskew
  { l with
    bias := addError l.bias tx m.bias, calTx := tx, calRx := rx, refusals := 0
    cal := tset 1 ((List.range 5).map (fun k => (a.getD k 0, b.getD k 0, c.getD k 0))) l.cal }

/-- The lane on the next usable line after the spare, ascending modulo 17, moves onto it (R168 step 3). -/
def rotateMap (map : List Nat) (spare : Nat) : List Nat :=
  match ((List.range 16).map (fun i => (spare + 1 + i) % 17)).find? (fun l => (map.take 16).contains l) with
  | none => map
  | some l => lset 16 l (map.map (fun x => if x = l then spare else x))

/-- What a fret check finds (R156): `none` a pass, `some 0xFF` dark, `some l` the wrong line l. Levels are in 0.01 dB. -/
def fretResult (line : Nat) (expected : Int) (tones : List Int) : Option Nat :=
  let own := tones.getD line (-100000)
  let others := (List.range 17).filter (· != line)
  let best := others.foldl (fun b l => if tones.getD b (-100000) < tones.getD l (-100000) then l else b) (if line = 0 then 1 else 0)
  let top := tones.getD best (-100000)
  if top + 600 ≤ own ∧ expected - 600 ≤ own ∧ own ≤ expected + 300 then none
  else if max own top < expected - 600 then some 0xFF
  else some best

/-- Every ring of a line has passed: a lane moves onto a line just calibrated (R168 step 3), and a line that had been mapped out
returns if it met the lane minimum when last measured (R142, R157 step 5). -/
def lineLocked (n line ring : Nat) (s : State) : State :=
  let t := s.str n
  let l := tget {} line t.lanes
  if !ringsLocked s n line then s
  else if t.rotate = some line then announceMap n (rotateMap t.map line) false (s.setStr n { t with rotate := none })
  else if (t.state ≤ 2 ∨ isBus n) ∧ !l.usable ∧ 100 ≤ l.margin ∧ 20 ≤ l.eye then returnLine n line (ring != 0) s
  else s

/-- FRET_CHECK_DONE: a pass locks the ring with the calibration values for the present temperature (R157 step 5). A wrong line is
counted: a loop that sweeps from cold goes on to the next resonance (R154), another steps one spacing toward its own line, four
times at most. A dark ring is failed and its line mapped out (R156, R157). -/
def execFretCheckDone (n : StringId) (line : LineId) (ring : Fin 5) (expected : Int) (tones : List Int) (s : State) : Out :=
  let p := (s.str n).peg line ring
  if p.state ≠ 2 ∨ ringCount n ≤ ring.val then .next s
  else
    let drop (s : State) : State :=
      let s := s.setStr n { s.str n with rotate := if (s.str n).rotate = some line.val then none else (s.str n).rotate }
      if (tget {} line.val (s.str n).lanes).usable then dropLine n line (ring.val != 0) s else s
    match fretResult line expected tones with
    | none =>
      .next (lineLocked n line ring (setPeg n line ring { p with
        state := 3, fret := line.val, steps := 0, toward := 0, beyond := 0, cold := false, setPoint := ringSet s n line ring } s))
    | some 0xFF =>
      let s := setPeg n line ring { p with state := 5, fret := 0xFF } s
      .next (drop (countLog Obj.fretFailures 1 0 (stringEnds n).2 n.val (leBytes 1 line.val) s))
    | some l =>
      let s := s.count Obj.fretFailures 1
      if p.cold then .next (drop (setPeg n line ring { p with state := 1, fret := l } s))
      else
        let s := countLog Obj.wrongLineLocks 1 0 (stringEnds n).2 n.val (leBytes 1 line.val ++ leBytes 1 l) s
        let s := setPeg n line ring { p with
          state := if p.steps = 4 then 5 else 2, steps := min (p.steps + 1) 4, fret := l
          toward := if p.steps = 4 then p.toward else p.toward + (if l < line.val then 1 else -1) } s
        .next (drop s)

/-! Calibration turns (R168 to R171). -/

/-- CAL_TURN_START: a turn on a line, the spare of a FULL string, by interval, or by the temperature of either end's tile (R168); none while a
handover of its domain is on or a map is on its way (R171). -/
def execCalTurnStart (n : StringId) (line : LineId) (s : State) : Out :=
  let t := s.str n
  let l := tget {} line.val t.lanes
  let moved (site : Nat) (was : Int) : Bool := decide (10 * s.obj Obj.calTempTriggerC < (tileTemp s site - was).natAbs)
  let due : Bool := decide (t.turnBeat + 1000000000 * s.obj Obj.calTurnIntervalS ≤ s.beat) || moved (stringEnds n).1 l.calTx
    || moved (stringEnds n).2 l.calRx
  if s.obj Obj.calEnable = 1 ∧ !isBus n ∧ t.state = 0 ∧ t.turn.isNone ∧ t.rotate.isNone ∧ t.newMap.isNone ∧ t.map.getD 16 0x1F = line.val
      ∧ (s.domain (stringDomain n)).state = 0 ∧ due then
    .next (s.setStr n { t with turn := some line.val, turnBeat := s.beat })
  else .next s

/-- CAL_TURN_DONE: two measurements that agree are applied together, and the spare rotates once the line's rings have passed their
fret checks (R156); otherwise nothing changes, and the third refusal in succession maps the line out (R168, R170). -/
def execCalTurnDone (n : StringId) (first repeated : CalMeas) (s : State) : Out :=
  let t := s.str n
  match t.turn with
  | none => .next s
  | some line =>
    let l := tget {} line t.lanes
    let agree := (first.margin - repeated.margin).natAbs ≤ s.obj Obj.calTolMargin ∧ (first.eye - repeated.eye).natAbs ≤ s.obj Obj.calTolEye
    if agree then
      let s := s.setStr n { t with turn := none, rotate := some line, lanes := tset line (calApply s n l first) t.lanes }
      let check (r : Nat) (s : State) : State :=
        setPeg n line r { (s.str n).peg line r with state := 2, setPoint := ringSet s n line r } s
      .next (check 1 (check 0 (s.count Obj.calAccepted 1)))
    else
      let s := s.setStr n { t with turn := none, lanes := tset line { l with refusals := l.refusals + 1 } t.lanes }
      let s := countLog Obj.calRefused 0 0x1801 (stringEnds n).1 n.val (leBytes 1 line) s
      .next (if s.obj Obj.calRefusalLimit ≤ l.refusals + 1 then dropLine n line false s else s)

/-! Sounding (R173, R174). -/

/-- SOUNDING_DONE: the run's points are kept and the string returns through training (R173). -/
def execSoundingDone (powers : List Int) (s : State) : Out :=
  if s.sounding.state ≠ 1 then .next s
  else
    let n := 17 * (s.sounding.half + 1)
    let s := { s with sounding := { s.sounding with state := 2, points := powers.take n } }
    let s := (s.setObj Obj.soundingPoints n).count Obj.soundingRuns 1
    .next (startTraining s.sounding.string s)

end Sys2Proof.Machine
end

