-- ==== Sys2Proof/Machine/Deliver.lean ====
section
/-! DEFINITION. What an accepted frame does at its destination site or at a relay (R14, R130, R131, R136 to R138, R145, R205,
R206). -/

namespace Sys2Proof.Machine

/-- A data frame with an op arrives on string n and is accepted (R129, R135). -/
def acceptData (n op : Nat) (f : Frame) (s : State) : Option Frame × State := receive n op f s

/-- On the second leg of a relay, a window and the slots that it reserves on the OUT string (R146), for a frame from a site where
it has a participant. -/
def relaySlots (s : State) (h : BitVec 96) : Option (Nat × W16) :=
  let n := pickString (hSrc h) (hDest h) (hUnit h)
  let mask (w : Win) : Nat := w.reserve.foldl (fun m e =>
    if fieldAt e 0 8 = 0 ∧ fieldAt e 8 16 = n then m ||| fieldAt e 24 16 else m) 0
  let here (w : Win) : Bool := (bitList 64 w.parts.toNat).any (fun c => dieSite (coreDie c) == hSrc h)
  if hOp h = opWRITE ∨ hOp h = opRPART then
    (s.wins.find? (fun w => 1 ≤ w.phase && mask w != 0 && here w)).map (fun w => (w.id, BitVec.ofNat 16 (mask w)))
  else none

/-- A relay forwards a frame into the same class of its second leg, each class from its own queue (R145). -/
def forwardFrame (site : Nat) (f : Frame) (s : State) : State :=
  let n := primaryString site (hDest f.hdr)
  let w := relaySlots s f.hdr
  let t : TxFrame := { hdr := withLink f.hdr 0 0 0 0 0, payload := fitBytes 64 f.payload, slots := w.map (·.2), win := w.map (·.1) }
  let s := s.count Obj.relayedFrames 1
  if 3 ≤ (s.str n).state ∧ (s.str n).state ≤ 5 then frameLost t s else enqueueFrame n t s

/-- An accepted frame is discarded at an unassigned destination, forwarded at a relay, or handed on at its own site, and its
receive buffer is freed (R14, R133, R145). `here` takes the site. -/
def deliverFrame (n op : Nat) (f : Frame) (here : Nat → Frame → State → State) (free : Bool) (s : State) : State :=
  match acceptData n op f s with
  | (none, s) => s
  | (some f, s) =>
    let h := f.hdr
    let site := (stringEnds n).2
    if 29 ≤ hDest h then freeCredit n (rxBuffer n h) (s.count Obj.unassignedSiteDiscards 1)
    else if hDest h ≠ site then
      freeCredit n (rxBuffer n h) (if hRelay h then forwardFrame site f s else s.count Obj.refusedAddresses 1)
    else
      let s := here site f s
      if free then freeCredit n (rxBuffer n h) s else s

/-- Bytes of a frame: those its offset and length name, within the 64-byte unit (R129). -/
def frameData (f : Frame) : Bytes := ((fitBytes 64 f.payload).drop (hOffset f.hdr)).take (hLength f.hdr + 1)

/-- First byte address of a frame. -/
def frameAddr (f : Frame) : Nat := 64 * hUnit f.hdr + hOffset f.hdr

/-- An open window has a participant on a die. -/
def winOn (w : Win) (d : Nat) : Bool := w.phase == 2 && (bitList 64 w.parts.toNat).any (fun c => coreDie c == d)

/-- A write that belongs to a window: open windows with a participant at the source site note what they have written (R76). -/
def noteWrite (src key len : Nat) (s : State) : State :=
  match siteDie src with
  | none => s
  | some d => { s with wins := s.wins.map (fun (w : Win) => if winOn w d then { w with wrote := w.wrote ++ [(key, len)] } else w) }

/-- An inbound write may use the slots of an open window: one on the target die of which the frame's source site holds a
participant (R140). -/
def windowRoute (s : State) (die src : Nat) : Bool :=
  match siteDie src with
  | none => false
  | some d => s.wins.any (fun w => winOn w die && winOn w d)

/-- An inbound write reaches its die's memory (R119, R131): core SRAM, die-shared SRAM, a locked partition, or, where the die still
owns the page, a DRAM home address through its cache. Its credit is freed, and flags that waited for it go on. -/
def landInbound (d : Nat) (w : InWrite) (s : State) : State :=
  let site := dieSite d
  if w.string = 1126 then landSum d w.buf (memKey site w.addr) w.data s
  else
    let s :=
      if dramHomeBase ≤ w.addr then
        (if ownsPages s d (w.addr - dramHomeBase) w.data.length then homeStore 3 d (w.addr - dramHomeBase) w.data s
         else s.count Obj.refusedAddresses 1)
      else noteWrite w.src (memKey site w.addr) w.data.length (landWrite d (memKey site w.addr) w.data s)
    settleFlags d (fun _ => false) (fun n => n == w.n) (freeIn w s)

/-- An inbound write leaves a die's queue and lands. -/
def takeInbound (d : Nat) (w : InWrite) (s : State) : State :=
  landInbound d w (s.setDie d { s.die d with inq := (s.die d).inq.erase w })

/-- Inbound writes that have come to the head of their source's queue and may use a window's slots land (R140). -/
def settleInbound : Nat → Nat → State → State
  | 0, _, s => s
  | fuel + 1, d, s =>
    match (s.die d).inq.find? (fun w => inHead (s.die d) w && windowRoute s d w.src) with
    | some w => settleInbound fuel d (takeInbound d w s)
    | none => s

/-- A WRITE at a compute site (R119, R131, R140): refused outside its areas; through the slots of an open window, or after a grant of
the port arbiter. Writes of one source stay in order (R136). -/
def writeCompute (d n : Nat) (f : Frame) (s : State) : State :=
  let site := dieSite d
  let addr := frameAddr f
  let data := frameData f
  let src := hSrc f.hdr
  let buf := rxBuffer n f.hdr
  if !dieUp s d then lostBack site src (freeCredit n buf s)
  else if !inArea (siteAreas site (lockedAreas s site)) addr data.length
      ∨ (dramHomeBase ≤ addr ∧ !ownsPages s d (addr - dramHomeBase) data.length) then
    freeCredit n buf (s.count Obj.refusedAddresses 1)
  else
    let x := s.die d
    let w : InWrite := { n := x.inN, port := portOf addr, src, addr, data, string := n, buf }
    let s := s.setDie d { x with inq := x.inq ++ [w], inN := x.inN + 1 }
    settleInbound (x.inq.length + 1) d s

/-- A grant of a die's port to the lightbed receive path lets the inbound write that asked for it land (R120, R140). -/
def inboundGrant (arb : Nat) (s : State) : State :=
  match inNext (s.die (arb / 2)) (arb % 2) with
  | some w => let s := takeInbound (arb / 2) w s; settleInbound ((s.die (arb / 2)).inq.length) (arb / 2) s
  | none => s

/-- ARBITER_DECISION: at a decision point the arbiter grants one of the pending requesters (R121), which the lightbed receive path is
while an inbound write waits (R140). -/
def execArbiterDecision (arb : Nat) (cand : List Nat) (s : State) : Out :=
  match arbClass arb with
  | none => .next s
  | some c =>
    let x := arbPoint (arbHalved s arb) (arbSwitch (s.arb arb))
    let s := s.setArb arb x
    let cs := arbCand arb c (arbAsking s arb cand)
    if !arbOpen s arb ∨ (arbHalved s arb ∧ 8 ≤ x.given) then .next s
    else
      match arbPick x c cs with
      | none => .next s
      | some (win, forced) =>
        let s := s.setArb arb (arbGranted x c win cs)
        let s := if forced then s.count Obj.arbForcedWins 1 else s
        let s := s.emit (.grant arb win)
        .next (if arb = 160 ∧ win = 31 then beagleGrant s else if arb < 32 ∧ win = 0 then inboundGrant arb s else s)

/-- A WRITE at a rim site (R205, R206). -/
def writeRim (rim src addr : Nat) (data : Bytes) (s : State) : State :=
  if addr < 0x1000000000 then packWrite rim src addr data s
  else if addr < 0x1000000000 + 256 * 65536 then
    (if 25 ≤ src then slotBytes rim addr (armOf (src - 25)) data s else s.count Obj.refusedAddresses 1)
  else if 0x2000000000 ≤ addr ∧ addr < 0x2000040000 then ringWrite (rimSite rim) addr data s
  else if 0x3000000000 ≤ addr ∧ addr < 0x3000001000 then ringCredit (rimSite rim) addr (leNat data) s
  else s.count Obj.refusedAddresses 1

/-- A WRITE at the hub: a trace record (R364), hub SRAM, and the transit rings and credit words that the hub holds at the rim dies' addresses. -/
def writeHub (addr : Nat) (data : Bytes) (s : State) : State :=
  if addr = traceBase ∧ data.length = 48 then traceArrive (traceOf data) s
  else if addr + data.length ≤ 0x4000000 then storeClean (memKey hubSite addr) data s
  else if 0x2000000000 ≤ addr ∧ addr < 0x2000040000 then ringWrite hubSite addr data s
  else if 0x3000000000 ≤ addr ∧ addr < 0x3000001000 then ringCredit hubSite addr (leNat data) s
  else s.count Obj.refusedAddresses 1

/-- A WRITE at its destination (R131); its buffer is freed when the write has left it (R133). -/
def writeHere (n site : Nat) (f : Frame) (s : State) : State :=
  let addr := frameAddr f
  let data := frameData f
  let free (s : State) : State := freeCredit n (rxBuffer n f.hdr) s
  if site = hubSite then free (writeHub addr data s)
  else if 25 ≤ site then free (writeRim (site - 25) (hSrc f.hdr) addr data s)
  else
    match siteDie site, siteStack site with
    | some d, _ => writeCompute d n f s
    | none, some k =>
      free (if stackFailed s k then pathLost none s
            else if addr + data.length ≤ 0x1800000000 then storeClean (memKey site addr) data s else s.count Obj.refusedAddresses 1)
    | none, none => free (s.count Obj.refusedAddresses 1)

/-- WRITE_FRAME (R130, R131). -/
def execWriteFrame (n : StringId) (f : Frame) (s : State) : Out := .next (deliverFrame n opWRITE f (writeHere n) false s)

/-- A partial at a collective slot's rim die (R205): added under R138, and the module's own partial enters the slot once every
contributing core is in. -/
def rpartRim (n site : Nat) (f : Frame) (s : State) : State :=
  let unit := site - 9
  let key := memKey site (frameAddr f - hOffset f.hdr)
  let core := hLength f.hdr
  let kind := if hRelay f.hdr && (stringEnds n).1 != hSrc f.hdr then 0 else 2
  match reduceTarget s unit key with
  | none => freeCredit n (rxBuffer n f.hdr) (s.count Obj.refusedAddresses 1)
  | some t =>
    let s := rpartArrive unit key core kind n (fitBytes 64 f.payload) s
    if (s.die unit).chunks.any (fun c => c.win == t.win && decide (t.addr ≤ c.addr) && decide (c.addr < t.addr + t.len)) then s
    else slotBytes (site - 25) (t.addr - memKey site 0) 0 (s.load t.addr t.len) s

/-- RPART at its destination (R138): the buffer is freed when the partial is added. -/
def rpartHere (n site : Nat) (f : Frame) (s : State) : State :=
  let kind := if hRelay f.hdr && (stringEnds n).1 != hSrc f.hdr then 0 else 2
  match siteDie site with
  | some d =>
    if !dieUp s d then freeCredit n (rxBuffer n f.hdr) (lostBack site (hSrc f.hdr) s)
    else rpartArrive d (memKey site (64 * hUnit f.hdr)) (hLength f.hdr) kind n (fitBytes 64 f.payload) s
  | none =>
    if 25 ≤ site then rpartRim n site f s else freeCredit n (rxBuffer n f.hdr) (s.count Obj.refusedAddresses 1)

/-- RPART (R130, R138). -/
def execRpart (n : StringId) (f : Frame) (s : State) : Out := .next (deliverFrame n opRPART f (rpartHere n) false s)

/-- A reply goes back on the reverse string of the same index as its request, relayed where that is OUT (R126, R145). -/
def sendBack (src dst reqUnit op length offset unit : Nat) (payload : Bytes) (s : State) : State :=
  let n := reverseString (pickString dst src reqUnit)
  let hdr (relay : Bool) : TxFrame := { hdr := mkHdr op dst src length offset unit relay, payload := fitBytes 64 payload }
  if (s.str n).state = 5 then frameLost (hdr false) s
  else if strOut s n then
    match relaySite s src dst with
    | some r => enqueueFrame (primaryString src r) (hdr true) s
    | none => frameLost (hdr false) s
  else enqueueFrame n (hdr false) s

/-- The data of a read, if it gives any, and the status that answers it, 0 for none (R112, R119, R131, R186): 0x01 path-lost, 0x02
uncorrectable, with the data where die memory is read, 0x03 refused, 0x04 not owner. -/
def readTarget (site src addr n : Nat) (s : State) : (Option Bytes × Nat) × State :=
  match siteDie site, siteStack site with
  | some d, _ =>
    if !dieUp s d then ((none, 0x01), s)
    else if !inArea (siteAreas site (lockedAreas s site)) addr n then ((none, 0x03), s)
    else if dramHomeBase ≤ addr then
      let g := addr - dramHomeBase
      if !ownsPages s d g n then ((none, 0x04), s)
      else
        match memFail s site addr n with
        | some .refused => ((none, 0x03), s)
        | some .unreachable => ((none, 0x01), s)
        | some (.uncorrectable u) => ((some (siteRead s site addr n), 0x02), readBad site u (siteTouch site addr n s))
        | none => ((some (siteRead s site addr n), 0), siteTouch site addr n s)
    else
      let s := if dieSramBase ≤ addr ∧ addr < dieSramBase + dieSramSize then
          mergeRead d (s.beat * (s.die d).clock / 1000) (64 + src) (memKey site addr) n s else s
      let data := s.load (memKey site addr) n
      if rangeBad s (memKey site addr) n then ((some data, 0x02), sramBad site addr s) else ((some data, 0), sramRead addr s)
  | none, some k =>
    if 0x1800000000 < addr + n then ((none, 0x03), s)
    else if stackFailed s k then ((none, 0x01), s)
    else if rangeBad s (memKey site addr) n then ((none, 0x02), uncorrectable (offsetHome k addr) s)
    else ((some (s.load (memKey site addr) n), 0), demandRead k addr s)
  | none, none =>
    if site = hubSite ∧ addr + n ≤ 0x4000000 then ((some (s.load (memKey site addr) n), 0), s) else ((none, 0x03), s)

/-- A READ_REQ at its destination (R130, R137): READ_DATA frames in address order, or a STATUS, or, where die memory was in error, the
STATUS and the data with it (R112; their order is DESIGN CHOICE, log entry 94). Nothing is sent to sites 29 to 31 (R14). -/
def readHere (site : Nat) (f : Frame) (s : State) : State :=
  let h := f.hdr
  let n := leAt f.payload 5 2 + 1
  let land := 64 * (leAt f.payload 0 5 % 2 ^ 35)
  let tag := leAt f.payload 7 1
  if 29 ≤ hSrc h then s
  else
    let ((data, st), s) := readTarget site (hSrc h) (frameAddr f) (min n 4096) s
    let s := if st = 0x03 ∨ st = 0x04 then s.count Obj.refusedAddresses 1 else s
    let bytes := data.getD []
    let s := if st = 0 then s else sendBack site (hSrc h) (hUnit h) opSTATUS 63 0 0 (leBytes 1 st ++ leBytes 4 tag) s
    (List.range (ceilDiv bytes.length 64)).foldl (fun s i =>
      let part := (bytes.drop (64 * i)).take 64
      sendBack site (hSrc h) (hUnit h) opREADDATA (part.length - 1) 0 (land / 64 + i) part s) s

/-- READ_REQ (R130, R137). -/
def execReadReq (n : StringId) (f : Frame) (s : State) : Out := .next (deliverFrame n opREADREQ f readHere true s)

/-- A fill has one read less outstanding (R178). -/
def fillLanded (site page : Nat) (s : State) : State :=
  match siteDie site with
  | none => s
  | some d =>
    s.setDie d { s.die d with fills := (s.die d).fills.map (fun (x : Nat × Nat) => if x.1 = page then (page, x.2 - 1) else x) }

/-- Bytes land at a site: at a compute site they end merges that they meet (R113). -/
def landAt (site addr : Nat) (data : Bytes) (s : State) : State :=
  match siteDie site with
  | some d => landWrite d (memKey site addr) data s
  | none => storeClean (memKey site addr) data s

/-- READ_DATA at the requester (R137): the bytes land under their tag, which the last of them frees; a finished collective sum lands
in the space reserved for it (R208); data whose read has ended are dropped. -/
def dataHere (site : Nat) (f : Frame) (s : State) : State :=
  let addr := frameAddr f
  let data := frameData f
  match landingTag s site addr with
  | some t =>
    let s := landAt site addr data s
    let left := t.left - data.length
    if left = 0 then
      let s := { s with tags := s.tags.filter (fun x => !(x.site == site && x.tag == t.tag)) }
      if t.purpose = 0 then fillLanded site t.arg s else if t.purpose = 1 then opLanded t.arg t.tag s else s
    else { s with tags := s.tags.map (fun x => if x.site = site ∧ x.tag = t.tag then { t with landing := addr + data.length, left } else x) }
  | none =>
    if 25 ≤ hSrc f.hdr ∧ hSrc f.hdr < 29 ∧ inArea (siteAreas site (lockedAreas s site)) addr data.length then
      landAt site addr data s
    else s

/-- READ_DATA frame (R130, R137). -/
def execReadDataFrame (n : StringId) (f : Frame) (s : State) : Out := .next (deliverFrame n opREADDATA f dataHere true s)

/-- A path-lost for a work item reaches its sender: the participants there of the item's open window end with PATH_LOST (R76). -/
def lostHere (site item : Nat) (s : State) : State :=
  match siteDie site with
  | none => s
  | some d =>
    (s.wins.filter (fun w => w.phase == 2 && w.item == item)).foldl (fun s w =>
      ((bitList 64 w.parts.toNat).filter (fun n => coreDie n == d)).foldl (fun s n => endCore n exitPATHLOST s) s) s

/-- A STATUS frees its tag (R137): a page fill is given up or a rim die's access fails, and path-lost is counted; one for a work item
ends its window (R76), one for a rim die's write fails it (R231). -/
def statusHere (site : Nat) (f : Frame) (s : State) : State :=
  let st := leAt f.payload 0 1
  let v := leAt f.payload 1 4
  if hUnit f.hdr = 1 then (if st ≠ 0x01 then s else if 25 ≤ site then opFail v 0x01 0 s else lostHere site v s)
  else
    let s := if st = 0x01 then s.count Obj.pathLostTransfers 1 else s
    let s := readEnds site v st s
    settleOps (opFuel s) s

/-- STATUS frame (R130, R137). -/
def execStatusFrame (n : StringId) (f : Frame) (s : State) : Out := .next (deliverFrame n opSTATUS f statusHere true s)

/-- A FLAG at its die (R70, R136): the flag of a core in a window, after the sums that its source has contributed to. -/
def flagHere (site : Nat) (f : Frame) (s : State) : State :=
  match siteDie site, siteDie (hSrc f.hdr) with
  | some d, some src =>
    let core := 4 * d + frameAddr f / 0x4000000 % 4
    if !dieUp s d then lostBack site (hSrc f.hdr) s
    else if (s.core core).state ≠ 1 then s
    else
      holdFlag d { core, num := leAt f.payload 0 1 % 64, value := BitVec.ofNat 32 (leAt f.payload 1 4), src := none
                   deps := openSums s d (fun i => coreDie i == src), writes := openWrites s d (hSrc f.hdr) } (beatTick s core) s
  | _, _ => s.count Obj.refusedAddresses 1

/-- FLAG frame (R130). -/
def execFlagFrame (n : StringId) (f : Frame) (s : State) : Out := .next (deliverFrame n opFLAG f flagHere true s)

/-- A BARRIER at its die: an arrival at a core whose window has the frame's window_id (R70). -/
def barrierHere (site : Nat) (f : Frame) (s : State) : State :=
  match siteDie site, siteDie (hSrc f.hdr) with
  | some d, some src =>
    let core := 4 * d + frameAddr f / 0x4000000 % 4
    let c := s.core core
    if !dieUp s d then lostBack site (hSrc f.hdr) s
    else if c.state ≠ 1 ∨ windowIdOf s core ≠ leAt f.payload 1 4 then s
    else
      holdFlag d { core, num := leAt f.payload 0 1, value := 0, src := some src, deps := openSums s d (fun i => coreDie i == src)
                   writes := openWrites s d (hSrc f.hdr) } (beatTick s core) s
  | _, _ => s.count Obj.refusedAddresses 1

/-- BARRIER frame (R130). -/
def execBarrierFrame (n : StringId) (f : Frame) (s : State) : Out := .next (deliverFrame n opBARRIER f barrierHere true s)

/-- A LAUNCH at a participating die: the launch record is kept until the launch (R73, R130). -/
def launchHere (site : Nat) (f : Frame) (s : State) : State :=
  match siteDie site with
  | some d =>
    if !dieUp s d then pathLost none s
    else
      let r := (leAt f.payload 0 4, leAt f.payload 4 8, leAt f.payload 12 8)
      s.setDie d { s.die d with launches := (s.die d).launches.filter (fun x => x.1 != r.1) ++ [r] }
  | none => s.count Obj.refusedAddresses 1

/-- LAUNCH frame (R73, R130). -/
def execLaunchFrame (n : StringId) (f : Frame) (s : State) : Out := .next (deliverFrame n opLAUNCH f launchHere true s)

end Sys2Proof.Machine
end

