-- ==== Sys2Proof/Machine/Views.lean ====
section
/-! DEFINITION. What the objects that report state read as: the objects whose value is no written value, row by row of the object
tables. Values are widened to 64 bits. -/

namespace Sys2Proof.Machine

/-- A reading that nothing in the state gives: a fresh free value (R277). -/
def measuredKeys : List Nat :=
  [Obj.powerNowMw, Obj.podInputVoltageMv, Obj.inputCurrentUa, Obj.podTemp, Obj.coinCellMv, Obj.beatQualityPs]

/-- Module identity and the disabled-unit map (R23, R305). -/
def viewIdentity (s : State) (k : Nat) : Option Nat :=
  if k = Obj.mapDigest then some (crc32c (mapBytes s))
  else if k = Obj.fusedWhippetDigest then some (crc32c (leBytes 32 s.dev.fusedWhips))
  else if k = Obj.firmwareVersion then some s.dev.firmware.toNat
  else if k = Obj.ptpPortState then
    some (if !(s.obj Obj.timeSourceEnable).testBit 1 then 0
      else if (tfind 2 s.time.valid).isSome then 3 else if s.time.ptpN ≠ 0 then 2 else 1)
  else none

/-- Staging, the configuration copies, states, pair and ensemble (R282, R285, R286, R305). -/
def viewDevice (s : State) (k : Nat) : Option Nat :=
  if k = Obj.stageOwner then some ((s.config.owner.map (·.toNat)).getD 0)
  else if k = Obj.stageEntries then some s.config.staged.length
  else if k = Obj.stageDigest then some (entriesDigest s.config.staged)
  else if k = Obj.configGeneration then some s.config.gen.toNat
  else if k = Obj.configCopyStatusC then some s.config.copyA.status
  else if k = Obj.configCopyStatusC + 1 then some s.config.copyB.status
  else if k = Obj.configCopyGenerationC then some s.config.copyA.gen.toNat
  else if k = Obj.configCopyGenerationC + 1 then some s.config.copyB.gen.toNat
  else if k = Obj.deviceState then some s.dev.state
  else if k = Obj.pairState then some s.pair.state
  else if k = Obj.activeHalf then some s.pair.active
  else if k = Obj.ensState then some s.ens.state
  else if k = Obj.ensMismatchItems then some s.ens.items
  else if k = Obj.ensMismatchNode then some s.ens.badNode.toNat
  else none

/-- Power and thermal (R340, R341). -/
def viewPower (s : State) (k : Nat) : Option Nat :=
  let t := s.thermDie (s.obj Obj.thermSelSite) (s.obj Obj.thermSelDie)
  let i := s.obj Obj.thermSelSensor
  if k = Obj.inputVoltageMv then some s.power.mv
  else if k = Obj.inputCurrentMa then some (s.power.watts * 1000000 / s.power.mv)
  else if k = Obj.inputPowerW then some s.power.watts
  else if k = Obj.inputState then some s.power.input
  else if k = Obj.railState then some s.power.rails
  else if Obj.diePowerCeilingN ≤ k ∧ k < Obj.diePowerCeilingN + 16 then
    some ((ceilingOf (s.die (k - Obj.diePowerCeilingN))).getD 0xFFFF)
  else if k = Obj.thermReading then some (wrapTo 64 (t.reading.getD i 0))
  else if k = Obj.thermValueUsed then some (wrapTo 64 (t.used.getD i 0))
  else if k = Obj.thermSuspect then some (if t.order then 2 else if t.suspect.getD i false then 1 else 0)
  else if k = Obj.thermDieLevel then some t.level
  else if Obj.siteTempN ≤ k ∧ k < Obj.siteTempN + 29 then
    some (wrapTo 64 (listMax 0 ((s.therm.dies.filter (fun (p : Nat × ThermDie) => p.1 / 16 == k - Obj.siteTempN)).map
      (fun (p : Nat × ThermDie) => temperature p.2))))
  else if k = Obj.capLimitedMs then
    some (s.obj k + (match s.power.capSince with | some b => (s.beat - b) / 1000000 | none => 0))
  else if k = Obj.sensorsSuspect then
    some ((s.therm.dies.map (fun (p : Nat × ThermDie) =>
      if p.2.order then sensorCount (p.1 / 16) (p.1 % 16) else (p.2.suspect.filter id).length)).sum)
  else none

/-- Clocks and the time base (R275, R276). -/
def viewTime (s : State) (k : Nat) : Option Nat :=
  let x := tget (0, 0) (s.obj Obj.xingSelIndex) (s.die ((siteDie (s.obj Obj.xingSelSite)).getD 16)).xing
  if Obj.dieClockMhzN ≤ k ∧ k < Obj.dieClockMhzN + 16 then some (s.die (k - Obj.dieClockMhzN)).clock
  else if Obj.dieClockChangePendingN ≤ k ∧ k < Obj.dieClockChangePendingN + 16 then
    some (if (s.die (k - Obj.dieClockChangePendingN)).want.isSome then 1 else 0)
  else if k = Obj.xingResidualPs then some (wrapTo 64 x.2)
  else if k = Obj.xingCalResult then some x.1
  else if k = Obj.xingWorstResidualPs then
    some ((s.dies.flatMap (fun (p : Nat × Die) => p.2.xing.map (fun (q : Nat × Nat × Int) => q.2.2.natAbs))).foldl max 0)
  else if k = Obj.timeSource then some s.time.source
  else if k = Obj.timeState then some s.time.state
  else if k = Obj.beatNow then some s.beat
  else if k = Obj.beatOffsetPs then some (wrapTo 64 s.time.offset)
  else if k = Obj.beatAnchored then some s.time.anchored
  else if k = Obj.beatPendingOffsetNs then some (wrapTo 64 s.time.pendingOff)
  else if k = Obj.beatQualityPs ∧ s.time.source = 0 ∧ s.time.state = 0 then some 0xFFFFFFFF
  else if k = Obj.syncReferenceNode then some (refNode s)
  else if k = Obj.syncHops then some (ownHops s)
  else if k = Obj.syncUpstreamPort then some s.time.upstream
  else if k = Obj.ptpMasterIdentity then some s.time.master.toNat
  else none

/-- `lane_role` of a line (R149): its logical lane, 16 spare, 17 mapped out, 18 under calibration. -/
def laneRole (t : Str) (line : Nat) : Nat :=
  if t.turn = some line then 18
  else match (List.range 17).find? (fun i => t.map.getD i 0x1F == line) with
    | some i => i
    | none => 17

/-- `handover_state_d` (R175): a failing domain reads so while no handover of it is in progress (DEDUCED, log entry 99). -/
def handoverState (x : Domain) : Nat := if x.crossed.getD 3 false ∧ ¬(1 ≤ x.state ∧ x.state ≤ 4) then 6 else x.state

/-- Strings, cartridges, domains, pegs and Sounding (R149, R175). -/
def viewLight (s : State) (k : Nat) : Option Nat :=
  let t := s.str (s.obj Obj.laneSelString)
  let line := s.obj Obj.laneSelLine
  let ln := tget {} line t.lanes
  let slot := s.obj Obj.harpSel
  let h := s.harp slot
  let hl := s.obj Obj.harpLineSel
  let g := (s.str (s.obj Obj.pegSelString)).peg (s.obj Obj.pegSelLine) (s.obj Obj.pegSelRing)
  let p := s.obj Obj.soundingPointSel
  let half := s.sounding.half
  if k = Obj.laneRxPower then some (wrapTo 64 ln.rx)
  else if k = Obj.laneEyeWidth then some ln.eye
  else if k = Obj.laneMargin then some (wrapTo 64 ln.margin)
  else if k = Obj.laneRole then some (laneRole t line)
  else if k = Obj.stringState then some t.state
  else if k = Obj.stringLatencyPs then some t.latency
  else if Obj.stringsInStateN ≤ k ∧ k < Obj.stringsInStateN + 7 then
    some ((List.range 1076).filter (fun n => (s.str n).state == k - Obj.stringsInStateN)).length
  else if k = Obj.harpRole then some h.role
  else if k = Obj.harpDomain then some ((fedBy s slot).getD 0xFF)
  else if k = Obj.harpSerial then some h.serial.toNat
  else if k = Obj.harpHours then some h.hours.toNat
  else if k = Obj.harpLinePower then some (wrapTo 64 (h.power.getD hl 0))
  else if k = Obj.harpLineOffset then some (wrapTo 64 (h.offset.getD hl 0))
  else if Obj.domainSourceD ≤ k ∧ k < Obj.domainSourceD + 8 then some (s.domain (k - Obj.domainSourceD)).source
  else if Obj.domainMarginD ≤ k ∧ k < Obj.domainMarginD + 8 then some (wrapTo 64 (s.domain (k - Obj.domainMarginD)).margin)
  else if Obj.handoverStateD ≤ k ∧ k < Obj.handoverStateD + 8 then some (handoverState (s.domain (k - Obj.handoverStateD)))
  else if Obj.domainFadeD ≤ k ∧ k < Obj.domainFadeD + 8 then some (wrapTo 64 (fadeRate (s.domain (k - Obj.domainFadeD))))
  else if Obj.domainTimeToHandoverD ≤ k ∧ k < Obj.domainTimeToHandoverD + 8 then some (fadeHours (s.domain (k - Obj.domainTimeToHandoverD)))
  else if k = Obj.pegState then some g.state
  else if k = Obj.pegHeaterCode then some g.heater.toNat
  else if k = Obj.pegDetuning then some (wrapTo 64 g.detuning)
  else if k = Obj.pegLastFretLine then some g.fret
  else if k = Obj.soundingState then some s.sounding.state
  else if k = Obj.soundingPointPower then some (wrapTo 64 (s.sounding.points.getD p 0))
  else if k = Obj.soundingPointFreq then
    some (wrapTo 64 (2298000 + 2000 * ((p / (half + 1) : Nat) : Int) + 10 * (2 * ((p % (half + 1) : Nat) : Int) - (half : Int))))
  else none

/-- Cores, Whippets, dies and arbiters (R80, R106, R124). -/
def viewDie (s : State) (k : Nat) : Option Nat :=
  if Obj.coreStateN ≤ k ∧ k < Obj.coreStateN + 64 then
    let n := k - Obj.coreStateN
    some (if unitFused s n then 5 else if unitDisabled s n then 4 else (s.core n).state)
  else if Obj.diePowerWN ≤ k ∧ k < Obj.diePowerWN + 16 then some (estimate (s.die (k - Obj.diePowerWN)))
  else if k = Obj.stealOrderMode then some (if historyMode s then 1 else 0)
  else if Obj.whippetQueueDepthN ≤ k ∧ k < Obj.whippetQueueDepthN + 16 then
    some (readyQueue s (64 + (k - Obj.whippetQueueDepthN))).length
  else if Obj.coreQueueDepthN ≤ k ∧ k < Obj.coreQueueDepthN + 64 then some (readyQueue s (k - Obj.coreQueueDepthN)).length
  else if Obj.sbStateN ≤ k ∧ k < Obj.sbStateN + 16 then some (s.die (k - Obj.sbStateN)).sb
  else if Obj.sbLockedMibN ≤ k ∧ k < Obj.sbLockedMibN + 16 then
    some (((s.die (k - Obj.sbLockedMibN)).parts.map (fun p => p.mib)).sum)
  else if Obj.reduceStageKibN ≤ k ∧ k < Obj.reduceStageKibN + 16 then some (s.die (k - Obj.reduceStageKibN)).stageKib
  else if Obj.sbLockedRunMibN ≤ k ∧ k < Obj.sbLockedRunMibN + 16 then
    let d := s.die (k - Obj.sbLockedRunMibN)
    let used := (d.parts.map (fun p => p.mib)).sum
    some (min (447 - used) (((lockedRuns d).map (fun (r : Nat × Nat) => r.2)).foldl max 0))
  else if k = Obj.arbCommitPending then some (maskOf (([0, 1, 2] : List Nat).filter (arbPending s)))
  else none

/-- DRAM, fabric, remote memory and the Retriever (R187, R222, R237, R238). -/
def viewFabric (s : State) (k : Nat) : Option Nat :=
  if k = Obj.dramPoolPages then some (goodPool s)
  else if k = Obj.dramFreePages then some (freePages s)
  else if Obj.stackStateK ≤ k ∧ k < Obj.stackStateK + 8 then some (tget 0 (k - Obj.stackStateK) s.dram.stackSt)
  else if Obj.stackTempK ≤ k ∧ k < Obj.stackTempK + 8 then some (wrapTo 64 (stackTemp s (k - Obj.stackTempK)))
  else if Obj.stackRefreshMsK ≤ k ∧ k < Obj.stackRefreshMsK + 8 then some (refreshMs s (k - Obj.stackRefreshMsK))
  else if Obj.stackSpareRowsK ≤ k ∧ k < Obj.stackSpareRowsK + 8 then some (tget 0 (k - Obj.stackSpareRowsK) s.dram.spareRows)
  else if k = Obj.nodeNumber then some s.fabric.node.toNat
  else if Obj.portStateP ≤ k ∧ k < Obj.portStateP + 16 then some (s.port (k - Obj.portStateP)).state
  else if Obj.portNeighbourP ≤ k ∧ k < Obj.portNeighbourP + 16 then some (s.port (k - Obj.portNeighbourP)).neighbour.toNat
  else if Obj.portLatencyPsP ≤ k ∧ k < Obj.portLatencyPsP + 16 then some (s.port (k - Obj.portLatencyPsP)).latency
  else if k = Obj.routeSetDigest then some (activeRouteDigest s)
  else if k = Obj.routeInactiveDigest then some (inactiveDigest s).toNat
  else if k = Obj.routeActiveEpoch then some s.fabric.epoch
  else if k = Obj.routeDrainPending then some (if s.fabric.drain then 1 else 0)
  else if k = Obj.routeCoordinator then some s.fabric.coord.toNat
  else if k = Obj.winEntriesFree then
    some (128 - (s.rmem.table.filter (fun (p : Nat × BitVec 256) => winValid p.2)).length)
  else if k = Obj.retrieverState then
    some (if !s.retr.enabled then 0 else if s.serve.links.getD 1 false then 1 else 2)
  else if Obj.retrieverSessionQ ≤ k ∧ k < Obj.retrieverSessionQ + 16 then
    some (tget {} (k - Obj.retrieverSessionQ) s.retr.sessions).state
  else none

/-- Serving and images (R255). -/
def viewServe (s : State) (k : Nat) : Option Nat :=
  let base := Obj.slotState + (k - Obj.slotState) % 0x1000
  let sl := (k - Obj.slotState) / 0x1000
  if k = Obj.contextsResident then some s.serve.ctxs.length
  else if k = Obj.streamsActive then some (activeCount s)
  else if k = Obj.prefillQueueTokens then some (queuedTokens s)
  else if k = Obj.storeFreeMib then some s.images.freeMib
  else if k = Obj.storeCount then some s.images.store.length
  else if k < Obj.slotState ∨ 16 ≤ sl then none
  else if base = Obj.slotState then some (s.imgSlot sl).state
  else if base = Obj.slotLastResult then some (s.imgSlot sl).last.toNat
  else if base = Obj.slotPrefillNs then
    some (match imageOf s sl with
      | some im => prefillTime s im sl 1
      | none => 0)
  else none

/-- Check-value units, self-test, test mode, the Beagle and the log (R352, R372, R373). -/
def viewTest (s : State) (k : Nat) : Option Nat :=
  if k = Obj.cvuWhippetUnits then some ((List.range 256).filter (fun w => !unitDisabled s (64 + w) && !unitFused s (64 + w))).length
  else if Obj.cvuHubOwnerN ≤ k ∧ k < Obj.cvuHubOwnerN + 8 then some (s.cvu (256 + (k - Obj.cvuHubOwnerN))).owner
  else if k = Obj.testModeState then some (if s.test.unlocked then 1 else 0)
  else if k = Obj.testModeRemainingS then some (testRemaining s)
  else if k = Obj.sfiActiveStrings then some (injecting s)
  else if k = Obj.katPending then some s.kat.queue.length
  else if k = Obj.beagleState then some s.beagle.state
  else if k = Obj.beagleRecords then some s.beagle.buffer.length
  else if k = Obj.logOldest then some (logOldest s)
  else if k = Obj.logNewest then some (logNewest s)
  else none

/-- The Metering Pod, as the controller passes it through (R322). -/
def viewPod (s : State) (k : Nat) : Option Nat :=
  let p := s.pod
  if k = Obj.sealState then some p.sealSt
  else if k = Obj.energyTotalMwh then some (p.total / 1000)
  else if k = Obj.podUtcNs then some p.clock
  else if k = Obj.clockAdjust24hUs then some (adjusted p / 1000)
  else if k = Obj.backupSource then some p.supply
  else if k = Obj.calRun then some p.calRun
  else if k = Obj.recordLatest then some (((p.archive.getLast?).map (·.number)).getD 0)
  else if k = Obj.recordOldest then some (((p.archive.head?).map (·.number)).getD 0)
  else if k = Obj.tallySeqLast then some ((p.seqLast.map (·.toNat)).getD 0)
  else none

/-- What an object of integer type reads as where it reports state. -/
def viewNat (s : State) (k : Nat) : Option Nat :=
  match k / 0x10000 with
  | 0x10 => viewIdentity s k
  | 0x11 => viewIdentity s k
  | 0x12 => viewDevice s k
  | 0x13 => viewDevice s k
  | 0x30 => viewDevice s k
  | 0x20 => viewPower s k
  | 0x21 => viewPower s k
  | 0x60 => viewPower s k
  | 0x61 => viewPower s k
  | 0x22 => viewTime s k
  | 0x23 => viewTime s k
  | 0x24 => viewLight s k
  | 0x25 => viewLight s k
  | 0x26 => viewDie s k
  | 0x27 => viewDie s k
  | 0x28 => viewDie s k
  | 0x29 => viewFabric s k
  | 0x2A => viewFabric s k
  | 0x2B => viewFabric s k
  | 0x2C => viewFabric s k
  | 0x2D => viewServe s k
  | 0x40 => viewServe s k
  | 0x41 => viewServe s k
  | 0x2E => viewTest s k
  | 0x2F => viewTest s k
  | 0x70 => viewTest s k
  | 0x90 => viewPod s k
  | _ => none

/-- Characters as bytes of UTF-8. -/
def asciiBytes (s : String) : Bytes := s.toList.map (fun c => BitVec.ofNat 8 c.toNat)

/-- The archive as bytes, and its index: number, start and archive offset of each record (R314, R322). -/
def archiveIndex (s : State) : List PodRecord → Nat → Bytes
  | [], _ => []
  | r :: rest, off =>
    leBytes 4 r.number ++ leBytes 8 r.start ++ leBytes 4 off ++ archiveIndex s rest (off + (recordBytes s r).length)

/-- What an object of DOMAIN or VISIBLE_STRING type reads as. -/
def viewBytes (s : State) (k : Nat) : Bytes :=
  let slot := (k - Obj.slotDigest) / 0x1000
  if k = Obj.vendorName then asciiBytes "Grenvos"
  else if k = Obj.partNumber then asciiBytes (if s.obj Obj.fusedCoreMask = 0 then "PZL-1680" else "PZL-1660")
  else if k = Obj.ensRecord then bvBytes s.ens.own
  else if k = Obj.storeDigest then fitBytes 32 (((s.images.store[s.obj Obj.storeSel]?).map (·.digest)).getD [])
  else if k = Obj.meterFwDigest then fitBytes 32 s.pod.fwDigest
  else if k = Obj.podPublicKey then fitBytes 32 (s.objB k)
  else if k = Obj.meterIndex then archiveIndex s s.pod.archive 0
  else if k = Obj.meterArchive then s.pod.archive.flatMap (recordBytes s)
  else if k = Obj.beagleBuffer then s.beagle.buffer.flatMap traceBytes
  else if k = Obj.logEntry then ((logSelected s).map logBytes).getD []
  else if Obj.winEntryN ≤ k ∧ k < Obj.winEntryN + 128 ∧ (tfind (k - Obj.winEntryN) s.rmem.loader).isSome then
    bvBytes (tget 0 (k - Obj.winEntryN) s.rmem.table)
  else if k = Obj.slotDigest + 0x1000 * slot ∧ slot < 16 then
    (if 2 ≤ (s.imgSlot slot).state then fitBytes 32 (s.imgSlot slot).digest else List.replicate 32 0)
  else
    match objRow k with
    | some r => if (s.objB k).isEmpty ∧ r.len ≠ 0 ∧ k ≠ Obj.ensMemberTable then List.replicate r.len 0 else s.objB k
    | none => s.objB k

/-- The value of an object as a READ or a NOTIFY carries it (R277, R281). -/
def objValue (s : State) (k : Nat) : Bytes :=
  match objRow k with
  | none => []
  | some r =>
    if byteType r.ty then viewBytes s k
    else leBytes r.len ((viewNat s k).getD (if measuredKeys.contains k then s.freeWord.toNat else s.obj k))

end Sys2Proof.Machine
end

