-- ==== Sys2Proof/Machine/Dictionary.lean ====
section
/-! DEFINITION. The dictionary protocol (R277 to R281, R292): admission of a message, the checks of a single object, READ,
SUBSCRIBE and NOTIFY. -/

namespace Sys2Proof.Machine

/-! Admission (R279, R280). -/

/-- Message codes (R279). -/
def msgREAD : Nat := 1
def msgWRITE : Nat := 2
def msgSTAGE : Nat := 3
def msgCOMMIT : Nat := 4
def msgSUBSCRIBE : Nat := 5
def msgNOTIFY : Nat := 6

/-- Bytes of a response body before its data (R281). -/
def bodyBytes (msg : Nat) : Nat :=
  if msg = msgREAD ∨ msg = msgSTAGE then 10 else if msg = msgCOMMIT then 13 else 2

/-- A response that carries a code alone, the rest of its body zero (R281). -/
def answerCode (msg : Nat) (h : DictHdr) (code : Nat) (s : State) : State :=
  respond msg h (fitBytes (bodyBytes msg) (leBytes 2 code)) s

/-- The datagram authenticates: `mgmt_key` is provisioned and is the key, or an ensemble member's is `ens_key` (R279, R298). -/
def authentic (s : State) (h : DictHdr) : Bool :=
  let mk := s.objB Obj.mgmtKey
  let ek := s.objB Obj.ensKey
  !mk.isEmpty && (h.key == mk || (decide (2 ^ 31 ≤ h.client.toNat) && !ek.isEmpty && h.key == ek))

/-- The request's seq is above the highest accepted of its client since boot (R279). -/
def seqFresh (s : State) (h : DictHdr) : Bool :=
  match tfind h.client.toNat s.config.seqs with
  | some n => decide (n < h.seq.toNat)
  | none => true

/-- A request that was accepted: its seq is the highest, and the owner of the staged set is not idle (R279, R282). -/
def noteRequest (h : DictHdr) (s : State) : State :=
  { s with config := { s.config with
    seqs := if h.uart then s.config.seqs else tset h.client.toNat h.seq.toNat s.config.seqs
    ownerBeat := if s.config.owner = some h.client then s.beat else s.config.ownerBeat } }

/-- The offer covers level 1 (R10, R279). -/
def levelOk (h : DictHdr) : Bool := decide (h.levLo.toNat ≤ 1 ∧ 1 ≤ h.levHi.toNat)

/-- A message is put through R279 and R280: discarded without reply, answered at once, or carried out. -/
def dictAdmit (msg : Nat) (h : DictHdr) (op : State → State) (s : State) : State :=
  if !s.powered then s
  else if h.uart && (s.config.uartHunt || !h.crcOk) then { s with config := { s.config with uartHunt := true } }
  else if !h.uart && !(authentic s h && seqFresh s h) then s.count Obj.mgmtAuthDrops 1
  else
    let s := noteRequest h s
    if h.boot.toNat ≠ s.obj Obj.bootCount then
      respond msg h (fitBytes (max 6 (bodyBytes msg)) (leBytes 2 0x1105 ++ leBytes 4 (s.obj Obj.bootCount))) s
    else if !levelOk h then
      (respondAt (s.freeWord.toNat % 16) msg h (fitBytes (bodyBytes msg) (leBytes 2 0x1603)) s).drawn 1
    else op s

/-! Objects (R277, R278). -/

/-- Key of an object. -/
def keyOf (index : W16) (sub : Byte) : Nat := 256 * index.toNat + sub.toNat

/-- Highest subindex in use at an index; `none` where the index is not in use (R277). -/
def highestSub (index : Nat) : Option Nat :=
  ((List.range 256).filter (fun i => (objRow (256 * index + i)).isSome)).getLast?

/-- Checks 1 and 2 of R278: index, then subindex. Subindex 0 is in use at every index that is. -/
def existsCode (k : Nat) : Nat :=
  match objRow k with
  | some _ => 0
  | none =>
    match highestSub (k / 256) with
    | none => 0x1101
    | some _ => if k % 256 = 0 then 0 else 0x1102

/-- Access right of an object that exists; subindex 0 is read-only. -/
def accessOf (k : Nat) : Nat := match objRow k with | some r => r.acc | none => 1

/-- Reading an object: check 4 of R278, and the log entry that is gone (R370). -/
def readCode (s : State) (k : Nat) : Nat :=
  let e := existsCode k
  if e ≠ 0 then e
  else if accessOf k = 2 then 0x1104
  else if k = Obj.logEntry ∧ (logSelected s).isNone then 0x1202
  else 0

/-- Type and value of a readable object. -/
def readObject (s : State) (k : Nat) : Nat × Bytes :=
  match objRow k with
  | some r => (r.ty, objValue s k)
  | none => (6, leBytes 1 ((highestSub (k / 256)).getD 0))

/-- Flags of the description record: one `slot_job` is a group object (R277, R300). -/
def descFlags (s : State) (k : Nat) (r : ObjRow) : Nat :=
  if r.key = Obj.slotJob then (if k = groupJobKey s then r.flags ||| 2 else r.flags - r.flags / 2 % 2 * 2) else r.flags

/-- The description record (R277). -/
def description (s : State) (k : Nat) : Bytes :=
  match objRow k with
  | some r =>
    leBytes 1 r.ty ++ leBytes 1 r.acc ++ leBytes 1 (descFlags s k r) ++ leBytes 1 0
      ++ leBytes 4 (if byteType r.ty ∧ r.len = 0 then (Sys2Proof.Config.domainMaxLength k).toNat else r.len)
      ++ leBytes 8 (if byteType r.ty then 0 else objDefault k) ++ leBytes 8 (wrapTo 64 r.lo) ++ leBytes 8 (wrapTo 64 r.hi)
  | none =>
    leBytes 1 6 ++ leBytes 1 1 ++ leBytes 1 0 ++ leBytes 1 0 ++ leBytes 4 1 ++ leBytes 8 ((highestSub (k / 256)).getD 0)
      ++ leBytes 8 0 ++ leBytes 8 255

/-- What Fault-stop still serves (R292). -/
def faultReadable (k : Nat) : Bool :=
  k / 0x10000 == 0x10 || k == Obj.deviceState || k == Obj.stateReasons || k / 0x10000 == 0x70

/-- A READ of a dictionary object (R281). -/
def dictRead (h : DictHdr) (k what offset max_ : Nat) (s : State) : State :=
  if s.faultStop ∧ !faultReadable k then answerCode msgREAD h 0x1105 s
  else
    let code := if what = 0 then readCode s k else if existsCode k ≠ 0 then existsCode k else if 2 ≤ what then 0x1204 else 0
    if code ≠ 0 then answerCode msgREAD h code s
    else
      let (ty, value) := readObject s k
      let value := if what = 1 then description s k else value
      let data := (value.drop offset).take (min max_ 1376)
      let s := if measuredKeys.contains k ∧ what = 0 then s.drawn 1 else s
      respond msgREAD h (leBytes 2 0 ++ leBytes 1 ty ++ leBytes 1 0 ++ leBytes 4 value.length ++ leBytes 2 data.length ++ data) s

/-- READ: an object's value or description record, or a register of a check-value unit (R281, R345). -/
def execRead (t : ReadTarget) (s : State) : Out :=
  match t with
  | .object h index sub what offset max_ =>
    .next (dictAdmit msgREAD h (dictRead h (keyOf index sub) what.toNat offset max_) s)
  | .cvu u off => .next (cvuRead u off.toNat s)

/-! Subscriptions (R281). -/

/-- Code that refuses a SUBSCRIBE. -/
def subscribeCode (s : State) (h : DictHdr) (k mode period id : Nat) : Nat :=
  if s.faultStop then 0x1105
  else
    let e := existsCode k
    let mine (x : Sub) : Bool := x.client == h.client && x.id.toNat == id
    if e ≠ 0 then e
    else if accessOf k = 2 then 0x1104
    else if 2 < mode then 0x1204
    else if mode = 2 ∧ period < 10 then 0x1202
    else if mode = 2 ∧ 60000 < period then 0x1203
    else if mode ≠ 0 ∧ 256 ≤ s.config.subs.length ∧ !s.config.subs.any mine then 0x1901
    else 0

/-- A subscription is created, replaced or cancelled. -/
def dictSubscribe (h : DictHdr) (k mode period : Nat) (id : W16) (s : State) : State :=
  let code := subscribeCode s h k mode period id.toNat
  if code ≠ 0 then answerCode msgSUBSCRIBE h code s
  else
    let rest := s.config.subs.filter (fun x => !(x.client == h.client && x.id == id))
    let subs := if mode = 0 then rest else rest ++
      [{ client := h.client, id, key := k, mode, period, last := s.beat, uart := h.uart, value := (readObject s k).2 }]
    answerCode msgSUBSCRIBE h 0 { s with config := { s.config with subs } }

/-- SUBSCRIBE (R281). -/
def execSubscribe (hdr : DictHdr) (index : W16) (sub : Byte) (mode : Byte) (period : W16) (id : W16) (s : State) : Out :=
  .next (dictAdmit msgSUBSCRIBE hdr (dictSubscribe hdr (keyOf index sub) mode.toNat period.toNat id) s)

/-- A subscription has a NOTIFY to send: on a change, or at its period; at most one per millisecond. -/
def notifyDue (s : State) (x : Sub) : Bool :=
  decide (x.last + 1000000 ≤ s.beat)
    && (if x.mode = 1 then x.value != (readObject s x.key).2 else decide (x.last + 1000000 * x.period ≤ s.beat))

/-- NOTIFY: a subscription's change or period sends its object's value, or the length alone beyond 1,024 bytes (R281). -/
def execNotify (client : W32) (id : W16) (s : State) : Out :=
  match s.config.subs.find? (fun x => x.client == client && x.id == id) with
  | none => .next s
  | some x =>
    if !notifyDue s x ∨ !s.powered ∨ s.faultStop then .next s
    else
      let (ty, value) := readObject s x.key
      let n := tget 0 client.toNat s.config.notifies
      let body := leBytes 2 id.toNat ++ leBytes 2 (x.key / 256) ++ leBytes 1 x.key ++ leBytes 1 ty ++ leBytes 2 value.length
        ++ leBytes 8 s.beat ++ (if value.length ≤ 1024 then value else [])
      let s := { s with config := { s.config with
        notifies := tset client.toNat (n + 1) s.config.notifies
        subs := s.config.subs.map (fun (y : Sub) => if y.client = client ∧ y.id = id then { y with last := s.beat, value } else y) } }
      let s := if measuredKeys.contains x.key then s.drawn 1 else s
      .next (ctlEmit (dictOut x.uart 1 msgNOTIFY client.toNat (s.obj Obj.bootCount) (3 * 2 ^ 62 + n % 2 ^ 62) body) s)

end Sys2Proof.Machine
end

