-- ==== Sys2Proof/Machine/Writes.lean ====
section
/-! DEFINITION. Writing objects (R278, R282 to R285): the checks of one value, the rules between objects, what each object does when
its value is applied, and WRITE, STAGE and COMMIT. -/

namespace Sys2Proof.Machine

/-- What a row's command brings beside the written value: the image that an upload's bytes form, the known-answer test that a
`controller_restore` runs. -/
structure WAux where
  image : Option Image := none
  pass  : Option Bool := none
  deriving DecidableEq, Repr

/-- Slot whose object a key is. -/
def slotOf (k : Nat) : Nat := (k - Obj.slotState) / 0x1000

/-- The key is a slot object. -/
def isSlotObj (base k : Nat) : Bool := decide (base ≤ k ∧ (k - base) % 0x1000 = 0 ∧ (k - base) / 0x1000 < 16)

/-- The key is one of n consecutive objects. -/
def isOneOf (base n k : Nat) : Bool := decide (base ≤ k ∧ k < base + n)

/-! The checks of a value (R278). -/

/-- Only in Held and Ready. -/
def heldReady (s : State) : Nat := if s.dev.state = 3 ∨ s.dev.state = 4 then 0 else 0x1105

/-- Check 5: the object is writable in the present state (R278), by the rules of each object. -/
def stateCode (s : State) (uart : Bool) (k : Nat) : Nat :=
  if s.faultStop then (if k = Obj.restartRequest then restartCode s else if k = Obj.mgmtKey ∧ uart then 0 else 0x1105)
  else if k = Obj.mgmtKey ∨ k = Obj.ensKey then (if uart then 0 else heldReady s)
  else if k = Obj.isolationClear ∨ k = Obj.katRequest ∨ k = Obj.testModeUnlock ∨ k = Obj.controllerRestore then
    (if s.dev.state = 2 then 0x1105 else 0)
  else if k = Obj.marginTestRequest then (if s.dev.state = 5 then 0x1105 else 0)
  else if k = Obj.soundingStart then (if 4 ≤ s.dev.state ∧ s.dev.state ≤ 6 then 0 else 0x1105)
  else if k = Obj.retrieverEnable ∨ isOneOf Obj.imageTrustKeyK 4 k ∨ k = Obj.testModePermit ∨ k = Obj.logClear then heldReady s
  else if isSlotObj Obj.slotLoad k then (if (s.imgSlot (slotOf k)).state = 0 then 0 else 0x1105)
  else if isSlotObj Obj.slotUnload k then slotUnloadCode s (slotOf k)
  else if k = Obj.beatSecondsSet ∨ k = Obj.configRestore then (if s.dev.state = 3 then 0 else 0x1105)
  else if k = Obj.powerOnRequest then powerOnCode s
  else if k = Obj.drainRequest then drainCode s
  else if k = Obj.restartRequest then restartCode s
  else if k = Obj.takeoverDrill then drillCode s
  else if k = Obj.ensResume then resumeCode s
  else if k = Obj.beagleClear then beagleClearCode s
  else if isOneOf Obj.winEntryN 128 k then (if (tfind (k - Obj.winEntryN) s.rmem.loader).isSome then 0x1105 else 0)
  else 0

/-- Check 6 of a whole value: its length (R278). A DOMAIN that the tables give no length takes any; the member table has whole
entries. -/
def lengthOk (r : ObjRow) (n : Nat) : Bool :=
  if r.key = Obj.ensMemberTable then decide (24 ≤ n ∧ n ≤ 6144 ∧ n % 24 = 0) else r.len == 0 || n == r.len

/-- Check 7: the range (R278). -/
def rangeCode (r : ObjRow) (b : Bytes) : Nat :=
  if byteType r.ty then 0
  else
    let v : Int := if signedType r.ty then signedAt (8 * b.length) (leNat b) else (leNat b : Int)
    if v < r.lo then 0x1202 else if r.hi < v then 0x1203 else 0

/-- Check 8: the object's own rule (R22, R275, R278, R357). -/
def ownRule (s : State) (k v : Nat) : Nat :=
  let bad :=
    if k = Obj.mcClockMhz then v % 50 != 0
    else if k = Obj.soundingHalfSpanGhz then v % 2 != 0
    else if k = Obj.syncReferenceNode ∨ isOneOf Obj.retrieverGatewayNodeQ 16 k then decide (0x0FFF < v ∧ v ≠ 0xFFFF)
    else if k = Obj.beagleTriggerKind then decide (0x0C < v ∧ v ≠ 0xFF)
    else if k = Obj.isolationClear ∨ k = Obj.katRequest then unitFused s v
    else if k = Obj.soundingStart then s.obj Obj.soundingHalfSpanGhz % 2 != 0
    else false
  if bad then 0x1204 else 0

/-- Objects whose other values need unlocked test mode, and the locked value (R361). -/
def lockedValue (k : Nat) : Option Nat :=
  if k = Obj.ballastEnable then some 1 else if k = Obj.fiMode ∨ k = Obj.sfiMode then some 0 else none

/-- A value that the test-mode latch forbids (R361). -/
def lockCode (s : State) (k v : Nat) : Nat :=
  match lockedValue k with
  | some x => if !s.test.unlocked ∧ v ≠ x then 0x1701 else 0
  | none => 0

/-- The domain of the string that Sounding would use is in a hold (R174). -/
def soundingHeld (s : State) : Bool :=
  let d := s.domain (stringDomain (1068 + (s.obj Obj.soundingRim - 25)))
  decide (2 ≤ d.state ∧ d.state ≤ 4)

/-- A slot may be removed on request (R165). -/
def removable (s : State) (slot : Nat) : Bool :=
  let r := (s.harp slot).role
  (fedBy s slot).isNone && (r == 5 || r == 6 || ((r == 2 || r == 4) && (assignedTo s slot).isNone))

/-- Rest of check 5, for the objects whose present state depends on the value (R165, R174, R175, R333). -/
def stateCodeOf (s : State) (k v : Nat) : Nat :=
  let bad :=
    if k = Obj.harpRemovalRequest then !removable s v
    else if k = Obj.handoverManual then handoverOn s v
    else if k = Obj.soundingStart then soundingHeld s
    else if k = Obj.thermalShutdownClear then shutdownClearCode v s == 0x1105
    else false
  if bad then 0x1105 else 0

/-- Rules that an object's effect brings beside R278: 0, or the code that refuses it. For a staged set the state holds the staged
values (R283 step 5). -/
def actCode (s : State) (k v : Nat) (b : Bytes) (x : WAux) : Nat :=
  if k = Obj.isolationClear then isolationClearCode s v
  else if k = Obj.arbCommit then (if arbPending s v then 0x1303 else 0)
  else if k = Obj.soundingStart then
    (if (s.str (primaryString hubSite (s.obj Obj.soundingRim))).state ≤ 2 then 0 else 0x1205)
  else if k = Obj.routeSetStaged then (if s.fabric.drain then 0x1502 else validateRoutes s (parseRoutes b))
  else if k = Obj.routeActivateBeat then
    (if s.fabric.drain then 0x1502 else if v < s.beat + 1000000 then 0x1202 else 0)
  else if k = Obj.routeActivateDigest then (if v = (inactiveDigest s).toNat then 0 else 0x1301)
  else if k = Obj.fiApply then (if s.test.unlocked then 0 else 0x1701)
  else if k = Obj.sfiApply then sfiApplyCode s
  else if k = Obj.testModeUnlock then testUnlockCode s
  else if isSlotObj Obj.slotLoad k then slotLoadCode s (slotOf k) b
  else if k = Obj.imageUpload then
    uploadCode s b.length (match x.image with | some im => if im.fileBytes = b.length then some im else none | none => none)
  else if k = Obj.storeSel then (if s.images.store.length ≤ v then 0x1203 else 0)
  else if k = Obj.logSel then logSelCode s v
  else if k = Obj.syncReferenceNode then (if inEnsemble s then 0x1205 else 0)
  else if k = Obj.thermalShutdownClear then shutdownClearCode v s
  else 0

/-! What a value does when it is applied. -/

/-- `arb_commit`, `tile_reset`, `sounding_start` and the other actions on the lightbed and the dies. -/
def actLight (k v : Nat) (s : State) : State :=
  if k = Obj.arbCommit then commitArb v s
  else if k = Obj.marginTestRequest then (if s.dev.started then { s with dev := { s.dev with marginRun := 3 } } else s)
  else if k = Obj.tileReset then
    (if (s.tile v).state = 0 ∧ s.dev.started then
      (siteStrings v).foldl (fun s n => s.setStr n { s.str n with stopped := true }) (s.setTile v { state := 1, since := s.beat })
    else s)
  else if k = Obj.harpRemovalRequest then s.setHarp v { s.harp v with led := 1 }
  else if k = Obj.handoverManual then requestSpare v (s.setDomain v { s.domain v with refused := [], forced := false })
  else if k = Obj.soundingStart then
    let n := 1068 + (s.obj Obj.soundingRim - 25)
    enterString n 3 { s with sounding := { state := 1, string := n, half := s.obj Obj.soundingHalfSpanGhz } }
  else if k = Obj.thermalShutdownClear then clearSite v s
  else s

/-- The actions on images and routes. -/
def actImage (k v : Nat) (b : Bytes) (x : WAux) (s : State) : State :=
  if isSlotObj Obj.slotLoad k then startLoad (slotOf k) b s
  else if isSlotObj Obj.slotUnload k then (if v = 1 then drainSlot (slotOf k) s else forceSlot (slotOf k) s)
  else if k = Obj.imageUpload then
    (match x.image with | some im => storeImage im s | none => s)
  else if k = Obj.routeSetStaged then installRoutes (parseRoutes b) s
  else s

/-- The actions on the module's state, controllers and ensemble. -/
def actDevice (client k v : Nat) (x : WAux) (s : State) : State :=
  if k = Obj.powerOnRequest then powerOn s
  else if k = Obj.drainRequest then startDrain v s
  else if k = Obj.restartRequest then restart v s
  else if k = Obj.controllerRestore then
    (match x.pass with
    | some p => restorePair p s
    | none => (restorePair (s.freeWord.toNat.testBit 0) s).drawn 1)
  else if k = Obj.takeoverDrill then askDrill s
  else if k = Obj.ensResume then startRollCall s
  else if k = Obj.ensDissolve then dissolve client s
  else if k = Obj.beatSecondsSet then setSeconds v s
  else s

/-- The actions of tests, injection, the Beagle and the log. An `isolation_clear` is answered when its test ends (R22). -/
def actTest (hdr : Option DictHdr) (k v : Nat) (s : State) : State :=
  if k = Obj.isolationClear then queueKat v 2 hdr s
  else if k = Obj.katRequest then queueKat v 3 none s
  else if k = Obj.testModeUnlock then unlockTest s
  else if k = Obj.testModeLock then lockTest s
  else if k = Obj.fiApply then fiApplyDo s
  else if k = Obj.sfiApply then sfiApplyDo s
  else if k = Obj.fiStopAll then stopInjection s
  else if k = Obj.beagleClear then beagleEmpty s
  else if k = Obj.logClear then logEmpty s
  else s

/-- The Retriever is switched: off, its sessions and buffers go (R232). -/
def switchRetriever (on : Bool) (s : State) : State :=
  if on then { s with retr := { s.retr with enabled := true } } else { s with retr := { ({} : Retr) with counter := s.retr.counter } }

/-- What follows a new value of an object that holds it. -/
def afterValue (k v : Nat) (s : State) : State :=
  if k = Obj.mcClockMhz then wantClock v s
  else if k = Obj.serveEnable then serveSwitch v s
  else if isOneOf Obj.portEnableP 16 k then
    let p := k - Obj.portEnableP
    (if v = 0 then (if (s.port p).state = 5 then s else portFalls p 5 s)
    else if (s.port p).state = 5 then s.setPort p { s.port p with state := 0 } else s)
  else if k = Obj.timeSourceEnable then settleSources s
  else if k = Obj.syncReferenceNode then reacquireFabric s
  else if k = Obj.routeActivateBeat then { s with fabric := { s.fabric with activate := some v } }
  else if k = Obj.beagleEnable then beagleSwitch (v == 1) s
  else if k = Obj.retrieverEnable then switchRetriever (v == 1) s
  else if k = Obj.testModePermit then (if v = 0 then lockTest s else s)
  else s

/-- A value is applied: an object that holds a value takes it, the locked one where test mode has relocked (R361); an action is done. -/
def applyObj (hdr : Option DictHdr) (client : Nat) (e : Entry) (x : WAux) (s : State) : State :=
  let k := e.key
  let v := leNat e.data
  let keep := match objRow k with | some r => r.acc == 3 || r.flags.testBit 0 | none => false
  if keep then
    let v := if s.test.unlocked then v else (lockedValue k).getD v
    afterValue k v (putValue { e with data := if byteType e.ty.toNat then e.data else leBytes e.data.length v } s)
  else actTest hdr k v (actDevice client k v x (actImage k v e.data x (actLight k v s)))

/-! Rules between objects (R283 step 5). -/

/-- The member table names this module and only nodes of its pod, one entry for each member (R297). -/
def ensTableGood (s : State) : Bool :=
  !inEnsemble s || ((s.objB Obj.ensMemberTable).length == 24 * s.obj Obj.ensSize
    && (memberNodes s).contains (configNode s).toNat
    && (memberNodes s).all (fun n => nodePod n == s.obj Obj.podNumber))

/-- The window table as the staged entries leave it (R227). -/
def stagedWindows (l : List Entry) (s : State) : Tab (BitVec 256) :=
  l.foldl (fun t e => if isOneOf Obj.winEntryN 128 e.key then tset (e.key - Obj.winEntryN) (BitVec.ofNat 256 (leNat e.data)) t else t)
    (windowTable s)

/-- The state that the staged values would give, for the rules (R283 step 5). -/
def stagedState (l : List Entry) (s : State) : State := l.foldl (fun s e => putValue e s) s

/-- Rules between objects, each with the keys that it involves and whether it holds (R197, R210, R227, R297). -/
def setRules (l : List Entry) (s : State) : List (List Nat × Bool) :=
  let t := stagedState l s
  [([Obj.podWidth, Obj.nodeX], decide (t.obj Obj.nodeX < t.obj Obj.podWidth)),
   ([Obj.podHeight, Obj.nodeY], decide (t.obj Obj.nodeY < t.obj Obj.podHeight)),
   ([Obj.cmarkLevel1Flits, Obj.cmarkLevel2Flits], decide (t.obj Obj.cmarkLevel1Flits < t.obj Obj.cmarkLevel2Flits)),
   ([Obj.cmarkLevel2Flits, Obj.cmarkLevel3Flits], decide (t.obj Obj.cmarkLevel2Flits < t.obj Obj.cmarkLevel3Flits)),
   ((List.range 128).map (fun i => Obj.winEntryN + i), winTableGood (stagedWindows l s)),
   ([Obj.podNumber, Obj.nodeX, Obj.nodeY, Obj.ensSize, Obj.ensMemberTable], ensTableGood t)]

/-- The lowest staged key among the keys that a rule involves; 0 for none (R283). -/
def involved (l : List Entry) (ks : List Nat) : Nat :=
  match ((l.filter (fun e => ks.contains e.key)).map (fun e => e.key)) with
  | [] => 0
  | k :: r => r.foldl min k

/-- The failing rule of a set of lowest entry: its code and that entry's key (R283 step 5). -/
def setCode (l : List Entry) (x : WAux) (s : State) : Option (Nat × Nat) :=
  let t := stagedState l s
  let rules := ((setRules l s).filter (fun r => !r.2)).map (fun r => (0x1205, involved l r.1))
  let acts := (l.map (fun e => (actCode t e.key (leNat e.data) e.data x, e.key))).filter (fun (p : Nat × Nat) => p.1 != 0)
  (rules ++ acts).foldl (fun (o : Option (Nat × Nat)) p =>
    match o with
    | some q => if p.2 < q.2 then some p else some q
    | none => some p) none

/-! Applying a set (R283 steps 6 to 8). -/

/-- Insert an entry by ascending key. -/
def sortEntries (l : List Entry) : List Entry := l.foldl (fun a e => putEntry e a) []

/-- The entry is stored at a commit (R277). -/
def persistent (e : Entry) : Bool := match objRow e.key with | some r => r.flags.testBit 0 | none => false

/-- A set that passed is stored and applied in ascending key; the window table follows 10 µs later, an ensemble's change starts
the roll call, and a boot held at step 8 goes on (R228, R283, R285, R287, R301). -/
def applySet (client : Nat) (l : List Entry) (x : WAux) (s : State) : State :=
  let windows := stagedWindows l s
  let s := storeEntries client (entriesDigest l) (l.filter persistent) s
  let s := (sortEntries l).foldl (fun s e => applyObj none client e x s) s
  let s := if l.any (fun e => isOneOf Obj.winEntryN 128 e.key) then
    { s with rmem := { s.rmem with next := some (s.beat + 10000, windows) } } else s
  let s := if l.any (fun e => isOneOf Obj.ensId 4 e.key) then ensCommitted s else s
  resumeBoot s

/-! Segments (R281). -/

/-- What becomes of a segment: refused, kept until more arrive, or the whole value. -/
inductive Segment where
  | bad
  | more (s : State)
  | whole (value : Bytes) (s : State)

/-- Segments must arrive in ascending offset and tile the value; one at offset 0 begins it anew. -/
def takeSegment (h : DictHdr) (key : Nat) (w : WReq) (s : State) : Segment :=
  let mine (x : Segments) : Bool := x.client == h.client && x.key == key
  let have_ := if w.offset = 0 then [] else ((s.config.segs.find? mine).map (·.data)).getD []
  let data := have_ ++ w.data
  let rest := s.config.segs.filter (fun x => !mine x)
  if w.offset ≠ have_.length ∨ w.total < data.length ∨ w.last ≠ (data.length == w.total) then .bad
  else if w.last then .whole data { s with config := { s.config with segs := rest } }
  else .more { s with config := { s.config with segs := rest ++ [{ client := h.client, key, data }] } }

/-- Checks 1 to 5, and of 6 what a first segment shows (R278). -/
def openCodeOf (s : State) (h : DictHdr) (k : Nat) (w : WReq) : Nat :=
  let e := existsCode k
  if s.faultStop ∧ k ≠ Obj.restartRequest ∧ k ≠ Obj.mgmtKey then 0x1105
  else if e ≠ 0 then e
  else if k / 0x100000 = 9 then 0x1106
  else if accessOf k = 1 then 0x1103
  else
    let c := stateCode s h.uart k
    if c ≠ 0 then c
    else match objRow k with
      | some r => if w.ty.toNat ≠ r.ty ∨ !lengthOk r w.total then 0x1201 else 0
      | none => 0x1103

/-- Checks 7 and 8 of a whole value, the latch, and the rest of check 5. -/
def valueCode (s : State) (k : Nat) (b : Bytes) : Nat :=
  match objRow k with
  | none => 0x1102
  | some r =>
    let c := rangeCode r b
    let v := leNat b
    if c ≠ 0 then c
    else if k = Obj.storeSel ∧ s.images.store.length ≤ v then 0x1203
    else if k = Obj.logSel ∧ logSelCode s v ≠ 0 then logSelCode s v
    else if stateCodeOf s k v ≠ 0 then 0x1105
    else if ownRule s k v ≠ 0 then 0x1204
    else lockCode s k v

/-- Another client owns the staged set (R284). -/
def ownedByOther (s : State) (h : DictHdr) : Bool := s.config.owner.isSome && s.config.owner != some h.client

/-! WRITE. -/

/-- From a declared loss on no configuration commit starts (R325 step 3). The code of one asked for then is DEDUCED (log entry 103):
not in the present state. -/
def commitsStopped (s : State) : Bool := s.power.input == 3

/-- A whole value that passed R278: a persistent object is a commit of a set of one entry (R282); an action is refused by its own
rule, or done. -/
def writeWhole (h : DictHdr) (k : Nat) (w : WReq) (b : Bytes) (x : WAux) (s : State) : State :=
  let e : Entry := { key := k, ty := w.ty, data := b }
  let v := leNat b
  if k = Obj.stageDiscard then
    if ownedByOther s h then answerWrite h 0x1303 s
    else answerWrite h 0 { s with config := { s.config with staged := [], owner := none } }
  else if commitsStopped s ∧ (persistent e ∨ k = Obj.configRestore) then answerWrite h 0x1105 s
  else if k = Obj.configRestore then
    let c := configRestoreCode s v
    if c ≠ 0 then answerWrite h c s else answerWrite h 0 (restoreCopy h.client.toNat v s)
  else if persistent e then
    if ownedByOther s h then answerWrite h 0x1303 s
    else
      match setCode [e] x s with
      | some (c, _) => answerWrite h c s
      | none => answerWrite h 0 (applySet h.client.toNat [e] x s)
  else
    let c := actCode s k v b x
    if c ≠ 0 then answerWrite h c s
    else
      let s := applyObj (some h) h.client.toNat e x s
      if k = Obj.isolationClear then s else answerWrite h 0 s

/-- A WRITE of an object (R278, R281, R282). -/
def dictWrite (k : Nat) (w : WReq) (x : WAux) (s : State) : State :=
  let h := w.hdr
  let c := openCodeOf s h k w
  if c ≠ 0 then answerWrite h c s
  else
    match takeSegment h k w s with
    | .bad => answerWrite h 0x1201 { s with config := { s.config with
        segs := s.config.segs.filter (fun y => !(y.client == h.client && y.key == k)) } }
    | .more s => answerWrite h 0 s
    | .whole b s =>
      let c := valueCode s k b
      if c ≠ 0 then answerWrite h c s else writeWhole h k w b x s

/-- A WRITE message for an object with its command's own operands (R279). -/
def writeMessage (k : Nat) (w : WReq) (x : WAux) (s : State) : State := dictAdmit msgWRITE w.hdr (dictWrite k w x) s

/-! STAGE (R282). -/

/-- The response to a STAGE: code, entries, running digest (R281). -/
def answerStage (h : DictHdr) (code : Nat) (s : State) : State :=
  respond msgSTAGE h (leBytes 2 code ++ leBytes 4 s.config.staged.length ++ leBytes 4 (entriesDigest s.config.staged)) s

/-- An entry joins the staged set, or replaces its former value in place. -/
def stageEntry (e : Entry) (l : List Entry) : List Entry :=
  if l.any (fun y => y.key == e.key) then l.map (fun y => if y.key = e.key then e else y) else l ++ [e]

/-- A STAGE of an object (R278, R282). -/
def dictStage (k : Nat) (w : WReq) (s : State) : State :=
  let h := w.hdr
  let seg := 2 ^ 24 + k
  if s.faultStop then answerStage h 0x1105 s
  else
    let c := openCodeOf s h k w
    if c ≠ 0 then answerStage h c s
    else
      match takeSegment h seg w s with
      | .bad => answerStage h 0x1201 { s with config := { s.config with
          segs := s.config.segs.filter (fun y => !(y.client == h.client && y.key == seg)) } }
      | .more s => answerStage h 0 s
      | .whole b s =>
        let c := valueCode s k b
        if c ≠ 0 then answerStage h c s
        else if ownedByOther s h then answerStage h 0x1303 s
        else if k = Obj.configRestore then answerStage h 0x1205 s
        else
          let s := { s with config := { s.config with
            staged := stageEntry { key := k, ty := w.ty, data := b } s.config.staged, owner := some h.client, ownerBeat := s.beat } }
          answerStage h 0 s

/-- STAGE adds or replaces an entry of the single staged set (R282). -/
def execStage (index : W16) (sub : Byte) (w : WReq) (s : State) : Out :=
  .next (dictAdmit msgSTAGE w.hdr (dictStage (keyOf index sub) w) s)

/-! COMMIT (R283). -/

/-- The response to a COMMIT: code, generation, the first failing entry (R281). -/
def answerCommit (h : DictHdr) (code key : Nat) (s : State) : State :=
  respond msgCOMMIT h (leBytes 2 code ++ leBytes 8 s.config.gen.toNat ++ leBytes 2 (key / 256) ++ leBytes 1 key) s

/-- Step 4: the first entry, in set order, that is not writable in the present state. -/
def unwritable (s : State) (h : DictHdr) (l : List Entry) : Option Nat :=
  (l.find? (fun e => stateCode s h.uart e.key != 0 || stateCodeOf s e.key (leNat e.data) != 0)).map (fun e => e.key)

/-- A COMMIT is checked and applied, all or nothing (R283). -/
def dictCommit (h : DictHdr) (count digest : Nat) (s : State) : State :=
  let l := s.config.staged
  if s.faultStop then answerCommit h 0x1105 0 s
  else if commitsStopped s then answerCommit h 0x1105 ((l.map (fun e => e.key)).headD 0) s
  else if s.config.owner ≠ some h.client then answerCommit h 0x1303 0 s
  else if count ≠ l.length then answerCommit h 0x1302 0 s
  else if digest ≠ entriesDigest l then answerCommit h 0x1301 0 s
  else
    match unwritable s h l with
    | some k => answerCommit h 0x1105 k s
    | none =>
      match setCode l {} s with
      | some (c, k) => answerCommit h c k s
      | none =>
        let s := { s with config := { s.config with staged := [], owner := none } }
        answerCommit h 0 0 (applySet h.client.toNat l {} s)

/-- COMMIT (R283). -/
def execCommit (hdr : DictHdr) (count : W32) (digest : W32) (s : State) : Out :=
  .next (dictAdmit msgCOMMIT hdr (dictCommit hdr count.toNat digest.toNat) s)

/-! WRITE commands. -/

/-- The Pod's answer to a WRITE over its calibration interface (R280, R281, R319). The Pod has no `boot_id`; its answer repeats the
request's (DESIGN CHOICE, log entry 101). -/
def answerCalibration (h : DictHdr) (code : Nat) (s : State) : State :=
  s.emit (.calibration (uartFrame
    (dictHeader 1 (0x80 + msgWRITE) h.client.toNat h.boot.toNat (2 ^ 63 + h.seq.toNat) ++ leBytes 2 code)))

/-- Result code of a WRITE over the calibration interface: the objects of 0x9030 accept it while the seal is open (R319). Which of
them can be written is DEDUCED (log entry 101): the weight k and `cal_run`. -/
def calibrationCode (s : State) (k : Nat) (w : WReq) : Nat :=
  if existsCode k ≠ 0 then existsCode k
  else if k / 256 ≠ 0x9030 ∨ !s.pod.coverOpen then 0x1106
  else if k ≠ Obj.allocInputWeight ∧ k ≠ Obj.calRun then 0x1103
  else
    match objRow k with
    | none => 0x1102
    | some r =>
      if w.ty.toNat ≠ r.ty ∨ !lengthOk r w.total ∨ w.offset ≠ 0 ∨ w.data.length ≠ w.total then 0x1201
      else if rangeCode r w.data ≠ 0 then rangeCode r w.data
      else if k = Obj.calRun ∧ s.pod.calRun ≠ 0 then 0x1105
      else 0

/-- A WRITE over the Pod's calibration interface: a frame with a bad CRC is discarded; k changes from the record under way on, which
is flagged (R313); `cal_run` starts a run (R319, R320). -/
def calibrationWrite (k : Nat) (w : WReq) (s : State) : State :=
  if !s.pod.powered ∨ !w.hdr.crcOk then s
  else
    let c := calibrationCode s k w
    let v := leNat w.data
    let s := if c ≠ 0 then s
      else if k = Obj.calRun then { s with pod := { s.pod with calRun := v } }
      else if v = s.obj k then s
      else { s.setObj k v with pod := podFlag 7 s.pod }
    answerCalibration w.hdr c s

/-- REGISTER_WRITE: a WRITE of any object, of a register of a check-value unit, or over the Pod's calibration interface (R278, R319,
R345). -/
def execRegisterWrite (t : WriteTarget) (s : State) : Out :=
  match t with
  | .calibration index sub w => .next (calibrationWrite (keyOf index sub) w s)
  | .object index sub w => .next (writeMessage (keyOf index sub) w {} s)
  | .cvu u off v => .next (cvuWrite u off.toNat v.toNat s)

/-- ISOLATION_CLEAR: a field isolation is to be cleared by a known-answer test (R22). -/
def execIsolationClear (w : WReq) (s : State) : Out := .next (writeMessage Obj.isolationClear w {} s)

/-- MC_CLOCK_MHZ: the Matrix Core clock of every die moves to the value in steps (R75, R269). -/
def execMcClockMhz (w : WReq) (s : State) : Out := .next (writeMessage Obj.mcClockMhz w {} s)

/-- BALLAST_ENABLE: ballast may be off only in unlocked test mode (R78, R361). -/
def execBallastEnable (w : WReq) (s : State) : Out := .next (writeMessage Obj.ballastEnable w {} s)

/-- ARB_COMMIT: a class's shadow priorities and limit take effect together (R122). -/
def execArbCommit (w : WReq) (s : State) : Out := .next (writeMessage Obj.arbCommit w {} s)

/-- MARGIN_TEST_REQUEST: the commissioning test is asked for (R143). -/
def execMarginTestRequest (w : WReq) (s : State) : Out := .next (writeMessage Obj.marginTestRequest w {} s)

/-- TILE_RESET: a tile's requested reset begins (R147). -/
def execTileReset (w : WReq) (s : State) : Out := .next (writeMessage Obj.tileReset w {} s)

/-- HARP_REMOVAL_REQUEST: a cartridge may be removed: its LED turns green (R165). -/
def execHarpRemovalRequest (w : WReq) (s : State) : Out := .next (writeMessage Obj.harpRemovalRequest w {} s)

/-- HANDOVER_MANUAL: a planned handover of a domain is requested (R161, R175). -/
def execHandoverManual (w : WReq) (s : State) : Out := .next (writeMessage Obj.handoverManual w {} s)

/-- SOUNDING_START: a Sounding run starts and its string is OUT (R173, R174). -/
def execSoundingStart (w : WReq) (s : State) : Out := .next (writeMessage Obj.soundingStart w {} s)

/-- ROUTE_SET_STAGED: a route set that validates becomes the inactive bank (R201, R203, R217). -/
def execRouteSetStaged (w : WReq) (s : State) : Out := .next (writeMessage Obj.routeSetStaged w {} s)

/-- ROUTE_ACTIVATE_BEAT: the activation beat B_A is set (R217, R218). -/
def execRouteActivateBeat (w : WReq) (s : State) : Out := .next (writeMessage Obj.routeActivateBeat w {} s)

/-- FI_APPLY: a fabric port takes the configured fault (R221). -/
def execFiApply (w : WReq) (s : State) : Out := .next (writeMessage Obj.fiApply w {} s)

/-- RETRIEVER_ENABLE: the module becomes a gateway, or is one no more (R232). -/
def execRetrieverEnable (w : WReq) (s : State) : Out := .next (writeMessage Obj.retrieverEnable w {} s)

/-- STORE_SEL: a stored image is selected (R252, R255). -/
def execStoreSel (w : WReq) (s : State) : Out := .next (writeMessage Obj.storeSel w {} s)

/-- BEAT_SECONDS_SET: the seconds of the count are set (R258, R276). -/
def execBeatSecondsSet (w : WReq) (s : State) : Out := .next (writeMessage Obj.beatSecondsSet w {} s)

/-- SYNC_REFERENCE_NODE: another reference node is followed (R262, R297). -/
def execSyncReferenceNode (w : WReq) (s : State) : Out := .next (writeMessage Obj.syncReferenceNode w {} s)

/-- STAGE_DISCARD: the staged set is discarded (R282). -/
def execStageDiscard (w : WReq) (s : State) : Out := .next (writeMessage Obj.stageDiscard w {} s)

/-- CONFIG_RESTORE: a configuration copy is committed again (R285). -/
def execConfigRestore (w : WReq) (s : State) : Out := .next (writeMessage Obj.configRestore w {} s)

/-- POWER_ON_REQUEST: Standby goes to Boot (R287). -/
def execPowerOnRequest (w : WReq) (s : State) : Out := .next (writeMessage Obj.powerOnRequest w {} s)

/-- SERVE_ENABLE: serving begins or ends (R287). -/
def execServeEnable (w : WReq) (s : State) : Out := .next (writeMessage Obj.serveEnable w {} s)

/-- DRAIN_REQUEST: the module drains (R287). -/
def execDrainRequest (w : WReq) (s : State) : Out := .next (writeMessage Obj.drainRequest w {} s)

/-- RESTART_REQUEST: the module boots again or goes to Standby (R287, R333). -/
def execRestartRequest (w : WReq) (s : State) : Out := .next (writeMessage Obj.restartRequest w {} s)

/-- TAKEOVER_DRILL: a takeover drill is asked for (R296). -/
def execTakeoverDrill (w : WReq) (s : State) : Out := .next (writeMessage Obj.takeoverDrill w {} s)

/-- ENS_RESUME: a new roll call begins (R301, R302). -/
def execEnsResume (w : WReq) (s : State) : Out := .next (writeMessage Obj.ensResume w {} s)

/-- ENS_DISSOLVE: the ensemble size becomes 1 (R302). -/
def execEnsDissolve (w : WReq) (s : State) : Out := .next (writeMessage Obj.ensDissolve w {} s)

/-- THERMAL_SHUTDOWN_CLEAR: a latched site is cleared (R333). -/
def execThermalShutdownClear (w : WReq) (s : State) : Out := .next (writeMessage Obj.thermalShutdownClear w {} s)

/-- KAT_REQUEST: a known-answer test is queued (R357). -/
def execKatRequest (w : WReq) (s : State) : Out := .next (writeMessage Obj.katRequest w {} s)

/-- TEST_MODE_PERMIT: unlocking is permitted, or the latch relocks (R360). -/
def execTestModePermit (w : WReq) (s : State) : Out := .next (writeMessage Obj.testModePermit w {} s)

/-- TEST_MODE_UNLOCK: test mode is unlocked (R360). -/
def execTestModeUnlock (w : WReq) (s : State) : Out := .next (writeMessage Obj.testModeUnlock w {} s)

/-- TEST_MODE_LOCK: test mode is locked (R360, R361). -/
def execTestModeLock (w : WReq) (s : State) : Out := .next (writeMessage Obj.testModeLock w {} s)

/-- SFI_APPLY: a string takes the configured fault (R362, R363). -/
def execSfiApply (w : WReq) (s : State) : Out := .next (writeMessage Obj.sfiApply w {} s)

/-- FI_STOP_ALL: injection stops everywhere (R362). -/
def execFiStopAll (w : WReq) (s : State) : Out := .next (writeMessage Obj.fiStopAll w {} s)

/-- BEAGLE_ENABLE: capture starts or stops (R367). -/
def execBeagleEnable (w : WReq) (s : State) : Out := .next (writeMessage Obj.beagleEnable w {} s)

/-- BEAGLE_CLEAR: the trace buffer is emptied (R367). -/
def execBeagleClear (w : WReq) (s : State) : Out := .next (writeMessage Obj.beagleClear w {} s)

/-- LOG_SEL: a log entry is selected (R370). -/
def execLogSel (w : WReq) (s : State) : Out := .next (writeMessage Obj.logSel w {} s)

/-- LOG_CLEAR: the log is cleared (R370). -/
def execLogClear (w : WReq) (s : State) : Out := .next (writeMessage Obj.logClear w {} s)

/-- SLOT_LOAD: the stored image of a digest is to be loaded into a slot (R251, R253). -/
def execSlotLoad (slot : SlotId) (w : WReq) (s : State) : Out := .next (writeMessage (slotKey Obj.slotLoad slot) w {} s)

/-- SLOT_UNLOAD_DRAIN: `slot_unload` written 1: the slot drains (R253). -/
def execSlotUnloadDrain (slot : SlotId) (w : WReq) (s : State) : Out := .next (writeMessage (slotKey Obj.slotUnload slot) w {} s)

/-- SLOT_UNLOAD_FORCE: `slot_unload` written 2: the slot is unloaded at once (R253). -/
def execSlotUnloadForce (slot : SlotId) (w : WReq) (s : State) : Out := .next (writeMessage (slotKey Obj.slotUnload slot) w {} s)

/-- IMAGE_UPLOAD: a segment of an image; with the last one the store runs check 1 on the image that the bytes form (R252). -/
def execImageUpload (w : WReq) (image : Option Image) (s : State) : Out := .next (writeMessage Obj.imageUpload w { image } s)

/-- IMAGE_TRUST_KEY: a trust key is set or cleared (R252). -/
def execImageTrustKey (k : Fin 4) (w : WReq) (s : State) : Out := .next (writeMessage (Obj.imageTrustKeyK + k) w {} s)

/-- TENANT_KEY: a tenant's key, for sessions opened from now on (R240, R252). -/
def execTenantKey (t : BitVec 12) (w : WReq) (s : State) : Out := .next (writeMessage (tenantKeyOf Obj.tenantKey t.toNat) w {} s)

/-- CONTROLLER_RESTORE: the isolated or unsynchronised half is tested and taken back; `pass` is its test's result (R295). -/
def execControllerRestore (w : WReq) (pass : Bool) (s : State) : Out :=
  .next (writeMessage Obj.controllerRestore w { pass := some pass } s)

end Sys2Proof.Machine
end

