-- ==== Sys2Proof/Machine/Dispatch.lean ====
section
/-! DEFINITION. What each command does: one arm for each constructor of Instr. -/

namespace Sys2Proof.Machine

/-- The effect of a command on everything but the queue. -/
def exec (i : Instr) (s : State) : Host.Outcome State Fault Refusal :=
  match i with
  | .isolationClear w => Sys2Proof.Machine.execIsolationClear w s
  | .windowSelect item variant => Sys2Proof.Machine.execWindowSelect item variant s
  | .slotCutoff win => Sys2Proof.Machine.execSlotCutoff win s
  | .windowLaunch win => Sys2Proof.Machine.execWindowLaunch win s
  | .noOperation iss => Sys2Proof.Machine.execNoOperation iss s
  | .mark iss => Sys2Proof.Machine.execMark iss s
  | .panel iss desc row adv => Sys2Proof.Machine.execPanel iss desc row adv s
  | .rows iss desc row count adv => Sys2Proof.Machine.execRows iss desc row count adv s
  | .vload iss desc row vd adv => Sys2Proof.Machine.execVload iss desc row vd adv s
  | .astore iss desc bank row count m adv => Sys2Proof.Machine.execAstore iss desc bank row count m adv s
  | .vstore iss desc v m adv => Sys2Proof.Machine.execVstore iss desc v m adv s
  | .mma iss fa fb bank row count swap => Sys2Proof.Machine.execMma iss fa fb bank row count swap s
  | .mmz iss fa fb bank row count swap => Sys2Proof.Machine.execMmz iss fa fb bank row count swap s
  | .aclr iss fa fb bank row rows => Sys2Proof.Machine.execAclr iss fa fb bank row rows s
  | .vnop iss => Sys2Proof.Machine.execVnop iss s
  | .vadd iss vd va vb => Sys2Proof.Machine.execVadd iss vd va vb s
  | .vsub iss vd va vb => Sys2Proof.Machine.execVsub iss vd va vb s
  | .vmul iss vd va vb => Sys2Proof.Machine.execVmul iss vd va vb s
  | .vfma iss vd va vb vc => Sys2Proof.Machine.execVfma iss vd va vb vc s
  | .vmax iss vd va vb => Sys2Proof.Machine.execVmax iss vd va vb s
  | .vmin iss vd va vb => Sys2Proof.Machine.execVmin iss vd va vb s
  | .vexp2 iss vd va => Sys2Proof.Machine.execVexp2 iss vd va s
  | .vlog2 iss vd va => Sys2Proof.Machine.execVlog2 iss vd va s
  | .vrcp iss vd va => Sys2Proof.Machine.execVrcp iss vd va s
  | .vrsqrt iss vd va => Sys2Proof.Machine.execVrsqrt iss vd va s
  | .vrsum iss vd va => Sys2Proof.Machine.execVrsum iss vd va s
  | .vrmax iss vd va => Sys2Proof.Machine.execVrmax iss vd va s
  | .vbcast iss vd va imm => Sys2Proof.Machine.execVbcast iss vd va imm s
  | .vsel iss vd va vb vc => Sys2Proof.Machine.execVsel iss vd va vb vc s
  | .vcvt iss vd va vc fmt m => Sys2Proof.Machine.execVcvt iss vd va vc fmt m s
  | .acc2v iss vd imm => Sys2Proof.Machine.execAcc2v iss vd imm s
  | .viadd iss vd va vb => Sys2Proof.Machine.execViadd iss vd va vb s
  | .vcvti iss vd va => Sys2Proof.Machine.execVcvti iss vd va s
  | .vcvtf iss vd va => Sys2Proof.Machine.execVcvtf iss vd va s
  | .vl8mul iss vd va vb => Sys2Proof.Machine.execVl8mul iss vd va vb s
  | .vl8enc iss vd va => Sys2Proof.Machine.execVl8enc iss vd va s
  | .vl8dec iss vd va => Sys2Proof.Machine.execVl8dec iss vd va s
  | .send iss entry fromDesc reg frames adv => Sys2Proof.Machine.execSend iss entry fromDesc reg frames adv s
  | .rsend iss entry fromDesc reg frames adv => Sys2Proof.Machine.execRsend iss entry fromDesc reg frames adv s
  | .barrier iss bar offset => Sys2Proof.Machine.execBarrier iss bar offset s
  | .barrierCheck core bar => Sys2Proof.Machine.execBarrierCheck core bar s
  | .flagSet iss entry flag value => Sys2Proof.Machine.execFlagSet iss entry flag value s
  | .flagCheck iss flag value => Sys2Proof.Machine.execFlagCheck iss flag value s
  | .beatWait iss offset => Sys2Proof.Machine.execBeatWait iss offset s
  | .beatWaitEnd die => Sys2Proof.Machine.execBeatWaitEnd die s
  | .loop iss dist iters => Sys2Proof.Machine.execLoop iss dist iters s
  | .kernelEnd iss => Sys2Proof.Machine.execKernelEnd iss s
  | .drainEnd core => Sys2Proof.Machine.execDrainEnd core s
  | .endNotice core => Sys2Proof.Machine.execEndNotice core s
  | .declaredTicksExpiry core => Sys2Proof.Machine.execDeclaredTicksExpiry core s
  | .lwWatchdogExpiry win => Sys2Proof.Machine.execLwWatchdogExpiry win s
  | .workItemRerun item => Sys2Proof.Machine.execWorkItemRerun item s
  | .governorInterval die ends => Sys2Proof.Machine.execGovernorInterval die ends s
  | .mcClockMhz w => Sys2Proof.Machine.execMcClockMhz w s
  | .ballastEnable w => Sys2Proof.Machine.execBallastEnable w s
  | .stepInstantiate slot => Sys2Proof.Machine.execStepInstantiate slot s
  | .workItemTake item taker victim => Sys2Proof.Machine.execWorkItemTake item taker victim s
  | .workItemComplete item => Sys2Proof.Machine.execWorkItemComplete item s
  | .stealAttempt thief => Sys2Proof.Machine.execStealAttempt thief s
  | .stealBackoffExpiry thief => Sys2Proof.Machine.execStealBackoffExpiry thief s
  | .tokenizer whip session req => Sys2Proof.Machine.execTokenizer whip session req s
  | .sampler whip ctx => Sys2Proof.Machine.execSampler whip ctx s
  | .draftExecutor whip ctx level => Sys2Proof.Machine.execDraftExecutor whip ctx level s
  | .treeBuilder whip ctx => Sys2Proof.Machine.execTreeBuilder whip ctx s
  | .detokenizer whip ctx => Sys2Proof.Machine.execDetokenizer whip ctx s
  | .prefixHasher whip session req => Sys2Proof.Machine.execPrefixHasher whip session req s
  | .housekeeping whip => Sys2Proof.Machine.execHousekeeping whip s
  | .arbiterDecision arb cand => Sys2Proof.Machine.execArbiterDecision arb cand s
  | .arbCommit w => Sys2Proof.Machine.execArbCommit w s
  | .scrubPass die words => Sys2Proof.Machine.execScrubPass die words s
  | .cacheAccess die home store len => Sys2Proof.Machine.execCacheAccess die home store len s
  | .pageFillDone die page => Sys2Proof.Machine.execPageFillDone die page s
  | .kvOwnerMove page dst => Sys2Proof.Machine.execKvOwnerMove page dst s
  | .dieReset die => Sys2Proof.Machine.execDieReset die s
  | .dieResetEnd die xing => Sys2Proof.Machine.execDieResetEnd die xing s
  | .frameTime n => Sys2Proof.Machine.execFrameTime n s
  | .writeFrame n f => Sys2Proof.Machine.execWriteFrame n f s
  | .sendWindowFlush rim win => Sys2Proof.Machine.execSendWindowFlush rim win s
  | .rpart n f => Sys2Proof.Machine.execRpart n f s
  | .readReq n f => Sys2Proof.Machine.execReadReq n f s
  | .readDataFrame n f => Sys2Proof.Machine.execReadDataFrame n f s
  | .flagFrame n f => Sys2Proof.Machine.execFlagFrame n f s
  | .barrierFrame n f => Sys2Proof.Machine.execBarrierFrame n f s
  | .statusFrame n f => Sys2Proof.Machine.execStatusFrame n f s
  | .launchFrame n f => Sys2Proof.Machine.execLaunchFrame n f s
  | .idleFrame n f => Sys2Proof.Machine.execIdleFrame n f s
  | .bcast n tap f => Sys2Proof.Machine.execBcast n tap f s
  | .bcastSend n kind => Sys2Proof.Machine.execBcastSend n kind s
  | .trainOffer n f => Sys2Proof.Machine.execTrainOffer n f s
  | .trainAccept n f => Sys2Proof.Machine.execTrainAccept n f s
  | .laneMap n f => Sys2Proof.Machine.execLaneMap n f s
  | .laneMapEffect n => Sys2Proof.Machine.execLaneMapEffect n s
  | .relayCredits n f => Sys2Proof.Machine.execRelayCredits n f s
  | .echo n f => Sys2Proof.Machine.execEcho n f s
  | .ackTimeout n => Sys2Proof.Machine.execAckTimeout n s
  | .lossOfLock n => Sys2Proof.Machine.execLossOfLock n s
  | .laneCheckDone n lanes => Sys2Proof.Machine.execLaneCheckDone n lanes s
  | .frozenTimeout n => Sys2Proof.Machine.execFrozenTimeout n s
  | .laneRecheck n lanes => Sys2Proof.Machine.execLaneRecheck n lanes s
  | .marginEstimate n line rx => Sys2Proof.Machine.execMarginEstimate n line rx s
  | .marginTest => Sys2Proof.Machine.execMarginTest s
  | .marginTestDone lanes => Sys2Proof.Machine.execMarginTestDone lanes s
  | .marginTestRequest w => Sys2Proof.Machine.execMarginTestRequest w s
  | .tileReset w => Sys2Proof.Machine.execTileReset w s
  | .tileResetDrained site => Sys2Proof.Machine.execTileResetDrained site s
  | .tileWatchdog site => Sys2Proof.Machine.execTileWatchdog site s
  | .harpInsert slot serial hours => Sys2Proof.Machine.execHarpInsert slot serial hours s
  | .harpTestDone slot lines => Sys2Proof.Machine.execHarpTestDone slot lines s
  | .harpRemovalRequest w => Sys2Proof.Machine.execHarpRemovalRequest w s
  | .cartridgeRemoved slot => Sys2Proof.Machine.execCartridgeRemoved slot s
  | .pegSample n line ring detuning heater => Sys2Proof.Machine.execPegSample n line ring detuning heater s
  | .fretCheckDone n line ring expected tones => Sys2Proof.Machine.execFretCheckDone n line ring expected tones s
  | .harpMonitorSample slot power => Sys2Proof.Machine.execHarpMonitorSample slot power s
  | .handoverManual w => Sys2Proof.Machine.execHandoverManual w s
  | .spareReady slot lines => Sys2Proof.Machine.execSpareReady slot lines s
  | .creditHoldStart d => Sys2Proof.Machine.execCreditHoldStart d s
  | .selectorSwitch d => Sys2Proof.Machine.execSelectorSwitch d s
  | .handoverRelease d => Sys2Proof.Machine.execHandoverRelease d s
  | .holdLimitExpiry d => Sys2Proof.Machine.execHoldLimitExpiry d s
  | .fadeFit d => Sys2Proof.Machine.execFadeFit d s
  | .calTurnStart n line => Sys2Proof.Machine.execCalTurnStart n line s
  | .calTurnDone n first repeated => Sys2Proof.Machine.execCalTurnDone n first repeated s
  | .soundingStart w => Sys2Proof.Machine.execSoundingStart w s
  | .soundingDone powers => Sys2Proof.Machine.execSoundingDone powers s
  | .dramTrainingDone k channels full => Sys2Proof.Machine.execDramTrainingDone k channels full s
  | .dramRecenter k channel => Sys2Proof.Machine.execDramRecenter k channel s
  | .refresh k => Sys2Proof.Machine.execRefresh k s
  | .dramScrub k unit err => Sys2Proof.Machine.execDramScrub k unit err s
  | .imageDataReloadDone slot => Sys2Proof.Machine.execImageDataReloadDone slot s
  | .portPhyLock p => Sys2Proof.Machine.execPortPhyLock p s
  | .fabricTrainOffer p r => Sys2Proof.Machine.execFabricTrainOffer p r s
  | .fabricTrainAccept p r => Sys2Proof.Machine.execFabricTrainAccept p r s
  | .portTrainRetry p => Sys2Proof.Machine.execPortTrainRetry p s
  | .fabricEcho p beat own => Sys2Proof.Machine.execFabricEcho p beat own s
  | .dataBlock p ctl flits => Sys2Proof.Machine.execDataBlock p ctl flits s
  | .blockTime p => Sys2Proof.Machine.execBlockTime p s
  | .linkRetryTimeout p => Sys2Proof.Machine.execLinkRetryTimeout p s
  | .portDown p => Sys2Proof.Machine.execPortDown p s
  | .packetRoute p pkt => Sys2Proof.Machine.execPacketRoute p pkt s
  | .load p pkt => Sys2Proof.Machine.execLoad p pkt s
  | .get p pkt => Sys2Proof.Machine.execGet p pkt s
  | .atomic p pkt => Sys2Proof.Machine.execAtomic p pkt s
  | .fabricFlag p pkt => Sys2Proof.Machine.execFabricFlag p pkt s
  | .fabricBarrier p pkt => Sys2Proof.Machine.execFabricBarrier p pkt s
  | .store p pkt => Sys2Proof.Machine.execStore p pkt s
  | .put p pkt => Sys2Proof.Machine.execPut p pkt s
  | .mcastPut p pkt => Sys2Proof.Machine.execMcastPut p pkt s
  | .cpart p pkt => Sys2Proof.Machine.execCpart p pkt s
  | .collTimeout rim slot => Sys2Proof.Machine.execCollTimeout rim slot s
  | .loadData pkt => Sys2Proof.Machine.execLoadData pkt s
  | .getData pkt => Sys2Proof.Machine.execGetData pkt s
  | .atomicData pkt => Sys2Proof.Machine.execAtomicData pkt s
  | .ack pkt => Sys2Proof.Machine.execAck pkt s
  | .status pkt => Sys2Proof.Machine.execStatus pkt s
  | .rateIncreaseTick => Sys2Proof.Machine.execRateIncreaseTick s
  | .routeSetStaged w => Sys2Proof.Machine.execRouteSetStaged w s
  | .routeActivateBeat w => Sys2Proof.Machine.execRouteActivateBeat w s
  | .routeActivation => Sys2Proof.Machine.execRouteActivation s
  | .drainRound => Sys2Proof.Machine.execDrainRound s
  | .routeQuery p pkt => Sys2Proof.Machine.execRouteQuery p pkt s
  | .routeReport pkt => Sys2Proof.Machine.execRouteReport pkt s
  | .routeRelease p pkt => Sys2Proof.Machine.execRouteRelease p pkt s
  | .silentMemberExpiry node => Sys2Proof.Machine.execSilentMemberExpiry node s
  | .coordinatorTakeover => Sys2Proof.Machine.execCoordinatorTakeover s
  | .activationMissed node => Sys2Proof.Machine.execActivationMissed node s
  | .fiApply w => Sys2Proof.Machine.execFiApply w s
  | .commandRecord queue r => Sys2Proof.Machine.execCommandRecord queue r s
  | .rmemTimeout tag => Sys2Proof.Machine.execRmemTimeout tag s
  | .unreachableHoldExpiry node => Sys2Proof.Machine.execUnreachableHoldExpiry node s
  | .tagQuarantineExpiry tag => Sys2Proof.Machine.execTagQuarantineExpiry tag s
  | .windowTableEffect => Sys2Proof.Machine.execWindowTableEffect s
  | .retrieverEnable w => Sys2Proof.Machine.execRetrieverEnable w s
  | .retrieverOpen m => Sys2Proof.Machine.execRetrieverOpen m s
  | .retrieverAccept m => Sys2Proof.Machine.execRetrieverAccept m s
  | .retrieverRead m => Sys2Proof.Machine.execRetrieverRead m s
  | .retrieverReadData m => Sys2Proof.Machine.execRetrieverReadData m s
  | .flush m => Sys2Proof.Machine.execFlush m s
  | .flushAck m => Sys2Proof.Machine.execFlushAck m s
  | .retrieverIdle m => Sys2Proof.Machine.execRetrieverIdle m s
  | .retrieverResend q => Sys2Proof.Machine.execRetrieverResend q s
  | .retrieverSessionTimeout q => Sys2Proof.Machine.execRetrieverSessionTimeout q s
  | .coalesceExpiry slice buf => Sys2Proof.Machine.execCoalesceExpiry slice buf s
  | .storeAgeExpiry slice buf => Sys2Proof.Machine.execStoreAgeExpiry slice buf s
  | .ipv4Frame port => Sys2Proof.Machine.execIpv4Frame port s
  | .icmpv6Message port type data => Sys2Proof.Machine.execIcmpv6Message port type data s
  | .openSession d => Sys2Proof.Machine.execOpenSession d s
  | .request d => Sys2Proof.Machine.execRequest d s
  | .prompt d => Sys2Proof.Machine.execPrompt d s
  | .cancel d => Sys2Proof.Machine.execCancel d s
  | .serveAck d => Sys2Proof.Machine.execServeAck d s
  | .close d => Sys2Proof.Machine.execClose d s
  | .reservedKind d => Sys2Proof.Machine.execReservedKind d s
  | .serveResend session => Sys2Proof.Machine.execServeResend session s
  | .ackDue session => Sys2Proof.Machine.execAckDue session s
  | .sessionTimeout session => Sys2Proof.Machine.execSessionTimeout session s
  | .promptTimeout session req => Sys2Proof.Machine.execPromptTimeout session req s
  | .prefillComplete ctx ns => Sys2Proof.Machine.execPrefillComplete ctx ns s
  | .deadlineExpiry ctx => Sys2Proof.Machine.execDeadlineExpiry ctx s
  | .slotLoad slot w => Sys2Proof.Machine.execSlotLoad slot w s
  | .slotLoadDone slot => Sys2Proof.Machine.execSlotLoadDone slot s
  | .slotUnloadDrain slot w => Sys2Proof.Machine.execSlotUnloadDrain slot w s
  | .slotUnloadForce slot w => Sys2Proof.Machine.execSlotUnloadForce slot w s
  | .slotDrained slot => Sys2Proof.Machine.execSlotDrained slot s
  | .imageUpload w image => Sys2Proof.Machine.execImageUpload w image s
  | .imageTrustKey k w => Sys2Proof.Machine.execImageTrustKey k w s
  | .tenantKey t w => Sys2Proof.Machine.execTenantKey t w s
  | .storeSel w => Sys2Proof.Machine.execStoreSel w s
  | .ppsEdge interval ppb phase => Sys2Proof.Machine.execPpsEdge interval ppb phase s
  | .refClockLoss => Sys2Proof.Machine.execRefClockLoss s
  | .ptpSync offset tai utc master => Sys2Proof.Machine.execPtpSync offset tai utc master s
  | .ptpLoss => Sys2Proof.Machine.execPtpLoss s
  | .fabricSyncLoss => Sys2Proof.Machine.execFabricSyncLoss s
  | .sourceRevalid src => Sys2Proof.Machine.execSourceRevalid src s
  | .timeLock => Sys2Proof.Machine.execTimeLock s
  | .beatSync p r t4 => Sys2Proof.Machine.execBeatSync p r t4 s
  | .beatSyncSend p => Sys2Proof.Machine.execBeatSyncSend p s
  | .beatSecondsSet w => Sys2Proof.Machine.execBeatSecondsSet w s
  | .syncReferenceNode w => Sys2Proof.Machine.execSyncReferenceNode w s
  | .droopTrip site edges => Sys2Proof.Machine.execDroopTrip site edges s
  | .freqStep die xing => Sys2Proof.Machine.execFreqStep die xing s
  | .read t => Sys2Proof.Machine.execRead t s
  | .registerWrite t => Sys2Proof.Machine.execRegisterWrite t s
  | .stage index sub w => Sys2Proof.Machine.execStage index sub w s
  | .commit hdr count digest => Sys2Proof.Machine.execCommit hdr count digest s
  | .subscribe hdr index sub mode period id => Sys2Proof.Machine.execSubscribe hdr index sub mode period id s
  | .notify client id => Sys2Proof.Machine.execNotify client id s
  | .stageIdleTimeout => Sys2Proof.Machine.execStageIdleTimeout s
  | .stageDiscard w => Sys2Proof.Machine.execStageDiscard w s
  | .configRestore w => Sys2Proof.Machine.execConfigRestore w s
  | .powerOnRequest w => Sys2Proof.Machine.execPowerOnRequest w s
  | .serveEnable w => Sys2Proof.Machine.execServeEnable w s
  | .drainRequest w => Sys2Proof.Machine.execDrainRequest w s
  | .drainingDone => Sys2Proof.Machine.execDrainingDone s
  | .restartRequest w => Sys2Proof.Machine.execRestartRequest w s
  | .bootStart nor0 nor1 pass0 pass1 copy0 copy1 fails => Sys2Proof.Machine.execBootStart nor0 nor1 pass0 pass1 copy0 copy1 fails s
  | .bootComplete elapsedMs => Sys2Proof.Machine.execBootComplete elapsedMs s
  | .controlCycle input agree => Sys2Proof.Machine.execControlCycle input agree s
  | .controllerKatDone active standby => Sys2Proof.Machine.execControllerKatDone active standby s
  | .tandemLoss => Sys2Proof.Machine.execTandemLoss s
  | .cycleWatchdog => Sys2Proof.Machine.execCycleWatchdog s
  | .controllerRestore w pass => Sys2Proof.Machine.execControllerRestore w pass s
  | .takeoverDrill w => Sys2Proof.Machine.execTakeoverDrill w s
  | .drillAuto => Sys2Proof.Machine.execDrillAuto s
  | .drillTakeoverTimeout => Sys2Proof.Machine.execDrillTakeoverTimeout s
  | .ensRecord key r => Sys2Proof.Machine.execEnsRecord key r s
  | .rollCall => Sys2Proof.Machine.execRollCall s
  | .ensembleStart => Sys2Proof.Machine.execEnsembleStart s
  | .heartbeat => Sys2Proof.Machine.execHeartbeat s
  | .heartbeatMissing node => Sys2Proof.Machine.execHeartbeatMissing node s
  | .ensResume w => Sys2Proof.Machine.execEnsResume w s
  | .ensDissolve w => Sys2Proof.Machine.execEnsDissolve w s
  | .tallySend => Sys2Proof.Machine.execTallySend s
  | .tally m => Sys2Proof.Machine.execTally m s
  | .tallyAck seq => Sys2Proof.Machine.execTallyAck seq s
  | .tallyResend => Sys2Proof.Machine.execTallyResend s
  | .timeSend => Sys2Proof.Machine.execTimeSend s
  | .time utc => Sys2Proof.Machine.execTime utc s
  | .intervalClose energyUwh => Sys2Proof.Machine.execIntervalClose energyUwh s
  | .podPowerLoss energyUwh => Sys2Proof.Machine.execPodPowerLoss energyUwh s
  | .podPowerUp clockNow => Sys2Proof.Machine.execPodPowerUp clockNow s
  | .coverOpen => Sys2Proof.Machine.execCoverOpen s
  | .coverClose => Sys2Proof.Machine.execCoverClose s
  | .calRunCalibrate => Sys2Proof.Machine.execCalRunCalibrate s
  | .calRunDone ref temp first repeated => Sys2Proof.Machine.execCalRunDone ref temp first repeated s
  | .calRunVerify => Sys2Proof.Machine.execCalRunVerify s
  | .verifyDone ref temp first repeated => Sys2Proof.Machine.execVerifyDone ref temp first repeated s
  | .podFirmwareReplace version digest => Sys2Proof.Machine.execPodFirmwareReplace version digest s
  | .podSelfCheck => Sys2Proof.Machine.execPodSelfCheck s
  | .inputInRange mv => Sys2Proof.Machine.execInputInRange mv s
  | .overVoltage mv => Sys2Proof.Machine.execOverVoltage mv s
  | .inputHigh mv => Sys2Proof.Machine.execInputHigh mv s
  | .brownOut mv => Sys2Proof.Machine.execBrownOut mv s
  | .inputLoss mv => Sys2Proof.Machine.execInputLoss mv s
  | .rideThrough mv => Sys2Proof.Machine.execRideThrough mv s
  | .holdupExpiry => Sys2Proof.Machine.execHoldupExpiry s
  | .currentLimitExpiry => Sys2Proof.Machine.execCurrentLimitExpiry s
  | .thermalSample site die reading model => Sys2Proof.Machine.execThermalSample site die reading model s
  | .ceilingStep die => Sys2Proof.Machine.execCeilingStep die s
  | .thermalShutdownClear w => Sys2Proof.Machine.execThermalShutdownClear w s
  | .partitionReloadDone die => Sys2Proof.Machine.execPartitionReloadDone die s
  | .data8 u v => Sys2Proof.Machine.execData8 u v s
  | .data16 u v => Sys2Proof.Machine.execData16 u v s
  | .data32 u v => Sys2Proof.Machine.execData32 u v s
  | .ctrl u v => Sys2Proof.Machine.execCtrl u v s
  | .cvuStart u v => Sys2Proof.Machine.execCvuStart u v s
  | .value u v => Sys2Proof.Machine.execValue u v s
  | .owner n agent v => Sys2Proof.Machine.execOwner n agent v s
  | .katPeriodic unit => Sys2Proof.Machine.execKatPeriodic unit s
  | .katRequest w => Sys2Proof.Machine.execKatRequest w s
  | .matrixCoreKat c => Sys2Proof.Machine.execMatrixCoreKat c s
  | .matrixCoreKatDone c pass => Sys2Proof.Machine.execMatrixCoreKatDone c pass s
  | .whippetKat w => Sys2Proof.Machine.execWhippetKat w s
  | .whippetKatDone w pass => Sys2Proof.Machine.execWhippetKatDone w pass s
  | .testModePermit w => Sys2Proof.Machine.execTestModePermit w s
  | .testModeUnlock w => Sys2Proof.Machine.execTestModeUnlock w s
  | .testModeLock w => Sys2Proof.Machine.execTestModeLock w s
  | .testModeExpiry => Sys2Proof.Machine.execTestModeExpiry s
  | .sfiApply w => Sys2Proof.Machine.execSfiApply w s
  | .fiStopAll w => Sys2Proof.Machine.execFiStopAll w s
  | .traceRecord site unit kind payload => Sys2Proof.Machine.execTraceRecord site unit kind payload s
  | .beagleEnable w => Sys2Proof.Machine.execBeagleEnable w s
  | .beagleClear w => Sys2Proof.Machine.execBeagleClear w s
  | .logSuppressSummary => Sys2Proof.Machine.execLogSuppressSummary s
  | .logSel w => Sys2Proof.Machine.execLogSel w s
  | .logClear w => Sys2Proof.Machine.execLogClear w s
  | .tileResetDone site => Sys2Proof.Machine.execTileResetDone site s
  | .servingPortLinkChange port up => Sys2Proof.Machine.execServingPortLinkChange port up s
  | .inputThresholdClear mv => Sys2Proof.Machine.execInputThresholdClear mv s
  | .uartIdleResync => Sys2Proof.Machine.execUartIdleResync s
  | .supercapacitorExhausted => Sys2Proof.Machine.execSupercapacitorExhausted s
  | .coinCellExhausted => Sys2Proof.Machine.execCoinCellExhausted s

end Sys2Proof.Machine
end

