-- ==== Sys2Proof/Safety.lean ====
section
/-! DEFINITION. The terms the statements use: what a step may leave alone, and the conditions under which commands complete. -/

namespace Sys2Proof.Machine

/-- Every dictionary object and counter but those listed reads as before. -/
def Untouched (l : List Nat) (s t : State) : Prop := ∀ k, k ∉ l → t.obj k = s.obj k

/-- Counters that a log entry or a trace record may advance besides the event's own (R364, R370). -/
def logCounters : List Nat := [Obj.beagleLost, Obj.logOverwritten, Obj.logSuppressed]

/-- The newest log entry is this event's, unless its identity has had its sixteen entries of the second (R368, R370). -/
def Logged (key sev code site unit : Nat) (detail : Bytes) (s t : State) : Prop :=
  ¬(s.beat / 1000000000 = s.log.secondNo ∧ 16 ≤ (secondRow (key, site, unit, code) s.log.second).1) →
    ∃ e, t.log.entries.getLast? = some e ∧ e.key = key ∧ e.sev = sev ∧ e.code = code ∧ e.site = site ∧ e.unit = unit ∧
      e.detail = fitBytes 30 detail

/-- A counter of 32 bits advanced by one, and no other object changed but those that the log and the trace may advance. -/
def CountedOnly (k : Nat) (s t : State) : Prop :=
  t.obj k = (s.obj k + 1) % 2 ^ 32 ∧ Untouched (k :: logCounters) s t

/-- Bytes stood at a key after a step, and every byte of memory outside them is what it was. -/
def Stored (a : Nat) (b : Bytes) (s t : State) : Prop :=
  t.load a b.length = b ∧ ∀ k, k < a ∨ a + b.length ≤ k → Memory.read t.mem k = Memory.read s.mem k

/-- A record of a command queue ended: its completion record, with the user word, op, status and error code, is the last of the
queue's (R224). -/
def Ended (queue : Nat) (r : BitVec 512) (status code : Nat) (s t : State) : Prop :=
  ∃ c : BitVec 256, tget [] queue t.rmem.done = tget [] queue s.rmem.done ++ [c] ∧ fieldAt c 0 32 = crUser r ∧
    fieldAt c 32 8 = crOp r ∧ fieldAt c 40 8 = status ∧ fieldAt c 64 16 = code

/-- A check-value unit is there for the agent that names it, which holds it where it is a hub unit (R342, R347). -/
def cvuHeld (s : State) (u : CvuRef) : Bool :=
  cvuReach s u && (match u with
    | .whippet _ => true
    | .hub _ agent => (s.cvu (cvuKey u)).owner == agent)

/-- The state is one of the nine of R286, and memory is in its canonical form. -/
def State.Legal (s : State) : Prop := s.dev.state ≤ 8 ∧ Memory.wf s.mem = true

/-- A routine's result with the flags it raises, from no flags (R52, R82). -/
def runFlags {α : Type} (m : FM α) : α × Flags := m.run 0

/-! Messages of the dictionary (R277 to R284). -/

/-- A message is carried out: over the UART it came whole, over the network it authenticates and its seq is new; its boot_id is
the module's and its levels cover level 1 (R279, R280). -/
abbrev Admitted (h : DictHdr) (s : State) : Prop :=
  s.powered = true ∧
  (if h.uart then s.config.uartHunt = false ∧ h.crcOk = true else authentic s h = true ∧ seqFresh s h = true) ∧
  h.boot.toNat = s.obj Obj.bootCount ∧ levelOk h = true

/-- One WRITE or STAGE brings a whole value of a type (R281). -/
abbrev Whole (w : WReq) (ty : Nat) (b : Bytes) : Prop :=
  w.ty.toNat = ty ∧ w.offset = 0 ∧ w.last = true ∧ w.total = b.length ∧ w.data = b

/-- The configuration once a request with a whole value of a key is taken: nothing but its seq, the owner's last request and the
segments of the key. -/
def taken (h : DictHdr) (k : Nat) (s : State) : CfgState :=
  { (noteRequest h s).config with segs := s.config.segs.filter (fun y => !(y.client == h.client && y.key == k)) }

/-- The response to a request (R279). -/
def dictReply (h : DictHdr) (msg : Nat) (body : Bytes) (s : State) : Output :=
  dictOut h.uart 1 (0x80 + msg) h.client.toNat (s.obj Obj.bootCount) (2 ^ 63 + h.seq.toNat) body

/-- The controllers send the response, and nothing else of the pair changes. -/
abbrev Replied (h : DictHdr) (msg : Nat) (body : Bytes) (s t : State) : Prop :=
  t.pair = { s.pair with cur := s.pair.cur ++ [dictReply h msg body s] }

/-- No loss of input is declared, no other client owns the staged set, and the rules between objects hold with an entry staged
(R283, R284, R325). -/
abbrev SetGood (h : DictHdr) (e : Entry) (s : State) : Prop :=
  s.power.input ≠ 3 ∧ (s.config.owner = none ∨ s.config.owner = some h.client) ∧
    (setRules [e] s).all (fun r => r.2) = true ∧ ¬(s.dev.state = 3 ∧ s.dev.heldAtBoot = true)

/-- A commit of one entry: both copies hold the generation in force, one above the former copies', with the entry among theirs
(R282, R283). -/
abbrev CommittedOne (h : DictHdr) (e : Entry) (s t : State) : Prop :=
  let base := (baseCopy s.config).getD {}
  let gen : W64 := (if (baseCopy s.config).isSome then base.gen else 0) + 1
  let copy : ConfigCopy :=
    { status := 0, gen, entries := putEntry e (if (baseCopy s.config).isSome then base.entries else []) }
  t.config = { taken h e.key s with copyA := copy, copyB := copy, gen }

/-! Operations of a kernel's bundles (R61, R72 to R74). -/

/-- The cores of the die that run the window together, at the tick of an operation. -/
def atTick (i : Issue) (s : State) : State := (moveOn i.core.val i.dt s).getD s

/-- Tick at which an operation issues. -/
def issueTick (i : Issue) (s : State) : Nat := ((atTick i s).core i.core.val).tick

/-- What is due by the tick has been done. -/
def dueDone (i : Issue) (s : State) : State := progress i.core.val (issueTick i s) (atTick i s)

/-- The state in which an operation runs: its core at the tick, what is due by then done, and its slot noted as issued. -/
def issued (i : Issue) (u : SlotUse) (s : State) : State :=
  if u.slot < 7 then (dueDone i s).setCore i.core.val
    { (dueDone i s).core i.core.val with did := ((dueDone i s).core i.core.val).did ++ [u.slot] }
  else dueDone i s

/-- The core that issues, in that state. -/
def issuedCore (i : Issue) (u : SlotUse) (s : State) : Core := (issued i u s).core i.core.val

/-- The operation issues: its core may issue before and after the work due by the tick, every slot of the ticks before it has issued,
the bundle at the tick holds it in a slot that has not, and the tick is before the window's declared one (R61, R73). -/
abbrev Issues (i : Issue) (u : SlotUse) (s : State) : Prop :=
  issuing s i.core.val = true ∧ (moveOn i.core.val i.dt s).isSome = true ∧
    slotReady ((atTick i s).core i.core.val) i.bundle.toNat u = true ∧ issuing (dueDone i s) i.core.val = true ∧
    issueTick i s < declaredTicks (dueDone i s) i.core.val

/-- Nothing but core n differs. -/
def OnlyCore (n : Nat) (u t : State) : Prop := (∀ m, m ≠ n → t.core m = u.core m) ∧ t = { u with cores := t.cores }

/-- The operands of a vector operation, once every result due by the issue tick is in (R72). -/
abbrev Operand (i : Issue) (u : SlotUse) (s : State) (v : VReg) (l : List W32) : Prop :=
  ((issuedCore i u s).vreg v.val).at (issueTick i s) = some l

/-- No result of the register is due at the tick at which this one would be (R72). -/
abbrev NoClash (i : Issue) (u : SlotUse) (s : State) (vd : VReg) (latency : Nat) : Prop :=
  ∀ x ∈ ((issuedCore i u s).vreg vd.val).flight, x.1 ≠ issueTick i s + latency

/-- A vector operation completed: its result is due in `vd` after the latency, its flags are raised, the governor counts it, every
other register reads as before from the issue tick on, and nothing else differs (R68, R78). -/
def VectorResult (i : Issue) (u : SlotUse) (vd : VReg) (latency : Nat) (r : List W32 × Flags) (s t : State) : Prop :=
  (issueTick i s + latency, r.1) ∈ ((t.core i.core.val).vreg vd.val).flight ∧
  (∀ x T, x ≠ vd.val → issueTick i s ≤ T → ((t.core i.core.val).vreg x).at T = ((issuedCore i u s).vreg x).at T) ∧
  t.core i.core.val = { issuedCore i u s with
    regs := (t.core i.core.val).regs, astat := (issuedCore i u s).astat ||| BitVec.ofNat 16 (r.2 % 128)
    acts := tset 6 (tget 0 6 (issuedCore i u s).acts + 1) (issuedCore i u s).acts } ∧
  OnlyCore i.core.val (issued i u s) t

end Sys2Proof.Machine
end

