-- ==== Sys2Proof/Certificates/Slice0/Obligations.lean ====
section
/-! DEFINITION. The statements for the provers. A clause `t = { s with f := t.f, … }` is the frame: every field of the state
that it does not name is what it was. -/

open Sys2Proof Sys2Proof.Machine

/-- With command c at the front of the queue, a step is exec of c on the state with the queue's rest. The queue is the
  model's own state (log entry 8). -/
def Obligations.StepRunsFront : Prop :=
  (∀ (c : Sys2Proof.Instr) (rest : List Sys2Proof.Instr) (s : State), s.pending = c :: rest →
    step s = exec c { s with pending := rest })

/-- With no command waiting a step always answers, and the queue stays empty: one nanosecond passes (the model's choice, log
  entry 4). Without power only the Pod counts. With power the beat counter counts and slews, the Pod counts, check-value
  units work off their cycles and lit cartridges count their hours; where no access, packet or record waits for time,
  nothing else changes, and else those go on after it. -/
def Obligations.EmptyQueueIsOneBeat : Prop :=
  (∀ (s : State), s.pending = [] → ∃ t, step s = .next t ∧ t.pending = []) ∧
  (∀ (s : State), s.pending = [] → s.powered = true → step s = .next (tickFabric (tickHarps (tickCvus (tickPod (tickBeat
    s)))))) ∧
  (∀ (s : State), s.pending = [] → s.powered = true → s.rmem.ops = [] → s.fabric.paced = [] → s.rmem.waiting = [] →
    ∃ t, step s = .next t ∧ t.pod = (tickPod s).pod ∧ t.cvus = s.cvus.map (fun p => (p.1,
      { p.2 with busy := p.2.busy - (if p.1 < 256 then 2 else 1) })) ∧
      t.harps = s.harps.map (fun p => (p.1, tickHarp p.2)) ∧ t =
        { s with beat := t.beat, time := t.time, pod := t.pod, cvus := t.cvus, harps := t.harps } ∧
      (s.time.slew = 0 → -10000 < s.time.frac → s.time.frac < 10000 → t.beat = s.beat + 1 ∧ t.time = s.time) ∧
      (0 < s.time.slew → t.time.slew = s.time.slew - 1) ∧ (s.time.slew < 0 → t.time.slew = s.time.slew + 1) ∧
      10000 * (t.beat : Int) + t.time.frac + t.time.slew = 10000 * (s.beat : Int) + 10000 + s.time.frac + s.time.slew) ∧
  (∀ (s : State), s.pending = [] → s.powered = false → step s = .next { s with pod := (tickPod s).pod }) ∧
  (∀ (s : State), s.pod.lost = true → s.pod.powered = false → tickPod s = s) ∧
  (∀ (s : State), s.pod.lost = false ∨ s.pod.powered = true → s.pod.slew = 0 → (tickPod s).pod.clock = s.pod.clock + 1)

/-- At reset the module is Off, no command waits, no byte of memory is listed, every check-value unit holds the reset values
  of R345, and every integer object but the two digests of the map reads its default (R277). Which registers start at
  zero, and that the machine starts in Off, is the model's choice (log entries 2, 5 and 8). -/
def Obligations.ResetState : Prop :=
  (State.reset.dev.state = 0 ∧ State.reset.pending = [] ∧ State.reset.mem = []) ∧
  (∀ n, State.reset.cvu n = { ctrl := 0x1F, poly := 0, init := 0, xorout := 0, reg := 0, busy := 0, refused := false, owner := 0xFF, saved := none }) ∧
  (∀ k, k ≠ Obj.mapDigest → k ≠ Obj.fusedWhippetDigest → State.reset.obj k = objDefault k)

/-- At reset the device state is one of the nine of R286 and memory is in its canonical form. -/
def Obligations.ResetIsLegal : Prop :=
  (State.Legal State.reset)

/-- From every state whose device state is one of the nine of R286 and whose memory is in canonical form, a step that
  answers a next state gives one whose device state is one of the nine and whose memory is in canonical form, whatever
  command waits. The canonical form is the model's own (INVENTORY.md, Memory and ordering). -/
def Obligations.StepsStayLegal : Prop :=
  (∀ (s t : State), s.Legal → step s = .next t → t.Legal)

/-- A command that answers a next state leaves the queue of waiting commands as it was: only the sender adds to it and only
  a step takes from it. The queue is the model's own state (log entry 8). -/
def Obligations.CommandsLeaveTheQueue : Prop :=
  (∀ (c : Sys2Proof.Instr) (s t : State), exec c s = .next t → t.pending = s.pending)

/-- A code of E4M3, E5M2, E3M2, E2M3 or E2M1 with sign S, exponent E and mantissa M has the value of R28, both zeros
  included, except E4M3 with E 15 and M 7 and E5M2 with E 31; the codes of E5M2 have the magnitudes of R30, with the
  infinities and NaNs of E = 31. -/
def Obligations.NarrowFloatCodes : Prop :=
  (∀ f eb mb bias sgn e m : Nat, (f, eb, mb, bias) ∈ [(3, 4, 3, 7), (4, 5, 2, 15), (5, 3, 2, 3), (6, 2, 3, 1), (7, 2, 1, 1)]
    → sgn < 2 → e < 2 ^ eb → m < 2 ^ mb →
    ¬(f = 3 ∧ e = 15 ∧ m = 7) → ¬(f = 4 ∧ e = 31) →
    floatDecode f (sgn * 2 ^ (eb + mb) + e * 2 ^ mb + m) =
      (if e = 0 then .fin (decide (sgn = 1)) m (1 - (bias : Int) - mb)
       else .fin (decide (sgn = 1)) (2 ^ mb + m) ((e : Int) - bias - mb))) ∧
  (∀ sgn e m : Nat, sgn < 2 → e < 32 → m < 4 →
    floatDecode 4 (sgn * 0x80 + e * 0x04 + m) =
      (if e = 0 then .fin (decide (sgn = 1)) m (-16)
       else if e ≤ 30 then .fin (decide (sgn = 1)) (4 + m) ((e : Int) - 15 - 2)
       else if m = 0 then .inf (decide (sgn = 1)) else .nan))

/-- A scale code e from 0 to 254 multiplies by 2^(e − 127); under 0xFF every element of a block format is NaN; a BINT8
  element i is i × 2⁻⁶; a block element is its element value times the scale. -/
def Obligations.BlockScales : Prop :=
  (∀ f code : Nat, 0x0B ≤ f ∧ f ≤ 0x0E → elemValue f code 0xFF = .nan) ∧
  (∀ e : Nat, e ≤ 254 → scaleExp e = some ((e : Int) - 127)) ∧
  (∀ code e : Nat, e ≤ 254 →
    elemValue 0x0E code e = .fin (decide (intDecode 0x08 code < 0)) (intDecode 0x08 code).natAbs (-6 + ((e : Int) - 127))) ∧
  (∀ f g code e : Nat, (f, g) ∈ [(0x0B, 0x03), (0x0C, 0x06), (0x0D, 0x07)] → e ≤ 254 →
    elemValue f code e = (match floatDecode g code with | .fin n m x => .fin n m (x + ((e : Int) - 127)) | v => v))

/-- The map digest reads as the CRC-32C of the 8 bytes of the core mask and the 32 bytes of the Whippet mask, least
  significant byte first, after every change of a unit's bit; a record of an ensemble, of the roll call and of the
  heartbeat alike, carries it. -/
def Obligations.MapDigest : Prop :=
  (∀ (s : State), objValue s Obj.mapDigest = leBytes 4 (crc32c (leBytes 8 (s.obj Obj.coreDisableMask) ++ leBytes 8 (s.obj
    Obj.whippetDisableMask0) ++ leBytes 8 (s.obj Obj.whippetDisableMask1) ++ leBytes 8 (s.obj Obj.whippetDisableMask2) ++
    leBytes 8 (s.obj Obj.whippetDisableMask3))) ∧
    (leBytes 8 (s.obj Obj.coreDisableMask) ++ leBytes 8 (s.obj Obj.whippetDisableMask0) ++ leBytes 8 (s.obj
      Obj.whippetDisableMask1) ++ leBytes 8 (s.obj Obj.whippetDisableMask2) ++ leBytes 8 (s.obj
      Obj.whippetDisableMask3)).length = 40) ∧
  (∀ (s : State) (unit : Nat) (on : Bool), unit < 320 →
    (mapChange unit on s).obj Obj.mapDigest = crc32c (leBytes 8 ((mapChange unit on s).obj Obj.coreDisableMask) ++ leBytes 8
      ((mapChange unit on s).obj Obj.whippetDisableMask0) ++ leBytes 8 ((mapChange unit on s).obj Obj.whippetDisableMask1) ++
      leBytes 8 ((mapChange unit on s).obj Obj.whippetDisableMask2) ++ leBytes 8 ((mapChange unit on s).obj
      Obj.whippetDisableMask3))) ∧
  (∀ (s : State) (kind beat : Nat), fieldAt (ensRec s kind beat) 128 32 = s.obj Obj.mapDigest % 2 ^ 32)

/-- A trit byte from 0 to 242 has the five digits of its value in base 3, digit 2 for −1; one above 242 gives five zeros and
  its row raises TRIT; the fifth digit of byte 12 is not read. The weights +1, −1, 0, 0, +1 are the byte 0x58. -/
def Obligations.TritBytes : Prop :=
  (∀ b i : Nat, b ≤ 242 → i < 5 → (tritsOf b)[i]? = some (if b / 3 ^ i % 3 = 2 then (-1 : Int) else ((b / 3 ^ i % 3 : Nat) :
    Int))) ∧
  (∀ b : Nat, 242 < b → tritsOf b = [0, 0, 0, 0, 0]) ∧
  (tritsOf 0x58 = [1, -1, 0, 0, 1]) ∧
  (∀ b : Bytes, b.length = 16 → (tritRecord b).1.length = 64) ∧
  (∀ (s : State) (core cur r n usable : Nat) (d : BitVec 256) (b : Bytes), dFmt d = fmtTRIT5 →
    1 ≤ min n (dRowLength d - cur) → min n (dRowLength d - cur) ≤ 64 →
    spaceRead s core (dSpace d) (dBase d + r * dRowStride d + 16 * (cur / 64)) 16 = .ok b →
    ∃ row, readRow s core d cur r n usable =
      .ok (row, if ((b.drop 2).take 13).any (fun v => decide (242 < v.toNat)) then flagTRIT else 0))

/-- INPUT_IN_RANGE of 260 to 410 V takes an Off module to Standby, on to Boot with auto_boot 1, with the beat counter and
  its time state at 0, the standby rails up and the input in range. INPUT_HIGH, BROWN_OUT, INPUT_LOSS and OVER_VOLTAGE
  of 430 to 450 V set the input state and leave a log entry; brown-outs and cut-outs are counted; a loss stops window
  launches and is dated half a millisecond back. INPUT_THRESHOLD_CLEAR ends a high input at 405 V or a brown-out at 265
  V. Above 450 V OVER_VOLTAGE faults. No other part of the state changes, the log and the trace aside. RIDE_THROUGH
  within 5 ms of a declared loss ends it, is counted and logged; HOLDUP_EXPIRY 5 ms after it leaves the module Off:
  rails off, the beat counter at 0, memory, cores and windows gone, both copies of the configuration and the image store
  kept. CURRENT_LIMIT_EXPIRY declares a loss. A THERMAL_SAMPLE that is due keeps the readings and estimates, dates them
  and gives the die the level that the thresholds give for the temperature used and the level before; other dies'
  records stay, and where the level stays only this record, vertical-order events, the log and the trace change.
  CEILING_STEP 50 µs after the last lowers a held ceiling by slew_limit_w, not below 12 W, while a throttled die in
  control of it is at its throttle threshold. -/
def Obligations.PowerSupply : Prop :=
  (∀ (mv : Nat) (s : State), s.dev.state = 0 → 260000 ≤ mv ∧ mv ≤ 410000 → s.obj Obj.autoBoot ≠ 1 →
    ∃ t, exec (.inputInRange mv) s = .next t ∧
      t.dev = { s.dev with state := 1 } ∧ t.beat = 0 ∧ t.time = {} ∧
      t.power = { s.power with mv, input := 0, switchOpen := false, rails := 3, lossBeat := none } ∧ Untouched
        (Obj.stealsSincePowerup :: Obj.stackFailures :: logCounters) s t ∧
      t = { s with od := t.od, beat := t.beat, dev := t.dev, power := t.power, time := t.time, beagle := t.beagle }) ∧
  (∀ (mv : Nat) (s : State), s.dev.state = 0 → 260000 ≤ mv ∧ mv ≤ 410000 → s.obj Obj.autoBoot = 1 →
    ∃ t, exec (.inputInRange mv) s = .next t ∧
      t.dev = { s.dev with state := 2 } ∧ t.beat = 0 ∧ t.time = {} ∧ t.test.unlocked = false ∧
      t.power = { s.power with mv, input := 0, switchOpen := false, rails := 3, lossBeat := none } ∧
      (s.test.unlocked = false → Untouched (Obj.stealsSincePowerup :: Obj.stackFailures :: logCounters) s t ∧
        t = { s with od := t.od, beat := t.beat, dev := t.dev, power := t.power, time := t.time, beagle := t.beagle }) ∧
      t = { s with
          beat := t.beat, od := t.od, strings := t.strings, ports := t.ports, time := t.time, dev := t.dev
          pod := t.pod, power := t.power, test := t.test, beagle := t.beagle }) ∧
  (∀ (mv : Nat) (s : State), 410000 < mv ∧ mv < 430000 → s.dev.state ≠ 0 → s.power.input ≠ 1 ∧ s.power.input ≠ 3 →
    ∃ t, exec (.inputHigh mv) s = .next t ∧
      t.power = { s.power with mv, input := 1 } ∧ Logged Obj.inputState 1 0 0xFF 0 (leBytes 4 mv) s t ∧ Untouched logCounters
        s t ∧
      t = { s with od := t.od, power := t.power, beagle := t.beagle, log := t.log }) ∧
  (∀ (mv : Nat) (s : State), 240000 ≤ mv ∧ mv < 260000 → 2 ≤ s.dev.state → s.power.input ≠ 2 ∧ s.power.input ≠ 3 →
    ∃ t, exec (.brownOut mv) s = .next t ∧
      t.power = { s.power with mv, input := 2 } ∧ Logged Obj.brownoutEntries 1 0 0xFF 0 (leBytes 4 mv) s t ∧
      CountedOnly Obj.brownoutEntries s t ∧
      t = { s with od := t.od, power := t.power, beagle := t.beagle, log := t.log }) ∧
  (∀ (mv : Nat) (s : State), (s.power.input = 1 ∧ mv ≤ 405000) ∨ (s.power.input = 2 ∧ 265000 ≤ mv) →
    ∃ t, exec (.inputThresholdClear mv) s = .next t ∧
      t = { s with power := { s.power with mv, input := 0 } }) ∧
  (∀ (mv : Nat) (s : State), mv < 240000 → s.dev.state ≠ 0 → s.power.input ≠ 3 →
    ∃ t, exec (.inputLoss mv) s = .next t ∧
      t.power = { s.power with mv, input := 3, lossBeat := some (s.beat - 500000) } ∧ t.sched =
        { s.sched with halted := true } ∧
      Logged Obj.inputState 1 0 0xFF 0 (leBytes 4 mv) s t ∧ Untouched logCounters s t ∧
      t = { s with od := t.od, sched := t.sched, power := t.power, beagle := t.beagle, log := t.log }) ∧
  (∀ (mv : Nat) (s : State), 430000 ≤ mv ∧ mv ≤ 450000 → s.dev.state ≠ 0 → s.power.switchOpen = false →
    ∃ t, exec (.overVoltage mv) s = .next t ∧
      t.power.switchOpen = true ∧ t.power.mv = mv ∧ t.power.input = 3 ∧ CountedOnly Obj.overvoltageCutouts s t ∧
      (s.power.input ≠ 3 → t.power = { s.power with mv, switchOpen := true, input := 3, lossBeat := some (s.beat - 500000) }
        ∧ t.sched = { s.sched with halted := true }) ∧
      (s.power.input = 3 → t.power = { s.power with mv, switchOpen := true } ∧ t.sched = s.sched ∧ Logged
        Obj.overvoltageCutouts 1 0 0xFF 0 (leBytes 4 mv) s t) ∧
      t = { s with od := t.od, sched := t.sched, power := t.power, beagle := t.beagle, log := t.log }) ∧
  (∀ (mv : Nat) (s : State), 450000 < mv → exec (.overVoltage mv) s = .fault .beyondAbsoluteMaximum) ∧
  (∀ (mv b : Nat) (s : State), s.power.lossBeat = some b → s.power.input = 3 → 260000 ≤ mv → s.power.switchOpen = false →
    s.beat < b + 5000000 →
    ∃ t, exec (.rideThrough mv) s = .next t ∧
      t.power = { s.power with mv, input := 0, lossBeat := none } ∧ t.sched = { s.sched with halted := false } ∧
      Logged Obj.rideThroughs 1 0 0xFF 0 [] s t ∧ CountedOnly Obj.rideThroughs s t ∧
      t = { s with od := t.od, sched := t.sched, power := t.power, beagle := t.beagle, log := t.log }) ∧
  (∀ (b : Nat) (s : State), s.power.lossBeat = some b → s.power.input = 3 → b + 5000000 ≤ s.beat →
    ∃ t, exec (.holdupExpiry) s = .next t ∧
      t.dev.state = 0 ∧ t.power.rails = 0 ∧ t.power.lossBeat = none ∧ t.beat = 0 ∧ t.mem = [] ∧ t.cores = [] ∧ t.wins = [] ∧
      t.config.copyA = s.config.copyA ∧ t.config.copyB = s.config.copyB ∧ t.images.store = s.images.store ∧
      t = { s with
          beat := t.beat, od := t.od, mem := t.mem, cores := t.cores, wins := t.wins, dies := t.dies
          whips := t.whips, sched := t.sched, arbs := t.arbs, strings := t.strings, tiles := t.tiles, bus := t.bus
          tags := t.tags, harps := t.harps, domains := t.domains, sounding := t.sounding, dram := t.dram
          ports := t.ports, fabric := t.fabric, rmem := t.rmem, retr := t.retr, serve := t.serve, images := t.images
          time := t.time, config := t.config, dev := t.dev, pair := t.pair, ens := t.ens, pod := t.pod
          tallies := t.tallies, power := t.power, therm := t.therm, cvus := t.cvus, kat := t.kat, test := t.test
          beagle := t.beagle, log := t.log, bad := t.bad }) ∧
  (∀ (s : State), s.dev.state ≠ 0 → s.power.input ≠ 3 →
    ∃ t, exec (.currentLimitExpiry) s = .next t ∧
      t.power = { s.power with input := 3, lossBeat := some (s.beat - 500000) } ∧ t.sched = { s.sched with halted := true } ∧
      Logged Obj.inputState 1 0 0xFF 0 (leBytes 4 s.power.mv) s t ∧ Untouched logCounters s t ∧
      t = { s with od := t.od, sched := t.sched, power := t.power, beagle := t.beagle, log := t.log }) ∧
  (∀ (site : SiteId) (die : Fin 14) (kind : Nat) (reading model : List Int) (s : State), dieKind site.val die.val = some kind
    → s.dev.state ≠ 0 → reading.length = sensorCount site.val die.val → model.length = sensorCount site.val die.val →
    sampleDue s kind (s.thermDie site.val die.val) = true →
    ∃ t, exec (.thermalSample site die reading model) s = .next t ∧
      (t.thermDie site.val die.val).reading = reading ∧ (t.thermDie site.val die.val).model = model ∧ (t.thermDie site.val
        die.val).sampled = s.beat ∧
      (t.thermDie site.val die.val).level =
        nextLevel kind (temperature (t.thermDie site.val die.val)) (s.thermDie site.val die.val).level ∧
      (∀ x y, 16 * x + y ≠ 16 * site.val + die.val → t.thermDie x y = s.thermDie x y) ∧
      ((t.thermDie site.val die.val).level = (s.thermDie site.val die.val).level →
        Untouched (Obj.verticalOrderEvents :: logCounters) s t ∧ t =
          { s with od := t.od, therm := { s.therm with dies := t.therm.dies }, beagle := t.beagle, log := t.log }) ∧
      t = { s with
          beat := t.beat, od := t.od, mem := t.mem, cores := t.cores, wins := t.wins, dies := t.dies
          whips := t.whips, sched := t.sched, arbs := t.arbs, strings := t.strings, tiles := t.tiles, bus := t.bus
          tags := t.tags, harps := t.harps, domains := t.domains, sounding := t.sounding, dram := t.dram
          ports := t.ports, fabric := t.fabric, rmem := t.rmem, retr := t.retr, serve := t.serve, images := t.images
          time := t.time, config := t.config, dev := t.dev, pod := t.pod, power := t.power, therm := t.therm
          cvus := t.cvus, kat := t.kat, test := t.test, beagle := t.beagle, log := t.log, bad := t.bad, out := t.out
          free := t.free }) ∧
  (∀ (die : DieId) (x : Nat) (s : State), (s.die die.val).ceilBeat + 50000 ≤ s.beat → (s.die die.val).thermCeil = some x →
    120 < x → (controlling s die.val).any (fun y => decide (((thresholds y.1).2.2.1 : Int) ≤ y.2)) = true →
    ∃ t, exec (.ceilingStep die) s = .next t ∧
      (t.die die.val).thermCeil = some (max 120 (x - 10 * s.obj Obj.slewLimitW)) ∧ (t.die die.val).ceilBeat = s.beat ∧
      (∀ m, m ≠ die.val → t.die m = s.die m) ∧ t.die die.val =
        { s.die die.val with thermCeil := (t.die die.val).thermCeil, capCeil := (t.die die.val).capCeil, ceilBeat := s.beat }
        ∧
      t.power = { s.power with capSince := t.power.capSince } ∧ Untouched [Obj.capLimitedMs] s t ∧
      t = { s with od := t.od, dies := t.dies, power := t.power })

/-- An operation issues when its core is at the bundle that holds it, every slot of the earlier ticks has issued and the
  window's declared tick is ahead. When VADD, VSUB, VMUL, VFMA, VMAX, VMIN, VIADD, VSEL or VL8MUL issues with no operand
  in flight and no write clash, its lane-wise result is due in vd after the latency of R68, its flags are raised, its
  activity is counted, and no other register, field of the core, core or part of the state changes. NOP and VNOP change
  nothing but that their slot has issued. When VEXP2, VLOG2, VRCP, VRSQRT, VRSUM, VRMAX, VBCAST, VCVT, VCVTI, VCVTF,
  VL8ENC, VL8DEC or ACC2V issues with its operands in and no write clash, its result is due in vd after the latency of
  R68 and its flags are raised; nothing else changes. A VCVT to TRIT5, to a reserved format, or stochastic to a format
  without stochastic rounding ends the window with FORMAT. -/
def Obligations.VectorOperations : Prop :=
  (∀ (i : Issue) (u : SlotUse) (vd va vb : VReg) (a b : List W32) (s : State), u = useVec 0x01 vd.val [va.val, vb.val] →
    Issues i u s → Operand i u s va a → Operand i u s vb b → NoClash i u s vd 4 →
    ∃ t, exec (.vadd i vd va vb) s = .next t ∧
      VectorResult i u vd 4 (lanes2 (f32Add (issuedCore i u s).ftz) a b) s t) ∧
  (∀ (i : Issue) (u : SlotUse) (vd va vb : VReg) (a b : List W32) (s : State), u = useVec 0x02 vd.val [va.val, vb.val] →
    Issues i u s → Operand i u s va a → Operand i u s vb b → NoClash i u s vd 4 →
    ∃ t, exec (.vsub i vd va vb) s = .next t ∧
      VectorResult i u vd 4 (lanes2 (f32Sub (issuedCore i u s).ftz) a b) s t) ∧
  (∀ (i : Issue) (u : SlotUse) (vd va vb : VReg) (a b : List W32) (s : State), u = useVec 0x03 vd.val [va.val, vb.val] →
    Issues i u s → Operand i u s va a → Operand i u s vb b → NoClash i u s vd 4 →
    ∃ t, exec (.vmul i vd va vb) s = .next t ∧
      VectorResult i u vd 4 (lanes2 (f32Mul (issuedCore i u s).ftz) a b) s t) ∧
  (∀ (i : Issue) (u : SlotUse) (vd va vb vc : VReg) (a b c : List W32) (s : State), u = useVec 0x04 vd.val [va.val, vb.val,
    vc.val] → Issues i u s → Operand i u s va a → Operand i u s vb b → Operand i u s vc c → NoClash i u s vd 4 →
    ∃ t, exec (.vfma i vd va vb vc) s = .next t ∧
      VectorResult i u vd 4 (lanes3 (f32Fma (issuedCore i u s).ftz) a b c) s t) ∧
  (∀ (i : Issue) (u : SlotUse) (vd va vb : VReg) (a b : List W32) (s : State), u = useVec 0x05 vd.val [va.val, vb.val] →
    Issues i u s → Operand i u s va a → Operand i u s vb b → NoClash i u s vd 2 →
    ∃ t, exec (.vmax i vd va vb) s = .next t ∧
      VectorResult i u vd 2 (List.zipWith f32Max a b, 0) s t) ∧
  (∀ (i : Issue) (u : SlotUse) (vd va vb : VReg) (a b : List W32) (s : State), u = useVec 0x06 vd.val [va.val, vb.val] →
    Issues i u s → Operand i u s va a → Operand i u s vb b → NoClash i u s vd 2 →
    ∃ t, exec (.vmin i vd va vb) s = .next t ∧
      VectorResult i u vd 2 (List.zipWith f32Min a b, 0) s t) ∧
  (∀ (i : Issue) (u : SlotUse) (vd va vb : VReg) (a b : List W32) (s : State), u = useVec 0x11 vd.val [va.val, vb.val] →
    Issues i u s → Operand i u s va a → Operand i u s vb b → NoClash i u s vd 2 →
    ∃ t, exec (.viadd i vd va vb) s = .next t ∧
      VectorResult i u vd 2 (lanes2 i32Add a b) s t) ∧
  (∀ (i : Issue) (u : SlotUse) (vd va vb vc : VReg) (a b c : List W32) (s : State), u = useVec 0x0E vd.val [va.val, vb.val,
    vc.val] → Issues i u s → Operand i u s va a → Operand i u s vb b → Operand i u s vc c → NoClash i u s vd 2 →
    ∃ t, exec (.vsel i vd va vb vc) s = .next t ∧
      VectorResult i u vd 2 (lanes3 (fun x y z => noFlags (selLane x y z)) a b c) s t) ∧
  (∀ (i : Issue) (u : SlotUse) (vd va vb : VReg) (a b : List W32) (s : State), u = useVec 0x14 vd.val [va.val, vb.val] →
    Issues i u s → Operand i u s va a → Operand i u s vb b → NoClash i u s vd 2 →
    ∃ t, exec (.vl8mul i vd va vb) s = .next t ∧
      VectorResult i u vd 2 (lanes2 (fun x y => (BitVec.ofNat 32 (log8Mul (x.toNat % 256) (y.toNat % 256)).1, (log8Mul
        (x.toNat % 256) (y.toNat % 256)).2)) a b) s t) ∧
  (∀ (i : Issue) (u : SlotUse) (vd va : VReg) (a : List W32) (s : State), u = useVec 0x07 vd.val [va.val] → Issues i u s →
    Operand i u s va a → NoClash i u s vd 6 →
    ∃ t, exec (.vexp2 i vd va) s = .next t ∧
      VectorResult i u vd 6 (lanes1 (f32Fn exp2Val (issuedCore i u s).ftz) a) s t) ∧
  (∀ (i : Issue) (u : SlotUse) (vd va : VReg) (a : List W32) (s : State), u = useVec 0x08 vd.val [va.val] → Issues i u s →
    Operand i u s va a → NoClash i u s vd 6 →
    ∃ t, exec (.vlog2 i vd va) s = .next t ∧
      VectorResult i u vd 6 (lanes1 (f32Fn log2Val (issuedCore i u s).ftz) a) s t) ∧
  (∀ (i : Issue) (u : SlotUse) (vd va : VReg) (a : List W32) (s : State), u = useVec 0x09 vd.val [va.val] → Issues i u s →
    Operand i u s va a → NoClash i u s vd 6 →
    ∃ t, exec (.vrcp i vd va) s = .next t ∧
      VectorResult i u vd 6 (lanes1 (f32Fn rcpVal (issuedCore i u s).ftz) a) s t) ∧
  (∀ (i : Issue) (u : SlotUse) (vd va : VReg) (a : List W32) (s : State), u = useVec 0x0A vd.val [va.val] → Issues i u s →
    Operand i u s va a → NoClash i u s vd 6 →
    ∃ t, exec (.vrsqrt i vd va) s = .next t ∧
      VectorResult i u vd 6 (lanes1 (f32Fn rsqrtVal (issuedCore i u s).ftz) a) s t) ∧
  (∀ (i : Issue) (u : SlotUse) (vd va : VReg) (a : List W32) (s : State), u = useVec 0x0B vd.val [va.val] → Issues i u s →
    Operand i u s va a → NoClash i u s vd 12 →
    ∃ t, exec (.vrsum i vd va) s = .next t ∧
      VectorResult i u vd 12 (List.replicate 512 (laneTree (f32Add (issuedCore i u s).ftz) 9 a).1, (laneTree (f32Add
        (issuedCore i u s).ftz) 9 a).2) s t) ∧
  (∀ (i : Issue) (u : SlotUse) (vd va : VReg) (a : List W32) (s : State), u = useVec 0x0C vd.val [va.val] → Issues i u s →
    Operand i u s va a → NoClash i u s vd 10 →
    ∃ t, exec (.vrmax i vd va) s = .next t ∧
      VectorResult i u vd 10 (List.replicate 512 (laneTree (fun x y => noFlags (f32Max x y)) 9 a).1, 0) s t) ∧
  (∀ (i : Issue) (u : SlotUse) (vd va : VReg) (imm : BitVec 9) (a : List W32) (s : State), u = useVec 0x0D vd.val [va.val]
    [(40, 9, imm.toNat)] → Issues i u s → Operand i u s va a → NoClash i u s vd 3 →
    ∃ t, exec (.vbcast i vd va imm) s = .next t ∧
      VectorResult i u vd 3 (List.replicate 512 (a.getD imm.toNat 0), 0) s t) ∧
  (∀ (i : Issue) (u : SlotUse) (vd va vc : VReg) (fmt : BitVec 5) (sat : Bool) (conv : Fin 64) (a c : List W32) (s : State),
    u = useVec 0x0F vd.val [va.val] [(21, 5, vc.val), (26, 5, fmt.toNat), (31, 1, bitOf sat), (32, 2, bitOf false), (34, 6,
    conv.val)] → Issues i u s → fmt.toNat ≠ fmtTRIT5 → fmtSupported fmt.toNat = true → Operand i u s va a → Operand i u s vc
    c → NoClash i u s vd 3 →
    ∃ t, exec (.vcvt i vd va vc fmt { sat, stoch := false, conv }) s = .next t ∧
      VectorResult i u vd 3 (vcvtLanes fmt.toNat (fun _ => .rne) sat (issuedCore i u s).ftz a) s t) ∧
  (∀ (i : Issue) (u : SlotUse) (vd va vc : VReg) (fmt : BitVec 5) (sat : Bool) (conv : Fin 64) (a c : List W32) (s : State),
    u = useVec 0x0F vd.val [va.val] [(21, 5, vc.val), (26, 5, fmt.toNat), (31, 1, bitOf sat), (32, 2, bitOf true), (34, 6,
    conv.val)] → Issues i u s → stochAllowed fmt.toNat = true → fmt.toNat ≠ fmtTRIT5 → fmtSupported fmt.toNat = true →
    Operand i u s va a → Operand i u s vc c → NoClash i u s vd 3 →
    ∃ t, exec (.vcvt i vd va vc fmt { sat, stoch := true, conv }) s = .next t ∧
      VectorResult i u vd 3 (vcvtLanes fmt.toNat
      (cvtMode { sat, stoch := true, conv } (windowSeeds (issued i u s) i.core.val 0).1 (windowSeeds (issued i u s)
        i.core.val 0).2
        ((issuedCore i u s).convId conv) (c.headD 0).toNat 0) sat (issuedCore i u s).ftz a) s t) ∧
  (∀ (i : Issue) (u : SlotUse) (vd va vc : VReg) (fmt : BitVec 5) (m : CvtMode) (s : State), u = useVec 0x0F vd.val [va.val]
    [(21, 5, vc.val), (26, 5, fmt.toNat), (31, 1, bitOf m.sat), (32, 2, bitOf m.stoch), (34, 6, m.conv.val)] → Issues i u s →
    fmt.toNat = fmtTRIT5 ∨ fmtSupported fmt.toNat = false ∨ (m.stoch = true ∧ stochAllowed fmt.toNat = false) →
    ∃ t, exec (.vcvt i vd va vc fmt m) s = .next t ∧
      t = endCore i.core.val exitFORMAT (issued i u s)) ∧
  (∀ (i : Issue) (u : SlotUse) (vd va : VReg) (a : List W32) (s : State), u = useVec 0x12 vd.val [va.val] → Issues i u s →
    Operand i u s va a → NoClash i u s vd 3 →
    ∃ t, exec (.vcvti i vd va) s = .next t ∧
      VectorResult i u vd 3 (lanes1 intOfF32 a) s t) ∧
  (∀ (i : Issue) (u : SlotUse) (vd va : VReg) (a : List W32) (s : State), u = useVec 0x13 vd.val [va.val] → Issues i u s →
    Operand i u s va a → NoClash i u s vd 3 →
    ∃ t, exec (.vcvtf i vd va) s = .next t ∧
      VectorResult i u vd 3 (lanes1 f32OfInt a) s t) ∧
  (∀ (i : Issue) (u : SlotUse) (vd va : VReg) (a : List W32) (s : State), u = useVec 0x15 vd.val [va.val] → Issues i u s →
    Operand i u s va a → NoClash i u s vd 3 →
    ∃ t, exec (.vl8enc i vd va) s = .next t ∧
      VectorResult i u vd 3 (lanes1 (fun x => (BitVec.ofNat 32 (log8Encode (f32 x)).1, (log8Encode (f32 x)).2)) a) s t) ∧
  (∀ (i : Issue) (u : SlotUse) (vd va : VReg) (a : List W32) (s : State), u = useVec 0x16 vd.val [va.val] → Issues i u s →
    Operand i u s va a → NoClash i u s vd 3 →
    ∃ t, exec (.vl8dec i vd va) s = .next t ∧
      VectorResult i u vd 3 (lanes1 (fun x => toF32 (issuedCore i u s).ftz (log8Decode (x.toNat % 256))) a) s t) ∧
  (∀ (i : Issue) (u : SlotUse) (vd : VReg) (imm : BitVec 9) (s : State), u = useVec 0x10 vd.val [] [(40, 9, imm.toNat)] →
    Issues i u s → ((issuedCore i u s).accRow (bitsAt imm.toNat 6 2) (bitsAt imm.toNat 0 6)).ready ≤ issueTick i s → NoClash
    i u s vd 2 →
    ∃ t, exec (.acc2v i vd imm) s = .next t ∧
      VectorResult i u vd 2 (((issuedCore i u s).accRow (bitsAt imm.toNat 6 2) (bitsAt imm.toNat 0 6)).vals, 0) s t) ∧
  (∀ (i : Issue) (u : SlotUse) (s : State), u = { slot := 7, op := 0 } → Issues i u s →
    ∃ t, exec (.noOperation i) s = .next t ∧
      t = issued i u s) ∧
  (∀ (i : Issue) (u : SlotUse) (s : State), u = { slot := 8, op := 0 } → Issues i u s →
    ∃ t, exec (.vnop i) s = .next t ∧
      t = issued i u s)

/-- An MMA or MMZ that issues while the matrix slot is free takes the queue head as its first row: the accumulator row is
  the panel product added group by group to the row (MMA) or to zeros (MMZ), ready 12 ticks later, the slot is busy for
  count ticks, and the flags and MACs are noted. ACLR writes count rows of +0, tagged by the pair. With swap the usable
  shadow panel becomes the active one first. Every other accumulator row and everything else stays. A busy slot, or a
  swap with no usable shadow panel, ends the window with HAZARD; a pair that the array does not accept with FORMAT. -/
def Obligations.MatrixSlot : Prop :=
  (∀ (i : Issue) (u : SlotUse) (fa fb : BitVec 5) (bank : Fin 4) (row count : Fin 64) (tag : AccTag) (depth : Nat) (r : Row)
    (rest : List Row) (p : Panel) (s : State), u = useMx 1 fa.toNat fb.toNat bank.val row.val count.val false → Issues i u s
    → (issuedCore i u s).mxBusy ≤ issueTick i s → ∀ x ∈ (issuedCore i u s).outs, issueTick i s < x.start + x.done → pairClass
    fa.toNat fb.toNat = some (tag, depth) → (issuedCore i u s).queue = r :: rest → r.usable ≤ issueTick i s → r.fmt =
    fa.toNat → (issuedCore i u s).active = p → p.fmt = some fb.toNat → ((issuedCore i u s).accRow bank.val row.val).tag =
    .untagged ∨ ((issuedCore i u s).accRow bank.val row.val).tag = tag → ((issuedCore i u s).accRow bank.val row.val).ready ≤
    issueTick i s →
    ∃ t, exec (.mma i fa fb bank row count false) s = .next t ∧
      (t.core i.core.val).accRow bank.val row.val =
        { tag := ((issuedCore i u s).accRow bank.val row.val).tag, vals := (rowUpdate (issuedCore i u s).ftz tag r p depth ((issuedCore i u s).accRow bank.val row.val).vals).1, ready := issueTick i s + 12 }
        ∧
      t.core i.core.val = { issuedCore i u s with acc := (t.core i.core.val).acc, queue := rest, active := p, mxBusy := issueTick i s + (count.val + 1), mx := (t.core i.core.val).mx, astat := (issuedCore i u s).astat ||| BitVec.ofNat 16 ((rowUpdate (issuedCore i u s).ftz tag r p depth ((issuedCore i u s).accRow bank.val row.val).vals).2 % 128), acts := tset (macClass depth) (tget 0 (macClass depth) (issuedCore i u s).acts + 192 * depth) (issuedCore i u s).acts }
        ∧
      ((t.core i.core.val).mx = none ↔ count.val = 0) ∧
      (∀ b r, 64 * b + r % 64 ≠ 64 * bank.val + row.val → (t.core i.core.val).accRow b r = (issuedCore i u s).accRow b r) ∧
        OnlyCore i.core.val (issued i u s) t) ∧
  (∀ (i : Issue) (u : SlotUse) (fa fb : BitVec 5) (bank : Fin 4) (row count : Fin 64) (tag : AccTag) (depth : Nat) (r : Row)
    (rest : List Row) (p : Panel) (s : State), u = useMx 1 fa.toNat fb.toNat bank.val row.val count.val true → Issues i u s →
    (issuedCore i u s).mxBusy ≤ issueTick i s → ∀ x ∈ (issuedCore i u s).outs, issueTick i s < x.start + x.done → pairClass
    fa.toNat fb.toNat = some (tag, depth) → (issuedCore i u s).queue = r :: rest → r.usable ≤ issueTick i s → r.fmt =
    fa.toNat → (issuedCore i u s).shadow = some p → p.usable ≤ issueTick i s → p.fmt = some fb.toNat → ((issuedCore i u
    s).accRow bank.val row.val).tag = .untagged ∨ ((issuedCore i u s).accRow bank.val row.val).tag = tag → ((issuedCore i u
    s).accRow bank.val row.val).ready ≤ issueTick i s →
    ∃ t, exec (.mma i fa fb bank row count true) s = .next t ∧
      (t.core i.core.val).accRow bank.val row.val =
        { tag := ((issuedCore i u s).accRow bank.val row.val).tag, vals := (rowUpdate (issuedCore i u s).ftz tag r p depth ((issuedCore i u s).accRow bank.val row.val).vals).1, ready := issueTick i s + 12 }
        ∧
      t.core i.core.val = { issuedCore i u s with acc := (t.core i.core.val).acc, queue := rest, active := p, shadow := none, mxBusy := issueTick i s + (count.val + 1), mx := (t.core i.core.val).mx, astat := (issuedCore i u s).astat ||| BitVec.ofNat 16 ((rowUpdate (issuedCore i u s).ftz tag r p depth ((issuedCore i u s).accRow bank.val row.val).vals).2 % 128), acts := tset (macClass depth) (tget 0 (macClass depth) (issuedCore i u s).acts + 192 * depth) (issuedCore i u s).acts }
        ∧
      ((t.core i.core.val).mx = none ↔ count.val = 0) ∧
      (∀ b r, 64 * b + r % 64 ≠ 64 * bank.val + row.val → (t.core i.core.val).accRow b r = (issuedCore i u s).accRow b r) ∧
        OnlyCore i.core.val (issued i u s) t) ∧
  (∀ (i : Issue) (u : SlotUse) (fa fb : BitVec 5) (bank : Fin 4) (row count : Fin 64) (tag : AccTag) (depth : Nat) (r : Row)
    (rest : List Row) (p : Panel) (s : State), u = useMx 2 fa.toNat fb.toNat bank.val row.val count.val false → Issues i u s
    → (issuedCore i u s).mxBusy ≤ issueTick i s → ∀ x ∈ (issuedCore i u s).outs, issueTick i s < x.start + x.done → pairClass
    fa.toNat fb.toNat = some (tag, depth) → (issuedCore i u s).queue = r :: rest → r.usable ≤ issueTick i s → r.fmt =
    fa.toNat → (issuedCore i u s).active = p → p.fmt = some fb.toNat →
    ∃ t, exec (.mmz i fa fb bank row count false) s = .next t ∧
      (t.core i.core.val).accRow bank.val row.val =
        { tag := tag, vals := (rowUpdate (issuedCore i u s).ftz tag r p depth (List.replicate 192 0)).1, ready := issueTick i s + 12 }
        ∧
      t.core i.core.val = { issuedCore i u s with acc := (t.core i.core.val).acc, queue := rest, active := p, mxBusy := issueTick i s + (count.val + 1), mx := (t.core i.core.val).mx, astat := (issuedCore i u s).astat ||| BitVec.ofNat 16 ((rowUpdate (issuedCore i u s).ftz tag r p depth (List.replicate 192 0)).2 % 128), acts := tset (macClass depth) (tget 0 (macClass depth) (issuedCore i u s).acts + 192 * depth) (issuedCore i u s).acts }
        ∧
      ((t.core i.core.val).mx = none ↔ count.val = 0) ∧
      (∀ b r, 64 * b + r % 64 ≠ 64 * bank.val + row.val → (t.core i.core.val).accRow b r = (issuedCore i u s).accRow b r) ∧
        OnlyCore i.core.val (issued i u s) t) ∧
  (∀ (i : Issue) (u : SlotUse) (fa fb : BitVec 5) (bank : Fin 4) (row count : Fin 64) (tag : AccTag) (depth : Nat) (r : Row)
    (rest : List Row) (p : Panel) (s : State), u = useMx 2 fa.toNat fb.toNat bank.val row.val count.val true → Issues i u s →
    (issuedCore i u s).mxBusy ≤ issueTick i s → ∀ x ∈ (issuedCore i u s).outs, issueTick i s < x.start + x.done → pairClass
    fa.toNat fb.toNat = some (tag, depth) → (issuedCore i u s).queue = r :: rest → r.usable ≤ issueTick i s → r.fmt =
    fa.toNat → (issuedCore i u s).shadow = some p → p.usable ≤ issueTick i s → p.fmt = some fb.toNat →
    ∃ t, exec (.mmz i fa fb bank row count true) s = .next t ∧
      (t.core i.core.val).accRow bank.val row.val =
        { tag := tag, vals := (rowUpdate (issuedCore i u s).ftz tag r p depth (List.replicate 192 0)).1, ready := issueTick i s + 12 }
        ∧
      t.core i.core.val = { issuedCore i u s with acc := (t.core i.core.val).acc, queue := rest, active := p, shadow := none, mxBusy := issueTick i s + (count.val + 1), mx := (t.core i.core.val).mx, astat := (issuedCore i u s).astat ||| BitVec.ofNat 16 ((rowUpdate (issuedCore i u s).ftz tag r p depth (List.replicate 192 0)).2 % 128), acts := tset (macClass depth) (tget 0 (macClass depth) (issuedCore i u s).acts + 192 * depth) (issuedCore i u s).acts }
        ∧
      ((t.core i.core.val).mx = none ↔ count.val = 0) ∧
      (∀ b r, 64 * b + r % 64 ≠ 64 * bank.val + row.val → (t.core i.core.val).accRow b r = (issuedCore i u s).accRow b r) ∧
        OnlyCore i.core.val (issued i u s) t) ∧
  (∀ (i : Issue) (u : SlotUse) (fa fb : BitVec 5) (bank : Fin 4) (row count : Fin 64) (tag : AccTag) (depth : Nat) (s :
    State), u = useMx 3 fa.toNat fb.toNat bank.val row.val count.val false → Issues i u s → (issuedCore i u s).mxBusy ≤
    issueTick i s → pairClass fa.toNat fb.toNat = some (tag, depth) →
    ∃ t, exec (.aclr i fa fb bank row ⟨count, false⟩) s = .next t ∧
      (∀ j, j ≤ count.val → (t.core i.core.val).accRow bank.val (row.val + j) =
        { tag, vals := List.replicate 192 0, ready := issueTick i s + j + 1 }) ∧
      (∀ b r, (∀ j, j ≤ count.val → 64 * b + r % 64 ≠ 64 * bank.val + (row.val + j) % 64) → (t.core i.core.val).accRow b r =
        (issuedCore i u s).accRow b r) ∧
      t.core i.core.val = { issuedCore i u s with acc := (t.core i.core.val).acc, mxBusy := issueTick i s + (count.val + 1) }
        ∧ OnlyCore i.core.val (issued i u s) t) ∧
  (∀ (i : Issue) (u : SlotUse) (fa fb : BitVec 5) (bank : Fin 4) (row count : Fin 64) (tag : AccTag) (depth : Nat) (p :
    Panel) (s : State), u = useMx 3 fa.toNat fb.toNat bank.val row.val count.val true → Issues i u s → (issuedCore i u
    s).mxBusy ≤ issueTick i s → pairClass fa.toNat fb.toNat = some (tag, depth) → (issuedCore i u s).shadow = some p →
    p.usable ≤ issueTick i s →
    ∃ t, exec (.aclr i fa fb bank row ⟨count, true⟩) s = .next t ∧
      (∀ j, j ≤ count.val → (t.core i.core.val).accRow bank.val (row.val + j) =
        { tag, vals := List.replicate 192 0, ready := issueTick i s + j + 1 }) ∧
      (∀ b r, (∀ j, j ≤ count.val → 64 * b + r % 64 ≠ 64 * bank.val + (row.val + j) % 64) → (t.core i.core.val).accRow b r =
        (issuedCore i u s).accRow b r) ∧
      t.core i.core.val = { issuedCore i u s with acc := (t.core i.core.val).acc, mxBusy := issueTick i s + (count.val + 1), active := p, shadow := none }
        ∧ OnlyCore i.core.val (issued i u s) t) ∧
  (∀ (i : Issue) (u : SlotUse) (fa fb : BitVec 5) (bank : Fin 4) (row count : Fin 64) (swap : Bool) (s : State), u = useMx 1
    fa.toNat fb.toNat bank.val row.val count.val swap → Issues i u s → issueTick i s < (issuedCore i u s).mxBusy ∨
    ((pairClass fa.toNat fb.toNat).isSome = true ∧ swap = true ∧ ∀ p ∈ (issuedCore i u s).shadow, issueTick i s < p.usable) →
    ∃ t, exec (.mma i fa fb bank row count swap) s = .next t ∧
      t = endCore i.core.val exitHAZARD (issued i u s)) ∧
  (∀ (i : Issue) (u : SlotUse) (fa fb : BitVec 5) (bank : Fin 4) (row count : Fin 64) (swap : Bool) (s : State), u = useMx 1
    fa.toNat fb.toNat bank.val row.val count.val swap → Issues i u s → (issuedCore i u s).mxBusy ≤ issueTick i s → pairClass
    fa.toNat fb.toNat = none →
    ∃ t, exec (.mma i fa fb bank row count swap) s = .next t ∧
      t = endCore i.core.val exitFORMAT (issued i u s)) ∧
  (∀ (i : Issue) (u : SlotUse) (fa fb : BitVec 5) (bank : Fin 4) (row count : Fin 64) (swap : Bool) (s : State), u = useMx 2
    fa.toNat fb.toNat bank.val row.val count.val swap → Issues i u s → issueTick i s < (issuedCore i u s).mxBusy ∨
    ((pairClass fa.toNat fb.toNat).isSome = true ∧ swap = true ∧ ∀ p ∈ (issuedCore i u s).shadow, issueTick i s < p.usable) →
    ∃ t, exec (.mmz i fa fb bank row count swap) s = .next t ∧
      t = endCore i.core.val exitHAZARD (issued i u s)) ∧
  (∀ (i : Issue) (u : SlotUse) (fa fb : BitVec 5) (bank : Fin 4) (row count : Fin 64) (swap : Bool) (s : State), u = useMx 2
    fa.toNat fb.toNat bank.val row.val count.val swap → Issues i u s → (issuedCore i u s).mxBusy ≤ issueTick i s → pairClass
    fa.toNat fb.toNat = none →
    ∃ t, exec (.mmz i fa fb bank row count swap) s = .next t ∧
      t = endCore i.core.val exitFORMAT (issued i u s)) ∧
  (∀ (i : Issue) (u : SlotUse) (fa fb : BitVec 5) (bank : Fin 4) (row count : Fin 64) (swap : Bool) (s : State), u = useMx 3
    fa.toNat fb.toNat bank.val row.val count.val swap → Issues i u s → issueTick i s < (issuedCore i u s).mxBusy ∨
    ((pairClass fa.toNat fb.toNat).isSome = true ∧ swap = true ∧ ∀ p ∈ (issuedCore i u s).shadow, issueTick i s < p.usable) →
    ∃ t, exec (.aclr i fa fb bank row ⟨count, swap⟩) s = .next t ∧
      t = endCore i.core.val exitHAZARD (issued i u s)) ∧
  (∀ (i : Issue) (u : SlotUse) (fa fb : BitVec 5) (bank : Fin 4) (row count : Fin 64) (swap : Bool) (s : State), u = useMx 3
    fa.toNat fb.toNat bank.val row.val count.val swap → Issues i u s → (issuedCore i u s).mxBusy ≤ issueTick i s → pairClass
    fa.toNat fb.toNat = none →
    ∃ t, exec (.aclr i fa fb bank row ⟨count, swap⟩) s = .next t ∧
      t = endCore i.core.val exitFORMAT (issued i u s))

/-- A stream-in operation that issues with a free channel and a readable range puts what it read in the shadow panel
  (PANEL), behind the activation queue (ROWS) or in a vector register (VLOAD), usable after the latency and rate of its
  space; the channel is held until then, its bytes are counted, and with adv the cursor advances by the step. Lanes of a
  VLOAD beyond the row are free values. Of the rest only counters of corrected errors and of merged reads, the die's
  merge window and the count of drawn values may change. No free channel, a full queue or an occupied shadow panel ends
  the window with HAZARD, a VLOAD of TRIT5 with FORMAT, and a range that cannot be read with the code that the read
  gives. A VSTORE that issues with a free channel and a writable destination leaves its lanes, converted by nearest even
  or stochastically, on their way to memory, visible after the space write latency and rate, holds the channel for a
  tick and advances the cursor with adv; an ASTORE does so with its first row at the issue tick and holds the channel
  for its count of ticks. Memory does not change before the writes are visible, and nothing but the core changes. No
  free channel ends the window with HAZARD; a destination of TRIT5, or stochastic rounding to a format without it, with
  FORMAT. -/
def Obligations.Streams : Prop :=
  (∀ (i : Issue) (u : SlotUse) (desc : Fin 32) (row : W16) (adv : Bool) (usable depth : Nat) (cols : List Row) (f : Flags) (s
    : State), u = useIn 1 desc.val row.toNat adv [] → Issues i u s → (issuedCore i u s).shadow = none → inFree (issuedCore i
    u s) (issueTick i s) = true → depth = panelDepth (issuedCore i u s).kernel (issuedCore i u s).bundle (dFmt ((issuedCore i
    u s).desc desc.val)) true → usable = issueTick i s + readLatency (dSpace ((issuedCore i u s).desc desc.val)) + ceilDiv
    (dRows ((issuedCore i u s).desc desc.val) * rowBytes (dFmt ((issuedCore i u s).desc desc.val)) depth) (readRate (issued i
    u s) i.core.val (dSpace ((issuedCore i u s).desc desc.val))) → readRows (issued i u s) i.core.val ((issuedCore i u
    s).desc desc.val) (tget 0 desc.val (issuedCore i u s).cursors) depth 0 (fun _ => usable) (dRows ((issuedCore i u s).desc
    desc.val)) row.toNat = .ok (cols, f) →
    ∃ t, exec (.panel i desc row adv) s = .next t ∧
      tget 0 desc.val (t.core i.core.val).cursors = (tget 0 desc.val (issuedCore i u s).cursors) + (if adv then dStep
        ((issuedCore i u s).desc desc.val) else 0) ∧ (adv = false → (t.core i.core.val).cursors = (issuedCore i u s).cursors)
        ∧
      t.core i.core.val = { issuedCore i u s with shadow := some { fmt := some (dFmt ((issuedCore i u s).desc desc.val)), cols, usable }, inBusy := (issuedCore i u s).inBusy.filter (issueTick i s < ·) ++ [usable], cursors := (t.core i.core.val).cursors, astat := (issuedCore i u s).astat ||| BitVec.ofNat 16 (f % 128), acts := tset (spaceAct (dSpace ((issuedCore i u s).desc desc.val))) (tget 0 (spaceAct (dSpace ((issuedCore i u s).desc desc.val))) (issuedCore i u s).acts + (dRows ((issuedCore i u s).desc desc.val) * rowBytes (dFmt ((issuedCore i u s).desc desc.val)) depth)) (issuedCore i u s).acts }
        ∧
      (∀ m, m ≠ i.core.val → t.core m = (issued i u s).core m) ∧ (∀ d, d ≠ coreDie i.core.val → t.die d = (issued i u s).die
        d) ∧
      t.die (coreDie i.core.val) = { (issued i u s).die (coreDie i.core.val) with merges := (t.die (coreDie i.core.val)).merges }
        ∧
      Untouched [Obj.mergedReads, Obj.sramCorrected, Obj.sbCorrected] (issued i u s) t ∧ t =
        { issued i u s with od := t.od, cores := t.cores, dies := t.dies, free := t.free }) ∧
  (∀ (i : Issue) (u : SlotUse) (desc : Fin 32) (row : W16) (count : Fin 64) (adv : Bool) (usable depth : Nat) (rows : List
    Row) (f : Flags) (s : State), u = useIn 2 desc.val row.toNat adv [(9, 6, count.val)] → Issues i u s → (issuedCore i u
    s).queue.length + (count.val + 1) ≤ 64 → inFree (issuedCore i u s) (issueTick i s) = true → depth = panelDepth
    (issuedCore i u s).kernel (issuedCore i u s).bundle (dFmt ((issuedCore i u s).desc desc.val)) false → usable = issueTick
    i s + readLatency (dSpace ((issuedCore i u s).desc desc.val)) + ceilDiv (rowBytes (dFmt ((issuedCore i u s).desc
    desc.val)) depth * (count.val + 1)) (readRate (issued i u s) i.core.val (dSpace ((issuedCore i u s).desc desc.val))) →
    readRows (issued i u s) i.core.val ((issuedCore i u s).desc desc.val) (tget 0 desc.val (issuedCore i u s).cursors) depth
    0
      (fun j => issueTick i s + readLatency (dSpace ((issuedCore i u s).desc desc.val)) + ceilDiv (rowBytes (dFmt
        ((issuedCore i u s).desc desc.val)) depth * (j + 1)) (readRate (issued i u s) i.core.val (dSpace ((issuedCore i u
        s).desc desc.val)))) (count.val + 1) row.toNat = .ok (rows, f) →
    ∃ t, exec (.rows i desc row count adv) s = .next t ∧
      tget 0 desc.val (t.core i.core.val).cursors = (tget 0 desc.val (issuedCore i u s).cursors) + (if adv then dStep
        ((issuedCore i u s).desc desc.val) else 0) ∧ (adv = false → (t.core i.core.val).cursors = (issuedCore i u s).cursors)
        ∧
      t.core i.core.val = { issuedCore i u s with queue := (issuedCore i u s).queue ++ rows, inBusy := (issuedCore i u s).inBusy.filter (issueTick i s < ·) ++ [usable], cursors := (t.core i.core.val).cursors, astat := (issuedCore i u s).astat ||| BitVec.ofNat 16 (f % 128), acts := tset (spaceAct (dSpace ((issuedCore i u s).desc desc.val))) (tget 0 (spaceAct (dSpace ((issuedCore i u s).desc desc.val))) (issuedCore i u s).acts + (rowBytes (dFmt ((issuedCore i u s).desc desc.val)) depth * (count.val + 1))) (issuedCore i u s).acts }
        ∧
      (∀ m, m ≠ i.core.val → t.core m = (issued i u s).core m) ∧ (∀ d, d ≠ coreDie i.core.val → t.die d = (issued i u s).die
        d) ∧
      t.die (coreDie i.core.val) = { (issued i u s).die (coreDie i.core.val) with merges := (t.die (coreDie i.core.val)).merges }
        ∧
      Untouched [Obj.mergedReads, Obj.sramCorrected, Obj.sbCorrected] (issued i u s) t ∧ t =
        { issued i u s with od := t.od, cores := t.cores, dies := t.dies, free := t.free }) ∧
  (∀ (i : Issue) (u : SlotUse) (desc : Fin 32) (row : W16) (vd : VReg) (adv : Bool) (usable : Nat) (r : Row) (f : Flags) (s :
    State), u = useIn 3 desc.val row.toNat adv [(15, 5, vd.val)] → Issues i u s → inFree (issuedCore i u s) (issueTick i s) =
    true → dFmt ((issuedCore i u s).desc desc.val) ≠ fmtTRIT5 → usable = issueTick i s + readLatency (dSpace ((issuedCore i u
    s).desc desc.val)) + ceilDiv (rowBytes (dFmt ((issuedCore i u s).desc desc.val)) 512) (readRate (issued i u s) i.core.val
    (dSpace ((issuedCore i u s).desc desc.val))) → readRow (issued i u s) i.core.val ((issuedCore i u s).desc desc.val) (tget
    0 desc.val (issuedCore i u s).cursors) row.toNat 512 usable = .ok (r, f) → ∀ x ∈ ((issuedCore i u s).vreg vd.val).flight,
    x.1 ≠ usable →
    ∃ t, exec (.vload i desc row vd adv) s = .next t ∧
      (∃ lanes, ((t.core i.core.val).vreg vd.val).flight = ((issuedCore i u s).vreg vd.val).flight ++ [(usable, lanes)] ∧
        ∀ e code, e < 512 → r.codes[e]? = some (some code) → lanes[e]? = some (loadLane (issuedCore i u s).ftz r e code).1) ∧
      (∀ x, x ≠ vd.val → (t.core i.core.val).vreg x = (issuedCore i u s).vreg x) ∧
      tget 0 desc.val (t.core i.core.val).cursors = (tget 0 desc.val (issuedCore i u s).cursors) + (if adv then dStep
        ((issuedCore i u s).desc desc.val) else 0) ∧ (adv = false → (t.core i.core.val).cursors = (issuedCore i u s).cursors)
        ∧
      t.core i.core.val = { issuedCore i u s with regs := (t.core i.core.val).regs, inBusy := (issuedCore i u s).inBusy.filter (issueTick i s < ·) ++ [usable], cursors := (t.core i.core.val).cursors, astat := (t.core i.core.val).astat, acts := tset (spaceAct (dSpace ((issuedCore i u s).desc desc.val))) (tget 0 (spaceAct (dSpace ((issuedCore i u s).desc desc.val))) (issuedCore i u s).acts + (rowBytes (dFmt ((issuedCore i u s).desc desc.val)) 512)) (issuedCore i u s).acts }
        ∧
      (∀ m, m ≠ i.core.val → t.core m = (issued i u s).core m) ∧ (∀ d, d ≠ coreDie i.core.val → t.die d = (issued i u s).die
        d) ∧
      t.die (coreDie i.core.val) = { (issued i u s).die (coreDie i.core.val) with merges := (t.die (coreDie i.core.val)).merges }
        ∧
      Untouched [Obj.mergedReads, Obj.sramCorrected, Obj.sbCorrected] (issued i u s) t ∧ t =
        { issued i u s with od := t.od, cores := t.cores, dies := t.dies, free := t.free }) ∧
  (∀ (i : Issue) (u : SlotUse) (desc : Fin 32) (row : W16) (adv : Bool) (s : State), u = useIn 1 desc.val row.toNat adv [] →
    Issues i u s → (issuedCore i u s).shadow ≠ none ∨ inFree (issuedCore i u s) (issueTick i s) = false →
    ∃ t, exec (.panel i desc row adv) s = .next t ∧
      t = endCore i.core.val exitHAZARD (issued i u s)) ∧
  (∀ (i : Issue) (u : SlotUse) (desc : Fin 32) (row : W16) (count : Fin 64) (adv : Bool) (s : State), u = useIn 2 desc.val
    row.toNat adv [(9, 6, count.val)] → Issues i u s → 64 < (issuedCore i u s).queue.length + (count.val + 1) ∨ inFree
    (issuedCore i u s) (issueTick i s) = false →
    ∃ t, exec (.rows i desc row count adv) s = .next t ∧
      t = endCore i.core.val exitHAZARD (issued i u s)) ∧
  (∀ (i : Issue) (u : SlotUse) (desc : Fin 32) (row : W16) (vd : VReg) (adv : Bool) (s : State), u = useIn 3 desc.val
    row.toNat adv [(15, 5, vd.val)] → Issues i u s → inFree (issuedCore i u s) (issueTick i s) = false →
    ∃ t, exec (.vload i desc row vd adv) s = .next t ∧
      t = endCore i.core.val exitHAZARD (issued i u s)) ∧
  (∀ (i : Issue) (u : SlotUse) (desc : Fin 32) (row : W16) (vd : VReg) (adv : Bool) (s : State), u = useIn 3 desc.val
    row.toNat adv [(15, 5, vd.val)] → Issues i u s → inFree (issuedCore i u s) (issueTick i s) = true → dFmt ((issuedCore i u
    s).desc desc.val) = fmtTRIT5 →
    ∃ t, exec (.vload i desc row vd adv) s = .next t ∧
      t = endCore i.core.val exitFORMAT (issued i u s)) ∧
  (∀ (i : Issue) (u : SlotUse) (desc : Fin 32) (row : W16) (adv : Bool) (e : Nat × Nat) (usable : Nat) (s : State), u = useIn
    1 desc.val row.toNat adv [] → Issues i u s → (issuedCore i u s).shadow = none → inFree (issuedCore i u s) (issueTick i s)
    = true → usable = issueTick i s + readLatency (dSpace ((issuedCore i u s).desc desc.val)) + ceilDiv (dRows ((issuedCore i
    u s).desc desc.val) * rowBytes (dFmt ((issuedCore i u s).desc desc.val)) (panelDepth (issuedCore i u s).kernel
    (issuedCore i u s).bundle (dFmt ((issuedCore i u s).desc desc.val)) true)) (readRate (issued i u s) i.core.val (dSpace
    ((issuedCore i u s).desc desc.val))) → readRows (issued i u s) i.core.val ((issuedCore i u s).desc desc.val) (tget 0
    desc.val (issuedCore i u s).cursors) (panelDepth (issuedCore i u s).kernel (issuedCore i u s).bundle (dFmt ((issuedCore i
    u s).desc desc.val)) true) 0 (fun _ => usable) (dRows ((issuedCore i u s).desc desc.val)) row.toNat = .error e →
    ∃ t, exec (.panel i desc row adv) s = .next t ∧
      t = readFailed i.core.val e (issued i u s)) ∧
  (∀ (i : Issue) (u : SlotUse) (desc : Fin 32) (row : W16) (count : Fin 64) (adv : Bool) (e : Nat × Nat) (depth : Nat) (s :
    State), u = useIn 2 desc.val row.toNat adv [(9, 6, count.val)] → Issues i u s → (issuedCore i u s).queue.length +
    (count.val + 1) ≤ 64 → inFree (issuedCore i u s) (issueTick i s) = true → depth = panelDepth (issuedCore i u s).kernel
    (issuedCore i u s).bundle (dFmt ((issuedCore i u s).desc desc.val)) false → readRows (issued i u s) i.core.val
    ((issuedCore i u s).desc desc.val) (tget 0 desc.val (issuedCore i u s).cursors) depth 0
      (fun j => issueTick i s + readLatency (dSpace ((issuedCore i u s).desc desc.val)) + ceilDiv (rowBytes (dFmt
        ((issuedCore i u s).desc desc.val)) depth * (j + 1)) (readRate (issued i u s) i.core.val (dSpace ((issuedCore i u
        s).desc desc.val)))) (count.val + 1) row.toNat = .error e →
    ∃ t, exec (.rows i desc row count adv) s = .next t ∧
      t = readFailed i.core.val e (issued i u s)) ∧
  (∀ (i : Issue) (u : SlotUse) (desc : Fin 32) (row : W16) (vd : VReg) (adv : Bool) (e : Nat × Nat) (usable : Nat) (s :
    State), u = useIn 3 desc.val row.toNat adv [(15, 5, vd.val)] → Issues i u s → inFree (issuedCore i u s) (issueTick i s) =
    true → dFmt ((issuedCore i u s).desc desc.val) ≠ fmtTRIT5 → usable = issueTick i s + readLatency (dSpace ((issuedCore i u
    s).desc desc.val)) + ceilDiv (rowBytes (dFmt ((issuedCore i u s).desc desc.val)) 512) (readRate (issued i u s) i.core.val
    (dSpace ((issuedCore i u s).desc desc.val))) → readRow (issued i u s) i.core.val ((issuedCore i u s).desc desc.val) (tget
    0 desc.val (issuedCore i u s).cursors) row.toNat 512 usable = .error e →
    ∃ t, exec (.vload i desc row vd adv) s = .next t ∧
      t = readFailed i.core.val e (issued i u s)) ∧
  (∀ (i : Issue) (u : SlotUse) (desc : Fin 32) (v : VReg) (m : CvtMode) (adv : Bool) (a : List W32) (scales codes : List Nat)
    (f : Flags) (key size : Nat) (s : State), u = useOut 1 desc.val m adv [(9, 5, v.val)] → Issues i u s → outFree
    (issuedCore i u s) (issueTick i s) = true → dFmt ((issuedCore i u s).desc desc.val) ≠ fmtTRIT5 → m.stoch = true →
    stochAllowed (dFmt ((issuedCore i u s).desc desc.val)) = true → Operand i u s v a → (if dFmt ((issuedCore i u s).desc
    desc.val) = fmtLOG8 then ([], a.map (fun w => w.toNat % 256), 0) else
      rowEncode (dFmt ((issuedCore i u s).desc desc.val)) (cvtMode m (windowSeeds (issued i u s) i.core.val 0).1 (windowSeeds
        (issued i u s) i.core.val 0).2 ((issuedCore i u s).convId m.conv.val) (a.headD 0).toNat (dIndexBase ((issuedCore i u
        s).desc desc.val))) m.sat (issuedCore i u s).ftz (a.map (laneValue (fmtInteger (dFmt ((issuedCore i u s).desc
        desc.val)))))) = (scales, codes, f) → spaceAt (issued i u s) i.core.val (dSpace ((issuedCore i u s).desc desc.val)) =
        some (key, size) → dBase ((issuedCore i u s).desc desc.val) + fmtBits (dFmt ((issuedCore i u s).desc desc.val)) *
        (tget 0 desc.val (issuedCore i u s).cursors) / 8 + (packBits (fmtBits (dFmt ((issuedCore i u s).desc desc.val)))
        codes).length ≤ size → fmtBlock (dFmt ((issuedCore i u s).desc desc.val)) = true → dScaleBase ((issuedCore i u
        s).desc desc.val) + (tget 0 desc.val (issuedCore i u s).cursors) / 32 + scales.length ≤ size →
    ∃ t, exec (.vstore i desc v m adv) s = .next t ∧
      (∃ w ∈ (t.core i.core.val).pend, w.addr = key + (dBase ((issuedCore i u s).desc desc.val) + fmtBits (dFmt ((issuedCore
        i u s).desc desc.val)) * (tget 0 desc.val (issuedCore i u s).cursors) / 8) ∧ w.data = packBits (fmtBits (dFmt
        ((issuedCore i u s).desc desc.val))) codes ∧
        w.vis = issueTick i s + writeLatency (dSpace ((issuedCore i u s).desc desc.val)) + ceilDiv ((packBits (fmtBits (dFmt
          ((issuedCore i u s).desc desc.val))) codes).length + (scales).length) (writeRate (issued i u s) i.core.val (dSpace
          ((issuedCore i u s).desc desc.val)))) ∧
      (t.core i.core.val).astat = (issuedCore i u s).astat ||| BitVec.ofNat 16 (f % 128) ∧
      tget 0 desc.val (t.core i.core.val).cursors = (tget 0 desc.val (issuedCore i u s).cursors) + (if adv then dStep
        ((issuedCore i u s).desc desc.val) else 0) ∧ (adv = false → (t.core i.core.val).cursors = (issuedCore i u s).cursors)
        ∧
      (t.core i.core.val).acts = tset (spaceAct (dSpace ((issuedCore i u s).desc desc.val))) (tget 0 (spaceAct (dSpace
        ((issuedCore i u s).desc desc.val))) (issuedCore i u s).acts + ((packBits (fmtBits (dFmt ((issuedCore i u s).desc
        desc.val))) codes).length + scales.length)) (issuedCore i u s).acts ∧
      (t.core i.core.val).outBusy = (issuedCore i u s).outBusy.filter (issueTick i s < ·) ++ [issueTick i s + 1] ∧
      (∀ x T, issueTick i s ≤ T → ((t.core i.core.val).vreg x).at T = ((issuedCore i u s).vreg x).at T) ∧
      t.core i.core.val = { issuedCore i u s with regs := (t.core i.core.val).regs, pend := (t.core i.core.val).pend, outBusy := (t.core i.core.val).outBusy, cursors := (t.core i.core.val).cursors, astat := (t.core i.core.val).astat, acts := (t.core i.core.val).acts }
        ∧ OnlyCore i.core.val (issued i u s) t) ∧
  (∀ (i : Issue) (u : SlotUse) (desc : Fin 32) (bank : Fin 4) (row count : Fin 64) (m : CvtMode) (adv : Bool) (scales codes :
    List Nat) (f : Flags) (key size : Nat) (s : State), u = useOut 2 desc.val m adv [(14, 2, bank.val), (16, 6, row.val),
    (22, 6, count.val)] → Issues i u s → outFree (issuedCore i u s) (issueTick i s) = true → dFmt ((issuedCore i u s).desc
    desc.val) ≠ fmtTRIT5 → m.stoch = true → stochAllowed (dFmt ((issuedCore i u s).desc desc.val)) = true → ∀ x ∈ (issuedCore
    i u s).outs, issueTick i s < x.start + x.done → ∀ x ∈ (issuedCore i u s).mx, issueTick i s < x.start + x.done →
    ((issuedCore i u s).accRow bank.val row.val).ready ≤ issueTick i s → rowEncode (dFmt ((issuedCore i u s).desc desc.val))
    (cvtMode m (windowSeeds (issued i u s) i.core.val row.val).1 (windowSeeds (issued i u s) i.core.val row.val).2
    ((issuedCore i u s).convId m.conv.val) ((issuedCore i u s).tokens.getD row.val 0).toNat (dIndexBase ((issuedCore i u
    s).desc desc.val))) m.sat (issuedCore i u s).ftz
      (((issuedCore i u s).accRow bank.val row.val).vals.map (laneValue (((issuedCore i u s).accRow bank.val row.val).tag ==
        .int32))) = (scales, codes, f) → spaceAt (issued i u s) i.core.val (dSpace ((issuedCore i u s).desc desc.val)) = some
        (key, size) → (dBase ((issuedCore i u s).desc desc.val) + row.val * dRowStride ((issuedCore i u s).desc desc.val) +
        fmtBits (dFmt ((issuedCore i u s).desc desc.val)) * (tget 0 desc.val (issuedCore i u s).cursors) / 8) + (packBits
        (fmtBits (dFmt ((issuedCore i u s).desc desc.val))) codes).length ≤ size → fmtBlock (dFmt ((issuedCore i u s).desc
        desc.val)) = true → dScaleBase ((issuedCore i u s).desc desc.val) + row.val * dScaleStride ((issuedCore i u s).desc
        desc.val) + (tget 0 desc.val (issuedCore i u s).cursors) / 32 + scales.length ≤ size →
    ∃ t, exec (.astore i desc bank row count m adv) s = .next t ∧
      (∃ w ∈ (t.core i.core.val).pend, w.addr = key + (dBase ((issuedCore i u s).desc desc.val) + row.val * dRowStride
        ((issuedCore i u s).desc desc.val) + fmtBits (dFmt ((issuedCore i u s).desc desc.val)) * (tget 0 desc.val (issuedCore
        i u s).cursors) / 8) ∧ w.data = packBits (fmtBits (dFmt ((issuedCore i u s).desc desc.val))) codes ∧
        w.vis = issueTick i s + writeLatency (dSpace ((issuedCore i u s).desc desc.val)) + ceilDiv ((packBits (fmtBits (dFmt
          ((issuedCore i u s).desc desc.val))) codes).length + (scales).length) (writeRate (issued i u s) i.core.val (dSpace
          ((issuedCore i u s).desc desc.val)))) ∧
      (t.core i.core.val).astat = (issuedCore i u s).astat ||| BitVec.ofNat 16 (f % 128) ∧
      tget 0 desc.val (t.core i.core.val).cursors = (tget 0 desc.val (issuedCore i u s).cursors) + (if adv then dStep
        ((issuedCore i u s).desc desc.val) else 0) ∧ (adv = false → (t.core i.core.val).cursors = (issuedCore i u s).cursors)
        ∧
      (t.core i.core.val).acts = tset (spaceAct (dSpace ((issuedCore i u s).desc desc.val))) (tget 0 (spaceAct (dSpace
        ((issuedCore i u s).desc desc.val))) (issuedCore i u s).acts + ((packBits (fmtBits (dFmt ((issuedCore i u s).desc
        desc.val))) codes).length + scales.length)) (issuedCore i u s).acts ∧
      (t.core i.core.val).outBusy = (issuedCore i u s).outBusy.filter (issueTick i s < ·) ++ [issueTick i s + (count.val +
        1)] ∧
      (t.core i.core.val).outs.length = (issuedCore i u s).outs.length + (if count.val = 0 then 0 else 1) ∧
      t.core i.core.val = { issuedCore i u s with pend := (t.core i.core.val).pend, outs := (t.core i.core.val).outs, outBusy := (t.core i.core.val).outBusy, cursors := (t.core i.core.val).cursors, astat := (t.core i.core.val).astat, acts := (t.core i.core.val).acts }
        ∧ OnlyCore i.core.val (issued i u s) t) ∧
  (∀ (i : Issue) (u : SlotUse) (desc : Fin 32) (v : VReg) (m : CvtMode) (adv : Bool) (s : State), u = useOut 1 desc.val m adv
    [(9, 5, v.val)] → Issues i u s → outFree (issuedCore i u s) (issueTick i s) = false →
    ∃ t, exec (.vstore i desc v m adv) s = .next t ∧
      t = endCore i.core.val exitHAZARD (issued i u s)) ∧
  (∀ (i : Issue) (u : SlotUse) (desc : Fin 32) (v : VReg) (m : CvtMode) (adv : Bool) (s : State), u = useOut 1 desc.val m adv
    [(9, 5, v.val)] → Issues i u s → outFree (issuedCore i u s) (issueTick i s) = true → dFmt ((issuedCore i u s).desc
    desc.val) = fmtTRIT5 ∨ (m.stoch = true ∧ stochAllowed (dFmt ((issuedCore i u s).desc desc.val)) = false) →
    ∃ t, exec (.vstore i desc v m adv) s = .next t ∧
      t = endCore i.core.val exitFORMAT (issued i u s)) ∧
  (∀ (i : Issue) (u : SlotUse) (desc : Fin 32) (bank : Fin 4) (row count : Fin 64) (m : CvtMode) (adv : Bool) (s : State), u
    = useOut 2 desc.val m adv [(14, 2, bank.val), (16, 6, row.val), (22, 6, count.val)] → Issues i u s → outFree (issuedCore
    i u s) (issueTick i s) = false →
    ∃ t, exec (.astore i desc bank row count m adv) s = .next t ∧
      t = endCore i.core.val exitHAZARD (issued i u s)) ∧
  (∀ (i : Issue) (u : SlotUse) (desc : Fin 32) (bank : Fin 4) (row count : Fin 64) (m : CvtMode) (adv : Bool) (s : State), u
    = useOut 2 desc.val m adv [(14, 2, bank.val), (16, 6, row.val), (22, 6, count.val)] → Issues i u s → outFree (issuedCore
    i u s) (issueTick i s) = true → dFmt ((issuedCore i u s).desc desc.val) = fmtTRIT5 ∨ (m.stoch = true ∧ stochAllowed (dFmt
    ((issuedCore i u s).desc desc.val)) = false) →
    ∃ t, exec (.astore i desc bank row count m adv) s = .next t ∧
      t = endCore i.core.val exitFORMAT (issued i u s))

/-- SEND to the own die leaves its payload on its way to the entry's destination; SEND and RSEND to another site hand one
  frame for each 64 bytes to the string of the path and hold a send channel until they are acknowledged; RSEND to the
  own die hands its 64-byte partials to the reduction unit there. FLAG_SET reaches the core of its own die in the tick
  after the core's last visible write, waits for open sums of its core, or goes as a frame to another die. BARRIER
  records the arrival at the participants of its die, sends one frame to each other, and sets a check at t + offset;
  BARRIER_CHECK passes with every arrival in and ends the window with LATE otherwise. FLAG_CHECK passes at or above its
  value and ends the window with LATE below it. BEAT_WAIT holds the participants until the die's replica has reached
  launch plus offset, and BEAT_WAIT_END releases them and counts the held cycles. LOOP branches back until its body has
  run the stated number of times, MARK makes a trace record where the Beagle captures it, and KERNEL_END after the
  declared tick ends the kernel. What a clause does not name stays. -/
def Obligations.SyncAndSend : Prop :=
  (∀ (i : Issue) (u : SlotUse) (entry : Fin 32) (fromDesc : Bool) (reg : Fin 32) (frames : BitVec 12) (adv : Bool) (data :
    Bytes) (f : Flags) (dst : Nat) (s : State), u = useSend 1 entry.val fromDesc reg.val frames.toNat adv → Issues i u s →
    (issuedCore i u s).sends.length < 16 → sendPayload i.core.val (issueTick i s) fromDesc reg.val (64 * (frames.toNat + 1))
    false (issued i u s) = .ok (data, f) → sendAddress (issued i u s) (fieldAt ((issuedCore i u s).kernel.sends.getD
    entry.val 0) 0 5) (fieldAt ((issuedCore i u s).kernel.sends.getD entry.val 0) 5 3) (windowSlot (issued i u s) i.core.val)
    (fieldAt ((issuedCore i u s).kernel.sends.getD entry.val 0) 32 32 + tget 0 entry.val (issuedCore i u s).sendCur) = some
    dst → fieldAt ((issuedCore i u s).kernel.sends.getD entry.val 0) 0 5 = dieSite (coreDie i.core.val) → fieldAt
    ((issuedCore i u s).kernel.sends.getD entry.val 0) 32 32 + tget 0 entry.val (issuedCore i u s).sendCur + data.length ≤
    sendLimit (issued i u s) (dieSite (coreDie i.core.val)) (fieldAt ((issuedCore i u s).kernel.sends.getD entry.val 0) 5 3)
    (windowSlot (issued i u s) i.core.val) →
    ∃ t, exec (.send i entry fromDesc reg frames adv) s = .next t ∧
      (∃ w ∈ (t.core i.core.val).pend, w.addr = memKey (dieSite (coreDie i.core.val)) dst ∧ w.data = data ∧
        w.vis = issueTick i s + writeLatency 1 + ceilDiv data.length (writeRate (issued i u s) i.core.val 1)) ∧
      (t.core i.core.val).sendCur = (if adv then tset entry.val (tget 0 entry.val (issuedCore i u s).sendCur + fieldAt
        ((issuedCore i u s).kernel.sends.getD entry.val 0) 64 32) (issuedCore i u s).sendCur else (issuedCore i u s).sendCur)
        ∧
      (t.core i.core.val).cursors = (if adv && fromDesc then tset reg.val (tget 0 reg.val (issuedCore i u s).cursors + dStep
        ((issuedCore i u s).desc reg.val)) (issuedCore i u s).cursors else (issuedCore i u s).cursors) ∧
      t.core i.core.val = { issuedCore i u s with pend := (t.core i.core.val).pend, nextChan := (issuedCore i u s).nextChan + 1, sendCur := (t.core i.core.val).sendCur, cursors := (t.core i.core.val).cursors, astat := (issuedCore i u s).astat ||| BitVec.ofNat 16 (f % 128) }
        ∧
      (∀ m, m ≠ i.core.val → t.core m = (issued i u s).core m) ∧ Untouched [Obj.sramCorrected, Obj.sbCorrected] (issued i u
        s) t ∧ t = { issued i u s with od := t.od, cores := t.cores, free := t.free }) ∧
  (∀ (i : Issue) (u : SlotUse) (entry : Fin 32) (fromDesc : Bool) (reg : Fin 32) (frames : BitVec 12) (adv : Bool) (data :
    Bytes) (f : Flags) (dst : Nat) (s : State), u = useSend 1 entry.val fromDesc reg.val frames.toNat adv → Issues i u s →
    (issuedCore i u s).sends.length < 16 → sendPayload i.core.val (issueTick i s) fromDesc reg.val (64 * (frames.toNat + 1))
    false (issued i u s) = .ok (data, f) → sendAddress (issued i u s) (fieldAt ((issuedCore i u s).kernel.sends.getD
    entry.val 0) 0 5) (fieldAt ((issuedCore i u s).kernel.sends.getD entry.val 0) 5 3) (windowSlot (issued i u s) i.core.val)
    (fieldAt ((issuedCore i u s).kernel.sends.getD entry.val 0) 32 32 + tget 0 entry.val (issuedCore i u s).sendCur) = some
    dst → fieldAt ((issuedCore i u s).kernel.sends.getD entry.val 0) 0 5 ≠ dieSite (coreDie i.core.val) → ∀ k ∈ List.range
    (frames.toNat + 1), (pathOf (issued i u s) (dieSite (coreDie i.core.val)) (fieldAt ((issuedCore i u s).kernel.sends.getD
    entry.val 0) 0 5) (dst / 64 + k)).isSome = true →
    ∃ t, exec (.send i entry fromDesc reg frames adv) s = .next t ∧
      (∀ k, k ≤ frames.toNat → ∀ m relay, pathOf (issued i u s) (dieSite (coreDie i.core.val)) (fieldAt ((issuedCore i u
        s).kernel.sends.getD entry.val 0) 0 5) (dst / 64 + k) = some (m, relay) →
        ∃ x ∈ tget [] (opClass opWRITE) (t.str m).txq, x.payload = fitBytes 64 ((data.drop (64 * k)).take 64) ∧ x.chan = some
          (i.core.val, (issuedCore i u s).nextChan) ∧
          x.slots = some (BitVec.ofNat 16 (fieldAt ((issuedCore i u s).kernel.sends.getD entry.val 0) 16 16)) ∧ x.win =
            (issuedCore i u s).win ∧ x.hdr = mkHdr opWRITE (fieldAt ((issuedCore i u s).kernel.sends.getD entry.val 0) 0 5)
            (dieSite (coreDie i.core.val)) 63 0 (dst / 64 + k) relay) ∧
      (t.core i.core.val).sendCur = (if adv then tset entry.val (tget 0 entry.val (issuedCore i u s).sendCur + fieldAt
        ((issuedCore i u s).kernel.sends.getD entry.val 0) 64 32) (issuedCore i u s).sendCur else (issuedCore i u s).sendCur)
        ∧
      (t.core i.core.val).cursors = (if adv && fromDesc then tset reg.val (tget 0 reg.val (issuedCore i u s).cursors + dStep
        ((issuedCore i u s).desc reg.val)) (issuedCore i u s).cursors else (issuedCore i u s).cursors) ∧
      t.core i.core.val = { issuedCore i u s with sends := (issuedCore i u s).sends ++ [{ id := (issuedCore i u s).nextChan, left := frames.toNat + 1 }], nextChan := (issuedCore i u s).nextChan + 1, sendCur := (t.core i.core.val).sendCur, cursors := (t.core i.core.val).cursors, astat := (issuedCore i u s).astat ||| BitVec.ofNat 16 (f % 128) }
        ∧
      (∀ m, m ≠ i.core.val → t.core m = (issued i u s).core m) ∧ (∀ m, t.str m =
        { (issued i u s).str m with txq := (t.str m).txq, enq := (t.str m).enq }) ∧
      Untouched [Obj.sramCorrected, Obj.sbCorrected] (issued i u s) t ∧ t =
        { issued i u s with od := t.od, cores := t.cores, strings := t.strings, free := t.free }) ∧
  (∀ (i : Issue) (u : SlotUse) (entry : Fin 32) (fromDesc : Bool) (reg : Fin 32) (frames : BitVec 12) (adv : Bool) (data :
    Bytes) (f : Flags) (dst : Nat) (s : State), u = useSend 2 entry.val fromDesc reg.val frames.toNat adv → Issues i u s →
    (issuedCore i u s).sends.length < 16 → sendPayload i.core.val (issueTick i s) fromDesc reg.val (64 * (frames.toNat + 1))
    (fieldAt ((issuedCore i u s).kernel.sends.getD entry.val 0) 8 2 == 1) (issued i u s) = .ok (data, f) → sendAddress
    (issued i u s) (fieldAt ((issuedCore i u s).kernel.sends.getD entry.val 0) 0 5) (fieldAt ((issuedCore i u
    s).kernel.sends.getD entry.val 0) 5 3) (windowSlot (issued i u s) i.core.val) (fieldAt ((issuedCore i u
    s).kernel.sends.getD entry.val 0) 32 32 + tget 0 entry.val (issuedCore i u s).sendCur) = some dst → fieldAt ((issuedCore
    i u s).kernel.sends.getD entry.val 0) 0 5 ≠ dieSite (coreDie i.core.val) → ∀ k ∈ List.range (frames.toNat + 1), (pathOf
    (issued i u s) (dieSite (coreDie i.core.val)) (fieldAt ((issuedCore i u s).kernel.sends.getD entry.val 0) 0 5) (dst / 64
    + k)).isSome = true →
    ∃ t, exec (.rsend i entry fromDesc reg frames adv) s = .next t ∧
      (∀ k, k ≤ frames.toNat → ∀ m relay, pathOf (issued i u s) (dieSite (coreDie i.core.val)) (fieldAt ((issuedCore i u
        s).kernel.sends.getD entry.val 0) 0 5) (dst / 64 + k) = some (m, relay) →
        ∃ x ∈ tget [] (opClass opRPART) (t.str m).txq, x.payload = fitBytes 64 ((data.drop (64 * k)).take 64) ∧ x.chan = some
          (i.core.val, (issuedCore i u s).nextChan) ∧
          x.slots = some (BitVec.ofNat 16 (fieldAt ((issuedCore i u s).kernel.sends.getD entry.val 0) 16 16)) ∧ x.win =
            (issuedCore i u s).win ∧ x.hdr = mkHdr opRPART (fieldAt ((issuedCore i u s).kernel.sends.getD entry.val 0) 0 5)
            (dieSite (coreDie i.core.val)) i.core.val (fieldAt ((issuedCore i u s).kernel.sends.getD entry.val 0) 8 2) (dst /
            64 + k) relay) ∧
      (t.core i.core.val).sendCur = (if adv then tset entry.val (tget 0 entry.val (issuedCore i u s).sendCur + fieldAt
        ((issuedCore i u s).kernel.sends.getD entry.val 0) 64 32) (issuedCore i u s).sendCur else (issuedCore i u s).sendCur)
        ∧
      (t.core i.core.val).cursors = (if adv && fromDesc then tset reg.val (tget 0 reg.val (issuedCore i u s).cursors + dStep
        ((issuedCore i u s).desc reg.val)) (issuedCore i u s).cursors else (issuedCore i u s).cursors) ∧
      t.core i.core.val = { issuedCore i u s with sends := (issuedCore i u s).sends ++ [{ id := (issuedCore i u s).nextChan, left := frames.toNat + 1 }], nextChan := (issuedCore i u s).nextChan + 1, sendCur := (t.core i.core.val).sendCur, cursors := (t.core i.core.val).cursors, astat := (issuedCore i u s).astat ||| BitVec.ofNat 16 (f % 128) }
        ∧
      (∀ m, m ≠ i.core.val → t.core m = (issued i u s).core m) ∧ (∀ m, t.str m =
        { (issued i u s).str m with txq := (t.str m).txq, enq := (t.str m).enq }) ∧
      Untouched [Obj.sramCorrected, Obj.sbCorrected] (issued i u s) t ∧ t =
        { issued i u s with od := t.od, cores := t.cores, strings := t.strings, free := t.free }) ∧
  (∀ (i : Issue) (u : SlotUse) (entry : Fin 32) (fromDesc : Bool) (reg : Fin 32) (frames : BitVec 12) (adv : Bool) (data :
    Bytes) (f : Flags) (dst : Nat) (s : State), u = useSend 2 entry.val fromDesc reg.val frames.toNat adv → Issues i u s →
    (issuedCore i u s).sends.length < 16 → sendPayload i.core.val (issueTick i s) fromDesc reg.val (64 * (frames.toNat + 1))
    (fieldAt ((issuedCore i u s).kernel.sends.getD entry.val 0) 8 2 == 1) (issued i u s) = .ok (data, f) → sendAddress
    (issued i u s) (fieldAt ((issuedCore i u s).kernel.sends.getD entry.val 0) 0 5) (fieldAt ((issuedCore i u
    s).kernel.sends.getD entry.val 0) 5 3) (windowSlot (issued i u s) i.core.val) (fieldAt ((issuedCore i u
    s).kernel.sends.getD entry.val 0) 32 32 + tget 0 entry.val (issuedCore i u s).sendCur) = some dst → fieldAt ((issuedCore
    i u s).kernel.sends.getD entry.val 0) 0 5 = dieSite (coreDie i.core.val) → fieldAt ((issuedCore i u s).kernel.sends.getD
    entry.val 0) 32 32 + tget 0 entry.val (issuedCore i u s).sendCur + data.length ≤ sendLimit (issued i u s) (dieSite
    (coreDie i.core.val)) (fieldAt ((issuedCore i u s).kernel.sends.getD entry.val 0) 5 3) (windowSlot (issued i u s)
    i.core.val) →
    ∃ t, exec (.rsend i entry fromDesc reg frames adv) s = .next t ∧
      ∃ x : State, t = (List.range (frames.toNat + 1)).foldl (fun y k =>
          rpartArrive (coreDie i.core.val) (memKey (dieSite (coreDie i.core.val)) (dst + 64 * k)) i.core.val 1 (issuedCore i
            u s).nextChan ((data.drop (64 * k)).take 64) y) x ∧
      (x.core i.core.val).sendCur = (if adv then tset entry.val (tget 0 entry.val (issuedCore i u s).sendCur + fieldAt
        ((issuedCore i u s).kernel.sends.getD entry.val 0) 64 32) (issuedCore i u s).sendCur else (issuedCore i u s).sendCur)
        ∧
      (x.core i.core.val).cursors = (if adv && fromDesc then tset reg.val (tget 0 reg.val (issuedCore i u s).cursors + dStep
        ((issuedCore i u s).desc reg.val)) (issuedCore i u s).cursors else (issuedCore i u s).cursors) ∧
      x.core i.core.val = { issuedCore i u s with sends := (issuedCore i u s).sends ++ [{ id := (issuedCore i u s).nextChan, left := frames.toNat + 1 }], nextChan := (issuedCore i u s).nextChan + 1, sendCur := (x.core i.core.val).sendCur, cursors := (x.core i.core.val).cursors, astat := (issuedCore i u s).astat ||| BitVec.ofNat 16 (f % 128) }
        ∧
      (∀ m, m ≠ i.core.val → x.core m = (issued i u s).core m) ∧ Untouched [Obj.sramCorrected, Obj.sbCorrected] (issued i u
        s) x ∧ x = { issued i u s with od := x.od, cores := x.cores, free := x.free }) ∧
  (∀ (i : Issue) (u : SlotUse) (entry : Fin 32) (flag : Fin 64) (value : W32) (s : State), u = useSync 4 [(4, 5, entry.val),
    (9, 6, flag.val), (15, 32, value.toNat)] → Issues i u s → fieldAt ((issuedCore i u s).kernel.sends.getD entry.val 0) 0 5
    = dieSite (coreDie i.core.val) → openSums (issued i u s) (coreDie i.core.val) (fun x => x == i.core.val) = [] →
    ∃ t, exec (.flagSet i entry flag value) s = .next t ∧
      (∃ x ∈ (t.core (4 * coreDie i.core.val + fieldAt ((issuedCore i u s).kernel.sends.getD entry.val 0) 5 3 % 4)).flagIn,
        x.1 = ownVisible (issued i u s) i.core.val (issueTick i s) + 1 ∧ x.2.1 = flag.val ∧ value ≤ x.2.2) ∧
      t.core i.core.val = { issuedCore i u s with flagsBy := max (issuedCore i u s).flagsBy (ownVisible (issued i u s) i.core.val (issueTick i s) + 1), flagIn := (t.core i.core.val).flagIn }
        ∧
      (∀ m, m ≠ i.core.val → t.core m = { (issued i u s).core m with flagIn := (t.core m).flagIn }) ∧ (∀ m, m ≠ (4 * coreDie
        i.core.val + fieldAt ((issuedCore i u s).kernel.sends.getD entry.val 0) 5 3 % 4) → (t.core m).flagIn = ((issued i u
        s).core m).flagIn) ∧ t = { issued i u s with cores := t.cores }) ∧
  (∀ (i : Issue) (u : SlotUse) (entry : Fin 32) (flag : Fin 64) (value : W32) (s : State), u = useSync 4 [(4, 5, entry.val),
    (9, 6, flag.val), (15, 32, value.toNat)] → Issues i u s → fieldAt ((issuedCore i u s).kernel.sends.getD entry.val 0) 0 5
    = dieSite (coreDie i.core.val) → openSums (issued i u s) (coreDie i.core.val) (fun x => x == i.core.val) ≠ [] →
    ∃ t, exec (.flagSet i entry flag value) s = .next t ∧
      t.die (coreDie i.core.val) = { (issued i u s).die (coreDie i.core.val) with flagWait := ((issued i u s).die (coreDie i.core.val)).flagWait ++ [{ core := (4 * coreDie i.core.val + fieldAt ((issuedCore i u s).kernel.sends.getD entry.val 0) 5 3 % 4), num := flag.val, value, src := none, deps := openSums (issued i u s) (coreDie i.core.val) (fun x => x == i.core.val), issuer := i.core.val }] }
        ∧
      (∀ d, d ≠ coreDie i.core.val → t.die d = (issued i u s).die d) ∧ t.core i.core.val =
        { issuedCore i u s with flagsBy := max (issuedCore i u s).flagsBy (ownVisible (issued i u s) i.core.val (issueTick i s) + 1) }
        ∧
      (∀ m, m ≠ i.core.val → t.core m = (issued i u s).core m) ∧ t = { issued i u s with cores := t.cores, dies := t.dies }) ∧
  (∀ (i : Issue) (u : SlotUse) (entry : Fin 32) (flag : Fin 64) (value : W32) (m : Nat) (relay : Bool) (s : State), u =
    useSync 4 [(4, 5, entry.val), (9, 6, flag.val), (15, 32, value.toNat)] → Issues i u s → fieldAt ((issuedCore i u
    s).kernel.sends.getD entry.val 0) 0 5 ≠ dieSite (coreDie i.core.val) → pathOf (issued i u s) (dieSite (coreDie
    i.core.val)) (fieldAt ((issuedCore i u s).kernel.sends.getD entry.val 0) 0 5) (coreSramBase (fieldAt ((issuedCore i u
    s).kernel.sends.getD entry.val 0) 5 3) / 64) = some (m, relay) →
    ∃ t, exec (.flagSet i entry flag value) s = .next t ∧
      (∃ x ∈ tget [] (opClass opFLAG) (t.str m).txq, x.payload = fitBytes 64 (leBytes 1 flag.val ++ leBytes 4 value.toNat) ∧
        x.chan = some (i.core.val, (issuedCore i u s).nextChan) ∧
          x.hdr = mkHdr opFLAG (fieldAt ((issuedCore i u s).kernel.sends.getD entry.val 0) 0 5) (dieSite (coreDie
            i.core.val)) 63 0 (coreSramBase (fieldAt ((issuedCore i u s).kernel.sends.getD entry.val 0) 5 3) / 64) relay) ∧
      t.core i.core.val = { issuedCore i u s with sends := (issuedCore i u s).sends ++ [{ id := (issuedCore i u s).nextChan, left := 1 }], nextChan := (issuedCore i u s).nextChan + 1 }
        ∧
      (∀ k, k ≠ i.core.val → t.core k = (issued i u s).core k) ∧ (∀ k, k ≠ m → t.str k = (issued i u s).str k) ∧ t =
        { issued i u s with cores := t.cores, strings := t.strings }) ∧
  (∀ (i : Issue) (u : SlotUse) (flag : Fin 64) (value : W32) (s : State), u = useSync 5 [(9, 6, flag.val), (15, 32,
    value.toNat)] → Issues i u s → value ≤ tget 0 flag.val (issuedCore i u s).flags →
    ∃ t, exec (.flagCheck i flag value) s = .next t ∧
      t = issued i u s) ∧
  (∀ (i : Issue) (u : SlotUse) (flag : Fin 64) (value : W32) (s : State), u = useSync 5 [(9, 6, flag.val), (15, 32,
    value.toNat)] → Issues i u s → tget 0 flag.val (issuedCore i u s).flags < value →
    ∃ t, exec (.flagCheck i flag value) s = .next t ∧
      t = endCore i.core.val exitLATE (issued i u s)) ∧
  (∀ (i : Issue) (u : SlotUse) (bar : Byte) (offset : W16) (s : State), u = useSync 3 [(4, 8, bar.toNat), (12, 16,
    offset.toNat)] → Issues i u s →
    ∃ t, exec (.barrier i bar offset) s = .next t ∧
      (t.core i.core.val).checks = (issuedCore i u s).checks ++ [(bar.toNat, issueTick i s + offset.toNat)] ∧
      (∀ m ∈ bitList 64 (barrierMask (issued i u s) i.core.val bar.toNat).toNat, coreDie m = coreDie i.core.val → (tget 0
        bar.toNat (t.core m).arrivals).getLsbD i.core.val = true) ∧
      (∀ m ∈ bitList 64 (barrierMask (issued i u s) i.core.val bar.toNat).toNat, coreDie m ≠ coreDie i.core.val → ∀ k relay,
        pathOf (issued i u s) (dieSite (coreDie i.core.val)) (dieSite (coreDie m)) (coreSramBase m / 64) = some (k, relay) →
        ∃ x ∈ tget [] (opClass opBARRIER) (t.str k).txq, x.payload = fitBytes 64 (leBytes 1 bar.toNat ++ leBytes 4
          (windowIdOf (issued i u s) i.core.val)) ∧
          x.hdr = mkHdr opBARRIER (dieSite (coreDie m)) (dieSite (coreDie i.core.val)) 63 0 (coreSramBase m / 64) relay) ∧
      (∀ m, t.core m = { (issued i u s).core m with arrivals := (t.core m).arrivals, checks := (t.core m).checks }) ∧ (∀ m, m
        ≠ i.core.val → (t.core m).checks = ((issued i u s).core m).checks) ∧
      (∀ m, t.str m = { (issued i u s).str m with txq := (t.str m).txq, enq := (t.str m).enq }) ∧ Untouched
        [Obj.pathLostTransfers] (issued i u s) t ∧ t =
        { issued i u s with od := t.od, cores := t.cores, strings := t.strings }) ∧
  (∀ (core : CoreId) (bar : Byte) (x : Nat × Nat) (s : State), (s.core core.val).checks.find? (fun y => y.1 == bar.toNat) =
    some x → x.2 ≤ (s.core core.val).tick ∨ x.2 ≤ beatTick s core.val → ((progress core.val (min x.2 (s.core core.val).tick)
    s).core core.val).state = 1 → tget 0 x.1 ((progress core.val (min x.2 (s.core core.val).tick) s).core core.val).arrivals
    &&& barrierMask (progress core.val (min x.2 (s.core core.val).tick) s) core.val x.1 = barrierMask (progress core.val (min
    x.2 (s.core core.val).tick) s) core.val x.1 →
    ∃ t, exec (.barrierCheck core bar) s = .next t ∧
      t.core core.val = { (progress core.val (min x.2 (s.core core.val).tick) s).core core.val with checks := ((progress core.val (min x.2 (s.core core.val).tick) s).core core.val).checks.erase x }
        ∧
      OnlyCore core.val (progress core.val (min x.2 (s.core core.val).tick) s) t) ∧
  (∀ (core : CoreId) (bar : Byte) (x : Nat × Nat) (s : State), (s.core core.val).checks.find? (fun y => y.1 == bar.toNat) =
    some x → x.2 ≤ (s.core core.val).tick ∨ x.2 ≤ beatTick s core.val → ((progress core.val (min x.2 (s.core core.val).tick)
    s).core core.val).state = 1 → tget 0 x.1 ((progress core.val (min x.2 (s.core core.val).tick) s).core core.val).arrivals
    &&& barrierMask (progress core.val (min x.2 (s.core core.val).tick) s) core.val x.1 ≠ barrierMask (progress core.val (min
    x.2 (s.core core.val).tick) s) core.val x.1 →
    ∃ t, exec (.barrierCheck core bar) s = .next t ∧
      t = endCore core.val exitLATE ((progress core.val (min x.2 (s.core core.val).tick) s).setCore core.val
        { (progress core.val (min x.2 (s.core core.val).tick) s).core core.val with checks := ((progress core.val (min x.2 (s.core core.val).tick) s).core core.val).checks.erase x })) ∧
  (∀ (i : Issue) (u : SlotUse) (offset : BitVec 40) (s : State), u = useSync 6 [(4, 40, offset.toNat)] → Issues i u s →
    replica (issued i u s) (dieSite (coreDie i.core.val)) < (issuedCore i u s).launch + offset.toNat →
    ∃ t, exec (.beatWait i offset) s = .next t ∧
      t.core i.core.val = { issuedCore i u s with waitBeat := some ((issuedCore i u s).launch + offset.toNat), waitFrom := replica (issued i u s) (dieSite (coreDie i.core.val)) }
        ∧ OnlyCore i.core.val (issued i u s) t) ∧
  (∀ (i : Issue) (u : SlotUse) (offset : BitVec 40) (s : State), u = useSync 6 [(4, 40, offset.toNat)] → Issues i u s →
    (issuedCore i u s).launch + offset.toNat ≤ replica (issued i u s) (dieSite (coreDie i.core.val)) →
    ∃ t, exec (.beatWait i offset) s = .next t ∧
      t = issued i u s) ∧
  (∀ (die : DieId) (j : Fin 4) (b : Nat) (s : State), (s.core (4 * die.val + j.val)).waitBeat = some b → b ≤ replica s
    (dieSite die.val) →
    ∃ t, exec (.beatWaitEnd die) s = .next t ∧
      t.core (4 * die.val + j.val) = { s.core (4 * die.val + j.val) with
        waitBeat := none, holds := (s.core (4 * die.val + j.val)).holds + (b - (s.core (4 * die.val + j.val)).waitFrom) * (s.die die.val).clock / 1000 }
          ∧
      (∀ m, m / 4 ≠ die.val → t.core m = s.core m) ∧ (∀ m, t.core m =
        { s.core m with waitBeat := (t.core m).waitBeat, holds := (t.core m).holds }) ∧
      t = { s with cores := t.cores }) ∧
  (∀ (i : Issue) (u : SlotUse) (dist iters : BitVec 12) (s : State), u = useSync 7 [(4, 12, dist.toNat), (16, 12,
    iters.toNat)] → Issues i u s → lastRep (issuedCore i u s) = true → ∀ y ∈ (issuedCore i u s).loops.head?, y.1 ≠
    (issuedCore i u s).bundle → 0 < iters.toNat →
    ∃ t, exec (.loop i dist iters) s = .next t ∧
      t.core i.core.val = { issuedCore i u s with loops := ((issuedCore i u s).bundle, iters.toNat - 1) :: (issuedCore i u s).loops, nextBundle := (issuedCore i u s).bundle - dist.toNat }
        ∧ OnlyCore i.core.val (issued i u s) t) ∧
  (∀ (i : Issue) (u : SlotUse) (dist iters : BitVec 12) (rest : List (Nat × Nat)) (left : Nat) (s : State), u = useSync 7
    [(4, 12, dist.toNat), (16, 12, iters.toNat)] → Issues i u s → lastRep (issuedCore i u s) = true → (issuedCore i u
    s).loops = ((issuedCore i u s).bundle, left + 1) :: rest →
    ∃ t, exec (.loop i dist iters) s = .next t ∧
      t.core i.core.val = { issuedCore i u s with loops := ((issuedCore i u s).bundle, left) :: rest, nextBundle := (issuedCore i u s).bundle - dist.toNat }
        ∧ OnlyCore i.core.val (issued i u s) t) ∧
  (∀ (i : Issue) (u : SlotUse) (dist iters : BitVec 12) (rest : List (Nat × Nat)) (s : State), u = useSync 7 [(4, 12,
    dist.toNat), (16, 12, iters.toNat)] → Issues i u s → lastRep (issuedCore i u s) = true → (issuedCore i u s).loops =
    ((issuedCore i u s).bundle, 0) :: rest →
    ∃ t, exec (.loop i dist iters) s = .next t ∧
      t.core i.core.val = { issuedCore i u s with loops := rest } ∧ OnlyCore i.core.val (issued i u s) t) ∧
  (∀ (i : Issue) (u : SlotUse) (dist iters : BitVec 12) (s : State), u = useSync 7 [(4, 12, dist.toNat), (16, 12,
    iters.toNat)] → Issues i u s → lastRep (issuedCore i u s) = false ∨ (iters = 0 ∧ ∀ y ∈ (issuedCore i u s).loops.head?,
    y.1 ≠ (issuedCore i u s).bundle) →
    ∃ t, exec (.loop i dist iters) s = .next t ∧
      t = issued i u s) ∧
  (∀ (i : Issue) (u : SlotUse) (s : State), u = { slot := 5, op := 1 } → Issues i u s → (issued i u s).beagle.state ≠ 1 ∨
    ((issued i u s).obj Obj.beagleSourceMask).testBit 1 = false →
    ∃ t, exec (.mark i) s = .next t ∧
      t = issued i u s) ∧
  (∀ (i : Issue) (u : SlotUse) (s : State), u = { slot := 5, op := 1 } → Issues i u s → (issued i u s).beagle.state = 1 →
    ((issued i u s).obj Obj.beagleSourceMask).testBit 1 = true → (tget [] (dieSite (coreDie i.core.val)) (issued i u
    s).beagle.queues).length < traceQueueLen →
    ∃ t, exec (.mark i) s = .next t ∧
      (∃ r, tget [] (dieSite (coreDie i.core.val)) t.beagle.queues = (tget [] (dieSite (coreDie i.core.val)) (issued i u
        s).beagle.queues) ++ [r] ∧ r.kind = 2 ∧ r.site = dieSite (coreDie i.core.val) ∧ r.unit = i.core.val ∧ r.beat =
        (issued i u s).beat ∧
        r.payload = leBytes 4 (issuedCore i u s).item ++ leBytes 4 (fieldAt (issuedCore i u s).kernel.header 0 32) ++ leBytes
          4 (issuedCore i u s).bundle ++ leBytes 4 (issueTick i s) ++ List.replicate 16 0) ∧
      (∀ x, x ≠ dieSite (coreDie i.core.val) → tget [] x t.beagle.queues = tget [] x (issued i u s).beagle.queues) ∧ t =
        { issued i u s with beagle := t.beagle }) ∧
  (∀ (i : Issue) (u : SlotUse) (s : State), u = { slot := 5, op := 1 } → Issues i u s → (issued i u s).beagle.state = 1 →
    ((issued i u s).obj Obj.beagleSourceMask).testBit 1 = true → traceQueueLen ≤ (tget [] (dieSite (coreDie i.core.val))
    (issued i u s).beagle.queues).length →
    ∃ t, exec (.mark i) s = .next t ∧
      t.beagle.queues = (issued i u s).beagle.queues ∧ CountedOnly Obj.beagleLost (issued i u s) t ∧ t =
        { issued i u s with od := t.od, beagle := t.beagle }) ∧
  (∀ (i : Issue) (u : SlotUse) (s : State), u = { slot := 6, op := 1 } → Issues i u s → lastRep (issuedCore i u s) = true →
    declaredTicks (issued i u s) i.core.val ≤ issueTick i s + 1 → (issuedCore i u s).mx = none → (issuedCore i u s).outs = []
    → ∀ x ∈ (issuedCore i u s).checks, issueTick i s < x.2 →
    ∃ t, exec (.kernelEnd i) s = .next t ∧
      t.core i.core.val = { issuedCore i u s with ended := true, state := 2 } ∧ OnlyCore i.core.val (issued i u s) t) ∧
  (∀ (i : Issue) (u : SlotUse) (s : State), u = { slot := 6, op := 1 } → Issues i u s → lastRep (issuedCore i u s) = true →
    issueTick i s + 1 < declaredTicks (issued i u s) i.core.val →
    ∃ t, exec (.kernelEnd i) s = .next t ∧
      t = endCore i.core.val exitHAZARD (issued i u s)) ∧
  (∀ (i : Issue) (u : SlotUse) (s : State), u = { slot := 6, op := 1 } → Issues i u s → lastRep (issuedCore i u s) = false →
    ∃ t, exec (.kernelEnd i) s = .next t ∧
      t = issued i u s)

/-- WINDOW_SELECT of an item taken with a variant whose window is launchable opens a record with B_L at now plus
  lw_launch_lead_beats and sends a launch record to every participating die; SLOT_CUTOFF marks it from 100 beats before
  launch. WINDOW_LAUNCH, once every participant's die has reached B_L, puts the participants at tick 0 of their kernels
  with the rest of their window state empty and opens the window; one whose strings or dies no longer allow it is
  withdrawn instead. DRAIN_END of a participant with nothing under way writes its status record to its ring and frees
  it; until then it changes nothing; the last participant releases the window, which is counted by its exit code, and
  its item is complete, failed, or to be rerun. END_NOTICE ends a participant of a window that another has ended with
  PEER; DECLARED_TICKS_EXPIRY ends one that has not reached its end bundle by the declared tick with HAZARD;
  LW_WATCHDOG_EXPIRY ends every issuing participant with WATCHDOG. WORK_ITEM_RERUN queues a failed item again below
  lw_rerun_limit and counts it; at the limit it queues a known-answer test of every core of the item's last
  participants, and once that has been done the item is queued again, the condition noted where its variant's cores are
  all still enabled. -/
def Obligations.LockedWindows : Prop :=
  (∀ (item variant : Nat) (it : WorkItem) (v : BitVec 64) (im : Image) (w : WindowImg) (s : State), itemOf s item = some it →
    it.variants[variant]? = some v → imageOf s it.slot = some im → imgWindow im (fieldAt v 0 32) = some w → it.kind < 4 →
    it.pending = 0 → it.status = 1 → it.taken = some v → it.kind ≠ 2 ∨ treesBuilt s it.set_ = true → s.wins.any (fun x =>
    x.item == item) = false → windowReady s it.slot item w = true →
    ∃ t, exec (.windowSelect item variant) s = .next t ∧
      (∃ x, t.wins = s.wins ++ [x] ∧ x.id = s.sched.nextWin ∧ x.windowId = BitVec.ofNat 32 (fieldAt w.desc 0 32) ∧ x.slot =
        it.slot ∧ x.b0 = s.beat ∧ x.launch = s.beat + s.obj Obj.lwLaunchLeadBeats ∧
        x.phase = 0 ∧ x.item = item ∧ x.parts = BitVec.ofNat 64 (winMask w.desc) ∧ x.desc = w.desc ∧ x.barriers = w.barriers
          ∧ x.reserve = w.reserve ∧ x.kernels = w.kernels ∧
        x.imageSeed = BitVec.ofNat 64 (imgSeed im) ∧ x.drained = 0 ∧ x.code = 0) ∧
      t.sched = { s.sched with nextWin := s.sched.nextWin + 1, items := s.sched.items.map (fun y => if y.id = item then { y with status := 1, taken := some v } else y) }
        ∧
      (s.dev.state ≠ 8 → t.pair = { s.pair with cur := s.pair.cur ++ ((bitList 64 (winMask w.desc)).map coreDie).eraseDups.map (fun d => Output.launch (dieSite d) s.sched.nextWin) }
        ∧ t.out = s.out) ∧
      t = { s with wins := t.wins, sched := t.sched, pair := t.pair, out := t.out }) ∧
  (∀ (win : Nat) (w : Win) (s : State), s.win win = some w → w.phase = 0 → w.launch ≤ s.beat + 100 →
    ∃ t, exec (.slotCutoff win) s = .next t ∧
      t.win win = some { w with phase := 1 } ∧ (∀ x, x ≠ win → t.win x = s.win x) ∧
      t = { s with wins := t.wins }) ∧
  (∀ (win : Nat) (w : Win) (s : State), s.win win = some w → w.phase < 2 → beatReached s w = true → stillOpen s w = true → ∀
    n ∈ bitList 64 w.parts.toNat, dieUp s (coreDie n) = true →
    ∃ t, exec (.windowLaunch win) s = .next t ∧
      (∀ n ∈ bitList 64 w.parts.toNat, t.core n =
        { ({} : Core) with state := 1, win := some w.id, kernel := (w.kernels.find? (fun k => kernelCore k == n)).getD emptyKernel, ftz := winFtz w.desc, item := w.item, launch := w.launch, tokens := (((itemOf s w.item).map (itemRows s)).getD []).map (fun r => BitVec.ofNat 32 r.1), nextBundle := 1, nextChan := (s.core n).nextChan, ring := (s.core n).ring, katRepeat := (s.core n).katRepeat, acts := (s.core n).acts })
        ∧
      (∀ n, n ∉ bitList 64 w.parts.toNat → t.core n = s.core n) ∧
      t.win win = some { w with phase := 2, watchdog := s.obj Obj.lwWatchdogBeats } ∧ (∀ x, x ≠ win → t.win x = s.win x) ∧
      (∀ d, t.die d = { s.die d with launches := (t.die d).launches }) ∧ t.obj Obj.lwLaunched = (s.obj Obj.lwLaunched + 1) %
        2 ^ objBits Obj.lwLaunched ∧
      Untouched (Obj.lwLaunched :: logCounters) s t ∧
      t = { s with od := t.od, cores := t.cores, wins := t.wins, dies := t.dies, beagle := t.beagle }) ∧
  (∀ (win : Nat) (w : Win) (s : State), s.win win = some w → w.phase < 2 → beatReached s w = true → stillOpen s w = false →
    ∃ t, exec (.windowLaunch win) s = .next t ∧
      t.wins = s.wins.filter (fun x => x.id != win) ∧ (∀ d, t.die d = { s.die d with launches := (t.die d).launches }) ∧ t =
        { s with wins := t.wins, dies := t.dies }) ∧
  (∀ (core : CoreId) (w : Win) (u : State) (s : State), (s.core core.val).state = 2 → (s.core core.val).win.bind s.win = some
    w → u = (if w.code = 0 then s else discardPartials w.id s) → drained u core.val = true → w.drained ||| BitVec.ofNat 64 (2
    ^ core.val) ≠ w.parts →
    ∃ t, exec (.drainEnd core) s = .next t ∧
      t.core core.val = { (commitAll core.val u).core core.val with state := 0, win := none, ring := (((commitAll core.val u).core core.val).ring ++ [statusRecord ((commitAll core.val u).core core.val)]).drop (((commitAll core.val u).core core.val).ring.length + 1 - 64) }
        ∧ (∀ m, m ≠ core.val → t.core m = (commitAll core.val u).core m) ∧
      (∃ x, t.win w.id = some x ∧ x.drained = w.drained ||| BitVec.ofNat 64 (2 ^ core.val) ∧ x.code = w.code) ∧
      Untouched [Obj.beagleLost] (commitAll core.val u) t ∧ t =
        { (commitAll core.val u) with od := t.od, cores := t.cores, wins := t.wins, beagle := t.beagle }) ∧
  (∀ (core : CoreId) (w : Win) (u : State) (s : State), (s.core core.val).state = 2 → (s.core core.val).win.bind s.win = some
    w → u = (if w.code = 0 then s else discardPartials w.id s) → drained u core.val = false →
    ∃ t, exec (.drainEnd core) s = .next t ∧
      t = u) ∧
  (∀ (core : CoreId) (w : Win) (u : State) (s : State), (s.core core.val).state = 2 → (s.core core.val).win.bind s.win = some
    w → u = (if w.code = 0 then s else discardPartials w.id s) → drained u core.val = true → w.drained ||| BitVec.ofNat 64 (2
    ^ core.val) = w.parts → w.code = 0 →
    ∃ t, exec (.drainEnd core) s = .next t ∧
      (t.core core.val).state = 0 ∧ (t.core core.val).win = none ∧ (t.core core.val).ring = (((commitAll core.val u).core
        core.val).ring ++ [statusRecord ((commitAll core.val u).core core.val)]).drop (((commitAll core.val u).core
        core.val).ring.length + 1 - 64) ∧ t.win w.id = none ∧ t.obj Obj.lwCompleted = (s.obj Obj.lwCompleted + 1) % 2 ^
        objBits Obj.lwCompleted ∧
      (∀ it ∈ t.sched.items, it.id = w.item → it.status = 3 ∧ it.reruns = 0 ∧ it.failed = 0) ∧
      t = { s with
          beat := t.beat, od := t.od, mem := t.mem, cores := t.cores, wins := t.wins, dies := t.dies
          sched := t.sched, strings := t.strings, tags := t.tags, dram := t.dram, ports := t.ports, rmem := t.rmem
          serve := t.serve, images := t.images, time := t.time, dev := t.dev, pod := t.pod, test := t.test
          beagle := t.beagle, log := t.log, bad := t.bad, out := t.out, free := t.free }) ∧
  (∀ (core : CoreId) (w : Win) (u : State) (s : State), (s.core core.val).state = 2 → (s.core core.val).win.bind s.win = some
    w → u = (if w.code = 0 then s else discardPartials w.id s) → drained u core.val = true → w.drained ||| BitVec.ofNat 64 (2
    ^ core.val) = w.parts → w.code ≠ 0 → ¬(w.code = exitHAZARD ∨ w.code = exitFORMAT ∨ w.code = exitBOUNDS) →
    ∃ t, exec (.drainEnd core) s = .next t ∧
      (t.core core.val).state = 0 ∧ (t.core core.val).win = none ∧ (t.core core.val).ring = (((commitAll core.val u).core
        core.val).ring ++ [statusRecord ((commitAll core.val u).core core.val)]).drop (((commitAll core.val u).core
        core.val).ring.length + 1 - 64) ∧ t.win w.id = none ∧ t.obj (exitCounter w.code) = (s.obj (exitCounter w.code) + 1) %
        2 ^ objBits (exitCounter w.code) ∧
      (∀ it ∈ t.sched.items, it.id = w.item → it.status = 2 ∧ it.failed = w.code) ∧
      t = { s with
          beat := t.beat, od := t.od, mem := t.mem, cores := t.cores, wins := t.wins, dies := t.dies
          sched := t.sched, strings := t.strings, tags := t.tags, dram := t.dram, ports := t.ports, rmem := t.rmem
          serve := t.serve, images := t.images, time := t.time, dev := t.dev, pod := t.pod, test := t.test
          beagle := t.beagle, log := t.log, bad := t.bad, out := t.out, free := t.free }) ∧
  (∀ (core : CoreId) (w : Win) (u : State) (s : State), (s.core core.val).state = 2 → (s.core core.val).win.bind s.win = some
    w → u = (if w.code = 0 then s else discardPartials w.id s) → drained u core.val = true → w.drained ||| BitVec.ofNat 64 (2
    ^ core.val) = w.parts → (w.code = exitHAZARD ∨ w.code = exitFORMAT ∨ w.code = exitBOUNDS) →
    ∃ t, exec (.drainEnd core) s = .next t ∧
      (t.core core.val).state = 0 ∧ (t.core core.val).win = none ∧ (t.core core.val).ring = (((commitAll core.val u).core
        core.val).ring ++ [statusRecord ((commitAll core.val u).core core.val)]).drop (((commitAll core.val u).core
        core.val).ring.length + 1 - 64) ∧ t.win w.id = none ∧ t.obj Obj.lwImageFaults = (s.obj Obj.lwImageFaults + 1) % 2 ^
        objBits Obj.lwImageFaults ∧
      (∀ it ∈ t.sched.items, it.id = w.item → it.status = 3 ∧ it.failed = w.code) ∧ ((s.imgSlot w.slot).state = 2 →
        (t.imgSlot w.slot).state = 4) ∧
      t = { s with
          beat := t.beat, od := t.od, mem := t.mem, cores := t.cores, wins := t.wins, dies := t.dies
          sched := t.sched, strings := t.strings, tags := t.tags, dram := t.dram, ports := t.ports, rmem := t.rmem
          serve := t.serve, images := t.images, time := t.time, dev := t.dev, pod := t.pod, test := t.test
          beagle := t.beagle, log := t.log, bad := t.bad, out := t.out, free := t.free }) ∧
  (∀ (core : CoreId) (w : Win) (s : State), (s.core core.val).win.bind s.win = some w → w.code ≠ 0 → (s.core core.val).state
    = 1 →
    ∃ t, exec (.endNotice core) s = .next t ∧
      t.core core.val = { (s.core core.val) with state := 2, exit := exitPEER, mx := none, outs := [], waitBeat := none, checks := [], faultBundle := 0xFFFFFF }
        ∧ OnlyCore core.val s t) ∧
  (∀ (core : CoreId) (w : Win) (s : State), (s.core core.val).win.bind s.win = some w → (s.core core.val).state = 1 →
    declaredTicks s core.val ≤ (s.core core.val).tick + 1 ∨ declaredTicks s core.val ≤ beatTick s core.val →
    ∃ t, exec (.declaredTicksExpiry core) s = .next t ∧
      t.core core.val = { (s.core core.val) with state := 2, exit := exitHAZARD, mx := none, outs := [], waitBeat := none, checks := [], faultBundle := (s.core core.val).bundle }
        ∧
      t.win w.id = some { w with code := if w.code = 0 then exitHAZARD else w.code } ∧ (∀ x, x ≠ w.id → t.win x = s.win x) ∧
        (∀ m, m ≠ core.val → t.core m = s.core m) ∧
      t = { s with cores := t.cores, wins := t.wins }) ∧
  (∀ (win : Nat) (w : Win) (s : State), s.win win = some w → w.phase = 2 → w.launch + w.watchdog < s.beat → ∀ n ∈ bitList 64
    w.parts.toNat, (s.core n).state = 1 → (s.core n).win = some win →
    ∃ t, exec (.lwWatchdogExpiry win) s = .next t ∧
      t.win win = some { w with code := if w.code = 0 then exitWATCHDOG else w.code } ∧ (∀ x, x ≠ win → t.win x = s.win x) ∧
      (∀ n ∈ bitList 64 w.parts.toNat, (s.core n).state = 1 → t.core n =
        { s.core n with state := 2, exit := exitWATCHDOG, mx := none, outs := [], waitBeat := none, checks := [], faultBundle := (s.core n).bundle })
        ∧
      (∀ n, n ∉ bitList 64 w.parts.toNat → t.core n = s.core n) ∧
      t = { s with cores := t.cores, wins := t.wins }) ∧
  (∀ (item : Nat) (it : WorkItem) (s : State), itemOf s item = some it → it.status = 2 → it.tests = 0 → it.reruns < s.obj
    Obj.lwRerunLimit →
    ∃ t, exec (.workItemRerun item) s = .next t ∧
      t.sched = { s.sched with items := s.sched.items.map (fun x => if x.id = item then { x with status := 0, reruns := it.reruns + 1, taken := none } else x), thieves := t.sched.thieves }
        ∧
      (∀ x, tget {} x t.sched.thieves = { tget {} x s.sched.thieves with backoff := (tget {} x t.sched.thieves).backoff }) ∧
      t.obj Obj.lwReruns = (s.obj Obj.lwReruns + 1) % 2 ^ objBits Obj.lwReruns ∧ Untouched [Obj.lwReruns] s t ∧
      t = { s with od := t.od, sched := t.sched }) ∧
  (∀ (item : Nat) (it : WorkItem) (s : State), itemOf s item = some it → it.status = 2 → it.tests = 0 → s.obj
    Obj.lwRerunLimit ≤ it.reruns → it.tested = false →
    ∃ t, exec (.workItemRerun item) s = .next t ∧
      (∀ n ∈ bitList 64 ((it.taken.map (variantParts s it.slot)).getD 0), ∃ r ∈ t.kat.queue, r.unit = n ∧ r.prio = 1) ∧
      (∀ x ∈ t.sched.items, x.id = item → x.tested = true ∧ x.tests = BitVec.ofNat 64 ((it.taken.map (variantParts s
        it.slot)).getD 0)) ∧
      t.kat = { s.kat with queue := t.kat.queue, core := t.kat.core } ∧
      t = { s with sched := t.sched, kat := t.kat }) ∧
  (∀ (item : Nat) (it : WorkItem) (s : State), itemOf s item = some it → it.status = 2 → it.tests = 0 → s.obj
    Obj.lwRerunLimit ≤ it.reruns → it.tested = true →
    ∃ t, exec (.workItemRerun item) s = .next t ∧
      (∀ x ∈ t.sched.items, x.id = item → x.status = 0 ∧ x.reruns = it.reruns ∧ x.taken = none) ∧ t.obj Obj.lwReruns = (s.obj
        Obj.lwReruns + 1) % 2 ^ objBits Obj.lwReruns ∧
      ((it.taken.map (variantEnabled s it.slot it.kind)).getD false = true → t.dev.rerunning.contains item = true) ∧
      t = { s with
          beat := t.beat, od := t.od, sched := t.sched, strings := t.strings, ports := t.ports, time := t.time
          dev := t.dev, pod := t.pod, kat := t.kat, test := t.test, beagle := t.beagle, log := t.log })

/-- GOVERNOR_INTERVAL, 1 µs after the last, adds the power that the governor makes of the die's activity to the last 49,
  starts the activity counters anew, and of the objects advances only the three hold and ballast counters. The governor
  gives power wanted within the limit of every one of the last 49 intervals as it is; it holds a rise above the least of
  them by more than the limit at the least plus the limit, fills a fall below the greatest by more with ballast to the
  greatest less the limit, and never goes above a ceiling. STEP_INSTANTIATE forms a stream set of the active streams of
  a serving slot, each with its granted nodes, starts them anew, and appends one work item for every template of the
  step; WORK_ITEM_TAKE and STEAL_ATTEMPT mark the item taken and count one that was stolen; an attempt that finds every
  probed victim empty waits steal_backoff_ns, and STEAL_BACKOFF_EXPIRY ends the wait. WORK_ITEM_COMPLETE removes an item
  that ran, frees its Whippets, takes one from the pending count of each successor unless it failed, and with the last
  item of a step whose streams are through ends the step. -/
def Obligations.GovernorAndSheepdog : Prop :=
  (∀ (die : DieId) (ends : Nat) (s : State), (s.die die.val).intervalAt + 1000 ≤ ends → ends ≤ s.beat →
    ∃ t, exec (.governorInterval die ends) s = .next t ∧
      t.die die.val = { s.die die.val with hist := ((governed (10 * s.obj Obj.slewLimitW) (activityPower s die.val) (s.die die.val).hist (ceilingOf (s.die die.val)) (s.obj Obj.ballastEnable == 1)).2.2 :: (s.die die.val).hist).take 49, tileActs := 0, intervalAt := ends }
        ∧
      Untouched [Obj.governorHoldCycles, Obj.thermHoldCycles, Obj.ballastCycles] s t ∧ (∀ d, d ≠ die.val → t.die d = s.die d)
        ∧
      (∀ m, m / 4 ≠ die.val → t.core m = s.core m) ∧ (∀ m, m / 4 = die.val → t.core m =
        { s.core m with acts := [], holds := (t.core m).holds }) ∧ (∀ m, (s.core m).state ≠ 1 → (t.core m).holds = (s.core
        m).holds) ∧
      t = { s with od := t.od, cores := t.cores, dies := t.dies }) ∧
  (∀ (die : DieId) (ends : Nat) (s : State), ends < (s.die die.val).intervalAt + 1000 ∨ s.beat < ends →
    ∃ t, exec (.governorInterval die ends) s = .next t ∧
      t = s) ∧
  (∀ (l want : Nat) (hist : List Nat) (b : Bool), (∀ x ∈ hist, want ≤ x + l ∧ x ≤ want + l) → (governed l want hist none
    b).2.2 = want) ∧
  (∀ (l want lo : Nat) (hist : List Nat) (b : Bool), lo ∈ hist → (∀ x ∈ hist, lo ≤ x ∧ x ≤ lo + l) → lo + l < want →
    (governed l want hist none b).2.2 = lo + l) ∧
  (∀ (l want hi : Nat) (hist : List Nat), hi ∈ hist → (∀ x ∈ hist, x ≤ hi ∧ want ≤ x + l) → want + l < hi → (governed l want
    hist none true).2.2 = hi - l) ∧
  (∀ (l want c : Nat) (hist : List Nat) (b : Bool), (governed l want hist (some c) b).2.2 ≤ c) ∧
  (∀ (slot : SlotId) (im : Image) (streams : List Ctx) (s : State), s.sched.sets.any (fun (p : Nat × StepSet) => p.2.slot ==
    slot.val) = false → ∀ c ∈ s.serve.ctxs, c.slot = slot.val → c.ending = none → imageOf s slot.val = some im → (s.imgSlot
    slot.val).state = 2 ∨ (s.imgSlot slot.val).state = 3 → streams = (s.serve.ctxs.filter (fun c => c.slot == slot.val &&
    c.phase == 2 && c.ending.isNone && !sessionFull s c.session)) → streams ≠ [] → s.dev.state = 5 ∨ s.dev.state = 6 ∨
    s.dev.state = 7 → dataReady s slot.val = true →
    ∃ t, exec (.stepInstantiate slot) s = .next t ∧
      tfind s.sched.nextSet t.sched.sets = some
        { slot := slot.val, streams := streams.map (fun c => (c.id, specNodes s im c)) } ∧
      t.sched.nextSet = s.sched.nextSet + 1 ∧
      t.sched.items.take s.sched.items.length = s.sched.items ∧
      t.sched.items.length = s.sched.items.length + (im.items.filter (stepTemplate im (streams.any (fun c => specNodes s im c
        == 0)) (streams.any (fun c => specNodes s im c != 0)))).length ∧
      t.serve = { s.serve with ctxs := s.serve.ctxs.map (fun c => if streams.any (fun x => x.id == c.id) then { c with step := [], tree := [], drafted := 0, scratch := [], draftNew := [] } else c) }
        ∧
      (∀ d, t.die d = { s.die d with dir := (t.die d).dir }) ∧
      t = { s with dies := t.dies, sched := t.sched, serve := t.serve }) ∧
  (∀ (item taker : Nat) (it : WorkItem) (v : BitVec 64) (s : State), firstTake s (ownQueue taker) taker = some (it, v) →
    it.id = item →
    ∃ t, exec (.workItemTake item taker (ownQueue taker)) s = .next t ∧
      t.sched = { s.sched with items := s.sched.items.map (fun x => if x.id = item then { x with status := 1, taken := some v } else x),
                               thieves := tset taker { tget {} taker s.sched.thieves with backoff := none } s.sched.thieves }
                                 ∧
      (4 ≤ it.kind → (t.whip (taker - 64)).state = 1 ∧ (t.whip (taker - 64)).item = item) ∧ (it.kind < 4 → t.whips = s.whips)
        ∧
      (∀ w, t.whip w = { s.whip w with state := (t.whip w).state, item := (t.whip w).item }) ∧ Untouched logCounters s t ∧
      t = { s with od := t.od, whips := t.whips, sched := t.sched, beagle := t.beagle }) ∧
  (∀ (item taker victim : Nat) (it : WorkItem) (v : BitVec 64) (s : State), mayProbe s taker = true → (attemptOrder s
    taker).find? (fun q => (firstTake s q taker).isSome) = some victim → firstTake s victim taker = some (it, v) → it.id =
    item → victim ≠ ownQueue taker →
    ∃ t, exec (.workItemTake item taker victim) s = .next t ∧
      t.sched = { s.sched with items := s.sched.items.map (fun x => if x.id = item then { x with status := 1, taken := some v } else x),
                               thieves := tset taker { tget {} taker s.sched.thieves with backoff := none } s.sched.thieves }
                                 ∧
      (4 ≤ it.kind → (t.whip (taker - 64)).state = 1 ∧ (t.whip (taker - 64)).item = item) ∧ (it.kind < 4 → t.whips = s.whips)
        ∧
      (∀ w, t.whip w = { s.whip w with state := (t.whip w).state, item := (t.whip w).item }) ∧ t.obj Obj.steals = (s.obj
        Obj.steals + 1) % 2 ^ objBits Obj.steals ∧ Untouched ([Obj.steals, Obj.stealsSincePowerup, Obj.stealEmptyProbes] ++
        logCounters) s t ∧
      t = { s with od := t.od, whips := t.whips, sched := t.sched, beagle := t.beagle }) ∧
  (∀ (thief victim : Nat) (it : WorkItem) (v : BitVec 64) (s : State), mayProbe s thief = true → (attemptOrder s thief).find?
    (fun q => (firstTake s q thief).isSome) = some victim → firstTake s victim thief = some (it, v) → victim ≠ ownQueue thief
    →
    ∃ t, exec (.stealAttempt thief) s = .next t ∧
      t.sched = { s.sched with items := s.sched.items.map (fun x => if x.id = it.id then { x with status := 1, taken := some v } else x),
                               thieves := tset thief { tget {} thief s.sched.thieves with backoff := none } s.sched.thieves }
                                 ∧
      (4 ≤ it.kind → (t.whip (thief - 64)).state = 1 ∧ (t.whip (thief - 64)).item = it.id) ∧ (it.kind < 4 → t.whips =
        s.whips) ∧
      (∀ w, t.whip w = { s.whip w with state := (t.whip w).state, item := (t.whip w).item }) ∧ t.obj Obj.steals = (s.obj
        Obj.steals + 1) % 2 ^ objBits Obj.steals ∧ Untouched ([Obj.steals, Obj.stealsSincePowerup, Obj.stealEmptyProbes] ++
        logCounters) s t ∧
      t = { s with od := t.od, whips := t.whips, sched := t.sched, beagle := t.beagle }) ∧
  (∀ (thief : Nat) (s : State), mayProbe s thief = true → ∀ q ∈ attemptOrder s thief, firstTake s q thief = none →
    ∃ t, exec (.stealAttempt thief) s = .next t ∧
      t.sched = { s.sched with thieves := tset thief { tget {} thief s.sched.thieves with backoff := some (s.beat + s.obj Obj.stealBackoffNs) } s.sched.thieves }
        ∧
      (attemptOrder s thief ≠ [] → t.obj Obj.stealEmptyProbes = (s.obj Obj.stealEmptyProbes + (attemptOrder s thief).length)
        % 2 ^ 32) ∧ Untouched [Obj.stealEmptyProbes] s t ∧
      t = { s with od := t.od, sched := t.sched }) ∧
  (∀ (thief b : Nat) (s : State), (tget {} thief s.sched.thieves).backoff = some b → b ≤ s.beat →
    ∃ t, exec (.stealBackoffExpiry thief) s = .next t ∧
      t = { s with sched := { s.sched with thieves := tset thief { tget {} thief s.sched.thieves with backoff := none } s.sched.thieves } }) ∧
  (∀ (item : Nat) (it y : WorkItem) (s : State), itemOf s item = some it → it.status = 3 ∨ (it.kind = 4 ∧ it.status = 1) →
    it.ctx = none → y ∈ s.sched.items → y.id ≠ item → y.kind ≠ 0 → y.set_ = it.set_ → y.ctx = none →
    ∃ t, exec (.workItemComplete item) s = .next t ∧
      t.sched.items = (s.sched.items.filter (fun x => x.id != item)).map (fun x => if it.succ.contains x.id && it.failed == 0
        then { x with pending := x.pending - 1 } else x) ∧
      (∀ w, it.kind = 4 → (s.whip w).state = 1 → (s.whip w).item = item → t.whip w = { s.whip w with state := 0, item := 0 })
        ∧
      t.sched.sets = s.sched.sets ∧ (it.kind ≠ 2 → t.serve = s.serve ∧ t.free = s.free) ∧
      t = { s with whips := t.whips, sched := t.sched, serve := t.serve, free := t.free }) ∧
  (∀ (item c : Nat) (it : WorkItem) (s : State), itemOf s item = some it → it.status = 3 ∨ (it.kind = 4 ∧ it.status = 1) →
    it.ctx = some c → ∀ x ∈ s.ctx c, x.ending = none →
    ∃ t, exec (.workItemComplete item) s = .next t ∧
      t.sched.items = (s.sched.items.filter (fun x => x.id != item)).map (fun x => if it.succ.contains x.id && it.failed == 0
        then { x with pending := x.pending - 1 } else x) ∧
      (∀ w, it.kind = 4 → (s.whip w).state = 1 → (s.whip w).item = item → t.whip w = { s.whip w with state := 0, item := 0 })
        ∧
      t.sched.sets = s.sched.sets ∧ (it.kind ≠ 2 → t.serve = s.serve ∧ t.free = s.free) ∧
      t = { s with whips := t.whips, sched := t.sched, serve := t.serve, free := t.free }) ∧
  (∀ (item : Nat) (it : WorkItem) (x : StepSet) (s : State), itemOf s item = some it → it.status = 3 ∨ (it.kind = 4 ∧
    it.status = 1) → it.ctx = none → ∀ y ∈ s.sched.items, y.id ≠ item → y.kind = 0 ∨ y.set_ ≠ it.set_ ∨ y.ctx ≠ none → tfind
    it.set_ s.sched.sets = some x → ∀ p ∈ x.streams, x.over_.contains p.1 = true →
    ∃ t, exec (.workItemComplete item) s = .next t ∧
      tfind it.set_ t.sched.sets = none ∧ (∀ y ∈ t.sched.items, y.id ≠ item) ∧ (∀ w, it.kind = 4 → (s.whip w).state = 1 →
        (s.whip w).item = item → t.whip w = { s.whip w with state := 0, item := 0 }) ∧
      t = { s with
          od := t.od, dies := t.dies, whips := t.whips, sched := t.sched, tags := t.tags, dram := t.dram
          serve := t.serve, beagle := t.beagle, log := t.log, out := t.out, free := t.free })

/-- On a Whippet that may run, for a context of a step: SAMPLER writes the tokens that acceptance emits once the step's
  windows are done (for a plain greedy step the token of the largest logit), counts the step, and for a tree moves the
  KV of what was accepted and discards the rest; DRAFT_EXECUTOR writes a logit row for each node of the next tree level
  to die-shared SRAM of the context's owner die; TREE_BUILDER grows the tree from its root, of at most the granted nodes
  and the root, and writes its record; DETOKENIZER counts tokens and keeps pending text, ends a request whose stream
  ends, and discards the step of one that is ending. HOUSEKEEPING on an idle Whippet leaves the registers of the check
  unit as they were. The Whippet's status word holds the flags of its routine, and its local SRAM and DMA what it moved;
  other contexts and Whippets stay. -/
def Obligations.WhippetRoutines : Prop :=
  (∀ (whip : WhipId) (ctx : Nat) (c : Ctx) (im : Image) (d : Bytes) (logits : List (Nat × W32)) (f : Flags) (s : State),
    s.ctx ctx = some c → imageOf s c.slot = some im → imgRoutine im 0x02 = some d → whipRuns s whip.val = true → inStep s ctx
    = true → c.step = [] → c.tree = [] → stepVerified s ctx false = true → isZeroF c.temp = true → runFlags (nodeLogits s d c
    (firstRow s ctx) 0) = (logits, f) →
    ∃ t, exec (.sampler whip ctx) s = .next t ∧
      t.ctx ctx = some { c with step := [BitVec.ofNat 32 (argmax logits)] } ∧ (∀ x, x ≠ ctx → t.ctx x = s.ctx x) ∧
      t.whip whip.val = { s.whip whip.val with astat := BitVec.ofNat 16 (f % 128), sram := Memory.writeN 0 ((wordsBytes [BitVec.ofNat 32 (argmax logits)]).take (2 ^ 20)) [], dmaIn := (sharedKey c.owner (leAt d 24 4 + leAt d 28 4 * firstRow s ctx), leAt d 28 4), dmaOut := (0, 0) }
        ∧ (∀ w, w ≠ whip.val → t.whip w = s.whip w) ∧ t.obj Obj.plainSteps = (s.obj Obj.plainSteps + 1) % 2 ^ objBits
        Obj.plainSteps ∧ Untouched [Obj.plainSteps, Obj.samplerResidualFallbacks] s t ∧
      t = { s with od := t.od, whips := t.whips, serve := t.serve }) ∧
  (∀ (whip : WhipId) (ctx : Nat) (c : Ctx) (im : Image) (d : Bytes) (toks : List W32) (fall : Nat) (f : Flags) (s : State),
    s.ctx ctx = some c → imageOf s c.slot = some im → imgRoutine im 0x02 = some d → whipRuns s whip.val = true → inStep s ctx
    = true → c.step = [] → c.tree = [] → stepVerified s ctx false = true → runFlags (acceptFrom s im d c (firstRow s ctx) 8
    0) = ((toks, fall), f) →
    ∃ t, exec (.sampler whip ctx) s = .next t ∧
      t.ctx ctx = some { c with step := toks } ∧ (∀ x, x ≠ ctx → t.ctx x = s.ctx x) ∧
      t.whip whip.val = { s.whip whip.val with astat := BitVec.ofNat 16 (f % 128), sram := Memory.writeN 0 ((wordsBytes toks).take (2 ^ 20)) [], dmaIn := (sharedKey c.owner (leAt d 24 4 + leAt d 28 4 * firstRow s ctx), leAt d 28 4), dmaOut := (0, 0) }
        ∧ (∀ w, w ≠ whip.val → t.whip w = s.whip w) ∧ t.obj Obj.plainSteps = (s.obj Obj.plainSteps + 1) % 2 ^ objBits
        Obj.plainSteps ∧ Untouched [Obj.plainSteps, Obj.samplerResidualFallbacks] s t ∧
      t = { s with od := t.od, whips := t.whips, serve := t.serve }) ∧
  (∀ (whip : WhipId) (ctx : Nat) (c : Ctx) (im : Image) (d : Bytes) (toks : List W32) (fall : Nat) (f : Flags) (s : State),
    s.ctx ctx = some c → imageOf s c.slot = some im → imgRoutine im 0x02 = some d → whipRuns s whip.val = true → inStep s ctx
    = true → c.step = [] → c.tree ≠ [] → stepVerified s ctx true = true → runFlags (acceptFrom s im d c (firstRow s ctx) 8 0)
    = ((toks, fall), f) →
    ∃ t, exec (.sampler whip ctx) s = .next t ∧
      (∃ kv, t.ctx ctx = some { c with step := toks, scratch := [], draftNew := [], draftKv := kv }) ∧ (∀ x, x ≠ ctx → t.ctx
        x = s.ctx x) ∧
      t.whip whip.val = { s.whip whip.val with astat := BitVec.ofNat 16 (f % 128), sram := Memory.writeN 0 ((wordsBytes toks).take (2 ^ 20)) [], dmaIn := (sharedKey c.owner (leAt d 24 4 + leAt d 28 4 * firstRow s ctx), leAt d 28 4), dmaOut := (0, 0) }
        ∧ (∀ w, w ≠ whip.val → t.whip w = s.whip w) ∧ t.obj Obj.specSteps = (s.obj Obj.specSteps + 1) % 2 ^ objBits
        Obj.specSteps ∧
      Untouched [Obj.specSteps, Obj.specNodesVerified, Obj.specNodesAccepted, Obj.samplerResidualFallbacks] s t ∧ (∀ x, t.die
        x = { s.die x with dir := (t.die x).dir }) ∧
      t = { s with od := t.od, mem := t.mem, dies := t.dies, whips := t.whips, serve := t.serve, bad := t.bad }) ∧
  (∀ (whip : WhipId) (ctx : Nat) (c : Ctx) (im : Image) (d sd : Bytes) (key : Nat) (s : State), s.ctx ctx = some c → imageOf
    s c.slot = some im → imgRoutine im 0x03 = some d → imgRoutine im 0x02 = some sd → (imgRoutine im 0x04).isSome = true →
    whipRuns s whip.val = true → inStep s ctx = true → grantedNodes s ctx ≠ 0 → c.step = [] → c.drafted = 0 → c.tree = [] →
    key = sharedKey c.owner (leAt sd 40 4 + leAt sd 28 4 * firstRow s ctx) →
    ∃ t, exec (.draftExecutor whip ctx 0) s = .next t ∧
      t.ctx ctx = some { c with tree := [treeRoot c], drafted := 1, draftNew := c.draftNew ++ [(0, Sys2Proof.Config.draftEntry (draftSection im d) (recent (leAt d 32 2) (pathTokens { c with tree := [treeRoot c] } 8 0)))] }
        ∧ (∀ x, x ≠ ctx → t.ctx x = s.ctx x) ∧
      Stored key (wordsBytes (draftRow d (draftSection im d) (recent (leAt d 32 2) (pathTokens
        { c with tree := [treeRoot c] } 8 0)) (draftAttends { c with tree := [treeRoot c] } (leAt d 32 2) 8 0)).1) s t ∧
        t.whip whip.val = { s.whip whip.val with astat := BitVec.ofNat 16 ((draftRow d (draftSection im d) (recent (leAt d 32 2) (pathTokens { c with tree := [treeRoot c] } 8 0)) (draftAttends { c with tree := [treeRoot c] } (leAt d 32 2) 8 0)).2 % 128), sram := Memory.writeN 0 ((wordsBytes (draftRow d (draftSection im d) (recent (leAt d 32 2) (pathTokens { c with tree := [treeRoot c] } 8 0)) (draftAttends { c with tree := [treeRoot c] } (leAt d 32 2) 8 0)).1).take (2 ^ 20)) [], dmaIn := (0, 0), dmaOut := (key, 4 * leAt d 36 4) }
        ∧ (∀ w, w ≠ whip.val → t.whip w = s.whip w) ∧
      t = { s with mem := t.mem, whips := t.whips, serve := t.serve, bad := t.bad }) ∧
  (∀ (whip : WhipId) (ctx level : Nat) (c : Ctx) (im : Image) (d sd : Bytes) (s : State), s.ctx ctx = some c → imageOf s
    c.slot = some im → imgRoutine im 0x03 = some d → imgRoutine im 0x02 = some sd → (imgRoutine im 0x04).isSome = true →
    whipRuns s whip.val = true → inStep s ctx = true → grantedNodes s ctx ≠ 0 → c.step = [] → level = c.drafted → c.tree ≠ []
    →
    ∃ t, exec (.draftExecutor whip ctx level) s = .next t ∧
      (∃ kv, t.ctx ctx = some { c with drafted := level + 1, draftNew := c.draftNew ++ kv } ∧ kv.map (fun p => p.1) =
        (List.range c.tree.length).filter (fun i => (c.tree[i]?).any (fun n => n.depth == level))) ∧ (∀ x, x ≠ ctx → t.ctx x
        = s.ctx x) ∧
      (∀ w, w ≠ whip.val → t.whip w = s.whip w) ∧ (∀ k, (∀ n ∈ c.tree, n.depth = level → k < sharedKey c.owner (leAt sd 40 4
        + leAt sd 28 4 * (firstRow s ctx + n.shape)) ∨
          sharedKey c.owner (leAt sd 40 4 + leAt sd 28 4 * (firstRow s ctx + n.shape)) + 4 * leAt d 36 4 ≤ k) → Memory.read
            t.mem k = Memory.read s.mem k) ∧
      t = { s with mem := t.mem, whips := t.whips, serve := t.serve, bad := t.bad }) ∧
  (∀ (whip : WhipId) (ctx : Nat) (c : Ctx) (im : Image) (d sd : Bytes) (tree : List TreeNode) (f : Flags) (s : State), s.ctx
    ctx = some c → imageOf s c.slot = some im → imgRoutine im 0x04 = some d → imgRoutine im 0x02 = some sd → whipRuns s
    whip.val = true → inStep s ctx = true → grantedNodes s ctx ≠ 0 → c.drafted ≠ 0 → c.step = [] → runFlags ((List.range
    (grantedNodes s ctx)).foldlM (fun x i => growNode s im sd c (firstRow s ctx) (d.drop 20) (i + 1) x) [treeRoot c]) =
    (tree, f) →
    ∃ t, exec (.treeBuilder whip ctx) s = .next t ∧
      t.ctx ctx = some { c with tree } ∧ tree.take 1 = [treeRoot c] ∧ tree.length ≤ grantedNodes s ctx + 1 ∧ (∀ x, x ≠ ctx →
        t.ctx x = s.ctx x) ∧
      Stored (treeRecordKey d c (firstRow s ctx)) (treeRecord { c with tree }) s t ∧ t.whip whip.val =
        { s.whip whip.val with astat := BitVec.ofNat 16 (f % 128), sram := Memory.writeN 0 ((treeRecord { c with tree }).take (2 ^ 20)) [], dmaIn := (sharedKey c.owner (leAt sd 40 4 + leAt sd 28 4 * firstRow s ctx), leAt sd 28 4), dmaOut := (treeRecordKey d c (firstRow s ctx), 192) }
        ∧ (∀ w, w ≠ whip.val → t.whip w = s.whip w) ∧
      t = { s with mem := t.mem, whips := t.whips, serve := t.serve, bad := t.bad }) ∧
  (∀ (whip : WhipId) (ctx : Nat) (c : Ctx) (im : Image) (d : Bytes) (r : Detok) (s : State), s.ctx ctx = some c → imageOf s
    c.slot = some im → imgRoutine im 0x05 = some d → whipRuns s whip.val = true → inStep s ctx = true → c.step ≠ [] →
    c.ending = none → r = c.step.foldl (detokStep (tokenBytes s im (whipDie whip.val) c.slot d) c.stops ((imgRoutine im
    0x02).map (fun x => leAt x 36 4)) c.maxTok c.output.length) { text := c.text, out := [], count := [] } → r.ended = none →
    ∀ p ∈ s.sched.sets, p.2.streams.any (fun x => x.1 == ctx) = true → ∃ it ∈ s.sched.items, it.kind ≠ 0 ∧ it.set_ = p.1 ∧
    it.ctx = none →
    ∃ t, exec (.detokenizer whip ctx) s = .next t ∧
      (∃ x, t.ctx ctx = some x ∧ x.output = c.output ++ r.count ∧ x.text = r.text ∧ x.step = [] ∧ x.prompt = c.prompt ∧
        x.phase = c.phase ∧ x.tree = c.tree) ∧ (∀ x, x ≠ ctx → t.ctx x = s.ctx x) ∧
      (∀ n x, tfind n t.sched.sets = some x → x.streams.any (fun y => y.1 == ctx) = true → x.over_.contains ctx = true) ∧
        t.whip whip.val = { s.whip whip.val with astat := BitVec.ofNat 16 (0 % 128), sram := Memory.writeN 0 ((wordsBytes c.step).take (2 ^ 20)) [], dmaIn := (0, 0), dmaOut := (0, 0) }
        ∧ (∀ w, w ≠ whip.val → t.whip w = s.whip w) ∧ Untouched [] s t ∧
      t = { s with sched := t.sched, whips := t.whips, serve := t.serve, out := t.out, free := t.free }) ∧
  (∀ (whip : WhipId) (ctx : Nat) (c : Ctx) (im : Image) (d : Bytes) (r : Detok) (reason : Nat) (stop : Bool) (s : State),
    s.ctx ctx = some c → imageOf s c.slot = some im → imgRoutine im 0x05 = some d → whipRuns s whip.val = true → inStep s ctx
    = true → c.step ≠ [] → c.ending = none → r = c.step.foldl (detokStep (tokenBytes s im (whipDie whip.val) c.slot d)
    c.stops ((imgRoutine im 0x02).map (fun x => leAt x 36 4)) c.maxTok c.output.length)
    { text := c.text, out := [], count := [] } → r.ended = some (reason, stop) → ∀ p ∈ s.sched.sets, p.2.streams.any (fun x
    => x.1 == ctx) = true → ∃ it ∈ s.sched.items, it.kind ≠ 0 ∧ it.set_ = p.1 ∧ it.ctx = none →
    ∃ t, exec (.detokenizer whip ctx) s = .next t ∧
      t.ctx ctx = none ∧ (∀ n x, tfind n t.sched.sets = some x → x.streams.any (fun y => y.1 == ctx) = true →
        x.over_.contains ctx = true) ∧ (stop = true → t.obj Obj.stopStringHits = (s.obj Obj.stopStringHits + 1) % 2 ^ objBits
        Obj.stopStringHits) ∧ t.whip whip.val =
        { s.whip whip.val with astat := BitVec.ofNat 16 (0 % 128), sram := Memory.writeN 0 ((wordsBytes c.step).take (2 ^ 20)) [], dmaIn := (0, 0), dmaOut := (0, 0) }
        ∧ (∀ w, w ≠ whip.val → t.whip w = s.whip w) ∧
      t = { s with
          od := t.od, dies := t.dies, whips := t.whips, sched := t.sched, tags := t.tags, dram := t.dram
          serve := t.serve, beagle := t.beagle, log := t.log, out := t.out, free := t.free }) ∧
  (∀ (whip : WhipId) (ctx : Nat) (c : Ctx) (e : Nat × Nat) (s : State), s.ctx ctx = some c → whipRuns s whip.val = true →
    inStep s ctx = true → c.ending = some e → ∀ p ∈ s.sched.sets, p.2.streams.any (fun x => x.1 == ctx) = true → ∃ it ∈
    s.sched.items, it.kind ≠ 0 ∧ it.set_ = p.1 ∧ it.ctx = none →
    ∃ t, exec (.detokenizer whip ctx) s = .next t ∧
      t.ctx ctx = none ∧ (∀ n x, tfind n t.sched.sets = some x → x.streams.any (fun y => y.1 == ctx) = true →
        x.over_.contains ctx = true) ∧ t.whip whip.val =
        { s.whip whip.val with astat := BitVec.ofNat 16 (0 % 128), sram := Memory.writeN 0 ((wordsBytes c.step).take (2 ^ 20)) [], dmaIn := (0, 0), dmaOut := (0, 0) }
        ∧ (∀ w, w ≠ whip.val → t.whip w = s.whip w) ∧
      t = { s with
          od := t.od, dies := t.dies, whips := t.whips, sched := t.sched, tags := t.tags, dram := t.dram
          serve := t.serve, beagle := t.beagle, log := t.log, out := t.out, free := t.free }) ∧
  (∀ (whip : WhipId) (s : State), whipIdle s whip.val = true →
    ∃ t, exec (.housekeeping whip) s = .next t ∧
      t.cvu whip.val = { s.cvu whip.val with saved := some ((s.cvu whip.val).ctrl, (s.cvu whip.val).poly, (s.cvu whip.val).xorout, (s.cvu whip.val).reg) }
        ∧
      t.whip whip.val = { s.whip whip.val with astat := 0, sram := [], dmaIn := (0, 0), dmaOut := (0, 0) } ∧ (∀ n, n ≠
        whip.val → t.cvu n = s.cvu n ∧ t.whip n = s.whip n) ∧
      t = { s with whips := t.whips, cvus := t.cvus })

/-- DRAM_TRAINING_DONE of a stack in training, quick where its stored values are good and full where not: with all channels
  passed the stack serves, marked rows are replaced while spares last, and full training alone stores new values; a
  failed quick training makes the stored values invalid and a failed full one fails the stack. DRAM_RECENTER and REFRESH
  note the beat. DRAM_SCRUB of a unit that is due moves the scrub on; a corrected error is counted, and the eighth in a
  row within 24 h is logged and marks the row for repair; an uncorrectable one is counted and logged, its unit is known
  to be in error, and the first of a page of the pool poisons the page, which leaves the pool with what it held; one of
  the firmware area loses trace records. IMAGE_DATA_RELOAD_DONE writes the lost pages of a slot again. A command that is
  not due, or of a failed stack, changes nothing. -/
def Obligations.DramStacks : Prop :=
  (∀ (k : StackId) (done : List Nat) (u : State) (s : State), tget 0 k.val s.dram.stackSt = 3 → quickTrains s k.val = false →
    done = (s.dram.repair.filter (fun r => r / 2 ^ 30 == k.val)).take (tget 0 k.val s.dram.spareRows) → u = (s.setObj
    Obj.dramTrainMode 1).count Obj.dramRowsRepaired done.length →
    ∃ t, exec (.dramTrainingDone k 0xFFFF true) s = .next t ∧
      t = settleDram { u with dram := { s.dram with stackSt := tset k.val (stackServes s k.val) s.dram.stackSt, trained := tset k.val (stackTemp s k.val) s.dram.trained, repair := s.dram.repair.filter (fun r => !done.contains r), spareRows := tset k.val (tget 0 k.val s.dram.spareRows - done.length) s.dram.spareRows, rowHits := s.dram.rowHits.filter (fun (p : Nat × List Nat) => !done.contains p.1) } }) ∧
  (∀ (k : StackId) (done : List Nat) (u : State) (s : State), tget 0 k.val s.dram.stackSt = 3 → quickTrains s k.val = true →
    done = (s.dram.repair.filter (fun r => r / 2 ^ 30 == k.val)).take (tget 0 k.val s.dram.spareRows) → u = s.count
    Obj.dramRowsRepaired done.length →
    ∃ t, exec (.dramTrainingDone k 0xFFFF false) s = .next t ∧
      t = settleDram { u with dram := { s.dram with stackSt := tset k.val (stackServes s k.val) s.dram.stackSt, repair := s.dram.repair.filter (fun r => !done.contains r), spareRows := tset k.val (tget 0 k.val s.dram.spareRows - done.length) s.dram.spareRows, rowHits := s.dram.rowHits.filter (fun (p : Nat × List Nat) => !done.contains p.1) } }) ∧
  (∀ (k : StackId) (channels : W16) (s : State), tget 0 k.val s.dram.stackSt = 3 → quickTrains s k.val = true → channels ≠
    0xFFFF →
    ∃ t, exec (.dramTrainingDone k channels false) s = .next t ∧
      t = { s with dram := { s.dram with trained := terase k.val s.dram.trained } }) ∧
  (∀ (k : StackId) (channels : W16) (s : State), tget 0 k.val s.dram.stackSt = 3 → quickTrains s k.val = false → channels ≠
    0xFFFF →
    ∃ t, exec (.dramTrainingDone k channels true) s = .next t ∧
      t.dram.stackSt = tset k.val 2 s.dram.stackSt ∧ t.obj Obj.stackFailures = (s.obj Obj.stackFailures + 1) % 2 ^ objBits
        Obj.stackFailures ∧ t.obj Obj.dramTrainMode = 1 ∧ (t.obj Obj.stateReasons).testBit 4 = true ∧
      t = { s with
          beat := t.beat, od := t.od, dies := t.dies, sched := t.sched, strings := t.strings, tags := t.tags
          dram := t.dram, ports := t.ports, serve := t.serve, images := t.images, time := t.time, dev := t.dev
          pod := t.pod, test := t.test, beagle := t.beagle, log := t.log, out := t.out, free := t.free }) ∧
  (∀ (k : StackId) (channels : W16) (full : Bool) (s : State), tget 0 k.val s.dram.stackSt ≠ 3 ∨ full = quickTrains s k.val →
    ∃ t, exec (.dramTrainingDone k channels full) s = .next t ∧
      t = s) ∧
  (∀ (k : StackId) (channel : Fin 16) (s : State), tget 0 k.val s.dram.stackSt ≤ 1 → tget 0 (16 * k.val + channel.val)
    s.dram.recentred + 1000000000 ≤ s.beat →
    ∃ t, exec (.dramRecenter k channel) s = .next t ∧
      t = { s with dram := { s.dram with recentred := tset (16 * k.val + channel.val) s.beat s.dram.recentred } }) ∧
  (∀ (k : StackId) (channel : Fin 16) (s : State), 1 < tget 0 k.val s.dram.stackSt ∨ ¬tget 0 (16 * k.val + channel.val)
    s.dram.recentred + 1000000000 ≤ s.beat →
    ∃ t, exec (.dramRecenter k channel) s = .next t ∧
      t = s) ∧
  (∀ (k : StackId) (s : State), tget 0 k.val s.dram.stackSt ≠ 2 →
    ∃ t, exec (.refresh k) s = .next t ∧
      t = { s with dram := { s.dram with refreshed := tset k.val s.beat s.dram.refreshed } }) ∧
  (∀ (k : StackId) (s : State), tget 0 k.val s.dram.stackSt = 2 →
    ∃ t, exec (.refresh k) s = .next t ∧
      t = s) ∧
  (∀ (k : StackId) (unit : Nat) (x : Nat × Nat) (s : State), tget 0 k.val s.dram.stackSt ≠ 2 → unit < stackUnits → scrubStep
    s k.val unit = some x →
    ∃ t, exec (.dramScrub k unit 0) s = .next t ∧
      t = { s with dram := { s.dram with scrub := tset k.val x s.dram.scrub } }) ∧
  (∀ (k : StackId) (unit row : Nat) (x : Nat × Nat) (hits : List Nat) (s : State), tget 0 k.val s.dram.stackSt ≠ 2 → unit <
    stackUnits → scrubStep s k.val unit = some x → row = 2 ^ 30 * k.val + unit / 16 → hits = ((tget [] row
    s.dram.rowHits).filter (fun b => decide (s.beat < b + 86400000000000)) ++ [s.beat]) → hits.length < 8 ∨
    s.dram.repair.contains row = true →
    ∃ t, exec (.dramScrub k unit 1) s = .next t ∧
      t.dram = { s.dram with scrub := tset k.val x s.dram.scrub, rowHits := tset row hits s.dram.rowHits } ∧
      t.obj Obj.dramCorrected = (s.obj Obj.dramCorrected + 1) % 2 ^ objBits Obj.dramCorrected ∧ Untouched [Obj.dramCorrected]
        s t ∧
      t = { s with od := t.od, dram := t.dram }) ∧
  (∀ (k : StackId) (unit row : Nat) (x : Nat × Nat) (hits : List Nat) (s : State), tget 0 k.val s.dram.stackSt ≠ 2 → unit <
    stackUnits → scrubStep s k.val unit = some x → row = 2 ^ 30 * k.val + unit / 16 → hits = ((tget [] row
    s.dram.rowHits).filter (fun b => decide (s.beat < b + 86400000000000)) ++ [s.beat]) → 8 ≤ hits.length ∧
    s.dram.repair.contains row = false →
    ∃ t, exec (.dramScrub k unit 1) s = .next t ∧
      t.dram = { s.dram with scrub := tset k.val x s.dram.scrub, rowHits := tset row hits s.dram.rowHits, repair := s.dram.repair ++ [row] }
        ∧
      CountedOnly Obj.dramCorrected s t ∧ Logged Obj.dramCorrected 1 0 (stackSite k.val) 0 (leBytes 8 (unit / 16)) s t ∧
      t = { s with od := t.od, dram := t.dram, beagle := t.beagle, log := t.log }) ∧
  (∀ (k : StackId) (unit g : Nat) (x : Nat × Nat) (s : State), tget 0 k.val s.dram.stackSt ≠ 2 → unit < stackUnits →
    scrubStep s k.val unit = some x → g = offsetHome k.val (64 * unit) → g / 65536 < poolPages → s.dram.poisoned.contains (g
    / 65536) = false → tfind (g / 65536) s.dram.used = none → s.dies.all (fun (d : Nat × Die) => (cacheFind d.2 (g /
    65536)).isNone) = true →
    ∃ t, exec (.dramScrub k unit 2) s = .next t ∧
      t.dram = { s.dram with scrub := tset k.val x s.dram.scrub, poisoned := s.dram.poisoned ++ [g / 65536], owner := terase (g / 65536) s.dram.owner, used := terase (g / 65536) s.dram.used }
        ∧
      t.obj Obj.dramUncorrected = (s.obj Obj.dramUncorrected + 1) % 2 ^ objBits Obj.dramUncorrected ∧ t.obj
        Obj.dramPagesPoisoned = (s.obj Obj.dramPagesPoisoned + 1) % 2 ^ objBits Obj.dramPagesPoisoned ∧
      Untouched ([Obj.dramUncorrected, Obj.dramPagesPoisoned] ++ logCounters) s t ∧ t.bad = s.bad ++ ((List.range 8).map (fun
        i => homeKey g + 8 * i)).filter (fun w => !s.bad.contains w) ∧ Logged Obj.dramUncorrected 0 0 (stackSite (pageStack
        (g / 65536))) 0 (leBytes 8 g) s t ∧
      t = { s with od := t.od, dram := t.dram, beagle := t.beagle, log := t.log, bad := t.bad }) ∧
  (∀ (k : StackId) (unit g : Nat) (x : Nat × Nat) (u : State) (s : State), tget 0 k.val s.dram.stackSt ≠ 2 → unit <
    stackUnits → scrubStep s k.val unit = some x → g = offsetHome k.val (64 * unit) → g / 65536 < poolPages →
    s.dram.poisoned.contains (g / 65536) = false → u = markBad (homeKey (g / 64 * 64)) (countLog Obj.dramUncorrected 0 0
    (stackSite (pageStack (g / 65536))) 0 (leBytes 8 g)
    { s with dram := { s.dram with scrub := tset k.val x s.dram.scrub } }) →
    ∃ t, exec (.dramScrub k unit 2) s = .next t ∧
      t = losePage (g / 65536) ({ u with dram := { u.dram with poisoned := u.dram.poisoned ++ [g / 65536] } }.count
        Obj.dramPagesPoisoned 1)) ∧
  (∀ (k : StackId) (unit g : Nat) (x : Nat × Nat) (s : State), tget 0 k.val s.dram.stackSt ≠ 2 → unit < stackUnits →
    scrubStep s k.val unit = some x → g = offsetHome k.val (64 * unit) → g / 65536 < poolPages → s.dram.poisoned.contains (g
    / 65536) = true →
    ∃ t, exec (.dramScrub k unit 2) s = .next t ∧
      t.dram = { s.dram with scrub := tset k.val x s.dram.scrub } ∧ CountedOnly Obj.dramUncorrected s t ∧ t.bad = s.bad ++
        ((List.range 8).map (fun i => homeKey (g / 64 * 64) + 8 * i)).filter (fun w => !s.bad.contains w) ∧ Logged
        Obj.dramUncorrected 0 0 (stackSite (pageStack (g / 65536))) 0 (leBytes 8 g) s t ∧
      t = { s with od := t.od, dram := t.dram, beagle := t.beagle, log := t.log, bad := t.bad }) ∧
  (∀ (k : StackId) (unit g : Nat) (x : Nat × Nat) (s : State), tget 0 k.val s.dram.stackSt ≠ 2 → unit < stackUnits →
    scrubStep s k.val unit = some x → g = offsetHome k.val (64 * unit) → poolPages ≤ g / 65536 →
    ∃ t, exec (.dramScrub k unit 2) s = .next t ∧
      t.dram = { s.dram with scrub := tset k.val x s.dram.scrub } ∧ t.obj Obj.dramUncorrected = (s.obj Obj.dramUncorrected +
        1) % 2 ^ objBits Obj.dramUncorrected ∧ Untouched (Obj.dramUncorrected :: logCounters) s t ∧ Logged
        Obj.dramUncorrected 0 0 (stackSite (pageStack (g / 65536))) 0 (leBytes 8 g) s t ∧ t.free = s.free + 2 ∧
      t = { s with od := t.od, dram := t.dram, beagle := t.beagle, log := t.log, free := t.free }) ∧
  (∀ (k : StackId) (unit : Nat) (err : Fin 3) (s : State), tget 0 k.val s.dram.stackSt = 2 ∨ stackUnits ≤ unit ∨ scrubStep s
    k.val unit = none →
    ∃ t, exec (.dramScrub k unit err) s = .next t ∧
      t = s) ∧
  (∀ (slot : SlotId) (im : Image) (u : State) (s : State), imageOf s slot.val = some im → s.dram.lost.filter (fun (x : Nat ×
    Nat) => x.1 == slot.val) ≠ [] → u = (s.dram.lost.filter (fun (x : Nat × Nat) => x.1 == slot.val)).foldl (fun v p => match
    indexIn p.2 (s.imgSlot slot.val).pages with | some i => writeImagePage im i p.2 v | none => v) s →
    ∃ t, exec (.imageDataReloadDone slot) s = .next t ∧
      t = settleDram { u with dram := { s.dram with lost := s.dram.lost.filter (fun (x : Nat × Nat) => x.1 != slot.val) } }) ∧
  (∀ (slot : SlotId) (im : Image) (p i : Nat) (s : State), imageOf s slot.val = some im → s.dram.lost.filter (fun (x : Nat ×
    Nat) => x.1 == slot.val) = [(slot.val, p)] → indexIn p (s.imgSlot slot.val).pages = some i →
    ∃ t, exec (.imageDataReloadDone slot) s = .next t ∧
      t.mem = (writeImagePage im i p s).mem ∧ t.dram =
        { s.dram with lost := s.dram.lost.filter (fun (x : Nat × Nat) => x.1 != slot.val) } ∧
      t = { s with
          beat := t.beat, od := t.od, mem := t.mem, strings := t.strings, dram := t.dram, ports := t.ports
          time := t.time, dev := t.dev, pod := t.pod, test := t.test, beagle := t.beagle, bad := t.bad
          free := t.free }) ∧
  (∀ (slot : SlotId) (s : State), imageOf s slot.val = none ∨ s.dram.lost.filter (fun (x : Nat × Nat) => x.1 == slot.val) =
    [] →
    ∃ t, exec (.imageDataReloadDone slot) s = .next t ∧
      t = s)

/-- At ARBITER_DECISION a committed set is applied and the point is counted. An arbiter that is open, has its share of
  grants left and has a pending requester, the receive path of a die among them while an inbound write waits for the
  port, grants the pick, advances the wait counts and the round-robin point and emits the grant; a pick not forced by
  its wait count has the highest priority among the pending ones, and a forced one has a wait count at the limit and is
  counted. A grant of a die's port to the receive path lets the inbound write it asked for land, and one of the hub port
  to the Beagle stores a trace record. Otherwise nothing is granted. DIE_RESET of a die that is up stops it: its
  Whippets are idle and their check-value units have their reset values, its reads, fills and merges and the stores and
  writes that waited are gone, entries under fill leave its directory, the wait counts and round-robin points of its two
  arbiters begin anew, its Soundboard is in retention, which is counted, and the reset is noted; no other die is changed
  but for flags and windows. DIE_RESET_END of a die in reset with its rails on ends it: the Soundboard serves, at half
  its grants where it is hot, and the results of its crossings are kept. SCRUB_PASS of a die that is up, once in
  scrub_period_h, notes the pass, counts corrected errors of die-shared SRAM and the Soundboard, and counts, logs and
  remembers uncorrectable ones. Otherwise these commands change nothing. -/
def Obligations.ArbitersAndResets : Prop :=
  (∀ (arb c win : Nat) (cand : List Nat) (forced : Bool) (s : State), arbClass arb = some c → arbOpen s arb = true →
    arbHalved s arb = false ∨ (arbPoint (arbHalved s arb) (arbSwitch (s.arb arb))).given < 8 → arbPick (arbPoint (arbHalved s
    arb) (arbSwitch (s.arb arb))) c (arbCand arb c (arbAsking s arb cand)) = some (win, forced) → arb ≠ 160 ∨ win ≠ 31 → 32 ≤
    arb ∨ win ≠ 0 →
    ∃ t, exec (.arbiterDecision arb cand) s = .next t ∧
      t.arb arb = arbGranted (arbPoint (arbHalved s arb) (arbSwitch (s.arb arb))) c win (arbCand arb c (arbAsking s arb
        cand)) ∧ (∀ a, a ≠ arb → t.arb a = s.arb a) ∧ t.out = s.out ++ [.grant arb win] ∧
      win ∈ arbCand arb c (arbAsking s arb cand) ∧ (forced = false → ∀ r ∈ arbCand arb c (arbAsking s arb cand), arbPrio
        (arbPoint (arbHalved s arb) (arbSwitch (s.arb arb))) c r ≤ arbPrio (arbPoint (arbHalved s arb) (arbSwitch (s.arb
        arb))) c win) ∧
      (forced = true → (arbPoint (arbHalved s arb) (arbSwitch (s.arb arb))).limit ≤ tget 0 win (arbPoint (arbHalved s arb)
        (arbSwitch (s.arb arb))).wait ∧ t.obj Obj.arbForcedWins = (s.obj Obj.arbForcedWins + 1) % 2 ^ objBits
        Obj.arbForcedWins) ∧ Untouched (if forced then [Obj.arbForcedWins] else []) s t ∧
      t = { s with od := t.od, arbs := t.arbs, out := t.out }) ∧
  (∀ (c : Nat) (forced : Bool) (cand : List Nat) (u : State) (s : State), arbClass 160 = some c → arbOpen s 160 = true →
    arbHalved s 160 = false ∨ (arbPoint (arbHalved s 160) (arbSwitch (s.arb 160))).given < 8 → arbPick (arbPoint (arbHalved s
    160) (arbSwitch (s.arb 160))) c (arbCand 160 c (arbAsking s 160 cand)) = some (31, forced) → u = ((if forced then
    ((s.setArb 160 (arbPoint (arbHalved s 160) (arbSwitch (s.arb 160)))).setArb 160 (arbGranted (arbPoint (arbHalved s 160)
    (arbSwitch (s.arb 160))) c 31 (arbCand 160 c (arbAsking s 160 cand)))).count Obj.arbForcedWins 1 else (s.setArb 160
    (arbPoint (arbHalved s 160) (arbSwitch (s.arb 160)))).setArb 160 (arbGranted (arbPoint (arbHalved s 160) (arbSwitch
    (s.arb 160))) c 31 (arbCand 160 c (arbAsking s 160 cand))))).emit (.grant 160 31) →
    ∃ t, exec (.arbiterDecision 160 cand) s = .next t ∧
      t = beagleGrant u) ∧
  (∀ (arb c : Nat) (forced : Bool) (cand : List Nat) (u : State) (s : State), arbClass arb = some c → arbOpen s arb = true →
    arbHalved s arb = false ∨ (arbPoint (arbHalved s arb) (arbSwitch (s.arb arb))).given < 8 → arbPick (arbPoint (arbHalved s
    arb) (arbSwitch (s.arb arb))) c (arbCand arb c (arbAsking s arb cand)) = some (0, forced) → arb < 32 → u = ((if forced
    then ((s.setArb arb (arbPoint (arbHalved s arb) (arbSwitch (s.arb arb)))).setArb arb (arbGranted (arbPoint (arbHalved s
    arb) (arbSwitch (s.arb arb))) c 0 (arbCand arb c (arbAsking s arb cand)))).count Obj.arbForcedWins 1 else (s.setArb arb
    (arbPoint (arbHalved s arb) (arbSwitch (s.arb arb)))).setArb arb (arbGranted (arbPoint (arbHalved s arb) (arbSwitch
    (s.arb arb))) c 0 (arbCand arb c (arbAsking s arb cand))))).emit (.grant arb 0) →
    ∃ t, exec (.arbiterDecision arb cand) s = .next t ∧
      t = inboundGrant arb u) ∧
  (∀ (arb : Nat) (s : State), inNext (s.die (arb / 2)) (arb % 2) = none → inboundGrant arb s = s) ∧
  (∀ (arb c : Nat) (cand : List Nat) (s : State), arbClass arb = some c → arbOpen s arb = false ∨ (arbHalved s arb = true ∧ 8
    ≤ (arbPoint (arbHalved s arb) (arbSwitch (s.arb arb))).given) ∨ arbCand arb c (arbAsking s arb cand) = [] →
    ∃ t, exec (.arbiterDecision arb cand) s = .next t ∧
      t = s.setArb arb (arbPoint (arbHalved s arb) (arbSwitch (s.arb arb)))) ∧
  (∀ (arb : Nat) (cand : List Nat) (s : State), 162 ≤ arb →
    ∃ t, exec (.arbiterDecision arb cand) s = .next t ∧
      t = s) ∧
  (∀ (die : DieId) (s : State), dieUp s die.val = true →
    ∃ t, exec (.dieReset die) s = .next t ∧
      (t.die die.val).reset = some s.beat ∧ (t.die die.val).sb = 1 ∧ (t.die die.val).fills = [] ∧ (t.die die.val).late = [] ∧
        (t.die die.val).inq = [] ∧ (t.die die.val).merges = [] ∧
      (t.die die.val).dir = (s.die die.val).dir.filter (fun (e : Nat × CacheEnt) => e.2.valid) ∧ (t.die die.val).off = false
        ∧
      (∀ x ∈ t.tags, x.site ≠ dieSite die.val) ∧ (∀ j, j < 16 → (t.whip (16 * die.val + j)).state = 0 ∧ t.cvu (16 * die.val +
        j) = {}) ∧
      (t.arb (2 * die.val)).wait = [] ∧ (t.arb (2 * die.val)).rr = 0 ∧ (t.arb (2 * die.val + 1)).wait = [] ∧ (t.arb (2 *
        die.val + 1)).rr = 0 ∧
      (∀ a, a ≠ 2 * die.val → a ≠ 2 * die.val + 1 → t.arb a = s.arb a) ∧ t.obj Obj.sbRetentionEntries = (s.obj
        Obj.sbRetentionEntries + 1) % 2 ^ objBits Obj.sbRetentionEntries ∧
      t = { s with
          od := t.od, mem := t.mem, cores := t.cores, wins := t.wins, dies := t.dies, whips := t.whips
          sched := t.sched, arbs := t.arbs, strings := t.strings, tags := t.tags, rmem := t.rmem, cvus := t.cvus
          kat := t.kat, bad := t.bad }) ∧
  (∀ (die : DieId) (s : State), dieUp s die.val = false →
    ∃ t, exec (.dieReset die) s = .next t ∧
      t = s) ∧
  (∀ (die : DieId) (xing : List (Nat × List (Nat × Int))) (u : State) (s : State), (s.die die.val).reset ≠ none → (s.die
    die.val).off = false → u = (calibrateDie die.val xing s).1 →
    ∃ t, exec (.dieResetEnd die xing) s = .next t ∧
      t = u.setDie die.val { u.die die.val with reset := none, sb := if sbHot u die.val then 2 else 0 }) ∧
  (∀ (die : DieId) (i taps : Nat) (res : Int) (s : State), (s.die die.val).reset ≠ none → (s.die die.val).off = false → i <
    64 → taps ≤ 1 →
    ∃ t, exec (.dieResetEnd die [(i, [(taps, res)])]) s = .next t ∧
      t = s.setDie die.val { (s.die die.val) with reset := none, sb := if sbHot s die.val then 2 else 0, xing := tset i (0, res) (s.die die.val).xing }) ∧
  (∀ (die : DieId) (xing : List (Nat × List (Nat × Int))) (s : State), (s.die die.val).reset = none ∨ (s.die die.val).off =
    true →
    ∃ t, exec (.dieResetEnd die xing) s = .next t ∧
      t = s) ∧
  (∀ (die : DieId) (words : List (Nat × Nat)) (u : State) (s : State), dieUp s die.val = true → (s.die die.val).scrubs = 0 ∨
    (s.die die.val).scrubAt + 3600000000000 * s.obj Obj.scrubPeriodH ≤ s.beat → u = words.foldl (scrubWord die.val) s →
    ∃ t, exec (.scrubPass die words) s = .next t ∧
      t = u.setDie die.val { u.die die.val with scrubs := (u.die die.val).scrubs + 1, scrubAt := u.beat }) ∧
  (∀ (die : DieId) (a : Nat) (s : State), dieUp s die.val = true → (s.die die.val).scrubs = 0 ∨ (s.die die.val).scrubAt +
    3600000000000 * s.obj Obj.scrubPeriodH ≤ s.beat → dieSramBase ≤ a ∧ a < dieSramBase + dieSramSize →
    ∃ t, exec (.scrubPass die [(a, 2)]) s = .next t ∧
      t.bad = (if s.bad.contains (memKey (dieSite die.val) (a / 8 * 8)) then s.bad else s.bad ++ [memKey (dieSite die.val) (a
        / 8 * 8)]) ∧ t.die die.val = { (s.die die.val) with scrubs := (s.die die.val).scrubs + 1, scrubAt := s.beat } ∧ (∀ d,
        d ≠ die.val → t.die d = s.die d) ∧
      CountedOnly Obj.sramUncorrected s t ∧ Logged Obj.sramUncorrected 0 0 (dieSite die.val) 0 (leBytes 8 a) s t ∧
      t = { s with od := t.od, dies := t.dies, beagle := t.beagle, log := t.log, bad := t.bad }) ∧
  (∀ (die : DieId) (a : Nat) (s : State), dieUp s die.val = true → (s.die die.val).scrubs = 0 ∨ (s.die die.val).scrubAt +
    3600000000000 * s.obj Obj.scrubPeriodH ≤ s.beat → dieSramBase ≤ a ∧ a < dieSramBase + dieSramSize →
    ∃ t, exec (.scrubPass die [(a, 1)]) s = .next t ∧
      t.die die.val = { (s.die die.val) with scrubs := (s.die die.val).scrubs + 1, scrubAt := s.beat } ∧ (∀ d, d ≠ die.val →
        t.die d = s.die d) ∧ t.obj Obj.sramCorrected = (s.obj Obj.sramCorrected + 1) % 2 ^ objBits Obj.sramCorrected ∧
        Untouched [Obj.sramCorrected] s t ∧
      t = { s with od := t.od, dies := t.dies }) ∧
  (∀ (die : DieId) (a : Nat) (s : State), dieUp s die.val = true → (s.die die.val).scrubs = 0 ∨ (s.die die.val).scrubAt +
    3600000000000 * s.obj Obj.scrubPeriodH ≤ s.beat → sbBase ≤ a ∧ a < sbBase + 512 * 2 ^ 20 ∧ ¬(dieSramBase ≤ a ∧ a <
    dieSramBase + dieSramSize) →
    ∃ t, exec (.scrubPass die [(a, 2)]) s = .next t ∧
      t.bad = (if s.bad.contains (memKey (dieSite die.val) (a / 8 * 8)) then s.bad else s.bad ++ [memKey (dieSite die.val) (a
        / 8 * 8)]) ∧ t.die die.val = { (s.die die.val) with scrubs := (s.die die.val).scrubs + 1, scrubAt := s.beat } ∧ (∀ d,
        d ≠ die.val → t.die d = s.die d) ∧
      CountedOnly Obj.sbUncorrected s t ∧ Logged Obj.sbUncorrected 0 0 (dieSite die.val) 0 (leBytes 8 a) s t ∧
      t = { s with od := t.od, dies := t.dies, beagle := t.beagle, log := t.log, bad := t.bad }) ∧
  (∀ (die : DieId) (a : Nat) (s : State), dieUp s die.val = true → (s.die die.val).scrubs = 0 ∨ (s.die die.val).scrubAt +
    3600000000000 * s.obj Obj.scrubPeriodH ≤ s.beat → sbBase ≤ a ∧ a < sbBase + 512 * 2 ^ 20 ∧ ¬(dieSramBase ≤ a ∧ a <
    dieSramBase + dieSramSize) →
    ∃ t, exec (.scrubPass die [(a, 1)]) s = .next t ∧
      t.die die.val = { (s.die die.val) with scrubs := (s.die die.val).scrubs + 1, scrubAt := s.beat } ∧ (∀ d, d ≠ die.val →
        t.die d = s.die d) ∧ t.obj Obj.sbCorrected = (s.obj Obj.sbCorrected + 1) % 2 ^ objBits Obj.sbCorrected ∧ Untouched
        [Obj.sbCorrected] s t ∧
      t = { s with od := t.od, dies := t.dies }) ∧
  (∀ (die : DieId) (words : List (Nat × Nat)) (s : State), dieUp s die.val = false ∨ ¬((s.die die.val).scrubs = 0 ∨ (s.die
    die.val).scrubAt + 3600000000000 * s.obj Obj.scrubPeriodH ≤ s.beat) →
    ∃ t, exec (.scrubPass die words) s = .next t ∧
      t = s)

/-- A CACHE_ACCESS of bytes of the pool inside one page, at a die that serves and that owns the page or takes it: a hit
  renews the entry's age, and a store is written in place and makes the page dirty; a store to a page under fill waits
  for it; a miss under 32 free reply tags fills the lowest free entry, or that of the victim, written back first if it
  is dirty, and is served without allocation where every page is pinned; it waits while fewer tags are free, and ends
  with path-lost where the page's stack has failed. An access of a page that another die owns, at a die that does not
  serve or outside the pool changes nothing, and one that crosses a page is two. PAGE_FILL_DONE of a fill whose reads
  have all landed makes the page valid and applies the stores that waited. KV_OWNER_MOVE gives a page to its new owner
  and takes it out of the old owner's directory. -/
def Obligations.SoundboardCache : Prop :=
  (∀ (die : DieId) (home e len : Nat) (b : Bytes) (x : CacheEnt) (s : State), b ≠ [] → home % 65536 + b.length ≤ 65536 → home
    + b.length ≤ 65536 * poolPages → (tfind (home / 65536) s.dram.owner = none ∨ tfind (home / 65536) s.dram.owner = some
    die.val) → sbServes s die.val = true → cacheFind (s.die die.val) (home / 65536) = some (e, x) → x.valid = true →
    ∃ t, exec (.cacheAccess die home (some b) len) s = .next t ∧
      t.die die.val = { (s.die die.val) with dir := tset e { x with age := s.beat, dirty := true } (s.die die.val).dir } ∧
      Stored (entryKey die.val e (home % 65536)) b s t ∧ (∀ w ∈ t.bad, w ∈ s.bad) ∧
      t.obj Obj.sbCacheHits = (s.obj Obj.sbCacheHits + 1) % 2 ^ objBits Obj.sbCacheHits ∧ Untouched [Obj.sbCacheHits] s t ∧
        (∀ d, d ≠ die.val → t.die d = s.die d) ∧
      t = { s with od := t.od, mem := t.mem, dies := t.dies, dram := { s.dram with owner := tset (home / 65536) die.val s.dram.owner }, bad := t.bad }) ∧
  (∀ (die : DieId) (home e len : Nat) (x : CacheEnt) (s : State), 0 < len → home % 65536 + len ≤ 65536 → home + len ≤ 65536 *
    poolPages → (tfind (home / 65536) s.dram.owner = none ∨ tfind (home / 65536) s.dram.owner = some die.val) → sbServes s
    die.val = true → cacheFind (s.die die.val) (home / 65536) = some (e, x) → x.valid = true →
    ∃ t, exec (.cacheAccess die home none len) s = .next t ∧
      t.die die.val = { (s.die die.val) with dir := tset e { x with age := s.beat } (s.die die.val).dir } ∧ t.obj
        Obj.sbCacheHits = (s.obj Obj.sbCacheHits + 1) % 2 ^ objBits Obj.sbCacheHits ∧ Untouched [Obj.sbCacheHits] s t ∧
      (∀ d, d ≠ die.val → t.die d = s.die d) ∧ t =
        { s with od := t.od, dies := t.dies, dram := { s.dram with owner := tset (home / 65536) die.val s.dram.owner } }) ∧
  (∀ (die : DieId) (home n len : Nat) (store : Option Bytes) (e : Nat) (x : CacheEnt) (s : State), 0 < n → n = min
    ((store.map (fun (b : Bytes) => b.length)).getD len) 65536 → home % 65536 + n ≤ 65536 → home + n ≤ 65536 * poolPages →
    (tfind (home / 65536) s.dram.owner = none ∨ tfind (home / 65536) s.dram.owner = some die.val) → sbServes s die.val = true
    → cacheFind (s.die die.val) (home / 65536) = some (e, x) → x.valid = false →
    ∃ t, exec (.cacheAccess die home store len) s = .next t ∧
      t = lateStore die.val home store { s with dram := { s.dram with owner := tset (home / 65536) die.val s.dram.owner } }) ∧
  (∀ (die : DieId) (home n len : Nat) (store : Option Bytes) (s : State), 0 < n → n = min ((store.map (fun (b : Bytes) =>
    b.length)).getD len) 65536 → home % 65536 + n ≤ 65536 → home + n ≤ 65536 * poolPages → (tfind (home / 65536) s.dram.owner
    = none ∨ tfind (home / 65536) s.dram.owner = some die.val) → sbServes s die.val = true → cacheFind (s.die die.val) (home
    / 65536) = none → stackFailed s (pageStack (home / 65536)) = true →
    ∃ t, exec (.cacheAccess die home store len) s = .next t ∧
      t = pathLost none { s with dram := { s.dram with owner := tset (home / 65536) die.val s.dram.owner } }) ∧
  (∀ (die : DieId) (home n len : Nat) (store : Option Bytes) (s : State), 0 < n → n = min ((store.map (fun (b : Bytes) =>
    b.length)).getD len) 65536 → home % 65536 + n ≤ 65536 → home + n ≤ 65536 * poolPages → (tfind (home / 65536) s.dram.owner
    = none ∨ tfind (home / 65536) s.dram.owner = some die.val) → sbServes s die.val = true → cacheFind (s.die die.val) (home
    / 65536) = none → stackFailed s (pageStack (home / 65536)) = false → (freeTags s (dieSite die.val)).length < 32 →
    ∃ t, exec (.cacheAccess die home store len) s = .next t ∧
      t = lateStore die.val home store { s with dram := { s.dram with owner := tset (home / 65536) die.val s.dram.owner } }) ∧
  (∀ (die : DieId) (home n len : Nat) (store : Option Bytes) (e : Nat) (u : State) (s : State), 0 < n → n = min ((store.map
    (fun (b : Bytes) => b.length)).getD len) 65536 → home % 65536 + n ≤ 65536 → home + n ≤ 65536 * poolPages → (tfind (home /
    65536) s.dram.owner = none ∨ tfind (home / 65536) s.dram.owner = some die.val) → sbServes s die.val = true → cacheFind
    (s.die die.val) (home / 65536) = none → stackFailed s (pageStack (home / 65536)) = false → 32 ≤ (freeTags s (dieSite
    die.val)).length → freeEntry (s.die die.val) cacheEntries 0 = some e → u =
    { s with dram := { s.dram with owner := tset (home / 65536) die.val s.dram.owner } }.count Obj.sbCacheMisses 1 →
    ∃ t, exec (.cacheAccess die home store len) s = .next t ∧
      t = lateStore die.val home store (startFill die.val e (home / 65536) (freeTags s (dieSite die.val)) u)) ∧
  (∀ (die : DieId) (home n len : Nat) (store : Option Bytes) (e : Nat) (x : CacheEnt) (u : State) (s : State), 0 < n → n =
    min ((store.map (fun (b : Bytes) => b.length)).getD len) 65536 → home % 65536 + n ≤ 65536 → home + n ≤ 65536 * poolPages
    → (tfind (home / 65536) s.dram.owner = none ∨ tfind (home / 65536) s.dram.owner = some die.val) → sbServes s die.val =
    true → cacheFind (s.die die.val) (home / 65536) = none → stackFailed s (pageStack (home / 65536)) = false → 32 ≤
    (freeTags s (dieSite die.val)).length → freeEntry (s.die die.val) cacheEntries 0 = none → cacheVictim (s.die die.val) =
    some (e, x) → u = { s with dram := { s.dram with owner := tset (home / 65536) die.val s.dram.owner } }.count
    Obj.sbCacheMisses 1 →
    ∃ t, exec (.cacheAccess die home store len) s = .next t ∧
      t = lateStore die.val home store (startFill die.val e (home / 65536) (freeTags s (dieSite die.val)) (evictEntry die.val
        e u))) ∧
  (∀ (die : DieId) (home n len : Nat) (store : Option Bytes) (u : State) (s : State), 0 < n → n = min ((store.map (fun (b :
    Bytes) => b.length)).getD len) 65536 → home % 65536 + n ≤ 65536 → home + n ≤ 65536 * poolPages → (tfind (home / 65536)
    s.dram.owner = none ∨ tfind (home / 65536) s.dram.owner = some die.val) → sbServes s die.val = true → cacheFind (s.die
    die.val) (home / 65536) = none → stackFailed s (pageStack (home / 65536)) = false → 32 ≤ (freeTags s (dieSite
    die.val)).length → freeEntry (s.die die.val) cacheEntries 0 = none → cacheVictim (s.die die.val) = none → u =
    { s with dram := { s.dram with owner := tset (home / 65536) die.val s.dram.owner } }.count Obj.sbCacheMisses 1 →
    ∃ t, exec (.cacheAccess die home store len) s = .next t ∧
      t = (match store with
        | some b => sendWrite (b.length + 1) (dieSite die.val) (stackSite (pageStack (home / 65536))) (homeOffset home) b
          none none (u.count Obj.sbFillBypass 1)
        | none => u.count Obj.sbFillBypass 1)) ∧
  (∀ (die : DieId) (home n len : Nat) (store : Option Bytes) (s : State), n = min ((store.map (fun (b : Bytes) =>
    b.length)).getD len) 65536 → n = 0 ∨ 65536 * poolPages < home + n ∨ (home % 65536 + n ≤ 65536 ∧ (sbServes s die.val =
    false ∨ ¬(tfind (home / 65536) s.dram.owner = none ∨ tfind (home / 65536) s.dram.owner = some die.val))) →
    ∃ t, exec (.cacheAccess die home store len) s = .next t ∧
      t = s) ∧
  (∀ (die : DieId) (home n k len : Nat) (store : Option Bytes) (s : State), n = min ((store.map (fun (b : Bytes) =>
    b.length)).getD len) 65536 → k = 65536 - home % 65536 → k < n → home + n ≤ 65536 * poolPages →
    ∃ t, exec (.cacheAccess die home store len) s = .next t ∧
      t = cacheAccess die.val (home + k) (store.map (fun b => (b.drop k).take (n - k))) (cacheAccess die.val home (store.map
        (fun b => b.take k)) s)) ∧
  (∀ (die : DieId) (e page : Nat) (tags : List Nat) (s : State), (∀ j, j < 32 → (pathOf s (dieSite die.val) (stackSite
    (pageStack page)) ((homeOffset (65536 * page) + 64 * fillUnit j) / 64)).isSome = true) →
    ∃ l, (startFill die.val e page tags s).tags = s.tags ++ l ∧ l.length = 32 ∧ (∀ r ∈ l, r.site = dieSite die.val ∧
      r.purpose = 0 ∧ r.arg = page) ∧
    (startFill die.val e page tags s).die die.val =
      { (s.die die.val) with dir := tset e { page, valid := false, dirty := false, pinned := (stepPages s).contains page, age := s.beat } (s.die die.val).dir, fills := (s.die die.val).fills ++ [(page, 32)] }
      ∧
    startFill die.val e page tags s = { s with dies := (startFill die.val e page tags s).dies, strings := (startFill die.val e page tags s).strings, tags := s.tags ++ l }) ∧
  (∀ (die e : Nat) (s : State) (x : CacheEnt), tfind e (s.die die).dir = some x →
    evictEntry die e s = (let u := if x.valid && x.dirty then writeBack die e x.page s else s
      u.setDie die { u.die die with dir := terase e (u.die die).dir })) ∧
  (∀ (die : DieId) (page e : Nat) (x : CacheEnt) (u : State) (s : State), (s.die die.val).fills.find? (fun (f : Nat × Nat) =>
    f.1 == page) = some (page, 0) → cacheFind (s.die die.val) page = some (e, x) → u = ((s.die die.val).late.filter (fun (w :
    Nat × Bytes) => w.1 / 65536 == page)).foldl (fun s (w : Nat × Bytes) => storeClean (entryKey die.val e (w.1 % 65536)) w.2
    s) (s.setDie die.val { (s.die die.val) with fills := (s.die die.val).fills.filter (fun (f : Nat × Nat) => f.1 != page), late := (s.die die.val).late.filter (fun (w : Nat × Bytes) => w.1 / 65536 != page), dir := tset e { x with valid := true, dirty := !((s.die die.val).late.filter (fun (w : Nat × Bytes) => w.1 / 65536 == page)).isEmpty, age := s.beat } (s.die die.val).dir })
    →
    ∃ t, exec (.pageFillDone die page) s = .next t ∧
      t = startWaiting die.val (u.count Obj.dramFills 1)) ∧
  (∀ (die : DieId) (page e : Nat) (x : CacheEnt) (s : State), (s.die die.val).fills.find? (fun (f : Nat × Nat) => f.1 ==
    page) = some (page, 0) → cacheFind (s.die die.val) page = some (e, x) → (s.die die.val).late = [] →
    ∃ t, exec (.pageFillDone die page) s = .next t ∧
      t.die die.val = { (s.die die.val) with fills := (s.die die.val).fills.filter (fun (f : Nat × Nat) => f.1 != page), dir := tset e { x with valid := true, dirty := false, age := s.beat } (s.die die.val).dir }
        ∧
      t.obj Obj.dramFills = (s.obj Obj.dramFills + 1) % 2 ^ objBits Obj.dramFills ∧ Untouched [Obj.dramFills] s t ∧ (∀ d, d ≠
        die.val → t.die d = s.die d) ∧
      t = { s with od := t.od, dies := t.dies }) ∧
  (∀ (die : DieId) (page : Nat) (s : State), (∀ l, (s.die die.val).fills.find? (fun (f : Nat × Nat) => f.1 == page) = some l
    → l.2 ≠ 0) ∨ cacheFind (s.die die.val) page = none →
    ∃ t, exec (.pageFillDone die page) s = .next t ∧
      t = s) ∧
  (∀ (page : Nat) (dst : DieId) (s : State), page < poolPages → ∀ d ∈ tfind page s.dram.owner, cacheFind (s.die d) page =
    none ∧ (s.die d).fills.any (fun (f : Nat × Nat) => f.1 == page) = false ∧ (s.die d).late.any (fun (w : Nat × Bytes) =>
    w.1 / 65536 == page) = false →
    ∃ t, exec (.kvOwnerMove page dst) s = .next t ∧
      t = { s with dram := { s.dram with owner := tset page dst.val s.dram.owner } }) ∧
  (∀ (page e old : Nat) (dst : DieId) (x : CacheEnt) (s : State), page < poolPages → tfind page s.dram.owner = some old →
    (s.die old).fills.any (fun (f : Nat × Nat) => f.1 == page) = false → (s.die old).late.any (fun (w : Nat × Bytes) => w.1 /
    65536 == page) = false → cacheFind (s.die old) page = some (e, x) →
    ∃ t, exec (.kvOwnerMove page dst) s = .next t ∧
      t = { evictEntry old e s with dram := { s.dram with owner := tset page dst.val s.dram.owner } }) ∧
  (∀ (page old : Nat) (dst : DieId) (s : State), poolPages ≤ page ∨ (tfind page s.dram.owner = some old ∧ ((s.die
    old).fills.any (fun (f : Nat × Nat) => f.1 == page) = true ∨ (s.die old).late.any (fun (w : Nat × Bytes) => w.1 / 65536
    == page) = true)) →
    ∃ t, exec (.kvOwnerMove page dst) s = .next t ∧
      t = s)

/-- FRAME_TIME of a live string puts exactly one frame on it, where its injector raises no alarm: control or IDLE in
  training, and in service what R134 chooses: in an unreserved slot a retransmission that is due, else RELAY_CREDITS
  that are due, else the frame that the classes and their sources take turns to send, with the next sequence number, a
  credit spent and a place in the retry buffer; in a slot that a window has reserved nothing but that window's frames or
  IDLE. A powered bus sends IDLE, and a string that is not live sends nothing. A frame that fails its checks is
  discarded and counted, one without a sequence number for an unassigned site too; otherwise its acknowledgement and
  credits are taken, and a sequenced one is accepted in service with the number expected. IDLE_FRAME does no more than
  that, and on a bus it is at most counted as dropped. -/
def Obligations.FrameTimes : Prop :=
  (∀ (n : StringId) (s : State), stringLive s n.val = true → (s.str n.val).inject.mode ≠ 4 →
    ∃ t, exec (.frameTime n) s = .next t ∧
      (∃ f w, t.out = s.out ++ [.frame n.val f w]) ∧ (t.str n.val).count = (s.str n.val).count + 1 ∧
      t = { s with
          beat := t.beat, od := t.od, cores := t.cores, wins := t.wins, dies := t.dies, sched := t.sched
          strings := t.strings, tags := t.tags, dram := t.dram, ports := t.ports, rmem := t.rmem, serve := t.serve
          images := t.images, time := t.time, dev := t.dev, pod := t.pod, test := t.test, beagle := t.beagle
          log := t.log, out := t.out, free := t.free }) ∧
  (∀ (n : StringId) (u v : State) (s : State), stringLive s n.val = true → u = injectAlarms 64 n.val s → v = (if (u.str
    n.val).state = 6 then ctrlOrIdle n.val u else sendChoice n.val u) →
    ∃ t, exec (.frameTime n) s = .next t ∧
      t = v.setStr n.val { v.str n.val with count := (v.str n.val).count + 1 }) ∧
  (∀ (n : StringId) (c : Nat) (f : TxFrame) (own : Option Nat) (s : State), (s.str n.val).state ≤ 2 → isBus n.val = false →
    (s.str n.val).inject.mode = 0 → (s.str n.val).swap = [] → (s.str n.val).resend = [] → stringOwner s n.val ((s.str
    n.val).count.toNat % 16) = own → own ≠ none ∨ relayDue n.val s = false → classTurn (s.str n.val) (if (s.str n.val).held =
    false ∧ (s.str n.val).stopped = false ∧ (s.str n.val).unacked.length < 64 then [0, 1, 2, 3].filter (fun c => (classPick
    n.val (s.str n.val) own ((s.str n.val).count.toNat % 16) c).isSome) else []) = some c → classPick n.val (s.str n.val) own
    ((s.str n.val).count.toNat % 16) c = some f →
    ∃ t, exec (.frameTime n) s = .next t ∧
      (t.str n.val) = { (s.str n.val) with txSeq := (s.str n.val).txSeq + 1, unacked := (s.str n.val).unacked ++ [((s.str n.val).txSeq, { f with sent := s.beat })], spent := tset (rxBuffer n.val f.hdr) (tget 0 (rxBuffer n.val f.hdr) (s.str n.val).spent + 1) (s.str n.val).spent, txq := tset c ((tget [] c (s.str n.val).txq).filter (fun g => g.n != f.n)) (s.str n.val).txq, lastSrc := tset c (sourceOf f) (s.str n.val).lastSrc, passed := (t.str n.val).passed, count := (s.str n.val).count + 1, scr := (t.str n.val).scr }
        ∧
      (∀ w, own = some w → f.win = some w) ∧ (∀ k, k ≠ n.val → t.str k = { s.str k with unreported := (t.str k).unreported })
        ∧
      ∃ ack cls cnt w, t.out = s.out ++ [.frame n.val (mkFrame (withLink f.hdr n.val (s.str n.val).txSeq.toNat ack cls cnt)
        f.payload) w] ∧
      t = { s with strings := t.strings, out := t.out }) ∧
  (∀ (n : StringId) (s : State), isBus n.val = true → s.powered = true →
    ∃ t, exec (.frameTime n) s = .next t ∧
      t = emitFrame n.val (mkFrame (withLink (mkHdr opIDLE (stringEnds n.val).1 (stringEnds n.val).1 0 0 0 false) n.val 0 0 0
        0) []) s) ∧
  (∀ (n : StringId) (s : State), (isBus n.val = true ∧ s.powered = false) ∨ (isBus n.val = false ∧ stringLive s n.val =
    false) →
    ∃ t, exec (.frameTime n) s = .next t ∧
      t = s) ∧
  (∀ (n : Nat) (q : Byte) (f : TxFrame) (r : List (Byte × TxFrame)) (s : State), (s.str n).swap = [] → (s.str n).resend = (q,
    f) :: r → (s.str n).held = false →
    stringOwner s n ((s.str n).count.toNat % 16) = none → sendChoice n s = resendFrame n q f r s) ∧
  (∀ (n : Nat) (p : Bytes) (s u : State), (s.str n).swap = [] → (s.str n).resend = [] → relayDue n s = true → stringOwner s n
    ((s.str n).count.toNat % 16) = none →
    takeRelay n s = some (p, u) → sendChoice n s = putCtrl n p u) ∧
  (∀ (n w : Nat) (s : State), (s.str n).swap = [] → stringOwner s n ((s.str n).count.toNat % 16) = some w →
    (∀ x ∈ (s.str n).resend, x.2.win ≠ some w) → (∀ c, c < 4 → ∀ g ∈ tget [] c (s.str n).txq, g.win ≠ some w) → sendChoice n
      s = putIdle n s) ∧
  (∀ (n : StringId) (f : Frame) (s : State), isBus n.val = false →
    ∃ t, exec (.idleFrame n f) s = .next t ∧
      t = (receive n.val opIDLE f s).2) ∧
  (∀ (n : StringId) (f : Frame) (s : State), isBus n.val = true →
    ∃ t, exec (.idleFrame n f) s = .next t ∧
      t = if frameOk n.val f then s else s.count Obj.busDrops 1) ∧
  (∀ (n : StringId) (f : Frame) (q : Byte) (x : TxFrame) (rest : List (Byte × TxFrame)) (s : State), stringLive s n.val =
    true → hOp f.hdr = opIDLE → hDest f.hdr < 29 → (s.str n.val).inject.mode ≠ 2 → frameOk n.val f = true → (s.str
    (reverseString n.val)).state ≤ 2 → (s.str (reverseString n.val)).unacked = (q, x) :: rest → hAck f.hdr = q.toNat →
    ∃ t, exec (.idleFrame n f) s = .next t ∧
      (t.str (reverseString n.val)).unacked = rest ∧ (t.str (reverseString n.val)).timeouts = 0 ∧ (∀ k, k ≠ (reverseString
        n.val) → t.str k = s.str k) ∧
      t = { s with cores := t.cores, strings := t.strings, rmem := t.rmem }) ∧
  (∀ (n op : Nat) (f : Frame) (s : State), stringLive s n = true → (s.str n).inject.mode ≠ 2 → frameOk n f = false → receive
    n op f s = (none, s.count Obj.crcErrors 1)) ∧
  (∀ (n op : Nat) (f : Frame) (s : State), stringLive s n = true → (s.str n).inject.mode ≠ 2 → frameOk n f = true → hOp f.hdr
    = op → opSequenced op = false → 29 ≤ hDest f.hdr → receive n op f s = (none, s.count Obj.unassignedSiteDiscards 1)) ∧
  (∀ (n op : Nat) (f : Frame) (s : State), stringLive s n = true → (s.str n).inject.mode ≠ 2 → frameOk n f = true → hOp f.hdr
    = op → opSequenced op = false → hDest f.hdr < 29 → receive n op f s = (some f, linkIn n f.hdr s)) ∧
  (∀ (n op : Nat) (f : Frame) (s : State), stringLive s n = true → (s.str n).inject.mode ≠ 2 → frameOk n f = true → hOp f.hdr
    = op → opSequenced op = true → (s.str n).state ≤ 2 → hSeq f.hdr = (s.str n).rxSeq.toNat →
    receive n op f s = (some f, (linkIn n f.hdr s).setStr n
      { s.str n with rxSeq := (s.str n).rxSeq + 1, rxAck := (s.str n).rxSeq })) ∧
  (∀ (n op : Nat) (f : Frame) (s : State), stringLive s n = true → (s.str n).inject.mode ≠ 2 → frameOk n f = true → hOp f.hdr
    = op → opSequenced op = true → (s.str n).state = 6 ∨ hSeq f.hdr ≠ (s.str n).rxSeq.toNat → receive n op f s = (none,
    linkIn n f.hdr s))

/-- A control frame of a kind is taken as FrameTimes says of every frame. TRAIN_OFFER of a string in training that names it
  notes the credits it advertises and lets the other direction answer; one with highest level 0 (the model's reading,
  log entry 95) puts the string OUT and is logged with 0x1603. A TRAIN_ACCEPT of level 1 is noted; once both ends have
  sent and received one, both strings leave training at level 1 with fresh numbers, frame counts and scramblers, in the
  state of their usable lines. LANE_MAP notes a map the other end announces, and LANE_MAP_EFFECT puts an announced map
  in force at its frame count. RELAY_CREDITS moves every relay counter to the value it carries modulo 64. An ECHO that
  has come back to its origin gives half the round trip as latency; any other is returned. -/
def Obligations.LinkTraining : Prop :=
  (∀ (n : StringId) (f : Frame) (u : State) (s : State), receiveCtrl n.val 1 f s = (none, u) →
    ∃ t, exec (.trainOffer n f) s = .next t ∧
      t = u) ∧
  (∀ (n : StringId) (f : Frame) (p : Bytes) (u : State) (s : State), receiveCtrl n.val 1 f s = (some p, u) → ¬(pairTraining u
    n.val = true ∧ leAt p 2 2 = n.val) →
    ∃ t, exec (.trainOffer n f) s = .next t ∧
      t = u) ∧
  (∀ (n : StringId) (f : Frame) (p : Bytes) (u : State) (s : State), receiveCtrl n.val 1 f s = (some p, u) → pairTraining u
    n.val = true → leAt p 2 2 = n.val → leAt p 1 1 = 0 →
    ∃ t, exec (.trainOffer n f) s = .next t ∧
      t = logEvent Obj.stringState 0 0x1603 (stringEnds n.val).2 n.val p (enterString n.val 3 u)) ∧
  (∀ (n : StringId) (f : Frame) (p : Bytes) (u : State) (s : State), receiveCtrl n.val 1 f s = (some p, u) → pairTraining u
    n.val = true → leAt p 2 2 = n.val → leAt p 1 1 ≠ 0 →
    ∃ t, exec (.trainOffer n f) s = .next t ∧
      t = (noteCredits (reverseString n.val) p u).setStr (reverseString n.val)
        { (noteCredits (reverseString n.val) p u).str (reverseString n.val) with offerGot := true }) ∧
  (∀ (n : Nat) (p : Bytes) (s : State), (s.str n).state = 6 →
    tget 0 100 ((noteCredits n p s).str n).granted = leAt p 5 2 ∧ tget 0 101 ((noteCredits n p s).str n).granted = leAt p 7 2
      ∧ tget 0 103 ((noteCredits n p s).str n).granted = leAt p 10 2 ∧
    (∀ k, k < 4 → tget 0 (116 + k) ((noteCredits n p s).str n).granted = leAt p 9 1) ∧ (∀ k, k < 64 → tget 0 (132 + k)
      ((noteCredits n p s).str n).granted = leAt p 12 1) ∧
    (∀ m, m ≠ n → (noteCredits n p s).str m = s.str m)) ∧
  (∀ (n : Nat) (p : Bytes) (s : State), (s.str n).state ≠ 6 → noteCredits n p s = s) ∧
  (∀ (n : StringId) (f : Frame) (u : State) (s : State), receiveCtrl n.val 2 f s = (none, u) →
    ∃ t, exec (.trainAccept n f) s = .next t ∧
      t = u) ∧
  (∀ (n : StringId) (f : Frame) (p : Bytes) (u : State) (s : State), receiveCtrl n.val 2 f s = (some p, u) → ¬(pairTraining u
    n.val = true ∧ leAt p 2 2 = n.val ∧ leAt p 1 1 = 1) →
    ∃ t, exec (.trainAccept n f) s = .next t ∧
      t = u) ∧
  (∀ (n : StringId) (f : Frame) (p : Bytes) (u : State) (v : State) (s : State), receiveCtrl n.val 2 f s = (some p, u) →
    pairTraining u n.val = true → leAt p 2 2 = n.val → leAt p 1 1 = 1 → v = (noteCredits (reverseString n.val) p u).setStr
    (reverseString n.val) { (noteCredits (reverseString n.val) p u).str (reverseString n.val) with acceptGot := true } →
    ((v.str n.val).acceptSent && (v.str n.val).acceptGot && ((v.str (reverseString n.val)).acceptSent && (v.str
    (reverseString n.val)).acceptGot)) = false →
    ∃ t, exec (.trainAccept n f) s = .next t ∧
      t = v) ∧
  (∀ (n : StringId) (f : Frame) (p : Bytes) (u : State) (v : State) (s : State), receiveCtrl n.val 2 f s = (some p, u) →
    pairTraining u n.val = true → leAt p 2 2 = n.val → leAt p 1 1 = 1 → v = (noteCredits (reverseString n.val) p u).setStr
    (reverseString n.val) { (noteCredits (reverseString n.val) p u).str (reverseString n.val) with acceptGot := true } →
    ((v.str n.val).acceptSent && (v.str n.val).acceptGot && ((v.str (reverseString n.val)).acceptSent && (v.str
    (reverseString n.val)).acceptGot)) = true →
    ∃ t, exec (.trainAccept n f) s = .next t ∧
      t = settleAbrupt (trainDone (reverseString n.val) (trainDone n.val v))) ∧
  (∀ (n : Nat) (s : State), (s.str n).state = 6 → 13 ≤ (usableLines (s.str n)).length →
    let x := (trainDone n s).str n
    x.state = stateOf (usableLines (s.str n)).length ∧ x.level = 1 ∧ x.rxSeq = 0 ∧ x.rxAck = 0xFF ∧ x.count = 0 ∧ x.freed =
      [] ∧ x.stopped = false ∧
      x.echoDue = (s.str n).measure ∧ x.txSeq = BitVec.ofNat 8 x.unacked.length ∧ x.resend = x.unacked ∧ x.scr = (List.range
        16).map (fun j => BitVec.ofNat 31 (j + 1)) ∧
      (∀ k, k ≠ n → (trainDone n s).str k = s.str k)) ∧
  (∀ (n : StringId) (f : Frame) (u : State) (s : State), receiveCtrl n.val 3 f s = (none, u) →
    ∃ t, exec (.laneMap n f) s = .next t ∧
      t = u) ∧
  (∀ (n : StringId) (f : Frame) (p : Bytes) (u : State) (s : State), receiveCtrl n.val 3 f s = (some p, u) → (u.str
    (reverseString n.val)).newMap ≠ some (leAt p 2 2, (List.range 17).map (fun j => leAt p (4 + j) 1)) →
    ∃ t, exec (.laneMap n f) s = .next t ∧
      t = u.setStr n.val { u.str n.val with newMap := some (leAt p 2 2, (List.range 17).map (fun j => leAt p (4 + j) 1)), announced := true }) ∧
  (∀ (n : StringId) (f : Frame) (p : Bytes) (u : State) (s : State), receiveCtrl n.val 3 f s = (some p, u) → (u.str
    (reverseString n.val)).newMap = some (leAt p 2 2, (List.range 17).map (fun j => leAt p (4 + j) 1)) →
    ∃ t, exec (.laneMap n f) s = .next t ∧
      t = u) ∧
  (∀ (n : StringId) (at_ : Nat) (m : List Nat) (s : State), (s.str n.val).newMap = some (at_, m) → (s.str n.val).announced =
    true → ((s.str n.val).count.toNat + 65536 - at_) % 65536 < 32768 →
    ∃ t, exec (.laneMapEffect n) s = .next t ∧
      (t.str n.val) = { (s.str n.val) with map := m, newMap := none, announced := false, pegs := (t.str n.val).pegs } ∧
      (∀ line ring, ring < 8 → (t.str n.val).peg line ring =
        { (s.str n.val).peg line ring with state := ((t.str n.val).peg line ring).state }) ∧ (∀ line ring, ring < 8 → ((t.str
        n.val).peg line ring).state ≠ ((s.str n.val).peg line ring).state → ring = 0 ∧ line ∉ m.take 16 ∧ ((t.str n.val).peg
        line ring).state = 4) ∧
      Untouched logCounters s t ∧ (∀ k, k ≠ n.val → t.str k = s.str k) ∧
      t = { s with od := t.od, strings := t.strings, beagle := t.beagle }) ∧
  (∀ (n : StringId) (s : State), (s.str n.val).newMap = none ∨ (s.str n.val).announced = false ∨ (∃ m ∈ (s.str n.val).newMap,
    32768 ≤ ((s.str n.val).count.toNat + 65536 - m.1) % 65536) →
    ∃ t, exec (.laneMapEffect n) s = .next t ∧
      t = s) ∧
  (∀ (n : StringId) (f : Frame) (u : State) (s : State), receiveCtrl n.val 4 f s = (none, u) →
    ∃ t, exec (.relayCredits n f) s = .next t ∧
      t = u) ∧
  (∀ (n : StringId) (f : Frame) (p : Bytes) (u : State) (s : State), receiveCtrl n.val 4 f s = (some p, u) →
    ∃ t, exec (.relayCredits n f) s = .next t ∧
      (∀ c, c < 64 → tget 0 (132 + c) (u.str (reverseString n.val)).granted ≤ tget 0 (32 + c) (u.str (reverseString
        n.val)).granted →
        (tget 0 (32 + c) (t.str (reverseString n.val)).granted - tget 0 (132 + c) (u.str (reverseString n.val)).granted) % 64
          = bitsAt (leAt p 1 48) (6 * c) 6 ∧
        tget 0 (32 + c) (u.str (reverseString n.val)).granted ≤ tget 0 (32 + c) (t.str (reverseString n.val)).granted ∧ tget
          0 (32 + c) (t.str (reverseString n.val)).granted < tget 0 (32 + c) (u.str (reverseString n.val)).granted + 64) ∧
      (∀ b, b < 32 ∨ 96 ≤ b → tget 0 b (t.str (reverseString n.val)).granted = tget 0 b (u.str (reverseString
        n.val)).granted) ∧
      t.str (reverseString n.val) = { u.str (reverseString n.val) with granted := (t.str (reverseString n.val)).granted } ∧
        (∀ k, k ≠ (reverseString n.val) → t.str k = u.str k) ∧ t = { u with strings := t.strings }) ∧
  (∀ (n : StringId) (f : Frame) (u : State) (s : State), receiveCtrl n.val 5 f s = (none, u) →
    ∃ t, exec (.echo n f) s = .next t ∧
      t = u) ∧
  (∀ (n : StringId) (f : Frame) (p : Bytes) (u : State) (s : State), receiveCtrl n.val 5 f s = (some p, u) → ((u.str
    n.val).echo == some (leAt p 1 8) && !(u.str n.val).echoBack) = true ∨ (u.str (reverseString n.val)).echo ≠ some (leAt p 1
    8) →
    ∃ t, exec (.echo n f) s = .next t ∧
      t = pushCtrl (reverseString n.val) p (u.setStr n.val { u.str n.val with echoBack := true })) ∧
  (∀ (n : StringId) (f : Frame) (p : Bytes) (u : State) (s : State), receiveCtrl n.val 5 f s = (some p, u) → ((u.str
    n.val).echo == some (leAt p 1 8) && !(u.str n.val).echoBack) = false → (u.str (reverseString n.val)).echo = some (leAt p
    1 8) →
    ∃ t, exec (.echo n f) s = .next t ∧
      t.str (reverseString n.val) = { u.str (reverseString n.val) with echo := none, latency := min ((u.beat - leAt p 1 8) * 500) 35000 }
        ∧ (∀ k, k ≠ (reverseString n.val) → t.str k = u.str k) ∧ t =
        { u with strings := t.strings, sched := { u.sched with latency := t.sched.latency } })

/-- ACK_TIMEOUT, 200 ns after the oldest unacknowledged frame of a string in service went with none of them under way again,
  counts and sends everything unacknowledged again, and at the eighth in succession retrains the string; LOSS_OF_LOCK
  retrains one: its rings are to pass their fret checks anew, the retrain is counted and logged, and it is FROZEN.
  LANE_CHECK_DONE of a FROZEN string trains it with 13 usable lines or more and puts it OUT with fewer, and on a string
  in service returns mapped-out lines that pass. FROZEN for more than 10 ms, or 10 ms without training after a tile
  reset, is DOWN. LANE_RECHECK of an OUT or DOWN string that is lit and due trains it with 13 lines. A drained tile
  reset, or the tile watchdog, freezes the live strings of the site and counts the reset, and TILE_RESET_DONE trains
  them. Where their conditions fail, these commands change nothing. -/
def Obligations.LinkRecovery : Prop :=
  (∀ (n : StringId) (q : Byte) (f : TxFrame) (rest : List (Byte × TxFrame)) (s : State), (s.str n.val).unacked = (q, f) ::
    rest → (s.str n.val).state ≤ 2 → suspended s n.val = false → (s.str n.val).resend.any (fun x => x.1 == q) = false →
    f.sent + 200 ≤ s.beat → (s.str n.val).timeouts ≠ 7 →
    ∃ t, exec (.ackTimeout n) s = .next t ∧
      t = (s.count Obj.retryTimeouts 1).setStr n.val
        { (s.str n.val) with resend := (s.str n.val).unacked, swap := [], timeouts := (s.str n.val).timeouts + 1 }) ∧
  (∀ (n : StringId) (q : Byte) (f : TxFrame) (rest : List (Byte × TxFrame)) (s : State), (s.str n.val).unacked = (q, f) ::
    rest → (s.str n.val).state ≤ 2 → suspended s n.val = false → (s.str n.val).resend.any (fun x => x.1 == q) = false →
    f.sent + 200 ≤ s.beat → (s.str n.val).timeouts = 7 →
    ∃ t, exec (.ackTimeout n) s = .next t ∧
      t = retrain n.val ((s.count Obj.retryTimeouts 1).setStr n.val
        { (s.str n.val) with resend := (s.str n.val).unacked, swap := [], timeouts := 0 })) ∧
  (∀ (n : StringId) (s : State), (s.str n.val).unacked = [] ∨ 2 < (s.str n.val).state ∨ suspended s n.val = true ∨ (∀ x ∈
    (s.str n.val).unacked.head?, (s.str n.val).resend.any (fun y => y.1 == x.1) = true ∨ s.beat < x.2.sent + 200) →
    ∃ t, exec (.ackTimeout n) s = .next t ∧
      t = s) ∧
  (∀ (n : Nat) (s : State), (s.str n).state ≠ 4 →
    (retrain n s).str n = { recheckRings (s.str n) with state := 4, frozenAt := some s.beat } ∧ (∀ k, k ≠ n → (retrain n
      s).str k = s.str k) ∧
      CountedOnly Obj.retrains s (retrain n s) ∧ Logged Obj.retrains 0 0 (stringEnds n).1 n [] s (retrain n s)) ∧
  (∀ (n : StringId) (s : State), (s.str n.val).state ≤ 2 ∧ isBus n.val = false ∧ suspended s n.val = false →
    ∃ t, exec (.lossOfLock n) s = .next t ∧
      t = retrain n.val s) ∧
  (∀ (n : StringId) (s : State), ¬((s.str n.val).state ≤ 2 ∧ isBus n.val = false ∧ suspended s n.val = false) →
    ∃ t, exec (.lossOfLock n) s = .next t ∧
      t = s) ∧
  (∀ (n : StringId) (lanes : List LaneMeas) (s : State), isBus n.val = false → (s.tile (stringEnds n.val).1).state ≠ 2 →
    (s.tile (stringEnds n.val).2).state ≠ 2 → (s.str n.val).state = 4 → 13 ≤ (usableLines ((measureString n.val lanes s).str
    n.val)).length →
    ∃ t, exec (.laneCheckDone n lanes) s = .next t ∧
      t = startTraining n.val (measureString n.val lanes s) ∧ (t.str n.val).state = 6 ∧ (t.str n.val).map = freshMap
        (usableLines ((measureString n.val lanes s).str n.val)) ∧ (t.str n.val).lanes = ((measureString n.val lanes s).str
        n.val).lanes ∧ (t.str n.val).offerGot = false ∧ (t.str n.val).acceptSent = false ∧ (t.str n.val).acceptGot = false) ∧
  (∀ (n : StringId) (lanes : List LaneMeas) (s : State), isBus n.val = false → (s.tile (stringEnds n.val).1).state ≠ 2 →
    (s.tile (stringEnds n.val).2).state ≠ 2 → (s.str n.val).state = 4 → (usableLines ((measureString n.val lanes s).str
    n.val)).length < 13 →
    ∃ t, exec (.laneCheckDone n lanes) s = .next t ∧
      t = enterString n.val 3 (measureString n.val lanes s) ∧ (t.str n.val).state = 3 ∧ (t.str n.val).unacked = [] ∧ (t.str
        n.val).checked = s.beat) ∧
  (∀ (n : StringId) (m : LaneMeas) (s : State), isBus n.val = false → (s.tile (stringEnds n.val).1).state ≠ 2 → (s.tile
    (stringEnds n.val).2).state ≠ 2 → (s.str n.val).state ≤ 2 → m.string = n.val → m.line < 17 → (tget {} m.line (s.str
    n.val).lanes).usable = false → (tget {} m.line ((measureLane s m).str n.val).lanes).usable = true →
    ∃ t, exec (.laneCheckDone n [m]) s = .next t ∧
      t = returnLine n.val m.line true ((measureLane s m).setStr n.val
        { (measureLane s m).str n.val with lanes := tset m.line { tget {} m.line ((measureLane s m).str n.val).lanes with usable := false } ((measureLane s m).str n.val).lanes })) ∧
  (∀ (n : StringId) (lanes : List LaneMeas) (s : State), isBus n.val = false → (s.tile (stringEnds n.val).1).state ≠ 2 →
    (s.tile (stringEnds n.val).2).state ≠ 2 → (s.str n.val).state ≤ 2 →
    ∃ t, exec (.laneCheckDone n lanes) s = .next t ∧
      t = (lanes.filter (fun m => m.string == n.val && m.line < 17)).foldl (fun s m => if (tget {} m.line (s.str
        n.val).lanes).usable then s else
        if (tget {} m.line ((measureLane s m).str n.val).lanes).usable then
          returnLine n.val m.line true ((measureLane s m).setStr n.val
            { (measureLane s m).str n.val with lanes := tset m.line { tget {} m.line ((measureLane s m).str n.val).lanes with usable := false } ((measureLane s m).str n.val).lanes })
        else (measureLane s m)) s) ∧
  (∀ (n : StringId) (lanes : List LaneMeas) (s : State), isBus n.val = true ∨ (s.tile (stringEnds n.val).1).state = 2 ∨
    (s.tile (stringEnds n.val).2).state = 2 ∨ (s.str n.val).state = 3 ∨ 4 < (s.str n.val).state →
    ∃ t, exec (.laneCheckDone n lanes) s = .next t ∧
      t = s) ∧
  (∀ (n : StringId) (s : State), (((s.str n.val).state = 4 ∧ ∃ b ∈ (s.str n.val).frozenAt, b + 10000000 < s.beat) ∨ (((s.str
    n.val).state = 4 ∨ (s.str n.val).state = 6) ∧ ∃ b ∈ (s.str n.val).resetAt, b + 10000000 ≤ s.beat)) →
    ∃ t, exec (.frozenTimeout n) s = .next t ∧
      t = enterString n.val 5 s ∧ (t.str n.val).state = 5) ∧
  (∀ (n : StringId) (s : State), ¬(((s.str n.val).state = 4 ∧ ∃ b ∈ (s.str n.val).frozenAt, b + 10000000 < s.beat) ∨ (((s.str
    n.val).state = 4 ∨ (s.str n.val).state = 6) ∧ ∃ b ∈ (s.str n.val).resetAt, b + 10000000 ≤ s.beat)) →
    ∃ t, exec (.frozenTimeout n) s = .next t ∧
      t = s) ∧
  (∀ (n : StringId) (lanes : List LaneMeas) (s : State), isBus n.val = false → (s.str n.val).state = 3 ∨ (s.str n.val).state
    = 5 → (s.str n.val).checked + 60000000000 ≤ s.beat ∨ (s.domain (stringDomain n.val)).abrupt = true → lit s n.val = true →
    ¬(s.sounding.state = 1 ∧ s.sounding.string = n.val) → 13 ≤ (usableLines ((measureString n.val lanes s).str n.val)).length
    →
    ∃ t, exec (.laneRecheck n lanes) s = .next t ∧
      t = startTraining n.val ((measureString n.val lanes s).setStr n.val
        { (measureString n.val lanes s).str n.val with checked := s.beat }) ∧ (t.str n.val).state = 6 ∧ (t.str n.val).map =
        freshMap (usableLines ((measureString n.val lanes s).str n.val))) ∧
  (∀ (n : StringId) (lanes : List LaneMeas) (s : State), isBus n.val = false → (s.str n.val).state = 3 ∨ (s.str n.val).state
    = 5 → (s.str n.val).checked + 60000000000 ≤ s.beat ∨ (s.domain (stringDomain n.val)).abrupt = true → lit s n.val = true →
    ¬(s.sounding.state = 1 ∧ s.sounding.string = n.val) → (usableLines ((measureString n.val lanes s).str n.val)).length < 13
    →
    ∃ t, exec (.laneRecheck n lanes) s = .next t ∧
      t = ((measureString n.val lanes s).setStr n.val { (measureString n.val lanes s).str n.val with checked := s.beat })) ∧
  (∀ (n : StringId) (lanes : List LaneMeas) (s : State), isBus n.val = true ∨ ((s.str n.val).state ≠ 3 ∧ (s.str n.val).state
    ≠ 5) ∨ ¬((s.str n.val).checked + 60000000000 ≤ s.beat ∨ (s.domain (stringDomain n.val)).abrupt = true) ∨ lit s n.val =
    false ∨ (s.sounding.state = 1 ∧ s.sounding.string = n.val) →
    ∃ t, exec (.laneRecheck n lanes) s = .next t ∧
      t = s) ∧
  (∀ (site : SiteId) (s : State), (s.tile site.val).state = 1 → (siteStrings site.val).all (fun n => (s.str
    n).unacked.isEmpty) = true →
    ∃ t, exec (.tileResetDrained site) s = .next t ∧
      (∀ n ∈ siteStrings site.val, (s.str n).state ≤ 2 ∨ (s.str n).state = 4 ∨ (s.str n).state = 6 → (t.str n).state = 4 ∧
        (t.str n).held = false ∧ (t.str n).resetAt = some s.beat) ∧
      (∀ n ∈ siteStrings site.val, (s.str n).state = 3 ∨ (s.str n).state = 5 → t.str n = s.str n) ∧
      (∀ n, n ∉ siteStrings site.val → t.str n = s.str n) ∧ t.tile site.val = { state := 2, since := s.beat } ∧ (∀ k, k ≠
        site.val → t.tile k = s.tile k) ∧ CountedOnly Obj.tileResets s t ∧
      t = { s with
          od := t.od, cores := t.cores, wins := t.wins, strings := t.strings, tiles := t.tiles, beagle := t.beagle
          log := t.log }) ∧
  (∀ (site : SiteId) (s : State), (s.tile site.val).state ≠ 1 ∨ (siteStrings site.val).all (fun n => (s.str
    n).unacked.isEmpty) = false →
    ∃ t, exec (.tileResetDrained site) s = .next t ∧
      t = s) ∧
  (∀ (site : SiteId) (s : State), (s.tile site.val).state ≠ 2 → s.dev.started = true →
    ∃ t, exec (.tileWatchdog site) s = .next t ∧
      (∀ n ∈ siteStrings site.val, (s.str n).state ≤ 2 ∨ (s.str n).state = 4 ∨ (s.str n).state = 6 → (t.str n).state = 4 ∧
        (t.str n).held = false ∧ (t.str n).resetAt = some s.beat) ∧
      (∀ n ∈ siteStrings site.val, (s.str n).state = 3 ∨ (s.str n).state = 5 → t.str n = s.str n) ∧
      (∀ n, n ∉ siteStrings site.val → t.str n = s.str n) ∧ t.tile site.val = { state := 2, since := s.beat } ∧ (∀ k, k ≠
        site.val → t.tile k = s.tile k) ∧ CountedOnly Obj.tileResets s t ∧
      t = { s with
          od := t.od, cores := t.cores, wins := t.wins, strings := t.strings, tiles := t.tiles, beagle := t.beagle
          log := t.log }) ∧
  (∀ (site : SiteId) (s : State), (s.tile site.val).state = 2 ∨ s.dev.started = false →
    ∃ t, exec (.tileWatchdog site) s = .next t ∧
      t = s) ∧
  (∀ (site : SiteId) (s : State), (s.tile site.val).state = 2 →
    ∃ t, exec (.tileResetDone site) s = .next t ∧
      t.tile site.val = {} ∧ (∀ k, k ≠ site.val → t.tile k = s.tile k) ∧ (∀ n ∈ siteStrings site.val, (t.str n).stopped =
        false) ∧ (∀ n ∈ siteStrings site.val, (s.str n).state ≠ 4 → (t.str n).state = (s.str n).state) ∧
      (∀ n ∈ siteStrings site.val, (s.str n).state = 4 → (∀ e ∈ [(stringEnds n).1, (stringEnds n).2], e ≠ site.val → (s.tile
        e).state ≠ 2) → (t.str n).state = 6) ∧
      (∀ n ∈ siteStrings site.val, (s.str n).state = 4 → (∃ e ∈ [(stringEnds n).1, (stringEnds n).2], e ≠ site.val ∧ (s.tile
        e).state = 2) → (t.str n).state = 4) ∧
      t = { s with od := t.od, strings := t.strings, tiles := t.tiles, beagle := t.beagle }) ∧
  (∀ (site : SiteId) (s : State), (s.tile site.val).state ≠ 2 →
    ∃ t, exec (.tileResetDone site) s = .next t ∧
      t = s)

/-- MARGIN_TEST begins the test of a start that has warmed up, or the commissioning test asked for once no handover is
  pending, and every ring is to pass its fret check. MARGIN_TEST_DONE of a test under way keeps each line's measurement,
  the line usable from 1.00 dB margin and 20/64 UI on with its rings locked, counts the lines of less than 2.00 dB,
  gives a commissioning test, or the first test, its result, and ends the run. MARGIN_ESTIMATE of a usable line keeps
  the estimate, the margin of the last test less ten times the fall in received power (0.1 dB in 0.01 dB), and drops a
  line below 1.00 dB unless a handover explains it. BCAST at a tap keeps a record of kind 1 or 2 that passes its checks,
  the depths moving its thieves' averages by a sixteenth of the difference, and drops and counts any other frame;
  BCAST_SEND puts one record on a bus. -/
def Obligations.MarginsAndBuses : Prop :=
  (∀ (s : State), s.dev.state = 2 ∧ s.dev.started = true ∧ s.dev.marginRun = 0 ∧ s.harps.any (fun (p : Nat × Harp) =>
    p.2.role == 3 || p.2.role == 7) = false →
    ∃ t, exec (.marginTest) s = .next t ∧
      t = { s with strings := s.strings.map (fun (p : Nat × Str) => (p.1, recheckRings p.2)), dev := { s.dev with marginRun := 1 } }) ∧
  (∀ (s : State), s.dev.marginRun = 3 ∧ s.domains.any (fun (p : Nat × Domain) => 1 ≤ p.2.state && p.2.state ≤ 4) = false →
    ∃ t, exec (.marginTest) s = .next t ∧
      t = { s with strings := s.strings.map (fun (p : Nat × Str) => (p.1, recheckRings p.2)), dev := { s.dev with marginRun := 2 } }) ∧
  (∀ (s : State), ¬(s.dev.state = 2 ∧ s.dev.started = true ∧ s.dev.marginRun = 0 ∧ s.harps.any (fun (p : Nat × Harp) =>
    p.2.role == 3 || p.2.role == 7) = false) → ¬(s.dev.marginRun = 3 ∧ s.domains.any (fun (p : Nat × Domain) => 1 ≤ p.2.state
    && p.2.state ≤ 4) = false) →
    ∃ t, exec (.marginTest) s = .next t ∧
      t = s) ∧
  (∀ (lanes : List LaneMeas) (s : State), s.dev.marginRun = 1 ∨ s.dev.marginRun = 2 →
    ∃ t, exec (.marginTestDone lanes) s = .next t ∧
      t.dev = { t.dev with marginRun := 0 } ∧ t.obj Obj.lanesWarning = ((lanes.filter (fun m => m.string < 1126 && m.line <
        17)).filter (fun m => 100 ≤ m.margin && 20 ≤ m.eye && m.margin < 200)).length % 2 ^ 64 ∧
      (s.dev.marginRun = 2 ∨ s.obj Obj.commissionResult = 0 → t.obj Obj.commissionResult = 1 ∨ t.obj Obj.commissionResult =
        2) ∧ (s.dev.marginRun = 1 ∧ s.obj Obj.commissionResult ≠ 0 → t.obj Obj.commissionResult = s.obj Obj.commissionResult)
        ∧
      (∀ d, d < 8 → (t.domain d).fall = List.replicate 17 0 ∧ (t.domain d).samples = [] ∧ (t.domain d).hourSum = 0 ∧
        (t.domain d).hourN = 0) ∧
      t = { s with
          beat := t.beat, od := t.od, cores := t.cores, wins := t.wins, dies := t.dies, sched := t.sched
          strings := t.strings, tags := t.tags, domains := t.domains, dram := t.dram, ports := t.ports
          rmem := t.rmem, serve := t.serve, images := t.images, time := t.time, dev := t.dev, pod := t.pod
          test := t.test, beagle := t.beagle, log := t.log, out := t.out, free := t.free }) ∧
  (∀ (m : LaneMeas) (s : State), s.dev.marginRun = 1 ∨ s.dev.marginRun = 2 → m.string < 1126 → m.line < 17 →
    ∃ t, exec (.marginTestDone [m]) s = .next t ∧
      (tget {} m.line (t.str m.string).lanes).usable = (decide (100 ≤ m.margin) && decide (20 ≤ m.eye) && ringsLocked s
        m.string m.line) ∧
      (tget {} m.line (t.str m.string).lanes).margin = m.margin ∧ (tget {} m.line (t.str m.string).lanes).testMargin =
        m.margin ∧ (tget {} m.line (t.str m.string).lanes).testRx = m.rx ∧ (t.str m.string).latency = min m.latency 35000 ∧
        t.dev.marginRun = 0 ∧
      t = { s with
          beat := t.beat, od := t.od, cores := t.cores, wins := t.wins, dies := t.dies, sched := t.sched
          strings := t.strings, tags := t.tags, domains := t.domains, dram := t.dram, ports := t.ports
          rmem := t.rmem, serve := t.serve, images := t.images, time := t.time, dev := t.dev, pod := t.pod
          test := t.test, beagle := t.beagle, log := t.log, out := t.out, free := t.free }) ∧
  (∀ (lanes : List LaneMeas) (s : State), ¬(s.dev.marginRun = 1 ∨ s.dev.marginRun = 2) →
    ∃ t, exec (.marginTestDone lanes) s = .next t ∧
      t = s) ∧
  (∀ (n : StringId) (line : LineId) (rx est : Int) (s : State), (tget {} line.val (s.str n.val).lanes).usable = true → (s.str
    n.val).state ≤ 2 ∨ isBus n.val = true → est = (tget {} line.val (s.str n.val).lanes).testMargin - 10 * ((tget {} line.val
    (s.str n.val).lanes).testRx - rx) → 100 ≤ est ∨ ((s.domain (stringDomain n.val)).state ≠ 0 ∧ 100 ≤ est + (s.domain
    (stringDomain n.val)).fall.getD line.val 0) →
    ∃ t, exec (.marginEstimate n line rx) s = .next t ∧
      t = s.setStr n.val { (s.str n.val) with lanes := tset line.val { (tget {} line.val (s.str n.val).lanes) with rx, margin := est } (s.str n.val).lanes }) ∧
  (∀ (n : StringId) (line : LineId) (rx est : Int) (u : State) (s : State), (tget {} line.val (s.str n.val).lanes).usable =
    true → (s.str n.val).state ≤ 2 ∨ isBus n.val = true → est = (tget {} line.val (s.str n.val).lanes).testMargin - 10 *
    ((tget {} line.val (s.str n.val).lanes).testRx - rx) → est < 100 → ¬((s.domain (stringDomain n.val)).state ≠ 0 ∧ 100 ≤
    est + (s.domain (stringDomain n.val)).fall.getD line.val 0) → u = s.setStr n.val
    { (s.str n.val) with lanes := tset line.val { (tget {} line.val (s.str n.val).lanes) with rx, margin := est } (s.str n.val).lanes }
    →
    ∃ t, exec (.marginEstimate n line rx) s = .next t ∧
      t = dropLine n.val line.val true (logEvent Obj.laneMapouts 1 0 (stringEnds n.val).2 n.val (leBytes 1 line.val) u) ∧
        (tget {} line.val (t.str n.val).lanes).usable = false ∧ (tget {} line.val (t.str n.val).lanes).margin = est) ∧
  (∀ (n : StringId) (line : LineId) (rx : Int) (s : State), (tget {} line.val (s.str n.val).lanes).usable = false ∨ (2 <
    (s.str n.val).state ∧ isBus n.val = false) →
    ∃ t, exec (.marginEstimate n line rx) s = .next t ∧
      t = s) ∧
  (∀ (n : StringId) (tap : SiteId) (f : Frame) (s : State), ¬(isBus n.val = true ∧ busTap n.val tap.val = true ∧ (hOp f.hdr =
    opBCAST ∨ frameOk n.val f = false)) →
    ∃ t, exec (.bcast n tap f) s = .next t ∧
      t = s) ∧
  (∀ (n : StringId) (tap : SiteId) (f g : Frame) (u : State) (s : State), isBus n.val = true ∧ busTap n.val tap.val = true ∧
    (hOp f.hdr = opBCAST ∨ frameOk n.val f = false) → injectRx n.val f s = (g, u) → (frameOk n.val g = false ∨ hDest g.hdr ≠
    hSrc g.hdr ∨ hSrc g.hdr ≠ (stringEnds n.val).1) →
    ∃ t, exec (.bcast n tap f) s = .next t ∧
      t = u.count Obj.busDrops 1) ∧
  (∀ (n : StringId) (tap : SiteId) (f g : Frame) (u : State) (s : State), isBus n.val = true ∧ busTap n.val tap.val = true ∧
    (hOp f.hdr = opBCAST ∨ frameOk n.val f = false) → injectRx n.val f s = (g, u) → ¬(frameOk n.val g = false ∨ hDest g.hdr ≠
    hSrc g.hdr ∨ hSrc g.hdr ≠ (stringEnds n.val).1) → leAt g.payload 0 1 ≠ 1 ∧ leAt g.payload 0 1 ≠ 2 →
    ∃ t, exec (.bcast n tap f) s = .next t ∧
      t = u) ∧
  (∀ (n : StringId) (tap : SiteId) (f g : Frame) (u : State) (s : State), isBus n.val = true ∧ busTap n.val tap.val = true ∧
    (hOp f.hdr = opBCAST ∨ frameOk n.val f = false) → injectRx n.val f s = (g, u) → ¬(frameOk n.val g = false ∨ hDest g.hdr ≠
    hSrc g.hdr ∨ hSrc g.hdr ≠ (stringEnds n.val).1) → leAt g.payload 0 1 = 2 ∨ (leAt g.payload 0 1 = 1 ∧ (siteDie tap.val =
    none ∨ siteDie (stringEnds n.val).1 = none)) →
    ∃ t, exec (.bcast n tap f) s = .next t ∧
      t = { u with bus := tset (4096 * tap.val + 64 * (stringEnds n.val).1 + leAt g.payload 0 1) { payload := fitBytes 64 g.payload, beat := u.beat } u.bus }) ∧
  (∀ (n : StringId) (tap : SiteId) (f g : Frame) (u : State) (d src : Nat) (s : State), isBus n.val = true ∧ busTap n.val
    tap.val = true ∧ (hOp f.hdr = opBCAST ∨ frameOk n.val f = false) → injectRx n.val f s = (g, u) → ¬(frameOk n.val g =
    false ∨ hDest g.hdr ≠ hSrc g.hdr ∨ hSrc g.hdr ≠ (stringEnds n.val).1) → leAt g.payload 0 1 = 1 → siteDie tap.val = some d
    → siteDie (stringEnds n.val).1 = some src →
    ∃ t, exec (.bcast n tap f) s = .next t ∧
      t = depthRecord d src g.payload { u with bus := tset (4096 * tap.val + 64 * (stringEnds n.val).1 + leAt g.payload 0 1) { payload := fitBytes 64 g.payload, beat := u.beat } u.bus }) ∧
  (∀ (d src i j : Nat) (p : Bytes) (s : State), src < 16 → i < 4 → j < 4 →
    tget 0 (4 * src + j) (tget {} (4 * d + i) (depthRecord d src p s).sched.thieves).avg =
      depthAverage (tget 0 (4 * src + j) (tget {} (4 * d + i) s.sched.thieves).avg) (leAt p (1 + 2 * j) 2)) ∧
  (∀ (n : Nat) (f : Frame) (s : State), (s.str n).inject.mode ≠ 1 → busSend n f s = emitFrame n f s) ∧
  (∀ (n : StringId) (d : Nat) (s : State), isBus n.val = true → s.powered = true → siteDie (stringEnds n.val).1 = some d →
    dieUp s d = true →
    ∃ t, exec (.bcastSend n 1) s = .next t ∧
      t = busSend n.val (mkFrame (withLink (mkHdr opBCAST (stringEnds n.val).1 (stringEnds n.val).1 63 0 0 false) n.val 0 0 0
        0) (depthPayload s d)) (if n.val < 1101 then depthRecord d d (depthPayload s d) s else s)) ∧
  (∀ (n : StringId) (s : State), isBus n.val = true → s.powered = true →
    ∃ t, exec (.bcastSend n 2) s = .next t ∧
      t = busSend n.val (mkFrame (withLink (mkHdr opBCAST (stringEnds n.val).1 (stringEnds n.val).1 63 0 0 false) n.val 0 0 0
        0) (thermalPayload s (stringEnds n.val).1)) s) ∧
  (∀ (n : StringId) (kind : Byte) (s : State), isBus n.val = false ∨ s.powered = false ∨ (kind ≠ 1 ∧ kind ≠ 2) ∨ (kind = 1 ∧
    ∀ d ∈ siteDie (stringEnds n.val).1, dieUp s d = false) →
    ∃ t, exec (.bcastSend n kind) s = .next t ∧
      t = s)

/-- HARP_INSERT puts a warming cartridge in an empty slot and is counted while the module is powered. HARP_TEST_DONE of a
  cartridge that warms up or is under test and is no handover's target keeps its levels: one that passes in a spare slot
  is a cold spare, in its own domain's slot it feeds a dark domain or is ready to take it back, and waiting domains are
  served; one that fails is failed, its LED red, which is logged, and a dark domain asks for a spare. CARTRIDGE_REMOVED
  empties the slot: a handover that had it as its target asks for the other spare, and for a domain that it fed it is an
  abrupt loss. HARP_MONITOR_SAMPLE of 17 powers keeps them; for the feeding cartridge the domain's falls and margin
  follow, its crossings, the hour's sum, and what a threshold that is newly crossed brings; a line that falls by more
  than 3 dB is an abrupt loss. FADE_FIT keeps the hour's mean and begins the next hour. -/
def Obligations.Cartridges : Prop :=
  (∀ (slot : HarpSlot) (serial : W64) (hours : W32) (s : State), (s.harp slot.val).role = 0 →
    ∃ t, exec (.harpInsert slot serial hours) s = .next t ∧
      (t.harp slot.val) = { role := 3, serial, hours, latch := true, shutter := s.dev.started } ∧ (∀ k, k ≠ slot.val → t.harp
        k = s.harp k) ∧
      (∀ k, t.domain k = { s.domain k with refused := (s.domain k).refused.filter (· != slot.val) }) ∧
      (s.powered = true → t.obj Obj.harpInsertions = (s.obj Obj.harpInsertions + 1) % 2 ^ objBits Obj.harpInsertions) ∧
        Untouched (if s.powered then [Obj.harpInsertions] else []) s t ∧
      t = { s with od := t.od, harps := t.harps, domains := t.domains }) ∧
  (∀ (slot : HarpSlot) (serial : W64) (hours : W32) (s : State), (s.harp slot.val).role ≠ 0 →
    ∃ t, exec (.harpInsert slot serial hours) s = .next t ∧
      t = s) ∧
  (∀ (slot : HarpSlot) (lines : List HarpLine) (u : State) (s : State), (s.harp slot.val).role = 3 ∨ (s.harp slot.val).role =
    7 → assignedTo s slot.val = none → u = s.setHarp slot.val
    { (s.harp slot.val) with power := lines.map (·.power), offset := lines.map (·.offset) } → harpPasses lines = true → 8 ≤
    slot.val →
    ∃ t, exec (.harpTestDone slot lines) s = .next t ∧
      t = serveWaiting (setRole slot.val 2 u)) ∧
  (∀ (slot : HarpSlot) (lines : List HarpLine) (u : State) (s : State), (s.harp slot.val).role = 3 ∨ (s.harp slot.val).role =
    7 → assignedTo s slot.val = none → u = s.setHarp slot.val
    { (s.harp slot.val) with power := lines.map (·.power), offset := lines.map (·.offset) } → harpPasses lines = true →
    slot.val < 8 → (s.domain slot.val).source = 3 → (s.domain slot.val).target = none →
    ∃ t, exec (.harpTestDone slot lines) s = .next t ∧
      t = serveWaiting (settleHarp (State.setDomain (setRole slot.val 1 u) slot.val
        { s.domain slot.val with source := 0, state := 0, target := none, lost := false }))) ∧
  (∀ (slot : HarpSlot) (lines : List HarpLine) (u : State) (k : Nat) (s : State), (s.harp slot.val).role = 3 ∨ (s.harp
    slot.val).role = 7 → assignedTo s slot.val = none → u = s.setHarp slot.val
    { (s.harp slot.val) with power := lines.map (·.power), offset := lines.map (·.offset) } → harpPasses lines = true →
    slot.val < 8 → (s.domain slot.val).source = 3 → (s.domain slot.val).target = some k →
    ∃ t, exec (.harpTestDone slot lines) s = .next t ∧
      t = serveWaiting (settleHarp (State.setDomain (setRole k 2 (setRole slot.val 1 u)) slot.val
        { s.domain slot.val with source := 0, state := 0, target := none, lost := false }))) ∧
  (∀ (slot : HarpSlot) (lines : List HarpLine) (u : State) (s : State), (s.harp slot.val).role = 3 ∨ (s.harp slot.val).role =
    7 → assignedTo s slot.val = none → u = s.setHarp slot.val
    { (s.harp slot.val) with power := lines.map (·.power), offset := lines.map (·.offset) } → harpPasses lines = true →
    slot.val < 8 → (s.domain slot.val).source ≠ 3 →
    ∃ t, exec (.harpTestDone slot lines) s = .next t ∧
      t = startReturn slot.val (setRole slot.val 8 u)) ∧
  (∀ (slot : HarpSlot) (lines : List HarpLine) (u : State) (s : State), (s.harp slot.val).role = 3 ∨ (s.harp slot.val).role =
    7 → assignedTo s slot.val = none → u = s.setHarp slot.val
    { (s.harp slot.val) with power := lines.map (·.power), offset := lines.map (·.offset) } → harpPasses lines = false →
    ¬(slot.val < 8 ∧ (s.domain slot.val).source = 3 ∧ handoverOn s slot.val = false) →
    ∃ t, exec (.harpTestDone slot lines) s = .next t ∧
      t = harpFails slot.val (testCode lines) u ∧ (t.harp slot.val).role = 6 ∧ (t.harp slot.val).led = 2) ∧
  (∀ (slot : HarpSlot) (lines : List HarpLine) (u : State) (s : State), (s.harp slot.val).role = 3 ∨ (s.harp slot.val).role =
    7 → assignedTo s slot.val = none → u = s.setHarp slot.val
    { (s.harp slot.val) with power := lines.map (·.power), offset := lines.map (·.offset) } → harpPasses lines = false →
    slot.val < 8 ∧ (s.domain slot.val).source = 3 ∧ handoverOn s slot.val = false →
    ∃ t, exec (.harpTestDone slot lines) s = .next t ∧
      t = requestSpare slot.val (harpFails slot.val (testCode lines) u)) ∧
  (∀ (slot : HarpSlot) (lines : List HarpLine) (s : State), ((s.harp slot.val).role ≠ 3 ∧ (s.harp slot.val).role ≠ 7) ∨
    assignedTo s slot.val ≠ none →
    ∃ t, exec (.harpTestDone slot lines) s = .next t ∧
      t = s) ∧
  (∀ (slot : HarpSlot) (s : State), (s.harp slot.val).role ≠ 0 → fedBy s slot.val = none → assignedTo s slot.val = none →
    ∃ t, exec (.cartridgeRemoved slot) s = .next t ∧
      t = newCartridge slot.val (s.setHarp slot.val {}) ∧ (t.harp slot.val) = {}) ∧
  (∀ (slot : HarpSlot) (u : State) (s : State), (s.harp slot.val).role ≠ 0 → u = (match assignedTo s slot.val with
      | some d => if (s.domain d).state = 3 then newCartridge slot.val (s.setHarp slot.val {}) else requestSpare d
        ((newCartridge slot.val (s.setHarp slot.val {})).setDomain d
        { (newCartridge slot.val (s.setHarp slot.val {})).domain d with target := none })
      | none => newCartridge slot.val (s.setHarp slot.val {})) →
    ∃ t, exec (.cartridgeRemoved slot) s = .next t ∧
      t = (match fedBy s slot.val with
        | some d => abruptLoss d (List.range 17) (u.setDomain d { u.domain d with source := 3 })
        | none => u)) ∧
  (∀ (slot : HarpSlot) (s : State), (s.harp slot.val).role = 0 →
    ∃ t, exec (.cartridgeRemoved slot) s = .next t ∧
      t = s) ∧
  (∀ (slot : HarpSlot) (power : List Int) (s : State), (s.harp slot.val).role ≠ 0 → power.length = 17 → fedBy s slot.val =
    none →
    ∃ t, exec (.harpMonitorSample slot power) s = .next t ∧
      t = s.setHarp slot.val { (s.harp slot.val) with power, role := if (s.harp slot.val).role = 3 ∧ power.all (fun p => 2100 ≤ p && p ≤ 2200) then 7 else (s.harp slot.val).role }) ∧
  (∀ (slot : HarpSlot) (power : List Int) (s : State), (s.harp slot.val).role = 0 ∨ power.length ≠ 17 →
    ∃ t, exec (.harpMonitorSample slot power) s = .next t ∧
      t = s) ∧
  (∀ (slot : HarpSlot) (d : Nat) (power : List Int) (fall : List Int) (dm : Int) (now : List Bool) (lost : List Nat) (u v w x
    : State) (s : State), (s.harp slot.val).role ≠ 0 → power.length = 17 → fedBy s slot.val = some d → fall = (List.range
    17).map (fun l => (s.domain d).ref.getD l 0 - power.getD l 0) → dm = listMin 800 ((List.range 17).map (fun l => (s.domain
    d).base.getD l 800 - fall.getD l 0)) → now = (if (s.domain d).base.isEmpty then (s.domain d).crossed else crossings
    (domainThresholds s) (s.domain d).crossed dm) → lost = (List.range 17).filter (fun l => (s.harp slot.val).power.getD l 0
    - power.getD l 0 > 300) → u = (s.setHarp slot.val
    { (s.harp slot.val) with power, role := if (s.harp slot.val).role = 3 ∧ power.all (fun p => 2100 ≤ p && p ≤ 2200) then 7 else (s.harp slot.val).role }).setDomain
    d { s.domain d with fall, margin := dm, crossed := now, hourSum := (s.domain d).hourSum + listMax 0 fall, hourN := (s.domain d).hourN + 1, forced := (s.domain d).forced || now.getD 2 false }
    → v = (if now.getD 0 false && !(s.domain d).crossed.getD 0 false then logEvent (Obj.domainMarginD + d) 1 0 0xFF d
    (leBytes 2 (wrapTo 16 dm)) u else u) → w = (if now.getD 1 false = true ∧ handoverOn v d = false ∧ (v.domain d).state ≠ 5
    then requestSpare d v else v) → x = settleHarp (if now.getD 3 false && !(s.domain d).crossed.getD 3 false then logEvent
    (Obj.handoverStateD + d) 1 0 0xFF d [] w else w) →
    ∃ t, exec (.harpMonitorSample slot power) s = .next t ∧
      t = (if lost.isEmpty then x else abruptLoss d lost x)) ∧
  (∀ (slot : HarpSlot) (d : Nat) (power fall : List Int) (dm : Int) (now : List Bool) (s : State), (s.harp slot.val).role ≠ 0
    → power.length = 17 → fedBy s slot.val = some d → fall = (List.range 17).map (fun l => (s.domain d).ref.getD l 0 -
    power.getD l 0) → dm = listMin 800 ((List.range 17).map (fun l => (s.domain d).base.getD l 800 - fall.getD l 0)) → now =
    (if (s.domain d).base.isEmpty then (s.domain d).crossed else crossings (domainThresholds s) (s.domain d).crossed dm) →
    ∃ t, exec (.harpMonitorSample slot power) s = .next t ∧
      (t.harp slot.val).power = power ∧ (t.domain d).fall = fall ∧ (t.domain d).margin = dm ∧ (t.domain d).crossed = now ∧
        (t.domain d).hourSum = (s.domain d).hourSum + listMax 0 fall ∧ (t.domain d).hourN = (s.domain d).hourN + 1 ∧
      (t.domain d).forced = ((s.domain d).forced || now.getD 2 false) ∧ (t.domain d).ref = (s.domain d).ref ∧ (t.domain
        d).base = (s.domain d).base ∧ (∀ k, k ≠ d → t.domain k = s.domain k) ∧
      t = { s with
          beat := t.beat, od := t.od, cores := t.cores, wins := t.wins, dies := t.dies, sched := t.sched
          strings := t.strings, tags := t.tags, harps := t.harps, domains := t.domains, dram := t.dram
          ports := t.ports, rmem := t.rmem, serve := t.serve, images := t.images, time := t.time, dev := t.dev
          pod := t.pod, test := t.test, beagle := t.beagle, log := t.log, out := t.out, free := t.free }) ∧
  (∀ (d : DomainId) (s : State), (s.domain d.val).hourN ≠ 0 →
    ∃ t, exec (.fadeFit d) s = .next t ∧
      t = s.setDomain d.val { (s.domain d.val) with samples := (Int.tdiv (10000 * (s.domain d.val).hourSum) (s.domain d.val).hourN :: (s.domain d.val).samples).take 168, hourSum := 0, hourN := 0 }) ∧
  (∀ (d : DomainId) (s : State), (s.domain d.val).hourN = 0 →
    ∃ t, exec (.fadeFit d) s = .next t ∧
      t = s)

/-- SPARE_READY of an assigned spare that is warming: with a passing test it is ready and the launch hold begins; otherwise
  it is failed and the other is asked for. CREDIT_HOLD_START of a domain that may, the lowest of them and with no other
  hold, holds every string of the domain, ends its calibration turns, aborts a Sounding on its strings and notes H.
  SELECTOR_SWITCH at H + 1 µs moves the domain to its target's input, freezes its loops and has the locked rings checked
  anew; after an abrupt loss it switches at once, retrains the domain's strings in service and ends the handover.
  HANDOVER_RELEASE within the limit, every fret check over, releases the strings, which send their unacknowledged frames
  again, counts the handover and ends it. HOLD_LIMIT_EXPIRY goes back to the old source, counts and logs a fallback,
  releases the strings, retrains those in service, fails the spare and asks for the other. Where their conditions fail,
  these commands change nothing. -/
def Obligations.Handovers : Prop :=
  (∀ (slot : HarpSlot) (lines : List HarpLine) (d : Nat) (u : State) (s : State), assignedTo s slot.val = some d → (s.domain
    d).state = 1 ∧ ((s.harp slot.val).role = 3 ∨ (s.harp slot.val).role = 7) → u = s.setHarp slot.val
    { (s.harp slot.val) with power := lines.map (·.power), offset := lines.map (·.offset) } → harpPasses lines = true →
    ∃ t, exec (.spareReady slot lines) s = .next t ∧
      t = traceStep d 3 ((setRole slot.val 4 u).setDomain d { s.domain d with state := 2 }) ∧ (t.harp slot.val).role = 4 ∧
        (t.domain d).state = 2) ∧
  (∀ (slot : HarpSlot) (lines : List HarpLine) (d : Nat) (u : State) (s : State), assignedTo s slot.val = some d → (s.domain
    d).state = 1 ∧ ((s.harp slot.val).role = 3 ∨ (s.harp slot.val).role = 7) → u = s.setHarp slot.val
    { (s.harp slot.val) with power := lines.map (·.power), offset := lines.map (·.offset) } → harpPasses lines = false →
    ∃ t, exec (.spareReady slot lines) s = .next t ∧
      t = requestSpare d ((harpFails slot.val (testCode lines) u).setDomain d
        { s.domain d with target := none, refused := (s.domain d).refused ++ [slot.val] }) ∧ (t.harp slot.val).role = 6 ∧
        (t.harp slot.val).led = 2 ∧ (t.domain d).target ≠ some slot.val) ∧
  (∀ (slot : HarpSlot) (lines : List HarpLine) (s : State), ∀ d ∈ assignedTo s slot.val, ¬((s.domain d).state = 1 ∧ ((s.harp
    slot.val).role = 3 ∨ (s.harp slot.val).role = 7)) →
    ∃ t, exec (.spareReady slot lines) s = .next t ∧
      t = s) ∧
  (∀ (d : DomainId) (u : State) (s : State), holdReady s d.val = true → (List.range 8).any (fun e => (s.domain e).state == 3
    || (e < d.val && holdReady s e)) = false → u = (domainStrings d.val).foldl (fun s n => s.setStr n
    { s.str n with held := true, turn := none, rotate := none }) (if s.sounding.state = 1 ∧ stringDomain s.sounding.string =
    d.val then abortSounding s else s) →
    ∃ t, exec (.creditHoldStart d) s = .next t ∧
      t = traceStep d.val 4 (u.setDomain d.val
        { u.domain d.val with state := 3, holdBeat := u.beat, switched := false, from_ := (u.domain d.val).source })) ∧
  (∀ (d : DomainId) (s : State), holdReady s d.val = true → (List.range 8).any (fun e => (s.domain e).state == 3 || (e <
    d.val && holdReady s e)) = false → ¬(s.sounding.state = 1 ∧ stringDomain s.sounding.string = d.val) →
    ∃ t, exec (.creditHoldStart d) s = .next t ∧
      (t.domain d.val) = { (s.domain d.val) with state := 3, holdBeat := s.beat, switched := false, from_ := (s.domain d.val).source }
        ∧ (∀ k, k ≠ d.val → t.domain k = s.domain k) ∧
      (∀ n ∈ domainStrings d.val, t.str n = { s.str n with held := true, turn := none, rotate := none }) ∧
      (∀ n, n ∉ domainStrings d.val → t.str n = s.str n) ∧ Untouched logCounters s t ∧
      t = { s with od := t.od, strings := t.strings, domains := t.domains, beagle := t.beagle }) ∧
  (∀ (d : DomainId) (s : State), holdReady s d.val = false ∨ (List.range 8).any (fun e => (s.domain e).state == 3 || (e <
    d.val && holdReady s e)) = true →
    ∃ t, exec (.creditHoldStart d) s = .next t ∧
      t = s) ∧
  (∀ (d : DomainId) (s : State), ¬((s.domain d.val).lost = true ∧ ((s.domain d.val).state = 2 ∨ (s.domain d.val).state = 4))
    → (s.domain d.val).state = 3 → (s.domain d.val).switched = false → (s.domain d.val).holdBeat + 1000 ≤ s.beat →
    ∃ t, exec (.selectorSwitch d) s = .next t ∧
      t = traceStep d.val 5 ((domainPegs d.val (fun p =>
        { p with frozen := true, state := if p.state = 3 then 2 else p.state }) s).setDomain d.val
        { (s.domain d.val) with source := (((s.domain d.val).target.map inputOf).getD 3), switched := true })) ∧
  (∀ (d : DomainId) (u v : State) (s : State), (s.domain d.val).lost = true → (s.domain d.val).state = 2 ∨ (s.domain
    d.val).state = 4 → u = domainPegs d.val (fun p => { p with frozen := false }) (s.setDomain d.val
    { (s.domain d.val) with from_ := (s.domain d.val).source, source := (((s.domain d.val).target.map inputOf).getD 3) }) → v
    = ((domainStrings d.val).filter isBus).foldl (fun s n => s.setStr n (recheckRings (s.str n)))
      (((domainStrings d.val).filter (fun n => !isBus n && decide ((u.str n).state ≤ 2))).foldl (fun s n => retrain n s) u) →
    ∃ t, exec (.selectorSwitch d) s = .next t ∧
      t = settleAbrupt (handoverDone d.val true (traceStep d.val 5 v))) ∧
  (∀ (d : DomainId) (s : State), (s.domain d.val).lost = true → (s.domain d.val).state = 2 ∨ (s.domain d.val).state = 4 →
    ∃ t, exec (.selectorSwitch d) s = .next t ∧
      (t.domain d.val).source = (((s.domain d.val).target.map inputOf).getD 3) ∧ (t.domain d.val).lost = false ∧ (∀ n ∈
        domainStrings d.val, isBus n = false → (s.str n).state ≤ 2 → (t.str n).state = 4) ∧
      t = { s with
          beat := t.beat, od := t.od, cores := t.cores, wins := t.wins, dies := t.dies, sched := t.sched
          strings := t.strings, tags := t.tags, harps := t.harps, domains := t.domains, dram := t.dram
          ports := t.ports, rmem := t.rmem, serve := t.serve, images := t.images, time := t.time, dev := t.dev
          pod := t.pod, test := t.test, beagle := t.beagle, log := t.log, out := t.out, free := t.free }) ∧
  (∀ (d : DomainId) (s : State), ¬((s.domain d.val).lost = true ∧ ((s.domain d.val).state = 2 ∨ (s.domain d.val).state = 4))
    → (s.domain d.val).state ≠ 3 ∨ (s.domain d.val).switched = true ∨ s.beat < (s.domain d.val).holdBeat + 1000 →
    ∃ t, exec (.selectorSwitch d) s = .next t ∧
      t = s) ∧
  (∀ (d : DomainId) (u : State) (s : State), (s.domain d.val).state = 3 → (s.domain d.val).switched = true → checksOver s
    d.val = true → s.beat ≤ (s.domain d.val).holdBeat + 1000 * s.obj Obj.handoverHoldLimitUs → u = domainPegs d.val (fun p =>
    { p with frozen := false }) ((domainStrings d.val).foldl (fun s n => if (s.str n).held then releaseHold n s else s) s) →
    ∃ t, exec (.handoverRelease d) s = .next t ∧
      t = handoverDone d.val (s.domain d.val).lost (traceStep d.val 10 (u.count (if (s.domain d.val).forced then
        Obj.handoversForced else Obj.handoversPlanned) 1))) ∧
  (∀ (d : DomainId) (s : State), (s.domain d.val).state = 3 → (s.domain d.val).switched = true → checksOver s d.val = true →
    s.beat ≤ (s.domain d.val).holdBeat + 1000 * s.obj Obj.handoverHoldLimitUs →
    ∃ t, exec (.handoverRelease d) s = .next t ∧
      (∀ n ∈ domainStrings d.val, (t.str n).held = false) ∧ (t.domain d.val).switched = false ∧ (t.domain d.val).forced =
        false ∧ (t.domain d.val).lost = false ∧ (t.domain d.val).source = (s.domain d.val).source ∧
      ((s.domain d.val).forced = false → t.obj Obj.handoversPlanned = (s.obj Obj.handoversPlanned + 1) % 2 ^ objBits
        Obj.handoversPlanned) ∧ ((s.domain d.val).forced = true → t.obj Obj.handoversForced = (s.obj Obj.handoversForced + 1)
        % 2 ^ objBits Obj.handoversForced) ∧
      t = { s with
          beat := t.beat, od := t.od, strings := t.strings, harps := t.harps, domains := t.domains, ports := t.ports
          time := t.time, dev := t.dev, pod := t.pod, test := t.test, beagle := t.beagle, log := t.log }) ∧
  (∀ (d : DomainId) (s : State), (s.domain d.val).state ≠ 3 ∨ (s.domain d.val).switched = false ∨ checksOver s d.val = false
    ∨ (s.domain d.val).holdBeat + 1000 * s.obj Obj.handoverHoldLimitUs < s.beat →
    ∃ t, exec (.handoverRelease d) s = .next t ∧
      t = s) ∧
  (∀ (d : DomainId) (s : State), (s.domain d.val).state = 3 → (s.domain d.val).holdBeat + 1000 * s.obj
    Obj.handoverHoldLimitUs ≤ s.beat →
    ∃ t, exec (.holdLimitExpiry d) s = .next t ∧
      (∀ n ∈ domainStrings d.val, (t.str n).held = false) ∧ (∀ n ∈ domainStrings d.val, isBus n = false → (s.str n).state ≤ 2
        → (t.str n).state = 4 ∧ (t.str n).frozenAt = some (s.domain d.val).holdBeat) ∧
      (t.domain d.val).source = (s.domain d.val).from_ ∧ (t.domain d.val).switched = false ∧ (t.domain d.val).refused =
        (s.domain d.val).refused ++ (s.domain d.val).target.toList ∧ t.obj Obj.handoverFallbacks = (s.obj
        Obj.handoverFallbacks + 1) % 2 ^ objBits Obj.handoverFallbacks ∧ (∀ k ∈ (s.domain d.val).target, (s.harp k).role ≠ 0
        → (t.harp k).role = 6) ∧
      t = { s with
          beat := t.beat, od := t.od, cores := t.cores, wins := t.wins, dies := t.dies, sched := t.sched
          strings := t.strings, tags := t.tags, harps := t.harps, domains := t.domains, dram := t.dram
          ports := t.ports, rmem := t.rmem, serve := t.serve, images := t.images, time := t.time, dev := t.dev
          pod := t.pod, test := t.test, beagle := t.beagle, log := t.log, out := t.out, free := t.free }) ∧
  (∀ (d : DomainId) (s : State), (s.domain d.val).state ≠ 3 ∨ s.beat < (s.domain d.val).holdBeat + 1000 * s.obj
    Obj.handoverHoldLimitUs →
    ∃ t, exec (.holdLimitExpiry d) s = .next t ∧
      t = s)

/-- PEG_SAMPLE of a loop that runs keeps its detuning and the heater with the feed-forward of the neighbours (a free value,
  Config.pegForward): a locked ring within 8 GHz stays locked, the first sample beyond is noted, and the second raises
  an alarm unless the string is held; a loop begins to sweep once its domain is lit, and one on a resonance goes on to
  its fret check. FRET_CHECK_DONE of a ring in its check locks one on its own line at its set point, counts a wrong line
  and steps the ring toward its own at most four times, or lets a loop that sweeps from cold go on, and fails a dark
  one; a check that fails maps out a usable line. CAL_TURN_START begins a turn on the spare of a FULL string that is due
  one. CAL_TURN_DONE applies two measurements that agree and has the line's rings checked; others are refused, counted
  and logged, and the limit of refusals in succession maps the line out. SOUNDING_DONE keeps the points, counts the run
  and trains the string. -/
def Obligations.PegsAndCalibration : Prop :=
  (∀ (n : StringId) (line : LineId) (ring : Fin 5) (detuning : Int) (heater : W16) (s : State), (((s.str n.val).peg line.val
    ring.val).frozen = false ∨ ((s.domain (stringDomain n.val)).state = 3 ∧ (s.domain (stringDomain n.val)).switched = true ∧
    (s.domain (stringDomain n.val)).holdBeat + 41000 ≤ s.beat)) ∧ (((s.str n.val).peg line.val ring.val).state ≠ 5 ∨ 2 <
    (s.str n.val).state) ∧ ring.val < ringCount n.val → ((s.str n.val).peg line.val ring.val).state = 3 → detuning.natAbs ≤
    pegLimit →
    ∃ t, exec (.pegSample n line ring detuning heater) s = .next t ∧
      t = setPeg n.val line.val ring.val
        { ((s.str n.val).peg line.val ring.val) with detuning, heater := heater + BitVec.ofInt 16 (Sys2Proof.Config.pegForward (neighbourPower s (ringSite n.val ring.val))), frozen := false, beyond := 0 }
        s) ∧
  (∀ (n : StringId) (line : LineId) (ring : Fin 5) (detuning : Int) (heater : W16) (s : State), (((s.str n.val).peg line.val
    ring.val).frozen = false ∨ ((s.domain (stringDomain n.val)).state = 3 ∧ (s.domain (stringDomain n.val)).switched = true ∧
    (s.domain (stringDomain n.val)).holdBeat + 41000 ≤ s.beat)) ∧ (((s.str n.val).peg line.val ring.val).state ≠ 5 ∨ 2 <
    (s.str n.val).state) ∧ ring.val < ringCount n.val → ((s.str n.val).peg line.val ring.val).state = 3 → pegLimit <
    detuning.natAbs → ((s.str n.val).peg line.val ring.val).beyond = 0 ∨ (s.str n.val).held = true →
    ∃ t, exec (.pegSample n line ring detuning heater) s = .next t ∧
      t = setPeg n.val line.val ring.val
        { ((s.str n.val).peg line.val ring.val) with detuning, heater := heater + BitVec.ofInt 16 (Sys2Proof.Config.pegForward (neighbourPower s (ringSite n.val ring.val))), frozen := false, beyond := ((s.str n.val).peg line.val ring.val).beyond + 1 }
        s) ∧
  (∀ (n : StringId) (line : LineId) (ring : Fin 5) (detuning : Int) (heater : W16) (s : State), (((s.str n.val).peg line.val
    ring.val).frozen = false ∨ ((s.domain (stringDomain n.val)).state = 3 ∧ (s.domain (stringDomain n.val)).switched = true ∧
    (s.domain (stringDomain n.val)).holdBeat + 41000 ≤ s.beat)) ∧ (((s.str n.val).peg line.val ring.val).state ≠ 5 ∨ 2 <
    (s.str n.val).state) ∧ ring.val < ringCount n.val → ((s.str n.val).peg line.val ring.val).state = 3 → pegLimit <
    detuning.natAbs → 1 ≤ ((s.str n.val).peg line.val ring.val).beyond → (s.str n.val).held = false →
    ∃ t, exec (.pegSample n line ring detuning heater) s = .next t ∧
      t = pegAlarm n.val line.val ring.val (setPeg n.val line.val ring.val
        { ((s.str n.val).peg line.val ring.val) with detuning, heater := heater + BitVec.ofInt 16 (Sys2Proof.Config.pegForward (neighbourPower s (ringSite n.val ring.val))), frozen := false }
        s) ∧ ((t.str n.val).peg line.val ring.val).state = 1 ∧ t.obj Obj.pegAlarms = (s.obj Obj.pegAlarms + 1) % 2 ^ objBits
        Obj.pegAlarms) ∧
  (∀ (n : StringId) (line : LineId) (ring : Fin 5) (detuning : Int) (heater : W16) (s : State), (((s.str n.val).peg line.val
    ring.val).frozen = false ∨ ((s.domain (stringDomain n.val)).state = 3 ∧ (s.domain (stringDomain n.val)).switched = true ∧
    (s.domain (stringDomain n.val)).holdBeat + 41000 ≤ s.beat)) ∧ (((s.str n.val).peg line.val ring.val).state ≠ 5 ∨ 2 <
    (s.str n.val).state) ∧ ring.val < ringCount n.val → (((s.str n.val).peg line.val ring.val).state = 0 ∧ lit s n.val =
    true) ∨ ((s.str n.val).peg line.val ring.val).state = 5 →
    ∃ t, exec (.pegSample n line ring detuning heater) s = .next t ∧
      t = setPeg n.val line.val ring.val
        { ((s.str n.val).peg line.val ring.val) with detuning, heater := heater + BitVec.ofInt 16 (Sys2Proof.Config.pegForward (neighbourPower s (ringSite n.val ring.val))), frozen := false, cold := true, steps := 0, state := if detuning.natAbs ≤ pegHeld then 2 else 1 }
        s) ∧
  (∀ (n : StringId) (line : LineId) (ring : Fin 5) (detuning : Int) (heater : W16) (s : State), (((s.str n.val).peg line.val
    ring.val).frozen = false ∨ ((s.domain (stringDomain n.val)).state = 3 ∧ (s.domain (stringDomain n.val)).switched = true ∧
    (s.domain (stringDomain n.val)).holdBeat + 41000 ≤ s.beat)) ∧ (((s.str n.val).peg line.val ring.val).state ≠ 5 ∨ 2 <
    (s.str n.val).state) ∧ ring.val < ringCount n.val → ¬((((s.str n.val).peg line.val ring.val).state = 0 ∧ lit s n.val =
    true) ∨ ((s.str n.val).peg line.val ring.val).state = 5) → ((s.str n.val).peg line.val ring.val).state ≠ 3 →
    ∃ t, exec (.pegSample n line ring detuning heater) s = .next t ∧
      t = setPeg n.val line.val ring.val
        { ((s.str n.val).peg line.val ring.val) with detuning, heater := heater + BitVec.ofInt 16 (Sys2Proof.Config.pegForward (neighbourPower s (ringSite n.val ring.val))), frozen := false, state := if (((s.str n.val).peg line.val ring.val).state = 1 ∨ ((s.str n.val).peg line.val ring.val).state = 4) ∧ detuning.natAbs ≤ pegHeld then 2 else ((s.str n.val).peg line.val ring.val).state }
        s) ∧
  (∀ (n : StringId) (line : LineId) (ring : Fin 5) (detuning : Int) (heater : W16) (s : State), ¬((((s.str n.val).peg
    line.val ring.val).frozen = false ∨ ((s.domain (stringDomain n.val)).state = 3 ∧ (s.domain (stringDomain n.val)).switched
    = true ∧ (s.domain (stringDomain n.val)).holdBeat + 41000 ≤ s.beat)) ∧ (((s.str n.val).peg line.val ring.val).state ≠ 5 ∨
    2 < (s.str n.val).state) ∧ ring.val < ringCount n.val) →
    ∃ t, exec (.pegSample n line ring detuning heater) s = .next t ∧
      t = s) ∧
  (∀ (n : StringId) (line : LineId) (ring : Fin 5) (expected : Int) (tones : List Int) (s : State), ((s.str n.val).peg
    line.val ring.val).state = 2 → ring.val < ringCount n.val → fretResult line.val expected tones = none →
    ∃ t, exec (.fretCheckDone n line ring expected tones) s = .next t ∧
      t = lineLocked n.val line.val ring.val (setPeg n.val line.val ring.val
        { ((s.str n.val).peg line.val ring.val) with state := 3, fret := line.val, steps := 0, toward := 0, beyond := 0, cold := false, setPoint := ringSet s n.val line.val ring.val }
        s)) ∧
  (∀ (n : StringId) (line : LineId) (ring : Fin 5) (expected : Int) (tones : List Int) (s : State), ((s.str n.val).peg
    line.val ring.val).state = 2 → ring.val < ringCount n.val → fretResult line.val expected tones = none → (∃ r, r <
    ringCount n.val ∧ r ≠ ring.val ∧ ((s.str n.val).peg line.val r).state ≠ 3) →
    ∃ t, exec (.fretCheckDone n line ring expected tones) s = .next t ∧
      t = setPeg n.val line.val ring.val
        { ((s.str n.val).peg line.val ring.val) with state := 3, fret := line.val, steps := 0, toward := 0, beyond := 0, cold := false, setPoint := ringSet s n.val line.val ring.val }
        s) ∧
  (∀ (n : StringId) (line : LineId) (ring : Fin 5) (expected : Int) (tones : List Int) (u v : State) (s : State), ((s.str
    n.val).peg line.val ring.val).state = 2 → ring.val < ringCount n.val → fretResult line.val expected tones = some 0xFF → u
    = countLog Obj.fretFailures 1 0 (stringEnds n.val).2 n.val (leBytes 1 line.val) (setPeg n.val line.val ring.val
    { ((s.str n.val).peg line.val ring.val) with state := 5, fret := 0xFF } s) → v = u.setStr n.val
    { u.str n.val with rotate := if (u.str n.val).rotate = some line.val then none else (u.str n.val).rotate } →
    ∃ t, exec (.fretCheckDone n line ring expected tones) s = .next t ∧
      t = (if (tget {} line.val (v.str n.val).lanes).usable then dropLine n.val line.val (ring.val != 0) v else v) ∧ ((t.str
        n.val).peg line.val ring.val).state = 5 ∧ ((t.str n.val).peg line.val ring.val).fret = 0xFF ∧ t.obj Obj.fretFailures
        = (s.obj Obj.fretFailures + 1) % 2 ^ objBits Obj.fretFailures ∧ (tget {} line.val (t.str n.val).lanes).usable =
        false) ∧
  (∀ (n : StringId) (line : LineId) (ring : Fin 5) (expected : Int) (tones : List Int) (l : Nat) (u v : State) (s : State),
    ((s.str n.val).peg line.val ring.val).state = 2 → ring.val < ringCount n.val → fretResult line.val expected tones = some
    l → l ≠ 0xFF → ((s.str n.val).peg line.val ring.val).cold = true → u = setPeg n.val line.val ring.val
    { ((s.str n.val).peg line.val ring.val) with state := 1, fret := l } (s.count Obj.fretFailures 1) → v = u.setStr n.val
    { u.str n.val with rotate := if (u.str n.val).rotate = some line.val then none else (u.str n.val).rotate } →
    ∃ t, exec (.fretCheckDone n line ring expected tones) s = .next t ∧
      t = (if (tget {} line.val (v.str n.val).lanes).usable then dropLine n.val line.val (ring.val != 0) v else v) ∧ ((t.str
        n.val).peg line.val ring.val).state = 1 ∧ t.obj Obj.fretFailures = (s.obj Obj.fretFailures + 1) % 2 ^ objBits
        Obj.fretFailures ∧ (tget {} line.val (t.str n.val).lanes).usable = false) ∧
  (∀ (n : StringId) (line : LineId) (ring : Fin 5) (expected : Int) (tones : List Int) (l : Nat) (u v : State) (s : State),
    ((s.str n.val).peg line.val ring.val).state = 2 → ring.val < ringCount n.val → fretResult line.val expected tones = some
    l → l ≠ 0xFF → ((s.str n.val).peg line.val ring.val).cold = false → u = setPeg n.val line.val ring.val
    { ((s.str n.val).peg line.val ring.val) with state := if ((s.str n.val).peg line.val ring.val).steps = 4 then 5 else 2, steps := min (((s.str n.val).peg line.val ring.val).steps + 1) 4, fret := l, toward := if ((s.str n.val).peg line.val ring.val).steps = 4 then ((s.str n.val).peg line.val ring.val).toward else ((s.str n.val).peg line.val ring.val).toward + (if l < line.val then 1 else -1) }
    (countLog Obj.wrongLineLocks 1 0 (stringEnds n.val).2 n.val (leBytes 1 line.val ++ leBytes 1 l) (s.count Obj.fretFailures
    1)) → v = u.setStr n.val { u.str n.val with rotate := if (u.str n.val).rotate = some line.val then none else (u.str n.val).rotate }
    →
    ∃ t, exec (.fretCheckDone n line ring expected tones) s = .next t ∧
      t = (if (tget {} line.val (v.str n.val).lanes).usable then dropLine n.val line.val (ring.val != 0) v else v) ∧ ((t.str
        n.val).peg line.val ring.val).state = (if ((s.str n.val).peg line.val ring.val).steps = 4 then 5 else 2) ∧ t.obj
        Obj.wrongLineLocks = (s.obj Obj.wrongLineLocks + 1) % 2 ^ objBits Obj.wrongLineLocks ∧ t.obj Obj.fretFailures =
        (s.obj Obj.fretFailures + 1) % 2 ^ objBits Obj.fretFailures ∧ (tget {} line.val (t.str n.val).lanes).usable = false) ∧
  (∀ (n : StringId) (line : LineId) (ring : Fin 5) (expected : Int) (tones : List Int) (s : State), ((s.str n.val).peg
    line.val ring.val).state ≠ 2 ∨ ringCount n.val ≤ ring.val →
    ∃ t, exec (.fretCheckDone n line ring expected tones) s = .next t ∧
      t = s) ∧
  (∀ (n : StringId) (line : LineId) (s : State), s.obj Obj.calEnable = 1 ∧ isBus n.val = false ∧ (s.str n.val).state = 0 ∧
    (s.str n.val).turn = none ∧ (s.str n.val).rotate = none ∧ (s.str n.val).newMap = none ∧ (s.str n.val).map.getD 16 0x1F =
    line.val ∧ (s.domain (stringDomain n.val)).state = 0 ∧ ((s.str n.val).turnBeat + 1000000000 * s.obj Obj.calTurnIntervalS
    ≤ s.beat ∨ 10 * s.obj Obj.calTempTriggerC < (tileTemp s (stringEnds n.val).1 - (tget {} line.val (s.str
    n.val).lanes).calTx).natAbs ∨ 10 * s.obj Obj.calTempTriggerC < (tileTemp s (stringEnds n.val).2 - (tget {} line.val
    (s.str n.val).lanes).calRx).natAbs) →
    ∃ t, exec (.calTurnStart n line) s = .next t ∧
      t = s.setStr n.val { s.str n.val with turn := some line.val, turnBeat := s.beat }) ∧
  (∀ (n : StringId) (line : LineId) (s : State), ¬(s.obj Obj.calEnable = 1 ∧ isBus n.val = false ∧ (s.str n.val).state = 0 ∧
    (s.str n.val).turn = none ∧ (s.str n.val).rotate = none ∧ (s.str n.val).newMap = none ∧ (s.str n.val).map.getD 16 0x1F =
    line.val ∧ (s.domain (stringDomain n.val)).state = 0 ∧ ((s.str n.val).turnBeat + 1000000000 * s.obj Obj.calTurnIntervalS
    ≤ s.beat ∨ 10 * s.obj Obj.calTempTriggerC < (tileTemp s (stringEnds n.val).1 - (tget {} line.val (s.str
    n.val).lanes).calTx).natAbs ∨ 10 * s.obj Obj.calTempTriggerC < (tileTemp s (stringEnds n.val).2 - (tget {} line.val
    (s.str n.val).lanes).calRx).natAbs)) →
    ∃ t, exec (.calTurnStart n line) s = .next t ∧
      t = s) ∧
  (∀ (n : StringId) (first repeated : CalMeas) (line : Nat) (s : State), (s.str n.val).turn = some line → ((first.margin -
    repeated.margin).natAbs ≤ s.obj Obj.calTolMargin ∧ (first.eye - repeated.eye).natAbs ≤ s.obj Obj.calTolEye) →
    ∃ t, exec (.calTurnDone n first repeated) s = .next t ∧
      tget {} line (t.str n.val).lanes = calApply s n.val (tget {} line (s.str n.val).lanes) first ∧ (t.str n.val).turn =
        none ∧ (t.str n.val).rotate = some line ∧ (t.str n.val).map = (s.str n.val).map ∧
      (∀ r, r < 2 → (t.str n.val).peg line r =
        { (s.str n.val).peg line r with state := 2, setPoint := ((t.str n.val).peg line r).setPoint }) ∧ (∀ k, k ≠ n.val →
        t.str k = s.str k) ∧ t.obj Obj.calAccepted = (s.obj Obj.calAccepted + 1) % 2 ^ objBits Obj.calAccepted ∧ Untouched
        [Obj.calAccepted] s t ∧
      t = { s with od := t.od, strings := t.strings }) ∧
  (∀ (n : StringId) (first repeated : CalMeas) (line : Nat) (u : State) (s : State), (s.str n.val).turn = some line →
    ¬((first.margin - repeated.margin).natAbs ≤ s.obj Obj.calTolMargin ∧ (first.eye - repeated.eye).natAbs ≤ s.obj
    Obj.calTolEye) → u = s.setStr n.val { s.str n.val with turn := none, lanes := tset line { (tget {} line (s.str n.val).lanes) with refusals := (tget {} line (s.str n.val).lanes).refusals + 1 } (s.str n.val).lanes }
    →
    ∃ t, exec (.calTurnDone n first repeated) s = .next t ∧
      t = (if s.obj Obj.calRefusalLimit ≤ (tget {} line (s.str n.val).lanes).refusals + 1 then dropLine n.val line false
        (countLog Obj.calRefused 0 0x1801 (stringEnds n.val).1 n.val (leBytes 1 line) u) else countLog Obj.calRefused 0
        0x1801 (stringEnds n.val).1 n.val (leBytes 1 line) u) ∧ (t.str n.val).turn = none ∧ t.obj Obj.calRefused = (s.obj
        Obj.calRefused + 1) % 2 ^ objBits Obj.calRefused) ∧
  (∀ (n : StringId) (first repeated : CalMeas) (s : State), (s.str n.val).turn = none →
    ∃ t, exec (.calTurnDone n first repeated) s = .next t ∧
      t = s) ∧
  (∀ (powers : List Int) (u : State) (s : State), s.sounding.state = 1 → u =
    (({ s with sounding := { s.sounding with state := 2, points := powers.take (17 * (s.sounding.half + 1)) } } :
    State).setObj Obj.soundingPoints (17 * (s.sounding.half + 1))).count Obj.soundingRuns 1 →
    ∃ t, exec (.soundingDone powers) s = .next t ∧
      t = startTraining s.sounding.string u ∧ t.sounding =
        { s.sounding with state := 2, points := powers.take (17 * (s.sounding.half + 1)) } ∧ (t.str s.sounding.string).state
        = 6 ∧ t.obj Obj.soundingRuns = (s.obj Obj.soundingRuns + 1) % 2 ^ objBits Obj.soundingRuns) ∧
  (∀ (powers : List Int) (s : State), s.sounding.state = 1 →
    ∃ t, exec (.soundingDone powers) s = .next t ∧
      t.sounding = { s.sounding with state := 2, points := powers.take (17 * (s.sounding.half + 1)) } ∧ (t.str
        s.sounding.string).state = 6 ∧ (∀ k, k ≠ s.sounding.string → k ≠ reverseString s.sounding.string → t.str k = s.str k)
        ∧ t.obj Obj.soundingPoints = 17 * (s.sounding.half + 1) % 2 ^ 64 ∧ t.obj Obj.soundingRuns = (s.obj Obj.soundingRuns +
        1) % 2 ^ objBits Obj.soundingRuns ∧ Untouched ([Obj.soundingRuns, Obj.soundingPoints] ++ logCounters) s t ∧
      t = { s with od := t.od, strings := t.strings, sounding := t.sounding, beagle := t.beagle }) ∧
  (∀ (powers : List Int) (s : State), s.sounding.state ≠ 1 →
    ∃ t, exec (.soundingDone powers) s = .next t ∧
      t = s)

/-- PORT_PHY_LOCK on an enabled port in use of a rim die not in shutdown, down, disabled or retraining, and PORT_TRAIN_RETRY
  1 s after it was left, begin training. FABRIC_TRAIN_OFFER at a port in training from the right neighbour is noted; one
  without level 1 (highest level 0, or the model's operand for the lowest above 1: log entry 95) refuses the port with
  0x1603, and a wrong neighbour holds it with 0x1205, each logged and traced; at a port that is up it first retrains the
  port. FABRIC_TRAIN_ACCEPT at the agreed level 1 is noted, and once the port has sent its own the port is up: with
  fresh numbers and credits, or, where it retrains, with those it had and everything unacknowledged to go again; then it
  owes an ECHO of its own. FABRIC_ECHO at a port that is up gives half the round trip as latency or is returned.
  Otherwise these change nothing. -/
def Obligations.PortTraining : Prop :=
  (∀ (p : PortId) (s : State), portsPowered s = true → portUsed s p.val = true → s.obj (Obj.portEnableP + p.val) ≠ 0 ∧
    (s.thermDie (rimSite (portDir p.val)) 1).level ≠ 3 ∧ ((s.port p.val).state = 0 ∨ (s.port p.val).state = 5 ∨ (s.port
    p.val).retrainAt.isSome = true) →
    ∃ t, exec (.portPhyLock p) s = .next t ∧
      (t.port p.val) = { (s.port p.val) with state := 1, offerGot := false, acceptSent := false, acceptGot := false, tried := s.beat }
        ∧ Untouched logCounters s t ∧ (∀ k, k ≠ p.val → t.port k = s.port k) ∧
      t = { s with od := t.od, ports := t.ports, beagle := t.beagle }) ∧
  (∀ (p : PortId) (s : State), portsPowered s = false ∨ portUsed s p.val = false ∨ ¬(s.obj (Obj.portEnableP + p.val) ≠ 0 ∧
    (s.thermDie (rimSite (portDir p.val)) 1).level ≠ 3 ∧ ((s.port p.val).state = 0 ∨ (s.port p.val).state = 5 ∨ (s.port
    p.val).retrainAt.isSome = true)) →
    ∃ t, exec (.portPhyLock p) s = .next t ∧
      t = s) ∧
  (∀ (p : PortId) (s : State), portsPowered s = true → portUsed s p.val = true → (s.port p.val).state ≠ 2 ∧ (s.port
    p.val).state ≠ 5 ∧ (s.port p.val).tried + 1000000000 ≤ s.beat →
    ∃ t, exec (.portTrainRetry p) s = .next t ∧
      (t.port p.val) = { (s.port p.val) with state := 1, offerGot := false, acceptSent := false, acceptGot := false, tried := s.beat }
        ∧ Untouched logCounters s t ∧ (∀ k, k ≠ p.val → t.port k = s.port k) ∧
      t = { s with od := t.od, ports := t.ports, beagle := t.beagle }) ∧
  (∀ (p : PortId) (s : State), portsPowered s = false ∨ portUsed s p.val = false ∨ ¬((s.port p.val).state ≠ 2 ∧ (s.port
    p.val).state ≠ 5 ∧ (s.port p.val).tried + 1000000000 ≤ s.beat) →
    ∃ t, exec (.portTrainRetry p) s = .next t ∧
      t = s) ∧
  (∀ (p : PortId) (r : TrainRec) (s : State), (s.port p.val).state = 1 → ¬(r.level = 0 ∨ 1 < r.lowest) → rightNeighbour s
    p.val r = true →
    ∃ t, exec (.fabricTrainOffer p r) s = .next t ∧
      t = s.setPort p.val { (s.port p.val) with offerGot := true, neighbour := r.node }) ∧
  (∀ (p : PortId) (r : TrainRec) (s : State), (s.port p.val).state = 1 → r.level = 0 ∨ 1 < r.lowest →
    ∃ t, exec (.fabricTrainOffer p r) s = .next t ∧
      (t.port p.val) = { (s.port p.val) with state := 4, tried := s.beat, neighbour := r.node } ∧ Untouched logCounters s t ∧
        Logged (Obj.portStateP + p.val) 0 0x1603 (rimSite (portDir p.val)) p.val ([]) s t ∧ (∀ k, k ≠ p.val → t.port k =
        s.port k) ∧
      t = { s with od := t.od, ports := t.ports, beagle := t.beagle, log := t.log }) ∧
  (∀ (p : PortId) (r : TrainRec) (s : State), (s.port p.val).state = 1 → ¬(r.level = 0 ∨ 1 < r.lowest) → rightNeighbour s
    p.val r = false →
    ∃ t, exec (.fabricTrainOffer p r) s = .next t ∧
      (t.port p.val) = { (s.port p.val) with state := 3, tried := s.beat, neighbour := r.node } ∧ Untouched logCounters s t ∧
        Logged (Obj.portStateP + p.val) 0 0x1205 (rimSite (portDir p.val)) p.val (leBytes 2 r.node.toNat) s t ∧ (∀ k, k ≠
        p.val → t.port k = s.port k) ∧
      t = { s with od := t.od, ports := t.ports, beagle := t.beagle, log := t.log }) ∧
  (∀ (p : PortId) (r : TrainRec) (u : State) (s : State), (s.port p.val).state = 2 → u = retrainPort p.val s → ¬(r.level = 0
    ∨ 1 < r.lowest) → rightNeighbour s p.val r = true →
    ∃ t, exec (.fabricTrainOffer p r) s = .next t ∧
      t = u.setPort p.val { u.port p.val with offerGot := true, neighbour := r.node }) ∧
  (∀ (p : PortId) (r : TrainRec) (u : State) (s : State), (s.port p.val).state = 2 → u = retrainPort p.val s → r.level = 0 ∨
    1 < r.lowest ∨ rightNeighbour s p.val r = false →
    ∃ t, exec (.fabricTrainOffer p r) s = .next t ∧
      t = logEvent (Obj.portStateP + p.val) 0 (if r.level = 0 ∨ 1 < r.lowest then 0x1603 else 0x1205) (rimSite (portDir
        p.val)) p.val (if r.level = 0 ∨ 1 < r.lowest then [] else leBytes 2 r.node.toNat)
        (enterPort p.val (if r.level = 0 ∨ 1 < r.lowest then 4 else 3) (u.setPort p.val
          { u.port p.val with tried := u.beat, neighbour := r.node }))) ∧
  (∀ (p : PortId) (r : TrainRec) (s : State), (s.port p.val).state ≠ 1 ∧ (s.port p.val).state ≠ 2 →
    ∃ t, exec (.fabricTrainOffer p r) s = .next t ∧
      t = s) ∧
  (∀ (p : Nat) (s : State), (s.port p).state ≠ 1 →
    (retrainPort p s).port p = { s.port p with state := 1, offerGot := false, acceptSent := false, acceptGot := false, tried := s.beat, timeouts := 0, resend := [], retrainAt := some s.beat }
      ∧
    (∀ k, k ≠ p → (retrainPort p s).port k = s.port k)) ∧
  (∀ (p : PortId) (r : TrainRec) (s : State), (s.port p.val).state = 1 → r.agreed = 1 → rightNeighbour s p.val r = true →
    (s.port p.val).acceptSent = false →
    ∃ t, exec (.fabricTrainAccept p r) s = .next t ∧
      t = s.setPort p.val { (s.port p.val) with acceptGot := true, neighbour := r.node }) ∧
  (∀ (p : PortId) (r : TrainRec) (s : State), (s.port p.val).state = 1 → r.agreed = 1 → rightNeighbour s p.val r = true →
    (s.port p.val).acceptSent = true → (s.port p.val).retrainAt = none →
    ∃ t, exec (.fabricTrainAccept p r) s = .next t ∧
      (t.port p.val) = { (s.port p.val) with state := 2, acceptGot := true, neighbour := r.node, txSeq := 0, unacked := [], resend := [], flight := [], timeouts := 0, rxSeq := 0, rxAck := 0, granted := [], spent := [], freed := [], unreported := List.range 8, passed := [], partial_ := [], ctrlq := (s.port p.val).ctrlq ++ [[0x04]], echo := none }
        ∧
      Untouched logCounters s t ∧ (∀ k, k ≠ p.val → t.port k = s.port k) ∧
      t = { s with od := t.od, ports := t.ports, beagle := t.beagle }) ∧
  (∀ (p : PortId) (r : TrainRec) (s : State), (s.port p.val).state = 1 → r.agreed = 1 → rightNeighbour s p.val r = true →
    (s.port p.val).acceptSent = true → (s.port p.val).retrainAt ≠ none →
    ∃ t, exec (.fabricTrainAccept p r) s = .next t ∧
      (t.port p.val) = { (s.port p.val) with state := 2, acceptGot := true, neighbour := r.node, retrainAt := none, timeouts := 0, resend := (s.port p.val).unacked.map (·.1), ctrlq := (s.port p.val).ctrlq ++ [[0x04]], echo := none }
        ∧
      Untouched logCounters s t ∧ (∀ k, k ≠ p.val → t.port k = s.port k) ∧
      t = { s with od := t.od, ports := t.ports, beagle := t.beagle }) ∧
  (∀ (p : PortId) (r : TrainRec) (s : State), (s.port p.val).state ≠ 1 ∨ r.agreed ≠ 1 ∨ rightNeighbour s p.val r = false →
    ∃ t, exec (.fabricTrainAccept p r) s = .next t ∧
      t = s) ∧
  (∀ (p : PortId) (beat : W64) (s : State), (s.port p.val).state = 2 → (s.port p.val).echo = some beat.toNat → beat.toNat ≤
    s.beat →
    ∃ t, exec (.fabricEcho p beat true) s = .next t ∧
      t = s.setPort p.val { (s.port p.val) with latency := (s.beat - beat.toNat) * 500, echo := none }) ∧
  (∀ (p : PortId) (beat : W64) (s : State), (s.port p.val).state = 2 →
    ∃ t, exec (.fabricEcho p beat false) s = .next t ∧
      t = s.setPort p.val { (s.port p.val) with ctrlq := (s.port p.val).ctrlq ++ [fitBytes 256 (leBytes 1 0x04 ++ leBytes 8 beat.toNat)] }) ∧
  (∀ (p : PortId) (beat : W64) (own : Bool) (s : State), (s.port p.val).state ≠ 2 ∨ (own = true ∧ ((s.port p.val).echo ≠ some
    beat.toNat ∨ s.beat < beat.toNat)) →
    ∃ t, exec (.fabricEcho p beat own) s = .next t ∧
      t = s)

/-- BLOCK_TIME puts one block on a port: in training an offer until one has come, then the accept, then idle; on a port that
  is up, in this order, a block due to be resent, a control record that waits, a data block with the flits of its
  packets under the next number, kept for retry, or an idle block where no more may go; every second block of a
  throttled port is idle. Each block reports the credit counter longest unreported. In Boot and Held no packets go or
  are taken. DATA_BLOCK on a port that is up is counted where its CRC fails; otherwise its acknowledgement and credit
  are taken, and a data block with the number expected advances the receiver and its flits are placed.
  LINK_RETRY_TIMEOUT, 2 µs after the oldest block went with none of it due again, is counted and sends everything
  unacknowledged again, and the eighth in succession retrains the port. Otherwise these change nothing. -/
def Obligations.LinkBlocks : Prop :=
  (∀ (p : PortId) (s : State), (s.port p.val).state = 1 → (s.port p.val).offerGot = false →
    ∃ t, exec (.blockTime p) s = .next t ∧
      t.out = s.out ++ [.block p.val (blockCtl 2 (s.port p.val).txSeq.toNat (s.port p.val).rxAck.toNat ((s.port
        p.val).unreported.headD 0) (tget 0 ((s.port p.val).unreported.headD 0) (s.port p.val).freed) (fitBytes 256
        (trainBytes s 0x01 p.val))) (fitBytes 256 (trainBytes s 0x01 p.val))] ∧ t.ports = (s.setPort p.val
        { (s.port p.val) with unreported := (s.port p.val).unreported.drop 1 ++ [(s.port p.val).unreported.headD 0] }).ports
        ∧
      t = { s with ports := t.ports, out := t.out }) ∧
  (∀ (p : PortId) (s : State), (s.port p.val).state = 1 → (s.port p.val).offerGot = true → (s.port p.val).acceptSent = false
    →
    ∃ t, exec (.blockTime p) s = .next t ∧
      t = portUp p.val (putBlock p.val 2 (s.port p.val).txSeq.toNat (trainBytes s 0x02 p.val) (s.setPort p.val
        { (s.port p.val) with acceptSent := true })) ∧ t.out = s.out ++ [.block p.val (blockCtl 2 (s.port p.val).txSeq.toNat
        (s.port p.val).rxAck.toNat ((s.port p.val).unreported.headD 0) (tget 0 ((s.port p.val).unreported.headD 0) (s.port
        p.val).freed) (fitBytes 256 (trainBytes s 0x02 p.val))) (fitBytes 256 (trainBytes s 0x02 p.val))]) ∧
  (∀ (p : PortId) (s : State), (s.port p.val).state = 1 → (s.port p.val).offerGot = true → (s.port p.val).acceptSent = true →
    ∃ t, exec (.blockTime p) s = .next t ∧
      t.out = s.out ++ [.block p.val (blockCtl 1 (s.port p.val).txSeq.toNat (s.port p.val).rxAck.toNat ((s.port
        p.val).unreported.headD 0) (tget 0 ((s.port p.val).unreported.headD 0) (s.port p.val).freed) (fitBytes 256 []))
        (fitBytes 256 [])] ∧ t.ports = (s.setPort p.val
        { (s.port p.val) with unreported := (s.port p.val).unreported.drop 1 ++ [(s.port p.val).unreported.headD 0] }).ports
        ∧
      t = { s with ports := t.ports, out := t.out }) ∧
  (∀ (p : PortId) (s : State), (s.port p.val).state = 2 → (s.port p.val).skip = true ∧ (s.port p.val).even = true →
    ∃ t, exec (.blockTime p) s = .next t ∧
      t.out = s.out ++ [.block p.val (blockCtl 1 (s.port p.val).txSeq.toNat (s.port p.val).rxAck.toNat ((s.port
        p.val).unreported.headD 0) (tget 0 ((s.port p.val).unreported.headD 0) (s.port p.val).freed) (fitBytes 256 []))
        (fitBytes 256 [])] ∧ t.ports = (s.setPort p.val
        { (s.port p.val) with even := false, unreported := (s.port p.val).unreported.drop 1 ++ [(s.port p.val).unreported.headD 0] }).ports
        ∧
      t = { s with ports := t.ports, out := t.out }) ∧
  (∀ (p : PortId) (a : BitVec 10) (rest : List (BitVec 10)) (s : State), (s.port p.val).state = 2 → ¬((s.port p.val).skip =
    true ∧ (s.port p.val).even = true) → carries s = true → (s.port p.val).resend = a :: rest →
    ∃ t, exec (.blockTime p) s = .next t ∧
      t = resendBlock p.val a rest (s.setPort p.val { (s.port p.val) with even := true })) ∧
  (∀ (p : Nat) (a : BitVec 10) (rest : List (BitVec 10)) (flits : Bytes) (x : BitVec 10 × Bytes × Nat) (s : State), (s.port
    p).unacked.find? (fun x => x.1 == a) = some (x.1, flits, x.2.2) →
    resendBlock p a rest s = putBlock p 0 a.toNat flits ((s.setPort p
      { s.port p with resend := rest, unacked := (s.port p).unacked.map (fun y => if y.1 = a then (a, flits, s.beat) else y) }).count
      Obj.linkBlocksReplayed 1)) ∧
  (∀ (p : PortId) (c : Bytes) (r : List Bytes) (s : State), (s.port p.val).state = 2 → ¬((s.port p.val).skip = true ∧ (s.port
    p.val).even = true) → (carries s = false ∨ (s.port p.val).resend = []) → (s.port p.val).ctrlq = c :: r →
    ∃ t, exec (.blockTime p) s = .next t ∧
      t.out = s.out ++ [.block p.val (blockCtl 2 (s.port p.val).txSeq.toNat (s.port p.val).rxAck.toNat ((s.port
        p.val).unreported.headD 0) (tget 0 ((s.port p.val).unreported.headD 0) (s.port p.val).freed) (fitBytes 256
        (fillRecord s p.val c))) (fitBytes 256 (fillRecord s p.val c))] ∧ t.ports = (s.setPort p.val
        { (s.port p.val) with even := true, ctrlq := r, echo := if c = [0x04] then some s.beat else (s.port p.val).echo, unreported := (s.port p.val).unreported.drop 1 ++ [(s.port p.val).unreported.headD 0] }).ports
        ∧
      t = { s with ports := t.ports, out := t.out }) ∧
  (∀ (p : PortId) (s : State), (s.port p.val).state = 2 → ¬((s.port p.val).skip = true ∧ (s.port p.val).even = true) →
    (carries s = false ∨ (s.port p.val).resend = []) → (s.port p.val).ctrlq = [] → (s.port p.val).unacked.length < 512 ∧
    carries s = true ∧ ((s.port p.val).under.isSome = true ∨ (vcTurn (s.port p.val)).isSome = true) →
    ∃ t, exec (.blockTime p) s = .next t ∧
      t = sendBlock p.val (s.setPort p.val { (s.port p.val) with even := true })) ∧
  (∀ (p : PortId) (k : Packet) (b : Bytes) (s : State), (s.port p.val).state = 2 → ¬((s.port p.val).skip = true ∧ (s.port
    p.val).even = true) → (carries s = false ∨ (s.port p.val).resend = []) → (s.port p.val).ctrlq = [] → (s.port
    p.val).unacked.length < 512 → carries s = true → (s.port p.val).under = some (k, b) → 256 < b.length → (s.port
    p.val).inject.mode ≠ 1 →
    ∃ t, exec (.blockTime p) s = .next t ∧
      t.out = s.out ++ [.block p.val (blockCtl 0 (s.port p.val).txSeq.toNat (s.port p.val).rxAck.toNat ((s.port
        p.val).unreported.headD 0) (tget 0 ((s.port p.val).unreported.headD 0) (s.port p.val).freed) (b.take 256)) (b.take
        256)] ∧ (t.port p.val) = { (s.port p.val) with even := true, under := some (k, b.drop 256), txSeq := (s.port p.val).txSeq + 1, unacked := (s.port p.val).unacked ++ [((s.port p.val).txSeq, b.take 256, s.beat)], unreported := (s.port p.val).unreported.drop 1 ++ [(s.port p.val).unreported.headD 0] }
        ∧ (∀ k, k ≠ p.val → t.port k = s.port k) ∧
      t = { s with ports := t.ports, out := t.out }) ∧
  (∀ (p : PortId) (s : State), (s.port p.val).state = 2 → ¬((s.port p.val).skip = true ∧ (s.port p.val).even = true) →
    (carries s = false ∨ (s.port p.val).resend = []) → (s.port p.val).ctrlq = [] → ¬((s.port p.val).unacked.length < 512 ∧
    carries s = true ∧ ((s.port p.val).under.isSome = true ∨ (vcTurn (s.port p.val)).isSome = true)) →
    ∃ t, exec (.blockTime p) s = .next t ∧
      t.out = s.out ++ [.block p.val (blockCtl 1 (s.port p.val).txSeq.toNat (s.port p.val).rxAck.toNat ((s.port
        p.val).unreported.headD 0) (tget 0 ((s.port p.val).unreported.headD 0) (s.port p.val).freed) (fitBytes 256 []))
        (fitBytes 256 [])] ∧ t.ports = (s.setPort p.val
        { (s.port p.val) with even := true, unreported := (s.port p.val).unreported.drop 1 ++ [(s.port p.val).unreported.headD 0] }).ports
        ∧
      t = { s with ports := t.ports, out := t.out }) ∧
  (∀ (p : PortId) (s : State), (s.port p.val).state ≠ 1 ∧ (s.port p.val).state ≠ 2 →
    ∃ t, exec (.blockTime p) s = .next t ∧
      t = s) ∧
  (∀ (p : PortId) (ctl : BitVec 80) (flits : Bytes) (s : State), (s.port p.val).state = 2 → (s.port p.val).inject.mode ≠ 2 ∨
    fieldAt ctl 0 2 ≠ 0 → fieldAt ctl 48 32 ≠ crc32c (leBytes 6 ctl.toNat ++ fitBytes 256 flits) →
    ∃ t, exec (.dataBlock p ctl flits) s = .next t ∧
      (∀ k, t.port k = s.port k) ∧ t.obj Obj.linkCrcErrors = (s.obj Obj.linkCrcErrors + 1) % 2 ^ objBits Obj.linkCrcErrors ∧
        Untouched [Obj.linkCrcErrors] s t ∧
      t = { s with od := t.od, ports := t.ports }) ∧
  (∀ (p : PortId) (ctl : BitVec 80) (flits : Bytes) (u : State) (s : State), (s.port p.val).state = 2 → (s.port
    p.val).inject.mode ≠ 2 ∨ fieldAt ctl 0 2 ≠ 0 → fieldAt ctl 48 32 = crc32c (leBytes 6 ctl.toNat ++ fitBytes 256 flits) → u
    = blockCredit p.val (fieldAt ctl 22 3) (fieldAt ctl 25 12) (blockAck p.val (fieldAt ctl 12 10) (s.setPort p.val (s.port
    p.val))) → fieldAt ctl 0 2 = 0 ∧ fieldAt ctl 2 10 = (u.port p.val).rxSeq.toNat ∧ carries u = true →
    ∃ t, exec (.dataBlock p ctl flits) s = .next t ∧
      t = placeFlits 8 p.val (fitBytes 256 flits) (u.setPort p.val
        { u.port p.val with rxAck := (u.port p.val).rxSeq, rxSeq := (u.port p.val).rxSeq + 1 }) ∧
      (t.port p.val).rxSeq = (s.port p.val).rxSeq + 1 ∧ (t.port p.val).rxAck = (s.port p.val).rxSeq ∧ (∀ k, k ≠ p.val →
        t.port k = s.port k)) ∧
  (∀ (p : PortId) (ctl : BitVec 80) (flits : Bytes) (u : State) (s : State), (s.port p.val).state = 2 → (s.port
    p.val).inject.mode ≠ 2 ∨ fieldAt ctl 0 2 ≠ 0 → fieldAt ctl 48 32 = crc32c (leBytes 6 ctl.toNat ++ fitBytes 256 flits) → u
    = blockCredit p.val (fieldAt ctl 22 3) (fieldAt ctl 25 12) (blockAck p.val (fieldAt ctl 12 10) (s.setPort p.val (s.port
    p.val))) → ¬(fieldAt ctl 0 2 = 0 ∧ fieldAt ctl 2 10 = (u.port p.val).rxSeq.toNat ∧ carries u = true) →
    ∃ t, exec (.dataBlock p ctl flits) s = .next t ∧
      t = u) ∧
  (∀ (p : PortId) (ctl : BitVec 80) (flits : Bytes) (hit : Bool) (s : State), (s.port p.val).state = 2 → (s.port
    p.val).inject.mode = 2 → fieldAt ctl 0 2 = 0 → hit = ((injectUnit (s.port p.val).inject p.val 0).1 && (s.port
    p.val).inject.classes.testBit (arrivingClass (s.port p.val) (fitBytes 256 flits))) → hit = true → fieldAt (flipBlock
    ((injectUnit (s.port p.val).inject p.val 0).2.1 % 2128) ctl (fitBytes 256 flits)).1 48 32 ≠ crc32c (leBytes 6 (flipBlock
    ((injectUnit (s.port p.val).inject p.val 0).2.1 % 2128) ctl (fitBytes 256 flits)).1.toNat ++ (flipBlock ((injectUnit
    (s.port p.val).inject p.val 0).2.1 % 2128) ctl (fitBytes 256 flits)).2) →
    ∃ t, exec (.dataBlock p ctl flits) s = .next t ∧
      (t.port p.val) = { (s.port p.val) with inject := (injectUnit (s.port p.val).inject p.val 0).2.2 } ∧ t.obj Obj.fiEvents
        = (s.obj Obj.fiEvents + 1) % 2 ^ objBits Obj.fiEvents ∧ t.obj Obj.linkCrcErrors = (s.obj Obj.linkCrcErrors + 1) % 2 ^
        objBits Obj.linkCrcErrors ∧ Untouched [Obj.fiEvents, Obj.linkCrcErrors] s t ∧ (∀ k, k ≠ p.val → t.port k = s.port k)
        ∧
      t = { s with od := t.od, ports := t.ports }) ∧
  (∀ (p : PortId) (ctl : BitVec 80) (flits : Bytes) (u : State) (s : State), (s.port p.val).state = 2 → (s.port
    p.val).inject.mode = 2 → fieldAt ctl 0 2 = 0 → (injectUnit (s.port p.val).inject p.val 0).1 = false ∨ (s.port
    p.val).inject.classes.testBit (arrivingClass (s.port p.val) (fitBytes 256 flits)) = false → u = blockCredit p.val
    (fieldAt ctl 22 3) (fieldAt ctl 25 12) (blockAck p.val (fieldAt ctl 12 10) (s.setPort p.val
    { (s.port p.val) with inject := (injectUnit (s.port p.val).inject p.val 0).2.2 })) →
    ∃ t, exec (.dataBlock p ctl flits) s = .next t ∧
      (if fieldAt ctl 48 32 ≠ crc32c (leBytes 6 ctl.toNat ++ fitBytes 256 flits) then t = (s.setPort p.val
        { (s.port p.val) with inject := (injectUnit (s.port p.val).inject p.val 0).2.2 }).count Obj.linkCrcErrors 1 else
      if fieldAt ctl 0 2 = 0 ∧ fieldAt ctl 2 10 = (u.port p.val).rxSeq.toNat ∧ carries u = true then t = placeFlits 8 p.val
        (fitBytes 256 flits) (u.setPort p.val
        { u.port p.val with rxAck := (u.port p.val).rxSeq, rxSeq := (u.port p.val).rxSeq + 1 }) else t = u)) ∧
  (∀ (p : PortId) (ctl : BitVec 80) (flits : Bytes) (s : State), (s.port p.val).state ≠ 2 →
    ∃ t, exec (.dataBlock p ctl flits) s = .next t ∧
      t = s) ∧
  (∀ (p vc v : Nat) (s : State), v < 4096 →
    (tget 0 vc ((blockCredit p vc v s).port p).granted) % 4096 = v ∧ tget 0 vc (s.port p).granted ≤ tget 0 vc ((blockCredit p
      vc v s).port p).granted ∧
      tget 0 vc ((blockCredit p vc v s).port p).granted < tget 0 vc (s.port p).granted + 4096 ∧ (∀ k, k ≠ p → (blockCredit p
        vc v s).port k = s.port k)) ∧
  (∀ (p : PortId) (a : BitVec 10) (flits : Bytes) (at_ : Nat) (rest : List (BitVec 10 × Bytes × Nat)) (s : State), (s.port
    p.val).unacked = (a, flits, at_) :: rest → (s.port p.val).state = 2 → carries s = true → (s.port p.val).resend.contains a
    = false → at_ + 2000 ≤ s.beat → (s.port p.val).timeouts ≠ 7 →
    ∃ t, exec (.linkRetryTimeout p) s = .next t ∧
      t = (s.count Obj.linkRetryTimeouts 1).setPort p.val
        { (s.port p.val) with timeouts := (s.port p.val).timeouts + 1, resend := (s.port p.val).unacked.map (·.1) }) ∧
  (∀ (p : PortId) (a : BitVec 10) (flits : Bytes) (at_ : Nat) (rest : List (BitVec 10 × Bytes × Nat)) (s : State), (s.port
    p.val).unacked = (a, flits, at_) :: rest → (s.port p.val).state = 2 → carries s = true → (s.port p.val).resend.contains a
    = false → at_ + 2000 ≤ s.beat → (s.port p.val).timeouts = 7 →
    ∃ t, exec (.linkRetryTimeout p) s = .next t ∧
      (t.port p.val) = { (s.port p.val) with state := 1, offerGot := false, acceptSent := false, acceptGot := false, tried := s.beat, timeouts := 0, resend := [], retrainAt := some s.beat }
        ∧ (∀ k, k ≠ p.val → t.port k = s.port k) ∧
      t.obj Obj.linkRetryTimeouts = (s.obj Obj.linkRetryTimeouts + 1) % 2 ^ objBits Obj.linkRetryTimeouts ∧ t.obj
        Obj.portRetrains = (s.obj Obj.portRetrains + 1) % 2 ^ objBits Obj.portRetrains ∧ Untouched ([Obj.linkRetryTimeouts,
        Obj.portRetrains] ++ logCounters) s t ∧
      t = { s with od := t.od, ports := t.ports, beagle := t.beagle, log := t.log }) ∧
  (∀ (p : PortId) (s : State), (s.port p.val).unacked = [] ∨ (s.port p.val).state ≠ 2 ∨ carries s = false ∨ (∀ x ∈ (s.port
    p.val).unacked.head?, (s.port p.val).resend.contains x.1 = true ∨ s.beat < x.2.2 + 2000) →
    ∃ t, exec (.linkRetryTimeout p) s = .next t ∧
      t = s)

/-- PACKET_ROUTE takes the packet that stands at the head of its receive buffer and frees its flits: one that fails the
  checks of R200 is discarded and counted; one whose entry says so goes to local memory handling; one that goes on is
  queued at the port of the table, at once where its rim die has the port and over a transit ring elsewhere; one without
  a usable output ends under R204. Packets that no table routes have commands of their own and stay. PORT_DOWN of a
  retrain not complete within 10 ms drops the link state and ends what the port holds. RATE_INCREASE_TICK, every 4 µs,
  refills the entries, raises those unmarked for 4 µs up to 256, and lets packets go that waited. Otherwise these change
  nothing. -/
def Obligations.PacketRouting : Prop :=
  (∀ (p : PortId) (pkt : Packet) (rest : List Packet) (s : State), tget [] (pkVc pkt.hdr) (s.port p.val).inq = pkt :: rest →
    headerGood s pkt.hdr = false →
    ∃ t, exec (.packetRoute p pkt) s = .next t ∧
      t = ({ s.setPort p.val { (s.port p.val) with inq := tset (pkVc pkt.hdr) rest (s.port p.val).inq, freed := tset (pkVc pkt.hdr) (tget 0 (pkVc pkt.hdr) (s.port p.val).freed + packetFlits pkt.hdr) (s.port p.val).freed } with fabric := { s.fabric with delivered := tset (pkEpoch pkt.hdr) (tget 0 (pkEpoch pkt.hdr) s.fabric.delivered + 1) s.fabric.delivered } }
        : State).count Obj.fabricHeaderDiscards 1) ∧
  (∀ (p : PortId) (pkt : Packet) (rest : List Packet) (s : State), tget [] (pkVc pkt.hdr) (s.port p.val).inq = pkt :: rest →
    headerGood s pkt.hdr = true → straightOp pkt.hdr = false → tableWay s pkt.hdr = .here →
    ∃ t, exec (.packetRoute p pkt) s = .next t ∧
      t = { s.setPort p.val { (s.port p.val) with inq := tset (pkVc pkt.hdr) rest (s.port p.val).inq, freed := tset (pkVc pkt.hdr) (tget 0 (pkVc pkt.hdr) (s.port p.val).freed + packetFlits pkt.hdr) (s.port p.val).freed } with fabric := { s.fabric with delivered := tset (pkEpoch pkt.hdr) (tget 0 (pkEpoch pkt.hdr) s.fabric.delivered + 1) s.fabric.delivered }, out := s.out ++ [.deliver (if 25 ≤ rimSite (portDir p.val) then 4 * (rimSite (portDir p.val) - 25) else 0) pkt] }) ∧
  (∀ (p q : PortId) (pkt : Packet) (rest : List Packet) (s : State), tget [] (pkVc pkt.hdr) (s.port p.val).inq = pkt :: rest
    → headerGood s pkt.hdr = true → straightOp pkt.hdr = false → tableWay s pkt.hdr = .out q.val →
    ∃ t, exec (.packetRoute p pkt) s = .next t ∧
      t = sendOut (rimSite (portDir p.val)) q.val (some (portDir p.val)) pkt (s.setPort p.val
        { (s.port p.val) with inq := tset (pkVc pkt.hdr) rest (s.port p.val).inq, freed := tset (pkVc pkt.hdr) (tget 0 (pkVc pkt.hdr) (s.port p.val).freed + packetFlits pkt.hdr) (s.port p.val).freed })) ∧
  (∀ (p : PortId) (pkt : Packet) (rest : List Packet) (s : State), tget [] (pkVc pkt.hdr) (s.port p.val).inq = pkt :: rest →
    headerGood s pkt.hdr = true → straightOp pkt.hdr = false → tableWay s pkt.hdr = .lost →
    ∃ t, exec (.packetRoute p pkt) s = .next t ∧
      t = packetLost (rimSite (portDir p.val)) pkt (s.setPort p.val
        { (s.port p.val) with inq := tset (pkVc pkt.hdr) rest (s.port p.val).inq, freed := tset (pkVc pkt.hdr) (tget 0 (pkVc pkt.hdr) (s.port p.val).freed + packetFlits pkt.hdr) (s.port p.val).freed })) ∧
  (∀ (p : PortId) (pkt : Packet) (s : State), takeIn p.val pkt s = none ∨ (headerGood s pkt.hdr = true ∧ straightOp pkt.hdr =
    true) →
    ∃ t, exec (.packetRoute p pkt) s = .next t ∧
      t = s) ∧
  (∀ (p : Nat) (inDir : Option Nat) (k : Packet) (s : State), (s.port p).inject.mode ≠ 3 → (s.port p).inject.mode ≠ 4 →
    ∃ h : BitVec 256, (∀ b, b ≠ 6 → h.getLsbD b = k.hdr.getLsbD b) ∧ sendOut (rimSite (portDir p)) p inDir k s =
      s.setPort p { s.port p with outq := tset (pkVc h) (tget [] (pkVc h) (s.port p).outq ++ [{ pkt := { k with hdr := h }, ring := none }]) (s.port p).outq }) ∧
  (∀ (p : PortId) (b : Nat) (s : State), (s.port p.val).retrainAt = some b → (s.port p.val).state ≠ 2 → b + 10000000 < s.beat
    → heldPackets (s.port p.val) = [] →
    ∃ t, exec (.portDown p) s = .next t ∧
      (t.port p.val) = { (s.port p.val) with state := 0, outq := [], under := none, flight := [], ctrlq := [], unacked := [], resend := [], timeouts := 0, retrainAt := none, echo := none, partial_ := [], tried := s.beat, sync := none }
        ∧ Untouched logCounters s t ∧ (∀ k, k ≠ p.val → t.port k = s.port k) ∧
      t = { s with od := t.od, ports := t.ports, beagle := t.beagle }) ∧
  (∀ (p : PortId) (b : Nat) (s : State), (s.port p.val).retrainAt = some b → (s.port p.val).state ≠ 2 → b + 10000000 < s.beat
    →
    ∃ t, exec (.portDown p) s = .next t ∧
      t = (heldPackets (s.port p.val)).foldl (fun v k => packetLost (rimSite (portDir p.val)) k.pkt (k.ring.elim v (fun key
        => ringFree key (ringUnits k.pkt) v))) (dropPort p.val 0 s)) ∧
  (∀ (p : PortId) (s : State), (s.port p.val).state = 2 ∨ (∀ b ∈ (s.port p.val).retrainAt, s.beat ≤ b + 10000000) →
    ∃ t, exec (.portDown p) s = .next t ∧
      t = s) ∧
  (∀ (s : State), s.fabric.rateBeat + 4000 ≤ s.beat →
    ∃ t, exec (.rateIncreaseTick) s = .next t ∧
      t = drainPaced (s.fabric.paced.length + 1)
        { s with fabric := { s.fabric with rateBeat := s.beat, rates := s.fabric.rates.map (fun e => if e.lastMark + 4000 ≤ s.beat then { refill s.beat e with rate := min 256 (e.rate + s.obj Obj.ccIncreaseStep) } else refill s.beat e) } }) ∧
  (∀ (s : State), s.fabric.rateBeat + 4000 ≤ s.beat → s.fabric.paced = [] →
    ∃ t, exec (.rateIncreaseTick) s = .next t ∧
      t = { s with fabric := { s.fabric with rateBeat := s.beat, rates := s.fabric.rates.map (fun e => if e.lastMark + 4000 ≤ s.beat then { refill s.beat e with rate := min 256 (e.rate + s.obj Obj.ccIncreaseStep) } else refill s.beat e) } }) ∧
  (∀ (s : State), s.beat < s.fabric.rateBeat + 4000 →
    ∃ t, exec (.rateIncreaseTick) s = .next t ∧
      t = s)

/-- ROUTE_ACTIVATION at B_A makes the inactive bank active where route_activate_digest names it, and starts the drain with
  the lowest member that may as coordinator. DRAIN_ROUND, from 20 µs after B_A and every 20 µs, opens the coordinator's
  next round with its own report and a query to every other member. A ROUTE_QUERY names its sender coordinator and is
  answered with this module's counts; a ROUTE_REPORT of the round is kept and judged; ROUTE_RELEASE ends the drain with
  the old bank invalid and is acknowledged; a packet that fails the checks is discarded and counted. A member silent for
  10 ms is excluded, a coordinator lost for 10 ms followed by the next member, and a member not activated in 100 ms
  logged. Otherwise these change nothing. -/
def Obligations.RouteChange : Prop :=
  (∀ (b : Nat) (u : State) (s : State), s.fabric.activate = some b → b ≤ s.beat ∧ s.fabric.bankValid.getD (1 -
    s.fabric.epoch) false = true ∧ s.obj Obj.routeActivateDigest = (inactiveDigest s).toNat → u =
    { s with fabric := { s.fabric with epoch := 1 - s.fabric.epoch, drain := true, activate := none, began := b, round := 0, reports := [], excluded := [], zeroBeat := none, queried := s.beat, activated := [s.fabric.node], missed := [] } }
    →
    ∃ t, exec (.routeActivation) s = .next t ∧
      t = { u with fabric := { u.fabric with heard := (activeMembers u).map (fun m => (m, s.beat)), coord := BitVec.ofNat 16 (coordinatorFrom u 0) } }) ∧
  (∀ (s : State), ∀ b ∈ s.fabric.activate, ¬(b ≤ s.beat ∧ s.fabric.bankValid.getD (1 - s.fabric.epoch) false = true ∧ s.obj
    Obj.routeActivateDigest = (inactiveDigest s).toNat) →
    ∃ t, exec (.routeActivation) s = .next t ∧
      t = s) ∧
  (∀ (round : Nat) (u v : State) (s : State), s.fabric.drain = true ∧ s.fabric.coord = s.fabric.node ∧ s.fabric.began + 20000
    ≤ s.beat ∧ (s.fabric.round = 0 ∨ s.fabric.roundBeat + 20000 ≤ s.beat) → round = (s.fabric.round + 1) % 65536 → u =
    { s with fabric := { s.fabric with round, roundBeat := s.beat, queried := s.beat, reports := [(s.fabric.node, ownReport s (1 - s.fabric.epoch))] } }
    → v = ((activeMembers u).filter (fun m => m != s.fabric.node.toNat && !s.fabric.excluded.contains (BitVec.ofNat 16
    m))).foldl (fun x m => routeControl fQUERY m round x) u →
    ∃ t, exec (.drainRound) s = .next t ∧
      t = judgeDrain v) ∧
  (∀ (s : State), ¬(s.fabric.drain = true ∧ s.fabric.coord = s.fabric.node ∧ s.fabric.began + 20000 ≤ s.beat ∧
    (s.fabric.round = 0 ∨ s.fabric.roundBeat + 20000 ≤ s.beat)) →
    ∃ t, exec (.drainRound) s = .next t ∧
      t = s) ∧
  (∀ (op : Nat) (k : Packet) (s : State), pkOp k.hdr ≠ op → arriveHere op k s = (false, s)) ∧
  (∀ (k : Packet) (s : State), headerGood s k.hdr = false → arriveHere (pkOp k.hdr) k s = (false, s.count
    Obj.fabricHeaderDiscards 1)) ∧
  (∀ (k : Packet) (s : State), headerGood s k.hdr = true → arriveHere (pkOp k.hdr) k s = (true, noteNode k.hdr (checkSeq
    k.hdr s))) ∧
  (∀ (p : PortId) (pkt : Packet) (u : State) (s : State), arriveHere fQUERY pkt s = (false, u) →
    ∃ t, exec (.routeQuery p pkt) s = .next t ∧
      t = u) ∧
  (∀ (p : PortId) (pkt : Packet) (u v : State) (r : Nat × Nat × Nat) (s : State), arriveHere fQUERY pkt s = (true, u) → v =
    { u with fabric := { u.fabric with queried := u.beat, coord := BitVec.ofNat 16 (pkSrc pkt.hdr) } } → r = ownReport v (1 -
    pkEpoch pkt.hdr) →
    ∃ t, exec (.routeQuery p pkt) s = .next t ∧
      t = replyTo (rimSite (portDir p.val)) fREPORT 0 32 0 (pkSpecB pkt.hdr) (fitBytes 32 (leBytes 4 r.1 ++ leBytes 8 r.2.1
        ++ leBytes 8 r.2.2)) pkt.hdr v ∧ t.fabric.queried = s.beat ∧ t.fabric.coord = BitVec.ofNat 16 (pkSrc pkt.hdr)) ∧
  (∀ (pkt : Packet) (u : State) (s : State), arriveHere fREPORT pkt s = (false, u) →
    ∃ t, exec (.routeReport pkt) s = .next t ∧
      t = u) ∧
  (∀ (pkt : Packet) (u v : State) (s : State), arriveHere fREPORT pkt s = (true, u) → v = drainUntagged
    u.fabric.untagged.length { u with rmem := { u.rmem with tracks := u.rmem.tracks.filter (fun x => !(x.tag == BitVec.ofNat 16 (pkTag pkt.hdr) && x.queue == noQueue)) } }
    → ¬(v.fabric.drain = true ∧ v.fabric.coord = v.fabric.node ∧ pkSpecB pkt.hdr = v.fabric.round) →
    ∃ t, exec (.routeReport pkt) s = .next t ∧
      t = v) ∧
  (∀ (pkt : Packet) (u v : State) (s : State), arriveHere fREPORT pkt s = (true, u) → v = drainUntagged
    u.fabric.untagged.length { u with rmem := { u.rmem with tracks := u.rmem.tracks.filter (fun x => !(x.tag == BitVec.ofNat 16 (pkTag pkt.hdr) && x.queue == noQueue)) } }
    → v.fabric.drain = true ∧ v.fabric.coord = v.fabric.node ∧ pkSpecB pkt.hdr = v.fabric.round →
    ∃ t, exec (.routeReport pkt) s = .next t ∧
      t = judgeDrain { v with fabric := { v.fabric with heard := tset (BitVec.ofNat 16 (pkSrc pkt.hdr)).toNat v.beat v.fabric.heard, reports := v.fabric.reports.filter (fun r => r.1 != BitVec.ofNat 16 (pkSrc pkt.hdr)) ++ [(BitVec.ofNat 16 (pkSrc pkt.hdr), leAt pkt.payload 0 4, leAt pkt.payload 4 8, leAt pkt.payload 12 8)] } }) ∧
  (∀ (p : PortId) (pkt : Packet) (u : State) (s : State), arriveHere fRELEASE pkt s = (false, u) →
    ∃ t, exec (.routeRelease p pkt) s = .next t ∧
      t = u) ∧
  (∀ (p : PortId) (pkt : Packet) (u : State) (s : State), arriveHere fRELEASE pkt s = (true, u) →
    ∃ t, exec (.routeRelease p pkt) s = .next t ∧
      t = replyTo (rimSite (portDir p.val)) fACK 0 1 0 0 [] pkt.hdr (releaseBank u)) ∧
  (∀ s : State, s.fabric.drain = true → releaseBank s =
    ({ s with fabric := { s.fabric with bankValid := lset (1 - s.fabric.epoch) false s.fabric.bankValid, drain := false, coord := 0xFFFF, excluded := [], zeroBeat := none } }
    : State).count Obj.epochChanges 1) ∧
  (∀ (node : W16) (s : State), s.fabric.drain = true ∧ s.fabric.coord = s.fabric.node ∧ node ≠ s.fabric.node ∧ (activeMembers
    s).contains node.toNat = true ∧ s.fabric.excluded.contains node = false ∧ tget 0 node.toNat s.fabric.heard + 10000000 ≤
    s.beat →
    ∃ t, exec (.silentMemberExpiry node) s = .next t ∧
      t = judgeDrain { s with fabric := { s.fabric with excluded := s.fabric.excluded ++ [node] } }) ∧
  (∀ (node : W16) (s : State), ¬(s.fabric.drain = true ∧ s.fabric.coord = s.fabric.node ∧ node ≠ s.fabric.node ∧
    (activeMembers s).contains node.toNat = true ∧ s.fabric.excluded.contains node = false ∧ tget 0 node.toNat s.fabric.heard
    + 10000000 ≤ s.beat) →
    ∃ t, exec (.silentMemberExpiry node) s = .next t ∧
      t = s) ∧
  (∀ (s : State), s.fabric.drain = true ∧ s.fabric.coord ≠ s.fabric.node ∧ s.fabric.coord ≠ 0xFFFF ∧ s.fabric.queried +
    10000000 ≤ s.beat →
    ∃ t, exec (.coordinatorTakeover) s = .next t ∧
      t = { s with fabric := { s.fabric with coord := BitVec.ofNat 16 (coordinatorFrom s (s.fabric.coord.toNat + 1)), queried := s.beat, excluded := s.fabric.excluded ++ [s.fabric.coord], zeroBeat := none, heard := (activeMembers s).map (fun m => (m, s.beat)) } }) ∧
  (∀ (s : State), ¬(s.fabric.drain = true ∧ s.fabric.coord ≠ s.fabric.node ∧ s.fabric.coord ≠ 0xFFFF ∧ s.fabric.queried +
    10000000 ≤ s.beat) →
    ∃ t, exec (.coordinatorTakeover) s = .next t ∧
      t = s) ∧
  (∀ (node : W16) (s : State), s.fabric.drain = true ∧ s.fabric.coord = s.fabric.node ∧ (activeMembers s).contains node.toNat
    = true ∧ s.fabric.activated.contains node = false ∧ s.fabric.missed.contains node = false ∧ s.fabric.began + 100000000 ≤
    s.beat →
    ∃ t, exec (.activationMissed node) s = .next t ∧
      t.fabric = { s.fabric with missed := s.fabric.missed ++ [node] } ∧ Untouched logCounters s t ∧ Logged
        Obj.routeDrainPending 0 0 0xFF 0 (leBytes 2 node.toNat) s t ∧
      t = { s with od := t.od, fabric := t.fabric, beagle := t.beagle, log := t.log }) ∧
  (∀ (node : W16) (s : State), ¬(s.fabric.drain = true ∧ s.fabric.coord = s.fabric.node ∧ (activeMembers s).contains
    node.toNat = true ∧ s.fabric.activated.contains node = false ∧ s.fabric.missed.contains node = false ∧ s.fabric.began +
    100000000 ≤ s.beat) →
    ∃ t, exec (.activationMissed node) s = .next t ∧
      t = s) ∧
  (∀ s : State, s.fabric.drain = true → s.fabric.coord = s.fabric.node → s.fabric.excluded = [] → (∀ m ∈ activeMembers s, ∃ r
    ∈ s.fabric.reports, r.1.toNat = m ∧ r.2.1 = 0) → (∀ r ∈ s.fabric.reports, r.2.1 = 0 ∧ r.2.2.1 = r.2.2.2) → judgeDrain s =
    drainDone s)

/-- A LOAD or GET for this module that the window table admits begins an access at its rim die, which reads it with
  READ_REQs as reply tags allow; one that it refuses is answered with the status and code of the check. A packet that
  fails the checks of a header is discarded and counted. The check is that of R228: no matching entry 0x1205, no read
  permission 0x1104, no write permission on a readable window 0x1103. When the data of a read have landed a LOAD is
  answered with one LOAD_DATA and a GET with GET_DATA of up to 1,024 bytes each, and the access goes on or is over; what
  ended with a failure is answered with it, and a write with its ACK. -/
def Obligations.TargetReads : Prop :=
  (∀ (p : PortId) (pkt : Packet) (u : State) (s : State), arriveHere fLOAD pkt s = (false, u) →
    ∃ t, exec (.load p pkt) s = .next t ∧
      t = u) ∧
  (∀ (p : PortId) (pkt : Packet) (u : State) (site addr : Nat) (v : State) (s : State), arriveHere fLOAD pkt s = (true, u) →
    isFar pkt.hdr = false → windowCheck u (portDir p.val) pkt.hdr (pkLength pkt.hdr) .read = .ok (site, addr) → v = (addOp
    (portDir p.val) pkt.hdr site addr true (pkLength pkt.hdr) u).2 →
    ∃ t, exec (.load p pkt) s = .next t ∧
      t = settleOps (opFuel v) v ∧ t.mem = s.mem) ∧
  (∀ (p : PortId) (pkt : Packet) (u : State) (x : Nat × Nat) (s : State), arriveHere fLOAD pkt s = (true, u) → isFar pkt.hdr
    = false → windowCheck u (portDir p.val) pkt.hdr (pkLength pkt.hdr) .read = .error x →
    ∃ t, exec (.load p pkt) s = .next t ∧
      t = refuseAccess (portDir p.val) pkt.hdr x u ∧ t.mem = s.mem) ∧
  (∀ (p : PortId) (pkt : Packet) (u : State) (s : State), arriveHere fGET pkt s = (false, u) →
    ∃ t, exec (.get p pkt) s = .next t ∧
      t = u) ∧
  (∀ (p : PortId) (pkt : Packet) (u : State) (site addr : Nat) (v : State) (s : State), arriveHere fGET pkt s = (true, u) →
    isFar pkt.hdr = false → windowCheck u (portDir p.val) pkt.hdr (pkLength pkt.hdr) .read = .ok (site, addr) → v = (addOp
    (portDir p.val) pkt.hdr site addr true (pkLength pkt.hdr) u).2 →
    ∃ t, exec (.get p pkt) s = .next t ∧
      t = settleOps (opFuel v) v ∧ t.mem = s.mem) ∧
  (∀ (p : PortId) (pkt : Packet) (u : State) (x : Nat × Nat) (s : State), arriveHere fGET pkt s = (true, u) → isFar pkt.hdr =
    false → windowCheck u (portDir p.val) pkt.hdr (pkLength pkt.hdr) .read = .error x →
    ∃ t, exec (.get p pkt) s = .next t ∧
      t = refuseAccess (portDir p.val) pkt.hdr x u ∧ t.mem = s.mem) ∧
  (∀ (s : State) (rim n : Nat) (h : BitVec 256) (need : Need), winFind s (pkJob h) (pkOffset h) n = none → windowCheck s rim
    h n need = .error (3, 0x1205)) ∧
  (∀ (s : State) (rim n : Nat) (h : BitVec 256) (e : BitVec 256), winFind s (pkJob h) (pkOffset h) n = some e → (winPerm
    e).testBit 1 = false →
    windowCheck s rim h n .read = .error (3, 0x1104)) ∧
  (∀ (s : State) (rim n : Nat) (h : BitVec 256) (need : Need) (e : BitVec 256), winFind s (pkJob h) (pkOffset h) n = some e →
    need ≠ .read → (winPerm e).testBit need.bit = false →
    (winPerm e).testBit 1 = true → windowCheck s rim h n need = .error (3, 0x1103)) ∧
  (∀ (n tag : Nat) (x : RimOp) (s u v : State), s.rmem.ops.find? (fun y => y.n == n) = some x → pkOp x.hdr = fLOAD →
    u = replyTo (rimSite x.rim) fLOADDATA (pkOffset x.hdr) (min x.left 4096) 0 0 (s.load (memKey (rimSite x.rim) (opLanding
      tag)) (min x.left 4096)) x.hdr s →
    v = (modOp n (fun y => { y with left := y.left - min x.left 4096, got := y.got + min x.left 4096, doneAt := if y.left ≤ min x.left 4096 then some u.beat else y.doneAt })
      u) → opLanded n tag s = settleOps (opFuel v) v) ∧
  (∀ (n tag : Nat) (x : RimOp) (s u v : State), s.rmem.ops.find? (fun y => y.n == n) = some x → pkOp x.hdr ≠ fLOAD → x.left ≤
    1024 → 0 < x.left →
    u = replyTo (rimSite x.rim) fGETDATA x.got x.left 0 0 (s.load (memKey (rimSite x.rim) (opLanding tag)) x.left) x.hdr s →
    v = (modOp n (fun y => { y with left := y.left - min x.left 4096, got := y.got + min x.left 4096, doneAt := if y.left ≤ min x.left 4096 then some u.beat else y.doneAt })
      u) → opLanded n tag s = settleOps (opFuel v) v) ∧
  (∀ (x : RimOp) (s u : State), u = { s with rmem := { s.rmem with ops := s.rmem.ops.filter (fun y => y.n != x.n) } } →
    endOp x s = x.failed.elim (if x.read then u else replyTo (rimSite x.rim) fACK (pkOffset x.hdr) 1 0 0 [] x.hdr u) (fun f
      => refuseAccess x.rim x.hdr f u))

/-- An admitted STORE, PUT or MCAST_PUT begins an access whose bytes go to the window target in WRITE frames, and whose ACK
  waits for them; a MCAST_PUT then goes on in its direction with span reduced by 1, unless this is its last receiver. An
  admitted ATOMIC, FLAG or BARRIER acts there at once (log entry 92): the word takes its new value, the unsigned maximum
  for a FLAG and plus one modulo 2^32 for a BARRIER, and is answered with the old value (0 for an add without return) or
  an ACK; where the target is no DRAM those bytes read back and every other byte is as before. One that the window table
  refuses is answered with the status and code of the check, an ATOMIC pair or length that R226 does not allow with
  0x1204; a far ATOMIC, FLAG or BARRIER with 0x1503 at a gateway. A packet that fails the checks of a header is
  discarded and counted. -/
def Obligations.TargetWrites : Prop :=
  (∀ (p : PortId) (pkt : Packet) (u : State) (s : State), arriveHere fSTORE pkt s = (false, u) →
    ∃ t, exec (.store p pkt) s = .next t ∧
      t = u) ∧
  (∀ (p : PortId) (pkt : Packet) (u : State) (site addr : Nat) (w : Nat × State) (v : State) (s : State), arriveHere fSTORE
    pkt s = (true, u) → isFar pkt.hdr = false → windowCheck u (portDir p.val) pkt.hdr (pkLength pkt.hdr) .write = .ok (site,
    addr) → w = addOp (portDir p.val) pkt.hdr site addr false (writeFrames addr (pkLength pkt.hdr)) u → v = sendWrite
    ((pkLength pkt.hdr) + 1) (rimSite (portDir p.val)) site addr (fitBytes (pkLength pkt.hdr) pkt.payload) none (some
    (rimChan, w.1)) w.2 →
    ∃ t, exec (.store p pkt) s = .next t ∧
      t = settleOps (opFuel v) v) ∧
  (∀ (p : PortId) (pkt : Packet) (u : State) (x : Nat × Nat) (s : State), arriveHere fSTORE pkt s = (true, u) → isFar pkt.hdr
    = false → windowCheck u (portDir p.val) pkt.hdr (pkLength pkt.hdr) .write = .error x →
    ∃ t, exec (.store p pkt) s = .next t ∧
      t = refuseAccess (portDir p.val) pkt.hdr x u ∧ t.mem = s.mem) ∧
  (∀ (p : PortId) (pkt : Packet) (u : State) (s : State), arriveHere fPUT pkt s = (false, u) →
    ∃ t, exec (.put p pkt) s = .next t ∧
      t = u) ∧
  (∀ (p : PortId) (pkt : Packet) (u : State) (site addr : Nat) (w : Nat × State) (v : State) (s : State), arriveHere fPUT pkt
    s = (true, u) → isFar pkt.hdr = false → windowCheck u (portDir p.val) pkt.hdr (pkLength pkt.hdr) .write = .ok (site,
    addr) → w = addOp (portDir p.val) pkt.hdr site addr false (writeFrames addr (pkLength pkt.hdr)) u → v = sendWrite
    ((pkLength pkt.hdr) + 1) (rimSite (portDir p.val)) site addr (fitBytes (pkLength pkt.hdr) pkt.payload) none (some
    (rimChan, w.1)) w.2 →
    ∃ t, exec (.put p pkt) s = .next t ∧
      t = settleOps (opFuel v) v) ∧
  (∀ (p : PortId) (pkt : Packet) (u : State) (x : Nat × Nat) (s : State), arriveHere fPUT pkt s = (true, u) → isFar pkt.hdr =
    false → windowCheck u (portDir p.val) pkt.hdr (pkLength pkt.hdr) .write = .error x →
    ∃ t, exec (.put p pkt) s = .next t ∧
      t = refuseAccess (portDir p.val) pkt.hdr x u ∧ t.mem = s.mem) ∧
  (∀ (rim : Nat) (pkt : Packet) (site addr : Nat) (u v : State) (w : Nat × State), windowCheck u rim pkt.hdr (pkLength
    pkt.hdr) .write = .ok (site, addr) →
    w = addOp rim pkt.hdr site addr false (writeFrames addr (pkLength pkt.hdr)) u →
    v = sendWrite ((pkLength pkt.hdr) + 1) (rimSite rim) site addr (fitBytes (pkLength pkt.hdr) pkt.payload) none (some
      (rimChan, w.1)) w.2 → localWrite rim pkt u = settleOps (opFuel v) v) ∧
  (∀ (rim : Nat) (pkt : Packet) (x : Nat × Nat) (u : State), windowCheck u rim pkt.hdr (pkLength pkt.hdr) .write = .error x →
    localWrite rim pkt u = refuseAccess rim pkt.hdr x u) ∧
  (∀ (p : PortId) (pkt : Packet) (s : State), pkOp pkt.hdr ≠ fMCAST ∨ takeIn p.val pkt s = none →
    ∃ t, exec (.mcastPut p pkt) s = .next t ∧
      t = s) ∧
  (∀ (p : PortId) (pkt : Packet) (u : State) (s : State), pkOp pkt.hdr = fMCAST → takeIn p.val pkt s = some u → headerGood u
    pkt.hdr = false →
    ∃ t, exec (.mcastPut p pkt) s = .next t ∧
      t = (countEnd pkt.hdr u).count Obj.fabricHeaderDiscards 1) ∧
  (∀ (p : PortId) (pkt : Packet) (u : State) (v : State) (s : State), pkOp pkt.hdr = fMCAST → takeIn p.val pkt s = some u →
    headerGood u pkt.hdr = true → v = localWrite (portDir p.val) pkt (countEnd pkt.hdr (noteNode pkt.hdr (checkSeq pkt.hdr
    u))) → bitsAt (pkSpecA pkt.hdr) 0 4 ≤ 1 ∨ pkDest pkt.hdr = v.fabric.node.toNat →
    ∃ t, exec (.mcastPut p pkt) s = .next t ∧
      t = v) ∧
  (∀ (p : PortId) (pkt : Packet) (u : State) (v : State) (on : BitVec 256) (s : State), pkOp pkt.hdr = fMCAST → takeIn p.val
    pkt s = some u → headerGood u pkt.hdr = true → v = localWrite (portDir p.val) pkt (countEnd pkt.hdr (noteNode pkt.hdr
    (checkSeq pkt.hdr u))) → ¬(bitsAt (pkSpecA pkt.hdr) 0 4 ≤ 1 ∨ pkDest pkt.hdr = v.fabric.node.toNat) → on = sealHeader
    (putField pkt.hdr 168 4 (bitsAt (pkSpecA pkt.hdr) 0 4 - 1)) →
    ∃ t, exec (.mcastPut p pkt) s = .next t ∧
      t = followWay (rimSite (portDir p.val)) (some (portDir p.val)) { pkt with hdr := on } (portPick v on (mcastDir on) 0xF)
        (countStart (pkEpoch on) v)) ∧
  (∀ (p : PortId) (pkt : Packet) (u : State) (s : State), arriveHere fATOMIC pkt s = (false, u) →
    ∃ t, exec (.atomic p pkt) s = .next t ∧
      t = u) ∧
  (∀ (p : PortId) (pkt : Packet) (u : State) (s : State), arriveHere fATOMIC pkt s = (true, u) → isFar pkt.hdr = true →
    ∃ t, exec (.atomic p pkt) s = .next t ∧
      t = refuseFar (portDir p.val) 0x1503 pkt.hdr u ∧ t.mem = s.mem) ∧
  (∀ (p : PortId) (pkt : Packet) (u : State) (x : Nat × Nat) (s : State), arriveHere fATOMIC pkt s = (true, u) → isFar
    pkt.hdr = false → windowCheck u (portDir p.val) pkt.hdr (pkLength pkt.hdr) .atomic = .error x →
    ∃ t, exec (.atomic p pkt) s = .next t ∧
      t = refuseAccess (portDir p.val) pkt.hdr x (if x.1 = 2 then noteBad pkt.hdr (pkLength pkt.hdr) u else u) ∧ t.mem =
        s.mem) ∧
  (∀ (p : PortId) (pkt : Packet) (u : State) (s : State), arriveHere fFLAG pkt s = (false, u) →
    ∃ t, exec (.fabricFlag p pkt) s = .next t ∧
      t = u) ∧
  (∀ (p : PortId) (pkt : Packet) (u : State) (s : State), arriveHere fFLAG pkt s = (true, u) → isFar pkt.hdr = true →
    ∃ t, exec (.fabricFlag p pkt) s = .next t ∧
      t = refuseFar (portDir p.val) 0x1503 pkt.hdr u ∧ t.mem = s.mem) ∧
  (∀ (p : PortId) (pkt : Packet) (u : State) (x : Nat × Nat) (s : State), arriveHere fFLAG pkt s = (true, u) → isFar pkt.hdr
    = false → windowCheck u (portDir p.val) pkt.hdr 8 .flag = .error x →
    ∃ t, exec (.fabricFlag p pkt) s = .next t ∧
      t = refuseAccess (portDir p.val) pkt.hdr x (if x.1 = 2 then noteBad pkt.hdr 8 u else u) ∧ t.mem = s.mem) ∧
  (∀ (p : PortId) (pkt : Packet) (u : State) (s : State), arriveHere fBARRIER pkt s = (false, u) →
    ∃ t, exec (.fabricBarrier p pkt) s = .next t ∧
      t = u) ∧
  (∀ (p : PortId) (pkt : Packet) (u : State) (s : State), arriveHere fBARRIER pkt s = (true, u) → isFar pkt.hdr = true →
    ∃ t, exec (.fabricBarrier p pkt) s = .next t ∧
      t = refuseFar (portDir p.val) 0x1503 pkt.hdr u ∧ t.mem = s.mem) ∧
  (∀ (p : PortId) (pkt : Packet) (u : State) (x : Nat × Nat) (s : State), arriveHere fBARRIER pkt s = (true, u) → isFar
    pkt.hdr = false → windowCheck u (portDir p.val) pkt.hdr 4 .flag = .error x →
    ∃ t, exec (.fabricBarrier p pkt) s = .next t ∧
      t = refuseAccess (portDir p.val) pkt.hdr x (if x.1 = 2 then noteBad pkt.hdr 4 u else u) ∧ t.mem = s.mem) ∧
  (∀ (p : PortId) (pkt : Packet) (u : State) (site addr : Nat) (s : State), arriveHere fATOMIC pkt s = (true, u) → isFar
    pkt.hdr = false → windowCheck u (portDir p.val) pkt.hdr (pkLength pkt.hdr) .atomic = .ok (site, addr) → ¬(atomicPair
    (bitsAt (pkSpecA pkt.hdr) 0 4) (bitsAt (pkSpecA pkt.hdr) 4 4) = true ∧ pkLength pkt.hdr = atomicWidth (bitsAt (pkSpecA
    pkt.hdr) 4 4)) →
    ∃ t, exec (.atomic p pkt) s = .next t ∧
      t = refuseAccess (portDir p.val) pkt.hdr (3, 0x1204) u ∧ t.mem = s.mem) ∧
  (∀ (p : PortId) (pkt : Packet) (u : State) (site addr old : Nat) (s : State), arriveHere fATOMIC pkt s = (true, u) → isFar
    pkt.hdr = false → windowCheck u (portDir p.val) pkt.hdr (pkLength pkt.hdr) .atomic = .ok (site, addr) → atomicPair
    (bitsAt (pkSpecA pkt.hdr) 0 4) (bitsAt (pkSpecA pkt.hdr) 4 4) = true ∧ pkLength pkt.hdr = atomicWidth (bitsAt (pkSpecA
    pkt.hdr) 4 4) → old = (leNat (siteRead u site addr (pkLength pkt.hdr))) →
    ∃ t, exec (.atomic p pkt) s = .next t ∧
      t = replyTo (rimSite (portDir p.val)) fATOMICDATA (pkOffset pkt.hdr) 32 0 0 (fitBytes 32 (leBytes 8 (if (bitsAt
        (pkSpecA pkt.hdr) 0 4) = 1 then 0 else old))) pkt.hdr
        (siteWrite site addr (leBytes (pkLength pkt.hdr) (atomicNew (bitsAt (pkSpecA pkt.hdr) 0 4) (bitsAt (pkSpecA pkt.hdr)
          4 4) old (leAt pkt.payload 0 8) (leAt pkt.payload 8 8)))
          ((siteTouch site addr (pkLength pkt.hdr) u).count Obj.rmemAtomics 1))) ∧
  (∀ (p : PortId) (pkt : Packet) (u : State) (site addr old : Nat) (s : State), arriveHere fATOMIC pkt s = (true, u) → isFar
    pkt.hdr = false → windowCheck u (portDir p.val) pkt.hdr (pkLength pkt.hdr) .atomic = .ok (site, addr) → atomicPair
    (bitsAt (pkSpecA pkt.hdr) 0 4) (bitsAt (pkSpecA pkt.hdr) 4 4) = true ∧ pkLength pkt.hdr = atomicWidth (bitsAt (pkSpecA
    pkt.hdr) 4 4) → old = (leNat (siteRead u site addr (pkLength pkt.hdr))) → addr < dramHomeBase →
    ∃ t, exec (.atomic p pkt) s = .next t ∧
      Stored (memKey site addr) (leBytes (pkLength pkt.hdr) (atomicNew (bitsAt (pkSpecA pkt.hdr) 0 4) (bitsAt (pkSpecA
        pkt.hdr) 4 4) old (leAt pkt.payload 0 8) (leAt pkt.payload 8 8))) s t) ∧
  (∀ (p : PortId) (pkt : Packet) (u : State) (site addr : Nat) (s : State), arriveHere fFLAG pkt s = (true, u) → isFar
    pkt.hdr = false → windowCheck u (portDir p.val) pkt.hdr 8 .flag = .ok (site, addr) →
    ∃ t, exec (.fabricFlag p pkt) s = .next t ∧
      t = replyTo (rimSite (portDir p.val)) fACK (pkOffset pkt.hdr) 1 0 0 [] pkt.hdr (siteWrite site addr (leBytes 8 (max
        (leNat (siteRead u site addr 8)) (leAt pkt.payload 0 8))) (siteTouch site addr 8 u))) ∧
  (∀ (p : PortId) (pkt : Packet) (u : State) (site addr : Nat) (s : State), arriveHere fFLAG pkt s = (true, u) → isFar
    pkt.hdr = false → windowCheck u (portDir p.val) pkt.hdr 8 .flag = .ok (site, addr) → addr < dramHomeBase →
    ∃ t, exec (.fabricFlag p pkt) s = .next t ∧
      Stored (memKey site addr) (leBytes 8 (max (leNat (siteRead u site addr 8)) (leAt pkt.payload 0 8))) s t) ∧
  (∀ (p : PortId) (pkt : Packet) (u : State) (site addr : Nat) (s : State), arriveHere fBARRIER pkt s = (true, u) → isFar
    pkt.hdr = false → windowCheck u (portDir p.val) pkt.hdr 4 .flag = .ok (site, addr) →
    ∃ t, exec (.fabricBarrier p pkt) s = .next t ∧
      t = replyTo (rimSite (portDir p.val)) fACK (pkOffset pkt.hdr) 1 0 0 [] pkt.hdr (siteWrite site addr (leBytes 4 (((leNat
        (siteRead u site addr 4)) + 1) % 2 ^ 32)) (siteTouch site addr 4 u))) ∧
  (∀ (p : PortId) (pkt : Packet) (u : State) (site addr : Nat) (s : State), arriveHere fBARRIER pkt s = (true, u) → isFar
    pkt.hdr = false → windowCheck u (portDir p.val) pkt.hdr 4 .flag = .ok (site, addr) → addr < dramHomeBase →
    ∃ t, exec (.fabricBarrier p pkt) s = .next t ∧
      Stored (memKey site addr) (leBytes 4 (((leNat (siteRead u site addr 4)) + 1) % 2 ^ 32)) s t)

/-- COMMAND_RECORD puts a record at its queue's end, and the engine takes heads, round-robin over the queues, until every
  head must wait: behind a fence with earlier records of its queue out, without a free tag and entry, or for its rate. A
  head that fails a check of R224 completes with status 0x07 and the code of the first that fails; one for a node marked
  unreachable with status 0x01; another is tracked under a free tag with the replies it waits for, and its packets go.
  RMEM_TIMEOUT of an operation out for too long ends it with status 0x06, marks the node and puts its tag in quarantine;
  the two expiries clear what is due; WINDOW_TABLE_EFFECT puts the staged table in force at its time; SEND_WINDOW_FLUSH
  sends the window's packets that nothing joined for 16 frame times. Otherwise these change nothing. -/
def Obligations.CommandRecords : Prop :=
  (∀ (queue : Fin 64) (r : BitVec 512) (u : State) (s : State), u =
    { s with rmem := { s.rmem with waiting := tset queue.val (tget [] queue.val s.rmem.waiting ++ [r]) s.rmem.waiting } } →
    ∃ t, exec (.commandRecord queue r) s = .next t ∧
      t = takeRecords (waitingRecords u) u) ∧
  (∀ (q : Nat) (r : BitVec 512) (rest : List (BitVec 512)) (s u : State), tget [] q s.rmem.waiting = r :: rest → u =
    { s with rmem := { s.rmem with waiting := tset q rest s.rmem.waiting, lastQueue := q } } →
    headReady s q r = false → 
    takeRecord q s = none) ∧
  (∀ (q : Nat) (r : BitVec 512) (rest : List (BitVec 512)) (s u : State), tget [] q s.rmem.waiting = r :: rest → u =
    { s with rmem := { s.rmem with waiting := tset q rest s.rmem.waiting, lastQueue := q } } →
    headReady s q r = true → recordError s r ≠ 0 → crOp r = fATOMIC → 
    takeRecord q s = some ((putCompletion q r 0x07 3 (recordError s r) (2 ^ 64 - 1) u).count Obj.rmemPoisoned 1)) ∧
  (∀ (q : Nat) (r : BitVec 512) (rest : List (BitVec 512)) (s u : State), tget [] q s.rmem.waiting = r :: rest → u =
    { s with rmem := { s.rmem with waiting := tset q rest s.rmem.waiting, lastQueue := q } } →
    headReady s q r = true → recordError s r ≠ 0 → crOp r ≠ fATOMIC → 
    takeRecord q s = some (putCompletion q r 0x07 1 (recordError s r) 0 u)) ∧
  (∀ (q : Nat) (r : BitVec 512) (rest : List (BitVec 512)) (s u : State), tget [] q s.rmem.waiting = r :: rest → u =
    { s with rmem := { s.rmem with waiting := tset q rest s.rmem.waiting, lastQueue := q } } →
    headReady s q r = true → recordError s r = 0 → isUnreachable s (crDest r) = true → 
    takeRecord q s = some (endRecord q r 0x01 0 0 (u.count Obj.rmemFastFails 1))) ∧
  (∀ (q : Nat) (r : BitVec 512) (rest : List (BitVec 512)) (s u : State), tget [] q s.rmem.waiting = r :: rest → u =
    { s with rmem := { s.rmem with waiting := tset q rest s.rmem.waiting, lastQueue := q } } →
    headReady s q r = true → recordError s r = 0 → isUnreachable s (crDest r) = false → trackFree s = false ∨ rateAllows
      (BitVec.ofNat 16 (if crFar r then (gatewayNode s (nodePod (crDest r))).getD 0 else crDest r)) s = false → 
    takeRecord q s = none) ∧
  (∀ (q : Nat) (r : BitVec 512) (rest : List (BitVec 512)) (s u : State) (w : W16 × State) (v : State), tget [] q
    s.rmem.waiting = r :: rest → u = { s with rmem := { s.rmem with waiting := tset q rest s.rmem.waiting, lastQueue := q } }
    →
    headReady s q r = true → recordError s r = 0 → isUnreachable s (crDest r) = false → trackFree s = true → rateAllows
      (BitVec.ofNat 16 (if crFar r then (gatewayNode s (nodePod (crDest r))).getD 0 else crDest r)) s = true → w = takeTrack
      q r (recordLeft r) (u.count Obj.rmemCommands 1) →
    v = (if crOp r = fSTORE ∨ crOp r = fPUT ∨ crOp r = fMCAST then siteTouch (crSite r) (crLocal r) (crLength r) w.2 else
      w.2) →
    takeRecord q s = some ((recordPackets v (queueJob v q) w.1 r).foldl (fun x y => sendPaced hubSite y.1 y.2 x) v)) ∧
  (∀ (n : Nat) (s : State), (∀ q, q < 64 → takeRecord q s = none) → takeRecords n s = s) ∧
  (∀ (queue : Fin 64) (r : BitVec 512) (s : State), ∀ x ∈ s.rmem.waiting, x.2 = [] → recordError s r = 0 → crFence r = false
    → isUnreachable s (crDest r) = false → trackFree s = true → rateAllows (BitVec.ofNat 16 (if crFar r then (gatewayNode s
    (nodePod (crDest r))).getD 0 else crDest r)) s = true →
    ∃ t, exec (.commandRecord queue r) s = .next t ∧
      (∃ tag, t.rmem.tracks = s.rmem.tracks ++
        [{ tag, queue := queue.val, record := r, began := s.beat, left := recordLeft r }] ∧
        (∀ x ∈ s.rmem.tracks, x.tag ≠ tag) ∧ (∀ x ∈ s.rmem.quarantine, x.1 ≠ tag) ∧ t.rmem.nextTag = tag + 1) ∧ t.rmem.done =
          s.rmem.done ∧ t.rmem.lastQueue = queue.val ∧ t.mem = s.mem) ∧
  (∀ (queue : Fin 64) (r : BitVec 512) (s : State), ∀ x ∈ s.rmem.waiting, x.2 = [] → recordError s r ≠ 0 → crFence r = false
    → crOp r ≠ fATOMIC →
    ∃ t, exec (.commandRecord queue r) s = .next t ∧
      Ended queue.val r 7 (recordError s r) s t ∧ t.rmem.tracks = s.rmem.tracks ∧
      t = { s with rmem := t.rmem }) ∧
  (∀ (queue : Fin 64) (r : BitVec 512) (s : State), ∀ x ∈ s.rmem.waiting, x.2 = [] → recordError s r ≠ 0 → crFence r = false
    → crOp r = fATOMIC →
    ∃ t, exec (.commandRecord queue r) s = .next t ∧
      Ended queue.val r 7 (recordError s r) s t ∧ t.rmem.tracks = s.rmem.tracks ∧ t.obj Obj.rmemPoisoned = (s.obj
        Obj.rmemPoisoned + 1) % 2 ^ objBits Obj.rmemPoisoned ∧ Untouched [Obj.rmemPoisoned] s t ∧
      t = { s with od := t.od, rmem := t.rmem }) ∧
  (∀ (queue : Fin 64) (r : BitVec 512) (s : State), ∀ x ∈ s.rmem.waiting, x.2 = [] → recordError s r = 0 → crFence r = false
    → isUnreachable s (crDest r) = true → crOp r ≠ fLOAD → crOp r ≠ fATOMIC →
    ∃ t, exec (.commandRecord queue r) s = .next t ∧
      Ended queue.val r 1 0 s t ∧ t.rmem.tracks = s.rmem.tracks ∧ t.mem = s.mem ∧ t.obj Obj.rmemFastFails = (s.obj
        Obj.rmemFastFails + 1) % 2 ^ objBits Obj.rmemFastFails) ∧
  (∀ (tag : W16) (s : State), ∀ x ∈ s.rmem.tracks.find? (fun x => x.tag == tag), s.beat < x.began + 1000 * s.obj (if crFar
    x.record then Obj.retrieverTimeoutUs else Obj.rmemTimeoutUs) →
    ∃ t, exec (.rmemTimeout tag) s = .next t ∧
      t = s) ∧
  (∀ (tag : W16) (tr : Track) (u : State) (s : State), s.rmem.tracks.find? (fun x => x.tag == tag) = some tr → tr.began +
    1000 * s.obj (if crFar tr.record then Obj.retrieverTimeoutUs else Obj.rmemTimeoutUs) ≤ s.beat → u = (if tr.queue =
    noQueue then s else markUnreachable (crDest tr.record) (s.count Obj.rmemTimeouts 1)) →
    ∃ t, exec (.rmemTimeout tag) s = .next t ∧
      t = afterReply (endTrack tr 0x06 0 0
        { u with rmem := { u.rmem with quarantine := u.rmem.quarantine ++ [(tag, u.beat + 1000000 * u.obj Obj.rmemTagQuarantineMs)] } })) ∧
  (∀ (tag : W16) (tr : Track) (s : State), s.rmem.tracks.find? (fun x => x.tag == tag) = some tr → tr.began + 1000 * s.obj
    (if crFar tr.record then Obj.retrieverTimeoutUs else Obj.rmemTimeoutUs) ≤ s.beat → tr.queue < 64 → crOp tr.record ≠ fLOAD
    → crOp tr.record ≠ fATOMIC → crOp tr.record ≠ fGET → s.fabric.paced = [] → s.fabric.untagged = [] → ∀ x ∈ s.rmem.waiting,
    x.2 = [] →
    ∃ t, exec (.rmemTimeout tag) s = .next t ∧
      Ended tr.queue tr.record 6 0 s t ∧ t.rmem.tracks = s.rmem.tracks.filter (fun x => x.tag != tag) ∧
      t.rmem.quarantine = s.rmem.quarantine ++ [(tag, s.beat + 1000000 * s.obj Obj.rmemTagQuarantineMs)] ∧
      (BitVec.ofNat 16 (crDest tr.record), s.beat + 1000 * s.obj Obj.rmemUnreachableHoldUs) ∈ t.rmem.unreachable ∧ t.mem =
        s.mem) ∧
  (∀ (node : W16) (u : State) (s : State), u =
    { s with rmem := { s.rmem with unreachable := s.rmem.unreachable.filter (fun x => !(x.1 == node && decide (x.2 ≤ s.beat))) } }
    →
    ∃ t, exec (.unreachableHoldExpiry node) s = .next t ∧
      t = takeRecords (waitingRecords u) u) ∧
  (∀ (node : W16) (u : State) (s : State), u =
    { s with rmem := { s.rmem with unreachable := s.rmem.unreachable.filter (fun x => !(x.1 == node && decide (x.2 ≤ s.beat))) } }
    → ∀ x ∈ s.rmem.waiting, x.2 = [] →
    ∃ t, exec (.unreachableHoldExpiry node) s = .next t ∧
      t = u) ∧
  (∀ (tag : W16) (s : State),
    ∃ t, exec (.tagQuarantineExpiry tag) s = .next t ∧
      t = { s with rmem := { s.rmem with quarantine := s.rmem.quarantine.filter (fun x => !(x.1 == tag && decide (x.2 ≤ s.beat))) } }) ∧
  (∀ (b : Nat) (tb : Tab (BitVec 256)) (s : State), s.rmem.next = some (b, tb) → b ≤ s.beat →
    ∃ t, exec (.windowTableEffect) s = .next t ∧
      t = { s with rmem := { s.rmem with table := tb, next := none } }) ∧
  (∀ (s : State), ∀ x ∈ s.rmem.next, s.beat < x.1 →
    ∃ t, exec (.windowTableEffect) s = .next t ∧
      t = s) ∧
  (∀ (rim : RimId) (win : Nat) (s : State),
    ∃ t, exec (.sendWindowFlush rim win) s = .next t ∧
      t = (s.fabric.packs.filter (fun x => (x.rim == rim.val && x.win == win && packStale s x))).foldl (fun v x => sendPack x
        v)
        { s with fabric := { s.fabric with packs := s.fabric.packs.filter (fun x => !(x.rim == rim.val && x.win == win && packStale s x)) } }) ∧
  (∀ (rim : RimId) (win : Nat) (s : State), ∀ x ∈ s.fabric.packs, (x.rim == rim.val && x.win == win && packStale s x) = false
    →
    ∃ t, exec (.sendWindowFlush rim win) s = .next t ∧
      t = s)

/-- A reply for no operation, or of a kind its operation does not take, only lets what waited go on; one for a quarantined
  tag is counted. LOAD_DATA and GET_DATA put their bytes in the landing space of their operation and the last of them
  ends it; ATOMIC_DATA also returns the old value; the last ACK ends a write and an earlier one counts. STATUS ends a
  read or single packet with its status and code, and counts for one of several packets, of which the first failure in
  offset order is kept; one that is path-lost marks the node unreachable. An operation with no replies left ends in
  success or with that failure. With no packet or record waiting, an operation of a command queue whose data land in
  SRAM ends in its completion record, its track gone. -/
def Obligations.Replies : Prop :=
  (∀ (pkt : Packet) (u : State) (s : State), replyFor fLOADDATA pkt s = (none, u) →
    ∃ t, exec (.loadData pkt) s = .next t ∧
      t = afterReply u) ∧
  (∀ (pkt : Packet) (u : State) (s : State), replyFor fGETDATA pkt s = (none, u) →
    ∃ t, exec (.getData pkt) s = .next t ∧
      t = afterReply u) ∧
  (∀ (pkt : Packet) (u : State) (s : State), replyFor fATOMICDATA pkt s = (none, u) →
    ∃ t, exec (.atomicData pkt) s = .next t ∧
      t = afterReply u) ∧
  (∀ (pkt : Packet) (u : State) (s : State), replyFor fACK pkt s = (none, u) →
    ∃ t, exec (.ack pkt) s = .next t ∧
      t = afterReply u) ∧
  (∀ (pkt : Packet) (u : State) (s : State), replyFor fSTATUS pkt s = (none, u) →
    ∃ t, exec (.status pkt) s = .next t ∧
      t = afterReply u) ∧
  (∀ (pkt : Packet) (tr : Track) (u : State) (s : State), replyFor fLOADDATA pkt s = (some tr, u) → crOp tr.record ≠ fLOAD →
    ∃ t, exec (.loadData pkt) s = .next t ∧
      t = afterReply u) ∧
  (∀ (pkt : Packet) (tr : Track) (u : State) (s : State), replyFor fGETDATA pkt s = (some tr, u) → crOp tr.record ≠ fGET →
    ∃ t, exec (.getData pkt) s = .next t ∧
      t = afterReply u) ∧
  (∀ (pkt : Packet) (tr : Track) (u : State) (s : State), replyFor fATOMICDATA pkt s = (some tr, u) → crOp tr.record ≠
    fATOMIC →
    ∃ t, exec (.atomicData pkt) s = .next t ∧
      t = afterReply u) ∧
  (∀ (pkt : Packet) (tr : Track) (u : State) (s : State), replyFor fACK pkt s = (some tr, u) → crWrites tr.record = false ∨
    crOp tr.record = fATOMIC →
    ∃ t, exec (.ack pkt) s = .next t ∧
      t = afterReply u) ∧
  (∀ (op : Nat) (k : Packet) (s u : State), arriveHere op k s = (false, u) → replyFor op k s = (none, u)) ∧
  (∀ (op : Nat) (k : Packet) (s u : State), arriveHere op k s = (true, u) →
    replyFor op k s = ((noteEcho k.hdr u).rmem.tracks.find? (fun x => x.tag == BitVec.ofNat 16 (pkTag k.hdr)),
      if (noteEcho k.hdr u).rmem.tracks.all (fun x => !(x.tag == BitVec.ofNat 16 (pkTag k.hdr))) = true ∧
          (noteEcho k.hdr u).rmem.quarantine.any (fun x => x.1 == BitVec.ofNat 16 (pkTag k.hdr)) = true
        then (noteEcho k.hdr u).count Obj.rmemLateReplies 1 else noteEcho k.hdr u)) ∧
  (∀ (pkt : Packet) (tr : Track) (u : State) (at_ : Nat) (s : State), replyFor fLOADDATA pkt s = (some tr, u) → crOp
    tr.record = fLOAD → at_ = pkOffset pkt.hdr - crOffset tr.record →
    ∃ t, exec (.loadData pkt) s = .next t ∧
      t = afterReply (countReply tr (min (pkLength pkt.hdr) tr.left) (landReply tr at_ ((fitBytes (pkLength pkt.hdr)
        pkt.payload).take (crLength tr.record - at_)) u))) ∧
  (∀ (pkt : Packet) (tr : Track) (u : State) (at_ : Nat) (b : Bytes) (s : State), replyFor fGETDATA pkt s = (some tr, u) →
    crOp tr.record = fGET → at_ = pkOffset pkt.hdr → b = ((fitBytes (pkLength pkt.hdr) pkt.payload).take (crLength tr.record
    - at_)) →
    ∃ t, exec (.getData pkt) s = .next t ∧
      t = afterReply (countReply { tr with got := tr.got ++ [(at_, b.length)] } b.length (landReply tr at_ b u))) ∧
  (∀ (pkt : Packet) (tr : Track) (u : State) (s : State), replyFor fATOMICDATA pkt s = (some tr, u) → crOp tr.record =
    fATOMIC →
    ∃ t, exec (.atomicData pkt) s = .next t ∧
      t = afterReply (endTrack tr 0 0 (leAt pkt.payload 0 8) (landReply tr 0 (fitBytes (crLength tr.record) (pkt.payload.take
        8)) u))) ∧
  (∀ (pkt : Packet) (tr : Track) (u : State) (s : State), replyFor fACK pkt s = (some tr, u) → crWrites tr.record = true →
    crOp tr.record ≠ fATOMIC →
    ∃ t, exec (.ack pkt) s = .next t ∧
      t = afterReply (countReply tr 1 u)) ∧
  (∀ (pkt : Packet) (tr : Track) (u : State) (v w : State) (s : State), replyFor fSTATUS pkt s = (some tr, u) → v = (if
    (bitsAt (pkSpecA pkt.hdr) 0 8) = 1 then markUnreachable (crDest tr.record) u else u) → w = (if tr.queue = noQueue then
    logEvent Obj.rmemLastFaultNode 2 (pkSpecB pkt.hdr) 0xFF 0 (bvBytes pkt.hdr) ((State.setObj
    { v with rmem := { v.rmem with sendLost := v.rmem.sendLost + 1 } } Obj.rmemLastFaultNode (crDest tr.record)).setObj
    Obj.rmemLastFaultBeat v.beat) else v) → ¬(crOp tr.record = fPUT ∨ crOp tr.record = fMCAST) →
    ∃ t, exec (.status pkt) s = .next t ∧
      t = afterReply (endTrack tr (bitsAt (pkSpecA pkt.hdr) 0 8) (pkSpecB pkt.hdr) 0 w)) ∧
  (∀ (pkt : Packet) (tr : Track) (u : State) (v w : State) (f : Nat × Nat × Nat) (s : State), replyFor fSTATUS pkt s = (some
    tr, u) → v = (if (bitsAt (pkSpecA pkt.hdr) 0 8) = 1 then markUnreachable (crDest tr.record) u else u) → w = (if tr.queue
    = noQueue then logEvent Obj.rmemLastFaultNode 2 (pkSpecB pkt.hdr) 0xFF 0 (bvBytes pkt.hdr) ((State.setObj
    { v with rmem := { v.rmem with sendLost := v.rmem.sendLost + 1 } } Obj.rmemLastFaultNode (crDest tr.record)).setObj
    Obj.rmemLastFaultBeat v.beat) else v) → crOp tr.record = fPUT ∨ crOp tr.record = fMCAST → f = tr.failure.elim (pkOffset
    pkt.hdr, (bitsAt (pkSpecA pkt.hdr) 0 8), pkSpecB pkt.hdr) (fun x => if pkOffset pkt.hdr < x.1 then (pkOffset pkt.hdr,
    (bitsAt (pkSpecA pkt.hdr) 0 8), pkSpecB pkt.hdr) else x) →
    ∃ t, exec (.status pkt) s = .next t ∧
      t = afterReply (countReply { tr with failure := some f } 1 w)) ∧
  (∀ (x : Track) (n : Nat) (s : State), x.left ≤ n →
    countReply x n s = x.failure.elim (endTrack { x with left := 0 } 0 0 0 s) (fun f => endTrack { x with left := 0 } f.2.1
      f.2.2 0 s)) ∧
  (∀ (x : Track) (n : Nat) (s : State), n < x.left →
    countReply x n s = { s with rmem := { s.rmem with tracks := s.rmem.tracks.map (fun y => if y.tag = x.tag then { x with left := x.left - n } else y) } }) ∧
  (∀ (x : Track) (st code value : Nat) (s u : State), x.queue < 64 → u =
    { s with rmem := { s.rmem with tracks := s.rmem.tracks.filter (fun y => y.tag != x.tag) } } →
    endTrack x st code value s = endRecord x.queue x.record st code value (if st ≠ 0 ∧ crOp x.record = fGET then spoilGet x u
      else u)) ∧
  (∀ (q : Nat) (r : BitVec 512) (code value : Nat) (s : State), endRecord q r 0 code value s = putCompletion q r 0 0 0 value
    s) ∧
  (∀ (pkt : Packet) (tr : Track) (s : State), pkOp pkt.hdr = fLOADDATA → headerGood s pkt.hdr = true → pkCecho pkt.hdr = 0 →
    s.fabric.paced = [] → s.fabric.untagged = [] → ∀ x ∈ s.rmem.waiting, x.2 = [] → s.rmem.tracks.find? (fun x => x.tag ==
    BitVec.ofNat 16 (pkTag pkt.hdr)) = some tr → tr.queue < 64 → crOp tr.record = fLOAD → pkOffset pkt.hdr = crOffset
    tr.record → pkLength pkt.hdr = crLength tr.record → tr.left = crLength tr.record → tr.failure = none → crLocal tr.record
    < dramHomeBase →
    ∃ t, exec (.loadData pkt) s = .next t ∧
      Stored (memKey (crSite tr.record) (crLocal tr.record)) (fitBytes (pkLength pkt.hdr) pkt.payload) s t ∧ Ended tr.queue
        tr.record 0 0 s t ∧ t.rmem.tracks = s.rmem.tracks.filter (fun x => x.tag != tr.tag)) ∧
  (∀ (pkt : Packet) (tr : Track) (s : State), pkOp pkt.hdr = fGETDATA → headerGood s pkt.hdr = true → pkCecho pkt.hdr = 0 →
    s.fabric.paced = [] → s.fabric.untagged = [] → ∀ x ∈ s.rmem.waiting, x.2 = [] → s.rmem.tracks.find? (fun x => x.tag ==
    BitVec.ofNat 16 (pkTag pkt.hdr)) = some tr → tr.queue < 64 → crOp tr.record = fGET → pkOffset pkt.hdr + pkLength pkt.hdr
    ≤ crLength tr.record → pkLength pkt.hdr = tr.left → tr.failure = none → crLocal tr.record < dramHomeBase →
    ∃ t, exec (.getData pkt) s = .next t ∧
      Stored (memKey (crSite tr.record) (crLocal tr.record) + pkOffset pkt.hdr) (fitBytes (pkLength pkt.hdr) pkt.payload) s t
        ∧ Ended tr.queue tr.record 0 0 s t ∧ t.rmem.tracks = s.rmem.tracks.filter (fun x => x.tag != tr.tag)) ∧
  (∀ (pkt : Packet) (tr : Track) (s : State), pkOp pkt.hdr = fGETDATA → headerGood s pkt.hdr = true → pkCecho pkt.hdr = 0 →
    s.fabric.paced = [] → s.fabric.untagged = [] → ∀ x ∈ s.rmem.waiting, x.2 = [] → s.rmem.tracks.find? (fun x => x.tag ==
    BitVec.ofNat 16 (pkTag pkt.hdr)) = some tr → tr.queue < 64 → crOp tr.record = fGET → pkOffset pkt.hdr + pkLength pkt.hdr
    ≤ crLength tr.record → pkLength pkt.hdr < tr.left → crLocal tr.record < dramHomeBase →
    ∃ t, exec (.getData pkt) s = .next t ∧
      Stored (memKey (crSite tr.record) (crLocal tr.record) + pkOffset pkt.hdr) (fitBytes (pkLength pkt.hdr) pkt.payload) s t
        ∧
      t.rmem.tracks = s.rmem.tracks.map (fun x => if x.tag = tr.tag then
        { tr with got := tr.got ++ [(pkOffset pkt.hdr, pkLength pkt.hdr)], left := tr.left - (pkLength pkt.hdr) } else x) ∧
        t.rmem.done = s.rmem.done) ∧
  (∀ (pkt : Packet) (tr : Track) (s : State), pkOp pkt.hdr = fATOMICDATA → headerGood s pkt.hdr = true → pkCecho pkt.hdr = 0
    → s.fabric.paced = [] → s.fabric.untagged = [] → ∀ x ∈ s.rmem.waiting, x.2 = [] → s.rmem.tracks.find? (fun x => x.tag ==
    BitVec.ofNat 16 (pkTag pkt.hdr)) = some tr → tr.queue < 64 → crOp tr.record = fATOMIC → crLocal tr.record < dramHomeBase
    →
    ∃ t, exec (.atomicData pkt) s = .next t ∧
      Stored (memKey (crSite tr.record) (crLocal tr.record)) (fitBytes (crLength tr.record) (pkt.payload.take 8)) s t ∧ Ended
        tr.queue tr.record 0 0 s t ∧
      (tget [] tr.queue t.rmem.done).getLast?.map (fun c => fieldAt c 128 64) = some (leAt pkt.payload 0 8) ∧ t.rmem.tracks =
        s.rmem.tracks.filter (fun x => x.tag != tr.tag)) ∧
  (∀ (pkt : Packet) (tr : Track) (s : State), pkOp pkt.hdr = fACK → headerGood s pkt.hdr = true → pkCecho pkt.hdr = 0 →
    s.fabric.paced = [] → s.fabric.untagged = [] → ∀ x ∈ s.rmem.waiting, x.2 = [] → s.rmem.tracks.find? (fun x => x.tag ==
    BitVec.ofNat 16 (pkTag pkt.hdr)) = some tr → tr.queue < 64 → crWrites tr.record = true → crOp tr.record ≠ fATOMIC →
    tr.left = 1 → tr.failure = none →
    ∃ t, exec (.ack pkt) s = .next t ∧
      Ended tr.queue tr.record 0 0 s t ∧ t.rmem.tracks = s.rmem.tracks.filter (fun x => x.tag != tr.tag) ∧ t.mem = s.mem) ∧
  (∀ (pkt : Packet) (tr : Track) (s : State), pkOp pkt.hdr = fACK → headerGood s pkt.hdr = true → pkCecho pkt.hdr = 0 →
    s.fabric.paced = [] → s.fabric.untagged = [] → ∀ x ∈ s.rmem.waiting, x.2 = [] → s.rmem.tracks.find? (fun x => x.tag ==
    BitVec.ofNat 16 (pkTag pkt.hdr)) = some tr → tr.queue < 64 → crWrites tr.record = true → crOp tr.record ≠ fATOMIC → 2 ≤
    tr.left →
    ∃ t, exec (.ack pkt) s = .next t ∧
      t.rmem.tracks = s.rmem.tracks.map (fun x => if x.tag = tr.tag then { tr with left := tr.left - 1 } else x) ∧
        t.rmem.done = s.rmem.done ∧ t.mem = s.mem) ∧
  (∀ (pkt : Packet) (tr : Track) (s : State), pkOp pkt.hdr = fSTATUS → headerGood s pkt.hdr = true → pkCecho pkt.hdr = 0 →
    s.fabric.paced = [] → s.fabric.untagged = [] → ∀ x ∈ s.rmem.waiting, x.2 = [] → s.rmem.tracks.find? (fun x => x.tag ==
    BitVec.ofNat 16 (pkTag pkt.hdr)) = some tr → tr.queue < 64 → crOp tr.record = fSTORE ∨ crOp tr.record = fFLAG ∨ crOp
    tr.record = fBARRIER → (bitsAt (pkSpecA pkt.hdr) 0 8) ≠ 0 →
    ∃ t, exec (.status pkt) s = .next t ∧
      Ended tr.queue tr.record (bitsAt (pkSpecA pkt.hdr) 0 8) (pkSpecB pkt.hdr) s t ∧ t.rmem.tracks = s.rmem.tracks.filter
        (fun x => x.tag != tr.tag) ∧ t.mem = s.mem ∧
      ((bitsAt (pkSpecA pkt.hdr) 0 8) = 1 →
        (BitVec.ofNat 16 (crDest tr.record), s.beat + 1000 * s.obj Obj.rmemUnreachableHoldUs) ∈ t.rmem.unreachable))

/-- A CPART at the head of its receive buffer leaves it. One that fails the checks of a header is discarded and counted. One
  for no declared collective, of another type, or outside its bytes is refused and counted; one for a slot that still
  holds another instance is discarded, counted and logged; another marks its slot begun, and its bytes enter the arm of
  its direction at the combining rim die or go there over the lightbed. While addends are missing they stay in the slot,
  and with the last of them the sum leaves and the slot expects its next instance. COLL_TIMEOUT discards and frees a
  slot not complete coll_timeout_us after its first addend. Otherwise these change nothing. -/
def Obligations.InNetworkReduction : Prop :=
  (∀ (p : PortId) (pkt : Packet) (s : State), pkOp pkt.hdr ≠ fCPART ∨ takeIn p.val pkt s = none →
    ∃ t, exec (.cpart p pkt) s = .next t ∧
      t = s) ∧
  (∀ (p : PortId) (pkt : Packet) (u : State) (s : State), pkOp pkt.hdr = fCPART → takeIn p.val pkt s = some u → headerGood u
    pkt.hdr = false →
    ∃ t, exec (.cpart p pkt) s = .next t ∧
      t = (countEnd pkt.hdr u).count Obj.fabricHeaderDiscards 1) ∧
  (∀ (p : PortId) (pkt : Packet) (u : State) (v : State) (s : State), pkOp pkt.hdr = fCPART → takeIn p.val pkt s = some u →
    headerGood u pkt.hdr = true → v = countEnd pkt.hdr (noteNode pkt.hdr (checkSeq pkt.hdr u)) → v.fabric.colRes.find? (fun r
    => colId r.desc == pkSpecB pkt.hdr && colJob r.desc == pkJob pkt.hdr) = none →
    ∃ t, exec (.cpart p pkt) s = .next t ∧
      t = v.count Obj.rmemRefusals 1) ∧
  (∀ (p : PortId) (pkt : Packet) (u : State) (v : State) (r : CollRes) (s : State), pkOp pkt.hdr = fCPART → takeIn p.val pkt
    s = some u → headerGood u pkt.hdr = true → v = countEnd pkt.hdr (noteNode pkt.hdr (checkSeq pkt.hdr u)) →
    v.fabric.colRes.find? (fun r => colId r.desc == pkSpecB pkt.hdr && colJob r.desc == pkJob pkt.hdr) = some r → bitsAt
    (pkSpecA pkt.hdr) 0 2 ≠ colType r.desc ∨ pkOffset pkt.hdr % 64 ≠ 0 ∨ colLength r.desc < pkOffset pkt.hdr + pkLength
    pkt.hdr →
    ∃ t, exec (.cpart p pkt) s = .next t ∧
      t = v.count Obj.rmemRefusals 1) ∧
  (∀ (p : PortId) (pkt : Packet) (u : State) (v : State) (r : CollRes) (s : State), pkOp pkt.hdr = fCPART → takeIn p.val pkt
    s = some u → headerGood u pkt.hdr = true → v = countEnd pkt.hdr (noteNode pkt.hdr (checkSeq pkt.hdr u)) →
    v.fabric.colRes.find? (fun r => colId r.desc == pkSpecB pkt.hdr && colJob r.desc == pkJob pkt.hdr) = some r → ¬(bitsAt
    (pkSpecA pkt.hdr) 0 2 ≠ colType r.desc ∨ pkOffset pkt.hdr % 64 ≠ 0 ∨ colLength r.desc < pkOffset pkt.hdr + pkLength
    pkt.hdr) → (slotNow v r (instSlot r (pkSpecC pkt.hdr))).began.isSome = true ∧ (slotNow v r (instSlot r (pkSpecC
    pkt.hdr))).inst ≠ pkSpecC pkt.hdr →
    ∃ t, exec (.cpart p pkt) s = .next t ∧
      t = countLog Obj.collSlotConflicts 2 0 (rimSite r.rim) (instSlot r (pkSpecC pkt.hdr)) (leBytes 2 (pkSpecC pkt.hdr)) v ∧
        t.fabric.colls = s.fabric.colls ∧ t.mem = s.mem) ∧
  (∀ (p : PortId) (pkt : Packet) (u : State) (v : State) (r : CollRes) (w : State) (s : State), pkOp pkt.hdr = fCPART →
    takeIn p.val pkt s = some u → headerGood u pkt.hdr = true → v = countEnd pkt.hdr (noteNode pkt.hdr (checkSeq pkt.hdr u))
    → v.fabric.colRes.find? (fun r => colId r.desc == pkSpecB pkt.hdr && colJob r.desc == pkJob pkt.hdr) = some r → ¬(bitsAt
    (pkSpecA pkt.hdr) 0 2 ≠ colType r.desc ∨ pkOffset pkt.hdr % 64 ≠ 0 ∨ colLength r.desc < pkOffset pkt.hdr + pkLength
    pkt.hdr) → ¬((slotNow v r (instSlot r (pkSpecC pkt.hdr))).began.isSome = true ∧ (slotNow v r (instSlot r (pkSpecC
    pkt.hdr))).inst ≠ pkSpecC pkt.hdr) → w = setSlot (collKey r.rim (instSlot r (pkSpecC pkt.hdr)))
    { slotNow v r (instSlot r (pkSpecC pkt.hdr)) with inst := pkSpecC pkt.hdr, began := some ((slotNow v r (instSlot r (pkSpecC pkt.hdr))).began.getD v.beat) }
    v → (portDir p.val) = r.rim →
    ∃ t, exec (.cpart p pkt) s = .next t ∧
      t = addPart r (instSlot r (pkSpecC pkt.hdr)) (armOf r.rim) (pkOffset pkt.hdr) (fitBytes (pkLength pkt.hdr) pkt.payload)
        w) ∧
  (∀ (p : PortId) (pkt : Packet) (u : State) (v : State) (r : CollRes) (w : State) (s : State), pkOp pkt.hdr = fCPART →
    takeIn p.val pkt s = some u → headerGood u pkt.hdr = true → v = countEnd pkt.hdr (noteNode pkt.hdr (checkSeq pkt.hdr u))
    → v.fabric.colRes.find? (fun r => colId r.desc == pkSpecB pkt.hdr && colJob r.desc == pkJob pkt.hdr) = some r → ¬(bitsAt
    (pkSpecA pkt.hdr) 0 2 ≠ colType r.desc ∨ pkOffset pkt.hdr % 64 ≠ 0 ∨ colLength r.desc < pkOffset pkt.hdr + pkLength
    pkt.hdr) → ¬((slotNow v r (instSlot r (pkSpecC pkt.hdr))).began.isSome = true ∧ (slotNow v r (instSlot r (pkSpecC
    pkt.hdr))).inst ≠ pkSpecC pkt.hdr) → w = setSlot (collKey r.rim (instSlot r (pkSpecC pkt.hdr)))
    { slotNow v r (instSlot r (pkSpecC pkt.hdr)) with inst := pkSpecC pkt.hdr, began := some ((slotNow v r (instSlot r (pkSpecC pkt.hdr))).began.getD v.beat) }
    v → (portDir p.val) ≠ r.rim →
    ∃ t, exec (.cpart p pkt) s = .next t ∧
      t = sendWrite ((fitBytes (pkLength pkt.hdr) pkt.payload).length + 1) (rimSite (portDir p.val)) (rimSite r.rim)
        (0x1000000000 + 65536 * (instSlot r (pkSpecC pkt.hdr)) + pkOffset pkt.hdr) (fitBytes (pkLength pkt.hdr) pkt.payload)
        none none w) ∧
  (∀ (r : CollRes) (slot arm off : Nat) (data : Bytes) (s u : State) (place : ColPlace) (x : CollSlot), colPlace s r.desc =
    some place → place.arms.contains arm = true →
    x = { slotNow s r slot with parts := (List.range (ceilDiv data.length 64)).foldl (fun (y : Tab Bytes) i => tset (65536 * arm + off / 64 + i) (fitBytes 64 (data.drop (64 * i))) y) (slotNow s r slot).parts, began := some ((slotNow s r slot).began.getD s.beat) }
      →
    u = setSlot (collKey r.rim slot) x s →
    slotComplete r.desc place x = false → addPart r slot arm off data s = u) ∧
  (∀ (r : CollRes) (slot arm off : Nat) (data : Bytes) (s u : State) (place : ColPlace) (x : CollSlot), colPlace s r.desc =
    some place → place.arms.contains arm = true →
    x = { slotNow s r slot with parts := (List.range (ceilDiv data.length 64)).foldl (fun (y : Tab Bytes) i => tset (65536 * arm + off / 64 + i) (fitBytes 64 (data.drop (64 * i))) y) (slotNow s r slot).parts, began := some ((slotNow s r slot).began.getD s.beat) }
      →
    u = setSlot (collKey r.rim slot) x s →
    slotComplete r.desc place x = true →
    addPart r slot arm off data s = sendTotal r place x.inst (((List.range (colChunks r.desc)).flatMap (chunkSum (colType
      r.desc) place x.parts)).take (colLength r.desc))
      (setSlot (collKey r.rim slot) { inst := (x.inst + max 1 (colSlots r.desc)) % 65536 } u)) ∧
  (∀ (rim : RimId) (slot : Byte) (s : State), ∀ x ∈ slotOwner s rim.val slot.toNat, ∀ b ∈ (slotNow s x.1 x.2).began, s.beat <
    b + 1000 * s.obj Obj.collTimeoutUs →
    ∃ t, exec (.collTimeout rim slot) s = .next t ∧
      t = s) ∧
  (∀ (rim : RimId) (slot : Byte) (r : CollRes) (first b : Nat) (s : State), slotOwner s rim.val slot.toNat = some (r, first)
    → (slotNow s r first).began = some b → b + 1000 * s.obj Obj.collTimeoutUs ≤ s.beat →
    ∃ t, exec (.collTimeout rim slot) s = .next t ∧
      t.fabric = { s.fabric with colls := tset (collKey r.rim first) { inst := ((slotNow s r first).inst + max 1 (colSlots r.desc)) % 65536 } s.fabric.colls }
        ∧
      t.obj Obj.collTimeouts = (s.obj Obj.collTimeouts + 1) % 2 ^ objBits Obj.collTimeouts ∧ Untouched (Obj.collTimeouts ::
        logCounters) s t ∧
      t = { s with od := t.od, fabric := t.fabric, beagle := t.beagle, log := t.log })

/-- A message is taken only by an enabled gateway, of its kind, version and pod: a wrong key or session number, or no
  session, counts an authentication failure; one out of sequence leaves the state, but one taken before is answered with
  an IDLE where the session is open with nothing of this side on its way (log entry 74); one in sequence advances the
  ack, takes its credits and ends what it acknowledges. OPEN under the pod key and with level 1 ends what the old
  session held, makes the session open under the peer's number and credits, counts it and answers ACCEPT; a wrong key
  counts, no level 1 (highest level 0, log entry 95) is logged with 0x1603, and where both open at once the lower pod's
  stands (log entry 74). ACCEPT of a waiting session at level 1 opens it and what is due goes; IDLE only lets what is
  due go. 50 µs without progress sends every unacknowledged message again; after 10 ms without progress what waits for
  the pod is answered path-lost and a new session opens. Otherwise these change nothing. -/
def Obligations.GatewaySessions : Prop :=
  (∀ (kind : Nat) (m : GwMsg) (s : State), s.retr.enabled = false ∨ m.kind.toNat ≠ kind ∨ m.version ≠ 1 ∨ m.dstPod.toNat ≠
    nodePod s.fabric.node.toNat →
    gwReceive kind m s = (false, s)) ∧
  (∀ (kind : Nat) (m : GwMsg) (s : State), s.retr.enabled = true → m.kind.toNat = kind → m.version = 1 → m.dstPod.toNat =
    nodePod s.fabric.node.toNat →
    ¬(m.key = (s.gw m.srcPod.toNat).key ∧ m.session = (s.gw m.srcPod.toNat).number ∧ (s.gw m.srcPod.toNat).state ≠ 0) →
      gwReceive kind m s = (false, s.count Obj.retrieverAuthFailures 1)) ∧
  (∀ (kind : Nat) (m : GwMsg) (s : State), s.retr.enabled = true → m.kind.toNat = kind → m.version = 1 → m.dstPod.toNat =
    nodePod s.fabric.node.toNat → (m.key = (s.gw m.srcPod.toNat).key ∧ m.session = (s.gw m.srcPod.toNat).number ∧ (s.gw
    m.srcPod.toNat).state ≠ 0) →
    m.seq.toNat ≠ (s.gw m.srcPod.toNat).rxSeq → gwReceive kind m s = (false, if m.seq.toNat < (s.gw m.srcPod.toNat).rxSeq ∧
      (s.gw m.srcPod.toNat).state = 2 ∧ (s.gw m.srcPod.toNat).unacked = [] then gwSend m.srcPod.toNat gwIDLE 0 [] s else s)) ∧
  (∀ (kind : Nat) (m : GwMsg) (s : State) (left : List (Nat × Nat × BitVec 256 × Bytes)), s.retr.enabled = true →
    m.kind.toNat = kind → m.version = 1 → m.dstPod.toNat = nodePod s.fabric.node.toNat → (m.key = (s.gw m.srcPod.toNat).key ∧
    m.session = (s.gw m.srcPod.toNat).number ∧ (s.gw m.srcPod.toNat).state ≠ 0) →
    m.seq.toNat = (s.gw m.srcPod.toNat).rxSeq → left = (s.gw m.srcPod.toNat).unacked.filter (fun u => m.ack.toNat < u.1) →
    gwReceive kind m s = (true, s.setGw m.srcPod.toNat
      { (s.gw m.srcPod.toNat) with rxSeq := (s.gw m.srcPod.toNat).rxSeq + 1, rxAck := m.seq.toNat, unacked := left, readCr := gwCredit (s.gw m.srcPod.toNat).readCr m.readCr.toNat, storeCr := gwCredit (s.gw m.srcPod.toNat).storeCr m.storeCr.toNat, progress := if left.length < (s.gw m.srcPod.toNat).unacked.length then s.beat else (s.gw m.srcPod.toNat).progress })) ∧
  (∀ seen v : Nat, v < 65536 → (gwCredit seen v) % 65536 = v ∧ seen ≤ gwCredit seen v ∧ gwCredit seen v < seen + 65536) ∧
  (∀ (m : GwMsg) (s : State), ¬(s.retr.enabled = true ∧ m.kind.toNat = gwOPEN ∧ m.version = 1 ∧ m.dstPod.toNat = nodePod
    s.fabric.node.toNat) →
    ∃ t, exec (.retrieverOpen m) s = .next t ∧
      t = s) ∧
  (∀ (m : GwMsg) (s : State), s.retr.enabled = true ∧ m.kind.toNat = gwOPEN ∧ m.version = 1 ∧ m.dstPod.toNat = nodePod
    s.fabric.node.toNat → ¬(m.key = s.objB (Obj.retrieverKeyQ + m.srcPod.toNat)) →
    ∃ t, exec (.retrieverOpen m) s = .next t ∧
      t = s.count Obj.retrieverAuthFailures 1) ∧
  (∀ (m : GwMsg) (s : State), s.retr.enabled = true ∧ m.kind.toNat = gwOPEN ∧ m.version = 1 ∧ m.dstPod.toNat = nodePod
    s.fabric.node.toNat → m.key = s.objB (Obj.retrieverKeyQ + m.srcPod.toNat) → leAt m.payload 0 1 = 0 →
    ∃ t, exec (.retrieverOpen m) s = .next t ∧
      t = logEvent (Obj.retrieverSessionQ + m.srcPod.toNat) 0 0x1603 0xFF m.srcPod.toNat [] s ∧ t.retr = s.retr ∧ t.out =
        s.out) ∧
  (∀ (m : GwMsg) (s : State), s.retr.enabled = true ∧ m.kind.toNat = gwOPEN ∧ m.version = 1 ∧ m.dstPod.toNat = nodePod
    s.fabric.node.toNat → m.key = s.objB (Obj.retrieverKeyQ + m.srcPod.toNat) → leAt m.payload 0 1 ≠ 0 → (s.gw
    m.srcPod.toNat).state = 1 ∧ nodePod s.fabric.node.toNat < m.srcPod.toNat →
    ∃ t, exec (.retrieverOpen m) s = .next t ∧
      t = s) ∧
  (∀ (m : GwMsg) (u v : State) (x : GwSess) (s : State), s.retr.enabled = true ∧ m.kind.toNat = gwOPEN ∧ m.version = 1 ∧
    m.dstPod.toNat = nodePod s.fabric.node.toNat → m.key = s.objB (Obj.retrieverKeyQ + m.srcPod.toNat) → leAt m.payload 0 1 ≠
    0 → ¬((s.gw m.srcPod.toNat).state = 1 ∧ nodePod s.fabric.node.toNat < m.srcPod.toNat) → u = gwDrop m.srcPod.toNat s → v =
    { u with retr := { u.retr with counter := tset m.srcPod.toNat (BitVec.ofNat 32 (max (tget 0 m.srcPod.toNat u.retr.counter).toNat m.session.toNat)) u.retr.counter } }
    → x = { state := 2, number := m.session, key := m.key, txSeq := 1, rxSeq := m.seq.toNat + 1, rxAck := m.seq.toNat, readCr := m.readCr.toNat, storeCr := m.storeCr.toNat, progress := s.beat, resent := s.beat }
    →
    ∃ t, exec (.retrieverOpen m) s = .next t ∧
      t = gwPumpAll (gwSend m.srcPod.toNat gwACCEPT 0 (levelPayload m.session) ((v.setGw m.srcPod.toNat x).count
        Obj.retrieverSessionOpens 1))) ∧
  (∀ (m : GwMsg) (s : State), s.retr.enabled = true ∧ m.kind.toNat = gwOPEN ∧ m.version = 1 ∧ m.dstPod.toNat = nodePod
    s.fabric.node.toNat → m.key = s.objB (Obj.retrieverKeyQ + m.srcPod.toNat) → leAt m.payload 0 1 ≠ 0 → ¬((s.gw
    m.srcPod.toNat).state = 1 ∧ nodePod s.fabric.node.toNat < m.srcPod.toNat) → s.retr.bufs = [] →
    ∃ t, exec (.retrieverOpen m) s = .next t ∧
      (t.gw m.srcPod.toNat).state = 2 ∧ (t.gw m.srcPod.toNat).number = m.session ∧ (t.gw m.srcPod.toNat).key = m.key ∧ (t.gw
        m.srcPod.toNat).rxSeq = m.seq.toNat + 1 ∧ (t.gw m.srcPod.toNat).readCr = m.readCr.toNat ∧ (t.gw
        m.srcPod.toNat).storeCr = m.storeCr.toNat ∧
      (t.gw m.srcPod.toNat).unacked = [(1, gwACCEPT, 0, levelPayload m.session)] ∧ t.retr.serving = s.retr.serving.filter
        (fun v => v.pod != m.srcPod.toNat) ∧
      t.obj Obj.retrieverSessionOpens = (s.obj Obj.retrieverSessionOpens + 1) % 2 ^ objBits Obj.retrieverSessionOpens ∧
        Untouched [Obj.retrieverSessionOpens] s t ∧
      t = { s with od := t.od, retr := t.retr, out := t.out }) ∧
  (∀ (pod : Nat) (s : State), gwDrop pod s = (s.retr.bufs.filter (fun b => b.pod == pod && b.sent)).foldl (fun v b => gwLose
    b v)
    { s with retr := { s.retr with serving := s.retr.serving.filter (fun v => v.pod != pod) } }) ∧
  (∀ (m : GwMsg) (s : State), (s.gw m.srcPod.toNat).state ≠ 1 ∨ leAt m.payload 0 1 ≠ 1 →
    ∃ t, exec (.retrieverAccept m) s = .next t ∧
      t = s) ∧
  (∀ (m : GwMsg) (v u : State) (s : State), (s.gw m.srcPod.toNat).state = 1 → leAt m.payload 0 1 = 1 → v = s.setGw
    m.srcPod.toNat { (s.gw m.srcPod.toNat) with rxSeq := m.seq.toNat } → gwReceive gwACCEPT m v = (false, u) →
    ∃ t, exec (.retrieverAccept m) s = .next t ∧
      t = u) ∧
  (∀ (m : GwMsg) (v u : State) (s : State), (s.gw m.srcPod.toNat).state = 1 → leAt m.payload 0 1 = 1 → v = s.setGw
    m.srcPod.toNat { (s.gw m.srcPod.toNat) with rxSeq := m.seq.toNat } → gwReceive gwACCEPT m v = (true, u) →
    ∃ t, exec (.retrieverAccept m) s = .next t ∧
      t = gwPumpAll ((u.setGw m.srcPod.toNat { u.gw m.srcPod.toNat with state := 2 }).count Obj.retrieverSessionOpens 1)) ∧
  (∀ (m : GwMsg) (s : State), s.retr.enabled = true → m.kind.toNat = gwACCEPT → m.version = 1 → m.dstPod.toNat = nodePod
    s.fabric.node.toNat → m.key = (s.gw m.srcPod.toNat).key → m.session = (s.gw m.srcPod.toNat).number → (s.gw
    m.srcPod.toNat).state = 1 → leAt m.payload 0 1 = 1 → s.retr.bufs = [] →
    ∃ t, exec (.retrieverAccept m) s = .next t ∧
      (t.gw m.srcPod.toNat).state = 2 ∧ (t.gw m.srcPod.toNat).number = (s.gw m.srcPod.toNat).number ∧ (t.gw
        m.srcPod.toNat).rxSeq = m.seq.toNat + 1 ∧ t.obj Obj.retrieverSessionOpens = (s.obj Obj.retrieverSessionOpens + 1) % 2
        ^ objBits Obj.retrieverSessionOpens ∧ Untouched [Obj.retrieverSessionOpens] s t ∧
      t = { s with od := t.od, retr := t.retr }) ∧
  (∀ (m : GwMsg) (u : State) (s : State), gwReceive gwIDLE m s = (false, u) →
    ∃ t, exec (.retrieverIdle m) s = .next t ∧
      t = u) ∧
  (∀ (m : GwMsg) (u : State) (s : State), gwReceive gwIDLE m s = (true, u) →
    ∃ t, exec (.retrieverIdle m) s = .next t ∧
      t = gwPumpAll u) ∧
  (∀ (m : GwMsg) (s : State), s.retr.enabled = true → m.kind.toNat = gwIDLE → m.version = 1 → m.dstPod.toNat = nodePod
    s.fabric.node.toNat → m.key = (s.gw m.srcPod.toNat).key → m.session = (s.gw m.srcPod.toNat).number → (s.gw
    m.srcPod.toNat).state = 2 → m.seq.toNat = (s.gw m.srcPod.toNat).rxSeq → s.retr.bufs = [] →
    ∃ t, exec (.retrieverIdle m) s = .next t ∧
      t = s.setGw m.srcPod.toNat { (s.gw m.srcPod.toNat) with rxSeq := (s.gw m.srcPod.toNat).rxSeq + 1, rxAck := m.seq.toNat, unacked := (s.gw m.srcPod.toNat).unacked.filter (fun u => m.ack.toNat < u.1), readCr := gwCredit (s.gw m.srcPod.toNat).readCr m.readCr.toNat, storeCr := gwCredit (s.gw m.srcPod.toNat).storeCr m.storeCr.toNat, progress := (t.gw m.srcPod.toNat).progress }) ∧
  (∀ (q : PodId) (s : State), ¬((s.gw q.val).unacked ≠ [] ∧ max (s.gw q.val).progress (s.gw q.val).resent + 50000 ≤ s.beat) →
    ∃ t, exec (.retrieverResend q) s = .next t ∧
      t = s) ∧
  (∀ (q : PodId) (s : State), (s.gw q.val).unacked ≠ [] ∧ max (s.gw q.val).progress (s.gw q.val).resent + 50000 ≤ s.beat →
    ∃ t, exec (.retrieverResend q) s = .next t ∧
      t = (s.gw q.val).unacked.foldl (fun v u => gwEmit q.val u.2.1 u.1 u.2.2.1 u.2.2.2 v) ((s.setGw q.val
        { (s.gw q.val) with resent := s.beat }).count Obj.retrieverResends (s.gw q.val).unacked.length)) ∧
  (∀ (q : PodId) (s : State), (s.gw q.val).unacked ≠ [] ∧ max (s.gw q.val).progress (s.gw q.val).resent + 50000 ≤ s.beat →
    ∃ t, exec (.retrieverResend q) s = .next t ∧
      (t.gw q.val) = { (s.gw q.val) with resent := s.beat } ∧ t.obj Obj.retrieverResends = (s.obj Obj.retrieverResends +
        (s.gw q.val).unacked.length) % 2 ^ objBits Obj.retrieverResends ∧
      Untouched [Obj.retrieverResends] s t ∧ t.out.length = s.out.length + (if s.serve.links.getD 1 false then (s.gw
        q.val).unacked.length else 0) ∧
      t = { s with od := t.od, retr := t.retr, out := t.out }) ∧
  (∀ (q : PodId) (s : State), ¬((s.gw q.val).state ≠ 0 ∧ (s.gw q.val).unacked ≠ [] ∧ (s.gw q.val).progress + 10000000 ≤
    s.beat) →
    ∃ t, exec (.retrieverSessionTimeout q) s = .next t ∧
      t = s) ∧
  (∀ (q : PodId) (u v w : State) (s : State), (s.gw q.val).state ≠ 0 ∧ (s.gw q.val).unacked ≠ [] ∧ (s.gw q.val).progress +
    10000000 ≤ s.beat → u = gwDrop q.val
    { s with retr := { s.retr with held := s.retr.held.filter (fun x => nodePod (pkSpecC x.2.hdr) != q.val) } } → v =
    (u.retr.bufs.filter (fun b => b.pod == q.val)).foldl (fun y b => gwLose b y) u → w = (s.retr.held.filter (fun x =>
    nodePod (pkSpecC x.2.hdr) == q.val)).foldl (fun y x => gwHeldLost x y) v →
    ∃ t, exec (.retrieverSessionTimeout q) s = .next t ∧
      t = gwRetry (v.retr.held.length + 1) (gwOpen q.val w)) ∧
  (∀ (q : PodId) (s : State), (s.gw q.val).state ≠ 0 ∧ (s.gw q.val).unacked ≠ [] ∧ (s.gw q.val).progress + 10000000 ≤ s.beat
    → s.retr.bufs = [] → s.retr.held = [] →
    ∃ t, exec (.retrieverSessionTimeout q) s = .next t ∧
      (t.gw q.val).state = 1 ∧ (t.gw q.val).number = tget 0 q.val s.retr.counter + 1 ∧ (t.gw q.val).key = s.objB
        (Obj.retrieverKeyQ + q.val) ∧ (t.gw q.val).unacked = [(1, gwOPEN, 0, levelPayload (tget 0 q.val s.retr.counter + 1))]
        ∧
      t.retr = { s.retr with counter := tset q.val (tget 0 q.val s.retr.counter + 1) s.retr.counter, serving := s.retr.serving.filter (fun v => v.pod != q.val), sessions := t.retr.sessions }
        ∧
      t = { s with retr := t.retr, out := t.out })

/-- At a module that is a gateway a far LOAD, GET, STORE or PUT is taken into buffers where its slice has room, or held
  behind those that wait; at one that is none it is refused. One page that joins no buffer opens one. COALESCE_EXPIRY
  and STORE_AGE_EXPIRY, once the time is over, make a buffer due, a store buffer after the earlier ones of its source,
  and what may go goes. READ and FLUSH at the far gateway join its requests, and each is issued as one operation for
  each run when it may be. READ_DATA answers every read that joined its buffer and FLUSH_ACK every packet held in its
  own, and the buffer is free; what then is due goes, or an IDLE carries the ack. A message that is not taken changes
  what its check says. Otherwise these change nothing. -/
def Obligations.GatewayBuffers : Prop :=
  (∀ (p : PortId) (pkt : Packet) (u : State) (s : State), arriveHere fLOAD pkt s = (true, u) → isFar pkt.hdr = true →
    u.retr.enabled = false →
    ∃ t, exec (.load p pkt) s = .next t ∧
      t = refuseFar (portDir p.val) 0 pkt.hdr u ∧ t.mem = s.mem) ∧
  (∀ (p : PortId) (pkt : Packet) (u : State) (s : State), arriveHere fLOAD pkt s = (true, u) → isFar pkt.hdr = true →
    u.retr.enabled = true →
    ∃ t, exec (.load p pkt) s = .next t ∧
      t = gwEnter (portDir p.val) pkt u ∧ t.mem = s.mem) ∧
  (∀ (p : PortId) (pkt : Packet) (u : State) (s : State), arriveHere fGET pkt s = (true, u) → isFar pkt.hdr = true →
    u.retr.enabled = false →
    ∃ t, exec (.get p pkt) s = .next t ∧
      t = refuseFar (portDir p.val) 0 pkt.hdr u ∧ t.mem = s.mem) ∧
  (∀ (p : PortId) (pkt : Packet) (u : State) (s : State), arriveHere fGET pkt s = (true, u) → isFar pkt.hdr = true →
    u.retr.enabled = true →
    ∃ t, exec (.get p pkt) s = .next t ∧
      t = gwEnter (portDir p.val) pkt u ∧ t.mem = s.mem) ∧
  (∀ (p : PortId) (pkt : Packet) (u : State) (s : State), arriveHere fSTORE pkt s = (true, u) → isFar pkt.hdr = true →
    u.retr.enabled = false →
    ∃ t, exec (.store p pkt) s = .next t ∧
      t = refuseFar (portDir p.val) 0 pkt.hdr u ∧ t.mem = s.mem) ∧
  (∀ (p : PortId) (pkt : Packet) (u : State) (s : State), arriveHere fSTORE pkt s = (true, u) → isFar pkt.hdr = true →
    u.retr.enabled = true →
    ∃ t, exec (.store p pkt) s = .next t ∧
      t = gwEnter (portDir p.val) pkt u ∧ t.mem = s.mem) ∧
  (∀ (p : PortId) (pkt : Packet) (u : State) (s : State), arriveHere fPUT pkt s = (true, u) → isFar pkt.hdr = true →
    u.retr.enabled = false →
    ∃ t, exec (.put p pkt) s = .next t ∧
      t = refuseFar (portDir p.val) 0 pkt.hdr u ∧ t.mem = s.mem) ∧
  (∀ (p : PortId) (pkt : Packet) (u : State) (s : State), arriveHere fPUT pkt s = (true, u) → isFar pkt.hdr = true →
    u.retr.enabled = true →
    ∃ t, exec (.put p pkt) s = .next t ∧
      t = gwEnter (portDir p.val) pkt u ∧ t.mem = s.mem) ∧
  (∀ (rim : Nat) (k : Packet) (s : State), gwRoom s rim k = true → (s.retr.held.any (fun x => x.1 == rim && gwReads x.2 ==
    gwReads k)) = false → gwEnter rim k s = gwTake rim k s) ∧
  (∀ (rim : Nat) (k : Packet) (s u : State), (gwRoom s rim k && !(s.retr.held.any (fun x => x.1 == rim && gwReads x.2 ==
    gwReads k))) = false → u = { s with retr := { s.retr with held := s.retr.held ++ [(rim, k)] } } →
    gwEnter rim k s = (u.retr.bufs.find? (fun b => !gwReads k && !b.read && b.slice == rim && !b.due)).elim u (fun b =>
      gwFlush rim b.id u)) ∧
  (∀ (rim : Nat) (k : Packet) (s : State), gwTake rim k s = (rangePages (pkOffset k.hdr) (pkLength k.hdr)).foldl (fun v page
    => if gwReads k = true then gwReadPage rim k.hdr page v else gwStorePage rim k page v) s) ∧
  (∀ (rim : Nat) (h : BitVec 256) (page : Nat) (s : State) (b : GwBuf), readPlace s rim h page = .waits b →
    gwReadPage rim h page s = gwFlush rim b.id (modBuf rim b.id (fun y => { y with waits := y.waits ++ [(rim, h)] }) s)) ∧
  (∀ (rim : Nat) (h : BitVec 256) (page : Nat) (s : State) (b : GwBuf), readPlace s rim h page = .joins b →
    gwReadPage rim h page s = modBuf rim b.id (fun y =>
      { y with units := y.units ||| BitVec.ofNat 64 (unitMask (pkOffset h) (pkLength h) page), joined := y.joined ++ [(rim, h)] })
      (s.count Obj.retrieverLoadsJoined 1)) ∧
  (∀ (p : PortId) (pkt : Packet) (page id : Nat) (s : State), pkOp pkt.hdr = fLOAD → headerGood s pkt.hdr = true → isFar
    pkt.hdr = true → s.retr.enabled = true → s.retr.held = [] → rangePages (pkOffset pkt.hdr) (pkLength pkt.hdr) = [page] →
    gwRoom s (portDir p.val) pkt = true → (s.retr.bufs.all (fun b => b.page != page)) = true → freeBuf s (portDir p.val) true
    = some id → (s.gw (nodePod (pkSpecC pkt.hdr))).state = 1 → pkSpecC pkt.hdr < 65536 → ∀ y ∈ s.retr.bufs, y.due = false →
    ∃ t, exec (.load p pkt) s = .next t ∧
      t.retr.bufs = s.retr.bufs ++ [{ slice := portDir p.val, id, read := true, src := BitVec.ofNat 16 (pkSrc pkt.hdr), node := BitVec.ofNat 16 (pkSpecC pkt.hdr), job := BitVec.ofNat 16 (pkJob pkt.hdr), page, units := BitVec.ofNat 64 (unitMask (pkOffset pkt.hdr) (pkLength pkt.hdr) page), began := s.beat, joined := [(portDir p.val, pkt.hdr)] }]
        ∧ t.mem = s.mem ∧ t.out = s.out) ∧
  (∀ (p : PortId) (pkt : Packet) (page id : Nat) (s : State), pkOp pkt.hdr = fGET → headerGood s pkt.hdr = true → isFar
    pkt.hdr = true → s.retr.enabled = true → s.retr.held = [] → rangePages (pkOffset pkt.hdr) (pkLength pkt.hdr) = [page] →
    gwRoom s (portDir p.val) pkt = true → (s.retr.bufs.all (fun b => b.page != page)) = true → freeBuf s (portDir p.val) true
    = some id → (s.gw (nodePod (pkSpecC pkt.hdr))).state = 1 → pkSpecC pkt.hdr < 65536 → ∀ y ∈ s.retr.bufs, y.due = false →
    ∃ t, exec (.get p pkt) s = .next t ∧
      t.retr.bufs = s.retr.bufs ++ [{ slice := portDir p.val, id, read := true, src := BitVec.ofNat 16 (pkSrc pkt.hdr), node := BitVec.ofNat 16 (pkSpecC pkt.hdr), job := BitVec.ofNat 16 (pkJob pkt.hdr), page, units := BitVec.ofNat 64 (unitMask (pkOffset pkt.hdr) (pkLength pkt.hdr) page), began := s.beat, joined := [(portDir p.val, pkt.hdr)] }]
        ∧ t.mem = s.mem ∧ t.out = s.out) ∧
  (∀ (p : PortId) (pkt : Packet) (page id : Nat) (s : State), pkOp pkt.hdr = fSTORE → headerGood s pkt.hdr = true → isFar
    pkt.hdr = true → s.retr.enabled = true → s.retr.held = [] → rangePages (pkOffset pkt.hdr) (pkLength pkt.hdr) = [page] →
    gwRoom s (portDir p.val) pkt = true → (s.retr.bufs.all (fun b => b.page != page)) = true → freeBuf s (portDir p.val)
    false = some id →
    ∃ t, exec (.store p pkt) s = .next t ∧
      (∃ b, t.retr.bufs = s.retr.bufs ++ [b] ∧ b.id = id ∧ b.read = false ∧ b.page = page ∧ b.due = false ∧ b.joined =
        [(portDir p.val, pkt.hdr)] ∧
        (∀ i, i < pkLength pkt.hdr → tfind (pkOffset pkt.hdr - page + i) b.data = some ((fitBytes (pkLength pkt.hdr)
          pkt.payload).getD i 0))) ∧ t.mem = s.mem ∧ t.out = s.out) ∧
  (∀ (p : PortId) (pkt : Packet) (page id : Nat) (s : State), pkOp pkt.hdr = fPUT → headerGood s pkt.hdr = true → isFar
    pkt.hdr = true → s.retr.enabled = true → s.retr.held = [] → rangePages (pkOffset pkt.hdr) (pkLength pkt.hdr) = [page] →
    gwRoom s (portDir p.val) pkt = true → (s.retr.bufs.all (fun b => b.page != page)) = true → freeBuf s (portDir p.val)
    false = some id →
    ∃ t, exec (.put p pkt) s = .next t ∧
      (∃ b, t.retr.bufs = s.retr.bufs ++ [b] ∧ b.id = id ∧ b.read = false ∧ b.page = page ∧ b.due = false ∧ b.joined =
        [(portDir p.val, pkt.hdr)] ∧
        (∀ i, i < pkLength pkt.hdr → tfind (pkOffset pkt.hdr - page + i) b.data = some ((fitBytes (pkLength pkt.hdr)
          pkt.payload).getD i 0))) ∧ t.mem = s.mem ∧ t.out = s.out) ∧
  (∀ (slice : RimId) (buf : Nat) (s : State), ∀ b ∈ s.retr.bufs.find? (fun b => b.slice == slice.val && b.id == buf && b.read
    && !b.due), s.beat < b.began + s.obj Obj.retrieverCoalesceNs →
    ∃ t, exec (.coalesceExpiry slice buf) s = .next t ∧
      t = s) ∧
  (∀ (slice : RimId) (buf : Nat) (b : GwBuf) (s : State), s.retr.bufs.find? (fun b => b.slice == slice.val && b.id == buf &&
    b.read && !b.due) = some b → b.began + s.obj Obj.retrieverCoalesceNs ≤ s.beat →
    ∃ t, exec (.coalesceExpiry slice buf) s = .next t ∧
      t = gwNeed [b.pod] (modBuf slice.val buf (fun y => { y with due := true }) s)) ∧
  (∀ (slice : RimId) (buf : Nat) (b : GwBuf) (s : State), s.retr.bufs = [b] → b.slice = slice.val → b.id = buf → b.read =
    true → b.due = false → b.began + s.obj Obj.retrieverCoalesceNs ≤ s.beat → (s.gw b.pod).state = 1 →
    ∃ t, exec (.coalesceExpiry slice buf) s = .next t ∧
      t = { s with retr := { s.retr with bufs := [{ b with due := true }] } }) ∧
  (∀ (slice : RimId) (buf : Nat) (s : State), ∀ b ∈ s.retr.bufs.find? (fun b => b.slice == slice.val && b.id == buf &&
    !b.read && !b.due), s.beat < b.began + 1000 * s.obj Obj.retrieverStoreAgeUs →
    ∃ t, exec (.storeAgeExpiry slice buf) s = .next t ∧
      t = s) ∧
  (∀ (slice : RimId) (buf : Nat) (b : GwBuf) (s : State), s.retr.bufs.find? (fun b => b.slice == slice.val && b.id == buf &&
    !b.read && !b.due) = some b → b.began + 1000 * s.obj Obj.retrieverStoreAgeUs ≤ s.beat →
    ∃ t, exec (.storeAgeExpiry slice buf) s = .next t ∧
      t = gwFlush slice.val buf s) ∧
  (∀ (slice : RimId) (buf : Nat) (b : GwBuf) (s : State), s.retr.bufs = [b] → b.slice = slice.val → b.id = buf → b.read =
    false → b.due = false → b.began + 1000 * s.obj Obj.retrieverStoreAgeUs ≤ s.beat → (s.gw b.pod).state = 1 →
    ∃ t, exec (.storeAgeExpiry slice buf) s = .next t ∧
      t = { s with retr := { s.retr with bufs := [{ b with due := true }] } }) ∧
  (∀ (pods : List Nat) (s : State), gwNeed pods s = gwPumpAll (pods.foldl (fun v q => if (v.gw q).state = 0 then gwOpen q v
    else v) s)) ∧
  (∀ (m : GwMsg) (u : State) (s : State), gwReceive gwREAD m s = (false, u) →
    ∃ t, exec (.retrieverRead m) s = .next t ∧
      t = u) ∧
  (∀ (m : GwMsg) (u : State) (s : State), gwReceive gwREADDATA m s = (false, u) →
    ∃ t, exec (.retrieverReadData m) s = .next t ∧
      t = u) ∧
  (∀ (m : GwMsg) (u : State) (s : State), gwReceive gwFLUSH m s = (false, u) →
    ∃ t, exec (.flush m) s = .next t ∧
      t = u) ∧
  (∀ (m : GwMsg) (u : State) (s : State), gwReceive gwFLUSHACK m s = (false, u) →
    ∃ t, exec (.flushAck m) s = .next t ∧
      t = u) ∧
  (∀ (m : GwMsg) (u : State) (x : GwServe) (v w : State) (s : State), gwReceive gwREAD m s = (true, u) → x =
    { n := u.retr.nextServe, pod := m.srcPod.toNat, slice := m.slice, read := true, body := m.body, data := u.freeBytes 4096 }
    → v = u.drawn 4096 → w = { v with retr := { v.retr with serving := v.retr.serving ++ [x], nextServe := x.n + 1 } } →
    ∃ t, exec (.retrieverRead m) s = .next t ∧
      t = gwAfter m.srcPod.toNat (u.gw m.srcPod.toNat).txSeq (gwServeOn (2 * w.retr.serving.length + 2) w)) ∧
  (∀ (m : GwMsg) (u : State) (x : GwServe) (v w : State) (s : State), gwReceive gwFLUSH m s = (true, u) → x =
    { n := u.retr.nextServe, pod := m.srcPod.toNat, slice := m.slice, read := false, body := m.body, data := fitBytes 4608 m.payload }
    → v = u → w = { v with retr := { v.retr with serving := v.retr.serving ++ [x], nextServe := x.n + 1 } } →
    ∃ t, exec (.flush m) s = .next t ∧
      t = gwAfter m.srcPod.toNat (u.gw m.srcPod.toNat).txSeq (gwServeOn (2 * w.retr.serving.length + 2) w)) ∧
  (∀ (m : GwMsg) (k : Nat) (s : State), s.retr.enabled = true → m.kind.toNat = gwREAD → m.version = 1 → m.dstPod.toNat =
    nodePod s.fabric.node.toNat → m.key = (s.gw m.srcPod.toNat).key → m.session = (s.gw m.srcPod.toNat).number → (s.gw
    m.srcPod.toNat).state = 2 → m.seq.toNat = (s.gw m.srcPod.toNat).rxSeq → s.retr.serving = [] → s.retr.bufs = [] →
    s.retr.held = [] → (runsOf (bitList 64 (bodyMask m.body))).length = k + 1 → s.rmem.tracks.length + k + 1 ≤ 4096 →
    s.rmem.tracks.length + s.rmem.quarantine.length + k + 1 < 65536 →
    ∃ t, exec (.retrieverRead m) s = .next t ∧
      (∃ v, t.retr.serving = [v] ∧ v.n = s.retr.nextServe ∧ v.pod = m.srcPod.toNat ∧ v.read = true ∧ v.body = m.body ∧
        v.issued = true ∧ v.left = k + 1) ∧
      t.rmem.tracks.length = s.rmem.tracks.length + k + 1 ∧ (t.gw m.srcPod.toNat).rxSeq = (s.gw m.srcPod.toNat).rxSeq + 1 ∧
        (t.gw m.srcPod.toNat).rxAck = m.seq.toNat ∧ (t.gw m.srcPod.toNat).readCr = gwCredit (s.gw m.srcPod.toNat).readCr
        m.readCr.toNat ∧ (t.gw m.srcPod.toNat).storeCr = gwCredit (s.gw m.srcPod.toNat).storeCr m.storeCr.toNat ∧ t.mem =
        s.mem) ∧
  (∀ (m : GwMsg) (k : Nat) (s : State), s.retr.enabled = true → m.kind.toNat = gwFLUSH → m.version = 1 → m.dstPod.toNat =
    nodePod s.fabric.node.toNat → m.key = (s.gw m.srcPod.toNat).key → m.session = (s.gw m.srcPod.toNat).number → (s.gw
    m.srcPod.toNat).state = 2 → m.seq.toNat = (s.gw m.srcPod.toNat).rxSeq → s.retr.serving = [] → s.retr.bufs = [] →
    s.retr.held = [] → (runsOf (bitList 4096 (leAt (fitBytes 4608 m.payload) 0 512))).length = k + 1 → s.rmem.tracks.length +
    k + 1 ≤ 4096 → s.rmem.tracks.length + s.rmem.quarantine.length + k + 1 < 65536 →
    ∃ t, exec (.flush m) s = .next t ∧
      (∃ v, t.retr.serving = [v] ∧ v.n = s.retr.nextServe ∧ v.pod = m.srcPod.toNat ∧ v.read = false ∧ v.body = m.body ∧
        v.issued = true ∧ v.left = k + 1) ∧
      t.rmem.tracks.length = s.rmem.tracks.length + k + 1 ∧ (t.gw m.srcPod.toNat).rxSeq = (s.gw m.srcPod.toNat).rxSeq + 1 ∧
        (t.gw m.srcPod.toNat).rxAck = m.seq.toNat ∧ (t.gw m.srcPod.toNat).readCr = gwCredit (s.gw m.srcPod.toNat).readCr
        m.readCr.toNat ∧ (t.gw m.srcPod.toNat).storeCr = gwCredit (s.gw m.srcPod.toNat).storeCr m.storeCr.toNat ∧ t.mem =
        s.mem) ∧
  (∀ (pod before : Nat) (s u : State), u = gwPumpAll (gwRetry (s.retr.held.length + 1) s) →
    gwAfter pod before s = if (u.gw pod).txSeq = before then gwSend pod gwIDLE 0 [] u else u) ∧
  (∀ (m : GwMsg) (u : State) (s : State), gwReceive gwREADDATA m s = (true, u) → u.retr.bufs.find? (fun b => b.read && b.sent
    && b.id == bodyBuf m.body && b.pod == m.srcPod.toNat) = none →
    ∃ t, exec (.retrieverReadData m) s = .next t ∧
      t = gwAfter m.srcPod.toNat (u.gw m.srcPod.toNat).txSeq u) ∧
  (∀ (m : GwMsg) (u : State) (b : GwBuf) (s : State), gwReceive gwREADDATA m s = (true, u) → u.retr.bufs.find? (fun b =>
    b.read && b.sent && b.id == bodyBuf m.body && b.pod == m.srcPod.toNat) = some b →
    ∃ t, exec (.retrieverReadData m) s = .next t ∧
      t = gwAfter m.srcPod.toNat (u.gw m.srcPod.toNat).txSeq (b.joined.foldl (fun v x => gwAnswer x.1 x.2 b.page (fitBytes
        4096 m.payload) (bodyStatus m.body) (bodyCode m.body) v) (dropBuf b.slice b.id u))) ∧
  (∀ (m : GwMsg) (b : GwBuf) (s : State), s.retr.enabled = true → m.kind.toNat = gwREADDATA → m.version = 1 → m.dstPod.toNat
    = nodePod s.fabric.node.toNat → m.key = (s.gw m.srcPod.toNat).key → m.session = (s.gw m.srcPod.toNat).number → (s.gw
    m.srcPod.toNat).state = 2 → m.seq.toNat = (s.gw m.srcPod.toNat).rxSeq → s.retr.bufs = [b] → s.retr.held = [] → b.read =
    true → b.sent = true → b.id = bodyBuf m.body → b.pod = m.srcPod.toNat →
    ∃ t, exec (.retrieverReadData m) s = .next t ∧
      t.retr.bufs = [] ∧ (t.gw m.srcPod.toNat).rxSeq = (s.gw m.srcPod.toNat).rxSeq + 1 ∧ (t.gw m.srcPod.toNat).rxAck =
        m.seq.toNat ∧ (t.gw m.srcPod.toNat).readCr = gwCredit (s.gw m.srcPod.toNat).readCr m.readCr.toNat ∧ (t.gw
        m.srcPod.toNat).storeCr = gwCredit (s.gw m.srcPod.toNat).storeCr m.storeCr.toNat ∧ t.mem = s.mem) ∧
  (∀ (m : GwMsg) (u : State) (s : State), gwReceive gwFLUSHACK m s = (true, u) → u.retr.bufs.find? (fun b => !b.read &&
    b.sent && b.id == bodyBuf m.body && b.pod == m.srcPod.toNat) = none →
    ∃ t, exec (.flushAck m) s = .next t ∧
      t = gwAfter m.srcPod.toNat (u.gw m.srcPod.toNat).txSeq u) ∧
  (∀ (m : GwMsg) (u : State) (b : GwBuf) (s : State), gwReceive gwFLUSHACK m s = (true, u) → u.retr.bufs.find? (fun b =>
    !b.read && b.sent && b.id == bodyBuf m.body && b.pod == m.srcPod.toNat) = some b →
    ∃ t, exec (.flushAck m) s = .next t ∧
      t = gwAfter m.srcPod.toNat (u.gw m.srcPod.toNat).txSeq (gwFlushed b (bodyStatus m.body) (bodyCode m.body) u)) ∧
  (∀ (m : GwMsg) (b : GwBuf) (s : State), s.retr.enabled = true → m.kind.toNat = gwFLUSHACK → m.version = 1 → m.dstPod.toNat
    = nodePod s.fabric.node.toNat → m.key = (s.gw m.srcPod.toNat).key → m.session = (s.gw m.srcPod.toNat).number → (s.gw
    m.srcPod.toNat).state = 2 → m.seq.toNat = (s.gw m.srcPod.toNat).rxSeq → s.retr.bufs = [b] → s.retr.held = [] → b.read =
    false → b.sent = true → b.id = bodyBuf m.body → b.pod = m.srcPod.toNat → b.waits = [] →
    ∃ t, exec (.flushAck m) s = .next t ∧
      t.retr.bufs = [] ∧ (t.gw m.srcPod.toNat).rxSeq = (s.gw m.srcPod.toNat).rxSeq + 1 ∧ (t.gw m.srcPod.toNat).rxAck =
        m.seq.toNat ∧ (t.gw m.srcPod.toNat).readCr = gwCredit (s.gw m.srcPod.toNat).readCr m.readCr.toNat ∧ (t.gw
        m.srcPod.toNat).storeCr = gwCredit (s.gw m.srcPod.toNat).storeCr m.storeCr.toNat ∧ t.mem = s.mem) ∧
  (∀ (v : GwServe) (s : State), gwMayIssue s v = true → s.retr.serving.find? (fun y => y.issued && y.left == 0) = none →
    s.retr.serving.find? (gwMayIssue s) = some v →
    gwServeOn 1 s = gwIssue v s)

/-- A data frame that the receiver does not accept has no effect but what the receiver does with it; an accepted one for an
  unassigned site is discarded and counted, one for another site is forwarded where it carries the relay bit and refused
  and counted where it does not, and each frees its buffer. Memory is unchanged in each case. A relay counts the frame
  and puts it into its class of the second leg, or ends it with path-lost where that leg cannot carry it. This holds for
  WRITE, RPART, READ_REQ, READ_DATA, FLAG, BARRIER, STATUS and LAUNCH. -/
def Obligations.FrameDelivery : Prop :=
  (∀ (n : StringId) (f : Frame) (u : State) (s : State), receive n.val opWRITE f s = (none, u) →
    ∃ t, exec (.writeFrame n f) s = .next t ∧
      t = u ∧ t.mem = s.mem) ∧
  (∀ (n : StringId) (f g : Frame) (u : State) (s : State), receive n.val opWRITE f s = (some g, u) → 29 ≤ hDest g.hdr →
    ∃ t, exec (.writeFrame n f) s = .next t ∧
      t = freeCredit n.val (rxBuffer n.val g.hdr) (u.count Obj.unassignedSiteDiscards 1) ∧ t.mem = s.mem) ∧
  (∀ (n : StringId) (f g : Frame) (u : State) (s : State), receive n.val opWRITE f s = (some g, u) → hDest g.hdr < 29 → hDest
    g.hdr ≠ (stringEnds n.val).2 →
    ∃ t, exec (.writeFrame n f) s = .next t ∧
      t = freeCredit n.val (rxBuffer n.val g.hdr) (if hRelay g.hdr = true then forwardFrame ((stringEnds n.val).2) g u else
        u.count Obj.refusedAddresses 1) ∧ t.mem = s.mem) ∧
  (∀ (n : StringId) (f : Frame) (u : State) (s : State), receive n.val opRPART f s = (none, u) →
    ∃ t, exec (.rpart n f) s = .next t ∧
      t = u ∧ t.mem = s.mem) ∧
  (∀ (n : StringId) (f g : Frame) (u : State) (s : State), receive n.val opRPART f s = (some g, u) → 29 ≤ hDest g.hdr →
    ∃ t, exec (.rpart n f) s = .next t ∧
      t = freeCredit n.val (rxBuffer n.val g.hdr) (u.count Obj.unassignedSiteDiscards 1) ∧ t.mem = s.mem) ∧
  (∀ (n : StringId) (f g : Frame) (u : State) (s : State), receive n.val opRPART f s = (some g, u) → hDest g.hdr < 29 → hDest
    g.hdr ≠ (stringEnds n.val).2 →
    ∃ t, exec (.rpart n f) s = .next t ∧
      t = freeCredit n.val (rxBuffer n.val g.hdr) (if hRelay g.hdr = true then forwardFrame ((stringEnds n.val).2) g u else
        u.count Obj.refusedAddresses 1) ∧ t.mem = s.mem) ∧
  (∀ (n : StringId) (f : Frame) (u : State) (s : State), receive n.val opREADREQ f s = (none, u) →
    ∃ t, exec (.readReq n f) s = .next t ∧
      t = u ∧ t.mem = s.mem) ∧
  (∀ (n : StringId) (f g : Frame) (u : State) (s : State), receive n.val opREADREQ f s = (some g, u) → 29 ≤ hDest g.hdr →
    ∃ t, exec (.readReq n f) s = .next t ∧
      t = freeCredit n.val (rxBuffer n.val g.hdr) (u.count Obj.unassignedSiteDiscards 1) ∧ t.mem = s.mem) ∧
  (∀ (n : StringId) (f g : Frame) (u : State) (s : State), receive n.val opREADREQ f s = (some g, u) → hDest g.hdr < 29 →
    hDest g.hdr ≠ (stringEnds n.val).2 →
    ∃ t, exec (.readReq n f) s = .next t ∧
      t = freeCredit n.val (rxBuffer n.val g.hdr) (if hRelay g.hdr = true then forwardFrame ((stringEnds n.val).2) g u else
        u.count Obj.refusedAddresses 1) ∧ t.mem = s.mem) ∧
  (∀ (n : StringId) (f : Frame) (u : State) (s : State), receive n.val opREADDATA f s = (none, u) →
    ∃ t, exec (.readDataFrame n f) s = .next t ∧
      t = u ∧ t.mem = s.mem) ∧
  (∀ (n : StringId) (f g : Frame) (u : State) (s : State), receive n.val opREADDATA f s = (some g, u) → 29 ≤ hDest g.hdr →
    ∃ t, exec (.readDataFrame n f) s = .next t ∧
      t = freeCredit n.val (rxBuffer n.val g.hdr) (u.count Obj.unassignedSiteDiscards 1) ∧ t.mem = s.mem) ∧
  (∀ (n : StringId) (f g : Frame) (u : State) (s : State), receive n.val opREADDATA f s = (some g, u) → hDest g.hdr < 29 →
    hDest g.hdr ≠ (stringEnds n.val).2 →
    ∃ t, exec (.readDataFrame n f) s = .next t ∧
      t = freeCredit n.val (rxBuffer n.val g.hdr) (if hRelay g.hdr = true then forwardFrame ((stringEnds n.val).2) g u else
        u.count Obj.refusedAddresses 1) ∧ t.mem = s.mem) ∧
  (∀ (n : StringId) (f : Frame) (u : State) (s : State), receive n.val opFLAG f s = (none, u) →
    ∃ t, exec (.flagFrame n f) s = .next t ∧
      t = u ∧ t.mem = s.mem) ∧
  (∀ (n : StringId) (f g : Frame) (u : State) (s : State), receive n.val opFLAG f s = (some g, u) → 29 ≤ hDest g.hdr →
    ∃ t, exec (.flagFrame n f) s = .next t ∧
      t = freeCredit n.val (rxBuffer n.val g.hdr) (u.count Obj.unassignedSiteDiscards 1) ∧ t.mem = s.mem) ∧
  (∀ (n : StringId) (f g : Frame) (u : State) (s : State), receive n.val opFLAG f s = (some g, u) → hDest g.hdr < 29 → hDest
    g.hdr ≠ (stringEnds n.val).2 →
    ∃ t, exec (.flagFrame n f) s = .next t ∧
      t = freeCredit n.val (rxBuffer n.val g.hdr) (if hRelay g.hdr = true then forwardFrame ((stringEnds n.val).2) g u else
        u.count Obj.refusedAddresses 1) ∧ t.mem = s.mem) ∧
  (∀ (n : StringId) (f : Frame) (u : State) (s : State), receive n.val opBARRIER f s = (none, u) →
    ∃ t, exec (.barrierFrame n f) s = .next t ∧
      t = u ∧ t.mem = s.mem) ∧
  (∀ (n : StringId) (f g : Frame) (u : State) (s : State), receive n.val opBARRIER f s = (some g, u) → 29 ≤ hDest g.hdr →
    ∃ t, exec (.barrierFrame n f) s = .next t ∧
      t = freeCredit n.val (rxBuffer n.val g.hdr) (u.count Obj.unassignedSiteDiscards 1) ∧ t.mem = s.mem) ∧
  (∀ (n : StringId) (f g : Frame) (u : State) (s : State), receive n.val opBARRIER f s = (some g, u) → hDest g.hdr < 29 →
    hDest g.hdr ≠ (stringEnds n.val).2 →
    ∃ t, exec (.barrierFrame n f) s = .next t ∧
      t = freeCredit n.val (rxBuffer n.val g.hdr) (if hRelay g.hdr = true then forwardFrame ((stringEnds n.val).2) g u else
        u.count Obj.refusedAddresses 1) ∧ t.mem = s.mem) ∧
  (∀ (n : StringId) (f : Frame) (u : State) (s : State), receive n.val opSTATUS f s = (none, u) →
    ∃ t, exec (.statusFrame n f) s = .next t ∧
      t = u ∧ t.mem = s.mem) ∧
  (∀ (n : StringId) (f g : Frame) (u : State) (s : State), receive n.val opSTATUS f s = (some g, u) → 29 ≤ hDest g.hdr →
    ∃ t, exec (.statusFrame n f) s = .next t ∧
      t = freeCredit n.val (rxBuffer n.val g.hdr) (u.count Obj.unassignedSiteDiscards 1) ∧ t.mem = s.mem) ∧
  (∀ (n : StringId) (f g : Frame) (u : State) (s : State), receive n.val opSTATUS f s = (some g, u) → hDest g.hdr < 29 →
    hDest g.hdr ≠ (stringEnds n.val).2 →
    ∃ t, exec (.statusFrame n f) s = .next t ∧
      t = freeCredit n.val (rxBuffer n.val g.hdr) (if hRelay g.hdr = true then forwardFrame ((stringEnds n.val).2) g u else
        u.count Obj.refusedAddresses 1) ∧ t.mem = s.mem) ∧
  (∀ (n : StringId) (f : Frame) (u : State) (s : State), receive n.val opLAUNCH f s = (none, u) →
    ∃ t, exec (.launchFrame n f) s = .next t ∧
      t = u ∧ t.mem = s.mem) ∧
  (∀ (n : StringId) (f g : Frame) (u : State) (s : State), receive n.val opLAUNCH f s = (some g, u) → 29 ≤ hDest g.hdr →
    ∃ t, exec (.launchFrame n f) s = .next t ∧
      t = freeCredit n.val (rxBuffer n.val g.hdr) (u.count Obj.unassignedSiteDiscards 1) ∧ t.mem = s.mem) ∧
  (∀ (n : StringId) (f g : Frame) (u : State) (s : State), receive n.val opLAUNCH f s = (some g, u) → hDest g.hdr < 29 →
    hDest g.hdr ≠ (stringEnds n.val).2 →
    ∃ t, exec (.launchFrame n f) s = .next t ∧
      t = freeCredit n.val (rxBuffer n.val g.hdr) (if hRelay g.hdr = true then forwardFrame ((stringEnds n.val).2) g u else
        u.count Obj.refusedAddresses 1) ∧ t.mem = s.mem) ∧
  (∀ (site m : Nat) (f : Frame) (x : TxFrame) (s : State), m = primaryString site (hDest f.hdr) →
    x = { hdr := withLink f.hdr 0 0 0 0 0, payload := fitBytes 64 f.payload, slots := (relaySlots s f.hdr).map (·.2), win := (relaySlots s f.hdr).map (·.1) }
      →
    forwardFrame site f s = if 3 ≤ (s.str m).state ∧ (s.str m).state ≤ 5 then frameLost x (s.count Obj.relayedFrames 1) else
      enqueueFrame m x (s.count Obj.relayedFrames 1))

/-- An accepted WRITE at a compute site joins the inbound writes of its die, which land as the slots of open windows let
  them and otherwise after a grant of the port arbiter; one outside the site's areas, or for a page the die does not
  own, is refused and counted, and one at a die that is down is answered with its loss. At a DRAM stack it stores its
  bytes, is refused and counted outside the stack, and counts a lost transfer where the stack has failed; in hub SRAM it
  stores its bytes; a rim die takes it by its address. READ_DATA stores its bytes under its tag, which the last of them
  frees; without a tag a rim die's sum lands in the site's areas and other data are dropped. RPART enters the reduction
  of its die or rim die: the lowest contributing core's becomes the running sum, a later core's waits, and one for no
  target of an open window is refused and counted. A frame frees its buffer when it leaves it. -/
def Obligations.WriteFrames : Prop :=
  (∀ (n : StringId) (f g : Frame) (u : State) (s : State), receive n.val opWRITE f s = (some g, u) → hDest g.hdr =
    (stringEnds n.val).2 → hDest g.hdr < 29 → (stringEnds n.val).2 = hubSite →
    ∃ t, exec (.writeFrame n f) s = .next t ∧
      t = freeCredit n.val (rxBuffer n.val g.hdr) (writeHub (frameAddr g) (frameData g) u)) ∧
  (∀ (n : StringId) (f g : Frame) (u : State) (s : State), receive n.val opWRITE f s = (some g, u) → hDest g.hdr =
    (stringEnds n.val).2 → hDest g.hdr < 29 → (stringEnds n.val).2 = hubSite → (frameAddr g) + (frameData g).length ≤
    0x4000000 → (frameAddr g) ≠ traceBase ∨ (frameData g).length ≠ 48 →
    ∃ t, exec (.writeFrame n f) s = .next t ∧
      Stored (memKey ((stringEnds n.val).2) (frameAddr g)) (frameData g) s t) ∧
  (∀ (n : StringId) (f g : Frame) (u : State) (s : State), receive n.val opWRITE f s = (some g, u) → hDest g.hdr =
    (stringEnds n.val).2 → hDest g.hdr < 29 → 25 ≤ (stringEnds n.val).2 →
    ∃ t, exec (.writeFrame n f) s = .next t ∧
      t = freeCredit n.val (rxBuffer n.val g.hdr) (writeRim ((stringEnds n.val).2 - 25) (hSrc g.hdr) (frameAddr g) (frameData
        g) u)) ∧
  (∀ (n : StringId) (f g : Frame) (u : State) (d : Nat) (s : State), receive n.val opWRITE f s = (some g, u) → hDest g.hdr =
    (stringEnds n.val).2 → hDest g.hdr < 29 → siteDie ((stringEnds n.val).2) = some d → dieUp u d = false →
    ∃ t, exec (.writeFrame n f) s = .next t ∧
      t = lostBack ((stringEnds n.val).2) (hSrc g.hdr) (freeCredit n.val (rxBuffer n.val g.hdr) u) ∧ t.mem = s.mem) ∧
  (∀ (n : StringId) (f g : Frame) (u : State) (d : Nat) (s : State), receive n.val opWRITE f s = (some g, u) → hDest g.hdr =
    (stringEnds n.val).2 → hDest g.hdr < 29 → siteDie ((stringEnds n.val).2) = some d → dieUp u d = true → ¬(inArea
    (siteAreas ((stringEnds n.val).2) (lockedAreas u ((stringEnds n.val).2))) (frameAddr g) (frameData g).length = true ∧
    (dramHomeBase ≤ (frameAddr g) → ownsPages u d ((frameAddr g) - dramHomeBase) (frameData g).length = true)) →
    ∃ t, exec (.writeFrame n f) s = .next t ∧
      t = freeCredit n.val (rxBuffer n.val g.hdr) (u.count Obj.refusedAddresses 1) ∧ t.mem = s.mem) ∧
  (∀ (n : StringId) (f g : Frame) (u : State) (d : Nat) (x : InWrite) (v : State) (s : State), receive n.val opWRITE f s =
    (some g, u) → hDest g.hdr = (stringEnds n.val).2 → hDest g.hdr < 29 → siteDie ((stringEnds n.val).2) = some d → dieUp u d
    = true → inArea (siteAreas ((stringEnds n.val).2) (lockedAreas u ((stringEnds n.val).2))) (frameAddr g) (frameData
    g).length = true ∧ (dramHomeBase ≤ (frameAddr g) → ownsPages u d ((frameAddr g) - dramHomeBase) (frameData g).length =
    true) → x = { n := (u.die d).inN, port := portOf (frameAddr g), src := (hSrc g.hdr), addr := (frameAddr g), data := (frameData g), string := n.val, buf := (rxBuffer n.val g.hdr) }
    → v = u.setDie d { u.die d with inq := (u.die d).inq ++ [x], inN := (u.die d).inN + 1 } →
    ∃ t, exec (.writeFrame n f) s = .next t ∧
      t = settleInbound ((u.die d).inq.length + 1) d v) ∧
  (∀ (n : StringId) (f g : Frame) (u : State) (d : Nat) (x : InWrite) (v : State) (s : State), receive n.val opWRITE f s =
    (some g, u) → hDest g.hdr = (stringEnds n.val).2 → hDest g.hdr < 29 → siteDie ((stringEnds n.val).2) = some d → dieUp u d
    = true → inArea (siteAreas ((stringEnds n.val).2) (lockedAreas u ((stringEnds n.val).2))) (frameAddr g) (frameData
    g).length = true ∧ (dramHomeBase ≤ (frameAddr g) → ownsPages u d ((frameAddr g) - dramHomeBase) (frameData g).length =
    true) → x = { n := (u.die d).inN, port := portOf (frameAddr g), src := (hSrc g.hdr), addr := (frameAddr g), data := (frameData g), string := n.val, buf := (rxBuffer n.val g.hdr) }
    → v = u.setDie d { u.die d with inq := (u.die d).inq ++ [x], inN := (u.die d).inN + 1 } → ∀ y ∈ (u.die d).inq,
    windowRoute u d y.src = false → windowRoute u d (hSrc g.hdr) = false →
    ∃ t, exec (.writeFrame n f) s = .next t ∧
      t = v ∧ t.mem = s.mem) ∧
  (∀ (n : StringId) (f g : Frame) (u : State) (d : Nat) (x : InWrite) (v : State) (s : State), receive n.val opWRITE f s =
    (some g, u) → hDest g.hdr = (stringEnds n.val).2 → hDest g.hdr < 29 → siteDie ((stringEnds n.val).2) = some d → dieUp u d
    = true → inArea (siteAreas ((stringEnds n.val).2) (lockedAreas u ((stringEnds n.val).2))) (frameAddr g) (frameData
    g).length = true ∧ (dramHomeBase ≤ (frameAddr g) → ownsPages u d ((frameAddr g) - dramHomeBase) (frameData g).length =
    true) → x = { n := (u.die d).inN, port := portOf (frameAddr g), src := (hSrc g.hdr), addr := (frameAddr g), data := (frameData g), string := n.val, buf := (rxBuffer n.val g.hdr) }
    → v = u.setDie d { u.die d with inq := (u.die d).inq ++ [x], inN := (u.die d).inN + 1 } → (u.die d).inq = [] →
    windowRoute u d (hSrc g.hdr) = true →
    ∃ t, exec (.writeFrame n f) s = .next t ∧
      t = takeInbound d x v) ∧
  (∀ (n : StringId) (f g : Frame) (u : State) (d : Nat) (s : State), receive n.val opWRITE f s = (some g, u) → hDest g.hdr =
    (stringEnds n.val).2 → hDest g.hdr < 29 → siteDie ((stringEnds n.val).2) = some d → dieUp u d = true → inArea (siteAreas
    ((stringEnds n.val).2) (lockedAreas u ((stringEnds n.val).2))) (frameAddr g) (frameData g).length = true ∧ (dramHomeBase
    ≤ (frameAddr g) → ownsPages u d ((frameAddr g) - dramHomeBase) (frameData g).length = true) → (u.die d).inq = [] →
    windowRoute u d (hSrc g.hdr) = true → (frameAddr g) < dramHomeBase →
    ∃ t, exec (.writeFrame n f) s = .next t ∧
      Stored (memKey ((stringEnds n.val).2) (frameAddr g)) (frameData g) s t) ∧
  (∀ (n : StringId) (f g : Frame) (u : State) (k : Nat) (s : State), receive n.val opWRITE f s = (some g, u) → hDest g.hdr =
    (stringEnds n.val).2 → hDest g.hdr < 29 → siteStack ((stringEnds n.val).2) = some k →
    ∃ t, exec (.writeFrame n f) s = .next t ∧
      t = freeCredit n.val (rxBuffer n.val g.hdr) (if stackFailed u k = true then pathLost none u else if (frameAddr g) +
        (frameData g).length ≤ 0x1800000000 then storeClean (memKey ((stringEnds n.val).2) (frameAddr g)) (frameData g) u
        else u.count Obj.refusedAddresses 1)) ∧
  (∀ (n : StringId) (f g : Frame) (u : State) (k : Nat) (s : State), receive n.val opWRITE f s = (some g, u) → hDest g.hdr =
    (stringEnds n.val).2 → hDest g.hdr < 29 → siteStack ((stringEnds n.val).2) = some k → stackFailed s k = false →
    (frameAddr g) + (frameData g).length ≤ 0x1800000000 →
    ∃ t, exec (.writeFrame n f) s = .next t ∧
      Stored (memKey ((stringEnds n.val).2) (frameAddr g)) (frameData g) s t) ∧
  (∀ (n : StringId) (f g : Frame) (u : State) (tg : ReadTag) (v : State) (s : State), receive n.val opREADDATA f s = (some g,
    u) → hDest g.hdr = (stringEnds n.val).2 → hDest g.hdr < 29 → landingTag u ((stringEnds n.val).2) (frameAddr g) = some tg
    → v = landAt ((stringEnds n.val).2) (frameAddr g) (frameData g) u → (frameData g).length < tg.left →
    ∃ t, exec (.readDataFrame n f) s = .next t ∧
      t = freeCredit n.val (rxBuffer n.val g.hdr)
        ({ v with tags := v.tags.map (fun x => if x.site = (stringEnds n.val).2 ∧ x.tag = tg.tag then { tg with landing := (frameAddr g) + (frameData g).length, left := tg.left - (frameData g).length } else x) })) ∧
  (∀ (n : StringId) (f g : Frame) (u : State) (tg : ReadTag) (v w : State) (s : State), receive n.val opREADDATA f s = (some
    g, u) → hDest g.hdr = (stringEnds n.val).2 → hDest g.hdr < 29 → landingTag u ((stringEnds n.val).2) (frameAddr g) = some
    tg → v = landAt ((stringEnds n.val).2) (frameAddr g) (frameData g) u → w =
    { v with tags := v.tags.filter (fun x => !(x.site == (stringEnds n.val).2 && x.tag == tg.tag)) } → tg.left ≤ (frameData
    g).length →
    ∃ t, exec (.readDataFrame n f) s = .next t ∧
      t = freeCredit n.val (rxBuffer n.val g.hdr) (if tg.purpose = 0 then fillLanded ((stringEnds n.val).2) tg.arg w else if
        tg.purpose = 1 then opLanded tg.arg tg.tag w else w)) ∧
  (∀ (n : StringId) (f g : Frame) (u : State) (tg : ReadTag) (s : State), receive n.val opREADDATA f s = (some g, u) → hDest
    g.hdr = (stringEnds n.val).2 → hDest g.hdr < 29 → landingTag u ((stringEnds n.val).2) (frameAddr g) = some tg →
    tg.purpose ≠ 1 →
    ∃ t, exec (.readDataFrame n f) s = .next t ∧
      Stored (memKey ((stringEnds n.val).2) (frameAddr g)) (frameData g) s t) ∧
  (∀ (n : StringId) (f g : Frame) (u : State) (s : State), receive n.val opREADDATA f s = (some g, u) → hDest g.hdr =
    (stringEnds n.val).2 → hDest g.hdr < 29 → landingTag u ((stringEnds n.val).2) (frameAddr g) = none →
    ∃ t, exec (.readDataFrame n f) s = .next t ∧
      t = freeCredit n.val (rxBuffer n.val g.hdr) (if 25 ≤ (hSrc g.hdr) ∧ (hSrc g.hdr) < 29 ∧ inArea (siteAreas ((stringEnds
        n.val).2) (lockedAreas u ((stringEnds n.val).2))) (frameAddr g) (frameData g).length = true then landAt ((stringEnds
        n.val).2) (frameAddr g) (frameData g) u else u)) ∧
  (∀ (n : StringId) (f g : Frame) (u : State) (d : Nat) (s : State), receive n.val opRPART f s = (some g, u) → hDest g.hdr =
    (stringEnds n.val).2 → hDest g.hdr < 29 → siteDie ((stringEnds n.val).2) = some d → dieUp u d = true →
    ∃ t, exec (.rpart n f) s = .next t ∧
      t = rpartArrive d (memKey ((stringEnds n.val).2) (64 * hUnit g.hdr)) (hLength g.hdr) (if hRelay g.hdr = true ∧
        (stringEnds n.val).1 ≠ hSrc g.hdr then 0 else 2) n.val (fitBytes 64 g.payload) u) ∧
  (∀ (n : StringId) (f g : Frame) (u : State) (d : Nat) (s : State), receive n.val opRPART f s = (some g, u) → hDest g.hdr =
    (stringEnds n.val).2 → hDest g.hdr < 29 → siteDie ((stringEnds n.val).2) = some d → dieUp u d = false →
    ∃ t, exec (.rpart n f) s = .next t ∧
      t = freeCredit n.val (rxBuffer n.val g.hdr) (lostBack ((stringEnds n.val).2) (hSrc g.hdr) u)) ∧
  (∀ (n : StringId) (f g : Frame) (u : State) (s : State), receive n.val opRPART f s = (some g, u) → hDest g.hdr =
    (stringEnds n.val).2 → hDest g.hdr < 29 → 25 ≤ (stringEnds n.val).2 →
    ∃ t, exec (.rpart n f) s = .next t ∧
      t = rpartRim n.val ((stringEnds n.val).2) g u) ∧
  (∀ (n : StringId) (f g : Frame) (u : State) (s : State), receive n.val opRPART f s = (some g, u) → hDest g.hdr =
    (stringEnds n.val).2 → hDest g.hdr < 29 → siteDie ((stringEnds n.val).2) = none → (stringEnds n.val).2 < 25 →
    ∃ t, exec (.rpart n f) s = .next t ∧
      t = freeCredit n.val (rxBuffer n.val g.hdr) (u.count Obj.refusedAddresses 1) ∧ t.mem = s.mem) ∧
  (∀ (die key core kind id : Nat) (payload : Bytes) (s : State), reduceTarget s die key = none → rpartArrive die key core
    kind id payload s = releasePartial core kind id (s.count Obj.refusedAddresses 1)) ∧
  (∀ (die key core kind id : Nat) (payload : Bytes) (s : State) (tg : RedTarget), reduceTarget s die key = some tg →
    (redChunk s tg key).added.getLsbD core = true ∨ tg.mask.getLsbD core = false ∨ (redChunk s tg key).wait.any (fun w => w.1
      == core) = true →
    rpartArrive die key core kind id payload s = releasePartial core kind id (s.count Obj.refusedAddresses 1)) ∧
  (∀ (n : StringId) (f g : Frame) (u : State) (d : Nat) (tg : RedTarget) (s : State), receive n.val opRPART f s = (some g, u)
    → hDest g.hdr = (stringEnds n.val).2 → hDest g.hdr < 29 → siteDie ((stringEnds n.val).2) = some d → dieUp u d = true →
    reduceTarget u d (memKey ((stringEnds n.val).2) (64 * hUnit g.hdr)) = some tg → tg.die = d → tg.addr = (memKey
    ((stringEnds n.val).2) (64 * hUnit g.hdr)) → (u.die d).chunks = [] → (u.die d).redq = [] → tg.mask.getLsbD (hLength
    g.hdr) = true → nextContributor tg.mask 0 = some (hLength g.hdr) → tg.mask ≠ BitVec.ofNat 64 (2 ^ (hLength g.hdr)) →
    ∃ t, exec (.rpart n f) s = .next t ∧
      redChunk t tg (memKey ((stringEnds n.val).2) (64 * hUnit g.hdr)) =
        { win := tg.win, addr := (memKey ((stringEnds n.val).2) (64 * hUnit g.hdr)), added := BitVec.ofNat 64 (2 ^ (hLength g.hdr)), sum := fitBytes 64 g.payload, wait := [] }
        ∧ t.obj Obj.rpartFramesAdded = (s.obj Obj.rpartFramesAdded + 1) % 2 ^ objBits Obj.rpartFramesAdded ∧ t.mem = s.mem) ∧
  (∀ (n : StringId) (f g : Frame) (u : State) (d : Nat) (tg : RedTarget) (s : State), receive n.val opRPART f s = (some g, u)
    → hDest g.hdr = (stringEnds n.val).2 → hDest g.hdr < 29 → siteDie ((stringEnds n.val).2) = some d → dieUp u d = true →
    reduceTarget u d (memKey ((stringEnds n.val).2) (64 * hUnit g.hdr)) = some tg → tg.die = d → tg.addr = (memKey
    ((stringEnds n.val).2) (64 * hUnit g.hdr)) → (u.die d).chunks = [] → (u.die d).redq = [] → tg.mask.getLsbD (hLength
    g.hdr) = true → nextContributor tg.mask 0 ≠ some (hLength g.hdr) →
    ∃ t, exec (.rpart n f) s = .next t ∧
      (redChunk t tg (memKey ((stringEnds n.val).2) (64 * hUnit g.hdr))).added = 0 ∧ (∃ w ∈ (redChunk t tg (memKey
        ((stringEnds n.val).2) (64 * hUnit g.hdr))).wait, w.1 = (hLength g.hdr) ∧ w.2.2.2 = fitBytes 64 g.payload) ∧ t.mem =
        s.mem)

/-- READ_REQ is answered by what its target gives: data in READ_DATA frames in address order, or a STATUS, or both where die
  memory was in error; what is refused is counted, and nothing goes to sites 29 to 31. The target answers path-lost at a
  die or stack that is down, refused outside its areas, not owner for a page of another die, and uncorrectable for a bad
  word. STATUS frees its tag and counts a path-lost transfer; one for a work item ends its window there and one for a
  rim die's access fails it. FLAG and BARRIER take effect in their core, unless sums or writes of their source are open,
  behind which they wait; at a core that is in no window, or for another window, they change nothing; at a die that is
  down they are answered with its loss. LAUNCH keeps the launch record of its window. Elsewhere they are refused and
  counted. Each frees its buffer. -/
def Obligations.OtherFrames : Prop :=
  (∀ (n : StringId) (f g : Frame) (u : State) (s : State), receive n.val opREADREQ f s = (some g, u) → hDest g.hdr =
    (stringEnds n.val).2 → hDest g.hdr < 29 → 29 ≤ (hSrc g.hdr) →
    ∃ t, exec (.readReq n f) s = .next t ∧
      t = freeCredit n.val (rxBuffer n.val g.hdr) (u)) ∧
  (∀ (n : StringId) (f g : Frame) (u : State) (r : (Option Bytes × Nat) × State) (v w : State) (b : Bytes) (s : State),
    receive n.val opREADREQ f s = (some g, u) → hDest g.hdr = (stringEnds n.val).2 → hDest g.hdr < 29 → (hSrc g.hdr) < 29 → r
    = readTarget ((stringEnds n.val).2) (hSrc g.hdr) (frameAddr g) (min (leAt g.payload 5 2 + 1) 4096) u → v = (if r.1.2 = 3
    ∨ r.1.2 = 4 then r.2.count Obj.refusedAddresses 1 else r.2) → w = (if r.1.2 = 0 then v else sendBack ((stringEnds
    n.val).2) (hSrc g.hdr) (hUnit g.hdr) opSTATUS 63 0 0 (leBytes 1 r.1.2 ++ leBytes 4 (leAt g.payload 7 1)) v) → b =
    r.1.1.getD [] →
    ∃ t, exec (.readReq n f) s = .next t ∧
      t = freeCredit n.val (rxBuffer n.val g.hdr) ((List.range (ceilDiv b.length 64)).foldl (fun y i => sendBack ((stringEnds
        n.val).2) (hSrc g.hdr) (hUnit g.hdr) opREADDATA (((b.drop (64 * i)).take 64).length - 1) 0 (leAt g.payload 0 5 % 2 ^
        35 + i) ((b.drop (64 * i)).take 64) y) w)) ∧
  (∀ (n : StringId) (f g : Frame) (u : State) (s : State), receive n.val opREADREQ f s = (some g, u) → hDest g.hdr =
    (stringEnds n.val).2 → hDest g.hdr < 29 → (hSrc g.hdr) < 29 → (stringEnds n.val).2 = hubSite → (frameAddr g) + (min (leAt
    g.payload 5 2 + 1) 4096) ≤ 0x4000000 → (min (leAt g.payload 5 2 + 1) 4096) ≤ 64 →
    ∃ t, exec (.readReq n f) s = .next t ∧
      t = freeCredit n.val (rxBuffer n.val g.hdr) (sendBack hubSite (hSrc g.hdr) (hUnit g.hdr) opREADDATA ((min (leAt
        g.payload 5 2 + 1) 4096) - 1) 0 (leAt g.payload 0 5 % 2 ^ 35) (s.load (memKey hubSite (frameAddr g)) (min (leAt
        g.payload 5 2 + 1) 4096)) u) ∧ t.mem = s.mem) ∧
  (∀ (n : StringId) (f g : Frame) (u : State) (s : State), receive n.val opREADREQ f s = (some g, u) → hDest g.hdr =
    (stringEnds n.val).2 → hDest g.hdr < 29 → (hSrc g.hdr) < 29 → (stringEnds n.val).2 = hubSite → 0x4000000 < (frameAddr g)
    + (min (leAt g.payload 5 2 + 1) 4096) →
    ∃ t, exec (.readReq n f) s = .next t ∧
      t = freeCredit n.val (rxBuffer n.val g.hdr) (sendBack hubSite (hSrc g.hdr) (hUnit g.hdr) opSTATUS 63 0 0 (leBytes 1 3
        ++ leBytes 4 (leAt g.payload 7 1)) (u.count Obj.refusedAddresses 1)) ∧ t.mem = s.mem) ∧
  (∀ (site src addr n : Nat) (s : State) (d : Nat), siteDie site = some d → dieUp s d = false → readTarget site src addr n s
    = ((none, 1), s)) ∧
  (∀ (site src addr n : Nat) (s : State) (d : Nat), siteDie site = some d → dieUp s d = true → inArea (siteAreas site
    (lockedAreas s site)) addr n = false → readTarget site src addr n s = ((none, 3), s)) ∧
  (∀ (site src addr n : Nat) (s : State) (d : Nat), siteDie site = some d → dieUp s d = true → inArea (siteAreas site
    (lockedAreas s site)) addr n = true → dramHomeBase ≤ addr → ownsPages s d (addr - dramHomeBase) n = false →
    readTarget site src addr n s = ((none, 4), s)) ∧
  (∀ (site src addr n : Nat) (s : State) (d : Nat), siteDie site = some d → dieUp s d = true → inArea (siteAreas site
    (lockedAreas s site)) addr n = true → dramHomeBase ≤ addr → memFail s site addr n = none →
    readTarget site src addr n s = ((some (siteRead s site addr n), 0), siteTouch site addr n s)) ∧
  (∀ (site src addr n : Nat) (s : State) (d : Nat), siteDie site = some d → dieUp s d = true → inArea (siteAreas site
    (lockedAreas s site)) addr n = true → addr < dramHomeBase → ¬(dieSramBase ≤ addr ∧ addr < dieSramBase + dieSramSize) →
    readTarget site src addr n s = if rangeBad s (memKey site addr) n then ((some (s.load (memKey site addr) n), 2), sramBad
      site addr s) else ((some (s.load (memKey site addr) n), 0), sramRead addr s)) ∧
  (∀ (site src addr n : Nat) (s : State) (k : Nat), siteStack site = some k → addr + n ≤ 0x1800000000 →
    readTarget site src addr n s = if stackFailed s k then ((none, 1), s) else if rangeBad s (memKey site addr) n then
      ((none, 2), uncorrectable (offsetHome k addr) s) else ((some (s.load (memKey site addr) n), 0), demandRead k addr s)) ∧
  (∀ (n : StringId) (f g : Frame) (u : State) (s : State), receive n.val opSTATUS f s = (some g, u) → hDest g.hdr =
    (stringEnds n.val).2 → hDest g.hdr < 29 → hUnit g.hdr = 1 →
    ∃ t, exec (.statusFrame n f) s = .next t ∧
      t = freeCredit n.val (rxBuffer n.val g.hdr) (if (leAt g.payload 0 1) ≠ 1 then u else if 25 ≤ (stringEnds n.val).2 then
        opFail (leAt g.payload 1 4) 1 0 u else lostHere ((stringEnds n.val).2) (leAt g.payload 1 4) u)) ∧
  (∀ (n : StringId) (f g : Frame) (u : State) (v : State) (s : State), receive n.val opSTATUS f s = (some g, u) → hDest g.hdr
    = (stringEnds n.val).2 → hDest g.hdr < 29 → hUnit g.hdr ≠ 1 → v = readEnds ((stringEnds n.val).2) (leAt g.payload 1 4)
    (leAt g.payload 0 1) (if (leAt g.payload 0 1) = 1 then u.count Obj.pathLostTransfers 1 else u) →
    ∃ t, exec (.statusFrame n f) s = .next t ∧
      t = freeCredit n.val (rxBuffer n.val g.hdr) (settleOps (opFuel v) v)) ∧
  (∀ (n : StringId) (f g : Frame) (u : State) (tg : ReadTag) (s : State), receive n.val opSTATUS f s = (some g, u) → hDest
    g.hdr = (stringEnds n.val).2 → hDest g.hdr < 29 → hUnit g.hdr ≠ 1 → u.rmem.ops = [] → u.tags.find? (fun x => x.site ==
    (stringEnds n.val).2 && x.tag == (leAt g.payload 1 4)) = some tg → tg.purpose = 2 → (leAt g.payload 0 1) = 1 →
    ∃ t, exec (.statusFrame n f) s = .next t ∧
      t.tags = s.tags.filter (fun x => !(x.site == (stringEnds n.val).2 && x.tag == (leAt g.payload 1 4))) ∧ t.mem = s.mem) ∧
  (∀ (n : StringId) (f g : Frame) (u : State) (s : State), receive n.val opFLAG f s = (some g, u) → hDest g.hdr = (stringEnds
    n.val).2 → hDest g.hdr < 29 → siteDie ((stringEnds n.val).2) = none ∨ siteDie (hSrc g.hdr) = none →
    ∃ t, exec (.flagFrame n f) s = .next t ∧
      t = freeCredit n.val (rxBuffer n.val g.hdr) (u.count Obj.refusedAddresses 1) ∧ t.mem = s.mem) ∧
  (∀ (n : StringId) (f g : Frame) (u : State) (d src : Nat) (s : State), receive n.val opFLAG f s = (some g, u) → hDest g.hdr
    = (stringEnds n.val).2 → hDest g.hdr < 29 → siteDie ((stringEnds n.val).2) = some d → siteDie (hSrc g.hdr) = some src →
    dieUp u d = false →
    ∃ t, exec (.flagFrame n f) s = .next t ∧
      t = freeCredit n.val (rxBuffer n.val g.hdr) (lostBack ((stringEnds n.val).2) (hSrc g.hdr) u) ∧ t.mem = s.mem) ∧
  (∀ (n : StringId) (f g : Frame) (u : State) (d src : Nat) (s : State), receive n.val opFLAG f s = (some g, u) → hDest g.hdr
    = (stringEnds n.val).2 → hDest g.hdr < 29 → siteDie ((stringEnds n.val).2) = some d → siteDie (hSrc g.hdr) = some src →
    dieUp u d = true → (u.core (4 * d + (frameAddr g) / 0x4000000 % 4)).state ≠ 1 →
    ∃ t, exec (.flagFrame n f) s = .next t ∧
      t = freeCredit n.val (rxBuffer n.val g.hdr) (u) ∧ t.mem = s.mem) ∧
  (∀ (n : StringId) (f g : Frame) (u : State) (d src : Nat) (x : FlagWait) (s : State), receive n.val opFLAG f s = (some g,
    u) → hDest g.hdr = (stringEnds n.val).2 → hDest g.hdr < 29 → siteDie ((stringEnds n.val).2) = some d → siteDie (hSrc
    g.hdr) = some src → dieUp u d = true → ¬((u.core (4 * d + (frameAddr g) / 0x4000000 % 4)).state ≠ 1) → x =
    { core := (4 * d + (frameAddr g) / 0x4000000 % 4), num := leAt g.payload 0 1 % 64, value := BitVec.ofNat 32 (leAt g.payload 1 4), src := none, deps := openSums u d (fun i => coreDie i == src), writes := openWrites u d (hSrc g.hdr) }
    →
    ∃ t, exec (.flagFrame n f) s = .next t ∧
      t = freeCredit n.val (rxBuffer n.val g.hdr) (holdFlag d x (beatTick u (4 * d + (frameAddr g) / 0x4000000 % 4)) u) ∧
        t.mem = s.mem) ∧
  (∀ (n : StringId) (f g : Frame) (u : State) (s : State), receive n.val opBARRIER f s = (some g, u) → hDest g.hdr =
    (stringEnds n.val).2 → hDest g.hdr < 29 → siteDie ((stringEnds n.val).2) = none ∨ siteDie (hSrc g.hdr) = none →
    ∃ t, exec (.barrierFrame n f) s = .next t ∧
      t = freeCredit n.val (rxBuffer n.val g.hdr) (u.count Obj.refusedAddresses 1) ∧ t.mem = s.mem) ∧
  (∀ (n : StringId) (f g : Frame) (u : State) (d src : Nat) (s : State), receive n.val opBARRIER f s = (some g, u) → hDest
    g.hdr = (stringEnds n.val).2 → hDest g.hdr < 29 → siteDie ((stringEnds n.val).2) = some d → siteDie (hSrc g.hdr) = some
    src → dieUp u d = false →
    ∃ t, exec (.barrierFrame n f) s = .next t ∧
      t = freeCredit n.val (rxBuffer n.val g.hdr) (lostBack ((stringEnds n.val).2) (hSrc g.hdr) u) ∧ t.mem = s.mem) ∧
  (∀ (n : StringId) (f g : Frame) (u : State) (d src : Nat) (s : State), receive n.val opBARRIER f s = (some g, u) → hDest
    g.hdr = (stringEnds n.val).2 → hDest g.hdr < 29 → siteDie ((stringEnds n.val).2) = some d → siteDie (hSrc g.hdr) = some
    src → dieUp u d = true → (u.core (4 * d + (frameAddr g) / 0x4000000 % 4)).state ≠ 1 ∨ windowIdOf u (4 * d + (frameAddr g)
    / 0x4000000 % 4) ≠ (leAt g.payload 1 4) →
    ∃ t, exec (.barrierFrame n f) s = .next t ∧
      t = freeCredit n.val (rxBuffer n.val g.hdr) (u) ∧ t.mem = s.mem) ∧
  (∀ (n : StringId) (f g : Frame) (u : State) (d src : Nat) (x : FlagWait) (s : State), receive n.val opBARRIER f s = (some
    g, u) → hDest g.hdr = (stringEnds n.val).2 → hDest g.hdr < 29 → siteDie ((stringEnds n.val).2) = some d → siteDie (hSrc
    g.hdr) = some src → dieUp u d = true → ¬((u.core (4 * d + (frameAddr g) / 0x4000000 % 4)).state ≠ 1 ∨ windowIdOf u (4 * d
    + (frameAddr g) / 0x4000000 % 4) ≠ (leAt g.payload 1 4)) → x =
    { core := (4 * d + (frameAddr g) / 0x4000000 % 4), num := leAt g.payload 0 1, value := 0, src := some src, deps := openSums u d (fun i => coreDie i == src), writes := openWrites u d (hSrc g.hdr) }
    →
    ∃ t, exec (.barrierFrame n f) s = .next t ∧
      t = freeCredit n.val (rxBuffer n.val g.hdr) (holdFlag d x (beatTick u (4 * d + (frameAddr g) / 0x4000000 % 4)) u) ∧
        t.mem = s.mem) ∧
  (∀ (n : StringId) (f g : Frame) (u : State) (d src : Nat) (s : State), receive n.val opFLAG f s = (some g, u) → hDest g.hdr
    = (stringEnds n.val).2 → hDest g.hdr < 29 → siteDie ((stringEnds n.val).2) = some d → dieUp u d = true → siteDie (hSrc
    g.hdr) = some src → (u.core (4 * d + (frameAddr g) / 0x4000000 % 4)).state = 1 → openSums u d (fun i => coreDie i == src)
    = [] → openWrites u d (hSrc g.hdr) = [] →
    ∃ t, exec (.flagFrame n f) s = .next t ∧
      t = freeCredit n.val (rxBuffer n.val g.hdr) (u.setCore (4 * d + (frameAddr g) / 0x4000000 % 4)
        { u.core (4 * d + (frameAddr g) / 0x4000000 % 4) with flagIn := addFlag (beatTick u (4 * d + (frameAddr g) / 0x4000000 % 4), leAt g.payload 0 1 % 64, BitVec.ofNat 32 (leAt g.payload 1 4)) (u.core (4 * d + (frameAddr g) / 0x4000000 % 4)).flagIn })) ∧
  (∀ (n : StringId) (f g : Frame) (u : State) (d src j : Nat) (s : State), receive n.val opBARRIER f s = (some g, u) → hDest
    g.hdr = (stringEnds n.val).2 → hDest g.hdr < 29 → siteDie ((stringEnds n.val).2) = some d → dieUp u d = true → siteDie
    (hSrc g.hdr) = some src → (u.core (4 * d + (frameAddr g) / 0x4000000 % 4)).state = 1 → openSums u d (fun i => coreDie i
    == src) = [] → openWrites u d (hSrc g.hdr) = [] → windowIdOf u (4 * d + (frameAddr g) / 0x4000000 % 4) = (leAt g.payload
    1 4) → (List.range 4).find? (fun j => ((((u.core (4 * d + (frameAddr g) / 0x4000000 % 4)).win.bind u.win).map (fun (w :
    Win) => w.barriers.getD (leAt g.payload 0 1) 0)).getD 0).getLsbD (4 * src + j) && !(tget 0 (leAt g.payload 0 1) (u.core
    (4 * d + (frameAddr g) / 0x4000000 % 4)).arrivals).getLsbD (4 * src + j)) = some j →
    ∃ t, exec (.barrierFrame n f) s = .next t ∧
      t = freeCredit n.val (rxBuffer n.val g.hdr) (arrive (4 * d + (frameAddr g) / 0x4000000 % 4) (leAt g.payload 0 1) (4 *
        src + j) u) ∧ (tget 0 (leAt g.payload 0 1) (t.core (4 * d + (frameAddr g) / 0x4000000 % 4)).arrivals).getLsbD (4 *
        src + j) = true) ∧
  (∀ (n : StringId) (f g : Frame) (u : State) (d : Nat) (s : State), receive n.val opLAUNCH f s = (some g, u) → hDest g.hdr =
    (stringEnds n.val).2 → hDest g.hdr < 29 → siteDie ((stringEnds n.val).2) = some d → dieUp u d = true →
    ∃ t, exec (.launchFrame n f) s = .next t ∧
      t = freeCredit n.val (rxBuffer n.val g.hdr) (u.setDie d
        { u.die d with launches := (u.die d).launches.filter (fun x => x.1 != leAt g.payload 0 4) ++ [(leAt g.payload 0 4, leAt g.payload 4 8, leAt g.payload 12 8)] })) ∧
  (∀ (n : StringId) (f g : Frame) (u : State) (d : Nat) (s : State), receive n.val opLAUNCH f s = (some g, u) → hDest g.hdr =
    (stringEnds n.val).2 → hDest g.hdr < 29 → siteDie ((stringEnds n.val).2) = some d → dieUp u d = false →
    ∃ t, exec (.launchFrame n f) s = .next t ∧
      t = freeCredit n.val (rxBuffer n.val g.hdr) (pathLost none u)) ∧
  (∀ (n : StringId) (f g : Frame) (u : State) (s : State), receive n.val opLAUNCH f s = (some g, u) → hDest g.hdr =
    (stringEnds n.val).2 → hDest g.hdr < 29 → siteDie ((stringEnds n.val).2) = none →
    ∃ t, exec (.launchFrame n f) s = .next t ∧
      t = freeCredit n.val (rxBuffer n.val g.hdr) (u.count Obj.refusedAddresses 1) ∧ t.mem = s.mem)

/-- Nothing is taken at a serving port that is not up. OPEN of an enabled tenant with its key and no reason to refuse adds a
  session under the next number and sends ACCEPT as record 0; one refused is answered outside any session and counted;
  one not authenticated is dropped and counted, as is any other record without its session. A numbered record out of
  order only leaves an ACK due; one in order is acknowledged by what follows, its ack releases records and lets queued
  ones leave, and then its kind acts: a reserved kind is counted, CLOSE marks the session closing, cancels its requests,
  and ends the session once nothing is left. A SERVE_ACK above the last is taken. SERVE_RESEND sends again what has left
  and waited too long, ACK_DUE sends the ACK that is owed, SESSION_TIMEOUT cancels and removes a session without
  progress. An IPv4 frame is counted; an echo request and a solicitation of the port's address are answered. Otherwise
  these change nothing. -/
def Obligations.ServingSessions : Prop :=
  (∀ (d : Dgram) (s : State), servePortUp s d.port.val = false →
    ∃ t, exec (.request d) s = .next t ∧
      t = s) ∧
  (∀ (d : Dgram) (s : State), servePortUp s d.port.val = false →
    ∃ t, exec (.prompt d) s = .next t ∧
      t = s) ∧
  (∀ (d : Dgram) (s : State), servePortUp s d.port.val = false →
    ∃ t, exec (.cancel d) s = .next t ∧
      t = s) ∧
  (∀ (d : Dgram) (s : State), servePortUp s d.port.val = false →
    ∃ t, exec (.close d) s = .next t ∧
      t = s) ∧
  (∀ (d : Dgram) (s : State), servePortUp s d.port.val = false →
    ∃ t, exec (.reservedKind d) s = .next t ∧
      t = s) ∧
  (∀ (d : Dgram) (s : State), servePortUp s d.port.val = false →
    ∃ t, exec (.serveAck d) s = .next t ∧
      t = s) ∧
  (∀ (d : Dgram) (s : State), servePortUp s d.port.val = false →
    ∃ t, exec (.openSession d) s = .next t ∧
      t = s) ∧
  (∀ (d : Dgram) (lim : Nat × Nat × Nat) (u : State) (s : State), servePortUp s d.port.val = true → datagramKnown s d = true
    → s.objB (tenantKeyOf Obj.tenantKey d.tenant.toNat) = d.key → openCode s d = 0 → lim = acceptLimits s d.tenant.toNat → u
    = { s with serve := { s.serve with nextSess := s.serve.nextSess + 1, sessions := s.serve.sessions ++ [{ num := s.serve.nextSess, tenant := d.tenant.toNat, port := d.port.val, key := d.key }] } }
    →
    ∃ t, exec (.openSession d) s = .next t ∧
      t = serveSend s.serve.nextSess 0x02 (leBytes 1 1 ++ leBytes 2 lim.1 ++ leBytes 1 lim.2.1 ++ leBytes 1 lim.2.2 ++
        leBytes 3 0) u) ∧
  (∀ (d : Dgram) (s : State), servePortUp s d.port.val = true → datagramKnown s d = true → s.objB (tenantKeyOf Obj.tenantKey
    d.tenant.toNat) = d.key → openCode s d = 0 → sessOf s s.serve.nextSess = none → 0 < s.obj Obj.serveWindowRecords →
    ∃ t, exec (.openSession d) s = .next t ∧
      (∃ q, t.serve.sessions = s.serve.sessions ++ [q] ∧ q.num = s.serve.nextSess ∧ q.tenant = d.tenant.toNat ∧ q.port =
        d.port.val ∧ q.key = d.key ∧ q.rxNext = 0 ∧
        q.txNext = 1 ∧ q.unacked.map (fun r => (r.seq, r.kind)) = [(0, 0x02)]) ∧ t.serve.nextSess = s.serve.nextSess + 1 ∧
          t.out.length = s.out.length + 1 ∧ Untouched [] s t ∧
      t = { s with serve := t.serve, out := t.out, free := t.free }) ∧
  (∀ (d : Dgram) (s : State), servePortUp s d.port.val = true → datagramKnown s d = true → s.objB (tenantKeyOf Obj.tenantKey
    d.tenant.toNat) = d.key → openCode s d ≠ 0 →
    ∃ t, exec (.openSession d) s = .next t ∧
      t.serve = s.serve ∧ t.obj Obj.serveRefusals = (s.obj Obj.serveRefusals + 1) % 2 ^ objBits Obj.serveRefusals ∧ Untouched
        [Obj.serveRefusals] s t ∧
      t.out = s.out ++ [.serve d.port.val (serveHeader 0x08 d.tenant.toNat 0xFFFFFFFF (d.seq.toNat % 2 ^ 62)
        s.freeWord.toNat) (serveNonce 0xFFFFFFFF (d.seq.toNat % 2 ^ 62)) (leBytes 4 0 ++ leBytes 2 (openCode s d))] ∧
      t = { s with od := t.od, out := t.out, free := t.free }) ∧
  (∀ (d : Dgram) (s : State), servePortUp s d.port.val = true → datagramKnown s d = false ∨ ¬(s.objB (tenantKeyOf
    Obj.tenantKey d.tenant.toNat) = d.key) →
    ∃ t, exec (.openSession d) s = .next t ∧
      t = s.count Obj.serveAuthDrops 1) ∧
  (∀ (d : Dgram) (s : State), servePortUp s d.port.val = true → datagramSession s d = none →
    ∃ t, exec (.request d) s = .next t ∧
      t = s.count Obj.serveAuthDrops 1) ∧
  (∀ (d : Dgram) (s : State), servePortUp s d.port.val = true → datagramSession s d = none →
    ∃ t, exec (.prompt d) s = .next t ∧
      t = s.count Obj.serveAuthDrops 1) ∧
  (∀ (d : Dgram) (s : State), servePortUp s d.port.val = true → datagramSession s d = none →
    ∃ t, exec (.cancel d) s = .next t ∧
      t = s.count Obj.serveAuthDrops 1) ∧
  (∀ (d : Dgram) (s : State), servePortUp s d.port.val = true → datagramSession s d = none →
    ∃ t, exec (.close d) s = .next t ∧
      t = s.count Obj.serveAuthDrops 1) ∧
  (∀ (d : Dgram) (s : State), servePortUp s d.port.val = true → datagramSession s d = none →
    ∃ t, exec (.reservedKind d) s = .next t ∧
      t = s.count Obj.serveAuthDrops 1) ∧
  (∀ (d : Dgram) (s : State), servePortUp s d.port.val = true → datagramSession s d = none →
    ∃ t, exec (.serveAck d) s = .next t ∧
      t = s.count Obj.serveAuthDrops 1) ∧
  (∀ (d : Dgram) (q : Sess) (s : State), servePortUp s d.port.val = true → datagramSession s d = some q → d.seq.toNat % 2 ^
    63 ≠ q.rxNext →
    ∃ t, exec (.request d) s = .next t ∧
      t = modSess q.num (fun x => { x with due := true }) s) ∧
  (∀ (d : Dgram) (q : Sess) (s : State), servePortUp s d.port.val = true → datagramSession s d = some q → d.seq.toNat % 2 ^
    63 ≠ q.rxNext →
    ∃ t, exec (.prompt d) s = .next t ∧
      t = modSess q.num (fun x => { x with due := true }) s) ∧
  (∀ (d : Dgram) (q : Sess) (s : State), servePortUp s d.port.val = true → datagramSession s d = some q → d.seq.toNat % 2 ^
    63 ≠ q.rxNext →
    ∃ t, exec (.cancel d) s = .next t ∧
      t = modSess q.num (fun x => { x with due := true }) s) ∧
  (∀ (d : Dgram) (q : Sess) (s : State), servePortUp s d.port.val = true → datagramSession s d = some q → d.seq.toNat % 2 ^
    63 ≠ q.rxNext →
    ∃ t, exec (.close d) s = .next t ∧
      t = modSess q.num (fun x => { x with due := true }) s) ∧
  (∀ (d : Dgram) (q : Sess) (s : State), servePortUp s d.port.val = true → datagramSession s d = some q → d.seq.toNat % 2 ^
    63 ≠ q.rxNext →
    ∃ t, exec (.reservedKind d) s = .next t ∧
      t = modSess q.num (fun x => { x with due := true }) s) ∧
  (∀ (d : Dgram) (q x : Sess) (u : State) (s : State), servePortUp s d.port.val = true → datagramSession s d = some q →
    d.seq.toNat % 2 ^ 63 = q.rxNext → u = takeAck q.num d.ack.toNat (modSess q.num (fun x =>
    { x with rxNext := x.rxNext + 1 }) (modSess q.num (fun x => { x with due := true }) s)) → sessOf u q.num = some x →
    ∃ t, exec (.reservedKind d) s = .next t ∧
      t = u.count Obj.serveKindDrops 1) ∧
  (∀ (d : Dgram) (q : Sess) (s : State), servePortUp s d.port.val = true → datagramSession s d = some q → d.seq.toNat % 2 ^
    63 = q.rxNext → q.unacked = [] →
    ∃ t, exec (.reservedKind d) s = .next t ∧
      (∃ x, sessOf t q.num = some x ∧ x.rxNext = q.rxNext + 1) ∧ t.obj Obj.serveKindDrops = (s.obj Obj.serveKindDrops + 1) %
        2 ^ objBits Obj.serveKindDrops ∧ Untouched [Obj.serveKindDrops] s t ∧
      t = { s with od := t.od, serve := t.serve }) ∧
  (∀ (d : Dgram) (q x : Sess) (u : State) (s : State), servePortUp s d.port.val = true → datagramSession s d = some q →
    d.seq.toNat % 2 ^ 63 = q.rxNext → u = takeAck q.num d.ack.toNat (modSess q.num (fun x =>
    { x with rxNext := x.rxNext + 1 }) (modSess q.num (fun x => { x with due := true }) s)) → sessOf u q.num = some x →
    ∃ t, exec (.close d) s = .next t ∧
      t = closeSession x.num (cancelSession x.num (modSess x.num (fun y => { y with closing := true }) u))) ∧
  (∀ (d : Dgram) (q : Sess) (s : State), servePortUp s d.port.val = true → datagramSession s d = some q → d.seq.toNat % 2 ^
    63 = q.rxNext → q.unacked = [] → s.serve.asm.filter (fun a => a.session == q.num) = [] → s.serve.ctxs.filter (fun c =>
    c.session == q.num) = [] →
    ∃ t, exec (.close d) s = .next t ∧
      (∃ x, sessOf t q.num = some x ∧ x.closing = true ∧ x.rxNext = q.rxNext + 1) ∧ t.serve.asm = s.serve.asm ∧ t.serve.ctxs
        = s.serve.ctxs ∧
      t = { s with serve := t.serve }) ∧
  (∀ (d : Dgram) (q : Sess) (s : State), servePortUp s d.port.val = true → datagramSession s d = some q → d.seq.toNat.testBit
    62 = true ∧ (∀ h ∈ q.ackRx, h < d.seq.toNat % 2 ^ 62) →
    ∃ t, exec (.serveAck d) s = .next t ∧
      t = takeAck q.num d.ack.toNat (modSess q.num (fun x => { x with ackRx := some (d.seq.toNat % 2 ^ 62) }) s)) ∧
  (∀ (d : Dgram) (q : Sess) (s : State), servePortUp s d.port.val = true → datagramSession s d = some q →
    ¬(d.seq.toNat.testBit 62 = true ∧ (∀ h ∈ q.ackRx, h < d.seq.toNat % 2 ^ 62)) →
    ∃ t, exec (.serveAck d) s = .next t ∧
      t = s) ∧
  (∀ (d : Dgram) (q : Sess) (n : Nat) (s : State), servePortUp s d.port.val = true → datagramSession s d = some q →
    d.seq.toNat = 2 ^ 62 + n → n < 2 ^ 62 → ∀ h ∈ q.ackRx, h < n → q.unacked.any (fun r => decide (r.seq ≤ d.ack.toNat)) =
    true → d.ack.toNat < q.txNext → q.closing = false →
    ∃ t, exec (.serveAck d) s = .next t ∧
      ∃ x, sessOf t q.num = some x ∧ x.ackRx = some n ∧ x.progress = s.beat ∧ x.unacked.map (fun r => r.seq) =
        (q.unacked.filter (fun r => !decide (r.seq ≤ d.ack.toNat))).map (fun r => r.seq)) ∧
  (∀ (session : W32) (s : State), ∀ q ∈ sessOf s session, ∀ b ∈ q.unacked.head?.bind (fun r => r.sent), s.beat < b + 1000 *
    s.obj Obj.serveResendUs →
    ∃ t, exec (.serveResend session) s = .next t ∧
      t = s) ∧
  (∀ (session : W32) (q : Sess) (b : Nat) (u : State) (s : State), sessOf s session = some q → q.unacked.head?.bind (fun r =>
    r.sent) = some b → b + 1000 * s.obj Obj.serveResendUs ≤ s.beat → u = modSess session (fun x =>
    { x with unacked := x.unacked.map (fun r => if r.sent.isSome then { r with sent := some s.beat } else r) }) s →
    ∃ t, exec (.serveResend session) s = .next t ∧
      t = ((q.unacked.filter (fun r => r.sent.isSome)).foldl (fun v r => serveOut session r.seq r.kind r.body v) u).count
        Obj.serveResends (q.unacked.filter (fun r => r.sent.isSome)).length) ∧
  (∀ (session : W32) (q : Sess) (b : Nat) (s : State), sessOf s session = some q → q.unacked.head?.bind (fun r => r.sent) =
    some b → b + 1000 * s.obj Obj.serveResendUs ≤ s.beat →
    ∃ t, exec (.serveResend session) s = .next t ∧
      t.obj Obj.serveResends = (s.obj Obj.serveResends + (q.unacked.filter (fun r => r.sent.isSome)).length) % 2 ^ objBits
        Obj.serveResends ∧ Untouched [Obj.serveResends] s t ∧
      (servePortUp s q.port = true → t.out.length = s.out.length + (q.unacked.filter (fun r => r.sent.isSome)).length) ∧
      t = { s with od := t.od, serve := t.serve, out := t.out, free := t.free }) ∧
  (∀ (session : W32) (s : State), ∀ q ∈ sessOf s session, q.due = false →
    ∃ t, exec (.ackDue session) s = .next t ∧
      t = s) ∧
  (∀ (session : W32) (q : Sess) (s : State), sessOf s session = some q → q.due = true →
    ∃ t, exec (.ackDue session) s = .next t ∧
      t = closeSession session (modSess session (fun x => { x with ackTx := x.ackTx + 1 }) (serveOut session (2 ^ 62 +
        q.ackTx) 0x09 [] s))) ∧
  (∀ (session : W32) (q : Sess) (s : State), sessOf s session = some q → q.due = true → q.closing = false → servePortUp s
    q.port = true →
    ∃ t, exec (.ackDue session) s = .next t ∧
      t.out = s.out ++ [.serve q.port (serveHeader 0x09 q.tenant session.toNat (2 ^ 62 + q.ackTx) (ackField s q)) (serveNonce
        session.toNat (2 ^ 62 + q.ackTx)) []] ∧ (∃ x, sessOf t session = some x ∧ x.due = false ∧ x.ackTx = q.ackTx + 1) ∧
      t = { s with serve := t.serve, out := t.out, free := t.free }) ∧
  (∀ (session : W32) (s : State), ∀ q ∈ sessOf s session, q.unacked = [] ∨ s.beat < q.progress + 1000000 * s.obj
    Obj.serveSessionTimeoutMs →
    ∃ t, exec (.sessionTimeout session) s = .next t ∧
      t = s) ∧
  (∀ (session : W32) (q : Sess) (u : State) (s : State), sessOf s session = some q → q.unacked ≠ [] → q.progress + 1000000 *
    s.obj Obj.serveSessionTimeoutMs ≤ s.beat → u = cancelSession session s →
    ∃ t, exec (.sessionTimeout session) s = .next t ∧
      t = { u with serve := { u.serve with sessions := u.serve.sessions.filter (fun x => x.num != session) } }) ∧
  (∀ (session : W32) (q : Sess) (s : State), sessOf s session = some q → q.unacked ≠ [] → q.progress + 1000000 * s.obj
    Obj.serveSessionTimeoutMs ≤ s.beat → s.serve.asm.filter (fun a => a.session == session) = [] → s.serve.ctxs.filter (fun c
    => c.session == session) = [] →
    ∃ t, exec (.sessionTimeout session) s = .next t ∧
      t = { s with serve := { s.serve with sessions := s.serve.sessions.filter (fun q => q.num != session) } }) ∧
  (∀ (port : Fin 2) (up : Bool) (s : State),
    ∃ t, exec (.servingPortLinkChange port up) s = .next t ∧
      t = { s with serve := { s.serve with links := lset port.val up s.serve.links } }) ∧
  (∀ (port : Fin 2) (s : State), servePortUp s port.val = true →
    ∃ t, exec (.ipv4Frame port) s = .next t ∧
      t = s.count Obj.ipv4Discards 1) ∧
  (∀ (port : Fin 2) (s : State), servePortUp s port.val = false →
    ∃ t, exec (.ipv4Frame port) s = .next t ∧
      t = s) ∧
  (∀ (port : Fin 2) (data : Bytes) (s : State), servePortUp s port.val = true →
    ∃ t, exec (.icmpv6Message port 128 data) s = .next t ∧
      t = s.emit (.icmp port.val 129 data)) ∧
  (∀ (port : Fin 2) (data : Bytes) (s : State), servePortUp s port.val = true → (data.drop 4).take 16 = serveAddress s
    port.val →
    ∃ t, exec (.icmpv6Message port 135 data) s = .next t ∧
      t = s.emit (.icmp port.val 136 (serveAddress s port.val))) ∧
  (∀ (port : Fin 2) (type : Byte) (data : Bytes) (s : State), servePortUp s port.val = false ∨ (type ≠ 128 ∧ ¬(type = 135 ∧
    (data.drop 4).take 16 = serveAddress s port.val)) →
    ∃ t, exec (.icmpv6Message port type data) s = .next t ∧
      t = s) ∧
  (∀ (num : W32) (ack : Nat) (q : Sess) (s : State), sessOf s num = some q →
    takeAck num ack s = if q.unacked.any (fun r => decide (r.seq ≤ ack)) = true ∧ ack < q.txNext then closeSession num
      (sendQueued num (modSess num (fun x =>
      { x with unacked := x.unacked.filter (fun r => !decide (r.seq ≤ ack)), progress := s.beat }) s)) else s) ∧
  (∀ (num : W32) (kind : Nat) (body : Bytes) (q : Sess) (u s : State), sessOf s num = some q → q.unacked.length < s.obj
    Obj.serveWindowRecords →
    u = modSess num (fun x => { x with txNext := x.txNext + 1, unacked := x.unacked ++ [{ seq := x.txNext, kind, body, sent := some s.beat }], progress := if x.unacked.isEmpty then s.beat else x.progress })
      s →
    serveSend num kind body s = serveOut num q.txNext kind body u)

/-- A REQUEST in order is counted; one with a bad body is refused with 0x1201, one whose number is in use with 0x1205, and
  another enters assembly and is judged once its prompt is complete. A PROMPT part joins its request, refuses it where
  it overlaps or overruns, and is ignored without one. CANCEL ends a request in assembly with an empty FINAL, and an
  admitted one at its next step boundary. PROMPT_TIMEOUT refuses what is incomplete for too long. A complete prompt is
  refused with the code of the first check that fails; text then waits for the tokenizer, which gives its tokens on an
  idle Whippet; tokens wait for the prefix hasher where the image has one, or are admitted. Admission looks up the
  prefix, reserves pages, and makes a context with its prefill, or refuses with 0x1901 or 0x1902. PREFILL_COMPLETE
  counts the input, enters the context's blocks, samples and releases its first token and lets contexts join;
  DEADLINE_EXPIRY at its beat ends the request at its next step boundary. Otherwise these change nothing. -/
def Obligations.ServingRequests : Prop :=
  (∀ (d : Dgram) (q x : Sess) (u : State) (s : State), servePortUp s d.port.val = true → datagramSession s d = some q →
    d.seq.toNat % 2 ^ 63 = q.rxNext → u = takeAck q.num d.ack.toNat (modSess q.num (fun x =>
    { x with rxNext := x.rxNext + 1 }) (modSess q.num (fun x => { x with due := true }) s)) → sessOf u q.num = some x →
    d.body.length < 64 ∨ 8192 < d.body.length ∨ fixedReservedClear (d.body.take 64) = false ∨ stopStrings (leAt (d.body.take
    64) 6 1) (d.body.drop 64) = none ∨ (∃ y ∈ stopStrings (leAt (d.body.take 64) 6 1) (d.body.drop 64), asmTotal (d.body.take
    64) < y.2.length) →
    ∃ t, exec (.request d) s = .next t ∧
      t = refuse x.num (BitVec.ofNat 32 (leAt (d.body.take 64) 0 4)).toNat 0x1201 (u.count Obj.serveRequests 1)) ∧
  (∀ (d : Dgram) (q x : Sess) (u : State) (stops : List Bytes) (first : Bytes) (s : State), servePortUp s d.port.val = true →
    datagramSession s d = some q → d.seq.toNat % 2 ^ 63 = q.rxNext → u = takeAck q.num d.ack.toNat (modSess q.num (fun x =>
    { x with rxNext := x.rxNext + 1 }) (modSess q.num (fun x => { x with due := true }) s)) → sessOf u q.num = some x → 64 ≤
    d.body.length ∧ d.body.length ≤ 8192 → fixedReservedClear (d.body.take 64) = true → stopStrings (leAt (d.body.take 64) 6
    1) (d.body.drop 64) = some (stops, first) → first.length ≤ asmTotal (d.body.take 64) → (asmOf u x.num (BitVec.ofNat 32
    (leAt (d.body.take 64) 0 4))).isSome = true ∨ u.serve.ctxs.any (fun c => c.session == x.num && c.req == (BitVec.ofNat 32
    (leAt (d.body.take 64) 0 4))) = true →
    ∃ t, exec (.request d) s = .next t ∧
      t = refuse x.num (BitVec.ofNat 32 (leAt (d.body.take 64) 0 4)).toNat 0x1205 (u.count Obj.serveRequests 1)) ∧
  (∀ (d : Dgram) (q x : Sess) (u : State) (stops : List Bytes) (first : Bytes) (v : State) (s : State), servePortUp s
    d.port.val = true → datagramSession s d = some q → d.seq.toNat % 2 ^ 63 = q.rxNext → u = takeAck q.num d.ack.toNat
    (modSess q.num (fun x => { x with rxNext := x.rxNext + 1 }) (modSess q.num (fun x => { x with due := true }) s)) → sessOf
    u q.num = some x → 64 ≤ d.body.length ∧ d.body.length ≤ 8192 → fixedReservedClear (d.body.take 64) = true → stopStrings
    (leAt (d.body.take 64) 6 1) (d.body.drop 64) = some (stops, first) → first.length ≤ asmTotal (d.body.take 64) → ¬((asmOf
    u x.num (BitVec.ofNat 32 (leAt (d.body.take 64) 0 4))).isSome = true ∨ u.serve.ctxs.any (fun c => c.session == x.num &&
    c.req == (BitVec.ofNat 32 (leAt (d.body.take 64) 0 4))) = true) → v = u.count Obj.serveRequests 1 →
    ∃ t, exec (.request d) s = .next t ∧
      t = judgeIfComplete x.num (BitVec.ofNat 32 (leAt (d.body.take 64) 0 4))
        { v with serve := { v.serve with asm := v.serve.asm ++ [{ session := x.num, req := (BitVec.ofNat 32 (leAt (d.body.take 64) 0 4)), fixed := (d.body.take 64), stops, prompt := if first.isEmpty then [] else [(0, first)], length := leAt (d.body.take 64) 8 4, arrival := v.beat }] } }) ∧
  (∀ (d : Dgram) (q : Sess) (stops : List Bytes) (first : Bytes) (s : State), servePortUp s d.port.val = true →
    datagramSession s d = some q → d.seq.toNat % 2 ^ 63 = q.rxNext → q.unacked = [] → 64 ≤ d.body.length ∧ d.body.length ≤
    8192 → fixedReservedClear (d.body.take 64) = true → stopStrings (leAt (d.body.take 64) 6 1) (d.body.drop 64) = some
    (stops, first) → asmOf s q.num (BitVec.ofNat 32 (leAt (d.body.take 64) 0 4)) = none → s.serve.ctxs.any (fun c =>
    c.session == q.num && c.req == (BitVec.ofNat 32 (leAt (d.body.take 64) 0 4))) = false → first.length < asmTotal
    (d.body.take 64) → q.closing = false →
    ∃ t, exec (.request d) s = .next t ∧
      t.serve.asm = s.serve.asm ++ [{ session := q.num, req := (BitVec.ofNat 32 (leAt (d.body.take 64) 0 4)), fixed := (d.body.take 64), stops, prompt := if first.isEmpty then [] else [(0, first)], length := leAt (d.body.take 64) 8 4, arrival := s.beat }]
        ∧ (∃ x, sessOf t q.num = some x ∧ x.rxNext = q.rxNext + 1) ∧ t.obj Obj.serveRequests = (s.obj Obj.serveRequests + 1)
        % 2 ^ objBits Obj.serveRequests ∧ Untouched [Obj.serveRequests] s t ∧ t.out = s.out ∧
      t = { s with od := t.od, serve := t.serve }) ∧
  (∀ (d : Dgram) (q : Sess) (stops : List Bytes) (first : Bytes) (s : State), servePortUp s d.port.val = true →
    datagramSession s d = some q → d.seq.toNat % 2 ^ 63 = q.rxNext → q.unacked = [] → 64 ≤ d.body.length ∧ d.body.length ≤
    8192 → fixedReservedClear (d.body.take 64) = true → stopStrings (leAt (d.body.take 64) 6 1) (d.body.drop 64) = some
    (stops, first) → asmOf s q.num (BitVec.ofNat 32 (leAt (d.body.take 64) 0 4)) = none → s.serve.ctxs.any (fun c =>
    c.session == q.num && c.req == (BitVec.ofNat 32 (leAt (d.body.take 64) 0 4))) = false → first.length = asmTotal
    (d.body.take 64) → q.closing = false → leAt (d.body.take 64) 5 1 = 0 → reqCode s q
    { session := q.num, req := (BitVec.ofNat 32 (leAt (d.body.take 64) 0 4)), fixed := (d.body.take 64), stops, prompt := if first.isEmpty then [] else [(0, first)], length := leAt (d.body.take 64) 8 4, arrival := s.beat }
    false = 0 →
    ∃ t, exec (.request d) s = .next t ∧
      t.serve.asm = s.serve.asm ++ [{ session := q.num, req := (BitVec.ofNat 32 (leAt (d.body.take 64) 0 4)), fixed := (d.body.take 64), stops, prompt := if first.isEmpty then [] else [(0, first)], length := leAt (d.body.take 64) 8 4, arrival := s.beat, phase := 1 }]
        ∧ (∃ x, sessOf t q.num = some x ∧ x.rxNext = q.rxNext + 1) ∧ t.obj Obj.serveRequests = (s.obj Obj.serveRequests + 1)
        % 2 ^ objBits Obj.serveRequests ∧ Untouched [Obj.serveRequests] s t ∧
      t = { s with od := t.od, serve := t.serve }) ∧
  (∀ (d : Dgram) (q : Sess) (s : State), servePortUp s d.port.val = true → datagramSession s d = some q → d.seq.toNat % 2 ^
    63 = q.rxNext → q.unacked = [] → d.body.length < 64 ∨ 8192 < d.body.length →
    ∃ t, exec (.request d) s = .next t ∧
      t.serve.asm = s.serve.asm ∧ (∃ x, sessOf t q.num = some x ∧ x.rxNext = q.rxNext + 1) ∧ t.obj Obj.serveRequests = (s.obj
        Obj.serveRequests + 1) % 2 ^ objBits Obj.serveRequests ∧ t.obj Obj.serveRefusals = (s.obj Obj.serveRefusals + 1) % 2
        ^ objBits Obj.serveRefusals ∧ Untouched [Obj.serveRequests, Obj.serveRefusals] s t ∧
      t = { s with od := t.od, serve := t.serve, out := t.out, free := t.free }) ∧
  (∀ (d : Dgram) (q x : Sess) (u : State) (s : State), servePortUp s d.port.val = true → datagramSession s d = some q →
    d.seq.toNat % 2 ^ 63 = q.rxNext → u = takeAck q.num d.ack.toNat (modSess q.num (fun x =>
    { x with rxNext := x.rxNext + 1 }) (modSess q.num (fun x => { x with due := true }) s)) → sessOf u q.num = some x → ∀ a ∈
    asmOf u x.num (BitVec.ofNat 32 (leAt d.body 0 4)), a.phase ≠ 0 →
    ∃ t, exec (.prompt d) s = .next t ∧
      t = u) ∧
  (∀ (d : Dgram) (q x : Sess) (u : State) (a : Assembly) (s : State), servePortUp s d.port.val = true → datagramSession s d =
    some q → d.seq.toNat % 2 ^ 63 = q.rxNext → u = takeAck q.num d.ack.toNat (modSess q.num (fun x =>
    { x with rxNext := x.rxNext + 1 }) (modSess q.num (fun x => { x with due := true }) s)) → sessOf u q.num = some x → asmOf
    u x.num (BitVec.ofNat 32 (leAt d.body 0 4)) = some a → a.phase = 0 → 8192 < d.body.length ∨ asmTotal a.fixed < leAt
    d.body 4 4 + (d.body.drop 8).length ∨ (∃ y ∈ a.prompt, leAt d.body 4 4 < y.1 + y.2.length ∧ y.1 < leAt d.body 4 4 +
    (d.body.drop 8).length) →
    ∃ t, exec (.prompt d) s = .next t ∧
      t = refuseAsm a 0x1201 u) ∧
  (∀ (d : Dgram) (q x : Sess) (u : State) (a : Assembly) (s : State), servePortUp s d.port.val = true → datagramSession s d =
    some q → d.seq.toNat % 2 ^ 63 = q.rxNext → u = takeAck q.num d.ack.toNat (modSess q.num (fun x =>
    { x with rxNext := x.rxNext + 1 }) (modSess q.num (fun x => { x with due := true }) s)) → sessOf u q.num = some x → asmOf
    u x.num (BitVec.ofNat 32 (leAt d.body 0 4)) = some a → a.phase = 0 → ¬(8192 < d.body.length ∨ asmTotal a.fixed < leAt
    d.body 4 4 + (d.body.drop 8).length ∨ (∃ y ∈ a.prompt, leAt d.body 4 4 < y.1 + y.2.length ∧ y.1 < leAt d.body 4 4 +
    (d.body.drop 8).length)) →
    ∃ t, exec (.prompt d) s = .next t ∧
      t = judgeIfComplete x.num (BitVec.ofNat 32 (leAt d.body 0 4)) (modAsm x.num (BitVec.ofNat 32 (leAt d.body 0 4)) (fun y
        => { y with prompt := y.prompt ++ [(leAt d.body 4 4, (d.body.drop 8))] }) u)) ∧
  (∀ (d : Dgram) (q : Sess) (a : Assembly) (s : State), servePortUp s d.port.val = true → datagramSession s d = some q →
    d.seq.toNat % 2 ^ 63 = q.rxNext → q.unacked = [] → asmOf s q.num (BitVec.ofNat 32 (leAt d.body 0 4)) = some a → a.phase =
    0 → d.body.length ≤ 8192 → leAt d.body 4 4 + (d.body.drop 8).length ≤ asmTotal a.fixed → ∀ p ∈ a.prompt, leAt d.body 4 4
    + (d.body.drop 8).length ≤ p.1 ∨ p.1 + p.2.length ≤ leAt d.body 4 4 → asmHave a + (d.body.drop 8).length ≠ asmTotal
    a.fixed → q.closing = false →
    ∃ t, exec (.prompt d) s = .next t ∧
      t.serve.asm = s.serve.asm.map (fun x => if x.session = q.num ∧ x.req = (BitVec.ofNat 32 (leAt d.body 0 4)) then
        { x with prompt := x.prompt ++ [(leAt d.body 4 4, (d.body.drop 8))] } else x) ∧ (∃ x, sessOf t q.num = some x ∧
        x.rxNext = q.rxNext + 1) ∧ Untouched [] s t ∧
      t = { s with serve := t.serve }) ∧
  (∀ (d : Dgram) (q x : Sess) (u : State) (a : Assembly) (s : State), servePortUp s d.port.val = true → datagramSession s d =
    some q → d.seq.toNat % 2 ^ 63 = q.rxNext → u = takeAck q.num d.ack.toNat (modSess q.num (fun x =>
    { x with rxNext := x.rxNext + 1 }) (modSess q.num (fun x => { x with due := true }) s)) → sessOf u q.num = some x → asmOf
    u x.num (BitVec.ofNat 32 (leAt d.body 0 4)) = some a →
    ∃ t, exec (.cancel d) s = .next t ∧
      t = cancelAsm a u) ∧
  (∀ (d : Dgram) (q x : Sess) (u : State) (s : State), servePortUp s d.port.val = true → datagramSession s d = some q →
    d.seq.toNat % 2 ^ 63 = q.rxNext → u = takeAck q.num d.ack.toNat (modSess q.num (fun x =>
    { x with rxNext := x.rxNext + 1 }) (modSess q.num (fun x => { x with due := true }) s)) → sessOf u q.num = some x → asmOf
    u x.num (BitVec.ofNat 32 (leAt d.body 0 4)) = none →
    ∃ t, exec (.cancel d) s = .next t ∧
      t = endRequests (fun c => c.session == x.num && c.req == (BitVec.ofNat 32 (leAt d.body 0 4))) 3 0 u) ∧
  (∀ (d : Dgram) (q : Sess) (a : Assembly) (s : State), servePortUp s d.port.val = true → datagramSession s d = some q →
    d.seq.toNat % 2 ^ 63 = q.rxNext → q.unacked = [] → asmOf s q.num (BitVec.ofNat 32 (leAt d.body 0 4)) = some a →
    ∃ t, exec (.cancel d) s = .next t ∧
      t.serve.asm = s.serve.asm.filter (fun x => !(x.session == q.num && x.req == (BitVec.ofNat 32 (leAt d.body 0 4)))) ∧
        t.serve.ctxs = s.serve.ctxs ∧ Untouched [] s t ∧
      t = { s with serve := t.serve, out := t.out, free := t.free }) ∧
  (∀ (session req : W32) (s : State), ∀ a ∈ asmOf s session req, a.phase ≠ 0 ∨ s.beat < a.arrival + 1000000 * s.obj
    Obj.servePromptTimeoutMs →
    ∃ t, exec (.promptTimeout session req) s = .next t ∧
      t = s) ∧
  (∀ (session req : W32) (a : Assembly) (s : State), asmOf s session req = some a → a.phase = 0 → a.arrival + 1000000 * s.obj
    Obj.servePromptTimeoutMs ≤ s.beat →
    ∃ t, exec (.promptTimeout session req) s = .next t ∧
      t = refuseAsm a 0x1201 s) ∧
  (∀ (session req : W32) (a : Assembly) (s : State), asmOf s session req = some a → a.phase = 0 → a.arrival + 1000000 * s.obj
    Obj.servePromptTimeoutMs ≤ s.beat →
    ∃ t, exec (.promptTimeout session req) s = .next t ∧
      t.serve.asm = s.serve.asm.filter (fun x => !(x.session == session && x.req == req)) ∧ t.obj Obj.serveRefusals = (s.obj
        Obj.serveRefusals + 1) % 2 ^ objBits Obj.serveRefusals ∧ Untouched [Obj.serveRefusals] s t ∧
      t = { s with od := t.od, serve := t.serve, out := t.out, free := t.free }) ∧
  (∀ (num req : W32) (q : Sess) (a : Assembly) (s : State), sessOf s num = some q → asmOf s num req = some a →
    judgeIfComplete num req s = if asmHave a = asmTotal a.fixed ∨ q.closing = true then judge q a s else s) ∧
  (∀ (q : Sess) (a : Assembly) (s : State), asmTokens a = false → judge q a s = if reqCode s q a false ≠ 0 then refuseAsm a
    (reqCode s q a false) s else modAsm a.session a.req (fun y => { y with phase := 1 }) s) ∧
  (∀ (q : Sess) (a : Assembly) (s : State) (b : Assembly), asmTokens a = true → b =
    { a with tokens := bytesWords (asmHave a / 4) (asmText a) } →
    judge q a s = if reqCode s q b false ≠ 0 then refuseAsm b (reqCode s q b false) s else hashOrAdmit q b s) ∧
  (∀ (q : Sess) (a : Assembly) (s : State), reqCode s q a true ≠ 0 → hashOrAdmit q a s = refuseAsm a (reqCode s q a true) s) ∧
  (∀ (q : Sess) (a : Assembly) (s : State) (im : Image), reqCode s q a true = 0 → imageOf s (reqSlot a) = some im →
    hashOrAdmit q a s = if (imgRoutine im 0x06).isSome = true then modAsm a.session a.req (fun y =>
      { y with phase := 2, tokens := a.tokens }) s else admitRequest q a im [] s) ∧
  (∀ (q : Sess) (a : Assembly) (s : State) (im : Image) (hashes : List W64) (m : List PrefixBlock × Bool) (u : State), m =
    prefixMatch s q.tenant (s.imgSlot (reqSlot a)).digest (prefixSeed im (reqSeed a)) hashes a.tokens →
    u = (if m.2 then s.count Obj.prefixCollisions 1 else s) →
    admitRequest q a im hashes s = if s.obj Obj.maxContexts ≤ s.serve.ctxs.length ∨ s.obj Obj.prefillQueueLimit ≤
      (s.serve.ctxs.filter (fun c => c.phase == 0)).length ∨ s.obj (tenantKeyOf Obj.tenantMaxStreams q.tenant) ≤
      (s.serve.ctxs.filter (fun c => c.tenant == q.tenant)).length then refuseAsm a 0x1901 u else admitPages q a im hashes
      m.1 u) ∧
  (∀ (q : Sess) (a : Assembly) (im : Image) (hashes : List W64) (found : List PrefixBlock) (s held : State), held =
    { s with dram := { s.dram with blocks := s.dram.blocks.map (fun b => if (found.map (·.id)).contains b.id then { b with refs := b.refs + 1, used := s.beat } else b) } }
    →
    allocPages (.context s.serve.nextCtx) (pagesNeeded im a hashes.length found.length) held = none → admitPages q a im
      hashes found s = refuseAsm a 0x1901 (s.count Obj.kvAdmissionRefusals 1)) ∧
  (∀ (q : Sess) (a : Assembly) (im : Image) (hashes : List W64) (found : List PrefixBlock) (s held : State) (pages : List
    Nat) (u : State), held = { s with dram := { s.dram with blocks := s.dram.blocks.map (fun b => if (found.map (·.id)).contains b.id then { b with refs := b.refs + 1, used := s.beat } else b) } }
    →
    allocPages (.context s.serve.nextCtx) (pagesNeeded im a hashes.length found.length) held = some (pages, u) →
    admitPages q a im hashes found s = if reqDeadlineUs a ≠ 0 ∧ (deadlineOf a).toNat < s.beat + prefillTime s im (reqSlot a)
      (queuedTokens s + (a.tokens.length - 64 * found.length)) then refuseAsm a 0x1902 s else enterCtx q a im hashes found
      pages u) ∧
  (∀ (whip : WhipId) (session req : W32) (s : State), sessOf s session = none ∨ asmOf s session req = none ∨ whipIdle s
    whip.val = false ∨ (∀ a ∈ asmOf s session req, a.phase ≠ 1) →
    ∃ t, exec (.tokenizer whip session req) s = .next t ∧
      t = s) ∧
  (∀ (whip : WhipId) (session req : W32) (s : State), sessOf s session = none ∨ asmOf s session req = none ∨ whipIdle s
    whip.val = false ∨ (∀ a ∈ asmOf s session req, a.phase ≠ 2) →
    ∃ t, exec (.prefixHasher whip session req) s = .next t ∧
      t = s) ∧
  (∀ (whip : WhipId) (session req : W32) (q : Sess) (a : Assembly) (s : State), sessOf s session = some q → asmOf s session
    req = some a → a.phase = 1 → whipIdle s whip.val = true → (imageOf s (reqSlot a)).bind (fun im => imgRoutine im 0x01) =
    none →
    ∃ t, exec (.tokenizer whip session req) s = .next t ∧
      t = refuseAsm a 0x1204 s) ∧
  (∀ (whip : WhipId) (session req : W32) (q : Sess) (a : Assembly) (td : Bytes) (u : State) (toks : List W32) (s : State),
    sessOf s session = some q → asmOf s session req = some a → a.phase = 1 → whipIdle s whip.val = true → (imageOf s (reqSlot
    a)).bind (fun im => imgRoutine im 0x01) = some td → u = (if utf8Valid (asmText a) then s else s.count Obj.tokInvalidUtf8
    1) → toks = tokenize u (whipDie whip.val) (reqSlot a) td (asmText a) →
    ∃ t, exec (.tokenizer whip session req) s = .next t ∧
      t = hashOrAdmit q { a with tokens := toks } (routineEnd whip.val 0 (0, 0) (0, 0) (wordsBytes toks) u)) ∧
  (∀ (whip : WhipId) (session req : W32) (q : Sess) (a : Assembly) (s : State), sessOf s session = some q → asmOf s session
    req = some a → a.phase = 2 → whipIdle s whip.val = true → reqCode s q a true ≠ 0 →
    ∃ t, exec (.prefixHasher whip session req) s = .next t ∧
      t = refuseAsm a (reqCode s q a true) s) ∧
  (∀ (whip : WhipId) (session req : W32) (q : Sess) (a : Assembly) (s : State), sessOf s session = some q → asmOf s session
    req = some a → a.phase = 2 → whipIdle s whip.val = true → reqCode s q a true = 0 → (imageOf s (reqSlot a)).bind (fun im
    => (imgRoutine im 0x06).map (fun d => (im, d))) = none →
    ∃ t, exec (.prefixHasher whip session req) s = .next t ∧
      t = refuseAsm a 0x1204 s) ∧
  (∀ (whip : WhipId) (session req : W32) (q : Sess) (a : Assembly) (im : Image) (hd : Bytes) (hs : List W64) (s : State),
    sessOf s session = some q → asmOf s session req = some a → a.phase = 2 → whipIdle s whip.val = true → reqCode s q a true
    = 0 → (imageOf s (reqSlot a)).bind (fun im => (imgRoutine im 0x06).map (fun d => (im, d))) = some (im, hd) → hs =
    blockHashes (leAt hd 24 8) ((a.tokens.length - 1) / 64) 0 a.tokens →
    ∃ t, exec (.prefixHasher whip session req) s = .next t ∧
      t = admitRequest q a im hs (routineEnd whip.val 0 (0, 0) (0, 0) (hs.flatMap (fun h => leBytes 8 h.toNat)) (hasherUnit
        whip.val (leAt hd 24 8) hs s))) ∧
  (∀ (ctx ns : Nat) (s : State), ∀ c ∈ s.ctx ctx, imageOf s c.slot = none ∨ c.phase ≠ 0 ∨ s.sched.items.any (fun it =>
    it.kind == 0 && it.ctx == some ctx) = true →
    ∃ t, exec (.prefillComplete ctx ns) s = .next t ∧
      t = s) ∧
  (∀ (ctx : Nat) (c : Ctx) (ns : Nat) (im : Image) (r : Nat × Nat × Nat) (k : Nat × Nat) (u v : State) (f : List W32 × Flags)
    (s : State), s.ctx ctx = some c → imageOf s c.slot = some im → c.phase = 0 → s.sched.items.any (fun it => it.kind == 0 &&
    it.ctx == some ctx) = false → r = tget (0, 0, 0) c.slot s.serve.rate → k = tget (0, 0) c.tenant s.serve.counts → u =
    { s with serve := { s.serve with rate := tset c.slot (r.1 + ns, r.2.1 + uncached c, r.2.2 + ceilDiv (uncached c) 512) s.serve.rate, counts := tset c.tenant (k.1 + c.prompt.length, k.2) s.serve.counts } }
    → v = giveBlocks ctx (enterBlocks im ctx (((List.range c.hashes.length).zip c.hashes).drop (c.reused / 64)) (modCtx ctx
    (fun y => { y with inputCounted := true, phase := 1 }) u)) → f = firstToken v im c →
    ∃ t, exec (.prefillComplete ctx ns) s = .next t ∧
      t = joinActive 256 (detokenize c.owner ctx f.1 (routineEnd (firstWhip v c) f.2 (0, 0) (0, 0) (wordsBytes f.1) v))) ∧
  (∀ (ctx : Nat) (c : Ctx) (ns : Nat) (im : Image) (s : State), s.ctx ctx = some c → imageOf s c.slot = some im → c.phase = 0
    → s.sched.items.any (fun it => it.kind == 0 && it.ctx == some ctx) = false → c.hashes = [] → imgRoutine im 0x05 = none →
    ∃ t, exec (.prefillComplete ctx ns) s = .next t ∧
      tget (0, 0) c.tenant t.serve.counts = ((tget (0, 0) c.tenant s.serve.counts).1 + c.prompt.length, (tget (0, 0) c.tenant
        s.serve.counts).2) ∧
      (∃ x, t.ctx ctx = some x ∧ x.inputCounted = true ∧ (x.phase = 1 ∨ x.phase = 2) ∧ x.prompt = c.prompt ∧ x.output =
        c.output) ∧ t.serve.ctxs.length = s.serve.ctxs.length) ∧
  (∀ (ctx : Nat) (s : State), ∀ c ∈ s.ctx ctx, c.deadline = 0xFFFFFFFFFFFFFFFF ∨ s.beat < c.deadline.toNat →
    ∃ t, exec (.deadlineExpiry ctx) s = .next t ∧
      t = s) ∧
  (∀ (ctx : Nat) (c : Ctx) (s : State), s.ctx ctx = some c → c.deadline ≠ 0xFFFFFFFFFFFFFFFF → c.deadline.toNat ≤ s.beat →
    ∃ t, exec (.deadlineExpiry ctx) s = .next t ∧
      t = settleEnding ctx (markEnding ctx 4 0 s)) ∧
  (∀ (ctx : Nat) (c : Ctx) (s : State), s.ctx ctx = some c → c.deadline ≠ 0xFFFFFFFFFFFFFFFF → c.deadline.toNat ≤ s.beat →
    inStep s ctx = true ∨ inPrefill s ctx = true →
    ∃ t, exec (.deadlineExpiry ctx) s = .next t ∧
      t = markEnding ctx 4 0 s) ∧
  (∀ (ctx : Nat) (c : Ctx) (s : State), s.ctx ctx = some c → c.deadline ≠ 0xFFFFFFFFFFFFFFFF → c.deadline.toNat ≤ s.beat →
    inStep s ctx = false ∧ inPrefill s ctx = false → c.ending = none →
    ∃ t, exec (.deadlineExpiry ctx) s = .next t ∧
      (∀ x ∈ t.serve.ctxs, x.id ≠ ctx) ∧ t.obj Obj.deadlineExpiries = (s.obj Obj.deadlineExpiries + 1) % 2 ^ objBits
        Obj.deadlineExpiries)

/-- With power, PPS_EDGE with a 10 MHz input too far off starts the count of good edges again and is logged; otherwise it
  counts an edge, good where its interval is within 100 ns of a second after another edge, the fourth in succession
  making REF valid, and while REF is followed its offset, with the seconds taken at acquisition, disciplines the count.
  PTP_SYNC keeps the last 16 offsets of a master and makes PTP valid at 16 with a spread below 200 ns, and disciplines
  the count while PTP is followed. The loss of a source ends its validity; the loss of the one in use leads to the most
  preferred usable one, or to holdover. SOURCE_REVALID follows a more preferred source after 10 s; TIME_LOCK locks after
  1 s within bound. An offset is removed by a step in Boot or Held with no window open, by slewing where it is within
  the limit, and is else kept pending; the bound estimate is a free value. Otherwise these change nothing. -/
def Obligations.TimeSources : Prop :=
  (∀ (interval : Nat) (ppb phase : Int) (s : State), s.powered = false →
    ∃ t, exec (.ppsEdge interval ppb phase) s = .next t ∧
      t = s) ∧
  (∀ (interval : Nat) (ppb phase : Int) (s : State), s.powered = true → 2000 < ppb.natAbs →
    ∃ t, exec (.ppsEdge interval ppb phase) s = .next t ∧
      t = logEvent Obj.timeSource 1 0x1802 hubSite 0 [] { s with time := { s.time with ppsGood := 0 } }) ∧
  (∀ (interval : Nat) (ppb phase : Int) (n : Nat) (u v : State) (s : State), s.powered = true → ppb.natAbs ≤ 2000 → n = (if
    s.time.ppsGood ≠ 0 ∧ 999999900 ≤ interval ∧ interval ≤ 1000000100 then s.time.ppsGood + 1 else 1) → u =
    { s with time := { s.time with ppsGood := min n 4 } } → v = (if 4 ≤ n then gainSource 1 u else u) → v.time.source ≠ 1 →
    ∃ t, exec (.ppsEdge interval ppb phase) s = .next t ∧
      t = v) ∧
  (∀ (interval : Nat) (ppb phase : Int) (n : Nat) (u v : State) (s : State), s.powered = true → ppb.natAbs ≤ 2000 → n = (if
    s.time.ppsGood ≠ 0 ∧ 999999900 ≤ interval ∧ interval ≤ 1000000100 then s.time.ppsGood + 1 else 1) → u =
    { s with time := { s.time with ppsGood := min n 4 } } → v = (if 4 ≤ n then gainSource 1 u else u) → v.time.source = 1 →
    v.time.refSecs = true →
    ∃ t, exec (.ppsEdge interval ppb phase) s = .next t ∧
      t = applyOffset ((v.obj Obj.ppsDelayPs : Int) - phase) v) ∧
  (∀ (interval : Nat) (ppb phase : Int) (n : Nat) (u v : State) (r : Int × Nat) (s : State), s.powered = true → ppb.natAbs ≤
    2000 → n = (if s.time.ppsGood ≠ 0 ∧ 999999900 ≤ interval ∧ interval ≤ 1000000100 then s.time.ppsGood + 1 else 1) → u =
    { s with time := { s.time with ppsGood := min n 4 } } → v = (if 4 ≤ n then gainSource 1 u else u) → v.time.source = 1 →
    v.time.refSecs = false → r = refSeconds ((v.obj Obj.ppsDelayPs : Int) - phase) v →
    ∃ t, exec (.ppsEdge interval ppb phase) s = .next t ∧
      t = applyOffset (((v.obj Obj.ppsDelayPs : Int) - phase) + r.1)
        { v with time := { v.time with refSecs := true, anchored := r.2 } }) ∧
  (∀ (interval : Nat) (ppb phase : Int) (s : State), 4 ≤ s.dev.state → s.powered = true → ppb.natAbs ≤ 2000 → s.time.source =
    1 → s.time.refSecs = true → (tfind 1 s.time.valid).isSome = true → ((s.obj Obj.ppsDelayPs : Int) - phase).natAbs ≤ 1000 *
    s.obj Obj.beatSlewLimitNs →
    ∃ t, exec (.ppsEdge interval ppb phase) s = .next t ∧
      t.time.offset = ((s.obj Obj.ppsDelayPs : Int) - phase) ∧ t.time.slew = ((s.obj Obj.ppsDelayPs : Int) - phase) * 10 ∧
        t.time.pendingOff = 0 ∧ t.time.source = 1 ∧ t.beat = s.beat ∧ t.time.frac = s.time.frac ∧
      t = { s with time := t.time, free := t.free }) ∧
  (∀ (s : State),
    ∃ t, exec (.refClockLoss) s = .next t ∧
      t = loseSource 1 { s with time := { s.time with ppsGood := 0 } }) ∧
  (∀ (s : State), s.time.source = 1 → terase 1 s.time.valid = [] →
    ∃ t, exec (.refClockLoss) s = .next t ∧
      t = (({ s with time := { s.time with ppsGood := 0, valid := [], source := 0, state := 3, within := none } } :
        State)).count Obj.holdoverEntries 1) ∧
  (∀ (s : State),
    ∃ t, exec (.ptpLoss) s = .next t ∧
      t = loseSource 2 { s with time := { s.time with ptpN := 0, ptpOff := [], master := 0 } }) ∧
  (∀ (s : State), s.time.source = 2 → terase 2 s.time.valid = [] →
    ∃ t, exec (.ptpLoss) s = .next t ∧
      t = (({ s with time := { s.time with ptpN := 0, ptpOff := [], master := 0, valid := [], source := 0, state := 3, within := none } }
        : State)).count Obj.holdoverEntries 1) ∧
  (∀ (offset : Int) (tai : Nat) (utc : Option W16) (master : W64) (s : State), s.powered = false →
    ∃ t, exec (.ptpSync offset tai utc master) s = .next t ∧
      t = s) ∧
  (∀ (offset : Int) (tai : Nat) (utc : Option W16) (master : W64) (n : Nat) (offs : List Int) (u v w : State) (s : State),
    s.powered = true → n = (if s.time.master = master then s.time.ptpN else 0) + 1 → offs = ((1000 * ((tai : Int) - s.beat) +
    offset) :: (if s.time.master = master then s.time.ptpOff else [])).take 16 → u =
    { s with time := { s.time with master, ptpN := min n 16, ptpOff := offs } } → v = utc.elim u (fun x => u.setObj
    Obj.utcOffsetS x.toNat) → w = (if 16 ≤ n ∧ spread offs < 200000 then gainSource 2 v else v) → w.time.source ≠ 2 →
    ∃ t, exec (.ptpSync offset tai utc master) s = .next t ∧
      t = w) ∧
  (∀ (offset : Int) (tai : Nat) (utc : Option W16) (master : W64) (n : Nat) (offs : List Int) (u v w : State) (s : State),
    s.powered = true → n = (if s.time.master = master then s.time.ptpN else 0) + 1 → offs = ((1000 * ((tai : Int) - s.beat) +
    offset) :: (if s.time.master = master then s.time.ptpOff else [])).take 16 → u =
    { s with time := { s.time with master, ptpN := min n 16, ptpOff := offs } } → v = utc.elim u (fun x => u.setObj
    Obj.utcOffsetS x.toNat) → w = (if 16 ≤ n ∧ spread offs < 200000 then gainSource 2 v else v) → w.time.source = 2 →
    ∃ t, exec (.ptpSync offset tai utc master) s = .next t ∧
      t = applyOffset (1000 * ((tai : Int) - s.beat) + offset) { w with time := { w.time with anchored := 2 } }) ∧
  (∀ (offset : Int) (tai : Nat) (master : W64) (s : State), s.powered = true → s.time.source = 1 ∨ s.time.source = 3 →
    s.time.master = master → 15 ≤ s.time.ptpN → spread (((1000 * ((tai : Int) - s.beat) + offset) :: s.time.ptpOff).take 16)
    < 200000 → tfind 2 s.time.valid = none →
    ∃ t, exec (.ptpSync offset tai none master) s = .next t ∧
      t = { s with time := { s.time with ptpN := 16, ptpOff := ((1000 * ((tai : Int) - s.beat) + offset) :: s.time.ptpOff).take 16, valid := tset 2 s.beat s.time.valid } }) ∧
  (∀ (src : Fin 4) (s : State), sourceUsable s src.val = true ∧ 0 < src.val ∧ src.val < s.time.source ∧ tget 0 src.val
    s.time.valid + 10000000000 ≤ s.beat →
    ∃ t, exec (.sourceRevalid src) s = .next t ∧
      t = (({ s with time := { s.time with source := src.val, state := 1, within := none, refSecs := false } } :
        State)).count Obj.sourceSwitches 1) ∧
  (∀ (src : Fin 4) (s : State), ¬(sourceUsable s src.val = true ∧ 0 < src.val ∧ src.val < s.time.source ∧ tget 0 src.val
    s.time.valid + 10000000000 ≤ s.beat) →
    ∃ t, exec (.sourceRevalid src) s = .next t ∧
      t = s) ∧
  (∀ (b : Nat) (s : State), s.time.within = some b → s.time.source ≠ 0 ∧ s.time.state = 1 ∧ b + 1000000000 ≤ s.beat →
    ∃ t, exec (.timeLock) s = .next t ∧
      t = { s with time := { s.time with state := 2 } }) ∧
  (∀ (s : State), ∀ b ∈ s.time.within, ¬(s.time.source ≠ 0 ∧ s.time.state = 1 ∧ b + 1000000000 ≤ s.beat) →
    ∃ t, exec (.timeLock) s = .next t ∧
      t = s) ∧
  (∀ (src : Nat) (s : State), (tfind src s.time.valid).isSome = true → gainSource src s = s) ∧
  (∀ (src : Nat) (s u : State), tfind src s.time.valid = none → u =
    { s with time := { s.time with valid := tset src s.beat s.time.valid } } → gainSource src s = if u.time.source = 0 then
    reselect u else u) ∧
  (∀ (src : Nat) (s u : State), u = { s with time := { s.time with valid := terase src s.time.valid } } → loseSource src s =
    if u.time.source = src then reselect u else u) ∧
  (∀ (b : Nat) (s : State), ([1, 2, 3] : List Nat).find? (sourceUsable s) = some b →
    reselect s = if s.time.source = b then s else
      ({ s with time := { s.time with source := b, state := 1, within := none, refSecs := false } } : State).count
      Obj.sourceSwitches 1) ∧
  (∀ s : State, ([1, 2, 3] : List Nat).find? (sourceUsable s) = none →
    reselect s = if s.time.source = 0 then s else ({ s with time := { s.time with source := 0, state := 3, within := none } }
      : State).count Obj.holdoverEntries 1) ∧
  (∀ (off : Int) (s u : State), u = ({ s with time := { s.time with offset := off, bound := s.freeWord.toNat % 0xFFFF, within := if off.natAbs ≤ lockBound s.time.source then some (s.time.within.getD s.beat) else none, state := if off.natAbs ≤ lockBound s.time.source then s.time.state else 1 } }
    : State).drawn 1 →
    applyOffset off s = if (s.dev.state = 2 ∨ s.dev.state = 3) ∧ s.wins.any (fun w => w.phase == 2) = false then stepCounter
      (off * 10) u else if off.natAbs ≤ 1000 * s.obj Obj.beatSlewLimitNs then
      { u with time := { u.time with slew := off * 10, pendingOff := 0 } } else
      { u with time := { u.time with pendingOff := off / 1000 } })

/-- BEAT_SYNC on a port that is up keeps the record and its stamps and chooses the upstream anew; a two-way record of the
  upstream port is followed: a delay far from the median is rejected and counted, and otherwise its offset is kept,
  makes FABRIC valid at 16 with a spread below 1 ns, and disciplines the count while FABRIC is followed. BEAT_SYNC_SEND
  queues one record per interval on a port that is up. FABRIC_SYNC_LOSS drops the upstream: a silent one that is up, and
  one that is down where another takes over or it is silent, lose FABRIC or change the upstream. DROOP_TRIP counts and
  stretches running cores by one to three cycles. FREQ_STEP moves the clock 50 MHz towards the one wanted where its
  crossings calibrate, and leaves it there with nothing wanted where they do not. Otherwise these change nothing. -/
def Obligations.FabricTime : Prop :=
  (∀ (p : PortId) (r : SyncRec) (t4 : Nat) (s : State), (s.port p.val).state ≠ 2 →
    ∃ t, exec (.beatSync p r t4) s = .next t ∧
      t = s) ∧
  (∀ (p : PortId) (r : SyncRec) (t4 : Nat) (u : State) (s : State), (s.port p.val).state = 2 → u = takeUpstream (s.setPort
    p.val { (s.port p.val) with sync := some r, syncT3 := r.t3, syncT4 := t4, syncBeat := s.beat }) → u.time.upstream = p.val
    → r.t1 ≠ 0 →
    ∃ t, exec (.beatSync p r t4) s = .next t ∧
      t = followUpstream p.val r t4 u) ∧
  (∀ (p : PortId) (r : SyncRec) (t4 : Nat) (u : State) (s : State), (s.port p.val).state = 2 → u = takeUpstream (s.setPort
    p.val { (s.port p.val) with sync := some r, syncT3 := r.t3, syncT4 := t4, syncBeat := s.beat }) → u.time.upstream ≠ p.val
    ∨ r.t1 = 0 →
    ∃ t, exec (.beatSync p r t4) s = .next t ∧
      t = u) ∧
  (∀ (p : PortId) (r : SyncRec) (t4 : Nat) (s : State), (s.port p.val).state = 2 → r.t1 = 0 ∨ isReference s = true →
    ∃ t, exec (.beatSync p r t4) s = .next t ∧
      t.port p.val = { (s.port p.val) with sync := some r, syncT3 := r.t3, syncT4 := t4, syncBeat := s.beat } ∧ (∀ k, k ≠
        p.val → t.port k = s.port k) ∧
      t.time = { s.time with upstream := t.time.upstream, hops := t.time.hops } ∧ (isReference s = true → t.time.upstream =
        0xFF ∧ t.time.hops = 0xFF) ∧
      t = { s with ports := t.ports, time := t.time }) ∧
  (∀ (p : PortId) (r : SyncRec) (t4 : Nat) (s : State), (s.port p.val).state = 2 → r.t1 ≠ 0 → isReference s = false →
    r.refNode.toNat = refNode s → refNode s ≠ 0xFFFF → r.flags.toNat.testBit 2 = true → r.hops.toNat ≤ 15 → ∀ k, k < 16 → k ≠
    p.val → (s.port k).sync = none → (s.port p.val).delays = [] → (s.port p.val).offsets = [] → s.time.source ≠ 3 →
    ∃ t, exec (.beatSync p r t4) s = .next t ∧
      t.time.upstream = p.val ∧ t.time.hops = r.hops.toNat + 1 ∧ (t.port p.val).delays = [(((t4 : Int) - r.t1) - ((r.t3 :
        Int) - r.t2)) / 2] ∧
      (t.port p.val).offsets = [((r.t3 : Int) + (((t4 : Int) - r.t1) - ((r.t3 : Int) - r.t2)) / 2 - t4) * 1000 / 65536] ∧
        t.time.valid = s.time.valid ∧
      t = { s with ports := t.ports, time := t.time }) ∧
  (∀ (p : Nat) (r : SyncRec) (t4 : Nat) (s u : State) (delay off : Int), delay = (((t4 : Int) - r.t1) - ((r.t3 : Int) -
    r.t2)) / 2 → off = ((r.t3 : Int) + delay - t4) * 1000 / 65536 →
    u = s.setPort p { s.port p with delays := (delay :: (s.port p).delays).take 16 } → (s.port p).delays ≠ [] ∧ 262144 < (2 *
      delay - median2 (s.port p).delays).natAbs → followUpstream p r t4 s = u.count Obj.beatSyncRejects 1) ∧
  (∀ (p : Nat) (r : SyncRec) (t4 : Nat) (s u : State) (delay off : Int) (v w : State), delay = (((t4 : Int) - r.t1) - ((r.t3
    : Int) - r.t2)) / 2 → off = ((r.t3 : Int) + delay - t4) * 1000 / 65536 →
    u = s.setPort p { s.port p with delays := (delay :: (s.port p).delays).take 16 } → ¬((s.port p).delays ≠ [] ∧ 262144 < (2
      * delay - median2 (s.port p).delays).natAbs) → v = u.setPort p
      { u.port p with offsets := (off :: (s.port p).offsets).take 16 } → w = (if 16 ≤ ((off :: (s.port p).offsets).take
      16).length ∧ spread ((off :: (s.port p).offsets).take 16) < 1000 then gainSource 3 v else v) →
    followUpstream p r t4 s = if w.time.source ≠ 3 then w else if r.flags.toNat.testBit 0 = true then applyOffset off
      ((({ w with time := { w.time with anchored := if r.flags.toNat.testBit 1 then 2 else 1 } } : State)).setObj
      Obj.utcOffsetS r.utcOff.toNat) else applyOffset (off - wholeSeconds off) w) ∧
  (∀ (p : PortId) (s : State), (s.port p.val).state = 2 ∧ (s.port p.val).syncSent + 1000 * s.obj Obj.beatSyncIntervalUs ≤
    s.beat →
    ∃ t, exec (.beatSyncSend p) s = .next t ∧
      t = s.setPort p.val { (s.port p.val) with syncSent := s.beat, ctrlq := (s.port p.val).ctrlq ++ [[0x03]] }) ∧
  (∀ (p : PortId) (s : State), ¬((s.port p.val).state = 2 ∧ (s.port p.val).syncSent + 1000 * s.obj Obj.beatSyncIntervalUs ≤
    s.beat) →
    ∃ t, exec (.beatSyncSend p) s = .next t ∧
      t = s) ∧
  (∀ (s : State), s.time.upstream = 0xFF ∨ ((s.port s.time.upstream).state = 2 ∧ ¬((s.port s.time.upstream).syncBeat +
    1000000 ≤ s.beat)) →
    ∃ t, exec (.fabricSyncLoss) s = .next t ∧
      t = s) ∧
  (∀ (u : State) (s : State), s.time.upstream ≠ 0xFF → (s.port s.time.upstream).state = 2 → (s.port s.time.upstream).syncBeat
    + 1000000 ≤ s.beat → u = s.setPort s.time.upstream
    { (s.port s.time.upstream) with sync := none, delays := [], offsets := [] } →
    ∃ t, exec (.fabricSyncLoss) s = .next t ∧
      t = loseFabric u) ∧
  (∀ (u : State) (s : State), s.time.upstream ≠ 0xFF → (s.port s.time.upstream).state ≠ 2 → u = s.setPort s.time.upstream
    { (s.port s.time.upstream) with sync := none, delays := [], offsets := [] } → (chooseUpstream u).isSome = true →
    ∃ t, exec (.fabricSyncLoss) s = .next t ∧
      t = takeUpstream u) ∧
  (∀ (u : State) (s : State), s.time.upstream ≠ 0xFF → (s.port s.time.upstream).state ≠ 2 → u = s.setPort s.time.upstream
    { (s.port s.time.upstream) with sync := none, delays := [], offsets := [] } → chooseUpstream u = none →
    ∃ t, exec (.fabricSyncLoss) s = .next t ∧
      t = if (s.port s.time.upstream).syncBeat + 1000000 ≤ s.beat then loseFabric u else u) ∧
  (∀ s : State, loseFabric s = takeUpstream (loseSource 3 { s with time := { s.time with upstream := 0xFF, hops := 0xFF } })) ∧
  (∀ (h p : Nat) (s : State), chooseUpstream s = some (h, p) → takeUpstream s =
    { s with time := { s.time with upstream := p, hops := h + 1 } }) ∧
  (∀ s : State, chooseUpstream s = none → takeUpstream s = { s with time := { s.time with upstream := 0xFF, hops := 0xFF } }) ∧
  (∀ (site : SiteId) (edges : Fin 3) (s : State), s.dev.state < 2 ∨ s.dev.state = 8 ∨ (∃ d ∈ siteDie site.val, (s.die d).off
    = true) →
    ∃ t, exec (.droopTrip site edges) s = .next t ∧
      t = s) ∧
  (∀ (site : SiteId) (edges : Fin 3) (s : State), 2 ≤ s.dev.state → s.dev.state ≠ 8 → siteDie site.val = none →
    ∃ t, exec (.droopTrip site edges) s = .next t ∧
      t = (s.count Obj.stretchEvents 1).count (Obj.stretchedCyclesN + site.val) (edges.val + 1)) ∧
  (∀ (site : SiteId) (edges : Fin 3) (d : Nat) (s : State), 2 ≤ s.dev.state → s.dev.state ≠ 8 → siteDie site.val = some d →
    (s.die d).off = false →
    ∃ t, exec (.droopTrip site edges) s = .next t ∧
      (∀ j, j < 4 → t.core (4 * d + j) = if (s.core (4 * d + j)).state = 1 then
        { s.core (4 * d + j) with stretch := (s.core (4 * d + j)).stretch + (edges.val + 1) } else s.core (4 * d + j)) ∧
      (∀ n, n / 4 ≠ d → t.core n = s.core n) ∧ t.od = ((s.count Obj.stretchEvents 1).count (Obj.stretchedCyclesN + site.val)
        (edges.val + 1)).od ∧
      t = { s with od := t.od, cores := t.cores }) ∧
  (∀ (die : DieId) (xing : List (Nat × List (Nat × Int))) (s : State), (s.die die.val).want = none ∨ stepFree s die.val =
    false ∨ s.beat < (s.die die.val).stepBeat + 50000 ∨ s.power.input = 3 →
    ∃ t, exec (.freqStep die xing) s = .next t ∧
      t = s) ∧
  (∀ (die : DieId) (xing : List (Nat × List (Nat × Int))) (w : Nat) (s : State), (s.die die.val).want = some w → stepFree s
    die.val = true → (s.die die.val).stepBeat + 50000 ≤ s.beat → s.power.input ≠ 3 → (calibrateDie die.val xing s).2 = true →
    ∃ t, exec (.freqStep die xing) s = .next t ∧
      t = ((calibrateDie die.val xing s).1.setDie die.val
        { (calibrateDie die.val xing s).1.die die.val with clock := (if (s.die die.val).clock < w then min w ((s.die die.val).clock + 50) else max w ((s.die die.val).clock - 50)), stepBeat := s.beat, want := if (if (s.die die.val).clock < w then min w ((s.die die.val).clock + 50) else max w ((s.die die.val).clock - 50)) = w then none else some w }).count
        Obj.clockSteps 1) ∧
  (∀ (die : DieId) (xing : List (Nat × List (Nat × Int))) (w : Nat) (s : State), (s.die die.val).want = some w → stepFree s
    die.val = true → (s.die die.val).stepBeat + 50000 ≤ s.beat → s.power.input ≠ 3 → (calibrateDie die.val xing s).2 = false
    →
    ∃ t, exec (.freqStep die xing) s = .next t ∧
      t = (calibrateDie die.val xing s).1.setDie die.val
        { (calibrateDie die.val xing s).1.die die.val with stepBeat := s.beat, want := none })

/-- With power and no loss stop, TALLY_SEND each second seals the counts since the last as the next message, with the flag
  of test mode, sends and keeps it; with seven days of messages held it drops the oldest and the one after it carries
  the jump. TALLY_ACK releases the messages it covers; TALLY_RESEND sends all again after 100 ms; TIME_SEND sends UTC
  hourly while it is anchored. At the powered Pod a TALLY in sequence, or one with the jump, is accepted into the
  interval that its moment belongs to and acknowledged, a gap counted and flagged, a late one flagged; a duplicate is
  answered with the last number accepted; one with a bad CRC or a gap without the jump has no effect. TIME sets a lost
  clock, ignores less than 1 ms, slews within 2 s a day, and refuses more. Otherwise these change nothing. -/
def Obligations.TallyLink : Prop :=
  (∀ (s : State), ¬(s.powered = true ∧ s.dev.state ≠ 8 ∧ s.tallies.last + 1000000000 ≤ s.beat) →
    ∃ t, exec (.tallySend) s = .next t ∧
      t = s) ∧
  (∀ (m : Tally) (kept : List Tally) (s : State), s.powered = true ∧ s.dev.state ≠ 8 ∧ s.tallies.last + 1000000000 ≤ s.beat →
    m = sealTally { flags := if s.tallies.tested || s.test.unlocked then 1 else 0, seq := s.tallies.seq, beat := BitVec.ofNat 64 s.beat, entries := (s.serve.counts.filter (fun p => p.2 != (0, 0))).map (fun p => { tenant := BitVec.ofNat 16 p.1, input := BitVec.ofNat 32 p.2.1, output := BitVec.ofNat 32 p.2.2 }), jump := false, crc := 0 }
    → kept = (if s.tallies.unacked.length < tallyHeld then s.tallies.unacked else ((s.tallies.unacked.drop 1).take 1).map
    (fun x => { x with jump := true }) ++ s.tallies.unacked.drop 2) →
    ∃ t, exec (.tallySend) s = .next t ∧
      t = ctlEmit (tallyMessage m) { s with serve := { s.serve with counts := [] }, tallies := { s.tallies with seq := s.tallies.seq + 1, unacked := kept ++ [m], last := s.beat, tested := s.test.unlocked, oldest := if kept.isEmpty then s.beat else s.tallies.oldest } }
        ∧ m.crc.toNat = crc32c (tallyBytes m)) ∧
  (∀ (seq : W32) (s : State), s.tallies.unacked.any (fun m => decide (m.seq ≤ seq)) = true →
    ∃ t, exec (.tallyAck seq) s = .next t ∧
      t = { s with tallies := { s.tallies with unacked := (s.tallies.unacked.filter (fun m => !decide (m.seq ≤ seq))), oldest := s.beat } }) ∧
  (∀ (seq : W32) (s : State), s.tallies.unacked.any (fun m => decide (m.seq ≤ seq)) = false →
    ∃ t, exec (.tallyAck seq) s = .next t ∧
      t = s) ∧
  (∀ (s : State), s.powered = true ∧ s.dev.state ≠ 8 ∧ s.tallies.unacked ≠ [] ∧ s.tallies.oldest + 100000000 ≤ s.beat →
    ∃ t, exec (.tallyResend) s = .next t ∧
      t = s.tallies.unacked.foldl (fun v m => ctlEmit (tallyMessage m) v)
        { s with tallies := { s.tallies with oldest := s.beat } }) ∧
  (∀ (s : State), ¬(s.powered = true ∧ s.dev.state ≠ 8 ∧ s.tallies.unacked ≠ [] ∧ s.tallies.oldest + 100000000 ≤ s.beat) →
    ∃ t, exec (.tallyResend) s = .next t ∧
      t = s) ∧
  (∀ (s : State), s.powered = true ∧ s.dev.state ≠ 8 ∧ s.time.anchored = 2 ∧ s.tallies.timeSent + 3600000000000 ≤ s.beat →
    ∃ t, exec (.timeSend) s = .next t ∧
      t = ctlEmit (podMessage 2 0 (utcNow s)) { s with tallies := { s.tallies with timeSent := s.beat } }) ∧
  (∀ (s : State), ¬(s.powered = true ∧ s.dev.state ≠ 8 ∧ s.time.anchored = 2 ∧ s.tallies.timeSent + 3600000000000 ≤ s.beat) →
    ∃ t, exec (.timeSend) s = .next t ∧
      t = s) ∧
  (∀ (o : Output) (s : State), ctlEmit o s = if s.faultStop then s.emit o else
    { s with pair := { s.pair with cur := s.pair.cur ++ [o] } }) ∧
  (∀ (m : Tally) (gap : Nat) (a b c : Pod) (u : State) (s : State), s.pod.powered = true → m.crc.toNat = crc32c (tallyBytes
    m) → m.seq.toNat = ((s.pod.seqLast.map (fun l => l.toNat + 1)).getD 0) ∨ (m.jump = true ∧ ((s.pod.seqLast.map (fun l =>
    l.toNat + 1)).getD 0) < m.seq.toNat) → gap = m.seq.toNat - ((s.pod.seqLast.map (fun l => l.toNat + 1)).getD 0) → a =
    podGather s.pod.clock (fun y => { y with counts := m.entries.foldl addCounts y.counts, gaps := y.gaps + gap })
    { s.pod with seqLast := some m.seq } → b = (if 0 < gap then podFlag 5 a else a) → c = (if m.beat.toNat + 2000000000 <
    s.beat then podFlag 6 b else b) → u = { s with pod := tallySecond s.beat m c } →
    ∃ t, exec (.tally m) s = .next t ∧
      t = (if 0 < gap then u.count Obj.tallyGapsTotal gap else u).emit (podMessage 3 m.seq.toNat 0)) ∧
  (∀ (m : Tally) (s : State), s.pod.powered = true → m.crc.toNat = crc32c (tallyBytes m) → m.seq.toNat = ((s.pod.seqLast.map
    (fun l => l.toNat + 1)).getD 0) → s.beat ≤ m.beat.toNat + 2000000000 → m.flags.toNat.testBit 0 = false → s.pod.clock <
    intervalEnd s.pod →
    ∃ t, exec (.tally m) s = .next t ∧
      t = ({ s with pod := { s.pod with seqLast := some m.seq, counts := m.entries.foldl addCounts s.pod.counts } } :
        State).emit (podMessage 3 m.seq.toNat 0)) ∧
  (∀ (m : Tally) (s : State), s.pod.powered = true → m.crc.toNat = crc32c (tallyBytes m) → m.jump = true →
    ((s.pod.seqLast.map (fun l => l.toNat + 1)).getD 0) < m.seq.toNat → s.beat ≤ m.beat.toNat + 2000000000 →
    m.flags.toNat.testBit 0 = false → s.pod.clock < intervalEnd s.pod →
    ∃ t, exec (.tally m) s = .next t ∧
      t.pod = { s.pod with seqLast := some m.seq, counts := m.entries.foldl addCounts s.pod.counts, gaps := s.pod.gaps + (m.seq.toNat - ((s.pod.seqLast.map (fun l => l.toNat + 1)).getD 0)), flags := s.pod.flags ||| 32 }
        ∧
      t.out = s.out ++ [podMessage 3 m.seq.toNat 0] ∧ t.obj Obj.tallyGapsTotal = (s.obj Obj.tallyGapsTotal + (m.seq.toNat -
        ((s.pod.seqLast.map (fun l => l.toNat + 1)).getD 0))) % 2 ^ objBits Obj.tallyGapsTotal ∧ Untouched
        [Obj.tallyGapsTotal] s t ∧
      t = { s with od := t.od, pod := t.pod, out := t.out }) ∧
  (∀ (m : Tally) (s : State), s.pod.powered = true → m.crc.toNat = crc32c (tallyBytes m) → m.seq.toNat < ((s.pod.seqLast.map
    (fun l => l.toNat + 1)).getD 0) →
    ∃ t, exec (.tally m) s = .next t ∧
      t = s.emit (podMessage 3 (((s.pod.seqLast.map (fun l => l.toNat + 1)).getD 0) - 1) 0)) ∧
  (∀ (m : Tally) (s : State), s.pod.powered = false ∨ m.crc.toNat ≠ crc32c (tallyBytes m) ∨ (((s.pod.seqLast.map (fun l =>
    l.toNat + 1)).getD 0) < m.seq.toNat ∧ m.jump = false) →
    ∃ t, exec (.tally m) s = .next t ∧
      t = s) ∧
  (∀ (utc : W64) (s : State), s.pod.powered = false →
    ∃ t, exec (.time utc) s = .next t ∧
      t = s) ∧
  (∀ (utc : W64) (s : State), s.pod.powered = true → s.pod.lost = true →
    ∃ t, exec (.time utc) s = .next t ∧
      t = { (s.setObjI Obj.clockLastAdjustUs (((utc.toNat : Int) - s.pod.clock) / 1000)) with pod := podFlag 4 (podFlag 3 (podLog 1 (offsetBytes ((utc.toNat : Int) - s.pod.clock)) { s.pod with clock := utc.toNat, lost := false, slew := 0, refusing := false })) }) ∧
  (∀ (utc : W64) (s : State), s.pod.powered = true → s.pod.lost = false → ((utc.toNat : Int) - s.pod.clock).natAbs < 1000000
    →
    ∃ t, exec (.time utc) s = .next t ∧
      t = s) ∧
  (∀ (utc : W64) (q : Pod) (s : State), s.pod.powered = true → s.pod.lost = false → 1000000 ≤ ((utc.toNat : Int) -
    s.pod.clock).natAbs → adjusted s.pod + ((utc.toNat : Int) - s.pod.clock).natAbs ≤ 2000000000 → q = (if s.pod.refusing
    then podFlag 4 s.pod else s.pod) →
    ∃ t, exec (.time utc) s = .next t ∧
      t = { (s.setObjI Obj.clockLastAdjustUs (((utc.toNat : Int) - s.pod.clock) / 1000)) with pod := podFlag 3 (podLog 1 (offsetBytes ((utc.toNat : Int) - s.pod.clock)) { q with slew := ((utc.toNat : Int) - s.pod.clock), refusing := false, adjusts := q.adjusts.filter (fun a => decide (q.clock < a.1 + 86400000000000)) ++ [(q.clock, ((utc.toNat : Int) - q.clock).natAbs)] }) }) ∧
  (∀ (utc : W64) (s : State), s.pod.powered = true → s.pod.lost = false → 1000000 ≤ ((utc.toNat : Int) - s.pod.clock).natAbs
    → adjusted s.pod + ((utc.toNat : Int) - s.pod.clock).natAbs ≤ 2000000000 → s.pod.refusing = false → s.pod.clock <
    intervalEnd s.pod →
    ∃ t, exec (.time utc) s = .next t ∧
      t.pod = { s.pod with slew := ((utc.toNat : Int) - s.pod.clock), flags := s.pod.flags ||| 8, events := s.pod.events ++ [(s.pod.clock, 1, offsetBytes ((utc.toNat : Int) - s.pod.clock))], adjusts := s.pod.adjusts.filter (fun a => decide (s.pod.clock < a.1 + 86400000000000)) ++ [(s.pod.clock, ((utc.toNat : Int) - s.pod.clock).natAbs)] }
        ∧
      Untouched [Obj.clockLastAdjustUs] s t ∧
      t = { s with od := t.od, pod := t.pod }) ∧
  (∀ (utc : W64) (s : State), s.pod.powered = true → s.pod.lost = false → 1000000 ≤ ((utc.toNat : Int) - s.pod.clock).natAbs
    → 2000000000 < adjusted s.pod + ((utc.toNat : Int) - s.pod.clock).natAbs →
    ∃ t, exec (.time utc) s = .next t ∧
      t = { (s.count Obj.clockRefusals 1) with pod := podFlag 4 (podLog 2 (offsetBytes ((utc.toNat : Int) - s.pod.clock)) { s.pod with refusing := true }) }
        ∧ t.obj Obj.clockRefusals = (s.obj Obj.clockRefusals + 1) % 2 ^ objBits Obj.clockRefusals) ∧
  (∀ (bit : Nat) (p : Pod), p.clock < intervalEnd p → podFlag bit p = { p with flags := p.flags ||| 2 ^ bit }) ∧
  (∀ (bit : Nat) (p : Pod), intervalEnd p ≤ p.clock → podFlag bit p =
    { p with next := { p.next with flags := p.next.flags ||| 2 ^ bit } })

/-- INTERVAL_CLOSE at the end of the interval under way adds the energy measured, signs a record of it chained to the last,
  and begins the next interval with what belongs to it already. POD_POWER_LOSS keeps energy and time; POD_POWER_UP
  resumes the clock, from the last time in flash where it was lost, and closes the outage: within the interval it is
  noted there, beyond it the interrupted and outage records are signed. The supplies take over in turn, the
  supercapacitor for 72 h, and the coin cell's end loses the clock; opening and closing the cover set the seal, log and
  flag; POD_SELF_CHECK counts. Otherwise these change nothing. With the cover open and power CAL_RUN_CALIBRATE and
  CAL_RUN_VERIFY start a run where none is under way. A run without its reference, away from a set temperature or whose
  repeats disagree gives its code and changes no correction; an accepted calibration adds the errors measured to its
  sets, in force from the next second, with its residual, time and count, and allows the seal while the cover is open; a
  verification passes within the limits, allows the seal where it passes with the cover open, and changes no correction.
  Firmware is replaced, and logged with its versions and digest, with the cover open and power. Otherwise these change
  nothing. -/
def Obligations.MeteringPod : Prop :=
  (∀ (uwh : Nat) (s : State), ¬(s.pod.powered = true ∧ intervalEnd s.pod ≤ s.pod.clock) →
    ∃ t, exec (.intervalClose uwh) s = .next t ∧
      t = s) ∧
  (∀ (uwh : Nat) (s : State), s.pod.powered = true ∧ intervalEnd s.pod ≤ s.pod.clock →
    ∃ t, exec (.intervalClose uwh) s = .next t ∧
      t = closeInterval (s.pod.start / quarterNs * quarterNs) ((s.pod.start / quarterNs * quarterNs) + quarterNs) (addEnergy
        uwh s)) ∧
  (∀ (uwh : Nat) (s : State), s.pod.powered = true ∧ intervalEnd s.pod ≤ s.pod.clock → (s.pod.archive.map recordLength).sum +
    96 + 16 * s.pod.counts.length + 64 ≤ 3 * 2 ^ 30 →
    ∃ t, exec (.intervalClose uwh) s = .next t ∧
      (∃ r, t.pod.archive.getLast? = some r ∧ r.kind = 1 ∧ r.number = s.pod.number ∧ r.start = (s.pod.start / quarterNs *
        quarterNs) ∧ r.length = 900 ∧ r.energy = (s.pod.energy + uwh) / 1000 ∧
        (r.entries, r.unattr) = apportion (s.obj Obj.allocInputWeight) ((s.pod.energy + uwh) / 1000) s.pod.counts ∧ r.testSec
          = s.pod.testSec ∧ r.gaps = s.pod.gaps ∧ r.outage = s.pod.outage ∧
        r.prev = (s.pod.archive.getLast?.map (fun l => sha256 (recordBytes s l))).getD (List.replicate 32 0)) ∧ t.pod.number
          = s.pod.number + 1 ∧ t.pod.start = (s.pod.start / quarterNs * quarterNs) + quarterNs ∧ t.pod.energy = 0 ∧
          t.pod.counts = s.pod.next.counts ∧ t.pod.testSec = s.pod.next.testSec ∧ t.pod.flags = s.pod.next.flags ∧ t.pod.gaps
          = s.pod.next.gaps ∧ t.pod.outage = 0 ∧
      t.pod.next = {} ∧ t.pod.total = s.pod.total + uwh ∧ t.pod.clock = s.pod.clock ∧ Untouched [Obj.testSecondsTotal] s t ∧
      t = { s with od := t.od, pod := t.pod }) ∧
  (∀ (uwh : Nat) (s : State), s.pod.powered = true →
    ∃ t, exec (.podPowerLoss uwh) s = .next t ∧
      t = { s with pod := { s.pod with energy := s.pod.energy + uwh, total := s.pod.total + uwh, powered := false, supply := 1, lostAt := some s.pod.clock } }) ∧
  (∀ (uwh : Nat) (s : State), s.pod.powered = false →
    ∃ t, exec (.podPowerLoss uwh) s = .next t ∧
      t = s) ∧
  (∀ (clockNow : W64) (s : State), s.pod.powered = true →
    ∃ t, exec (.podPowerUp clockNow) s = .next t ∧
      t = s) ∧
  (∀ (clockNow : W64) (s : State), s.pod.powered = false → s.pod.lostAt = none →
    ∃ t, exec (.podPowerUp clockNow) s = .next t ∧
      t = { s with pod := { s.pod with powered := true, supply := 0, clock := clockNow.toNat, sealSt := if s.pod.resealed then 0 else s.pod.sealSt, resealed := false, start := clockNow.toNat } }) ∧
  (∀ (clockNow : W64) (l : Nat) (u : State) (s : State), s.pod.powered = false → s.pod.lostAt = some l → u =
    { s with pod := { s.pod with powered := true, supply := 0, clock := if s.pod.lost then l else clockNow.toNat, lostAt := none, sealSt := if s.pod.resealed then 0 else s.pod.sealSt, resealed := false } }
    →
    ∃ t, exec (.podPowerUp clockNow) s = .next t ∧
      t = closeOutage l (if s.pod.lost then l else clockNow.toNat) u) ∧
  (∀ (lost now : Nat) (s : State), lost < intervalEnd s.pod → now / quarterNs * quarterNs < intervalEnd s.pod →
    closeOutage lost now s = { s with pod := { s.pod with outage := s.pod.outage + (now - lost) / 1000000000, flags := s.pod.flags ||| 4 } }) ∧
  (∀ (lost now : Nat) (s u v : State) (r : PodRecord), lost < intervalEnd s.pod → intervalEnd s.pod ≤ now / quarterNs *
    quarterNs →
    u = closeInterval (intervalEnd s.pod - quarterNs) (now / quarterNs * quarterNs)
      { s with pod := noteOutage (intervalEnd s.pod - lost) s.pod } →
    r = { kind := 2, flags := 4 ||| standingFlags (intervalEnd s.pod) (now / quarterNs * quarterNs) u.pod, number := 0, start := intervalEnd s.pod, length := (now / quarterNs * quarterNs - intervalEnd s.pod) / 1000000000, energy := 0, unattr := 0, testSec := 0, outage := 0, gaps := 0, entries := [], prev := [], sig := [] }
      →
    v = (if now / quarterNs * quarterNs = intervalEnd s.pod then u else signRecord r u) → closeOutage lost now s =
      { v with pod := noteOutage (now - now / quarterNs * quarterNs) v.pod }) ∧
  (∀ (lost now : Nat) (s u : State), intervalEnd s.pod ≤ lost → u = closeInterval (intervalEnd s.pod - quarterNs)
    (intervalEnd s.pod) s → lost < intervalEnd u.pod →
    closeOutage lost now s = closeOutage lost now u) ∧
  (∀ (s : State), s.pod.supply = 1 ∧ s.pod.powered = false ∧ s.pod.lostAt.getD 0 + 259200000000000 ≤ s.pod.clock →
    ∃ t, exec (.supercapacitorExhausted) s = .next t ∧
      t = { s with pod := { s.pod with supply := 2 } }) ∧
  (∀ (s : State), ¬(s.pod.supply = 1 ∧ s.pod.powered = false ∧ s.pod.lostAt.getD 0 + 259200000000000 ≤ s.pod.clock) →
    ∃ t, exec (.supercapacitorExhausted) s = .next t ∧
      t = s) ∧
  (∀ (s : State), s.pod.supply = 2 ∧ s.pod.powered = false →
    ∃ t, exec (.coinCellExhausted) s = .next t ∧
      t = { s with pod := { s.pod with lost := true } }) ∧
  (∀ (s : State), ¬(s.pod.supply = 2 ∧ s.pod.powered = false) →
    ∃ t, exec (.coinCellExhausted) s = .next t ∧
      t = s) ∧
  (∀ (s : State), s.pod.coverOpen = false →
    ∃ t, exec (.coverOpen) s = .next t ∧
      t = { (s.count Obj.tamperCount 1) with pod := podFlag 1 (podLog 3 [] { s.pod with coverOpen := true, verified := false, resealed := false, sealSt := 1 }) }
        ∧ t.obj Obj.tamperCount = (s.obj Obj.tamperCount + 1) % 2 ^ objBits Obj.tamperCount ∧ Untouched [Obj.tamperCount] s
        t) ∧
  (∀ (s : State), s.pod.coverOpen = true →
    ∃ t, exec (.coverOpen) s = .next t ∧
      t = s) ∧
  (∀ (s : State), s.pod.coverOpen = true → s.pod.verified = true →
    ∃ t, exec (.coverClose) s = .next t ∧
      t = { s with pod := podFlag 1 (podLog 4 [] { s.pod with coverOpen := false, resealed := true, verified := false, calRun := 0 }) }) ∧
  (∀ (s : State), s.pod.coverOpen = true → s.pod.verified = false →
    ∃ t, exec (.coverClose) s = .next t ∧
      t = { s with pod := podFlag 1 (podLog 4 [] { s.pod with coverOpen := false, sealSt := 2, calRun := 0 }) }) ∧
  (∀ (s : State), s.pod.coverOpen = false →
    ∃ t, exec (.coverClose) s = .next t ∧
      t = s) ∧
  (∀ (s : State), s.pod.powered = true →
    ∃ t, exec (.podSelfCheck) s = .next t ∧
      t = { s with pod := { s.pod with checks := s.pod.checks + 1 } }) ∧
  (∀ (s : State), s.pod.powered = false →
    ∃ t, exec (.podSelfCheck) s = .next t ∧
      t = s) ∧
  (∀ (s : State), s.pod.coverOpen = true → s.pod.powered = true → s.pod.calRun = 0 →
    ∃ t, exec (.calRunCalibrate) s = .next t ∧
      t = { s with pod := { s.pod with calRun := 1 } }) ∧
  (∀ (s : State), s.pod.coverOpen = false ∨ s.pod.powered = false ∨ s.pod.calRun ≠ 0 →
    ∃ t, exec (.calRunCalibrate) s = .next t ∧
      t = s) ∧
  (∀ (s : State), s.pod.coverOpen = true → s.pod.powered = true → s.pod.calRun = 0 →
    ∃ t, exec (.calRunVerify) s = .next t ∧
      t = { s with pod := { s.pod with calRun := 2 } }) ∧
  (∀ (s : State), s.pod.coverOpen = false ∨ s.pod.powered = false ∨ s.pod.calRun ≠ 0 →
    ∃ t, exec (.calRunVerify) s = .next t ∧
      t = s) ∧
  (∀ (mv : Nat) (refOk : Bool) (temp : Int) (first repeated : List Int) (s : State), s.pod.calRun ≠ 1 →
    ∃ t, exec (.calRunDone ⟨mv, refOk⟩ temp first repeated) s = .next t ∧
      t = s) ∧
  (∀ (mv : Nat) (refOk : Bool) (temp : Int) (first repeated : List Int) (s : State), s.pod.calRun = 1 → runCode ⟨mv, refOk⟩
    temp first repeated ≠ 0 →
    ∃ t, exec (.calRunDone ⟨mv, refOk⟩ temp first repeated) s = .next t ∧
      t = ({ s with pod := { s.pod with calRun := 0 } } : State).setObj Obj.calResult (runCode ⟨mv, refOk⟩ temp first
        repeated)) ∧
  (∀ (mv : Nat) (refOk : Bool) (temp : Int) (first repeated : List Int) (s : State), s.pod.calRun ≠ 2 →
    ∃ t, exec (.verifyDone ⟨mv, refOk⟩ temp first repeated) s = .next t ∧
      t = s) ∧
  (∀ (mv : Nat) (refOk : Bool) (temp : Int) (first repeated : List Int) (s : State), s.pod.calRun = 2 → runCode ⟨mv, refOk⟩
    temp first repeated ≠ 0 →
    ∃ t, exec (.verifyDone ⟨mv, refOk⟩ temp first repeated) s = .next t ∧
      t = ({ s with pod := { s.pod with calRun := 0 } } : State).setObj Obj.calResult (runCode ⟨mv, refOk⟩ temp first
        repeated)) ∧
  (∀ (mv : Nat) (refOk : Bool) (temp : Int) (first repeated : List Int) (err : List Int) (worst : Nat) (s : State),
    s.pod.calRun = 1 → runCode ⟨mv, refOk⟩ temp first repeated = 0 → err = measuredErrors first repeated → worst = ((first ++
    repeated).zip (err ++ err)).foldl (fun m x => max m (x.1 - x.2).natAbs) 0 →
    ∃ t, exec (.calRunDone ⟨mv, refOk⟩ temp first repeated) s = .next t ∧
      t.pod = podLog 5 (leBytes 2 worst)
        { s.pod with calRun := 0, newCal := some (correctSets (s.pod.newCal.getD s.pod.cal) temp err), verified := s.pod.coverOpen }
        ∧
      t.od = ((((s.setObj Obj.calResult 0).setObj Obj.calResidual worst).setObj Obj.calLastUtcNs s.pod.clock).count
        Obj.calCount 1).od ∧
      t = { s with od := t.od, pod := t.pod }) ∧
  (∀ (mv : Nat) (refOk : Bool) (temp : Int) (first repeated : List Int) (pts : List (Nat × Int)) (pass : Bool) (worst : Nat)
    (s : State), s.pod.calRun = 2 → runCode ⟨mv, refOk⟩ temp first repeated = 0 → pts = (List.range 4).zip first ++
    (List.range 4).zip repeated → pass = pts.all (fun x => decide (x.2.natAbs ≤ pointLimit x.1)) → worst = pts.foldl (fun m x
    => max m (limitFraction x.1 x.2)) 0 →
    ∃ t, exec (.verifyDone ⟨mv, refOk⟩ temp first repeated) s = .next t ∧
      t.pod = podLog 6 (leBytes 1 (if pass then 1 else 2) ++ leBytes 2 worst)
        { s.pod with calRun := 0, verified := pass && s.pod.coverOpen } ∧
      t.od = (((s.setObj Obj.calResult 0).setObj Obj.verResult (if pass then 1 else 2)).setObj Obj.verWorstError worst).od ∧
      t = { s with od := t.od, pod := t.pod }) ∧
  (pointLimit 0 = 10 ∧ pointLimit 1 = 1000 ∧ pointLimit 2 = 500 ∧ pointLimit 3 = 500) ∧
  (∀ (mv : Nat) (refOk : Bool) (temp : Int) (first repeated : List Int), runCode ⟨mv, refOk⟩ temp first repeated = if mv <
    370000 ∨ 390000 < mv ∨ refOk = false ∨ nearSet temp = false then 0x1802 else if runsAgree first repeated = true then 0
    else 0x1801) ∧
  (∀ (version : W32) (digest : Bytes) (s : State), s.pod.coverOpen = true → s.pod.powered = true →
    ∃ t, exec (.podFirmwareReplace version digest) s = .next t ∧
      t = ({ s with pod := podLog 7 (leBytes 4 (s.obj Obj.meterFwVersion) ++ leBytes 4 version.toNat ++ fitBytes 32 digest) { s.pod with fwDigest := digest } }
        : State).setObj Obj.meterFwVersion version.toNat) ∧
  (∀ (version : W32) (digest : Bytes) (s : State), s.pod.coverOpen = false ∨ s.pod.powered = false →
    ∃ t, exec (.podFirmwareReplace version digest) s = .next t ∧
      t = s)

/-- At a unit that is there and that the agent holds, DATA8, DATA16 and DATA32 feed their bytes low byte first, take a cycle
  each and count them; CTRL sets width and reflection and cuts the register, CVU_START also loads INIT; VALUE sets the
  register; an access that waits is counted. OWNER claims a free unit and releases an own one; every other write by an
  agent without the unit is refused and counted. A write by the controllers joins the outputs of their control cycle
  instead; a write to a unit that is not there changes nothing. -/
def Obligations.CheckValueUnits : Prop :=
  (∀ (u : CvuRef) (v : Byte) (s : State), cvuHeld s u = true → ∀ n : Fin 8, u ≠ .hub n 30 →
    ∃ t, exec (.data8 u v) s = .next t ∧
      t = ((cvuStall (cvuKey u) s).setCvu (cvuKey u)
        { (leBytes 1 v.toNat).foldl cvuFeed (s.cvu (cvuKey u)) with busy := (s.cvu (cvuKey u)).busy + 1 }).count (if cvuIsHub
        u then Obj.cvuHubBytes else Obj.cvuWhippetBytes) 1) ∧
  (∀ (u : CvuRef) (v : W16) (s : State), cvuHeld s u = true → ∀ n : Fin 8, u ≠ .hub n 30 →
    ∃ t, exec (.data16 u v) s = .next t ∧
      t = ((cvuStall (cvuKey u) s).setCvu (cvuKey u)
        { (leBytes 2 v.toNat).foldl cvuFeed (s.cvu (cvuKey u)) with busy := (s.cvu (cvuKey u)).busy + 2 }).count (if cvuIsHub
        u then Obj.cvuHubBytes else Obj.cvuWhippetBytes) 2) ∧
  (∀ (u : CvuRef) (v : W32) (s : State), cvuHeld s u = true → ∀ n : Fin 8, u ≠ .hub n 30 →
    ∃ t, exec (.data32 u v) s = .next t ∧
      t = ((cvuStall (cvuKey u) s).setCvu (cvuKey u)
        { (leBytes 4 v.toNat).foldl cvuFeed (s.cvu (cvuKey u)) with busy := (s.cvu (cvuKey u)).busy + 4 }).count (if cvuIsHub
        u then Obj.cvuHubBytes else Obj.cvuWhippetBytes) 4) ∧
  (∀ (u : CvuRef) (v : W32) (s : State), cvuHeld s u = true → ∀ n : Fin 8, u ≠ .hub n 30 → v.toNat.testBit 8 = false →
    ∃ t, exec (.ctrl u v) s = .next t ∧
      t = (cvuStall (cvuKey u) s).setCvu (cvuKey u)
        { (s.cvu (cvuKey u)) with ctrl := BitVec.ofNat 32 (v.toNat % 256), reg := BitVec.ofNat 64 ((s.cvu (cvuKey u)).reg.toNat % 2 ^ (v.toNat % 64 + 1)) }) ∧
  (∀ (u : CvuRef) (v : W32) (s : State), cvuHeld s u = true → ∀ n : Fin 8, u ≠ .hub n 30 → v.toNat.testBit 8 = true →
    ∃ t, exec (.ctrl u v) s = .next t ∧
      t = (cvuStall (cvuKey u) s).setCvu (cvuKey u)
        { (s.cvu (cvuKey u)) with ctrl := BitVec.ofNat 32 (v.toNat % 256), reg := BitVec.ofNat 64 ((s.cvu (cvuKey u)).init.toNat % 2 ^ (v.toNat % 64 + 1)) }) ∧
  (∀ (u : CvuRef) (v : W32) (s : State), cvuHeld s u = true → ∀ n : Fin 8, u ≠ .hub n 30 →
    ∃ t, exec (.cvuStart u v) s = .next t ∧
      t = (cvuStall (cvuKey u) s).setCvu (cvuKey u)
        { (s.cvu (cvuKey u)) with ctrl := BitVec.ofNat 32 (v.toNat % 256), reg := BitVec.ofNat 64 ((s.cvu (cvuKey u)).init.toNat % 2 ^ (v.toNat % 64 + 1)) }) ∧
  (∀ (u : CvuRef) (v : W64) (s : State), cvuHeld s u = true → ∀ n : Fin 8, u ≠ .hub n 30 →
    ∃ t, exec (.value u v) s = .next t ∧
      t = (cvuStall (cvuKey u) s).setCvu (cvuKey u)
        { (s.cvu (cvuKey u)) with reg := BitVec.ofNat 64 (v.toNat % 2 ^ cvuW (s.cvu (cvuKey u))) }) ∧
  (∀ (n : Fin 8) (agent : Nat) (v : Byte) (s : State), 2 ≤ s.dev.state ∧ s.dev.state ≠ 8 → 29 ≤ agent ∧ agent ≤ 32 → agent ≠
    30 → (s.cvu (256 + n.val)).owner = 0xFF → v.toNat = agent →
    ∃ t, exec (.owner n agent v) s = .next t ∧
      t = s.setCvu (256 + n.val) { (s.cvu (256 + n.val)) with owner := agent }) ∧
  (∀ (n : Fin 8) (agent : Nat) (v : Byte) (s : State), 2 ≤ s.dev.state ∧ s.dev.state ≠ 8 → 29 ≤ agent ∧ agent ≤ 32 → agent ≠
    30 → (s.cvu (256 + n.val)).owner = agent → v.toNat = 0xFF →
    ∃ t, exec (.owner n agent v) s = .next t ∧
      t = s.setCvu (256 + n.val) { (s.cvu (256 + n.val)) with owner := 0xFF }) ∧
  (∀ (n : Fin 8) (agent : Nat) (v : Byte) (s : State), 2 ≤ s.dev.state ∧ s.dev.state ≠ 8 → 29 ≤ agent ∧ agent ≤ 32 → agent ≠
    30 → (s.cvu (256 + n.val)).owner ≠ 0xFF ∨ v.toNat ≠ agent → (s.cvu (256 + n.val)).owner ≠ agent ∨ v.toNat ≠ 0xFF →
    ∃ t, exec (.owner n agent v) s = .next t ∧
      t = (s.setCvu (256 + n.val) { (s.cvu (256 + n.val)) with refused := true }).count Obj.cvuOwnerRefusals 1) ∧
  (∀ (n : Fin 8) (agent : Nat) (v : Byte) (s : State), 2 ≤ s.dev.state ∧ s.dev.state ≠ 8 → 29 ≤ agent ∧ agent ≤ 32 → agent ≠
    30 → (s.cvu (256 + n.val)).owner ≠ agent →
    ∃ t, exec (.data8 (.hub n agent) v) s = .next t ∧
      t = (s.setCvu (256 + n.val) { (s.cvu (256 + n.val)) with refused := true }).count Obj.cvuOwnerRefusals 1) ∧
  (∀ (u : CvuRef) (v : Byte) (s : State), cvuReach s u = false →
    ∃ t, exec (.data8 u v) s = .next t ∧
      t = s) ∧
  (∀ (n : Fin 8) (v : Byte) (s : State), 2 ≤ s.dev.state ∧ s.dev.state ≠ 8 →
    ∃ t, exec (.data8 (.hub n 30) v) s = .next t ∧
      t = { s with pair := { s.pair with cur := s.pair.cur ++ [.cvuPut n.val 0x30 v.toNat] } }) ∧
  (∀ (n : Fin 8) (agent : Nat) (v : W16) (s : State), 2 ≤ s.dev.state ∧ s.dev.state ≠ 8 → 29 ≤ agent ∧ agent ≤ 32 → agent ≠
    30 → (s.cvu (256 + n.val)).owner ≠ agent →
    ∃ t, exec (.data16 (.hub n agent) v) s = .next t ∧
      t = (s.setCvu (256 + n.val) { (s.cvu (256 + n.val)) with refused := true }).count Obj.cvuOwnerRefusals 1) ∧
  (∀ (u : CvuRef) (v : W16) (s : State), cvuReach s u = false →
    ∃ t, exec (.data16 u v) s = .next t ∧
      t = s) ∧
  (∀ (n : Fin 8) (v : W16) (s : State), 2 ≤ s.dev.state ∧ s.dev.state ≠ 8 →
    ∃ t, exec (.data16 (.hub n 30) v) s = .next t ∧
      t = { s with pair := { s.pair with cur := s.pair.cur ++ [.cvuPut n.val 0x34 v.toNat] } }) ∧
  (∀ (n : Fin 8) (agent : Nat) (v : W32) (s : State), 2 ≤ s.dev.state ∧ s.dev.state ≠ 8 → 29 ≤ agent ∧ agent ≤ 32 → agent ≠
    30 → (s.cvu (256 + n.val)).owner ≠ agent →
    ∃ t, exec (.data32 (.hub n agent) v) s = .next t ∧
      t = (s.setCvu (256 + n.val) { (s.cvu (256 + n.val)) with refused := true }).count Obj.cvuOwnerRefusals 1) ∧
  (∀ (u : CvuRef) (v : W32) (s : State), cvuReach s u = false →
    ∃ t, exec (.data32 u v) s = .next t ∧
      t = s) ∧
  (∀ (n : Fin 8) (v : W32) (s : State), 2 ≤ s.dev.state ∧ s.dev.state ≠ 8 →
    ∃ t, exec (.data32 (.hub n 30) v) s = .next t ∧
      t = { s with pair := { s.pair with cur := s.pair.cur ++ [.cvuPut n.val 0x38 v.toNat] } }) ∧
  (∀ (n : Fin 8) (agent : Nat) (v : W32) (s : State), 2 ≤ s.dev.state ∧ s.dev.state ≠ 8 → 29 ≤ agent ∧ agent ≤ 32 → agent ≠
    30 → (s.cvu (256 + n.val)).owner ≠ agent →
    ∃ t, exec (.ctrl (.hub n agent) v) s = .next t ∧
      t = (s.setCvu (256 + n.val) { (s.cvu (256 + n.val)) with refused := true }).count Obj.cvuOwnerRefusals 1) ∧
  (∀ (u : CvuRef) (v : W32) (s : State), cvuReach s u = false →
    ∃ t, exec (.ctrl u v) s = .next t ∧
      t = s) ∧
  (∀ (n : Fin 8) (v : W32) (s : State), 2 ≤ s.dev.state ∧ s.dev.state ≠ 8 →
    ∃ t, exec (.ctrl (.hub n 30) v) s = .next t ∧
      t = { s with pair := { s.pair with cur := s.pair.cur ++ [.cvuPut n.val 0x00 v.toNat] } }) ∧
  (∀ (n : Fin 8) (agent : Nat) (v : W32) (s : State), 2 ≤ s.dev.state ∧ s.dev.state ≠ 8 → 29 ≤ agent ∧ agent ≤ 32 → agent ≠
    30 → (s.cvu (256 + n.val)).owner ≠ agent →
    ∃ t, exec (.cvuStart (.hub n agent) v) s = .next t ∧
      t = (s.setCvu (256 + n.val) { (s.cvu (256 + n.val)) with refused := true }).count Obj.cvuOwnerRefusals 1) ∧
  (∀ (u : CvuRef) (v : W32) (s : State), cvuReach s u = false →
    ∃ t, exec (.cvuStart u v) s = .next t ∧
      t = s) ∧
  (∀ (n : Fin 8) (v : W32) (s : State), 2 ≤ s.dev.state ∧ s.dev.state ≠ 8 →
    ∃ t, exec (.cvuStart (.hub n 30) v) s = .next t ∧
      t = { s with pair := { s.pair with cur := s.pair.cur ++ [.cvuPut n.val 0x00 (v.toNat ||| 0x100)] } }) ∧
  (∀ (n : Fin 8) (agent : Nat) (v : W64) (s : State), 2 ≤ s.dev.state ∧ s.dev.state ≠ 8 → 29 ≤ agent ∧ agent ≤ 32 → agent ≠
    30 → (s.cvu (256 + n.val)).owner ≠ agent →
    ∃ t, exec (.value (.hub n agent) v) s = .next t ∧
      t = (s.setCvu (256 + n.val) { (s.cvu (256 + n.val)) with refused := true }).count Obj.cvuOwnerRefusals 1) ∧
  (∀ (u : CvuRef) (v : W64) (s : State), cvuReach s u = false →
    ∃ t, exec (.value u v) s = .next t ∧
      t = s) ∧
  (∀ (n : Fin 8) (v : W64) (s : State), 2 ≤ s.dev.state ∧ s.dev.state ≠ 8 →
    ∃ t, exec (.value (.hub n 30) v) s = .next t ∧
      t = { s with pair := { s.pair with cur := s.pair.cur ++ [.cvuPut n.val 0x20 v.toNat] } }) ∧
  (∀ (n : Fin 8) (agent : Nat) (v : Byte) (s : State), cvuReach s (.hub n agent) = false →
    ∃ t, exec (.owner n agent v) s = .next t ∧
      t = s) ∧
  (∀ (n : Fin 8) (v : Byte) (s : State), 2 ≤ s.dev.state ∧ s.dev.state ≠ 8 →
    ∃ t, exec (.owner n 30 v) s = .next t ∧
      t = { s with pair := { s.pair with cur := s.pair.cur ++ [.cvuPut n.val 0x40 v.toNat] } }) ∧
  (∀ (s : State) (u : CvuRef), cvuReach s u = (match u with
    | .whippet w => !unitDisabled s (64 + w.val) && dieUp s (whipDie w.val)
    | .hub _ agent => decide (2 ≤ s.dev.state ∧ s.dev.state ≠ 8 ∧ 29 ≤ agent ∧ agent ≤ 32)))

/-- KAT_PERIODIC queues the unit that is due and moves to the next; a due free core or Whippet starts its test, repeats it
  after one failure, and ends it with result pass, pass on repeat, or fail with the unit isolated; the next core test
  then becomes due. TEST_MODE_EXPIRY locks test mode and ends every injection; TRACE_RECORD queues a record of an
  enabled kind or marks one lost; LOG_SUPPRESS_SUMMARY closes the second. Where a command's condition does not hold, it
  changes nothing; MATRIX_CORE_KAT may still find which core test is due. -/
def Obligations.KnownAnswerTests : Prop :=
  (∀ (unit : Nat) (s : State), s.obj Obj.katPeriodH ≠ 0 ∧ 3 ≤ s.dev.state ∧ s.dev.state ≤ 7 ∧ unit < 64 ∧ unit = nextUnfused
    s 0 64 s.kat.nextCore ∧ s.kat.lastCore + s.obj Obj.katPeriodH * 3600000000000 / 64 ≤ s.beat →
    ∃ t, exec (.katPeriodic unit) s = .next t ∧
      t = settleKat { s with kat := { s.kat with queue := s.kat.queue ++ [{ unit, prio := 4, answer := none }], nextCore := (unit + 1) % 64, lastCore := s.beat } }) ∧
  (∀ (unit : Nat) (s : State), s.obj Obj.katPeriodH ≠ 0 ∧ 3 ≤ s.dev.state ∧ s.dev.state ≤ 7 ∧ 64 ≤ unit ∧ unit < 320 ∧ (unit
    - 64) % 16 = nextUnfused s (64 + 16 * (whipDie (unit - 64))) 16 (tget 0 (whipDie (unit - 64)) s.kat.nextWhip) ∧ tget 0
    (whipDie (unit - 64)) s.kat.lastWhip + s.obj Obj.katPeriodH * 3600000000000 / 16 ≤ s.beat →
    ∃ t, exec (.katPeriodic unit) s = .next t ∧
      t = settleKat { s with kat := { s.kat with queue := s.kat.queue ++ [{ unit, prio := 4, answer := none }], nextWhip := tset (whipDie (unit - 64)) (((unit - 64) % 16 + 1) % 16) s.kat.nextWhip, lastWhip := tset (whipDie (unit - 64)) s.beat s.kat.lastWhip } }) ∧
  (∀ (unit : Nat) (s : State), ¬(s.obj Obj.katPeriodH ≠ 0 ∧ 3 ≤ s.dev.state ∧ s.dev.state ≤ 7 ∧ unit < 64 ∧ unit =
    nextUnfused s 0 64 s.kat.nextCore ∧ s.kat.lastCore + s.obj Obj.katPeriodH * 3600000000000 / 64 ≤ s.beat) → ¬(s.obj
    Obj.katPeriodH ≠ 0 ∧ 3 ≤ s.dev.state ∧ s.dev.state ≤ 7 ∧ 64 ≤ unit ∧ unit < 320 ∧ (unit - 64) % 16 = nextUnfused s (64 +
    16 * (whipDie (unit - 64))) 16 (tget 0 (whipDie (unit - 64)) s.kat.nextWhip) ∧ tget 0 (whipDie (unit - 64))
    s.kat.lastWhip + s.obj Obj.katPeriodH * 3600000000000 / 16 ≤ s.beat) →
    ∃ t, exec (.katPeriodic unit) s = .next t ∧
      t = s) ∧
  (∀ s : State, ∃ c, settleKat s = { s with kat := { s.kat with core := c } } ∧ (s.kat.core.isSome = true → c = s.kat.core) ∧
    (s.kat.core = none → ∀ n, c = some n → n < 64 ∧ dieUp s (coreDie n) = true ∧ ∃ r ∈ s.kat.queue, r.unit = n ∧
      ∀ x ∈ s.kat.queue, x.unit < 64 → dieUp s (coreDie x.unit) = true → 1 ≤ x.prio → x.prio < r.prio → False)) ∧
  (∀ (c : CoreId) (s : State), (settleKat s).kat.core = some c.val ∧ (s.core c.val).state = 0 ∧ s.wins.any (fun w =>
    w.parts.getLsbD c.val) = false ∧ dieUp s (coreDie c.val) = true ∧ (s.die (coreDie c.val)).want = none →
    ∃ t, exec (.matrixCoreKat c) s = .next t ∧
      t = katStart c.val ((settleKat s).setCore c.val
        { (s.core c.val) with state := 3, katRepeat := false, katAt := s.beat }) ∧ t.obj Obj.katRuns = (s.obj Obj.katRuns +
        1) % 2 ^ objBits Obj.katRuns ∧ (t.core c.val) =
        { (s.core c.val) with state := 3, katRepeat := false, katAt := s.beat } ∧
      t.kat.queue = s.kat.queue.filter (fun r => r.unit != c.val) ∧ t.kat.running = s.kat.running ++ s.kat.queue.filter (fun
        r => r.unit == c.val) ∧
      t = { s with od := t.od, cores := t.cores, kat := t.kat }) ∧
  (∀ (c : CoreId) (s : State), ¬((settleKat s).kat.core = some c.val ∧ (s.core c.val).state = 0 ∧ s.wins.any (fun w =>
    w.parts.getLsbD c.val) = false ∧ dieUp s (coreDie c.val) = true ∧ (s.die (coreDie c.val)).want = none) →
    ∃ t, exec (.matrixCoreKat c) s = .next t ∧
      t = settleKat s) ∧
  (∀ (c : CoreId) (pass : Bool) (s : State), ¬((s.core c.val).state = 3 ∧ (s.core c.val).katAt + katLength (s.die (coreDie
    c.val)) ≤ s.beat) →
    ∃ t, exec (.matrixCoreKatDone c pass) s = .next t ∧
      t = s) ∧
  (∀ (c : CoreId) (s : State), (s.core c.val).state = 3 ∧ (s.core c.val).katAt + katLength (s.die (coreDie c.val)) ≤ s.beat →
    (s.core c.val).katRepeat = false →
    ∃ t, exec (.matrixCoreKatDone c false) s = .next t ∧
      t = s.setCore c.val { (s.core c.val) with katRepeat := true, katAt := s.beat }) ∧
  (∀ (c : CoreId) (pass : Bool) (u : State) (s : State), (s.core c.val).state = 3 ∧ (s.core c.val).katAt + katLength (s.die
    (coreDie c.val)) ≤ s.beat → pass = true ∨ (s.core c.val).katRepeat = true → u =
    { s.setCore c.val { s.core c.val with state := 0, katRepeat := false } with kat := { s.kat with core := none } } →
    ∃ t, exec (.matrixCoreKatDone c pass) s = .next t ∧
      t = settleKat (katResult c.val (if pass = false then 2 else if (s.core c.val).katRepeat then 1 else 0) u)) ∧
  (∀ (c : CoreId) (s : State), (s.core c.val).state = 3 ∧ (s.core c.val).katAt + katLength (s.die (coreDie c.val)) ≤ s.beat →
    s.kat.queue = [] → s.kat.running = [] →
    ∃ t, exec (.matrixCoreKatDone c true) s = .next t ∧
      (t.core c.val) = { (s.core c.val) with state := 0, katRepeat := false } ∧ (∀ n, n ≠ c.val → t.core n = s.core n) ∧
        t.kat.core = none ∧ t.obj Obj.katLastUnit = c.val ∧ t.obj Obj.katLastResult = (if (s.core c.val).katRepeat then 1
        else 0) ∧
      t = { s with
          beat := t.beat, od := t.od, cores := t.cores, dies := t.dies, sched := t.sched, strings := t.strings
          tags := t.tags, dram := t.dram, ports := t.ports, serve := t.serve, time := t.time, dev := t.dev
          pair := t.pair, pod := t.pod, kat := t.kat, test := t.test, beagle := t.beagle, log := t.log, out := t.out
          free := t.free }) ∧
  (∀ (c : CoreId) (s : State), (s.core c.val).state = 3 ∧ (s.core c.val).katAt + katLength (s.die (coreDie c.val)) ≤ s.beat →
    (s.core c.val).katRepeat = true → s.kat.queue = [] → s.kat.running = [] →
    ∃ t, exec (.matrixCoreKatDone c false) s = .next t ∧
      (t.core c.val) = { (s.core c.val) with state := 0, katRepeat := false } ∧ t.kat.core = none ∧ unitDisabled t c.val =
        true ∧
      t = { s with
          beat := t.beat, od := t.od, cores := t.cores, dies := t.dies, sched := t.sched, strings := t.strings
          tags := t.tags, dram := t.dram, ports := t.ports, serve := t.serve, time := t.time, dev := t.dev
          pair := t.pair, pod := t.pod, kat := t.kat, test := t.test, beagle := t.beagle, log := t.log, out := t.out
          free := t.free }) ∧
  (∀ (w : WhipId) (s : State), nextWhipKat s (whipDie w.val) = some w.val ∧ (s.whip w.val).state = 0 ∧ dieUp s (whipDie
    w.val) = true ∧ (List.range 16).all (fun j => (s.whip (16 * whipDie w.val + j)).state != 2) = true →
    ∃ t, exec (.whippetKat w) s = .next t ∧
      t = katStart (64 + w.val) (s.setWhip w.val { (s.whip w.val) with state := 2, katRepeat := false }) ∧ t.obj Obj.katRuns
        = (s.obj Obj.katRuns + 1) % 2 ^ objBits Obj.katRuns ∧ (t.whip w.val) =
        { (s.whip w.val) with state := 2, katRepeat := false } ∧
      t.kat.queue = s.kat.queue.filter (fun r => r.unit != 64 + w.val) ∧ t.kat.running = s.kat.running ++ s.kat.queue.filter
        (fun r => r.unit == 64 + w.val) ∧
      t = { s with od := t.od, whips := t.whips, kat := t.kat }) ∧
  (∀ (w : WhipId) (s : State), ¬(nextWhipKat s (whipDie w.val) = some w.val ∧ (s.whip w.val).state = 0 ∧ dieUp s (whipDie
    w.val) = true ∧ (List.range 16).all (fun j => (s.whip (16 * whipDie w.val + j)).state != 2) = true) →
    ∃ t, exec (.whippetKat w) s = .next t ∧
      t = s) ∧
  (∀ (w : WhipId) (pass : Bool) (s : State), (s.whip w.val).state ≠ 2 →
    ∃ t, exec (.whippetKatDone w pass) s = .next t ∧
      t = s) ∧
  (∀ (w : WhipId) (s : State), (s.whip w.val).state = 2 → (s.whip w.val).katRepeat = false →
    ∃ t, exec (.whippetKatDone w false) s = .next t ∧
      t = s.setWhip w.val { (s.whip w.val) with katRepeat := true }) ∧
  (∀ (w : WhipId) (pass : Bool) (s : State), (s.whip w.val).state = 2 → pass = true ∨ (s.whip w.val).katRepeat = true →
    ∃ t, exec (.whippetKatDone w pass) s = .next t ∧
      t = katResult (64 + w.val) (if pass = false then 2 else if (s.whip w.val).katRepeat then 1 else 0) (s.setWhip w.val
        { (s.whip w.val) with state := 0, katRepeat := false })) ∧
  (∀ (w : WhipId) (s : State), (s.whip w.val).state = 2 → s.kat.running = [] →
    ∃ t, exec (.whippetKatDone w true) s = .next t ∧
      (t.whip w.val) = { (s.whip w.val) with state := 0, katRepeat := false } ∧ (∀ n, n ≠ w.val → t.whip n = s.whip n) ∧
        t.obj Obj.katLastUnit = 64 + w.val ∧ t.obj Obj.katLastResult = (if (s.whip w.val).katRepeat then 1 else 0) ∧
      t = { s with
          beat := t.beat, od := t.od, dies := t.dies, whips := t.whips, sched := t.sched, strings := t.strings
          tags := t.tags, dram := t.dram, ports := t.ports, serve := t.serve, time := t.time, dev := t.dev
          pair := t.pair, pod := t.pod, kat := t.kat, test := t.test, beagle := t.beagle, log := t.log, out := t.out
          free := t.free }) ∧
  (∀ (w : WhipId) (s : State), (s.whip w.val).state = 2 → (s.whip w.val).katRepeat = true → s.kat.running = [] →
    ∃ t, exec (.whippetKatDone w false) s = .next t ∧
      (t.whip w.val) = { (s.whip w.val) with state := 0, katRepeat := false } ∧ unitDisabled t (64 + w.val) = true ∧
      t = { s with
          beat := t.beat, od := t.od, dies := t.dies, whips := t.whips, sched := t.sched, strings := t.strings
          tags := t.tags, dram := t.dram, ports := t.ports, serve := t.serve, time := t.time, dev := t.dev
          pair := t.pair, pod := t.pod, kat := t.kat, test := t.test, beagle := t.beagle, log := t.log, out := t.out
          free := t.free }) ∧
  (∀ (s : State), s.test.unlocked = true ∧ s.test.since + s.obj Obj.testModeMaxS * 1000000000 ≤ s.beat →
    ∃ t, exec (.testModeExpiry) s = .next t ∧
      t.test = { s.test with unlocked := false } ∧ t.pod = { s.pod with testLine := false } ∧ t.strings = s.strings.map (fun
        p => (p.1, { p.2 with inject := { p.2.inject with mode := 0 } })) ∧
      t.ports = s.ports.map (fun p => (p.1, { p.2 with inject := { p.2.inject with mode := 0 } })) ∧
      t.obj Obj.ballastEnable = 1 ∧ t.obj Obj.fiMode = 0 ∧ t.obj Obj.sfiMode = 0 ∧ Untouched [Obj.ballastEnable, Obj.fiMode,
        Obj.sfiMode] s t ∧
      t = { s with od := t.od, strings := t.strings, ports := t.ports, pod := t.pod, test := t.test }) ∧
  (∀ (s : State), ¬(s.test.unlocked = true ∧ s.test.since + s.obj Obj.testModeMaxS * 1000000000 ≤ s.beat) →
    ∃ t, exec (.testModeExpiry) s = .next t ∧
      t = s) ∧
  (∀ (site : SiteId) (unit : W16) (kind : Byte) (payload : Bytes) (s : State), 0 < kind.toNat ∧ kind.toNat ≤ 0x0C ∧
    s.beagle.state = 1 ∧ (s.obj Obj.beagleSourceMask).testBit (kind.toNat - 1) = true → (tget [] site.val
    s.beagle.queues).length < traceQueueLen →
    ∃ t, exec (.traceRecord site unit kind payload) s = .next t ∧
      t = { s with beagle := { s.beagle with queues := tset site.val ((tget [] site.val s.beagle.queues) ++ [{ beat := s.beat, kind := kind.toNat, site := site.val, unit := unit.toNat, lost := tget false site.val s.beagle.lostAt, seq := tget 0 site.val s.beagle.seqs, payload := fitBytes 32 payload }]) s.beagle.queues, lostAt := tset site.val false s.beagle.lostAt, seqs := tset site.val ((tget 0 site.val s.beagle.seqs + 1) % 2 ^ 24) s.beagle.seqs } }) ∧
  (∀ (site : SiteId) (unit : W16) (kind : Byte) (payload : Bytes) (s : State), 0 < kind.toNat ∧ kind.toNat ≤ 0x0C ∧
    s.beagle.state = 1 ∧ (s.obj Obj.beagleSourceMask).testBit (kind.toNat - 1) = true → traceQueueLen ≤ (tget [] site.val
    s.beagle.queues).length →
    ∃ t, exec (.traceRecord site unit kind payload) s = .next t ∧
      t = ({ s with beagle := { s.beagle with lostAt := tset site.val true s.beagle.lostAt, seqs := tset site.val ((tget 0 site.val s.beagle.seqs + 1) % 2 ^ 24) s.beagle.seqs } }
        : State).count Obj.beagleLost 1 ∧ t.obj Obj.beagleLost = (s.obj Obj.beagleLost + 1) % 2 ^ objBits Obj.beagleLost ∧
        Untouched [Obj.beagleLost] s t) ∧
  (∀ (site : SiteId) (unit : W16) (kind : Byte) (payload : Bytes) (s : State), ¬(0 < kind.toNat ∧ kind.toNat ≤ 0x0C ∧
    s.beagle.state = 1 ∧ (s.obj Obj.beagleSourceMask).testBit (kind.toNat - 1) = true) →
    ∃ t, exec (.traceRecord site unit kind payload) s = .next t ∧
      t = s) ∧
  (∀ (u : State) (s : State), s.log.secondNo < s.beat / 1000000000 → u = s.log.second.foldl (fun v r => if 0 < r.2.2.1 then
    logWrite r.1.1 r.2.2.2 r.1.2.2.2 r.1.2.1 r.1.2.2.1 4 (leBytes 4 r.2.2.1) v else v) s →
    ∃ t, exec (.logSuppressSummary) s = .next t ∧
      t = { u with log := { u.log with second := [], secondNo := s.beat / 1000000000 } }) ∧
  (∀ (s : State), s.log.secondNo < s.beat / 1000000000 → s.log.second.all (fun r => r.2.2.1 == 0) = true →
    ∃ t, exec (.logSuppressSummary) s = .next t ∧
      t = { s with log := { s.log with second := [], secondNo := s.beat / 1000000000 } }) ∧
  (∀ (s : State), ¬(s.log.secondNo < s.beat / 1000000000) →
    ∃ t, exec (.logSuppressSummary) s = .next t ∧
      t = s)

/-- In Boot once started, and in states 3 to 7, SLOT_LOAD_DONE of the load that is first in order refuses a digest not in
  the store with 0x1205, refuses an image whose checks fail with their code, and where they pass makes the slot Resident
  with the image, its pages and collectives, a counted load, its sections, locked partitions and windows placed;
  SLOT_DRAINED makes a quiet Draining slot Empty, its windows, partitions, collectives and pages gone;
  PARTITION_RELOAD_DONE places the locked sections of a die that lost its Soundboard and lets it serve again. Otherwise
  these change nothing. -/
def Obligations.ImageSlots : Prop :=
  (∀ (slot : SlotId) (s : State), ¬((s.imgSlot slot.val).state = 1 ∧ s.images.order.head? = some slot.val ∧ ((s.dev.state = 2
    ∧ s.dev.started = true) ∨ (3 ≤ s.dev.state ∧ s.dev.state ≤ 7))) →
    ∃ t, exec (.slotLoadDone slot) s = .next t ∧
      t = s) ∧
  (∀ (slot : SlotId) (u : State) (s : State), (s.imgSlot slot.val).state = 1 ∧ s.images.order.head? = some slot.val ∧
    ((s.dev.state = 2 ∧ s.dev.started = true) ∨ (3 ≤ s.dev.state ∧ s.dev.state ≤ 7)) → u =
    { s with images := { s.images with order := s.images.order.drop 1 } } → s.images.store.find? (fun im => im.digest ==
    (s.imgSlot slot.val).digest) = none →
    ∃ t, exec (.slotLoadDone slot) s = .next t ∧
      t = refuseLoad slot.val 0x1205 u ∧ (t.imgSlot slot.val) =
        { (s.imgSlot slot.val) with state := 0, digest := [], image := none, last := 0x1205, bootRefused := (s.imgSlot slot.val).bootRefused || decide (s.dev.state = 2) }
        ∧ t.images.order = s.images.order.drop 1 ∧ t.images.store = s.images.store ∧
      (∀ k, k ≠ slot.val → t.imgSlot k = s.imgSlot k) ∧
      t = { s with
          beat := t.beat, od := t.od, strings := t.strings, ports := t.ports, images := t.images, time := t.time
          dev := t.dev, pod := t.pod, test := t.test, beagle := t.beagle, log := t.log }) ∧
  (∀ (slot : SlotId) (im : Image) (u : State) (s : State), (s.imgSlot slot.val).state = 1 ∧ s.images.order.head? = some
    slot.val ∧ ((s.dev.state = 2 ∧ s.dev.started = true) ∨ (3 ≤ s.dev.state ∧ s.dev.state ≤ 7)) → u =
    { s with images := { s.images with order := s.images.order.drop 1 } } → s.images.store.find? (fun im => im.digest ==
    (s.imgSlot slot.val).digest) = some im → loadResult u im slot.val ≠ 0 →
    ∃ t, exec (.slotLoadDone slot) s = .next t ∧
      t = refuseLoad slot.val (loadResult u im slot.val) u ∧ (t.imgSlot slot.val) =
        { (s.imgSlot slot.val) with state := 0, digest := [], image := none, last := BitVec.ofNat 16 (loadResult u im slot.val), bootRefused := (s.imgSlot slot.val).bootRefused || decide (s.dev.state = 2) }
        ∧ t.images.order = s.images.order.drop 1 ∧
      t = { s with
          beat := t.beat, od := t.od, strings := t.strings, ports := t.ports, images := t.images, time := t.time
          dev := t.dev, pod := t.pod, test := t.test, beagle := t.beagle, log := t.log }) ∧
  (∀ (slot : SlotId) (im : Image) (pages : List Nat) (cols : List CollRes) (u v : State) (s : State), (s.imgSlot
    slot.val).state = 1 ∧ s.images.order.head? = some slot.val ∧ ((s.dev.state = 2 ∧ s.dev.started = true) ∨ (3 ≤ s.dev.state
    ∧ s.dev.state ≤ 7)) → u = { s with images := { s.images with order := s.images.order.drop 1 } } → s.images.store.find?
    (fun im => im.digest == (s.imgSlot slot.val).digest) = some im → loadResult u im slot.val = 0 → (allocPages (.image
    slot.val) (imgDramPages im) u).map (fun x => x.1) = some pages → v = ((allocPages (.image slot.val) (imgDramPages im)
    u).elim u (fun x => x.2)) → placeColls u slot.val im.collectives s.fabric.colRes = some cols →
    ∃ t, exec (.slotLoadDone slot) s = .next t ∧
      t = placeImage slot.val (s.obj (slotKey Obj.slotJob slot.val)) im pages cols v ∧ (t.imgSlot slot.val) =
        { (s.imgSlot slot.val) with state := 2, digest := im.digest, image := some im, job := BitVec.ofNat 16 (s.obj (slotKey Obj.slotJob slot.val)), pages, last := 0, bootRefused := false }
        ∧ t.images.order = s.images.order.drop 1 ∧ t.fabric = { s.fabric with colRes := cols } ∧
      (∀ k, k ≠ slot.val → t.imgSlot k = s.imgSlot k) ∧
      t = { s with
          beat := t.beat, od := t.od, mem := t.mem, cores := t.cores, dies := t.dies, strings := t.strings
          tags := t.tags, dram := t.dram, ports := t.ports, fabric := t.fabric, rmem := t.rmem, serve := t.serve
          images := t.images, time := t.time, dev := t.dev, pod := t.pod, test := t.test, beagle := t.beagle
          log := t.log, bad := t.bad, free := t.free }) ∧
  (∀ (slot : Nat) (s : State) (x : Section), placeSection slot s x =
    if x.kind.toNat = 7 then storeClean (memKey (dieSite (coreDie x.target.toNat)) (coreSramBase x.target.toNat +
      x.dest.toNat)) x.data s
    else if x.kind.toNat = 8 then (partitionOf s x.target.toNat slot).elim s (fun p => storeClean (memKey (dieSite
      x.target.toNat) (sbBase + p.1 * 2 ^ 20 + x.dest.toNat)) x.data s)
    else if x.kind.toNat = 10 then storeClean (memKey (dieSite x.target.toNat) (dieSramBase + x.dest.toNat)) x.data s
    else s) ∧
  (∀ (slot job : Nat) (im : Image) (s : State), (installWindows slot job im s).rmem.loader =
    ((freeEntries s).zip im.winEntries).foldl (fun l p => tset p.1 slot l) s.rmem.loader) ∧
  (∀ (slot : SlotId) (s : State), (s.imgSlot slot.val).state = 3 ∧ slotQuiet s slot.val = true →
    ∃ t, exec (.slotDrained slot) s = .next t ∧
      t = unloadImage slot.val s ∧ (t.imgSlot slot.val) =
        { (s.imgSlot slot.val) with state := 0, digest := [], image := none, job := 0, pages := [] } ∧ (∀ k, k ≠ slot.val →
        t.imgSlot k = s.imgSlot k) ∧
      t.fabric.colRes = s.fabric.colRes.filter (fun r => r.slot != slot.val) ∧ (∀ p ∈ t.dies, ∀ q ∈ p.2.parts, q.slot ≠
        slot.val) ∧ t.rmem.loader = s.rmem.loader.filter (fun p => p.2 != slot.val) ∧
      (∀ p, (p, slot.val) ∈ s.rmem.loader → tfind p t.rmem.table = none) ∧
      t = { s with
          beat := t.beat, od := t.od, dies := t.dies, strings := t.strings, tags := t.tags, dram := t.dram
          ports := t.ports, fabric := t.fabric, rmem := t.rmem, images := t.images, time := t.time, dev := t.dev
          pod := t.pod, test := t.test, beagle := t.beagle }) ∧
  (∀ (slot : SlotId) (s : State), ¬((s.imgSlot slot.val).state = 3 ∧ slotQuiet s slot.val = true) →
    ∃ t, exec (.slotDrained slot) s = .next t ∧
      t = s) ∧
  (∀ (die : DieId) (u : State) (s : State), (s.die die.val).sbLost = true ∧ (s.die die.val).off = false ∧ (s.die
    die.val).reset = none → u = (s.die die.val).parts.foldl (fun v p => (imageOf v p.slot).elim v (fun im =>
    (im.sections.filter (fun x => x.kind.toNat == 8 && x.target.toNat == die.val)).foldl (placeSection p.slot) v)) s →
    ∃ t, exec (.partitionReloadDone die) s = .next t ∧
      t = settleDram (u.setDie die.val { u.die die.val with sbLost := false }) ∧ (t.die die.val).sbLost = false ∧ (t.die
        die.val).parts = (s.die die.val).parts ∧ (∀ k, k ≠ die.val → t.die k = s.die k) ∧
      t = { s with
          beat := t.beat, od := t.od, mem := t.mem, dies := t.dies, strings := t.strings, ports := t.ports
          time := t.time, dev := t.dev, pod := t.pod, test := t.test, beagle := t.beagle, bad := t.bad }) ∧
  (∀ (die : DieId) (s : State), (s.die die.val).sbLost = true ∧ (s.die die.val).off = false ∧ (s.die die.val).reset = none →
    (s.die die.val).parts = [] →
    ∃ t, exec (.partitionReloadDone die) s = .next t ∧
      t.mem = s.mem ∧ t.bad = s.bad ∧
      t = { s with
          beat := t.beat, od := t.od, mem := t.mem, dies := t.dies, strings := t.strings, ports := t.ports
          time := t.time, dev := t.dev, pod := t.pod, test := t.test, beagle := t.beagle, bad := t.bad }) ∧
  (∀ (die : DieId) (s : State), ¬((s.die die.val).sbLost = true ∧ (s.die die.val).off = false ∧ (s.die die.val).reset = none)
    →
    ∃ t, exec (.partitionReloadDone die) s = .next t ∧
      t = s)

/-- While the module is powered and not stopped, CONTROL_CYCLE notes the measured input and ends a cycle. A compared pair
  writes the outputs of the earlier cycle where the halves agree and starts recovery with every output withheld where
  they differ, or isolates Standby right after a recovery that both passed; simplex writes them all; a recovery holds
  them; a drill withholds them for a cycle and the other half takes over. CONTROLLER_KAT_DONE ends recovery: both pass,
  and the second mismatch rule is armed; one fails, and the other runs simplex; both fail, and the module stops.
  TANDEM_LOSS leaves Standby unsynchronised, CYCLE_WATCHDOG stops the module; drills are asked for and time out.
  Otherwise these change nothing. -/
def Obligations.ControllerPair : Prop :=
  (∀ (mv w : Nat) (agree : Bool) (s : State), ¬(s.dev.state ≠ 0 ∧ s.dev.state ≠ 8) →
    ∃ t, exec (.controlCycle ⟨mv, w⟩ agree) s = .next t ∧
      t = s) ∧
  (∀ (mv w : Nat) (v u : State) (s : State), s.dev.state ≠ 0 ∧ s.dev.state ≠ 8 → s.pair.state = 0 → s.pair.recover = none →
    s.pair.phase ≠ 1 ∧ s.pair.phase ≠ 2 → v = (if s.dev.state = 1 then s else notePower mv w s) → u =
    { v with pair := { s.pair with cycle := s.pair.cycle + 1, lastCycle := s.beat } } →
    ∃ t, exec (.controlCycle ⟨mv, w⟩ true) s = .next t ∧
      t = cycleAgrees u ∧ t.pair = { s.pair with cycle := s.pair.cycle + 1, lastCycle := s.beat, prev := s.pair.cur, cur := [], second := false, phase := if s.pair.phase = 3 then 0 else s.pair.phase }
        ∧ t.dev = s.dev) ∧
  (∀ (mv w : Nat) (s : State), s.dev.state ≠ 0 ∧ s.dev.state ≠ 8 → s.pair.state = 0 → s.pair.recover = none → s.pair.phase =
    0 →
    ∃ t, exec (.controlCycle ⟨mv, w⟩ true) s = .next t ∧
      t.obj Obj.controlCycles = (s.obj Obj.controlCycles + 1) % 2 ^ objBits Obj.controlCycles ∧
      t = { s with
          beat := t.beat, od := t.od, cores := t.cores, dies := t.dies, strings := t.strings, ports := t.ports
          rmem := t.rmem, time := t.time, dev := t.dev, pair := t.pair, pod := t.pod, power := t.power
          cvus := t.cvus, test := t.test, beagle := t.beagle, log := t.log, out := t.out }) ∧
  (∀ (mv w : Nat) (s : State), s.dev.state ≠ 0 ∧ s.dev.state ≠ 8 → s.pair.state = 0 → s.pair.recover = none → s.pair.phase =
    3 →
    ∃ t, exec (.controlCycle ⟨mv, w⟩ true) s = .next t ∧
      t.obj Obj.drillResult = 1 ∧ t.obj Obj.controlCycles = (s.obj Obj.controlCycles + 1) % 2 ^ objBits Obj.controlCycles ∧
      t = { s with
          beat := t.beat, od := t.od, cores := t.cores, dies := t.dies, strings := t.strings, ports := t.ports
          rmem := t.rmem, time := t.time, dev := t.dev, pair := t.pair, pod := t.pod, power := t.power
          cvus := t.cvus, test := t.test, beagle := t.beagle, log := t.log, out := t.out }) ∧
  (∀ (mv w : Nat) (v u : State) (s : State), s.dev.state ≠ 0 ∧ s.dev.state ≠ 8 → s.pair.state = 0 → s.pair.recover = none →
    s.pair.phase ≠ 1 ∧ s.pair.phase ≠ 2 → v = (if s.dev.state = 1 then s else notePower mv w s) → u =
    { v with pair := { s.pair with cycle := s.pair.cycle + 1, lastCycle := s.beat } } →
    ∃ t, exec (.controlCycle ⟨mv, w⟩ false) s = .next t ∧
      t = cycleDiffers u ∧ t.obj Obj.pairMismatches = (s.obj Obj.pairMismatches + 1) % 2 ^ objBits Obj.pairMismatches ∧ t.obj
        Obj.controlCycles = (s.obj Obj.controlCycles + 1) % 2 ^ objBits Obj.controlCycles) ∧
  (∀ (mv w : Nat) (s : State), s.dev.state ≠ 0 ∧ s.dev.state ≠ 8 → s.pair.state = 0 → s.pair.recover = none → s.pair.phase ≠
    1 ∧ s.pair.phase ≠ 2 → s.pair.second = false →
    ∃ t, exec (.controlCycle ⟨mv, w⟩ false) s = .next t ∧
      t.pair = { s.pair with cycle := s.pair.cycle + 1, lastCycle := s.beat, recover := some s.beat, phase := 0 } ∧ t.out =
        s.out ∧ t.dev = s.dev ∧ (s.pair.phase = 3 → t.obj Obj.drillResult = 2) ∧
      t = { s with
          beat := t.beat, od := t.od, cores := t.cores, dies := t.dies, strings := t.strings, ports := t.ports
          rmem := t.rmem, time := t.time, dev := t.dev, pair := t.pair, pod := t.pod, power := t.power
          cvus := t.cvus, test := t.test, beagle := t.beagle, log := t.log, out := t.out }) ∧
  (∀ (mv w : Nat) (s : State), s.dev.state ≠ 0 ∧ s.dev.state ≠ 8 → s.pair.state = 0 → s.pair.recover = none → s.pair.phase ≠
    1 ∧ s.pair.phase ≠ 2 → s.pair.second = true →
    ∃ t, exec (.controlCycle ⟨mv, w⟩ false) s = .next t ∧
      t.pair = { s.pair with cycle := s.pair.cycle + 1, lastCycle := s.beat, state := s.pair.active + 1, second := false, phase := 0, prev := [], cur := [] }
        ∧
      t = { s with
          beat := t.beat, od := t.od, cores := t.cores, dies := t.dies, strings := t.strings, ports := t.ports
          rmem := t.rmem, time := t.time, dev := t.dev, pair := t.pair, pod := t.pod, power := t.power
          cvus := t.cvus, test := t.test, beagle := t.beagle, log := t.log, out := t.out }) ∧
  (∀ (mv w : Nat) (agree : Bool) (v u : State) (s : State), s.dev.state ≠ 0 ∧ s.dev.state ≠ 8 → s.pair.state ≠ 0 → v = (if
    s.dev.state = 1 then s else notePower mv w s) → u =
    { v with pair := { s.pair with cycle := s.pair.cycle + 1, lastCycle := s.beat } } →
    ∃ t, exec (.controlCycle ⟨mv, w⟩ agree) s = .next t ∧
      t = releaseAll u ∧ t.pair = { s.pair with cycle := s.pair.cycle + 1, lastCycle := s.beat, prev := [], cur := [] } ∧
        t.dev = s.dev) ∧
  (∀ (mv w : Nat) (agree : Bool) (v u : State) (s : State), s.dev.state ≠ 0 ∧ s.dev.state ≠ 8 → s.pair.state = 0 →
    s.pair.recover.isSome = true → v = (if s.dev.state = 1 then s else notePower mv w s) → u =
    { v with pair := { s.pair with cycle := s.pair.cycle + 1, lastCycle := s.beat } } →
    ∃ t, exec (.controlCycle ⟨mv, w⟩ agree) s = .next t ∧
      t = u) ∧
  (∀ (mv w : Nat) (agree : Bool) (v u : State) (s : State), s.dev.state ≠ 0 ∧ s.dev.state ≠ 8 → s.pair.state = 0 →
    s.pair.recover = none → s.pair.phase = 1 → v = (if s.dev.state = 1 then s else notePower mv w s) → u =
    { v with pair := { s.pair with cycle := s.pair.cycle + 1, lastCycle := s.beat } } →
    ∃ t, exec (.controlCycle ⟨mv, w⟩ agree) s = .next t ∧
      t = tracePair 4 { u with pair := { u.pair with phase := 2, drill := s.beat } } ∧ t.pair =
        { s.pair with cycle := s.pair.cycle + 1, lastCycle := s.beat, phase := 2, drill := s.beat } ∧ t.out = s.out) ∧
  (∀ (mv w : Nat) (agree : Bool) (v u : State) (x : State) (s : State), s.dev.state ≠ 0 ∧ s.dev.state ≠ 8 → s.pair.state = 0
    → s.pair.recover = none → s.pair.phase = 2 → s.beat ≤ s.pair.drill + 20000 → v = (if s.dev.state = 1 then s else
    notePower mv w s) → u = { v with pair := { s.pair with cycle := s.pair.cycle + 1, lastCycle := s.beat } } → x = takeOver
    u →
    ∃ t, exec (.controlCycle ⟨mv, w⟩ agree) s = .next t ∧
      t = { x with pair := { x.pair with phase := 3 } } ∧ t.pair =
        { s.pair with cycle := s.pair.cycle + 1, lastCycle := s.beat, phase := 3, active := 1 - s.pair.active, prev := [], cur := [] }
        ∧ t.obj Obj.takeovers = (s.obj Obj.takeovers + 1) % 2 ^ objBits Obj.takeovers) ∧
  (∀ (mv w : Nat) (agree : Bool) (v u : State) (s : State), s.dev.state ≠ 0 ∧ s.dev.state ≠ 8 → s.pair.state = 0 →
    s.pair.recover = none → s.pair.phase = 2 → s.pair.drill + 20000 < s.beat → v = (if s.dev.state = 1 then s else notePower
    mv w s) → u = { v with pair := { s.pair with cycle := s.pair.cycle + 1, lastCycle := s.beat } } →
    ∃ t, exec (.controlCycle ⟨mv, w⟩ agree) s = .next t ∧
      t = u) ∧
  (∀ (mv w : Nat) (s : State), w ≤ powerLimit s ∨ s.dev.state < 2 ∨ s.dev.state = 8 → notePower mv w s =
    { s with power := { s.power with mv := mv, watts := w } }) ∧
  (∀ (mv w n : Nat) (s : State), powerLimit s < w → 2 ≤ s.dev.state → s.dev.state ≠ 8 → n < 16 →
    (notePower mv w s).die n = if (s.die n).capCeil.isNone then
      { s.die n with capCeil := some (estimate (s.die n)), ceilBeat := s.beat } else s.die n) ∧
  (∀ s : State, releasePrev s = s.pair.prev.foldl releaseOut { s with pair := { s.pair with prev := [] } }) ∧
  (∀ s : State, releaseAll s = (s.pair.prev ++ s.pair.cur).foldl releaseOut
    { s with pair := { s.pair with prev := [], cur := [] } }) ∧
  (∀ (site win : Nat) (s : State), releaseOut s (.launch site win) = (s.win win).elim s (fun w => sendFrame opLAUNCH hubSite
    site 19 0 0
    (leBytes 4 w.windowId.toNat ++ leBytes 8 w.launch ++ leBytes 8 w.parts.toNat) none none s)) ∧
  (∀ (unit off v : Nat) (s : State), releaseOut s (.cvuPut unit off v) = cvuReached (.hub (Fin.ofNat 8 unit) 30) off v s) ∧
  (∀ (a b : Nat) (s : State), releaseOut s (.grant a b) = s.emit (.grant a b)) ∧
  (∀ (half st : Nat) (s : State), (goSimplex st half s).pair =
    { s.pair with state := st, recover := none, second := false, phase := 0 }) ∧
  (∀ (a b : Bool) (s : State), ¬(s.pair.recover.isSome = true ∧ s.dev.state ≠ 8) →
    ∃ t, exec (.controllerKatDone a b) s = .next t ∧
      t = s) ∧
  (∀ (s : State), s.pair.recover.isSome = true ∧ s.dev.state ≠ 8 →
    ∃ t, exec (.controllerKatDone true true) s = .next t ∧
      t = { s with pair := { s.pair with recover := none, second := true } }) ∧
  (∀ (s : State), s.pair.recover.isSome = true ∧ s.dev.state ≠ 8 →
    ∃ t, exec (.controllerKatDone true false) s = .next t ∧
      t = releasePrev (goSimplex (s.pair.active + 1) 3 s) ∧ t.pair =
        { s.pair with state := s.pair.active + 1, recover := none, second := false, phase := 0, prev := [] }) ∧
  (∀ (s : State), s.pair.recover.isSome = true ∧ s.dev.state ≠ 8 → s.pair.active ≤ 1 →
    ∃ t, exec (.controllerKatDone false true) s = .next t ∧
      t = takeOver (goSimplex (2 - s.pair.active) 3 s) ∧ t.pair =
        { s.pair with state := 2 - s.pair.active, active := 1 - s.pair.active, recover := none, second := false, phase := 0, prev := [], cur := [] }
        ∧ t.obj Obj.takeovers = (s.obj Obj.takeovers + 1) % 2 ^ objBits Obj.takeovers) ∧
  (∀ (s : State), s.pair.recover.isSome = true ∧ s.dev.state ≠ 8 →
    ∃ t, exec (.controllerKatDone false false) s = .next t ∧
      t = faultStop s ∧ t.dev.state = 8 ∧ t.mem = [] ∧ t.cores = [] ∧ t.wins = [] ∧ t.power.rails = s.power.rails % 4 ∧
        t.config = { s.config with staged := [], owner := none, subs := [], segs := [] } ∧ t.out = s.out) ∧
  (∀ (s : State), s.dev.state ≠ 0 ∧ s.dev.state ≠ 8 ∧ s.pair.state = 0 ∧ s.pair.recover = none →
    ∃ t, exec (.tandemLoss) s = .next t ∧
      t = releaseAll (goSimplex 3 1 s) ∧ t.pair =
        { s.pair with state := 3, second := false, phase := 0, prev := [], cur := [] }) ∧
  (∀ (s : State), ¬(s.dev.state ≠ 0 ∧ s.dev.state ≠ 8 ∧ s.pair.state = 0 ∧ s.pair.recover = none) →
    ∃ t, exec (.tandemLoss) s = .next t ∧
      t = s) ∧
  (∀ (s : State), 2 ≤ s.dev.state ∧ s.dev.state ≤ 7 ∧ s.pair.recover = none ∧ s.pair.lastCycle + 20000 ≤ s.beat →
    ∃ t, exec (.cycleWatchdog) s = .next t ∧
      t = faultStop s ∧ t.dev.state = 8 ∧ t.mem = [] ∧ t.cores = [] ∧ t.wins = [] ∧ t.power.rails = s.power.rails % 4 ∧
        t.config = { s.config with staged := [], owner := none, subs := [], segs := [] } ∧ t.out = s.out) ∧
  (∀ (s : State), ¬(2 ≤ s.dev.state ∧ s.dev.state ≤ 7 ∧ s.pair.recover = none ∧ s.pair.lastCycle + 20000 ≤ s.beat) →
    ∃ t, exec (.cycleWatchdog) s = .next t ∧
      t = s) ∧
  (∀ (s : State), s.obj Obj.drillAutoDays ≠ 0 ∧ s.pair.state = 0 ∧ s.pair.recover = none ∧ s.pair.phase = 0 ∧ 3 ≤ s.dev.state
    ∧ s.dev.state ≤ 6 ∧ s.pair.lastAuto + s.obj Obj.drillAutoDays * 86400000000000 ≤ s.beat →
    ∃ t, exec (.drillAuto) s = .next t ∧
      t = { s with pair := { s.pair with phase := 1, lastAuto := s.beat } }) ∧
  (∀ (s : State), ¬(s.obj Obj.drillAutoDays ≠ 0 ∧ s.pair.state = 0 ∧ s.pair.recover = none ∧ s.pair.phase = 0 ∧ 3 ≤
    s.dev.state ∧ s.dev.state ≤ 6 ∧ s.pair.lastAuto + s.obj Obj.drillAutoDays * 86400000000000 ≤ s.beat) →
    ∃ t, exec (.drillAuto) s = .next t ∧
      t = s) ∧
  (∀ (s : State), s.pair.phase = 2 ∧ s.pair.drill + 20000 < s.beat →
    ∃ t, exec (.drillTakeoverTimeout) s = .next t ∧
      t = releaseAll (goSimplex (s.pair.active + 1) 1 ((s.setObj Obj.drillResult 2).setObj Obj.drillLastBeat s.beat)) ∧
        t.pair = { s.pair with state := s.pair.active + 1, recover := none, second := false, phase := 0, prev := [], cur := [] }
        ∧ t.obj Obj.drillResult = 2) ∧
  (∀ (s : State), ¬(s.pair.phase = 2 ∧ s.pair.drill + 20000 < s.beat) →
    ∃ t, exec (.drillTakeoverTimeout) s = .next t ∧
      t = s)

/-- DRAINING_DONE with no stream left leads to Ready, or to Standby with the rails off. BOOT_START counts the boot, starts
  each half whose test passes on the newest of its copies that verify, classes the configuration copies, raises the
  rails and counts the tests; with both halves failed the module stops. BOOT_COMPLETE with nothing under way leads to
  Held where no configuration is in force or an ensemble member must roll call, to service where serving is enabled, an
  image Resident and a port up, and else to Ready. The staged set of an idle owner is dropped, and an idle line ends the
  hunt of the UART. Otherwise these change nothing. -/
def Obligations.DeviceStates : Prop :=
  (∀ (s : State), ¬(s.dev.state = 7 ∧ s.serve.ctxs = []) →
    ∃ t, exec (.drainingDone) s = .next t ∧
      t = s) ∧
  (∀ (s : State), s.dev.state = 7 ∧ s.serve.ctxs = [] → s.dev.drainTo ≠ 2 →
    ∃ t, exec (.drainingDone) s = .next t ∧
      t = enterState 4 s ∧ t.dev = { s.dev with state := 4 } ∧ Untouched logCounters s t ∧
      t = { s with od := t.od, dev := t.dev, beagle := t.beagle }) ∧
  (∀ (s : State), s.dev.state = 7 ∧ s.serve.ctxs = [] → s.dev.drainTo = 2 →
    ∃ t, exec (.drainingDone) s = .next t ∧
      t = enterState 1 (railsOff s) ∧ t.dev.state = 1 ∧ t.mem = [] ∧ t.dies = [] ∧ t.power.rails = s.power.rails % 4 ∧
        t.images.store = s.images.store ∧ t.config = s.config) ∧
  (∀ (n0 n1 : List NorCopy) (p0 p1 : Bool) (c0 c1 : Bytes) (fails : List Nat) (s : State), ¬(s.dev.state = 2 ∧ s.dev.started
    = false) →
    ∃ t, exec (.bootStart n0 n1 p0 p1 c0 c1 fails) s = .next t ∧
      t = s) ∧
  (∀ (n0 n1 : List NorCopy) (p0 p1 : Bool) (c0 c1 : Bytes) (fails : List Nat) (a b : Bool) (s : State), s.dev.state = 2 ∧
    s.dev.started = false → a = (p0 && (norStart n0).isSome) → b = (p1 && (norStart n1).isSome) → a = false ∧ b = false →
    ∃ t, exec (.bootStart n0 n1 p0 p1 c0 c1 fails) s = .next t ∧
      t = faultStop s ∧ t.dev.state = 8) ∧
  (∀ (n0 n1 : List NorCopy) (p0 p1 : Bool) (c0 c1 : Bytes) (fails : List Nat) (a b : Bool) (u v w x : State) (s : State),
    s.dev.state = 2 ∧ s.dev.started = false → a = (p0 && (norStart n0).isSome) → b = (p1 && (norStart n1).isSome) → a = true
    ∨ b = true → u = bootPair ((norStart n0).getD 0) ((norStart n1).getD 0) a b (s.count Obj.bootCount 1) → v = bootConfig c0
    c1 { u with ens := {} } → w = v.setObj Obj.mapDigest (crc32c (mapBytes v)) → x = takeConfig (bootReasons (bootTests fails
    (bootRails w))) →
    ∃ t, exec (.bootStart n0 n1 p0 p1 c0 c1 fails) s = .next t ∧
      t = (if configGood v.config then startBootLoads x else x)) ∧
  (∀ (n0 n1 : List NorCopy) (p0 p1 : Bool) (c0 c1 : Bytes) (fails : List Nat) (a b : Bool) (s : State), s.dev.state = 2 ∧
    s.dev.started = false → a = (p0 && (norStart n0).isSome) → b = (p1 && (norStart n1).isSome) → a = true ∨ b = true →
    ∃ t, exec (.bootStart n0 n1 p0 p1 c0 c1 fails) s = .next t ∧
      t.power.rails = 127 ∧ t.dev.started = true ∧ t.dev.state = 2 ∧ t.dev.firmware = (if a then (norStart n0).getD 0 else
        (norStart n1).getD 0) ∧ t.pair.active = (if a then 0 else 1) ∧
      t.pair.state = (if a ∧ b then (if (norStart n0).getD 0 = (norStart n1).getD 0 then 0 else 3) else if a then 1 else 2) ∧
        t.pair.recover = none ∧ t.config.copyA = readCopy c0 ∧ t.config.copyB = readCopy c1 ∧
      t.config.gen = (if (readCopy c0).status = 0 ∧ (readCopy c1).status = 0 ∧ (readCopy c0).gen = (readCopy c1).gen then
        (readCopy c0).gen else 0) ∧
      (∀ k, k < 8 → tget 0 k t.dram.stackSt = 3) ∧ (∀ n, n < 16 → (t.die n).reset.isSome = true) ∧ t.config.staged = [] ∧
        t.config.owner = none ∧ t.mem = s.mem ∧
      t = { s with
          beat := t.beat, od := t.od, odb := t.odb, mem := t.mem, cores := t.cores, wins := t.wins, dies := t.dies
          whips := t.whips, sched := t.sched, arbs := t.arbs, strings := t.strings, tiles := t.tiles, bus := t.bus
          tags := t.tags, harps := t.harps, domains := t.domains, sounding := t.sounding, dram := t.dram
          ports := t.ports, fabric := t.fabric, rmem := t.rmem, retr := t.retr, serve := t.serve, images := t.images
          time := t.time, config := t.config, dev := t.dev, pair := t.pair, ens := t.ens, pod := t.pod
          power := t.power, cvus := t.cvus, kat := t.kat, test := t.test, beagle := t.beagle, log := t.log
          bad := t.bad }) ∧
  (∀ l : List NorCopy, (norStart l = none ↔ ∀ c ∈ l, c.valid = false) ∧
    (∀ v, norStart l = some v → (∃ c ∈ l, c.valid = true ∧ c.version = v) ∧ ∀ c ∈ l, c.valid = true → c.version ≤ v)) ∧
  (∀ (ms : W32) (s : State), ¬(s.dev.state = 2 ∧ s.dev.started = true ∧ bootQuiet s = true) →
    ∃ t, exec (.bootComplete ms) s = .next t ∧
      t = s) ∧
  (∀ (ms : W32) (u : State) (s : State), s.dev.state = 2 ∧ s.dev.started = true ∧ bootQuiet s = true → s.config.gen = 0 → u =
    s.setObj Obj.bootElapsedMs ms.toNat →
    ∃ t, exec (.bootComplete ms) s = .next t ∧
      t = enterState 3 { u with dev := { s.dev with heldAtBoot := true } } ∧ t.dev =
        { s.dev with state := 3, heldAtBoot := true } ∧ t.obj Obj.bootElapsedMs = ms.toNat ∧ t.ens = s.ens) ∧
  (∀ (ms : W32) (u : State) (s : State), s.dev.state = 2 ∧ s.dev.started = true ∧ bootQuiet s = true → s.config.gen ≠ 0 →
    inEnsemble s = true → u = s.setObj Obj.bootElapsedMs ms.toNat →
    ∃ t, exec (.bootComplete ms) s = .next t ∧
      t = startRollCall (enterState 3 u) ∧ t.dev.state = 3 ∧ t.dev.heldAtBoot = s.dev.heldAtBoot ∧ t.ens = { state := 1 }) ∧
  (∀ (ms : W32) (s : State), s.dev.state = 2 ∧ s.dev.started = true ∧ bootQuiet s = true → s.config.gen ≠ 0 → inEnsemble s =
    false → ¬(s.obj Obj.serveEnable = 1 ∧ anyResident s = true ∧ portReady s = true) →
    ∃ t, exec (.bootComplete ms) s = .next t ∧
      t.dev = { s.dev with state := 4 } ∧ t.obj Obj.bootElapsedMs = ms.toNat ∧ Untouched (Obj.bootElapsedMs :: logCounters) s
        t ∧
      t = { s with od := t.od, dev := t.dev, beagle := t.beagle }) ∧
  (∀ (ms : W32) (s : State), s.dev.state = 2 ∧ s.dev.started = true ∧ bootQuiet s = true → s.config.gen ≠ 0 → inEnsemble s =
    false → (s.obj Obj.serveEnable = 1 ∧ anyResident s = true ∧ portReady s = true) →
    ∃ t, exec (.bootComplete ms) s = .next t ∧
      t.dev = { s.dev with state := if s.obj Obj.stateReasons = 0 then 5 else 6 } ∧ t.obj Obj.bootElapsedMs = ms.toNat ∧
        Untouched (Obj.bootElapsedMs :: logCounters) s t ∧
      t = { s with od := t.od, dev := t.dev, beagle := t.beagle }) ∧
  (∀ (s : State), s.config.owner.isSome = true ∧ s.config.ownerBeat + s.obj Obj.stageIdleTimeoutS * 1000000000 ≤ s.beat →
    ∃ t, exec (.stageIdleTimeout) s = .next t ∧
      t = { s with config := { s.config with staged := [], owner := none } }) ∧
  (∀ (s : State), ¬(s.config.owner.isSome = true ∧ s.config.ownerBeat + s.obj Obj.stageIdleTimeoutS * 1000000000 ≤ s.beat) →
    ∃ t, exec (.stageIdleTimeout) s = .next t ∧
      t = s) ∧
  (∀ (s : State),
    ∃ t, exec (.uartIdleResync) s = .next t ∧
      t = { s with config := { s.config with uartHunt := false } })

/-- ROLL_CALL publishes a record of kind 1 at the beat and judges the roll; ENS_RECORD keeps the latest record of each
  member, drops one under another key, and judges it by its kind and the state; at B_S a member whose check passes runs,
  and leaves Held, and one whose check fails publishes STOP; HEARTBEAT publishes a record of kind 2; a missing heartbeat
  fails item 6 and stops the ensemble, as does a STOP. Otherwise these change nothing. -/
def Obligations.Ensembles : Prop :=
  (∀ (u : State) (s : State), s.ens.state = 1 ∧ 3 ≤ s.dev.state ∧ s.dev.state ≠ 8 ∧ (erKind s.ens.own = 0 ∨ (erKind s.ens.own
    ≠ 3 ∧ s.ens.lastBeat + 1000000000 ≤ s.beat)) → u =
    { s with ens := { s.ens with own := ensRec s 1 s.beat, lastBeat := s.beat } } →
    ∃ t, exec (.rollCall) s = .next t ∧
      t = judgeRoll u ∧ t.ens.lastBeat = s.beat ∧ t.ens.state = 1 ∧ t.ens.records = s.ens.records ∧ (erKind t.ens.own = 1 ∨
        erKind t.ens.own = 3 ∨ erKind t.ens.own = 4) ∧ erNode t.ens.own = s.fabric.node.toNat ∧
      t = { s with od := t.od, ens := t.ens, beagle := t.beagle, log := t.log }) ∧
  (∀ (s : State), ¬(s.ens.state = 1 ∧ 3 ≤ s.dev.state ∧ s.dev.state ≠ 8 ∧ (erKind s.ens.own = 0 ∨ (erKind s.ens.own ≠ 3 ∧
    s.ens.lastBeat + 1000000000 ≤ s.beat))) →
    ∃ t, exec (.rollCall) s = .next t ∧
      t = s) ∧
  (∀ (s u : State), u = noteItems (rollItems s).1 (rollItems s).2 s →
    judgeRoll s = if ((rollItems s).1 ≠ 0 ∧ (fullSet u = true ∨ (u.ens.start.isSome = true ∧ (rollItems s).1 ≠ 64))) then (if
      erKind u.ens.own = 1 ∨ erKind u.ens.own = 3 then publish 4 u.beat { u with ens := { u.ens with start := none } } else
      { u with ens := { u.ens with start := none } })
      else if ((rollItems s).1 = 0 ∧ anyStop u = false ∧ u.ens.start = none ∧ erKind u.ens.own = 1 ∧ lowestNode (memberNodes
        u) = u.fabric.node.toNat) then publish 3 (u.beat + 10000000)
        { u with ens := { u.ens with start := some (u.beat + 10000000) } } else u) ∧
  (∀ (key : Bytes) (r : BitVec 512) (s : State), ¬(s.dev.state ≠ 0 ∧ s.dev.state ≠ 8) →
    ∃ t, exec (.ensRecord key r) s = .next t ∧
      t = s) ∧
  (∀ (key : Bytes) (r : BitVec 512) (s : State), s.dev.state ≠ 0 ∧ s.dev.state ≠ 8 → s.objB Obj.ensKey = [] ∨ key ≠ s.objB
    Obj.ensKey →
    ∃ t, exec (.ensRecord key r) s = .next t ∧
      t = s.count Obj.mgmtAuthDrops 1 ∧ t.obj Obj.mgmtAuthDrops = (s.obj Obj.mgmtAuthDrops + 1) % 2 ^ objBits
        Obj.mgmtAuthDrops) ∧
  (∀ (key : Bytes) (r : BitVec 512) (s : State), s.dev.state ≠ 0 ∧ s.dev.state ≠ 8 → s.objB Obj.ensKey ≠ [] → key = s.objB
    Obj.ensKey → inEnsemble s = false ∨ erNode r = s.fabric.node.toNat ∨ (memberNodes s).contains (erNode r) = false →
    ∃ t, exec (.ensRecord key r) s = .next t ∧
      t = s) ∧
  (∀ (key : Bytes) (r : BitVec 512) (v : State) (s : State), s.dev.state ≠ 0 ∧ s.dev.state ≠ 8 → (s.objB Obj.ensKey ≠ [] ∧
    key = s.objB Obj.ensKey ∧ inEnsemble s = true ∧ erNode r ≠ s.fabric.node.toNat ∧ (memberNodes s).contains (erNode r) =
    true) → v = { s with ens := { s.ens with records := (BitVec.ofNat 16 (erNode r), r, s.beat) :: s.ens.records.filter (fun x => x.1 != BitVec.ofNat 16 (erNode r)) } }
    → (s.ens.state ≠ 1 ∧ s.ens.state ≠ 2) ∨ (s.ens.state = 2 ∧ erKind r ≠ 4 ∧ erKind r ≠ 2) →
    ∃ t, exec (.ensRecord key r) s = .next t ∧
      t = v) ∧
  (∀ (key : Bytes) (r : BitVec 512) (v w : State) (s : State), s.dev.state ≠ 0 ∧ s.dev.state ≠ 8 → (s.objB Obj.ensKey ≠ [] ∧
    key = s.objB Obj.ensKey ∧ inEnsemble s = true ∧ erNode r ≠ s.fabric.node.toNat ∧ (memberNodes s).contains (erNode r) =
    true) → v = { s with ens := { s.ens with records := (BitVec.ofNat 16 (erNode r), r, s.beat) :: s.ens.records.filter (fun x => x.1 != BitVec.ofNat 16 (erNode r)) } }
    → s.ens.state = 1 → w = (if erKind r = 4 then { v with ens := { v.ens with start := none } } else if erKind r = 3 ∧
    erNode r = lowestNode (memberNodes s) ∧ anyStop v = false then { v with ens := { v.ens with start := some (erBeat r) } }
    else v) → erKind s.ens.own = 0 →
    ∃ t, exec (.ensRecord key r) s = .next t ∧
      t = w) ∧
  (∀ (key : Bytes) (r : BitVec 512) (v w : State) (s : State), s.dev.state ≠ 0 ∧ s.dev.state ≠ 8 → (s.objB Obj.ensKey ≠ [] ∧
    key = s.objB Obj.ensKey ∧ inEnsemble s = true ∧ erNode r ≠ s.fabric.node.toNat ∧ (memberNodes s).contains (erNode r) =
    true) → v = { s with ens := { s.ens with records := (BitVec.ofNat 16 (erNode r), r, s.beat) :: s.ens.records.filter (fun x => x.1 != BitVec.ofNat 16 (erNode r)) } }
    → s.ens.state = 1 → w = (if erKind r = 4 then { v with ens := { v.ens with start := none } } else if erKind r = 3 ∧
    erNode r = lowestNode (memberNodes s) ∧ anyStop v = false then { v with ens := { v.ens with start := some (erBeat r) } }
    else v) → erKind s.ens.own ≠ 0 →
    ∃ t, exec (.ensRecord key r) s = .next t ∧
      t = judgeRoll w) ∧
  (∀ (key : Bytes) (r : BitVec 512) (v : State) (s : State), s.dev.state ≠ 0 ∧ s.dev.state ≠ 8 → (s.objB Obj.ensKey ≠ [] ∧
    key = s.objB Obj.ensKey ∧ inEnsemble s = true ∧ erNode r ≠ s.fabric.node.toNat ∧ (memberNodes s).contains (erNode r) =
    true) → v = { s with ens := { s.ens with records := (BitVec.ofNat 16 (erNode r), r, s.beat) :: s.ens.records.filter (fun x => x.1 != BitVec.ofNat 16 (erNode r)) } }
    → s.ens.state = 2 → erKind r = 4 →
    ∃ t, exec (.ensRecord key r) s = .next t ∧
      t = stopEnsemble v ∧ t.ens.state = 3 ∧ t.ens.start = none ∧ t.ens.records = v.ens.records ∧ (4 ≤ s.dev.state ∧
        s.dev.state ≤ 7 → t.dev.state = 3)) ∧
  (∀ (key : Bytes) (r : BitVec 512) (v : State) (s : State), s.dev.state ≠ 0 ∧ s.dev.state ≠ 8 → (s.objB Obj.ensKey ≠ [] ∧
    key = s.objB Obj.ensKey ∧ inEnsemble s = true ∧ erNode r ≠ s.fabric.node.toNat ∧ (memberNodes s).contains (erNode r) =
    true) → v = { s with ens := { s.ens with records := (BitVec.ofNat 16 (erNode r), r, s.beat) :: s.ens.records.filter (fun x => x.1 != BitVec.ofNat 16 (erNode r)) } }
    → s.ens.state = 2 → erKind r = 2 →
    ∃ t, exec (.ensRecord key r) s = .next t ∧
      t = judgeHeartbeat r v) ∧
  (∀ (r : BitVec 512) (s u : State) (bound : Bool) (m : Nat), bound = (!timeGood r && erLocked r && erRef r) →
    m = (if tget 0 (BitVec.ofNat 16 (erNode r)).toNat s.ens.maps = BitVec.ofNat 32 (erMap r) then recordItems s (ensRec s 2
      s.beat) r 0 else recordItems s (ensRec s 2 s.beat) r 0 ||| 16) →
    u = { s with ens := { s.ens with slow := if bound then (BitVec.ofNat 16 (erNode r)) :: s.ens.slow.filter (· != (BitVec.ofNat 16 (erNode r))) else s.ens.slow.filter (· != (BitVec.ofNat 16 (erNode r))) } }
      →
    judgeHeartbeat r s = if (if bound && !s.ens.slow.contains (BitVec.ofNat 16 (erNode r)) && m.testBit 5 then m - 32 else m)
      = 0 then u else detectStop (if bound && !s.ens.slow.contains (BitVec.ofNat 16 (erNode r)) && m.testBit 5 then m - 32
      else m) (BitVec.ofNat 16 (erNode r)).toNat u) ∧
  (∀ (items node : Nat) (s : State), detectStop items node s = stopEnsemble (publish 4 s.beat
    { s with ens := { s.ens with items, badNode := BitVec.ofNat 16 node } })) ∧
  (∀ s u : State, u = { s with ens := { s.ens with state := 3, start := none } } → stopEnsemble s = if 4 ≤ s.dev.state ∧
    s.dev.state ≤ 7 then
    enterState 3 (endRequests (fun _ => true) 5 4 (logEvent Obj.deviceState 2 (itemCode s.ens.items) 0xFF 0 (leBytes 2
      s.ens.badNode.toNat) u)) else u) ∧
  (∀ (s : State), ¬(s.ens.start.any (fun b => decide (b ≤ s.beat)) = true ∧ s.ens.state = 1 ∧ 3 ≤ s.dev.state ∧ s.dev.state ≠
    8) →
    ∃ t, exec (.ensembleStart) s = .next t ∧
      t = s) ∧
  (∀ (u : State) (s : State), s.ens.start.any (fun b => decide (b ≤ s.beat)) = true → s.ens.state = 1 ∧ 3 ≤ s.dev.state ∧
    s.dev.state ≠ 8 → (rollItems s).1 ≠ 0 ∨ anyStop s = true → u = noteItems (rollItems s).1 (rollItems s).2
    { s with ens := { s.ens with start := none } } →
    ∃ t, exec (.ensembleStart) s = .next t ∧
      t = publish 4 s.beat u ∧ t.ens.state = 1 ∧ t.ens.start = none ∧ erKind t.ens.own = 4 ∧ t.dev.state = s.dev.state ∧
      t = { s with od := t.od, ens := t.ens, beagle := t.beagle, log := t.log }) ∧
  (∀ (u v : State) (s : State), s.ens.start.any (fun b => decide (b ≤ s.beat)) = true → s.ens.state = 1 ∧ 3 ≤ s.dev.state ∧
    s.dev.state ≠ 8 → (rollItems s).1 = 0 ∧ anyStop s = false → u = noteItems (rollItems s).1 (rollItems s).2
    { s with ens := { s.ens with start := none } } → v =
    { u with ens := { u.ens with state := 2, maps := (memberNodes s).foldl (fun x n => (rollRecord u n).elim x (fun r => tset n (BitVec.ofNat 32 (erMap r)) x)) [], records := s.ens.records.map (fun x => (x.1, x.2.1, s.beat)), slow := [], lastBeat := s.beat } }
    →
    ∃ t, exec (.ensembleStart) s = .next t ∧
      t = (if s.dev.state = 3 then goServe v else v) ∧ t.ens.state = 2 ∧ t.ens.start = none ∧ t.ens.lastBeat = s.beat ∧
        t.ens.slow = []) ∧
  (∀ s : State, goServe s = if s.obj Obj.serveEnable = 1 ∧ anyResident s = true ∧ portReady s = true then enterState (if
    s.obj Obj.stateReasons = 0 then 5 else 6) s else enterState 4 s) ∧
  (∀ (s : State), s.ens.state = 2 ∧ s.ens.lastBeat + 1000000 * s.obj Obj.ensHeartbeatMs ≤ s.beat →
    ∃ t, exec (.heartbeat) s = .next t ∧
      t = { s with ens := { s.ens with own := ensRec s 2 s.beat, lastBeat := s.beat } }) ∧
  (∀ (s : State), ¬(s.ens.state = 2 ∧ s.ens.lastBeat + 1000000 * s.obj Obj.ensHeartbeatMs ≤ s.beat) →
    ∃ t, exec (.heartbeat) s = .next t ∧
      t = s) ∧
  (∀ (node : W16) (s : State), s.ens.state = 2 ∧ node ≠ s.fabric.node ∧ (memberNodes s).contains node.toNat = true ∧
    (s.ens.records.find? (fun x => x.1 == node)).any (fun x => decide (x.2.2 + 3 * (1000000 * s.obj Obj.ensHeartbeatMs) ≤
    s.beat)) = true →
    ∃ t, exec (.heartbeatMissing node) s = .next t ∧
      t = detectStop 64 node.toNat s ∧ t.ens.state = 3 ∧ t.ens.items = 64 ∧ t.ens.badNode = node ∧ erKind t.ens.own = 4 ∧ (4
        ≤ s.dev.state ∧ s.dev.state ≤ 7 → t.dev.state = 3)) ∧
  (∀ (node : W16) (s : State), ¬(s.ens.state = 2 ∧ node ≠ s.fabric.node ∧ (memberNodes s).contains node.toNat = true ∧
    (s.ens.records.find? (fun x => x.1 == node)).any (fun x => decide (x.2.2 + 3 * (1000000 * s.obj Obj.ensHeartbeatMs) ≤
    s.beat)) = true) →
    ∃ t, exec (.heartbeatMissing node) s = .next t ∧
      t = s)

/-- Without power a message has no effect. A UART frame with a bad CRC, or inside the hunt, is discarded and the hunt goes
  on; a datagram that does not authenticate or repeats a seq is dropped and counted; another boot_id is answered 0x1105
  with the current one; levels without 1 are answered 0x1603 at a level left open, a free value (log entry 9); every
  other message is carried out. READ, WRITE, STAGE, COMMIT, SUBSCRIBE and the writes of single objects all go through
  these checks. A READ answers code 0, the type, the length of the value and its bytes from the offset on, at most max
  and at most 1,376 of them; a description record is read in the same way. An index or a subindex not in use, a
  write-only object, a log entry gone and a third kind of read are answered with their codes; in Fault-stop only the
  objects of R292 are read. A register of a check-value unit is read at the unit; a unit that is not there is not read. -/
def Obligations.MessagesAndReads : Prop :=
  (∀ (msg : Nat) (h : DictHdr) (op : State → State) (s : State), dictAdmit msg h op s =
    if s.powered = false then s
    else if h.uart = true ∧ (s.config.uartHunt = true ∨ h.crcOk = false) then
      { s with config := { s.config with uartHunt := true } }
    else if h.uart = false ∧ (authentic s h = false ∨ seqFresh s h = false) then s.count Obj.mgmtAuthDrops 1
    else if h.boot.toNat ≠ s.obj Obj.bootCount then
      respond msg h (fitBytes (max 6 (bodyBytes msg)) (leBytes 2 0x1105 ++ leBytes 4 (s.obj Obj.bootCount))) (noteRequest h
        s)
    else if levelOk h = false then
      (respondAt (s.freeWord.toNat % 16) msg h (fitBytes (bodyBytes msg) (leBytes 2 0x1603)) (noteRequest h s)).drawn 1
    else op (noteRequest h s)) ∧
  (∀ (level msg : Nat) (h : DictHdr) (body : Bytes) (s : State), respondAt level msg h body s =
    ctlEmit (dictOut h.uart level (0x80 + msg) h.client.toNat (s.obj Obj.bootCount) (2 ^ 63 + h.seq.toNat) body) s) ∧
  (∀ (h : DictHdr) (index : W16) (sub what : Byte) (off max : Nat) (s : State),
    ∃ t, exec (.read (.object h index sub what off max)) s = .next t ∧
      t = dictAdmit 1 h (dictRead h (keyOf index sub) what.toNat off max) s) ∧
  (∀ (h : DictHdr) (index : W16) (sub what : Byte) (off max : Nat) (s : State), s.powered = true → h.uart = false → authentic
    s h = false ∨ seqFresh s h = false →
    ∃ t, exec (.read (.object h index sub what off max)) s = .next t ∧
      t = s.count Obj.mgmtAuthDrops 1) ∧
  (∀ (h : DictHdr) (index : W16) (sub what : Byte) (off max : Nat) (s : State), s.powered = true → h.uart = true →
    s.config.uartHunt = true ∨ h.crcOk = false →
    ∃ t, exec (.read (.object h index sub what off max)) s = .next t ∧
      t = { s with config := { s.config with uartHunt := true } }) ∧
  (∀ (h : DictHdr) (index : W16) (sub what : Byte) (off max : Nat) (s : State), s.powered = true → s.dev.state ≠ 8 → if
    h.uart then s.config.uartHunt = false ∧ h.crcOk = true else authentic s h = true ∧ seqFresh s h = true → h.boot.toNat ≠
    s.obj Obj.bootCount →
    ∃ t, exec (.read (.object h index sub what off max)) s = .next t ∧
      Replied h 1 (fitBytes 10 (leBytes 2 0x1105 ++ leBytes 4 (s.obj Obj.bootCount))) s t ∧ t.config = (noteRequest h
        s).config ∧
      t = { s with config := t.config, pair := t.pair }) ∧
  (∀ (h : DictHdr) (index : W16) (sub what : Byte) (off max : Nat) (s : State), Admitted h s →
    ∃ t, exec (.read (.object h index sub what off max)) s = .next t ∧
      t = dictRead h (keyOf index sub) what.toNat off max (noteRequest h s)) ∧
  (∀ (index : W16) (sub : Byte) (w : WReq) (s : State),
    ∃ t, exec (.registerWrite (.object index sub w)) s = .next t ∧
      t = dictAdmit 2 w.hdr (dictWrite (keyOf index sub) w {}) s) ∧
  (∀ (index : W16) (sub : Byte) (w : WReq) (s : State), s.powered = true → w.hdr.uart = false → authentic s w.hdr = false ∨
    seqFresh s w.hdr = false →
    ∃ t, exec (.registerWrite (.object index sub w)) s = .next t ∧
      t = s.count Obj.mgmtAuthDrops 1) ∧
  (∀ (index : W16) (sub : Byte) (w : WReq) (s : State), s.powered = true → w.hdr.uart = true → s.config.uartHunt = true ∨
    w.hdr.crcOk = false →
    ∃ t, exec (.registerWrite (.object index sub w)) s = .next t ∧
      t = { s with config := { s.config with uartHunt := true } }) ∧
  (∀ (index : W16) (sub : Byte) (w : WReq) (s : State), s.powered = true → s.dev.state ≠ 8 → if w.hdr.uart then
    s.config.uartHunt = false ∧ w.hdr.crcOk = true else authentic s w.hdr = true ∧ seqFresh s w.hdr = true → w.hdr.boot.toNat
    ≠ s.obj Obj.bootCount →
    ∃ t, exec (.registerWrite (.object index sub w)) s = .next t ∧
      Replied w.hdr 2 (fitBytes 6 (leBytes 2 0x1105 ++ leBytes 4 (s.obj Obj.bootCount))) s t ∧ t.config = (noteRequest w.hdr
        s).config ∧
      t = { s with config := t.config, pair := t.pair }) ∧
  (∀ (index : W16) (sub : Byte) (w : WReq) (s : State), Admitted w.hdr s →
    ∃ t, exec (.registerWrite (.object index sub w)) s = .next t ∧
      t = dictWrite (keyOf index sub) w {} (noteRequest w.hdr s)) ∧
  (∀ (index : W16) (sub : Byte) (w : WReq) (s : State),
    ∃ t, exec (.stage index sub w) s = .next t ∧
      t = dictAdmit 3 w.hdr (dictStage (keyOf index sub) w) s) ∧
  (∀ (index : W16) (sub : Byte) (w : WReq) (s : State), s.powered = true → w.hdr.uart = false → authentic s w.hdr = false ∨
    seqFresh s w.hdr = false →
    ∃ t, exec (.stage index sub w) s = .next t ∧
      t = s.count Obj.mgmtAuthDrops 1) ∧
  (∀ (index : W16) (sub : Byte) (w : WReq) (s : State), s.powered = true → w.hdr.uart = true → s.config.uartHunt = true ∨
    w.hdr.crcOk = false →
    ∃ t, exec (.stage index sub w) s = .next t ∧
      t = { s with config := { s.config with uartHunt := true } }) ∧
  (∀ (index : W16) (sub : Byte) (w : WReq) (s : State), s.powered = true → s.dev.state ≠ 8 → if w.hdr.uart then
    s.config.uartHunt = false ∧ w.hdr.crcOk = true else authentic s w.hdr = true ∧ seqFresh s w.hdr = true → w.hdr.boot.toNat
    ≠ s.obj Obj.bootCount →
    ∃ t, exec (.stage index sub w) s = .next t ∧
      Replied w.hdr 3 (fitBytes 10 (leBytes 2 0x1105 ++ leBytes 4 (s.obj Obj.bootCount))) s t ∧ t.config = (noteRequest w.hdr
        s).config ∧
      t = { s with config := t.config, pair := t.pair }) ∧
  (∀ (index : W16) (sub : Byte) (w : WReq) (s : State), Admitted w.hdr s →
    ∃ t, exec (.stage index sub w) s = .next t ∧
      t = dictStage (keyOf index sub) w (noteRequest w.hdr s)) ∧
  (∀ (h : DictHdr) (count digest : W32) (s : State),
    ∃ t, exec (.commit h count digest) s = .next t ∧
      t = dictAdmit 4 h (dictCommit h count.toNat digest.toNat) s) ∧
  (∀ (h : DictHdr) (count digest : W32) (s : State), s.powered = true → h.uart = false → authentic s h = false ∨ seqFresh s h
    = false →
    ∃ t, exec (.commit h count digest) s = .next t ∧
      t = s.count Obj.mgmtAuthDrops 1) ∧
  (∀ (h : DictHdr) (count digest : W32) (s : State), s.powered = true → h.uart = true → s.config.uartHunt = true ∨ h.crcOk =
    false →
    ∃ t, exec (.commit h count digest) s = .next t ∧
      t = { s with config := { s.config with uartHunt := true } }) ∧
  (∀ (h : DictHdr) (count digest : W32) (s : State), s.powered = true → s.dev.state ≠ 8 → if h.uart then s.config.uartHunt =
    false ∧ h.crcOk = true else authentic s h = true ∧ seqFresh s h = true → h.boot.toNat ≠ s.obj Obj.bootCount →
    ∃ t, exec (.commit h count digest) s = .next t ∧
      Replied h 4 (fitBytes 13 (leBytes 2 0x1105 ++ leBytes 4 (s.obj Obj.bootCount))) s t ∧ t.config = (noteRequest h
        s).config ∧
      t = { s with config := t.config, pair := t.pair }) ∧
  (∀ (h : DictHdr) (count digest : W32) (s : State), Admitted h s →
    ∃ t, exec (.commit h count digest) s = .next t ∧
      t = dictCommit h count.toNat digest.toNat (noteRequest h s)) ∧
  (∀ (h : DictHdr) (index : W16) (sub mode : Byte) (period id : W16) (s : State),
    ∃ t, exec (.subscribe h index sub mode period id) s = .next t ∧
      t = dictAdmit 5 h (dictSubscribe h (keyOf index sub) mode.toNat period.toNat id) s) ∧
  (∀ (h : DictHdr) (index : W16) (sub mode : Byte) (period id : W16) (s : State), s.powered = true → h.uart = false →
    authentic s h = false ∨ seqFresh s h = false →
    ∃ t, exec (.subscribe h index sub mode period id) s = .next t ∧
      t = s.count Obj.mgmtAuthDrops 1) ∧
  (∀ (h : DictHdr) (index : W16) (sub mode : Byte) (period id : W16) (s : State), s.powered = true → h.uart = true →
    s.config.uartHunt = true ∨ h.crcOk = false →
    ∃ t, exec (.subscribe h index sub mode period id) s = .next t ∧
      t = { s with config := { s.config with uartHunt := true } }) ∧
  (∀ (h : DictHdr) (index : W16) (sub mode : Byte) (period id : W16) (s : State), s.powered = true → s.dev.state ≠ 8 → if
    h.uart then s.config.uartHunt = false ∧ h.crcOk = true else authentic s h = true ∧ seqFresh s h = true → h.boot.toNat ≠
    s.obj Obj.bootCount →
    ∃ t, exec (.subscribe h index sub mode period id) s = .next t ∧
      Replied h 5 (fitBytes 6 (leBytes 2 0x1105 ++ leBytes 4 (s.obj Obj.bootCount))) s t ∧ t.config = (noteRequest h
        s).config ∧
      t = { s with config := t.config, pair := t.pair }) ∧
  (∀ (h : DictHdr) (index : W16) (sub mode : Byte) (period id : W16) (s : State), Admitted h s →
    ∃ t, exec (.subscribe h index sub mode period id) s = .next t ∧
      t = dictSubscribe h (keyOf index sub) mode.toNat period.toNat id (noteRequest h s)) ∧
  (∀ (h : DictHdr) (index : W16) (sub : Byte) (off max : Nat) (u : State) (s : State), Admitted h s → u = noteRequest h s →
    ¬(s.dev.state = 8 ∧ faultReadable (keyOf index sub) = false) → readCode u (keyOf index sub) = 0 →
    ∃ t, exec (.read (.object h index sub 0 off max)) s = .next t ∧
      t = respond 1 h (leBytes 2 0 ++ leBytes 1 (readObject u (keyOf index sub)).1 ++ leBytes 1 0 ++ leBytes 4 (readObject u
        (keyOf index sub)).2.length ++ leBytes 2 (((readObject u (keyOf index sub)).2.drop off).take (min max 1376)).length
        ++ ((readObject u (keyOf index sub)).2.drop off).take (min max 1376)) (if measuredKeys.contains (keyOf index sub)
        then u.drawn 1 else u)) ∧
  (∀ (h : DictHdr) (index : W16) (sub : Byte) (off max : Nat) (r : ObjRow) (u : State) (s : State), Admitted h s →
    s.dev.state ≠ 8 → u = noteRequest h s → objRow (keyOf index sub) = some r → r.acc ≠ 2 → measuredKeys.contains (keyOf
    index sub) = false → (keyOf index sub) ≠ Obj.logEntry →
    ∃ t, exec (.read (.object h index sub 0 off max)) s = .next t ∧
      Replied h 1 (leBytes 2 0 ++ leBytes 1 r.ty ++ leBytes 1 0 ++ leBytes 4 (objValue u (keyOf index sub)).length ++ leBytes
        2 (((objValue u (keyOf index sub)).drop off).take (min max 1376)).length ++ ((objValue u (keyOf index sub)).drop
        off).take (min max 1376)) s t ∧ t.config = u.config ∧
      t = { s with config := t.config, pair := t.pair }) ∧
  (∀ (h : DictHdr) (s : State), Admitted h s → s.dev.state ≠ 8 →
    ∃ t, exec (.read (.object h 0x1300 1 0 0 8)) s = .next t ∧
      Replied h 1 (leBytes 2 0 ++ [6, 0] ++ leBytes 4 1 ++ leBytes 2 1 ++ leBytes 1 s.dev.state) s t ∧ t.config =
        (noteRequest h s).config ∧
      t = { s with config := t.config, pair := t.pair }) ∧
  (∀ (h : DictHdr) (index : W16) (sub : Byte) (off max : Nat) (u : State) (s : State), Admitted h s → u = noteRequest h s →
    ¬(s.dev.state = 8 ∧ faultReadable (keyOf index sub) = false) → readCode u (keyOf index sub) ≠ 0 →
    ∃ t, exec (.read (.object h index sub 0 off max)) s = .next t ∧
      t = respond 1 h (fitBytes 10 (leBytes 2 (readCode u (keyOf index sub)))) u) ∧
  (∀ (h : DictHdr) (index : W16) (sub : Byte) (off max : Nat) (s : State), Admitted h s → s.dev.state ≠ 8 → existsCode (keyOf
    index sub) = 0 → accessOf (keyOf index sub) = 2 →
    ∃ t, exec (.read (.object h index sub 0 off max)) s = .next t ∧
      Replied h 1 (leBytes 2 0x1104 ++ List.replicate 8 0) s t ∧ t.config = (noteRequest h s).config ∧
      t = { s with config := t.config, pair := t.pair }) ∧
  (∀ (h : DictHdr) (index : W16) (sub what : Byte) (off max : Nat) (s : State), Admitted h s → s.dev.state ≠ 8 → existsCode
    (keyOf index sub) = 0x1101 →
    ∃ t, exec (.read (.object h index sub what off max)) s = .next t ∧
      Replied h 1 (leBytes 2 0x1101 ++ List.replicate 8 0) s t ∧ t.config = (noteRequest h s).config ∧
      t = { s with config := t.config, pair := t.pair }) ∧
  (∀ (h : DictHdr) (index : W16) (sub what : Byte) (off max : Nat) (s : State), Admitted h s → s.dev.state ≠ 8 → existsCode
    (keyOf index sub) = 0x1102 →
    ∃ t, exec (.read (.object h index sub what off max)) s = .next t ∧
      Replied h 1 (leBytes 2 0x1102 ++ List.replicate 8 0) s t ∧ t.config = (noteRequest h s).config ∧
      t = { s with config := t.config, pair := t.pair }) ∧
  (∀ (h : DictHdr) (index : W16) (sub what : Byte) (off max : Nat) (s : State), Admitted h s → s.dev.state ≠ 8 → existsCode
    (keyOf index sub) = 0 → 2 ≤ what.toNat →
    ∃ t, exec (.read (.object h index sub what off max)) s = .next t ∧
      Replied h 1 (leBytes 2 0x1204 ++ List.replicate 8 0) s t ∧ t.config = (noteRequest h s).config ∧
      t = { s with config := t.config, pair := t.pair }) ∧
  (∀ (h : DictHdr) (index : W16) (sub : Byte) (off max : Nat) (u : State) (s : State), Admitted h s → s.dev.state ≠ 8 → u =
    noteRequest h s → existsCode (keyOf index sub) = 0 →
    ∃ t, exec (.read (.object h index sub 1 off max)) s = .next t ∧
      Replied h 1 (leBytes 2 0 ++ leBytes 1 (readObject u (keyOf index sub)).1 ++ leBytes 1 0 ++ leBytes 4 (description u
        (keyOf index sub)).length ++ leBytes 2 (((description u (keyOf index sub)).drop off).take (min max 1376)).length ++
        ((description u (keyOf index sub)).drop off).take (min max 1376)) s t ∧ t.config = u.config ∧
      t = { s with config := t.config, pair := t.pair }) ∧
  (∀ (h : DictHdr) (index : W16) (sub what : Byte) (off max : Nat) (s : State), Admitted h s → s.dev.state = 8 →
    faultReadable (keyOf index sub) = false →
    ∃ t, exec (.read (.object h index sub what off max)) s = .next t ∧
      t.out = s.out ++ [dictReply h 1 (leBytes 2 0x1105 ++ List.replicate 8 0) s] ∧ t.config = (noteRequest h s).config ∧
      t = { s with config := t.config, out := t.out }) ∧
  (∀ (h : DictHdr) (k what off max : Nat) (s : State), s.dev.state = 8 → faultReadable k = true → existsCode k ≠ 0 →
    dictRead h k what off max s = respond 1 h (fitBytes 10 (leBytes 2 (existsCode k))) s) ∧
  (∀ (u : CvuRef) (off : BitVec 7) (s : State), cvuReach s u = false →
    ∃ t, exec (.read (.cvu u off)) s = .next t ∧
      t = s) ∧
  (∀ (u : CvuRef) (off : BitVec 7) (s : State), cvuReach s u = true → off.toNat ∉ [0x20, 0x28, 0x3C] →
    ∃ t, exec (.read (.cvu u off)) s = .next t ∧
      t = (s.emit (.cvu (cvuKey u) off.toNat (cvuValue u off.toNat s))).drawn 1) ∧
  (∀ (u : CvuRef) (off : BitVec 7) (s : State), cvuReach s u = true → off.toNat ∈ [0x20, 0x28] →
    ∃ t, exec (.read (.cvu u off)) s = .next t ∧
      t = ((if (s.cvu (cvuKey u)).busy = 0 then s else s.count Obj.cvuBusyStalls 1).emit (.cvu (cvuKey u) off.toNat (cvuValue
        u off.toNat s))).drawn 1) ∧
  (∀ (u : CvuRef) (s : State), cvuReach s u = true →
    ∃ t, exec (.read (.cvu u 0x3C)) s = .next t ∧
      t = ((s.setCvu (cvuKey u) { s.cvu (cvuKey u) with refused := false }).emit (.cvu (cvuKey u) 0x3C ((if (s.cvu (cvuKey
        u)).busy = 0 then 0 else 1) + (if (s.cvu (cvuKey u)).refused then 2 else 0)))).drawn 1) ∧
  (∀ (u : CvuRef) (s : State), cvuValue u 0x00 s = (s.cvu (cvuKey u)).ctrl.toNat ∧ cvuValue u 0x08 s = (s.cvu (cvuKey
    u)).poly.toNat % 2 ^ cvuW (s.cvu (cvuKey u)) ∧ cvuValue u 0x10 s = (s.cvu (cvuKey u)).init.toNat % 2 ^ cvuW (s.cvu
    (cvuKey u)) ∧
    cvuValue u 0x18 s = (s.cvu (cvuKey u)).xorout.toNat % 2 ^ cvuW (s.cvu (cvuKey u)) ∧ cvuValue u 0x20 s = (s.cvu (cvuKey
      u)).reg.toNat % 2 ^ cvuW (s.cvu (cvuKey u)) ∧ cvuValue u 0x28 s = cvuResult (s.cvu (cvuKey u))) ∧
  (∀ (n : Fin 8) (agent : Nat) (s : State), cvuValue (.hub n agent) 0x40 s = (s.cvu (256 + n.val)).owner) ∧
  (∀ (w : WhipId) (off : Nat) (s : State), 0x40 ≤ off → cvuValue (.whippet w) off s = 0)

/-- WRITE and STAGE check index, subindex, access, state, type and length, range and own rule in that order, and a failing
  one changes nothing. A segment is kept until the value is whole; one out of order is refused. STAGE adds an entry, or
  replaces its value in place, and makes the client the owner; another client is refused. COMMIT refuses in Fault-stop,
  after a declared loss (0x1105, log entry 103), another client, a wrong count, a wrong digest, an entry not writable
  and a set whose rules fail, and an accepted set of its owner makes a new generation. A WRITE of a persistent object is
  a commit of one entry. A register of a check-value unit is written at the unit, and the Pod answers a WRITE over its
  calibration interface. -/
def Obligations.DictionaryWrites : Prop :=
  (∀ (index : W16) (sub : Byte) (w : WReq) (s : State), Admitted w.hdr s → s.dev.state ≠ 8 → existsCode (keyOf index sub) =
    0x1101 →
    ∃ t, exec (.registerWrite (.object index sub w)) s = .next t ∧
      Replied w.hdr 2 (leBytes 2 0x1101) s t ∧ t.config = (noteRequest w.hdr s).config ∧
      t = { s with config := t.config, pair := t.pair }) ∧
  (∀ (index : W16) (sub : Byte) (w : WReq) (s : State), Admitted w.hdr s → s.dev.state ≠ 8 → existsCode (keyOf index sub) =
    0x1102 →
    ∃ t, exec (.registerWrite (.object index sub w)) s = .next t ∧
      Replied w.hdr 2 (leBytes 2 0x1102) s t ∧ t.config = (noteRequest w.hdr s).config ∧
      t = { s with config := t.config, pair := t.pair }) ∧
  (∀ (index : W16) (sub : Byte) (w : WReq) (r : ObjRow) (s : State), Admitted w.hdr s → s.dev.state ≠ 8 → objRow (keyOf index
    sub) = some r → r.acc = 1 → (keyOf index sub) / 0x100000 ≠ 9 →
    ∃ t, exec (.registerWrite (.object index sub w)) s = .next t ∧
      Replied w.hdr 2 (leBytes 2 0x1103) s t ∧ t.config = (noteRequest w.hdr s).config ∧
      t = { s with config := t.config, pair := t.pair }) ∧
  (∀ (index : W16) (sub : Byte) (w : WReq) (r : ObjRow) (s : State), Admitted w.hdr s → s.dev.state ≠ 8 → objRow (keyOf index
    sub) = some r → (keyOf index sub) / 0x100000 = 9 →
    ∃ t, exec (.registerWrite (.object index sub w)) s = .next t ∧
      Replied w.hdr 2 (leBytes 2 0x1106) s t ∧ t.config = (noteRequest w.hdr s).config ∧
      t = { s with config := t.config, pair := t.pair }) ∧
  (∀ (index : W16) (sub : Byte) (w : WReq) (r : ObjRow) (s : State), Admitted w.hdr s → s.dev.state ≠ 8 → objRow (keyOf index
    sub) = some r → r.acc ≠ 1 → (keyOf index sub) / 0x100000 ≠ 9 → stateCode s w.hdr.uart (keyOf index sub) ≠ 0 →
    ∃ t, exec (.registerWrite (.object index sub w)) s = .next t ∧
      Replied w.hdr 2 (leBytes 2 0x1105) s t ∧ t.config = (noteRequest w.hdr s).config ∧
      t = { s with config := t.config, pair := t.pair }) ∧
  (∀ (index : W16) (sub : Byte) (w : WReq) (r : ObjRow) (s : State), Admitted w.hdr s → s.dev.state ≠ 8 → objRow (keyOf index
    sub) = some r → r.acc ≠ 1 → (keyOf index sub) / 0x100000 ≠ 9 → stateCode s w.hdr.uart (keyOf index sub) = 0 → w.ty.toNat
    ≠ r.ty ∨ (r.len ≠ 0 ∧ r.key ≠ Obj.ensMemberTable ∧ w.total ≠ r.len) →
    ∃ t, exec (.registerWrite (.object index sub w)) s = .next t ∧
      Replied w.hdr 2 (leBytes 2 0x1201) s t ∧ t.config = (noteRequest w.hdr s).config ∧
      t = { s with config := t.config, pair := t.pair }) ∧
  (∀ (index : W16) (sub : Byte) (w : WReq) (s : State), Admitted w.hdr s → s.dev.state ≠ 8 → openCodeOf s w.hdr (keyOf index
    sub) w = 0 → w.offset = 0 → w.last = false → w.data.length < w.total →
    ∃ t, exec (.registerWrite (.object index sub w)) s = .next t ∧
      Replied w.hdr 2 (leBytes 2 0) s t ∧ t.config =
        { taken w.hdr (keyOf index sub) s with segs := (taken w.hdr (keyOf index sub) s).segs ++ [{ client := w.hdr.client, key := (keyOf index sub), data := w.data }] }
        ∧
      t = { s with config := t.config, pair := t.pair }) ∧
  (∀ (index : W16) (sub : Byte) (w : WReq) (s : State), Admitted w.hdr s → s.dev.state ≠ 8 → existsCode (keyOf index sub) =
    0x1101 →
    ∃ t, exec (.stage index sub w) s = .next t ∧
      Replied w.hdr 3 (leBytes 2 0x1101 ++ leBytes 4 s.config.staged.length ++ leBytes 4 (entriesDigest s.config.staged)) s t
        ∧ t.config = (noteRequest w.hdr s).config ∧
      t = { s with config := t.config, pair := t.pair }) ∧
  (∀ (index : W16) (sub : Byte) (w : WReq) (s : State), Admitted w.hdr s → s.dev.state ≠ 8 → existsCode (keyOf index sub) =
    0x1102 →
    ∃ t, exec (.stage index sub w) s = .next t ∧
      Replied w.hdr 3 (leBytes 2 0x1102 ++ leBytes 4 s.config.staged.length ++ leBytes 4 (entriesDigest s.config.staged)) s t
        ∧ t.config = (noteRequest w.hdr s).config ∧
      t = { s with config := t.config, pair := t.pair }) ∧
  (∀ (index : W16) (sub : Byte) (w : WReq) (r : ObjRow) (s : State), Admitted w.hdr s → s.dev.state ≠ 8 → objRow (keyOf index
    sub) = some r → r.acc = 1 → (keyOf index sub) / 0x100000 ≠ 9 →
    ∃ t, exec (.stage index sub w) s = .next t ∧
      Replied w.hdr 3 (leBytes 2 0x1103 ++ leBytes 4 s.config.staged.length ++ leBytes 4 (entriesDigest s.config.staged)) s t
        ∧ t.config = (noteRequest w.hdr s).config ∧
      t = { s with config := t.config, pair := t.pair }) ∧
  (∀ (index : W16) (sub : Byte) (w : WReq) (r : ObjRow) (s : State), Admitted w.hdr s → s.dev.state ≠ 8 → objRow (keyOf index
    sub) = some r → (keyOf index sub) / 0x100000 = 9 →
    ∃ t, exec (.stage index sub w) s = .next t ∧
      Replied w.hdr 3 (leBytes 2 0x1106 ++ leBytes 4 s.config.staged.length ++ leBytes 4 (entriesDigest s.config.staged)) s t
        ∧ t.config = (noteRequest w.hdr s).config ∧
      t = { s with config := t.config, pair := t.pair }) ∧
  (∀ (index : W16) (sub : Byte) (w : WReq) (r : ObjRow) (s : State), Admitted w.hdr s → s.dev.state ≠ 8 → objRow (keyOf index
    sub) = some r → r.acc ≠ 1 → (keyOf index sub) / 0x100000 ≠ 9 → stateCode s w.hdr.uart (keyOf index sub) ≠ 0 →
    ∃ t, exec (.stage index sub w) s = .next t ∧
      Replied w.hdr 3 (leBytes 2 0x1105 ++ leBytes 4 s.config.staged.length ++ leBytes 4 (entriesDigest s.config.staged)) s t
        ∧ t.config = (noteRequest w.hdr s).config ∧
      t = { s with config := t.config, pair := t.pair }) ∧
  (∀ (index : W16) (sub : Byte) (w : WReq) (r : ObjRow) (s : State), Admitted w.hdr s → s.dev.state ≠ 8 → objRow (keyOf index
    sub) = some r → r.acc ≠ 1 → (keyOf index sub) / 0x100000 ≠ 9 → stateCode s w.hdr.uart (keyOf index sub) = 0 → w.ty.toNat
    ≠ r.ty ∨ (r.len ≠ 0 ∧ r.key ≠ Obj.ensMemberTable ∧ w.total ≠ r.len) →
    ∃ t, exec (.stage index sub w) s = .next t ∧
      Replied w.hdr 3 (leBytes 2 0x1201 ++ leBytes 4 s.config.staged.length ++ leBytes 4 (entriesDigest s.config.staged)) s t
        ∧ t.config = (noteRequest w.hdr s).config ∧
      t = { s with config := t.config, pair := t.pair }) ∧
  (∀ (index : W16) (sub : Byte) (w : WReq) (s : State), Admitted w.hdr s → s.dev.state ≠ 8 → openCodeOf s w.hdr (keyOf index
    sub) w = 0 → w.offset = 0 → w.last = false → w.data.length < w.total →
    ∃ t, exec (.stage index sub w) s = .next t ∧
      Replied w.hdr 3 (leBytes 2 0 ++ leBytes 4 s.config.staged.length ++ leBytes 4 (entriesDigest s.config.staged)) s t ∧
        t.config = { taken w.hdr (2 ^ 24 + (keyOf index sub)) s with segs := (taken w.hdr (2 ^ 24 + (keyOf index sub)) s).segs ++ [{ client := w.hdr.client, key := (2 ^ 24 + (keyOf index sub)), data := w.data }] }
        ∧
      t = { s with config := t.config, pair := t.pair }) ∧
  (∀ (k : Nat) (w : WReq) (x : WAux) (s u : State) (had : Bytes), had = (if w.offset = 0 then [] else ((s.config.segs.find?
    (fun y => y.client == w.hdr.client && y.key == k)).elim [] (fun y => y.data))) → u =
    { s with config := { s.config with segs := s.config.segs.filter (fun y => !(y.client == w.hdr.client && y.key == k)) } }
    →
    dictWrite k w x s = (if openCodeOf s w.hdr k w ≠ 0 then answerWrite w.hdr (openCodeOf s w.hdr k w) s
      else if w.offset ≠ had.length ∨ w.total < (had ++ w.data).length ∨ w.last ≠ ((had ++ w.data).length == w.total) then
        answerWrite w.hdr 0x1201 u
      else if w.last = false then answerWrite w.hdr 0
        { u with config := { u.config with segs := u.config.segs ++ [{ client := w.hdr.client, key := k, data := had ++ w.data }] } }
      else if valueCode u k (had ++ w.data) ≠ 0 then answerWrite w.hdr (valueCode u k (had ++ w.data)) u
      else writeWhole w.hdr k w (had ++ w.data) x u)) ∧
  (∀ (k : Nat) (w : WReq) (s u : State) (had : Bytes), had = (if w.offset = 0 then [] else ((s.config.segs.find? (fun y =>
    y.client == w.hdr.client && y.key == (2 ^ 24 + k))).elim [] (fun y => y.data))) → u =
    { s with config := { s.config with segs := s.config.segs.filter (fun y => !(y.client == w.hdr.client && y.key == (2 ^ 24 + k))) } }
    →
    dictStage k w s = (if s.dev.state = 8 then answerStage w.hdr 0x1105 s
      else if openCodeOf s w.hdr k w ≠ 0 then answerStage w.hdr (openCodeOf s w.hdr k w) s
      else if w.offset ≠ had.length ∨ w.total < (had ++ w.data).length ∨ w.last ≠ ((had ++ w.data).length == w.total) then
        answerStage w.hdr 0x1201 u
      else if w.last = false then answerStage w.hdr 0
        { u with config := { u.config with segs := u.config.segs ++ [{ client := w.hdr.client, key := 2 ^ 24 + k, data := had ++ w.data }] } }
      else if valueCode u k (had ++ w.data) ≠ 0 then answerStage w.hdr (valueCode u k (had ++ w.data)) u
      else if s.config.owner ≠ none ∧ s.config.owner ≠ some w.hdr.client then answerStage w.hdr 0x1303 u
      else if k = Obj.configRestore then answerStage w.hdr 0x1205 u
      else answerStage w.hdr 0 { u with config := { u.config with staged := stageEntry { key := k, ty := w.ty, data := had ++ w.data } s.config.staged, owner := some w.hdr.client, ownerBeat := s.beat } })) ∧
  (∀ (h : DictHdr) (k : Nat) (w : WReq) (b : Bytes) (x : WAux) (s u : State) (e : Entry), e =
    { key := k, ty := w.ty, data := b } → u = applyObj (some h) h.client.toNat e x s →
    writeWhole h k w b x s = (if k = Obj.stageDiscard then (if (s.config.owner ≠ none ∧ s.config.owner ≠ some h.client) then
      answerWrite h 0x1303 s else answerWrite h 0 { s with config := { s.config with staged := [], owner := none } })
      else if s.power.input = 3 ∧ (persistent e = true ∨ k = Obj.configRestore) then answerWrite h 0x1105 s
      else if k = Obj.configRestore then (if configRestoreCode s (leNat b) ≠ 0 then answerWrite h (configRestoreCode s (leNat
        b)) s else answerWrite h 0 (restoreCopy h.client.toNat (leNat b) s))
      else if persistent e = true then (if (s.config.owner ≠ none ∧ s.config.owner ≠ some h.client) then answerWrite h 0x1303
        s else (setCode [e] x s).elim (answerWrite h 0 (applySet h.client.toNat [e] x s)) (fun q => answerWrite h q.1 s))
      else if actCode s k (leNat b) b x ≠ 0 then answerWrite h (actCode s k (leNat b) b x) s
      else if k = Obj.isolationClear then u else answerWrite h 0 u)) ∧
  (∀ (index : W16) (sub : Byte) (w : WReq) (b : Bytes) (s : State), Admitted w.hdr s → s.dev.state ≠ 8 → openCodeOf s w.hdr
    (keyOf index sub) w = 0 → valueCode s (keyOf index sub) b = 0 → w.data = b → w.offset = 0 → w.last = true → w.total =
    b.length → (keyOf index sub) ≠ Obj.configRestore → s.config.owner = none ∨ s.config.owner = some w.hdr.client →
    s.config.staged.any (fun y => y.key == (keyOf index sub)) = false →
    ∃ t, exec (.stage index sub w) s = .next t ∧
      t.config = { taken w.hdr (2 ^ 24 + (keyOf index sub)) s with staged := s.config.staged ++ [({ key := (keyOf index sub), ty := w.ty, data := b } : Entry)], owner := some w.hdr.client, ownerBeat := s.beat }
        ∧ Replied w.hdr 3 (leBytes 2 0 ++ leBytes 4 t.config.staged.length ++ leBytes 4 (entriesDigest t.config.staged)) s t
        ∧
      t = { s with config := t.config, pair := t.pair }) ∧
  (∀ (index : W16) (sub : Byte) (w : WReq) (b : Bytes) (s : State), Admitted w.hdr s → s.dev.state ≠ 8 → openCodeOf s w.hdr
    (keyOf index sub) w = 0 → valueCode s (keyOf index sub) b = 0 → w.data = b → w.offset = 0 → w.last = true → w.total =
    b.length → (keyOf index sub) ≠ Obj.configRestore → s.config.owner = none ∨ s.config.owner = some w.hdr.client →
    s.config.staged.any (fun y => y.key == (keyOf index sub)) = true →
    ∃ t, exec (.stage index sub w) s = .next t ∧
      t.config = { taken w.hdr (2 ^ 24 + (keyOf index sub)) s with staged := s.config.staged.map (fun y => if y.key = (keyOf index sub) then ({ key := (keyOf index sub), ty := w.ty, data := b } : Entry) else y), owner := some w.hdr.client, ownerBeat := s.beat }
        ∧ Replied w.hdr 3 (leBytes 2 0 ++ leBytes 4 t.config.staged.length ++ leBytes 4 (entriesDigest t.config.staged)) s t
        ∧
      t = { s with config := t.config, pair := t.pair }) ∧
  (∀ (index : W16) (sub : Byte) (w : WReq) (b : Bytes) (s : State), Admitted w.hdr s → s.dev.state ≠ 8 → openCodeOf s w.hdr
    (keyOf index sub) w = 0 → valueCode s (keyOf index sub) b = 0 → w.data = b → w.offset = 0 → w.last = true → w.total =
    b.length → (keyOf index sub) ≠ Obj.configRestore → s.config.owner ≠ none → s.config.owner ≠ some w.hdr.client →
    ∃ t, exec (.stage index sub w) s = .next t ∧
      t.config = taken w.hdr (2 ^ 24 + (keyOf index sub)) s ∧ Replied w.hdr 3 (leBytes 2 0x1303 ++ leBytes 4
        s.config.staged.length ++ leBytes 4 (entriesDigest s.config.staged)) s t ∧
      t = { s with config := t.config, pair := t.pair }) ∧
  (∀ (h : DictHdr) (count digest : Nat) (s u : State), u = { s with config := { s.config with staged := [], owner := none } }
    →
    dictCommit h count digest s = (if s.dev.state = 8 then answerCommit h 0x1105 0 s
      else if s.power.input = 3 then answerCommit h 0x1105 ((s.config.staged.map (fun e => e.key)).headD 0) s
      else if s.config.owner ≠ some h.client then answerCommit h 0x1303 0 s
      else if count ≠ s.config.staged.length then answerCommit h 0x1302 0 s
      else if digest ≠ entriesDigest s.config.staged then answerCommit h 0x1301 0 s
      else (unwritable s h s.config.staged).elim ((setCode s.config.staged {} s).elim (answerCommit h 0 0 (applySet
        h.client.toNat s.config.staged {} u)) (fun q => answerCommit h q.1 q.2 s)) (fun k => answerCommit h 0x1105 k s))) ∧
  (∀ (h : DictHdr) (count digest : W32) (s : State), Admitted h s → s.dev.state ≠ 8 → s.power.input ≠ 3 → s.config.owner ≠
    some h.client →
    ∃ t, exec (.commit h count digest) s = .next t ∧
      Replied h 4 (leBytes 2 0x1303 ++ leBytes 8 s.config.gen.toNat ++ leBytes 2 0 ++ leBytes 1 0) s t ∧ t.config =
        (noteRequest h s).config ∧
      t = { s with config := t.config, pair := t.pair }) ∧
  (∀ (h : DictHdr) (count digest : W32) (s : State), Admitted h s → s.dev.state ≠ 8 → s.power.input ≠ 3 → s.config.owner =
    some h.client → count.toNat ≠ s.config.staged.length →
    ∃ t, exec (.commit h count digest) s = .next t ∧
      Replied h 4 (leBytes 2 0x1302 ++ leBytes 8 s.config.gen.toNat ++ leBytes 2 0 ++ leBytes 1 0) s t ∧ t.config =
        (noteRequest h s).config ∧
      t = { s with config := t.config, pair := t.pair }) ∧
  (∀ (h : DictHdr) (count digest : W32) (s : State), Admitted h s → s.dev.state ≠ 8 → s.power.input ≠ 3 → s.config.owner =
    some h.client → count.toNat = s.config.staged.length → digest.toNat ≠ entriesDigest s.config.staged →
    ∃ t, exec (.commit h count digest) s = .next t ∧
      Replied h 4 (leBytes 2 0x1301 ++ leBytes 8 s.config.gen.toNat ++ leBytes 2 0 ++ leBytes 1 0) s t ∧ t.config =
        (noteRequest h s).config ∧
      t = { s with config := t.config, pair := t.pair }) ∧
  (∀ (h : DictHdr) (v : Byte) (s : State), Admitted h s → s.power.input ≠ 3 → 3 ≤ s.dev.state ∧ s.dev.state ≤ 4 →
    s.config.owner = some h.client → s.config.staged = [({ key := Obj.serveEnable, ty := 1, data := [v] } : Entry)] → v.toNat
    ≤ 1 → anyResident s = false → (setRules [({ key := Obj.serveEnable, ty := 1, data := [v] } : Entry)] s).all (fun r =>
    r.2) = true → s.dev.heldAtBoot = false →
    ∃ t, exec (.commit h 1 (BitVec.ofNat 32 (entriesDigest [({ key := Obj.serveEnable, ty := 1, data := [v] } : Entry)]))) s
      = .next t ∧
      t.config.staged = [] ∧ t.config.owner = none ∧ t.config.copyA = t.config.copyB ∧ t.config.copyA.status = 0 ∧
        t.config.copyA.gen = t.config.gen ∧ t.config.gen = ((baseCopy s.config).map (fun (c : ConfigCopy) => c.gen)).getD 0 +
        1 ∧ t.obj Obj.serveEnable = v.toNat ∧ t.dev = s.dev ∧ Replied h 4 (leBytes 2 0 ++ leBytes 8 t.config.gen.toNat ++
        leBytes 2 0 ++ leBytes 1 0) s t ∧
      t = { s with od := t.od, config := t.config, beagle := t.beagle, pair := t.pair }) ∧
  (∀ (client : Nat) (l : List Entry) (x : WAux) (s u v : State),
    u = (sortEntries l).foldl (fun y e => applyObj none client e x y) (storeEntries client (entriesDigest l) (l.filter
      persistent) s) →
    v = (if l.any (fun e => isOneOf Obj.winEntryN 128 e.key) then
      { u with rmem := { u.rmem with next := some (u.beat + 10000, stagedWindows l s) } } else u) →
    applySet client l x s = resumeBoot (if l.any (fun e => isOneOf Obj.ensId 4 e.key) then ensCommitted v else v)) ∧
  (∀ (u : CvuRef) (off : BitVec 7) (v : W64) (s : State), cvuReach s u = false ∨ cvuHas u off.toNat = false →
    ∃ t, exec (.registerWrite (.cvu u off v)) s = .next t ∧
      t = s) ∧
  (∀ (n : Fin 8) (off : BitVec 7) (v : W64) (s : State), cvuReach s (.hub n 30) = true → cvuHas (.hub n 30) off.toNat = true
    →
    ∃ t, exec (.registerWrite (.cvu (.hub n 30) off v)) s = .next t ∧
      t = ctlEmit (.cvuPut n.val off.toNat v.toNat) s) ∧
  (∀ (u : CvuRef) (off : BitVec 7) (v : W64) (s : State), cvuReach s u = true → cvuHas u off.toNat = true → ∀ n : Fin 8, u ≠
    .hub n 30 →
    ∃ t, exec (.registerWrite (.cvu u off v)) s = .next t ∧
      t = cvuReached u off.toNat v.toNat s) ∧
  (∀ (w : WhipId) (off v : Nat) (s : State), cvuReached (.whippet w) off v s = cvuPut (.whippet w) off v s) ∧
  (∀ (n : Fin 8) (agent off v : Nat) (s : State), cvuReached (.hub n agent) off v s =
    if off = 0x40 then cvuOwner (256 + n.val) agent (v % 256) s
    else if (s.cvu (256 + n.val)).owner ≠ agent then (s.setCvu (256 + n.val)
      { s.cvu (256 + n.val) with refused := true }).count Obj.cvuOwnerRefusals 1
    else cvuPut (.hub n agent) off v s) ∧
  (∀ (u : CvuRef) (v : Nat) (s : State), cvuPut u 0x08 v s = (cvuStall (cvuKey u) s).setCvu (cvuKey u)
    { s.cvu (cvuKey u) with poly := BitVec.ofNat 64 (v % 2 ^ cvuW (s.cvu (cvuKey u))) } ∧
    cvuPut u 0x10 v s = (cvuStall (cvuKey u) s).setCvu (cvuKey u)
      { s.cvu (cvuKey u) with init := BitVec.ofNat 64 (v % 2 ^ cvuW (s.cvu (cvuKey u))) } ∧
    cvuPut u 0x18 v s = (cvuStall (cvuKey u) s).setCvu (cvuKey u)
      { s.cvu (cvuKey u) with xorout := BitVec.ofNat 64 (v % 2 ^ cvuW (s.cvu (cvuKey u))) } ∧
    cvuPut u 0x20 v s = (cvuStall (cvuKey u) s).setCvu (cvuKey u)
      { s.cvu (cvuKey u) with reg := BitVec.ofNat 64 (v % 2 ^ cvuW (s.cvu (cvuKey u))) } ∧
    cvuPut u 0x00 v s = (cvuStall (cvuKey u) s).setCvu (cvuKey u) (cvuCtrl (v % 2 ^ 32) (s.cvu (cvuKey u))) ∧ cvuPut u 0x28 v
      s = s ∧ cvuPut u 0x3C v s = s ∧
    cvuPut u 0x30 v s = cvuData u (leBytes 1 v) s ∧ cvuPut u 0x34 v s = cvuData u (leBytes 2 v) s ∧ cvuPut u 0x38 v s =
      cvuData u (leBytes 4 v) s) ∧
  (∀ (u : CvuRef) (v : W64) (s : State), cvuHeld s u = true → ∀ n : Fin 8, u ≠ .hub n 30 →
    ∃ t, exec (.registerWrite (.cvu u 8 v)) s = .next t ∧
      t = (cvuStall (cvuKey u) s).setCvu (cvuKey u)
        { s.cvu (cvuKey u) with poly := BitVec.ofNat 64 (v.toNat % 2 ^ cvuW (s.cvu (cvuKey u))) }) ∧
  (∀ (u : CvuRef) (v : W64) (s : State), cvuHeld s u = true → ∀ n : Fin 8, u ≠ .hub n 30 →
    ∃ t, exec (.registerWrite (.cvu u 16 v)) s = .next t ∧
      t = (cvuStall (cvuKey u) s).setCvu (cvuKey u)
        { s.cvu (cvuKey u) with init := BitVec.ofNat 64 (v.toNat % 2 ^ cvuW (s.cvu (cvuKey u))) }) ∧
  (∀ (u : CvuRef) (v : W64) (s : State), cvuHeld s u = true → ∀ n : Fin 8, u ≠ .hub n 30 →
    ∃ t, exec (.registerWrite (.cvu u 24 v)) s = .next t ∧
      t = (cvuStall (cvuKey u) s).setCvu (cvuKey u)
        { s.cvu (cvuKey u) with xorout := BitVec.ofNat 64 (v.toNat % 2 ^ cvuW (s.cvu (cvuKey u))) }) ∧
  (∀ (index : W16) (sub : Byte) (w : WReq) (s : State), ¬(s.pod.powered = true ∧ w.hdr.crcOk = true) →
    ∃ t, exec (.registerWrite (.calibration index sub w)) s = .next t ∧
      t = s) ∧
  (∀ (index : W16) (sub : Byte) (w : WReq) (s : State), s.pod.powered = true ∧ w.hdr.crcOk = true → calibrationCode s (keyOf
    index sub) w ≠ 0 →
    ∃ t, exec (.registerWrite (.calibration index sub w)) s = .next t ∧
      t = answerCalibration w.hdr (calibrationCode s (keyOf index sub) w) s) ∧
  (∀ (index : W16) (sub : Byte) (w : WReq) (v : Nat) (s : State), s.pod.powered = true ∧ w.hdr.crcOk = true → calibrationCode
    s (keyOf index sub) w = 0 → (keyOf index sub) = Obj.calRun → v = leNat w.data →
    ∃ t, exec (.registerWrite (.calibration index sub w)) s = .next t ∧
      t = answerCalibration w.hdr 0 { s with pod := { s.pod with calRun := v } }) ∧
  (∀ (index : W16) (sub : Byte) (w : WReq) (v : Nat) (s : State), s.pod.powered = true ∧ w.hdr.crcOk = true → calibrationCode
    s (keyOf index sub) w = 0 → (keyOf index sub) ≠ Obj.calRun → v = leNat w.data →
    ∃ t, exec (.registerWrite (.calibration index sub w)) s = .next t ∧
      t = answerCalibration w.hdr 0 (if v = s.obj (keyOf index sub) then s else
        { s.setObj (keyOf index sub) v with pod := podFlag 7 s.pod })) ∧
  (∀ (h : DictHdr) (code : Nat) (s : State), answerCalibration h code s = s.emit (.calibration (uartFrame
    (dictHeader 1 0x82 h.client.toNat h.boot.toNat (2 ^ 63 + h.seq.toNat) ++ leBytes 2 code))))

/-- SUBSCRIBE creates a subscription with the present value, replaces one of the same client and id, or cancels it; in
  Fault-stop, of an object unknown or write-only, with another mode, a period below 10 ms or above 60 s, and as the
  257th it is refused. NOTIFY sends id, index, sub, type, length, beat and value once a millisecond or a period has
  passed. STAGE_DISCARD empties the staged set, but for another client; CONFIG_RESTORE commits a valid copy again.
  Otherwise NOTIFY changes nothing. -/
def Obligations.Subscriptions : Prop :=
  (∀ (h : DictHdr) (index : W16) (sub mode : Byte) (period id : W16) (u : State) (s : State), Admitted h s → u = noteRequest
    h s → subscribeCode u h (keyOf index sub) mode.toNat period.toNat id.toNat ≠ 0 →
    ∃ t, exec (.subscribe h index sub mode period id) s = .next t ∧
      t = answerCode 5 h (subscribeCode u h (keyOf index sub) mode.toNat period.toNat id.toNat) u) ∧
  (∀ (s : State) (h : DictHdr) (k mode period id : Nat), subscribeCode s h k mode period id =
    if s.dev.state = 8 then 0x1105 else if existsCode k ≠ 0 then existsCode k else if accessOf k = 2 then 0x1104 else if 2 <
      mode then 0x1204
    else if mode = 2 ∧ period < 10 then 0x1202 else if mode = 2 ∧ 60000 < period then 0x1203
    else if mode ≠ 0 ∧ 256 ≤ s.config.subs.length ∧ s.config.subs.any (fun x => x.client == h.client && x.id.toNat == id) =
      false then 0x1901 else 0) ∧
  (∀ (msg : Nat) (h : DictHdr) (code : Nat) (s : State), answerCode msg h code s = respond msg h (fitBytes (bodyBytes msg)
    (leBytes 2 code)) s) ∧
  (∀ (h : DictHdr) (index : W16) (sub mode : Byte) (period id : W16) (u : State) (s : State), Admitted h s → u = noteRequest
    h s → subscribeCode u h (keyOf index sub) mode.toNat period.toNat id.toNat = 0 →
    ∃ t, exec (.subscribe h index sub mode period id) s = .next t ∧
      t = answerCode 5 h 0 { u with config := { u.config with subs := (if mode = 0 then s.config.subs.filter (fun x => !(x.client == h.client && x.id == id)) else s.config.subs.filter (fun x => !(x.client == h.client && x.id == id)) ++ [{ client := h.client, id, key := (keyOf index sub), mode := mode.toNat, period := period.toNat, last := s.beat, uart := h.uart, value := (readObject u (keyOf index sub)).2 }]) } }) ∧
  (∀ (h : DictHdr) (index : W16) (sub mode : Byte) (period id : W16) (u : State) (s : State), Admitted h s → s.dev.state ≠ 8
    → existsCode (keyOf index sub) = 0 → accessOf (keyOf index sub) ≠ 2 → u = noteRequest h s → mode.toNat = 1 ∨ (mode.toNat
    = 2 ∧ 10 ≤ period.toNat ∧ period.toNat ≤ 60000) → s.config.subs.length < 256 →
    ∃ t, exec (.subscribe h index sub mode period id) s = .next t ∧
      t.config = { u.config with subs := s.config.subs.filter (fun x => !(x.client == h.client && x.id == id)) ++ [{ client := h.client, id, key := (keyOf index sub), mode := mode.toNat, period := period.toNat, last := s.beat, uart := h.uart, value := (readObject u (keyOf index sub)).2 }] }
        ∧ Replied h 5 (leBytes 2 0) s t ∧
      t = { s with config := t.config, pair := t.pair }) ∧
  (∀ (h : DictHdr) (index : W16) (sub mode : Byte) (period id : W16) (s : State), Admitted h s → s.dev.state ≠ 8 → existsCode
    (keyOf index sub) = 0 → accessOf (keyOf index sub) ≠ 2 → mode = 0 →
    ∃ t, exec (.subscribe h index sub mode period id) s = .next t ∧
      t.config = { (noteRequest h s).config with subs := s.config.subs.filter (fun x => !(x.client == h.client && x.id == id)) }
        ∧ Replied h 5 (leBytes 2 0) s t ∧
      t = { s with config := t.config, pair := t.pair }) ∧
  (∀ (h : DictHdr) (index : W16) (sub mode : Byte) (period id : W16) (s : State), Admitted h s → s.dev.state ≠ 8 → existsCode
    (keyOf index sub) = 0 → accessOf (keyOf index sub) ≠ 2 → mode.toNat = 2 → period.toNat < 10 →
    ∃ t, exec (.subscribe h index sub mode period id) s = .next t ∧
      t.config = (noteRequest h s).config ∧ Replied h 5 (leBytes 2 0x1202) s t ∧
      t = { s with config := t.config, pair := t.pair }) ∧
  (∀ (h : DictHdr) (index : W16) (sub mode : Byte) (period id : W16) (s : State), Admitted h s → s.dev.state ≠ 8 → existsCode
    (keyOf index sub) = 0 → accessOf (keyOf index sub) ≠ 2 → mode.toNat = 2 → 60000 < period.toNat →
    ∃ t, exec (.subscribe h index sub mode period id) s = .next t ∧
      t.config = (noteRequest h s).config ∧ Replied h 5 (leBytes 2 0x1203) s t ∧
      t = { s with config := t.config, pair := t.pair }) ∧
  (∀ (h : DictHdr) (index : W16) (sub mode : Byte) (period id : W16) (s : State), Admitted h s → s.dev.state ≠ 8 → existsCode
    (keyOf index sub) = 0 → accessOf (keyOf index sub) ≠ 2 → 2 < mode.toNat →
    ∃ t, exec (.subscribe h index sub mode period id) s = .next t ∧
      t.config = (noteRequest h s).config ∧ Replied h 5 (leBytes 2 0x1204) s t ∧
      t = { s with config := t.config, pair := t.pair }) ∧
  (∀ (h : DictHdr) (index : W16) (sub mode : Byte) (period id : W16) (s : State), Admitted h s → s.dev.state ≠ 8 → existsCode
    (keyOf index sub) = 0 → accessOf (keyOf index sub) ≠ 2 → mode.toNat = 1 ∨ (mode.toNat = 2 ∧ 10 ≤ period.toNat ∧
    period.toNat ≤ 60000) → 256 ≤ s.config.subs.length → s.config.subs.any (fun x => x.client == h.client && x.id == id) =
    false →
    ∃ t, exec (.subscribe h index sub mode period id) s = .next t ∧
      t.config = (noteRequest h s).config ∧ Replied h 5 (leBytes 2 0x1901) s t ∧
      t = { s with config := t.config, pair := t.pair }) ∧
  (∀ (client : W32) (id : W16) (s : State), s.config.subs.find? (fun y => y.client == client && y.id == id) = none →
    ∃ t, exec (.notify client id) s = .next t ∧
      t = s) ∧
  (∀ (client : W32) (id : W16) (x : Sub) (s : State), s.config.subs.find? (fun y => y.client == client && y.id == id) = some
    x → ¬(s.powered = true ∧ s.dev.state ≠ 8 ∧ notifyDue s x = true) →
    ∃ t, exec (.notify client id) s = .next t ∧
      t = s) ∧
  (∀ (client : W32) (id : W16) (x : Sub) (s : State), s.config.subs.find? (fun y => y.client == client && y.id == id) = some
    x → s.powered = true ∧ s.dev.state ≠ 8 ∧ notifyDue s x = true →
    ∃ t, exec (.notify client id) s = .next t ∧
      t.pair = { s.pair with cur := s.pair.cur ++ [dictOut x.uart 1 6 client.toNat (s.obj Obj.bootCount) (3 * 2 ^ 62 + tget 0 client.toNat s.config.notifies % 2 ^ 62) (leBytes 2 id.toNat ++ leBytes 2 (x.key / 256) ++ leBytes 1 x.key ++ leBytes 1 (readObject s x.key).1 ++ leBytes 2 (readObject s x.key).2.length ++ leBytes 8 s.beat ++ (if (readObject s x.key).2.length ≤ 1024 then (readObject s x.key).2 else []))] }
        ∧ t.config = { s.config with notifies := tset client.toNat (tget 0 client.toNat s.config.notifies + 1) s.config.notifies, subs := s.config.subs.map (fun y => if y.client = client ∧ y.id = id then { y with last := s.beat, value := (readObject s x.key).2 } else y) }
        ∧ t.free = (if measuredKeys.contains x.key then s.free + 1 else s.free) ∧
      t = { s with config := t.config, pair := t.pair, free := t.free }) ∧
  (∀ (s : State) (x : Sub), notifyDue s x = true ↔ x.last + 1000000 ≤ s.beat ∧
    ((x.mode = 1 ∧ x.value ≠ (readObject s x.key).2) ∨ (x.mode ≠ 1 ∧ x.last + 1000000 * x.period ≤ s.beat))) ∧
  (∀ (w : WReq) (s : State),
    ∃ t, exec (.stageDiscard w) s = .next t ∧
      t = dictAdmit 2 w.hdr (dictWrite Obj.stageDiscard w {}) s) ∧
  (∀ (w : WReq) (s : State), Admitted w.hdr s → s.dev.state ≠ 8 → Whole w 6 [1] → s.config.owner = none ∨ s.config.owner =
    some w.hdr.client →
    ∃ t, exec (.stageDiscard w) s = .next t ∧
      t.config = { taken w.hdr Obj.stageDiscard s with staged := [], owner := none } ∧ Replied w.hdr 2 (leBytes 2 0) s t ∧
      t = { s with config := t.config, pair := t.pair }) ∧
  (∀ (w : WReq) (s : State), Admitted w.hdr s → s.dev.state ≠ 8 → Whole w 6 [1] → s.config.owner ≠ none → s.config.owner ≠
    some w.hdr.client →
    ∃ t, exec (.stageDiscard w) s = .next t ∧
      t.config = taken w.hdr Obj.stageDiscard s ∧ Replied w.hdr 2 (leBytes 2 0x1303) s t ∧
      t = { s with config := t.config, pair := t.pair }) ∧
  (∀ (w : WReq) (s : State),
    ∃ t, exec (.configRestore w) s = .next t ∧
      t = dictAdmit 2 w.hdr (dictWrite Obj.configRestore w {}) s) ∧
  (∀ (w : WReq) (v : Nat) (s : State), Admitted w.hdr s → Whole w 6 (leBytes 1 v) → v ≤ 1 → s.dev.state = 3 → s.power.input ≠
    3 → s.dev.heldAtBoot = false → (if v = 0 then s.config.copyA else s.config.copyB).status = 0 →
    ∃ t, exec (.configRestore w) s = .next t ∧
      t.config.copyA = t.config.copyB ∧ t.config.copyA.status = 0 ∧ t.config.copyA.gen = t.config.gen ∧ t.config.gen =
        ((baseCopy s.config).map (fun (c : ConfigCopy) => c.gen)).getD 0 + 1 ∧ t.config.copyA.entries = (if v = 0 then
        s.config.copyA else s.config.copyB).entries.foldl (fun l e => putEntry e l) [] ∧ t.config.staged = s.config.staged ∧
        Replied w.hdr 2 (leBytes 2 0) s t ∧
      t = { s with od := t.od, odb := t.odb, config := t.config, beagle := t.beagle, pair := t.pair }) ∧
  (∀ (w : WReq) (v : Nat) (s : State), Admitted w.hdr s → Whole w 6 (leBytes 1 v) → v ≤ 1 → s.dev.state = 3 → s.power.input ≠
    3 → (if v = 0 then s.config.copyA else s.config.copyB).status ≠ 0 →
    ∃ t, exec (.configRestore w) s = .next t ∧
      t.config = taken w.hdr Obj.configRestore s ∧ Replied w.hdr 2 (leBytes 2 0x1205) s t ∧
      t = { s with config := t.config, pair := t.pair }) ∧
  (∀ (w : WReq) (v : Nat) (s : State), Admitted w.hdr s → Whole w 6 (leBytes 1 v) → s.dev.state ≠ 8 → s.dev.state ≠ 3 →
    ∃ t, exec (.configRestore w) s = .next t ∧
      t.config = (noteRequest w.hdr s).config ∧ Replied w.hdr 2 (leBytes 2 0x1105) s t ∧
      t = { s with config := t.config, pair := t.pair })

/-- power_on_request takes Standby to Boot; serve_enable is stored, and serving begins or ends with it; drain_request enters
  Draining; restart_request drops the rails and enters Boot or Standby, in Fault-stop too; controller_restore takes a
  simplex half back, or reports that its test failed; takeover_drill arms a drill; ens_resume starts a roll call,
  ens_dissolve leaves the ensemble; thermal_shutdown_clear clears a cool site that is no stack and not still reloading.
  Refused with 0x1105 are those that the present state does not allow. Every one is a WRITE of its object, with the
  checks of all writes, and an accepted value does what is said, whatever else the state holds. -/
def Obligations.DeviceRequests : Prop :=
  (∀ (w : WReq) (s : State), Admitted w.hdr s → Whole w 6 ([1]) → s.dev.state = 1 →
    ∃ t, exec (.powerOnRequest w) s = .next t ∧
      t.config = taken w.hdr Obj.powerOnRequest s ∧ Replied w.hdr 2 (leBytes 2 0) s t ∧ t.dev = { s.dev with state := 2 } ∧
        t.test.unlocked = false ∧ t.mem = s.mem ∧
      t = { s with
          config := t.config, pair := t.pair, beat := t.beat, od := t.od, strings := t.strings, ports := t.ports
          time := t.time, dev := t.dev, pod := t.pod, test := t.test, beagle := t.beagle }) ∧
  (∀ (w : WReq) (s : State), Admitted w.hdr s → Whole w 6 [1] → s.dev.state ≠ 8 → s.dev.state ≠ 0 → s.dev.state ≠ 1 →
    ∃ t, exec (.powerOnRequest w) s = .next t ∧
      t.config = (noteRequest w.hdr s).config ∧ Replied w.hdr 2 (leBytes 2 0x1105) s t ∧
      t = { s with config := t.config, pair := t.pair }) ∧
  (∀ (w : WReq) (s : State), Admitted w.hdr s → Whole w 6 [1] → s.dev.state ≠ 8 → s.dev.state ≠ 0 → s.dev.state ≠ 5 →
    s.dev.state ≠ 6 →
    ∃ t, exec (.drainRequest w) s = .next t ∧
      t.config = (noteRequest w.hdr s).config ∧ Replied w.hdr 2 (leBytes 2 0x1105) s t ∧
      t = { s with config := t.config, pair := t.pair }) ∧
  (∀ (w : WReq) (s : State), Admitted w.hdr s → Whole w 6 [1] → s.dev.state ≠ 8 → drillCode s ≠ 0 →
    ∃ t, exec (.takeoverDrill w) s = .next t ∧
      t.config = (noteRequest w.hdr s).config ∧ Replied w.hdr 2 (leBytes 2 0x1105) s t ∧
      t = { s with config := t.config, pair := t.pair }) ∧
  (∀ (w : WReq) (s : State), Admitted w.hdr s → Whole w 6 [1] → s.dev.state ≠ 8 → s.dev.state ≠ 3 ∨ (s.ens.state ≠ 1 ∧
    s.ens.state ≠ 3) →
    ∃ t, exec (.ensResume w) s = .next t ∧
      t.config = (noteRequest w.hdr s).config ∧ Replied w.hdr 2 (leBytes 2 0x1105) s t ∧
      t = { s with config := t.config, pair := t.pair }) ∧
  (∀ (w : WReq) (s : State), Admitted w.hdr s → s.dev.state ≠ 8 → Whole w 1 ([1]) → SetGood w.hdr
    ({ key := Obj.serveEnable, ty := 1, data := [1] } : Entry) s → s.dev.state = 4 → anyResident s = true →
    ∃ t, exec (.serveEnable w) s = .next t ∧
      CommittedOne w.hdr ({ key := Obj.serveEnable, ty := 1, data := [1] } : Entry) s t ∧ Replied w.hdr 2 (leBytes 2 0) s t ∧
        t.obj Obj.serveEnable = 1 ∧ t.dev.state = (if s.obj Obj.stateReasons = 0 then 5 else 6) ∧ Untouched (Obj.serveEnable
        :: logCounters) s t ∧
      t = { s with od := t.od, beagle := t.beagle, config := t.config, pair := t.pair, dev := t.dev }) ∧
  (∀ (w : WReq) (s : State), Admitted w.hdr s → s.dev.state ≠ 8 → Whole w 1 ([0]) → SetGood w.hdr
    ({ key := Obj.serveEnable, ty := 1, data := [0] } : Entry) s → s.dev.state = 5 ∨ s.dev.state = 6 → s.serve.sessions = []
    →
    ∃ t, exec (.serveEnable w) s = .next t ∧
      CommittedOne w.hdr ({ key := Obj.serveEnable, ty := 1, data := [0] } : Entry) s t ∧ Replied w.hdr 2 (leBytes 2 0) s t ∧
        t.obj Obj.serveEnable = 0 ∧ t.dev.state = 4 ∧ Untouched (Obj.serveEnable :: logCounters) s t ∧
      t = { s with od := t.od, beagle := t.beagle, config := t.config, pair := t.pair, dev := t.dev }) ∧
  (∀ (w : WReq) (s : State), Admitted w.hdr s → s.dev.state ≠ 8 → Whole w 1 ([1]) → SetGood w.hdr
    ({ key := Obj.serveEnable, ty := 1, data := [1] } : Entry) s → s.dev.state ≠ 0 → s.dev.state = 4 → anyResident s = false
    →
    ∃ t, exec (.serveEnable w) s = .next t ∧
      CommittedOne w.hdr ({ key := Obj.serveEnable, ty := 1, data := [1] } : Entry) s t ∧ Replied w.hdr 2 (leBytes 2 0) s t ∧
        t.obj Obj.serveEnable = 1 ∧ t.dev = s.dev ∧ Untouched (Obj.serveEnable :: logCounters) s t ∧
      t = { s with od := t.od, beagle := t.beagle, config := t.config, pair := t.pair }) ∧
  (∀ (w : WReq) (s : State), Admitted w.hdr s → s.dev.state ≠ 8 → Whole w 1 ([0]) → SetGood w.hdr
    ({ key := Obj.serveEnable, ty := 1, data := [0] } : Entry) s → s.dev.state ≠ 0 → s.dev.state ≠ 5 ∧ s.dev.state ≠ 6 →
    ∃ t, exec (.serveEnable w) s = .next t ∧
      CommittedOne w.hdr ({ key := Obj.serveEnable, ty := 1, data := [0] } : Entry) s t ∧ Replied w.hdr 2 (leBytes 2 0) s t ∧
        t.obj Obj.serveEnable = 0 ∧ t.dev = s.dev ∧ Untouched (Obj.serveEnable :: logCounters) s t ∧
      t = { s with od := t.od, beagle := t.beagle, config := t.config, pair := t.pair }) ∧
  (∀ (w : WReq) (s : State), Admitted w.hdr s → s.dev.state ≠ 8 → Whole w 1 ([1]) → SetGood w.hdr
    ({ key := Obj.serveEnable, ty := 1, data := [1] } : Entry) s → s.dev.state ≠ 0 → s.dev.state ≠ 4 →
    ∃ t, exec (.serveEnable w) s = .next t ∧
      CommittedOne w.hdr ({ key := Obj.serveEnable, ty := 1, data := [1] } : Entry) s t ∧ Replied w.hdr 2 (leBytes 2 0) s t ∧
        t.obj Obj.serveEnable = 1 ∧ t.dev = s.dev ∧
      t = { s with od := t.od, beagle := t.beagle, config := t.config, pair := t.pair }) ∧
  (∀ (w : WReq) (v : Nat) (s : State), Admitted w.hdr s → Whole w 6 (leBytes 1 v) → 1 ≤ v ∧ v ≤ 2 → s.dev.state = 5 ∨
    s.dev.state = 6 →
    ∃ t, exec (.drainRequest w) s = .next t ∧
      t.config = taken w.hdr Obj.drainRequest s ∧ Replied w.hdr 2 (leBytes 2 0) s t ∧ t.dev =
        { s.dev with state := 7, drainTo := v } ∧ Untouched logCounters s t ∧
      t = { s with config := t.config, pair := t.pair, od := t.od, dev := t.dev, beagle := t.beagle }) ∧
  (∀ (w : WReq) (v : Nat) (s : State), Admitted w.hdr s → Whole w 6 (leBytes 1 v) → 1 ≤ v ∧ v ≤ 2 → latchedCool s = true → 1
    ≤ s.dev.state ∧ s.dev.state ≤ 7 → s.serve.sessions = [] ∧ s.serve.ctxs = [] →
    ∃ t, exec (.restartRequest w) s = .next t ∧
      t.dev.state = (if v = 1 then 2 else 1) ∧ t.dev.started = false ∧ t.mem = [] ∧ t.cores = [] ∧ t.dies = [] ∧ t.wins = []
        ∧ t.images.store = s.images.store ∧ t.power.rails = s.power.rails % 4 ∧ t.odb = s.odb ∧ t.config.copyA =
        s.config.copyA ∧ t.config.gen = s.config.gen) ∧
  (∀ (w : WReq) (v : Nat) (s : State), Admitted w.hdr s → Whole w 6 (leBytes 1 v) → 1 ≤ v ∧ v ≤ 2 → latchedCool s = true →
    s.dev.state = 8 → s.serve.sessions = [] ∧ s.serve.ctxs = [] →
    ∃ t, exec (.restartRequest w) s = .next t ∧
      t.dev.state = (if v = 1 then 2 else 1) ∧ t.mem = [] ∧ t.cores = [] ∧ t.images.store = s.images.store) ∧
  (∀ (w : WReq) (s : State), Admitted w.hdr s → Whole w 6 [1] → s.dev.state ≠ 8 → latchedCool s = false →
    ∃ t, exec (.restartRequest w) s = .next t ∧
      t.config = (noteRequest w.hdr s).config ∧ Replied w.hdr 2 (leBytes 2 0x1105) s t ∧
      t = { s with config := t.config, pair := t.pair }) ∧
  (∀ (w : WReq) (s : State), Admitted w.hdr s → Whole w 6 [1] → s.dev.state ≠ 8 → s.dev.state ≠ 2 → s.pair.state ≠ 0 →
    s.pair.differ = false →
    ∃ t, exec (.controllerRestore w false) s = .next t ∧
      t.config = taken w.hdr Obj.controllerRestore s ∧ t.pair =
        { { s.pair with state := s.pair.active + 1 } with cur := s.pair.cur ++ [dictReply w.hdr 2 (leBytes 2 0) s] } ∧ t.obj
        Obj.pairLastResult = 0x1205 ∧ Untouched [Obj.pairLastResult] s t ∧
      t = { s with od := t.od, config := t.config, pair := t.pair }) ∧
  (∀ (w : WReq) (s : State), Admitted w.hdr s → Whole w 6 [1] → s.dev.state ≠ 8 → s.dev.state ≠ 2 → s.pair.state ≠ 0 →
    s.pair.differ = false → s.dev.state ≤ 4 →
    ∃ t, exec (.controllerRestore w true) s = .next t ∧
      t.config = taken w.hdr Obj.controllerRestore s ∧ t.pair =
        { { s.pair with state := 0, second := false } with cur := s.pair.cur ++ [dictReply w.hdr 2 (leBytes 2 0) s] } ∧ t.obj
        Obj.pairLastResult = 0 ∧ (t.obj Obj.stateReasons).testBit 5 = false ∧
      t = { s with od := t.od, dev := t.dev, config := t.config, pair := t.pair, beagle := t.beagle }) ∧
  (∀ (w : WReq) (pass : Bool) (s : State), Admitted w.hdr s → Whole w 6 [1] → s.dev.state ≠ 8 → s.dev.state ≠ 2 →
    s.pair.state ≠ 0 → s.pair.differ = true →
    ∃ t, exec (.controllerRestore w pass) s = .next t ∧
      t.config = taken w.hdr Obj.controllerRestore s ∧ t.pair =
        { s.pair with cur := s.pair.cur ++ [dictReply w.hdr 2 (leBytes 2 0) s] } ∧ t.obj Obj.pairLastResult = 0x1205 ∧
        Untouched [Obj.pairLastResult] s t ∧
      t = { s with od := t.od, config := t.config, pair := t.pair }) ∧
  (∀ (w : WReq) (pass : Bool) (s : State), Admitted w.hdr s → Whole w 6 [1] → s.dev.state ≠ 8 → s.dev.state ≠ 2 →
    s.pair.state = 0 →
    ∃ t, exec (.controllerRestore w pass) s = .next t ∧
      t.config = taken w.hdr Obj.controllerRestore s ∧ t.pair =
        { s.pair with cur := s.pair.cur ++ [dictReply w.hdr 2 (leBytes 2 0) s] } ∧ t.obj Obj.pairLastResult = 0 ∧ Untouched
        [Obj.pairLastResult] s t ∧
      t = { s with od := t.od, config := t.config, pair := t.pair }) ∧
  (∀ (w : WReq) (s : State), Admitted w.hdr s → Whole w 6 [1] → drillCode s = 0 →
    ∃ t, exec (.takeoverDrill w) s = .next t ∧
      t.config = taken w.hdr Obj.takeoverDrill s ∧ t.pair =
        { { s.pair with phase := 1 } with cur := s.pair.cur ++ [dictReply w.hdr 2 (leBytes 2 0) s] } ∧
      t = { s with config := t.config, pair := t.pair }) ∧
  (∀ (w : WReq) (s : State), Admitted w.hdr s → Whole w 6 ([1]) → s.dev.state = 3 → s.ens.state = 1 ∨ s.ens.state = 3 →
    (memberNodes s).all (fun n => n == s.fabric.node.toNat) = true →
    ∃ t, exec (.ensResume w) s = .next t ∧
      t.config = taken w.hdr Obj.ensResume s ∧ Replied w.hdr 2 (leBytes 2 0) s t ∧ t.ens = { state := 1 } ∧
      t = { s with config := t.config, pair := t.pair, ens := t.ens }) ∧
  (∀ (w : WReq) (s : State), Admitted w.hdr s → Whole w 6 ([1]) → s.dev.state ≠ 8 → s.dev.state ≠ 3 ∨ s.dev.heldAtBoot = true
    → (s.imgSlot (s.obj Obj.ensSlot)).image = none →
    ∃ t, exec (.ensDissolve w) s = .next t ∧
      Replied w.hdr 2 (leBytes 2 0) s t ∧ t.obj Obj.ensSize = 1 ∧ t.ens = {} ∧ t.config.gen = ((baseCopy s.config).map (fun
        (c : ConfigCopy) => c.gen)).getD 0 + 1 ∧ t.config.copyA = t.config.copyB ∧ t.dev = s.dev ∧ Untouched (Obj.ensSize ::
        logCounters) s t ∧
      t = { s with od := t.od, ens := t.ens, beagle := t.beagle, config := t.config, pair := t.pair }) ∧
  (∀ (w : WReq) (v : Nat) (s : State), Admitted w.hdr s → Whole w 6 (leBytes 1 v) → s.dev.state ≠ 8 → v ≤ 28 → (siteStack
    v).isSome = false → (s.therm.dies.all (fun (p : Nat × ThermDie) => p.1 / 16 != v || decide (temperature p.2 ≤ 600))) =
    true → siteDie v = none →
    ∃ t, exec (.thermalShutdownClear w) s = .next t ∧
      t.config = taken w.hdr Obj.thermalShutdownClear s ∧ Replied w.hdr 2 (leBytes 2 0) s t ∧ t.therm.dies = s.therm.dies.map
        (fun (p : Nat × ThermDie) => if p.1 / 16 = v ∧ p.2.level = 3 then (p.1, { p.2 with level := 0 }) else p) ∧
      t = { s with
          config := t.config, pair := t.pair, beat := t.beat, od := t.od, strings := t.strings, ports := t.ports
          time := t.time, dev := t.dev, pod := t.pod, therm := t.therm, test := t.test, beagle := t.beagle }) ∧
  (∀ (w : WReq) (v : Nat) (s : State), Admitted w.hdr s → Whole w 6 (leBytes 1 v) → s.dev.state ≠ 8 → v ≤ 28 → (siteStack
    v).isSome = false → siteCool s v = false →
    ∃ t, exec (.thermalShutdownClear w) s = .next t ∧
      t.config = taken w.hdr Obj.thermalShutdownClear s ∧ Replied w.hdr 2 (leBytes 2 0x1105) s t ∧
      t = { s with config := t.config, pair := t.pair }) ∧
  (∀ (w : WReq) (v c : Nat) (s : State), Admitted w.hdr s → Whole w 6 (leBytes 1 v) → s.dev.state ≠ 8 → v ≤ 28 → siteCool s v
    = true ∨ (siteStack v).isSome = true → c = shutdownClearCode v s → c ≠ 0 →
    ∃ t, exec (.thermalShutdownClear w) s = .next t ∧
      t.config = taken w.hdr Obj.thermalShutdownClear s ∧ Replied w.hdr 2 (leBytes 2 c) s t ∧ (c = 0x1205 ∨ c = 0x1303) ∧
      t = { s with config := t.config, pair := t.pair }) ∧
  (∀ (w : WReq) (s : State),
    ∃ t, exec (.powerOnRequest w) s = .next t ∧
      t = dictAdmit 2 w.hdr (dictWrite Obj.powerOnRequest w {}) s) ∧
  (∀ (w : WReq) (b : Bytes) (u : State) (s : State), Admitted w.hdr s → w.offset = 0 → w.last = true → w.total = b.length →
    w.data = b → u = { s with config := taken w.hdr Obj.powerOnRequest s } → openCodeOf s w.hdr Obj.powerOnRequest w = 0 →
    valueCode u Obj.powerOnRequest b = 0 → actCode u Obj.powerOnRequest (leNat b) b {} = 0 →
    ∃ t, exec (.powerOnRequest w) s = .next t ∧
      t = answerWrite w.hdr 0 (powerOn u)) ∧
  (∀ (w : WReq) (s : State),
    ∃ t, exec (.serveEnable w) s = .next t ∧
      t = dictAdmit 2 w.hdr (dictWrite Obj.serveEnable w {}) s) ∧
  (∀ (w : WReq) (b : Bytes) (e : Entry) (u : State) (s : State), Admitted w.hdr s → s.power.input ≠ 3 → s.config.owner = none
    ∨ s.config.owner = some w.hdr.client → w.offset = 0 → w.last = true → w.total = b.length → w.data = b → e =
    { key := Obj.serveEnable, ty := w.ty, data := b } → u = { s with config := taken w.hdr Obj.serveEnable s } → openCodeOf s
    w.hdr Obj.serveEnable w = 0 → valueCode u Obj.serveEnable b = 0 → setCode [e] {} u = none →
    ∃ t, exec (.serveEnable w) s = .next t ∧
      t = answerWrite w.hdr 0 (applySet w.hdr.client.toNat [e] {} u)) ∧
  (∀ (w : WReq) (s : State),
    ∃ t, exec (.drainRequest w) s = .next t ∧
      t = dictAdmit 2 w.hdr (dictWrite Obj.drainRequest w {}) s) ∧
  (∀ (w : WReq) (b : Bytes) (u : State) (s : State), Admitted w.hdr s → w.offset = 0 → w.last = true → w.total = b.length →
    w.data = b → u = { s with config := taken w.hdr Obj.drainRequest s } → openCodeOf s w.hdr Obj.drainRequest w = 0 →
    valueCode u Obj.drainRequest b = 0 → actCode u Obj.drainRequest (leNat b) b {} = 0 →
    ∃ t, exec (.drainRequest w) s = .next t ∧
      t = answerWrite w.hdr 0 (startDrain (leNat b) u)) ∧
  (∀ (w : WReq) (s : State),
    ∃ t, exec (.restartRequest w) s = .next t ∧
      t = dictAdmit 2 w.hdr (dictWrite Obj.restartRequest w {}) s) ∧
  (∀ (w : WReq) (b : Bytes) (u : State) (s : State), Admitted w.hdr s → w.offset = 0 → w.last = true → w.total = b.length →
    w.data = b → u = { s with config := taken w.hdr Obj.restartRequest s } → openCodeOf s w.hdr Obj.restartRequest w = 0 →
    valueCode u Obj.restartRequest b = 0 → actCode u Obj.restartRequest (leNat b) b {} = 0 →
    ∃ t, exec (.restartRequest w) s = .next t ∧
      t = answerWrite w.hdr 0 (restart (leNat b) u)) ∧
  (∀ (w : WReq) (pass : Bool) (s : State),
    ∃ t, exec (.controllerRestore w pass) s = .next t ∧
      t = dictAdmit 2 w.hdr (dictWrite Obj.controllerRestore w { pass := some pass }) s) ∧
  (∀ (w : WReq) (pass : Bool) (b : Bytes) (u : State) (s : State), Admitted w.hdr s → w.offset = 0 → w.last = true → w.total
    = b.length → w.data = b → u = { s with config := taken w.hdr Obj.controllerRestore s } → openCodeOf s w.hdr
    Obj.controllerRestore w = 0 → valueCode u Obj.controllerRestore b = 0 → actCode u Obj.controllerRestore (leNat b) b
    { pass := some pass } = 0 →
    ∃ t, exec (.controllerRestore w pass) s = .next t ∧
      t = answerWrite w.hdr 0 (restorePair pass u)) ∧
  (∀ (w : WReq) (s : State),
    ∃ t, exec (.takeoverDrill w) s = .next t ∧
      t = dictAdmit 2 w.hdr (dictWrite Obj.takeoverDrill w {}) s) ∧
  (∀ (w : WReq) (b : Bytes) (u : State) (s : State), Admitted w.hdr s → w.offset = 0 → w.last = true → w.total = b.length →
    w.data = b → u = { s with config := taken w.hdr Obj.takeoverDrill s } → openCodeOf s w.hdr Obj.takeoverDrill w = 0 →
    valueCode u Obj.takeoverDrill b = 0 → actCode u Obj.takeoverDrill (leNat b) b {} = 0 →
    ∃ t, exec (.takeoverDrill w) s = .next t ∧
      t = answerWrite w.hdr 0 (askDrill u)) ∧
  (∀ (w : WReq) (s : State),
    ∃ t, exec (.ensResume w) s = .next t ∧
      t = dictAdmit 2 w.hdr (dictWrite Obj.ensResume w {}) s) ∧
  (∀ (w : WReq) (b : Bytes) (u : State) (s : State), Admitted w.hdr s → w.offset = 0 → w.last = true → w.total = b.length →
    w.data = b → u = { s with config := taken w.hdr Obj.ensResume s } → openCodeOf s w.hdr Obj.ensResume w = 0 → valueCode u
    Obj.ensResume b = 0 → actCode u Obj.ensResume (leNat b) b {} = 0 →
    ∃ t, exec (.ensResume w) s = .next t ∧
      t = answerWrite w.hdr 0 (startRollCall u)) ∧
  (∀ (w : WReq) (s : State),
    ∃ t, exec (.ensDissolve w) s = .next t ∧
      t = dictAdmit 2 w.hdr (dictWrite Obj.ensDissolve w {}) s) ∧
  (∀ (w : WReq) (b : Bytes) (u : State) (s : State), Admitted w.hdr s → w.offset = 0 → w.last = true → w.total = b.length →
    w.data = b → u = { s with config := taken w.hdr Obj.ensDissolve s } → openCodeOf s w.hdr Obj.ensDissolve w = 0 →
    valueCode u Obj.ensDissolve b = 0 → actCode u Obj.ensDissolve (leNat b) b {} = 0 →
    ∃ t, exec (.ensDissolve w) s = .next t ∧
      t = answerWrite w.hdr 0 (dissolve w.hdr.client.toNat u)) ∧
  (∀ (w : WReq) (s : State),
    ∃ t, exec (.thermalShutdownClear w) s = .next t ∧
      t = dictAdmit 2 w.hdr (dictWrite Obj.thermalShutdownClear w {}) s) ∧
  (∀ (w : WReq) (b : Bytes) (u : State) (s : State), Admitted w.hdr s → w.offset = 0 → w.last = true → w.total = b.length →
    w.data = b → u = { s with config := taken w.hdr Obj.thermalShutdownClear s } → openCodeOf s w.hdr
    Obj.thermalShutdownClear w = 0 → valueCode u Obj.thermalShutdownClear b = 0 → actCode u Obj.thermalShutdownClear (leNat
    b) b {} = 0 →
    ∃ t, exec (.thermalShutdownClear w) s = .next t ∧
      t = answerWrite w.hdr 0 (clearSite (leNat b) u))

/-- mc_clock_mhz asks every die whose clock differs; ballast_enable 0 needs test mode; arb_commit copies the shadow values;
  margin_test_request, tile_reset, harp_removal_request, handover_manual and sounding_start start what they name; a
  route set becomes the inactive bank, its beat is armed; fi_apply injects; retriever_enable switches; slots load, drain
  and are forced; an image and its keys are stored; store_sel selects. Each is a WRITE of its object, with the checks of
  all writes; a value that they or the object's own rule refuse is answered with its code and changes nothing else. -/
def Obligations.ModuleRequests : Prop :=
  (∀ (w : WReq) (v : Nat) (s : State), Admitted w.hdr s → s.dev.state ≠ 8 → Whole w 7 (leBytes 2 v) → SetGood w.hdr
    ({ key := Obj.mcClockMhz, ty := 7, data := leBytes 2 v } : Entry) s → s.dev.state ≠ 0 → 800 ≤ v ∧ v ≤ 1800 → v % 50 = 0 →
    ∃ t, exec (.mcClockMhz w) s = .next t ∧
      CommittedOne w.hdr ({ key := Obj.mcClockMhz, ty := 7, data := leBytes 2 v } : Entry) s t ∧ Replied w.hdr 2 (leBytes 2
        0) s t ∧ t.obj Obj.mcClockMhz = v ∧ Untouched (Obj.mcClockMhz :: logCounters) s t ∧ (∀ n, n < 16 → t.die n =
        { s.die n with want := if (s.die n).clock = v then none else some v }) ∧ ∀ n, 16 ≤ n → t.die n = s.die n ∧
      t = { s with od := t.od, beagle := t.beagle, config := t.config, pair := t.pair, dies := t.dies }) ∧
  (∀ (w : WReq) (v : Nat) (s : State), Admitted w.hdr s → Whole w 1 (leBytes 1 v) → s.dev.state ≠ 8 → v ≤ 1 → s.test.unlocked
    = true ∨ v = 1 →
    ∃ t, exec (.ballastEnable w) s = .next t ∧
      t.config = taken w.hdr Obj.ballastEnable s ∧ Replied w.hdr 2 (leBytes 2 0) s t ∧ t.obj Obj.ballastEnable = v ∧
        Untouched [Obj.ballastEnable] s t ∧
      t = { s with config := t.config, pair := t.pair, od := t.od }) ∧
  (∀ (w : WReq) (s : State), Admitted w.hdr s → Whole w 1 ([0]) → s.dev.state ≠ 8 → s.test.unlocked = false →
    ∃ t, exec (.ballastEnable w) s = .next t ∧
      t.config = taken w.hdr Obj.ballastEnable s ∧ Replied w.hdr 2 (leBytes 2 0x1701) s t ∧
      t = { s with config := t.config, pair := t.pair }) ∧
  (∀ (w : WReq) (v : Nat) (s : State), Admitted w.hdr s → Whole w 6 (leBytes 1 v) → s.dev.state ≠ 8 → v ≤ 2 → arbPending s v
    = false →
    ∃ t, exec (.arbCommit w) s = .next t ∧
      t.config = taken w.hdr Obj.arbCommit s ∧ Replied w.hdr 2 (leBytes 2 0) s t ∧ (∀ r, r < arbRequesters v → t.obj
        ((arbKeys v).2 + r) = s.obj ((arbKeys v).1 + r)) ∧ t.obj (Obj.arbWaitLimitC + v) = s.obj (Obj.arbWaitLimitShadowC +
        v) ∧ (∀ k, k ≠ Obj.arbWaitLimitC + v → (k < (arbKeys v).2 ∨ (arbKeys v).2 + arbRequesters v ≤ k) → t.obj k = s.obj k)
        ∧ (∀ a, a ∉ arbsOf v → t.arb a = s.arb a) ∧ ∀ a, a ∈ arbsOf v → t.arb a =
        { s.arb a with next := some ((List.range (arbRequesters v)).map (fun r => s.obj ((arbKeys v).1 + r)), s.obj (Obj.arbWaitLimitShadowC + v), s.beat + 2000) }
        ∧
      t = { s with config := t.config, pair := t.pair, od := t.od, arbs := t.arbs }) ∧
  (∀ (w : WReq) (v : Nat) (s : State), Admitted w.hdr s → Whole w 6 (leBytes 1 v) → s.dev.state ≠ 8 → v ≤ 2 → arbPending s v
    = true →
    ∃ t, exec (.arbCommit w) s = .next t ∧
      t.config = taken w.hdr Obj.arbCommit s ∧ Replied w.hdr 2 (leBytes 2 0x1303) s t ∧
      t = { s with config := t.config, pair := t.pair }) ∧
  (∀ (w : WReq) (s : State), Admitted w.hdr s → Whole w 6 ([1]) → s.dev.state ≠ 8 → s.dev.state ≠ 5 → s.dev.started = true →
    ∃ t, exec (.marginTestRequest w) s = .next t ∧
      t.config = taken w.hdr Obj.marginTestRequest s ∧ Replied w.hdr 2 (leBytes 2 0) s t ∧ t.dev =
        { s.dev with marginRun := 3 } ∧
      t = { s with config := t.config, pair := t.pair, dev := t.dev }) ∧
  (∀ (w : WReq) (s : State), Admitted w.hdr s → Whole w 6 ([1]) → s.dev.state ≠ 8 → s.dev.state ≠ 5 → s.dev.started = false →
    ∃ t, exec (.marginTestRequest w) s = .next t ∧
      t.config = taken w.hdr Obj.marginTestRequest s ∧ Replied w.hdr 2 (leBytes 2 0) s t ∧
      t = { s with config := t.config, pair := t.pair }) ∧
  (∀ (w : WReq) (s : State), Admitted w.hdr s → Whole w 6 [1] → s.dev.state = 5 →
    ∃ t, exec (.marginTestRequest w) s = .next t ∧
      t.config = (noteRequest w.hdr s).config ∧ Replied w.hdr 2 (leBytes 2 0x1105) s t ∧
      t = { s with config := t.config, pair := t.pair }) ∧
  (∀ (w : WReq) (v : Nat) (s : State), Admitted w.hdr s → Whole w 6 (leBytes 1 v) → s.dev.state ≠ 8 → v ≤ 28 → (s.tile
    v).state = 0 → s.dev.started = true →
    ∃ t, exec (.tileReset w) s = .next t ∧
      t.config = taken w.hdr Obj.tileReset s ∧ Replied w.hdr 2 (leBytes 2 0) s t ∧ t.tile v = { state := 1, since := s.beat }
        ∧ (∀ n, n ≠ v → t.tile n = s.tile n) ∧ (∀ n, n ∈ siteStrings v → t.str n = { s.str n with stopped := true }) ∧ ∀ n, n
        ∉ siteStrings v → t.str n = s.str n ∧
      t = { s with config := t.config, pair := t.pair, strings := t.strings, tiles := t.tiles }) ∧
  (∀ (w : WReq) (v : Nat) (s : State), Admitted w.hdr s → Whole w 6 (leBytes 1 v) → s.dev.state ≠ 8 → v ≤ 28 → (s.tile
    v).state ≠ 0 ∨ s.dev.started = false →
    ∃ t, exec (.tileReset w) s = .next t ∧
      t.config = taken w.hdr Obj.tileReset s ∧ Replied w.hdr 2 (leBytes 2 0) s t ∧
      t = { s with config := t.config, pair := t.pair }) ∧
  (∀ (w : WReq) (v : Nat) (s : State), Admitted w.hdr s → Whole w 6 (leBytes 1 v) → s.dev.state ≠ 8 → v ≤ 9 → removable s v =
    true →
    ∃ t, exec (.harpRemovalRequest w) s = .next t ∧
      t.config = taken w.hdr Obj.harpRemovalRequest s ∧ Replied w.hdr 2 (leBytes 2 0) s t ∧ t.harps = (s.setHarp v
        { s.harp v with led := 1 }).harps ∧
      t = { s with config := t.config, pair := t.pair, harps := t.harps }) ∧
  (∀ (w : WReq) (v : Nat) (s : State), Admitted w.hdr s → Whole w 6 (leBytes 1 v) → s.dev.state ≠ 8 → v ≤ 9 → removable s v =
    false →
    ∃ t, exec (.harpRemovalRequest w) s = .next t ∧
      t.config = taken w.hdr Obj.harpRemovalRequest s ∧ Replied w.hdr 2 (leBytes 2 0x1105) s t ∧
      t = { s with config := t.config, pair := t.pair }) ∧
  (∀ (w : WReq) (v : Nat) (s : State), Admitted w.hdr s → Whole w 6 (leBytes 1 v) → s.dev.state ≠ 8 → v ≤ 7 → handoverOn s v
    = false → (s.harp 8).role = 2 → fedBy s 8 = none → assignedTo s 8 = none →
    ∃ t, exec (.handoverManual w) s = .next t ∧
      t.config = taken w.hdr Obj.handoverManual s ∧ Replied w.hdr 2 (leBytes 2 0) s t ∧ (t.domain v).target = some 8 ∧
        (t.domain v).state = 1 ∧ (t.harp 8).role = 3 ∧ t.harp 9 = s.harp 9 ∧
      t = { s with
          config := t.config, pair := t.pair, beat := t.beat, od := t.od, strings := t.strings, harps := t.harps
          domains := t.domains, ports := t.ports, time := t.time, dev := t.dev, pod := t.pod, test := t.test
          beagle := t.beagle }) ∧
  (∀ (w : WReq) (v : Nat) (s : State), Admitted w.hdr s → Whole w 6 (leBytes 1 v) → s.dev.state ≠ 8 → v ≤ 7 → handoverOn s v
    = true →
    ∃ t, exec (.handoverManual w) s = .next t ∧
      t.config = taken w.hdr Obj.handoverManual s ∧ Replied w.hdr 2 (leBytes 2 0x1105) s t ∧
      t = { s with config := t.config, pair := t.pair }) ∧
  (∀ (w : WReq) (s : State), Admitted w.hdr s → Whole w 6 ([1]) → 4 ≤ s.dev.state ∧ s.dev.state ≤ 6 → s.obj
    Obj.soundingHalfSpanGhz % 2 = 0 → soundingHeld s = false → (s.str (primaryString hubSite (s.obj Obj.soundingRim))).state
    ≤ 2 → (s.str (1068 + (s.obj Obj.soundingRim - 25))).state = 3 →
    ∃ t, exec (.soundingStart w) s = .next t ∧
      t.config = taken w.hdr Obj.soundingStart s ∧ Replied w.hdr 2 (leBytes 2 0) s t ∧ t.sounding =
        { state := 1, string := (1068 + (s.obj Obj.soundingRim - 25)), half := s.obj Obj.soundingHalfSpanGhz } ∧
      t = { s with config := t.config, pair := t.pair, sounding := t.sounding }) ∧
  (∀ (w : WReq) (s : State), Admitted w.hdr s → Whole w 6 ([1]) → 4 ≤ s.dev.state ∧ s.dev.state ≤ 6 → s.obj
    Obj.soundingHalfSpanGhz % 2 = 0 → soundingHeld s = false → (s.str (primaryString hubSite (s.obj Obj.soundingRim))).state
    ≤ 2 → (s.str (1068 + (s.obj Obj.soundingRim - 25))).state ≠ 3 → s.wins = [] → (s.str (1068 + (s.obj Obj.soundingRim -
    25))).unacked = [] → ∀ c, c < 4 → tget [] c (s.str (1068 + (s.obj Obj.soundingRim - 25))).txq = [] →
    ∃ t, exec (.soundingStart w) s = .next t ∧
      t.config = taken w.hdr Obj.soundingStart s ∧ Replied w.hdr 2 (leBytes 2 0) s t ∧ t.sounding =
        { state := 1, string := (1068 + (s.obj Obj.soundingRim - 25)), half := s.obj Obj.soundingHalfSpanGhz } ∧ (t.str (1068
        + (s.obj Obj.soundingRim - 25))).state = 3) ∧
  (∀ (w : WReq) (b : Bytes) (s : State), Admitted w.hdr s → Whole w 15 (b) → s.dev.state ≠ 8 → s.fabric.drain = false →
    validateRoutes s (parseRoutes b) = 0 →
    ∃ t, exec (.routeSetStaged w) s = .next t ∧
      t.config = taken w.hdr Obj.routeSetStaged s ∧ Replied w.hdr 2 (leBytes 2 0) s t ∧ t.fabric =
        { s.fabric with banks := tset (1 - s.fabric.epoch) (parseRoutes b) s.fabric.banks, bankValid := lset (1 - s.fabric.epoch) true s.fabric.bankValid, injected := tset (1 - s.fabric.epoch) 0 s.fabric.injected, delivered := tset (1 - s.fabric.epoch) 0 s.fabric.delivered }
        ∧
      t = { s with config := t.config, pair := t.pair, fabric := t.fabric }) ∧
  (∀ (w : WReq) (b : Bytes) (s : State), Admitted w.hdr s → Whole w 15 (b) → s.dev.state ≠ 8 → s.fabric.drain = false →
    validateRoutes s (parseRoutes b) ≠ 0 →
    ∃ t, exec (.routeSetStaged w) s = .next t ∧
      t.config = taken w.hdr Obj.routeSetStaged s ∧ Replied w.hdr 2 (leBytes 2 (validateRoutes s (parseRoutes b))) s t ∧
      t = { s with config := t.config, pair := t.pair }) ∧
  (∀ (w : WReq) (b : Bytes) (s : State), Admitted w.hdr s → Whole w 15 (b) → s.dev.state ≠ 8 → s.fabric.drain = true →
    ∃ t, exec (.routeSetStaged w) s = .next t ∧
      t.config = taken w.hdr Obj.routeSetStaged s ∧ Replied w.hdr 2 (leBytes 2 0x1502) s t ∧
      t = { s with config := t.config, pair := t.pair }) ∧
  (∀ (w : WReq) (v : Nat) (s : State), Admitted w.hdr s → s.dev.state ≠ 8 → Whole w 9 (leBytes 8 v) → SetGood w.hdr
    ({ key := Obj.routeActivateBeat, ty := 9, data := leBytes 8 v } : Entry) s → s.dev.state ≠ 0 → v < 2 ^ 64 →
    s.fabric.drain = false → s.beat + 1000000 ≤ v →
    ∃ t, exec (.routeActivateBeat w) s = .next t ∧
      CommittedOne w.hdr ({ key := Obj.routeActivateBeat, ty := 9, data := leBytes 8 v } : Entry) s t ∧ Replied w.hdr 2
        (leBytes 2 0) s t ∧ t.obj Obj.routeActivateBeat = v ∧ t.fabric = { s.fabric with activate := some v } ∧
      t = { s with od := t.od, beagle := t.beagle, config := t.config, pair := t.pair, fabric := t.fabric }) ∧
  (∀ (w : WReq) (v : Nat) (s : State), Admitted w.hdr s → s.dev.state ≠ 8 → Whole w 9 (leBytes 8 v) → v < 2 ^ 64 → SetGood
    w.hdr ({ key := Obj.routeActivateBeat, ty := 9, data := leBytes 8 v } : Entry) s → s.fabric.drain = false → v < s.beat +
    1000000 →
    ∃ t, exec (.routeActivateBeat w) s = .next t ∧
      t.config = taken w.hdr Obj.routeActivateBeat s ∧ Replied w.hdr 2 (leBytes 2 0x1202) s t ∧
      t = { s with config := t.config, pair := t.pair }) ∧
  (∀ (w : WReq) (s : State), Admitted w.hdr s → Whole w 6 ([1]) → s.dev.state ≠ 8 → s.test.unlocked = true →
    ∃ t, exec (.fiApply w) s = .next t ∧
      t.config = taken w.hdr Obj.fiApply s ∧ Replied w.hdr 2 (leBytes 2 0) s t ∧ t.ports = (s.setPort (s.obj Obj.fiPort)
        { s.port (s.obj Obj.fiPort) with inject := { mode := s.obj Obj.fiMode, rate := s.obj Obj.fiRateLog2, pattern := s.obj Obj.fiPattern, burst := s.obj Obj.fiBurstLen, seed := BitVec.ofNat 32 (s.obj Obj.fiSeed), classes := s.obj Obj.fiClassMask, at_ := s.beat } }).ports
        ∧
      t = { s with config := t.config, pair := t.pair, ports := t.ports }) ∧
  (∀ (w : WReq) (v : Nat) (s : State), Admitted w.hdr s → s.dev.state ≠ 8 → Whole w 9 (leBytes 8 v) → v < 2 ^ 64 → SetGood
    w.hdr ({ key := Obj.routeActivateBeat, ty := 9, data := leBytes 8 v } : Entry) s → s.fabric.drain = true →
    ∃ t, exec (.routeActivateBeat w) s = .next t ∧
      t.config = taken w.hdr Obj.routeActivateBeat s ∧ Replied w.hdr 2 (leBytes 2 0x1502) s t ∧
      t = { s with config := t.config, pair := t.pair }) ∧
  (∀ (w : WReq) (s : State), Admitted w.hdr s → Whole w 6 ([1]) → s.dev.state ≠ 8 → s.test.unlocked = false →
    ∃ t, exec (.fiApply w) s = .next t ∧
      t.config = taken w.hdr Obj.fiApply s ∧ Replied w.hdr 2 (leBytes 2 0x1701) s t ∧
      t = { s with config := t.config, pair := t.pair }) ∧
  (∀ (w : WReq) (v : Nat) (s : State), Admitted w.hdr s → s.dev.state ≠ 8 → Whole w 1 (leBytes 1 v) → SetGood w.hdr
    ({ key := Obj.retrieverEnable, ty := 1, data := leBytes 1 v } : Entry) s → s.dev.state = 3 ∨ s.dev.state = 4 → v ≤ 1 →
    ∃ t, exec (.retrieverEnable w) s = .next t ∧
      CommittedOne w.hdr ({ key := Obj.retrieverEnable, ty := 1, data := leBytes 1 v } : Entry) s t ∧ Replied w.hdr 2
        (leBytes 2 0) s t ∧ t.obj Obj.retrieverEnable = v ∧ t.retr = (if v = 1 then { s.retr with enabled := true } else
        { ({} : Retr) with counter := s.retr.counter }) ∧
      t = { s with od := t.od, beagle := t.beagle, config := t.config, pair := t.pair, retr := t.retr }) ∧
  (∀ (w : WReq) (slot : SlotId) (b : Bytes) (s : State), Admitted w.hdr s → Whole w 15 (b) → s.dev.state ≠ 8 → b.length = 32
    → (s.imgSlot slot.val).state = 0 → s.images.store.any (fun im => im.digest == b) = true →
    ∃ t, exec (.slotLoad slot w) s = .next t ∧
      t.config = taken w.hdr (slotKey Obj.slotLoad slot) s ∧ Replied w.hdr 2 (leBytes 2 0) s t ∧ t.images =
        { s.images with slots := t.images.slots, order := s.images.order ++ [slot.val] } ∧ t.imgSlot slot.val =
        { s.imgSlot slot.val with state := 1, digest := b, image := none } ∧ ∀ k, k ≠ slot.val → t.imgSlot k = s.imgSlot k ∧
      t = { s with config := t.config, pair := t.pair, images := t.images }) ∧
  (∀ (w : WReq) (slot : SlotId) (b : Bytes) (s : State), Admitted w.hdr s → Whole w 15 (b) → s.dev.state ≠ 8 → b.length = 32
    → (s.imgSlot slot.val).state = 0 → s.images.store.any (fun im => im.digest == b) = false →
    ∃ t, exec (.slotLoad slot w) s = .next t ∧
      t.config = taken w.hdr (slotKey Obj.slotLoad slot) s ∧ Replied w.hdr 2 (leBytes 2 0x1205) s t ∧
      t = { s with config := t.config, pair := t.pair }) ∧
  (∀ (w : WReq) (slot : SlotId) (s : State), Admitted w.hdr s → Whole w 6 ([1]) → s.dev.state ≠ 8 → 2 ≤ (s.imgSlot
    slot.val).state →
    ∃ t, exec (.slotUnloadDrain slot w) s = .next t ∧
      t.config = taken w.hdr (slotKey Obj.slotUnload slot) s ∧ Replied w.hdr 2 (leBytes 2 0) s t ∧ t.images = (s.setImgSlot
        slot.val { s.imgSlot slot.val with state := 3 }).images ∧
      t = { s with config := t.config, pair := t.pair, images := t.images }) ∧
  (∀ (w : WReq) (slot : SlotId) (s : State), Admitted w.hdr s → Whole w 6 [1] → s.dev.state ≠ 8 → (s.imgSlot slot.val).state
    ≤ 1 →
    ∃ t, exec (.slotUnloadDrain slot w) s = .next t ∧
      t.config = (noteRequest w.hdr s).config ∧ Replied w.hdr 2 (leBytes 2 0x1105) s t ∧
      t = { s with config := t.config, pair := t.pair }) ∧
  (∀ (w : WReq) (slot : SlotId) (s : State), Admitted w.hdr s → Whole w 6 ([2]) → s.dev.state ≠ 8 → 2 ≤ (s.imgSlot
    slot.val).state → s.serve.ctxs = [] → slotQuiet s slot.val = true →
    ∃ t, exec (.slotUnloadForce slot w) s = .next t ∧
      t.config = taken w.hdr (slotKey Obj.slotUnload slot) s ∧ Replied w.hdr 2 (leBytes 2 0) s t ∧ (t.imgSlot slot.val).state
        = 0 ∧ (t.imgSlot slot.val).image = none ∧ (t.imgSlot slot.val).digest = [] ∧ (∀ k, k ≠ slot.val → t.imgSlot k =
        s.imgSlot k) ∧ t.images.store = s.images.store ∧ t.mem = s.mem) ∧
  (∀ (w : WReq) (slot : SlotId) (s : State), Admitted w.hdr s → Whole w 6 [2] → s.dev.state ≠ 8 → (s.imgSlot slot.val).state
    ≤ 1 →
    ∃ t, exec (.slotUnloadForce slot w) s = .next t ∧
      t.config = (noteRequest w.hdr s).config ∧ Replied w.hdr 2 (leBytes 2 0x1105) s t ∧
      t = { s with config := t.config, pair := t.pair }) ∧
  (∀ (w : WReq) (slot : SlotId) (b : Bytes) (s : State), Admitted w.hdr s → Whole w 15 (b) → s.dev.state ≠ 8 → (s.imgSlot
    slot.val).state ≠ 0 →
    ∃ t, exec (.slotLoad slot w) s = .next t ∧
      t.config = (noteRequest w.hdr s).config ∧ Replied w.hdr 2 (leBytes 2 0x1105) s t ∧
      t = { s with config := t.config, pair := t.pair }) ∧
  (∀ (w : WReq) (b : Bytes) (im : Image) (s : State), Admitted w.hdr s → Whole w 15 (b) → s.dev.state ≠ 8 → im.fileBytes =
    b.length → ceilDiv b.length (2 ^ 20) ≤ s.images.freeMib → checkFile s im = true → s.images.store.any (fun x => x.digest
    == im.digest) = false →
    ∃ t, exec (.imageUpload w (some im)) s = .next t ∧
      t.config = taken w.hdr Obj.imageUpload s ∧ Replied w.hdr 2 (leBytes 2 0) s t ∧ t.images =
        { s.images with store := s.images.store ++ [im], freeMib := s.images.freeMib - storeMib im } ∧
      t = { s with config := t.config, pair := t.pair, images := t.images }) ∧
  (∀ (w : WReq) (b : Bytes) (im : Image) (s : State), Admitted w.hdr s → Whole w 15 (b) → s.dev.state ≠ 8 → ceilDiv b.length
    (2 ^ 20) ≤ s.images.freeMib → im.fileBytes ≠ b.length ∨ checkFile s im = false →
    ∃ t, exec (.imageUpload w (some im)) s = .next t ∧
      t.config = taken w.hdr Obj.imageUpload s ∧ Replied w.hdr 2 (leBytes 2 0x1401) s t ∧
      t = { s with config := t.config, pair := t.pair }) ∧
  (∀ (w : WReq) (k : Fin 4) (b : Bytes) (s : State), Admitted w.hdr s → s.dev.state ≠ 8 → Whole w 15 (b) → SetGood w.hdr
    ({ key := (Obj.imageTrustKeyK + k.val), ty := 15, data := b } : Entry) s → s.dev.state = 3 ∨ s.dev.state = 4 → b.length =
    32 →
    ∃ t, exec (.imageTrustKey k w) s = .next t ∧
      CommittedOne w.hdr ({ key := (Obj.imageTrustKeyK + k.val), ty := 15, data := b } : Entry) s t ∧ Replied w.hdr 2
        (leBytes 2 0) s t ∧ t.objB (Obj.imageTrustKeyK + k.val) = b ∧ ∀ j, j ≠ Obj.imageTrustKeyK + k.val → t.objB j = s.objB
        j ∧
      t = { s with od := t.od, beagle := t.beagle, config := t.config, pair := t.pair, odb := t.odb }) ∧
  (∀ (w : WReq) (k : BitVec 12) (b : Bytes) (s : State), Admitted w.hdr s → s.dev.state ≠ 8 → Whole w 15 (b) → SetGood w.hdr
    ({ key := (tenantKeyOf Obj.tenantKey k.toNat), ty := 15, data := b } : Entry) s → s.dev.state ≠ 0 → b.length = 32 →
    ∃ t, exec (.tenantKey k w) s = .next t ∧
      CommittedOne w.hdr ({ key := (tenantKeyOf Obj.tenantKey k.toNat), ty := 15, data := b } : Entry) s t ∧ Replied w.hdr 2
        (leBytes 2 0) s t ∧ t.objB (tenantKeyOf Obj.tenantKey k.toNat) = b ∧ ∀ j, j ≠ tenantKeyOf Obj.tenantKey k.toNat →
        t.objB j = s.objB j ∧
      t = { s with od := t.od, beagle := t.beagle, config := t.config, pair := t.pair, odb := t.odb }) ∧
  (∀ (w : WReq) (v : Nat) (s : State), Admitted w.hdr s → Whole w 7 (leBytes 2 v) → s.dev.state ≠ 8 → v ≤ 65535 → v <
    s.images.store.length →
    ∃ t, exec (.storeSel w) s = .next t ∧
      t.config = taken w.hdr Obj.storeSel s ∧ Replied w.hdr 2 (leBytes 2 0) s t ∧ t.obj Obj.storeSel = v ∧ Untouched
        [Obj.storeSel] s t ∧
      t = { s with config := t.config, pair := t.pair, od := t.od }) ∧
  (∀ (w : WReq) (v : Nat) (s : State), Admitted w.hdr s → Whole w 7 (leBytes 2 v) → s.dev.state ≠ 8 → v ≤ 65535 →
    s.images.store.length ≤ v →
    ∃ t, exec (.storeSel w) s = .next t ∧
      t.config = taken w.hdr Obj.storeSel s ∧ Replied w.hdr 2 (leBytes 2 0x1203) s t ∧
      t = { s with config := t.config, pair := t.pair }) ∧
  (∀ (w : WReq) (b : Bytes) (im : Option Image) (s : State), Admitted w.hdr s → Whole w 15 (b) → s.dev.state ≠ 8 →
    s.images.freeMib < ceilDiv b.length (2 ^ 20) →
    ∃ t, exec (.imageUpload w im) s = .next t ∧
      t.config = taken w.hdr Obj.imageUpload s ∧ Replied w.hdr 2 (leBytes 2 0x1203) s t ∧
      t = { s with config := t.config, pair := t.pair }) ∧
  (∀ (w : WReq) (b : Bytes) (s : State), Admitted w.hdr s → Whole w 15 (b) → s.dev.state ≠ 8 → ceilDiv b.length (2 ^ 20) ≤
    s.images.freeMib →
    ∃ t, exec (.imageUpload w none) s = .next t ∧
      t.config = taken w.hdr Obj.imageUpload s ∧ Replied w.hdr 2 (leBytes 2 0x1401) s t ∧
      t = { s with config := t.config, pair := t.pair }) ∧
  (∀ (w : WReq) (s : State),
    ∃ t, exec (.mcClockMhz w) s = .next t ∧
      t = dictAdmit 2 w.hdr (dictWrite Obj.mcClockMhz w {}) s) ∧
  (∀ (w : WReq) (b : Bytes) (e : Entry) (u : State) (s : State), Admitted w.hdr s → s.power.input ≠ 3 → s.config.owner = none
    ∨ s.config.owner = some w.hdr.client → w.offset = 0 → w.last = true → w.total = b.length → w.data = b → e =
    { key := Obj.mcClockMhz, ty := w.ty, data := b } → u = { s with config := taken w.hdr Obj.mcClockMhz s } → openCodeOf s
    w.hdr Obj.mcClockMhz w = 0 → valueCode u Obj.mcClockMhz b = 0 → setCode [e] {} u = none →
    ∃ t, exec (.mcClockMhz w) s = .next t ∧
      t = answerWrite w.hdr 0 (applySet w.hdr.client.toNat [e] {} u)) ∧
  (∀ (w : WReq) (s : State),
    ∃ t, exec (.ballastEnable w) s = .next t ∧
      t = dictAdmit 2 w.hdr (dictWrite Obj.ballastEnable w {}) s) ∧
  (∀ (w : WReq) (b : Bytes) (u : State) (s : State), Admitted w.hdr s → w.offset = 0 → w.last = true → w.total = b.length →
    w.data = b → u = { s with config := taken w.hdr Obj.ballastEnable s } → openCodeOf s w.hdr Obj.ballastEnable w = 0 →
    valueCode u Obj.ballastEnable b = 0 → actCode u Obj.ballastEnable (leNat b) b {} = 0 →
    ∃ t, exec (.ballastEnable w) s = .next t ∧
      t = answerWrite w.hdr 0 (applyObj (some w.hdr) w.hdr.client.toNat { key := Obj.ballastEnable, ty := w.ty, data := b }
        {} u)) ∧
  (∀ (w : WReq) (s : State),
    ∃ t, exec (.arbCommit w) s = .next t ∧
      t = dictAdmit 2 w.hdr (dictWrite Obj.arbCommit w {}) s) ∧
  (∀ (w : WReq) (b : Bytes) (u : State) (s : State), Admitted w.hdr s → w.offset = 0 → w.last = true → w.total = b.length →
    w.data = b → u = { s with config := taken w.hdr Obj.arbCommit s } → openCodeOf s w.hdr Obj.arbCommit w = 0 → valueCode u
    Obj.arbCommit b = 0 → actCode u Obj.arbCommit (leNat b) b {} = 0 →
    ∃ t, exec (.arbCommit w) s = .next t ∧
      t = answerWrite w.hdr 0 (commitArb (leNat b) u)) ∧
  (∀ (w : WReq) (s : State),
    ∃ t, exec (.marginTestRequest w) s = .next t ∧
      t = dictAdmit 2 w.hdr (dictWrite Obj.marginTestRequest w {}) s) ∧
  (∀ (w : WReq) (b : Bytes) (u : State) (s : State), Admitted w.hdr s → w.offset = 0 → w.last = true → w.total = b.length →
    w.data = b → u = { s with config := taken w.hdr Obj.marginTestRequest s } → openCodeOf s w.hdr Obj.marginTestRequest w =
    0 → valueCode u Obj.marginTestRequest b = 0 → actCode u Obj.marginTestRequest (leNat b) b {} = 0 →
    ∃ t, exec (.marginTestRequest w) s = .next t ∧
      t = answerWrite w.hdr 0 (if u.dev.started then { u with dev := { u.dev with marginRun := 3 } } else u)) ∧
  (∀ (w : WReq) (s : State),
    ∃ t, exec (.tileReset w) s = .next t ∧
      t = dictAdmit 2 w.hdr (dictWrite Obj.tileReset w {}) s) ∧
  (∀ (w : WReq) (b : Bytes) (u : State) (s : State), Admitted w.hdr s → w.offset = 0 → w.last = true → w.total = b.length →
    w.data = b → u = { s with config := taken w.hdr Obj.tileReset s } → openCodeOf s w.hdr Obj.tileReset w = 0 → valueCode u
    Obj.tileReset b = 0 → actCode u Obj.tileReset (leNat b) b {} = 0 →
    ∃ t, exec (.tileReset w) s = .next t ∧
      t = answerWrite w.hdr 0 (if (u.tile (leNat b)).state = 0 ∧ u.dev.started = true then (siteStrings (leNat b)).foldl (fun
        x n => x.setStr n { x.str n with stopped := true }) (u.setTile (leNat b) { state := 1, since := s.beat }) else u)) ∧
  (∀ (w : WReq) (s : State),
    ∃ t, exec (.harpRemovalRequest w) s = .next t ∧
      t = dictAdmit 2 w.hdr (dictWrite Obj.harpRemovalRequest w {}) s) ∧
  (∀ (w : WReq) (b : Bytes) (u : State) (s : State), Admitted w.hdr s → w.offset = 0 → w.last = true → w.total = b.length →
    w.data = b → u = { s with config := taken w.hdr Obj.harpRemovalRequest s } → openCodeOf s w.hdr Obj.harpRemovalRequest w
    = 0 → valueCode u Obj.harpRemovalRequest b = 0 → actCode u Obj.harpRemovalRequest (leNat b) b {} = 0 →
    ∃ t, exec (.harpRemovalRequest w) s = .next t ∧
      t = answerWrite w.hdr 0 (u.setHarp (leNat b) { u.harp (leNat b) with led := 1 })) ∧
  (∀ (w : WReq) (s : State),
    ∃ t, exec (.handoverManual w) s = .next t ∧
      t = dictAdmit 2 w.hdr (dictWrite Obj.handoverManual w {}) s) ∧
  (∀ (w : WReq) (b : Bytes) (u : State) (s : State), Admitted w.hdr s → w.offset = 0 → w.last = true → w.total = b.length →
    w.data = b → u = { s with config := taken w.hdr Obj.handoverManual s } → openCodeOf s w.hdr Obj.handoverManual w = 0 →
    valueCode u Obj.handoverManual b = 0 → actCode u Obj.handoverManual (leNat b) b {} = 0 →
    ∃ t, exec (.handoverManual w) s = .next t ∧
      t = answerWrite w.hdr 0 (requestSpare (leNat b) (u.setDomain (leNat b)
        { u.domain (leNat b) with refused := [], forced := false }))) ∧
  (∀ (w : WReq) (s : State),
    ∃ t, exec (.soundingStart w) s = .next t ∧
      t = dictAdmit 2 w.hdr (dictWrite Obj.soundingStart w {}) s) ∧
  (∀ (w : WReq) (b : Bytes) (u : State) (s : State), Admitted w.hdr s → w.offset = 0 → w.last = true → w.total = b.length →
    w.data = b → u = { s with config := taken w.hdr Obj.soundingStart s } → openCodeOf s w.hdr Obj.soundingStart w = 0 →
    valueCode u Obj.soundingStart b = 0 → actCode u Obj.soundingStart (leNat b) b {} = 0 →
    ∃ t, exec (.soundingStart w) s = .next t ∧
      t = answerWrite w.hdr 0 (enterString (1068 + (u.obj Obj.soundingRim - 25)) 3
        { u with sounding := { state := 1, string := 1068 + (u.obj Obj.soundingRim - 25), half := u.obj Obj.soundingHalfSpanGhz } })) ∧
  (∀ (w : WReq) (s : State),
    ∃ t, exec (.routeSetStaged w) s = .next t ∧
      t = dictAdmit 2 w.hdr (dictWrite Obj.routeSetStaged w {}) s) ∧
  (∀ (w : WReq) (b : Bytes) (u : State) (s : State), Admitted w.hdr s → w.offset = 0 → w.last = true → w.total = b.length →
    w.data = b → u = { s with config := taken w.hdr Obj.routeSetStaged s } → openCodeOf s w.hdr Obj.routeSetStaged w = 0 →
    valueCode u Obj.routeSetStaged b = 0 → actCode u Obj.routeSetStaged (leNat b) b {} = 0 →
    ∃ t, exec (.routeSetStaged w) s = .next t ∧
      t = answerWrite w.hdr 0 (installRoutes (parseRoutes b) u)) ∧
  (∀ (w : WReq) (s : State),
    ∃ t, exec (.routeActivateBeat w) s = .next t ∧
      t = dictAdmit 2 w.hdr (dictWrite Obj.routeActivateBeat w {}) s) ∧
  (∀ (w : WReq) (b : Bytes) (e : Entry) (u : State) (s : State), Admitted w.hdr s → s.power.input ≠ 3 → s.config.owner = none
    ∨ s.config.owner = some w.hdr.client → w.offset = 0 → w.last = true → w.total = b.length → w.data = b → e =
    { key := Obj.routeActivateBeat, ty := w.ty, data := b } → u = { s with config := taken w.hdr Obj.routeActivateBeat s } →
    openCodeOf s w.hdr Obj.routeActivateBeat w = 0 → valueCode u Obj.routeActivateBeat b = 0 → setCode [e] {} u = none →
    ∃ t, exec (.routeActivateBeat w) s = .next t ∧
      t = answerWrite w.hdr 0 (applySet w.hdr.client.toNat [e] {} u)) ∧
  (∀ (w : WReq) (s : State),
    ∃ t, exec (.fiApply w) s = .next t ∧
      t = dictAdmit 2 w.hdr (dictWrite Obj.fiApply w {}) s) ∧
  (∀ (w : WReq) (b : Bytes) (u : State) (s : State), Admitted w.hdr s → w.offset = 0 → w.last = true → w.total = b.length →
    w.data = b → u = { s with config := taken w.hdr Obj.fiApply s } → openCodeOf s w.hdr Obj.fiApply w = 0 → valueCode u
    Obj.fiApply b = 0 → actCode u Obj.fiApply (leNat b) b {} = 0 →
    ∃ t, exec (.fiApply w) s = .next t ∧
      t = answerWrite w.hdr 0 (fiApplyDo u)) ∧
  (∀ (w : WReq) (s : State),
    ∃ t, exec (.retrieverEnable w) s = .next t ∧
      t = dictAdmit 2 w.hdr (dictWrite Obj.retrieverEnable w {}) s) ∧
  (∀ (w : WReq) (b : Bytes) (e : Entry) (u : State) (s : State), Admitted w.hdr s → s.power.input ≠ 3 → s.config.owner = none
    ∨ s.config.owner = some w.hdr.client → w.offset = 0 → w.last = true → w.total = b.length → w.data = b → e =
    { key := Obj.retrieverEnable, ty := w.ty, data := b } → u = { s with config := taken w.hdr Obj.retrieverEnable s } →
    openCodeOf s w.hdr Obj.retrieverEnable w = 0 → valueCode u Obj.retrieverEnable b = 0 → setCode [e] {} u = none →
    ∃ t, exec (.retrieverEnable w) s = .next t ∧
      t = answerWrite w.hdr 0 (applySet w.hdr.client.toNat [e] {} u)) ∧
  (∀ (w : WReq) (slot : SlotId) (s : State),
    ∃ t, exec (.slotLoad slot w) s = .next t ∧
      t = dictAdmit 2 w.hdr (dictWrite (slotKey Obj.slotLoad slot) w {}) s) ∧
  (∀ (w : WReq) (slot : SlotId) (b : Bytes) (u : State) (s : State), Admitted w.hdr s → w.offset = 0 → w.last = true →
    w.total = b.length → w.data = b → u = { s with config := taken w.hdr (slotKey Obj.slotLoad slot) s } → openCodeOf s w.hdr
    (slotKey Obj.slotLoad slot) w = 0 → valueCode u (slotKey Obj.slotLoad slot) b = 0 → actCode u (slotKey Obj.slotLoad slot)
    (leNat b) b {} = 0 →
    ∃ t, exec (.slotLoad slot w) s = .next t ∧
      t = answerWrite w.hdr 0 (startLoad slot.val b u)) ∧
  (∀ (w : WReq) (slot : SlotId) (s : State),
    ∃ t, exec (.slotUnloadDrain slot w) s = .next t ∧
      t = dictAdmit 2 w.hdr (dictWrite (slotKey Obj.slotUnload slot) w {}) s) ∧
  (∀ (w : WReq) (slot : SlotId) (b : Bytes) (u : State) (s : State), Admitted w.hdr s → w.offset = 0 → w.last = true →
    w.total = b.length → w.data = b → u = { s with config := taken w.hdr (slotKey Obj.slotUnload slot) s } → openCodeOf s
    w.hdr (slotKey Obj.slotUnload slot) w = 0 → valueCode u (slotKey Obj.slotUnload slot) b = 0 → actCode u (slotKey
    Obj.slotUnload slot) (leNat b) b {} = 0 →
    ∃ t, exec (.slotUnloadDrain slot w) s = .next t ∧
      t = answerWrite w.hdr 0 (if leNat b = 1 then drainSlot slot.val u else forceSlot slot.val u)) ∧
  (∀ (w : WReq) (slot : SlotId) (s : State),
    ∃ t, exec (.slotUnloadForce slot w) s = .next t ∧
      t = dictAdmit 2 w.hdr (dictWrite (slotKey Obj.slotUnload slot) w {}) s) ∧
  (∀ (w : WReq) (slot : SlotId) (b : Bytes) (u : State) (s : State), Admitted w.hdr s → w.offset = 0 → w.last = true →
    w.total = b.length → w.data = b → u = { s with config := taken w.hdr (slotKey Obj.slotUnload slot) s } → openCodeOf s
    w.hdr (slotKey Obj.slotUnload slot) w = 0 → valueCode u (slotKey Obj.slotUnload slot) b = 0 → actCode u (slotKey
    Obj.slotUnload slot) (leNat b) b {} = 0 →
    ∃ t, exec (.slotUnloadForce slot w) s = .next t ∧
      t = answerWrite w.hdr 0 (if leNat b = 1 then drainSlot slot.val u else forceSlot slot.val u)) ∧
  (∀ (w : WReq) (im : Option Image) (s : State),
    ∃ t, exec (.imageUpload w im) s = .next t ∧
      t = dictAdmit 2 w.hdr (dictWrite Obj.imageUpload w { image := im }) s) ∧
  (∀ (w : WReq) (im : Option Image) (b : Bytes) (u : State) (s : State), Admitted w.hdr s → w.offset = 0 → w.last = true →
    w.total = b.length → w.data = b → u = { s with config := taken w.hdr Obj.imageUpload s } → openCodeOf s w.hdr
    Obj.imageUpload w = 0 → valueCode u Obj.imageUpload b = 0 → actCode u Obj.imageUpload (leNat b) b { image := im } = 0 →
    ∃ t, exec (.imageUpload w im) s = .next t ∧
      t = answerWrite w.hdr 0 (im.elim u (fun x => storeImage x u))) ∧
  (∀ (w : WReq) (k : Fin 4) (s : State),
    ∃ t, exec (.imageTrustKey k w) s = .next t ∧
      t = dictAdmit 2 w.hdr (dictWrite (Obj.imageTrustKeyK + k.val) w {}) s) ∧
  (∀ (w : WReq) (k : Fin 4) (b : Bytes) (e : Entry) (u : State) (s : State), Admitted w.hdr s → s.power.input ≠ 3 →
    s.config.owner = none ∨ s.config.owner = some w.hdr.client → w.offset = 0 → w.last = true → w.total = b.length → w.data =
    b → e = { key := (Obj.imageTrustKeyK + k.val), ty := w.ty, data := b } → u =
    { s with config := taken w.hdr (Obj.imageTrustKeyK + k.val) s } → openCodeOf s w.hdr (Obj.imageTrustKeyK + k.val) w = 0 →
    valueCode u (Obj.imageTrustKeyK + k.val) b = 0 → setCode [e] {} u = none →
    ∃ t, exec (.imageTrustKey k w) s = .next t ∧
      t = answerWrite w.hdr 0 (applySet w.hdr.client.toNat [e] {} u)) ∧
  (∀ (w : WReq) (k : BitVec 12) (s : State),
    ∃ t, exec (.tenantKey k w) s = .next t ∧
      t = dictAdmit 2 w.hdr (dictWrite (tenantKeyOf Obj.tenantKey k.toNat) w {}) s) ∧
  (∀ (w : WReq) (k : BitVec 12) (b : Bytes) (e : Entry) (u : State) (s : State), Admitted w.hdr s → s.power.input ≠ 3 →
    s.config.owner = none ∨ s.config.owner = some w.hdr.client → w.offset = 0 → w.last = true → w.total = b.length → w.data =
    b → e = { key := (tenantKeyOf Obj.tenantKey k.toNat), ty := w.ty, data := b } → u =
    { s with config := taken w.hdr (tenantKeyOf Obj.tenantKey k.toNat) s } → openCodeOf s w.hdr (tenantKeyOf Obj.tenantKey
    k.toNat) w = 0 → valueCode u (tenantKeyOf Obj.tenantKey k.toNat) b = 0 → setCode [e] {} u = none →
    ∃ t, exec (.tenantKey k w) s = .next t ∧
      t = answerWrite w.hdr 0 (applySet w.hdr.client.toNat [e] {} u)) ∧
  (∀ (w : WReq) (s : State),
    ∃ t, exec (.storeSel w) s = .next t ∧
      t = dictAdmit 2 w.hdr (dictWrite Obj.storeSel w {}) s) ∧
  (∀ (w : WReq) (b : Bytes) (u : State) (s : State), Admitted w.hdr s → w.offset = 0 → w.last = true → w.total = b.length →
    w.data = b → u = { s with config := taken w.hdr Obj.storeSel s } → openCodeOf s w.hdr Obj.storeSel w = 0 → valueCode u
    Obj.storeSel b = 0 → actCode u Obj.storeSel (leNat b) b {} = 0 →
    ∃ t, exec (.storeSel w) s = .next t ∧
      t = answerWrite w.hdr 0 (applyObj (some w.hdr) w.hdr.client.toNat { key := Obj.storeSel, ty := w.ty, data := b } {} u))

/-- beat_seconds_set sets the seconds of the count and anchors it; sync_reference_node is stored; isolation_clear and
  kat_request queue a test; test_mode_unlock needs the permit, drives the line and is counted; test_mode_lock ends
  injection and puts ballast on; sfi_apply and fi_stop_all start and stop injection; capture starts and stops and its
  buffer is emptied; log_sel selects; log_clear leaves the log with its own entry. Each is a WRITE of its object, with
  the checks of all writes; a value that they or the object's own rule refuse is answered with its code and changes
  nothing else. -/
def Obligations.TimeAndTestRequests : Prop :=
  (∀ (w : WReq) (v : Nat) (s : State), Admitted w.hdr s → Whole w 9 (leBytes 8 v) → v < 2 ^ 64 → s.dev.state = 3 →
    ∃ t, exec (.beatSecondsSet w) s = .next t ∧
      t.config = taken w.hdr Obj.beatSecondsSet s ∧ Replied w.hdr 2 (leBytes 2 0) s t ∧ t.beat = (1000000000 * v + s.beat %
        1000000000) % 2 ^ 64 ∧ t.time = { s.time with anchored := 1 } ∧
      t = { s with config := t.config, pair := t.pair, beat := t.beat, time := t.time }) ∧
  (∀ (w : WReq) (v : Nat) (s : State), Admitted w.hdr s → Whole w 9 (leBytes 8 v) → s.dev.state ≠ 8 → s.dev.state ≠ 3 →
    ∃ t, exec (.beatSecondsSet w) s = .next t ∧
      t.config = (noteRequest w.hdr s).config ∧ Replied w.hdr 2 (leBytes 2 0x1105) s t ∧
      t = { s with config := t.config, pair := t.pair }) ∧
  (∀ (w : WReq) (v : Nat) (s : State), Admitted w.hdr s → s.dev.state ≠ 8 → Whole w 7 (leBytes 2 v) → SetGood w.hdr
    ({ key := Obj.syncReferenceNode, ty := 7, data := leBytes 2 v } : Entry) s → s.dev.state ≠ 0 → v ≤ 0x0FFF → inEnsemble s
    = false → s.time.source ≠ 3 → s.ports = [] →
    ∃ t, exec (.syncReferenceNode w) s = .next t ∧
      CommittedOne w.hdr ({ key := Obj.syncReferenceNode, ty := 7, data := leBytes 2 v } : Entry) s t ∧ Replied w.hdr 2
        (leBytes 2 0) s t ∧ t.obj Obj.syncReferenceNode = v ∧ t.time =
        { s.time with valid := terase 3 s.time.valid, upstream := 0xFF, hops := 0xFF } ∧
      t = { s with od := t.od, beagle := t.beagle, config := t.config, pair := t.pair, time := t.time }) ∧
  (∀ (w : WReq) (v c : Nat) (s : State), Admitted w.hdr s → Whole w 7 (leBytes 2 v) → s.dev.state ≠ 8 → s.dev.state ≠ 0 →
    s.dev.state ≠ 2 → v ≤ 319 → unitFused s v = false → unitDisabled s v = true → s.kat.core = some c →
    ∃ t, exec (.isolationClear w) s = .next t ∧
      t.config = taken w.hdr Obj.isolationClear s ∧ t.kat =
        { s.kat with queue := s.kat.queue ++ [{ unit := v, prio := 2, answer := some w.hdr }] } ∧ t.pair = s.pair ∧
      t = { s with config := t.config, pair := t.pair, kat := t.kat }) ∧
  (∀ (w : WReq) (v : Nat) (s : State), Admitted w.hdr s → Whole w 7 (leBytes 2 v) → s.dev.state ≠ 8 → s.dev.state ≠ 0 →
    s.dev.state ≠ 2 → v ≤ 319 → unitFused s v = false → unitDisabled s v = false →
    ∃ t, exec (.isolationClear w) s = .next t ∧
      t.config = taken w.hdr Obj.isolationClear s ∧ Replied w.hdr 2 (leBytes 2 0x1205) s t ∧
      t = { s with config := t.config, pair := t.pair }) ∧
  (∀ (w : WReq) (v : Nat) (s : State), Admitted w.hdr s → Whole w 7 (leBytes 2 v) → s.dev.state ≠ 8 → s.dev.state ≠ 0 →
    s.dev.state ≠ 2 → v ≤ 319 → unitFused s v = true →
    ∃ t, exec (.isolationClear w) s = .next t ∧
      t.config = taken w.hdr Obj.isolationClear s ∧ Replied w.hdr 2 (leBytes 2 0x1204) s t ∧
      t = { s with config := t.config, pair := t.pair }) ∧
  (∀ (w : WReq) (v c : Nat) (s : State), Admitted w.hdr s → Whole w 7 (leBytes 2 v) → s.dev.state ≠ 8 → s.dev.state ≠ 0 →
    s.dev.state ≠ 2 → v ≤ 319 → unitFused s v = false → s.kat.core = some c →
    ∃ t, exec (.katRequest w) s = .next t ∧
      t.config = taken w.hdr Obj.katRequest s ∧ Replied w.hdr 2 (leBytes 2 0) s t ∧ t.kat =
        { s.kat with queue := s.kat.queue ++ [{ unit := v, prio := 3, answer := none }] } ∧
      t = { s with config := t.config, pair := t.pair, kat := t.kat }) ∧
  (∀ (w : WReq) (v : Nat) (s : State), Admitted w.hdr s → s.dev.state ≠ 8 → Whole w 1 (leBytes 1 v) → SetGood w.hdr
    ({ key := Obj.testModePermit, ty := 1, data := leBytes 1 v } : Entry) s → s.dev.state = 3 ∨ s.dev.state = 4 → v ≤ 1 → v =
    1 ∨ s.test.unlocked = false →
    ∃ t, exec (.testModePermit w) s = .next t ∧
      CommittedOne w.hdr ({ key := Obj.testModePermit, ty := 1, data := leBytes 1 v } : Entry) s t ∧ Replied w.hdr 2 (leBytes
        2 0) s t ∧ t.obj Obj.testModePermit = v ∧ t.test = s.test ∧
      t = { s with od := t.od, beagle := t.beagle, config := t.config, pair := t.pair }) ∧
  (∀ (w : WReq) (s : State), Admitted w.hdr s → s.dev.state ≠ 8 → Whole w 1 ([0]) → SetGood w.hdr
    ({ key := Obj.testModePermit, ty := 1, data := [0] } : Entry) s → s.dev.state = 3 ∨ s.dev.state = 4 → s.test.unlocked =
    true →
    ∃ t, exec (.testModePermit w) s = .next t ∧
      CommittedOne w.hdr ({ key := Obj.testModePermit, ty := 1, data := [0] } : Entry) s t ∧ Replied w.hdr 2 (leBytes 2 0) s
        t ∧ t.obj Obj.testModePermit = 0 ∧ t.test.unlocked = false ∧ t.obj Obj.ballastEnable = 1 ∧ t.pod =
        { s.pod with testLine := false } ∧ (∀ p, (t.port p).inject.mode = 0) ∧ (∀ n, (t.str n).inject.mode = 0) ∧
      t = { s with
          od := t.od, beagle := t.beagle, config := t.config, pair := t.pair, strings := t.strings, ports := t.ports
          pod := t.pod, test := t.test }) ∧
  (∀ (w : WReq) (s : State), Admitted w.hdr s → Whole w 6 ([1]) → s.dev.state ≠ 8 → s.dev.state ≠ 2 → s.obj
    Obj.testModePermit = 1 → s.test.unlocked = false →
    ∃ t, exec (.testModeUnlock w) s = .next t ∧
      t.config = taken w.hdr Obj.testModeUnlock s ∧ Replied w.hdr 2 (leBytes 2 0) s t ∧ t.test =
        { s.test with unlocked := true, since := s.beat } ∧ t.pod = { s.pod with testLine := true } ∧ t.tallies =
        { s.tallies with tested := true } ∧ t.obj Obj.testModeUnlocks = (s.obj Obj.testModeUnlocks + 1) % 2 ^ objBits
        Obj.testModeUnlocks ∧ Untouched (Obj.testModeUnlocks :: logCounters) s t ∧
      t = { s with
          config := t.config, pair := t.pair, od := t.od, pod := t.pod, tallies := t.tallies, test := t.test
          beagle := t.beagle, log := t.log }) ∧
  (∀ (w : WReq) (s : State), Admitted w.hdr s → Whole w 6 ([1]) → s.dev.state ≠ 8 → s.dev.state ≠ 2 → s.obj
    Obj.testModePermit = 1 → s.test.unlocked = true →
    ∃ t, exec (.testModeUnlock w) s = .next t ∧
      t.config = taken w.hdr Obj.testModeUnlock s ∧ Replied w.hdr 2 (leBytes 2 0) s t ∧
      t = { s with config := t.config, pair := t.pair }) ∧
  (∀ (w : WReq) (s : State), Admitted w.hdr s → Whole w 6 ([1]) → s.dev.state ≠ 8 → s.dev.state ≠ 2 → s.obj
    Obj.testModePermit ≠ 1 →
    ∃ t, exec (.testModeUnlock w) s = .next t ∧
      t.config = taken w.hdr Obj.testModeUnlock s ∧ Replied w.hdr 2 (leBytes 2 0x1701) s t ∧
      t = { s with config := t.config, pair := t.pair }) ∧
  (∀ (w : WReq) (s : State), Admitted w.hdr s → Whole w 6 ([1]) → s.dev.state ≠ 8 → s.test.unlocked = true →
    ∃ t, exec (.testModeLock w) s = .next t ∧
      t.config = taken w.hdr Obj.testModeLock s ∧ Replied w.hdr 2 (leBytes 2 0) s t ∧ t.test.unlocked = false ∧ t.obj
        Obj.ballastEnable = 1 ∧ t.pod = { s.pod with testLine := false } ∧ (∀ p, (t.port p).inject.mode = 0) ∧ (∀ n, (t.str
        n).inject.mode = 0) ∧
      t = { s with
          config := t.config, pair := t.pair, od := t.od, strings := t.strings, ports := t.ports, pod := t.pod
          test := t.test }) ∧
  (∀ (w : WReq) (s : State), Admitted w.hdr s → Whole w 6 ([1]) → s.dev.state ≠ 8 → s.test.unlocked = false →
    ∃ t, exec (.testModeLock w) s = .next t ∧
      t.config = taken w.hdr Obj.testModeLock s ∧ Replied w.hdr 2 (leBytes 2 0) s t ∧
      t = { s with config := t.config, pair := t.pair }) ∧
  (∀ (w : WReq) (s : State), Admitted w.hdr s → Whole w 6 ([1]) → s.dev.state ≠ 8 → s.test.unlocked = true → isBus (s.obj
    Obj.sfiString) = false ∨ s.obj Obj.sfiMode ≤ 2 → s.obj Obj.sfiMode = 0 ∨ (s.str (s.obj Obj.sfiString)).inject.mode ≠ 0 ∨
    injecting s ≤ 63 →
    ∃ t, exec (.sfiApply w) s = .next t ∧
      t.config = taken w.hdr Obj.sfiApply s ∧ Replied w.hdr 2 (leBytes 2 0) s t ∧ t.strings = (s.setStr (s.obj Obj.sfiString)
        { s.str (s.obj Obj.sfiString) with inject := { mode := s.obj Obj.sfiMode, rate := s.obj Obj.sfiRateLog2, pattern := s.obj Obj.sfiPattern, burst := s.obj Obj.sfiBurstLen, seed := BitVec.ofNat 32 (s.obj Obj.sfiSeed), classes := s.obj Obj.sfiClassMask, at_ := s.beat } }).strings
        ∧
      t = { s with config := t.config, pair := t.pair, strings := t.strings }) ∧
  (∀ (w : WReq) (s : State), Admitted w.hdr s → Whole w 6 ([1]) → s.dev.state ≠ 8 → s.test.unlocked = true → (isBus (s.obj
    Obj.sfiString) = true ∧ 3 ≤ s.obj Obj.sfiMode) ∨ (s.obj Obj.sfiMode ≠ 0 ∧ (s.str (s.obj Obj.sfiString)).inject.mode = 0 ∧
    64 ≤ injecting s) →
    ∃ t, exec (.sfiApply w) s = .next t ∧
      t.config = taken w.hdr Obj.sfiApply s ∧ Replied w.hdr 2 (leBytes 2 0x1205) s t ∧
      t = { s with config := t.config, pair := t.pair }) ∧
  (∀ (w : WReq) (s : State), Admitted w.hdr s → Whole w 6 ([1]) → s.dev.state ≠ 8 → s.test.unlocked = false →
    ∃ t, exec (.sfiApply w) s = .next t ∧
      t.config = taken w.hdr Obj.sfiApply s ∧ Replied w.hdr 2 (leBytes 2 0x1701) s t ∧
      t = { s with config := t.config, pair := t.pair }) ∧
  (∀ (w : WReq) (s : State), Admitted w.hdr s → Whole w 6 ([1]) → s.dev.state ≠ 8 →
    ∃ t, exec (.fiStopAll w) s = .next t ∧
      t.config = taken w.hdr Obj.fiStopAll s ∧ Replied w.hdr 2 (leBytes 2 0) s t ∧ (∀ p, t.port p =
        { s.port p with inject := { (s.port p).inject with mode := 0 } }) ∧ (∀ n, t.str n =
        { s.str n with inject := { (s.str n).inject with mode := 0 } }) ∧
      t = { s with config := t.config, pair := t.pair, strings := t.strings, ports := t.ports }) ∧
  (∀ (w : WReq) (s : State), Admitted w.hdr s → s.dev.state ≠ 8 → Whole w 1 ([1]) → SetGood w.hdr
    ({ key := Obj.beagleEnable, ty := 1, data := [1] } : Entry) s → s.dev.state ≠ 0 → s.beagle.state = 0 →
    ∃ t, exec (.beagleEnable w) s = .next t ∧
      CommittedOne w.hdr ({ key := Obj.beagleEnable, ty := 1, data := [1] } : Entry) s t ∧ Replied w.hdr 2 (leBytes 2 0) s t
        ∧ t.obj Obj.beagleEnable = 1 ∧ t.beagle =
        { s.beagle with state := 1, post := none, sizeMib := s.obj Obj.beagleBufferMib, buffer := s.beagle.buffer.drop (s.beagle.buffer.length - s.obj Obj.beagleBufferMib * 2 ^ 20 / 48) }
        ∧
      t = { s with od := t.od, beagle := t.beagle, config := t.config, pair := t.pair }) ∧
  (∀ (w : WReq) (s : State), Admitted w.hdr s → s.dev.state ≠ 8 → Whole w 1 ([0]) → SetGood w.hdr
    ({ key := Obj.beagleEnable, ty := 1, data := [0] } : Entry) s → s.dev.state ≠ 0 →
    ∃ t, exec (.beagleEnable w) s = .next t ∧
      CommittedOne w.hdr ({ key := Obj.beagleEnable, ty := 1, data := [0] } : Entry) s t ∧ Replied w.hdr 2 (leBytes 2 0) s t
        ∧ t.obj Obj.beagleEnable = 0 ∧ t.beagle.state = 0 ∧ t.beagle.post = none ∧
      t = { s with od := t.od, beagle := t.beagle, config := t.config, pair := t.pair }) ∧
  (∀ (w : WReq) (s : State), Admitted w.hdr s → Whole w 6 ([1]) → s.dev.state ≠ 8 → s.beagle.state ≠ 1 →
    ∃ t, exec (.beagleClear w) s = .next t ∧
      t.config = taken w.hdr Obj.beagleClear s ∧ Replied w.hdr 2 (leBytes 2 0) s t ∧ t.beagle =
        { s.beagle with buffer := [] } ∧
      t = { s with config := t.config, pair := t.pair, beagle := t.beagle }) ∧
  (∀ (w : WReq) (s : State), Admitted w.hdr s → Whole w 6 [1] → s.dev.state ≠ 8 → s.beagle.state = 1 →
    ∃ t, exec (.beagleClear w) s = .next t ∧
      t.config = (noteRequest w.hdr s).config ∧ Replied w.hdr 2 (leBytes 2 0x1105) s t ∧
      t = { s with config := t.config, pair := t.pair }) ∧
  (∀ (w : WReq) (v : Nat) (s : State), Admitted w.hdr s → Whole w 8 (leBytes 4 v) → s.dev.state ≠ 8 → v < 2 ^ 32 → logOldest
    s ≤ v ∧ v ≤ logNewest s →
    ∃ t, exec (.logSel w) s = .next t ∧
      t.config = taken w.hdr Obj.logSel s ∧ Replied w.hdr 2 (leBytes 2 0) s t ∧ t.obj Obj.logSel = v ∧ Untouched [Obj.logSel]
        s t ∧
      t = { s with config := t.config, pair := t.pair, od := t.od }) ∧
  (∀ (w : WReq) (v : Nat) (s : State), Admitted w.hdr s → Whole w 8 (leBytes 4 v) → s.dev.state ≠ 8 → v < logOldest s → v < 2
    ^ 32 →
    ∃ t, exec (.logSel w) s = .next t ∧
      t.config = taken w.hdr Obj.logSel s ∧ Replied w.hdr 2 (leBytes 2 0x1202) s t ∧
      t = { s with config := t.config, pair := t.pair }) ∧
  (∀ (w : WReq) (v : Nat) (s : State), Admitted w.hdr s → Whole w 8 (leBytes 4 v) → s.dev.state ≠ 8 → v < 2 ^ 32 → logOldest
    s ≤ logNewest s → logNewest s < v →
    ∃ t, exec (.logSel w) s = .next t ∧
      t.config = taken w.hdr Obj.logSel s ∧ Replied w.hdr 2 (leBytes 2 0x1203) s t ∧
      t = { s with config := t.config, pair := t.pair }) ∧
  (∀ (w : WReq) (s : State), Admitted w.hdr s → Whole w 6 ([1]) → s.dev.state = 3 ∨ s.dev.state = 4 →
    ∃ t, exec (.logClear w) s = .next t ∧
      t.config = taken w.hdr Obj.logClear s ∧ Replied w.hdr 2 (leBytes 2 0) s t ∧ t.log.entries.length = 1 ∧ (∀ e, e ∈
        t.log.entries → e.key = Obj.logClear ∧ e.sev = 0 ∧ e.seq = s.log.nextSeq % 2 ^ 32) ∧ t.log.nextSeq = s.log.nextSeq +
        1 ∧
      t = { s with config := t.config, pair := t.pair, od := t.od, beagle := t.beagle, log := t.log }) ∧
  (∀ (w : WReq) (s : State),
    ∃ t, exec (.isolationClear w) s = .next t ∧
      t = dictAdmit 2 w.hdr (dictWrite Obj.isolationClear w {}) s) ∧
  (∀ (w : WReq) (b : Bytes) (u : State) (s : State), Admitted w.hdr s → w.offset = 0 → w.last = true → w.total = b.length →
    w.data = b → u = { s with config := taken w.hdr Obj.isolationClear s } → openCodeOf s w.hdr Obj.isolationClear w = 0 →
    valueCode u Obj.isolationClear b = 0 → actCode u Obj.isolationClear (leNat b) b {} = 0 →
    ∃ t, exec (.isolationClear w) s = .next t ∧
      t = queueKat (leNat b) 2 (some w.hdr) u) ∧
  (∀ (w : WReq) (s : State),
    ∃ t, exec (.katRequest w) s = .next t ∧
      t = dictAdmit 2 w.hdr (dictWrite Obj.katRequest w {}) s) ∧
  (∀ (w : WReq) (b : Bytes) (u : State) (s : State), Admitted w.hdr s → w.offset = 0 → w.last = true → w.total = b.length →
    w.data = b → u = { s with config := taken w.hdr Obj.katRequest s } → openCodeOf s w.hdr Obj.katRequest w = 0 → valueCode
    u Obj.katRequest b = 0 → actCode u Obj.katRequest (leNat b) b {} = 0 →
    ∃ t, exec (.katRequest w) s = .next t ∧
      t = answerWrite w.hdr 0 (queueKat (leNat b) 3 none u)) ∧
  (∀ (w : WReq) (s : State),
    ∃ t, exec (.beatSecondsSet w) s = .next t ∧
      t = dictAdmit 2 w.hdr (dictWrite Obj.beatSecondsSet w {}) s) ∧
  (∀ (w : WReq) (b : Bytes) (u : State) (s : State), Admitted w.hdr s → w.offset = 0 → w.last = true → w.total = b.length →
    w.data = b → u = { s with config := taken w.hdr Obj.beatSecondsSet s } → openCodeOf s w.hdr Obj.beatSecondsSet w = 0 →
    valueCode u Obj.beatSecondsSet b = 0 → actCode u Obj.beatSecondsSet (leNat b) b {} = 0 →
    ∃ t, exec (.beatSecondsSet w) s = .next t ∧
      t = answerWrite w.hdr 0 (setSeconds (leNat b) u)) ∧
  (∀ (w : WReq) (s : State),
    ∃ t, exec (.syncReferenceNode w) s = .next t ∧
      t = dictAdmit 2 w.hdr (dictWrite Obj.syncReferenceNode w {}) s) ∧
  (∀ (w : WReq) (b : Bytes) (e : Entry) (u : State) (s : State), Admitted w.hdr s → s.power.input ≠ 3 → s.config.owner = none
    ∨ s.config.owner = some w.hdr.client → w.offset = 0 → w.last = true → w.total = b.length → w.data = b → e =
    { key := Obj.syncReferenceNode, ty := w.ty, data := b } → u = { s with config := taken w.hdr Obj.syncReferenceNode s } →
    openCodeOf s w.hdr Obj.syncReferenceNode w = 0 → valueCode u Obj.syncReferenceNode b = 0 → setCode [e] {} u = none →
    ∃ t, exec (.syncReferenceNode w) s = .next t ∧
      t = answerWrite w.hdr 0 (applySet w.hdr.client.toNat [e] {} u)) ∧
  (∀ (w : WReq) (s : State),
    ∃ t, exec (.testModePermit w) s = .next t ∧
      t = dictAdmit 2 w.hdr (dictWrite Obj.testModePermit w {}) s) ∧
  (∀ (w : WReq) (b : Bytes) (e : Entry) (u : State) (s : State), Admitted w.hdr s → s.power.input ≠ 3 → s.config.owner = none
    ∨ s.config.owner = some w.hdr.client → w.offset = 0 → w.last = true → w.total = b.length → w.data = b → e =
    { key := Obj.testModePermit, ty := w.ty, data := b } → u = { s with config := taken w.hdr Obj.testModePermit s } →
    openCodeOf s w.hdr Obj.testModePermit w = 0 → valueCode u Obj.testModePermit b = 0 → setCode [e] {} u = none →
    ∃ t, exec (.testModePermit w) s = .next t ∧
      t = answerWrite w.hdr 0 (applySet w.hdr.client.toNat [e] {} u)) ∧
  (∀ (w : WReq) (s : State),
    ∃ t, exec (.testModeUnlock w) s = .next t ∧
      t = dictAdmit 2 w.hdr (dictWrite Obj.testModeUnlock w {}) s) ∧
  (∀ (w : WReq) (b : Bytes) (u : State) (s : State), Admitted w.hdr s → w.offset = 0 → w.last = true → w.total = b.length →
    w.data = b → u = { s with config := taken w.hdr Obj.testModeUnlock s } → openCodeOf s w.hdr Obj.testModeUnlock w = 0 →
    valueCode u Obj.testModeUnlock b = 0 → actCode u Obj.testModeUnlock (leNat b) b {} = 0 →
    ∃ t, exec (.testModeUnlock w) s = .next t ∧
      t = answerWrite w.hdr 0 (unlockTest u)) ∧
  (∀ (w : WReq) (s : State),
    ∃ t, exec (.testModeLock w) s = .next t ∧
      t = dictAdmit 2 w.hdr (dictWrite Obj.testModeLock w {}) s) ∧
  (∀ (w : WReq) (b : Bytes) (u : State) (s : State), Admitted w.hdr s → w.offset = 0 → w.last = true → w.total = b.length →
    w.data = b → u = { s with config := taken w.hdr Obj.testModeLock s } → openCodeOf s w.hdr Obj.testModeLock w = 0 →
    valueCode u Obj.testModeLock b = 0 → actCode u Obj.testModeLock (leNat b) b {} = 0 →
    ∃ t, exec (.testModeLock w) s = .next t ∧
      t = answerWrite w.hdr 0 (lockTest u)) ∧
  (∀ (w : WReq) (s : State),
    ∃ t, exec (.sfiApply w) s = .next t ∧
      t = dictAdmit 2 w.hdr (dictWrite Obj.sfiApply w {}) s) ∧
  (∀ (w : WReq) (b : Bytes) (u : State) (s : State), Admitted w.hdr s → w.offset = 0 → w.last = true → w.total = b.length →
    w.data = b → u = { s with config := taken w.hdr Obj.sfiApply s } → openCodeOf s w.hdr Obj.sfiApply w = 0 → valueCode u
    Obj.sfiApply b = 0 → actCode u Obj.sfiApply (leNat b) b {} = 0 →
    ∃ t, exec (.sfiApply w) s = .next t ∧
      t = answerWrite w.hdr 0 (sfiApplyDo u)) ∧
  (∀ (w : WReq) (s : State),
    ∃ t, exec (.fiStopAll w) s = .next t ∧
      t = dictAdmit 2 w.hdr (dictWrite Obj.fiStopAll w {}) s) ∧
  (∀ (w : WReq) (b : Bytes) (u : State) (s : State), Admitted w.hdr s → w.offset = 0 → w.last = true → w.total = b.length →
    w.data = b → u = { s with config := taken w.hdr Obj.fiStopAll s } → openCodeOf s w.hdr Obj.fiStopAll w = 0 → valueCode u
    Obj.fiStopAll b = 0 → actCode u Obj.fiStopAll (leNat b) b {} = 0 →
    ∃ t, exec (.fiStopAll w) s = .next t ∧
      t = answerWrite w.hdr 0 (stopInjection u)) ∧
  (∀ (w : WReq) (s : State),
    ∃ t, exec (.beagleEnable w) s = .next t ∧
      t = dictAdmit 2 w.hdr (dictWrite Obj.beagleEnable w {}) s) ∧
  (∀ (w : WReq) (b : Bytes) (e : Entry) (u : State) (s : State), Admitted w.hdr s → s.power.input ≠ 3 → s.config.owner = none
    ∨ s.config.owner = some w.hdr.client → w.offset = 0 → w.last = true → w.total = b.length → w.data = b → e =
    { key := Obj.beagleEnable, ty := w.ty, data := b } → u = { s with config := taken w.hdr Obj.beagleEnable s } → openCodeOf
    s w.hdr Obj.beagleEnable w = 0 → valueCode u Obj.beagleEnable b = 0 → setCode [e] {} u = none →
    ∃ t, exec (.beagleEnable w) s = .next t ∧
      t = answerWrite w.hdr 0 (applySet w.hdr.client.toNat [e] {} u)) ∧
  (∀ (w : WReq) (s : State),
    ∃ t, exec (.beagleClear w) s = .next t ∧
      t = dictAdmit 2 w.hdr (dictWrite Obj.beagleClear w {}) s) ∧
  (∀ (w : WReq) (b : Bytes) (u : State) (s : State), Admitted w.hdr s → w.offset = 0 → w.last = true → w.total = b.length →
    w.data = b → u = { s with config := taken w.hdr Obj.beagleClear s } → openCodeOf s w.hdr Obj.beagleClear w = 0 →
    valueCode u Obj.beagleClear b = 0 → actCode u Obj.beagleClear (leNat b) b {} = 0 →
    ∃ t, exec (.beagleClear w) s = .next t ∧
      t = answerWrite w.hdr 0 (beagleEmpty u)) ∧
  (∀ (w : WReq) (s : State),
    ∃ t, exec (.logSel w) s = .next t ∧
      t = dictAdmit 2 w.hdr (dictWrite Obj.logSel w {}) s) ∧
  (∀ (w : WReq) (b : Bytes) (u : State) (s : State), Admitted w.hdr s → w.offset = 0 → w.last = true → w.total = b.length →
    w.data = b → u = { s with config := taken w.hdr Obj.logSel s } → openCodeOf s w.hdr Obj.logSel w = 0 → valueCode u
    Obj.logSel b = 0 → actCode u Obj.logSel (leNat b) b {} = 0 →
    ∃ t, exec (.logSel w) s = .next t ∧
      t = answerWrite w.hdr 0 (applyObj (some w.hdr) w.hdr.client.toNat { key := Obj.logSel, ty := w.ty, data := b } {} u)) ∧
  (∀ (w : WReq) (s : State),
    ∃ t, exec (.logClear w) s = .next t ∧
      t = dictAdmit 2 w.hdr (dictWrite Obj.logClear w {}) s) ∧
  (∀ (w : WReq) (b : Bytes) (u : State) (s : State), Admitted w.hdr s → w.offset = 0 → w.last = true → w.total = b.length →
    w.data = b → u = { s with config := taken w.hdr Obj.logClear s } → openCodeOf s w.hdr Obj.logClear w = 0 → valueCode u
    Obj.logClear b = 0 → actCode u Obj.logClear (leNat b) b {} = 0 →
    ∃ t, exec (.logClear w) s = .next t ∧
      t = answerWrite w.hdr 0 (logEmpty u))
end

