-- ==== Sys2Proof/Laws/Memory.lean ====
section
/-! SUPPORT. Memory's laws: every operation keeps the canonical form, a read after a write to the same place gives the value
written, and a write leaves every other place alone. -/

namespace Sys2Proof.Machine

theorem Memory.wf_nil : Memory.wf [] = true := rfl

/-- The canonical form, cell by cell. -/
theorem Memory.wf_cons {c : Host.Cell} {r : List Host.Cell} :
    Memory.wf (c :: r) = true ↔ c.2 ≠ 0 ∧ (∀ d ∈ r, c.1 < d.1) ∧ Memory.wf r = true := by
  simp only [Memory.wf, List.all_cons, List.pairwise_cons, Bool.and_eq_true, decide_eq_true_eq, bne_iff_ne]
  tauto

/-- A write adds no address but its own. -/
theorem Memory.write_mem {a : Nat} {v : Byte} {m : List Host.Cell} {c : Host.Cell} (h : c ∈ Memory.write a v m) :
    c ∈ m ∨ c.1 = a := by
  induction m with
  | nil =>
    unfold Memory.write at h
    split at h
    · cases h
    · right; rw [List.mem_singleton.mp h]
  | cons d r ih =>
    unfold Memory.write at h
    split at h
    · split at h
      · exact .inl h
      · rcases List.mem_cons.mp h with rfl | h
        · exact .inr rfl
        · exact .inl h
    · split at h
      · split at h
        · exact .inl (List.mem_cons_of_mem _ h)
        · rcases List.mem_cons.mp h with rfl | h
          · exact .inr rfl
          · exact .inl (List.mem_cons_of_mem _ h)
      · rcases List.mem_cons.mp h with rfl | h
        · exact .inl (List.mem_cons_self ..)
        · rcases ih h with h | h
          · exact .inl (List.mem_cons_of_mem _ h)
          · exact .inr h

/-- A write of one byte keeps the canonical form. -/
theorem Memory_write_wf (a : Nat) (v : Byte) (m : List Host.Cell) (h : Memory.wf m = true) :
    Memory.wf (Memory.write a v m) = true := by
  induction m with
  | nil =>
    unfold Memory.write
    split
    · rfl
    · next hv => exact Memory.wf_cons.mpr ⟨hv, by simp, rfl⟩
  | cons d r ih =>
    obtain ⟨h0, h1, h2⟩ := Memory.wf_cons.mp h
    unfold Memory.write
    split
    · next hlt =>
      split
      · exact h
      · next hv =>
        refine Memory.wf_cons.mpr ⟨hv, fun e he => ?_, h⟩
        rcases List.mem_cons.mp he with rfl | he
        · exact hlt
        · exact hlt.trans (h1 e he)
    · split
      · next heq =>
        split
        · exact h2
        · next hv => exact Memory.wf_cons.mpr ⟨hv, fun e he => heq ▸ h1 e he, h2⟩
      · next hn hne =>
        refine Memory.wf_cons.mpr ⟨h0, fun e he => ?_, ih h2⟩
        rcases Memory.write_mem he with he | he
        · exact h1 e he
        · omega

/-- A write of bytes keeps the canonical form. -/
theorem Memory_writeN_wf (a : Nat) (b : Bytes) (m : List Host.Cell) (h : Memory.wf m = true) :
    Memory.wf (Memory.writeN a b m) = true := by
  induction b generalizing a m with
  | nil => exact h
  | cons x r ih => exact ih _ _ (Memory_write_wf _ _ _ h)

/-- An address below every listed one reads zero. -/
theorem Memory.read_below {m : List Host.Cell} {a : Nat} (h : ∀ c ∈ m, a < c.1) : Memory.read m a = 0 := by
  induction m with
  | nil => rfl
  | cons c r ih =>
    have := h c (List.mem_cons_self ..)
    simp only [Memory.read, if_neg (Nat.ne_of_lt this)]
    exact ih (fun d hd => h d (List.mem_cons_of_mem _ hd))

/-- A read after a write to the same address gives the byte written. -/
theorem Memory.read_write_same (a : Nat) (v : Byte) (m : List Host.Cell) (h : Memory.wf m = true) :
    Memory.read (Memory.write a v m) a = v := by
  induction m with
  | nil =>
    unfold Memory.write
    split
    · next hv => rw [hv]; rfl
    · simp [Memory.read]
  | cons d r ih =>
    obtain ⟨-, h1, h2⟩ := Memory.wf_cons.mp h
    unfold Memory.write
    split
    · next hlt =>
      split
      · next hv =>
        rw [hv]
        refine Memory.read_below (fun c hc => ?_)
        rcases List.mem_cons.mp hc with rfl | hc
        · exact hlt
        · exact hlt.trans (h1 c hc)
      · simp [Memory.read]
    · split
      · next heq =>
        split
        · next hv => rw [hv]; exact Memory.read_below (fun c hc => heq ▸ h1 c hc)
        · simp [Memory.read]
      · next hne => simp only [Memory.read, if_neg hne]; exact ih h2

/-- A write leaves every other address alone. -/
theorem Memory.read_write_other {a b : Nat} (v : Byte) (m : List Host.Cell) (h : b ≠ a) :
    Memory.read (Memory.write a v m) b = Memory.read m b := by
  induction m with
  | nil => unfold Memory.write; split <;> simp [Memory.read, h]
  | cons d r ih =>
    unfold Memory.write
    split
    · split
      · rfl
      · simp [Memory.read, h]
    · split
      · next heq => split <;> simp [Memory.read, ← heq, h]
      · simp only [Memory.read]; rw [ih]

/-- A write of bytes leaves every address outside them alone. -/
theorem Memory.read_writeN_other {a b : Nat} (d : Bytes) (m : List Host.Cell) (h : b < a ∨ a + d.length ≤ b) :
    Memory.read (Memory.writeN a d m) b = Memory.read m b := by
  induction d generalizing a m with
  | nil => rfl
  | cons x r ih =>
    simp only [List.length_cons] at h
    unfold Memory.writeN
    rw [ih _ (by omega), Memory.read_write_other _ _ (by omega)]

/-- A read of bytes after a write of as many to the same place gives the bytes written. -/
theorem Memory.readN_writeN (a : Nat) (d : Bytes) (m : List Host.Cell) (h : Memory.wf m = true) :
    Memory.readN (Memory.writeN a d m) a d.length = d := by
  induction d generalizing a m with
  | nil => rfl
  | cons x r ih =>
    simp only [List.length_cons, Memory.readN, Memory.writeN]
    rw [ih _ _ (Memory_write_wf _ _ _ h), Memory.read_writeN_other _ _ (by omega), Memory.read_write_same _ _ _ h]

end Sys2Proof.Machine
end

