-- ==== Sys2Proof/Laws/Keeps.lean ====
section
/-! SUPPORT. What an operation may do to the state, said once: Keeps m s t. The files KeepsOps to KeepsWrites prove it of every
operation of the file of Machine they are named after, with m the fields the operation can reach; a command's own outcome then
follows by unfolding its meaning and citing these (f_keeps for a single use, f_keeps_k to go on from an earlier state). -/

set_option linter.all false

namespace Sys2Proof.Machine

/-- What a command may do to the state: `t` differs from `s` at most in the fields whose bit is set in `m` (bit k is the k-th
field of State); memory in canonical form stays so, a legal device state stays legal, and no free value is drawn again. -/
structure Keeps (m : Nat) (s t : State) : Prop where
  beat : m.testBit 0 = false → t.beat = s.beat
  od : m.testBit 1 = false → t.od = s.od
  odb : m.testBit 2 = false → t.odb = s.odb
  mem : m.testBit 3 = false → t.mem = s.mem
  cores : m.testBit 4 = false → t.cores = s.cores
  wins : m.testBit 5 = false → t.wins = s.wins
  dies : m.testBit 6 = false → t.dies = s.dies
  whips : m.testBit 7 = false → t.whips = s.whips
  sched : m.testBit 8 = false → t.sched = s.sched
  arbs : m.testBit 9 = false → t.arbs = s.arbs
  strings : m.testBit 10 = false → t.strings = s.strings
  tiles : m.testBit 11 = false → t.tiles = s.tiles
  bus : m.testBit 12 = false → t.bus = s.bus
  tags : m.testBit 13 = false → t.tags = s.tags
  harps : m.testBit 14 = false → t.harps = s.harps
  domains : m.testBit 15 = false → t.domains = s.domains
  sounding : m.testBit 16 = false → t.sounding = s.sounding
  dram : m.testBit 17 = false → t.dram = s.dram
  ports : m.testBit 18 = false → t.ports = s.ports
  fabric : m.testBit 19 = false → t.fabric = s.fabric
  rmem : m.testBit 20 = false → t.rmem = s.rmem
  retr : m.testBit 21 = false → t.retr = s.retr
  serve : m.testBit 22 = false → t.serve = s.serve
  images : m.testBit 23 = false → t.images = s.images
  time : m.testBit 24 = false → t.time = s.time
  config : m.testBit 25 = false → t.config = s.config
  dev : m.testBit 26 = false → t.dev = s.dev
  pair : m.testBit 27 = false → t.pair = s.pair
  ens : m.testBit 28 = false → t.ens = s.ens
  pod : m.testBit 29 = false → t.pod = s.pod
  tallies : m.testBit 30 = false → t.tallies = s.tallies
  power : m.testBit 31 = false → t.power = s.power
  therm : m.testBit 32 = false → t.therm = s.therm
  cvus : m.testBit 33 = false → t.cvus = s.cvus
  kat : m.testBit 34 = false → t.kat = s.kat
  test : m.testBit 35 = false → t.test = s.test
  beagle : m.testBit 36 = false → t.beagle = s.beagle
  log : m.testBit 37 = false → t.log = s.log
  bad : m.testBit 38 = false → t.bad = s.bad
  out : m.testBit 39 = false → t.out = s.out
  free : m.testBit 40 = false → t.free = s.free
  pending : m.testBit 41 = false → t.pending = s.pending
  memOk : Memory.wf s.mem = true → Memory.wf t.mem = true
  devOk : s.dev.state ≤ 8 → t.dev.state ≤ 8
  freeOk : s.free ≤ t.free

theorem Keeps.refl (m : Nat) (s : State) : Keeps m s s :=
  ⟨fun _ => rfl, fun _ => rfl, fun _ => rfl, fun _ => rfl, fun _ => rfl, fun _ => rfl, fun _ => rfl, fun _ => rfl, fun _ => rfl, fun _ => rfl, fun _ => rfl, fun _ => rfl, fun _ => rfl, fun _ => rfl, fun _ => rfl, fun _ => rfl, fun _ => rfl, fun _ => rfl, fun _ => rfl, fun _ => rfl, fun _ => rfl, fun _ => rfl, fun _ => rfl, fun _ => rfl, fun _ => rfl, fun _ => rfl, fun _ => rfl, fun _ => rfl, fun _ => rfl, fun _ => rfl, fun _ => rfl, fun _ => rfl, fun _ => rfl, fun _ => rfl, fun _ => rfl, fun _ => rfl, fun _ => rfl, fun _ => rfl, fun _ => rfl, fun _ => rfl, fun _ => rfl, fun _ => rfl,
   id, id, Nat.le_refl _⟩
theorem Keeps.tr {m : Nat} {s t u : State} (h : Keeps m s t) (k : Keeps m t u) : Keeps m s u :=
  ⟨fun b => (k.beat b).trans (h.beat b),
   fun b => (k.od b).trans (h.od b),
   fun b => (k.odb b).trans (h.odb b),
   fun b => (k.mem b).trans (h.mem b),
   fun b => (k.cores b).trans (h.cores b),
   fun b => (k.wins b).trans (h.wins b),
   fun b => (k.dies b).trans (h.dies b),
   fun b => (k.whips b).trans (h.whips b),
   fun b => (k.sched b).trans (h.sched b),
   fun b => (k.arbs b).trans (h.arbs b),
   fun b => (k.strings b).trans (h.strings b),
   fun b => (k.tiles b).trans (h.tiles b),
   fun b => (k.bus b).trans (h.bus b),
   fun b => (k.tags b).trans (h.tags b),
   fun b => (k.harps b).trans (h.harps b),
   fun b => (k.domains b).trans (h.domains b),
   fun b => (k.sounding b).trans (h.sounding b),
   fun b => (k.dram b).trans (h.dram b),
   fun b => (k.ports b).trans (h.ports b),
   fun b => (k.fabric b).trans (h.fabric b),
   fun b => (k.rmem b).trans (h.rmem b),
   fun b => (k.retr b).trans (h.retr b),
   fun b => (k.serve b).trans (h.serve b),
   fun b => (k.images b).trans (h.images b),
   fun b => (k.time b).trans (h.time b),
   fun b => (k.config b).trans (h.config b),
   fun b => (k.dev b).trans (h.dev b),
   fun b => (k.pair b).trans (h.pair b),
   fun b => (k.ens b).trans (h.ens b),
   fun b => (k.pod b).trans (h.pod b),
   fun b => (k.tallies b).trans (h.tallies b),
   fun b => (k.power b).trans (h.power b),
   fun b => (k.therm b).trans (h.therm b),
   fun b => (k.cvus b).trans (h.cvus b),
   fun b => (k.kat b).trans (h.kat b),
   fun b => (k.test b).trans (h.test b),
   fun b => (k.beagle b).trans (h.beagle b),
   fun b => (k.log b).trans (h.log b),
   fun b => (k.bad b).trans (h.bad b),
   fun b => (k.out b).trans (h.out b),
   fun b => (k.free b).trans (h.free b),
   fun b => (k.pending b).trans (h.pending b),
   fun b => k.memOk (h.memOk b), fun b => k.devOk (h.devOk b), Nat.le_trans h.freeOk k.freeOk⟩
theorem Keeps.bit {m n : Nat} (e : m ||| n = n) (i : Nat) (h : n.testBit i = false) : m.testBit i = false := by
  rw [← e, Nat.testBit_or] at h; simpa using And.left (by simpa using h)
theorem Keeps.mono {m n : Nat} {s t : State} (h : Keeps m s t) (e : m ||| n = n) : Keeps n s t :=
  ⟨fun b => h.beat (Keeps.bit e 0 b),
   fun b => h.od (Keeps.bit e 1 b),
   fun b => h.odb (Keeps.bit e 2 b),
   fun b => h.mem (Keeps.bit e 3 b),
   fun b => h.cores (Keeps.bit e 4 b),
   fun b => h.wins (Keeps.bit e 5 b),
   fun b => h.dies (Keeps.bit e 6 b),
   fun b => h.whips (Keeps.bit e 7 b),
   fun b => h.sched (Keeps.bit e 8 b),
   fun b => h.arbs (Keeps.bit e 9 b),
   fun b => h.strings (Keeps.bit e 10 b),
   fun b => h.tiles (Keeps.bit e 11 b),
   fun b => h.bus (Keeps.bit e 12 b),
   fun b => h.tags (Keeps.bit e 13 b),
   fun b => h.harps (Keeps.bit e 14 b),
   fun b => h.domains (Keeps.bit e 15 b),
   fun b => h.sounding (Keeps.bit e 16 b),
   fun b => h.dram (Keeps.bit e 17 b),
   fun b => h.ports (Keeps.bit e 18 b),
   fun b => h.fabric (Keeps.bit e 19 b),
   fun b => h.rmem (Keeps.bit e 20 b),
   fun b => h.retr (Keeps.bit e 21 b),
   fun b => h.serve (Keeps.bit e 22 b),
   fun b => h.images (Keeps.bit e 23 b),
   fun b => h.time (Keeps.bit e 24 b),
   fun b => h.config (Keeps.bit e 25 b),
   fun b => h.dev (Keeps.bit e 26 b),
   fun b => h.pair (Keeps.bit e 27 b),
   fun b => h.ens (Keeps.bit e 28 b),
   fun b => h.pod (Keeps.bit e 29 b),
   fun b => h.tallies (Keeps.bit e 30 b),
   fun b => h.power (Keeps.bit e 31 b),
   fun b => h.therm (Keeps.bit e 32 b),
   fun b => h.cvus (Keeps.bit e 33 b),
   fun b => h.kat (Keeps.bit e 34 b),
   fun b => h.test (Keeps.bit e 35 b),
   fun b => h.beagle (Keeps.bit e 36 b),
   fun b => h.log (Keeps.bit e 37 b),
   fun b => h.bad (Keeps.bit e 38 b),
   fun b => h.out (Keeps.bit e 39 b),
   fun b => h.free (Keeps.bit e 40 b),
   fun b => h.pending (Keeps.bit e 41 b),
   h.memOk, h.devOk, h.freeOk⟩
theorem Keeps.foldl {m : Nat} {α : Type} {l : List α} {g : State → α → State} {s t : State} (h : Keeps m s t)
    (hg : ∀ x a, Keeps m s x → Keeps m s (g x a)) : Keeps m s (l.foldl g t) := by
  induction l generalizing t with
  | nil => exact h
  | cons a r ih => exact ih (hg _ _ h)
theorem Keeps.foldlp {m : Nat} {α β : Type} {l : List α} {g : State × β → α → State × β} {s : State} {p : State × β}
    (h : Keeps m s p.1) (hg : ∀ x a, Keeps m s x.1 → Keeps m s (g x a).1) : Keeps m s (l.foldl g p).1 := by
  induction l generalizing p with
  | nil => exact h
  | cons a r ih => exact ih (hg _ _ h)
theorem Keeps.foldlq {m : Nat} {α β : Type} {l : List α} {g : β × State → α → β × State} {s : State} {p : β × State}
    (h : Keeps m s p.2) (hg : ∀ x a, Keeps m s x.2 → Keeps m s (g x a).2) : Keeps m s (l.foldl g p).2 := by
  induction l generalizing p with
  | nil => exact h
  | cons a r ih => exact ih (hg _ _ h)
/-- Keeps, for a function that may answer no state. -/
def KeepsO (m : Nat) (s : State) (o : Option State) : Prop := ∀ t, o = some t → Keeps m s t
theorem KeepsO.none (m : Nat) (s : State) : KeepsO m s none := by intro t h; cases h
theorem KeepsO.some {m : Nat} {s t : State} (h : Keeps m s t) : KeepsO m s (some t) := by intro t h; cases h; assumption
/-- Keeps, for a function that may answer a value with a state. -/
def KeepsQ {α : Type} (m : Nat) (s : State) (o : Option (α × State)) : Prop := ∀ x t, o = some (x, t) → Keeps m s t
theorem KeepsQ.none {α : Type} (m : Nat) (s : State) : KeepsQ (α := α) m s none := by intro x t h; cases h
theorem KeepsQ.some {α : Type} {m : Nat} {s t : State} {x : α} (h : Keeps m s t) : KeepsQ m s (some (x, t)) := by
  intro x t h; cases h; assumption
/-- Keeps, for a command's outcome. -/
def KeepsX (m : Nat) (s : State) (o : Out) : Prop := ∀ t, o = .next t → Keeps m s t
theorem KeepsX.next {m : Nat} {s t : State} (h : Keeps m s t) : KeepsX m s (.next t) := by intro t h; cases h; assumption
theorem KeepsX.fault (m : Nat) (s : State) (f : Fault) : KeepsX m s (.fault f) := by intro t h; cases h
theorem KeepsX.refused (m : Nat) (s : State) (f : Refusal) : KeepsX m s (.refused f) := by intro t h; cases h
/-- Keeps as an equation: what lies outside the reached fields is what it was. -/
theorem Keeps.eq {m : Nat} {s t : State} (h : Keeps m s t) : t = {
    beat := bif m.testBit 0 then t.beat else s.beat
    od := bif m.testBit 1 then t.od else s.od
    odb := bif m.testBit 2 then t.odb else s.odb
    mem := bif m.testBit 3 then t.mem else s.mem
    cores := bif m.testBit 4 then t.cores else s.cores
    wins := bif m.testBit 5 then t.wins else s.wins
    dies := bif m.testBit 6 then t.dies else s.dies
    whips := bif m.testBit 7 then t.whips else s.whips
    sched := bif m.testBit 8 then t.sched else s.sched
    arbs := bif m.testBit 9 then t.arbs else s.arbs
    strings := bif m.testBit 10 then t.strings else s.strings
    tiles := bif m.testBit 11 then t.tiles else s.tiles
    bus := bif m.testBit 12 then t.bus else s.bus
    tags := bif m.testBit 13 then t.tags else s.tags
    harps := bif m.testBit 14 then t.harps else s.harps
    domains := bif m.testBit 15 then t.domains else s.domains
    sounding := bif m.testBit 16 then t.sounding else s.sounding
    dram := bif m.testBit 17 then t.dram else s.dram
    ports := bif m.testBit 18 then t.ports else s.ports
    fabric := bif m.testBit 19 then t.fabric else s.fabric
    rmem := bif m.testBit 20 then t.rmem else s.rmem
    retr := bif m.testBit 21 then t.retr else s.retr
    serve := bif m.testBit 22 then t.serve else s.serve
    images := bif m.testBit 23 then t.images else s.images
    time := bif m.testBit 24 then t.time else s.time
    config := bif m.testBit 25 then t.config else s.config
    dev := bif m.testBit 26 then t.dev else s.dev
    pair := bif m.testBit 27 then t.pair else s.pair
    ens := bif m.testBit 28 then t.ens else s.ens
    pod := bif m.testBit 29 then t.pod else s.pod
    tallies := bif m.testBit 30 then t.tallies else s.tallies
    power := bif m.testBit 31 then t.power else s.power
    therm := bif m.testBit 32 then t.therm else s.therm
    cvus := bif m.testBit 33 then t.cvus else s.cvus
    kat := bif m.testBit 34 then t.kat else s.kat
    test := bif m.testBit 35 then t.test else s.test
    beagle := bif m.testBit 36 then t.beagle else s.beagle
    log := bif m.testBit 37 then t.log else s.log
    bad := bif m.testBit 38 then t.bad else s.bad
    out := bif m.testBit 39 then t.out else s.out
    free := bif m.testBit 40 then t.free else s.free
    pending := bif m.testBit 41 then t.pending else s.pending } := by
  cases t with
  | mk _ _ _ _ _ _ _ _ _ _ _ _ _ _ _ _ _ _ _ _ _ _ _ _ _ _ _ _ _ _ _ _ _ _ _ _ _ _ _ _ _ _ =>
    congr 1
    · cases e : m.testBit 0
      · exact h.beat e
      · rfl
    · cases e : m.testBit 1
      · exact h.od e
      · rfl
    · cases e : m.testBit 2
      · exact h.odb e
      · rfl
    · cases e : m.testBit 3
      · exact h.mem e
      · rfl
    · cases e : m.testBit 4
      · exact h.cores e
      · rfl
    · cases e : m.testBit 5
      · exact h.wins e
      · rfl
    · cases e : m.testBit 6
      · exact h.dies e
      · rfl
    · cases e : m.testBit 7
      · exact h.whips e
      · rfl
    · cases e : m.testBit 8
      · exact h.sched e
      · rfl
    · cases e : m.testBit 9
      · exact h.arbs e
      · rfl
    · cases e : m.testBit 10
      · exact h.strings e
      · rfl
    · cases e : m.testBit 11
      · exact h.tiles e
      · rfl
    · cases e : m.testBit 12
      · exact h.bus e
      · rfl
    · cases e : m.testBit 13
      · exact h.tags e
      · rfl
    · cases e : m.testBit 14
      · exact h.harps e
      · rfl
    · cases e : m.testBit 15
      · exact h.domains e
      · rfl
    · cases e : m.testBit 16
      · exact h.sounding e
      · rfl
    · cases e : m.testBit 17
      · exact h.dram e
      · rfl
    · cases e : m.testBit 18
      · exact h.ports e
      · rfl
    · cases e : m.testBit 19
      · exact h.fabric e
      · rfl
    · cases e : m.testBit 20
      · exact h.rmem e
      · rfl
    · cases e : m.testBit 21
      · exact h.retr e
      · rfl
    · cases e : m.testBit 22
      · exact h.serve e
      · rfl
    · cases e : m.testBit 23
      · exact h.images e
      · rfl
    · cases e : m.testBit 24
      · exact h.time e
      · rfl
    · cases e : m.testBit 25
      · exact h.config e
      · rfl
    · cases e : m.testBit 26
      · exact h.dev e
      · rfl
    · cases e : m.testBit 27
      · exact h.pair e
      · rfl
    · cases e : m.testBit 28
      · exact h.ens e
      · rfl
    · cases e : m.testBit 29
      · exact h.pod e
      · rfl
    · cases e : m.testBit 30
      · exact h.tallies e
      · rfl
    · cases e : m.testBit 31
      · exact h.power e
      · rfl
    · cases e : m.testBit 32
      · exact h.therm e
      · rfl
    · cases e : m.testBit 33
      · exact h.cvus e
      · rfl
    · cases e : m.testBit 34
      · exact h.kat e
      · rfl
    · cases e : m.testBit 35
      · exact h.test e
      · rfl
    · cases e : m.testBit 36
      · exact h.beagle e
      · rfl
    · cases e : m.testBit 37
      · exact h.log e
      · rfl
    · cases e : m.testBit 38
      · exact h.bad e
      · rfl
    · cases e : m.testBit 39
      · exact h.out e
      · rfl
    · cases e : m.testBit 40
      · exact h.free e
      · rfl
    · cases e : m.testBit 41
      · exact h.pending e
      · rfl

theorem Keeps.u2 {m : Nat} {s x : State} {v_od} (e : 2 ||| m = m)
    (h : Keeps m s x) : Keeps m s { x with od := v_od } :=
  h.tr (Keeps.mono (m := 2) ⟨fun _ => rfl, fun b => absurd b (by decide), fun _ => rfl, fun _ => rfl, fun _ => rfl, fun _ => rfl, fun _ => rfl, fun _ => rfl, fun _ => rfl, fun _ => rfl, fun _ => rfl, fun _ => rfl, fun _ => rfl, fun _ => rfl, fun _ => rfl, fun _ => rfl, fun _ => rfl, fun _ => rfl, fun _ => rfl, fun _ => rfl, fun _ => rfl, fun _ => rfl, fun _ => rfl, fun _ => rfl, fun _ => rfl, fun _ => rfl, fun _ => rfl, fun _ => rfl, fun _ => rfl, fun _ => rfl, fun _ => rfl, fun _ => rfl, fun _ => rfl, fun _ => rfl, fun _ => rfl, fun _ => rfl, fun _ => rfl, fun _ => rfl, fun _ => rfl, fun _ => rfl, fun _ => rfl, fun _ => rfl, id, id, Nat.le_refl _⟩ e)
theorem Keeps.u4 {m : Nat} {s x : State} {v_odb} (e : 4 ||| m = m)
    (h : Keeps m s x) : Keeps m s { x with odb := v_odb } :=
  h.tr (Keeps.mono (m := 4) ⟨fun _ => rfl, fun _ => rfl, fun b => absurd b (by decide), fun _ => rfl, fun _ => rfl, fun _ => rfl, fun _ => rfl, fun _ => rfl, fun _ => rfl, fun _ => rfl, fun _ => rfl, fun _ => rfl, fun _ => rfl, fun _ => rfl, fun _ => rfl, fun _ => rfl, fun _ => rfl, fun _ => rfl, fun _ => rfl, fun _ => rfl, fun _ => rfl, fun _ => rfl, fun _ => rfl, fun _ => rfl, fun _ => rfl, fun _ => rfl, fun _ => rfl, fun _ => rfl, fun _ => rfl, fun _ => rfl, fun _ => rfl, fun _ => rfl, fun _ => rfl, fun _ => rfl, fun _ => rfl, fun _ => rfl, fun _ => rfl, fun _ => rfl, fun _ => rfl, fun _ => rfl, fun _ => rfl, fun _ => rfl, id, id, Nat.le_refl _⟩ e)
theorem Keeps.u6 {m : Nat} {s x : State} {v_od v_odb} (e : 6 ||| m = m)
    (h : Keeps m s x) : Keeps m s { x with od := v_od, odb := v_odb } :=
  h.tr (Keeps.mono (m := 6) ⟨fun _ => rfl, fun b => absurd b (by decide), fun b => absurd b (by decide), fun _ => rfl, fun _ => rfl, fun _ => rfl, fun _ => rfl, fun _ => rfl, fun _ => rfl, fun _ => rfl, fun _ => rfl, fun _ => rfl, fun _ => rfl, fun _ => rfl, fun _ => rfl, fun _ => rfl, fun _ => rfl, fun _ => rfl, fun _ => rfl, fun _ => rfl, fun _ => rfl, fun _ => rfl, fun _ => rfl, fun _ => rfl, fun _ => rfl, fun _ => rfl, fun _ => rfl, fun _ => rfl, fun _ => rfl, fun _ => rfl, fun _ => rfl, fun _ => rfl, fun _ => rfl, fun _ => rfl, fun _ => rfl, fun _ => rfl, fun _ => rfl, fun _ => rfl, fun _ => rfl, fun _ => rfl, fun _ => rfl, fun _ => rfl, id, id, Nat.le_refl _⟩ e)
theorem Keeps.u8 {m : Nat} {s x : State} {v_mem} (e : 8 ||| m = m) (hm : Memory.wf x.mem = true → Memory.wf v_mem = true)
    (h : Keeps m s x) : Keeps m s { x with mem := v_mem } :=
  h.tr (Keeps.mono (m := 8) ⟨fun _ => rfl, fun _ => rfl, fun _ => rfl, fun b => absurd b (by decide), fun _ => rfl, fun _ => rfl, fun _ => rfl, fun _ => rfl, fun _ => rfl, fun _ => rfl, fun _ => rfl, fun _ => rfl, fun _ => rfl, fun _ => rfl, fun _ => rfl, fun _ => rfl, fun _ => rfl, fun _ => rfl, fun _ => rfl, fun _ => rfl, fun _ => rfl, fun _ => rfl, fun _ => rfl, fun _ => rfl, fun _ => rfl, fun _ => rfl, fun _ => rfl, fun _ => rfl, fun _ => rfl, fun _ => rfl, fun _ => rfl, fun _ => rfl, fun _ => rfl, fun _ => rfl, fun _ => rfl, fun _ => rfl, fun _ => rfl, fun _ => rfl, fun _ => rfl, fun _ => rfl, fun _ => rfl, fun _ => rfl, hm, id, Nat.le_refl _⟩ e)
theorem Keeps.u16 {m : Nat} {s x : State} {v_cores} (e : 16 ||| m = m)
    (h : Keeps m s x) : Keeps m s { x with cores := v_cores } :=
  h.tr (Keeps.mono (m := 16) ⟨fun _ => rfl, fun _ => rfl, fun _ => rfl, fun _ => rfl, fun b => absurd b (by decide), fun _ => rfl, fun _ => rfl, fun _ => rfl, fun _ => rfl, fun _ => rfl, fun _ => rfl, fun _ => rfl, fun _ => rfl, fun _ => rfl, fun _ => rfl, fun _ => rfl, fun _ => rfl, fun _ => rfl, fun _ => rfl, fun _ => rfl, fun _ => rfl, fun _ => rfl, fun _ => rfl, fun _ => rfl, fun _ => rfl, fun _ => rfl, fun _ => rfl, fun _ => rfl, fun _ => rfl, fun _ => rfl, fun _ => rfl, fun _ => rfl, fun _ => rfl, fun _ => rfl, fun _ => rfl, fun _ => rfl, fun _ => rfl, fun _ => rfl, fun _ => rfl, fun _ => rfl, fun _ => rfl, fun _ => rfl, id, id, Nat.le_refl _⟩ e)
theorem Keeps.u32 {m : Nat} {s x : State} {v_wins} (e : 32 ||| m = m)
    (h : Keeps m s x) : Keeps m s { x with wins := v_wins } :=
  h.tr (Keeps.mono (m := 32) ⟨fun _ => rfl, fun _ => rfl, fun _ => rfl, fun _ => rfl, fun _ => rfl, fun b => absurd b (by decide), fun _ => rfl, fun _ => rfl, fun _ => rfl, fun _ => rfl, fun _ => rfl, fun _ => rfl, fun _ => rfl, fun _ => rfl, fun _ => rfl, fun _ => rfl, fun _ => rfl, fun _ => rfl, fun _ => rfl, fun _ => rfl, fun _ => rfl, fun _ => rfl, fun _ => rfl, fun _ => rfl, fun _ => rfl, fun _ => rfl, fun _ => rfl, fun _ => rfl, fun _ => rfl, fun _ => rfl, fun _ => rfl, fun _ => rfl, fun _ => rfl, fun _ => rfl, fun _ => rfl, fun _ => rfl, fun _ => rfl, fun _ => rfl, fun _ => rfl, fun _ => rfl, fun _ => rfl, fun _ => rfl, id, id, Nat.le_refl _⟩ e)
theorem Keeps.u64 {m : Nat} {s x : State} {v_dies} (e : 64 ||| m = m)
    (h : Keeps m s x) : Keeps m s { x with dies := v_dies } :=
  h.tr (Keeps.mono (m := 64) ⟨fun _ => rfl, fun _ => rfl, fun _ => rfl, fun _ => rfl, fun _ => rfl, fun _ => rfl, fun b => absurd b (by decide), fun _ => rfl, fun _ => rfl, fun _ => rfl, fun _ => rfl, fun _ => rfl, fun _ => rfl, fun _ => rfl, fun _ => rfl, fun _ => rfl, fun _ => rfl, fun _ => rfl, fun _ => rfl, fun _ => rfl, fun _ => rfl, fun _ => rfl, fun _ => rfl, fun _ => rfl, fun _ => rfl, fun _ => rfl, fun _ => rfl, fun _ => rfl, fun _ => rfl, fun _ => rfl, fun _ => rfl, fun _ => rfl, fun _ => rfl, fun _ => rfl, fun _ => rfl, fun _ => rfl, fun _ => rfl, fun _ => rfl, fun _ => rfl, fun _ => rfl, fun _ => rfl, fun _ => rfl, id, id, Nat.le_refl _⟩ e)
theorem Keeps.u128 {m : Nat} {s x : State} {v_whips} (e : 128 ||| m = m)
    (h : Keeps m s x) : Keeps m s { x with whips := v_whips } :=
  h.tr (Keeps.mono (m := 128) ⟨fun _ => rfl, fun _ => rfl, fun _ => rfl, fun _ => rfl, fun _ => rfl, fun _ => rfl, fun _ => rfl, fun b => absurd b (by decide), fun _ => rfl, fun _ => rfl, fun _ => rfl, fun _ => rfl, fun _ => rfl, fun _ => rfl, fun _ => rfl, fun _ => rfl, fun _ => rfl, fun _ => rfl, fun _ => rfl, fun _ => rfl, fun _ => rfl, fun _ => rfl, fun _ => rfl, fun _ => rfl, fun _ => rfl, fun _ => rfl, fun _ => rfl, fun _ => rfl, fun _ => rfl, fun _ => rfl, fun _ => rfl, fun _ => rfl, fun _ => rfl, fun _ => rfl, fun _ => rfl, fun _ => rfl, fun _ => rfl, fun _ => rfl, fun _ => rfl, fun _ => rfl, fun _ => rfl, fun _ => rfl, id, id, Nat.le_refl _⟩ e)
theorem Keeps.u256 {m : Nat} {s x : State} {v_sched} (e : 256 ||| m = m)
    (h : Keeps m s x) : Keeps m s { x with sched := v_sched } :=
  h.tr (Keeps.mono (m := 256) ⟨fun _ => rfl, fun _ => rfl, fun _ => rfl, fun _ => rfl, fun _ => rfl, fun _ => rfl, fun _ => rfl, fun _ => rfl, fun b => absurd b (by decide), fun _ => rfl, fun _ => rfl, fun _ => rfl, fun _ => rfl, fun _ => rfl, fun _ => rfl, fun _ => rfl, fun _ => rfl, fun _ => rfl, fun _ => rfl, fun _ => rfl, fun _ => rfl, fun _ => rfl, fun _ => rfl, fun _ => rfl, fun _ => rfl, fun _ => rfl, fun _ => rfl, fun _ => rfl, fun _ => rfl, fun _ => rfl, fun _ => rfl, fun _ => rfl, fun _ => rfl, fun _ => rfl, fun _ => rfl, fun _ => rfl, fun _ => rfl, fun _ => rfl, fun _ => rfl, fun _ => rfl, fun _ => rfl, fun _ => rfl, id, id, Nat.le_refl _⟩ e)
theorem Keeps.u288 {m : Nat} {s x : State} {v_wins v_sched} (e : 288 ||| m = m)
    (h : Keeps m s x) : Keeps m s { x with wins := v_wins, sched := v_sched } :=
  h.tr (Keeps.mono (m := 288) ⟨fun _ => rfl, fun _ => rfl, fun _ => rfl, fun _ => rfl, fun _ => rfl, fun b => absurd b (by decide), fun _ => rfl, fun _ => rfl, fun b => absurd b (by decide), fun _ => rfl, fun _ => rfl, fun _ => rfl, fun _ => rfl, fun _ => rfl, fun _ => rfl, fun _ => rfl, fun _ => rfl, fun _ => rfl, fun _ => rfl, fun _ => rfl, fun _ => rfl, fun _ => rfl, fun _ => rfl, fun _ => rfl, fun _ => rfl, fun _ => rfl, fun _ => rfl, fun _ => rfl, fun _ => rfl, fun _ => rfl, fun _ => rfl, fun _ => rfl, fun _ => rfl, fun _ => rfl, fun _ => rfl, fun _ => rfl, fun _ => rfl, fun _ => rfl, fun _ => rfl, fun _ => rfl, fun _ => rfl, fun _ => rfl, id, id, Nat.le_refl _⟩ e)
theorem Keeps.u384 {m : Nat} {s x : State} {v_whips v_sched} (e : 384 ||| m = m)
    (h : Keeps m s x) : Keeps m s { x with whips := v_whips, sched := v_sched } :=
  h.tr (Keeps.mono (m := 384) ⟨fun _ => rfl, fun _ => rfl, fun _ => rfl, fun _ => rfl, fun _ => rfl, fun _ => rfl, fun _ => rfl, fun b => absurd b (by decide), fun b => absurd b (by decide), fun _ => rfl, fun _ => rfl, fun _ => rfl, fun _ => rfl, fun _ => rfl, fun _ => rfl, fun _ => rfl, fun _ => rfl, fun _ => rfl, fun _ => rfl, fun _ => rfl, fun _ => rfl, fun _ => rfl, fun _ => rfl, fun _ => rfl, fun _ => rfl, fun _ => rfl, fun _ => rfl, fun _ => rfl, fun _ => rfl, fun _ => rfl, fun _ => rfl, fun _ => rfl, fun _ => rfl, fun _ => rfl, fun _ => rfl, fun _ => rfl, fun _ => rfl, fun _ => rfl, fun _ => rfl, fun _ => rfl, fun _ => rfl, fun _ => rfl, id, id, Nat.le_refl _⟩ e)
theorem Keeps.u512 {m : Nat} {s x : State} {v_arbs} (e : 512 ||| m = m)
    (h : Keeps m s x) : Keeps m s { x with arbs := v_arbs } :=
  h.tr (Keeps.mono (m := 512) ⟨fun _ => rfl, fun _ => rfl, fun _ => rfl, fun _ => rfl, fun _ => rfl, fun _ => rfl, fun _ => rfl, fun _ => rfl, fun _ => rfl, fun b => absurd b (by decide), fun _ => rfl, fun _ => rfl, fun _ => rfl, fun _ => rfl, fun _ => rfl, fun _ => rfl, fun _ => rfl, fun _ => rfl, fun _ => rfl, fun _ => rfl, fun _ => rfl, fun _ => rfl, fun _ => rfl, fun _ => rfl, fun _ => rfl, fun _ => rfl, fun _ => rfl, fun _ => rfl, fun _ => rfl, fun _ => rfl, fun _ => rfl, fun _ => rfl, fun _ => rfl, fun _ => rfl, fun _ => rfl, fun _ => rfl, fun _ => rfl, fun _ => rfl, fun _ => rfl, fun _ => rfl, fun _ => rfl, fun _ => rfl, id, id, Nat.le_refl _⟩ e)
theorem Keeps.u1024 {m : Nat} {s x : State} {v_strings} (e : 1024 ||| m = m)
    (h : Keeps m s x) : Keeps m s { x with strings := v_strings } :=
  h.tr (Keeps.mono (m := 1024) ⟨fun _ => rfl, fun _ => rfl, fun _ => rfl, fun _ => rfl, fun _ => rfl, fun _ => rfl, fun _ => rfl, fun _ => rfl, fun _ => rfl, fun _ => rfl, fun b => absurd b (by decide), fun _ => rfl, fun _ => rfl, fun _ => rfl, fun _ => rfl, fun _ => rfl, fun _ => rfl, fun _ => rfl, fun _ => rfl, fun _ => rfl, fun _ => rfl, fun _ => rfl, fun _ => rfl, fun _ => rfl, fun _ => rfl, fun _ => rfl, fun _ => rfl, fun _ => rfl, fun _ => rfl, fun _ => rfl, fun _ => rfl, fun _ => rfl, fun _ => rfl, fun _ => rfl, fun _ => rfl, fun _ => rfl, fun _ => rfl, fun _ => rfl, fun _ => rfl, fun _ => rfl, fun _ => rfl, fun _ => rfl, id, id, Nat.le_refl _⟩ e)
theorem Keeps.u2048 {m : Nat} {s x : State} {v_tiles} (e : 2048 ||| m = m)
    (h : Keeps m s x) : Keeps m s { x with tiles := v_tiles } :=
  h.tr (Keeps.mono (m := 2048) ⟨fun _ => rfl, fun _ => rfl, fun _ => rfl, fun _ => rfl, fun _ => rfl, fun _ => rfl, fun _ => rfl, fun _ => rfl, fun _ => rfl, fun _ => rfl, fun _ => rfl, fun b => absurd b (by decide), fun _ => rfl, fun _ => rfl, fun _ => rfl, fun _ => rfl, fun _ => rfl, fun _ => rfl, fun _ => rfl, fun _ => rfl, fun _ => rfl, fun _ => rfl, fun _ => rfl, fun _ => rfl, fun _ => rfl, fun _ => rfl, fun _ => rfl, fun _ => rfl, fun _ => rfl, fun _ => rfl, fun _ => rfl, fun _ => rfl, fun _ => rfl, fun _ => rfl, fun _ => rfl, fun _ => rfl, fun _ => rfl, fun _ => rfl, fun _ => rfl, fun _ => rfl, fun _ => rfl, fun _ => rfl, id, id, Nat.le_refl _⟩ e)
theorem Keeps.u4096 {m : Nat} {s x : State} {v_bus} (e : 4096 ||| m = m)
    (h : Keeps m s x) : Keeps m s { x with bus := v_bus } :=
  h.tr (Keeps.mono (m := 4096) ⟨fun _ => rfl, fun _ => rfl, fun _ => rfl, fun _ => rfl, fun _ => rfl, fun _ => rfl, fun _ => rfl, fun _ => rfl, fun _ => rfl, fun _ => rfl, fun _ => rfl, fun _ => rfl, fun b => absurd b (by decide), fun _ => rfl, fun _ => rfl, fun _ => rfl, fun _ => rfl, fun _ => rfl, fun _ => rfl, fun _ => rfl, fun _ => rfl, fun _ => rfl, fun _ => rfl, fun _ => rfl, fun _ => rfl, fun _ => rfl, fun _ => rfl, fun _ => rfl, fun _ => rfl, fun _ => rfl, fun _ => rfl, fun _ => rfl, fun _ => rfl, fun _ => rfl, fun _ => rfl, fun _ => rfl, fun _ => rfl, fun _ => rfl, fun _ => rfl, fun _ => rfl, fun _ => rfl, fun _ => rfl, id, id, Nat.le_refl _⟩ e)
theorem Keeps.u8192 {m : Nat} {s x : State} {v_tags} (e : 8192 ||| m = m)
    (h : Keeps m s x) : Keeps m s { x with tags := v_tags } :=
  h.tr (Keeps.mono (m := 8192) ⟨fun _ => rfl, fun _ => rfl, fun _ => rfl, fun _ => rfl, fun _ => rfl, fun _ => rfl, fun _ => rfl, fun _ => rfl, fun _ => rfl, fun _ => rfl, fun _ => rfl, fun _ => rfl, fun _ => rfl, fun b => absurd b (by decide), fun _ => rfl, fun _ => rfl, fun _ => rfl, fun _ => rfl, fun _ => rfl, fun _ => rfl, fun _ => rfl, fun _ => rfl, fun _ => rfl, fun _ => rfl, fun _ => rfl, fun _ => rfl, fun _ => rfl, fun _ => rfl, fun _ => rfl, fun _ => rfl, fun _ => rfl, fun _ => rfl, fun _ => rfl, fun _ => rfl, fun _ => rfl, fun _ => rfl, fun _ => rfl, fun _ => rfl, fun _ => rfl, fun _ => rfl, fun _ => rfl, fun _ => rfl, id, id, Nat.le_refl _⟩ e)
theorem Keeps.u8256 {m : Nat} {s x : State} {v_dies v_tags} (e : 8256 ||| m = m)
    (h : Keeps m s x) : Keeps m s { x with dies := v_dies, tags := v_tags } :=
  h.tr (Keeps.mono (m := 8256) ⟨fun _ => rfl, fun _ => rfl, fun _ => rfl, fun _ => rfl, fun _ => rfl, fun _ => rfl, fun b => absurd b (by decide), fun _ => rfl, fun _ => rfl, fun _ => rfl, fun _ => rfl, fun _ => rfl, fun _ => rfl, fun b => absurd b (by decide), fun _ => rfl, fun _ => rfl, fun _ => rfl, fun _ => rfl, fun _ => rfl, fun _ => rfl, fun _ => rfl, fun _ => rfl, fun _ => rfl, fun _ => rfl, fun _ => rfl, fun _ => rfl, fun _ => rfl, fun _ => rfl, fun _ => rfl, fun _ => rfl, fun _ => rfl, fun _ => rfl, fun _ => rfl, fun _ => rfl, fun _ => rfl, fun _ => rfl, fun _ => rfl, fun _ => rfl, fun _ => rfl, fun _ => rfl, fun _ => rfl, fun _ => rfl, id, id, Nat.le_refl _⟩ e)
theorem Keeps.u16384 {m : Nat} {s x : State} {v_harps} (e : 16384 ||| m = m)
    (h : Keeps m s x) : Keeps m s { x with harps := v_harps } :=
  h.tr (Keeps.mono (m := 16384) ⟨fun _ => rfl, fun _ => rfl, fun _ => rfl, fun _ => rfl, fun _ => rfl, fun _ => rfl, fun _ => rfl, fun _ => rfl, fun _ => rfl, fun _ => rfl, fun _ => rfl, fun _ => rfl, fun _ => rfl, fun _ => rfl, fun b => absurd b (by decide), fun _ => rfl, fun _ => rfl, fun _ => rfl, fun _ => rfl, fun _ => rfl, fun _ => rfl, fun _ => rfl, fun _ => rfl, fun _ => rfl, fun _ => rfl, fun _ => rfl, fun _ => rfl, fun _ => rfl, fun _ => rfl, fun _ => rfl, fun _ => rfl, fun _ => rfl, fun _ => rfl, fun _ => rfl, fun _ => rfl, fun _ => rfl, fun _ => rfl, fun _ => rfl, fun _ => rfl, fun _ => rfl, fun _ => rfl, fun _ => rfl, id, id, Nat.le_refl _⟩ e)
theorem Keeps.u32768 {m : Nat} {s x : State} {v_domains} (e : 32768 ||| m = m)
    (h : Keeps m s x) : Keeps m s { x with domains := v_domains } :=
  h.tr (Keeps.mono (m := 32768) ⟨fun _ => rfl, fun _ => rfl, fun _ => rfl, fun _ => rfl, fun _ => rfl, fun _ => rfl, fun _ => rfl, fun _ => rfl, fun _ => rfl, fun _ => rfl, fun _ => rfl, fun _ => rfl, fun _ => rfl, fun _ => rfl, fun _ => rfl, fun b => absurd b (by decide), fun _ => rfl, fun _ => rfl, fun _ => rfl, fun _ => rfl, fun _ => rfl, fun _ => rfl, fun _ => rfl, fun _ => rfl, fun _ => rfl, fun _ => rfl, fun _ => rfl, fun _ => rfl, fun _ => rfl, fun _ => rfl, fun _ => rfl, fun _ => rfl, fun _ => rfl, fun _ => rfl, fun _ => rfl, fun _ => rfl, fun _ => rfl, fun _ => rfl, fun _ => rfl, fun _ => rfl, fun _ => rfl, fun _ => rfl, id, id, Nat.le_refl _⟩ e)
theorem Keeps.u65536 {m : Nat} {s x : State} {v_sounding} (e : 65536 ||| m = m)
    (h : Keeps m s x) : Keeps m s { x with sounding := v_sounding } :=
  h.tr (Keeps.mono (m := 65536) ⟨fun _ => rfl, fun _ => rfl, fun _ => rfl, fun _ => rfl, fun _ => rfl, fun _ => rfl, fun _ => rfl, fun _ => rfl, fun _ => rfl, fun _ => rfl, fun _ => rfl, fun _ => rfl, fun _ => rfl, fun _ => rfl, fun _ => rfl, fun _ => rfl, fun b => absurd b (by decide), fun _ => rfl, fun _ => rfl, fun _ => rfl, fun _ => rfl, fun _ => rfl, fun _ => rfl, fun _ => rfl, fun _ => rfl, fun _ => rfl, fun _ => rfl, fun _ => rfl, fun _ => rfl, fun _ => rfl, fun _ => rfl, fun _ => rfl, fun _ => rfl, fun _ => rfl, fun _ => rfl, fun _ => rfl, fun _ => rfl, fun _ => rfl, fun _ => rfl, fun _ => rfl, fun _ => rfl, fun _ => rfl, id, id, Nat.le_refl _⟩ e)
theorem Keeps.u131072 {m : Nat} {s x : State} {v_dram} (e : 131072 ||| m = m)
    (h : Keeps m s x) : Keeps m s { x with dram := v_dram } :=
  h.tr (Keeps.mono (m := 131072) ⟨fun _ => rfl, fun _ => rfl, fun _ => rfl, fun _ => rfl, fun _ => rfl, fun _ => rfl, fun _ => rfl, fun _ => rfl, fun _ => rfl, fun _ => rfl, fun _ => rfl, fun _ => rfl, fun _ => rfl, fun _ => rfl, fun _ => rfl, fun _ => rfl, fun _ => rfl, fun b => absurd b (by decide), fun _ => rfl, fun _ => rfl, fun _ => rfl, fun _ => rfl, fun _ => rfl, fun _ => rfl, fun _ => rfl, fun _ => rfl, fun _ => rfl, fun _ => rfl, fun _ => rfl, fun _ => rfl, fun _ => rfl, fun _ => rfl, fun _ => rfl, fun _ => rfl, fun _ => rfl, fun _ => rfl, fun _ => rfl, fun _ => rfl, fun _ => rfl, fun _ => rfl, fun _ => rfl, fun _ => rfl, id, id, Nat.le_refl _⟩ e)
theorem Keeps.u139328 {m : Nat} {s x : State} {v_dies v_tags v_dram} (e : 139328 ||| m = m)
    (h : Keeps m s x) : Keeps m s { x with dies := v_dies, tags := v_tags, dram := v_dram } :=
  h.tr (Keeps.mono (m := 139328) ⟨fun _ => rfl, fun _ => rfl, fun _ => rfl, fun _ => rfl, fun _ => rfl, fun _ => rfl, fun b => absurd b (by decide), fun _ => rfl, fun _ => rfl, fun _ => rfl, fun _ => rfl, fun _ => rfl, fun _ => rfl, fun b => absurd b (by decide), fun _ => rfl, fun _ => rfl, fun _ => rfl, fun b => absurd b (by decide), fun _ => rfl, fun _ => rfl, fun _ => rfl, fun _ => rfl, fun _ => rfl, fun _ => rfl, fun _ => rfl, fun _ => rfl, fun _ => rfl, fun _ => rfl, fun _ => rfl, fun _ => rfl, fun _ => rfl, fun _ => rfl, fun _ => rfl, fun _ => rfl, fun _ => rfl, fun _ => rfl, fun _ => rfl, fun _ => rfl, fun _ => rfl, fun _ => rfl, fun _ => rfl, fun _ => rfl, id, id, Nat.le_refl _⟩ e)
theorem Keeps.u262144 {m : Nat} {s x : State} {v_ports} (e : 262144 ||| m = m)
    (h : Keeps m s x) : Keeps m s { x with ports := v_ports } :=
  h.tr (Keeps.mono (m := 262144) ⟨fun _ => rfl, fun _ => rfl, fun _ => rfl, fun _ => rfl, fun _ => rfl, fun _ => rfl, fun _ => rfl, fun _ => rfl, fun _ => rfl, fun _ => rfl, fun _ => rfl, fun _ => rfl, fun _ => rfl, fun _ => rfl, fun _ => rfl, fun _ => rfl, fun _ => rfl, fun _ => rfl, fun b => absurd b (by decide), fun _ => rfl, fun _ => rfl, fun _ => rfl, fun _ => rfl, fun _ => rfl, fun _ => rfl, fun _ => rfl, fun _ => rfl, fun _ => rfl, fun _ => rfl, fun _ => rfl, fun _ => rfl, fun _ => rfl, fun _ => rfl, fun _ => rfl, fun _ => rfl, fun _ => rfl, fun _ => rfl, fun _ => rfl, fun _ => rfl, fun _ => rfl, fun _ => rfl, fun _ => rfl, id, id, Nat.le_refl _⟩ e)
theorem Keeps.u263168 {m : Nat} {s x : State} {v_strings v_ports} (e : 263168 ||| m = m)
    (h : Keeps m s x) : Keeps m s { x with strings := v_strings, ports := v_ports } :=
  h.tr (Keeps.mono (m := 263168) ⟨fun _ => rfl, fun _ => rfl, fun _ => rfl, fun _ => rfl, fun _ => rfl, fun _ => rfl, fun _ => rfl, fun _ => rfl, fun _ => rfl, fun _ => rfl, fun b => absurd b (by decide), fun _ => rfl, fun _ => rfl, fun _ => rfl, fun _ => rfl, fun _ => rfl, fun _ => rfl, fun _ => rfl, fun b => absurd b (by decide), fun _ => rfl, fun _ => rfl, fun _ => rfl, fun _ => rfl, fun _ => rfl, fun _ => rfl, fun _ => rfl, fun _ => rfl, fun _ => rfl, fun _ => rfl, fun _ => rfl, fun _ => rfl, fun _ => rfl, fun _ => rfl, fun _ => rfl, fun _ => rfl, fun _ => rfl, fun _ => rfl, fun _ => rfl, fun _ => rfl, fun _ => rfl, fun _ => rfl, fun _ => rfl, id, id, Nat.le_refl _⟩ e)
theorem Keeps.u524288 {m : Nat} {s x : State} {v_fabric} (e : 524288 ||| m = m)
    (h : Keeps m s x) : Keeps m s { x with fabric := v_fabric } :=
  h.tr (Keeps.mono (m := 524288) ⟨fun _ => rfl, fun _ => rfl, fun _ => rfl, fun _ => rfl, fun _ => rfl, fun _ => rfl, fun _ => rfl, fun _ => rfl, fun _ => rfl, fun _ => rfl, fun _ => rfl, fun _ => rfl, fun _ => rfl, fun _ => rfl, fun _ => rfl, fun _ => rfl, fun _ => rfl, fun _ => rfl, fun _ => rfl, fun b => absurd b (by decide), fun _ => rfl, fun _ => rfl, fun _ => rfl, fun _ => rfl, fun _ => rfl, fun _ => rfl, fun _ => rfl, fun _ => rfl, fun _ => rfl, fun _ => rfl, fun _ => rfl, fun _ => rfl, fun _ => rfl, fun _ => rfl, fun _ => rfl, fun _ => rfl, fun _ => rfl, fun _ => rfl, fun _ => rfl, fun _ => rfl, fun _ => rfl, fun _ => rfl, id, id, Nat.le_refl _⟩ e)
theorem Keeps.u655424 {m : Nat} {s x : State} {v_dies v_dram v_fabric} (e : 655424 ||| m = m)
    (h : Keeps m s x) : Keeps m s { x with dies := v_dies, dram := v_dram, fabric := v_fabric } :=
  h.tr (Keeps.mono (m := 655424) ⟨fun _ => rfl, fun _ => rfl, fun _ => rfl, fun _ => rfl, fun _ => rfl, fun _ => rfl, fun b => absurd b (by decide), fun _ => rfl, fun _ => rfl, fun _ => rfl, fun _ => rfl, fun _ => rfl, fun _ => rfl, fun _ => rfl, fun _ => rfl, fun _ => rfl, fun _ => rfl, fun b => absurd b (by decide), fun _ => rfl, fun b => absurd b (by decide), fun _ => rfl, fun _ => rfl, fun _ => rfl, fun _ => rfl, fun _ => rfl, fun _ => rfl, fun _ => rfl, fun _ => rfl, fun _ => rfl, fun _ => rfl, fun _ => rfl, fun _ => rfl, fun _ => rfl, fun _ => rfl, fun _ => rfl, fun _ => rfl, fun _ => rfl, fun _ => rfl, fun _ => rfl, fun _ => rfl, fun _ => rfl, fun _ => rfl, id, id, Nat.le_refl _⟩ e)
theorem Keeps.u1048576 {m : Nat} {s x : State} {v_rmem} (e : 1048576 ||| m = m)
    (h : Keeps m s x) : Keeps m s { x with rmem := v_rmem } :=
  h.tr (Keeps.mono (m := 1048576) ⟨fun _ => rfl, fun _ => rfl, fun _ => rfl, fun _ => rfl, fun _ => rfl, fun _ => rfl, fun _ => rfl, fun _ => rfl, fun _ => rfl, fun _ => rfl, fun _ => rfl, fun _ => rfl, fun _ => rfl, fun _ => rfl, fun _ => rfl, fun _ => rfl, fun _ => rfl, fun _ => rfl, fun _ => rfl, fun _ => rfl, fun b => absurd b (by decide), fun _ => rfl, fun _ => rfl, fun _ => rfl, fun _ => rfl, fun _ => rfl, fun _ => rfl, fun _ => rfl, fun _ => rfl, fun _ => rfl, fun _ => rfl, fun _ => rfl, fun _ => rfl, fun _ => rfl, fun _ => rfl, fun _ => rfl, fun _ => rfl, fun _ => rfl, fun _ => rfl, fun _ => rfl, fun _ => rfl, fun _ => rfl, id, id, Nat.le_refl _⟩ e)
theorem Keeps.u1572864 {m : Nat} {s x : State} {v_fabric v_rmem} (e : 1572864 ||| m = m)
    (h : Keeps m s x) : Keeps m s { x with fabric := v_fabric, rmem := v_rmem } :=
  h.tr (Keeps.mono (m := 1572864) ⟨fun _ => rfl, fun _ => rfl, fun _ => rfl, fun _ => rfl, fun _ => rfl, fun _ => rfl, fun _ => rfl, fun _ => rfl, fun _ => rfl, fun _ => rfl, fun _ => rfl, fun _ => rfl, fun _ => rfl, fun _ => rfl, fun _ => rfl, fun _ => rfl, fun _ => rfl, fun _ => rfl, fun _ => rfl, fun b => absurd b (by decide), fun b => absurd b (by decide), fun _ => rfl, fun _ => rfl, fun _ => rfl, fun _ => rfl, fun _ => rfl, fun _ => rfl, fun _ => rfl, fun _ => rfl, fun _ => rfl, fun _ => rfl, fun _ => rfl, fun _ => rfl, fun _ => rfl, fun _ => rfl, fun _ => rfl, fun _ => rfl, fun _ => rfl, fun _ => rfl, fun _ => rfl, fun _ => rfl, fun _ => rfl, id, id, Nat.le_refl _⟩ e)
theorem Keeps.u1704000 {m : Nat} {s x : State} {v_dies v_dram v_fabric v_rmem} (e : 1704000 ||| m = m)
    (h : Keeps m s x) : Keeps m s { x with dies := v_dies, dram := v_dram, fabric := v_fabric, rmem := v_rmem } :=
  h.tr (Keeps.mono (m := 1704000) ⟨fun _ => rfl, fun _ => rfl, fun _ => rfl, fun _ => rfl, fun _ => rfl, fun _ => rfl, fun b => absurd b (by decide), fun _ => rfl, fun _ => rfl, fun _ => rfl, fun _ => rfl, fun _ => rfl, fun _ => rfl, fun _ => rfl, fun _ => rfl, fun _ => rfl, fun _ => rfl, fun b => absurd b (by decide), fun _ => rfl, fun b => absurd b (by decide), fun b => absurd b (by decide), fun _ => rfl, fun _ => rfl, fun _ => rfl, fun _ => rfl, fun _ => rfl, fun _ => rfl, fun _ => rfl, fun _ => rfl, fun _ => rfl, fun _ => rfl, fun _ => rfl, fun _ => rfl, fun _ => rfl, fun _ => rfl, fun _ => rfl, fun _ => rfl, fun _ => rfl, fun _ => rfl, fun _ => rfl, fun _ => rfl, fun _ => rfl, id, id, Nat.le_refl _⟩ e)
theorem Keeps.u2097152 {m : Nat} {s x : State} {v_retr} (e : 2097152 ||| m = m)
    (h : Keeps m s x) : Keeps m s { x with retr := v_retr } :=
  h.tr (Keeps.mono (m := 2097152) ⟨fun _ => rfl, fun _ => rfl, fun _ => rfl, fun _ => rfl, fun _ => rfl, fun _ => rfl, fun _ => rfl, fun _ => rfl, fun _ => rfl, fun _ => rfl, fun _ => rfl, fun _ => rfl, fun _ => rfl, fun _ => rfl, fun _ => rfl, fun _ => rfl, fun _ => rfl, fun _ => rfl, fun _ => rfl, fun _ => rfl, fun _ => rfl, fun b => absurd b (by decide), fun _ => rfl, fun _ => rfl, fun _ => rfl, fun _ => rfl, fun _ => rfl, fun _ => rfl, fun _ => rfl, fun _ => rfl, fun _ => rfl, fun _ => rfl, fun _ => rfl, fun _ => rfl, fun _ => rfl, fun _ => rfl, fun _ => rfl, fun _ => rfl, fun _ => rfl, fun _ => rfl, fun _ => rfl, fun _ => rfl, id, id, Nat.le_refl _⟩ e)
theorem Keeps.u3670016 {m : Nat} {s x : State} {v_fabric v_rmem v_retr} (e : 3670016 ||| m = m)
    (h : Keeps m s x) : Keeps m s { x with fabric := v_fabric, rmem := v_rmem, retr := v_retr } :=
  h.tr (Keeps.mono (m := 3670016) ⟨fun _ => rfl, fun _ => rfl, fun _ => rfl, fun _ => rfl, fun _ => rfl, fun _ => rfl, fun _ => rfl, fun _ => rfl, fun _ => rfl, fun _ => rfl, fun _ => rfl, fun _ => rfl, fun _ => rfl, fun _ => rfl, fun _ => rfl, fun _ => rfl, fun _ => rfl, fun _ => rfl, fun _ => rfl, fun b => absurd b (by decide), fun b => absurd b (by decide), fun b => absurd b (by decide), fun _ => rfl, fun _ => rfl, fun _ => rfl, fun _ => rfl, fun _ => rfl, fun _ => rfl, fun _ => rfl, fun _ => rfl, fun _ => rfl, fun _ => rfl, fun _ => rfl, fun _ => rfl, fun _ => rfl, fun _ => rfl, fun _ => rfl, fun _ => rfl, fun _ => rfl, fun _ => rfl, fun _ => rfl, fun _ => rfl, id, id, Nat.le_refl _⟩ e)
theorem Keeps.u4194304 {m : Nat} {s x : State} {v_serve} (e : 4194304 ||| m = m)
    (h : Keeps m s x) : Keeps m s { x with serve := v_serve } :=
  h.tr (Keeps.mono (m := 4194304) ⟨fun _ => rfl, fun _ => rfl, fun _ => rfl, fun _ => rfl, fun _ => rfl, fun _ => rfl, fun _ => rfl, fun _ => rfl, fun _ => rfl, fun _ => rfl, fun _ => rfl, fun _ => rfl, fun _ => rfl, fun _ => rfl, fun _ => rfl, fun _ => rfl, fun _ => rfl, fun _ => rfl, fun _ => rfl, fun _ => rfl, fun _ => rfl, fun _ => rfl, fun b => absurd b (by decide), fun _ => rfl, fun _ => rfl, fun _ => rfl, fun _ => rfl, fun _ => rfl, fun _ => rfl, fun _ => rfl, fun _ => rfl, fun _ => rfl, fun _ => rfl, fun _ => rfl, fun _ => rfl, fun _ => rfl, fun _ => rfl, fun _ => rfl, fun _ => rfl, fun _ => rfl, fun _ => rfl, fun _ => rfl, id, id, Nat.le_refl _⟩ e)
theorem Keeps.u4325376 {m : Nat} {s x : State} {v_dram v_serve} (e : 4325376 ||| m = m)
    (h : Keeps m s x) : Keeps m s { x with dram := v_dram, serve := v_serve } :=
  h.tr (Keeps.mono (m := 4325376) ⟨fun _ => rfl, fun _ => rfl, fun _ => rfl, fun _ => rfl, fun _ => rfl, fun _ => rfl, fun _ => rfl, fun _ => rfl, fun _ => rfl, fun _ => rfl, fun _ => rfl, fun _ => rfl, fun _ => rfl, fun _ => rfl, fun _ => rfl, fun _ => rfl, fun _ => rfl, fun b => absurd b (by decide), fun _ => rfl, fun _ => rfl, fun _ => rfl, fun _ => rfl, fun b => absurd b (by decide), fun _ => rfl, fun _ => rfl, fun _ => rfl, fun _ => rfl, fun _ => rfl, fun _ => rfl, fun _ => rfl, fun _ => rfl, fun _ => rfl, fun _ => rfl, fun _ => rfl, fun _ => rfl, fun _ => rfl, fun _ => rfl, fun _ => rfl, fun _ => rfl, fun _ => rfl, fun _ => rfl, fun _ => rfl, id, id, Nat.le_refl _⟩ e)
theorem Keeps.u4718592 {m : Nat} {s x : State} {v_fabric v_serve} (e : 4718592 ||| m = m)
    (h : Keeps m s x) : Keeps m s { x with fabric := v_fabric, serve := v_serve } :=
  h.tr (Keeps.mono (m := 4718592) ⟨fun _ => rfl, fun _ => rfl, fun _ => rfl, fun _ => rfl, fun _ => rfl, fun _ => rfl, fun _ => rfl, fun _ => rfl, fun _ => rfl, fun _ => rfl, fun _ => rfl, fun _ => rfl, fun _ => rfl, fun _ => rfl, fun _ => rfl, fun _ => rfl, fun _ => rfl, fun _ => rfl, fun _ => rfl, fun b => absurd b (by decide), fun _ => rfl, fun _ => rfl, fun b => absurd b (by decide), fun _ => rfl, fun _ => rfl, fun _ => rfl, fun _ => rfl, fun _ => rfl, fun _ => rfl, fun _ => rfl, fun _ => rfl, fun _ => rfl, fun _ => rfl, fun _ => rfl, fun _ => rfl, fun _ => rfl, fun _ => rfl, fun _ => rfl, fun _ => rfl, fun _ => rfl, fun _ => rfl, fun _ => rfl, id, id, Nat.le_refl _⟩ e)
theorem Keeps.u8388608 {m : Nat} {s x : State} {v_images} (e : 8388608 ||| m = m)
    (h : Keeps m s x) : Keeps m s { x with images := v_images } :=
  h.tr (Keeps.mono (m := 8388608) ⟨fun _ => rfl, fun _ => rfl, fun _ => rfl, fun _ => rfl, fun _ => rfl, fun _ => rfl, fun _ => rfl, fun _ => rfl, fun _ => rfl, fun _ => rfl, fun _ => rfl, fun _ => rfl, fun _ => rfl, fun _ => rfl, fun _ => rfl, fun _ => rfl, fun _ => rfl, fun _ => rfl, fun _ => rfl, fun _ => rfl, fun _ => rfl, fun _ => rfl, fun _ => rfl, fun b => absurd b (by decide), fun _ => rfl, fun _ => rfl, fun _ => rfl, fun _ => rfl, fun _ => rfl, fun _ => rfl, fun _ => rfl, fun _ => rfl, fun _ => rfl, fun _ => rfl, fun _ => rfl, fun _ => rfl, fun _ => rfl, fun _ => rfl, fun _ => rfl, fun _ => rfl, fun _ => rfl, fun _ => rfl, id, id, Nat.le_refl _⟩ e)
theorem Keeps.u16777216 {m : Nat} {s x : State} {v_time} (e : 16777216 ||| m = m)
    (h : Keeps m s x) : Keeps m s { x with time := v_time } :=
  h.tr (Keeps.mono (m := 16777216) ⟨fun _ => rfl, fun _ => rfl, fun _ => rfl, fun _ => rfl, fun _ => rfl, fun _ => rfl, fun _ => rfl, fun _ => rfl, fun _ => rfl, fun _ => rfl, fun _ => rfl, fun _ => rfl, fun _ => rfl, fun _ => rfl, fun _ => rfl, fun _ => rfl, fun _ => rfl, fun _ => rfl, fun _ => rfl, fun _ => rfl, fun _ => rfl, fun _ => rfl, fun _ => rfl, fun _ => rfl, fun b => absurd b (by decide), fun _ => rfl, fun _ => rfl, fun _ => rfl, fun _ => rfl, fun _ => rfl, fun _ => rfl, fun _ => rfl, fun _ => rfl, fun _ => rfl, fun _ => rfl, fun _ => rfl, fun _ => rfl, fun _ => rfl, fun _ => rfl, fun _ => rfl, fun _ => rfl, fun _ => rfl, id, id, Nat.le_refl _⟩ e)
theorem Keeps.u16777217 {m : Nat} {s x : State} {v_beat v_time} (e : 16777217 ||| m = m)
    (h : Keeps m s x) : Keeps m s { x with beat := v_beat, time := v_time } :=
  h.tr (Keeps.mono (m := 16777217) ⟨fun b => absurd b (by decide), fun _ => rfl, fun _ => rfl, fun _ => rfl, fun _ => rfl, fun _ => rfl, fun _ => rfl, fun _ => rfl, fun _ => rfl, fun _ => rfl, fun _ => rfl, fun _ => rfl, fun _ => rfl, fun _ => rfl, fun _ => rfl, fun _ => rfl, fun _ => rfl, fun _ => rfl, fun _ => rfl, fun _ => rfl, fun _ => rfl, fun _ => rfl, fun _ => rfl, fun _ => rfl, fun b => absurd b (by decide), fun _ => rfl, fun _ => rfl, fun _ => rfl, fun _ => rfl, fun _ => rfl, fun _ => rfl, fun _ => rfl, fun _ => rfl, fun _ => rfl, fun _ => rfl, fun _ => rfl, fun _ => rfl, fun _ => rfl, fun _ => rfl, fun _ => rfl, fun _ => rfl, fun _ => rfl, id, id, Nat.le_refl _⟩ e)
theorem Keeps.u17039361 {m : Nat} {s x : State} {v_beat v_ports v_time} (e : 17039361 ||| m = m)
    (h : Keeps m s x) : Keeps m s { x with beat := v_beat, ports := v_ports, time := v_time } :=
  h.tr (Keeps.mono (m := 17039361) ⟨fun b => absurd b (by decide), fun _ => rfl, fun _ => rfl, fun _ => rfl, fun _ => rfl, fun _ => rfl, fun _ => rfl, fun _ => rfl, fun _ => rfl, fun _ => rfl, fun _ => rfl, fun _ => rfl, fun _ => rfl, fun _ => rfl, fun _ => rfl, fun _ => rfl, fun _ => rfl, fun _ => rfl, fun b => absurd b (by decide), fun _ => rfl, fun _ => rfl, fun _ => rfl, fun _ => rfl, fun _ => rfl, fun b => absurd b (by decide), fun _ => rfl, fun _ => rfl, fun _ => rfl, fun _ => rfl, fun _ => rfl, fun _ => rfl, fun _ => rfl, fun _ => rfl, fun _ => rfl, fun _ => rfl, fun _ => rfl, fun _ => rfl, fun _ => rfl, fun _ => rfl, fun _ => rfl, fun _ => rfl, fun _ => rfl, id, id, Nat.le_refl _⟩ e)
theorem Keeps.u33554432 {m : Nat} {s x : State} {v_config} (e : 33554432 ||| m = m)
    (h : Keeps m s x) : Keeps m s { x with config := v_config } :=
  h.tr (Keeps.mono (m := 33554432) ⟨fun _ => rfl, fun _ => rfl, fun _ => rfl, fun _ => rfl, fun _ => rfl, fun _ => rfl, fun _ => rfl, fun _ => rfl, fun _ => rfl, fun _ => rfl, fun _ => rfl, fun _ => rfl, fun _ => rfl, fun _ => rfl, fun _ => rfl, fun _ => rfl, fun _ => rfl, fun _ => rfl, fun _ => rfl, fun _ => rfl, fun _ => rfl, fun _ => rfl, fun _ => rfl, fun _ => rfl, fun _ => rfl, fun b => absurd b (by decide), fun _ => rfl, fun _ => rfl, fun _ => rfl, fun _ => rfl, fun _ => rfl, fun _ => rfl, fun _ => rfl, fun _ => rfl, fun _ => rfl, fun _ => rfl, fun _ => rfl, fun _ => rfl, fun _ => rfl, fun _ => rfl, fun _ => rfl, fun _ => rfl, id, id, Nat.le_refl _⟩ e)
theorem Keeps.u67108864 {m : Nat} {s x : State} {v_dev} (e : 67108864 ||| m = m) (hd : x.dev.state ≤ 8 → v_dev.state ≤ 8)
    (h : Keeps m s x) : Keeps m s { x with dev := v_dev } :=
  h.tr (Keeps.mono (m := 67108864) ⟨fun _ => rfl, fun _ => rfl, fun _ => rfl, fun _ => rfl, fun _ => rfl, fun _ => rfl, fun _ => rfl, fun _ => rfl, fun _ => rfl, fun _ => rfl, fun _ => rfl, fun _ => rfl, fun _ => rfl, fun _ => rfl, fun _ => rfl, fun _ => rfl, fun _ => rfl, fun _ => rfl, fun _ => rfl, fun _ => rfl, fun _ => rfl, fun _ => rfl, fun _ => rfl, fun _ => rfl, fun _ => rfl, fun _ => rfl, fun b => absurd b (by decide), fun _ => rfl, fun _ => rfl, fun _ => rfl, fun _ => rfl, fun _ => rfl, fun _ => rfl, fun _ => rfl, fun _ => rfl, fun _ => rfl, fun _ => rfl, fun _ => rfl, fun _ => rfl, fun _ => rfl, fun _ => rfl, fun _ => rfl, id, hd, Nat.le_refl _⟩ e)
theorem Keeps.u67109888 {m : Nat} {s x : State} {v_strings v_dev} (e : 67109888 ||| m = m) (hd : x.dev.state ≤ 8 → v_dev.state ≤ 8)
    (h : Keeps m s x) : Keeps m s { x with strings := v_strings, dev := v_dev } :=
  h.tr (Keeps.mono (m := 67109888) ⟨fun _ => rfl, fun _ => rfl, fun _ => rfl, fun _ => rfl, fun _ => rfl, fun _ => rfl, fun _ => rfl, fun _ => rfl, fun _ => rfl, fun _ => rfl, fun b => absurd b (by decide), fun _ => rfl, fun _ => rfl, fun _ => rfl, fun _ => rfl, fun _ => rfl, fun _ => rfl, fun _ => rfl, fun _ => rfl, fun _ => rfl, fun _ => rfl, fun _ => rfl, fun _ => rfl, fun _ => rfl, fun _ => rfl, fun _ => rfl, fun b => absurd b (by decide), fun _ => rfl, fun _ => rfl, fun _ => rfl, fun _ => rfl, fun _ => rfl, fun _ => rfl, fun _ => rfl, fun _ => rfl, fun _ => rfl, fun _ => rfl, fun _ => rfl, fun _ => rfl, fun _ => rfl, fun _ => rfl, fun _ => rfl, id, hd, Nat.le_refl _⟩ e)
theorem Keeps.u67174400 {m : Nat} {s x : State} {v_sounding v_dev} (e : 67174400 ||| m = m) (hd : x.dev.state ≤ 8 → v_dev.state ≤ 8)
    (h : Keeps m s x) : Keeps m s { x with sounding := v_sounding, dev := v_dev } :=
  h.tr (Keeps.mono (m := 67174400) ⟨fun _ => rfl, fun _ => rfl, fun _ => rfl, fun _ => rfl, fun _ => rfl, fun _ => rfl, fun _ => rfl, fun _ => rfl, fun _ => rfl, fun _ => rfl, fun _ => rfl, fun _ => rfl, fun _ => rfl, fun _ => rfl, fun _ => rfl, fun _ => rfl, fun b => absurd b (by decide), fun _ => rfl, fun _ => rfl, fun _ => rfl, fun _ => rfl, fun _ => rfl, fun _ => rfl, fun _ => rfl, fun _ => rfl, fun _ => rfl, fun b => absurd b (by decide), fun _ => rfl, fun _ => rfl, fun _ => rfl, fun _ => rfl, fun _ => rfl, fun _ => rfl, fun _ => rfl, fun _ => rfl, fun _ => rfl, fun _ => rfl, fun _ => rfl, fun _ => rfl, fun _ => rfl, fun _ => rfl, fun _ => rfl, id, hd, Nat.le_refl _⟩ e)
theorem Keeps.u134217728 {m : Nat} {s x : State} {v_pair} (e : 134217728 ||| m = m)
    (h : Keeps m s x) : Keeps m s { x with pair := v_pair } :=
  h.tr (Keeps.mono (m := 134217728) ⟨fun _ => rfl, fun _ => rfl, fun _ => rfl, fun _ => rfl, fun _ => rfl, fun _ => rfl, fun _ => rfl, fun _ => rfl, fun _ => rfl, fun _ => rfl, fun _ => rfl, fun _ => rfl, fun _ => rfl, fun _ => rfl, fun _ => rfl, fun _ => rfl, fun _ => rfl, fun _ => rfl, fun _ => rfl, fun _ => rfl, fun _ => rfl, fun _ => rfl, fun _ => rfl, fun _ => rfl, fun _ => rfl, fun _ => rfl, fun _ => rfl, fun b => absurd b (by decide), fun _ => rfl, fun _ => rfl, fun _ => rfl, fun _ => rfl, fun _ => rfl, fun _ => rfl, fun _ => rfl, fun _ => rfl, fun _ => rfl, fun _ => rfl, fun _ => rfl, fun _ => rfl, fun _ => rfl, fun _ => rfl, id, id, Nat.le_refl _⟩ e)
theorem Keeps.u201326592 {m : Nat} {s x : State} {v_dev v_pair} (e : 201326592 ||| m = m) (hd : x.dev.state ≤ 8 → v_dev.state ≤ 8)
    (h : Keeps m s x) : Keeps m s { x with dev := v_dev, pair := v_pair } :=
  h.tr (Keeps.mono (m := 201326592) ⟨fun _ => rfl, fun _ => rfl, fun _ => rfl, fun _ => rfl, fun _ => rfl, fun _ => rfl, fun _ => rfl, fun _ => rfl, fun _ => rfl, fun _ => rfl, fun _ => rfl, fun _ => rfl, fun _ => rfl, fun _ => rfl, fun _ => rfl, fun _ => rfl, fun _ => rfl, fun _ => rfl, fun _ => rfl, fun _ => rfl, fun _ => rfl, fun _ => rfl, fun _ => rfl, fun _ => rfl, fun _ => rfl, fun _ => rfl, fun b => absurd b (by decide), fun b => absurd b (by decide), fun _ => rfl, fun _ => rfl, fun _ => rfl, fun _ => rfl, fun _ => rfl, fun _ => rfl, fun _ => rfl, fun _ => rfl, fun _ => rfl, fun _ => rfl, fun _ => rfl, fun _ => rfl, fun _ => rfl, fun _ => rfl, id, hd, Nat.le_refl _⟩ e)
theorem Keeps.u268435456 {m : Nat} {s x : State} {v_ens} (e : 268435456 ||| m = m)
    (h : Keeps m s x) : Keeps m s { x with ens := v_ens } :=
  h.tr (Keeps.mono (m := 268435456) ⟨fun _ => rfl, fun _ => rfl, fun _ => rfl, fun _ => rfl, fun _ => rfl, fun _ => rfl, fun _ => rfl, fun _ => rfl, fun _ => rfl, fun _ => rfl, fun _ => rfl, fun _ => rfl, fun _ => rfl, fun _ => rfl, fun _ => rfl, fun _ => rfl, fun _ => rfl, fun _ => rfl, fun _ => rfl, fun _ => rfl, fun _ => rfl, fun _ => rfl, fun _ => rfl, fun _ => rfl, fun _ => rfl, fun _ => rfl, fun _ => rfl, fun _ => rfl, fun b => absurd b (by decide), fun _ => rfl, fun _ => rfl, fun _ => rfl, fun _ => rfl, fun _ => rfl, fun _ => rfl, fun _ => rfl, fun _ => rfl, fun _ => rfl, fun _ => rfl, fun _ => rfl, fun _ => rfl, fun _ => rfl, id, id, Nat.le_refl _⟩ e)
theorem Keeps.u536870912 {m : Nat} {s x : State} {v_pod} (e : 536870912 ||| m = m)
    (h : Keeps m s x) : Keeps m s { x with pod := v_pod } :=
  h.tr (Keeps.mono (m := 536870912) ⟨fun _ => rfl, fun _ => rfl, fun _ => rfl, fun _ => rfl, fun _ => rfl, fun _ => rfl, fun _ => rfl, fun _ => rfl, fun _ => rfl, fun _ => rfl, fun _ => rfl, fun _ => rfl, fun _ => rfl, fun _ => rfl, fun _ => rfl, fun _ => rfl, fun _ => rfl, fun _ => rfl, fun _ => rfl, fun _ => rfl, fun _ => rfl, fun _ => rfl, fun _ => rfl, fun _ => rfl, fun _ => rfl, fun _ => rfl, fun _ => rfl, fun _ => rfl, fun _ => rfl, fun b => absurd b (by decide), fun _ => rfl, fun _ => rfl, fun _ => rfl, fun _ => rfl, fun _ => rfl, fun _ => rfl, fun _ => rfl, fun _ => rfl, fun _ => rfl, fun _ => rfl, fun _ => rfl, fun _ => rfl, id, id, Nat.le_refl _⟩ e)
theorem Keeps.u1073741824 {m : Nat} {s x : State} {v_tallies} (e : 1073741824 ||| m = m)
    (h : Keeps m s x) : Keeps m s { x with tallies := v_tallies } :=
  h.tr (Keeps.mono (m := 1073741824) ⟨fun _ => rfl, fun _ => rfl, fun _ => rfl, fun _ => rfl, fun _ => rfl, fun _ => rfl, fun _ => rfl, fun _ => rfl, fun _ => rfl, fun _ => rfl, fun _ => rfl, fun _ => rfl, fun _ => rfl, fun _ => rfl, fun _ => rfl, fun _ => rfl, fun _ => rfl, fun _ => rfl, fun _ => rfl, fun _ => rfl, fun _ => rfl, fun _ => rfl, fun _ => rfl, fun _ => rfl, fun _ => rfl, fun _ => rfl, fun _ => rfl, fun _ => rfl, fun _ => rfl, fun _ => rfl, fun b => absurd b (by decide), fun _ => rfl, fun _ => rfl, fun _ => rfl, fun _ => rfl, fun _ => rfl, fun _ => rfl, fun _ => rfl, fun _ => rfl, fun _ => rfl, fun _ => rfl, fun _ => rfl, id, id, Nat.le_refl _⟩ e)
theorem Keeps.u1077936128 {m : Nat} {s x : State} {v_serve v_tallies} (e : 1077936128 ||| m = m)
    (h : Keeps m s x) : Keeps m s { x with serve := v_serve, tallies := v_tallies } :=
  h.tr (Keeps.mono (m := 1077936128) ⟨fun _ => rfl, fun _ => rfl, fun _ => rfl, fun _ => rfl, fun _ => rfl, fun _ => rfl, fun _ => rfl, fun _ => rfl, fun _ => rfl, fun _ => rfl, fun _ => rfl, fun _ => rfl, fun _ => rfl, fun _ => rfl, fun _ => rfl, fun _ => rfl, fun _ => rfl, fun _ => rfl, fun _ => rfl, fun _ => rfl, fun _ => rfl, fun _ => rfl, fun b => absurd b (by decide), fun _ => rfl, fun _ => rfl, fun _ => rfl, fun _ => rfl, fun _ => rfl, fun _ => rfl, fun _ => rfl, fun b => absurd b (by decide), fun _ => rfl, fun _ => rfl, fun _ => rfl, fun _ => rfl, fun _ => rfl, fun _ => rfl, fun _ => rfl, fun _ => rfl, fun _ => rfl, fun _ => rfl, fun _ => rfl, id, id, Nat.le_refl _⟩ e)
theorem Keeps.u2147483648 {m : Nat} {s x : State} {v_power} (e : 2147483648 ||| m = m)
    (h : Keeps m s x) : Keeps m s { x with power := v_power } :=
  h.tr (Keeps.mono (m := 2147483648) ⟨fun _ => rfl, fun _ => rfl, fun _ => rfl, fun _ => rfl, fun _ => rfl, fun _ => rfl, fun _ => rfl, fun _ => rfl, fun _ => rfl, fun _ => rfl, fun _ => rfl, fun _ => rfl, fun _ => rfl, fun _ => rfl, fun _ => rfl, fun _ => rfl, fun _ => rfl, fun _ => rfl, fun _ => rfl, fun _ => rfl, fun _ => rfl, fun _ => rfl, fun _ => rfl, fun _ => rfl, fun _ => rfl, fun _ => rfl, fun _ => rfl, fun _ => rfl, fun _ => rfl, fun _ => rfl, fun _ => rfl, fun b => absurd b (by decide), fun _ => rfl, fun _ => rfl, fun _ => rfl, fun _ => rfl, fun _ => rfl, fun _ => rfl, fun _ => rfl, fun _ => rfl, fun _ => rfl, fun _ => rfl, id, id, Nat.le_refl _⟩ e)
theorem Keeps.u2147483904 {m : Nat} {s x : State} {v_sched v_power} (e : 2147483904 ||| m = m)
    (h : Keeps m s x) : Keeps m s { x with sched := v_sched, power := v_power } :=
  h.tr (Keeps.mono (m := 2147483904) ⟨fun _ => rfl, fun _ => rfl, fun _ => rfl, fun _ => rfl, fun _ => rfl, fun _ => rfl, fun _ => rfl, fun _ => rfl, fun b => absurd b (by decide), fun _ => rfl, fun _ => rfl, fun _ => rfl, fun _ => rfl, fun _ => rfl, fun _ => rfl, fun _ => rfl, fun _ => rfl, fun _ => rfl, fun _ => rfl, fun _ => rfl, fun _ => rfl, fun _ => rfl, fun _ => rfl, fun _ => rfl, fun _ => rfl, fun _ => rfl, fun _ => rfl, fun _ => rfl, fun _ => rfl, fun _ => rfl, fun _ => rfl, fun b => absurd b (by decide), fun _ => rfl, fun _ => rfl, fun _ => rfl, fun _ => rfl, fun _ => rfl, fun _ => rfl, fun _ => rfl, fun _ => rfl, fun _ => rfl, fun _ => rfl, id, id, Nat.le_refl _⟩ e)
theorem Keeps.u2164260865 {m : Nat} {s x : State} {v_beat v_time v_power} (e : 2164260865 ||| m = m)
    (h : Keeps m s x) : Keeps m s { x with beat := v_beat, time := v_time, power := v_power } :=
  h.tr (Keeps.mono (m := 2164260865) ⟨fun b => absurd b (by decide), fun _ => rfl, fun _ => rfl, fun _ => rfl, fun _ => rfl, fun _ => rfl, fun _ => rfl, fun _ => rfl, fun _ => rfl, fun _ => rfl, fun _ => rfl, fun _ => rfl, fun _ => rfl, fun _ => rfl, fun _ => rfl, fun _ => rfl, fun _ => rfl, fun _ => rfl, fun _ => rfl, fun _ => rfl, fun _ => rfl, fun _ => rfl, fun _ => rfl, fun _ => rfl, fun b => absurd b (by decide), fun _ => rfl, fun _ => rfl, fun _ => rfl, fun _ => rfl, fun _ => rfl, fun _ => rfl, fun b => absurd b (by decide), fun _ => rfl, fun _ => rfl, fun _ => rfl, fun _ => rfl, fun _ => rfl, fun _ => rfl, fun _ => rfl, fun _ => rfl, fun _ => rfl, fun _ => rfl, id, id, Nat.le_refl _⟩ e)
theorem Keeps.u2223128640 {m : Nat} {s x : State} {v_dies v_harps v_dram v_images v_dev v_power} (e : 2223128640 ||| m = m) (hd : x.dev.state ≤ 8 → v_dev.state ≤ 8)
    (h : Keeps m s x) : Keeps m s { x with dies := v_dies, harps := v_harps, dram := v_dram, images := v_images, dev := v_dev, power := v_power } :=
  h.tr (Keeps.mono (m := 2223128640) ⟨fun _ => rfl, fun _ => rfl, fun _ => rfl, fun _ => rfl, fun _ => rfl, fun _ => rfl, fun b => absurd b (by decide), fun _ => rfl, fun _ => rfl, fun _ => rfl, fun _ => rfl, fun _ => rfl, fun _ => rfl, fun _ => rfl, fun b => absurd b (by decide), fun _ => rfl, fun _ => rfl, fun b => absurd b (by decide), fun _ => rfl, fun _ => rfl, fun _ => rfl, fun _ => rfl, fun _ => rfl, fun b => absurd b (by decide), fun _ => rfl, fun _ => rfl, fun b => absurd b (by decide), fun _ => rfl, fun _ => rfl, fun _ => rfl, fun _ => rfl, fun b => absurd b (by decide), fun _ => rfl, fun _ => rfl, fun _ => rfl, fun _ => rfl, fun _ => rfl, fun _ => rfl, fun _ => rfl, fun _ => rfl, fun _ => rfl, fun _ => rfl, id, hd, Nat.le_refl _⟩ e)
theorem Keeps.u4294967296 {m : Nat} {s x : State} {v_therm} (e : 4294967296 ||| m = m)
    (h : Keeps m s x) : Keeps m s { x with therm := v_therm } :=
  h.tr (Keeps.mono (m := 4294967296) ⟨fun _ => rfl, fun _ => rfl, fun _ => rfl, fun _ => rfl, fun _ => rfl, fun _ => rfl, fun _ => rfl, fun _ => rfl, fun _ => rfl, fun _ => rfl, fun _ => rfl, fun _ => rfl, fun _ => rfl, fun _ => rfl, fun _ => rfl, fun _ => rfl, fun _ => rfl, fun _ => rfl, fun _ => rfl, fun _ => rfl, fun _ => rfl, fun _ => rfl, fun _ => rfl, fun _ => rfl, fun _ => rfl, fun _ => rfl, fun _ => rfl, fun _ => rfl, fun _ => rfl, fun _ => rfl, fun _ => rfl, fun _ => rfl, fun b => absurd b (by decide), fun _ => rfl, fun _ => rfl, fun _ => rfl, fun _ => rfl, fun _ => rfl, fun _ => rfl, fun _ => rfl, fun _ => rfl, fun _ => rfl, id, id, Nat.le_refl _⟩ e)
theorem Keeps.u8589934592 {m : Nat} {s x : State} {v_cvus} (e : 8589934592 ||| m = m)
    (h : Keeps m s x) : Keeps m s { x with cvus := v_cvus } :=
  h.tr (Keeps.mono (m := 8589934592) ⟨fun _ => rfl, fun _ => rfl, fun _ => rfl, fun _ => rfl, fun _ => rfl, fun _ => rfl, fun _ => rfl, fun _ => rfl, fun _ => rfl, fun _ => rfl, fun _ => rfl, fun _ => rfl, fun _ => rfl, fun _ => rfl, fun _ => rfl, fun _ => rfl, fun _ => rfl, fun _ => rfl, fun _ => rfl, fun _ => rfl, fun _ => rfl, fun _ => rfl, fun _ => rfl, fun _ => rfl, fun _ => rfl, fun _ => rfl, fun _ => rfl, fun _ => rfl, fun _ => rfl, fun _ => rfl, fun _ => rfl, fun _ => rfl, fun _ => rfl, fun b => absurd b (by decide), fun _ => rfl, fun _ => rfl, fun _ => rfl, fun _ => rfl, fun _ => rfl, fun _ => rfl, fun _ => rfl, fun _ => rfl, id, id, Nat.le_refl _⟩ e)
theorem Keeps.u17179869184 {m : Nat} {s x : State} {v_kat} (e : 17179869184 ||| m = m)
    (h : Keeps m s x) : Keeps m s { x with kat := v_kat } :=
  h.tr (Keeps.mono (m := 17179869184) ⟨fun _ => rfl, fun _ => rfl, fun _ => rfl, fun _ => rfl, fun _ => rfl, fun _ => rfl, fun _ => rfl, fun _ => rfl, fun _ => rfl, fun _ => rfl, fun _ => rfl, fun _ => rfl, fun _ => rfl, fun _ => rfl, fun _ => rfl, fun _ => rfl, fun _ => rfl, fun _ => rfl, fun _ => rfl, fun _ => rfl, fun _ => rfl, fun _ => rfl, fun _ => rfl, fun _ => rfl, fun _ => rfl, fun _ => rfl, fun _ => rfl, fun _ => rfl, fun _ => rfl, fun _ => rfl, fun _ => rfl, fun _ => rfl, fun _ => rfl, fun _ => rfl, fun b => absurd b (by decide), fun _ => rfl, fun _ => rfl, fun _ => rfl, fun _ => rfl, fun _ => rfl, fun _ => rfl, fun _ => rfl, id, id, Nat.le_refl _⟩ e)
theorem Keeps.u34896872448 {m : Nat} {s x : State} {v_strings v_ports v_pod v_test} (e : 34896872448 ||| m = m)
    (h : Keeps m s x) : Keeps m s { x with strings := v_strings, ports := v_ports, pod := v_pod, test := v_test } :=
  h.tr (Keeps.mono (m := 34896872448) ⟨fun _ => rfl, fun _ => rfl, fun _ => rfl, fun _ => rfl, fun _ => rfl, fun _ => rfl, fun _ => rfl, fun _ => rfl, fun _ => rfl, fun _ => rfl, fun b => absurd b (by decide), fun _ => rfl, fun _ => rfl, fun _ => rfl, fun _ => rfl, fun _ => rfl, fun _ => rfl, fun _ => rfl, fun b => absurd b (by decide), fun _ => rfl, fun _ => rfl, fun _ => rfl, fun _ => rfl, fun _ => rfl, fun _ => rfl, fun _ => rfl, fun _ => rfl, fun _ => rfl, fun _ => rfl, fun b => absurd b (by decide), fun _ => rfl, fun _ => rfl, fun _ => rfl, fun _ => rfl, fun _ => rfl, fun b => absurd b (by decide), fun _ => rfl, fun _ => rfl, fun _ => rfl, fun _ => rfl, fun _ => rfl, fun _ => rfl, id, id, Nat.le_refl _⟩ e)
theorem Keeps.u35970351104 {m : Nat} {s x : State} {v_pod v_tallies v_test} (e : 35970351104 ||| m = m)
    (h : Keeps m s x) : Keeps m s { x with pod := v_pod, tallies := v_tallies, test := v_test } :=
  h.tr (Keeps.mono (m := 35970351104) ⟨fun _ => rfl, fun _ => rfl, fun _ => rfl, fun _ => rfl, fun _ => rfl, fun _ => rfl, fun _ => rfl, fun _ => rfl, fun _ => rfl, fun _ => rfl, fun _ => rfl, fun _ => rfl, fun _ => rfl, fun _ => rfl, fun _ => rfl, fun _ => rfl, fun _ => rfl, fun _ => rfl, fun _ => rfl, fun _ => rfl, fun _ => rfl, fun _ => rfl, fun _ => rfl, fun _ => rfl, fun _ => rfl, fun _ => rfl, fun _ => rfl, fun _ => rfl, fun _ => rfl, fun b => absurd b (by decide), fun b => absurd b (by decide), fun _ => rfl, fun _ => rfl, fun _ => rfl, fun _ => rfl, fun b => absurd b (by decide), fun _ => rfl, fun _ => rfl, fun _ => rfl, fun _ => rfl, fun _ => rfl, fun _ => rfl, id, id, Nat.le_refl _⟩ e)
theorem Keeps.u68719476736 {m : Nat} {s x : State} {v_beagle} (e : 68719476736 ||| m = m)
    (h : Keeps m s x) : Keeps m s { x with beagle := v_beagle } :=
  h.tr (Keeps.mono (m := 68719476736) ⟨fun _ => rfl, fun _ => rfl, fun _ => rfl, fun _ => rfl, fun _ => rfl, fun _ => rfl, fun _ => rfl, fun _ => rfl, fun _ => rfl, fun _ => rfl, fun _ => rfl, fun _ => rfl, fun _ => rfl, fun _ => rfl, fun _ => rfl, fun _ => rfl, fun _ => rfl, fun _ => rfl, fun _ => rfl, fun _ => rfl, fun _ => rfl, fun _ => rfl, fun _ => rfl, fun _ => rfl, fun _ => rfl, fun _ => rfl, fun _ => rfl, fun _ => rfl, fun _ => rfl, fun _ => rfl, fun _ => rfl, fun _ => rfl, fun _ => rfl, fun _ => rfl, fun _ => rfl, fun _ => rfl, fun b => absurd b (by decide), fun _ => rfl, fun _ => rfl, fun _ => rfl, fun _ => rfl, fun _ => rfl, id, id, Nat.le_refl _⟩ e)
theorem Keeps.u137438953472 {m : Nat} {s x : State} {v_log} (e : 137438953472 ||| m = m)
    (h : Keeps m s x) : Keeps m s { x with log := v_log } :=
  h.tr (Keeps.mono (m := 137438953472) ⟨fun _ => rfl, fun _ => rfl, fun _ => rfl, fun _ => rfl, fun _ => rfl, fun _ => rfl, fun _ => rfl, fun _ => rfl, fun _ => rfl, fun _ => rfl, fun _ => rfl, fun _ => rfl, fun _ => rfl, fun _ => rfl, fun _ => rfl, fun _ => rfl, fun _ => rfl, fun _ => rfl, fun _ => rfl, fun _ => rfl, fun _ => rfl, fun _ => rfl, fun _ => rfl, fun _ => rfl, fun _ => rfl, fun _ => rfl, fun _ => rfl, fun _ => rfl, fun _ => rfl, fun _ => rfl, fun _ => rfl, fun _ => rfl, fun _ => rfl, fun _ => rfl, fun _ => rfl, fun _ => rfl, fun _ => rfl, fun b => absurd b (by decide), fun _ => rfl, fun _ => rfl, fun _ => rfl, fun _ => rfl, id, id, Nat.le_refl _⟩ e)
theorem Keeps.u145408131073 {m : Nat} {s x : State} {v_beat v_time v_config v_pair v_ens v_tallies v_power v_therm v_log} (e : 145408131073 ||| m = m)
    (h : Keeps m s x) : Keeps m s { x with beat := v_beat, time := v_time, config := v_config, pair := v_pair, ens := v_ens, tallies := v_tallies, power := v_power, therm := v_therm, log := v_log } :=
  h.tr (Keeps.mono (m := 145408131073) ⟨fun b => absurd b (by decide), fun _ => rfl, fun _ => rfl, fun _ => rfl, fun _ => rfl, fun _ => rfl, fun _ => rfl, fun _ => rfl, fun _ => rfl, fun _ => rfl, fun _ => rfl, fun _ => rfl, fun _ => rfl, fun _ => rfl, fun _ => rfl, fun _ => rfl, fun _ => rfl, fun _ => rfl, fun _ => rfl, fun _ => rfl, fun _ => rfl, fun _ => rfl, fun _ => rfl, fun _ => rfl, fun b => absurd b (by decide), fun b => absurd b (by decide), fun _ => rfl, fun b => absurd b (by decide), fun b => absurd b (by decide), fun _ => rfl, fun b => absurd b (by decide), fun b => absurd b (by decide), fun b => absurd b (by decide), fun _ => rfl, fun _ => rfl, fun _ => rfl, fun _ => rfl, fun b => absurd b (by decide), fun _ => rfl, fun _ => rfl, fun _ => rfl, fun _ => rfl, id, id, Nat.le_refl _⟩ e)
theorem Keeps.u274877906944 {m : Nat} {s x : State} {v_bad} (e : 274877906944 ||| m = m)
    (h : Keeps m s x) : Keeps m s { x with bad := v_bad } :=
  h.tr (Keeps.mono (m := 274877906944) ⟨fun _ => rfl, fun _ => rfl, fun _ => rfl, fun _ => rfl, fun _ => rfl, fun _ => rfl, fun _ => rfl, fun _ => rfl, fun _ => rfl, fun _ => rfl, fun _ => rfl, fun _ => rfl, fun _ => rfl, fun _ => rfl, fun _ => rfl, fun _ => rfl, fun _ => rfl, fun _ => rfl, fun _ => rfl, fun _ => rfl, fun _ => rfl, fun _ => rfl, fun _ => rfl, fun _ => rfl, fun _ => rfl, fun _ => rfl, fun _ => rfl, fun _ => rfl, fun _ => rfl, fun _ => rfl, fun _ => rfl, fun _ => rfl, fun _ => rfl, fun _ => rfl, fun _ => rfl, fun _ => rfl, fun _ => rfl, fun _ => rfl, fun b => absurd b (by decide), fun _ => rfl, fun _ => rfl, fun _ => rfl, id, id, Nat.le_refl _⟩ e)
theorem Keeps.u371598557176 {m : Nat} {s x : State} {v_mem v_cores v_wins v_dies v_whips v_sched v_arbs v_strings v_tiles v_bus v_tags v_harps v_domains v_sounding v_dram v_ports v_fabric v_rmem v_retr v_serve v_images v_dev v_power v_cvus v_kat v_beagle v_bad} (e : 371598557176 ||| m = m) (hm : Memory.wf x.mem = true → Memory.wf v_mem = true) (hd : x.dev.state ≤ 8 → v_dev.state ≤ 8)
    (h : Keeps m s x) : Keeps m s { x with mem := v_mem, cores := v_cores, wins := v_wins, dies := v_dies, whips := v_whips, sched := v_sched, arbs := v_arbs, strings := v_strings, tiles := v_tiles, bus := v_bus, tags := v_tags, harps := v_harps, domains := v_domains, sounding := v_sounding, dram := v_dram, ports := v_ports, fabric := v_fabric, rmem := v_rmem, retr := v_retr, serve := v_serve, images := v_images, dev := v_dev, power := v_power, cvus := v_cvus, kat := v_kat, beagle := v_beagle, bad := v_bad } :=
  h.tr (Keeps.mono (m := 371598557176) ⟨fun _ => rfl, fun _ => rfl, fun _ => rfl, fun b => absurd b (by decide), fun b => absurd b (by decide), fun b => absurd b (by decide), fun b => absurd b (by decide), fun b => absurd b (by decide), fun b => absurd b (by decide), fun b => absurd b (by decide), fun b => absurd b (by decide), fun b => absurd b (by decide), fun b => absurd b (by decide), fun b => absurd b (by decide), fun b => absurd b (by decide), fun b => absurd b (by decide), fun b => absurd b (by decide), fun b => absurd b (by decide), fun b => absurd b (by decide), fun b => absurd b (by decide), fun b => absurd b (by decide), fun b => absurd b (by decide), fun b => absurd b (by decide), fun b => absurd b (by decide), fun _ => rfl, fun _ => rfl, fun b => absurd b (by decide), fun _ => rfl, fun _ => rfl, fun _ => rfl, fun _ => rfl, fun b => absurd b (by decide), fun _ => rfl, fun b => absurd b (by decide), fun b => absurd b (by decide), fun _ => rfl, fun b => absurd b (by decide), fun _ => rfl, fun b => absurd b (by decide), fun _ => rfl, fun _ => rfl, fun _ => rfl, hm, hd, Nat.le_refl _⟩ e)
theorem Keeps.u549755813888 {m : Nat} {s x : State} {v_out} (e : 549755813888 ||| m = m)
    (h : Keeps m s x) : Keeps m s { x with out := v_out } :=
  h.tr (Keeps.mono (m := 549755813888) ⟨fun _ => rfl, fun _ => rfl, fun _ => rfl, fun _ => rfl, fun _ => rfl, fun _ => rfl, fun _ => rfl, fun _ => rfl, fun _ => rfl, fun _ => rfl, fun _ => rfl, fun _ => rfl, fun _ => rfl, fun _ => rfl, fun _ => rfl, fun _ => rfl, fun _ => rfl, fun _ => rfl, fun _ => rfl, fun _ => rfl, fun _ => rfl, fun _ => rfl, fun _ => rfl, fun _ => rfl, fun _ => rfl, fun _ => rfl, fun _ => rfl, fun _ => rfl, fun _ => rfl, fun _ => rfl, fun _ => rfl, fun _ => rfl, fun _ => rfl, fun _ => rfl, fun _ => rfl, fun _ => rfl, fun _ => rfl, fun _ => rfl, fun _ => rfl, fun b => absurd b (by decide), fun _ => rfl, fun _ => rfl, id, id, Nat.le_refl _⟩ e)
theorem Keeps.u1099511627776 {m : Nat} {s x : State} {v_free} (e : 1099511627776 ||| m = m) (hf : x.free ≤ v_free)
    (h : Keeps m s x) : Keeps m s { x with free := v_free } :=
  h.tr (Keeps.mono (m := 1099511627776) ⟨fun _ => rfl, fun _ => rfl, fun _ => rfl, fun _ => rfl, fun _ => rfl, fun _ => rfl, fun _ => rfl, fun _ => rfl, fun _ => rfl, fun _ => rfl, fun _ => rfl, fun _ => rfl, fun _ => rfl, fun _ => rfl, fun _ => rfl, fun _ => rfl, fun _ => rfl, fun _ => rfl, fun _ => rfl, fun _ => rfl, fun _ => rfl, fun _ => rfl, fun _ => rfl, fun _ => rfl, fun _ => rfl, fun _ => rfl, fun _ => rfl, fun _ => rfl, fun _ => rfl, fun _ => rfl, fun _ => rfl, fun _ => rfl, fun _ => rfl, fun _ => rfl, fun _ => rfl, fun _ => rfl, fun _ => rfl, fun _ => rfl, fun _ => rfl, fun _ => rfl, fun b => absurd b (by decide), fun _ => rfl, id, id, hf⟩ e)

end Sys2Proof.Machine
end

