-- ==== Sys2Proof/Laws/KeepsOps.lean ====
section
/-! SUPPORT. Keeps, for every operation of Machine/Ops.lean that answers a state. -/

set_option linter.all false

namespace Sys2Proof.Machine

theorem State_setPort_keeps (a1 a2) (s : State) : Keeps 262144 s (State.setPort s a1 a2) := by
  unfold State.setPort
  try dsimp only
  repeat' (first
    | with_reducible apply Keeps.refl
    | with_reducible assumption
    | with_reducible apply Keeps.foldl
    | (intro x a hx; beta_reduce; beta_reduce at hx)
    | with_reducible apply Keeps.foldlp
    | with_reducible apply Keeps.foldlq
    | split
    | (with_reducible apply Keeps.u262144; decide))
theorem State_setPort_keeps_k {m} {s0 : State} {a1 a2} {s : State} (e : 262144 ||| m = m) (h : Keeps m s0 s) :
    Keeps m s0 (State.setPort s a1 a2) := h.tr ((State_setPort_keeps a1 a2 s).mono e)

theorem State_emit_keeps (a1) (s : State) : Keeps 549755813888 s (State.emit s a1) := by
  unfold State.emit
  try dsimp only
  repeat' (first
    | with_reducible apply Keeps.refl
    | with_reducible assumption
    | with_reducible apply Keeps.foldl
    | (intro x a hx; beta_reduce; beta_reduce at hx)
    | with_reducible apply Keeps.foldlp
    | with_reducible apply Keeps.foldlq
    | split
    | (with_reducible apply Keeps.u549755813888; decide))
theorem State_emit_keeps_k {m} {s0 : State} {a1} {s : State} (e : 549755813888 ||| m = m) (h : Keeps m s0 s) :
    Keeps m s0 (State.emit s a1) := h.tr ((State_emit_keeps a1 s).mono e)

theorem State_setCore_keeps (a1 a2) (s : State) : Keeps 16 s (State.setCore s a1 a2) := by
  unfold State.setCore
  try dsimp only
  repeat' (first
    | with_reducible apply Keeps.refl
    | with_reducible assumption
    | with_reducible apply Keeps.foldl
    | (intro x a hx; beta_reduce; beta_reduce at hx)
    | with_reducible apply Keeps.foldlp
    | with_reducible apply Keeps.foldlq
    | split
    | (with_reducible apply Keeps.u16; decide))
theorem State_setCore_keeps_k {m} {s0 : State} {a1 a2} {s : State} (e : 16 ||| m = m) (h : Keeps m s0 s) :
    Keeps m s0 (State.setCore s a1 a2) := h.tr ((State_setCore_keeps a1 a2 s).mono e)

theorem State_setStr_keeps (a1 a2) (s : State) : Keeps 1024 s (State.setStr s a1 a2) := by
  unfold State.setStr
  try dsimp only
  repeat' (first
    | with_reducible apply Keeps.refl
    | with_reducible assumption
    | with_reducible apply Keeps.foldl
    | (intro x a hx; beta_reduce; beta_reduce at hx)
    | with_reducible apply Keeps.foldlp
    | with_reducible apply Keeps.foldlq
    | split
    | (with_reducible apply Keeps.u1024; decide))
theorem State_setStr_keeps_k {m} {s0 : State} {a1 a2} {s : State} (e : 1024 ||| m = m) (h : Keeps m s0 s) :
    Keeps m s0 (State.setStr s a1 a2) := h.tr ((State_setStr_keeps a1 a2 s).mono e)

theorem State_drawn_keeps (a1) (s : State) : Keeps 1099511627776 s (State.drawn s a1) := by
  unfold State.drawn
  try dsimp only
  repeat' (first
    | with_reducible apply Keeps.refl
    | with_reducible assumption
    | with_reducible apply Keeps.foldl
    | (intro x a hx; beta_reduce; beta_reduce at hx)
    | with_reducible apply Keeps.foldlp
    | with_reducible apply Keeps.foldlq
    | split
    | (with_reducible apply Keeps.u1099511627776; decide; (first | exact id | exact fun _ => by decide | exact fun h => Memory_writeN_wf _ _ _ h | exact Nat.le_add_right _ _ | assumption | (intro h; exact h))))
theorem State_drawn_keeps_k {m} {s0 : State} {a1} {s : State} (e : 1099511627776 ||| m = m) (h : Keeps m s0 s) :
    Keeps m s0 (State.drawn s a1) := h.tr ((State_drawn_keeps a1 s).mono e)

theorem State_setImgSlot_keeps (a1 a2) (s : State) : Keeps 8388608 s (State.setImgSlot s a1 a2) := by
  unfold State.setImgSlot
  try dsimp only
  repeat' (first
    | with_reducible apply Keeps.refl
    | with_reducible assumption
    | with_reducible apply Keeps.foldl
    | (intro x a hx; beta_reduce; beta_reduce at hx)
    | with_reducible apply Keeps.foldlp
    | with_reducible apply Keeps.foldlq
    | split
    | (with_reducible apply Keeps.u8388608; decide))
theorem State_setImgSlot_keeps_k {m} {s0 : State} {a1 a2} {s : State} (e : 8388608 ||| m = m) (h : Keeps m s0 s) :
    Keeps m s0 (State.setImgSlot s a1 a2) := h.tr ((State_setImgSlot_keeps a1 a2 s).mono e)

theorem State_setDie_keeps (a1 a2) (s : State) : Keeps 64 s (State.setDie s a1 a2) := by
  unfold State.setDie
  try dsimp only
  repeat' (first
    | with_reducible apply Keeps.refl
    | with_reducible assumption
    | with_reducible apply Keeps.foldl
    | (intro x a hx; beta_reduce; beta_reduce at hx)
    | with_reducible apply Keeps.foldlp
    | with_reducible apply Keeps.foldlq
    | split
    | (with_reducible apply Keeps.u64; decide))
theorem State_setDie_keeps_k {m} {s0 : State} {a1 a2} {s : State} (e : 64 ||| m = m) (h : Keeps m s0 s) :
    Keeps m s0 (State.setDie s a1 a2) := h.tr ((State_setDie_keeps a1 a2 s).mono e)

theorem State_store_keeps (a1 a2) (s : State) : Keeps 8 s (State.store s a1 a2) := by
  unfold State.store
  try dsimp only
  repeat' (first
    | with_reducible apply Keeps.refl
    | with_reducible assumption
    | with_reducible apply Keeps.foldl
    | (intro x a hx; beta_reduce; beta_reduce at hx)
    | with_reducible apply Keeps.foldlp
    | with_reducible apply Keeps.foldlq
    | split
    | (with_reducible apply Keeps.u8; decide; (first | exact id | exact fun _ => by decide | exact fun h => Memory_writeN_wf _ _ _ h | exact Nat.le_add_right _ _ | assumption | (intro h; exact h))))
theorem State_store_keeps_k {m} {s0 : State} {a1 a2} {s : State} (e : 8 ||| m = m) (h : Keeps m s0 s) :
    Keeps m s0 (State.store s a1 a2) := h.tr ((State_store_keeps a1 a2 s).mono e)

theorem State_setDomain_keeps (a1 a2) (s : State) : Keeps 32768 s (State.setDomain s a1 a2) := by
  unfold State.setDomain
  try dsimp only
  repeat' (first
    | with_reducible apply Keeps.refl
    | with_reducible assumption
    | with_reducible apply Keeps.foldl
    | (intro x a hx; beta_reduce; beta_reduce at hx)
    | with_reducible apply Keeps.foldlp
    | with_reducible apply Keeps.foldlq
    | split
    | (with_reducible apply Keeps.u32768; decide))
theorem State_setDomain_keeps_k {m} {s0 : State} {a1 a2} {s : State} (e : 32768 ||| m = m) (h : Keeps m s0 s) :
    Keeps m s0 (State.setDomain s a1 a2) := h.tr ((State_setDomain_keeps a1 a2 s).mono e)

theorem State_setCvu_keeps (a1 a2) (s : State) : Keeps 8589934592 s (State.setCvu s a1 a2) := by
  unfold State.setCvu
  try dsimp only
  repeat' (first
    | with_reducible apply Keeps.refl
    | with_reducible assumption
    | with_reducible apply Keeps.foldl
    | (intro x a hx; beta_reduce; beta_reduce at hx)
    | with_reducible apply Keeps.foldlp
    | with_reducible apply Keeps.foldlq
    | split
    | (with_reducible apply Keeps.u8589934592; decide))
theorem State_setCvu_keeps_k {m} {s0 : State} {a1 a2} {s : State} (e : 8589934592 ||| m = m) (h : Keeps m s0 s) :
    Keeps m s0 (State.setCvu s a1 a2) := h.tr ((State_setCvu_keeps a1 a2 s).mono e)

theorem State_setWhip_keeps (a1 a2) (s : State) : Keeps 128 s (State.setWhip s a1 a2) := by
  unfold State.setWhip
  try dsimp only
  repeat' (first
    | with_reducible apply Keeps.refl
    | with_reducible assumption
    | with_reducible apply Keeps.foldl
    | (intro x a hx; beta_reduce; beta_reduce at hx)
    | with_reducible apply Keeps.foldlp
    | with_reducible apply Keeps.foldlq
    | split
    | (with_reducible apply Keeps.u128; decide))
theorem State_setWhip_keeps_k {m} {s0 : State} {a1 a2} {s : State} (e : 128 ||| m = m) (h : Keeps m s0 s) :
    Keeps m s0 (State.setWhip s a1 a2) := h.tr ((State_setWhip_keeps a1 a2 s).mono e)

theorem State_setArb_keeps (a1 a2) (s : State) : Keeps 512 s (State.setArb s a1 a2) := by
  unfold State.setArb
  try dsimp only
  repeat' (first
    | with_reducible apply Keeps.refl
    | with_reducible assumption
    | with_reducible apply Keeps.foldl
    | (intro x a hx; beta_reduce; beta_reduce at hx)
    | with_reducible apply Keeps.foldlp
    | with_reducible apply Keeps.foldlq
    | split
    | (with_reducible apply Keeps.u512; decide))
theorem State_setArb_keeps_k {m} {s0 : State} {a1 a2} {s : State} (e : 512 ||| m = m) (h : Keeps m s0 s) :
    Keeps m s0 (State.setArb s a1 a2) := h.tr ((State_setArb_keeps a1 a2 s).mono e)

theorem State_setHarp_keeps (a1 a2) (s : State) : Keeps 16384 s (State.setHarp s a1 a2) := by
  unfold State.setHarp
  try dsimp only
  repeat' (first
    | with_reducible apply Keeps.refl
    | with_reducible assumption
    | with_reducible apply Keeps.foldl
    | (intro x a hx; beta_reduce; beta_reduce at hx)
    | with_reducible apply Keeps.foldlp
    | with_reducible apply Keeps.foldlq
    | split
    | (with_reducible apply Keeps.u16384; decide))
theorem State_setHarp_keeps_k {m} {s0 : State} {a1 a2} {s : State} (e : 16384 ||| m = m) (h : Keeps m s0 s) :
    Keeps m s0 (State.setHarp s a1 a2) := h.tr ((State_setHarp_keeps a1 a2 s).mono e)

theorem State_setTile_keeps (a1 a2) (s : State) : Keeps 2048 s (State.setTile s a1 a2) := by
  unfold State.setTile
  try dsimp only
  repeat' (first
    | with_reducible apply Keeps.refl
    | with_reducible assumption
    | with_reducible apply Keeps.foldl
    | (intro x a hx; beta_reduce; beta_reduce at hx)
    | with_reducible apply Keeps.foldlp
    | with_reducible apply Keeps.foldlq
    | split
    | (with_reducible apply Keeps.u2048; decide))
theorem State_setTile_keeps_k {m} {s0 : State} {a1 a2} {s : State} (e : 2048 ||| m = m) (h : Keeps m s0 s) :
    Keeps m s0 (State.setTile s a1 a2) := h.tr ((State_setTile_keeps a1 a2 s).mono e)

theorem State_setThermDie_keeps (a1 a2 a3) (s : State) : Keeps 4294967296 s (State.setThermDie s a1 a2 a3) := by
  unfold State.setThermDie
  try dsimp only
  repeat' (first
    | with_reducible apply Keeps.refl
    | with_reducible assumption
    | with_reducible apply Keeps.foldl
    | (intro x a hx; beta_reduce; beta_reduce at hx)
    | with_reducible apply Keeps.foldlp
    | with_reducible apply Keeps.foldlq
    | split
    | (with_reducible apply Keeps.u4294967296; decide))
theorem State_setThermDie_keeps_k {m} {s0 : State} {a1 a2 a3} {s : State} (e : 4294967296 ||| m = m) (h : Keeps m s0 s) :
    Keeps m s0 (State.setThermDie s a1 a2 a3) := h.tr ((State_setThermDie_keeps a1 a2 a3 s).mono e)

end Sys2Proof.Machine
end

