-- ==== Sys2Proof/Laws/KeepsObjects.lean ====
section
/-! SUPPORT. Keeps, for every operation of Machine/Objects.lean that answers a state. -/

set_option linter.all false

namespace Sys2Proof.Machine

theorem State_setObj_keeps (a1 a2) (s : State) : Keeps 2 s (State.setObj s a1 a2) := by
  unfold State.setObj
  try dsimp only
  repeat' (first
    | with_reducible apply Keeps.refl
    | with_reducible assumption
    | with_reducible apply Keeps.foldl
    | (intro x a hx; beta_reduce; beta_reduce at hx)
    | with_reducible apply Keeps.foldlp
    | with_reducible apply Keeps.foldlq
    | split
    | (with_reducible apply Keeps.u2; decide))
theorem State_setObj_keeps_k {m} {s0 : State} {a1 a2} {s : State} (e : 2 ||| m = m) (h : Keeps m s0 s) :
    Keeps m s0 (State.setObj s a1 a2) := h.tr ((State_setObj_keeps a1 a2 s).mono e)

theorem State_count_keeps (a1 a2) (s : State) : Keeps 2 s (State.count s a1 a2) := by
  unfold State.count
  try dsimp only
  repeat' (first
    | with_reducible apply Keeps.refl
    | with_reducible assumption
    | (with_reducible apply State_setObj_keeps_k; decide)
    | with_reducible apply Keeps.foldl
    | (intro x a hx; beta_reduce; beta_reduce at hx)
    | with_reducible apply Keeps.foldlp
    | with_reducible apply Keeps.foldlq
    | split)
theorem State_count_keeps_k {m} {s0 : State} {a1 a2} {s : State} (e : 2 ||| m = m) (h : Keeps m s0 s) :
    Keeps m s0 (State.count s a1 a2) := h.tr ((State_count_keeps a1 a2 s).mono e)

theorem State_setObjB_keeps (a1 a2) (s : State) : Keeps 4 s (State.setObjB s a1 a2) := by
  unfold State.setObjB
  try dsimp only
  repeat' (first
    | with_reducible apply Keeps.refl
    | with_reducible assumption
    | with_reducible apply Keeps.foldl
    | (intro x a hx; beta_reduce; beta_reduce at hx)
    | with_reducible apply Keeps.foldlp
    | with_reducible apply Keeps.foldlq
    | split
    | (with_reducible apply Keeps.u4; decide))
theorem State_setObjB_keeps_k {m} {s0 : State} {a1 a2} {s : State} (e : 4 ||| m = m) (h : Keeps m s0 s) :
    Keeps m s0 (State.setObjB s a1 a2) := h.tr ((State_setObjB_keeps a1 a2 s).mono e)

theorem State_setObjI_keeps (a1 a2) (s : State) : Keeps 2 s (State.setObjI s a1 a2) := by
  unfold State.setObjI
  try dsimp only
  repeat' (first
    | with_reducible apply Keeps.refl
    | with_reducible assumption
    | (with_reducible apply State_setObj_keeps_k; decide)
    | with_reducible apply Keeps.foldl
    | (intro x a hx; beta_reduce; beta_reduce at hx)
    | with_reducible apply Keeps.foldlp
    | with_reducible apply Keeps.foldlq
    | split)
theorem State_setObjI_keeps_k {m} {s0 : State} {a1 a2} {s : State} (e : 2 ||| m = m) (h : Keeps m s0 s) :
    Keeps m s0 (State.setObjI s a1 a2) := h.tr ((State_setObjI_keeps a1 a2 s).mono e)

end Sys2Proof.Machine
end

