-- ==== Sys2Proof/Laws/KeepsEvents.lean ====
section
/-! SUPPORT. Keeps, for every operation of Machine/Events.lean that answers a state. -/

set_option linter.all false

namespace Sys2Proof.Machine

theorem traceMake_keeps (a0 a1 a2 a3) (s : State) : Keeps 68719476738 s (traceMake a0 a1 a2 a3 s) := by
  unfold traceMake
  try dsimp only
  repeat' (first
    | with_reducible apply Keeps.refl
    | with_reducible assumption
    | (with_reducible apply State_count_keeps_k; decide)
    | with_reducible apply Keeps.foldl
    | (intro x a hx; beta_reduce; beta_reduce at hx)
    | with_reducible apply Keeps.foldlp
    | with_reducible apply Keeps.foldlq
    | split
    | (with_reducible apply Keeps.u68719476736; decide))
theorem traceMake_keeps_k {m} {s0 : State} {a0 a1 a2 a3} {s : State} (e : 68719476738 ||| m = m) (h : Keeps m s0 s) :
    Keeps m s0 (traceMake a0 a1 a2 a3 s) := h.tr ((traceMake_keeps a0 a1 a2 a3 s).mono e)

theorem logWrite_keeps (a0 a1 a2 a3 a4 a5 a6) (s : State) : Keeps 206158430210 s (logWrite a0 a1 a2 a3 a4 a5 a6 s) := by
  unfold logWrite
  try dsimp only
  repeat' (first
    | with_reducible apply Keeps.refl
    | with_reducible assumption
    | (with_reducible apply traceMake_keeps_k; decide)
    | (with_reducible apply State_count_keeps_k; decide)
    | with_reducible apply Keeps.foldl
    | (intro x a hx; beta_reduce; beta_reduce at hx)
    | with_reducible apply Keeps.foldlp
    | with_reducible apply Keeps.foldlq
    | split
    | (with_reducible apply Keeps.u137438953472; decide))
theorem logWrite_keeps_k {m} {s0 : State} {a0 a1 a2 a3 a4 a5 a6} {s : State} (e : 206158430210 ||| m = m) (h : Keeps m s0 s) :
    Keeps m s0 (logWrite a0 a1 a2 a3 a4 a5 a6 s) := h.tr ((logWrite_keeps a0 a1 a2 a3 a4 a5 a6 s).mono e)

theorem closeSecond_keeps (s : State) : Keeps 206158430210 s (closeSecond s) := by
  unfold closeSecond
  try dsimp only
  repeat' (first
    | with_reducible apply Keeps.refl
    | with_reducible assumption
    | (with_reducible apply logWrite_keeps_k; decide)
    | with_reducible apply Keeps.foldl
    | (intro x a hx; beta_reduce; beta_reduce at hx)
    | with_reducible apply Keeps.foldlp
    | with_reducible apply Keeps.foldlq
    | split
    | (with_reducible apply Keeps.u137438953472; decide))
theorem closeSecond_keeps_k {m} {s0 : State} {s : State} (e : 206158430210 ||| m = m) (h : Keeps m s0 s) :
    Keeps m s0 (closeSecond s) := h.tr ((closeSecond_keeps  s).mono e)

theorem logEvent_keeps (a0 a1 a2 a3 a4 a5) (s : State) : Keeps 206158430210 s (logEvent a0 a1 a2 a3 a4 a5 s) := by
  unfold logEvent
  try dsimp only
  repeat' (first
    | with_reducible apply Keeps.refl
    | with_reducible assumption
    | (with_reducible apply State_count_keeps_k; decide)
    | (with_reducible apply closeSecond_keeps_k; decide)
    | (with_reducible apply logWrite_keeps_k; decide)
    | with_reducible apply Keeps.foldl
    | (intro x a hx; beta_reduce; beta_reduce at hx)
    | with_reducible apply Keeps.foldlp
    | with_reducible apply Keeps.foldlq
    | split
    | (with_reducible apply Keeps.u137438953472; decide))
theorem logEvent_keeps_k {m} {s0 : State} {a0 a1 a2 a3 a4 a5} {s : State} (e : 206158430210 ||| m = m) (h : Keeps m s0 s) :
    Keeps m s0 (logEvent a0 a1 a2 a3 a4 a5 s) := h.tr ((logEvent_keeps a0 a1 a2 a3 a4 a5 s).mono e)

theorem lockTest_keeps (s : State) : Keeps 34896872450 s (lockTest s) := by
  unfold lockTest
  try dsimp only
  repeat' (first
    | with_reducible apply Keeps.refl
    | with_reducible assumption
    | (with_reducible apply State_setObj_keeps_k; decide)
    | with_reducible apply Keeps.foldl
    | (intro x a hx; beta_reduce; beta_reduce at hx)
    | with_reducible apply Keeps.foldlp
    | with_reducible apply Keeps.foldlq
    | split
    | (with_reducible apply Keeps.u34896872448; decide))
theorem lockTest_keeps_k {m} {s0 : State} {s : State} (e : 34896872450 ||| m = m) (h : Keeps m s0 s) :
    Keeps m s0 (lockTest s) := h.tr ((lockTest_keeps  s).mono e)

theorem stepPending_keeps (s : State) : Keeps 16777219 s (stepPending s) := by
  unfold stepPending
  try dsimp only
  repeat' (first
    | with_reducible apply Keeps.refl
    | with_reducible assumption
    | (with_reducible apply State_count_keeps_k; decide)
    | with_reducible apply Keeps.foldl
    | (intro x a hx; beta_reduce; beta_reduce at hx)
    | with_reducible apply Keeps.foldlp
    | with_reducible apply Keeps.foldlq
    | split
    | (with_reducible apply Keeps.u16777217; decide))
theorem stepPending_keeps_k {m} {s0 : State} {s : State} (e : 16777219 ||| m = m) (h : Keeps m s0 s) :
    Keeps m s0 (stepPending s) := h.tr ((stepPending_keeps  s).mono e)

theorem enterState_keeps (n : Nat) (hn : n ≤ 8) (s : State) : Keeps 103700235267 s (enterState n s) := by
  unfold enterState
  try dsimp only
  repeat' (first
    | with_reducible apply Keeps.refl
    | with_reducible assumption
    | (with_reducible apply lockTest_keeps_k; decide)
    | (with_reducible apply stepPending_keeps_k; decide)
    | (with_reducible apply traceMake_keeps_k; decide)
    | split
    | (with_reducible apply Keeps.u67108864; decide; exact fun _ => hn))
theorem enterState_keeps_k {m} {s0 : State} {n : Nat} {s : State} (e : 103700235267 ||| m = m) (hn : n ≤ 8)
    (h : Keeps m s0 s) : Keeps m s0 (enterState n s) := h.tr ((enterState_keeps n hn s).mono e)

theorem countLog_keeps (a0 a1 a2 a3 a4 a5) (s : State) : Keeps 206158430210 s (countLog a0 a1 a2 a3 a4 a5 s) := by
  unfold countLog
  try dsimp only
  repeat' (first
    | with_reducible apply Keeps.refl
    | with_reducible assumption
    | (with_reducible apply logEvent_keeps_k; decide)
    | (with_reducible apply State_count_keeps_k; decide)
    | with_reducible apply Keeps.foldl
    | (intro x a hx; beta_reduce; beta_reduce at hx)
    | with_reducible apply Keeps.foldlp
    | with_reducible apply Keeps.foldlq
    | split)
theorem countLog_keeps_k {m} {s0 : State} {a0 a1 a2 a3 a4 a5} {s : State} (e : 206158430210 ||| m = m) (h : Keeps m s0 s) :
    Keeps m s0 (countLog a0 a1 a2 a3 a4 a5 s) := h.tr ((countLog_keeps a0 a1 a2 a3 a4 a5 s).mono e)

theorem settleReasons_keeps (s : State) : Keeps 103700235267 s (settleReasons s) := by
  unfold settleReasons
  try dsimp only
  repeat' (first
    | with_reducible apply Keeps.refl
    | with_reducible assumption
    | (with_reducible apply enterState_keeps_k; decide; first | decide | (split <;> decide))
    | with_reducible apply Keeps.foldl
    | (intro x a hx; beta_reduce; beta_reduce at hx)
    | with_reducible apply Keeps.foldlp
    | with_reducible apply Keeps.foldlq
    | split)
theorem settleReasons_keeps_k {m} {s0 : State} {s : State} (e : 103700235267 ||| m = m) (h : Keeps m s0 s) :
    Keeps m s0 (settleReasons s) := h.tr ((settleReasons_keeps  s).mono e)

theorem setReason_keeps (a0 a1) (s : State) : Keeps 103700235267 s (setReason a0 a1 s) := by
  unfold setReason
  try dsimp only
  repeat' (first
    | with_reducible apply Keeps.refl
    | with_reducible assumption
    | (with_reducible apply settleReasons_keeps_k; decide)
    | (with_reducible apply State_setObj_keeps_k; decide)
    | with_reducible apply Keeps.foldl
    | (intro x a hx; beta_reduce; beta_reduce at hx)
    | with_reducible apply Keeps.foldlp
    | with_reducible apply Keeps.foldlq
    | split)
theorem setReason_keeps_k {m} {s0 : State} {a0 a1} {s : State} (e : 103700235267 ||| m = m) (h : Keeps m s0 s) :
    Keeps m s0 (setReason a0 a1 s) := h.tr ((setReason_keeps a0 a1 s).mono e)

theorem ctlEmit_keeps (a0) (s : State) : Keeps 549890031616 s (ctlEmit a0 s) := by
  unfold ctlEmit
  try dsimp only
  repeat' (first
    | with_reducible apply Keeps.refl
    | with_reducible assumption
    | (with_reducible apply State_emit_keeps_k; decide)
    | with_reducible apply Keeps.foldl
    | (intro x a hx; beta_reduce; beta_reduce at hx)
    | with_reducible apply Keeps.foldlp
    | with_reducible apply Keeps.foldlq
    | split
    | (with_reducible apply Keeps.u134217728; decide))
theorem ctlEmit_keeps_k {m} {s0 : State} {a0} {s : State} (e : 549890031616 ||| m = m) (h : Keeps m s0 s) :
    Keeps m s0 (ctlEmit a0 s) := h.tr ((ctlEmit_keeps a0 s).mono e)

theorem mapChange_keeps (a0 a1) (s : State) : Keeps 2 s (mapChange a0 a1 s) := by
  unfold mapChange
  try dsimp only
  repeat' (first
    | with_reducible apply Keeps.refl
    | with_reducible assumption
    | (with_reducible apply State_setObj_keeps_k; decide)
    | (with_reducible apply State_count_keeps_k; decide)
    | with_reducible apply Keeps.foldl
    | (intro x a hx; beta_reduce; beta_reduce at hx)
    | with_reducible apply Keeps.foldlp
    | with_reducible apply Keeps.foldlq
    | split)
theorem mapChange_keeps_k {m} {s0 : State} {a0 a1} {s : State} (e : 2 ||| m = m) (h : Keeps m s0 s) :
    Keeps m s0 (mapChange a0 a1 s) := h.tr ((mapChange_keeps a0 a1 s).mono e)

theorem isolateUnit_keeps (a0) (s : State) : Keeps 241139188739 s (isolateUnit a0 s) := by
  unfold isolateUnit
  try dsimp only
  repeat' (first
    | with_reducible apply Keeps.refl
    | with_reducible assumption
    | (with_reducible apply logEvent_keeps_k; decide)
    | (with_reducible apply mapChange_keeps_k; decide)
    | (with_reducible apply setReason_keeps_k; decide)
    | with_reducible apply Keeps.foldl
    | (intro x a hx; beta_reduce; beta_reduce at hx)
    | with_reducible apply Keeps.foldlp
    | with_reducible apply Keeps.foldlq
    | split)
theorem isolateUnit_keeps_k {m} {s0 : State} {a0} {s : State} (e : 241139188739 ||| m = m) (h : Keeps m s0 s) :
    Keeps m s0 (isolateUnit a0 s) := h.tr ((isolateUnit_keeps a0 s).mono e)

theorem clearIsolation_keeps (a0) (s : State) : Keeps 241139188739 s (clearIsolation a0 s) := by
  unfold clearIsolation
  try dsimp only
  repeat' (first
    | with_reducible apply Keeps.refl
    | with_reducible assumption
    | (with_reducible apply logEvent_keeps_k; decide)
    | (with_reducible apply mapChange_keeps_k; decide)
    | (with_reducible apply setReason_keeps_k; decide)
    | with_reducible apply Keeps.foldl
    | (intro x a hx; beta_reduce; beta_reduce at hx)
    | with_reducible apply Keeps.foldlp
    | with_reducible apply Keeps.foldlq
    | split)
theorem clearIsolation_keeps_k {m} {s0 : State} {a0} {s : State} (e : 241139188739 ||| m = m) (h : Keeps m s0 s) :
    Keeps m s0 (clearIsolation a0 s) := h.tr ((clearIsolation_keeps a0 s).mono e)

theorem respondAt_keeps (a0 a1 a2 a3) (s : State) : Keeps 549890031616 s (respondAt a0 a1 a2 a3 s) := by
  unfold respondAt
  try dsimp only
  repeat' (first
    | with_reducible apply Keeps.refl
    | with_reducible assumption
    | (with_reducible apply ctlEmit_keeps_k; decide)
    | with_reducible apply Keeps.foldl
    | (intro x a hx; beta_reduce; beta_reduce at hx)
    | with_reducible apply Keeps.foldlp
    | with_reducible apply Keeps.foldlq
    | split)
theorem respondAt_keeps_k {m} {s0 : State} {a0 a1 a2 a3} {s : State} (e : 549890031616 ||| m = m) (h : Keeps m s0 s) :
    Keeps m s0 (respondAt a0 a1 a2 a3 s) := h.tr ((respondAt_keeps a0 a1 a2 a3 s).mono e)

theorem respond_keeps (a0 a1 a2) (s : State) : Keeps 549890031616 s (respond a0 a1 a2 s) := by
  unfold respond
  try dsimp only
  repeat' (first
    | with_reducible apply Keeps.refl
    | with_reducible assumption
    | (with_reducible apply respondAt_keeps_k; decide)
    | with_reducible apply Keeps.foldl
    | (intro x a hx; beta_reduce; beta_reduce at hx)
    | with_reducible apply Keeps.foldlp
    | with_reducible apply Keeps.foldlq
    | split)
theorem respond_keeps_k {m} {s0 : State} {a0 a1 a2} {s : State} (e : 549890031616 ||| m = m) (h : Keeps m s0 s) :
    Keeps m s0 (respond a0 a1 a2 s) := h.tr ((respond_keeps a0 a1 a2 s).mono e)

theorem answerWrite_keeps (a0 a1) (s : State) : Keeps 549890031616 s (answerWrite a0 a1 s) := by
  unfold answerWrite
  try dsimp only
  repeat' (first
    | with_reducible apply Keeps.refl
    | with_reducible assumption
    | (with_reducible apply respond_keeps_k; decide)
    | with_reducible apply Keeps.foldl
    | (intro x a hx; beta_reduce; beta_reduce at hx)
    | with_reducible apply Keeps.foldlp
    | with_reducible apply Keeps.foldlq
    | split)
theorem answerWrite_keeps_k {m} {s0 : State} {a0 a1} {s : State} (e : 549890031616 ||| m = m) (h : Keeps m s0 s) :
    Keeps m s0 (answerWrite a0 a1 s) := h.tr ((answerWrite_keeps a0 a1 s).mono e)

theorem traceStore_keeps (a0) (s : State) : Keeps 68719476738 s (traceStore a0 s) := by
  unfold traceStore
  try dsimp only
  repeat' (first
    | with_reducible apply Keeps.refl
    | with_reducible assumption
    | (with_reducible apply State_count_keeps_k; decide)
    | with_reducible apply Keeps.foldl
    | (intro x a hx; beta_reduce; beta_reduce at hx)
    | with_reducible apply Keeps.foldlp
    | with_reducible apply Keeps.foldlq
    | split
    | (with_reducible apply Keeps.u68719476736; decide))
theorem traceStore_keeps_k {m} {s0 : State} {a0} {s : State} (e : 68719476738 ||| m = m) (h : Keeps m s0 s) :
    Keeps m s0 (traceStore a0 s) := h.tr ((traceStore_keeps a0 s).mono e)

end Sys2Proof.Machine
end

