-- ==== Sys2Proof/Laws/Tables.lean ====
section
/-! SUPPORT. Tables and what the state's parts read as after they are set. A table need not be in key order for these laws. -/

namespace Sys2Proof.Machine

theorem tfind_tset_same {α : Type} (k : Nat) (v : α) (t : Tab α) : tfind k (tset k v t) = some v := by
  induction t with
  | nil => simp [tset, tfind]
  | cons p r ih =>
    unfold tset
    split
    · simp [tfind]
    · split
      · simp [tfind]
      · next hne => simp [tfind, hne, ih]

theorem tfind_tset_other {α : Type} {j k : Nat} (v : α) (t : Tab α) (h : j ≠ k) : tfind j (tset k v t) = tfind j t := by
  induction t with
  | nil => simp [tset, tfind, h]
  | cons p r ih =>
    unfold tset
    split
    · simp [tfind, h]
    · split
      · next heq => subst heq; simp [tfind, h]
      · simp only [tfind]; rw [ih]

@[simp] theorem tget_tset_same {α : Type} (d : α) (k : Nat) (v : α) (t : Tab α) : tget d k (tset k v t) = v := by
  simp [tget, tfind_tset_same]

theorem tget_tset_other {α : Type} {j k : Nat} (d v : α) (t : Tab α) (h : j ≠ k) : tget d j (tset k v t) = tget d j t := by
  simp [tget, tfind_tset_other v t h]

@[simp] theorem State.core_setCore (s : State) (n : Nat) (c : Core) : (s.setCore n c).core n = c := tget_tset_same ..
@[simp] theorem State.die_setDie (s : State) (n : Nat) (d : Die) : (s.setDie n d).die n = d := tget_tset_same ..
@[simp] theorem State.whip_setWhip (s : State) (n : Nat) (w : Whip) : (s.setWhip n w).whip n = w := tget_tset_same ..
@[simp] theorem State.arb_setArb (s : State) (n : Nat) (a : Arb) : (s.setArb n a).arb n = a := tget_tset_same ..
@[simp] theorem State.str_setStr (s : State) (n : Nat) (t : Str) : (s.setStr n t).str n = t := tget_tset_same ..
@[simp] theorem State.tile_setTile (s : State) (n : Nat) (t : Tile) : (s.setTile n t).tile n = t := tget_tset_same ..
@[simp] theorem State.harp_setHarp (s : State) (n : Nat) (h : Harp) : (s.setHarp n h).harp n = h := tget_tset_same ..
@[simp] theorem State.domain_setDomain (s : State) (n : Nat) (d : Domain) : (s.setDomain n d).domain n = d := tget_tset_same ..
@[simp] theorem State.port_setPort (s : State) (n : Nat) (p : FPort) : (s.setPort n p).port n = p := tget_tset_same ..
@[simp] theorem State.cvu_setCvu (s : State) (n : Nat) (u : Cvu) : (s.setCvu n u).cvu n = u := tget_tset_same ..
@[simp] theorem State.imgSlot_setImgSlot (s : State) (n : Nat) (x : ImgSlot) : (s.setImgSlot n x).imgSlot n = x :=
  tget_tset_same ..
@[simp] theorem State.thermDie_setThermDie (s : State) (a b : Nat) (t : ThermDie) :
    (s.setThermDie a b t).thermDie a b = t := tget_tset_same ..

theorem State.core_setCore_other {j n : Nat} (s : State) (c : Core) (h : j ≠ n) : (s.setCore n c).core j = s.core j :=
  tget_tset_other _ _ _ h
theorem State.die_setDie_other {j n : Nat} (s : State) (d : Die) (h : j ≠ n) : (s.setDie n d).die j = s.die j :=
  tget_tset_other _ _ _ h
theorem State.whip_setWhip_other {j n : Nat} (s : State) (w : Whip) (h : j ≠ n) : (s.setWhip n w).whip j = s.whip j :=
  tget_tset_other _ _ _ h
theorem State.str_setStr_other {j n : Nat} (s : State) (t : Str) (h : j ≠ n) : (s.setStr n t).str j = s.str j :=
  tget_tset_other _ _ _ h
theorem State.harp_setHarp_other {j n : Nat} (s : State) (x : Harp) (h : j ≠ n) : (s.setHarp n x).harp j = s.harp j :=
  tget_tset_other _ _ _ h
theorem State.domain_setDomain_other {j n : Nat} (s : State) (d : Domain) (h : j ≠ n) :
    (s.setDomain n d).domain j = s.domain j := tget_tset_other _ _ _ h
theorem State.port_setPort_other {j n : Nat} (s : State) (p : FPort) (h : j ≠ n) : (s.setPort n p).port j = s.port j :=
  tget_tset_other _ _ _ h
theorem State.cvu_setCvu_other {j n : Nat} (s : State) (u : Cvu) (h : j ≠ n) : (s.setCvu n u).cvu j = s.cvu j :=
  tget_tset_other _ _ _ h
theorem State.imgSlot_setImgSlot_other {j n : Nat} (s : State) (x : ImgSlot) (h : j ≠ n) :
    (s.setImgSlot n x).imgSlot j = s.imgSlot j := tget_tset_other _ _ _ h

/-- An object reads the value it was given, in 64 bits. -/
theorem State.obj_setObj (s : State) (k v : Nat) : (s.setObj k v).obj k = v % 2 ^ 64 := by
  simp [State.obj, State.setObj, tfind_tset_same, BitVec.toNat_ofNat]

/-- Setting an object leaves every other one alone. -/
theorem State.obj_setObj_other {j k : Nat} (s : State) (v : Nat) (h : j ≠ k) : (s.setObj k v).obj j = s.obj j := by
  simp [State.obj, State.setObj, tfind_tset_other _ _ h]

/-- Counting leaves every other object alone. -/
theorem State.obj_count_other {j k : Nat} (s : State) (n : Nat) (h : j ≠ k) : (s.count k n).obj j = s.obj j :=
  State.obj_setObj_other s _ h

@[simp] theorem State.objB_setObjB (s : State) (k : Nat) (b : Bytes) : (s.setObjB k b).objB k = b := tget_tset_same ..
theorem State.objB_setObjB_other {j k : Nat} (s : State) (b : Bytes) (h : j ≠ k) : (s.setObjB k b).objB j = s.objB j :=
  tget_tset_other _ _ _ h

end Sys2Proof.Machine
end

