-- ==== Sys2Proof/Laws/Events.lean ====
section
/-! SUPPORT. What the shared event operations do to the dictionary objects and to the device state. -/

namespace Sys2Proof.Machine

theorem Untouched.refl (l : List Nat) (s : State) : Untouched l s s := fun _ _ => rfl

theorem Untouched.trans {l m : List Nat} {s t u : State} (h : Untouched l s t) (k : Untouched m t u)
    (hl : ∀ x ∈ l, x ∈ m) : Untouched m s u :=
  fun x hx => (k x hx).trans (h x (fun hm => hx (hl x hm)))

theorem Untouched.mono {l m : List Nat} {s t : State} (h : Untouched l s t) (hl : ∀ x ∈ l, x ∈ m) : Untouched m s t :=
  fun x hx => h x (fun hm => hx (hl x hm))

/-- An object reads as before where the written values are the same. -/
theorem State.obj_of_od {s t : State} (h : t.od = s.od) (k : Nat) : t.obj k = s.obj k := by
  unfold State.obj; rw [h]

theorem traceMake_untouched (site unit kind : Nat) (p : Bytes) (s : State) :
    Untouched logCounters s (traceMake site unit kind p s) := by
  intro k hk
  have h1 : k ≠ Obj.beagleLost := fun e => hk (by rw [e]; simp [logCounters])
  unfold traceMake
  split
  · dsimp only
    split
    · exact State.obj_count_other _ _ h1
    · rfl
  · rfl

theorem logWrite_untouched (key sev code site unit flags : Nat) (detail : Bytes) (s : State) :
    Untouched logCounters s (logWrite key sev code site unit flags detail s) := by
  unfold logWrite
  dsimp only
  refine Untouched.trans ?_ (traceMake_untouched _ _ _ _ _) (fun x h => h)
  intro k hk
  have h1 : k ≠ Obj.logOverwritten := fun e => hk (by rw [e]; simp [logCounters])
  split
  · rw [State.obj_count_other _ _ h1]; rfl
  · rfl

theorem closeSecond_untouched (s : State) : Untouched logCounters s (closeSecond s) := by
  unfold closeSecond
  dsimp only
  suffices h : ∀ (l : List ((Nat × Nat × Nat × Nat) × Nat × Nat × Nat)) (t : State), Untouched logCounters s t →
      Untouched logCounters s (l.foldl (fun s r =>
        if 0 < r.2.2.1 then logWrite r.1.1 r.2.2.2 r.1.2.2.2 r.1.2.1 r.1.2.2.1 4 (leBytes 4 r.2.2.1) s else s) t) by
    intro k hk
    exact h _ _ (Untouched.refl _ _) k hk
  intro l
  induction l with
  | nil => exact fun t h => h
  | cons r l ih =>
    intro t h
    refine ih _ ?_
    dsimp only
    split
    · exact h.trans (logWrite_untouched _ _ _ _ _ _ _ _) (fun x h => h)
    · exact h

theorem logEvent_untouched (key sev code site unit : Nat) (detail : Bytes) (s : State) :
    Untouched logCounters s (logEvent key sev code site unit detail s) := by
  unfold logEvent
  dsimp only
  have h0 : Untouched logCounters s (if s.beat / 1000000000 = s.log.secondNo then s else closeSecond s) := by
    split
    · exact Untouched.refl _ _
    · exact closeSecond_untouched s
  generalize (if s.beat / 1000000000 = s.log.secondNo then s else closeSecond s) = u at h0 ⊢
  generalize secondRow (key, site, unit, code) u.log.second = w
  obtain ⟨a, b, c⟩ := w
  dsimp only
  split
  · exact (h0.trans (m := logCounters) (u := { u with log := _ }) (fun _ _ => rfl) (fun x h => h)).trans
      (logWrite_untouched _ _ _ _ _ _ _ _) (fun x h => h)
  · intro k hk
    have h1 : k ≠ Obj.logSuppressed := fun e => hk (by rw [e]; simp [logCounters])
    rw [State.obj_count_other _ _ h1]
    exact h0 k hk

theorem countLog_untouched (key sev code site unit : Nat) (detail : Bytes) (s : State) :
    Untouched (key :: logCounters) s (countLog key sev code site unit detail s) := by
  unfold countLog
  intro k hk
  rw [logEvent_untouched _ _ _ _ _ _ _ k (fun h => hk (List.mem_cons_of_mem _ h))]
  exact State.obj_count_other _ _ (fun e => hk (by rw [e]; exact List.mem_cons_self ..))

/-- The counter of a logged event advances, modulo its width. -/
theorem countLog_obj (key sev code site unit : Nat) (detail : Bytes) (s : State) (h : key ∉ logCounters) :
    (countLog key sev code site unit detail s).obj key = (s.obj key + 1) % 2 ^ objBits key % 2 ^ 64 := by
  unfold countLog
  rw [logEvent_untouched _ _ _ _ _ _ _ key h]
  exact State.obj_setObj ..

/-- A log entry leaves the device state alone. -/
theorem logEvent_dev (key sev code site unit : Nat) (detail : Bytes) (s : State) :
    (logEvent key sev code site unit detail s).dev = s.dev :=
  (logEvent_keeps key sev code site unit detail s).dev (by decide)

theorem countLog_dev (key sev code site unit : Nat) (detail : Bytes) (s : State) :
    (countLog key sev code site unit detail s).dev = s.dev :=
  (countLog_keeps key sev code site unit detail s).dev (by decide)

theorem lockTest_dev (s : State) : (lockTest s).dev = s.dev := (lockTest_keeps s).dev (by decide)
theorem stepPending_dev (s : State) : (stepPending s).dev = s.dev := (stepPending_keeps s).dev (by decide)

/-- Entering a state leaves the device in it, with the rest of the device record as it was. -/
theorem enterState_dev (n : Nat) (s : State) : (enterState n s).dev = { s.dev with state := n } := by
  unfold enterState
  split
  · next h => cases hs : s.dev; rw [hs] at h; simp at h; simp [h]
  · dsimp only
    rw [(traceMake_keeps ..).dev (by decide)]
    split <;> split <;> simp [stepPending_dev, lockTest_dev]

/-- Entering Standby or a state above Held touches no object but those of a trace record. -/
theorem enterState_untouched (n : Nat) (h : n = 1 ∨ (4 ≤ n ∧ n ≤ 7)) (s : State) : Untouched logCounters s (enterState n s) := by
  unfold enterState
  split
  · exact Untouched.refl _ _
  · dsimp only
    rw [if_neg (by omega), if_neg (by omega)]
    exact Untouched.trans (l := logCounters) (fun _ _ => rfl) (traceMake_untouched _ _ _ _ _) (fun x h => h)

/-- The entry just written is the log's last. -/
theorem logWrite_last (key sev code site unit flags : Nat) (detail : Bytes) (s : State) :
    ∃ e, (logWrite key sev code site unit flags detail s).log.entries.getLast? = some e ∧ e.key = key ∧ e.sev = sev ∧
      e.code = code ∧ e.site = site ∧ e.unit = unit ∧ e.detail = fitBytes 30 detail := by
  unfold logWrite
  dsimp only
  rw [(traceMake_keeps ..).log (by decide)]
  split
  · rw [(State_count_keeps ..).log (by decide)]
    exact ⟨_, by simp; rfl, rfl, rfl, rfl, rfl, rfl, rfl⟩
  · exact ⟨_, by simp; rfl, rfl, rfl, rfl, rfl, rfl, rfl⟩

/-- A logged event's entry is the newest (R368), unless the second has had sixteen of its identity (R370). -/
theorem logEvent_logged (key sev code site unit : Nat) (detail : Bytes) (s : State) :
    Logged key sev code site unit detail s (logEvent key sev code site unit detail s) := by
  intro h
  have hw : (secondRow (key, site, unit, code)
      (if s.beat / 1000000000 = s.log.secondNo then s else closeSecond s).log.second).1 < 16 := by
    split
    · next e => exact Nat.lt_of_not_le (fun g => h ⟨e, g⟩)
    · simp [closeSecond, secondRow]
  unfold logEvent
  dsimp only
  rw [if_pos hw]
  exact logWrite_last ..

theorem countLog_logged (key sev code site unit : Nat) (detail : Bytes) (s : State) :
    Logged key sev code site unit detail s (countLog key sev code site unit detail s) := by
  have h := logEvent_logged key sev code site unit detail (s.count key 1)
  unfold Logged at h ⊢
  rw [(State_count_keeps ..).log (by decide), (State_count_keeps ..).beat (by decide)] at h
  exact h

end Sys2Proof.Machine
end

