-- ==== Sys2Proof/Laws/KeepsFlags.lean ====
section
/-! SUPPORT. Keeps, for every operation of Machine/Flags.lean that answers a state. -/

set_option linter.all false

namespace Sys2Proof.Machine

theorem raiseCore_keeps (a0 a1) (s : State) : Keeps 16 s (raiseCore a0 a1 s) := by
  unfold raiseCore
  try dsimp only
  repeat' (first
    | with_reducible apply Keeps.refl
    | with_reducible assumption
    | (with_reducible apply State_setCore_keeps_k; decide)
    | with_reducible apply Keeps.foldl
    | (intro x a hx; beta_reduce; beta_reduce at hx)
    | with_reducible apply Keeps.foldlp
    | with_reducible apply Keeps.foldlq
    | split)
theorem raiseCore_keeps_k {m} {s0 : State} {a0 a1} {s : State} (e : 16 ||| m = m) (h : Keeps m s0 s) :
    Keeps m s0 (raiseCore a0 a1 s) := h.tr ((raiseCore_keeps a0 a1 s).mono e)

theorem raiseWhip_keeps (a0 a1) (s : State) : Keeps 128 s (raiseWhip a0 a1 s) := by
  unfold raiseWhip
  try dsimp only
  repeat' (first
    | with_reducible apply Keeps.refl
    | with_reducible assumption
    | (with_reducible apply State_setWhip_keeps_k; decide)
    | with_reducible apply Keeps.foldl
    | (intro x a hx; beta_reduce; beta_reduce at hx)
    | with_reducible apply Keeps.foldlp
    | with_reducible apply Keeps.foldlq
    | split)
theorem raiseWhip_keeps_k {m} {s0 : State} {a0 a1} {s : State} (e : 128 ||| m = m) (h : Keeps m s0 s) :
    Keeps m s0 (raiseWhip a0 a1 s) := h.tr ((raiseWhip_keeps a0 a1 s).mono e)

end Sys2Proof.Machine
end

