-- ==== Sys2Proof/Laws/KeepsFrames.lean ====
section
/-! SUPPORT. Keeps, for every operation of Machine/Frames.lean that answers a state. -/

set_option linter.all false

namespace Sys2Proof.Machine

theorem modOp_keeps (a0 a1) (s : State) : Keeps 1048576 s (modOp a0 a1 s) := by
  unfold modOp
  try dsimp only
  repeat' (first
    | with_reducible apply Keeps.refl
    | with_reducible assumption
    | with_reducible apply Keeps.foldl
    | (intro x a hx; beta_reduce; beta_reduce at hx)
    | with_reducible apply Keeps.foldlp
    | with_reducible apply Keeps.foldlq
    | split
    | (with_reducible apply Keeps.u1048576; decide))
theorem modOp_keeps_k {m} {s0 : State} {a0 a1} {s : State} (e : 1048576 ||| m = m) (h : Keeps m s0 s) :
    Keeps m s0 (modOp a0 a1 s) := h.tr ((modOp_keeps a0 a1 s).mono e)

theorem opFrameDone_keeps (a0) (s : State) : Keeps 1048576 s (opFrameDone a0 s) := by
  unfold opFrameDone
  try dsimp only
  repeat' (first
    | with_reducible apply Keeps.refl
    | with_reducible assumption
    | (with_reducible apply modOp_keeps_k; decide)
    | with_reducible apply Keeps.foldl
    | (intro x a hx; beta_reduce; beta_reduce at hx)
    | with_reducible apply Keeps.foldlp
    | with_reducible apply Keeps.foldlq
    | split)
theorem opFrameDone_keeps_k {m} {s0 : State} {a0} {s : State} (e : 1048576 ||| m = m) (h : Keeps m s0 s) :
    Keeps m s0 (opFrameDone a0 s) := h.tr ((opFrameDone_keeps a0 s).mono e)

theorem chanFrameDone_keeps (a0 a1) (s : State) : Keeps 1048592 s (chanFrameDone a0 a1 s) := by
  unfold chanFrameDone
  try dsimp only
  repeat' (first
    | with_reducible apply Keeps.refl
    | with_reducible assumption
    | (with_reducible apply opFrameDone_keeps_k; decide)
    | (with_reducible apply State_setCore_keeps_k; decide)
    | with_reducible apply Keeps.foldl
    | (intro x a hx; beta_reduce; beta_reduce at hx)
    | with_reducible apply Keeps.foldlp
    | with_reducible apply Keeps.foldlq
    | split)
theorem chanFrameDone_keeps_k {m} {s0 : State} {a0 a1} {s : State} (e : 1048592 ||| m = m) (h : Keeps m s0 s) :
    Keeps m s0 (chanFrameDone a0 a1 s) := h.tr ((chanFrameDone_keeps a0 a1 s).mono e)

theorem opFail_keeps (a0 a1 a2) (s : State) : Keeps 1048576 s (opFail a0 a1 a2 s) := by
  unfold opFail
  try dsimp only
  repeat' (first
    | with_reducible apply Keeps.refl
    | with_reducible assumption
    | (with_reducible apply modOp_keeps_k; decide)
    | with_reducible apply Keeps.foldl
    | (intro x a hx; beta_reduce; beta_reduce at hx)
    | with_reducible apply Keeps.foldlp
    | with_reducible apply Keeps.foldlq
    | split)
theorem opFail_keeps_k {m} {s0 : State} {a0 a1 a2} {s : State} (e : 1048576 ||| m = m) (h : Keeps m s0 s) :
    Keeps m s0 (opFail a0 a1 a2 s) := h.tr ((opFail_keeps a0 a1 a2 s).mono e)

theorem pathLost_keeps (a0) (s : State) : Keeps 1048594 s (pathLost a0 s) := by
  unfold pathLost
  try dsimp only
  repeat' (first
    | with_reducible apply Keeps.refl
    | with_reducible assumption
    | (with_reducible apply chanFrameDone_keeps_k; decide)
    | (with_reducible apply opFail_keeps_k; decide)
    | (with_reducible apply State_count_keeps_k; decide)
    | with_reducible apply Keeps.foldl
    | (intro x a hx; beta_reduce; beta_reduce at hx)
    | with_reducible apply Keeps.foldlp
    | with_reducible apply Keeps.foldlq
    | split)
theorem pathLost_keeps_k {m} {s0 : State} {a0} {s : State} (e : 1048594 ||| m = m) (h : Keeps m s0 s) :
    Keeps m s0 (pathLost a0 s) := h.tr ((pathLost_keeps a0 s).mono e)

theorem enqueueFrame_keeps (a0 a1) (s : State) : Keeps 1024 s (enqueueFrame a0 a1 s) := by
  unfold enqueueFrame
  try dsimp only
  repeat' (first
    | with_reducible apply Keeps.refl
    | with_reducible assumption
    | (with_reducible apply State_setStr_keeps_k; decide)
    | with_reducible apply Keeps.foldl
    | (intro x a hx; beta_reduce; beta_reduce at hx)
    | with_reducible apply Keeps.foldlp
    | with_reducible apply Keeps.foldlq
    | split)
theorem enqueueFrame_keeps_k {m} {s0 : State} {a0 a1} {s : State} (e : 1024 ||| m = m) (h : Keeps m s0 s) :
    Keeps m s0 (enqueueFrame a0 a1 s) := h.tr ((enqueueFrame_keeps a0 a1 s).mono e)

theorem sendWinFrame_keeps (a0 a1 a2 a3 a4 a5 a6 a7 a8 a9) (s : State) : Keeps 1049618 s (sendWinFrame a0 a1 a2 a3 a4 a5 a6 a7 a8 a9 s) := by
  unfold sendWinFrame
  try dsimp only
  repeat' (first
    | with_reducible apply Keeps.refl
    | with_reducible assumption
    | (with_reducible apply pathLost_keeps_k; decide)
    | (with_reducible apply enqueueFrame_keeps_k; decide)
    | with_reducible apply Keeps.foldl
    | (intro x a hx; beta_reduce; beta_reduce at hx)
    | with_reducible apply Keeps.foldlp
    | with_reducible apply Keeps.foldlq
    | split)
theorem sendWinFrame_keeps_k {m} {s0 : State} {a0 a1 a2 a3 a4 a5 a6 a7 a8 a9} {s : State} (e : 1049618 ||| m = m) (h : Keeps m s0 s) :
    Keeps m s0 (sendWinFrame a0 a1 a2 a3 a4 a5 a6 a7 a8 a9 s) := h.tr ((sendWinFrame_keeps a0 a1 a2 a3 a4 a5 a6 a7 a8 a9 s).mono e)

theorem sendFrame_keeps (a0 a1 a2 a3 a4 a5 a6 a7 a8) (s : State) : Keeps 1049618 s (sendFrame a0 a1 a2 a3 a4 a5 a6 a7 a8 s) := by
  unfold sendFrame
  try dsimp only
  repeat' (first
    | with_reducible apply Keeps.refl
    | with_reducible assumption
    | (with_reducible apply sendWinFrame_keeps_k; decide)
    | with_reducible apply Keeps.foldl
    | (intro x a hx; beta_reduce; beta_reduce at hx)
    | with_reducible apply Keeps.foldlp
    | with_reducible apply Keeps.foldlq
    | split)
theorem sendFrame_keeps_k {m} {s0 : State} {a0 a1 a2 a3 a4 a5 a6 a7 a8} {s : State} (e : 1049618 ||| m = m) (h : Keeps m s0 s) :
    Keeps m s0 (sendFrame a0 a1 a2 a3 a4 a5 a6 a7 a8 s) := h.tr ((sendFrame_keeps a0 a1 a2 a3 a4 a5 a6 a7 a8 s).mono e)

theorem sendWrite_keeps (a0 a1 a2 a3 a4 a5 a6) (s : State) : Keeps 1049618 s (sendWrite a0 a1 a2 a3 a4 a5 a6 s) := by
  induction a0 generalizing a1 a2 a3 a4 a5 a6 s with
  | zero =>
    unfold sendWrite
    try dsimp only
    repeat' (first
      | with_reducible apply Keeps.refl
      | with_reducible assumption
      | (with_reducible apply ih)
      | (with_reducible apply sendFrame_keeps_k; decide)
      | with_reducible apply Keeps.foldl
      | (intro x a hx; beta_reduce; beta_reduce at hx)
      | with_reducible apply Keeps.foldlp
      | with_reducible apply Keeps.foldlq
      | split)
  | succ n_ ih' =>
    have ih {s0 : State} {a1 a2 a3 a4 a5 a6} {s : State} (h : Keeps 1049618 s0 s) : Keeps 1049618 s0 (sendWrite n_ a1 a2 a3 a4 a5 a6 s) := h.tr (ih' a1 a2 a3 a4 a5 a6 s)
    unfold sendWrite
    try dsimp only
    repeat' (first
      | with_reducible apply Keeps.refl
      | with_reducible assumption
      | (with_reducible apply ih)
      | (with_reducible apply sendFrame_keeps_k; decide)
      | with_reducible apply Keeps.foldl
      | (intro x a hx; beta_reduce; beta_reduce at hx)
      | with_reducible apply Keeps.foldlp
      | with_reducible apply Keeps.foldlq
      | split)
theorem sendWrite_keeps_k {m} {s0 : State} {a0 a1 a2 a3 a4 a5 a6} {s : State} (e : 1049618 ||| m = m) (h : Keeps m s0 s) :
    Keeps m s0 (sendWrite a0 a1 a2 a3 a4 a5 a6 s) := h.tr ((sendWrite_keeps a0 a1 a2 a3 a4 a5 a6 s).mono e)

theorem freeCredit_keeps (a0 a1) (s : State) : Keeps 1024 s (freeCredit a0 a1 s) := by
  unfold freeCredit
  try dsimp only
  repeat' (first
    | with_reducible apply Keeps.refl
    | with_reducible assumption
    | (with_reducible apply State_setStr_keeps_k; decide)
    | with_reducible apply Keeps.foldl
    | (intro x a hx; beta_reduce; beta_reduce at hx)
    | with_reducible apply Keeps.foldlp
    | with_reducible apply Keeps.foldlq
    | split)
theorem freeCredit_keeps_k {m} {s0 : State} {a0 a1} {s : State} (e : 1024 ||| m = m) (h : Keeps m s0 s) :
    Keeps m s0 (freeCredit a0 a1 s) := h.tr ((freeCredit_keeps a0 a1 s).mono e)

theorem storeClean_keeps (a0 a1) (s : State) : Keeps 274877906952 s (storeClean a0 a1 s) := by
  unfold storeClean
  try dsimp only
  repeat' (first
    | with_reducible apply Keeps.refl
    | with_reducible assumption
    | (with_reducible apply State_store_keeps_k; decide)
    | with_reducible apply Keeps.foldl
    | (intro x a hx; beta_reduce; beta_reduce at hx)
    | with_reducible apply Keeps.foldlp
    | with_reducible apply Keeps.foldlq
    | split
    | (with_reducible apply Keeps.u274877906944; decide))
theorem storeClean_keeps_k {m} {s0 : State} {a0 a1} {s : State} (e : 274877906952 ||| m = m) (h : Keeps m s0 s) :
    Keeps m s0 (storeClean a0 a1 s) := h.tr ((storeClean_keeps a0 a1 s).mono e)

theorem State_modWin_keeps (a1 a2) (s : State) : Keeps 32 s (State.modWin s a1 a2) := by
  unfold State.modWin
  try dsimp only
  repeat' (first
    | with_reducible apply Keeps.refl
    | with_reducible assumption
    | with_reducible apply Keeps.foldl
    | (intro x a hx; beta_reduce; beta_reduce at hx)
    | with_reducible apply Keeps.foldlp
    | with_reducible apply Keeps.foldlq
    | split
    | (with_reducible apply Keeps.u32; decide))
theorem State_modWin_keeps_k {m} {s0 : State} {a1 a2} {s : State} (e : 32 ||| m = m) (h : Keeps m s0 s) :
    Keeps m s0 (State.modWin s a1 a2) := h.tr ((State_modWin_keeps a1 a2 s).mono e)

theorem endCore_keeps (a0 a1) (s : State) : Keeps 48 s (endCore a0 a1 s) := by
  unfold endCore
  try dsimp only
  repeat' (first
    | with_reducible apply Keeps.refl
    | with_reducible assumption
    | (with_reducible apply State_modWin_keeps_k; decide)
    | (with_reducible apply State_setCore_keeps_k; decide)
    | with_reducible apply Keeps.foldl
    | (intro x a hx; beta_reduce; beta_reduce at hx)
    | with_reducible apply Keeps.foldlp
    | with_reducible apply Keeps.foldlq
    | split)
theorem endCore_keeps_k {m} {s0 : State} {a0 a1} {s : State} (e : 48 ||| m = m) (h : Keeps m s0 s) :
    Keeps m s0 (endCore a0 a1 s) := h.tr ((endCore_keeps a0 a1 s).mono e)

theorem endWindow_keeps (a0 a1) (s : State) : Keeps 48 s (endWindow a0 a1 s) := by
  unfold endWindow
  try dsimp only
  repeat' (first
    | with_reducible apply Keeps.refl
    | with_reducible assumption
    | (with_reducible apply endCore_keeps_k; decide)
    | with_reducible apply Keeps.foldl
    | (intro x a hx; beta_reduce; beta_reduce at hx)
    | with_reducible apply Keeps.foldlp
    | with_reducible apply Keeps.foldlq
    | split)
theorem endWindow_keeps_k {m} {s0 : State} {a0 a1} {s : State} (e : 48 ||| m = m) (h : Keeps m s0 s) :
    Keeps m s0 (endWindow a0 a1 s) := h.tr ((endWindow_keeps a0 a1 s).mono e)

theorem sramRead_keeps (a0) (s : State) : Keeps 1099511627778 s (sramRead a0 s) := by
  unfold sramRead
  try dsimp only
  repeat' (first
    | with_reducible apply Keeps.refl
    | with_reducible assumption
    | (with_reducible apply State_count_keeps_k; decide)
    | (with_reducible apply State_drawn_keeps_k; decide)
    | with_reducible apply Keeps.foldl
    | (intro x a hx; beta_reduce; beta_reduce at hx)
    | with_reducible apply Keeps.foldlp
    | with_reducible apply Keeps.foldlq
    | split)
theorem sramRead_keeps_k {m} {s0 : State} {a0} {s : State} (e : 1099511627778 ||| m = m) (h : Keeps m s0 s) :
    Keeps m s0 (sramRead a0 s) := h.tr ((sramRead_keeps a0 s).mono e)

theorem sramBad_keeps (a0 a1) (s : State) : Keeps 206158430210 s (sramBad a0 a1 s) := by
  unfold sramBad
  try dsimp only
  repeat' (first
    | with_reducible apply Keeps.refl
    | with_reducible assumption
    | (with_reducible apply countLog_keeps_k; decide)
    | with_reducible apply Keeps.foldl
    | (intro x a hx; beta_reduce; beta_reduce at hx)
    | with_reducible apply Keeps.foldlp
    | with_reducible apply Keeps.foldlq
    | split)
theorem sramBad_keeps_k {m} {s0 : State} {a0 a1} {s : State} (e : 206158430210 ||| m = m) (h : Keeps m s0 s) :
    Keeps m s0 (sramBad a0 a1 s) := h.tr ((sramBad_keeps a0 a1 s).mono e)

theorem emitFrame_keeps (a0 a1) (s : State) : Keeps 549755814912 s (emitFrame a0 a1 s) := by
  unfold emitFrame
  try dsimp only
  repeat' (first
    | with_reducible apply Keeps.refl
    | with_reducible assumption
    | (with_reducible apply State_setStr_keeps_k; decide)
    | (with_reducible apply State_emit_keeps_k; decide)
    | with_reducible apply Keeps.foldl
    | (intro x a hx; beta_reduce; beta_reduce at hx)
    | with_reducible apply Keeps.foldlp
    | with_reducible apply Keeps.foldlq
    | split)
theorem emitFrame_keeps_k {m} {s0 : State} {a0 a1} {s : State} (e : 549755814912 ||| m = m) (h : Keeps m s0 s) :
    Keeps m s0 (emitFrame a0 a1 s) := h.tr ((emitFrame_keeps a0 a1 s).mono e)

end Sys2Proof.Machine
end

