-- ==== Sys2Proof/Laws/KeepsReduce.lean ====
section
/-! SUPPORT. Keeps, for every operation of Machine/Reduce.lean that answers a state. -/

set_option linter.all false

namespace Sys2Proof.Machine

theorem landWrite_keeps (a0 a1 a2) (s : State) : Keeps 274877907016 s (landWrite a0 a1 a2 s) := by
  unfold landWrite
  try dsimp only
  repeat' (first
    | with_reducible apply Keeps.refl
    | with_reducible assumption
    | (with_reducible apply State_setDie_keeps_k; decide)
    | (with_reducible apply storeClean_keeps_k; decide)
    | with_reducible apply Keeps.foldl
    | (intro x a hx; beta_reduce; beta_reduce at hx)
    | with_reducible apply Keeps.foldlp
    | with_reducible apply Keeps.foldlq
    | split)
theorem landWrite_keeps_k {m} {s0 : State} {a0 a1 a2} {s : State} (e : 274877907016 ||| m = m) (h : Keeps m s0 s) :
    Keeps m s0 (landWrite a0 a1 a2 s) := h.tr ((landWrite_keeps a0 a1 a2 s).mono e)

theorem arrive_keeps (a0 a1 a2) (s : State) : Keeps 16 s (arrive a0 a1 a2 s) := by
  unfold arrive
  try dsimp only
  repeat' (first
    | with_reducible apply Keeps.refl
    | with_reducible assumption
    | (with_reducible apply State_setCore_keeps_k; decide)
    | with_reducible apply Keeps.foldl
    | (intro x a hx; beta_reduce; beta_reduce at hx)
    | with_reducible apply Keeps.foldlp
    | with_reducible apply Keeps.foldlq
    | split)
theorem arrive_keeps_k {m} {s0 : State} {a0 a1 a2} {s : State} (e : 16 ||| m = m) (h : Keeps m s0 s) :
    Keeps m s0 (arrive a0 a1 a2 s) := h.tr ((arrive_keeps a0 a1 a2 s).mono e)

theorem applyFlag_keeps (a0 a1) (s : State) : Keeps 16 s (applyFlag a0 a1 s) := by
  unfold applyFlag
  try dsimp only
  repeat' (first
    | with_reducible apply Keeps.refl
    | with_reducible assumption
    | (with_reducible apply arrive_keeps_k; decide)
    | (with_reducible apply State_setCore_keeps_k; decide)
    | with_reducible apply Keeps.foldl
    | (intro x a hx; beta_reduce; beta_reduce at hx)
    | with_reducible apply Keeps.foldlp
    | with_reducible apply Keeps.foldlq
    | split)
theorem applyFlag_keeps_k {m} {s0 : State} {a0 a1} {s : State} (e : 16 ||| m = m) (h : Keeps m s0 s) :
    Keeps m s0 (applyFlag a0 a1 s) := h.tr ((applyFlag_keeps a0 a1 s).mono e)

theorem settleFlags_keeps (a0 a1 a2) (s : State) : Keeps 80 s (settleFlags a0 a1 a2 s) := by
  unfold settleFlags
  try dsimp only
  repeat' (first
    | with_reducible apply Keeps.refl
    | with_reducible assumption
    | (with_reducible apply State_setDie_keeps_k; decide)
    | (with_reducible apply applyFlag_keeps_k; decide)
    | with_reducible apply Keeps.foldl
    | (intro x a hx; beta_reduce; beta_reduce at hx)
    | with_reducible apply Keeps.foldlp
    | with_reducible apply Keeps.foldlq
    | split)
theorem settleFlags_keeps_k {m} {s0 : State} {a0 a1 a2} {s : State} (e : 80 ||| m = m) (h : Keeps m s0 s) :
    Keeps m s0 (settleFlags a0 a1 a2 s) := h.tr ((settleFlags_keeps a0 a1 a2 s).mono e)

theorem landSum_keeps (a0 a1 a2 a3) (s : State) : Keeps 274877907066 s (landSum a0 a1 a2 a3 s) := by
  unfold landSum
  try dsimp only
  repeat' (first
    | with_reducible apply Keeps.refl
    | with_reducible assumption
    | (with_reducible apply landWrite_keeps_k; decide)
    | (with_reducible apply State_modWin_keeps_k; decide)
    | (with_reducible apply State_count_keeps_k; decide)
    | (with_reducible apply settleFlags_keeps_k; decide)
    | with_reducible apply Keeps.foldl
    | (intro x a hx; beta_reduce; beta_reduce at hx)
    | with_reducible apply Keeps.foldlp
    | with_reducible apply Keeps.foldlq
    | split)
theorem landSum_keeps_k {m} {s0 : State} {a0 a1 a2 a3} {s : State} (e : 274877907066 ||| m = m) (h : Keeps m s0 s) :
    Keeps m s0 (landSum a0 a1 a2 a3 s) := h.tr ((landSum_keeps a0 a1 a2 a3 s).mono e)

theorem holdFlag_keeps (a0 a1 a2) (s : State) : Keeps 80 s (holdFlag a0 a1 a2 s) := by
  unfold holdFlag
  try dsimp only
  repeat' (first
    | with_reducible apply Keeps.refl
    | with_reducible assumption
    | (with_reducible apply State_setDie_keeps_k; decide)
    | (with_reducible apply applyFlag_keeps_k; decide)
    | with_reducible apply Keeps.foldl
    | (intro x a hx; beta_reduce; beta_reduce at hx)
    | with_reducible apply Keeps.foldlp
    | with_reducible apply Keeps.foldlq
    | split)
theorem holdFlag_keeps_k {m} {s0 : State} {a0 a1 a2} {s : State} (e : 80 ||| m = m) (h : Keeps m s0 s) :
    Keeps m s0 (holdFlag a0 a1 a2 s) := h.tr ((holdFlag_keeps a0 a1 a2 s).mono e)

theorem releasePartial_keeps (a0 a1 a2) (s : State) : Keeps 1049616 s (releasePartial a0 a1 a2 s) := by
  unfold releasePartial
  try dsimp only
  repeat' (first
    | with_reducible apply Keeps.refl
    | with_reducible assumption
    | (with_reducible apply chanFrameDone_keeps_k; decide)
    | (with_reducible apply freeCredit_keeps_k; decide)
    | with_reducible apply Keeps.foldl
    | (intro x a hx; beta_reduce; beta_reduce at hx)
    | with_reducible apply Keeps.foldlp
    | with_reducible apply Keeps.foldlq
    | split)
theorem releasePartial_keeps_k {m} {s0 : State} {a0 a1 a2} {s : State} (e : 1049616 ||| m = m) (h : Keeps m s0 s) :
    Keeps m s0 (releasePartial a0 a1 a2 s) := h.tr ((releasePartial_keeps a0 a1 a2 s).mono e)

theorem setChunk_keeps (a0 a1) (s : State) : Keeps 64 s (setChunk a0 a1 s) := by
  unfold setChunk
  try dsimp only
  repeat' (first
    | with_reducible apply Keeps.refl
    | with_reducible assumption
    | (with_reducible apply State_setDie_keeps_k; decide)
    | with_reducible apply Keeps.foldl
    | (intro x a hx; beta_reduce; beta_reduce at hx)
    | with_reducible apply Keeps.foldlp
    | with_reducible apply Keeps.foldlq
    | split)
theorem setChunk_keeps_k {m} {s0 : State} {a0 a1} {s : State} (e : 64 ||| m = m) (h : Keeps m s0 s) :
    Keeps m s0 (setChunk a0 a1 s) := h.tr ((setChunk_keeps a0 a1 s).mono e)

theorem reduceComplete_keeps (a0) (s : State) : Keeps 274877907066 s (reduceComplete a0 s) := by
  unfold reduceComplete
  try dsimp only
  repeat' (first
    | with_reducible apply Keeps.refl
    | with_reducible assumption
    | (with_reducible apply State_setDie_keeps_k; decide)
    | (with_reducible apply landSum_keeps_k; decide)
    | with_reducible apply Keeps.foldl
    | (intro x a hx; beta_reduce; beta_reduce at hx)
    | with_reducible apply Keeps.foldlp
    | with_reducible apply Keeps.foldlq
    | split)
theorem reduceComplete_keeps_k {m} {s0 : State} {a0} {s : State} (e : 274877907066 ||| m = m) (h : Keeps m s0 s) :
    Keeps m s0 (reduceComplete a0 s) := h.tr ((reduceComplete_keeps a0 s).mono e)

theorem raiseSum_keeps (a0 a1 a2) (s : State) : Keeps 16 s (raiseSum a0 a1 a2 s) := by
  unfold raiseSum
  try dsimp only
  repeat' (first
    | with_reducible apply Keeps.refl
    | with_reducible assumption
    | (with_reducible apply raiseCore_keeps_k; decide)
    | with_reducible apply Keeps.foldl
    | (intro x a hx; beta_reduce; beta_reduce at hx)
    | with_reducible apply Keeps.foldlp
    | with_reducible apply Keeps.foldlq
    | split)
theorem raiseSum_keeps_k {m} {s0 : State} {a0 a1 a2} {s : State} (e : 16 ||| m = m) (h : Keeps m s0 s) :
    Keeps m s0 (raiseSum a0 a1 a2 s) := h.tr ((raiseSum_keeps a0 a1 a2 s).mono e)

theorem addPartial_keeps (a0 a1 a2) (s : State) : Keeps 1049682 s (addPartial a0 a1 a2 s) := by
  unfold addPartial
  try dsimp only
  repeat' (first
    | with_reducible apply Keeps.refl
    | with_reducible assumption
    | (with_reducible apply State_setDie_keeps_k; decide)
    | (with_reducible apply setChunk_keeps_k; decide)
    | (with_reducible apply raiseSum_keeps_k; decide)
    | (with_reducible apply State_count_keeps_k; decide)
    | (with_reducible apply releasePartial_keeps_k; decide)
    | with_reducible apply Keeps.foldl
    | (intro x a hx; beta_reduce; beta_reduce at hx)
    | with_reducible apply Keeps.foldlp
    | with_reducible apply Keeps.foldlq
    | split)
theorem addPartial_keeps_k {m} {s0 : State} {a0 a1 a2} {s : State} (e : 1049682 ||| m = m) (h : Keeps m s0 s) :
    Keeps m s0 (addPartial a0 a1 a2 s) := h.tr ((addPartial_keeps a0 a1 a2 s).mono e)

theorem drainSums_keeps (a0 a1) (s : State) : Keeps 274878956666 s (drainSums a0 a1 s) := by
  induction a0 generalizing a1 s with
  | zero =>
    unfold drainSums
    try dsimp only
    repeat' (first
      | with_reducible apply Keeps.refl
      | with_reducible assumption
      | (with_reducible apply ih)
      | (with_reducible apply reduceComplete_keeps_k; decide)
      | (with_reducible apply addPartial_keeps_k; decide)
      | with_reducible apply Keeps.foldl
      | (intro x a hx; beta_reduce; beta_reduce at hx)
      | with_reducible apply Keeps.foldlp
      | with_reducible apply Keeps.foldlq
      | split)
  | succ n_ ih' =>
    have ih {s0 : State} {a1} {s : State} (h : Keeps 274878956666 s0 s) : Keeps 274878956666 s0 (drainSums n_ a1 s) := h.tr (ih' a1 s)
    unfold drainSums
    try dsimp only
    repeat' (first
      | with_reducible apply Keeps.refl
      | with_reducible assumption
      | (with_reducible apply ih)
      | (with_reducible apply reduceComplete_keeps_k; decide)
      | (with_reducible apply addPartial_keeps_k; decide)
      | with_reducible apply Keeps.foldl
      | (intro x a hx; beta_reduce; beta_reduce at hx)
      | with_reducible apply Keeps.foldlp
      | with_reducible apply Keeps.foldlq
      | split)
theorem drainSums_keeps_k {m} {s0 : State} {a0 a1} {s : State} (e : 274878956666 ||| m = m) (h : Keeps m s0 s) :
    Keeps m s0 (drainSums a0 a1 s) := h.tr ((drainSums_keeps a0 a1 s).mono e)

theorem rpartArrive_keeps (a0 a1 a2 a3 a4 a5) (s : State) : Keeps 274878956666 s (rpartArrive a0 a1 a2 a3 a4 a5 s) := by
  unfold rpartArrive
  try dsimp only
  repeat' (first
    | with_reducible apply Keeps.refl
    | with_reducible assumption
    | (with_reducible apply State_setDie_keeps_k; decide)
    | (with_reducible apply setChunk_keeps_k; decide)
    | (with_reducible apply drainSums_keeps_k; decide)
    | (with_reducible apply State_count_keeps_k; decide)
    | (with_reducible apply releasePartial_keeps_k; decide)
    | with_reducible apply Keeps.foldl
    | (intro x a hx; beta_reduce; beta_reduce at hx)
    | with_reducible apply Keeps.foldlp
    | with_reducible apply Keeps.foldlq
    | split)
theorem rpartArrive_keeps_k {m} {s0 : State} {a0 a1 a2 a3 a4 a5} {s : State} (e : 274878956666 ||| m = m) (h : Keeps m s0 s) :
    Keeps m s0 (rpartArrive a0 a1 a2 a3 a4 a5 s) := h.tr ((rpartArrive_keeps a0 a1 a2 a3 a4 a5 s).mono e)

theorem discardPartials_keeps (a0) (s : State) : Keeps 274878956666 s (discardPartials a0 s) := by
  unfold discardPartials
  try dsimp only
  repeat' (first
    | with_reducible apply Keeps.refl
    | with_reducible assumption
    | (with_reducible apply State_setDie_keeps_k; decide)
    | (with_reducible apply drainSums_keeps_k; decide)
    | (with_reducible apply releasePartial_keeps_k; decide)
    | (with_reducible apply settleFlags_keeps_k; decide)
    | with_reducible apply Keeps.foldl
    | (intro x a hx; beta_reduce; beta_reduce at hx)
    | with_reducible apply Keeps.foldlp
    | with_reducible apply Keeps.foldlq
    | split)
theorem discardPartials_keeps_k {m} {s0 : State} {a0} {s : State} (e : 274878956666 ||| m = m) (h : Keeps m s0 s) :
    Keeps m s0 (discardPartials a0 s) := h.tr ((discardPartials_keeps a0 s).mono e)

end Sys2Proof.Machine
end

