-- ==== Sys2Proof/Laws/KeepsKernel.lean ====
section
/-! SUPPORT. Keeps, for every operation of Machine/Kernel.lean that answers a state. -/

set_option linter.all false

namespace Sys2Proof.Machine

theorem commitCore_keeps (a0 a1) (s : State) : Keeps 274877907064 s (commitCore a0 a1 s) := by
  unfold commitCore
  try dsimp only
  repeat' (first
    | with_reducible apply Keeps.refl
    | with_reducible assumption
    | (with_reducible apply landWrite_keeps_k; decide)
    | (with_reducible apply State_modWin_keeps_k; decide)
    | (with_reducible apply State_setCore_keeps_k; decide)
    | with_reducible apply Keeps.foldl
    | (intro x a hx; beta_reduce; beta_reduce at hx)
    | with_reducible apply Keeps.foldlp
    | with_reducible apply Keeps.foldlq
    | split)
theorem commitCore_keeps_k {m} {s0 : State} {a0 a1} {s : State} (e : 274877907064 ||| m = m) (h : Keeps m s0 s) :
    Keeps m s0 (commitCore a0 a1 s) := h.tr ((commitCore_keeps a0 a1 s).mono e)

theorem opFlagSet_keeps (a0 a1 a2 a3 a4) (s : State) : Keeps 1049682 s (opFlagSet a0 a1 a2 a3 a4 s) := by
  unfold opFlagSet
  try dsimp only
  repeat' (first
    | with_reducible apply Keeps.refl
    | with_reducible assumption
    | (with_reducible apply sendWinFrame_keeps_k; decide)
    | (with_reducible apply State_setCore_keeps_k; decide)
    | (with_reducible apply holdFlag_keeps_k; decide)
    | with_reducible apply Keeps.foldl
    | (intro x a hx; beta_reduce; beta_reduce at hx)
    | with_reducible apply Keeps.foldlp
    | with_reducible apply Keeps.foldlq
    | split)
theorem opFlagSet_keeps_k {m} {s0 : State} {a0 a1 a2 a3 a4} {s : State} (e : 1049682 ||| m = m) (h : Keeps m s0 s) :
    Keeps m s0 (opFlagSet a0 a1 a2 a3 a4 s) := h.tr ((opFlagSet_keeps a0 a1 a2 a3 a4 s).mono e)

theorem opAclr_keeps (a0 a1 a2 a3 a4 a5 a6 a7) (s : State) : Keeps 48 s (opAclr a0 a1 a2 a3 a4 a5 a6 a7 s) := by
  unfold opAclr
  try dsimp only
  repeat' (first
    | with_reducible apply Keeps.refl
    | with_reducible assumption
    | (with_reducible apply endCore_keeps_k; decide)
    | (with_reducible apply State_setCore_keeps_k; decide)
    | with_reducible apply Keeps.foldl
    | (intro x a hx; beta_reduce; beta_reduce at hx)
    | with_reducible apply Keeps.foldlp
    | with_reducible apply Keeps.foldlq
    | split)
theorem opAclr_keeps_k {m} {s0 : State} {a0 a1 a2 a3 a4 a5 a6 a7} {s : State} (e : 48 ||| m = m) (h : Keeps m s0 s) :
    Keeps m s0 (opAclr a0 a1 a2 a3 a4 a5 a6 a7 s) := h.tr ((opAclr_keeps a0 a1 a2 a3 a4 a5 a6 a7 s).mono e)

theorem moveOn_keeps (n k : Nat) (s : State) : KeepsO 16 s (moveOn n k s) := by
  induction k generalizing s with
  | zero => exact KeepsO.some (Keeps.refl _ _)
  | succ k ih =>
    intro t h
    unfold moveOn at h
    dsimp only at h
    split at h
    · refine Keeps.tr (Keeps.foldl (Keeps.refl _ _) fun x a hx => ?_) (ih _ t h)
      cases nextTick (x.core a) with
      | none => exact hx
      | some c => exact hx.tr ((State_setCore_keeps _ _ _).mono (by decide))
    · cases h
theorem moveOn_keeps_eqk {m} {s0 : State} {n k : Nat} {s t : State} (e : 16 ||| m = m) (h : moveOn n k s = some t)
    (g : Keeps m s0 s) : Keeps m s0 t := g.tr ((moveOn_keeps n k s t h).mono e)

theorem coreAct_keeps (a0 a1 a2) (s : State) : Keeps 16 s (coreAct a0 a1 a2 s) := by
  unfold coreAct
  try dsimp only
  repeat' (first
    | with_reducible apply Keeps.refl
    | with_reducible assumption
    | (with_reducible apply State_setCore_keeps_k; decide)
    | with_reducible apply Keeps.foldl
    | (intro x a hx; beta_reduce; beta_reduce at hx)
    | with_reducible apply Keeps.foldlp
    | with_reducible apply Keeps.foldlq
    | split)
theorem coreAct_keeps_k {m} {s0 : State} {a0 a1 a2} {s : State} (e : 16 ||| m = m) (h : Keeps m s0 s) :
    Keeps m s0 (coreAct a0 a1 a2 s) := h.tr ((coreAct_keeps a0 a1 a2 s).mono e)

theorem mxStep_keeps (a0 a1) (s : State) : Keeps 48 s (mxStep a0 a1 s) := by
  unfold mxStep
  try dsimp only
  repeat' (first
    | with_reducible apply Keeps.refl
    | with_reducible assumption
    | (with_reducible apply endCore_keeps_k; decide)
    | (with_reducible apply raiseCore_keeps_k; decide)
    | (with_reducible apply State_setCore_keeps_k; decide)
    | (with_reducible apply coreAct_keeps_k; decide)
    | with_reducible apply Keeps.foldl
    | (intro x a hx; beta_reduce; beta_reduce at hx)
    | with_reducible apply Keeps.foldlp
    | with_reducible apply Keeps.foldlq
    | split)
theorem mxStep_keeps_k {m} {s0 : State} {a0 a1} {s : State} (e : 48 ||| m = m) (h : Keeps m s0 s) :
    Keeps m s0 (mxStep a0 a1 s) := h.tr ((mxStep_keeps a0 a1 s).mono e)

theorem storeRow_keeps (a0 a1 a2 a3 a4 a5 a6) (s : State) : Keeps 48 s (storeRow a0 a1 a2 a3 a4 a5 a6 s) := by
  unfold storeRow
  try dsimp only
  repeat' (first
    | with_reducible apply Keeps.refl
    | with_reducible assumption
    | (with_reducible apply endCore_keeps_k; decide)
    | (with_reducible apply State_setCore_keeps_k; decide)
    | (with_reducible apply coreAct_keeps_k; decide)
    | with_reducible apply Keeps.foldl
    | (intro x a hx; beta_reduce; beta_reduce at hx)
    | with_reducible apply Keeps.foldlp
    | with_reducible apply Keeps.foldlq
    | split)
theorem storeRow_keeps_k {m} {s0 : State} {a0 a1 a2 a3 a4 a5 a6} {s : State} (e : 48 ||| m = m) (h : Keeps m s0 s) :
    Keeps m s0 (storeRow a0 a1 a2 a3 a4 a5 a6 s) := h.tr ((storeRow_keeps a0 a1 a2 a3 a4 a5 a6 s).mono e)

theorem outStep_keeps (a0 a1 a2) (s : State) : Keeps 48 s (outStep a0 a1 a2 s) := by
  unfold outStep
  try dsimp only
  repeat' (first
    | with_reducible apply Keeps.refl
    | with_reducible assumption
    | (with_reducible apply storeRow_keeps_k; decide)
    | (with_reducible apply endCore_keeps_k; decide)
    | (with_reducible apply raiseCore_keeps_k; decide)
    | (with_reducible apply State_setCore_keeps_k; decide)
    | with_reducible apply Keeps.foldl
    | (intro x a hx; beta_reduce; beta_reduce at hx)
    | with_reducible apply Keeps.foldlp
    | with_reducible apply Keeps.foldlq
    | split)
theorem outStep_keeps_k {m} {s0 : State} {a0 a1 a2} {s : State} (e : 48 ||| m = m) (h : Keeps m s0 s) :
    Keeps m s0 (outStep a0 a1 a2 s) := h.tr ((outStep_keeps a0 a1 a2 s).mono e)

theorem runRows_keeps (a0 a1 a2) (s : State) : Keeps 48 s (runRows a0 a1 a2 s) := by
  induction a0 generalizing a1 a2 s with
  | zero =>
    unfold runRows
    try dsimp only
    repeat' (first
      | with_reducible apply Keeps.refl
      | with_reducible assumption
      | (with_reducible apply ih)
      | (with_reducible apply outStep_keeps_k; decide)
      | (with_reducible apply mxStep_keeps_k; decide)
      | with_reducible apply Keeps.foldl
      | (intro x a hx; beta_reduce; beta_reduce at hx)
      | with_reducible apply Keeps.foldlp
      | with_reducible apply Keeps.foldlq
      | split)
  | succ n_ ih' =>
    have ih {s0 : State} {a1 a2} {s : State} (h : Keeps 48 s0 s) : Keeps 48 s0 (runRows n_ a1 a2 s) := h.tr (ih' a1 a2 s)
    unfold runRows
    try dsimp only
    repeat' (first
      | with_reducible apply Keeps.refl
      | with_reducible assumption
      | (with_reducible apply ih)
      | (with_reducible apply outStep_keeps_k; decide)
      | (with_reducible apply mxStep_keeps_k; decide)
      | with_reducible apply Keeps.foldl
      | (intro x a hx; beta_reduce; beta_reduce at hx)
      | with_reducible apply Keeps.foldlp
      | with_reducible apply Keeps.foldlq
      | split)
theorem runRows_keeps_k {m} {s0 : State} {a0 a1 a2} {s : State} (e : 48 ||| m = m) (h : Keeps m s0 s) :
    Keeps m s0 (runRows a0 a1 a2 s) := h.tr ((runRows_keeps a0 a1 a2 s).mono e)

theorem runCheck_keeps (a0 a1) (s : State) : Keeps 48 s (runCheck a0 a1 s) := by
  unfold runCheck
  try dsimp only
  repeat' (first
    | with_reducible apply Keeps.refl
    | with_reducible assumption
    | (with_reducible apply endCore_keeps_k; decide)
    | (with_reducible apply State_setCore_keeps_k; decide)
    | with_reducible apply Keeps.foldl
    | (intro x a hx; beta_reduce; beta_reduce at hx)
    | with_reducible apply Keeps.foldlp
    | with_reducible apply Keeps.foldlq
    | split)
theorem runCheck_keeps_k {m} {s0 : State} {a0 a1} {s : State} (e : 48 ||| m = m) (h : Keeps m s0 s) :
    Keeps m s0 (runCheck a0 a1 s) := h.tr ((runCheck_keeps a0 a1 s).mono e)

theorem runChecks_keeps (a0 a1) (s : State) : Keeps 48 s (runChecks a0 a1 s) := by
  unfold runChecks
  try dsimp only
  repeat' (first
    | with_reducible apply Keeps.refl
    | with_reducible assumption
    | (with_reducible apply runCheck_keeps_k; decide)
    | with_reducible apply Keeps.foldl
    | (intro x a hx; beta_reduce; beta_reduce at hx)
    | with_reducible apply Keeps.foldlp
    | with_reducible apply Keeps.foldlq
    | split)
theorem runChecks_keeps_k {m} {s0 : State} {a0 a1} {s : State} (e : 48 ||| m = m) (h : Keeps m s0 s) :
    Keeps m s0 (runChecks a0 a1 s) := h.tr ((runChecks_keeps a0 a1 s).mono e)

theorem commitFlags_keeps (a0 a1) (s : State) : Keeps 16 s (commitFlags a0 a1 s) := by
  unfold commitFlags
  try dsimp only
  repeat' (first
    | with_reducible apply Keeps.refl
    | with_reducible assumption
    | (with_reducible apply State_setCore_keeps_k; decide)
    | with_reducible apply Keeps.foldl
    | (intro x a hx; beta_reduce; beta_reduce at hx)
    | with_reducible apply Keeps.foldlp
    | with_reducible apply Keeps.foldlq
    | split)
theorem commitFlags_keeps_k {m} {s0 : State} {a0 a1} {s : State} (e : 16 ||| m = m) (h : Keeps m s0 s) :
    Keeps m s0 (commitFlags a0 a1 s) := h.tr ((commitFlags_keeps a0 a1 s).mono e)

theorem progress_keeps (a0 a1) (s : State) : Keeps 274877907064 s (progress a0 a1 s) := by
  unfold progress
  try dsimp only
  repeat' (first
    | with_reducible apply Keeps.refl
    | with_reducible assumption
    | (with_reducible apply commitCore_keeps_k; decide)
    | (with_reducible apply commitFlags_keeps_k; decide)
    | (with_reducible apply runChecks_keeps_k; decide)
    | (with_reducible apply runRows_keeps_k; decide)
    | with_reducible apply Keeps.foldl
    | (intro x a hx; beta_reduce; beta_reduce at hx)
    | with_reducible apply Keeps.foldlp
    | with_reducible apply Keeps.foldlq
    | split)
theorem progress_keeps_k {m} {s0 : State} {a0 a1} {s : State} (e : 274877907064 ||| m = m) (h : Keeps m s0 s) :
    Keeps m s0 (progress a0 a1 s) := h.tr ((progress_keeps a0 a1 s).mono e)

theorem issue_keeps_k {m} {s0 : State} {i : Issue} {u : SlotUse} {f : Nat → Nat → State → State} {s : State} (e : 274877907064 ||| m = m)
    (hf : ∀ n T x, Keeps m s0 x → Keeps m s0 (f n T x)) (h : Keeps m s0 s) : Keeps m s0 (issue i u f s) := by
  unfold issue
  dsimp only
  split
  · exact h
  cases hm : moveOn i.core.val i.dt s with
  | none => exact h
  | some t =>
    have ht : Keeps m s0 t := h.tr (((moveOn_keeps _ _ _ _ hm).mono (by decide) : Keeps 274877907064 _ _).mono e)
    dsimp only
    split
    · exact h
    have hp : Keeps m s0 (progress i.core.val (t.core i.core.val).tick t) :=
      ht.tr (((progress_keeps _ _ _).mono (by decide) : Keeps 274877907064 _ _).mono e)
    split
    · exact hp
    split
    · exact hp.tr (((endCore_keeps _ _ _).mono (by decide) : Keeps 274877907064 _ _).mono e)
    · refine hf _ _ _ ?_
      split
      · exact hp.tr (((State_setCore_keeps _ _ _).mono (by decide) : Keeps 274877907064 _ _).mono e)
      · exact hp

theorem withRegs_keeps_k {m} {s0 : State} {n T : Nat} {rs : List Nat} {f : List (List W32) → State → State} {s : State} (e : 48 ||| m = m)
    (hf : ∀ (ls : List (List W32)) x, Keeps m s0 x → Keeps m s0 (f ls x)) (h : Keeps m s0 s) : Keeps m s0 (withRegs n T rs f s) := by
  unfold withRegs
  dsimp only
  generalize (rs.mapM (fun r => ((s.core n).vreg r).at T) : Option (List (List W32))) = o
  cases o with
  | none => exact h.tr (((endCore_keeps _ _ _).mono (by decide) : Keeps 48 _ _).mono e)
  | some ls => exact hf ls _ (h.tr (((State_setCore_keeps _ _ _).mono (by decide) : Keeps 48 _ _).mono e))

theorem putResult_keeps (a0 a1 a2 a3) (s : State) : Keeps 48 s (putResult a0 a1 a2 a3 s) := by
  unfold putResult
  try dsimp only
  repeat' (first
    | with_reducible apply Keeps.refl
    | with_reducible assumption
    | (with_reducible apply endCore_keeps_k; decide)
    | (with_reducible apply State_setCore_keeps_k; decide)
    | with_reducible apply Keeps.foldl
    | (intro x a hx; beta_reduce; beta_reduce at hx)
    | with_reducible apply Keeps.foldlp
    | with_reducible apply Keeps.foldlq
    | split)
theorem putResult_keeps_k {m} {s0 : State} {a0 a1 a2 a3} {s : State} (e : 48 ||| m = m) (h : Keeps m s0 s) :
    Keeps m s0 (putResult a0 a1 a2 a3 s) := h.tr ((putResult_keeps a0 a1 a2 a3 s).mono e)

theorem opVector_keeps (a0 a1 a2 a3 a4 a5) (s : State) : Keeps 48 s (opVector a0 a1 a2 a3 a4 a5 s) := by
  unfold opVector
  try dsimp only
  repeat' (first
    | with_reducible apply Keeps.refl
    | with_reducible assumption
    | (with_reducible apply raiseCore_keeps_k; decide)
    | (with_reducible apply withRegs_keeps_k; decide)
    | (with_reducible apply putResult_keeps_k; decide)
    | (with_reducible apply coreAct_keeps_k; decide)
    | with_reducible apply Keeps.foldl
    | (intro x a hx; beta_reduce; beta_reduce at hx)
    | with_reducible apply Keeps.foldlp
    | with_reducible apply Keeps.foldlq
    | split)
theorem opVector_keeps_k {m} {s0 : State} {a0 a1 a2 a3 a4 a5} {s : State} (e : 48 ||| m = m) (h : Keeps m s0 s) :
    Keeps m s0 (opVector a0 a1 a2 a3 a4 a5 s) := h.tr ((opVector_keeps a0 a1 a2 a3 a4 a5 s).mono e)

theorem advance_keeps (a0 a1 a2) (s : State) : Keeps 16 s (advance a0 a1 a2 s) := by
  unfold advance
  try dsimp only
  repeat' (first
    | with_reducible apply Keeps.refl
    | with_reducible assumption
    | (with_reducible apply State_setCore_keeps_k; decide)
    | with_reducible apply Keeps.foldl
    | (intro x a hx; beta_reduce; beta_reduce at hx)
    | with_reducible apply Keeps.foldlp
    | with_reducible apply Keeps.foldlq
    | split)
theorem advance_keeps_k {m} {s0 : State} {a0 a1 a2} {s : State} (e : 16 ||| m = m) (h : Keeps m s0 s) :
    Keeps m s0 (advance a0 a1 a2 s) := h.tr ((advance_keeps a0 a1 a2 s).mono e)

theorem opVstore_keeps (a0 a1 a2 a3 a4 a5) (s : State) : Keeps 48 s (opVstore a0 a1 a2 a3 a4 a5 s) := by
  unfold opVstore
  try dsimp only
  repeat' (first
    | with_reducible apply Keeps.refl
    | with_reducible assumption
    | (with_reducible apply storeRow_keeps_k; decide)
    | (with_reducible apply advance_keeps_k; decide)
    | (with_reducible apply endCore_keeps_k; decide)
    | (with_reducible apply raiseCore_keeps_k; decide)
    | (with_reducible apply withRegs_keeps_k; decide)
    | (with_reducible apply State_setCore_keeps_k; decide)
    | with_reducible apply Keeps.foldl
    | (intro x a hx; beta_reduce; beta_reduce at hx)
    | with_reducible apply Keeps.foldlp
    | with_reducible apply Keeps.foldlq
    | split)
theorem opVstore_keeps_k {m} {s0 : State} {a0 a1 a2 a3 a4 a5} {s : State} (e : 48 ||| m = m) (h : Keeps m s0 s) :
    Keeps m s0 (opVstore a0 a1 a2 a3 a4 a5 s) := h.tr ((opVstore_keeps a0 a1 a2 a3 a4 a5 s).mono e)

theorem opAcc2v_keeps (a0 a1 a2 a3) (s : State) : Keeps 48 s (opAcc2v a0 a1 a2 a3 s) := by
  unfold opAcc2v
  try dsimp only
  repeat' (first
    | with_reducible apply Keeps.refl
    | with_reducible assumption
    | (with_reducible apply endCore_keeps_k; decide)
    | (with_reducible apply putResult_keeps_k; decide)
    | (with_reducible apply coreAct_keeps_k; decide)
    | with_reducible apply Keeps.foldl
    | (intro x a hx; beta_reduce; beta_reduce at hx)
    | with_reducible apply Keeps.foldlp
    | with_reducible apply Keeps.foldlq
    | split)
theorem opAcc2v_keeps_k {m} {s0 : State} {a0 a1 a2 a3} {s : State} (e : 48 ||| m = m) (h : Keeps m s0 s) :
    Keeps m s0 (opAcc2v a0 a1 a2 a3 s) := h.tr ((opAcc2v_keeps a0 a1 a2 a3 s).mono e)

theorem readFailed_keeps (a0 a1) (s : State) : Keeps 206158430258 s (readFailed a0 a1 s) := by
  unfold readFailed
  try dsimp only
  repeat' (first
    | with_reducible apply Keeps.refl
    | with_reducible assumption
    | (with_reducible apply endCore_keeps_k; decide)
    | (with_reducible apply sramBad_keeps_k; decide)
    | with_reducible apply Keeps.foldl
    | (intro x a hx; beta_reduce; beta_reduce at hx)
    | with_reducible apply Keeps.foldlp
    | with_reducible apply Keeps.foldlq
    | split)
theorem readFailed_keeps_k {m} {s0 : State} {a0 a1} {s : State} (e : 206158430258 ||| m = m) (h : Keeps m s0 s) :
    Keeps m s0 (readFailed a0 a1 s) := h.tr ((readFailed_keeps a0 a1 s).mono e)

theorem spaceTouch_keeps (a0) (s : State) : Keeps 1099511627778 s (spaceTouch a0 s) := by
  unfold spaceTouch
  try dsimp only
  repeat' (first
    | with_reducible apply Keeps.refl
    | with_reducible assumption
    | (with_reducible apply sramRead_keeps_k; decide)
    | with_reducible apply Keeps.foldl
    | (intro x a hx; beta_reduce; beta_reduce at hx)
    | with_reducible apply Keeps.foldlp
    | with_reducible apply Keeps.foldlq
    | split)
theorem spaceTouch_keeps_k {m} {s0 : State} {a0} {s : State} (e : 1099511627778 ||| m = m) (h : Keeps m s0 s) :
    Keeps m s0 (spaceTouch a0 s) := h.tr ((spaceTouch_keeps a0 s).mono e)

theorem mergeRead_keeps (a0 a1 a2 a3 a4) (s : State) : Keeps 66 s (mergeRead a0 a1 a2 a3 a4 s) := by
  unfold mergeRead
  try dsimp only
  repeat' (first
    | with_reducible apply Keeps.refl
    | with_reducible assumption
    | (with_reducible apply State_setDie_keeps_k; decide)
    | (with_reducible apply State_count_keeps_k; decide)
    | with_reducible apply Keeps.foldl
    | (intro x a hx; beta_reduce; beta_reduce at hx)
    | with_reducible apply Keeps.foldlp
    | with_reducible apply Keeps.foldlq
    | split)
theorem mergeRead_keeps_k {m} {s0 : State} {a0 a1 a2 a3 a4} {s : State} (e : 66 ||| m = m) (h : Keeps m s0 s) :
    Keeps m s0 (mergeRead a0 a1 a2 a3 a4 s) := h.tr ((mergeRead_keeps a0 a1 a2 a3 a4 s).mono e)

theorem mergeRow_keeps (a0 a1 a2 a3 a4 a5) (s : State) : Keeps 1099511627858 s (mergeRow a0 a1 a2 a3 a4 a5 s) := by
  unfold mergeRow
  try dsimp only
  repeat' (first
    | with_reducible apply Keeps.refl
    | with_reducible assumption
    | (with_reducible apply mergeRead_keeps_k; decide)
    | (with_reducible apply spaceTouch_keeps_k; decide)
    | (with_reducible apply coreAct_keeps_k; decide)
    | with_reducible apply Keeps.foldl
    | (intro x a hx; beta_reduce; beta_reduce at hx)
    | with_reducible apply Keeps.foldlp
    | with_reducible apply Keeps.foldlq
    | split)
theorem mergeRow_keeps_k {m} {s0 : State} {a0 a1 a2 a3 a4 a5} {s : State} (e : 1099511627858 ||| m = m) (h : Keeps m s0 s) :
    Keeps m s0 (mergeRow a0 a1 a2 a3 a4 a5 s) := h.tr ((mergeRow_keeps a0 a1 a2 a3 a4 a5 s).mono e)

theorem opRows_keeps (a0 a1 a2 a3 a4 a5) (s : State) : Keeps 1305670058098 s (opRows a0 a1 a2 a3 a4 a5 s) := by
  unfold opRows
  try dsimp only
  repeat' (first
    | with_reducible apply Keeps.refl
    | with_reducible assumption
    | (with_reducible apply mergeRow_keeps_k; decide)
    | (with_reducible apply advance_keeps_k; decide)
    | (with_reducible apply endCore_keeps_k; decide)
    | (with_reducible apply readFailed_keeps_k; decide)
    | (with_reducible apply raiseCore_keeps_k; decide)
    | (with_reducible apply State_setCore_keeps_k; decide)
    | with_reducible apply Keeps.foldl
    | (intro x a hx; beta_reduce; beta_reduce at hx)
    | with_reducible apply Keeps.foldlp
    | with_reducible apply Keeps.foldlq
    | split)
theorem opRows_keeps_k {m} {s0 : State} {a0 a1 a2 a3 a4 a5} {s : State} (e : 1305670058098 ||| m = m) (h : Keeps m s0 s) :
    Keeps m s0 (opRows a0 a1 a2 a3 a4 a5 s) := h.tr ((opRows_keeps a0 a1 a2 a3 a4 a5 s).mono e)

theorem opSend_keeps (a0 a1 a2 a3 a4 a5 a6 a7) (s : State) : Keeps 1580549014650 s (opSend a0 a1 a2 a3 a4 a5 a6 a7 s) := by
  unfold opSend
  try dsimp only
  repeat' (first
    | with_reducible apply Keeps.refl
    | with_reducible assumption
    | (with_reducible apply spaceTouch_keeps_k; decide)
    | (with_reducible apply rpartArrive_keeps_k; decide)
    | (with_reducible apply advance_keeps_k; decide)
    | (with_reducible apply sendWinFrame_keeps_k; decide)
    | (with_reducible apply endCore_keeps_k; decide)
    | (with_reducible apply readFailed_keeps_k; decide)
    | (with_reducible apply raiseCore_keeps_k; decide)
    | (with_reducible apply State_setCore_keeps_k; decide)
    | with_reducible apply Keeps.foldl
    | (intro x a hx; beta_reduce; beta_reduce at hx)
    | with_reducible apply Keeps.foldlp
    | with_reducible apply Keeps.foldlq
    | split)
theorem opSend_keeps_k {m} {s0 : State} {a0 a1 a2 a3 a4 a5 a6 a7} {s : State} (e : 1580549014650 ||| m = m) (h : Keeps m s0 s) :
    Keeps m s0 (opSend a0 a1 a2 a3 a4 a5 a6 a7 s) := h.tr ((opSend_keeps a0 a1 a2 a3 a4 a5 a6 a7 s).mono e)

theorem opMark_keeps (a0 a1) (s : State) : Keeps 68719476738 s (opMark a0 a1 s) := by
  unfold opMark
  try dsimp only
  repeat' (first
    | with_reducible apply Keeps.refl
    | with_reducible assumption
    | (with_reducible apply traceMake_keeps_k; decide)
    | with_reducible apply Keeps.foldl
    | (intro x a hx; beta_reduce; beta_reduce at hx)
    | with_reducible apply Keeps.foldlp
    | with_reducible apply Keeps.foldlq
    | split)
theorem opMark_keeps_k {m} {s0 : State} {a0 a1} {s : State} (e : 68719476738 ||| m = m) (h : Keeps m s0 s) :
    Keeps m s0 (opMark a0 a1 s) := h.tr ((opMark_keeps a0 a1 s).mono e)

theorem opLoop_keeps (a0 a1 a2 a3) (s : State) : Keeps 16 s (opLoop a0 a1 a2 a3 s) := by
  unfold opLoop
  try dsimp only
  repeat' (first
    | with_reducible apply Keeps.refl
    | with_reducible assumption
    | (with_reducible apply State_setCore_keeps_k; decide)
    | with_reducible apply Keeps.foldl
    | (intro x a hx; beta_reduce; beta_reduce at hx)
    | with_reducible apply Keeps.foldlp
    | with_reducible apply Keeps.foldlq
    | split)
theorem opLoop_keeps_k {m} {s0 : State} {a0 a1 a2 a3} {s : State} (e : 16 ||| m = m) (h : Keeps m s0 s) :
    Keeps m s0 (opLoop a0 a1 a2 a3 s) := h.tr ((opLoop_keeps a0 a1 a2 a3 s).mono e)

theorem opBarrier_keeps (a0 a1 a2 a3) (s : State) : Keeps 1049618 s (opBarrier a0 a1 a2 a3 s) := by
  unfold opBarrier
  try dsimp only
  repeat' (first
    | with_reducible apply Keeps.refl
    | with_reducible assumption
    | (with_reducible apply arrive_keeps_k; decide)
    | (with_reducible apply sendWinFrame_keeps_k; decide)
    | (with_reducible apply State_setCore_keeps_k; decide)
    | with_reducible apply Keeps.foldl
    | (intro x a hx; beta_reduce; beta_reduce at hx)
    | with_reducible apply Keeps.foldlp
    | with_reducible apply Keeps.foldlq
    | split)
theorem opBarrier_keeps_k {m} {s0 : State} {a0 a1 a2 a3} {s : State} (e : 1049618 ||| m = m) (h : Keeps m s0 s) :
    Keeps m s0 (opBarrier a0 a1 a2 a3 s) := h.tr ((opBarrier_keeps a0 a1 a2 a3 s).mono e)

theorem opAstore_keeps (a0 a1 a2 a3 a4 a5 a6 a7) (s : State) : Keeps 48 s (opAstore a0 a1 a2 a3 a4 a5 a6 a7 s) := by
  unfold opAstore
  try dsimp only
  repeat' (first
    | with_reducible apply Keeps.refl
    | with_reducible assumption
    | (with_reducible apply advance_keeps_k; decide)
    | (with_reducible apply endCore_keeps_k; decide)
    | (with_reducible apply State_setCore_keeps_k; decide)
    | (with_reducible apply runRows_keeps_k; decide)
    | with_reducible apply Keeps.foldl
    | (intro x a hx; beta_reduce; beta_reduce at hx)
    | with_reducible apply Keeps.foldlp
    | with_reducible apply Keeps.foldlq
    | split)
theorem opAstore_keeps_k {m} {s0 : State} {a0 a1 a2 a3 a4 a5 a6 a7} {s : State} (e : 48 ||| m = m) (h : Keeps m s0 s) :
    Keeps m s0 (opAstore a0 a1 a2 a3 a4 a5 a6 a7 s) := h.tr ((opAstore_keeps a0 a1 a2 a3 a4 a5 a6 a7 s).mono e)

theorem opBeatWait_keeps (a0 a1 a2) (s : State) : Keeps 16 s (opBeatWait a0 a1 a2 s) := by
  unfold opBeatWait
  try dsimp only
  repeat' (first
    | with_reducible apply Keeps.refl
    | with_reducible assumption
    | (with_reducible apply State_setCore_keeps_k; decide)
    | with_reducible apply Keeps.foldl
    | (intro x a hx; beta_reduce; beta_reduce at hx)
    | with_reducible apply Keeps.foldlp
    | with_reducible apply Keeps.foldlq
    | split)
theorem opBeatWait_keeps_k {m} {s0 : State} {a0 a1 a2} {s : State} (e : 16 ||| m = m) (h : Keeps m s0 s) :
    Keeps m s0 (opBeatWait a0 a1 a2 s) := h.tr ((opBeatWait_keeps a0 a1 a2 s).mono e)

theorem opVload_keeps (a0 a1 a2 a3 a4 a5) (s : State) : Keeps 1305670058098 s (opVload a0 a1 a2 a3 a4 a5 s) := by
  unfold opVload
  try dsimp only
  repeat' (first
    | with_reducible apply Keeps.refl
    | with_reducible assumption
    | (with_reducible apply mergeRow_keeps_k; decide)
    | (with_reducible apply advance_keeps_k; decide)
    | (with_reducible apply endCore_keeps_k; decide)
    | (with_reducible apply readFailed_keeps_k; decide)
    | (with_reducible apply raiseCore_keeps_k; decide)
    | (with_reducible apply State_setCore_keeps_k; decide)
    | (with_reducible apply putResult_keeps_k; decide)
    | (with_reducible apply State_drawn_keeps_k; decide)
    | with_reducible apply Keeps.foldl
    | (intro x a hx; beta_reduce; beta_reduce at hx)
    | with_reducible apply Keeps.foldlp
    | with_reducible apply Keeps.foldlq
    | split)
theorem opVload_keeps_k {m} {s0 : State} {a0 a1 a2 a3 a4 a5} {s : State} (e : 1305670058098 ||| m = m) (h : Keeps m s0 s) :
    Keeps m s0 (opVload a0 a1 a2 a3 a4 a5 s) := h.tr ((opVload_keeps a0 a1 a2 a3 a4 a5 s).mono e)

theorem opMatrix_keeps (a0 a1 a2 a3 a4 a5 a6 a7 a8) (s : State) : Keeps 48 s (opMatrix a0 a1 a2 a3 a4 a5 a6 a7 a8 s) := by
  unfold opMatrix
  try dsimp only
  repeat' (first
    | with_reducible apply Keeps.refl
    | with_reducible assumption
    | (with_reducible apply endCore_keeps_k; decide)
    | (with_reducible apply State_setCore_keeps_k; decide)
    | (with_reducible apply runRows_keeps_k; decide)
    | with_reducible apply Keeps.foldl
    | (intro x a hx; beta_reduce; beta_reduce at hx)
    | with_reducible apply Keeps.foldlp
    | with_reducible apply Keeps.foldlq
    | split)
theorem opMatrix_keeps_k {m} {s0 : State} {a0 a1 a2 a3 a4 a5 a6 a7 a8} {s : State} (e : 48 ||| m = m) (h : Keeps m s0 s) :
    Keeps m s0 (opMatrix a0 a1 a2 a3 a4 a5 a6 a7 a8 s) := h.tr ((opMatrix_keeps a0 a1 a2 a3 a4 a5 a6 a7 a8 s).mono e)

theorem opFlagCheck_keeps (a0 a1 a2 a3) (s : State) : Keeps 48 s (opFlagCheck a0 a1 a2 a3 s) := by
  unfold opFlagCheck
  try dsimp only
  repeat' (first
    | with_reducible apply Keeps.refl
    | with_reducible assumption
    | (with_reducible apply endCore_keeps_k; decide)
    | with_reducible apply Keeps.foldl
    | (intro x a hx; beta_reduce; beta_reduce at hx)
    | with_reducible apply Keeps.foldlp
    | with_reducible apply Keeps.foldlq
    | split)
theorem opFlagCheck_keeps_k {m} {s0 : State} {a0 a1 a2 a3} {s : State} (e : 48 ||| m = m) (h : Keeps m s0 s) :
    Keeps m s0 (opFlagCheck a0 a1 a2 a3 s) := h.tr ((opFlagCheck_keeps a0 a1 a2 a3 s).mono e)

theorem opPanel_keeps (a0 a1 a2 a3 a4) (s : State) : Keeps 1305670058098 s (opPanel a0 a1 a2 a3 a4 s) := by
  unfold opPanel
  try dsimp only
  repeat' (first
    | with_reducible apply Keeps.refl
    | with_reducible assumption
    | (with_reducible apply mergeRow_keeps_k; decide)
    | (with_reducible apply advance_keeps_k; decide)
    | (with_reducible apply endCore_keeps_k; decide)
    | (with_reducible apply readFailed_keeps_k; decide)
    | (with_reducible apply raiseCore_keeps_k; decide)
    | (with_reducible apply State_setCore_keeps_k; decide)
    | with_reducible apply Keeps.foldl
    | (intro x a hx; beta_reduce; beta_reduce at hx)
    | with_reducible apply Keeps.foldlp
    | with_reducible apply Keeps.foldlq
    | split)
theorem opPanel_keeps_k {m} {s0 : State} {a0 a1 a2 a3 a4} {s : State} (e : 1305670058098 ||| m = m) (h : Keeps m s0 s) :
    Keeps m s0 (opPanel a0 a1 a2 a3 a4 s) := h.tr ((opPanel_keeps a0 a1 a2 a3 a4 s).mono e)

theorem opKernelEnd_keeps (a0 a1) (s : State) : Keeps 48 s (opKernelEnd a0 a1 s) := by
  unfold opKernelEnd
  try dsimp only
  repeat' (first
    | with_reducible apply Keeps.refl
    | with_reducible assumption
    | (with_reducible apply endCore_keeps_k; decide)
    | (with_reducible apply State_setCore_keeps_k; decide)
    | (with_reducible apply runChecks_keeps_k; decide)
    | (with_reducible apply runRows_keeps_k; decide)
    | with_reducible apply Keeps.foldl
    | (intro x a hx; beta_reduce; beta_reduce at hx)
    | with_reducible apply Keeps.foldlp
    | with_reducible apply Keeps.foldlq
    | split)
theorem opKernelEnd_keeps_k {m} {s0 : State} {a0 a1} {s : State} (e : 48 ||| m = m) (h : Keeps m s0 s) :
    Keeps m s0 (opKernelEnd a0 a1 s) := h.tr ((opKernelEnd_keeps a0 a1 s).mono e)

end Sys2Proof.Machine
end

