-- ==== Sys2Proof/Laws/KeepsSched.lean ====
section
/-! SUPPORT. Keeps, for every operation of Machine/Sched.lean that answers a state. -/

set_option linter.all false

namespace Sys2Proof.Machine

theorem settleKat_keeps (s : State) : Keeps 17179869184 s (settleKat s) := by
  unfold settleKat
  try dsimp only
  repeat' (first
    | with_reducible apply Keeps.refl
    | with_reducible assumption
    | with_reducible apply Keeps.foldl
    | (intro x a hx; beta_reduce; beta_reduce at hx)
    | with_reducible apply Keeps.foldlp
    | with_reducible apply Keeps.foldlq
    | split
    | (with_reducible apply Keeps.u17179869184; decide))
theorem settleKat_keeps_k {m} {s0 : State} {s : State} (e : 17179869184 ||| m = m) (h : Keeps m s0 s) :
    Keeps m s0 (settleKat s) := h.tr ((settleKat_keeps  s).mono e)

theorem queueKat_keeps (a0 a1 a2) (s : State) : Keeps 17179869184 s (queueKat a0 a1 a2 s) := by
  unfold queueKat
  try dsimp only
  repeat' (first
    | with_reducible apply Keeps.refl
    | with_reducible assumption
    | (with_reducible apply settleKat_keeps_k; decide)
    | with_reducible apply Keeps.foldl
    | (intro x a hx; beta_reduce; beta_reduce at hx)
    | with_reducible apply Keeps.foldlp
    | with_reducible apply Keeps.foldlq
    | split
    | (with_reducible apply Keeps.u17179869184; decide))
theorem queueKat_keeps_k {m} {s0 : State} {a0 a1 a2} {s : State} (e : 17179869184 ||| m = m) (h : Keeps m s0 s) :
    Keeps m s0 (queueKat a0 a1 a2 s) := h.tr ((queueKat_keeps a0 a1 a2 s).mono e)

theorem modSess_keeps (a0 a1) (s : State) : Keeps 4194304 s (modSess a0 a1 s) := by
  unfold modSess
  try dsimp only
  repeat' (first
    | with_reducible apply Keeps.refl
    | with_reducible assumption
    | with_reducible apply Keeps.foldl
    | (intro x a hx; beta_reduce; beta_reduce at hx)
    | with_reducible apply Keeps.foldlp
    | with_reducible apply Keeps.foldlq
    | split
    | (with_reducible apply Keeps.u4194304; decide))
theorem modSess_keeps_k {m} {s0 : State} {a0 a1} {s : State} (e : 4194304 ||| m = m) (h : Keeps m s0 s) :
    Keeps m s0 (modSess a0 a1 s) := h.tr ((modSess_keeps a0 a1 s).mono e)

theorem serveOut_keeps (a0 a1 a2 a3) (s : State) : Keeps 1649271635968 s (serveOut a0 a1 a2 a3 s) := by
  unfold serveOut
  try dsimp only
  repeat' (first
    | with_reducible apply Keeps.refl
    | with_reducible assumption
    | (with_reducible apply modSess_keeps_k; decide)
    | (with_reducible apply State_drawn_keeps_k; decide)
    | (with_reducible apply State_emit_keeps_k; decide)
    | with_reducible apply Keeps.foldl
    | (intro x a hx; beta_reduce; beta_reduce at hx)
    | with_reducible apply Keeps.foldlp
    | with_reducible apply Keeps.foldlq
    | split)
theorem serveOut_keeps_k {m} {s0 : State} {a0 a1 a2 a3} {s : State} (e : 1649271635968 ||| m = m) (h : Keeps m s0 s) :
    Keeps m s0 (serveOut a0 a1 a2 a3 s) := h.tr ((serveOut_keeps a0 a1 a2 a3 s).mono e)

theorem serveSend_keeps (a0 a1 a2) (s : State) : Keeps 1649271635968 s (serveSend a0 a1 a2 s) := by
  unfold serveSend
  try dsimp only
  repeat' (first
    | with_reducible apply Keeps.refl
    | with_reducible assumption
    | (with_reducible apply modSess_keeps_k; decide)
    | (with_reducible apply serveOut_keeps_k; decide)
    | with_reducible apply Keeps.foldl
    | (intro x a hx; beta_reduce; beta_reduce at hx)
    | with_reducible apply Keeps.foldlp
    | with_reducible apply Keeps.foldlq
    | split)
theorem serveSend_keeps_k {m} {s0 : State} {a0 a1 a2} {s : State} (e : 1649271635968 ||| m = m) (h : Keeps m s0 s) :
    Keeps m s0 (serveSend a0 a1 a2 s) := h.tr ((serveSend_keeps a0 a1 a2 s).mono e)

theorem closeSession_keeps (a0) (s : State) : Keeps 4194304 s (closeSession a0 s) := by
  unfold closeSession
  try dsimp only
  repeat' (first
    | with_reducible apply Keeps.refl
    | with_reducible assumption
    | with_reducible apply Keeps.foldl
    | (intro x a hx; beta_reduce; beta_reduce at hx)
    | with_reducible apply Keeps.foldlp
    | with_reducible apply Keeps.foldlq
    | split
    | (with_reducible apply Keeps.u4194304; decide))
theorem closeSession_keeps_k {m} {s0 : State} {a0} {s : State} (e : 4194304 ||| m = m) (h : Keeps m s0 s) :
    Keeps m s0 (closeSession a0 s) := h.tr ((closeSession_keeps a0 s).mono e)

theorem dropStreams_keeps (a0) (s : State) : Keeps 256 s (dropStreams a0 s) := by
  unfold dropStreams
  try dsimp only
  repeat' (first
    | with_reducible apply Keeps.refl
    | with_reducible assumption
    | with_reducible apply Keeps.foldl
    | (intro x a hx; beta_reduce; beta_reduce at hx)
    | with_reducible apply Keeps.foldlp
    | with_reducible apply Keeps.foldlq
    | split
    | (with_reducible apply Keeps.u256; decide))
theorem dropStreams_keeps_k {m} {s0 : State} {a0} {s : State} (e : 256 ||| m = m) (h : Keeps m s0 s) :
    Keeps m s0 (dropStreams a0 s) := h.tr ((dropStreams_keeps a0 s).mono e)

theorem dropCached_keeps (a0) (s : State) : Keeps 139328 s (dropCached a0 s) := by
  unfold dropCached
  try dsimp only
  repeat' (first
    | with_reducible apply Keeps.refl
    | with_reducible assumption
    | with_reducible apply Keeps.foldl
    | (intro x a hx; beta_reduce; beta_reduce at hx)
    | with_reducible apply Keeps.foldlp
    | with_reducible apply Keeps.foldlq
    | split
    | (with_reducible apply Keeps.u139328; decide))
theorem dropCached_keeps_k {m} {s0 : State} {a0} {s : State} (e : 139328 ||| m = m) (h : Keeps m s0 s) :
    Keeps m s0 (dropCached a0 s) := h.tr ((dropCached_keeps a0 s).mono e)

theorem freePage_keeps (a0) (s : State) : Keeps 139328 s (freePage a0 s) := by
  unfold freePage
  try dsimp only
  repeat' (first
    | with_reducible apply Keeps.refl
    | with_reducible assumption
    | (with_reducible apply dropCached_keeps_k; decide)
    | with_reducible apply Keeps.foldl
    | (intro x a hx; beta_reduce; beta_reduce at hx)
    | with_reducible apply Keeps.foldlp
    | with_reducible apply Keeps.foldlq
    | split
    | (with_reducible apply Keeps.u131072; decide))
theorem freePage_keeps_k {m} {s0 : State} {a0} {s : State} (e : 139328 ||| m = m) (h : Keeps m s0 s) :
    Keeps m s0 (freePage a0 s) := h.tr ((freePage_keeps a0 s).mono e)

theorem releasePages_keeps (a0) (s : State) : Keeps 139328 s (releasePages a0 s) := by
  unfold releasePages
  try dsimp only
  repeat' (first
    | with_reducible apply Keeps.refl
    | with_reducible assumption
    | (with_reducible apply freePage_keeps_k; decide)
    | with_reducible apply Keeps.foldl
    | (intro x a hx; beta_reduce; beta_reduce at hx)
    | with_reducible apply Keeps.foldlp
    | with_reducible apply Keeps.foldlq
    | split
    | (with_reducible apply Keeps.u131072; decide))
theorem releasePages_keeps_k {m} {s0 : State} {a0} {s : State} (e : 139328 ||| m = m) (h : Keeps m s0 s) :
    Keeps m s0 (releasePages a0 s) := h.tr ((releasePages_keeps a0 s).mono e)

theorem modCtx_keeps (a0 a1) (s : State) : Keeps 4194304 s (modCtx a0 a1 s) := by
  unfold modCtx
  try dsimp only
  repeat' (first
    | with_reducible apply Keeps.refl
    | with_reducible assumption
    | with_reducible apply Keeps.foldl
    | (intro x a hx; beta_reduce; beta_reduce at hx)
    | with_reducible apply Keeps.foldlp
    | with_reducible apply Keeps.foldlq
    | split
    | (with_reducible apply Keeps.u4194304; decide))
theorem modCtx_keeps_k {m} {s0 : State} {a0 a1} {s : State} (e : 4194304 ||| m = m) (h : Keeps m s0 s) :
    Keeps m s0 (modCtx a0 a1 s) := h.tr ((modCtx_keeps a0 a1 s).mono e)

theorem joinActive_keeps (a0) (s : State) : Keeps 4194304 s (joinActive a0 s) := by
  induction a0 generalizing  s with
  | zero =>
    unfold joinActive
    try dsimp only
    repeat' (first
      | with_reducible apply Keeps.refl
      | with_reducible assumption
      | (with_reducible apply ih)
      | (with_reducible apply modCtx_keeps_k; decide)
      | with_reducible apply Keeps.foldl
      | (intro x a hx; beta_reduce; beta_reduce at hx)
      | with_reducible apply Keeps.foldlp
      | with_reducible apply Keeps.foldlq
      | split)
  | succ n_ ih' =>
    have ih {s0 : State} {s : State} (h : Keeps 4194304 s0 s) : Keeps 4194304 s0 (joinActive n_ s) := h.tr (ih' s)
    unfold joinActive
    try dsimp only
    repeat' (first
      | with_reducible apply Keeps.refl
      | with_reducible assumption
      | (with_reducible apply ih)
      | (with_reducible apply modCtx_keeps_k; decide)
      | with_reducible apply Keeps.foldl
      | (intro x a hx; beta_reduce; beta_reduce at hx)
      | with_reducible apply Keeps.foldlp
      | with_reducible apply Keeps.foldlq
      | split)
theorem joinActive_keeps_k {m} {s0 : State} {a0} {s : State} (e : 4194304 ||| m = m) (h : Keeps m s0 s) :
    Keeps m s0 (joinActive a0 s) := h.tr ((joinActive_keeps a0 s).mono e)

theorem endCtx_keeps (a0 a1 a2) (s : State) : Keeps 1855430205762 s (endCtx a0 a1 a2 s) := by
  unfold endCtx
  try dsimp only
  repeat' (first
    | with_reducible apply Keeps.refl
    | with_reducible assumption
    | (with_reducible apply logEvent_keeps_k; decide)
    | (with_reducible apply countLog_keeps_k; decide)
    | (with_reducible apply closeSession_keeps_k; decide)
    | (with_reducible apply releasePages_keeps_k; decide)
    | (with_reducible apply dropStreams_keeps_k; decide)
    | (with_reducible apply serveSend_keeps_k; decide)
    | (with_reducible apply joinActive_keeps_k; decide)
    | with_reducible apply Keeps.foldl
    | (intro x a hx; beta_reduce; beta_reduce at hx)
    | with_reducible apply Keeps.foldlp
    | with_reducible apply Keeps.foldlq
    | split
    | (with_reducible apply Keeps.u4194304; decide))
theorem endCtx_keeps_k {m} {s0 : State} {a0 a1 a2} {s : State} (e : 1855430205762 ||| m = m) (h : Keeps m s0 s) :
    Keeps m s0 (endCtx a0 a1 a2 s) := h.tr ((endCtx_keeps a0 a1 a2 s).mono e)

theorem settleEnding_keeps (a0) (s : State) : Keeps 1855430205762 s (settleEnding a0 s) := by
  unfold settleEnding
  try dsimp only
  repeat' (first
    | with_reducible apply Keeps.refl
    | with_reducible assumption
    | (with_reducible apply endCtx_keeps_k; decide)
    | with_reducible apply Keeps.foldl
    | (intro x a hx; beta_reduce; beta_reduce at hx)
    | with_reducible apply Keeps.foldlp
    | with_reducible apply Keeps.foldlq
    | split)
theorem settleEnding_keeps_k {m} {s0 : State} {a0} {s : State} (e : 1855430205762 ||| m = m) (h : Keeps m s0 s) :
    Keeps m s0 (settleEnding a0 s) := h.tr ((settleEnding_keeps a0 s).mono e)

theorem markEnding_keeps (a0 a1 a2) (s : State) : Keeps 4194304 s (markEnding a0 a1 a2 s) := by
  unfold markEnding
  try dsimp only
  repeat' (first
    | with_reducible apply Keeps.refl
    | with_reducible assumption
    | (with_reducible apply modCtx_keeps_k; decide)
    | with_reducible apply Keeps.foldl
    | (intro x a hx; beta_reduce; beta_reduce at hx)
    | with_reducible apply Keeps.foldlp
    | with_reducible apply Keeps.foldlq
    | split)
theorem markEnding_keeps_k {m} {s0 : State} {a0 a1 a2} {s : State} (e : 4194304 ||| m = m) (h : Keeps m s0 s) :
    Keeps m s0 (markEnding a0 a1 a2 s) := h.tr ((markEnding_keeps a0 a1 a2 s).mono e)

theorem endRequests_keeps (a0 a1 a2) (s : State) : Keeps 1855430205762 s (endRequests a0 a1 a2 s) := by
  unfold endRequests
  try dsimp only
  repeat' (first
    | with_reducible apply Keeps.refl
    | with_reducible assumption
    | (with_reducible apply settleEnding_keeps_k; decide)
    | (with_reducible apply markEnding_keeps_k; decide)
    | with_reducible apply Keeps.foldl
    | (intro x a hx; beta_reduce; beta_reduce at hx)
    | with_reducible apply Keeps.foldlp
    | with_reducible apply Keeps.foldlq
    | split)
theorem endRequests_keeps_k {m} {s0 : State} {a0 a1 a2} {s : State} (e : 1855430205762 ||| m = m) (h : Keeps m s0 s) :
    Keeps m s0 (endRequests a0 a1 a2 s) := h.tr ((endRequests_keeps a0 a1 a2 s).mono e)

theorem dropBlock_keeps (a0) (s : State) : Keeps 139328 s (dropBlock a0 s) := by
  unfold dropBlock
  try dsimp only
  repeat' (first
    | with_reducible apply Keeps.refl
    | with_reducible assumption
    | (with_reducible apply freePage_keeps_k; decide)
    | with_reducible apply Keeps.foldl
    | (intro x a hx; beta_reduce; beta_reduce at hx)
    | with_reducible apply Keeps.foldlp
    | with_reducible apply Keeps.foldlq
    | split
    | (with_reducible apply Keeps.u131072; decide))
theorem dropBlock_keeps_k {m} {s0 : State} {a0} {s : State} (e : 139328 ||| m = m) (h : Keeps m s0 s) :
    Keeps m s0 (dropBlock a0 s) := h.tr ((dropBlock_keeps a0 s).mono e)

theorem takePage_keeps (s : State) : KeepsQ 131072 s (takePage s) := by
  intro x t h
  unfold takePage at h
  dsimp only at h
  generalize List.find? (fun p => decide (p < poolPages) && pageGood s p) _ = o at h
  generalize List.find? (pageGood s) _ = o2 at h
  cases o with
  | some p =>
    cases h
    with_reducible apply Keeps.u131072
    decide
    with_reducible apply Keeps.refl
  | none =>
    cases o2 with
    | some p =>
      cases h
      with_reducible apply Keeps.u131072
      decide
      with_reducible apply Keeps.refl
    | none => cases h
theorem takePage_keeps_eqk {m} {s0 : State} {s : State} {x t} (e : 131072 ||| m = m) (h : takePage s = some (x, t))
    (k : Keeps m s0 s) : Keeps m s0 t := k.tr ((takePage_keeps s x t h).mono e)

theorem allocPage_keeps (use : PageUse) (n : Nat) (s : State) : KeepsQ 139330 s (allocPage use n s) := by
  induction n generalizing s with
  | zero => intro x t h; cases h
  | succ n ih =>
    intro x t h
    unfold allocPage at h
    split at h
    · cases h
      with_reducible apply Keeps.u131072
      decide
      exact (takePage_keeps s _ _ (by assumption)).mono (by decide)
    · split at h
      · cases h
      · exact Keeps.tr (by
          with_reducible apply State_count_keeps_k
          decide
          with_reducible apply dropBlock_keeps_k
          decide
          with_reducible apply Keeps.refl) (ih _ x t h)
theorem allocPage_keeps_eqk {m} {s0 : State} {use : PageUse} {n : Nat} {s : State} {x t} (e : 139330 ||| m = m) (h : allocPage use n s = some (x, t))
    (k : Keeps m s0 s) : Keeps m s0 t := k.tr ((allocPage_keeps use n s x t h).mono e)

theorem slotFaulty_keeps (a0 a1) (s : State) : Keeps 1855438594370 s (slotFaulty a0 a1 s) := by
  unfold slotFaulty
  try dsimp only
  repeat' (first
    | with_reducible apply Keeps.refl
    | with_reducible assumption
    | (with_reducible apply logEvent_keeps_k; decide)
    | (with_reducible apply endRequests_keeps_k; decide)
    | (with_reducible apply State_setImgSlot_keeps_k; decide)
    | with_reducible apply Keeps.foldl
    | (intro x a hx; beta_reduce; beta_reduce at hx)
    | with_reducible apply Keeps.foldlp
    | with_reducible apply Keeps.foldlq
    | split)
theorem slotFaulty_keeps_k {m} {s0 : State} {a0 a1} {s : State} (e : 1855438594370 ||| m = m) (h : Keeps m s0 s) :
    Keeps m s0 (slotFaulty a0 a1 s) := h.tr ((slotFaulty_keeps a0 a1 s).mono e)

theorem refuse_keeps (a0 a1 a2) (s : State) : Keeps 1649271635970 s (refuse a0 a1 a2 s) := by
  unfold refuse
  try dsimp only
  repeat' (first
    | with_reducible apply Keeps.refl
    | with_reducible assumption
    | (with_reducible apply State_count_keeps_k; decide)
    | (with_reducible apply serveSend_keeps_k; decide)
    | with_reducible apply Keeps.foldl
    | (intro x a hx; beta_reduce; beta_reduce at hx)
    | with_reducible apply Keeps.foldlp
    | with_reducible apply Keeps.foldlq
    | split)
theorem refuse_keeps_k {m} {s0 : State} {a0 a1 a2} {s : State} (e : 1649271635970 ||| m = m) (h : Keeps m s0 s) :
    Keeps m s0 (refuse a0 a1 a2 s) := h.tr ((refuse_keeps a0 a1 a2 s).mono e)

theorem allocPages_keeps (use : PageUse) (n : Nat) (s : State) : KeepsQ 139330 s (allocPages use n s) := by
  induction n generalizing s with
  | zero => intro x t h; cases h; exact Keeps.refl _ _
  | succ n ih =>
    intro x t h
    unfold allocPages at h
    split at h
    · cases h
    · next p s1 hs =>
      cases hr : allocPages use n s1 with
      | none => rw [hr] at h; cases h
      | some y =>
        rw [hr] at h
        cases h
        exact (allocPage_keeps _ _ _ _ _ hs).tr (ih s1 y.1 y.2 hr)
theorem allocPages_keeps_eqk {m} {s0 : State} {use : PageUse} {n : Nat} {s : State} {x t} (e : 139330 ||| m = m) (h : allocPages use n s = some (x, t))
    (k : Keeps m s0 s) : Keeps m s0 t := k.tr ((allocPages_keeps use n s x t h).mono e)

theorem failUnlaunchable_keeps (s : State) : Keeps 1855430205762 s (failUnlaunchable s) := by
  unfold failUnlaunchable
  try dsimp only
  repeat' (first
    | with_reducible apply Keeps.refl
    | with_reducible assumption
    | (with_reducible apply settleEnding_keeps_k; decide)
    | (with_reducible apply endRequests_keeps_k; decide)
    | (with_reducible apply markEnding_keeps_k; decide)
    | with_reducible apply Keeps.foldl
    | (intro x a hx; beta_reduce; beta_reduce at hx)
    | with_reducible apply Keeps.foldlp
    | with_reducible apply Keeps.foldlq
    | split
    | (with_reducible apply Keeps.u256; decide))
theorem failUnlaunchable_keeps_k {m} {s0 : State} {s : State} (e : 1855430205762 ||| m = m) (h : Keeps m s0 s) :
    Keeps m s0 (failUnlaunchable s) := h.tr ((failUnlaunchable_keeps  s).mono e)

theorem isolate_keeps (a0) (s : State) : Keeps 1890410964291 s (isolate a0 s) := by
  unfold isolate
  try dsimp only
  repeat' (first
    | with_reducible apply Keeps.refl
    | with_reducible assumption
    | (with_reducible apply isolateUnit_keeps_k; decide)
    | (with_reducible apply failUnlaunchable_keeps_k; decide)
    | with_reducible apply Keeps.foldl
    | (intro x a hx; beta_reduce; beta_reduce at hx)
    | with_reducible apply Keeps.foldlp
    | with_reducible apply Keeps.foldlq
    | split)
theorem isolate_keeps_k {m} {s0 : State} {a0} {s : State} (e : 1890410964291 ||| m = m) (h : Keeps m s0 s) :
    Keeps m s0 (isolate a0 s) := h.tr ((isolate_keeps a0 s).mono e)

end Sys2Proof.Machine
end

