-- ==== Sys2Proof/Laws/KeepsWindow.lean ====
section
/-! SUPPORT. Keeps, for every operation of Machine/Window.lean that answers a state. -/

set_option linter.all false

namespace Sys2Proof.Machine

theorem commitAll_keeps (a0) (s : State) : Keeps 274877907064 s (commitAll a0 s) := by
  unfold commitAll
  try dsimp only
  repeat' (first
    | with_reducible apply Keeps.refl
    | with_reducible assumption
    | (with_reducible apply commitCore_keeps_k; decide)
    | with_reducible apply Keeps.foldl
    | (intro x a hx; beta_reduce; beta_reduce at hx)
    | with_reducible apply Keeps.foldlp
    | with_reducible apply Keeps.foldlq
    | split)
theorem commitAll_keeps_k {m} {s0 : State} {a0} {s : State} (e : 274877907064 ||| m = m) (h : Keeps m s0 s) :
    Keeps m s0 (commitAll a0 s) := h.tr ((commitAll_keeps a0 s).mono e)

theorem modItem_keeps (a0 a1) (s : State) : Keeps 256 s (modItem a0 a1 s) := by
  unfold modItem
  try dsimp only
  repeat' (first
    | with_reducible apply Keeps.refl
    | with_reducible assumption
    | with_reducible apply Keeps.foldl
    | (intro x a hx; beta_reduce; beta_reduce at hx)
    | with_reducible apply Keeps.foldlp
    | with_reducible apply Keeps.foldlq
    | split
    | (with_reducible apply Keeps.u256; decide))
theorem modItem_keeps_k {m} {s0 : State} {a0 a1} {s : State} (e : 256 ||| m = m) (h : Keeps m s0 s) :
    Keeps m s0 (modItem a0 a1 s) := h.tr ((modItem_keeps a0 a1 s).mono e)

theorem endWaits_keeps (a0) (s : State) : Keeps 256 s (endWaits a0 s) := by
  unfold endWaits
  try dsimp only
  repeat' (first
    | with_reducible apply Keeps.refl
    | with_reducible assumption
    | with_reducible apply Keeps.foldl
    | (intro x a hx; beta_reduce; beta_reduce at hx)
    | with_reducible apply Keeps.foldlp
    | with_reducible apply Keeps.foldlq
    | split
    | (with_reducible apply Keeps.u256; decide))
theorem endWaits_keeps_k {m} {s0 : State} {a0} {s : State} (e : 256 ||| m = m) (h : Keeps m s0 s) :
    Keeps m s0 (endWaits a0 s) := h.tr ((endWaits_keeps a0 s).mono e)

theorem settleWaiting_keeps (s : State) : Keeps 1024 s (settleWaiting s) := by
  unfold settleWaiting
  try dsimp only
  repeat' (first
    | with_reducible apply Keeps.refl
    | with_reducible assumption
    | with_reducible apply Keeps.foldl
    | (intro x a hx; beta_reduce; beta_reduce at hx)
    | with_reducible apply Keeps.foldlp
    | with_reducible apply Keeps.foldlq
    | split
    | (with_reducible apply Keeps.u1024; decide))
theorem settleWaiting_keeps_k {m} {s0 : State} {s : State} (e : 1024 ||| m = m) (h : Keeps m s0 s) :
    Keeps m s0 (settleWaiting s) := h.tr ((settleWaiting_keeps  s).mono e)

theorem queueTests_keeps (a0) (s : State) : Keeps 17179869184 s (queueTests a0 s) := by
  unfold queueTests
  try dsimp only
  repeat' (first
    | with_reducible apply Keeps.refl
    | with_reducible assumption
    | (with_reducible apply queueKat_keeps_k; decide)
    | with_reducible apply Keeps.foldl
    | (intro x a hx; beta_reduce; beta_reduce at hx)
    | with_reducible apply Keeps.foldlp
    | with_reducible apply Keeps.foldlq
    | split)
theorem queueTests_keeps_k {m} {s0 : State} {a0} {s : State} (e : 17179869184 ||| m = m) (h : Keeps m s0 s) :
    Keeps m s0 (queueTests a0 s) := h.tr ((queueTests_keeps a0 s).mono e)

theorem withdrawWindow_keeps (a0) (s : State) : Keeps 96 s (withdrawWindow a0 s) := by
  unfold withdrawWindow
  try dsimp only
  repeat' (first
    | with_reducible apply Keeps.refl
    | with_reducible assumption
    | (with_reducible apply State_setDie_keeps_k; decide)
    | with_reducible apply Keeps.foldl
    | (intro x a hx; beta_reduce; beta_reduce at hx)
    | with_reducible apply Keeps.foldlp
    | with_reducible apply Keeps.foldlq
    | split
    | (with_reducible apply Keeps.u32; decide))
theorem withdrawWindow_keeps_k {m} {s0 : State} {a0} {s : State} (e : 96 ||| m = m) (h : Keeps m s0 s) :
    Keeps m s0 (withdrawWindow a0 s) := h.tr ((withdrawWindow_keeps a0 s).mono e)

theorem enterWindow_keeps (a0 a1 a2) (s : State) : Keeps 16 s (enterWindow a0 a1 a2 s) := by
  unfold enterWindow
  try dsimp only
  repeat' (first
    | with_reducible apply Keeps.refl
    | with_reducible assumption
    | (with_reducible apply State_setCore_keeps_k; decide)
    | with_reducible apply Keeps.foldl
    | (intro x a hx; beta_reduce; beta_reduce at hx)
    | with_reducible apply Keeps.foldlp
    | with_reducible apply Keeps.foldlq
    | split)
theorem enterWindow_keeps_k {m} {s0 : State} {a0 a1 a2} {s : State} (e : 16 ||| m = m) (h : Keeps m s0 s) :
    Keeps m s0 (enterWindow a0 a1 a2 s) := h.tr ((enterWindow_keeps a0 a1 a2 s).mono e)

theorem forgetRange_keeps (a0) (s : State) : Keeps 1099511627784 s (forgetRange a0 s) := by
  unfold forgetRange
  try dsimp only
  repeat' (first
    | with_reducible apply Keeps.refl
    | with_reducible assumption
    | (with_reducible apply State_store_keeps_k; decide)
    | (with_reducible apply State_drawn_keeps_k; decide)
    | with_reducible apply Keeps.foldl
    | (intro x a hx; beta_reduce; beta_reduce at hx)
    | with_reducible apply Keeps.foldlp
    | with_reducible apply Keeps.foldlq
    | split)
theorem forgetRange_keeps_k {m} {s0 : State} {a0} {s : State} (e : 1099511627784 ||| m = m) (h : Keeps m s0 s) :
    Keeps m s0 (forgetRange a0 s) := h.tr ((forgetRange_keeps a0 s).mono e)

theorem selectWindow_keeps (a0 a1 a2 a3) (s : State) : Keeps 549890031904 s (selectWindow a0 a1 a2 a3 s) := by
  unfold selectWindow
  try dsimp only
  repeat' (first
    | with_reducible apply Keeps.refl
    | with_reducible assumption
    | (with_reducible apply modItem_keeps_k; decide)
    | (with_reducible apply ctlEmit_keeps_k; decide)
    | with_reducible apply Keeps.foldl
    | (intro x a hx; beta_reduce; beta_reduce at hx)
    | with_reducible apply Keeps.foldlp
    | with_reducible apply Keeps.foldlq
    | split
    | (with_reducible apply Keeps.u288; decide))
theorem selectWindow_keeps_k {m} {s0 : State} {a0 a1 a2 a3} {s : State} (e : 549890031904 ||| m = m) (h : Keeps m s0 s) :
    Keeps m s0 (selectWindow a0 a1 a2 a3 s) := h.tr ((selectWindow_keeps a0 a1 a2 a3 s).mono e)

theorem clearActivity_keeps (a0 a1) (s : State) : Keeps 80 s (clearActivity a0 a1 s) := by
  unfold clearActivity
  try dsimp only
  repeat' (first
    | with_reducible apply Keeps.refl
    | with_reducible assumption
    | (with_reducible apply State_setDie_keeps_k; decide)
    | (with_reducible apply State_setCore_keeps_k; decide)
    | with_reducible apply Keeps.foldl
    | (intro x a hx; beta_reduce; beta_reduce at hx)
    | with_reducible apply Keeps.foldlp
    | with_reducible apply Keeps.foldlq
    | split)
theorem clearActivity_keeps_k {m} {s0 : State} {a0 a1} {s : State} (e : 80 ||| m = m) (h : Keeps m s0 s) :
    Keeps m s0 (clearActivity a0 a1 s) := h.tr ((clearActivity_keeps a0 a1 s).mono e)

theorem holdDie_keeps (a0 a1) (s : State) : Keeps 16 s (holdDie a0 a1 s) := by
  unfold holdDie
  try dsimp only
  repeat' (first
    | with_reducible apply Keeps.refl
    | with_reducible assumption
    | (with_reducible apply State_setCore_keeps_k; decide)
    | with_reducible apply Keeps.foldl
    | (intro x a hx; beta_reduce; beta_reduce at hx)
    | with_reducible apply Keeps.foldlp
    | with_reducible apply Keeps.foldlq
    | split)
theorem holdDie_keeps_k {m} {s0 : State} {a0 a1} {s : State} (e : 16 ||| m = m) (h : Keeps m s0 s) :
    Keeps m s0 (holdDie a0 a1 s) := h.tr ((holdDie_keeps a0 a1 s).mono e)

theorem windowOk_keeps (a0) (s : State) : Keeps 103700235523 s (windowOk a0 s) := by
  unfold windowOk
  try dsimp only
  repeat' (first
    | with_reducible apply Keeps.refl
    | with_reducible assumption
    | (with_reducible apply modItem_keeps_k; decide)
    | (with_reducible apply setReason_keeps_k; decide)
    | with_reducible apply Keeps.foldl
    | (intro x a hx; beta_reduce; beta_reduce at hx)
    | with_reducible apply Keeps.foldlp
    | with_reducible apply Keeps.foldlq
    | split
    | (with_reducible apply Keeps.u67108864; decide; (first | exact id | exact fun _ => by decide | exact fun h => Memory_writeN_wf _ _ _ h | exact Nat.le_add_right _ _ | assumption | (intro h; exact h))))
theorem windowOk_keeps_k {m} {s0 : State} {a0} {s : State} (e : 103700235523 ||| m = m) (h : Keeps m s0 s) :
    Keeps m s0 (windowOk a0 s) := h.tr ((windowOk_keeps a0 s).mono e)

theorem taintPrefill_keeps (a0) (s : State) : Keeps 4194304 s (taintPrefill a0 s) := by
  unfold taintPrefill
  try dsimp only
  repeat' (first
    | with_reducible apply Keeps.refl
    | with_reducible assumption
    | (with_reducible apply modCtx_keeps_k; decide)
    | with_reducible apply Keeps.foldl
    | (intro x a hx; beta_reduce; beta_reduce at hx)
    | with_reducible apply Keeps.foldlp
    | with_reducible apply Keeps.foldlq
    | split)
theorem taintPrefill_keeps_k {m} {s0 : State} {a0} {s : State} (e : 4194304 ||| m = m) (h : Keeps m s0 s) :
    Keeps m s0 (taintPrefill a0 s) := h.tr ((taintPrefill_keeps a0 s).mono e)

theorem releaseWindow_keeps (a0) (s : State) : Keeps 2165298308475 s (releaseWindow a0 s) := by
  unfold releaseWindow
  try dsimp only
  repeat' (first
    | with_reducible apply Keeps.refl
    | with_reducible assumption
    | (with_reducible apply settleWaiting_keeps_k; decide)
    | (with_reducible apply modItem_keeps_k; decide)
    | (with_reducible apply countLog_keeps_k; decide)
    | (with_reducible apply forgetRange_keeps_k; decide)
    | (with_reducible apply slotFaulty_keeps_k; decide)
    | (with_reducible apply discardPartials_keeps_k; decide)
    | (with_reducible apply State_count_keeps_k; decide)
    | (with_reducible apply windowOk_keeps_k; decide)
    | (with_reducible apply taintPrefill_keeps_k; decide)
    | with_reducible apply Keeps.foldl
    | (intro x a hx; beta_reduce; beta_reduce at hx)
    | with_reducible apply Keeps.foldlp
    | with_reducible apply Keeps.foldlq
    | split
    | (with_reducible apply Keeps.u32; decide))
theorem releaseWindow_keeps_k {m} {s0 : State} {a0} {s : State} (e : 2165298308475 ||| m = m) (h : Keeps m s0 s) :
    Keeps m s0 (releaseWindow a0 s) := h.tr ((releaseWindow_keeps a0 s).mono e)

end Sys2Proof.Machine
end

