-- ==== Sys2Proof/Laws/KeepsSheepdog.lean ====
section
/-! SUPPORT. Keeps, for every operation of Machine/Sheepdog.lean that answers a state. -/

set_option linter.all false

namespace Sys2Proof.Machine

theorem takeItem_keeps (a0 a1 a2 a3) (s : State) : Keeps 68719477122 s (takeItem a0 a1 a2 a3 s) := by
  unfold takeItem
  try dsimp only
  repeat' (first
    | with_reducible apply Keeps.refl
    | with_reducible assumption
    | (with_reducible apply modItem_keeps_k; decide)
    | (with_reducible apply traceMake_keeps_k; decide)
    | (with_reducible apply State_setWhip_keeps_k; decide)
    | (with_reducible apply State_count_keeps_k; decide)
    | with_reducible apply Keeps.foldl
    | (intro x a hx; beta_reduce; beta_reduce at hx)
    | with_reducible apply Keeps.foldlp
    | with_reducible apply Keeps.foldlq
    | split
    | (with_reducible apply Keeps.u256; decide))
theorem takeItem_keeps_k {m} {s0 : State} {a0 a1 a2 a3} {s : State} (e : 68719477122 ||| m = m) (h : Keeps m s0 s) :
    Keeps m s0 (takeItem a0 a1 a2 a3 s) := h.tr ((takeItem_keeps a0 a1 a2 a3 s).mono e)

theorem instantiate_keeps (a0 a1 a2 a3 a4 a5 a6) (s : State) : Keeps 256 s (instantiate a0 a1 a2 a3 a4 a5 a6 s) := by
  unfold instantiate
  try dsimp only
  repeat' (first
    | with_reducible apply Keeps.refl
    | with_reducible assumption
    | (with_reducible apply endWaits_keeps_k; decide)
    | with_reducible apply Keeps.foldl
    | (intro x a hx; beta_reduce; beta_reduce at hx)
    | with_reducible apply Keeps.foldlp
    | with_reducible apply Keeps.foldlq
    | split
    | (with_reducible apply Keeps.u256; decide))
theorem instantiate_keeps_k {m} {s0 : State} {a0 a1 a2 a3 a4 a5 a6} {s : State} (e : 256 ||| m = m) (h : Keeps m s0 s) :
    Keeps m s0 (instantiate a0 a1 a2 a3 a4 a5 a6 s) := h.tr ((instantiate_keeps a0 a1 a2 a3 a4 a5 a6 s).mono e)

theorem probe_keeps (a0 a1) (s : State) : Keeps 68719477122 s (probe a0 a1 s) := by
  induction a1 generalizing a0 s with
  | nil =>
    unfold probe
    try dsimp only
    repeat' (first
      | with_reducible apply Keeps.refl
      | with_reducible assumption
      | (with_reducible apply ih)
      | (with_reducible apply takeItem_keeps_k; decide)
      | (with_reducible apply State_count_keeps_k; decide)
      | with_reducible apply Keeps.foldl
      | (intro x a hx; beta_reduce; beta_reduce at hx)
      | with_reducible apply Keeps.foldlp
      | with_reducible apply Keeps.foldlq
      | split
      | (with_reducible apply Keeps.u256; decide))
  | cons hd_ n_ ih' =>
    have ih {s0 : State} {a0} {s : State} (h : Keeps 68719477122 s0 s) : Keeps 68719477122 s0 (probe a0 n_ s) := h.tr (ih' a0 s)
    unfold probe
    try dsimp only
    repeat' (first
      | with_reducible apply Keeps.refl
      | with_reducible assumption
      | (with_reducible apply ih)
      | (with_reducible apply takeItem_keeps_k; decide)
      | (with_reducible apply State_count_keeps_k; decide)
      | with_reducible apply Keeps.foldl
      | (intro x a hx; beta_reduce; beta_reduce at hx)
      | with_reducible apply Keeps.foldlp
      | with_reducible apply Keeps.foldlq
      | split
      | (with_reducible apply Keeps.u256; decide))
theorem probe_keeps_k {m} {s0 : State} {a0 a1} {s : State} (e : 68719477122 ||| m = m) (h : Keeps m s0 s) :
    Keeps m s0 (probe a0 a1 s) := h.tr ((probe_keeps a0 a1 s).mono e)

theorem pinOnly_keeps (a0) (s : State) : Keeps 64 s (pinOnly a0 s) := by
  unfold pinOnly
  try dsimp only
  repeat' (first
    | with_reducible apply Keeps.refl
    | with_reducible assumption
    | with_reducible apply Keeps.foldl
    | (intro x a hx; beta_reduce; beta_reduce at hx)
    | with_reducible apply Keeps.foldlp
    | with_reducible apply Keeps.foldlq
    | split
    | (with_reducible apply Keeps.u64; decide))
theorem pinOnly_keeps_k {m} {s0 : State} {a0} {s : State} (e : 64 ||| m = m) (h : Keeps m s0 s) :
    Keeps m s0 (pinOnly a0 s) := h.tr ((pinOnly_keeps a0 s).mono e)

theorem pinPages_keeps (a0) (s : State) : Keeps 64 s (pinPages a0 s) := by
  unfold pinPages
  try dsimp only
  repeat' (first
    | with_reducible apply Keeps.refl
    | with_reducible assumption
    | with_reducible apply Keeps.foldl
    | (intro x a hx; beta_reduce; beta_reduce at hx)
    | with_reducible apply Keeps.foldlp
    | with_reducible apply Keeps.foldlq
    | split
    | (with_reducible apply Keeps.u64; decide))
theorem pinPages_keeps_k {m} {s0 : State} {a0} {s : State} (e : 64 ||| m = m) (h : Keeps m s0 s) :
    Keeps m s0 (pinPages a0 s) := h.tr ((pinPages_keeps a0 s).mono e)

theorem fillScratch_keeps (a0) (s : State) : Keeps 1099515822080 s (fillScratch a0 s) := by
  unfold fillScratch
  try dsimp only
  repeat' (first
    | with_reducible apply Keeps.refl
    | with_reducible assumption
    | (with_reducible apply modCtx_keeps_k; decide)
    | (with_reducible apply State_drawn_keeps_k; decide)
    | with_reducible apply Keeps.foldl
    | (intro x a hx; beta_reduce; beta_reduce at hx)
    | with_reducible apply Keeps.foldlp
    | with_reducible apply Keeps.foldlq
    | split)
theorem fillScratch_keeps_k {m} {s0 : State} {a0} {s : State} (e : 1099515822080 ||| m = m) (h : Keeps m s0 s) :
    Keeps m s0 (fillScratch a0 s) := h.tr ((fillScratch_keeps a0 s).mono e)

theorem settleStep_keeps (a0) (s : State) : Keeps 1855430205762 s (settleStep a0 s) := by
  unfold settleStep
  try dsimp only
  repeat' (first
    | with_reducible apply Keeps.refl
    | with_reducible assumption
    | (with_reducible apply settleEnding_keeps_k; decide)
    | (with_reducible apply pinOnly_keeps_k; decide)
    | with_reducible apply Keeps.foldl
    | (intro x a hx; beta_reduce; beta_reduce at hx)
    | with_reducible apply Keeps.foldlp
    | with_reducible apply Keeps.foldlq
    | split
    | (with_reducible apply Keeps.u256; decide))
theorem settleStep_keeps_k {m} {s0 : State} {a0} {s : State} (e : 1855430205762 ||| m = m) (h : Keeps m s0 s) :
    Keeps m s0 (settleStep a0 s) := h.tr ((settleStep_keeps a0 s).mono e)

end Sys2Proof.Machine
end

