-- ==== Sys2Proof/Laws/KeepsWhippet.lean ====
section
/-! SUPPORT. Keeps, for every operation of Machine/Whippet.lean that answers a state. -/

set_option linter.all false

namespace Sys2Proof.Machine

theorem sendChunks_keeps (a0 a1) (s : State) : Keeps 1649271635968 s (sendChunks a0 a1 s) := by
  unfold sendChunks
  try dsimp only
  repeat' (first
    | with_reducible apply Keeps.refl
    | with_reducible assumption
    | (with_reducible apply modCtx_keeps_k; decide)
    | (with_reducible apply serveSend_keeps_k; decide)
    | with_reducible apply Keeps.foldl
    | (intro x a hx; beta_reduce; beta_reduce at hx)
    | with_reducible apply Keeps.foldlp
    | with_reducible apply Keeps.foldlq
    | split)
theorem sendChunks_keeps_k {m} {s0 : State} {a0 a1} {s : State} (e : 1649271635968 ||| m = m) (h : Keeps m s0 s) :
    Keeps m s0 (sendChunks a0 a1 s) := h.tr ((sendChunks_keeps a0 a1 s).mono e)

theorem detokenize_keeps (a0 a1 a2) (s : State) : Keeps 1855430205762 s (detokenize a0 a1 a2 s) := by
  unfold detokenize
  try dsimp only
  repeat' (first
    | with_reducible apply Keeps.refl
    | with_reducible assumption
    | (with_reducible apply modCtx_keeps_k; decide)
    | (with_reducible apply sendChunks_keeps_k; decide)
    | (with_reducible apply State_count_keeps_k; decide)
    | (with_reducible apply endCtx_keeps_k; decide)
    | with_reducible apply Keeps.foldl
    | (intro x a hx; beta_reduce; beta_reduce at hx)
    | with_reducible apply Keeps.foldlp
    | with_reducible apply Keeps.foldlq
    | split)
theorem detokenize_keeps_k {m} {s0 : State} {a0 a1 a2} {s : State} (e : 1855430205762 ||| m = m) (h : Keeps m s0 s) :
    Keeps m s0 (detokenize a0 a1 a2 s) := h.tr ((detokenize_keeps a0 a1 a2 s).mono e)

theorem routineEnd_keeps (a0 a1 a2 a3 a4) (s : State) : Keeps 128 s (routineEnd a0 a1 a2 a3 a4 s) := by
  unfold routineEnd
  try dsimp only
  repeat' (first
    | with_reducible apply Keeps.refl
    | with_reducible assumption
    | (with_reducible apply State_setWhip_keeps_k; decide)
    | with_reducible apply Keeps.foldl
    | (intro x a hx; beta_reduce; beta_reduce at hx)
    | with_reducible apply Keeps.foldlp
    | with_reducible apply Keeps.foldlq
    | split)
theorem routineEnd_keeps_k {m} {s0 : State} {a0 a1 a2 a3 a4} {s : State} (e : 128 ||| m = m) (h : Keeps m s0 s) :
    Keeps m s0 (routineEnd a0 a1 a2 a3 a4 s) := h.tr ((routineEnd_keeps a0 a1 a2 a3 a4 s).mono e)

theorem kvPut_keeps (a0 a1 a2) (s : State) : Keeps 274877907016 s (kvPut a0 a1 a2 s) := by
  unfold kvPut
  try dsimp only
  repeat' (first
    | with_reducible apply Keeps.refl
    | with_reducible assumption
    | (with_reducible apply State_setDie_keeps_k; decide)
    | (with_reducible apply storeClean_keeps_k; decide)
    | with_reducible apply Keeps.foldl
    | (intro x a hx; beta_reduce; beta_reduce at hx)
    | with_reducible apply Keeps.foldlp
    | with_reducible apply Keeps.foldlq
    | split)
theorem kvPut_keeps_k {m} {s0 : State} {a0 a1 a2} {s : State} (e : 274877907016 ||| m = m) (h : Keeps m s0 s) :
    Keeps m s0 (kvPut a0 a1 a2 s) := h.tr ((kvPut_keeps a0 a1 a2 s).mono e)

theorem moveEntry_keeps (a0 a1 a2 a3 a4) (s : State) : Keeps 274877907016 s (moveEntry a0 a1 a2 a3 a4 s) := by
  induction a2 generalizing a0 a1 a3 a4 s with
  | zero =>
    unfold moveEntry
    try dsimp only
    repeat' (first
      | with_reducible apply Keeps.refl
      | with_reducible assumption
      | (with_reducible apply ih)
      | (with_reducible apply kvPut_keeps_k; decide)
      | with_reducible apply Keeps.foldl
      | (intro x a hx; beta_reduce; beta_reduce at hx)
      | with_reducible apply Keeps.foldlp
      | with_reducible apply Keeps.foldlq
      | split)
  | succ n_ ih' =>
    have ih {s0 : State} {a0 a1 a3 a4} {s : State} (h : Keeps 274877907016 s0 s) : Keeps 274877907016 s0 (moveEntry a0 a1 n_ a3 a4 s) := h.tr (ih' a0 a1 a3 a4 s)
    unfold moveEntry
    try dsimp only
    repeat' (first
      | with_reducible apply Keeps.refl
      | with_reducible assumption
      | (with_reducible apply ih)
      | (with_reducible apply kvPut_keeps_k; decide)
      | with_reducible apply Keeps.foldl
      | (intro x a hx; beta_reduce; beta_reduce at hx)
      | with_reducible apply Keeps.foldlp
      | with_reducible apply Keeps.foldlq
      | split)
theorem moveEntry_keeps_k {m} {s0 : State} {a0 a1 a2 a3 a4} {s : State} (e : 274877907016 ||| m = m) (h : Keeps m s0 s) :
    Keeps m s0 (moveEntry a0 a1 a2 a3 a4 s) := h.tr ((moveEntry_keeps a0 a1 a2 a3 a4 s).mono e)

theorem commitTree_keeps (a0 a1 a2) (s : State) : Keeps 274882101320 s (commitTree a0 a1 a2 s) := by
  unfold commitTree
  try dsimp only
  repeat' (first
    | with_reducible apply Keeps.refl
    | with_reducible assumption
    | (with_reducible apply moveEntry_keeps_k; decide)
    | (with_reducible apply modCtx_keeps_k; decide)
    | with_reducible apply Keeps.foldl
    | (intro x a hx; beta_reduce; beta_reduce at hx)
    | with_reducible apply Keeps.foldlp
    | with_reducible apply Keeps.foldlq
    | split)
theorem commitTree_keeps_k {m} {s0 : State} {a0 a1 a2} {s : State} (e : 274882101320 ||| m = m) (h : Keeps m s0 s) :
    Keeps m s0 (commitTree a0 a1 a2 s) := h.tr ((commitTree_keeps a0 a1 a2 s).mono e)

theorem hasherUnit_keeps (a0 a1 a2) (s : State) : Keeps 8589934594 s (hasherUnit a0 a1 a2 s) := by
  unfold hasherUnit
  try dsimp only
  repeat' (first
    | with_reducible apply Keeps.refl
    | with_reducible assumption
    | (with_reducible apply State_setCvu_keeps_k; decide)
    | (with_reducible apply State_count_keeps_k; decide)
    | with_reducible apply Keeps.foldl
    | (intro x a hx; beta_reduce; beta_reduce at hx)
    | with_reducible apply Keeps.foldlp
    | with_reducible apply Keeps.foldlq
    | split)
theorem hasherUnit_keeps_k {m} {s0 : State} {a0 a1 a2} {s : State} (e : 8589934594 ||| m = m) (h : Keeps m s0 s) :
    Keeps m s0 (hasherUnit a0 a1 a2 s) := h.tr ((hasherUnit_keeps a0 a1 a2 s).mono e)

theorem routineFlags_keeps (a0 a1) (s : State) : Keeps 128 s (routineFlags a0 a1 s) := by
  unfold routineFlags
  try dsimp only
  repeat' (first
    | with_reducible apply Keeps.refl
    | with_reducible assumption
    | (with_reducible apply routineEnd_keeps_k; decide)
    | with_reducible apply Keeps.foldl
    | (intro x a hx; beta_reduce; beta_reduce at hx)
    | with_reducible apply Keeps.foldlp
    | with_reducible apply Keeps.foldlq
    | split)
theorem routineFlags_keeps_k {m} {s0 : State} {a0 a1} {s : State} (e : 128 ||| m = m) (h : Keeps m s0 s) :
    Keeps m s0 (routineFlags a0 a1 s) := h.tr ((routineFlags_keeps a0 a1 s).mono e)

theorem leaveStep_keeps (a0) (s : State) : Keeps 256 s (leaveStep a0 s) := by
  unfold leaveStep
  try dsimp only
  repeat' (first
    | with_reducible apply Keeps.refl
    | with_reducible assumption
    | with_reducible apply Keeps.foldl
    | (intro x a hx; beta_reduce; beta_reduce at hx)
    | with_reducible apply Keeps.foldlp
    | with_reducible apply Keeps.foldlq
    | split
    | (with_reducible apply Keeps.u256; decide))
theorem leaveStep_keeps_k {m} {s0 : State} {a0} {s : State} (e : 256 ||| m = m) (h : Keeps m s0 s) :
    Keeps m s0 (leaveStep a0 s) := h.tr ((leaveStep_keeps a0 s).mono e)

end Sys2Proof.Machine
end

