-- ==== Sys2Proof/Laws/KeepsDram.lean ====
section
/-! SUPPORT. Keeps, for every operation of Machine/Dram.lean that answers a state. -/

set_option linter.all false

namespace Sys2Proof.Machine

theorem dropFill_keeps (a0) (s : State) : Keeps 8256 s (dropFill a0 s) := by
  unfold dropFill
  try dsimp only
  repeat' (first
    | with_reducible apply Keeps.refl
    | with_reducible assumption
    | with_reducible apply Keeps.foldl
    | (intro x a hx; beta_reduce; beta_reduce at hx)
    | with_reducible apply Keeps.foldlp
    | with_reducible apply Keeps.foldlq
    | split
    | (with_reducible apply Keeps.u8256; decide))
theorem dropFill_keeps_k {m} {s0 : State} {a0} {s : State} (e : 8256 ||| m = m) (h : Keeps m s0 s) :
    Keeps m s0 (dropFill a0 s) := h.tr ((dropFill_keeps a0 s).mono e)

theorem settleDram_keeps (s : State) : Keeps 103700235267 s (settleDram s) := by
  unfold settleDram
  try dsimp only
  repeat' (first
    | with_reducible apply Keeps.refl
    | with_reducible assumption
    | (with_reducible apply setReason_keeps_k; decide)
    | with_reducible apply Keeps.foldl
    | (intro x a hx; beta_reduce; beta_reduce at hx)
    | with_reducible apply Keeps.foldlp
    | with_reducible apply Keeps.foldlq
    | split)
theorem settleDram_keeps_k {m} {s0 : State} {s : State} (e : 103700235267 ||| m = m) (h : Keeps m s0 s) :
    Keeps m s0 (settleDram s) := h.tr ((settleDram_keeps  s).mono e)

theorem movePage_keeps (a0 a1 a2 a3 a4) (s : State) : Keeps 103708754947 s (movePage a0 a1 a2 a3 a4 s) := by
  unfold movePage
  try dsimp only
  repeat' (first
    | with_reducible apply Keeps.refl
    | with_reducible assumption
    | (with_reducible apply settleDram_keeps_k; decide)
    | (with_reducible apply State_setImgSlot_keeps_k; decide)
    | with_reducible apply Keeps.foldl
    | (intro x a hx; beta_reduce; beta_reduce at hx)
    | with_reducible apply Keeps.foldlp
    | with_reducible apply Keeps.foldlq
    | split
    | (with_reducible apply Keeps.u131072; decide))
theorem movePage_keeps_k {m} {s0 : State} {a0 a1 a2 a3 a4} {s : State} (e : 103708754947 ||| m = m) (h : Keeps m s0 s) :
    Keeps m s0 (movePage a0 a1 a2 a3 a4 s) := h.tr ((movePage_keeps a0 a1 a2 a3 a4 s).mono e)

theorem loseImagePage_keeps (a0 a1) (s : State) : Keeps 1890419352899 s (loseImagePage a0 a1 s) := by
  unfold loseImagePage
  try dsimp only
  repeat' (first
    | with_reducible apply Keeps.refl
    | with_reducible assumption
    | (with_reducible apply slotFaulty_keeps_k; decide)
    | (with_reducible apply allocPage_keeps_eqk; decide; with_reducible assumption)
    | (with_reducible apply movePage_keeps_k; decide)
    | with_reducible apply Keeps.foldl
    | (intro x a hx; beta_reduce; beta_reduce at hx)
    | with_reducible apply Keeps.foldlp
    | with_reducible apply Keeps.foldlq
    | split)
theorem loseImagePage_keeps_k {m} {s0 : State} {a0 a1} {s : State} (e : 1890419352899 ||| m = m) (h : Keeps m s0 s) :
    Keeps m s0 (loseImagePage a0 a1 s) := h.tr ((loseImagePage_keeps a0 a1 s).mono e)

theorem losePage_keeps (a0) (s : State) : Keeps 1890419352899 s (losePage a0 s) := by
  unfold losePage
  try dsimp only
  repeat' (first
    | with_reducible apply Keeps.refl
    | with_reducible assumption
    | (with_reducible apply modCtx_keeps_k; decide)
    | (with_reducible apply endRequests_keeps_k; decide)
    | (with_reducible apply dropCached_keeps_k; decide)
    | (with_reducible apply loseImagePage_keeps_k; decide)
    | (with_reducible apply dropBlock_keeps_k; decide)
    | with_reducible apply Keeps.foldl
    | (intro x a hx; beta_reduce; beta_reduce at hx)
    | with_reducible apply Keeps.foldlp
    | with_reducible apply Keeps.foldlq
    | split
    | (with_reducible apply Keeps.u131072; decide))
theorem losePage_keeps_k {m} {s0 : State} {a0} {s : State} (e : 1890419352899 ||| m = m) (h : Keeps m s0 s) :
    Keeps m s0 (losePage a0 s) := h.tr ((losePage_keeps a0 s).mono e)

theorem stackFails_keeps (a0) (s : State) : Keeps 1890419352899 s (stackFails a0 s) := by
  unfold stackFails
  try dsimp only
  repeat' (first
    | with_reducible apply Keeps.refl
    | with_reducible assumption
    | (with_reducible apply settleDram_keeps_k; decide)
    | (with_reducible apply losePage_keeps_k; decide)
    | (with_reducible apply countLog_keeps_k; decide)
    | (with_reducible apply dropFill_keeps_k; decide)
    | (with_reducible apply State_count_keeps_k; decide)
    | with_reducible apply Keeps.foldl
    | (intro x a hx; beta_reduce; beta_reduce at hx)
    | with_reducible apply Keeps.foldlp
    | with_reducible apply Keeps.foldlq
    | split
    | (with_reducible apply Keeps.u131072; decide))
theorem stackFails_keeps_k {m} {s0 : State} {a0} {s : State} (e : 1890419352899 ||| m = m) (h : Keeps m s0 s) :
    Keeps m s0 (stackFails a0 s) := h.tr ((stackFails_keeps a0 s).mono e)

theorem writeImagePage_keeps (a0 a1 a2) (s : State) : Keeps 1374389534728 s (writeImagePage a0 a1 a2 s) := by
  unfold writeImagePage
  try dsimp only
  repeat' (first
    | with_reducible apply Keeps.refl
    | with_reducible assumption
    | (with_reducible apply State_store_keeps_k; decide)
    | (with_reducible apply storeClean_keeps_k; decide)
    | (with_reducible apply State_drawn_keeps_k; decide)
    | with_reducible apply Keeps.foldl
    | (intro x a hx; beta_reduce; beta_reduce at hx)
    | with_reducible apply Keeps.foldlp
    | with_reducible apply Keeps.foldlq
    | split)
theorem writeImagePage_keeps_k {m} {s0 : State} {a0 a1 a2} {s : State} (e : 1374389534728 ||| m = m) (h : Keeps m s0 s) :
    Keeps m s0 (writeImagePage a0 a1 a2 s) := h.tr ((writeImagePage_keeps a0 a1 a2 s).mono e)

theorem loseTrace_keeps (s : State) : Keeps 1168231104514 s (loseTrace s) := by
  unfold loseTrace
  try dsimp only
  repeat' (first
    | with_reducible apply Keeps.refl
    | with_reducible assumption
    | (with_reducible apply State_count_keeps_k; decide)
    | (with_reducible apply State_drawn_keeps_k; decide)
    | with_reducible apply Keeps.foldl
    | (intro x a hx; beta_reduce; beta_reduce at hx)
    | with_reducible apply Keeps.foldlp
    | with_reducible apply Keeps.foldlq
    | split
    | (with_reducible apply Keeps.u68719476736; decide))
theorem loseTrace_keeps_k {m} {s0 : State} {s : State} (e : 1168231104514 ||| m = m) (h : Keeps m s0 s) :
    Keeps m s0 (loseTrace s) := h.tr ((loseTrace_keeps  s).mono e)

theorem markBad_keeps (a0) (s : State) : Keeps 274877906944 s (markBad a0 s) := by
  unfold markBad
  try dsimp only
  repeat' (first
    | with_reducible apply Keeps.refl
    | with_reducible assumption
    | with_reducible apply Keeps.foldl
    | (intro x a hx; beta_reduce; beta_reduce at hx)
    | with_reducible apply Keeps.foldlp
    | with_reducible apply Keeps.foldlq
    | split
    | (with_reducible apply Keeps.u274877906944; decide))
theorem markBad_keeps_k {m} {s0 : State} {a0} {s : State} (e : 274877906944 ||| m = m) (h : Keeps m s0 s) :
    Keeps m s0 (markBad a0 s) := h.tr ((markBad_keeps a0 s).mono e)

theorem uncorrectable_keeps (a0) (s : State) : Keeps 2165297259843 s (uncorrectable a0 s) := by
  unfold uncorrectable
  try dsimp only
  repeat' (first
    | with_reducible apply Keeps.refl
    | with_reducible assumption
    | (with_reducible apply losePage_keeps_k; decide)
    | (with_reducible apply loseTrace_keeps_k; decide)
    | (with_reducible apply countLog_keeps_k; decide)
    | (with_reducible apply markBad_keeps_k; decide)
    | (with_reducible apply State_count_keeps_k; decide)
    | with_reducible apply Keeps.foldl
    | (intro x a hx; beta_reduce; beta_reduce at hx)
    | with_reducible apply Keeps.foldlp
    | with_reducible apply Keeps.foldlq
    | split
    | (with_reducible apply Keeps.u131072; decide))
theorem uncorrectable_keeps_k {m} {s0 : State} {a0} {s : State} (e : 2165297259843 ||| m = m) (h : Keeps m s0 s) :
    Keeps m s0 (uncorrectable a0 s) := h.tr ((uncorrectable_keeps a0 s).mono e)

theorem correctedRead_keeps (a0 a1) (s : State) : Keeps 206158561282 s (correctedRead a0 a1 s) := by
  unfold correctedRead
  try dsimp only
  repeat' (first
    | with_reducible apply Keeps.refl
    | with_reducible assumption
    | (with_reducible apply logEvent_keeps_k; decide)
    | (with_reducible apply State_count_keeps_k; decide)
    | with_reducible apply Keeps.foldl
    | (intro x a hx; beta_reduce; beta_reduce at hx)
    | with_reducible apply Keeps.foldlp
    | with_reducible apply Keeps.foldlq
    | split
    | (with_reducible apply Keeps.u131072; decide))
theorem correctedRead_keeps_k {m} {s0 : State} {a0 a1} {s : State} (e : 206158561282 ||| m = m) (h : Keeps m s0 s) :
    Keeps m s0 (correctedRead a0 a1 s) := h.tr ((correctedRead_keeps a0 a1 s).mono e)

theorem demandRead_keeps (a0 a1) (s : State) : Keeps 1305670189058 s (demandRead a0 a1 s) := by
  unfold demandRead
  try dsimp only
  repeat' (first
    | with_reducible apply Keeps.refl
    | with_reducible assumption
    | (with_reducible apply correctedRead_keeps_k; decide)
    | (with_reducible apply State_drawn_keeps_k; decide)
    | with_reducible apply Keeps.foldl
    | (intro x a hx; beta_reduce; beta_reduce at hx)
    | with_reducible apply Keeps.foldlp
    | with_reducible apply Keeps.foldlq
    | split)
theorem demandRead_keeps_k {m} {s0 : State} {a0 a1} {s : State} (e : 1305670189058 ||| m = m) (h : Keeps m s0 s) :
    Keeps m s0 (demandRead a0 a1 s) := h.tr ((demandRead_keeps a0 a1 s).mono e)

theorem repairRows_keeps (a0) (s : State) : Keeps 131074 s (repairRows a0 s) := by
  unfold repairRows
  try dsimp only
  repeat' (first
    | with_reducible apply Keeps.refl
    | with_reducible assumption
    | (with_reducible apply State_count_keeps_k; decide)
    | with_reducible apply Keeps.foldl
    | (intro x a hx; beta_reduce; beta_reduce at hx)
    | with_reducible apply Keeps.foldlp
    | with_reducible apply Keeps.foldlq
    | split
    | (with_reducible apply Keeps.u131072; decide))
theorem repairRows_keeps_k {m} {s0 : State} {a0} {s : State} (e : 131074 ||| m = m) (h : Keeps m s0 s) :
    Keeps m s0 (repairRows a0 s) := h.tr ((repairRows_keeps a0 s).mono e)

end Sys2Proof.Machine
end

