-- ==== Sys2Proof/Laws/KeepsDieMemory.lean ====
section
/-! SUPPORT. Keeps, for every operation of Machine/DieMemory.lean that answers a state. -/

set_option linter.all false

namespace Sys2Proof.Machine

theorem readFails_keeps (a0 a1 a2) (s : State) : Keeps 1056832 s (readFails a0 a1 a2 s) := by
  unfold readFails
  try dsimp only
  repeat' (first
    | with_reducible apply Keeps.refl
    | with_reducible assumption
    | (with_reducible apply dropFill_keeps_k; decide)
    | (with_reducible apply opFail_keeps_k; decide)
    | with_reducible apply Keeps.foldl
    | (intro x a hx; beta_reduce; beta_reduce at hx)
    | with_reducible apply Keeps.foldlp
    | with_reducible apply Keeps.foldlq
    | split)
theorem readFails_keeps_k {m} {s0 : State} {a0 a1 a2} {s : State} (e : 1056832 ||| m = m) (h : Keeps m s0 s) :
    Keeps m s0 (readFails a0 a1 a2 s) := h.tr ((readFails_keeps a0 a1 a2 s).mono e)

theorem sendRead_keeps (a0 a1 a2 a3 a4 a5 a6 a7) (s : State) : Keeps 1057874 s (sendRead a0 a1 a2 a3 a4 a5 a6 a7 s) := by
  unfold sendRead
  try dsimp only
  repeat' (first
    | with_reducible apply Keeps.refl
    | with_reducible assumption
    | (with_reducible apply readFails_keeps_k; decide)
    | (with_reducible apply pathLost_keeps_k; decide)
    | (with_reducible apply sendFrame_keeps_k; decide)
    | with_reducible apply Keeps.foldl
    | (intro x a hx; beta_reduce; beta_reduce at hx)
    | with_reducible apply Keeps.foldlp
    | with_reducible apply Keeps.foldlq
    | split
    | (with_reducible apply Keeps.u8192; decide))
theorem sendRead_keeps_k {m} {s0 : State} {a0 a1 a2 a3 a4 a5 a6 a7} {s : State} (e : 1057874 ||| m = m) (h : Keeps m s0 s) :
    Keeps m s0 (sendRead a0 a1 a2 a3 a4 a5 a6 a7 s) := h.tr ((sendRead_keeps a0 a1 a2 a3 a4 a5 a6 a7 s).mono e)

theorem traceArrive_keeps (a0) (s : State) : Keeps 68719476738 s (traceArrive a0 s) := by
  unfold traceArrive
  try dsimp only
  repeat' (first
    | with_reducible apply Keeps.refl
    | with_reducible assumption
    | (with_reducible apply State_count_keeps_k; decide)
    | with_reducible apply Keeps.foldl
    | (intro x a hx; beta_reduce; beta_reduce at hx)
    | with_reducible apply Keeps.foldlp
    | with_reducible apply Keeps.foldlq
    | split
    | (with_reducible apply Keeps.u68719476736; decide))
theorem traceArrive_keeps_k {m} {s0 : State} {a0} {s : State} (e : 68719476738 ||| m = m) (h : Keeps m s0 s) :
    Keeps m s0 (traceArrive a0 s) := h.tr ((traceArrive_keeps a0 s).mono e)

theorem lostBack_keeps (a0 a1) (s : State) : Keeps 1049618 s (lostBack a0 a1 s) := by
  unfold lostBack
  try dsimp only
  repeat' (first
    | with_reducible apply Keeps.refl
    | with_reducible assumption
    | (with_reducible apply pathLost_keeps_k; decide)
    | (with_reducible apply sendFrame_keeps_k; decide)
    | with_reducible apply Keeps.foldl
    | (intro x a hx; beta_reduce; beta_reduce at hx)
    | with_reducible apply Keeps.foldlp
    | with_reducible apply Keeps.foldlq
    | split)
theorem lostBack_keeps_k {m} {s0 : State} {a0 a1} {s : State} (e : 1049618 ||| m = m) (h : Keeps m s0 s) :
    Keeps m s0 (lostBack a0 a1 s) := h.tr ((lostBack_keeps a0 a1 s).mono e)

theorem cacheHit_keeps (a0 a1 a2 a3 a4) (s : State) : Keeps 274877907018 s (cacheHit a0 a1 a2 a3 a4 s) := by
  unfold cacheHit
  try dsimp only
  repeat' (first
    | with_reducible apply Keeps.refl
    | with_reducible assumption
    | (with_reducible apply State_setDie_keeps_k; decide)
    | (with_reducible apply storeClean_keeps_k; decide)
    | (with_reducible apply State_count_keeps_k; decide)
    | with_reducible apply Keeps.foldl
    | (intro x a hx; beta_reduce; beta_reduce at hx)
    | with_reducible apply Keeps.foldlp
    | with_reducible apply Keeps.foldlq
    | split)
theorem cacheHit_keeps_k {m} {s0 : State} {a0 a1 a2 a3 a4} {s : State} (e : 274877907018 ||| m = m) (h : Keeps m s0 s) :
    Keeps m s0 (cacheHit a0 a1 a2 a3 a4 s) := h.tr ((cacheHit_keeps a0 a1 a2 a3 a4 s).mono e)

theorem lateStore_keeps (a0 a1 a2) (s : State) : Keeps 64 s (lateStore a0 a1 a2 s) := by
  unfold lateStore
  try dsimp only
  repeat' (first
    | with_reducible apply Keeps.refl
    | with_reducible assumption
    | (with_reducible apply State_setDie_keeps_k; decide)
    | with_reducible apply Keeps.foldl
    | (intro x a hx; beta_reduce; beta_reduce at hx)
    | with_reducible apply Keeps.foldlp
    | with_reducible apply Keeps.foldlq
    | split)
theorem lateStore_keeps_k {m} {s0 : State} {a0 a1 a2} {s : State} (e : 64 ||| m = m) (h : Keeps m s0 s) :
    Keeps m s0 (lateStore a0 a1 a2 s) := h.tr ((lateStore_keeps a0 a1 a2 s).mono e)

theorem startFill_keeps (a0 a1 a2 a3) (s : State) : Keeps 1057874 s (startFill a0 a1 a2 a3 s) := by
  unfold startFill
  try dsimp only
  repeat' (first
    | with_reducible apply Keeps.refl
    | with_reducible assumption
    | (with_reducible apply State_setDie_keeps_k; decide)
    | (with_reducible apply sendRead_keeps_k; decide)
    | with_reducible apply Keeps.foldl
    | (intro x a hx; beta_reduce; beta_reduce at hx)
    | with_reducible apply Keeps.foldlp
    | with_reducible apply Keeps.foldlq
    | split)
theorem startFill_keeps_k {m} {s0 : State} {a0 a1 a2 a3} {s : State} (e : 1057874 ||| m = m) (h : Keeps m s0 s) :
    Keeps m s0 (startFill a0 a1 a2 a3 s) := h.tr ((startFill_keeps a0 a1 a2 a3 s).mono e)

theorem writeBack_keeps (a0 a1 a2) (s : State) : Keeps 1049618 s (writeBack a0 a1 a2 s) := by
  unfold writeBack
  try dsimp only
  repeat' (first
    | with_reducible apply Keeps.refl
    | with_reducible assumption
    | (with_reducible apply sendWrite_keeps_k; decide)
    | (with_reducible apply State_count_keeps_k; decide)
    | with_reducible apply Keeps.foldl
    | (intro x a hx; beta_reduce; beta_reduce at hx)
    | with_reducible apply Keeps.foldlp
    | with_reducible apply Keeps.foldlq
    | split)
theorem writeBack_keeps_k {m} {s0 : State} {a0 a1 a2} {s : State} (e : 1049618 ||| m = m) (h : Keeps m s0 s) :
    Keeps m s0 (writeBack a0 a1 a2 s) := h.tr ((writeBack_keeps a0 a1 a2 s).mono e)

theorem evictEntry_keeps (a0 a1) (s : State) : Keeps 1049682 s (evictEntry a0 a1 s) := by
  unfold evictEntry
  try dsimp only
  repeat' (first
    | with_reducible apply Keeps.refl
    | with_reducible assumption
    | (with_reducible apply State_setDie_keeps_k; decide)
    | (with_reducible apply writeBack_keeps_k; decide)
    | with_reducible apply Keeps.foldl
    | (intro x a hx; beta_reduce; beta_reduce at hx)
    | with_reducible apply Keeps.foldlp
    | with_reducible apply Keeps.foldlq
    | split)
theorem evictEntry_keeps_k {m} {s0 : State} {a0 a1} {s : State} (e : 1049682 ||| m = m) (h : Keeps m s0 s) :
    Keeps m s0 (evictEntry a0 a1 s) := h.tr ((evictEntry_keeps a0 a1 s).mono e)

theorem cacheMiss_keeps (a0 a1 a2 a3) (s : State) : Keeps 1057874 s (cacheMiss a0 a1 a2 a3 s) := by
  unfold cacheMiss
  try dsimp only
  repeat' (first
    | with_reducible apply Keeps.refl
    | with_reducible assumption
    | (with_reducible apply lateStore_keeps_k; decide)
    | (with_reducible apply startFill_keeps_k; decide)
    | (with_reducible apply evictEntry_keeps_k; decide)
    | (with_reducible apply sendWrite_keeps_k; decide)
    | (with_reducible apply State_count_keeps_k; decide)
    | with_reducible apply Keeps.foldl
    | (intro x a hx; beta_reduce; beta_reduce at hx)
    | with_reducible apply Keeps.foldlp
    | with_reducible apply Keeps.foldlq
    | split)
theorem cacheMiss_keeps_k {m} {s0 : State} {a0 a1 a2 a3} {s : State} (e : 1057874 ||| m = m) (h : Keeps m s0 s) :
    Keeps m s0 (cacheMiss a0 a1 a2 a3 s) := h.tr ((cacheMiss_keeps a0 a1 a2 a3 s).mono e)

theorem cacheAccess_keeps (a0 a1 a2) (s : State) : Keeps 274879095898 s (cacheAccess a0 a1 a2 s) := by
  unfold cacheAccess
  try dsimp only
  repeat' (first
    | with_reducible apply Keeps.refl
    | with_reducible assumption
    | (with_reducible apply pathLost_keeps_k; decide)
    | (with_reducible apply cacheMiss_keeps_k; decide)
    | (with_reducible apply cacheHit_keeps_k; decide)
    | (with_reducible apply lateStore_keeps_k; decide)
    | with_reducible apply Keeps.foldl
    | (intro x a hx; beta_reduce; beta_reduce at hx)
    | with_reducible apply Keeps.foldlp
    | with_reducible apply Keeps.foldlq
    | split
    | (with_reducible apply Keeps.u131072; decide))
theorem cacheAccess_keeps_k {m} {s0 : State} {a0 a1 a2} {s : State} (e : 274879095898 ||| m = m) (h : Keeps m s0 s) :
    Keeps m s0 (cacheAccess a0 a1 a2 s) := h.tr ((cacheAccess_keeps a0 a1 a2 s).mono e)

theorem freeIn_keeps (a0) (s : State) : Keeps 1024 s (freeIn a0 s) := by
  unfold freeIn
  try dsimp only
  repeat' (first
    | with_reducible apply Keeps.refl
    | with_reducible assumption
    | (with_reducible apply freeCredit_keeps_k; decide)
    | with_reducible apply Keeps.foldl
    | (intro x a hx; beta_reduce; beta_reduce at hx)
    | with_reducible apply Keeps.foldlp
    | with_reducible apply Keeps.foldlq
    | split)
theorem freeIn_keeps_k {m} {s0 : State} {a0} {s : State} (e : 1024 ||| m = m) (h : Keeps m s0 s) :
    Keeps m s0 (freeIn a0 s) := h.tr ((freeIn_keeps a0 s).mono e)

theorem stopCore_keeps (a0) (s : State) : Keeps 274878955642 s (stopCore a0 s) := by
  unfold stopCore
  try dsimp only
  repeat' (first
    | with_reducible apply Keeps.refl
    | with_reducible assumption
    | (with_reducible apply pathLost_keeps_k; decide)
    | (with_reducible apply commitAll_keeps_k; decide)
    | with_reducible apply Keeps.foldl
    | (intro x a hx; beta_reduce; beta_reduce at hx)
    | with_reducible apply Keeps.foldlp
    | with_reducible apply Keeps.foldlq
    | split)
theorem stopCore_keeps_k {m} {s0 : State} {a0} {s : State} (e : 274878955642 ||| m = m) (h : Keeps m s0 s) :
    Keeps m s0 (stopCore a0 s) := h.tr ((stopCore_keeps a0 s).mono e)

theorem dropInbound_keeps (a0) (s : State) : Keeps 1049682 s (dropInbound a0 s) := by
  unfold dropInbound
  try dsimp only
  repeat' (first
    | with_reducible apply Keeps.refl
    | with_reducible assumption
    | (with_reducible apply pathLost_keeps_k; decide)
    | (with_reducible apply State_setDie_keeps_k; decide)
    | (with_reducible apply lostBack_keeps_k; decide)
    | (with_reducible apply freeIn_keeps_k; decide)
    | (with_reducible apply settleFlags_keeps_k; decide)
    | with_reducible apply Keeps.foldl
    | (intro x a hx; beta_reduce; beta_reduce at hx)
    | with_reducible apply Keeps.foldlp
    | with_reducible apply Keeps.foldlq
    | split)
theorem dropInbound_keeps_k {m} {s0 : State} {a0} {s : State} (e : 1049682 ||| m = m) (h : Keeps m s0 s) :
    Keeps m s0 (dropInbound a0 s) := h.tr ((dropInbound_keeps a0 s).mono e)

theorem cancelWindow_keeps (a0) (s : State) : Keeps 288 s (cancelWindow a0 s) := by
  unfold cancelWindow
  try dsimp only
  repeat' (first
    | with_reducible apply Keeps.refl
    | with_reducible assumption
    | (with_reducible apply modItem_keeps_k; decide)
    | with_reducible apply Keeps.foldl
    | (intro x a hx; beta_reduce; beta_reduce at hx)
    | with_reducible apply Keeps.foldlp
    | with_reducible apply Keeps.foldlq
    | split
    | (with_reducible apply Keeps.u32; decide))
theorem cancelWindow_keeps_k {m} {s0 : State} {a0} {s : State} (e : 288 ||| m = m) (h : Keeps m s0 s) :
    Keeps m s0 (cancelWindow a0 s) := h.tr ((cancelWindow_keeps a0 s).mono e)

theorem endDieWindows_keeps (a0) (s : State) : Keeps 304 s (endDieWindows a0 s) := by
  unfold endDieWindows
  try dsimp only
  repeat' (first
    | with_reducible apply Keeps.refl
    | with_reducible assumption
    | (with_reducible apply endWindow_keeps_k; decide)
    | (with_reducible apply cancelWindow_keeps_k; decide)
    | with_reducible apply Keeps.foldl
    | (intro x a hx; beta_reduce; beta_reduce at hx)
    | with_reducible apply Keeps.foldlp
    | with_reducible apply Keeps.foldlq
    | split)
theorem endDieWindows_keeps_k {m} {s0 : State} {a0} {s : State} (e : 304 ||| m = m) (h : Keeps m s0 s) :
    Keeps m s0 (endDieWindows a0 s) := h.tr ((endDieWindows_keeps a0 s).mono e)

theorem stopWhip_keeps (a0) (s : State) : Keeps 8589934976 s (stopWhip a0 s) := by
  unfold stopWhip
  try dsimp only
  repeat' (first
    | with_reducible apply Keeps.refl
    | with_reducible assumption
    | (with_reducible apply modItem_keeps_k; decide)
    | (with_reducible apply State_setCvu_keeps_k; decide)
    | (with_reducible apply State_setWhip_keeps_k; decide)
    | with_reducible apply Keeps.foldl
    | (intro x a hx; beta_reduce; beta_reduce at hx)
    | with_reducible apply Keeps.foldlp
    | with_reducible apply Keeps.foldlq
    | split
    | (with_reducible apply Keeps.u128; decide))
theorem stopWhip_keeps_k {m} {s0 : State} {a0} {s : State} (e : 8589934976 ||| m = m) (h : Keeps m s0 s) :
    Keeps m s0 (stopWhip a0 s) := h.tr ((stopWhip_keeps a0 s).mono e)

theorem stopTests_keeps (a0) (s : State) : Keeps 17179869200 s (stopTests a0 s) := by
  unfold stopTests
  try dsimp only
  repeat' (first
    | with_reducible apply Keeps.refl
    | with_reducible assumption
    | (with_reducible apply State_setCore_keeps_k; decide)
    | with_reducible apply Keeps.foldl
    | (intro x a hx; beta_reduce; beta_reduce at hx)
    | with_reducible apply Keeps.foldlp
    | with_reducible apply Keeps.foldlq
    | split
    | (with_reducible apply Keeps.u17179869184; decide))
theorem stopTests_keeps_k {m} {s0 : State} {a0} {s : State} (e : 17179869200 ||| m = m) (h : Keeps m s0 s) :
    Keeps m s0 (stopTests a0 s) := h.tr ((stopTests_keeps a0 s).mono e)

theorem dieStops_keeps (a0) (s : State) : Keeps 300648769530 s (dieStops a0 s) := by
  unfold dieStops
  try dsimp only
  repeat' (first
    | with_reducible apply Keeps.refl
    | with_reducible assumption
    | (with_reducible apply stopCore_keeps_k; decide)
    | (with_reducible apply State_setArb_keeps_k; decide)
    | (with_reducible apply stopTests_keeps_k; decide)
    | (with_reducible apply State_setDie_keeps_k; decide)
    | (with_reducible apply dropInbound_keeps_k; decide)
    | (with_reducible apply endDieWindows_keeps_k; decide)
    | (with_reducible apply stopWhip_keeps_k; decide)
    | (with_reducible apply State_count_keeps_k; decide)
    | with_reducible apply Keeps.foldl
    | (intro x a hx; beta_reduce; beta_reduce at hx)
    | with_reducible apply Keeps.foldlp
    | with_reducible apply Keeps.foldlq
    | split
    | (with_reducible apply Keeps.u8192; decide))
theorem dieStops_keeps_k {m} {s0 : State} {a0} {s : State} (e : 300648769530 ||| m = m) (h : Keeps m s0 s) :
    Keeps m s0 (dieStops a0 s) := h.tr ((dieStops_keeps a0 s).mono e)

theorem commitArb_keeps (a0) (s : State) : Keeps 514 s (commitArb a0 s) := by
  unfold commitArb
  try dsimp only
  repeat' (first
    | with_reducible apply Keeps.refl
    | with_reducible assumption
    | (with_reducible apply State_setArb_keeps_k; decide)
    | (with_reducible apply State_setObj_keeps_k; decide)
    | with_reducible apply Keeps.foldl
    | (intro x a hx; beta_reduce; beta_reduce at hx)
    | with_reducible apply Keeps.foldlp
    | with_reducible apply Keeps.foldlq
    | split)
theorem commitArb_keeps_k {m} {s0 : State} {a0} {s : State} (e : 514 ||| m = m) (h : Keeps m s0 s) :
    Keeps m s0 (commitArb a0 s) := h.tr ((commitArb_keeps a0 s).mono e)

theorem traceTake_keeps (n : Nat) (s : State) : KeepsQ 68719476736 s (traceTake n s) := by
  intro x t h
  unfold traceTake at h
  split at h
  · cases h
    with_reducible apply Keeps.u68719476736
    decide
    exact Keeps.refl _ _
  · cases h
theorem traceTake_keeps_eqk {m} {s0 : State} {n : Nat} {s : State} {x t} (e : 68719476736 ||| m = m) (h : traceTake n s = some (x, t))
    (k : Keeps m s0 s) : Keeps m s0 t := k.tr ((traceTake_keeps n s x t h).mono e)

theorem traceMove_keeps (s : State) : Keeps 68719476738 s (traceMove s) := by
  unfold traceMove
  try dsimp only
  repeat' (first
    | with_reducible apply Keeps.refl
    | with_reducible assumption
    | (with_reducible apply traceArrive_keeps_k; decide)
    | (with_reducible apply traceTake_keeps_eqk; decide; with_reducible assumption)
    | with_reducible apply Keeps.foldl
    | (intro x a hx; beta_reduce; beta_reduce at hx)
    | with_reducible apply Keeps.foldlp
    | with_reducible apply Keeps.foldlq
    | split)
theorem traceMove_keeps_k {m} {s0 : State} {s : State} (e : 68719476738 ||| m = m) (h : Keeps m s0 s) :
    Keeps m s0 (traceMove s) := h.tr ((traceMove_keeps  s).mono e)

theorem calibrateOne_keeps (a0 a1) (s : State) : Keeps 206158430274 s (calibrateOne a0 a1 s) := by
  unfold calibrateOne
  try dsimp only
  repeat' (first
    | with_reducible apply Keeps.refl
    | with_reducible assumption
    | (with_reducible apply countLog_keeps_k; decide)
    | (with_reducible apply State_setDie_keeps_k; decide)
    | with_reducible apply Keeps.foldl
    | (intro x a hx; beta_reduce; beta_reduce at hx)
    | with_reducible apply Keeps.foldlp
    | with_reducible apply Keeps.foldlq
    | split)
theorem calibrateOne_keeps_k {m} {s0 : State} {a0 a1} {s : State} (e : 206158430274 ||| m = m) (h : Keeps m s0 s) :
    Keeps m s0 (calibrateOne a0 a1 s) := h.tr ((calibrateOne_keeps a0 a1 s).mono e)

theorem calibrateDie_keeps (a0 a1) (s : State) : Keeps 1890410964291 s (calibrateDie a0 a1 s).1 := by
  unfold calibrateDie
  try dsimp only
  repeat' (first
    | with_reducible apply Keeps.refl
    | with_reducible assumption
    | (with_reducible apply calibrateOne_keeps_k; decide)
    | (with_reducible apply isolate_keeps_k; decide)
    | with_reducible apply Keeps.foldl
    | (intro x a hx; beta_reduce; beta_reduce at hx)
    | with_reducible apply Keeps.foldlp
    | with_reducible apply Keeps.foldlq
    | split)
theorem calibrateDie_keeps_k {m} {s0 : State} {a0 a1} {s : State} (e : 1890410964291 ||| m = m) (h : Keeps m s0 s) :
    Keeps m s0 (calibrateDie a0 a1 s).1 := h.tr ((calibrateDie_keeps a0 a1 s).mono e)
theorem calibrateDie_keeps_eqk {m} {s0 : State} {a0 a1} {s : State} {x t} (e : 1890410964291 ||| m = m) (h : calibrateDie a0 a1 s = (t, x))
    (k : Keeps m s0 s) : Keeps m s0 t := by
  have := calibrateDie_keeps a0 a1 s; rw [h] at this; exact k.tr (this.mono e)

theorem scrubWord_keeps (a0 a2) (s : State) : Keeps 481036337154 s (scrubWord a0 s a2) := by
  unfold scrubWord
  try dsimp only
  repeat' (first
    | with_reducible apply Keeps.refl
    | with_reducible assumption
    | (with_reducible apply countLog_keeps_k; decide)
    | (with_reducible apply State_count_keeps_k; decide)
    | with_reducible apply Keeps.foldl
    | (intro x a hx; beta_reduce; beta_reduce at hx)
    | with_reducible apply Keeps.foldlp
    | with_reducible apply Keeps.foldlq
    | split
    | (with_reducible apply Keeps.u274877906944; decide))
theorem scrubWord_keeps_k {m} {s0 : State} {a0 a2} {s : State} (e : 481036337154 ||| m = m) (h : Keeps m s0 s) :
    Keeps m s0 (scrubWord a0 s a2) := h.tr ((scrubWord_keeps a0 a2 s).mono e)

theorem startWaiting_keeps (a0) (s : State) : Keeps 1057874 s (startWaiting a0 s) := by
  unfold startWaiting
  try dsimp only
  repeat' (first
    | with_reducible apply Keeps.refl
    | with_reducible assumption
    | (with_reducible apply cacheMiss_keeps_k; decide)
    | (with_reducible apply State_setDie_keeps_k; decide)
    | (with_reducible apply sendWrite_keeps_k; decide)
    | with_reducible apply Keeps.foldl
    | (intro x a hx; beta_reduce; beta_reduce at hx)
    | with_reducible apply Keeps.foldlp
    | with_reducible apply Keeps.foldlq
    | split)
theorem startWaiting_keeps_k {m} {s0 : State} {a0} {s : State} (e : 1057874 ||| m = m) (h : Keeps m s0 s) :
    Keeps m s0 (startWaiting a0 s) := h.tr ((startWaiting_keeps a0 s).mono e)

theorem beagleGrant_keeps (s : State) : Keeps 68719476738 s (beagleGrant s) := by
  unfold beagleGrant
  try dsimp only
  repeat' (first
    | with_reducible apply Keeps.refl
    | with_reducible assumption
    | (with_reducible apply traceMove_keeps_k; decide)
    | (with_reducible apply traceStore_keeps_k; decide)
    | with_reducible apply Keeps.foldl
    | (intro x a hx; beta_reduce; beta_reduce at hx)
    | with_reducible apply Keeps.foldlp
    | with_reducible apply Keeps.foldlq
    | split
    | (with_reducible apply Keeps.u68719476736; decide))
theorem beagleGrant_keeps_k {m} {s0 : State} {s : State} (e : 68719476738 ||| m = m) (h : Keeps m s0 s) :
    Keeps m s0 (beagleGrant s) := h.tr ((beagleGrant_keeps  s).mono e)

end Sys2Proof.Machine
end

