-- ==== Sys2Proof/Laws/KeepsLink.lean ====
section
/-! SUPPORT. Keeps, for every operation of Machine/Link.lean that answers a state. -/

set_option linter.all false

namespace Sys2Proof.Machine

theorem injectRx_keeps (a0 a1) (s : State) : Keeps 1026 s (injectRx a0 a1 s).2 := by
  unfold injectRx
  try dsimp only
  repeat' (first
    | with_reducible apply Keeps.refl
    | with_reducible assumption
    | (with_reducible apply State_setStr_keeps_k; decide)
    | (with_reducible apply State_count_keeps_k; decide)
    | with_reducible apply Keeps.foldl
    | (intro x a hx; beta_reduce; beta_reduce at hx)
    | with_reducible apply Keeps.foldlp
    | with_reducible apply Keeps.foldlq
    | split)
theorem injectRx_keeps_k {m} {s0 : State} {a0 a1} {s : State} (e : 1026 ||| m = m) (h : Keeps m s0 s) :
    Keeps m s0 (injectRx a0 a1 s).2 := h.tr ((injectRx_keeps a0 a1 s).mono e)
theorem injectRx_keeps_eqk {m} {s0 : State} {a0 a1} {s : State} {x t} (e : 1026 ||| m = m) (h : injectRx a0 a1 s = (x, t))
    (k : Keeps m s0 s) : Keeps m s0 t := by
  have := injectRx_keeps a0 a1 s; rw [h] at this; exact k.tr (this.mono e)

theorem ackTo_keeps (a0 a1) (s : State) : Keeps 1049616 s (ackTo a0 a1 s) := by
  unfold ackTo
  try dsimp only
  repeat' (first
    | with_reducible apply Keeps.refl
    | with_reducible assumption
    | (with_reducible apply chanFrameDone_keeps_k; decide)
    | (with_reducible apply State_setStr_keeps_k; decide)
    | with_reducible apply Keeps.foldl
    | (intro x a hx; beta_reduce; beta_reduce at hx)
    | with_reducible apply Keeps.foldlp
    | with_reducible apply Keeps.foldlq
    | split)
theorem ackTo_keeps_k {m} {s0 : State} {a0 a1} {s : State} (e : 1049616 ||| m = m) (h : Keeps m s0 s) :
    Keeps m s0 (ackTo a0 a1 s) := h.tr ((ackTo_keeps a0 a1 s).mono e)

theorem creditTo_keeps (a0 a1 a2 a3) (s : State) : Keeps 1024 s (creditTo a0 a1 a2 a3 s) := by
  unfold creditTo
  try dsimp only
  repeat' (first
    | with_reducible apply Keeps.refl
    | with_reducible assumption
    | (with_reducible apply State_setStr_keeps_k; decide)
    | with_reducible apply Keeps.foldl
    | (intro x a hx; beta_reduce; beta_reduce at hx)
    | with_reducible apply Keeps.foldlp
    | with_reducible apply Keeps.foldlq
    | split)
theorem creditTo_keeps_k {m} {s0 : State} {a0 a1 a2 a3} {s : State} (e : 1024 ||| m = m) (h : Keeps m s0 s) :
    Keeps m s0 (creditTo a0 a1 a2 a3 s) := h.tr ((creditTo_keeps a0 a1 a2 a3 s).mono e)

theorem linkIn_keeps (a0 a1) (s : State) : Keeps 1049616 s (linkIn a0 a1 s) := by
  unfold linkIn
  try dsimp only
  repeat' (first
    | with_reducible apply Keeps.refl
    | with_reducible assumption
    | (with_reducible apply ackTo_keeps_k; decide)
    | (with_reducible apply creditTo_keeps_k; decide)
    | with_reducible apply Keeps.foldl
    | (intro x a hx; beta_reduce; beta_reduce at hx)
    | with_reducible apply Keeps.foldlp
    | with_reducible apply Keeps.foldlq
    | split)
theorem linkIn_keeps_k {m} {s0 : State} {a0 a1} {s : State} (e : 1049616 ||| m = m) (h : Keeps m s0 s) :
    Keeps m s0 (linkIn a0 a1 s) := h.tr ((linkIn_keeps a0 a1 s).mono e)

theorem receive_keeps (a0 a1 a2) (s : State) : Keeps 1049618 s (receive a0 a1 a2 s).2 := by
  unfold receive
  try dsimp only
  repeat' (first
    | with_reducible apply Keeps.refl
    | with_reducible assumption
    | (with_reducible apply injectRx_keeps_k; decide)
    | (with_reducible apply injectRx_keeps_eqk; decide; with_reducible assumption)
    | (with_reducible apply linkIn_keeps_k; decide)
    | (with_reducible apply State_setStr_keeps_k; decide)
    | (with_reducible apply State_count_keeps_k; decide)
    | with_reducible apply Keeps.foldl
    | (intro x a hx; beta_reduce; beta_reduce at hx)
    | with_reducible apply Keeps.foldlp
    | with_reducible apply Keeps.foldlq
    | split)
theorem receive_keeps_k {m} {s0 : State} {a0 a1 a2} {s : State} (e : 1049618 ||| m = m) (h : Keeps m s0 s) :
    Keeps m s0 (receive a0 a1 a2 s).2 := h.tr ((receive_keeps a0 a1 a2 s).mono e)
theorem receive_keeps_eqk {m} {s0 : State} {a0 a1 a2} {s : State} {x t} (e : 1049618 ||| m = m) (h : receive a0 a1 a2 s = (x, t))
    (k : Keeps m s0 s) : Keeps m s0 t := by
  have := receive_keeps a0 a1 a2 s; rw [h] at this; exact k.tr (this.mono e)

theorem readEnds_keeps (a0 a1 a2) (s : State) : Keeps 1056832 s (readEnds a0 a1 a2 s) := by
  unfold readEnds
  try dsimp only
  repeat' (first
    | with_reducible apply Keeps.refl
    | with_reducible assumption
    | (with_reducible apply readFails_keeps_k; decide)
    | with_reducible apply Keeps.foldl
    | (intro x a hx; beta_reduce; beta_reduce at hx)
    | with_reducible apply Keeps.foldlp
    | with_reducible apply Keeps.foldlq
    | split
    | (with_reducible apply Keeps.u8192; decide))
theorem readEnds_keeps_k {m} {s0 : State} {a0 a1 a2} {s : State} (e : 1056832 ||| m = m) (h : Keeps m s0 s) :
    Keeps m s0 (readEnds a0 a1 a2 s) := h.tr ((readEnds_keeps a0 a1 a2 s).mono e)

theorem frameLost_keeps (a0) (s : State) : Keeps 1056850 s (frameLost a0 s) := by
  unfold frameLost
  try dsimp only
  repeat' (first
    | with_reducible apply Keeps.refl
    | with_reducible assumption
    | (with_reducible apply readEnds_keeps_k; decide)
    | (with_reducible apply pathLost_keeps_k; decide)
    | with_reducible apply Keeps.foldl
    | (intro x a hx; beta_reduce; beta_reduce at hx)
    | with_reducible apply Keeps.foldlp
    | with_reducible apply Keeps.foldlq
    | split)
theorem frameLost_keeps_k {m} {s0 : State} {a0} {s : State} (e : 1056850 ||| m = m) (h : Keeps m s0 s) :
    Keeps m s0 (frameLost a0 s) := h.tr ((frameLost_keeps a0 s).mono e)

theorem settleHarp_keeps (s : State) : Keeps 103700235267 s (settleHarp s) := by
  unfold settleHarp
  try dsimp only
  repeat' (first
    | with_reducible apply Keeps.refl
    | with_reducible assumption
    | (with_reducible apply setReason_keeps_k; decide)
    | with_reducible apply Keeps.foldl
    | (intro x a hx; beta_reduce; beta_reduce at hx)
    | with_reducible apply Keeps.foldlp
    | with_reducible apply Keeps.foldlq
    | split)
theorem settleHarp_keeps_k {m} {s0 : State} {s : State} (e : 103700235267 ||| m = m) (h : Keeps m s0 s) :
    Keeps m s0 (settleHarp s) := h.tr ((settleHarp_keeps  s).mono e)

theorem clearTx_keeps (a0) (s : State) : Keeps 1024 s (clearTx a0 s) := by
  unfold clearTx
  try dsimp only
  repeat' (first
    | with_reducible apply Keeps.refl
    | with_reducible assumption
    | (with_reducible apply State_setStr_keeps_k; decide)
    | with_reducible apply Keeps.foldl
    | (intro x a hx; beta_reduce; beta_reduce at hx)
    | with_reducible apply Keeps.foldlp
    | with_reducible apply Keeps.foldlq
    | split)
theorem clearTx_keeps_k {m} {s0 : State} {a0} {s : State} (e : 1024 ||| m = m) (h : Keeps m s0 s) :
    Keeps m s0 (clearTx a0 s) := h.tr ((clearTx_keeps a0 s).mono e)

theorem replayOver_keeps (a0) (s : State) : Keeps 1057874 s (replayOver a0 s) := by
  unfold replayOver
  try dsimp only
  repeat' (first
    | with_reducible apply Keeps.refl
    | with_reducible assumption
    | (with_reducible apply chanFrameDone_keeps_k; decide)
    | (with_reducible apply frameLost_keeps_k; decide)
    | (with_reducible apply enqueueFrame_keeps_k; decide)
    | (with_reducible apply clearTx_keeps_k; decide)
    | with_reducible apply Keeps.foldl
    | (intro x a hx; beta_reduce; beta_reduce at hx)
    | with_reducible apply Keeps.foldlp
    | with_reducible apply Keeps.foldlq
    | split)
theorem replayOver_keeps_k {m} {s0 : State} {a0} {s : State} (e : 1057874 ||| m = m) (h : Keeps m s0 s) :
    Keeps m s0 (replayOver a0 s) := h.tr ((replayOver_keeps a0 s).mono e)

theorem enterString_keeps (a0 a1) (s : State) : Keeps 1890420401523 s (enterString a0 a1 s) := by
  unfold enterString
  try dsimp only
  repeat' (first
    | with_reducible apply Keeps.refl
    | with_reducible assumption
    | (with_reducible apply stackFails_keeps_k; decide)
    | (with_reducible apply frameLost_keeps_k; decide)
    | (with_reducible apply countLog_keeps_k; decide)
    | (with_reducible apply endWindow_keeps_k; decide)
    | (with_reducible apply State_setStr_keeps_k; decide)
    | (with_reducible apply traceMake_keeps_k; decide)
    | (with_reducible apply clearTx_keeps_k; decide)
    | (with_reducible apply replayOver_keeps_k; decide)
    | with_reducible apply Keeps.foldl
    | (intro x a hx; beta_reduce; beta_reduce at hx)
    | with_reducible apply Keeps.foldlp
    | with_reducible apply Keeps.foldlq
    | split)
theorem enterString_keeps_k {m} {s0 : State} {a0 a1} {s : State} (e : 1890420401523 ||| m = m) (h : Keeps m s0 s) :
    Keeps m s0 (enterString a0 a1 s) := h.tr ((enterString_keeps a0 a1 s).mono e)

theorem retrain_keeps (a0) (s : State) : Keeps 1890420401523 s (retrain a0 s) := by
  unfold retrain
  try dsimp only
  repeat' (first
    | with_reducible apply Keeps.refl
    | with_reducible assumption
    | (with_reducible apply countLog_keeps_k; decide)
    | (with_reducible apply enterString_keeps_k; decide)
    | (with_reducible apply State_setStr_keeps_k; decide)
    | with_reducible apply Keeps.foldl
    | (intro x a hx; beta_reduce; beta_reduce at hx)
    | with_reducible apply Keeps.foldlp
    | with_reducible apply Keeps.foldlq
    | split)
theorem retrain_keeps_k {m} {s0 : State} {a0} {s : State} (e : 1890420401523 ||| m = m) (h : Keeps m s0 s) :
    Keeps m s0 (retrain a0 s) := h.tr ((retrain_keeps a0 s).mono e)

theorem pushCtrl_keeps (a0 a1) (s : State) : Keeps 1024 s (pushCtrl a0 a1 s) := by
  unfold pushCtrl
  try dsimp only
  repeat' (first
    | with_reducible apply Keeps.refl
    | with_reducible assumption
    | (with_reducible apply State_setStr_keeps_k; decide)
    | with_reducible apply Keeps.foldl
    | (intro x a hx; beta_reduce; beta_reduce at hx)
    | with_reducible apply Keeps.foldlp
    | with_reducible apply Keeps.foldlq
    | split)
theorem pushCtrl_keeps_k {m} {s0 : State} {a0 a1} {s : State} (e : 1024 ||| m = m) (h : Keeps m s0 s) :
    Keeps m s0 (pushCtrl a0 a1 s) := h.tr ((pushCtrl_keeps a0 a1 s).mono e)

theorem announceMap_keeps (a0 a1 a2) (s : State) : Keeps 1024 s (announceMap a0 a1 a2 s) := by
  unfold announceMap
  try dsimp only
  repeat' (first
    | with_reducible apply Keeps.refl
    | with_reducible assumption
    | (with_reducible apply pushCtrl_keeps_k; decide)
    | (with_reducible apply State_setStr_keeps_k; decide)
    | with_reducible apply Keeps.foldl
    | (intro x a hx; beta_reduce; beta_reduce at hx)
    | with_reducible apply Keeps.foldlp
    | with_reducible apply Keeps.foldlq
    | split)
theorem announceMap_keeps_k {m} {s0 : State} {a0 a1 a2} {s : State} (e : 1024 ||| m = m) (h : Keeps m s0 s) :
    Keeps m s0 (announceMap a0 a1 a2 s) := h.tr ((announceMap_keeps a0 a1 a2 s).mono e)

theorem settleString_keeps (a0) (s : State) : Keeps 1890420401523 s (settleString a0 s) := by
  unfold settleString
  try dsimp only
  repeat' (first
    | with_reducible apply Keeps.refl
    | with_reducible assumption
    | (with_reducible apply enterString_keeps_k; decide)
    | with_reducible apply Keeps.foldl
    | (intro x a hx; beta_reduce; beta_reduce at hx)
    | with_reducible apply Keeps.foldlp
    | with_reducible apply Keeps.foldlq
    | split)
theorem settleString_keeps_k {m} {s0 : State} {a0} {s : State} (e : 1890420401523 ||| m = m) (h : Keeps m s0 s) :
    Keeps m s0 (settleString a0 s) := h.tr ((settleString_keeps a0 s).mono e)

theorem dropLine_keeps (a0 a1 a2) (s : State) : Keeps 1890420401523 s (dropLine a0 a1 a2 s) := by
  unfold dropLine
  try dsimp only
  repeat' (first
    | with_reducible apply Keeps.refl
    | with_reducible assumption
    | (with_reducible apply announceMap_keeps_k; decide)
    | (with_reducible apply settleString_keeps_k; decide)
    | (with_reducible apply State_setStr_keeps_k; decide)
    | (with_reducible apply State_count_keeps_k; decide)
    | with_reducible apply Keeps.foldl
    | (intro x a hx; beta_reduce; beta_reduce at hx)
    | with_reducible apply Keeps.foldlp
    | with_reducible apply Keeps.foldlq
    | split)
theorem dropLine_keeps_k {m} {s0 : State} {a0 a1 a2} {s : State} (e : 1890420401523 ||| m = m) (h : Keeps m s0 s) :
    Keeps m s0 (dropLine a0 a1 a2 s) := h.tr ((dropLine_keeps a0 a1 a2 s).mono e)

theorem sendMap_keeps (a0 a1) (s : State) : Keeps 1024 s (sendMap a0 a1 s).2 := by
  unfold sendMap
  try dsimp only
  repeat' (first
    | with_reducible apply Keeps.refl
    | with_reducible assumption
    | (with_reducible apply State_setStr_keeps_k; decide)
    | with_reducible apply Keeps.foldl
    | (intro x a hx; beta_reduce; beta_reduce at hx)
    | with_reducible apply Keeps.foldlp
    | with_reducible apply Keeps.foldlq
    | split)
theorem sendMap_keeps_k {m} {s0 : State} {a0 a1} {s : State} (e : 1024 ||| m = m) (h : Keeps m s0 s) :
    Keeps m s0 (sendMap a0 a1 s).2 := h.tr ((sendMap_keeps a0 a1 s).mono e)
theorem sendMap_keeps_eqk {m} {s0 : State} {a0 a1} {s : State} {x t} (e : 1024 ||| m = m) (h : sendMap a0 a1 s = (x, t))
    (k : Keeps m s0 s) : Keeps m s0 t := by
  have := sendMap_keeps a0 a1 s; rw [h] at this; exact k.tr (this.mono e)

theorem takeRelay_keeps (n : Nat) (s : State) : KeepsQ 1024 s (takeRelay n s) := by
  intro x t h
  unfold takeRelay at h
  dsimp only at h
  split at h
  · cases h; exact State_setStr_keeps _ _ _
  · cases h
theorem takeRelay_keeps_eqk {m} {s0 : State} {n : Nat} {s : State} {x t} (e : 1024 ||| m = m) (h : takeRelay n s = some (x, t))
    (k : Keeps m s0 s) : Keeps m s0 t := k.tr ((takeRelay_keeps n s x t h).mono e)

theorem takeCtrl_keeps (n : Nat) (s : State) : KeepsQ 1024 s (takeCtrl n s) := by
  intro x t h
  unfold takeCtrl at h
  dsimp only at h
  repeat' split at h
  all_goals first
    | exact sendMap_keeps_eqk (by decide) (Option.some.inj h) (State_setStr_keeps _ _ _)
    | exact takeRelay_keeps _ _ _ _ h
    | (cases h; done)
    | (cases h; exact Keeps.refl _ _)
    | (cases h; exact State_setStr_keeps _ _ _)
theorem takeCtrl_keeps_eqk {m} {s0 : State} {n : Nat} {s : State} {x t} (e : 1024 ||| m = m) (h : takeCtrl n s = some (x, t))
    (k : Keeps m s0 s) : Keeps m s0 t := k.tr ((takeCtrl_keeps n s x t h).mono e)

theorem putFrame_keeps (a0 a1 a2 a3) (s : State) : Keeps 549755814912 s (putFrame a0 a1 a2 a3 s) := by
  unfold putFrame
  try dsimp only
  repeat' (first
    | with_reducible apply Keeps.refl
    | with_reducible assumption
    | (with_reducible apply emitFrame_keeps_k; decide)
    | (with_reducible apply State_setStr_keeps_k; decide)
    | with_reducible apply Keeps.foldl
    | (intro x a hx; beta_reduce; beta_reduce at hx)
    | with_reducible apply Keeps.foldlp
    | with_reducible apply Keeps.foldlq
    | split)
theorem putFrame_keeps_k {m} {s0 : State} {a0 a1 a2 a3} {s : State} (e : 549755814912 ||| m = m) (h : Keeps m s0 s) :
    Keeps m s0 (putFrame a0 a1 a2 a3 s) := h.tr ((putFrame_keeps a0 a1 a2 a3 s).mono e)

theorem putCtrl_keeps (a0 a1) (s : State) : Keeps 549755814912 s (putCtrl a0 a1 s) := by
  unfold putCtrl
  try dsimp only
  repeat' (first
    | with_reducible apply Keeps.refl
    | with_reducible assumption
    | (with_reducible apply putFrame_keeps_k; decide)
    | with_reducible apply Keeps.foldl
    | (intro x a hx; beta_reduce; beta_reduce at hx)
    | with_reducible apply Keeps.foldlp
    | with_reducible apply Keeps.foldlq
    | split)
theorem putCtrl_keeps_k {m} {s0 : State} {a0 a1} {s : State} (e : 549755814912 ||| m = m) (h : Keeps m s0 s) :
    Keeps m s0 (putCtrl a0 a1 s) := h.tr ((putCtrl_keeps a0 a1 s).mono e)

theorem putIdle_keeps (a0) (s : State) : Keeps 549755814912 s (putIdle a0 s) := by
  unfold putIdle
  try dsimp only
  repeat' (first
    | with_reducible apply Keeps.refl
    | with_reducible assumption
    | (with_reducible apply putFrame_keeps_k; decide)
    | with_reducible apply Keeps.foldl
    | (intro x a hx; beta_reduce; beta_reduce at hx)
    | with_reducible apply Keeps.foldlp
    | with_reducible apply Keeps.foldlq
    | split)
theorem putIdle_keeps_k {m} {s0 : State} {a0} {s : State} (e : 549755814912 ||| m = m) (h : Keeps m s0 s) :
    Keeps m s0 (putIdle a0 s) := h.tr ((putIdle_keeps a0 s).mono e)

theorem ctrlOrIdle_keeps (a0) (s : State) : Keeps 549755814912 s (ctrlOrIdle a0 s) := by
  unfold ctrlOrIdle
  try dsimp only
  repeat' (first
    | with_reducible apply Keeps.refl
    | with_reducible assumption
    | (with_reducible apply takeCtrl_keeps_eqk; decide; with_reducible assumption)
    | (with_reducible apply putIdle_keeps_k; decide)
    | (with_reducible apply putCtrl_keeps_k; decide)
    | with_reducible apply Keeps.foldl
    | (intro x a hx; beta_reduce; beta_reduce at hx)
    | with_reducible apply Keeps.foldlp
    | with_reducible apply Keeps.foldlq
    | split)
theorem ctrlOrIdle_keeps_k {m} {s0 : State} {a0} {s : State} (e : 549755814912 ||| m = m) (h : Keeps m s0 s) :
    Keeps m s0 (ctrlOrIdle a0 s) := h.tr ((ctrlOrIdle_keeps a0 s).mono e)

theorem sendNew_keeps (a0 a1 a2) (s : State) : Keeps 549755814914 s (sendNew a0 a1 a2 s) := by
  unfold sendNew
  try dsimp only
  repeat' (first
    | with_reducible apply Keeps.refl
    | with_reducible assumption
    | (with_reducible apply putFrame_keeps_k; decide)
    | (with_reducible apply putIdle_keeps_k; decide)
    | (with_reducible apply State_setStr_keeps_k; decide)
    | (with_reducible apply State_count_keeps_k; decide)
    | with_reducible apply Keeps.foldl
    | (intro x a hx; beta_reduce; beta_reduce at hx)
    | with_reducible apply Keeps.foldlp
    | with_reducible apply Keeps.foldlq
    | split)
theorem sendNew_keeps_k {m} {s0 : State} {a0 a1 a2} {s : State} (e : 549755814914 ||| m = m) (h : Keeps m s0 s) :
    Keeps m s0 (sendNew a0 a1 a2 s) := h.tr ((sendNew_keeps a0 a1 a2 s).mono e)

theorem traceSlot_keeps (a0 a1) (s : State) : Keeps 618475291650 s (traceSlot a0 a1 s) := by
  unfold traceSlot
  try dsimp only
  repeat' (first
    | with_reducible apply Keeps.refl
    | with_reducible assumption
    | (with_reducible apply takeCtrl_keeps_eqk; decide; with_reducible assumption)
    | (with_reducible apply traceTake_keeps_eqk; decide; with_reducible assumption)
    | (with_reducible apply sendNew_keeps_k; decide)
    | (with_reducible apply ctrlOrIdle_keeps_k; decide)
    | (with_reducible apply State_setStr_keeps_k; decide)
    | with_reducible apply Keeps.foldl
    | (intro x a hx; beta_reduce; beta_reduce at hx)
    | with_reducible apply Keeps.foldlp
    | with_reducible apply Keeps.foldlq
    | split)
theorem traceSlot_keeps_k {m} {s0 : State} {a0 a1} {s : State} (e : 618475291650 ||| m = m) (h : Keeps m s0 s) :
    Keeps m s0 (traceSlot a0 a1 s) := h.tr ((traceSlot_keeps a0 a1 s).mono e)

theorem settleAbrupt_keeps (s : State) : Keeps 103700268035 s (settleAbrupt s) := by
  unfold settleAbrupt
  try dsimp only
  repeat' (first
    | with_reducible apply Keeps.refl
    | with_reducible assumption
    | (with_reducible apply State_setDomain_keeps_k; decide)
    | (with_reducible apply settleHarp_keeps_k; decide)
    | with_reducible apply Keeps.foldl
    | (intro x a hx; beta_reduce; beta_reduce at hx)
    | with_reducible apply Keeps.foldlp
    | with_reducible apply Keeps.foldlq
    | split)
theorem settleAbrupt_keeps_k {m} {s0 : State} {s : State} (e : 103700268035 ||| m = m) (h : Keeps m s0 s) :
    Keeps m s0 (settleAbrupt s) := h.tr ((settleAbrupt_keeps  s).mono e)

theorem setReference_keeps (a0) (s : State) : Keeps 32768 s (setReference a0 s) := by
  unfold setReference
  try dsimp only
  repeat' (first
    | with_reducible apply Keeps.refl
    | with_reducible assumption
    | (with_reducible apply State_setDomain_keeps_k; decide)
    | with_reducible apply Keeps.foldl
    | (intro x a hx; beta_reduce; beta_reduce at hx)
    | with_reducible apply Keeps.foldlp
    | with_reducible apply Keeps.foldlq
    | split)
theorem setReference_keeps_k {m} {s0 : State} {a0} {s : State} (e : 32768 ||| m = m) (h : Keeps m s0 s) :
    Keeps m s0 (setReference a0 s) := h.tr ((setReference_keeps a0 s).mono e)

theorem depthRecord_keeps (a0 a1 a2) (s : State) : Keeps 256 s (depthRecord a0 a1 a2 s) := by
  unfold depthRecord
  try dsimp only
  repeat' (first
    | with_reducible apply Keeps.refl
    | with_reducible assumption
    | with_reducible apply Keeps.foldl
    | (intro x a hx; beta_reduce; beta_reduce at hx)
    | with_reducible apply Keeps.foldlp
    | with_reducible apply Keeps.foldlq
    | split
    | (with_reducible apply Keeps.u256; decide))
theorem depthRecord_keeps_k {m} {s0 : State} {a0 a1 a2} {s : State} (e : 256 ||| m = m) (h : Keeps m s0 s) :
    Keeps m s0 (depthRecord a0 a1 a2 s) := h.tr ((depthRecord_keeps a0 a1 a2 s).mono e)

theorem busSend_keeps (a0 a1) (s : State) : Keeps 549755814914 s (busSend a0 a1 s) := by
  unfold busSend
  try dsimp only
  repeat' (first
    | with_reducible apply Keeps.refl
    | with_reducible assumption
    | (with_reducible apply emitFrame_keeps_k; decide)
    | (with_reducible apply State_setStr_keeps_k; decide)
    | (with_reducible apply State_count_keeps_k; decide)
    | with_reducible apply Keeps.foldl
    | (intro x a hx; beta_reduce; beta_reduce at hx)
    | with_reducible apply Keeps.foldlp
    | with_reducible apply Keeps.foldlq
    | split)
theorem busSend_keeps_k {m} {s0 : State} {a0 a1} {s : State} (e : 549755814914 ||| m = m) (h : Keeps m s0 s) :
    Keeps m s0 (busSend a0 a1 s) := h.tr ((busSend_keeps a0 a1 s).mono e)

theorem tileFreeze_keeps (a0) (s : State) : Keeps 1890420403571 s (tileFreeze a0 s) := by
  unfold tileFreeze
  try dsimp only
  repeat' (first
    | with_reducible apply Keeps.refl
    | with_reducible assumption
    | (with_reducible apply countLog_keeps_k; decide)
    | (with_reducible apply enterString_keeps_k; decide)
    | (with_reducible apply State_setTile_keeps_k; decide)
    | (with_reducible apply State_setStr_keeps_k; decide)
    | with_reducible apply Keeps.foldl
    | (intro x a hx; beta_reduce; beta_reduce at hx)
    | with_reducible apply Keeps.foldlp
    | with_reducible apply Keeps.foldlq
    | split)
theorem tileFreeze_keeps_k {m} {s0 : State} {a0} {s : State} (e : 1890420403571 ||| m = m) (h : Keeps m s0 s) :
    Keeps m s0 (tileFreeze a0 s) := h.tr ((tileFreeze_keeps a0 s).mono e)

theorem returnLine_keeps (a0 a1 a2) (s : State) : Keeps 1890420401523 s (returnLine a0 a1 a2 s) := by
  unfold returnLine
  try dsimp only
  repeat' (first
    | with_reducible apply Keeps.refl
    | with_reducible assumption
    | (with_reducible apply announceMap_keeps_k; decide)
    | (with_reducible apply settleString_keeps_k; decide)
    | (with_reducible apply State_setStr_keeps_k; decide)
    | with_reducible apply Keeps.foldl
    | (intro x a hx; beta_reduce; beta_reduce at hx)
    | with_reducible apply Keeps.foldlp
    | with_reducible apply Keeps.foldlq
    | split)
theorem returnLine_keeps_k {m} {s0 : State} {a0 a1 a2} {s : State} (e : 1890420401523 ||| m = m) (h : Keeps m s0 s) :
    Keeps m s0 (returnLine a0 a1 a2 s) := h.tr ((returnLine_keeps a0 a1 a2 s).mono e)

theorem beginTest_keeps (a0) (s : State) : Keeps 67109888 s (beginTest a0 s) := by
  unfold beginTest
  try dsimp only
  repeat' (first
    | with_reducible apply Keeps.refl
    | with_reducible assumption
    | with_reducible apply Keeps.foldl
    | (intro x a hx; beta_reduce; beta_reduce at hx)
    | with_reducible apply Keeps.foldlp
    | with_reducible apply Keeps.foldlq
    | split
    | (with_reducible apply Keeps.u67109888; decide; (first | exact id | exact fun _ => by decide | exact fun h => Memory_writeN_wf _ _ _ h | exact Nat.le_add_right _ _ | assumption | (intro h; exact h))))
theorem beginTest_keeps_k {m} {s0 : State} {a0} {s : State} (e : 67109888 ||| m = m) (h : Keeps m s0 s) :
    Keeps m s0 (beginTest a0 s) := h.tr ((beginTest_keeps a0 s).mono e)

theorem startTraining_keeps (a0) (s : State) : Keeps 1890420401523 s (startTraining a0 s) := by
  unfold startTraining
  try dsimp only
  repeat' (first
    | with_reducible apply Keeps.refl
    | with_reducible assumption
    | (with_reducible apply enterString_keeps_k; decide)
    | (with_reducible apply State_setStr_keeps_k; decide)
    | with_reducible apply Keeps.foldl
    | (intro x a hx; beta_reduce; beta_reduce at hx)
    | with_reducible apply Keeps.foldlp
    | with_reducible apply Keeps.foldlq
    | split)
theorem startTraining_keeps_k {m} {s0 : State} {a0} {s : State} (e : 1890420401523 ||| m = m) (h : Keeps m s0 s) :
    Keeps m s0 (startTraining a0 s) := h.tr ((startTraining_keeps a0 s).mono e)

theorem measureLane_keeps (a1) (s : State) : Keeps 1024 s (measureLane s a1) := by
  unfold measureLane
  try dsimp only
  repeat' (first
    | with_reducible apply Keeps.refl
    | with_reducible assumption
    | (with_reducible apply State_setStr_keeps_k; decide)
    | with_reducible apply Keeps.foldl
    | (intro x a hx; beta_reduce; beta_reduce at hx)
    | with_reducible apply Keeps.foldlp
    | with_reducible apply Keeps.foldlq
    | split)
theorem measureLane_keeps_k {m} {s0 : State} {a1} {s : State} (e : 1024 ||| m = m) (h : Keeps m s0 s) :
    Keeps m s0 (measureLane s a1) := h.tr ((measureLane_keeps a1 s).mono e)

theorem resendFrame_keeps (a0 a1 a2 a3) (s : State) : Keeps 549755814914 s (resendFrame a0 a1 a2 a3 s) := by
  unfold resendFrame
  try dsimp only
  repeat' (first
    | with_reducible apply Keeps.refl
    | with_reducible assumption
    | (with_reducible apply putFrame_keeps_k; decide)
    | (with_reducible apply State_setStr_keeps_k; decide)
    | (with_reducible apply State_count_keeps_k; decide)
    | with_reducible apply Keeps.foldl
    | (intro x a hx; beta_reduce; beta_reduce at hx)
    | with_reducible apply Keeps.foldlp
    | with_reducible apply Keeps.foldlq
    | split)
theorem resendFrame_keeps_k {m} {s0 : State} {a0 a1 a2 a3} {s : State} (e : 549755814914 ||| m = m) (h : Keeps m s0 s) :
    Keeps m s0 (resendFrame a0 a1 a2 a3 s) := h.tr ((resendFrame_keeps a0 a1 a2 a3 s).mono e)

theorem sendPick_keeps_k {m} {s0 : State} {n : Nat} {o : Option Nat} {k : Nat} {b : Bool} {f : State → State} {s : State} (e : 549755814914 ||| m = m)
    (hf : ∀ x, Keeps m s0 x → Keeps m s0 (f x)) (h : Keeps m s0 s) : Keeps m s0 (sendPick n o k b f s) := by
  unfold sendPick
  dsimp only
  split
  · split
    · exact h.tr ((((State_setStr_keeps _ _ _).mono (by decide)).tr ((sendNew_keeps _ _ _ _).mono (by decide)) : Keeps 549755814914 _ _).mono e)
    · exact hf _ h
  · exact hf _ h

theorem sendChoice_keeps (a0) (s : State) : Keeps 618475291650 s (sendChoice a0 s) := by
  unfold sendChoice
  try dsimp only
  repeat' (first
    | with_reducible apply Keeps.refl
    | with_reducible assumption
    | (intro x hx; beta_reduce)
    | (rename_i h; split at h; exact takeRelay_keeps_eqk (by decide) h (Keeps.refl _ _); cases h)
    | (with_reducible apply traceSlot_keeps_k; decide)
    | (with_reducible apply resendFrame_keeps_k; decide)
    | (with_reducible apply sendPick_keeps_k; decide)
    | (with_reducible apply putFrame_keeps_k; decide)
    | (with_reducible apply sendNew_keeps_k; decide)
    | (with_reducible apply putIdle_keeps_k; decide)
    | (with_reducible apply ctrlOrIdle_keeps_k; decide)
    | (with_reducible apply State_setStr_keeps_k; decide)
    | (with_reducible apply takeRelay_keeps_eqk; decide; with_reducible assumption)
    | (with_reducible apply putCtrl_keeps_k; decide)
    | with_reducible apply Keeps.foldl
    | (intro x a hx; beta_reduce; beta_reduce at hx)
    | with_reducible apply Keeps.foldlp
    | with_reducible apply Keeps.foldlq
    | split)
theorem sendChoice_keeps_k {m} {s0 : State} {a0} {s : State} (e : 618475291650 ||| m = m) (h : Keeps m s0 s) :
    Keeps m s0 (sendChoice a0 s) := h.tr ((sendChoice_keeps a0 s).mono e)

theorem afterLaneCheck_keeps (a0) (s : State) : Keeps 1890420401523 s (afterLaneCheck a0 s) := by
  unfold afterLaneCheck
  try dsimp only
  repeat' (first
    | with_reducible apply Keeps.refl
    | with_reducible assumption
    | (with_reducible apply enterString_keeps_k; decide)
    | (with_reducible apply startTraining_keeps_k; decide)
    | with_reducible apply Keeps.foldl
    | (intro x a hx; beta_reduce; beta_reduce at hx)
    | with_reducible apply Keeps.foldlp
    | with_reducible apply Keeps.foldlq
    | split)
theorem afterLaneCheck_keeps_k {m} {s0 : State} {a0} {s : State} (e : 1890420401523 ||| m = m) (h : Keeps m s0 s) :
    Keeps m s0 (afterLaneCheck a0 s) := h.tr ((afterLaneCheck_keeps a0 s).mono e)

theorem setPeg_keeps (a0 a1 a2 a3) (s : State) : Keeps 1024 s (setPeg a0 a1 a2 a3 s) := by
  unfold setPeg
  try dsimp only
  repeat' (first
    | with_reducible apply Keeps.refl
    | with_reducible assumption
    | (with_reducible apply State_setStr_keeps_k; decide)
    | with_reducible apply Keeps.foldl
    | (intro x a hx; beta_reduce; beta_reduce at hx)
    | with_reducible apply Keeps.foldlp
    | with_reducible apply Keeps.foldlq
    | split)
theorem setPeg_keeps_k {m} {s0 : State} {a0 a1 a2 a3} {s : State} (e : 1024 ||| m = m) (h : Keeps m s0 s) :
    Keeps m s0 (setPeg a0 a1 a2 a3 s) := h.tr ((setPeg_keeps a0 a1 a2 a3 s).mono e)

theorem pegAlarm_keeps (a0 a1 a2) (s : State) : Keeps 1890420401523 s (pegAlarm a0 a1 a2 s) := by
  unfold pegAlarm
  try dsimp only
  repeat' (first
    | with_reducible apply Keeps.refl
    | with_reducible assumption
    | (with_reducible apply countLog_keeps_k; decide)
    | (with_reducible apply dropLine_keeps_k; decide)
    | (with_reducible apply setPeg_keeps_k; decide)
    | with_reducible apply Keeps.foldl
    | (intro x a hx; beta_reduce; beta_reduce at hx)
    | with_reducible apply Keeps.foldlp
    | with_reducible apply Keeps.foldlq
    | split)
theorem pegAlarm_keeps_k {m} {s0 : State} {a0 a1 a2} {s : State} (e : 1890420401523 ||| m = m) (h : Keeps m s0 s) :
    Keeps m s0 (pegAlarm a0 a1 a2 s) := h.tr ((pegAlarm_keeps a0 a1 a2 s).mono e)

theorem receiveCtrl_keeps (a0 a1 a2) (s : State) : Keeps 1049618 s (receiveCtrl a0 a1 a2 s).2 := by
  unfold receiveCtrl
  try dsimp only
  repeat' (first
    | with_reducible apply Keeps.refl
    | with_reducible assumption
    | (with_reducible apply receive_keeps_k; decide)
    | (with_reducible apply receive_keeps_eqk; decide; with_reducible assumption)
    | with_reducible apply Keeps.foldl
    | (intro x a hx; beta_reduce; beta_reduce at hx)
    | with_reducible apply Keeps.foldlp
    | with_reducible apply Keeps.foldlq
    | split)
theorem receiveCtrl_keeps_k {m} {s0 : State} {a0 a1 a2} {s : State} (e : 1049618 ||| m = m) (h : Keeps m s0 s) :
    Keeps m s0 (receiveCtrl a0 a1 a2 s).2 := h.tr ((receiveCtrl_keeps a0 a1 a2 s).mono e)
theorem receiveCtrl_keeps_eqk {m} {s0 : State} {a0 a1 a2} {s : State} {x t} (e : 1049618 ||| m = m) (h : receiveCtrl a0 a1 a2 s = (x, t))
    (k : Keeps m s0 s) : Keeps m s0 t := by
  have := receiveCtrl_keeps a0 a1 a2 s; rw [h] at this; exact k.tr (this.mono e)

theorem noteCredits_keeps (a0 a1) (s : State) : Keeps 1024 s (noteCredits a0 a1 s) := by
  unfold noteCredits
  try dsimp only
  repeat' (first
    | with_reducible apply Keeps.refl
    | with_reducible assumption
    | (with_reducible apply State_setStr_keeps_k; decide)
    | with_reducible apply Keeps.foldl
    | (intro x a hx; beta_reduce; beta_reduce at hx)
    | with_reducible apply Keeps.foldlp
    | with_reducible apply Keeps.foldlq
    | split)
theorem noteCredits_keeps_k {m} {s0 : State} {a0 a1} {s : State} (e : 1024 ||| m = m) (h : Keeps m s0 s) :
    Keeps m s0 (noteCredits a0 a1 s) := h.tr ((noteCredits_keeps a0 a1 s).mono e)

theorem trainDone_keeps (a0) (s : State) : Keeps 1890420401523 s (trainDone a0 s) := by
  unfold trainDone
  try dsimp only
  repeat' (first
    | with_reducible apply Keeps.refl
    | with_reducible assumption
    | (with_reducible apply chanFrameDone_keeps_k; decide)
    | (with_reducible apply enterString_keeps_k; decide)
    | (with_reducible apply State_setStr_keeps_k; decide)
    | with_reducible apply Keeps.foldl
    | (intro x a hx; beta_reduce; beta_reduce at hx)
    | with_reducible apply Keeps.foldlp
    | with_reducible apply Keeps.foldlq
    | split)
theorem trainDone_keeps_k {m} {s0 : State} {a0} {s : State} (e : 1890420401523 ||| m = m) (h : Keeps m s0 s) :
    Keeps m s0 (trainDone a0 s) := h.tr ((trainDone_keeps a0 s).mono e)

theorem noteLatency_keeps (a0 a1) (s : State) : Keeps 1280 s (noteLatency a0 a1 s) := by
  unfold noteLatency
  try dsimp only
  repeat' (first
    | with_reducible apply Keeps.refl
    | with_reducible assumption
    | (with_reducible apply State_setStr_keeps_k; decide)
    | with_reducible apply Keeps.foldl
    | (intro x a hx; beta_reduce; beta_reduce at hx)
    | with_reducible apply Keeps.foldlp
    | with_reducible apply Keeps.foldlq
    | split
    | (with_reducible apply Keeps.u256; decide))
theorem noteLatency_keeps_k {m} {s0 : State} {a0 a1} {s : State} (e : 1280 ||| m = m) (h : Keeps m s0 s) :
    Keeps m s0 (noteLatency a0 a1 s) := h.tr ((noteLatency_keeps a0 a1 s).mono e)

theorem measureString_keeps (a0 a1) (s : State) : Keeps 1024 s (measureString a0 a1 s) := by
  unfold measureString
  try dsimp only
  repeat' (first
    | with_reducible apply Keeps.refl
    | with_reducible assumption
    | (with_reducible apply measureLane_keeps_k; decide)
    | with_reducible apply Keeps.foldl
    | (intro x a hx; beta_reduce; beta_reduce at hx)
    | with_reducible apply Keeps.foldlp
    | with_reducible apply Keeps.foldlq
    | split)
theorem measureString_keeps_k {m} {s0 : State} {a0 a1} {s : State} (e : 1024 ||| m = m) (h : Keeps m s0 s) :
    Keeps m s0 (measureString a0 a1 s) := h.tr ((measureString_keeps a0 a1 s).mono e)

theorem injectAlarms_keeps (a0 a1) (s : State) : Keeps 1890420401523 s (injectAlarms a0 a1 s) := by
  induction a0 generalizing a1 s with
  | zero =>
    unfold injectAlarms
    try dsimp only
    repeat' (first
      | with_reducible apply Keeps.refl
      | with_reducible assumption
      | (with_reducible apply ih)
      | (with_reducible apply pegAlarm_keeps_k; decide)
      | (with_reducible apply State_setStr_keeps_k; decide)
      | (with_reducible apply State_count_keeps_k; decide)
      | with_reducible apply Keeps.foldl
      | (intro x a hx; beta_reduce; beta_reduce at hx)
      | with_reducible apply Keeps.foldlp
      | with_reducible apply Keeps.foldlq
      | split)
  | succ n_ ih' =>
    have ih {s0 : State} {a1} {s : State} (h : Keeps 1890420401523 s0 s) : Keeps 1890420401523 s0 (injectAlarms n_ a1 s) := h.tr (ih' a1 s)
    unfold injectAlarms
    try dsimp only
    repeat' (first
      | with_reducible apply Keeps.refl
      | with_reducible assumption
      | (with_reducible apply ih)
      | (with_reducible apply pegAlarm_keeps_k; decide)
      | (with_reducible apply State_setStr_keeps_k; decide)
      | (with_reducible apply State_count_keeps_k; decide)
      | with_reducible apply Keeps.foldl
      | (intro x a hx; beta_reduce; beta_reduce at hx)
      | with_reducible apply Keeps.foldlp
      | with_reducible apply Keeps.foldlq
      | split)
theorem injectAlarms_keeps_k {m} {s0 : State} {a0 a1} {s : State} (e : 1890420401523 ||| m = m) (h : Keeps m s0 s) :
    Keeps m s0 (injectAlarms a0 a1 s) := h.tr ((injectAlarms_keeps a0 a1 s).mono e)

end Sys2Proof.Machine
end

