-- ==== Sys2Proof/Laws/KeepsHarp.lean ====
section
/-! SUPPORT. Keeps, for every operation of Machine/Harp.lean that answers a state. -/

set_option linter.all false

namespace Sys2Proof.Machine

theorem newCartridge_keeps (a0) (s : State) : Keeps 32768 s (newCartridge a0 s) := by
  unfold newCartridge
  try dsimp only
  repeat' (first
    | with_reducible apply Keeps.refl
    | with_reducible assumption
    | with_reducible apply Keeps.foldl
    | (intro x a hx; beta_reduce; beta_reduce at hx)
    | with_reducible apply Keeps.foldlp
    | with_reducible apply Keeps.foldlq
    | split
    | (with_reducible apply Keeps.u32768; decide))
theorem newCartridge_keeps_k {m} {s0 : State} {a0} {s : State} (e : 32768 ||| m = m) (h : Keeps m s0 s) :
    Keeps m s0 (newCartridge a0 s) := h.tr ((newCartridge_keeps a0 s).mono e)

theorem setRole_keeps (a0 a1) (s : State) : Keeps 16384 s (setRole a0 a1 s) := by
  unfold setRole
  try dsimp only
  repeat' (first
    | with_reducible apply Keeps.refl
    | with_reducible assumption
    | (with_reducible apply State_setHarp_keeps_k; decide)
    | with_reducible apply Keeps.foldl
    | (intro x a hx; beta_reduce; beta_reduce at hx)
    | with_reducible apply Keeps.foldlp
    | with_reducible apply Keeps.foldlq
    | split)
theorem setRole_keeps_k {m} {s0 : State} {a0 a1} {s : State} (e : 16384 ||| m = m) (h : Keeps m s0 s) :
    Keeps m s0 (setRole a0 a1 s) := h.tr ((setRole_keeps a0 a1 s).mono e)

theorem traceStep_keeps (a0 a1) (s : State) : Keeps 68719476738 s (traceStep a0 a1 s) := by
  unfold traceStep
  try dsimp only
  repeat' (first
    | with_reducible apply Keeps.refl
    | with_reducible assumption
    | (with_reducible apply traceMake_keeps_k; decide)
    | with_reducible apply Keeps.foldl
    | (intro x a hx; beta_reduce; beta_reduce at hx)
    | with_reducible apply Keeps.foldlp
    | with_reducible apply Keeps.foldlq
    | split)
theorem traceStep_keeps_k {m} {s0 : State} {a0 a1} {s : State} (e : 68719476738 ||| m = m) (h : Keeps m s0 s) :
    Keeps m s0 (traceStep a0 a1 s) := h.tr ((traceStep_keeps a0 a1 s).mono e)

theorem requestSpare_keeps (a0) (s : State) : Keeps 241139237891 s (requestSpare a0 s) := by
  unfold requestSpare
  try dsimp only
  repeat' (first
    | with_reducible apply Keeps.refl
    | with_reducible assumption
    | (with_reducible apply State_setDomain_keeps_k; decide)
    | (with_reducible apply settleHarp_keeps_k; decide)
    | (with_reducible apply logEvent_keeps_k; decide)
    | (with_reducible apply traceStep_keeps_k; decide)
    | (with_reducible apply setRole_keeps_k; decide)
    | (with_reducible apply State_setHarp_keeps_k; decide)
    | with_reducible apply Keeps.foldl
    | (intro x a hx; beta_reduce; beta_reduce at hx)
    | with_reducible apply Keeps.foldlp
    | with_reducible apply Keeps.foldlq
    | split)
theorem requestSpare_keeps_k {m} {s0 : State} {a0} {s : State} (e : 241139237891 ||| m = m) (h : Keeps m s0 s) :
    Keeps m s0 (requestSpare a0 s) := h.tr ((requestSpare_keeps a0 s).mono e)

theorem linePegs_keeps (a0 a1 a2) (s : State) : Keeps 1024 s (linePegs a0 a1 a2 s) := by
  unfold linePegs
  try dsimp only
  repeat' (first
    | with_reducible apply Keeps.refl
    | with_reducible assumption
    | with_reducible apply Keeps.foldl
    | (intro x a hx; beta_reduce; beta_reduce at hx)
    | with_reducible apply Keeps.foldlp
    | with_reducible apply Keeps.foldlq
    | split
    | (with_reducible apply Keeps.u1024; decide))
theorem linePegs_keeps_k {m} {s0 : State} {a0 a1 a2} {s : State} (e : 1024 ||| m = m) (h : Keeps m s0 s) :
    Keeps m s0 (linePegs a0 a1 a2 s) := h.tr ((linePegs_keeps a0 a1 a2 s).mono e)

theorem darken_keeps (a0 a1) (s : State) : Keeps 1890420401523 s (darken a0 a1 s) := by
  unfold darken
  try dsimp only
  repeat' (first
    | with_reducible apply Keeps.refl
    | with_reducible assumption
    | (with_reducible apply dropLine_keeps_k; decide)
    | (with_reducible apply retrain_keeps_k; decide)
    | with_reducible apply Keeps.foldl
    | (intro x a hx; beta_reduce; beta_reduce at hx)
    | with_reducible apply Keeps.foldlp
    | with_reducible apply Keeps.foldlq
    | split)
theorem darken_keeps_k {m} {s0 : State} {a0 a1} {s : State} (e : 1890420401523 ||| m = m) (h : Keeps m s0 s) :
    Keeps m s0 (darken a0 a1 s) := h.tr ((darken_keeps a0 a1 s).mono e)

theorem abruptLoss_keeps (a0 a1) (s : State) : Keeps 1890420450675 s (abruptLoss a0 a1 s) := by
  unfold abruptLoss
  try dsimp only
  repeat' (first
    | with_reducible apply Keeps.refl
    | with_reducible assumption
    | (with_reducible apply State_setDomain_keeps_k; decide)
    | (with_reducible apply settleHarp_keeps_k; decide)
    | (with_reducible apply requestSpare_keeps_k; decide)
    | (with_reducible apply countLog_keeps_k; decide)
    | (with_reducible apply darken_keeps_k; decide)
    | (with_reducible apply linePegs_keeps_k; decide)
    | with_reducible apply Keeps.foldl
    | (intro x a hx; beta_reduce; beta_reduce at hx)
    | with_reducible apply Keeps.foldlp
    | with_reducible apply Keeps.foldlq
    | split)
theorem abruptLoss_keeps_k {m} {s0 : State} {a0 a1} {s : State} (e : 1890420450675 ||| m = m) (h : Keeps m s0 s) :
    Keeps m s0 (abruptLoss a0 a1 s) := h.tr ((abruptLoss_keeps a0 a1 s).mono e)

theorem domainPegs_keeps (a0 a1) (s : State) : Keeps 1024 s (domainPegs a0 a1 s) := by
  unfold domainPegs
  try dsimp only
  repeat' (first
    | with_reducible apply Keeps.refl
    | with_reducible assumption
    | (with_reducible apply linePegs_keeps_k; decide)
    | with_reducible apply Keeps.foldl
    | (intro x a hx; beta_reduce; beta_reduce at hx)
    | with_reducible apply Keeps.foldlp
    | with_reducible apply Keeps.foldlq
    | split)
theorem domainPegs_keeps_k {m} {s0 : State} {a0 a1} {s : State} (e : 1024 ||| m = m) (h : Keeps m s0 s) :
    Keeps m s0 (domainPegs a0 a1 s) := h.tr ((domainPegs_keeps a0 a1 s).mono e)

theorem leaveSource_keeps (a0 a1 a2) (s : State) : Keeps 16384 s (leaveSource a0 a1 a2 s) := by
  unfold leaveSource
  try dsimp only
  repeat' (first
    | with_reducible apply Keeps.refl
    | with_reducible assumption
    | (with_reducible apply setRole_keeps_k; decide)
    | (with_reducible apply State_setHarp_keeps_k; decide)
    | with_reducible apply Keeps.foldl
    | (intro x a hx; beta_reduce; beta_reduce at hx)
    | with_reducible apply Keeps.foldlp
    | with_reducible apply Keeps.foldlq
    | split)
theorem leaveSource_keeps_k {m} {s0 : State} {a0 a1 a2} {s : State} (e : 16384 ||| m = m) (h : Keeps m s0 s) :
    Keeps m s0 (leaveSource a0 a1 a2 s) := h.tr ((leaveSource_keeps a0 a1 a2 s).mono e)

theorem serveWaiting_keeps (s : State) : Keeps 241139237891 s (serveWaiting s) := by
  unfold serveWaiting
  try dsimp only
  repeat' (first
    | with_reducible apply Keeps.refl
    | with_reducible assumption
    | (with_reducible apply requestSpare_keeps_k; decide)
    | with_reducible apply Keeps.foldl
    | (intro x a hx; beta_reduce; beta_reduce at hx)
    | with_reducible apply Keeps.foldlp
    | with_reducible apply Keeps.foldlq
    | split)
theorem serveWaiting_keeps_k {m} {s0 : State} {s : State} (e : 241139237891 ||| m = m) (h : Keeps m s0 s) :
    Keeps m s0 (serveWaiting s) := h.tr ((serveWaiting_keeps  s).mono e)

theorem startReturn_keeps (a0) (s : State) : Keeps 68719509506 s (startReturn a0 s) := by
  unfold startReturn
  try dsimp only
  repeat' (first
    | with_reducible apply Keeps.refl
    | with_reducible assumption
    | (with_reducible apply State_setDomain_keeps_k; decide)
    | (with_reducible apply traceStep_keeps_k; decide)
    | with_reducible apply Keeps.foldl
    | (intro x a hx; beta_reduce; beta_reduce at hx)
    | with_reducible apply Keeps.foldlp
    | with_reducible apply Keeps.foldlq
    | split)
theorem startReturn_keeps_k {m} {s0 : State} {a0} {s : State} (e : 68719509506 ||| m = m) (h : Keeps m s0 s) :
    Keeps m s0 (startReturn a0 s) := h.tr ((startReturn_keeps a0 s).mono e)

theorem handoverDone_keeps (a0 a1) (s : State) : Keeps 241139237891 s (handoverDone a0 a1 s) := by
  unfold handoverDone
  try dsimp only
  repeat' (first
    | with_reducible apply Keeps.refl
    | with_reducible assumption
    | (with_reducible apply State_setDomain_keeps_k; decide)
    | (with_reducible apply settleHarp_keeps_k; decide)
    | (with_reducible apply setReference_keeps_k; decide)
    | (with_reducible apply domainPegs_keeps_k; decide)
    | (with_reducible apply serveWaiting_keeps_k; decide)
    | (with_reducible apply setRole_keeps_k; decide)
    | (with_reducible apply startReturn_keeps_k; decide)
    | (with_reducible apply leaveSource_keeps_k; decide)
    | (with_reducible apply State_setHarp_keeps_k; decide)
    | with_reducible apply Keeps.foldl
    | (intro x a hx; beta_reduce; beta_reduce at hx)
    | with_reducible apply Keeps.foldlp
    | with_reducible apply Keeps.foldlq
    | split)
theorem handoverDone_keeps_k {m} {s0 : State} {a0 a1} {s : State} (e : 241139237891 ||| m = m) (h : Keeps m s0 s) :
    Keeps m s0 (handoverDone a0 a1 s) := h.tr ((handoverDone_keeps a0 a1 s).mono e)

theorem abortSounding_keeps (s : State) : Keeps 1890420467059 s (abortSounding s) := by
  unfold abortSounding
  try dsimp only
  repeat' (first
    | with_reducible apply Keeps.refl
    | with_reducible assumption
    | (with_reducible apply startTraining_keeps_k; decide)
    | with_reducible apply Keeps.foldl
    | (intro x a hx; beta_reduce; beta_reduce at hx)
    | with_reducible apply Keeps.foldlp
    | with_reducible apply Keeps.foldlq
    | split
    | (with_reducible apply Keeps.u65536; decide))
theorem abortSounding_keeps_k {m} {s0 : State} {s : State} (e : 1890420467059 ||| m = m) (h : Keeps m s0 s) :
    Keeps m s0 (abortSounding s) := h.tr ((abortSounding_keeps  s).mono e)

theorem harpFails_keeps (a0 a1) (s : State) : Keeps 206158446594 s (harpFails a0 a1 s) := by
  unfold harpFails
  try dsimp only
  repeat' (first
    | with_reducible apply Keeps.refl
    | with_reducible assumption
    | (with_reducible apply logEvent_keeps_k; decide)
    | (with_reducible apply State_setHarp_keeps_k; decide)
    | with_reducible apply Keeps.foldl
    | (intro x a hx; beta_reduce; beta_reduce at hx)
    | with_reducible apply Keeps.foldlp
    | with_reducible apply Keeps.foldlq
    | split)
theorem harpFails_keeps_k {m} {s0 : State} {a0 a1} {s : State} (e : 206158446594 ||| m = m) (h : Keeps m s0 s) :
    Keeps m s0 (harpFails a0 a1 s) := h.tr ((harpFails_keeps a0 a1 s).mono e)

theorem lineLocked_keeps (a0 a1 a2) (s : State) : Keeps 1890420401523 s (lineLocked a0 a1 a2 s) := by
  unfold lineLocked
  try dsimp only
  repeat' (first
    | with_reducible apply Keeps.refl
    | with_reducible assumption
    | (with_reducible apply returnLine_keeps_k; decide)
    | (with_reducible apply announceMap_keeps_k; decide)
    | (with_reducible apply State_setStr_keeps_k; decide)
    | with_reducible apply Keeps.foldl
    | (intro x a hx; beta_reduce; beta_reduce at hx)
    | with_reducible apply Keeps.foldlp
    | with_reducible apply Keeps.foldlq
    | split)
theorem lineLocked_keeps_k {m} {s0 : State} {a0 a1 a2} {s : State} (e : 1890420401523 ||| m = m) (h : Keeps m s0 s) :
    Keeps m s0 (lineLocked a0 a1 a2 s) := h.tr ((lineLocked_keeps a0 a1 a2 s).mono e)

theorem releaseHold_keeps (a0) (s : State) : Keeps 1024 s (releaseHold a0 s) := by
  unfold releaseHold
  try dsimp only
  repeat' (first
    | with_reducible apply Keeps.refl
    | with_reducible assumption
    | (with_reducible apply State_setStr_keeps_k; decide)
    | with_reducible apply Keeps.foldl
    | (intro x a hx; beta_reduce; beta_reduce at hx)
    | with_reducible apply Keeps.foldlp
    | with_reducible apply Keeps.foldlq
    | split)
theorem releaseHold_keeps_k {m} {s0 : State} {a0} {s : State} (e : 1024 ||| m = m) (h : Keeps m s0 s) :
    Keeps m s0 (releaseHold a0 s) := h.tr ((releaseHold_keeps a0 s).mono e)

end Sys2Proof.Machine
end

