-- ==== Sys2Proof/Laws/KeepsFabricLink.lean ====
section
/-! SUPPORT. Keeps, for every operation of Machine/FabricLink.lean that answers a state. -/

set_option linter.all false

namespace Sys2Proof.Machine

theorem enterPort_keeps (a0 a1) (s : State) : Keeps 68719738882 s (enterPort a0 a1 s) := by
  unfold enterPort
  try dsimp only
  repeat' (first
    | with_reducible apply Keeps.refl
    | with_reducible assumption
    | (with_reducible apply State_setPort_keeps_k; decide)
    | (with_reducible apply traceMake_keeps_k; decide)
    | with_reducible apply Keeps.foldl
    | (intro x a hx; beta_reduce; beta_reduce at hx)
    | with_reducible apply Keeps.foldlp
    | with_reducible apply Keeps.foldlq
    | split)
theorem enterPort_keeps_k {m} {s0 : State} {a0 a1} {s : State} (e : 68719738882 ||| m = m) (h : Keeps m s0 s) :
    Keeps m s0 (enterPort a0 a1 s) := h.tr ((enterPort_keeps a0 a1 s).mono e)

theorem trainPort_keeps (a0) (s : State) : Keeps 68719738882 s (trainPort a0 s) := by
  unfold trainPort
  try dsimp only
  repeat' (first
    | with_reducible apply Keeps.refl
    | with_reducible assumption
    | (with_reducible apply State_setPort_keeps_k; decide)
    | (with_reducible apply enterPort_keeps_k; decide)
    | with_reducible apply Keeps.foldl
    | (intro x a hx; beta_reduce; beta_reduce at hx)
    | with_reducible apply Keeps.foldlp
    | with_reducible apply Keeps.foldlq
    | split)
theorem trainPort_keeps_k {m} {s0 : State} {a0} {s : State} (e : 68719738882 ||| m = m) (h : Keeps m s0 s) :
    Keeps m s0 (trainPort a0 s) := h.tr ((trainPort_keeps a0 s).mono e)

theorem retrainPort_keeps (a0) (s : State) : Keeps 68719738882 s (retrainPort a0 s) := by
  unfold retrainPort
  try dsimp only
  repeat' (first
    | with_reducible apply Keeps.refl
    | with_reducible assumption
    | (with_reducible apply State_setPort_keeps_k; decide)
    | (with_reducible apply trainPort_keeps_k; decide)
    | with_reducible apply Keeps.foldl
    | (intro x a hx; beta_reduce; beta_reduce at hx)
    | with_reducible apply Keeps.foldlp
    | with_reducible apply Keeps.foldlq
    | split)
theorem retrainPort_keeps_k {m} {s0 : State} {a0} {s : State} (e : 68719738882 ||| m = m) (h : Keeps m s0 s) :
    Keeps m s0 (retrainPort a0 s) := h.tr ((retrainPort_keeps a0 s).mono e)

theorem ringFree_keeps (a0 a1) (s : State) : Keeps 1573906 s (ringFree a0 a1 s) := by
  unfold ringFree
  try dsimp only
  repeat' (first
    | with_reducible apply Keeps.refl
    | with_reducible assumption
    | (with_reducible apply sendWrite_keeps_k; decide)
    | with_reducible apply Keeps.foldl
    | (intro x a hx; beta_reduce; beta_reduce at hx)
    | with_reducible apply Keeps.foldlp
    | with_reducible apply Keeps.foldlq
    | split
    | (with_reducible apply Keeps.u524288; decide))
theorem ringFree_keeps_k {m} {s0 : State} {a0 a1} {s : State} (e : 1573906 ||| m = m) (h : Keeps m s0 s) :
    Keeps m s0 (ringFree a0 a1 s) := h.tr ((ringFree_keeps a0 a1 s).mono e)

theorem dropPort_keeps (a0 a1) (s : State) : Keeps 68719738882 s (dropPort a0 a1 s) := by
  unfold dropPort
  try dsimp only
  repeat' (first
    | with_reducible apply Keeps.refl
    | with_reducible assumption
    | (with_reducible apply State_setPort_keeps_k; decide)
    | (with_reducible apply enterPort_keeps_k; decide)
    | with_reducible apply Keeps.foldl
    | (intro x a hx; beta_reduce; beta_reduce at hx)
    | with_reducible apply Keeps.foldlp
    | with_reducible apply Keeps.foldlq
    | split)
theorem dropPort_keeps_k {m} {s0 : State} {a0 a1} {s : State} (e : 68719738882 ||| m = m) (h : Keeps m s0 s) :
    Keeps m s0 (dropPort a0 a1 s) := h.tr ((dropPort_keeps a0 a1 s).mono e)

theorem putBlock_keeps (a0 a1 a2 a3) (s : State) : Keeps 549756076032 s (putBlock a0 a1 a2 a3 s) := by
  unfold putBlock
  try dsimp only
  repeat' (first
    | with_reducible apply Keeps.refl
    | with_reducible assumption
    | (with_reducible apply State_setPort_keeps_k; decide)
    | (with_reducible apply State_emit_keeps_k; decide)
    | with_reducible apply Keeps.foldl
    | (intro x a hx; beta_reduce; beta_reduce at hx)
    | with_reducible apply Keeps.foldlp
    | with_reducible apply Keeps.foldlq
    | split)
theorem putBlock_keeps_k {m} {s0 : State} {a0 a1 a2 a3} {s : State} (e : 549756076032 ||| m = m) (h : Keeps m s0 s) :
    Keeps m s0 (putBlock a0 a1 a2 a3 s) := h.tr ((putBlock_keeps a0 a1 a2 a3 s).mono e)

theorem resendBlock_keeps (a0 a1 a2) (s : State) : Keeps 549756076034 s (resendBlock a0 a1 a2 s) := by
  unfold resendBlock
  try dsimp only
  repeat' (first
    | with_reducible apply Keeps.refl
    | with_reducible assumption
    | (with_reducible apply State_setPort_keeps_k; decide)
    | (with_reducible apply putBlock_keeps_k; decide)
    | (with_reducible apply State_count_keeps_k; decide)
    | with_reducible apply Keeps.foldl
    | (intro x a hx; beta_reduce; beta_reduce at hx)
    | with_reducible apply Keeps.foldlp
    | with_reducible apply Keeps.foldlq
    | split)
theorem resendBlock_keeps_k {m} {s0 : State} {a0 a1 a2} {s : State} (e : 549756076034 ||| m = m) (h : Keeps m s0 s) :
    Keeps m s0 (resendBlock a0 a1 a2 s) := h.tr ((resendBlock_keeps a0 a1 a2 s).mono e)

theorem sendRecord_keeps (a0 a1 a2) (s : State) : Keeps 549756076032 s (sendRecord a0 a1 a2 s) := by
  unfold sendRecord
  try dsimp only
  repeat' (first
    | with_reducible apply Keeps.refl
    | with_reducible assumption
    | (with_reducible apply State_setPort_keeps_k; decide)
    | (with_reducible apply putBlock_keeps_k; decide)
    | with_reducible apply Keeps.foldl
    | (intro x a hx; beta_reduce; beta_reduce at hx)
    | with_reducible apply Keeps.foldlp
    | with_reducible apply Keeps.foldlq
    | split)
theorem sendRecord_keeps_k {m} {s0 : State} {a0 a1 a2} {s : State} (e : 549756076032 ||| m = m) (h : Keeps m s0 s) :
    Keeps m s0 (sendRecord a0 a1 a2 s) := h.tr ((sendRecord_keeps a0 a1 a2 s).mono e)

theorem markPacket_keeps (a0 a1 a2) (s : State) : Keeps 2 s (markPacket a0 a1 a2 s).2 := by
  unfold markPacket
  try dsimp only
  repeat' (first
    | with_reducible apply Keeps.refl
    | with_reducible assumption
    | (with_reducible apply State_count_keeps_k; decide)
    | with_reducible apply Keeps.foldl
    | (intro x a hx; beta_reduce; beta_reduce at hx)
    | with_reducible apply Keeps.foldlp
    | with_reducible apply Keeps.foldlq
    | split)
theorem markPacket_keeps_k {m} {s0 : State} {a0 a1 a2} {s : State} (e : 2 ||| m = m) (h : Keeps m s0 s) :
    Keeps m s0 (markPacket a0 a1 a2 s).2 := h.tr ((markPacket_keeps a0 a1 a2 s).mono e)
theorem markPacket_keeps_eqk {m} {s0 : State} {a0 a1 a2} {s : State} {x t} (e : 2 ||| m = m) (h : markPacket a0 a1 a2 s = (x, t))
    (k : Keeps m s0 s) : Keeps m s0 t := by
  have := markPacket_keeps a0 a1 a2 s; rw [h] at this; exact k.tr (this.mono e)

theorem startPacket_keeps (a0) (s : State) : Keeps 1836050 s (startPacket a0 s) := by
  unfold startPacket
  try dsimp only
  repeat' (first
    | with_reducible apply Keeps.refl
    | with_reducible assumption
    | (with_reducible apply State_setPort_keeps_k; decide)
    | (with_reducible apply ringFree_keeps_k; decide)
    | (with_reducible apply markPacket_keeps_k; decide)
    | (with_reducible apply markPacket_keeps_eqk; decide; with_reducible assumption)
    | with_reducible apply Keeps.foldl
    | (intro x a hx; beta_reduce; beta_reduce at hx)
    | with_reducible apply Keeps.foldlp
    | with_reducible apply Keeps.foldlq
    | split)
theorem startPacket_keeps_k {m} {s0 : State} {a0} {s : State} (e : 1836050 ||| m = m) (h : Keeps m s0 s) :
    Keeps m s0 (startPacket a0 s) := h.tr ((startPacket_keeps a0 s).mono e)

theorem layFlits_keeps (a0 a1 a2 a3) (s : State) : Keeps 1836050 s (layFlits a0 a1 a2 a3 s).2 := by
  induction a0 generalizing a1 a2 a3 s with
  | zero =>
    unfold layFlits
    try dsimp only
    repeat' (first
      | with_reducible apply Keeps.refl
      | with_reducible assumption
      | (with_reducible apply ih)
      | (with_reducible apply State_setPort_keeps_k; decide)
      | (with_reducible apply startPacket_keeps_k; decide)
      | with_reducible apply Keeps.foldl
      | (intro x a hx; beta_reduce; beta_reduce at hx)
      | with_reducible apply Keeps.foldlp
      | with_reducible apply Keeps.foldlq
      | split)
  | succ n_ ih' =>
    have ih {s0 : State} {a1 a2 a3} {s : State} (h : Keeps 1836050 s0 s) : Keeps 1836050 s0 (layFlits n_ a1 a2 a3 s).2 := h.tr (ih' a1 a2 a3 s)
    unfold layFlits
    try dsimp only
    repeat' (first
      | with_reducible apply Keeps.refl
      | with_reducible assumption
      | (with_reducible apply ih)
      | (with_reducible apply State_setPort_keeps_k; decide)
      | (with_reducible apply startPacket_keeps_k; decide)
      | with_reducible apply Keeps.foldl
      | (intro x a hx; beta_reduce; beta_reduce at hx)
      | with_reducible apply Keeps.foldlp
      | with_reducible apply Keeps.foldlq
      | split)
theorem layFlits_keeps_k {m} {s0 : State} {a0 a1 a2 a3} {s : State} (e : 1836050 ||| m = m) (h : Keeps m s0 s) :
    Keeps m s0 (layFlits a0 a1 a2 a3 s).2 := h.tr ((layFlits_keeps a0 a1 a2 a3 s).mono e)
theorem layFlits_keeps_eqk {m} {s0 : State} {a0 a1 a2 a3} {s : State} {x t} (e : 1836050 ||| m = m) (h : layFlits a0 a1 a2 a3 s = (x, t))
    (k : Keeps m s0 s) : Keeps m s0 t := by
  have := layFlits_keeps a0 a1 a2 a3 s; rw [h] at this; exact k.tr (this.mono e)

theorem sendBlock_keeps (a0) (s : State) : Keeps 549757649938 s (sendBlock a0 s) := by
  unfold sendBlock
  try dsimp only
  repeat' (first
    | with_reducible apply Keeps.refl
    | with_reducible assumption
    | (with_reducible apply State_setPort_keeps_k; decide)
    | (with_reducible apply layFlits_keeps_k; decide)
    | (with_reducible apply layFlits_keeps_eqk; decide; with_reducible assumption)
    | (with_reducible apply putBlock_keeps_k; decide)
    | (with_reducible apply State_count_keeps_k; decide)
    | with_reducible apply Keeps.foldl
    | (intro x a hx; beta_reduce; beta_reduce at hx)
    | with_reducible apply Keeps.foldlp
    | with_reducible apply Keeps.foldlq
    | split)
theorem sendBlock_keeps_k {m} {s0 : State} {a0} {s : State} (e : 549757649938 ||| m = m) (h : Keeps m s0 s) :
    Keeps m s0 (sendBlock a0 s) := h.tr ((sendBlock_keeps a0 s).mono e)

theorem blockChoice_keeps (a0) (s : State) : Keeps 549757649938 s (blockChoice a0 s) := by
  unfold blockChoice
  try dsimp only
  repeat' (first
    | with_reducible apply Keeps.refl
    | with_reducible assumption
    | (with_reducible apply State_setPort_keeps_k; decide)
    | (with_reducible apply sendBlock_keeps_k; decide)
    | (with_reducible apply resendBlock_keeps_k; decide)
    | (with_reducible apply putBlock_keeps_k; decide)
    | (with_reducible apply sendRecord_keeps_k; decide)
    | with_reducible apply Keeps.foldl
    | (intro x a hx; beta_reduce; beta_reduce at hx)
    | with_reducible apply Keeps.foldlp
    | with_reducible apply Keeps.foldlq
    | split)
theorem blockChoice_keeps_k {m} {s0 : State} {a0} {s : State} (e : 549757649938 ||| m = m) (h : Keeps m s0 s) :
    Keeps m s0 (blockChoice a0 s) := h.tr ((blockChoice_keeps a0 s).mono e)

theorem portUp_keeps (a0) (s : State) : Keeps 68719738882 s (portUp a0 s) := by
  unfold portUp
  try dsimp only
  repeat' (first
    | with_reducible apply Keeps.refl
    | with_reducible assumption
    | (with_reducible apply State_setPort_keeps_k; decide)
    | (with_reducible apply enterPort_keeps_k; decide)
    | with_reducible apply Keeps.foldl
    | (intro x a hx; beta_reduce; beta_reduce at hx)
    | with_reducible apply Keeps.foldlp
    | with_reducible apply Keeps.foldlq
    | split)
theorem portUp_keeps_k {m} {s0 : State} {a0} {s : State} (e : 68719738882 ||| m = m) (h : Keeps m s0 s) :
    Keeps m s0 (portUp a0 s) := h.tr ((portUp_keeps a0 s).mono e)

theorem blockAck_keeps (a0 a1) (s : State) : Keeps 262144 s (blockAck a0 a1 s) := by
  unfold blockAck
  try dsimp only
  repeat' (first
    | with_reducible apply Keeps.refl
    | with_reducible assumption
    | (with_reducible apply State_setPort_keeps_k; decide)
    | with_reducible apply Keeps.foldl
    | (intro x a hx; beta_reduce; beta_reduce at hx)
    | with_reducible apply Keeps.foldlp
    | with_reducible apply Keeps.foldlq
    | split)
theorem blockAck_keeps_k {m} {s0 : State} {a0 a1} {s : State} (e : 262144 ||| m = m) (h : Keeps m s0 s) :
    Keeps m s0 (blockAck a0 a1 s) := h.tr ((blockAck_keeps a0 a1 s).mono e)

theorem blockCredit_keeps (a0 a1 a2) (s : State) : Keeps 262144 s (blockCredit a0 a1 a2 s) := by
  unfold blockCredit
  try dsimp only
  repeat' (first
    | with_reducible apply Keeps.refl
    | with_reducible assumption
    | (with_reducible apply State_setPort_keeps_k; decide)
    | with_reducible apply Keeps.foldl
    | (intro x a hx; beta_reduce; beta_reduce at hx)
    | with_reducible apply Keeps.foldlp
    | with_reducible apply Keeps.foldlq
    | split)
theorem blockCredit_keeps_k {m} {s0 : State} {a0 a1 a2} {s : State} (e : 262144 ||| m = m) (h : Keeps m s0 s) :
    Keeps m s0 (blockCredit a0 a1 a2 s) := h.tr ((blockCredit_keeps a0 a1 a2 s).mono e)

theorem placeFlits_keeps (a0 a1 a2) (s : State) : Keeps 262144 s (placeFlits a0 a1 a2 s) := by
  induction a0 generalizing a1 a2 s with
  | zero =>
    unfold placeFlits
    try dsimp only
    repeat' (first
      | with_reducible apply Keeps.refl
      | with_reducible assumption
      | (with_reducible apply ih)
      | (with_reducible apply State_setPort_keeps_k; decide)
      | with_reducible apply Keeps.foldl
      | (intro x a hx; beta_reduce; beta_reduce at hx)
      | with_reducible apply Keeps.foldlp
      | with_reducible apply Keeps.foldlq
      | split)
  | succ n_ ih' =>
    have ih {s0 : State} {a1 a2} {s : State} (h : Keeps 262144 s0 s) : Keeps 262144 s0 (placeFlits n_ a1 a2 s) := h.tr (ih' a1 a2 s)
    unfold placeFlits
    try dsimp only
    repeat' (first
      | with_reducible apply Keeps.refl
      | with_reducible assumption
      | (with_reducible apply ih)
      | (with_reducible apply State_setPort_keeps_k; decide)
      | with_reducible apply Keeps.foldl
      | (intro x a hx; beta_reduce; beta_reduce at hx)
      | with_reducible apply Keeps.foldlp
      | with_reducible apply Keeps.foldlq
      | split)
theorem placeFlits_keeps_k {m} {s0 : State} {a0 a1 a2} {s : State} (e : 262144 ||| m = m) (h : Keeps m s0 s) :
    Keeps m s0 (placeFlits a0 a1 a2 s) := h.tr ((placeFlits_keeps a0 a1 a2 s).mono e)

end Sys2Proof.Machine
end

