-- ==== Sys2Proof/Laws/KeepsFabricRoute.lean ====
section
/-! SUPPORT. Keeps, for every operation of Machine/FabricRoute.lean that answers a state. -/

set_option linter.all false

namespace Sys2Proof.Machine

theorem takeIn_keeps (a0 a1) (s : State) : KeepsO 262144 s (takeIn a0 a1 s) := by
  unfold takeIn
  try dsimp only
  repeat' (first
    | with_reducible apply Keeps.refl
    | with_reducible assumption
    | with_reducible apply KeepsO.none
    | with_reducible apply KeepsO.some
    | (with_reducible apply State_setPort_keeps_k; decide)
    | with_reducible apply Keeps.foldl
    | (intro x a hx; beta_reduce; beta_reduce at hx)
    | with_reducible apply Keeps.foldlp
    | with_reducible apply Keeps.foldlq
    | split)
theorem takeIn_keeps_eqk {m} {s0 : State} {a0 a1} {s : State} {t} (e : 262144 ||| m = m) (h : takeIn a0 a1 s = some t)
    (k : Keeps m s0 s) : Keeps m s0 t := k.tr ((takeIn_keeps a0 a1 s t h).mono e)

theorem countEnd_keeps (a0) (s : State) : Keeps 524288 s (countEnd a0 s) := by
  unfold countEnd
  try dsimp only
  repeat' (first
    | with_reducible apply Keeps.refl
    | with_reducible assumption
    | with_reducible apply Keeps.foldl
    | (intro x a hx; beta_reduce; beta_reduce at hx)
    | with_reducible apply Keeps.foldlp
    | with_reducible apply Keeps.foldlq
    | split
    | (with_reducible apply Keeps.u524288; decide))
theorem countEnd_keeps_k {m} {s0 : State} {a0} {s : State} (e : 524288 ||| m = m) (h : Keeps m s0 s) :
    Keeps m s0 (countEnd a0 s) := h.tr ((countEnd_keeps a0 s).mono e)

theorem discardHeader_keeps (a0) (s : State) : Keeps 524290 s (discardHeader a0 s) := by
  unfold discardHeader
  try dsimp only
  repeat' (first
    | with_reducible apply Keeps.refl
    | with_reducible assumption
    | (with_reducible apply countEnd_keeps_k; decide)
    | (with_reducible apply State_count_keeps_k; decide)
    | with_reducible apply Keeps.foldl
    | (intro x a hx; beta_reduce; beta_reduce at hx)
    | with_reducible apply Keeps.foldlp
    | with_reducible apply Keeps.foldlq
    | split)
theorem discardHeader_keeps_k {m} {s0 : State} {a0} {s : State} (e : 524290 ||| m = m) (h : Keeps m s0 s) :
    Keeps m s0 (discardHeader a0 s) := h.tr ((discardHeader_keeps a0 s).mono e)

theorem noteNode_keeps (a0) (s : State) : Keeps 1572864 s (noteNode a0 s) := by
  unfold noteNode
  try dsimp only
  repeat' (first
    | with_reducible apply Keeps.refl
    | with_reducible assumption
    | with_reducible apply Keeps.foldl
    | (intro x a hx; beta_reduce; beta_reduce at hx)
    | with_reducible apply Keeps.foldlp
    | with_reducible apply Keeps.foldlq
    | split
    | (with_reducible apply Keeps.u524288; decide)
    | (with_reducible apply Keeps.u1048576; decide)
    | (with_reducible apply Keeps.u1572864; decide))
theorem noteNode_keeps_k {m} {s0 : State} {a0} {s : State} (e : 1572864 ||| m = m) (h : Keeps m s0 s) :
    Keeps m s0 (noteNode a0 s) := h.tr ((noteNode_keeps a0 s).mono e)

theorem checkSeq_keeps (a0) (s : State) : Keeps 524290 s (checkSeq a0 s) := by
  unfold checkSeq
  try dsimp only
  repeat' (first
    | with_reducible apply Keeps.refl
    | with_reducible assumption
    | (with_reducible apply State_count_keeps_k; decide)
    | with_reducible apply Keeps.foldl
    | (intro x a hx; beta_reduce; beta_reduce at hx)
    | with_reducible apply Keeps.foldlp
    | with_reducible apply Keeps.foldlq
    | split
    | (with_reducible apply Keeps.u524288; decide))
theorem checkSeq_keeps_k {m} {s0 : State} {a0} {s : State} (e : 524290 ||| m = m) (h : Keeps m s0 s) :
    Keeps m s0 (checkSeq a0 s) := h.tr ((checkSeq_keeps a0 s).mono e)

theorem deliverLocal_keeps (a0 a1) (s : State) : Keeps 549756338176 s (deliverLocal a0 a1 s) := by
  unfold deliverLocal
  try dsimp only
  repeat' (first
    | with_reducible apply Keeps.refl
    | with_reducible assumption
    | (with_reducible apply countEnd_keeps_k; decide)
    | (with_reducible apply State_emit_keeps_k; decide)
    | with_reducible apply Keeps.foldl
    | (intro x a hx; beta_reduce; beta_reduce at hx)
    | with_reducible apply Keeps.foldlp
    | with_reducible apply Keeps.foldlq
    | split)
theorem deliverLocal_keeps_k {m} {s0 : State} {a0 a1} {s : State} (e : 549756338176 ||| m = m) (h : Keeps m s0 s) :
    Keeps m s0 (deliverLocal a0 a1 s) := h.tr ((deliverLocal_keeps a0 a1 s).mono e)

theorem joinQueue_keeps (a0 a1 a2) (s : State) : Keeps 1836050 s (joinQueue a0 a1 a2 s) := by
  unfold joinQueue
  try dsimp only
  repeat' (first
    | with_reducible apply Keeps.refl
    | with_reducible assumption
    | (with_reducible apply State_setPort_keeps_k; decide)
    | (with_reducible apply ringFree_keeps_k; decide)
    | (with_reducible apply countEnd_keeps_k; decide)
    | (with_reducible apply State_count_keeps_k; decide)
    | with_reducible apply Keeps.foldl
    | (intro x a hx; beta_reduce; beta_reduce at hx)
    | with_reducible apply Keeps.foldlp
    | with_reducible apply Keeps.foldlq
    | split)
theorem joinQueue_keeps_k {m} {s0 : State} {a0 a1 a2} {s : State} (e : 1836050 ||| m = m) (h : Keeps m s0 s) :
    Keeps m s0 (joinQueue a0 a1 a2 s) := h.tr ((joinQueue_keeps a0 a1 a2 s).mono e)

theorem ringDrain_keeps (a0 a1) (s : State) : Keeps 1573906 s (ringDrain a0 a1 s) := by
  induction a0 generalizing a1 s with
  | zero =>
    unfold ringDrain
    try dsimp only
    repeat' (first
      | with_reducible apply Keeps.refl
      | with_reducible assumption
      | (with_reducible apply ih)
      | (with_reducible apply sendWrite_keeps_k; decide)
      | with_reducible apply Keeps.foldl
      | (intro x a hx; beta_reduce; beta_reduce at hx)
      | with_reducible apply Keeps.foldlp
      | with_reducible apply Keeps.foldlq
      | split
      | (with_reducible apply Keeps.u524288; decide))
  | succ n_ ih' =>
    have ih {s0 : State} {a1} {s : State} (h : Keeps 1573906 s0 s) : Keeps 1573906 s0 (ringDrain n_ a1 s) := h.tr (ih' a1 s)
    unfold ringDrain
    try dsimp only
    repeat' (first
      | with_reducible apply Keeps.refl
      | with_reducible assumption
      | (with_reducible apply ih)
      | (with_reducible apply sendWrite_keeps_k; decide)
      | with_reducible apply Keeps.foldl
      | (intro x a hx; beta_reduce; beta_reduce at hx)
      | with_reducible apply Keeps.foldlp
      | with_reducible apply Keeps.foldlq
      | split
      | (with_reducible apply Keeps.u524288; decide))
theorem ringDrain_keeps_k {m} {s0 : State} {a0 a1} {s : State} (e : 1573906 ||| m = m) (h : Keeps m s0 s) :
    Keeps m s0 (ringDrain a0 a1 s) := h.tr ((ringDrain_keeps a0 a1 s).mono e)

theorem ringSend_keeps (a0 a1 a2) (s : State) : Keeps 1573906 s (ringSend a0 a1 a2 s) := by
  unfold ringSend
  try dsimp only
  repeat' (first
    | with_reducible apply Keeps.refl
    | with_reducible assumption
    | (with_reducible apply ringDrain_keeps_k; decide)
    | with_reducible apply Keeps.foldl
    | (intro x a hx; beta_reduce; beta_reduce at hx)
    | with_reducible apply Keeps.foldlp
    | with_reducible apply Keeps.foldlq
    | split
    | (with_reducible apply Keeps.u524288; decide))
theorem ringSend_keeps_k {m} {s0 : State} {a0 a1 a2} {s : State} (e : 1573906 ||| m = m) (h : Keeps m s0 s) :
    Keeps m s0 (ringSend a0 a1 a2 s) := h.tr ((ringSend_keeps a0 a1 a2 s).mono e)

theorem sendOut_keeps (a0 a1 a2 a3) (s : State) : Keeps 1836050 s (sendOut a0 a1 a2 a3 s) := by
  unfold sendOut
  try dsimp only
  repeat' (first
    | with_reducible apply Keeps.refl
    | with_reducible assumption
    | (with_reducible apply ringSend_keeps_k; decide)
    | (with_reducible apply joinQueue_keeps_k; decide)
    | (with_reducible apply State_count_keeps_k; decide)
    | with_reducible apply Keeps.foldl
    | (intro x a hx; beta_reduce; beta_reduce at hx)
    | with_reducible apply Keeps.foldlp
    | with_reducible apply Keeps.foldlq
    | split)
theorem sendOut_keeps_k {m} {s0 : State} {a0 a1 a2 a3} {s : State} (e : 1836050 ||| m = m) (h : Keeps m s0 s) :
    Keeps m s0 (sendOut a0 a1 a2 a3 s) := h.tr ((sendOut_keeps a0 a1 a2 a3 s).mono e)

theorem injectStamped_keeps (a0 a1) (s : State) : Keeps 549757649938 s (injectStamped a0 a1 s) := by
  unfold injectStamped
  try dsimp only
  repeat' (first
    | with_reducible apply Keeps.refl
    | with_reducible assumption
    | (with_reducible apply sendOut_keeps_k; decide)
    | (with_reducible apply deliverLocal_keeps_k; decide)
    | (with_reducible apply countEnd_keeps_k; decide)
    | (with_reducible apply State_count_keeps_k; decide)
    | with_reducible apply Keeps.foldl
    | (intro x a hx; beta_reduce; beta_reduce at hx)
    | with_reducible apply Keeps.foldlp
    | with_reducible apply Keeps.foldlq
    | split)
theorem injectStamped_keeps_k {m} {s0 : State} {a0 a1} {s : State} (e : 549757649938 ||| m = m) (h : Keeps m s0 s) :
    Keeps m s0 (injectStamped a0 a1 s) := h.tr ((injectStamped_keeps a0 a1 s).mono e)

theorem countStart_keeps (a0) (s : State) : Keeps 524288 s (countStart a0 s) := by
  unfold countStart
  try dsimp only
  repeat' (first
    | with_reducible apply Keeps.refl
    | with_reducible assumption
    | with_reducible apply Keeps.foldl
    | (intro x a hx; beta_reduce; beta_reduce at hx)
    | with_reducible apply Keeps.foldlp
    | with_reducible apply Keeps.foldlq
    | split
    | (with_reducible apply Keeps.u524288; decide))
theorem countStart_keeps_k {m} {s0 : State} {a0} {s : State} (e : 524288 ||| m = m) (h : Keeps m s0 s) :
    Keeps m s0 (countStart a0 s) := h.tr ((countStart_keeps a0 s).mono e)

theorem stampPacket_keeps (a0) (s : State) : Keeps 524288 s (stampPacket a0 s).2 := by
  unfold stampPacket
  try dsimp only
  repeat' (first
    | with_reducible apply Keeps.refl
    | with_reducible assumption
    | (with_reducible apply countStart_keeps_k; decide)
    | with_reducible apply Keeps.foldl
    | (intro x a hx; beta_reduce; beta_reduce at hx)
    | with_reducible apply Keeps.foldlp
    | with_reducible apply Keeps.foldlq
    | split
    | (with_reducible apply Keeps.u524288; decide))
theorem stampPacket_keeps_k {m} {s0 : State} {a0} {s : State} (e : 524288 ||| m = m) (h : Keeps m s0 s) :
    Keeps m s0 (stampPacket a0 s).2 := h.tr ((stampPacket_keeps a0 s).mono e)
theorem stampPacket_keeps_eqk {m} {s0 : State} {a0} {s : State} {x t} (e : 524288 ||| m = m) (h : stampPacket a0 s = (x, t))
    (k : Keeps m s0 s) : Keeps m s0 t := by
  have := stampPacket_keeps a0 s; rw [h] at this; exact k.tr (this.mono e)

theorem injectReply_keeps (a0 a1) (s : State) : Keeps 549757649938 s (injectReply a0 a1 s) := by
  unfold injectReply
  try dsimp only
  repeat' (first
    | with_reducible apply Keeps.refl
    | with_reducible assumption
    | (with_reducible apply injectStamped_keeps_k; decide)
    | (with_reducible apply stampPacket_keeps_k; decide)
    | (with_reducible apply stampPacket_keeps_eqk; decide; with_reducible assumption)
    | with_reducible apply Keeps.foldl
    | (intro x a hx; beta_reduce; beta_reduce at hx)
    | with_reducible apply Keeps.foldlp
    | with_reducible apply Keeps.foldlq
    | split)
theorem injectReply_keeps_k {m} {s0 : State} {a0 a1} {s : State} (e : 549757649938 ||| m = m) (h : Keeps m s0 s) :
    Keeps m s0 (injectReply a0 a1 s) := h.tr ((injectReply_keeps a0 a1 s).mono e)

theorem replyTo_keeps (a0 a1 a2 a3 a4 a5 a6 a7) (s : State) : Keeps 549757649938 s (replyTo a0 a1 a2 a3 a4 a5 a6 a7 s) := by
  unfold replyTo
  try dsimp only
  repeat' (first
    | with_reducible apply Keeps.refl
    | with_reducible assumption
    | (with_reducible apply injectReply_keeps_k; decide)
    | with_reducible apply Keeps.foldl
    | (intro x a hx; beta_reduce; beta_reduce at hx)
    | with_reducible apply Keeps.foldlp
    | with_reducible apply Keeps.foldlq
    | split)
theorem replyTo_keeps_k {m} {s0 : State} {a0 a1 a2 a3 a4 a5 a6 a7} {s : State} (e : 549757649938 ||| m = m) (h : Keeps m s0 s) :
    Keeps m s0 (replyTo a0 a1 a2 a3 a4 a5 a6 a7 s) := h.tr ((replyTo_keeps a0 a1 a2 a3 a4 a5 a6 a7 s).mono e)

theorem replyStatus_keeps (a0 a1 a2 a3) (s : State) : Keeps 549757649938 s (replyStatus a0 a1 a2 a3 s) := by
  unfold replyStatus
  try dsimp only
  repeat' (first
    | with_reducible apply Keeps.refl
    | with_reducible assumption
    | (with_reducible apply replyTo_keeps_k; decide)
    | with_reducible apply Keeps.foldl
    | (intro x a hx; beta_reduce; beta_reduce at hx)
    | with_reducible apply Keeps.foldlp
    | with_reducible apply Keeps.foldlq
    | split)
theorem replyStatus_keeps_k {m} {s0 : State} {a0 a1 a2 a3} {s : State} (e : 549757649938 ||| m = m) (h : Keeps m s0 s) :
    Keeps m s0 (replyStatus a0 a1 a2 a3 s) := h.tr ((replyStatus_keeps a0 a1 a2 a3 s).mono e)

theorem packetLost_keeps (a0 a1) (s : State) : Keeps 549757649938 s (packetLost a0 a1 s) := by
  unfold packetLost
  try dsimp only
  repeat' (first
    | with_reducible apply Keeps.refl
    | with_reducible assumption
    | (with_reducible apply replyStatus_keeps_k; decide)
    | (with_reducible apply countEnd_keeps_k; decide)
    | (with_reducible apply State_count_keeps_k; decide)
    | with_reducible apply Keeps.foldl
    | (intro x a hx; beta_reduce; beta_reduce at hx)
    | with_reducible apply Keeps.foldlp
    | with_reducible apply Keeps.foldlq
    | split)
theorem packetLost_keeps_k {m} {s0 : State} {a0 a1} {s : State} (e : 549757649938 ||| m = m) (h : Keeps m s0 s) :
    Keeps m s0 (packetLost a0 a1 s) := h.tr ((packetLost_keeps a0 a1 s).mono e)

theorem followWay_keeps (a0 a1 a2 a3) (s : State) : Keeps 549757649938 s (followWay a0 a1 a2 a3 s) := by
  unfold followWay
  try dsimp only
  repeat' (first
    | with_reducible apply Keeps.refl
    | with_reducible assumption
    | (with_reducible apply sendOut_keeps_k; decide)
    | (with_reducible apply deliverLocal_keeps_k; decide)
    | (with_reducible apply packetLost_keeps_k; decide)
    | with_reducible apply Keeps.foldl
    | (intro x a hx; beta_reduce; beta_reduce at hx)
    | with_reducible apply Keeps.foldlp
    | with_reducible apply Keeps.foldlq
    | split)
theorem followWay_keeps_k {m} {s0 : State} {a0 a1 a2 a3} {s : State} (e : 549757649938 ||| m = m) (h : Keeps m s0 s) :
    Keeps m s0 (followWay a0 a1 a2 a3 s) := h.tr ((followWay_keeps a0 a1 a2 a3 s).mono e)

theorem ringArrive_keeps (a0 a1 a2) (s : State) : Keeps 549757649938 s (ringArrive a0 a1 a2 s) := by
  unfold ringArrive
  try dsimp only
  repeat' (first
    | with_reducible apply Keeps.refl
    | with_reducible assumption
    | (with_reducible apply ringFree_keeps_k; decide)
    | (with_reducible apply deliverLocal_keeps_k; decide)
    | (with_reducible apply ringSend_keeps_k; decide)
    | (with_reducible apply joinQueue_keeps_k; decide)
    | (with_reducible apply packetLost_keeps_k; decide)
    | with_reducible apply Keeps.foldl
    | (intro x a hx; beta_reduce; beta_reduce at hx)
    | with_reducible apply Keeps.foldlp
    | with_reducible apply Keeps.foldlq
    | split)
theorem ringArrive_keeps_k {m} {s0 : State} {a0 a1 a2} {s : State} (e : 549757649938 ||| m = m) (h : Keeps m s0 s) :
    Keeps m s0 (ringArrive a0 a1 a2 s) := h.tr ((ringArrive_keeps a0 a1 a2 s).mono e)

theorem ringWrite_keeps (a0 a1 a2) (s : State) : Keeps 549757649938 s (ringWrite a0 a1 a2 s) := by
  unfold ringWrite
  try dsimp only
  repeat' (first
    | with_reducible apply Keeps.refl
    | with_reducible assumption
    | (with_reducible apply ringArrive_keeps_k; decide)
    | with_reducible apply Keeps.foldl
    | (intro x a hx; beta_reduce; beta_reduce at hx)
    | with_reducible apply Keeps.foldlp
    | with_reducible apply Keeps.foldlq
    | split
    | (with_reducible apply Keeps.u524288; decide))
theorem ringWrite_keeps_k {m} {s0 : State} {a0 a1 a2} {s : State} (e : 549757649938 ||| m = m) (h : Keeps m s0 s) :
    Keeps m s0 (ringWrite a0 a1 a2 s) := h.tr ((ringWrite_keeps a0 a1 a2 s).mono e)

theorem ringCredit_keeps (a0 a1 a2) (s : State) : Keeps 1573906 s (ringCredit a0 a1 a2 s) := by
  unfold ringCredit
  try dsimp only
  repeat' (first
    | with_reducible apply Keeps.refl
    | with_reducible assumption
    | (with_reducible apply ringDrain_keeps_k; decide)
    | with_reducible apply Keeps.foldl
    | (intro x a hx; beta_reduce; beta_reduce at hx)
    | with_reducible apply Keeps.foldlp
    | with_reducible apply Keeps.foldlq
    | split
    | (with_reducible apply Keeps.u524288; decide))
theorem ringCredit_keeps_k {m} {s0 : State} {a0 a1 a2} {s : State} (e : 1573906 ||| m = m) (h : Keeps m s0 s) :
    Keeps m s0 (ringCredit a0 a1 a2 s) := h.tr ((ringCredit_keeps a0 a1 a2 s).mono e)

theorem takeTrack_keeps (a0 a1 a2) (s : State) : Keeps 1048576 s (takeTrack a0 a1 a2 s).2 := by
  unfold takeTrack
  try dsimp only
  repeat' (first
    | with_reducible apply Keeps.refl
    | with_reducible assumption
    | with_reducible apply Keeps.foldl
    | (intro x a hx; beta_reduce; beta_reduce at hx)
    | with_reducible apply Keeps.foldlp
    | with_reducible apply Keeps.foldlq
    | split
    | (with_reducible apply Keeps.u1048576; decide))
theorem takeTrack_keeps_k {m} {s0 : State} {a0 a1 a2} {s : State} (e : 1048576 ||| m = m) (h : Keeps m s0 s) :
    Keeps m s0 (takeTrack a0 a1 a2 s).2 := h.tr ((takeTrack_keeps a0 a1 a2 s).mono e)
theorem takeTrack_keeps_eqk {m} {s0 : State} {a0 a1 a2} {s : State} {x t} (e : 1048576 ||| m = m) (h : takeTrack a0 a1 a2 s = (x, t))
    (k : Keeps m s0 s) : Keeps m s0 t := by
  have := takeTrack_keeps a0 a1 a2 s; rw [h] at this; exact k.tr (this.mono e)

theorem injectPacket_keeps (a0 a1) (s : State) : Keeps 549757649938 s (injectPacket a0 a1 s) := by
  unfold injectPacket
  try dsimp only
  repeat' (first
    | with_reducible apply Keeps.refl
    | with_reducible assumption
    | (with_reducible apply stampPacket_keeps_k; decide)
    | (with_reducible apply stampPacket_keeps_eqk; decide; with_reducible assumption)
    | (with_reducible apply State_count_keeps_k; decide)
    | (with_reducible apply followWay_keeps_k; decide)
    | with_reducible apply Keeps.foldl
    | (intro x a hx; beta_reduce; beta_reduce at hx)
    | with_reducible apply Keeps.foldlp
    | with_reducible apply Keeps.foldlq
    | split)
theorem injectPacket_keeps_k {m} {s0 : State} {a0 a1} {s : State} (e : 549757649938 ||| m = m) (h : Keeps m s0 s) :
    Keeps m s0 (injectPacket a0 a1 s) := h.tr ((injectPacket_keeps a0 a1 s).mono e)

theorem rateEntry_keeps (a0) (s : State) : Keeps 524288 s (rateEntry a0 s).2 := by
  unfold rateEntry
  try dsimp only
  repeat' (first
    | with_reducible apply Keeps.refl
    | with_reducible assumption
    | with_reducible apply Keeps.foldl
    | (intro x a hx; beta_reduce; beta_reduce at hx)
    | with_reducible apply Keeps.foldlp
    | with_reducible apply Keeps.foldlq
    | split
    | (with_reducible apply Keeps.u524288; decide))
theorem rateEntry_keeps_k {m} {s0 : State} {a0} {s : State} (e : 524288 ||| m = m) (h : Keeps m s0 s) :
    Keeps m s0 (rateEntry a0 s).2 := h.tr ((rateEntry_keeps a0 s).mono e)
theorem rateEntry_keeps_eqk {m} {s0 : State} {a0} {s : State} {x t} (e : 524288 ||| m = m) (h : rateEntry a0 s = (x, t))
    (k : Keeps m s0 s) : Keeps m s0 t := by
  have := rateEntry_keeps a0 s; rw [h] at this; exact k.tr (this.mono e)

theorem rateSpend_keeps (a0 a1) (s : State) : Keeps 524288 s (rateSpend a0 a1 s) := by
  unfold rateSpend
  try dsimp only
  repeat' (first
    | with_reducible apply Keeps.refl
    | with_reducible assumption
    | (with_reducible apply rateEntry_keeps_k; decide)
    | (with_reducible apply rateEntry_keeps_eqk; decide; with_reducible assumption)
    | with_reducible apply Keeps.foldl
    | (intro x a hx; beta_reduce; beta_reduce at hx)
    | with_reducible apply Keeps.foldlp
    | with_reducible apply Keeps.foldlq
    | split
    | (with_reducible apply Keeps.u524288; decide))
theorem rateSpend_keeps_k {m} {s0 : State} {a0 a1} {s : State} (e : 524288 ||| m = m) (h : Keeps m s0 s) :
    Keeps m s0 (rateSpend a0 a1 s) := h.tr ((rateSpend_keeps a0 a1 s).mono e)

theorem drainPaced_keeps (a0) (s : State) : Keeps 549757649938 s (drainPaced a0 s) := by
  induction a0 generalizing  s with
  | zero =>
    unfold drainPaced
    try dsimp only
    repeat' (first
      | with_reducible apply Keeps.refl
      | with_reducible assumption
      | (with_reducible apply ih)
      | (with_reducible apply injectPacket_keeps_k; decide)
      | (with_reducible apply rateSpend_keeps_k; decide)
      | with_reducible apply Keeps.foldl
      | (intro x a hx; beta_reduce; beta_reduce at hx)
      | with_reducible apply Keeps.foldlp
      | with_reducible apply Keeps.foldlq
      | split
      | (with_reducible apply Keeps.u524288; decide))
  | succ n_ ih' =>
    have ih {s0 : State} {s : State} (h : Keeps 549757649938 s0 s) : Keeps 549757649938 s0 (drainPaced n_ s) := h.tr (ih' s)
    unfold drainPaced
    try dsimp only
    repeat' (first
      | with_reducible apply Keeps.refl
      | with_reducible assumption
      | (with_reducible apply ih)
      | (with_reducible apply injectPacket_keeps_k; decide)
      | (with_reducible apply rateSpend_keeps_k; decide)
      | with_reducible apply Keeps.foldl
      | (intro x a hx; beta_reduce; beta_reduce at hx)
      | with_reducible apply Keeps.foldlp
      | with_reducible apply Keeps.foldlq
      | split
      | (with_reducible apply Keeps.u524288; decide))
theorem drainPaced_keeps_k {m} {s0 : State} {a0} {s : State} (e : 549757649938 ||| m = m) (h : Keeps m s0 s) :
    Keeps m s0 (drainPaced a0 s) := h.tr ((drainPaced_keeps a0 s).mono e)

theorem sendPaced_keeps (a0 a1 a2) (s : State) : Keeps 549757649938 s (sendPaced a0 a1 a2 s) := by
  unfold sendPaced
  try dsimp only
  repeat' (first
    | with_reducible apply Keeps.refl
    | with_reducible assumption
    | (with_reducible apply injectPacket_keeps_k; decide)
    | (with_reducible apply drainPaced_keeps_k; decide)
    | with_reducible apply Keeps.foldl
    | (intro x a hx; beta_reduce; beta_reduce at hx)
    | with_reducible apply Keeps.foldlp
    | with_reducible apply Keeps.foldlq
    | split
    | (with_reducible apply Keeps.u524288; decide))
theorem sendPaced_keeps_k {m} {s0 : State} {a0 a1 a2} {s : State} (e : 549757649938 ||| m = m) (h : Keeps m s0 s) :
    Keeps m s0 (sendPaced a0 a1 a2 s) := h.tr ((sendPaced_keeps a0 a1 a2 s).mono e)

theorem sendHeld_keeps (a0 a1 a2 a3) (s : State) : Keeps 549757649938 s (sendHeld a0 a1 a2 a3 s) := by
  unfold sendHeld
  try dsimp only
  repeat' (first
    | with_reducible apply Keeps.refl
    | with_reducible assumption
    | (with_reducible apply takeTrack_keeps_k; decide)
    | (with_reducible apply takeTrack_keeps_eqk; decide; with_reducible assumption)
    | (with_reducible apply sendPaced_keeps_k; decide)
    | with_reducible apply Keeps.foldl
    | (intro x a hx; beta_reduce; beta_reduce at hx)
    | with_reducible apply Keeps.foldlp
    | with_reducible apply Keeps.foldlq
    | split)
theorem sendHeld_keeps_k {m} {s0 : State} {a0 a1 a2 a3} {s : State} (e : 549757649938 ||| m = m) (h : Keeps m s0 s) :
    Keeps m s0 (sendHeld a0 a1 a2 a3 s) := h.tr ((sendHeld_keeps a0 a1 a2 a3 s).mono e)

theorem drainUntagged_keeps (a0) (s : State) : Keeps 549757649938 s (drainUntagged a0 s) := by
  induction a0 generalizing  s with
  | zero =>
    unfold drainUntagged
    try dsimp only
    repeat' (first
      | with_reducible apply Keeps.refl
      | with_reducible assumption
      | (with_reducible apply ih)
      | (with_reducible apply sendHeld_keeps_k; decide)
      | with_reducible apply Keeps.foldl
      | (intro x a hx; beta_reduce; beta_reduce at hx)
      | with_reducible apply Keeps.foldlp
      | with_reducible apply Keeps.foldlq
      | split
      | (with_reducible apply Keeps.u524288; decide))
  | succ n_ ih' =>
    have ih {s0 : State} {s : State} (h : Keeps 549757649938 s0 s) : Keeps 549757649938 s0 (drainUntagged n_ s) := h.tr (ih' s)
    unfold drainUntagged
    try dsimp only
    repeat' (first
      | with_reducible apply Keeps.refl
      | with_reducible assumption
      | (with_reducible apply ih)
      | (with_reducible apply sendHeld_keeps_k; decide)
      | with_reducible apply Keeps.foldl
      | (intro x a hx; beta_reduce; beta_reduce at hx)
      | with_reducible apply Keeps.foldlp
      | with_reducible apply Keeps.foldlq
      | split
      | (with_reducible apply Keeps.u524288; decide))
theorem drainUntagged_keeps_k {m} {s0 : State} {a0} {s : State} (e : 549757649938 ||| m = m) (h : Keeps m s0 s) :
    Keeps m s0 (drainUntagged a0 s) := h.tr ((drainUntagged_keeps a0 s).mono e)

theorem sendTracked_keeps (a0 a1 a2 a3) (s : State) : Keeps 549757649938 s (sendTracked a0 a1 a2 a3 s) := by
  unfold sendTracked
  try dsimp only
  repeat' (first
    | with_reducible apply Keeps.refl
    | with_reducible assumption
    | (with_reducible apply drainUntagged_keeps_k; decide)
    | with_reducible apply Keeps.foldl
    | (intro x a hx; beta_reduce; beta_reduce at hx)
    | with_reducible apply Keeps.foldlp
    | with_reducible apply Keeps.foldlq
    | split
    | (with_reducible apply Keeps.u524288; decide))
theorem sendTracked_keeps_k {m} {s0 : State} {a0 a1 a2 a3} {s : State} (e : 549757649938 ||| m = m) (h : Keeps m s0 s) :
    Keeps m s0 (sendTracked a0 a1 a2 a3 s) := h.tr ((sendTracked_keeps a0 a1 a2 a3 s).mono e)

theorem portFalls_keeps (a0 a1) (s : State) : Keeps 618477126674 s (portFalls a0 a1 s) := by
  unfold portFalls
  try dsimp only
  repeat' (first
    | with_reducible apply Keeps.refl
    | with_reducible assumption
    | (with_reducible apply ringFree_keeps_k; decide)
    | (with_reducible apply dropPort_keeps_k; decide)
    | (with_reducible apply packetLost_keeps_k; decide)
    | with_reducible apply Keeps.foldl
    | (intro x a hx; beta_reduce; beta_reduce at hx)
    | with_reducible apply Keeps.foldlp
    | with_reducible apply Keeps.foldlq
    | split)
theorem portFalls_keeps_k {m} {s0 : State} {a0 a1} {s : State} (e : 618477126674 ||| m = m) (h : Keeps m s0 s) :
    Keeps m s0 (portFalls a0 a1 s) := h.tr ((portFalls_keeps a0 a1 s).mono e)

theorem installRoutes_keeps (a0) (s : State) : Keeps 524288 s (installRoutes a0 s) := by
  unfold installRoutes
  try dsimp only
  repeat' (first
    | with_reducible apply Keeps.refl
    | with_reducible assumption
    | with_reducible apply Keeps.foldl
    | (intro x a hx; beta_reduce; beta_reduce at hx)
    | with_reducible apply Keeps.foldlp
    | with_reducible apply Keeps.foldlq
    | split
    | (with_reducible apply Keeps.u524288; decide))
theorem installRoutes_keeps_k {m} {s0 : State} {a0} {s : State} (e : 524288 ||| m = m) (h : Keeps m s0 s) :
    Keeps m s0 (installRoutes a0 s) := h.tr ((installRoutes_keeps a0 s).mono e)

theorem releaseBank_keeps (s : State) : Keeps 524290 s (releaseBank s) := by
  unfold releaseBank
  try dsimp only
  repeat' (first
    | with_reducible apply Keeps.refl
    | with_reducible assumption
    | (with_reducible apply State_count_keeps_k; decide)
    | with_reducible apply Keeps.foldl
    | (intro x a hx; beta_reduce; beta_reduce at hx)
    | with_reducible apply Keeps.foldlp
    | with_reducible apply Keeps.foldlq
    | split
    | (with_reducible apply Keeps.u524288; decide))
theorem releaseBank_keeps_k {m} {s0 : State} {s : State} (e : 524290 ||| m = m) (h : Keeps m s0 s) :
    Keeps m s0 (releaseBank s) := h.tr ((releaseBank_keeps  s).mono e)

theorem routeControl_keeps (a0 a1 a2) (s : State) : Keeps 549757649938 s (routeControl a0 a1 a2 s) := by
  unfold routeControl
  try dsimp only
  repeat' (first
    | with_reducible apply Keeps.refl
    | with_reducible assumption
    | (with_reducible apply sendTracked_keeps_k; decide)
    | with_reducible apply Keeps.foldl
    | (intro x a hx; beta_reduce; beta_reduce at hx)
    | with_reducible apply Keeps.foldlp
    | with_reducible apply Keeps.foldlq
    | split)
theorem routeControl_keeps_k {m} {s0 : State} {a0 a1 a2} {s : State} (e : 549757649938 ||| m = m) (h : Keeps m s0 s) :
    Keeps m s0 (routeControl a0 a1 a2 s) := h.tr ((routeControl_keeps a0 a1 a2 s).mono e)

theorem drainDone_keeps (s : State) : Keeps 549757649938 s (drainDone s) := by
  unfold drainDone
  try dsimp only
  repeat' (first
    | with_reducible apply Keeps.refl
    | with_reducible assumption
    | (with_reducible apply routeControl_keeps_k; decide)
    | (with_reducible apply releaseBank_keeps_k; decide)
    | with_reducible apply Keeps.foldl
    | (intro x a hx; beta_reduce; beta_reduce at hx)
    | with_reducible apply Keeps.foldlp
    | with_reducible apply Keeps.foldlq
    | split)
theorem drainDone_keeps_k {m} {s0 : State} {s : State} (e : 549757649938 ||| m = m) (h : Keeps m s0 s) :
    Keeps m s0 (drainDone s) := h.tr ((drainDone_keeps  s).mono e)

theorem arriveHere_keeps (a0 a1) (s : State) : Keeps 1572866 s (arriveHere a0 a1 s).2 := by
  unfold arriveHere
  try dsimp only
  repeat' (first
    | with_reducible apply Keeps.refl
    | with_reducible assumption
    | (with_reducible apply checkSeq_keeps_k; decide)
    | (with_reducible apply State_count_keeps_k; decide)
    | (with_reducible apply noteNode_keeps_k; decide)
    | with_reducible apply Keeps.foldl
    | (intro x a hx; beta_reduce; beta_reduce at hx)
    | with_reducible apply Keeps.foldlp
    | with_reducible apply Keeps.foldlq
    | split)
theorem arriveHere_keeps_k {m} {s0 : State} {a0 a1} {s : State} (e : 1572866 ||| m = m) (h : Keeps m s0 s) :
    Keeps m s0 (arriveHere a0 a1 s).2 := h.tr ((arriveHere_keeps a0 a1 s).mono e)
theorem arriveHere_keeps_eqk {m} {s0 : State} {a0 a1} {s : State} {x t} (e : 1572866 ||| m = m) (h : arriveHere a0 a1 s = (x, t))
    (k : Keeps m s0 s) : Keeps m s0 t := by
  have := arriveHere_keeps a0 a1 s; rw [h] at this; exact k.tr (this.mono e)

theorem noteEcho_keeps (a0) (s : State) : Keeps 524290 s (noteEcho a0 s) := by
  unfold noteEcho
  try dsimp only
  repeat' (first
    | with_reducible apply Keeps.refl
    | with_reducible assumption
    | (with_reducible apply State_count_keeps_k; decide)
    | with_reducible apply Keeps.foldl
    | (intro x a hx; beta_reduce; beta_reduce at hx)
    | with_reducible apply Keeps.foldlp
    | with_reducible apply Keeps.foldlq
    | split
    | (with_reducible apply Keeps.u524288; decide))
theorem noteEcho_keeps_k {m} {s0 : State} {a0} {s : State} (e : 524290 ||| m = m) (h : Keeps m s0 s) :
    Keeps m s0 (noteEcho a0 s) := h.tr ((noteEcho_keeps a0 s).mono e)

theorem judgeDrain_keeps (s : State) : Keeps 549757649938 s (judgeDrain s) := by
  unfold judgeDrain
  try dsimp only
  repeat' (first
    | with_reducible apply Keeps.refl
    | with_reducible assumption
    | (with_reducible apply drainDone_keeps_k; decide)
    | with_reducible apply Keeps.foldl
    | (intro x a hx; beta_reduce; beta_reduce at hx)
    | with_reducible apply Keeps.foldlp
    | with_reducible apply Keeps.foldlq
    | split
    | (with_reducible apply Keeps.u524288; decide))
theorem judgeDrain_keeps_k {m} {s0 : State} {s : State} (e : 549757649938 ||| m = m) (h : Keeps m s0 s) :
    Keeps m s0 (judgeDrain s) := h.tr ((judgeDrain_keeps  s).mono e)

end Sys2Proof.Machine
end

