-- ==== Sys2Proof/Laws/KeepsRemote.lean ====
section
/-! SUPPORT. Keeps, for every operation of Machine/Remote.lean that answers a state. -/

set_option linter.all false

namespace Sys2Proof.Machine

theorem refuseAccess_keeps (a0 a1 a2) (s : State) : Keeps 1649269277714 s (refuseAccess a0 a1 a2 s) := by
  unfold refuseAccess
  try dsimp only
  repeat' (first
    | with_reducible apply Keeps.refl
    | with_reducible assumption
    | (with_reducible apply replyStatus_keeps_k; decide)
    | (with_reducible apply State_count_keeps_k; decide)
    | (with_reducible apply State_drawn_keeps_k; decide)
    | with_reducible apply Keeps.foldl
    | (intro x a hx; beta_reduce; beta_reduce at hx)
    | with_reducible apply Keeps.foldlp
    | with_reducible apply Keeps.foldlq
    | split)
theorem refuseAccess_keeps_k {m} {s0 : State} {a0 a1 a2} {s : State} (e : 1649269277714 ||| m = m) (h : Keeps m s0 s) :
    Keeps m s0 (refuseAccess a0 a1 a2 s) := h.tr ((refuseAccess_keeps a0 a1 a2 s).mono e)

theorem addOp_keeps (a0 a1 a2 a3 a4 a5) (s : State) : Keeps 1048576 s (addOp a0 a1 a2 a3 a4 a5 s).2 := by
  unfold addOp
  try dsimp only
  repeat' (first
    | with_reducible apply Keeps.refl
    | with_reducible assumption
    | with_reducible apply Keeps.foldl
    | (intro x a hx; beta_reduce; beta_reduce at hx)
    | with_reducible apply Keeps.foldlp
    | with_reducible apply Keeps.foldlq
    | split
    | (with_reducible apply Keeps.u1048576; decide))
theorem addOp_keeps_k {m} {s0 : State} {a0 a1 a2 a3 a4 a5} {s : State} (e : 1048576 ||| m = m) (h : Keeps m s0 s) :
    Keeps m s0 (addOp a0 a1 a2 a3 a4 a5 s).2 := h.tr ((addOp_keeps a0 a1 a2 a3 a4 a5 s).mono e)
theorem addOp_keeps_eqk {m} {s0 : State} {a0 a1 a2 a3 a4 a5} {s : State} {x t} (e : 1048576 ||| m = m) (h : addOp a0 a1 a2 a3 a4 a5 s = (x, t))
    (k : Keeps m s0 s) : Keeps m s0 t := by
  have := addOp_keeps a0 a1 a2 a3 a4 a5 s; rw [h] at this; exact k.tr (this.mono e)

theorem endOp_keeps (a0) (s : State) : Keeps 1649269277714 s (endOp a0 s) := by
  unfold endOp
  try dsimp only
  repeat' (first
    | with_reducible apply Keeps.refl
    | with_reducible assumption
    | (with_reducible apply replyTo_keeps_k; decide)
    | (with_reducible apply refuseAccess_keeps_k; decide)
    | with_reducible apply Keeps.foldl
    | (intro x a hx; beta_reduce; beta_reduce at hx)
    | with_reducible apply Keeps.foldlp
    | with_reducible apply Keeps.foldlq
    | split
    | (with_reducible apply Keeps.u1048576; decide))
theorem endOp_keeps_k {m} {s0 : State} {a0} {s : State} (e : 1649269277714 ||| m = m) (h : Keeps m s0 s) :
    Keeps m s0 (endOp a0 s) := h.tr ((endOp_keeps a0 s).mono e)

theorem readOn_keeps (a0) (s : State) : Keeps 1057874 s (readOn a0 s) := by
  unfold readOn
  try dsimp only
  repeat' (first
    | with_reducible apply Keeps.refl
    | with_reducible assumption
    | (with_reducible apply sendRead_keeps_k; decide)
    | with_reducible apply Keeps.foldl
    | (intro x a hx; beta_reduce; beta_reduce at hx)
    | with_reducible apply Keeps.foldlp
    | with_reducible apply Keeps.foldlq
    | split)
theorem readOn_keeps_k {m} {s0 : State} {a0} {s : State} (e : 1057874 ||| m = m) (h : Keeps m s0 s) :
    Keeps m s0 (readOn a0 s) := h.tr ((readOn_keeps a0 s).mono e)

theorem settleOps_keeps (a0) (s : State) : Keeps 1649269285970 s (settleOps a0 s) := by
  induction a0 generalizing  s with
  | zero =>
    unfold settleOps
    try dsimp only
    repeat' (first
      | with_reducible apply Keeps.refl
      | with_reducible assumption
      | (with_reducible apply ih)
      | (with_reducible apply endOp_keeps_k; decide)
      | (with_reducible apply readOn_keeps_k; decide)
      | with_reducible apply Keeps.foldl
      | (intro x a hx; beta_reduce; beta_reduce at hx)
      | with_reducible apply Keeps.foldlp
      | with_reducible apply Keeps.foldlq
      | split)
  | succ n_ ih' =>
    have ih {s0 : State} {s : State} (h : Keeps 1649269285970 s0 s) : Keeps 1649269285970 s0 (settleOps n_ s) := h.tr (ih' s)
    unfold settleOps
    try dsimp only
    repeat' (first
      | with_reducible apply Keeps.refl
      | with_reducible assumption
      | (with_reducible apply ih)
      | (with_reducible apply endOp_keeps_k; decide)
      | (with_reducible apply readOn_keeps_k; decide)
      | with_reducible apply Keeps.foldl
      | (intro x a hx; beta_reduce; beta_reduce at hx)
      | with_reducible apply Keeps.foldlp
      | with_reducible apply Keeps.foldlq
      | split)
theorem settleOps_keeps_k {m} {s0 : State} {a0} {s : State} (e : 1649269285970 ||| m = m) (h : Keeps m s0 s) :
    Keeps m s0 (settleOps a0 s) := h.tr ((settleOps_keeps a0 s).mono e)

theorem localWrite_keeps (a0 a1) (s : State) : Keeps 1649269285970 s (localWrite a0 a1 s) := by
  unfold localWrite
  try dsimp only
  repeat' (first
    | with_reducible apply Keeps.refl
    | with_reducible assumption
    | (with_reducible apply settleOps_keeps_k; decide)
    | (with_reducible apply addOp_keeps_k; decide)
    | (with_reducible apply addOp_keeps_eqk; decide; with_reducible assumption)
    | (with_reducible apply sendWrite_keeps_k; decide)
    | (with_reducible apply refuseAccess_keeps_k; decide)
    | with_reducible apply Keeps.foldl
    | (intro x a hx; beta_reduce; beta_reduce at hx)
    | with_reducible apply Keeps.foldlp
    | with_reducible apply Keeps.foldlq
    | split)
theorem localWrite_keeps_k {m} {s0 : State} {a0 a1} {s : State} (e : 1649269285970 ||| m = m) (h : Keeps m s0 s) :
    Keeps m s0 (localWrite a0 a1 s) := h.tr ((localWrite_keeps a0 a1 s).mono e)

theorem sendPack_keeps (a0) (s : State) : Keeps 755916080146 s (sendPack a0 s) := by
  unfold sendPack
  try dsimp only
  repeat' (first
    | with_reducible apply Keeps.refl
    | with_reducible assumption
    | (with_reducible apply logEvent_keeps_k; decide)
    | (with_reducible apply sendTracked_keeps_k; decide)
    | with_reducible apply Keeps.foldl
    | (intro x a hx; beta_reduce; beta_reduce at hx)
    | with_reducible apply Keeps.foldlp
    | with_reducible apply Keeps.foldlq
    | split)
theorem sendPack_keeps_k {m} {s0 : State} {a0} {s : State} (e : 755916080146 ||| m = m) (h : Keeps m s0 s) :
    Keeps m s0 (sendPack a0 s) := h.tr ((sendPack_keeps a0 s).mono e)

theorem flushPacks_keeps (a0) (s : State) : Keeps 755916080146 s (flushPacks a0 s) := by
  unfold flushPacks
  try dsimp only
  repeat' (first
    | with_reducible apply Keeps.refl
    | with_reducible assumption
    | (with_reducible apply sendPack_keeps_k; decide)
    | with_reducible apply Keeps.foldl
    | (intro x a hx; beta_reduce; beta_reduce at hx)
    | with_reducible apply Keeps.foldlp
    | with_reducible apply Keeps.foldlq
    | split
    | (with_reducible apply Keeps.u524288; decide))
theorem flushPacks_keeps_k {m} {s0 : State} {a0} {s : State} (e : 755916080146 ||| m = m) (h : Keeps m s0 s) :
    Keeps m s0 (flushPacks a0 s) := h.tr ((flushPacks_keeps a0 s).mono e)

theorem packWrite_keeps (a0 a1 a2 a3) (s : State) : Keeps 755916080146 s (packWrite a0 a1 a2 a3 s) := by
  unfold packWrite
  try dsimp only
  repeat' (first
    | with_reducible apply Keeps.refl
    | with_reducible assumption
    | (with_reducible apply flushPacks_keeps_k; decide)
    | with_reducible apply Keeps.foldl
    | (intro x a hx; beta_reduce; beta_reduce at hx)
    | with_reducible apply Keeps.foldlp
    | with_reducible apply Keeps.foldlq
    | split
    | (with_reducible apply Keeps.u524288; decide))
theorem packWrite_keeps_k {m} {s0 : State} {a0 a1 a2 a3} {s : State} (e : 755916080146 ||| m = m) (h : Keeps m s0 s) :
    Keeps m s0 (packWrite a0 a1 a2 a3 s) := h.tr ((packWrite_keeps a0 a1 a2 a3 s).mono e)

theorem homeStore_keeps (a0 a1 a2 a3) (s : State) : Keeps 274879095898 s (homeStore a0 a1 a2 a3 s) := by
  induction a0 generalizing a1 a2 a3 s with
  | zero =>
    unfold homeStore
    try dsimp only
    repeat' (first
      | with_reducible apply Keeps.refl
      | with_reducible assumption
      | (with_reducible apply ih)
      | (with_reducible apply cacheAccess_keeps_k; decide)
      | with_reducible apply Keeps.foldl
      | (intro x a hx; beta_reduce; beta_reduce at hx)
      | with_reducible apply Keeps.foldlp
      | with_reducible apply Keeps.foldlq
      | split)
  | succ n_ ih' =>
    have ih {s0 : State} {a1 a2 a3} {s : State} (h : Keeps 274879095898 s0 s) : Keeps 274879095898 s0 (homeStore n_ a1 a2 a3 s) := h.tr (ih' a1 a2 a3 s)
    unfold homeStore
    try dsimp only
    repeat' (first
      | with_reducible apply Keeps.refl
      | with_reducible assumption
      | (with_reducible apply ih)
      | (with_reducible apply cacheAccess_keeps_k; decide)
      | with_reducible apply Keeps.foldl
      | (intro x a hx; beta_reduce; beta_reduce at hx)
      | with_reducible apply Keeps.foldlp
      | with_reducible apply Keeps.foldlq
      | split)
theorem homeStore_keeps_k {m} {s0 : State} {a0 a1 a2 a3} {s : State} (e : 274879095898 ||| m = m) (h : Keeps m s0 s) :
    Keeps m s0 (homeStore a0 a1 a2 a3 s) := h.tr ((homeStore_keeps a0 a1 a2 a3 s).mono e)

theorem touchHome_keeps (a0 a1 a2 a3) (s : State) : Keeps 274879095898 s (touchHome a0 a1 a2 a3 s) := by
  induction a0 generalizing a1 a2 a3 s with
  | zero =>
    unfold touchHome
    try dsimp only
    repeat' (first
      | with_reducible apply Keeps.refl
      | with_reducible assumption
      | (with_reducible apply ih)
      | (with_reducible apply cacheAccess_keeps_k; decide)
      | with_reducible apply Keeps.foldl
      | (intro x a hx; beta_reduce; beta_reduce at hx)
      | with_reducible apply Keeps.foldlp
      | with_reducible apply Keeps.foldlq
      | split)
  | succ n_ ih' =>
    have ih {s0 : State} {a1 a2 a3} {s : State} (h : Keeps 274879095898 s0 s) : Keeps 274879095898 s0 (touchHome n_ a1 a2 a3 s) := h.tr (ih' a1 a2 a3 s)
    unfold touchHome
    try dsimp only
    repeat' (first
      | with_reducible apply Keeps.refl
      | with_reducible assumption
      | (with_reducible apply ih)
      | (with_reducible apply cacheAccess_keeps_k; decide)
      | with_reducible apply Keeps.foldl
      | (intro x a hx; beta_reduce; beta_reduce at hx)
      | with_reducible apply Keeps.foldlp
      | with_reducible apply Keeps.foldlq
      | split)
theorem touchHome_keeps_k {m} {s0 : State} {a0 a1 a2 a3} {s : State} (e : 274879095898 ||| m = m) (h : Keeps m s0 s) :
    Keeps m s0 (touchHome a0 a1 a2 a3 s) := h.tr ((touchHome_keeps a0 a1 a2 a3 s).mono e)

theorem siteTouch_keeps (a0 a1 a2) (s : State) : Keeps 1374390723674 s (siteTouch a0 a1 a2 s) := by
  unfold siteTouch
  try dsimp only
  repeat' (first
    | with_reducible apply Keeps.refl
    | with_reducible assumption
    | (with_reducible apply sramRead_keeps_k; decide)
    | (with_reducible apply touchHome_keeps_k; decide)
    | with_reducible apply Keeps.foldl
    | (intro x a hx; beta_reduce; beta_reduce at hx)
    | with_reducible apply Keeps.foldlp
    | with_reducible apply Keeps.foldlq
    | split)
theorem siteTouch_keeps_k {m} {s0 : State} {a0 a1 a2} {s : State} (e : 1374390723674 ||| m = m) (h : Keeps m s0 s) :
    Keeps m s0 (siteTouch a0 a1 a2 s) := h.tr ((siteTouch_keeps a0 a1 a2 s).mono e)

theorem putCompletion_keeps (a0 a1 a2 a3 a4 a5) (s : State) : Keeps 1048576 s (putCompletion a0 a1 a2 a3 a4 a5 s) := by
  unfold putCompletion
  try dsimp only
  repeat' (first
    | with_reducible apply Keeps.refl
    | with_reducible assumption
    | with_reducible apply Keeps.foldl
    | (intro x a hx; beta_reduce; beta_reduce at hx)
    | with_reducible apply Keeps.foldlp
    | with_reducible apply Keeps.foldlq
    | split
    | (with_reducible apply Keeps.u1048576; decide))
theorem putCompletion_keeps_k {m} {s0 : State} {a0 a1 a2 a3 a4 a5} {s : State} (e : 1048576 ||| m = m) (h : Keeps m s0 s) :
    Keeps m s0 (putCompletion a0 a1 a2 a3 a4 a5 s) := h.tr ((putCompletion_keeps a0 a1 a2 a3 a4 a5 s).mono e)

theorem siteWrite_keeps (a0 a1 a2) (s : State) : Keeps 274879095898 s (siteWrite a0 a1 a2 s) := by
  unfold siteWrite
  try dsimp only
  repeat' (first
    | with_reducible apply Keeps.refl
    | with_reducible assumption
    | (with_reducible apply homeStore_keeps_k; decide)
    | (with_reducible apply landWrite_keeps_k; decide)
    | (with_reducible apply storeClean_keeps_k; decide)
    | with_reducible apply Keeps.foldl
    | (intro x a hx; beta_reduce; beta_reduce at hx)
    | with_reducible apply Keeps.foldlp
    | with_reducible apply Keeps.foldlq
    | split)
theorem siteWrite_keeps_k {m} {s0 : State} {a0 a1 a2} {s : State} (e : 274879095898 ||| m = m) (h : Keeps m s0 s) :
    Keeps m s0 (siteWrite a0 a1 a2 s) := h.tr ((siteWrite_keeps a0 a1 a2 s).mono e)

theorem endRecord_keeps (a0 a1 a2 a3 a4) (s : State) : Keeps 481037526106 s (endRecord a0 a1 a2 a3 a4 s) := by
  unfold endRecord
  try dsimp only
  repeat' (first
    | with_reducible apply Keeps.refl
    | with_reducible assumption
    | (with_reducible apply logEvent_keeps_k; decide)
    | (with_reducible apply putCompletion_keeps_k; decide)
    | (with_reducible apply State_setObj_keeps_k; decide)
    | (with_reducible apply State_count_keeps_k; decide)
    | (with_reducible apply siteWrite_keeps_k; decide)
    | with_reducible apply Keeps.foldl
    | (intro x a hx; beta_reduce; beta_reduce at hx)
    | with_reducible apply Keeps.foldlp
    | with_reducible apply Keeps.foldlq
    | split)
theorem endRecord_keeps_k {m} {s0 : State} {a0 a1 a2 a3 a4} {s : State} (e : 481037526106 ||| m = m) (h : Keeps m s0 s) :
    Keeps m s0 (endRecord a0 a1 a2 a3 a4 s) := h.tr ((endRecord_keeps a0 a1 a2 a3 a4 s).mono e)

theorem takeRecord_keeps (a0) (s : State) : KeepsO 2130305754202 s (takeRecord a0 s) := by
  unfold takeRecord
  try dsimp only
  repeat' (first
    | with_reducible apply Keeps.refl
    | with_reducible assumption
    | with_reducible apply KeepsO.none
    | with_reducible apply KeepsO.some
    | (with_reducible apply siteTouch_keeps_k; decide)
    | (with_reducible apply putCompletion_keeps_k; decide)
    | (with_reducible apply takeTrack_keeps_k; decide)
    | (with_reducible apply takeTrack_keeps_eqk; decide; with_reducible assumption)
    | (with_reducible apply endRecord_keeps_k; decide)
    | (with_reducible apply sendPaced_keeps_k; decide)
    | (with_reducible apply State_count_keeps_k; decide)
    | with_reducible apply Keeps.foldl
    | (intro x a hx; beta_reduce; beta_reduce at hx)
    | with_reducible apply Keeps.foldlp
    | with_reducible apply Keeps.foldlq
    | split
    | (with_reducible apply Keeps.u1048576; decide))
theorem takeRecord_keeps_eqk {m} {s0 : State} {a0} {s : State} {t} (e : 2130305754202 ||| m = m) (h : takeRecord a0 s = some t)
    (k : Keeps m s0 s) : Keeps m s0 t := k.tr ((takeRecord_keeps a0 s t h).mono e)

theorem takeRecords_keeps (n : Nat) (s : State) : Keeps 2130305754202 s (takeRecords n s) := by
  induction n generalizing s with
  | zero => exact Keeps.refl _ _
  | succ n ih =>
    unfold takeRecords
    dsimp only
    split
    · next t h =>
      obtain ⟨q, -, hq⟩ := List.exists_of_findSome?_eq_some h
      exact ((takeRecord_keeps q s t hq).mono (by decide)).tr (ih t)
    · exact Keeps.refl _ _
theorem takeRecords_keeps_k {m} {s0 : State} {n : Nat} {s : State} (e : 2130305754202 ||| m = m) (h : Keeps m s0 s) :
    Keeps m s0 (takeRecords n s) := h.tr ((takeRecords_keeps n s).mono e)

theorem readBad_keeps (a0 a1) (s : State) : Keeps 2165297259843 s (readBad a0 a1 s) := by
  unfold readBad
  try dsimp only
  repeat' (first
    | with_reducible apply Keeps.refl
    | with_reducible assumption
    | (with_reducible apply uncorrectable_keeps_k; decide)
    | (with_reducible apply sramBad_keeps_k; decide)
    | with_reducible apply Keeps.foldl
    | (intro x a hx; beta_reduce; beta_reduce at hx)
    | with_reducible apply Keeps.foldlp
    | with_reducible apply Keeps.foldlq
    | split)
theorem readBad_keeps_k {m} {s0 : State} {a0 a1} {s : State} (e : 2165297259843 ||| m = m) (h : Keeps m s0 s) :
    Keeps m s0 (readBad a0 a1 s) := h.tr ((readBad_keeps a0 a1 s).mono e)

theorem noteBad_keeps (a0 a1) (s : State) : Keeps 2165297259843 s (noteBad a0 a1 s) := by
  unfold noteBad
  try dsimp only
  repeat' (first
    | with_reducible apply Keeps.refl
    | with_reducible assumption
    | (with_reducible apply readBad_keeps_k; decide)
    | with_reducible apply Keeps.foldl
    | (intro x a hx; beta_reduce; beta_reduce at hx)
    | with_reducible apply Keeps.foldlp
    | with_reducible apply Keeps.foldlq
    | split)
theorem noteBad_keeps_k {m} {s0 : State} {a0 a1} {s : State} (e : 2165297259843 ||| m = m) (h : Keeps m s0 s) :
    Keeps m s0 (noteBad a0 a1 s) := h.tr ((noteBad_keeps a0 a1 s).mono e)

theorem localFlag_keeps (a0 a1) (s : State) : Keeps 2165298832731 s (localFlag a0 a1 s) := by
  unfold localFlag
  try dsimp only
  repeat' (first
    | with_reducible apply Keeps.refl
    | with_reducible assumption
    | (with_reducible apply replyTo_keeps_k; decide)
    | (with_reducible apply siteTouch_keeps_k; decide)
    | (with_reducible apply noteBad_keeps_k; decide)
    | (with_reducible apply siteWrite_keeps_k; decide)
    | (with_reducible apply refuseAccess_keeps_k; decide)
    | with_reducible apply Keeps.foldl
    | (intro x a hx; beta_reduce; beta_reduce at hx)
    | with_reducible apply Keeps.foldlp
    | with_reducible apply Keeps.foldlq
    | split)
theorem localFlag_keeps_k {m} {s0 : State} {a0 a1} {s : State} (e : 2165298832731 ||| m = m) (h : Keeps m s0 s) :
    Keeps m s0 (localFlag a0 a1 s) := h.tr ((localFlag_keeps a0 a1 s).mono e)

theorem refuseFar_keeps (a0 a1 a2) (s : State) : Keeps 1649269277714 s (refuseFar a0 a1 a2 s) := by
  unfold refuseFar
  try dsimp only
  repeat' (first
    | with_reducible apply Keeps.refl
    | with_reducible assumption
    | (with_reducible apply replyStatus_keeps_k; decide)
    | (with_reducible apply State_count_keeps_k; decide)
    | (with_reducible apply refuseAccess_keeps_k; decide)
    | with_reducible apply Keeps.foldl
    | (intro x a hx; beta_reduce; beta_reduce at hx)
    | with_reducible apply Keeps.foldlp
    | with_reducible apply Keeps.foldlq
    | split)
theorem refuseFar_keeps_k {m} {s0 : State} {a0 a1 a2} {s : State} (e : 1649269277714 ||| m = m) (h : Keeps m s0 s) :
    Keeps m s0 (refuseFar a0 a1 a2 s) := h.tr ((refuseFar_keeps a0 a1 a2 s).mono e)

theorem opLanded_keeps (a0 a1) (s : State) : Keeps 1649269285970 s (opLanded a0 a1 s) := by
  unfold opLanded
  try dsimp only
  repeat' (first
    | with_reducible apply Keeps.refl
    | with_reducible assumption
    | (with_reducible apply replyTo_keeps_k; decide)
    | (with_reducible apply settleOps_keeps_k; decide)
    | (with_reducible apply modOp_keeps_k; decide)
    | with_reducible apply Keeps.foldl
    | (intro x a hx; beta_reduce; beta_reduce at hx)
    | with_reducible apply Keeps.foldlp
    | with_reducible apply Keeps.foldlq
    | split)
theorem opLanded_keeps_k {m} {s0 : State} {a0 a1} {s : State} (e : 1649269285970 ||| m = m) (h : Keeps m s0 s) :
    Keeps m s0 (opLanded a0 a1 s) := h.tr ((opLanded_keeps a0 a1 s).mono e)

theorem markUnreachable_keeps (a0) (s : State) : Keeps 1048576 s (markUnreachable a0 s) := by
  unfold markUnreachable
  try dsimp only
  repeat' (first
    | with_reducible apply Keeps.refl
    | with_reducible assumption
    | with_reducible apply Keeps.foldl
    | (intro x a hx; beta_reduce; beta_reduce at hx)
    | with_reducible apply Keeps.foldlp
    | with_reducible apply Keeps.foldlq
    | split
    | (with_reducible apply Keeps.u1048576; decide))
theorem markUnreachable_keeps_k {m} {s0 : State} {a0} {s : State} (e : 1048576 ||| m = m) (h : Keeps m s0 s) :
    Keeps m s0 (markUnreachable a0 s) := h.tr ((markUnreachable_keeps a0 s).mono e)

theorem localRead_keeps (a0 a1) (s : State) : Keeps 1649269285970 s (localRead a0 a1 s) := by
  unfold localRead
  try dsimp only
  repeat' (first
    | with_reducible apply Keeps.refl
    | with_reducible assumption
    | (with_reducible apply settleOps_keeps_k; decide)
    | (with_reducible apply addOp_keeps_k; decide)
    | (with_reducible apply addOp_keeps_eqk; decide; with_reducible assumption)
    | (with_reducible apply refuseAccess_keeps_k; decide)
    | with_reducible apply Keeps.foldl
    | (intro x a hx; beta_reduce; beta_reduce at hx)
    | with_reducible apply Keeps.foldlp
    | with_reducible apply Keeps.foldlq
    | split)
theorem localRead_keeps_k {m} {s0 : State} {a0 a1} {s : State} (e : 1649269285970 ||| m = m) (h : Keeps m s0 s) :
    Keeps m s0 (localRead a0 a1 s) := h.tr ((localRead_keeps a0 a1 s).mono e)

theorem localBarrier_keeps (a0 a1) (s : State) : Keeps 2165298832731 s (localBarrier a0 a1 s) := by
  unfold localBarrier
  try dsimp only
  repeat' (first
    | with_reducible apply Keeps.refl
    | with_reducible assumption
    | (with_reducible apply replyTo_keeps_k; decide)
    | (with_reducible apply siteTouch_keeps_k; decide)
    | (with_reducible apply noteBad_keeps_k; decide)
    | (with_reducible apply siteWrite_keeps_k; decide)
    | (with_reducible apply refuseAccess_keeps_k; decide)
    | with_reducible apply Keeps.foldl
    | (intro x a hx; beta_reduce; beta_reduce at hx)
    | with_reducible apply Keeps.foldlp
    | with_reducible apply Keeps.foldlq
    | split)
theorem localBarrier_keeps_k {m} {s0 : State} {a0 a1} {s : State} (e : 2165298832731 ||| m = m) (h : Keeps m s0 s) :
    Keeps m s0 (localBarrier a0 a1 s) := h.tr ((localBarrier_keeps a0 a1 s).mono e)

theorem localAtomic_keeps (a0 a1) (s : State) : Keeps 2165298832731 s (localAtomic a0 a1 s) := by
  unfold localAtomic
  try dsimp only
  repeat' (first
    | with_reducible apply Keeps.refl
    | with_reducible assumption
    | (with_reducible apply replyTo_keeps_k; decide)
    | (with_reducible apply siteTouch_keeps_k; decide)
    | (with_reducible apply noteBad_keeps_k; decide)
    | (with_reducible apply State_count_keeps_k; decide)
    | (with_reducible apply siteWrite_keeps_k; decide)
    | (with_reducible apply refuseAccess_keeps_k; decide)
    | with_reducible apply Keeps.foldl
    | (intro x a hx; beta_reduce; beta_reduce at hx)
    | with_reducible apply Keeps.foldlp
    | with_reducible apply Keeps.foldlq
    | split)
theorem localAtomic_keeps_k {m} {s0 : State} {a0 a1} {s : State} (e : 2165298832731 ||| m = m) (h : Keeps m s0 s) :
    Keeps m s0 (localAtomic a0 a1 s) := h.tr ((localAtomic_keeps a0 a1 s).mono e)

end Sys2Proof.Machine
end

