-- ==== Sys2Proof/Laws/KeepsCollective.lean ====
section
/-! SUPPORT. Keeps, for every operation of Machine/Collective.lean that answers a state. -/

set_option linter.all false

namespace Sys2Proof.Machine

theorem setSlot_keeps (a0 a1) (s : State) : Keeps 524288 s (setSlot a0 a1 s) := by
  unfold setSlot
  try dsimp only
  repeat' (first
    | with_reducible apply Keeps.refl
    | with_reducible assumption
    | with_reducible apply Keeps.foldl
    | (intro x a hx; beta_reduce; beta_reduce at hx)
    | with_reducible apply Keeps.foldlp
    | with_reducible apply Keeps.foldlq
    | split
    | (with_reducible apply Keeps.u524288; decide))
theorem setSlot_keeps_k {m} {s0 : State} {a0 a1} {s : State} (e : 524288 ||| m = m) (h : Keeps m s0 s) :
    Keeps m s0 (setSlot a0 a1 s) := h.tr ((setSlot_keeps a0 a1 s).mono e)

theorem sendSum_keeps (a0 a1 a2 a3 a4) (s : State) : Keeps 1049618 s (sendSum a0 a1 a2 a3 a4 s) := by
  induction a0 generalizing a1 a2 a3 a4 s with
  | zero =>
    unfold sendSum
    try dsimp only
    repeat' (first
      | with_reducible apply Keeps.refl
      | with_reducible assumption
      | (with_reducible apply ih)
      | (with_reducible apply sendFrame_keeps_k; decide)
      | with_reducible apply Keeps.foldl
      | (intro x a hx; beta_reduce; beta_reduce at hx)
      | with_reducible apply Keeps.foldlp
      | with_reducible apply Keeps.foldlq
      | split)
  | succ n_ ih' =>
    have ih {s0 : State} {a1 a2 a3 a4} {s : State} (h : Keeps 1049618 s0 s) : Keeps 1049618 s0 (sendSum n_ a1 a2 a3 a4 s) := h.tr (ih' a1 a2 a3 a4 s)
    unfold sendSum
    try dsimp only
    repeat' (first
      | with_reducible apply Keeps.refl
      | with_reducible assumption
      | (with_reducible apply ih)
      | (with_reducible apply sendFrame_keeps_k; decide)
      | with_reducible apply Keeps.foldl
      | (intro x a hx; beta_reduce; beta_reduce at hx)
      | with_reducible apply Keeps.foldlp
      | with_reducible apply Keeps.foldlq
      | split)
theorem sendSum_keeps_k {m} {s0 : State} {a0 a1 a2 a3 a4} {s : State} (e : 1049618 ||| m = m) (h : Keeps m s0 s) :
    Keeps m s0 (sendSum a0 a1 a2 a3 a4 s) := h.tr ((sendSum_keeps a0 a1 a2 a3 a4 s).mono e)

theorem sendTotal_keeps (a0 a1 a2 a3) (s : State) : Keeps 549757649938 s (sendTotal a0 a1 a2 a3 s) := by
  unfold sendTotal
  try dsimp only
  repeat' (first
    | with_reducible apply Keeps.refl
    | with_reducible assumption
    | (with_reducible apply stampPacket_keeps_k; decide)
    | (with_reducible apply stampPacket_keeps_eqk; decide; with_reducible assumption)
    | (with_reducible apply State_count_keeps_k; decide)
    | (with_reducible apply sendSum_keeps_k; decide)
    | (with_reducible apply followWay_keeps_k; decide)
    | with_reducible apply Keeps.foldl
    | (intro x a hx; beta_reduce; beta_reduce at hx)
    | with_reducible apply Keeps.foldlp
    | with_reducible apply Keeps.foldlq
    | split)
theorem sendTotal_keeps_k {m} {s0 : State} {a0 a1 a2 a3} {s : State} (e : 549757649938 ||| m = m) (h : Keeps m s0 s) :
    Keeps m s0 (sendTotal a0 a1 a2 a3 s) := h.tr ((sendTotal_keeps a0 a1 a2 a3 s).mono e)

theorem addPart_keeps (a0 a1 a2 a3 a4) (s : State) : Keeps 549757649938 s (addPart a0 a1 a2 a3 a4 s) := by
  unfold addPart
  try dsimp only
  repeat' (first
    | with_reducible apply Keeps.refl
    | with_reducible assumption
    | (with_reducible apply sendTotal_keeps_k; decide)
    | (with_reducible apply State_count_keeps_k; decide)
    | (with_reducible apply setSlot_keeps_k; decide)
    | with_reducible apply Keeps.foldl
    | (intro x a hx; beta_reduce; beta_reduce at hx)
    | with_reducible apply Keeps.foldlp
    | with_reducible apply Keeps.foldlq
    | split)
theorem addPart_keeps_k {m} {s0 : State} {a0 a1 a2 a3 a4} {s : State} (e : 549757649938 ||| m = m) (h : Keeps m s0 s) :
    Keeps m s0 (addPart a0 a1 a2 a3 a4 s) := h.tr ((addPart_keeps a0 a1 a2 a3 a4 s).mono e)

theorem slotBytes_keeps (a0 a1 a2 a3) (s : State) : Keeps 549757649938 s (slotBytes a0 a1 a2 a3 s) := by
  unfold slotBytes
  try dsimp only
  repeat' (first
    | with_reducible apply Keeps.refl
    | with_reducible assumption
    | (with_reducible apply addPart_keeps_k; decide)
    | (with_reducible apply State_count_keeps_k; decide)
    | with_reducible apply Keeps.foldl
    | (intro x a hx; beta_reduce; beta_reduce at hx)
    | with_reducible apply Keeps.foldlp
    | with_reducible apply Keeps.foldlq
    | split)
theorem slotBytes_keeps_k {m} {s0 : State} {a0 a1 a2 a3} {s : State} (e : 549757649938 ||| m = m) (h : Keeps m s0 s) :
    Keeps m s0 (slotBytes a0 a1 a2 a3 s) := h.tr ((slotBytes_keeps a0 a1 a2 a3 s).mono e)

theorem timeOutSlot_keeps (a0 a1) (s : State) : Keeps 206158954498 s (timeOutSlot a0 a1 s) := by
  unfold timeOutSlot
  try dsimp only
  repeat' (first
    | with_reducible apply Keeps.refl
    | with_reducible assumption
    | (with_reducible apply countLog_keeps_k; decide)
    | (with_reducible apply setSlot_keeps_k; decide)
    | with_reducible apply Keeps.foldl
    | (intro x a hx; beta_reduce; beta_reduce at hx)
    | with_reducible apply Keeps.foldlp
    | with_reducible apply Keeps.foldlq
    | split)
theorem timeOutSlot_keeps_k {m} {s0 : State} {a0 a1} {s : State} (e : 206158954498 ||| m = m) (h : Keeps m s0 s) :
    Keeps m s0 (timeOutSlot a0 a1 s) := h.tr ((timeOutSlot_keeps a0 a1 s).mono e)

theorem resetRim_keeps (a0) (s : State) : Keeps 206158954498 s (resetRim a0 s) := by
  unfold resetRim
  try dsimp only
  repeat' (first
    | with_reducible apply Keeps.refl
    | with_reducible assumption
    | (with_reducible apply timeOutSlot_keeps_k; decide)
    | with_reducible apply Keeps.foldl
    | (intro x a hx; beta_reduce; beta_reduce at hx)
    | with_reducible apply Keeps.foldlp
    | with_reducible apply Keeps.foldlq
    | split
    | (with_reducible apply Keeps.u524288; decide))
theorem resetRim_keeps_k {m} {s0 : State} {a0} {s : State} (e : 206158954498 ||| m = m) (h : Keeps m s0 s) :
    Keeps m s0 (resetRim a0 s) := h.tr ((resetRim_keeps a0 s).mono e)

end Sys2Proof.Machine
end

