-- ==== Sys2Proof/Laws/KeepsRetriever.lean ====
section
/-! SUPPORT. Keeps, for every operation of Machine/Retriever.lean that answers a state. -/

set_option linter.all false

namespace Sys2Proof.Machine

theorem dropBuf_keeps (a0 a1) (s : State) : Keeps 2097152 s (dropBuf a0 a1 s) := by
  unfold dropBuf
  try dsimp only
  repeat' (first
    | with_reducible apply Keeps.refl
    | with_reducible assumption
    | with_reducible apply Keeps.foldl
    | (intro x a hx; beta_reduce; beta_reduce at hx)
    | with_reducible apply Keeps.foldlp
    | with_reducible apply Keeps.foldlq
    | split
    | (with_reducible apply Keeps.u2097152; decide))
theorem dropBuf_keeps_k {m} {s0 : State} {a0 a1} {s : State} (e : 2097152 ||| m = m) (h : Keeps m s0 s) :
    Keeps m s0 (dropBuf a0 a1 s) := h.tr ((dropBuf_keeps a0 a1 s).mono e)

theorem State_setGw_keeps (a1 a2) (s : State) : Keeps 2097152 s (State.setGw s a1 a2) := by
  unfold State.setGw
  try dsimp only
  repeat' (first
    | with_reducible apply Keeps.refl
    | with_reducible assumption
    | with_reducible apply Keeps.foldl
    | (intro x a hx; beta_reduce; beta_reduce at hx)
    | with_reducible apply Keeps.foldlp
    | with_reducible apply Keeps.foldlq
    | split
    | (with_reducible apply Keeps.u2097152; decide))
theorem State_setGw_keeps_k {m} {s0 : State} {a1 a2} {s : State} (e : 2097152 ||| m = m) (h : Keeps m s0 s) :
    Keeps m s0 (State.setGw s a1 a2) := h.tr ((State_setGw_keeps a1 a2 s).mono e)

theorem modBuf_keeps (a0 a1 a2) (s : State) : Keeps 2097152 s (modBuf a0 a1 a2 s) := by
  unfold modBuf
  try dsimp only
  repeat' (first
    | with_reducible apply Keeps.refl
    | with_reducible assumption
    | with_reducible apply Keeps.foldl
    | (intro x a hx; beta_reduce; beta_reduce at hx)
    | with_reducible apply Keeps.foldlp
    | with_reducible apply Keeps.foldlq
    | split
    | (with_reducible apply Keeps.u2097152; decide))
theorem modBuf_keeps_k {m} {s0 : State} {a0 a1 a2} {s : State} (e : 2097152 ||| m = m) (h : Keeps m s0 s) :
    Keeps m s0 (modBuf a0 a1 a2 s) := h.tr ((modBuf_keeps a0 a1 a2 s).mono e)

theorem gwEmit_keeps (a0 a1 a2 a3 a4) (s : State) : Keeps 549755813888 s (gwEmit a0 a1 a2 a3 a4 s) := by
  unfold gwEmit
  try dsimp only
  repeat' (first
    | with_reducible apply Keeps.refl
    | with_reducible assumption
    | (with_reducible apply State_emit_keeps_k; decide)
    | with_reducible apply Keeps.foldl
    | (intro x a hx; beta_reduce; beta_reduce at hx)
    | with_reducible apply Keeps.foldlp
    | with_reducible apply Keeps.foldlq
    | split)
theorem gwEmit_keeps_k {m} {s0 : State} {a0 a1 a2 a3 a4} {s : State} (e : 549755813888 ||| m = m) (h : Keeps m s0 s) :
    Keeps m s0 (gwEmit a0 a1 a2 a3 a4 s) := h.tr ((gwEmit_keeps a0 a1 a2 a3 a4 s).mono e)

theorem gwSend_keeps (a0 a1 a2 a3) (s : State) : Keeps 549757911040 s (gwSend a0 a1 a2 a3 s) := by
  unfold gwSend
  try dsimp only
  repeat' (first
    | with_reducible apply Keeps.refl
    | with_reducible assumption
    | (with_reducible apply State_setGw_keeps_k; decide)
    | (with_reducible apply gwEmit_keeps_k; decide)
    | with_reducible apply Keeps.foldl
    | (intro x a hx; beta_reduce; beta_reduce at hx)
    | with_reducible apply Keeps.foldlp
    | with_reducible apply Keeps.foldlq
    | split)
theorem gwSend_keeps_k {m} {s0 : State} {a0 a1 a2 a3} {s : State} (e : 549757911040 ||| m = m) (h : Keeps m s0 s) :
    Keeps m s0 (gwSend a0 a1 a2 a3 s) := h.tr ((gwSend_keeps a0 a1 a2 a3 s).mono e)

theorem gwPump_keeps (a0) (s : State) : Keeps 549757911042 s (gwPump a0 s) := by
  induction a0 generalizing  s with
  | zero =>
    unfold gwPump
    try dsimp only
    repeat' (first
      | with_reducible apply Keeps.refl
      | with_reducible assumption
      | (with_reducible apply ih)
      | (with_reducible apply State_setGw_keeps_k; decide)
      | (with_reducible apply gwSend_keeps_k; decide)
      | (with_reducible apply modBuf_keeps_k; decide)
      | (with_reducible apply State_count_keeps_k; decide)
      | with_reducible apply Keeps.foldl
      | (intro x a hx; beta_reduce; beta_reduce at hx)
      | with_reducible apply Keeps.foldlp
      | with_reducible apply Keeps.foldlq
      | split)
  | succ n_ ih' =>
    have ih {s0 : State} {s : State} (h : Keeps 549757911042 s0 s) : Keeps 549757911042 s0 (gwPump n_ s) := h.tr (ih' s)
    unfold gwPump
    try dsimp only
    repeat' (first
      | with_reducible apply Keeps.refl
      | with_reducible assumption
      | (with_reducible apply ih)
      | (with_reducible apply State_setGw_keeps_k; decide)
      | (with_reducible apply gwSend_keeps_k; decide)
      | (with_reducible apply modBuf_keeps_k; decide)
      | (with_reducible apply State_count_keeps_k; decide)
      | with_reducible apply Keeps.foldl
      | (intro x a hx; beta_reduce; beta_reduce at hx)
      | with_reducible apply Keeps.foldlp
      | with_reducible apply Keeps.foldlq
      | split)
theorem gwPump_keeps_k {m} {s0 : State} {a0} {s : State} (e : 549757911042 ||| m = m) (h : Keeps m s0 s) :
    Keeps m s0 (gwPump a0 s) := h.tr ((gwPump_keeps a0 s).mono e)

theorem gwPumpAll_keeps (s : State) : Keeps 549757911042 s (gwPumpAll s) := by
  unfold gwPumpAll
  try dsimp only
  repeat' (first
    | with_reducible apply Keeps.refl
    | with_reducible assumption
    | (with_reducible apply gwPump_keeps_k; decide)
    | with_reducible apply Keeps.foldl
    | (intro x a hx; beta_reduce; beta_reduce at hx)
    | with_reducible apply Keeps.foldlp
    | with_reducible apply Keeps.foldlq
    | split)
theorem gwPumpAll_keeps_k {m} {s0 : State} {s : State} (e : 549757911042 ||| m = m) (h : Keeps m s0 s) :
    Keeps m s0 (gwPumpAll s) := h.tr ((gwPumpAll_keeps  s).mono e)

theorem gwOpen_keeps (a0) (s : State) : Keeps 549757911040 s (gwOpen a0 s) := by
  unfold gwOpen
  try dsimp only
  repeat' (first
    | with_reducible apply Keeps.refl
    | with_reducible assumption
    | (with_reducible apply State_setGw_keeps_k; decide)
    | (with_reducible apply gwSend_keeps_k; decide)
    | with_reducible apply Keeps.foldl
    | (intro x a hx; beta_reduce; beta_reduce at hx)
    | with_reducible apply Keeps.foldlp
    | with_reducible apply Keeps.foldlq
    | split
    | (with_reducible apply Keeps.u2097152; decide))
theorem gwOpen_keeps_k {m} {s0 : State} {a0} {s : State} (e : 549757911040 ||| m = m) (h : Keeps m s0 s) :
    Keeps m s0 (gwOpen a0 s) := h.tr ((gwOpen_keeps a0 s).mono e)

theorem gwNeed_keeps (a0) (s : State) : Keeps 549757911042 s (gwNeed a0 s) := by
  unfold gwNeed
  try dsimp only
  repeat' (first
    | with_reducible apply Keeps.refl
    | with_reducible assumption
    | (with_reducible apply gwOpen_keeps_k; decide)
    | (with_reducible apply gwPumpAll_keeps_k; decide)
    | with_reducible apply Keeps.foldl
    | (intro x a hx; beta_reduce; beta_reduce at hx)
    | with_reducible apply Keeps.foldlp
    | with_reducible apply Keeps.foldlq
    | split)
theorem gwNeed_keeps_k {m} {s0 : State} {a0} {s : State} (e : 549757911042 ||| m = m) (h : Keeps m s0 s) :
    Keeps m s0 (gwNeed a0 s) := h.tr ((gwNeed_keeps a0 s).mono e)

theorem gwFlush_keeps (a0 a1) (s : State) : Keeps 549757911042 s (gwFlush a0 a1 s) := by
  unfold gwFlush
  try dsimp only
  repeat' (first
    | with_reducible apply Keeps.refl
    | with_reducible assumption
    | (with_reducible apply gwNeed_keeps_k; decide)
    | with_reducible apply Keeps.foldl
    | (intro x a hx; beta_reduce; beta_reduce at hx)
    | with_reducible apply Keeps.foldlp
    | with_reducible apply Keeps.foldlq
    | split
    | (with_reducible apply Keeps.u2097152; decide))
theorem gwFlush_keeps_k {m} {s0 : State} {a0 a1} {s : State} (e : 549757911042 ||| m = m) (h : Keeps m s0 s) :
    Keeps m s0 (gwFlush a0 a1 s) := h.tr ((gwFlush_keeps a0 a1 s).mono e)

theorem gwIssue_keeps (a0) (s : State) : Keeps 549759747090 s (gwIssue a0 s) := by
  unfold gwIssue
  try dsimp only
  repeat' (first
    | with_reducible apply Keeps.refl
    | with_reducible assumption
    | (with_reducible apply takeTrack_keeps_k; decide)
    | (with_reducible apply takeTrack_keeps_eqk; decide; with_reducible assumption)
    | (with_reducible apply sendPaced_keeps_k; decide)
    | with_reducible apply Keeps.foldl
    | (intro x a hx; beta_reduce; beta_reduce at hx)
    | with_reducible apply Keeps.foldlp
    | with_reducible apply Keeps.foldlq
    | split
    | (with_reducible apply Keeps.u2097152; decide))
theorem gwIssue_keeps_k {m} {s0 : State} {a0} {s : State} (e : 549759747090 ||| m = m) (h : Keeps m s0 s) :
    Keeps m s0 (gwIssue a0 s) := h.tr ((gwIssue_keeps a0 s).mono e)

theorem gwReceive_keeps (a0 a1) (s : State) : Keeps 549757911042 s (gwReceive a0 a1 s).2 := by
  unfold gwReceive
  try dsimp only
  repeat' (first
    | with_reducible apply Keeps.refl
    | with_reducible assumption
    | (with_reducible apply State_setGw_keeps_k; decide)
    | (with_reducible apply gwSend_keeps_k; decide)
    | (with_reducible apply State_count_keeps_k; decide)
    | with_reducible apply Keeps.foldl
    | (intro x a hx; beta_reduce; beta_reduce at hx)
    | with_reducible apply Keeps.foldlp
    | with_reducible apply Keeps.foldlq
    | split)
theorem gwReceive_keeps_k {m} {s0 : State} {a0 a1} {s : State} (e : 549757911042 ||| m = m) (h : Keeps m s0 s) :
    Keeps m s0 (gwReceive a0 a1 s).2 := h.tr ((gwReceive_keeps a0 a1 s).mono e)
theorem gwReceive_keeps_eqk {m} {s0 : State} {a0 a1} {s : State} {x t} (e : 549757911042 ||| m = m) (h : gwReceive a0 a1 s = (x, t))
    (k : Keeps m s0 s) : Keeps m s0 t := by
  have := gwReceive_keeps a0 a1 s; rw [h] at this; exact k.tr (this.mono e)

theorem gwReadPage_keeps (a0 a1 a2) (s : State) : Keeps 1649271374866 s (gwReadPage a0 a1 a2 s) := by
  unfold gwReadPage
  try dsimp only
  repeat' (first
    | with_reducible apply Keeps.refl
    | with_reducible assumption
    | (with_reducible apply gwFlush_keeps_k; decide)
    | (with_reducible apply modBuf_keeps_k; decide)
    | (with_reducible apply refuseFar_keeps_k; decide)
    | (with_reducible apply State_count_keeps_k; decide)
    | (with_reducible apply gwNeed_keeps_k; decide)
    | with_reducible apply Keeps.foldl
    | (intro x a hx; beta_reduce; beta_reduce at hx)
    | with_reducible apply Keeps.foldlp
    | with_reducible apply Keeps.foldlq
    | split
    | (with_reducible apply Keeps.u2097152; decide))
theorem gwReadPage_keeps_k {m} {s0 : State} {a0 a1 a2} {s : State} (e : 1649271374866 ||| m = m) (h : Keeps m s0 s) :
    Keeps m s0 (gwReadPage a0 a1 a2 s) := h.tr ((gwReadPage_keeps a0 a1 a2 s).mono e)

theorem gwRead_keeps (a0 a1) (s : State) : Keeps 1649271374866 s (gwRead a0 a1 s) := by
  unfold gwRead
  try dsimp only
  repeat' (first
    | with_reducible apply Keeps.refl
    | with_reducible assumption
    | (with_reducible apply gwReadPage_keeps_k; decide)
    | with_reducible apply Keeps.foldl
    | (intro x a hx; beta_reduce; beta_reduce at hx)
    | with_reducible apply Keeps.foldlp
    | with_reducible apply Keeps.foldlq
    | split)
theorem gwRead_keeps_k {m} {s0 : State} {a0 a1} {s : State} (e : 1649271374866 ||| m = m) (h : Keeps m s0 s) :
    Keeps m s0 (gwRead a0 a1 s) := h.tr ((gwRead_keeps a0 a1 s).mono e)

theorem gwStorePage_keeps (a0 a1 a2) (s : State) : Keeps 1649271374866 s (gwStorePage a0 a1 a2 s) := by
  unfold gwStorePage
  try dsimp only
  repeat' (first
    | with_reducible apply Keeps.refl
    | with_reducible assumption
    | (with_reducible apply modBuf_keeps_k; decide)
    | (with_reducible apply refuseFar_keeps_k; decide)
    | with_reducible apply Keeps.foldl
    | (intro x a hx; beta_reduce; beta_reduce at hx)
    | with_reducible apply Keeps.foldlp
    | with_reducible apply Keeps.foldlq
    | split
    | (with_reducible apply Keeps.u2097152; decide))
theorem gwStorePage_keeps_k {m} {s0 : State} {a0 a1 a2} {s : State} (e : 1649271374866 ||| m = m) (h : Keeps m s0 s) :
    Keeps m s0 (gwStorePage a0 a1 a2 s) := h.tr ((gwStorePage_keeps a0 a1 a2 s).mono e)

theorem gwStore_keeps (a0 a1) (s : State) : Keeps 1649271374866 s (gwStore a0 a1 s) := by
  unfold gwStore
  try dsimp only
  repeat' (first
    | with_reducible apply Keeps.refl
    | with_reducible assumption
    | (with_reducible apply gwStorePage_keeps_k; decide)
    | with_reducible apply Keeps.foldl
    | (intro x a hx; beta_reduce; beta_reduce at hx)
    | with_reducible apply Keeps.foldlp
    | with_reducible apply Keeps.foldlq
    | split)
theorem gwStore_keeps_k {m} {s0 : State} {a0 a1} {s : State} (e : 1649271374866 ||| m = m) (h : Keeps m s0 s) :
    Keeps m s0 (gwStore a0 a1 s) := h.tr ((gwStore_keeps a0 a1 s).mono e)

theorem gwTake_keeps (a0 a1) (s : State) : Keeps 1649271374866 s (gwTake a0 a1 s) := by
  unfold gwTake
  try dsimp only
  repeat' (first
    | with_reducible apply Keeps.refl
    | with_reducible assumption
    | (with_reducible apply gwStore_keeps_k; decide)
    | (with_reducible apply gwRead_keeps_k; decide)
    | with_reducible apply Keeps.foldl
    | (intro x a hx; beta_reduce; beta_reduce at hx)
    | with_reducible apply Keeps.foldlp
    | with_reducible apply Keeps.foldlq
    | split)
theorem gwTake_keeps_k {m} {s0 : State} {a0 a1} {s : State} (e : 1649271374866 ||| m = m) (h : Keeps m s0 s) :
    Keeps m s0 (gwTake a0 a1 s) := h.tr ((gwTake_keeps a0 a1 s).mono e)

theorem gwRetry_keeps (a0) (s : State) : Keeps 1649271374866 s (gwRetry a0 s) := by
  induction a0 generalizing  s with
  | zero =>
    unfold gwRetry
    try dsimp only
    repeat' (first
      | with_reducible apply Keeps.refl
      | with_reducible assumption
      | (with_reducible apply ih)
      | (with_reducible apply gwTake_keeps_k; decide)
      | with_reducible apply Keeps.foldl
      | (intro x a hx; beta_reduce; beta_reduce at hx)
      | with_reducible apply Keeps.foldlp
      | with_reducible apply Keeps.foldlq
      | split
      | (with_reducible apply Keeps.u2097152; decide))
  | succ n_ ih' =>
    have ih {s0 : State} {s : State} (h : Keeps 1649271374866 s0 s) : Keeps 1649271374866 s0 (gwRetry n_ s) := h.tr (ih' s)
    unfold gwRetry
    try dsimp only
    repeat' (first
      | with_reducible apply Keeps.refl
      | with_reducible assumption
      | (with_reducible apply ih)
      | (with_reducible apply gwTake_keeps_k; decide)
      | with_reducible apply Keeps.foldl
      | (intro x a hx; beta_reduce; beta_reduce at hx)
      | with_reducible apply Keeps.foldlp
      | with_reducible apply Keeps.foldlq
      | split
      | (with_reducible apply Keeps.u2097152; decide))
theorem gwRetry_keeps_k {m} {s0 : State} {a0} {s : State} (e : 1649271374866 ||| m = m) (h : Keeps m s0 s) :
    Keeps m s0 (gwRetry a0 s) := h.tr ((gwRetry_keeps a0 s).mono e)

theorem gwAfter_keeps (a0 a1) (s : State) : Keeps 1649271374866 s (gwAfter a0 a1 s) := by
  unfold gwAfter
  try dsimp only
  repeat' (first
    | with_reducible apply Keeps.refl
    | with_reducible assumption
    | (with_reducible apply gwRetry_keeps_k; decide)
    | (with_reducible apply gwSend_keeps_k; decide)
    | (with_reducible apply gwPumpAll_keeps_k; decide)
    | with_reducible apply Keeps.foldl
    | (intro x a hx; beta_reduce; beta_reduce at hx)
    | with_reducible apply Keeps.foldlp
    | with_reducible apply Keeps.foldlq
    | split)
theorem gwAfter_keeps_k {m} {s0 : State} {a0 a1} {s : State} (e : 1649271374866 ||| m = m) (h : Keeps m s0 s) :
    Keeps m s0 (gwAfter a0 a1 s) := h.tr ((gwAfter_keeps a0 a1 s).mono e)

theorem gwStored_keeps (a0 a1 a2 a3) (s : State) : Keeps 549759747090 s (gwStored a0 a1 a2 a3 s) := by
  unfold gwStored
  try dsimp only
  repeat' (first
    | with_reducible apply Keeps.refl
    | with_reducible assumption
    | (with_reducible apply replyTo_keeps_k; decide)
    | (with_reducible apply replyStatus_keeps_k; decide)
    | with_reducible apply Keeps.foldl
    | (intro x a hx; beta_reduce; beta_reduce at hx)
    | with_reducible apply Keeps.foldlp
    | with_reducible apply Keeps.foldlq
    | split
    | (with_reducible apply Keeps.u2097152; decide))
theorem gwStored_keeps_k {m} {s0 : State} {a0 a1 a2 a3} {s : State} (e : 549759747090 ||| m = m) (h : Keeps m s0 s) :
    Keeps m s0 (gwStored a0 a1 a2 a3 s) := h.tr ((gwStored_keeps a0 a1 a2 a3 s).mono e)

theorem gwFlushed_keeps (a0 a1 a2) (s : State) : Keeps 1649271374866 s (gwFlushed a0 a1 a2 s) := by
  unfold gwFlushed
  try dsimp only
  repeat' (first
    | with_reducible apply Keeps.refl
    | with_reducible assumption
    | (with_reducible apply dropBuf_keeps_k; decide)
    | (with_reducible apply gwStored_keeps_k; decide)
    | (with_reducible apply gwReadPage_keeps_k; decide)
    | with_reducible apply Keeps.foldl
    | (intro x a hx; beta_reduce; beta_reduce at hx)
    | with_reducible apply Keeps.foldlp
    | with_reducible apply Keeps.foldlq
    | split)
theorem gwFlushed_keeps_k {m} {s0 : State} {a0 a1 a2} {s : State} (e : 1649271374866 ||| m = m) (h : Keeps m s0 s) :
    Keeps m s0 (gwFlushed a0 a1 a2 s) := h.tr ((gwFlushed_keeps a0 a1 a2 s).mono e)

theorem gwAnswer_keeps (a0 a1 a2 a3 a4 a5) (s : State) : Keeps 549759747090 s (gwAnswer a0 a1 a2 a3 a4 a5 s) := by
  unfold gwAnswer
  try dsimp only
  repeat' (first
    | with_reducible apply Keeps.refl
    | with_reducible assumption
    | (with_reducible apply replyTo_keeps_k; decide)
    | (with_reducible apply replyStatus_keeps_k; decide)
    | with_reducible apply Keeps.foldl
    | (intro x a hx; beta_reduce; beta_reduce at hx)
    | with_reducible apply Keeps.foldlp
    | with_reducible apply Keeps.foldlq
    | split
    | (with_reducible apply Keeps.u2097152; decide))
theorem gwAnswer_keeps_k {m} {s0 : State} {a0 a1 a2 a3 a4 a5} {s : State} (e : 549759747090 ||| m = m) (h : Keeps m s0 s) :
    Keeps m s0 (gwAnswer a0 a1 a2 a3 a4 a5 s) := h.tr ((gwAnswer_keeps a0 a1 a2 a3 a4 a5 s).mono e)

theorem gwLose_keeps (a0) (s : State) : Keeps 549759747090 s (gwLose a0 s) := by
  unfold gwLose
  try dsimp only
  repeat' (first
    | with_reducible apply Keeps.refl
    | with_reducible assumption
    | (with_reducible apply dropBuf_keeps_k; decide)
    | (with_reducible apply gwStored_keeps_k; decide)
    | (with_reducible apply gwAnswer_keeps_k; decide)
    | with_reducible apply Keeps.foldl
    | (intro x a hx; beta_reduce; beta_reduce at hx)
    | with_reducible apply Keeps.foldlp
    | with_reducible apply Keeps.foldlq
    | split)
theorem gwLose_keeps_k {m} {s0 : State} {a0} {s : State} (e : 549759747090 ||| m = m) (h : Keeps m s0 s) :
    Keeps m s0 (gwLose a0 s) := h.tr ((gwLose_keeps a0 s).mono e)

theorem gwDrop_keeps (a0) (s : State) : Keeps 549759747090 s (gwDrop a0 s) := by
  unfold gwDrop
  try dsimp only
  repeat' (first
    | with_reducible apply Keeps.refl
    | with_reducible assumption
    | (with_reducible apply gwLose_keeps_k; decide)
    | with_reducible apply Keeps.foldl
    | (intro x a hx; beta_reduce; beta_reduce at hx)
    | with_reducible apply Keeps.foldlp
    | with_reducible apply Keeps.foldlq
    | split
    | (with_reducible apply Keeps.u2097152; decide))
theorem gwDrop_keeps_k {m} {s0 : State} {a0} {s : State} (e : 549759747090 ||| m = m) (h : Keeps m s0 s) :
    Keeps m s0 (gwDrop a0 s) := h.tr ((gwDrop_keeps a0 s).mono e)

theorem spoilGet_keeps (a0) (s : State) : Keeps 1374390723674 s (spoilGet a0 s) := by
  unfold spoilGet
  try dsimp only
  repeat' (first
    | with_reducible apply Keeps.refl
    | with_reducible assumption
    | (with_reducible apply siteWrite_keeps_k; decide)
    | (with_reducible apply State_drawn_keeps_k; decide)
    | with_reducible apply Keeps.foldl
    | (intro x a hx; beta_reduce; beta_reduce at hx)
    | with_reducible apply Keeps.foldlp
    | with_reducible apply Keeps.foldlq
    | split)
theorem spoilGet_keeps_k {m} {s0 : State} {a0} {s : State} (e : 1374390723674 ||| m = m) (h : Keeps m s0 s) :
    Keeps m s0 (spoilGet a0 s) := h.tr ((spoilGet_keeps a0 s).mono e)

theorem gwFinish_keeps (a0) (s : State) : Keeps 549757911040 s (gwFinish a0 s) := by
  unfold gwFinish
  try dsimp only
  repeat' (first
    | with_reducible apply Keeps.refl
    | with_reducible assumption
    | (with_reducible apply State_setGw_keeps_k; decide)
    | (with_reducible apply gwSend_keeps_k; decide)
    | with_reducible apply Keeps.foldl
    | (intro x a hx; beta_reduce; beta_reduce at hx)
    | with_reducible apply Keeps.foldlp
    | with_reducible apply Keeps.foldlq
    | split
    | (with_reducible apply Keeps.u2097152; decide))
theorem gwFinish_keeps_k {m} {s0 : State} {a0} {s : State} (e : 549757911040 ||| m = m) (h : Keeps m s0 s) :
    Keeps m s0 (gwFinish a0 s) := h.tr ((gwFinish_keeps a0 s).mono e)

theorem gwServeOn_keeps (a0) (s : State) : Keeps 549759747090 s (gwServeOn a0 s) := by
  induction a0 generalizing  s with
  | zero =>
    unfold gwServeOn
    try dsimp only
    repeat' (first
      | with_reducible apply Keeps.refl
      | with_reducible assumption
      | (with_reducible apply ih)
      | (with_reducible apply gwIssue_keeps_k; decide)
      | (with_reducible apply gwFinish_keeps_k; decide)
      | with_reducible apply Keeps.foldl
      | (intro x a hx; beta_reduce; beta_reduce at hx)
      | with_reducible apply Keeps.foldlp
      | with_reducible apply Keeps.foldlq
      | split)
  | succ n_ ih' =>
    have ih {s0 : State} {s : State} (h : Keeps 549759747090 s0 s) : Keeps 549759747090 s0 (gwServeOn n_ s) := h.tr (ih' s)
    unfold gwServeOn
    try dsimp only
    repeat' (first
      | with_reducible apply Keeps.refl
      | with_reducible assumption
      | (with_reducible apply ih)
      | (with_reducible apply gwIssue_keeps_k; decide)
      | (with_reducible apply gwFinish_keeps_k; decide)
      | with_reducible apply Keeps.foldl
      | (intro x a hx; beta_reduce; beta_reduce at hx)
      | with_reducible apply Keeps.foldlp
      | with_reducible apply Keeps.foldlq
      | split)
theorem gwServeOn_keeps_k {m} {s0 : State} {a0} {s : State} (e : 549759747090 ||| m = m) (h : Keeps m s0 s) :
    Keeps m s0 (gwServeOn a0 s) := h.tr ((gwServeOn_keeps a0 s).mono e)

theorem gwOpDone_keeps (a0 a1 a2) (s : State) : Keeps 549759747090 s (gwOpDone a0 a1 a2 s) := by
  unfold gwOpDone
  try dsimp only
  repeat' (first
    | with_reducible apply Keeps.refl
    | with_reducible assumption
    | (with_reducible apply gwServeOn_keeps_k; decide)
    | with_reducible apply Keeps.foldl
    | (intro x a hx; beta_reduce; beta_reduce at hx)
    | with_reducible apply Keeps.foldlp
    | with_reducible apply Keeps.foldlq
    | split
    | (with_reducible apply Keeps.u2097152; decide))
theorem gwOpDone_keeps_k {m} {s0 : State} {a0 a1 a2} {s : State} (e : 549759747090 ||| m = m) (h : Keeps m s0 s) :
    Keeps m s0 (gwOpDone a0 a1 a2 s) := h.tr ((gwOpDone_keeps a0 a1 a2 s).mono e)

theorem endTrack_keeps (a0 a1 a2 a3) (s : State) : Keeps 2130307851354 s (endTrack a0 a1 a2 a3 s) := by
  unfold endTrack
  try dsimp only
  repeat' (first
    | with_reducible apply Keeps.refl
    | with_reducible assumption
    | (with_reducible apply gwOpDone_keeps_k; decide)
    | (with_reducible apply endRecord_keeps_k; decide)
    | (with_reducible apply spoilGet_keeps_k; decide)
    | with_reducible apply Keeps.foldl
    | (intro x a hx; beta_reduce; beta_reduce at hx)
    | with_reducible apply Keeps.foldlp
    | with_reducible apply Keeps.foldlq
    | split
    | (with_reducible apply Keeps.u1048576; decide))
theorem endTrack_keeps_k {m} {s0 : State} {a0 a1 a2 a3} {s : State} (e : 2130307851354 ||| m = m) (h : Keeps m s0 s) :
    Keeps m s0 (endTrack a0 a1 a2 a3 s) := h.tr ((endTrack_keeps a0 a1 a2 a3 s).mono e)

theorem countReply_keeps (a0 a1) (s : State) : Keeps 2130307851354 s (countReply a0 a1 s) := by
  unfold countReply
  try dsimp only
  repeat' (first
    | with_reducible apply Keeps.refl
    | with_reducible assumption
    | (with_reducible apply endTrack_keeps_k; decide)
    | with_reducible apply Keeps.foldl
    | (intro x a hx; beta_reduce; beta_reduce at hx)
    | with_reducible apply Keeps.foldlp
    | with_reducible apply Keeps.foldlq
    | split
    | (with_reducible apply Keeps.u1048576; decide))
theorem countReply_keeps_k {m} {s0 : State} {a0 a1} {s : State} (e : 2130307851354 ||| m = m) (h : Keeps m s0 s) :
    Keeps m s0 (countReply a0 a1 s) := h.tr ((countReply_keeps a0 a1 s).mono e)

theorem replyFor_keeps (a0 a1) (s : State) : Keeps 1572866 s (replyFor a0 a1 s).2 := by
  unfold replyFor
  try dsimp only
  repeat' (first
    | with_reducible apply Keeps.refl
    | with_reducible assumption
    | (with_reducible apply arriveHere_keeps_k; decide)
    | (with_reducible apply arriveHere_keeps_eqk; decide; with_reducible assumption)
    | (with_reducible apply noteEcho_keeps_k; decide)
    | (with_reducible apply State_count_keeps_k; decide)
    | with_reducible apply Keeps.foldl
    | (intro x a hx; beta_reduce; beta_reduce at hx)
    | with_reducible apply Keeps.foldlp
    | with_reducible apply Keeps.foldlq
    | split)
theorem replyFor_keeps_k {m} {s0 : State} {a0 a1} {s : State} (e : 1572866 ||| m = m) (h : Keeps m s0 s) :
    Keeps m s0 (replyFor a0 a1 s).2 := h.tr ((replyFor_keeps a0 a1 s).mono e)
theorem replyFor_keeps_eqk {m} {s0 : State} {a0 a1} {s : State} {x t} (e : 1572866 ||| m = m) (h : replyFor a0 a1 s = (x, t))
    (k : Keeps m s0 s) : Keeps m s0 t := by
  have := replyFor_keeps a0 a1 s; rw [h] at this; exact k.tr (this.mono e)

theorem afterReply_keeps (s : State) : Keeps 2130305754202 s (afterReply s) := by
  unfold afterReply
  try dsimp only
  repeat' (first
    | with_reducible apply Keeps.refl
    | with_reducible assumption
    | (with_reducible apply takeRecords_keeps_k; decide)
    | (with_reducible apply drainPaced_keeps_k; decide)
    | (with_reducible apply drainUntagged_keeps_k; decide)
    | with_reducible apply Keeps.foldl
    | (intro x a hx; beta_reduce; beta_reduce at hx)
    | with_reducible apply Keeps.foldlp
    | with_reducible apply Keeps.foldlq
    | split)
theorem afterReply_keeps_k {m} {s0 : State} {s : State} (e : 2130305754202 ||| m = m) (h : Keeps m s0 s) :
    Keeps m s0 (afterReply s) := h.tr ((afterReply_keeps  s).mono e)

theorem landReply_keeps (a0 a1 a2) (s : State) : Keeps 274881193050 s (landReply a0 a1 a2 s) := by
  unfold landReply
  try dsimp only
  repeat' (first
    | with_reducible apply Keeps.refl
    | with_reducible assumption
    | (with_reducible apply siteWrite_keeps_k; decide)
    | with_reducible apply Keeps.foldl
    | (intro x a hx; beta_reduce; beta_reduce at hx)
    | with_reducible apply Keeps.foldlp
    | with_reducible apply Keeps.foldlq
    | split
    | (with_reducible apply Keeps.u2097152; decide))
theorem landReply_keeps_k {m} {s0 : State} {a0 a1 a2} {s : State} (e : 274881193050 ||| m = m) (h : Keeps m s0 s) :
    Keeps m s0 (landReply a0 a1 a2 s) := h.tr ((landReply_keeps a0 a1 a2 s).mono e)

theorem gwEnter_keeps (a0 a1) (s : State) : Keeps 1649271374866 s (gwEnter a0 a1 s) := by
  unfold gwEnter
  try dsimp only
  repeat' (first
    | with_reducible apply Keeps.refl
    | with_reducible assumption
    | (with_reducible apply gwFlush_keeps_k; decide)
    | (with_reducible apply gwTake_keeps_k; decide)
    | with_reducible apply Keeps.foldl
    | (intro x a hx; beta_reduce; beta_reduce at hx)
    | with_reducible apply Keeps.foldlp
    | with_reducible apply Keeps.foldlq
    | split
    | (with_reducible apply Keeps.u2097152; decide))
theorem gwEnter_keeps_k {m} {s0 : State} {a0 a1} {s : State} (e : 1649271374866 ||| m = m) (h : Keeps m s0 s) :
    Keeps m s0 (gwEnter a0 a1 s) := h.tr ((gwEnter_keeps a0 a1 s).mono e)

theorem gwHeldLost_keeps (a0) (s : State) : Keeps 549757649938 s (gwHeldLost a0 s) := by
  unfold gwHeldLost
  try dsimp only
  repeat' (first
    | with_reducible apply Keeps.refl
    | with_reducible assumption
    | (with_reducible apply replyStatus_keeps_k; decide)
    | with_reducible apply Keeps.foldl
    | (intro x a hx; beta_reduce; beta_reduce at hx)
    | with_reducible apply Keeps.foldlp
    | with_reducible apply Keeps.foldlq
    | split)
theorem gwHeldLost_keeps_k {m} {s0 : State} {a0} {s : State} (e : 549757649938 ||| m = m) (h : Keeps m s0 s) :
    Keeps m s0 (gwHeldLost a0 s) := h.tr ((gwHeldLost_keeps a0 s).mono e)

end Sys2Proof.Machine
end

