-- ==== Sys2Proof/Laws/KeepsDeliver.lean ====
section
/-! SUPPORT. Keeps, for every operation of Machine/Deliver.lean that answers a state. -/

set_option linter.all false

namespace Sys2Proof.Machine

theorem acceptData_keeps (a0 a1 a2) (s : State) : Keeps 1049618 s (acceptData a0 a1 a2 s).2 := by
  unfold acceptData
  try dsimp only
  repeat' (first
    | with_reducible apply Keeps.refl
    | with_reducible assumption
    | (with_reducible apply receive_keeps_k; decide)
    | (with_reducible apply receive_keeps_eqk; decide; with_reducible assumption)
    | with_reducible apply Keeps.foldl
    | (intro x a hx; beta_reduce; beta_reduce at hx)
    | with_reducible apply Keeps.foldlp
    | with_reducible apply Keeps.foldlq
    | split)
theorem acceptData_keeps_k {m} {s0 : State} {a0 a1 a2} {s : State} (e : 1049618 ||| m = m) (h : Keeps m s0 s) :
    Keeps m s0 (acceptData a0 a1 a2 s).2 := h.tr ((acceptData_keeps a0 a1 a2 s).mono e)
theorem acceptData_keeps_eqk {m} {s0 : State} {a0 a1 a2} {s : State} {x t} (e : 1049618 ||| m = m) (h : acceptData a0 a1 a2 s = (x, t))
    (k : Keeps m s0 s) : Keeps m s0 t := by
  have := acceptData_keeps a0 a1 a2 s; rw [h] at this; exact k.tr (this.mono e)

theorem forwardFrame_keeps (a0 a1) (s : State) : Keeps 1057874 s (forwardFrame a0 a1 s) := by
  unfold forwardFrame
  try dsimp only
  repeat' (first
    | with_reducible apply Keeps.refl
    | with_reducible assumption
    | (with_reducible apply frameLost_keeps_k; decide)
    | (with_reducible apply enqueueFrame_keeps_k; decide)
    | (with_reducible apply State_count_keeps_k; decide)
    | with_reducible apply Keeps.foldl
    | (intro x a hx; beta_reduce; beta_reduce at hx)
    | with_reducible apply Keeps.foldlp
    | with_reducible apply Keeps.foldlq
    | split)
theorem forwardFrame_keeps_k {m} {s0 : State} {a0 a1} {s : State} (e : 1057874 ||| m = m) (h : Keeps m s0 s) :
    Keeps m s0 (forwardFrame a0 a1 s) := h.tr ((forwardFrame_keeps a0 a1 s).mono e)

theorem deliverFrame_keeps_k {m} {s0 : State} {n op : Nat} {f : Frame} {here : Nat → Frame → State → State} {free : Bool} {s : State}
    (e : 1057874 ||| m = m) (hh : ∀ a b x, Keeps m s0 x → Keeps m s0 (here a b x)) (h : Keeps m s0 s) :
    Keeps m s0 (deliverFrame n op f here free s) := by
  unfold deliverFrame
  have ha := acceptData_keeps n op f s
  generalize acceptData n op f s = y at ha
  obtain ⟨o, t⟩ := y
  have ht : Keeps m s0 t := h.tr ((ha.mono (by decide) : Keeps 1057874 _ _).mono e)
  have hc (k a : Nat) (x : State) : Keeps 1057874 x (freeCredit k a x) := (freeCredit_keeps _ _ _).mono (by decide)
  cases o with
  | none => exact ht
  | some f =>
    dsimp only
    repeat' split
    · exact ht.tr (((((State_count_keeps _ _ _).mono (by decide) : Keeps 1057874 _ _)).tr (hc _ _ _)).mono e)
    · exact ht.tr (((((forwardFrame_keeps _ _ _).mono (by decide) : Keeps 1057874 _ _)).tr (hc _ _ _)).mono e)
    · exact ht.tr (((((State_count_keeps _ _ _).mono (by decide) : Keeps 1057874 _ _)).tr (hc _ _ _)).mono e)
    · exact (hh _ _ _ ht).tr ((hc _ _ _).mono e)
    · exact hh _ _ _ ht

theorem writeHub_keeps (a0 a1) (s : State) : Keeps 893355033626 s (writeHub a0 a1 s) := by
  unfold writeHub
  try dsimp only
  repeat' (first
    | with_reducible apply Keeps.refl
    | with_reducible assumption
    | (with_reducible apply traceArrive_keeps_k; decide)
    | (with_reducible apply storeClean_keeps_k; decide)
    | (with_reducible apply ringCredit_keeps_k; decide)
    | (with_reducible apply ringWrite_keeps_k; decide)
    | (with_reducible apply State_count_keeps_k; decide)
    | with_reducible apply Keeps.foldl
    | (intro x a hx; beta_reduce; beta_reduce at hx)
    | with_reducible apply Keeps.foldlp
    | with_reducible apply Keeps.foldlq
    | split)
theorem writeHub_keeps_k {m} {s0 : State} {a0 a1} {s : State} (e : 893355033626 ||| m = m) (h : Keeps m s0 s) :
    Keeps m s0 (writeHub a0 a1 s) := h.tr ((writeHub_keeps a0 a1 s).mono e)

theorem writeRim_keeps (a0 a1 a2 a3) (s : State) : Keeps 755916080146 s (writeRim a0 a1 a2 a3 s) := by
  unfold writeRim
  try dsimp only
  repeat' (first
    | with_reducible apply Keeps.refl
    | with_reducible assumption
    | (with_reducible apply ringCredit_keeps_k; decide)
    | (with_reducible apply ringWrite_keeps_k; decide)
    | (with_reducible apply slotBytes_keeps_k; decide)
    | (with_reducible apply State_count_keeps_k; decide)
    | (with_reducible apply packWrite_keeps_k; decide)
    | with_reducible apply Keeps.foldl
    | (intro x a hx; beta_reduce; beta_reduce at hx)
    | with_reducible apply Keeps.foldlp
    | with_reducible apply Keeps.foldlq
    | split)
theorem writeRim_keeps_k {m} {s0 : State} {a0 a1 a2 a3} {s : State} (e : 755916080146 ||| m = m) (h : Keeps m s0 s) :
    Keeps m s0 (writeRim a0 a1 a2 a3 s) := h.tr ((writeRim_keeps a0 a1 a2 a3 s).mono e)

theorem noteWrite_keeps (a0 a1 a2) (s : State) : Keeps 32 s (noteWrite a0 a1 a2 s) := by
  unfold noteWrite
  try dsimp only
  repeat' (first
    | with_reducible apply Keeps.refl
    | with_reducible assumption
    | with_reducible apply Keeps.foldl
    | (intro x a hx; beta_reduce; beta_reduce at hx)
    | with_reducible apply Keeps.foldlp
    | with_reducible apply Keeps.foldlq
    | split
    | (with_reducible apply Keeps.u32; decide))
theorem noteWrite_keeps_k {m} {s0 : State} {a0 a1 a2} {s : State} (e : 32 ||| m = m) (h : Keeps m s0 s) :
    Keeps m s0 (noteWrite a0 a1 a2 s) := h.tr ((noteWrite_keeps a0 a1 a2 s).mono e)

theorem landInbound_keeps (a0 a1) (s : State) : Keeps 274879095930 s (landInbound a0 a1 s) := by
  unfold landInbound
  try dsimp only
  repeat' (first
    | with_reducible apply Keeps.refl
    | with_reducible assumption
    | (with_reducible apply homeStore_keeps_k; decide)
    | (with_reducible apply landWrite_keeps_k; decide)
    | (with_reducible apply noteWrite_keeps_k; decide)
    | (with_reducible apply landSum_keeps_k; decide)
    | (with_reducible apply State_count_keeps_k; decide)
    | (with_reducible apply freeIn_keeps_k; decide)
    | (with_reducible apply settleFlags_keeps_k; decide)
    | with_reducible apply Keeps.foldl
    | (intro x a hx; beta_reduce; beta_reduce at hx)
    | with_reducible apply Keeps.foldlp
    | with_reducible apply Keeps.foldlq
    | split)
theorem landInbound_keeps_k {m} {s0 : State} {a0 a1} {s : State} (e : 274879095930 ||| m = m) (h : Keeps m s0 s) :
    Keeps m s0 (landInbound a0 a1 s) := h.tr ((landInbound_keeps a0 a1 s).mono e)

theorem takeInbound_keeps (a0 a1) (s : State) : Keeps 274879095930 s (takeInbound a0 a1 s) := by
  unfold takeInbound
  try dsimp only
  repeat' (first
    | with_reducible apply Keeps.refl
    | with_reducible assumption
    | (with_reducible apply landInbound_keeps_k; decide)
    | (with_reducible apply State_setDie_keeps_k; decide)
    | with_reducible apply Keeps.foldl
    | (intro x a hx; beta_reduce; beta_reduce at hx)
    | with_reducible apply Keeps.foldlp
    | with_reducible apply Keeps.foldlq
    | split)
theorem takeInbound_keeps_k {m} {s0 : State} {a0 a1} {s : State} (e : 274879095930 ||| m = m) (h : Keeps m s0 s) :
    Keeps m s0 (takeInbound a0 a1 s) := h.tr ((takeInbound_keeps a0 a1 s).mono e)

theorem settleInbound_keeps (a0 a1) (s : State) : Keeps 274879095930 s (settleInbound a0 a1 s) := by
  induction a0 generalizing a1 s with
  | zero =>
    unfold settleInbound
    try dsimp only
    repeat' (first
      | with_reducible apply Keeps.refl
      | with_reducible assumption
      | (with_reducible apply ih)
      | (with_reducible apply takeInbound_keeps_k; decide)
      | with_reducible apply Keeps.foldl
      | (intro x a hx; beta_reduce; beta_reduce at hx)
      | with_reducible apply Keeps.foldlp
      | with_reducible apply Keeps.foldlq
      | split)
  | succ n_ ih' =>
    have ih {s0 : State} {a1} {s : State} (h : Keeps 274879095930 s0 s) : Keeps 274879095930 s0 (settleInbound n_ a1 s) := h.tr (ih' a1 s)
    unfold settleInbound
    try dsimp only
    repeat' (first
      | with_reducible apply Keeps.refl
      | with_reducible assumption
      | (with_reducible apply ih)
      | (with_reducible apply takeInbound_keeps_k; decide)
      | with_reducible apply Keeps.foldl
      | (intro x a hx; beta_reduce; beta_reduce at hx)
      | with_reducible apply Keeps.foldlp
      | with_reducible apply Keeps.foldlq
      | split)
theorem settleInbound_keeps_k {m} {s0 : State} {a0 a1} {s : State} (e : 274879095930 ||| m = m) (h : Keeps m s0 s) :
    Keeps m s0 (settleInbound a0 a1 s) := h.tr ((settleInbound_keeps a0 a1 s).mono e)

theorem writeCompute_keeps (a0 a1 a2) (s : State) : Keeps 274879095930 s (writeCompute a0 a1 a2 s) := by
  unfold writeCompute
  try dsimp only
  repeat' (first
    | with_reducible apply Keeps.refl
    | with_reducible assumption
    | (with_reducible apply State_setDie_keeps_k; decide)
    | (with_reducible apply lostBack_keeps_k; decide)
    | (with_reducible apply settleInbound_keeps_k; decide)
    | (with_reducible apply freeCredit_keeps_k; decide)
    | (with_reducible apply State_count_keeps_k; decide)
    | with_reducible apply Keeps.foldl
    | (intro x a hx; beta_reduce; beta_reduce at hx)
    | with_reducible apply Keeps.foldlp
    | with_reducible apply Keeps.foldlq
    | split)
theorem writeCompute_keeps_k {m} {s0 : State} {a0 a1 a2} {s : State} (e : 274879095930 ||| m = m) (h : Keeps m s0 s) :
    Keeps m s0 (writeCompute a0 a1 a2 s) := h.tr ((writeCompute_keeps a0 a1 a2 s).mono e)

theorem writeHere_keeps (a0 a1 a2) (s : State) : Keeps 1030794126458 s (writeHere a0 a1 a2 s) := by
  unfold writeHere
  try dsimp only
  repeat' (first
    | with_reducible apply Keeps.refl
    | with_reducible assumption
    | (with_reducible apply writeCompute_keeps_k; decide)
    | (with_reducible apply pathLost_keeps_k; decide)
    | (with_reducible apply writeHub_keeps_k; decide)
    | (with_reducible apply storeClean_keeps_k; decide)
    | (with_reducible apply freeCredit_keeps_k; decide)
    | (with_reducible apply State_count_keeps_k; decide)
    | (with_reducible apply writeRim_keeps_k; decide)
    | with_reducible apply Keeps.foldl
    | (intro x a hx; beta_reduce; beta_reduce at hx)
    | with_reducible apply Keeps.foldlp
    | with_reducible apply Keeps.foldlq
    | split)
theorem writeHere_keeps_k {m} {s0 : State} {a0 a1 a2} {s : State} (e : 1030794126458 ||| m = m) (h : Keeps m s0 s) :
    Keeps m s0 (writeHere a0 a1 a2 s) := h.tr ((writeHere_keeps a0 a1 a2 s).mono e)

theorem rpartRim_keeps (a0 a1 a2) (s : State) : Keeps 824635556986 s (rpartRim a0 a1 a2 s) := by
  unfold rpartRim
  try dsimp only
  repeat' (first
    | with_reducible apply Keeps.refl
    | with_reducible assumption
    | (with_reducible apply rpartArrive_keeps_k; decide)
    | (with_reducible apply freeCredit_keeps_k; decide)
    | (with_reducible apply slotBytes_keeps_k; decide)
    | (with_reducible apply State_count_keeps_k; decide)
    | with_reducible apply Keeps.foldl
    | (intro x a hx; beta_reduce; beta_reduce at hx)
    | with_reducible apply Keeps.foldlp
    | with_reducible apply Keeps.foldlq
    | split)
theorem rpartRim_keeps_k {m} {s0 : State} {a0 a1 a2} {s : State} (e : 824635556986 ||| m = m) (h : Keeps m s0 s) :
    Keeps m s0 (rpartRim a0 a1 a2 s) := h.tr ((rpartRim_keeps a0 a1 a2 s).mono e)

theorem rpartHere_keeps (a0 a1 a2) (s : State) : Keeps 824635556986 s (rpartHere a0 a1 a2 s) := by
  unfold rpartHere
  try dsimp only
  repeat' (first
    | with_reducible apply Keeps.refl
    | with_reducible assumption
    | (with_reducible apply rpartArrive_keeps_k; decide)
    | (with_reducible apply lostBack_keeps_k; decide)
    | (with_reducible apply rpartRim_keeps_k; decide)
    | (with_reducible apply freeCredit_keeps_k; decide)
    | (with_reducible apply State_count_keeps_k; decide)
    | with_reducible apply Keeps.foldl
    | (intro x a hx; beta_reduce; beta_reduce at hx)
    | with_reducible apply Keeps.foldlp
    | with_reducible apply Keeps.foldlq
    | split)
theorem rpartHere_keeps_k {m} {s0 : State} {a0 a1 a2} {s : State} (e : 824635556986 ||| m = m) (h : Keeps m s0 s) :
    Keeps m s0 (rpartHere a0 a1 a2 s) := h.tr ((rpartHere_keeps a0 a1 a2 s).mono e)

theorem inboundGrant_keeps (a0) (s : State) : Keeps 274879095930 s (inboundGrant a0 s) := by
  unfold inboundGrant
  try dsimp only
  repeat' (first
    | with_reducible apply Keeps.refl
    | with_reducible assumption
    | (with_reducible apply takeInbound_keeps_k; decide)
    | (with_reducible apply settleInbound_keeps_k; decide)
    | with_reducible apply Keeps.foldl
    | (intro x a hx; beta_reduce; beta_reduce at hx)
    | with_reducible apply Keeps.foldlp
    | with_reducible apply Keeps.foldlq
    | split)
theorem inboundGrant_keeps_k {m} {s0 : State} {a0} {s : State} (e : 274879095930 ||| m = m) (h : Keeps m s0 s) :
    Keeps m s0 (inboundGrant a0 s) := h.tr ((inboundGrant_keeps a0 s).mono e)

theorem landAt_keeps (a0 a1 a2) (s : State) : Keeps 274877907016 s (landAt a0 a1 a2 s) := by
  unfold landAt
  try dsimp only
  repeat' (first
    | with_reducible apply Keeps.refl
    | with_reducible assumption
    | (with_reducible apply landWrite_keeps_k; decide)
    | (with_reducible apply storeClean_keeps_k; decide)
    | with_reducible apply Keeps.foldl
    | (intro x a hx; beta_reduce; beta_reduce at hx)
    | with_reducible apply Keeps.foldlp
    | with_reducible apply Keeps.foldlq
    | split)
theorem landAt_keeps_k {m} {s0 : State} {a0 a1 a2} {s : State} (e : 274877907016 ||| m = m) (h : Keeps m s0 s) :
    Keeps m s0 (landAt a0 a1 a2 s) := h.tr ((landAt_keeps a0 a1 a2 s).mono e)

theorem fillLanded_keeps (a0 a1) (s : State) : Keeps 64 s (fillLanded a0 a1 s) := by
  unfold fillLanded
  try dsimp only
  repeat' (first
    | with_reducible apply Keeps.refl
    | with_reducible assumption
    | (with_reducible apply State_setDie_keeps_k; decide)
    | with_reducible apply Keeps.foldl
    | (intro x a hx; beta_reduce; beta_reduce at hx)
    | with_reducible apply Keeps.foldlp
    | with_reducible apply Keeps.foldlq
    | split)
theorem fillLanded_keeps_k {m} {s0 : State} {a0 a1} {s : State} (e : 64 ||| m = m) (h : Keeps m s0 s) :
    Keeps m s0 (fillLanded a0 a1 s) := h.tr ((fillLanded_keeps a0 a1 s).mono e)

theorem dataHere_keeps (a0 a1) (s : State) : Keeps 1924147192922 s (dataHere a0 a1 s) := by
  unfold dataHere
  try dsimp only
  repeat' (first
    | with_reducible apply Keeps.refl
    | with_reducible assumption
    | (with_reducible apply opLanded_keeps_k; decide)
    | (with_reducible apply landAt_keeps_k; decide)
    | (with_reducible apply fillLanded_keeps_k; decide)
    | with_reducible apply Keeps.foldl
    | (intro x a hx; beta_reduce; beta_reduce at hx)
    | with_reducible apply Keeps.foldlp
    | with_reducible apply Keeps.foldlq
    | split
    | (with_reducible apply Keeps.u8192; decide))
theorem dataHere_keeps_k {m} {s0 : State} {a0 a1} {s : State} (e : 1924147192922 ||| m = m) (h : Keeps m s0 s) :
    Keeps m s0 (dataHere a0 a1 s) := h.tr ((dataHere_keeps a0 a1 s).mono e)

theorem barrierHere_keeps (a0 a1) (s : State) : Keeps 1049682 s (barrierHere a0 a1 s) := by
  unfold barrierHere
  try dsimp only
  repeat' (first
    | with_reducible apply Keeps.refl
    | with_reducible assumption
    | (with_reducible apply lostBack_keeps_k; decide)
    | (with_reducible apply holdFlag_keeps_k; decide)
    | (with_reducible apply State_count_keeps_k; decide)
    | with_reducible apply Keeps.foldl
    | (intro x a hx; beta_reduce; beta_reduce at hx)
    | with_reducible apply Keeps.foldlp
    | with_reducible apply Keeps.foldlq
    | split)
theorem barrierHere_keeps_k {m} {s0 : State} {a0 a1} {s : State} (e : 1049682 ||| m = m) (h : Keeps m s0 s) :
    Keeps m s0 (barrierHere a0 a1 s) := h.tr ((barrierHere_keeps a0 a1 s).mono e)

theorem readTarget_keeps (a0 a1 a2 a3) (s : State) : Keeps 2165298308443 s (readTarget a0 a1 a2 a3 s).2 := by
  unfold readTarget
  try dsimp only
  repeat' (first
    | with_reducible apply Keeps.refl
    | with_reducible assumption
    | (with_reducible apply siteTouch_keeps_k; decide)
    | (with_reducible apply demandRead_keeps_k; decide)
    | (with_reducible apply mergeRead_keeps_k; decide)
    | (with_reducible apply sramRead_keeps_k; decide)
    | (with_reducible apply uncorrectable_keeps_k; decide)
    | (with_reducible apply readBad_keeps_k; decide)
    | (with_reducible apply sramBad_keeps_k; decide)
    | with_reducible apply Keeps.foldl
    | (intro x a hx; beta_reduce; beta_reduce at hx)
    | with_reducible apply Keeps.foldlp
    | with_reducible apply Keeps.foldlq
    | split)
theorem readTarget_keeps_k {m} {s0 : State} {a0 a1 a2 a3} {s : State} (e : 2165298308443 ||| m = m) (h : Keeps m s0 s) :
    Keeps m s0 (readTarget a0 a1 a2 a3 s).2 := h.tr ((readTarget_keeps a0 a1 a2 a3 s).mono e)
theorem readTarget_keeps_eqk {m} {s0 : State} {a0 a1 a2 a3} {s : State} {x t} (e : 2165298308443 ||| m = m) (h : readTarget a0 a1 a2 a3 s = (x, t))
    (k : Keeps m s0 s) : Keeps m s0 t := by
  have := readTarget_keeps a0 a1 a2 a3 s; rw [h] at this; exact k.tr (this.mono e)

theorem flagHere_keeps (a0 a1) (s : State) : Keeps 1049682 s (flagHere a0 a1 s) := by
  unfold flagHere
  try dsimp only
  repeat' (first
    | with_reducible apply Keeps.refl
    | with_reducible assumption
    | (with_reducible apply lostBack_keeps_k; decide)
    | (with_reducible apply holdFlag_keeps_k; decide)
    | (with_reducible apply State_count_keeps_k; decide)
    | with_reducible apply Keeps.foldl
    | (intro x a hx; beta_reduce; beta_reduce at hx)
    | with_reducible apply Keeps.foldlp
    | with_reducible apply Keeps.foldlq
    | split)
theorem flagHere_keeps_k {m} {s0 : State} {a0 a1} {s : State} (e : 1049682 ||| m = m) (h : Keeps m s0 s) :
    Keeps m s0 (flagHere a0 a1 s) := h.tr ((flagHere_keeps a0 a1 s).mono e)

theorem launchHere_keeps (a0 a1) (s : State) : Keeps 1048658 s (launchHere a0 a1 s) := by
  unfold launchHere
  try dsimp only
  repeat' (first
    | with_reducible apply Keeps.refl
    | with_reducible assumption
    | (with_reducible apply pathLost_keeps_k; decide)
    | (with_reducible apply State_setDie_keeps_k; decide)
    | (with_reducible apply State_count_keeps_k; decide)
    | with_reducible apply Keeps.foldl
    | (intro x a hx; beta_reduce; beta_reduce at hx)
    | with_reducible apply Keeps.foldlp
    | with_reducible apply Keeps.foldlq
    | split)
theorem launchHere_keeps_k {m} {s0 : State} {a0 a1} {s : State} (e : 1048658 ||| m = m) (h : Keeps m s0 s) :
    Keeps m s0 (launchHere a0 a1 s) := h.tr ((launchHere_keeps a0 a1 s).mono e)

theorem sendBack_keeps (a0 a1 a2 a3 a4 a5 a6 a7) (s : State) : Keeps 1057874 s (sendBack a0 a1 a2 a3 a4 a5 a6 a7 s) := by
  unfold sendBack
  try dsimp only
  repeat' (first
    | with_reducible apply Keeps.refl
    | with_reducible assumption
    | (with_reducible apply frameLost_keeps_k; decide)
    | (with_reducible apply enqueueFrame_keeps_k; decide)
    | with_reducible apply Keeps.foldl
    | (intro x a hx; beta_reduce; beta_reduce at hx)
    | with_reducible apply Keeps.foldlp
    | with_reducible apply Keeps.foldlq
    | split)
theorem sendBack_keeps_k {m} {s0 : State} {a0 a1 a2 a3 a4 a5 a6 a7} {s : State} (e : 1057874 ||| m = m) (h : Keeps m s0 s) :
    Keeps m s0 (sendBack a0 a1 a2 a3 a4 a5 a6 a7 s) := h.tr ((sendBack_keeps a0 a1 a2 a3 a4 a5 a6 a7 s).mono e)

theorem lostHere_keeps (a0 a1) (s : State) : Keeps 48 s (lostHere a0 a1 s) := by
  unfold lostHere
  try dsimp only
  repeat' (first
    | with_reducible apply Keeps.refl
    | with_reducible assumption
    | (with_reducible apply endCore_keeps_k; decide)
    | with_reducible apply Keeps.foldl
    | (intro x a hx; beta_reduce; beta_reduce at hx)
    | with_reducible apply Keeps.foldlp
    | with_reducible apply Keeps.foldlq
    | split)
theorem lostHere_keeps_k {m} {s0 : State} {a0 a1} {s : State} (e : 48 ||| m = m) (h : Keeps m s0 s) :
    Keeps m s0 (lostHere a0 a1 s) := h.tr ((lostHere_keeps a0 a1 s).mono e)

theorem readHere_keeps (a0 a1) (s : State) : Keeps 2165298308443 s (readHere a0 a1 s) := by
  unfold readHere
  try dsimp only
  repeat' (first
    | with_reducible apply Keeps.refl
    | with_reducible assumption
    | (with_reducible apply readTarget_keeps_k; decide)
    | (with_reducible apply readTarget_keeps_eqk; decide; with_reducible assumption)
    | (with_reducible apply sendBack_keeps_k; decide)
    | (with_reducible apply State_count_keeps_k; decide)
    | with_reducible apply Keeps.foldl
    | (intro x a hx; beta_reduce; beta_reduce at hx)
    | with_reducible apply Keeps.foldlp
    | with_reducible apply Keeps.foldlq
    | split)
theorem readHere_keeps_k {m} {s0 : State} {a0 a1} {s : State} (e : 2165298308443 ||| m = m) (h : Keeps m s0 s) :
    Keeps m s0 (readHere a0 a1 s) := h.tr ((readHere_keeps a0 a1 s).mono e)

theorem statusHere_keeps (a0 a1) (s : State) : Keeps 1649269286002 s (statusHere a0 a1 s) := by
  unfold statusHere
  try dsimp only
  repeat' (first
    | with_reducible apply Keeps.refl
    | with_reducible assumption
    | (with_reducible apply readEnds_keeps_k; decide)
    | (with_reducible apply settleOps_keeps_k; decide)
    | (with_reducible apply lostHere_keeps_k; decide)
    | (with_reducible apply opFail_keeps_k; decide)
    | (with_reducible apply State_count_keeps_k; decide)
    | with_reducible apply Keeps.foldl
    | (intro x a hx; beta_reduce; beta_reduce at hx)
    | with_reducible apply Keeps.foldlp
    | with_reducible apply Keeps.foldlq
    | split)
theorem statusHere_keeps_k {m} {s0 : State} {a0 a1} {s : State} (e : 1649269286002 ||| m = m) (h : Keeps m s0 s) :
    Keeps m s0 (statusHere a0 a1 s) := h.tr ((statusHere_keeps a0 a1 s).mono e)

end Sys2Proof.Machine
end

