-- ==== Sys2Proof/Laws/KeepsServing.lean ====
section
/-! SUPPORT. Keeps, for every operation of Machine/Serving.lean that answers a state. -/

set_option linter.all false

namespace Sys2Proof.Machine

theorem dropAsm_keeps (a0 a1) (s : State) : Keeps 4194304 s (dropAsm a0 a1 s) := by
  unfold dropAsm
  try dsimp only
  repeat' (first
    | with_reducible apply Keeps.refl
    | with_reducible assumption
    | with_reducible apply Keeps.foldl
    | (intro x a hx; beta_reduce; beta_reduce at hx)
    | with_reducible apply Keeps.foldlp
    | with_reducible apply Keeps.foldlq
    | split
    | (with_reducible apply Keeps.u4194304; decide))
theorem dropAsm_keeps_k {m} {s0 : State} {a0 a1} {s : State} (e : 4194304 ||| m = m) (h : Keeps m s0 s) :
    Keeps m s0 (dropAsm a0 a1 s) := h.tr ((dropAsm_keeps a0 a1 s).mono e)

theorem cancelAsm_keeps (a0) (s : State) : Keeps 1649271635968 s (cancelAsm a0 s) := by
  unfold cancelAsm
  try dsimp only
  repeat' (first
    | with_reducible apply Keeps.refl
    | with_reducible assumption
    | (with_reducible apply dropAsm_keeps_k; decide)
    | (with_reducible apply serveSend_keeps_k; decide)
    | with_reducible apply Keeps.foldl
    | (intro x a hx; beta_reduce; beta_reduce at hx)
    | with_reducible apply Keeps.foldlp
    | with_reducible apply Keeps.foldlq
    | split)
theorem cancelAsm_keeps_k {m} {s0 : State} {a0} {s : State} (e : 1649271635968 ||| m = m) (h : Keeps m s0 s) :
    Keeps m s0 (cancelAsm a0 s) := h.tr ((cancelAsm_keeps a0 s).mono e)

theorem cancelSession_keeps (a0) (s : State) : Keeps 1855430205762 s (cancelSession a0 s) := by
  unfold cancelSession
  try dsimp only
  repeat' (first
    | with_reducible apply Keeps.refl
    | with_reducible assumption
    | (with_reducible apply endRequests_keeps_k; decide)
    | (with_reducible apply cancelAsm_keeps_k; decide)
    | with_reducible apply Keeps.foldl
    | (intro x a hx; beta_reduce; beta_reduce at hx)
    | with_reducible apply Keeps.foldlp
    | with_reducible apply Keeps.foldlq
    | split)
theorem cancelSession_keeps_k {m} {s0 : State} {a0} {s : State} (e : 1855430205762 ||| m = m) (h : Keeps m s0 s) :
    Keeps m s0 (cancelSession a0 s) := h.tr ((cancelSession_keeps a0 s).mono e)

theorem refuseAsm_keeps (a0 a1) (s : State) : Keeps 1649271635970 s (refuseAsm a0 a1 s) := by
  unfold refuseAsm
  try dsimp only
  repeat' (first
    | with_reducible apply Keeps.refl
    | with_reducible assumption
    | (with_reducible apply dropAsm_keeps_k; decide)
    | (with_reducible apply refuse_keeps_k; decide)
    | with_reducible apply Keeps.foldl
    | (intro x a hx; beta_reduce; beta_reduce at hx)
    | with_reducible apply Keeps.foldlp
    | with_reducible apply Keeps.foldlq
    | split)
theorem refuseAsm_keeps_k {m} {s0 : State} {a0 a1} {s : State} (e : 1649271635970 ||| m = m) (h : Keeps m s0 s) :
    Keeps m s0 (refuseAsm a0 a1 s) := h.tr ((refuseAsm_keeps a0 a1 s).mono e)

theorem queuePrefill_keeps (a0 a1) (s : State) : Keeps 256 s (queuePrefill a0 a1 s) := by
  unfold queuePrefill
  try dsimp only
  repeat' (first
    | with_reducible apply Keeps.refl
    | with_reducible assumption
    | (with_reducible apply instantiate_keeps_k; decide)
    | with_reducible apply Keeps.foldl
    | (intro x a hx; beta_reduce; beta_reduce at hx)
    | with_reducible apply Keeps.foldlp
    | with_reducible apply Keeps.foldlq
    | split)
theorem queuePrefill_keeps_k {m} {s0 : State} {a0 a1} {s : State} (e : 256 ||| m = m) (h : Keeps m s0 s) :
    Keeps m s0 (queuePrefill a0 a1 s) := h.tr ((queuePrefill_keeps a0 a1 s).mono e)

theorem enterCtx_keeps (a0 a1 a2 a3 a4 a5) (s : State) : Keeps 1099515953410 s (enterCtx a0 a1 a2 a3 a4 a5 s) := by
  unfold enterCtx
  try dsimp only
  repeat' (first
    | with_reducible apply Keeps.refl
    | with_reducible assumption
    | (with_reducible apply dropAsm_keeps_k; decide)
    | (with_reducible apply State_count_keeps_k; decide)
    | (with_reducible apply queuePrefill_keeps_k; decide)
    | (with_reducible apply State_drawn_keeps_k; decide)
    | with_reducible apply Keeps.foldl
    | (intro x a hx; beta_reduce; beta_reduce at hx)
    | with_reducible apply Keeps.foldlp
    | with_reducible apply Keeps.foldlq
    | split
    | (with_reducible apply Keeps.u4325376; decide))
theorem enterCtx_keeps_k {m} {s0 : State} {a0 a1 a2 a3 a4 a5} {s : State} (e : 1099515953410 ||| m = m) (h : Keeps m s0 s) :
    Keeps m s0 (enterCtx a0 a1 a2 a3 a4 a5 s) := h.tr ((enterCtx_keeps a0 a1 a2 a3 a4 a5 s).mono e)

theorem admitPages_keeps (a0 a1 a2 a3 a4) (s : State) : Keeps 1649271775554 s (admitPages a0 a1 a2 a3 a4 s) := by
  unfold admitPages
  try dsimp only
  repeat' (first
    | with_reducible apply Keeps.refl
    | with_reducible assumption
    | (with_reducible apply refuseAsm_keeps_k; decide)
    | (with_reducible apply allocPages_keeps_eqk; decide; with_reducible assumption)
    | (with_reducible apply enterCtx_keeps_k; decide)
    | (with_reducible apply State_count_keeps_k; decide)
    | with_reducible apply Keeps.foldl
    | (intro x a hx; beta_reduce; beta_reduce at hx)
    | with_reducible apply Keeps.foldlp
    | with_reducible apply Keeps.foldlq
    | split
    | (with_reducible apply Keeps.u131072; decide))
theorem admitPages_keeps_k {m} {s0 : State} {a0 a1 a2 a3 a4} {s : State} (e : 1649271775554 ||| m = m) (h : Keeps m s0 s) :
    Keeps m s0 (admitPages a0 a1 a2 a3 a4 s) := h.tr ((admitPages_keeps a0 a1 a2 a3 a4 s).mono e)

theorem admitRequest_keeps (a0 a1 a2 a3) (s : State) : Keeps 1649271775554 s (admitRequest a0 a1 a2 a3 s) := by
  unfold admitRequest
  try dsimp only
  repeat' (first
    | with_reducible apply Keeps.refl
    | with_reducible assumption
    | (with_reducible apply refuseAsm_keeps_k; decide)
    | (with_reducible apply admitPages_keeps_k; decide)
    | (with_reducible apply State_count_keeps_k; decide)
    | with_reducible apply Keeps.foldl
    | (intro x a hx; beta_reduce; beta_reduce at hx)
    | with_reducible apply Keeps.foldlp
    | with_reducible apply Keeps.foldlq
    | split)
theorem admitRequest_keeps_k {m} {s0 : State} {a0 a1 a2 a3} {s : State} (e : 1649271775554 ||| m = m) (h : Keeps m s0 s) :
    Keeps m s0 (admitRequest a0 a1 a2 a3 s) := h.tr ((admitRequest_keeps a0 a1 a2 a3 s).mono e)

theorem giveBlocks_keeps (a0) (s : State) : Keeps 4194304 s (giveBlocks a0 s) := by
  unfold giveBlocks
  try dsimp only
  repeat' (first
    | with_reducible apply Keeps.refl
    | with_reducible assumption
    | (with_reducible apply modCtx_keeps_k; decide)
    | with_reducible apply Keeps.foldl
    | (intro x a hx; beta_reduce; beta_reduce at hx)
    | with_reducible apply Keeps.foldlp
    | with_reducible apply Keeps.foldlq
    | split)
theorem giveBlocks_keeps_k {m} {s0 : State} {a0} {s : State} (e : 4194304 ||| m = m) (h : Keeps m s0 s) :
    Keeps m s0 (giveBlocks a0 s) := h.tr ((giveBlocks_keeps a0 s).mono e)

theorem authDrop_keeps (s : State) : Keeps 2 s (authDrop s) := by
  unfold authDrop
  try dsimp only
  repeat' (first
    | with_reducible apply Keeps.refl
    | with_reducible assumption
    | (with_reducible apply State_count_keeps_k; decide)
    | with_reducible apply Keeps.foldl
    | (intro x a hx; beta_reduce; beta_reduce at hx)
    | with_reducible apply Keeps.foldlp
    | with_reducible apply Keeps.foldlq
    | split)
theorem authDrop_keeps_k {m} {s0 : State} {s : State} (e : 2 ||| m = m) (h : Keeps m s0 s) :
    Keeps m s0 (authDrop s) := h.tr ((authDrop_keeps  s).mono e)

theorem sendQueued_keeps (a0) (s : State) : Keeps 1649271635968 s (sendQueued a0 s) := by
  unfold sendQueued
  try dsimp only
  repeat' (first
    | with_reducible apply Keeps.refl
    | with_reducible assumption
    | (with_reducible apply modSess_keeps_k; decide)
    | (with_reducible apply serveOut_keeps_k; decide)
    | with_reducible apply Keeps.foldl
    | (intro x a hx; beta_reduce; beta_reduce at hx)
    | with_reducible apply Keeps.foldlp
    | with_reducible apply Keeps.foldlq
    | split)
theorem sendQueued_keeps_k {m} {s0 : State} {a0} {s : State} (e : 1649271635968 ||| m = m) (h : Keeps m s0 s) :
    Keeps m s0 (sendQueued a0 s) := h.tr ((sendQueued_keeps a0 s).mono e)

theorem takeAck_keeps (a0 a1) (s : State) : Keeps 1649271635968 s (takeAck a0 a1 s) := by
  unfold takeAck
  try dsimp only
  repeat' (first
    | with_reducible apply Keeps.refl
    | with_reducible assumption
    | (with_reducible apply closeSession_keeps_k; decide)
    | (with_reducible apply modSess_keeps_k; decide)
    | (with_reducible apply sendQueued_keeps_k; decide)
    | with_reducible apply Keeps.foldl
    | (intro x a hx; beta_reduce; beta_reduce at hx)
    | with_reducible apply Keeps.foldlp
    | with_reducible apply Keeps.foldlq
    | split)
theorem takeAck_keeps_k {m} {s0 : State} {a0 a1} {s : State} (e : 1649271635968 ||| m = m) (h : Keeps m s0 s) :
    Keeps m s0 (takeAck a0 a1 s) := h.tr ((takeAck_keeps a0 a1 s).mono e)

theorem takeInOrder_keeps_k {m} {s0 : State} {d : Dgram} {op : Sess → State → State} {s : State}
    (e : 1649271635970 ||| m = m) (hop : ∀ q x, Keeps m s0 x → Keeps m s0 (op q x)) (h : Keeps m s0 s) :
    Keeps m s0 (takeInOrder d op s) := by
  unfold takeInOrder
  split
  · exact h
  split
  · exact h.tr (((authDrop_keeps _).mono (by decide) : Keeps 1649271635970 _ _).mono e)
  · dsimp only
    have h1 (n : W32) (f : Sess → Sess) (x : State) (hx : Keeps m s0 x) : Keeps m s0 (modSess n f x) :=
      hx.tr (((modSess_keeps _ _ _).mono (by decide) : Keeps 1649271635970 _ _).mono e)
    split
    · have h2 : ∀ n a f g x, Keeps m s0 x → Keeps m s0 (takeAck n a (modSess n f (modSess n g x))) := fun n a f g x hx =>
        (h1 _ _ _ (h1 _ _ _ hx)).tr (((takeAck_keeps _ _ _).mono (by decide) : Keeps 1649271635970 _ _).mono e)
      split
      · exact hop _ _ (h2 _ _ _ _ _ h)
      · exact h2 _ _ _ _ _ h
    · exact h1 _ _ _ h

theorem modAsm_keeps (a0 a1 a2) (s : State) : Keeps 4194304 s (modAsm a0 a1 a2 s) := by
  unfold modAsm
  try dsimp only
  repeat' (first
    | with_reducible apply Keeps.refl
    | with_reducible assumption
    | with_reducible apply Keeps.foldl
    | (intro x a hx; beta_reduce; beta_reduce at hx)
    | with_reducible apply Keeps.foldlp
    | with_reducible apply Keeps.foldlq
    | split
    | (with_reducible apply Keeps.u4194304; decide))
theorem modAsm_keeps_k {m} {s0 : State} {a0 a1 a2} {s : State} (e : 4194304 ||| m = m) (h : Keeps m s0 s) :
    Keeps m s0 (modAsm a0 a1 a2 s) := h.tr ((modAsm_keeps a0 a1 a2 s).mono e)

theorem hashOrAdmit_keeps (a0 a1) (s : State) : Keeps 1649271775554 s (hashOrAdmit a0 a1 s) := by
  unfold hashOrAdmit
  try dsimp only
  repeat' (first
    | with_reducible apply Keeps.refl
    | with_reducible assumption
    | (with_reducible apply admitRequest_keeps_k; decide)
    | (with_reducible apply refuseAsm_keeps_k; decide)
    | (with_reducible apply modAsm_keeps_k; decide)
    | with_reducible apply Keeps.foldl
    | (intro x a hx; beta_reduce; beta_reduce at hx)
    | with_reducible apply Keeps.foldlp
    | with_reducible apply Keeps.foldlq
    | split)
theorem hashOrAdmit_keeps_k {m} {s0 : State} {a0 a1} {s : State} (e : 1649271775554 ||| m = m) (h : Keeps m s0 s) :
    Keeps m s0 (hashOrAdmit a0 a1 s) := h.tr ((hashOrAdmit_keeps a0 a1 s).mono e)

theorem judge_keeps (a0 a1) (s : State) : Keeps 1649271775554 s (judge a0 a1 s) := by
  unfold judge
  try dsimp only
  repeat' (first
    | with_reducible apply Keeps.refl
    | with_reducible assumption
    | (with_reducible apply refuseAsm_keeps_k; decide)
    | (with_reducible apply hashOrAdmit_keeps_k; decide)
    | (with_reducible apply modAsm_keeps_k; decide)
    | with_reducible apply Keeps.foldl
    | (intro x a hx; beta_reduce; beta_reduce at hx)
    | with_reducible apply Keeps.foldlp
    | with_reducible apply Keeps.foldlq
    | split)
theorem judge_keeps_k {m} {s0 : State} {a0 a1} {s : State} (e : 1649271775554 ||| m = m) (h : Keeps m s0 s) :
    Keeps m s0 (judge a0 a1 s) := h.tr ((judge_keeps a0 a1 s).mono e)

theorem judgeIfComplete_keeps (a0 a1) (s : State) : Keeps 1649271775554 s (judgeIfComplete a0 a1 s) := by
  unfold judgeIfComplete
  try dsimp only
  repeat' (first
    | with_reducible apply Keeps.refl
    | with_reducible assumption
    | (with_reducible apply judge_keeps_k; decide)
    | with_reducible apply Keeps.foldl
    | (intro x a hx; beta_reduce; beta_reduce at hx)
    | with_reducible apply Keeps.foldlp
    | with_reducible apply Keeps.foldlq
    | split)
theorem judgeIfComplete_keeps_k {m} {s0 : State} {a0 a1} {s : State} (e : 1649271775554 ||| m = m) (h : Keeps m s0 s) :
    Keeps m s0 (judgeIfComplete a0 a1 s) := h.tr ((judgeIfComplete_keeps a0 a1 s).mono e)

theorem enterBlocks_keeps (a0 a1 a2) (s : State) : Keeps 4325378 s (enterBlocks a0 a1 a2 s) := by
  induction a2 generalizing a0 a1 s with
  | nil =>
    unfold enterBlocks
    try dsimp only
    repeat' (first
      | with_reducible apply Keeps.refl
      | with_reducible assumption
      | (with_reducible apply ih)
      | (with_reducible apply modCtx_keeps_k; decide)
      | (with_reducible apply State_count_keeps_k; decide)
      | with_reducible apply Keeps.foldl
      | (intro x a hx; beta_reduce; beta_reduce at hx)
      | with_reducible apply Keeps.foldlp
      | with_reducible apply Keeps.foldlq
      | split
      | (with_reducible apply Keeps.u131072; decide))
  | cons hd_ n_ ih' =>
    have ih {s0 : State} {a0 a1} {s : State} (h : Keeps 4325378 s0 s) : Keeps 4325378 s0 (enterBlocks a0 a1 n_ s) := h.tr (ih' a0 a1 s)
    unfold enterBlocks
    try dsimp only
    repeat' (first
      | with_reducible apply Keeps.refl
      | with_reducible assumption
      | (with_reducible apply ih)
      | (with_reducible apply modCtx_keeps_k; decide)
      | (with_reducible apply State_count_keeps_k; decide)
      | with_reducible apply Keeps.foldl
      | (intro x a hx; beta_reduce; beta_reduce at hx)
      | with_reducible apply Keeps.foldlp
      | with_reducible apply Keeps.foldlq
      | split
      | (with_reducible apply Keeps.u131072; decide))
theorem enterBlocks_keeps_k {m} {s0 : State} {a0 a1 a2} {s : State} (e : 4325378 ||| m = m) (h : Keeps m s0 s) :
    Keeps m s0 (enterBlocks a0 a1 a2 s) := h.tr ((enterBlocks_keeps a0 a1 a2 s).mono e)

end Sys2Proof.Machine
end

