-- ==== Sys2Proof/Laws/KeepsMeteringPod.lean ====
section
/-! SUPPORT. Keeps, for every operation of Machine/MeteringPod.lean that answers a state. -/

set_option linter.all false

namespace Sys2Proof.Machine

theorem signRecord_keeps (a0) (s : State) : Keeps 536870912 s (signRecord a0 s) := by
  unfold signRecord
  try dsimp only
  repeat' (first
    | with_reducible apply Keeps.refl
    | with_reducible assumption
    | with_reducible apply Keeps.foldl
    | (intro x a hx; beta_reduce; beta_reduce at hx)
    | with_reducible apply Keeps.foldlp
    | with_reducible apply Keeps.foldlq
    | split
    | (with_reducible apply Keeps.u536870912; decide))
theorem signRecord_keeps_k {m} {s0 : State} {a0} {s : State} (e : 536870912 ||| m = m) (h : Keeps m s0 s) :
    Keeps m s0 (signRecord a0 s) := h.tr ((signRecord_keeps a0 s).mono e)

theorem closeInterval_keeps (a0 a1) (s : State) : Keeps 536870914 s (closeInterval a0 a1 s) := by
  unfold closeInterval
  try dsimp only
  repeat' (first
    | with_reducible apply Keeps.refl
    | with_reducible assumption
    | (with_reducible apply signRecord_keeps_k; decide)
    | (with_reducible apply State_count_keeps_k; decide)
    | with_reducible apply Keeps.foldl
    | (intro x a hx; beta_reduce; beta_reduce at hx)
    | with_reducible apply Keeps.foldlp
    | with_reducible apply Keeps.foldlq
    | split
    | (with_reducible apply Keeps.u536870912; decide))
theorem closeInterval_keeps_k {m} {s0 : State} {a0 a1} {s : State} (e : 536870914 ||| m = m) (h : Keeps m s0 s) :
    Keeps m s0 (closeInterval a0 a1 s) := h.tr ((closeInterval_keeps a0 a1 s).mono e)

theorem closeOutage_keeps (a0 a1) (s : State) : Keeps 536870914 s (closeOutage a0 a1 s) := by
  unfold closeOutage
  try dsimp only
  repeat' (first
    | with_reducible apply Keeps.refl
    | with_reducible assumption
    | (with_reducible apply closeInterval_keeps_k; decide)
    | (with_reducible apply signRecord_keeps_k; decide)
    | with_reducible apply Keeps.foldl
    | (intro x a hx; beta_reduce; beta_reduce at hx)
    | with_reducible apply Keeps.foldlp
    | with_reducible apply Keeps.foldlq
    | split
    | (with_reducible apply Keeps.u536870912; decide))
theorem closeOutage_keeps_k {m} {s0 : State} {a0 a1} {s : State} (e : 536870914 ||| m = m) (h : Keeps m s0 s) :
    Keeps m s0 (closeOutage a0 a1 s) := h.tr ((closeOutage_keeps a0 a1 s).mono e)

theorem addEnergy_keeps (a0) (s : State) : Keeps 536870912 s (addEnergy a0 s) := by
  unfold addEnergy
  try dsimp only
  repeat' (first
    | with_reducible apply Keeps.refl
    | with_reducible assumption
    | with_reducible apply Keeps.foldl
    | (intro x a hx; beta_reduce; beta_reduce at hx)
    | with_reducible apply Keeps.foldlp
    | with_reducible apply Keeps.foldlq
    | split
    | (with_reducible apply Keeps.u536870912; decide))
theorem addEnergy_keeps_k {m} {s0 : State} {a0} {s : State} (e : 536870912 ||| m = m) (h : Keeps m s0 s) :
    Keeps m s0 (addEnergy a0 s) := h.tr ((addEnergy_keeps a0 s).mono e)

end Sys2Proof.Machine
end

