-- ==== Sys2Proof/Laws/KeepsClock.lean ====
section
/-! SUPPORT. Keeps, for every operation of Machine/Clock.lean that answers a state. -/

set_option linter.all false

namespace Sys2Proof.Machine

theorem tickFabric_keeps (s : State) : Keeps 2130305754202 s (tickFabric s) := by
  unfold tickFabric
  try dsimp only
  repeat' (first
    | with_reducible apply Keeps.refl
    | with_reducible assumption
    | (with_reducible apply settleOps_keeps_k; decide)
    | (with_reducible apply takeRecords_keeps_k; decide)
    | (with_reducible apply drainPaced_keeps_k; decide)
    | with_reducible apply Keeps.foldl
    | (intro x a hx; beta_reduce; beta_reduce at hx)
    | with_reducible apply Keeps.foldlp
    | with_reducible apply Keeps.foldlq
    | split)
theorem tickFabric_keeps_k {m} {s0 : State} {s : State} (e : 2130305754202 ||| m = m) (h : Keeps m s0 s) :
    Keeps m s0 (tickFabric s) := h.tr ((tickFabric_keeps  s).mono e)

theorem tickPod_keeps (s : State) : Keeps 536870912 s (tickPod s) := by
  unfold tickPod
  try dsimp only
  repeat' (first
    | with_reducible apply Keeps.refl
    | with_reducible assumption
    | with_reducible apply Keeps.foldl
    | (intro x a hx; beta_reduce; beta_reduce at hx)
    | with_reducible apply Keeps.foldlp
    | with_reducible apply Keeps.foldlq
    | split
    | (with_reducible apply Keeps.u536870912; decide))
theorem tickPod_keeps_k {m} {s0 : State} {s : State} (e : 536870912 ||| m = m) (h : Keeps m s0 s) :
    Keeps m s0 (tickPod s) := h.tr ((tickPod_keeps  s).mono e)

theorem tickHarps_keeps (s : State) : Keeps 16384 s (tickHarps s) := by
  unfold tickHarps
  try dsimp only
  repeat' (first
    | with_reducible apply Keeps.refl
    | with_reducible assumption
    | with_reducible apply Keeps.foldl
    | (intro x a hx; beta_reduce; beta_reduce at hx)
    | with_reducible apply Keeps.foldlp
    | with_reducible apply Keeps.foldlq
    | split
    | (with_reducible apply Keeps.u16384; decide))
theorem tickHarps_keeps_k {m} {s0 : State} {s : State} (e : 16384 ||| m = m) (h : Keeps m s0 s) :
    Keeps m s0 (tickHarps s) := h.tr ((tickHarps_keeps  s).mono e)

theorem tickCvus_keeps (s : State) : Keeps 8589934592 s (tickCvus s) := by
  unfold tickCvus
  try dsimp only
  repeat' (first
    | with_reducible apply Keeps.refl
    | with_reducible assumption
    | with_reducible apply Keeps.foldl
    | (intro x a hx; beta_reduce; beta_reduce at hx)
    | with_reducible apply Keeps.foldlp
    | with_reducible apply Keeps.foldlq
    | split
    | (with_reducible apply Keeps.u8589934592; decide))
theorem tickCvus_keeps_k {m} {s0 : State} {s : State} (e : 8589934592 ||| m = m) (h : Keeps m s0 s) :
    Keeps m s0 (tickCvus s) := h.tr ((tickCvus_keeps  s).mono e)

theorem tickBeat_keeps (s : State) : Keeps 16777217 s (tickBeat s) := by
  unfold tickBeat
  try dsimp only
  repeat' (first
    | with_reducible apply Keeps.refl
    | with_reducible assumption
    | with_reducible apply Keeps.foldl
    | (intro x a hx; beta_reduce; beta_reduce at hx)
    | with_reducible apply Keeps.foldlp
    | with_reducible apply Keeps.foldlq
    | split
    | (with_reducible apply Keeps.u16777217; decide))
theorem tickBeat_keeps_k {m} {s0 : State} {s : State} (e : 16777217 ||| m = m) (h : Keeps m s0 s) :
    Keeps m s0 (tickBeat s) := h.tr ((tickBeat_keeps  s).mono e)

theorem tick_keeps (s : State) : Keeps 2139449353307 s (tick s) := by
  unfold tick
  try dsimp only
  repeat' (first
    | with_reducible apply Keeps.refl
    | with_reducible assumption
    | (with_reducible apply tickFabric_keeps_k; decide)
    | (with_reducible apply tickPod_keeps_k; decide)
    | (with_reducible apply tickHarps_keeps_k; decide)
    | (with_reducible apply tickBeat_keeps_k; decide)
    | (with_reducible apply tickCvus_keeps_k; decide)
    | with_reducible apply Keeps.foldl
    | (intro x a hx; beta_reduce; beta_reduce at hx)
    | with_reducible apply Keeps.foldlp
    | with_reducible apply Keeps.foldlq
    | split)
theorem tick_keeps_k {m} {s0 : State} {s : State} (e : 2139449353307 ||| m = m) (h : Keeps m s0 s) :
    Keeps m s0 (tick s) := h.tr ((tick_keeps  s).mono e)

end Sys2Proof.Machine
end

