-- ==== Sys2Proof/Laws/KeepsTimeBase.lean ====
section
/-! SUPPORT. Keeps, for every operation of Machine/TimeBase.lean that answers a state. -/

set_option linter.all false

namespace Sys2Proof.Machine

theorem setSeconds_keeps (a0) (s : State) : Keeps 16777217 s (setSeconds a0 s) := by
  unfold setSeconds
  try dsimp only
  repeat' (first
    | with_reducible apply Keeps.refl
    | with_reducible assumption
    | with_reducible apply Keeps.foldl
    | (intro x a hx; beta_reduce; beta_reduce at hx)
    | with_reducible apply Keeps.foldlp
    | with_reducible apply Keeps.foldlq
    | split
    | (with_reducible apply Keeps.u16777217; decide))
theorem setSeconds_keeps_k {m} {s0 : State} {a0} {s : State} (e : 16777217 ||| m = m) (h : Keeps m s0 s) :
    Keeps m s0 (setSeconds a0 s) := h.tr ((setSeconds_keeps a0 s).mono e)

theorem takeUpstream_keeps (s : State) : Keeps 16777216 s (takeUpstream s) := by
  unfold takeUpstream
  try dsimp only
  repeat' (first
    | with_reducible apply Keeps.refl
    | with_reducible assumption
    | with_reducible apply Keeps.foldl
    | (intro x a hx; beta_reduce; beta_reduce at hx)
    | with_reducible apply Keeps.foldlp
    | with_reducible apply Keeps.foldlq
    | split
    | (with_reducible apply Keeps.u16777216; decide))
theorem takeUpstream_keeps_k {m} {s0 : State} {s : State} (e : 16777216 ||| m = m) (h : Keeps m s0 s) :
    Keeps m s0 (takeUpstream s) := h.tr ((takeUpstream_keeps  s).mono e)

theorem switchTo_keeps (a0) (s : State) : Keeps 16777218 s (switchTo a0 s) := by
  unfold switchTo
  try dsimp only
  repeat' (first
    | with_reducible apply Keeps.refl
    | with_reducible assumption
    | (with_reducible apply State_count_keeps_k; decide)
    | with_reducible apply Keeps.foldl
    | (intro x a hx; beta_reduce; beta_reduce at hx)
    | with_reducible apply Keeps.foldlp
    | with_reducible apply Keeps.foldlq
    | split
    | (with_reducible apply Keeps.u16777216; decide))
theorem switchTo_keeps_k {m} {s0 : State} {a0} {s : State} (e : 16777218 ||| m = m) (h : Keeps m s0 s) :
    Keeps m s0 (switchTo a0 s) := h.tr ((switchTo_keeps a0 s).mono e)

theorem reselect_keeps (s : State) : Keeps 16777218 s (reselect s) := by
  unfold reselect
  try dsimp only
  repeat' (first
    | with_reducible apply Keeps.refl
    | with_reducible assumption
    | (with_reducible apply switchTo_keeps_k; decide)
    | (with_reducible apply State_count_keeps_k; decide)
    | with_reducible apply Keeps.foldl
    | (intro x a hx; beta_reduce; beta_reduce at hx)
    | with_reducible apply Keeps.foldlp
    | with_reducible apply Keeps.foldlq
    | split
    | (with_reducible apply Keeps.u16777216; decide))
theorem reselect_keeps_k {m} {s0 : State} {s : State} (e : 16777218 ||| m = m) (h : Keeps m s0 s) :
    Keeps m s0 (reselect s) := h.tr ((reselect_keeps  s).mono e)

theorem loseSource_keeps (a0) (s : State) : Keeps 16777218 s (loseSource a0 s) := by
  unfold loseSource
  try dsimp only
  repeat' (first
    | with_reducible apply Keeps.refl
    | with_reducible assumption
    | (with_reducible apply reselect_keeps_k; decide)
    | with_reducible apply Keeps.foldl
    | (intro x a hx; beta_reduce; beta_reduce at hx)
    | with_reducible apply Keeps.foldlp
    | with_reducible apply Keeps.foldlq
    | split
    | (with_reducible apply Keeps.u16777216; decide))
theorem loseSource_keeps_k {m} {s0 : State} {a0} {s : State} (e : 16777218 ||| m = m) (h : Keeps m s0 s) :
    Keeps m s0 (loseSource a0 s) := h.tr ((loseSource_keeps a0 s).mono e)

theorem loseFabric_keeps (s : State) : Keeps 16777218 s (loseFabric s) := by
  unfold loseFabric
  try dsimp only
  repeat' (first
    | with_reducible apply Keeps.refl
    | with_reducible assumption
    | (with_reducible apply takeUpstream_keeps_k; decide)
    | (with_reducible apply loseSource_keeps_k; decide)
    | with_reducible apply Keeps.foldl
    | (intro x a hx; beta_reduce; beta_reduce at hx)
    | with_reducible apply Keeps.foldlp
    | with_reducible apply Keeps.foldlq
    | split
    | (with_reducible apply Keeps.u16777216; decide))
theorem loseFabric_keeps_k {m} {s0 : State} {s : State} (e : 16777218 ||| m = m) (h : Keeps m s0 s) :
    Keeps m s0 (loseFabric s) := h.tr ((loseFabric_keeps  s).mono e)

theorem wantClock_keeps (a0) (s : State) : Keeps 64 s (wantClock a0 s) := by
  unfold wantClock
  try dsimp only
  repeat' (first
    | with_reducible apply Keeps.refl
    | with_reducible assumption
    | (with_reducible apply State_setDie_keeps_k; decide)
    | with_reducible apply Keeps.foldl
    | (intro x a hx; beta_reduce; beta_reduce at hx)
    | with_reducible apply Keeps.foldlp
    | with_reducible apply Keeps.foldlq
    | split)
theorem wantClock_keeps_k {m} {s0 : State} {a0} {s : State} (e : 64 ||| m = m) (h : Keeps m s0 s) :
    Keeps m s0 (wantClock a0 s) := h.tr ((wantClock_keeps a0 s).mono e)

theorem settleSources_keeps (s : State) : Keeps 16777218 s (settleSources s) := by
  unfold settleSources
  try dsimp only
  repeat' (first
    | with_reducible apply Keeps.refl
    | with_reducible assumption
    | (with_reducible apply reselect_keeps_k; decide)
    | with_reducible apply Keeps.foldl
    | (intro x a hx; beta_reduce; beta_reduce at hx)
    | with_reducible apply Keeps.foldlp
    | with_reducible apply Keeps.foldlq
    | split)
theorem settleSources_keeps_k {m} {s0 : State} {s : State} (e : 16777218 ||| m = m) (h : Keeps m s0 s) :
    Keeps m s0 (settleSources s) := h.tr ((settleSources_keeps  s).mono e)

theorem reacquireFabric_keeps (s : State) : Keeps 17039362 s (reacquireFabric s) := by
  unfold reacquireFabric
  try dsimp only
  repeat' (first
    | with_reducible apply Keeps.refl
    | with_reducible assumption
    | (with_reducible apply takeUpstream_keeps_k; decide)
    | (with_reducible apply loseSource_keeps_k; decide)
    | with_reducible apply Keeps.foldl
    | (intro x a hx; beta_reduce; beta_reduce at hx)
    | with_reducible apply Keeps.foldlp
    | with_reducible apply Keeps.foldlq
    | split
    | (with_reducible apply Keeps.u262144; decide))
theorem reacquireFabric_keeps_k {m} {s0 : State} {s : State} (e : 17039362 ||| m = m) (h : Keeps m s0 s) :
    Keeps m s0 (reacquireFabric s) := h.tr ((reacquireFabric_keeps  s).mono e)

theorem stepCounter_keeps (a0) (s : State) : Keeps 17039363 s (stepCounter a0 s) := by
  unfold stepCounter
  try dsimp only
  repeat' (first
    | with_reducible apply Keeps.refl
    | with_reducible assumption
    | (with_reducible apply State_count_keeps_k; decide)
    | with_reducible apply Keeps.foldl
    | (intro x a hx; beta_reduce; beta_reduce at hx)
    | with_reducible apply Keeps.foldlp
    | with_reducible apply Keeps.foldlq
    | split
    | (with_reducible apply Keeps.u17039361; decide))
theorem stepCounter_keeps_k {m} {s0 : State} {a0} {s : State} (e : 17039363 ||| m = m) (h : Keeps m s0 s) :
    Keeps m s0 (stepCounter a0 s) := h.tr ((stepCounter_keeps a0 s).mono e)

theorem gainSource_keeps (a0) (s : State) : Keeps 16777218 s (gainSource a0 s) := by
  unfold gainSource
  try dsimp only
  repeat' (first
    | with_reducible apply Keeps.refl
    | with_reducible assumption
    | (with_reducible apply reselect_keeps_k; decide)
    | with_reducible apply Keeps.foldl
    | (intro x a hx; beta_reduce; beta_reduce at hx)
    | with_reducible apply Keeps.foldlp
    | with_reducible apply Keeps.foldlq
    | split
    | (with_reducible apply Keeps.u16777216; decide))
theorem gainSource_keeps_k {m} {s0 : State} {a0} {s : State} (e : 16777218 ||| m = m) (h : Keeps m s0 s) :
    Keeps m s0 (gainSource a0 s) := h.tr ((gainSource_keeps a0 s).mono e)

theorem applyOffset_keeps (a0) (s : State) : Keeps 1099528667139 s (applyOffset a0 s) := by
  unfold applyOffset
  try dsimp only
  repeat' (first
    | with_reducible apply Keeps.refl
    | with_reducible assumption
    | (with_reducible apply stepCounter_keeps_k; decide)
    | (with_reducible apply State_drawn_keeps_k; decide)
    | with_reducible apply Keeps.foldl
    | (intro x a hx; beta_reduce; beta_reduce at hx)
    | with_reducible apply Keeps.foldlp
    | with_reducible apply Keeps.foldlq
    | split
    | (with_reducible apply Keeps.u16777216; decide))
theorem applyOffset_keeps_k {m} {s0 : State} {a0} {s : State} (e : 1099528667139 ||| m = m) (h : Keeps m s0 s) :
    Keeps m s0 (applyOffset a0 s) := h.tr ((applyOffset_keeps a0 s).mono e)

theorem followUpstream_keeps (a0 a1 a2) (s : State) : Keeps 1099528667139 s (followUpstream a0 a1 a2 s) := by
  unfold followUpstream
  try dsimp only
  repeat' (first
    | with_reducible apply Keeps.refl
    | with_reducible assumption
    | (with_reducible apply State_setPort_keeps_k; decide)
    | (with_reducible apply State_setObj_keeps_k; decide)
    | (with_reducible apply gainSource_keeps_k; decide)
    | (with_reducible apply applyOffset_keeps_k; decide)
    | (with_reducible apply State_count_keeps_k; decide)
    | with_reducible apply Keeps.foldl
    | (intro x a hx; beta_reduce; beta_reduce at hx)
    | with_reducible apply Keeps.foldlp
    | with_reducible apply Keeps.foldlq
    | split
    | (with_reducible apply Keeps.u16777216; decide))
theorem followUpstream_keeps_k {m} {s0 : State} {a0 a1 a2} {s : State} (e : 1099528667139 ||| m = m) (h : Keeps m s0 s) :
    Keeps m s0 (followUpstream a0 a1 a2 s) := h.tr ((followUpstream_keeps a0 a1 a2 s).mono e)

end Sys2Proof.Machine
end

