-- ==== Sys2Proof/Laws/KeepsPowerThermal.lean ====
section
/-! SUPPORT. Keeps, for every operation of Machine/PowerThermal.lean that answers a state. -/

set_option linter.all false

namespace Sys2Proof.Machine

theorem railsOff_keeps (s : State) : Keeps 371598557176 s (railsOff s) := by
  unfold railsOff
  try dsimp only
  repeat' (first
    | with_reducible apply Keeps.refl
    | with_reducible assumption
    | with_reducible apply Keeps.foldl
    | (intro x a hx; beta_reduce; beta_reduce at hx)
    | with_reducible apply Keeps.foldlp
    | with_reducible apply Keeps.foldlq
    | split
    | (with_reducible apply Keeps.u371598557176; decide; (first | exact id | exact fun _ => by decide | exact fun h => Memory_writeN_wf _ _ _ h | exact Nat.le_add_right _ _ | assumption | (intro h; exact h)); (first | exact id | exact fun _ => by decide | exact fun h => Memory_writeN_wf _ _ _ h | exact Nat.le_add_right _ _ | assumption | (intro h; exact h))))
theorem railsOff_keeps_k {m} {s0 : State} {s : State} (e : 371598557176 ||| m = m) (h : Keeps m s0 s) :
    Keeps m s0 (railsOff s) := h.tr ((railsOff_keeps  s).mono e)

theorem settleThermal_keeps (s : State) : Keeps 103700235267 s (settleThermal s) := by
  unfold settleThermal
  try dsimp only
  repeat' (first
    | with_reducible apply Keeps.refl
    | with_reducible assumption
    | (with_reducible apply setReason_keeps_k; decide)
    | with_reducible apply Keeps.foldl
    | (intro x a hx; beta_reduce; beta_reduce at hx)
    | with_reducible apply Keeps.foldlp
    | with_reducible apply Keeps.foldlq
    | split)
theorem settleThermal_keeps_k {m} {s0 : State} {s : State} (e : 103700235267 ||| m = m) (h : Keeps m s0 s) :
    Keeps m s0 (settleThermal s) := h.tr ((settleThermal_keeps  s).mono e)

theorem faultStop_keeps (s : State) : Keeps 543984451579 s (faultStop s) := by
  unfold faultStop
  try dsimp only
  repeat' (first
    | with_reducible apply Keeps.refl
    | with_reducible assumption
    | (with_reducible apply logEvent_keeps_k; decide)
    | (with_reducible apply enterState_keeps_k; decide; first | decide | (split <;> decide))
    | (with_reducible apply railsOff_keeps_k; decide)
    | with_reducible apply Keeps.foldl
    | (intro x a hx; beta_reduce; beta_reduce at hx)
    | with_reducible apply Keeps.foldlp
    | with_reducible apply Keeps.foldlq
    | split
    | (with_reducible apply Keeps.u33554432; decide))
theorem faultStop_keeps_k {m} {s0 : State} {s : State} (e : 543984451579 ||| m = m) (h : Keeps m s0 s) :
    Keeps m s0 (faultStop s) := h.tr ((faultStop_keeps  s).mono e)

theorem forgetCells_keeps (a0 a1) (s : State) : Keeps 1099511627784 s (forgetCells a0 a1 s) := by
  unfold forgetCells
  try dsimp only
  repeat' (first
    | with_reducible apply Keeps.refl
    | with_reducible assumption
    | (with_reducible apply State_store_keeps_k; decide)
    | (with_reducible apply State_drawn_keeps_k; decide)
    | with_reducible apply Keeps.foldl
    | (intro x a hx; beta_reduce; beta_reduce at hx)
    | with_reducible apply Keeps.foldlp
    | with_reducible apply Keeps.foldlq
    | split)
theorem forgetCells_keeps_k {m} {s0 : State} {a0 a1} {s : State} (e : 1099511627784 ||| m = m) (h : Keeps m s0 s) :
    Keeps m s0 (forgetCells a0 a1 s) := h.tr ((forgetCells_keeps a0 a1 s).mono e)

theorem shutDie_keeps (a0) (s : State) : Keeps 1400160397306 s (shutDie a0 s) := by
  unfold shutDie
  try dsimp only
  repeat' (first
    | with_reducible apply Keeps.refl
    | with_reducible assumption
    | (with_reducible apply State_setDie_keeps_k; decide)
    | (with_reducible apply forgetCells_keeps_k; decide)
    | (with_reducible apply dieStops_keeps_k; decide)
    | (with_reducible apply State_setWhip_keeps_k; decide)
    | with_reducible apply Keeps.foldl
    | (intro x a hx; beta_reduce; beta_reduce at hx)
    | with_reducible apply Keeps.foldlp
    | with_reducible apply Keeps.foldlq
    | split)
theorem shutDie_keeps_k {m} {s0 : State} {a0} {s : State} (e : 1400160397306 ||| m = m) (h : Keeps m s0 s) :
    Keeps m s0 (shutDie a0 s) := h.tr ((shutDie_keeps a0 s).mono e)

theorem loseSoundboard_keeps (a0) (s : State) : Keeps 2191068112891 s (loseSoundboard a0 s) := by
  unfold loseSoundboard
  try dsimp only
  repeat' (first
    | with_reducible apply Keeps.refl
    | with_reducible assumption
    | (with_reducible apply losePage_keeps_k; decide)
    | (with_reducible apply State_setDie_keeps_k; decide)
    | (with_reducible apply forgetCells_keeps_k; decide)
    | (with_reducible apply shutDie_keeps_k; decide)
    | with_reducible apply Keeps.foldl
    | (intro x a hx; beta_reduce; beta_reduce at hx)
    | with_reducible apply Keeps.foldlp
    | with_reducible apply Keeps.foldlq
    | split)
theorem loseSoundboard_keeps_k {m} {s0 : State} {a0} {s : State} (e : 2191068112891 ||| m = m) (h : Keeps m s0 s) :
    Keeps m s0 (loseSoundboard a0 s) := h.tr ((loseSoundboard_keeps a0 s).mono e)

theorem shutdownActs_keeps (a0 a1) (s : State) : Keeps 2197546860539 s (shutdownActs a0 a1 s) := by
  unfold shutdownActs
  try dsimp only
  repeat' (first
    | with_reducible apply Keeps.refl
    | with_reducible assumption
    | (with_reducible apply stackFails_keeps_k; decide)
    | (with_reducible apply resetRim_keeps_k; decide)
    | (with_reducible apply loseSoundboard_keeps_k; decide)
    | (with_reducible apply portFalls_keeps_k; decide)
    | (with_reducible apply shutDie_keeps_k; decide)
    | (with_reducible apply faultStop_keeps_k; decide)
    | with_reducible apply Keeps.foldl
    | (intro x a hx; beta_reduce; beta_reduce at hx)
    | with_reducible apply Keeps.foldlp
    | with_reducible apply Keeps.foldlq
    | split
    | (with_reducible apply Keeps.u4294967296; decide))
theorem shutdownActs_keeps_k {m} {s0 : State} {a0 a1} {s : State} (e : 2197546860539 ||| m = m) (h : Keeps m s0 s) :
    Keeps m s0 (shutdownActs a0 a1 s) := h.tr ((shutdownActs_keeps a0 a1 s).mono e)

theorem clearSite_keeps (a0) (s : State) : Keeps 107995202627 s (clearSite a0 s) := by
  unfold clearSite
  try dsimp only
  repeat' (first
    | with_reducible apply Keeps.refl
    | with_reducible assumption
    | (with_reducible apply settleThermal_keeps_k; decide)
    | (with_reducible apply State_setDie_keeps_k; decide)
    | with_reducible apply Keeps.foldl
    | (intro x a hx; beta_reduce; beta_reduce at hx)
    | with_reducible apply Keeps.foldlp
    | with_reducible apply Keeps.foldlq
    | split
    | (with_reducible apply Keeps.u4294967296; decide))
theorem clearSite_keeps_k {m} {s0 : State} {a0} {s : State} (e : 107995202627 ||| m = m) (h : Keeps m s0 s) :
    Keeps m s0 (clearSite a0 s) := h.tr ((clearSite_keeps a0 s).mono e)

theorem declareLoss_keeps (s : State) : Keeps 208305914114 s (declareLoss s) := by
  unfold declareLoss
  try dsimp only
  repeat' (first
    | with_reducible apply Keeps.refl
    | with_reducible assumption
    | (with_reducible apply logEvent_keeps_k; decide)
    | with_reducible apply Keeps.foldl
    | (intro x a hx; beta_reduce; beta_reduce at hx)
    | with_reducible apply Keeps.foldlp
    | with_reducible apply Keeps.foldlq
    | split
    | (with_reducible apply Keeps.u2147483904; decide))
theorem declareLoss_keeps_k {m} {s0 : State} {s : State} (e : 208305914114 ||| m = m) (h : Keeps m s0 s) :
    Keeps m s0 (declareLoss s) := h.tr ((declareLoss_keeps  s).mono e)

theorem throttleActs_keeps (a0 a1 a2) (s : State) : Keeps 393280 s (throttleActs a0 a1 a2 s) := by
  unfold throttleActs
  try dsimp only
  repeat' (first
    | with_reducible apply Keeps.refl
    | with_reducible assumption
    | (with_reducible apply State_setPort_keeps_k; decide)
    | (with_reducible apply State_setDie_keeps_k; decide)
    | with_reducible apply Keeps.foldl
    | (intro x a hx; beta_reduce; beta_reduce at hx)
    | with_reducible apply Keeps.foldlp
    | with_reducible apply Keeps.foldlq
    | split
    | (with_reducible apply Keeps.u131072; decide))
theorem throttleActs_keeps_k {m} {s0 : State} {a0 a1 a2} {s : State} (e : 393280 ||| m = m) (h : Keeps m s0 s) :
    Keeps m s0 (throttleActs a0 a1 a2 s) := h.tr ((throttleActs_keeps a0 a1 a2 s).mono e)

theorem changeLevel_keeps (a0 a1 a2 a3) (s : State) : Keeps 2197546860539 s (changeLevel a0 a1 a2 a3 s) := by
  unfold changeLevel
  try dsimp only
  repeat' (first
    | with_reducible apply Keeps.refl
    | with_reducible assumption
    | (with_reducible apply shutdownActs_keeps_k; decide)
    | (with_reducible apply settleThermal_keeps_k; decide)
    | (with_reducible apply throttleActs_keeps_k; decide)
    | (with_reducible apply countLog_keeps_k; decide)
    | with_reducible apply Keeps.foldl
    | (intro x a hx; beta_reduce; beta_reduce at hx)
    | with_reducible apply Keeps.foldlp
    | with_reducible apply Keeps.foldlq
    | split)
theorem changeLevel_keeps_k {m} {s0 : State} {a0 a1 a2 a3} {s : State} (e : 2197546860539 ||| m = m) (h : Keeps m s0 s) :
    Keeps m s0 (changeLevel a0 a1 a2 a3 s) := h.tr ((changeLevel_keeps a0 a1 a2 a3 s).mono e)

theorem powerOff_keeps (s : State) : Keeps 549755813883 s (powerOff s) := by
  unfold powerOff
  try dsimp only
  repeat' (first
    | with_reducible apply Keeps.refl
    | with_reducible assumption
    | (with_reducible apply enterState_keeps_k; decide; first | decide | (split <;> decide))
    | (with_reducible apply railsOff_keeps_k; decide)
    | (with_reducible apply closeSecond_keeps_k; decide)
    | with_reducible apply Keeps.foldl
    | (intro x a hx; beta_reduce; beta_reduce at hx)
    | with_reducible apply Keeps.foldlp
    | with_reducible apply Keeps.foldlq
    | split
    | (with_reducible apply Keeps.u145408131073; decide))
theorem powerOff_keeps_k {m} {s0 : State} {s : State} (e : 549755813883 ||| m = m) (h : Keeps m s0 s) :
    Keeps m s0 (powerOff s) := h.tr ((powerOff_keeps  s).mono e)

theorem settleCap_keeps (s : State) : Keeps 2147483650 s (settleCap s) := by
  unfold settleCap
  try dsimp only
  repeat' (first
    | with_reducible apply Keeps.refl
    | with_reducible assumption
    | (with_reducible apply State_count_keeps_k; decide)
    | with_reducible apply Keeps.foldl
    | (intro x a hx; beta_reduce; beta_reduce at hx)
    | with_reducible apply Keeps.foldlp
    | with_reducible apply Keeps.foldlq
    | split
    | (with_reducible apply Keeps.u2147483648; decide))
theorem settleCap_keeps_k {m} {s0 : State} {s : State} (e : 2147483650 ||| m = m) (h : Keeps m s0 s) :
    Keeps m s0 (settleCap s) := h.tr ((settleCap_keeps  s).mono e)

theorem checkOrder_keeps (a0 a1 a2) (s : State) : Keeps 206158430210 s (checkOrder a0 a1 a2 s).2 := by
  unfold checkOrder
  try dsimp only
  repeat' (first
    | with_reducible apply Keeps.refl
    | with_reducible assumption
    | (with_reducible apply countLog_keeps_k; decide)
    | with_reducible apply Keeps.foldl
    | (intro x a hx; beta_reduce; beta_reduce at hx)
    | with_reducible apply Keeps.foldlp
    | with_reducible apply Keeps.foldlq
    | split)
theorem checkOrder_keeps_k {m} {s0 : State} {a0 a1 a2} {s : State} (e : 206158430210 ||| m = m) (h : Keeps m s0 s) :
    Keeps m s0 (checkOrder a0 a1 a2 s).2 := h.tr ((checkOrder_keeps a0 a1 a2 s).mono e)
theorem checkOrder_keeps_eqk {m} {s0 : State} {a0 a1 a2} {s : State} {x t} (e : 206158430210 ||| m = m) (h : checkOrder a0 a1 a2 s = (x, t))
    (k : Keeps m s0 s) : Keeps m s0 t := by
  have := checkOrder_keeps a0 a1 a2 s; rw [h] at this; exact k.tr (this.mono e)

theorem notePower_keeps (a0 a1) (s : State) : Keeps 2147483712 s (notePower a0 a1 s) := by
  unfold notePower
  try dsimp only
  repeat' (first
    | with_reducible apply Keeps.refl
    | with_reducible assumption
    | (with_reducible apply State_setDie_keeps_k; decide)
    | with_reducible apply Keeps.foldl
    | (intro x a hx; beta_reduce; beta_reduce at hx)
    | with_reducible apply Keeps.foldlp
    | with_reducible apply Keeps.foldlq
    | split
    | (with_reducible apply Keeps.u2147483648; decide))
theorem notePower_keeps_k {m} {s0 : State} {a0 a1} {s : State} (e : 2147483712 ||| m = m) (h : Keeps m s0 s) :
    Keeps m s0 (notePower a0 a1 s) := h.tr ((notePower_keeps a0 a1 s).mono e)

end Sys2Proof.Machine
end

