-- ==== Sys2Proof/Laws/KeepsCvu.lean ====
section
/-! SUPPORT. Keeps, for every operation of Machine/Cvu.lean that answers a state. -/

set_option linter.all false

namespace Sys2Proof.Machine

theorem cvuStall_keeps (a0) (s : State) : Keeps 2 s (cvuStall a0 s) := by
  unfold cvuStall
  try dsimp only
  repeat' (first
    | with_reducible apply Keeps.refl
    | with_reducible assumption
    | (with_reducible apply State_count_keeps_k; decide)
    | with_reducible apply Keeps.foldl
    | (intro x a hx; beta_reduce; beta_reduce at hx)
    | with_reducible apply Keeps.foldlp
    | with_reducible apply Keeps.foldlq
    | split)
theorem cvuStall_keeps_k {m} {s0 : State} {a0} {s : State} (e : 2 ||| m = m) (h : Keeps m s0 s) :
    Keeps m s0 (cvuStall a0 s) := h.tr ((cvuStall_keeps a0 s).mono e)

theorem cvuRead_keeps (a0 a1) (s : State) : Keeps 1657857376258 s (cvuRead a0 a1 s) := by
  unfold cvuRead
  try dsimp only
  repeat' (first
    | with_reducible apply Keeps.refl
    | with_reducible assumption
    | (with_reducible apply State_setCvu_keeps_k; decide)
    | (with_reducible apply State_drawn_keeps_k; decide)
    | (with_reducible apply cvuStall_keeps_k; decide)
    | (with_reducible apply State_emit_keeps_k; decide)
    | with_reducible apply Keeps.foldl
    | (intro x a hx; beta_reduce; beta_reduce at hx)
    | with_reducible apply Keeps.foldlp
    | with_reducible apply Keeps.foldlq
    | split)
theorem cvuRead_keeps_k {m} {s0 : State} {a0 a1} {s : State} (e : 1657857376258 ||| m = m) (h : Keeps m s0 s) :
    Keeps m s0 (cvuRead a0 a1 s) := h.tr ((cvuRead_keeps a0 a1 s).mono e)

theorem cvuData_keeps (a0 a1) (s : State) : Keeps 8589934594 s (cvuData a0 a1 s) := by
  unfold cvuData
  try dsimp only
  repeat' (first
    | with_reducible apply Keeps.refl
    | with_reducible assumption
    | (with_reducible apply State_setCvu_keeps_k; decide)
    | (with_reducible apply State_count_keeps_k; decide)
    | (with_reducible apply cvuStall_keeps_k; decide)
    | with_reducible apply Keeps.foldl
    | (intro x a hx; beta_reduce; beta_reduce at hx)
    | with_reducible apply Keeps.foldlp
    | with_reducible apply Keeps.foldlq
    | split)
theorem cvuData_keeps_k {m} {s0 : State} {a0 a1} {s : State} (e : 8589934594 ||| m = m) (h : Keeps m s0 s) :
    Keeps m s0 (cvuData a0 a1 s) := h.tr ((cvuData_keeps a0 a1 s).mono e)

theorem cvuPut_keeps (a0 a1 a2) (s : State) : Keeps 8589934594 s (cvuPut a0 a1 a2 s) := by
  unfold cvuPut
  try dsimp only
  repeat' (first
    | with_reducible apply Keeps.refl
    | with_reducible assumption
    | (with_reducible apply State_setCvu_keeps_k; decide)
    | (with_reducible apply cvuData_keeps_k; decide)
    | (with_reducible apply cvuStall_keeps_k; decide)
    | with_reducible apply Keeps.foldl
    | (intro x a hx; beta_reduce; beta_reduce at hx)
    | with_reducible apply Keeps.foldlp
    | with_reducible apply Keeps.foldlq
    | split)
theorem cvuPut_keeps_k {m} {s0 : State} {a0 a1 a2} {s : State} (e : 8589934594 ||| m = m) (h : Keeps m s0 s) :
    Keeps m s0 (cvuPut a0 a1 a2 s) := h.tr ((cvuPut_keeps a0 a1 a2 s).mono e)

theorem cvuRefuse_keeps (a0) (s : State) : Keeps 8589934594 s (cvuRefuse a0 s) := by
  unfold cvuRefuse
  try dsimp only
  repeat' (first
    | with_reducible apply Keeps.refl
    | with_reducible assumption
    | (with_reducible apply State_setCvu_keeps_k; decide)
    | (with_reducible apply State_count_keeps_k; decide)
    | with_reducible apply Keeps.foldl
    | (intro x a hx; beta_reduce; beta_reduce at hx)
    | with_reducible apply Keeps.foldlp
    | with_reducible apply Keeps.foldlq
    | split)
theorem cvuRefuse_keeps_k {m} {s0 : State} {a0} {s : State} (e : 8589934594 ||| m = m) (h : Keeps m s0 s) :
    Keeps m s0 (cvuRefuse a0 s) := h.tr ((cvuRefuse_keeps a0 s).mono e)

theorem cvuOwner_keeps (a0 a1 a2) (s : State) : Keeps 8589934594 s (cvuOwner a0 a1 a2 s) := by
  unfold cvuOwner
  try dsimp only
  repeat' (first
    | with_reducible apply Keeps.refl
    | with_reducible assumption
    | (with_reducible apply State_setCvu_keeps_k; decide)
    | (with_reducible apply cvuRefuse_keeps_k; decide)
    | with_reducible apply Keeps.foldl
    | (intro x a hx; beta_reduce; beta_reduce at hx)
    | with_reducible apply Keeps.foldlp
    | with_reducible apply Keeps.foldlq
    | split)
theorem cvuOwner_keeps_k {m} {s0 : State} {a0 a1 a2} {s : State} (e : 8589934594 ||| m = m) (h : Keeps m s0 s) :
    Keeps m s0 (cvuOwner a0 a1 a2 s) := h.tr ((cvuOwner_keeps a0 a1 a2 s).mono e)

theorem cvuReached_keeps (a0 a1 a2) (s : State) : Keeps 8589934594 s (cvuReached a0 a1 a2 s) := by
  unfold cvuReached
  try dsimp only
  repeat' (first
    | with_reducible apply Keeps.refl
    | with_reducible assumption
    | (with_reducible apply cvuPut_keeps_k; decide)
    | (with_reducible apply cvuOwner_keeps_k; decide)
    | (with_reducible apply cvuRefuse_keeps_k; decide)
    | with_reducible apply Keeps.foldl
    | (intro x a hx; beta_reduce; beta_reduce at hx)
    | with_reducible apply Keeps.foldlp
    | with_reducible apply Keeps.foldlq
    | split)
theorem cvuReached_keeps_k {m} {s0 : State} {a0 a1 a2} {s : State} (e : 8589934594 ||| m = m) (h : Keeps m s0 s) :
    Keeps m s0 (cvuReached a0 a1 a2 s) := h.tr ((cvuReached_keeps a0 a1 a2 s).mono e)

theorem cvuWrite_keeps (a0 a1 a2) (s : State) : Keeps 558479966210 s (cvuWrite a0 a1 a2 s) := by
  unfold cvuWrite
  try dsimp only
  repeat' (first
    | with_reducible apply Keeps.refl
    | with_reducible assumption
    | (with_reducible apply cvuReached_keeps_k; decide)
    | (with_reducible apply ctlEmit_keeps_k; decide)
    | with_reducible apply Keeps.foldl
    | (intro x a hx; beta_reduce; beta_reduce at hx)
    | with_reducible apply Keeps.foldlp
    | with_reducible apply Keeps.foldlq
    | split)
theorem cvuWrite_keeps_k {m} {s0 : State} {a0 a1 a2} {s : State} (e : 558479966210 ||| m = m) (h : Keeps m s0 s) :
    Keeps m s0 (cvuWrite a0 a1 a2 s) := h.tr ((cvuWrite_keeps a0 a1 a2 s).mono e)

end Sys2Proof.Machine
end

