-- ==== Sys2Proof/Laws/KeepsSelfTest.lean ====
section
/-! SUPPORT. Keeps, for every operation of Machine/SelfTest.lean that answers a state. -/

set_option linter.all false

namespace Sys2Proof.Machine

theorem katAnswers_keeps (a0 a1) (s : State) : Keeps 808209089539 s (katAnswers a0 a1 s) := by
  unfold katAnswers
  try dsimp only
  repeat' (first
    | with_reducible apply Keeps.refl
    | with_reducible assumption
    | (with_reducible apply answerWrite_keeps_k; decide)
    | (with_reducible apply clearIsolation_keeps_k; decide)
    | with_reducible apply Keeps.foldl
    | (intro x a hx; beta_reduce; beta_reduce at hx)
    | with_reducible apply Keeps.foldlp
    | with_reducible apply Keeps.foldlq
    | split
    | (with_reducible apply Keeps.u17179869184; decide))
theorem katAnswers_keeps_k {m} {s0 : State} {a0 a1} {s : State} (e : 808209089539 ||| m = m) (h : Keeps m s0 s) :
    Keeps m s0 (katAnswers a0 a1 s) := h.tr ((katAnswers_keeps a0 a1 s).mono e)

theorem katResult_keeps (a0 a1) (s : State) : Keeps 1907725051203 s (katResult a0 a1 s) := by
  unfold katResult
  try dsimp only
  repeat' (first
    | with_reducible apply Keeps.refl
    | with_reducible assumption
    | (with_reducible apply countLog_keeps_k; decide)
    | (with_reducible apply State_setObj_keeps_k; decide)
    | (with_reducible apply isolate_keeps_k; decide)
    | (with_reducible apply katAnswers_keeps_k; decide)
    | (with_reducible apply State_count_keeps_k; decide)
    | with_reducible apply Keeps.foldl
    | (intro x a hx; beta_reduce; beta_reduce at hx)
    | with_reducible apply Keeps.foldlp
    | with_reducible apply Keeps.foldlq
    | split
    | (with_reducible apply Keeps.u256; decide))
theorem katResult_keeps_k {m} {s0 : State} {a0 a1} {s : State} (e : 1907725051203 ||| m = m) (h : Keeps m s0 s) :
    Keeps m s0 (katResult a0 a1 s) := h.tr ((katResult_keeps a0 a1 s).mono e)

theorem beagleSwitch_keeps (a0) (s : State) : Keeps 68719476736 s (beagleSwitch a0 s) := by
  unfold beagleSwitch
  try dsimp only
  repeat' (first
    | with_reducible apply Keeps.refl
    | with_reducible assumption
    | with_reducible apply Keeps.foldl
    | (intro x a hx; beta_reduce; beta_reduce at hx)
    | with_reducible apply Keeps.foldlp
    | with_reducible apply Keeps.foldlq
    | split
    | (with_reducible apply Keeps.u68719476736; decide))
theorem beagleSwitch_keeps_k {m} {s0 : State} {a0} {s : State} (e : 68719476736 ||| m = m) (h : Keeps m s0 s) :
    Keeps m s0 (beagleSwitch a0 s) := h.tr ((beagleSwitch_keeps a0 s).mono e)

theorem unlockTest_keeps (s : State) : Keeps 242128781314 s (unlockTest s) := by
  unfold unlockTest
  try dsimp only
  repeat' (first
    | with_reducible apply Keeps.refl
    | with_reducible assumption
    | (with_reducible apply countLog_keeps_k; decide)
    | with_reducible apply Keeps.foldl
    | (intro x a hx; beta_reduce; beta_reduce at hx)
    | with_reducible apply Keeps.foldlp
    | with_reducible apply Keeps.foldlq
    | split
    | (with_reducible apply Keeps.u35970351104; decide))
theorem unlockTest_keeps_k {m} {s0 : State} {s : State} (e : 242128781314 ||| m = m) (h : Keeps m s0 s) :
    Keeps m s0 (unlockTest s) := h.tr ((unlockTest_keeps  s).mono e)

theorem fiApplyDo_keeps (s : State) : Keeps 262144 s (fiApplyDo s) := by
  unfold fiApplyDo
  try dsimp only
  repeat' (first
    | with_reducible apply Keeps.refl
    | with_reducible assumption
    | (with_reducible apply State_setPort_keeps_k; decide)
    | with_reducible apply Keeps.foldl
    | (intro x a hx; beta_reduce; beta_reduce at hx)
    | with_reducible apply Keeps.foldlp
    | with_reducible apply Keeps.foldlq
    | split)
theorem fiApplyDo_keeps_k {m} {s0 : State} {s : State} (e : 262144 ||| m = m) (h : Keeps m s0 s) :
    Keeps m s0 (fiApplyDo s) := h.tr ((fiApplyDo_keeps  s).mono e)

theorem sfiApplyDo_keeps (s : State) : Keeps 1024 s (sfiApplyDo s) := by
  unfold sfiApplyDo
  try dsimp only
  repeat' (first
    | with_reducible apply Keeps.refl
    | with_reducible assumption
    | (with_reducible apply State_setStr_keeps_k; decide)
    | with_reducible apply Keeps.foldl
    | (intro x a hx; beta_reduce; beta_reduce at hx)
    | with_reducible apply Keeps.foldlp
    | with_reducible apply Keeps.foldlq
    | split)
theorem sfiApplyDo_keeps_k {m} {s0 : State} {s : State} (e : 1024 ||| m = m) (h : Keeps m s0 s) :
    Keeps m s0 (sfiApplyDo s) := h.tr ((sfiApplyDo_keeps  s).mono e)

theorem stopInjection_keeps (s : State) : Keeps 263168 s (stopInjection s) := by
  unfold stopInjection
  try dsimp only
  repeat' (first
    | with_reducible apply Keeps.refl
    | with_reducible assumption
    | with_reducible apply Keeps.foldl
    | (intro x a hx; beta_reduce; beta_reduce at hx)
    | with_reducible apply Keeps.foldlp
    | with_reducible apply Keeps.foldlq
    | split
    | (with_reducible apply Keeps.u263168; decide))
theorem stopInjection_keeps_k {m} {s0 : State} {s : State} (e : 263168 ||| m = m) (h : Keeps m s0 s) :
    Keeps m s0 (stopInjection s) := h.tr ((stopInjection_keeps  s).mono e)

theorem beagleEmpty_keeps (s : State) : Keeps 68719476736 s (beagleEmpty s) := by
  unfold beagleEmpty
  try dsimp only
  repeat' (first
    | with_reducible apply Keeps.refl
    | with_reducible assumption
    | with_reducible apply Keeps.foldl
    | (intro x a hx; beta_reduce; beta_reduce at hx)
    | with_reducible apply Keeps.foldlp
    | with_reducible apply Keeps.foldlq
    | split
    | (with_reducible apply Keeps.u68719476736; decide))
theorem beagleEmpty_keeps_k {m} {s0 : State} {s : State} (e : 68719476736 ||| m = m) (h : Keeps m s0 s) :
    Keeps m s0 (beagleEmpty s) := h.tr ((beagleEmpty_keeps  s).mono e)

theorem logEmpty_keeps (s : State) : Keeps 206158430210 s (logEmpty s) := by
  unfold logEmpty
  try dsimp only
  repeat' (first
    | with_reducible apply Keeps.refl
    | with_reducible assumption
    | (with_reducible apply logWrite_keeps_k; decide)
    | with_reducible apply Keeps.foldl
    | (intro x a hx; beta_reduce; beta_reduce at hx)
    | with_reducible apply Keeps.foldlp
    | with_reducible apply Keeps.foldlq
    | split
    | (with_reducible apply Keeps.u137438953472; decide))
theorem logEmpty_keeps_k {m} {s0 : State} {s : State} (e : 206158430210 ||| m = m) (h : Keeps m s0 s) :
    Keeps m s0 (logEmpty s) := h.tr ((logEmpty_keeps  s).mono e)

theorem katStart_keeps (a0) (s : State) : Keeps 17179869186 s (katStart a0 s) := by
  unfold katStart
  try dsimp only
  repeat' (first
    | with_reducible apply Keeps.refl
    | with_reducible assumption
    | (with_reducible apply State_count_keeps_k; decide)
    | with_reducible apply Keeps.foldl
    | (intro x a hx; beta_reduce; beta_reduce at hx)
    | with_reducible apply Keeps.foldlp
    | with_reducible apply Keeps.foldlq
    | split
    | (with_reducible apply Keeps.u17179869184; decide))
theorem katStart_keeps_k {m} {s0 : State} {a0} {s : State} (e : 17179869186 ||| m = m) (h : Keeps m s0 s) :
    Keeps m s0 (katStart a0 s) := h.tr ((katStart_keeps a0 s).mono e)

end Sys2Proof.Machine
end

