-- ==== Sys2Proof/Laws/KeepsImage.lean ====
section
/-! SUPPORT. Keeps, for every operation of Machine/Image.lean that answers a state. -/

set_option linter.all false

namespace Sys2Proof.Machine

theorem drainSlot_keeps (a0) (s : State) : Keeps 8388608 s (drainSlot a0 s) := by
  unfold drainSlot
  try dsimp only
  repeat' (first
    | with_reducible apply Keeps.refl
    | with_reducible assumption
    | (with_reducible apply State_setImgSlot_keeps_k; decide)
    | with_reducible apply Keeps.foldl
    | (intro x a hx; beta_reduce; beta_reduce at hx)
    | with_reducible apply Keeps.foldlp
    | with_reducible apply Keeps.foldlq
    | split)
theorem drainSlot_keeps_k {m} {s0 : State} {a0} {s : State} (e : 8388608 ||| m = m) (h : Keeps m s0 s) :
    Keeps m s0 (drainSlot a0 s) := h.tr ((drainSlot_keeps a0 s).mono e)

theorem settleStaging_keeps (s : State) : Keeps 64 s (settleStaging s) := by
  unfold settleStaging
  try dsimp only
  repeat' (first
    | with_reducible apply Keeps.refl
    | with_reducible assumption
    | (with_reducible apply State_setDie_keeps_k; decide)
    | with_reducible apply Keeps.foldl
    | (intro x a hx; beta_reduce; beta_reduce at hx)
    | with_reducible apply Keeps.foldlp
    | with_reducible apply Keeps.foldlq
    | split)
theorem settleStaging_keeps_k {m} {s0 : State} {s : State} (e : 64 ||| m = m) (h : Keeps m s0 s) :
    Keeps m s0 (settleStaging s) := h.tr ((settleStaging_keeps  s).mono e)

theorem unloadImage_keeps (a0) (s : State) : Keeps 103710336067 s (unloadImage a0 s) := by
  unfold unloadImage
  try dsimp only
  repeat' (first
    | with_reducible apply Keeps.refl
    | with_reducible assumption
    | (with_reducible apply settleDram_keeps_k; decide)
    | (with_reducible apply settleStaging_keeps_k; decide)
    | (with_reducible apply freePage_keeps_k; decide)
    | (with_reducible apply State_setImgSlot_keeps_k; decide)
    | with_reducible apply Keeps.foldl
    | (intro x a hx; beta_reduce; beta_reduce at hx)
    | with_reducible apply Keeps.foldlp
    | with_reducible apply Keeps.foldlq
    | split
    | (with_reducible apply Keeps.u1048576; decide)
    | (with_reducible apply Keeps.u655424; decide)
    | (with_reducible apply Keeps.u1704000; decide))
theorem unloadImage_keeps_k {m} {s0 : State} {a0} {s : State} (e : 103710336067 ||| m = m) (h : Keeps m s0 s) :
    Keeps m s0 (unloadImage a0 s) := h.tr ((unloadImage_keeps a0 s).mono e)

theorem forceSlot_keeps (a0) (s : State) : Keeps 1890420925763 s (forceSlot a0 s) := by
  unfold forceSlot
  try dsimp only
  repeat' (first
    | with_reducible apply Keeps.refl
    | with_reducible assumption
    | (with_reducible apply endRequests_keeps_k; decide)
    | (with_reducible apply drainSlot_keeps_k; decide)
    | (with_reducible apply unloadImage_keeps_k; decide)
    | with_reducible apply Keeps.foldl
    | (intro x a hx; beta_reduce; beta_reduce at hx)
    | with_reducible apply Keeps.foldlp
    | with_reducible apply Keeps.foldlq
    | split)
theorem forceSlot_keeps_k {m} {s0 : State} {a0} {s : State} (e : 1890420925763 ||| m = m) (h : Keeps m s0 s) :
    Keeps m s0 (forceSlot a0 s) := h.tr ((forceSlot_keeps a0 s).mono e)

theorem startLoad_keeps (a0 a1) (s : State) : Keeps 8388608 s (startLoad a0 a1 s) := by
  unfold startLoad
  try dsimp only
  repeat' (first
    | with_reducible apply Keeps.refl
    | with_reducible assumption
    | (with_reducible apply State_setImgSlot_keeps_k; decide)
    | with_reducible apply Keeps.foldl
    | (intro x a hx; beta_reduce; beta_reduce at hx)
    | with_reducible apply Keeps.foldlp
    | with_reducible apply Keeps.foldlq
    | split
    | (with_reducible apply Keeps.u8388608; decide))
theorem startLoad_keeps_k {m} {s0 : State} {a0 a1} {s : State} (e : 8388608 ||| m = m) (h : Keeps m s0 s) :
    Keeps m s0 (startLoad a0 a1 s) := h.tr ((startLoad_keeps a0 a1 s).mono e)

theorem settleBootRefused_keeps (s : State) : Keeps 103700235267 s (settleBootRefused s) := by
  unfold settleBootRefused
  try dsimp only
  repeat' (first
    | with_reducible apply Keeps.refl
    | with_reducible assumption
    | (with_reducible apply setReason_keeps_k; decide)
    | with_reducible apply Keeps.foldl
    | (intro x a hx; beta_reduce; beta_reduce at hx)
    | with_reducible apply Keeps.foldlp
    | with_reducible apply Keeps.foldlq
    | split)
theorem settleBootRefused_keeps_k {m} {s0 : State} {s : State} (e : 103700235267 ||| m = m) (h : Keeps m s0 s) :
    Keeps m s0 (settleBootRefused s) := h.tr ((settleBootRefused_keeps  s).mono e)

theorem refuseLoad_keeps (a0 a1) (s : State) : Keeps 241147577347 s (refuseLoad a0 a1 s) := by
  unfold refuseLoad
  try dsimp only
  repeat' (first
    | with_reducible apply Keeps.refl
    | with_reducible assumption
    | (with_reducible apply settleBootRefused_keeps_k; decide)
    | (with_reducible apply countLog_keeps_k; decide)
    | (with_reducible apply State_setImgSlot_keeps_k; decide)
    | with_reducible apply Keeps.foldl
    | (intro x a hx; beta_reduce; beta_reduce at hx)
    | with_reducible apply Keeps.foldlp
    | with_reducible apply Keeps.foldlq
    | split)
theorem refuseLoad_keeps_k {m} {s0 : State} {a0 a1} {s : State} (e : 241147577347 ||| m = m) (h : Keeps m s0 s) :
    Keeps m s0 (refuseLoad a0 a1 s) := h.tr ((refuseLoad_keeps a0 a1 s).mono e)

theorem startBootLoads_keeps (s : State) : Keeps 241147577347 s (startBootLoads s) := by
  unfold startBootLoads
  try dsimp only
  repeat' (first
    | with_reducible apply Keeps.refl
    | with_reducible assumption
    | (with_reducible apply refuseLoad_keeps_k; decide)
    | (with_reducible apply startLoad_keeps_k; decide)
    | with_reducible apply Keeps.foldl
    | (intro x a hx; beta_reduce; beta_reduce at hx)
    | with_reducible apply Keeps.foldlp
    | with_reducible apply Keeps.foldlq
    | split)
theorem startBootLoads_keeps_k {m} {s0 : State} {s : State} (e : 241147577347 ||| m = m) (h : Keeps m s0 s) :
    Keeps m s0 (startBootLoads s) := h.tr ((startBootLoads_keeps  s).mono e)

theorem storeImage_keeps (a0) (s : State) : Keeps 8388608 s (storeImage a0 s) := by
  unfold storeImage
  try dsimp only
  repeat' (first
    | with_reducible apply Keeps.refl
    | with_reducible assumption
    | with_reducible apply Keeps.foldl
    | (intro x a hx; beta_reduce; beta_reduce at hx)
    | with_reducible apply Keeps.foldlp
    | with_reducible apply Keeps.foldlq
    | split
    | (with_reducible apply Keeps.u8388608; decide))
theorem storeImage_keeps_k {m} {s0 : State} {a0} {s : State} (e : 8388608 ||| m = m) (h : Keeps m s0 s) :
    Keeps m s0 (storeImage a0 s) := h.tr ((storeImage_keeps a0 s).mono e)

theorem addPartition_keeps (a0 a1 a2) (s : State) : Keeps 1057874 s (addPartition a0 a1 a2 s) := by
  unfold addPartition
  try dsimp only
  repeat' (first
    | with_reducible apply Keeps.refl
    | with_reducible assumption
    | (with_reducible apply evictEntry_keeps_k; decide)
    | (with_reducible apply State_setDie_keeps_k; decide)
    | with_reducible apply Keeps.foldl
    | (intro x a hx; beta_reduce; beta_reduce at hx)
    | with_reducible apply Keeps.foldlp
    | with_reducible apply Keeps.foldlq
    | split
    | (with_reducible apply Keeps.u8192; decide))
theorem addPartition_keeps_k {m} {s0 : State} {a0 a1 a2} {s : State} (e : 1057874 ||| m = m) (h : Keeps m s0 s) :
    Keeps m s0 (addPartition a0 a1 a2 s) := h.tr ((addPartition_keeps a0 a1 a2 s).mono e)

theorem placeSection_keeps (a0 a2) (s : State) : Keeps 274877906952 s (placeSection a0 s a2) := by
  unfold placeSection
  try dsimp only
  repeat' (first
    | with_reducible apply Keeps.refl
    | with_reducible assumption
    | (with_reducible apply storeClean_keeps_k; decide)
    | with_reducible apply Keeps.foldl
    | (intro x a hx; beta_reduce; beta_reduce at hx)
    | with_reducible apply Keeps.foldlp
    | with_reducible apply Keeps.foldlq
    | split)
theorem placeSection_keeps_k {m} {s0 : State} {a0 a2} {s : State} (e : 274877906952 ||| m = m) (h : Keeps m s0 s) :
    Keeps m s0 (placeSection a0 s a2) := h.tr ((placeSection_keeps a0 a2 s).mono e)

theorem installWindows_keeps (a0 a1 a2) (s : State) : Keeps 1048576 s (installWindows a0 a1 a2 s) := by
  unfold installWindows
  try dsimp only
  repeat' (first
    | with_reducible apply Keeps.refl
    | with_reducible assumption
    | with_reducible apply Keeps.foldl
    | (intro x a hx; beta_reduce; beta_reduce at hx)
    | with_reducible apply Keeps.foldlp
    | with_reducible apply Keeps.foldlq
    | split
    | (with_reducible apply Keeps.u1048576; decide))
theorem installWindows_keeps_k {m} {s0 : State} {a0 a1 a2} {s : State} (e : 1048576 ||| m = m) (h : Keeps m s0 s) :
    Keeps m s0 (installWindows a0 a1 a2 s) := h.tr ((installWindows_keeps a0 a1 a2 s).mono e)

theorem placeImage_keeps (a0 a1 a2 a3 a4) (s : State) : Keeps 1478103934043 s (placeImage a0 a1 a2 a3 a4 s) := by
  unfold placeImage
  try dsimp only
  repeat' (first
    | with_reducible apply Keeps.refl
    | with_reducible assumption
    | (with_reducible apply writeImagePage_keeps_k; decide)
    | (with_reducible apply settleBootRefused_keeps_k; decide)
    | (with_reducible apply addPartition_keeps_k; decide)
    | (with_reducible apply settleStaging_keeps_k; decide)
    | (with_reducible apply placeSection_keeps_k; decide)
    | (with_reducible apply State_setImgSlot_keeps_k; decide)
    | (with_reducible apply installWindows_keeps_k; decide)
    | (with_reducible apply State_count_keeps_k; decide)
    | with_reducible apply Keeps.foldl
    | (intro x a hx; beta_reduce; beta_reduce at hx)
    | with_reducible apply Keeps.foldlp
    | with_reducible apply Keeps.foldlq
    | split
    | (with_reducible apply Keeps.u4718592; decide))
theorem placeImage_keeps_k {m} {s0 : State} {a0 a1 a2 a3 a4} {s : State} (e : 1478103934043 ||| m = m) (h : Keeps m s0 s) :
    Keeps m s0 (placeImage a0 a1 a2 a3 a4 s) := h.tr ((placeImage_keeps a0 a1 a2 a3 a4 s).mono e)

theorem installImage_keeps (a0 a1) (s : State) : Keeps 1478104065115 s (installImage a0 a1 s) := by
  unfold installImage
  try dsimp only
  repeat' (first
    | with_reducible apply Keeps.refl
    | with_reducible assumption
    | (with_reducible apply allocPages_keeps_eqk; decide; with_reducible assumption)
    | (with_reducible apply placeImage_keeps_k; decide)
    | with_reducible apply Keeps.foldl
    | (intro x a hx; beta_reduce; beta_reduce at hx)
    | with_reducible apply Keeps.foldlp
    | with_reducible apply Keeps.foldlq
    | split)
theorem installImage_keeps_k {m} {s0 : State} {a0 a1} {s : State} (e : 1478104065115 ||| m = m) (h : Keeps m s0 s) :
    Keeps m s0 (installImage a0 a1 s) := h.tr ((installImage_keeps a0 a1 s).mono e)

end Sys2Proof.Machine
end

