-- ==== Sys2Proof/Laws/KeepsControllers.lean ====
section
/-! SUPPORT. Keeps, for every operation of Machine/Controllers.lean that answers a state. -/

set_option linter.all false

namespace Sys2Proof.Machine

theorem tracePair_keeps (a0) (s : State) : Keeps 68719476738 s (tracePair a0 s) := by
  unfold tracePair
  try dsimp only
  repeat' (first
    | with_reducible apply Keeps.refl
    | with_reducible assumption
    | (with_reducible apply traceMake_keeps_k; decide)
    | with_reducible apply Keeps.foldl
    | (intro x a hx; beta_reduce; beta_reduce at hx)
    | with_reducible apply Keeps.foldlp
    | with_reducible apply Keeps.foldlq
    | split)
theorem tracePair_keeps_k {m} {s0 : State} {a0} {s : State} (e : 68719476738 ||| m = m) (h : Keeps m s0 s) :
    Keeps m s0 (tracePair a0 s) := h.tr ((tracePair_keeps a0 s).mono e)

theorem restorePair_keeps (a0) (s : State) : Keeps 103834452995 s (restorePair a0 s) := by
  unfold restorePair
  try dsimp only
  repeat' (first
    | with_reducible apply Keeps.refl
    | with_reducible assumption
    | (with_reducible apply tracePair_keeps_k; decide)
    | (with_reducible apply State_setObj_keeps_k; decide)
    | (with_reducible apply setReason_keeps_k; decide)
    | with_reducible apply Keeps.foldl
    | (intro x a hx; beta_reduce; beta_reduce at hx)
    | with_reducible apply Keeps.foldlp
    | with_reducible apply Keeps.foldlq
    | split
    | (with_reducible apply Keeps.u134217728; decide))
theorem restorePair_keeps_k {m} {s0 : State} {a0} {s : State} (e : 103834452995 ||| m = m) (h : Keeps m s0 s) :
    Keeps m s0 (restorePair a0 s) := h.tr ((restorePair_keeps a0 s).mono e)

theorem askDrill_keeps (s : State) : Keeps 134217728 s (askDrill s) := by
  unfold askDrill
  try dsimp only
  repeat' (first
    | with_reducible apply Keeps.refl
    | with_reducible assumption
    | with_reducible apply Keeps.foldl
    | (intro x a hx; beta_reduce; beta_reduce at hx)
    | with_reducible apply Keeps.foldlp
    | with_reducible apply Keeps.foldlq
    | split
    | (with_reducible apply Keeps.u134217728; decide))
theorem askDrill_keeps_k {m} {s0 : State} {s : State} (e : 134217728 ||| m = m) (h : Keeps m s0 s) :
    Keeps m s0 (askDrill s) := h.tr ((askDrill_keeps  s).mono e)

theorem releaseOut_keeps (a1) (s : State) : Keeps 558346798098 s (releaseOut s a1) := by
  unfold releaseOut
  try dsimp only
  repeat' (first
    | with_reducible apply Keeps.refl
    | with_reducible assumption
    | (with_reducible apply cvuReached_keeps_k; decide)
    | (with_reducible apply sendFrame_keeps_k; decide)
    | (with_reducible apply State_emit_keeps_k; decide)
    | with_reducible apply Keeps.foldl
    | (intro x a hx; beta_reduce; beta_reduce at hx)
    | with_reducible apply Keeps.foldlp
    | with_reducible apply Keeps.foldlq
    | split)
theorem releaseOut_keeps_k {m} {s0 : State} {a1} {s : State} (e : 558346798098 ||| m = m) (h : Keeps m s0 s) :
    Keeps m s0 (releaseOut s a1) := h.tr ((releaseOut_keeps a1 s).mono e)

theorem releaseAll_keeps (s : State) : Keeps 558481015826 s (releaseAll s) := by
  unfold releaseAll
  try dsimp only
  repeat' (first
    | with_reducible apply Keeps.refl
    | with_reducible assumption
    | (with_reducible apply releaseOut_keeps_k; decide)
    | with_reducible apply Keeps.foldl
    | (intro x a hx; beta_reduce; beta_reduce at hx)
    | with_reducible apply Keeps.foldlp
    | with_reducible apply Keeps.foldlq
    | split
    | (with_reducible apply Keeps.u134217728; decide))
theorem releaseAll_keeps_k {m} {s0 : State} {s : State} (e : 558481015826 ||| m = m) (h : Keeps m s0 s) :
    Keeps m s0 (releaseAll s) := h.tr ((releaseAll_keeps  s).mono e)

theorem takeOver_keeps (s : State) : Keeps 764639446034 s (takeOver s) := by
  unfold takeOver
  try dsimp only
  repeat' (first
    | with_reducible apply Keeps.refl
    | with_reducible assumption
    | (with_reducible apply tracePair_keeps_k; decide)
    | (with_reducible apply releaseAll_keeps_k; decide)
    | (with_reducible apply countLog_keeps_k; decide)
    | with_reducible apply Keeps.foldl
    | (intro x a hx; beta_reduce; beta_reduce at hx)
    | with_reducible apply Keeps.foldlp
    | with_reducible apply Keeps.foldlq
    | split
    | (with_reducible apply Keeps.u134217728; decide))
theorem takeOver_keeps_k {m} {s0 : State} {s : State} (e : 764639446034 ||| m = m) (h : Keeps m s0 s) :
    Keeps m s0 (takeOver s) := h.tr ((takeOver_keeps  s).mono e)

theorem goSimplex_keeps (a0 a1) (s : State) : Keeps 241273406467 s (goSimplex a0 a1 s) := by
  unfold goSimplex
  try dsimp only
  repeat' (first
    | with_reducible apply Keeps.refl
    | with_reducible assumption
    | (with_reducible apply logEvent_keeps_k; decide)
    | (with_reducible apply tracePair_keeps_k; decide)
    | (with_reducible apply setReason_keeps_k; decide)
    | with_reducible apply Keeps.foldl
    | (intro x a hx; beta_reduce; beta_reduce at hx)
    | with_reducible apply Keeps.foldlp
    | with_reducible apply Keeps.foldlq
    | split
    | (with_reducible apply Keeps.u134217728; decide))
theorem goSimplex_keeps_k {m} {s0 : State} {a0 a1} {s : State} (e : 241273406467 ||| m = m) (h : Keeps m s0 s) :
    Keeps m s0 (goSimplex a0 a1 s) := h.tr ((goSimplex_keeps a0 a1 s).mono e)

theorem releasePrev_keeps (s : State) : Keeps 558481015826 s (releasePrev s) := by
  unfold releasePrev
  try dsimp only
  repeat' (first
    | with_reducible apply Keeps.refl
    | with_reducible assumption
    | (with_reducible apply releaseOut_keeps_k; decide)
    | with_reducible apply Keeps.foldl
    | (intro x a hx; beta_reduce; beta_reduce at hx)
    | with_reducible apply Keeps.foldlp
    | with_reducible apply Keeps.foldlq
    | split
    | (with_reducible apply Keeps.u134217728; decide))
theorem releasePrev_keeps_k {m} {s0 : State} {s : State} (e : 558481015826 ||| m = m) (h : Keeps m s0 s) :
    Keeps m s0 (releasePrev s) := h.tr ((releasePrev_keeps  s).mono e)

theorem cycleAgrees_keeps (s : State) : Keeps 558481015826 s (cycleAgrees s) := by
  unfold cycleAgrees
  try dsimp only
  repeat' (first
    | with_reducible apply Keeps.refl
    | with_reducible assumption
    | (with_reducible apply State_setObj_keeps_k; decide)
    | (with_reducible apply State_count_keeps_k; decide)
    | (with_reducible apply releasePrev_keeps_k; decide)
    | with_reducible apply Keeps.foldl
    | (intro x a hx; beta_reduce; beta_reduce at hx)
    | with_reducible apply Keeps.foldlp
    | with_reducible apply Keeps.foldlq
    | split
    | (with_reducible apply Keeps.u134217728; decide))
theorem cycleAgrees_keeps_k {m} {s0 : State} {s : State} (e : 558481015826 ||| m = m) (h : Keeps m s0 s) :
    Keeps m s0 (cycleAgrees s) := h.tr ((cycleAgrees_keeps  s).mono e)

theorem cycleDiffers_keeps (s : State) : Keeps 799620203539 s (cycleDiffers s) := by
  unfold cycleDiffers
  try dsimp only
  repeat' (first
    | with_reducible apply Keeps.refl
    | with_reducible assumption
    | (with_reducible apply tracePair_keeps_k; decide)
    | (with_reducible apply releaseAll_keeps_k; decide)
    | (with_reducible apply countLog_keeps_k; decide)
    | (with_reducible apply State_setObj_keeps_k; decide)
    | (with_reducible apply goSimplex_keeps_k; decide)
    | (with_reducible apply State_count_keeps_k; decide)
    | with_reducible apply Keeps.foldl
    | (intro x a hx; beta_reduce; beta_reduce at hx)
    | with_reducible apply Keeps.foldlp
    | with_reducible apply Keeps.foldlq
    | split
    | (with_reducible apply Keeps.u134217728; decide))
theorem cycleDiffers_keeps_k {m} {s0 : State} {s : State} (e : 799620203539 ||| m = m) (h : Keeps m s0 s) :
    Keeps m s0 (cycleDiffers s) := h.tr ((cycleDiffers_keeps  s).mono e)

theorem cycleEnd_keeps (a0) (s : State) : Keeps 799620203539 s (cycleEnd a0 s) := by
  unfold cycleEnd
  try dsimp only
  repeat' (first
    | with_reducible apply Keeps.refl
    | with_reducible assumption
    | (with_reducible apply tracePair_keeps_k; decide)
    | (with_reducible apply takeOver_keeps_k; decide)
    | (with_reducible apply releaseAll_keeps_k; decide)
    | (with_reducible apply cycleAgrees_keeps_k; decide)
    | (with_reducible apply cycleDiffers_keeps_k; decide)
    | with_reducible apply Keeps.foldl
    | (intro x a hx; beta_reduce; beta_reduce at hx)
    | with_reducible apply Keeps.foldlp
    | with_reducible apply Keeps.foldlq
    | split
    | (with_reducible apply Keeps.u134217728; decide))
theorem cycleEnd_keeps_k {m} {s0 : State} {a0} {s : State} (e : 799620203539 ||| m = m) (h : Keeps m s0 s) :
    Keeps m s0 (cycleEnd a0 s) := h.tr ((cycleEnd_keeps a0 s).mono e)

end Sys2Proof.Machine
end

