-- ==== Sys2Proof/Laws/KeepsStates.lean ====
section
/-! SUPPORT. Keeps, for every operation of Machine/States.lean that answers a state. -/

set_option linter.all false

namespace Sys2Proof.Machine

theorem powerOn_keeps (s : State) : Keeps 103700235267 s (powerOn s) := by
  unfold powerOn
  try dsimp only
  repeat' (first
    | with_reducible apply Keeps.refl
    | with_reducible assumption
    | (with_reducible apply enterState_keeps_k; decide; first | decide | (split <;> decide))
    | with_reducible apply Keeps.foldl
    | (intro x a hx; beta_reduce; beta_reduce at hx)
    | with_reducible apply Keeps.foldlp
    | with_reducible apply Keeps.foldlq
    | split)
theorem powerOn_keeps_k {m} {s0 : State} {s : State} (e : 103700235267 ||| m = m) (h : Keeps m s0 s) :
    Keeps m s0 (powerOn s) := h.tr ((powerOn_keeps  s).mono e)

theorem startDrain_keeps (a0) (s : State) : Keeps 103700235267 s (startDrain a0 s) := by
  unfold startDrain
  try dsimp only
  repeat' (first
    | with_reducible apply Keeps.refl
    | with_reducible assumption
    | (with_reducible apply enterState_keeps_k; decide; first | decide | (split <;> decide))
    | with_reducible apply Keeps.foldl
    | (intro x a hx; beta_reduce; beta_reduce at hx)
    | with_reducible apply Keeps.foldlp
    | with_reducible apply Keeps.foldlq
    | split
    | (with_reducible apply Keeps.u67108864; decide; (first | exact id | exact fun _ => by decide | exact fun h => Memory_writeN_wf _ _ _ h | exact Nat.le_add_right _ _ | assumption | (intro h; exact h))))
theorem startDrain_keeps_k {m} {s0 : State} {a0} {s : State} (e : 103700235267 ||| m = m) (h : Keeps m s0 s) :
    Keeps m s0 (startDrain a0 s) := h.tr ((startDrain_keeps a0 s).mono e)

theorem moduleClose_keeps (a0) (s : State) : Keeps 1855430205762 s (moduleClose a0 s) := by
  unfold moduleClose
  try dsimp only
  repeat' (first
    | with_reducible apply Keeps.refl
    | with_reducible assumption
    | (with_reducible apply closeSession_keeps_k; decide)
    | (with_reducible apply modSess_keeps_k; decide)
    | (with_reducible apply cancelSession_keeps_k; decide)
    | (with_reducible apply serveSend_keeps_k; decide)
    | with_reducible apply Keeps.foldl
    | (intro x a hx; beta_reduce; beta_reduce at hx)
    | with_reducible apply Keeps.foldlp
    | with_reducible apply Keeps.foldlq
    | split)
theorem moduleClose_keeps_k {m} {s0 : State} {a0} {s : State} (e : 1855430205762 ||| m = m) (h : Keeps m s0 s) :
    Keeps m s0 (moduleClose a0 s) := h.tr ((moduleClose_keeps a0 s).mono e)

theorem closeAll_keeps (s : State) : Keeps 1855430205762 s (closeAll s) := by
  unfold closeAll
  try dsimp only
  repeat' (first
    | with_reducible apply Keeps.refl
    | with_reducible assumption
    | (with_reducible apply moduleClose_keeps_k; decide)
    | with_reducible apply Keeps.foldl
    | (intro x a hx; beta_reduce; beta_reduce at hx)
    | with_reducible apply Keeps.foldlp
    | with_reducible apply Keeps.foldlq
    | split)
theorem closeAll_keeps_k {m} {s0 : State} {s : State} (e : 1855430205762 ||| m = m) (h : Keeps m s0 s) :
    Keeps m s0 (closeAll s) := h.tr ((closeAll_keeps  s).mono e)

theorem endStreams_keeps (s : State) : Keeps 1855430205762 s (endStreams s) := by
  unfold endStreams
  try dsimp only
  repeat' (first
    | with_reducible apply Keeps.refl
    | with_reducible assumption
    | (with_reducible apply closeAll_keeps_k; decide)
    | (with_reducible apply endCtx_keeps_k; decide)
    | with_reducible apply Keeps.foldl
    | (intro x a hx; beta_reduce; beta_reduce at hx)
    | with_reducible apply Keeps.foldlp
    | with_reducible apply Keeps.foldlq
    | split)
theorem endStreams_keeps_k {m} {s0 : State} {s : State} (e : 1855430205762 ||| m = m) (h : Keeps m s0 s) :
    Keeps m s0 (endStreams s) := h.tr ((endStreams_keeps  s).mono e)

theorem restart_keeps (a0) (s : State) : Keeps 2197513306107 s (restart a0 s) := by
  unfold restart
  try dsimp only
  repeat' (first
    | with_reducible apply Keeps.refl
    | with_reducible assumption
    | (with_reducible apply settleThermal_keeps_k; decide)
    | (with_reducible apply enterState_keeps_k; decide; first | decide | (split <;> decide))
    | (with_reducible apply endStreams_keeps_k; decide)
    | (with_reducible apply railsOff_keeps_k; decide)
    | (with_reducible apply lockTest_keeps_k; decide)
    | with_reducible apply Keeps.foldl
    | (intro x a hx; beta_reduce; beta_reduce at hx)
    | with_reducible apply Keeps.foldlp
    | with_reducible apply Keeps.foldlq
    | split
    | (with_reducible apply Keeps.u4294967296; decide))
theorem restart_keeps_k {m} {s0 : State} {a0} {s : State} (e : 2197513306107 ||| m = m) (h : Keeps m s0 s) :
    Keeps m s0 (restart a0 s) := h.tr ((restart_keeps a0 s).mono e)

theorem enterService_keeps (s : State) : Keeps 103700235267 s (enterService s) := by
  unfold enterService
  try dsimp only
  repeat' (first
    | with_reducible apply Keeps.refl
    | with_reducible assumption
    | (with_reducible apply enterState_keeps_k; decide; first | decide | (split <;> decide))
    | with_reducible apply Keeps.foldl
    | (intro x a hx; beta_reduce; beta_reduce at hx)
    | with_reducible apply Keeps.foldlp
    | with_reducible apply Keeps.foldlq
    | split)
theorem enterService_keeps_k {m} {s0 : State} {s : State} (e : 103700235267 ||| m = m) (h : Keeps m s0 s) :
    Keeps m s0 (enterService s) := h.tr ((enterService_keeps  s).mono e)

theorem goServe_keeps (s : State) : Keeps 103700235267 s (goServe s) := by
  unfold goServe
  try dsimp only
  repeat' (first
    | with_reducible apply Keeps.refl
    | with_reducible assumption
    | (with_reducible apply enterState_keeps_k; decide; first | decide | (split <;> decide))
    | (with_reducible apply enterService_keeps_k; decide)
    | with_reducible apply Keeps.foldl
    | (intro x a hx; beta_reduce; beta_reduce at hx)
    | with_reducible apply Keeps.foldlp
    | with_reducible apply Keeps.foldlq
    | split)
theorem goServe_keeps_k {m} {s0 : State} {s : State} (e : 103700235267 ||| m = m) (h : Keeps m s0 s) :
    Keeps m s0 (goServe s) := h.tr ((goServe_keeps  s).mono e)

theorem serveSwitch_keeps (a0) (s : State) : Keeps 1890410964291 s (serveSwitch a0 s) := by
  unfold serveSwitch
  try dsimp only
  repeat' (first
    | with_reducible apply Keeps.refl
    | with_reducible assumption
    | (with_reducible apply closeAll_keeps_k; decide)
    | (with_reducible apply enterState_keeps_k; decide; first | decide | (split <;> decide))
    | (with_reducible apply enterService_keeps_k; decide)
    | with_reducible apply Keeps.foldl
    | (intro x a hx; beta_reduce; beta_reduce at hx)
    | with_reducible apply Keeps.foldlp
    | with_reducible apply Keeps.foldlq
    | split)
theorem serveSwitch_keeps_k {m} {s0 : State} {a0} {s : State} (e : 1890410964291 ||| m = m) (h : Keeps m s0 s) :
    Keeps m s0 (serveSwitch a0 s) := h.tr ((serveSwitch_keeps a0 s).mono e)

end Sys2Proof.Machine
end

