-- ==== Sys2Proof/Laws/KeepsConfigStore.lean ====
section
/-! SUPPORT. Keeps, for every operation of Machine/ConfigStore.lean that answers a state. -/

set_option linter.all false

namespace Sys2Proof.Machine

theorem newGeneration_keeps (a0 a1) (s : State) : Keeps 33554432 s (newGeneration a0 a1 s) := by
  unfold newGeneration
  try dsimp only
  repeat' (first
    | with_reducible apply Keeps.refl
    | with_reducible assumption
    | with_reducible apply Keeps.foldl
    | (intro x a hx; beta_reduce; beta_reduce at hx)
    | with_reducible apply Keeps.foldlp
    | with_reducible apply Keeps.foldlq
    | split
    | (with_reducible apply Keeps.u33554432; decide))
theorem newGeneration_keeps_k {m} {s0 : State} {a0 a1} {s : State} (e : 33554432 ||| m = m) (h : Keeps m s0 s) :
    Keeps m s0 (newGeneration a0 a1 s) := h.tr ((newGeneration_keeps a0 a1 s).mono e)

theorem storeEntries_keeps (a0 a1 a2) (s : State) : Keeps 68753031170 s (storeEntries a0 a1 a2 s) := by
  unfold storeEntries
  try dsimp only
  repeat' (first
    | with_reducible apply Keeps.refl
    | with_reducible assumption
    | (with_reducible apply newGeneration_keeps_k; decide)
    | (with_reducible apply traceMake_keeps_k; decide)
    | with_reducible apply Keeps.foldl
    | (intro x a hx; beta_reduce; beta_reduce at hx)
    | with_reducible apply Keeps.foldlp
    | with_reducible apply Keeps.foldlq
    | split)
theorem storeEntries_keeps_k {m} {s0 : State} {a0 a1 a2} {s : State} (e : 68753031170 ||| m = m) (h : Keeps m s0 s) :
    Keeps m s0 (storeEntries a0 a1 a2 s) := h.tr ((storeEntries_keeps a0 a1 a2 s).mono e)

end Sys2Proof.Machine
end

