-- ==== Sys2Proof/Laws/KeepsEnsemble.lean ====
section
/-! SUPPORT. Keeps, for every operation of Machine/Ensemble.lean that answers a state. -/

set_option linter.all false

namespace Sys2Proof.Machine

theorem noteItems_keeps (a0 a1) (s : State) : Keeps 206426865666 s (noteItems a0 a1 s) := by
  unfold noteItems
  try dsimp only
  repeat' (first
    | with_reducible apply Keeps.refl
    | with_reducible assumption
    | (with_reducible apply logEvent_keeps_k; decide)
    | with_reducible apply Keeps.foldl
    | (intro x a hx; beta_reduce; beta_reduce at hx)
    | with_reducible apply Keeps.foldlp
    | with_reducible apply Keeps.foldlq
    | split
    | (with_reducible apply Keeps.u268435456; decide))
theorem noteItems_keeps_k {m} {s0 : State} {a0 a1} {s : State} (e : 206426865666 ||| m = m) (h : Keeps m s0 s) :
    Keeps m s0 (noteItems a0 a1 s) := h.tr ((noteItems_keeps a0 a1 s).mono e)

theorem publish_keeps (a0 a1) (s : State) : Keeps 268435456 s (publish a0 a1 s) := by
  unfold publish
  try dsimp only
  repeat' (first
    | with_reducible apply Keeps.refl
    | with_reducible assumption
    | with_reducible apply Keeps.foldl
    | (intro x a hx; beta_reduce; beta_reduce at hx)
    | with_reducible apply Keeps.foldlp
    | with_reducible apply Keeps.foldlq
    | split
    | (with_reducible apply Keeps.u268435456; decide))
theorem publish_keeps_k {m} {s0 : State} {a0 a1} {s : State} (e : 268435456 ||| m = m) (h : Keeps m s0 s) :
    Keeps m s0 (publish a0 a1 s) := h.tr ((publish_keeps a0 a1 s).mono e)

theorem judgeRoll_keeps (s : State) : Keeps 206426865666 s (judgeRoll s) := by
  unfold judgeRoll
  try dsimp only
  repeat' (first
    | with_reducible apply Keeps.refl
    | with_reducible assumption
    | (with_reducible apply publish_keeps_k; decide)
    | (with_reducible apply noteItems_keeps_k; decide)
    | with_reducible apply Keeps.foldl
    | (intro x a hx; beta_reduce; beta_reduce at hx)
    | with_reducible apply Keeps.foldlp
    | with_reducible apply Keeps.foldlq
    | split
    | (with_reducible apply Keeps.u268435456; decide))
theorem judgeRoll_keeps_k {m} {s0 : State} {s : State} (e : 206426865666 ||| m = m) (h : Keeps m s0 s) :
    Keeps m s0 (judgeRoll s) := h.tr ((judgeRoll_keeps  s).mono e)

theorem subscribeMembers_keeps (s : State) : Keeps 549890031616 s (subscribeMembers s) := by
  unfold subscribeMembers
  try dsimp only
  repeat' (first
    | with_reducible apply Keeps.refl
    | with_reducible assumption
    | (with_reducible apply ctlEmit_keeps_k; decide)
    | with_reducible apply Keeps.foldl
    | (intro x a hx; beta_reduce; beta_reduce at hx)
    | with_reducible apply Keeps.foldlp
    | with_reducible apply Keeps.foldlq
    | split)
theorem subscribeMembers_keeps_k {m} {s0 : State} {s : State} (e : 549890031616 ||| m = m) (h : Keeps m s0 s) :
    Keeps m s0 (subscribeMembers s) := h.tr ((subscribeMembers_keeps  s).mono e)

theorem startRollCall_keeps (s : State) : Keeps 550158467072 s (startRollCall s) := by
  unfold startRollCall
  try dsimp only
  repeat' (first
    | with_reducible apply Keeps.refl
    | with_reducible assumption
    | (with_reducible apply subscribeMembers_keeps_k; decide)
    | with_reducible apply Keeps.foldl
    | (intro x a hx; beta_reduce; beta_reduce at hx)
    | with_reducible apply Keeps.foldlp
    | with_reducible apply Keeps.foldlq
    | split
    | (with_reducible apply Keeps.u268435456; decide))
theorem startRollCall_keeps_k {m} {s0 : State} {s : State} (e : 550158467072 ||| m = m) (h : Keeps m s0 s) :
    Keeps m s0 (startRollCall s) := h.tr ((startRollCall_keeps  s).mono e)

theorem dissolve_keeps (a0) (s : State) : Keeps 1890722915651 s (dissolve a0 s) := by
  unfold dissolve
  try dsimp only
  repeat' (first
    | with_reducible apply Keeps.refl
    | with_reducible assumption
    | (with_reducible apply State_setObj_keeps_k; decide)
    | (with_reducible apply forceSlot_keeps_k; decide)
    | (with_reducible apply storeEntries_keeps_k; decide)
    | (with_reducible apply goServe_keeps_k; decide)
    | with_reducible apply Keeps.foldl
    | (intro x a hx; beta_reduce; beta_reduce at hx)
    | with_reducible apply Keeps.foldlp
    | with_reducible apply Keeps.foldlq
    | split
    | (with_reducible apply Keeps.u268435456; decide))
theorem dissolve_keeps_k {m} {s0 : State} {a0} {s : State} (e : 1890722915651 ||| m = m) (h : Keeps m s0 s) :
    Keeps m s0 (dissolve a0 s) := h.tr ((dissolve_keeps a0 s).mono e)

theorem ensCommitted_keeps (s : State) : Keeps 550158467072 s (ensCommitted s) := by
  unfold ensCommitted
  try dsimp only
  repeat' (first
    | with_reducible apply Keeps.refl
    | with_reducible assumption
    | (with_reducible apply startRollCall_keeps_k; decide)
    | with_reducible apply Keeps.foldl
    | (intro x a hx; beta_reduce; beta_reduce at hx)
    | with_reducible apply Keeps.foldlp
    | with_reducible apply Keeps.foldlq
    | split
    | (with_reducible apply Keeps.u268435456; decide))
theorem ensCommitted_keeps_k {m} {s0 : State} {s : State} (e : 550158467072 ||| m = m) (h : Keeps m s0 s) :
    Keeps m s0 (ensCommitted s) := h.tr ((ensCommitted_keeps  s).mono e)

theorem stopEnsemble_keeps (s : State) : Keeps 1890679399747 s (stopEnsemble s) := by
  unfold stopEnsemble
  try dsimp only
  repeat' (first
    | with_reducible apply Keeps.refl
    | with_reducible assumption
    | (with_reducible apply logEvent_keeps_k; decide)
    | (with_reducible apply endRequests_keeps_k; decide)
    | (with_reducible apply enterState_keeps_k; decide; first | decide | (split <;> decide))
    | with_reducible apply Keeps.foldl
    | (intro x a hx; beta_reduce; beta_reduce at hx)
    | with_reducible apply Keeps.foldlp
    | with_reducible apply Keeps.foldlq
    | split
    | (with_reducible apply Keeps.u268435456; decide))
theorem stopEnsemble_keeps_k {m} {s0 : State} {s : State} (e : 1890679399747 ||| m = m) (h : Keeps m s0 s) :
    Keeps m s0 (stopEnsemble s) := h.tr ((stopEnsemble_keeps  s).mono e)

theorem detectStop_keeps (a0 a1) (s : State) : Keeps 1890679399747 s (detectStop a0 a1 s) := by
  unfold detectStop
  try dsimp only
  repeat' (first
    | with_reducible apply Keeps.refl
    | with_reducible assumption
    | (with_reducible apply stopEnsemble_keeps_k; decide)
    | (with_reducible apply publish_keeps_k; decide)
    | with_reducible apply Keeps.foldl
    | (intro x a hx; beta_reduce; beta_reduce at hx)
    | with_reducible apply Keeps.foldlp
    | with_reducible apply Keeps.foldlq
    | split
    | (with_reducible apply Keeps.u268435456; decide))
theorem detectStop_keeps_k {m} {s0 : State} {a0 a1} {s : State} (e : 1890679399747 ||| m = m) (h : Keeps m s0 s) :
    Keeps m s0 (detectStop a0 a1 s) := h.tr ((detectStop_keeps a0 a1 s).mono e)

theorem judgeHeartbeat_keeps (a0) (s : State) : Keeps 1890679399747 s (judgeHeartbeat a0 s) := by
  unfold judgeHeartbeat
  try dsimp only
  repeat' (first
    | with_reducible apply Keeps.refl
    | with_reducible assumption
    | (with_reducible apply detectStop_keeps_k; decide)
    | with_reducible apply Keeps.foldl
    | (intro x a hx; beta_reduce; beta_reduce at hx)
    | with_reducible apply Keeps.foldlp
    | with_reducible apply Keeps.foldlq
    | split
    | (with_reducible apply Keeps.u268435456; decide))
theorem judgeHeartbeat_keeps_k {m} {s0 : State} {a0} {s : State} (e : 1890679399747 ||| m = m) (h : Keeps m s0 s) :
    Keeps m s0 (judgeHeartbeat a0 s) := h.tr ((judgeHeartbeat_keeps a0 s).mono e)

theorem keepRecord_keeps (a0) (s : State) : Keeps 268435456 s (keepRecord a0 s) := by
  unfold keepRecord
  try dsimp only
  repeat' (first
    | with_reducible apply Keeps.refl
    | with_reducible assumption
    | with_reducible apply Keeps.foldl
    | (intro x a hx; beta_reduce; beta_reduce at hx)
    | with_reducible apply Keeps.foldlp
    | with_reducible apply Keeps.foldlq
    | split
    | (with_reducible apply Keeps.u268435456; decide))
theorem keepRecord_keeps_k {m} {s0 : State} {a0} {s : State} (e : 268435456 ||| m = m) (h : Keeps m s0 s) :
    Keeps m s0 (keepRecord a0 s) := h.tr ((keepRecord_keeps a0 s).mono e)

end Sys2Proof.Machine
end

