-- ==== Sys2Proof/Laws/KeepsBoot.lean ====
section
/-! SUPPORT. Keeps, for every operation of Machine/Boot.lean that answers a state. -/

set_option linter.all false

namespace Sys2Proof.Machine

theorem putValue_keeps (a0) (s : State) : Keeps 6 s (putValue a0 s) := by
  unfold putValue
  try dsimp only
  repeat' (first
    | with_reducible apply Keeps.refl
    | with_reducible assumption
    | (with_reducible apply State_setObj_keeps_k; decide)
    | (with_reducible apply State_setObjB_keeps_k; decide)
    | with_reducible apply Keeps.foldl
    | (intro x a hx; beta_reduce; beta_reduce at hx)
    | with_reducible apply Keeps.foldlp
    | with_reducible apply Keeps.foldlq
    | split)
theorem putValue_keeps_k {m} {s0 : State} {a0} {s : State} (e : 6 ||| m = m) (h : Keeps m s0 s) :
    Keeps m s0 (putValue a0 s) := h.tr ((putValue_keeps a0 s).mono e)

theorem takePort_keeps (a0) (s : State) : Keeps 262144 s (takePort a0 s) := by
  unfold takePort
  try dsimp only
  repeat' (first
    | with_reducible apply Keeps.refl
    | with_reducible assumption
    | (with_reducible apply State_setPort_keeps_k; decide)
    | with_reducible apply Keeps.foldl
    | (intro x a hx; beta_reduce; beta_reduce at hx)
    | with_reducible apply Keeps.foldlp
    | with_reducible apply Keeps.foldlq
    | split)
theorem takePort_keeps_k {m} {s0 : State} {a0} {s : State} (e : 262144 ||| m = m) (h : Keeps m s0 s) :
    Keeps m s0 (takePort a0 s) := h.tr ((takePort_keeps a0 s).mono e)

theorem takeNode_keeps (s : State) : Keeps 3670016 s (takeNode s) := by
  unfold takeNode
  try dsimp only
  repeat' (first
    | with_reducible apply Keeps.refl
    | with_reducible assumption
    | with_reducible apply Keeps.foldl
    | (intro x a hx; beta_reduce; beta_reduce at hx)
    | with_reducible apply Keeps.foldlp
    | with_reducible apply Keeps.foldlq
    | split
    | (with_reducible apply Keeps.u3670016; decide))
theorem takeNode_keeps_k {m} {s0 : State} {s : State} (e : 3670016 ||| m = m) (h : Keeps m s0 s) :
    Keeps m s0 (takeNode s) := h.tr ((takeNode_keeps  s).mono e)

theorem takeConfig_keeps (s : State) : Keeps 68740186114 s (takeConfig s) := by
  unfold takeConfig
  try dsimp only
  repeat' (first
    | with_reducible apply Keeps.refl
    | with_reducible assumption
    | (with_reducible apply takePort_keeps_k; decide)
    | (with_reducible apply settleSources_keeps_k; decide)
    | (with_reducible apply takeNode_keeps_k; decide)
    | (with_reducible apply beagleSwitch_keeps_k; decide)
    | with_reducible apply Keeps.foldl
    | (intro x a hx; beta_reduce; beta_reduce at hx)
    | with_reducible apply Keeps.foldlp
    | with_reducible apply Keeps.foldlq
    | split)
theorem takeConfig_keeps_k {m} {s0 : State} {s : State} (e : 68740186114 ||| m = m) (h : Keeps m s0 s) :
    Keeps m s0 (takeConfig s) := h.tr ((takeConfig_keeps  s).mono e)

theorem resumeBoot_keeps (s : State) : Keeps 241151247431 s (resumeBoot s) := by
  unfold resumeBoot
  try dsimp only
  repeat' (first
    | with_reducible apply Keeps.refl
    | with_reducible assumption
    | (with_reducible apply startBootLoads_keeps_k; decide)
    | (with_reducible apply wantClock_keeps_k; decide)
    | (with_reducible apply enterState_keeps_k; decide; first | decide | (split <;> decide))
    | (with_reducible apply putValue_keeps_k; decide)
    | (with_reducible apply takeConfig_keeps_k; decide)
    | with_reducible apply Keeps.foldl
    | (intro x a hx; beta_reduce; beta_reduce at hx)
    | with_reducible apply Keeps.foldlp
    | with_reducible apply Keeps.foldlq
    | split
    | (with_reducible apply Keeps.u67108864; decide; (first | exact id | exact fun _ => by decide | exact fun h => Memory_writeN_wf _ _ _ h | exact Nat.le_add_right _ _ | assumption | (intro h; exact h))))
theorem resumeBoot_keeps_k {m} {s0 : State} {s : State} (e : 241151247431 ||| m = m) (h : Keeps m s0 s) :
    Keeps m s0 (resumeBoot s) := h.tr ((resumeBoot_keeps  s).mono e)

theorem restoreCopy_keeps (a0 a1) (s : State) : Keeps 241184801863 s (restoreCopy a0 a1 s) := by
  unfold restoreCopy
  try dsimp only
  repeat' (first
    | with_reducible apply Keeps.refl
    | with_reducible assumption
    | (with_reducible apply newGeneration_keeps_k; decide)
    | (with_reducible apply resumeBoot_keeps_k; decide)
    | (with_reducible apply putValue_keeps_k; decide)
    | (with_reducible apply traceMake_keeps_k; decide)
    | with_reducible apply Keeps.foldl
    | (intro x a hx; beta_reduce; beta_reduce at hx)
    | with_reducible apply Keeps.foldlp
    | with_reducible apply Keeps.foldlq
    | split)
theorem restoreCopy_keeps_k {m} {s0 : State} {a0 a1} {s : State} (e : 241184801863 ||| m = m) (h : Keeps m s0 s) :
    Keeps m s0 (restoreCopy a0 a1 s) := h.tr ((restoreCopy_keeps a0 a1 s).mono e)

theorem dropWritten_keeps (s : State) : Keeps 6 s (dropWritten s) := by
  unfold dropWritten
  try dsimp only
  repeat' (first
    | with_reducible apply Keeps.refl
    | with_reducible assumption
    | with_reducible apply Keeps.foldl
    | (intro x a hx; beta_reduce; beta_reduce at hx)
    | with_reducible apply Keeps.foldlp
    | with_reducible apply Keeps.foldlq
    | split
    | (with_reducible apply Keeps.u6; decide))
theorem dropWritten_keeps_k {m} {s0 : State} {s : State} (e : 6 ||| m = m) (h : Keeps m s0 s) :
    Keeps m s0 (dropWritten s) := h.tr ((dropWritten_keeps  s).mono e)

theorem bootConfig_keeps (a0 a1) (s : State) : Keeps 33554438 s (bootConfig a0 a1 s) := by
  unfold bootConfig
  try dsimp only
  repeat' (first
    | with_reducible apply Keeps.refl
    | with_reducible assumption
    | (with_reducible apply putValue_keeps_k; decide)
    | (with_reducible apply dropWritten_keeps_k; decide)
    | with_reducible apply Keeps.foldl
    | (intro x a hx; beta_reduce; beta_reduce at hx)
    | with_reducible apply Keeps.foldlp
    | with_reducible apply Keeps.foldlq
    | split
    | (with_reducible apply Keeps.u33554432; decide))
theorem bootConfig_keeps_k {m} {s0 : State} {a0 a1} {s : State} (e : 33554438 ||| m = m) (h : Keeps m s0 s) :
    Keeps m s0 (bootConfig a0 a1 s) := h.tr ((bootConfig_keeps a0 a1 s).mono e)

theorem bootRails_keeps (s : State) : Keeps 2223161410 s (bootRails s) := by
  unfold bootRails
  try dsimp only
  repeat' (first
    | with_reducible apply Keeps.refl
    | with_reducible assumption
    | (with_reducible apply State_setDomain_keeps_k; decide)
    | (with_reducible apply State_setObj_keeps_k; decide)
    | with_reducible apply Keeps.foldl
    | (intro x a hx; beta_reduce; beta_reduce at hx)
    | with_reducible apply Keeps.foldlp
    | with_reducible apply Keeps.foldlq
    | split
    | (with_reducible apply Keeps.u2223128640; decide; (first | exact id | exact fun _ => by decide | exact fun h => Memory_writeN_wf _ _ _ h | exact Nat.le_add_right _ _ | assumption | (intro h; exact h))))
theorem bootRails_keeps_k {m} {s0 : State} {s : State} (e : 2223161410 ||| m = m) (h : Keeps m s0 s) :
    Keeps m s0 (bootRails s) := h.tr ((bootRails_keeps  s).mono e)

theorem bootTests_keeps (a0) (s : State) : Keeps 241139188739 s (bootTests a0 s) := by
  unfold bootTests
  try dsimp only
  repeat' (first
    | with_reducible apply Keeps.refl
    | with_reducible assumption
    | (with_reducible apply isolateUnit_keeps_k; decide)
    | (with_reducible apply State_count_keeps_k; decide)
    | with_reducible apply Keeps.foldl
    | (intro x a hx; beta_reduce; beta_reduce at hx)
    | with_reducible apply Keeps.foldlp
    | with_reducible apply Keeps.foldlq
    | split)
theorem bootTests_keeps_k {m} {s0 : State} {a0} {s : State} (e : 241139188739 ||| m = m) (h : Keeps m s0 s) :
    Keeps m s0 (bootTests a0 s) := h.tr ((bootTests_keeps a0 s).mono e)

theorem bootReasons_keeps (s : State) : Keeps 103700235267 s (bootReasons s) := by
  unfold bootReasons
  try dsimp only
  repeat' (first
    | with_reducible apply Keeps.refl
    | with_reducible assumption
    | (with_reducible apply settleHarp_keeps_k; decide)
    | (with_reducible apply settleDram_keeps_k; decide)
    | (with_reducible apply settleThermal_keeps_k; decide)
    | (with_reducible apply State_setObj_keeps_k; decide)
    | (with_reducible apply setReason_keeps_k; decide)
    | with_reducible apply Keeps.foldl
    | (intro x a hx; beta_reduce; beta_reduce at hx)
    | with_reducible apply Keeps.foldlp
    | with_reducible apply Keeps.foldlq
    | split)
theorem bootReasons_keeps_k {m} {s0 : State} {s : State} (e : 103700235267 ||| m = m) (h : Keeps m s0 s) :
    Keeps m s0 (bootReasons s) := h.tr ((bootReasons_keeps  s).mono e)

theorem bootPair_keeps (a0 a1 a2 a3) (s : State) : Keeps 206359756802 s (bootPair a0 a1 a2 a3 s) := by
  unfold bootPair
  try dsimp only
  repeat' (first
    | with_reducible apply Keeps.refl
    | with_reducible assumption
    | (with_reducible apply logEvent_keeps_k; decide)
    | with_reducible apply Keeps.foldl
    | (intro x a hx; beta_reduce; beta_reduce at hx)
    | with_reducible apply Keeps.foldlp
    | with_reducible apply Keeps.foldlq
    | split
    | (with_reducible apply Keeps.u201326592; decide; (first | exact id | exact fun _ => by decide | exact fun h => Memory_writeN_wf _ _ _ h | exact Nat.le_add_right _ _ | assumption | (intro h; exact h))))
theorem bootPair_keeps_k {m} {s0 : State} {a0 a1 a2 a3} {s : State} (e : 206359756802 ||| m = m) (h : Keeps m s0 s) :
    Keeps m s0 (bootPair a0 a1 a2 a3 s) := h.tr ((bootPair_keeps a0 a1 a2 a3 s).mono e)

end Sys2Proof.Machine
end

