-- ==== Sys2Proof/Laws/KeepsDictionary.lean ====
section
/-! SUPPORT. Keeps, for every operation of Machine/Dictionary.lean that answers a state. -/

set_option linter.all false

namespace Sys2Proof.Machine

theorem noteRequest_keeps (a0) (s : State) : Keeps 33554432 s (noteRequest a0 s) := by
  unfold noteRequest
  try dsimp only
  repeat' (first
    | with_reducible apply Keeps.refl
    | with_reducible assumption
    | with_reducible apply Keeps.foldl
    | (intro x a hx; beta_reduce; beta_reduce at hx)
    | with_reducible apply Keeps.foldlp
    | with_reducible apply Keeps.foldlq
    | split
    | (with_reducible apply Keeps.u33554432; decide))
theorem noteRequest_keeps_k {m} {s0 : State} {a0} {s : State} (e : 33554432 ||| m = m) (h : Keeps m s0 s) :
    Keeps m s0 (noteRequest a0 s) := h.tr ((noteRequest_keeps a0 s).mono e)

theorem dictAdmit_keeps_k {m} {s0 : State} {msg : Nat} {r : DictHdr} {op : State → State} {s : State} (e : 1649435213826 ||| m = m)
    (hop : ∀ x, Keeps m s0 x → Keeps m s0 (op x)) (h : Keeps m s0 s) : Keeps m s0 (dictAdmit msg r op s) := by
  have hn : Keeps m s0 (noteRequest r s) := h.tr ((noteRequest_keeps r s).mono (show 33554432 ||| m = m by rw [← e]; simp only [← Nat.or_assoc]; rfl))
  unfold dictAdmit
  dsimp only
  split
  · exact h
  split
  · exact h.tr ((Keeps.u33554432 (by decide) (Keeps.refl _ _) : Keeps 1649435213826 _ _).mono e)
  split
  · exact h.tr ((State_count_keeps _ _ _).mono (show 2 ||| m = m by rw [← e]; simp only [← Nat.or_assoc]; rfl))
  split
  · exact hn.tr (((respond_keeps _ _ _ _).mono (by decide) : Keeps 1649435213826 _ _).mono e)
  split
  · refine hn.tr (Keeps.mono (m := 1649435213826) ?_ e)
    exact ((respondAt_keeps _ _ _ _ _).mono (by decide)).tr ((State_drawn_keeps _ _).mono (by decide))
  · exact hop _ hn

theorem answerCode_keeps (a0 a1 a2) (s : State) : Keeps 549890031616 s (answerCode a0 a1 a2 s) := by
  unfold answerCode
  try dsimp only
  repeat' (first
    | with_reducible apply Keeps.refl
    | with_reducible assumption
    | (with_reducible apply respond_keeps_k; decide)
    | with_reducible apply Keeps.foldl
    | (intro x a hx; beta_reduce; beta_reduce at hx)
    | with_reducible apply Keeps.foldlp
    | with_reducible apply Keeps.foldlq
    | split)
theorem answerCode_keeps_k {m} {s0 : State} {a0 a1 a2} {s : State} (e : 549890031616 ||| m = m) (h : Keeps m s0 s) :
    Keeps m s0 (answerCode a0 a1 a2 s) := h.tr ((answerCode_keeps a0 a1 a2 s).mono e)

theorem dictRead_keeps (a0 a1 a2 a3 a4) (s : State) : Keeps 1649401659392 s (dictRead a0 a1 a2 a3 a4 s) := by
  unfold dictRead
  try dsimp only
  repeat' (first
    | with_reducible apply Keeps.refl
    | with_reducible assumption
    | (with_reducible apply respond_keeps_k; decide)
    | (with_reducible apply answerCode_keeps_k; decide)
    | (with_reducible apply State_drawn_keeps_k; decide)
    | with_reducible apply Keeps.foldl
    | (intro x a hx; beta_reduce; beta_reduce at hx)
    | with_reducible apply Keeps.foldlp
    | with_reducible apply Keeps.foldlq
    | split)
theorem dictRead_keeps_k {m} {s0 : State} {a0 a1 a2 a3 a4} {s : State} (e : 1649401659392 ||| m = m) (h : Keeps m s0 s) :
    Keeps m s0 (dictRead a0 a1 a2 a3 a4 s) := h.tr ((dictRead_keeps a0 a1 a2 a3 a4 s).mono e)

theorem dictSubscribe_keeps (a0 a1 a2 a3 a4) (s : State) : Keeps 549923586048 s (dictSubscribe a0 a1 a2 a3 a4 s) := by
  unfold dictSubscribe
  try dsimp only
  repeat' (first
    | with_reducible apply Keeps.refl
    | with_reducible assumption
    | (with_reducible apply answerCode_keeps_k; decide)
    | with_reducible apply Keeps.foldl
    | (intro x a hx; beta_reduce; beta_reduce at hx)
    | with_reducible apply Keeps.foldlp
    | with_reducible apply Keeps.foldlq
    | split
    | (with_reducible apply Keeps.u33554432; decide))
theorem dictSubscribe_keeps_k {m} {s0 : State} {a0 a1 a2 a3 a4} {s : State} (e : 549923586048 ||| m = m) (h : Keeps m s0 s) :
    Keeps m s0 (dictSubscribe a0 a1 a2 a3 a4 s) := h.tr ((dictSubscribe_keeps a0 a1 a2 a3 a4 s).mono e)

end Sys2Proof.Machine
end

