-- ==== Sys2Proof/Laws/KeepsWrites.lean ====
section
/-! SUPPORT. Keeps, for every operation of Machine/Writes.lean that answers a state. -/

set_option linter.all false

namespace Sys2Proof.Machine

theorem actDevice_keeps (a0 a1 a2 a3) (s : State) : Keeps 2197949513723 s (actDevice a0 a1 a2 a3 s) := by
  unfold actDevice
  try dsimp only
  repeat' (first
    | with_reducible apply Keeps.refl
    | with_reducible assumption
    | (with_reducible apply restart_keeps_k; decide)
    | (with_reducible apply powerOn_keeps_k; decide)
    | (with_reducible apply startDrain_keeps_k; decide)
    | (with_reducible apply setSeconds_keeps_k; decide)
    | (with_reducible apply startRollCall_keeps_k; decide)
    | (with_reducible apply askDrill_keeps_k; decide)
    | (with_reducible apply restorePair_keeps_k; decide)
    | (with_reducible apply dissolve_keeps_k; decide)
    | (with_reducible apply State_drawn_keeps_k; decide)
    | with_reducible apply Keeps.foldl
    | (intro x a hx; beta_reduce; beta_reduce at hx)
    | with_reducible apply Keeps.foldlp
    | with_reducible apply Keeps.foldlq
    | split)
theorem actDevice_keeps_k {m} {s0 : State} {a0 a1 a2 a3} {s : State} (e : 2197949513723 ||| m = m) (h : Keeps m s0 s) :
    Keeps m s0 (actDevice a0 a1 a2 a3 s) := h.tr ((actDevice_keeps a0 a1 a2 a3 s).mono e)

theorem stagedState_keeps (a0) (s : State) : Keeps 6 s (stagedState a0 s) := by
  unfold stagedState
  try dsimp only
  repeat' (first
    | with_reducible apply Keeps.refl
    | with_reducible assumption
    | (with_reducible apply putValue_keeps_k; decide)
    | with_reducible apply Keeps.foldl
    | (intro x a hx; beta_reduce; beta_reduce at hx)
    | with_reducible apply Keeps.foldlp
    | with_reducible apply Keeps.foldlq
    | split)
theorem stagedState_keeps_k {m} {s0 : State} {a0} {s : State} (e : 6 ||| m = m) (h : Keeps m s0 s) :
    Keeps m s0 (stagedState a0 s) := h.tr ((stagedState_keeps a0 s).mono e)

theorem switchRetriever_keeps (a0) (s : State) : Keeps 2097152 s (switchRetriever a0 s) := by
  unfold switchRetriever
  try dsimp only
  repeat' (first
    | with_reducible apply Keeps.refl
    | with_reducible assumption
    | with_reducible apply Keeps.foldl
    | (intro x a hx; beta_reduce; beta_reduce at hx)
    | with_reducible apply Keeps.foldlp
    | with_reducible apply Keeps.foldlq
    | split
    | (with_reducible apply Keeps.u2097152; decide))
theorem switchRetriever_keeps_k {m} {s0 : State} {a0} {s : State} (e : 2097152 ||| m = m) (h : Keeps m s0 s) :
    Keeps m s0 (switchRetriever a0 s) := h.tr ((switchRetriever_keeps a0 s).mono e)

theorem afterValue_keeps (a0 a1) (s : State) : Keeps 1890414634323 s (afterValue a0 a1 s) := by
  unfold afterValue
  try dsimp only
  repeat' (first
    | with_reducible apply Keeps.refl
    | with_reducible assumption
    | (with_reducible apply State_setPort_keeps_k; decide)
    | (with_reducible apply wantClock_keeps_k; decide)
    | (with_reducible apply settleSources_keeps_k; decide)
    | (with_reducible apply serveSwitch_keeps_k; decide)
    | (with_reducible apply reacquireFabric_keeps_k; decide)
    | (with_reducible apply portFalls_keeps_k; decide)
    | (with_reducible apply switchRetriever_keeps_k; decide)
    | (with_reducible apply beagleSwitch_keeps_k; decide)
    | (with_reducible apply lockTest_keeps_k; decide)
    | with_reducible apply Keeps.foldl
    | (intro x a hx; beta_reduce; beta_reduce at hx)
    | with_reducible apply Keeps.foldlp
    | with_reducible apply Keeps.foldlq
    | split
    | (with_reducible apply Keeps.u524288; decide))
theorem afterValue_keeps_k {m} {s0 : State} {a0 a1} {s : State} (e : 1890414634323 ||| m = m) (h : Keeps m s0 s) :
    Keeps m s0 (afterValue a0 a1 s) := h.tr ((afterValue_keeps a0 a1 s).mono e)

theorem actTest_keeps (a0 a1 a2) (s : State) : Keeps 259308913666 s (actTest a0 a1 a2 s) := by
  unfold actTest
  try dsimp only
  repeat' (first
    | with_reducible apply Keeps.refl
    | with_reducible assumption
    | (with_reducible apply fiApplyDo_keeps_k; decide)
    | (with_reducible apply stopInjection_keeps_k; decide)
    | (with_reducible apply unlockTest_keeps_k; decide)
    | (with_reducible apply beagleEmpty_keeps_k; decide)
    | (with_reducible apply logEmpty_keeps_k; decide)
    | (with_reducible apply sfiApplyDo_keeps_k; decide)
    | (with_reducible apply queueKat_keeps_k; decide)
    | (with_reducible apply lockTest_keeps_k; decide)
    | with_reducible apply Keeps.foldl
    | (intro x a hx; beta_reduce; beta_reduce at hx)
    | with_reducible apply Keeps.foldlp
    | with_reducible apply Keeps.foldlq
    | split)
theorem actTest_keeps_k {m} {s0 : State} {a0 a1 a2} {s : State} (e : 259308913666 ||| m = m) (h : Keeps m s0 s) :
    Keeps m s0 (actTest a0 a1 a2 s) := h.tr ((actTest_keeps a0 a1 a2 s).mono e)

theorem actImage_keeps (a0 a1 a2 a3) (s : State) : Keeps 1890420925763 s (actImage a0 a1 a2 a3 s) := by
  unfold actImage
  try dsimp only
  repeat' (first
    | with_reducible apply Keeps.refl
    | with_reducible assumption
    | (with_reducible apply forceSlot_keeps_k; decide)
    | (with_reducible apply drainSlot_keeps_k; decide)
    | (with_reducible apply installRoutes_keeps_k; decide)
    | (with_reducible apply startLoad_keeps_k; decide)
    | (with_reducible apply storeImage_keeps_k; decide)
    | with_reducible apply Keeps.foldl
    | (intro x a hx; beta_reduce; beta_reduce at hx)
    | with_reducible apply Keeps.foldlp
    | with_reducible apply Keeps.foldlq
    | split)
theorem actImage_keeps_k {m} {s0 : State} {a0 a1 a2 a3} {s : State} (e : 1890420925763 ||| m = m) (h : Keeps m s0 s) :
    Keeps m s0 (actImage a0 a1 a2 a3 s) := h.tr ((actImage_keeps a0 a1 a2 a3 s).mono e)

theorem actLight_keeps (a0 a1) (s : State) : Keeps 1894715486067 s (actLight a0 a1 s) := by
  unfold actLight
  try dsimp only
  repeat' (first
    | with_reducible apply Keeps.refl
    | with_reducible assumption
    | (with_reducible apply State_setDomain_keeps_k; decide)
    | (with_reducible apply requestSpare_keeps_k; decide)
    | (with_reducible apply enterString_keeps_k; decide)
    | (with_reducible apply commitArb_keeps_k; decide)
    | (with_reducible apply State_setTile_keeps_k; decide)
    | (with_reducible apply State_setStr_keeps_k; decide)
    | (with_reducible apply clearSite_keeps_k; decide)
    | (with_reducible apply State_setHarp_keeps_k; decide)
    | with_reducible apply Keeps.foldl
    | (intro x a hx; beta_reduce; beta_reduce at hx)
    | with_reducible apply Keeps.foldlp
    | with_reducible apply Keeps.foldlq
    | split
    | (with_reducible apply Keeps.u65536; decide)
    | (with_reducible apply Keeps.u67108864; decide; (first | exact id | exact fun _ => by decide | exact fun h => Memory_writeN_wf _ _ _ h | exact Nat.le_add_right _ _ | assumption | (intro h; exact h)))
    | (with_reducible apply Keeps.u67174400; decide; (first | exact id | exact fun _ => by decide | exact fun h => Memory_writeN_wf _ _ _ h | exact Nat.le_add_right _ _ | assumption | (intro h; exact h))))
theorem actLight_keeps_k {m} {s0 : State} {a0 a1} {s : State} (e : 1894715486067 ||| m = m) (h : Keeps m s0 s) :
    Keeps m s0 (actLight a0 a1 s) := h.tr ((actLight_keeps a0 a1 s).mono e)

theorem applyObj_keeps (a0 a1 a2 a3) (s : State) : Keeps 2199023255551 s (applyObj a0 a1 a2 a3 s) := by
  unfold applyObj
  try dsimp only
  repeat' (first
    | with_reducible apply Keeps.refl
    | with_reducible assumption
    | (with_reducible apply actDevice_keeps_k; decide)
    | (with_reducible apply actLight_keeps_k; decide)
    | (with_reducible apply actTest_keeps_k; decide)
    | (with_reducible apply putValue_keeps_k; decide)
    | (with_reducible apply actImage_keeps_k; decide)
    | (with_reducible apply afterValue_keeps_k; decide)
    | with_reducible apply Keeps.foldl
    | (intro x a hx; beta_reduce; beta_reduce at hx)
    | with_reducible apply Keeps.foldlp
    | with_reducible apply Keeps.foldlq
    | split)
theorem applyObj_keeps_k {m} {s0 : State} {a0 a1 a2 a3} {s : State} (e : 2199023255551 ||| m = m) (h : Keeps m s0 s) :
    Keeps m s0 (applyObj a0 a1 a2 a3 s) := h.tr ((applyObj_keeps a0 a1 a2 a3 s).mono e)

theorem applySet_keeps (a0 a1 a2) (s : State) : Keeps 2199023255551 s (applySet a0 a1 a2 s) := by
  unfold applySet
  try dsimp only
  repeat' (first
    | with_reducible apply Keeps.refl
    | with_reducible assumption
    | (with_reducible apply resumeBoot_keeps_k; decide)
    | (with_reducible apply applyObj_keeps_k; decide)
    | (with_reducible apply storeEntries_keeps_k; decide)
    | (with_reducible apply ensCommitted_keeps_k; decide)
    | with_reducible apply Keeps.foldl
    | (intro x a hx; beta_reduce; beta_reduce at hx)
    | with_reducible apply Keeps.foldlp
    | with_reducible apply Keeps.foldlq
    | split
    | (with_reducible apply Keeps.u1048576; decide))
theorem applySet_keeps_k {m} {s0 : State} {a0 a1 a2} {s : State} (e : 2199023255551 ||| m = m) (h : Keeps m s0 s) :
    Keeps m s0 (applySet a0 a1 a2 s) := h.tr ((applySet_keeps a0 a1 a2 s).mono e)

theorem writeWhole_keeps (a0 a1 a2 a3 a4) (s : State) : Keeps 2199023255551 s (writeWhole a0 a1 a2 a3 a4 s) := by
  unfold writeWhole
  try dsimp only
  repeat' (first
    | with_reducible apply Keeps.refl
    | with_reducible assumption
    | (with_reducible apply applyObj_keeps_k; decide)
    | (with_reducible apply answerWrite_keeps_k; decide)
    | (with_reducible apply restoreCopy_keeps_k; decide)
    | (with_reducible apply applySet_keeps_k; decide)
    | with_reducible apply Keeps.foldl
    | (intro x a hx; beta_reduce; beta_reduce at hx)
    | with_reducible apply Keeps.foldlp
    | with_reducible apply Keeps.foldlq
    | split
    | (with_reducible apply Keeps.u33554432; decide))
theorem writeWhole_keeps_k {m} {s0 : State} {a0 a1 a2 a3 a4} {s : State} (e : 2199023255551 ||| m = m) (h : Keeps m s0 s) :
    Keeps m s0 (writeWhole a0 a1 a2 a3 a4 s) := h.tr ((writeWhole_keeps a0 a1 a2 a3 a4 s).mono e)

theorem takeSegment_keeps {r : DictHdr} {k : Nat} {w : WReq} {s t : State}
    (h : takeSegment r k w s = .more t ∨ ∃ b, takeSegment r k w s = .whole b t) : Keeps 33554432 s t := by
  unfold takeSegment at h
  dsimp only at h
  repeat' split at h
  all_goals first
    | (exfalso; rcases h with h | ⟨b, h⟩ <;> cases h; done)
    | (rcases h with h | ⟨b, h⟩ <;> cases h <;> first | exact Keeps.refl _ _ | exact Keeps.u33554432 (by decide) (Keeps.refl _ _))
theorem dictWrite_keeps (k : Nat) (w : WReq) (x : WAux) (s : State) : Keeps 2199023255551 s (dictWrite k w x s) := by
  unfold dictWrite
  dsimp only
  generalize ho : openCodeOf s w.hdr k w = c
  split
  · exact (answerWrite_keeps _ _ _).mono (by decide)
  · generalize ht : takeSegment w.hdr k w s = y
    cases y with
    | bad => exact (Keeps.u33554432 (by decide) (Keeps.refl 2199023255551 s)).tr ((answerWrite_keeps _ _ _).mono (by decide))
    | more t => exact ((takeSegment_keeps (.inl ht)).mono (by decide)).tr ((answerWrite_keeps _ _ _).mono (by decide))
    | whole b t =>
      refine ((takeSegment_keeps (.inr ⟨b, ht⟩)).mono (by decide)).tr ?_
      dsimp only
      split
      · exact (answerWrite_keeps _ _ _).mono (by decide)
      · exact (writeWhole_keeps _ _ _ _ _ _).mono (by decide)
theorem dictWrite_keeps_k {m} {s0 : State} {k : Nat} {w : WReq} {x : WAux} {s : State} (e : 2199023255551 ||| m = m) (h : Keeps m s0 s) :
    Keeps m s0 (dictWrite k w x s) := h.tr ((dictWrite_keeps k w x s).mono e)

theorem writeMessage_keeps (k : Nat) (w : WReq) (x : WAux) (s : State) : Keeps 2199023255551 s (writeMessage k w x s) := by
  unfold writeMessage
  refine dictAdmit_keeps_k (by decide) (fun y hy => ?_) (Keeps.refl _ _)
  exact hy.tr (dictWrite_keeps k w x y)
theorem writeMessage_keeps_k {m} {s0 : State} {k : Nat} {w : WReq} {x : WAux} {s : State} (e : 2199023255551 ||| m = m) (h : Keeps m s0 s) :
    Keeps m s0 (writeMessage k w x s) := h.tr ((writeMessage_keeps k w x s).mono e)

theorem answerStage_keeps (a0 a1) (s : State) : Keeps 549890031616 s (answerStage a0 a1 s) := by
  unfold answerStage
  try dsimp only
  repeat' (first
    | with_reducible apply Keeps.refl
    | with_reducible assumption
    | (with_reducible apply respond_keeps_k; decide)
    | with_reducible apply Keeps.foldl
    | (intro x a hx; beta_reduce; beta_reduce at hx)
    | with_reducible apply Keeps.foldlp
    | with_reducible apply Keeps.foldlq
    | split)
theorem answerStage_keeps_k {m} {s0 : State} {a0 a1} {s : State} (e : 549890031616 ||| m = m) (h : Keeps m s0 s) :
    Keeps m s0 (answerStage a0 a1 s) := h.tr ((answerStage_keeps a0 a1 s).mono e)

theorem Keeps.ite {m} {s : State} {p : Prop} [Decidable p] {a b : State} (ha : Keeps m s a) (hb : Keeps m s b) :
    Keeps m s (if p then a else b) := by
  split
  · exact ha
  · exact hb
theorem dictStage_keeps (k : Nat) (w : WReq) (s : State) : Keeps 549923586048 s (dictStage k w s) := by
  have ha (h : DictHdr) (c : Nat) (x : State) : Keeps 549923586048 x (answerStage h c x) := (answerStage_keeps _ _ _).mono (by decide)
  unfold dictStage
  dsimp only
  refine Keeps.ite (ha _ _ _) (Keeps.ite (ha _ _ _) ?_)
  generalize ht : takeSegment w.hdr (2 ^ 24 + k) w s = y
  cases y with
  | bad => exact (Keeps.u33554432 (by decide) (Keeps.refl 549923586048 s)).tr (ha _ _ _)
  | more t => exact ((takeSegment_keeps (.inl ht)).mono (by decide)).tr (ha _ _ _)
  | whole b t =>
    refine ((takeSegment_keeps (.inr ⟨b, ht⟩)).mono (by decide)).tr ?_
    dsimp only
    refine Keeps.ite (ha _ _ _) (Keeps.ite (ha _ _ _) (Keeps.ite (ha _ _ _) ?_))
    exact (Keeps.u33554432 (by decide) (Keeps.refl 549923586048 t)).tr (ha _ _ _)
theorem dictStage_keeps_k {m} {s0 : State} {k : Nat} {w : WReq} {s : State} (e : 549923586048 ||| m = m) (h : Keeps m s0 s) :
    Keeps m s0 (dictStage k w s) := h.tr ((dictStage_keeps k w s).mono e)

theorem answerCalibration_keeps (a0 a1) (s : State) : Keeps 549755813888 s (answerCalibration a0 a1 s) := by
  unfold answerCalibration
  try dsimp only
  repeat' (first
    | with_reducible apply Keeps.refl
    | with_reducible assumption
    | (with_reducible apply State_emit_keeps_k; decide)
    | with_reducible apply Keeps.foldl
    | (intro x a hx; beta_reduce; beta_reduce at hx)
    | with_reducible apply Keeps.foldlp
    | with_reducible apply Keeps.foldlq
    | split)
theorem answerCalibration_keeps_k {m} {s0 : State} {a0 a1} {s : State} (e : 549755813888 ||| m = m) (h : Keeps m s0 s) :
    Keeps m s0 (answerCalibration a0 a1 s) := h.tr ((answerCalibration_keeps a0 a1 s).mono e)

theorem calibrationWrite_keeps (a0 a1) (s : State) : Keeps 550292684802 s (calibrationWrite a0 a1 s) := by
  unfold calibrationWrite
  try dsimp only
  repeat' (first
    | with_reducible apply Keeps.refl
    | with_reducible assumption
    | (with_reducible apply answerCalibration_keeps_k; decide)
    | (with_reducible apply State_setObj_keeps_k; decide)
    | with_reducible apply Keeps.foldl
    | (intro x a hx; beta_reduce; beta_reduce at hx)
    | with_reducible apply Keeps.foldlp
    | with_reducible apply Keeps.foldlq
    | split
    | (with_reducible apply Keeps.u536870912; decide))
theorem calibrationWrite_keeps_k {m} {s0 : State} {a0 a1} {s : State} (e : 550292684802 ||| m = m) (h : Keeps m s0 s) :
    Keeps m s0 (calibrationWrite a0 a1 s) := h.tr ((calibrationWrite_keeps a0 a1 s).mono e)

theorem answerCommit_keeps (a0 a1 a2) (s : State) : Keeps 549890031616 s (answerCommit a0 a1 a2 s) := by
  unfold answerCommit
  try dsimp only
  repeat' (first
    | with_reducible apply Keeps.refl
    | with_reducible assumption
    | (with_reducible apply respond_keeps_k; decide)
    | with_reducible apply Keeps.foldl
    | (intro x a hx; beta_reduce; beta_reduce at hx)
    | with_reducible apply Keeps.foldlp
    | with_reducible apply Keeps.foldlq
    | split)
theorem answerCommit_keeps_k {m} {s0 : State} {a0 a1 a2} {s : State} (e : 549890031616 ||| m = m) (h : Keeps m s0 s) :
    Keeps m s0 (answerCommit a0 a1 a2 s) := h.tr ((answerCommit_keeps a0 a1 a2 s).mono e)

theorem dictCommit_keeps (a0 a1 a2) (s : State) : Keeps 2199023255551 s (dictCommit a0 a1 a2 s) := by
  unfold dictCommit
  try dsimp only
  repeat' (first
    | with_reducible apply Keeps.refl
    | with_reducible assumption
    | (with_reducible apply answerCommit_keeps_k; decide)
    | (with_reducible apply applySet_keeps_k; decide)
    | with_reducible apply Keeps.foldl
    | (intro x a hx; beta_reduce; beta_reduce at hx)
    | with_reducible apply Keeps.foldlp
    | with_reducible apply Keeps.foldlq
    | split
    | (with_reducible apply Keeps.u33554432; decide))
theorem dictCommit_keeps_k {m} {s0 : State} {a0 a1 a2} {s : State} (e : 2199023255551 ||| m = m) (h : Keeps m s0 s) :
    Keeps m s0 (dictCommit a0 a1 a2 s) := h.tr ((dictCommit_keeps a0 a1 a2 s).mono e)

end Sys2Proof.Machine
end

