-- ==== Sys2Proof/WellFormed.lean ====
section
/-! DEFINITION. Well-formed commands: the operand values that the spec's encodings and unit numbers allow. The meanings are
total: they do not assume it. -/

namespace Sys2Proof

/-- A message body holds at most 1,400 bytes, 16 of them the header of a WRITE or STAGE (R280, R281); its segment lies
within the value it is part of, and both fit their 32-bit fields. -/
def WReq.wf (w : WReq) : Bool :=
  decide (w.data.length ≤ 1384) && decide (w.offset + w.data.length ≤ w.total) && decide (w.total < 2 ^ 32)

/-- A lightbed frame carries at most 64 payload bytes (R128). -/
def Frame.wf (f : Frame) : Bool := decide (f.payload.length ≤ 64)

/-- A fabric packet carries at most 4,096 payload bytes (R198). -/
def Packet.wf (p : Packet) : Bool := decide (p.payload.length ≤ 4096)

/-- A serving record's body holds at most 8,192 bytes (R240). -/
def Dgram.wf (d : Dgram) : Bool := decide (d.body.length ≤ 8192)

/-- Kinds 0x00 and 0x0B to 0xFF are reserved (R241). -/
def isReservedKind (k : Byte) : Bool := k == 0 || decide (0x0A < k.toNat)

/-- A gateway message's payload: 4,096 bytes of READ_DATA, 4,608 of FLUSH, none of READ, FLUSH_ACK and IDLE (R234). -/
def GwMsg.wf (m : GwMsg) : Bool :=
  if m.kind = 4 then decide (m.payload.length = 4096)
  else if m.kind = 5 then decide (m.payload.length = 4608)
  else if m.kind = 3 ∨ m.kind = 6 ∨ m.kind = 7 then m.payload.isEmpty
  else true

/-- A measured lane is a line of a string that exists (R125, R127). -/
def LaneMeas.wf (m : LaneMeas) : Bool := decide (m.string < 1126) && decide (m.line < 17)

/-- A hub check-value unit is reached by an agent of R347: 29 serving front end to 32 image loader. -/
def CvuRef.wf : CvuRef → Bool
  | .whippet _ => true
  | .hub _ agent => decide (29 ≤ agent) && decide (agent ≤ 32)

/-- A training record's fields fit their bytes, and its port exists (R188, R191). -/
def TrainRec.wf (r : TrainRec) : Bool :=
  decide (r.agreed < 256) && decide (r.level < 256) && decide (r.lowest < 256) && decide (r.port < 16) && decide (r.width < 256) && decide (r.height < 256)

/-- A stamp is 10 bytes (R261). -/
def SyncRec.wf (r : SyncRec) : Bool := decide (r.t1 < 2 ^ 80) && decide (r.t2 < 2 ^ 80) && decide (r.t3 < 2 ^ 80)

/-- A TALLY's tenants are numbers 0 to 4,095 (R240, R309). -/
def Tally.wf (m : Tally) : Bool := m.entries.all (fun e => decide (e.tenant.toNat < 4096))

/-- An image has 1 to 4,096 sections (R250). -/
def Image.wf (i : Image) : Bool := decide (1 ≤ i.sections.length) && decide (i.sections.length ≤ 4096)

/-- A READ asks for 1 to 1,376 bytes (R281). -/
def ReadTarget.wf : ReadTarget → Bool
  | .object _ _ _ _ _ max => decide (1 ≤ max) && decide (max ≤ 1376)
  | .cvu u _ => u.wf

/-- What a REGISTER_WRITE names is well formed. -/
def WriteTarget.wf : WriteTarget → Bool
  | .object _ _ w => w.wf
  | .cvu u _ _ => u.wf
  | .calibration _ _ w => w.wf

/-- A command whose operands the spec's encodings and unit numbers allow: one arm for each constructor. A taker or thief is a
Matrix Core (0 to 63) or a Whippet (64 to 319); a victim is the queue of a core (0 to 63) or of a die's Whippets (64 to 79); an arbiter is one of the 162 of R120, its requesters 0 to 32; a cartridge and
a ring see the 17 lines of R127. -/
def Instr.wf (c : Instr) : Bool :=
  match c with
  | .isolationClear w => w.wf
  | .windowSelect _ _ => true
  | .slotCutoff _ => true
  | .windowLaunch _ => true
  | .noOperation _ => true
  | .mark _ => true
  | .panel _ _ _ _ => true
  | .rows _ _ _ _ _ => true
  | .vload _ _ _ _ _ => true
  | .astore _ _ _ _ _ _ _ => true
  | .vstore _ _ _ _ _ => true
  | .mma _ _ _ _ _ _ _ => true
  | .mmz _ _ _ _ _ _ _ => true
  | .aclr _ _ _ _ _ _ => true
  | .vnop _ => true
  | .vadd _ _ _ _ => true
  | .vsub _ _ _ _ => true
  | .vmul _ _ _ _ => true
  | .vfma _ _ _ _ _ => true
  | .vmax _ _ _ _ => true
  | .vmin _ _ _ _ => true
  | .vexp2 _ _ _ => true
  | .vlog2 _ _ _ => true
  | .vrcp _ _ _ => true
  | .vrsqrt _ _ _ => true
  | .vrsum _ _ _ => true
  | .vrmax _ _ _ => true
  | .vbcast _ _ _ _ => true
  | .vsel _ _ _ _ _ => true
  | .vcvt _ _ _ _ _ _ => true
  | .acc2v _ _ _ => true
  | .viadd _ _ _ _ => true
  | .vcvti _ _ _ => true
  | .vcvtf _ _ _ => true
  | .vl8mul _ _ _ _ => true
  | .vl8enc _ _ _ => true
  | .vl8dec _ _ _ => true
  | .send _ _ _ _ _ _ => true
  | .rsend _ _ _ _ _ _ => true
  | .barrier _ _ _ => true
  | .barrierCheck _ _ => true
  | .flagSet _ _ _ _ => true
  | .flagCheck _ _ _ => true
  | .beatWait _ _ => true
  | .beatWaitEnd _ => true
  | .loop _ _ _ => true
  | .kernelEnd _ => true
  | .drainEnd _ => true
  | .endNotice _ => true
  | .declaredTicksExpiry _ => true
  | .lwWatchdogExpiry _ => true
  | .workItemRerun _ => true
  | .governorInterval _ _ => true
  | .mcClockMhz w => w.wf
  | .ballastEnable w => w.wf
  | .stepInstantiate _ => true
  | .workItemTake _ taker victim => decide (taker < 320) && decide (victim < 80)
  | .workItemComplete _ => true
  | .stealAttempt thief => decide (thief < 320)
  | .stealBackoffExpiry thief => decide (thief < 320)
  | .tokenizer _ _ _ => true
  | .sampler _ _ => true
  | .draftExecutor _ _ _ => true
  | .treeBuilder _ _ => true
  | .detokenizer _ _ => true
  | .prefixHasher _ _ _ => true
  | .housekeeping _ => true
  | .arbiterDecision arb cand => decide (arb < 162) && (cand.all (fun r => decide (r < 33)))
  | .arbCommit w => w.wf
  | .scrubPass _ _ => true
  | .cacheAccess _ _ _ _ => true
  | .pageFillDone _ _ => true
  | .kvOwnerMove _ _ => true
  | .dieReset _ => true
  | .dieResetEnd _ _ => true
  | .frameTime _ => true
  | .writeFrame _ f => f.wf
  | .sendWindowFlush _ _ => true
  | .rpart _ f => f.wf
  | .readReq _ f => f.wf
  | .readDataFrame _ f => f.wf
  | .flagFrame _ f => f.wf
  | .barrierFrame _ f => f.wf
  | .statusFrame _ f => f.wf
  | .launchFrame _ f => f.wf
  | .idleFrame _ f => f.wf
  | .bcast _ _ f => f.wf
  | .bcastSend _ _ => true
  | .trainOffer _ f => f.wf
  | .trainAccept _ f => f.wf
  | .laneMap _ f => f.wf
  | .laneMapEffect _ => true
  | .relayCredits _ f => f.wf
  | .echo _ f => f.wf
  | .ackTimeout _ => true
  | .lossOfLock _ => true
  | .laneCheckDone _ lanes => lanes.all LaneMeas.wf
  | .frozenTimeout _ => true
  | .laneRecheck _ lanes => lanes.all LaneMeas.wf
  | .marginEstimate _ _ _ => true
  | .marginTest => true
  | .marginTestDone lanes => lanes.all LaneMeas.wf
  | .marginTestRequest w => w.wf
  | .tileReset w => w.wf
  | .tileResetDrained _ => true
  | .tileWatchdog _ => true
  | .harpInsert _ _ _ => true
  | .harpTestDone _ lines => decide (lines.length = 17)
  | .harpRemovalRequest w => w.wf
  | .cartridgeRemoved _ => true
  | .pegSample _ _ _ _ _ => true
  | .fretCheckDone _ _ _ _ tones => decide (tones.length = 17)
  | .harpMonitorSample _ power => decide (power.length = 17)
  | .handoverManual w => w.wf
  | .spareReady _ lines => decide (lines.length = 17)
  | .creditHoldStart _ => true
  | .selectorSwitch _ => true
  | .handoverRelease _ => true
  | .holdLimitExpiry _ => true
  | .fadeFit _ => true
  | .calTurnStart _ _ => true
  | .calTurnDone _ _ _ => true
  | .soundingStart w => w.wf
  | .soundingDone _ => true
  | .dramTrainingDone _ _ _ => true
  | .dramRecenter _ _ => true
  | .refresh _ => true
  | .dramScrub _ _ _ => true
  | .imageDataReloadDone _ => true
  | .portPhyLock _ => true
  | .fabricTrainOffer _ r => r.wf
  | .fabricTrainAccept _ r => r.wf
  | .portTrainRetry _ => true
  | .fabricEcho _ _ _ => true
  | .dataBlock _ _ _ => true
  | .blockTime _ => true
  | .linkRetryTimeout _ => true
  | .portDown _ => true
  | .packetRoute _ pkt => pkt.wf
  | .load _ pkt => pkt.wf
  | .get _ pkt => pkt.wf
  | .atomic _ pkt => pkt.wf
  | .fabricFlag _ pkt => pkt.wf
  | .fabricBarrier _ pkt => pkt.wf
  | .store _ pkt => pkt.wf
  | .put _ pkt => pkt.wf
  | .mcastPut _ pkt => pkt.wf
  | .cpart _ pkt => pkt.wf
  | .collTimeout _ _ => true
  | .loadData pkt => pkt.wf
  | .getData pkt => pkt.wf
  | .atomicData pkt => pkt.wf
  | .ack pkt => pkt.wf
  | .status pkt => pkt.wf
  | .rateIncreaseTick => true
  | .routeSetStaged w => w.wf
  | .routeActivateBeat w => w.wf
  | .routeActivation => true
  | .drainRound => true
  | .routeQuery _ pkt => pkt.wf
  | .routeReport pkt => pkt.wf
  | .routeRelease _ pkt => pkt.wf
  | .silentMemberExpiry _ => true
  | .coordinatorTakeover => true
  | .activationMissed _ => true
  | .fiApply w => w.wf
  | .commandRecord _ _ => true
  | .rmemTimeout _ => true
  | .unreachableHoldExpiry _ => true
  | .tagQuarantineExpiry _ => true
  | .windowTableEffect => true
  | .retrieverEnable w => w.wf
  | .retrieverOpen m => m.wf && m.kind == 1
  | .retrieverAccept m => m.wf && m.kind == 2
  | .retrieverRead m => m.wf && m.kind == 3
  | .retrieverReadData m => m.wf && m.kind == 4
  | .flush m => m.wf && m.kind == 5
  | .flushAck m => m.wf && m.kind == 6
  | .retrieverIdle m => m.wf && m.kind == 7
  | .retrieverResend _ => true
  | .retrieverSessionTimeout _ => true
  | .coalesceExpiry _ _ => true
  | .storeAgeExpiry _ _ => true
  | .ipv4Frame _ => true
  | .icmpv6Message _ _ _ => true
  | .openSession d => d.wf && d.kind == 1
  | .request d => d.wf && d.kind == 3
  | .prompt d => d.wf && d.kind == 4
  | .cancel d => d.wf && d.kind == 5
  | .serveAck d => d.wf && d.kind == 9
  | .close d => d.wf && d.kind == 10
  | .reservedKind d => d.wf && isReservedKind d.kind
  | .serveResend _ => true
  | .ackDue _ => true
  | .sessionTimeout _ => true
  | .promptTimeout _ _ => true
  | .prefillComplete _ _ => true
  | .deadlineExpiry _ => true
  | .slotLoad _ w => w.wf
  | .slotLoadDone _ => true
  | .slotUnloadDrain _ w => w.wf
  | .slotUnloadForce _ w => w.wf
  | .slotDrained _ => true
  | .imageUpload w image => w.wf && (image.all Image.wf)
  | .imageTrustKey _ w => w.wf
  | .tenantKey _ w => w.wf
  | .storeSel w => w.wf
  | .ppsEdge _ _ _ => true
  | .refClockLoss => true
  | .ptpSync _ _ _ _ => true
  | .ptpLoss => true
  | .fabricSyncLoss => true
  | .sourceRevalid _ => true
  | .timeLock => true
  | .beatSync _ r _ => r.wf
  | .beatSyncSend _ => true
  | .beatSecondsSet w => w.wf
  | .syncReferenceNode w => w.wf
  | .droopTrip _ _ => true
  | .freqStep _ _ => true
  | .read t => t.wf
  | .registerWrite t => t.wf
  | .stage _ _ w => w.wf
  | .commit _ _ _ => true
  | .subscribe _ _ _ _ _ _ => true
  | .notify _ _ => true
  | .stageIdleTimeout => true
  | .stageDiscard w => w.wf
  | .configRestore w => w.wf
  | .powerOnRequest w => w.wf
  | .serveEnable w => w.wf
  | .drainRequest w => w.wf
  | .drainingDone => true
  | .restartRequest w => w.wf
  | .bootStart _ _ _ _ _ _ _ => true
  | .bootComplete _ => true
  | .controlCycle _ _ => true
  | .controllerKatDone _ _ => true
  | .tandemLoss => true
  | .cycleWatchdog => true
  | .controllerRestore w _ => w.wf
  | .takeoverDrill w => w.wf
  | .drillAuto => true
  | .drillTakeoverTimeout => true
  | .ensRecord _ _ => true
  | .rollCall => true
  | .ensembleStart => true
  | .heartbeat => true
  | .heartbeatMissing _ => true
  | .ensResume w => w.wf
  | .ensDissolve w => w.wf
  | .tallySend => true
  | .tally m => m.wf
  | .tallyAck _ => true
  | .tallyResend => true
  | .timeSend => true
  | .time _ => true
  | .intervalClose _ => true
  | .podPowerLoss _ => true
  | .podPowerUp _ => true
  | .coverOpen => true
  | .coverClose => true
  | .calRunCalibrate => true
  | .calRunDone _ _ _ _ => true
  | .calRunVerify => true
  | .verifyDone _ _ _ _ => true
  | .podFirmwareReplace _ _ => true
  | .podSelfCheck => true
  | .inputInRange _ => true
  | .overVoltage _ => true
  | .inputHigh _ => true
  | .brownOut _ => true
  | .inputLoss _ => true
  | .rideThrough _ => true
  | .holdupExpiry => true
  | .currentLimitExpiry => true
  | .thermalSample _ _ _ _ => true
  | .ceilingStep _ => true
  | .thermalShutdownClear w => w.wf
  | .partitionReloadDone _ => true
  | .data8 u _ => u.wf
  | .data16 u _ => u.wf
  | .data32 u _ => u.wf
  | .ctrl u _ => u.wf
  | .cvuStart u _ => u.wf
  | .value u _ => u.wf
  | .owner _ _ _ => true
  | .katPeriodic unit => decide (unit < 320)
  | .katRequest w => w.wf
  | .matrixCoreKat _ => true
  | .matrixCoreKatDone _ _ => true
  | .whippetKat _ => true
  | .whippetKatDone _ _ => true
  | .testModePermit w => w.wf
  | .testModeUnlock w => w.wf
  | .testModeLock w => w.wf
  | .testModeExpiry => true
  | .sfiApply w => w.wf
  | .fiStopAll w => w.wf
  | .traceRecord _ _ _ _ => true
  | .beagleEnable w => w.wf
  | .beagleClear w => w.wf
  | .logSuppressSummary => true
  | .logSel w => w.wf
  | .logClear w => w.wf
  | .tileResetDone _ => true
  | .servingPortLinkChange _ _ => true
  | .inputThresholdClear _ => true
  | .uartIdleResync => true
  | .supercapacitorExhausted => true
  | .coinCellExhausted => true

end Sys2Proof
end

