-- ==== Sys2Proof/Laws/State.lean ====
section
/-! SUPPORT. One lemma for each field and each update of the state: what the update leaves alone, and what it writes. -/

namespace Sys2Proof.Machine

@[simp] theorem State.setCore_beat (s : State) (n : Nat) (c : Core) : (s.setCore n c).beat = s.beat := rfl
@[simp] theorem State.setCore_od (s : State) (n : Nat) (c : Core) : (s.setCore n c).od = s.od := rfl
@[simp] theorem State.setCore_odb (s : State) (n : Nat) (c : Core) : (s.setCore n c).odb = s.odb := rfl
@[simp] theorem State.setCore_mem (s : State) (n : Nat) (c : Core) : (s.setCore n c).mem = s.mem := rfl
@[simp] theorem State.setCore_wins (s : State) (n : Nat) (c : Core) : (s.setCore n c).wins = s.wins := rfl
@[simp] theorem State.setCore_dies (s : State) (n : Nat) (c : Core) : (s.setCore n c).dies = s.dies := rfl
@[simp] theorem State.setCore_whips (s : State) (n : Nat) (c : Core) : (s.setCore n c).whips = s.whips := rfl
@[simp] theorem State.setCore_sched (s : State) (n : Nat) (c : Core) : (s.setCore n c).sched = s.sched := rfl
@[simp] theorem State.setCore_arbs (s : State) (n : Nat) (c : Core) : (s.setCore n c).arbs = s.arbs := rfl
@[simp] theorem State.setCore_strings (s : State) (n : Nat) (c : Core) : (s.setCore n c).strings = s.strings := rfl
@[simp] theorem State.setCore_tiles (s : State) (n : Nat) (c : Core) : (s.setCore n c).tiles = s.tiles := rfl
@[simp] theorem State.setCore_bus (s : State) (n : Nat) (c : Core) : (s.setCore n c).bus = s.bus := rfl
@[simp] theorem State.setCore_tags (s : State) (n : Nat) (c : Core) : (s.setCore n c).tags = s.tags := rfl
@[simp] theorem State.setCore_harps (s : State) (n : Nat) (c : Core) : (s.setCore n c).harps = s.harps := rfl
@[simp] theorem State.setCore_domains (s : State) (n : Nat) (c : Core) : (s.setCore n c).domains = s.domains := rfl
@[simp] theorem State.setCore_sounding (s : State) (n : Nat) (c : Core) : (s.setCore n c).sounding = s.sounding := rfl
@[simp] theorem State.setCore_dram (s : State) (n : Nat) (c : Core) : (s.setCore n c).dram = s.dram := rfl
@[simp] theorem State.setCore_ports (s : State) (n : Nat) (c : Core) : (s.setCore n c).ports = s.ports := rfl
@[simp] theorem State.setCore_fabric (s : State) (n : Nat) (c : Core) : (s.setCore n c).fabric = s.fabric := rfl
@[simp] theorem State.setCore_rmem (s : State) (n : Nat) (c : Core) : (s.setCore n c).rmem = s.rmem := rfl
@[simp] theorem State.setCore_retr (s : State) (n : Nat) (c : Core) : (s.setCore n c).retr = s.retr := rfl
@[simp] theorem State.setCore_serve (s : State) (n : Nat) (c : Core) : (s.setCore n c).serve = s.serve := rfl
@[simp] theorem State.setCore_images (s : State) (n : Nat) (c : Core) : (s.setCore n c).images = s.images := rfl
@[simp] theorem State.setCore_time (s : State) (n : Nat) (c : Core) : (s.setCore n c).time = s.time := rfl
@[simp] theorem State.setCore_config (s : State) (n : Nat) (c : Core) : (s.setCore n c).config = s.config := rfl
@[simp] theorem State.setCore_dev (s : State) (n : Nat) (c : Core) : (s.setCore n c).dev = s.dev := rfl
@[simp] theorem State.setCore_pair (s : State) (n : Nat) (c : Core) : (s.setCore n c).pair = s.pair := rfl
@[simp] theorem State.setCore_ens (s : State) (n : Nat) (c : Core) : (s.setCore n c).ens = s.ens := rfl
@[simp] theorem State.setCore_pod (s : State) (n : Nat) (c : Core) : (s.setCore n c).pod = s.pod := rfl
@[simp] theorem State.setCore_tallies (s : State) (n : Nat) (c : Core) : (s.setCore n c).tallies = s.tallies := rfl
@[simp] theorem State.setCore_power (s : State) (n : Nat) (c : Core) : (s.setCore n c).power = s.power := rfl
@[simp] theorem State.setCore_therm (s : State) (n : Nat) (c : Core) : (s.setCore n c).therm = s.therm := rfl
@[simp] theorem State.setCore_cvus (s : State) (n : Nat) (c : Core) : (s.setCore n c).cvus = s.cvus := rfl
@[simp] theorem State.setCore_kat (s : State) (n : Nat) (c : Core) : (s.setCore n c).kat = s.kat := rfl
@[simp] theorem State.setCore_test (s : State) (n : Nat) (c : Core) : (s.setCore n c).test = s.test := rfl
@[simp] theorem State.setCore_beagle (s : State) (n : Nat) (c : Core) : (s.setCore n c).beagle = s.beagle := rfl
@[simp] theorem State.setCore_log (s : State) (n : Nat) (c : Core) : (s.setCore n c).log = s.log := rfl
@[simp] theorem State.setCore_bad (s : State) (n : Nat) (c : Core) : (s.setCore n c).bad = s.bad := rfl
@[simp] theorem State.setCore_out (s : State) (n : Nat) (c : Core) : (s.setCore n c).out = s.out := rfl
@[simp] theorem State.setCore_free (s : State) (n : Nat) (c : Core) : (s.setCore n c).free = s.free := rfl
@[simp] theorem State.setCore_pending (s : State) (n : Nat) (c : Core) : (s.setCore n c).pending = s.pending := rfl

@[simp] theorem State.setDie_beat (s : State) (n : Nat) (d : Die) : (s.setDie n d).beat = s.beat := rfl
@[simp] theorem State.setDie_od (s : State) (n : Nat) (d : Die) : (s.setDie n d).od = s.od := rfl
@[simp] theorem State.setDie_odb (s : State) (n : Nat) (d : Die) : (s.setDie n d).odb = s.odb := rfl
@[simp] theorem State.setDie_mem (s : State) (n : Nat) (d : Die) : (s.setDie n d).mem = s.mem := rfl
@[simp] theorem State.setDie_cores (s : State) (n : Nat) (d : Die) : (s.setDie n d).cores = s.cores := rfl
@[simp] theorem State.setDie_wins (s : State) (n : Nat) (d : Die) : (s.setDie n d).wins = s.wins := rfl
@[simp] theorem State.setDie_whips (s : State) (n : Nat) (d : Die) : (s.setDie n d).whips = s.whips := rfl
@[simp] theorem State.setDie_sched (s : State) (n : Nat) (d : Die) : (s.setDie n d).sched = s.sched := rfl
@[simp] theorem State.setDie_arbs (s : State) (n : Nat) (d : Die) : (s.setDie n d).arbs = s.arbs := rfl
@[simp] theorem State.setDie_strings (s : State) (n : Nat) (d : Die) : (s.setDie n d).strings = s.strings := rfl
@[simp] theorem State.setDie_tiles (s : State) (n : Nat) (d : Die) : (s.setDie n d).tiles = s.tiles := rfl
@[simp] theorem State.setDie_bus (s : State) (n : Nat) (d : Die) : (s.setDie n d).bus = s.bus := rfl
@[simp] theorem State.setDie_tags (s : State) (n : Nat) (d : Die) : (s.setDie n d).tags = s.tags := rfl
@[simp] theorem State.setDie_harps (s : State) (n : Nat) (d : Die) : (s.setDie n d).harps = s.harps := rfl
@[simp] theorem State.setDie_domains (s : State) (n : Nat) (d : Die) : (s.setDie n d).domains = s.domains := rfl
@[simp] theorem State.setDie_sounding (s : State) (n : Nat) (d : Die) : (s.setDie n d).sounding = s.sounding := rfl
@[simp] theorem State.setDie_dram (s : State) (n : Nat) (d : Die) : (s.setDie n d).dram = s.dram := rfl
@[simp] theorem State.setDie_ports (s : State) (n : Nat) (d : Die) : (s.setDie n d).ports = s.ports := rfl
@[simp] theorem State.setDie_fabric (s : State) (n : Nat) (d : Die) : (s.setDie n d).fabric = s.fabric := rfl
@[simp] theorem State.setDie_rmem (s : State) (n : Nat) (d : Die) : (s.setDie n d).rmem = s.rmem := rfl
@[simp] theorem State.setDie_retr (s : State) (n : Nat) (d : Die) : (s.setDie n d).retr = s.retr := rfl
@[simp] theorem State.setDie_serve (s : State) (n : Nat) (d : Die) : (s.setDie n d).serve = s.serve := rfl
@[simp] theorem State.setDie_images (s : State) (n : Nat) (d : Die) : (s.setDie n d).images = s.images := rfl
@[simp] theorem State.setDie_time (s : State) (n : Nat) (d : Die) : (s.setDie n d).time = s.time := rfl
@[simp] theorem State.setDie_config (s : State) (n : Nat) (d : Die) : (s.setDie n d).config = s.config := rfl
@[simp] theorem State.setDie_dev (s : State) (n : Nat) (d : Die) : (s.setDie n d).dev = s.dev := rfl
@[simp] theorem State.setDie_pair (s : State) (n : Nat) (d : Die) : (s.setDie n d).pair = s.pair := rfl
@[simp] theorem State.setDie_ens (s : State) (n : Nat) (d : Die) : (s.setDie n d).ens = s.ens := rfl
@[simp] theorem State.setDie_pod (s : State) (n : Nat) (d : Die) : (s.setDie n d).pod = s.pod := rfl
@[simp] theorem State.setDie_tallies (s : State) (n : Nat) (d : Die) : (s.setDie n d).tallies = s.tallies := rfl
@[simp] theorem State.setDie_power (s : State) (n : Nat) (d : Die) : (s.setDie n d).power = s.power := rfl
@[simp] theorem State.setDie_therm (s : State) (n : Nat) (d : Die) : (s.setDie n d).therm = s.therm := rfl
@[simp] theorem State.setDie_cvus (s : State) (n : Nat) (d : Die) : (s.setDie n d).cvus = s.cvus := rfl
@[simp] theorem State.setDie_kat (s : State) (n : Nat) (d : Die) : (s.setDie n d).kat = s.kat := rfl
@[simp] theorem State.setDie_test (s : State) (n : Nat) (d : Die) : (s.setDie n d).test = s.test := rfl
@[simp] theorem State.setDie_beagle (s : State) (n : Nat) (d : Die) : (s.setDie n d).beagle = s.beagle := rfl
@[simp] theorem State.setDie_log (s : State) (n : Nat) (d : Die) : (s.setDie n d).log = s.log := rfl
@[simp] theorem State.setDie_bad (s : State) (n : Nat) (d : Die) : (s.setDie n d).bad = s.bad := rfl
@[simp] theorem State.setDie_out (s : State) (n : Nat) (d : Die) : (s.setDie n d).out = s.out := rfl
@[simp] theorem State.setDie_free (s : State) (n : Nat) (d : Die) : (s.setDie n d).free = s.free := rfl
@[simp] theorem State.setDie_pending (s : State) (n : Nat) (d : Die) : (s.setDie n d).pending = s.pending := rfl

@[simp] theorem State.setWhip_beat (s : State) (n : Nat) (w : Whip) : (s.setWhip n w).beat = s.beat := rfl
@[simp] theorem State.setWhip_od (s : State) (n : Nat) (w : Whip) : (s.setWhip n w).od = s.od := rfl
@[simp] theorem State.setWhip_odb (s : State) (n : Nat) (w : Whip) : (s.setWhip n w).odb = s.odb := rfl
@[simp] theorem State.setWhip_mem (s : State) (n : Nat) (w : Whip) : (s.setWhip n w).mem = s.mem := rfl
@[simp] theorem State.setWhip_cores (s : State) (n : Nat) (w : Whip) : (s.setWhip n w).cores = s.cores := rfl
@[simp] theorem State.setWhip_wins (s : State) (n : Nat) (w : Whip) : (s.setWhip n w).wins = s.wins := rfl
@[simp] theorem State.setWhip_dies (s : State) (n : Nat) (w : Whip) : (s.setWhip n w).dies = s.dies := rfl
@[simp] theorem State.setWhip_sched (s : State) (n : Nat) (w : Whip) : (s.setWhip n w).sched = s.sched := rfl
@[simp] theorem State.setWhip_arbs (s : State) (n : Nat) (w : Whip) : (s.setWhip n w).arbs = s.arbs := rfl
@[simp] theorem State.setWhip_strings (s : State) (n : Nat) (w : Whip) : (s.setWhip n w).strings = s.strings := rfl
@[simp] theorem State.setWhip_tiles (s : State) (n : Nat) (w : Whip) : (s.setWhip n w).tiles = s.tiles := rfl
@[simp] theorem State.setWhip_bus (s : State) (n : Nat) (w : Whip) : (s.setWhip n w).bus = s.bus := rfl
@[simp] theorem State.setWhip_tags (s : State) (n : Nat) (w : Whip) : (s.setWhip n w).tags = s.tags := rfl
@[simp] theorem State.setWhip_harps (s : State) (n : Nat) (w : Whip) : (s.setWhip n w).harps = s.harps := rfl
@[simp] theorem State.setWhip_domains (s : State) (n : Nat) (w : Whip) : (s.setWhip n w).domains = s.domains := rfl
@[simp] theorem State.setWhip_sounding (s : State) (n : Nat) (w : Whip) : (s.setWhip n w).sounding = s.sounding := rfl
@[simp] theorem State.setWhip_dram (s : State) (n : Nat) (w : Whip) : (s.setWhip n w).dram = s.dram := rfl
@[simp] theorem State.setWhip_ports (s : State) (n : Nat) (w : Whip) : (s.setWhip n w).ports = s.ports := rfl
@[simp] theorem State.setWhip_fabric (s : State) (n : Nat) (w : Whip) : (s.setWhip n w).fabric = s.fabric := rfl
@[simp] theorem State.setWhip_rmem (s : State) (n : Nat) (w : Whip) : (s.setWhip n w).rmem = s.rmem := rfl
@[simp] theorem State.setWhip_retr (s : State) (n : Nat) (w : Whip) : (s.setWhip n w).retr = s.retr := rfl
@[simp] theorem State.setWhip_serve (s : State) (n : Nat) (w : Whip) : (s.setWhip n w).serve = s.serve := rfl
@[simp] theorem State.setWhip_images (s : State) (n : Nat) (w : Whip) : (s.setWhip n w).images = s.images := rfl
@[simp] theorem State.setWhip_time (s : State) (n : Nat) (w : Whip) : (s.setWhip n w).time = s.time := rfl
@[simp] theorem State.setWhip_config (s : State) (n : Nat) (w : Whip) : (s.setWhip n w).config = s.config := rfl
@[simp] theorem State.setWhip_dev (s : State) (n : Nat) (w : Whip) : (s.setWhip n w).dev = s.dev := rfl
@[simp] theorem State.setWhip_pair (s : State) (n : Nat) (w : Whip) : (s.setWhip n w).pair = s.pair := rfl
@[simp] theorem State.setWhip_ens (s : State) (n : Nat) (w : Whip) : (s.setWhip n w).ens = s.ens := rfl
@[simp] theorem State.setWhip_pod (s : State) (n : Nat) (w : Whip) : (s.setWhip n w).pod = s.pod := rfl
@[simp] theorem State.setWhip_tallies (s : State) (n : Nat) (w : Whip) : (s.setWhip n w).tallies = s.tallies := rfl
@[simp] theorem State.setWhip_power (s : State) (n : Nat) (w : Whip) : (s.setWhip n w).power = s.power := rfl
@[simp] theorem State.setWhip_therm (s : State) (n : Nat) (w : Whip) : (s.setWhip n w).therm = s.therm := rfl
@[simp] theorem State.setWhip_cvus (s : State) (n : Nat) (w : Whip) : (s.setWhip n w).cvus = s.cvus := rfl
@[simp] theorem State.setWhip_kat (s : State) (n : Nat) (w : Whip) : (s.setWhip n w).kat = s.kat := rfl
@[simp] theorem State.setWhip_test (s : State) (n : Nat) (w : Whip) : (s.setWhip n w).test = s.test := rfl
@[simp] theorem State.setWhip_beagle (s : State) (n : Nat) (w : Whip) : (s.setWhip n w).beagle = s.beagle := rfl
@[simp] theorem State.setWhip_log (s : State) (n : Nat) (w : Whip) : (s.setWhip n w).log = s.log := rfl
@[simp] theorem State.setWhip_bad (s : State) (n : Nat) (w : Whip) : (s.setWhip n w).bad = s.bad := rfl
@[simp] theorem State.setWhip_out (s : State) (n : Nat) (w : Whip) : (s.setWhip n w).out = s.out := rfl
@[simp] theorem State.setWhip_free (s : State) (n : Nat) (w : Whip) : (s.setWhip n w).free = s.free := rfl
@[simp] theorem State.setWhip_pending (s : State) (n : Nat) (w : Whip) : (s.setWhip n w).pending = s.pending := rfl

@[simp] theorem State.setArb_beat (s : State) (n : Nat) (a : Arb) : (s.setArb n a).beat = s.beat := rfl
@[simp] theorem State.setArb_od (s : State) (n : Nat) (a : Arb) : (s.setArb n a).od = s.od := rfl
@[simp] theorem State.setArb_odb (s : State) (n : Nat) (a : Arb) : (s.setArb n a).odb = s.odb := rfl
@[simp] theorem State.setArb_mem (s : State) (n : Nat) (a : Arb) : (s.setArb n a).mem = s.mem := rfl
@[simp] theorem State.setArb_cores (s : State) (n : Nat) (a : Arb) : (s.setArb n a).cores = s.cores := rfl
@[simp] theorem State.setArb_wins (s : State) (n : Nat) (a : Arb) : (s.setArb n a).wins = s.wins := rfl
@[simp] theorem State.setArb_dies (s : State) (n : Nat) (a : Arb) : (s.setArb n a).dies = s.dies := rfl
@[simp] theorem State.setArb_whips (s : State) (n : Nat) (a : Arb) : (s.setArb n a).whips = s.whips := rfl
@[simp] theorem State.setArb_sched (s : State) (n : Nat) (a : Arb) : (s.setArb n a).sched = s.sched := rfl
@[simp] theorem State.setArb_strings (s : State) (n : Nat) (a : Arb) : (s.setArb n a).strings = s.strings := rfl
@[simp] theorem State.setArb_tiles (s : State) (n : Nat) (a : Arb) : (s.setArb n a).tiles = s.tiles := rfl
@[simp] theorem State.setArb_bus (s : State) (n : Nat) (a : Arb) : (s.setArb n a).bus = s.bus := rfl
@[simp] theorem State.setArb_tags (s : State) (n : Nat) (a : Arb) : (s.setArb n a).tags = s.tags := rfl
@[simp] theorem State.setArb_harps (s : State) (n : Nat) (a : Arb) : (s.setArb n a).harps = s.harps := rfl
@[simp] theorem State.setArb_domains (s : State) (n : Nat) (a : Arb) : (s.setArb n a).domains = s.domains := rfl
@[simp] theorem State.setArb_sounding (s : State) (n : Nat) (a : Arb) : (s.setArb n a).sounding = s.sounding := rfl
@[simp] theorem State.setArb_dram (s : State) (n : Nat) (a : Arb) : (s.setArb n a).dram = s.dram := rfl
@[simp] theorem State.setArb_ports (s : State) (n : Nat) (a : Arb) : (s.setArb n a).ports = s.ports := rfl
@[simp] theorem State.setArb_fabric (s : State) (n : Nat) (a : Arb) : (s.setArb n a).fabric = s.fabric := rfl
@[simp] theorem State.setArb_rmem (s : State) (n : Nat) (a : Arb) : (s.setArb n a).rmem = s.rmem := rfl
@[simp] theorem State.setArb_retr (s : State) (n : Nat) (a : Arb) : (s.setArb n a).retr = s.retr := rfl
@[simp] theorem State.setArb_serve (s : State) (n : Nat) (a : Arb) : (s.setArb n a).serve = s.serve := rfl
@[simp] theorem State.setArb_images (s : State) (n : Nat) (a : Arb) : (s.setArb n a).images = s.images := rfl
@[simp] theorem State.setArb_time (s : State) (n : Nat) (a : Arb) : (s.setArb n a).time = s.time := rfl
@[simp] theorem State.setArb_config (s : State) (n : Nat) (a : Arb) : (s.setArb n a).config = s.config := rfl
@[simp] theorem State.setArb_dev (s : State) (n : Nat) (a : Arb) : (s.setArb n a).dev = s.dev := rfl
@[simp] theorem State.setArb_pair (s : State) (n : Nat) (a : Arb) : (s.setArb n a).pair = s.pair := rfl
@[simp] theorem State.setArb_ens (s : State) (n : Nat) (a : Arb) : (s.setArb n a).ens = s.ens := rfl
@[simp] theorem State.setArb_pod (s : State) (n : Nat) (a : Arb) : (s.setArb n a).pod = s.pod := rfl
@[simp] theorem State.setArb_tallies (s : State) (n : Nat) (a : Arb) : (s.setArb n a).tallies = s.tallies := rfl
@[simp] theorem State.setArb_power (s : State) (n : Nat) (a : Arb) : (s.setArb n a).power = s.power := rfl
@[simp] theorem State.setArb_therm (s : State) (n : Nat) (a : Arb) : (s.setArb n a).therm = s.therm := rfl
@[simp] theorem State.setArb_cvus (s : State) (n : Nat) (a : Arb) : (s.setArb n a).cvus = s.cvus := rfl
@[simp] theorem State.setArb_kat (s : State) (n : Nat) (a : Arb) : (s.setArb n a).kat = s.kat := rfl
@[simp] theorem State.setArb_test (s : State) (n : Nat) (a : Arb) : (s.setArb n a).test = s.test := rfl
@[simp] theorem State.setArb_beagle (s : State) (n : Nat) (a : Arb) : (s.setArb n a).beagle = s.beagle := rfl
@[simp] theorem State.setArb_log (s : State) (n : Nat) (a : Arb) : (s.setArb n a).log = s.log := rfl
@[simp] theorem State.setArb_bad (s : State) (n : Nat) (a : Arb) : (s.setArb n a).bad = s.bad := rfl
@[simp] theorem State.setArb_out (s : State) (n : Nat) (a : Arb) : (s.setArb n a).out = s.out := rfl
@[simp] theorem State.setArb_free (s : State) (n : Nat) (a : Arb) : (s.setArb n a).free = s.free := rfl
@[simp] theorem State.setArb_pending (s : State) (n : Nat) (a : Arb) : (s.setArb n a).pending = s.pending := rfl

@[simp] theorem State.setStr_beat (s : State) (n : Nat) (t : Str) : (s.setStr n t).beat = s.beat := rfl
@[simp] theorem State.setStr_od (s : State) (n : Nat) (t : Str) : (s.setStr n t).od = s.od := rfl
@[simp] theorem State.setStr_odb (s : State) (n : Nat) (t : Str) : (s.setStr n t).odb = s.odb := rfl
@[simp] theorem State.setStr_mem (s : State) (n : Nat) (t : Str) : (s.setStr n t).mem = s.mem := rfl
@[simp] theorem State.setStr_cores (s : State) (n : Nat) (t : Str) : (s.setStr n t).cores = s.cores := rfl
@[simp] theorem State.setStr_wins (s : State) (n : Nat) (t : Str) : (s.setStr n t).wins = s.wins := rfl
@[simp] theorem State.setStr_dies (s : State) (n : Nat) (t : Str) : (s.setStr n t).dies = s.dies := rfl
@[simp] theorem State.setStr_whips (s : State) (n : Nat) (t : Str) : (s.setStr n t).whips = s.whips := rfl
@[simp] theorem State.setStr_sched (s : State) (n : Nat) (t : Str) : (s.setStr n t).sched = s.sched := rfl
@[simp] theorem State.setStr_arbs (s : State) (n : Nat) (t : Str) : (s.setStr n t).arbs = s.arbs := rfl
@[simp] theorem State.setStr_tiles (s : State) (n : Nat) (t : Str) : (s.setStr n t).tiles = s.tiles := rfl
@[simp] theorem State.setStr_bus (s : State) (n : Nat) (t : Str) : (s.setStr n t).bus = s.bus := rfl
@[simp] theorem State.setStr_tags (s : State) (n : Nat) (t : Str) : (s.setStr n t).tags = s.tags := rfl
@[simp] theorem State.setStr_harps (s : State) (n : Nat) (t : Str) : (s.setStr n t).harps = s.harps := rfl
@[simp] theorem State.setStr_domains (s : State) (n : Nat) (t : Str) : (s.setStr n t).domains = s.domains := rfl
@[simp] theorem State.setStr_sounding (s : State) (n : Nat) (t : Str) : (s.setStr n t).sounding = s.sounding := rfl
@[simp] theorem State.setStr_dram (s : State) (n : Nat) (t : Str) : (s.setStr n t).dram = s.dram := rfl
@[simp] theorem State.setStr_ports (s : State) (n : Nat) (t : Str) : (s.setStr n t).ports = s.ports := rfl
@[simp] theorem State.setStr_fabric (s : State) (n : Nat) (t : Str) : (s.setStr n t).fabric = s.fabric := rfl
@[simp] theorem State.setStr_rmem (s : State) (n : Nat) (t : Str) : (s.setStr n t).rmem = s.rmem := rfl
@[simp] theorem State.setStr_retr (s : State) (n : Nat) (t : Str) : (s.setStr n t).retr = s.retr := rfl
@[simp] theorem State.setStr_serve (s : State) (n : Nat) (t : Str) : (s.setStr n t).serve = s.serve := rfl
@[simp] theorem State.setStr_images (s : State) (n : Nat) (t : Str) : (s.setStr n t).images = s.images := rfl
@[simp] theorem State.setStr_time (s : State) (n : Nat) (t : Str) : (s.setStr n t).time = s.time := rfl
@[simp] theorem State.setStr_config (s : State) (n : Nat) (t : Str) : (s.setStr n t).config = s.config := rfl
@[simp] theorem State.setStr_dev (s : State) (n : Nat) (t : Str) : (s.setStr n t).dev = s.dev := rfl
@[simp] theorem State.setStr_pair (s : State) (n : Nat) (t : Str) : (s.setStr n t).pair = s.pair := rfl
@[simp] theorem State.setStr_ens (s : State) (n : Nat) (t : Str) : (s.setStr n t).ens = s.ens := rfl
@[simp] theorem State.setStr_pod (s : State) (n : Nat) (t : Str) : (s.setStr n t).pod = s.pod := rfl
@[simp] theorem State.setStr_tallies (s : State) (n : Nat) (t : Str) : (s.setStr n t).tallies = s.tallies := rfl
@[simp] theorem State.setStr_power (s : State) (n : Nat) (t : Str) : (s.setStr n t).power = s.power := rfl
@[simp] theorem State.setStr_therm (s : State) (n : Nat) (t : Str) : (s.setStr n t).therm = s.therm := rfl
@[simp] theorem State.setStr_cvus (s : State) (n : Nat) (t : Str) : (s.setStr n t).cvus = s.cvus := rfl
@[simp] theorem State.setStr_kat (s : State) (n : Nat) (t : Str) : (s.setStr n t).kat = s.kat := rfl
@[simp] theorem State.setStr_test (s : State) (n : Nat) (t : Str) : (s.setStr n t).test = s.test := rfl
@[simp] theorem State.setStr_beagle (s : State) (n : Nat) (t : Str) : (s.setStr n t).beagle = s.beagle := rfl
@[simp] theorem State.setStr_log (s : State) (n : Nat) (t : Str) : (s.setStr n t).log = s.log := rfl
@[simp] theorem State.setStr_bad (s : State) (n : Nat) (t : Str) : (s.setStr n t).bad = s.bad := rfl
@[simp] theorem State.setStr_out (s : State) (n : Nat) (t : Str) : (s.setStr n t).out = s.out := rfl
@[simp] theorem State.setStr_free (s : State) (n : Nat) (t : Str) : (s.setStr n t).free = s.free := rfl
@[simp] theorem State.setStr_pending (s : State) (n : Nat) (t : Str) : (s.setStr n t).pending = s.pending := rfl

@[simp] theorem State.setTile_beat (s : State) (n : Nat) (t : Tile) : (s.setTile n t).beat = s.beat := rfl
@[simp] theorem State.setTile_od (s : State) (n : Nat) (t : Tile) : (s.setTile n t).od = s.od := rfl
@[simp] theorem State.setTile_odb (s : State) (n : Nat) (t : Tile) : (s.setTile n t).odb = s.odb := rfl
@[simp] theorem State.setTile_mem (s : State) (n : Nat) (t : Tile) : (s.setTile n t).mem = s.mem := rfl
@[simp] theorem State.setTile_cores (s : State) (n : Nat) (t : Tile) : (s.setTile n t).cores = s.cores := rfl
@[simp] theorem State.setTile_wins (s : State) (n : Nat) (t : Tile) : (s.setTile n t).wins = s.wins := rfl
@[simp] theorem State.setTile_dies (s : State) (n : Nat) (t : Tile) : (s.setTile n t).dies = s.dies := rfl
@[simp] theorem State.setTile_whips (s : State) (n : Nat) (t : Tile) : (s.setTile n t).whips = s.whips := rfl
@[simp] theorem State.setTile_sched (s : State) (n : Nat) (t : Tile) : (s.setTile n t).sched = s.sched := rfl
@[simp] theorem State.setTile_arbs (s : State) (n : Nat) (t : Tile) : (s.setTile n t).arbs = s.arbs := rfl
@[simp] theorem State.setTile_strings (s : State) (n : Nat) (t : Tile) : (s.setTile n t).strings = s.strings := rfl
@[simp] theorem State.setTile_bus (s : State) (n : Nat) (t : Tile) : (s.setTile n t).bus = s.bus := rfl
@[simp] theorem State.setTile_tags (s : State) (n : Nat) (t : Tile) : (s.setTile n t).tags = s.tags := rfl
@[simp] theorem State.setTile_harps (s : State) (n : Nat) (t : Tile) : (s.setTile n t).harps = s.harps := rfl
@[simp] theorem State.setTile_domains (s : State) (n : Nat) (t : Tile) : (s.setTile n t).domains = s.domains := rfl
@[simp] theorem State.setTile_sounding (s : State) (n : Nat) (t : Tile) : (s.setTile n t).sounding = s.sounding := rfl
@[simp] theorem State.setTile_dram (s : State) (n : Nat) (t : Tile) : (s.setTile n t).dram = s.dram := rfl
@[simp] theorem State.setTile_ports (s : State) (n : Nat) (t : Tile) : (s.setTile n t).ports = s.ports := rfl
@[simp] theorem State.setTile_fabric (s : State) (n : Nat) (t : Tile) : (s.setTile n t).fabric = s.fabric := rfl
@[simp] theorem State.setTile_rmem (s : State) (n : Nat) (t : Tile) : (s.setTile n t).rmem = s.rmem := rfl
@[simp] theorem State.setTile_retr (s : State) (n : Nat) (t : Tile) : (s.setTile n t).retr = s.retr := rfl
@[simp] theorem State.setTile_serve (s : State) (n : Nat) (t : Tile) : (s.setTile n t).serve = s.serve := rfl
@[simp] theorem State.setTile_images (s : State) (n : Nat) (t : Tile) : (s.setTile n t).images = s.images := rfl
@[simp] theorem State.setTile_time (s : State) (n : Nat) (t : Tile) : (s.setTile n t).time = s.time := rfl
@[simp] theorem State.setTile_config (s : State) (n : Nat) (t : Tile) : (s.setTile n t).config = s.config := rfl
@[simp] theorem State.setTile_dev (s : State) (n : Nat) (t : Tile) : (s.setTile n t).dev = s.dev := rfl
@[simp] theorem State.setTile_pair (s : State) (n : Nat) (t : Tile) : (s.setTile n t).pair = s.pair := rfl
@[simp] theorem State.setTile_ens (s : State) (n : Nat) (t : Tile) : (s.setTile n t).ens = s.ens := rfl
@[simp] theorem State.setTile_pod (s : State) (n : Nat) (t : Tile) : (s.setTile n t).pod = s.pod := rfl
@[simp] theorem State.setTile_tallies (s : State) (n : Nat) (t : Tile) : (s.setTile n t).tallies = s.tallies := rfl
@[simp] theorem State.setTile_power (s : State) (n : Nat) (t : Tile) : (s.setTile n t).power = s.power := rfl
@[simp] theorem State.setTile_therm (s : State) (n : Nat) (t : Tile) : (s.setTile n t).therm = s.therm := rfl
@[simp] theorem State.setTile_cvus (s : State) (n : Nat) (t : Tile) : (s.setTile n t).cvus = s.cvus := rfl
@[simp] theorem State.setTile_kat (s : State) (n : Nat) (t : Tile) : (s.setTile n t).kat = s.kat := rfl
@[simp] theorem State.setTile_test (s : State) (n : Nat) (t : Tile) : (s.setTile n t).test = s.test := rfl
@[simp] theorem State.setTile_beagle (s : State) (n : Nat) (t : Tile) : (s.setTile n t).beagle = s.beagle := rfl
@[simp] theorem State.setTile_log (s : State) (n : Nat) (t : Tile) : (s.setTile n t).log = s.log := rfl
@[simp] theorem State.setTile_bad (s : State) (n : Nat) (t : Tile) : (s.setTile n t).bad = s.bad := rfl
@[simp] theorem State.setTile_out (s : State) (n : Nat) (t : Tile) : (s.setTile n t).out = s.out := rfl
@[simp] theorem State.setTile_free (s : State) (n : Nat) (t : Tile) : (s.setTile n t).free = s.free := rfl
@[simp] theorem State.setTile_pending (s : State) (n : Nat) (t : Tile) : (s.setTile n t).pending = s.pending := rfl

@[simp] theorem State.setHarp_beat (s : State) (n : Nat) (h : Harp) : (s.setHarp n h).beat = s.beat := rfl
@[simp] theorem State.setHarp_od (s : State) (n : Nat) (h : Harp) : (s.setHarp n h).od = s.od := rfl
@[simp] theorem State.setHarp_odb (s : State) (n : Nat) (h : Harp) : (s.setHarp n h).odb = s.odb := rfl
@[simp] theorem State.setHarp_mem (s : State) (n : Nat) (h : Harp) : (s.setHarp n h).mem = s.mem := rfl
@[simp] theorem State.setHarp_cores (s : State) (n : Nat) (h : Harp) : (s.setHarp n h).cores = s.cores := rfl
@[simp] theorem State.setHarp_wins (s : State) (n : Nat) (h : Harp) : (s.setHarp n h).wins = s.wins := rfl
@[simp] theorem State.setHarp_dies (s : State) (n : Nat) (h : Harp) : (s.setHarp n h).dies = s.dies := rfl
@[simp] theorem State.setHarp_whips (s : State) (n : Nat) (h : Harp) : (s.setHarp n h).whips = s.whips := rfl
@[simp] theorem State.setHarp_sched (s : State) (n : Nat) (h : Harp) : (s.setHarp n h).sched = s.sched := rfl
@[simp] theorem State.setHarp_arbs (s : State) (n : Nat) (h : Harp) : (s.setHarp n h).arbs = s.arbs := rfl
@[simp] theorem State.setHarp_strings (s : State) (n : Nat) (h : Harp) : (s.setHarp n h).strings = s.strings := rfl
@[simp] theorem State.setHarp_tiles (s : State) (n : Nat) (h : Harp) : (s.setHarp n h).tiles = s.tiles := rfl
@[simp] theorem State.setHarp_bus (s : State) (n : Nat) (h : Harp) : (s.setHarp n h).bus = s.bus := rfl
@[simp] theorem State.setHarp_tags (s : State) (n : Nat) (h : Harp) : (s.setHarp n h).tags = s.tags := rfl
@[simp] theorem State.setHarp_domains (s : State) (n : Nat) (h : Harp) : (s.setHarp n h).domains = s.domains := rfl
@[simp] theorem State.setHarp_sounding (s : State) (n : Nat) (h : Harp) : (s.setHarp n h).sounding = s.sounding := rfl
@[simp] theorem State.setHarp_dram (s : State) (n : Nat) (h : Harp) : (s.setHarp n h).dram = s.dram := rfl
@[simp] theorem State.setHarp_ports (s : State) (n : Nat) (h : Harp) : (s.setHarp n h).ports = s.ports := rfl
@[simp] theorem State.setHarp_fabric (s : State) (n : Nat) (h : Harp) : (s.setHarp n h).fabric = s.fabric := rfl
@[simp] theorem State.setHarp_rmem (s : State) (n : Nat) (h : Harp) : (s.setHarp n h).rmem = s.rmem := rfl
@[simp] theorem State.setHarp_retr (s : State) (n : Nat) (h : Harp) : (s.setHarp n h).retr = s.retr := rfl
@[simp] theorem State.setHarp_serve (s : State) (n : Nat) (h : Harp) : (s.setHarp n h).serve = s.serve := rfl
@[simp] theorem State.setHarp_images (s : State) (n : Nat) (h : Harp) : (s.setHarp n h).images = s.images := rfl
@[simp] theorem State.setHarp_time (s : State) (n : Nat) (h : Harp) : (s.setHarp n h).time = s.time := rfl
@[simp] theorem State.setHarp_config (s : State) (n : Nat) (h : Harp) : (s.setHarp n h).config = s.config := rfl
@[simp] theorem State.setHarp_dev (s : State) (n : Nat) (h : Harp) : (s.setHarp n h).dev = s.dev := rfl
@[simp] theorem State.setHarp_pair (s : State) (n : Nat) (h : Harp) : (s.setHarp n h).pair = s.pair := rfl
@[simp] theorem State.setHarp_ens (s : State) (n : Nat) (h : Harp) : (s.setHarp n h).ens = s.ens := rfl
@[simp] theorem State.setHarp_pod (s : State) (n : Nat) (h : Harp) : (s.setHarp n h).pod = s.pod := rfl
@[simp] theorem State.setHarp_tallies (s : State) (n : Nat) (h : Harp) : (s.setHarp n h).tallies = s.tallies := rfl
@[simp] theorem State.setHarp_power (s : State) (n : Nat) (h : Harp) : (s.setHarp n h).power = s.power := rfl
@[simp] theorem State.setHarp_therm (s : State) (n : Nat) (h : Harp) : (s.setHarp n h).therm = s.therm := rfl
@[simp] theorem State.setHarp_cvus (s : State) (n : Nat) (h : Harp) : (s.setHarp n h).cvus = s.cvus := rfl
@[simp] theorem State.setHarp_kat (s : State) (n : Nat) (h : Harp) : (s.setHarp n h).kat = s.kat := rfl
@[simp] theorem State.setHarp_test (s : State) (n : Nat) (h : Harp) : (s.setHarp n h).test = s.test := rfl
@[simp] theorem State.setHarp_beagle (s : State) (n : Nat) (h : Harp) : (s.setHarp n h).beagle = s.beagle := rfl
@[simp] theorem State.setHarp_log (s : State) (n : Nat) (h : Harp) : (s.setHarp n h).log = s.log := rfl
@[simp] theorem State.setHarp_bad (s : State) (n : Nat) (h : Harp) : (s.setHarp n h).bad = s.bad := rfl
@[simp] theorem State.setHarp_out (s : State) (n : Nat) (h : Harp) : (s.setHarp n h).out = s.out := rfl
@[simp] theorem State.setHarp_free (s : State) (n : Nat) (h : Harp) : (s.setHarp n h).free = s.free := rfl
@[simp] theorem State.setHarp_pending (s : State) (n : Nat) (h : Harp) : (s.setHarp n h).pending = s.pending := rfl

@[simp] theorem State.setDomain_beat (s : State) (n : Nat) (d : Domain) : (s.setDomain n d).beat = s.beat := rfl
@[simp] theorem State.setDomain_od (s : State) (n : Nat) (d : Domain) : (s.setDomain n d).od = s.od := rfl
@[simp] theorem State.setDomain_odb (s : State) (n : Nat) (d : Domain) : (s.setDomain n d).odb = s.odb := rfl
@[simp] theorem State.setDomain_mem (s : State) (n : Nat) (d : Domain) : (s.setDomain n d).mem = s.mem := rfl
@[simp] theorem State.setDomain_cores (s : State) (n : Nat) (d : Domain) : (s.setDomain n d).cores = s.cores := rfl
@[simp] theorem State.setDomain_wins (s : State) (n : Nat) (d : Domain) : (s.setDomain n d).wins = s.wins := rfl
@[simp] theorem State.setDomain_dies (s : State) (n : Nat) (d : Domain) : (s.setDomain n d).dies = s.dies := rfl
@[simp] theorem State.setDomain_whips (s : State) (n : Nat) (d : Domain) : (s.setDomain n d).whips = s.whips := rfl
@[simp] theorem State.setDomain_sched (s : State) (n : Nat) (d : Domain) : (s.setDomain n d).sched = s.sched := rfl
@[simp] theorem State.setDomain_arbs (s : State) (n : Nat) (d : Domain) : (s.setDomain n d).arbs = s.arbs := rfl
@[simp] theorem State.setDomain_strings (s : State) (n : Nat) (d : Domain) : (s.setDomain n d).strings = s.strings := rfl
@[simp] theorem State.setDomain_tiles (s : State) (n : Nat) (d : Domain) : (s.setDomain n d).tiles = s.tiles := rfl
@[simp] theorem State.setDomain_bus (s : State) (n : Nat) (d : Domain) : (s.setDomain n d).bus = s.bus := rfl
@[simp] theorem State.setDomain_tags (s : State) (n : Nat) (d : Domain) : (s.setDomain n d).tags = s.tags := rfl
@[simp] theorem State.setDomain_harps (s : State) (n : Nat) (d : Domain) : (s.setDomain n d).harps = s.harps := rfl
@[simp] theorem State.setDomain_sounding (s : State) (n : Nat) (d : Domain) : (s.setDomain n d).sounding = s.sounding := rfl
@[simp] theorem State.setDomain_dram (s : State) (n : Nat) (d : Domain) : (s.setDomain n d).dram = s.dram := rfl
@[simp] theorem State.setDomain_ports (s : State) (n : Nat) (d : Domain) : (s.setDomain n d).ports = s.ports := rfl
@[simp] theorem State.setDomain_fabric (s : State) (n : Nat) (d : Domain) : (s.setDomain n d).fabric = s.fabric := rfl
@[simp] theorem State.setDomain_rmem (s : State) (n : Nat) (d : Domain) : (s.setDomain n d).rmem = s.rmem := rfl
@[simp] theorem State.setDomain_retr (s : State) (n : Nat) (d : Domain) : (s.setDomain n d).retr = s.retr := rfl
@[simp] theorem State.setDomain_serve (s : State) (n : Nat) (d : Domain) : (s.setDomain n d).serve = s.serve := rfl
@[simp] theorem State.setDomain_images (s : State) (n : Nat) (d : Domain) : (s.setDomain n d).images = s.images := rfl
@[simp] theorem State.setDomain_time (s : State) (n : Nat) (d : Domain) : (s.setDomain n d).time = s.time := rfl
@[simp] theorem State.setDomain_config (s : State) (n : Nat) (d : Domain) : (s.setDomain n d).config = s.config := rfl
@[simp] theorem State.setDomain_dev (s : State) (n : Nat) (d : Domain) : (s.setDomain n d).dev = s.dev := rfl
@[simp] theorem State.setDomain_pair (s : State) (n : Nat) (d : Domain) : (s.setDomain n d).pair = s.pair := rfl
@[simp] theorem State.setDomain_ens (s : State) (n : Nat) (d : Domain) : (s.setDomain n d).ens = s.ens := rfl
@[simp] theorem State.setDomain_pod (s : State) (n : Nat) (d : Domain) : (s.setDomain n d).pod = s.pod := rfl
@[simp] theorem State.setDomain_tallies (s : State) (n : Nat) (d : Domain) : (s.setDomain n d).tallies = s.tallies := rfl
@[simp] theorem State.setDomain_power (s : State) (n : Nat) (d : Domain) : (s.setDomain n d).power = s.power := rfl
@[simp] theorem State.setDomain_therm (s : State) (n : Nat) (d : Domain) : (s.setDomain n d).therm = s.therm := rfl
@[simp] theorem State.setDomain_cvus (s : State) (n : Nat) (d : Domain) : (s.setDomain n d).cvus = s.cvus := rfl
@[simp] theorem State.setDomain_kat (s : State) (n : Nat) (d : Domain) : (s.setDomain n d).kat = s.kat := rfl
@[simp] theorem State.setDomain_test (s : State) (n : Nat) (d : Domain) : (s.setDomain n d).test = s.test := rfl
@[simp] theorem State.setDomain_beagle (s : State) (n : Nat) (d : Domain) : (s.setDomain n d).beagle = s.beagle := rfl
@[simp] theorem State.setDomain_log (s : State) (n : Nat) (d : Domain) : (s.setDomain n d).log = s.log := rfl
@[simp] theorem State.setDomain_bad (s : State) (n : Nat) (d : Domain) : (s.setDomain n d).bad = s.bad := rfl
@[simp] theorem State.setDomain_out (s : State) (n : Nat) (d : Domain) : (s.setDomain n d).out = s.out := rfl
@[simp] theorem State.setDomain_free (s : State) (n : Nat) (d : Domain) : (s.setDomain n d).free = s.free := rfl
@[simp] theorem State.setDomain_pending (s : State) (n : Nat) (d : Domain) : (s.setDomain n d).pending = s.pending := rfl

@[simp] theorem State.setPort_beat (s : State) (n : Nat) (p : FPort) : (s.setPort n p).beat = s.beat := rfl
@[simp] theorem State.setPort_od (s : State) (n : Nat) (p : FPort) : (s.setPort n p).od = s.od := rfl
@[simp] theorem State.setPort_odb (s : State) (n : Nat) (p : FPort) : (s.setPort n p).odb = s.odb := rfl
@[simp] theorem State.setPort_mem (s : State) (n : Nat) (p : FPort) : (s.setPort n p).mem = s.mem := rfl
@[simp] theorem State.setPort_cores (s : State) (n : Nat) (p : FPort) : (s.setPort n p).cores = s.cores := rfl
@[simp] theorem State.setPort_wins (s : State) (n : Nat) (p : FPort) : (s.setPort n p).wins = s.wins := rfl
@[simp] theorem State.setPort_dies (s : State) (n : Nat) (p : FPort) : (s.setPort n p).dies = s.dies := rfl
@[simp] theorem State.setPort_whips (s : State) (n : Nat) (p : FPort) : (s.setPort n p).whips = s.whips := rfl
@[simp] theorem State.setPort_sched (s : State) (n : Nat) (p : FPort) : (s.setPort n p).sched = s.sched := rfl
@[simp] theorem State.setPort_arbs (s : State) (n : Nat) (p : FPort) : (s.setPort n p).arbs = s.arbs := rfl
@[simp] theorem State.setPort_strings (s : State) (n : Nat) (p : FPort) : (s.setPort n p).strings = s.strings := rfl
@[simp] theorem State.setPort_tiles (s : State) (n : Nat) (p : FPort) : (s.setPort n p).tiles = s.tiles := rfl
@[simp] theorem State.setPort_bus (s : State) (n : Nat) (p : FPort) : (s.setPort n p).bus = s.bus := rfl
@[simp] theorem State.setPort_tags (s : State) (n : Nat) (p : FPort) : (s.setPort n p).tags = s.tags := rfl
@[simp] theorem State.setPort_harps (s : State) (n : Nat) (p : FPort) : (s.setPort n p).harps = s.harps := rfl
@[simp] theorem State.setPort_domains (s : State) (n : Nat) (p : FPort) : (s.setPort n p).domains = s.domains := rfl
@[simp] theorem State.setPort_sounding (s : State) (n : Nat) (p : FPort) : (s.setPort n p).sounding = s.sounding := rfl
@[simp] theorem State.setPort_dram (s : State) (n : Nat) (p : FPort) : (s.setPort n p).dram = s.dram := rfl
@[simp] theorem State.setPort_fabric (s : State) (n : Nat) (p : FPort) : (s.setPort n p).fabric = s.fabric := rfl
@[simp] theorem State.setPort_rmem (s : State) (n : Nat) (p : FPort) : (s.setPort n p).rmem = s.rmem := rfl
@[simp] theorem State.setPort_retr (s : State) (n : Nat) (p : FPort) : (s.setPort n p).retr = s.retr := rfl
@[simp] theorem State.setPort_serve (s : State) (n : Nat) (p : FPort) : (s.setPort n p).serve = s.serve := rfl
@[simp] theorem State.setPort_images (s : State) (n : Nat) (p : FPort) : (s.setPort n p).images = s.images := rfl
@[simp] theorem State.setPort_time (s : State) (n : Nat) (p : FPort) : (s.setPort n p).time = s.time := rfl
@[simp] theorem State.setPort_config (s : State) (n : Nat) (p : FPort) : (s.setPort n p).config = s.config := rfl
@[simp] theorem State.setPort_dev (s : State) (n : Nat) (p : FPort) : (s.setPort n p).dev = s.dev := rfl
@[simp] theorem State.setPort_pair (s : State) (n : Nat) (p : FPort) : (s.setPort n p).pair = s.pair := rfl
@[simp] theorem State.setPort_ens (s : State) (n : Nat) (p : FPort) : (s.setPort n p).ens = s.ens := rfl
@[simp] theorem State.setPort_pod (s : State) (n : Nat) (p : FPort) : (s.setPort n p).pod = s.pod := rfl
@[simp] theorem State.setPort_tallies (s : State) (n : Nat) (p : FPort) : (s.setPort n p).tallies = s.tallies := rfl
@[simp] theorem State.setPort_power (s : State) (n : Nat) (p : FPort) : (s.setPort n p).power = s.power := rfl
@[simp] theorem State.setPort_therm (s : State) (n : Nat) (p : FPort) : (s.setPort n p).therm = s.therm := rfl
@[simp] theorem State.setPort_cvus (s : State) (n : Nat) (p : FPort) : (s.setPort n p).cvus = s.cvus := rfl
@[simp] theorem State.setPort_kat (s : State) (n : Nat) (p : FPort) : (s.setPort n p).kat = s.kat := rfl
@[simp] theorem State.setPort_test (s : State) (n : Nat) (p : FPort) : (s.setPort n p).test = s.test := rfl
@[simp] theorem State.setPort_beagle (s : State) (n : Nat) (p : FPort) : (s.setPort n p).beagle = s.beagle := rfl
@[simp] theorem State.setPort_log (s : State) (n : Nat) (p : FPort) : (s.setPort n p).log = s.log := rfl
@[simp] theorem State.setPort_bad (s : State) (n : Nat) (p : FPort) : (s.setPort n p).bad = s.bad := rfl
@[simp] theorem State.setPort_out (s : State) (n : Nat) (p : FPort) : (s.setPort n p).out = s.out := rfl
@[simp] theorem State.setPort_free (s : State) (n : Nat) (p : FPort) : (s.setPort n p).free = s.free := rfl
@[simp] theorem State.setPort_pending (s : State) (n : Nat) (p : FPort) : (s.setPort n p).pending = s.pending := rfl

@[simp] theorem State.setImgSlot_beat (s : State) (n : Nat) (x : ImgSlot) : (s.setImgSlot n x).beat = s.beat := rfl
@[simp] theorem State.setImgSlot_od (s : State) (n : Nat) (x : ImgSlot) : (s.setImgSlot n x).od = s.od := rfl
@[simp] theorem State.setImgSlot_odb (s : State) (n : Nat) (x : ImgSlot) : (s.setImgSlot n x).odb = s.odb := rfl
@[simp] theorem State.setImgSlot_mem (s : State) (n : Nat) (x : ImgSlot) : (s.setImgSlot n x).mem = s.mem := rfl
@[simp] theorem State.setImgSlot_cores (s : State) (n : Nat) (x : ImgSlot) : (s.setImgSlot n x).cores = s.cores := rfl
@[simp] theorem State.setImgSlot_wins (s : State) (n : Nat) (x : ImgSlot) : (s.setImgSlot n x).wins = s.wins := rfl
@[simp] theorem State.setImgSlot_dies (s : State) (n : Nat) (x : ImgSlot) : (s.setImgSlot n x).dies = s.dies := rfl
@[simp] theorem State.setImgSlot_whips (s : State) (n : Nat) (x : ImgSlot) : (s.setImgSlot n x).whips = s.whips := rfl
@[simp] theorem State.setImgSlot_sched (s : State) (n : Nat) (x : ImgSlot) : (s.setImgSlot n x).sched = s.sched := rfl
@[simp] theorem State.setImgSlot_arbs (s : State) (n : Nat) (x : ImgSlot) : (s.setImgSlot n x).arbs = s.arbs := rfl
@[simp] theorem State.setImgSlot_strings (s : State) (n : Nat) (x : ImgSlot) : (s.setImgSlot n x).strings = s.strings := rfl
@[simp] theorem State.setImgSlot_tiles (s : State) (n : Nat) (x : ImgSlot) : (s.setImgSlot n x).tiles = s.tiles := rfl
@[simp] theorem State.setImgSlot_bus (s : State) (n : Nat) (x : ImgSlot) : (s.setImgSlot n x).bus = s.bus := rfl
@[simp] theorem State.setImgSlot_tags (s : State) (n : Nat) (x : ImgSlot) : (s.setImgSlot n x).tags = s.tags := rfl
@[simp] theorem State.setImgSlot_harps (s : State) (n : Nat) (x : ImgSlot) : (s.setImgSlot n x).harps = s.harps := rfl
@[simp] theorem State.setImgSlot_domains (s : State) (n : Nat) (x : ImgSlot) : (s.setImgSlot n x).domains = s.domains := rfl
@[simp] theorem State.setImgSlot_sounding (s : State) (n : Nat) (x : ImgSlot) : (s.setImgSlot n x).sounding = s.sounding := rfl
@[simp] theorem State.setImgSlot_dram (s : State) (n : Nat) (x : ImgSlot) : (s.setImgSlot n x).dram = s.dram := rfl
@[simp] theorem State.setImgSlot_ports (s : State) (n : Nat) (x : ImgSlot) : (s.setImgSlot n x).ports = s.ports := rfl
@[simp] theorem State.setImgSlot_fabric (s : State) (n : Nat) (x : ImgSlot) : (s.setImgSlot n x).fabric = s.fabric := rfl
@[simp] theorem State.setImgSlot_rmem (s : State) (n : Nat) (x : ImgSlot) : (s.setImgSlot n x).rmem = s.rmem := rfl
@[simp] theorem State.setImgSlot_retr (s : State) (n : Nat) (x : ImgSlot) : (s.setImgSlot n x).retr = s.retr := rfl
@[simp] theorem State.setImgSlot_serve (s : State) (n : Nat) (x : ImgSlot) : (s.setImgSlot n x).serve = s.serve := rfl
@[simp] theorem State.setImgSlot_time (s : State) (n : Nat) (x : ImgSlot) : (s.setImgSlot n x).time = s.time := rfl
@[simp] theorem State.setImgSlot_config (s : State) (n : Nat) (x : ImgSlot) : (s.setImgSlot n x).config = s.config := rfl
@[simp] theorem State.setImgSlot_dev (s : State) (n : Nat) (x : ImgSlot) : (s.setImgSlot n x).dev = s.dev := rfl
@[simp] theorem State.setImgSlot_pair (s : State) (n : Nat) (x : ImgSlot) : (s.setImgSlot n x).pair = s.pair := rfl
@[simp] theorem State.setImgSlot_ens (s : State) (n : Nat) (x : ImgSlot) : (s.setImgSlot n x).ens = s.ens := rfl
@[simp] theorem State.setImgSlot_pod (s : State) (n : Nat) (x : ImgSlot) : (s.setImgSlot n x).pod = s.pod := rfl
@[simp] theorem State.setImgSlot_tallies (s : State) (n : Nat) (x : ImgSlot) : (s.setImgSlot n x).tallies = s.tallies := rfl
@[simp] theorem State.setImgSlot_power (s : State) (n : Nat) (x : ImgSlot) : (s.setImgSlot n x).power = s.power := rfl
@[simp] theorem State.setImgSlot_therm (s : State) (n : Nat) (x : ImgSlot) : (s.setImgSlot n x).therm = s.therm := rfl
@[simp] theorem State.setImgSlot_cvus (s : State) (n : Nat) (x : ImgSlot) : (s.setImgSlot n x).cvus = s.cvus := rfl
@[simp] theorem State.setImgSlot_kat (s : State) (n : Nat) (x : ImgSlot) : (s.setImgSlot n x).kat = s.kat := rfl
@[simp] theorem State.setImgSlot_test (s : State) (n : Nat) (x : ImgSlot) : (s.setImgSlot n x).test = s.test := rfl
@[simp] theorem State.setImgSlot_beagle (s : State) (n : Nat) (x : ImgSlot) : (s.setImgSlot n x).beagle = s.beagle := rfl
@[simp] theorem State.setImgSlot_log (s : State) (n : Nat) (x : ImgSlot) : (s.setImgSlot n x).log = s.log := rfl
@[simp] theorem State.setImgSlot_bad (s : State) (n : Nat) (x : ImgSlot) : (s.setImgSlot n x).bad = s.bad := rfl
@[simp] theorem State.setImgSlot_out (s : State) (n : Nat) (x : ImgSlot) : (s.setImgSlot n x).out = s.out := rfl
@[simp] theorem State.setImgSlot_free (s : State) (n : Nat) (x : ImgSlot) : (s.setImgSlot n x).free = s.free := rfl
@[simp] theorem State.setImgSlot_pending (s : State) (n : Nat) (x : ImgSlot) : (s.setImgSlot n x).pending = s.pending := rfl

@[simp] theorem State.setCvu_beat (s : State) (n : Nat) (u : Cvu) : (s.setCvu n u).beat = s.beat := rfl
@[simp] theorem State.setCvu_od (s : State) (n : Nat) (u : Cvu) : (s.setCvu n u).od = s.od := rfl
@[simp] theorem State.setCvu_odb (s : State) (n : Nat) (u : Cvu) : (s.setCvu n u).odb = s.odb := rfl
@[simp] theorem State.setCvu_mem (s : State) (n : Nat) (u : Cvu) : (s.setCvu n u).mem = s.mem := rfl
@[simp] theorem State.setCvu_cores (s : State) (n : Nat) (u : Cvu) : (s.setCvu n u).cores = s.cores := rfl
@[simp] theorem State.setCvu_wins (s : State) (n : Nat) (u : Cvu) : (s.setCvu n u).wins = s.wins := rfl
@[simp] theorem State.setCvu_dies (s : State) (n : Nat) (u : Cvu) : (s.setCvu n u).dies = s.dies := rfl
@[simp] theorem State.setCvu_whips (s : State) (n : Nat) (u : Cvu) : (s.setCvu n u).whips = s.whips := rfl
@[simp] theorem State.setCvu_sched (s : State) (n : Nat) (u : Cvu) : (s.setCvu n u).sched = s.sched := rfl
@[simp] theorem State.setCvu_arbs (s : State) (n : Nat) (u : Cvu) : (s.setCvu n u).arbs = s.arbs := rfl
@[simp] theorem State.setCvu_strings (s : State) (n : Nat) (u : Cvu) : (s.setCvu n u).strings = s.strings := rfl
@[simp] theorem State.setCvu_tiles (s : State) (n : Nat) (u : Cvu) : (s.setCvu n u).tiles = s.tiles := rfl
@[simp] theorem State.setCvu_bus (s : State) (n : Nat) (u : Cvu) : (s.setCvu n u).bus = s.bus := rfl
@[simp] theorem State.setCvu_tags (s : State) (n : Nat) (u : Cvu) : (s.setCvu n u).tags = s.tags := rfl
@[simp] theorem State.setCvu_harps (s : State) (n : Nat) (u : Cvu) : (s.setCvu n u).harps = s.harps := rfl
@[simp] theorem State.setCvu_domains (s : State) (n : Nat) (u : Cvu) : (s.setCvu n u).domains = s.domains := rfl
@[simp] theorem State.setCvu_sounding (s : State) (n : Nat) (u : Cvu) : (s.setCvu n u).sounding = s.sounding := rfl
@[simp] theorem State.setCvu_dram (s : State) (n : Nat) (u : Cvu) : (s.setCvu n u).dram = s.dram := rfl
@[simp] theorem State.setCvu_ports (s : State) (n : Nat) (u : Cvu) : (s.setCvu n u).ports = s.ports := rfl
@[simp] theorem State.setCvu_fabric (s : State) (n : Nat) (u : Cvu) : (s.setCvu n u).fabric = s.fabric := rfl
@[simp] theorem State.setCvu_rmem (s : State) (n : Nat) (u : Cvu) : (s.setCvu n u).rmem = s.rmem := rfl
@[simp] theorem State.setCvu_retr (s : State) (n : Nat) (u : Cvu) : (s.setCvu n u).retr = s.retr := rfl
@[simp] theorem State.setCvu_serve (s : State) (n : Nat) (u : Cvu) : (s.setCvu n u).serve = s.serve := rfl
@[simp] theorem State.setCvu_images (s : State) (n : Nat) (u : Cvu) : (s.setCvu n u).images = s.images := rfl
@[simp] theorem State.setCvu_time (s : State) (n : Nat) (u : Cvu) : (s.setCvu n u).time = s.time := rfl
@[simp] theorem State.setCvu_config (s : State) (n : Nat) (u : Cvu) : (s.setCvu n u).config = s.config := rfl
@[simp] theorem State.setCvu_dev (s : State) (n : Nat) (u : Cvu) : (s.setCvu n u).dev = s.dev := rfl
@[simp] theorem State.setCvu_pair (s : State) (n : Nat) (u : Cvu) : (s.setCvu n u).pair = s.pair := rfl
@[simp] theorem State.setCvu_ens (s : State) (n : Nat) (u : Cvu) : (s.setCvu n u).ens = s.ens := rfl
@[simp] theorem State.setCvu_pod (s : State) (n : Nat) (u : Cvu) : (s.setCvu n u).pod = s.pod := rfl
@[simp] theorem State.setCvu_tallies (s : State) (n : Nat) (u : Cvu) : (s.setCvu n u).tallies = s.tallies := rfl
@[simp] theorem State.setCvu_power (s : State) (n : Nat) (u : Cvu) : (s.setCvu n u).power = s.power := rfl
@[simp] theorem State.setCvu_therm (s : State) (n : Nat) (u : Cvu) : (s.setCvu n u).therm = s.therm := rfl
@[simp] theorem State.setCvu_kat (s : State) (n : Nat) (u : Cvu) : (s.setCvu n u).kat = s.kat := rfl
@[simp] theorem State.setCvu_test (s : State) (n : Nat) (u : Cvu) : (s.setCvu n u).test = s.test := rfl
@[simp] theorem State.setCvu_beagle (s : State) (n : Nat) (u : Cvu) : (s.setCvu n u).beagle = s.beagle := rfl
@[simp] theorem State.setCvu_log (s : State) (n : Nat) (u : Cvu) : (s.setCvu n u).log = s.log := rfl
@[simp] theorem State.setCvu_bad (s : State) (n : Nat) (u : Cvu) : (s.setCvu n u).bad = s.bad := rfl
@[simp] theorem State.setCvu_out (s : State) (n : Nat) (u : Cvu) : (s.setCvu n u).out = s.out := rfl
@[simp] theorem State.setCvu_free (s : State) (n : Nat) (u : Cvu) : (s.setCvu n u).free = s.free := rfl
@[simp] theorem State.setCvu_pending (s : State) (n : Nat) (u : Cvu) : (s.setCvu n u).pending = s.pending := rfl

@[simp] theorem State.setThermDie_beat (s : State) (a b : Nat) (t : ThermDie) : (s.setThermDie a b t).beat = s.beat := rfl
@[simp] theorem State.setThermDie_od (s : State) (a b : Nat) (t : ThermDie) : (s.setThermDie a b t).od = s.od := rfl
@[simp] theorem State.setThermDie_odb (s : State) (a b : Nat) (t : ThermDie) : (s.setThermDie a b t).odb = s.odb := rfl
@[simp] theorem State.setThermDie_mem (s : State) (a b : Nat) (t : ThermDie) : (s.setThermDie a b t).mem = s.mem := rfl
@[simp] theorem State.setThermDie_cores (s : State) (a b : Nat) (t : ThermDie) : (s.setThermDie a b t).cores = s.cores := rfl
@[simp] theorem State.setThermDie_wins (s : State) (a b : Nat) (t : ThermDie) : (s.setThermDie a b t).wins = s.wins := rfl
@[simp] theorem State.setThermDie_dies (s : State) (a b : Nat) (t : ThermDie) : (s.setThermDie a b t).dies = s.dies := rfl
@[simp] theorem State.setThermDie_whips (s : State) (a b : Nat) (t : ThermDie) : (s.setThermDie a b t).whips = s.whips := rfl
@[simp] theorem State.setThermDie_sched (s : State) (a b : Nat) (t : ThermDie) : (s.setThermDie a b t).sched = s.sched := rfl
@[simp] theorem State.setThermDie_arbs (s : State) (a b : Nat) (t : ThermDie) : (s.setThermDie a b t).arbs = s.arbs := rfl
@[simp] theorem State.setThermDie_strings (s : State) (a b : Nat) (t : ThermDie) : (s.setThermDie a b t).strings = s.strings := rfl
@[simp] theorem State.setThermDie_tiles (s : State) (a b : Nat) (t : ThermDie) : (s.setThermDie a b t).tiles = s.tiles := rfl
@[simp] theorem State.setThermDie_bus (s : State) (a b : Nat) (t : ThermDie) : (s.setThermDie a b t).bus = s.bus := rfl
@[simp] theorem State.setThermDie_tags (s : State) (a b : Nat) (t : ThermDie) : (s.setThermDie a b t).tags = s.tags := rfl
@[simp] theorem State.setThermDie_harps (s : State) (a b : Nat) (t : ThermDie) : (s.setThermDie a b t).harps = s.harps := rfl
@[simp] theorem State.setThermDie_domains (s : State) (a b : Nat) (t : ThermDie) : (s.setThermDie a b t).domains = s.domains := rfl
@[simp] theorem State.setThermDie_sounding (s : State) (a b : Nat) (t : ThermDie) : (s.setThermDie a b t).sounding = s.sounding := rfl
@[simp] theorem State.setThermDie_dram (s : State) (a b : Nat) (t : ThermDie) : (s.setThermDie a b t).dram = s.dram := rfl
@[simp] theorem State.setThermDie_ports (s : State) (a b : Nat) (t : ThermDie) : (s.setThermDie a b t).ports = s.ports := rfl
@[simp] theorem State.setThermDie_fabric (s : State) (a b : Nat) (t : ThermDie) : (s.setThermDie a b t).fabric = s.fabric := rfl
@[simp] theorem State.setThermDie_rmem (s : State) (a b : Nat) (t : ThermDie) : (s.setThermDie a b t).rmem = s.rmem := rfl
@[simp] theorem State.setThermDie_retr (s : State) (a b : Nat) (t : ThermDie) : (s.setThermDie a b t).retr = s.retr := rfl
@[simp] theorem State.setThermDie_serve (s : State) (a b : Nat) (t : ThermDie) : (s.setThermDie a b t).serve = s.serve := rfl
@[simp] theorem State.setThermDie_images (s : State) (a b : Nat) (t : ThermDie) : (s.setThermDie a b t).images = s.images := rfl
@[simp] theorem State.setThermDie_time (s : State) (a b : Nat) (t : ThermDie) : (s.setThermDie a b t).time = s.time := rfl
@[simp] theorem State.setThermDie_config (s : State) (a b : Nat) (t : ThermDie) : (s.setThermDie a b t).config = s.config := rfl
@[simp] theorem State.setThermDie_dev (s : State) (a b : Nat) (t : ThermDie) : (s.setThermDie a b t).dev = s.dev := rfl
@[simp] theorem State.setThermDie_pair (s : State) (a b : Nat) (t : ThermDie) : (s.setThermDie a b t).pair = s.pair := rfl
@[simp] theorem State.setThermDie_ens (s : State) (a b : Nat) (t : ThermDie) : (s.setThermDie a b t).ens = s.ens := rfl
@[simp] theorem State.setThermDie_pod (s : State) (a b : Nat) (t : ThermDie) : (s.setThermDie a b t).pod = s.pod := rfl
@[simp] theorem State.setThermDie_tallies (s : State) (a b : Nat) (t : ThermDie) : (s.setThermDie a b t).tallies = s.tallies := rfl
@[simp] theorem State.setThermDie_power (s : State) (a b : Nat) (t : ThermDie) : (s.setThermDie a b t).power = s.power := rfl
@[simp] theorem State.setThermDie_cvus (s : State) (a b : Nat) (t : ThermDie) : (s.setThermDie a b t).cvus = s.cvus := rfl
@[simp] theorem State.setThermDie_kat (s : State) (a b : Nat) (t : ThermDie) : (s.setThermDie a b t).kat = s.kat := rfl
@[simp] theorem State.setThermDie_test (s : State) (a b : Nat) (t : ThermDie) : (s.setThermDie a b t).test = s.test := rfl
@[simp] theorem State.setThermDie_beagle (s : State) (a b : Nat) (t : ThermDie) : (s.setThermDie a b t).beagle = s.beagle := rfl
@[simp] theorem State.setThermDie_log (s : State) (a b : Nat) (t : ThermDie) : (s.setThermDie a b t).log = s.log := rfl
@[simp] theorem State.setThermDie_bad (s : State) (a b : Nat) (t : ThermDie) : (s.setThermDie a b t).bad = s.bad := rfl
@[simp] theorem State.setThermDie_out (s : State) (a b : Nat) (t : ThermDie) : (s.setThermDie a b t).out = s.out := rfl
@[simp] theorem State.setThermDie_free (s : State) (a b : Nat) (t : ThermDie) : (s.setThermDie a b t).free = s.free := rfl
@[simp] theorem State.setThermDie_pending (s : State) (a b : Nat) (t : ThermDie) : (s.setThermDie a b t).pending = s.pending := rfl

@[simp] theorem State.store_beat (s : State) (a : Nat) (b : Bytes) : (s.store a b).beat = s.beat := rfl
@[simp] theorem State.store_od (s : State) (a : Nat) (b : Bytes) : (s.store a b).od = s.od := rfl
@[simp] theorem State.store_odb (s : State) (a : Nat) (b : Bytes) : (s.store a b).odb = s.odb := rfl
@[simp] theorem State.store_cores (s : State) (a : Nat) (b : Bytes) : (s.store a b).cores = s.cores := rfl
@[simp] theorem State.store_wins (s : State) (a : Nat) (b : Bytes) : (s.store a b).wins = s.wins := rfl
@[simp] theorem State.store_dies (s : State) (a : Nat) (b : Bytes) : (s.store a b).dies = s.dies := rfl
@[simp] theorem State.store_whips (s : State) (a : Nat) (b : Bytes) : (s.store a b).whips = s.whips := rfl
@[simp] theorem State.store_sched (s : State) (a : Nat) (b : Bytes) : (s.store a b).sched = s.sched := rfl
@[simp] theorem State.store_arbs (s : State) (a : Nat) (b : Bytes) : (s.store a b).arbs = s.arbs := rfl
@[simp] theorem State.store_strings (s : State) (a : Nat) (b : Bytes) : (s.store a b).strings = s.strings := rfl
@[simp] theorem State.store_tiles (s : State) (a : Nat) (b : Bytes) : (s.store a b).tiles = s.tiles := rfl
@[simp] theorem State.store_bus (s : State) (a : Nat) (b : Bytes) : (s.store a b).bus = s.bus := rfl
@[simp] theorem State.store_tags (s : State) (a : Nat) (b : Bytes) : (s.store a b).tags = s.tags := rfl
@[simp] theorem State.store_harps (s : State) (a : Nat) (b : Bytes) : (s.store a b).harps = s.harps := rfl
@[simp] theorem State.store_domains (s : State) (a : Nat) (b : Bytes) : (s.store a b).domains = s.domains := rfl
@[simp] theorem State.store_sounding (s : State) (a : Nat) (b : Bytes) : (s.store a b).sounding = s.sounding := rfl
@[simp] theorem State.store_dram (s : State) (a : Nat) (b : Bytes) : (s.store a b).dram = s.dram := rfl
@[simp] theorem State.store_ports (s : State) (a : Nat) (b : Bytes) : (s.store a b).ports = s.ports := rfl
@[simp] theorem State.store_fabric (s : State) (a : Nat) (b : Bytes) : (s.store a b).fabric = s.fabric := rfl
@[simp] theorem State.store_rmem (s : State) (a : Nat) (b : Bytes) : (s.store a b).rmem = s.rmem := rfl
@[simp] theorem State.store_retr (s : State) (a : Nat) (b : Bytes) : (s.store a b).retr = s.retr := rfl
@[simp] theorem State.store_serve (s : State) (a : Nat) (b : Bytes) : (s.store a b).serve = s.serve := rfl
@[simp] theorem State.store_images (s : State) (a : Nat) (b : Bytes) : (s.store a b).images = s.images := rfl
@[simp] theorem State.store_time (s : State) (a : Nat) (b : Bytes) : (s.store a b).time = s.time := rfl
@[simp] theorem State.store_config (s : State) (a : Nat) (b : Bytes) : (s.store a b).config = s.config := rfl
@[simp] theorem State.store_dev (s : State) (a : Nat) (b : Bytes) : (s.store a b).dev = s.dev := rfl
@[simp] theorem State.store_pair (s : State) (a : Nat) (b : Bytes) : (s.store a b).pair = s.pair := rfl
@[simp] theorem State.store_ens (s : State) (a : Nat) (b : Bytes) : (s.store a b).ens = s.ens := rfl
@[simp] theorem State.store_pod (s : State) (a : Nat) (b : Bytes) : (s.store a b).pod = s.pod := rfl
@[simp] theorem State.store_tallies (s : State) (a : Nat) (b : Bytes) : (s.store a b).tallies = s.tallies := rfl
@[simp] theorem State.store_power (s : State) (a : Nat) (b : Bytes) : (s.store a b).power = s.power := rfl
@[simp] theorem State.store_therm (s : State) (a : Nat) (b : Bytes) : (s.store a b).therm = s.therm := rfl
@[simp] theorem State.store_cvus (s : State) (a : Nat) (b : Bytes) : (s.store a b).cvus = s.cvus := rfl
@[simp] theorem State.store_kat (s : State) (a : Nat) (b : Bytes) : (s.store a b).kat = s.kat := rfl
@[simp] theorem State.store_test (s : State) (a : Nat) (b : Bytes) : (s.store a b).test = s.test := rfl
@[simp] theorem State.store_beagle (s : State) (a : Nat) (b : Bytes) : (s.store a b).beagle = s.beagle := rfl
@[simp] theorem State.store_log (s : State) (a : Nat) (b : Bytes) : (s.store a b).log = s.log := rfl
@[simp] theorem State.store_bad (s : State) (a : Nat) (b : Bytes) : (s.store a b).bad = s.bad := rfl
@[simp] theorem State.store_out (s : State) (a : Nat) (b : Bytes) : (s.store a b).out = s.out := rfl
@[simp] theorem State.store_free (s : State) (a : Nat) (b : Bytes) : (s.store a b).free = s.free := rfl
@[simp] theorem State.store_pending (s : State) (a : Nat) (b : Bytes) : (s.store a b).pending = s.pending := rfl
@[simp] theorem State.store_mem (s : State) (a : Nat) (b : Bytes) : (s.store a b).mem = Memory.writeN a b s.mem := rfl

@[simp] theorem State.emit_beat (s : State) (o : Output) : (s.emit o).beat = s.beat := rfl
@[simp] theorem State.emit_od (s : State) (o : Output) : (s.emit o).od = s.od := rfl
@[simp] theorem State.emit_odb (s : State) (o : Output) : (s.emit o).odb = s.odb := rfl
@[simp] theorem State.emit_mem (s : State) (o : Output) : (s.emit o).mem = s.mem := rfl
@[simp] theorem State.emit_cores (s : State) (o : Output) : (s.emit o).cores = s.cores := rfl
@[simp] theorem State.emit_wins (s : State) (o : Output) : (s.emit o).wins = s.wins := rfl
@[simp] theorem State.emit_dies (s : State) (o : Output) : (s.emit o).dies = s.dies := rfl
@[simp] theorem State.emit_whips (s : State) (o : Output) : (s.emit o).whips = s.whips := rfl
@[simp] theorem State.emit_sched (s : State) (o : Output) : (s.emit o).sched = s.sched := rfl
@[simp] theorem State.emit_arbs (s : State) (o : Output) : (s.emit o).arbs = s.arbs := rfl
@[simp] theorem State.emit_strings (s : State) (o : Output) : (s.emit o).strings = s.strings := rfl
@[simp] theorem State.emit_tiles (s : State) (o : Output) : (s.emit o).tiles = s.tiles := rfl
@[simp] theorem State.emit_bus (s : State) (o : Output) : (s.emit o).bus = s.bus := rfl
@[simp] theorem State.emit_tags (s : State) (o : Output) : (s.emit o).tags = s.tags := rfl
@[simp] theorem State.emit_harps (s : State) (o : Output) : (s.emit o).harps = s.harps := rfl
@[simp] theorem State.emit_domains (s : State) (o : Output) : (s.emit o).domains = s.domains := rfl
@[simp] theorem State.emit_sounding (s : State) (o : Output) : (s.emit o).sounding = s.sounding := rfl
@[simp] theorem State.emit_dram (s : State) (o : Output) : (s.emit o).dram = s.dram := rfl
@[simp] theorem State.emit_ports (s : State) (o : Output) : (s.emit o).ports = s.ports := rfl
@[simp] theorem State.emit_fabric (s : State) (o : Output) : (s.emit o).fabric = s.fabric := rfl
@[simp] theorem State.emit_rmem (s : State) (o : Output) : (s.emit o).rmem = s.rmem := rfl
@[simp] theorem State.emit_retr (s : State) (o : Output) : (s.emit o).retr = s.retr := rfl
@[simp] theorem State.emit_serve (s : State) (o : Output) : (s.emit o).serve = s.serve := rfl
@[simp] theorem State.emit_images (s : State) (o : Output) : (s.emit o).images = s.images := rfl
@[simp] theorem State.emit_time (s : State) (o : Output) : (s.emit o).time = s.time := rfl
@[simp] theorem State.emit_config (s : State) (o : Output) : (s.emit o).config = s.config := rfl
@[simp] theorem State.emit_dev (s : State) (o : Output) : (s.emit o).dev = s.dev := rfl
@[simp] theorem State.emit_pair (s : State) (o : Output) : (s.emit o).pair = s.pair := rfl
@[simp] theorem State.emit_ens (s : State) (o : Output) : (s.emit o).ens = s.ens := rfl
@[simp] theorem State.emit_pod (s : State) (o : Output) : (s.emit o).pod = s.pod := rfl
@[simp] theorem State.emit_tallies (s : State) (o : Output) : (s.emit o).tallies = s.tallies := rfl
@[simp] theorem State.emit_power (s : State) (o : Output) : (s.emit o).power = s.power := rfl
@[simp] theorem State.emit_therm (s : State) (o : Output) : (s.emit o).therm = s.therm := rfl
@[simp] theorem State.emit_cvus (s : State) (o : Output) : (s.emit o).cvus = s.cvus := rfl
@[simp] theorem State.emit_kat (s : State) (o : Output) : (s.emit o).kat = s.kat := rfl
@[simp] theorem State.emit_test (s : State) (o : Output) : (s.emit o).test = s.test := rfl
@[simp] theorem State.emit_beagle (s : State) (o : Output) : (s.emit o).beagle = s.beagle := rfl
@[simp] theorem State.emit_log (s : State) (o : Output) : (s.emit o).log = s.log := rfl
@[simp] theorem State.emit_bad (s : State) (o : Output) : (s.emit o).bad = s.bad := rfl
@[simp] theorem State.emit_free (s : State) (o : Output) : (s.emit o).free = s.free := rfl
@[simp] theorem State.emit_pending (s : State) (o : Output) : (s.emit o).pending = s.pending := rfl
@[simp] theorem State.emit_out (s : State) (o : Output) : (s.emit o).out = s.out ++ [o] := rfl

@[simp] theorem State.drawn_beat (s : State) (n : Nat) : (s.drawn n).beat = s.beat := rfl
@[simp] theorem State.drawn_od (s : State) (n : Nat) : (s.drawn n).od = s.od := rfl
@[simp] theorem State.drawn_odb (s : State) (n : Nat) : (s.drawn n).odb = s.odb := rfl
@[simp] theorem State.drawn_mem (s : State) (n : Nat) : (s.drawn n).mem = s.mem := rfl
@[simp] theorem State.drawn_cores (s : State) (n : Nat) : (s.drawn n).cores = s.cores := rfl
@[simp] theorem State.drawn_wins (s : State) (n : Nat) : (s.drawn n).wins = s.wins := rfl
@[simp] theorem State.drawn_dies (s : State) (n : Nat) : (s.drawn n).dies = s.dies := rfl
@[simp] theorem State.drawn_whips (s : State) (n : Nat) : (s.drawn n).whips = s.whips := rfl
@[simp] theorem State.drawn_sched (s : State) (n : Nat) : (s.drawn n).sched = s.sched := rfl
@[simp] theorem State.drawn_arbs (s : State) (n : Nat) : (s.drawn n).arbs = s.arbs := rfl
@[simp] theorem State.drawn_strings (s : State) (n : Nat) : (s.drawn n).strings = s.strings := rfl
@[simp] theorem State.drawn_tiles (s : State) (n : Nat) : (s.drawn n).tiles = s.tiles := rfl
@[simp] theorem State.drawn_bus (s : State) (n : Nat) : (s.drawn n).bus = s.bus := rfl
@[simp] theorem State.drawn_tags (s : State) (n : Nat) : (s.drawn n).tags = s.tags := rfl
@[simp] theorem State.drawn_harps (s : State) (n : Nat) : (s.drawn n).harps = s.harps := rfl
@[simp] theorem State.drawn_domains (s : State) (n : Nat) : (s.drawn n).domains = s.domains := rfl
@[simp] theorem State.drawn_sounding (s : State) (n : Nat) : (s.drawn n).sounding = s.sounding := rfl
@[simp] theorem State.drawn_dram (s : State) (n : Nat) : (s.drawn n).dram = s.dram := rfl
@[simp] theorem State.drawn_ports (s : State) (n : Nat) : (s.drawn n).ports = s.ports := rfl
@[simp] theorem State.drawn_fabric (s : State) (n : Nat) : (s.drawn n).fabric = s.fabric := rfl
@[simp] theorem State.drawn_rmem (s : State) (n : Nat) : (s.drawn n).rmem = s.rmem := rfl
@[simp] theorem State.drawn_retr (s : State) (n : Nat) : (s.drawn n).retr = s.retr := rfl
@[simp] theorem State.drawn_serve (s : State) (n : Nat) : (s.drawn n).serve = s.serve := rfl
@[simp] theorem State.drawn_images (s : State) (n : Nat) : (s.drawn n).images = s.images := rfl
@[simp] theorem State.drawn_time (s : State) (n : Nat) : (s.drawn n).time = s.time := rfl
@[simp] theorem State.drawn_config (s : State) (n : Nat) : (s.drawn n).config = s.config := rfl
@[simp] theorem State.drawn_dev (s : State) (n : Nat) : (s.drawn n).dev = s.dev := rfl
@[simp] theorem State.drawn_pair (s : State) (n : Nat) : (s.drawn n).pair = s.pair := rfl
@[simp] theorem State.drawn_ens (s : State) (n : Nat) : (s.drawn n).ens = s.ens := rfl
@[simp] theorem State.drawn_pod (s : State) (n : Nat) : (s.drawn n).pod = s.pod := rfl
@[simp] theorem State.drawn_tallies (s : State) (n : Nat) : (s.drawn n).tallies = s.tallies := rfl
@[simp] theorem State.drawn_power (s : State) (n : Nat) : (s.drawn n).power = s.power := rfl
@[simp] theorem State.drawn_therm (s : State) (n : Nat) : (s.drawn n).therm = s.therm := rfl
@[simp] theorem State.drawn_cvus (s : State) (n : Nat) : (s.drawn n).cvus = s.cvus := rfl
@[simp] theorem State.drawn_kat (s : State) (n : Nat) : (s.drawn n).kat = s.kat := rfl
@[simp] theorem State.drawn_test (s : State) (n : Nat) : (s.drawn n).test = s.test := rfl
@[simp] theorem State.drawn_beagle (s : State) (n : Nat) : (s.drawn n).beagle = s.beagle := rfl
@[simp] theorem State.drawn_log (s : State) (n : Nat) : (s.drawn n).log = s.log := rfl
@[simp] theorem State.drawn_bad (s : State) (n : Nat) : (s.drawn n).bad = s.bad := rfl
@[simp] theorem State.drawn_out (s : State) (n : Nat) : (s.drawn n).out = s.out := rfl
@[simp] theorem State.drawn_pending (s : State) (n : Nat) : (s.drawn n).pending = s.pending := rfl
@[simp] theorem State.drawn_free (s : State) (n : Nat) : (s.drawn n).free = s.free + n := rfl

@[simp] theorem State.setObj_beat (s : State) (k v : Nat) : (s.setObj k v).beat = s.beat := rfl
@[simp] theorem State.setObj_odb (s : State) (k v : Nat) : (s.setObj k v).odb = s.odb := rfl
@[simp] theorem State.setObj_mem (s : State) (k v : Nat) : (s.setObj k v).mem = s.mem := rfl
@[simp] theorem State.setObj_cores (s : State) (k v : Nat) : (s.setObj k v).cores = s.cores := rfl
@[simp] theorem State.setObj_wins (s : State) (k v : Nat) : (s.setObj k v).wins = s.wins := rfl
@[simp] theorem State.setObj_dies (s : State) (k v : Nat) : (s.setObj k v).dies = s.dies := rfl
@[simp] theorem State.setObj_whips (s : State) (k v : Nat) : (s.setObj k v).whips = s.whips := rfl
@[simp] theorem State.setObj_sched (s : State) (k v : Nat) : (s.setObj k v).sched = s.sched := rfl
@[simp] theorem State.setObj_arbs (s : State) (k v : Nat) : (s.setObj k v).arbs = s.arbs := rfl
@[simp] theorem State.setObj_strings (s : State) (k v : Nat) : (s.setObj k v).strings = s.strings := rfl
@[simp] theorem State.setObj_tiles (s : State) (k v : Nat) : (s.setObj k v).tiles = s.tiles := rfl
@[simp] theorem State.setObj_bus (s : State) (k v : Nat) : (s.setObj k v).bus = s.bus := rfl
@[simp] theorem State.setObj_tags (s : State) (k v : Nat) : (s.setObj k v).tags = s.tags := rfl
@[simp] theorem State.setObj_harps (s : State) (k v : Nat) : (s.setObj k v).harps = s.harps := rfl
@[simp] theorem State.setObj_domains (s : State) (k v : Nat) : (s.setObj k v).domains = s.domains := rfl
@[simp] theorem State.setObj_sounding (s : State) (k v : Nat) : (s.setObj k v).sounding = s.sounding := rfl
@[simp] theorem State.setObj_dram (s : State) (k v : Nat) : (s.setObj k v).dram = s.dram := rfl
@[simp] theorem State.setObj_ports (s : State) (k v : Nat) : (s.setObj k v).ports = s.ports := rfl
@[simp] theorem State.setObj_fabric (s : State) (k v : Nat) : (s.setObj k v).fabric = s.fabric := rfl
@[simp] theorem State.setObj_rmem (s : State) (k v : Nat) : (s.setObj k v).rmem = s.rmem := rfl
@[simp] theorem State.setObj_retr (s : State) (k v : Nat) : (s.setObj k v).retr = s.retr := rfl
@[simp] theorem State.setObj_serve (s : State) (k v : Nat) : (s.setObj k v).serve = s.serve := rfl
@[simp] theorem State.setObj_images (s : State) (k v : Nat) : (s.setObj k v).images = s.images := rfl
@[simp] theorem State.setObj_time (s : State) (k v : Nat) : (s.setObj k v).time = s.time := rfl
@[simp] theorem State.setObj_config (s : State) (k v : Nat) : (s.setObj k v).config = s.config := rfl
@[simp] theorem State.setObj_dev (s : State) (k v : Nat) : (s.setObj k v).dev = s.dev := rfl
@[simp] theorem State.setObj_pair (s : State) (k v : Nat) : (s.setObj k v).pair = s.pair := rfl
@[simp] theorem State.setObj_ens (s : State) (k v : Nat) : (s.setObj k v).ens = s.ens := rfl
@[simp] theorem State.setObj_pod (s : State) (k v : Nat) : (s.setObj k v).pod = s.pod := rfl
@[simp] theorem State.setObj_tallies (s : State) (k v : Nat) : (s.setObj k v).tallies = s.tallies := rfl
@[simp] theorem State.setObj_power (s : State) (k v : Nat) : (s.setObj k v).power = s.power := rfl
@[simp] theorem State.setObj_therm (s : State) (k v : Nat) : (s.setObj k v).therm = s.therm := rfl
@[simp] theorem State.setObj_cvus (s : State) (k v : Nat) : (s.setObj k v).cvus = s.cvus := rfl
@[simp] theorem State.setObj_kat (s : State) (k v : Nat) : (s.setObj k v).kat = s.kat := rfl
@[simp] theorem State.setObj_test (s : State) (k v : Nat) : (s.setObj k v).test = s.test := rfl
@[simp] theorem State.setObj_beagle (s : State) (k v : Nat) : (s.setObj k v).beagle = s.beagle := rfl
@[simp] theorem State.setObj_log (s : State) (k v : Nat) : (s.setObj k v).log = s.log := rfl
@[simp] theorem State.setObj_bad (s : State) (k v : Nat) : (s.setObj k v).bad = s.bad := rfl
@[simp] theorem State.setObj_out (s : State) (k v : Nat) : (s.setObj k v).out = s.out := rfl
@[simp] theorem State.setObj_free (s : State) (k v : Nat) : (s.setObj k v).free = s.free := rfl
@[simp] theorem State.setObj_pending (s : State) (k v : Nat) : (s.setObj k v).pending = s.pending := rfl

@[simp] theorem State.setObjI_beat (s : State) (k : Nat) (v : Int) : (s.setObjI k v).beat = s.beat := rfl
@[simp] theorem State.setObjI_odb (s : State) (k : Nat) (v : Int) : (s.setObjI k v).odb = s.odb := rfl
@[simp] theorem State.setObjI_mem (s : State) (k : Nat) (v : Int) : (s.setObjI k v).mem = s.mem := rfl
@[simp] theorem State.setObjI_cores (s : State) (k : Nat) (v : Int) : (s.setObjI k v).cores = s.cores := rfl
@[simp] theorem State.setObjI_wins (s : State) (k : Nat) (v : Int) : (s.setObjI k v).wins = s.wins := rfl
@[simp] theorem State.setObjI_dies (s : State) (k : Nat) (v : Int) : (s.setObjI k v).dies = s.dies := rfl
@[simp] theorem State.setObjI_whips (s : State) (k : Nat) (v : Int) : (s.setObjI k v).whips = s.whips := rfl
@[simp] theorem State.setObjI_sched (s : State) (k : Nat) (v : Int) : (s.setObjI k v).sched = s.sched := rfl
@[simp] theorem State.setObjI_arbs (s : State) (k : Nat) (v : Int) : (s.setObjI k v).arbs = s.arbs := rfl
@[simp] theorem State.setObjI_strings (s : State) (k : Nat) (v : Int) : (s.setObjI k v).strings = s.strings := rfl
@[simp] theorem State.setObjI_tiles (s : State) (k : Nat) (v : Int) : (s.setObjI k v).tiles = s.tiles := rfl
@[simp] theorem State.setObjI_bus (s : State) (k : Nat) (v : Int) : (s.setObjI k v).bus = s.bus := rfl
@[simp] theorem State.setObjI_tags (s : State) (k : Nat) (v : Int) : (s.setObjI k v).tags = s.tags := rfl
@[simp] theorem State.setObjI_harps (s : State) (k : Nat) (v : Int) : (s.setObjI k v).harps = s.harps := rfl
@[simp] theorem State.setObjI_domains (s : State) (k : Nat) (v : Int) : (s.setObjI k v).domains = s.domains := rfl
@[simp] theorem State.setObjI_sounding (s : State) (k : Nat) (v : Int) : (s.setObjI k v).sounding = s.sounding := rfl
@[simp] theorem State.setObjI_dram (s : State) (k : Nat) (v : Int) : (s.setObjI k v).dram = s.dram := rfl
@[simp] theorem State.setObjI_ports (s : State) (k : Nat) (v : Int) : (s.setObjI k v).ports = s.ports := rfl
@[simp] theorem State.setObjI_fabric (s : State) (k : Nat) (v : Int) : (s.setObjI k v).fabric = s.fabric := rfl
@[simp] theorem State.setObjI_rmem (s : State) (k : Nat) (v : Int) : (s.setObjI k v).rmem = s.rmem := rfl
@[simp] theorem State.setObjI_retr (s : State) (k : Nat) (v : Int) : (s.setObjI k v).retr = s.retr := rfl
@[simp] theorem State.setObjI_serve (s : State) (k : Nat) (v : Int) : (s.setObjI k v).serve = s.serve := rfl
@[simp] theorem State.setObjI_images (s : State) (k : Nat) (v : Int) : (s.setObjI k v).images = s.images := rfl
@[simp] theorem State.setObjI_time (s : State) (k : Nat) (v : Int) : (s.setObjI k v).time = s.time := rfl
@[simp] theorem State.setObjI_config (s : State) (k : Nat) (v : Int) : (s.setObjI k v).config = s.config := rfl
@[simp] theorem State.setObjI_dev (s : State) (k : Nat) (v : Int) : (s.setObjI k v).dev = s.dev := rfl
@[simp] theorem State.setObjI_pair (s : State) (k : Nat) (v : Int) : (s.setObjI k v).pair = s.pair := rfl
@[simp] theorem State.setObjI_ens (s : State) (k : Nat) (v : Int) : (s.setObjI k v).ens = s.ens := rfl
@[simp] theorem State.setObjI_pod (s : State) (k : Nat) (v : Int) : (s.setObjI k v).pod = s.pod := rfl
@[simp] theorem State.setObjI_tallies (s : State) (k : Nat) (v : Int) : (s.setObjI k v).tallies = s.tallies := rfl
@[simp] theorem State.setObjI_power (s : State) (k : Nat) (v : Int) : (s.setObjI k v).power = s.power := rfl
@[simp] theorem State.setObjI_therm (s : State) (k : Nat) (v : Int) : (s.setObjI k v).therm = s.therm := rfl
@[simp] theorem State.setObjI_cvus (s : State) (k : Nat) (v : Int) : (s.setObjI k v).cvus = s.cvus := rfl
@[simp] theorem State.setObjI_kat (s : State) (k : Nat) (v : Int) : (s.setObjI k v).kat = s.kat := rfl
@[simp] theorem State.setObjI_test (s : State) (k : Nat) (v : Int) : (s.setObjI k v).test = s.test := rfl
@[simp] theorem State.setObjI_beagle (s : State) (k : Nat) (v : Int) : (s.setObjI k v).beagle = s.beagle := rfl
@[simp] theorem State.setObjI_log (s : State) (k : Nat) (v : Int) : (s.setObjI k v).log = s.log := rfl
@[simp] theorem State.setObjI_bad (s : State) (k : Nat) (v : Int) : (s.setObjI k v).bad = s.bad := rfl
@[simp] theorem State.setObjI_out (s : State) (k : Nat) (v : Int) : (s.setObjI k v).out = s.out := rfl
@[simp] theorem State.setObjI_free (s : State) (k : Nat) (v : Int) : (s.setObjI k v).free = s.free := rfl
@[simp] theorem State.setObjI_pending (s : State) (k : Nat) (v : Int) : (s.setObjI k v).pending = s.pending := rfl

@[simp] theorem State.count_beat (s : State) (k n : Nat) : (s.count k n).beat = s.beat := rfl
@[simp] theorem State.count_odb (s : State) (k n : Nat) : (s.count k n).odb = s.odb := rfl
@[simp] theorem State.count_mem (s : State) (k n : Nat) : (s.count k n).mem = s.mem := rfl
@[simp] theorem State.count_cores (s : State) (k n : Nat) : (s.count k n).cores = s.cores := rfl
@[simp] theorem State.count_wins (s : State) (k n : Nat) : (s.count k n).wins = s.wins := rfl
@[simp] theorem State.count_dies (s : State) (k n : Nat) : (s.count k n).dies = s.dies := rfl
@[simp] theorem State.count_whips (s : State) (k n : Nat) : (s.count k n).whips = s.whips := rfl
@[simp] theorem State.count_sched (s : State) (k n : Nat) : (s.count k n).sched = s.sched := rfl
@[simp] theorem State.count_arbs (s : State) (k n : Nat) : (s.count k n).arbs = s.arbs := rfl
@[simp] theorem State.count_strings (s : State) (k n : Nat) : (s.count k n).strings = s.strings := rfl
@[simp] theorem State.count_tiles (s : State) (k n : Nat) : (s.count k n).tiles = s.tiles := rfl
@[simp] theorem State.count_bus (s : State) (k n : Nat) : (s.count k n).bus = s.bus := rfl
@[simp] theorem State.count_tags (s : State) (k n : Nat) : (s.count k n).tags = s.tags := rfl
@[simp] theorem State.count_harps (s : State) (k n : Nat) : (s.count k n).harps = s.harps := rfl
@[simp] theorem State.count_domains (s : State) (k n : Nat) : (s.count k n).domains = s.domains := rfl
@[simp] theorem State.count_sounding (s : State) (k n : Nat) : (s.count k n).sounding = s.sounding := rfl
@[simp] theorem State.count_dram (s : State) (k n : Nat) : (s.count k n).dram = s.dram := rfl
@[simp] theorem State.count_ports (s : State) (k n : Nat) : (s.count k n).ports = s.ports := rfl
@[simp] theorem State.count_fabric (s : State) (k n : Nat) : (s.count k n).fabric = s.fabric := rfl
@[simp] theorem State.count_rmem (s : State) (k n : Nat) : (s.count k n).rmem = s.rmem := rfl
@[simp] theorem State.count_retr (s : State) (k n : Nat) : (s.count k n).retr = s.retr := rfl
@[simp] theorem State.count_serve (s : State) (k n : Nat) : (s.count k n).serve = s.serve := rfl
@[simp] theorem State.count_images (s : State) (k n : Nat) : (s.count k n).images = s.images := rfl
@[simp] theorem State.count_time (s : State) (k n : Nat) : (s.count k n).time = s.time := rfl
@[simp] theorem State.count_config (s : State) (k n : Nat) : (s.count k n).config = s.config := rfl
@[simp] theorem State.count_dev (s : State) (k n : Nat) : (s.count k n).dev = s.dev := rfl
@[simp] theorem State.count_pair (s : State) (k n : Nat) : (s.count k n).pair = s.pair := rfl
@[simp] theorem State.count_ens (s : State) (k n : Nat) : (s.count k n).ens = s.ens := rfl
@[simp] theorem State.count_pod (s : State) (k n : Nat) : (s.count k n).pod = s.pod := rfl
@[simp] theorem State.count_tallies (s : State) (k n : Nat) : (s.count k n).tallies = s.tallies := rfl
@[simp] theorem State.count_power (s : State) (k n : Nat) : (s.count k n).power = s.power := rfl
@[simp] theorem State.count_therm (s : State) (k n : Nat) : (s.count k n).therm = s.therm := rfl
@[simp] theorem State.count_cvus (s : State) (k n : Nat) : (s.count k n).cvus = s.cvus := rfl
@[simp] theorem State.count_kat (s : State) (k n : Nat) : (s.count k n).kat = s.kat := rfl
@[simp] theorem State.count_test (s : State) (k n : Nat) : (s.count k n).test = s.test := rfl
@[simp] theorem State.count_beagle (s : State) (k n : Nat) : (s.count k n).beagle = s.beagle := rfl
@[simp] theorem State.count_log (s : State) (k n : Nat) : (s.count k n).log = s.log := rfl
@[simp] theorem State.count_bad (s : State) (k n : Nat) : (s.count k n).bad = s.bad := rfl
@[simp] theorem State.count_out (s : State) (k n : Nat) : (s.count k n).out = s.out := rfl
@[simp] theorem State.count_free (s : State) (k n : Nat) : (s.count k n).free = s.free := rfl
@[simp] theorem State.count_pending (s : State) (k n : Nat) : (s.count k n).pending = s.pending := rfl

@[simp] theorem State.setObjB_beat (s : State) (k : Nat) (b : Bytes) : (s.setObjB k b).beat = s.beat := rfl
@[simp] theorem State.setObjB_od (s : State) (k : Nat) (b : Bytes) : (s.setObjB k b).od = s.od := rfl
@[simp] theorem State.setObjB_mem (s : State) (k : Nat) (b : Bytes) : (s.setObjB k b).mem = s.mem := rfl
@[simp] theorem State.setObjB_cores (s : State) (k : Nat) (b : Bytes) : (s.setObjB k b).cores = s.cores := rfl
@[simp] theorem State.setObjB_wins (s : State) (k : Nat) (b : Bytes) : (s.setObjB k b).wins = s.wins := rfl
@[simp] theorem State.setObjB_dies (s : State) (k : Nat) (b : Bytes) : (s.setObjB k b).dies = s.dies := rfl
@[simp] theorem State.setObjB_whips (s : State) (k : Nat) (b : Bytes) : (s.setObjB k b).whips = s.whips := rfl
@[simp] theorem State.setObjB_sched (s : State) (k : Nat) (b : Bytes) : (s.setObjB k b).sched = s.sched := rfl
@[simp] theorem State.setObjB_arbs (s : State) (k : Nat) (b : Bytes) : (s.setObjB k b).arbs = s.arbs := rfl
@[simp] theorem State.setObjB_strings (s : State) (k : Nat) (b : Bytes) : (s.setObjB k b).strings = s.strings := rfl
@[simp] theorem State.setObjB_tiles (s : State) (k : Nat) (b : Bytes) : (s.setObjB k b).tiles = s.tiles := rfl
@[simp] theorem State.setObjB_bus (s : State) (k : Nat) (b : Bytes) : (s.setObjB k b).bus = s.bus := rfl
@[simp] theorem State.setObjB_tags (s : State) (k : Nat) (b : Bytes) : (s.setObjB k b).tags = s.tags := rfl
@[simp] theorem State.setObjB_harps (s : State) (k : Nat) (b : Bytes) : (s.setObjB k b).harps = s.harps := rfl
@[simp] theorem State.setObjB_domains (s : State) (k : Nat) (b : Bytes) : (s.setObjB k b).domains = s.domains := rfl
@[simp] theorem State.setObjB_sounding (s : State) (k : Nat) (b : Bytes) : (s.setObjB k b).sounding = s.sounding := rfl
@[simp] theorem State.setObjB_dram (s : State) (k : Nat) (b : Bytes) : (s.setObjB k b).dram = s.dram := rfl
@[simp] theorem State.setObjB_ports (s : State) (k : Nat) (b : Bytes) : (s.setObjB k b).ports = s.ports := rfl
@[simp] theorem State.setObjB_fabric (s : State) (k : Nat) (b : Bytes) : (s.setObjB k b).fabric = s.fabric := rfl
@[simp] theorem State.setObjB_rmem (s : State) (k : Nat) (b : Bytes) : (s.setObjB k b).rmem = s.rmem := rfl
@[simp] theorem State.setObjB_retr (s : State) (k : Nat) (b : Bytes) : (s.setObjB k b).retr = s.retr := rfl
@[simp] theorem State.setObjB_serve (s : State) (k : Nat) (b : Bytes) : (s.setObjB k b).serve = s.serve := rfl
@[simp] theorem State.setObjB_images (s : State) (k : Nat) (b : Bytes) : (s.setObjB k b).images = s.images := rfl
@[simp] theorem State.setObjB_time (s : State) (k : Nat) (b : Bytes) : (s.setObjB k b).time = s.time := rfl
@[simp] theorem State.setObjB_config (s : State) (k : Nat) (b : Bytes) : (s.setObjB k b).config = s.config := rfl
@[simp] theorem State.setObjB_dev (s : State) (k : Nat) (b : Bytes) : (s.setObjB k b).dev = s.dev := rfl
@[simp] theorem State.setObjB_pair (s : State) (k : Nat) (b : Bytes) : (s.setObjB k b).pair = s.pair := rfl
@[simp] theorem State.setObjB_ens (s : State) (k : Nat) (b : Bytes) : (s.setObjB k b).ens = s.ens := rfl
@[simp] theorem State.setObjB_pod (s : State) (k : Nat) (b : Bytes) : (s.setObjB k b).pod = s.pod := rfl
@[simp] theorem State.setObjB_tallies (s : State) (k : Nat) (b : Bytes) : (s.setObjB k b).tallies = s.tallies := rfl
@[simp] theorem State.setObjB_power (s : State) (k : Nat) (b : Bytes) : (s.setObjB k b).power = s.power := rfl
@[simp] theorem State.setObjB_therm (s : State) (k : Nat) (b : Bytes) : (s.setObjB k b).therm = s.therm := rfl
@[simp] theorem State.setObjB_cvus (s : State) (k : Nat) (b : Bytes) : (s.setObjB k b).cvus = s.cvus := rfl
@[simp] theorem State.setObjB_kat (s : State) (k : Nat) (b : Bytes) : (s.setObjB k b).kat = s.kat := rfl
@[simp] theorem State.setObjB_test (s : State) (k : Nat) (b : Bytes) : (s.setObjB k b).test = s.test := rfl
@[simp] theorem State.setObjB_beagle (s : State) (k : Nat) (b : Bytes) : (s.setObjB k b).beagle = s.beagle := rfl
@[simp] theorem State.setObjB_log (s : State) (k : Nat) (b : Bytes) : (s.setObjB k b).log = s.log := rfl
@[simp] theorem State.setObjB_bad (s : State) (k : Nat) (b : Bytes) : (s.setObjB k b).bad = s.bad := rfl
@[simp] theorem State.setObjB_out (s : State) (k : Nat) (b : Bytes) : (s.setObjB k b).out = s.out := rfl
@[simp] theorem State.setObjB_free (s : State) (k : Nat) (b : Bytes) : (s.setObjB k b).free = s.free := rfl
@[simp] theorem State.setObjB_pending (s : State) (k : Nat) (b : Bytes) : (s.setObjB k b).pending = s.pending := rfl

end Sys2Proof.Machine
end

