-- ==== Sys2Proof/Tests/Slice0.lean ====
section
/-! SUPPORT. Tests: worked examples of the spec, a command refused by each check of WellFormed, and for each statement a state
and operands that meet the hypotheses of every clause. -/

set_option linter.all false
set_option Elab.async false
open Sys2Proof Sys2Proof.Machine
namespace Sys2Proof.Tests

/-- An image with nothing in it. -/
def bareImage : Image :=
  { header := 0, manifest := 0, fileBytes := 0, digest := [], signedBy := none, sections := [], windows := [], routines := []
    items := [], variants := [], successors := [], collectives := [], sendDescs := [], winEntries := [] }

/-- A window with a descriptor and nothing else. -/
def bareWindow (desc : BitVec 512) : WindowImg := { desc, reserve := [], barriers := [], kernels := [] }


/-- The smallest image that a module after reset loads, once its key is provisioned: one empty section. -/
def loadableImage : Image :=
  { bareImage with
    header := BitVec.ofNat 1024 (0x4D494B49 + 2 ^ 32 + 2 ^ 48 + 344 * 2 ^ 64 + 128 * 2 ^ 128 + 128 * 2 ^ 160 + 256 * 2 ^ 192)
    manifest := BitVec.ofNat 1024 (2 ^ 64), fileBytes := 344, digest := [5], signedBy := some (List.replicate 32 1)
    sections := [{ kind := 1, target := 0xFF, reserved := 0, dest := 0, source := 0, length := 0, data := [] }] }

/-- A bundle that holds one operation and nothing else. -/
def bundleOf (u : SlotUse) : BitVec 256 :=
  if u.slot < 7 then
    BitVec.ofNat 256 (u.fields.foldl (fun n f => n + f.2.2 * 2 ^ (slotLow u.slot + f.1)) (u.op * 2 ^ slotLow u.slot))
  else 0

/-! Worked examples of the spec. -/

/-- Example after R47: 0.3 to E4M3. -/
theorem test_convert_e4m3 : (floatEncode fmtE4M3 .rne true false (f32 0x3E99999A)).1 = 0x2A := by decide +kernel
/-- Example after R47: 500 saturates in E4M3. -/
theorem test_convert_saturates : floatEncode fmtE4M3 .rne true false (f32 0x43FA0000) = (0x7E, flagSAT) := by decide +kernel
/-- Example after R47: 500 to E5M2 without the saturate bit. -/
theorem test_convert_e5m2 : floatEncode fmtE5M2 .rne false false (f32 0x43FA0000) = (0x60, 0) := by decide +kernel
/-- Example after R47: 2.6, and the tie 2.5, to E2M1. -/
theorem test_convert_e2m1 :
    (floatEncode fmtE2M1 .rne true false (f32 0x40266666)).1 = 0x5 ∧
    (floatEncode fmtE2M1 .rne true false (f32 0x40200000)).1 = 0x4 := by decide +kernel
/-- Example after R47: 2.6 to E2M1 stochastically, with two random words. -/
theorem test_convert_stochastic :
    (floatEncode fmtE2M1 (.stoch 0x7A3C1F00) true false (f32 0x40266666)).1 = 0x5 ∧
    (floatEncode fmtE2M1 (.stoch 0x666667FF) true false (f32 0x40266666)).1 = 0x4 := by decide +kernel
/-- Example after R47: a BFP4 block with amax 13. -/
theorem test_convert_block :
    rowEncode fmtBFP4 (fun _ => .rne) true false ([f32 0x41500000, f32 0xBF333333] ++ List.replicate 30 (f32 0)) =
      ([0x80], [0x7, 0x9] ++ List.replicate 30 0, 0) := by decide +kernel
/-- Example after R44: two groups of E4M3 products, each exact, give 225 × 2⁻⁹ in FP32 and 0x2E in E4M3. -/
theorem test_dot_product :
    let a : Row := { fmt := 3, codes := [some 0x78, some 0x01, some 0xF8] ++ List.replicate 29 (some 0) ++ [some 0x46] ++ List.replicate 31 (some 0), scales := [], usable := 0 }
    let b : Row := { fmt := 3, codes := [some 0x78, some 0x38, some 0x78] ++ List.replicate 29 (some 0) ++ [some 0x20] ++ List.replicate 31 (some 0), scales := [], usable := 0 }
    (columnUpdate false .fp32 a b 64 0).1 = 0x3EE10000 ∧
    (floatEncode fmtE4M3 .rne true false (f32 0x3EE10000)).1 = 0x2E := by decide +kernel
/-- Example of R38: the weights +1, −1, 0, 0, +1. -/
theorem test_trits : tritsOf 0x58 = [1, -1, 0, 0, 1] := by decide
/-- Example of R125: the strings between compute die 4 (site 7) and stack 0 (site 0). -/
theorem test_strings :
    stringEnds 196 = (7, 0) ∧ stringEnds 844 = (7, 0) ∧ stringEnds 6 = (0, 7) ∧ stringEnds 944 = (0, 7) ∧
    primaryString 7 0 = 196 := by decide
/-- R177: page 0x123456 lies in stack 6 xor 2 xor 1. -/
theorem test_home_stack : pageStack 0x123456 = 5 := by decide
/-- R350: the check value of CRC-32C over the digits 1 to 9. -/
theorem test_crc32c : crc32c [0x31, 0x32, 0x33, 0x34, 0x35, 0x36, 0x37, 0x38, 0x39] = 0xE3069283 := by decide +kernel
/-- R350: the check values of CRC-32 and of the prefix hash with seed 0. -/
theorem test_crc_others :
    crcOf 32 0x04C11DB7 0xFFFFFFFF true true 0xFFFFFFFF [0x31, 0x32, 0x33, 0x34, 0x35, 0x36, 0x37, 0x38, 0x39] = 0xCBF43926 ∧
    crcOf 64 0x42F0E1EBA9EA3693 0 false false 0 [0x31, 0x32, 0x33, 0x34, 0x35, 0x36, 0x37, 0x38, 0x39] = 0x6C40DF5F0B497347 := by
  decide +kernel
/-- Example of R350 through the unit: DATA32, DATA32, DATA8 take 9 cycles, and VALUE is 0x3EB69F38. -/
theorem test_check_value_unit :
    let u : Cvu := { ctrl := 0xDF, poly := 0x1EDC6F41, xorout := 0xFFFFFFFF, init := 0xFFFFFFFF, reg := 0xFFFFFFFF }
    let v := (leBytes 4 0x34333231 ++ leBytes 4 0x38373635 ++ leBytes 1 0x39).foldl cvuFeed u
    v.reg = 0x3EB69F38 ∧ cvuResult v = 0xE3069283 := by decide +kernel
/-- Example of R313: shares of 370,000 mWh between two tenants. -/
theorem test_apportion :
    apportion 32 370000 [(37, (64000000, 300000000)), (52, (32000000, 120000000))] =
      ([(37, 64000000, 300000000, 263796), (52, 32000000, 120000000, 106203)], 1) := by decide +kernel
/-- Example of R215: 2²⁴ + 1 ties to 2²⁴, then −16,777,215 leaves 1.0. -/
theorem test_collective_sum :
    (f32Add false (f32Add false 0x4B800000 0x3F800000).1 (f32Add false 0xCB800000 0x3F800000).1).1 = 0x3F800000 := by
  decide +kernel

/-! A command that each check of WellFormed refuses. -/

/-- A request over the UART whose CRC was right. -/
def hdr : DictHdr := ⟨true, true, [], 1, 1, 4, 0, 9⟩
def pkt : Packet := { hdr := 0, payload := [] }
def gw (kind : BitVec 4) (n : Nat) : GwMsg :=
  { slice := 0, version := 1, kind, srcPod := 0, dstPod := 0, session := 0, seq := 0, ack := 0, readCr := 0, storeCr := 0
    key := [], body := 0, payload := List.replicate n 0 }
def dg (kind : Byte) (n : Nat) : Dgram :=
  { port := 0, version := 1, kind, tenant := 0, session := 0, seq := 0, ack := 0, key := [], body := List.replicate n 0 }

theorem test_wf_long_write : Instr.wf (.tileReset ⟨hdr, 6, 1385, 0, true, List.replicate 1385 0⟩) = false := by decide +kernel
theorem test_wf_segment_beyond : Instr.wf (.tileReset ⟨hdr, 6, 1, 1, true, [0]⟩) = false := by decide
theorem test_wf_total_too_large : Instr.wf (.imageUpload ⟨hdr, 15, 2 ^ 32, 0, false, [0]⟩ none) = false := by decide
theorem test_wf_frame : Instr.wf (.writeFrame 0 { hdr := 0, payload := List.replicate 65 0, crc := 0 }) = false := by decide
theorem test_wf_packet : Instr.wf (.load 0 { hdr := 0, payload := List.replicate 4097 0 }) = false := by decide +kernel
theorem test_wf_record_body : Instr.wf (.request (dg 3 8193)) = false := by decide +kernel
theorem test_wf_record_kind : Instr.wf (.request (dg 4 0)) = false ∧ Instr.wf (.reservedKind (dg 3 0)) = false := by decide
theorem test_wf_gateway_payload :
    Instr.wf (.retrieverReadData (gw 4 4095)) = false ∧ Instr.wf (.flush (gw 5 4096)) = false ∧
    Instr.wf (.retrieverIdle (gw 7 1)) = false := by decide +kernel
theorem test_wf_gateway_kind : Instr.wf (.flushAck (gw 7 0)) = false := by decide
theorem test_wf_lane : Instr.wf (.laneCheckDone 0 [{ string := 0, line := 17, rx := 0, eye := 0, margin := 0, latency := 0 }]) = false ∧
    Instr.wf (.marginTestDone [{ string := 1126, line := 0, rx := 0, eye := 0, margin := 0, latency := 0 }]) = false := by decide
theorem test_wf_agent : Instr.wf (.data8 (.hub 0 28) 0) = false ∧ Instr.wf (.ctrl (.hub 0 33) 0) = false := by decide
theorem test_wf_train : Instr.wf (.fabricTrainOffer 0 { level := 256, lowest := 1, node := 0, port := 0, width := 1, height := 1, digest := 0 }) = false ∧
    Instr.wf (.fabricTrainAccept 0 { level := 1, lowest := 1, node := 0, port := 16, width := 1, height := 1, digest := 0 }) = false := by decide
theorem test_wf_stamp : SyncRec.wf { flags := 0, refNode := 0, hops := 0, source := 0, utcOff := 0, t3 := 2 ^ 80, t1 := 0, t2 := 0, error := 0 } = false := by decide
theorem test_wf_tenant : Instr.wf (.tally { flags := 0, seq := 0, beat := 0, entries := [{ tenant := 4096, input := 0, output := 0 }], jump := false, crc := 0 }) = false := by decide
theorem test_wf_sections : Instr.wf (.imageUpload ⟨hdr, 15, 1, 0, true, [0]⟩ (some bareImage)) = false := by decide
theorem test_wf_read_size : Instr.wf (.read (.object hdr 0x1300 1 0 0 0)) = false ∧ Instr.wf (.read (.object hdr 0x1300 1 0 0 1377)) = false := by decide
theorem test_wf_register_write : Instr.wf (.registerWrite (.cvu (.hub 0 0) 0 0)) = false := by decide
theorem test_wf_taker : Instr.wf (.workItemTake 0 320 0) = false ∧ Instr.wf (.workItemTake 0 0 80) = false ∧
    Instr.wf (.stealAttempt 320) = false ∧ Instr.wf (.stealBackoffExpiry 320) = false := by decide
theorem test_wf_arbiter : Instr.wf (.arbiterDecision 162 []) = false ∧ Instr.wf (.arbiterDecision 0 [33]) = false := by decide
theorem test_wf_lines : Instr.wf (.harpTestDone 0 []) = false ∧ Instr.wf (.harpMonitorSample 0 []) = false := by decide
theorem test_wf_unit : Instr.wf (.katPeriodic 320) = false := by decide

/-! The hypotheses of the statements. -/

/-- The hypotheses of StepRunsFront can be met. -/
theorem witness_StepRunsFront :
    (∃ (c : Sys2Proof.Instr) (rest : List Sys2Proof.Instr) (s : State), s.pending = c :: rest) :=
  ⟨.uartIdleResync, [], { State.reset with pending := [.uartIdleResync] }, rfl⟩

/-- The hypotheses of each clause of EmptyQueueIsOneBeat can be met. -/
theorem witness_EmptyQueueIsOneBeat :
    (∃ s : State, s.pending = []) ∧
    (∃ s : State, s.pending = [] ∧ s.powered = true) ∧
    (∃ s : State, s.pending = [] ∧ s.powered = true ∧ s.rmem.ops = [] ∧ s.fabric.paced = [] ∧ s.rmem.waiting = []) ∧
    (∃ s : State, s.pending = [] ∧ s.powered = false) ∧
    (∃ s : State, s.pod.lost = true ∧ s.pod.powered = false) ∧
    (∃ s : State, (s.pod.lost = false ∨ s.pod.powered = true) ∧ s.pod.slew = 0) :=
  ⟨⟨State.reset, rfl⟩,
   ⟨{ State.reset with dev := { state := 5 } }, by decide +kernel⟩,
   ⟨{ State.reset with dev := { state := 5 } }, by decide +kernel⟩,
   ⟨State.reset, by decide +kernel⟩,
   ⟨{ State.reset with pod := { lost := true } }, by decide +kernel⟩,
   ⟨State.reset, by decide +kernel⟩⟩

/-- The hypotheses of StepsStayLegal can be met. -/
theorem witness_StepsStayLegal :
    (∃ s t : State, s.Legal ∧ step s = .next t) :=
  ⟨State.reset, tick State.reset, by unfold State.Legal; decide +kernel, rfl⟩

/-- The hypotheses of CommandsLeaveTheQueue can be met. -/
theorem witness_CommandsLeaveTheQueue :
    (∃ (c : Sys2Proof.Instr) (s t : State), exec c s = .next t) :=
  ⟨.uartIdleResync, State.reset, { State.reset with config := { State.reset.config with uartHunt := false } }, rfl⟩

/-- The hypotheses of each clause of NarrowFloatCodes can be met. -/
theorem witness_NarrowFloatCodes :
    (∃ f eb mb bias sgn e m : Nat, (f, eb, mb, bias) ∈ [(3, 4, 3, 7), (4, 5, 2, 15), (5, 3, 2, 3), (6, 2, 3, 1), (7, 2, 1,
      1)] ∧ sgn < 2 ∧ e < 2 ^ eb ∧ m < 2 ^ mb ∧ ¬(f = 3 ∧ e = 15 ∧ m = 7) ∧ ¬(f = 4 ∧ e = 31)) ∧
    (∃ sgn e m : Nat, sgn < 2 ∧ e < 32 ∧ m < 4) :=
  ⟨⟨3, 4, 3, 7, 1, 15, 6, by decide⟩,
   ⟨1, 31, 3, by decide⟩⟩

/-- The hypotheses of each clause of BlockScales can be met. -/
theorem witness_BlockScales :
    (∃ f : Nat, 0x0B ≤ f ∧ f ≤ 0x0E) ∧
    (∃ e : Nat, e ≤ 254) ∧
    (∃ e : Nat, e ≤ 254) ∧
    (∃ f g e : Nat, (f, g) ∈ [(0x0B, 0x03), (0x0C, 0x06), (0x0D, 0x07)] ∧ e ≤ 254) :=
  ⟨⟨0x0E, by decide⟩,
   ⟨254, by decide⟩,
   ⟨0, by decide⟩,
   ⟨0x0D, 0x07, 254, by decide⟩⟩

/-- The hypotheses of MapDigest can be met. -/
theorem witness_MapDigest :
    (∃ unit : Nat, unit < 320) :=
  ⟨319, by decide⟩

/-- The hypotheses of each clause of TritBytes can be met. -/
theorem witness_TritBytes :
    (∃ b i : Nat, b ≤ 242 ∧ i < 5) ∧
    (∃ b : Nat, 242 < b) ∧
    (∃ b : Bytes, b.length = 16) ∧
    (∃ (s : State) (core cur r n : Nat) (d : BitVec 256) (b : Bytes), dFmt d = fmtTRIT5 ∧ 1 ≤ min n (dRowLength d - cur) ∧
      min n (dRowLength d - cur) ≤ 64 ∧ spaceRead s core (dSpace d) (dBase d + r * dRowStride d + 16 * (cur / 64)) 16 = .ok
      b) :=
  ⟨⟨242, 4, by decide⟩,
   ⟨243, by decide⟩,
   ⟨List.replicate 16 0xFF, by decide⟩,
   ⟨State.reset, 5, 0, 0, 64, BitVec.ofNat 256 (0x0F + 64 * 2 ^ 192), List.replicate 16 0, by decide +kernel⟩⟩

/-- The hypotheses of each clause of PowerSupply can be met. -/
theorem witness_PowerSupply :
    (∃ (mv : Nat) (s : State), (s.dev.state = 0) ∧ (260000 ≤ mv ∧ mv ≤ 410000) ∧ (s.obj Obj.autoBoot ≠ 1)) ∧
    (∃ (mv : Nat) (s : State), (s.dev.state = 0) ∧ (260000 ≤ mv ∧ mv ≤ 410000) ∧ (s.obj Obj.autoBoot = 1)) ∧
    (∃ (mv : Nat) (s : State), (410000 < mv ∧ mv < 430000) ∧ (s.dev.state ≠ 0) ∧ (s.power.input ≠ 1 ∧ s.power.input ≠ 3)) ∧
    (∃ (mv : Nat) (s : State), (240000 ≤ mv ∧ mv < 260000) ∧ (2 ≤ s.dev.state) ∧ (s.power.input ≠ 2 ∧ s.power.input ≠ 3)) ∧
    (∃ (mv : Nat) (s : State), ((s.power.input = 1 ∧ mv ≤ 405000) ∨ (s.power.input = 2 ∧ 265000 ≤ mv))) ∧
    (∃ (mv : Nat) (s : State), (mv < 240000) ∧ (s.dev.state ≠ 0) ∧ (s.power.input ≠ 3)) ∧
    (∃ (mv : Nat) (s : State), (430000 ≤ mv ∧ mv ≤ 450000) ∧ (s.dev.state ≠ 0) ∧ (s.power.switchOpen = false)) ∧
    (∃ mv : Nat, 450000 < mv) ∧
    (∃ (mv b : Nat) (s : State), (s.power.lossBeat = some b) ∧ (s.power.input = 3) ∧ (260000 ≤ mv) ∧ (s.power.switchOpen =
      false) ∧ (s.beat < b + 5000000)) ∧
    (∃ (b : Nat) (s : State), (s.power.lossBeat = some b) ∧ (s.power.input = 3) ∧ (b + 5000000 ≤ s.beat)) ∧
    (∃ (s : State), (s.dev.state ≠ 0) ∧ (s.power.input ≠ 3)) ∧
    (∃ (site : SiteId) (die : Fin 14) (kind : Nat) (reading model : List Int) (s : State), (dieKind site.val die.val = some
      kind) ∧ (s.dev.state ≠ 0) ∧ (reading.length = sensorCount site.val die.val) ∧ (model.length = sensorCount site.val
      die.val) ∧ (sampleDue s kind (s.thermDie site.val die.val) = true)) ∧
    (∃ (die : DieId) (x : Nat) (s : State), ((s.die die.val).ceilBeat + 50000 ≤ s.beat) ∧ ((s.die die.val).thermCeil = some
      x) ∧ (120 < x) ∧ ((controlling s die.val).any (fun y => decide (((thresholds y.1).2.2.1 : Int) ≤ y.2)) = true)) :=
  ⟨⟨260000, State.reset.setObj Obj.autoBoot 0, by decide +kernel⟩,
   ⟨410000, State.reset.setObj Obj.autoBoot 1, by decide +kernel⟩,
   ⟨410001, { State.reset with dev := { state := 1 } }, by decide +kernel⟩,
   ⟨240000, { State.reset with dev := { state := 2 } }, by decide +kernel⟩,
   ⟨265000, { State.reset with power := { input := 2 } }, by decide +kernel⟩,
   ⟨239999, { State.reset with dev := { state := 1 } }, by decide +kernel⟩,
   ⟨450000, { State.reset with dev := { state := 1 } }, by decide +kernel⟩,
   ⟨450001, by decide⟩,
   ⟨260000, 0, { State.reset with beat := 4999999, power := { input := 3, lossBeat := some 0 } }, by decide +kernel⟩,
   ⟨0, { State.reset with beat := 5000000, power := { input := 3, lossBeat := some 0 } }, by decide +kernel⟩,
   ⟨{ State.reset with dev := { state := 1 } }, by decide +kernel⟩,
   ⟨25, 1, 1, List.replicate 8 400, List.replicate 8 400, { State.reset with dev := { state := 1 } }, by decide +kernel⟩,
   ⟨0, 121, { State.reset with beat := 50000, dies := [(0, { thermCeil := some 121 })], therm := { dies := [(17, { level := 2, used := [1050] })] } },
     by decide +kernel⟩⟩

/-- The hypotheses of each clause of VectorOperations can be met. -/
theorem witness_VectorOperations :
    (∃ (i : Issue) (u : SlotUse) (vd va vb : VReg) (a b : List W32) (s : State), (u = useVec 0x01 vd.val [va.val, vb.val]) ∧
      (Issues i u s) ∧ (Operand i u s va a) ∧ (Operand i u s vb b) ∧ (NoClash i u s vd 4)) ∧
    (∃ (i : Issue) (u : SlotUse) (vd va vb : VReg) (a b : List W32) (s : State), (u = useVec 0x02 vd.val [va.val, vb.val]) ∧
      (Issues i u s) ∧ (Operand i u s va a) ∧ (Operand i u s vb b) ∧ (NoClash i u s vd 4)) ∧
    (∃ (i : Issue) (u : SlotUse) (vd va vb : VReg) (a b : List W32) (s : State), (u = useVec 0x03 vd.val [va.val, vb.val]) ∧
      (Issues i u s) ∧ (Operand i u s va a) ∧ (Operand i u s vb b) ∧ (NoClash i u s vd 4)) ∧
    (∃ (i : Issue) (u : SlotUse) (vd va vb vc : VReg) (a b c : List W32) (s : State), (u = useVec 0x04 vd.val [va.val,
      vb.val, vc.val]) ∧ (Issues i u s) ∧ (Operand i u s va a) ∧ (Operand i u s vb b) ∧ (Operand i u s vc c) ∧ (NoClash i u s
      vd 4)) ∧
    (∃ (i : Issue) (u : SlotUse) (vd va vb : VReg) (a b : List W32) (s : State), (u = useVec 0x05 vd.val [va.val, vb.val]) ∧
      (Issues i u s) ∧ (Operand i u s va a) ∧ (Operand i u s vb b) ∧ (NoClash i u s vd 2)) ∧
    (∃ (i : Issue) (u : SlotUse) (vd va vb : VReg) (a b : List W32) (s : State), (u = useVec 0x06 vd.val [va.val, vb.val]) ∧
      (Issues i u s) ∧ (Operand i u s va a) ∧ (Operand i u s vb b) ∧ (NoClash i u s vd 2)) ∧
    (∃ (i : Issue) (u : SlotUse) (vd va vb : VReg) (a b : List W32) (s : State), (u = useVec 0x11 vd.val [va.val, vb.val]) ∧
      (Issues i u s) ∧ (Operand i u s va a) ∧ (Operand i u s vb b) ∧ (NoClash i u s vd 2)) ∧
    (∃ (i : Issue) (u : SlotUse) (vd va vb vc : VReg) (a b c : List W32) (s : State), (u = useVec 0x0E vd.val [va.val,
      vb.val, vc.val]) ∧ (Issues i u s) ∧ (Operand i u s va a) ∧ (Operand i u s vb b) ∧ (Operand i u s vc c) ∧ (NoClash i u s
      vd 2)) ∧
    (∃ (i : Issue) (u : SlotUse) (vd va vb : VReg) (a b : List W32) (s : State), (u = useVec 0x14 vd.val [va.val, vb.val]) ∧
      (Issues i u s) ∧ (Operand i u s va a) ∧ (Operand i u s vb b) ∧ (NoClash i u s vd 2)) ∧
    (∃ (i : Issue) (u : SlotUse) (vd va : VReg) (a : List W32) (s : State), (u = useVec 0x07 vd.val [va.val]) ∧ (Issues i u
      s) ∧ (Operand i u s va a) ∧ (NoClash i u s vd 6)) ∧
    (∃ (i : Issue) (u : SlotUse) (vd va : VReg) (a : List W32) (s : State), (u = useVec 0x08 vd.val [va.val]) ∧ (Issues i u
      s) ∧ (Operand i u s va a) ∧ (NoClash i u s vd 6)) ∧
    (∃ (i : Issue) (u : SlotUse) (vd va : VReg) (a : List W32) (s : State), (u = useVec 0x09 vd.val [va.val]) ∧ (Issues i u
      s) ∧ (Operand i u s va a) ∧ (NoClash i u s vd 6)) ∧
    (∃ (i : Issue) (u : SlotUse) (vd va : VReg) (a : List W32) (s : State), (u = useVec 0x0A vd.val [va.val]) ∧ (Issues i u
      s) ∧ (Operand i u s va a) ∧ (NoClash i u s vd 6)) ∧
    (∃ (i : Issue) (u : SlotUse) (vd va : VReg) (a : List W32) (s : State), (u = useVec 0x0B vd.val [va.val]) ∧ (Issues i u
      s) ∧ (Operand i u s va a) ∧ (NoClash i u s vd 12)) ∧
    (∃ (i : Issue) (u : SlotUse) (vd va : VReg) (a : List W32) (s : State), (u = useVec 0x0C vd.val [va.val]) ∧ (Issues i u
      s) ∧ (Operand i u s va a) ∧ (NoClash i u s vd 10)) ∧
    (∃ (i : Issue) (u : SlotUse) (vd va : VReg) (imm : BitVec 9) (a : List W32) (s : State), (u = useVec 0x0D vd.val [va.val]
      [(40, 9, imm.toNat)]) ∧ (Issues i u s) ∧ (Operand i u s va a) ∧ (NoClash i u s vd 3)) ∧
    (∃ (i : Issue) (u : SlotUse) (vd va vc : VReg) (fmt : BitVec 5) (sat : Bool) (conv : Fin 64) (a c : List W32) (s :
      State), (u = useVec 0x0F vd.val [va.val] [(21, 5, vc.val), (26, 5, fmt.toNat), (31, 1, bitOf sat), (32, 2, bitOf
      false), (34, 6, conv.val)]) ∧ (Issues i u s) ∧ (fmt.toNat ≠ fmtTRIT5) ∧ (fmtSupported fmt.toNat = true) ∧ (Operand i u
      s va a) ∧ (Operand i u s vc c) ∧ (NoClash i u s vd 3)) ∧
    (∃ (i : Issue) (u : SlotUse) (vd va vc : VReg) (fmt : BitVec 5) (sat : Bool) (conv : Fin 64) (a c : List W32) (s :
      State), (u = useVec 0x0F vd.val [va.val] [(21, 5, vc.val), (26, 5, fmt.toNat), (31, 1, bitOf sat), (32, 2, bitOf true),
      (34, 6, conv.val)]) ∧ (Issues i u s) ∧ (stochAllowed fmt.toNat = true) ∧ (fmt.toNat ≠ fmtTRIT5) ∧ (fmtSupported
      fmt.toNat = true) ∧ (Operand i u s va a) ∧ (Operand i u s vc c) ∧ (NoClash i u s vd 3)) ∧
    (∃ (i : Issue) (u : SlotUse) (vd va vc : VReg) (fmt : BitVec 5) (m : CvtMode) (s : State), (u = useVec 0x0F vd.val
      [va.val] [(21, 5, vc.val), (26, 5, fmt.toNat), (31, 1, bitOf m.sat), (32, 2, bitOf m.stoch), (34, 6, m.conv.val)]) ∧
      (Issues i u s) ∧ (fmt.toNat = fmtTRIT5 ∨ fmtSupported fmt.toNat = false ∨ (m.stoch = true ∧ stochAllowed fmt.toNat =
      false))) ∧
    (∃ (i : Issue) (u : SlotUse) (vd va : VReg) (a : List W32) (s : State), (u = useVec 0x12 vd.val [va.val]) ∧ (Issues i u
      s) ∧ (Operand i u s va a) ∧ (NoClash i u s vd 3)) ∧
    (∃ (i : Issue) (u : SlotUse) (vd va : VReg) (a : List W32) (s : State), (u = useVec 0x13 vd.val [va.val]) ∧ (Issues i u
      s) ∧ (Operand i u s va a) ∧ (NoClash i u s vd 3)) ∧
    (∃ (i : Issue) (u : SlotUse) (vd va : VReg) (a : List W32) (s : State), (u = useVec 0x15 vd.val [va.val]) ∧ (Issues i u
      s) ∧ (Operand i u s va a) ∧ (NoClash i u s vd 3)) ∧
    (∃ (i : Issue) (u : SlotUse) (vd va : VReg) (a : List W32) (s : State), (u = useVec 0x16 vd.val [va.val]) ∧ (Issues i u
      s) ∧ (Operand i u s va a) ∧ (NoClash i u s vd 3)) ∧
    (∃ (i : Issue) (u : SlotUse) (vd : VReg) (imm : BitVec 9) (s : State), (u = useVec 0x10 vd.val [] [(40, 9, imm.toNat)]) ∧
      (Issues i u s) ∧ (((issuedCore i u s).accRow (bitsAt imm.toNat 6 2) (bitsAt imm.toNat 0 6)).ready ≤ issueTick i s) ∧
      (NoClash i u s vd 2)) ∧
    (∃ (i : Issue) (u : SlotUse) (s : State), (u = { slot := 7, op := 0 }) ∧ (Issues i u s)) ∧
    (∃ (i : Issue) (u : SlotUse) (s : State), (u = { slot := 8, op := 0 }) ∧ (Issues i u s)) :=
  ⟨⟨{ core := 0, dt := 1, bundle := 1 }, useVec 0x01 4 [1, 2], 4, 1, 2, [0x3F800000, 0x40000000], [0x3F000000, 0x40400000],
    { State.reset with wins := [{ id := 1, phase := 2, desc := BitVec.ofNat 512 (16 * 2 ^ 64), parts := 1 }], cores := [(0, { state := 1, win := some 1, tick := 3, nextBundle := 1, kernel := { emptyKernel with bundles := [0, bundleOf (useVec 0x01 4 [1, 2])] }, regs := [(1, { lanes := [0x3F800000, 0x40000000] }), (2, { lanes := [0x3F000000, 0x40400000] })] })] },
    by decide +kernel⟩,
   ⟨{ core := 0, dt := 1, bundle := 1 }, useVec 0x02 4 [1, 2], 4, 1, 2, [0x3F800000, 0x40000000], [0x3F000000, 0x40400000],
     { State.reset with wins := [{ id := 1, phase := 2, desc := BitVec.ofNat 512 (16 * 2 ^ 64), parts := 1 }], cores := [(0, { state := 1, win := some 1, tick := 3, nextBundle := 1, kernel := { emptyKernel with bundles := [0, bundleOf (useVec 0x02 4 [1, 2])] }, regs := [(1, { lanes := [0x3F800000, 0x40000000] }), (2, { lanes := [0x3F000000, 0x40400000] })] })] },
     by decide +kernel⟩,
   ⟨{ core := 0, dt := 1, bundle := 1 }, useVec 0x03 4 [1, 2], 4, 1, 2, [0x3F800000, 0x40000000], [0x3F000000, 0x40400000],
     { State.reset with wins := [{ id := 1, phase := 2, desc := BitVec.ofNat 512 (16 * 2 ^ 64), parts := 1 }], cores := [(0, { state := 1, win := some 1, tick := 3, nextBundle := 1, kernel := { emptyKernel with bundles := [0, bundleOf (useVec 0x03 4 [1, 2])] }, regs := [(1, { lanes := [0x3F800000, 0x40000000] }), (2, { lanes := [0x3F000000, 0x40400000] })] })] },
     by decide +kernel⟩,
   ⟨{ core := 0, dt := 1, bundle := 1 }, useVec 0x04 4 [1, 2, 3], 4, 1, 2, 3, [0x3F800000, 0x40000000], [0x3F000000,
     0x40400000], [0x3F800000, 0x3F800000],
     { State.reset with wins := [{ id := 1, phase := 2, desc := BitVec.ofNat 512 (16 * 2 ^ 64), parts := 1 }], cores := [(0, { state := 1, win := some 1, tick := 3, nextBundle := 1, kernel := { emptyKernel with bundles := [0, bundleOf (useVec 0x04 4 [1, 2, 3])] }, regs := [(1, { lanes := [0x3F800000, 0x40000000] }), (2, { lanes := [0x3F000000, 0x40400000] }), (3, { lanes := [0x3F800000, 0x3F800000] })] })] },
     by decide +kernel⟩,
   ⟨{ core := 0, dt := 1, bundle := 1 }, useVec 0x05 4 [1, 2], 4, 1, 2, [0x3F800000, 0x40000000], [0x3F000000, 0x40400000],
     { State.reset with wins := [{ id := 1, phase := 2, desc := BitVec.ofNat 512 (16 * 2 ^ 64), parts := 1 }], cores := [(0, { state := 1, win := some 1, tick := 3, nextBundle := 1, kernel := { emptyKernel with bundles := [0, bundleOf (useVec 0x05 4 [1, 2])] }, regs := [(1, { lanes := [0x3F800000, 0x40000000] }), (2, { lanes := [0x3F000000, 0x40400000] })] })] },
     by decide +kernel⟩,
   ⟨{ core := 0, dt := 1, bundle := 1 }, useVec 0x06 4 [1, 2], 4, 1, 2, [0x3F800000, 0x40000000], [0x3F000000, 0x40400000],
     { State.reset with wins := [{ id := 1, phase := 2, desc := BitVec.ofNat 512 (16 * 2 ^ 64), parts := 1 }], cores := [(0, { state := 1, win := some 1, tick := 3, nextBundle := 1, kernel := { emptyKernel with bundles := [0, bundleOf (useVec 0x06 4 [1, 2])] }, regs := [(1, { lanes := [0x3F800000, 0x40000000] }), (2, { lanes := [0x3F000000, 0x40400000] })] })] },
     by decide +kernel⟩,
   ⟨{ core := 0, dt := 1, bundle := 1 }, useVec 0x11 4 [1, 2], 4, 1, 2, [0x3F800000, 0x40000000], [0x3F000000, 0x40400000],
     { State.reset with wins := [{ id := 1, phase := 2, desc := BitVec.ofNat 512 (16 * 2 ^ 64), parts := 1 }], cores := [(0, { state := 1, win := some 1, tick := 3, nextBundle := 1, kernel := { emptyKernel with bundles := [0, bundleOf (useVec 0x11 4 [1, 2])] }, regs := [(1, { lanes := [0x3F800000, 0x40000000] }), (2, { lanes := [0x3F000000, 0x40400000] })] })] },
     by decide +kernel⟩,
   ⟨{ core := 0, dt := 1, bundle := 1 }, useVec 0x0E 4 [1, 2, 3], 4, 1, 2, 3, [0x3F800000, 0x40000000], [0x3F000000,
     0x40400000], [0x3F800000, 0x3F800000],
     { State.reset with wins := [{ id := 1, phase := 2, desc := BitVec.ofNat 512 (16 * 2 ^ 64), parts := 1 }], cores := [(0, { state := 1, win := some 1, tick := 3, nextBundle := 1, kernel := { emptyKernel with bundles := [0, bundleOf (useVec 0x0E 4 [1, 2, 3])] }, regs := [(1, { lanes := [0x3F800000, 0x40000000] }), (2, { lanes := [0x3F000000, 0x40400000] }), (3, { lanes := [0x3F800000, 0x3F800000] })] })] },
     by decide +kernel⟩,
   ⟨{ core := 0, dt := 1, bundle := 1 }, useVec 0x14 4 [1, 2], 4, 1, 2, [0x3F800000, 0x40000000], [0x3F000000, 0x40400000],
     { State.reset with wins := [{ id := 1, phase := 2, desc := BitVec.ofNat 512 (16 * 2 ^ 64), parts := 1 }], cores := [(0, { state := 1, win := some 1, tick := 3, nextBundle := 1, kernel := { emptyKernel with bundles := [0, bundleOf (useVec 0x14 4 [1, 2])] }, regs := [(1, { lanes := [0x3F800000, 0x40000000] }), (2, { lanes := [0x3F000000, 0x40400000] })] })] },
     by decide +kernel⟩,
   ⟨{ core := 0, dt := 1, bundle := 1 }, useVec 0x07 4 [1], 4, 1, [0x3F800000, 0x40000000],
     { State.reset with wins := [{ id := 1, phase := 2, desc := BitVec.ofNat 512 (16 * 2 ^ 64), parts := 1 }], cores := [(0, { state := 1, win := some 1, tick := 3, nextBundle := 1, kernel := { emptyKernel with bundles := [0, bundleOf (useVec 0x07 4 [1])] }, regs := [(1, { lanes := [0x3F800000, 0x40000000] })] })] },
     by decide +kernel⟩,
   ⟨{ core := 0, dt := 1, bundle := 1 }, useVec 0x08 4 [1], 4, 1, [0x3F800000, 0x40000000],
     { State.reset with wins := [{ id := 1, phase := 2, desc := BitVec.ofNat 512 (16 * 2 ^ 64), parts := 1 }], cores := [(0, { state := 1, win := some 1, tick := 3, nextBundle := 1, kernel := { emptyKernel with bundles := [0, bundleOf (useVec 0x08 4 [1])] }, regs := [(1, { lanes := [0x3F800000, 0x40000000] })] })] },
     by decide +kernel⟩,
   ⟨{ core := 0, dt := 1, bundle := 1 }, useVec 0x09 4 [1], 4, 1, [0x3F800000, 0x40000000],
     { State.reset with wins := [{ id := 1, phase := 2, desc := BitVec.ofNat 512 (16 * 2 ^ 64), parts := 1 }], cores := [(0, { state := 1, win := some 1, tick := 3, nextBundle := 1, kernel := { emptyKernel with bundles := [0, bundleOf (useVec 0x09 4 [1])] }, regs := [(1, { lanes := [0x3F800000, 0x40000000] })] })] },
     by decide +kernel⟩,
   ⟨{ core := 0, dt := 1, bundle := 1 }, useVec 0x0A 4 [1], 4, 1, [0x3F800000, 0x40000000],
     { State.reset with wins := [{ id := 1, phase := 2, desc := BitVec.ofNat 512 (16 * 2 ^ 64), parts := 1 }], cores := [(0, { state := 1, win := some 1, tick := 3, nextBundle := 1, kernel := { emptyKernel with bundles := [0, bundleOf (useVec 0x0A 4 [1])] }, regs := [(1, { lanes := [0x3F800000, 0x40000000] })] })] },
     by decide +kernel⟩,
   ⟨{ core := 0, dt := 1, bundle := 1 }, useVec 0x0B 4 [1], 4, 1, [0x3F800000, 0x40000000],
     { State.reset with wins := [{ id := 1, phase := 2, desc := BitVec.ofNat 512 (16 * 2 ^ 64), parts := 1 }], cores := [(0, { state := 1, win := some 1, tick := 3, nextBundle := 1, kernel := { emptyKernel with bundles := [0, bundleOf (useVec 0x0B 4 [1])] }, regs := [(1, { lanes := [0x3F800000, 0x40000000] })] })] },
     by decide +kernel⟩,
   ⟨{ core := 0, dt := 1, bundle := 1 }, useVec 0x0C 4 [1], 4, 1, [0x3F800000, 0x40000000],
     { State.reset with wins := [{ id := 1, phase := 2, desc := BitVec.ofNat 512 (16 * 2 ^ 64), parts := 1 }], cores := [(0, { state := 1, win := some 1, tick := 3, nextBundle := 1, kernel := { emptyKernel with bundles := [0, bundleOf (useVec 0x0C 4 [1])] }, regs := [(1, { lanes := [0x3F800000, 0x40000000] })] })] },
     by decide +kernel⟩,
   ⟨{ core := 0, dt := 1, bundle := 1 }, useVec 0x0D 4 [1] [(40, 9, 1)], 4, 1, 1, [0x3F800000, 0x40000000],
     { State.reset with wins := [{ id := 1, phase := 2, desc := BitVec.ofNat 512 (16 * 2 ^ 64), parts := 1 }], cores := [(0, { state := 1, win := some 1, tick := 3, nextBundle := 1, kernel := { emptyKernel with bundles := [0, bundleOf (useVec 0x0D 4 [1] [(40, 9, 1)])] }, regs := [(1, { lanes := [0x3F800000, 0x40000000] })] })] },
     by decide +kernel⟩,
   ⟨{ core := 0, dt := 1, bundle := 1 }, useVec 0x0F 4 [1] [(21, 5, 2), (26, 5, 3), (31, 1, 1), (32, 2, 0), (34, 6, 0)], 4,
     1, 2, 3, true, 0, [0x3F800000, 0x40000000], [0x3F800000, 0x3F800000],
     { State.reset with wins := [{ id := 1, phase := 2, desc := BitVec.ofNat 512 (16 * 2 ^ 64), parts := 1 }], cores := [(0, { state := 1, win := some 1, tick := 3, nextBundle := 1, kernel := { emptyKernel with bundles := [0, bundleOf (useVec 0x0F 4 [1] [(21, 5, 2), (26, 5, 3), (31, 1, 1), (32, 2, 0), (34, 6, 0)])] }, regs := [(1, { lanes := [0x3F800000, 0x40000000] }), (2, { lanes := [0x3F800000, 0x3F800000] })] })] },
     by decide +kernel⟩,
   ⟨{ core := 0, dt := 1, bundle := 1 }, useVec 0x0F 4 [1] [(21, 5, 2), (26, 5, 3), (31, 1, 1), (32, 2, 1), (34, 6, 0)], 4,
     1, 2, 3, true, 0, [0x3F800000, 0x40000000], [0x3F800000, 0x3F800000],
     { State.reset with wins := [{ id := 1, phase := 2, desc := BitVec.ofNat 512 (16 * 2 ^ 64), parts := 1 }], cores := [(0, { state := 1, win := some 1, tick := 3, nextBundle := 1, kernel := { emptyKernel with bundles := [0, bundleOf (useVec 0x0F 4 [1] [(21, 5, 2), (26, 5, 3), (31, 1, 1), (32, 2, 1), (34, 6, 0)])] }, regs := [(1, { lanes := [0x3F800000, 0x40000000] }), (2, { lanes := [0x3F800000, 0x3F800000] })] })] },
     by decide +kernel⟩,
   ⟨{ core := 0, dt := 1, bundle := 1 }, useVec 0x0F 4 [1] [(21, 5, 2), (26, 5, 15), (31, 1, 1), (32, 2, 0), (34, 6, 0)], 4,
     1, 2, 15, { sat := true, stoch := false, conv := 0 },
     { State.reset with wins := [{ id := 1, phase := 2, desc := BitVec.ofNat 512 (16 * 2 ^ 64), parts := 1 }], cores := [(0, { state := 1, win := some 1, tick := 3, nextBundle := 1, kernel := { emptyKernel with bundles := [0, bundleOf (useVec 0x0F 4 [1] [(21, 5, 2), (26, 5, 15), (31, 1, 1), (32, 2, 0), (34, 6, 0)])] } })] },
     by decide +kernel⟩,
   ⟨{ core := 0, dt := 1, bundle := 1 }, useVec 0x12 4 [1], 4, 1, [0x3F800000, 0x40000000],
     { State.reset with wins := [{ id := 1, phase := 2, desc := BitVec.ofNat 512 (16 * 2 ^ 64), parts := 1 }], cores := [(0, { state := 1, win := some 1, tick := 3, nextBundle := 1, kernel := { emptyKernel with bundles := [0, bundleOf (useVec 0x12 4 [1])] }, regs := [(1, { lanes := [0x3F800000, 0x40000000] })] })] },
     by decide +kernel⟩,
   ⟨{ core := 0, dt := 1, bundle := 1 }, useVec 0x13 4 [1], 4, 1, [0x3F800000, 0x40000000],
     { State.reset with wins := [{ id := 1, phase := 2, desc := BitVec.ofNat 512 (16 * 2 ^ 64), parts := 1 }], cores := [(0, { state := 1, win := some 1, tick := 3, nextBundle := 1, kernel := { emptyKernel with bundles := [0, bundleOf (useVec 0x13 4 [1])] }, regs := [(1, { lanes := [0x3F800000, 0x40000000] })] })] },
     by decide +kernel⟩,
   ⟨{ core := 0, dt := 1, bundle := 1 }, useVec 0x15 4 [1], 4, 1, [0x3F800000, 0x40000000],
     { State.reset with wins := [{ id := 1, phase := 2, desc := BitVec.ofNat 512 (16 * 2 ^ 64), parts := 1 }], cores := [(0, { state := 1, win := some 1, tick := 3, nextBundle := 1, kernel := { emptyKernel with bundles := [0, bundleOf (useVec 0x15 4 [1])] }, regs := [(1, { lanes := [0x3F800000, 0x40000000] })] })] },
     by decide +kernel⟩,
   ⟨{ core := 0, dt := 1, bundle := 1 }, useVec 0x16 4 [1], 4, 1, [0x3F800000, 0x40000000],
     { State.reset with wins := [{ id := 1, phase := 2, desc := BitVec.ofNat 512 (16 * 2 ^ 64), parts := 1 }], cores := [(0, { state := 1, win := some 1, tick := 3, nextBundle := 1, kernel := { emptyKernel with bundles := [0, bundleOf (useVec 0x16 4 [1])] }, regs := [(1, { lanes := [0x3F800000, 0x40000000] })] })] },
     by decide +kernel⟩,
   ⟨{ core := 0, dt := 1, bundle := 1 }, useVec 0x10 4 [] [(40, 9, 65)], 4, 65,
     { State.reset with wins := [{ id := 1, phase := 2, desc := BitVec.ofNat 512 (16 * 2 ^ 64), parts := 1 }], cores := [(0, { state := 1, win := some 1, tick := 3, nextBundle := 1, kernel := { emptyKernel with bundles := [0, bundleOf (useVec 0x10 4 [] [(40, 9, 65)])] } })] },
     by decide +kernel⟩,
   ⟨{ core := 0, dt := 1, bundle := 1 }, { slot := 7, op := 0 },
     { State.reset with wins := [{ id := 1, phase := 2, desc := BitVec.ofNat 512 (16 * 2 ^ 64), parts := 1 }], cores := [(0, { state := 1, win := some 1, tick := 3, nextBundle := 1, kernel := { emptyKernel with bundles := [0, bundleOf { slot := 7, op := 0 }] } })] },
     by decide +kernel⟩,
   ⟨{ core := 0, dt := 1, bundle := 1 }, { slot := 8, op := 0 },
     { State.reset with wins := [{ id := 1, phase := 2, desc := BitVec.ofNat 512 (16 * 2 ^ 64), parts := 1 }], cores := [(0, { state := 1, win := some 1, tick := 3, nextBundle := 1, kernel := { emptyKernel with bundles := [0, bundleOf { slot := 8, op := 0 }] } })] },
     by decide +kernel⟩⟩

/-- The hypotheses of each clause of MatrixSlot can be met. -/
theorem witness_MatrixSlot :
    (∃ (i : Issue) (u : SlotUse) (fa fb : BitVec 5) (bank : Fin 4) (row count : Fin 64) (tag : AccTag) (depth : Nat) (r :
      Row) (rest : List Row) (p : Panel) (s : State), (u = useMx 1 fa.toNat fb.toNat bank.val row.val count.val false) ∧
      (Issues i u s) ∧ ((issuedCore i u s).mxBusy ≤ issueTick i s) ∧ (∀ x ∈ (issuedCore i u s).outs, issueTick i s < x.start
      + x.done) ∧ (pairClass fa.toNat fb.toNat = some (tag, depth)) ∧ ((issuedCore i u s).queue = r :: rest) ∧ (r.usable ≤
      issueTick i s) ∧ (r.fmt = fa.toNat) ∧ ((issuedCore i u s).active = p) ∧ (p.fmt = some fb.toNat) ∧ (((issuedCore i u
      s).accRow bank.val row.val).tag = .untagged ∨ ((issuedCore i u s).accRow bank.val row.val).tag = tag) ∧ (((issuedCore i
      u s).accRow bank.val row.val).ready ≤ issueTick i s)) ∧
    (∃ (i : Issue) (u : SlotUse) (fa fb : BitVec 5) (bank : Fin 4) (row count : Fin 64) (tag : AccTag) (depth : Nat) (r :
      Row) (rest : List Row) (p : Panel) (s : State), (u = useMx 1 fa.toNat fb.toNat bank.val row.val count.val true) ∧
      (Issues i u s) ∧ ((issuedCore i u s).mxBusy ≤ issueTick i s) ∧ (∀ x ∈ (issuedCore i u s).outs, issueTick i s < x.start
      + x.done) ∧ (pairClass fa.toNat fb.toNat = some (tag, depth)) ∧ ((issuedCore i u s).queue = r :: rest) ∧ (r.usable ≤
      issueTick i s) ∧ (r.fmt = fa.toNat) ∧ ((issuedCore i u s).shadow = some p) ∧ (p.usable ≤ issueTick i s) ∧ (p.fmt = some
      fb.toNat) ∧ (((issuedCore i u s).accRow bank.val row.val).tag = .untagged ∨ ((issuedCore i u s).accRow bank.val
      row.val).tag = tag) ∧ (((issuedCore i u s).accRow bank.val row.val).ready ≤ issueTick i s)) ∧
    (∃ (i : Issue) (u : SlotUse) (fa fb : BitVec 5) (bank : Fin 4) (row count : Fin 64) (tag : AccTag) (depth : Nat) (r :
      Row) (rest : List Row) (p : Panel) (s : State), (u = useMx 2 fa.toNat fb.toNat bank.val row.val count.val false) ∧
      (Issues i u s) ∧ ((issuedCore i u s).mxBusy ≤ issueTick i s) ∧ (∀ x ∈ (issuedCore i u s).outs, issueTick i s < x.start
      + x.done) ∧ (pairClass fa.toNat fb.toNat = some (tag, depth)) ∧ ((issuedCore i u s).queue = r :: rest) ∧ (r.usable ≤
      issueTick i s) ∧ (r.fmt = fa.toNat) ∧ ((issuedCore i u s).active = p) ∧ (p.fmt = some fb.toNat)) ∧
    (∃ (i : Issue) (u : SlotUse) (fa fb : BitVec 5) (bank : Fin 4) (row count : Fin 64) (tag : AccTag) (depth : Nat) (r :
      Row) (rest : List Row) (p : Panel) (s : State), (u = useMx 2 fa.toNat fb.toNat bank.val row.val count.val true) ∧
      (Issues i u s) ∧ ((issuedCore i u s).mxBusy ≤ issueTick i s) ∧ (∀ x ∈ (issuedCore i u s).outs, issueTick i s < x.start
      + x.done) ∧ (pairClass fa.toNat fb.toNat = some (tag, depth)) ∧ ((issuedCore i u s).queue = r :: rest) ∧ (r.usable ≤
      issueTick i s) ∧ (r.fmt = fa.toNat) ∧ ((issuedCore i u s).shadow = some p) ∧ (p.usable ≤ issueTick i s) ∧ (p.fmt = some
      fb.toNat)) ∧
    (∃ (i : Issue) (u : SlotUse) (fa fb : BitVec 5) (bank : Fin 4) (row count : Fin 64) (tag : AccTag) (depth : Nat) (s :
      State), (u = useMx 3 fa.toNat fb.toNat bank.val row.val count.val false) ∧ (Issues i u s) ∧ ((issuedCore i u s).mxBusy
      ≤ issueTick i s) ∧ (pairClass fa.toNat fb.toNat = some (tag, depth))) ∧
    (∃ (i : Issue) (u : SlotUse) (fa fb : BitVec 5) (bank : Fin 4) (row count : Fin 64) (tag : AccTag) (depth : Nat) (p :
      Panel) (s : State), (u = useMx 3 fa.toNat fb.toNat bank.val row.val count.val true) ∧ (Issues i u s) ∧ ((issuedCore i u
      s).mxBusy ≤ issueTick i s) ∧ (pairClass fa.toNat fb.toNat = some (tag, depth)) ∧ ((issuedCore i u s).shadow = some p) ∧
      (p.usable ≤ issueTick i s)) ∧
    (∃ (i : Issue) (u : SlotUse) (fa fb : BitVec 5) (bank : Fin 4) (row count : Fin 64) (swap : Bool) (s : State), (u = useMx
      1 fa.toNat fb.toNat bank.val row.val count.val swap) ∧ (Issues i u s) ∧ (issueTick i s < (issuedCore i u s).mxBusy ∨
      ((pairClass fa.toNat fb.toNat).isSome = true ∧ swap = true ∧ ∀ p ∈ (issuedCore i u s).shadow, issueTick i s <
      p.usable))) ∧
    (∃ (i : Issue) (u : SlotUse) (fa fb : BitVec 5) (bank : Fin 4) (row count : Fin 64) (swap : Bool) (s : State), (u = useMx
      1 fa.toNat fb.toNat bank.val row.val count.val swap) ∧ (Issues i u s) ∧ ((issuedCore i u s).mxBusy ≤ issueTick i s) ∧
      (pairClass fa.toNat fb.toNat = none)) ∧
    (∃ (i : Issue) (u : SlotUse) (fa fb : BitVec 5) (bank : Fin 4) (row count : Fin 64) (swap : Bool) (s : State), (u = useMx
      2 fa.toNat fb.toNat bank.val row.val count.val swap) ∧ (Issues i u s) ∧ (issueTick i s < (issuedCore i u s).mxBusy ∨
      ((pairClass fa.toNat fb.toNat).isSome = true ∧ swap = true ∧ ∀ p ∈ (issuedCore i u s).shadow, issueTick i s <
      p.usable))) ∧
    (∃ (i : Issue) (u : SlotUse) (fa fb : BitVec 5) (bank : Fin 4) (row count : Fin 64) (swap : Bool) (s : State), (u = useMx
      2 fa.toNat fb.toNat bank.val row.val count.val swap) ∧ (Issues i u s) ∧ ((issuedCore i u s).mxBusy ≤ issueTick i s) ∧
      (pairClass fa.toNat fb.toNat = none)) ∧
    (∃ (i : Issue) (u : SlotUse) (fa fb : BitVec 5) (bank : Fin 4) (row count : Fin 64) (swap : Bool) (s : State), (u = useMx
      3 fa.toNat fb.toNat bank.val row.val count.val swap) ∧ (Issues i u s) ∧ (issueTick i s < (issuedCore i u s).mxBusy ∨
      ((pairClass fa.toNat fb.toNat).isSome = true ∧ swap = true ∧ ∀ p ∈ (issuedCore i u s).shadow, issueTick i s <
      p.usable))) ∧
    (∃ (i : Issue) (u : SlotUse) (fa fb : BitVec 5) (bank : Fin 4) (row count : Fin 64) (swap : Bool) (s : State), (u = useMx
      3 fa.toNat fb.toNat bank.val row.val count.val swap) ∧ (Issues i u s) ∧ ((issuedCore i u s).mxBusy ≤ issueTick i s) ∧
      (pairClass fa.toNat fb.toNat = none)) :=
  ⟨⟨{ core := 0, dt := 1, bundle := 1 }, useMx 1 3 3 1 2 0 false, 3, 3, 1, 2, 0, .fp32, 256,
    { fmt := 3, codes := [some 0x38] ++ List.replicate 255 none }, [],
    { fmt := some 3, cols := [{ fmt := 3, codes := [some 0x40] ++ List.replicate 255 none }] },
    { State.reset with wins := [{ id := 1, phase := 2, desc := BitVec.ofNat 512 (16 * 2 ^ 64), parts := 1 }], cores := [(0, { state := 1, win := some 1, tick := 3, nextBundle := 1, kernel := { emptyKernel with bundles := [0, bundleOf (useMx 1 3 3 1 2 0 false)] }, queue := [{ fmt := 3, codes := [some 0x38] ++ List.replicate 255 none }], active := { fmt := some 3, cols := [{ fmt := 3, codes := [some 0x40] ++ List.replicate 255 none }] } })] },
    by decide +kernel⟩,
   ⟨{ core := 0, dt := 1, bundle := 1 }, useMx 1 3 3 1 2 0 true, 3, 3, 1, 2, 0, .fp32, 256,
     { fmt := 3, codes := [some 0x38] ++ List.replicate 255 none }, [],
     { fmt := some 3, cols := [{ fmt := 3, codes := [some 0x40] ++ List.replicate 255 none }] },
     { State.reset with wins := [{ id := 1, phase := 2, desc := BitVec.ofNat 512 (16 * 2 ^ 64), parts := 1 }], cores := [(0, { state := 1, win := some 1, tick := 3, nextBundle := 1, kernel := { emptyKernel with bundles := [0, bundleOf (useMx 1 3 3 1 2 0 true)] }, queue := [{ fmt := 3, codes := [some 0x38] ++ List.replicate 255 none }], shadow := some { fmt := some 3, cols := [{ fmt := 3, codes := [some 0x40] ++ List.replicate 255 none }] } })] },
     by decide +kernel⟩,
   ⟨{ core := 0, dt := 1, bundle := 1 }, useMx 2 3 3 1 2 0 false, 3, 3, 1, 2, 0, .fp32, 256,
     { fmt := 3, codes := [some 0x38] ++ List.replicate 255 none }, [],
     { fmt := some 3, cols := [{ fmt := 3, codes := [some 0x40] ++ List.replicate 255 none }] },
     { State.reset with wins := [{ id := 1, phase := 2, desc := BitVec.ofNat 512 (16 * 2 ^ 64), parts := 1 }], cores := [(0, { state := 1, win := some 1, tick := 3, nextBundle := 1, kernel := { emptyKernel with bundles := [0, bundleOf (useMx 2 3 3 1 2 0 false)] }, queue := [{ fmt := 3, codes := [some 0x38] ++ List.replicate 255 none }], active := { fmt := some 3, cols := [{ fmt := 3, codes := [some 0x40] ++ List.replicate 255 none }] } })] },
     by decide +kernel⟩,
   ⟨{ core := 0, dt := 1, bundle := 1 }, useMx 2 3 3 1 2 0 true, 3, 3, 1, 2, 0, .fp32, 256,
     { fmt := 3, codes := [some 0x38] ++ List.replicate 255 none }, [],
     { fmt := some 3, cols := [{ fmt := 3, codes := [some 0x40] ++ List.replicate 255 none }] },
     { State.reset with wins := [{ id := 1, phase := 2, desc := BitVec.ofNat 512 (16 * 2 ^ 64), parts := 1 }], cores := [(0, { state := 1, win := some 1, tick := 3, nextBundle := 1, kernel := { emptyKernel with bundles := [0, bundleOf (useMx 2 3 3 1 2 0 true)] }, queue := [{ fmt := 3, codes := [some 0x38] ++ List.replicate 255 none }], shadow := some { fmt := some 3, cols := [{ fmt := 3, codes := [some 0x40] ++ List.replicate 255 none }] } })] },
     by decide +kernel⟩,
   ⟨{ core := 0, dt := 1, bundle := 1 }, useMx 3 3 3 3 63 63 false, 3, 3, 3, 63, 63, .fp32, 256,
     { State.reset with wins := [{ id := 1, phase := 2, desc := BitVec.ofNat 512 (16 * 2 ^ 64), parts := 1 }], cores := [(0, { state := 1, win := some 1, tick := 3, nextBundle := 1, kernel := { emptyKernel with bundles := [0, bundleOf (useMx 3 3 3 3 63 63 false)] } })] },
     by decide +kernel⟩,
   ⟨{ core := 0, dt := 1, bundle := 1 }, useMx 3 3 3 3 63 63 true, 3, 3, 3, 63, 63, .fp32, 256,
     { fmt := some 3, cols := [] }, { State.reset with wins := [{ id := 1, phase := 2, desc := BitVec.ofNat 512 (16 * 2 ^ 64), parts := 1 }], cores := [(0, { state := 1, win := some 1, tick := 3, nextBundle := 1, kernel := { emptyKernel with bundles := [0, bundleOf (useMx 3 3 3 3 63 63 true)] }, shadow := some { fmt := some 3, cols := [] } })] },
     by decide +kernel⟩,
   ⟨{ core := 0, dt := 1, bundle := 1 }, useMx 1 3 3 1 2 0 true, 3, 3, 1, 2, 0, true,
     { State.reset with wins := [{ id := 1, phase := 2, desc := BitVec.ofNat 512 (16 * 2 ^ 64), parts := 1 }], cores := [(0, { state := 1, win := some 1, tick := 3, nextBundle := 1, kernel := { emptyKernel with bundles := [0, bundleOf (useMx 1 3 3 1 2 0 true)] } })] },
     by decide +kernel⟩,
   ⟨{ core := 0, dt := 1, bundle := 1 }, useMx 1 15 3 1 2 0 true, 15, 3, 1, 2, 0, true,
     { State.reset with wins := [{ id := 1, phase := 2, desc := BitVec.ofNat 512 (16 * 2 ^ 64), parts := 1 }], cores := [(0, { state := 1, win := some 1, tick := 3, nextBundle := 1, kernel := { emptyKernel with bundles := [0, bundleOf (useMx 1 15 3 1 2 0 true)] } })] },
     by decide +kernel⟩,
   ⟨{ core := 0, dt := 1, bundle := 1 }, useMx 2 3 3 1 2 0 true, 3, 3, 1, 2, 0, true,
     { State.reset with wins := [{ id := 1, phase := 2, desc := BitVec.ofNat 512 (16 * 2 ^ 64), parts := 1 }], cores := [(0, { state := 1, win := some 1, tick := 3, nextBundle := 1, kernel := { emptyKernel with bundles := [0, bundleOf (useMx 2 3 3 1 2 0 true)] } })] },
     by decide +kernel⟩,
   ⟨{ core := 0, dt := 1, bundle := 1 }, useMx 2 15 3 1 2 0 true, 15, 3, 1, 2, 0, true,
     { State.reset with wins := [{ id := 1, phase := 2, desc := BitVec.ofNat 512 (16 * 2 ^ 64), parts := 1 }], cores := [(0, { state := 1, win := some 1, tick := 3, nextBundle := 1, kernel := { emptyKernel with bundles := [0, bundleOf (useMx 2 15 3 1 2 0 true)] } })] },
     by decide +kernel⟩,
   ⟨{ core := 0, dt := 1, bundle := 1 }, useMx 3 3 3 1 2 0 true, 3, 3, 1, 2, 0, true,
     { State.reset with wins := [{ id := 1, phase := 2, desc := BitVec.ofNat 512 (16 * 2 ^ 64), parts := 1 }], cores := [(0, { state := 1, win := some 1, tick := 3, nextBundle := 1, kernel := { emptyKernel with bundles := [0, bundleOf (useMx 3 3 3 1 2 0 true)] } })] },
     by decide +kernel⟩,
   ⟨{ core := 0, dt := 1, bundle := 1 }, useMx 3 15 3 1 2 0 true, 15, 3, 1, 2, 0, true,
     { State.reset with wins := [{ id := 1, phase := 2, desc := BitVec.ofNat 512 (16 * 2 ^ 64), parts := 1 }], cores := [(0, { state := 1, win := some 1, tick := 3, nextBundle := 1, kernel := { emptyKernel with bundles := [0, bundleOf (useMx 3 15 3 1 2 0 true)] } })] },
     by decide +kernel⟩⟩

/-- The hypotheses of each clause of Streams can be met. -/
theorem witness_Streams :
    (∃ (i : Issue) (u : SlotUse) (desc : Fin 32) (row : W16) (adv : Bool) (usable depth : Nat) (cols : List Row) (f : Flags)
      (s : State), (u = useIn 1 desc.val row.toNat adv []) ∧ (Issues i u s) ∧ ((issuedCore i u s).shadow = none) ∧ (inFree
      (issuedCore i u s) (issueTick i s) = true) ∧ (depth = panelDepth (issuedCore i u s).kernel (issuedCore i u s).bundle
      (dFmt ((issuedCore i u s).desc desc.val)) true) ∧ (usable = issueTick i s + readLatency (dSpace ((issuedCore i u
      s).desc desc.val)) + ceilDiv (dRows ((issuedCore i u s).desc desc.val) * rowBytes (dFmt ((issuedCore i u s).desc
      desc.val)) depth) (readRate (issued i u s) i.core.val (dSpace ((issuedCore i u s).desc desc.val)))) ∧ (readRows (issued
      i u s) i.core.val ((issuedCore i u s).desc desc.val) (tget 0 desc.val (issuedCore i u s).cursors) depth 0 (fun _ =>
      usable) (dRows ((issuedCore i u s).desc desc.val)) row.toNat = .ok (cols, f))) ∧
    (∃ (i : Issue) (u : SlotUse) (desc : Fin 32) (row : W16) (count : Fin 64) (adv : Bool) (usable depth : Nat) (rows : List
      Row) (f : Flags) (s : State), (u = useIn 2 desc.val row.toNat adv [(9, 6, count.val)]) ∧ (Issues i u s) ∧ ((issuedCore
      i u s).queue.length + (count.val + 1) ≤ 64) ∧ (inFree (issuedCore i u s) (issueTick i s) = true) ∧ (depth = panelDepth
      (issuedCore i u s).kernel (issuedCore i u s).bundle (dFmt ((issuedCore i u s).desc desc.val)) false) ∧ (usable =
      issueTick i s + readLatency (dSpace ((issuedCore i u s).desc desc.val)) + ceilDiv (rowBytes (dFmt ((issuedCore i u
      s).desc desc.val)) depth * (count.val + 1)) (readRate (issued i u s) i.core.val (dSpace ((issuedCore i u s).desc
      desc.val)))) ∧ (readRows (issued i u s) i.core.val ((issuedCore i u s).desc desc.val) (tget 0 desc.val (issuedCore i u
      s).cursors) depth 0
      (fun j => issueTick i s + readLatency (dSpace ((issuedCore i u s).desc desc.val)) + ceilDiv (rowBytes (dFmt
        ((issuedCore i u s).desc desc.val)) depth * (j + 1)) (readRate (issued i u s) i.core.val (dSpace ((issuedCore i u
        s).desc desc.val)))) (count.val + 1) row.toNat = .ok (rows, f))) ∧
    (∃ (i : Issue) (u : SlotUse) (desc : Fin 32) (row : W16) (vd : VReg) (adv : Bool) (usable : Nat) (r : Row) (f : Flags) (s
      : State), (u = useIn 3 desc.val row.toNat adv [(15, 5, vd.val)]) ∧ (Issues i u s) ∧ (inFree (issuedCore i u s)
      (issueTick i s) = true) ∧ (dFmt ((issuedCore i u s).desc desc.val) ≠ fmtTRIT5) ∧ (usable = issueTick i s + readLatency
      (dSpace ((issuedCore i u s).desc desc.val)) + ceilDiv (rowBytes (dFmt ((issuedCore i u s).desc desc.val)) 512)
      (readRate (issued i u s) i.core.val (dSpace ((issuedCore i u s).desc desc.val)))) ∧ (readRow (issued i u s) i.core.val
      ((issuedCore i u s).desc desc.val) (tget 0 desc.val (issuedCore i u s).cursors) row.toNat 512 usable = .ok (r, f)) ∧ (∀
      x ∈ ((issuedCore i u s).vreg vd.val).flight, x.1 ≠ usable)) ∧
    (∃ (i : Issue) (u : SlotUse) (desc : Fin 32) (row : W16) (adv : Bool) (s : State), (u = useIn 1 desc.val row.toNat adv
      []) ∧ (Issues i u s) ∧ ((issuedCore i u s).shadow ≠ none ∨ inFree (issuedCore i u s) (issueTick i s) = false)) ∧
    (∃ (i : Issue) (u : SlotUse) (desc : Fin 32) (row : W16) (count : Fin 64) (adv : Bool) (s : State), (u = useIn 2 desc.val
      row.toNat adv [(9, 6, count.val)]) ∧ (Issues i u s) ∧ (64 < (issuedCore i u s).queue.length + (count.val + 1) ∨ inFree
      (issuedCore i u s) (issueTick i s) = false)) ∧
    (∃ (i : Issue) (u : SlotUse) (desc : Fin 32) (row : W16) (vd : VReg) (adv : Bool) (s : State), (u = useIn 3 desc.val
      row.toNat adv [(15, 5, vd.val)]) ∧ (Issues i u s) ∧ (inFree (issuedCore i u s) (issueTick i s) = false)) ∧
    (∃ (i : Issue) (u : SlotUse) (desc : Fin 32) (row : W16) (vd : VReg) (adv : Bool) (s : State), (u = useIn 3 desc.val
      row.toNat adv [(15, 5, vd.val)]) ∧ (Issues i u s) ∧ (inFree (issuedCore i u s) (issueTick i s) = true) ∧ (dFmt
      ((issuedCore i u s).desc desc.val) = fmtTRIT5)) ∧
    (∃ (i : Issue) (u : SlotUse) (desc : Fin 32) (row : W16) (adv : Bool) (e : Nat × Nat) (usable : Nat) (s : State), (u =
      useIn 1 desc.val row.toNat adv []) ∧ (Issues i u s) ∧ ((issuedCore i u s).shadow = none) ∧ (inFree (issuedCore i u s)
      (issueTick i s) = true) ∧ (usable = issueTick i s + readLatency (dSpace ((issuedCore i u s).desc desc.val)) + ceilDiv
      (dRows ((issuedCore i u s).desc desc.val) * rowBytes (dFmt ((issuedCore i u s).desc desc.val)) (panelDepth (issuedCore
      i u s).kernel (issuedCore i u s).bundle (dFmt ((issuedCore i u s).desc desc.val)) true)) (readRate (issued i u s)
      i.core.val (dSpace ((issuedCore i u s).desc desc.val)))) ∧ (readRows (issued i u s) i.core.val ((issuedCore i u s).desc
      desc.val) (tget 0 desc.val (issuedCore i u s).cursors) (panelDepth (issuedCore i u s).kernel (issuedCore i u s).bundle
      (dFmt ((issuedCore i u s).desc desc.val)) true) 0 (fun _ => usable) (dRows ((issuedCore i u s).desc desc.val))
      row.toNat = .error e)) ∧
    (∃ (i : Issue) (u : SlotUse) (desc : Fin 32) (row : W16) (count : Fin 64) (adv : Bool) (e : Nat × Nat) (depth : Nat) (s :
      State), (u = useIn 2 desc.val row.toNat adv [(9, 6, count.val)]) ∧ (Issues i u s) ∧ ((issuedCore i u s).queue.length +
      (count.val + 1) ≤ 64) ∧ (inFree (issuedCore i u s) (issueTick i s) = true) ∧ (depth = panelDepth (issuedCore i u
      s).kernel (issuedCore i u s).bundle (dFmt ((issuedCore i u s).desc desc.val)) false) ∧ (readRows (issued i u s)
      i.core.val ((issuedCore i u s).desc desc.val) (tget 0 desc.val (issuedCore i u s).cursors) depth 0
      (fun j => issueTick i s + readLatency (dSpace ((issuedCore i u s).desc desc.val)) + ceilDiv (rowBytes (dFmt
        ((issuedCore i u s).desc desc.val)) depth * (j + 1)) (readRate (issued i u s) i.core.val (dSpace ((issuedCore i u
        s).desc desc.val)))) (count.val + 1) row.toNat = .error e)) ∧
    (∃ (i : Issue) (u : SlotUse) (desc : Fin 32) (row : W16) (vd : VReg) (adv : Bool) (e : Nat × Nat) (usable : Nat) (s :
      State), (u = useIn 3 desc.val row.toNat adv [(15, 5, vd.val)]) ∧ (Issues i u s) ∧ (inFree (issuedCore i u s) (issueTick
      i s) = true) ∧ (dFmt ((issuedCore i u s).desc desc.val) ≠ fmtTRIT5) ∧ (usable = issueTick i s + readLatency (dSpace
      ((issuedCore i u s).desc desc.val)) + ceilDiv (rowBytes (dFmt ((issuedCore i u s).desc desc.val)) 512) (readRate
      (issued i u s) i.core.val (dSpace ((issuedCore i u s).desc desc.val)))) ∧ (readRow (issued i u s) i.core.val
      ((issuedCore i u s).desc desc.val) (tget 0 desc.val (issuedCore i u s).cursors) row.toNat 512 usable = .error e)) ∧
    (∃ (i : Issue) (u : SlotUse) (desc : Fin 32) (v : VReg) (m : CvtMode) (adv : Bool) (a : List W32) (scales codes : List
      Nat) (f : Flags) (key size : Nat) (s : State), (u = useOut 1 desc.val m adv [(9, 5, v.val)]) ∧ (Issues i u s) ∧
      (outFree (issuedCore i u s) (issueTick i s) = true) ∧ (dFmt ((issuedCore i u s).desc desc.val) ≠ fmtTRIT5) ∧ (m.stoch =
      true → stochAllowed (dFmt ((issuedCore i u s).desc desc.val)) = true) ∧ (Operand i u s v a) ∧ ((if dFmt ((issuedCore i
      u s).desc desc.val) = fmtLOG8 then ([], a.map (fun w => w.toNat % 256), 0) else
      rowEncode (dFmt ((issuedCore i u s).desc desc.val)) (cvtMode m (windowSeeds (issued i u s) i.core.val 0).1 (windowSeeds
        (issued i u s) i.core.val 0).2 ((issuedCore i u s).convId m.conv.val) (a.headD 0).toNat (dIndexBase ((issuedCore i u
        s).desc desc.val))) m.sat (issuedCore i u s).ftz (a.map (laneValue (fmtInteger (dFmt ((issuedCore i u s).desc
        desc.val)))))) = (scales, codes, f)) ∧ (spaceAt (issued i u s) i.core.val (dSpace ((issuedCore i u s).desc desc.val))
        = some (key, size)) ∧ (dBase ((issuedCore i u s).desc desc.val) + fmtBits (dFmt ((issuedCore i u s).desc desc.val)) *
        (tget 0 desc.val (issuedCore i u s).cursors) / 8 + (packBits (fmtBits (dFmt ((issuedCore i u s).desc desc.val)))
        codes).length ≤ size) ∧ (fmtBlock (dFmt ((issuedCore i u s).desc desc.val)) = true → dScaleBase ((issuedCore i u
        s).desc desc.val) + (tget 0 desc.val (issuedCore i u s).cursors) / 32 + scales.length ≤ size)) ∧
    (∃ (i : Issue) (u : SlotUse) (desc : Fin 32) (bank : Fin 4) (row count : Fin 64) (m : CvtMode) (adv : Bool) (scales codes
      : List Nat) (f : Flags) (key size : Nat) (s : State), (u = useOut 2 desc.val m adv [(14, 2, bank.val), (16, 6,
      row.val), (22, 6, count.val)]) ∧ (Issues i u s) ∧ (outFree (issuedCore i u s) (issueTick i s) = true) ∧ (dFmt
      ((issuedCore i u s).desc desc.val) ≠ fmtTRIT5) ∧ (m.stoch = true → stochAllowed (dFmt ((issuedCore i u s).desc
      desc.val)) = true) ∧ (∀ x ∈ (issuedCore i u s).outs, issueTick i s < x.start + x.done) ∧ (∀ x ∈ (issuedCore i u s).mx,
      issueTick i s < x.start + x.done) ∧ (((issuedCore i u s).accRow bank.val row.val).ready ≤ issueTick i s) ∧ (rowEncode
      (dFmt ((issuedCore i u s).desc desc.val)) (cvtMode m (windowSeeds (issued i u s) i.core.val row.val).1 (windowSeeds
      (issued i u s) i.core.val row.val).2 ((issuedCore i u s).convId m.conv.val) ((issuedCore i u s).tokens.getD row.val
      0).toNat (dIndexBase ((issuedCore i u s).desc desc.val))) m.sat (issuedCore i u s).ftz
      (((issuedCore i u s).accRow bank.val row.val).vals.map (laneValue (((issuedCore i u s).accRow bank.val row.val).tag ==
        .int32))) = (scales, codes, f)) ∧ (spaceAt (issued i u s) i.core.val (dSpace ((issuedCore i u s).desc desc.val)) =
        some (key, size)) ∧ ((dBase ((issuedCore i u s).desc desc.val) + row.val * dRowStride ((issuedCore i u s).desc
        desc.val) + fmtBits (dFmt ((issuedCore i u s).desc desc.val)) * (tget 0 desc.val (issuedCore i u s).cursors) / 8) +
        (packBits (fmtBits (dFmt ((issuedCore i u s).desc desc.val))) codes).length ≤ size) ∧ (fmtBlock (dFmt ((issuedCore i
        u s).desc desc.val)) = true → dScaleBase ((issuedCore i u s).desc desc.val) + row.val * dScaleStride ((issuedCore i u
        s).desc desc.val) + (tget 0 desc.val (issuedCore i u s).cursors) / 32 + scales.length ≤ size)) ∧
    (∃ (i : Issue) (u : SlotUse) (desc : Fin 32) (v : VReg) (m : CvtMode) (adv : Bool) (s : State), (u = useOut 1 desc.val m
      adv [(9, 5, v.val)]) ∧ (Issues i u s) ∧ (outFree (issuedCore i u s) (issueTick i s) = false)) ∧
    (∃ (i : Issue) (u : SlotUse) (desc : Fin 32) (v : VReg) (m : CvtMode) (adv : Bool) (s : State), (u = useOut 1 desc.val m
      adv [(9, 5, v.val)]) ∧ (Issues i u s) ∧ (outFree (issuedCore i u s) (issueTick i s) = true) ∧ (dFmt ((issuedCore i u
      s).desc desc.val) = fmtTRIT5 ∨ (m.stoch = true ∧ stochAllowed (dFmt ((issuedCore i u s).desc desc.val)) = false))) ∧
    (∃ (i : Issue) (u : SlotUse) (desc : Fin 32) (bank : Fin 4) (row count : Fin 64) (m : CvtMode) (adv : Bool) (s : State),
      (u = useOut 2 desc.val m adv [(14, 2, bank.val), (16, 6, row.val), (22, 6, count.val)]) ∧ (Issues i u s) ∧ (outFree
      (issuedCore i u s) (issueTick i s) = false)) ∧
    (∃ (i : Issue) (u : SlotUse) (desc : Fin 32) (bank : Fin 4) (row count : Fin 64) (m : CvtMode) (adv : Bool) (s : State),
      (u = useOut 2 desc.val m adv [(14, 2, bank.val), (16, 6, row.val), (22, 6, count.val)]) ∧ (Issues i u s) ∧ (outFree
      (issuedCore i u s) (issueTick i s) = true) ∧ (dFmt ((issuedCore i u s).desc desc.val) = fmtTRIT5 ∨ (m.stoch = true ∧
      stochAllowed (dFmt ((issuedCore i u s).desc desc.val)) = false))) :=
  ⟨⟨{ core := 0, dt := 1, bundle := 1 }, useIn 1 0 0 true [], 0, 0, true, 12, 256, [], 0,
    { State.reset with wins := [{ id := 1, phase := 2, desc := BitVec.ofNat 512 (16 * 2 ^ 64), parts := 1 }], cores := [(0, { state := 1, win := some 1, tick := 3, nextBundle := 1, kernel := { emptyKernel with bundles := [0, bundleOf (useIn 1 0 0 true [])], streams := [BitVec.ofNat 256 (3 + 0 * 2 ^ 5 + 0 * 2 ^ 16 + 0 * 2 ^ 32 + 32 * 2 ^ 160 + 64 * 2 ^ 192)] } })] },
    by decide +kernel⟩,
   ⟨{ core := 0, dt := 1, bundle := 1 }, useIn 2 0 0 true [(9, 6, 0)], 0, 0, 0, true, 13, 256,
     [{ fmt := 3, codes := List.replicate 256 none, scales := [], usable := 13 }], 0,
     { State.reset with wins := [{ id := 1, phase := 2, desc := BitVec.ofNat 512 (16 * 2 ^ 64), parts := 1 }], cores := [(0, { state := 1, win := some 1, tick := 3, nextBundle := 1, kernel := { emptyKernel with bundles := [0, bundleOf (useIn 2 0 0 true [(9, 6, 0)])], streams := [BitVec.ofNat 256 (3 + 0 * 2 ^ 5 + 1 * 2 ^ 16 + 0 * 2 ^ 32 + 32 * 2 ^ 160 + 0 * 2 ^ 192)] } })] },
     by decide +kernel⟩,
   ⟨{ core := 0, dt := 1, bundle := 1 }, useIn 3 0 0 false [(15, 5, 1)], 0, 0, 1, false, 13,
     { fmt := 3, codes := List.replicate 512 none, scales := [], usable := 13 }, 0,
     { State.reset with wins := [{ id := 1, phase := 2, desc := BitVec.ofNat 512 (16 * 2 ^ 64), parts := 1 }], cores := [(0, { state := 1, win := some 1, tick := 3, nextBundle := 1, kernel := { emptyKernel with bundles := [0, bundleOf (useIn 3 0 0 false [(15, 5, 1)])], streams := [BitVec.ofNat 256 (3 + 0 * 2 ^ 5 + 1 * 2 ^ 16 + 0 * 2 ^ 32 + 32 * 2 ^ 160 + 0 * 2 ^ 192)] } })] },
     by decide +kernel⟩,
   ⟨{ core := 0, dt := 1, bundle := 1 }, useIn 1 0 0 true [], 0, 0, true,
     { State.reset with wins := [{ id := 1, phase := 2, desc := BitVec.ofNat 512 (16 * 2 ^ 64), parts := 1 }], cores := [(0, { state := 1, win := some 1, tick := 3, nextBundle := 1, kernel := { emptyKernel with bundles := [0, bundleOf (useIn 1 0 0 true [])], streams := [BitVec.ofNat 256 (3 + 0 * 2 ^ 5 + 0 * 2 ^ 16 + 0 * 2 ^ 32 + 32 * 2 ^ 160 + 64 * 2 ^ 192)] }, inBusy := [90, 91, 92, 93] })] },
     by decide +kernel⟩,
   ⟨{ core := 0, dt := 1, bundle := 1 }, useIn 2 0 0 true [(9, 6, 0)], 0, 0, 0, true,
     { State.reset with wins := [{ id := 1, phase := 2, desc := BitVec.ofNat 512 (16 * 2 ^ 64), parts := 1 }], cores := [(0, { state := 1, win := some 1, tick := 3, nextBundle := 1, kernel := { emptyKernel with bundles := [0, bundleOf (useIn 2 0 0 true [(9, 6, 0)])], streams := [BitVec.ofNat 256 (3 + 0 * 2 ^ 5 + 1 * 2 ^ 16 + 0 * 2 ^ 32 + 32 * 2 ^ 160 + 64 * 2 ^ 192)] }, inBusy := [90, 91, 92, 93] })] },
     by decide +kernel⟩,
   ⟨{ core := 0, dt := 1, bundle := 1 }, useIn 3 0 0 false [(15, 5, 1)], 0, 0, 1, false,
     { State.reset with wins := [{ id := 1, phase := 2, desc := BitVec.ofNat 512 (16 * 2 ^ 64), parts := 1 }], cores := [(0, { state := 1, win := some 1, tick := 3, nextBundle := 1, kernel := { emptyKernel with bundles := [0, bundleOf (useIn 3 0 0 false [(15, 5, 1)])], streams := [BitVec.ofNat 256 (3 + 0 * 2 ^ 5 + 1 * 2 ^ 16 + 0 * 2 ^ 32 + 32 * 2 ^ 160 + 64 * 2 ^ 192)] }, inBusy := [90, 91, 92, 93] })] },
     by decide +kernel⟩,
   ⟨{ core := 0, dt := 1, bundle := 1 }, useIn 3 0 0 false [(15, 5, 1)], 0, 0, 1, false,
     { State.reset with wins := [{ id := 1, phase := 2, desc := BitVec.ofNat 512 (16 * 2 ^ 64), parts := 1 }], cores := [(0, { state := 1, win := some 1, tick := 3, nextBundle := 1, kernel := { emptyKernel with bundles := [0, bundleOf (useIn 3 0 0 false [(15, 5, 1)])], streams := [BitVec.ofNat 256 (15 + 0 * 2 ^ 5 + 1 * 2 ^ 16 + 0 * 2 ^ 32 + 32 * 2 ^ 160 + 64 * 2 ^ 192)] } })] },
     by decide +kernel⟩,
   ⟨{ core := 0, dt := 1, bundle := 1 }, useIn 1 0 0 true [], 0, 0, true, (exitBOUNDS, 0), 13,
     { State.reset with wins := [{ id := 1, phase := 2, desc := BitVec.ofNat 512 (16 * 2 ^ 64), parts := 1 }], cores := [(0, { state := 1, win := some 1, tick := 3, nextBundle := 1, kernel := { emptyKernel with bundles := [0, bundleOf (useIn 1 0 0 true [])], streams := [BitVec.ofNat 256 (3 + 0 * 2 ^ 5 + 1 * 2 ^ 16 + 0xFFFFFFFF * 2 ^ 32 + 32 * 2 ^ 160 + 64 * 2 ^ 192)] } })] },
     by decide +kernel⟩,
   ⟨{ core := 0, dt := 1, bundle := 1 }, useIn 2 0 0 true [(9, 6, 0)], 0, 0, 0, true, (exitBOUNDS, 0), 256,
     { State.reset with wins := [{ id := 1, phase := 2, desc := BitVec.ofNat 512 (16 * 2 ^ 64), parts := 1 }], cores := [(0, { state := 1, win := some 1, tick := 3, nextBundle := 1, kernel := { emptyKernel with bundles := [0, bundleOf (useIn 2 0 0 true [(9, 6, 0)])], streams := [BitVec.ofNat 256 (3 + 0 * 2 ^ 5 + 1 * 2 ^ 16 + 0xFFFFFFFF * 2 ^ 32 + 32 * 2 ^ 160 + 64 * 2 ^ 192)] } })] },
     by decide +kernel⟩,
   ⟨{ core := 0, dt := 1, bundle := 1 }, useIn 3 0 0 false [(15, 5, 1)], 0, 0, 1, false, (exitBOUNDS, 0), 13,
     { State.reset with wins := [{ id := 1, phase := 2, desc := BitVec.ofNat 512 (16 * 2 ^ 64), parts := 1 }], cores := [(0, { state := 1, win := some 1, tick := 3, nextBundle := 1, kernel := { emptyKernel with bundles := [0, bundleOf (useIn 3 0 0 false [(15, 5, 1)])], streams := [BitVec.ofNat 256 (3 + 0 * 2 ^ 5 + 1 * 2 ^ 16 + 0xFFFFFFFF * 2 ^ 32 + 32 * 2 ^ 160 + 64 * 2 ^ 192)] } })] },
     by decide +kernel⟩,
   ⟨{ core := 0, dt := 1, bundle := 1 }, useOut 1 0 { sat := true, stoch := false, conv := 0 } true [(9, 5, 1)], 0, 1,
     { sat := true, stoch := false, conv := 0 }, true, [0x3F800000, 0x40000000], [], [0x38, 0x40], 0, memKey 1 (coreSramBase
     0), coreSramSize, { State.reset with wins := [{ id := 1, phase := 2, desc := BitVec.ofNat 512 (16 * 2 ^ 64), parts := 1 }], cores := [(0, { state := 1, win := some 1, tick := 3, nextBundle := 1, kernel := { emptyKernel with bundles := [0, bundleOf (useOut 1 0 { sat := true, stoch := false, conv := 0 } true [(9, 5, 1)])], streams := [BitVec.ofNat 256 (3 + 0 * 2 ^ 5 + 1 * 2 ^ 16 + 0 * 2 ^ 32 + 32 * 2 ^ 160 + 64 * 2 ^ 192)] }, regs := [(1, { lanes := [0x3F800000, 0x40000000] })] })] },
     by decide +kernel⟩,
   ⟨{ core := 0, dt := 1, bundle := 1 }, useOut 2 0 { sat := true, stoch := false, conv := 0 } true [(14, 2, 1), (16, 6, 2),
     (22, 6, 0)], 0, 1, 2, 0, { sat := true, stoch := false, conv := 0 }, true, [], List.replicate 192 0, 0, memKey 1
     (coreSramBase 0), coreSramSize, { State.reset with wins := [{ id := 1, phase := 2, desc := BitVec.ofNat 512 (16 * 2 ^ 64), parts := 1 }], cores := [(0, { state := 1, win := some 1, tick := 3, nextBundle := 1, kernel := { emptyKernel with bundles := [0, bundleOf (useOut 2 0 { sat := true, stoch := false, conv := 0 } true [(14, 2, 1), (16, 6, 2), (22, 6, 0)])], streams := [BitVec.ofNat 256 (3 + 0 * 2 ^ 5 + 1 * 2 ^ 16 + 0 * 2 ^ 32 + 32 * 2 ^ 160 + 64 * 2 ^ 192)] } })] },
     by decide +kernel⟩,
   ⟨{ core := 0, dt := 1, bundle := 1 }, useOut 1 0 { sat := true, stoch := false, conv := 0 } true [(9, 5, 1)], 0, 1,
     { sat := true, stoch := false, conv := 0 }, true,
     { State.reset with wins := [{ id := 1, phase := 2, desc := BitVec.ofNat 512 (16 * 2 ^ 64), parts := 1 }], cores := [(0, { state := 1, win := some 1, tick := 3, nextBundle := 1, kernel := { emptyKernel with bundles := [0, bundleOf (useOut 1 0 { sat := true, stoch := false, conv := 0 } true [(9, 5, 1)])], streams := [BitVec.ofNat 256 (3 + 0 * 2 ^ 5 + 1 * 2 ^ 16 + 0 * 2 ^ 32 + 32 * 2 ^ 160 + 64 * 2 ^ 192)] }, outBusy := [90, 91] })] },
     by decide +kernel⟩,
   ⟨{ core := 0, dt := 1, bundle := 1 }, useOut 1 0 { sat := true, stoch := false, conv := 0 } true [(9, 5, 1)], 0, 1,
     { sat := true, stoch := false, conv := 0 }, true,
     { State.reset with wins := [{ id := 1, phase := 2, desc := BitVec.ofNat 512 (16 * 2 ^ 64), parts := 1 }], cores := [(0, { state := 1, win := some 1, tick := 3, nextBundle := 1, kernel := { emptyKernel with bundles := [0, bundleOf (useOut 1 0 { sat := true, stoch := false, conv := 0 } true [(9, 5, 1)])], streams := [BitVec.ofNat 256 (15 + 0 * 2 ^ 5 + 1 * 2 ^ 16 + 0 * 2 ^ 32 + 32 * 2 ^ 160 + 64 * 2 ^ 192)] } })] },
     by decide +kernel⟩,
   ⟨{ core := 0, dt := 1, bundle := 1 }, useOut 2 0 { sat := true, stoch := false, conv := 0 } true [(14, 2, 1), (16, 6, 2),
     (22, 6, 0)], 0, 1, 2, 0, { sat := true, stoch := false, conv := 0 }, true,
     { State.reset with wins := [{ id := 1, phase := 2, desc := BitVec.ofNat 512 (16 * 2 ^ 64), parts := 1 }], cores := [(0, { state := 1, win := some 1, tick := 3, nextBundle := 1, kernel := { emptyKernel with bundles := [0, bundleOf (useOut 2 0 { sat := true, stoch := false, conv := 0 } true [(14, 2, 1), (16, 6, 2), (22, 6, 0)])], streams := [BitVec.ofNat 256 (3 + 0 * 2 ^ 5 + 1 * 2 ^ 16 + 0 * 2 ^ 32 + 32 * 2 ^ 160 + 64 * 2 ^ 192)] }, outBusy := [90, 91] })] },
     by decide +kernel⟩,
   ⟨{ core := 0, dt := 1, bundle := 1 }, useOut 2 0 { sat := true, stoch := false, conv := 0 } true [(14, 2, 1), (16, 6, 2),
     (22, 6, 0)], 0, 1, 2, 0, { sat := true, stoch := false, conv := 0 }, true,
     { State.reset with wins := [{ id := 1, phase := 2, desc := BitVec.ofNat 512 (16 * 2 ^ 64), parts := 1 }], cores := [(0, { state := 1, win := some 1, tick := 3, nextBundle := 1, kernel := { emptyKernel with bundles := [0, bundleOf (useOut 2 0 { sat := true, stoch := false, conv := 0 } true [(14, 2, 1), (16, 6, 2), (22, 6, 0)])], streams := [BitVec.ofNat 256 (15 + 0 * 2 ^ 5 + 1 * 2 ^ 16 + 0 * 2 ^ 32 + 32 * 2 ^ 160 + 64 * 2 ^ 192)] } })] },
     by decide +kernel⟩⟩

/-- The hypotheses of each clause of SyncAndSend can be met. -/
theorem witness_SyncAndSend :
    (∃ (i : Issue) (u : SlotUse) (entry : Fin 32) (fromDesc : Bool) (reg : Fin 32) (frames : BitVec 12) (adv : Bool) (data :
      Bytes) (f : Flags) (dst : Nat) (s : State), (u = useSend 1 entry.val fromDesc reg.val frames.toNat adv) ∧ (Issues i u
      s) ∧ ((issuedCore i u s).sends.length < 16) ∧ (sendPayload i.core.val (issueTick i s) fromDesc reg.val (64 *
      (frames.toNat + 1)) false (issued i u s) = .ok (data, f)) ∧ (sendAddress (issued i u s) (fieldAt ((issuedCore i u
      s).kernel.sends.getD entry.val 0) 0 5) (fieldAt ((issuedCore i u s).kernel.sends.getD entry.val 0) 5 3) (windowSlot
      (issued i u s) i.core.val) (fieldAt ((issuedCore i u s).kernel.sends.getD entry.val 0) 32 32 + tget 0 entry.val
      (issuedCore i u s).sendCur) = some dst) ∧ (fieldAt ((issuedCore i u s).kernel.sends.getD entry.val 0) 0 5 = dieSite
      (coreDie i.core.val)) ∧ (fieldAt ((issuedCore i u s).kernel.sends.getD entry.val 0) 32 32 + tget 0 entry.val
      (issuedCore i u s).sendCur + data.length ≤ sendLimit (issued i u s) (dieSite (coreDie i.core.val)) (fieldAt
      ((issuedCore i u s).kernel.sends.getD entry.val 0) 5 3) (windowSlot (issued i u s) i.core.val))) ∧
    (∃ (i : Issue) (u : SlotUse) (entry : Fin 32) (fromDesc : Bool) (reg : Fin 32) (frames : BitVec 12) (adv : Bool) (data :
      Bytes) (f : Flags) (dst : Nat) (s : State), (u = useSend 1 entry.val fromDesc reg.val frames.toNat adv) ∧ (Issues i u
      s) ∧ ((issuedCore i u s).sends.length < 16) ∧ (sendPayload i.core.val (issueTick i s) fromDesc reg.val (64 *
      (frames.toNat + 1)) false (issued i u s) = .ok (data, f)) ∧ (sendAddress (issued i u s) (fieldAt ((issuedCore i u
      s).kernel.sends.getD entry.val 0) 0 5) (fieldAt ((issuedCore i u s).kernel.sends.getD entry.val 0) 5 3) (windowSlot
      (issued i u s) i.core.val) (fieldAt ((issuedCore i u s).kernel.sends.getD entry.val 0) 32 32 + tget 0 entry.val
      (issuedCore i u s).sendCur) = some dst) ∧ (fieldAt ((issuedCore i u s).kernel.sends.getD entry.val 0) 0 5 ≠ dieSite
      (coreDie i.core.val)) ∧ (∀ k ∈ List.range (frames.toNat + 1), (pathOf (issued i u s) (dieSite (coreDie i.core.val))
      (fieldAt ((issuedCore i u s).kernel.sends.getD entry.val 0) 0 5) (dst / 64 + k)).isSome = true)) ∧
    (∃ (i : Issue) (u : SlotUse) (entry : Fin 32) (fromDesc : Bool) (reg : Fin 32) (frames : BitVec 12) (adv : Bool) (data :
      Bytes) (f : Flags) (dst : Nat) (s : State), (u = useSend 2 entry.val fromDesc reg.val frames.toNat adv) ∧ (Issues i u
      s) ∧ ((issuedCore i u s).sends.length < 16) ∧ (sendPayload i.core.val (issueTick i s) fromDesc reg.val (64 *
      (frames.toNat + 1)) (fieldAt ((issuedCore i u s).kernel.sends.getD entry.val 0) 8 2 == 1) (issued i u s) = .ok (data,
      f)) ∧ (sendAddress (issued i u s) (fieldAt ((issuedCore i u s).kernel.sends.getD entry.val 0) 0 5) (fieldAt
      ((issuedCore i u s).kernel.sends.getD entry.val 0) 5 3) (windowSlot (issued i u s) i.core.val) (fieldAt ((issuedCore i
      u s).kernel.sends.getD entry.val 0) 32 32 + tget 0 entry.val (issuedCore i u s).sendCur) = some dst) ∧ (fieldAt
      ((issuedCore i u s).kernel.sends.getD entry.val 0) 0 5 ≠ dieSite (coreDie i.core.val)) ∧ (∀ k ∈ List.range
      (frames.toNat + 1), (pathOf (issued i u s) (dieSite (coreDie i.core.val)) (fieldAt ((issuedCore i u
      s).kernel.sends.getD entry.val 0) 0 5) (dst / 64 + k)).isSome = true)) ∧
    (∃ (i : Issue) (u : SlotUse) (entry : Fin 32) (fromDesc : Bool) (reg : Fin 32) (frames : BitVec 12) (adv : Bool) (data :
      Bytes) (f : Flags) (dst : Nat) (s : State), (u = useSend 2 entry.val fromDesc reg.val frames.toNat adv) ∧ (Issues i u
      s) ∧ ((issuedCore i u s).sends.length < 16) ∧ (sendPayload i.core.val (issueTick i s) fromDesc reg.val (64 *
      (frames.toNat + 1)) (fieldAt ((issuedCore i u s).kernel.sends.getD entry.val 0) 8 2 == 1) (issued i u s) = .ok (data,
      f)) ∧ (sendAddress (issued i u s) (fieldAt ((issuedCore i u s).kernel.sends.getD entry.val 0) 0 5) (fieldAt
      ((issuedCore i u s).kernel.sends.getD entry.val 0) 5 3) (windowSlot (issued i u s) i.core.val) (fieldAt ((issuedCore i
      u s).kernel.sends.getD entry.val 0) 32 32 + tget 0 entry.val (issuedCore i u s).sendCur) = some dst) ∧ (fieldAt
      ((issuedCore i u s).kernel.sends.getD entry.val 0) 0 5 = dieSite (coreDie i.core.val)) ∧ (fieldAt ((issuedCore i u
      s).kernel.sends.getD entry.val 0) 32 32 + tget 0 entry.val (issuedCore i u s).sendCur + data.length ≤ sendLimit (issued
      i u s) (dieSite (coreDie i.core.val)) (fieldAt ((issuedCore i u s).kernel.sends.getD entry.val 0) 5 3) (windowSlot
      (issued i u s) i.core.val))) ∧
    (∃ (i : Issue) (u : SlotUse) (entry : Fin 32) (flag : Fin 64) (value : W32) (s : State), (u = useSync 4 [(4, 5,
      entry.val), (9, 6, flag.val), (15, 32, value.toNat)]) ∧ (Issues i u s) ∧ (fieldAt ((issuedCore i u s).kernel.sends.getD
      entry.val 0) 0 5 = dieSite (coreDie i.core.val)) ∧ (openSums (issued i u s) (coreDie i.core.val) (fun x => x ==
      i.core.val) = [])) ∧
    (∃ (i : Issue) (u : SlotUse) (entry : Fin 32) (flag : Fin 64) (value : W32) (s : State), (u = useSync 4 [(4, 5,
      entry.val), (9, 6, flag.val), (15, 32, value.toNat)]) ∧ (Issues i u s) ∧ (fieldAt ((issuedCore i u s).kernel.sends.getD
      entry.val 0) 0 5 = dieSite (coreDie i.core.val)) ∧ (openSums (issued i u s) (coreDie i.core.val) (fun x => x ==
      i.core.val) ≠ [])) ∧
    (∃ (i : Issue) (u : SlotUse) (entry : Fin 32) (flag : Fin 64) (value : W32) (m : Nat) (relay : Bool) (s : State), (u =
      useSync 4 [(4, 5, entry.val), (9, 6, flag.val), (15, 32, value.toNat)]) ∧ (Issues i u s) ∧ (fieldAt ((issuedCore i u
      s).kernel.sends.getD entry.val 0) 0 5 ≠ dieSite (coreDie i.core.val)) ∧ (pathOf (issued i u s) (dieSite (coreDie
      i.core.val)) (fieldAt ((issuedCore i u s).kernel.sends.getD entry.val 0) 0 5) (coreSramBase (fieldAt ((issuedCore i u
      s).kernel.sends.getD entry.val 0) 5 3) / 64) = some (m, relay))) ∧
    (∃ (i : Issue) (u : SlotUse) (flag : Fin 64) (value : W32) (s : State), (u = useSync 5 [(9, 6, flag.val), (15, 32,
      value.toNat)]) ∧ (Issues i u s) ∧ (value ≤ tget 0 flag.val (issuedCore i u s).flags)) ∧
    (∃ (i : Issue) (u : SlotUse) (flag : Fin 64) (value : W32) (s : State), (u = useSync 5 [(9, 6, flag.val), (15, 32,
      value.toNat)]) ∧ (Issues i u s) ∧ (tget 0 flag.val (issuedCore i u s).flags < value)) ∧
    (∃ (i : Issue) (u : SlotUse) (bar : Byte) (offset : W16) (s : State), (u = useSync 3 [(4, 8, bar.toNat), (12, 16,
      offset.toNat)]) ∧ (Issues i u s)) ∧
    (∃ (core : CoreId) (bar : Byte) (x : Nat × Nat) (s : State), ((s.core core.val).checks.find? (fun y => y.1 == bar.toNat)
      = some x) ∧ (x.2 ≤ (s.core core.val).tick ∨ x.2 ≤ beatTick s core.val) ∧ (((progress core.val (min x.2 (s.core
      core.val).tick) s).core core.val).state = 1) ∧ (tget 0 x.1 ((progress core.val (min x.2 (s.core core.val).tick) s).core
      core.val).arrivals &&& barrierMask (progress core.val (min x.2 (s.core core.val).tick) s) core.val x.1 = barrierMask
      (progress core.val (min x.2 (s.core core.val).tick) s) core.val x.1)) ∧
    (∃ (core : CoreId) (bar : Byte) (x : Nat × Nat) (s : State), ((s.core core.val).checks.find? (fun y => y.1 == bar.toNat)
      = some x) ∧ (x.2 ≤ (s.core core.val).tick ∨ x.2 ≤ beatTick s core.val) ∧ (((progress core.val (min x.2 (s.core
      core.val).tick) s).core core.val).state = 1) ∧ (tget 0 x.1 ((progress core.val (min x.2 (s.core core.val).tick) s).core
      core.val).arrivals &&& barrierMask (progress core.val (min x.2 (s.core core.val).tick) s) core.val x.1 ≠ barrierMask
      (progress core.val (min x.2 (s.core core.val).tick) s) core.val x.1)) ∧
    (∃ (i : Issue) (u : SlotUse) (offset : BitVec 40) (s : State), (u = useSync 6 [(4, 40, offset.toNat)]) ∧ (Issues i u s) ∧
      (replica (issued i u s) (dieSite (coreDie i.core.val)) < (issuedCore i u s).launch + offset.toNat)) ∧
    (∃ (i : Issue) (u : SlotUse) (offset : BitVec 40) (s : State), (u = useSync 6 [(4, 40, offset.toNat)]) ∧ (Issues i u s) ∧
      ((issuedCore i u s).launch + offset.toNat ≤ replica (issued i u s) (dieSite (coreDie i.core.val)))) ∧
    (∃ (die : DieId) (j : Fin 4) (b : Nat) (s : State), ((s.core (4 * die.val + j.val)).waitBeat = some b) ∧ (b ≤ replica s
      (dieSite die.val))) ∧
    (∃ (i : Issue) (u : SlotUse) (dist iters : BitVec 12) (s : State), (u = useSync 7 [(4, 12, dist.toNat), (16, 12,
      iters.toNat)]) ∧ (Issues i u s) ∧ (lastRep (issuedCore i u s) = true) ∧ (∀ y ∈ (issuedCore i u s).loops.head?, y.1 ≠
      (issuedCore i u s).bundle) ∧ (0 < iters.toNat)) ∧
    (∃ (i : Issue) (u : SlotUse) (dist iters : BitVec 12) (rest : List (Nat × Nat)) (left : Nat) (s : State), (u = useSync 7
      [(4, 12, dist.toNat), (16, 12, iters.toNat)]) ∧ (Issues i u s) ∧ (lastRep (issuedCore i u s) = true) ∧ ((issuedCore i u
      s).loops = ((issuedCore i u s).bundle, left + 1) :: rest)) ∧
    (∃ (i : Issue) (u : SlotUse) (dist iters : BitVec 12) (rest : List (Nat × Nat)) (s : State), (u = useSync 7 [(4, 12,
      dist.toNat), (16, 12, iters.toNat)]) ∧ (Issues i u s) ∧ (lastRep (issuedCore i u s) = true) ∧ ((issuedCore i u s).loops
      = ((issuedCore i u s).bundle, 0) :: rest)) ∧
    (∃ (i : Issue) (u : SlotUse) (dist iters : BitVec 12) (s : State), (u = useSync 7 [(4, 12, dist.toNat), (16, 12,
      iters.toNat)]) ∧ (Issues i u s) ∧ (lastRep (issuedCore i u s) = false ∨ (iters = 0 ∧ ∀ y ∈ (issuedCore i u
      s).loops.head?, y.1 ≠ (issuedCore i u s).bundle))) ∧
    (∃ (i : Issue) (u : SlotUse) (s : State), (u = { slot := 5, op := 1 }) ∧ (Issues i u s) ∧ ((issued i u s).beagle.state ≠
      1 ∨ ((issued i u s).obj Obj.beagleSourceMask).testBit 1 = false)) ∧
    (∃ (i : Issue) (u : SlotUse) (s : State), (u = { slot := 5, op := 1 }) ∧ (Issues i u s) ∧ ((issued i u s).beagle.state =
      1) ∧ (((issued i u s).obj Obj.beagleSourceMask).testBit 1 = true) ∧ ((tget [] (dieSite (coreDie i.core.val)) (issued i
      u s).beagle.queues).length < traceQueueLen)) ∧
    (∃ (i : Issue) (u : SlotUse) (s : State), (u = { slot := 5, op := 1 }) ∧ (Issues i u s) ∧ ((issued i u s).beagle.state =
      1) ∧ (((issued i u s).obj Obj.beagleSourceMask).testBit 1 = true) ∧ (traceQueueLen ≤ (tget [] (dieSite (coreDie
      i.core.val)) (issued i u s).beagle.queues).length)) ∧
    (∃ (i : Issue) (u : SlotUse) (s : State), (u = { slot := 6, op := 1 }) ∧ (Issues i u s) ∧ (lastRep (issuedCore i u s) =
      true) ∧ (declaredTicks (issued i u s) i.core.val ≤ issueTick i s + 1) ∧ ((issuedCore i u s).mx = none) ∧ ((issuedCore i
      u s).outs = []) ∧ (∀ x ∈ (issuedCore i u s).checks, issueTick i s < x.2)) ∧
    (∃ (i : Issue) (u : SlotUse) (s : State), (u = { slot := 6, op := 1 }) ∧ (Issues i u s) ∧ (lastRep (issuedCore i u s) =
      true) ∧ (issueTick i s + 1 < declaredTicks (issued i u s) i.core.val)) ∧
    (∃ (i : Issue) (u : SlotUse) (s : State), (u = { slot := 6, op := 1 }) ∧ (Issues i u s) ∧ (lastRep (issuedCore i u s) =
      false)) :=
  ⟨⟨{ core := 0, dt := 1, bundle := 1 }, useSend 1 0 false 1 0 true, 0, false, 1, 0, true, fitBytes 64 (wordsBytes [1, 2]),
    0, coreSramBase 2, { State.reset with wins := [{ id := 1, phase := 2, desc := BitVec.ofNat 512 (16 * 2 ^ 64), parts := 1 }], cores := [(0, { state := 1, win := some 1, tick := 3, nextBundle := 1, kernel := { emptyKernel with bundles := [0, bundleOf (useSend 1 0 false 1 0 true)], sends := [BitVec.ofNat 128 (1 + 2 * 2 ^ 5)] }, regs := [(1, { lanes := [1, 2] })] })] },
    by decide +kernel⟩,
   ⟨{ core := 0, dt := 1, bundle := 1 }, useSend 1 0 false 1 0 true, 0, false, 1, 0, true, fitBytes 64 (wordsBytes [1, 2]),
     0, coreSramBase 2, { State.reset with wins := [{ id := 1, phase := 2, desc := BitVec.ofNat 512 (16 * 2 ^ 64), parts := 1 }], cores := [(0, { state := 1, win := some 1, tick := 3, nextBundle := 1, kernel := { emptyKernel with bundles := [0, bundleOf (useSend 1 0 false 1 0 true)], sends := [BitVec.ofNat 128 (3 + 2 * 2 ^ 5)] }, regs := [(1, { lanes := [1, 2] })] })], strings := [(primaryString 1 3, { state := 0 })] },
     by decide +kernel⟩,
   ⟨{ core := 0, dt := 1, bundle := 1 }, useSend 2 0 false 1 0 true, 0, false, 1, 0, true, fitBytes 64 (wordsBytes [1, 2]),
     0, coreSramBase 2, { State.reset with wins := [{ id := 1, phase := 2, desc := BitVec.ofNat 512 (16 * 2 ^ 64), parts := 1 }], cores := [(0, { state := 1, win := some 1, tick := 3, nextBundle := 1, kernel := { emptyKernel with bundles := [0, bundleOf (useSend 2 0 false 1 0 true)], sends := [BitVec.ofNat 128 (3 + 2 * 2 ^ 5)] }, regs := [(1, { lanes := [1, 2] })] })], strings := [(primaryString 1 3, { state := 0 })] },
     by decide +kernel⟩,
   ⟨{ core := 0, dt := 1, bundle := 1 }, useSend 2 0 false 1 0 true, 0, false, 1, 0, true, fitBytes 64 (wordsBytes [1, 2]),
     0, coreSramBase 2, { State.reset with wins := [{ id := 1, phase := 2, desc := BitVec.ofNat 512 (16 * 2 ^ 64), parts := 1 }], cores := [(0, { state := 1, win := some 1, tick := 3, nextBundle := 1, kernel := { emptyKernel with bundles := [0, bundleOf (useSend 2 0 false 1 0 true)], sends := [BitVec.ofNat 128 (1 + 2 * 2 ^ 5)] }, regs := [(1, { lanes := [1, 2] })] })] },
     by decide +kernel⟩,
   ⟨{ core := 0, dt := 1, bundle := 1 }, useSync 4 [(4, 5, 0), (9, 6, 5), (15, 32, 7)], 0, 5, 7,
     { State.reset with wins := [{ id := 1, phase := 2, desc := BitVec.ofNat 512 (16 * 2 ^ 64), parts := 1 }], cores := [(0, { state := 1, win := some 1, tick := 3, nextBundle := 1, kernel := { emptyKernel with bundles := [0, bundleOf (useSync 4 [(4, 5, 0), (9, 6, 5), (15, 32, 7)])], sends := [BitVec.ofNat 128 (1 + 2 * 2 ^ 5)] } })] },
     by decide +kernel⟩,
   ⟨{ core := 0, dt := 1, bundle := 1 }, useSync 4 [(4, 5, 0), (9, 6, 5), (15, 32, 7)], 0, 5, 7,
     { State.reset with wins := [{ id := 1, phase := 2, desc := BitVec.ofNat 512 (16 * 2 ^ 64), parts := 1, plan := [{ die := 0, win := 1, addr := memKey 1 0, len := 64, type := 0, mask := 3 }] }], cores := [(0, { state := 1, win := some 1, tick := 3, nextBundle := 1, kernel := { emptyKernel with bundles := [0, bundleOf (useSync 4 [(4, 5, 0), (9, 6, 5), (15, 32, 7)])], sends := [BitVec.ofNat 128 (1 + 2 * 2 ^ 5)] } })], dies := [(0, { chunks := [{ win := 1, addr := memKey 1 0, added := 1, sum := [], wait := [] }] })] },
     by decide +kernel⟩,
   ⟨{ core := 0, dt := 1, bundle := 1 }, useSync 4 [(4, 5, 0), (9, 6, 5), (15, 32, 7)], 0, 5, 7, primaryString 1 3, false,
     { State.reset with wins := [{ id := 1, phase := 2, desc := BitVec.ofNat 512 (16 * 2 ^ 64), parts := 1 }], cores := [(0, { state := 1, win := some 1, tick := 3, nextBundle := 1, kernel := { emptyKernel with bundles := [0, bundleOf (useSync 4 [(4, 5, 0), (9, 6, 5), (15, 32, 7)])], sends := [BitVec.ofNat 128 (3 + 2 * 2 ^ 5)] } })], strings := [(primaryString 1 3, { state := 0 })] },
     by decide +kernel⟩,
   ⟨{ core := 0, dt := 1, bundle := 1 }, useSync 5 [(9, 6, 5), (15, 32, 7)], 5, 7,
     { State.reset with wins := [{ id := 1, phase := 2, desc := BitVec.ofNat 512 (16 * 2 ^ 64), parts := 1 }], cores := [(0, { state := 1, win := some 1, tick := 3, nextBundle := 1, kernel := { emptyKernel with bundles := [0, bundleOf (useSync 5 [(9, 6, 5), (15, 32, 7)])] }, flags := [(5, 7)] })] },
     by decide +kernel⟩,
   ⟨{ core := 0, dt := 1, bundle := 1 }, useSync 5 [(9, 6, 5), (15, 32, 7)], 5, 7,
     { State.reset with wins := [{ id := 1, phase := 2, desc := BitVec.ofNat 512 (16 * 2 ^ 64), parts := 1 }], cores := [(0, { state := 1, win := some 1, tick := 3, nextBundle := 1, kernel := { emptyKernel with bundles := [0, bundleOf (useSync 5 [(9, 6, 5), (15, 32, 7)])] }, flags := [(5, 6)] })] },
     by decide +kernel⟩,
   ⟨{ core := 0, dt := 1, bundle := 1 }, useSync 3 [(4, 8, 0), (12, 16, 9)], 0, 9,
     { State.reset with wins := [{ id := 1, phase := 2, desc := BitVec.ofNat 512 (16 * 2 ^ 64), parts := 1, barriers := [3] }], cores := [(0, { state := 1, win := some 1, tick := 3, nextBundle := 1, kernel := { emptyKernel with bundles := [0, bundleOf (useSync 3 [(4, 8, 0), (12, 16, 9)])] } })] },
     by decide +kernel⟩,
   ⟨0, 0, (0, 9), { State.reset with wins := [{ id := 1, phase := 2, parts := 3, barriers := [3] }], cores := [(0, { state := 1, win := some 1, tick := 9, checks := [(0, 9)], arrivals := [(0, 3)] })] },
     by decide +kernel⟩,
   ⟨0, 0, (0, 9), { State.reset with wins := [{ id := 1, phase := 2, parts := 3, barriers := [3] }], cores := [(0, { state := 1, win := some 1, tick := 9, checks := [(0, 9)], arrivals := [(0, 1)] })] },
     by decide +kernel⟩,
   ⟨{ core := 0, dt := 1, bundle := 1 }, useSync 6 [(4, 40, 9)], 9,
     { State.reset with wins := [{ id := 1, phase := 2, desc := BitVec.ofNat 512 (16 * 2 ^ 64), parts := 1 }], cores := [(0, { state := 1, win := some 1, tick := 3, nextBundle := 1, kernel := { emptyKernel with bundles := [0, bundleOf (useSync 6 [(4, 40, 9)])] } })], strings := [(primaryString 12 1, { state := 0 })] },
     by decide +kernel⟩,
   ⟨{ core := 0, dt := 1, bundle := 1 }, useSync 6 [(4, 40, 9)], 9,
     { State.reset with wins := [{ id := 1, phase := 2, desc := BitVec.ofNat 512 (16 * 2 ^ 64), parts := 1 }], cores := [(0, { state := 1, win := some 1, tick := 3, nextBundle := 1, kernel := { emptyKernel with bundles := [0, bundleOf (useSync 6 [(4, 40, 9)])] } })], beat := 9, strings := [(primaryString 12 1, { state := 0 })] },
     by decide +kernel⟩,
   ⟨0, 1, 40, { State.reset with beat := 50, strings := [(primaryString 12 1, { state := 0 })], cores := [(1, { waitBeat := some 40, waitFrom := 30 })] },
     by decide +kernel⟩,
   ⟨{ core := 0, dt := 1, bundle := 1 }, useSync 7 [(4, 12, 1), (16, 12, 3)], 1, 3,
     { State.reset with wins := [{ id := 1, phase := 2, desc := BitVec.ofNat 512 (16 * 2 ^ 64), parts := 1 }], cores := [(0, { state := 1, win := some 1, tick := 3, nextBundle := 1, kernel := { emptyKernel with bundles := [0, bundleOf (useSync 7 [(4, 12, 1), (16, 12, 3)])] } })] },
     by decide +kernel⟩,
   ⟨{ core := 0, dt := 1, bundle := 1 }, useSync 7 [(4, 12, 1), (16, 12, 3)], 1, 3, [], 4,
     { State.reset with wins := [{ id := 1, phase := 2, desc := BitVec.ofNat 512 (16 * 2 ^ 64), parts := 1 }], cores := [(0, { state := 1, win := some 1, tick := 3, nextBundle := 1, kernel := { emptyKernel with bundles := [0, bundleOf (useSync 7 [(4, 12, 1), (16, 12, 3)])] }, loops := [(1, 5)] })] },
     by decide +kernel⟩,
   ⟨{ core := 0, dt := 1, bundle := 1 }, useSync 7 [(4, 12, 1), (16, 12, 3)], 1, 3, [],
     { State.reset with wins := [{ id := 1, phase := 2, desc := BitVec.ofNat 512 (16 * 2 ^ 64), parts := 1 }], cores := [(0, { state := 1, win := some 1, tick := 3, nextBundle := 1, kernel := { emptyKernel with bundles := [0, bundleOf (useSync 7 [(4, 12, 1), (16, 12, 3)])] }, loops := [(1, 0)] })] },
     by decide +kernel⟩,
   ⟨{ core := 0, dt := 1, bundle := 1 }, useSync 7 [(4, 12, 1), (16, 12, 0)], 1, 0,
     { State.reset with wins := [{ id := 1, phase := 2, desc := BitVec.ofNat 512 (16 * 2 ^ 64), parts := 1 }], cores := [(0, { state := 1, win := some 1, tick := 3, nextBundle := 1, kernel := { emptyKernel with bundles := [0, bundleOf (useSync 7 [(4, 12, 1), (16, 12, 0)])] } })] },
     by decide +kernel⟩,
   ⟨{ core := 0, dt := 1, bundle := 1 }, { slot := 5, op := 1 },
     { State.reset with wins := [{ id := 1, phase := 2, desc := BitVec.ofNat 512 (16 * 2 ^ 64), parts := 1 }], cores := [(0, { state := 1, win := some 1, tick := 3, nextBundle := 1, kernel := { emptyKernel with bundles := [0, bundleOf { slot := 5, op := 1 }] } })] },
     by decide +kernel⟩,
   ⟨{ core := 0, dt := 1, bundle := 1 }, { slot := 5, op := 1 },
     { State.reset with wins := [{ id := 1, phase := 2, desc := BitVec.ofNat 512 (16 * 2 ^ 64), parts := 1 }], cores := [(0, { state := 1, win := some 1, tick := 3, nextBundle := 1, kernel := { emptyKernel with bundles := [0, bundleOf { slot := 5, op := 1 }] } })], beagle := { state := 1 } },
     by decide +kernel⟩,
   ⟨{ core := 0, dt := 1, bundle := 1 }, { slot := 5, op := 1 },
     { State.reset with wins := [{ id := 1, phase := 2, desc := BitVec.ofNat 512 (16 * 2 ^ 64), parts := 1 }], cores := [(0, { state := 1, win := some 1, tick := 3, nextBundle := 1, kernel := { emptyKernel with bundles := [0, bundleOf { slot := 5, op := 1 }] } })], beagle := { state := 1, queues := [(1, List.replicate 85 { beat := 0, kind := 1, site := 1, unit := 0, lost := false, seq := 0, payload := [] })] } },
     by decide +kernel⟩,
   ⟨{ core := 0, dt := 1, bundle := 1 }, { slot := 6, op := 1 },
     { State.reset with wins := [{ id := 1, phase := 2, desc := BitVec.ofNat 512 (5 * 2 ^ 64), parts := 1 }], cores := [(0, { state := 1, win := some 1, tick := 3, nextBundle := 1, kernel := { emptyKernel with bundles := [0, bundleOf { slot := 6, op := 1 }] } })] },
     by decide +kernel⟩,
   ⟨{ core := 0, dt := 1, bundle := 1 }, { slot := 6, op := 1 },
     { State.reset with wins := [{ id := 1, phase := 2, desc := BitVec.ofNat 512 (16 * 2 ^ 64), parts := 1 }], cores := [(0, { state := 1, win := some 1, tick := 3, nextBundle := 1, kernel := { emptyKernel with bundles := [0, bundleOf { slot := 6, op := 1 }] } })] },
     by decide +kernel⟩,
   ⟨{ core := 0, dt := 1, bundle := 1 }, { slot := 6, op := 1 },
     { State.reset with wins := [{ id := 1, phase := 2, desc := BitVec.ofNat 512 (16 * 2 ^ 64), parts := 1 }], cores := [(0, { state := 1, win := some 1, tick := 3, nextBundle := 1, kernel := { emptyKernel with bundles := [0, bundleOf { slot := 6, op := 1 } + 1] } })] },
     by decide +kernel⟩⟩

/-- The hypotheses of each clause of LockedWindows can be met. -/
theorem witness_LockedWindows :
    (∃ (item variant : Nat) (it : WorkItem) (v : BitVec 64) (im : Image) (w : WindowImg) (s : State), (itemOf s item = some
      it) ∧ (it.variants[variant]? = some v) ∧ (imageOf s it.slot = some im) ∧ (imgWindow im (fieldAt v 0 32) = some w) ∧
      (it.kind < 4) ∧ (it.pending = 0) ∧ (it.status = 1) ∧ (it.taken = some v) ∧ (it.kind ≠ 2 ∨ treesBuilt s it.set_ = true)
      ∧ (s.wins.any (fun x => x.item == item) = false) ∧ (windowReady s it.slot item w = true)) ∧
    (∃ (win : Nat) (w : Win) (s : State), (s.win win = some w) ∧ (w.phase = 0) ∧ (w.launch ≤ s.beat + 100)) ∧
    (∃ (win : Nat) (w : Win) (s : State), (s.win win = some w) ∧ (w.phase < 2) ∧ (beatReached s w = true) ∧ (stillOpen s w =
      true) ∧ (∀ n ∈ bitList 64 w.parts.toNat, dieUp s (coreDie n) = true)) ∧
    (∃ (win : Nat) (w : Win) (s : State), (s.win win = some w) ∧ (w.phase < 2) ∧ (beatReached s w = true) ∧ (stillOpen s w =
      false)) ∧
    (∃ (core : CoreId) (w : Win) (u : State) (s : State), ((s.core core.val).state = 2) ∧ ((s.core core.val).win.bind s.win =
      some w) ∧ (u = (if w.code = 0 then s else discardPartials w.id s)) ∧ (drained u core.val = true) ∧ (w.drained |||
      BitVec.ofNat 64 (2 ^ core.val) ≠ w.parts)) ∧
    (∃ (core : CoreId) (w : Win) (u : State) (s : State), ((s.core core.val).state = 2) ∧ ((s.core core.val).win.bind s.win =
      some w) ∧ (u = (if w.code = 0 then s else discardPartials w.id s)) ∧ (drained u core.val = false)) ∧
    (∃ (core : CoreId) (w : Win) (u : State) (s : State), ((s.core core.val).state = 2) ∧ ((s.core core.val).win.bind s.win =
      some w) ∧ (u = (if w.code = 0 then s else discardPartials w.id s)) ∧ (drained u core.val = true) ∧ (w.drained |||
      BitVec.ofNat 64 (2 ^ core.val) = w.parts) ∧ (w.code = 0)) ∧
    (∃ (core : CoreId) (w : Win) (u : State) (s : State), ((s.core core.val).state = 2) ∧ ((s.core core.val).win.bind s.win =
      some w) ∧ (u = (if w.code = 0 then s else discardPartials w.id s)) ∧ (drained u core.val = true) ∧ (w.drained |||
      BitVec.ofNat 64 (2 ^ core.val) = w.parts) ∧ (w.code ≠ 0) ∧ (¬(w.code = exitHAZARD ∨ w.code = exitFORMAT ∨ w.code =
      exitBOUNDS))) ∧
    (∃ (core : CoreId) (w : Win) (u : State) (s : State), ((s.core core.val).state = 2) ∧ ((s.core core.val).win.bind s.win =
      some w) ∧ (u = (if w.code = 0 then s else discardPartials w.id s)) ∧ (drained u core.val = true) ∧ (w.drained |||
      BitVec.ofNat 64 (2 ^ core.val) = w.parts) ∧ ((w.code = exitHAZARD ∨ w.code = exitFORMAT ∨ w.code = exitBOUNDS))) ∧
    (∃ (core : CoreId) (w : Win) (s : State), ((s.core core.val).win.bind s.win = some w) ∧ (w.code ≠ 0) ∧ ((s.core
      core.val).state = 1)) ∧
    (∃ (core : CoreId) (w : Win) (s : State), ((s.core core.val).win.bind s.win = some w) ∧ ((s.core core.val).state = 1) ∧
      (declaredTicks s core.val ≤ (s.core core.val).tick + 1 ∨ declaredTicks s core.val ≤ beatTick s core.val)) ∧
    (∃ (win : Nat) (w : Win) (s : State), (s.win win = some w) ∧ (w.phase = 2) ∧ (w.launch + w.watchdog < s.beat) ∧ (∀ n ∈
      bitList 64 w.parts.toNat, (s.core n).state = 1 → (s.core n).win = some win)) ∧
    (∃ (item : Nat) (it : WorkItem) (s : State), (itemOf s item = some it) ∧ (it.status = 2) ∧ (it.tests = 0) ∧ (it.reruns <
      s.obj Obj.lwRerunLimit)) ∧
    (∃ (item : Nat) (it : WorkItem) (s : State), (itemOf s item = some it) ∧ (it.status = 2) ∧ (it.tests = 0) ∧ (s.obj
      Obj.lwRerunLimit ≤ it.reruns) ∧ (it.tested = false)) ∧
    (∃ (item : Nat) (it : WorkItem) (s : State), (itemOf s item = some it) ∧ (it.status = 2) ∧ (it.tests = 0) ∧ (s.obj
      Obj.lwRerunLimit ≤ it.reruns) ∧ (it.tested = true)) :=
  ⟨⟨4, 0, { id := 4, kind := 1, variants := [7], status := 1, taken := some 7 }, 7,
    { bareImage with windows := [bareWindow (BitVec.ofNat 512 (7 + 16 * 2 ^ 64 + 3 * 2 ^ 96))] }, bareWindow (BitVec.ofNat
    512 (7 + 16 * 2 ^ 64 + 3 * 2 ^ 96)),
    { State.reset with sched := { items := [{ id := 4, kind := 1, variants := [7], status := 1, taken := some 7 }] }, images := { slots := [(0, { state := 2, image := some { bareImage with windows := [bareWindow (BitVec.ofNat 512 (7 + 16 * 2 ^ 64 + 3 * 2 ^ 96))] } })] } },
    by decide +kernel⟩,
   ⟨2, { id := 2, launch := 100 }, { State.reset with wins := [{ id := 2, launch := 100 }] }, by decide +kernel⟩,
   ⟨2, { id := 2, launch := 100, parts := 3 },
     { State.reset with beat := 100, wins := [{ id := 2, launch := 100, parts := 3 }], strings := [(primaryString 12 1, { state := 0 })] },
     by decide +kernel⟩,
   ⟨2, { id := 2, launch := 100, parts := 3 },
     { State.reset with beat := 100, wins := [{ id := 2, launch := 100, parts := 3 }], dies := [(0, { want := some 900 })], strings := [(primaryString 12 1, { state := 0 })] },
     by decide +kernel⟩,
   ⟨1, { id := 2, phase := 2, parts := 3 },
     { State.reset with wins := [{ id := 2, phase := 2, parts := 3 }], cores := [(1, { state := 2, win := some 2 })] },
     { State.reset with wins := [{ id := 2, phase := 2, parts := 3 }], cores := [(1, { state := 2, win := some 2 })] },
     by decide +kernel⟩,
   ⟨1, { id := 2, phase := 2, parts := 3 },
     { State.reset with wins := [{ id := 2, phase := 2, parts := 3 }], cores := [(1, { state := 2, win := some 2, sends := [{ id := 0, left := 1 }] })] },
     { State.reset with wins := [{ id := 2, phase := 2, parts := 3 }], cores := [(1, { state := 2, win := some 2, sends := [{ id := 0, left := 1 }] })] },
     by decide +kernel⟩,
   ⟨1, { id := 2, phase := 2, parts := 3, drained := 1, item := 4, code := 0 },
     { State.reset with wins := [{ id := 2, phase := 2, parts := 3, drained := 1, item := 4, code := 0 }], cores := [(1, { state := 2, win := some 2 })], sched := { items := [{ id := 4, status := 1 }] } },
     { State.reset with wins := [{ id := 2, phase := 2, parts := 3, drained := 1, item := 4, code := 0 }], cores := [(1, { state := 2, win := some 2 })], sched := { items := [{ id := 4, status := 1 }] } },
     by decide +kernel⟩,
   ⟨1, { id := 2, phase := 2, parts := 3, drained := 1, item := 4, code := 1 },
     { State.reset with wins := [{ id := 2, phase := 2, parts := 3, drained := 1, item := 4, code := 1 }], cores := [(1, { state := 2, win := some 2 })], sched := { items := [{ id := 4, status := 1 }] } },
     { State.reset with wins := [{ id := 2, phase := 2, parts := 3, drained := 1, item := 4, code := 1 }], cores := [(1, { state := 2, win := some 2 })], sched := { items := [{ id := 4, status := 1 }] } },
     by decide +kernel⟩,
   ⟨1, { id := 2, phase := 2, parts := 3, drained := 1, item := 4, code := 2 },
     { State.reset with wins := [{ id := 2, phase := 2, parts := 3, drained := 1, item := 4, code := 2 }], cores := [(1, { state := 2, win := some 2 })], sched := { items := [{ id := 4, status := 1 }] } },
     { State.reset with wins := [{ id := 2, phase := 2, parts := 3, drained := 1, item := 4, code := 2 }], cores := [(1, { state := 2, win := some 2 })], sched := { items := [{ id := 4, status := 1 }] } },
     by decide +kernel⟩,
   ⟨1, { id := 2, phase := 2, parts := 3, code := 2 },
     { State.reset with wins := [{ id := 2, phase := 2, parts := 3, code := 2 }], cores := [(1, { state := 1, win := some 2 })] },
     by decide +kernel⟩,
   ⟨1, { id := 2, phase := 2, parts := 3 },
     { State.reset with wins := [{ id := 2, phase := 2, parts := 3 }], cores := [(1, { state := 1, win := some 2 })] },
     by decide +kernel⟩,
   ⟨2, { id := 2, phase := 2, parts := 3, watchdog := 9 },
     { State.reset with beat := 10, wins := [{ id := 2, phase := 2, parts := 3, watchdog := 9 }], cores := [(1, { state := 1, win := some 2 })] },
     by decide +kernel⟩,
   ⟨4, { id := 4, status := 2 }, { State.reset with sched := { items := [{ id := 4, status := 2 }] } }, by decide +kernel⟩,
   ⟨4, { id := 4, status := 2, reruns := 3, taken := some 7 },
     { State.reset with sched := { items := [{ id := 4, status := 2, reruns := 3, taken := some 7 }] }, images := { slots := [(0, { state := 2, image := some { bareImage with windows := [bareWindow (BitVec.ofNat 512 (7 + 16 * 2 ^ 64 + 3 * 2 ^ 96))] } })] } },
     by decide +kernel⟩,
   ⟨4, { id := 4, status := 2, reruns := 3, tested := true },
     { State.reset with sched := { items := [{ id := 4, status := 2, reruns := 3, tested := true }] } }, by decide +kernel⟩⟩

/-- The hypotheses of each clause of GovernorAndSheepdog can be met. -/
theorem witness_GovernorAndSheepdog :
    (∃ (die : DieId) (ends : Nat) (s : State), ((s.die die.val).intervalAt + 1000 ≤ ends) ∧ (ends ≤ s.beat)) ∧
    (∃ (die : DieId) (ends : Nat) (s : State), (ends < (s.die die.val).intervalAt + 1000 ∨ s.beat < ends)) ∧
    (∃ (l want : Nat) (hist : List Nat), ∀ x ∈ hist, want ≤ x + l ∧ x ≤ want + l) ∧
    (∃ (l want lo : Nat) (hist : List Nat), lo ∈ hist ∧ (∀ x ∈ hist, lo ≤ x ∧ x ≤ lo + l) ∧ lo + l < want) ∧
    (∃ (l want hi : Nat) (hist : List Nat), hi ∈ hist ∧ (∀ x ∈ hist, x ≤ hi ∧ want ≤ x + l) ∧ want + l < hi) ∧
    (∃ (slot : SlotId) (im : Image) (streams : List Ctx) (s : State), (s.sched.sets.any (fun (p : Nat × StepSet) => p.2.slot
      == slot.val) = false) ∧ (∀ c ∈ s.serve.ctxs, c.slot = slot.val → c.ending = none) ∧ (imageOf s slot.val = some im) ∧
      ((s.imgSlot slot.val).state = 2 ∨ (s.imgSlot slot.val).state = 3) ∧ (streams = (s.serve.ctxs.filter (fun c => c.slot ==
      slot.val && c.phase == 2 && c.ending.isNone && !sessionFull s c.session))) ∧ (streams ≠ []) ∧ (s.dev.state = 5 ∨
      s.dev.state = 6 ∨ s.dev.state = 7) ∧ (dataReady s slot.val = true)) ∧
    (∃ (item taker : Nat) (it : WorkItem) (v : BitVec 64) (s : State), (firstTake s (ownQueue taker) taker = some (it, v)) ∧
      (it.id = item)) ∧
    (∃ (item taker victim : Nat) (it : WorkItem) (v : BitVec 64) (s : State), (mayProbe s taker = true) ∧ ((attemptOrder s
      taker).find? (fun q => (firstTake s q taker).isSome) = some victim) ∧ (firstTake s victim taker = some (it, v)) ∧
      (it.id = item) ∧ (victim ≠ ownQueue taker)) ∧
    (∃ (thief victim : Nat) (it : WorkItem) (v : BitVec 64) (s : State), (mayProbe s thief = true) ∧ ((attemptOrder s
      thief).find? (fun q => (firstTake s q thief).isSome) = some victim) ∧ (firstTake s victim thief = some (it, v)) ∧
      (victim ≠ ownQueue thief)) ∧
    (∃ (thief : Nat) (s : State), (mayProbe s thief = true) ∧ (∀ q ∈ attemptOrder s thief, firstTake s q thief = none)) ∧
    (∃ (thief b : Nat) (s : State), ((tget {} thief s.sched.thieves).backoff = some b) ∧ (b ≤ s.beat)) ∧
    (∃ (item : Nat) (it y : WorkItem) (s : State), (itemOf s item = some it) ∧ (it.status = 3 ∨ (it.kind = 4 ∧ it.status =
      1)) ∧ (it.ctx = none) ∧ (y ∈ s.sched.items) ∧ (y.id ≠ item) ∧ (y.kind ≠ 0) ∧ (y.set_ = it.set_) ∧ (y.ctx = none)) ∧
    (∃ (item c : Nat) (it : WorkItem) (s : State), (itemOf s item = some it) ∧ (it.status = 3 ∨ (it.kind = 4 ∧ it.status =
      1)) ∧ (it.ctx = some c) ∧ (∀ x ∈ s.ctx c, x.ending = none)) ∧
    (∃ (item : Nat) (it : WorkItem) (x : StepSet) (s : State), (itemOf s item = some it) ∧ (it.status = 3 ∨ (it.kind = 4 ∧
      it.status = 1)) ∧ (it.ctx = none) ∧ (∀ y ∈ s.sched.items, y.id ≠ item → y.kind = 0 ∨ y.set_ ≠ it.set_ ∨ y.ctx ≠ none) ∧
      (tfind it.set_ s.sched.sets = some x) ∧ (∀ p ∈ x.streams, x.over_.contains p.1 = true)) :=
  ⟨⟨0, 1000, { State.reset with beat := 1000 }, by decide +kernel⟩,
   ⟨0, 1000, State.reset, by decide +kernel⟩,
   ⟨10, 110, [100, 110], by decide⟩,
   ⟨10, 111, 100, [110, 100], by decide⟩,
   ⟨10, 3, 100, [100, 99], by decide⟩,
   ⟨0, { bareImage with items := [BitVec.ofNat 256 (1 + 2 ^ 32)] },
     [{ id := 6, session := 1, tenant := 0, req := 0, slot := 0, maxTok := 4, temp := 0, topK := 1, topP := 0, minP := 0, penalty := 0, seed := 0, deadline := 9, stops := [], prompt := [1], arrival := 0, phase := 2 }],
     { State.reset with dev := { state := 5 }, serve := { ctxs := [{ id := 6, session := 1, tenant := 0, req := 0, slot := 0, maxTok := 4, temp := 0, topK := 1, topP := 0, minP := 0, penalty := 0, seed := 0, deadline := 9, stops := [], prompt := [1], arrival := 0, phase := 2 }], sessions := [{ num := 1, tenant := 0, port := 0, key := [] }] }, images := { slots := [(0, { state := 2, image := some { bareImage with items := [BitVec.ofNat 256 (1 + 2 ^ 32)] } })] } },
     by decide +kernel⟩,
   ⟨4, 0, { id := 4, kind := 1, variants := [7] }, 7,
     { State.reset with sched := { items := [{ id := 4, kind := 1, variants := [7] }] }, images := { slots := [(0, { state := 2, image := some { bareImage with windows := [bareWindow (BitVec.ofNat 512 (7 + 16 * 2 ^ 64 + 3 * 2 ^ 96))] } })] } },
     by decide +kernel⟩,
   ⟨4, 1, 2, { id := 4, kind := 1, variants := [8, 7] }, 7,
     { State.reset with sched := { items := [{ id := 4, kind := 1, variants := [8, 7] }] }, images := { slots := [(0, { state := 2, image := some { bareImage with windows := [bareWindow (BitVec.ofNat 512 (7 + 3 * 2 ^ 96)), bareWindow (BitVec.ofNat 512 (8 + 4 * 2 ^ 96))] } })] } },
     by decide +kernel⟩,
   ⟨1, 2, { id := 4, kind := 1, variants := [8, 7] }, 7,
     { State.reset with sched := { items := [{ id := 4, kind := 1, variants := [8, 7] }] }, images := { slots := [(0, { state := 2, image := some { bareImage with windows := [bareWindow (BitVec.ofNat 512 (7 + 3 * 2 ^ 96)), bareWindow (BitVec.ofNat 512 (8 + 4 * 2 ^ 96))] } })] } },
     by decide +kernel⟩,
   ⟨1, State.reset, by decide +kernel⟩,
   ⟨1, 5, { State.reset with beat := 5, sched := { thieves := [(1, { backoff := some 5 })] } }, by decide +kernel⟩,
   ⟨4, { id := 4, kind := 1, status := 3, succ := [5] }, { id := 5, kind := 1, pending := 1 },
     { State.reset with sched := { items := [{ id := 4, kind := 1, status := 3, succ := [5] }, { id := 5, kind := 1, pending := 1 }] } },
     by decide +kernel⟩,
   ⟨4, 9, { id := 4, kind := 0, status := 3, ctx := some 9 },
     { State.reset with sched := { items := [{ id := 4, kind := 0, status := 3, ctx := some 9 }] } }, by decide +kernel⟩,
   ⟨4, { id := 4, kind := 1, status := 3, succ := [5] }, { slot := 0, streams := [] },
     { State.reset with sched := { items := [{ id := 4, kind := 1, status := 3, succ := [5] }], sets := [(0, { slot := 0, streams := [] })] } },
     by decide +kernel⟩⟩

/-- The hypotheses of each clause of WhippetRoutines can be met. -/
theorem witness_WhippetRoutines :
    (∃ (whip : WhipId) (ctx : Nat) (c : Ctx) (im : Image) (d : Bytes) (logits : List (Nat × W32)) (f : Flags) (s : State),
      (s.ctx ctx = some c) ∧ (imageOf s c.slot = some im) ∧ (imgRoutine im 0x02 = some d) ∧ (whipRuns s whip.val = true) ∧
      (inStep s ctx = true) ∧ (c.step = []) ∧ (c.tree = []) ∧ (stepVerified s ctx false = true) ∧ (isZeroF c.temp = true) ∧
      (runFlags (nodeLogits s d c (firstRow s ctx) 0) = (logits, f))) ∧
    (∃ (whip : WhipId) (ctx : Nat) (c : Ctx) (im : Image) (d : Bytes) (toks : List W32) (fall : Nat) (f : Flags) (s : State),
      (s.ctx ctx = some c) ∧ (imageOf s c.slot = some im) ∧ (imgRoutine im 0x02 = some d) ∧ (whipRuns s whip.val = true) ∧
      (inStep s ctx = true) ∧ (c.step = []) ∧ (c.tree = []) ∧ (stepVerified s ctx false = true) ∧ (runFlags (acceptFrom s im
      d c (firstRow s ctx) 8 0) = ((toks, fall), f))) ∧
    (∃ (whip : WhipId) (ctx : Nat) (c : Ctx) (im : Image) (d : Bytes) (toks : List W32) (fall : Nat) (f : Flags) (s : State),
      (s.ctx ctx = some c) ∧ (imageOf s c.slot = some im) ∧ (imgRoutine im 0x02 = some d) ∧ (whipRuns s whip.val = true) ∧
      (inStep s ctx = true) ∧ (c.step = []) ∧ (c.tree ≠ []) ∧ (stepVerified s ctx true = true) ∧ (runFlags (acceptFrom s im d
      c (firstRow s ctx) 8 0) = ((toks, fall), f))) ∧
    (∃ (whip : WhipId) (ctx : Nat) (c : Ctx) (im : Image) (d sd : Bytes) (key : Nat) (s : State), (s.ctx ctx = some c) ∧
      (imageOf s c.slot = some im) ∧ (imgRoutine im 0x03 = some d) ∧ (imgRoutine im 0x02 = some sd) ∧ ((imgRoutine im
      0x04).isSome = true) ∧ (whipRuns s whip.val = true) ∧ (inStep s ctx = true) ∧ (grantedNodes s ctx ≠ 0) ∧ (c.step = [])
      ∧ (c.drafted = 0) ∧ (c.tree = []) ∧ (key = sharedKey c.owner (leAt sd 40 4 + leAt sd 28 4 * firstRow s ctx))) ∧
    (∃ (whip : WhipId) (ctx level : Nat) (c : Ctx) (im : Image) (d sd : Bytes) (s : State), (s.ctx ctx = some c) ∧ (imageOf s
      c.slot = some im) ∧ (imgRoutine im 0x03 = some d) ∧ (imgRoutine im 0x02 = some sd) ∧ ((imgRoutine im 0x04).isSome =
      true) ∧ (whipRuns s whip.val = true) ∧ (inStep s ctx = true) ∧ (grantedNodes s ctx ≠ 0) ∧ (c.step = []) ∧ (level =
      c.drafted) ∧ (c.tree ≠ [])) ∧
    (∃ (whip : WhipId) (ctx : Nat) (c : Ctx) (im : Image) (d sd : Bytes) (tree : List TreeNode) (f : Flags) (s : State),
      (s.ctx ctx = some c) ∧ (imageOf s c.slot = some im) ∧ (imgRoutine im 0x04 = some d) ∧ (imgRoutine im 0x02 = some sd) ∧
      (whipRuns s whip.val = true) ∧ (inStep s ctx = true) ∧ (grantedNodes s ctx ≠ 0) ∧ (c.drafted ≠ 0) ∧ (c.step = []) ∧
      (runFlags ((List.range (grantedNodes s ctx)).foldlM (fun x i => growNode s im sd c (firstRow s ctx) (d.drop 20) (i + 1)
      x) [treeRoot c]) = (tree, f))) ∧
    (∃ (whip : WhipId) (ctx : Nat) (c : Ctx) (im : Image) (d : Bytes) (r : Detok) (s : State), (s.ctx ctx = some c) ∧
      (imageOf s c.slot = some im) ∧ (imgRoutine im 0x05 = some d) ∧ (whipRuns s whip.val = true) ∧ (inStep s ctx = true) ∧
      (c.step ≠ []) ∧ (c.ending = none) ∧ (r = c.step.foldl (detokStep (tokenBytes s im (whipDie whip.val) c.slot d) c.stops
      ((imgRoutine im 0x02).map (fun x => leAt x 36 4)) c.maxTok c.output.length) { text := c.text, out := [], count := [] })
      ∧ (r.ended = none) ∧ (∀ p ∈ s.sched.sets, p.2.streams.any (fun x => x.1 == ctx) = true → ∃ it ∈ s.sched.items, it.kind
      ≠ 0 ∧ it.set_ = p.1 ∧ it.ctx = none)) ∧
    (∃ (whip : WhipId) (ctx : Nat) (c : Ctx) (im : Image) (d : Bytes) (r : Detok) (reason : Nat) (stop : Bool) (s : State),
      (s.ctx ctx = some c) ∧ (imageOf s c.slot = some im) ∧ (imgRoutine im 0x05 = some d) ∧ (whipRuns s whip.val = true) ∧
      (inStep s ctx = true) ∧ (c.step ≠ []) ∧ (c.ending = none) ∧ (r = c.step.foldl (detokStep (tokenBytes s im (whipDie
      whip.val) c.slot d) c.stops ((imgRoutine im 0x02).map (fun x => leAt x 36 4)) c.maxTok c.output.length)
      { text := c.text, out := [], count := [] }) ∧ (r.ended = some (reason, stop)) ∧ (∀ p ∈ s.sched.sets, p.2.streams.any
      (fun x => x.1 == ctx) = true → ∃ it ∈ s.sched.items, it.kind ≠ 0 ∧ it.set_ = p.1 ∧ it.ctx = none)) ∧
    (∃ (whip : WhipId) (ctx : Nat) (c : Ctx) (e : Nat × Nat) (s : State), (s.ctx ctx = some c) ∧ (whipRuns s whip.val = true)
      ∧ (inStep s ctx = true) ∧ (c.ending = some e) ∧ (∀ p ∈ s.sched.sets, p.2.streams.any (fun x => x.1 == ctx) = true → ∃
      it ∈ s.sched.items, it.kind ≠ 0 ∧ it.set_ = p.1 ∧ it.ctx = none)) ∧
    (∃ (whip : WhipId) (s : State), (whipIdle s whip.val = true)) :=
  ⟨⟨2, 6, { id := 6, session := 1, tenant := 0, req := 0, slot := 0, maxTok := 4, temp := 0, topK := 1, topP := 0, minP := 0, penalty := 0, seed := 0, deadline := 9, stops := [], prompt := [1], arrival := 0, phase := 2 },
    { bareImage with routines := [([2] ++ List.replicate 19 0 ++ [2, 0, 0, 0])] }, ([2] ++ List.replicate 19 0 ++ [2, 0, 0,
    0]), [(0, 0), (1, 0)], 0, { State.reset with serve := { ctxs := [{ id := 6, session := 1, tenant := 0, req := 0, slot := 0, maxTok := 4, temp := 0, topK := 1, topP := 0, minP := 0, penalty := 0, seed := 0, deadline := 9, stops := [], prompt := [1], arrival := 0, phase := 2 }] }, sched := { sets := [(3, { streams := [(6, 1)] })] }, images := { slots := [(0, { state := 2, image := some { bareImage with routines := [([2] ++ List.replicate 19 0 ++ [2, 0, 0, 0])] } })] } },
    by decide +kernel⟩,
   ⟨2, 6, { id := 6, session := 1, tenant := 0, req := 0, slot := 0, maxTok := 4, temp := 0, topK := 1, topP := 0, minP := 0, penalty := 0, seed := 0, deadline := 9, stops := [], prompt := [1], arrival := 0, phase := 2 },
     { bareImage with routines := [([2] ++ List.replicate 19 0 ++ [2, 0, 0, 0])] }, ([2] ++ List.replicate 19 0 ++ [2, 0, 0,
     0]), [0], 0, 0, { State.reset with serve := { ctxs := [{ id := 6, session := 1, tenant := 0, req := 0, slot := 0, maxTok := 4, temp := 0, topK := 1, topP := 0, minP := 0, penalty := 0, seed := 0, deadline := 9, stops := [], prompt := [1], arrival := 0, phase := 2 }] }, sched := { sets := [(3, { streams := [(6, 1)] })] }, images := { slots := [(0, { state := 2, image := some { bareImage with routines := [([2] ++ List.replicate 19 0 ++ [2, 0, 0, 0])] } })] } },
     by decide +kernel⟩,
   ⟨2, 6, { id := 6, session := 1, tenant := 0, req := 0, slot := 0, maxTok := 4, temp := 0, topK := 1, topP := 0, minP := 0, penalty := 0, seed := 0, deadline := 9, stops := [], prompt := [1], arrival := 0, phase := 2, tree := [{ token := 1, depth := 0, parent := 0xFF, shape := 0 }] },
     { bareImage with routines := [([2] ++ List.replicate 19 0 ++ [2, 0, 0, 0])] }, ([2] ++ List.replicate 19 0 ++ [2, 0, 0,
     0]), [0], 0, 0, { State.reset with serve := { ctxs := [{ id := 6, session := 1, tenant := 0, req := 0, slot := 0, maxTok := 4, temp := 0, topK := 1, topP := 0, minP := 0, penalty := 0, seed := 0, deadline := 9, stops := [], prompt := [1], arrival := 0, phase := 2, tree := [{ token := 1, depth := 0, parent := 0xFF, shape := 0 }] }] }, sched := { sets := [(3, { streams := [(6, 1)] })] }, images := { slots := [(0, { state := 2, image := some { bareImage with routines := [([2] ++ List.replicate 19 0 ++ [2, 0, 0, 0])] } })] } },
     by decide +kernel⟩,
   ⟨2, 6, { id := 6, session := 1, tenant := 0, req := 0, slot := 0, maxTok := 4, temp := 0, topK := 1, topP := 0, minP := 0, penalty := 0, seed := 0, deadline := 9, stops := [], prompt := [1], arrival := 0, phase := 2 },
     { bareImage with routines := [([2] ++ List.replicate 19 0 ++ [2, 0, 0, 0]), [3], [4]] }, [3], ([2] ++ List.replicate 19
     0 ++ [2, 0, 0, 0]), sharedKey 0 0, { State.reset with serve := { ctxs := [{ id := 6, session := 1, tenant := 0, req := 0, slot := 0, maxTok := 4, temp := 0, topK := 1, topP := 0, minP := 0, penalty := 0, seed := 0, deadline := 9, stops := [], prompt := [1], arrival := 0, phase := 2 }] }, sched := { sets := [(3, { streams := [(6, 1)] })] }, images := { slots := [(0, { state := 2, image := some { bareImage with routines := [([2] ++ List.replicate 19 0 ++ [2, 0, 0, 0]), [3], [4]] } })] } },
     by decide +kernel⟩,
   ⟨2, 6, 0, { id := 6, session := 1, tenant := 0, req := 0, slot := 0, maxTok := 4, temp := 0, topK := 1, topP := 0, minP := 0, penalty := 0, seed := 0, deadline := 9, stops := [], prompt := [1], arrival := 0, phase := 2, tree := [{ token := 1, depth := 0, parent := 0xFF, shape := 0 }] },
     { bareImage with routines := [([2] ++ List.replicate 19 0 ++ [2, 0, 0, 0]), [3], [4]] }, [3], ([2] ++ List.replicate 19
     0 ++ [2, 0, 0, 0]), { State.reset with serve := { ctxs := [{ id := 6, session := 1, tenant := 0, req := 0, slot := 0, maxTok := 4, temp := 0, topK := 1, topP := 0, minP := 0, penalty := 0, seed := 0, deadline := 9, stops := [], prompt := [1], arrival := 0, phase := 2, tree := [{ token := 1, depth := 0, parent := 0xFF, shape := 0 }] }] }, sched := { sets := [(3, { streams := [(6, 1)] })] }, images := { slots := [(0, { state := 2, image := some { bareImage with routines := [([2] ++ List.replicate 19 0 ++ [2, 0, 0, 0]), [3], [4]] } })] } },
     by decide +kernel⟩,
   ⟨2, 6, { id := 6, session := 1, tenant := 0, req := 0, slot := 0, maxTok := 4, temp := 0, topK := 1, topP := 0, minP := 0, penalty := 0, seed := 0, deadline := 9, stops := [], prompt := [1], arrival := 0, phase := 2, drafted := 1 },
     { bareImage with routines := [([2] ++ List.replicate 19 0 ++ [2, 0, 0, 0]), [4]] }, [4], ([2] ++ List.replicate 19 0 ++
     [2, 0, 0, 0]), [treeRoot { id := 6, session := 1, tenant := 0, req := 0, slot := 0, maxTok := 4, temp := 0, topK := 1, topP := 0, minP := 0, penalty := 0, seed := 0, deadline := 9, stops := [], prompt := [1], arrival := 0, phase := 2 },
     { token := 0, depth := 1, parent := 0, shape := 1 }], 0,
     { State.reset with serve := { ctxs := [{ id := 6, session := 1, tenant := 0, req := 0, slot := 0, maxTok := 4, temp := 0, topK := 1, topP := 0, minP := 0, penalty := 0, seed := 0, deadline := 9, stops := [], prompt := [1], arrival := 0, phase := 2, drafted := 1 }] }, sched := { sets := [(3, { streams := [(6, 1)] })] }, images := { slots := [(0, { state := 2, image := some { bareImage with routines := [([2] ++ List.replicate 19 0 ++ [2, 0, 0, 0]), [4]] } })] } },
     by decide +kernel⟩,
   ⟨2, 6, { id := 6, session := 1, tenant := 0, req := 0, slot := 0, maxTok := 4, temp := 0, topK := 1, topP := 0, minP := 0, penalty := 0, seed := 0, deadline := 9, stops := [], prompt := [1], arrival := 0, phase := 2, step := [7] },
     { bareImage with routines := [[5]] }, [5], { text := [], out := [], count := [7] },
     { State.reset with serve := { ctxs := [{ id := 6, session := 1, tenant := 0, req := 0, slot := 0, maxTok := 4, temp := 0, topK := 1, topP := 0, minP := 0, penalty := 0, seed := 0, deadline := 9, stops := [], prompt := [1], arrival := 0, phase := 2, step := [7] }] }, sched := { sets := [(3, { streams := [(6, 0)] })], items := [{ id := 4, kind := 1, set_ := 3 }] }, images := { slots := [(0, { state := 2, image := some { bareImage with routines := [[5]] } })] } },
     by decide +kernel⟩,
   ⟨2, 6, { id := 6, session := 1, tenant := 0, req := 0, slot := 0, maxTok := 4, temp := 0, topK := 1, topP := 0, minP := 0, penalty := 0, seed := 0, deadline := 9, stops := [], prompt := [1], arrival := 0, phase := 2, step := [7, 7, 7, 7] },
     { bareImage with routines := [[5]] }, [5], { text := [], out := [], count := [7, 7, 7, 7], ended := some (2, false) },
     2, false, { State.reset with serve := { ctxs := [{ id := 6, session := 1, tenant := 0, req := 0, slot := 0, maxTok := 4, temp := 0, topK := 1, topP := 0, minP := 0, penalty := 0, seed := 0, deadline := 9, stops := [], prompt := [1], arrival := 0, phase := 2, step := [7, 7, 7, 7] }] }, sched := { sets := [(3, { streams := [(6, 0)] })], items := [{ id := 4, kind := 1, set_ := 3 }] }, images := { slots := [(0, { state := 2, image := some { bareImage with routines := [[5]] } })] } },
     by decide +kernel⟩,
   ⟨2, 6, { id := 6, session := 1, tenant := 0, req := 0, slot := 0, maxTok := 4, temp := 0, topK := 1, topP := 0, minP := 0, penalty := 0, seed := 0, deadline := 9, stops := [], prompt := [1], arrival := 0, phase := 2, ending := some (3, 0) },
     (3, 0), { State.reset with serve := { ctxs := [{ id := 6, session := 1, tenant := 0, req := 0, slot := 0, maxTok := 4, temp := 0, topK := 1, topP := 0, minP := 0, penalty := 0, seed := 0, deadline := 9, stops := [], prompt := [1], arrival := 0, phase := 2, ending := some (3, 0) }] }, sched := { sets := [(3, { streams := [(6, 0)] })], items := [{ id := 4, kind := 1, set_ := 3 }] }, images := { slots := [(0, { state := 2, image := some { bareImage with routines := [[5]] } })] } },
     by decide +kernel⟩,
   ⟨2, State.reset, by decide +kernel⟩⟩

/-- The hypotheses of each clause of DramStacks can be met. -/
theorem witness_DramStacks :
    (∃ (k : StackId) (done : List Nat) (u : State) (s : State), (tget 0 k.val s.dram.stackSt = 3) ∧ (quickTrains s k.val =
      false) ∧ (done = (s.dram.repair.filter (fun r => r / 2 ^ 30 == k.val)).take (tget 0 k.val s.dram.spareRows)) ∧ (u =
      (s.setObj Obj.dramTrainMode 1).count Obj.dramRowsRepaired done.length)) ∧
    (∃ (k : StackId) (done : List Nat) (u : State) (s : State), (tget 0 k.val s.dram.stackSt = 3) ∧ (quickTrains s k.val =
      true) ∧ (done = (s.dram.repair.filter (fun r => r / 2 ^ 30 == k.val)).take (tget 0 k.val s.dram.spareRows)) ∧ (u =
      s.count Obj.dramRowsRepaired done.length)) ∧
    (∃ (k : StackId) (channels : W16) (s : State), (tget 0 k.val s.dram.stackSt = 3) ∧ (quickTrains s k.val = true) ∧
      (channels ≠ 0xFFFF)) ∧
    (∃ (k : StackId) (channels : W16) (s : State), (tget 0 k.val s.dram.stackSt = 3) ∧ (quickTrains s k.val = false) ∧
      (channels ≠ 0xFFFF)) ∧
    (∃ (k : StackId) (channels : W16) (full : Bool) (s : State), (tget 0 k.val s.dram.stackSt ≠ 3 ∨ full = quickTrains s
      k.val)) ∧
    (∃ (k : StackId) (channel : Fin 16) (s : State), (tget 0 k.val s.dram.stackSt ≤ 1) ∧ (tget 0 (16 * k.val + channel.val)
      s.dram.recentred + 1000000000 ≤ s.beat)) ∧
    (∃ (k : StackId) (channel : Fin 16) (s : State), (1 < tget 0 k.val s.dram.stackSt ∨ ¬tget 0 (16 * k.val + channel.val)
      s.dram.recentred + 1000000000 ≤ s.beat)) ∧
    (∃ (k : StackId) (s : State), (tget 0 k.val s.dram.stackSt ≠ 2)) ∧
    (∃ (k : StackId) (s : State), (tget 0 k.val s.dram.stackSt = 2)) ∧
    (∃ (k : StackId) (unit : Nat) (x : Nat × Nat) (s : State), (tget 0 k.val s.dram.stackSt ≠ 2) ∧ (unit < stackUnits) ∧
      (scrubStep s k.val unit = some x)) ∧
    (∃ (k : StackId) (unit row : Nat) (x : Nat × Nat) (hits : List Nat) (s : State), (tget 0 k.val s.dram.stackSt ≠ 2) ∧
      (unit < stackUnits) ∧ (scrubStep s k.val unit = some x) ∧ (row = 2 ^ 30 * k.val + unit / 16) ∧ (hits = ((tget [] row
      s.dram.rowHits).filter (fun b => decide (s.beat < b + 86400000000000)) ++ [s.beat])) ∧ (hits.length < 8 ∨
      s.dram.repair.contains row = true)) ∧
    (∃ (k : StackId) (unit row : Nat) (x : Nat × Nat) (hits : List Nat) (s : State), (tget 0 k.val s.dram.stackSt ≠ 2) ∧
      (unit < stackUnits) ∧ (scrubStep s k.val unit = some x) ∧ (row = 2 ^ 30 * k.val + unit / 16) ∧ (hits = ((tget [] row
      s.dram.rowHits).filter (fun b => decide (s.beat < b + 86400000000000)) ++ [s.beat])) ∧ (8 ≤ hits.length ∧
      s.dram.repair.contains row = false)) ∧
    (∃ (k : StackId) (unit g : Nat) (x : Nat × Nat) (s : State), (tget 0 k.val s.dram.stackSt ≠ 2) ∧ (unit < stackUnits) ∧
      (scrubStep s k.val unit = some x) ∧ (g = offsetHome k.val (64 * unit)) ∧ (g / 65536 < poolPages) ∧
      (s.dram.poisoned.contains (g / 65536) = false) ∧ (tfind (g / 65536) s.dram.used = none) ∧ (s.dies.all (fun (d : Nat ×
      Die) => (cacheFind d.2 (g / 65536)).isNone) = true)) ∧
    (∃ (k : StackId) (unit g : Nat) (x : Nat × Nat) (u : State) (s : State), (tget 0 k.val s.dram.stackSt ≠ 2) ∧ (unit <
      stackUnits) ∧ (scrubStep s k.val unit = some x) ∧ (g = offsetHome k.val (64 * unit)) ∧ (g / 65536 < poolPages) ∧
      (s.dram.poisoned.contains (g / 65536) = false) ∧ (u = markBad (homeKey (g / 64 * 64)) (countLog Obj.dramUncorrected 0 0
      (stackSite (pageStack (g / 65536))) 0 (leBytes 8 g)
      { s with dram := { s.dram with scrub := tset k.val x s.dram.scrub } }))) ∧
    (∃ (k : StackId) (unit g : Nat) (x : Nat × Nat) (s : State), (tget 0 k.val s.dram.stackSt ≠ 2) ∧ (unit < stackUnits) ∧
      (scrubStep s k.val unit = some x) ∧ (g = offsetHome k.val (64 * unit)) ∧ (g / 65536 < poolPages) ∧
      (s.dram.poisoned.contains (g / 65536) = true)) ∧
    (∃ (k : StackId) (unit g : Nat) (x : Nat × Nat) (s : State), (tget 0 k.val s.dram.stackSt ≠ 2) ∧ (unit < stackUnits) ∧
      (scrubStep s k.val unit = some x) ∧ (g = offsetHome k.val (64 * unit)) ∧ (poolPages ≤ g / 65536)) ∧
    (∃ (k : StackId) (unit : Nat) (err : Fin 3) (s : State), (tget 0 k.val s.dram.stackSt = 2 ∨ stackUnits ≤ unit ∨ scrubStep
      s k.val unit = none)) ∧
    (∃ (slot : SlotId) (im : Image) (u : State) (s : State), (imageOf s slot.val = some im) ∧ (s.dram.lost.filter (fun (x :
      Nat × Nat) => x.1 == slot.val) ≠ []) ∧ (u = (s.dram.lost.filter (fun (x : Nat × Nat) => x.1 == slot.val)).foldl (fun v
      p => match indexIn p.2 (s.imgSlot slot.val).pages with | some i => writeImagePage im i p.2 v | none => v) s)) ∧
    (∃ (slot : SlotId) (im : Image) (p i : Nat) (s : State), (imageOf s slot.val = some im) ∧ (s.dram.lost.filter (fun (x :
      Nat × Nat) => x.1 == slot.val) = [(slot.val, p)]) ∧ (indexIn p (s.imgSlot slot.val).pages = some i)) ∧
    (∃ (slot : SlotId) (s : State), (imageOf s slot.val = none ∨ s.dram.lost.filter (fun (x : Nat × Nat) => x.1 == slot.val)
      = [])) :=
  ⟨⟨3, [3 * 2 ^ 30 + 1], ({ State.reset with dram := { stackSt := [(3, 3)], repair := [3 * 2 ^ 30 + 1], spareRows := [(3, 2)] } }.setObj
    Obj.dramTrainMode 1).count Obj.dramRowsRepaired 1,
    { State.reset with dram := { stackSt := [(3, 3)], repair := [3 * 2 ^ 30 + 1], spareRows := [(3, 2)] } },
    by decide +kernel⟩,
   ⟨3, [], { State.reset with dram := { stackSt := [(3, 3)], trained := [(3, 100)] } }.count Obj.dramRowsRepaired 0,
     { State.reset with dram := { stackSt := [(3, 3)], trained := [(3, 100)] } }, by decide +kernel⟩,
   ⟨3, 0xFFFE, { State.reset with dram := { stackSt := [(3, 3)], trained := [(3, 100)] } }, by decide +kernel⟩,
   ⟨3, 0xFFFE, { State.reset with dram := { stackSt := [(3, 3)] } }, by decide +kernel⟩,
   ⟨3, 0, true, State.reset, by decide +kernel⟩,
   ⟨3, 5, { State.reset with beat := 1000000000 }, by decide +kernel⟩,
   ⟨3, 5, State.reset, by decide +kernel⟩,
   ⟨3, State.reset, by decide +kernel⟩,
   ⟨3, { State.reset with dram := { stackSt := [(3, 2)] } }, by decide +kernel⟩,
   ⟨3, 7, (0, 8), State.reset, by decide +kernel⟩,
   ⟨3, 7, 3 * 2 ^ 30, (0, 8), [0], State.reset, by decide +kernel⟩,
   ⟨3, 7, 3 * 2 ^ 30, (0, 8), [0, 0, 0, 0, 0, 0, 0, 0],
     { State.reset with dram := { rowHits := [(3 * 2 ^ 30, [0, 0, 0, 0, 0, 0, 0])] } }, by decide +kernel⟩,
   ⟨3, 7, offsetHome 3 448, (0, 8), State.reset, by decide +kernel⟩,
   ⟨3, 7, offsetHome 3 448, (0, 8), markBad (homeKey (offsetHome 3 448 / 64 * 64)) (countLog Obj.dramUncorrected 0 0
     (stackSite (pageStack (offsetHome 3 448 / 65536))) 0 (leBytes 8 (offsetHome 3 448))
     { State.reset with dram := { scrub := tset 3 (0, 8) [] } }), State.reset, by decide +kernel⟩,
   ⟨3, 7, offsetHome 3 448, (0, 8), { State.reset with dram := { poisoned := [offsetHome 3 448 / 65536] } },
     by decide +kernel⟩,
   ⟨3, 0x5FFFFFFF, offsetHome 3 (64 * 0x5FFFFFFF), (0, 0x60000000), State.reset, by decide +kernel⟩,
   ⟨3, 0x60000000, 2, State.reset, by decide +kernel⟩,
   ⟨0, bareImage, _, { State.reset with dram := { lost := [(0, 9)] }, images := { slots := [(0, { state := 2, image := some bareImage, pages := [9] })] } },
     by decide +kernel, by decide +kernel, rfl⟩,
   ⟨0, bareImage, 9, 0, { State.reset with dram := { lost := [(0, 9)] }, images := { slots := [(0, { state := 2, image := some bareImage, pages := [9] })] } },
     by decide +kernel⟩,
   ⟨0, State.reset, by decide +kernel⟩⟩

/-- The hypotheses of each clause of ArbitersAndResets can be met. -/
theorem witness_ArbitersAndResets :
    (∃ (arb c win : Nat) (cand : List Nat) (forced : Bool) (s : State), (arbClass arb = some c) ∧ (arbOpen s arb = true) ∧
      (arbHalved s arb = false ∨ (arbPoint (arbHalved s arb) (arbSwitch (s.arb arb))).given < 8) ∧ (arbPick (arbPoint
      (arbHalved s arb) (arbSwitch (s.arb arb))) c (arbCand arb c (arbAsking s arb cand)) = some (win, forced)) ∧ (arb ≠ 160
      ∨ win ≠ 31) ∧ (32 ≤ arb ∨ win ≠ 0)) ∧
    (∃ (c : Nat) (forced : Bool) (cand : List Nat) (u : State) (s : State), (arbClass 160 = some c) ∧ (arbOpen s 160 = true)
      ∧ (arbHalved s 160 = false ∨ (arbPoint (arbHalved s 160) (arbSwitch (s.arb 160))).given < 8) ∧ (arbPick (arbPoint
      (arbHalved s 160) (arbSwitch (s.arb 160))) c (arbCand 160 c (arbAsking s 160 cand)) = some (31, forced)) ∧ (u = ((if
      forced then ((s.setArb 160 (arbPoint (arbHalved s 160) (arbSwitch (s.arb 160)))).setArb 160 (arbGranted (arbPoint
      (arbHalved s 160) (arbSwitch (s.arb 160))) c 31 (arbCand 160 c (arbAsking s 160 cand)))).count Obj.arbForcedWins 1 else
      (s.setArb 160 (arbPoint (arbHalved s 160) (arbSwitch (s.arb 160)))).setArb 160 (arbGranted (arbPoint (arbHalved s 160)
      (arbSwitch (s.arb 160))) c 31 (arbCand 160 c (arbAsking s 160 cand))))).emit (.grant 160 31))) ∧
    (∃ (arb c : Nat) (forced : Bool) (cand : List Nat) (u : State) (s : State), (arbClass arb = some c) ∧ (arbOpen s arb =
      true) ∧ (arbHalved s arb = false ∨ (arbPoint (arbHalved s arb) (arbSwitch (s.arb arb))).given < 8) ∧ (arbPick (arbPoint
      (arbHalved s arb) (arbSwitch (s.arb arb))) c (arbCand arb c (arbAsking s arb cand)) = some (0, forced)) ∧ (arb < 32) ∧
      (u = ((if forced then ((s.setArb arb (arbPoint (arbHalved s arb) (arbSwitch (s.arb arb)))).setArb arb (arbGranted
      (arbPoint (arbHalved s arb) (arbSwitch (s.arb arb))) c 0 (arbCand arb c (arbAsking s arb cand)))).count
      Obj.arbForcedWins 1 else (s.setArb arb (arbPoint (arbHalved s arb) (arbSwitch (s.arb arb)))).setArb arb (arbGranted
      (arbPoint (arbHalved s arb) (arbSwitch (s.arb arb))) c 0 (arbCand arb c (arbAsking s arb cand))))).emit (.grant arb
      0))) ∧
    (∃ (arb : Nat) (s : State), inNext (s.die (arb / 2)) (arb % 2) = none) ∧
    (∃ (arb c : Nat) (cand : List Nat) (s : State), (arbClass arb = some c) ∧ (arbOpen s arb = false ∨ (arbHalved s arb =
      true ∧ 8 ≤ (arbPoint (arbHalved s arb) (arbSwitch (s.arb arb))).given) ∨ arbCand arb c (arbAsking s arb cand) = [])) ∧
    (∃ (arb : Nat) (cand : List Nat) (s : State), (162 ≤ arb)) ∧
    (∃ (die : DieId) (s : State), (dieUp s die.val = true)) ∧
    (∃ (die : DieId) (s : State), (dieUp s die.val = false)) ∧
    (∃ (die : DieId) (xing : List (Nat × List (Nat × Int))) (u : State) (s : State), ((s.die die.val).reset ≠ none) ∧ ((s.die
      die.val).off = false) ∧ (u = (calibrateDie die.val xing s).1)) ∧
    (∃ (die : DieId) (i taps : Nat) (res : Int) (s : State), ((s.die die.val).reset ≠ none) ∧ ((s.die die.val).off = false) ∧
      (i < 64) ∧ (taps ≤ 1)) ∧
    (∃ (die : DieId) (xing : List (Nat × List (Nat × Int))) (s : State), ((s.die die.val).reset = none ∨ (s.die die.val).off
      = true)) ∧
    (∃ (die : DieId) (words : List (Nat × Nat)) (u : State) (s : State), (dieUp s die.val = true) ∧ ((s.die die.val).scrubs =
      0 ∨ (s.die die.val).scrubAt + 3600000000000 * s.obj Obj.scrubPeriodH ≤ s.beat) ∧ (u = words.foldl (scrubWord die.val)
      s)) ∧
    (∃ (die : DieId) (a : Nat) (s : State), (dieUp s die.val = true) ∧ ((s.die die.val).scrubs = 0 ∨ (s.die die.val).scrubAt
      + 3600000000000 * s.obj Obj.scrubPeriodH ≤ s.beat) ∧ (dieSramBase ≤ a ∧ a < dieSramBase + dieSramSize)) ∧
    (∃ (die : DieId) (a : Nat) (s : State), (dieUp s die.val = true) ∧ ((s.die die.val).scrubs = 0 ∨ (s.die die.val).scrubAt
      + 3600000000000 * s.obj Obj.scrubPeriodH ≤ s.beat) ∧ (dieSramBase ≤ a ∧ a < dieSramBase + dieSramSize)) ∧
    (∃ (die : DieId) (a : Nat) (s : State), (dieUp s die.val = true) ∧ ((s.die die.val).scrubs = 0 ∨ (s.die die.val).scrubAt
      + 3600000000000 * s.obj Obj.scrubPeriodH ≤ s.beat) ∧ (sbBase ≤ a ∧ a < sbBase + 512 * 2 ^ 20 ∧ ¬(dieSramBase ≤ a ∧ a <
      dieSramBase + dieSramSize))) ∧
    (∃ (die : DieId) (a : Nat) (s : State), (dieUp s die.val = true) ∧ ((s.die die.val).scrubs = 0 ∨ (s.die die.val).scrubAt
      + 3600000000000 * s.obj Obj.scrubPeriodH ≤ s.beat) ∧ (sbBase ≤ a ∧ a < sbBase + 512 * 2 ^ 20 ∧ ¬(dieSramBase ≤ a ∧ a <
      dieSramBase + dieSramSize))) ∧
    (∃ (die : DieId) (words : List (Nat × Nat)) (s : State), (dieUp s die.val = false ∨ ¬((s.die die.val).scrubs = 0 ∨ (s.die
      die.val).scrubAt + 3600000000000 * s.obj Obj.scrubPeriodH ≤ s.beat))) :=
  ⟨⟨0, 0, 1, [1, 3], false, State.reset, by decide +kernel⟩,
   ⟨2, false, [31], ((State.reset.setArb 160 (arbPoint (arbHalved State.reset 160) (arbSwitch (State.reset.arb 160)))).setArb
     160 (arbGranted (arbPoint (arbHalved State.reset 160) (arbSwitch (State.reset.arb 160))) 2 31 (arbCand 160 2 (arbAsking
     State.reset 160 [31])))).emit (.grant 160 31), State.reset, by decide +kernel⟩,
   ⟨0, 0, false, [0], ((State.reset.setArb 0 (arbPoint (arbHalved State.reset 0) (arbSwitch (State.reset.arb 0)))).setArb 0
     (arbGranted (arbPoint (arbHalved State.reset 0) (arbSwitch (State.reset.arb 0))) 0 0 (arbCand 0 0 (arbAsking State.reset
     0 [0])))).emit (.grant 0 0), State.reset, by decide +kernel⟩,
   ⟨0, State.reset, by decide +kernel⟩,
   ⟨160, 2, [77], State.reset, by decide +kernel⟩,
   ⟨162, [1], State.reset, by decide +kernel⟩,
   ⟨2, State.reset, by decide +kernel⟩,
   ⟨2, { State.reset with dies := [(2, { reset := some 5 })] }, by decide +kernel⟩,
   ⟨2, [], { State.reset with dies := [(2, { reset := some 5 })] }, { State.reset with dies := [(2, { reset := some 5 })] },
     by decide +kernel⟩,
   ⟨2, 63, 1, -4, { State.reset with dies := [(2, { reset := some 5 })] }, by decide +kernel⟩,
   ⟨2, [], State.reset, by decide +kernel⟩,
   ⟨2, [], State.reset, State.reset, by decide +kernel⟩,
   ⟨2, dieSramBase + 9, State.reset, by decide +kernel⟩,
   ⟨2, dieSramBase + 9, State.reset, by decide +kernel⟩,
   ⟨2, sbBase + 9, State.reset, by decide +kernel⟩,
   ⟨2, sbBase + 9, State.reset, by decide +kernel⟩,
   ⟨2, [], { State.reset with dies := [(2, { scrubs := 1 })] }, by decide +kernel⟩⟩

/-- The hypotheses of each clause of SoundboardCache can be met. -/
theorem witness_SoundboardCache :
    (∃ (die : DieId) (home e len : Nat) (b : Bytes) (x : CacheEnt) (s : State), (b ≠ []) ∧ (home % 65536 + b.length ≤ 65536)
      ∧ (home + b.length ≤ 65536 * poolPages) ∧ ((tfind (home / 65536) s.dram.owner = none ∨ tfind (home / 65536)
      s.dram.owner = some die.val)) ∧ (sbServes s die.val = true) ∧ (cacheFind (s.die die.val) (home / 65536) = some (e, x))
      ∧ (x.valid = true)) ∧
    (∃ (die : DieId) (home e len : Nat) (x : CacheEnt) (s : State), (0 < len) ∧ (home % 65536 + len ≤ 65536) ∧ (home + len ≤
      65536 * poolPages) ∧ ((tfind (home / 65536) s.dram.owner = none ∨ tfind (home / 65536) s.dram.owner = some die.val)) ∧
      (sbServes s die.val = true) ∧ (cacheFind (s.die die.val) (home / 65536) = some (e, x)) ∧ (x.valid = true)) ∧
    (∃ (die : DieId) (home n len : Nat) (store : Option Bytes) (e : Nat) (x : CacheEnt) (s : State), (0 < n) ∧ (n = min
      ((store.map (fun (b : Bytes) => b.length)).getD len) 65536) ∧ (home % 65536 + n ≤ 65536) ∧ (home + n ≤ 65536 *
      poolPages) ∧ ((tfind (home / 65536) s.dram.owner = none ∨ tfind (home / 65536) s.dram.owner = some die.val)) ∧
      (sbServes s die.val = true) ∧ (cacheFind (s.die die.val) (home / 65536) = some (e, x)) ∧ (x.valid = false)) ∧
    (∃ (die : DieId) (home n len : Nat) (store : Option Bytes) (s : State), (0 < n) ∧ (n = min ((store.map (fun (b : Bytes)
      => b.length)).getD len) 65536) ∧ (home % 65536 + n ≤ 65536) ∧ (home + n ≤ 65536 * poolPages) ∧ ((tfind (home / 65536)
      s.dram.owner = none ∨ tfind (home / 65536) s.dram.owner = some die.val)) ∧ (sbServes s die.val = true) ∧ (cacheFind
      (s.die die.val) (home / 65536) = none) ∧ (stackFailed s (pageStack (home / 65536)) = true)) ∧
    (∃ (die : DieId) (home n len : Nat) (store : Option Bytes) (s : State), (0 < n) ∧ (n = min ((store.map (fun (b : Bytes)
      => b.length)).getD len) 65536) ∧ (home % 65536 + n ≤ 65536) ∧ (home + n ≤ 65536 * poolPages) ∧ ((tfind (home / 65536)
      s.dram.owner = none ∨ tfind (home / 65536) s.dram.owner = some die.val)) ∧ (sbServes s die.val = true) ∧ (cacheFind
      (s.die die.val) (home / 65536) = none) ∧ (stackFailed s (pageStack (home / 65536)) = false) ∧ ((freeTags s (dieSite
      die.val)).length < 32)) ∧
    (∃ (die : DieId) (home n len : Nat) (store : Option Bytes) (e : Nat) (u : State) (s : State), (0 < n) ∧ (n = min
      ((store.map (fun (b : Bytes) => b.length)).getD len) 65536) ∧ (home % 65536 + n ≤ 65536) ∧ (home + n ≤ 65536 *
      poolPages) ∧ ((tfind (home / 65536) s.dram.owner = none ∨ tfind (home / 65536) s.dram.owner = some die.val)) ∧
      (sbServes s die.val = true) ∧ (cacheFind (s.die die.val) (home / 65536) = none) ∧ (stackFailed s (pageStack (home /
      65536)) = false) ∧ (32 ≤ (freeTags s (dieSite die.val)).length) ∧ (freeEntry (s.die die.val) cacheEntries 0 = some e) ∧
      (u = { s with dram := { s.dram with owner := tset (home / 65536) die.val s.dram.owner } }.count Obj.sbCacheMisses 1)) ∧
    (∃ (die : DieId) (home n len : Nat) (store : Option Bytes) (e : Nat) (x : CacheEnt) (u : State) (s : State), (0 < n) ∧ (n
      = min ((store.map (fun (b : Bytes) => b.length)).getD len) 65536) ∧ (home % 65536 + n ≤ 65536) ∧ (home + n ≤ 65536 *
      poolPages) ∧ ((tfind (home / 65536) s.dram.owner = none ∨ tfind (home / 65536) s.dram.owner = some die.val)) ∧
      (sbServes s die.val = true) ∧ (cacheFind (s.die die.val) (home / 65536) = none) ∧ (stackFailed s (pageStack (home /
      65536)) = false) ∧ (32 ≤ (freeTags s (dieSite die.val)).length) ∧ (freeEntry (s.die die.val) cacheEntries 0 = none) ∧
      (cacheVictim (s.die die.val) = some (e, x)) ∧ (u =
      { s with dram := { s.dram with owner := tset (home / 65536) die.val s.dram.owner } }.count Obj.sbCacheMisses 1)) ∧
    (∃ (die : DieId) (home n len : Nat) (store : Option Bytes) (u : State) (s : State), (0 < n) ∧ (n = min ((store.map (fun
      (b : Bytes) => b.length)).getD len) 65536) ∧ (home % 65536 + n ≤ 65536) ∧ (home + n ≤ 65536 * poolPages) ∧ ((tfind
      (home / 65536) s.dram.owner = none ∨ tfind (home / 65536) s.dram.owner = some die.val)) ∧ (sbServes s die.val = true) ∧
      (cacheFind (s.die die.val) (home / 65536) = none) ∧ (stackFailed s (pageStack (home / 65536)) = false) ∧ (32 ≤
      (freeTags s (dieSite die.val)).length) ∧ (freeEntry (s.die die.val) cacheEntries 0 = none) ∧ (cacheVictim (s.die
      die.val) = none) ∧ (u = { s with dram := { s.dram with owner := tset (home / 65536) die.val s.dram.owner } }.count
      Obj.sbCacheMisses 1)) ∧
    (∃ (die : DieId) (home n len : Nat) (store : Option Bytes) (s : State), (n = min ((store.map (fun (b : Bytes) =>
      b.length)).getD len) 65536) ∧ (n = 0 ∨ 65536 * poolPages < home + n ∨ (home % 65536 + n ≤ 65536 ∧ (sbServes s die.val =
      false ∨ ¬(tfind (home / 65536) s.dram.owner = none ∨ tfind (home / 65536) s.dram.owner = some die.val))))) ∧
    (∃ (die : DieId) (home n k len : Nat) (store : Option Bytes) (s : State), (n = min ((store.map (fun (b : Bytes) =>
      b.length)).getD len) 65536) ∧ (k = 65536 - home % 65536) ∧ (k < n) ∧ (home + n ≤ 65536 * poolPages)) ∧
    (∃ (die : DieId) (page : Nat) (s : State), ∀ j, j < 32 → (pathOf s (dieSite die.val) (stackSite (pageStack page))
      ((homeOffset (65536 * page) + 64 * fillUnit j) / 64)).isSome = true) ∧
    (∃ (die e : Nat) (s : State) (x : CacheEnt), tfind e (s.die die).dir = some x) ∧
    (∃ (die : DieId) (page e : Nat) (x : CacheEnt) (u : State) (s : State), ((s.die die.val).fills.find? (fun (f : Nat × Nat)
      => f.1 == page) = some (page, 0)) ∧ (cacheFind (s.die die.val) page = some (e, x)) ∧ (u = ((s.die die.val).late.filter
      (fun (w : Nat × Bytes) => w.1 / 65536 == page)).foldl (fun s (w : Nat × Bytes) => storeClean (entryKey die.val e (w.1 %
      65536)) w.2 s) (s.setDie die.val { (s.die die.val) with fills := (s.die die.val).fills.filter (fun (f : Nat × Nat) => f.1 != page), late := (s.die die.val).late.filter (fun (w : Nat × Bytes) => w.1 / 65536 != page), dir := tset e { x with valid := true, dirty := !((s.die die.val).late.filter (fun (w : Nat × Bytes) => w.1 / 65536 == page)).isEmpty, age := s.beat } (s.die die.val).dir })))
      ∧
    (∃ (die : DieId) (page e : Nat) (x : CacheEnt) (s : State), ((s.die die.val).fills.find? (fun (f : Nat × Nat) => f.1 ==
      page) = some (page, 0)) ∧ (cacheFind (s.die die.val) page = some (e, x)) ∧ ((s.die die.val).late = [])) ∧
    (∃ (die : DieId) (page : Nat) (s : State), ((∀ l, (s.die die.val).fills.find? (fun (f : Nat × Nat) => f.1 == page) = some
      l → l.2 ≠ 0) ∨ cacheFind (s.die die.val) page = none)) ∧
    (∃ (page : Nat) (dst : DieId) (s : State), (page < poolPages) ∧ (∀ d ∈ tfind page s.dram.owner, cacheFind (s.die d) page
      = none ∧ (s.die d).fills.any (fun (f : Nat × Nat) => f.1 == page) = false ∧ (s.die d).late.any (fun (w : Nat × Bytes)
      => w.1 / 65536 == page) = false)) ∧
    (∃ (page e old : Nat) (dst : DieId) (x : CacheEnt) (s : State), (page < poolPages) ∧ (tfind page s.dram.owner = some old)
      ∧ ((s.die old).fills.any (fun (f : Nat × Nat) => f.1 == page) = false) ∧ ((s.die old).late.any (fun (w : Nat × Bytes)
      => w.1 / 65536 == page) = false) ∧ (cacheFind (s.die old) page = some (e, x))) ∧
    (∃ (page old : Nat) (dst : DieId) (s : State), (poolPages ≤ page ∨ (tfind page s.dram.owner = some old ∧ ((s.die
      old).fills.any (fun (f : Nat × Nat) => f.1 == page) = true ∨ (s.die old).late.any (fun (w : Nat × Bytes) => w.1 / 65536
      == page) = true)))) :=
  ⟨⟨0, 65540, 2, 0, [1, 2], { page := 1, valid := true, dirty := false, pinned := false, age := 0 },
    { State.reset with dies := [(0, { dir := [(2, { page := 1, valid := true, dirty := false, pinned := false, age := 0 })] })] },
    by decide +kernel⟩,
   ⟨0, 65540, 2, 8, { page := 1, valid := true, dirty := false, pinned := false, age := 0 },
     { State.reset with dies := [(0, { dir := [(2, { page := 1, valid := true, dirty := false, pinned := false, age := 0 })] })] },
     by decide +kernel⟩,
   ⟨0, 65540, 8, 8, none, 2, { page := 1, valid := false, dirty := false, pinned := false, age := 0 },
     { State.reset with dies := [(0, { dir := [(2, { page := 1, valid := false, dirty := false, pinned := false, age := 0 })] })] },
     by decide +kernel⟩,
   ⟨0, 65540, 8, 8, none, { State.reset with dram := { stackSt := [(pageStack 1, 2)] } }, by decide +kernel⟩,
   ⟨0, 65540, 8, 8, none, { State.reset with tags := (List.range 230).map (fun i => { site := 1, tag := i, landing := 0, left := 1, purpose := 0, arg := 0 }) },
     by decide +kernel⟩,
   ⟨0, 65540, 8, 8, none, 0, ({ State.reset with dram := { (State.reset).dram with owner := tset 1 0 (State.reset).dram.owner } }).count
     Obj.sbCacheMisses 1, State.reset, by decide +kernel⟩,
   ⟨0, 65540, 8, 8, none, 2, { page := 5, valid := true, dirty := false, pinned := false, age := 0 },
     ({ { State.reset with dies := [(0, { parts := [{ slot := 0, base := 0, mib := 511 }], dir := [(2, { page := 5, valid := true, dirty := false, pinned := false, age := 0 })] })] } with dram := { ({ State.reset with dies := [(0, { parts := [{ slot := 0, base := 0, mib := 511 }], dir := [(2, { page := 5, valid := true, dirty := false, pinned := false, age := 0 })] })] }).dram with owner := tset 1 0 ({ State.reset with dies := [(0, { parts := [{ slot := 0, base := 0, mib := 511 }], dir := [(2, { page := 5, valid := true, dirty := false, pinned := false, age := 0 })] })] }).dram.owner } }).count
     Obj.sbCacheMisses 1, { State.reset with dies := [(0, { parts := [{ slot := 0, base := 0, mib := 511 }], dir := [(2, { page := 5, valid := true, dirty := false, pinned := false, age := 0 })] })] },
     by decide +kernel⟩,
   ⟨0, 65540, 8, 8, none, ({ { State.reset with dies := [(0, { parts := [{ slot := 0, base := 0, mib := 511 }] })] } with dram := { ({ State.reset with dies := [(0, { parts := [{ slot := 0, base := 0, mib := 511 }] })] }).dram with owner := tset 1 0 ({ State.reset with dies := [(0, { parts := [{ slot := 0, base := 0, mib := 511 }] })] }).dram.owner } }).count
     Obj.sbCacheMisses 1, { State.reset with dies := [(0, { parts := [{ slot := 0, base := 0, mib := 511 }] })] },
     by decide +kernel⟩,
   ⟨0, 65540, 8, 8, none, { State.reset with dram := { owner := [(1, 9)] } }, by decide +kernel⟩,
   ⟨0, 65534, 8, 2, 8, none, State.reset, by decide +kernel⟩,
   ⟨0, 1, { State.reset with strings := [(primaryString 1 (stackSite (pageStack 1)), { state := 0 }), (812 + pageStack 1, { state := 0 })] },
     by decide +kernel⟩,
   ⟨0, 2, { State.reset with dies := [(0, { dir := [(2, { page := 1, valid := true, dirty := false, pinned := false, age := 0 })] })] },
     { page := 1, valid := true, dirty := false, pinned := false, age := 0 }, by decide +kernel⟩,
   ⟨0, 1, 2, { page := 1, valid := false, dirty := false, pinned := false, age := 0 },
     { State.reset with dies := [(0, { dir := [(2, { page := 1, valid := true, dirty := false, pinned := false, age := 0 })] })] },
     { State.reset with dies := [(0, { fills := [(1, 0)], dir := [(2, { page := 1, valid := false, dirty := false, pinned := false, age := 0 })] })] },
     by decide +kernel⟩,
   ⟨0, 1, 2, { page := 1, valid := false, dirty := false, pinned := false, age := 0 },
     { State.reset with dies := [(0, { fills := [(1, 0)], dir := [(2, { page := 1, valid := false, dirty := false, pinned := false, age := 0 })] })] },
     by decide +kernel⟩,
   ⟨0, 1, State.reset, Or.inr (by decide +kernel)⟩,
   ⟨1, 2, State.reset, by decide +kernel⟩,
   ⟨1, 2, 0, 5, { page := 1, valid := true, dirty := false, pinned := false, age := 0 },
     { State.reset with dram := { owner := [(1, 0)] }, dies := [(0, { dir := [(2, { page := 1, valid := true, dirty := false, pinned := false, age := 0 })] })] },
     by decide +kernel⟩,
   ⟨1, 0, 2, { State.reset with dram := { owner := [(1, 0)] }, dies := [(0, { fills := [(1, 3)] })] }, by decide +kernel⟩⟩

/-- The hypotheses of each clause of FrameTimes can be met. -/
theorem witness_FrameTimes :
    (∃ (n : StringId) (s : State), (stringLive s n.val = true) ∧ ((s.str n.val).inject.mode ≠ 4)) ∧
    (∃ (n : StringId) (u v : State) (s : State), (stringLive s n.val = true) ∧ (u = injectAlarms 64 n.val s) ∧ (v = (if
      (u.str n.val).state = 6 then ctrlOrIdle n.val u else sendChoice n.val u))) ∧
    (∃ (n : StringId) (c : Nat) (f : TxFrame) (own : Option Nat) (s : State), ((s.str n.val).state ≤ 2) ∧ (isBus n.val =
      false) ∧ ((s.str n.val).inject.mode = 0) ∧ ((s.str n.val).swap = []) ∧ ((s.str n.val).resend = []) ∧ (stringOwner s
      n.val ((s.str n.val).count.toNat % 16) = own) ∧ (own ≠ none ∨ relayDue n.val s = false) ∧ (classTurn (s.str n.val) (if
      (s.str n.val).held = false ∧ (s.str n.val).stopped = false ∧ (s.str n.val).unacked.length < 64 then [0, 1, 2, 3].filter
      (fun c => (classPick n.val (s.str n.val) own ((s.str n.val).count.toNat % 16) c).isSome) else []) = some c) ∧
      (classPick n.val (s.str n.val) own ((s.str n.val).count.toNat % 16) c = some f)) ∧
    (∃ (n : StringId) (s : State), (isBus n.val = true) ∧ (s.powered = true)) ∧
    (∃ (n : StringId) (s : State), ((isBus n.val = true ∧ s.powered = false) ∨ (isBus n.val = false ∧ stringLive s n.val =
      false))) ∧
    (∃ (n : Nat) (q : Byte) (f : TxFrame) (r : List (Byte × TxFrame)) (s : State), (s.str n).swap = [] ∧ (s.str n).resend =
      (q, f) :: r ∧ (s.str n).held = false ∧ stringOwner s n ((s.str n).count.toNat % 16) = none) ∧
    (∃ (n : Nat) (s : State), (s.str n).swap = [] ∧ (s.str n).resend = [] ∧ relayDue n s = true ∧ stringOwner s n ((s.str
      n).count.toNat % 16) = none ∧ (takeRelay n s).isSome = true) ∧
    (∃ (n w : Nat) (s : State), (s.str n).swap = [] ∧ stringOwner s n ((s.str n).count.toNat % 16) = some w ∧ (∀ x ∈ (s.str
      n).resend, x.2.win ≠ some w) ∧ (∀ c, c < 4 → ∀ g ∈ tget [] c (s.str n).txq, g.win ≠ some w)) ∧
    (∃ (n : StringId) (f : Frame) (s : State), (isBus n.val = false)) ∧
    (∃ (n : StringId) (f : Frame) (s : State), (isBus n.val = true)) ∧
    (∃ (n : StringId) (f : Frame) (q : Byte) (x : TxFrame) (rest : List (Byte × TxFrame)) (s : State), (stringLive s n.val =
      true) ∧ (hOp f.hdr = opIDLE) ∧ (hDest f.hdr < 29) ∧ ((s.str n.val).inject.mode ≠ 2) ∧ (frameOk n.val f = true) ∧
      ((s.str (reverseString n.val)).state ≤ 2) ∧ ((s.str (reverseString n.val)).unacked = (q, x) :: rest) ∧ (hAck f.hdr =
      q.toNat)) ∧
    (∃ (n op : Nat) (f : Frame) (s : State), stringLive s n = true ∧ (s.str n).inject.mode ≠ 2 ∧ frameOk n f = false) ∧
    (∃ (n op : Nat) (f : Frame) (s : State), stringLive s n = true ∧ (s.str n).inject.mode ≠ 2 ∧ frameOk n f = true ∧ hOp
      f.hdr = op ∧ opSequenced op = false ∧ 29 ≤ hDest f.hdr) ∧
    (∃ (n op : Nat) (f : Frame) (s : State), stringLive s n = true ∧ (s.str n).inject.mode ≠ 2 ∧ frameOk n f = true ∧ hOp
      f.hdr = op ∧ opSequenced op = false ∧ hDest f.hdr < 29) ∧
    (∃ (n op : Nat) (f : Frame) (s : State), stringLive s n = true ∧ (s.str n).inject.mode ≠ 2 ∧ frameOk n f = true ∧ hOp
      f.hdr = op ∧ opSequenced op = true ∧ (s.str n).state ≤ 2 ∧ hSeq f.hdr = (s.str n).rxSeq.toNat) ∧
    (∃ (n op : Nat) (f : Frame) (s : State), stringLive s n = true ∧ (s.str n).inject.mode ≠ 2 ∧ frameOk n f = true ∧ hOp
      f.hdr = op ∧ opSequenced op = true ∧ hSeq f.hdr ≠ (s.str n).rxSeq.toNat) :=
  ⟨⟨30, { State.reset with strings := [(primaryString 1 3, { state := 6 })] }, by decide +kernel⟩,
   ⟨30, injectAlarms 64 30 { State.reset with strings := [(primaryString 1 3, { state := 0, txq := [(1, [{ hdr := mkHdr opWRITE 3 1 63 0 (2 ^ 22) false, payload := fitBytes 64 [7] }])], granted := [(1, 5)] })] },
     sendChoice 30 (injectAlarms 64 30 { State.reset with strings := [(primaryString 1 3, { state := 0, txq := [(1, [{ hdr := mkHdr opWRITE 3 1 63 0 (2 ^ 22) false, payload := fitBytes 64 [7] }])], granted := [(1, 5)] })] }),
     { State.reset with strings := [(primaryString 1 3, { state := 0, txq := [(1, [{ hdr := mkHdr opWRITE 3 1 63 0 (2 ^ 22) false, payload := fitBytes 64 [7] }])], granted := [(1, 5)] })] },
     by decide +kernel⟩,
   ⟨30, 1, { hdr := mkHdr opWRITE 3 1 63 0 (2 ^ 22) false, payload := fitBytes 64 [7] }, none,
     { State.reset with strings := [(primaryString 1 3, { state := 0, txq := [(1, [{ hdr := mkHdr opWRITE 3 1 63 0 (2 ^ 22) false, payload := fitBytes 64 [7] }])], granted := [(1, 5)] })] },
     by decide +kernel⟩,
   ⟨1077, { State.reset with dev := { state := 5 } }, by decide +kernel⟩,
   ⟨30, State.reset, by decide +kernel⟩,
   ⟨30, 4, { hdr := mkHdr opWRITE 3 1 63 0 (2 ^ 22) false, payload := fitBytes 64 [7] }, [],
     { State.reset with strings := [(primaryString 1 3, { state := 0, resend := [(4, { hdr := mkHdr opWRITE 3 1 63 0 (2 ^ 22) false, payload := fitBytes 64 [7] })] })] },
     by decide +kernel⟩,
   ⟨30, { { State.reset with strings := [(primaryString 1 3, { state := 0 }), (primaryString 3 1, { state := 0, unreported := [33] })] } with beat := 100 },
     by decide +kernel⟩,
   ⟨30, 2, { State.reset with strings := [(primaryString 1 3, { state := 0 })], wins := [{ id := 2, phase := 1, reserve := [BitVec.ofNat 64 (30 * 2 ^ 8 + 2 ^ 24)] }] },
     by decide +kernel⟩,
   ⟨85, mkFrame (withLink (mkHdr opIDLE 1 3 0 0 0 false) 85 0 4 1 0) [], State.reset, by decide +kernel⟩,
   ⟨1077, { hdr := 0, payload := [], crc := 0 }, State.reset, by decide +kernel⟩,
   ⟨85, mkFrame (withLink (mkHdr opIDLE 1 3 0 0 0 false) 85 0 4 1 0) [], 4,
     { hdr := mkHdr opWRITE 3 1 63 0 (2 ^ 22) false, payload := fitBytes 64 [7] }, [],
     { State.reset with strings := [(primaryString 1 3, { state := 0, unacked := [(4, { hdr := mkHdr opWRITE 3 1 63 0 (2 ^ 22) false, payload := fitBytes 64 [7] })] }), (primaryString 3 1, { state := 0 })] },
     by decide +kernel⟩,
   ⟨85, 1, { hdr := 0, payload := [], crc := 0 }, { State.reset with strings := [(primaryString 3 1, { state := 0 })] },
     by decide +kernel⟩,
   ⟨85, opIDLE, mkFrame (withLink (mkHdr opIDLE 29 3 0 0 0 false) 85 0 4 1 0) [],
     { State.reset with strings := [(primaryString 3 1, { state := 0 })] }, by decide +kernel⟩,
   ⟨85, opIDLE, mkFrame (withLink (mkHdr opIDLE 1 3 0 0 0 false) 85 0 4 1 0) [],
     { State.reset with strings := [(primaryString 3 1, { state := 0 })] }, by decide +kernel⟩,
   ⟨85, opWRITE, mkFrame (withLink (mkHdr opWRITE 1 3 0 0 0 false) 85 0 0xFF 0 0) [7],
     { State.reset with strings := [(primaryString 3 1, { state := 0 })] }, by decide +kernel⟩,
   ⟨85, opWRITE, mkFrame (withLink (mkHdr opWRITE 1 3 0 0 0 false) 85 1 0xFF 0 0) [7],
     { State.reset with strings := [(primaryString 3 1, { state := 0 })] }, by decide +kernel⟩⟩

/-- The hypotheses of each clause of LinkTraining can be met. -/
theorem witness_LinkTraining :
    (∃ (n : StringId) (f : Frame) (u : State) (s : State), (receiveCtrl n.val 1 f s = (none, u))) ∧
    (∃ (n : StringId) (f : Frame) (p : Bytes) (u : State) (s : State), (receiveCtrl n.val 1 f s = (some p, u)) ∧
      (¬(pairTraining u n.val = true ∧ leAt p 2 2 = n.val))) ∧
    (∃ (n : StringId) (f : Frame) (p : Bytes) (u : State) (s : State), (receiveCtrl n.val 1 f s = (some p, u)) ∧
      (pairTraining u n.val = true) ∧ (leAt p 2 2 = n.val) ∧ (leAt p 1 1 = 0)) ∧
    (∃ (n : StringId) (f : Frame) (p : Bytes) (u : State) (s : State), (receiveCtrl n.val 1 f s = (some p, u)) ∧
      (pairTraining u n.val = true) ∧ (leAt p 2 2 = n.val) ∧ (leAt p 1 1 ≠ 0)) ∧
    (∃ (n : Nat) (s : State), (s.str n).state = 6) ∧
    (∃ (n : Nat) (s : State), (s.str n).state ≠ 6) ∧
    (∃ (n : StringId) (f : Frame) (u : State) (s : State), (receiveCtrl n.val 2 f s = (none, u))) ∧
    (∃ (n : StringId) (f : Frame) (p : Bytes) (u : State) (s : State), (receiveCtrl n.val 2 f s = (some p, u)) ∧
      (¬(pairTraining u n.val = true ∧ leAt p 2 2 = n.val ∧ leAt p 1 1 = 1))) ∧
    (∃ (n : StringId) (f : Frame) (p : Bytes) (u : State) (v : State) (s : State), (receiveCtrl n.val 2 f s = (some p, u)) ∧
      (pairTraining u n.val = true) ∧ (leAt p 2 2 = n.val) ∧ (leAt p 1 1 = 1) ∧ (v = (noteCredits (reverseString n.val) p
      u).setStr (reverseString n.val) { (noteCredits (reverseString n.val) p u).str (reverseString n.val) with acceptGot := true })
      ∧ (((v.str n.val).acceptSent && (v.str n.val).acceptGot && ((v.str (reverseString n.val)).acceptSent && (v.str
      (reverseString n.val)).acceptGot)) = false)) ∧
    (∃ (n : StringId) (f : Frame) (p : Bytes) (u : State) (v : State) (s : State), (receiveCtrl n.val 2 f s = (some p, u)) ∧
      (pairTraining u n.val = true) ∧ (leAt p 2 2 = n.val) ∧ (leAt p 1 1 = 1) ∧ (v = (noteCredits (reverseString n.val) p
      u).setStr (reverseString n.val) { (noteCredits (reverseString n.val) p u).str (reverseString n.val) with acceptGot := true })
      ∧ (((v.str n.val).acceptSent && (v.str n.val).acceptGot && ((v.str (reverseString n.val)).acceptSent && (v.str
      (reverseString n.val)).acceptGot)) = true)) ∧
    (∃ (n : Nat) (s : State), (s.str n).state = 6 ∧ 13 ≤ (usableLines (s.str n)).length) ∧
    (∃ (n : StringId) (f : Frame) (u : State) (s : State), (receiveCtrl n.val 3 f s = (none, u))) ∧
    (∃ (n : StringId) (f : Frame) (p : Bytes) (u : State) (s : State), (receiveCtrl n.val 3 f s = (some p, u)) ∧ ((u.str
      (reverseString n.val)).newMap ≠ some (leAt p 2 2, (List.range 17).map (fun j => leAt p (4 + j) 1)))) ∧
    (∃ (n : StringId) (f : Frame) (p : Bytes) (u : State) (s : State), (receiveCtrl n.val 3 f s = (some p, u)) ∧ ((u.str
      (reverseString n.val)).newMap = some (leAt p 2 2, (List.range 17).map (fun j => leAt p (4 + j) 1)))) ∧
    (∃ (n : StringId) (at_ : Nat) (m : List Nat) (s : State), ((s.str n.val).newMap = some (at_, m)) ∧ ((s.str
      n.val).announced = true) ∧ (((s.str n.val).count.toNat + 65536 - at_) % 65536 < 32768)) ∧
    (∃ (n : StringId) (s : State), ((s.str n.val).newMap = none ∨ (s.str n.val).announced = false ∨ (∃ m ∈ (s.str
      n.val).newMap, 32768 ≤ ((s.str n.val).count.toNat + 65536 - m.1) % 65536))) ∧
    (∃ (n : StringId) (f : Frame) (u : State) (s : State), (receiveCtrl n.val 4 f s = (none, u))) ∧
    (∃ (n : StringId) (f : Frame) (p : Bytes) (u : State) (s : State), (receiveCtrl n.val 4 f s = (some p, u))) ∧
    (∃ (n : StringId) (f : Frame) (u : State) (s : State), (receiveCtrl n.val 5 f s = (none, u))) ∧
    (∃ (n : StringId) (f : Frame) (p : Bytes) (u : State) (s : State), (receiveCtrl n.val 5 f s = (some p, u)) ∧ (((u.str
      n.val).echo == some (leAt p 1 8) && !(u.str n.val).echoBack) = true ∨ (u.str (reverseString n.val)).echo ≠ some (leAt p
      1 8))) ∧
    (∃ (n : StringId) (f : Frame) (p : Bytes) (u : State) (s : State), (receiveCtrl n.val 5 f s = (some p, u)) ∧ (((u.str
      n.val).echo == some (leAt p 1 8) && !(u.str n.val).echoBack) = false) ∧ ((u.str (reverseString n.val)).echo = some
      (leAt p 1 8))) :=
  ⟨⟨85, { hdr := 0, payload := [], crc := 0 }, State.reset, State.reset, by decide +kernel⟩,
   ⟨85, mkFrame (withLink (mkHdr opCTRL 1 3 0 0 0 false) 85 0 0xFF 0 0) (fitBytes 64 [1, 1]), fitBytes 64 [1, 1],
     (receiveCtrl 85 1 (mkFrame (withLink (mkHdr opCTRL 1 3 0 0 0 false) 85 0 0xFF 0 0) (fitBytes 64 [1, 1]))
     { State.reset with strings := [(primaryString 1 3, { state := 6 }), (primaryString 3 1, { state := 6 })] }).2,
     { State.reset with strings := [(primaryString 1 3, { state := 6 }), (primaryString 3 1, { state := 6 })] },
     by decide +kernel⟩,
   ⟨85, mkFrame (withLink (mkHdr opCTRL 1 3 0 0 0 false) 85 0 0xFF 0 0) (fitBytes 64 ([1, 0] ++ leBytes 2 (primaryString 3 1)
     ++ [3])), fitBytes 64 ([1, 0] ++ leBytes 2 (primaryString 3 1) ++ [3]), (receiveCtrl 85 1 (mkFrame (withLink (mkHdr
     opCTRL 1 3 0 0 0 false) 85 0 0xFF 0 0) (fitBytes 64 ([1, 0] ++ leBytes 2 (primaryString 3 1) ++ [3])))
     { State.reset with strings := [(primaryString 1 3, { state := 6 }), (primaryString 3 1, { state := 6 })] }).2,
     { State.reset with strings := [(primaryString 1 3, { state := 6 }), (primaryString 3 1, { state := 6 })] },
     by decide +kernel⟩,
   ⟨85, mkFrame (withLink (mkHdr opCTRL 1 3 0 0 0 false) 85 0 0xFF 0 0) (fitBytes 64 ([1, 1] ++ leBytes 2 (primaryString 3 1)
     ++ [3])), fitBytes 64 ([1, 1] ++ leBytes 2 (primaryString 3 1) ++ [3]), (receiveCtrl 85 1 (mkFrame (withLink (mkHdr
     opCTRL 1 3 0 0 0 false) 85 0 0xFF 0 0) (fitBytes 64 ([1, 1] ++ leBytes 2 (primaryString 3 1) ++ [3])))
     { State.reset with strings := [(primaryString 1 3, { state := 6 }), (primaryString 3 1, { state := 6 })] }).2,
     { State.reset with strings := [(primaryString 1 3, { state := 6 }), (primaryString 3 1, { state := 6 })] },
     by decide +kernel⟩,
   ⟨30, { State.reset with strings := [(primaryString 1 3, { state := 6 }), (primaryString 3 1, { state := 6 })] },
     by decide +kernel⟩,
   ⟨30, State.reset, by decide +kernel⟩,
   ⟨85, { hdr := 0, payload := [], crc := 0 }, State.reset, State.reset, by decide +kernel⟩,
   ⟨85, mkFrame (withLink (mkHdr opCTRL 1 3 0 0 0 false) 85 0 0xFF 0 0) (fitBytes 64 [2, 1]), fitBytes 64 [2, 1],
     (receiveCtrl 85 2 (mkFrame (withLink (mkHdr opCTRL 1 3 0 0 0 false) 85 0 0xFF 0 0) (fitBytes 64 [2, 1]))
     { State.reset with strings := [(primaryString 1 3, { state := 6 }), (primaryString 3 1, { state := 6 })] }).2,
     { State.reset with strings := [(primaryString 1 3, { state := 6 }), (primaryString 3 1, { state := 6 })] },
     by decide +kernel⟩,
   ⟨85, mkFrame (withLink (mkHdr opCTRL 1 3 0 0 0 false) 85 0 0xFF 0 0) (fitBytes 64 ([2, 1] ++ leBytes 2 (primaryString 3 1)
     ++ [3])), fitBytes 64 ([2, 1] ++ leBytes 2 (primaryString 3 1) ++ [3]), (receiveCtrl 85 2 (mkFrame (withLink (mkHdr
     opCTRL 1 3 0 0 0 false) 85 0 0xFF 0 0) (fitBytes 64 ([2, 1] ++ leBytes 2 (primaryString 3 1) ++ [3])))
     { State.reset with strings := [(primaryString 1 3, { state := 6 }), (primaryString 3 1, { state := 6 })] }).2,
     (noteCredits 30 (fitBytes 64 ([2, 1] ++ leBytes 2 (primaryString 3 1) ++ [3])) (receiveCtrl 85 2 (mkFrame (withLink
     (mkHdr opCTRL 1 3 0 0 0 false) 85 0 0xFF 0 0) (fitBytes 64 ([2, 1] ++ leBytes 2 (primaryString 3 1) ++ [3])))
     { State.reset with strings := [(primaryString 1 3, { state := 6 }), (primaryString 3 1, { state := 6 })] }).2).setStr 30
     { (noteCredits 30 (fitBytes 64 ([2, 1] ++ leBytes 2 (primaryString 3 1) ++ [3])) (receiveCtrl 85 2 (mkFrame (withLink (mkHdr opCTRL 1 3 0 0 0 false) 85 0 0xFF 0 0) (fitBytes 64 ([2, 1] ++ leBytes 2 (primaryString 3 1) ++ [3]))) { State.reset with strings := [(primaryString 1 3, { state := 6 }), (primaryString 3 1, { state := 6 })] }).2).str 30 with acceptGot := true },
     { State.reset with strings := [(primaryString 1 3, { state := 6 }), (primaryString 3 1, { state := 6 })] },
     by decide +kernel⟩,
   ⟨85, mkFrame (withLink (mkHdr opCTRL 1 3 0 0 0 false) 85 0 0xFF 0 0) (fitBytes 64 ([2, 1] ++ leBytes 2 (primaryString 3 1)
     ++ [3])), fitBytes 64 ([2, 1] ++ leBytes 2 (primaryString 3 1) ++ [3]), (receiveCtrl 85 2 (mkFrame (withLink (mkHdr
     opCTRL 1 3 0 0 0 false) 85 0 0xFF 0 0) (fitBytes 64 ([2, 1] ++ leBytes 2 (primaryString 3 1) ++ [3])))
     { State.reset with strings := [(primaryString 1 3, { state := 6, acceptSent := true, lanes := (List.range 17).map (fun l => (l, { usable := true })) }), (primaryString 3 1, { state := 6, acceptSent := true, acceptGot := true, lanes := (List.range 17).map (fun l => (l, { usable := true })) })] }).2,
     (noteCredits 30 (fitBytes 64 ([2, 1] ++ leBytes 2 (primaryString 3 1) ++ [3])) (receiveCtrl 85 2 (mkFrame (withLink
     (mkHdr opCTRL 1 3 0 0 0 false) 85 0 0xFF 0 0) (fitBytes 64 ([2, 1] ++ leBytes 2 (primaryString 3 1) ++ [3])))
     { State.reset with strings := [(primaryString 1 3, { state := 6, acceptSent := true, lanes := (List.range 17).map (fun l => (l, { usable := true })) }), (primaryString 3 1, { state := 6, acceptSent := true, acceptGot := true, lanes := (List.range 17).map (fun l => (l, { usable := true })) })] }).2).setStr
     30 { (noteCredits 30 (fitBytes 64 ([2, 1] ++ leBytes 2 (primaryString 3 1) ++ [3])) (receiveCtrl 85 2 (mkFrame (withLink (mkHdr opCTRL 1 3 0 0 0 false) 85 0 0xFF 0 0) (fitBytes 64 ([2, 1] ++ leBytes 2 (primaryString 3 1) ++ [3]))) { State.reset with strings := [(primaryString 1 3, { state := 6, acceptSent := true, lanes := (List.range 17).map (fun l => (l, { usable := true })) }), (primaryString 3 1, { state := 6, acceptSent := true, acceptGot := true, lanes := (List.range 17).map (fun l => (l, { usable := true })) })] }).2).str 30 with acceptGot := true },
     { State.reset with strings := [(primaryString 1 3, { state := 6, acceptSent := true, lanes := (List.range 17).map (fun l => (l, { usable := true })) }), (primaryString 3 1, { state := 6, acceptSent := true, acceptGot := true, lanes := (List.range 17).map (fun l => (l, { usable := true })) })] },
     by decide +kernel⟩,
   ⟨30, { State.reset with strings := [(primaryString 1 3, { state := 6, acceptSent := true, lanes := (List.range 17).map (fun l => (l, { usable := true })) }), (primaryString 3 1, { state := 6, acceptSent := true, acceptGot := true, lanes := (List.range 17).map (fun l => (l, { usable := true })) })] },
     by decide +kernel⟩,
   ⟨85, { hdr := 0, payload := [], crc := 0 }, State.reset, State.reset, by decide +kernel⟩,
   ⟨85, mkFrame (withLink (mkHdr opCTRL 1 3 0 0 0 false) 85 0 0xFF 0 0) (fitBytes 64 [3, 0, 9]), fitBytes 64 [3, 0, 9],
     (receiveCtrl 85 3 (mkFrame (withLink (mkHdr opCTRL 1 3 0 0 0 false) 85 0 0xFF 0 0) (fitBytes 64 [3, 0, 9]))
     { State.reset with strings := [(primaryString 1 3, { state := 0 }), (primaryString 3 1, { state := 0 })] }).2,
     { State.reset with strings := [(primaryString 1 3, { state := 0 }), (primaryString 3 1, { state := 0 })] },
     by decide +kernel⟩,
   ⟨85, mkFrame (withLink (mkHdr opCTRL 1 3 0 0 0 false) 85 0 0xFF 0 0) (fitBytes 64 [3, 0, 9]), fitBytes 64 [3, 0, 9],
     (receiveCtrl 85 3 (mkFrame (withLink (mkHdr opCTRL 1 3 0 0 0 false) 85 0 0xFF 0 0) (fitBytes 64 [3, 0, 9]))
     { State.reset with strings := [(primaryString 1 3, { state := 0, newMap := some (9, (List.range 17).map (fun _ => 0)) }), (primaryString 3 1, { state := 0 })] }).2,
     { State.reset with strings := [(primaryString 1 3, { state := 0, newMap := some (9, (List.range 17).map (fun _ => 0)) }), (primaryString 3 1, { state := 0 })] },
     by decide +kernel⟩,
   ⟨85, 65, [1, 0], { State.reset with strings := [(primaryString 3 1, { count := 65, newMap := some (65, [1, 0]), announced := true })] },
     by decide +kernel⟩,
   ⟨85, State.reset, Or.inl (by decide +kernel)⟩,
   ⟨85, { hdr := 0, payload := [], crc := 0 }, State.reset, State.reset, by decide +kernel⟩,
   ⟨85, mkFrame (withLink (mkHdr opCTRL 1 3 0 0 0 false) 85 0 0xFF 0 0) (fitBytes 64 [4, 0x41]), fitBytes 64 [4, 0x41],
     (receiveCtrl 85 4 (mkFrame (withLink (mkHdr opCTRL 1 3 0 0 0 false) 85 0 0xFF 0 0) (fitBytes 64 [4, 0x41]))
     { State.reset with strings := [(primaryString 1 3, { state := 0 }), (primaryString 3 1, { state := 0 })] }).2,
     { State.reset with strings := [(primaryString 1 3, { state := 0 }), (primaryString 3 1, { state := 0 })] },
     by decide +kernel⟩,
   ⟨85, { hdr := 0, payload := [], crc := 0 }, State.reset, State.reset, by decide +kernel⟩,
   ⟨85, mkFrame (withLink (mkHdr opCTRL 1 3 0 0 0 false) 85 0 0xFF 0 0) (fitBytes 64 [5, 40]), fitBytes 64 [5, 40],
     (receiveCtrl 85 5 (mkFrame (withLink (mkHdr opCTRL 1 3 0 0 0 false) 85 0 0xFF 0 0) (fitBytes 64 [5, 40]))
     { State.reset with strings := [(primaryString 1 3, { state := 0 }), (primaryString 3 1, { state := 0 })] }).2,
     { State.reset with strings := [(primaryString 1 3, { state := 0 }), (primaryString 3 1, { state := 0 })] },
     by decide +kernel⟩,
   ⟨85, mkFrame (withLink (mkHdr opCTRL 1 3 0 0 0 false) 85 0 0xFF 0 0) (fitBytes 64 [5, 40]), fitBytes 64 [5, 40],
     (receiveCtrl 85 5 (mkFrame (withLink (mkHdr opCTRL 1 3 0 0 0 false) 85 0 0xFF 0 0) (fitBytes 64 [5, 40]))
     { State.reset with strings := [(primaryString 1 3, { state := 0, echo := some 40 }), (primaryString 3 1, { state := 0 })] }).2,
     { State.reset with strings := [(primaryString 1 3, { state := 0, echo := some 40 }), (primaryString 3 1, { state := 0 })] },
     by decide +kernel⟩⟩

/-- The hypotheses of each clause of LinkRecovery can be met. -/
theorem witness_LinkRecovery :
    (∃ (n : StringId) (q : Byte) (f : TxFrame) (rest : List (Byte × TxFrame)) (s : State), ((s.str n.val).unacked = (q, f) ::
      rest) ∧ ((s.str n.val).state ≤ 2) ∧ (suspended s n.val = false) ∧ ((s.str n.val).resend.any (fun x => x.1 == q) =
      false) ∧ (f.sent + 200 ≤ s.beat) ∧ ((s.str n.val).timeouts ≠ 7)) ∧
    (∃ (n : StringId) (q : Byte) (f : TxFrame) (rest : List (Byte × TxFrame)) (s : State), ((s.str n.val).unacked = (q, f) ::
      rest) ∧ ((s.str n.val).state ≤ 2) ∧ (suspended s n.val = false) ∧ ((s.str n.val).resend.any (fun x => x.1 == q) =
      false) ∧ (f.sent + 200 ≤ s.beat) ∧ ((s.str n.val).timeouts = 7)) ∧
    (∃ (n : StringId) (s : State), ((s.str n.val).unacked = [] ∨ 2 < (s.str n.val).state ∨ suspended s n.val = true ∨ (∀ x ∈
      (s.str n.val).unacked.head?, (s.str n.val).resend.any (fun y => y.1 == x.1) = true ∨ s.beat < x.2.sent + 200))) ∧
    (∃ (n : Nat) (s : State), (s.str n).state ≠ 4) ∧
    (∃ (n : StringId) (s : State), ((s.str n.val).state ≤ 2 ∧ isBus n.val = false ∧ suspended s n.val = false)) ∧
    (∃ (n : StringId) (s : State), (¬((s.str n.val).state ≤ 2 ∧ isBus n.val = false ∧ suspended s n.val = false))) ∧
    (∃ (n : StringId) (lanes : List LaneMeas) (s : State), (isBus n.val = false) ∧ ((s.tile (stringEnds n.val).1).state ≠ 2)
      ∧ ((s.tile (stringEnds n.val).2).state ≠ 2) ∧ ((s.str n.val).state = 4) ∧ (13 ≤ (usableLines ((measureString n.val
      lanes s).str n.val)).length)) ∧
    (∃ (n : StringId) (lanes : List LaneMeas) (s : State), (isBus n.val = false) ∧ ((s.tile (stringEnds n.val).1).state ≠ 2)
      ∧ ((s.tile (stringEnds n.val).2).state ≠ 2) ∧ ((s.str n.val).state = 4) ∧ ((usableLines ((measureString n.val lanes
      s).str n.val)).length < 13)) ∧
    (∃ (n : StringId) (m : LaneMeas) (s : State), (isBus n.val = false) ∧ ((s.tile (stringEnds n.val).1).state ≠ 2) ∧
      ((s.tile (stringEnds n.val).2).state ≠ 2) ∧ ((s.str n.val).state ≤ 2) ∧ (m.string = n.val) ∧ (m.line < 17) ∧ ((tget {}
      m.line (s.str n.val).lanes).usable = false) ∧ ((tget {} m.line ((measureLane s m).str n.val).lanes).usable = true)) ∧
    (∃ (n : StringId) (lanes : List LaneMeas) (s : State), (isBus n.val = false) ∧ ((s.tile (stringEnds n.val).1).state ≠ 2)
      ∧ ((s.tile (stringEnds n.val).2).state ≠ 2) ∧ ((s.str n.val).state ≤ 2)) ∧
    (∃ (n : StringId) (lanes : List LaneMeas) (s : State), (isBus n.val = true ∨ (s.tile (stringEnds n.val).1).state = 2 ∨
      (s.tile (stringEnds n.val).2).state = 2 ∨ (s.str n.val).state = 3 ∨ 4 < (s.str n.val).state)) ∧
    (∃ (n : StringId) (s : State), ((((s.str n.val).state = 4 ∧ ∃ b ∈ (s.str n.val).frozenAt, b + 10000000 < s.beat) ∨
      (((s.str n.val).state = 4 ∨ (s.str n.val).state = 6) ∧ ∃ b ∈ (s.str n.val).resetAt, b + 10000000 ≤ s.beat)))) ∧
    (∃ (n : StringId) (s : State), (¬(((s.str n.val).state = 4 ∧ ∃ b ∈ (s.str n.val).frozenAt, b + 10000000 < s.beat) ∨
      (((s.str n.val).state = 4 ∨ (s.str n.val).state = 6) ∧ ∃ b ∈ (s.str n.val).resetAt, b + 10000000 ≤ s.beat)))) ∧
    (∃ (n : StringId) (lanes : List LaneMeas) (s : State), (isBus n.val = false) ∧ ((s.str n.val).state = 3 ∨ (s.str
      n.val).state = 5) ∧ ((s.str n.val).checked + 60000000000 ≤ s.beat ∨ (s.domain (stringDomain n.val)).abrupt = true) ∧
      (lit s n.val = true) ∧ (¬(s.sounding.state = 1 ∧ s.sounding.string = n.val)) ∧ (13 ≤ (usableLines ((measureString n.val
      lanes s).str n.val)).length)) ∧
    (∃ (n : StringId) (lanes : List LaneMeas) (s : State), (isBus n.val = false) ∧ ((s.str n.val).state = 3 ∨ (s.str
      n.val).state = 5) ∧ ((s.str n.val).checked + 60000000000 ≤ s.beat ∨ (s.domain (stringDomain n.val)).abrupt = true) ∧
      (lit s n.val = true) ∧ (¬(s.sounding.state = 1 ∧ s.sounding.string = n.val)) ∧ ((usableLines ((measureString n.val
      lanes s).str n.val)).length < 13)) ∧
    (∃ (n : StringId) (lanes : List LaneMeas) (s : State), (isBus n.val = true ∨ ((s.str n.val).state ≠ 3 ∧ (s.str
      n.val).state ≠ 5) ∨ ¬((s.str n.val).checked + 60000000000 ≤ s.beat ∨ (s.domain (stringDomain n.val)).abrupt = true) ∨
      lit s n.val = false ∨ (s.sounding.state = 1 ∧ s.sounding.string = n.val))) ∧
    (∃ (site : SiteId) (s : State), ((s.tile site.val).state = 1) ∧ ((siteStrings site.val).all (fun n => (s.str
      n).unacked.isEmpty) = true)) ∧
    (∃ (site : SiteId) (s : State), ((s.tile site.val).state ≠ 1 ∨ (siteStrings site.val).all (fun n => (s.str
      n).unacked.isEmpty) = false)) ∧
    (∃ (site : SiteId) (s : State), ((s.tile site.val).state ≠ 2) ∧ (s.dev.started = true)) ∧
    (∃ (site : SiteId) (s : State), ((s.tile site.val).state = 2 ∨ s.dev.started = false)) ∧
    (∃ (site : SiteId) (s : State), ((s.tile site.val).state = 2)) ∧
    (∃ (site : SiteId) (s : State), ((s.tile site.val).state ≠ 2)) :=
  ⟨⟨30, 4, { hdr := mkHdr opWRITE 3 1 63 0 (2 ^ 22) false, payload := fitBytes 64 [7] }, [],
    { State.reset with beat := 200, strings := [(primaryString 1 3, { state := 0, unacked := [(4, { hdr := mkHdr opWRITE 3 1 63 0 (2 ^ 22) false, payload := fitBytes 64 [7] })], timeouts := 6 })] },
    by decide +kernel⟩,
   ⟨30, 4, { hdr := mkHdr opWRITE 3 1 63 0 (2 ^ 22) false, payload := fitBytes 64 [7] }, [],
     { State.reset with beat := 200, strings := [(primaryString 1 3, { state := 0, unacked := [(4, { hdr := mkHdr opWRITE 3 1 63 0 (2 ^ 22) false, payload := fitBytes 64 [7] })], timeouts := 7 })] },
     by decide +kernel⟩,
   ⟨30, State.reset, by decide +kernel⟩,
   ⟨30, State.reset, by decide +kernel⟩,
   ⟨30, { State.reset with beat := 200, strings := [(primaryString 1 3, { state := 0, unacked := [(4, { hdr := mkHdr opWRITE 3 1 63 0 (2 ^ 22) false, payload := fitBytes 64 [7] })], timeouts := 0 })] },
     by decide +kernel⟩,
   ⟨30, State.reset, by decide +kernel⟩,
   ⟨30, [], { State.reset with strings := [(primaryString 1 3, { state := 4, lanes := (List.range 17).map (fun l => (l, { usable := true })) })] },
     by decide +kernel⟩,
   ⟨30, [], { State.reset with strings := [(primaryString 1 3, { state := 4 })] }, by decide +kernel⟩,
   ⟨30, { string := 30, line := 2, rx := 0, eye := 20, margin := 100, latency := 9 },
     { State.reset with strings := [(primaryString 1 3, { state := 0, pegs := [(pegKey 2 0, { state := 3 }), (pegKey 2 1, { state := 3 })] })] },
     by decide +kernel⟩,
   ⟨30, [], { State.reset with beat := 200, strings := [(primaryString 1 3, { state := 0, unacked := [(4, { hdr := mkHdr opWRITE 3 1 63 0 (2 ^ 22) false, payload := fitBytes 64 [7] })], timeouts := 0 })] },
     by decide +kernel⟩,
   ⟨30, [], State.reset, by decide +kernel⟩,
   ⟨30, { State.reset with beat := 10000001, strings := [(primaryString 1 3, { state := 4, frozenAt := some 0 })] }, Or.inl
     ⟨by decide +kernel, 0, by decide +kernel⟩⟩,
   ⟨30, State.reset, fun h => by rcases h with h | h <;> exact absurd h.1 (by decide +kernel)⟩,
   ⟨30, [], { State.reset with beat := 60000000000, strings := [(primaryString 1 3, { state := 3, lanes := (List.range 17).map (fun l => (l, { usable := true })) })], domains := (List.range 8).map (fun d => (d, { source := 0 })) },
     by decide +kernel⟩,
   ⟨30, [], { State.reset with beat := 60000000000, strings := [(primaryString 1 3, { state := 3 })], domains := (List.range 8).map (fun d => (d, { source := 0 })) },
     by decide +kernel⟩,
   ⟨30, [], { State.reset with beat := 200, strings := [(primaryString 1 3, { state := 0, unacked := [(4, { hdr := mkHdr opWRITE 3 1 63 0 (2 ^ 22) false, payload := fitBytes 64 [7] })], timeouts := 0 })] },
     by decide +kernel⟩,
   ⟨3, { State.reset with tiles := [(3, { state := 1 })], strings := [(primaryString 1 3, { state := 0 })] },
     by decide +kernel⟩,
   ⟨3, State.reset, by decide +kernel⟩,
   ⟨3, { State.reset with dev := { started := true }, strings := [(primaryString 1 3, { state := 0 })] }, by decide +kernel⟩,
   ⟨3, State.reset, by decide +kernel⟩,
   ⟨3, { State.reset with tiles := [(3, { state := 2 })], strings := [(primaryString 1 3, { state := 4 })] },
     by decide +kernel⟩,
   ⟨3, State.reset, by decide +kernel⟩⟩

/-- The hypotheses of each clause of MarginsAndBuses can be met. -/
theorem witness_MarginsAndBuses :
    (∃ (s : State), (s.dev.state = 2 ∧ s.dev.started = true ∧ s.dev.marginRun = 0 ∧ s.harps.any (fun (p : Nat × Harp) =>
      p.2.role == 3 || p.2.role == 7) = false)) ∧
    (∃ (s : State), (s.dev.marginRun = 3 ∧ s.domains.any (fun (p : Nat × Domain) => 1 ≤ p.2.state && p.2.state ≤ 4) = false))
      ∧
    (∃ (s : State), (¬(s.dev.state = 2 ∧ s.dev.started = true ∧ s.dev.marginRun = 0 ∧ s.harps.any (fun (p : Nat × Harp) =>
      p.2.role == 3 || p.2.role == 7) = false)) ∧ (¬(s.dev.marginRun = 3 ∧ s.domains.any (fun (p : Nat × Domain) => 1 ≤
      p.2.state && p.2.state ≤ 4) = false))) ∧
    (∃ (lanes : List LaneMeas) (s : State), (s.dev.marginRun = 1 ∨ s.dev.marginRun = 2)) ∧
    (∃ (m : LaneMeas) (s : State), (s.dev.marginRun = 1 ∨ s.dev.marginRun = 2) ∧ (m.string < 1126) ∧ (m.line < 17)) ∧
    (∃ (lanes : List LaneMeas) (s : State), (¬(s.dev.marginRun = 1 ∨ s.dev.marginRun = 2))) ∧
    (∃ (n : StringId) (line : LineId) (rx est : Int) (s : State), ((tget {} line.val (s.str n.val).lanes).usable = true) ∧
      ((s.str n.val).state ≤ 2 ∨ isBus n.val = true) ∧ (est = (tget {} line.val (s.str n.val).lanes).testMargin - 10 * ((tget
      {} line.val (s.str n.val).lanes).testRx - rx)) ∧ (100 ≤ est ∨ ((s.domain (stringDomain n.val)).state ≠ 0 ∧ 100 ≤ est +
      (s.domain (stringDomain n.val)).fall.getD line.val 0))) ∧
    (∃ (n : StringId) (line : LineId) (rx est : Int) (u : State) (s : State), ((tget {} line.val (s.str n.val).lanes).usable
      = true) ∧ ((s.str n.val).state ≤ 2 ∨ isBus n.val = true) ∧ (est = (tget {} line.val (s.str n.val).lanes).testMargin -
      10 * ((tget {} line.val (s.str n.val).lanes).testRx - rx)) ∧ (est < 100) ∧ (¬((s.domain (stringDomain n.val)).state ≠ 0
      ∧ 100 ≤ est + (s.domain (stringDomain n.val)).fall.getD line.val 0)) ∧ (u = s.setStr n.val
      { (s.str n.val) with lanes := tset line.val { (tget {} line.val (s.str n.val).lanes) with rx, margin := est } (s.str n.val).lanes }))
      ∧
    (∃ (n : StringId) (line : LineId) (rx : Int) (s : State), ((tget {} line.val (s.str n.val).lanes).usable = false ∨ (2 <
      (s.str n.val).state ∧ isBus n.val = false))) ∧
    (∃ (n : StringId) (tap : SiteId) (f : Frame) (s : State), (¬(isBus n.val = true ∧ busTap n.val tap.val = true ∧ (hOp
      f.hdr = opBCAST ∨ frameOk n.val f = false)))) ∧
    (∃ (n : StringId) (tap : SiteId) (f g : Frame) (u : State) (s : State), (isBus n.val = true ∧ busTap n.val tap.val = true
      ∧ (hOp f.hdr = opBCAST ∨ frameOk n.val f = false)) ∧ (injectRx n.val f s = (g, u)) ∧ ((frameOk n.val g = false ∨ hDest
      g.hdr ≠ hSrc g.hdr ∨ hSrc g.hdr ≠ (stringEnds n.val).1))) ∧
    (∃ (n : StringId) (tap : SiteId) (f g : Frame) (u : State) (s : State), (isBus n.val = true ∧ busTap n.val tap.val = true
      ∧ (hOp f.hdr = opBCAST ∨ frameOk n.val f = false)) ∧ (injectRx n.val f s = (g, u)) ∧ (¬(frameOk n.val g = false ∨ hDest
      g.hdr ≠ hSrc g.hdr ∨ hSrc g.hdr ≠ (stringEnds n.val).1)) ∧ (leAt g.payload 0 1 ≠ 1 ∧ leAt g.payload 0 1 ≠ 2)) ∧
    (∃ (n : StringId) (tap : SiteId) (f g : Frame) (u : State) (s : State), (isBus n.val = true ∧ busTap n.val tap.val = true
      ∧ (hOp f.hdr = opBCAST ∨ frameOk n.val f = false)) ∧ (injectRx n.val f s = (g, u)) ∧ (¬(frameOk n.val g = false ∨ hDest
      g.hdr ≠ hSrc g.hdr ∨ hSrc g.hdr ≠ (stringEnds n.val).1)) ∧ (leAt g.payload 0 1 = 2 ∨ (leAt g.payload 0 1 = 1 ∧ (siteDie
      tap.val = none ∨ siteDie (stringEnds n.val).1 = none)))) ∧
    (∃ (n : StringId) (tap : SiteId) (f g : Frame) (u : State) (d src : Nat) (s : State), (isBus n.val = true ∧ busTap n.val
      tap.val = true ∧ (hOp f.hdr = opBCAST ∨ frameOk n.val f = false)) ∧ (injectRx n.val f s = (g, u)) ∧ (¬(frameOk n.val g
      = false ∨ hDest g.hdr ≠ hSrc g.hdr ∨ hSrc g.hdr ≠ (stringEnds n.val).1)) ∧ (leAt g.payload 0 1 = 1) ∧ (siteDie tap.val
      = some d) ∧ (siteDie (stringEnds n.val).1 = some src)) ∧
    (∃ src i j : Nat, src < 16 ∧ i < 4 ∧ j < 4) ∧
    (∃ (n : Nat) (s : State), (s.str n).inject.mode ≠ 1) ∧
    (∃ (n : StringId) (d : Nat) (s : State), (isBus n.val = true) ∧ (s.powered = true) ∧ (siteDie (stringEnds n.val).1 = some
      d) ∧ (dieUp s d = true)) ∧
    (∃ (n : StringId) (s : State), (isBus n.val = true) ∧ (s.powered = true)) ∧
    (∃ (n : StringId) (kind : Byte) (s : State), (isBus n.val = false ∨ s.powered = false ∨ (kind ≠ 1 ∧ kind ≠ 2) ∨ (kind = 1
      ∧ ∀ d ∈ siteDie (stringEnds n.val).1, dieUp s d = false))) :=
  ⟨⟨{ State.reset with dev := { state := 2, started := true } }, by decide +kernel⟩,
   ⟨{ State.reset with dev := { marginRun := 3 } }, by decide +kernel⟩,
   ⟨State.reset, by decide +kernel⟩,
   ⟨[], { State.reset with dev := { marginRun := 2 } }, by decide +kernel⟩,
   ⟨{ string := 1, line := 16, rx := 0, eye := 20, margin := 100, latency := 9 },
     { State.reset with dev := { marginRun := 1 } }, by decide +kernel⟩,
   ⟨[], State.reset, by decide +kernel⟩,
   ⟨30, 3, 0, 100, { State.reset with strings := [(primaryString 1 3, { state := 0, lanes := [(3, { usable := true, testMargin := 100 })] })] },
     by decide +kernel⟩,
   ⟨30, 3, -1, 90, State.setStr { State.reset with strings := [(primaryString 1 3, { state := 0, lanes := [(3, { usable := true, testMargin := 100 })] })] }
     30 { state := 0, lanes := [(3, { usable := true, testMargin := 100, rx := -1, margin := 90 })] },
     { State.reset with strings := [(primaryString 1 3, { state := 0, lanes := [(3, { usable := true, testMargin := 100 })] })] },
     by decide +kernel⟩,
   ⟨30, 3, 0, State.reset, by decide +kernel⟩,
   ⟨30, 3, mkFrame (withLink (mkHdr opBCAST 1 1 63 0 0 false) 1077 0 0 0 0) [2, 2, 1], State.reset, by decide +kernel⟩,
   ⟨1077, 3, { hdr := 0, payload := [], crc := 0 }, { hdr := 0, payload := [], crc := 0 }, State.reset, State.reset,
     by decide +kernel⟩,
   ⟨1077, 3, mkFrame (withLink (mkHdr opBCAST 1 1 63 0 0 false) 1077 0 0 0 0) [9, 2, 1], mkFrame (withLink (mkHdr opBCAST 1 1
     63 0 0 false) 1077 0 0 0 0) [9, 2, 1], State.reset, State.reset, by decide +kernel⟩,
   ⟨1077, 3, mkFrame (withLink (mkHdr opBCAST 1 1 63 0 0 false) 1077 0 0 0 0) [2, 2, 1], mkFrame (withLink (mkHdr opBCAST 1 1
     63 0 0 false) 1077 0 0 0 0) [2, 2, 1], State.reset, State.reset, by decide +kernel⟩,
   ⟨1077, 3, mkFrame (withLink (mkHdr opBCAST 1 1 63 0 0 false) 1077 0 0 0 0) [1, 2, 1], mkFrame (withLink (mkHdr opBCAST 1 1
     63 0 0 false) 1077 0 0 0 0) [1, 2, 1], State.reset, 1, 0, State.reset, by decide +kernel⟩,
   ⟨0, 0, 0, by decide⟩,
   ⟨1077, State.reset, by decide +kernel⟩,
   ⟨1077, 0, { State.reset with dev := { state := 5 } }, by decide +kernel⟩,
   ⟨1101, { State.reset with dev := { state := 5 } }, by decide +kernel⟩,
   ⟨30, 1, State.reset, by decide +kernel⟩⟩

/-- The hypotheses of each clause of Cartridges can be met. -/
theorem witness_Cartridges :
    (∃ (slot : HarpSlot) (serial : W64) (hours : W32) (s : State), ((s.harp slot.val).role = 0)) ∧
    (∃ (slot : HarpSlot) (serial : W64) (hours : W32) (s : State), ((s.harp slot.val).role ≠ 0)) ∧
    (∃ (slot : HarpSlot) (lines : List HarpLine) (u : State) (s : State), ((s.harp slot.val).role = 3 ∨ (s.harp
      slot.val).role = 7) ∧ (assignedTo s slot.val = none) ∧ (u = s.setHarp slot.val
      { (s.harp slot.val) with power := lines.map (·.power), offset := lines.map (·.offset) }) ∧ (harpPasses lines = true) ∧
      (8 ≤ slot.val)) ∧
    (∃ (slot : HarpSlot) (lines : List HarpLine) (u : State) (s : State), ((s.harp slot.val).role = 3 ∨ (s.harp
      slot.val).role = 7) ∧ (assignedTo s slot.val = none) ∧ (u = s.setHarp slot.val
      { (s.harp slot.val) with power := lines.map (·.power), offset := lines.map (·.offset) }) ∧ (harpPasses lines = true) ∧
      (slot.val < 8) ∧ ((s.domain slot.val).source = 3) ∧ ((s.domain slot.val).target = none)) ∧
    (∃ (slot : HarpSlot) (lines : List HarpLine) (u : State) (k : Nat) (s : State), ((s.harp slot.val).role = 3 ∨ (s.harp
      slot.val).role = 7) ∧ (assignedTo s slot.val = none) ∧ (u = s.setHarp slot.val
      { (s.harp slot.val) with power := lines.map (·.power), offset := lines.map (·.offset) }) ∧ (harpPasses lines = true) ∧
      (slot.val < 8) ∧ ((s.domain slot.val).source = 3) ∧ ((s.domain slot.val).target = some k)) ∧
    (∃ (slot : HarpSlot) (lines : List HarpLine) (u : State) (s : State), ((s.harp slot.val).role = 3 ∨ (s.harp
      slot.val).role = 7) ∧ (assignedTo s slot.val = none) ∧ (u = s.setHarp slot.val
      { (s.harp slot.val) with power := lines.map (·.power), offset := lines.map (·.offset) }) ∧ (harpPasses lines = true) ∧
      (slot.val < 8) ∧ ((s.domain slot.val).source ≠ 3)) ∧
    (∃ (slot : HarpSlot) (lines : List HarpLine) (u : State) (s : State), ((s.harp slot.val).role = 3 ∨ (s.harp
      slot.val).role = 7) ∧ (assignedTo s slot.val = none) ∧ (u = s.setHarp slot.val
      { (s.harp slot.val) with power := lines.map (·.power), offset := lines.map (·.offset) }) ∧ (harpPasses lines = false) ∧
      (¬(slot.val < 8 ∧ (s.domain slot.val).source = 3 ∧ handoverOn s slot.val = false))) ∧
    (∃ (slot : HarpSlot) (lines : List HarpLine) (u : State) (s : State), ((s.harp slot.val).role = 3 ∨ (s.harp
      slot.val).role = 7) ∧ (assignedTo s slot.val = none) ∧ (u = s.setHarp slot.val
      { (s.harp slot.val) with power := lines.map (·.power), offset := lines.map (·.offset) }) ∧ (harpPasses lines = false) ∧
      (slot.val < 8 ∧ (s.domain slot.val).source = 3 ∧ handoverOn s slot.val = false)) ∧
    (∃ (slot : HarpSlot) (lines : List HarpLine) (s : State), (((s.harp slot.val).role ≠ 3 ∧ (s.harp slot.val).role ≠ 7) ∨
      assignedTo s slot.val ≠ none)) ∧
    (∃ (slot : HarpSlot) (s : State), ((s.harp slot.val).role ≠ 0) ∧ (fedBy s slot.val = none) ∧ (assignedTo s slot.val =
      none)) ∧
    (∃ (slot : HarpSlot) (u : State) (s : State), ((s.harp slot.val).role ≠ 0) ∧ (u = (match assignedTo s slot.val with
      | some d => if (s.domain d).state = 3 then newCartridge slot.val (s.setHarp slot.val {}) else requestSpare d
        ((newCartridge slot.val (s.setHarp slot.val {})).setDomain d
        { (newCartridge slot.val (s.setHarp slot.val {})).domain d with target := none })
      | none => newCartridge slot.val (s.setHarp slot.val {})))) ∧
    (∃ (slot : HarpSlot) (s : State), ((s.harp slot.val).role = 0)) ∧
    (∃ (slot : HarpSlot) (power : List Int) (s : State), ((s.harp slot.val).role ≠ 0) ∧ (power.length = 17) ∧ (fedBy s
      slot.val = none)) ∧
    (∃ (slot : HarpSlot) (power : List Int) (s : State), ((s.harp slot.val).role = 0 ∨ power.length ≠ 17)) ∧
    (∃ (slot : HarpSlot) (d : Nat) (power : List Int) (fall : List Int) (dm : Int) (now : List Bool) (lost : List Nat) (u v w
      x : State) (s : State), ((s.harp slot.val).role ≠ 0) ∧ (power.length = 17) ∧ (fedBy s slot.val = some d) ∧ (fall =
      (List.range 17).map (fun l => (s.domain d).ref.getD l 0 - power.getD l 0)) ∧ (dm = listMin 800 ((List.range 17).map
      (fun l => (s.domain d).base.getD l 800 - fall.getD l 0))) ∧ (now = (if (s.domain d).base.isEmpty then (s.domain
      d).crossed else crossings (domainThresholds s) (s.domain d).crossed dm)) ∧ (lost = (List.range 17).filter (fun l =>
      (s.harp slot.val).power.getD l 0 - power.getD l 0 > 300)) ∧ (u = (s.setHarp slot.val
      { (s.harp slot.val) with power, role := if (s.harp slot.val).role = 3 ∧ power.all (fun p => 2100 ≤ p && p ≤ 2200) then 7 else (s.harp slot.val).role }).setDomain
      d { s.domain d with fall, margin := dm, crossed := now, hourSum := (s.domain d).hourSum + listMax 0 fall, hourN := (s.domain d).hourN + 1, forced := (s.domain d).forced || now.getD 2 false })
      ∧ (v = (if now.getD 0 false && !(s.domain d).crossed.getD 0 false then logEvent (Obj.domainMarginD + d) 1 0 0xFF d
      (leBytes 2 (wrapTo 16 dm)) u else u)) ∧ (w = (if now.getD 1 false = true ∧ handoverOn v d = false ∧ (v.domain d).state
      ≠ 5 then requestSpare d v else v)) ∧ (x = settleHarp (if now.getD 3 false && !(s.domain d).crossed.getD 3 false then
      logEvent (Obj.handoverStateD + d) 1 0 0xFF d [] w else w))) ∧
    (∃ (slot : HarpSlot) (d : Nat) (power fall : List Int) (dm : Int) (now : List Bool) (s : State), ((s.harp slot.val).role
      ≠ 0) ∧ (power.length = 17) ∧ (fedBy s slot.val = some d) ∧ (fall = (List.range 17).map (fun l => (s.domain d).ref.getD
      l 0 - power.getD l 0)) ∧ (dm = listMin 800 ((List.range 17).map (fun l => (s.domain d).base.getD l 800 - fall.getD l
      0))) ∧ (now = (if (s.domain d).base.isEmpty then (s.domain d).crossed else crossings (domainThresholds s) (s.domain
      d).crossed dm))) ∧
    (∃ (d : DomainId) (s : State), ((s.domain d.val).hourN ≠ 0)) ∧
    (∃ (d : DomainId) (s : State), ((s.domain d.val).hourN = 0)) :=
  ⟨⟨9, 5, 6, { State.reset with dev := { state := 5 } }, by decide +kernel⟩,
   ⟨9, 5, 6, { State.reset with harps := [(9, { role := 3 })] }, by decide +kernel⟩,
   ⟨9, (List.replicate 17 { power := 2100, offset := 0, toneOk := true }), State.setHarp
     { State.reset with harps := [(9, { role := 3 })] } 9
     { role := 3, power := (List.replicate 17 { power := 2100, offset := 0, toneOk := true }).map (fun x : HarpLine => x.power), offset := (List.replicate 17 { power := 2100, offset := 0, toneOk := true }).map (fun x : HarpLine => x.offset) },
     { State.reset with harps := [(9, { role := 3 })] }, by decide +kernel⟩,
   ⟨3, (List.replicate 17 { power := 2100, offset := 0, toneOk := true }), State.setHarp
     { State.reset with harps := [(3, { role := 3 })] } 3
     { role := 3, power := (List.replicate 17 { power := 2100, offset := 0, toneOk := true }).map (fun x : HarpLine => x.power), offset := (List.replicate 17 { power := 2100, offset := 0, toneOk := true }).map (fun x : HarpLine => x.offset) },
     { State.reset with harps := [(3, { role := 3 })] }, by decide +kernel⟩,
   ⟨3, (List.replicate 17 { power := 2100, offset := 0, toneOk := true }), State.setHarp
     { State.reset with harps := [(3, { role := 3 })], domains := [(3, { source := 3, target := some 8 })] } 3
     { role := 3, power := (List.replicate 17 { power := 2100, offset := 0, toneOk := true }).map (fun x : HarpLine => x.power), offset := (List.replicate 17 { power := 2100, offset := 0, toneOk := true }).map (fun x : HarpLine => x.offset) },
     8, { State.reset with harps := [(3, { role := 3 })], domains := [(3, { source := 3, target := some 8 })] },
     by decide +kernel⟩,
   ⟨3, (List.replicate 17 { power := 2100, offset := 0, toneOk := true }), State.setHarp
     { State.reset with harps := [(3, { role := 3 })], domains := [(3, { source := 1 })] } 3
     { role := 3, power := (List.replicate 17 { power := 2100, offset := 0, toneOk := true }).map (fun x : HarpLine => x.power), offset := (List.replicate 17 { power := 2100, offset := 0, toneOk := true }).map (fun x : HarpLine => x.offset) },
     { State.reset with harps := [(3, { role := 3 })], domains := [(3, { source := 1 })] }, by decide +kernel⟩,
   ⟨9, ([] : List HarpLine), State.setHarp { State.reset with harps := [(9, { role := 3 })] } 9
     { role := 3, power := ([] : List HarpLine).map (fun x : HarpLine => x.power), offset := ([] : List HarpLine).map (fun x : HarpLine => x.offset) },
     { State.reset with harps := [(9, { role := 3 })] }, by decide +kernel⟩,
   ⟨3, ([] : List HarpLine), State.setHarp { State.reset with harps := [(3, { role := 3 })] } 3
     { role := 3, power := ([] : List HarpLine).map (fun x : HarpLine => x.power), offset := ([] : List HarpLine).map (fun x : HarpLine => x.offset) },
     { State.reset with harps := [(3, { role := 3 })] }, by decide +kernel⟩,
   ⟨3, [], State.reset, by decide +kernel⟩,
   ⟨9, { State.reset with harps := [(9, { role := 2 })] }, by decide +kernel⟩,
   ⟨9, newCartridge 9 (State.setHarp { State.reset with harps := [(9, { role := 2 })] } 9 {}),
     { State.reset with harps := [(9, { role := 2 })] }, by decide +kernel⟩,
   ⟨9, State.reset, by decide +kernel⟩,
   ⟨9, List.replicate 17 2000, { State.reset with harps := [(9, { role := 2 })] }, by decide +kernel⟩,
   ⟨9, [], State.reset, by decide +kernel⟩,
   ⟨3, 3, List.replicate 17 2000, _, _, _, _, _, _, _, _,
     { State.reset with harps := [(3, { role := 1 })], domains := [(3, { source := 0 })] }, by decide +kernel,
     by decide +kernel, by decide +kernel, rfl, rfl, rfl, rfl, rfl, rfl, rfl, rfl⟩,
   ⟨3, 3, List.replicate 17 2000, List.replicate 17 (-2000), 2800, [false, false, false, false],
     { State.reset with harps := [(3, { role := 1 })], domains := [(3, { source := 0 })] }, by decide +kernel⟩,
   ⟨3, { State.reset with domains := [(3, { hourN := 3, hourSum := 100 })] }, by decide +kernel⟩,
   ⟨3, State.reset, by decide +kernel⟩⟩

/-- The hypotheses of each clause of Handovers can be met. -/
theorem witness_Handovers :
    (∃ (slot : HarpSlot) (lines : List HarpLine) (d : Nat) (u : State) (s : State), (assignedTo s slot.val = some d) ∧
      ((s.domain d).state = 1 ∧ ((s.harp slot.val).role = 3 ∨ (s.harp slot.val).role = 7)) ∧ (u = s.setHarp slot.val
      { (s.harp slot.val) with power := lines.map (·.power), offset := lines.map (·.offset) }) ∧ (harpPasses lines = true)) ∧
    (∃ (slot : HarpSlot) (lines : List HarpLine) (d : Nat) (u : State) (s : State), (assignedTo s slot.val = some d) ∧
      ((s.domain d).state = 1 ∧ ((s.harp slot.val).role = 3 ∨ (s.harp slot.val).role = 7)) ∧ (u = s.setHarp slot.val
      { (s.harp slot.val) with power := lines.map (·.power), offset := lines.map (·.offset) }) ∧ (harpPasses lines = false))
      ∧
    (∃ (slot : HarpSlot) (lines : List HarpLine) (s : State), (∀ d ∈ assignedTo s slot.val, ¬((s.domain d).state = 1 ∧
      ((s.harp slot.val).role = 3 ∨ (s.harp slot.val).role = 7)))) ∧
    (∃ (d : DomainId) (u : State) (s : State), (holdReady s d.val = true) ∧ ((List.range 8).any (fun e => (s.domain e).state
      == 3 || (e < d.val && holdReady s e)) = false) ∧ (u = (domainStrings d.val).foldl (fun s n => s.setStr n
      { s.str n with held := true, turn := none, rotate := none }) (if s.sounding.state = 1 ∧ stringDomain s.sounding.string
      = d.val then abortSounding s else s))) ∧
    (∃ (d : DomainId) (s : State), (holdReady s d.val = true) ∧ ((List.range 8).any (fun e => (s.domain e).state == 3 || (e <
      d.val && holdReady s e)) = false) ∧ (¬(s.sounding.state = 1 ∧ stringDomain s.sounding.string = d.val))) ∧
    (∃ (d : DomainId) (s : State), (holdReady s d.val = false ∨ (List.range 8).any (fun e => (s.domain e).state == 3 || (e <
      d.val && holdReady s e)) = true)) ∧
    (∃ (d : DomainId) (s : State), (¬((s.domain d.val).lost = true ∧ ((s.domain d.val).state = 2 ∨ (s.domain d.val).state =
      4))) ∧ ((s.domain d.val).state = 3) ∧ ((s.domain d.val).switched = false) ∧ ((s.domain d.val).holdBeat + 1000 ≤
      s.beat)) ∧
    (∃ (d : DomainId) (u v : State) (s : State), ((s.domain d.val).lost = true) ∧ ((s.domain d.val).state = 2 ∨ (s.domain
      d.val).state = 4) ∧ (u = domainPegs d.val (fun p => { p with frozen := false }) (s.setDomain d.val
      { (s.domain d.val) with from_ := (s.domain d.val).source, source := (((s.domain d.val).target.map inputOf).getD 3) }))
      ∧ (v = ((domainStrings d.val).filter isBus).foldl (fun s n => s.setStr n (recheckRings (s.str n)))
      (((domainStrings d.val).filter (fun n => !isBus n && decide ((u.str n).state ≤ 2))).foldl (fun s n => retrain n s) u)))
        ∧
    (∃ (d : DomainId) (s : State), ((s.domain d.val).lost = true) ∧ ((s.domain d.val).state = 2 ∨ (s.domain d.val).state =
      4)) ∧
    (∃ (d : DomainId) (s : State), (¬((s.domain d.val).lost = true ∧ ((s.domain d.val).state = 2 ∨ (s.domain d.val).state =
      4))) ∧ ((s.domain d.val).state ≠ 3 ∨ (s.domain d.val).switched = true ∨ s.beat < (s.domain d.val).holdBeat + 1000)) ∧
    (∃ (d : DomainId) (u : State) (s : State), ((s.domain d.val).state = 3) ∧ ((s.domain d.val).switched = true) ∧
      (checksOver s d.val = true) ∧ (s.beat ≤ (s.domain d.val).holdBeat + 1000 * s.obj Obj.handoverHoldLimitUs) ∧ (u =
      domainPegs d.val (fun p => { p with frozen := false }) ((domainStrings d.val).foldl (fun s n => if (s.str n).held then
      releaseHold n s else s) s))) ∧
    (∃ (d : DomainId) (s : State), ((s.domain d.val).state = 3) ∧ ((s.domain d.val).switched = true) ∧ (checksOver s d.val =
      true) ∧ (s.beat ≤ (s.domain d.val).holdBeat + 1000 * s.obj Obj.handoverHoldLimitUs)) ∧
    (∃ (d : DomainId) (s : State), ((s.domain d.val).state ≠ 3 ∨ (s.domain d.val).switched = false ∨ checksOver s d.val =
      false ∨ (s.domain d.val).holdBeat + 1000 * s.obj Obj.handoverHoldLimitUs < s.beat)) ∧
    (∃ (d : DomainId) (s : State), ((s.domain d.val).state = 3) ∧ ((s.domain d.val).holdBeat + 1000 * s.obj
      Obj.handoverHoldLimitUs ≤ s.beat)) ∧
    (∃ (d : DomainId) (s : State), ((s.domain d.val).state ≠ 3 ∨ s.beat < (s.domain d.val).holdBeat + 1000 * s.obj
      Obj.handoverHoldLimitUs)) :=
  ⟨⟨8, (List.replicate 17 { power := 2100, offset := 0, toneOk := true }), 3, State.setHarp
    { State.reset with harps := [(8, { role := 3 })], domains := [(3, { state := 1, target := some 8 })] } 8
    { role := 3, power := (List.replicate 17 { power := 2100, offset := 0, toneOk := true }).map (fun x : HarpLine => x.power), offset := (List.replicate 17 { power := 2100, offset := 0, toneOk := true }).map (fun x : HarpLine => x.offset) },
    { State.reset with harps := [(8, { role := 3 })], domains := [(3, { state := 1, target := some 8 })] },
    by decide +kernel⟩,
   ⟨8, ([] : List HarpLine), 3, State.setHarp
     { State.reset with harps := [(8, { role := 3 })], domains := [(3, { state := 1, target := some 8 })] } 8
     { role := 3, power := ([] : List HarpLine).map (fun x : HarpLine => x.power), offset := ([] : List HarpLine).map (fun x : HarpLine => x.offset) },
     { State.reset with harps := [(8, { role := 3 })], domains := [(3, { state := 1, target := some 8 })] },
     by decide +kernel⟩,
   ⟨8, [], State.reset, by decide +kernel⟩,
   ⟨3, (domainStrings 3).foldl (fun s n => s.setStr n { s.str n with held := true, turn := none, rotate := none })
     { State.reset with domains := [(3, { state := 2, target := some 8 })] },
     { State.reset with domains := [(3, { state := 2, target := some 8 })] }, by decide +kernel⟩,
   ⟨3, { State.reset with domains := [(3, { state := 2, target := some 8 })] }, by decide +kernel⟩,
   ⟨3, State.reset, by decide +kernel⟩,
   ⟨3, { State.reset with beat := 1000, domains := [(3, { state := 3, target := some 8 })] }, by decide +kernel⟩,
   ⟨3, _, _, { State.reset with domains := [(3, { state := 2, target := some 8, abrupt := true, lost := true })], harps := [(8, { role := 4 })] },
     by decide +kernel, by decide +kernel, rfl, rfl⟩,
   ⟨3, { State.reset with domains := [(3, { state := 2, target := some 8, abrupt := true, lost := true })], harps := [(8, { role := 4 })] },
     by decide +kernel⟩,
   ⟨3, State.reset, by decide +kernel⟩,
   ⟨3, domainPegs 3 (fun p => { p with frozen := false }) ((domainStrings 3).foldl (fun s n => if (s.str n).held then
     releaseHold n s else s) { State.reset with domains := [(3, { state := 3, target := some 8, switched := true, source := 1 })], strings := [(11, { held := true, state := 0 })] }),
     { State.reset with domains := [(3, { state := 3, target := some 8, switched := true, source := 1 })], strings := [(11, { held := true, state := 0 })] },
     by decide +kernel⟩,
   ⟨3, { State.reset with domains := [(3, { state := 3, target := some 8, switched := true, source := 1 })], strings := [(11, { held := true, state := 0 })] },
     by decide +kernel⟩,
   ⟨3, State.reset, by decide +kernel⟩,
   ⟨3, { State.reset with beat := 1000000000, domains := [(3, { state := 3, target := some 8, switched := true, source := 1 })], strings := [(11, { held := true, state := 0 })] },
     by decide +kernel⟩,
   ⟨3, State.reset, by decide +kernel⟩⟩

/-- The hypotheses of each clause of PegsAndCalibration can be met. -/
theorem witness_PegsAndCalibration :
    (∃ (n : StringId) (line : LineId) (ring : Fin 5) (detuning : Int) (heater : W16) (s : State), ((((s.str n.val).peg
      line.val ring.val).frozen = false ∨ ((s.domain (stringDomain n.val)).state = 3 ∧ (s.domain (stringDomain
      n.val)).switched = true ∧ (s.domain (stringDomain n.val)).holdBeat + 41000 ≤ s.beat)) ∧ (((s.str n.val).peg line.val
      ring.val).state ≠ 5 ∨ 2 < (s.str n.val).state) ∧ ring.val < ringCount n.val) ∧ (((s.str n.val).peg line.val
      ring.val).state = 3) ∧ (detuning.natAbs ≤ pegLimit)) ∧
    (∃ (n : StringId) (line : LineId) (ring : Fin 5) (detuning : Int) (heater : W16) (s : State), ((((s.str n.val).peg
      line.val ring.val).frozen = false ∨ ((s.domain (stringDomain n.val)).state = 3 ∧ (s.domain (stringDomain
      n.val)).switched = true ∧ (s.domain (stringDomain n.val)).holdBeat + 41000 ≤ s.beat)) ∧ (((s.str n.val).peg line.val
      ring.val).state ≠ 5 ∨ 2 < (s.str n.val).state) ∧ ring.val < ringCount n.val) ∧ (((s.str n.val).peg line.val
      ring.val).state = 3) ∧ (pegLimit < detuning.natAbs) ∧ (((s.str n.val).peg line.val ring.val).beyond = 0 ∨ (s.str
      n.val).held = true)) ∧
    (∃ (n : StringId) (line : LineId) (ring : Fin 5) (detuning : Int) (heater : W16) (s : State), ((((s.str n.val).peg
      line.val ring.val).frozen = false ∨ ((s.domain (stringDomain n.val)).state = 3 ∧ (s.domain (stringDomain
      n.val)).switched = true ∧ (s.domain (stringDomain n.val)).holdBeat + 41000 ≤ s.beat)) ∧ (((s.str n.val).peg line.val
      ring.val).state ≠ 5 ∨ 2 < (s.str n.val).state) ∧ ring.val < ringCount n.val) ∧ (((s.str n.val).peg line.val
      ring.val).state = 3) ∧ (pegLimit < detuning.natAbs) ∧ (1 ≤ ((s.str n.val).peg line.val ring.val).beyond) ∧ ((s.str
      n.val).held = false)) ∧
    (∃ (n : StringId) (line : LineId) (ring : Fin 5) (detuning : Int) (heater : W16) (s : State), ((((s.str n.val).peg
      line.val ring.val).frozen = false ∨ ((s.domain (stringDomain n.val)).state = 3 ∧ (s.domain (stringDomain
      n.val)).switched = true ∧ (s.domain (stringDomain n.val)).holdBeat + 41000 ≤ s.beat)) ∧ (((s.str n.val).peg line.val
      ring.val).state ≠ 5 ∨ 2 < (s.str n.val).state) ∧ ring.val < ringCount n.val) ∧ ((((s.str n.val).peg line.val
      ring.val).state = 0 ∧ lit s n.val = true) ∨ ((s.str n.val).peg line.val ring.val).state = 5)) ∧
    (∃ (n : StringId) (line : LineId) (ring : Fin 5) (detuning : Int) (heater : W16) (s : State), ((((s.str n.val).peg
      line.val ring.val).frozen = false ∨ ((s.domain (stringDomain n.val)).state = 3 ∧ (s.domain (stringDomain
      n.val)).switched = true ∧ (s.domain (stringDomain n.val)).holdBeat + 41000 ≤ s.beat)) ∧ (((s.str n.val).peg line.val
      ring.val).state ≠ 5 ∨ 2 < (s.str n.val).state) ∧ ring.val < ringCount n.val) ∧ (¬((((s.str n.val).peg line.val
      ring.val).state = 0 ∧ lit s n.val = true) ∨ ((s.str n.val).peg line.val ring.val).state = 5)) ∧ (((s.str n.val).peg
      line.val ring.val).state ≠ 3)) ∧
    (∃ (n : StringId) (line : LineId) (ring : Fin 5) (detuning : Int) (heater : W16) (s : State), (¬((((s.str n.val).peg
      line.val ring.val).frozen = false ∨ ((s.domain (stringDomain n.val)).state = 3 ∧ (s.domain (stringDomain
      n.val)).switched = true ∧ (s.domain (stringDomain n.val)).holdBeat + 41000 ≤ s.beat)) ∧ (((s.str n.val).peg line.val
      ring.val).state ≠ 5 ∨ 2 < (s.str n.val).state) ∧ ring.val < ringCount n.val))) ∧
    (∃ (n : StringId) (line : LineId) (ring : Fin 5) (expected : Int) (tones : List Int) (s : State), (((s.str n.val).peg
      line.val ring.val).state = 2) ∧ (ring.val < ringCount n.val) ∧ (fretResult line.val expected tones = none)) ∧
    (∃ (n : StringId) (line : LineId) (ring : Fin 5) (expected : Int) (tones : List Int) (s : State), (((s.str n.val).peg
      line.val ring.val).state = 2) ∧ (ring.val < ringCount n.val) ∧ (fretResult line.val expected tones = none) ∧ ((∃ r, r <
      ringCount n.val ∧ r ≠ ring.val ∧ ((s.str n.val).peg line.val r).state ≠ 3))) ∧
    (∃ (n : StringId) (line : LineId) (ring : Fin 5) (expected : Int) (tones : List Int) (u v : State) (s : State), (((s.str
      n.val).peg line.val ring.val).state = 2) ∧ (ring.val < ringCount n.val) ∧ (fretResult line.val expected tones = some
      0xFF) ∧ (u = countLog Obj.fretFailures 1 0 (stringEnds n.val).2 n.val (leBytes 1 line.val) (setPeg n.val line.val
      ring.val { ((s.str n.val).peg line.val ring.val) with state := 5, fret := 0xFF } s)) ∧ (v = u.setStr n.val
      { u.str n.val with rotate := if (u.str n.val).rotate = some line.val then none else (u.str n.val).rotate })) ∧
    (∃ (n : StringId) (line : LineId) (ring : Fin 5) (expected : Int) (tones : List Int) (l : Nat) (u v : State) (s : State),
      (((s.str n.val).peg line.val ring.val).state = 2) ∧ (ring.val < ringCount n.val) ∧ (fretResult line.val expected tones
      = some l) ∧ (l ≠ 0xFF) ∧ (((s.str n.val).peg line.val ring.val).cold = true) ∧ (u = setPeg n.val line.val ring.val
      { ((s.str n.val).peg line.val ring.val) with state := 1, fret := l } (s.count Obj.fretFailures 1)) ∧ (v = u.setStr
      n.val { u.str n.val with rotate := if (u.str n.val).rotate = some line.val then none else (u.str n.val).rotate })) ∧
    (∃ (n : StringId) (line : LineId) (ring : Fin 5) (expected : Int) (tones : List Int) (l : Nat) (u v : State) (s : State),
      (((s.str n.val).peg line.val ring.val).state = 2) ∧ (ring.val < ringCount n.val) ∧ (fretResult line.val expected tones
      = some l) ∧ (l ≠ 0xFF) ∧ (((s.str n.val).peg line.val ring.val).cold = false) ∧ (u = setPeg n.val line.val ring.val
      { ((s.str n.val).peg line.val ring.val) with state := if ((s.str n.val).peg line.val ring.val).steps = 4 then 5 else 2, steps := min (((s.str n.val).peg line.val ring.val).steps + 1) 4, fret := l, toward := if ((s.str n.val).peg line.val ring.val).steps = 4 then ((s.str n.val).peg line.val ring.val).toward else ((s.str n.val).peg line.val ring.val).toward + (if l < line.val then 1 else -1) }
      (countLog Obj.wrongLineLocks 1 0 (stringEnds n.val).2 n.val (leBytes 1 line.val ++ leBytes 1 l) (s.count
      Obj.fretFailures 1))) ∧ (v = u.setStr n.val
      { u.str n.val with rotate := if (u.str n.val).rotate = some line.val then none else (u.str n.val).rotate })) ∧
    (∃ (n : StringId) (line : LineId) (ring : Fin 5) (expected : Int) (tones : List Int) (s : State), (((s.str n.val).peg
      line.val ring.val).state ≠ 2 ∨ ringCount n.val ≤ ring.val)) ∧
    (∃ (n : StringId) (line : LineId) (s : State), (s.obj Obj.calEnable = 1 ∧ isBus n.val = false ∧ (s.str n.val).state = 0 ∧
      (s.str n.val).turn = none ∧ (s.str n.val).rotate = none ∧ (s.str n.val).newMap = none ∧ (s.str n.val).map.getD 16 0x1F
      = line.val ∧ (s.domain (stringDomain n.val)).state = 0 ∧ ((s.str n.val).turnBeat + 1000000000 * s.obj
      Obj.calTurnIntervalS ≤ s.beat ∨ 10 * s.obj Obj.calTempTriggerC < (tileTemp s (stringEnds n.val).1 - (tget {} line.val
      (s.str n.val).lanes).calTx).natAbs ∨ 10 * s.obj Obj.calTempTriggerC < (tileTemp s (stringEnds n.val).2 - (tget {}
      line.val (s.str n.val).lanes).calRx).natAbs))) ∧
    (∃ (n : StringId) (line : LineId) (s : State), (¬(s.obj Obj.calEnable = 1 ∧ isBus n.val = false ∧ (s.str n.val).state = 0
      ∧ (s.str n.val).turn = none ∧ (s.str n.val).rotate = none ∧ (s.str n.val).newMap = none ∧ (s.str n.val).map.getD 16
      0x1F = line.val ∧ (s.domain (stringDomain n.val)).state = 0 ∧ ((s.str n.val).turnBeat + 1000000000 * s.obj
      Obj.calTurnIntervalS ≤ s.beat ∨ 10 * s.obj Obj.calTempTriggerC < (tileTemp s (stringEnds n.val).1 - (tget {} line.val
      (s.str n.val).lanes).calTx).natAbs ∨ 10 * s.obj Obj.calTempTriggerC < (tileTemp s (stringEnds n.val).2 - (tget {}
      line.val (s.str n.val).lanes).calRx).natAbs)))) ∧
    (∃ (n : StringId) (first repeated : CalMeas) (line : Nat) (s : State), ((s.str n.val).turn = some line) ∧ (((first.margin
      - repeated.margin).natAbs ≤ s.obj Obj.calTolMargin ∧ (first.eye - repeated.eye).natAbs ≤ s.obj Obj.calTolEye))) ∧
    (∃ (n : StringId) (first repeated : CalMeas) (line : Nat) (u : State) (s : State), ((s.str n.val).turn = some line) ∧
      (¬((first.margin - repeated.margin).natAbs ≤ s.obj Obj.calTolMargin ∧ (first.eye - repeated.eye).natAbs ≤ s.obj
      Obj.calTolEye)) ∧ (u = s.setStr n.val
      { s.str n.val with turn := none, lanes := tset line { (tget {} line (s.str n.val).lanes) with refusals := (tget {} line (s.str n.val).lanes).refusals + 1 } (s.str n.val).lanes }))
      ∧
    (∃ (n : StringId) (first repeated : CalMeas) (s : State), ((s.str n.val).turn = none)) ∧
    (∃ (powers : List Int) (u : State) (s : State), (s.sounding.state = 1) ∧ (u =
      (({ s with sounding := { s.sounding with state := 2, points := powers.take (17 * (s.sounding.half + 1)) } } :
      State).setObj Obj.soundingPoints (17 * (s.sounding.half + 1))).count Obj.soundingRuns 1)) ∧
    (∃ (powers : List Int) (s : State), (s.sounding.state = 1)) ∧
    (∃ (powers : List Int) (s : State), (s.sounding.state ≠ 1)) :=
  ⟨⟨30, 3, 1, -80, 9, { State.reset with strings := [(30, { state := 0, pegs := [(pegKey 3 1, { state := 3 })] })] },
    by decide +kernel⟩,
   ⟨30, 3, 1, 81, 9, { State.reset with strings := [(30, { state := 0, pegs := [(pegKey 3 1, { state := 3 })] })] },
     by decide +kernel⟩,
   ⟨30, 3, 1, 81, 9, { State.reset with strings := [(30, { state := 0, pegs := [(pegKey 3 1, { state := 3, beyond := 1 })] })] },
     by decide +kernel⟩,
   ⟨30, 3, 1, 81, 9, { State.reset with strings := [(30, { state := 6, pegs := [(pegKey 3 1, { state := 5 })] })] },
     by decide +kernel⟩,
   ⟨30, 3, 1, 20, 9, { State.reset with strings := [(30, { state := 0, pegs := [(pegKey 3 1, { state := 1 })] })] },
     by decide +kernel⟩,
   ⟨30, 3, 4, 20, 9, State.reset, by decide +kernel⟩,
   ⟨30, 3, 1, 0, (List.range 17).map (fun l => if l = 3 then 0 else -900),
     { State.reset with strings := [(30, { state := 0, pegs := [(pegKey 3 1, { state := 2 })] })] }, by decide +kernel⟩,
   ⟨30, 3, 1, 0, (List.range 17).map (fun l => if l = 3 then 0 else -900),
     { State.reset with strings := [(30, { state := 0, pegs := [(pegKey 3 1, { state := 2 })] })] }, ⟨by decide +kernel,
     by decide +kernel, by decide +kernel, 0, by decide +kernel⟩⟩,
   ⟨30, 3, 1, 0, [], countLog Obj.fretFailures 1 0 (stringEnds 30).2 30 (leBytes 1 3) (setPeg 30 3 1
     { ((({ State.reset with strings := [(30, { state := 0, pegs := [(pegKey 3 1, { state := 2 })] })] }).str 30).peg 3 1) with state := 5, fret := 0xFF }
     ({ State.reset with strings := [(30, { state := 0, pegs := [(pegKey 3 1, { state := 2 })] })] })), (countLog
     Obj.fretFailures 1 0 (stringEnds 30).2 30 (leBytes 1 3) (setPeg 30 3 1
     { ((({ State.reset with strings := [(30, { state := 0, pegs := [(pegKey 3 1, { state := 2 })] })] }).str 30).peg 3 1) with state := 5, fret := 0xFF }
     ({ State.reset with strings := [(30, { state := 0, pegs := [(pegKey 3 1, { state := 2 })] })] }))).setStr 30
     { (countLog Obj.fretFailures 1 0 (stringEnds 30).2 30 (leBytes 1 3) (setPeg 30 3 1 { ((({ State.reset with strings := [(30, { state := 0, pegs := [(pegKey 3 1, { state := 2 })] })] }).str 30).peg 3 1) with state := 5, fret := 0xFF } ({ State.reset with strings := [(30, { state := 0, pegs := [(pegKey 3 1, { state := 2 })] })] }))).str 30 with rotate := if ((countLog Obj.fretFailures 1 0 (stringEnds 30).2 30 (leBytes 1 3) (setPeg 30 3 1 { ((({ State.reset with strings := [(30, { state := 0, pegs := [(pegKey 3 1, { state := 2 })] })] }).str 30).peg 3 1) with state := 5, fret := 0xFF } ({ State.reset with strings := [(30, { state := 0, pegs := [(pegKey 3 1, { state := 2 })] })] }))).str 30).rotate = some 3 then none else ((countLog Obj.fretFailures 1 0 (stringEnds 30).2 30 (leBytes 1 3) (setPeg 30 3 1 { ((({ State.reset with strings := [(30, { state := 0, pegs := [(pegKey 3 1, { state := 2 })] })] }).str 30).peg 3 1) with state := 5, fret := 0xFF } ({ State.reset with strings := [(30, { state := 0, pegs := [(pegKey 3 1, { state := 2 })] })] }))).str 30).rotate },
     { State.reset with strings := [(30, { state := 0, pegs := [(pegKey 3 1, { state := 2 })] })] }, by decide +kernel⟩,
   ⟨30, 3, 1, 0, (List.range 17).map (fun l => if l = 5 then 0 else -900), 5, setPeg 30 3 1
     { ((({ State.reset with strings := [(30, { state := 0, pegs := [(pegKey 3 1, { state := 2, cold := true })] })] }).str 30).peg 3 1) with state := 1, fret := 5 }
     (({ State.reset with strings := [(30, { state := 0, pegs := [(pegKey 3 1, { state := 2, cold := true })] })] }).count
     Obj.fretFailures 1), (setPeg 30 3 1
     { ((({ State.reset with strings := [(30, { state := 0, pegs := [(pegKey 3 1, { state := 2, cold := true })] })] }).str 30).peg 3 1) with state := 1, fret := 5 }
     (({ State.reset with strings := [(30, { state := 0, pegs := [(pegKey 3 1, { state := 2, cold := true })] })] }).count
     Obj.fretFailures 1)).setStr 30 { (setPeg 30 3 1 { ((({ State.reset with strings := [(30, { state := 0, pegs := [(pegKey 3 1, { state := 2, cold := true })] })] }).str 30).peg 3 1) with state := 1, fret := 5 } (({ State.reset with strings := [(30, { state := 0, pegs := [(pegKey 3 1, { state := 2, cold := true })] })] }).count Obj.fretFailures 1)).str 30 with rotate := if ((setPeg 30 3 1 { ((({ State.reset with strings := [(30, { state := 0, pegs := [(pegKey 3 1, { state := 2, cold := true })] })] }).str 30).peg 3 1) with state := 1, fret := 5 } (({ State.reset with strings := [(30, { state := 0, pegs := [(pegKey 3 1, { state := 2, cold := true })] })] }).count Obj.fretFailures 1)).str 30).rotate = some 3 then none else ((setPeg 30 3 1 { ((({ State.reset with strings := [(30, { state := 0, pegs := [(pegKey 3 1, { state := 2, cold := true })] })] }).str 30).peg 3 1) with state := 1, fret := 5 } (({ State.reset with strings := [(30, { state := 0, pegs := [(pegKey 3 1, { state := 2, cold := true })] })] }).count Obj.fretFailures 1)).str 30).rotate },
     { State.reset with strings := [(30, { state := 0, pegs := [(pegKey 3 1, { state := 2, cold := true })] })] },
     by decide +kernel⟩,
   ⟨30, 3, 1, 0, (List.range 17).map (fun l => if l = 5 then 0 else -900), 5, setPeg 30 3 1
     { ((({ State.reset with strings := [(30, { state := 0, pegs := [(pegKey 3 1, { state := 2, cold := false })] })] }).str 30).peg 3 1) with state := if ((({ State.reset with strings := [(30, { state := 0, pegs := [(pegKey 3 1, { state := 2, cold := false })] })] }).str 30).peg 3 1).steps = 4 then 5 else 2, steps := min (((({ State.reset with strings := [(30, { state := 0, pegs := [(pegKey 3 1, { state := 2, cold := false })] })] }).str 30).peg 3 1).steps + 1) 4, fret := 5, toward := if ((({ State.reset with strings := [(30, { state := 0, pegs := [(pegKey 3 1, { state := 2, cold := false })] })] }).str 30).peg 3 1).steps = 4 then ((({ State.reset with strings := [(30, { state := 0, pegs := [(pegKey 3 1, { state := 2, cold := false })] })] }).str 30).peg 3 1).toward else ((({ State.reset with strings := [(30, { state := 0, pegs := [(pegKey 3 1, { state := 2, cold := false })] })] }).str 30).peg 3 1).toward + (if 5 < 3 then 1 else -1) }
     (countLog Obj.wrongLineLocks 1 0 (stringEnds 30).2 30 (leBytes 1 3 ++ leBytes 1 5)
     (({ State.reset with strings := [(30, { state := 0, pegs := [(pegKey 3 1, { state := 2, cold := false })] })] }).count
     Obj.fretFailures 1)), (setPeg 30 3 1
     { ((({ State.reset with strings := [(30, { state := 0, pegs := [(pegKey 3 1, { state := 2, cold := false })] })] }).str 30).peg 3 1) with state := if ((({ State.reset with strings := [(30, { state := 0, pegs := [(pegKey 3 1, { state := 2, cold := false })] })] }).str 30).peg 3 1).steps = 4 then 5 else 2, steps := min (((({ State.reset with strings := [(30, { state := 0, pegs := [(pegKey 3 1, { state := 2, cold := false })] })] }).str 30).peg 3 1).steps + 1) 4, fret := 5, toward := if ((({ State.reset with strings := [(30, { state := 0, pegs := [(pegKey 3 1, { state := 2, cold := false })] })] }).str 30).peg 3 1).steps = 4 then ((({ State.reset with strings := [(30, { state := 0, pegs := [(pegKey 3 1, { state := 2, cold := false })] })] }).str 30).peg 3 1).toward else ((({ State.reset with strings := [(30, { state := 0, pegs := [(pegKey 3 1, { state := 2, cold := false })] })] }).str 30).peg 3 1).toward + (if 5 < 3 then 1 else -1) }
     (countLog Obj.wrongLineLocks 1 0 (stringEnds 30).2 30 (leBytes 1 3 ++ leBytes 1 5)
     (({ State.reset with strings := [(30, { state := 0, pegs := [(pegKey 3 1, { state := 2, cold := false })] })] }).count
     Obj.fretFailures 1))).setStr 30 { (setPeg 30 3 1 { ((({ State.reset with strings := [(30, { state := 0, pegs := [(pegKey 3 1, { state := 2, cold := false })] })] }).str 30).peg 3 1) with state := if ((({ State.reset with strings := [(30, { state := 0, pegs := [(pegKey 3 1, { state := 2, cold := false })] })] }).str 30).peg 3 1).steps = 4 then 5 else 2, steps := min (((({ State.reset with strings := [(30, { state := 0, pegs := [(pegKey 3 1, { state := 2, cold := false })] })] }).str 30).peg 3 1).steps + 1) 4, fret := 5, toward := if ((({ State.reset with strings := [(30, { state := 0, pegs := [(pegKey 3 1, { state := 2, cold := false })] })] }).str 30).peg 3 1).steps = 4 then ((({ State.reset with strings := [(30, { state := 0, pegs := [(pegKey 3 1, { state := 2, cold := false })] })] }).str 30).peg 3 1).toward else ((({ State.reset with strings := [(30, { state := 0, pegs := [(pegKey 3 1, { state := 2, cold := false })] })] }).str 30).peg 3 1).toward + (if 5 < 3 then 1 else -1) } (countLog Obj.wrongLineLocks 1 0 (stringEnds 30).2 30 (leBytes 1 3 ++ leBytes 1 5) (({ State.reset with strings := [(30, { state := 0, pegs := [(pegKey 3 1, { state := 2, cold := false })] })] }).count Obj.fretFailures 1))).str 30 with rotate := if ((setPeg 30 3 1 { ((({ State.reset with strings := [(30, { state := 0, pegs := [(pegKey 3 1, { state := 2, cold := false })] })] }).str 30).peg 3 1) with state := if ((({ State.reset with strings := [(30, { state := 0, pegs := [(pegKey 3 1, { state := 2, cold := false })] })] }).str 30).peg 3 1).steps = 4 then 5 else 2, steps := min (((({ State.reset with strings := [(30, { state := 0, pegs := [(pegKey 3 1, { state := 2, cold := false })] })] }).str 30).peg 3 1).steps + 1) 4, fret := 5, toward := if ((({ State.reset with strings := [(30, { state := 0, pegs := [(pegKey 3 1, { state := 2, cold := false })] })] }).str 30).peg 3 1).steps = 4 then ((({ State.reset with strings := [(30, { state := 0, pegs := [(pegKey 3 1, { state := 2, cold := false })] })] }).str 30).peg 3 1).toward else ((({ State.reset with strings := [(30, { state := 0, pegs := [(pegKey 3 1, { state := 2, cold := false })] })] }).str 30).peg 3 1).toward + (if 5 < 3 then 1 else -1) } (countLog Obj.wrongLineLocks 1 0 (stringEnds 30).2 30 (leBytes 1 3 ++ leBytes 1 5) (({ State.reset with strings := [(30, { state := 0, pegs := [(pegKey 3 1, { state := 2, cold := false })] })] }).count Obj.fretFailures 1))).str 30).rotate = some 3 then none else ((setPeg 30 3 1 { ((({ State.reset with strings := [(30, { state := 0, pegs := [(pegKey 3 1, { state := 2, cold := false })] })] }).str 30).peg 3 1) with state := if ((({ State.reset with strings := [(30, { state := 0, pegs := [(pegKey 3 1, { state := 2, cold := false })] })] }).str 30).peg 3 1).steps = 4 then 5 else 2, steps := min (((({ State.reset with strings := [(30, { state := 0, pegs := [(pegKey 3 1, { state := 2, cold := false })] })] }).str 30).peg 3 1).steps + 1) 4, fret := 5, toward := if ((({ State.reset with strings := [(30, { state := 0, pegs := [(pegKey 3 1, { state := 2, cold := false })] })] }).str 30).peg 3 1).steps = 4 then ((({ State.reset with strings := [(30, { state := 0, pegs := [(pegKey 3 1, { state := 2, cold := false })] })] }).str 30).peg 3 1).toward else ((({ State.reset with strings := [(30, { state := 0, pegs := [(pegKey 3 1, { state := 2, cold := false })] })] }).str 30).peg 3 1).toward + (if 5 < 3 then 1 else -1) } (countLog Obj.wrongLineLocks 1 0 (stringEnds 30).2 30 (leBytes 1 3 ++ leBytes 1 5) (({ State.reset with strings := [(30, { state := 0, pegs := [(pegKey 3 1, { state := 2, cold := false })] })] }).count Obj.fretFailures 1))).str 30).rotate },
     { State.reset with strings := [(30, { state := 0, pegs := [(pegKey 3 1, { state := 2, cold := false })] })] },
     by decide +kernel⟩,
   ⟨30, 3, 1, 0, [], State.reset, by decide +kernel⟩,
   ⟨30, 16, { State.reset with beat := 10 ^ 15, strings := [(30, { state := 0, map := List.range 17 })] },
     by decide +kernel⟩,
   ⟨30, 16, State.reset, by decide +kernel⟩,
   ⟨30, { bias := 0, drop := 0, thresh := 0, deskew := 0, margin := 300, eye := 30 },
     { bias := 0, drop := 0, thresh := 0, deskew := 0, margin := 300, eye := 30 }, 16,
     { State.reset with strings := [(30, { state := 0, map := List.range 17, turn := some 16 })] }, by decide +kernel⟩,
   ⟨30, { bias := 0, drop := 0, thresh := 0, deskew := 0, margin := 300, eye := 30 },
     { bias := 0, drop := 0, thresh := 0, deskew := 0, margin := 900, eye := 30 }, 16, State.setStr
     { State.reset with strings := [(30, { state := 0, map := List.range 17, turn := some 16 })] } 30
     { state := 0, map := List.range 17, lanes := [(16, { refusals := 1 })] },
     { State.reset with strings := [(30, { state := 0, map := List.range 17, turn := some 16 })] }, by decide +kernel⟩,
   ⟨30, { bias := 0, drop := 0, thresh := 0, deskew := 0, margin := 300, eye := 30 },
     { bias := 0, drop := 0, thresh := 0, deskew := 0, margin := 300, eye := 30 }, State.reset, by decide +kernel⟩,
   ⟨[1, 2], _, { State.reset with sounding := { state := 1, string := 30 } }, by decide +kernel, rfl⟩,
   ⟨[1, 2], { State.reset with sounding := { state := 1, string := 30 } }, by decide +kernel⟩,
   ⟨[], State.reset, by decide +kernel⟩⟩

/-- The hypotheses of each clause of PortTraining can be met. -/
theorem witness_PortTraining :
    (∃ (p : PortId) (s : State), (portsPowered s = true) ∧ (portUsed s p.val = true) ∧ (s.obj (Obj.portEnableP + p.val) ≠ 0 ∧
      (s.thermDie (rimSite (portDir p.val)) 1).level ≠ 3 ∧ ((s.port p.val).state = 0 ∨ (s.port p.val).state = 5 ∨ (s.port
      p.val).retrainAt.isSome = true))) ∧
    (∃ (p : PortId) (s : State), (portsPowered s = false ∨ portUsed s p.val = false ∨ ¬(s.obj (Obj.portEnableP + p.val) ≠ 0 ∧
      (s.thermDie (rimSite (portDir p.val)) 1).level ≠ 3 ∧ ((s.port p.val).state = 0 ∨ (s.port p.val).state = 5 ∨ (s.port
      p.val).retrainAt.isSome = true)))) ∧
    (∃ (p : PortId) (s : State), (portsPowered s = true) ∧ (portUsed s p.val = true) ∧ ((s.port p.val).state ≠ 2 ∧ (s.port
      p.val).state ≠ 5 ∧ (s.port p.val).tried + 1000000000 ≤ s.beat)) ∧
    (∃ (p : PortId) (s : State), (portsPowered s = false ∨ portUsed s p.val = false ∨ ¬((s.port p.val).state ≠ 2 ∧ (s.port
      p.val).state ≠ 5 ∧ (s.port p.val).tried + 1000000000 ≤ s.beat))) ∧
    (∃ (p : PortId) (r : TrainRec) (s : State), ((s.port p.val).state = 1) ∧ (¬(r.level = 0 ∨ 1 < r.lowest)) ∧
      (rightNeighbour s p.val r = true)) ∧
    (∃ (p : PortId) (r : TrainRec) (s : State), ((s.port p.val).state = 1) ∧ (r.level = 0 ∨ 1 < r.lowest)) ∧
    (∃ (p : PortId) (r : TrainRec) (s : State), ((s.port p.val).state = 1) ∧ (¬(r.level = 0 ∨ 1 < r.lowest)) ∧
      (rightNeighbour s p.val r = false)) ∧
    (∃ (p : PortId) (r : TrainRec) (u : State) (s : State), ((s.port p.val).state = 2) ∧ (u = retrainPort p.val s) ∧
      (¬(r.level = 0 ∨ 1 < r.lowest)) ∧ (rightNeighbour s p.val r = true)) ∧
    (∃ (p : PortId) (r : TrainRec) (u : State) (s : State), ((s.port p.val).state = 2) ∧ (u = retrainPort p.val s) ∧ (r.level
      = 0 ∨ 1 < r.lowest ∨ rightNeighbour s p.val r = false)) ∧
    (∃ (p : PortId) (r : TrainRec) (s : State), ((s.port p.val).state ≠ 1 ∧ (s.port p.val).state ≠ 2)) ∧
    (∃ (p : Nat) (s : State), (s.port p).state ≠ 1) ∧
    (∃ (p : PortId) (r : TrainRec) (s : State), ((s.port p.val).state = 1) ∧ (r.agreed = 1) ∧ (rightNeighbour s p.val r =
      true) ∧ ((s.port p.val).acceptSent = false)) ∧
    (∃ (p : PortId) (r : TrainRec) (s : State), ((s.port p.val).state = 1) ∧ (r.agreed = 1) ∧ (rightNeighbour s p.val r =
      true) ∧ ((s.port p.val).acceptSent = true) ∧ ((s.port p.val).retrainAt = none)) ∧
    (∃ (p : PortId) (r : TrainRec) (s : State), ((s.port p.val).state = 1) ∧ (r.agreed = 1) ∧ (rightNeighbour s p.val r =
      true) ∧ ((s.port p.val).acceptSent = true) ∧ ((s.port p.val).retrainAt ≠ none)) ∧
    (∃ (p : PortId) (r : TrainRec) (s : State), ((s.port p.val).state ≠ 1 ∨ r.agreed ≠ 1 ∨ rightNeighbour s p.val r = false))
      ∧
    (∃ (p : PortId) (beat : W64) (s : State), ((s.port p.val).state = 2) ∧ ((s.port p.val).echo = some beat.toNat) ∧
      (beat.toNat ≤ s.beat)) ∧
    (∃ (p : PortId) (beat : W64) (s : State), ((s.port p.val).state = 2)) ∧
    (∃ (p : PortId) (beat : W64) (own : Bool) (s : State), ((s.port p.val).state ≠ 2 ∨ (own = true ∧ ((s.port p.val).echo ≠
      some beat.toNat ∨ s.beat < beat.toNat)))) :=
  ⟨⟨0, (State.setObj { State.reset with dev := { state := 5 }, fabric := { width := 4, height := 4 } } Obj.portEnableP 1),
    by decide +kernel⟩,
   ⟨0, State.reset, by decide +kernel⟩,
   ⟨0, { State.reset with dev := { state := 5 }, fabric := { width := 4, height := 4 }, ports := [(0, { state := 4 })], beat := 1000000000 },
     by decide +kernel⟩,
   ⟨0, State.reset, by decide +kernel⟩,
   ⟨0, { agreed := 1, node := 1, port := 4, level := 1, lowest := 1, width := 4, height := 4, digest := 0 },
     { State.reset with dev := { state := 5 }, fabric := { width := 4, height := 4 }, ports := [(0, { state := 1 })] },
     by decide +kernel⟩,
   ⟨0, { agreed := 1, node := 1, port := 4, level := 2, lowest := 2, width := 4, height := 4, digest := 0 },
     { State.reset with dev := { state := 5 }, fabric := { width := 4, height := 4 }, ports := [(0, { state := 1 })] },
     by decide +kernel⟩,
   ⟨0, { agreed := 1, node := 2, port := 4, level := 1, lowest := 1, width := 4, height := 4, digest := 0 },
     { State.reset with dev := { state := 5 }, fabric := { width := 4, height := 4 }, ports := [(0, { state := 1 })] },
     by decide +kernel⟩,
   ⟨0, { agreed := 1, node := 1, port := 4, level := 1, lowest := 1, width := 4, height := 4, digest := 0 }, _,
     { State.reset with dev := { state := 5 }, fabric := { width := 4, height := 4 }, ports := [(0, { state := 2 })] },
     by decide +kernel, rfl, by decide +kernel, by decide +kernel⟩,
   ⟨0, { agreed := 1, node := 2, port := 4, level := 1, lowest := 1, width := 4, height := 4, digest := 0 }, _,
     { State.reset with dev := { state := 5 }, fabric := { width := 4, height := 4 }, ports := [(0, { state := 2 })] },
     by decide +kernel, rfl, by decide +kernel⟩,
   ⟨0, { agreed := 1, node := 1, port := 4, level := 1, lowest := 1, width := 4, height := 4, digest := 0 }, State.reset,
     by decide +kernel⟩,
   ⟨0, State.reset, by decide +kernel⟩,
   ⟨0, { agreed := 1, node := 1, port := 4, level := 1, lowest := 1, width := 4, height := 4, digest := 0 },
     { State.reset with dev := { state := 5 }, fabric := { width := 4, height := 4 }, ports := [(0, { state := 1 })] },
     by decide +kernel⟩,
   ⟨0, { agreed := 1, node := 1, port := 4, level := 1, lowest := 1, width := 4, height := 4, digest := 0 },
     { State.reset with dev := { state := 5 }, fabric := { width := 4, height := 4 }, ports := [(0, { state := 1, acceptSent := true })] },
     by decide +kernel⟩,
   ⟨0, { agreed := 1, node := 1, port := 4, level := 1, lowest := 1, width := 4, height := 4, digest := 0 },
     { State.reset with dev := { state := 5 }, fabric := { width := 4, height := 4 }, ports := [(0, { state := 1, acceptSent := true, retrainAt := some 0 })] },
     by decide +kernel⟩,
   ⟨0, { agreed := 1, node := 1, port := 4, level := 1, lowest := 1, width := 4, height := 4, digest := 0 }, State.reset,
     by decide +kernel⟩,
   ⟨0, 0, { State.reset with dev := { state := 5 }, fabric := { width := 4, height := 4 }, ports := [(0, { state := 2, echo := some 0 })] },
     by decide +kernel⟩,
   ⟨0, 7, { State.reset with dev := { state := 5 }, fabric := { width := 4, height := 4 }, ports := [(0, { state := 2 })] },
     by decide +kernel⟩,
   ⟨0, 7, true, State.reset, by decide +kernel⟩⟩

/-- The hypotheses of each clause of LinkBlocks can be met. -/
theorem witness_LinkBlocks :
    (∃ (p : PortId) (s : State), ((s.port p.val).state = 1) ∧ ((s.port p.val).offerGot = false)) ∧
    (∃ (p : PortId) (s : State), ((s.port p.val).state = 1) ∧ ((s.port p.val).offerGot = true) ∧ ((s.port p.val).acceptSent =
      false)) ∧
    (∃ (p : PortId) (s : State), ((s.port p.val).state = 1) ∧ ((s.port p.val).offerGot = true) ∧ ((s.port p.val).acceptSent =
      true)) ∧
    (∃ (p : PortId) (s : State), ((s.port p.val).state = 2) ∧ ((s.port p.val).skip = true ∧ (s.port p.val).even = true)) ∧
    (∃ (p : PortId) (a : BitVec 10) (rest : List (BitVec 10)) (s : State), ((s.port p.val).state = 2) ∧ (¬((s.port
      p.val).skip = true ∧ (s.port p.val).even = true)) ∧ (carries s = true) ∧ ((s.port p.val).resend = a :: rest)) ∧
    (∃ (p : Nat) (a : BitVec 10) (flits : Bytes) (x : BitVec 10 × Bytes × Nat) (s : State), (s.port p).unacked.find? (fun x
      => x.1 == a) = some (x.1, flits, x.2.2)) ∧
    (∃ (p : PortId) (c : Bytes) (r : List Bytes) (s : State), ((s.port p.val).state = 2) ∧ (¬((s.port p.val).skip = true ∧
      (s.port p.val).even = true)) ∧ ((carries s = false ∨ (s.port p.val).resend = [])) ∧ ((s.port p.val).ctrlq = c :: r)) ∧
    (∃ (p : PortId) (s : State), ((s.port p.val).state = 2) ∧ (¬((s.port p.val).skip = true ∧ (s.port p.val).even = true)) ∧
      ((carries s = false ∨ (s.port p.val).resend = [])) ∧ ((s.port p.val).ctrlq = []) ∧ ((s.port p.val).unacked.length < 512
      ∧ carries s = true ∧ ((s.port p.val).under.isSome = true ∨ (vcTurn (s.port p.val)).isSome = true))) ∧
    (∃ (p : PortId) (k : Packet) (b : Bytes) (s : State), ((s.port p.val).state = 2) ∧ (¬((s.port p.val).skip = true ∧
      (s.port p.val).even = true)) ∧ ((carries s = false ∨ (s.port p.val).resend = [])) ∧ ((s.port p.val).ctrlq = []) ∧
      ((s.port p.val).unacked.length < 512) ∧ (carries s = true) ∧ ((s.port p.val).under = some (k, b)) ∧ (256 < b.length) ∧
      ((s.port p.val).inject.mode ≠ 1)) ∧
    (∃ (p : PortId) (s : State), ((s.port p.val).state = 2) ∧ (¬((s.port p.val).skip = true ∧ (s.port p.val).even = true)) ∧
      ((carries s = false ∨ (s.port p.val).resend = [])) ∧ ((s.port p.val).ctrlq = []) ∧ (¬((s.port p.val).unacked.length <
      512 ∧ carries s = true ∧ ((s.port p.val).under.isSome = true ∨ (vcTurn (s.port p.val)).isSome = true)))) ∧
    (∃ (p : PortId) (s : State), ((s.port p.val).state ≠ 1 ∧ (s.port p.val).state ≠ 2)) ∧
    (∃ (p : PortId) (ctl : BitVec 80) (flits : Bytes) (s : State), ((s.port p.val).state = 2) ∧ ((s.port p.val).inject.mode ≠
      2 ∨ fieldAt ctl 0 2 ≠ 0) ∧ (fieldAt ctl 48 32 ≠ crc32c (leBytes 6 ctl.toNat ++ fitBytes 256 flits))) ∧
    (∃ (p : PortId) (ctl : BitVec 80) (flits : Bytes) (u : State) (s : State), ((s.port p.val).state = 2) ∧ ((s.port
      p.val).inject.mode ≠ 2 ∨ fieldAt ctl 0 2 ≠ 0) ∧ (fieldAt ctl 48 32 = crc32c (leBytes 6 ctl.toNat ++ fitBytes 256
      flits)) ∧ (u = blockCredit p.val (fieldAt ctl 22 3) (fieldAt ctl 25 12) (blockAck p.val (fieldAt ctl 12 10) (s.setPort
      p.val (s.port p.val)))) ∧ (fieldAt ctl 0 2 = 0 ∧ fieldAt ctl 2 10 = (u.port p.val).rxSeq.toNat ∧ carries u = true)) ∧
    (∃ (p : PortId) (ctl : BitVec 80) (flits : Bytes) (u : State) (s : State), ((s.port p.val).state = 2) ∧ ((s.port
      p.val).inject.mode ≠ 2 ∨ fieldAt ctl 0 2 ≠ 0) ∧ (fieldAt ctl 48 32 = crc32c (leBytes 6 ctl.toNat ++ fitBytes 256
      flits)) ∧ (u = blockCredit p.val (fieldAt ctl 22 3) (fieldAt ctl 25 12) (blockAck p.val (fieldAt ctl 12 10) (s.setPort
      p.val (s.port p.val)))) ∧ (¬(fieldAt ctl 0 2 = 0 ∧ fieldAt ctl 2 10 = (u.port p.val).rxSeq.toNat ∧ carries u = true)))
      ∧
    (∃ (p : PortId) (ctl : BitVec 80) (flits : Bytes) (hit : Bool) (s : State), ((s.port p.val).state = 2) ∧ ((s.port
      p.val).inject.mode = 2) ∧ (fieldAt ctl 0 2 = 0) ∧ (hit = ((injectUnit (s.port p.val).inject p.val 0).1 && (s.port
      p.val).inject.classes.testBit (arrivingClass (s.port p.val) (fitBytes 256 flits)))) ∧ (hit = true) ∧ (fieldAt
      (flipBlock ((injectUnit (s.port p.val).inject p.val 0).2.1 % 2128) ctl (fitBytes 256 flits)).1 48 32 ≠ crc32c (leBytes
      6 (flipBlock ((injectUnit (s.port p.val).inject p.val 0).2.1 % 2128) ctl (fitBytes 256 flits)).1.toNat ++ (flipBlock
      ((injectUnit (s.port p.val).inject p.val 0).2.1 % 2128) ctl (fitBytes 256 flits)).2))) ∧
    (∃ (p : PortId) (ctl : BitVec 80) (flits : Bytes) (u : State) (s : State), ((s.port p.val).state = 2) ∧ ((s.port
      p.val).inject.mode = 2) ∧ (fieldAt ctl 0 2 = 0) ∧ ((injectUnit (s.port p.val).inject p.val 0).1 = false ∨ (s.port
      p.val).inject.classes.testBit (arrivingClass (s.port p.val) (fitBytes 256 flits)) = false) ∧ (u = blockCredit p.val
      (fieldAt ctl 22 3) (fieldAt ctl 25 12) (blockAck p.val (fieldAt ctl 12 10) (s.setPort p.val
      { (s.port p.val) with inject := (injectUnit (s.port p.val).inject p.val 0).2.2 })))) ∧
    (∃ (p : PortId) (ctl : BitVec 80) (flits : Bytes) (s : State), ((s.port p.val).state ≠ 2)) ∧
    (∃ v : Nat, v < 4096) ∧
    (∃ (p : PortId) (a : BitVec 10) (flits : Bytes) (at_ : Nat) (rest : List (BitVec 10 × Bytes × Nat)) (s : State), ((s.port
      p.val).unacked = (a, flits, at_) :: rest) ∧ ((s.port p.val).state = 2) ∧ (carries s = true) ∧ ((s.port
      p.val).resend.contains a = false) ∧ (at_ + 2000 ≤ s.beat) ∧ ((s.port p.val).timeouts ≠ 7)) ∧
    (∃ (p : PortId) (a : BitVec 10) (flits : Bytes) (at_ : Nat) (rest : List (BitVec 10 × Bytes × Nat)) (s : State), ((s.port
      p.val).unacked = (a, flits, at_) :: rest) ∧ ((s.port p.val).state = 2) ∧ (carries s = true) ∧ ((s.port
      p.val).resend.contains a = false) ∧ (at_ + 2000 ≤ s.beat) ∧ ((s.port p.val).timeouts = 7)) ∧
    (∃ (p : PortId) (s : State), ((s.port p.val).unacked = [] ∨ (s.port p.val).state ≠ 2 ∨ carries s = false ∨ (∀ x ∈ (s.port
      p.val).unacked.head?, (s.port p.val).resend.contains x.1 = true ∨ s.beat < x.2.2 + 2000))) :=
  ⟨⟨0, { State.reset with dev := { state := 5 }, fabric := { width := 4, height := 4 }, ports := [(0, { state := 1, unreported := [2, 1] })] },
    by decide +kernel⟩,
   ⟨0, { State.reset with dev := { state := 5 }, fabric := { width := 4, height := 4 }, ports := [(0, { state := 1, offerGot := true, unreported := [2, 1] })] },
     by decide +kernel⟩,
   ⟨0, { State.reset with dev := { state := 5 }, fabric := { width := 4, height := 4 }, ports := [(0, { state := 1, offerGot := true, acceptSent := true })] },
     by decide +kernel⟩,
   ⟨0, { State.reset with dev := { state := 5 }, fabric := { width := 4, height := 4 }, ports := [(0, { state := 2, skip := true, even := true })] },
     by decide +kernel⟩,
   ⟨0, 3, [], { State.reset with dev := { state := 5 }, fabric := { width := 4, height := 4 }, ports := [(0, { state := 2, resend := [3], unacked := [(3, [], 0)] })] },
     by decide +kernel⟩,
   ⟨0, 3, [], (3, [], 0), { State.reset with dev := { state := 5 }, fabric := { width := 4, height := 4 }, ports := [(0, { state := 2, resend := [3], unacked := [(3, [], 0)] })] },
     by decide +kernel⟩,
   ⟨0, [4], [], { State.reset with dev := { state := 5 }, fabric := { width := 4, height := 4 }, ports := [(0, { state := 2, ctrlq := [[4]], unreported := [3] })] },
     by decide +kernel⟩,
   ⟨0, { State.reset with dev := { state := 5 }, fabric := { width := 4, height := 4 }, ports := [(0, { state := 2, under := some ({ hdr := 0, payload := [] }, List.replicate 257 1) })] },
     by decide +kernel⟩,
   ⟨0, { hdr := 0, payload := [] }, List.replicate 257 1,
     { State.reset with dev := { state := 5 }, fabric := { width := 4, height := 4 }, ports := [(0, { state := 2, under := some ({ hdr := 0, payload := [] }, List.replicate 257 1) })] },
     by decide +kernel⟩,
   ⟨0, { State.reset with dev := { state := 3 }, fabric := { width := 4, height := 4 }, ports := [(0, { state := 2 })] },
     by decide +kernel⟩,
   ⟨0, State.reset, by decide +kernel⟩,
   ⟨0, 0, [], { State.reset with dev := { state := 5 }, fabric := { width := 4, height := 4 }, ports := [(0, { state := 2 })] },
     by decide +kernel⟩,
   ⟨0, blockCtl 0 0 5 1 3 (fitBytes 256 []), [], _,
     { State.reset with dev := { state := 5 }, fabric := { width := 4, height := 4 }, ports := [(0, { state := 2 })] },
     by decide +kernel, by decide +kernel, by decide +kernel, rfl, by decide +kernel⟩,
   ⟨0, blockCtl 1 0 5 1 3 (fitBytes 256 []), [], _,
     { State.reset with dev := { state := 5 }, fabric := { width := 4, height := 4 }, ports := [(0, { state := 2 })] },
     by decide +kernel, by decide +kernel, by decide +kernel, rfl, by decide +kernel⟩,
   ⟨0, blockCtl 0 0 5 1 3 (fitBytes 256 []), [], _,
     { State.reset with dev := { state := 5 }, fabric := { width := 4, height := 4 }, ports := [(0, { state := 2, inject := { mode := 2, pattern := 1, rate := 0 } })] },
     by decide +kernel, by decide +kernel, by decide +kernel, rfl, by decide +kernel, by decide +kernel⟩,
   ⟨0, blockCtl 0 0 5 1 3 (fitBytes 256 []), [], _,
     { State.reset with dev := { state := 5 }, fabric := { width := 4, height := 4 }, ports := [(0, { state := 2, inject := { mode := 2, pattern := 1 } })] },
     by decide +kernel, by decide +kernel, by decide +kernel, by decide +kernel, rfl⟩,
   ⟨0, 0, [], State.reset, by decide +kernel⟩,
   ⟨4095, by decide⟩,
   ⟨0, 3, [], 0, [], { State.reset with dev := { state := 5 }, fabric := { width := 4, height := 4 }, ports := [(0, { state := 2, unacked := [(3, [], 0)], timeouts := 6 })], beat := 2000 },
     by decide +kernel⟩,
   ⟨0, 3, [], 0, [], { State.reset with dev := { state := 5 }, fabric := { width := 4, height := 4 }, ports := [(0, { state := 2, unacked := [(3, [], 0)], timeouts := 7 })], beat := 2000 },
     by decide +kernel⟩,
   ⟨0, State.reset, by decide +kernel⟩⟩

/-- The hypotheses of each clause of PacketRouting can be met. -/
theorem witness_PacketRouting :
    (∃ (p : PortId) (pkt : Packet) (rest : List Packet) (s : State), (tget [] (pkVc pkt.hdr) (s.port p.val).inq = pkt ::
      rest) ∧ (headerGood s pkt.hdr = false)) ∧
    (∃ (p : PortId) (pkt : Packet) (rest : List Packet) (s : State), (tget [] (pkVc pkt.hdr) (s.port p.val).inq = pkt ::
      rest) ∧ (headerGood s pkt.hdr = true) ∧ (straightOp pkt.hdr = false) ∧ (tableWay s pkt.hdr = .here)) ∧
    (∃ (p q : PortId) (pkt : Packet) (rest : List Packet) (s : State), (tget [] (pkVc pkt.hdr) (s.port p.val).inq = pkt ::
      rest) ∧ (headerGood s pkt.hdr = true) ∧ (straightOp pkt.hdr = false) ∧ (tableWay s pkt.hdr = .out q.val)) ∧
    (∃ (p : PortId) (pkt : Packet) (rest : List Packet) (s : State), (tget [] (pkVc pkt.hdr) (s.port p.val).inq = pkt ::
      rest) ∧ (headerGood s pkt.hdr = true) ∧ (straightOp pkt.hdr = false) ∧ (tableWay s pkt.hdr = .lost)) ∧
    (∃ (p : PortId) (pkt : Packet) (s : State), (takeIn p.val pkt s = none ∨ (headerGood s pkt.hdr = true ∧ straightOp
      pkt.hdr = true))) ∧
    (∃ (p : Nat) (s : State), (s.port p).inject.mode ≠ 3 ∧ (s.port p).inject.mode ≠ 4) ∧
    (∃ (p : PortId) (b : Nat) (s : State), ((s.port p.val).retrainAt = some b) ∧ ((s.port p.val).state ≠ 2) ∧ (b + 10000000 <
      s.beat) ∧ (heldPackets (s.port p.val) = [])) ∧
    (∃ (p : PortId) (b : Nat) (s : State), ((s.port p.val).retrainAt = some b) ∧ ((s.port p.val).state ≠ 2) ∧ (b + 10000000 <
      s.beat)) ∧
    (∃ (p : PortId) (s : State), ((s.port p.val).state = 2 ∨ (∀ b ∈ (s.port p.val).retrainAt, s.beat ≤ b + 10000000))) ∧
    (∃ (s : State), (s.fabric.rateBeat + 4000 ≤ s.beat)) ∧
    (∃ (s : State), (s.fabric.rateBeat + 4000 ≤ s.beat) ∧ (s.fabric.paced = [])) ∧
    (∃ (s : State), (s.beat < s.fabric.rateBeat + 4000)) :=
  ⟨⟨0, { hdr := 0, payload := [] }, [], { State.reset with dev := { state := 5 }, fabric := { width := 4, height := 4, banks := [(0, { tables := [(0, [4, 8])], member := 1 })], bankValid := [true, false] }, ports := [(0, { state := 2, inq := [(pkVc (0), [{ hdr := 0, payload := [] }])] })] },
    by decide +kernel⟩,
   ⟨0, { hdr := sealHeader (fabricHdr fLOAD 0 0 0 0 32 0 5 0 0 0), payload := [] }, [],
     { State.reset with dev := { state := 5 }, fabric := { width := 4, height := 4, banks := [(0, { tables := [(0, [4, 8])], member := 1 })], bankValid := [true, false] }, ports := [(0, { state := 2, inq := [(pkVc (sealHeader (fabricHdr fLOAD 0 0 0 0 32 0 5 0 0 0)), [{ hdr := sealHeader (fabricHdr fLOAD 0 0 0 0 32 0 5 0 0 0), payload := [] }])] })] },
     by decide +kernel⟩,
   ⟨0, 0, { hdr := sealHeader (fabricHdr fLOAD 1 0 0 0 32 0 5 0 0 0), payload := [] }, [],
     { State.reset with dev := { state := 5 }, fabric := { width := 4, height := 4, banks := [(0, { tables := [(0, [4, 8])], member := 1 })], bankValid := [true, false] }, ports := [(0, { state := 2, inq := [(pkVc (sealHeader (fabricHdr fLOAD 1 0 0 0 32 0 5 0 0 0)), [{ hdr := sealHeader (fabricHdr fLOAD 1 0 0 0 32 0 5 0 0 0), payload := [] }])] })] },
     by decide +kernel⟩,
   ⟨0, { hdr := sealHeader (fabricHdr fLOAD 0 0 0 0 32 0 5 0 0 0), payload := [] }, [],
     { State.reset with dev := { state := 5 }, fabric := { width := 4, height := 4, bankValid := [false, false] }, ports := [(0, { state := 2, inq := [(pkVc (sealHeader (fabricHdr fLOAD 0 0 0 0 32 0 5 0 0 0)), [{ hdr := sealHeader (fabricHdr fLOAD 0 0 0 0 32 0 5 0 0 0), payload := [] }])] })] },
     by decide +kernel⟩,
   ⟨0, { hdr := 0, payload := [] }, State.reset, by decide +kernel⟩,
   ⟨0, State.reset, by decide +kernel⟩,
   ⟨0, 0, { State.reset with dev := { state := 5 }, fabric := { width := 4, height := 4 }, ports := [(0, { state := 1, retrainAt := some 0 })], beat := 10000001 },
     by decide +kernel⟩,
   ⟨0, 0, { State.reset with dev := { state := 5 }, fabric := { width := 4, height := 4 }, ports := [(0, { state := 1, retrainAt := some 0 })], beat := 10000001 },
     by decide +kernel⟩,
   ⟨0, State.reset, by decide +kernel⟩,
   ⟨{ State.reset with beat := 4000, fabric := { rates := [{ dest := 1, rate := 250, tokens := 0, lastDec := 0, lastMark := 0, filled := 0, used := 0 }] } },
     by decide +kernel⟩,
   ⟨{ State.reset with beat := 4000, fabric := { rates := [{ dest := 1, rate := 250, tokens := 0, lastDec := 0, lastMark := 0, filled := 0, used := 0 }] } },
     by decide +kernel⟩,
   ⟨State.reset, by decide +kernel⟩⟩

/-- The hypotheses of each clause of RouteChange can be met. -/
theorem witness_RouteChange :
    (∃ (b : Nat) (u : State) (s : State), (s.fabric.activate = some b) ∧ (b ≤ s.beat ∧ s.fabric.bankValid.getD (1 -
      s.fabric.epoch) false = true ∧ s.obj Obj.routeActivateDigest = (inactiveDigest s).toNat) ∧ (u =
      { s with fabric := { s.fabric with epoch := 1 - s.fabric.epoch, drain := true, activate := none, began := b, round := 0, reports := [], excluded := [], zeroBeat := none, queried := s.beat, activated := [s.fabric.node], missed := [] } }))
      ∧
    (∃ (s : State), (∀ b ∈ s.fabric.activate, ¬(b ≤ s.beat ∧ s.fabric.bankValid.getD (1 - s.fabric.epoch) false = true ∧
      s.obj Obj.routeActivateDigest = (inactiveDigest s).toNat))) ∧
    (∃ (round : Nat) (u v : State) (s : State), (s.fabric.drain = true ∧ s.fabric.coord = s.fabric.node ∧ s.fabric.began +
      20000 ≤ s.beat ∧ (s.fabric.round = 0 ∨ s.fabric.roundBeat + 20000 ≤ s.beat)) ∧ (round = (s.fabric.round + 1) % 65536) ∧
      (u = { s with fabric := { s.fabric with round, roundBeat := s.beat, queried := s.beat, reports := [(s.fabric.node, ownReport s (1 - s.fabric.epoch))] } })
      ∧ (v = ((activeMembers u).filter (fun m => m != s.fabric.node.toNat && !s.fabric.excluded.contains (BitVec.ofNat 16
      m))).foldl (fun x m => routeControl fQUERY m round x) u)) ∧
    (∃ (s : State), (¬(s.fabric.drain = true ∧ s.fabric.coord = s.fabric.node ∧ s.fabric.began + 20000 ≤ s.beat ∧
      (s.fabric.round = 0 ∨ s.fabric.roundBeat + 20000 ≤ s.beat)))) ∧
    (∃ (op : Nat) (k : Packet), pkOp k.hdr ≠ op) ∧
    (∃ (k : Packet) (s : State), headerGood s k.hdr = false) ∧
    (∃ (k : Packet) (s : State), headerGood s k.hdr = true) ∧
    (∃ (p : PortId) (pkt : Packet) (u : State) (s : State), (arriveHere fQUERY pkt s = (false, u))) ∧
    (∃ (p : PortId) (pkt : Packet) (u v : State) (r : Nat × Nat × Nat) (s : State), (arriveHere fQUERY pkt s = (true, u)) ∧
      (v = { u with fabric := { u.fabric with queried := u.beat, coord := BitVec.ofNat 16 (pkSrc pkt.hdr) } }) ∧ (r =
      ownReport v (1 - pkEpoch pkt.hdr))) ∧
    (∃ (pkt : Packet) (u : State) (s : State), (arriveHere fREPORT pkt s = (false, u))) ∧
    (∃ (pkt : Packet) (u v : State) (s : State), (arriveHere fREPORT pkt s = (true, u)) ∧ (v = drainUntagged
      u.fabric.untagged.length { u with rmem := { u.rmem with tracks := u.rmem.tracks.filter (fun x => !(x.tag == BitVec.ofNat 16 (pkTag pkt.hdr) && x.queue == noQueue)) } })
      ∧ (¬(v.fabric.drain = true ∧ v.fabric.coord = v.fabric.node ∧ pkSpecB pkt.hdr = v.fabric.round))) ∧
    (∃ (pkt : Packet) (u v : State) (s : State), (arriveHere fREPORT pkt s = (true, u)) ∧ (v = drainUntagged
      u.fabric.untagged.length { u with rmem := { u.rmem with tracks := u.rmem.tracks.filter (fun x => !(x.tag == BitVec.ofNat 16 (pkTag pkt.hdr) && x.queue == noQueue)) } })
      ∧ (v.fabric.drain = true ∧ v.fabric.coord = v.fabric.node ∧ pkSpecB pkt.hdr = v.fabric.round)) ∧
    (∃ (p : PortId) (pkt : Packet) (u : State) (s : State), (arriveHere fRELEASE pkt s = (false, u))) ∧
    (∃ (p : PortId) (pkt : Packet) (u : State) (s : State), (arriveHere fRELEASE pkt s = (true, u))) ∧
    (∃ s : State, s.fabric.drain = true) ∧
    (∃ (node : W16) (s : State), (s.fabric.drain = true ∧ s.fabric.coord = s.fabric.node ∧ node ≠ s.fabric.node ∧
      (activeMembers s).contains node.toNat = true ∧ s.fabric.excluded.contains node = false ∧ tget 0 node.toNat
      s.fabric.heard + 10000000 ≤ s.beat)) ∧
    (∃ (node : W16) (s : State), (¬(s.fabric.drain = true ∧ s.fabric.coord = s.fabric.node ∧ node ≠ s.fabric.node ∧
      (activeMembers s).contains node.toNat = true ∧ s.fabric.excluded.contains node = false ∧ tget 0 node.toNat
      s.fabric.heard + 10000000 ≤ s.beat))) ∧
    (∃ (s : State), (s.fabric.drain = true ∧ s.fabric.coord ≠ s.fabric.node ∧ s.fabric.coord ≠ 0xFFFF ∧ s.fabric.queried +
      10000000 ≤ s.beat)) ∧
    (∃ (s : State), (¬(s.fabric.drain = true ∧ s.fabric.coord ≠ s.fabric.node ∧ s.fabric.coord ≠ 0xFFFF ∧ s.fabric.queried +
      10000000 ≤ s.beat))) ∧
    (∃ (node : W16) (s : State), (s.fabric.drain = true ∧ s.fabric.coord = s.fabric.node ∧ (activeMembers s).contains
      node.toNat = true ∧ s.fabric.activated.contains node = false ∧ s.fabric.missed.contains node = false ∧ s.fabric.began +
      100000000 ≤ s.beat)) ∧
    (∃ (node : W16) (s : State), (¬(s.fabric.drain = true ∧ s.fabric.coord = s.fabric.node ∧ (activeMembers s).contains
      node.toNat = true ∧ s.fabric.activated.contains node = false ∧ s.fabric.missed.contains node = false ∧ s.fabric.began +
      100000000 ≤ s.beat))) ∧
    (∃ s : State, s.fabric.drain = true ∧ s.fabric.coord = s.fabric.node ∧ s.fabric.excluded = [] ∧ (∀ m ∈ activeMembers s, ∃
      r ∈ s.fabric.reports, r.1.toNat = m ∧ r.2.1 = 0) ∧ (∀ r ∈ s.fabric.reports, r.2.1 = 0 ∧ r.2.2.1 = r.2.2.2)) :=
  ⟨⟨3, _, { State.reset with beat := 3, fabric := { activate := some 3, bankValid := [true, true] } }, by decide +kernel,
    by decide +kernel, rfl⟩,
   ⟨State.reset, by decide +kernel⟩,
   ⟨1, _, _, { State.reset with beat := 20000, fabric := { drain := true, coord := 0 } }, by decide +kernel,
     by decide +kernel, rfl, rfl⟩,
   ⟨State.reset, by decide +kernel⟩,
   ⟨1, { hdr := 0, payload := [] }, by decide +kernel⟩,
   ⟨{ hdr := 0, payload := [] }, State.reset, by decide +kernel⟩,
   ⟨{ hdr := sealHeader (fabricHdr fQUERY 0 3 0 0 32 0 5 0 0 0), payload := [] }, State.reset, by decide +kernel⟩,
   ⟨0, { hdr := BitVec.ofNat 256 (fQUERY * 2 ^ 8), payload := [] }, State.reset.count Obj.fabricHeaderDiscards 1,
     State.reset, by decide +kernel⟩,
   ⟨0, { hdr := sealHeader (fabricHdr fQUERY 0 3 0 0 32 0 5 0 0 0), payload := [] }, (arriveHere fQUERY
     { hdr := sealHeader (fabricHdr fQUERY 0 3 0 0 32 0 5 0 0 0), payload := [] } (State.reset)).2, _, _, State.reset,
     by decide +kernel, rfl, rfl⟩,
   ⟨{ hdr := BitVec.ofNat 256 (fREPORT * 2 ^ 8), payload := [] }, State.reset.count Obj.fabricHeaderDiscards 1, State.reset,
     by decide +kernel⟩,
   ⟨{ hdr := sealHeader (fabricHdr fREPORT 0 3 0 0 32 0 5 0 0 0), payload := [] }, (arriveHere fREPORT
     { hdr := sealHeader (fabricHdr fREPORT 0 3 0 0 32 0 5 0 0 0), payload := [] } (State.reset)).2, _, State.reset,
     by decide +kernel, rfl, by decide +kernel⟩,
   ⟨{ hdr := sealHeader (fabricHdr fREPORT 0 3 0 0 32 0 5 0 0 0), payload := [] }, (arriveHere fREPORT
     { hdr := sealHeader (fabricHdr fREPORT 0 3 0 0 32 0 5 0 0 0), payload := [] }
     ({ State.reset with fabric := { drain := true, coord := 0 } })).2, _,
     { State.reset with fabric := { drain := true, coord := 0 } }, by decide +kernel, rfl, by decide +kernel⟩,
   ⟨0, { hdr := BitVec.ofNat 256 (fRELEASE * 2 ^ 8), payload := [] }, State.reset.count Obj.fabricHeaderDiscards 1,
     State.reset, by decide +kernel⟩,
   ⟨0, { hdr := sealHeader (fabricHdr fRELEASE 0 3 0 0 32 0 5 0 0 0), payload := [] }, (arriveHere fRELEASE
     { hdr := sealHeader (fabricHdr fRELEASE 0 3 0 0 32 0 5 0 0 0), payload := [] }
     ({ State.reset with fabric := { drain := true, bankValid := [true, true] } })).2,
     { State.reset with fabric := { drain := true, bankValid := [true, true] } }, by decide +kernel⟩,
   ⟨{ State.reset with fabric := { drain := true, bankValid := [true, true] } }, by decide +kernel⟩,
   ⟨2, { State.reset with beat := 10000000, fabric := { banks := [(0, { member := 6 })], coord := 1, node := 1, drain := true } },
     by decide +kernel⟩,
   ⟨2, State.reset, by decide +kernel⟩,
   ⟨{ State.reset with beat := 10000000, fabric := { drain := true, coord := 3 } }, by decide +kernel⟩,
   ⟨State.reset, by decide +kernel⟩,
   ⟨2, { State.reset with beat := 100000000, fabric := { banks := [(0, { member := 6 })], coord := 1, node := 1, drain := true } },
     by decide +kernel⟩,
   ⟨2, State.reset, by decide +kernel⟩,
   ⟨{ State.reset with fabric := { drain := true, coord := 0, node := 0 } }, by decide +kernel⟩⟩

/-- The hypotheses of each clause of TargetReads can be met. -/
theorem witness_TargetReads :
    (∃ (p : PortId) (pkt : Packet) (u : State) (s : State), (arriveHere fLOAD pkt s = (false, u))) ∧
    (∃ (p : PortId) (pkt : Packet) (u : State) (site addr : Nat) (v : State) (s : State), (arriveHere fLOAD pkt s = (true,
      u)) ∧ (isFar pkt.hdr = false) ∧ (windowCheck u (portDir p.val) pkt.hdr (pkLength pkt.hdr) .read = .ok (site, addr)) ∧
      (v = (addOp (portDir p.val) pkt.hdr site addr true (pkLength pkt.hdr) u).2)) ∧
    (∃ (p : PortId) (pkt : Packet) (u : State) (x : Nat × Nat) (s : State), (arriveHere fLOAD pkt s = (true, u)) ∧ (isFar
      pkt.hdr = false) ∧ (windowCheck u (portDir p.val) pkt.hdr (pkLength pkt.hdr) .read = .error x)) ∧
    (∃ (p : PortId) (pkt : Packet) (u : State) (s : State), (arriveHere fGET pkt s = (false, u))) ∧
    (∃ (p : PortId) (pkt : Packet) (u : State) (site addr : Nat) (v : State) (s : State), (arriveHere fGET pkt s = (true, u))
      ∧ (isFar pkt.hdr = false) ∧ (windowCheck u (portDir p.val) pkt.hdr (pkLength pkt.hdr) .read = .ok (site, addr)) ∧ (v =
      (addOp (portDir p.val) pkt.hdr site addr true (pkLength pkt.hdr) u).2)) ∧
    (∃ (p : PortId) (pkt : Packet) (u : State) (x : Nat × Nat) (s : State), (arriveHere fGET pkt s = (true, u)) ∧ (isFar
      pkt.hdr = false) ∧ (windowCheck u (portDir p.val) pkt.hdr (pkLength pkt.hdr) .read = .error x)) ∧
    (∃ (s : State) (h : BitVec 256) (n : Nat), winFind s (pkJob h) (pkOffset h) n = none) ∧
    (∃ (s : State) (h : BitVec 256) (n : Nat) (e : BitVec 256), winFind s (pkJob h) (pkOffset h) n = some e ∧ (winPerm
      e).testBit 1 = false) ∧
    (∃ (s : State) (h : BitVec 256) (n : Nat) (e : BitVec 256), winFind s (pkJob h) (pkOffset h) n = some e ∧ Need.write ≠
      .read ∧ (winPerm e).testBit Need.write.bit = false ∧ (winPerm e).testBit 1 = true) ∧
    (∃ (n : Nat) (x : RimOp) (s : State), s.rmem.ops.find? (fun y => y.n == n) = some x ∧ pkOp x.hdr = fLOAD) ∧
    (∃ (n : Nat) (x : RimOp) (s : State), s.rmem.ops.find? (fun y => y.n == n) = some x ∧ pkOp x.hdr ≠ fLOAD ∧ x.left ≤ 1024
      ∧ 0 < x.left) :=
  ⟨⟨0, { hdr := BitVec.ofNat 256 (fLOAD * 2 ^ 8), payload := [] }, State.reset.count Obj.fabricHeaderDiscards 1, State.reset,
    by decide +kernel⟩,
   ⟨0, { hdr := sealHeader (fabricHdr fLOAD 0 0 0 0 32 0 5 0 0 0), payload := [] }, (arriveHere fLOAD
     { hdr := sealHeader (fabricHdr fLOAD 0 0 0 0 32 0 5 0 0 0), payload := [] }
     ({ State.reset with rmem := { table := [(0, BitVec.ofNat 256 (31 * 2 ^ 16 + 12 * 2 ^ 24 + 4096 * 2 ^ 80 + 64 * 2 ^ 128))] }, tiles := [(12, { state := 0 })], strings := [(primaryString 25 12, { state := 0 })] })).2,
     12, 64, _, { State.reset with rmem := { table := [(0, BitVec.ofNat 256 (31 * 2 ^ 16 + 12 * 2 ^ 24 + 4096 * 2 ^ 80 + 64 * 2 ^ 128))] }, tiles := [(12, { state := 0 })], strings := [(primaryString 25 12, { state := 0 })] },
     by decide +kernel, by decide +kernel, by decide +kernel, rfl⟩,
   ⟨0, { hdr := sealHeader (fabricHdr fLOAD 0 0 0 0 32 0 5 0 0 0), payload := [] }, (arriveHere fLOAD
     { hdr := sealHeader (fabricHdr fLOAD 0 0 0 0 32 0 5 0 0 0), payload := [] } (State.reset)).2, (3, 0x1205), State.reset,
     by decide +kernel⟩,
   ⟨0, { hdr := BitVec.ofNat 256 (fGET * 2 ^ 8), payload := [] }, State.reset.count Obj.fabricHeaderDiscards 1, State.reset,
     by decide +kernel⟩,
   ⟨0, { hdr := sealHeader (fabricHdr fGET 0 0 0 0 32 0 5 0 0 0), payload := [] }, (arriveHere fGET
     { hdr := sealHeader (fabricHdr fGET 0 0 0 0 32 0 5 0 0 0), payload := [] }
     ({ State.reset with rmem := { table := [(0, BitVec.ofNat 256 (31 * 2 ^ 16 + 12 * 2 ^ 24 + 4096 * 2 ^ 80 + 64 * 2 ^ 128))] }, tiles := [(12, { state := 0 })], strings := [(primaryString 25 12, { state := 0 })] })).2,
     12, 64, _, { State.reset with rmem := { table := [(0, BitVec.ofNat 256 (31 * 2 ^ 16 + 12 * 2 ^ 24 + 4096 * 2 ^ 80 + 64 * 2 ^ 128))] }, tiles := [(12, { state := 0 })], strings := [(primaryString 25 12, { state := 0 })] },
     by decide +kernel, by decide +kernel, by decide +kernel, rfl⟩,
   ⟨0, { hdr := sealHeader (fabricHdr fGET 0 0 0 0 32 0 5 0 0 0), payload := [] }, (arriveHere fGET
     { hdr := sealHeader (fabricHdr fGET 0 0 0 0 32 0 5 0 0 0), payload := [] } (State.reset)).2, (3, 0x1205), State.reset,
     by decide +kernel⟩,
   ⟨State.reset, 0, 4, by decide +kernel⟩,
   ⟨{ State.reset with rmem := { table := [(0, BitVec.ofNat 256 (1 * 2 ^ 16 + 12 * 2 ^ 24 + 4096 * 2 ^ 80 + 64 * 2 ^ 128))] } },
     0, 4, BitVec.ofNat 256 (1 * 2 ^ 16 + 12 * 2 ^ 24 + 4096 * 2 ^ 80 + 64 * 2 ^ 128), by decide +kernel⟩,
   ⟨{ State.reset with rmem := { table := [(0, BitVec.ofNat 256 (3 * 2 ^ 16 + 12 * 2 ^ 24 + 4096 * 2 ^ 80 + 64 * 2 ^ 128))] } },
     0, 4, BitVec.ofNat 256 (3 * 2 ^ 16 + 12 * 2 ^ 24 + 4096 * 2 ^ 80 + 64 * 2 ^ 128), by decide +kernel⟩,
   ⟨0, { n := 0, rim := 0, hdr := sealHeader (fabricHdr fLOAD 0 0 0 0 32 0 5 0 0 0), site := 12, addr := 0, read := true, left := 32 },
     { State.reset with rmem := { ops := [{ n := 0, rim := 0, hdr := sealHeader (fabricHdr fLOAD 0 0 0 0 32 0 5 0 0 0), site := 12, addr := 0, read := true, left := 32 }] } },
     by decide +kernel⟩,
   ⟨0, { n := 0, rim := 0, hdr := sealHeader (fabricHdr fGET 0 0 0 0 32 0 5 0 0 0), site := 12, addr := 0, read := true, left := 32 },
     { State.reset with rmem := { ops := [{ n := 0, rim := 0, hdr := sealHeader (fabricHdr fGET 0 0 0 0 32 0 5 0 0 0), site := 12, addr := 0, read := true, left := 32 }] } },
     by decide +kernel⟩⟩

/-- The hypotheses of each clause of TargetWrites can be met. -/
theorem witness_TargetWrites :
    (∃ (p : PortId) (pkt : Packet) (u : State) (s : State), (arriveHere fSTORE pkt s = (false, u))) ∧
    (∃ (p : PortId) (pkt : Packet) (u : State) (site addr : Nat) (w : Nat × State) (v : State) (s : State), (arriveHere
      fSTORE pkt s = (true, u)) ∧ (isFar pkt.hdr = false) ∧ (windowCheck u (portDir p.val) pkt.hdr (pkLength pkt.hdr) .write
      = .ok (site, addr)) ∧ (w = addOp (portDir p.val) pkt.hdr site addr false (writeFrames addr (pkLength pkt.hdr)) u) ∧ (v
      = sendWrite ((pkLength pkt.hdr) + 1) (rimSite (portDir p.val)) site addr (fitBytes (pkLength pkt.hdr) pkt.payload) none
      (some (rimChan, w.1)) w.2)) ∧
    (∃ (p : PortId) (pkt : Packet) (u : State) (x : Nat × Nat) (s : State), (arriveHere fSTORE pkt s = (true, u)) ∧ (isFar
      pkt.hdr = false) ∧ (windowCheck u (portDir p.val) pkt.hdr (pkLength pkt.hdr) .write = .error x)) ∧
    (∃ (p : PortId) (pkt : Packet) (u : State) (s : State), (arriveHere fPUT pkt s = (false, u))) ∧
    (∃ (p : PortId) (pkt : Packet) (u : State) (site addr : Nat) (w : Nat × State) (v : State) (s : State), (arriveHere fPUT
      pkt s = (true, u)) ∧ (isFar pkt.hdr = false) ∧ (windowCheck u (portDir p.val) pkt.hdr (pkLength pkt.hdr) .write = .ok
      (site, addr)) ∧ (w = addOp (portDir p.val) pkt.hdr site addr false (writeFrames addr (pkLength pkt.hdr)) u) ∧ (v =
      sendWrite ((pkLength pkt.hdr) + 1) (rimSite (portDir p.val)) site addr (fitBytes (pkLength pkt.hdr) pkt.payload) none
      (some (rimChan, w.1)) w.2)) ∧
    (∃ (p : PortId) (pkt : Packet) (u : State) (x : Nat × Nat) (s : State), (arriveHere fPUT pkt s = (true, u)) ∧ (isFar
      pkt.hdr = false) ∧ (windowCheck u (portDir p.val) pkt.hdr (pkLength pkt.hdr) .write = .error x)) ∧
    (∃ (pkt : Packet) (site addr : Nat) (u : State), windowCheck u 0 pkt.hdr (pkLength pkt.hdr) .write = .ok (site, addr)) ∧
    (∃ (pkt : Packet) (x : Nat × Nat) (u : State), windowCheck u 0 pkt.hdr (pkLength pkt.hdr) .write = .error x) ∧
    (∃ (p : PortId) (pkt : Packet) (s : State), (pkOp pkt.hdr ≠ fMCAST ∨ takeIn p.val pkt s = none)) ∧
    (∃ (p : PortId) (pkt : Packet) (u : State) (s : State), (pkOp pkt.hdr = fMCAST) ∧ (takeIn p.val pkt s = some u) ∧
      (headerGood u pkt.hdr = false)) ∧
    (∃ (p : PortId) (pkt : Packet) (u : State) (v : State) (s : State), (pkOp pkt.hdr = fMCAST) ∧ (takeIn p.val pkt s = some
      u) ∧ (headerGood u pkt.hdr = true) ∧ (v = localWrite (portDir p.val) pkt (countEnd pkt.hdr (noteNode pkt.hdr (checkSeq
      pkt.hdr u)))) ∧ (bitsAt (pkSpecA pkt.hdr) 0 4 ≤ 1 ∨ pkDest pkt.hdr = v.fabric.node.toNat)) ∧
    (∃ (p : PortId) (pkt : Packet) (u : State) (v : State) (on : BitVec 256) (s : State), (pkOp pkt.hdr = fMCAST) ∧ (takeIn
      p.val pkt s = some u) ∧ (headerGood u pkt.hdr = true) ∧ (v = localWrite (portDir p.val) pkt (countEnd pkt.hdr (noteNode
      pkt.hdr (checkSeq pkt.hdr u)))) ∧ (¬(bitsAt (pkSpecA pkt.hdr) 0 4 ≤ 1 ∨ pkDest pkt.hdr = v.fabric.node.toNat)) ∧ (on =
      sealHeader (putField pkt.hdr 168 4 (bitsAt (pkSpecA pkt.hdr) 0 4 - 1)))) ∧
    (∃ (p : PortId) (pkt : Packet) (u : State) (s : State), (arriveHere fATOMIC pkt s = (false, u))) ∧
    (∃ (p : PortId) (pkt : Packet) (u : State) (s : State), (arriveHere fATOMIC pkt s = (true, u)) ∧ (isFar pkt.hdr = true))
      ∧
    (∃ (p : PortId) (pkt : Packet) (u : State) (x : Nat × Nat) (s : State), (arriveHere fATOMIC pkt s = (true, u)) ∧ (isFar
      pkt.hdr = false) ∧ (windowCheck u (portDir p.val) pkt.hdr (pkLength pkt.hdr) .atomic = .error x)) ∧
    (∃ (p : PortId) (pkt : Packet) (u : State) (s : State), (arriveHere fFLAG pkt s = (false, u))) ∧
    (∃ (p : PortId) (pkt : Packet) (u : State) (s : State), (arriveHere fFLAG pkt s = (true, u)) ∧ (isFar pkt.hdr = true)) ∧
    (∃ (p : PortId) (pkt : Packet) (u : State) (x : Nat × Nat) (s : State), (arriveHere fFLAG pkt s = (true, u)) ∧ (isFar
      pkt.hdr = false) ∧ (windowCheck u (portDir p.val) pkt.hdr 8 .flag = .error x)) ∧
    (∃ (p : PortId) (pkt : Packet) (u : State) (s : State), (arriveHere fBARRIER pkt s = (false, u))) ∧
    (∃ (p : PortId) (pkt : Packet) (u : State) (s : State), (arriveHere fBARRIER pkt s = (true, u)) ∧ (isFar pkt.hdr = true))
      ∧
    (∃ (p : PortId) (pkt : Packet) (u : State) (x : Nat × Nat) (s : State), (arriveHere fBARRIER pkt s = (true, u)) ∧ (isFar
      pkt.hdr = false) ∧ (windowCheck u (portDir p.val) pkt.hdr 4 .flag = .error x)) ∧
    (∃ (p : PortId) (pkt : Packet) (u : State) (site addr : Nat) (s : State), (arriveHere fATOMIC pkt s = (true, u)) ∧ (isFar
      pkt.hdr = false) ∧ (windowCheck u (portDir p.val) pkt.hdr (pkLength pkt.hdr) .atomic = .ok (site, addr)) ∧
      (¬(atomicPair (bitsAt (pkSpecA pkt.hdr) 0 4) (bitsAt (pkSpecA pkt.hdr) 4 4) = true ∧ pkLength pkt.hdr = atomicWidth
      (bitsAt (pkSpecA pkt.hdr) 4 4)))) ∧
    (∃ (p : PortId) (pkt : Packet) (u : State) (site addr old : Nat) (s : State), (arriveHere fATOMIC pkt s = (true, u)) ∧
      (isFar pkt.hdr = false) ∧ (windowCheck u (portDir p.val) pkt.hdr (pkLength pkt.hdr) .atomic = .ok (site, addr)) ∧
      (atomicPair (bitsAt (pkSpecA pkt.hdr) 0 4) (bitsAt (pkSpecA pkt.hdr) 4 4) = true ∧ pkLength pkt.hdr = atomicWidth
      (bitsAt (pkSpecA pkt.hdr) 4 4)) ∧ (old = (leNat (siteRead u site addr (pkLength pkt.hdr))))) ∧
    (∃ (p : PortId) (pkt : Packet) (u : State) (site addr old : Nat) (s : State), (arriveHere fATOMIC pkt s = (true, u)) ∧
      (isFar pkt.hdr = false) ∧ (windowCheck u (portDir p.val) pkt.hdr (pkLength pkt.hdr) .atomic = .ok (site, addr)) ∧
      (atomicPair (bitsAt (pkSpecA pkt.hdr) 0 4) (bitsAt (pkSpecA pkt.hdr) 4 4) = true ∧ pkLength pkt.hdr = atomicWidth
      (bitsAt (pkSpecA pkt.hdr) 4 4)) ∧ (old = (leNat (siteRead u site addr (pkLength pkt.hdr)))) ∧ (addr < dramHomeBase)) ∧
    (∃ (p : PortId) (pkt : Packet) (u : State) (site addr : Nat) (s : State), (arriveHere fFLAG pkt s = (true, u)) ∧ (isFar
      pkt.hdr = false) ∧ (windowCheck u (portDir p.val) pkt.hdr 8 .flag = .ok (site, addr))) ∧
    (∃ (p : PortId) (pkt : Packet) (u : State) (site addr : Nat) (s : State), (arriveHere fFLAG pkt s = (true, u)) ∧ (isFar
      pkt.hdr = false) ∧ (windowCheck u (portDir p.val) pkt.hdr 8 .flag = .ok (site, addr)) ∧ (addr < dramHomeBase)) ∧
    (∃ (p : PortId) (pkt : Packet) (u : State) (site addr : Nat) (s : State), (arriveHere fBARRIER pkt s = (true, u)) ∧
      (isFar pkt.hdr = false) ∧ (windowCheck u (portDir p.val) pkt.hdr 4 .flag = .ok (site, addr))) ∧
    (∃ (p : PortId) (pkt : Packet) (u : State) (site addr : Nat) (s : State), (arriveHere fBARRIER pkt s = (true, u)) ∧
      (isFar pkt.hdr = false) ∧ (windowCheck u (portDir p.val) pkt.hdr 4 .flag = .ok (site, addr)) ∧ (addr < dramHomeBase))
      :=
  ⟨⟨0, { hdr := BitVec.ofNat 256 (fSTORE * 2 ^ 8), payload := [] }, State.reset.count Obj.fabricHeaderDiscards 1,
    State.reset, by decide +kernel⟩,
   ⟨0, { hdr := sealHeader (fabricHdr fSTORE 0 0 0 0 32 0 5 0 0 0), payload := List.replicate 32 7 }, (arriveHere fSTORE
     { hdr := sealHeader (fabricHdr fSTORE 0 0 0 0 32 0 5 0 0 0), payload := List.replicate 32 7 }
     ({ State.reset with rmem := { table := [(0, BitVec.ofNat 256 (31 * 2 ^ 16 + 12 * 2 ^ 24 + 4096 * 2 ^ 80 + 64 * 2 ^ 128))] }, tiles := [(12, { state := 0 })], strings := [(primaryString 25 12, { state := 0 })] })).2,
     12, 64, _, _, { State.reset with rmem := { table := [(0, BitVec.ofNat 256 (31 * 2 ^ 16 + 12 * 2 ^ 24 + 4096 * 2 ^ 80 + 64 * 2 ^ 128))] }, tiles := [(12, { state := 0 })], strings := [(primaryString 25 12, { state := 0 })] },
     by decide +kernel, by decide +kernel, by decide +kernel, rfl, rfl⟩,
   ⟨0, { hdr := sealHeader (fabricHdr fSTORE 0 0 0 0 32 0 5 0 0 0), payload := [] }, (arriveHere fSTORE
     { hdr := sealHeader (fabricHdr fSTORE 0 0 0 0 32 0 5 0 0 0), payload := [] } (State.reset)).2, (3, 0x1205), State.reset,
     by decide +kernel⟩,
   ⟨0, { hdr := BitVec.ofNat 256 (fPUT * 2 ^ 8), payload := [] }, State.reset.count Obj.fabricHeaderDiscards 1, State.reset,
     by decide +kernel⟩,
   ⟨0, { hdr := sealHeader (fabricHdr fPUT 0 0 0 0 32 0 5 0 0 0), payload := List.replicate 32 7 }, (arriveHere fPUT
     { hdr := sealHeader (fabricHdr fPUT 0 0 0 0 32 0 5 0 0 0), payload := List.replicate 32 7 }
     ({ State.reset with rmem := { table := [(0, BitVec.ofNat 256 (31 * 2 ^ 16 + 12 * 2 ^ 24 + 4096 * 2 ^ 80 + 64 * 2 ^ 128))] }, tiles := [(12, { state := 0 })], strings := [(primaryString 25 12, { state := 0 })] })).2,
     12, 64, _, _, { State.reset with rmem := { table := [(0, BitVec.ofNat 256 (31 * 2 ^ 16 + 12 * 2 ^ 24 + 4096 * 2 ^ 80 + 64 * 2 ^ 128))] }, tiles := [(12, { state := 0 })], strings := [(primaryString 25 12, { state := 0 })] },
     by decide +kernel, by decide +kernel, by decide +kernel, rfl, rfl⟩,
   ⟨0, { hdr := sealHeader (fabricHdr fPUT 0 0 0 0 32 0 5 0 0 0), payload := [] }, (arriveHere fPUT
     { hdr := sealHeader (fabricHdr fPUT 0 0 0 0 32 0 5 0 0 0), payload := [] } (State.reset)).2, (3, 0x1205), State.reset,
     by decide +kernel⟩,
   ⟨{ hdr := sealHeader (fabricHdr fPUT 0 0 0 0 32 0 5 0 0 0), payload := [] }, 12, 64,
     { State.reset with rmem := { table := [(0, BitVec.ofNat 256 (31 * 2 ^ 16 + 12 * 2 ^ 24 + 4096 * 2 ^ 80 + 64 * 2 ^ 128))] }, tiles := [(12, { state := 0 })], strings := [(primaryString 25 12, { state := 0 })] },
     by decide +kernel⟩,
   ⟨{ hdr := sealHeader (fabricHdr fPUT 0 0 0 0 32 0 5 0 0 0), payload := [] }, (3, 0x1205), State.reset, by decide +kernel⟩,
   ⟨0, { hdr := sealHeader (fabricHdr fMCAST 1 0 0 0 32 0 5 3 0 0), payload := List.replicate 32 7 }, State.reset,
     by decide +kernel⟩,
   ⟨0, { hdr := (BitVec.ofNat 256 (fMCAST * 2 ^ 8)), payload := [] }, ((takeIn 0
     { hdr := (BitVec.ofNat 256 (fMCAST * 2 ^ 8)), payload := [] }
     ({ State.reset with ports := [(0, { state := 2, inq := [(pkVc (BitVec.ofNat 256 (fMCAST * 2 ^ 8)), [{ hdr := (BitVec.ofNat 256 (fMCAST * 2 ^ 8)), payload := [] }])] })] })).getD
     State.reset), { State.reset with ports := [(0, { state := 2, inq := [(pkVc (BitVec.ofNat 256 (fMCAST * 2 ^ 8)), [{ hdr := (BitVec.ofNat 256 (fMCAST * 2 ^ 8)), payload := [] }])] })] },
     by decide +kernel⟩,
   ⟨0, { hdr := sealHeader (fabricHdr fMCAST 0 0 0 0 32 0 5 3 0 0), payload := List.replicate 32 7 }, ((takeIn 0
     { hdr := sealHeader (fabricHdr fMCAST 0 0 0 0 32 0 5 3 0 0), payload := List.replicate 32 7 }
     ({ State.reset with ports := [(0, { state := 2, inq := [(pkVc (sealHeader (fabricHdr fMCAST 0 0 0 0 32 0 5 3 0 0)), [{ hdr := sealHeader (fabricHdr fMCAST 0 0 0 0 32 0 5 3 0 0), payload := List.replicate 32 7 }])] })] })).getD
     State.reset), _, { State.reset with ports := [(0, { state := 2, inq := [(pkVc (sealHeader (fabricHdr fMCAST 0 0 0 0 32 0 5 3 0 0)), [{ hdr := sealHeader (fabricHdr fMCAST 0 0 0 0 32 0 5 3 0 0), payload := List.replicate 32 7 }])] })] },
     by decide +kernel, by decide +kernel, by decide +kernel, rfl, by decide +kernel⟩,
   ⟨0, { hdr := sealHeader (fabricHdr fMCAST 1 0 0 0 32 0 5 3 0 0), payload := List.replicate 32 7 }, ((takeIn 0
     { hdr := sealHeader (fabricHdr fMCAST 1 0 0 0 32 0 5 3 0 0), payload := List.replicate 32 7 }
     ({ State.reset with ports := [(0, { state := 2, inq := [(pkVc (sealHeader (fabricHdr fMCAST 1 0 0 0 32 0 5 3 0 0)), [{ hdr := sealHeader (fabricHdr fMCAST 1 0 0 0 32 0 5 3 0 0), payload := List.replicate 32 7 }])] })] })).getD
     State.reset), _, _, { State.reset with ports := [(0, { state := 2, inq := [(pkVc (sealHeader (fabricHdr fMCAST 1 0 0 0 32 0 5 3 0 0)), [{ hdr := sealHeader (fabricHdr fMCAST 1 0 0 0 32 0 5 3 0 0), payload := List.replicate 32 7 }])] })] },
     by decide +kernel, by decide +kernel, by decide +kernel, rfl, by decide +kernel, rfl⟩,
   ⟨0, { hdr := BitVec.ofNat 256 (fATOMIC * 2 ^ 8), payload := [] }, State.reset.count Obj.fabricHeaderDiscards 1,
     State.reset, by decide +kernel⟩,
   ⟨0, { hdr := sealHeader (fabricHdr fATOMIC 0 0 0 0 32 0 5 0 0x8000 0), payload := [] }, (arriveHere fATOMIC
     { hdr := sealHeader (fabricHdr fATOMIC 0 0 0 0 32 0 5 0 0x8000 0), payload := [] } (State.reset)).2, State.reset,
     by decide +kernel⟩,
   ⟨0, { hdr := sealHeader (fabricHdr fATOMIC 0 0 0 0 32 0 5 0 0 0), payload := [] }, (arriveHere fATOMIC
     { hdr := sealHeader (fabricHdr fATOMIC 0 0 0 0 32 0 5 0 0 0), payload := [] } (State.reset)).2, (3, 0x1205),
     State.reset, by decide +kernel⟩,
   ⟨0, { hdr := BitVec.ofNat 256 (fFLAG * 2 ^ 8), payload := [] }, State.reset.count Obj.fabricHeaderDiscards 1, State.reset,
     by decide +kernel⟩,
   ⟨0, { hdr := sealHeader (fabricHdr fFLAG 0 0 0 0 32 0 5 0 0x8000 0), payload := [] }, (arriveHere fFLAG
     { hdr := sealHeader (fabricHdr fFLAG 0 0 0 0 32 0 5 0 0x8000 0), payload := [] } (State.reset)).2, State.reset,
     by decide +kernel⟩,
   ⟨0, { hdr := sealHeader (fabricHdr fFLAG 0 0 0 0 32 0 5 0 0 0), payload := [] }, (arriveHere fFLAG
     { hdr := sealHeader (fabricHdr fFLAG 0 0 0 0 32 0 5 0 0 0), payload := [] } (State.reset)).2, (3, 0x1205), State.reset,
     by decide +kernel⟩,
   ⟨0, { hdr := BitVec.ofNat 256 (fBARRIER * 2 ^ 8), payload := [] }, State.reset.count Obj.fabricHeaderDiscards 1,
     State.reset, by decide +kernel⟩,
   ⟨0, { hdr := sealHeader (fabricHdr fBARRIER 0 0 0 0 32 0 5 0 0x8000 0), payload := [] }, (arriveHere fBARRIER
     { hdr := sealHeader (fabricHdr fBARRIER 0 0 0 0 32 0 5 0 0x8000 0), payload := [] } (State.reset)).2, State.reset,
     by decide +kernel⟩,
   ⟨0, { hdr := sealHeader (fabricHdr fBARRIER 0 0 0 0 32 0 5 0 0 0), payload := [] }, (arriveHere fBARRIER
     { hdr := sealHeader (fabricHdr fBARRIER 0 0 0 0 32 0 5 0 0 0), payload := [] } (State.reset)).2, (3, 0x1205),
     State.reset, by decide +kernel⟩,
   ⟨0, { hdr := sealHeader (fabricHdr fATOMIC 0 0 0 0 8 0 5 2 0 0), payload := [] }, (arriveHere fATOMIC
     { hdr := sealHeader (fabricHdr fATOMIC 0 0 0 0 8 0 5 2 0 0), payload := [] }
     ({ State.reset with rmem := { table := [(0, BitVec.ofNat 256 (31 * 2 ^ 16 + 12 * 2 ^ 24 + 4096 * 2 ^ 80 + 64 * 2 ^ 128))] }, tiles := [(12, { state := 0 })], strings := [(primaryString 25 12, { state := 0 })] })).2,
     12, 64, { State.reset with rmem := { table := [(0, BitVec.ofNat 256 (31 * 2 ^ 16 + 12 * 2 ^ 24 + 4096 * 2 ^ 80 + 64 * 2 ^ 128))] }, tiles := [(12, { state := 0 })], strings := [(primaryString 25 12, { state := 0 })] },
     by decide +kernel⟩,
   ⟨0, { hdr := sealHeader (fabricHdr fATOMIC 0 0 0 0 8 0 5 0x12 0 0), payload := [9] }, (arriveHere fATOMIC
     { hdr := sealHeader (fabricHdr fATOMIC 0 0 0 0 8 0 5 0x12 0 0), payload := [9] }
     ({ State.reset with rmem := { table := [(0, BitVec.ofNat 256 (31 * 2 ^ 16 + 12 * 2 ^ 24 + 4096 * 2 ^ 80 + 64 * 2 ^ 128))] }, tiles := [(12, { state := 0 })], strings := [(primaryString 25 12, { state := 0 })] })).2,
     12, 64, _, { State.reset with rmem := { table := [(0, BitVec.ofNat 256 (31 * 2 ^ 16 + 12 * 2 ^ 24 + 4096 * 2 ^ 80 + 64 * 2 ^ 128))] }, tiles := [(12, { state := 0 })], strings := [(primaryString 25 12, { state := 0 })] },
     by decide +kernel, by decide +kernel, by decide +kernel, by decide +kernel, rfl⟩,
   ⟨0, { hdr := sealHeader (fabricHdr fATOMIC 0 0 0 0 8 0 5 0x12 0 0), payload := [9] }, (arriveHere fATOMIC
     { hdr := sealHeader (fabricHdr fATOMIC 0 0 0 0 8 0 5 0x12 0 0), payload := [9] }
     ({ State.reset with rmem := { table := [(0, BitVec.ofNat 256 (31 * 2 ^ 16 + 12 * 2 ^ 24 + 4096 * 2 ^ 80 + 64 * 2 ^ 128))] }, tiles := [(12, { state := 0 })], strings := [(primaryString 25 12, { state := 0 })] })).2,
     12, 64, _, { State.reset with rmem := { table := [(0, BitVec.ofNat 256 (31 * 2 ^ 16 + 12 * 2 ^ 24 + 4096 * 2 ^ 80 + 64 * 2 ^ 128))] }, tiles := [(12, { state := 0 })], strings := [(primaryString 25 12, { state := 0 })] },
     by decide +kernel, by decide +kernel, by decide +kernel, by decide +kernel, rfl, by decide +kernel⟩,
   ⟨0, { hdr := sealHeader (fabricHdr fFLAG 0 0 0 0 8 0 5 0 0 0), payload := [9] }, (arriveHere fFLAG
     { hdr := sealHeader (fabricHdr fFLAG 0 0 0 0 8 0 5 0 0 0), payload := [9] }
     ({ State.reset with rmem := { table := [(0, BitVec.ofNat 256 (31 * 2 ^ 16 + 12 * 2 ^ 24 + 4096 * 2 ^ 80 + 64 * 2 ^ 128))] }, tiles := [(12, { state := 0 })], strings := [(primaryString 25 12, { state := 0 })] })).2,
     12, 64, { State.reset with rmem := { table := [(0, BitVec.ofNat 256 (31 * 2 ^ 16 + 12 * 2 ^ 24 + 4096 * 2 ^ 80 + 64 * 2 ^ 128))] }, tiles := [(12, { state := 0 })], strings := [(primaryString 25 12, { state := 0 })] },
     by decide +kernel⟩,
   ⟨0, { hdr := sealHeader (fabricHdr fFLAG 0 0 0 0 8 0 5 0 0 0), payload := [9] }, (arriveHere fFLAG
     { hdr := sealHeader (fabricHdr fFLAG 0 0 0 0 8 0 5 0 0 0), payload := [9] }
     ({ State.reset with rmem := { table := [(0, BitVec.ofNat 256 (31 * 2 ^ 16 + 12 * 2 ^ 24 + 4096 * 2 ^ 80 + 64 * 2 ^ 128))] }, tiles := [(12, { state := 0 })], strings := [(primaryString 25 12, { state := 0 })] })).2,
     12, 64, { State.reset with rmem := { table := [(0, BitVec.ofNat 256 (31 * 2 ^ 16 + 12 * 2 ^ 24 + 4096 * 2 ^ 80 + 64 * 2 ^ 128))] }, tiles := [(12, { state := 0 })], strings := [(primaryString 25 12, { state := 0 })] },
     by decide +kernel⟩,
   ⟨0, { hdr := sealHeader (fabricHdr fBARRIER 0 0 0 0 4 0 5 0 0 0), payload := [9] }, (arriveHere fBARRIER
     { hdr := sealHeader (fabricHdr fBARRIER 0 0 0 0 4 0 5 0 0 0), payload := [9] } ((State.store
     { State.reset with rmem := { table := [(0, BitVec.ofNat 256 (31 * 2 ^ 16 + 12 * 2 ^ 24 + 4096 * 2 ^ 80 + 64 * 2 ^ 128))] }, tiles := [(12, { state := 0 })], strings := [(primaryString 25 12, { state := 0 })] }
     (memKey 12 64) [255, 255, 255, 255]))).2, 12, 64, (State.store
     { State.reset with rmem := { table := [(0, BitVec.ofNat 256 (31 * 2 ^ 16 + 12 * 2 ^ 24 + 4096 * 2 ^ 80 + 64 * 2 ^ 128))] }, tiles := [(12, { state := 0 })], strings := [(primaryString 25 12, { state := 0 })] }
     (memKey 12 64) [255, 255, 255, 255]), by decide +kernel⟩,
   ⟨0, { hdr := sealHeader (fabricHdr fBARRIER 0 0 0 0 4 0 5 0 0 0), payload := [9] }, (arriveHere fBARRIER
     { hdr := sealHeader (fabricHdr fBARRIER 0 0 0 0 4 0 5 0 0 0), payload := [9] } ((State.store
     { State.reset with rmem := { table := [(0, BitVec.ofNat 256 (31 * 2 ^ 16 + 12 * 2 ^ 24 + 4096 * 2 ^ 80 + 64 * 2 ^ 128))] }, tiles := [(12, { state := 0 })], strings := [(primaryString 25 12, { state := 0 })] }
     (memKey 12 64) [255, 255, 255, 255]))).2, 12, 64, (State.store
     { State.reset with rmem := { table := [(0, BitVec.ofNat 256 (31 * 2 ^ 16 + 12 * 2 ^ 24 + 4096 * 2 ^ 80 + 64 * 2 ^ 128))] }, tiles := [(12, { state := 0 })], strings := [(primaryString 25 12, { state := 0 })] }
     (memKey 12 64) [255, 255, 255, 255]), by decide +kernel⟩⟩

/-- The hypotheses of each clause of CommandRecords can be met. -/
theorem witness_CommandRecords :
    (∃ (queue : Fin 64) (r : BitVec 512) (u : State) (s : State), (u =
      { s with rmem := { s.rmem with waiting := tset queue.val (tget [] queue.val s.rmem.waiting ++ [r]) s.rmem.waiting } }))
      ∧
    (∃ (q : Nat) (r : BitVec 512) (rest : List (BitVec 512)) (s : State), tget [] q s.rmem.waiting = r :: rest ∧ (headReady s
      q r = false)) ∧
    (∃ (q : Nat) (r : BitVec 512) (rest : List (BitVec 512)) (s : State), tget [] q s.rmem.waiting = r :: rest ∧ (headReady s
      q r = true) ∧ (recordError s r ≠ 0) ∧ (crOp r = fATOMIC)) ∧
    (∃ (q : Nat) (r : BitVec 512) (rest : List (BitVec 512)) (s : State), tget [] q s.rmem.waiting = r :: rest ∧ (headReady s
      q r = true) ∧ (recordError s r ≠ 0) ∧ (crOp r ≠ fATOMIC)) ∧
    (∃ (q : Nat) (r : BitVec 512) (rest : List (BitVec 512)) (s : State), tget [] q s.rmem.waiting = r :: rest ∧ (headReady s
      q r = true) ∧ (recordError s r = 0) ∧ (isUnreachable s (crDest r) = true)) ∧
    (∃ (q : Nat) (r : BitVec 512) (rest : List (BitVec 512)) (s : State), tget [] q s.rmem.waiting = r :: rest ∧ (headReady s
      q r = true) ∧ (recordError s r = 0) ∧ (isUnreachable s (crDest r) = false) ∧ (trackFree s = false ∨ rateAllows
      (BitVec.ofNat 16 (if crFar r then (gatewayNode s (nodePod (crDest r))).getD 0 else crDest r)) s = false)) ∧
    (∃ (q : Nat) (r : BitVec 512) (rest : List (BitVec 512)) (s : State), tget [] q s.rmem.waiting = r :: rest ∧ (headReady s
      q r = true) ∧ (recordError s r = 0) ∧ (isUnreachable s (crDest r) = false) ∧ (trackFree s = true) ∧ (rateAllows
      (BitVec.ofNat 16 (if crFar r then (gatewayNode s (nodePod (crDest r))).getD 0 else crDest r)) s = true)) ∧
    (∃ s : State, ∀ q, q < 64 → takeRecord q s = none) ∧
    (∃ (queue : Fin 64) (r : BitVec 512) (s : State), (∀ x ∈ s.rmem.waiting, x.2 = []) ∧ (recordError s r = 0) ∧ (crFence r =
      false) ∧ (isUnreachable s (crDest r) = false) ∧ (trackFree s = true) ∧ (rateAllows (BitVec.ofNat 16 (if crFar r then
      (gatewayNode s (nodePod (crDest r))).getD 0 else crDest r)) s = true)) ∧
    (∃ (queue : Fin 64) (r : BitVec 512) (s : State), (∀ x ∈ s.rmem.waiting, x.2 = []) ∧ (recordError s r ≠ 0) ∧ (crFence r =
      false) ∧ (crOp r ≠ fATOMIC)) ∧
    (∃ (queue : Fin 64) (r : BitVec 512) (s : State), (∀ x ∈ s.rmem.waiting, x.2 = []) ∧ (recordError s r ≠ 0) ∧ (crFence r =
      false) ∧ (crOp r = fATOMIC)) ∧
    (∃ (queue : Fin 64) (r : BitVec 512) (s : State), (∀ x ∈ s.rmem.waiting, x.2 = []) ∧ (recordError s r = 0) ∧ (crFence r =
      false) ∧ (isUnreachable s (crDest r) = true) ∧ (crOp r ≠ fLOAD) ∧ (crOp r ≠ fATOMIC)) ∧
    (∃ (tag : W16) (s : State), (∀ x ∈ s.rmem.tracks.find? (fun x => x.tag == tag), s.beat < x.began + 1000 * s.obj (if crFar
      x.record then Obj.retrieverTimeoutUs else Obj.rmemTimeoutUs))) ∧
    (∃ (tag : W16) (tr : Track) (u : State) (s : State), (s.rmem.tracks.find? (fun x => x.tag == tag) = some tr) ∧ (tr.began
      + 1000 * s.obj (if crFar tr.record then Obj.retrieverTimeoutUs else Obj.rmemTimeoutUs) ≤ s.beat) ∧ (u = (if tr.queue =
      noQueue then s else markUnreachable (crDest tr.record) (s.count Obj.rmemTimeouts 1)))) ∧
    (∃ (tag : W16) (tr : Track) (s : State), (s.rmem.tracks.find? (fun x => x.tag == tag) = some tr) ∧ (tr.began + 1000 *
      s.obj (if crFar tr.record then Obj.retrieverTimeoutUs else Obj.rmemTimeoutUs) ≤ s.beat) ∧ (tr.queue < 64) ∧ (crOp
      tr.record ≠ fLOAD) ∧ (crOp tr.record ≠ fATOMIC) ∧ (crOp tr.record ≠ fGET) ∧ (s.fabric.paced = []) ∧ (s.fabric.untagged
      = []) ∧ (∀ x ∈ s.rmem.waiting, x.2 = [])) ∧
    (∃ (node : W16) (u : State) (s : State), (u =
      { s with rmem := { s.rmem with unreachable := s.rmem.unreachable.filter (fun x => !(x.1 == node && decide (x.2 ≤ s.beat))) } }))
      ∧
    (∃ (node : W16) (u : State) (s : State), (u =
      { s with rmem := { s.rmem with unreachable := s.rmem.unreachable.filter (fun x => !(x.1 == node && decide (x.2 ≤ s.beat))) } })
      ∧ (∀ x ∈ s.rmem.waiting, x.2 = [])) ∧
    (∃ (b : Nat) (tb : Tab (BitVec 256)) (s : State), (s.rmem.next = some (b, tb)) ∧ (b ≤ s.beat)) ∧
    (∃ (s : State), (∀ x ∈ s.rmem.next, s.beat < x.1)) ∧
    (∃ (rim : RimId) (win : Nat) (s : State), (∀ x ∈ s.fabric.packs, (x.rim == rim.val && x.win == win && packStale s x) =
      false)) :=
  ⟨⟨3, (BitVec.ofNat 512 (fLOAD + 0 * 2 ^ 16 + 0 * 2 ^ 32 + 0 * 2 ^ 64 + 32 * 2 ^ 128 + 12 * 2 ^ 160 + 64 * 2 ^ 192)), _,
    State.reset, rfl⟩,
   ⟨3, (BitVec.ofNat 512 (fLOAD + 256 + 32 * 2 ^ 128)), [],
     { State.reset with rmem := { waiting := [(3, [(BitVec.ofNat 512 (fLOAD + 256 + 32 * 2 ^ 128))])], tracks := [{ tag := 5, queue := 3, record := 0, began := 0, left := 1 }] } },
     by decide +kernel⟩,
   ⟨3, (BitVec.ofNat 512 (fATOMIC + 0 * 2 ^ 16 + 0 * 2 ^ 32 + 0 * 2 ^ 64 + 3 * 2 ^ 128 + 12 * 2 ^ 160 + 64 * 2 ^ 192)), [],
     { State.reset with rmem := { waiting := [(3, [(BitVec.ofNat 512 (fATOMIC + 0 * 2 ^ 16 + 0 * 2 ^ 32 + 0 * 2 ^ 64 + 3 * 2 ^ 128 + 12 * 2 ^ 160 + 64 * 2 ^ 192))])] } },
     by decide +kernel⟩,
   ⟨3, 0, [], { State.reset with rmem := { waiting := [(3, [0])] } }, by decide +kernel⟩,
   ⟨3, (BitVec.ofNat 512 (fPUT + 0 * 2 ^ 16 + 0 * 2 ^ 32 + 0 * 2 ^ 64 + 64 * 2 ^ 128 + 12 * 2 ^ 160 + 64 * 2 ^ 192)), [],
     { State.reset with rmem := { waiting := [(3, [(BitVec.ofNat 512 (fPUT + 0 * 2 ^ 16 + 0 * 2 ^ 32 + 0 * 2 ^ 64 + 64 * 2 ^ 128 + 12 * 2 ^ 160 + 64 * 2 ^ 192))])], unreachable := [(0, 5)] } },
     by decide +kernel⟩,
   ⟨3, (BitVec.ofNat 512 (fPUT + 0 * 2 ^ 16 + 0 * 2 ^ 32 + 0 * 2 ^ 64 + 64 * 2 ^ 128 + 12 * 2 ^ 160 + 64 * 2 ^ 192)), [],
     { State.reset with rmem := { waiting := [(3, [(BitVec.ofNat 512 (fPUT + 0 * 2 ^ 16 + 0 * 2 ^ 32 + 0 * 2 ^ 64 + 64 * 2 ^ 128 + 12 * 2 ^ 160 + 64 * 2 ^ 192))])] }, fabric := { rates := [{ dest := 0, rate := 1, tokens := -1, lastDec := 0, lastMark := 0, filled := 0, used := 0 }] } },
     by decide +kernel⟩,
   ⟨3, (BitVec.ofNat 512 (fLOAD + 0 * 2 ^ 16 + 0 * 2 ^ 32 + 0 * 2 ^ 64 + 32 * 2 ^ 128 + 12 * 2 ^ 160 + 64 * 2 ^ 192)), [],
     { State.reset with rmem := { waiting := [(3, [(BitVec.ofNat 512 (fLOAD + 0 * 2 ^ 16 + 0 * 2 ^ 32 + 0 * 2 ^ 64 + 32 * 2 ^ 128 + 12 * 2 ^ 160 + 64 * 2 ^ 192))])] } },
     by decide +kernel⟩,
   ⟨State.reset, by decide +kernel⟩,
   ⟨3, (BitVec.ofNat 512 (fLOAD + 0 * 2 ^ 16 + 0 * 2 ^ 32 + 0 * 2 ^ 64 + 32 * 2 ^ 128 + 12 * 2 ^ 160 + 64 * 2 ^ 192)),
     State.reset, by decide +kernel⟩,
   ⟨3, 0, State.reset, by decide +kernel⟩,
   ⟨3, (BitVec.ofNat 512 (fATOMIC + 0 * 2 ^ 16 + 0 * 2 ^ 32 + 0 * 2 ^ 64 + 3 * 2 ^ 128 + 12 * 2 ^ 160 + 64 * 2 ^ 192)),
     State.reset, by decide +kernel⟩,
   ⟨3, (BitVec.ofNat 512 (fPUT + 0 * 2 ^ 16 + 0 * 2 ^ 32 + 0 * 2 ^ 64 + 64 * 2 ^ 128 + 12 * 2 ^ 160 + 64 * 2 ^ 192)),
     { State.reset with rmem := { unreachable := [(0, 5)] } }, by decide +kernel⟩,
   ⟨5, State.reset, by decide +kernel⟩,
   ⟨5, { tag := 5, queue := 3, record := (BitVec.ofNat 512 (fPUT + 0 * 2 ^ 16 + 0 * 2 ^ 32 + 0 * 2 ^ 64 + 64 * 2 ^ 128 + 12 * 2 ^ 160 + 64 * 2 ^ 192)), began := 0, left := 1 },
     _, (State.setObj { State.reset with beat := 1000, rmem := { tracks := [{ tag := 5, queue := 3, record := (BitVec.ofNat 512 (fPUT + 0 * 2 ^ 16 + 0 * 2 ^ 32 + 0 * 2 ^ 64 + 64 * 2 ^ 128 + 12 * 2 ^ 160 + 64 * 2 ^ 192)), began := 0, left := 1 }] } }
     Obj.rmemTimeoutUs 1), by decide +kernel, by decide +kernel, rfl⟩,
   ⟨5, { tag := 5, queue := 3, record := (BitVec.ofNat 512 (fPUT + 0 * 2 ^ 16 + 0 * 2 ^ 32 + 0 * 2 ^ 64 + 64 * 2 ^ 128 + 12 * 2 ^ 160 + 64 * 2 ^ 192)), began := 0, left := 1 },
     (State.setObj { State.reset with beat := 1000, rmem := { tracks := [{ tag := 5, queue := 3, record := (BitVec.ofNat 512 (fPUT + 0 * 2 ^ 16 + 0 * 2 ^ 32 + 0 * 2 ^ 64 + 64 * 2 ^ 128 + 12 * 2 ^ 160 + 64 * 2 ^ 192)), began := 0, left := 1 }] } }
     Obj.rmemTimeoutUs 1), by decide +kernel⟩,
   ⟨3, _, { State.reset with rmem := { unreachable := [(3, 0), (4, 0)] } }, rfl⟩,
   ⟨3, _, { State.reset with rmem := { unreachable := [(3, 0), (4, 0)] } }, rfl, by decide +kernel⟩,
   ⟨0, [(1, 2)], { State.reset with rmem := { next := some (0, [(1, 2)]) } }, by decide +kernel⟩,
   ⟨State.reset, by decide +kernel⟩,
   ⟨0, 2, State.reset, by decide +kernel⟩⟩

/-- The hypotheses of each clause of Replies can be met. -/
theorem witness_Replies :
    (∃ (pkt : Packet) (u : State) (s : State), (replyFor fLOADDATA pkt s = (none, u))) ∧
    (∃ (pkt : Packet) (u : State) (s : State), (replyFor fGETDATA pkt s = (none, u))) ∧
    (∃ (pkt : Packet) (u : State) (s : State), (replyFor fATOMICDATA pkt s = (none, u))) ∧
    (∃ (pkt : Packet) (u : State) (s : State), (replyFor fACK pkt s = (none, u))) ∧
    (∃ (pkt : Packet) (u : State) (s : State), (replyFor fSTATUS pkt s = (none, u))) ∧
    (∃ (pkt : Packet) (tr : Track) (u : State) (s : State), (replyFor fLOADDATA pkt s = (some tr, u)) ∧ (crOp tr.record ≠
      fLOAD)) ∧
    (∃ (pkt : Packet) (tr : Track) (u : State) (s : State), (replyFor fGETDATA pkt s = (some tr, u)) ∧ (crOp tr.record ≠
      fGET)) ∧
    (∃ (pkt : Packet) (tr : Track) (u : State) (s : State), (replyFor fATOMICDATA pkt s = (some tr, u)) ∧ (crOp tr.record ≠
      fATOMIC)) ∧
    (∃ (pkt : Packet) (tr : Track) (u : State) (s : State), (replyFor fACK pkt s = (some tr, u)) ∧ (crWrites tr.record =
      false ∨ crOp tr.record = fATOMIC)) ∧
    (∃ (op : Nat) (k : Packet) (s u : State), arriveHere op k s = (false, u)) ∧
    (∃ (op : Nat) (k : Packet) (s u : State), arriveHere op k s = (true, u)) ∧
    (∃ (pkt : Packet) (tr : Track) (u : State) (at_ : Nat) (s : State), (replyFor fLOADDATA pkt s = (some tr, u)) ∧ (crOp
      tr.record = fLOAD) ∧ (at_ = pkOffset pkt.hdr - crOffset tr.record)) ∧
    (∃ (pkt : Packet) (tr : Track) (u : State) (at_ : Nat) (b : Bytes) (s : State), (replyFor fGETDATA pkt s = (some tr, u))
      ∧ (crOp tr.record = fGET) ∧ (at_ = pkOffset pkt.hdr) ∧ (b = ((fitBytes (pkLength pkt.hdr) pkt.payload).take (crLength
      tr.record - at_)))) ∧
    (∃ (pkt : Packet) (tr : Track) (u : State) (s : State), (replyFor fATOMICDATA pkt s = (some tr, u)) ∧ (crOp tr.record =
      fATOMIC)) ∧
    (∃ (pkt : Packet) (tr : Track) (u : State) (s : State), (replyFor fACK pkt s = (some tr, u)) ∧ (crWrites tr.record =
      true) ∧ (crOp tr.record ≠ fATOMIC)) ∧
    (∃ (pkt : Packet) (tr : Track) (u : State) (v w : State) (s : State), (replyFor fSTATUS pkt s = (some tr, u)) ∧ (v = (if
      (bitsAt (pkSpecA pkt.hdr) 0 8) = 1 then markUnreachable (crDest tr.record) u else u)) ∧ (w = (if tr.queue = noQueue
      then logEvent Obj.rmemLastFaultNode 2 (pkSpecB pkt.hdr) 0xFF 0 (bvBytes pkt.hdr) ((State.setObj
      { v with rmem := { v.rmem with sendLost := v.rmem.sendLost + 1 } } Obj.rmemLastFaultNode (crDest tr.record)).setObj
      Obj.rmemLastFaultBeat v.beat) else v)) ∧ (¬(crOp tr.record = fPUT ∨ crOp tr.record = fMCAST))) ∧
    (∃ (pkt : Packet) (tr : Track) (u : State) (v w : State) (f : Nat × Nat × Nat) (s : State), (replyFor fSTATUS pkt s =
      (some tr, u)) ∧ (v = (if (bitsAt (pkSpecA pkt.hdr) 0 8) = 1 then markUnreachable (crDest tr.record) u else u)) ∧ (w =
      (if tr.queue = noQueue then logEvent Obj.rmemLastFaultNode 2 (pkSpecB pkt.hdr) 0xFF 0 (bvBytes pkt.hdr) ((State.setObj
      { v with rmem := { v.rmem with sendLost := v.rmem.sendLost + 1 } } Obj.rmemLastFaultNode (crDest tr.record)).setObj
      Obj.rmemLastFaultBeat v.beat) else v)) ∧ (crOp tr.record = fPUT ∨ crOp tr.record = fMCAST) ∧ (f = tr.failure.elim
      (pkOffset pkt.hdr, (bitsAt (pkSpecA pkt.hdr) 0 8), pkSpecB pkt.hdr) (fun x => if pkOffset pkt.hdr < x.1 then (pkOffset
      pkt.hdr, (bitsAt (pkSpecA pkt.hdr) 0 8), pkSpecB pkt.hdr) else x))) ∧
    (∃ (x : Track) (n : Nat), x.left ≤ n) ∧
    (∃ (x : Track) (n : Nat), n < x.left) ∧
    (∃ x : Track, x.queue < 64) ∧
    (∃ (pkt : Packet) (tr : Track) (s : State), (pkOp pkt.hdr = fLOADDATA) ∧ (headerGood s pkt.hdr = true) ∧ (pkCecho pkt.hdr
      = 0) ∧ (s.fabric.paced = []) ∧ (s.fabric.untagged = []) ∧ (∀ x ∈ s.rmem.waiting, x.2 = []) ∧ (s.rmem.tracks.find? (fun
      x => x.tag == BitVec.ofNat 16 (pkTag pkt.hdr)) = some tr) ∧ (tr.queue < 64) ∧ (crOp tr.record = fLOAD) ∧ (pkOffset
      pkt.hdr = crOffset tr.record) ∧ (pkLength pkt.hdr = crLength tr.record) ∧ (tr.left = crLength tr.record) ∧ (tr.failure
      = none) ∧ (crLocal tr.record < dramHomeBase)) ∧
    (∃ (pkt : Packet) (tr : Track) (s : State), (pkOp pkt.hdr = fGETDATA) ∧ (headerGood s pkt.hdr = true) ∧ (pkCecho pkt.hdr
      = 0) ∧ (s.fabric.paced = []) ∧ (s.fabric.untagged = []) ∧ (∀ x ∈ s.rmem.waiting, x.2 = []) ∧ (s.rmem.tracks.find? (fun
      x => x.tag == BitVec.ofNat 16 (pkTag pkt.hdr)) = some tr) ∧ (tr.queue < 64) ∧ (crOp tr.record = fGET) ∧ (pkOffset
      pkt.hdr + pkLength pkt.hdr ≤ crLength tr.record) ∧ (pkLength pkt.hdr = tr.left) ∧ (tr.failure = none) ∧ (crLocal
      tr.record < dramHomeBase)) ∧
    (∃ (pkt : Packet) (tr : Track) (s : State), (pkOp pkt.hdr = fGETDATA) ∧ (headerGood s pkt.hdr = true) ∧ (pkCecho pkt.hdr
      = 0) ∧ (s.fabric.paced = []) ∧ (s.fabric.untagged = []) ∧ (∀ x ∈ s.rmem.waiting, x.2 = []) ∧ (s.rmem.tracks.find? (fun
      x => x.tag == BitVec.ofNat 16 (pkTag pkt.hdr)) = some tr) ∧ (tr.queue < 64) ∧ (crOp tr.record = fGET) ∧ (pkOffset
      pkt.hdr + pkLength pkt.hdr ≤ crLength tr.record) ∧ (pkLength pkt.hdr < tr.left) ∧ (crLocal tr.record < dramHomeBase)) ∧
    (∃ (pkt : Packet) (tr : Track) (s : State), (pkOp pkt.hdr = fATOMICDATA) ∧ (headerGood s pkt.hdr = true) ∧ (pkCecho
      pkt.hdr = 0) ∧ (s.fabric.paced = []) ∧ (s.fabric.untagged = []) ∧ (∀ x ∈ s.rmem.waiting, x.2 = []) ∧
      (s.rmem.tracks.find? (fun x => x.tag == BitVec.ofNat 16 (pkTag pkt.hdr)) = some tr) ∧ (tr.queue < 64) ∧ (crOp tr.record
      = fATOMIC) ∧ (crLocal tr.record < dramHomeBase)) ∧
    (∃ (pkt : Packet) (tr : Track) (s : State), (pkOp pkt.hdr = fACK) ∧ (headerGood s pkt.hdr = true) ∧ (pkCecho pkt.hdr = 0)
      ∧ (s.fabric.paced = []) ∧ (s.fabric.untagged = []) ∧ (∀ x ∈ s.rmem.waiting, x.2 = []) ∧ (s.rmem.tracks.find? (fun x =>
      x.tag == BitVec.ofNat 16 (pkTag pkt.hdr)) = some tr) ∧ (tr.queue < 64) ∧ (crWrites tr.record = true) ∧ (crOp tr.record
      ≠ fATOMIC) ∧ (tr.left = 1) ∧ (tr.failure = none)) ∧
    (∃ (pkt : Packet) (tr : Track) (s : State), (pkOp pkt.hdr = fACK) ∧ (headerGood s pkt.hdr = true) ∧ (pkCecho pkt.hdr = 0)
      ∧ (s.fabric.paced = []) ∧ (s.fabric.untagged = []) ∧ (∀ x ∈ s.rmem.waiting, x.2 = []) ∧ (s.rmem.tracks.find? (fun x =>
      x.tag == BitVec.ofNat 16 (pkTag pkt.hdr)) = some tr) ∧ (tr.queue < 64) ∧ (crWrites tr.record = true) ∧ (crOp tr.record
      ≠ fATOMIC) ∧ (2 ≤ tr.left)) ∧
    (∃ (pkt : Packet) (tr : Track) (s : State), (pkOp pkt.hdr = fSTATUS) ∧ (headerGood s pkt.hdr = true) ∧ (pkCecho pkt.hdr =
      0) ∧ (s.fabric.paced = []) ∧ (s.fabric.untagged = []) ∧ (∀ x ∈ s.rmem.waiting, x.2 = []) ∧ (s.rmem.tracks.find? (fun x
      => x.tag == BitVec.ofNat 16 (pkTag pkt.hdr)) = some tr) ∧ (tr.queue < 64) ∧ (crOp tr.record = fSTORE ∨ crOp tr.record =
      fFLAG ∨ crOp tr.record = fBARRIER) ∧ ((bitsAt (pkSpecA pkt.hdr) 0 8) ≠ 0)) :=
  ⟨⟨{ hdr := sealHeader (fabricHdr fLOADDATA 0 0 0 0 32 0 5 0 0 0), payload := [] }, (replyFor fLOADDATA
    { hdr := sealHeader (fabricHdr fLOADDATA 0 0 0 0 32 0 5 0 0 0), payload := [] } State.reset).2, State.reset,
    by decide +kernel⟩,
   ⟨{ hdr := sealHeader (fabricHdr fGETDATA 0 0 0 0 32 0 5 0 0 0), payload := [] }, (replyFor fGETDATA
     { hdr := sealHeader (fabricHdr fGETDATA 0 0 0 0 32 0 5 0 0 0), payload := [] } State.reset).2, State.reset,
     by decide +kernel⟩,
   ⟨{ hdr := sealHeader (fabricHdr fATOMICDATA 0 0 0 0 32 0 5 0 0 0), payload := [] }, (replyFor fATOMICDATA
     { hdr := sealHeader (fabricHdr fATOMICDATA 0 0 0 0 32 0 5 0 0 0), payload := [] } State.reset).2, State.reset,
     by decide +kernel⟩,
   ⟨{ hdr := sealHeader (fabricHdr fACK 0 0 0 0 32 0 5 0 0 0), payload := [] }, (replyFor fACK
     { hdr := sealHeader (fabricHdr fACK 0 0 0 0 32 0 5 0 0 0), payload := [] } State.reset).2, State.reset,
     by decide +kernel⟩,
   ⟨{ hdr := sealHeader (fabricHdr fSTATUS 0 0 0 0 32 0 5 0 0 0), payload := [] }, (replyFor fSTATUS
     { hdr := sealHeader (fabricHdr fSTATUS 0 0 0 0 32 0 5 0 0 0), payload := [] } State.reset).2, State.reset,
     by decide +kernel⟩,
   ⟨{ hdr := sealHeader (fabricHdr fLOADDATA 0 0 0 0 32 0 5 0 0 0), payload := List.replicate 32 7 },
     { tag := 5, queue := 3, record := (BitVec.ofNat 512 (fATOMIC + 0 * 2 ^ 16 + 0 * 2 ^ 32 + 0 * 2 ^ 64 + 32 * 2 ^ 128 + 12 * 2 ^ 160 + 64 * 2 ^ 192)), began := 0, left := 1 },
     (replyFor fLOADDATA { hdr := sealHeader (fabricHdr fLOADDATA 0 0 0 0 32 0 5 0 0 0), payload := List.replicate 32 7 }
     ({ State.reset with rmem := { tracks := [{ tag := 5, queue := 3, record := (BitVec.ofNat 512 (fATOMIC + 0 * 2 ^ 16 + 0 * 2 ^ 32 + 0 * 2 ^ 64 + 32 * 2 ^ 128 + 12 * 2 ^ 160 + 64 * 2 ^ 192)), began := 0, left := 1 }] } })).2,
     { State.reset with rmem := { tracks := [{ tag := 5, queue := 3, record := (BitVec.ofNat 512 (fATOMIC + 0 * 2 ^ 16 + 0 * 2 ^ 32 + 0 * 2 ^ 64 + 32 * 2 ^ 128 + 12 * 2 ^ 160 + 64 * 2 ^ 192)), began := 0, left := 1 }] } },
     by decide +kernel⟩,
   ⟨{ hdr := sealHeader (fabricHdr fGETDATA 0 0 0 0 32 0 5 0 0 0), payload := List.replicate 32 7 },
     { tag := 5, queue := 3, record := (BitVec.ofNat 512 (fATOMIC + 0 * 2 ^ 16 + 0 * 2 ^ 32 + 0 * 2 ^ 64 + 32 * 2 ^ 128 + 12 * 2 ^ 160 + 64 * 2 ^ 192)), began := 0, left := 1 },
     (replyFor fGETDATA { hdr := sealHeader (fabricHdr fGETDATA 0 0 0 0 32 0 5 0 0 0), payload := List.replicate 32 7 }
     ({ State.reset with rmem := { tracks := [{ tag := 5, queue := 3, record := (BitVec.ofNat 512 (fATOMIC + 0 * 2 ^ 16 + 0 * 2 ^ 32 + 0 * 2 ^ 64 + 32 * 2 ^ 128 + 12 * 2 ^ 160 + 64 * 2 ^ 192)), began := 0, left := 1 }] } })).2,
     { State.reset with rmem := { tracks := [{ tag := 5, queue := 3, record := (BitVec.ofNat 512 (fATOMIC + 0 * 2 ^ 16 + 0 * 2 ^ 32 + 0 * 2 ^ 64 + 32 * 2 ^ 128 + 12 * 2 ^ 160 + 64 * 2 ^ 192)), began := 0, left := 1 }] } },
     by decide +kernel⟩,
   ⟨{ hdr := sealHeader (fabricHdr fATOMICDATA 0 0 0 0 32 0 5 0 0 0), payload := List.replicate 32 7 },
     { tag := 5, queue := 3, record := (BitVec.ofNat 512 (fPUT + 0 * 2 ^ 16 + 0 * 2 ^ 32 + 0 * 2 ^ 64 + 32 * 2 ^ 128 + 12 * 2 ^ 160 + 64 * 2 ^ 192)), began := 0, left := 1 },
     (replyFor fATOMICDATA { hdr := sealHeader (fabricHdr fATOMICDATA 0 0 0 0 32 0 5 0 0 0), payload := List.replicate 32 7 }
     ({ State.reset with rmem := { tracks := [{ tag := 5, queue := 3, record := (BitVec.ofNat 512 (fPUT + 0 * 2 ^ 16 + 0 * 2 ^ 32 + 0 * 2 ^ 64 + 32 * 2 ^ 128 + 12 * 2 ^ 160 + 64 * 2 ^ 192)), began := 0, left := 1 }] } })).2,
     { State.reset with rmem := { tracks := [{ tag := 5, queue := 3, record := (BitVec.ofNat 512 (fPUT + 0 * 2 ^ 16 + 0 * 2 ^ 32 + 0 * 2 ^ 64 + 32 * 2 ^ 128 + 12 * 2 ^ 160 + 64 * 2 ^ 192)), began := 0, left := 1 }] } },
     by decide +kernel⟩,
   ⟨{ hdr := sealHeader (fabricHdr fACK 0 0 0 0 32 0 5 0 0 0), payload := List.replicate 32 7 },
     { tag := 5, queue := 3, record := (BitVec.ofNat 512 (fATOMIC + 0 * 2 ^ 16 + 0 * 2 ^ 32 + 0 * 2 ^ 64 + 32 * 2 ^ 128 + 12 * 2 ^ 160 + 64 * 2 ^ 192)), began := 0, left := 1 },
     (replyFor fACK { hdr := sealHeader (fabricHdr fACK 0 0 0 0 32 0 5 0 0 0), payload := List.replicate 32 7 }
     ({ State.reset with rmem := { tracks := [{ tag := 5, queue := 3, record := (BitVec.ofNat 512 (fATOMIC + 0 * 2 ^ 16 + 0 * 2 ^ 32 + 0 * 2 ^ 64 + 32 * 2 ^ 128 + 12 * 2 ^ 160 + 64 * 2 ^ 192)), began := 0, left := 1 }] } })).2,
     { State.reset with rmem := { tracks := [{ tag := 5, queue := 3, record := (BitVec.ofNat 512 (fATOMIC + 0 * 2 ^ 16 + 0 * 2 ^ 32 + 0 * 2 ^ 64 + 32 * 2 ^ 128 + 12 * 2 ^ 160 + 64 * 2 ^ 192)), began := 0, left := 1 }] } },
     by decide +kernel⟩,
   ⟨1, { hdr := 0, payload := [] }, State.reset, State.reset, by decide +kernel⟩,
   ⟨fACK, { hdr := sealHeader (fabricHdr fACK 0 0 0 0 32 0 5 0 0 0), payload := [] }, State.reset, (arriveHere fACK
     { hdr := sealHeader (fabricHdr fACK 0 0 0 0 32 0 5 0 0 0), payload := [] } State.reset).2, by decide +kernel⟩,
   ⟨{ hdr := sealHeader (fabricHdr fLOADDATA 0 0 0 0 32 0 5 0 0 0), payload := List.replicate 32 7 },
     { tag := 5, queue := 3, record := (BitVec.ofNat 512 (fLOAD + 0 * 2 ^ 16 + 0 * 2 ^ 32 + 0 * 2 ^ 64 + 32 * 2 ^ 128 + 12 * 2 ^ 160 + 64 * 2 ^ 192)), began := 0, left := 32 },
     (replyFor fLOADDATA { hdr := sealHeader (fabricHdr fLOADDATA 0 0 0 0 32 0 5 0 0 0), payload := List.replicate 32 7 }
     ({ State.reset with rmem := { tracks := [{ tag := 5, queue := 3, record := (BitVec.ofNat 512 (fLOAD + 0 * 2 ^ 16 + 0 * 2 ^ 32 + 0 * 2 ^ 64 + 32 * 2 ^ 128 + 12 * 2 ^ 160 + 64 * 2 ^ 192)), began := 0, left := 32 }] } })).2,
     _, { State.reset with rmem := { tracks := [{ tag := 5, queue := 3, record := (BitVec.ofNat 512 (fLOAD + 0 * 2 ^ 16 + 0 * 2 ^ 32 + 0 * 2 ^ 64 + 32 * 2 ^ 128 + 12 * 2 ^ 160 + 64 * 2 ^ 192)), began := 0, left := 32 }] } },
     by decide +kernel, by decide +kernel, rfl⟩,
   ⟨{ hdr := sealHeader (fabricHdr fGETDATA 0 0 0 32 32 0 5 0 0 0), payload := List.replicate 32 7 },
     { tag := 5, queue := 3, record := (BitVec.ofNat 512 (fGET + 0 * 2 ^ 16 + 0 * 2 ^ 32 + 0 * 2 ^ 64 + 64 * 2 ^ 128 + 12 * 2 ^ 160 + 64 * 2 ^ 192)), began := 0, left := 32 },
     (replyFor fGETDATA { hdr := sealHeader (fabricHdr fGETDATA 0 0 0 32 32 0 5 0 0 0), payload := List.replicate 32 7 }
     ({ State.reset with rmem := { tracks := [{ tag := 5, queue := 3, record := (BitVec.ofNat 512 (fGET + 0 * 2 ^ 16 + 0 * 2 ^ 32 + 0 * 2 ^ 64 + 64 * 2 ^ 128 + 12 * 2 ^ 160 + 64 * 2 ^ 192)), began := 0, left := 32 }] } })).2,
     _, _, { State.reset with rmem := { tracks := [{ tag := 5, queue := 3, record := (BitVec.ofNat 512 (fGET + 0 * 2 ^ 16 + 0 * 2 ^ 32 + 0 * 2 ^ 64 + 64 * 2 ^ 128 + 12 * 2 ^ 160 + 64 * 2 ^ 192)), began := 0, left := 32 }] } },
     by decide +kernel, by decide +kernel, rfl, rfl⟩,
   ⟨{ hdr := sealHeader (fabricHdr fATOMICDATA 0 0 0 0 32 0 5 0 0 0), payload := List.replicate 32 7 },
     { tag := 5, queue := 3, record := (BitVec.ofNat 512 (fATOMIC + 0 * 2 ^ 16 + 0 * 2 ^ 32 + 0 * 2 ^ 64 + 8 * 2 ^ 128 + 12 * 2 ^ 160 + 64 * 2 ^ 192)), began := 0, left := 1 },
     (replyFor fATOMICDATA { hdr := sealHeader (fabricHdr fATOMICDATA 0 0 0 0 32 0 5 0 0 0), payload := List.replicate 32 7 }
     ({ State.reset with rmem := { tracks := [{ tag := 5, queue := 3, record := (BitVec.ofNat 512 (fATOMIC + 0 * 2 ^ 16 + 0 * 2 ^ 32 + 0 * 2 ^ 64 + 8 * 2 ^ 128 + 12 * 2 ^ 160 + 64 * 2 ^ 192)), began := 0, left := 1 }] } })).2,
     { State.reset with rmem := { tracks := [{ tag := 5, queue := 3, record := (BitVec.ofNat 512 (fATOMIC + 0 * 2 ^ 16 + 0 * 2 ^ 32 + 0 * 2 ^ 64 + 8 * 2 ^ 128 + 12 * 2 ^ 160 + 64 * 2 ^ 192)), began := 0, left := 1 }] } },
     by decide +kernel⟩,
   ⟨{ hdr := sealHeader (fabricHdr fACK 0 0 0 0 32 0 5 0 0 0), payload := List.replicate 32 7 },
     { tag := 5, queue := 3, record := (BitVec.ofNat 512 (fPUT + 0 * 2 ^ 16 + 0 * 2 ^ 32 + 0 * 2 ^ 64 + 64 * 2 ^ 128 + 12 * 2 ^ 160 + 64 * 2 ^ 192)), began := 0, left := 1 },
     (replyFor fACK { hdr := sealHeader (fabricHdr fACK 0 0 0 0 32 0 5 0 0 0), payload := List.replicate 32 7 }
     ({ State.reset with rmem := { tracks := [{ tag := 5, queue := 3, record := (BitVec.ofNat 512 (fPUT + 0 * 2 ^ 16 + 0 * 2 ^ 32 + 0 * 2 ^ 64 + 64 * 2 ^ 128 + 12 * 2 ^ 160 + 64 * 2 ^ 192)), began := 0, left := 1 }] } })).2,
     { State.reset with rmem := { tracks := [{ tag := 5, queue := 3, record := (BitVec.ofNat 512 (fPUT + 0 * 2 ^ 16 + 0 * 2 ^ 32 + 0 * 2 ^ 64 + 64 * 2 ^ 128 + 12 * 2 ^ 160 + 64 * 2 ^ 192)), began := 0, left := 1 }] } },
     by decide +kernel⟩,
   ⟨{ hdr := sealHeader (fabricHdr fSTATUS 0 0 0 0 32 0 5 1 0 0), payload := List.replicate 32 7 },
     { tag := 5, queue := 3, record := (BitVec.ofNat 512 (fSTORE + 0 * 2 ^ 16 + 0 * 2 ^ 32 + 0 * 2 ^ 64 + 8 * 2 ^ 128 + 12 * 2 ^ 160 + 64 * 2 ^ 192)), began := 0, left := 1 },
     (replyFor fSTATUS { hdr := sealHeader (fabricHdr fSTATUS 0 0 0 0 32 0 5 1 0 0), payload := List.replicate 32 7 }
     ({ State.reset with rmem := { tracks := [{ tag := 5, queue := 3, record := (BitVec.ofNat 512 (fSTORE + 0 * 2 ^ 16 + 0 * 2 ^ 32 + 0 * 2 ^ 64 + 8 * 2 ^ 128 + 12 * 2 ^ 160 + 64 * 2 ^ 192)), began := 0, left := 1 }] } })).2,
     _, _, { State.reset with rmem := { tracks := [{ tag := 5, queue := 3, record := (BitVec.ofNat 512 (fSTORE + 0 * 2 ^ 16 + 0 * 2 ^ 32 + 0 * 2 ^ 64 + 8 * 2 ^ 128 + 12 * 2 ^ 160 + 64 * 2 ^ 192)), began := 0, left := 1 }] } },
     by decide +kernel, rfl, rfl, by decide +kernel⟩,
   ⟨{ hdr := sealHeader (fabricHdr fSTATUS 0 0 0 0 32 0 5 1 0 0), payload := List.replicate 32 7 },
     { tag := 5, queue := 3, record := (BitVec.ofNat 512 (fPUT + 0 * 2 ^ 16 + 0 * 2 ^ 32 + 0 * 2 ^ 64 + 64 * 2 ^ 128 + 12 * 2 ^ 160 + 64 * 2 ^ 192)), began := 0, left := 1 },
     (replyFor fSTATUS { hdr := sealHeader (fabricHdr fSTATUS 0 0 0 0 32 0 5 1 0 0), payload := List.replicate 32 7 }
     ({ State.reset with rmem := { tracks := [{ tag := 5, queue := 3, record := (BitVec.ofNat 512 (fPUT + 0 * 2 ^ 16 + 0 * 2 ^ 32 + 0 * 2 ^ 64 + 64 * 2 ^ 128 + 12 * 2 ^ 160 + 64 * 2 ^ 192)), began := 0, left := 1 }] } })).2,
     _, _, _, { State.reset with rmem := { tracks := [{ tag := 5, queue := 3, record := (BitVec.ofNat 512 (fPUT + 0 * 2 ^ 16 + 0 * 2 ^ 32 + 0 * 2 ^ 64 + 64 * 2 ^ 128 + 12 * 2 ^ 160 + 64 * 2 ^ 192)), began := 0, left := 1 }] } },
     by decide +kernel, rfl, rfl, by decide +kernel, rfl⟩,
   ⟨{ tag := 5, queue := 3, record := (BitVec.ofNat 512 (fPUT + 0 * 2 ^ 16 + 0 * 2 ^ 32 + 0 * 2 ^ 64 + 32 * 2 ^ 128 + 12 * 2 ^ 160 + 64 * 2 ^ 192)), began := 0, left := 1 },
     1, by decide⟩,
   ⟨{ tag := 5, queue := 3, record := (BitVec.ofNat 512 (fPUT + 0 * 2 ^ 16 + 0 * 2 ^ 32 + 0 * 2 ^ 64 + 32 * 2 ^ 128 + 12 * 2 ^ 160 + 64 * 2 ^ 192)), began := 0, left := 1 },
     0, by decide⟩,
   ⟨{ tag := 5, queue := 3, record := (BitVec.ofNat 512 (fPUT + 0 * 2 ^ 16 + 0 * 2 ^ 32 + 0 * 2 ^ 64 + 32 * 2 ^ 128 + 12 * 2 ^ 160 + 64 * 2 ^ 192)), began := 0, left := 1 },
     by decide⟩,
   ⟨{ hdr := sealHeader (fabricHdr fLOADDATA 0 0 0 0 32 0 5 0 0 0), payload := List.replicate 32 7 },
     { tag := 5, queue := 3, record := (BitVec.ofNat 512 (fLOAD + 0 * 2 ^ 16 + 0 * 2 ^ 32 + 0 * 2 ^ 64 + 32 * 2 ^ 128 + 12 * 2 ^ 160 + 64 * 2 ^ 192)), began := 0, left := 32 },
     { State.reset with rmem := { tracks := [{ tag := 5, queue := 3, record := (BitVec.ofNat 512 (fLOAD + 0 * 2 ^ 16 + 0 * 2 ^ 32 + 0 * 2 ^ 64 + 32 * 2 ^ 128 + 12 * 2 ^ 160 + 64 * 2 ^ 192)), began := 0, left := 32 }] } },
     by decide +kernel⟩,
   ⟨{ hdr := sealHeader (fabricHdr fGETDATA 0 0 0 32 32 0 5 0 0 0), payload := List.replicate 32 7 },
     { tag := 5, queue := 3, record := (BitVec.ofNat 512 (fGET + 0 * 2 ^ 16 + 0 * 2 ^ 32 + 0 * 2 ^ 64 + 64 * 2 ^ 128 + 12 * 2 ^ 160 + 64 * 2 ^ 192)), began := 0, left := 32 },
     { State.reset with rmem := { tracks := [{ tag := 5, queue := 3, record := (BitVec.ofNat 512 (fGET + 0 * 2 ^ 16 + 0 * 2 ^ 32 + 0 * 2 ^ 64 + 64 * 2 ^ 128 + 12 * 2 ^ 160 + 64 * 2 ^ 192)), began := 0, left := 32 }] } },
     by decide +kernel⟩,
   ⟨{ hdr := sealHeader (fabricHdr fGETDATA 0 0 0 32 32 0 5 0 0 0), payload := List.replicate 32 7 },
     { tag := 5, queue := 3, record := (BitVec.ofNat 512 (fGET + 0 * 2 ^ 16 + 0 * 2 ^ 32 + 0 * 2 ^ 64 + 64 * 2 ^ 128 + 12 * 2 ^ 160 + 64 * 2 ^ 192)), began := 0, left := 64 },
     { State.reset with rmem := { tracks := [{ tag := 5, queue := 3, record := (BitVec.ofNat 512 (fGET + 0 * 2 ^ 16 + 0 * 2 ^ 32 + 0 * 2 ^ 64 + 64 * 2 ^ 128 + 12 * 2 ^ 160 + 64 * 2 ^ 192)), began := 0, left := 64 }] } },
     by decide +kernel⟩,
   ⟨{ hdr := sealHeader (fabricHdr fATOMICDATA 0 0 0 0 32 0 5 0 0 0), payload := List.replicate 32 7 },
     { tag := 5, queue := 3, record := (BitVec.ofNat 512 (fATOMIC + 0 * 2 ^ 16 + 0 * 2 ^ 32 + 0 * 2 ^ 64 + 8 * 2 ^ 128 + 12 * 2 ^ 160 + 64 * 2 ^ 192)), began := 0, left := 1 },
     { State.reset with rmem := { tracks := [{ tag := 5, queue := 3, record := (BitVec.ofNat 512 (fATOMIC + 0 * 2 ^ 16 + 0 * 2 ^ 32 + 0 * 2 ^ 64 + 8 * 2 ^ 128 + 12 * 2 ^ 160 + 64 * 2 ^ 192)), began := 0, left := 1 }] } },
     by decide +kernel⟩,
   ⟨{ hdr := sealHeader (fabricHdr fACK 0 0 0 0 32 0 5 0 0 0), payload := [] },
     { tag := 5, queue := 3, record := (BitVec.ofNat 512 (fPUT + 0 * 2 ^ 16 + 0 * 2 ^ 32 + 0 * 2 ^ 64 + 64 * 2 ^ 128 + 12 * 2 ^ 160 + 64 * 2 ^ 192)), began := 0, left := 1 },
     { State.reset with rmem := { tracks := [{ tag := 5, queue := 3, record := (BitVec.ofNat 512 (fPUT + 0 * 2 ^ 16 + 0 * 2 ^ 32 + 0 * 2 ^ 64 + 64 * 2 ^ 128 + 12 * 2 ^ 160 + 64 * 2 ^ 192)), began := 0, left := 1 }] } },
     by decide +kernel⟩,
   ⟨{ hdr := sealHeader (fabricHdr fACK 0 0 0 0 32 0 5 0 0 0), payload := [] },
     { tag := 5, queue := 3, record := (BitVec.ofNat 512 (fPUT + 0 * 2 ^ 16 + 0 * 2 ^ 32 + 0 * 2 ^ 64 + 2048 * 2 ^ 128 + 12 * 2 ^ 160 + 64 * 2 ^ 192)), began := 0, left := 2 },
     { State.reset with rmem := { tracks := [{ tag := 5, queue := 3, record := (BitVec.ofNat 512 (fPUT + 0 * 2 ^ 16 + 0 * 2 ^ 32 + 0 * 2 ^ 64 + 2048 * 2 ^ 128 + 12 * 2 ^ 160 + 64 * 2 ^ 192)), began := 0, left := 2 }] } },
     by decide +kernel⟩,
   ⟨{ hdr := sealHeader (fabricHdr fSTATUS 0 0 0 0 32 0 5 1 0 0), payload := [] },
     { tag := 5, queue := 3, record := (BitVec.ofNat 512 (fSTORE + 0 * 2 ^ 16 + 0 * 2 ^ 32 + 0 * 2 ^ 64 + 8 * 2 ^ 128 + 12 * 2 ^ 160 + 64 * 2 ^ 192)), began := 0, left := 1 },
     { State.reset with rmem := { tracks := [{ tag := 5, queue := 3, record := (BitVec.ofNat 512 (fSTORE + 0 * 2 ^ 16 + 0 * 2 ^ 32 + 0 * 2 ^ 64 + 8 * 2 ^ 128 + 12 * 2 ^ 160 + 64 * 2 ^ 192)), began := 0, left := 1 }] } },
     by decide +kernel⟩⟩

/-- The hypotheses of each clause of InNetworkReduction can be met. -/
theorem witness_InNetworkReduction :
    (∃ (p : PortId) (pkt : Packet) (s : State), (pkOp pkt.hdr ≠ fCPART ∨ takeIn p.val pkt s = none)) ∧
    (∃ (p : PortId) (pkt : Packet) (u : State) (s : State), (pkOp pkt.hdr = fCPART) ∧ (takeIn p.val pkt s = some u) ∧
      (headerGood u pkt.hdr = false)) ∧
    (∃ (p : PortId) (pkt : Packet) (u : State) (v : State) (s : State), (pkOp pkt.hdr = fCPART) ∧ (takeIn p.val pkt s = some
      u) ∧ (headerGood u pkt.hdr = true) ∧ (v = countEnd pkt.hdr (noteNode pkt.hdr (checkSeq pkt.hdr u))) ∧
      (v.fabric.colRes.find? (fun r => colId r.desc == pkSpecB pkt.hdr && colJob r.desc == pkJob pkt.hdr) = none)) ∧
    (∃ (p : PortId) (pkt : Packet) (u : State) (v : State) (r : CollRes) (s : State), (pkOp pkt.hdr = fCPART) ∧ (takeIn p.val
      pkt s = some u) ∧ (headerGood u pkt.hdr = true) ∧ (v = countEnd pkt.hdr (noteNode pkt.hdr (checkSeq pkt.hdr u))) ∧
      (v.fabric.colRes.find? (fun r => colId r.desc == pkSpecB pkt.hdr && colJob r.desc == pkJob pkt.hdr) = some r) ∧ (bitsAt
      (pkSpecA pkt.hdr) 0 2 ≠ colType r.desc ∨ pkOffset pkt.hdr % 64 ≠ 0 ∨ colLength r.desc < pkOffset pkt.hdr + pkLength
      pkt.hdr)) ∧
    (∃ (p : PortId) (pkt : Packet) (u : State) (v : State) (r : CollRes) (s : State), (pkOp pkt.hdr = fCPART) ∧ (takeIn p.val
      pkt s = some u) ∧ (headerGood u pkt.hdr = true) ∧ (v = countEnd pkt.hdr (noteNode pkt.hdr (checkSeq pkt.hdr u))) ∧
      (v.fabric.colRes.find? (fun r => colId r.desc == pkSpecB pkt.hdr && colJob r.desc == pkJob pkt.hdr) = some r) ∧
      (¬(bitsAt (pkSpecA pkt.hdr) 0 2 ≠ colType r.desc ∨ pkOffset pkt.hdr % 64 ≠ 0 ∨ colLength r.desc < pkOffset pkt.hdr +
      pkLength pkt.hdr)) ∧ ((slotNow v r (instSlot r (pkSpecC pkt.hdr))).began.isSome = true ∧ (slotNow v r (instSlot r
      (pkSpecC pkt.hdr))).inst ≠ pkSpecC pkt.hdr)) ∧
    (∃ (p : PortId) (pkt : Packet) (u : State) (v : State) (r : CollRes) (w : State) (s : State), (pkOp pkt.hdr = fCPART) ∧
      (takeIn p.val pkt s = some u) ∧ (headerGood u pkt.hdr = true) ∧ (v = countEnd pkt.hdr (noteNode pkt.hdr (checkSeq
      pkt.hdr u))) ∧ (v.fabric.colRes.find? (fun r => colId r.desc == pkSpecB pkt.hdr && colJob r.desc == pkJob pkt.hdr) =
      some r) ∧ (¬(bitsAt (pkSpecA pkt.hdr) 0 2 ≠ colType r.desc ∨ pkOffset pkt.hdr % 64 ≠ 0 ∨ colLength r.desc < pkOffset
      pkt.hdr + pkLength pkt.hdr)) ∧ (¬((slotNow v r (instSlot r (pkSpecC pkt.hdr))).began.isSome = true ∧ (slotNow v r
      (instSlot r (pkSpecC pkt.hdr))).inst ≠ pkSpecC pkt.hdr)) ∧ (w = setSlot (collKey r.rim (instSlot r (pkSpecC pkt.hdr)))
      { slotNow v r (instSlot r (pkSpecC pkt.hdr)) with inst := pkSpecC pkt.hdr, began := some ((slotNow v r (instSlot r (pkSpecC pkt.hdr))).began.getD v.beat) }
      v) ∧ ((portDir p.val) = r.rim)) ∧
    (∃ (p : PortId) (pkt : Packet) (u : State) (v : State) (r : CollRes) (w : State) (s : State), (pkOp pkt.hdr = fCPART) ∧
      (takeIn p.val pkt s = some u) ∧ (headerGood u pkt.hdr = true) ∧ (v = countEnd pkt.hdr (noteNode pkt.hdr (checkSeq
      pkt.hdr u))) ∧ (v.fabric.colRes.find? (fun r => colId r.desc == pkSpecB pkt.hdr && colJob r.desc == pkJob pkt.hdr) =
      some r) ∧ (¬(bitsAt (pkSpecA pkt.hdr) 0 2 ≠ colType r.desc ∨ pkOffset pkt.hdr % 64 ≠ 0 ∨ colLength r.desc < pkOffset
      pkt.hdr + pkLength pkt.hdr)) ∧ (¬((slotNow v r (instSlot r (pkSpecC pkt.hdr))).began.isSome = true ∧ (slotNow v r
      (instSlot r (pkSpecC pkt.hdr))).inst ≠ pkSpecC pkt.hdr)) ∧ (w = setSlot (collKey r.rim (instSlot r (pkSpecC pkt.hdr)))
      { slotNow v r (instSlot r (pkSpecC pkt.hdr)) with inst := pkSpecC pkt.hdr, began := some ((slotNow v r (instSlot r (pkSpecC pkt.hdr))).began.getD v.beat) }
      v) ∧ ((portDir p.val) ≠ r.rim)) ∧
    (∃ (r : CollRes) (s : State) (place : ColPlace) (arm : Nat), colPlace s r.desc = some place ∧ place.arms.contains arm =
      true) ∧
    (∃ (r : CollRes) (s : State) (place : ColPlace) (arm : Nat), colPlace s r.desc = some place ∧ place.arms.contains arm =
      true) ∧
    (∃ (rim : RimId) (slot : Byte) (s : State), (∀ x ∈ slotOwner s rim.val slot.toNat, ∀ b ∈ (slotNow s x.1 x.2).began,
      s.beat < b + 1000 * s.obj Obj.collTimeoutUs)) ∧
    (∃ (rim : RimId) (slot : Byte) (r : CollRes) (first b : Nat) (s : State), (slotOwner s rim.val slot.toNat = some (r,
      first)) ∧ ((slotNow s r first).began = some b) ∧ (b + 1000 * s.obj Obj.collTimeoutUs ≤ s.beat)) :=
  ⟨⟨0, { hdr := sealHeader (fabricHdr fCPART 0 0 0 0 64 0 5 0 0 0), payload := [7] }, State.reset, by decide +kernel⟩,
   ⟨0, { hdr := BitVec.ofNat 256 (fCPART * 2 ^ 8), payload := [7] }, ((takeIn 0
     { hdr := BitVec.ofNat 256 (fCPART * 2 ^ 8), payload := [7] }
     ({ State.reset with fabric := { width := 4, height := 4, colRes := [{ slot := 0, desc := BitVec.ofNat 256 (1 * 2 ^ 24 + 1 * 2 ^ 40 + 64 * 2 ^ 64), rim := 0, base := 4 }] }, ports := [(0, { state := 2, inq := [(pkVc (BitVec.ofNat 256 (fCPART * 2 ^ 8)), [{ hdr := BitVec.ofNat 256 (fCPART * 2 ^ 8), payload := [7] }])] })] })).getD
     State.reset), { State.reset with fabric := { width := 4, height := 4, colRes := [{ slot := 0, desc := BitVec.ofNat 256 (1 * 2 ^ 24 + 1 * 2 ^ 40 + 64 * 2 ^ 64), rim := 0, base := 4 }] }, ports := [(0, { state := 2, inq := [(pkVc (BitVec.ofNat 256 (fCPART * 2 ^ 8)), [{ hdr := BitVec.ofNat 256 (fCPART * 2 ^ 8), payload := [7] }])] })] },
     by decide +kernel⟩,
   ⟨0, { hdr := sealHeader (fabricHdr fCPART 0 0 0 0 64 0 5 0 0 0), payload := [7] }, ((takeIn 0
     { hdr := sealHeader (fabricHdr fCPART 0 0 0 0 64 0 5 0 0 0), payload := [7] }
     ({ State.reset with ports := [(0, { state := 2, inq := [(pkVc (sealHeader (fabricHdr fCPART 0 0 0 0 64 0 5 0 0 0)), [{ hdr := sealHeader (fabricHdr fCPART 0 0 0 0 64 0 5 0 0 0), payload := [7] }])] })] })).getD
     State.reset), _, { State.reset with ports := [(0, { state := 2, inq := [(pkVc (sealHeader (fabricHdr fCPART 0 0 0 0 64 0 5 0 0 0)), [{ hdr := sealHeader (fabricHdr fCPART 0 0 0 0 64 0 5 0 0 0), payload := [7] }])] })] },
     by decide +kernel, by decide +kernel, by decide +kernel, rfl, by decide +kernel⟩,
   ⟨0, { hdr := sealHeader (fabricHdr fCPART 0 0 0 0 64 0 5 1 0 0), payload := [7] }, ((takeIn 0
     { hdr := sealHeader (fabricHdr fCPART 0 0 0 0 64 0 5 1 0 0), payload := [7] }
     ({ State.reset with fabric := { width := 4, height := 4, colRes := [{ slot := 0, desc := BitVec.ofNat 256 (1 * 2 ^ 24 + 1 * 2 ^ 40 + 64 * 2 ^ 64), rim := 0, base := 4 }] }, ports := [(0, { state := 2, inq := [(pkVc (sealHeader (fabricHdr fCPART 0 0 0 0 64 0 5 1 0 0)), [{ hdr := sealHeader (fabricHdr fCPART 0 0 0 0 64 0 5 1 0 0), payload := [7] }])] })] })).getD
     State.reset), _, { slot := 0, desc := BitVec.ofNat 256 (1 * 2 ^ 24 + 1 * 2 ^ 40 + 64 * 2 ^ 64), rim := 0, base := 4 },
     { State.reset with fabric := { width := 4, height := 4, colRes := [{ slot := 0, desc := BitVec.ofNat 256 (1 * 2 ^ 24 + 1 * 2 ^ 40 + 64 * 2 ^ 64), rim := 0, base := 4 }] }, ports := [(0, { state := 2, inq := [(pkVc (sealHeader (fabricHdr fCPART 0 0 0 0 64 0 5 1 0 0)), [{ hdr := sealHeader (fabricHdr fCPART 0 0 0 0 64 0 5 1 0 0), payload := [7] }])] })] },
     by decide +kernel, by decide +kernel, by decide +kernel, rfl, by decide +kernel, by decide +kernel⟩,
   ⟨0, { hdr := sealHeader (fabricHdr fCPART 0 0 0 0 64 0 5 0 0 0), payload := [7] }, ((takeIn 0
     { hdr := sealHeader (fabricHdr fCPART 0 0 0 0 64 0 5 0 0 0), payload := [7] }
     ({ State.reset with fabric := { width := 4, height := 4, colRes := [{ slot := 0, desc := BitVec.ofNat 256 (1 * 2 ^ 24 + 1 * 2 ^ 40 + 64 * 2 ^ 64), rim := 0, base := 4 }], colls := [(4, { inst := 1, began := some 0 })] }, ports := [(0, { state := 2, inq := [(pkVc (sealHeader (fabricHdr fCPART 0 0 0 0 64 0 5 0 0 0)), [{ hdr := sealHeader (fabricHdr fCPART 0 0 0 0 64 0 5 0 0 0), payload := [7] }])] })] })).getD
     State.reset), _, { slot := 0, desc := BitVec.ofNat 256 (1 * 2 ^ 24 + 1 * 2 ^ 40 + 64 * 2 ^ 64), rim := 0, base := 4 },
     { State.reset with fabric := { width := 4, height := 4, colRes := [{ slot := 0, desc := BitVec.ofNat 256 (1 * 2 ^ 24 + 1 * 2 ^ 40 + 64 * 2 ^ 64), rim := 0, base := 4 }], colls := [(4, { inst := 1, began := some 0 })] }, ports := [(0, { state := 2, inq := [(pkVc (sealHeader (fabricHdr fCPART 0 0 0 0 64 0 5 0 0 0)), [{ hdr := sealHeader (fabricHdr fCPART 0 0 0 0 64 0 5 0 0 0), payload := [7] }])] })] },
     by decide +kernel, by decide +kernel, by decide +kernel, rfl, by decide +kernel, by decide +kernel, by decide +kernel⟩,
   ⟨0, { hdr := sealHeader (fabricHdr fCPART 0 0 0 0 64 0 5 0 0 0), payload := [7] }, ((takeIn 0
     { hdr := sealHeader (fabricHdr fCPART 0 0 0 0 64 0 5 0 0 0), payload := [7] }
     ({ State.reset with fabric := { width := 4, height := 4, colRes := [{ slot := 0, desc := BitVec.ofNat 256 (1 * 2 ^ 24 + 1 * 2 ^ 40 + 64 * 2 ^ 64), rim := 0, base := 4 }] }, ports := [(0, { state := 2, inq := [(pkVc (sealHeader (fabricHdr fCPART 0 0 0 0 64 0 5 0 0 0)), [{ hdr := sealHeader (fabricHdr fCPART 0 0 0 0 64 0 5 0 0 0), payload := [7] }])] })] })).getD
     State.reset), _, { slot := 0, desc := BitVec.ofNat 256 (1 * 2 ^ 24 + 1 * 2 ^ 40 + 64 * 2 ^ 64), rim := 0, base := 4 },
     _, { State.reset with fabric := { width := 4, height := 4, colRes := [{ slot := 0, desc := BitVec.ofNat 256 (1 * 2 ^ 24 + 1 * 2 ^ 40 + 64 * 2 ^ 64), rim := 0, base := 4 }] }, ports := [(0, { state := 2, inq := [(pkVc (sealHeader (fabricHdr fCPART 0 0 0 0 64 0 5 0 0 0)), [{ hdr := sealHeader (fabricHdr fCPART 0 0 0 0 64 0 5 0 0 0), payload := [7] }])] })] },
     by decide +kernel, by decide +kernel, by decide +kernel, rfl, by decide +kernel, by decide +kernel, by decide +kernel,
     rfl, by decide +kernel⟩,
   ⟨0, { hdr := sealHeader (fabricHdr fCPART 0 0 0 0 64 0 5 0 0 0), payload := [7] }, ((takeIn 0
     { hdr := sealHeader (fabricHdr fCPART 0 0 0 0 64 0 5 0 0 0), payload := [7] }
     ({ State.reset with fabric := { width := 4, height := 4, colRes := [{ slot := 0, desc := BitVec.ofNat 256 (1 * 2 ^ 24 + 1 * 2 ^ 40 + 64 * 2 ^ 64), rim := 1, base := 4 }] }, ports := [(0, { state := 2, inq := [(pkVc (sealHeader (fabricHdr fCPART 0 0 0 0 64 0 5 0 0 0)), [{ hdr := sealHeader (fabricHdr fCPART 0 0 0 0 64 0 5 0 0 0), payload := [7] }])] })] })).getD
     State.reset), _, { slot := 0, desc := BitVec.ofNat 256 (1 * 2 ^ 24 + 1 * 2 ^ 40 + 64 * 2 ^ 64), rim := 1, base := 4 },
     _, { State.reset with fabric := { width := 4, height := 4, colRes := [{ slot := 0, desc := BitVec.ofNat 256 (1 * 2 ^ 24 + 1 * 2 ^ 40 + 64 * 2 ^ 64), rim := 1, base := 4 }] }, ports := [(0, { state := 2, inq := [(pkVc (sealHeader (fabricHdr fCPART 0 0 0 0 64 0 5 0 0 0)), [{ hdr := sealHeader (fabricHdr fCPART 0 0 0 0 64 0 5 0 0 0), payload := [7] }])] })] },
     by decide +kernel, by decide +kernel, by decide +kernel, rfl, by decide +kernel, by decide +kernel, by decide +kernel,
     rfl, by decide +kernel⟩,
   ⟨{ slot := 0, desc := BitVec.ofNat 256 (1 * 2 ^ 24 + 1 * 2 ^ 40 + 64 * 2 ^ 64), rim := 0, base := 4 },
     { State.reset with fabric := { width := 4, height := 4, colRes := [{ slot := 0, desc := BitVec.ofNat 256 (1 * 2 ^ 24 + 1 * 2 ^ 40 + 64 * 2 ^ 64), rim := 0, base := 4 }] }, ports := [(0, { state := 2, inq := [(pkVc (sealHeader (fabricHdr fCPART 0 0 0 0 64 0 5 0 0 0)), [{ hdr := sealHeader (fabricHdr fCPART 0 0 0 0 64 0 5 0 0 0), payload := [7] }])] })] },
     { ox := 0, oy := 0, xlo := 0, xhi := 1, ylo := 0, yhi := 0 }, 0, by decide +kernel⟩,
   ⟨{ slot := 0, desc := BitVec.ofNat 256 (1 * 2 ^ 24 + 1 * 2 ^ 40 + 64 * 2 ^ 64), rim := 0, base := 4 },
     { State.reset with fabric := { width := 4, height := 4, colRes := [{ slot := 0, desc := BitVec.ofNat 256 (1 * 2 ^ 24 + 1 * 2 ^ 40 + 64 * 2 ^ 64), rim := 0, base := 4 }] }, ports := [(0, { state := 2, inq := [(pkVc (sealHeader (fabricHdr fCPART 0 0 0 0 64 0 5 0 0 0)), [{ hdr := sealHeader (fabricHdr fCPART 0 0 0 0 64 0 5 0 0 0), payload := [7] }])] })] },
     { ox := 0, oy := 0, xlo := 0, xhi := 1, ylo := 0, yhi := 0 }, 0, by decide +kernel⟩,
   ⟨0, 4, State.reset, by decide +kernel⟩,
   ⟨0, 4, { slot := 0, desc := BitVec.ofNat 256 (1 * 2 ^ 24 + 1 * 2 ^ 40 + 64 * 2 ^ 64), rim := 0, base := 4 }, 4, 0,
     { State.reset with beat := 10 ^ 15, fabric := { width := 4, height := 4, colRes := [{ slot := 0, desc := BitVec.ofNat 256 (1 * 2 ^ 24 + 1 * 2 ^ 40 + 64 * 2 ^ 64), rim := 0, base := 4 }], colls := [(4, { inst := 1, began := some 0 })] } },
     by decide +kernel⟩⟩

/-- The hypotheses of each clause of GatewaySessions can be met. -/
theorem witness_GatewaySessions :
    (∃ s : State, s.retr.enabled = false) ∧
    (∃ (kind : Nat) (m : GwMsg) (s : State), s.retr.enabled = true ∧ m.kind.toNat = kind ∧ m.version = 1 ∧ m.dstPod.toNat =
      nodePod s.fabric.node.toNat ∧ ¬(m.key = (s.gw m.srcPod.toNat).key ∧ m.session = (s.gw m.srcPod.toNat).number ∧ (s.gw
      m.srcPod.toNat).state ≠ 0)) ∧
    (∃ (kind : Nat) (m : GwMsg) (s : State), s.retr.enabled = true ∧ m.kind.toNat = kind ∧ m.version = 1 ∧ m.dstPod.toNat =
      nodePod s.fabric.node.toNat ∧ (m.key = (s.gw m.srcPod.toNat).key ∧ m.session = (s.gw m.srcPod.toNat).number ∧ (s.gw
      m.srcPod.toNat).state ≠ 0) ∧ m.seq.toNat ≠ (s.gw m.srcPod.toNat).rxSeq) ∧
    (∃ (kind : Nat) (m : GwMsg) (s : State), s.retr.enabled = true ∧ m.kind.toNat = kind ∧ m.version = 1 ∧ m.dstPod.toNat =
      nodePod s.fabric.node.toNat ∧ (m.key = (s.gw m.srcPod.toNat).key ∧ m.session = (s.gw m.srcPod.toNat).number ∧ (s.gw
      m.srcPod.toNat).state ≠ 0) ∧ m.seq.toNat = (s.gw m.srcPod.toNat).rxSeq) ∧
    (∃ v : Nat, v < 65536) ∧
    (∃ (m : GwMsg) (s : State), (¬(s.retr.enabled = true ∧ m.kind.toNat = gwOPEN ∧ m.version = 1 ∧ m.dstPod.toNat = nodePod
      s.fabric.node.toNat))) ∧
    (∃ (m : GwMsg) (s : State), (s.retr.enabled = true ∧ m.kind.toNat = gwOPEN ∧ m.version = 1 ∧ m.dstPod.toNat = nodePod
      s.fabric.node.toNat) ∧ (¬(m.key = s.objB (Obj.retrieverKeyQ + m.srcPod.toNat)))) ∧
    (∃ (m : GwMsg) (s : State), (s.retr.enabled = true ∧ m.kind.toNat = gwOPEN ∧ m.version = 1 ∧ m.dstPod.toNat = nodePod
      s.fabric.node.toNat) ∧ (m.key = s.objB (Obj.retrieverKeyQ + m.srcPod.toNat)) ∧ (leAt m.payload 0 1 = 0)) ∧
    (∃ (m : GwMsg) (s : State), (s.retr.enabled = true ∧ m.kind.toNat = gwOPEN ∧ m.version = 1 ∧ m.dstPod.toNat = nodePod
      s.fabric.node.toNat) ∧ (m.key = s.objB (Obj.retrieverKeyQ + m.srcPod.toNat)) ∧ (leAt m.payload 0 1 ≠ 0) ∧ ((s.gw
      m.srcPod.toNat).state = 1 ∧ nodePod s.fabric.node.toNat < m.srcPod.toNat)) ∧
    (∃ (m : GwMsg) (u v : State) (x : GwSess) (s : State), (s.retr.enabled = true ∧ m.kind.toNat = gwOPEN ∧ m.version = 1 ∧
      m.dstPod.toNat = nodePod s.fabric.node.toNat) ∧ (m.key = s.objB (Obj.retrieverKeyQ + m.srcPod.toNat)) ∧ (leAt m.payload
      0 1 ≠ 0) ∧ (¬((s.gw m.srcPod.toNat).state = 1 ∧ nodePod s.fabric.node.toNat < m.srcPod.toNat)) ∧ (u = gwDrop
      m.srcPod.toNat s) ∧ (v = { u with retr := { u.retr with counter := tset m.srcPod.toNat (BitVec.ofNat 32 (max (tget 0 m.srcPod.toNat u.retr.counter).toNat m.session.toNat)) u.retr.counter } })
      ∧ (x = { state := 2, number := m.session, key := m.key, txSeq := 1, rxSeq := m.seq.toNat + 1, rxAck := m.seq.toNat, readCr := m.readCr.toNat, storeCr := m.storeCr.toNat, progress := s.beat, resent := s.beat }))
      ∧
    (∃ (m : GwMsg) (s : State), (s.retr.enabled = true ∧ m.kind.toNat = gwOPEN ∧ m.version = 1 ∧ m.dstPod.toNat = nodePod
      s.fabric.node.toNat) ∧ (m.key = s.objB (Obj.retrieverKeyQ + m.srcPod.toNat)) ∧ (leAt m.payload 0 1 ≠ 0) ∧ (¬((s.gw
      m.srcPod.toNat).state = 1 ∧ nodePod s.fabric.node.toNat < m.srcPod.toNat)) ∧ (s.retr.bufs = [])) ∧
    (∃ (m : GwMsg) (s : State), ((s.gw m.srcPod.toNat).state ≠ 1 ∨ leAt m.payload 0 1 ≠ 1)) ∧
    (∃ (m : GwMsg) (v u : State) (s : State), ((s.gw m.srcPod.toNat).state = 1) ∧ (leAt m.payload 0 1 = 1) ∧ (v = s.setGw
      m.srcPod.toNat { (s.gw m.srcPod.toNat) with rxSeq := m.seq.toNat }) ∧ (gwReceive gwACCEPT m v = (false, u))) ∧
    (∃ (m : GwMsg) (v u : State) (s : State), ((s.gw m.srcPod.toNat).state = 1) ∧ (leAt m.payload 0 1 = 1) ∧ (v = s.setGw
      m.srcPod.toNat { (s.gw m.srcPod.toNat) with rxSeq := m.seq.toNat }) ∧ (gwReceive gwACCEPT m v = (true, u))) ∧
    (∃ (m : GwMsg) (s : State), (s.retr.enabled = true) ∧ (m.kind.toNat = gwACCEPT) ∧ (m.version = 1) ∧ (m.dstPod.toNat =
      nodePod s.fabric.node.toNat) ∧ (m.key = (s.gw m.srcPod.toNat).key) ∧ (m.session = (s.gw m.srcPod.toNat).number) ∧
      ((s.gw m.srcPod.toNat).state = 1) ∧ (leAt m.payload 0 1 = 1) ∧ (s.retr.bufs = [])) ∧
    (∃ (m : GwMsg) (u : State) (s : State), (gwReceive gwIDLE m s = (false, u))) ∧
    (∃ (m : GwMsg) (u : State) (s : State), (gwReceive gwIDLE m s = (true, u))) ∧
    (∃ (m : GwMsg) (s : State), (s.retr.enabled = true) ∧ (m.kind.toNat = gwIDLE) ∧ (m.version = 1) ∧ (m.dstPod.toNat =
      nodePod s.fabric.node.toNat) ∧ (m.key = (s.gw m.srcPod.toNat).key) ∧ (m.session = (s.gw m.srcPod.toNat).number) ∧
      ((s.gw m.srcPod.toNat).state = 2) ∧ (m.seq.toNat = (s.gw m.srcPod.toNat).rxSeq) ∧ (s.retr.bufs = [])) ∧
    (∃ (q : PodId) (s : State), (¬((s.gw q.val).unacked ≠ [] ∧ max (s.gw q.val).progress (s.gw q.val).resent + 50000 ≤
      s.beat))) ∧
    (∃ (q : PodId) (s : State), ((s.gw q.val).unacked ≠ [] ∧ max (s.gw q.val).progress (s.gw q.val).resent + 50000 ≤ s.beat))
      ∧
    (∃ (q : PodId) (s : State), ((s.gw q.val).unacked ≠ [] ∧ max (s.gw q.val).progress (s.gw q.val).resent + 50000 ≤ s.beat))
      ∧
    (∃ (q : PodId) (s : State), (¬((s.gw q.val).state ≠ 0 ∧ (s.gw q.val).unacked ≠ [] ∧ (s.gw q.val).progress + 10000000 ≤
      s.beat))) ∧
    (∃ (q : PodId) (u v w : State) (s : State), ((s.gw q.val).state ≠ 0 ∧ (s.gw q.val).unacked ≠ [] ∧ (s.gw q.val).progress +
      10000000 ≤ s.beat) ∧ (u = gwDrop q.val
      { s with retr := { s.retr with held := s.retr.held.filter (fun x => nodePod (pkSpecC x.2.hdr) != q.val) } }) ∧ (v =
      (u.retr.bufs.filter (fun b => b.pod == q.val)).foldl (fun y b => gwLose b y) u) ∧ (w = (s.retr.held.filter (fun x =>
      nodePod (pkSpecC x.2.hdr) == q.val)).foldl (fun y x => gwHeldLost x y) v)) ∧
    (∃ (q : PodId) (s : State), ((s.gw q.val).state ≠ 0 ∧ (s.gw q.val).unacked ≠ [] ∧ (s.gw q.val).progress + 10000000 ≤
      s.beat) ∧ (s.retr.bufs = []) ∧ (s.retr.held = [])) :=
  ⟨⟨State.reset, by decide +kernel⟩,
   ⟨7, { slice := 0, version := 1, kind := 7, srcPod := 2, dstPod := 0, session := 3, seq := 1, ack := 0, readCr := 0, storeCr := 0, key := [5], body := 0, payload := [] },
     { State.reset with beat := 0, serve := { links := [true, true] }, retr := { enabled := true, sessions := [(2, { state := 2, number := 3, key := [1], txSeq := 1, rxSeq := 1 })] } },
     by decide +kernel⟩,
   ⟨7, { slice := 0, version := 1, kind := 7, srcPod := 2, dstPod := 0, session := 3, seq := 0, ack := 0, readCr := 0, storeCr := 0, key := [1], body := 0, payload := [] },
     { State.reset with beat := 0, serve := { links := [true, true] }, retr := { enabled := true, sessions := [(2, { state := 2, number := 3, key := [1], txSeq := 1, rxSeq := 1 })] } },
     by decide +kernel⟩,
   ⟨7, { slice := 0, version := 1, kind := 7, srcPod := 2, dstPod := 0, session := 3, seq := 1, ack := 0, readCr := 0, storeCr := 0, key := [1], body := 0, payload := [] },
     { State.reset with beat := 0, serve := { links := [true, true] }, retr := { enabled := true, sessions := [(2, { state := 2, number := 3, key := [1], txSeq := 1, rxSeq := 1 })] } },
     by decide +kernel⟩,
   ⟨65535, by decide⟩,
   ⟨{ slice := 0, version := 1, kind := 1, srcPod := 2, dstPod := 0, session := 3, seq := 1, ack := 0, readCr := 0, storeCr := 0, key := [1], body := 0, payload := [] },
     State.reset, by decide +kernel⟩,
   ⟨{ slice := 0, version := 1, kind := 1, srcPod := 2, dstPod := 0, session := 3, seq := 1, ack := 0, readCr := 0, storeCr := 0, key := [5, 5], body := 0, payload := [] },
     { State.reset with retr := { enabled := true } }, by decide +kernel⟩,
   ⟨{ slice := 0, version := 1, kind := 1, srcPod := 2, dstPod := 0, session := 3, seq := 1, ack := 0, readCr := 0, storeCr := 0, key := (State.objB State.reset (Obj.retrieverKeyQ + 2)), body := 0, payload := [0] },
     { State.reset with retr := { enabled := true } }, by decide +kernel⟩,
   ⟨{ slice := 0, version := 1, kind := 1, srcPod := 2, dstPod := 0, session := 3, seq := 1, ack := 0, readCr := 0, storeCr := 0, key := (State.objB State.reset (Obj.retrieverKeyQ + 2)), body := 0, payload := [1] },
     { State.reset with beat := 0, serve := { links := [true, true] }, retr := { enabled := true, sessions := [(2, { state := 1, number := 3 })] } },
     by decide +kernel⟩,
   ⟨{ slice := 0, version := 1, kind := 1, srcPod := 2, dstPod := 0, session := 3, seq := 1, ack := 0, readCr := 0, storeCr := 0, key := (State.objB State.reset (Obj.retrieverKeyQ + 2)), body := 0, payload := [1] },
     _, _, _, { State.reset with retr := { enabled := true } }, by decide +kernel, by decide +kernel, by decide +kernel,
     by decide +kernel, rfl, rfl, rfl⟩,
   ⟨{ slice := 0, version := 1, kind := 1, srcPod := 2, dstPod := 0, session := 3, seq := 1, ack := 0, readCr := 0, storeCr := 0, key := (State.objB State.reset (Obj.retrieverKeyQ + 2)), body := 0, payload := [1] },
     { State.reset with retr := { enabled := true } }, by decide +kernel⟩,
   ⟨{ slice := 0, version := 1, kind := 2, srcPod := 2, dstPod := 0, session := 3, seq := 1, ack := 0, readCr := 0, storeCr := 0, key := [1], body := 0, payload := [] },
     State.reset, by decide +kernel⟩,
   ⟨{ slice := 0, version := 1, kind := 2, srcPod := 2, dstPod := 0, session := 3, seq := 1, ack := 0, readCr := 0, storeCr := 0, key := [9], body := 0, payload := [1] },
     _, (gwReceive gwACCEPT { slice := 0, version := 1, kind := 2, srcPod := 2, dstPod := 0, session := 3, seq := 1, ack := 0, readCr := 0, storeCr := 0, key := [9], body := 0, payload := [1] }
     (State.setGw { State.reset with beat := 0, serve := { links := [true, true] }, retr := { enabled := true, sessions := [(2, { state := 1, number := 3, key := [1], txSeq := 2 })] } }
     2 { State.gw { State.reset with beat := 0, serve := { links := [true, true] }, retr := { enabled := true, sessions := [(2, { state := 1, number := 3, key := [1], txSeq := 2 })] } } 2 with rxSeq := 1 })).2,
     { State.reset with beat := 0, serve := { links := [true, true] }, retr := { enabled := true, sessions := [(2, { state := 1, number := 3, key := [1], txSeq := 2 })] } },
     by decide +kernel, by decide +kernel, rfl, by decide +kernel⟩,
   ⟨{ slice := 0, version := 1, kind := 2, srcPod := 2, dstPod := 0, session := 3, seq := 1, ack := 0, readCr := 0, storeCr := 0, key := [1], body := 0, payload := [1] },
     _, (gwReceive gwACCEPT { slice := 0, version := 1, kind := 2, srcPod := 2, dstPod := 0, session := 3, seq := 1, ack := 0, readCr := 0, storeCr := 0, key := [1], body := 0, payload := [1] }
     (State.setGw { State.reset with beat := 0, serve := { links := [true, true] }, retr := { enabled := true, sessions := [(2, { state := 1, number := 3, key := [1], txSeq := 2 })] } }
     2 { State.gw { State.reset with beat := 0, serve := { links := [true, true] }, retr := { enabled := true, sessions := [(2, { state := 1, number := 3, key := [1], txSeq := 2 })] } } 2 with rxSeq := 1 })).2,
     { State.reset with beat := 0, serve := { links := [true, true] }, retr := { enabled := true, sessions := [(2, { state := 1, number := 3, key := [1], txSeq := 2 })] } },
     by decide +kernel, by decide +kernel, rfl, by decide +kernel⟩,
   ⟨{ slice := 0, version := 1, kind := 2, srcPod := 2, dstPod := 0, session := 3, seq := 1, ack := 0, readCr := 0, storeCr := 0, key := [1], body := 0, payload := [1] },
     { State.reset with beat := 0, serve := { links := [true, true] }, retr := { enabled := true, sessions := [(2, { state := 1, number := 3, key := [1], txSeq := 2 })] } },
     by decide +kernel⟩,
   ⟨{ slice := 0, version := 1, kind := 7, srcPod := 2, dstPod := 0, session := 3, seq := 1, ack := 0, readCr := 0, storeCr := 0, key := [5], body := 0, payload := [] },
     (gwReceive gwIDLE { slice := 0, version := 1, kind := 7, srcPod := 2, dstPod := 0, session := 3, seq := 1, ack := 0, readCr := 0, storeCr := 0, key := [5], body := 0, payload := [] }
     ({ State.reset with beat := 0, serve := { links := [true, true] }, retr := { enabled := true, sessions := [(2, { state := 2, number := 3, key := [1], txSeq := 1, rxSeq := 1 })] } })).2,
     { State.reset with beat := 0, serve := { links := [true, true] }, retr := { enabled := true, sessions := [(2, { state := 2, number := 3, key := [1], txSeq := 1, rxSeq := 1 })] } },
     by decide +kernel⟩,
   ⟨{ slice := 0, version := 1, kind := 7, srcPod := 2, dstPod := 0, session := 3, seq := 1, ack := 0, readCr := 9, storeCr := 9, key := [1], body := 0, payload := [] },
     (gwReceive gwIDLE { slice := 0, version := 1, kind := 7, srcPod := 2, dstPod := 0, session := 3, seq := 1, ack := 0, readCr := 9, storeCr := 9, key := [1], body := 0, payload := [] }
     ({ State.reset with beat := 0, serve := { links := [true, true] }, retr := { enabled := true, sessions := [(2, { state := 2, number := 3, key := [1], txSeq := 1, rxSeq := 1 })] } })).2,
     { State.reset with beat := 0, serve := { links := [true, true] }, retr := { enabled := true, sessions := [(2, { state := 2, number := 3, key := [1], txSeq := 1, rxSeq := 1 })] } },
     by decide +kernel⟩,
   ⟨{ slice := 0, version := 1, kind := 7, srcPod := 2, dstPod := 0, session := 3, seq := 1, ack := 0, readCr := 9, storeCr := 9, key := [1], body := 0, payload := [] },
     { State.reset with beat := 0, serve := { links := [true, true] }, retr := { enabled := true, sessions := [(2, { state := 2, number := 3, key := [1], txSeq := 1, rxSeq := 1 })] } },
     by decide +kernel⟩,
   ⟨2, State.reset, by decide +kernel⟩,
   ⟨2, { State.reset with beat := 50000, serve := { links := [true, true] }, retr := { enabled := true, sessions := [(2, { state := 2, number := 3, key := [1], txSeq := 1, rxSeq := 1, unacked := [(1, 3, 0, []), (2, 3, 0, [])] })] } },
     by decide +kernel⟩,
   ⟨2, { State.reset with beat := 50000, serve := { links := [true, true] }, retr := { enabled := true, sessions := [(2, { state := 2, number := 3, key := [1], txSeq := 1, rxSeq := 1, unacked := [(1, 3, 0, []), (2, 3, 0, [])] })] } },
     by decide +kernel⟩,
   ⟨2, State.reset, by decide +kernel⟩,
   ⟨2, _, _, _, { State.reset with beat := 10000000, serve := { links := [true, true] }, retr := { enabled := true, sessions := [(2, { state := 2, number := 3, key := [1], txSeq := 1, rxSeq := 1, unacked := [(1, 3, 0, [])] })] } },
     by decide +kernel, rfl, rfl, rfl⟩,
   ⟨2, { State.reset with beat := 10000000, serve := { links := [true, true] }, retr := { enabled := true, sessions := [(2, { state := 2, number := 3, key := [1], txSeq := 1, rxSeq := 1, unacked := [(1, 3, 0, [])] })] } },
     by decide +kernel⟩⟩

/-- The hypotheses of each clause of GatewayBuffers can be met. -/
theorem witness_GatewayBuffers :
    (∃ (p : PortId) (pkt : Packet) (u : State) (s : State), (arriveHere fLOAD pkt s = (true, u)) ∧ (isFar pkt.hdr = true) ∧
      (u.retr.enabled = false)) ∧
    (∃ (p : PortId) (pkt : Packet) (u : State) (s : State), (arriveHere fLOAD pkt s = (true, u)) ∧ (isFar pkt.hdr = true) ∧
      (u.retr.enabled = true)) ∧
    (∃ (p : PortId) (pkt : Packet) (u : State) (s : State), (arriveHere fGET pkt s = (true, u)) ∧ (isFar pkt.hdr = true) ∧
      (u.retr.enabled = false)) ∧
    (∃ (p : PortId) (pkt : Packet) (u : State) (s : State), (arriveHere fGET pkt s = (true, u)) ∧ (isFar pkt.hdr = true) ∧
      (u.retr.enabled = true)) ∧
    (∃ (p : PortId) (pkt : Packet) (u : State) (s : State), (arriveHere fSTORE pkt s = (true, u)) ∧ (isFar pkt.hdr = true) ∧
      (u.retr.enabled = false)) ∧
    (∃ (p : PortId) (pkt : Packet) (u : State) (s : State), (arriveHere fSTORE pkt s = (true, u)) ∧ (isFar pkt.hdr = true) ∧
      (u.retr.enabled = true)) ∧
    (∃ (p : PortId) (pkt : Packet) (u : State) (s : State), (arriveHere fPUT pkt s = (true, u)) ∧ (isFar pkt.hdr = true) ∧
      (u.retr.enabled = false)) ∧
    (∃ (p : PortId) (pkt : Packet) (u : State) (s : State), (arriveHere fPUT pkt s = (true, u)) ∧ (isFar pkt.hdr = true) ∧
      (u.retr.enabled = true)) ∧
    (∃ (rim : Nat) (k : Packet) (s : State), gwRoom s rim k = true ∧ (s.retr.held.any (fun x => x.1 == rim && gwReads x.2 ==
      gwReads k)) = false) ∧
    (∃ (rim : Nat) (k : Packet) (s : State), (gwRoom s rim k && !(s.retr.held.any (fun x => x.1 == rim && gwReads x.2 ==
      gwReads k))) = false) ∧
    (∃ (rim : Nat) (h : BitVec 256) (page : Nat) (s : State) (b : GwBuf), readPlace s rim h page = .waits b) ∧
    (∃ (rim : Nat) (h : BitVec 256) (page : Nat) (s : State) (b : GwBuf), readPlace s rim h page = .joins b) ∧
    (∃ (p : PortId) (pkt : Packet) (page id : Nat) (s : State), (pkOp pkt.hdr = fLOAD) ∧ (headerGood s pkt.hdr = true) ∧
      (isFar pkt.hdr = true) ∧ (s.retr.enabled = true) ∧ (s.retr.held = []) ∧ (rangePages (pkOffset pkt.hdr) (pkLength
      pkt.hdr) = [page]) ∧ (gwRoom s (portDir p.val) pkt = true) ∧ ((s.retr.bufs.all (fun b => b.page != page)) = true) ∧
      (freeBuf s (portDir p.val) true = some id) ∧ ((s.gw (nodePod (pkSpecC pkt.hdr))).state = 1) ∧ (pkSpecC pkt.hdr < 65536)
      ∧ (∀ y ∈ s.retr.bufs, y.due = false)) ∧
    (∃ (p : PortId) (pkt : Packet) (page id : Nat) (s : State), (pkOp pkt.hdr = fGET) ∧ (headerGood s pkt.hdr = true) ∧
      (isFar pkt.hdr = true) ∧ (s.retr.enabled = true) ∧ (s.retr.held = []) ∧ (rangePages (pkOffset pkt.hdr) (pkLength
      pkt.hdr) = [page]) ∧ (gwRoom s (portDir p.val) pkt = true) ∧ ((s.retr.bufs.all (fun b => b.page != page)) = true) ∧
      (freeBuf s (portDir p.val) true = some id) ∧ ((s.gw (nodePod (pkSpecC pkt.hdr))).state = 1) ∧ (pkSpecC pkt.hdr < 65536)
      ∧ (∀ y ∈ s.retr.bufs, y.due = false)) ∧
    (∃ (p : PortId) (pkt : Packet) (page id : Nat) (s : State), (pkOp pkt.hdr = fSTORE) ∧ (headerGood s pkt.hdr = true) ∧
      (isFar pkt.hdr = true) ∧ (s.retr.enabled = true) ∧ (s.retr.held = []) ∧ (rangePages (pkOffset pkt.hdr) (pkLength
      pkt.hdr) = [page]) ∧ (gwRoom s (portDir p.val) pkt = true) ∧ ((s.retr.bufs.all (fun b => b.page != page)) = true) ∧
      (freeBuf s (portDir p.val) false = some id)) ∧
    (∃ (p : PortId) (pkt : Packet) (page id : Nat) (s : State), (pkOp pkt.hdr = fPUT) ∧ (headerGood s pkt.hdr = true) ∧
      (isFar pkt.hdr = true) ∧ (s.retr.enabled = true) ∧ (s.retr.held = []) ∧ (rangePages (pkOffset pkt.hdr) (pkLength
      pkt.hdr) = [page]) ∧ (gwRoom s (portDir p.val) pkt = true) ∧ ((s.retr.bufs.all (fun b => b.page != page)) = true) ∧
      (freeBuf s (portDir p.val) false = some id)) ∧
    (∃ (slice : RimId) (buf : Nat) (s : State), (∀ b ∈ s.retr.bufs.find? (fun b => b.slice == slice.val && b.id == buf &&
      b.read && !b.due), s.beat < b.began + s.obj Obj.retrieverCoalesceNs)) ∧
    (∃ (slice : RimId) (buf : Nat) (b : GwBuf) (s : State), (s.retr.bufs.find? (fun b => b.slice == slice.val && b.id == buf
      && b.read && !b.due) = some b) ∧ (b.began + s.obj Obj.retrieverCoalesceNs ≤ s.beat)) ∧
    (∃ (slice : RimId) (buf : Nat) (b : GwBuf) (s : State), (s.retr.bufs = [b]) ∧ (b.slice = slice.val) ∧ (b.id = buf) ∧
      (b.read = true) ∧ (b.due = false) ∧ (b.began + s.obj Obj.retrieverCoalesceNs ≤ s.beat) ∧ ((s.gw b.pod).state = 1)) ∧
    (∃ (slice : RimId) (buf : Nat) (s : State), (∀ b ∈ s.retr.bufs.find? (fun b => b.slice == slice.val && b.id == buf &&
      !b.read && !b.due), s.beat < b.began + 1000 * s.obj Obj.retrieverStoreAgeUs)) ∧
    (∃ (slice : RimId) (buf : Nat) (b : GwBuf) (s : State), (s.retr.bufs.find? (fun b => b.slice == slice.val && b.id == buf
      && !b.read && !b.due) = some b) ∧ (b.began + 1000 * s.obj Obj.retrieverStoreAgeUs ≤ s.beat)) ∧
    (∃ (slice : RimId) (buf : Nat) (b : GwBuf) (s : State), (s.retr.bufs = [b]) ∧ (b.slice = slice.val) ∧ (b.id = buf) ∧
      (b.read = false) ∧ (b.due = false) ∧ (b.began + 1000 * s.obj Obj.retrieverStoreAgeUs ≤ s.beat) ∧ ((s.gw b.pod).state =
      1)) ∧
    (∃ (m : GwMsg) (u : State) (s : State), (gwReceive gwREAD m s = (false, u))) ∧
    (∃ (m : GwMsg) (u : State) (s : State), (gwReceive gwREADDATA m s = (false, u))) ∧
    (∃ (m : GwMsg) (u : State) (s : State), (gwReceive gwFLUSH m s = (false, u))) ∧
    (∃ (m : GwMsg) (u : State) (s : State), (gwReceive gwFLUSHACK m s = (false, u))) ∧
    (∃ (m : GwMsg) (u : State) (x : GwServe) (v w : State) (s : State), (gwReceive gwREAD m s = (true, u)) ∧ (x =
      { n := u.retr.nextServe, pod := m.srcPod.toNat, slice := m.slice, read := true, body := m.body, data := u.freeBytes 4096 })
      ∧ (v = u.drawn 4096) ∧ (w = { v with retr := { v.retr with serving := v.retr.serving ++ [x], nextServe := x.n + 1 } }))
      ∧
    (∃ (m : GwMsg) (u : State) (x : GwServe) (v w : State) (s : State), (gwReceive gwFLUSH m s = (true, u)) ∧ (x =
      { n := u.retr.nextServe, pod := m.srcPod.toNat, slice := m.slice, read := false, body := m.body, data := fitBytes 4608 m.payload })
      ∧ (v = u) ∧ (w = { v with retr := { v.retr with serving := v.retr.serving ++ [x], nextServe := x.n + 1 } })) ∧
    (∃ (m : GwMsg) (k : Nat) (s : State), (s.retr.enabled = true) ∧ (m.kind.toNat = gwREAD) ∧ (m.version = 1) ∧
      (m.dstPod.toNat = nodePod s.fabric.node.toNat) ∧ (m.key = (s.gw m.srcPod.toNat).key) ∧ (m.session = (s.gw
      m.srcPod.toNat).number) ∧ ((s.gw m.srcPod.toNat).state = 2) ∧ (m.seq.toNat = (s.gw m.srcPod.toNat).rxSeq) ∧
      (s.retr.serving = []) ∧ (s.retr.bufs = []) ∧ (s.retr.held = []) ∧ ((runsOf (bitList 64 (bodyMask m.body))).length = k +
      1) ∧ (s.rmem.tracks.length + k + 1 ≤ 4096) ∧ (s.rmem.tracks.length + s.rmem.quarantine.length + k + 1 < 65536)) ∧
    (∃ (m : GwMsg) (k : Nat) (s : State), (s.retr.enabled = true) ∧ (m.kind.toNat = gwFLUSH) ∧ (m.version = 1) ∧
      (m.dstPod.toNat = nodePod s.fabric.node.toNat) ∧ (m.key = (s.gw m.srcPod.toNat).key) ∧ (m.session = (s.gw
      m.srcPod.toNat).number) ∧ ((s.gw m.srcPod.toNat).state = 2) ∧ (m.seq.toNat = (s.gw m.srcPod.toNat).rxSeq) ∧
      (s.retr.serving = []) ∧ (s.retr.bufs = []) ∧ (s.retr.held = []) ∧ ((runsOf (bitList 4096 (leAt (fitBytes 4608
      m.payload) 0 512))).length = k + 1) ∧ (s.rmem.tracks.length + k + 1 ≤ 4096) ∧ (s.rmem.tracks.length +
      s.rmem.quarantine.length + k + 1 < 65536)) ∧
    (∃ (m : GwMsg) (u : State) (s : State), (gwReceive gwREADDATA m s = (true, u)) ∧ (u.retr.bufs.find? (fun b => b.read &&
      b.sent && b.id == bodyBuf m.body && b.pod == m.srcPod.toNat) = none)) ∧
    (∃ (m : GwMsg) (u : State) (b : GwBuf) (s : State), (gwReceive gwREADDATA m s = (true, u)) ∧ (u.retr.bufs.find? (fun b =>
      b.read && b.sent && b.id == bodyBuf m.body && b.pod == m.srcPod.toNat) = some b)) ∧
    (∃ (m : GwMsg) (b : GwBuf) (s : State), (s.retr.enabled = true) ∧ (m.kind.toNat = gwREADDATA) ∧ (m.version = 1) ∧
      (m.dstPod.toNat = nodePod s.fabric.node.toNat) ∧ (m.key = (s.gw m.srcPod.toNat).key) ∧ (m.session = (s.gw
      m.srcPod.toNat).number) ∧ ((s.gw m.srcPod.toNat).state = 2) ∧ (m.seq.toNat = (s.gw m.srcPod.toNat).rxSeq) ∧
      (s.retr.bufs = [b]) ∧ (s.retr.held = []) ∧ (b.read = true) ∧ (b.sent = true) ∧ (b.id = bodyBuf m.body) ∧ (b.pod =
      m.srcPod.toNat)) ∧
    (∃ (m : GwMsg) (u : State) (s : State), (gwReceive gwFLUSHACK m s = (true, u)) ∧ (u.retr.bufs.find? (fun b => !b.read &&
      b.sent && b.id == bodyBuf m.body && b.pod == m.srcPod.toNat) = none)) ∧
    (∃ (m : GwMsg) (u : State) (b : GwBuf) (s : State), (gwReceive gwFLUSHACK m s = (true, u)) ∧ (u.retr.bufs.find? (fun b =>
      !b.read && b.sent && b.id == bodyBuf m.body && b.pod == m.srcPod.toNat) = some b)) ∧
    (∃ (m : GwMsg) (b : GwBuf) (s : State), (s.retr.enabled = true) ∧ (m.kind.toNat = gwFLUSHACK) ∧ (m.version = 1) ∧
      (m.dstPod.toNat = nodePod s.fabric.node.toNat) ∧ (m.key = (s.gw m.srcPod.toNat).key) ∧ (m.session = (s.gw
      m.srcPod.toNat).number) ∧ ((s.gw m.srcPod.toNat).state = 2) ∧ (m.seq.toNat = (s.gw m.srcPod.toNat).rxSeq) ∧
      (s.retr.bufs = [b]) ∧ (s.retr.held = []) ∧ (b.read = false) ∧ (b.sent = true) ∧ (b.id = bodyBuf m.body) ∧ (b.pod =
      m.srcPod.toNat) ∧ (b.waits = [])) ∧
    (∃ (v : GwServe) (s : State), gwMayIssue s v = true ∧ s.retr.serving.find? (fun y => y.issued && y.left == 0) = none ∧
      s.retr.serving.find? (gwMayIssue s) = some v) :=
  ⟨⟨0, { hdr := sealHeader (fabricHdr fLOAD 0 0 0 0 32 0 5 0 0x8000 0x201), payload := [] }, (arriveHere fLOAD
    { hdr := sealHeader (fabricHdr fLOAD 0 0 0 0 32 0 5 0 0x8000 0x201), payload := [] } (State.reset)).2, State.reset,
    by decide +kernel⟩,
   ⟨0, { hdr := sealHeader (fabricHdr fLOAD 0 0 0 0 32 0 5 0 0x8000 0x201), payload := [1, 2, 3] }, (arriveHere fLOAD
     { hdr := sealHeader (fabricHdr fLOAD 0 0 0 0 32 0 5 0 0x8000 0x201), payload := [1, 2, 3] }
     ({ State.reset with beat := 0, serve := { links := [true, true] }, retr := { enabled := true, sessions := [(2, { state := 1 })] } })).2,
     { State.reset with beat := 0, serve := { links := [true, true] }, retr := { enabled := true, sessions := [(2, { state := 1 })] } },
     by decide +kernel⟩,
   ⟨0, { hdr := sealHeader (fabricHdr fGET 0 0 0 0 32 0 5 0 0x8000 0x201), payload := [] }, (arriveHere fGET
     { hdr := sealHeader (fabricHdr fGET 0 0 0 0 32 0 5 0 0x8000 0x201), payload := [] } (State.reset)).2, State.reset,
     by decide +kernel⟩,
   ⟨0, { hdr := sealHeader (fabricHdr fGET 0 0 0 0 32 0 5 0 0x8000 0x201), payload := [1, 2, 3] }, (arriveHere fGET
     { hdr := sealHeader (fabricHdr fGET 0 0 0 0 32 0 5 0 0x8000 0x201), payload := [1, 2, 3] }
     ({ State.reset with beat := 0, serve := { links := [true, true] }, retr := { enabled := true, sessions := [(2, { state := 1 })] } })).2,
     { State.reset with beat := 0, serve := { links := [true, true] }, retr := { enabled := true, sessions := [(2, { state := 1 })] } },
     by decide +kernel⟩,
   ⟨0, { hdr := sealHeader (fabricHdr fSTORE 0 0 0 0 32 0 5 0 0x8000 0x201), payload := [] }, (arriveHere fSTORE
     { hdr := sealHeader (fabricHdr fSTORE 0 0 0 0 32 0 5 0 0x8000 0x201), payload := [] } (State.reset)).2, State.reset,
     by decide +kernel⟩,
   ⟨0, { hdr := sealHeader (fabricHdr fSTORE 0 0 0 0 32 0 5 0 0x8000 0x201), payload := [1, 2, 3] }, (arriveHere fSTORE
     { hdr := sealHeader (fabricHdr fSTORE 0 0 0 0 32 0 5 0 0x8000 0x201), payload := [1, 2, 3] }
     ({ State.reset with beat := 0, serve := { links := [true, true] }, retr := { enabled := true, sessions := [(2, { state := 1 })] } })).2,
     { State.reset with beat := 0, serve := { links := [true, true] }, retr := { enabled := true, sessions := [(2, { state := 1 })] } },
     by decide +kernel⟩,
   ⟨0, { hdr := sealHeader (fabricHdr fPUT 0 0 0 0 32 0 5 0 0x8000 0x201), payload := [] }, (arriveHere fPUT
     { hdr := sealHeader (fabricHdr fPUT 0 0 0 0 32 0 5 0 0x8000 0x201), payload := [] } (State.reset)).2, State.reset,
     by decide +kernel⟩,
   ⟨0, { hdr := sealHeader (fabricHdr fPUT 0 0 0 0 32 0 5 0 0x8000 0x201), payload := [1, 2, 3] }, (arriveHere fPUT
     { hdr := sealHeader (fabricHdr fPUT 0 0 0 0 32 0 5 0 0x8000 0x201), payload := [1, 2, 3] }
     ({ State.reset with beat := 0, serve := { links := [true, true] }, retr := { enabled := true, sessions := [(2, { state := 1 })] } })).2,
     { State.reset with beat := 0, serve := { links := [true, true] }, retr := { enabled := true, sessions := [(2, { state := 1 })] } },
     by decide +kernel⟩,
   ⟨0, { hdr := sealHeader (fabricHdr fLOAD 0 0 0 0 32 0 5 0 0x8000 0x201), payload := [] },
     { State.reset with beat := 0, serve := { links := [true, true] }, retr := { enabled := true, sessions := [(2, { state := 1 })] } },
     by decide +kernel⟩,
   ⟨0, { hdr := sealHeader (fabricHdr fLOAD 0 0 0 0 32 0 5 0 0x8000 0x201), payload := [] },
     { State.reset with beat := 0, serve := { links := [true, true] }, retr := { enabled := true, sessions := [(2, { state := 1 })], held := [(0, { hdr := sealHeader (fabricHdr fLOAD 0 0 0 0 32 0 5 0 0x8000 0x201), payload := [] })] } },
     by decide +kernel⟩,
   ⟨0, sealHeader (fabricHdr fLOAD 0 1 0 0 32 0 5 0 0x8000 0x201), 0,
     { State.reset with beat := 0, serve := { links := [true, true] }, retr := { enabled := true, sessions := [(2, { state := 1 })], bufs := [{ slice := 0, id := 2050, read := false, src := 1, node := 0x201, job := 0, page := 0, began := 0 }] } },
     { slice := 0, id := 2050, read := false, src := 1, node := 0x201, job := 0, page := 0, began := 0 }, by decide +kernel⟩,
   ⟨0, sealHeader (fabricHdr fLOAD 0 1 0 0 32 0 5 0 0x8000 0x201), 0,
     { State.reset with beat := 0, serve := { links := [true, true] }, retr := { enabled := true, sessions := [(2, { state := 1 })], bufs := [{ slice := 0, id := 4, read := true, src := 1, node := 0x201, job := 0, page := 0, began := 0 }] } },
     { slice := 0, id := 4, read := true, src := 1, node := 0x201, job := 0, page := 0, began := 0 }, by decide +kernel⟩,
   ⟨0, { hdr := sealHeader (fabricHdr fLOAD 0 0 0 0 32 0 5 0 0x8000 0x201), payload := [] }, 0, 0,
     { State.reset with beat := 0, serve := { links := [true, true] }, retr := { enabled := true, sessions := [(2, { state := 1 })] } },
     by decide +kernel⟩,
   ⟨0, { hdr := sealHeader (fabricHdr fGET 0 0 0 0 32 0 5 0 0x8000 0x201), payload := [] }, 0, 0,
     { State.reset with beat := 0, serve := { links := [true, true] }, retr := { enabled := true, sessions := [(2, { state := 1 })] } },
     by decide +kernel⟩,
   ⟨0, { hdr := sealHeader (fabricHdr fSTORE 0 0 0 0 32 0 5 0 0x8000 0x201), payload := [1, 2, 3] }, 0, 2048,
     { State.reset with beat := 0, serve := { links := [true, true] }, retr := { enabled := true, sessions := [(2, { state := 1 })] } },
     by decide +kernel⟩,
   ⟨0, { hdr := sealHeader (fabricHdr fPUT 0 0 0 0 32 0 5 0 0x8000 0x201), payload := [1, 2, 3] }, 0, 2048,
     { State.reset with beat := 0, serve := { links := [true, true] }, retr := { enabled := true, sessions := [(2, { state := 1 })] } },
     by decide +kernel⟩,
   ⟨0, 4, State.reset, by decide +kernel⟩,
   ⟨0, 4, { slice := 0, id := 4, read := true, src := 1, node := 0x201, job := 0, page := 0, began := 0 },
     { State.reset with beat := 1000000000, serve := { links := [true, true] }, retr := { enabled := true, sessions := [(2, { state := 1 })], bufs := [{ slice := 0, id := 4, read := true, src := 1, node := 0x201, job := 0, page := 0, began := 0 }] } },
     by decide +kernel⟩,
   ⟨0, 4, { slice := 0, id := 4, read := true, src := 1, node := 0x201, job := 0, page := 0, began := 0 },
     { State.reset with beat := 1000000000, serve := { links := [true, true] }, retr := { enabled := true, sessions := [(2, { state := 1 })], bufs := [{ slice := 0, id := 4, read := true, src := 1, node := 0x201, job := 0, page := 0, began := 0 }] } },
     by decide +kernel⟩,
   ⟨0, 4, State.reset, by decide +kernel⟩,
   ⟨0, 2050, { slice := 0, id := 2050, read := false, src := 1, node := 0x201, job := 0, page := 0, began := 0 },
     { State.reset with beat := 1000000000000, serve := { links := [true, true] }, retr := { enabled := true, sessions := [(2, { state := 1 })], bufs := [{ slice := 0, id := 2050, read := false, src := 1, node := 0x201, job := 0, page := 0, began := 0 }] } },
     by decide +kernel⟩,
   ⟨0, 2050, { slice := 0, id := 2050, read := false, src := 1, node := 0x201, job := 0, page := 0, began := 0 },
     { State.reset with beat := 1000000000000, serve := { links := [true, true] }, retr := { enabled := true, sessions := [(2, { state := 1 })], bufs := [{ slice := 0, id := 2050, read := false, src := 1, node := 0x201, job := 0, page := 0, began := 0 }] } },
     by decide +kernel⟩,
   ⟨{ slice := 0, version := 1, kind := 3, srcPod := 2, dstPod := 0, session := 3, seq := 1, ack := 0, readCr := 0, storeCr := 0, key := [5], body := 0, payload := [] },
     (gwReceive gwREAD { slice := 0, version := 1, kind := 3, srcPod := 2, dstPod := 0, session := 3, seq := 1, ack := 0, readCr := 0, storeCr := 0, key := [5], body := 0, payload := [] }
     ({ State.reset with beat := 0, serve := { links := [true, true] }, retr := { enabled := true, sessions := [(2, { state := 2, number := 3, key := [1], txSeq := 1, rxSeq := 1 })] } })).2,
     { State.reset with beat := 0, serve := { links := [true, true] }, retr := { enabled := true, sessions := [(2, { state := 2, number := 3, key := [1], txSeq := 1, rxSeq := 1 })] } },
     by decide +kernel⟩,
   ⟨{ slice := 0, version := 1, kind := 4, srcPod := 2, dstPod := 0, session := 3, seq := 1, ack := 0, readCr := 0, storeCr := 0, key := [5], body := 0, payload := [] },
     (gwReceive gwREADDATA { slice := 0, version := 1, kind := 4, srcPod := 2, dstPod := 0, session := 3, seq := 1, ack := 0, readCr := 0, storeCr := 0, key := [5], body := 0, payload := [] }
     ({ State.reset with beat := 0, serve := { links := [true, true] }, retr := { enabled := true, sessions := [(2, { state := 2, number := 3, key := [1], txSeq := 1, rxSeq := 1 })] } })).2,
     { State.reset with beat := 0, serve := { links := [true, true] }, retr := { enabled := true, sessions := [(2, { state := 2, number := 3, key := [1], txSeq := 1, rxSeq := 1 })] } },
     by decide +kernel⟩,
   ⟨{ slice := 0, version := 1, kind := 5, srcPod := 2, dstPod := 0, session := 3, seq := 1, ack := 0, readCr := 0, storeCr := 0, key := [5], body := 0, payload := [] },
     (gwReceive gwFLUSH { slice := 0, version := 1, kind := 5, srcPod := 2, dstPod := 0, session := 3, seq := 1, ack := 0, readCr := 0, storeCr := 0, key := [5], body := 0, payload := [] }
     ({ State.reset with beat := 0, serve := { links := [true, true] }, retr := { enabled := true, sessions := [(2, { state := 2, number := 3, key := [1], txSeq := 1, rxSeq := 1 })] } })).2,
     { State.reset with beat := 0, serve := { links := [true, true] }, retr := { enabled := true, sessions := [(2, { state := 2, number := 3, key := [1], txSeq := 1, rxSeq := 1 })] } },
     by decide +kernel⟩,
   ⟨{ slice := 0, version := 1, kind := 6, srcPod := 2, dstPod := 0, session := 3, seq := 1, ack := 0, readCr := 0, storeCr := 0, key := [5], body := 0, payload := [] },
     (gwReceive gwFLUSHACK { slice := 0, version := 1, kind := 6, srcPod := 2, dstPod := 0, session := 3, seq := 1, ack := 0, readCr := 0, storeCr := 0, key := [5], body := 0, payload := [] }
     ({ State.reset with beat := 0, serve := { links := [true, true] }, retr := { enabled := true, sessions := [(2, { state := 2, number := 3, key := [1], txSeq := 1, rxSeq := 1 })] } })).2,
     { State.reset with beat := 0, serve := { links := [true, true] }, retr := { enabled := true, sessions := [(2, { state := 2, number := 3, key := [1], txSeq := 1, rxSeq := 1 })] } },
     by decide +kernel⟩,
   ⟨{ slice := 0, version := 1, kind := 3, srcPod := 2, dstPod := 0, session := 3, seq := 1, ack := 0, readCr := 0, storeCr := 0, key := [1], body := BitVec.ofNat 256 (5 * 2 ^ 128), payload := [] },
     (gwReceive gwREAD { slice := 0, version := 1, kind := 3, srcPod := 2, dstPod := 0, session := 3, seq := 1, ack := 0, readCr := 0, storeCr := 0, key := [1], body := BitVec.ofNat 256 (5 * 2 ^ 128), payload := [] }
     ({ State.reset with beat := 0, serve := { links := [true, true] }, retr := { enabled := true, sessions := [(2, { state := 2, number := 3, key := [1], txSeq := 1, rxSeq := 1 })] } })).2,
     _, _, _, { State.reset with beat := 0, serve := { links := [true, true] }, retr := { enabled := true, sessions := [(2, { state := 2, number := 3, key := [1], txSeq := 1, rxSeq := 1 })] } },
     by decide +kernel, rfl, rfl, rfl⟩,
   ⟨{ slice := 0, version := 1, kind := 5, srcPod := 2, dstPod := 0, session := 3, seq := 1, ack := 0, readCr := 0, storeCr := 0, key := [1], body := 0, payload := [5] },
     (gwReceive gwFLUSH { slice := 0, version := 1, kind := 5, srcPod := 2, dstPod := 0, session := 3, seq := 1, ack := 0, readCr := 0, storeCr := 0, key := [1], body := 0, payload := [5] }
     ({ State.reset with beat := 0, serve := { links := [true, true] }, retr := { enabled := true, sessions := [(2, { state := 2, number := 3, key := [1], txSeq := 1, rxSeq := 1 })] } })).2,
     _, _, _, { State.reset with beat := 0, serve := { links := [true, true] }, retr := { enabled := true, sessions := [(2, { state := 2, number := 3, key := [1], txSeq := 1, rxSeq := 1 })] } },
     by decide +kernel, rfl, rfl, rfl⟩,
   ⟨{ slice := 0, version := 1, kind := 3, srcPod := 2, dstPod := 0, session := 3, seq := 1, ack := 0, readCr := 0, storeCr := 0, key := [1], body := BitVec.ofNat 256 (5 * 2 ^ 128), payload := [] },
     1, { State.reset with beat := 0, serve := { links := [true, true] }, retr := { enabled := true, sessions := [(2, { state := 2, number := 3, key := [1], txSeq := 1, rxSeq := 1 })] } },
     by decide +kernel⟩,
   ⟨{ slice := 0, version := 1, kind := 5, srcPod := 2, dstPod := 0, session := 3, seq := 1, ack := 0, readCr := 0, storeCr := 0, key := [1], body := 0, payload := [5] },
     1, { State.reset with beat := 0, serve := { links := [true, true] }, retr := { enabled := true, sessions := [(2, { state := 2, number := 3, key := [1], txSeq := 1, rxSeq := 1 })] } },
     by decide +kernel⟩,
   ⟨{ slice := 0, version := 1, kind := 4, srcPod := 2, dstPod := 0, session := 3, seq := 1, ack := 0, readCr := 0, storeCr := 0, key := [1], body := 0, payload := [] },
     (gwReceive gwREADDATA { slice := 0, version := 1, kind := 4, srcPod := 2, dstPod := 0, session := 3, seq := 1, ack := 0, readCr := 0, storeCr := 0, key := [1], body := 0, payload := [] }
     ({ State.reset with beat := 0, serve := { links := [true, true] }, retr := { enabled := true, sessions := [(2, { state := 2, number := 3, key := [1], txSeq := 1, rxSeq := 1 })] } })).2,
     { State.reset with beat := 0, serve := { links := [true, true] }, retr := { enabled := true, sessions := [(2, { state := 2, number := 3, key := [1], txSeq := 1, rxSeq := 1 })] } },
     by decide +kernel⟩,
   ⟨{ slice := 0, version := 1, kind := 4, srcPod := 2, dstPod := 0, session := 3, seq := 1, ack := 0, readCr := 0, storeCr := 0, key := [1], body := BitVec.ofNat 256 (4 * 2 ^ 48), payload := [] },
     (gwReceive gwREADDATA { slice := 0, version := 1, kind := 4, srcPod := 2, dstPod := 0, session := 3, seq := 1, ack := 0, readCr := 0, storeCr := 0, key := [1], body := BitVec.ofNat 256 (4 * 2 ^ 48), payload := [] }
     ({ State.reset with beat := 0, serve := { links := [true, true] }, retr := { enabled := true, sessions := [(2, { state := 2, number := 3, key := [1], txSeq := 1, rxSeq := 1 })], bufs := [{ slice := 0, id := 4, read := true, src := 1, node := 0x201, job := 0, page := 0, began := 0, sent := true }] } })).2,
     { slice := 0, id := 4, read := true, src := 1, node := 0x201, job := 0, page := 0, began := 0, sent := true },
     { State.reset with beat := 0, serve := { links := [true, true] }, retr := { enabled := true, sessions := [(2, { state := 2, number := 3, key := [1], txSeq := 1, rxSeq := 1 })], bufs := [{ slice := 0, id := 4, read := true, src := 1, node := 0x201, job := 0, page := 0, began := 0, sent := true }] } },
     by decide +kernel⟩,
   ⟨{ slice := 0, version := 1, kind := 4, srcPod := 2, dstPod := 0, session := 3, seq := 1, ack := 0, readCr := 0, storeCr := 0, key := [1], body := BitVec.ofNat 256 (4 * 2 ^ 48), payload := [] },
     { slice := 0, id := 4, read := true, src := 1, node := 0x201, job := 0, page := 0, began := 0, sent := true },
     { State.reset with beat := 0, serve := { links := [true, true] }, retr := { enabled := true, sessions := [(2, { state := 2, number := 3, key := [1], txSeq := 1, rxSeq := 1 })], bufs := [{ slice := 0, id := 4, read := true, src := 1, node := 0x201, job := 0, page := 0, began := 0, sent := true }] } },
     by decide +kernel⟩,
   ⟨{ slice := 0, version := 1, kind := 6, srcPod := 2, dstPod := 0, session := 3, seq := 1, ack := 0, readCr := 0, storeCr := 0, key := [1], body := 0, payload := [] },
     (gwReceive gwFLUSHACK { slice := 0, version := 1, kind := 6, srcPod := 2, dstPod := 0, session := 3, seq := 1, ack := 0, readCr := 0, storeCr := 0, key := [1], body := 0, payload := [] }
     ({ State.reset with beat := 0, serve := { links := [true, true] }, retr := { enabled := true, sessions := [(2, { state := 2, number := 3, key := [1], txSeq := 1, rxSeq := 1 })] } })).2,
     { State.reset with beat := 0, serve := { links := [true, true] }, retr := { enabled := true, sessions := [(2, { state := 2, number := 3, key := [1], txSeq := 1, rxSeq := 1 })] } },
     by decide +kernel⟩,
   ⟨{ slice := 0, version := 1, kind := 6, srcPod := 2, dstPod := 0, session := 3, seq := 1, ack := 0, readCr := 0, storeCr := 0, key := [1], body := BitVec.ofNat 256 (2050 * 2 ^ 48), payload := [] },
     (gwReceive gwFLUSHACK { slice := 0, version := 1, kind := 6, srcPod := 2, dstPod := 0, session := 3, seq := 1, ack := 0, readCr := 0, storeCr := 0, key := [1], body := BitVec.ofNat 256 (2050 * 2 ^ 48), payload := [] }
     ({ State.reset with beat := 0, serve := { links := [true, true] }, retr := { enabled := true, sessions := [(2, { state := 2, number := 3, key := [1], txSeq := 1, rxSeq := 1 })], bufs := [{ slice := 0, id := 2050, read := false, src := 1, node := 0x201, job := 0, page := 0, began := 0, sent := true }] } })).2,
     { slice := 0, id := 2050, read := false, src := 1, node := 0x201, job := 0, page := 0, began := 0, sent := true },
     { State.reset with beat := 0, serve := { links := [true, true] }, retr := { enabled := true, sessions := [(2, { state := 2, number := 3, key := [1], txSeq := 1, rxSeq := 1 })], bufs := [{ slice := 0, id := 2050, read := false, src := 1, node := 0x201, job := 0, page := 0, began := 0, sent := true }] } },
     by decide +kernel⟩,
   ⟨{ slice := 0, version := 1, kind := 6, srcPod := 2, dstPod := 0, session := 3, seq := 1, ack := 0, readCr := 0, storeCr := 0, key := [1], body := BitVec.ofNat 256 (2050 * 2 ^ 48), payload := [] },
     { slice := 0, id := 2050, read := false, src := 1, node := 0x201, job := 0, page := 0, began := 0, sent := true },
     { State.reset with beat := 0, serve := { links := [true, true] }, retr := { enabled := true, sessions := [(2, { state := 2, number := 3, key := [1], txSeq := 1, rxSeq := 1 })], bufs := [{ slice := 0, id := 2050, read := false, src := 1, node := 0x201, job := 0, page := 0, began := 0, sent := true }] } },
     by decide +kernel⟩,
   ⟨{ n := 0, pod := 2, slice := 0, read := true, body := 0, data := [] },
     { State.reset with retr := { serving := [{ n := 0, pod := 2, slice := 0, read := true, body := 0, data := [] }] } },
     by decide +kernel⟩⟩

/-- The hypotheses of each clause of FrameDelivery can be met. -/
theorem witness_FrameDelivery :
    (∃ (n : StringId) (f : Frame) (u : State) (s : State), (receive n.val opWRITE f s = (none, u))) ∧
    (∃ (n : StringId) (f g : Frame) (u : State) (s : State), (receive n.val opWRITE f s = (some g, u)) ∧ (29 ≤ hDest g.hdr))
      ∧
    (∃ (n : StringId) (f g : Frame) (u : State) (s : State), (receive n.val opWRITE f s = (some g, u)) ∧ (hDest g.hdr < 29) ∧
      (hDest g.hdr ≠ (stringEnds n.val).2)) ∧
    (∃ (n : StringId) (f : Frame) (u : State) (s : State), (receive n.val opRPART f s = (none, u))) ∧
    (∃ (n : StringId) (f g : Frame) (u : State) (s : State), (receive n.val opRPART f s = (some g, u)) ∧ (29 ≤ hDest g.hdr))
      ∧
    (∃ (n : StringId) (f g : Frame) (u : State) (s : State), (receive n.val opRPART f s = (some g, u)) ∧ (hDest g.hdr < 29) ∧
      (hDest g.hdr ≠ (stringEnds n.val).2)) ∧
    (∃ (n : StringId) (f : Frame) (u : State) (s : State), (receive n.val opREADREQ f s = (none, u))) ∧
    (∃ (n : StringId) (f g : Frame) (u : State) (s : State), (receive n.val opREADREQ f s = (some g, u)) ∧ (29 ≤ hDest
      g.hdr)) ∧
    (∃ (n : StringId) (f g : Frame) (u : State) (s : State), (receive n.val opREADREQ f s = (some g, u)) ∧ (hDest g.hdr < 29)
      ∧ (hDest g.hdr ≠ (stringEnds n.val).2)) ∧
    (∃ (n : StringId) (f : Frame) (u : State) (s : State), (receive n.val opREADDATA f s = (none, u))) ∧
    (∃ (n : StringId) (f g : Frame) (u : State) (s : State), (receive n.val opREADDATA f s = (some g, u)) ∧ (29 ≤ hDest
      g.hdr)) ∧
    (∃ (n : StringId) (f g : Frame) (u : State) (s : State), (receive n.val opREADDATA f s = (some g, u)) ∧ (hDest g.hdr <
      29) ∧ (hDest g.hdr ≠ (stringEnds n.val).2)) ∧
    (∃ (n : StringId) (f : Frame) (u : State) (s : State), (receive n.val opFLAG f s = (none, u))) ∧
    (∃ (n : StringId) (f g : Frame) (u : State) (s : State), (receive n.val opFLAG f s = (some g, u)) ∧ (29 ≤ hDest g.hdr)) ∧
    (∃ (n : StringId) (f g : Frame) (u : State) (s : State), (receive n.val opFLAG f s = (some g, u)) ∧ (hDest g.hdr < 29) ∧
      (hDest g.hdr ≠ (stringEnds n.val).2)) ∧
    (∃ (n : StringId) (f : Frame) (u : State) (s : State), (receive n.val opBARRIER f s = (none, u))) ∧
    (∃ (n : StringId) (f g : Frame) (u : State) (s : State), (receive n.val opBARRIER f s = (some g, u)) ∧ (29 ≤ hDest
      g.hdr)) ∧
    (∃ (n : StringId) (f g : Frame) (u : State) (s : State), (receive n.val opBARRIER f s = (some g, u)) ∧ (hDest g.hdr < 29)
      ∧ (hDest g.hdr ≠ (stringEnds n.val).2)) ∧
    (∃ (n : StringId) (f : Frame) (u : State) (s : State), (receive n.val opSTATUS f s = (none, u))) ∧
    (∃ (n : StringId) (f g : Frame) (u : State) (s : State), (receive n.val opSTATUS f s = (some g, u)) ∧ (29 ≤ hDest g.hdr))
      ∧
    (∃ (n : StringId) (f g : Frame) (u : State) (s : State), (receive n.val opSTATUS f s = (some g, u)) ∧ (hDest g.hdr < 29)
      ∧ (hDest g.hdr ≠ (stringEnds n.val).2)) ∧
    (∃ (n : StringId) (f : Frame) (u : State) (s : State), (receive n.val opLAUNCH f s = (none, u))) ∧
    (∃ (n : StringId) (f g : Frame) (u : State) (s : State), (receive n.val opLAUNCH f s = (some g, u)) ∧ (29 ≤ hDest g.hdr))
      ∧
    (∃ (n : StringId) (f g : Frame) (u : State) (s : State), (receive n.val opLAUNCH f s = (some g, u)) ∧ (hDest g.hdr < 29)
      ∧ (hDest g.hdr ≠ (stringEnds n.val).2)) :=
  ⟨⟨85, { hdr := 0, payload := [], crc := 0 }, State.reset, State.reset, by decide +kernel⟩,
   ⟨30, mkFrame (withLink (mkHdr opWRITE 30 1 63 0 0 false) 30 0 0xFF 0 0) (fitBytes 64 []), ((receive 30 opWRITE (mkFrame
     (withLink (mkHdr opWRITE 30 1 63 0 0 false) 30 0 0xFF 0 0) (fitBytes 64 []))
     ({ State.reset with strings := [(primaryString 1 3, { state := 0 })] })).1.getD { hdr := 0, payload := [], crc := 0 }),
     (receive 30 opWRITE (mkFrame (withLink (mkHdr opWRITE 30 1 63 0 0 false) 30 0 0xFF 0 0) (fitBytes 64 []))
     ({ State.reset with strings := [(primaryString 1 3, { state := 0 })] })).2,
     { State.reset with strings := [(primaryString 1 3, { state := 0 })] }, by decide +kernel⟩,
   ⟨30, mkFrame (withLink (mkHdr opWRITE 5 1 63 0 0 true) 30 0 0xFF 0 0) (fitBytes 64 []), ((receive 30 opWRITE (mkFrame
     (withLink (mkHdr opWRITE 5 1 63 0 0 true) 30 0 0xFF 0 0) (fitBytes 64 []))
     ({ State.reset with strings := [(primaryString 1 3, { state := 0 })] })).1.getD { hdr := 0, payload := [], crc := 0 }),
     (receive 30 opWRITE (mkFrame (withLink (mkHdr opWRITE 5 1 63 0 0 true) 30 0 0xFF 0 0) (fitBytes 64 []))
     ({ State.reset with strings := [(primaryString 1 3, { state := 0 })] })).2,
     { State.reset with strings := [(primaryString 1 3, { state := 0 })] }, by decide +kernel⟩,
   ⟨85, { hdr := 0, payload := [], crc := 0 }, State.reset, State.reset, by decide +kernel⟩,
   ⟨30, mkFrame (withLink (mkHdr opRPART 30 1 63 0 0 false) 30 0 0xFF 0 0) (fitBytes 64 []), ((receive 30 opRPART (mkFrame
     (withLink (mkHdr opRPART 30 1 63 0 0 false) 30 0 0xFF 0 0) (fitBytes 64 []))
     ({ State.reset with strings := [(primaryString 1 3, { state := 0 })] })).1.getD { hdr := 0, payload := [], crc := 0 }),
     (receive 30 opRPART (mkFrame (withLink (mkHdr opRPART 30 1 63 0 0 false) 30 0 0xFF 0 0) (fitBytes 64 []))
     ({ State.reset with strings := [(primaryString 1 3, { state := 0 })] })).2,
     { State.reset with strings := [(primaryString 1 3, { state := 0 })] }, by decide +kernel⟩,
   ⟨30, mkFrame (withLink (mkHdr opRPART 5 1 63 0 0 true) 30 0 0xFF 0 0) (fitBytes 64 []), ((receive 30 opRPART (mkFrame
     (withLink (mkHdr opRPART 5 1 63 0 0 true) 30 0 0xFF 0 0) (fitBytes 64 []))
     ({ State.reset with strings := [(primaryString 1 3, { state := 0 })] })).1.getD { hdr := 0, payload := [], crc := 0 }),
     (receive 30 opRPART (mkFrame (withLink (mkHdr opRPART 5 1 63 0 0 true) 30 0 0xFF 0 0) (fitBytes 64 []))
     ({ State.reset with strings := [(primaryString 1 3, { state := 0 })] })).2,
     { State.reset with strings := [(primaryString 1 3, { state := 0 })] }, by decide +kernel⟩,
   ⟨85, { hdr := 0, payload := [], crc := 0 }, State.reset, State.reset, by decide +kernel⟩,
   ⟨30, mkFrame (withLink (mkHdr opREADREQ 30 1 63 0 0 false) 30 0 0xFF 0 0) (fitBytes 64 []), ((receive 30 opREADREQ
     (mkFrame (withLink (mkHdr opREADREQ 30 1 63 0 0 false) 30 0 0xFF 0 0) (fitBytes 64 []))
     ({ State.reset with strings := [(primaryString 1 3, { state := 0 })] })).1.getD { hdr := 0, payload := [], crc := 0 }),
     (receive 30 opREADREQ (mkFrame (withLink (mkHdr opREADREQ 30 1 63 0 0 false) 30 0 0xFF 0 0) (fitBytes 64 []))
     ({ State.reset with strings := [(primaryString 1 3, { state := 0 })] })).2,
     { State.reset with strings := [(primaryString 1 3, { state := 0 })] }, by decide +kernel⟩,
   ⟨30, mkFrame (withLink (mkHdr opREADREQ 5 1 63 0 0 true) 30 0 0xFF 0 0) (fitBytes 64 []), ((receive 30 opREADREQ (mkFrame
     (withLink (mkHdr opREADREQ 5 1 63 0 0 true) 30 0 0xFF 0 0) (fitBytes 64 []))
     ({ State.reset with strings := [(primaryString 1 3, { state := 0 })] })).1.getD { hdr := 0, payload := [], crc := 0 }),
     (receive 30 opREADREQ (mkFrame (withLink (mkHdr opREADREQ 5 1 63 0 0 true) 30 0 0xFF 0 0) (fitBytes 64 []))
     ({ State.reset with strings := [(primaryString 1 3, { state := 0 })] })).2,
     { State.reset with strings := [(primaryString 1 3, { state := 0 })] }, by decide +kernel⟩,
   ⟨85, { hdr := 0, payload := [], crc := 0 }, State.reset, State.reset, by decide +kernel⟩,
   ⟨30, mkFrame (withLink (mkHdr opREADDATA 30 1 63 0 0 false) 30 0 0xFF 0 0) (fitBytes 64 []), ((receive 30 opREADDATA
     (mkFrame (withLink (mkHdr opREADDATA 30 1 63 0 0 false) 30 0 0xFF 0 0) (fitBytes 64 []))
     ({ State.reset with strings := [(primaryString 1 3, { state := 0 })] })).1.getD { hdr := 0, payload := [], crc := 0 }),
     (receive 30 opREADDATA (mkFrame (withLink (mkHdr opREADDATA 30 1 63 0 0 false) 30 0 0xFF 0 0) (fitBytes 64 []))
     ({ State.reset with strings := [(primaryString 1 3, { state := 0 })] })).2,
     { State.reset with strings := [(primaryString 1 3, { state := 0 })] }, by decide +kernel⟩,
   ⟨30, mkFrame (withLink (mkHdr opREADDATA 5 1 63 0 0 true) 30 0 0xFF 0 0) (fitBytes 64 []), ((receive 30 opREADDATA
     (mkFrame (withLink (mkHdr opREADDATA 5 1 63 0 0 true) 30 0 0xFF 0 0) (fitBytes 64 []))
     ({ State.reset with strings := [(primaryString 1 3, { state := 0 })] })).1.getD { hdr := 0, payload := [], crc := 0 }),
     (receive 30 opREADDATA (mkFrame (withLink (mkHdr opREADDATA 5 1 63 0 0 true) 30 0 0xFF 0 0) (fitBytes 64 []))
     ({ State.reset with strings := [(primaryString 1 3, { state := 0 })] })).2,
     { State.reset with strings := [(primaryString 1 3, { state := 0 })] }, by decide +kernel⟩,
   ⟨85, { hdr := 0, payload := [], crc := 0 }, State.reset, State.reset, by decide +kernel⟩,
   ⟨30, mkFrame (withLink (mkHdr opFLAG 30 1 63 0 0 false) 30 0 0xFF 0 0) (fitBytes 64 []), ((receive 30 opFLAG (mkFrame
     (withLink (mkHdr opFLAG 30 1 63 0 0 false) 30 0 0xFF 0 0) (fitBytes 64 []))
     ({ State.reset with strings := [(primaryString 1 3, { state := 0 })] })).1.getD { hdr := 0, payload := [], crc := 0 }),
     (receive 30 opFLAG (mkFrame (withLink (mkHdr opFLAG 30 1 63 0 0 false) 30 0 0xFF 0 0) (fitBytes 64 []))
     ({ State.reset with strings := [(primaryString 1 3, { state := 0 })] })).2,
     { State.reset with strings := [(primaryString 1 3, { state := 0 })] }, by decide +kernel⟩,
   ⟨30, mkFrame (withLink (mkHdr opFLAG 5 1 63 0 0 true) 30 0 0xFF 0 0) (fitBytes 64 []), ((receive 30 opFLAG (mkFrame
     (withLink (mkHdr opFLAG 5 1 63 0 0 true) 30 0 0xFF 0 0) (fitBytes 64 []))
     ({ State.reset with strings := [(primaryString 1 3, { state := 0 })] })).1.getD { hdr := 0, payload := [], crc := 0 }),
     (receive 30 opFLAG (mkFrame (withLink (mkHdr opFLAG 5 1 63 0 0 true) 30 0 0xFF 0 0) (fitBytes 64 []))
     ({ State.reset with strings := [(primaryString 1 3, { state := 0 })] })).2,
     { State.reset with strings := [(primaryString 1 3, { state := 0 })] }, by decide +kernel⟩,
   ⟨85, { hdr := 0, payload := [], crc := 0 }, State.reset, State.reset, by decide +kernel⟩,
   ⟨30, mkFrame (withLink (mkHdr opBARRIER 30 1 63 0 0 false) 30 0 0xFF 0 0) (fitBytes 64 []), ((receive 30 opBARRIER
     (mkFrame (withLink (mkHdr opBARRIER 30 1 63 0 0 false) 30 0 0xFF 0 0) (fitBytes 64 []))
     ({ State.reset with strings := [(primaryString 1 3, { state := 0 })] })).1.getD { hdr := 0, payload := [], crc := 0 }),
     (receive 30 opBARRIER (mkFrame (withLink (mkHdr opBARRIER 30 1 63 0 0 false) 30 0 0xFF 0 0) (fitBytes 64 []))
     ({ State.reset with strings := [(primaryString 1 3, { state := 0 })] })).2,
     { State.reset with strings := [(primaryString 1 3, { state := 0 })] }, by decide +kernel⟩,
   ⟨30, mkFrame (withLink (mkHdr opBARRIER 5 1 63 0 0 true) 30 0 0xFF 0 0) (fitBytes 64 []), ((receive 30 opBARRIER (mkFrame
     (withLink (mkHdr opBARRIER 5 1 63 0 0 true) 30 0 0xFF 0 0) (fitBytes 64 []))
     ({ State.reset with strings := [(primaryString 1 3, { state := 0 })] })).1.getD { hdr := 0, payload := [], crc := 0 }),
     (receive 30 opBARRIER (mkFrame (withLink (mkHdr opBARRIER 5 1 63 0 0 true) 30 0 0xFF 0 0) (fitBytes 64 []))
     ({ State.reset with strings := [(primaryString 1 3, { state := 0 })] })).2,
     { State.reset with strings := [(primaryString 1 3, { state := 0 })] }, by decide +kernel⟩,
   ⟨85, { hdr := 0, payload := [], crc := 0 }, State.reset, State.reset, by decide +kernel⟩,
   ⟨30, mkFrame (withLink (mkHdr opSTATUS 30 1 63 0 0 false) 30 0 0xFF 0 0) (fitBytes 64 []), ((receive 30 opSTATUS (mkFrame
     (withLink (mkHdr opSTATUS 30 1 63 0 0 false) 30 0 0xFF 0 0) (fitBytes 64 []))
     ({ State.reset with strings := [(primaryString 1 3, { state := 0 })] })).1.getD { hdr := 0, payload := [], crc := 0 }),
     (receive 30 opSTATUS (mkFrame (withLink (mkHdr opSTATUS 30 1 63 0 0 false) 30 0 0xFF 0 0) (fitBytes 64 []))
     ({ State.reset with strings := [(primaryString 1 3, { state := 0 })] })).2,
     { State.reset with strings := [(primaryString 1 3, { state := 0 })] }, by decide +kernel⟩,
   ⟨30, mkFrame (withLink (mkHdr opSTATUS 5 1 63 0 0 true) 30 0 0xFF 0 0) (fitBytes 64 []), ((receive 30 opSTATUS (mkFrame
     (withLink (mkHdr opSTATUS 5 1 63 0 0 true) 30 0 0xFF 0 0) (fitBytes 64 []))
     ({ State.reset with strings := [(primaryString 1 3, { state := 0 })] })).1.getD { hdr := 0, payload := [], crc := 0 }),
     (receive 30 opSTATUS (mkFrame (withLink (mkHdr opSTATUS 5 1 63 0 0 true) 30 0 0xFF 0 0) (fitBytes 64 []))
     ({ State.reset with strings := [(primaryString 1 3, { state := 0 })] })).2,
     { State.reset with strings := [(primaryString 1 3, { state := 0 })] }, by decide +kernel⟩,
   ⟨85, { hdr := 0, payload := [], crc := 0 }, State.reset, State.reset, by decide +kernel⟩,
   ⟨30, mkFrame (withLink (mkHdr opLAUNCH 30 1 63 0 0 false) 30 0 0xFF 0 0) (fitBytes 64 []), ((receive 30 opLAUNCH (mkFrame
     (withLink (mkHdr opLAUNCH 30 1 63 0 0 false) 30 0 0xFF 0 0) (fitBytes 64 []))
     ({ State.reset with strings := [(primaryString 1 3, { state := 0 })] })).1.getD { hdr := 0, payload := [], crc := 0 }),
     (receive 30 opLAUNCH (mkFrame (withLink (mkHdr opLAUNCH 30 1 63 0 0 false) 30 0 0xFF 0 0) (fitBytes 64 []))
     ({ State.reset with strings := [(primaryString 1 3, { state := 0 })] })).2,
     { State.reset with strings := [(primaryString 1 3, { state := 0 })] }, by decide +kernel⟩,
   ⟨30, mkFrame (withLink (mkHdr opLAUNCH 5 1 63 0 0 true) 30 0 0xFF 0 0) (fitBytes 64 []), ((receive 30 opLAUNCH (mkFrame
     (withLink (mkHdr opLAUNCH 5 1 63 0 0 true) 30 0 0xFF 0 0) (fitBytes 64 []))
     ({ State.reset with strings := [(primaryString 1 3, { state := 0 })] })).1.getD { hdr := 0, payload := [], crc := 0 }),
     (receive 30 opLAUNCH (mkFrame (withLink (mkHdr opLAUNCH 5 1 63 0 0 true) 30 0 0xFF 0 0) (fitBytes 64 []))
     ({ State.reset with strings := [(primaryString 1 3, { state := 0 })] })).2,
     { State.reset with strings := [(primaryString 1 3, { state := 0 })] }, by decide +kernel⟩⟩

/-- The hypotheses of each clause of WriteFrames can be met. -/
theorem witness_WriteFrames :
    (∃ (n : StringId) (f g : Frame) (u : State) (s : State), (receive n.val opWRITE f s = (some g, u)) ∧ (hDest g.hdr =
      (stringEnds n.val).2) ∧ (hDest g.hdr < 29) ∧ ((stringEnds n.val).2 = hubSite)) ∧
    (∃ (n : StringId) (f g : Frame) (u : State) (s : State), (receive n.val opWRITE f s = (some g, u)) ∧ (hDest g.hdr =
      (stringEnds n.val).2) ∧ (hDest g.hdr < 29) ∧ ((stringEnds n.val).2 = hubSite) ∧ ((frameAddr g) + (frameData g).length ≤
      0x4000000) ∧ ((frameAddr g) ≠ traceBase ∨ (frameData g).length ≠ 48)) ∧
    (∃ (n : StringId) (f g : Frame) (u : State) (s : State), (receive n.val opWRITE f s = (some g, u)) ∧ (hDest g.hdr =
      (stringEnds n.val).2) ∧ (hDest g.hdr < 29) ∧ (25 ≤ (stringEnds n.val).2)) ∧
    (∃ (n : StringId) (f g : Frame) (u : State) (d : Nat) (s : State), (receive n.val opWRITE f s = (some g, u)) ∧ (hDest
      g.hdr = (stringEnds n.val).2) ∧ (hDest g.hdr < 29) ∧ (siteDie ((stringEnds n.val).2) = some d) ∧ (dieUp u d = false)) ∧
    (∃ (n : StringId) (f g : Frame) (u : State) (d : Nat) (s : State), (receive n.val opWRITE f s = (some g, u)) ∧ (hDest
      g.hdr = (stringEnds n.val).2) ∧ (hDest g.hdr < 29) ∧ (siteDie ((stringEnds n.val).2) = some d) ∧ (dieUp u d = true) ∧
      (¬(inArea (siteAreas ((stringEnds n.val).2) (lockedAreas u ((stringEnds n.val).2))) (frameAddr g) (frameData g).length
      = true ∧ (dramHomeBase ≤ (frameAddr g) → ownsPages u d ((frameAddr g) - dramHomeBase) (frameData g).length = true)))) ∧
    (∃ (n : StringId) (f g : Frame) (u : State) (d : Nat) (x : InWrite) (v : State) (s : State), (receive n.val opWRITE f s =
      (some g, u)) ∧ (hDest g.hdr = (stringEnds n.val).2) ∧ (hDest g.hdr < 29) ∧ (siteDie ((stringEnds n.val).2) = some d) ∧
      (dieUp u d = true) ∧ (inArea (siteAreas ((stringEnds n.val).2) (lockedAreas u ((stringEnds n.val).2))) (frameAddr g)
      (frameData g).length = true ∧ (dramHomeBase ≤ (frameAddr g) → ownsPages u d ((frameAddr g) - dramHomeBase) (frameData
      g).length = true)) ∧ (x = { n := (u.die d).inN, port := portOf (frameAddr g), src := (hSrc g.hdr), addr := (frameAddr g), data := (frameData g), string := n.val, buf := (rxBuffer n.val g.hdr) })
      ∧ (v = u.setDie d { u.die d with inq := (u.die d).inq ++ [x], inN := (u.die d).inN + 1 })) ∧
    (∃ (n : StringId) (f g : Frame) (u : State) (d : Nat) (x : InWrite) (v : State) (s : State), (receive n.val opWRITE f s =
      (some g, u)) ∧ (hDest g.hdr = (stringEnds n.val).2) ∧ (hDest g.hdr < 29) ∧ (siteDie ((stringEnds n.val).2) = some d) ∧
      (dieUp u d = true) ∧ (inArea (siteAreas ((stringEnds n.val).2) (lockedAreas u ((stringEnds n.val).2))) (frameAddr g)
      (frameData g).length = true ∧ (dramHomeBase ≤ (frameAddr g) → ownsPages u d ((frameAddr g) - dramHomeBase) (frameData
      g).length = true)) ∧ (x = { n := (u.die d).inN, port := portOf (frameAddr g), src := (hSrc g.hdr), addr := (frameAddr g), data := (frameData g), string := n.val, buf := (rxBuffer n.val g.hdr) })
      ∧ (v = u.setDie d { u.die d with inq := (u.die d).inq ++ [x], inN := (u.die d).inN + 1 }) ∧ (∀ y ∈ (u.die d).inq,
      windowRoute u d y.src = false) ∧ (windowRoute u d (hSrc g.hdr) = false)) ∧
    (∃ (n : StringId) (f g : Frame) (u : State) (d : Nat) (x : InWrite) (v : State) (s : State), (receive n.val opWRITE f s =
      (some g, u)) ∧ (hDest g.hdr = (stringEnds n.val).2) ∧ (hDest g.hdr < 29) ∧ (siteDie ((stringEnds n.val).2) = some d) ∧
      (dieUp u d = true) ∧ (inArea (siteAreas ((stringEnds n.val).2) (lockedAreas u ((stringEnds n.val).2))) (frameAddr g)
      (frameData g).length = true ∧ (dramHomeBase ≤ (frameAddr g) → ownsPages u d ((frameAddr g) - dramHomeBase) (frameData
      g).length = true)) ∧ (x = { n := (u.die d).inN, port := portOf (frameAddr g), src := (hSrc g.hdr), addr := (frameAddr g), data := (frameData g), string := n.val, buf := (rxBuffer n.val g.hdr) })
      ∧ (v = u.setDie d { u.die d with inq := (u.die d).inq ++ [x], inN := (u.die d).inN + 1 }) ∧ ((u.die d).inq = []) ∧
      (windowRoute u d (hSrc g.hdr) = true)) ∧
    (∃ (n : StringId) (f g : Frame) (u : State) (d : Nat) (s : State), (receive n.val opWRITE f s = (some g, u)) ∧ (hDest
      g.hdr = (stringEnds n.val).2) ∧ (hDest g.hdr < 29) ∧ (siteDie ((stringEnds n.val).2) = some d) ∧ (dieUp u d = true) ∧
      (inArea (siteAreas ((stringEnds n.val).2) (lockedAreas u ((stringEnds n.val).2))) (frameAddr g) (frameData g).length =
      true ∧ (dramHomeBase ≤ (frameAddr g) → ownsPages u d ((frameAddr g) - dramHomeBase) (frameData g).length = true)) ∧
      ((u.die d).inq = []) ∧ (windowRoute u d (hSrc g.hdr) = true) ∧ ((frameAddr g) < dramHomeBase)) ∧
    (∃ (n : StringId) (f g : Frame) (u : State) (k : Nat) (s : State), (receive n.val opWRITE f s = (some g, u)) ∧ (hDest
      g.hdr = (stringEnds n.val).2) ∧ (hDest g.hdr < 29) ∧ (siteStack ((stringEnds n.val).2) = some k)) ∧
    (∃ (n : StringId) (f g : Frame) (u : State) (k : Nat) (s : State), (receive n.val opWRITE f s = (some g, u)) ∧ (hDest
      g.hdr = (stringEnds n.val).2) ∧ (hDest g.hdr < 29) ∧ (siteStack ((stringEnds n.val).2) = some k) ∧ (stackFailed s k =
      false) ∧ ((frameAddr g) + (frameData g).length ≤ 0x1800000000)) ∧
    (∃ (n : StringId) (f g : Frame) (u : State) (tg : ReadTag) (v : State) (s : State), (receive n.val opREADDATA f s = (some
      g, u)) ∧ (hDest g.hdr = (stringEnds n.val).2) ∧ (hDest g.hdr < 29) ∧ (landingTag u ((stringEnds n.val).2) (frameAddr g)
      = some tg) ∧ (v = landAt ((stringEnds n.val).2) (frameAddr g) (frameData g) u) ∧ ((frameData g).length < tg.left)) ∧
    (∃ (n : StringId) (f g : Frame) (u : State) (tg : ReadTag) (v w : State) (s : State), (receive n.val opREADDATA f s =
      (some g, u)) ∧ (hDest g.hdr = (stringEnds n.val).2) ∧ (hDest g.hdr < 29) ∧ (landingTag u ((stringEnds n.val).2)
      (frameAddr g) = some tg) ∧ (v = landAt ((stringEnds n.val).2) (frameAddr g) (frameData g) u) ∧ (w =
      { v with tags := v.tags.filter (fun x => !(x.site == (stringEnds n.val).2 && x.tag == tg.tag)) }) ∧ (tg.left ≤
      (frameData g).length)) ∧
    (∃ (n : StringId) (f g : Frame) (u : State) (tg : ReadTag) (s : State), (receive n.val opREADDATA f s = (some g, u)) ∧
      (hDest g.hdr = (stringEnds n.val).2) ∧ (hDest g.hdr < 29) ∧ (landingTag u ((stringEnds n.val).2) (frameAddr g) = some
      tg) ∧ (tg.purpose ≠ 1)) ∧
    (∃ (n : StringId) (f g : Frame) (u : State) (s : State), (receive n.val opREADDATA f s = (some g, u)) ∧ (hDest g.hdr =
      (stringEnds n.val).2) ∧ (hDest g.hdr < 29) ∧ (landingTag u ((stringEnds n.val).2) (frameAddr g) = none)) ∧
    (∃ (n : StringId) (f g : Frame) (u : State) (d : Nat) (s : State), (receive n.val opRPART f s = (some g, u)) ∧ (hDest
      g.hdr = (stringEnds n.val).2) ∧ (hDest g.hdr < 29) ∧ (siteDie ((stringEnds n.val).2) = some d) ∧ (dieUp u d = true)) ∧
    (∃ (n : StringId) (f g : Frame) (u : State) (d : Nat) (s : State), (receive n.val opRPART f s = (some g, u)) ∧ (hDest
      g.hdr = (stringEnds n.val).2) ∧ (hDest g.hdr < 29) ∧ (siteDie ((stringEnds n.val).2) = some d) ∧ (dieUp u d = false)) ∧
    (∃ (n : StringId) (f g : Frame) (u : State) (s : State), (receive n.val opRPART f s = (some g, u)) ∧ (hDest g.hdr =
      (stringEnds n.val).2) ∧ (hDest g.hdr < 29) ∧ (25 ≤ (stringEnds n.val).2)) ∧
    (∃ (n : StringId) (f g : Frame) (u : State) (s : State), (receive n.val opRPART f s = (some g, u)) ∧ (hDest g.hdr =
      (stringEnds n.val).2) ∧ (hDest g.hdr < 29) ∧ (siteDie ((stringEnds n.val).2) = none) ∧ ((stringEnds n.val).2 < 25)) ∧
    (∃ s : State, reduceTarget s 1 64 = none) ∧
    (∃ (die key core : Nat) (s : State) (tg : RedTarget), reduceTarget s die key = some tg ∧ ((redChunk s tg
      key).added.getLsbD core = true ∨ tg.mask.getLsbD core = false ∨ (redChunk s tg key).wait.any (fun w => w.1 == core) =
      true)) ∧
    (∃ (n : StringId) (f g : Frame) (u : State) (d : Nat) (tg : RedTarget) (s : State), (receive n.val opRPART f s = (some g,
      u)) ∧ (hDest g.hdr = (stringEnds n.val).2) ∧ (hDest g.hdr < 29) ∧ (siteDie ((stringEnds n.val).2) = some d) ∧ (dieUp u
      d = true) ∧ (reduceTarget u d (memKey ((stringEnds n.val).2) (64 * hUnit g.hdr)) = some tg) ∧ (tg.die = d) ∧ (tg.addr =
      (memKey ((stringEnds n.val).2) (64 * hUnit g.hdr))) ∧ ((u.die d).chunks = []) ∧ ((u.die d).redq = []) ∧
      (tg.mask.getLsbD (hLength g.hdr) = true) ∧ (nextContributor tg.mask 0 = some (hLength g.hdr)) ∧ (tg.mask ≠ BitVec.ofNat
      64 (2 ^ (hLength g.hdr)))) ∧
    (∃ (n : StringId) (f g : Frame) (u : State) (d : Nat) (tg : RedTarget) (s : State), (receive n.val opRPART f s = (some g,
      u)) ∧ (hDest g.hdr = (stringEnds n.val).2) ∧ (hDest g.hdr < 29) ∧ (siteDie ((stringEnds n.val).2) = some d) ∧ (dieUp u
      d = true) ∧ (reduceTarget u d (memKey ((stringEnds n.val).2) (64 * hUnit g.hdr)) = some tg) ∧ (tg.die = d) ∧ (tg.addr =
      (memKey ((stringEnds n.val).2) (64 * hUnit g.hdr))) ∧ ((u.die d).chunks = []) ∧ ((u.die d).redq = []) ∧
      (tg.mask.getLsbD (hLength g.hdr) = true) ∧ (nextContributor tg.mask 0 ≠ some (hLength g.hdr))) :=
  ⟨⟨39, mkFrame (withLink (mkHdr opWRITE 12 1 9 4 1 false) 39 0 0xFF 0 0) (fitBytes 64 [1, 2, 3, 4, 5, 6]), ((receive 39
    opWRITE (mkFrame (withLink (mkHdr opWRITE 12 1 9 4 1 false) 39 0 0xFF 0 0) (fitBytes 64 [1, 2, 3, 4, 5, 6]))
    ({ State.reset with strings := [(primaryString 1 12, { state := 0 })] })).1.getD { hdr := 0, payload := [], crc := 0 }),
    (receive 39 opWRITE (mkFrame (withLink (mkHdr opWRITE 12 1 9 4 1 false) 39 0 0xFF 0 0) (fitBytes 64 [1, 2, 3, 4, 5, 6]))
    ({ State.reset with strings := [(primaryString 1 12, { state := 0 })] })).2,
    { State.reset with strings := [(primaryString 1 12, { state := 0 })] }, by decide +kernel⟩,
   ⟨39, mkFrame (withLink (mkHdr opWRITE 12 1 9 4 1 false) 39 0 0xFF 0 0) (fitBytes 64 [1, 2, 3, 4, 5, 6]), ((receive 39
     opWRITE (mkFrame (withLink (mkHdr opWRITE 12 1 9 4 1 false) 39 0 0xFF 0 0) (fitBytes 64 [1, 2, 3, 4, 5, 6]))
     ({ State.reset with strings := [(primaryString 1 12, { state := 0 })] })).1.getD { hdr := 0, payload := [], crc := 0 }),
     (receive 39 opWRITE (mkFrame (withLink (mkHdr opWRITE 12 1 9 4 1 false) 39 0 0xFF 0 0) (fitBytes 64 [1, 2, 3, 4, 5, 6]))
     ({ State.reset with strings := [(primaryString 1 12, { state := 0 })] })).2,
     { State.reset with strings := [(primaryString 1 12, { state := 0 })] }, by decide +kernel⟩,
   ⟨52, mkFrame (withLink (mkHdr opWRITE 25 1 9 4 1 false) 52 0 0xFF 0 0) (fitBytes 64 [1]), ((receive 52 opWRITE (mkFrame
     (withLink (mkHdr opWRITE 25 1 9 4 1 false) 52 0 0xFF 0 0) (fitBytes 64 [1]))
     ({ State.reset with strings := [(primaryString 1 25, { state := 0 })] })).1.getD { hdr := 0, payload := [], crc := 0 }),
     (receive 52 opWRITE (mkFrame (withLink (mkHdr opWRITE 25 1 9 4 1 false) 52 0 0xFF 0 0) (fitBytes 64 [1]))
     ({ State.reset with strings := [(primaryString 1 25, { state := 0 })] })).2,
     { State.reset with strings := [(primaryString 1 25, { state := 0 })] }, by decide +kernel⟩,
   ⟨30, mkFrame (withLink (mkHdr opWRITE 3 1 9 4 1 false) 30 0 0xFF 0 0) (fitBytes 64 [1]), ((receive 30 opWRITE (mkFrame
     (withLink (mkHdr opWRITE 3 1 9 4 1 false) 30 0 0xFF 0 0) (fitBytes 64 [1]))
     ({ State.reset with strings := [(primaryString 1 3, { state := 0 })], dies := [(1, { off := true })] })).1.getD
     { hdr := 0, payload := [], crc := 0 }), (receive 30 opWRITE (mkFrame (withLink (mkHdr opWRITE 3 1 9 4 1 false) 30 0 0xFF
     0 0) (fitBytes 64 [1])) ({ State.reset with strings := [(primaryString 1 3, { state := 0 })], dies := [(1, { off := true })] })).2,
     1, { State.reset with strings := [(primaryString 1 3, { state := 0 })], dies := [(1, { off := true })] },
     by decide +kernel⟩,
   ⟨30, mkFrame (withLink (mkHdr opWRITE 3 1 9 4 (2 ^ 33) false) 30 0 0xFF 0 0) (fitBytes 64 [1]), ((receive 30 opWRITE
     (mkFrame (withLink (mkHdr opWRITE 3 1 9 4 (2 ^ 33) false) 30 0 0xFF 0 0) (fitBytes 64 [1]))
     ({ State.reset with strings := [(primaryString 1 3, { state := 0 })] })).1.getD { hdr := 0, payload := [], crc := 0 }),
     (receive 30 opWRITE (mkFrame (withLink (mkHdr opWRITE 3 1 9 4 (2 ^ 33) false) 30 0 0xFF 0 0) (fitBytes 64 [1]))
     ({ State.reset with strings := [(primaryString 1 3, { state := 0 })] })).2, 1,
     { State.reset with strings := [(primaryString 1 3, { state := 0 })] }, by decide +kernel⟩,
   ⟨30, mkFrame (withLink (mkHdr opWRITE 3 1 9 4 1 false) 30 0 0xFF 0 0) (fitBytes 64 [1, 2, 3, 4, 5, 6]), ((receive 30
     opWRITE (mkFrame (withLink (mkHdr opWRITE 3 1 9 4 1 false) 30 0 0xFF 0 0) (fitBytes 64 [1, 2, 3, 4, 5, 6]))
     ({ State.reset with strings := [(primaryString 1 3, { state := 0 })] })).1.getD { hdr := 0, payload := [], crc := 0 }),
     (receive 30 opWRITE (mkFrame (withLink (mkHdr opWRITE 3 1 9 4 1 false) 30 0 0xFF 0 0) (fitBytes 64 [1, 2, 3, 4, 5, 6]))
     ({ State.reset with strings := [(primaryString 1 3, { state := 0 })] })).2, 1, _, _,
     { State.reset with strings := [(primaryString 1 3, { state := 0 })] }, by decide +kernel, by decide +kernel,
     by decide +kernel, by decide +kernel, by decide +kernel, by decide +kernel, rfl, rfl⟩,
   ⟨30, mkFrame (withLink (mkHdr opWRITE 3 1 9 4 1 false) 30 0 0xFF 0 0) (fitBytes 64 [1, 2, 3, 4, 5, 6]), ((receive 30
     opWRITE (mkFrame (withLink (mkHdr opWRITE 3 1 9 4 1 false) 30 0 0xFF 0 0) (fitBytes 64 [1, 2, 3, 4, 5, 6]))
     ({ State.reset with strings := [(primaryString 1 3, { state := 0 })] })).1.getD { hdr := 0, payload := [], crc := 0 }),
     (receive 30 opWRITE (mkFrame (withLink (mkHdr opWRITE 3 1 9 4 1 false) 30 0 0xFF 0 0) (fitBytes 64 [1, 2, 3, 4, 5, 6]))
     ({ State.reset with strings := [(primaryString 1 3, { state := 0 })] })).2, 1, _, _,
     { State.reset with strings := [(primaryString 1 3, { state := 0 })] }, by decide +kernel, by decide +kernel,
     by decide +kernel, by decide +kernel, by decide +kernel, by decide +kernel, rfl, rfl, by decide +kernel,
     by decide +kernel⟩,
   ⟨30, mkFrame (withLink (mkHdr opWRITE 3 1 9 4 1 false) 30 0 0xFF 0 0) (fitBytes 64 [1, 2, 3, 4, 5, 6]), ((receive 30
     opWRITE (mkFrame (withLink (mkHdr opWRITE 3 1 9 4 1 false) 30 0 0xFF 0 0) (fitBytes 64 [1, 2, 3, 4, 5, 6]))
     ({ State.reset with strings := [(primaryString 1 3, { state := 0 })], wins := [{ id := 1, phase := 2, parts := 0x11 }] })).1.getD
     { hdr := 0, payload := [], crc := 0 }), (receive 30 opWRITE (mkFrame (withLink (mkHdr opWRITE 3 1 9 4 1 false) 30 0 0xFF
     0 0) (fitBytes 64 [1, 2, 3, 4, 5, 6]))
     ({ State.reset with strings := [(primaryString 1 3, { state := 0 })], wins := [{ id := 1, phase := 2, parts := 0x11 }] })).2,
     1, _, _, { State.reset with strings := [(primaryString 1 3, { state := 0 })], wins := [{ id := 1, phase := 2, parts := 0x11 }] },
     by decide +kernel, by decide +kernel, by decide +kernel, by decide +kernel, by decide +kernel, by decide +kernel, rfl,
     rfl, by decide +kernel, by decide +kernel⟩,
   ⟨30, mkFrame (withLink (mkHdr opWRITE 3 1 9 4 1 false) 30 0 0xFF 0 0) (fitBytes 64 [1, 2, 3, 4, 5, 6]), ((receive 30
     opWRITE (mkFrame (withLink (mkHdr opWRITE 3 1 9 4 1 false) 30 0 0xFF 0 0) (fitBytes 64 [1, 2, 3, 4, 5, 6]))
     ({ State.reset with strings := [(primaryString 1 3, { state := 0 })], wins := [{ id := 1, phase := 2, parts := 0x11 }] })).1.getD
     { hdr := 0, payload := [], crc := 0 }), (receive 30 opWRITE (mkFrame (withLink (mkHdr opWRITE 3 1 9 4 1 false) 30 0 0xFF
     0 0) (fitBytes 64 [1, 2, 3, 4, 5, 6]))
     ({ State.reset with strings := [(primaryString 1 3, { state := 0 })], wins := [{ id := 1, phase := 2, parts := 0x11 }] })).2,
     1, { State.reset with strings := [(primaryString 1 3, { state := 0 })], wins := [{ id := 1, phase := 2, parts := 0x11 }] },
     by decide +kernel⟩,
   ⟨31, mkFrame (withLink (mkHdr opWRITE 4 1 9 4 1 false) 31 0 0xFF 0 0) (fitBytes 64 [1, 2, 3, 4, 5, 6]), ((receive 31
     opWRITE (mkFrame (withLink (mkHdr opWRITE 4 1 9 4 1 false) 31 0 0xFF 0 0) (fitBytes 64 [1, 2, 3, 4, 5, 6]))
     ({ State.reset with strings := [(primaryString 1 4, { state := 0 })] })).1.getD { hdr := 0, payload := [], crc := 0 }),
     (receive 31 opWRITE (mkFrame (withLink (mkHdr opWRITE 4 1 9 4 1 false) 31 0 0xFF 0 0) (fitBytes 64 [1, 2, 3, 4, 5, 6]))
     ({ State.reset with strings := [(primaryString 1 4, { state := 0 })] })).2, 2,
     { State.reset with strings := [(primaryString 1 4, { state := 0 })] }, by decide +kernel⟩,
   ⟨31, mkFrame (withLink (mkHdr opWRITE 4 1 9 4 1 false) 31 0 0xFF 0 0) (fitBytes 64 [1, 2, 3, 4, 5, 6]), ((receive 31
     opWRITE (mkFrame (withLink (mkHdr opWRITE 4 1 9 4 1 false) 31 0 0xFF 0 0) (fitBytes 64 [1, 2, 3, 4, 5, 6]))
     ({ State.reset with strings := [(primaryString 1 4, { state := 0 })] })).1.getD { hdr := 0, payload := [], crc := 0 }),
     (receive 31 opWRITE (mkFrame (withLink (mkHdr opWRITE 4 1 9 4 1 false) 31 0 0xFF 0 0) (fitBytes 64 [1, 2, 3, 4, 5, 6]))
     ({ State.reset with strings := [(primaryString 1 4, { state := 0 })] })).2, 2,
     { State.reset with strings := [(primaryString 1 4, { state := 0 })] }, by decide +kernel⟩,
   ⟨30, mkFrame (withLink (mkHdr opREADDATA 3 1 9 4 1 false) 30 0 0xFF 0 0) (fitBytes 64 [0, 0, 0, 0, 5, 6]), ((receive 30
     opREADDATA (mkFrame (withLink (mkHdr opREADDATA 3 1 9 4 1 false) 30 0 0xFF 0 0) (fitBytes 64 [0, 0, 0, 0, 5, 6]))
     ({ State.reset with strings := [(primaryString 1 3, { state := 0 })], tags := [{ site := 3, tag := 5, landing := 68, left := 64, purpose := 2, arg := 0 }] })).1.getD
     { hdr := 0, payload := [], crc := 0 }), (receive 30 opREADDATA (mkFrame (withLink (mkHdr opREADDATA 3 1 9 4 1 false) 30
     0 0xFF 0 0) (fitBytes 64 [0, 0, 0, 0, 5, 6]))
     ({ State.reset with strings := [(primaryString 1 3, { state := 0 })], tags := [{ site := 3, tag := 5, landing := 68, left := 64, purpose := 2, arg := 0 }] })).2,
     { site := 3, tag := 5, landing := 68, left := 64, purpose := 2, arg := 0 }, _,
     { State.reset with strings := [(primaryString 1 3, { state := 0 })], tags := [{ site := 3, tag := 5, landing := 68, left := 64, purpose := 2, arg := 0 }] },
     by decide +kernel, by decide +kernel, by decide +kernel, by decide +kernel, rfl, by decide +kernel⟩,
   ⟨30, mkFrame (withLink (mkHdr opREADDATA 3 1 9 4 1 false) 30 0 0xFF 0 0) (fitBytes 64 [0, 0, 0, 0, 5, 6]), ((receive 30
     opREADDATA (mkFrame (withLink (mkHdr opREADDATA 3 1 9 4 1 false) 30 0 0xFF 0 0) (fitBytes 64 [0, 0, 0, 0, 5, 6]))
     ({ State.reset with strings := [(primaryString 1 3, { state := 0 })], tags := [{ site := 3, tag := 5, landing := 68, left := 10, purpose := 2, arg := 0 }] })).1.getD
     { hdr := 0, payload := [], crc := 0 }), (receive 30 opREADDATA (mkFrame (withLink (mkHdr opREADDATA 3 1 9 4 1 false) 30
     0 0xFF 0 0) (fitBytes 64 [0, 0, 0, 0, 5, 6]))
     ({ State.reset with strings := [(primaryString 1 3, { state := 0 })], tags := [{ site := 3, tag := 5, landing := 68, left := 10, purpose := 2, arg := 0 }] })).2,
     { site := 3, tag := 5, landing := 68, left := 10, purpose := 2, arg := 0 }, _, _,
     { State.reset with strings := [(primaryString 1 3, { state := 0 })], tags := [{ site := 3, tag := 5, landing := 68, left := 10, purpose := 2, arg := 0 }] },
     by decide +kernel, by decide +kernel, by decide +kernel, by decide +kernel, rfl, rfl, by decide +kernel⟩,
   ⟨30, mkFrame (withLink (mkHdr opREADDATA 3 1 9 4 1 false) 30 0 0xFF 0 0) (fitBytes 64 [0, 0, 0, 0, 5, 6]), ((receive 30
     opREADDATA (mkFrame (withLink (mkHdr opREADDATA 3 1 9 4 1 false) 30 0 0xFF 0 0) (fitBytes 64 [0, 0, 0, 0, 5, 6]))
     ({ State.reset with strings := [(primaryString 1 3, { state := 0 })], tags := [{ site := 3, tag := 5, landing := 68, left := 10, purpose := 2, arg := 0 }] })).1.getD
     { hdr := 0, payload := [], crc := 0 }), (receive 30 opREADDATA (mkFrame (withLink (mkHdr opREADDATA 3 1 9 4 1 false) 30
     0 0xFF 0 0) (fitBytes 64 [0, 0, 0, 0, 5, 6]))
     ({ State.reset with strings := [(primaryString 1 3, { state := 0 })], tags := [{ site := 3, tag := 5, landing := 68, left := 10, purpose := 2, arg := 0 }] })).2,
     { site := 3, tag := 5, landing := 68, left := 10, purpose := 2, arg := 0 },
     { State.reset with strings := [(primaryString 1 3, { state := 0 })], tags := [{ site := 3, tag := 5, landing := 68, left := 10, purpose := 2, arg := 0 }] },
     by decide +kernel⟩,
   ⟨703, mkFrame (withLink (mkHdr opREADDATA 3 25 9 4 1 false) 703 0 0xFF 0 0) (fitBytes 64 [0, 0, 0, 0, 5, 6]), ((receive
     703 opREADDATA (mkFrame (withLink (mkHdr opREADDATA 3 25 9 4 1 false) 703 0 0xFF 0 0) (fitBytes 64 [0, 0, 0, 0, 5, 6]))
     ({ State.reset with strings := [(primaryString 25 3, { state := 0 })] })).1.getD { hdr := 0, payload := [], crc := 0 }),
     (receive 703 opREADDATA (mkFrame (withLink (mkHdr opREADDATA 3 25 9 4 1 false) 703 0 0xFF 0 0) (fitBytes 64 [0, 0, 0, 0,
     5, 6])) ({ State.reset with strings := [(primaryString 25 3, { state := 0 })] })).2,
     { State.reset with strings := [(primaryString 25 3, { state := 0 })] }, by decide +kernel⟩,
   ⟨30, mkFrame (withLink (mkHdr opRPART 3 1 2 0 1 false) 30 0 0xFF 0 0) (fitBytes 64 [7]), ((receive 30 opRPART (mkFrame
     (withLink (mkHdr opRPART 3 1 2 0 1 false) 30 0 0xFF 0 0) (fitBytes 64 [7]))
     ({ State.reset with strings := [(primaryString 1 3, { state := 0 })] })).1.getD { hdr := 0, payload := [], crc := 0 }),
     (receive 30 opRPART (mkFrame (withLink (mkHdr opRPART 3 1 2 0 1 false) 30 0 0xFF 0 0) (fitBytes 64 [7]))
     ({ State.reset with strings := [(primaryString 1 3, { state := 0 })] })).2, 1,
     { State.reset with strings := [(primaryString 1 3, { state := 0 })] }, by decide +kernel⟩,
   ⟨30, mkFrame (withLink (mkHdr opRPART 3 1 9 0 1 false) 30 0 0xFF 0 0) (fitBytes 64 [1]), ((receive 30 opRPART (mkFrame
     (withLink (mkHdr opRPART 3 1 9 0 1 false) 30 0 0xFF 0 0) (fitBytes 64 [1]))
     ({ State.reset with strings := [(primaryString 1 3, { state := 0 })], dies := [(1, { off := true })] })).1.getD
     { hdr := 0, payload := [], crc := 0 }), (receive 30 opRPART (mkFrame (withLink (mkHdr opRPART 3 1 9 0 1 false) 30 0 0xFF
     0 0) (fitBytes 64 [1])) ({ State.reset with strings := [(primaryString 1 3, { state := 0 })], dies := [(1, { off := true })] })).2,
     1, { State.reset with strings := [(primaryString 1 3, { state := 0 })], dies := [(1, { off := true })] },
     by decide +kernel⟩,
   ⟨52, mkFrame (withLink (mkHdr opRPART 25 1 9 0 1 false) 52 0 0xFF 0 0) (fitBytes 64 [1]), ((receive 52 opRPART (mkFrame
     (withLink (mkHdr opRPART 25 1 9 0 1 false) 52 0 0xFF 0 0) (fitBytes 64 [1]))
     ({ State.reset with strings := [(primaryString 1 25, { state := 0 })] })).1.getD { hdr := 0, payload := [], crc := 0 }),
     (receive 52 opRPART (mkFrame (withLink (mkHdr opRPART 25 1 9 0 1 false) 52 0 0xFF 0 0) (fitBytes 64 [1]))
     ({ State.reset with strings := [(primaryString 1 25, { state := 0 })] })).2,
     { State.reset with strings := [(primaryString 1 25, { state := 0 })] }, by decide +kernel⟩,
   ⟨39, mkFrame (withLink (mkHdr opRPART 12 1 9 0 1 false) 39 0 0xFF 0 0) (fitBytes 64 [1]), ((receive 39 opRPART (mkFrame
     (withLink (mkHdr opRPART 12 1 9 0 1 false) 39 0 0xFF 0 0) (fitBytes 64 [1]))
     ({ State.reset with strings := [(primaryString 1 12, { state := 0 })] })).1.getD { hdr := 0, payload := [], crc := 0 }),
     (receive 39 opRPART (mkFrame (withLink (mkHdr opRPART 12 1 9 0 1 false) 39 0 0xFF 0 0) (fitBytes 64 [1]))
     ({ State.reset with strings := [(primaryString 1 12, { state := 0 })] })).2,
     { State.reset with strings := [(primaryString 1 12, { state := 0 })] }, by decide +kernel⟩,
   ⟨State.reset, by decide +kernel⟩,
   ⟨1, memKey 3 64, 5, { State.reset with wins := [{ id := 1, phase := 2, plan := [{ die := 1, win := 1, addr := memKey 3 64, len := 64, type := 0, mask := 6 }] }] },
     { die := 1, win := 1, addr := memKey 3 64, len := 64, type := 0, mask := 6 }, by decide +kernel⟩,
   ⟨30, mkFrame (withLink (mkHdr opRPART 3 1 1 0 1 false) 30 0 0xFF 0 0) (fitBytes 64 [7]), ((receive 30 opRPART (mkFrame
     (withLink (mkHdr opRPART 3 1 1 0 1 false) 30 0 0xFF 0 0) (fitBytes 64 [7]))
     ({ State.reset with strings := [(primaryString 1 3, { state := 0 })], wins := [{ id := 1, phase := 2, plan := [{ die := 1, win := 1, addr := memKey 3 64, len := 64, type := 0, mask := 6 }] }] })).1.getD
     { hdr := 0, payload := [], crc := 0 }), (receive 30 opRPART (mkFrame (withLink (mkHdr opRPART 3 1 1 0 1 false) 30 0 0xFF
     0 0) (fitBytes 64 [7])) ({ State.reset with strings := [(primaryString 1 3, { state := 0 })], wins := [{ id := 1, phase := 2, plan := [{ die := 1, win := 1, addr := memKey 3 64, len := 64, type := 0, mask := 6 }] }] })).2,
     1, { die := 1, win := 1, addr := memKey 3 64, len := 64, type := 0, mask := 6 },
     { State.reset with strings := [(primaryString 1 3, { state := 0 })], wins := [{ id := 1, phase := 2, plan := [{ die := 1, win := 1, addr := memKey 3 64, len := 64, type := 0, mask := 6 }] }] },
     by decide +kernel⟩,
   ⟨30, mkFrame (withLink (mkHdr opRPART 3 1 2 0 1 false) 30 0 0xFF 0 0) (fitBytes 64 [7]), ((receive 30 opRPART (mkFrame
     (withLink (mkHdr opRPART 3 1 2 0 1 false) 30 0 0xFF 0 0) (fitBytes 64 [7]))
     ({ State.reset with strings := [(primaryString 1 3, { state := 0 })], wins := [{ id := 1, phase := 2, plan := [{ die := 1, win := 1, addr := memKey 3 64, len := 64, type := 0, mask := 6 }] }] })).1.getD
     { hdr := 0, payload := [], crc := 0 }), (receive 30 opRPART (mkFrame (withLink (mkHdr opRPART 3 1 2 0 1 false) 30 0 0xFF
     0 0) (fitBytes 64 [7])) ({ State.reset with strings := [(primaryString 1 3, { state := 0 })], wins := [{ id := 1, phase := 2, plan := [{ die := 1, win := 1, addr := memKey 3 64, len := 64, type := 0, mask := 6 }] }] })).2,
     1, { die := 1, win := 1, addr := memKey 3 64, len := 64, type := 0, mask := 6 },
     { State.reset with strings := [(primaryString 1 3, { state := 0 })], wins := [{ id := 1, phase := 2, plan := [{ die := 1, win := 1, addr := memKey 3 64, len := 64, type := 0, mask := 6 }] }] },
     by decide +kernel⟩⟩

/-- The hypotheses of each clause of OtherFrames can be met. -/
theorem witness_OtherFrames :
    (∃ (n : StringId) (f g : Frame) (u : State) (s : State), (receive n.val opREADREQ f s = (some g, u)) ∧ (hDest g.hdr =
      (stringEnds n.val).2) ∧ (hDest g.hdr < 29) ∧ (29 ≤ (hSrc g.hdr))) ∧
    (∃ (n : StringId) (f g : Frame) (u : State) (r : (Option Bytes × Nat) × State) (v w : State) (b : Bytes) (s : State),
      (receive n.val opREADREQ f s = (some g, u)) ∧ (hDest g.hdr = (stringEnds n.val).2) ∧ (hDest g.hdr < 29) ∧ ((hSrc g.hdr)
      < 29) ∧ (r = readTarget ((stringEnds n.val).2) (hSrc g.hdr) (frameAddr g) (min (leAt g.payload 5 2 + 1) 4096) u) ∧ (v =
      (if r.1.2 = 3 ∨ r.1.2 = 4 then r.2.count Obj.refusedAddresses 1 else r.2)) ∧ (w = (if r.1.2 = 0 then v else sendBack
      ((stringEnds n.val).2) (hSrc g.hdr) (hUnit g.hdr) opSTATUS 63 0 0 (leBytes 1 r.1.2 ++ leBytes 4 (leAt g.payload 7 1))
      v)) ∧ (b = r.1.1.getD [])) ∧
    (∃ (n : StringId) (f g : Frame) (u : State) (s : State), (receive n.val opREADREQ f s = (some g, u)) ∧ (hDest g.hdr =
      (stringEnds n.val).2) ∧ (hDest g.hdr < 29) ∧ ((hSrc g.hdr) < 29) ∧ ((stringEnds n.val).2 = hubSite) ∧ ((frameAddr g) +
      (min (leAt g.payload 5 2 + 1) 4096) ≤ 0x4000000) ∧ ((min (leAt g.payload 5 2 + 1) 4096) ≤ 64)) ∧
    (∃ (n : StringId) (f g : Frame) (u : State) (s : State), (receive n.val opREADREQ f s = (some g, u)) ∧ (hDest g.hdr =
      (stringEnds n.val).2) ∧ (hDest g.hdr < 29) ∧ ((hSrc g.hdr) < 29) ∧ ((stringEnds n.val).2 = hubSite) ∧ (0x4000000 <
      (frameAddr g) + (min (leAt g.payload 5 2 + 1) 4096))) ∧
    (∃ (site d : Nat) (s : State), siteDie site = some d ∧ dieUp s d = false) ∧
    (∃ (site src addr n : Nat) (s : State) (d : Nat), siteDie site = some d ∧ dieUp s d = true ∧ inArea (siteAreas site
      (lockedAreas s site)) addr n = false) ∧
    (∃ (site src addr n : Nat) (s : State) (d : Nat), siteDie site = some d ∧ dieUp s d = true ∧ inArea (siteAreas site
      (lockedAreas s site)) addr n = true ∧ dramHomeBase ≤ addr ∧ ownsPages s d (addr - dramHomeBase) n = false) ∧
    (∃ (site src addr n : Nat) (s : State) (d : Nat), siteDie site = some d ∧ dieUp s d = true ∧ inArea (siteAreas site
      (lockedAreas s site)) addr n = true ∧ dramHomeBase ≤ addr ∧ memFail s site addr n = none) ∧
    (∃ (site src addr n : Nat) (s : State) (d : Nat), siteDie site = some d ∧ dieUp s d = true ∧ inArea (siteAreas site
      (lockedAreas s site)) addr n = true ∧ addr < dramHomeBase ∧ ¬(dieSramBase ≤ addr ∧ addr < dieSramBase + dieSramSize)) ∧
    (∃ (site src addr n : Nat) (s : State) (k : Nat), siteStack site = some k ∧ addr + n ≤ 0x1800000000) ∧
    (∃ (n : StringId) (f g : Frame) (u : State) (s : State), (receive n.val opSTATUS f s = (some g, u)) ∧ (hDest g.hdr =
      (stringEnds n.val).2) ∧ (hDest g.hdr < 29) ∧ (hUnit g.hdr = 1)) ∧
    (∃ (n : StringId) (f g : Frame) (u : State) (v : State) (s : State), (receive n.val opSTATUS f s = (some g, u)) ∧ (hDest
      g.hdr = (stringEnds n.val).2) ∧ (hDest g.hdr < 29) ∧ (hUnit g.hdr ≠ 1) ∧ (v = readEnds ((stringEnds n.val).2) (leAt
      g.payload 1 4) (leAt g.payload 0 1) (if (leAt g.payload 0 1) = 1 then u.count Obj.pathLostTransfers 1 else u))) ∧
    (∃ (n : StringId) (f g : Frame) (u : State) (tg : ReadTag) (s : State), (receive n.val opSTATUS f s = (some g, u)) ∧
      (hDest g.hdr = (stringEnds n.val).2) ∧ (hDest g.hdr < 29) ∧ (hUnit g.hdr ≠ 1) ∧ (u.rmem.ops = []) ∧ (u.tags.find? (fun
      x => x.site == (stringEnds n.val).2 && x.tag == (leAt g.payload 1 4)) = some tg) ∧ (tg.purpose = 2) ∧ ((leAt g.payload
      0 1) = 1)) ∧
    (∃ (n : StringId) (f g : Frame) (u : State) (s : State), (receive n.val opFLAG f s = (some g, u)) ∧ (hDest g.hdr =
      (stringEnds n.val).2) ∧ (hDest g.hdr < 29) ∧ (siteDie ((stringEnds n.val).2) = none ∨ siteDie (hSrc g.hdr) = none)) ∧
    (∃ (n : StringId) (f g : Frame) (u : State) (d src : Nat) (s : State), (receive n.val opFLAG f s = (some g, u)) ∧ (hDest
      g.hdr = (stringEnds n.val).2) ∧ (hDest g.hdr < 29) ∧ (siteDie ((stringEnds n.val).2) = some d) ∧ (siteDie (hSrc g.hdr)
      = some src) ∧ (dieUp u d = false)) ∧
    (∃ (n : StringId) (f g : Frame) (u : State) (d src : Nat) (s : State), (receive n.val opFLAG f s = (some g, u)) ∧ (hDest
      g.hdr = (stringEnds n.val).2) ∧ (hDest g.hdr < 29) ∧ (siteDie ((stringEnds n.val).2) = some d) ∧ (siteDie (hSrc g.hdr)
      = some src) ∧ (dieUp u d = true) ∧ ((u.core (4 * d + (frameAddr g) / 0x4000000 % 4)).state ≠ 1)) ∧
    (∃ (n : StringId) (f g : Frame) (u : State) (d src : Nat) (x : FlagWait) (s : State), (receive n.val opFLAG f s = (some
      g, u)) ∧ (hDest g.hdr = (stringEnds n.val).2) ∧ (hDest g.hdr < 29) ∧ (siteDie ((stringEnds n.val).2) = some d) ∧
      (siteDie (hSrc g.hdr) = some src) ∧ (dieUp u d = true) ∧ (¬((u.core (4 * d + (frameAddr g) / 0x4000000 % 4)).state ≠
      1)) ∧ (x = { core := (4 * d + (frameAddr g) / 0x4000000 % 4), num := leAt g.payload 0 1 % 64, value := BitVec.ofNat 32 (leAt g.payload 1 4), src := none, deps := openSums u d (fun i => coreDie i == src), writes := openWrites u d (hSrc g.hdr) }))
      ∧
    (∃ (n : StringId) (f g : Frame) (u : State) (s : State), (receive n.val opBARRIER f s = (some g, u)) ∧ (hDest g.hdr =
      (stringEnds n.val).2) ∧ (hDest g.hdr < 29) ∧ (siteDie ((stringEnds n.val).2) = none ∨ siteDie (hSrc g.hdr) = none)) ∧
    (∃ (n : StringId) (f g : Frame) (u : State) (d src : Nat) (s : State), (receive n.val opBARRIER f s = (some g, u)) ∧
      (hDest g.hdr = (stringEnds n.val).2) ∧ (hDest g.hdr < 29) ∧ (siteDie ((stringEnds n.val).2) = some d) ∧ (siteDie (hSrc
      g.hdr) = some src) ∧ (dieUp u d = false)) ∧
    (∃ (n : StringId) (f g : Frame) (u : State) (d src : Nat) (s : State), (receive n.val opBARRIER f s = (some g, u)) ∧
      (hDest g.hdr = (stringEnds n.val).2) ∧ (hDest g.hdr < 29) ∧ (siteDie ((stringEnds n.val).2) = some d) ∧ (siteDie (hSrc
      g.hdr) = some src) ∧ (dieUp u d = true) ∧ ((u.core (4 * d + (frameAddr g) / 0x4000000 % 4)).state ≠ 1 ∨ windowIdOf u (4
      * d + (frameAddr g) / 0x4000000 % 4) ≠ (leAt g.payload 1 4))) ∧
    (∃ (n : StringId) (f g : Frame) (u : State) (d src : Nat) (x : FlagWait) (s : State), (receive n.val opBARRIER f s =
      (some g, u)) ∧ (hDest g.hdr = (stringEnds n.val).2) ∧ (hDest g.hdr < 29) ∧ (siteDie ((stringEnds n.val).2) = some d) ∧
      (siteDie (hSrc g.hdr) = some src) ∧ (dieUp u d = true) ∧ (¬((u.core (4 * d + (frameAddr g) / 0x4000000 % 4)).state ≠ 1
      ∨ windowIdOf u (4 * d + (frameAddr g) / 0x4000000 % 4) ≠ (leAt g.payload 1 4))) ∧ (x =
      { core := (4 * d + (frameAddr g) / 0x4000000 % 4), num := leAt g.payload 0 1, value := 0, src := some src, deps := openSums u d (fun i => coreDie i == src), writes := openWrites u d (hSrc g.hdr) }))
      ∧
    (∃ (n : StringId) (f g : Frame) (u : State) (d src : Nat) (s : State), (receive n.val opFLAG f s = (some g, u)) ∧ (hDest
      g.hdr = (stringEnds n.val).2) ∧ (hDest g.hdr < 29) ∧ (siteDie ((stringEnds n.val).2) = some d) ∧ (dieUp u d = true) ∧
      (siteDie (hSrc g.hdr) = some src) ∧ ((u.core (4 * d + (frameAddr g) / 0x4000000 % 4)).state = 1) ∧ (openSums u d (fun i
      => coreDie i == src) = []) ∧ (openWrites u d (hSrc g.hdr) = [])) ∧
    (∃ (n : StringId) (f g : Frame) (u : State) (d src j : Nat) (s : State), (receive n.val opBARRIER f s = (some g, u)) ∧
      (hDest g.hdr = (stringEnds n.val).2) ∧ (hDest g.hdr < 29) ∧ (siteDie ((stringEnds n.val).2) = some d) ∧ (dieUp u d =
      true) ∧ (siteDie (hSrc g.hdr) = some src) ∧ ((u.core (4 * d + (frameAddr g) / 0x4000000 % 4)).state = 1) ∧ (openSums u
      d (fun i => coreDie i == src) = []) ∧ (openWrites u d (hSrc g.hdr) = []) ∧ (windowIdOf u (4 * d + (frameAddr g) /
      0x4000000 % 4) = (leAt g.payload 1 4)) ∧ ((List.range 4).find? (fun j => ((((u.core (4 * d + (frameAddr g) / 0x4000000
      % 4)).win.bind u.win).map (fun (w : Win) => w.barriers.getD (leAt g.payload 0 1) 0)).getD 0).getLsbD (4 * src + j) &&
      !(tget 0 (leAt g.payload 0 1) (u.core (4 * d + (frameAddr g) / 0x4000000 % 4)).arrivals).getLsbD (4 * src + j)) = some
      j)) ∧
    (∃ (n : StringId) (f g : Frame) (u : State) (d : Nat) (s : State), (receive n.val opLAUNCH f s = (some g, u)) ∧ (hDest
      g.hdr = (stringEnds n.val).2) ∧ (hDest g.hdr < 29) ∧ (siteDie ((stringEnds n.val).2) = some d) ∧ (dieUp u d = true)) ∧
    (∃ (n : StringId) (f g : Frame) (u : State) (d : Nat) (s : State), (receive n.val opLAUNCH f s = (some g, u)) ∧ (hDest
      g.hdr = (stringEnds n.val).2) ∧ (hDest g.hdr < 29) ∧ (siteDie ((stringEnds n.val).2) = some d) ∧ (dieUp u d = false)) ∧
    (∃ (n : StringId) (f g : Frame) (u : State) (s : State), (receive n.val opLAUNCH f s = (some g, u)) ∧ (hDest g.hdr =
      (stringEnds n.val).2) ∧ (hDest g.hdr < 29) ∧ (siteDie ((stringEnds n.val).2) = none)) :=
  ⟨⟨39, mkFrame (withLink (mkHdr opREADREQ 12 30 63 4 1 false) 39 0 0xFF 0 0) (fitBytes 64 [0, 0, 0, 0, 0, 9]), ((receive 39
    opREADREQ (mkFrame (withLink (mkHdr opREADREQ 12 30 63 4 1 false) 39 0 0xFF 0 0) (fitBytes 64 [0, 0, 0, 0, 0, 9]))
    ({ State.reset with strings := [(primaryString 1 12, { state := 0 })] })).1.getD { hdr := 0, payload := [], crc := 0 }),
    (receive 39 opREADREQ (mkFrame (withLink (mkHdr opREADREQ 12 30 63 4 1 false) 39 0 0xFF 0 0) (fitBytes 64 [0, 0, 0, 0, 0,
    9])) ({ State.reset with strings := [(primaryString 1 12, { state := 0 })] })).2,
    { State.reset with strings := [(primaryString 1 12, { state := 0 })] }, by decide +kernel⟩,
   ⟨39, mkFrame (withLink (mkHdr opREADREQ 12 1 63 4 1 false) 39 0 0xFF 0 0) (fitBytes 64 [0, 0, 0, 0, 0, 9]), ((receive 39
     opREADREQ (mkFrame (withLink (mkHdr opREADREQ 12 1 63 4 1 false) 39 0 0xFF 0 0) (fitBytes 64 [0, 0, 0, 0, 0, 9]))
     ({ State.reset with strings := [(primaryString 1 12, { state := 0 })] })).1.getD { hdr := 0, payload := [], crc := 0 }),
     (receive 39 opREADREQ (mkFrame (withLink (mkHdr opREADREQ 12 1 63 4 1 false) 39 0 0xFF 0 0) (fitBytes 64 [0, 0, 0, 0, 0,
     9])) ({ State.reset with strings := [(primaryString 1 12, { state := 0 })] })).2, _, _, _, _,
     { State.reset with strings := [(primaryString 1 12, { state := 0 })] }, by decide +kernel, by decide +kernel,
     by decide +kernel, by decide +kernel, rfl, rfl, rfl, rfl⟩,
   ⟨39, mkFrame (withLink (mkHdr opREADREQ 12 1 63 4 1 false) 39 0 0xFF 0 0) (fitBytes 64 [0, 0, 0, 0, 0, 9]), ((receive 39
     opREADREQ (mkFrame (withLink (mkHdr opREADREQ 12 1 63 4 1 false) 39 0 0xFF 0 0) (fitBytes 64 [0, 0, 0, 0, 0, 9]))
     ({ State.reset with strings := [(primaryString 1 12, { state := 0 })] })).1.getD { hdr := 0, payload := [], crc := 0 }),
     (receive 39 opREADREQ (mkFrame (withLink (mkHdr opREADREQ 12 1 63 4 1 false) 39 0 0xFF 0 0) (fitBytes 64 [0, 0, 0, 0, 0,
     9])) ({ State.reset with strings := [(primaryString 1 12, { state := 0 })] })).2,
     { State.reset with strings := [(primaryString 1 12, { state := 0 })] }, by decide +kernel⟩,
   ⟨39, mkFrame (withLink (mkHdr opREADREQ 12 1 63 4 (2 ^ 30) false) 39 0 0xFF 0 0) (fitBytes 64 [0, 0, 0, 0, 0, 9]),
     ((receive 39 opREADREQ (mkFrame (withLink (mkHdr opREADREQ 12 1 63 4 (2 ^ 30) false) 39 0 0xFF 0 0) (fitBytes 64 [0, 0,
     0, 0, 0, 9])) ({ State.reset with strings := [(primaryString 1 12, { state := 0 })] })).1.getD
     { hdr := 0, payload := [], crc := 0 }), (receive 39 opREADREQ (mkFrame (withLink (mkHdr opREADREQ 12 1 63 4 (2 ^ 30)
     false) 39 0 0xFF 0 0) (fitBytes 64 [0, 0, 0, 0, 0, 9]))
     ({ State.reset with strings := [(primaryString 1 12, { state := 0 })] })).2,
     { State.reset with strings := [(primaryString 1 12, { state := 0 })] }, by decide +kernel⟩,
   ⟨3, 1, { State.reset with dies := [(1, { off := true })] }, by decide +kernel⟩,
   ⟨3, 0, 2 ^ 45, 4, State.reset, 1, by decide +kernel⟩,
   ⟨3, 0, dramHomeBase, 4, State.reset, 1, by decide +kernel⟩,
   ⟨3, 0, dramHomeBase, 4, { State.reset with dram := { owner := [(0, 1)] } }, 1, by decide +kernel⟩,
   ⟨3, 0, 0, 4, State.reset, 1, by decide +kernel⟩,
   ⟨4, 0, 0, 4, State.reset, 2, by decide +kernel⟩,
   ⟨30, mkFrame (withLink (mkHdr opSTATUS 3 1 63 0 1 false) 30 0 0xFF 0 0) (fitBytes 64 [1, 5]), ((receive 30 opSTATUS
     (mkFrame (withLink (mkHdr opSTATUS 3 1 63 0 1 false) 30 0 0xFF 0 0) (fitBytes 64 [1, 5]))
     ({ State.reset with strings := [(primaryString 1 3, { state := 0 })] })).1.getD { hdr := 0, payload := [], crc := 0 }),
     (receive 30 opSTATUS (mkFrame (withLink (mkHdr opSTATUS 3 1 63 0 1 false) 30 0 0xFF 0 0) (fitBytes 64 [1, 5]))
     ({ State.reset with strings := [(primaryString 1 3, { state := 0 })] })).2,
     { State.reset with strings := [(primaryString 1 3, { state := 0 })] }, by decide +kernel⟩,
   ⟨30, mkFrame (withLink (mkHdr opSTATUS 3 1 63 0 0 false) 30 0 0xFF 0 0) (fitBytes 64 [1, 5]), ((receive 30 opSTATUS
     (mkFrame (withLink (mkHdr opSTATUS 3 1 63 0 0 false) 30 0 0xFF 0 0) (fitBytes 64 [1, 5]))
     ({ State.reset with strings := [(primaryString 1 3, { state := 0 })], tags := [{ site := 3, tag := 5, landing := 68, left := 8, purpose := 2, arg := 0 }] })).1.getD
     { hdr := 0, payload := [], crc := 0 }), (receive 30 opSTATUS (mkFrame (withLink (mkHdr opSTATUS 3 1 63 0 0 false) 30 0
     0xFF 0 0) (fitBytes 64 [1, 5])) ({ State.reset with strings := [(primaryString 1 3, { state := 0 })], tags := [{ site := 3, tag := 5, landing := 68, left := 8, purpose := 2, arg := 0 }] })).2,
     _, { State.reset with strings := [(primaryString 1 3, { state := 0 })], tags := [{ site := 3, tag := 5, landing := 68, left := 8, purpose := 2, arg := 0 }] },
     by decide +kernel, by decide +kernel, by decide +kernel, by decide +kernel, rfl⟩,
   ⟨30, mkFrame (withLink (mkHdr opSTATUS 3 1 63 0 0 false) 30 0 0xFF 0 0) (fitBytes 64 [1, 5]), ((receive 30 opSTATUS
     (mkFrame (withLink (mkHdr opSTATUS 3 1 63 0 0 false) 30 0 0xFF 0 0) (fitBytes 64 [1, 5]))
     ({ State.reset with strings := [(primaryString 1 3, { state := 0 })], tags := [{ site := 3, tag := 5, landing := 68, left := 8, purpose := 2, arg := 0 }] })).1.getD
     { hdr := 0, payload := [], crc := 0 }), (receive 30 opSTATUS (mkFrame (withLink (mkHdr opSTATUS 3 1 63 0 0 false) 30 0
     0xFF 0 0) (fitBytes 64 [1, 5])) ({ State.reset with strings := [(primaryString 1 3, { state := 0 })], tags := [{ site := 3, tag := 5, landing := 68, left := 8, purpose := 2, arg := 0 }] })).2,
     { site := 3, tag := 5, landing := 68, left := 8, purpose := 2, arg := 0 },
     { State.reset with strings := [(primaryString 1 3, { state := 0 })], tags := [{ site := 3, tag := 5, landing := 68, left := 8, purpose := 2, arg := 0 }] },
     by decide +kernel⟩,
   ⟨703, mkFrame (withLink (mkHdr opFLAG 3 25 63 0 0 false) 703 0 0xFF 0 0) (fitBytes 64 [1]), ((receive 703 opFLAG (mkFrame
     (withLink (mkHdr opFLAG 3 25 63 0 0 false) 703 0 0xFF 0 0) (fitBytes 64 [1]))
     ({ State.reset with strings := [(primaryString 25 3, { state := 0 })] })).1.getD { hdr := 0, payload := [], crc := 0 }),
     (receive 703 opFLAG (mkFrame (withLink (mkHdr opFLAG 3 25 63 0 0 false) 703 0 0xFF 0 0) (fitBytes 64 [1]))
     ({ State.reset with strings := [(primaryString 25 3, { state := 0 })] })).2,
     { State.reset with strings := [(primaryString 25 3, { state := 0 })] }, by decide +kernel⟩,
   ⟨30, mkFrame (withLink (mkHdr opFLAG 3 1 63 0 0 false) 30 0 0xFF 0 0) (fitBytes 64 [1]), ((receive 30 opFLAG (mkFrame
     (withLink (mkHdr opFLAG 3 1 63 0 0 false) 30 0 0xFF 0 0) (fitBytes 64 [1]))
     ({ State.reset with strings := [(primaryString 1 3, { state := 0 })], dies := [(1, { off := true })] })).1.getD
     { hdr := 0, payload := [], crc := 0 }), (receive 30 opFLAG (mkFrame (withLink (mkHdr opFLAG 3 1 63 0 0 false) 30 0 0xFF
     0 0) (fitBytes 64 [1])) ({ State.reset with strings := [(primaryString 1 3, { state := 0 })], dies := [(1, { off := true })] })).2,
     1, 0, { State.reset with strings := [(primaryString 1 3, { state := 0 })], dies := [(1, { off := true })] },
     by decide +kernel⟩,
   ⟨30, mkFrame (withLink (mkHdr opFLAG 3 1 63 0 0 false) 30 0 0xFF 0 0) (fitBytes 64 [1]), ((receive 30 opFLAG (mkFrame
     (withLink (mkHdr opFLAG 3 1 63 0 0 false) 30 0 0xFF 0 0) (fitBytes 64 [1]))
     ({ State.reset with strings := [(primaryString 1 3, { state := 0 })] })).1.getD { hdr := 0, payload := [], crc := 0 }),
     (receive 30 opFLAG (mkFrame (withLink (mkHdr opFLAG 3 1 63 0 0 false) 30 0 0xFF 0 0) (fitBytes 64 [1]))
     ({ State.reset with strings := [(primaryString 1 3, { state := 0 })] })).2, 1, 0,
     { State.reset with strings := [(primaryString 1 3, { state := 0 })] }, by decide +kernel⟩,
   ⟨30, mkFrame (withLink (mkHdr opFLAG 3 1 63 0 0 false) 30 0 0xFF 0 0) (fitBytes 64 [2, 0]), ((receive 30 opFLAG (mkFrame
     (withLink (mkHdr opFLAG 3 1 63 0 0 false) 30 0 0xFF 0 0) (fitBytes 64 [2, 0]))
     ({ State.reset with strings := [(primaryString 1 3, { state := 0 })], cores := [(4, { state := 1, win := some 1 })], wins := [{ id := 1, barriers := [0, 0, 0xF] }] })).1.getD
     { hdr := 0, payload := [], crc := 0 }), (receive 30 opFLAG (mkFrame (withLink (mkHdr opFLAG 3 1 63 0 0 false) 30 0 0xFF
     0 0) (fitBytes 64 [2, 0])) ({ State.reset with strings := [(primaryString 1 3, { state := 0 })], cores := [(4, { state := 1, win := some 1 })], wins := [{ id := 1, barriers := [0, 0, 0xF] }] })).2,
     1, 0, _, { State.reset with strings := [(primaryString 1 3, { state := 0 })], cores := [(4, { state := 1, win := some 1 })], wins := [{ id := 1, barriers := [0, 0, 0xF] }] },
     by decide +kernel, by decide +kernel, by decide +kernel, by decide +kernel, by decide +kernel, by decide +kernel,
     by decide +kernel, rfl⟩,
   ⟨703, mkFrame (withLink (mkHdr opBARRIER 3 25 63 0 0 false) 703 0 0xFF 0 0) (fitBytes 64 [1]), ((receive 703 opBARRIER
     (mkFrame (withLink (mkHdr opBARRIER 3 25 63 0 0 false) 703 0 0xFF 0 0) (fitBytes 64 [1]))
     ({ State.reset with strings := [(primaryString 25 3, { state := 0 })] })).1.getD { hdr := 0, payload := [], crc := 0 }),
     (receive 703 opBARRIER (mkFrame (withLink (mkHdr opBARRIER 3 25 63 0 0 false) 703 0 0xFF 0 0) (fitBytes 64 [1]))
     ({ State.reset with strings := [(primaryString 25 3, { state := 0 })] })).2,
     { State.reset with strings := [(primaryString 25 3, { state := 0 })] }, by decide +kernel⟩,
   ⟨30, mkFrame (withLink (mkHdr opBARRIER 3 1 63 0 0 false) 30 0 0xFF 0 0) (fitBytes 64 [1]), ((receive 30 opBARRIER
     (mkFrame (withLink (mkHdr opBARRIER 3 1 63 0 0 false) 30 0 0xFF 0 0) (fitBytes 64 [1]))
     ({ State.reset with strings := [(primaryString 1 3, { state := 0 })], dies := [(1, { off := true })] })).1.getD
     { hdr := 0, payload := [], crc := 0 }), (receive 30 opBARRIER (mkFrame (withLink (mkHdr opBARRIER 3 1 63 0 0 false) 30 0
     0xFF 0 0) (fitBytes 64 [1])) ({ State.reset with strings := [(primaryString 1 3, { state := 0 })], dies := [(1, { off := true })] })).2,
     1, 0, { State.reset with strings := [(primaryString 1 3, { state := 0 })], dies := [(1, { off := true })] },
     by decide +kernel⟩,
   ⟨30, mkFrame (withLink (mkHdr opBARRIER 3 1 63 0 0 false) 30 0 0xFF 0 0) (fitBytes 64 [1]), ((receive 30 opBARRIER
     (mkFrame (withLink (mkHdr opBARRIER 3 1 63 0 0 false) 30 0 0xFF 0 0) (fitBytes 64 [1]))
     ({ State.reset with strings := [(primaryString 1 3, { state := 0 })] })).1.getD { hdr := 0, payload := [], crc := 0 }),
     (receive 30 opBARRIER (mkFrame (withLink (mkHdr opBARRIER 3 1 63 0 0 false) 30 0 0xFF 0 0) (fitBytes 64 [1]))
     ({ State.reset with strings := [(primaryString 1 3, { state := 0 })] })).2, 1, 0,
     { State.reset with strings := [(primaryString 1 3, { state := 0 })] }, by decide +kernel⟩,
   ⟨30, mkFrame (withLink (mkHdr opBARRIER 3 1 63 0 0 false) 30 0 0xFF 0 0) (fitBytes 64 [2, 0]), ((receive 30 opBARRIER
     (mkFrame (withLink (mkHdr opBARRIER 3 1 63 0 0 false) 30 0 0xFF 0 0) (fitBytes 64 [2, 0]))
     ({ State.reset with strings := [(primaryString 1 3, { state := 0 })], cores := [(4, { state := 1, win := some 1 })], wins := [{ id := 1, barriers := [0, 0, 0xF] }] })).1.getD
     { hdr := 0, payload := [], crc := 0 }), (receive 30 opBARRIER (mkFrame (withLink (mkHdr opBARRIER 3 1 63 0 0 false) 30 0
     0xFF 0 0) (fitBytes 64 [2, 0])) ({ State.reset with strings := [(primaryString 1 3, { state := 0 })], cores := [(4, { state := 1, win := some 1 })], wins := [{ id := 1, barriers := [0, 0, 0xF] }] })).2,
     1, 0, _, { State.reset with strings := [(primaryString 1 3, { state := 0 })], cores := [(4, { state := 1, win := some 1 })], wins := [{ id := 1, barriers := [0, 0, 0xF] }] },
     by decide +kernel, by decide +kernel, by decide +kernel, by decide +kernel, by decide +kernel, by decide +kernel,
     by decide +kernel, rfl⟩,
   ⟨30, mkFrame (withLink (mkHdr opFLAG 3 1 63 0 0 false) 30 0 0xFF 0 0) (fitBytes 64 [3, 9]), ((receive 30 opFLAG (mkFrame
     (withLink (mkHdr opFLAG 3 1 63 0 0 false) 30 0 0xFF 0 0) (fitBytes 64 [3, 9]))
     ({ State.reset with strings := [(primaryString 1 3, { state := 0 })], cores := [(4, { state := 1, win := some 1 })], wins := [{ id := 1, barriers := [0, 0, 0xF] }] })).1.getD
     { hdr := 0, payload := [], crc := 0 }), (receive 30 opFLAG (mkFrame (withLink (mkHdr opFLAG 3 1 63 0 0 false) 30 0 0xFF
     0 0) (fitBytes 64 [3, 9])) ({ State.reset with strings := [(primaryString 1 3, { state := 0 })], cores := [(4, { state := 1, win := some 1 })], wins := [{ id := 1, barriers := [0, 0, 0xF] }] })).2,
     1, 0, { State.reset with strings := [(primaryString 1 3, { state := 0 })], cores := [(4, { state := 1, win := some 1 })], wins := [{ id := 1, barriers := [0, 0, 0xF] }] },
     by decide +kernel⟩,
   ⟨30, mkFrame (withLink (mkHdr opBARRIER 3 1 63 0 0 false) 30 0 0xFF 0 0) (fitBytes 64 [2, 0]), ((receive 30 opBARRIER
     (mkFrame (withLink (mkHdr opBARRIER 3 1 63 0 0 false) 30 0 0xFF 0 0) (fitBytes 64 [2, 0]))
     ({ State.reset with strings := [(primaryString 1 3, { state := 0 })], cores := [(4, { state := 1, win := some 1 })], wins := [{ id := 1, barriers := [0, 0, 0xF] }] })).1.getD
     { hdr := 0, payload := [], crc := 0 }), (receive 30 opBARRIER (mkFrame (withLink (mkHdr opBARRIER 3 1 63 0 0 false) 30 0
     0xFF 0 0) (fitBytes 64 [2, 0])) ({ State.reset with strings := [(primaryString 1 3, { state := 0 })], cores := [(4, { state := 1, win := some 1 })], wins := [{ id := 1, barriers := [0, 0, 0xF] }] })).2,
     1, 0, 0, { State.reset with strings := [(primaryString 1 3, { state := 0 })], cores := [(4, { state := 1, win := some 1 })], wins := [{ id := 1, barriers := [0, 0, 0xF] }] },
     by decide +kernel⟩,
   ⟨30, mkFrame (withLink (mkHdr opLAUNCH 3 1 63 0 0 false) 30 0 0xFF 0 0) (fitBytes 64 [2, 0]), ((receive 30 opLAUNCH
     (mkFrame (withLink (mkHdr opLAUNCH 3 1 63 0 0 false) 30 0 0xFF 0 0) (fitBytes 64 [2, 0]))
     ({ State.reset with strings := [(primaryString 1 3, { state := 0 })] })).1.getD { hdr := 0, payload := [], crc := 0 }),
     (receive 30 opLAUNCH (mkFrame (withLink (mkHdr opLAUNCH 3 1 63 0 0 false) 30 0 0xFF 0 0) (fitBytes 64 [2, 0]))
     ({ State.reset with strings := [(primaryString 1 3, { state := 0 })] })).2, 1,
     { State.reset with strings := [(primaryString 1 3, { state := 0 })] }, by decide +kernel⟩,
   ⟨30, mkFrame (withLink (mkHdr opLAUNCH 3 1 63 0 0 false) 30 0 0xFF 0 0) (fitBytes 64 [2, 0]), ((receive 30 opLAUNCH
     (mkFrame (withLink (mkHdr opLAUNCH 3 1 63 0 0 false) 30 0 0xFF 0 0) (fitBytes 64 [2, 0]))
     ({ State.reset with strings := [(primaryString 1 3, { state := 0 })], dies := [(1, { off := true })] })).1.getD
     { hdr := 0, payload := [], crc := 0 }), (receive 30 opLAUNCH (mkFrame (withLink (mkHdr opLAUNCH 3 1 63 0 0 false) 30 0
     0xFF 0 0) (fitBytes 64 [2, 0])) ({ State.reset with strings := [(primaryString 1 3, { state := 0 })], dies := [(1, { off := true })] })).2,
     1, { State.reset with strings := [(primaryString 1 3, { state := 0 })], dies := [(1, { off := true })] },
     by decide +kernel⟩,
   ⟨39, mkFrame (withLink (mkHdr opLAUNCH 12 1 63 0 0 false) 39 0 0xFF 0 0) (fitBytes 64 [2, 0]), ((receive 39 opLAUNCH
     (mkFrame (withLink (mkHdr opLAUNCH 12 1 63 0 0 false) 39 0 0xFF 0 0) (fitBytes 64 [2, 0]))
     ({ State.reset with strings := [(primaryString 1 12, { state := 0 })] })).1.getD { hdr := 0, payload := [], crc := 0 }),
     (receive 39 opLAUNCH (mkFrame (withLink (mkHdr opLAUNCH 12 1 63 0 0 false) 39 0 0xFF 0 0) (fitBytes 64 [2, 0]))
     ({ State.reset with strings := [(primaryString 1 12, { state := 0 })] })).2,
     { State.reset with strings := [(primaryString 1 12, { state := 0 })] }, by decide +kernel⟩⟩

/-- The hypotheses of each clause of ServingSessions can be met. -/
theorem witness_ServingSessions :
    (∃ (d : Dgram) (s : State), (servePortUp s d.port.val = false)) ∧
    (∃ (d : Dgram) (s : State), (servePortUp s d.port.val = false)) ∧
    (∃ (d : Dgram) (s : State), (servePortUp s d.port.val = false)) ∧
    (∃ (d : Dgram) (s : State), (servePortUp s d.port.val = false)) ∧
    (∃ (d : Dgram) (s : State), (servePortUp s d.port.val = false)) ∧
    (∃ (d : Dgram) (s : State), (servePortUp s d.port.val = false)) ∧
    (∃ (d : Dgram) (s : State), (servePortUp s d.port.val = false)) ∧
    (∃ (d : Dgram) (lim : Nat × Nat × Nat) (u : State) (s : State), (servePortUp s d.port.val = true) ∧ (datagramKnown s d =
      true) ∧ (s.objB (tenantKeyOf Obj.tenantKey d.tenant.toNat) = d.key) ∧ (openCode s d = 0) ∧ (lim = acceptLimits s
      d.tenant.toNat) ∧ (u = { s with serve := { s.serve with nextSess := s.serve.nextSess + 1, sessions := s.serve.sessions ++ [{ num := s.serve.nextSess, tenant := d.tenant.toNat, port := d.port.val, key := d.key }] } }))
      ∧
    (∃ (d : Dgram) (s : State), (servePortUp s d.port.val = true) ∧ (datagramKnown s d = true) ∧ (s.objB (tenantKeyOf
      Obj.tenantKey d.tenant.toNat) = d.key) ∧ (openCode s d = 0) ∧ (sessOf s s.serve.nextSess = none) ∧ (0 < s.obj
      Obj.serveWindowRecords)) ∧
    (∃ (d : Dgram) (s : State), (servePortUp s d.port.val = true) ∧ (datagramKnown s d = true) ∧ (s.objB (tenantKeyOf
      Obj.tenantKey d.tenant.toNat) = d.key) ∧ (openCode s d ≠ 0)) ∧
    (∃ (d : Dgram) (s : State), (servePortUp s d.port.val = true) ∧ (datagramKnown s d = false ∨ ¬(s.objB (tenantKeyOf
      Obj.tenantKey d.tenant.toNat) = d.key))) ∧
    (∃ (d : Dgram) (s : State), (servePortUp s d.port.val = true) ∧ (datagramSession s d = none)) ∧
    (∃ (d : Dgram) (s : State), (servePortUp s d.port.val = true) ∧ (datagramSession s d = none)) ∧
    (∃ (d : Dgram) (s : State), (servePortUp s d.port.val = true) ∧ (datagramSession s d = none)) ∧
    (∃ (d : Dgram) (s : State), (servePortUp s d.port.val = true) ∧ (datagramSession s d = none)) ∧
    (∃ (d : Dgram) (s : State), (servePortUp s d.port.val = true) ∧ (datagramSession s d = none)) ∧
    (∃ (d : Dgram) (s : State), (servePortUp s d.port.val = true) ∧ (datagramSession s d = none)) ∧
    (∃ (d : Dgram) (q : Sess) (s : State), (servePortUp s d.port.val = true) ∧ (datagramSession s d = some q) ∧ (d.seq.toNat
      % 2 ^ 63 ≠ q.rxNext)) ∧
    (∃ (d : Dgram) (q : Sess) (s : State), (servePortUp s d.port.val = true) ∧ (datagramSession s d = some q) ∧ (d.seq.toNat
      % 2 ^ 63 ≠ q.rxNext)) ∧
    (∃ (d : Dgram) (q : Sess) (s : State), (servePortUp s d.port.val = true) ∧ (datagramSession s d = some q) ∧ (d.seq.toNat
      % 2 ^ 63 ≠ q.rxNext)) ∧
    (∃ (d : Dgram) (q : Sess) (s : State), (servePortUp s d.port.val = true) ∧ (datagramSession s d = some q) ∧ (d.seq.toNat
      % 2 ^ 63 ≠ q.rxNext)) ∧
    (∃ (d : Dgram) (q : Sess) (s : State), (servePortUp s d.port.val = true) ∧ (datagramSession s d = some q) ∧ (d.seq.toNat
      % 2 ^ 63 ≠ q.rxNext)) ∧
    (∃ (d : Dgram) (q x : Sess) (u : State) (s : State), (servePortUp s d.port.val = true) ∧ (datagramSession s d = some q) ∧
      (d.seq.toNat % 2 ^ 63 = q.rxNext) ∧ (u = takeAck q.num d.ack.toNat (modSess q.num (fun x =>
      { x with rxNext := x.rxNext + 1 }) (modSess q.num (fun x => { x with due := true }) s))) ∧ (sessOf u q.num = some x)) ∧
    (∃ (d : Dgram) (q : Sess) (s : State), (servePortUp s d.port.val = true) ∧ (datagramSession s d = some q) ∧ (d.seq.toNat
      % 2 ^ 63 = q.rxNext) ∧ (q.unacked = [])) ∧
    (∃ (d : Dgram) (q x : Sess) (u : State) (s : State), (servePortUp s d.port.val = true) ∧ (datagramSession s d = some q) ∧
      (d.seq.toNat % 2 ^ 63 = q.rxNext) ∧ (u = takeAck q.num d.ack.toNat (modSess q.num (fun x =>
      { x with rxNext := x.rxNext + 1 }) (modSess q.num (fun x => { x with due := true }) s))) ∧ (sessOf u q.num = some x)) ∧
    (∃ (d : Dgram) (q : Sess) (s : State), (servePortUp s d.port.val = true) ∧ (datagramSession s d = some q) ∧ (d.seq.toNat
      % 2 ^ 63 = q.rxNext) ∧ (q.unacked = []) ∧ (s.serve.asm.filter (fun a => a.session == q.num) = []) ∧
      (s.serve.ctxs.filter (fun c => c.session == q.num) = [])) ∧
    (∃ (d : Dgram) (q : Sess) (s : State), (servePortUp s d.port.val = true) ∧ (datagramSession s d = some q) ∧
      (d.seq.toNat.testBit 62 = true ∧ (∀ h ∈ q.ackRx, h < d.seq.toNat % 2 ^ 62))) ∧
    (∃ (d : Dgram) (q : Sess) (s : State), (servePortUp s d.port.val = true) ∧ (datagramSession s d = some q) ∧
      (¬(d.seq.toNat.testBit 62 = true ∧ (∀ h ∈ q.ackRx, h < d.seq.toNat % 2 ^ 62)))) ∧
    (∃ (d : Dgram) (q : Sess) (n : Nat) (s : State), (servePortUp s d.port.val = true) ∧ (datagramSession s d = some q) ∧
      (d.seq.toNat = 2 ^ 62 + n) ∧ (n < 2 ^ 62) ∧ (∀ h ∈ q.ackRx, h < n) ∧ (q.unacked.any (fun r => decide (r.seq ≤
      d.ack.toNat)) = true) ∧ (d.ack.toNat < q.txNext) ∧ (q.closing = false)) ∧
    (∃ (session : W32) (s : State), (∀ q ∈ sessOf s session, ∀ b ∈ q.unacked.head?.bind (fun r => r.sent), s.beat < b + 1000
      * s.obj Obj.serveResendUs)) ∧
    (∃ (session : W32) (q : Sess) (b : Nat) (u : State) (s : State), (sessOf s session = some q) ∧ (q.unacked.head?.bind (fun
      r => r.sent) = some b) ∧ (b + 1000 * s.obj Obj.serveResendUs ≤ s.beat) ∧ (u = modSess session (fun x =>
      { x with unacked := x.unacked.map (fun r => if r.sent.isSome then { r with sent := some s.beat } else r) }) s)) ∧
    (∃ (session : W32) (q : Sess) (b : Nat) (s : State), (sessOf s session = some q) ∧ (q.unacked.head?.bind (fun r =>
      r.sent) = some b) ∧ (b + 1000 * s.obj Obj.serveResendUs ≤ s.beat)) ∧
    (∃ (session : W32) (s : State), (∀ q ∈ sessOf s session, q.due = false)) ∧
    (∃ (session : W32) (q : Sess) (s : State), (sessOf s session = some q) ∧ (q.due = true)) ∧
    (∃ (session : W32) (q : Sess) (s : State), (sessOf s session = some q) ∧ (q.due = true) ∧ (q.closing = false) ∧
      (servePortUp s q.port = true)) ∧
    (∃ (session : W32) (s : State), (∀ q ∈ sessOf s session, q.unacked = [] ∨ s.beat < q.progress + 1000000 * s.obj
      Obj.serveSessionTimeoutMs)) ∧
    (∃ (session : W32) (q : Sess) (u : State) (s : State), (sessOf s session = some q) ∧ (q.unacked ≠ []) ∧ (q.progress +
      1000000 * s.obj Obj.serveSessionTimeoutMs ≤ s.beat) ∧ (u = cancelSession session s)) ∧
    (∃ (session : W32) (q : Sess) (s : State), (sessOf s session = some q) ∧ (q.unacked ≠ []) ∧ (q.progress + 1000000 * s.obj
      Obj.serveSessionTimeoutMs ≤ s.beat) ∧ (s.serve.asm.filter (fun a => a.session == session) = []) ∧ (s.serve.ctxs.filter
      (fun c => c.session == session) = [])) ∧
    (∃ (port : Fin 2) (s : State), (servePortUp s port.val = true)) ∧
    (∃ (port : Fin 2) (s : State), (servePortUp s port.val = false)) ∧
    (∃ (port : Fin 2) (data : Bytes) (s : State), (servePortUp s port.val = true)) ∧
    (∃ (port : Fin 2) (data : Bytes) (s : State), (servePortUp s port.val = true) ∧ ((data.drop 4).take 16 = serveAddress s
      port.val)) ∧
    (∃ (port : Fin 2) (type : Byte) (data : Bytes) (s : State), (servePortUp s port.val = false ∨ (type ≠ 128 ∧ ¬(type = 135
      ∧ (data.drop 4).take 16 = serveAddress s port.val)))) ∧
    (∃ (num : W32) (q : Sess) (s : State), sessOf s num = some q) ∧
    (∃ (num : W32) (q : Sess) (s : State), sessOf s num = some q ∧ q.unacked.length < s.obj Obj.serveWindowRecords) :=
  ⟨⟨{ port := 0, version := 1, kind := 3, tenant := 0, session := 1, seq := 0, ack := 0, key := [7], body := [] },
    State.reset, by decide +kernel⟩,
   ⟨{ port := 0, version := 1, kind := 3, tenant := 0, session := 1, seq := 0, ack := 0, key := [7], body := [] },
     State.reset, by decide +kernel⟩,
   ⟨{ port := 0, version := 1, kind := 3, tenant := 0, session := 1, seq := 0, ack := 0, key := [7], body := [] },
     State.reset, by decide +kernel⟩,
   ⟨{ port := 0, version := 1, kind := 3, tenant := 0, session := 1, seq := 0, ack := 0, key := [7], body := [] },
     State.reset, by decide +kernel⟩,
   ⟨{ port := 0, version := 1, kind := 3, tenant := 0, session := 1, seq := 0, ack := 0, key := [7], body := [] },
     State.reset, by decide +kernel⟩,
   ⟨{ port := 0, version := 1, kind := 3, tenant := 0, session := 1, seq := 0, ack := 0, key := [7], body := [] },
     State.reset, by decide +kernel⟩,
   ⟨{ port := 0, version := 1, kind := 3, tenant := 0, session := 1, seq := 0, ack := 0, key := [7], body := [] },
     State.reset, by decide +kernel⟩,
   ⟨{ port := 0, version := 1, kind := 1, tenant := 0, session := 1, seq := 0, ack := 0, key := (State.objB State.reset (tenantKeyOf Obj.tenantKey 0)), body := [1, 1] },
     _, _, (State.setObj (State.setObj (State.setObj (State.setObj
     ({ State.reset with beat := 0, dev := { state := 5 }, serve := { links := [true, true], nextSess := 2, sessions := [] } })
     (tenantKeyOf Obj.tenantEnable 0) 1) (Obj.servePortModeS + 0) 1) Obj.serveMaxSessions 5) (tenantKeyOf
     Obj.tenantMaxSessions 0) 5), by decide +kernel, by decide +kernel, by decide +kernel, by decide +kernel, rfl, rfl⟩,
   ⟨{ port := 0, version := 1, kind := 1, tenant := 0, session := 1, seq := 0, ack := 0, key := (State.objB State.reset (tenantKeyOf Obj.tenantKey 0)), body := [1, 1] },
     (State.setObj (State.setObj (State.setObj (State.setObj
     ({ State.reset with beat := 0, dev := { state := 5 }, serve := { links := [true, true], nextSess := 2, sessions := [] } })
     (tenantKeyOf Obj.tenantEnable 0) 1) (Obj.servePortModeS + 0) 1) Obj.serveMaxSessions 5) (tenantKeyOf
     Obj.tenantMaxSessions 0) 5), by decide +kernel⟩,
   ⟨{ port := 0, version := 1, kind := 1, tenant := 0, session := 1, seq := 0, ack := 0, key := (State.objB State.reset (tenantKeyOf Obj.tenantKey 0)), body := [0, 0] },
     (State.setObj (State.setObj ({ State.reset with beat := 0, dev := { state := 5 }, serve := { links := [true, true], nextSess := 2, sessions := [] } })
     (tenantKeyOf Obj.tenantEnable 0) 1) (Obj.servePortModeS + 0) 1), by decide +kernel⟩,
   ⟨{ port := 0, version := 1, kind := 1, tenant := 0, session := 1, seq := 0, ack := 0, key := [9, 9], body := [1, 1] },
     (State.setObj (State.setObj ({ State.reset with beat := 0, dev := { state := 5 }, serve := { links := [true, true], nextSess := 2, sessions := [] } })
     (tenantKeyOf Obj.tenantEnable 0) 1) (Obj.servePortModeS + 0) 1), by decide +kernel⟩,
   ⟨{ port := 0, version := 1, kind := 3, tenant := 0, session := 1, seq := 0, ack := 0, key := [9], body := [] },
     (State.setObj (State.setObj ({ State.reset with beat := 0, dev := { state := 5 }, serve := { links := [true, true], nextSess := 2, sessions := [{ num := 1, tenant := 0, port := 0, key := [7] }] } })
     (tenantKeyOf Obj.tenantEnable 0) 1) (Obj.servePortModeS + 0) 1), by decide +kernel⟩,
   ⟨{ port := 0, version := 1, kind := 3, tenant := 0, session := 1, seq := 0, ack := 0, key := [9], body := [] },
     (State.setObj (State.setObj ({ State.reset with beat := 0, dev := { state := 5 }, serve := { links := [true, true], nextSess := 2, sessions := [{ num := 1, tenant := 0, port := 0, key := [7] }] } })
     (tenantKeyOf Obj.tenantEnable 0) 1) (Obj.servePortModeS + 0) 1), by decide +kernel⟩,
   ⟨{ port := 0, version := 1, kind := 3, tenant := 0, session := 1, seq := 0, ack := 0, key := [9], body := [] },
     (State.setObj (State.setObj ({ State.reset with beat := 0, dev := { state := 5 }, serve := { links := [true, true], nextSess := 2, sessions := [{ num := 1, tenant := 0, port := 0, key := [7] }] } })
     (tenantKeyOf Obj.tenantEnable 0) 1) (Obj.servePortModeS + 0) 1), by decide +kernel⟩,
   ⟨{ port := 0, version := 1, kind := 3, tenant := 0, session := 1, seq := 0, ack := 0, key := [9], body := [] },
     (State.setObj (State.setObj ({ State.reset with beat := 0, dev := { state := 5 }, serve := { links := [true, true], nextSess := 2, sessions := [{ num := 1, tenant := 0, port := 0, key := [7] }] } })
     (tenantKeyOf Obj.tenantEnable 0) 1) (Obj.servePortModeS + 0) 1), by decide +kernel⟩,
   ⟨{ port := 0, version := 1, kind := 3, tenant := 0, session := 1, seq := 0, ack := 0, key := [9], body := [] },
     (State.setObj (State.setObj ({ State.reset with beat := 0, dev := { state := 5 }, serve := { links := [true, true], nextSess := 2, sessions := [{ num := 1, tenant := 0, port := 0, key := [7] }] } })
     (tenantKeyOf Obj.tenantEnable 0) 1) (Obj.servePortModeS + 0) 1), by decide +kernel⟩,
   ⟨{ port := 0, version := 1, kind := 3, tenant := 0, session := 1, seq := 0, ack := 0, key := [9], body := [] },
     (State.setObj (State.setObj ({ State.reset with beat := 0, dev := { state := 5 }, serve := { links := [true, true], nextSess := 2, sessions := [{ num := 1, tenant := 0, port := 0, key := [7] }] } })
     (tenantKeyOf Obj.tenantEnable 0) 1) (Obj.servePortModeS + 0) 1), by decide +kernel⟩,
   ⟨{ port := 0, version := 1, kind := 3, tenant := 0, session := 1, seq := 4, ack := 0, key := [7], body := [] },
     { num := 1, tenant := 0, port := 0, key := [7] }, (State.setObj (State.setObj
     ({ State.reset with beat := 0, dev := { state := 5 }, serve := { links := [true, true], nextSess := 2, sessions := [{ num := 1, tenant := 0, port := 0, key := [7] }] } })
     (tenantKeyOf Obj.tenantEnable 0) 1) (Obj.servePortModeS + 0) 1), by decide +kernel⟩,
   ⟨{ port := 0, version := 1, kind := 3, tenant := 0, session := 1, seq := 4, ack := 0, key := [7], body := [] },
     { num := 1, tenant := 0, port := 0, key := [7] }, (State.setObj (State.setObj
     ({ State.reset with beat := 0, dev := { state := 5 }, serve := { links := [true, true], nextSess := 2, sessions := [{ num := 1, tenant := 0, port := 0, key := [7] }] } })
     (tenantKeyOf Obj.tenantEnable 0) 1) (Obj.servePortModeS + 0) 1), by decide +kernel⟩,
   ⟨{ port := 0, version := 1, kind := 3, tenant := 0, session := 1, seq := 4, ack := 0, key := [7], body := [] },
     { num := 1, tenant := 0, port := 0, key := [7] }, (State.setObj (State.setObj
     ({ State.reset with beat := 0, dev := { state := 5 }, serve := { links := [true, true], nextSess := 2, sessions := [{ num := 1, tenant := 0, port := 0, key := [7] }] } })
     (tenantKeyOf Obj.tenantEnable 0) 1) (Obj.servePortModeS + 0) 1), by decide +kernel⟩,
   ⟨{ port := 0, version := 1, kind := 3, tenant := 0, session := 1, seq := 4, ack := 0, key := [7], body := [] },
     { num := 1, tenant := 0, port := 0, key := [7] }, (State.setObj (State.setObj
     ({ State.reset with beat := 0, dev := { state := 5 }, serve := { links := [true, true], nextSess := 2, sessions := [{ num := 1, tenant := 0, port := 0, key := [7] }] } })
     (tenantKeyOf Obj.tenantEnable 0) 1) (Obj.servePortModeS + 0) 1), by decide +kernel⟩,
   ⟨{ port := 0, version := 1, kind := 3, tenant := 0, session := 1, seq := 4, ack := 0, key := [7], body := [] },
     { num := 1, tenant := 0, port := 0, key := [7] }, (State.setObj (State.setObj
     ({ State.reset with beat := 0, dev := { state := 5 }, serve := { links := [true, true], nextSess := 2, sessions := [{ num := 1, tenant := 0, port := 0, key := [7] }] } })
     (tenantKeyOf Obj.tenantEnable 0) 1) (Obj.servePortModeS + 0) 1), by decide +kernel⟩,
   ⟨{ port := 0, version := 1, kind := 99, tenant := 0, session := 1, seq := 0, ack := 0, key := [7], body := [] },
     { num := 1, tenant := 0, port := 0, key := [7] }, ((sessOf (takeAck 1 (Dgram.ack
     ({ port := 0, version := 1, kind := 99, tenant := 0, session := 1, seq := 0, ack := 0, key := [7], body := [] })).toNat
     (modSess 1 (fun x => { x with rxNext := x.rxNext + 1 }) (modSess 1 (fun x => { x with due := true }) ((State.setObj
     (State.setObj ({ State.reset with beat := 0, dev := { state := 5 }, serve := { links := [true, true], nextSess := 2, sessions := [{ num := 1, tenant := 0, port := 0, key := [7] }] } })
     (tenantKeyOf Obj.tenantEnable 0) 1) (Obj.servePortModeS + 0) 1))))) 1).getD
     { num := 1, tenant := 0, port := 0, key := [7] }), _, (State.setObj (State.setObj
     ({ State.reset with beat := 0, dev := { state := 5 }, serve := { links := [true, true], nextSess := 2, sessions := [{ num := 1, tenant := 0, port := 0, key := [7] }] } })
     (tenantKeyOf Obj.tenantEnable 0) 1) (Obj.servePortModeS + 0) 1), by decide +kernel, by decide +kernel,
     by decide +kernel, rfl, by decide +kernel⟩,
   ⟨{ port := 0, version := 1, kind := 99, tenant := 0, session := 1, seq := 0, ack := 0, key := [7], body := [] },
     { num := 1, tenant := 0, port := 0, key := [7] }, (State.setObj (State.setObj
     ({ State.reset with beat := 0, dev := { state := 5 }, serve := { links := [true, true], nextSess := 2, sessions := [{ num := 1, tenant := 0, port := 0, key := [7] }] } })
     (tenantKeyOf Obj.tenantEnable 0) 1) (Obj.servePortModeS + 0) 1), by decide +kernel⟩,
   ⟨{ port := 0, version := 1, kind := 6, tenant := 0, session := 1, seq := 0, ack := 0, key := [7], body := [] },
     { num := 1, tenant := 0, port := 0, key := [7] }, ((sessOf (takeAck 1 (Dgram.ack
     ({ port := 0, version := 1, kind := 6, tenant := 0, session := 1, seq := 0, ack := 0, key := [7], body := [] })).toNat
     (modSess 1 (fun x => { x with rxNext := x.rxNext + 1 }) (modSess 1 (fun x => { x with due := true }) ((State.setObj
     (State.setObj ({ State.reset with beat := 0, dev := { state := 5 }, serve := { links := [true, true], nextSess := 2, sessions := [{ num := 1, tenant := 0, port := 0, key := [7] }] } })
     (tenantKeyOf Obj.tenantEnable 0) 1) (Obj.servePortModeS + 0) 1))))) 1).getD
     { num := 1, tenant := 0, port := 0, key := [7] }), _, (State.setObj (State.setObj
     ({ State.reset with beat := 0, dev := { state := 5 }, serve := { links := [true, true], nextSess := 2, sessions := [{ num := 1, tenant := 0, port := 0, key := [7] }] } })
     (tenantKeyOf Obj.tenantEnable 0) 1) (Obj.servePortModeS + 0) 1), by decide +kernel, by decide +kernel,
     by decide +kernel, rfl, by decide +kernel⟩,
   ⟨{ port := 0, version := 1, kind := 6, tenant := 0, session := 1, seq := 0, ack := 0, key := [7], body := [] },
     { num := 1, tenant := 0, port := 0, key := [7] }, (State.setObj (State.setObj
     ({ State.reset with beat := 0, dev := { state := 5 }, serve := { links := [true, true], nextSess := 2, sessions := [{ num := 1, tenant := 0, port := 0, key := [7] }] } })
     (tenantKeyOf Obj.tenantEnable 0) 1) (Obj.servePortModeS + 0) 1), by decide +kernel⟩,
   ⟨{ port := 0, version := 1, kind := 9, tenant := 0, session := 1, seq := 4611686018427387907, ack := 0, key := [7], body := [] },
     { num := 1, tenant := 0, port := 0, key := [7] }, (State.setObj (State.setObj
     ({ State.reset with beat := 0, dev := { state := 5 }, serve := { links := [true, true], nextSess := 2, sessions := [{ num := 1, tenant := 0, port := 0, key := [7] }] } })
     (tenantKeyOf Obj.tenantEnable 0) 1) (Obj.servePortModeS + 0) 1), by decide +kernel⟩,
   ⟨{ port := 0, version := 1, kind := 9, tenant := 0, session := 1, seq := 3, ack := 0, key := [7], body := [] },
     { num := 1, tenant := 0, port := 0, key := [7] }, (State.setObj (State.setObj
     ({ State.reset with beat := 0, dev := { state := 5 }, serve := { links := [true, true], nextSess := 2, sessions := [{ num := 1, tenant := 0, port := 0, key := [7] }] } })
     (tenantKeyOf Obj.tenantEnable 0) 1) (Obj.servePortModeS + 0) 1), by decide +kernel⟩,
   ⟨{ port := 0, version := 1, kind := 9, tenant := 0, session := 1, seq := 4611686018427387907, ack := 0, key := [7], body := [] },
     { num := 1, tenant := 0, port := 0, key := [7], txNext := 2, unacked := [{ seq := 0, kind := 2, body := [], sent := some 0 }, { seq := 1, kind := 7, body := [], sent := none }] },
     3, (State.setObj (State.setObj ({ State.reset with beat := 0, dev := { state := 5 }, serve := { links := [true, true], nextSess := 2, sessions := [{ num := 1, tenant := 0, port := 0, key := [7], txNext := 2, unacked := [{ seq := 0, kind := 2, body := [], sent := some 0 }, { seq := 1, kind := 7, body := [], sent := none }] }] } })
     (tenantKeyOf Obj.tenantEnable 0) 1) (Obj.servePortModeS + 0) 1), by decide +kernel⟩,
   ⟨1, State.reset, by decide +kernel⟩,
   ⟨1, { num := 1, tenant := 0, port := 0, key := [7], unacked := [{ seq := 0, kind := 2, body := [], sent := some 0 }] }, 0,
     _, (State.setObj (State.setObj ({ State.reset with beat := 1000000000000, dev := { state := 5 }, serve := { links := [true, true], nextSess := 2, sessions := [{ num := 1, tenant := 0, port := 0, key := [7], unacked := [{ seq := 0, kind := 2, body := [], sent := some 0 }] }] } })
     (tenantKeyOf Obj.tenantEnable 0) 1) (Obj.servePortModeS + 0) 1), by decide +kernel, by decide +kernel,
     by decide +kernel, rfl⟩,
   ⟨1, { num := 1, tenant := 0, port := 0, key := [7], unacked := [{ seq := 0, kind := 2, body := [], sent := some 0 }] }, 0,
     (State.setObj (State.setObj ({ State.reset with beat := 1000000000000, dev := { state := 5 }, serve := { links := [true, true], nextSess := 2, sessions := [{ num := 1, tenant := 0, port := 0, key := [7], unacked := [{ seq := 0, kind := 2, body := [], sent := some 0 }] }] } })
     (tenantKeyOf Obj.tenantEnable 0) 1) (Obj.servePortModeS + 0) 1), by decide +kernel⟩,
   ⟨1, State.reset, by decide +kernel⟩,
   ⟨1, { num := 1, tenant := 0, port := 0, key := [7], due := true, rxNext := 1 }, (State.setObj (State.setObj
     ({ State.reset with beat := 0, dev := { state := 5 }, serve := { links := [true, true], nextSess := 2, sessions := [{ num := 1, tenant := 0, port := 0, key := [7], due := true, rxNext := 1 }] } })
     (tenantKeyOf Obj.tenantEnable 0) 1) (Obj.servePortModeS + 0) 1), by decide +kernel⟩,
   ⟨1, { num := 1, tenant := 0, port := 0, key := [7], due := true, rxNext := 1 }, (State.setObj (State.setObj
     ({ State.reset with beat := 0, dev := { state := 5 }, serve := { links := [true, true], nextSess := 2, sessions := [{ num := 1, tenant := 0, port := 0, key := [7], due := true, rxNext := 1 }] } })
     (tenantKeyOf Obj.tenantEnable 0) 1) (Obj.servePortModeS + 0) 1), by decide +kernel⟩,
   ⟨1, State.reset, by decide +kernel⟩,
   ⟨1, { num := 1, tenant := 0, port := 0, key := [7], unacked := [{ seq := 0, kind := 2, body := [], sent := some 0 }] }, _,
     (State.setObj (State.setObj ({ State.reset with beat := 1000000000000000, dev := { state := 5 }, serve := { links := [true, true], nextSess := 2, sessions := [{ num := 1, tenant := 0, port := 0, key := [7], unacked := [{ seq := 0, kind := 2, body := [], sent := some 0 }] }] } })
     (tenantKeyOf Obj.tenantEnable 0) 1) (Obj.servePortModeS + 0) 1), by decide +kernel, by decide +kernel,
     by decide +kernel, rfl⟩,
   ⟨1, { num := 1, tenant := 0, port := 0, key := [7], unacked := [{ seq := 0, kind := 2, body := [], sent := some 0 }] },
     (State.setObj (State.setObj ({ State.reset with beat := 1000000000000000, dev := { state := 5 }, serve := { links := [true, true], nextSess := 2, sessions := [{ num := 1, tenant := 0, port := 0, key := [7], unacked := [{ seq := 0, kind := 2, body := [], sent := some 0 }] }] } })
     (tenantKeyOf Obj.tenantEnable 0) 1) (Obj.servePortModeS + 0) 1), by decide +kernel⟩,
   ⟨0, (State.setObj (State.setObj ({ State.reset with beat := 0, dev := { state := 5 }, serve := { links := [true, true], nextSess := 2, sessions := [{ num := 1, tenant := 0, port := 0, key := [7] }] } })
     (tenantKeyOf Obj.tenantEnable 0) 1) (Obj.servePortModeS + 0) 1), by decide +kernel⟩,
   ⟨0, State.reset, by decide +kernel⟩,
   ⟨0, [5], (State.setObj (State.setObj ({ State.reset with beat := 0, dev := { state := 5 }, serve := { links := [true, true], nextSess := 2, sessions := [{ num := 1, tenant := 0, port := 0, key := [7] }] } })
     (tenantKeyOf Obj.tenantEnable 0) 1) (Obj.servePortModeS + 0) 1), by decide +kernel⟩,
   ⟨0, (List.replicate 4 0 ++ serveAddress (State.setObj (State.setObj
     ({ State.reset with beat := 0, dev := { state := 5 }, serve := { links := [true, true], nextSess := 2, sessions := [{ num := 1, tenant := 0, port := 0, key := [7] }] } })
     (tenantKeyOf Obj.tenantEnable 0) 1) (Obj.servePortModeS + 0) 1) 0), (State.setObj (State.setObj
     ({ State.reset with beat := 0, dev := { state := 5 }, serve := { links := [true, true], nextSess := 2, sessions := [{ num := 1, tenant := 0, port := 0, key := [7] }] } })
     (tenantKeyOf Obj.tenantEnable 0) 1) (Obj.servePortModeS + 0) 1), by decide +kernel⟩,
   ⟨0, 1, [5], State.reset, by decide +kernel⟩,
   ⟨1, { num := 1, tenant := 0, port := 0, key := [7] }, (State.setObj (State.setObj
     ({ State.reset with beat := 0, dev := { state := 5 }, serve := { links := [true, true], nextSess := 2, sessions := [{ num := 1, tenant := 0, port := 0, key := [7] }] } })
     (tenantKeyOf Obj.tenantEnable 0) 1) (Obj.servePortModeS + 0) 1), by decide +kernel⟩,
   ⟨1, { num := 1, tenant := 0, port := 0, key := [7] }, (State.setObj (State.setObj
     ({ State.reset with beat := 0, dev := { state := 5 }, serve := { links := [true, true], nextSess := 2, sessions := [{ num := 1, tenant := 0, port := 0, key := [7] }] } })
     (tenantKeyOf Obj.tenantEnable 0) 1) (Obj.servePortModeS + 0) 1), by decide +kernel⟩⟩

/-- The hypotheses of each clause of ServingRequests can be met. -/
theorem witness_ServingRequests :
    (∃ (d : Dgram) (q x : Sess) (u : State) (s : State), (servePortUp s d.port.val = true) ∧ (datagramSession s d = some q) ∧
      (d.seq.toNat % 2 ^ 63 = q.rxNext) ∧ (u = takeAck q.num d.ack.toNat (modSess q.num (fun x =>
      { x with rxNext := x.rxNext + 1 }) (modSess q.num (fun x => { x with due := true }) s))) ∧ (sessOf u q.num = some x) ∧
      (d.body.length < 64 ∨ 8192 < d.body.length ∨ fixedReservedClear (d.body.take 64) = false ∨ stopStrings (leAt
      (d.body.take 64) 6 1) (d.body.drop 64) = none ∨ (∃ y ∈ stopStrings (leAt (d.body.take 64) 6 1) (d.body.drop 64),
      asmTotal (d.body.take 64) < y.2.length))) ∧
    (∃ (d : Dgram) (q x : Sess) (u : State) (stops : List Bytes) (first : Bytes) (s : State), (servePortUp s d.port.val =
      true) ∧ (datagramSession s d = some q) ∧ (d.seq.toNat % 2 ^ 63 = q.rxNext) ∧ (u = takeAck q.num d.ack.toNat (modSess
      q.num (fun x => { x with rxNext := x.rxNext + 1 }) (modSess q.num (fun x => { x with due := true }) s))) ∧ (sessOf u
      q.num = some x) ∧ (64 ≤ d.body.length ∧ d.body.length ≤ 8192) ∧ (fixedReservedClear (d.body.take 64) = true) ∧
      (stopStrings (leAt (d.body.take 64) 6 1) (d.body.drop 64) = some (stops, first)) ∧ (first.length ≤ asmTotal
      (d.body.take 64)) ∧ ((asmOf u x.num (BitVec.ofNat 32 (leAt (d.body.take 64) 0 4))).isSome = true ∨ u.serve.ctxs.any
      (fun c => c.session == x.num && c.req == (BitVec.ofNat 32 (leAt (d.body.take 64) 0 4))) = true)) ∧
    (∃ (d : Dgram) (q x : Sess) (u : State) (stops : List Bytes) (first : Bytes) (v : State) (s : State), (servePortUp s
      d.port.val = true) ∧ (datagramSession s d = some q) ∧ (d.seq.toNat % 2 ^ 63 = q.rxNext) ∧ (u = takeAck q.num
      d.ack.toNat (modSess q.num (fun x => { x with rxNext := x.rxNext + 1 }) (modSess q.num (fun x =>
      { x with due := true }) s))) ∧ (sessOf u q.num = some x) ∧ (64 ≤ d.body.length ∧ d.body.length ≤ 8192) ∧
      (fixedReservedClear (d.body.take 64) = true) ∧ (stopStrings (leAt (d.body.take 64) 6 1) (d.body.drop 64) = some (stops,
      first)) ∧ (first.length ≤ asmTotal (d.body.take 64)) ∧ (¬((asmOf u x.num (BitVec.ofNat 32 (leAt (d.body.take 64) 0
      4))).isSome = true ∨ u.serve.ctxs.any (fun c => c.session == x.num && c.req == (BitVec.ofNat 32 (leAt (d.body.take 64)
      0 4))) = true)) ∧ (v = u.count Obj.serveRequests 1)) ∧
    (∃ (d : Dgram) (q : Sess) (stops : List Bytes) (first : Bytes) (s : State), (servePortUp s d.port.val = true) ∧
      (datagramSession s d = some q) ∧ (d.seq.toNat % 2 ^ 63 = q.rxNext) ∧ (q.unacked = []) ∧ (64 ≤ d.body.length ∧
      d.body.length ≤ 8192) ∧ (fixedReservedClear (d.body.take 64) = true) ∧ (stopStrings (leAt (d.body.take 64) 6 1)
      (d.body.drop 64) = some (stops, first)) ∧ (asmOf s q.num (BitVec.ofNat 32 (leAt (d.body.take 64) 0 4)) = none) ∧
      (s.serve.ctxs.any (fun c => c.session == q.num && c.req == (BitVec.ofNat 32 (leAt (d.body.take 64) 0 4))) = false) ∧
      (first.length < asmTotal (d.body.take 64)) ∧ (q.closing = false)) ∧
    (∃ (d : Dgram) (q : Sess) (stops : List Bytes) (first : Bytes) (s : State), (servePortUp s d.port.val = true) ∧
      (datagramSession s d = some q) ∧ (d.seq.toNat % 2 ^ 63 = q.rxNext) ∧ (q.unacked = []) ∧ (64 ≤ d.body.length ∧
      d.body.length ≤ 8192) ∧ (fixedReservedClear (d.body.take 64) = true) ∧ (stopStrings (leAt (d.body.take 64) 6 1)
      (d.body.drop 64) = some (stops, first)) ∧ (asmOf s q.num (BitVec.ofNat 32 (leAt (d.body.take 64) 0 4)) = none) ∧
      (s.serve.ctxs.any (fun c => c.session == q.num && c.req == (BitVec.ofNat 32 (leAt (d.body.take 64) 0 4))) = false) ∧
      (first.length = asmTotal (d.body.take 64)) ∧ (q.closing = false) ∧ (leAt (d.body.take 64) 5 1 = 0) ∧ (reqCode s q
      { session := q.num, req := (BitVec.ofNat 32 (leAt (d.body.take 64) 0 4)), fixed := (d.body.take 64), stops, prompt := if first.isEmpty then [] else [(0, first)], length := leAt (d.body.take 64) 8 4, arrival := s.beat }
      false = 0)) ∧
    (∃ (d : Dgram) (q : Sess) (s : State), (servePortUp s d.port.val = true) ∧ (datagramSession s d = some q) ∧ (d.seq.toNat
      % 2 ^ 63 = q.rxNext) ∧ (q.unacked = []) ∧ (d.body.length < 64 ∨ 8192 < d.body.length)) ∧
    (∃ (d : Dgram) (q x : Sess) (u : State) (s : State), (servePortUp s d.port.val = true) ∧ (datagramSession s d = some q) ∧
      (d.seq.toNat % 2 ^ 63 = q.rxNext) ∧ (u = takeAck q.num d.ack.toNat (modSess q.num (fun x =>
      { x with rxNext := x.rxNext + 1 }) (modSess q.num (fun x => { x with due := true }) s))) ∧ (sessOf u q.num = some x) ∧
      (∀ a ∈ asmOf u x.num (BitVec.ofNat 32 (leAt d.body 0 4)), a.phase ≠ 0)) ∧
    (∃ (d : Dgram) (q x : Sess) (u : State) (a : Assembly) (s : State), (servePortUp s d.port.val = true) ∧ (datagramSession
      s d = some q) ∧ (d.seq.toNat % 2 ^ 63 = q.rxNext) ∧ (u = takeAck q.num d.ack.toNat (modSess q.num (fun x =>
      { x with rxNext := x.rxNext + 1 }) (modSess q.num (fun x => { x with due := true }) s))) ∧ (sessOf u q.num = some x) ∧
      (asmOf u x.num (BitVec.ofNat 32 (leAt d.body 0 4)) = some a) ∧ (a.phase = 0) ∧ (8192 < d.body.length ∨ asmTotal a.fixed
      < leAt d.body 4 4 + (d.body.drop 8).length ∨ (∃ y ∈ a.prompt, leAt d.body 4 4 < y.1 + y.2.length ∧ y.1 < leAt d.body 4
      4 + (d.body.drop 8).length))) ∧
    (∃ (d : Dgram) (q x : Sess) (u : State) (a : Assembly) (s : State), (servePortUp s d.port.val = true) ∧ (datagramSession
      s d = some q) ∧ (d.seq.toNat % 2 ^ 63 = q.rxNext) ∧ (u = takeAck q.num d.ack.toNat (modSess q.num (fun x =>
      { x with rxNext := x.rxNext + 1 }) (modSess q.num (fun x => { x with due := true }) s))) ∧ (sessOf u q.num = some x) ∧
      (asmOf u x.num (BitVec.ofNat 32 (leAt d.body 0 4)) = some a) ∧ (a.phase = 0) ∧ (¬(8192 < d.body.length ∨ asmTotal
      a.fixed < leAt d.body 4 4 + (d.body.drop 8).length ∨ (∃ y ∈ a.prompt, leAt d.body 4 4 < y.1 + y.2.length ∧ y.1 < leAt
      d.body 4 4 + (d.body.drop 8).length)))) ∧
    (∃ (d : Dgram) (q : Sess) (a : Assembly) (s : State), (servePortUp s d.port.val = true) ∧ (datagramSession s d = some q)
      ∧ (d.seq.toNat % 2 ^ 63 = q.rxNext) ∧ (q.unacked = []) ∧ (asmOf s q.num (BitVec.ofNat 32 (leAt d.body 0 4)) = some a) ∧
      (a.phase = 0) ∧ (d.body.length ≤ 8192) ∧ (leAt d.body 4 4 + (d.body.drop 8).length ≤ asmTotal a.fixed) ∧ (∀ p ∈
      a.prompt, leAt d.body 4 4 + (d.body.drop 8).length ≤ p.1 ∨ p.1 + p.2.length ≤ leAt d.body 4 4) ∧ (asmHave a +
      (d.body.drop 8).length ≠ asmTotal a.fixed) ∧ (q.closing = false)) ∧
    (∃ (d : Dgram) (q x : Sess) (u : State) (a : Assembly) (s : State), (servePortUp s d.port.val = true) ∧ (datagramSession
      s d = some q) ∧ (d.seq.toNat % 2 ^ 63 = q.rxNext) ∧ (u = takeAck q.num d.ack.toNat (modSess q.num (fun x =>
      { x with rxNext := x.rxNext + 1 }) (modSess q.num (fun x => { x with due := true }) s))) ∧ (sessOf u q.num = some x) ∧
      (asmOf u x.num (BitVec.ofNat 32 (leAt d.body 0 4)) = some a)) ∧
    (∃ (d : Dgram) (q x : Sess) (u : State) (s : State), (servePortUp s d.port.val = true) ∧ (datagramSession s d = some q) ∧
      (d.seq.toNat % 2 ^ 63 = q.rxNext) ∧ (u = takeAck q.num d.ack.toNat (modSess q.num (fun x =>
      { x with rxNext := x.rxNext + 1 }) (modSess q.num (fun x => { x with due := true }) s))) ∧ (sessOf u q.num = some x) ∧
      (asmOf u x.num (BitVec.ofNat 32 (leAt d.body 0 4)) = none)) ∧
    (∃ (d : Dgram) (q : Sess) (a : Assembly) (s : State), (servePortUp s d.port.val = true) ∧ (datagramSession s d = some q)
      ∧ (d.seq.toNat % 2 ^ 63 = q.rxNext) ∧ (q.unacked = []) ∧ (asmOf s q.num (BitVec.ofNat 32 (leAt d.body 0 4)) = some a))
      ∧
    (∃ (session req : W32) (s : State), (∀ a ∈ asmOf s session req, a.phase ≠ 0 ∨ s.beat < a.arrival + 1000000 * s.obj
      Obj.servePromptTimeoutMs)) ∧
    (∃ (session req : W32) (a : Assembly) (s : State), (asmOf s session req = some a) ∧ (a.phase = 0) ∧ (a.arrival + 1000000
      * s.obj Obj.servePromptTimeoutMs ≤ s.beat)) ∧
    (∃ (session req : W32) (a : Assembly) (s : State), (asmOf s session req = some a) ∧ (a.phase = 0) ∧ (a.arrival + 1000000
      * s.obj Obj.servePromptTimeoutMs ≤ s.beat)) ∧
    (∃ (num req : W32) (q : Sess) (a : Assembly) (s : State), sessOf s num = some q ∧ asmOf s num req = some a) ∧
    (∃ a : Assembly, asmTokens a = false) ∧
    (∃ a : Assembly, asmTokens a = true) ∧
    (∃ (q : Sess) (a : Assembly) (s : State), reqCode s q a true ≠ 0) ∧
    (∃ (q : Sess) (a : Assembly) (s : State) (im : Image), reqCode s q a true = 0 ∧ imageOf s (reqSlot a) = some im) ∧
    (∃ (whip : WhipId) (session req : W32) (s : State), (sessOf s session = none ∨ asmOf s session req = none ∨ whipIdle s
      whip.val = false ∨ (∀ a ∈ asmOf s session req, a.phase ≠ 1))) ∧
    (∃ (whip : WhipId) (session req : W32) (s : State), (sessOf s session = none ∨ asmOf s session req = none ∨ whipIdle s
      whip.val = false ∨ (∀ a ∈ asmOf s session req, a.phase ≠ 2))) ∧
    (∃ (whip : WhipId) (session req : W32) (q : Sess) (a : Assembly) (s : State), (sessOf s session = some q) ∧ (asmOf s
      session req = some a) ∧ (a.phase = 1) ∧ (whipIdle s whip.val = true) ∧ ((imageOf s (reqSlot a)).bind (fun im =>
      imgRoutine im 0x01) = none)) ∧
    (∃ (whip : WhipId) (session req : W32) (q : Sess) (a : Assembly) (td : Bytes) (u : State) (toks : List W32) (s : State),
      (sessOf s session = some q) ∧ (asmOf s session req = some a) ∧ (a.phase = 1) ∧ (whipIdle s whip.val = true) ∧ ((imageOf
      s (reqSlot a)).bind (fun im => imgRoutine im 0x01) = some td) ∧ (u = (if utf8Valid (asmText a) then s else s.count
      Obj.tokInvalidUtf8 1)) ∧ (toks = tokenize u (whipDie whip.val) (reqSlot a) td (asmText a))) ∧
    (∃ (whip : WhipId) (session req : W32) (q : Sess) (a : Assembly) (s : State), (sessOf s session = some q) ∧ (asmOf s
      session req = some a) ∧ (a.phase = 2) ∧ (whipIdle s whip.val = true) ∧ (reqCode s q a true ≠ 0)) ∧
    (∃ (whip : WhipId) (session req : W32) (q : Sess) (a : Assembly) (s : State), (sessOf s session = some q) ∧ (asmOf s
      session req = some a) ∧ (a.phase = 2) ∧ (whipIdle s whip.val = true) ∧ (reqCode s q a true = 0) ∧ ((imageOf s (reqSlot
      a)).bind (fun im => (imgRoutine im 0x06).map (fun d => (im, d))) = none)) ∧
    (∃ (whip : WhipId) (session req : W32) (q : Sess) (a : Assembly) (im : Image) (hd : Bytes) (hs : List W64) (s : State),
      (sessOf s session = some q) ∧ (asmOf s session req = some a) ∧ (a.phase = 2) ∧ (whipIdle s whip.val = true) ∧ (reqCode
      s q a true = 0) ∧ ((imageOf s (reqSlot a)).bind (fun im => (imgRoutine im 0x06).map (fun d => (im, d))) = some (im,
      hd)) ∧ (hs = blockHashes (leAt hd 24 8) ((a.tokens.length - 1) / 64) 0 a.tokens)) ∧
    (∃ (ctx ns : Nat) (s : State), (∀ c ∈ s.ctx ctx, imageOf s c.slot = none ∨ c.phase ≠ 0 ∨ s.sched.items.any (fun it =>
      it.kind == 0 && it.ctx == some ctx) = true)) ∧
    (∃ (ctx : Nat) (c : Ctx) (ns : Nat) (im : Image) (r : Nat × Nat × Nat) (k : Nat × Nat) (u v : State) (f : List W32 ×
      Flags) (s : State), (s.ctx ctx = some c) ∧ (imageOf s c.slot = some im) ∧ (c.phase = 0) ∧ (s.sched.items.any (fun it =>
      it.kind == 0 && it.ctx == some ctx) = false) ∧ (r = tget (0, 0, 0) c.slot s.serve.rate) ∧ (k = tget (0, 0) c.tenant
      s.serve.counts) ∧ (u = { s with serve := { s.serve with rate := tset c.slot (r.1 + ns, r.2.1 + uncached c, r.2.2 + ceilDiv (uncached c) 512) s.serve.rate, counts := tset c.tenant (k.1 + c.prompt.length, k.2) s.serve.counts } })
      ∧ (v = giveBlocks ctx (enterBlocks im ctx (((List.range c.hashes.length).zip c.hashes).drop (c.reused / 64)) (modCtx
      ctx (fun y => { y with inputCounted := true, phase := 1 }) u))) ∧ (f = firstToken v im c)) ∧
    (∃ (ctx : Nat) (c : Ctx) (ns : Nat) (im : Image) (s : State), (s.ctx ctx = some c) ∧ (imageOf s c.slot = some im) ∧
      (c.phase = 0) ∧ (s.sched.items.any (fun it => it.kind == 0 && it.ctx == some ctx) = false) ∧ (c.hashes = []) ∧
      (imgRoutine im 0x05 = none)) ∧
    (∃ (ctx : Nat) (s : State), (∀ c ∈ s.ctx ctx, c.deadline = 0xFFFFFFFFFFFFFFFF ∨ s.beat < c.deadline.toNat)) ∧
    (∃ (ctx : Nat) (c : Ctx) (s : State), (s.ctx ctx = some c) ∧ (c.deadline ≠ 0xFFFFFFFFFFFFFFFF) ∧ (c.deadline.toNat ≤
      s.beat)) ∧
    (∃ (ctx : Nat) (c : Ctx) (s : State), (s.ctx ctx = some c) ∧ (c.deadline ≠ 0xFFFFFFFFFFFFFFFF) ∧ (c.deadline.toNat ≤
      s.beat) ∧ (inStep s ctx = true ∨ inPrefill s ctx = true)) ∧
    (∃ (ctx : Nat) (c : Ctx) (s : State), (s.ctx ctx = some c) ∧ (c.deadline ≠ 0xFFFFFFFFFFFFFFFF) ∧ (c.deadline.toNat ≤
      s.beat) ∧ (inStep s ctx = false ∧ inPrefill s ctx = false) ∧ (c.ending = none)) :=
  ⟨⟨{ port := 0, version := 1, kind := 3, tenant := 0, session := 1, seq := 0, ack := 0, key := [7], body := [1] },
    { num := 1, tenant := 0, port := 0, key := [7] }, ((sessOf (takeAck 1 (Dgram.ack
    ({ port := 0, version := 1, kind := 3, tenant := 0, session := 1, seq := 0, ack := 0, key := [7], body := [1] })).toNat
    (modSess 1 (fun x => { x with rxNext := x.rxNext + 1 }) (modSess 1 (fun x => { x with due := true }) ((State.setObj
    (State.setObj ({ State.reset with beat := 0, dev := { state := 5 }, serve := { links := [true, true], nextSess := 2, sessions := [{ num := 1, tenant := 0, port := 0, key := [7] }] } })
    (tenantKeyOf Obj.tenantEnable 0) 1) (Obj.servePortModeS + 0) 1))))) 1).getD
    { num := 1, tenant := 0, port := 0, key := [7] }), _, (State.setObj (State.setObj
    ({ State.reset with beat := 0, dev := { state := 5 }, serve := { links := [true, true], nextSess := 2, sessions := [{ num := 1, tenant := 0, port := 0, key := [7] }] } })
    (tenantKeyOf Obj.tenantEnable 0) 1) (Obj.servePortModeS + 0) 1), by decide +kernel, by decide +kernel, by decide +kernel,
    rfl, by decide +kernel, by decide +kernel⟩,
   ⟨{ port := 0, version := 1, kind := 3, tenant := 0, session := 1, seq := 0, ack := 0, key := [7], body := ([4, 0, 0, 0, 0, 0, 0, 0, 5, 0, 0, 0, 9, 0, 0, 0] ++ List.replicate 48 0 ++ [65]) },
     { num := 1, tenant := 0, port := 0, key := [7] }, ((sessOf (takeAck 1 (Dgram.ack
     ({ port := 0, version := 1, kind := 3, tenant := 0, session := 1, seq := 0, ack := 0, key := [7], body := ([4, 0, 0, 0, 0, 0, 0, 0, 5, 0, 0, 0, 9, 0, 0, 0] ++ List.replicate 48 0 ++ [65]) })).toNat
     (modSess 1 (fun x => { x with rxNext := x.rxNext + 1 }) (modSess 1 (fun x => { x with due := true }) ((State.setObj
     (State.setObj ({ State.reset with beat := 0, dev := { state := 5 }, serve := { links := [true, true], nextSess := 2, sessions := [{ num := 1, tenant := 0, port := 0, key := [7] }], asm := [{ session := 1, req := 4, fixed := ([4, 0, 0, 0, 0, 0, 0, 0, 5, 0, 0, 0, 9, 0, 0, 0] ++ List.replicate 48 0 ++ []), stops := [], prompt := [(0, [65])], length := 5, arrival := 0 }] } })
     (tenantKeyOf Obj.tenantEnable 0) 1) (Obj.servePortModeS + 0) 1))))) 1).getD
     { num := 1, tenant := 0, port := 0, key := [7] }), _, [], [65], (State.setObj (State.setObj
     ({ State.reset with beat := 0, dev := { state := 5 }, serve := { links := [true, true], nextSess := 2, sessions := [{ num := 1, tenant := 0, port := 0, key := [7] }], asm := [{ session := 1, req := 4, fixed := ([4, 0, 0, 0, 0, 0, 0, 0, 5, 0, 0, 0, 9, 0, 0, 0] ++ List.replicate 48 0 ++ []), stops := [], prompt := [(0, [65])], length := 5, arrival := 0 }] } })
     (tenantKeyOf Obj.tenantEnable 0) 1) (Obj.servePortModeS + 0) 1), by decide +kernel, by decide +kernel,
     by decide +kernel, rfl, by decide +kernel, by decide +kernel, by decide +kernel, by decide +kernel, by decide +kernel,
     by decide +kernel⟩,
   ⟨{ port := 0, version := 1, kind := 3, tenant := 0, session := 1, seq := 0, ack := 0, key := [7], body := ([4, 0, 0, 0, 0, 0, 0, 0, 5, 0, 0, 0, 9, 0, 0, 0] ++ List.replicate 48 0 ++ [65]) },
     { num := 1, tenant := 0, port := 0, key := [7] }, ((sessOf (takeAck 1 (Dgram.ack
     ({ port := 0, version := 1, kind := 3, tenant := 0, session := 1, seq := 0, ack := 0, key := [7], body := ([4, 0, 0, 0, 0, 0, 0, 0, 5, 0, 0, 0, 9, 0, 0, 0] ++ List.replicate 48 0 ++ [65]) })).toNat
     (modSess 1 (fun x => { x with rxNext := x.rxNext + 1 }) (modSess 1 (fun x => { x with due := true }) ((State.setObj
     (State.setObj ({ State.reset with beat := 0, dev := { state := 5 }, serve := { links := [true, true], nextSess := 2, sessions := [{ num := 1, tenant := 0, port := 0, key := [7] }] } })
     (tenantKeyOf Obj.tenantEnable 0) 1) (Obj.servePortModeS + 0) 1))))) 1).getD
     { num := 1, tenant := 0, port := 0, key := [7] }), _, [], [65], _, (State.setObj (State.setObj
     ({ State.reset with beat := 0, dev := { state := 5 }, serve := { links := [true, true], nextSess := 2, sessions := [{ num := 1, tenant := 0, port := 0, key := [7] }] } })
     (tenantKeyOf Obj.tenantEnable 0) 1) (Obj.servePortModeS + 0) 1), by decide +kernel, by decide +kernel,
     by decide +kernel, rfl, by decide +kernel, by decide +kernel, by decide +kernel, by decide +kernel, by decide +kernel,
     by decide +kernel, rfl⟩,
   ⟨{ port := 0, version := 1, kind := 3, tenant := 0, session := 1, seq := 0, ack := 0, key := [7], body := ([4, 0, 0, 0, 0, 0, 0, 0, 5, 0, 0, 0, 9, 0, 0, 0] ++ List.replicate 48 0 ++ [65]) },
     { num := 1, tenant := 0, port := 0, key := [7] }, [], [65], (State.setObj (State.setObj
     ({ State.reset with beat := 0, dev := { state := 5 }, serve := { links := [true, true], nextSess := 2, sessions := [{ num := 1, tenant := 0, port := 0, key := [7] }] } })
     (tenantKeyOf Obj.tenantEnable 0) 1) (Obj.servePortModeS + 0) 1), by decide +kernel⟩,
   ⟨{ port := 0, version := 1, kind := 3, tenant := 0, session := 1, seq := 0, ack := 0, key := [7], body := ([4, 0, 0, 0, 0, 0, 0, 0, 1, 0, 0, 0, 9, 0, 0, 0] ++ List.replicate 8 0 ++ [0, 0, 0x80, 0x3F, 0, 0, 0, 0, 0, 0, 0x80, 0x3F] ++ List.replicate 28 0 ++ [65]) },
     { num := 1, tenant := 0, port := 0, key := [7] }, [], [65], (State.setObj (State.setObj (State.setObj
     ({ State.reset with beat := 0, dev := { state := 5 }, serve := { links := [true, true], nextSess := 2, sessions := [{ num := 1, tenant := 0, port := 0, key := [7] }] }, images := { slots := [(0, { state := 2, image := some { bareImage with routines := [[1], [2], [5]] } })] } })
     (tenantKeyOf Obj.tenantEnable 0) 1) (Obj.servePortModeS + 0) 1) (tenantKeyOf Obj.tenantSlotMask 0) 1),
     by decide +kernel⟩,
   ⟨{ port := 0, version := 1, kind := 3, tenant := 0, session := 1, seq := 0, ack := 0, key := [7], body := [1] },
     { num := 1, tenant := 0, port := 0, key := [7] }, (State.setObj (State.setObj
     ({ State.reset with beat := 0, dev := { state := 5 }, serve := { links := [true, true], nextSess := 2, sessions := [{ num := 1, tenant := 0, port := 0, key := [7] }] } })
     (tenantKeyOf Obj.tenantEnable 0) 1) (Obj.servePortModeS + 0) 1), by decide +kernel⟩,
   ⟨{ port := 0, version := 1, kind := 4, tenant := 0, session := 1, seq := 0, ack := 0, key := [7], body := [4] },
     { num := 1, tenant := 0, port := 0, key := [7] }, ((sessOf (takeAck 1 (Dgram.ack
     ({ port := 0, version := 1, kind := 4, tenant := 0, session := 1, seq := 0, ack := 0, key := [7], body := [4] })).toNat
     (modSess 1 (fun x => { x with rxNext := x.rxNext + 1 }) (modSess 1 (fun x => { x with due := true }) ((State.setObj
     (State.setObj ({ State.reset with beat := 0, dev := { state := 5 }, serve := { links := [true, true], nextSess := 2, sessions := [{ num := 1, tenant := 0, port := 0, key := [7] }] } })
     (tenantKeyOf Obj.tenantEnable 0) 1) (Obj.servePortModeS + 0) 1))))) 1).getD
     { num := 1, tenant := 0, port := 0, key := [7] }), _, (State.setObj (State.setObj
     ({ State.reset with beat := 0, dev := { state := 5 }, serve := { links := [true, true], nextSess := 2, sessions := [{ num := 1, tenant := 0, port := 0, key := [7] }] } })
     (tenantKeyOf Obj.tenantEnable 0) 1) (Obj.servePortModeS + 0) 1), by decide +kernel, by decide +kernel,
     by decide +kernel, rfl, by decide +kernel, by decide +kernel⟩,
   ⟨{ port := 0, version := 1, kind := 4, tenant := 0, session := 1, seq := 0, ack := 0, key := [7], body := [4, 0, 0, 0, 5, 0, 0, 0, 66] },
     { num := 1, tenant := 0, port := 0, key := [7] }, ((sessOf (takeAck 1 (Dgram.ack
     ({ port := 0, version := 1, kind := 4, tenant := 0, session := 1, seq := 0, ack := 0, key := [7], body := [4, 0, 0, 0, 5, 0, 0, 0, 66] })).toNat
     (modSess 1 (fun x => { x with rxNext := x.rxNext + 1 }) (modSess 1 (fun x => { x with due := true }) ((State.setObj
     (State.setObj ({ State.reset with beat := 0, dev := { state := 5 }, serve := { links := [true, true], nextSess := 2, sessions := [{ num := 1, tenant := 0, port := 0, key := [7] }], asm := [{ session := 1, req := 4, fixed := ([4, 0, 0, 0, 0, 0, 0, 0, 5, 0, 0, 0, 9, 0, 0, 0] ++ List.replicate 48 0 ++ []), stops := [], prompt := [(0, [65])], length := 5, arrival := 0 }] } })
     (tenantKeyOf Obj.tenantEnable 0) 1) (Obj.servePortModeS + 0) 1))))) 1).getD
     { num := 1, tenant := 0, port := 0, key := [7] }), _,
     { session := 1, req := 4, fixed := ([4, 0, 0, 0, 0, 0, 0, 0, 5, 0, 0, 0, 9, 0, 0, 0] ++ List.replicate 48 0 ++ []), stops := [], prompt := [(0, [65])], length := 5, arrival := 0 },
     (State.setObj (State.setObj ({ State.reset with beat := 0, dev := { state := 5 }, serve := { links := [true, true], nextSess := 2, sessions := [{ num := 1, tenant := 0, port := 0, key := [7] }], asm := [{ session := 1, req := 4, fixed := ([4, 0, 0, 0, 0, 0, 0, 0, 5, 0, 0, 0, 9, 0, 0, 0] ++ List.replicate 48 0 ++ []), stops := [], prompt := [(0, [65])], length := 5, arrival := 0 }] } })
     (tenantKeyOf Obj.tenantEnable 0) 1) (Obj.servePortModeS + 0) 1), by decide +kernel, by decide +kernel,
     by decide +kernel, rfl, by decide +kernel, by decide +kernel, by decide +kernel, by decide +kernel⟩,
   ⟨{ port := 0, version := 1, kind := 4, tenant := 0, session := 1, seq := 0, ack := 0, key := [7], body := [4, 0, 0, 0, 1, 0, 0, 0, 66] },
     { num := 1, tenant := 0, port := 0, key := [7] }, ((sessOf (takeAck 1 (Dgram.ack
     ({ port := 0, version := 1, kind := 4, tenant := 0, session := 1, seq := 0, ack := 0, key := [7], body := [4, 0, 0, 0, 1, 0, 0, 0, 66] })).toNat
     (modSess 1 (fun x => { x with rxNext := x.rxNext + 1 }) (modSess 1 (fun x => { x with due := true }) ((State.setObj
     (State.setObj ({ State.reset with beat := 0, dev := { state := 5 }, serve := { links := [true, true], nextSess := 2, sessions := [{ num := 1, tenant := 0, port := 0, key := [7] }], asm := [{ session := 1, req := 4, fixed := ([4, 0, 0, 0, 0, 0, 0, 0, 5, 0, 0, 0, 9, 0, 0, 0] ++ List.replicate 48 0 ++ []), stops := [], prompt := [(0, [65])], length := 5, arrival := 0 }] } })
     (tenantKeyOf Obj.tenantEnable 0) 1) (Obj.servePortModeS + 0) 1))))) 1).getD
     { num := 1, tenant := 0, port := 0, key := [7] }), _,
     { session := 1, req := 4, fixed := ([4, 0, 0, 0, 0, 0, 0, 0, 5, 0, 0, 0, 9, 0, 0, 0] ++ List.replicate 48 0 ++ []), stops := [], prompt := [(0, [65])], length := 5, arrival := 0 },
     (State.setObj (State.setObj ({ State.reset with beat := 0, dev := { state := 5 }, serve := { links := [true, true], nextSess := 2, sessions := [{ num := 1, tenant := 0, port := 0, key := [7] }], asm := [{ session := 1, req := 4, fixed := ([4, 0, 0, 0, 0, 0, 0, 0, 5, 0, 0, 0, 9, 0, 0, 0] ++ List.replicate 48 0 ++ []), stops := [], prompt := [(0, [65])], length := 5, arrival := 0 }] } })
     (tenantKeyOf Obj.tenantEnable 0) 1) (Obj.servePortModeS + 0) 1), by decide +kernel, by decide +kernel,
     by decide +kernel, rfl, by decide +kernel, by decide +kernel, by decide +kernel, by decide +kernel⟩,
   ⟨{ port := 0, version := 1, kind := 4, tenant := 0, session := 1, seq := 0, ack := 0, key := [7], body := [4, 0, 0, 0, 1, 0, 0, 0, 66] },
     { num := 1, tenant := 0, port := 0, key := [7] },
     { session := 1, req := 4, fixed := ([4, 0, 0, 0, 0, 0, 0, 0, 5, 0, 0, 0, 9, 0, 0, 0] ++ List.replicate 48 0 ++ []), stops := [], prompt := [(0, [65])], length := 5, arrival := 0 },
     (State.setObj (State.setObj ({ State.reset with beat := 0, dev := { state := 5 }, serve := { links := [true, true], nextSess := 2, sessions := [{ num := 1, tenant := 0, port := 0, key := [7] }], asm := [{ session := 1, req := 4, fixed := ([4, 0, 0, 0, 0, 0, 0, 0, 5, 0, 0, 0, 9, 0, 0, 0] ++ List.replicate 48 0 ++ []), stops := [], prompt := [(0, [65])], length := 5, arrival := 0 }] } })
     (tenantKeyOf Obj.tenantEnable 0) 1) (Obj.servePortModeS + 0) 1), by decide +kernel⟩,
   ⟨{ port := 0, version := 1, kind := 5, tenant := 0, session := 1, seq := 0, ack := 0, key := [7], body := [4] },
     { num := 1, tenant := 0, port := 0, key := [7] }, ((sessOf (takeAck 1 (Dgram.ack
     ({ port := 0, version := 1, kind := 5, tenant := 0, session := 1, seq := 0, ack := 0, key := [7], body := [4] })).toNat
     (modSess 1 (fun x => { x with rxNext := x.rxNext + 1 }) (modSess 1 (fun x => { x with due := true }) ((State.setObj
     (State.setObj ({ State.reset with beat := 0, dev := { state := 5 }, serve := { links := [true, true], nextSess := 2, sessions := [{ num := 1, tenant := 0, port := 0, key := [7] }], asm := [{ session := 1, req := 4, fixed := ([4, 0, 0, 0, 0, 0, 0, 0, 5, 0, 0, 0, 9, 0, 0, 0] ++ List.replicate 48 0 ++ []), stops := [], prompt := [(0, [65])], length := 5, arrival := 0 }] } })
     (tenantKeyOf Obj.tenantEnable 0) 1) (Obj.servePortModeS + 0) 1))))) 1).getD
     { num := 1, tenant := 0, port := 0, key := [7] }), _,
     { session := 1, req := 4, fixed := ([4, 0, 0, 0, 0, 0, 0, 0, 5, 0, 0, 0, 9, 0, 0, 0] ++ List.replicate 48 0 ++ []), stops := [], prompt := [(0, [65])], length := 5, arrival := 0 },
     (State.setObj (State.setObj ({ State.reset with beat := 0, dev := { state := 5 }, serve := { links := [true, true], nextSess := 2, sessions := [{ num := 1, tenant := 0, port := 0, key := [7] }], asm := [{ session := 1, req := 4, fixed := ([4, 0, 0, 0, 0, 0, 0, 0, 5, 0, 0, 0, 9, 0, 0, 0] ++ List.replicate 48 0 ++ []), stops := [], prompt := [(0, [65])], length := 5, arrival := 0 }] } })
     (tenantKeyOf Obj.tenantEnable 0) 1) (Obj.servePortModeS + 0) 1), by decide +kernel, by decide +kernel,
     by decide +kernel, rfl, by decide +kernel, by decide +kernel⟩,
   ⟨{ port := 0, version := 1, kind := 5, tenant := 0, session := 1, seq := 0, ack := 0, key := [7], body := [4] },
     { num := 1, tenant := 0, port := 0, key := [7] }, ((sessOf (takeAck 1 (Dgram.ack
     ({ port := 0, version := 1, kind := 5, tenant := 0, session := 1, seq := 0, ack := 0, key := [7], body := [4] })).toNat
     (modSess 1 (fun x => { x with rxNext := x.rxNext + 1 }) (modSess 1 (fun x => { x with due := true }) ((State.setObj
     (State.setObj ({ State.reset with beat := 0, dev := { state := 5 }, serve := { links := [true, true], nextSess := 2, sessions := [{ num := 1, tenant := 0, port := 0, key := [7] }] } })
     (tenantKeyOf Obj.tenantEnable 0) 1) (Obj.servePortModeS + 0) 1))))) 1).getD
     { num := 1, tenant := 0, port := 0, key := [7] }), _, (State.setObj (State.setObj
     ({ State.reset with beat := 0, dev := { state := 5 }, serve := { links := [true, true], nextSess := 2, sessions := [{ num := 1, tenant := 0, port := 0, key := [7] }] } })
     (tenantKeyOf Obj.tenantEnable 0) 1) (Obj.servePortModeS + 0) 1), by decide +kernel, by decide +kernel,
     by decide +kernel, rfl, by decide +kernel, by decide +kernel⟩,
   ⟨{ port := 0, version := 1, kind := 5, tenant := 0, session := 1, seq := 0, ack := 0, key := [7], body := [4] },
     { num := 1, tenant := 0, port := 0, key := [7] },
     { session := 1, req := 4, fixed := ([4, 0, 0, 0, 0, 0, 0, 0, 5, 0, 0, 0, 9, 0, 0, 0] ++ List.replicate 48 0 ++ []), stops := [], prompt := [(0, [65])], length := 5, arrival := 0 },
     (State.setObj (State.setObj ({ State.reset with beat := 0, dev := { state := 5 }, serve := { links := [true, true], nextSess := 2, sessions := [{ num := 1, tenant := 0, port := 0, key := [7] }], asm := [{ session := 1, req := 4, fixed := ([4, 0, 0, 0, 0, 0, 0, 0, 5, 0, 0, 0, 9, 0, 0, 0] ++ List.replicate 48 0 ++ []), stops := [], prompt := [(0, [65])], length := 5, arrival := 0 }] } })
     (tenantKeyOf Obj.tenantEnable 0) 1) (Obj.servePortModeS + 0) 1), by decide +kernel⟩,
   ⟨1, 4, State.reset, by decide +kernel⟩,
   ⟨1, 4, { session := 1, req := 4, fixed := ([4, 0, 0, 0, 0, 0, 0, 0, 5, 0, 0, 0, 9, 0, 0, 0] ++ List.replicate 48 0 ++ []), stops := [], prompt := [(0, [65])], length := 5, arrival := 0 },
     (State.setObj (State.setObj ({ State.reset with beat := 1000000000000000, dev := { state := 5 }, serve := { links := [true, true], nextSess := 2, sessions := [{ num := 1, tenant := 0, port := 0, key := [7] }], asm := [{ session := 1, req := 4, fixed := ([4, 0, 0, 0, 0, 0, 0, 0, 5, 0, 0, 0, 9, 0, 0, 0] ++ List.replicate 48 0 ++ []), stops := [], prompt := [(0, [65])], length := 5, arrival := 0 }] } })
     (tenantKeyOf Obj.tenantEnable 0) 1) (Obj.servePortModeS + 0) 1), by decide +kernel⟩,
   ⟨1, 4, { session := 1, req := 4, fixed := ([4, 0, 0, 0, 0, 0, 0, 0, 5, 0, 0, 0, 9, 0, 0, 0] ++ List.replicate 48 0 ++ []), stops := [], prompt := [(0, [65])], length := 5, arrival := 0 },
     (State.setObj (State.setObj ({ State.reset with beat := 1000000000000000, dev := { state := 5 }, serve := { links := [true, true], nextSess := 2, sessions := [{ num := 1, tenant := 0, port := 0, key := [7] }], asm := [{ session := 1, req := 4, fixed := ([4, 0, 0, 0, 0, 0, 0, 0, 5, 0, 0, 0, 9, 0, 0, 0] ++ List.replicate 48 0 ++ []), stops := [], prompt := [(0, [65])], length := 5, arrival := 0 }] } })
     (tenantKeyOf Obj.tenantEnable 0) 1) (Obj.servePortModeS + 0) 1), by decide +kernel⟩,
   ⟨1, 4, { num := 1, tenant := 0, port := 0, key := [7] },
     { session := 1, req := 4, fixed := ([4, 0, 0, 0, 0, 0, 0, 0, 5, 0, 0, 0, 9, 0, 0, 0] ++ List.replicate 48 0 ++ []), stops := [], prompt := [(0, [65])], length := 5, arrival := 0 },
     (State.setObj (State.setObj ({ State.reset with beat := 0, dev := { state := 5 }, serve := { links := [true, true], nextSess := 2, sessions := [{ num := 1, tenant := 0, port := 0, key := [7] }], asm := [{ session := 1, req := 4, fixed := ([4, 0, 0, 0, 0, 0, 0, 0, 5, 0, 0, 0, 9, 0, 0, 0] ++ List.replicate 48 0 ++ []), stops := [], prompt := [(0, [65])], length := 5, arrival := 0 }] } })
     (tenantKeyOf Obj.tenantEnable 0) 1) (Obj.servePortModeS + 0) 1), by decide +kernel⟩,
   ⟨{ session := 1, req := 4, fixed := ([4, 0, 0, 0, 0, 0, 0, 0, 5, 0, 0, 0, 9, 0, 0, 0] ++ List.replicate 48 0 ++ []), stops := [], prompt := [(0, [65])], length := 5, arrival := 0 },
     by decide +kernel⟩,
   ⟨{ session := 1, req := 4, fixed := ([4, 0, 0, 0, 0, 1, 0, 0, 5, 0, 0, 0, 9, 0, 0, 0] ++ List.replicate 48 0 ++ []), stops := [], prompt := [(0, [65])], length := 5, arrival := 0 },
     by decide +kernel⟩,
   ⟨{ num := 1, tenant := 0, port := 0, key := [7] },
     { session := 1, req := 4, fixed := ([4, 0, 0, 0, 0, 0, 0, 0, 5, 0, 0, 0, 9, 0, 0, 0] ++ List.replicate 48 0 ++ []), stops := [], prompt := [(0, [65])], length := 5, arrival := 0 },
     (State.setObj (State.setObj ({ State.reset with beat := 0, dev := { state := 5 }, serve := { links := [true, true], nextSess := 2, sessions := [{ num := 1, tenant := 0, port := 0, key := [7] }] } })
     (tenantKeyOf Obj.tenantEnable 0) 1) (Obj.servePortModeS + 0) 1), by decide +kernel⟩,
   ⟨{ num := 1, tenant := 0, port := 0, key := [7] },
     { session := 1, req := 4, fixed := ([4, 0, 0, 0, 0, 0, 0, 0, 1, 0, 0, 0, 9, 0, 0, 0] ++ List.replicate 8 0 ++ [0, 0, 0x80, 0x3F, 0, 0, 0, 0, 0, 0, 0x80, 0x3F] ++ List.replicate 28 0), stops := [], prompt := [(0, [65])], length := 1, arrival := 0, phase := 2, tokens := [3] },
     (State.setObj (State.setObj (State.setObj
     ({ State.reset with beat := 0, dev := { state := 5 }, serve := { links := [true, true], nextSess := 2, sessions := [{ num := 1, tenant := 0, port := 0, key := [7] }], asm := [{ session := 1, req := 4, fixed := ([4, 0, 0, 0, 0, 0, 0, 0, 1, 0, 0, 0, 9, 0, 0, 0] ++ List.replicate 8 0 ++ [0, 0, 0x80, 0x3F, 0, 0, 0, 0, 0, 0, 0x80, 0x3F] ++ List.replicate 28 0), stops := [], prompt := [(0, [65])], length := 1, arrival := 0, phase := 2, tokens := [3] }] }, images := { slots := [(0, { state := 2, image := some { bareImage with routines := [[1] ++ List.replicate 43 0 ++ [9], [2] ++ List.replicate 19 0 ++ [0, 2], [5], [6]] } })] } })
     (tenantKeyOf Obj.tenantEnable 0) 1) (Obj.servePortModeS + 0) 1) (tenantKeyOf Obj.tenantSlotMask 0) 1),
     { bareImage with routines := [[1] ++ List.replicate 43 0 ++ [9], [2] ++ List.replicate 19 0 ++ [0, 2], [5], [6]] },
     by decide +kernel⟩,
   ⟨3, 1, 4, State.reset, by decide +kernel⟩,
   ⟨3, 1, 4, State.reset, by decide +kernel⟩,
   ⟨3, 1, 4, { num := 1, tenant := 0, port := 0, key := [7] },
     { session := 1, req := 4, fixed := ([4, 0, 0, 0, 0, 0, 0, 0, 1, 0, 0, 0, 9, 0, 0, 0] ++ List.replicate 8 0 ++ [0, 0, 0x80, 0x3F, 0, 0, 0, 0, 0, 0, 0x80, 0x3F] ++ List.replicate 28 0), stops := [], prompt := [(0, [65])], length := 1, arrival := 0, phase := 1 },
     (State.setObj (State.setObj ({ State.reset with beat := 0, dev := { state := 5 }, serve := { links := [true, true], nextSess := 2, sessions := [{ num := 1, tenant := 0, port := 0, key := [7] }], asm := [{ session := 1, req := 4, fixed := ([4, 0, 0, 0, 0, 0, 0, 0, 1, 0, 0, 0, 9, 0, 0, 0] ++ List.replicate 8 0 ++ [0, 0, 0x80, 0x3F, 0, 0, 0, 0, 0, 0, 0x80, 0x3F] ++ List.replicate 28 0), stops := [], prompt := [(0, [65])], length := 1, arrival := 0, phase := 1 }] } })
     (tenantKeyOf Obj.tenantEnable 0) 1) (Obj.servePortModeS + 0) 1), by decide +kernel⟩,
   ⟨3, 1, 4, { num := 1, tenant := 0, port := 0, key := [7] },
     { session := 1, req := 4, fixed := ([4, 0, 0, 0, 0, 0, 0, 0, 1, 0, 0, 0, 9, 0, 0, 0] ++ List.replicate 8 0 ++ [0, 0, 0x80, 0x3F, 0, 0, 0, 0, 0, 0, 0x80, 0x3F] ++ List.replicate 28 0), stops := [], prompt := [(0, [65])], length := 1, arrival := 0, phase := 1 },
     ([1] ++ List.replicate 43 0 ++ [9]), _, _, (State.setObj (State.setObj (State.setObj
     ({ State.reset with beat := 0, dev := { state := 5 }, serve := { links := [true, true], nextSess := 2, sessions := [{ num := 1, tenant := 0, port := 0, key := [7] }], asm := [{ session := 1, req := 4, fixed := ([4, 0, 0, 0, 0, 0, 0, 0, 1, 0, 0, 0, 9, 0, 0, 0] ++ List.replicate 8 0 ++ [0, 0, 0x80, 0x3F, 0, 0, 0, 0, 0, 0, 0x80, 0x3F] ++ List.replicate 28 0), stops := [], prompt := [(0, [65])], length := 1, arrival := 0, phase := 1 }] }, images := { slots := [(0, { state := 2, image := some { bareImage with routines := [[1] ++ List.replicate 43 0 ++ [9], [2] ++ List.replicate 19 0 ++ [0, 2], [5], [6]] } })] } })
     (tenantKeyOf Obj.tenantEnable 0) 1) (Obj.servePortModeS + 0) 1) (tenantKeyOf Obj.tenantSlotMask 0) 1),
     by decide +kernel, by decide +kernel, by decide +kernel, by decide +kernel, by decide +kernel, rfl, rfl⟩,
   ⟨3, 1, 4, { num := 1, tenant := 0, port := 0, key := [7] },
     { session := 1, req := 4, fixed := ([4, 0, 0, 0, 0, 0, 0, 0, 1, 0, 0, 0, 9, 0, 0, 0] ++ List.replicate 8 0 ++ [0, 0, 0x80, 0x3F, 0, 0, 0, 0, 0, 0, 0x80, 0x3F] ++ List.replicate 28 0), stops := [], prompt := [(0, [65])], length := 1, arrival := 0, phase := 2, tokens := [3] },
     (State.setObj (State.setObj ({ State.reset with beat := 0, dev := { state := 5 }, serve := { links := [true, true], nextSess := 2, sessions := [{ num := 1, tenant := 0, port := 0, key := [7] }], asm := [{ session := 1, req := 4, fixed := ([4, 0, 0, 0, 0, 0, 0, 0, 1, 0, 0, 0, 9, 0, 0, 0] ++ List.replicate 8 0 ++ [0, 0, 0x80, 0x3F, 0, 0, 0, 0, 0, 0, 0x80, 0x3F] ++ List.replicate 28 0), stops := [], prompt := [(0, [65])], length := 1, arrival := 0, phase := 2, tokens := [3] }] } })
     (tenantKeyOf Obj.tenantEnable 0) 1) (Obj.servePortModeS + 0) 1), by decide +kernel⟩,
   ⟨3, 1, 4, { num := 1, tenant := 0, port := 0, key := [7] },
     { session := 1, req := 4, fixed := ([4, 0, 0, 0, 0, 0, 0, 0, 1, 0, 0, 0, 9, 0, 0, 0] ++ List.replicate 8 0 ++ [0, 0, 0x80, 0x3F, 0, 0, 0, 0, 0, 0, 0x80, 0x3F] ++ List.replicate 28 0), stops := [], prompt := [(0, [65])], length := 1, arrival := 0, phase := 2, tokens := [3] },
     (State.setObj (State.setObj (State.setObj
     ({ State.reset with beat := 0, dev := { state := 5 }, serve := { links := [true, true], nextSess := 2, sessions := [{ num := 1, tenant := 0, port := 0, key := [7] }], asm := [{ session := 1, req := 4, fixed := ([4, 0, 0, 0, 0, 0, 0, 0, 1, 0, 0, 0, 9, 0, 0, 0] ++ List.replicate 8 0 ++ [0, 0, 0x80, 0x3F, 0, 0, 0, 0, 0, 0, 0x80, 0x3F] ++ List.replicate 28 0), stops := [], prompt := [(0, [65])], length := 1, arrival := 0, phase := 2, tokens := [3] }] }, images := { slots := [(0, { state := 2, image := some { bareImage with routines := [[1] ++ List.replicate 43 0 ++ [9], [2] ++ List.replicate 19 0 ++ [0, 2], [5]] } })] } })
     (tenantKeyOf Obj.tenantEnable 0) 1) (Obj.servePortModeS + 0) 1) (tenantKeyOf Obj.tenantSlotMask 0) 1),
     by decide +kernel⟩,
   ⟨3, 1, 4, { num := 1, tenant := 0, port := 0, key := [7] },
     { session := 1, req := 4, fixed := ([4, 0, 0, 0, 0, 0, 0, 0, 1, 0, 0, 0, 9, 0, 0, 0] ++ List.replicate 8 0 ++ [0, 0, 0x80, 0x3F, 0, 0, 0, 0, 0, 0, 0x80, 0x3F] ++ List.replicate 28 0), stops := [], prompt := [(0, [65])], length := 1, arrival := 0, phase := 2, tokens := [3] },
     { bareImage with routines := [[1] ++ List.replicate 43 0 ++ [9], [2] ++ List.replicate 19 0 ++ [0, 2], [5], [6]] }, [6],
     _, (State.setObj (State.setObj (State.setObj
     ({ State.reset with beat := 0, dev := { state := 5 }, serve := { links := [true, true], nextSess := 2, sessions := [{ num := 1, tenant := 0, port := 0, key := [7] }], asm := [{ session := 1, req := 4, fixed := ([4, 0, 0, 0, 0, 0, 0, 0, 1, 0, 0, 0, 9, 0, 0, 0] ++ List.replicate 8 0 ++ [0, 0, 0x80, 0x3F, 0, 0, 0, 0, 0, 0, 0x80, 0x3F] ++ List.replicate 28 0), stops := [], prompt := [(0, [65])], length := 1, arrival := 0, phase := 2, tokens := [3] }] }, images := { slots := [(0, { state := 2, image := some { bareImage with routines := [[1] ++ List.replicate 43 0 ++ [9], [2] ++ List.replicate 19 0 ++ [0, 2], [5], [6]] } })] } })
     (tenantKeyOf Obj.tenantEnable 0) 1) (Obj.servePortModeS + 0) 1) (tenantKeyOf Obj.tenantSlotMask 0) 1),
     by decide +kernel, by decide +kernel, by decide +kernel, by decide +kernel, by decide +kernel, by decide +kernel, rfl⟩,
   ⟨6, 9, State.reset, by decide +kernel⟩,
   ⟨6, { id := 6, session := 1, tenant := 0, req := 4, slot := 0, maxTok := 9, temp := 0, topK := 0, topP := 0, minP := 0, penalty := 0, seed := 0, deadline := 5, stops := [], prompt := [3, 4], arrival := 0 },
     100, bareImage, _, _, _, _, _, (State.setObj (State.setObj
     ({ State.reset with beat := 0, dev := { state := 5 }, serve := { links := [true, true], nextSess := 2, sessions := [{ num := 1, tenant := 0, port := 0, key := [7] }], ctxs := [{ id := 6, session := 1, tenant := 0, req := 4, slot := 0, maxTok := 9, temp := 0, topK := 0, topP := 0, minP := 0, penalty := 0, seed := 0, deadline := 5, stops := [], prompt := [3, 4], arrival := 0 }] }, images := { slots := [(0, { state := 2, image := some bareImage })] } })
     (tenantKeyOf Obj.tenantEnable 0) 1) (Obj.servePortModeS + 0) 1), by decide +kernel, by decide +kernel,
     by decide +kernel, by decide +kernel, rfl, rfl, rfl, rfl, rfl⟩,
   ⟨6, { id := 6, session := 1, tenant := 0, req := 4, slot := 0, maxTok := 9, temp := 0, topK := 0, topP := 0, minP := 0, penalty := 0, seed := 0, deadline := 5, stops := [], prompt := [3, 4], arrival := 0 },
     100, bareImage, (State.setObj (State.setObj
     ({ State.reset with beat := 0, dev := { state := 5 }, serve := { links := [true, true], nextSess := 2, sessions := [{ num := 1, tenant := 0, port := 0, key := [7] }], ctxs := [{ id := 6, session := 1, tenant := 0, req := 4, slot := 0, maxTok := 9, temp := 0, topK := 0, topP := 0, minP := 0, penalty := 0, seed := 0, deadline := 5, stops := [], prompt := [3, 4], arrival := 0 }] }, images := { slots := [(0, { state := 2, image := some bareImage })] } })
     (tenantKeyOf Obj.tenantEnable 0) 1) (Obj.servePortModeS + 0) 1), by decide +kernel⟩,
   ⟨6, State.reset, by decide +kernel⟩,
   ⟨6, { id := 6, session := 1, tenant := 0, req := 4, slot := 0, maxTok := 9, temp := 0, topK := 0, topP := 0, minP := 0, penalty := 0, seed := 0, deadline := 5, stops := [], prompt := [3, 4], arrival := 0 },
     (State.setObj (State.setObj ({ State.reset with beat := 5, dev := { state := 5 }, serve := { links := [true, true], nextSess := 2, sessions := [{ num := 1, tenant := 0, port := 0, key := [7] }], ctxs := [{ id := 6, session := 1, tenant := 0, req := 4, slot := 0, maxTok := 9, temp := 0, topK := 0, topP := 0, minP := 0, penalty := 0, seed := 0, deadline := 5, stops := [], prompt := [3, 4], arrival := 0 }] }, images := { slots := [(0, { state := 2, image := some bareImage })] } })
     (tenantKeyOf Obj.tenantEnable 0) 1) (Obj.servePortModeS + 0) 1), by decide +kernel⟩,
   ⟨6, { id := 6, session := 1, tenant := 0, req := 4, slot := 0, maxTok := 9, temp := 0, topK := 0, topP := 0, minP := 0, penalty := 0, seed := 0, deadline := 5, stops := [], prompt := [3, 4], arrival := 0 },
     (State.setObj (State.setObj ({ State.reset with beat := 5, dev := { state := 5 }, serve := { links := [true, true], nextSess := 2, sessions := [{ num := 1, tenant := 0, port := 0, key := [7] }], ctxs := [{ id := 6, session := 1, tenant := 0, req := 4, slot := 0, maxTok := 9, temp := 0, topK := 0, topP := 0, minP := 0, penalty := 0, seed := 0, deadline := 5, stops := [], prompt := [3, 4], arrival := 0 }] }, images := { slots := [(0, { state := 2, image := some bareImage })] }, sched := { items := [{ id := 1, kind := 0, ctx := some 6, status := 1 }] } })
     (tenantKeyOf Obj.tenantEnable 0) 1) (Obj.servePortModeS + 0) 1), by decide +kernel⟩,
   ⟨6, { id := 6, session := 1, tenant := 0, req := 4, slot := 0, maxTok := 9, temp := 0, topK := 0, topP := 0, minP := 0, penalty := 0, seed := 0, deadline := 5, stops := [], prompt := [3, 4], arrival := 0 },
     (State.setObj (State.setObj ({ State.reset with beat := 5, dev := { state := 5 }, serve := { links := [true, true], nextSess := 2, sessions := [{ num := 1, tenant := 0, port := 0, key := [7] }], ctxs := [{ id := 6, session := 1, tenant := 0, req := 4, slot := 0, maxTok := 9, temp := 0, topK := 0, topP := 0, minP := 0, penalty := 0, seed := 0, deadline := 5, stops := [], prompt := [3, 4], arrival := 0 }] }, images := { slots := [(0, { state := 2, image := some bareImage })] } })
     (tenantKeyOf Obj.tenantEnable 0) 1) (Obj.servePortModeS + 0) 1), by decide +kernel⟩⟩

/-- The hypotheses of each clause of TimeSources can be met. -/
theorem witness_TimeSources :
    (∃ (interval : Nat) (ppb phase : Int) (s : State), (s.powered = false)) ∧
    (∃ (interval : Nat) (ppb phase : Int) (s : State), (s.powered = true) ∧ (2000 < ppb.natAbs)) ∧
    (∃ (interval : Nat) (ppb phase : Int) (n : Nat) (u v : State) (s : State), (s.powered = true) ∧ (ppb.natAbs ≤ 2000) ∧ (n
      = (if s.time.ppsGood ≠ 0 ∧ 999999900 ≤ interval ∧ interval ≤ 1000000100 then s.time.ppsGood + 1 else 1)) ∧ (u =
      { s with time := { s.time with ppsGood := min n 4 } }) ∧ (v = (if 4 ≤ n then gainSource 1 u else u)) ∧ (v.time.source ≠
      1)) ∧
    (∃ (interval : Nat) (ppb phase : Int) (n : Nat) (u v : State) (s : State), (s.powered = true) ∧ (ppb.natAbs ≤ 2000) ∧ (n
      = (if s.time.ppsGood ≠ 0 ∧ 999999900 ≤ interval ∧ interval ≤ 1000000100 then s.time.ppsGood + 1 else 1)) ∧ (u =
      { s with time := { s.time with ppsGood := min n 4 } }) ∧ (v = (if 4 ≤ n then gainSource 1 u else u)) ∧ (v.time.source =
      1) ∧ (v.time.refSecs = true)) ∧
    (∃ (interval : Nat) (ppb phase : Int) (n : Nat) (u v : State) (r : Int × Nat) (s : State), (s.powered = true) ∧
      (ppb.natAbs ≤ 2000) ∧ (n = (if s.time.ppsGood ≠ 0 ∧ 999999900 ≤ interval ∧ interval ≤ 1000000100 then s.time.ppsGood +
      1 else 1)) ∧ (u = { s with time := { s.time with ppsGood := min n 4 } }) ∧ (v = (if 4 ≤ n then gainSource 1 u else u))
      ∧ (v.time.source = 1) ∧ (v.time.refSecs = false) ∧ (r = refSeconds ((v.obj Obj.ppsDelayPs : Int) - phase) v)) ∧
    (∃ (interval : Nat) (ppb phase : Int) (s : State), (4 ≤ s.dev.state) ∧ (s.powered = true) ∧ (ppb.natAbs ≤ 2000) ∧
      (s.time.source = 1) ∧ (s.time.refSecs = true) ∧ ((tfind 1 s.time.valid).isSome = true) ∧ (((s.obj Obj.ppsDelayPs : Int)
      - phase).natAbs ≤ 1000 * s.obj Obj.beatSlewLimitNs)) ∧
    (∃ (s : State), (s.time.source = 1) ∧ (terase 1 s.time.valid = [])) ∧
    (∃ (s : State), (s.time.source = 2) ∧ (terase 2 s.time.valid = [])) ∧
    (∃ (offset : Int) (tai : Nat) (utc : Option W16) (master : W64) (s : State), (s.powered = false)) ∧
    (∃ (offset : Int) (tai : Nat) (utc : Option W16) (master : W64) (n : Nat) (offs : List Int) (u v w : State) (s : State),
      (s.powered = true) ∧ (n = (if s.time.master = master then s.time.ptpN else 0) + 1) ∧ (offs = ((1000 * ((tai : Int) -
      s.beat) + offset) :: (if s.time.master = master then s.time.ptpOff else [])).take 16) ∧ (u =
      { s with time := { s.time with master, ptpN := min n 16, ptpOff := offs } }) ∧ (v = utc.elim u (fun x => u.setObj
      Obj.utcOffsetS x.toNat)) ∧ (w = (if 16 ≤ n ∧ spread offs < 200000 then gainSource 2 v else v)) ∧ (w.time.source ≠ 2)) ∧
    (∃ (offset : Int) (tai : Nat) (utc : Option W16) (master : W64) (n : Nat) (offs : List Int) (u v w : State) (s : State),
      (s.powered = true) ∧ (n = (if s.time.master = master then s.time.ptpN else 0) + 1) ∧ (offs = ((1000 * ((tai : Int) -
      s.beat) + offset) :: (if s.time.master = master then s.time.ptpOff else [])).take 16) ∧ (u =
      { s with time := { s.time with master, ptpN := min n 16, ptpOff := offs } }) ∧ (v = utc.elim u (fun x => u.setObj
      Obj.utcOffsetS x.toNat)) ∧ (w = (if 16 ≤ n ∧ spread offs < 200000 then gainSource 2 v else v)) ∧ (w.time.source = 2)) ∧
    (∃ (offset : Int) (tai : Nat) (master : W64) (s : State), (s.powered = true) ∧ (s.time.source = 1 ∨ s.time.source = 3) ∧
      (s.time.master = master) ∧ (15 ≤ s.time.ptpN) ∧ (spread (((1000 * ((tai : Int) - s.beat) + offset) ::
      s.time.ptpOff).take 16) < 200000) ∧ (tfind 2 s.time.valid = none)) ∧
    (∃ (src : Fin 4) (s : State), (sourceUsable s src.val = true ∧ 0 < src.val ∧ src.val < s.time.source ∧ tget 0 src.val
      s.time.valid + 10000000000 ≤ s.beat)) ∧
    (∃ (src : Fin 4) (s : State), (¬(sourceUsable s src.val = true ∧ 0 < src.val ∧ src.val < s.time.source ∧ tget 0 src.val
      s.time.valid + 10000000000 ≤ s.beat))) ∧
    (∃ (b : Nat) (s : State), (s.time.within = some b) ∧ (s.time.source ≠ 0 ∧ s.time.state = 1 ∧ b + 1000000000 ≤ s.beat)) ∧
    (∃ (s : State), (∀ b ∈ s.time.within, ¬(s.time.source ≠ 0 ∧ s.time.state = 1 ∧ b + 1000000000 ≤ s.beat))) ∧
    (∃ (src : Nat) (s : State), (tfind src s.time.valid).isSome = true) ∧
    (∃ (src : Nat) (s : State), tfind src s.time.valid = none) ∧
    (∃ (b : Nat) (s : State), ([1, 2, 3] : List Nat).find? (sourceUsable s) = some b) ∧
    (∃ s : State, ([1, 2, 3] : List Nat).find? (sourceUsable s) = none) :=
  ⟨⟨1000000000, 0, 0, State.reset, by decide +kernel⟩,
   ⟨1000000000, 2001, 0, { State.reset with beat := 0, dev := { state := 5 }, time := { ppsGood := 3 } }, by decide +kernel⟩,
   ⟨1000000100, 0, 0, _, _, _, { State.reset with beat := 0, dev := { state := 5 }, time := { ppsGood := 3, source := 2 } },
     by decide +kernel, by decide +kernel, rfl, rfl, rfl, by decide +kernel⟩,
   ⟨1000000000, 0, 1000, _, _, _, { State.reset with beat := 0, dev := { state := 5 }, time := { ppsGood := 4, source := 1, refSecs := true, valid := [(1, 0)] } },
     by decide +kernel, by decide +kernel, rfl, rfl, rfl, by decide +kernel, by decide +kernel⟩,
   ⟨1000000000, 0, 1000, _, _, _, _, { State.reset with beat := 0, dev := { state := 5 }, time := { ppsGood := 4, source := 1, valid := [(1, 0)] } },
     by decide +kernel, by decide +kernel, rfl, rfl, rfl, by decide +kernel, by decide +kernel, rfl⟩,
   ⟨1000000000, 0, 1000, { State.reset with beat := 0, dev := { state := 5 }, time := { ppsGood := 4, source := 1, refSecs := true, valid := [(1, 0)] } },
     by decide +kernel⟩,
   ⟨{ State.reset with beat := 0, dev := { state := 5 }, time := { ppsGood := 4, source := 1, valid := [(1, 0)] } },
     by decide +kernel⟩,
   ⟨{ State.reset with beat := 0, dev := { state := 5 }, time := { ptpN := 3, source := 2, valid := [(2, 0)] } },
     by decide +kernel⟩,
   ⟨5, 100, none, 7, State.reset, by decide +kernel⟩,
   ⟨5, 100, none, 7, _, _, _, _, _, { State.reset with beat := 0, dev := { state := 5 }, time := { ptpN := 15, source := 1, master := 7 } },
     by decide +kernel, rfl, rfl, rfl, rfl, rfl, by decide +kernel⟩,
   ⟨5, 100, some 37, 7, _, _, _, _, _, { State.reset with beat := 0, dev := { state := 5 }, time := { ptpN := 16, source := 2, master := 7, valid := [(2, 0)] } },
     by decide +kernel, rfl, rfl, rfl, rfl, rfl, by decide +kernel⟩,
   ⟨5, 0, 7, { State.reset with beat := 0, dev := { state := 5 }, time := { ptpN := 15, source := 1, master := 7 } },
     by decide +kernel⟩,
   ⟨1, (State.setObj { State.reset with beat := 10000000000, dev := { state := 5 }, time := { source := 2, valid := [(1, 0), (2, 0)] } }
     Obj.timeSourceEnable 7), by decide +kernel⟩,
   ⟨1, State.reset, by decide +kernel⟩,
   ⟨0, { State.reset with beat := 1000000000, dev := { state := 5 }, time := { source := 2, state := 1, within := some 0 } },
     by decide +kernel⟩,
   ⟨State.reset, by decide +kernel⟩,
   ⟨1, { State.reset with beat := 0, dev := { state := 5 }, time := { valid := [(1, 0)] } }, by decide +kernel⟩,
   ⟨1, State.reset, by decide +kernel⟩,
   ⟨1, (State.setObj { State.reset with beat := 0, dev := { state := 5 }, time := { valid := [(1, 0)] } }
     Obj.timeSourceEnable 7), by decide +kernel⟩,
   ⟨State.reset, by decide +kernel⟩⟩

/-- The hypotheses of each clause of FabricTime can be met. -/
theorem witness_FabricTime :
    (∃ (p : PortId) (r : SyncRec) (t4 : Nat) (s : State), ((s.port p.val).state ≠ 2)) ∧
    (∃ (p : PortId) (r : SyncRec) (t4 : Nat) (u : State) (s : State), ((s.port p.val).state = 2) ∧ (u = takeUpstream
      (s.setPort p.val { (s.port p.val) with sync := some r, syncT3 := r.t3, syncT4 := t4, syncBeat := s.beat })) ∧
      (u.time.upstream = p.val) ∧ (r.t1 ≠ 0)) ∧
    (∃ (p : PortId) (r : SyncRec) (t4 : Nat) (u : State) (s : State), ((s.port p.val).state = 2) ∧ (u = takeUpstream
      (s.setPort p.val { (s.port p.val) with sync := some r, syncT3 := r.t3, syncT4 := t4, syncBeat := s.beat })) ∧
      (u.time.upstream ≠ p.val ∨ r.t1 = 0)) ∧
    (∃ (p : PortId) (r : SyncRec) (t4 : Nat) (s : State), ((s.port p.val).state = 2) ∧ (r.t1 = 0 ∨ isReference s = true)) ∧
    (∃ (p : PortId) (r : SyncRec) (t4 : Nat) (s : State), ((s.port p.val).state = 2) ∧ (r.t1 ≠ 0) ∧ (isReference s = false) ∧
      (r.refNode.toNat = refNode s) ∧ (refNode s ≠ 0xFFFF) ∧ (r.flags.toNat.testBit 2 = true) ∧ (r.hops.toNat ≤ 15) ∧ (∀ k, k
      < 16 → k ≠ p.val → (s.port k).sync = none) ∧ ((s.port p.val).delays = []) ∧ ((s.port p.val).offsets = []) ∧
      (s.time.source ≠ 3)) ∧
    (∃ (p : Nat) (s : State) (delay : Int), (s.port p).delays ≠ [] ∧ 262144 < (2 * delay - median2 (s.port p).delays).natAbs)
      ∧
    (∃ (p : Nat) (s : State) (delay : Int), ¬((s.port p).delays ≠ [] ∧ 262144 < (2 * delay - median2 (s.port
      p).delays).natAbs)) ∧
    (∃ (p : PortId) (s : State), ((s.port p.val).state = 2 ∧ (s.port p.val).syncSent + 1000 * s.obj Obj.beatSyncIntervalUs ≤
      s.beat)) ∧
    (∃ (p : PortId) (s : State), (¬((s.port p.val).state = 2 ∧ (s.port p.val).syncSent + 1000 * s.obj Obj.beatSyncIntervalUs
      ≤ s.beat))) ∧
    (∃ (s : State), (s.time.upstream = 0xFF ∨ ((s.port s.time.upstream).state = 2 ∧ ¬((s.port s.time.upstream).syncBeat +
      1000000 ≤ s.beat)))) ∧
    (∃ (u : State) (s : State), (s.time.upstream ≠ 0xFF) ∧ ((s.port s.time.upstream).state = 2) ∧ ((s.port
      s.time.upstream).syncBeat + 1000000 ≤ s.beat) ∧ (u = s.setPort s.time.upstream
      { (s.port s.time.upstream) with sync := none, delays := [], offsets := [] })) ∧
    (∃ (u : State) (s : State), (s.time.upstream ≠ 0xFF) ∧ ((s.port s.time.upstream).state ≠ 2) ∧ (u = s.setPort
      s.time.upstream { (s.port s.time.upstream) with sync := none, delays := [], offsets := [] }) ∧ ((chooseUpstream
      u).isSome = true)) ∧
    (∃ (u : State) (s : State), (s.time.upstream ≠ 0xFF) ∧ ((s.port s.time.upstream).state ≠ 2) ∧ (u = s.setPort
      s.time.upstream { (s.port s.time.upstream) with sync := none, delays := [], offsets := [] }) ∧ (chooseUpstream u =
      none)) ∧
    (∃ (h p : Nat) (s : State), chooseUpstream s = some (h, p)) ∧
    (∃ s : State, chooseUpstream s = none) ∧
    (∃ (site : SiteId) (edges : Fin 3) (s : State), (s.dev.state < 2 ∨ s.dev.state = 8 ∨ (∃ d ∈ siteDie site.val, (s.die
      d).off = true))) ∧
    (∃ (site : SiteId) (edges : Fin 3) (s : State), (2 ≤ s.dev.state) ∧ (s.dev.state ≠ 8) ∧ (siteDie site.val = none)) ∧
    (∃ (site : SiteId) (edges : Fin 3) (d : Nat) (s : State), (2 ≤ s.dev.state) ∧ (s.dev.state ≠ 8) ∧ (siteDie site.val =
      some d) ∧ ((s.die d).off = false)) ∧
    (∃ (die : DieId) (xing : List (Nat × List (Nat × Int))) (s : State), ((s.die die.val).want = none ∨ stepFree s die.val =
      false ∨ s.beat < (s.die die.val).stepBeat + 50000 ∨ s.power.input = 3)) ∧
    (∃ (die : DieId) (xing : List (Nat × List (Nat × Int))) (w : Nat) (s : State), ((s.die die.val).want = some w) ∧
      (stepFree s die.val = true) ∧ ((s.die die.val).stepBeat + 50000 ≤ s.beat) ∧ (s.power.input ≠ 3) ∧ ((calibrateDie
      die.val xing s).2 = true)) ∧
    (∃ (die : DieId) (xing : List (Nat × List (Nat × Int))) (w : Nat) (s : State), ((s.die die.val).want = some w) ∧
      (stepFree s die.val = true) ∧ ((s.die die.val).stepBeat + 50000 ≤ s.beat) ∧ (s.power.input ≠ 3) ∧ ((calibrateDie
      die.val xing s).2 = false)) :=
  ⟨⟨2, { flags := 7, refNode := 3, hops := 1, source := 2, utcOff := 37, t3 := 100, t1 := 0, t2 := 0, error := 0 }, 50,
    State.reset, by decide +kernel⟩,
   ⟨2, { flags := 7, refNode := 3, hops := 1, source := 2, utcOff := 37, t3 := 100, t1 := 40, t2 := 0, error := 0 }, 50, _,
     (State.setObj { State.reset with beat := 0, dev := { state := 5 }, time := { source := 2 }, ports := [(2, { state := 2 })] }
     Obj.syncReferenceNode 3), by decide +kernel, rfl, by decide +kernel, by decide +kernel⟩,
   ⟨2, { flags := 7, refNode := 3, hops := 1, source := 2, utcOff := 37, t3 := 100, t1 := 0, t2 := 0, error := 0 }, 50, _,
     { State.reset with beat := 0, dev := { state := 5 }, time := {  }, ports := [(2, { state := 2 })] }, by decide +kernel,
     rfl, by decide +kernel⟩,
   ⟨2, { flags := 7, refNode := 3, hops := 1, source := 2, utcOff := 37, t3 := 100, t1 := 0, t2 := 0, error := 0 }, 50,
     { State.reset with beat := 0, dev := { state := 5 }, time := {  }, ports := [(2, { state := 2 })] }, by decide +kernel⟩,
   ⟨2, { flags := 7, refNode := 3, hops := 1, source := 2, utcOff := 37, t3 := 100, t1 := 40, t2 := 0, error := 0 }, 50,
     (State.setObj { State.reset with beat := 0, dev := { state := 5 }, time := { source := 2 }, ports := [(2, { state := 2 })] }
     Obj.syncReferenceNode 3), by decide +kernel⟩,
   ⟨2, { State.reset with beat := 0, dev := { state := 5 }, time := {  }, ports := [(2, { state := 2, delays := [0] })] },
     200000, by decide +kernel⟩,
   ⟨2, State.reset, 0, by decide +kernel⟩,
   ⟨2, { State.reset with beat := 1000000000000, dev := { state := 5 }, time := {  }, ports := [(2, { state := 2 })] },
     by decide +kernel⟩,
   ⟨2, State.reset, by decide +kernel⟩,
   ⟨State.reset, by decide +kernel⟩,
   ⟨_, { State.reset with beat := 1000000, dev := { state := 5 }, time := { source := 1, upstream := 2, valid := [(3, 0)] }, ports := [(2, { state := 2 })] },
     by decide +kernel, by decide +kernel, by decide +kernel, rfl⟩,
   ⟨_, (State.setObj { State.reset with beat := 0, dev := { state := 5 }, time := { source := 1, upstream := 2, valid := [(3, 0)] }, ports := [(2, { state := 0 }), (3, { state := 2, sync := some { flags := 7, refNode := 3, hops := 1, source := 2, utcOff := 37, t3 := 100, t1 := 0, t2 := 0, error := 0 } })] }
     Obj.syncReferenceNode 3), by decide +kernel, by decide +kernel, rfl, by decide +kernel⟩,
   ⟨_, { State.reset with beat := 0, dev := { state := 5 }, time := { source := 1, upstream := 2, valid := [(3, 0)] }, ports := [(2, { state := 0 })] },
     by decide +kernel, by decide +kernel, rfl, by decide +kernel⟩,
   ⟨1, 3, (State.setObj { State.reset with beat := 0, dev := { state := 5 }, time := { source := 1, upstream := 2, valid := [(3, 0)] }, ports := [(2, { state := 0 }), (3, { state := 2, sync := some { flags := 7, refNode := 3, hops := 1, source := 2, utcOff := 37, t3 := 100, t1 := 0, t2 := 0, error := 0 } })] }
     Obj.syncReferenceNode 3), by decide +kernel⟩,
   ⟨State.reset, by decide +kernel⟩,
   ⟨12, 2, State.reset, by decide +kernel⟩,
   ⟨12, 2, { State.reset with beat := 0, dev := { state := 5 }, time := {  } }, by decide +kernel⟩,
   ⟨3, 2, 1, { State.reset with beat := 0, dev := { state := 5 }, time := {  }, cores := [(4, { state := 1 })] },
     by decide +kernel⟩,
   ⟨1, [], State.reset, by decide +kernel⟩,
   ⟨1, [], 900, { State.reset with beat := 1000000, dev := { state := 5 }, time := {  }, dies := [(1, { clock := 1000, want := some 900 })] },
     by decide +kernel⟩,
   ⟨1, [(1, [(255, 0)])], 900, { State.reset with beat := 1000000, dev := { state := 5 }, time := {  }, dies := [(1, { clock := 1000, want := some 900 })] },
     by decide +kernel⟩⟩

/-- The hypotheses of each clause of TallyLink can be met. -/
theorem witness_TallyLink :
    (∃ (s : State), (¬(s.powered = true ∧ s.dev.state ≠ 8 ∧ s.tallies.last + 1000000000 ≤ s.beat))) ∧
    (∃ (m : Tally) (kept : List Tally) (s : State), (s.powered = true ∧ s.dev.state ≠ 8 ∧ s.tallies.last + 1000000000 ≤
      s.beat) ∧ (m = sealTally { flags := if s.tallies.tested || s.test.unlocked then 1 else 0, seq := s.tallies.seq, beat := BitVec.ofNat 64 s.beat, entries := (s.serve.counts.filter (fun p => p.2 != (0, 0))).map (fun p => { tenant := BitVec.ofNat 16 p.1, input := BitVec.ofNat 32 p.2.1, output := BitVec.ofNat 32 p.2.2 }), jump := false, crc := 0 })
      ∧ (kept = (if s.tallies.unacked.length < tallyHeld then s.tallies.unacked else ((s.tallies.unacked.drop 1).take 1).map
      (fun x => { x with jump := true }) ++ s.tallies.unacked.drop 2))) ∧
    (∃ (seq : W32) (s : State), (s.tallies.unacked.any (fun m => decide (m.seq ≤ seq)) = true)) ∧
    (∃ (seq : W32) (s : State), (s.tallies.unacked.any (fun m => decide (m.seq ≤ seq)) = false)) ∧
    (∃ (s : State), (s.powered = true ∧ s.dev.state ≠ 8 ∧ s.tallies.unacked ≠ [] ∧ s.tallies.oldest + 100000000 ≤ s.beat)) ∧
    (∃ (s : State), (¬(s.powered = true ∧ s.dev.state ≠ 8 ∧ s.tallies.unacked ≠ [] ∧ s.tallies.oldest + 100000000 ≤ s.beat)))
      ∧
    (∃ (s : State), (s.powered = true ∧ s.dev.state ≠ 8 ∧ s.time.anchored = 2 ∧ s.tallies.timeSent + 3600000000000 ≤ s.beat))
      ∧
    (∃ (s : State), (¬(s.powered = true ∧ s.dev.state ≠ 8 ∧ s.time.anchored = 2 ∧ s.tallies.timeSent + 3600000000000 ≤
      s.beat))) ∧
    (∃ (m : Tally) (gap : Nat) (a b c : Pod) (u : State) (s : State), (s.pod.powered = true) ∧ (m.crc.toNat = crc32c
      (tallyBytes m)) ∧ (m.seq.toNat = ((s.pod.seqLast.map (fun l => l.toNat + 1)).getD 0) ∨ (m.jump = true ∧
      ((s.pod.seqLast.map (fun l => l.toNat + 1)).getD 0) < m.seq.toNat)) ∧ (gap = m.seq.toNat - ((s.pod.seqLast.map (fun l
      => l.toNat + 1)).getD 0)) ∧ (a = podGather s.pod.clock (fun y =>
      { y with counts := m.entries.foldl addCounts y.counts, gaps := y.gaps + gap }) { s.pod with seqLast := some m.seq }) ∧
      (b = (if 0 < gap then podFlag 5 a else a)) ∧ (c = (if m.beat.toNat + 2000000000 < s.beat then podFlag 6 b else b)) ∧ (u
      = { s with pod := tallySecond s.beat m c })) ∧
    (∃ (m : Tally) (s : State), (s.pod.powered = true) ∧ (m.crc.toNat = crc32c (tallyBytes m)) ∧ (m.seq.toNat =
      ((s.pod.seqLast.map (fun l => l.toNat + 1)).getD 0)) ∧ (s.beat ≤ m.beat.toNat + 2000000000) ∧ (m.flags.toNat.testBit 0
      = false) ∧ (s.pod.clock < intervalEnd s.pod)) ∧
    (∃ (m : Tally) (s : State), (s.pod.powered = true) ∧ (m.crc.toNat = crc32c (tallyBytes m)) ∧ (m.jump = true) ∧
      (((s.pod.seqLast.map (fun l => l.toNat + 1)).getD 0) < m.seq.toNat) ∧ (s.beat ≤ m.beat.toNat + 2000000000) ∧
      (m.flags.toNat.testBit 0 = false) ∧ (s.pod.clock < intervalEnd s.pod)) ∧
    (∃ (m : Tally) (s : State), (s.pod.powered = true) ∧ (m.crc.toNat = crc32c (tallyBytes m)) ∧ (m.seq.toNat <
      ((s.pod.seqLast.map (fun l => l.toNat + 1)).getD 0))) ∧
    (∃ (m : Tally) (s : State), (s.pod.powered = false ∨ m.crc.toNat ≠ crc32c (tallyBytes m) ∨ (((s.pod.seqLast.map (fun l =>
      l.toNat + 1)).getD 0) < m.seq.toNat ∧ m.jump = false))) ∧
    (∃ (utc : W64) (s : State), (s.pod.powered = false)) ∧
    (∃ (utc : W64) (s : State), (s.pod.powered = true) ∧ (s.pod.lost = true)) ∧
    (∃ (utc : W64) (s : State), (s.pod.powered = true) ∧ (s.pod.lost = false) ∧ (((utc.toNat : Int) - s.pod.clock).natAbs <
      1000000)) ∧
    (∃ (utc : W64) (q : Pod) (s : State), (s.pod.powered = true) ∧ (s.pod.lost = false) ∧ (1000000 ≤ ((utc.toNat : Int) -
      s.pod.clock).natAbs) ∧ (adjusted s.pod + ((utc.toNat : Int) - s.pod.clock).natAbs ≤ 2000000000) ∧ (q = (if
      s.pod.refusing then podFlag 4 s.pod else s.pod))) ∧
    (∃ (utc : W64) (s : State), (s.pod.powered = true) ∧ (s.pod.lost = false) ∧ (1000000 ≤ ((utc.toNat : Int) -
      s.pod.clock).natAbs) ∧ (adjusted s.pod + ((utc.toNat : Int) - s.pod.clock).natAbs ≤ 2000000000) ∧ (s.pod.refusing =
      false) ∧ (s.pod.clock < intervalEnd s.pod)) ∧
    (∃ (utc : W64) (s : State), (s.pod.powered = true) ∧ (s.pod.lost = false) ∧ (1000000 ≤ ((utc.toNat : Int) -
      s.pod.clock).natAbs) ∧ (2000000000 < adjusted s.pod + ((utc.toNat : Int) - s.pod.clock).natAbs)) ∧
    (∃ p : Pod, p.clock < intervalEnd p) ∧
    (∃ p : Pod, intervalEnd p ≤ p.clock) :=
  ⟨⟨State.reset, by decide +kernel⟩,
   ⟨_, _, { State.reset with beat := 1000000000, dev := { state := 5 }, pod := {  }, serve := { counts := [(3, 5, 6)] } },
     by decide +kernel, rfl, rfl⟩,
   ⟨4, { State.reset with beat := 7, tallies := { unacked := [(sealTally { flags := 0, seq := 4, beat := 0, entries := [{ tenant := 3, input := 5, output := 6 }], jump := false, crc := 0 }), (sealTally { flags := 0, seq := 5, beat := 0, entries := [{ tenant := 3, input := 5, output := 6 }], jump := false, crc := 0 })] } },
     by decide +kernel⟩,
   ⟨4, State.reset, by decide +kernel⟩,
   ⟨{ State.reset with beat := 100000000, dev := { state := 5 }, pod := {  }, tallies := { unacked := [(sealTally { flags := 0, seq := 4, beat := 0, entries := [{ tenant := 3, input := 5, output := 6 }], jump := false, crc := 0 }), (sealTally { flags := 0, seq := 5, beat := 0, entries := [{ tenant := 3, input := 5, output := 6 }], jump := false, crc := 0 })] } },
     by decide +kernel⟩,
   ⟨State.reset, by decide +kernel⟩,
   ⟨{ State.reset with beat := 3600000000000, dev := { state := 5 }, pod := {  }, time := { anchored := 2 } },
     by decide +kernel⟩,
   ⟨State.reset, by decide +kernel⟩,
   ⟨(sealTally { flags := 0, seq := 3, beat := 0, entries := [{ tenant := 3, input := 5, output := 6 }], jump := true, crc := 0 }),
     _, _, _, _, _, { State.reset with beat := 0, dev := { state := 5 }, pod := { powered := true } }, by decide +kernel,
     by decide +kernel, by decide +kernel, rfl, rfl, rfl, rfl, rfl⟩,
   ⟨(sealTally { flags := 0, seq := 0, beat := 0, entries := [{ tenant := 3, input := 5, output := 6 }], jump := false, crc := 0 }),
     { State.reset with beat := 0, dev := { state := 5 }, pod := { powered := true } }, by decide +kernel⟩,
   ⟨(sealTally { flags := 0, seq := 3, beat := 0, entries := [{ tenant := 3, input := 5, output := 6 }], jump := true, crc := 0 }),
     { State.reset with beat := 0, dev := { state := 5 }, pod := { powered := true } }, by decide +kernel⟩,
   ⟨(sealTally { flags := 0, seq := 0, beat := 0, entries := [{ tenant := 3, input := 5, output := 6 }], jump := false, crc := 0 }),
     { State.reset with beat := 0, dev := { state := 5 }, pod := { powered := true, seqLast := some 4 } },
     by decide +kernel⟩,
   ⟨(sealTally { flags := 0, seq := 3, beat := 0, entries := [{ tenant := 3, input := 5, output := 6 }], jump := false, crc := 0 }),
     { State.reset with beat := 0, dev := { state := 5 }, pod := { powered := true } }, by decide +kernel⟩,
   ⟨5000, State.reset, by decide +kernel⟩,
   ⟨5000, { State.reset with beat := 0, dev := { state := 5 }, pod := { powered := true, lost := true } },
     by decide +kernel⟩,
   ⟨999999, { State.reset with beat := 0, dev := { state := 5 }, pod := { powered := true } }, by decide +kernel⟩,
   ⟨1000000, _, { State.reset with beat := 0, dev := { state := 5 }, pod := { powered := true } }, by decide +kernel,
     by decide +kernel, by decide +kernel, by decide +kernel, rfl⟩,
   ⟨1000000, { State.reset with beat := 0, dev := { state := 5 }, pod := { powered := true } }, by decide +kernel⟩,
   ⟨2000000001, { State.reset with beat := 0, dev := { state := 5 }, pod := { powered := true } }, by decide +kernel⟩,
   ⟨{}, by decide +kernel⟩,
   ⟨{ clock := 900000000000 }, by decide +kernel⟩⟩

/-- The hypotheses of each clause of MeteringPod can be met. -/
theorem witness_MeteringPod :
    (∃ (uwh : Nat) (s : State), (¬(s.pod.powered = true ∧ intervalEnd s.pod ≤ s.pod.clock))) ∧
    (∃ (uwh : Nat) (s : State), (s.pod.powered = true ∧ intervalEnd s.pod ≤ s.pod.clock)) ∧
    (∃ (uwh : Nat) (s : State), (s.pod.powered = true ∧ intervalEnd s.pod ≤ s.pod.clock) ∧ ((s.pod.archive.map
      recordLength).sum + 96 + 16 * s.pod.counts.length + 64 ≤ 3 * 2 ^ 30)) ∧
    (∃ (uwh : Nat) (s : State), (s.pod.powered = true)) ∧
    (∃ (uwh : Nat) (s : State), (s.pod.powered = false)) ∧
    (∃ (clockNow : W64) (s : State), (s.pod.powered = true)) ∧
    (∃ (clockNow : W64) (s : State), (s.pod.powered = false) ∧ (s.pod.lostAt = none)) ∧
    (∃ (clockNow : W64) (l : Nat) (u : State) (s : State), (s.pod.powered = false) ∧ (s.pod.lostAt = some l) ∧ (u =
      { s with pod := { s.pod with powered := true, supply := 0, clock := if s.pod.lost then l else clockNow.toNat, lostAt := none, sealSt := if s.pod.resealed then 0 else s.pod.sealSt, resealed := false } }))
      ∧
    (∃ (lost now : Nat) (s : State), lost < intervalEnd s.pod ∧ now / quarterNs * quarterNs < intervalEnd s.pod) ∧
    (∃ (lost now : Nat) (s : State), lost < intervalEnd s.pod ∧ intervalEnd s.pod ≤ now / quarterNs * quarterNs) ∧
    (∃ (lost : Nat) (s u : State), intervalEnd s.pod ≤ lost ∧ u = closeInterval (intervalEnd s.pod - quarterNs) (intervalEnd
      s.pod) s ∧ lost < intervalEnd u.pod) ∧
    (∃ (s : State), (s.pod.supply = 1 ∧ s.pod.powered = false ∧ s.pod.lostAt.getD 0 + 259200000000000 ≤ s.pod.clock)) ∧
    (∃ (s : State), (¬(s.pod.supply = 1 ∧ s.pod.powered = false ∧ s.pod.lostAt.getD 0 + 259200000000000 ≤ s.pod.clock))) ∧
    (∃ (s : State), (s.pod.supply = 2 ∧ s.pod.powered = false)) ∧
    (∃ (s : State), (¬(s.pod.supply = 2 ∧ s.pod.powered = false))) ∧
    (∃ (s : State), (s.pod.coverOpen = false)) ∧
    (∃ (s : State), (s.pod.coverOpen = true)) ∧
    (∃ (s : State), (s.pod.coverOpen = true) ∧ (s.pod.verified = true)) ∧
    (∃ (s : State), (s.pod.coverOpen = true) ∧ (s.pod.verified = false)) ∧
    (∃ (s : State), (s.pod.coverOpen = false)) ∧
    (∃ (s : State), (s.pod.powered = true)) ∧
    (∃ (s : State), (s.pod.powered = false)) ∧
    (∃ (s : State), (s.pod.coverOpen = true) ∧ (s.pod.powered = true) ∧ (s.pod.calRun = 0)) ∧
    (∃ (s : State), (s.pod.coverOpen = false ∨ s.pod.powered = false ∨ s.pod.calRun ≠ 0)) ∧
    (∃ (s : State), (s.pod.coverOpen = true) ∧ (s.pod.powered = true) ∧ (s.pod.calRun = 0)) ∧
    (∃ (s : State), (s.pod.coverOpen = false ∨ s.pod.powered = false ∨ s.pod.calRun ≠ 0)) ∧
    (∃ (mv : Nat) (refOk : Bool) (temp : Int) (first repeated : List Int) (s : State), (s.pod.calRun ≠ 1)) ∧
    (∃ (mv : Nat) (refOk : Bool) (temp : Int) (first repeated : List Int) (s : State), (s.pod.calRun = 1) ∧ (runCode ⟨mv,
      refOk⟩ temp first repeated ≠ 0)) ∧
    (∃ (mv : Nat) (refOk : Bool) (temp : Int) (first repeated : List Int) (s : State), (s.pod.calRun ≠ 2)) ∧
    (∃ (mv : Nat) (refOk : Bool) (temp : Int) (first repeated : List Int) (s : State), (s.pod.calRun = 2) ∧ (runCode ⟨mv,
      refOk⟩ temp first repeated ≠ 0)) ∧
    (∃ (mv : Nat) (refOk : Bool) (temp : Int) (first repeated : List Int) (err : List Int) (worst : Nat) (s : State),
      (s.pod.calRun = 1) ∧ (runCode ⟨mv, refOk⟩ temp first repeated = 0) ∧ (err = measuredErrors first repeated) ∧ (worst =
      ((first ++ repeated).zip (err ++ err)).foldl (fun m x => max m (x.1 - x.2).natAbs) 0)) ∧
    (∃ (mv : Nat) (refOk : Bool) (temp : Int) (first repeated : List Int) (pts : List (Nat × Int)) (pass : Bool) (worst :
      Nat) (s : State), (s.pod.calRun = 2) ∧ (runCode ⟨mv, refOk⟩ temp first repeated = 0) ∧ (pts = (List.range 4).zip first
      ++ (List.range 4).zip repeated) ∧ (pass = pts.all (fun x => decide (x.2.natAbs ≤ pointLimit x.1))) ∧ (worst = pts.foldl
      (fun m x => max m (limitFraction x.1 x.2)) 0)) ∧
    (∃ (version : W32) (digest : Bytes) (s : State), (s.pod.coverOpen = true) ∧ (s.pod.powered = true)) ∧
    (∃ (version : W32) (digest : Bytes) (s : State), (s.pod.coverOpen = false ∨ s.pod.powered = false)) :=
  ⟨⟨5000, State.reset, by decide +kernel⟩,
   ⟨5000, { State.reset with beat := 0, dev := { state := 5 }, pod := { powered := true, clock := 900000000000, counts := [(3, 5, 6)] } },
     by decide +kernel⟩,
   ⟨5000, { State.reset with beat := 0, dev := { state := 5 }, pod := { powered := true, clock := 900000000000, counts := [(3, 5, 6)] } },
     by decide +kernel⟩,
   ⟨5, { State.reset with beat := 0, dev := { state := 5 }, pod := { powered := true } }, by decide +kernel⟩,
   ⟨5, State.reset, by decide +kernel⟩,
   ⟨5, { State.reset with beat := 0, dev := { state := 5 }, pod := { powered := true } }, by decide +kernel⟩,
   ⟨5, { State.reset with beat := 0, dev := { state := 5 }, pod := {  } }, by decide +kernel⟩,
   ⟨7000000000, 1000000000, _, { State.reset with beat := 0, dev := { state := 5 }, pod := { lostAt := some 1000000000 } },
     by decide +kernel, by decide +kernel, rfl⟩,
   ⟨0, 0, State.reset, by decide +kernel⟩,
   ⟨0, 1800000000000, State.reset, by decide +kernel⟩,
   ⟨900000000000, State.reset, _, by decide +kernel, rfl, by decide +kernel⟩,
   ⟨{ State.reset with beat := 0, dev := { state := 5 }, pod := { supply := 1, clock := 259200000000000 } },
     by decide +kernel⟩,
   ⟨{ State.reset with beat := 0, dev := { state := 5 }, pod := { powered := true } }, by decide +kernel⟩,
   ⟨{ State.reset with beat := 0, dev := { state := 5 }, pod := { supply := 2 } }, by decide +kernel⟩,
   ⟨{ State.reset with beat := 0, dev := { state := 5 }, pod := { powered := true } }, by decide +kernel⟩,
   ⟨{ State.reset with beat := 0, dev := { state := 5 }, pod := {  } }, by decide +kernel⟩,
   ⟨{ State.reset with beat := 0, dev := { state := 5 }, pod := { coverOpen := true } }, by decide +kernel⟩,
   ⟨{ State.reset with beat := 0, dev := { state := 5 }, pod := { coverOpen := true, verified := true } },
     by decide +kernel⟩,
   ⟨{ State.reset with beat := 0, dev := { state := 5 }, pod := { coverOpen := true } }, by decide +kernel⟩,
   ⟨{ State.reset with beat := 0, dev := { state := 5 }, pod := {  } }, by decide +kernel⟩,
   ⟨{ State.reset with beat := 0, dev := { state := 5 }, pod := { powered := true } }, by decide +kernel⟩,
   ⟨{ State.reset with beat := 0, dev := { state := 5 }, pod := {  } }, by decide +kernel⟩,
   ⟨{ State.reset with beat := 0, dev := { state := 5 }, pod := { coverOpen := true, powered := true } }, by decide +kernel⟩,
   ⟨{ State.reset with beat := 0, dev := { state := 5 }, pod := {  } }, by decide +kernel⟩,
   ⟨{ State.reset with beat := 0, dev := { state := 5 }, pod := { coverOpen := true, powered := true } }, by decide +kernel⟩,
   ⟨{ State.reset with beat := 0, dev := { state := 5 }, pod := {  } }, by decide +kernel⟩,
   ⟨380000, true, 300, [], [], { State.reset with beat := 0, dev := { state := 5 }, pod := {  } }, by decide +kernel⟩,
   ⟨380000, true, 300, [], [], { State.reset with beat := 0, dev := { state := 5 }, pod := { calRun := 1 } },
     by decide +kernel⟩,
   ⟨380000, true, 300, [], [], { State.reset with beat := 0, dev := { state := 5 }, pod := {  } }, by decide +kernel⟩,
   ⟨380000, true, 300, [], [], { State.reset with beat := 0, dev := { state := 5 }, pod := { calRun := 2 } },
     by decide +kernel⟩,
   ⟨380000, true, 250, [10, 20, 30, 40], [10, 22, 30, 40], _, _,
     { State.reset with beat := 0, dev := { state := 5 }, pod := { calRun := 1, coverOpen := true } }, by decide +kernel,
     by decide +kernel, rfl, rfl⟩,
   ⟨380000, true, 250, [10, 20, 30, 501], [10, 22, 30, 501], _, _, _,
     { State.reset with beat := 0, dev := { state := 5 }, pod := { calRun := 2, coverOpen := true } }, by decide +kernel,
     by decide +kernel, rfl, rfl, rfl⟩,
   ⟨7, [1, 2], { State.reset with beat := 0, dev := { state := 5 }, pod := { coverOpen := true, powered := true } },
     by decide +kernel⟩,
   ⟨7, [1, 2], { State.reset with beat := 0, dev := { state := 5 }, pod := {  } }, by decide +kernel⟩⟩

/-- The hypotheses of each clause of CheckValueUnits can be met. -/
theorem witness_CheckValueUnits :
    (∃ (u : CvuRef) (v : Byte) (s : State), (cvuHeld s u = true) ∧ (∀ n : Fin 8, u ≠ .hub n 30)) ∧
    (∃ (u : CvuRef) (v : W16) (s : State), (cvuHeld s u = true) ∧ (∀ n : Fin 8, u ≠ .hub n 30)) ∧
    (∃ (u : CvuRef) (v : W32) (s : State), (cvuHeld s u = true) ∧ (∀ n : Fin 8, u ≠ .hub n 30)) ∧
    (∃ (u : CvuRef) (v : W32) (s : State), (cvuHeld s u = true) ∧ (∀ n : Fin 8, u ≠ .hub n 30) ∧ (v.toNat.testBit 8 = false))
      ∧
    (∃ (u : CvuRef) (v : W32) (s : State), (cvuHeld s u = true) ∧ (∀ n : Fin 8, u ≠ .hub n 30) ∧ (v.toNat.testBit 8 = true))
      ∧
    (∃ (u : CvuRef) (v : W32) (s : State), (cvuHeld s u = true) ∧ (∀ n : Fin 8, u ≠ .hub n 30)) ∧
    (∃ (u : CvuRef) (v : W64) (s : State), (cvuHeld s u = true) ∧ (∀ n : Fin 8, u ≠ .hub n 30)) ∧
    (∃ (n : Fin 8) (agent : Nat) (v : Byte) (s : State), (2 ≤ s.dev.state ∧ s.dev.state ≠ 8) ∧ (29 ≤ agent ∧ agent ≤ 32) ∧
      (agent ≠ 30) ∧ ((s.cvu (256 + n.val)).owner = 0xFF) ∧ (v.toNat = agent)) ∧
    (∃ (n : Fin 8) (agent : Nat) (v : Byte) (s : State), (2 ≤ s.dev.state ∧ s.dev.state ≠ 8) ∧ (29 ≤ agent ∧ agent ≤ 32) ∧
      (agent ≠ 30) ∧ ((s.cvu (256 + n.val)).owner = agent) ∧ (v.toNat = 0xFF)) ∧
    (∃ (n : Fin 8) (agent : Nat) (v : Byte) (s : State), (2 ≤ s.dev.state ∧ s.dev.state ≠ 8) ∧ (29 ≤ agent ∧ agent ≤ 32) ∧
      (agent ≠ 30) ∧ ((s.cvu (256 + n.val)).owner ≠ 0xFF ∨ v.toNat ≠ agent) ∧ ((s.cvu (256 + n.val)).owner ≠ agent ∨ v.toNat
      ≠ 0xFF)) ∧
    (∃ (n : Fin 8) (agent : Nat) (v : Byte) (s : State), (2 ≤ s.dev.state ∧ s.dev.state ≠ 8) ∧ (29 ≤ agent ∧ agent ≤ 32) ∧
      (agent ≠ 30) ∧ ((s.cvu (256 + n.val)).owner ≠ agent)) ∧
    (∃ (u : CvuRef) (v : Byte) (s : State), (cvuReach s u = false)) ∧
    (∃ (n : Fin 8) (v : Byte) (s : State), (2 ≤ s.dev.state ∧ s.dev.state ≠ 8)) ∧
    (∃ (n : Fin 8) (agent : Nat) (v : W16) (s : State), (2 ≤ s.dev.state ∧ s.dev.state ≠ 8) ∧ (29 ≤ agent ∧ agent ≤ 32) ∧
      (agent ≠ 30) ∧ ((s.cvu (256 + n.val)).owner ≠ agent)) ∧
    (∃ (u : CvuRef) (v : W16) (s : State), (cvuReach s u = false)) ∧
    (∃ (n : Fin 8) (v : W16) (s : State), (2 ≤ s.dev.state ∧ s.dev.state ≠ 8)) ∧
    (∃ (n : Fin 8) (agent : Nat) (v : W32) (s : State), (2 ≤ s.dev.state ∧ s.dev.state ≠ 8) ∧ (29 ≤ agent ∧ agent ≤ 32) ∧
      (agent ≠ 30) ∧ ((s.cvu (256 + n.val)).owner ≠ agent)) ∧
    (∃ (u : CvuRef) (v : W32) (s : State), (cvuReach s u = false)) ∧
    (∃ (n : Fin 8) (v : W32) (s : State), (2 ≤ s.dev.state ∧ s.dev.state ≠ 8)) ∧
    (∃ (n : Fin 8) (agent : Nat) (v : W32) (s : State), (2 ≤ s.dev.state ∧ s.dev.state ≠ 8) ∧ (29 ≤ agent ∧ agent ≤ 32) ∧
      (agent ≠ 30) ∧ ((s.cvu (256 + n.val)).owner ≠ agent)) ∧
    (∃ (u : CvuRef) (v : W32) (s : State), (cvuReach s u = false)) ∧
    (∃ (n : Fin 8) (v : W32) (s : State), (2 ≤ s.dev.state ∧ s.dev.state ≠ 8)) ∧
    (∃ (n : Fin 8) (agent : Nat) (v : W32) (s : State), (2 ≤ s.dev.state ∧ s.dev.state ≠ 8) ∧ (29 ≤ agent ∧ agent ≤ 32) ∧
      (agent ≠ 30) ∧ ((s.cvu (256 + n.val)).owner ≠ agent)) ∧
    (∃ (u : CvuRef) (v : W32) (s : State), (cvuReach s u = false)) ∧
    (∃ (n : Fin 8) (v : W32) (s : State), (2 ≤ s.dev.state ∧ s.dev.state ≠ 8)) ∧
    (∃ (n : Fin 8) (agent : Nat) (v : W64) (s : State), (2 ≤ s.dev.state ∧ s.dev.state ≠ 8) ∧ (29 ≤ agent ∧ agent ≤ 32) ∧
      (agent ≠ 30) ∧ ((s.cvu (256 + n.val)).owner ≠ agent)) ∧
    (∃ (u : CvuRef) (v : W64) (s : State), (cvuReach s u = false)) ∧
    (∃ (n : Fin 8) (v : W64) (s : State), (2 ≤ s.dev.state ∧ s.dev.state ≠ 8)) ∧
    (∃ (n : Fin 8) (agent : Nat) (v : Byte) (s : State), (cvuReach s (.hub n agent) = false)) ∧
    (∃ (n : Fin 8) (v : Byte) (s : State), (2 ≤ s.dev.state ∧ s.dev.state ≠ 8)) :=
  ⟨⟨.whippet 3, 0x31, { State.reset with dev := { state := 5 }, cvus := [(3, { busy := 2 })] }, by decide +kernel⟩,
   ⟨.whippet 3, 0x31, { State.reset with dev := { state := 5 }, cvus := [(3, { busy := 2 })] }, by decide +kernel⟩,
   ⟨.whippet 3, 0x31, { State.reset with dev := { state := 5 }, cvus := [(3, { busy := 2 })] }, by decide +kernel⟩,
   ⟨.hub 2 29, 0x0F, { State.reset with dev := { state := 5 }, cvus := [(258, { owner := 29, reg := 0x12345 })] },
     by decide +kernel⟩,
   ⟨.whippet 2, 0x11F, { State.reset with dev := { state := 5 }, cvus := [(2, { init := 0xFFFFFFFF })] }, by decide +kernel⟩,
   ⟨.whippet 2, 0x1F, { State.reset with dev := { state := 5 }, cvus := [(2, { init := 0xFFFFFFFF })] }, by decide +kernel⟩,
   ⟨.whippet 2, 0x100000007, { State.reset with dev := { state := 5 } }, by decide +kernel⟩,
   ⟨2, 31, 31, { State.reset with dev := { state := 5 }, cvus := [(258, { owner := 255 })] }, by decide +kernel⟩,
   ⟨2, 29, 255, { State.reset with dev := { state := 5 }, cvus := [(258, { owner := 29 })] }, by decide +kernel⟩,
   ⟨2, 31, 31, { State.reset with dev := { state := 5 }, cvus := [(258, { owner := 29 })] }, by decide +kernel⟩,
   ⟨2, 31, 5, { State.reset with dev := { state := 5 }, cvus := [(258, { owner := 29 })] }, by decide +kernel⟩,
   ⟨.hub 2 7, 5, State.reset, by decide +kernel⟩,
   ⟨2, 5, { State.reset with dev := { state := 5 }, cvus := [(258, { owner := 29 })] }, by decide +kernel⟩,
   ⟨2, 31, 5, { State.reset with dev := { state := 5 }, cvus := [(258, { owner := 29 })] }, by decide +kernel⟩,
   ⟨.hub 2 7, 5, State.reset, by decide +kernel⟩,
   ⟨2, 5, { State.reset with dev := { state := 5 }, cvus := [(258, { owner := 29 })] }, by decide +kernel⟩,
   ⟨2, 31, 5, { State.reset with dev := { state := 5 }, cvus := [(258, { owner := 29 })] }, by decide +kernel⟩,
   ⟨.hub 2 7, 5, State.reset, by decide +kernel⟩,
   ⟨2, 5, { State.reset with dev := { state := 5 }, cvus := [(258, { owner := 29 })] }, by decide +kernel⟩,
   ⟨2, 31, 5, { State.reset with dev := { state := 5 }, cvus := [(258, { owner := 29 })] }, by decide +kernel⟩,
   ⟨.hub 2 7, 5, State.reset, by decide +kernel⟩,
   ⟨2, 5, { State.reset with dev := { state := 5 }, cvus := [(258, { owner := 29 })] }, by decide +kernel⟩,
   ⟨2, 31, 5, { State.reset with dev := { state := 5 }, cvus := [(258, { owner := 29 })] }, by decide +kernel⟩,
   ⟨.hub 2 7, 5, State.reset, by decide +kernel⟩,
   ⟨2, 5, { State.reset with dev := { state := 5 }, cvus := [(258, { owner := 29 })] }, by decide +kernel⟩,
   ⟨2, 31, 5, { State.reset with dev := { state := 5 }, cvus := [(258, { owner := 29 })] }, by decide +kernel⟩,
   ⟨.hub 2 7, 5, State.reset, by decide +kernel⟩,
   ⟨2, 5, { State.reset with dev := { state := 5 }, cvus := [(258, { owner := 29 })] }, by decide +kernel⟩,
   ⟨2, 7, 5, State.reset, by decide +kernel⟩,
   ⟨2, 30, { State.reset with dev := { state := 5 }, cvus := [(258, { owner := 29 })] }, by decide +kernel⟩⟩

/-- The hypotheses of each clause of KnownAnswerTests can be met. -/
theorem witness_KnownAnswerTests :
    (∃ (unit : Nat) (s : State), (s.obj Obj.katPeriodH ≠ 0 ∧ 3 ≤ s.dev.state ∧ s.dev.state ≤ 7 ∧ unit < 64 ∧ unit =
      nextUnfused s 0 64 s.kat.nextCore ∧ s.kat.lastCore + s.obj Obj.katPeriodH * 3600000000000 / 64 ≤ s.beat)) ∧
    (∃ (unit : Nat) (s : State), (s.obj Obj.katPeriodH ≠ 0 ∧ 3 ≤ s.dev.state ∧ s.dev.state ≤ 7 ∧ 64 ≤ unit ∧ unit < 320 ∧
      (unit - 64) % 16 = nextUnfused s (64 + 16 * (whipDie (unit - 64))) 16 (tget 0 (whipDie (unit - 64)) s.kat.nextWhip) ∧
      tget 0 (whipDie (unit - 64)) s.kat.lastWhip + s.obj Obj.katPeriodH * 3600000000000 / 16 ≤ s.beat)) ∧
    (∃ (unit : Nat) (s : State), (¬(s.obj Obj.katPeriodH ≠ 0 ∧ 3 ≤ s.dev.state ∧ s.dev.state ≤ 7 ∧ unit < 64 ∧ unit =
      nextUnfused s 0 64 s.kat.nextCore ∧ s.kat.lastCore + s.obj Obj.katPeriodH * 3600000000000 / 64 ≤ s.beat)) ∧ (¬(s.obj
      Obj.katPeriodH ≠ 0 ∧ 3 ≤ s.dev.state ∧ s.dev.state ≤ 7 ∧ 64 ≤ unit ∧ unit < 320 ∧ (unit - 64) % 16 = nextUnfused s (64
      + 16 * (whipDie (unit - 64))) 16 (tget 0 (whipDie (unit - 64)) s.kat.nextWhip) ∧ tget 0 (whipDie (unit - 64))
      s.kat.lastWhip + s.obj Obj.katPeriodH * 3600000000000 / 16 ≤ s.beat))) ∧
    (∃ (c : CoreId) (s : State), ((settleKat s).kat.core = some c.val ∧ (s.core c.val).state = 0 ∧ s.wins.any (fun w =>
      w.parts.getLsbD c.val) = false ∧ dieUp s (coreDie c.val) = true ∧ (s.die (coreDie c.val)).want = none)) ∧
    (∃ (c : CoreId) (s : State), (¬((settleKat s).kat.core = some c.val ∧ (s.core c.val).state = 0 ∧ s.wins.any (fun w =>
      w.parts.getLsbD c.val) = false ∧ dieUp s (coreDie c.val) = true ∧ (s.die (coreDie c.val)).want = none))) ∧
    (∃ (c : CoreId) (pass : Bool) (s : State), (¬((s.core c.val).state = 3 ∧ (s.core c.val).katAt + katLength (s.die (coreDie
      c.val)) ≤ s.beat))) ∧
    (∃ (c : CoreId) (s : State), ((s.core c.val).state = 3 ∧ (s.core c.val).katAt + katLength (s.die (coreDie c.val)) ≤
      s.beat) ∧ ((s.core c.val).katRepeat = false)) ∧
    (∃ (c : CoreId) (pass : Bool) (u : State) (s : State), ((s.core c.val).state = 3 ∧ (s.core c.val).katAt + katLength
      (s.die (coreDie c.val)) ≤ s.beat) ∧ (pass = true ∨ (s.core c.val).katRepeat = true) ∧ (u =
      { s.setCore c.val { s.core c.val with state := 0, katRepeat := false } with kat := { s.kat with core := none } })) ∧
    (∃ (c : CoreId) (s : State), ((s.core c.val).state = 3 ∧ (s.core c.val).katAt + katLength (s.die (coreDie c.val)) ≤
      s.beat) ∧ (s.kat.queue = []) ∧ (s.kat.running = [])) ∧
    (∃ (c : CoreId) (s : State), ((s.core c.val).state = 3 ∧ (s.core c.val).katAt + katLength (s.die (coreDie c.val)) ≤
      s.beat) ∧ ((s.core c.val).katRepeat = true) ∧ (s.kat.queue = []) ∧ (s.kat.running = [])) ∧
    (∃ (w : WhipId) (s : State), (nextWhipKat s (whipDie w.val) = some w.val ∧ (s.whip w.val).state = 0 ∧ dieUp s (whipDie
      w.val) = true ∧ (List.range 16).all (fun j => (s.whip (16 * whipDie w.val + j)).state != 2) = true)) ∧
    (∃ (w : WhipId) (s : State), (¬(nextWhipKat s (whipDie w.val) = some w.val ∧ (s.whip w.val).state = 0 ∧ dieUp s (whipDie
      w.val) = true ∧ (List.range 16).all (fun j => (s.whip (16 * whipDie w.val + j)).state != 2) = true))) ∧
    (∃ (w : WhipId) (pass : Bool) (s : State), ((s.whip w.val).state ≠ 2)) ∧
    (∃ (w : WhipId) (s : State), ((s.whip w.val).state = 2) ∧ ((s.whip w.val).katRepeat = false)) ∧
    (∃ (w : WhipId) (pass : Bool) (s : State), ((s.whip w.val).state = 2) ∧ (pass = true ∨ (s.whip w.val).katRepeat = true))
      ∧
    (∃ (w : WhipId) (s : State), ((s.whip w.val).state = 2) ∧ (s.kat.running = [])) ∧
    (∃ (w : WhipId) (s : State), ((s.whip w.val).state = 2) ∧ ((s.whip w.val).katRepeat = true) ∧ (s.kat.running = [])) ∧
    (∃ (s : State), (s.test.unlocked = true ∧ s.test.since + s.obj Obj.testModeMaxS * 1000000000 ≤ s.beat)) ∧
    (∃ (s : State), (¬(s.test.unlocked = true ∧ s.test.since + s.obj Obj.testModeMaxS * 1000000000 ≤ s.beat))) ∧
    (∃ (site : SiteId) (unit : W16) (kind : Byte) (payload : Bytes) (s : State), (0 < kind.toNat ∧ kind.toNat ≤ 0x0C ∧
      s.beagle.state = 1 ∧ (s.obj Obj.beagleSourceMask).testBit (kind.toNat - 1) = true) ∧ ((tget [] site.val
      s.beagle.queues).length < traceQueueLen)) ∧
    (∃ (site : SiteId) (unit : W16) (kind : Byte) (payload : Bytes) (s : State), (0 < kind.toNat ∧ kind.toNat ≤ 0x0C ∧
      s.beagle.state = 1 ∧ (s.obj Obj.beagleSourceMask).testBit (kind.toNat - 1) = true) ∧ (traceQueueLen ≤ (tget [] site.val
      s.beagle.queues).length)) ∧
    (∃ (site : SiteId) (unit : W16) (kind : Byte) (payload : Bytes) (s : State), (¬(0 < kind.toNat ∧ kind.toNat ≤ 0x0C ∧
      s.beagle.state = 1 ∧ (s.obj Obj.beagleSourceMask).testBit (kind.toNat - 1) = true))) ∧
    (∃ (u : State) (s : State), (s.log.secondNo < s.beat / 1000000000) ∧ (u = s.log.second.foldl (fun v r => if 0 < r.2.2.1
      then logWrite r.1.1 r.2.2.2 r.1.2.2.2 r.1.2.1 r.1.2.2.1 4 (leBytes 4 r.2.2.1) v else v) s)) ∧
    (∃ (s : State), (s.log.secondNo < s.beat / 1000000000) ∧ (s.log.second.all (fun r => r.2.2.1 == 0) = true)) ∧
    (∃ (s : State), (¬(s.log.secondNo < s.beat / 1000000000))) :=
  ⟨⟨3, { State.reset with beat := 10 ^ 18, dev := { state := 5 }, kat := { nextCore := 3 } }, by decide +kernel⟩,
   ⟨81, { State.reset with beat := 10 ^ 18, dev := { state := 5 }, kat := { nextWhip := [(1, 1)] } }, by decide +kernel⟩,
   ⟨3, State.reset, by decide +kernel⟩,
   ⟨5, { State.reset with beat := 9, dev := { state := 5 }, kat := { queue := [{ unit := 5, prio := 4, answer := none }] } },
     by decide +kernel⟩,
   ⟨5, State.reset, by decide +kernel⟩,
   ⟨5, true, { State.reset with cores := [(5, { state := 3 })] }, by decide +kernel⟩,
   ⟨5, { State.reset with beat := 4800000000, dev := { state := 5 }, cores := [(5, { state := 3 })], kat := { core := some 5 } },
     by decide +kernel⟩,
   ⟨5, true, _, { State.reset with beat := 4800000000, dev := { state := 5 }, cores := [(5, { state := 3, katRepeat := true })], kat := { core := some 5 } },
     by decide +kernel, by decide +kernel, rfl⟩,
   ⟨5, { State.reset with beat := 4800000000, dev := { state := 5 }, cores := [(5, { state := 3 })], kat := { core := some 5 } },
     by decide +kernel⟩,
   ⟨5, { State.reset with beat := 4800000000, dev := { state := 5 }, cores := [(5, { state := 3, katRepeat := true })], kat := { core := some 5 } },
     by decide +kernel⟩,
   ⟨17, { State.reset with dev := { state := 5 }, kat := { queue := [{ unit := 81, prio := 4, answer := none }] } },
     by decide +kernel⟩,
   ⟨17, State.reset, by decide +kernel⟩,
   ⟨17, true, State.reset, by decide +kernel⟩,
   ⟨17, { State.reset with dev := { state := 5 }, whips := [(17, { state := 2 })] }, by decide +kernel⟩,
   ⟨17, true, { State.reset with dev := { state := 5 }, whips := [(17, { state := 2 })] }, by decide +kernel⟩,
   ⟨17, { State.reset with dev := { state := 5 }, whips := [(17, { state := 2, katRepeat := true })] }, by decide +kernel⟩,
   ⟨17, { State.reset with dev := { state := 5 }, whips := [(17, { state := 2, katRepeat := true })] }, by decide +kernel⟩,
   ⟨{ State.reset with beat := 10 ^ 15, test := { unlocked := true }, strings := [(3, { inject := { mode := 2 } })] },
     by decide +kernel⟩,
   ⟨State.reset, by decide +kernel⟩,
   ⟨3, 9, 7, [1], (State.setObj { State.reset with beagle := { state := 1 } } Obj.beagleSourceMask 0xFFF),
     by decide +kernel⟩,
   ⟨3, 9, 7, [1], (State.setObj { State.reset with beagle := { state := 1, queues := [(3, List.replicate traceQueueLen { beat := 0, kind := 1, site := 3, unit := 0, lost := false, seq := 0, payload := [] })] } }
     Obj.beagleSourceMask 0xFFF), by decide +kernel⟩,
   ⟨3, 9, 0, [1], State.reset, by decide +kernel⟩,
   ⟨_, { State.reset with beat := 10 ^ 9 }, by decide +kernel, rfl⟩,
   ⟨{ State.reset with beat := 10 ^ 9 }, by decide +kernel⟩,
   ⟨State.reset, by decide +kernel⟩⟩

/-- The hypotheses of each clause of ImageSlots can be met. -/
theorem witness_ImageSlots :
    (∃ (slot : SlotId) (s : State), (¬((s.imgSlot slot.val).state = 1 ∧ s.images.order.head? = some slot.val ∧ ((s.dev.state
      = 2 ∧ s.dev.started = true) ∨ (3 ≤ s.dev.state ∧ s.dev.state ≤ 7))))) ∧
    (∃ (slot : SlotId) (u : State) (s : State), ((s.imgSlot slot.val).state = 1 ∧ s.images.order.head? = some slot.val ∧
      ((s.dev.state = 2 ∧ s.dev.started = true) ∨ (3 ≤ s.dev.state ∧ s.dev.state ≤ 7))) ∧ (u =
      { s with images := { s.images with order := s.images.order.drop 1 } }) ∧ (s.images.store.find? (fun im => im.digest ==
      (s.imgSlot slot.val).digest) = none)) ∧
    (∃ (slot : SlotId) (im : Image) (u : State) (s : State), ((s.imgSlot slot.val).state = 1 ∧ s.images.order.head? = some
      slot.val ∧ ((s.dev.state = 2 ∧ s.dev.started = true) ∨ (3 ≤ s.dev.state ∧ s.dev.state ≤ 7))) ∧ (u =
      { s with images := { s.images with order := s.images.order.drop 1 } }) ∧ (s.images.store.find? (fun im => im.digest ==
      (s.imgSlot slot.val).digest) = some im) ∧ (loadResult u im slot.val ≠ 0)) ∧
    (∃ (slot : SlotId) (im : Image) (pages : List Nat) (cols : List CollRes) (u v : State) (s : State), ((s.imgSlot
      slot.val).state = 1 ∧ s.images.order.head? = some slot.val ∧ ((s.dev.state = 2 ∧ s.dev.started = true) ∨ (3 ≤
      s.dev.state ∧ s.dev.state ≤ 7))) ∧ (u = { s with images := { s.images with order := s.images.order.drop 1 } }) ∧
      (s.images.store.find? (fun im => im.digest == (s.imgSlot slot.val).digest) = some im) ∧ (loadResult u im slot.val = 0)
      ∧ ((allocPages (.image slot.val) (imgDramPages im) u).map (fun x => x.1) = some pages) ∧ (v = ((allocPages (.image
      slot.val) (imgDramPages im) u).elim u (fun x => x.2))) ∧ (placeColls u slot.val im.collectives s.fabric.colRes = some
      cols)) ∧
    (∃ (slot : SlotId) (s : State), ((s.imgSlot slot.val).state = 3 ∧ slotQuiet s slot.val = true)) ∧
    (∃ (slot : SlotId) (s : State), (¬((s.imgSlot slot.val).state = 3 ∧ slotQuiet s slot.val = true))) ∧
    (∃ (die : DieId) (u : State) (s : State), ((s.die die.val).sbLost = true ∧ (s.die die.val).off = false ∧ (s.die
      die.val).reset = none) ∧ (u = (s.die die.val).parts.foldl (fun v p => (imageOf v p.slot).elim v (fun im =>
      (im.sections.filter (fun x => x.kind.toNat == 8 && x.target.toNat == die.val)).foldl (placeSection p.slot) v)) s)) ∧
    (∃ (die : DieId) (s : State), ((s.die die.val).sbLost = true ∧ (s.die die.val).off = false ∧ (s.die die.val).reset =
      none) ∧ ((s.die die.val).parts = [])) ∧
    (∃ (die : DieId) (s : State), (¬((s.die die.val).sbLost = true ∧ (s.die die.val).off = false ∧ (s.die die.val).reset =
      none))) :=
  ⟨⟨2, State.reset, by decide +kernel⟩,
   ⟨2, _, { State.reset with dev := { state := 5 }, images := { order := [2], store := [], slots := [(2, { state := 1, digest := [5] })] } },
     by decide +kernel, rfl, by decide +kernel⟩,
   ⟨2, { bareImage with digest := [5] }, _,
     { State.reset with dev := { state := 5 }, images := { order := [2], store := [{ bareImage with digest := [5] }], slots := [(2, { state := 1, digest := [5] })] } },
     by decide +kernel, rfl, by decide +kernel, by decide +kernel⟩,
   ⟨2, loadableImage, [], [], _, _, (State.setObjB
     { State.reset with dev := { state := 5 }, images := { order := [2], store := [loadableImage], slots := [(2, { state := 1, digest := [5] })] } }
     Obj.imageTrustKeyK (List.replicate 32 1)), by decide +kernel, rfl, by decide +kernel, by decide +kernel,
     by decide +kernel, rfl, by decide +kernel⟩,
   ⟨2, { State.reset with dev := { state := 5 }, images := { order := [2], store := [], slots := [(2, { state := 3, digest := [5], image := some bareImage, job := 4 })] }, rmem := { loader := [(3, 2)] } },
     by decide +kernel⟩,
   ⟨2, State.reset, by decide +kernel⟩,
   ⟨2, _, { State.reset with dies := [(2, { sbLost := true })] }, by decide +kernel, rfl⟩,
   ⟨2, { State.reset with dies := [(2, { sbLost := true })] }, by decide +kernel⟩,
   ⟨2, State.reset, by decide +kernel⟩⟩

/-- The hypotheses of each clause of ControllerPair can be met. -/
theorem witness_ControllerPair :
    (∃ (mv w : Nat) (agree : Bool) (s : State), (¬(s.dev.state ≠ 0 ∧ s.dev.state ≠ 8))) ∧
    (∃ (mv w : Nat) (v u : State) (s : State), (s.dev.state ≠ 0 ∧ s.dev.state ≠ 8) ∧ (s.pair.state = 0) ∧ (s.pair.recover =
      none) ∧ (s.pair.phase ≠ 1 ∧ s.pair.phase ≠ 2) ∧ (v = (if s.dev.state = 1 then s else notePower mv w s)) ∧ (u =
      { v with pair := { s.pair with cycle := s.pair.cycle + 1, lastCycle := s.beat } })) ∧
    (∃ (mv w : Nat) (s : State), (s.dev.state ≠ 0 ∧ s.dev.state ≠ 8) ∧ (s.pair.state = 0) ∧ (s.pair.recover = none) ∧
      (s.pair.phase = 0)) ∧
    (∃ (mv w : Nat) (s : State), (s.dev.state ≠ 0 ∧ s.dev.state ≠ 8) ∧ (s.pair.state = 0) ∧ (s.pair.recover = none) ∧
      (s.pair.phase = 3)) ∧
    (∃ (mv w : Nat) (v u : State) (s : State), (s.dev.state ≠ 0 ∧ s.dev.state ≠ 8) ∧ (s.pair.state = 0) ∧ (s.pair.recover =
      none) ∧ (s.pair.phase ≠ 1 ∧ s.pair.phase ≠ 2) ∧ (v = (if s.dev.state = 1 then s else notePower mv w s)) ∧ (u =
      { v with pair := { s.pair with cycle := s.pair.cycle + 1, lastCycle := s.beat } })) ∧
    (∃ (mv w : Nat) (s : State), (s.dev.state ≠ 0 ∧ s.dev.state ≠ 8) ∧ (s.pair.state = 0) ∧ (s.pair.recover = none) ∧
      (s.pair.phase ≠ 1 ∧ s.pair.phase ≠ 2) ∧ (s.pair.second = false)) ∧
    (∃ (mv w : Nat) (s : State), (s.dev.state ≠ 0 ∧ s.dev.state ≠ 8) ∧ (s.pair.state = 0) ∧ (s.pair.recover = none) ∧
      (s.pair.phase ≠ 1 ∧ s.pair.phase ≠ 2) ∧ (s.pair.second = true)) ∧
    (∃ (mv w : Nat) (agree : Bool) (v u : State) (s : State), (s.dev.state ≠ 0 ∧ s.dev.state ≠ 8) ∧ (s.pair.state ≠ 0) ∧ (v =
      (if s.dev.state = 1 then s else notePower mv w s)) ∧ (u =
      { v with pair := { s.pair with cycle := s.pair.cycle + 1, lastCycle := s.beat } })) ∧
    (∃ (mv w : Nat) (agree : Bool) (v u : State) (s : State), (s.dev.state ≠ 0 ∧ s.dev.state ≠ 8) ∧ (s.pair.state = 0) ∧
      (s.pair.recover.isSome = true) ∧ (v = (if s.dev.state = 1 then s else notePower mv w s)) ∧ (u =
      { v with pair := { s.pair with cycle := s.pair.cycle + 1, lastCycle := s.beat } })) ∧
    (∃ (mv w : Nat) (agree : Bool) (v u : State) (s : State), (s.dev.state ≠ 0 ∧ s.dev.state ≠ 8) ∧ (s.pair.state = 0) ∧
      (s.pair.recover = none) ∧ (s.pair.phase = 1) ∧ (v = (if s.dev.state = 1 then s else notePower mv w s)) ∧ (u =
      { v with pair := { s.pair with cycle := s.pair.cycle + 1, lastCycle := s.beat } })) ∧
    (∃ (mv w : Nat) (agree : Bool) (v u : State) (x : State) (s : State), (s.dev.state ≠ 0 ∧ s.dev.state ≠ 8) ∧ (s.pair.state
      = 0) ∧ (s.pair.recover = none) ∧ (s.pair.phase = 2) ∧ (s.beat ≤ s.pair.drill + 20000) ∧ (v = (if s.dev.state = 1 then s
      else notePower mv w s)) ∧ (u = { v with pair := { s.pair with cycle := s.pair.cycle + 1, lastCycle := s.beat } }) ∧ (x
      = takeOver u)) ∧
    (∃ (mv w : Nat) (agree : Bool) (v u : State) (s : State), (s.dev.state ≠ 0 ∧ s.dev.state ≠ 8) ∧ (s.pair.state = 0) ∧
      (s.pair.recover = none) ∧ (s.pair.phase = 2) ∧ (s.pair.drill + 20000 < s.beat) ∧ (v = (if s.dev.state = 1 then s else
      notePower mv w s)) ∧ (u = { v with pair := { s.pair with cycle := s.pair.cycle + 1, lastCycle := s.beat } })) ∧
    (∃ (w : Nat) (s : State), w ≤ powerLimit s ∨ s.dev.state < 2 ∨ s.dev.state = 8) ∧
    (∃ (w n : Nat) (s : State), powerLimit s < w ∧ 2 ≤ s.dev.state ∧ s.dev.state ≠ 8 ∧ n < 16) ∧
    (∃ (a b : Bool) (s : State), (¬(s.pair.recover.isSome = true ∧ s.dev.state ≠ 8))) ∧
    (∃ (s : State), (s.pair.recover.isSome = true ∧ s.dev.state ≠ 8)) ∧
    (∃ (s : State), (s.pair.recover.isSome = true ∧ s.dev.state ≠ 8)) ∧
    (∃ (s : State), (s.pair.recover.isSome = true ∧ s.dev.state ≠ 8) ∧ (s.pair.active ≤ 1)) ∧
    (∃ (s : State), (s.pair.recover.isSome = true ∧ s.dev.state ≠ 8)) ∧
    (∃ (s : State), (s.dev.state ≠ 0 ∧ s.dev.state ≠ 8 ∧ s.pair.state = 0 ∧ s.pair.recover = none)) ∧
    (∃ (s : State), (¬(s.dev.state ≠ 0 ∧ s.dev.state ≠ 8 ∧ s.pair.state = 0 ∧ s.pair.recover = none))) ∧
    (∃ (s : State), (2 ≤ s.dev.state ∧ s.dev.state ≤ 7 ∧ s.pair.recover = none ∧ s.pair.lastCycle + 20000 ≤ s.beat)) ∧
    (∃ (s : State), (¬(2 ≤ s.dev.state ∧ s.dev.state ≤ 7 ∧ s.pair.recover = none ∧ s.pair.lastCycle + 20000 ≤ s.beat))) ∧
    (∃ (s : State), (s.obj Obj.drillAutoDays ≠ 0 ∧ s.pair.state = 0 ∧ s.pair.recover = none ∧ s.pair.phase = 0 ∧ 3 ≤
      s.dev.state ∧ s.dev.state ≤ 6 ∧ s.pair.lastAuto + s.obj Obj.drillAutoDays * 86400000000000 ≤ s.beat)) ∧
    (∃ (s : State), (¬(s.obj Obj.drillAutoDays ≠ 0 ∧ s.pair.state = 0 ∧ s.pair.recover = none ∧ s.pair.phase = 0 ∧ 3 ≤
      s.dev.state ∧ s.dev.state ≤ 6 ∧ s.pair.lastAuto + s.obj Obj.drillAutoDays * 86400000000000 ≤ s.beat))) ∧
    (∃ (s : State), (s.pair.phase = 2 ∧ s.pair.drill + 20000 < s.beat)) ∧
    (∃ (s : State), (¬(s.pair.phase = 2 ∧ s.pair.drill + 20000 < s.beat))) :=
  ⟨⟨260000, 100, true, State.reset, by decide +kernel⟩,
   ⟨260000, 100, _, _, { State.reset with beat := 10000, dev := { state := 5 }, pair := { cur := [.grant 1 2], prev := [.grant 3 4] } },
     by decide +kernel, by decide +kernel, by decide +kernel, by decide +kernel, rfl, rfl⟩,
   ⟨260000, 100, { State.reset with beat := 10000, dev := { state := 5 }, pair := { cur := [.grant 1 2], prev := [.grant 3 4] } },
     by decide +kernel⟩,
   ⟨260000, 100, { State.reset with beat := 10000, dev := { state := 5 }, pair := { phase := 3, cur := [.grant 1 2], prev := [.grant 3 4] } },
     by decide +kernel⟩,
   ⟨260000, 100, _, _, { State.reset with beat := 10000, dev := { state := 5 }, pair := { cur := [.grant 1 2], prev := [.grant 3 4] } },
     by decide +kernel, by decide +kernel, by decide +kernel, by decide +kernel, rfl, rfl⟩,
   ⟨260000, 100, { State.reset with beat := 10000, dev := { state := 5 }, pair := { phase := 3, cur := [.grant 1 2], prev := [.grant 3 4] } },
     by decide +kernel⟩,
   ⟨260000, 100, { State.reset with beat := 10000, dev := { state := 5 }, pair := { second := true, cur := [.grant 1 2], prev := [.grant 3 4] } },
     by decide +kernel⟩,
   ⟨260000, 100, false, _, _, { State.reset with beat := 10000, dev := { state := 5 }, pair := { state := 1, cur := [.grant 1 2], prev := [.grant 3 4] } },
     by decide +kernel, by decide +kernel, rfl, rfl⟩,
   ⟨260000, 100, false, _, _, { State.reset with beat := 10000, dev := { state := 5 }, pair := { recover := some 3, cur := [.grant 1 2], prev := [.grant 3 4] } },
     by decide +kernel, by decide +kernel, by decide +kernel, rfl, rfl⟩,
   ⟨260000, 100, true, _, _, { State.reset with beat := 10000, dev := { state := 5 }, pair := { phase := 1, prev := [.grant 3 4] } },
     by decide +kernel, by decide +kernel, by decide +kernel, by decide +kernel, rfl, rfl⟩,
   ⟨260000, 100, true, _, _, _, { State.reset with beat := 10000, dev := { state := 5 }, pair := { phase := 2, prev := [.grant 3 4] } },
     by decide +kernel, by decide +kernel, by decide +kernel, by decide +kernel, by decide +kernel, rfl, rfl, rfl⟩,
   ⟨260000, 100, true, _, _, { State.reset with beat := 30000, dev := { state := 5 }, pair := { phase := 2, prev := [.grant 3 4] } },
     by decide +kernel, by decide +kernel, by decide +kernel, by decide +kernel, by decide +kernel, rfl, rfl⟩,
   ⟨0, State.reset, by decide +kernel⟩,
   ⟨100000000, 3, { State.reset with dev := { state := 5 } }, by decide +kernel⟩,
   ⟨true, false, State.reset, by decide +kernel⟩,
   ⟨{ State.reset with beat := 0, dev := { state := 5 }, pair := { recover := some 5 } }, by decide +kernel⟩,
   ⟨{ State.reset with beat := 0, dev := { state := 5 }, pair := { recover := some 5, prev := [.grant 3 4] } },
     by decide +kernel⟩,
   ⟨{ State.reset with beat := 0, dev := { state := 5 }, pair := { recover := some 5, prev := [.grant 3 4] } },
     by decide +kernel⟩,
   ⟨{ State.reset with beat := 0, dev := { state := 5 }, pair := { recover := some 5, prev := [.grant 3 4] } },
     by decide +kernel⟩,
   ⟨{ State.reset with beat := 0, dev := { state := 5 }, pair := { prev := [.grant 3 4] } }, by decide +kernel⟩,
   ⟨State.reset, by decide +kernel⟩,
   ⟨{ State.reset with beat := 20000, dev := { state := 5 }, pair := { prev := [.grant 3 4] } }, by decide +kernel⟩,
   ⟨State.reset, by decide +kernel⟩,
   ⟨(State.setObj { State.reset with beat := 10 ^ 18, dev := { state := 5 }, pair := {  } } Obj.drillAutoDays 1),
     by decide +kernel⟩,
   ⟨State.reset, by decide +kernel⟩,
   ⟨{ State.reset with beat := 20001, dev := { state := 5 }, pair := { phase := 2, prev := [.grant 3 4] } },
     by decide +kernel⟩,
   ⟨State.reset, by decide +kernel⟩⟩

/-- The hypotheses of each clause of DeviceStates can be met. -/
theorem witness_DeviceStates :
    (∃ (s : State), (¬(s.dev.state = 7 ∧ s.serve.ctxs = []))) ∧
    (∃ (s : State), (s.dev.state = 7 ∧ s.serve.ctxs = []) ∧ (s.dev.drainTo ≠ 2)) ∧
    (∃ (s : State), (s.dev.state = 7 ∧ s.serve.ctxs = []) ∧ (s.dev.drainTo = 2)) ∧
    (∃ (n0 n1 : List NorCopy) (p0 p1 : Bool) (c0 c1 : Bytes) (fails : List Nat) (s : State), (¬(s.dev.state = 2 ∧
      s.dev.started = false))) ∧
    (∃ (n0 n1 : List NorCopy) (p0 p1 : Bool) (c0 c1 : Bytes) (fails : List Nat) (a b : Bool) (s : State), (s.dev.state = 2 ∧
      s.dev.started = false) ∧ (a = (p0 && (norStart n0).isSome)) ∧ (b = (p1 && (norStart n1).isSome)) ∧ (a = false ∧ b =
      false)) ∧
    (∃ (n0 n1 : List NorCopy) (p0 p1 : Bool) (c0 c1 : Bytes) (fails : List Nat) (a b : Bool) (u v w x : State) (s : State),
      (s.dev.state = 2 ∧ s.dev.started = false) ∧ (a = (p0 && (norStart n0).isSome)) ∧ (b = (p1 && (norStart n1).isSome)) ∧
      (a = true ∨ b = true) ∧ (u = bootPair ((norStart n0).getD 0) ((norStart n1).getD 0) a b (s.count Obj.bootCount 1)) ∧ (v
      = bootConfig c0 c1 { u with ens := {} }) ∧ (w = v.setObj Obj.mapDigest (crc32c (mapBytes v))) ∧ (x = takeConfig
      (bootReasons (bootTests fails (bootRails w))))) ∧
    (∃ (n0 n1 : List NorCopy) (p0 p1 : Bool) (c0 c1 : Bytes) (fails : List Nat) (a b : Bool) (s : State), (s.dev.state = 2 ∧
      s.dev.started = false) ∧ (a = (p0 && (norStart n0).isSome)) ∧ (b = (p1 && (norStart n1).isSome)) ∧ (a = true ∨ b =
      true)) ∧
    (∃ (ms : W32) (s : State), (¬(s.dev.state = 2 ∧ s.dev.started = true ∧ bootQuiet s = true))) ∧
    (∃ (ms : W32) (u : State) (s : State), (s.dev.state = 2 ∧ s.dev.started = true ∧ bootQuiet s = true) ∧ (s.config.gen = 0)
      ∧ (u = s.setObj Obj.bootElapsedMs ms.toNat)) ∧
    (∃ (ms : W32) (u : State) (s : State), (s.dev.state = 2 ∧ s.dev.started = true ∧ bootQuiet s = true) ∧ (s.config.gen ≠ 0)
      ∧ (inEnsemble s = true) ∧ (u = s.setObj Obj.bootElapsedMs ms.toNat)) ∧
    (∃ (ms : W32) (s : State), (s.dev.state = 2 ∧ s.dev.started = true ∧ bootQuiet s = true) ∧ (s.config.gen ≠ 0) ∧
      (inEnsemble s = false) ∧ (¬(s.obj Obj.serveEnable = 1 ∧ anyResident s = true ∧ portReady s = true))) ∧
    (∃ (ms : W32) (s : State), (s.dev.state = 2 ∧ s.dev.started = true ∧ bootQuiet s = true) ∧ (s.config.gen ≠ 0) ∧
      (inEnsemble s = false) ∧ ((s.obj Obj.serveEnable = 1 ∧ anyResident s = true ∧ portReady s = true))) ∧
    (∃ (s : State), (s.config.owner.isSome = true ∧ s.config.ownerBeat + s.obj Obj.stageIdleTimeoutS * 1000000000 ≤ s.beat))
      ∧
    (∃ (s : State), (¬(s.config.owner.isSome = true ∧ s.config.ownerBeat + s.obj Obj.stageIdleTimeoutS * 1000000000 ≤
      s.beat))) :=
  ⟨⟨State.reset, by decide +kernel⟩,
   ⟨{ State.reset with dev := { state := 7, drainTo := 1 } }, by decide +kernel⟩,
   ⟨{ State.reset with dev := { state := 7, drainTo := 2 } }, by decide +kernel⟩,
   ⟨[{ version := 7, valid := true }], [{ version := 8, valid := true }], true, false, [], [], [3], State.reset,
     by decide +kernel⟩,
   ⟨[], [{ version := 8, valid := true }], true, false, [], [], [3], _, _, { State.reset with dev := { state := 2 } },
     by decide +kernel, rfl, rfl, by decide +kernel⟩,
   ⟨[{ version := 7, valid := true }], [{ version := 8, valid := true }], true, false, [], [], [3], _, _, _, _, _, _,
     { State.reset with dev := { state := 2 } }, by decide +kernel, rfl, rfl, by decide +kernel, rfl, rfl, rfl, rfl⟩,
   ⟨[{ version := 7, valid := true }], [{ version := 8, valid := true }], true, false, [], [], [3], _, _,
     { State.reset with dev := { state := 2 } }, by decide +kernel, rfl, rfl, by decide +kernel⟩,
   ⟨900, State.reset, by decide +kernel⟩,
   ⟨900, _, { State.reset with dev := { state := 2, started := true }, config := { gen := 0 } }, by decide +kernel,
     by decide +kernel, rfl⟩,
   ⟨900, _, (State.setObj { State.reset with dev := { state := 2, started := true }, config := { gen := 1 } } Obj.ensSize 2),
     by decide +kernel, by decide +kernel, by decide +kernel, rfl⟩,
   ⟨900, (State.setObj (State.setObj { State.reset with dev := { state := 2, started := true }, config := { gen := 1 } }
     Obj.ensSize 1) Obj.serveEnable 0), by decide +kernel⟩,
   ⟨900, (State.setObj (State.setObj (State.setObj
     { State.reset with dev := { state := 2, started := true }, config := { gen := 1 }, images := { slots := [(2, { state := 2 })] }, serve := { links := [true, true] } }
     Obj.ensSize 1) Obj.serveEnable 1) (Obj.servePortModeS + 0) 1), by decide +kernel⟩,
   ⟨{ State.reset with beat := 10 ^ 15, config := { owner := some 4 } }, by decide +kernel⟩,
   ⟨State.reset, by decide +kernel⟩⟩

/-- The hypotheses of each clause of Ensembles can be met. -/
theorem witness_Ensembles :
    (∃ (u : State) (s : State), (s.ens.state = 1 ∧ 3 ≤ s.dev.state ∧ s.dev.state ≠ 8 ∧ (erKind s.ens.own = 0 ∨ (erKind
      s.ens.own ≠ 3 ∧ s.ens.lastBeat + 1000000000 ≤ s.beat))) ∧ (u =
      { s with ens := { s.ens with own := ensRec s 1 s.beat, lastBeat := s.beat } })) ∧
    (∃ (s : State), (¬(s.ens.state = 1 ∧ 3 ≤ s.dev.state ∧ s.dev.state ≠ 8 ∧ (erKind s.ens.own = 0 ∨ (erKind s.ens.own ≠ 3 ∧
      s.ens.lastBeat + 1000000000 ≤ s.beat))))) ∧
    (∃ s u : State, u = noteItems (rollItems s).1 (rollItems s).2 s) ∧
    (∃ (key : Bytes) (r : BitVec 512) (s : State), (¬(s.dev.state ≠ 0 ∧ s.dev.state ≠ 8))) ∧
    (∃ (key : Bytes) (r : BitVec 512) (s : State), (s.dev.state ≠ 0 ∧ s.dev.state ≠ 8) ∧ (s.objB Obj.ensKey = [] ∨ key ≠
      s.objB Obj.ensKey)) ∧
    (∃ (key : Bytes) (r : BitVec 512) (s : State), (s.dev.state ≠ 0 ∧ s.dev.state ≠ 8) ∧ (s.objB Obj.ensKey ≠ []) ∧ (key =
      s.objB Obj.ensKey) ∧ (inEnsemble s = false ∨ erNode r = s.fabric.node.toNat ∨ (memberNodes s).contains (erNode r) =
      false)) ∧
    (∃ (key : Bytes) (r : BitVec 512) (v : State) (s : State), (s.dev.state ≠ 0 ∧ s.dev.state ≠ 8) ∧ ((s.objB Obj.ensKey ≠ []
      ∧ key = s.objB Obj.ensKey ∧ inEnsemble s = true ∧ erNode r ≠ s.fabric.node.toNat ∧ (memberNodes s).contains (erNode r)
      = true)) ∧ (v = { s with ens := { s.ens with records := (BitVec.ofNat 16 (erNode r), r, s.beat) :: s.ens.records.filter (fun x => x.1 != BitVec.ofNat 16 (erNode r)) } })
      ∧ ((s.ens.state ≠ 1 ∧ s.ens.state ≠ 2) ∨ (s.ens.state = 2 ∧ erKind r ≠ 4 ∧ erKind r ≠ 2))) ∧
    (∃ (key : Bytes) (r : BitVec 512) (v w : State) (s : State), (s.dev.state ≠ 0 ∧ s.dev.state ≠ 8) ∧ ((s.objB Obj.ensKey ≠
      [] ∧ key = s.objB Obj.ensKey ∧ inEnsemble s = true ∧ erNode r ≠ s.fabric.node.toNat ∧ (memberNodes s).contains (erNode
      r) = true)) ∧ (v = { s with ens := { s.ens with records := (BitVec.ofNat 16 (erNode r), r, s.beat) :: s.ens.records.filter (fun x => x.1 != BitVec.ofNat 16 (erNode r)) } })
      ∧ (s.ens.state = 1) ∧ (w = (if erKind r = 4 then { v with ens := { v.ens with start := none } } else if erKind r = 3 ∧
      erNode r = lowestNode (memberNodes s) ∧ anyStop v = false then
      { v with ens := { v.ens with start := some (erBeat r) } } else v)) ∧ (erKind s.ens.own = 0)) ∧
    (∃ (key : Bytes) (r : BitVec 512) (v w : State) (s : State), (s.dev.state ≠ 0 ∧ s.dev.state ≠ 8) ∧ ((s.objB Obj.ensKey ≠
      [] ∧ key = s.objB Obj.ensKey ∧ inEnsemble s = true ∧ erNode r ≠ s.fabric.node.toNat ∧ (memberNodes s).contains (erNode
      r) = true)) ∧ (v = { s with ens := { s.ens with records := (BitVec.ofNat 16 (erNode r), r, s.beat) :: s.ens.records.filter (fun x => x.1 != BitVec.ofNat 16 (erNode r)) } })
      ∧ (s.ens.state = 1) ∧ (w = (if erKind r = 4 then { v with ens := { v.ens with start := none } } else if erKind r = 3 ∧
      erNode r = lowestNode (memberNodes s) ∧ anyStop v = false then
      { v with ens := { v.ens with start := some (erBeat r) } } else v)) ∧ (erKind s.ens.own ≠ 0)) ∧
    (∃ (key : Bytes) (r : BitVec 512) (v : State) (s : State), (s.dev.state ≠ 0 ∧ s.dev.state ≠ 8) ∧ ((s.objB Obj.ensKey ≠ []
      ∧ key = s.objB Obj.ensKey ∧ inEnsemble s = true ∧ erNode r ≠ s.fabric.node.toNat ∧ (memberNodes s).contains (erNode r)
      = true)) ∧ (v = { s with ens := { s.ens with records := (BitVec.ofNat 16 (erNode r), r, s.beat) :: s.ens.records.filter (fun x => x.1 != BitVec.ofNat 16 (erNode r)) } })
      ∧ (s.ens.state = 2) ∧ (erKind r = 4)) ∧
    (∃ (key : Bytes) (r : BitVec 512) (v : State) (s : State), (s.dev.state ≠ 0 ∧ s.dev.state ≠ 8) ∧ ((s.objB Obj.ensKey ≠ []
      ∧ key = s.objB Obj.ensKey ∧ inEnsemble s = true ∧ erNode r ≠ s.fabric.node.toNat ∧ (memberNodes s).contains (erNode r)
      = true)) ∧ (v = { s with ens := { s.ens with records := (BitVec.ofNat 16 (erNode r), r, s.beat) :: s.ens.records.filter (fun x => x.1 != BitVec.ofNat 16 (erNode r)) } })
      ∧ (s.ens.state = 2) ∧ (erKind r = 2)) ∧
    (∃ (r : BitVec 512) (s u : State) (bound : Bool) (m : Nat), bound = (!timeGood r && erLocked r && erRef r) ∧ m = (if tget
      0 (BitVec.ofNat 16 (erNode r)).toNat s.ens.maps = BitVec.ofNat 32 (erMap r) then recordItems s (ensRec s 2 s.beat) r 0
      else recordItems s (ensRec s 2 s.beat) r 0 ||| 16) ∧ u =
      { s with ens := { s.ens with slow := if bound then (BitVec.ofNat 16 (erNode r)) :: s.ens.slow.filter (· != (BitVec.ofNat 16 (erNode r))) else s.ens.slow.filter (· != (BitVec.ofNat 16 (erNode r))) } })
      ∧
    (∃ s u : State, u = { s with ens := { s.ens with state := 3, start := none } }) ∧
    (∃ (s : State), (¬(s.ens.start.any (fun b => decide (b ≤ s.beat)) = true ∧ s.ens.state = 1 ∧ 3 ≤ s.dev.state ∧
      s.dev.state ≠ 8))) ∧
    (∃ (u : State) (s : State), (s.ens.start.any (fun b => decide (b ≤ s.beat)) = true) ∧ (s.ens.state = 1 ∧ 3 ≤ s.dev.state
      ∧ s.dev.state ≠ 8) ∧ ((rollItems s).1 ≠ 0 ∨ anyStop s = true) ∧ (u = noteItems (rollItems s).1 (rollItems s).2
      { s with ens := { s.ens with start := none } })) ∧
    (∃ (u v : State) (s : State), (s.ens.start.any (fun b => decide (b ≤ s.beat)) = true) ∧ (s.ens.state = 1 ∧ 3 ≤
      s.dev.state ∧ s.dev.state ≠ 8) ∧ ((rollItems s).1 = 0 ∧ anyStop s = false) ∧ (u = noteItems (rollItems s).1 (rollItems
      s).2 { s with ens := { s.ens with start := none } }) ∧ (v =
      { u with ens := { u.ens with state := 2, maps := (memberNodes s).foldl (fun x n => (rollRecord u n).elim x (fun r => tset n (BitVec.ofNat 32 (erMap r)) x)) [], records := s.ens.records.map (fun x => (x.1, x.2.1, s.beat)), slow := [], lastBeat := s.beat } }))
      ∧
    (∃ (s : State), (s.ens.state = 2 ∧ s.ens.lastBeat + 1000000 * s.obj Obj.ensHeartbeatMs ≤ s.beat)) ∧
    (∃ (s : State), (¬(s.ens.state = 2 ∧ s.ens.lastBeat + 1000000 * s.obj Obj.ensHeartbeatMs ≤ s.beat))) ∧
    (∃ (node : W16) (s : State), (s.ens.state = 2 ∧ node ≠ s.fabric.node ∧ (memberNodes s).contains node.toNat = true ∧
      (s.ens.records.find? (fun x => x.1 == node)).any (fun x => decide (x.2.2 + 3 * (1000000 * s.obj Obj.ensHeartbeatMs) ≤
      s.beat)) = true)) ∧
    (∃ (node : W16) (s : State), (¬(s.ens.state = 2 ∧ node ≠ s.fabric.node ∧ (memberNodes s).contains node.toNat = true ∧
      (s.ens.records.find? (fun x => x.1 == node)).any (fun x => decide (x.2.2 + 3 * (1000000 * s.obj Obj.ensHeartbeatMs) ≤
      s.beat)) = true))) :=
  ⟨⟨_, (State.setObj (State.setObjB { State.reset with beat := 1000000000, dev := { state := 3 }, ens := { state := 1 } }
    Obj.ensMemberTable (leBytes 2 0 ++ leBytes 22 0 ++ leBytes 2 1 ++ leBytes 22 0)) Obj.ensSize 2), by decide +kernel, rfl⟩,
   ⟨State.reset, by decide +kernel⟩,
   ⟨State.reset, _, rfl⟩,
   ⟨[8], (BitVec.ofNat 512 (1 + 1 * 2 ^ 8 + 1 * 2 ^ 32)), State.reset, by decide +kernel⟩,
   ⟨[8], (BitVec.ofNat 512 (1 + 1 * 2 ^ 8 + 1 * 2 ^ 32)), (State.setObjB (State.setObj (State.setObjB
     { State.reset with beat := 0, dev := { state := 3 }, ens := { state := 1 } } Obj.ensMemberTable (leBytes 2 0 ++ leBytes
     22 0 ++ leBytes 2 1 ++ leBytes 22 0)) Obj.ensSize 2) Obj.ensKey [7]), by decide +kernel⟩,
   ⟨[7], (BitVec.ofNat 512 (1 + 1 * 2 ^ 8 + 9 * 2 ^ 32)), (State.setObjB (State.setObj (State.setObjB
     { State.reset with beat := 0, dev := { state := 3 }, ens := { state := 1 } } Obj.ensMemberTable (leBytes 2 0 ++ leBytes
     22 0 ++ leBytes 2 1 ++ leBytes 22 0)) Obj.ensSize 2) Obj.ensKey [7]), by decide +kernel⟩,
   ⟨[7], (BitVec.ofNat 512 (1 + 1 * 2 ^ 8 + 1 * 2 ^ 32)), _, (State.setObjB (State.setObj (State.setObjB
     { State.reset with beat := 0, dev := { state := 3 }, ens := { state := 3 } } Obj.ensMemberTable (leBytes 2 0 ++ leBytes
     22 0 ++ leBytes 2 1 ++ leBytes 22 0)) Obj.ensSize 2) Obj.ensKey [7]), by decide +kernel, by decide +kernel, rfl,
     by decide +kernel⟩,
   ⟨[7], (BitVec.ofNat 512 (1 + 4 * 2 ^ 8 + 1 * 2 ^ 32)), _, _, (State.setObjB (State.setObj (State.setObjB
     { State.reset with beat := 0, dev := { state := 3 }, ens := { state := 1, start := some 5 } } Obj.ensMemberTable
     (leBytes 2 0 ++ leBytes 22 0 ++ leBytes 2 1 ++ leBytes 22 0)) Obj.ensSize 2) Obj.ensKey [7]), by decide +kernel,
     by decide +kernel, rfl, by decide +kernel, rfl, by decide +kernel⟩,
   ⟨[7], (BitVec.ofNat 512 (1 + 1 * 2 ^ 8 + 1 * 2 ^ 32)), _, _, (State.setObjB (State.setObj (State.setObjB
     { State.reset with beat := 0, dev := { state := 3 }, ens := { state := 1, own := (BitVec.ofNat 512 (1 + 1 * 2 ^ 8 + 1 * 2 ^ 32)) } }
     Obj.ensMemberTable (leBytes 2 0 ++ leBytes 22 0 ++ leBytes 2 1 ++ leBytes 22 0)) Obj.ensSize 2) Obj.ensKey [7]),
     by decide +kernel, by decide +kernel, rfl, by decide +kernel, rfl, by decide +kernel⟩,
   ⟨[7], (BitVec.ofNat 512 (1 + 4 * 2 ^ 8 + 1 * 2 ^ 32)), _, (State.setObjB (State.setObj (State.setObjB
     { State.reset with beat := 0, dev := { state := 5 }, ens := { state := 2 } } Obj.ensMemberTable (leBytes 2 0 ++ leBytes
     22 0 ++ leBytes 2 1 ++ leBytes 22 0)) Obj.ensSize 2) Obj.ensKey [7]), by decide +kernel, by decide +kernel, rfl,
     by decide +kernel, by decide +kernel⟩,
   ⟨[7], (BitVec.ofNat 512 (1 + 2 * 2 ^ 8 + 1 * 2 ^ 32)), _, (State.setObjB (State.setObj (State.setObjB
     { State.reset with beat := 0, dev := { state := 5 }, ens := { state := 2 } } Obj.ensMemberTable (leBytes 2 0 ++ leBytes
     22 0 ++ leBytes 2 1 ++ leBytes 22 0)) Obj.ensSize 2) Obj.ensKey [7]), by decide +kernel, by decide +kernel, rfl,
     by decide +kernel, by decide +kernel⟩,
   ⟨1, State.reset, _, _, _, rfl, rfl, rfl⟩,
   ⟨State.reset, _, rfl⟩,
   ⟨State.reset, by decide +kernel⟩,
   ⟨_, (State.setObj (State.setObjB { State.reset with beat := 7, dev := { state := 3 }, ens := { state := 1, start := some 5 } }
     Obj.ensMemberTable (leBytes 2 0 ++ leBytes 22 0 ++ leBytes 2 1 ++ leBytes 22 0)) Obj.ensSize 2), by decide +kernel,
     by decide +kernel, by decide +kernel, rfl⟩,
   ⟨_, _, (State.setObj { State.reset with beat := 7, dev := { state := 3 }, ens := { state := 1, start := some 5 } }
     Obj.serveEnable 0), by decide +kernel, by decide +kernel, by decide +kernel, rfl, rfl⟩,
   ⟨(State.setObj (State.setObjB { State.reset with beat := 1000000000000000, dev := { state := 3 }, ens := { state := 2 } }
     Obj.ensMemberTable (leBytes 2 0 ++ leBytes 22 0 ++ leBytes 2 1 ++ leBytes 22 0)) Obj.ensSize 2), by decide +kernel⟩,
   ⟨State.reset, by decide +kernel⟩,
   ⟨1, (State.setObj (State.setObjB { State.reset with beat := 1000000000000000, dev := { state := 5 }, ens := { state := 2, records := [(1, (BitVec.ofNat 512 (1 + 2 * 2 ^ 8 + 1 * 2 ^ 32)), 0)] } }
     Obj.ensMemberTable (leBytes 2 0 ++ leBytes 22 0 ++ leBytes 2 1 ++ leBytes 22 0)) Obj.ensSize 2), by decide +kernel⟩,
   ⟨1, State.reset, by decide +kernel⟩⟩

/-- The hypotheses of each clause of MessagesAndReads can be met. -/
theorem witness_MessagesAndReads :
    (∃ (h : DictHdr) (index : W16) (sub what : Byte) (off max : Nat) (s : State), (s.powered = true) ∧ (h.uart = false) ∧
      (authentic s h = false ∨ seqFresh s h = false)) ∧
    (∃ (h : DictHdr) (index : W16) (sub what : Byte) (off max : Nat) (s : State), (s.powered = true) ∧ (h.uart = true) ∧
      (s.config.uartHunt = true ∨ h.crcOk = false)) ∧
    (∃ (h : DictHdr) (index : W16) (sub what : Byte) (off max : Nat) (s : State), (s.powered = true) ∧ (s.dev.state ≠ 8) ∧
      (if h.uart then s.config.uartHunt = false ∧ h.crcOk = true else authentic s h = true ∧ seqFresh s h = true) ∧
      (h.boot.toNat ≠ s.obj Obj.bootCount)) ∧
    (∃ (h : DictHdr) (index : W16) (sub what : Byte) (off max : Nat) (s : State), (Admitted h s)) ∧
    (∃ (index : W16) (sub : Byte) (w : WReq) (s : State), (s.powered = true) ∧ (w.hdr.uart = false) ∧ (authentic s w.hdr =
      false ∨ seqFresh s w.hdr = false)) ∧
    (∃ (index : W16) (sub : Byte) (w : WReq) (s : State), (s.powered = true) ∧ (w.hdr.uart = true) ∧ (s.config.uartHunt =
      true ∨ w.hdr.crcOk = false)) ∧
    (∃ (index : W16) (sub : Byte) (w : WReq) (s : State), (s.powered = true) ∧ (s.dev.state ≠ 8) ∧ (if w.hdr.uart then
      s.config.uartHunt = false ∧ w.hdr.crcOk = true else authentic s w.hdr = true ∧ seqFresh s w.hdr = true) ∧
      (w.hdr.boot.toNat ≠ s.obj Obj.bootCount)) ∧
    (∃ (index : W16) (sub : Byte) (w : WReq) (s : State), (Admitted w.hdr s)) ∧
    (∃ (index : W16) (sub : Byte) (w : WReq) (s : State), (s.powered = true) ∧ (w.hdr.uart = false) ∧ (authentic s w.hdr =
      false ∨ seqFresh s w.hdr = false)) ∧
    (∃ (index : W16) (sub : Byte) (w : WReq) (s : State), (s.powered = true) ∧ (w.hdr.uart = true) ∧ (s.config.uartHunt =
      true ∨ w.hdr.crcOk = false)) ∧
    (∃ (index : W16) (sub : Byte) (w : WReq) (s : State), (s.powered = true) ∧ (s.dev.state ≠ 8) ∧ (if w.hdr.uart then
      s.config.uartHunt = false ∧ w.hdr.crcOk = true else authentic s w.hdr = true ∧ seqFresh s w.hdr = true) ∧
      (w.hdr.boot.toNat ≠ s.obj Obj.bootCount)) ∧
    (∃ (index : W16) (sub : Byte) (w : WReq) (s : State), (Admitted w.hdr s)) ∧
    (∃ (h : DictHdr) (count digest : W32) (s : State), (s.powered = true) ∧ (h.uart = false) ∧ (authentic s h = false ∨
      seqFresh s h = false)) ∧
    (∃ (h : DictHdr) (count digest : W32) (s : State), (s.powered = true) ∧ (h.uart = true) ∧ (s.config.uartHunt = true ∨
      h.crcOk = false)) ∧
    (∃ (h : DictHdr) (count digest : W32) (s : State), (s.powered = true) ∧ (s.dev.state ≠ 8) ∧ (if h.uart then
      s.config.uartHunt = false ∧ h.crcOk = true else authentic s h = true ∧ seqFresh s h = true) ∧ (h.boot.toNat ≠ s.obj
      Obj.bootCount)) ∧
    (∃ (h : DictHdr) (count digest : W32) (s : State), (Admitted h s)) ∧
    (∃ (h : DictHdr) (index : W16) (sub mode : Byte) (period id : W16) (s : State), (s.powered = true) ∧ (h.uart = false) ∧
      (authentic s h = false ∨ seqFresh s h = false)) ∧
    (∃ (h : DictHdr) (index : W16) (sub mode : Byte) (period id : W16) (s : State), (s.powered = true) ∧ (h.uart = true) ∧
      (s.config.uartHunt = true ∨ h.crcOk = false)) ∧
    (∃ (h : DictHdr) (index : W16) (sub mode : Byte) (period id : W16) (s : State), (s.powered = true) ∧ (s.dev.state ≠ 8) ∧
      (if h.uart then s.config.uartHunt = false ∧ h.crcOk = true else authentic s h = true ∧ seqFresh s h = true) ∧
      (h.boot.toNat ≠ s.obj Obj.bootCount)) ∧
    (∃ (h : DictHdr) (index : W16) (sub mode : Byte) (period id : W16) (s : State), (Admitted h s)) ∧
    (∃ (h : DictHdr) (index : W16) (sub : Byte) (off max : Nat) (u : State) (s : State), (Admitted h s) ∧ (u = noteRequest h
      s) ∧ (¬(s.dev.state = 8 ∧ faultReadable (keyOf index sub) = false)) ∧ (readCode u (keyOf index sub) = 0)) ∧
    (∃ (h : DictHdr) (index : W16) (sub : Byte) (off max : Nat) (r : ObjRow) (u : State) (s : State), (Admitted h s) ∧
      (s.dev.state ≠ 8) ∧ (u = noteRequest h s) ∧ (objRow (keyOf index sub) = some r) ∧ (r.acc ≠ 2) ∧ (measuredKeys.contains
      (keyOf index sub) = false) ∧ ((keyOf index sub) ≠ Obj.logEntry)) ∧
    (∃ (h : DictHdr) (s : State), (Admitted h s) ∧ (s.dev.state ≠ 8)) ∧
    (∃ (h : DictHdr) (index : W16) (sub : Byte) (off max : Nat) (u : State) (s : State), (Admitted h s) ∧ (u = noteRequest h
      s) ∧ (¬(s.dev.state = 8 ∧ faultReadable (keyOf index sub) = false)) ∧ (readCode u (keyOf index sub) ≠ 0)) ∧
    (∃ (h : DictHdr) (index : W16) (sub : Byte) (off max : Nat) (s : State), (Admitted h s) ∧ (s.dev.state ≠ 8) ∧ (existsCode
      (keyOf index sub) = 0) ∧ (accessOf (keyOf index sub) = 2)) ∧
    (∃ (h : DictHdr) (index : W16) (sub what : Byte) (off max : Nat) (s : State), (Admitted h s) ∧ (s.dev.state ≠ 8) ∧
      (existsCode (keyOf index sub) = 0x1101)) ∧
    (∃ (h : DictHdr) (index : W16) (sub what : Byte) (off max : Nat) (s : State), (Admitted h s) ∧ (s.dev.state ≠ 8) ∧
      (existsCode (keyOf index sub) = 0x1102)) ∧
    (∃ (h : DictHdr) (index : W16) (sub what : Byte) (off max : Nat) (s : State), (Admitted h s) ∧ (s.dev.state ≠ 8) ∧
      (existsCode (keyOf index sub) = 0) ∧ (2 ≤ what.toNat)) ∧
    (∃ (h : DictHdr) (index : W16) (sub : Byte) (off max : Nat) (u : State) (s : State), (Admitted h s) ∧ (s.dev.state ≠ 8) ∧
      (u = noteRequest h s) ∧ (existsCode (keyOf index sub) = 0)) ∧
    (∃ (h : DictHdr) (index : W16) (sub what : Byte) (off max : Nat) (s : State), (Admitted h s) ∧ (s.dev.state = 8) ∧
      (faultReadable (keyOf index sub) = false)) ∧
    (∃ (k : Nat) (s : State), s.dev.state = 8 ∧ faultReadable k = true ∧ existsCode k ≠ 0) ∧
    (∃ (u : CvuRef) (off : BitVec 7) (s : State), (cvuReach s u = false)) ∧
    (∃ (u : CvuRef) (off : BitVec 7) (s : State), (cvuReach s u = true) ∧ (off.toNat ∉ [0x20, 0x28, 0x3C])) ∧
    (∃ (u : CvuRef) (off : BitVec 7) (s : State), (cvuReach s u = true) ∧ (off.toNat ∈ [0x20, 0x28])) ∧
    (∃ (u : CvuRef) (s : State), (cvuReach s u = true)) ∧
    (∃ off : Nat, 0x40 ≤ off) :=
  ⟨⟨⟨false, false, [7], 1, 1, 4, 0, 9⟩, 0x1300, 1, 0, 0, 8, { State.reset with dev := { state := 5 } }, by decide +kernel⟩,
   ⟨⟨true, false, [], 1, 1, 4, 0, 9⟩, 0x1300, 1, 0, 0, 8, { State.reset with dev := { state := 5 } }, by decide +kernel⟩,
   ⟨⟨true, true, [], 1, 1, 4, 3, 9⟩, 0x1300, 1, 0, 0, 8, { State.reset with dev := { state := 5 } }, by decide +kernel⟩,
   ⟨⟨true, true, [], 1, 1, 4, 0, 9⟩, 0x1300, 1, 0, 0, 8, { State.reset with dev := { state := 5 } }, by decide +kernel⟩,
   ⟨0x1300, 7, ⟨⟨false, false, [7], 1, 1, 4, 0, 9⟩, 6, (([1]) : Bytes).length, 0, true, [1]⟩,
     { State.reset with dev := { state := 5 } }, by decide +kernel⟩,
   ⟨0x1300, 7, ⟨⟨true, false, [], 1, 1, 4, 0, 9⟩, 6, (([1]) : Bytes).length, 0, true, [1]⟩,
     { State.reset with dev := { state := 5 } }, by decide +kernel⟩,
   ⟨0x1300, 7, ⟨⟨true, true, [], 1, 1, 4, 3, 9⟩, 6, (([1]) : Bytes).length, 0, true, [1]⟩,
     { State.reset with dev := { state := 5 } }, by decide +kernel⟩,
   ⟨0x1300, 7, ⟨⟨true, true, [], 1, 1, 4, 0, 9⟩, 6, (([1]) : Bytes).length, 0, true, [1]⟩,
     { State.reset with dev := { state := 5 } }, by decide +kernel⟩,
   ⟨0x1300, 7, ⟨⟨false, false, [7], 1, 1, 4, 0, 9⟩, 6, (([1]) : Bytes).length, 0, true, [1]⟩,
     { State.reset with dev := { state := 5 } }, by decide +kernel⟩,
   ⟨0x1300, 7, ⟨⟨true, false, [], 1, 1, 4, 0, 9⟩, 6, (([1]) : Bytes).length, 0, true, [1]⟩,
     { State.reset with dev := { state := 5 } }, by decide +kernel⟩,
   ⟨0x1300, 7, ⟨⟨true, true, [], 1, 1, 4, 3, 9⟩, 6, (([1]) : Bytes).length, 0, true, [1]⟩,
     { State.reset with dev := { state := 5 } }, by decide +kernel⟩,
   ⟨0x1300, 7, ⟨⟨true, true, [], 1, 1, 4, 0, 9⟩, 6, (([1]) : Bytes).length, 0, true, [1]⟩,
     { State.reset with dev := { state := 5 } }, by decide +kernel⟩,
   ⟨⟨false, false, [7], 1, 1, 4, 0, 9⟩, 0, 0, { State.reset with dev := { state := 5 } }, by decide +kernel⟩,
   ⟨⟨true, false, [], 1, 1, 4, 0, 9⟩, 0, 0, { State.reset with dev := { state := 5 } }, by decide +kernel⟩,
   ⟨⟨true, true, [], 1, 1, 4, 3, 9⟩, 0, 0, { State.reset with dev := { state := 5 } }, by decide +kernel⟩,
   ⟨⟨true, true, [], 1, 1, 4, 0, 9⟩, 0, 0, { State.reset with dev := { state := 5 } }, by decide +kernel⟩,
   ⟨⟨false, false, [7], 1, 1, 4, 0, 9⟩, 0x1300, 1, 1, 0, 3, { State.reset with dev := { state := 5 } }, by decide +kernel⟩,
   ⟨⟨true, false, [], 1, 1, 4, 0, 9⟩, 0x1300, 1, 1, 0, 3, { State.reset with dev := { state := 5 } }, by decide +kernel⟩,
   ⟨⟨true, true, [], 1, 1, 4, 3, 9⟩, 0x1300, 1, 1, 0, 3, { State.reset with dev := { state := 5 } }, by decide +kernel⟩,
   ⟨⟨true, true, [], 1, 1, 4, 0, 9⟩, 0x1300, 1, 1, 0, 3, { State.reset with dev := { state := 5 } }, by decide +kernel⟩,
   ⟨⟨true, true, [], 1, 1, 4, 0, 9⟩, 0x1300, 1, 0, 8, _, { State.reset with dev := { state := 5 } }, by decide +kernel, rfl,
     by decide +kernel, by decide +kernel⟩,
   ⟨⟨true, true, [], 1, 1, 4, 0, 9⟩, 0x1300, 1, 0, 8, ⟨0x130001, 1, 1, 6, 1, 0, 1, 0, 0, 8⟩, _,
     { State.reset with dev := { state := 5 } }, by decide +kernel, by decide +kernel, rfl, by decide +kernel,
     by decide +kernel, by decide +kernel, by decide +kernel⟩,
   ⟨⟨true, true, [], 1, 1, 4, 0, 9⟩, { State.reset with dev := { state := 5 } }, by decide +kernel⟩,
   ⟨⟨true, true, [], 1, 1, 4, 0, 9⟩, 0x8000, 1, 0, 8, _, { State.reset with dev := { state := 5 } }, by decide +kernel, rfl,
     by decide +kernel, by decide +kernel⟩,
   ⟨⟨true, true, [], 1, 1, 4, 0, 9⟩, 0x1300, 7, 0, 8, { State.reset with dev := { state := 5 } }, by decide +kernel⟩,
   ⟨⟨true, true, [], 1, 1, 4, 0, 9⟩, 0x8000, 0x50, 2, 0, 8, { State.reset with dev := { state := 5 } }, by decide +kernel⟩,
   ⟨⟨true, true, [], 1, 1, 4, 0, 9⟩, 0x1300, 0x50, 2, 0, 8, { State.reset with dev := { state := 5 } }, by decide +kernel⟩,
   ⟨⟨true, true, [], 1, 1, 4, 0, 9⟩, 0x1300, 3, 2, 0, 8, { State.reset with dev := { state := 5 } }, by decide +kernel⟩,
   ⟨⟨true, true, [], 1, 1, 4, 0, 9⟩, 0x1300, 3, 0, 40, _, { State.reset with dev := { state := 5 } }, by decide +kernel,
     by decide +kernel, rfl, by decide +kernel⟩,
   ⟨⟨true, true, [], 1, 1, 4, 0, 9⟩, 0x2301, 1, 0, 0, 8, { State.reset with dev := { state := 8 } }, by decide +kernel⟩,
   ⟨0x1000FF, { State.reset with dev := { state := 8 } }, by decide +kernel⟩,
   ⟨.hub 2 7, 8, State.reset, by decide +kernel⟩,
   ⟨.whippet 3, 8, { State.reset with dev := { state := 5 }, cvus := [(3, { poly := 7, busy := 2 })] }, by decide +kernel⟩,
   ⟨.whippet 3, 0x28, { State.reset with dev := { state := 5 }, cvus := [(3, { poly := 7, busy := 2 })] },
     by decide +kernel⟩,
   ⟨.whippet 3, { State.reset with dev := { state := 5 }, cvus := [(3, { poly := 7, busy := 2 })] }, by decide +kernel⟩,
   ⟨0x40, by decide⟩⟩

/-- The hypotheses of each clause of DictionaryWrites can be met. -/
theorem witness_DictionaryWrites :
    (∃ (index : W16) (sub : Byte) (w : WReq) (s : State), (Admitted w.hdr s) ∧ (s.dev.state ≠ 8) ∧ (existsCode (keyOf index
      sub) = 0x1101)) ∧
    (∃ (index : W16) (sub : Byte) (w : WReq) (s : State), (Admitted w.hdr s) ∧ (s.dev.state ≠ 8) ∧ (existsCode (keyOf index
      sub) = 0x1102)) ∧
    (∃ (index : W16) (sub : Byte) (w : WReq) (r : ObjRow) (s : State), (Admitted w.hdr s) ∧ (s.dev.state ≠ 8) ∧ (objRow
      (keyOf index sub) = some r) ∧ (r.acc = 1) ∧ ((keyOf index sub) / 0x100000 ≠ 9)) ∧
    (∃ (index : W16) (sub : Byte) (w : WReq) (r : ObjRow) (s : State), (Admitted w.hdr s) ∧ (s.dev.state ≠ 8) ∧ (objRow
      (keyOf index sub) = some r) ∧ ((keyOf index sub) / 0x100000 = 9)) ∧
    (∃ (index : W16) (sub : Byte) (w : WReq) (r : ObjRow) (s : State), (Admitted w.hdr s) ∧ (s.dev.state ≠ 8) ∧ (objRow
      (keyOf index sub) = some r) ∧ (r.acc ≠ 1) ∧ ((keyOf index sub) / 0x100000 ≠ 9) ∧ (stateCode s w.hdr.uart (keyOf index
      sub) ≠ 0)) ∧
    (∃ (index : W16) (sub : Byte) (w : WReq) (r : ObjRow) (s : State), (Admitted w.hdr s) ∧ (s.dev.state ≠ 8) ∧ (objRow
      (keyOf index sub) = some r) ∧ (r.acc ≠ 1) ∧ ((keyOf index sub) / 0x100000 ≠ 9) ∧ (stateCode s w.hdr.uart (keyOf index
      sub) = 0) ∧ (w.ty.toNat ≠ r.ty ∨ (r.len ≠ 0 ∧ r.key ≠ Obj.ensMemberTable ∧ w.total ≠ r.len))) ∧
    (∃ (index : W16) (sub : Byte) (w : WReq) (s : State), (Admitted w.hdr s) ∧ (s.dev.state ≠ 8) ∧ (openCodeOf s w.hdr (keyOf
      index sub) w = 0) ∧ (w.offset = 0) ∧ (w.last = false) ∧ (w.data.length < w.total)) ∧
    (∃ (index : W16) (sub : Byte) (w : WReq) (s : State), (Admitted w.hdr s) ∧ (s.dev.state ≠ 8) ∧ (existsCode (keyOf index
      sub) = 0x1101)) ∧
    (∃ (index : W16) (sub : Byte) (w : WReq) (s : State), (Admitted w.hdr s) ∧ (s.dev.state ≠ 8) ∧ (existsCode (keyOf index
      sub) = 0x1102)) ∧
    (∃ (index : W16) (sub : Byte) (w : WReq) (r : ObjRow) (s : State), (Admitted w.hdr s) ∧ (s.dev.state ≠ 8) ∧ (objRow
      (keyOf index sub) = some r) ∧ (r.acc = 1) ∧ ((keyOf index sub) / 0x100000 ≠ 9)) ∧
    (∃ (index : W16) (sub : Byte) (w : WReq) (r : ObjRow) (s : State), (Admitted w.hdr s) ∧ (s.dev.state ≠ 8) ∧ (objRow
      (keyOf index sub) = some r) ∧ ((keyOf index sub) / 0x100000 = 9)) ∧
    (∃ (index : W16) (sub : Byte) (w : WReq) (r : ObjRow) (s : State), (Admitted w.hdr s) ∧ (s.dev.state ≠ 8) ∧ (objRow
      (keyOf index sub) = some r) ∧ (r.acc ≠ 1) ∧ ((keyOf index sub) / 0x100000 ≠ 9) ∧ (stateCode s w.hdr.uart (keyOf index
      sub) ≠ 0)) ∧
    (∃ (index : W16) (sub : Byte) (w : WReq) (r : ObjRow) (s : State), (Admitted w.hdr s) ∧ (s.dev.state ≠ 8) ∧ (objRow
      (keyOf index sub) = some r) ∧ (r.acc ≠ 1) ∧ ((keyOf index sub) / 0x100000 ≠ 9) ∧ (stateCode s w.hdr.uart (keyOf index
      sub) = 0) ∧ (w.ty.toNat ≠ r.ty ∨ (r.len ≠ 0 ∧ r.key ≠ Obj.ensMemberTable ∧ w.total ≠ r.len))) ∧
    (∃ (index : W16) (sub : Byte) (w : WReq) (s : State), (Admitted w.hdr s) ∧ (s.dev.state ≠ 8) ∧ (openCodeOf s w.hdr (keyOf
      index sub) w = 0) ∧ (w.offset = 0) ∧ (w.last = false) ∧ (w.data.length < w.total)) ∧
    (∃ (k : Nat) (w : WReq) (s u : State) (had : Bytes), had = (if w.offset = 0 then [] else ((s.config.segs.find? (fun y =>
      y.client == w.hdr.client && y.key == k)).elim [] (fun y => y.data))) ∧ u =
      { s with config := { s.config with segs := s.config.segs.filter (fun y => !(y.client == w.hdr.client && y.key == k)) } })
      ∧
    (∃ (k : Nat) (w : WReq) (s u : State) (had : Bytes), had = (if w.offset = 0 then [] else ((s.config.segs.find? (fun y =>
      y.client == w.hdr.client && y.key == (2 ^ 24 + k))).elim [] (fun y => y.data))) ∧ u =
      { s with config := { s.config with segs := s.config.segs.filter (fun y => !(y.client == w.hdr.client && y.key == (2 ^ 24 + k))) } })
      ∧
    (∃ (h : DictHdr) (k : Nat) (w : WReq) (b : Bytes) (x : WAux) (s u : State) (e : Entry), e =
      { key := k, ty := w.ty, data := b } ∧ u = applyObj (some h) h.client.toNat e x s) ∧
    (∃ (index : W16) (sub : Byte) (w : WReq) (b : Bytes) (s : State), (Admitted w.hdr s) ∧ (s.dev.state ≠ 8) ∧ (openCodeOf s
      w.hdr (keyOf index sub) w = 0) ∧ (valueCode s (keyOf index sub) b = 0) ∧ (w.data = b) ∧ (w.offset = 0) ∧ (w.last =
      true) ∧ (w.total = b.length) ∧ ((keyOf index sub) ≠ Obj.configRestore) ∧ (s.config.owner = none ∨ s.config.owner = some
      w.hdr.client) ∧ (s.config.staged.any (fun y => y.key == (keyOf index sub)) = false)) ∧
    (∃ (index : W16) (sub : Byte) (w : WReq) (b : Bytes) (s : State), (Admitted w.hdr s) ∧ (s.dev.state ≠ 8) ∧ (openCodeOf s
      w.hdr (keyOf index sub) w = 0) ∧ (valueCode s (keyOf index sub) b = 0) ∧ (w.data = b) ∧ (w.offset = 0) ∧ (w.last =
      true) ∧ (w.total = b.length) ∧ ((keyOf index sub) ≠ Obj.configRestore) ∧ (s.config.owner = none ∨ s.config.owner = some
      w.hdr.client) ∧ (s.config.staged.any (fun y => y.key == (keyOf index sub)) = true)) ∧
    (∃ (index : W16) (sub : Byte) (w : WReq) (b : Bytes) (s : State), (Admitted w.hdr s) ∧ (s.dev.state ≠ 8) ∧ (openCodeOf s
      w.hdr (keyOf index sub) w = 0) ∧ (valueCode s (keyOf index sub) b = 0) ∧ (w.data = b) ∧ (w.offset = 0) ∧ (w.last =
      true) ∧ (w.total = b.length) ∧ ((keyOf index sub) ≠ Obj.configRestore) ∧ (s.config.owner ≠ none) ∧ (s.config.owner ≠
      some w.hdr.client)) ∧
    (∃ s u : State, u = { s with config := { s.config with staged := [], owner := none } }) ∧
    (∃ (h : DictHdr) (count digest : W32) (s : State), (Admitted h s) ∧ (s.dev.state ≠ 8) ∧ (s.power.input ≠ 3) ∧
      (s.config.owner ≠ some h.client)) ∧
    (∃ (h : DictHdr) (count digest : W32) (s : State), (Admitted h s) ∧ (s.dev.state ≠ 8) ∧ (s.power.input ≠ 3) ∧
      (s.config.owner = some h.client) ∧ (count.toNat ≠ s.config.staged.length)) ∧
    (∃ (h : DictHdr) (count digest : W32) (s : State), (Admitted h s) ∧ (s.dev.state ≠ 8) ∧ (s.power.input ≠ 3) ∧
      (s.config.owner = some h.client) ∧ (count.toNat = s.config.staged.length) ∧ (digest.toNat ≠ entriesDigest
      s.config.staged)) ∧
    (∃ (h : DictHdr) (v : Byte) (s : State), (Admitted h s) ∧ (s.power.input ≠ 3) ∧ (3 ≤ s.dev.state ∧ s.dev.state ≤ 4) ∧
      (s.config.owner = some h.client) ∧ (s.config.staged = [({ key := Obj.serveEnable, ty := 1, data := [v] } : Entry)]) ∧
      (v.toNat ≤ 1) ∧ (anyResident s = false) ∧ ((setRules [({ key := Obj.serveEnable, ty := 1, data := [v] } : Entry)]
      s).all (fun r => r.2) = true) ∧ (s.dev.heldAtBoot = false)) ∧
    (∃ (l : List Entry) (s u v : State), u = (sortEntries l).foldl (fun y e => applyObj none 0 e {} y) (storeEntries 0
      (entriesDigest l) (l.filter persistent) s) ∧ v = (if l.any (fun e => isOneOf Obj.winEntryN 128 e.key) then
      { u with rmem := { u.rmem with next := some (u.beat + 10000, stagedWindows l s) } } else u)) ∧
    (∃ (u : CvuRef) (off : BitVec 7) (v : W64) (s : State), (cvuReach s u = false ∨ cvuHas u off.toNat = false)) ∧
    (∃ (n : Fin 8) (off : BitVec 7) (v : W64) (s : State), (cvuReach s (.hub n 30) = true) ∧ (cvuHas (.hub n 30) off.toNat =
      true)) ∧
    (∃ (u : CvuRef) (off : BitVec 7) (v : W64) (s : State), (cvuReach s u = true) ∧ (cvuHas u off.toNat = true) ∧ (∀ n : Fin
      8, u ≠ .hub n 30)) ∧
    (∃ (u : CvuRef) (v : W64) (s : State), (cvuHeld s u = true) ∧ (∀ n : Fin 8, u ≠ .hub n 30)) ∧
    (∃ (u : CvuRef) (v : W64) (s : State), (cvuHeld s u = true) ∧ (∀ n : Fin 8, u ≠ .hub n 30)) ∧
    (∃ (u : CvuRef) (v : W64) (s : State), (cvuHeld s u = true) ∧ (∀ n : Fin 8, u ≠ .hub n 30)) ∧
    (∃ (index : W16) (sub : Byte) (w : WReq) (s : State), (¬(s.pod.powered = true ∧ w.hdr.crcOk = true))) ∧
    (∃ (index : W16) (sub : Byte) (w : WReq) (s : State), (s.pod.powered = true ∧ w.hdr.crcOk = true) ∧ (calibrationCode s
      (keyOf index sub) w ≠ 0)) ∧
    (∃ (index : W16) (sub : Byte) (w : WReq) (v : Nat) (s : State), (s.pod.powered = true ∧ w.hdr.crcOk = true) ∧
      (calibrationCode s (keyOf index sub) w = 0) ∧ ((keyOf index sub) = Obj.calRun) ∧ (v = leNat w.data)) ∧
    (∃ (index : W16) (sub : Byte) (w : WReq) (v : Nat) (s : State), (s.pod.powered = true ∧ w.hdr.crcOk = true) ∧
      (calibrationCode s (keyOf index sub) w = 0) ∧ ((keyOf index sub) ≠ Obj.calRun) ∧ (v = leNat w.data)) :=
  ⟨⟨0x8000, 1, ⟨⟨true, true, [], 1, 1, 4, 0, 9⟩, 6, (([1]) : Bytes).length, 0, true, [1]⟩,
    { State.reset with dev := { state := 5 } }, by decide +kernel⟩,
   ⟨0x1300, 99, ⟨⟨true, true, [], 1, 1, 4, 0, 9⟩, 6, (([1]) : Bytes).length, 0, true, [1]⟩,
     { State.reset with dev := { state := 5 } }, by decide +kernel⟩,
   ⟨0x1300, 1, ⟨⟨true, true, [], 1, 1, 4, 0, 9⟩, 6, (([1]) : Bytes).length, 0, true, [1]⟩, ⟨0x130001, 1, 1, 6, 1, 0, 1, 0, 0,
     8⟩, { State.reset with dev := { state := 5 } }, by decide +kernel⟩,
   ⟨0x9000, 1, ⟨⟨true, true, [], 1, 1, 4, 0, 9⟩, 8, (([1, 0, 0, 0]) : Bytes).length, 0, true, [1, 0, 0, 0]⟩, ⟨0x900001, 1, 1,
     8, 1, 8, 4, 0, 0, 4294967295⟩, { State.reset with dev := { state := 5 } }, by decide +kernel⟩,
   ⟨0x1300, 4, ⟨⟨true, true, [], 1, 1, 4, 0, 9⟩, 6, (([1]) : Bytes).length, 0, true, [1]⟩, ⟨0x130004, 1, 1, 6, 2, 0, 1, 0, 1,
     1⟩, { State.reset with dev := { state := 5 } }, by decide +kernel⟩,
   ⟨0x1300, 3, ⟨⟨true, true, [], 1, 1, 4, 0, 9⟩, 6, (([1]) : Bytes).length, 0, true, [1]⟩, ⟨0x130003, 1, 1, 1, 3, 1, 1, 1, 0,
     1⟩, { State.reset with dev := { state := 5 } }, by decide +kernel⟩,
   ⟨0x4100, 1, ⟨⟨true, true, [], 1, 1, 4, 0, 9⟩, 15, 4, 0, false, [1]⟩, { State.reset with dev := { state := 5 } },
     by decide +kernel⟩,
   ⟨0x8000, 1, ⟨⟨true, true, [], 1, 1, 4, 0, 9⟩, 6, (([1]) : Bytes).length, 0, true, [1]⟩,
     { State.reset with dev := { state := 5 } }, by decide +kernel⟩,
   ⟨0x1300, 99, ⟨⟨true, true, [], 1, 1, 4, 0, 9⟩, 6, (([1]) : Bytes).length, 0, true, [1]⟩,
     { State.reset with dev := { state := 5 } }, by decide +kernel⟩,
   ⟨0x1300, 1, ⟨⟨true, true, [], 1, 1, 4, 0, 9⟩, 6, (([1]) : Bytes).length, 0, true, [1]⟩, ⟨0x130001, 1, 1, 6, 1, 0, 1, 0, 0,
     8⟩, { State.reset with dev := { state := 5 } }, by decide +kernel⟩,
   ⟨0x9000, 1, ⟨⟨true, true, [], 1, 1, 4, 0, 9⟩, 8, (([1, 0, 0, 0]) : Bytes).length, 0, true, [1, 0, 0, 0]⟩, ⟨0x900001, 1, 1,
     8, 1, 8, 4, 0, 0, 4294967295⟩, { State.reset with dev := { state := 5 } }, by decide +kernel⟩,
   ⟨0x1300, 4, ⟨⟨true, true, [], 1, 1, 4, 0, 9⟩, 6, (([1]) : Bytes).length, 0, true, [1]⟩, ⟨0x130004, 1, 1, 6, 2, 0, 1, 0, 1,
     1⟩, { State.reset with dev := { state := 5 } }, by decide +kernel⟩,
   ⟨0x1300, 3, ⟨⟨true, true, [], 1, 1, 4, 0, 9⟩, 6, (([1]) : Bytes).length, 0, true, [1]⟩, ⟨0x130003, 1, 1, 1, 3, 1, 1, 1, 0,
     1⟩, { State.reset with dev := { state := 5 } }, by decide +kernel⟩,
   ⟨0x4100, 1, ⟨⟨true, true, [], 1, 1, 4, 0, 9⟩, 15, 4, 0, false, [1]⟩, { State.reset with dev := { state := 5 } },
     by decide +kernel⟩,
   ⟨0x130007, ⟨⟨true, true, [], 1, 1, 4, 0, 9⟩, 6, (([1]) : Bytes).length, 0, true, [1]⟩, State.reset, _, _, rfl, rfl⟩,
   ⟨0x130007, ⟨⟨true, true, [], 1, 1, 4, 0, 9⟩, 6, (([1]) : Bytes).length, 0, true, [1]⟩, State.reset, _, _, rfl, rfl⟩,
   ⟨⟨true, true, [], 1, 1, 4, 0, 9⟩, 0x130007, ⟨⟨true, true, [], 1, 1, 4, 0, 9⟩, 6, (([1]) : Bytes).length, 0, true, [1]⟩,
     [1], {}, State.reset, _, _, rfl, rfl⟩,
   ⟨0x1300, 3, ⟨⟨true, true, [], 1, 1, 4, 0, 9⟩, 1, (([1]) : Bytes).length, 0, true, [1]⟩, [1],
     { State.reset with dev := { state := 5 } }, by decide +kernel⟩,
   ⟨0x1300, 3, ⟨⟨true, true, [], 1, 1, 4, 0, 9⟩, 1, (([1]) : Bytes).length, 0, true, [1]⟩, [1],
     { State.reset with dev := { state := 5 }, config := { staged := [{ key := 0x130003, ty := 1, data := [0] }], owner := some 4 } },
     by decide +kernel⟩,
   ⟨0x1300, 3, ⟨⟨true, true, [], 1, 1, 4, 0, 9⟩, 1, (([1]) : Bytes).length, 0, true, [1]⟩, [1],
     { State.reset with dev := { state := 5 }, config := { owner := some 5 } }, by decide +kernel⟩,
   ⟨State.reset, _, rfl⟩,
   ⟨⟨true, true, [], 1, 1, 4, 0, 9⟩, 0, 0, { State.reset with dev := { state := 5 } }, by decide +kernel⟩,
   ⟨⟨true, true, [], 1, 1, 4, 0, 9⟩, 1, 0,
     { State.reset with dev := { state := 5 }, config := { staged := [], owner := some 4 } }, by decide +kernel⟩,
   ⟨⟨true, true, [], 1, 1, 4, 0, 9⟩, 0, 7,
     { State.reset with dev := { state := 5 }, config := { staged := [], owner := some 4 } }, by decide +kernel⟩,
   ⟨⟨true, true, [], 1, 1, 4, 0, 9⟩, 1, { State.reset with dev := { state := 4 }, config := { staged := [{ key := Obj.serveEnable, ty := 1, data := [1] }], owner := some 4 } },
     by decide +kernel⟩,
   ⟨[], State.reset, _, _, rfl, rfl⟩,
   ⟨.whippet 3, 0x44, 1, State.reset, by decide +kernel⟩,
   ⟨3, 8, 1, { State.reset with dev := { state := 5 } }, by decide +kernel⟩,
   ⟨.whippet 3, 0x08, 1, { State.reset with dev := { state := 5 } }, by decide +kernel⟩,
   ⟨.whippet 3, 0x1021, { State.reset with dev := { state := 5 }, cvus := [(3, { busy := 2 })] }, by decide +kernel⟩,
   ⟨.whippet 3, 0x1021, { State.reset with dev := { state := 5 }, cvus := [(3, { busy := 2 })] }, by decide +kernel⟩,
   ⟨.whippet 3, 0x1021, { State.reset with dev := { state := 5 }, cvus := [(3, { busy := 2 })] }, by decide +kernel⟩,
   ⟨0x9030, 1, ⟨⟨true, true, [], 1, 1, 4, 0, 9⟩, 6, (([1]) : Bytes).length, 0, true, [1]⟩, State.reset, by decide +kernel⟩,
   ⟨0x9030, 1, ⟨⟨true, true, [], 1, 1, 4, 0, 9⟩, 6, (([1]) : Bytes).length, 0, true, [1]⟩,
     { State.reset with pod := { powered := true, coverOpen := false } }, by decide +kernel⟩,
   ⟨0x9030, 2, ⟨⟨true, true, [], 1, 1, 4, 0, 9⟩, 6, (([1]) : Bytes).length, 0, true, [1]⟩, _,
     { State.reset with pod := { powered := true, coverOpen := true } }, by decide +kernel, by decide +kernel,
     by decide +kernel, rfl⟩,
   ⟨0x9030, 1, ⟨⟨true, true, [], 1, 1, 4, 0, 9⟩, 7, ((leBytes 2 5) : Bytes).length, 0, true, leBytes 2 5⟩, _,
     { State.reset with pod := { powered := true, coverOpen := true } }, by decide +kernel, by decide +kernel,
     by decide +kernel, rfl⟩⟩

/-- The hypotheses of each clause of Subscriptions can be met. -/
theorem witness_Subscriptions :
    (∃ (h : DictHdr) (index : W16) (sub mode : Byte) (period id : W16) (u : State) (s : State), (Admitted h s) ∧ (u =
      noteRequest h s) ∧ (subscribeCode u h (keyOf index sub) mode.toNat period.toNat id.toNat ≠ 0)) ∧
    (∃ (h : DictHdr) (index : W16) (sub mode : Byte) (period id : W16) (u : State) (s : State), (Admitted h s) ∧ (u =
      noteRequest h s) ∧ (subscribeCode u h (keyOf index sub) mode.toNat period.toNat id.toNat = 0)) ∧
    (∃ (h : DictHdr) (index : W16) (sub mode : Byte) (period id : W16) (u : State) (s : State), (Admitted h s) ∧ (s.dev.state
      ≠ 8) ∧ (existsCode (keyOf index sub) = 0) ∧ (accessOf (keyOf index sub) ≠ 2) ∧ (u = noteRequest h s) ∧ (mode.toNat = 1
      ∨ (mode.toNat = 2 ∧ 10 ≤ period.toNat ∧ period.toNat ≤ 60000)) ∧ (s.config.subs.length < 256)) ∧
    (∃ (h : DictHdr) (index : W16) (sub mode : Byte) (period id : W16) (s : State), (Admitted h s) ∧ (s.dev.state ≠ 8) ∧
      (existsCode (keyOf index sub) = 0) ∧ (accessOf (keyOf index sub) ≠ 2) ∧ (mode = 0)) ∧
    (∃ (h : DictHdr) (index : W16) (sub mode : Byte) (period id : W16) (s : State), (Admitted h s) ∧ (s.dev.state ≠ 8) ∧
      (existsCode (keyOf index sub) = 0) ∧ (accessOf (keyOf index sub) ≠ 2) ∧ (mode.toNat = 2) ∧ (period.toNat < 10)) ∧
    (∃ (h : DictHdr) (index : W16) (sub mode : Byte) (period id : W16) (s : State), (Admitted h s) ∧ (s.dev.state ≠ 8) ∧
      (existsCode (keyOf index sub) = 0) ∧ (accessOf (keyOf index sub) ≠ 2) ∧ (mode.toNat = 2) ∧ (60000 < period.toNat)) ∧
    (∃ (h : DictHdr) (index : W16) (sub mode : Byte) (period id : W16) (s : State), (Admitted h s) ∧ (s.dev.state ≠ 8) ∧
      (existsCode (keyOf index sub) = 0) ∧ (accessOf (keyOf index sub) ≠ 2) ∧ (2 < mode.toNat)) ∧
    (∃ (h : DictHdr) (index : W16) (sub mode : Byte) (period id : W16) (s : State), (Admitted h s) ∧ (s.dev.state ≠ 8) ∧
      (existsCode (keyOf index sub) = 0) ∧ (accessOf (keyOf index sub) ≠ 2) ∧ (mode.toNat = 1 ∨ (mode.toNat = 2 ∧ 10 ≤
      period.toNat ∧ period.toNat ≤ 60000)) ∧ (256 ≤ s.config.subs.length) ∧ (s.config.subs.any (fun x => x.client ==
      h.client && x.id == id) = false)) ∧
    (∃ (client : W32) (id : W16) (s : State), (s.config.subs.find? (fun y => y.client == client && y.id == id) = none)) ∧
    (∃ (client : W32) (id : W16) (x : Sub) (s : State), (s.config.subs.find? (fun y => y.client == client && y.id == id) =
      some x) ∧ (¬(s.powered = true ∧ s.dev.state ≠ 8 ∧ notifyDue s x = true))) ∧
    (∃ (client : W32) (id : W16) (x : Sub) (s : State), (s.config.subs.find? (fun y => y.client == client && y.id == id) =
      some x) ∧ (s.powered = true ∧ s.dev.state ≠ 8 ∧ notifyDue s x = true)) ∧
    (∃ (w : WReq) (s : State), (Admitted w.hdr s) ∧ (s.dev.state ≠ 8) ∧ (Whole w 6 [1]) ∧ (s.config.owner = none ∨
      s.config.owner = some w.hdr.client)) ∧
    (∃ (w : WReq) (s : State), (Admitted w.hdr s) ∧ (s.dev.state ≠ 8) ∧ (Whole w 6 [1]) ∧ (s.config.owner ≠ none) ∧
      (s.config.owner ≠ some w.hdr.client)) ∧
    (∃ (w : WReq) (v : Nat) (s : State), (Admitted w.hdr s) ∧ (Whole w 6 (leBytes 1 v)) ∧ (v ≤ 1) ∧ (s.dev.state = 3) ∧
      (s.power.input ≠ 3) ∧ (s.dev.heldAtBoot = false) ∧ ((if v = 0 then s.config.copyA else s.config.copyB).status = 0)) ∧
    (∃ (w : WReq) (v : Nat) (s : State), (Admitted w.hdr s) ∧ (Whole w 6 (leBytes 1 v)) ∧ (v ≤ 1) ∧ (s.dev.state = 3) ∧
      (s.power.input ≠ 3) ∧ ((if v = 0 then s.config.copyA else s.config.copyB).status ≠ 0)) ∧
    (∃ (w : WReq) (v : Nat) (s : State), (Admitted w.hdr s) ∧ (Whole w 6 (leBytes 1 v)) ∧ (s.dev.state ≠ 8) ∧ (s.dev.state ≠
      3)) :=
  ⟨⟨⟨true, true, [], 1, 1, 4, 0, 9⟩, 0x1300, 1, 2, 9, 3, _, { State.reset with dev := { state := 5 } }, by decide +kernel,
    rfl, by decide +kernel⟩,
   ⟨⟨true, true, [], 1, 1, 4, 0, 9⟩, 0x1300, 1, 2, 10, 3, _, { State.reset with dev := { state := 5 } }, by decide +kernel,
     rfl, by decide +kernel⟩,
   ⟨⟨true, true, [], 1, 1, 4, 0, 9⟩, 0x1300, 1, 2, 10, 3, _, { State.reset with dev := { state := 5 } }, by decide +kernel,
     by decide +kernel, by decide +kernel, by decide +kernel, rfl, by decide +kernel, by decide +kernel⟩,
   ⟨⟨true, true, [], 1, 1, 4, 0, 9⟩, 0x1300, 1, 0, 0, 3, { State.reset with dev := { state := 5 } }, by decide +kernel⟩,
   ⟨⟨true, true, [], 1, 1, 4, 0, 9⟩, 0x1300, 1, 2, 9, 3, { State.reset with dev := { state := 5 } }, by decide +kernel⟩,
   ⟨⟨true, true, [], 1, 1, 4, 0, 9⟩, 0x1300, 1, 2, 60001, 3, { State.reset with dev := { state := 5 } }, by decide +kernel⟩,
   ⟨⟨true, true, [], 1, 1, 4, 0, 9⟩, 0x1300, 1, 3, 60, 3, { State.reset with dev := { state := 5 } }, by decide +kernel⟩,
   ⟨⟨true, true, [], 1, 1, 4, 0, 9⟩, 0x1300, 1, 1, 0, 3,
     { State.reset with dev := { state := 5 }, config := { subs := List.replicate 256 { client := 5, id := 3, key := 0x130001, mode := 1, period := 0, last := 0, uart := true, value := [] } } },
     by decide +kernel⟩,
   ⟨5, 3, { State.reset with dev := { state := 5 } }, by decide +kernel⟩,
   ⟨5, 3, { client := 5, id := 3, key := 0x130001, mode := 1, period := 0, last := 0, uart := true, value := [] },
     { State.reset with beat := 10, dev := { state := 5 }, config := { subs := [{ client := 5, id := 3, key := 0x130001, mode := 1, period := 0, last := 0, uart := true, value := [] }] } },
     by decide +kernel⟩,
   ⟨5, 3, { client := 5, id := 3, key := 0x130001, mode := 1, period := 0, last := 0, uart := true, value := [] },
     { State.reset with beat := 10 ^ 9, dev := { state := 5 }, config := { subs := [{ client := 5, id := 3, key := 0x130001, mode := 1, period := 0, last := 0, uart := true, value := [] }] } },
     by decide +kernel⟩,
   ⟨⟨⟨true, true, [], 1, 1, 4, 0, 9⟩, 6, (([1]) : Bytes).length, 0, true, [1]⟩,
     { State.reset with dev := { state := 5 }, config := { staged := [{ key := 0x130003, ty := 1, data := [1] }], owner := some 4 } },
     by decide +kernel⟩,
   ⟨⟨⟨true, true, [], 1, 1, 4, 0, 9⟩, 6, (([1]) : Bytes).length, 0, true, [1]⟩,
     { State.reset with dev := { state := 5 }, config := { staged := [], owner := some 6 } }, by decide +kernel⟩,
   ⟨⟨⟨true, true, [], 1, 1, 4, 0, 9⟩, 6, ((leBytes 1 1) : Bytes).length, 0, true, leBytes 1 1⟩, 1,
     { State.reset with dev := { state := 3 }, config := { copyB := { status := 0, gen := 5, entries := [{ key := 0x130003, ty := 1, data := [0] }] } } },
     by decide +kernel⟩,
   ⟨⟨⟨true, true, [], 1, 1, 4, 0, 9⟩, 6, ((leBytes 1 0) : Bytes).length, 0, true, leBytes 1 0⟩, 0,
     { State.reset with dev := { state := 3 }, config := { copyA := { status := 1 } } }, by decide +kernel⟩,
   ⟨⟨⟨true, true, [], 1, 1, 4, 0, 9⟩, 6, ((leBytes 1 0) : Bytes).length, 0, true, leBytes 1 0⟩, 0,
     { State.reset with dev := { state := 5 } }, by decide +kernel⟩⟩

/-- The hypotheses of each clause of DeviceRequests can be met. -/
theorem witness_DeviceRequests :
    (∃ (w : WReq) (s : State), (Admitted w.hdr s) ∧ (Whole w 6 ([1])) ∧ (s.dev.state = 1)) ∧
    (∃ (w : WReq) (s : State), (Admitted w.hdr s) ∧ (Whole w 6 [1]) ∧ (s.dev.state ≠ 8) ∧ (s.dev.state ≠ 0) ∧ (s.dev.state ≠
      1)) ∧
    (∃ (w : WReq) (s : State), (Admitted w.hdr s) ∧ (Whole w 6 [1]) ∧ (s.dev.state ≠ 8) ∧ (s.dev.state ≠ 0) ∧ (s.dev.state ≠
      5) ∧ (s.dev.state ≠ 6)) ∧
    (∃ (w : WReq) (s : State), (Admitted w.hdr s) ∧ (Whole w 6 [1]) ∧ (s.dev.state ≠ 8) ∧ (drillCode s ≠ 0)) ∧
    (∃ (w : WReq) (s : State), (Admitted w.hdr s) ∧ (Whole w 6 [1]) ∧ (s.dev.state ≠ 8) ∧ (s.dev.state ≠ 3 ∨ (s.ens.state ≠ 1
      ∧ s.ens.state ≠ 3))) ∧
    (∃ (w : WReq) (s : State), (Admitted w.hdr s) ∧ (s.dev.state ≠ 8) ∧ (Whole w 1 ([1])) ∧ (SetGood w.hdr
      ({ key := Obj.serveEnable, ty := 1, data := [1] } : Entry) s) ∧ (s.dev.state = 4) ∧ (anyResident s = true)) ∧
    (∃ (w : WReq) (s : State), (Admitted w.hdr s) ∧ (s.dev.state ≠ 8) ∧ (Whole w 1 ([0])) ∧ (SetGood w.hdr
      ({ key := Obj.serveEnable, ty := 1, data := [0] } : Entry) s) ∧ (s.dev.state = 5 ∨ s.dev.state = 6) ∧ (s.serve.sessions
      = [])) ∧
    (∃ (w : WReq) (s : State), (Admitted w.hdr s) ∧ (s.dev.state ≠ 8) ∧ (Whole w 1 ([1])) ∧ (SetGood w.hdr
      ({ key := Obj.serveEnable, ty := 1, data := [1] } : Entry) s) ∧ (s.dev.state ≠ 0) ∧ (s.dev.state = 4) ∧ (anyResident s
      = false)) ∧
    (∃ (w : WReq) (s : State), (Admitted w.hdr s) ∧ (s.dev.state ≠ 8) ∧ (Whole w 1 ([0])) ∧ (SetGood w.hdr
      ({ key := Obj.serveEnable, ty := 1, data := [0] } : Entry) s) ∧ (s.dev.state ≠ 0) ∧ (s.dev.state ≠ 5 ∧ s.dev.state ≠
      6)) ∧
    (∃ (w : WReq) (s : State), (Admitted w.hdr s) ∧ (s.dev.state ≠ 8) ∧ (Whole w 1 ([1])) ∧ (SetGood w.hdr
      ({ key := Obj.serveEnable, ty := 1, data := [1] } : Entry) s) ∧ (s.dev.state ≠ 0) ∧ (s.dev.state ≠ 4)) ∧
    (∃ (w : WReq) (v : Nat) (s : State), (Admitted w.hdr s) ∧ (Whole w 6 (leBytes 1 v)) ∧ (1 ≤ v ∧ v ≤ 2) ∧ (s.dev.state = 5
      ∨ s.dev.state = 6)) ∧
    (∃ (w : WReq) (v : Nat) (s : State), (Admitted w.hdr s) ∧ (Whole w 6 (leBytes 1 v)) ∧ (1 ≤ v ∧ v ≤ 2) ∧ (latchedCool s =
      true) ∧ (1 ≤ s.dev.state ∧ s.dev.state ≤ 7) ∧ (s.serve.sessions = [] ∧ s.serve.ctxs = [])) ∧
    (∃ (w : WReq) (v : Nat) (s : State), (Admitted w.hdr s) ∧ (Whole w 6 (leBytes 1 v)) ∧ (1 ≤ v ∧ v ≤ 2) ∧ (latchedCool s =
      true) ∧ (s.dev.state = 8) ∧ (s.serve.sessions = [] ∧ s.serve.ctxs = [])) ∧
    (∃ (w : WReq) (s : State), (Admitted w.hdr s) ∧ (Whole w 6 [1]) ∧ (s.dev.state ≠ 8) ∧ (latchedCool s = false)) ∧
    (∃ (w : WReq) (s : State), (Admitted w.hdr s) ∧ (Whole w 6 [1]) ∧ (s.dev.state ≠ 8) ∧ (s.dev.state ≠ 2) ∧ (s.pair.state ≠
      0) ∧ (s.pair.differ = false)) ∧
    (∃ (w : WReq) (s : State), (Admitted w.hdr s) ∧ (Whole w 6 [1]) ∧ (s.dev.state ≠ 8) ∧ (s.dev.state ≠ 2) ∧ (s.pair.state ≠
      0) ∧ (s.pair.differ = false) ∧ (s.dev.state ≤ 4)) ∧
    (∃ (w : WReq) (pass : Bool) (s : State), (Admitted w.hdr s) ∧ (Whole w 6 [1]) ∧ (s.dev.state ≠ 8) ∧ (s.dev.state ≠ 2) ∧
      (s.pair.state ≠ 0) ∧ (s.pair.differ = true)) ∧
    (∃ (w : WReq) (pass : Bool) (s : State), (Admitted w.hdr s) ∧ (Whole w 6 [1]) ∧ (s.dev.state ≠ 8) ∧ (s.dev.state ≠ 2) ∧
      (s.pair.state = 0)) ∧
    (∃ (w : WReq) (s : State), (Admitted w.hdr s) ∧ (Whole w 6 [1]) ∧ (drillCode s = 0)) ∧
    (∃ (w : WReq) (s : State), (Admitted w.hdr s) ∧ (Whole w 6 ([1])) ∧ (s.dev.state = 3) ∧ (s.ens.state = 1 ∨ s.ens.state =
      3) ∧ ((memberNodes s).all (fun n => n == s.fabric.node.toNat) = true)) ∧
    (∃ (w : WReq) (s : State), (Admitted w.hdr s) ∧ (Whole w 6 ([1])) ∧ (s.dev.state ≠ 8) ∧ (s.dev.state ≠ 3 ∨
      s.dev.heldAtBoot = true) ∧ ((s.imgSlot (s.obj Obj.ensSlot)).image = none)) ∧
    (∃ (w : WReq) (v : Nat) (s : State), (Admitted w.hdr s) ∧ (Whole w 6 (leBytes 1 v)) ∧ (s.dev.state ≠ 8) ∧ (v ≤ 28) ∧
      ((siteStack v).isSome = false) ∧ ((s.therm.dies.all (fun (p : Nat × ThermDie) => p.1 / 16 != v || decide (temperature
      p.2 ≤ 600))) = true) ∧ (siteDie v = none)) ∧
    (∃ (w : WReq) (v : Nat) (s : State), (Admitted w.hdr s) ∧ (Whole w 6 (leBytes 1 v)) ∧ (s.dev.state ≠ 8) ∧ (v ≤ 28) ∧
      ((siteStack v).isSome = false) ∧ (siteCool s v = false)) ∧
    (∃ (w : WReq) (v c : Nat) (s : State), (Admitted w.hdr s) ∧ (Whole w 6 (leBytes 1 v)) ∧ (s.dev.state ≠ 8) ∧ (v ≤ 28) ∧
      (siteCool s v = true ∨ (siteStack v).isSome = true) ∧ (c = shutdownClearCode v s) ∧ (c ≠ 0)) ∧
    (∃ (w : WReq) (b : Bytes) (u : State) (s : State), (Admitted w.hdr s) ∧ (w.offset = 0) ∧ (w.last = true) ∧ (w.total =
      b.length) ∧ (w.data = b) ∧ (u = { s with config := taken w.hdr Obj.powerOnRequest s }) ∧ (openCodeOf s w.hdr
      Obj.powerOnRequest w = 0) ∧ (valueCode u Obj.powerOnRequest b = 0) ∧ (actCode u Obj.powerOnRequest (leNat b) b {} = 0))
      ∧
    (∃ (w : WReq) (b : Bytes) (e : Entry) (u : State) (s : State), (Admitted w.hdr s) ∧ (s.power.input ≠ 3) ∧ (s.config.owner
      = none ∨ s.config.owner = some w.hdr.client) ∧ (w.offset = 0) ∧ (w.last = true) ∧ (w.total = b.length) ∧ (w.data = b) ∧
      (e = { key := Obj.serveEnable, ty := w.ty, data := b }) ∧ (u = { s with config := taken w.hdr Obj.serveEnable s }) ∧
      (openCodeOf s w.hdr Obj.serveEnable w = 0) ∧ (valueCode u Obj.serveEnable b = 0) ∧ (setCode [e] {} u = none)) ∧
    (∃ (w : WReq) (b : Bytes) (u : State) (s : State), (Admitted w.hdr s) ∧ (w.offset = 0) ∧ (w.last = true) ∧ (w.total =
      b.length) ∧ (w.data = b) ∧ (u = { s with config := taken w.hdr Obj.drainRequest s }) ∧ (openCodeOf s w.hdr
      Obj.drainRequest w = 0) ∧ (valueCode u Obj.drainRequest b = 0) ∧ (actCode u Obj.drainRequest (leNat b) b {} = 0)) ∧
    (∃ (w : WReq) (b : Bytes) (u : State) (s : State), (Admitted w.hdr s) ∧ (w.offset = 0) ∧ (w.last = true) ∧ (w.total =
      b.length) ∧ (w.data = b) ∧ (u = { s with config := taken w.hdr Obj.restartRequest s }) ∧ (openCodeOf s w.hdr
      Obj.restartRequest w = 0) ∧ (valueCode u Obj.restartRequest b = 0) ∧ (actCode u Obj.restartRequest (leNat b) b {} = 0))
      ∧
    (∃ (w : WReq) (pass : Bool) (b : Bytes) (u : State) (s : State), (Admitted w.hdr s) ∧ (w.offset = 0) ∧ (w.last = true) ∧
      (w.total = b.length) ∧ (w.data = b) ∧ (u = { s with config := taken w.hdr Obj.controllerRestore s }) ∧ (openCodeOf s
      w.hdr Obj.controllerRestore w = 0) ∧ (valueCode u Obj.controllerRestore b = 0) ∧ (actCode u Obj.controllerRestore
      (leNat b) b { pass := some pass } = 0)) ∧
    (∃ (w : WReq) (b : Bytes) (u : State) (s : State), (Admitted w.hdr s) ∧ (w.offset = 0) ∧ (w.last = true) ∧ (w.total =
      b.length) ∧ (w.data = b) ∧ (u = { s with config := taken w.hdr Obj.takeoverDrill s }) ∧ (openCodeOf s w.hdr
      Obj.takeoverDrill w = 0) ∧ (valueCode u Obj.takeoverDrill b = 0) ∧ (actCode u Obj.takeoverDrill (leNat b) b {} = 0)) ∧
    (∃ (w : WReq) (b : Bytes) (u : State) (s : State), (Admitted w.hdr s) ∧ (w.offset = 0) ∧ (w.last = true) ∧ (w.total =
      b.length) ∧ (w.data = b) ∧ (u = { s with config := taken w.hdr Obj.ensResume s }) ∧ (openCodeOf s w.hdr Obj.ensResume w
      = 0) ∧ (valueCode u Obj.ensResume b = 0) ∧ (actCode u Obj.ensResume (leNat b) b {} = 0)) ∧
    (∃ (w : WReq) (b : Bytes) (u : State) (s : State), (Admitted w.hdr s) ∧ (w.offset = 0) ∧ (w.last = true) ∧ (w.total =
      b.length) ∧ (w.data = b) ∧ (u = { s with config := taken w.hdr Obj.ensDissolve s }) ∧ (openCodeOf s w.hdr
      Obj.ensDissolve w = 0) ∧ (valueCode u Obj.ensDissolve b = 0) ∧ (actCode u Obj.ensDissolve (leNat b) b {} = 0)) ∧
    (∃ (w : WReq) (b : Bytes) (u : State) (s : State), (Admitted w.hdr s) ∧ (w.offset = 0) ∧ (w.last = true) ∧ (w.total =
      b.length) ∧ (w.data = b) ∧ (u = { s with config := taken w.hdr Obj.thermalShutdownClear s }) ∧ (openCodeOf s w.hdr
      Obj.thermalShutdownClear w = 0) ∧ (valueCode u Obj.thermalShutdownClear b = 0) ∧ (actCode u Obj.thermalShutdownClear
      (leNat b) b {} = 0)) :=
  ⟨⟨⟨⟨true, true, [], 1, 1, 4, 0, 9⟩, 6, (([1]) : Bytes).length, 0, true, [1]⟩, { State.reset with dev := { state := 1 } },
    by decide +kernel⟩,
   ⟨⟨⟨true, true, [], 1, 1, 4, 0, 9⟩, 6, (([1]) : Bytes).length, 0, true, [1]⟩, { State.reset with dev := { state := 2 } },
     by decide +kernel⟩,
   ⟨⟨⟨true, true, [], 1, 1, 4, 0, 9⟩, 6, (([1]) : Bytes).length, 0, true, [1]⟩, { State.reset with dev := { state := 2 } },
     by decide +kernel⟩,
   ⟨⟨⟨true, true, [], 1, 1, 4, 0, 9⟩, 6, (([1]) : Bytes).length, 0, true, [1]⟩, { State.reset with dev := { state := 2 } },
     by decide +kernel⟩,
   ⟨⟨⟨true, true, [], 1, 1, 4, 0, 9⟩, 6, (([1]) : Bytes).length, 0, true, [1]⟩, { State.reset with dev := { state := 2 } },
     by decide +kernel⟩,
   ⟨⟨⟨true, true, [], 1, 1, 4, 0, 9⟩, 1, (([1]) : Bytes).length, 0, true, [1]⟩,
     { State.reset with dev := { state := 4 }, images := { slots := [(3, { state := 2 })] } }, by decide +kernel⟩,
   ⟨⟨⟨true, true, [], 1, 1, 4, 0, 9⟩, 1, (([0]) : Bytes).length, 0, true, [0]⟩, { State.reset with dev := { state := 6 } },
     by decide +kernel⟩,
   ⟨⟨⟨true, true, [], 1, 1, 4, 0, 9⟩, 1, (([1]) : Bytes).length, 0, true, [1]⟩, { State.reset with dev := { state := 4 } },
     by decide +kernel⟩,
   ⟨⟨⟨true, true, [], 1, 1, 4, 0, 9⟩, 1, (([0]) : Bytes).length, 0, true, [0]⟩, { State.reset with dev := { state := 4 } },
     by decide +kernel⟩,
   ⟨⟨⟨true, true, [], 1, 1, 4, 0, 9⟩, 1, (([1]) : Bytes).length, 0, true, [1]⟩, { State.reset with dev := { state := 5 } },
     by decide +kernel⟩,
   ⟨⟨⟨true, true, [], 1, 1, 4, 0, 9⟩, 6, ((leBytes 1 2) : Bytes).length, 0, true, leBytes 1 2⟩, 2,
     { State.reset with dev := { state := 6 } }, by decide +kernel⟩,
   ⟨⟨⟨true, true, [], 1, 1, 4, 0, 9⟩, 6, ((leBytes 1 1) : Bytes).length, 0, true, leBytes 1 1⟩, 1,
     { State.reset with dev := { state := 5 } }, by decide +kernel⟩,
   ⟨⟨⟨true, true, [], 1, 1, 4, 0, 9⟩, 6, ((leBytes 1 2) : Bytes).length, 0, true, leBytes 1 2⟩, 2,
     { State.reset with dev := { state := 8 } }, by decide +kernel⟩,
   ⟨⟨⟨true, true, [], 1, 1, 4, 0, 9⟩, 6, (([1]) : Bytes).length, 0, true, [1]⟩,
     { State.reset with dev := { state := 5 }, therm := { dies := [(16, { level := 3, used := [900] })] } },
     by decide +kernel⟩,
   ⟨⟨⟨true, true, [], 1, 1, 4, 0, 9⟩, 6, (([1]) : Bytes).length, 0, true, [1]⟩,
     { State.reset with dev := { state := 5 }, pair := { state := 3, active := 1 } }, by decide +kernel⟩,
   ⟨⟨⟨true, true, [], 1, 1, 4, 0, 9⟩, 6, (([1]) : Bytes).length, 0, true, [1]⟩, (State.setObj
     { State.reset with dev := { state := 4 }, pair := { state := 2 } } Obj.stateReasons 32), by decide +kernel⟩,
   ⟨⟨⟨true, true, [], 1, 1, 4, 0, 9⟩, 6, (([1]) : Bytes).length, 0, true, [1]⟩, true,
     { State.reset with dev := { state := 5 }, pair := { state := 3, differ := true } }, by decide +kernel⟩,
   ⟨⟨⟨true, true, [], 1, 1, 4, 0, 9⟩, 6, (([1]) : Bytes).length, 0, true, [1]⟩, true,
     { State.reset with dev := { state := 5 } }, by decide +kernel⟩,
   ⟨⟨⟨true, true, [], 1, 1, 4, 0, 9⟩, 6, (([1]) : Bytes).length, 0, true, [1]⟩, { State.reset with dev := { state := 5 } },
     by decide +kernel⟩,
   ⟨⟨⟨true, true, [], 1, 1, 4, 0, 9⟩, 6, (([1]) : Bytes).length, 0, true, [1]⟩,
     { State.reset with dev := { state := 3 }, ens := { state := 3, items := 4 } }, by decide +kernel⟩,
   ⟨⟨⟨true, true, [], 1, 1, 4, 0, 9⟩, 6, (([1]) : Bytes).length, 0, true, [1]⟩, (State.setObj
     { State.reset with dev := { state := 5 }, ens := { state := 2 } } Obj.ensSize 4), by decide +kernel⟩,
   ⟨⟨⟨true, true, [], 1, 1, 4, 0, 9⟩, 6, ((leBytes 1 28) : Bytes).length, 0, true, leBytes 1 28⟩, 28,
     { State.reset with dev := { state := 5 }, therm := { dies := [(449, { level := 3, used := [300] })] } },
     by decide +kernel⟩,
   ⟨⟨⟨true, true, [], 1, 1, 4, 0, 9⟩, 6, ((leBytes 1 28) : Bytes).length, 0, true, leBytes 1 28⟩, 28,
     { State.reset with dev := { state := 5 }, therm := { dies := [(449, { level := 3, used := [900], reading := [900] })] } },
     by decide +kernel⟩,
   ⟨⟨⟨true, true, [], 1, 1, 4, 0, 9⟩, 6, ((leBytes 1 0) : Bytes).length, 0, true, leBytes 1 0⟩, 0, _,
     { State.reset with dev := { state := 5 } }, by decide +kernel, by decide +kernel, by decide +kernel, by decide +kernel,
     by decide +kernel, rfl, by decide +kernel⟩,
   ⟨⟨⟨true, true, [], 1, 1, 4, 0, 9⟩, 6, (([1]) : Bytes).length, 0, true, [1]⟩, [1], _,
     { State.reset with dev := { state := 1 } }, by decide +kernel, by decide +kernel, by decide +kernel, by decide +kernel,
     by decide +kernel, rfl, by decide +kernel, by decide +kernel, by decide +kernel⟩,
   ⟨⟨⟨true, true, [], 1, 1, 4, 0, 9⟩, 1, (([1]) : Bytes).length, 0, true, [1]⟩, [1], _, _,
     { State.reset with dev := { state := 4 } }, by decide +kernel, by decide +kernel, by decide +kernel, by decide +kernel,
     by decide +kernel, by decide +kernel, by decide +kernel, rfl, rfl, by decide +kernel, by decide +kernel,
     by decide +kernel⟩,
   ⟨⟨⟨true, true, [], 1, 1, 4, 0, 9⟩, 6, (([1]) : Bytes).length, 0, true, [1]⟩, [1], _,
     { State.reset with dev := { state := 6 } }, by decide +kernel, by decide +kernel, by decide +kernel, by decide +kernel,
     by decide +kernel, rfl, by decide +kernel, by decide +kernel, by decide +kernel⟩,
   ⟨⟨⟨true, true, [], 1, 1, 4, 0, 9⟩, 6, (([1]) : Bytes).length, 0, true, [1]⟩, [1], _,
     { State.reset with dev := { state := 6 } }, by decide +kernel, by decide +kernel, by decide +kernel, by decide +kernel,
     by decide +kernel, rfl, by decide +kernel, by decide +kernel, by decide +kernel⟩,
   ⟨⟨⟨true, true, [], 1, 1, 4, 0, 9⟩, 6, (([1]) : Bytes).length, 0, true, [1]⟩, true, [1], _,
     { State.reset with dev := { state := 4 }, pair := { state := 2 } }, by decide +kernel, by decide +kernel,
     by decide +kernel, by decide +kernel, by decide +kernel, rfl, by decide +kernel, by decide +kernel, by decide +kernel⟩,
   ⟨⟨⟨true, true, [], 1, 1, 4, 0, 9⟩, 6, (([1]) : Bytes).length, 0, true, [1]⟩, [1], _,
     { State.reset with dev := { state := 4 } }, by decide +kernel, by decide +kernel, by decide +kernel, by decide +kernel,
     by decide +kernel, rfl, by decide +kernel, by decide +kernel, by decide +kernel⟩,
   ⟨⟨⟨true, true, [], 1, 1, 4, 0, 9⟩, 6, (([1]) : Bytes).length, 0, true, [1]⟩, [1], _,
     { State.reset with dev := { state := 3 }, ens := { state := 3 } }, by decide +kernel, by decide +kernel,
     by decide +kernel, by decide +kernel, by decide +kernel, rfl, by decide +kernel, by decide +kernel, by decide +kernel⟩,
   ⟨⟨⟨true, true, [], 1, 1, 4, 0, 9⟩, 6, (([1]) : Bytes).length, 0, true, [1]⟩, [1], _,
     { State.reset with dev := { state := 4 } }, by decide +kernel, by decide +kernel, by decide +kernel, by decide +kernel,
     by decide +kernel, rfl, by decide +kernel, by decide +kernel, by decide +kernel⟩,
   ⟨⟨⟨true, true, [], 1, 1, 4, 0, 9⟩, 6, ((leBytes 1 28) : Bytes).length, 0, true, leBytes 1 28⟩, leBytes 1 28, _,
     { State.reset with dev := { state := 4 } }, by decide +kernel, by decide +kernel, by decide +kernel, by decide +kernel,
     by decide +kernel, rfl, by decide +kernel, by decide +kernel, by decide +kernel⟩⟩

/-- The hypotheses of each clause of ModuleRequests can be met. -/
theorem witness_ModuleRequests :
    (∃ (w : WReq) (v : Nat) (s : State), (Admitted w.hdr s) ∧ (s.dev.state ≠ 8) ∧ (Whole w 7 (leBytes 2 v)) ∧ (SetGood w.hdr
      ({ key := Obj.mcClockMhz, ty := 7, data := leBytes 2 v } : Entry) s) ∧ (s.dev.state ≠ 0) ∧ (800 ≤ v ∧ v ≤ 1800) ∧ (v %
      50 = 0)) ∧
    (∃ (w : WReq) (v : Nat) (s : State), (Admitted w.hdr s) ∧ (Whole w 1 (leBytes 1 v)) ∧ (s.dev.state ≠ 8) ∧ (v ≤ 1) ∧
      (s.test.unlocked = true ∨ v = 1)) ∧
    (∃ (w : WReq) (s : State), (Admitted w.hdr s) ∧ (Whole w 1 ([0])) ∧ (s.dev.state ≠ 8) ∧ (s.test.unlocked = false)) ∧
    (∃ (w : WReq) (v : Nat) (s : State), (Admitted w.hdr s) ∧ (Whole w 6 (leBytes 1 v)) ∧ (s.dev.state ≠ 8) ∧ (v ≤ 2) ∧
      (arbPending s v = false)) ∧
    (∃ (w : WReq) (v : Nat) (s : State), (Admitted w.hdr s) ∧ (Whole w 6 (leBytes 1 v)) ∧ (s.dev.state ≠ 8) ∧ (v ≤ 2) ∧
      (arbPending s v = true)) ∧
    (∃ (w : WReq) (s : State), (Admitted w.hdr s) ∧ (Whole w 6 ([1])) ∧ (s.dev.state ≠ 8) ∧ (s.dev.state ≠ 5) ∧
      (s.dev.started = true)) ∧
    (∃ (w : WReq) (s : State), (Admitted w.hdr s) ∧ (Whole w 6 ([1])) ∧ (s.dev.state ≠ 8) ∧ (s.dev.state ≠ 5) ∧
      (s.dev.started = false)) ∧
    (∃ (w : WReq) (s : State), (Admitted w.hdr s) ∧ (Whole w 6 [1]) ∧ (s.dev.state = 5)) ∧
    (∃ (w : WReq) (v : Nat) (s : State), (Admitted w.hdr s) ∧ (Whole w 6 (leBytes 1 v)) ∧ (s.dev.state ≠ 8) ∧ (v ≤ 28) ∧
      ((s.tile v).state = 0) ∧ (s.dev.started = true)) ∧
    (∃ (w : WReq) (v : Nat) (s : State), (Admitted w.hdr s) ∧ (Whole w 6 (leBytes 1 v)) ∧ (s.dev.state ≠ 8) ∧ (v ≤ 28) ∧
      ((s.tile v).state ≠ 0 ∨ s.dev.started = false)) ∧
    (∃ (w : WReq) (v : Nat) (s : State), (Admitted w.hdr s) ∧ (Whole w 6 (leBytes 1 v)) ∧ (s.dev.state ≠ 8) ∧ (v ≤ 9) ∧
      (removable s v = true)) ∧
    (∃ (w : WReq) (v : Nat) (s : State), (Admitted w.hdr s) ∧ (Whole w 6 (leBytes 1 v)) ∧ (s.dev.state ≠ 8) ∧ (v ≤ 9) ∧
      (removable s v = false)) ∧
    (∃ (w : WReq) (v : Nat) (s : State), (Admitted w.hdr s) ∧ (Whole w 6 (leBytes 1 v)) ∧ (s.dev.state ≠ 8) ∧ (v ≤ 7) ∧
      (handoverOn s v = false) ∧ ((s.harp 8).role = 2) ∧ (fedBy s 8 = none) ∧ (assignedTo s 8 = none)) ∧
    (∃ (w : WReq) (v : Nat) (s : State), (Admitted w.hdr s) ∧ (Whole w 6 (leBytes 1 v)) ∧ (s.dev.state ≠ 8) ∧ (v ≤ 7) ∧
      (handoverOn s v = true)) ∧
    (∃ (w : WReq) (s : State), (Admitted w.hdr s) ∧ (Whole w 6 ([1])) ∧ (4 ≤ s.dev.state ∧ s.dev.state ≤ 6) ∧ (s.obj
      Obj.soundingHalfSpanGhz % 2 = 0) ∧ (soundingHeld s = false) ∧ ((s.str (primaryString hubSite (s.obj
      Obj.soundingRim))).state ≤ 2) ∧ ((s.str (1068 + (s.obj Obj.soundingRim - 25))).state = 3)) ∧
    (∃ (w : WReq) (s : State), (Admitted w.hdr s) ∧ (Whole w 6 ([1])) ∧ (4 ≤ s.dev.state ∧ s.dev.state ≤ 6) ∧ (s.obj
      Obj.soundingHalfSpanGhz % 2 = 0) ∧ (soundingHeld s = false) ∧ ((s.str (primaryString hubSite (s.obj
      Obj.soundingRim))).state ≤ 2) ∧ ((s.str (1068 + (s.obj Obj.soundingRim - 25))).state ≠ 3) ∧ (s.wins = []) ∧ ((s.str
      (1068 + (s.obj Obj.soundingRim - 25))).unacked = []) ∧ (∀ c, c < 4 → tget [] c (s.str (1068 + (s.obj Obj.soundingRim -
      25))).txq = [])) ∧
    (∃ (w : WReq) (b : Bytes) (s : State), (Admitted w.hdr s) ∧ (Whole w 15 (b)) ∧ (s.dev.state ≠ 8) ∧ (s.fabric.drain =
      false) ∧ (validateRoutes s (parseRoutes b) = 0)) ∧
    (∃ (w : WReq) (b : Bytes) (s : State), (Admitted w.hdr s) ∧ (Whole w 15 (b)) ∧ (s.dev.state ≠ 8) ∧ (s.fabric.drain =
      false) ∧ (validateRoutes s (parseRoutes b) ≠ 0)) ∧
    (∃ (w : WReq) (b : Bytes) (s : State), (Admitted w.hdr s) ∧ (Whole w 15 (b)) ∧ (s.dev.state ≠ 8) ∧ (s.fabric.drain =
      true)) ∧
    (∃ (w : WReq) (v : Nat) (s : State), (Admitted w.hdr s) ∧ (s.dev.state ≠ 8) ∧ (Whole w 9 (leBytes 8 v)) ∧ (SetGood w.hdr
      ({ key := Obj.routeActivateBeat, ty := 9, data := leBytes 8 v } : Entry) s) ∧ (s.dev.state ≠ 0) ∧ (v < 2 ^ 64) ∧
      (s.fabric.drain = false) ∧ (s.beat + 1000000 ≤ v)) ∧
    (∃ (w : WReq) (v : Nat) (s : State), (Admitted w.hdr s) ∧ (s.dev.state ≠ 8) ∧ (Whole w 9 (leBytes 8 v)) ∧ (v < 2 ^ 64) ∧
      (SetGood w.hdr ({ key := Obj.routeActivateBeat, ty := 9, data := leBytes 8 v } : Entry) s) ∧ (s.fabric.drain = false) ∧
      (v < s.beat + 1000000)) ∧
    (∃ (w : WReq) (s : State), (Admitted w.hdr s) ∧ (Whole w 6 ([1])) ∧ (s.dev.state ≠ 8) ∧ (s.test.unlocked = true)) ∧
    (∃ (w : WReq) (v : Nat) (s : State), (Admitted w.hdr s) ∧ (s.dev.state ≠ 8) ∧ (Whole w 9 (leBytes 8 v)) ∧ (v < 2 ^ 64) ∧
      (SetGood w.hdr ({ key := Obj.routeActivateBeat, ty := 9, data := leBytes 8 v } : Entry) s) ∧ (s.fabric.drain = true)) ∧
    (∃ (w : WReq) (s : State), (Admitted w.hdr s) ∧ (Whole w 6 ([1])) ∧ (s.dev.state ≠ 8) ∧ (s.test.unlocked = false)) ∧
    (∃ (w : WReq) (v : Nat) (s : State), (Admitted w.hdr s) ∧ (s.dev.state ≠ 8) ∧ (Whole w 1 (leBytes 1 v)) ∧ (SetGood w.hdr
      ({ key := Obj.retrieverEnable, ty := 1, data := leBytes 1 v } : Entry) s) ∧ (s.dev.state = 3 ∨ s.dev.state = 4) ∧ (v ≤
      1)) ∧
    (∃ (w : WReq) (slot : SlotId) (b : Bytes) (s : State), (Admitted w.hdr s) ∧ (Whole w 15 (b)) ∧ (s.dev.state ≠ 8) ∧
      (b.length = 32) ∧ ((s.imgSlot slot.val).state = 0) ∧ (s.images.store.any (fun im => im.digest == b) = true)) ∧
    (∃ (w : WReq) (slot : SlotId) (b : Bytes) (s : State), (Admitted w.hdr s) ∧ (Whole w 15 (b)) ∧ (s.dev.state ≠ 8) ∧
      (b.length = 32) ∧ ((s.imgSlot slot.val).state = 0) ∧ (s.images.store.any (fun im => im.digest == b) = false)) ∧
    (∃ (w : WReq) (slot : SlotId) (s : State), (Admitted w.hdr s) ∧ (Whole w 6 ([1])) ∧ (s.dev.state ≠ 8) ∧ (2 ≤ (s.imgSlot
      slot.val).state)) ∧
    (∃ (w : WReq) (slot : SlotId) (s : State), (Admitted w.hdr s) ∧ (Whole w 6 [1]) ∧ (s.dev.state ≠ 8) ∧ ((s.imgSlot
      slot.val).state ≤ 1)) ∧
    (∃ (w : WReq) (slot : SlotId) (s : State), (Admitted w.hdr s) ∧ (Whole w 6 ([2])) ∧ (s.dev.state ≠ 8) ∧ (2 ≤ (s.imgSlot
      slot.val).state) ∧ (s.serve.ctxs = []) ∧ (slotQuiet s slot.val = true)) ∧
    (∃ (w : WReq) (slot : SlotId) (s : State), (Admitted w.hdr s) ∧ (Whole w 6 [2]) ∧ (s.dev.state ≠ 8) ∧ ((s.imgSlot
      slot.val).state ≤ 1)) ∧
    (∃ (w : WReq) (slot : SlotId) (b : Bytes) (s : State), (Admitted w.hdr s) ∧ (Whole w 15 (b)) ∧ (s.dev.state ≠ 8) ∧
      ((s.imgSlot slot.val).state ≠ 0)) ∧
    (∃ (w : WReq) (b : Bytes) (im : Image) (s : State), (Admitted w.hdr s) ∧ (Whole w 15 (b)) ∧ (s.dev.state ≠ 8) ∧
      (im.fileBytes = b.length) ∧ (ceilDiv b.length (2 ^ 20) ≤ s.images.freeMib) ∧ (checkFile s im = true) ∧
      (s.images.store.any (fun x => x.digest == im.digest) = false)) ∧
    (∃ (w : WReq) (b : Bytes) (im : Image) (s : State), (Admitted w.hdr s) ∧ (Whole w 15 (b)) ∧ (s.dev.state ≠ 8) ∧ (ceilDiv
      b.length (2 ^ 20) ≤ s.images.freeMib) ∧ (im.fileBytes ≠ b.length ∨ checkFile s im = false)) ∧
    (∃ (w : WReq) (k : Fin 4) (b : Bytes) (s : State), (Admitted w.hdr s) ∧ (s.dev.state ≠ 8) ∧ (Whole w 15 (b)) ∧ (SetGood
      w.hdr ({ key := (Obj.imageTrustKeyK + k.val), ty := 15, data := b } : Entry) s) ∧ (s.dev.state = 3 ∨ s.dev.state = 4) ∧
      (b.length = 32)) ∧
    (∃ (w : WReq) (k : BitVec 12) (b : Bytes) (s : State), (Admitted w.hdr s) ∧ (s.dev.state ≠ 8) ∧ (Whole w 15 (b)) ∧
      (SetGood w.hdr ({ key := (tenantKeyOf Obj.tenantKey k.toNat), ty := 15, data := b } : Entry) s) ∧ (s.dev.state ≠ 0) ∧
      (b.length = 32)) ∧
    (∃ (w : WReq) (v : Nat) (s : State), (Admitted w.hdr s) ∧ (Whole w 7 (leBytes 2 v)) ∧ (s.dev.state ≠ 8) ∧ (v ≤ 65535) ∧
      (v < s.images.store.length)) ∧
    (∃ (w : WReq) (v : Nat) (s : State), (Admitted w.hdr s) ∧ (Whole w 7 (leBytes 2 v)) ∧ (s.dev.state ≠ 8) ∧ (v ≤ 65535) ∧
      (s.images.store.length ≤ v)) ∧
    (∃ (w : WReq) (b : Bytes) (im : Option Image) (s : State), (Admitted w.hdr s) ∧ (Whole w 15 (b)) ∧ (s.dev.state ≠ 8) ∧
      (s.images.freeMib < ceilDiv b.length (2 ^ 20))) ∧
    (∃ (w : WReq) (b : Bytes) (s : State), (Admitted w.hdr s) ∧ (Whole w 15 (b)) ∧ (s.dev.state ≠ 8) ∧ (ceilDiv b.length (2 ^
      20) ≤ s.images.freeMib)) ∧
    (∃ (w : WReq) (b : Bytes) (e : Entry) (u : State) (s : State), (Admitted w.hdr s) ∧ (s.power.input ≠ 3) ∧ (s.config.owner
      = none ∨ s.config.owner = some w.hdr.client) ∧ (w.offset = 0) ∧ (w.last = true) ∧ (w.total = b.length) ∧ (w.data = b) ∧
      (e = { key := Obj.mcClockMhz, ty := w.ty, data := b }) ∧ (u = { s with config := taken w.hdr Obj.mcClockMhz s }) ∧
      (openCodeOf s w.hdr Obj.mcClockMhz w = 0) ∧ (valueCode u Obj.mcClockMhz b = 0) ∧ (setCode [e] {} u = none)) ∧
    (∃ (w : WReq) (b : Bytes) (u : State) (s : State), (Admitted w.hdr s) ∧ (w.offset = 0) ∧ (w.last = true) ∧ (w.total =
      b.length) ∧ (w.data = b) ∧ (u = { s with config := taken w.hdr Obj.ballastEnable s }) ∧ (openCodeOf s w.hdr
      Obj.ballastEnable w = 0) ∧ (valueCode u Obj.ballastEnable b = 0) ∧ (actCode u Obj.ballastEnable (leNat b) b {} = 0)) ∧
    (∃ (w : WReq) (b : Bytes) (u : State) (s : State), (Admitted w.hdr s) ∧ (w.offset = 0) ∧ (w.last = true) ∧ (w.total =
      b.length) ∧ (w.data = b) ∧ (u = { s with config := taken w.hdr Obj.arbCommit s }) ∧ (openCodeOf s w.hdr Obj.arbCommit w
      = 0) ∧ (valueCode u Obj.arbCommit b = 0) ∧ (actCode u Obj.arbCommit (leNat b) b {} = 0)) ∧
    (∃ (w : WReq) (b : Bytes) (u : State) (s : State), (Admitted w.hdr s) ∧ (w.offset = 0) ∧ (w.last = true) ∧ (w.total =
      b.length) ∧ (w.data = b) ∧ (u = { s with config := taken w.hdr Obj.marginTestRequest s }) ∧ (openCodeOf s w.hdr
      Obj.marginTestRequest w = 0) ∧ (valueCode u Obj.marginTestRequest b = 0) ∧ (actCode u Obj.marginTestRequest (leNat b) b
      {} = 0)) ∧
    (∃ (w : WReq) (b : Bytes) (u : State) (s : State), (Admitted w.hdr s) ∧ (w.offset = 0) ∧ (w.last = true) ∧ (w.total =
      b.length) ∧ (w.data = b) ∧ (u = { s with config := taken w.hdr Obj.tileReset s }) ∧ (openCodeOf s w.hdr Obj.tileReset w
      = 0) ∧ (valueCode u Obj.tileReset b = 0) ∧ (actCode u Obj.tileReset (leNat b) b {} = 0)) ∧
    (∃ (w : WReq) (b : Bytes) (u : State) (s : State), (Admitted w.hdr s) ∧ (w.offset = 0) ∧ (w.last = true) ∧ (w.total =
      b.length) ∧ (w.data = b) ∧ (u = { s with config := taken w.hdr Obj.harpRemovalRequest s }) ∧ (openCodeOf s w.hdr
      Obj.harpRemovalRequest w = 0) ∧ (valueCode u Obj.harpRemovalRequest b = 0) ∧ (actCode u Obj.harpRemovalRequest (leNat
      b) b {} = 0)) ∧
    (∃ (w : WReq) (b : Bytes) (u : State) (s : State), (Admitted w.hdr s) ∧ (w.offset = 0) ∧ (w.last = true) ∧ (w.total =
      b.length) ∧ (w.data = b) ∧ (u = { s with config := taken w.hdr Obj.handoverManual s }) ∧ (openCodeOf s w.hdr
      Obj.handoverManual w = 0) ∧ (valueCode u Obj.handoverManual b = 0) ∧ (actCode u Obj.handoverManual (leNat b) b {} = 0))
      ∧
    (∃ (w : WReq) (b : Bytes) (u : State) (s : State), (Admitted w.hdr s) ∧ (w.offset = 0) ∧ (w.last = true) ∧ (w.total =
      b.length) ∧ (w.data = b) ∧ (u = { s with config := taken w.hdr Obj.soundingStart s }) ∧ (openCodeOf s w.hdr
      Obj.soundingStart w = 0) ∧ (valueCode u Obj.soundingStart b = 0) ∧ (actCode u Obj.soundingStart (leNat b) b {} = 0)) ∧
    (∃ (w : WReq) (b : Bytes) (u : State) (s : State), (Admitted w.hdr s) ∧ (w.offset = 0) ∧ (w.last = true) ∧ (w.total =
      b.length) ∧ (w.data = b) ∧ (u = { s with config := taken w.hdr Obj.routeSetStaged s }) ∧ (openCodeOf s w.hdr
      Obj.routeSetStaged w = 0) ∧ (valueCode u Obj.routeSetStaged b = 0) ∧ (actCode u Obj.routeSetStaged (leNat b) b {} = 0))
      ∧
    (∃ (w : WReq) (b : Bytes) (e : Entry) (u : State) (s : State), (Admitted w.hdr s) ∧ (s.power.input ≠ 3) ∧ (s.config.owner
      = none ∨ s.config.owner = some w.hdr.client) ∧ (w.offset = 0) ∧ (w.last = true) ∧ (w.total = b.length) ∧ (w.data = b) ∧
      (e = { key := Obj.routeActivateBeat, ty := w.ty, data := b }) ∧ (u =
      { s with config := taken w.hdr Obj.routeActivateBeat s }) ∧ (openCodeOf s w.hdr Obj.routeActivateBeat w = 0) ∧
      (valueCode u Obj.routeActivateBeat b = 0) ∧ (setCode [e] {} u = none)) ∧
    (∃ (w : WReq) (b : Bytes) (u : State) (s : State), (Admitted w.hdr s) ∧ (w.offset = 0) ∧ (w.last = true) ∧ (w.total =
      b.length) ∧ (w.data = b) ∧ (u = { s with config := taken w.hdr Obj.fiApply s }) ∧ (openCodeOf s w.hdr Obj.fiApply w =
      0) ∧ (valueCode u Obj.fiApply b = 0) ∧ (actCode u Obj.fiApply (leNat b) b {} = 0)) ∧
    (∃ (w : WReq) (b : Bytes) (e : Entry) (u : State) (s : State), (Admitted w.hdr s) ∧ (s.power.input ≠ 3) ∧ (s.config.owner
      = none ∨ s.config.owner = some w.hdr.client) ∧ (w.offset = 0) ∧ (w.last = true) ∧ (w.total = b.length) ∧ (w.data = b) ∧
      (e = { key := Obj.retrieverEnable, ty := w.ty, data := b }) ∧ (u =
      { s with config := taken w.hdr Obj.retrieverEnable s }) ∧ (openCodeOf s w.hdr Obj.retrieverEnable w = 0) ∧ (valueCode u
      Obj.retrieverEnable b = 0) ∧ (setCode [e] {} u = none)) ∧
    (∃ (w : WReq) (slot : SlotId) (b : Bytes) (u : State) (s : State), (Admitted w.hdr s) ∧ (w.offset = 0) ∧ (w.last = true)
      ∧ (w.total = b.length) ∧ (w.data = b) ∧ (u = { s with config := taken w.hdr (slotKey Obj.slotLoad slot) s }) ∧
      (openCodeOf s w.hdr (slotKey Obj.slotLoad slot) w = 0) ∧ (valueCode u (slotKey Obj.slotLoad slot) b = 0) ∧ (actCode u
      (slotKey Obj.slotLoad slot) (leNat b) b {} = 0)) ∧
    (∃ (w : WReq) (slot : SlotId) (b : Bytes) (u : State) (s : State), (Admitted w.hdr s) ∧ (w.offset = 0) ∧ (w.last = true)
      ∧ (w.total = b.length) ∧ (w.data = b) ∧ (u = { s with config := taken w.hdr (slotKey Obj.slotUnload slot) s }) ∧
      (openCodeOf s w.hdr (slotKey Obj.slotUnload slot) w = 0) ∧ (valueCode u (slotKey Obj.slotUnload slot) b = 0) ∧ (actCode
      u (slotKey Obj.slotUnload slot) (leNat b) b {} = 0)) ∧
    (∃ (w : WReq) (slot : SlotId) (b : Bytes) (u : State) (s : State), (Admitted w.hdr s) ∧ (w.offset = 0) ∧ (w.last = true)
      ∧ (w.total = b.length) ∧ (w.data = b) ∧ (u = { s with config := taken w.hdr (slotKey Obj.slotUnload slot) s }) ∧
      (openCodeOf s w.hdr (slotKey Obj.slotUnload slot) w = 0) ∧ (valueCode u (slotKey Obj.slotUnload slot) b = 0) ∧ (actCode
      u (slotKey Obj.slotUnload slot) (leNat b) b {} = 0)) ∧
    (∃ (w : WReq) (im : Option Image) (b : Bytes) (u : State) (s : State), (Admitted w.hdr s) ∧ (w.offset = 0) ∧ (w.last =
      true) ∧ (w.total = b.length) ∧ (w.data = b) ∧ (u = { s with config := taken w.hdr Obj.imageUpload s }) ∧ (openCodeOf s
      w.hdr Obj.imageUpload w = 0) ∧ (valueCode u Obj.imageUpload b = 0) ∧ (actCode u Obj.imageUpload (leNat b) b
      { image := im } = 0)) ∧
    (∃ (w : WReq) (k : Fin 4) (b : Bytes) (e : Entry) (u : State) (s : State), (Admitted w.hdr s) ∧ (s.power.input ≠ 3) ∧
      (s.config.owner = none ∨ s.config.owner = some w.hdr.client) ∧ (w.offset = 0) ∧ (w.last = true) ∧ (w.total = b.length)
      ∧ (w.data = b) ∧ (e = { key := (Obj.imageTrustKeyK + k.val), ty := w.ty, data := b }) ∧ (u =
      { s with config := taken w.hdr (Obj.imageTrustKeyK + k.val) s }) ∧ (openCodeOf s w.hdr (Obj.imageTrustKeyK + k.val) w =
      0) ∧ (valueCode u (Obj.imageTrustKeyK + k.val) b = 0) ∧ (setCode [e] {} u = none)) ∧
    (∃ (w : WReq) (k : BitVec 12) (b : Bytes) (e : Entry) (u : State) (s : State), (Admitted w.hdr s) ∧ (s.power.input ≠ 3) ∧
      (s.config.owner = none ∨ s.config.owner = some w.hdr.client) ∧ (w.offset = 0) ∧ (w.last = true) ∧ (w.total = b.length)
      ∧ (w.data = b) ∧ (e = { key := (tenantKeyOf Obj.tenantKey k.toNat), ty := w.ty, data := b }) ∧ (u =
      { s with config := taken w.hdr (tenantKeyOf Obj.tenantKey k.toNat) s }) ∧ (openCodeOf s w.hdr (tenantKeyOf
      Obj.tenantKey k.toNat) w = 0) ∧ (valueCode u (tenantKeyOf Obj.tenantKey k.toNat) b = 0) ∧ (setCode [e] {} u = none)) ∧
    (∃ (w : WReq) (b : Bytes) (u : State) (s : State), (Admitted w.hdr s) ∧ (w.offset = 0) ∧ (w.last = true) ∧ (w.total =
      b.length) ∧ (w.data = b) ∧ (u = { s with config := taken w.hdr Obj.storeSel s }) ∧ (openCodeOf s w.hdr Obj.storeSel w =
      0) ∧ (valueCode u Obj.storeSel b = 0) ∧ (actCode u Obj.storeSel (leNat b) b {} = 0)) :=
  ⟨⟨⟨⟨true, true, [], 1, 1, 4, 0, 9⟩, 7, ((leBytes 2 1750) : Bytes).length, 0, true, leBytes 2 1750⟩, 1750,
    { State.reset with dev := { state := 5 } }, by decide +kernel⟩,
   ⟨⟨⟨true, true, [], 1, 1, 4, 0, 9⟩, 1, ((leBytes 1 0) : Bytes).length, 0, true, leBytes 1 0⟩, 0,
     { State.reset with dev := { state := 5 }, test := { unlocked := true } }, by decide +kernel⟩,
   ⟨⟨⟨true, true, [], 1, 1, 4, 0, 9⟩, 1, (([0]) : Bytes).length, 0, true, [0]⟩, { State.reset with dev := { state := 5 } },
     by decide +kernel⟩,
   ⟨⟨⟨true, true, [], 1, 1, 4, 0, 9⟩, 6, ((leBytes 1 1) : Bytes).length, 0, true, leBytes 1 1⟩, 1,
     { State.reset with dev := { state := 5 } }, by decide +kernel⟩,
   ⟨⟨⟨true, true, [], 1, 1, 4, 0, 9⟩, 6, ((leBytes 1 0) : Bytes).length, 0, true, leBytes 1 0⟩, 0,
     { State.reset with dev := { state := 5 }, arbs := [(0, { next := some ([], 0, 5) })] }, by decide +kernel⟩,
   ⟨⟨⟨true, true, [], 1, 1, 4, 0, 9⟩, 6, (([1]) : Bytes).length, 0, true, [1]⟩,
     { State.reset with dev := { state := 4, started := true } }, by decide +kernel⟩,
   ⟨⟨⟨true, true, [], 1, 1, 4, 0, 9⟩, 6, (([1]) : Bytes).length, 0, true, [1]⟩, { State.reset with dev := { state := 1 } },
     by decide +kernel⟩,
   ⟨⟨⟨true, true, [], 1, 1, 4, 0, 9⟩, 6, (([1]) : Bytes).length, 0, true, [1]⟩, { State.reset with dev := { state := 5 } },
     by decide +kernel⟩,
   ⟨⟨⟨true, true, [], 1, 1, 4, 0, 9⟩, 6, ((leBytes 1 28) : Bytes).length, 0, true, leBytes 1 28⟩, 28,
     { State.reset with dev := { state := 4, started := true } }, by decide +kernel⟩,
   ⟨⟨⟨true, true, [], 1, 1, 4, 0, 9⟩, 6, ((leBytes 1 3) : Bytes).length, 0, true, leBytes 1 3⟩, 3,
     { State.reset with dev := { state := 4, started := true }, tiles := [(3, { state := 1 })] }, by decide +kernel⟩,
   ⟨⟨⟨true, true, [], 1, 1, 4, 0, 9⟩, 6, ((leBytes 1 9) : Bytes).length, 0, true, leBytes 1 9⟩, 9,
     { State.reset with dev := { state := 5 }, harps := [(9, { role := 2 })] }, by decide +kernel⟩,
   ⟨⟨⟨true, true, [], 1, 1, 4, 0, 9⟩, 6, ((leBytes 1 0) : Bytes).length, 0, true, leBytes 1 0⟩, 0,
     { State.reset with dev := { state := 5 }, harps := [(0, { role := 1 })] }, by decide +kernel⟩,
   ⟨⟨⟨true, true, [], 1, 1, 4, 0, 9⟩, 6, ((leBytes 1 5) : Bytes).length, 0, true, leBytes 1 5⟩, 5,
     { State.reset with dev := { state := 4 }, harps := [(8, { role := 2 })] }, by decide +kernel⟩,
   ⟨⟨⟨true, true, [], 1, 1, 4, 0, 9⟩, 6, ((leBytes 1 5) : Bytes).length, 0, true, leBytes 1 5⟩, 5,
     { State.reset with dev := { state := 4 }, domains := [(5, { state := 1 })] }, by decide +kernel⟩,
   ⟨⟨⟨true, true, [], 1, 1, 4, 0, 9⟩, 6, (([1]) : Bytes).length, 0, true, [1]⟩, (State.setObj (State.setObj
     { State.reset with dev := { state := 5 }, strings := [(362, { state := 1 })] } Obj.soundingRim 27)
     Obj.soundingHalfSpanGhz 20), by decide +kernel⟩,
   ⟨⟨⟨true, true, [], 1, 1, 4, 0, 9⟩, 6, (([1]) : Bytes).length, 0, true, [1]⟩, (State.setObj (State.setObj
     { State.reset with dev := { state := 5 }, strings := [(362, { state := 1 }), (1070, { state := 1 })] } Obj.soundingRim
     27) Obj.soundingHalfSpanGhz 20), by decide +kernel⟩,
   ⟨⟨⟨true, true, [], 1, 1, 4, 0, 9⟩, 15, ((List.replicate 32 0) : Bytes).length, 0, true, List.replicate 32 0⟩,
     List.replicate 32 0, { State.reset with dev := { state := 5 } }, by decide +kernel⟩,
   ⟨⟨⟨true, true, [], 1, 1, 4, 0, 9⟩, 15, ((1 :: List.replicate 31 0) : Bytes).length, 0, true, 1 :: List.replicate 31 0⟩, 1
     :: List.replicate 31 0, { State.reset with dev := { state := 5 } }, by decide +kernel⟩,
   ⟨⟨⟨true, true, [], 1, 1, 4, 0, 9⟩, 15, (([1]) : Bytes).length, 0, true, [1]⟩, [1],
     { State.reset with dev := { state := 5 }, fabric := { drain := true } }, by decide +kernel⟩,
   ⟨⟨⟨true, true, [], 1, 1, 4, 0, 9⟩, 9, ((leBytes 8 1000000) : Bytes).length, 0, true, leBytes 8 1000000⟩, 1000000,
     { State.reset with dev := { state := 5 } }, by decide +kernel⟩,
   ⟨⟨⟨true, true, [], 1, 1, 4, 0, 9⟩, 9, ((leBytes 8 999999) : Bytes).length, 0, true, leBytes 8 999999⟩, 999999,
     { State.reset with dev := { state := 5 } }, by decide +kernel⟩,
   ⟨⟨⟨true, true, [], 1, 1, 4, 0, 9⟩, 6, (([1]) : Bytes).length, 0, true, [1]⟩, (State.setObj (State.setObj
     { State.reset with dev := { state := 5 }, test := { unlocked := true } } Obj.fiPort 3) Obj.fiMode 2),
     by decide +kernel⟩,
   ⟨⟨⟨true, true, [], 1, 1, 4, 0, 9⟩, 9, ((leBytes 8 999999) : Bytes).length, 0, true, leBytes 8 999999⟩, 999999,
     { State.reset with dev := { state := 5 }, fabric := { drain := true } }, by decide +kernel⟩,
   ⟨⟨⟨true, true, [], 1, 1, 4, 0, 9⟩, 6, (([1]) : Bytes).length, 0, true, [1]⟩, { State.reset with dev := { state := 5 } },
     by decide +kernel⟩,
   ⟨⟨⟨true, true, [], 1, 1, 4, 0, 9⟩, 1, ((leBytes 1 1) : Bytes).length, 0, true, leBytes 1 1⟩, 1,
     { State.reset with dev := { state := 4 } }, by decide +kernel⟩,
   ⟨⟨⟨true, true, [], 1, 1, 4, 0, 9⟩, 15, ((List.replicate 32 5) : Bytes).length, 0, true, List.replicate 32 5⟩, 3,
     List.replicate 32 5, { State.reset with dev := { state := 5 }, images := { store := [{ bareImage with digest := List.replicate 32 5 }] } },
     by decide +kernel⟩,
   ⟨⟨⟨true, true, [], 1, 1, 4, 0, 9⟩, 15, ((List.replicate 32 5) : Bytes).length, 0, true, List.replicate 32 5⟩, 3,
     List.replicate 32 5, { State.reset with dev := { state := 5 } }, by decide +kernel⟩,
   ⟨⟨⟨true, true, [], 1, 1, 4, 0, 9⟩, 6, (([1]) : Bytes).length, 0, true, [1]⟩, 3,
     { State.reset with dev := { state := 5 }, images := { slots := [(3, { state := 2 })] } }, by decide +kernel⟩,
   ⟨⟨⟨true, true, [], 1, 1, 4, 0, 9⟩, 6, (([1]) : Bytes).length, 0, true, [1]⟩, 3,
     { State.reset with dev := { state := 5 } }, by decide +kernel⟩,
   ⟨⟨⟨true, true, [], 1, 1, 4, 0, 9⟩, 6, (([2]) : Bytes).length, 0, true, [2]⟩, 3,
     { State.reset with dev := { state := 5 }, images := { slots := [(3, { state := 2 })] } }, by decide +kernel⟩,
   ⟨⟨⟨true, true, [], 1, 1, 4, 0, 9⟩, 6, (([2]) : Bytes).length, 0, true, [2]⟩, 3,
     { State.reset with dev := { state := 5 } }, by decide +kernel⟩,
   ⟨⟨⟨true, true, [], 1, 1, 4, 0, 9⟩, 15, ((List.replicate 32 5) : Bytes).length, 0, true, List.replicate 32 5⟩, 3,
     List.replicate 32 5, { State.reset with dev := { state := 5 }, images := { slots := [(3, { state := 2 })] } },
     by decide +kernel⟩,
   ⟨⟨⟨true, true, [], 1, 1, 4, 0, 9⟩, 15, ((List.replicate 344 0) : Bytes).length, 0, true, List.replicate 344 0⟩,
     List.replicate 344 0, loadableImage, (State.setObjB { State.reset with dev := { state := 5 } } Obj.imageTrustKeyK
     (List.replicate 32 1)), by decide +kernel⟩,
   ⟨⟨⟨true, true, [], 1, 1, 4, 0, 9⟩, 15, ((List.replicate 344 0) : Bytes).length, 0, true, List.replicate 344 0⟩,
     List.replicate 344 0, loadableImage, { State.reset with dev := { state := 5 } }, by decide +kernel⟩,
   ⟨⟨⟨true, true, [], 1, 1, 4, 0, 9⟩, 15, ((List.replicate 32 5) : Bytes).length, 0, true, List.replicate 32 5⟩, 3,
     List.replicate 32 5, { State.reset with dev := { state := 4 } }, by decide +kernel⟩,
   ⟨⟨⟨true, true, [], 1, 1, 4, 0, 9⟩, 15, ((List.replicate 32 5) : Bytes).length, 0, true, List.replicate 32 5⟩, 4095,
     List.replicate 32 5, { State.reset with dev := { state := 5 } }, by decide +kernel⟩,
   ⟨⟨⟨true, true, [], 1, 1, 4, 0, 9⟩, 7, ((leBytes 2 0) : Bytes).length, 0, true, leBytes 2 0⟩, 0,
     { State.reset with dev := { state := 5 }, images := { store := [bareImage] } }, by decide +kernel⟩,
   ⟨⟨⟨true, true, [], 1, 1, 4, 0, 9⟩, 7, ((leBytes 2 0) : Bytes).length, 0, true, leBytes 2 0⟩, 0,
     { State.reset with dev := { state := 5 } }, by decide +kernel⟩,
   ⟨⟨⟨true, true, [], 1, 1, 4, 0, 9⟩, 15, (([1]) : Bytes).length, 0, true, [1]⟩, [1], none,
     { State.reset with dev := { state := 5 }, images := { freeMib := 0 } }, by decide +kernel⟩,
   ⟨⟨⟨true, true, [], 1, 1, 4, 0, 9⟩, 15, (([1]) : Bytes).length, 0, true, [1]⟩, [1],
     { State.reset with dev := { state := 5 } }, by decide +kernel⟩,
   ⟨⟨⟨true, true, [], 1, 1, 4, 0, 9⟩, 7, ((leBytes 2 1750) : Bytes).length, 0, true, leBytes 2 1750⟩, leBytes 2 1750, _, _,
     { State.reset with dev := { state := 5 } }, by decide +kernel, by decide +kernel, by decide +kernel, by decide +kernel,
     by decide +kernel, by decide +kernel, by decide +kernel, rfl, rfl, by decide +kernel, by decide +kernel,
     by decide +kernel⟩,
   ⟨⟨⟨true, true, [], 1, 1, 4, 0, 9⟩, 1, (([1]) : Bytes).length, 0, true, [1]⟩, [1], _,
     { State.reset with dev := { state := 5 } }, by decide +kernel, by decide +kernel, by decide +kernel, by decide +kernel,
     by decide +kernel, rfl, by decide +kernel, by decide +kernel, by decide +kernel⟩,
   ⟨⟨⟨true, true, [], 1, 1, 4, 0, 9⟩, 6, (([1]) : Bytes).length, 0, true, [1]⟩, [1], _,
     { State.reset with dev := { state := 5 } }, by decide +kernel, by decide +kernel, by decide +kernel, by decide +kernel,
     by decide +kernel, rfl, by decide +kernel, by decide +kernel, by decide +kernel⟩,
   ⟨⟨⟨true, true, [], 1, 1, 4, 0, 9⟩, 6, (([1]) : Bytes).length, 0, true, [1]⟩, [1], _,
     { State.reset with dev := { state := 4, started := true } }, by decide +kernel, by decide +kernel, by decide +kernel,
     by decide +kernel, by decide +kernel, rfl, by decide +kernel, by decide +kernel, by decide +kernel⟩,
   ⟨⟨⟨true, true, [], 1, 1, 4, 0, 9⟩, 6, (([1]) : Bytes).length, 0, true, [1]⟩, [1], _,
     { State.reset with dev := { state := 4, started := true } }, by decide +kernel, by decide +kernel, by decide +kernel,
     by decide +kernel, by decide +kernel, rfl, by decide +kernel, by decide +kernel, by decide +kernel⟩,
   ⟨⟨⟨true, true, [], 1, 1, 4, 0, 9⟩, 6, ((leBytes 1 9) : Bytes).length, 0, true, leBytes 1 9⟩, leBytes 1 9, _,
     { State.reset with dev := { state := 5 }, harps := [(9, { role := 2 })] }, by decide +kernel, by decide +kernel,
     by decide +kernel, by decide +kernel, by decide +kernel, rfl, by decide +kernel, by decide +kernel, by decide +kernel⟩,
   ⟨⟨⟨true, true, [], 1, 1, 4, 0, 9⟩, 6, ((leBytes 1 5) : Bytes).length, 0, true, leBytes 1 5⟩, leBytes 1 5, _,
     { State.reset with dev := { state := 4 } }, by decide +kernel, by decide +kernel, by decide +kernel, by decide +kernel,
     by decide +kernel, rfl, by decide +kernel, by decide +kernel, by decide +kernel⟩,
   ⟨⟨⟨true, true, [], 1, 1, 4, 0, 9⟩, 6, (([1]) : Bytes).length, 0, true, [1]⟩, [1], _, (State.setObj (State.setObj
     { State.reset with dev := { state := 5 }, strings := [(362, { state := 1 })] } Obj.soundingRim 27)
     Obj.soundingHalfSpanGhz 20), by decide +kernel, by decide +kernel, by decide +kernel, by decide +kernel,
     by decide +kernel, rfl, by decide +kernel, by decide +kernel, by decide +kernel⟩,
   ⟨⟨⟨true, true, [], 1, 1, 4, 0, 9⟩, 15, ((List.replicate 32 0) : Bytes).length, 0, true, List.replicate 32 0⟩,
     List.replicate 32 0, _, { State.reset with dev := { state := 5 } }, by decide +kernel, by decide +kernel,
     by decide +kernel, by decide +kernel, by decide +kernel, rfl, by decide +kernel, by decide +kernel, by decide +kernel⟩,
   ⟨⟨⟨true, true, [], 1, 1, 4, 0, 9⟩, 9, ((leBytes 8 1000000) : Bytes).length, 0, true, leBytes 8 1000000⟩, leBytes 8
     1000000, _, _, { State.reset with dev := { state := 5 } }, by decide +kernel, by decide +kernel, by decide +kernel,
     by decide +kernel, by decide +kernel, by decide +kernel, by decide +kernel, rfl, rfl, by decide +kernel,
     by decide +kernel, by decide +kernel⟩,
   ⟨⟨⟨true, true, [], 1, 1, 4, 0, 9⟩, 6, (([1]) : Bytes).length, 0, true, [1]⟩, [1], _,
     { State.reset with dev := { state := 5 }, test := { unlocked := true } }, by decide +kernel, by decide +kernel,
     by decide +kernel, by decide +kernel, by decide +kernel, rfl, by decide +kernel, by decide +kernel, by decide +kernel⟩,
   ⟨⟨⟨true, true, [], 1, 1, 4, 0, 9⟩, 1, (([1]) : Bytes).length, 0, true, [1]⟩, [1], _, _,
     { State.reset with dev := { state := 4 } }, by decide +kernel, by decide +kernel, by decide +kernel, by decide +kernel,
     by decide +kernel, by decide +kernel, by decide +kernel, rfl, rfl, by decide +kernel, by decide +kernel,
     by decide +kernel⟩,
   ⟨⟨⟨true, true, [], 1, 1, 4, 0, 9⟩, 15, ((List.replicate 32 5) : Bytes).length, 0, true, List.replicate 32 5⟩, 3,
     List.replicate 32 5, _, { State.reset with dev := { state := 5 }, images := { store := [{ bareImage with digest := List.replicate 32 5 }] } },
     by decide +kernel, by decide +kernel, by decide +kernel, by decide +kernel, by decide +kernel, rfl, by decide +kernel,
     by decide +kernel, by decide +kernel⟩,
   ⟨⟨⟨true, true, [], 1, 1, 4, 0, 9⟩, 6, (([1]) : Bytes).length, 0, true, [1]⟩, 3, [1], _,
     { State.reset with dev := { state := 5 }, images := { slots := [(3, { state := 2 })] } }, by decide +kernel,
     by decide +kernel, by decide +kernel, by decide +kernel, by decide +kernel, rfl, by decide +kernel, by decide +kernel,
     by decide +kernel⟩,
   ⟨⟨⟨true, true, [], 1, 1, 4, 0, 9⟩, 6, (([2]) : Bytes).length, 0, true, [2]⟩, 3, [2], _,
     { State.reset with dev := { state := 5 }, images := { slots := [(3, { state := 2 })] } }, by decide +kernel,
     by decide +kernel, by decide +kernel, by decide +kernel, by decide +kernel, rfl, by decide +kernel, by decide +kernel,
     by decide +kernel⟩,
   ⟨⟨⟨true, true, [], 1, 1, 4, 0, 9⟩, 15, ((List.replicate 344 0) : Bytes).length, 0, true, List.replicate 344 0⟩, (some
     loadableImage), List.replicate 344 0, _, (State.setObjB { State.reset with dev := { state := 5 } } Obj.imageTrustKeyK
     (List.replicate 32 1)), by decide +kernel, by decide +kernel, by decide +kernel, by decide +kernel, by decide +kernel,
     rfl, by decide +kernel, by decide +kernel, by decide +kernel⟩,
   ⟨⟨⟨true, true, [], 1, 1, 4, 0, 9⟩, 15, ((List.replicate 32 5) : Bytes).length, 0, true, List.replicate 32 5⟩, 3,
     List.replicate 32 5, _, _, { State.reset with dev := { state := 4 } }, by decide +kernel, by decide +kernel,
     by decide +kernel, by decide +kernel, by decide +kernel, by decide +kernel, by decide +kernel, rfl, rfl,
     by decide +kernel, by decide +kernel, by decide +kernel⟩,
   ⟨⟨⟨true, true, [], 1, 1, 4, 0, 9⟩, 15, ((List.replicate 32 5) : Bytes).length, 0, true, List.replicate 32 5⟩, 4095,
     List.replicate 32 5, _, _, { State.reset with dev := { state := 5 } }, by decide +kernel, by decide +kernel,
     by decide +kernel, by decide +kernel, by decide +kernel, by decide +kernel, by decide +kernel, rfl, rfl,
     by decide +kernel, by decide +kernel, by decide +kernel⟩,
   ⟨⟨⟨true, true, [], 1, 1, 4, 0, 9⟩, 7, ((leBytes 2 0) : Bytes).length, 0, true, leBytes 2 0⟩, leBytes 2 0, _,
     { State.reset with dev := { state := 5 }, images := { store := [bareImage] } }, by decide +kernel, by decide +kernel,
     by decide +kernel, by decide +kernel, by decide +kernel, rfl, by decide +kernel, by decide +kernel, by decide +kernel⟩⟩

/-- The hypotheses of each clause of TimeAndTestRequests can be met. -/
theorem witness_TimeAndTestRequests :
    (∃ (w : WReq) (v : Nat) (s : State), (Admitted w.hdr s) ∧ (Whole w 9 (leBytes 8 v)) ∧ (v < 2 ^ 64) ∧ (s.dev.state = 3)) ∧
    (∃ (w : WReq) (v : Nat) (s : State), (Admitted w.hdr s) ∧ (Whole w 9 (leBytes 8 v)) ∧ (s.dev.state ≠ 8) ∧ (s.dev.state ≠
      3)) ∧
    (∃ (w : WReq) (v : Nat) (s : State), (Admitted w.hdr s) ∧ (s.dev.state ≠ 8) ∧ (Whole w 7 (leBytes 2 v)) ∧ (SetGood w.hdr
      ({ key := Obj.syncReferenceNode, ty := 7, data := leBytes 2 v } : Entry) s) ∧ (s.dev.state ≠ 0) ∧ (v ≤ 0x0FFF) ∧
      (inEnsemble s = false) ∧ (s.time.source ≠ 3) ∧ (s.ports = [])) ∧
    (∃ (w : WReq) (v c : Nat) (s : State), (Admitted w.hdr s) ∧ (Whole w 7 (leBytes 2 v)) ∧ (s.dev.state ≠ 8) ∧ (s.dev.state
      ≠ 0) ∧ (s.dev.state ≠ 2) ∧ (v ≤ 319) ∧ (unitFused s v = false) ∧ (unitDisabled s v = true) ∧ (s.kat.core = some c)) ∧
    (∃ (w : WReq) (v : Nat) (s : State), (Admitted w.hdr s) ∧ (Whole w 7 (leBytes 2 v)) ∧ (s.dev.state ≠ 8) ∧ (s.dev.state ≠
      0) ∧ (s.dev.state ≠ 2) ∧ (v ≤ 319) ∧ (unitFused s v = false) ∧ (unitDisabled s v = false)) ∧
    (∃ (w : WReq) (v : Nat) (s : State), (Admitted w.hdr s) ∧ (Whole w 7 (leBytes 2 v)) ∧ (s.dev.state ≠ 8) ∧ (s.dev.state ≠
      0) ∧ (s.dev.state ≠ 2) ∧ (v ≤ 319) ∧ (unitFused s v = true)) ∧
    (∃ (w : WReq) (v c : Nat) (s : State), (Admitted w.hdr s) ∧ (Whole w 7 (leBytes 2 v)) ∧ (s.dev.state ≠ 8) ∧ (s.dev.state
      ≠ 0) ∧ (s.dev.state ≠ 2) ∧ (v ≤ 319) ∧ (unitFused s v = false) ∧ (s.kat.core = some c)) ∧
    (∃ (w : WReq) (v : Nat) (s : State), (Admitted w.hdr s) ∧ (s.dev.state ≠ 8) ∧ (Whole w 1 (leBytes 1 v)) ∧ (SetGood w.hdr
      ({ key := Obj.testModePermit, ty := 1, data := leBytes 1 v } : Entry) s) ∧ (s.dev.state = 3 ∨ s.dev.state = 4) ∧ (v ≤
      1) ∧ (v = 1 ∨ s.test.unlocked = false)) ∧
    (∃ (w : WReq) (s : State), (Admitted w.hdr s) ∧ (s.dev.state ≠ 8) ∧ (Whole w 1 ([0])) ∧ (SetGood w.hdr
      ({ key := Obj.testModePermit, ty := 1, data := [0] } : Entry) s) ∧ (s.dev.state = 3 ∨ s.dev.state = 4) ∧
      (s.test.unlocked = true)) ∧
    (∃ (w : WReq) (s : State), (Admitted w.hdr s) ∧ (Whole w 6 ([1])) ∧ (s.dev.state ≠ 8) ∧ (s.dev.state ≠ 2) ∧ (s.obj
      Obj.testModePermit = 1) ∧ (s.test.unlocked = false)) ∧
    (∃ (w : WReq) (s : State), (Admitted w.hdr s) ∧ (Whole w 6 ([1])) ∧ (s.dev.state ≠ 8) ∧ (s.dev.state ≠ 2) ∧ (s.obj
      Obj.testModePermit = 1) ∧ (s.test.unlocked = true)) ∧
    (∃ (w : WReq) (s : State), (Admitted w.hdr s) ∧ (Whole w 6 ([1])) ∧ (s.dev.state ≠ 8) ∧ (s.dev.state ≠ 2) ∧ (s.obj
      Obj.testModePermit ≠ 1)) ∧
    (∃ (w : WReq) (s : State), (Admitted w.hdr s) ∧ (Whole w 6 ([1])) ∧ (s.dev.state ≠ 8) ∧ (s.test.unlocked = true)) ∧
    (∃ (w : WReq) (s : State), (Admitted w.hdr s) ∧ (Whole w 6 ([1])) ∧ (s.dev.state ≠ 8) ∧ (s.test.unlocked = false)) ∧
    (∃ (w : WReq) (s : State), (Admitted w.hdr s) ∧ (Whole w 6 ([1])) ∧ (s.dev.state ≠ 8) ∧ (s.test.unlocked = true) ∧ (isBus
      (s.obj Obj.sfiString) = false ∨ s.obj Obj.sfiMode ≤ 2) ∧ (s.obj Obj.sfiMode = 0 ∨ (s.str (s.obj
      Obj.sfiString)).inject.mode ≠ 0 ∨ injecting s ≤ 63)) ∧
    (∃ (w : WReq) (s : State), (Admitted w.hdr s) ∧ (Whole w 6 ([1])) ∧ (s.dev.state ≠ 8) ∧ (s.test.unlocked = true) ∧
      ((isBus (s.obj Obj.sfiString) = true ∧ 3 ≤ s.obj Obj.sfiMode) ∨ (s.obj Obj.sfiMode ≠ 0 ∧ (s.str (s.obj
      Obj.sfiString)).inject.mode = 0 ∧ 64 ≤ injecting s))) ∧
    (∃ (w : WReq) (s : State), (Admitted w.hdr s) ∧ (Whole w 6 ([1])) ∧ (s.dev.state ≠ 8) ∧ (s.test.unlocked = false)) ∧
    (∃ (w : WReq) (s : State), (Admitted w.hdr s) ∧ (Whole w 6 ([1])) ∧ (s.dev.state ≠ 8)) ∧
    (∃ (w : WReq) (s : State), (Admitted w.hdr s) ∧ (s.dev.state ≠ 8) ∧ (Whole w 1 ([1])) ∧ (SetGood w.hdr
      ({ key := Obj.beagleEnable, ty := 1, data := [1] } : Entry) s) ∧ (s.dev.state ≠ 0) ∧ (s.beagle.state = 0)) ∧
    (∃ (w : WReq) (s : State), (Admitted w.hdr s) ∧ (s.dev.state ≠ 8) ∧ (Whole w 1 ([0])) ∧ (SetGood w.hdr
      ({ key := Obj.beagleEnable, ty := 1, data := [0] } : Entry) s) ∧ (s.dev.state ≠ 0)) ∧
    (∃ (w : WReq) (s : State), (Admitted w.hdr s) ∧ (Whole w 6 ([1])) ∧ (s.dev.state ≠ 8) ∧ (s.beagle.state ≠ 1)) ∧
    (∃ (w : WReq) (s : State), (Admitted w.hdr s) ∧ (Whole w 6 [1]) ∧ (s.dev.state ≠ 8) ∧ (s.beagle.state = 1)) ∧
    (∃ (w : WReq) (v : Nat) (s : State), (Admitted w.hdr s) ∧ (Whole w 8 (leBytes 4 v)) ∧ (s.dev.state ≠ 8) ∧ (v < 2 ^ 32) ∧
      (logOldest s ≤ v ∧ v ≤ logNewest s)) ∧
    (∃ (w : WReq) (v : Nat) (s : State), (Admitted w.hdr s) ∧ (Whole w 8 (leBytes 4 v)) ∧ (s.dev.state ≠ 8) ∧ (v < logOldest
      s) ∧ (v < 2 ^ 32)) ∧
    (∃ (w : WReq) (v : Nat) (s : State), (Admitted w.hdr s) ∧ (Whole w 8 (leBytes 4 v)) ∧ (s.dev.state ≠ 8) ∧ (v < 2 ^ 32) ∧
      (logOldest s ≤ logNewest s) ∧ (logNewest s < v)) ∧
    (∃ (w : WReq) (s : State), (Admitted w.hdr s) ∧ (Whole w 6 ([1])) ∧ (s.dev.state = 3 ∨ s.dev.state = 4)) ∧
    (∃ (w : WReq) (b : Bytes) (u : State) (s : State), (Admitted w.hdr s) ∧ (w.offset = 0) ∧ (w.last = true) ∧ (w.total =
      b.length) ∧ (w.data = b) ∧ (u = { s with config := taken w.hdr Obj.isolationClear s }) ∧ (openCodeOf s w.hdr
      Obj.isolationClear w = 0) ∧ (valueCode u Obj.isolationClear b = 0) ∧ (actCode u Obj.isolationClear (leNat b) b {} = 0))
      ∧
    (∃ (w : WReq) (b : Bytes) (u : State) (s : State), (Admitted w.hdr s) ∧ (w.offset = 0) ∧ (w.last = true) ∧ (w.total =
      b.length) ∧ (w.data = b) ∧ (u = { s with config := taken w.hdr Obj.katRequest s }) ∧ (openCodeOf s w.hdr Obj.katRequest
      w = 0) ∧ (valueCode u Obj.katRequest b = 0) ∧ (actCode u Obj.katRequest (leNat b) b {} = 0)) ∧
    (∃ (w : WReq) (b : Bytes) (u : State) (s : State), (Admitted w.hdr s) ∧ (w.offset = 0) ∧ (w.last = true) ∧ (w.total =
      b.length) ∧ (w.data = b) ∧ (u = { s with config := taken w.hdr Obj.beatSecondsSet s }) ∧ (openCodeOf s w.hdr
      Obj.beatSecondsSet w = 0) ∧ (valueCode u Obj.beatSecondsSet b = 0) ∧ (actCode u Obj.beatSecondsSet (leNat b) b {} = 0))
      ∧
    (∃ (w : WReq) (b : Bytes) (e : Entry) (u : State) (s : State), (Admitted w.hdr s) ∧ (s.power.input ≠ 3) ∧ (s.config.owner
      = none ∨ s.config.owner = some w.hdr.client) ∧ (w.offset = 0) ∧ (w.last = true) ∧ (w.total = b.length) ∧ (w.data = b) ∧
      (e = { key := Obj.syncReferenceNode, ty := w.ty, data := b }) ∧ (u =
      { s with config := taken w.hdr Obj.syncReferenceNode s }) ∧ (openCodeOf s w.hdr Obj.syncReferenceNode w = 0) ∧
      (valueCode u Obj.syncReferenceNode b = 0) ∧ (setCode [e] {} u = none)) ∧
    (∃ (w : WReq) (b : Bytes) (e : Entry) (u : State) (s : State), (Admitted w.hdr s) ∧ (s.power.input ≠ 3) ∧ (s.config.owner
      = none ∨ s.config.owner = some w.hdr.client) ∧ (w.offset = 0) ∧ (w.last = true) ∧ (w.total = b.length) ∧ (w.data = b) ∧
      (e = { key := Obj.testModePermit, ty := w.ty, data := b }) ∧ (u =
      { s with config := taken w.hdr Obj.testModePermit s }) ∧ (openCodeOf s w.hdr Obj.testModePermit w = 0) ∧ (valueCode u
      Obj.testModePermit b = 0) ∧ (setCode [e] {} u = none)) ∧
    (∃ (w : WReq) (b : Bytes) (u : State) (s : State), (Admitted w.hdr s) ∧ (w.offset = 0) ∧ (w.last = true) ∧ (w.total =
      b.length) ∧ (w.data = b) ∧ (u = { s with config := taken w.hdr Obj.testModeUnlock s }) ∧ (openCodeOf s w.hdr
      Obj.testModeUnlock w = 0) ∧ (valueCode u Obj.testModeUnlock b = 0) ∧ (actCode u Obj.testModeUnlock (leNat b) b {} = 0))
      ∧
    (∃ (w : WReq) (b : Bytes) (u : State) (s : State), (Admitted w.hdr s) ∧ (w.offset = 0) ∧ (w.last = true) ∧ (w.total =
      b.length) ∧ (w.data = b) ∧ (u = { s with config := taken w.hdr Obj.testModeLock s }) ∧ (openCodeOf s w.hdr
      Obj.testModeLock w = 0) ∧ (valueCode u Obj.testModeLock b = 0) ∧ (actCode u Obj.testModeLock (leNat b) b {} = 0)) ∧
    (∃ (w : WReq) (b : Bytes) (u : State) (s : State), (Admitted w.hdr s) ∧ (w.offset = 0) ∧ (w.last = true) ∧ (w.total =
      b.length) ∧ (w.data = b) ∧ (u = { s with config := taken w.hdr Obj.sfiApply s }) ∧ (openCodeOf s w.hdr Obj.sfiApply w =
      0) ∧ (valueCode u Obj.sfiApply b = 0) ∧ (actCode u Obj.sfiApply (leNat b) b {} = 0)) ∧
    (∃ (w : WReq) (b : Bytes) (u : State) (s : State), (Admitted w.hdr s) ∧ (w.offset = 0) ∧ (w.last = true) ∧ (w.total =
      b.length) ∧ (w.data = b) ∧ (u = { s with config := taken w.hdr Obj.fiStopAll s }) ∧ (openCodeOf s w.hdr Obj.fiStopAll w
      = 0) ∧ (valueCode u Obj.fiStopAll b = 0) ∧ (actCode u Obj.fiStopAll (leNat b) b {} = 0)) ∧
    (∃ (w : WReq) (b : Bytes) (e : Entry) (u : State) (s : State), (Admitted w.hdr s) ∧ (s.power.input ≠ 3) ∧ (s.config.owner
      = none ∨ s.config.owner = some w.hdr.client) ∧ (w.offset = 0) ∧ (w.last = true) ∧ (w.total = b.length) ∧ (w.data = b) ∧
      (e = { key := Obj.beagleEnable, ty := w.ty, data := b }) ∧ (u = { s with config := taken w.hdr Obj.beagleEnable s }) ∧
      (openCodeOf s w.hdr Obj.beagleEnable w = 0) ∧ (valueCode u Obj.beagleEnable b = 0) ∧ (setCode [e] {} u = none)) ∧
    (∃ (w : WReq) (b : Bytes) (u : State) (s : State), (Admitted w.hdr s) ∧ (w.offset = 0) ∧ (w.last = true) ∧ (w.total =
      b.length) ∧ (w.data = b) ∧ (u = { s with config := taken w.hdr Obj.beagleClear s }) ∧ (openCodeOf s w.hdr
      Obj.beagleClear w = 0) ∧ (valueCode u Obj.beagleClear b = 0) ∧ (actCode u Obj.beagleClear (leNat b) b {} = 0)) ∧
    (∃ (w : WReq) (b : Bytes) (u : State) (s : State), (Admitted w.hdr s) ∧ (w.offset = 0) ∧ (w.last = true) ∧ (w.total =
      b.length) ∧ (w.data = b) ∧ (u = { s with config := taken w.hdr Obj.logSel s }) ∧ (openCodeOf s w.hdr Obj.logSel w = 0)
      ∧ (valueCode u Obj.logSel b = 0) ∧ (actCode u Obj.logSel (leNat b) b {} = 0)) ∧
    (∃ (w : WReq) (b : Bytes) (u : State) (s : State), (Admitted w.hdr s) ∧ (w.offset = 0) ∧ (w.last = true) ∧ (w.total =
      b.length) ∧ (w.data = b) ∧ (u = { s with config := taken w.hdr Obj.logClear s }) ∧ (openCodeOf s w.hdr Obj.logClear w =
      0) ∧ (valueCode u Obj.logClear b = 0) ∧ (actCode u Obj.logClear (leNat b) b {} = 0)) :=
  ⟨⟨⟨⟨true, true, [], 1, 1, 4, 0, 9⟩, 9, ((leBytes 8 77) : Bytes).length, 0, true, leBytes 8 77⟩, 77,
    { State.reset with dev := { state := 3 }, beat := 1234567890 }, by decide +kernel⟩,
   ⟨⟨⟨true, true, [], 1, 1, 4, 0, 9⟩, 9, ((leBytes 8 77) : Bytes).length, 0, true, leBytes 8 77⟩, 77,
     { State.reset with dev := { state := 5 } }, by decide +kernel⟩,
   ⟨⟨⟨true, true, [], 1, 1, 4, 0, 9⟩, 7, ((leBytes 2 17) : Bytes).length, 0, true, leBytes 2 17⟩, 17,
     { State.reset with dev := { state := 5 } }, by decide +kernel⟩,
   ⟨⟨⟨true, true, [], 1, 1, 4, 0, 9⟩, 7, ((leBytes 2 5) : Bytes).length, 0, true, leBytes 2 5⟩, 5, 9, (State.setObj
     { State.reset with dev := { state := 5 }, kat := { core := some 9 } } (Obj.coreDisableMask) 32), by decide +kernel⟩,
   ⟨⟨⟨true, true, [], 1, 1, 4, 0, 9⟩, 7, ((leBytes 2 5) : Bytes).length, 0, true, leBytes 2 5⟩, 5,
     { State.reset with dev := { state := 5 } }, by decide +kernel⟩,
   ⟨⟨⟨true, true, [], 1, 1, 4, 0, 9⟩, 7, ((leBytes 2 5) : Bytes).length, 0, true, leBytes 2 5⟩, 5, (State.setObj
     { State.reset with dev := { state := 5 } } (Obj.fusedCoreMask) 32), by decide +kernel⟩,
   ⟨⟨⟨true, true, [], 1, 1, 4, 0, 9⟩, 7, ((leBytes 2 319) : Bytes).length, 0, true, leBytes 2 319⟩, 319, 9,
     { State.reset with dev := { state := 5 }, kat := { core := some 9 } }, by decide +kernel⟩,
   ⟨⟨⟨true, true, [], 1, 1, 4, 0, 9⟩, 1, ((leBytes 1 1) : Bytes).length, 0, true, leBytes 1 1⟩, 1,
     { State.reset with dev := { state := 4 } }, by decide +kernel⟩,
   ⟨⟨⟨true, true, [], 1, 1, 4, 0, 9⟩, 1, (([0]) : Bytes).length, 0, true, [0]⟩,
     { State.reset with dev := { state := 4 }, test := { unlocked := true } }, by decide +kernel⟩,
   ⟨⟨⟨true, true, [], 1, 1, 4, 0, 9⟩, 6, (([1]) : Bytes).length, 0, true, [1]⟩, (State.setObj
     { State.reset with dev := { state := 5 } } Obj.testModePermit 1), by decide +kernel⟩,
   ⟨⟨⟨true, true, [], 1, 1, 4, 0, 9⟩, 6, (([1]) : Bytes).length, 0, true, [1]⟩, (State.setObj
     { State.reset with dev := { state := 5 }, test := { unlocked := true } } Obj.testModePermit 1), by decide +kernel⟩,
   ⟨⟨⟨true, true, [], 1, 1, 4, 0, 9⟩, 6, (([1]) : Bytes).length, 0, true, [1]⟩, { State.reset with dev := { state := 5 } },
     by decide +kernel⟩,
   ⟨⟨⟨true, true, [], 1, 1, 4, 0, 9⟩, 6, (([1]) : Bytes).length, 0, true, [1]⟩, (State.setObj
     { State.reset with dev := { state := 5 }, test := { unlocked := true }, strings := [(4, { inject := { mode := 2 } })] }
     Obj.ballastEnable 0), by decide +kernel⟩,
   ⟨⟨⟨true, true, [], 1, 1, 4, 0, 9⟩, 6, (([1]) : Bytes).length, 0, true, [1]⟩, { State.reset with dev := { state := 5 } },
     by decide +kernel⟩,
   ⟨⟨⟨true, true, [], 1, 1, 4, 0, 9⟩, 6, (([1]) : Bytes).length, 0, true, [1]⟩, (State.setObj (State.setObj
     { State.reset with dev := { state := 5 }, test := { unlocked := true } } Obj.sfiString 7) Obj.sfiMode 2),
     by decide +kernel⟩,
   ⟨⟨⟨true, true, [], 1, 1, 4, 0, 9⟩, 6, (([1]) : Bytes).length, 0, true, [1]⟩, (State.setObj (State.setObj
     { State.reset with dev := { state := 5 }, test := { unlocked := true } } Obj.sfiString 1080) Obj.sfiMode 3),
     by decide +kernel⟩,
   ⟨⟨⟨true, true, [], 1, 1, 4, 0, 9⟩, 6, (([1]) : Bytes).length, 0, true, [1]⟩, { State.reset with dev := { state := 5 } },
     by decide +kernel⟩,
   ⟨⟨⟨true, true, [], 1, 1, 4, 0, 9⟩, 6, (([1]) : Bytes).length, 0, true, [1]⟩,
     { State.reset with dev := { state := 5 }, strings := [(4, { inject := { mode := 2 } })] }, by decide +kernel⟩,
   ⟨⟨⟨true, true, [], 1, 1, 4, 0, 9⟩, 1, (([1]) : Bytes).length, 0, true, [1]⟩, { State.reset with dev := { state := 5 } },
     by decide +kernel⟩,
   ⟨⟨⟨true, true, [], 1, 1, 4, 0, 9⟩, 1, (([0]) : Bytes).length, 0, true, [0]⟩,
     { State.reset with dev := { state := 5 }, beagle := { state := 1 } }, by decide +kernel⟩,
   ⟨⟨⟨true, true, [], 1, 1, 4, 0, 9⟩, 6, (([1]) : Bytes).length, 0, true, [1]⟩,
     { State.reset with dev := { state := 5 }, beagle := { state := 2 } }, by decide +kernel⟩,
   ⟨⟨⟨true, true, [], 1, 1, 4, 0, 9⟩, 6, (([1]) : Bytes).length, 0, true, [1]⟩,
     { State.reset with dev := { state := 5 }, beagle := { state := 1 } }, by decide +kernel⟩,
   ⟨⟨⟨true, true, [], 1, 1, 4, 0, 9⟩, 8, ((leBytes 4 0) : Bytes).length, 0, true, leBytes 4 0⟩, 0,
     { State.reset with dev := { state := 5 } }, by decide +kernel⟩,
   ⟨⟨⟨true, true, [], 1, 1, 4, 0, 9⟩, 8, ((leBytes 4 2) : Bytes).length, 0, true, leBytes 4 2⟩, 2,
     { State.reset with dev := { state := 5 }, log := { entries := [{ seq := 5, boot := 0, beat := 0, utc := 0, key := 0, sev := 0, code := 0, site := 0, flags := 0, unit := 0, detail := [] }] } },
     by decide +kernel⟩,
   ⟨⟨⟨true, true, [], 1, 1, 4, 0, 9⟩, 8, ((leBytes 4 9) : Bytes).length, 0, true, leBytes 4 9⟩, 9,
     { State.reset with dev := { state := 5 } }, by decide +kernel⟩,
   ⟨⟨⟨true, true, [], 1, 1, 4, 0, 9⟩, 6, (([1]) : Bytes).length, 0, true, [1]⟩, { State.reset with dev := { state := 3 } },
     by decide +kernel⟩,
   ⟨⟨⟨true, true, [], 1, 1, 4, 0, 9⟩, 7, ((leBytes 2 5) : Bytes).length, 0, true, leBytes 2 5⟩, leBytes 2 5, _, (State.setObj
     { State.reset with dev := { state := 5 } } (Obj.coreDisableMask) 32), by decide +kernel, by decide +kernel,
     by decide +kernel, by decide +kernel, by decide +kernel, rfl, by decide +kernel, by decide +kernel, by decide +kernel⟩,
   ⟨⟨⟨true, true, [], 1, 1, 4, 0, 9⟩, 7, ((leBytes 2 5) : Bytes).length, 0, true, leBytes 2 5⟩, leBytes 2 5, _,
     { State.reset with dev := { state := 5 } }, by decide +kernel, by decide +kernel, by decide +kernel, by decide +kernel,
     by decide +kernel, rfl, by decide +kernel, by decide +kernel, by decide +kernel⟩,
   ⟨⟨⟨true, true, [], 1, 1, 4, 0, 9⟩, 9, ((leBytes 8 77) : Bytes).length, 0, true, leBytes 8 77⟩, leBytes 8 77, _,
     { State.reset with dev := { state := 3 } }, by decide +kernel, by decide +kernel, by decide +kernel, by decide +kernel,
     by decide +kernel, rfl, by decide +kernel, by decide +kernel, by decide +kernel⟩,
   ⟨⟨⟨true, true, [], 1, 1, 4, 0, 9⟩, 7, ((leBytes 2 17) : Bytes).length, 0, true, leBytes 2 17⟩, leBytes 2 17, _, _,
     { State.reset with dev := { state := 5 } }, by decide +kernel, by decide +kernel, by decide +kernel, by decide +kernel,
     by decide +kernel, by decide +kernel, by decide +kernel, rfl, rfl, by decide +kernel, by decide +kernel,
     by decide +kernel⟩,
   ⟨⟨⟨true, true, [], 1, 1, 4, 0, 9⟩, 1, (([1]) : Bytes).length, 0, true, [1]⟩, [1], _, _,
     { State.reset with dev := { state := 4 } }, by decide +kernel, by decide +kernel, by decide +kernel, by decide +kernel,
     by decide +kernel, by decide +kernel, by decide +kernel, rfl, rfl, by decide +kernel, by decide +kernel,
     by decide +kernel⟩,
   ⟨⟨⟨true, true, [], 1, 1, 4, 0, 9⟩, 6, (([1]) : Bytes).length, 0, true, [1]⟩, [1], _, (State.setObj
     { State.reset with dev := { state := 5 } } Obj.testModePermit 1), by decide +kernel, by decide +kernel,
     by decide +kernel, by decide +kernel, by decide +kernel, rfl, by decide +kernel, by decide +kernel, by decide +kernel⟩,
   ⟨⟨⟨true, true, [], 1, 1, 4, 0, 9⟩, 6, (([1]) : Bytes).length, 0, true, [1]⟩, [1], _,
     { State.reset with dev := { state := 5 } }, by decide +kernel, by decide +kernel, by decide +kernel, by decide +kernel,
     by decide +kernel, rfl, by decide +kernel, by decide +kernel, by decide +kernel⟩,
   ⟨⟨⟨true, true, [], 1, 1, 4, 0, 9⟩, 6, (([1]) : Bytes).length, 0, true, [1]⟩, [1], _,
     { State.reset with dev := { state := 5 }, test := { unlocked := true } }, by decide +kernel, by decide +kernel,
     by decide +kernel, by decide +kernel, by decide +kernel, rfl, by decide +kernel, by decide +kernel, by decide +kernel⟩,
   ⟨⟨⟨true, true, [], 1, 1, 4, 0, 9⟩, 6, (([1]) : Bytes).length, 0, true, [1]⟩, [1], _,
     { State.reset with dev := { state := 5 } }, by decide +kernel, by decide +kernel, by decide +kernel, by decide +kernel,
     by decide +kernel, rfl, by decide +kernel, by decide +kernel, by decide +kernel⟩,
   ⟨⟨⟨true, true, [], 1, 1, 4, 0, 9⟩, 1, (([1]) : Bytes).length, 0, true, [1]⟩, [1], _, _,
     { State.reset with dev := { state := 5 } }, by decide +kernel, by decide +kernel, by decide +kernel, by decide +kernel,
     by decide +kernel, by decide +kernel, by decide +kernel, rfl, rfl, by decide +kernel, by decide +kernel,
     by decide +kernel⟩,
   ⟨⟨⟨true, true, [], 1, 1, 4, 0, 9⟩, 6, (([1]) : Bytes).length, 0, true, [1]⟩, [1], _,
     { State.reset with dev := { state := 5 } }, by decide +kernel, by decide +kernel, by decide +kernel, by decide +kernel,
     by decide +kernel, rfl, by decide +kernel, by decide +kernel, by decide +kernel⟩,
   ⟨⟨⟨true, true, [], 1, 1, 4, 0, 9⟩, 8, ((leBytes 4 0) : Bytes).length, 0, true, leBytes 4 0⟩, leBytes 4 0, _,
     { State.reset with dev := { state := 5 } }, by decide +kernel, by decide +kernel, by decide +kernel, by decide +kernel,
     by decide +kernel, rfl, by decide +kernel, by decide +kernel, by decide +kernel⟩,
   ⟨⟨⟨true, true, [], 1, 1, 4, 0, 9⟩, 6, (([1]) : Bytes).length, 0, true, [1]⟩, [1], _,
     { State.reset with dev := { state := 3 } }, by decide +kernel, by decide +kernel, by decide +kernel, by decide +kernel,
     by decide +kernel, rfl, by decide +kernel, by decide +kernel, by decide +kernel⟩⟩

end Sys2Proof.Tests
end

section
/-! PROOFS. The disabled-unit map's digest (R21): how bytes and fields of records read, the width of a check value, and what a
change of the map leaves in the digest object. -/

namespace Sys2Proof.Machine

/-! Bytes and fields (R6). -/

theorem leNat_append (a b : Bytes) : leNat (a ++ b) = leNat a + 256 ^ a.length * leNat b := by
  induction a with
  | nil => simp [leNat]
  | cons x a ih => simp only [List.cons_append, leNat, ih, List.length_cons]; ring

theorem leNat_lt (b : Bytes) : leNat b < 256 ^ b.length := by
  induction b with
  | nil => simp [leNat]
  | cons x b ih =>
    have hx : x.toNat < 256 := x.isLt
    simp only [leNat, List.length_cons, pow_succ]
    omega

@[simp] theorem length_leBytes (n x : Nat) : (leBytes n x).length = n := by
  induction n generalizing x with
  | zero => rfl
  | succ n ih => simp [leBytes, ih]

/-- The bytes of a number spell its low bits. -/
theorem leNat_leBytes (n x : Nat) : leNat (leBytes n x) = x % 256 ^ n := by
  induction n generalizing x with
  | zero => simp [leBytes, leNat, Nat.mod_one]
  | succ n ih => rw [leBytes, leNat, ih, BitVec.toNat_ofNat, pow_succ' 256 n, Nat.mod_mul]

/-- A field that lies below bit w is not touched by a cut to w bits. -/
theorem bitsAt_mod_two_pow {w lo n : Nat} (x : Nat) (h : lo + n ≤ w) : bitsAt (x % 2 ^ w) lo n = bitsAt x lo n := by
  refine Nat.eq_of_testBit_eq fun i => ?_
  simp only [bitsAt, Nat.testBit_mod_two_pow, Nat.testBit_shiftRight]
  by_cases hi : i < n
  · simp [hi, show lo + i < w by omega]
  · simp [hi]

/-- The field of a record whose bytes are those of `v`, behind the bytes `p` and before the bytes `q`. -/
theorem fieldAt_leBytes {w lo n : Nat} {p : Bytes} (q : Bytes) (v : Nat) (hlo : lo = 8 * p.length) (h : lo + 8 * n ≤ w) :
    fieldAt (BitVec.ofNat w (leNat (p ++ (leBytes n v ++ q)))) lo (8 * n) = v % 2 ^ (8 * n) := by
  have pow8 (k : Nat) : 2 ^ (8 * k) = 256 ^ k := pow_mul 2 8 k
  have hp : 0 < 256 ^ p.length := by positivity
  unfold fieldAt
  rw [BitVec.toNat_ofNat, bitsAt_mod_two_pow _ h, bitsAt, Nat.shiftRight_eq_div_pow, hlo, pow8, pow8, leNat_append,
    Nat.add_mul_div_left _ _ hp, Nat.div_eq_of_lt (leNat_lt p), Nat.zero_add, leNat_append, leNat_leBytes, length_leBytes,
    Nat.add_mul_mod_self_left, Nat.mod_mod]

/-! Width of a check value (R343). -/

/-- The reversal's first m steps fill the upper m of n bits. -/
theorem revBits_partial_le {n m : Nat} (x : Nat) (h : m ≤ n) :
    (List.range m).foldl (fun a i => if x.testBit i then a + 2 ^ (n - 1 - i) else a) 0 + 2 ^ (n - m) ≤ 2 ^ n := by
  induction m with
  | zero => simp
  | succ m ih =>
    have hm := ih (by omega)
    have hpow : 2 ^ (n - m) = 2 ^ (n - 1 - m) + 2 ^ (n - 1 - m) := by
      rw [← Nat.two_pow_succ]; congr 1; omega
    rw [List.range_succ, List.foldl_append, show n - (m + 1) = n - 1 - m by omega]
    simp only [List.foldl_cons, List.foldl_nil]
    have hpos := Nat.two_pow_pos (n - 1 - m)
    split <;> omega

theorem revBits_lt (n x : Nat) : revBits n x < 2 ^ n := by
  have h := revBits_partial_le x (Nat.le_refl n)
  rw [Nat.sub_self, pow_zero] at h
  exact h

theorem crc32c_lt (b : Bytes) : crc32c b < 2 ^ 32 :=
  Nat.xor_lt_two_pow (revBits_lt 32 _) (by decide)

/-! The map digest (R21, R23, R298). -/

theorem length_mapBytes (s : State) : (mapBytes s).length = 40 := by
  simp [mapBytes]

theorem objRow_mapDigest : (objRow Obj.mapDigest).map (fun r => (byteType r.ty, r.len)) = some (false, 4) := by
  decide

theorem viewNat_mapDigest (s : State) : viewNat s Obj.mapDigest = some (crc32c (mapBytes s)) := rfl

/-- An object of an integer type reads as the bytes of its view. -/
theorem objValue_of_view {s : State} {k n v : Nat} (hr : (objRow k).map (fun r => (byteType r.ty, r.len)) = some (false, n))
    (hv : viewNat s k = some v) : objValue s k = leBytes n v := by
  obtain ⟨r, hrow, h⟩ := Option.map_eq_some_iff.mp hr
  obtain ⟨hty, rfl⟩ := Prod.mk.inj h
  simp [objValue, hrow, hty, hv]

theorem objValue_mapDigest (s : State) : objValue s Obj.mapDigest = leBytes 4 (crc32c (mapBytes s)) :=
  objValue_of_view objRow_mapDigest (viewNat_mapDigest s)

/-- The map's bytes are those of the five mask objects alone. -/
theorem mapBytes_of_masks {s t : State}
    (h : ∀ k, Obj.coreDisableMask ≤ k → k ≤ Obj.whippetDisableMask3 → t.obj k = s.obj k) : mapBytes t = mapBytes s := by
  unfold mapBytes
  rw [h Obj.coreDisableMask (by decide) (by decide), h Obj.whippetDisableMask0 (by decide) (by decide),
    h Obj.whippetDisableMask1 (by decide) (by decide), h Obj.whippetDisableMask2 (by decide) (by decide),
    h Obj.whippetDisableMask3 (by decide) (by decide)]

theorem mapBytes_setObj {k : Nat} (s : State) (v : Nat) (h : Obj.whippetDisableMask3 < k) :
    mapBytes (s.setObj k v) = mapBytes s :=
  mapBytes_of_masks fun _ _ hj => State.obj_setObj_other s v (by omega)

theorem mapBytes_count {k : Nat} (s : State) (n : Nat) (h : Obj.whippetDisableMask3 < k) :
    mapBytes (s.count k n) = mapBytes s :=
  mapBytes_setObj s _ h

/-- The digest is computed after the unit's bit has changed, and neither it nor the count is part of the map. -/
theorem mapChange_mapDigest (unit : Nat) (on : Bool) (s : State) :
    (mapChange unit on s).obj Obj.mapDigest = crc32c (mapBytes (mapChange unit on s)) := by
  unfold mapChange
  dsimp only
  rw [State.obj_count_other _ _ (by decide), State.obj_setObj, mapBytes_count _ _ (by decide),
    mapBytes_setObj (k := Obj.mapDigest) _ _ (by decide)]
  exact Nat.mod_eq_of_lt ((crc32c_lt _).trans_le (Nat.pow_le_pow_right two_pos (by decide)))

/-- The digest stands in bytes 16 to 19 of a record, whatever its kind. -/
theorem fieldAt_ensRec_mapDigest (s : State) (kind beat : Nat) :
    fieldAt (ensRec s kind beat) 128 32 = s.obj Obj.mapDigest % 2 ^ 32 := by
  unfold ensRec
  -- the five parts behind the digest, taken together
  iterate 5 rw [List.append_assoc]
  exact fieldAt_leBytes (n := 4) _ _ (by simp) (by decide)

/-- Settles O9, by the view of the digest object, the order of the writes in `mapChange`, and the digest's place in the bytes of
a record. -/
theorem mapDigest : Obligations.MapDigest := by
  unfold Obligations.MapDigest
  exact ⟨fun s => ⟨objValue_mapDigest s, length_mapBytes s⟩, fun s unit on _ => mapChange_mapDigest unit on s,
    fieldAt_ensRec_mapDigest⟩

end Sys2Proof.Machine
end

section
/-! PROOFS. Number formats (R26 to R35): what the code of a sign, an exponent and a mantissa decodes to, and the elements of
block formats under their scale. -/

namespace Sys2Proof.Machine

/-! Codes of a float format (R26, R27): S × 2^(eb + mb) + E × 2^mb + M. -/

section FloatCode

variable {eb mb sgn e m : Nat}

theorem floatCode_eq_two_pow_mul : sgn * 2 ^ (eb + mb) + e * 2 ^ mb + m = 2 ^ mb * (2 ^ eb * sgn + e) + m := by
  ring

theorem bitsAt_floatCode_mantissa (hm : m < 2 ^ mb) : bitsAt (sgn * 2 ^ (eb + mb) + e * 2 ^ mb + m) 0 mb = m := by
  rw [bitsAt, Nat.shiftRight_zero, floatCode_eq_two_pow_mul, Nat.mul_add_mod, Nat.mod_eq_of_lt hm]

theorem bitsAt_floatCode_exponent (he : e < 2 ^ eb) (hm : m < 2 ^ mb) :
    bitsAt (sgn * 2 ^ (eb + mb) + e * 2 ^ mb + m) mb eb = e := by
  rw [bitsAt, Nat.shiftRight_eq_div_pow, floatCode_eq_two_pow_mul, Nat.mul_add_div (Nat.two_pow_pos mb), Nat.div_eq_of_lt hm,
    Nat.add_zero, Nat.mul_add_mod, Nat.mod_eq_of_lt he]

theorem testBit_floatCode_sign (hs : sgn < 2) (he : e < 2 ^ eb) (hm : m < 2 ^ mb) :
    (sgn * 2 ^ (eb + mb) + e * 2 ^ mb + m).testBit (eb + mb) = decide (sgn = 1) := by
  rw [floatCode_eq_two_pow_mul, Nat.testBit_two_pow_mul_add _ hm, if_neg (by omega), Nat.add_sub_cancel,
    Nat.testBit_two_pow_mul_add _ he, if_neg (lt_irrefl eb), Nat.sub_self, Nat.testBit_zero, Nat.mod_eq_of_lt hs]

end FloatCode

/-! Decoding (R27, R28, R30). -/

section Decode

variable {f sgn e m : Nat} {p : FloatFmt}

/-- `floatDecode` on the fields of a code: the code's sign, exponent and mantissa stand for themselves. -/
theorem floatDecode_floatCode (hp : floatFmt f = some p) (hs : sgn < 2) (he : e < 2 ^ p.eb) (hm : m < 2 ^ p.mb) :
    floatDecode f (sgn * 2 ^ (p.eb + p.mb) + e * 2 ^ p.mb + m) =
      if p.inf && e == 2 ^ p.eb - 1 then (if m = 0 then .inf (decide (sgn = 1)) else .nan)
      else if f = fmtE4M3 ∧ e = 15 ∧ m = 7 then .nan
      else if e = 0 then .fin (decide (sgn = 1)) m (1 - (p.bias : Int) - p.mb)
      else .fin (decide (sgn = 1)) (2 ^ p.mb + m) ((e : Int) - p.bias - p.mb) := by
  simp only [floatDecode, hp, testBit_floatCode_sign hs he hm, bitsAt_floatCode_exponent he hm, bitsAt_floatCode_mantissa hm]

/-- The value of R28, for a code that R27 names neither an infinity nor a NaN. -/
theorem floatDecode_finite (hp : floatFmt f = some p) (hs : sgn < 2) (he : e < 2 ^ p.eb) (hm : m < 2 ^ p.mb)
    (hinf : ¬(p.inf = true ∧ e = 2 ^ p.eb - 1)) (hnan : ¬(f = fmtE4M3 ∧ e = 15 ∧ m = 7)) :
    floatDecode f (sgn * 2 ^ (p.eb + p.mb) + e * 2 ^ p.mb + m) =
      if e = 0 then .fin (decide (sgn = 1)) m (1 - (p.bias : Int) - p.mb)
      else .fin (decide (sgn = 1)) (2 ^ p.mb + m) ((e : Int) - p.bias - p.mb) := by
  rw [floatDecode_floatCode hp hs he hm, if_neg (by simpa using hinf), if_neg hnan]

/-- Infinities and NaNs at the largest exponent of a format that has infinities. -/
theorem floatDecode_nonfinite (hp : floatFmt f = some p) (hs : sgn < 2) (hm : m < 2 ^ p.mb) (hinf : p.inf = true) :
    floatDecode f (sgn * 2 ^ (p.eb + p.mb) + (2 ^ p.eb - 1) * 2 ^ p.mb + m) =
      if m = 0 then .inf (decide (sgn = 1)) else .nan := by
  rw [floatDecode_floatCode hp hs (Nat.sub_lt (Nat.two_pow_pos _) Nat.one_pos) hm, if_pos (by simp [hinf])]

end Decode

/-- The parameters of the narrow float formats (R27); E5M2 alone has infinities. -/
theorem floatFmt_narrow {f eb mb bias : Nat}
    (h : (f, eb, mb, bias) ∈ [(3, 4, 3, 7), (4, 5, 2, 15), (5, 3, 2, 3), (6, 2, 3, 1), (7, 2, 1, 1)]) :
    ∃ p, floatFmt f = some p ∧ p.eb = eb ∧ p.mb = mb ∧ p.bias = bias ∧ (p.inf = true → f = 4 ∧ eb = 5) := by
  simp only [List.mem_cons, Prod.mk.injEq, List.not_mem_nil, or_false] at h
  obtain ⟨rfl, rfl, rfl, rfl⟩ | ⟨rfl, rfl, rfl, rfl⟩ | ⟨rfl, rfl, rfl, rfl⟩ | ⟨rfl, rfl, rfl, rfl⟩ | ⟨rfl, rfl, rfl, rfl⟩ := h
  all_goals exact ⟨_, rfl, rfl, rfl, rfl, by decide⟩

theorem floatFmt_E5M2 : floatFmt 4 = some ⟨5, 2, 15, true, 7, 13⟩ := rfl

/-- The magnitudes of E5M2 (R30). -/
theorem floatDecode_E5M2 {sgn e m : Nat} (hs : sgn < 2) (he : e < 32) (hm : m < 4) :
    floatDecode 4 (sgn * 0x80 + e * 0x04 + m) =
      if e = 0 then .fin (decide (sgn = 1)) m (-16)
      else if e ≤ 30 then .fin (decide (sgn = 1)) (4 + m) ((e : Int) - 15 - 2)
      else if m = 0 then .inf (decide (sgn = 1)) else .nan := by
  by_cases hfin : e ≤ 30
  · rw [if_pos hfin]
    have hinf : ¬(true = true ∧ e = 2 ^ 5 - 1) := by omega
    exact floatDecode_finite floatFmt_E5M2 hs he hm hinf (fun h => absurd h.1 (by decide))
  · obtain rfl : e = 31 := by omega
    exact floatDecode_nonfinite floatFmt_E5M2 hs hm rfl

/-- Settles O7, by reading sign, exponent and mantissa back from the code and, for E5M2, the split of its exponents at 31. -/
theorem narrowFloatCodes : Obligations.NarrowFloatCodes := by
  unfold Obligations.NarrowFloatCodes
  refine ⟨fun f eb mb bias sgn e m hf hs he hm hE4M3 hE5M2 => ?_, fun _ _ _ hs he hm => floatDecode_E5M2 hs he hm⟩
  obtain ⟨p, hp, rfl, rfl, rfl, hinf⟩ := floatFmt_narrow hf
  refine floatDecode_finite hp hs he hm (fun ⟨hi, hmax⟩ => hE5M2 ?_) hE4M3
  obtain ⟨rfl, heb⟩ := hinf hi
  exact ⟨rfl, by rw [hmax, heb]; rfl⟩

/-! Block formats (R34, R35). -/

/-- A value multiplied by 2^k. -/
def Val.mulTwoPow (k : Int) : Val → Val
  | .fin neg m e => .fin neg m (e + k)
  | v => v

theorem fmtBlock_eq_true_iff {f : Nat} : fmtBlock f = true ↔ 0x0B ≤ f ∧ f ≤ 0x0E := by
  rw [fmtBlock, Bool.and_eq_true, decide_eq_true_eq, decide_eq_true_eq]
  rfl

theorem scaleExp_nan : scaleExp 0xFF = none := rfl

theorem scaleExp_of_le {e : Nat} (h : e ≤ 254) : scaleExp e = some ((e : Int) - 127) :=
  if_neg (by omega)

/-- The NaN scale makes every element a NaN, whatever its code. -/
theorem elemValue_scale_nan {f : Nat} (code : Nat) (h : fmtBlock f = true) : elemValue f code 0xFF = .nan := by
  simp [elemValue, h, scaleExp_nan]

theorem elemValue_BINT8 {scale : Nat} {k : Int} (code : Nat) (h : scaleExp scale = some k) :
    elemValue fmtBINT8 code scale = .fin (decide (intDecode fmtINT8 code < 0)) (intDecode fmtINT8 code).natAbs (-6 + k) := by
  have hb : fmtBlock fmtBINT8 = true := by decide
  simp [elemValue, hb, h]

/-- An element of BFP8, BFP6 or BFP4 is its element format's value times the scale. -/
theorem elemValue_floatBlock {f scale : Nat} {k : Int} (code : Nat) (hb : fmtBlock f = true) (hf : f ≠ fmtBINT8)
    (h : scaleExp scale = some k) : elemValue f code scale = (floatDecode (fmtElement f) code).mulTwoPow k := by
  have hi : fmtInteger f = false := by
    obtain ⟨hlo, -⟩ := fmtBlock_eq_true_iff.mp hb
    simp only [fmtInteger, fmtINT8, fmtUINT8, fmtINT4, Bool.or_eq_false_iff, beq_eq_false_iff_ne]
    omega
  simp only [elemValue, hf, hi, hb, h, if_false, if_true, Bool.false_eq_true]
  rfl

/-- The block formats of float elements and their element formats. -/
theorem fmtElement_floatBlock {f g : Nat} (h : (f, g) ∈ [(0x0B, 0x03), (0x0C, 0x06), (0x0D, 0x07)]) :
    fmtBlock f = true ∧ f ≠ fmtBINT8 ∧ fmtElement f = g := by
  simp only [List.mem_cons, Prod.mk.injEq, List.not_mem_nil, or_false] at h
  obtain ⟨rfl, rfl⟩ | ⟨rfl, rfl⟩ | ⟨rfl, rfl⟩ := h <;> decide

/-- Settles O8, by what `elemValue` answers under the NaN scale and under a scale 2^k. -/
theorem blockScales : Obligations.BlockScales := by
  unfold Obligations.BlockScales
  refine ⟨fun f code hf => elemValue_scale_nan code (fmtBlock_eq_true_iff.mpr hf), fun e he => scaleExp_of_le he,
    fun code e he => elemValue_BINT8 code (scaleExp_of_le he), fun f g code e hfg he => ?_⟩
  obtain ⟨hb, hf, rfl⟩ := fmtElement_floatBlock hfg
  rw [elemValue_floatBlock code hb hf (scaleExp_of_le he)]
  cases floatDecode (fmtElement f) code <;> rfl

end Sys2Proof.Machine
end

section
/-! PROOFS. What every command keeps (O5, O6): the queue, the canonical form of memory, and a device state of R286. Said once for
each command, from what the operations that it is made of keep. -/

namespace Sys2Proof.Machine

/-- Every field of the state but the queue of waiting commands. -/
abbrev allButQueue : Nat := 2 ^ 41 - 1

/-- An update of any fields but queue, memory, device record and free values. -/
theorem Keeps.update {s x : State}
    {v_beat v_od v_odb v_cores v_wins v_dies v_whips v_sched v_arbs v_strings v_tiles v_bus v_tags v_harps v_domains
    v_sounding v_dram v_ports v_fabric v_rmem v_retr v_serve v_images v_time v_config v_pair v_ens v_pod v_tallies v_power
    v_therm v_cvus v_kat v_test v_beagle v_log v_bad v_out}
    (h : Keeps allButQueue s x) : Keeps allButQueue s { x with
      beat := v_beat, od := v_od, odb := v_odb, cores := v_cores, wins := v_wins, dies := v_dies, whips := v_whips, sched :=
      v_sched, arbs := v_arbs, strings := v_strings, tiles := v_tiles, bus := v_bus, tags := v_tags, harps := v_harps,
      domains := v_domains, sounding := v_sounding, dram := v_dram, ports := v_ports, fabric := v_fabric, rmem := v_rmem,
      retr := v_retr, serve := v_serve, images := v_images, time := v_time, config := v_config, pair := v_pair, ens :=
      v_ens, pod := v_pod, tallies := v_tallies, power := v_power, therm := v_therm, cvus := v_cvus, kat := v_kat, test :=
      v_test, beagle := v_beagle, log := v_log, bad := v_bad, out := v_out } :=
  h.tr { (Keeps.refl allButQueue x) with
    beat := fun b => absurd b (by decide), od := fun b => absurd b (by decide), odb := fun b => absurd b (by decide),
    cores := fun b => absurd b (by decide), wins := fun b => absurd b (by decide), dies := fun b => absurd b (by decide),
    whips := fun b => absurd b (by decide), sched := fun b => absurd b (by decide), arbs := fun b => absurd b (by decide),
    strings := fun b => absurd b (by decide), tiles := fun b => absurd b (by decide), bus := fun b => absurd b (by decide),
    tags := fun b => absurd b (by decide), harps := fun b => absurd b (by decide), domains := fun b => absurd b (by decide),
    sounding := fun b => absurd b (by decide), dram := fun b => absurd b (by decide),
    ports := fun b => absurd b (by decide), fabric := fun b => absurd b (by decide), rmem := fun b => absurd b (by decide),
    retr := fun b => absurd b (by decide), serve := fun b => absurd b (by decide), images := fun b => absurd b (by decide),
    time := fun b => absurd b (by decide), config := fun b => absurd b (by decide), pair := fun b => absurd b (by decide),
    ens := fun b => absurd b (by decide), pod := fun b => absurd b (by decide), tallies := fun b => absurd b (by decide),
    power := fun b => absurd b (by decide), therm := fun b => absurd b (by decide), cvus := fun b => absurd b (by decide),
    kat := fun b => absurd b (by decide), test := fun b => absurd b (by decide), beagle := fun b => absurd b (by decide),
    log := fun b => absurd b (by decide), bad := fun b => absurd b (by decide), out := fun b => absurd b (by decide) }

/-- The same with the device record, whose state stays one of R286. -/
theorem Keeps.updateDev {s x : State}
    {v_beat v_od v_odb v_cores v_wins v_dies v_whips v_sched v_arbs v_strings v_tiles v_bus v_tags v_harps v_domains
    v_sounding v_dram v_ports v_fabric v_rmem v_retr v_serve v_images v_time v_config v_pair v_ens v_pod v_tallies v_power
    v_therm v_cvus v_kat v_test v_beagle v_log v_bad v_out v_dev}
    (hd : x.dev.state ≤ 8 → v_dev.state ≤ 8) (h : Keeps allButQueue s x) : Keeps allButQueue s { x with
      beat := v_beat, od := v_od, odb := v_odb, cores := v_cores, wins := v_wins, dies := v_dies, whips := v_whips, sched :=
      v_sched, arbs := v_arbs, strings := v_strings, tiles := v_tiles, bus := v_bus, tags := v_tags, harps := v_harps,
      domains := v_domains, sounding := v_sounding, dram := v_dram, ports := v_ports, fabric := v_fabric, rmem := v_rmem,
      retr := v_retr, serve := v_serve, images := v_images, time := v_time, config := v_config, dev := v_dev, pair :=
      v_pair, ens := v_ens, pod := v_pod, tallies := v_tallies, power := v_power, therm := v_therm, cvus := v_cvus, kat :=
      v_kat, test := v_test, beagle := v_beagle, log := v_log, bad := v_bad, out := v_out } :=
  h.tr { (Keeps.refl allButQueue x) with
    beat := fun b => absurd b (by decide), od := fun b => absurd b (by decide), odb := fun b => absurd b (by decide),
    cores := fun b => absurd b (by decide), wins := fun b => absurd b (by decide), dies := fun b => absurd b (by decide),
    whips := fun b => absurd b (by decide), sched := fun b => absurd b (by decide), arbs := fun b => absurd b (by decide),
    strings := fun b => absurd b (by decide), tiles := fun b => absurd b (by decide), bus := fun b => absurd b (by decide),
    tags := fun b => absurd b (by decide), harps := fun b => absurd b (by decide), domains := fun b => absurd b (by decide),
    sounding := fun b => absurd b (by decide), dram := fun b => absurd b (by decide),
    ports := fun b => absurd b (by decide), fabric := fun b => absurd b (by decide), rmem := fun b => absurd b (by decide),
    retr := fun b => absurd b (by decide), serve := fun b => absurd b (by decide), images := fun b => absurd b (by decide),
    time := fun b => absurd b (by decide), config := fun b => absurd b (by decide), pair := fun b => absurd b (by decide),
    ens := fun b => absurd b (by decide), pod := fun b => absurd b (by decide), tallies := fun b => absurd b (by decide),
    power := fun b => absurd b (by decide), therm := fun b => absurd b (by decide), cvus := fun b => absurd b (by decide),
    kat := fun b => absurd b (by decide), test := fun b => absurd b (by decide), beagle := fun b => absurd b (by decide),
    log := fun b => absurd b (by decide), bad := fun b => absurd b (by decide), out := fun b => absurd b (by decide),
    dev := fun b => absurd b (by decide)
    devOk := hd }

theorem KeepsX.ite {m : Nat} {s : State} {p : Prop} [Decidable p] {a b : Out} (ha : KeepsX m s a) (hb : KeepsX m s b) :
    KeepsX m s (if p then a else b) := by
  split
  · exact ha
  · exact hb

/-! Machine/MeteringPod -/

theorem execTallySend_keeps (s : State) : KeepsX allButQueue s (execTallySend s) := by
  unfold execTallySend
  dsimp only
  with_reducible repeat' first
    | apply KeepsX.ite | apply KeepsX.next | apply Keeps.refl | apply Keeps.ite | assumption
    | (apply ctlEmit_keeps_k; decide) | split | apply Keeps.update

theorem execTallyAck_keeps (seq : W32) (s : State) : KeepsX allButQueue s (execTallyAck seq s) := by
  unfold execTallyAck
  dsimp only
  with_reducible repeat' first
    | apply KeepsX.ite | apply KeepsX.next | apply Keeps.refl | apply Keeps.ite | assumption | split | apply Keeps.update

theorem execTallyResend_keeps (s : State) : KeepsX allButQueue s (execTallyResend s) := by
  unfold execTallyResend
  with_reducible repeat' first
    | apply KeepsX.ite | apply KeepsX.next | apply Keeps.refl | apply Keeps.ite | assumption
    | (apply ctlEmit_keeps_k; decide) | apply Keeps.foldl | intro x a hx | split | apply Keeps.update

theorem execTimeSend_keeps (s : State) : KeepsX allButQueue s (execTimeSend s) := by
  unfold execTimeSend
  with_reducible repeat' first
    | apply KeepsX.ite | apply KeepsX.next | apply Keeps.refl | apply Keeps.ite | assumption
    | (apply ctlEmit_keeps_k; decide) | split | apply Keeps.update

theorem execTally_keeps (m : Tally) (s : State) : KeepsX allButQueue s (execTally m s) := by
  unfold execTally
  dsimp only
  with_reducible repeat' first
    | apply KeepsX.ite | apply KeepsX.next | apply Keeps.refl | apply Keeps.ite | assumption
    | (apply State_count_keeps_k; decide) | (apply State_emit_keeps_k; decide) | apply Keeps.foldl | split
    | apply Keeps.update

theorem execIntervalClose_keeps (energyUwh : Nat) (s : State) : KeepsX allButQueue s (execIntervalClose energyUwh s) := by
  unfold execIntervalClose
  dsimp only
  with_reducible repeat' first
    | apply KeepsX.ite | apply KeepsX.next | apply Keeps.refl | apply Keeps.ite | assumption
    | (apply closeInterval_keeps_k; decide) | (apply addEnergy_keeps_k; decide)

theorem execPodPowerLoss_keeps (energyUwh : Nat) (s : State) : KeepsX allButQueue s (execPodPowerLoss energyUwh s) := by
  unfold execPodPowerLoss
  dsimp only
  with_reducible repeat' first
    | apply KeepsX.ite | apply KeepsX.next | apply Keeps.refl | apply Keeps.ite | assumption
    | (apply addEnergy_keeps_k; decide) | split | apply Keeps.update

theorem execPodPowerUp_keeps (clockNow : W64) (s : State) : KeepsX allButQueue s (execPodPowerUp clockNow s) := by
  unfold execPodPowerUp
  dsimp only
  with_reducible repeat' first
    | apply KeepsX.ite | apply KeepsX.next | apply Keeps.refl | apply Keeps.ite | assumption
    | (apply closeOutage_keeps_k; decide) | split | apply Keeps.update

theorem execSupercapacitorExhausted_keeps (s : State) : KeepsX allButQueue s (execSupercapacitorExhausted s) := by
  unfold execSupercapacitorExhausted
  with_reducible repeat' first
    | apply KeepsX.ite | apply KeepsX.next | apply Keeps.refl | apply Keeps.ite | assumption | split | apply Keeps.update

theorem execCoinCellExhausted_keeps (s : State) : KeepsX allButQueue s (execCoinCellExhausted s) := by
  unfold execCoinCellExhausted
  with_reducible repeat' first
    | apply KeepsX.ite | apply KeepsX.next | apply Keeps.refl | apply Keeps.ite | assumption | split | apply Keeps.update

theorem execTime_keeps (utc : W64) (s : State) : KeepsX allButQueue s (execTime utc s) := by
  unfold execTime
  dsimp only
  with_reducible repeat' first
    | apply KeepsX.ite | apply KeepsX.next | apply Keeps.refl | apply Keeps.ite | assumption
    | (apply State_setObjI_keeps_k; decide) | (apply State_count_keeps_k; decide) | split | apply Keeps.update

theorem execCoverOpen_keeps (s : State) : KeepsX allButQueue s (execCoverOpen s) := by
  unfold execCoverOpen
  dsimp only
  with_reducible repeat' first
    | apply KeepsX.ite | apply KeepsX.next | apply Keeps.refl | apply Keeps.ite | assumption
    | (apply State_count_keeps_k; decide) | split | apply Keeps.update

theorem execCoverClose_keeps (s : State) : KeepsX allButQueue s (execCoverClose s) := by
  unfold execCoverClose
  with_reducible repeat' first
    | apply KeepsX.ite | apply KeepsX.next | apply Keeps.refl | apply Keeps.ite | assumption | split | apply Keeps.update

theorem execCalRunCalibrate_keeps (s : State) : KeepsX allButQueue s (execCalRunCalibrate s) := by
  unfold execCalRunCalibrate
  with_reducible repeat' first
    | apply KeepsX.ite | apply KeepsX.next | apply Keeps.refl | apply Keeps.ite | assumption | split | apply Keeps.update

theorem execCalRunVerify_keeps (s : State) : KeepsX allButQueue s (execCalRunVerify s) := by
  unfold execCalRunVerify
  with_reducible repeat' first
    | apply KeepsX.ite | apply KeepsX.next | apply Keeps.refl | apply Keeps.ite | assumption | split | apply Keeps.update

theorem execCalRunDone_keeps (ref : RunReference) (temp : Int) (first repeated : List Int) (s : State) :
    KeepsX allButQueue s (execCalRunDone ref temp first repeated s) := by
  unfold execCalRunDone
  dsimp only
  with_reducible repeat' first
    | apply KeepsX.ite | apply KeepsX.next | apply Keeps.refl | apply Keeps.ite | assumption
    | (apply State_setObj_keeps_k; decide) | (apply State_count_keeps_k; decide) | apply Keeps.foldl | split
    | apply Keeps.update

theorem execVerifyDone_keeps (ref : RunReference) (temp : Int) (first repeated : List Int) (s : State) :
    KeepsX allButQueue s (execVerifyDone ref temp first repeated s) := by
  unfold execVerifyDone
  dsimp only
  with_reducible repeat' first
    | apply KeepsX.ite | apply KeepsX.next | apply Keeps.refl | apply Keeps.ite | assumption
    | (apply State_setObj_keeps_k; decide) | apply Keeps.foldl | split | apply Keeps.update

theorem execPodFirmwareReplace_keeps (version : W32) (digest : Bytes) (s : State) :
    KeepsX allButQueue s (execPodFirmwareReplace version digest s) := by
  unfold execPodFirmwareReplace
  dsimp only
  with_reducible repeat' first
    | apply KeepsX.ite | apply KeepsX.next | apply Keeps.refl | apply Keeps.ite | assumption
    | (apply State_setObj_keeps_k; decide) | split | apply Keeps.update

theorem execPodSelfCheck_keeps (s : State) : KeepsX allButQueue s (execPodSelfCheck s) := by
  unfold execPodSelfCheck
  with_reducible repeat' first
    | apply KeepsX.ite | apply KeepsX.next | apply Keeps.refl | apply Keeps.ite | assumption | split | apply Keeps.update

/-! Machine/Dram -/

theorem execDramTrainingDone_keeps (k : StackId) (channels : W16) (full : Bool) (s : State) :
    KeepsX allButQueue s (execDramTrainingDone k channels full s) := by
  unfold execDramTrainingDone
  dsimp only
  with_reducible repeat' first
    | apply KeepsX.ite | apply KeepsX.next | apply Keeps.refl | apply Keeps.ite | assumption
    | (apply State_setObj_keeps_k; decide) | (apply settleDram_keeps_k; decide) | (apply repairRows_keeps_k; decide)
    | (apply stackFails_keeps_k; decide) | split | apply Keeps.update

theorem execDramRecenter_keeps (k : StackId) (channel : Fin 16) (s : State) :
    KeepsX allButQueue s (execDramRecenter k channel s) := by
  unfold execDramRecenter
  dsimp only
  with_reducible repeat' first
    | apply KeepsX.ite | apply KeepsX.next | apply Keeps.refl | apply Keeps.ite | assumption | split | apply Keeps.update

theorem execRefresh_keeps (k : StackId) (s : State) : KeepsX allButQueue s (execRefresh k s) := by
  unfold execRefresh
  with_reducible repeat' first
    | apply KeepsX.ite | apply KeepsX.next | apply Keeps.refl | apply Keeps.ite | assumption | split | apply Keeps.update

theorem execDramScrub_keeps (k : StackId) (unit : Nat) (err : Fin 3) (s : State) :
    KeepsX allButQueue s (execDramScrub k unit err s) := by
  unfold execDramScrub
  dsimp only
  with_reducible repeat' first
    | apply KeepsX.ite | apply KeepsX.next | apply Keeps.refl | apply Keeps.ite | assumption
    | (apply correctedRead_keeps_k; decide) | (apply uncorrectable_keeps_k; decide) | split | apply Keeps.update

theorem execImageDataReloadDone_keeps (slot : SlotId) (s : State) : KeepsX allButQueue s
    (execImageDataReloadDone slot s) := by
  unfold execImageDataReloadDone
  dsimp only
  with_reducible repeat' first
    | apply KeepsX.ite | apply KeepsX.next | apply Keeps.refl | apply Keeps.ite | assumption
    | (apply writeImagePage_keeps_k; decide) | (apply settleDram_keeps_k; decide) | apply Keeps.foldl | intro x a hx | split
    | apply Keeps.update

/-! Machine/Kernel -/

theorem execNoOperation_keeps (i : Issue) (s : State) : KeepsX allButQueue s (execNoOperation i s) := by
  unfold execNoOperation
  with_reducible repeat' first
    | apply KeepsX.next | apply Keeps.refl | assumption | (apply issue_keeps_k; decide) | intro n T x hx

theorem execMark_keeps (i : Issue) (s : State) : KeepsX allButQueue s (execMark i s) := by
  unfold execMark
  with_reducible repeat' first
    | apply KeepsX.next | apply Keeps.refl | assumption | (apply opMark_keeps_k; decide) | (apply issue_keeps_k; decide)
    | intro n T x hx

theorem execPanel_keeps (i : Issue) (desc : Fin 32) (row : W16) (adv : Bool) (s : State) :
    KeepsX allButQueue s (execPanel i desc row adv s) := by
  unfold execPanel
  with_reducible repeat' first
    | apply KeepsX.next | apply Keeps.refl | assumption | (apply opPanel_keeps_k; decide) | (apply issue_keeps_k; decide)
    | intro n T x hx

theorem execRows_keeps (i : Issue) (desc : Fin 32) (row : W16) (count : Fin 64) (adv : Bool) (s : State) :
    KeepsX allButQueue s (execRows i desc row count adv s) := by
  unfold execRows
  with_reducible repeat' first
    | apply KeepsX.next | apply Keeps.refl | assumption | (apply opRows_keeps_k; decide) | (apply issue_keeps_k; decide)
    | intro n T x hx

theorem execVload_keeps (i : Issue) (desc : Fin 32) (row : W16) (vd : VReg) (adv : Bool) (s : State) :
    KeepsX allButQueue s (execVload i desc row vd adv s) := by
  unfold execVload
  with_reducible repeat' first
    | apply KeepsX.next | apply Keeps.refl | assumption | (apply opVload_keeps_k; decide) | (apply issue_keeps_k; decide)
    | intro n T x hx

theorem execAstore_keeps (i : Issue) (desc : Fin 32) (bank : Fin 4) (row count : Fin 64) (m : CvtMode) (adv : Bool)
    (s : State) :
    KeepsX allButQueue s (execAstore i desc bank row count m adv s) := by
  unfold execAstore
  with_reducible repeat' first
    | apply KeepsX.next | apply Keeps.refl | assumption | (apply opAstore_keeps_k; decide) | (apply issue_keeps_k; decide)
    | intro n T x hx

theorem execVstore_keeps (i : Issue) (desc : Fin 32) (v : VReg) (m : CvtMode) (adv : Bool) (s : State) :
    KeepsX allButQueue s (execVstore i desc v m adv s) := by
  unfold execVstore
  with_reducible repeat' first
    | apply KeepsX.next | apply Keeps.refl | assumption | (apply opVstore_keeps_k; decide) | (apply issue_keeps_k; decide)
    | intro n T x hx

theorem execMma_keeps (i : Issue) (fa fb : BitVec 5) (bank : Fin 4) (row count : Fin 64) (swap : Bool) (s : State) :
    KeepsX allButQueue s (execMma i fa fb bank row count swap s) := by
  unfold execMma
  with_reducible repeat' first
    | apply KeepsX.next | apply Keeps.refl | assumption | (apply opMatrix_keeps_k; decide) | (apply issue_keeps_k; decide)
    | intro n T x hx

theorem execMmz_keeps (i : Issue) (fa fb : BitVec 5) (bank : Fin 4) (row count : Fin 64) (swap : Bool) (s : State) :
    KeepsX allButQueue s (execMmz i fa fb bank row count swap s) := by
  unfold execMmz
  with_reducible repeat' first
    | apply KeepsX.next | apply Keeps.refl | assumption | (apply opMatrix_keeps_k; decide) | (apply issue_keeps_k; decide)
    | intro n T x hx

theorem execAclr_keeps (i : Issue) (fa fb : BitVec 5) (bank : Fin 4) (row : Fin 64) (rows : ClearRows) (s : State) :
    KeepsX allButQueue s (execAclr i fa fb bank row rows s) := by
  unfold execAclr
  with_reducible repeat' first
    | apply KeepsX.next | apply Keeps.refl | assumption | (apply opAclr_keeps_k; decide) | (apply issue_keeps_k; decide)
    | intro n T x hx

theorem execVnop_keeps (i : Issue) (s : State) : KeepsX allButQueue s (execVnop i s) := by
  unfold execVnop
  with_reducible repeat' first
    | apply KeepsX.next | apply Keeps.refl | assumption | (apply issue_keeps_k; decide) | intro n T x hx

theorem execVadd_keeps (i : Issue) (vd va vb : VReg) (s : State) : KeepsX allButQueue s (execVadd i vd va vb s) := by
  unfold execVadd
  with_reducible repeat' first
    | apply KeepsX.next | apply Keeps.refl | assumption | (apply opVector_keeps_k; decide) | (apply issue_keeps_k; decide)
    | intro n T x hx

theorem execVsub_keeps (i : Issue) (vd va vb : VReg) (s : State) : KeepsX allButQueue s (execVsub i vd va vb s) := by
  unfold execVsub
  with_reducible repeat' first
    | apply KeepsX.next | apply Keeps.refl | assumption | (apply opVector_keeps_k; decide) | (apply issue_keeps_k; decide)
    | intro n T x hx

theorem execVmul_keeps (i : Issue) (vd va vb : VReg) (s : State) : KeepsX allButQueue s (execVmul i vd va vb s) := by
  unfold execVmul
  with_reducible repeat' first
    | apply KeepsX.next | apply Keeps.refl | assumption | (apply opVector_keeps_k; decide) | (apply issue_keeps_k; decide)
    | intro n T x hx

theorem execVfma_keeps (i : Issue) (vd va vb vc : VReg) (s : State) : KeepsX allButQueue s (execVfma i vd va vb vc s) := by
  unfold execVfma
  with_reducible repeat' first
    | apply KeepsX.next | apply Keeps.refl | assumption | (apply opVector_keeps_k; decide) | (apply issue_keeps_k; decide)
    | intro n T x hx

theorem execVmax_keeps (i : Issue) (vd va vb : VReg) (s : State) : KeepsX allButQueue s (execVmax i vd va vb s) := by
  unfold execVmax
  with_reducible repeat' first
    | apply KeepsX.next | apply Keeps.refl | assumption | (apply opVector_keeps_k; decide) | (apply issue_keeps_k; decide)
    | intro n T x hx

theorem execVmin_keeps (i : Issue) (vd va vb : VReg) (s : State) : KeepsX allButQueue s (execVmin i vd va vb s) := by
  unfold execVmin
  with_reducible repeat' first
    | apply KeepsX.next | apply Keeps.refl | assumption | (apply opVector_keeps_k; decide) | (apply issue_keeps_k; decide)
    | intro n T x hx

theorem execVexp2_keeps (i : Issue) (vd va : VReg) (s : State) : KeepsX allButQueue s (execVexp2 i vd va s) := by
  unfold execVexp2
  with_reducible repeat' first
    | apply KeepsX.next | apply Keeps.refl | assumption | (apply opVector_keeps_k; decide) | (apply issue_keeps_k; decide)
    | intro n T x hx

theorem execVlog2_keeps (i : Issue) (vd va : VReg) (s : State) : KeepsX allButQueue s (execVlog2 i vd va s) := by
  unfold execVlog2
  with_reducible repeat' first
    | apply KeepsX.next | apply Keeps.refl | assumption | (apply opVector_keeps_k; decide) | (apply issue_keeps_k; decide)
    | intro n T x hx

theorem execVrcp_keeps (i : Issue) (vd va : VReg) (s : State) : KeepsX allButQueue s (execVrcp i vd va s) := by
  unfold execVrcp
  with_reducible repeat' first
    | apply KeepsX.next | apply Keeps.refl | assumption | (apply opVector_keeps_k; decide) | (apply issue_keeps_k; decide)
    | intro n T x hx

theorem execVrsqrt_keeps (i : Issue) (vd va : VReg) (s : State) : KeepsX allButQueue s (execVrsqrt i vd va s) := by
  unfold execVrsqrt
  with_reducible repeat' first
    | apply KeepsX.next | apply Keeps.refl | assumption | (apply opVector_keeps_k; decide) | (apply issue_keeps_k; decide)
    | intro n T x hx

theorem execVrsum_keeps (i : Issue) (vd va : VReg) (s : State) : KeepsX allButQueue s (execVrsum i vd va s) := by
  unfold execVrsum
  dsimp only
  with_reducible repeat' first
    | apply KeepsX.next | apply Keeps.refl | assumption | (apply opVector_keeps_k; decide) | (apply issue_keeps_k; decide)
    | intro n T x hx

theorem execVrmax_keeps (i : Issue) (vd va : VReg) (s : State) : KeepsX allButQueue s (execVrmax i vd va s) := by
  unfold execVrmax
  with_reducible repeat' first
    | apply KeepsX.next | apply Keeps.refl | assumption | (apply opVector_keeps_k; decide) | (apply issue_keeps_k; decide)
    | intro n T x hx

theorem execVbcast_keeps (i : Issue) (vd va : VReg) (imm : BitVec 9) (s : State) :
    KeepsX allButQueue s (execVbcast i vd va imm s) := by
  unfold execVbcast
  with_reducible repeat' first
    | apply KeepsX.next | apply Keeps.refl | assumption | (apply opVector_keeps_k; decide) | (apply issue_keeps_k; decide)
    | intro n T x hx

theorem execVsel_keeps (i : Issue) (vd va vb vc : VReg) (s : State) : KeepsX allButQueue s (execVsel i vd va vb vc s) := by
  unfold execVsel
  with_reducible repeat' first
    | apply KeepsX.next | apply Keeps.refl | assumption | (apply opVector_keeps_k; decide) | (apply issue_keeps_k; decide)
    | intro n T x hx

theorem execVcvt_keeps (i : Issue) (vd va vc : VReg) (fmt : BitVec 5) (m : CvtMode) (s : State) :
    KeepsX allButQueue s (execVcvt i vd va vc fmt m s) := by
  unfold execVcvt
  dsimp only
  with_reducible repeat' first
    | apply KeepsX.ite | apply KeepsX.next | apply Keeps.refl | apply Keeps.ite | assumption
    | (apply endCore_keeps_k; decide) | (apply opVector_keeps_k; decide) | (apply issue_keeps_k; decide) | split
    | intro n T x hx

theorem execAcc2v_keeps (i : Issue) (vd : VReg) (imm : BitVec 9) (s : State) : KeepsX allButQueue s
    (execAcc2v i vd imm s) := by
  unfold execAcc2v
  with_reducible repeat' first
    | apply KeepsX.next | apply Keeps.refl | assumption | (apply opAcc2v_keeps_k; decide) | (apply issue_keeps_k; decide)
    | intro n T x hx

theorem execViadd_keeps (i : Issue) (vd va vb : VReg) (s : State) : KeepsX allButQueue s (execViadd i vd va vb s) := by
  unfold execViadd
  with_reducible repeat' first
    | apply KeepsX.next | apply Keeps.refl | assumption | (apply opVector_keeps_k; decide) | (apply issue_keeps_k; decide)
    | intro n T x hx

theorem execVcvti_keeps (i : Issue) (vd va : VReg) (s : State) : KeepsX allButQueue s (execVcvti i vd va s) := by
  unfold execVcvti
  with_reducible repeat' first
    | apply KeepsX.next | apply Keeps.refl | assumption | (apply opVector_keeps_k; decide) | (apply issue_keeps_k; decide)
    | intro n T x hx

theorem execVcvtf_keeps (i : Issue) (vd va : VReg) (s : State) : KeepsX allButQueue s (execVcvtf i vd va s) := by
  unfold execVcvtf
  with_reducible repeat' first
    | apply KeepsX.next | apply Keeps.refl | assumption | (apply opVector_keeps_k; decide) | (apply issue_keeps_k; decide)
    | intro n T x hx

theorem execVl8mul_keeps (i : Issue) (vd va vb : VReg) (s : State) : KeepsX allButQueue s (execVl8mul i vd va vb s) := by
  unfold execVl8mul
  dsimp only
  with_reducible repeat' first
    | apply KeepsX.next | apply Keeps.refl | assumption | (apply opVector_keeps_k; decide) | (apply issue_keeps_k; decide)
    | intro n T x hx

theorem execVl8enc_keeps (i : Issue) (vd va : VReg) (s : State) : KeepsX allButQueue s (execVl8enc i vd va s) := by
  unfold execVl8enc
  dsimp only
  with_reducible repeat' first
    | apply KeepsX.next | apply Keeps.refl | assumption | (apply opVector_keeps_k; decide) | (apply issue_keeps_k; decide)
    | intro n T x hx

theorem execVl8dec_keeps (i : Issue) (vd va : VReg) (s : State) : KeepsX allButQueue s (execVl8dec i vd va s) := by
  unfold execVl8dec
  with_reducible repeat' first
    | apply KeepsX.next | apply Keeps.refl | assumption | (apply opVector_keeps_k; decide) | (apply issue_keeps_k; decide)
    | intro n T x hx

theorem execSend_keeps (i : Issue) (entry : Fin 32) (fromDesc : Bool) (reg : Fin 32) (frames : BitVec 12) (adv : Bool)
    (s : State) :
    KeepsX allButQueue s (execSend i entry fromDesc reg frames adv s) := by
  unfold execSend
  with_reducible repeat' first
    | apply KeepsX.next | apply Keeps.refl | assumption | (apply opSend_keeps_k; decide) | (apply issue_keeps_k; decide)
    | intro n T x hx

theorem execRsend_keeps (i : Issue) (entry : Fin 32) (fromDesc : Bool) (reg : Fin 32) (frames : BitVec 12) (adv : Bool)
    (s : State) :
    KeepsX allButQueue s (execRsend i entry fromDesc reg frames adv s) := by
  unfold execRsend
  with_reducible repeat' first
    | apply KeepsX.next | apply Keeps.refl | assumption | (apply opSend_keeps_k; decide) | (apply issue_keeps_k; decide)
    | intro n T x hx

theorem execBarrier_keeps (i : Issue) (bar : Byte) (offset : W16) (s : State) :
    KeepsX allButQueue s (execBarrier i bar offset s) := by
  unfold execBarrier
  with_reducible repeat' first
    | apply KeepsX.next | apply Keeps.refl | assumption | (apply opBarrier_keeps_k; decide) | (apply issue_keeps_k; decide)
    | intro n T x hx

theorem execFlagSet_keeps (i : Issue) (entry : Fin 32) (flag : Fin 64) (value : W32) (s : State) :
    KeepsX allButQueue s (execFlagSet i entry flag value s) := by
  unfold execFlagSet
  with_reducible repeat' first
    | apply KeepsX.next | apply Keeps.refl | assumption | (apply opFlagSet_keeps_k; decide) | (apply issue_keeps_k; decide)
    | intro n T x hx

theorem execFlagCheck_keeps (i : Issue) (flag : Fin 64) (value : W32) (s : State) :
    KeepsX allButQueue s (execFlagCheck i flag value s) := by
  unfold execFlagCheck
  with_reducible repeat' first
    | apply KeepsX.next | apply Keeps.refl | assumption | (apply opFlagCheck_keeps_k; decide) | (apply issue_keeps_k; decide)
    | intro n T x hx

theorem execBeatWait_keeps (i : Issue) (offset : BitVec 40) (s : State) : KeepsX allButQueue s
    (execBeatWait i offset s) := by
  unfold execBeatWait
  with_reducible repeat' first
    | apply KeepsX.next | apply Keeps.refl | assumption | (apply opBeatWait_keeps_k; decide) | (apply issue_keeps_k; decide)
    | intro n T x hx

theorem execLoop_keeps (i : Issue) (dist : BitVec 12) (iters : BitVec 12) (s : State) :
    KeepsX allButQueue s (execLoop i dist iters s) := by
  unfold execLoop
  with_reducible repeat' first
    | apply KeepsX.next | apply Keeps.refl | assumption | (apply opLoop_keeps_k; decide) | (apply issue_keeps_k; decide)
    | intro n T x hx

theorem execKernelEnd_keeps (i : Issue) (s : State) : KeepsX allButQueue s (execKernelEnd i s) := by
  unfold execKernelEnd
  with_reducible repeat' first
    | apply KeepsX.next | apply Keeps.refl | assumption | (apply opKernelEnd_keeps_k; decide) | (apply issue_keeps_k; decide)
    | intro n T x hx

theorem execBarrierCheck_keeps (core : CoreId) (bar : Byte) (s : State) :
    KeepsX allButQueue s (execBarrierCheck core bar s) := by
  unfold execBarrierCheck
  dsimp only
  with_reducible repeat' first
    | apply KeepsX.ite | apply KeepsX.next | apply Keeps.refl | apply Keeps.ite | assumption
    | (apply runCheck_keeps_k; decide) | (apply progress_keeps_k; decide) | split

theorem execBeatWaitEnd_keeps (die : DieId) (s : State) : KeepsX allButQueue s (execBeatWaitEnd die s) := by
  unfold execBeatWaitEnd
  dsimp only
  with_reducible repeat' first
    | apply KeepsX.ite | apply KeepsX.next | apply Keeps.refl | apply Keeps.ite | assumption
    | (apply State_setCore_keeps_k; decide) | apply Keeps.foldl | intro x a hx | split

/-! Machine/Window -/

theorem execWindowSelect_keeps (item variant : Nat) (s : State) : KeepsX allButQueue s
    (execWindowSelect item variant s) := by
  unfold execWindowSelect
  with_reducible repeat' first
    | apply KeepsX.ite | apply KeepsX.next | apply Keeps.refl | apply Keeps.ite | assumption
    | (apply selectWindow_keeps_k; decide) | split

theorem execSlotCutoff_keeps (win : Nat) (s : State) : KeepsX allButQueue s (execSlotCutoff win s) := by
  unfold execSlotCutoff
  with_reducible repeat' first
    | apply KeepsX.ite | apply KeepsX.next | apply Keeps.refl | apply Keeps.ite | assumption
    | (apply State_modWin_keeps_k; decide) | split

theorem execWindowLaunch_keeps (win : Nat) (s : State) : KeepsX allButQueue s (execWindowLaunch win s) := by
  unfold execWindowLaunch
  dsimp only
  with_reducible repeat' first
    | apply KeepsX.ite | apply KeepsX.next | apply Keeps.refl | apply Keeps.ite | assumption
    | (apply withdrawWindow_keeps_k; decide) | (apply enterWindow_keeps_k; decide) | (apply State_setDie_keeps_k; decide)
    | (apply State_modWin_keeps_k; decide) | (apply State_count_keeps_k; decide) | (apply traceMake_keeps_k; decide)
    | (apply endCore_keeps_k; decide) | apply Keeps.foldl | intro x a hx | split

theorem execDrainEnd_keeps (core : CoreId) (s : State) : KeepsX allButQueue s (execDrainEnd core s) := by
  unfold execDrainEnd
  dsimp only
  with_reducible repeat' first
    | apply KeepsX.ite | apply KeepsX.next | apply Keeps.refl | apply Keeps.ite | assumption
    | (apply discardPartials_keeps_k; decide) | (apply commitAll_keeps_k; decide) | (apply State_setCore_keeps_k; decide)
    | (apply traceMake_keeps_k; decide) | (apply State_modWin_keeps_k; decide) | (apply releaseWindow_keeps_k; decide)
    | split

theorem execEndNotice_keeps (core : CoreId) (s : State) : KeepsX allButQueue s (execEndNotice core s) := by
  unfold execEndNotice
  with_reducible repeat' first
    | apply KeepsX.ite | apply KeepsX.next | apply Keeps.refl | apply Keeps.ite | assumption
    | (apply endCore_keeps_k; decide) | split

theorem execDeclaredTicksExpiry_keeps (core : CoreId) (s : State) : KeepsX allButQueue s
    (execDeclaredTicksExpiry core s) := by
  unfold execDeclaredTicksExpiry
  dsimp only
  with_reducible repeat' first
    | apply KeepsX.ite | apply KeepsX.next | apply Keeps.refl | apply Keeps.ite | assumption
    | (apply endCore_keeps_k; decide)

theorem execLwWatchdogExpiry_keeps (win : Nat) (s : State) : KeepsX allButQueue s (execLwWatchdogExpiry win s) := by
  unfold execLwWatchdogExpiry
  dsimp only
  with_reducible repeat' first
    | apply KeepsX.ite | apply KeepsX.next | apply Keeps.refl | apply Keeps.ite | assumption
    | (apply endWindow_keeps_k; decide) | (apply State_modWin_keeps_k; decide) | split

theorem execWorkItemRerun_keeps (item : Nat) (s : State) : KeepsX allButQueue s (execWorkItemRerun item s) := by
  unfold execWorkItemRerun
  dsimp only
  with_reducible repeat' first
    | apply KeepsX.ite | apply KeepsX.next | apply Keeps.refl | apply Keeps.ite | assumption
    | (apply endWaits_keeps_k; decide) | (apply modItem_keeps_k; decide) | (apply State_count_keeps_k; decide)
    | (apply queueTests_keeps_k; decide) | (apply logEvent_keeps_k; decide) | (apply setReason_keeps_k; decide) | split
    | apply Keeps.update | refine Keeps.updateDev id ?_

theorem execGovernorInterval_keeps (die : DieId) (ends : Nat) (s : State) :
    KeepsX allButQueue s (execGovernorInterval die ends s) := by
  unfold execGovernorInterval
  dsimp only
  with_reducible repeat' first
    | apply KeepsX.ite | apply KeepsX.next | apply Keeps.refl | apply Keeps.ite | assumption
    | (apply clearActivity_keeps_k; decide) | (apply State_setDie_keeps_k; decide) | (apply holdDie_keeps_k; decide)
    | (apply State_count_keeps_k; decide)

/-! Machine/Sheepdog -/

theorem execStepInstantiate_keeps (slot : SlotId) (s : State) : KeepsX allButQueue s (execStepInstantiate slot s) := by
  unfold execStepInstantiate
  dsimp only
  with_reducible repeat' first
    | apply KeepsX.ite | apply KeepsX.next | apply Keeps.refl | apply Keeps.ite | assumption
    | (apply settleEnding_keeps_k; decide) | (apply pinPages_keeps_k; decide) | (apply modCtx_keeps_k; decide)
    | (apply instantiate_keeps_k; decide) | apply Keeps.foldl | intro x a hx | split | apply Keeps.update

theorem execWorkItemComplete_keeps (item : Nat) (s : State) : KeepsX allButQueue s (execWorkItemComplete item s) := by
  unfold execWorkItemComplete
  dsimp only
  with_reducible repeat' first
    | apply KeepsX.ite | apply KeepsX.next | apply Keeps.refl | apply Keeps.ite | assumption
    | (apply endWaits_keeps_k; decide) | (apply fillScratch_keeps_k; decide) | (apply settleEnding_keeps_k; decide)
    | (apply settleStep_keeps_k; decide) | split | apply Keeps.update

theorem execWorkItemTake_keeps (item : Nat) (taker : Nat) (victim : Nat) (s : State) :
    KeepsX allButQueue s (execWorkItemTake item taker victim s) := by
  unfold execWorkItemTake
  with_reducible repeat' first
    | apply KeepsX.ite | apply KeepsX.next | apply Keeps.refl | apply Keeps.ite | assumption
    | (apply takeItem_keeps_k; decide) | (apply probe_keeps_k; decide) | split

theorem execStealAttempt_keeps (thief : Nat) (s : State) : KeepsX allButQueue s (execStealAttempt thief s) := by
  unfold execStealAttempt
  with_reducible repeat' first
    | apply KeepsX.ite | apply KeepsX.next | apply Keeps.refl | apply Keeps.ite | assumption | (apply probe_keeps_k; decide)

theorem execStealBackoffExpiry_keeps (thief : Nat) (s : State) : KeepsX allButQueue s (execStealBackoffExpiry thief s) := by
  unfold execStealBackoffExpiry
  dsimp only
  with_reducible repeat' first
    | apply KeepsX.ite | apply KeepsX.next | apply Keeps.refl | apply Keeps.ite | assumption | split | apply Keeps.update

/-! Machine/Whippet -/

theorem execSampler_keeps (whip : WhipId) (ctx : Nat) (s : State) : KeepsX allButQueue s (execSampler whip ctx s) := by
  unfold execSampler
  dsimp only
  with_reducible repeat' first
    | apply KeepsX.ite | apply KeepsX.next | apply Keeps.refl | apply Keeps.ite | assumption | (apply modCtx_keeps_k; decide)
    | (apply State_count_keeps_k; decide) | (apply commitTree_keeps_k; decide) | (apply routineEnd_keeps_k; decide) | split

theorem execDraftExecutor_keeps (whip : WhipId) (ctx : Nat) (level : Nat) (s : State) :
    KeepsX allButQueue s (execDraftExecutor whip ctx level s) := by
  unfold execDraftExecutor
  dsimp only
  with_reducible repeat' first
    | apply KeepsX.ite | apply KeepsX.next | apply Keeps.refl | apply Keeps.ite | assumption
    | (apply storeClean_keeps_k; decide) | (apply modCtx_keeps_k; decide) | (apply routineEnd_keeps_k; decide)
    | apply Keeps.foldl | intro x a hx | split

theorem execTreeBuilder_keeps (whip : WhipId) (ctx : Nat) (s : State) : KeepsX allButQueue s
    (execTreeBuilder whip ctx s) := by
  unfold execTreeBuilder
  dsimp only
  with_reducible repeat' first
    | apply KeepsX.ite | apply KeepsX.next | apply Keeps.refl | apply Keeps.ite | assumption
    | (apply storeClean_keeps_k; decide) | (apply modCtx_keeps_k; decide) | (apply routineEnd_keeps_k; decide)
    | apply Keeps.foldl | intro x a hx | split

theorem execDetokenizer_keeps (whip : WhipId) (ctx : Nat) (s : State) : KeepsX allButQueue s
    (execDetokenizer whip ctx s) := by
  unfold execDetokenizer
  dsimp only
  with_reducible repeat' first
    | apply KeepsX.ite | apply KeepsX.next | apply Keeps.refl | apply Keeps.ite | assumption | (apply endCtx_keeps_k; decide)
    | (apply modCtx_keeps_k; decide) | (apply detokenize_keeps_k; decide) | (apply leaveStep_keeps_k; decide)
    | (apply settleStep_keeps_k; decide) | (apply routineEnd_keeps_k; decide) | apply Keeps.foldl | intro x a hx | split

theorem execHousekeeping_keeps (whip : WhipId) (s : State) : KeepsX allButQueue s (execHousekeeping whip s) := by
  unfold execHousekeeping
  dsimp only
  with_reducible repeat' first
    | apply KeepsX.ite | apply KeepsX.next | apply Keeps.refl | apply Keeps.ite | assumption
    | (apply routineFlags_keeps_k; decide) | (apply State_setCvu_keeps_k; decide)

/-! Machine/DieMemory -/

theorem execScrubPass_keeps (die : DieId) (words : List (Nat × Nat)) (s : State) :
    KeepsX allButQueue s (execScrubPass die words s) := by
  unfold execScrubPass
  dsimp only
  with_reducible repeat' first
    | apply KeepsX.ite | apply KeepsX.next | apply Keeps.refl | apply Keeps.ite | assumption
    | (apply scrubWord_keeps_k; decide) | (apply State_setDie_keeps_k; decide) | apply Keeps.foldl | intro x a hx

theorem execCacheAccess_keeps (die : DieId) (home : Nat) (store : Option Bytes) (len : Nat) (s : State) :
    KeepsX allButQueue s (execCacheAccess die home store len s) := by
  unfold execCacheAccess
  dsimp only
  with_reducible repeat' first
    | apply KeepsX.ite | apply KeepsX.next | apply Keeps.refl | apply Keeps.ite | assumption
    | (apply cacheAccess_keeps_k; decide)

theorem execPageFillDone_keeps (die : DieId) (page : Nat) (s : State) : KeepsX allButQueue s
    (execPageFillDone die page s) := by
  unfold execPageFillDone
  dsimp only
  with_reducible repeat' first
    | apply KeepsX.next | apply Keeps.refl | assumption | (apply State_setDie_keeps_k; decide)
    | (apply storeClean_keeps_k; decide) | (apply startWaiting_keeps_k; decide) | (apply State_count_keeps_k; decide)
    | apply Keeps.foldl | intro x a hx | split

theorem execKvOwnerMove_keeps (page : Nat) (dst : DieId) (s : State) : KeepsX allButQueue s
    (execKvOwnerMove page dst s) := by
  unfold execKvOwnerMove
  dsimp only
  with_reducible repeat' first
    | apply KeepsX.ite | apply KeepsX.next | apply Keeps.refl | apply Keeps.ite | assumption
    | (apply evictEntry_keeps_k; decide) | split | apply Keeps.update

theorem execDieReset_keeps (die : DieId) (s : State) : KeepsX allButQueue s (execDieReset die s) := by
  unfold execDieReset
  dsimp only
  with_reducible repeat' first
    | apply KeepsX.ite | apply KeepsX.next | apply Keeps.refl | apply Keeps.ite | assumption
    | (apply dieStops_keeps_k; decide) | (apply State_setDie_keeps_k; decide)

theorem execDieResetEnd_keeps (die : DieId) (xing : List (Nat × List (Nat × Int))) (s : State) :
    KeepsX allButQueue s (execDieResetEnd die xing s) := by
  unfold execDieResetEnd
  dsimp only
  with_reducible repeat' first
    | apply KeepsX.ite | apply KeepsX.next | apply Keeps.refl | apply Keeps.ite | assumption
    | (apply calibrateDie_keeps_k; decide) | (apply State_setDie_keeps_k; decide)

/-! Machine/Link -/

theorem execFrameTime_keeps (n : StringId) (s : State) : KeepsX allButQueue s (execFrameTime n s) := by
  unfold execFrameTime
  dsimp only
  with_reducible repeat' first
    | apply KeepsX.ite | apply KeepsX.next | apply Keeps.refl | apply Keeps.ite | assumption
    | (apply emitFrame_keeps_k; decide) | (apply injectAlarms_keeps_k; decide) | (apply ctrlOrIdle_keeps_k; decide)
    | (apply sendChoice_keeps_k; decide) | (apply State_setStr_keeps_k; decide)

theorem execIdleFrame_keeps (n : StringId) (f : Frame) (s : State) : KeepsX allButQueue s (execIdleFrame n f s) := by
  unfold execIdleFrame
  with_reducible repeat' first
    | apply KeepsX.ite | apply KeepsX.next | apply Keeps.refl | apply Keeps.ite | assumption
    | (apply State_count_keeps_k; decide) | (apply receive_keeps_k; decide)

theorem execTrainOffer_keeps (n : StringId) (f : Frame) (s : State) : KeepsX allButQueue s (execTrainOffer n f s) := by
  unfold execTrainOffer
  dsimp only
  with_reducible repeat' first
    | apply KeepsX.ite | apply KeepsX.next | apply Keeps.refl | apply Keeps.ite | assumption
    | (apply logEvent_keeps_k; decide) | (apply enterString_keeps_k; decide) | (apply noteCredits_keeps_k; decide)
    | (apply State_setStr_keeps_k; decide) | (apply receiveCtrl_keeps_eqk; decide; assumption) | split

theorem execTrainAccept_keeps (n : StringId) (f : Frame) (s : State) : KeepsX allButQueue s (execTrainAccept n f s) := by
  unfold execTrainAccept
  dsimp only
  with_reducible repeat' first
    | apply KeepsX.ite | apply KeepsX.next | apply Keeps.refl | apply Keeps.ite | assumption
    | (apply noteCredits_keeps_k; decide) | (apply State_setStr_keeps_k; decide) | (apply settleAbrupt_keeps_k; decide)
    | (apply trainDone_keeps_k; decide) | (apply receiveCtrl_keeps_eqk; decide; assumption) | split

theorem execLaneMap_keeps (n : StringId) (f : Frame) (s : State) : KeepsX allButQueue s (execLaneMap n f s) := by
  unfold execLaneMap
  dsimp only
  with_reducible repeat' first
    | apply KeepsX.ite | apply KeepsX.next | apply Keeps.refl | apply Keeps.ite | assumption
    | (apply State_setStr_keeps_k; decide) | (apply receiveCtrl_keeps_eqk; decide; assumption) | split

theorem execLaneMapEffect_keeps (n : StringId) (s : State) : KeepsX allButQueue s (execLaneMapEffect n s) := by
  unfold execLaneMapEffect
  dsimp only
  with_reducible repeat' first
    | apply KeepsX.ite | apply KeepsX.next | apply Keeps.refl | apply Keeps.ite | assumption
    | (apply State_setStr_keeps_k; decide) | (apply traceMake_keeps_k; decide) | split

theorem execRelayCredits_keeps (n : StringId) (f : Frame) (s : State) : KeepsX allButQueue s (execRelayCredits n f s) := by
  unfold execRelayCredits
  dsimp only
  with_reducible repeat' first
    | apply KeepsX.next | apply Keeps.refl | assumption | (apply creditTo_keeps_k; decide)
    | (apply receiveCtrl_keeps_eqk; decide; assumption) | apply Keeps.foldl | intro x a hx | split

theorem execEcho_keeps (n : StringId) (f : Frame) (s : State) : KeepsX allButQueue s (execEcho n f s) := by
  unfold execEcho
  dsimp only
  with_reducible repeat' first
    | apply KeepsX.ite | apply KeepsX.next | apply Keeps.refl | apply Keeps.ite | assumption
    | (apply noteLatency_keeps_k; decide) | (apply State_setStr_keeps_k; decide) | (apply pushCtrl_keeps_k; decide)
    | (apply receiveCtrl_keeps_eqk; decide; assumption) | split

theorem execAckTimeout_keeps (n : StringId) (s : State) : KeepsX allButQueue s (execAckTimeout n s) := by
  unfold execAckTimeout
  dsimp only
  with_reducible repeat' first
    | apply KeepsX.ite | apply KeepsX.next | apply Keeps.refl | apply Keeps.ite | assumption
    | (apply State_count_keeps_k; decide) | (apply State_setStr_keeps_k; decide) | (apply retrain_keeps_k; decide) | split

theorem execLossOfLock_keeps (n : StringId) (s : State) : KeepsX allButQueue s (execLossOfLock n s) := by
  unfold execLossOfLock
  with_reducible repeat' first
    | apply KeepsX.ite | apply KeepsX.next | apply Keeps.refl | apply Keeps.ite | assumption
    | (apply retrain_keeps_k; decide)

theorem execLaneCheckDone_keeps (n : StringId) (lanes : List LaneMeas) (s : State) :
    KeepsX allButQueue s (execLaneCheckDone n lanes s) := by
  unfold execLaneCheckDone
  dsimp only
  with_reducible repeat' first
    | apply KeepsX.ite | apply KeepsX.next | apply Keeps.refl | apply Keeps.ite | assumption
    | (apply afterLaneCheck_keeps_k; decide) | (apply measureString_keeps_k; decide) | (apply measureLane_keeps_k; decide)
    | (apply returnLine_keeps_k; decide) | (apply State_setStr_keeps_k; decide) | apply Keeps.foldl | intro x a hx

theorem execFrozenTimeout_keeps (n : StringId) (s : State) : KeepsX allButQueue s (execFrozenTimeout n s) := by
  unfold execFrozenTimeout
  dsimp only
  with_reducible repeat' first
    | apply KeepsX.ite | apply KeepsX.next | apply Keeps.refl | apply Keeps.ite | assumption
    | (apply enterString_keeps_k; decide)

theorem execLaneRecheck_keeps (n : StringId) (lanes : List LaneMeas) (s : State) :
    KeepsX allButQueue s (execLaneRecheck n lanes s) := by
  unfold execLaneRecheck
  dsimp only
  with_reducible repeat' first
    | apply KeepsX.ite | apply KeepsX.next | apply Keeps.refl | apply Keeps.ite | assumption
    | (apply measureString_keeps_k; decide) | (apply State_setStr_keeps_k; decide) | (apply startTraining_keeps_k; decide)

theorem execMarginEstimate_keeps (n : StringId) (line : LineId) (rx : Int) (s : State) :
    KeepsX allButQueue s (execMarginEstimate n line rx s) := by
  unfold execMarginEstimate
  dsimp only
  with_reducible repeat' first
    | apply KeepsX.ite | apply KeepsX.next | apply Keeps.refl | apply Keeps.ite | assumption
    | (apply State_setStr_keeps_k; decide) | (apply dropLine_keeps_k; decide) | (apply logEvent_keeps_k; decide)

theorem execMarginTest_keeps (s : State) : KeepsX allButQueue s (execMarginTest s) := by
  unfold execMarginTest
  dsimp only
  with_reducible repeat' first
    | apply KeepsX.ite | apply KeepsX.next | apply Keeps.refl | apply Keeps.ite | assumption
    | (apply beginTest_keeps_k; decide)

theorem execMarginTestDone_keeps (lanes : List LaneMeas) (s : State) : KeepsX allButQueue s
    (execMarginTestDone lanes s) := by
  unfold execMarginTestDone
  dsimp only
  with_reducible repeat' first
    | apply KeepsX.ite | apply KeepsX.next | apply Keeps.refl | apply Keeps.ite | assumption
    | (apply measureLane_keeps_k; decide) | (apply noteLatency_keeps_k; decide) | (apply afterLaneCheck_keeps_k; decide)
    | (apply State_setStr_keeps_k; decide) | (apply State_setObj_keeps_k; decide) | (apply logEvent_keeps_k; decide)
    | (apply setReference_keeps_k; decide) | (apply State_setObjI_keeps_k; decide) | apply Keeps.foldl | intro x a hx | split
    | apply Keeps.update | refine Keeps.updateDev id ?_

theorem execTileResetDrained_keeps (site : SiteId) (s : State) : KeepsX allButQueue s (execTileResetDrained site s) := by
  unfold execTileResetDrained
  with_reducible repeat' first
    | apply KeepsX.ite | apply KeepsX.next | apply Keeps.refl | apply Keeps.ite | assumption
    | (apply tileFreeze_keeps_k; decide)

theorem execTileWatchdog_keeps (site : SiteId) (s : State) : KeepsX allButQueue s (execTileWatchdog site s) := by
  unfold execTileWatchdog
  with_reducible repeat' first
    | apply KeepsX.ite | apply KeepsX.next | apply Keeps.refl | apply Keeps.ite | assumption
    | (apply tileFreeze_keeps_k; decide)

theorem execTileResetDone_keeps (site : SiteId) (s : State) : KeepsX allButQueue s (execTileResetDone site s) := by
  unfold execTileResetDone
  dsimp only
  with_reducible repeat' first
    | apply KeepsX.ite | apply KeepsX.next | apply Keeps.refl | apply Keeps.ite | assumption
    | (apply State_setTile_keeps_k; decide) | (apply State_setStr_keeps_k; decide) | (apply startTraining_keeps_k; decide)
    | apply Keeps.foldl | intro x a hx

theorem execBcast_keeps (n : StringId) (tap : SiteId) (f : Frame) (s : State) : KeepsX allButQueue s
    (execBcast n tap f s) := by
  unfold execBcast
  dsimp only
  with_reducible repeat' first
    | apply KeepsX.ite | apply KeepsX.next | apply Keeps.refl | apply Keeps.ite | assumption
    | (apply injectRx_keeps_k; decide) | (apply State_count_keeps_k; decide) | (apply depthRecord_keeps_k; decide) | split
    | apply Keeps.update

theorem execBcastSend_keeps (n : StringId) (kind : Byte) (s : State) : KeepsX allButQueue s (execBcastSend n kind s) := by
  unfold execBcastSend
  dsimp only
  with_reducible repeat' first
    | apply KeepsX.ite | apply KeepsX.next | apply Keeps.refl | apply Keeps.ite | assumption
    | (apply depthRecord_keeps_k; decide) | (apply busSend_keeps_k; decide) | split

/-! Machine/FabricLink -/

theorem execPortPhyLock_keeps (p : PortId) (s : State) : KeepsX allButQueue s (execPortPhyLock p s) := by
  unfold execPortPhyLock
  dsimp only
  with_reducible repeat' first
    | apply KeepsX.ite | apply KeepsX.next | apply Keeps.refl | apply Keeps.ite | assumption
    | (apply trainPort_keeps_k; decide)

theorem execFabricTrainOffer_keeps (p : PortId) (r : TrainRec) (s : State) :
    KeepsX allButQueue s (execFabricTrainOffer p r s) := by
  unfold execFabricTrainOffer
  dsimp only
  with_reducible repeat' first
    | apply KeepsX.ite | apply KeepsX.next | apply Keeps.refl | apply Keeps.ite | assumption
    | (apply retrainPort_keeps_k; decide) | (apply logEvent_keeps_k; decide) | (apply enterPort_keeps_k; decide)
    | (apply State_setPort_keeps_k; decide)

theorem execFabricTrainAccept_keeps (p : PortId) (r : TrainRec) (s : State) :
    KeepsX allButQueue s (execFabricTrainAccept p r s) := by
  unfold execFabricTrainAccept
  dsimp only
  with_reducible repeat' first
    | apply KeepsX.ite | apply KeepsX.next | apply Keeps.refl | apply Keeps.ite | assumption | (apply portUp_keeps_k; decide)
    | (apply State_setPort_keeps_k; decide)

theorem execPortTrainRetry_keeps (p : PortId) (s : State) : KeepsX allButQueue s (execPortTrainRetry p s) := by
  unfold execPortTrainRetry
  dsimp only
  with_reducible repeat' first
    | apply KeepsX.ite | apply KeepsX.next | apply Keeps.refl | apply Keeps.ite | assumption
    | (apply trainPort_keeps_k; decide)

theorem execFabricEcho_keeps (p : PortId) (beat : W64) (own : Bool) (s : State) :
    KeepsX allButQueue s (execFabricEcho p beat own s) := by
  unfold execFabricEcho
  dsimp only
  with_reducible repeat' first
    | apply KeepsX.ite | apply KeepsX.next | apply Keeps.refl | apply Keeps.ite | assumption
    | (apply State_setPort_keeps_k; decide)

theorem execBlockTime_keeps (p : PortId) (s : State) : KeepsX allButQueue s (execBlockTime p s) := by
  unfold execBlockTime
  dsimp only
  with_reducible repeat' first
    | apply KeepsX.ite | apply KeepsX.next | apply Keeps.refl | apply Keeps.ite | assumption
    | (apply putBlock_keeps_k; decide) | (apply portUp_keeps_k; decide) | (apply State_setPort_keeps_k; decide)
    | (apply blockChoice_keeps_k; decide)

theorem execDataBlock_keeps (p : PortId) (ctl : BitVec 80) (flits : Bytes) (s : State) :
    KeepsX allButQueue s (execDataBlock p ctl flits s) := by
  unfold execDataBlock
  dsimp only
  with_reducible repeat' first
    | apply KeepsX.ite | apply KeepsX.next | apply Keeps.refl | apply Keeps.ite | assumption
    | (apply State_setPort_keeps_k; decide) | (apply State_count_keeps_k; decide) | (apply blockAck_keeps_k; decide)
    | (apply blockCredit_keeps_k; decide) | (apply placeFlits_keeps_k; decide)

theorem execLinkRetryTimeout_keeps (p : PortId) (s : State) : KeepsX allButQueue s (execLinkRetryTimeout p s) := by
  unfold execLinkRetryTimeout
  dsimp only
  with_reducible repeat' first
    | apply KeepsX.ite | apply KeepsX.next | apply Keeps.refl | apply Keeps.ite | assumption
    | (apply State_count_keeps_k; decide) | (apply countLog_keeps_k; decide) | (apply retrainPort_keeps_k; decide)
    | (apply State_setPort_keeps_k; decide) | split

/-! Machine/FabricRoute -/

theorem execRateIncreaseTick_keeps (s : State) : KeepsX allButQueue s (execRateIncreaseTick s) := by
  unfold execRateIncreaseTick
  dsimp only
  with_reducible repeat' first
    | apply KeepsX.ite | apply KeepsX.next | apply Keeps.refl | apply Keeps.ite | assumption
    | (apply drainPaced_keeps_k; decide) | split | apply Keeps.update

theorem execPacketRoute_keeps (p : PortId) (pkt : Packet) (s : State) : KeepsX allButQueue s (execPacketRoute p pkt s) := by
  unfold execPacketRoute
  with_reducible repeat' first
    | apply KeepsX.ite | apply KeepsX.next | apply Keeps.refl | apply Keeps.ite | assumption
    | (apply discardHeader_keeps_k; decide) | (apply followWay_keeps_k; decide)
    | (apply takeIn_keeps_eqk; decide; assumption) | split

theorem execPortDown_keeps (p : PortId) (s : State) : KeepsX allButQueue s (execPortDown p s) := by
  unfold execPortDown
  dsimp only
  with_reducible repeat' first
    | apply KeepsX.ite | apply KeepsX.next | apply Keeps.refl | apply Keeps.ite | assumption
    | (apply portFalls_keeps_k; decide) | split

theorem execRouteActivation_keeps (s : State) : KeepsX allButQueue s (execRouteActivation s) := by
  unfold execRouteActivation
  dsimp only
  with_reducible repeat' first
    | apply KeepsX.ite | apply KeepsX.next | apply Keeps.refl | apply Keeps.ite | assumption | split | apply Keeps.update

theorem execDrainRound_keeps (s : State) : KeepsX allButQueue s (execDrainRound s) := by
  unfold execDrainRound
  dsimp only
  with_reducible repeat' first
    | apply KeepsX.ite | apply KeepsX.next | apply Keeps.refl | apply Keeps.ite | assumption
    | (apply judgeDrain_keeps_k; decide) | (apply routeControl_keeps_k; decide) | apply Keeps.foldl | intro x a hx | split
    | apply Keeps.update

theorem execRouteQuery_keeps (p : PortId) (pkt : Packet) (s : State) : KeepsX allButQueue s (execRouteQuery p pkt s) := by
  unfold execRouteQuery
  dsimp only
  with_reducible repeat' first
    | apply KeepsX.next | apply Keeps.refl | assumption | (apply replyTo_keeps_k; decide)
    | (apply arriveHere_keeps_eqk; decide; assumption) | split | apply Keeps.update

theorem execRouteReport_keeps (pkt : Packet) (s : State) : KeepsX allButQueue s (execRouteReport pkt s) := by
  unfold execRouteReport
  dsimp only
  with_reducible repeat' first
    | apply KeepsX.ite | apply KeepsX.next | apply Keeps.refl | apply Keeps.ite | assumption
    | (apply drainUntagged_keeps_k; decide) | (apply judgeDrain_keeps_k; decide)
    | (apply arriveHere_keeps_eqk; decide; assumption) | split | apply Keeps.update

theorem execRouteRelease_keeps (p : PortId) (pkt : Packet) (s : State) : KeepsX allButQueue s
    (execRouteRelease p pkt s) := by
  unfold execRouteRelease
  with_reducible repeat' first
    | apply KeepsX.next | apply Keeps.refl | assumption | (apply replyTo_keeps_k; decide)
    | (apply releaseBank_keeps_k; decide) | (apply arriveHere_keeps_eqk; decide; assumption) | split

theorem execSilentMemberExpiry_keeps (node : W16) (s : State) : KeepsX allButQueue s (execSilentMemberExpiry node s) := by
  unfold execSilentMemberExpiry
  dsimp only
  with_reducible repeat' first
    | apply KeepsX.ite | apply KeepsX.next | apply Keeps.refl | apply Keeps.ite | assumption
    | (apply judgeDrain_keeps_k; decide) | split | apply Keeps.update

theorem execCoordinatorTakeover_keeps (s : State) : KeepsX allButQueue s (execCoordinatorTakeover s) := by
  unfold execCoordinatorTakeover
  dsimp only
  with_reducible repeat' first
    | apply KeepsX.ite | apply KeepsX.next | apply Keeps.refl | apply Keeps.ite | assumption | split | apply Keeps.update

theorem execActivationMissed_keeps (node : W16) (s : State) : KeepsX allButQueue s (execActivationMissed node s) := by
  unfold execActivationMissed
  dsimp only
  with_reducible repeat' first
    | apply KeepsX.ite | apply KeepsX.next | apply Keeps.refl | apply Keeps.ite | assumption
    | (apply logEvent_keeps_k; decide) | split | apply Keeps.update

/-! Machine/Remote -/

theorem execWindowTableEffect_keeps (s : State) : KeepsX allButQueue s (execWindowTableEffect s) := by
  unfold execWindowTableEffect
  with_reducible repeat' first
    | apply KeepsX.ite | apply KeepsX.next | apply Keeps.refl | apply Keeps.ite | assumption | split | apply Keeps.update

theorem execAtomic_keeps (p : PortId) (pkt : Packet) (s : State) : KeepsX allButQueue s (execAtomic p pkt s) := by
  unfold execAtomic
  with_reducible repeat' first
    | apply KeepsX.ite | apply KeepsX.next | apply Keeps.refl | apply Keeps.ite | assumption
    | (apply refuseFar_keeps_k; decide) | (apply localAtomic_keeps_k; decide)
    | (apply arriveHere_keeps_eqk; decide; assumption) | split

theorem execFabricFlag_keeps (p : PortId) (pkt : Packet) (s : State) : KeepsX allButQueue s (execFabricFlag p pkt s) := by
  unfold execFabricFlag
  with_reducible repeat' first
    | apply KeepsX.ite | apply KeepsX.next | apply Keeps.refl | apply Keeps.ite | assumption
    | (apply refuseFar_keeps_k; decide) | (apply localFlag_keeps_k; decide)
    | (apply arriveHere_keeps_eqk; decide; assumption) | split

theorem execFabricBarrier_keeps (p : PortId) (pkt : Packet) (s : State) : KeepsX allButQueue s
    (execFabricBarrier p pkt s) := by
  unfold execFabricBarrier
  with_reducible repeat' first
    | apply KeepsX.ite | apply KeepsX.next | apply Keeps.refl | apply Keeps.ite | assumption
    | (apply refuseFar_keeps_k; decide) | (apply localBarrier_keeps_k; decide)
    | (apply arriveHere_keeps_eqk; decide; assumption) | split

theorem execMcastPut_keeps (p : PortId) (pkt : Packet) (s : State) : KeepsX allButQueue s (execMcastPut p pkt s) := by
  unfold execMcastPut
  dsimp only
  with_reducible repeat' first
    | apply KeepsX.ite | apply KeepsX.next | apply Keeps.refl | apply Keeps.ite | assumption
    | (apply discardHeader_keeps_k; decide) | (apply countEnd_keeps_k; decide) | (apply noteNode_keeps_k; decide)
    | (apply checkSeq_keeps_k; decide) | (apply localWrite_keeps_k; decide) | (apply followWay_keeps_k; decide)
    | (apply countStart_keeps_k; decide) | (apply takeIn_keeps_eqk; decide; assumption) | split

theorem execCommandRecord_keeps (queue : Fin 64) (r : BitVec 512) (s : State) :
    KeepsX allButQueue s (execCommandRecord queue r s) := by
  unfold execCommandRecord
  dsimp only
  with_reducible repeat' first
    | apply KeepsX.next | apply Keeps.refl | assumption | (apply takeRecords_keeps_k; decide) | apply Keeps.update

theorem execUnreachableHoldExpiry_keeps (node : W16) (s : State) : KeepsX allButQueue s
    (execUnreachableHoldExpiry node s) := by
  unfold execUnreachableHoldExpiry
  dsimp only
  with_reducible repeat' first
    | apply KeepsX.next | apply Keeps.refl | assumption | (apply takeRecords_keeps_k; decide) | apply Keeps.update

theorem execTagQuarantineExpiry_keeps (tag : W16) (s : State) : KeepsX allButQueue s (execTagQuarantineExpiry tag s) := by
  unfold execTagQuarantineExpiry
  with_reducible repeat' first
    | apply KeepsX.next | apply Keeps.refl | assumption | apply Keeps.update

theorem execSendWindowFlush_keeps (rim : RimId) (win : Nat) (s : State) :
    KeepsX allButQueue s (execSendWindowFlush rim win s) :=
  KeepsX.next (flushPacks_keeps_k (by decide) (Keeps.refl _ s))
/-! Machine/Collective -/

theorem execCpart_keeps (p : PortId) (pkt : Packet) (s : State) : KeepsX allButQueue s (execCpart p pkt s) := by
  unfold execCpart
  dsimp only
  with_reducible repeat' first
    | apply KeepsX.ite | apply KeepsX.next | apply Keeps.refl | apply Keeps.ite | assumption
    | (apply discardHeader_keeps_k; decide) | (apply countEnd_keeps_k; decide) | (apply noteNode_keeps_k; decide)
    | (apply checkSeq_keeps_k; decide) | (apply State_count_keeps_k; decide) | (apply countLog_keeps_k; decide)
    | (apply setSlot_keeps_k; decide) | (apply addPart_keeps_k; decide) | (apply sendWrite_keeps_k; decide)
    | (apply takeIn_keeps_eqk; decide; assumption) | split

theorem execCollTimeout_keeps (rim : RimId) (slot : Byte) (s : State) : KeepsX allButQueue s
    (execCollTimeout rim slot s) := by
  unfold execCollTimeout
  dsimp only
  with_reducible repeat' first
    | apply KeepsX.ite | apply KeepsX.next | apply Keeps.refl | apply Keeps.ite | assumption
    | (apply timeOutSlot_keeps_k; decide) | split

/-! Machine/Retriever -/

theorem execCoalesceExpiry_keeps (slice : RimId) (buf : Nat) (s : State) :
    KeepsX allButQueue s (execCoalesceExpiry slice buf s) := by
  unfold execCoalesceExpiry
  with_reducible repeat' first
    | apply KeepsX.ite | apply KeepsX.next | apply Keeps.refl | apply Keeps.ite | assumption | (apply gwNeed_keeps_k; decide)
    | (apply modBuf_keeps_k; decide) | split

theorem execStoreAgeExpiry_keeps (slice : RimId) (buf : Nat) (s : State) :
    KeepsX allButQueue s (execStoreAgeExpiry slice buf s) := by
  unfold execStoreAgeExpiry
  with_reducible repeat' first
    | apply KeepsX.ite | apply KeepsX.next | apply Keeps.refl | apply Keeps.ite | assumption
    | (apply gwFlush_keeps_k; decide) | split

theorem execRetrieverOpen_keeps (m : GwMsg) (s : State) : KeepsX allButQueue s (execRetrieverOpen m s) := by
  unfold execRetrieverOpen
  dsimp only
  with_reducible repeat' first
    | apply KeepsX.ite | apply KeepsX.next | apply Keeps.refl | apply Keeps.ite | assumption
    | (apply State_count_keeps_k; decide) | (apply logEvent_keeps_k; decide) | (apply gwDrop_keeps_k; decide)
    | (apply State_setGw_keeps_k; decide) | (apply gwPumpAll_keeps_k; decide) | (apply gwSend_keeps_k; decide) | split
    | apply Keeps.update

theorem execRetrieverAccept_keeps (m : GwMsg) (s : State) : KeepsX allButQueue s (execRetrieverAccept m s) := by
  unfold execRetrieverAccept
  dsimp only
  with_reducible repeat' first
    | apply KeepsX.ite | apply KeepsX.next | apply Keeps.refl | apply Keeps.ite | assumption
    | (apply State_setGw_keeps_k; decide) | (apply State_count_keeps_k; decide) | (apply gwPumpAll_keeps_k; decide)
    | (apply gwReceive_keeps_eqk; decide; assumption) | split

theorem execRetrieverRead_keeps (m : GwMsg) (s : State) : KeepsX allButQueue s (execRetrieverRead m s) := by
  unfold execRetrieverRead
  dsimp only
  with_reducible repeat' first
    | apply KeepsX.next | apply Keeps.refl | assumption | (apply State_drawn_keeps_k; decide)
    | (apply gwAfter_keeps_k; decide) | (apply gwServeOn_keeps_k; decide) | (apply gwReceive_keeps_eqk; decide; assumption)
    | split | apply Keeps.update

theorem execRetrieverReadData_keeps (m : GwMsg) (s : State) : KeepsX allButQueue s (execRetrieverReadData m s) := by
  unfold execRetrieverReadData
  dsimp only
  with_reducible repeat' first
    | apply KeepsX.next | apply Keeps.refl | assumption | (apply gwAfter_keeps_k; decide) | (apply dropBuf_keeps_k; decide)
    | (apply gwAnswer_keeps_k; decide) | (apply gwReceive_keeps_eqk; decide; assumption) | apply Keeps.foldl | intro x a hx
    | split

theorem execFlush_keeps (m : GwMsg) (s : State) : KeepsX allButQueue s (execFlush m s) := by
  unfold execFlush
  dsimp only
  with_reducible repeat' first
    | apply KeepsX.next | apply Keeps.refl | assumption | (apply gwAfter_keeps_k; decide) | (apply gwServeOn_keeps_k; decide)
    | (apply gwReceive_keeps_eqk; decide; assumption) | split | apply Keeps.update

theorem execFlushAck_keeps (m : GwMsg) (s : State) : KeepsX allButQueue s (execFlushAck m s) := by
  unfold execFlushAck
  dsimp only
  with_reducible repeat' first
    | apply KeepsX.next | apply Keeps.refl | assumption | (apply gwAfter_keeps_k; decide) | (apply gwFlushed_keeps_k; decide)
    | (apply gwReceive_keeps_eqk; decide; assumption) | split

theorem execRetrieverIdle_keeps (m : GwMsg) (s : State) : KeepsX allButQueue s (execRetrieverIdle m s) := by
  unfold execRetrieverIdle
  with_reducible repeat' first
    | apply KeepsX.next | apply Keeps.refl | assumption | (apply gwPumpAll_keeps_k; decide)
    | (apply gwReceive_keeps_eqk; decide; assumption) | split

theorem execRetrieverResend_keeps (q : PodId) (s : State) : KeepsX allButQueue s (execRetrieverResend q s) := by
  unfold execRetrieverResend
  dsimp only
  with_reducible repeat' first
    | apply KeepsX.ite | apply KeepsX.next | apply Keeps.refl | apply Keeps.ite | assumption
    | (apply State_setGw_keeps_k; decide) | (apply State_count_keeps_k; decide) | (apply gwEmit_keeps_k; decide)
    | apply Keeps.foldl | intro x a hx

theorem execRetrieverSessionTimeout_keeps (q : PodId) (s : State) : KeepsX allButQueue s
    (execRetrieverSessionTimeout q s) := by
  unfold execRetrieverSessionTimeout
  dsimp only
  with_reducible repeat' first
    | apply KeepsX.ite | apply KeepsX.next | apply Keeps.refl | apply Keeps.ite | assumption | (apply gwDrop_keeps_k; decide)
    | (apply gwLose_keeps_k; decide) | (apply gwRetry_keeps_k; decide) | (apply gwOpen_keeps_k; decide)
    | (apply gwHeldLost_keeps_k; decide) | apply Keeps.foldl | intro x a hx | split | apply Keeps.update

theorem execLoad_keeps (p : PortId) (pkt : Packet) (s : State) : KeepsX allButQueue s (execLoad p pkt s) := by
  unfold execLoad
  with_reducible repeat' first
    | apply KeepsX.ite | apply KeepsX.next | apply Keeps.refl | apply Keeps.ite | assumption
    | (apply gwEnter_keeps_k; decide) | (apply refuseFar_keeps_k; decide) | (apply localRead_keeps_k; decide)
    | (apply arriveHere_keeps_eqk; decide; assumption) | split

theorem execGet_keeps (p : PortId) (pkt : Packet) (s : State) : KeepsX allButQueue s (execGet p pkt s) := by
  unfold execGet
  with_reducible repeat' first
    | apply KeepsX.ite | apply KeepsX.next | apply Keeps.refl | apply Keeps.ite | assumption
    | (apply gwEnter_keeps_k; decide) | (apply refuseFar_keeps_k; decide) | (apply localRead_keeps_k; decide)
    | (apply arriveHere_keeps_eqk; decide; assumption) | split

theorem execStore_keeps (p : PortId) (pkt : Packet) (s : State) : KeepsX allButQueue s (execStore p pkt s) := by
  unfold execStore
  with_reducible repeat' first
    | apply KeepsX.ite | apply KeepsX.next | apply Keeps.refl | apply Keeps.ite | assumption
    | (apply gwEnter_keeps_k; decide) | (apply refuseFar_keeps_k; decide) | (apply localWrite_keeps_k; decide)
    | (apply arriveHere_keeps_eqk; decide; assumption) | split

theorem execPut_keeps (p : PortId) (pkt : Packet) (s : State) : KeepsX allButQueue s (execPut p pkt s) := by
  unfold execPut
  with_reducible repeat' first
    | apply KeepsX.ite | apply KeepsX.next | apply Keeps.refl | apply Keeps.ite | assumption
    | (apply gwEnter_keeps_k; decide) | (apply refuseFar_keeps_k; decide) | (apply localWrite_keeps_k; decide)
    | (apply arriveHere_keeps_eqk; decide; assumption) | split

theorem execLoadData_keeps (pkt : Packet) (s : State) : KeepsX allButQueue s (execLoadData pkt s) := by
  unfold execLoadData
  dsimp only
  with_reducible repeat' first
    | apply KeepsX.ite | apply KeepsX.next | apply Keeps.refl | apply Keeps.ite | assumption
    | (apply afterReply_keeps_k; decide) | (apply landReply_keeps_k; decide) | (apply countReply_keeps_k; decide)
    | (apply replyFor_keeps_eqk; decide; assumption) | split

theorem execGetData_keeps (pkt : Packet) (s : State) : KeepsX allButQueue s (execGetData pkt s) := by
  unfold execGetData
  dsimp only
  with_reducible repeat' first
    | apply KeepsX.ite | apply KeepsX.next | apply Keeps.refl | apply Keeps.ite | assumption
    | (apply afterReply_keeps_k; decide) | (apply countReply_keeps_k; decide) | (apply landReply_keeps_k; decide)
    | (apply replyFor_keeps_eqk; decide; assumption) | split

theorem execAtomicData_keeps (pkt : Packet) (s : State) : KeepsX allButQueue s (execAtomicData pkt s) := by
  unfold execAtomicData
  dsimp only
  with_reducible repeat' first
    | apply KeepsX.ite | apply KeepsX.next | apply Keeps.refl | apply Keeps.ite | assumption
    | (apply afterReply_keeps_k; decide) | (apply landReply_keeps_k; decide) | (apply endTrack_keeps_k; decide)
    | (apply replyFor_keeps_eqk; decide; assumption) | split

theorem execAck_keeps (pkt : Packet) (s : State) : KeepsX allButQueue s (execAck pkt s) := by
  unfold execAck
  with_reducible repeat' first
    | apply KeepsX.ite | apply KeepsX.next | apply Keeps.refl | apply Keeps.ite | assumption
    | (apply afterReply_keeps_k; decide) | (apply countReply_keeps_k; decide)
    | (apply replyFor_keeps_eqk; decide; assumption) | split

theorem execStatus_keeps (pkt : Packet) (s : State) : KeepsX allButQueue s (execStatus pkt s) := by
  unfold execStatus
  dsimp only
  with_reducible repeat' first
    | apply KeepsX.ite | apply KeepsX.next | apply Keeps.refl | apply Keeps.ite | assumption
    | (apply afterReply_keeps_k; decide) | (apply markUnreachable_keeps_k; decide) | (apply logEvent_keeps_k; decide)
    | (apply State_setObj_keeps_k; decide) | (apply countReply_keeps_k; decide) | (apply endTrack_keeps_k; decide)
    | (apply replyFor_keeps_eqk; decide; assumption) | split | apply Keeps.update

theorem execRmemTimeout_keeps (tag : W16) (s : State) : KeepsX allButQueue s (execRmemTimeout tag s) := by
  unfold execRmemTimeout
  dsimp only
  with_reducible repeat' first
    | apply KeepsX.ite | apply KeepsX.next | apply Keeps.refl | apply Keeps.ite | assumption
    | (apply markUnreachable_keeps_k; decide) | (apply State_count_keeps_k; decide) | (apply afterReply_keeps_k; decide)
    | (apply endTrack_keeps_k; decide) | split | apply Keeps.update

/-! Machine/Cvu -/

theorem execData8_keeps (u : CvuRef) (v : Byte) (s : State) : KeepsX allButQueue s (execData8 u v s) :=
  KeepsX.next (cvuWrite_keeps_k (by decide) (Keeps.refl _ s))

theorem execData16_keeps (u : CvuRef) (v : W16) (s : State) : KeepsX allButQueue s (execData16 u v s) :=
  KeepsX.next (cvuWrite_keeps_k (by decide) (Keeps.refl _ s))

theorem execData32_keeps (u : CvuRef) (v : W32) (s : State) : KeepsX allButQueue s (execData32 u v s) :=
  KeepsX.next (cvuWrite_keeps_k (by decide) (Keeps.refl _ s))

theorem execCtrl_keeps (u : CvuRef) (v : W32) (s : State) : KeepsX allButQueue s (execCtrl u v s) :=
  KeepsX.next (cvuWrite_keeps_k (by decide) (Keeps.refl _ s))

theorem execCvuStart_keeps (u : CvuRef) (v : W32) (s : State) : KeepsX allButQueue s (execCvuStart u v s) :=
  KeepsX.next (cvuWrite_keeps_k (by decide) (Keeps.refl _ s))

theorem execValue_keeps (u : CvuRef) (v : W64) (s : State) : KeepsX allButQueue s (execValue u v s) :=
  KeepsX.next (cvuWrite_keeps_k (by decide) (Keeps.refl _ s))

theorem execOwner_keeps (n : Fin 8) (agent : Nat) (v : Byte) (s : State) : KeepsX allButQueue s (execOwner n agent v s) :=
  KeepsX.next (cvuWrite_keeps_k (by decide) (Keeps.refl _ s))
/-! Machine/PowerThermal -/

theorem execInputInRange_keeps (mv : Nat) (s : State) : KeepsX allButQueue s (execInputInRange mv s) := by
  unfold execInputInRange
  dsimp only
  with_reducible repeat' first
    | apply KeepsX.ite | apply KeepsX.next | apply Keeps.refl | apply Keeps.ite | assumption
    | (apply enterState_keeps_k <;> first | decide | skip) | (apply State_setObj_keeps_k; decide) | split
    | apply Keeps.update

theorem execOverVoltage_keeps (mv : Nat) (s : State) : KeepsX allButQueue s (execOverVoltage mv s) := by
  unfold execOverVoltage
  dsimp only
  with_reducible repeat' first
    | apply KeepsX.ite | apply KeepsX.next | apply KeepsX.fault | apply Keeps.refl | apply Keeps.ite | assumption
    | (apply countLog_keeps_k; decide) | (apply declareLoss_keeps_k; decide) | split | apply Keeps.update

theorem execInputHigh_keeps (mv : Nat) (s : State) : KeepsX allButQueue s (execInputHigh mv s) := by
  unfold execInputHigh
  with_reducible repeat' first
    | apply KeepsX.ite | apply KeepsX.next | apply Keeps.refl | apply Keeps.ite | assumption
    | (apply logEvent_keeps_k; decide) | split | apply Keeps.update

theorem execBrownOut_keeps (mv : Nat) (s : State) : KeepsX allButQueue s (execBrownOut mv s) := by
  unfold execBrownOut
  with_reducible repeat' first
    | apply KeepsX.ite | apply KeepsX.next | apply Keeps.refl | apply Keeps.ite | assumption
    | (apply countLog_keeps_k; decide) | split | apply Keeps.update

theorem execInputThresholdClear_keeps (mv : Nat) (s : State) : KeepsX allButQueue s (execInputThresholdClear mv s) := by
  unfold execInputThresholdClear
  with_reducible repeat' first
    | apply KeepsX.ite | apply KeepsX.next | apply Keeps.refl | apply Keeps.ite | assumption | split | apply Keeps.update

theorem execInputLoss_keeps (mv : Nat) (s : State) : KeepsX allButQueue s (execInputLoss mv s) := by
  unfold execInputLoss
  with_reducible repeat' first
    | apply KeepsX.ite | apply KeepsX.next | apply Keeps.refl | apply Keeps.ite | assumption
    | (apply declareLoss_keeps_k; decide) | split | apply Keeps.update

theorem execRideThrough_keeps (mv : Nat) (s : State) : KeepsX allButQueue s (execRideThrough mv s) := by
  unfold execRideThrough
  dsimp only
  with_reducible repeat' first
    | apply KeepsX.ite | apply KeepsX.next | apply Keeps.refl | apply Keeps.ite | assumption
    | (apply countLog_keeps_k; decide) | split | apply Keeps.update

theorem execHoldupExpiry_keeps (s : State) : KeepsX allButQueue s (execHoldupExpiry s) := by
  unfold execHoldupExpiry
  with_reducible repeat' first
    | apply KeepsX.ite | apply KeepsX.next | apply Keeps.refl | apply Keeps.ite | assumption
    | (apply powerOff_keeps_k; decide) | (apply countLog_keeps_k; decide) | split

theorem execCurrentLimitExpiry_keeps (s : State) : KeepsX allButQueue s (execCurrentLimitExpiry s) := by
  unfold execCurrentLimitExpiry
  with_reducible repeat' first
    | apply KeepsX.ite | apply KeepsX.next | apply Keeps.refl | apply Keeps.ite | assumption
    | (apply declareLoss_keeps_k; decide)

theorem execThermalSample_keeps (site : SiteId) (die : Fin 14) (reading : List Int) (model : List Int) (s : State) :
    KeepsX allButQueue s (execThermalSample site die reading model s) := by
  unfold execThermalSample
  dsimp only
  with_reducible repeat' first
    | apply KeepsX.ite | apply KeepsX.next | apply Keeps.refl | apply Keeps.ite | assumption
    | (apply State_setThermDie_keeps_k; decide) | (apply checkOrder_keeps_k; decide) | (apply changeLevel_keeps_k; decide)
    | split

theorem execCeilingStep_keeps (die : DieId) (s : State) : KeepsX allButQueue s (execCeilingStep die s) := by
  unfold execCeilingStep
  dsimp only
  with_reducible repeat' first
    | apply KeepsX.ite | apply KeepsX.next | apply Keeps.refl | apply Keeps.ite | assumption
    | (apply settleCap_keeps_k; decide) | (apply State_setDie_keeps_k; decide)

/-! Machine/Controllers -/

theorem execControlCycle_keeps (input : InputReading) (agree : Bool) (s : State) :
    KeepsX allButQueue s (execControlCycle input agree s) := by
  unfold execControlCycle
  dsimp only
  with_reducible repeat' first
    | apply KeepsX.ite | apply KeepsX.next | apply KeepsX.fault | apply Keeps.refl | apply Keeps.ite | assumption
    | (apply notePower_keeps_k; decide) | (apply cycleEnd_keeps_k; decide) | split | apply Keeps.update

theorem execControllerKatDone_keeps (active standby : Bool) (s : State) :
    KeepsX allButQueue s (execControllerKatDone active standby s) := by
  unfold execControllerKatDone
  dsimp only
  with_reducible repeat' first
    | apply KeepsX.ite | apply KeepsX.next | apply KeepsX.fault | apply Keeps.refl | apply Keeps.ite | assumption
    | (apply faultStop_keeps_k; decide) | (apply takeOver_keeps_k; decide) | (apply goSimplex_keeps_k; decide)
    | (apply releasePrev_keeps_k; decide) | split | apply Keeps.update

theorem execTandemLoss_keeps (s : State) : KeepsX allButQueue s (execTandemLoss s) := by
  unfold execTandemLoss
  with_reducible repeat' first
    | apply KeepsX.ite | apply KeepsX.next | apply KeepsX.fault | apply Keeps.refl | apply Keeps.ite | assumption
    | (apply releaseAll_keeps_k; decide) | (apply goSimplex_keeps_k; decide)

theorem execCycleWatchdog_keeps (s : State) : KeepsX allButQueue s (execCycleWatchdog s) := by
  unfold execCycleWatchdog
  with_reducible repeat' first
    | apply KeepsX.ite | apply KeepsX.next | apply KeepsX.fault | apply Keeps.refl | apply Keeps.ite | assumption
    | (apply faultStop_keeps_k; decide)

theorem execDrillAuto_keeps (s : State) : KeepsX allButQueue s (execDrillAuto s) := by
  unfold execDrillAuto
  dsimp only
  with_reducible repeat' first
    | apply KeepsX.ite | apply KeepsX.next | apply Keeps.refl | apply Keeps.ite | assumption
    | (apply askDrill_keeps_k; decide) | split | apply Keeps.update

theorem execDrillTakeoverTimeout_keeps (s : State) : KeepsX allButQueue s (execDrillTakeoverTimeout s) := by
  unfold execDrillTakeoverTimeout
  dsimp only
  with_reducible repeat' first
    | apply KeepsX.ite | apply KeepsX.next | apply Keeps.refl | apply Keeps.ite | assumption
    | (apply State_setObj_keeps_k; decide) | (apply releaseAll_keeps_k; decide) | (apply goSimplex_keeps_k; decide)

/-! Machine/Image -/

theorem execSlotLoadDone_keeps (slot : SlotId) (s : State) : KeepsX allButQueue s (execSlotLoadDone slot s) := by
  unfold execSlotLoadDone
  dsimp only
  with_reducible repeat' first
    | apply KeepsX.ite | apply KeepsX.next | apply Keeps.refl | apply Keeps.ite | assumption
    | (apply refuseLoad_keeps_k; decide) | (apply installImage_keeps_k; decide) | split | apply Keeps.update

theorem execSlotDrained_keeps (slot : SlotId) (s : State) : KeepsX allButQueue s (execSlotDrained slot s) := by
  unfold execSlotDrained
  dsimp only
  with_reducible repeat' first
    | apply KeepsX.ite | apply KeepsX.next | apply Keeps.refl | apply Keeps.ite | assumption
    | (apply unloadImage_keeps_k; decide)

theorem execPartitionReloadDone_keeps (die : DieId) (s : State) : KeepsX allButQueue s (execPartitionReloadDone die s) := by
  unfold execPartitionReloadDone
  dsimp only
  with_reducible repeat' first
    | apply KeepsX.ite | apply KeepsX.next | apply Keeps.refl | apply Keeps.ite | assumption
    | (apply placeSection_keeps_k; decide) | (apply settleDram_keeps_k; decide) | (apply State_setDie_keeps_k; decide)
    | apply Keeps.foldl | intro x a hx | split

/-! Machine/Serving -/

theorem execServingPortLinkChange_keeps (port : Fin 2) (up : Bool) (s : State) :
    KeepsX allButQueue s (execServingPortLinkChange port up s) := by
  unfold execServingPortLinkChange
  with_reducible repeat' first
    | apply KeepsX.next | apply Keeps.refl | assumption | apply Keeps.update

theorem execIpv4Frame_keeps (port : Fin 2) (s : State) : KeepsX allButQueue s (execIpv4Frame port s) := by
  unfold execIpv4Frame
  with_reducible repeat' first
    | apply KeepsX.ite | apply KeepsX.next | apply Keeps.refl | apply Keeps.ite | assumption
    | (apply State_count_keeps_k; decide)

theorem execIcmpv6Message_keeps (port : Fin 2) (type : Byte) (data : Bytes) (s : State) :
    KeepsX allButQueue s (execIcmpv6Message port type data s) := by
  unfold execIcmpv6Message
  dsimp only
  with_reducible repeat' first
    | apply KeepsX.ite | apply KeepsX.next | apply Keeps.refl | apply Keeps.ite | assumption
    | (apply State_emit_keeps_k; decide)

theorem execOpenSession_keeps (d : Dgram) (s : State) : KeepsX allButQueue s (execOpenSession d s) := by
  unfold execOpenSession
  dsimp only
  with_reducible repeat' first
    | apply KeepsX.ite | apply KeepsX.next | apply Keeps.refl | apply Keeps.ite | assumption
    | (apply authDrop_keeps_k; decide) | (apply State_emit_keeps_k; decide) | (apply State_drawn_keeps_k; decide)
    | (apply State_count_keeps_k; decide) | (apply serveSend_keeps_k; decide) | split | apply Keeps.update

theorem execServeAck_keeps (d : Dgram) (s : State) : KeepsX allButQueue s (execServeAck d s) := by
  unfold execServeAck
  dsimp only
  with_reducible repeat' first
    | apply KeepsX.ite | apply KeepsX.next | apply Keeps.refl | apply Keeps.ite | assumption
    | (apply authDrop_keeps_k; decide) | (apply takeAck_keeps_k; decide) | (apply modSess_keeps_k; decide) | split

theorem execReservedKind_keeps (d : Dgram) (s : State) : KeepsX allButQueue s (execReservedKind d s) := by
  unfold execReservedKind
  with_reducible repeat' first
    | apply KeepsX.next | apply Keeps.refl | assumption | (apply State_count_keeps_k; decide)
    | (apply takeInOrder_keeps_k; decide) | intro f x hx

theorem execServeResend_keeps (session : W32) (s : State) : KeepsX allButQueue s (execServeResend session s) := by
  unfold execServeResend
  dsimp only
  with_reducible repeat' first
    | apply KeepsX.ite | apply KeepsX.next | apply Keeps.refl | apply Keeps.ite | assumption
    | (apply modSess_keeps_k; decide) | (apply serveOut_keeps_k; decide) | (apply State_count_keeps_k; decide)
    | apply Keeps.foldl | intro x a hx | split

theorem execAckDue_keeps (session : W32) (s : State) : KeepsX allButQueue s (execAckDue session s) := by
  unfold execAckDue
  dsimp only
  with_reducible repeat' first
    | apply KeepsX.ite | apply KeepsX.next | apply Keeps.refl | apply Keeps.ite | assumption
    | (apply serveOut_keeps_k; decide) | (apply closeSession_keeps_k; decide) | (apply modSess_keeps_k; decide) | split

theorem execClose_keeps (d : Dgram) (s : State) : KeepsX allButQueue s (execClose d s) := by
  unfold execClose
  with_reducible repeat' first
    | apply KeepsX.next | apply Keeps.refl | assumption | (apply closeSession_keeps_k; decide)
    | (apply cancelSession_keeps_k; decide) | (apply modSess_keeps_k; decide) | (apply takeInOrder_keeps_k; decide)
    | intro f x hx

theorem execSessionTimeout_keeps (session : W32) (s : State) : KeepsX allButQueue s (execSessionTimeout session s) := by
  unfold execSessionTimeout
  dsimp only
  with_reducible repeat' first
    | apply KeepsX.ite | apply KeepsX.next | apply Keeps.refl | apply Keeps.ite | assumption
    | (apply cancelSession_keeps_k; decide) | split | apply Keeps.update

theorem execCancel_keeps (d : Dgram) (s : State) : KeepsX allButQueue s (execCancel d s) := by
  unfold execCancel
  dsimp only
  with_reducible repeat' first
    | apply KeepsX.next | apply Keeps.refl | assumption | (apply cancelAsm_keeps_k; decide)
    | (apply endRequests_keeps_k; decide) | (apply takeInOrder_keeps_k; decide) | split | intro f x hx

theorem execRequest_keeps (d : Dgram) (s : State) : KeepsX allButQueue s (execRequest d s) := by
  unfold execRequest
  dsimp only
  with_reducible repeat' first
    | apply KeepsX.ite | apply KeepsX.next | apply Keeps.refl | apply Keeps.ite | assumption
    | (apply State_count_keeps_k; decide) | (apply refuse_keeps_k; decide) | (apply judgeIfComplete_keeps_k; decide)
    | (apply takeInOrder_keeps_k; decide) | split | intro f x hx | apply Keeps.update

theorem execPrompt_keeps (d : Dgram) (s : State) : KeepsX allButQueue s (execPrompt d s) := by
  unfold execPrompt
  dsimp only
  with_reducible repeat' first
    | apply KeepsX.ite | apply KeepsX.next | apply Keeps.refl | apply Keeps.ite | assumption
    | (apply refuseAsm_keeps_k; decide) | (apply judgeIfComplete_keeps_k; decide) | (apply modAsm_keeps_k; decide)
    | (apply takeInOrder_keeps_k; decide) | split | intro f x hx

theorem execPromptTimeout_keeps (session : W32) (req : W32) (s : State) :
    KeepsX allButQueue s (execPromptTimeout session req s) := by
  unfold execPromptTimeout
  with_reducible repeat' first
    | apply KeepsX.ite | apply KeepsX.next | apply Keeps.refl | apply Keeps.ite | assumption
    | (apply refuseAsm_keeps_k; decide) | split

theorem execTokenizer_keeps (whip : WhipId) (session req : W32) (s : State) :
    KeepsX allButQueue s (execTokenizer whip session req s) := by
  unfold execTokenizer
  dsimp only
  with_reducible repeat' first
    | apply KeepsX.ite | apply KeepsX.next | apply Keeps.refl | apply Keeps.ite | assumption
    | (apply refuseAsm_keeps_k; decide) | (apply State_count_keeps_k; decide) | (apply hashOrAdmit_keeps_k; decide)
    | (apply routineEnd_keeps_k; decide) | split

theorem execPrefixHasher_keeps (whip : WhipId) (session req : W32) (s : State) :
    KeepsX allButQueue s (execPrefixHasher whip session req s) := by
  unfold execPrefixHasher
  dsimp only
  with_reducible repeat' first
    | apply KeepsX.ite | apply KeepsX.next | apply Keeps.refl | apply Keeps.ite | assumption
    | (apply refuseAsm_keeps_k; decide) | (apply admitRequest_keeps_k; decide) | (apply routineEnd_keeps_k; decide)
    | (apply hasherUnit_keeps_k; decide) | split

theorem execPrefillComplete_keeps (ctx : Nat) (ns : Nat) (s : State) : KeepsX allButQueue s
    (execPrefillComplete ctx ns s) := by
  unfold execPrefillComplete
  dsimp only
  with_reducible repeat' first
    | apply KeepsX.ite | apply KeepsX.next | apply Keeps.refl | apply Keeps.ite | assumption | (apply modCtx_keeps_k; decide)
    | (apply giveBlocks_keeps_k; decide) | (apply enterBlocks_keeps_k; decide) | (apply routineEnd_keeps_k; decide)
    | (apply detokenize_keeps_k; decide) | (apply joinActive_keeps_k; decide) | split | apply Keeps.update

theorem execDeadlineExpiry_keeps (ctx : Nat) (s : State) : KeepsX allButQueue s (execDeadlineExpiry ctx s) := by
  unfold execDeadlineExpiry
  with_reducible repeat' first
    | apply KeepsX.ite | apply KeepsX.next | apply Keeps.refl | apply Keeps.ite | assumption
    | (apply settleEnding_keeps_k; decide) | (apply markEnding_keeps_k; decide) | split

/-! Machine/TimeBase -/

theorem execPpsEdge_keeps (interval : Nat) (ppb : Int) (phase : Int) (s : State) :
    KeepsX allButQueue s (execPpsEdge interval ppb phase s) := by
  unfold execPpsEdge
  dsimp only
  with_reducible repeat' first
    | apply KeepsX.ite | apply KeepsX.next | apply Keeps.refl | apply Keeps.ite | assumption
    | (apply logEvent_keeps_k; decide) | (apply gainSource_keeps_k; decide) | (apply applyOffset_keeps_k; decide) | split
    | apply Keeps.update

theorem execRefClockLoss_keeps (s : State) : KeepsX allButQueue s (execRefClockLoss s) := by
  unfold execRefClockLoss
  with_reducible repeat' first
    | apply KeepsX.next | apply Keeps.refl | assumption | (apply loseSource_keeps_k; decide) | apply Keeps.update

theorem execPtpSync_keeps (offset : Int) (tai : Nat) (utc : Option W16) (master : W64) (s : State) :
    KeepsX allButQueue s (execPtpSync offset tai utc master s) := by
  unfold execPtpSync
  dsimp only
  with_reducible repeat' first
    | apply KeepsX.ite | apply KeepsX.next | apply Keeps.refl | apply Keeps.ite | assumption
    | (apply State_setObj_keeps_k; decide) | (apply gainSource_keeps_k; decide) | (apply applyOffset_keeps_k; decide) | split
    | apply Keeps.update

theorem execPtpLoss_keeps (s : State) : KeepsX allButQueue s (execPtpLoss s) := by
  unfold execPtpLoss
  with_reducible repeat' first
    | apply KeepsX.next | apply Keeps.refl | assumption | (apply loseSource_keeps_k; decide) | apply Keeps.update

theorem execBeatSync_keeps (p : PortId) (r : SyncRec) (t4 : Nat) (s : State) :
    KeepsX allButQueue s (execBeatSync p r t4 s) := by
  unfold execBeatSync
  dsimp only
  with_reducible repeat' first
    | apply KeepsX.ite | apply KeepsX.next | apply Keeps.refl | apply Keeps.ite | assumption
    | (apply State_setPort_keeps_k; decide) | (apply takeUpstream_keeps_k; decide) | (apply followUpstream_keeps_k; decide)

theorem execBeatSyncSend_keeps (p : PortId) (s : State) : KeepsX allButQueue s (execBeatSyncSend p s) := by
  unfold execBeatSyncSend
  dsimp only
  with_reducible repeat' first
    | apply KeepsX.ite | apply KeepsX.next | apply Keeps.refl | apply Keeps.ite | assumption
    | (apply State_setPort_keeps_k; decide)

theorem execFabricSyncLoss_keeps (s : State) : KeepsX allButQueue s (execFabricSyncLoss s) := by
  unfold execFabricSyncLoss
  dsimp only
  with_reducible repeat' first
    | apply KeepsX.ite | apply KeepsX.next | apply Keeps.refl | apply Keeps.ite | assumption
    | (apply loseFabric_keeps_k; decide) | (apply State_setPort_keeps_k; decide) | (apply takeUpstream_keeps_k; decide)
    | split

theorem execSourceRevalid_keeps (src : Fin 4) (s : State) : KeepsX allButQueue s (execSourceRevalid src s) := by
  unfold execSourceRevalid
  dsimp only
  with_reducible repeat' first
    | apply KeepsX.ite | apply KeepsX.next | apply Keeps.refl | apply Keeps.ite | assumption
    | (apply switchTo_keeps_k; decide)

theorem execTimeLock_keeps (s : State) : KeepsX allButQueue s (execTimeLock s) := by
  unfold execTimeLock
  with_reducible repeat' first
    | apply KeepsX.ite | apply KeepsX.next | apply Keeps.refl | apply Keeps.ite | assumption | split | apply Keeps.update

theorem execDroopTrip_keeps (site : SiteId) (edges : Fin 3) (s : State) :
    KeepsX allButQueue s (execDroopTrip site edges s) := by
  unfold execDroopTrip
  dsimp only
  with_reducible repeat' first
    | apply KeepsX.ite | apply KeepsX.next | apply Keeps.refl | apply Keeps.ite | assumption
    | (apply State_count_keeps_k; decide) | (apply State_setCore_keeps_k; decide) | apply Keeps.foldl | intro x a hx | split

theorem execFreqStep_keeps (die : DieId) (xing : List (Nat × List (Nat × Int))) (s : State) :
    KeepsX allButQueue s (execFreqStep die xing s) := by
  unfold execFreqStep
  dsimp only
  with_reducible repeat' first
    | apply KeepsX.ite | apply KeepsX.next | apply Keeps.refl | apply Keeps.ite | assumption
    | (apply calibrateDie_keeps_k; decide) | (apply State_setDie_keeps_k; decide) | (apply State_count_keeps_k; decide)
    | split

/-! Machine/States -/

theorem execDrainingDone_keeps (s : State) : KeepsX allButQueue s (execDrainingDone s) := by
  unfold execDrainingDone
  with_reducible repeat' first
    | apply KeepsX.ite | apply KeepsX.next | apply Keeps.refl | apply Keeps.ite | assumption
    | (apply enterState_keeps_k <;> first | decide | skip) | (apply railsOff_keeps_k; decide)

theorem execStageIdleTimeout_keeps (s : State) : KeepsX allButQueue s (execStageIdleTimeout s) := by
  unfold execStageIdleTimeout
  with_reducible repeat' first
    | apply KeepsX.ite | apply KeepsX.next | apply Keeps.refl | apply Keeps.ite | assumption | split | apply Keeps.update

theorem execUartIdleResync_keeps (s : State) : KeepsX allButQueue s (execUartIdleResync s) := by
  unfold execUartIdleResync
  with_reducible repeat' first
    | apply KeepsX.next | apply Keeps.refl | assumption | apply Keeps.update

/-! Machine/Ensemble -/

theorem execRollCall_keeps (s : State) : KeepsX allButQueue s (execRollCall s) := by
  unfold execRollCall
  with_reducible repeat' first
    | apply KeepsX.ite | apply KeepsX.next | apply Keeps.refl | apply Keeps.ite | assumption
    | (apply judgeRoll_keeps_k; decide) | (apply publish_keeps_k; decide)

theorem execEnsRecord_keeps (key : Bytes) (r : BitVec 512) (s : State) : KeepsX allButQueue s (execEnsRecord key r s) := by
  unfold execEnsRecord
  dsimp only
  with_reducible repeat' first
    | apply KeepsX.ite | apply KeepsX.next | apply KeepsX.fault | apply Keeps.refl | apply Keeps.ite | assumption
    | (apply State_count_keeps_k; decide) | (apply keepRecord_keeps_k; decide) | (apply judgeRoll_keeps_k; decide)
    | (apply stopEnsemble_keeps_k; decide) | (apply judgeHeartbeat_keeps_k; decide) | split | apply Keeps.update

theorem execEnsembleStart_keeps (s : State) : KeepsX allButQueue s (execEnsembleStart s) := by
  unfold execEnsembleStart
  dsimp only
  with_reducible repeat' first
    | apply KeepsX.ite | apply KeepsX.next | apply Keeps.refl | apply Keeps.ite | assumption
    | (apply noteItems_keeps_k; decide) | (apply publish_keeps_k; decide) | (apply goServe_keeps_k; decide)
    | apply Keeps.foldl | intro x a hx | split | apply Keeps.update

theorem execHeartbeat_keeps (s : State) : KeepsX allButQueue s (execHeartbeat s) := by
  unfold execHeartbeat
  with_reducible repeat' first
    | apply KeepsX.ite | apply KeepsX.next | apply Keeps.refl | apply Keeps.ite | assumption
    | (apply publish_keeps_k; decide)

theorem execHeartbeatMissing_keeps (node : W16) (s : State) : KeepsX allButQueue s (execHeartbeatMissing node s) := by
  unfold execHeartbeatMissing
  with_reducible repeat' first
    | apply KeepsX.ite | apply KeepsX.next | apply Keeps.refl | apply Keeps.ite | assumption
    | (apply detectStop_keeps_k; decide) | split

/-! Machine/SelfTest -/

theorem execKatPeriodic_keeps (unit : Nat) (s : State) : KeepsX allButQueue s (execKatPeriodic unit s) := by
  unfold execKatPeriodic
  dsimp only
  with_reducible repeat' first
    | apply KeepsX.ite | apply KeepsX.next | apply Keeps.refl | apply Keeps.ite | assumption
    | (apply queueKat_keeps_k; decide) | split | apply Keeps.update

theorem execMatrixCoreKat_keeps (c : CoreId) (s : State) : KeepsX allButQueue s (execMatrixCoreKat c s) := by
  unfold execMatrixCoreKat
  dsimp only
  with_reducible repeat' first
    | apply KeepsX.ite | apply KeepsX.next | apply Keeps.refl | apply Keeps.ite | assumption
    | (apply settleKat_keeps_k; decide) | (apply katStart_keeps_k; decide) | (apply State_setCore_keeps_k; decide)

theorem execMatrixCoreKatDone_keeps (c : CoreId) (pass : Bool) (s : State) :
    KeepsX allButQueue s (execMatrixCoreKatDone c pass s) := by
  unfold execMatrixCoreKatDone
  dsimp only
  with_reducible repeat' first
    | apply KeepsX.ite | apply KeepsX.next | apply Keeps.refl | apply Keeps.ite | assumption
    | (apply State_setCore_keeps_k; decide) | (apply settleKat_keeps_k; decide) | (apply katResult_keeps_k; decide) | split
    | apply Keeps.update

theorem execWhippetKat_keeps (w : WhipId) (s : State) : KeepsX allButQueue s (execWhippetKat w s) := by
  unfold execWhippetKat
  dsimp only
  with_reducible repeat' first
    | apply KeepsX.ite | apply KeepsX.next | apply Keeps.refl | apply Keeps.ite | assumption
    | (apply katStart_keeps_k; decide) | (apply State_setWhip_keeps_k; decide)

theorem execWhippetKatDone_keeps (w : WhipId) (pass : Bool) (s : State) :
    KeepsX allButQueue s (execWhippetKatDone w pass s) := by
  unfold execWhippetKatDone
  dsimp only
  with_reducible repeat' first
    | apply KeepsX.ite | apply KeepsX.next | apply Keeps.refl | apply Keeps.ite | assumption
    | (apply State_setWhip_keeps_k; decide) | (apply katResult_keeps_k; decide)

theorem execTestModeExpiry_keeps (s : State) : KeepsX allButQueue s (execTestModeExpiry s) := by
  unfold execTestModeExpiry
  with_reducible repeat' first
    | apply KeepsX.ite | apply KeepsX.next | apply Keeps.refl | apply Keeps.ite | assumption
    | (apply lockTest_keeps_k; decide)

theorem execTraceRecord_keeps (site : SiteId) (unit : W16) (kind : Byte) (payload : Bytes) (s : State) :
    KeepsX allButQueue s (execTraceRecord site unit kind payload s) := by
  unfold execTraceRecord
  with_reducible repeat' first
    | apply KeepsX.ite | apply KeepsX.next | apply Keeps.refl | apply Keeps.ite | assumption
    | (apply traceMake_keeps_k; decide)

theorem execLogSuppressSummary_keeps (s : State) : KeepsX allButQueue s (execLogSuppressSummary s) := by
  unfold execLogSuppressSummary
  with_reducible repeat' first
    | apply KeepsX.ite | apply KeepsX.next | apply Keeps.refl | apply Keeps.ite | assumption
    | (apply closeSecond_keeps_k; decide)

/-! Machine/Boot -/

theorem execBootStart_keeps (nor0 nor1 : List NorCopy) (pass0 pass1 : Bool) (copy0 copy1 : Bytes) (fails : List Nat)
    (s : State) :
    KeepsX allButQueue s (execBootStart nor0 nor1 pass0 pass1 copy0 copy1 fails s) := by
  unfold execBootStart
  dsimp only
  with_reducible repeat' first
    | apply KeepsX.ite | apply KeepsX.next | apply KeepsX.fault | apply Keeps.refl | apply Keeps.ite | assumption
    | (apply faultStop_keeps_k; decide) | (apply State_count_keeps_k; decide) | (apply bootPair_keeps_k; decide)
    | (apply bootConfig_keeps_k; decide) | (apply State_setObj_keeps_k; decide) | (apply bootReasons_keeps_k; decide)
    | (apply bootTests_keeps_k; decide) | (apply bootRails_keeps_k; decide) | (apply takeConfig_keeps_k; decide)
    | (apply startBootLoads_keeps_k; decide) | split | apply Keeps.update

theorem execBootComplete_keeps (elapsedMs : W32) (s : State) : KeepsX allButQueue s (execBootComplete elapsedMs s) := by
  unfold execBootComplete
  dsimp only
  with_reducible repeat' first
    | apply KeepsX.ite | apply KeepsX.next | apply Keeps.refl | apply Keeps.ite | assumption
    | (apply State_setObj_keeps_k; decide) | (apply enterState_keeps_k <;> first | decide | skip)
    | (apply startRollCall_keeps_k; decide) | (apply goServe_keeps_k; decide) | split | apply Keeps.update
    | refine Keeps.updateDev id ?_

/-! Machine/Harp -/

theorem execHarpInsert_keeps (slot : HarpSlot) (serial : W64) (hours : W32) (s : State) :
    KeepsX allButQueue s (execHarpInsert slot serial hours s) := by
  unfold execHarpInsert
  dsimp only
  with_reducible repeat' first
    | apply KeepsX.ite | apply KeepsX.next | apply Keeps.refl | apply Keeps.ite | assumption
    | (apply newCartridge_keeps_k; decide) | (apply State_setHarp_keeps_k; decide) | (apply State_count_keeps_k; decide)

theorem execHarpTestDone_keeps (slot : HarpSlot) (lines : List HarpLine) (s : State) :
    KeepsX allButQueue s (execHarpTestDone slot lines s) := by
  unfold execHarpTestDone
  dsimp only
  with_reducible repeat' first
    | apply KeepsX.ite | apply KeepsX.next | apply Keeps.refl | apply Keeps.ite | assumption
    | (apply State_setHarp_keeps_k; decide) | (apply harpFails_keeps_k; decide) | (apply requestSpare_keeps_k; decide)
    | (apply serveWaiting_keeps_k; decide) | (apply setRole_keeps_k; decide) | (apply settleHarp_keeps_k; decide)
    | (apply State_setDomain_keeps_k; decide) | (apply startReturn_keeps_k; decide) | split

theorem execCartridgeRemoved_keeps (slot : HarpSlot) (s : State) : KeepsX allButQueue s (execCartridgeRemoved slot s) := by
  unfold execCartridgeRemoved
  dsimp only
  with_reducible repeat' first
    | apply KeepsX.ite | apply KeepsX.next | apply Keeps.refl | apply Keeps.ite | assumption
    | (apply newCartridge_keeps_k; decide) | (apply State_setHarp_keeps_k; decide) | (apply requestSpare_keeps_k; decide)
    | (apply State_setDomain_keeps_k; decide) | (apply abruptLoss_keeps_k; decide) | split

theorem execHarpMonitorSample_keeps (slot : HarpSlot) (power : List Int) (s : State) :
    KeepsX allButQueue s (execHarpMonitorSample slot power s) := by
  unfold execHarpMonitorSample
  dsimp only
  with_reducible repeat' first
    | apply KeepsX.ite | apply KeepsX.next | apply Keeps.refl | apply Keeps.ite | assumption
    | (apply State_setHarp_keeps_k; decide) | (apply State_setDomain_keeps_k; decide) | (apply logEvent_keeps_k; decide)
    | (apply requestSpare_keeps_k; decide) | (apply settleHarp_keeps_k; decide) | (apply abruptLoss_keeps_k; decide) | split

theorem execFadeFit_keeps (d : DomainId) (s : State) : KeepsX allButQueue s (execFadeFit d s) := by
  unfold execFadeFit
  dsimp only
  with_reducible repeat' first
    | apply KeepsX.ite | apply KeepsX.next | apply Keeps.refl | apply Keeps.ite | assumption
    | (apply State_setDomain_keeps_k; decide)

theorem execSpareReady_keeps (slot : HarpSlot) (lines : List HarpLine) (s : State) :
    KeepsX allButQueue s (execSpareReady slot lines s) := by
  unfold execSpareReady
  dsimp only
  with_reducible repeat' first
    | apply KeepsX.ite | apply KeepsX.next | apply Keeps.refl | apply Keeps.ite | assumption
    | (apply State_setHarp_keeps_k; decide) | (apply traceStep_keeps_k; decide) | (apply setRole_keeps_k; decide)
    | (apply State_setDomain_keeps_k; decide) | (apply requestSpare_keeps_k; decide) | (apply harpFails_keeps_k; decide)
    | split

theorem execCreditHoldStart_keeps (d : DomainId) (s : State) : KeepsX allButQueue s (execCreditHoldStart d s) := by
  unfold execCreditHoldStart
  dsimp only
  with_reducible repeat' first
    | apply KeepsX.ite | apply KeepsX.next | apply Keeps.refl | apply Keeps.ite | assumption
    | (apply abortSounding_keeps_k; decide) | (apply State_setStr_keeps_k; decide) | (apply traceStep_keeps_k; decide)
    | (apply State_setDomain_keeps_k; decide) | apply Keeps.foldl | intro x a hx

theorem execSelectorSwitch_keeps (d : DomainId) (s : State) : KeepsX allButQueue s (execSelectorSwitch d s) := by
  unfold execSelectorSwitch
  dsimp only
  with_reducible repeat' first
    | apply KeepsX.ite | apply KeepsX.next | apply Keeps.refl | apply Keeps.ite | assumption
    | (apply domainPegs_keeps_k; decide) | (apply State_setDomain_keeps_k; decide) | (apply retrain_keeps_k; decide)
    | (apply State_setStr_keeps_k; decide) | (apply settleAbrupt_keeps_k; decide) | (apply handoverDone_keeps_k; decide)
    | (apply traceStep_keeps_k; decide) | apply Keeps.foldl | intro x a hx

theorem execHandoverRelease_keeps (d : DomainId) (s : State) : KeepsX allButQueue s (execHandoverRelease d s) := by
  unfold execHandoverRelease
  dsimp only
  with_reducible repeat' first
    | apply KeepsX.ite | apply KeepsX.next | apply Keeps.refl | apply Keeps.ite | assumption
    | (apply releaseHold_keeps_k; decide) | (apply domainPegs_keeps_k; decide) | (apply State_count_keeps_k; decide)
    | (apply handoverDone_keeps_k; decide) | (apply traceStep_keeps_k; decide) | apply Keeps.foldl | intro x a hx

theorem execHoldLimitExpiry_keeps (d : DomainId) (s : State) : KeepsX allButQueue s (execHoldLimitExpiry d s) := by
  unfold execHoldLimitExpiry
  dsimp only
  with_reducible repeat' first
    | apply KeepsX.ite | apply KeepsX.next | apply Keeps.refl | apply Keeps.ite | assumption
    | (apply countLog_keeps_k; decide) | (apply domainPegs_keeps_k; decide) | (apply State_setStr_keeps_k; decide)
    | (apply retrain_keeps_k; decide) | (apply harpFails_keeps_k; decide) | (apply requestSpare_keeps_k; decide)
    | (apply State_setDomain_keeps_k; decide) | apply Keeps.foldl | intro x a hx | split

theorem execPegSample_keeps (n : StringId) (line : LineId) (ring : Fin 5) (detuning : Int) (heater : W16) (s : State) :
    KeepsX allButQueue s (execPegSample n line ring detuning heater s) := by
  unfold execPegSample
  dsimp only
  with_reducible repeat' first
    | apply KeepsX.ite | apply KeepsX.next | apply Keeps.refl | apply Keeps.ite | assumption
    | (apply pegAlarm_keeps_k; decide) | (apply setPeg_keeps_k; decide)

theorem execFretCheckDone_keeps (n : StringId) (line : LineId) (ring : Fin 5) (expected : Int) (tones : List Int)
    (s : State) :
    KeepsX allButQueue s (execFretCheckDone n line ring expected tones s) := by
  unfold execFretCheckDone
  dsimp only
  with_reducible repeat' first
    | apply KeepsX.ite | apply KeepsX.next | apply Keeps.refl | apply Keeps.ite | assumption
    | (apply State_setStr_keeps_k; decide) | (apply dropLine_keeps_k; decide) | (apply lineLocked_keeps_k; decide)
    | (apply setPeg_keeps_k; decide) | (apply countLog_keeps_k; decide) | (apply State_count_keeps_k; decide) | split

theorem execCalTurnStart_keeps (n : StringId) (line : LineId) (s : State) :
    KeepsX allButQueue s (execCalTurnStart n line s) := by
  unfold execCalTurnStart
  dsimp only
  with_reducible repeat' first
    | apply KeepsX.ite | apply KeepsX.next | apply Keeps.refl | apply Keeps.ite | assumption
    | (apply State_setStr_keeps_k; decide)

theorem execCalTurnDone_keeps (n : StringId) (first repeated : CalMeas) (s : State) :
    KeepsX allButQueue s (execCalTurnDone n first repeated s) := by
  unfold execCalTurnDone
  dsimp only
  with_reducible repeat' first
    | apply KeepsX.ite | apply KeepsX.next | apply Keeps.refl | apply Keeps.ite | assumption
    | (apply State_setStr_keeps_k; decide) | (apply setPeg_keeps_k; decide) | (apply State_count_keeps_k; decide)
    | (apply countLog_keeps_k; decide) | (apply dropLine_keeps_k; decide) | split

theorem execSoundingDone_keeps (powers : List Int) (s : State) : KeepsX allButQueue s (execSoundingDone powers s) := by
  unfold execSoundingDone
  dsimp only
  with_reducible repeat' first
    | apply KeepsX.ite | apply KeepsX.next | apply Keeps.refl | apply Keeps.ite | assumption
    | (apply State_setObj_keeps_k; decide) | (apply State_count_keeps_k; decide) | (apply startTraining_keeps_k; decide)
    | split | apply Keeps.update

/-! Machine/Deliver -/

theorem execArbiterDecision_keeps (arb : Nat) (cand : List Nat) (s : State) :
    KeepsX allButQueue s (execArbiterDecision arb cand s) := by
  unfold execArbiterDecision
  dsimp only
  with_reducible repeat' first
    | apply KeepsX.ite | apply KeepsX.next | apply Keeps.refl | apply Keeps.ite | assumption
    | (apply State_setArb_keeps_k; decide) | (apply State_count_keeps_k; decide) | (apply State_emit_keeps_k; decide)
    | (apply beagleGrant_keeps_k; decide) | (apply inboundGrant_keeps_k; decide) | split

theorem execWriteFrame_keeps (n : StringId) (f : Frame) (s : State) : KeepsX allButQueue s (execWriteFrame n f s) := by
  unfold execWriteFrame
  with_reducible repeat' first
    | apply KeepsX.next | apply Keeps.refl | assumption | (apply writeHere_keeps_k; decide)
    | (apply deliverFrame_keeps_k; decide) | intro x hx

theorem execRpart_keeps (n : StringId) (f : Frame) (s : State) : KeepsX allButQueue s (execRpart n f s) := by
  unfold execRpart
  with_reducible repeat' first
    | apply KeepsX.next | apply Keeps.refl | assumption | (apply rpartHere_keeps_k; decide)
    | (apply deliverFrame_keeps_k; decide) | intro x hx

theorem execReadReq_keeps (n : StringId) (f : Frame) (s : State) : KeepsX allButQueue s (execReadReq n f s) := by
  unfold execReadReq
  with_reducible repeat' first
    | apply KeepsX.next | apply Keeps.refl | assumption | (apply readHere_keeps_k; decide)
    | (apply deliverFrame_keeps_k; decide) | intro x hx

theorem execReadDataFrame_keeps (n : StringId) (f : Frame) (s : State) : KeepsX allButQueue s (execReadDataFrame n f s) := by
  unfold execReadDataFrame
  with_reducible repeat' first
    | apply KeepsX.next | apply Keeps.refl | assumption | (apply dataHere_keeps_k; decide)
    | (apply deliverFrame_keeps_k; decide) | intro x hx

theorem execStatusFrame_keeps (n : StringId) (f : Frame) (s : State) : KeepsX allButQueue s (execStatusFrame n f s) := by
  unfold execStatusFrame
  with_reducible repeat' first
    | apply KeepsX.next | apply Keeps.refl | assumption | (apply statusHere_keeps_k; decide)
    | (apply deliverFrame_keeps_k; decide) | intro x hx

theorem execFlagFrame_keeps (n : StringId) (f : Frame) (s : State) : KeepsX allButQueue s (execFlagFrame n f s) := by
  unfold execFlagFrame
  with_reducible repeat' first
    | apply KeepsX.next | apply Keeps.refl | assumption | (apply flagHere_keeps_k; decide)
    | (apply deliverFrame_keeps_k; decide) | intro x hx

theorem execBarrierFrame_keeps (n : StringId) (f : Frame) (s : State) : KeepsX allButQueue s (execBarrierFrame n f s) := by
  unfold execBarrierFrame
  with_reducible repeat' first
    | apply KeepsX.next | apply Keeps.refl | assumption | (apply barrierHere_keeps_k; decide)
    | (apply deliverFrame_keeps_k; decide) | intro x hx

theorem execLaunchFrame_keeps (n : StringId) (f : Frame) (s : State) : KeepsX allButQueue s (execLaunchFrame n f s) := by
  unfold execLaunchFrame
  with_reducible repeat' first
    | apply KeepsX.next | apply Keeps.refl | assumption | (apply launchHere_keeps_k; decide)
    | (apply deliverFrame_keeps_k; decide) | intro x hx

/-! Machine/Dictionary -/

theorem execRead_keeps (t : ReadTarget) (s : State) : KeepsX allButQueue s (execRead t s) := by
  unfold execRead
  with_reducible repeat' first
    | apply KeepsX.next | apply Keeps.refl | assumption | (apply dictRead_keeps_k; decide) | (apply cvuRead_keeps_k; decide)
    | (apply dictAdmit_keeps_k; decide) | split | intro x hx

theorem execSubscribe_keeps (hdr : DictHdr) (index : W16) (sub : Byte) (mode : Byte) (period : W16) (id : W16) (s : State) :
    KeepsX allButQueue s (execSubscribe hdr index sub mode period id s) := by
  unfold execSubscribe
  with_reducible repeat' first
    | apply KeepsX.next | apply Keeps.refl | assumption | (apply dictSubscribe_keeps_k; decide)
    | (apply dictAdmit_keeps_k; decide) | intro x hx

theorem execNotify_keeps (client : W32) (id : W16) (s : State) : KeepsX allButQueue s (execNotify client id s) := by
  unfold execNotify
  dsimp only
  with_reducible repeat' first
    | apply KeepsX.ite | apply KeepsX.next | apply KeepsX.fault | apply Keeps.refl | apply Keeps.ite | assumption
    | (apply State_drawn_keeps_k; decide) | (apply ctlEmit_keeps_k; decide) | split | apply Keeps.update

/-! Machine/Writes -/

theorem execStage_keeps (index : W16) (sub : Byte) (w : WReq) (s : State) : KeepsX allButQueue s
    (execStage index sub w s) := by
  unfold execStage
  with_reducible repeat' first
    | apply KeepsX.next | apply Keeps.refl | assumption | (apply dictStage_keeps_k; decide)
    | (apply dictAdmit_keeps_k; decide) | intro x hx

theorem execCommit_keeps (hdr : DictHdr) (count : W32) (digest : W32) (s : State) :
    KeepsX allButQueue s (execCommit hdr count digest s) := by
  unfold execCommit
  with_reducible repeat' first
    | apply KeepsX.next | apply Keeps.refl | assumption | (apply dictCommit_keeps_k; decide)
    | (apply dictAdmit_keeps_k; decide) | intro x hx

theorem execRegisterWrite_keeps (t : WriteTarget) (s : State) : KeepsX allButQueue s (execRegisterWrite t s) := by
  unfold execRegisterWrite
  with_reducible repeat' first
    | apply KeepsX.next | apply Keeps.refl | assumption | (apply calibrationWrite_keeps_k; decide)
    | (apply writeMessage_keeps_k; decide) | (apply cvuWrite_keeps_k; decide) | split

theorem execIsolationClear_keeps (w : WReq) (s : State) : KeepsX allButQueue s (execIsolationClear w s) :=
  KeepsX.next (writeMessage_keeps_k (by decide) (Keeps.refl _ s))

theorem execMcClockMhz_keeps (w : WReq) (s : State) : KeepsX allButQueue s (execMcClockMhz w s) :=
  KeepsX.next (writeMessage_keeps_k (by decide) (Keeps.refl _ s))

theorem execBallastEnable_keeps (w : WReq) (s : State) : KeepsX allButQueue s (execBallastEnable w s) :=
  KeepsX.next (writeMessage_keeps_k (by decide) (Keeps.refl _ s))

theorem execArbCommit_keeps (w : WReq) (s : State) : KeepsX allButQueue s (execArbCommit w s) :=
  KeepsX.next (writeMessage_keeps_k (by decide) (Keeps.refl _ s))

theorem execMarginTestRequest_keeps (w : WReq) (s : State) : KeepsX allButQueue s (execMarginTestRequest w s) :=
  KeepsX.next (writeMessage_keeps_k (by decide) (Keeps.refl _ s))

theorem execTileReset_keeps (w : WReq) (s : State) : KeepsX allButQueue s (execTileReset w s) :=
  KeepsX.next (writeMessage_keeps_k (by decide) (Keeps.refl _ s))

theorem execHarpRemovalRequest_keeps (w : WReq) (s : State) : KeepsX allButQueue s (execHarpRemovalRequest w s) :=
  KeepsX.next (writeMessage_keeps_k (by decide) (Keeps.refl _ s))

theorem execHandoverManual_keeps (w : WReq) (s : State) : KeepsX allButQueue s (execHandoverManual w s) :=
  KeepsX.next (writeMessage_keeps_k (by decide) (Keeps.refl _ s))

theorem execSoundingStart_keeps (w : WReq) (s : State) : KeepsX allButQueue s (execSoundingStart w s) :=
  KeepsX.next (writeMessage_keeps_k (by decide) (Keeps.refl _ s))

theorem execRouteSetStaged_keeps (w : WReq) (s : State) : KeepsX allButQueue s (execRouteSetStaged w s) :=
  KeepsX.next (writeMessage_keeps_k (by decide) (Keeps.refl _ s))

theorem execRouteActivateBeat_keeps (w : WReq) (s : State) : KeepsX allButQueue s (execRouteActivateBeat w s) :=
  KeepsX.next (writeMessage_keeps_k (by decide) (Keeps.refl _ s))

theorem execFiApply_keeps (w : WReq) (s : State) : KeepsX allButQueue s (execFiApply w s) :=
  KeepsX.next (writeMessage_keeps_k (by decide) (Keeps.refl _ s))

theorem execRetrieverEnable_keeps (w : WReq) (s : State) : KeepsX allButQueue s (execRetrieverEnable w s) :=
  KeepsX.next (writeMessage_keeps_k (by decide) (Keeps.refl _ s))

theorem execStoreSel_keeps (w : WReq) (s : State) : KeepsX allButQueue s (execStoreSel w s) :=
  KeepsX.next (writeMessage_keeps_k (by decide) (Keeps.refl _ s))

theorem execBeatSecondsSet_keeps (w : WReq) (s : State) : KeepsX allButQueue s (execBeatSecondsSet w s) :=
  KeepsX.next (writeMessage_keeps_k (by decide) (Keeps.refl _ s))

theorem execSyncReferenceNode_keeps (w : WReq) (s : State) : KeepsX allButQueue s (execSyncReferenceNode w s) :=
  KeepsX.next (writeMessage_keeps_k (by decide) (Keeps.refl _ s))

theorem execStageDiscard_keeps (w : WReq) (s : State) : KeepsX allButQueue s (execStageDiscard w s) :=
  KeepsX.next (writeMessage_keeps_k (by decide) (Keeps.refl _ s))

theorem execConfigRestore_keeps (w : WReq) (s : State) : KeepsX allButQueue s (execConfigRestore w s) :=
  KeepsX.next (writeMessage_keeps_k (by decide) (Keeps.refl _ s))

theorem execPowerOnRequest_keeps (w : WReq) (s : State) : KeepsX allButQueue s (execPowerOnRequest w s) :=
  KeepsX.next (writeMessage_keeps_k (by decide) (Keeps.refl _ s))

theorem execServeEnable_keeps (w : WReq) (s : State) : KeepsX allButQueue s (execServeEnable w s) :=
  KeepsX.next (writeMessage_keeps_k (by decide) (Keeps.refl _ s))

theorem execDrainRequest_keeps (w : WReq) (s : State) : KeepsX allButQueue s (execDrainRequest w s) :=
  KeepsX.next (writeMessage_keeps_k (by decide) (Keeps.refl _ s))

theorem execRestartRequest_keeps (w : WReq) (s : State) : KeepsX allButQueue s (execRestartRequest w s) :=
  KeepsX.next (writeMessage_keeps_k (by decide) (Keeps.refl _ s))

theorem execTakeoverDrill_keeps (w : WReq) (s : State) : KeepsX allButQueue s (execTakeoverDrill w s) :=
  KeepsX.next (writeMessage_keeps_k (by decide) (Keeps.refl _ s))

theorem execEnsResume_keeps (w : WReq) (s : State) : KeepsX allButQueue s (execEnsResume w s) :=
  KeepsX.next (writeMessage_keeps_k (by decide) (Keeps.refl _ s))

theorem execEnsDissolve_keeps (w : WReq) (s : State) : KeepsX allButQueue s (execEnsDissolve w s) :=
  KeepsX.next (writeMessage_keeps_k (by decide) (Keeps.refl _ s))

theorem execThermalShutdownClear_keeps (w : WReq) (s : State) : KeepsX allButQueue s (execThermalShutdownClear w s) :=
  KeepsX.next (writeMessage_keeps_k (by decide) (Keeps.refl _ s))

theorem execKatRequest_keeps (w : WReq) (s : State) : KeepsX allButQueue s (execKatRequest w s) :=
  KeepsX.next (writeMessage_keeps_k (by decide) (Keeps.refl _ s))

theorem execTestModePermit_keeps (w : WReq) (s : State) : KeepsX allButQueue s (execTestModePermit w s) :=
  KeepsX.next (writeMessage_keeps_k (by decide) (Keeps.refl _ s))

theorem execTestModeUnlock_keeps (w : WReq) (s : State) : KeepsX allButQueue s (execTestModeUnlock w s) :=
  KeepsX.next (writeMessage_keeps_k (by decide) (Keeps.refl _ s))

theorem execTestModeLock_keeps (w : WReq) (s : State) : KeepsX allButQueue s (execTestModeLock w s) :=
  KeepsX.next (writeMessage_keeps_k (by decide) (Keeps.refl _ s))

theorem execSfiApply_keeps (w : WReq) (s : State) : KeepsX allButQueue s (execSfiApply w s) :=
  KeepsX.next (writeMessage_keeps_k (by decide) (Keeps.refl _ s))

theorem execFiStopAll_keeps (w : WReq) (s : State) : KeepsX allButQueue s (execFiStopAll w s) :=
  KeepsX.next (writeMessage_keeps_k (by decide) (Keeps.refl _ s))

theorem execBeagleEnable_keeps (w : WReq) (s : State) : KeepsX allButQueue s (execBeagleEnable w s) :=
  KeepsX.next (writeMessage_keeps_k (by decide) (Keeps.refl _ s))

theorem execBeagleClear_keeps (w : WReq) (s : State) : KeepsX allButQueue s (execBeagleClear w s) :=
  KeepsX.next (writeMessage_keeps_k (by decide) (Keeps.refl _ s))

theorem execLogSel_keeps (w : WReq) (s : State) : KeepsX allButQueue s (execLogSel w s) :=
  KeepsX.next (writeMessage_keeps_k (by decide) (Keeps.refl _ s))

theorem execLogClear_keeps (w : WReq) (s : State) : KeepsX allButQueue s (execLogClear w s) :=
  KeepsX.next (writeMessage_keeps_k (by decide) (Keeps.refl _ s))

theorem execSlotLoad_keeps (slot : SlotId) (w : WReq) (s : State) : KeepsX allButQueue s (execSlotLoad slot w s) :=
  KeepsX.next (writeMessage_keeps_k (by decide) (Keeps.refl _ s))

theorem execSlotUnloadDrain_keeps (slot : SlotId) (w : WReq) (s : State) :
    KeepsX allButQueue s (execSlotUnloadDrain slot w s) :=
  KeepsX.next (writeMessage_keeps_k (by decide) (Keeps.refl _ s))

theorem execSlotUnloadForce_keeps (slot : SlotId) (w : WReq) (s : State) :
    KeepsX allButQueue s (execSlotUnloadForce slot w s) :=
  KeepsX.next (writeMessage_keeps_k (by decide) (Keeps.refl _ s))

theorem execImageUpload_keeps (w : WReq) (image : Option Image) (s : State) :
    KeepsX allButQueue s (execImageUpload w image s) :=
  KeepsX.next (writeMessage_keeps_k (by decide) (Keeps.refl _ s))

theorem execImageTrustKey_keeps (k : Fin 4) (w : WReq) (s : State) : KeepsX allButQueue s (execImageTrustKey k w s) :=
  KeepsX.next (writeMessage_keeps_k (by decide) (Keeps.refl _ s))

theorem execTenantKey_keeps (t : BitVec 12) (w : WReq) (s : State) : KeepsX allButQueue s (execTenantKey t w s) :=
  KeepsX.next (writeMessage_keeps_k (by decide) (Keeps.refl _ s))

theorem execControllerRestore_keeps (w : WReq) (pass : Bool) (s : State) :
    KeepsX allButQueue s (execControllerRestore w pass s) :=
  KeepsX.next (writeMessage_keeps_k (by decide) (Keeps.refl _ s))
/-! The dispatch of commands and the step. -/

/-- No command reaches the queue, and none leaves the canonical form of memory or the states of R286. -/
theorem exec_keeps (c : Instr) (s : State) : KeepsX allButQueue s (exec c s) :=
  match c with
  | .isolationClear w => execIsolationClear_keeps w s
  | .windowSelect item variant => execWindowSelect_keeps item variant s
  | .slotCutoff win => execSlotCutoff_keeps win s
  | .windowLaunch win => execWindowLaunch_keeps win s
  | .noOperation iss => execNoOperation_keeps iss s
  | .mark iss => execMark_keeps iss s
  | .panel iss desc row adv => execPanel_keeps iss desc row adv s
  | .rows iss desc row count adv => execRows_keeps iss desc row count adv s
  | .vload iss desc row vd adv => execVload_keeps iss desc row vd adv s
  | .astore iss desc bank row count m adv => execAstore_keeps iss desc bank row count m adv s
  | .vstore iss desc v m adv => execVstore_keeps iss desc v m adv s
  | .mma iss fa fb bank row count swap => execMma_keeps iss fa fb bank row count swap s
  | .mmz iss fa fb bank row count swap => execMmz_keeps iss fa fb bank row count swap s
  | .aclr iss fa fb bank row rows => execAclr_keeps iss fa fb bank row rows s
  | .vnop iss => execVnop_keeps iss s
  | .vadd iss vd va vb => execVadd_keeps iss vd va vb s
  | .vsub iss vd va vb => execVsub_keeps iss vd va vb s
  | .vmul iss vd va vb => execVmul_keeps iss vd va vb s
  | .vfma iss vd va vb vc => execVfma_keeps iss vd va vb vc s
  | .vmax iss vd va vb => execVmax_keeps iss vd va vb s
  | .vmin iss vd va vb => execVmin_keeps iss vd va vb s
  | .vexp2 iss vd va => execVexp2_keeps iss vd va s
  | .vlog2 iss vd va => execVlog2_keeps iss vd va s
  | .vrcp iss vd va => execVrcp_keeps iss vd va s
  | .vrsqrt iss vd va => execVrsqrt_keeps iss vd va s
  | .vrsum iss vd va => execVrsum_keeps iss vd va s
  | .vrmax iss vd va => execVrmax_keeps iss vd va s
  | .vbcast iss vd va imm => execVbcast_keeps iss vd va imm s
  | .vsel iss vd va vb vc => execVsel_keeps iss vd va vb vc s
  | .vcvt iss vd va vc fmt m => execVcvt_keeps iss vd va vc fmt m s
  | .acc2v iss vd imm => execAcc2v_keeps iss vd imm s
  | .viadd iss vd va vb => execViadd_keeps iss vd va vb s
  | .vcvti iss vd va => execVcvti_keeps iss vd va s
  | .vcvtf iss vd va => execVcvtf_keeps iss vd va s
  | .vl8mul iss vd va vb => execVl8mul_keeps iss vd va vb s
  | .vl8enc iss vd va => execVl8enc_keeps iss vd va s
  | .vl8dec iss vd va => execVl8dec_keeps iss vd va s
  | .send iss entry fromDesc reg frames adv => execSend_keeps iss entry fromDesc reg frames adv s
  | .rsend iss entry fromDesc reg frames adv => execRsend_keeps iss entry fromDesc reg frames adv s
  | .barrier iss bar offset => execBarrier_keeps iss bar offset s
  | .barrierCheck core bar => execBarrierCheck_keeps core bar s
  | .flagSet iss entry flag value => execFlagSet_keeps iss entry flag value s
  | .flagCheck iss flag value => execFlagCheck_keeps iss flag value s
  | .beatWait iss offset => execBeatWait_keeps iss offset s
  | .beatWaitEnd die => execBeatWaitEnd_keeps die s
  | .loop iss dist iters => execLoop_keeps iss dist iters s
  | .kernelEnd iss => execKernelEnd_keeps iss s
  | .drainEnd core => execDrainEnd_keeps core s
  | .endNotice core => execEndNotice_keeps core s
  | .declaredTicksExpiry core => execDeclaredTicksExpiry_keeps core s
  | .lwWatchdogExpiry win => execLwWatchdogExpiry_keeps win s
  | .workItemRerun item => execWorkItemRerun_keeps item s
  | .governorInterval die ends => execGovernorInterval_keeps die ends s
  | .mcClockMhz w => execMcClockMhz_keeps w s
  | .ballastEnable w => execBallastEnable_keeps w s
  | .stepInstantiate slot => execStepInstantiate_keeps slot s
  | .workItemTake item taker victim => execWorkItemTake_keeps item taker victim s
  | .workItemComplete item => execWorkItemComplete_keeps item s
  | .stealAttempt thief => execStealAttempt_keeps thief s
  | .stealBackoffExpiry thief => execStealBackoffExpiry_keeps thief s
  | .tokenizer whip session req => execTokenizer_keeps whip session req s
  | .sampler whip ctx => execSampler_keeps whip ctx s
  | .draftExecutor whip ctx level => execDraftExecutor_keeps whip ctx level s
  | .treeBuilder whip ctx => execTreeBuilder_keeps whip ctx s
  | .detokenizer whip ctx => execDetokenizer_keeps whip ctx s
  | .prefixHasher whip session req => execPrefixHasher_keeps whip session req s
  | .housekeeping whip => execHousekeeping_keeps whip s
  | .arbiterDecision arb cand => execArbiterDecision_keeps arb cand s
  | .arbCommit w => execArbCommit_keeps w s
  | .scrubPass die words => execScrubPass_keeps die words s
  | .cacheAccess die home store len => execCacheAccess_keeps die home store len s
  | .pageFillDone die page => execPageFillDone_keeps die page s
  | .kvOwnerMove page dst => execKvOwnerMove_keeps page dst s
  | .dieReset die => execDieReset_keeps die s
  | .dieResetEnd die xing => execDieResetEnd_keeps die xing s
  | .frameTime n => execFrameTime_keeps n s
  | .writeFrame n f => execWriteFrame_keeps n f s
  | .sendWindowFlush rim win => execSendWindowFlush_keeps rim win s
  | .rpart n f => execRpart_keeps n f s
  | .readReq n f => execReadReq_keeps n f s
  | .readDataFrame n f => execReadDataFrame_keeps n f s
  | .flagFrame n f => execFlagFrame_keeps n f s
  | .barrierFrame n f => execBarrierFrame_keeps n f s
  | .statusFrame n f => execStatusFrame_keeps n f s
  | .launchFrame n f => execLaunchFrame_keeps n f s
  | .idleFrame n f => execIdleFrame_keeps n f s
  | .bcast n tap f => execBcast_keeps n tap f s
  | .bcastSend n kind => execBcastSend_keeps n kind s
  | .trainOffer n f => execTrainOffer_keeps n f s
  | .trainAccept n f => execTrainAccept_keeps n f s
  | .laneMap n f => execLaneMap_keeps n f s
  | .laneMapEffect n => execLaneMapEffect_keeps n s
  | .relayCredits n f => execRelayCredits_keeps n f s
  | .echo n f => execEcho_keeps n f s
  | .ackTimeout n => execAckTimeout_keeps n s
  | .lossOfLock n => execLossOfLock_keeps n s
  | .laneCheckDone n lanes => execLaneCheckDone_keeps n lanes s
  | .frozenTimeout n => execFrozenTimeout_keeps n s
  | .laneRecheck n lanes => execLaneRecheck_keeps n lanes s
  | .marginEstimate n line rx => execMarginEstimate_keeps n line rx s
  | .marginTest => execMarginTest_keeps s
  | .marginTestDone lanes => execMarginTestDone_keeps lanes s
  | .marginTestRequest w => execMarginTestRequest_keeps w s
  | .tileReset w => execTileReset_keeps w s
  | .tileResetDrained site => execTileResetDrained_keeps site s
  | .tileWatchdog site => execTileWatchdog_keeps site s
  | .harpInsert slot serial hours => execHarpInsert_keeps slot serial hours s
  | .harpTestDone slot lines => execHarpTestDone_keeps slot lines s
  | .harpRemovalRequest w => execHarpRemovalRequest_keeps w s
  | .cartridgeRemoved slot => execCartridgeRemoved_keeps slot s
  | .pegSample n line ring detuning heater => execPegSample_keeps n line ring detuning heater s
  | .fretCheckDone n line ring expected tones => execFretCheckDone_keeps n line ring expected tones s
  | .harpMonitorSample slot power => execHarpMonitorSample_keeps slot power s
  | .handoverManual w => execHandoverManual_keeps w s
  | .spareReady slot lines => execSpareReady_keeps slot lines s
  | .creditHoldStart d => execCreditHoldStart_keeps d s
  | .selectorSwitch d => execSelectorSwitch_keeps d s
  | .handoverRelease d => execHandoverRelease_keeps d s
  | .holdLimitExpiry d => execHoldLimitExpiry_keeps d s
  | .fadeFit d => execFadeFit_keeps d s
  | .calTurnStart n line => execCalTurnStart_keeps n line s
  | .calTurnDone n first repeated => execCalTurnDone_keeps n first repeated s
  | .soundingStart w => execSoundingStart_keeps w s
  | .soundingDone powers => execSoundingDone_keeps powers s
  | .dramTrainingDone k channels full => execDramTrainingDone_keeps k channels full s
  | .dramRecenter k channel => execDramRecenter_keeps k channel s
  | .refresh k => execRefresh_keeps k s
  | .dramScrub k unit err => execDramScrub_keeps k unit err s
  | .imageDataReloadDone slot => execImageDataReloadDone_keeps slot s
  | .portPhyLock p => execPortPhyLock_keeps p s
  | .fabricTrainOffer p r => execFabricTrainOffer_keeps p r s
  | .fabricTrainAccept p r => execFabricTrainAccept_keeps p r s
  | .portTrainRetry p => execPortTrainRetry_keeps p s
  | .fabricEcho p beat own => execFabricEcho_keeps p beat own s
  | .dataBlock p ctl flits => execDataBlock_keeps p ctl flits s
  | .blockTime p => execBlockTime_keeps p s
  | .linkRetryTimeout p => execLinkRetryTimeout_keeps p s
  | .portDown p => execPortDown_keeps p s
  | .packetRoute p pkt => execPacketRoute_keeps p pkt s
  | .load p pkt => execLoad_keeps p pkt s
  | .get p pkt => execGet_keeps p pkt s
  | .atomic p pkt => execAtomic_keeps p pkt s
  | .fabricFlag p pkt => execFabricFlag_keeps p pkt s
  | .fabricBarrier p pkt => execFabricBarrier_keeps p pkt s
  | .store p pkt => execStore_keeps p pkt s
  | .put p pkt => execPut_keeps p pkt s
  | .mcastPut p pkt => execMcastPut_keeps p pkt s
  | .cpart p pkt => execCpart_keeps p pkt s
  | .collTimeout rim slot => execCollTimeout_keeps rim slot s
  | .loadData pkt => execLoadData_keeps pkt s
  | .getData pkt => execGetData_keeps pkt s
  | .atomicData pkt => execAtomicData_keeps pkt s
  | .ack pkt => execAck_keeps pkt s
  | .status pkt => execStatus_keeps pkt s
  | .rateIncreaseTick => execRateIncreaseTick_keeps s
  | .routeSetStaged w => execRouteSetStaged_keeps w s
  | .routeActivateBeat w => execRouteActivateBeat_keeps w s
  | .routeActivation => execRouteActivation_keeps s
  | .drainRound => execDrainRound_keeps s
  | .routeQuery p pkt => execRouteQuery_keeps p pkt s
  | .routeReport pkt => execRouteReport_keeps pkt s
  | .routeRelease p pkt => execRouteRelease_keeps p pkt s
  | .silentMemberExpiry node => execSilentMemberExpiry_keeps node s
  | .coordinatorTakeover => execCoordinatorTakeover_keeps s
  | .activationMissed node => execActivationMissed_keeps node s
  | .fiApply w => execFiApply_keeps w s
  | .commandRecord queue r => execCommandRecord_keeps queue r s
  | .rmemTimeout tag => execRmemTimeout_keeps tag s
  | .unreachableHoldExpiry node => execUnreachableHoldExpiry_keeps node s
  | .tagQuarantineExpiry tag => execTagQuarantineExpiry_keeps tag s
  | .windowTableEffect => execWindowTableEffect_keeps s
  | .retrieverEnable w => execRetrieverEnable_keeps w s
  | .retrieverOpen m => execRetrieverOpen_keeps m s
  | .retrieverAccept m => execRetrieverAccept_keeps m s
  | .retrieverRead m => execRetrieverRead_keeps m s
  | .retrieverReadData m => execRetrieverReadData_keeps m s
  | .flush m => execFlush_keeps m s
  | .flushAck m => execFlushAck_keeps m s
  | .retrieverIdle m => execRetrieverIdle_keeps m s
  | .retrieverResend q => execRetrieverResend_keeps q s
  | .retrieverSessionTimeout q => execRetrieverSessionTimeout_keeps q s
  | .coalesceExpiry slice buf => execCoalesceExpiry_keeps slice buf s
  | .storeAgeExpiry slice buf => execStoreAgeExpiry_keeps slice buf s
  | .ipv4Frame port => execIpv4Frame_keeps port s
  | .icmpv6Message port type data => execIcmpv6Message_keeps port type data s
  | .openSession d => execOpenSession_keeps d s
  | .request d => execRequest_keeps d s
  | .prompt d => execPrompt_keeps d s
  | .cancel d => execCancel_keeps d s
  | .serveAck d => execServeAck_keeps d s
  | .close d => execClose_keeps d s
  | .reservedKind d => execReservedKind_keeps d s
  | .serveResend session => execServeResend_keeps session s
  | .ackDue session => execAckDue_keeps session s
  | .sessionTimeout session => execSessionTimeout_keeps session s
  | .promptTimeout session req => execPromptTimeout_keeps session req s
  | .prefillComplete ctx ns => execPrefillComplete_keeps ctx ns s
  | .deadlineExpiry ctx => execDeadlineExpiry_keeps ctx s
  | .slotLoad slot w => execSlotLoad_keeps slot w s
  | .slotLoadDone slot => execSlotLoadDone_keeps slot s
  | .slotUnloadDrain slot w => execSlotUnloadDrain_keeps slot w s
  | .slotUnloadForce slot w => execSlotUnloadForce_keeps slot w s
  | .slotDrained slot => execSlotDrained_keeps slot s
  | .imageUpload w image => execImageUpload_keeps w image s
  | .imageTrustKey k w => execImageTrustKey_keeps k w s
  | .tenantKey t w => execTenantKey_keeps t w s
  | .storeSel w => execStoreSel_keeps w s
  | .ppsEdge interval ppb phase => execPpsEdge_keeps interval ppb phase s
  | .refClockLoss => execRefClockLoss_keeps s
  | .ptpSync offset tai utc master => execPtpSync_keeps offset tai utc master s
  | .ptpLoss => execPtpLoss_keeps s
  | .fabricSyncLoss => execFabricSyncLoss_keeps s
  | .sourceRevalid src => execSourceRevalid_keeps src s
  | .timeLock => execTimeLock_keeps s
  | .beatSync p r t4 => execBeatSync_keeps p r t4 s
  | .beatSyncSend p => execBeatSyncSend_keeps p s
  | .beatSecondsSet w => execBeatSecondsSet_keeps w s
  | .syncReferenceNode w => execSyncReferenceNode_keeps w s
  | .droopTrip site edges => execDroopTrip_keeps site edges s
  | .freqStep die xing => execFreqStep_keeps die xing s
  | .read t => execRead_keeps t s
  | .registerWrite t => execRegisterWrite_keeps t s
  | .stage index sub w => execStage_keeps index sub w s
  | .commit hdr count digest => execCommit_keeps hdr count digest s
  | .subscribe hdr index sub mode period id => execSubscribe_keeps hdr index sub mode period id s
  | .notify client id => execNotify_keeps client id s
  | .stageIdleTimeout => execStageIdleTimeout_keeps s
  | .stageDiscard w => execStageDiscard_keeps w s
  | .configRestore w => execConfigRestore_keeps w s
  | .powerOnRequest w => execPowerOnRequest_keeps w s
  | .serveEnable w => execServeEnable_keeps w s
  | .drainRequest w => execDrainRequest_keeps w s
  | .drainingDone => execDrainingDone_keeps s
  | .restartRequest w => execRestartRequest_keeps w s
  | .bootStart nor0 nor1 pass0 pass1 copy0 copy1 fails => execBootStart_keeps nor0 nor1 pass0 pass1 copy0 copy1 fails s
  | .bootComplete elapsedMs => execBootComplete_keeps elapsedMs s
  | .controlCycle input agree => execControlCycle_keeps input agree s
  | .controllerKatDone active standby => execControllerKatDone_keeps active standby s
  | .tandemLoss => execTandemLoss_keeps s
  | .cycleWatchdog => execCycleWatchdog_keeps s
  | .controllerRestore w pass => execControllerRestore_keeps w pass s
  | .takeoverDrill w => execTakeoverDrill_keeps w s
  | .drillAuto => execDrillAuto_keeps s
  | .drillTakeoverTimeout => execDrillTakeoverTimeout_keeps s
  | .ensRecord key r => execEnsRecord_keeps key r s
  | .rollCall => execRollCall_keeps s
  | .ensembleStart => execEnsembleStart_keeps s
  | .heartbeat => execHeartbeat_keeps s
  | .heartbeatMissing node => execHeartbeatMissing_keeps node s
  | .ensResume w => execEnsResume_keeps w s
  | .ensDissolve w => execEnsDissolve_keeps w s
  | .tallySend => execTallySend_keeps s
  | .tally m => execTally_keeps m s
  | .tallyAck seq => execTallyAck_keeps seq s
  | .tallyResend => execTallyResend_keeps s
  | .timeSend => execTimeSend_keeps s
  | .time utc => execTime_keeps utc s
  | .intervalClose energyUwh => execIntervalClose_keeps energyUwh s
  | .podPowerLoss energyUwh => execPodPowerLoss_keeps energyUwh s
  | .podPowerUp clockNow => execPodPowerUp_keeps clockNow s
  | .coverOpen => execCoverOpen_keeps s
  | .coverClose => execCoverClose_keeps s
  | .calRunCalibrate => execCalRunCalibrate_keeps s
  | .calRunDone ref temp first repeated => execCalRunDone_keeps ref temp first repeated s
  | .calRunVerify => execCalRunVerify_keeps s
  | .verifyDone ref temp first repeated => execVerifyDone_keeps ref temp first repeated s
  | .podFirmwareReplace version digest => execPodFirmwareReplace_keeps version digest s
  | .podSelfCheck => execPodSelfCheck_keeps s
  | .inputInRange mv => execInputInRange_keeps mv s
  | .overVoltage mv => execOverVoltage_keeps mv s
  | .inputHigh mv => execInputHigh_keeps mv s
  | .brownOut mv => execBrownOut_keeps mv s
  | .inputLoss mv => execInputLoss_keeps mv s
  | .rideThrough mv => execRideThrough_keeps mv s
  | .holdupExpiry => execHoldupExpiry_keeps s
  | .currentLimitExpiry => execCurrentLimitExpiry_keeps s
  | .thermalSample site die reading model => execThermalSample_keeps site die reading model s
  | .ceilingStep die => execCeilingStep_keeps die s
  | .thermalShutdownClear w => execThermalShutdownClear_keeps w s
  | .partitionReloadDone die => execPartitionReloadDone_keeps die s
  | .data8 u v => execData8_keeps u v s
  | .data16 u v => execData16_keeps u v s
  | .data32 u v => execData32_keeps u v s
  | .ctrl u v => execCtrl_keeps u v s
  | .cvuStart u v => execCvuStart_keeps u v s
  | .value u v => execValue_keeps u v s
  | .owner n agent v => execOwner_keeps n agent v s
  | .katPeriodic unit => execKatPeriodic_keeps unit s
  | .katRequest w => execKatRequest_keeps w s
  | .matrixCoreKat c => execMatrixCoreKat_keeps c s
  | .matrixCoreKatDone c pass => execMatrixCoreKatDone_keeps c pass s
  | .whippetKat w => execWhippetKat_keeps w s
  | .whippetKatDone w pass => execWhippetKatDone_keeps w pass s
  | .testModePermit w => execTestModePermit_keeps w s
  | .testModeUnlock w => execTestModeUnlock_keeps w s
  | .testModeLock w => execTestModeLock_keeps w s
  | .testModeExpiry => execTestModeExpiry_keeps s
  | .sfiApply w => execSfiApply_keeps w s
  | .fiStopAll w => execFiStopAll_keeps w s
  | .traceRecord site unit kind payload => execTraceRecord_keeps site unit kind payload s
  | .beagleEnable w => execBeagleEnable_keeps w s
  | .beagleClear w => execBeagleClear_keeps w s
  | .logSuppressSummary => execLogSuppressSummary_keeps s
  | .logSel w => execLogSel_keeps w s
  | .logClear w => execLogClear_keeps w s
  | .tileResetDone site => execTileResetDone_keeps site s
  | .servingPortLinkChange port up => execServingPortLinkChange_keeps port up s
  | .inputThresholdClear mv => execInputThresholdClear_keeps mv s
  | .uartIdleResync => execUartIdleResync_keeps s
  | .supercapacitorExhausted => execSupercapacitorExhausted_keeps s
  | .coinCellExhausted => execCoinCellExhausted_keeps s

/-- A command is run on the state without it, and an empty queue lets one beat pass: either keeps the state legal. -/
theorem step_legal {s t : State} (h : s.Legal) (e : step s = .next t) : t.Legal := by
  obtain ⟨hd, hm⟩ := h
  unfold step at e
  split at e
  · cases e
    exact ⟨(tick_keeps s).devOk hd, (tick_keeps s).memOk hm⟩
  · next c rest _ =>
    have k := exec_keeps c { s with pending := rest } t e
    exact ⟨k.devOk hd, k.memOk hm⟩

/-- Settles O5, by what every command and every beat keep. -/
theorem stepsStayLegal : Obligations.StepsStayLegal := fun _ _ h e => step_legal h e

/-- Settles O6: the queue is no field that any command reaches. -/
theorem commandsLeaveTheQueue : Obligations.CommandsLeaveTheQueue := fun c s t e => (exec_keeps c s t e).pending rfl

end Sys2Proof.Machine
end

section
/-! PROOFS. The step, the empty queue, the state at reset (O1 to O4) and the trit bytes of a row record (O10). -/

namespace Sys2Proof.Machine

/-- Settles O1: a step matches on the queue. -/
theorem stepRunsFront : Obligations.StepRunsFront := by
  intro c rest s h
  simp only [step, h]

/-- Settles O4: memory is empty and the module Off. -/
theorem resetIsLegal : Obligations.ResetIsLegal := ⟨Nat.zero_le _, Memory.wf_nil⟩

/-- At reset only the two digests of the map have a value that differs from their default. -/
theorem reset_obj {k : Nat} (h : k ≠ Obj.mapDigest) (h' : k ≠ Obj.fusedWhippetDigest) : State.reset.obj k = objDefault k := by
  have e : tfind k State.reset.od = none := by
    simp only [State.reset, tfind]
    rw [if_neg (show k ≠ 0x101006 from h), if_neg (show k ≠ 0x101008 from h')]
  simp only [State.obj, e]

/-- Settles O3, field by field of the state at reset. -/
theorem resetState : Obligations.ResetState :=
  ⟨⟨rfl, rfl, rfl⟩, fun _ => rfl, fun _ => reset_obj⟩

/-! One nanosecond (O2). -/

theorem step_empty {s : State} (h : s.pending = []) : step s = .next (tick s) := by
  simp only [step, h]

theorem tick_powered {s : State} (h : s.powered = true) :
    tick s = tickFabric (tickHarps (tickCvus (tickPod (tickBeat s)))) := by
  rw [tick, if_pos h]

/-- Without power only the Pod's clock runs. -/
theorem tick_unpowered {s : State} (h : s.powered = false) : tick s = tickPod s := by
  rw [tick, h]; rfl

/-- Where nothing waits for time alone, the fabric's agents do nothing. -/
theorem tickFabric_idle {s : State} (ho : s.rmem.ops = []) (hp : s.fabric.paced = []) (hw : s.rmem.waiting = []) :
    tickFabric s = s := by
  simp [tickFabric, ho, hp, hw]

theorem podGather_clock (t : Nat) (f : PodAcc → PodAcc) (p : Pod) : (podGather t f p).clock = p.clock := by
  unfold podGather
  repeat' split
  all_goals rfl

theorem takeCal_clock (c : Nat) (p : Pod) : (takeCal c p).clock = p.clock := by
  unfold takeCal
  split
  · split
    · rfl
    · exact podGather_clock ..
  · rfl

theorem testSecond_clock (n : Nat) (p : Pod) : (testSecond n p).clock = p.clock := by
  unfold testSecond
  split
  · rfl
  · exact podGather_clock ..

theorem sampleTestLine_clock (c : Nat) (p : Pod) : (sampleTestLine c p).clock = p.clock := by
  unfold sampleTestLine
  split
  · exact testSecond_clock ..
  · rfl

theorem tickPod_lost {s : State} (hl : s.pod.lost = true) (hp : s.pod.powered = false) : tickPod s = s := by
  simp [tickPod, hl, hp]

/-- With power or its time kept, and nothing to slew, the Pod's clock counts one. -/
theorem tickPod_clock {s : State} (h : s.pod.lost = false ∨ s.pod.powered = true) (hs : s.pod.slew = 0) :
    (tickPod s).pod.clock = s.pod.clock + 1 := by
  have hn : ¬(s.pod.lost = true ∧ (!s.pod.powered) = true) := by
    rcases h with h | h <;> simp [h]
  simp only [tickPod, if_neg hn, if_pos hs, takeCal_clock, sampleTestLine_clock]

/-- The Pod's nanosecond depends on the Pod alone and changes nothing else. -/
theorem tickPod_eq (s : State) : tickPod s = { s with pod := (tickPod s).pod } :=
  (tickPod_keeps s).eq

theorem tickPod_pod_of_eq {s t : State} (h : t.pod = s.pod) : (tickPod t).pod = (tickPod s).pod := by
  simp only [tickPod, h]
  repeat' split
  all_goals first | exact h | rfl

/-- Slewing takes from what is left as much as it adds to the count (R257). -/
theorem tickBeat_total (s : State) :
    10000 * ((tickBeat s).beat : Int) + (tickBeat s).time.frac + (tickBeat s).time.slew =
      10000 * (s.beat : Int) + 10000 + s.time.frac + s.time.slew := by
  unfold tickBeat
  dsimp only
  split
  · simp only [Nat.cast_add]; omega
  · split <;> simp only [Nat.cast_add] <;> omega

/-- Without an amount to slew and away from the ends of the fraction, the count advances by one. -/
theorem tickBeat_of_no_slew {s : State} (h0 : s.time.slew = 0) (hl : -10000 < s.time.frac) (hu : s.time.frac < 10000) :
    (tickBeat s).beat = s.beat + 1 ∧ (tickBeat s).time = s.time := by
  have hd : slewStep s.time.slew = 0 := by rw [h0]; rfl
  simp only [tickBeat, hd, Int.add_zero, Int.sub_zero, if_neg (show ¬(10000 ≤ s.time.frac) by omega),
    if_neg (show ¬(s.time.frac ≤ -10000) by omega), and_self]

theorem tickBeat_slew (s : State) : (tickBeat s).time.slew = s.time.slew - slewStep s.time.slew := by
  unfold tickBeat
  dsimp only

theorem tickBeat_eq (s : State) : tickBeat s = { s with beat := (tickBeat s).beat, time := (tickBeat s).time } :=
  (tickBeat_keeps s).eq

/-- With power and nothing held back, a nanosecond is that of the counter, the Pod, the check-value units and the cartridges. -/
theorem tick_idle {s : State} (hp : s.powered = true) (ho : s.rmem.ops = []) (hq : s.fabric.paced = [])
    (hw : s.rmem.waiting = []) :
    tick s = { s with
      beat := (tickBeat s).beat, time := (tickBeat s).time, pod := (tickPod s).pod
      cvus := s.cvus.map (fun p => (p.1, { p.2 with busy := p.2.busy - (if p.1 < 256 then 2 else 1) }))
      harps := s.harps.map (fun p => (p.1, tickHarp p.2)) } := by
  have hpod : (tickPod (tickBeat s)).pod = (tickPod s).pod := tickPod_pod_of_eq (by rw [tickBeat_eq])
  have hb : tickPod (tickBeat s) =
      { s with beat := (tickBeat s).beat, time := (tickBeat s).time, pod := (tickPod s).pod } := by
    rw [tickPod_eq, hpod, tickBeat_eq]
  rw [tick_powered hp, hb]
  exact tickFabric_idle ho hq hw

/-- Settles O2, by what a nanosecond does with and without power. -/
theorem emptyQueueIsOneBeat : Obligations.EmptyQueueIsOneBeat := by
  refine ⟨fun s h => ⟨_, step_empty h, ((tick_keeps s).pending rfl).trans h⟩,
    fun s h hp => by rw [step_empty h, tick_powered hp], fun s h hp ho hq hw => ?_,
    fun s h hp => by rw [step_empty h, tick_unpowered hp, ← tickPod_eq],
    fun s => tickPod_lost, fun s => tickPod_clock⟩
  refine ⟨_, step_empty h, ?_⟩
  rw [tick_idle hp ho hq hw]
  refine ⟨rfl, rfl, rfl, rfl, tickBeat_of_no_slew, fun hs => ?_, fun hs => ?_, tickBeat_total s⟩
  · exact (tickBeat_slew s).trans (by rw [slewStep, if_pos hs])
  · refine (tickBeat_slew s).trans ?_
    rw [slewStep, if_neg (by omega), if_pos hs, sub_neg_eq_add]

/-! Trit bytes (O10, R37, R38). -/

theorem tritsOf_digit {b i : Nat} (hb : b ≤ 242) (hi : i < 5) :
    (tritsOf b)[i]? = some (if b / 3 ^ i % 3 = 2 then (-1 : Int) else ((b / 3 ^ i % 3 : Nat) : Int)) := by
  rw [tritsOf, if_neg (by omega), List.getElem?_map, List.getElem?_range hi, Option.map_some]

theorem length_tritsOf (b : Nat) : (tritsOf b).length = 5 := by
  unfold tritsOf
  split
  · rfl
  · simp

/-- Thirteen bytes have 65 digits, of which the record reads 64. -/
theorem length_tritRecord {b : Bytes} (h : b.length = 16) : (tritRecord b).1.length = 64 := by
  have hs : ∀ l : List Nat,
      (l.flatMap (fun v => (tritsOf v).map (fun t => if t = -1 then 2 else t.toNat))).length = 5 * l.length := fun l => by
    induction l with
    | nil => rfl
    | cons v l ih => simp only [List.flatMap_cons, List.length_append, List.length_map, length_tritsOf, ih, List.length_cons]; omega
  simp only [tritRecord, List.length_take, hs, List.length_map, List.length_drop, h]
  rfl

theorem length_readN (m : List Host.Cell) (a n : Nat) : (Memory.readN m a n).length = n := by
  induction n generalizing a with
  | zero => rfl
  | succ n ih => simp [Memory.readN, ih]

/-- A read that is answered gives as many bytes as it asks for. -/
theorem length_of_spaceRead {s : State} {core space addr len : Nat} {b : Bytes}
    (h : spaceRead s core space addr len = .ok b) : b.length = len := by
  unfold spaceRead at h
  split at h
  · cases h
  · split at h
    · cases h
    · split at h
      · cases h
      · cases h
        exact length_readN ..

/-- A row of up to 64 weights is one record, whose bytes above 242 raise TRIT. -/
theorem readRow_trit {s : State} {core cur r n usable : Nat} {d : BitVec 256} {b : Bytes} (hf : dFmt d = fmtTRIT5)
    (hlo : 1 ≤ min n (dRowLength d - cur)) (hhi : min n (dRowLength d - cur) ≤ 64)
    (hb : spaceRead s core (dSpace d) (dBase d + r * dRowStride d + 16 * (cur / 64)) 16 = .ok b) :
    ∃ row, readRow s core d cur r n usable =
      .ok (row, if ((b.drop 2).take 13).any (fun v => decide (242 < v.toNat)) then flagTRIT else 0) := by
  have hlen : b.length = 16 := length_of_spaceRead hb
  have hr : (min n (dRowLength d - cur) + 63) / 64 = 1 := by omega
  have hany : (tritRecord (b.take 16)).2 = ((b.drop 2).take 13).any (fun v => decide (242 < v.toNat)) := by
    rw [List.take_of_length_le hlen.le, tritRecord]
    exact List.any_map
  unfold readRow
  simp only [hf, hr, Nat.mul_one, hb, if_neg (show ¬(min n (dRowLength d - cur) = 0) by omega), if_true]
  refine ⟨_, congrArg Except.ok (Prod.ext rfl ?_)⟩
  simp only [List.range_one, List.map_cons, List.map_nil, Nat.mul_zero, List.drop_zero, List.any_cons, List.any_nil,
    Bool.or_false, hany]

/-- Settles O10: the digits by evaluating each place, the flag by the one record that the row reads. -/
theorem tritBytes : Obligations.TritBytes :=
  ⟨fun _ _ => tritsOf_digit, fun _ h => if_pos h, rfl, fun _ => length_tritRecord,
    fun _ _ _ _ _ _ _ _ => readRow_trit⟩

end Sys2Proof.Machine
end

section
/-! PROOFS. Events and device states: what a logged or counted event leaves, and what entering a state keeps. -/

namespace Sys2Proof.Machine

/-- A counter of 32 bits that is logged advances by one, and no other object but those of the log and the trace. -/
theorem countLog_countedOnly {key : Nat} (sev code site unit : Nat) (detail : Bytes) (s : State) (hb : objBits key = 32)
    (h : key ∉ logCounters) : CountedOnly key s (countLog key sev code site unit detail s) := by
  refine ⟨?_, countLog_untouched _ _ _ _ _ _ _⟩
  rw [countLog_obj _ _ _ _ _ _ _ h, hb]
  exact Nat.mod_eq_of_lt ((Nat.mod_lt _ (by decide)).trans (by decide))

/-- An event logged on a state that has the log, the beat and the objects of `s`. -/
theorem logEvent_on {s x : State} (key sev code site unit : Nat) (detail : Bytes) (hb : x.beat = s.beat := by rfl)
    (hl : x.log = s.log := by rfl) (ho : x.od = s.od := by rfl) :
    Logged key sev code site unit detail s (logEvent key sev code site unit detail x) ∧
      Untouched logCounters s (logEvent key sev code site unit detail x) := by
  refine ⟨?_, fun k hk => (logEvent_untouched _ _ _ _ _ _ x k hk).trans (State.obj_of_od ho k)⟩
  have h := logEvent_logged key sev code site unit detail x
  unfold Logged at h ⊢
  rwa [hb, hl] at h

/-- The same for an event that a 32-bit counter counts. -/
theorem countLog_on {s x : State} {key : Nat} (sev code site unit : Nat) (detail : Bytes) (hw : objBits key = 32)
    (hk : key ∉ logCounters) (hb : x.beat = s.beat := by rfl) (hl : x.log = s.log := by rfl) (ho : x.od = s.od := by rfl) :
    Logged key sev code site unit detail s (countLog key sev code site unit detail x) ∧
      CountedOnly key s (countLog key sev code site unit detail x) := by
  constructor
  · have h := countLog_logged key sev code site unit detail x
    unfold Logged at h ⊢
    rwa [hb, hl] at h
  · obtain ⟨hc, hu⟩ := countLog_countedOnly sev code site unit detail x hw hk
    exact ⟨by rw [hc, State.obj_of_od ho], fun k h => (hu k h).trans (State.obj_of_od ho k)⟩

theorem powered_of_ne {s : State} (h : s.dev.state ≠ 0) : s.powered = true := bne_iff_ne.mpr h

theorem stepPending_eq_self {s : State} (h : s.time.pendingOff = 0) : stepPending s = s := if_pos (.inl h)

theorem lockTest_eq_self {s : State} (h : s.test.unlocked = false) : lockTest s = s := by
  rw [lockTest, h]; rfl

theorem lockTest_locked (s : State) : (lockTest s).test.unlocked = false := by
  unfold lockTest
  split
  · rfl
  · next h => exact Bool.eq_false_iff.mpr h

/-- With no offset waiting, entering Boot is its trace record on the state with test mode locked. -/
theorem enterState_boot {s : State} (h2 : s.dev.state ≠ 2) (h : s.time.pendingOff = 0) :
    ∃ p, enterState 2 s = traceMake hubSite 0 0x09 p (lockTest { s with dev := { s.dev with state := 2 } }) := by
  unfold enterState
  rw [if_neg h2]
  dsimp only
  rw [if_pos (.inl rfl), if_pos (.inl rfl), stepPending_eq_self (by rw [(lockTest_keeps _).time rfl]; exact h)]
  exact ⟨_, rfl⟩

/-- Entering Standby from Off is its trace record. -/
theorem enterState_standby {s : State} (h1 : s.dev.state ≠ 1) :
    ∃ p, enterState 1 s = traceMake hubSite 0 0x09 p { s with dev := { s.dev with state := 1 } } := by
  unfold enterState
  rw [if_neg h1]
  dsimp only
  rw [if_neg (by decide), if_neg (by decide)]
  exact ⟨_, rfl⟩

theorem Untouched.ite {l : List Nat} {s a b : State} {p : Prop} [Decidable p] (ha : Untouched l s a) (hb : Untouched l s b) :
    Untouched l s (if p then a else b) := by
  split
  · exact ha
  · exact hb

theorem setObj_untouched {k : Nat} {l : List Nat} (hk : k ∈ l) (s : State) (v : Nat) : Untouched l s (s.setObj k v) :=
  fun _ h => State.obj_setObj_other s v (fun e => h (e ▸ hk))

end Sys2Proof.Machine
end

section
/-! PROOFS. Input power, its loss, temperature samples and ceilings (O11, R323 to R337). -/

namespace Sys2Proof.Machine

/-- Standby with the beat counter at 0: what INPUT_IN_RANGE does where Boot does not follow (R287, R324). -/
def toStandby (mv : Nat) (s : State) : State :=
  enterState 1 ((({ s with
    beat := 0, time := {}, power := { s.power with mv, input := 0, switchOpen := false, rails := 3, lossBeat := none } }).setObj
      Obj.stealsSincePowerup 0).setObj Obj.stackFailures 0)

theorem toStandby_eq (mv : Nat) {s : State} (h0 : s.dev.state = 0) : ∃ p, toStandby mv s = traceMake hubSite 0 0x09 p
    { ((({ s with
        beat := 0, time := {}
        power := { s.power with mv, input := 0, switchOpen := false, rails := 3, lossBeat := none } }).setObj
      Obj.stealsSincePowerup 0).setObj Obj.stackFailures 0) with dev := { s.dev with state := 1 } } :=
  enterState_standby (s := (State.setObj _ _ _).setObj _ _) (show s.dev.state ≠ 1 by omega)

/-- What Standby leaves: the time at its start, the input in range, and every field but these and the trace. -/
theorem toStandby_frame (mv : Nat) {s : State} (h0 : s.dev.state = 0) : toStandby mv s = { s with
    od := (toStandby mv s).od, beat := 0, dev := { s.dev with state := 1 }, time := {}
    power := { s.power with mv, input := 0, switchOpen := false, rails := 3, lossBeat := none }
    beagle := (toStandby mv s).beagle } := by
  obtain ⟨p, hp⟩ := toStandby_eq mv h0
  rw [hp]
  exact (traceMake_keeps ..).eq

theorem toStandby_keeps (mv : Nat) {s : State} (h0 : s.dev.state = 0) : Keeps 70950846467 s (toStandby mv s) := by
  obtain ⟨p, hp⟩ := toStandby_eq mv h0
  rw [hp]
  refine traceMake_keeps_k (by decide) (Keeps.u67108864 (by decide) (fun _ => (by decide : 1 ≤ 8)) ?_)
  exact State_setObj_keeps_k (by decide) (State_setObj_keeps_k (by decide) (Keeps.u2164260865 (by decide) (Keeps.refl _ s)))

theorem toStandby_untouched (mv : Nat) (s : State) :
    Untouched (Obj.stealsSincePowerup :: Obj.stackFailures :: logCounters) s (toStandby mv s) := by
  have h1 : Untouched [Obj.stealsSincePowerup] s _ := setObj_untouched (List.mem_singleton.mpr rfl) { s with
    beat := 0, time := {}, power := { s.power with mv, input := 0, switchOpen := false, rails := 3, lossBeat := none } } 0
  have h2 := h1.trans (setObj_untouched (k := Obj.stackFailures) (l := [Obj.stealsSincePowerup, Obj.stackFailures]) (by simp) _ 0)
    (by simp)
  exact h2.trans ((enterState_untouched 1 (.inl rfl) _).mono fun x hx => List.mem_cons_of_mem _ (List.mem_cons_of_mem _ hx)) (by simp)

theorem inputInRange_eq {mv : Nat} {s : State} (h0 : s.dev.state = 0) (hmv : 260000 ≤ mv ∧ mv ≤ 410000) :
    exec (.inputInRange mv) s =
      .next (if s.obj Obj.autoBoot = 1 then enterState 2 (toStandby mv s) else toStandby mv s) := by
  rw [← toStandby_untouched mv s Obj.autoBoot (by decide)]
  exact if_neg (by omega)

/-- Boot behind Standby locks test mode; from locked test mode it adds only a trace record. -/
theorem toBoot_frame (mv : Nat) {s : State} (h0 : s.dev.state = 0) :
    ∃ p, enterState 2 (toStandby mv s) =
      traceMake hubSite 0 0x09 p (lockTest { toStandby mv s with dev := { s.dev with state := 2 } }) := by
  have hd : (toStandby mv s).dev = { s.dev with state := 1 } := by rw [toStandby_frame mv h0]
  have ht : (toStandby mv s).time = {} := by rw [toStandby_frame mv h0]
  obtain ⟨p, hp⟩ := enterState_boot (s := toStandby mv s) (by rw [hd]; exact Nat.succ_ne_succ_iff.mpr Nat.zero_ne_one) (by rw [ht])
  exact ⟨p, by rw [hp, hd]⟩

theorem declareLoss_power (s : State) :
    (declareLoss s).power = { s.power with input := 3, lossBeat := some (s.beat - 500000) } :=
  (logEvent_keeps ..).power rfl

theorem declareLoss_sched (s : State) : (declareLoss s).sched = { s.sched with halted := true } :=
  (logEvent_keeps ..).sched rfl

theorem declareLoss_logged (s : State) :
    Logged Obj.inputState 1 0 0xFF 0 (leBytes 4 s.power.mv) s (declareLoss s) :=
  logEvent_logged _ _ _ _ _ _ { s with
    power := { s.power with input := 3, lossBeat := some (s.beat - 500000) }, sched := { s.sched with halted := true } }

theorem declareLoss_untouched (s : State) : Untouched logCounters s (declareLoss s) :=
  logEvent_untouched _ _ _ _ _ _ { s with
    power := { s.power with input := 3, lossBeat := some (s.beat - 500000) }, sched := { s.sched with halted := true } }

/-- The module is Off: everything that its supplies held is lost (R325), both copies of the configuration and the image store stay. -/
theorem powerOff_result (s : State) : (powerOff s).dev.state = 0 ∧ (powerOff s).power.rails = 0 ∧
    (powerOff s).power.lossBeat = none ∧ (powerOff s).beat = 0 ∧ (powerOff s).mem = [] ∧ (powerOff s).cores = [] ∧
    (powerOff s).wins = [] ∧ (powerOff s).config.copyA = s.config.copyA ∧ (powerOff s).config.copyB = s.config.copyB ∧
    (powerOff s).images.store = s.images.store := by
  have hk := enterState_keeps 0 (by decide) (railsOff (closeSecond s))
  have hc := closeSecond_keeps s
  refine ⟨?_, rfl, rfl, rfl, hk.mem rfl, hk.cores rfl, hk.wins rfl, ?_, ?_, ?_⟩
  · exact congrArg Device.state (enterState_dev 0 _)
  · exact (congrArg CfgState.copyA (hk.config rfl)).trans (congrArg CfgState.copyA (hc.config rfl))
  · exact (congrArg CfgState.copyB (hk.config rfl)).trans (congrArg CfgState.copyB (hc.config rfl))
  · exact (congrArg Images.store (hk.images rfl)).trans (congrArg Images.store (hc.images rfl) :)

/-! Temperature samples (R329, R330, R336). -/

/-- The vertical-order check leaves readings, estimates, date and level of the die's record. -/
theorem checkOrder_therm {site die : Nat} {t : ThermDie} {s : State} {r : ThermDie × State} (h : checkOrder site die t s = r) :
    r.1.reading = t.reading ∧ r.1.model = t.model ∧ r.1.sampled = t.sampled ∧ r.1.level = t.level := by
  subst h
  unfold checkOrder
  split
  · exact ⟨rfl, rfl, rfl, rfl⟩
  · exact ⟨rfl, rfl, rfl, rfl⟩

theorem checkOrder_untouched (site die : Nat) (t : ThermDie) (s : State) :
    Untouched (Obj.verticalOrderEvents :: logCounters) s (checkOrder site die t s).2 := by
  unfold checkOrder
  split
  · exact Untouched.refl _ _
  · dsimp only
    refine Untouched.ite ?_ ?_
    · exact countLog_untouched _ _ _ _ _ _ _
    · exact Untouched.refl _ _

/-- A shutdown notes its beat and leaves every die's thermal record as it is. -/
theorem shutdownActs_thermDies (site die : Nat) (s : State) : (shutdownActs site die s).therm.dies = s.therm.dies := by
  have hf (x : State) : (faultStop x).therm.dies = x.therm.dies := congrArg Therm.dies ((faultStop_keeps x).therm rfl)
  have hs (d : Nat) (x : State) : (shutDie d x).therm.dies = x.therm.dies := congrArg Therm.dies ((shutDie_keeps d x).therm rfl)
  unfold shutdownActs
  split
  · exact hf s
  · split
    · dsimp only
      split
      · rw [hf, hs]
      · rw [hs]
    · split
      · exact hf s
      · have hp := Keeps.foldl (l := rimPorts (site - 25)) (g := fun s p => portFalls p 0 s) (Keeps.refl 618477126674 s)
          fun x p h => portFalls_keeps_k (by decide) h
        exact congrArg Therm.dies (((resetRim_keeps _ _).therm rfl).trans (hp.therm rfl))
  · split
    · exact congrArg Therm.dies ((loseSoundboard_keeps _ _).therm rfl)
    · rfl
  · split
    · exact congrArg Therm.dies ((stackFails_keeps _ _).therm rfl)
    · rfl
  · rfl

theorem changeLevel_thermDies (site die old new : Nat) (s : State) :
    (changeLevel site die old new s).therm.dies = s.therm.dies := by
  unfold changeLevel
  dsimp only
  have hlog (k sev : Nat) (x : State) : (countLog k sev 0 site die [] x).therm.dies = x.therm.dies :=
    congrArg Therm.dies ((countLog_keeps ..).therm rfl)
  have hthr (on : Bool) (x : State) : (throttleActs site die on x).therm.dies = x.therm.dies :=
    congrArg Therm.dies ((throttleActs_keeps ..).therm rfl)
  rw [(settleThermal_keeps _).therm rfl]
  simp only [apply_ite (fun x : State => x.therm.dies), shutdownActs_thermDies, hthr, hlog, ite_self]

/-- A sample that is due leaves of its die a record `t` with the readings, the estimates and the level that the thresholds give;
`u` is what the vertical-order check may have logged before. -/
theorem thermalSample_eq {site : SiteId} {die : Fin 14} {kind : Nat} {reading model : List Int} {s : State}
    (hk : dieKind site.val die.val = some kind) (h0 : s.dev.state ≠ 0) (hr : reading.length = sensorCount site.val die.val)
    (hm : model.length = sensorCount site.val die.val) (hd : sampleDue s kind (s.thermDie site.val die.val) = true) :
    ∃ (t : ThermDie) (u : State) (old new : Nat), old = (s.thermDie site.val die.val).level ∧
      t.reading = reading ∧ t.model = model ∧ t.sampled = s.beat ∧ t.level = new ∧
      new = nextLevel kind (temperature t) old ∧
      u = { s with od := u.od, therm := { s.therm with dies := u.therm.dies }, beagle := u.beagle, log := u.log } ∧
      Keeps 210453397506 s u ∧ Untouched (Obj.verticalOrderEvents :: logCounters) s u ∧
      (∀ x y, 16 * x + y ≠ 16 * site.val + die.val → u.thermDie x y = s.thermDie x y) ∧
      exec (.thermalSample site die reading model) s = .next
        (if old = new then u.setThermDie site.val die.val t
          else changeLevel site.val die.val old new (u.setThermDie site.val die.val t)) := by
  have hg : ¬((!s.powered) = true ∨ reading.length ≠ sensorCount site.val die.val ∨ model.length ≠ sensorCount site.val die.val ∨
      (!sampleDue s kind (s.thermDie site.val die.val)) = true) := by simp [powered_of_ne h0, hr, hm, hd]
  show ∃ (t : ThermDie) (u : State) (old new : Nat), _ ∧ _ ∧ _ ∧ _ ∧ _ ∧ _ ∧ _ ∧ _ ∧ _ ∧ _ ∧ execThermalSample _ _ _ _ _ = _
  unfold execThermalSample
  simp only [hk, if_neg hg]
  generalize hc : checkOrder _ _ _ _ = r
  obtain ⟨hread, hmodel, hsampled, hlevel⟩ := checkOrder_therm hc
  have hkeep : Keeps 206158430210 _ r.2 := hc ▸ checkOrder_keeps _ _ _ _
  have hobj : Untouched _ _ r.2 := hc ▸ checkOrder_untouched _ _ _ _
  refine ⟨_, r.2, r.1.level, _, hlevel, ?_, ?_, ?_, ?_, ?_, ?_,
    (Keeps.u4294967296 (by decide) (Keeps.refl _ _)).tr (hkeep.mono (by decide)), hobj, fun x y hxy => ?_, rfl⟩
  · exact hread
  · exact hmodel
  · exact hsampled
  · rfl
  · rfl
  · rw [hkeep.therm rfl]
    exact hkeep.eq
  · rw [State.thermDie, hkeep.therm rfl]
    exact tget_tset_other _ _ _ hxy

/-! Ceilings (R326, R331). -/

theorem settleCap_result (s : State) : (settleCap s).power = { s.power with capSince := (settleCap s).power.capSince } ∧
    Untouched [Obj.capLimitedMs] s (settleCap s) := by
  unfold settleCap
  split
  · split
    · exact ⟨rfl, Untouched.refl _ _⟩
    · exact ⟨rfl, fun k hk => State.obj_count_other _ _ (List.ne_of_not_mem_cons hk)⟩
  · exact ⟨rfl, Untouched.refl _ _⟩

/-- A ceiling in force falls by the step, not below 12 W. -/
theorem ceilStep_falls {hold : Bool} {step x : Nat} (h : 120 < x) :
    ceilStep true hold step (some x) = some (max 120 (x - step)) := by
  simp only [ceilStep, if_true, if_neg (show ¬(x ≤ 120) by omega)]

/-- Settles O11, command by command. -/
theorem powerSupply : Obligations.PowerSupply := by
  refine ⟨?_, ?_, ?_, ?_, ?_, ?_, ?_, ?_, ?_, ?_, ?_, ?_, ?_⟩
  · intro mv s h0 hmv ha
    have hf := toStandby_frame mv h0
    exact ⟨_, (inputInRange_eq h0 hmv).trans (by rw [if_neg ha]), congrArg State.dev hf, congrArg State.beat hf,
      congrArg State.time hf, congrArg State.power hf, toStandby_untouched mv s, by rw [hf]⟩
  · intro mv s h0 hmv ha
    have hf := toStandby_frame mv h0
    obtain ⟨p, hp⟩ := toBoot_frame mv h0
    have ht := traceMake_keeps hubSite 0 0x09 p (lockTest { toStandby mv s with dev := { s.dev with state := 2 } })
    have hl := lockTest_keeps { toStandby mv s with dev := { s.dev with state := 2 } }
    refine ⟨_, (inputInRange_eq h0 hmv).trans (by rw [if_pos ha, hp]), (ht.dev rfl).trans (hl.dev rfl),
      (ht.beat rfl).trans ((hl.beat rfl).trans (congrArg State.beat hf)),
      (ht.time rfl).trans ((hl.time rfl).trans (congrArg State.time hf)),
      (congrArg TestMode.unlocked (ht.test rfl)).trans (lockTest_locked _),
      (ht.power rfl).trans ((hl.power rfl).trans (congrArg State.power hf)), fun hlock => ?_, ?_⟩
    · have hx : lockTest { toStandby mv s with dev := { s.dev with state := 2 } } =
          { toStandby mv s with dev := { s.dev with state := 2 } } :=
        lockTest_eq_self ((congrArg (fun x => x.test.unlocked) hf).trans hlock)
      rw [hx] at ht ⊢
      refine ⟨(toStandby_untouched mv s).trans (u := traceMake hubSite 0 0x09 p _) ?_ fun _ h => h, ?_⟩
      · exact (traceMake_untouched _ _ _ _ { toStandby mv s with dev := { s.dev with state := 2 } }).mono
          fun k hk => List.mem_cons_of_mem _ (List.mem_cons_of_mem _ hk)
      · exact (((toStandby_keeps mv h0).u67108864 (by decide) (fun _ => (by decide : 2 ≤ 8))).tr (ht.mono (by decide))).eq
    · exact ((((toStandby_keeps mv h0).mono (by decide)).u67108864 (by decide) (fun _ => (by decide : 2 ≤ 8))).tr
        ((hl.mono (by decide)).tr (ht.mono (by decide)) : Keeps 105847718915 _ _)).eq
  · intro mv s hmv h0 hi
    obtain ⟨hlog, hobj⟩ := logEvent_on (s := s) (x := { s with power := { s.power with mv, input := 1 } }) Obj.inputState 1 0
      0xFF 0 (leBytes 4 mv)
    refine ⟨_, if_neg (by simp [powered_of_ne h0]; omega), (logEvent_keeps ..).power rfl, hlog, hobj, ?_⟩
    exact (logEvent_keeps_k (m := 208305913858) (by decide) (Keeps.u2147483648 (by decide) (Keeps.refl _ _))).eq
  · intro mv s hmv h0 hi
    obtain ⟨hlog, hobj⟩ := countLog_on (s := s) (x := { s with power := { s.power with mv, input := 2 } })
      (key := Obj.brownoutEntries) 1 0 0xFF 0 (leBytes 4 mv) rfl (by decide)
    refine ⟨_, if_neg (by omega), (countLog_keeps ..).power rfl, hlog, hobj, ?_⟩
    exact (countLog_keeps_k (m := 208305913858) (by decide) (Keeps.u2147483648 (by decide) (Keeps.refl _ _))).eq
  · intro mv s h
    exact ⟨_, if_pos h, rfl⟩
  · intro mv s hmv h0 hi
    refine ⟨_, if_neg (by simp [powered_of_ne h0]; omega), declareLoss_power _, declareLoss_sched _,
      declareLoss_logged { s with power := { s.power with mv } }, declareLoss_untouched { s with power := { s.power with mv } }, ?_⟩
    exact (declareLoss_keeps_k (m := 208305914114) (by decide) (Keeps.u2147483648 (by decide) (Keeps.refl _ _))).eq
  · intro mv s hmv h0 hopen
    obtain ⟨hlog, hcount, hobj⟩ := countLog_on (s := s) (x := { s with power := { s.power with mv, switchOpen := true } })
      (key := Obj.overvoltageCutouts) 1 0 0xFF 0 (leBytes 4 mv) rfl (by decide)
    have hk := countLog_keeps Obj.overvoltageCutouts 1 0 0xFF 0 (leBytes 4 mv)
      { s with power := { s.power with mv, switchOpen := true } }
    generalize hu : countLog Obj.overvoltageCutouts 1 0 0xFF 0 (leBytes 4 mv)
      { s with power := { s.power with mv, switchOpen := true } } = u at hlog hcount hobj hk
    have hpow := hk.power rfl
    have hexec : exec (.overVoltage mv) s = .next (if s.power.input = 3 then u else declareLoss u) := by
      show execOverVoltage mv s = _
      rw [execOverVoltage, if_neg (by omega), if_neg (by simp [powered_of_ne h0, hopen]; omega)]
      simp only [hu, hpow]
    have hframe : Keeps 208305914114 s u := Keeps.tr (Keeps.u2147483648 (by decide) (Keeps.refl _ _)) (hk.mono (by decide))
    by_cases hi : s.power.input = 3
    · refine ⟨u, by rw [hexec, if_pos hi], by rw [hpow], by rw [hpow], by rw [hpow]; exact hi, ⟨hcount, hobj⟩,
        fun h => absurd hi h, fun _ => ⟨hpow, hk.sched rfl, hlog⟩, hframe.eq⟩
    · have hd := declareLoss_untouched u
      refine ⟨declareLoss u, by rw [hexec, if_neg hi], by rw [declareLoss_power, hpow], by rw [declareLoss_power, hpow],
        by rw [declareLoss_power], ⟨(hd _ (by decide)).trans hcount, hobj.trans (hd.mono fun _ => List.mem_cons_of_mem _) fun _ h => h⟩,
        fun _ => ⟨by rw [declareLoss_power, hpow, hk.beat rfl], by rw [declareLoss_sched, hk.sched rfl]⟩, fun h => absurd h hi,
        (declareLoss_keeps_k (by decide) hframe).eq⟩
  · intro mv s hmv
    exact if_pos hmv
  · intro mv b s hb hi hmv hopen ht
    obtain ⟨hlog, hobj⟩ := countLog_on (s := s) (x := { s with
      power := { s.power with mv, input := 0, lossBeat := none }, sched := { s.sched with halted := false } })
      (key := Obj.rideThroughs) 1 0 0xFF 0 [] rfl (by decide)
    refine ⟨_, ?_, (countLog_keeps ..).power rfl, (countLog_keeps ..).sched rfl, hlog, hobj, ?_⟩
    · show execRideThrough mv s = _
      simp only [execRideThrough, hb]
      exact if_pos ⟨hi, hmv, by rw [hopen]; rfl, ht⟩
    · exact (countLog_keeps_k (m := 208305914114) (by decide) (Keeps.u2147483904 (by decide) (Keeps.refl _ _))).eq
  · intro b s hb hi ht
    have hk := countLog_keeps Obj.inputLosses 2 0 0xFF 0 [] s
    obtain ⟨hd, hr, hl, hbeat, hm, hc, hw, ha, hb', hs⟩ := powerOff_result (countLog Obj.inputLosses 2 0 0xFF 0 [] s)
    refine ⟨_, ?_, hd, hr, hl, hbeat, hm, hc, hw, ha.trans (congrArg _ (hk.config rfl)), hb'.trans (congrArg _ (hk.config rfl)),
      hs.trans (congrArg _ (hk.images rfl)), (powerOff_keeps_k (m := 549755813883) (by decide) (hk.mono (by decide))).eq⟩
    show execHoldupExpiry s = _
    simp only [execHoldupExpiry, hb]
    exact if_pos ⟨hi, ht⟩
  · intro s h0 hi
    exact ⟨_, if_neg (by simp [powered_of_ne h0, hi]), declareLoss_power s, declareLoss_sched s, declareLoss_logged s,
      declareLoss_untouched s, (declareLoss_keeps s).eq⟩
  · intro site die kind reading model s hk h0 hr hm hd
    obtain ⟨t, u, old, new, rfl, hread, hmodel, hsampled, rfl, hnew, hu, hku, hobj, hother, hexec⟩ := thermalSample_eq hk h0 hr hm hd
    have hv : (u.setThermDie site.val die.val t).therm.dies = tset (16 * site.val + die.val) t u.therm.dies := rfl
    generalize hw : (if (s.thermDie site.val die.val).level = t.level then u.setThermDie site.val die.val t
      else changeLevel site.val die.val (s.thermDie site.val die.val).level t.level (u.setThermDie site.val die.val t)) = w at hexec
    have hdies : w.therm.dies = tset (16 * site.val + die.val) t u.therm.dies := by
      rw [← hw, apply_ite (fun x : State => x.therm.dies), changeLevel_thermDies, ite_self]; rfl
    have ht : w.thermDie site.val die.val = t := by rw [State.thermDie, hdies, tget_tset_same]
    refine ⟨w, hexec, by rw [ht, hread], by rw [ht, hmodel], by rw [ht, hsampled], by rw [ht, hnew],
      fun x y hxy => ?_, fun hl => ?_, ?_⟩
    · rw [State.thermDie, hdies, tget_tset_other _ _ _ hxy]
      exact hother x y hxy
    · rw [ht] at hl
      rw [if_pos hl.symm] at hw
      subst hw
      exact ⟨hobj, by rw [hu]; rfl⟩
    · have hk : Keeps 2197546860539 s (u.setThermDie site.val die.val t) :=
        Keeps.u4294967296 (by decide) (hku.mono (by decide))
      rw [← hw]
      exact (Keeps.ite hk (changeLevel_keeps_k (by decide) hk)).eq
  · intro die x s hb hx h120 hfall
    have hexec : exec (.ceilingStep die) s = .next (settleCap (s.setDie die.val { s.die die.val with
        thermCeil := some (max 120 (x - 10 * s.obj Obj.slewLimitW)), capCeil := ceilStep (decide (powerLimit s < s.power.watts))
          (decide (powerLimit s ≤ s.power.watts + 50)) (10 * s.obj Obj.slewLimitW) (s.die die.val).capCeil, ceilBeat := s.beat })) := by
      show execCeilingStep die s = _
      rw [execCeilingStep, if_neg (by omega)]
      simp only [hfall, hx, Option.isNone_some, Bool.false_eq_true, false_and, if_false, ceilStep_falls h120]
    obtain ⟨hpower, hobj⟩ := settleCap_result (s.setDie die.val { s.die die.val with
      thermCeil := some (max 120 (x - 10 * s.obj Obj.slewLimitW)), capCeil := ceilStep (decide (powerLimit s < s.power.watts))
        (decide (powerLimit s ≤ s.power.watts + 50)) (10 * s.obj Obj.slewLimitW) (s.die die.val).capCeil, ceilBeat := s.beat })
    generalize hu : s.setDie die.val _ = u at hexec hpower hobj
    have hk := settleCap_keeps u
    have hdie : (settleCap u).die die.val = u.die die.val := by rw [State.die, hk.dies rfl]; rfl
    have hself := hdie.trans (by rw [← hu, State.die_setDie])
    refine ⟨_, hexec, by rw [hself], by rw [hself], fun m hm => ?_, by rw [hself], hpower.trans (by rw [← hu]; rfl),
      fun k h => (hobj k h).trans (by rw [← hu]; rfl), ?_⟩
    · rw [State.die, hk.dies rfl, ← hu]
      exact State.die_setDie_other s _ hm
    · rw [← hu]
      exact (settleCap_keeps_k (m := 2147483714) (by decide) (State_setDie_keeps_k (by decide) (Keeps.refl _ s))).eq

end Sys2Proof.Machine
end

section
/-! PROOFS. Packets at a router (O31, R200 to R212) and reads at their target (O33, R225, R228). -/

namespace Sys2Proof.Machine

/-! Header fields. -/

/-- A number whose n bits from lo are replaced keeps the bits below and above. -/
theorem testBit_replace_other {x lo n v b : Nat} (hb : b < lo ∨ lo + n ≤ b) (hv : v < 2 ^ n) :
    (x - bitsAt x lo n * 2 ^ lo + v * 2 ^ lo).testBit b = x.testBit b := by
  have hx : x = 2 ^ (lo + n) * (x / 2 ^ (lo + n)) + (2 ^ lo * bitsAt x lo n + x % 2 ^ lo) := by
    rw [bitsAt, Nat.shiftRight_eq_div_pow, pow_add, ← Nat.div_div_eq_div_mul, mul_assoc, ← add_assoc, ← mul_add, add_comm (2 ^ n * _),
      Nat.mod_add_div, Nat.div_add_mod]
  have hlow : x % 2 ^ lo < 2 ^ lo := Nat.mod_lt _ (Nat.two_pow_pos _)
  have hf : bitsAt x lo n < 2 ^ n := Nat.mod_lt _ (Nat.two_pow_pos _)
  have hy : x - bitsAt x lo n * 2 ^ lo + v * 2 ^ lo = 2 ^ (lo + n) * (x / 2 ^ (lo + n)) + (2 ^ lo * v + x % 2 ^ lo) := by
    have h1 : bitsAt x lo n * 2 ^ lo = 2 ^ lo * bitsAt x lo n := mul_comm ..
    have h2 : v * 2 ^ lo = 2 ^ lo * v := mul_comm ..
    omega
  have hlt {w : Nat} (hw : w < 2 ^ n) : 2 ^ lo * w + x % 2 ^ lo < 2 ^ (lo + n) := by
    rw [pow_add]
    calc 2 ^ lo * w + x % 2 ^ lo < 2 ^ lo * w + 2 ^ lo := by omega
      _ = 2 ^ lo * (w + 1) := by ring
      _ ≤ 2 ^ lo * 2 ^ n := Nat.mul_le_mul_left _ hw
  rw [hy]
  conv_rhs => rw [hx]
  rw [Nat.testBit_two_pow_mul_add _ (hlt hv), Nat.testBit_two_pow_mul_add _ (hlt hf)]
  by_cases hc : b < lo + n
  · have hlo : b < lo := by omega
    rw [if_pos hc, if_pos hc, Nat.testBit_two_pow_mul_add _ hlow, Nat.testBit_two_pow_mul_add _ hlow, if_pos hlo, if_pos hlo]
  · rw [if_neg hc, if_neg hc]

theorem getLsbD_putField_other {h : BitVec 256} {lo n v b : Nat} (hb : b < lo ∨ lo + n ≤ b) :
    (putField h lo n v).getLsbD b = h.getLsbD b := by
  by_cases h256 : b < 256
  · rw [putField, BitVec.getLsbD_ofNat, decide_eq_true h256, Bool.true_and]
    exact testBit_replace_other hb (Nat.mod_lt _ (Nat.two_pow_pos _))
  · rw [BitVec.getLsbD_of_ge _ _ (by omega), BitVec.getLsbD_of_ge _ _ (by omega)]

/-! Routing (R200 to R204). -/

/-- The packet at the head of a receive buffer leaves it, and its flits are freed. -/
def takenIn (p : Nat) (k : Packet) (rest : List Packet) (s : State) : State :=
  s.setPort p { s.port p with
    inq := tset (pkVc k.hdr) rest (s.port p).inq
    freed := tset (pkVc k.hdr) (tget 0 (pkVc k.hdr) (s.port p).freed + packetFlits k.hdr) (s.port p).freed }

theorem takeIn_head {p : Nat} {k : Packet} {rest : List Packet} {s : State}
    (h : tget [] (pkVc k.hdr) (s.port p).inq = k :: rest) : takeIn p k s = some (takenIn p k rest s) := by
  simp only [takeIn, h, if_true]
  rfl

theorem takenIn_port_state (p : Nat) (k : Packet) (rest : List Packet) (s : State) (j : Nat) :
    ((takenIn p k rest s).port j).state = (s.port j).state := by
  by_cases h : j = p
  · rw [h, takenIn, State.port_setPort]
  · rw [takenIn, State.port_setPort_other _ _ h]

/-- The way of a packet depends on the banks and on which ports are up. -/
theorem tableWay_congr {s t : State} (hf : t.fabric = s.fabric) (hp : ∀ j, (t.port j).state = (s.port j).state)
    (h : BitVec 256) : tableWay t h = tableWay s h := by
  simp only [tableWay, portPick, hf, hp]

theorem tableWay_takenIn (p : Nat) (k : Packet) (rest : List Packet) (s : State) (h : BitVec 256) :
    tableWay (takenIn p k rest s) h = tableWay s h :=
  tableWay_congr (s := s) (t := takenIn p k rest s) rfl (takenIn_port_state p k rest s) h

/-- PACKET_ROUTE of a packet at the head of its buffer, which the tables route. -/
theorem packetRoute_eq {p : PortId} {k : Packet} {rest : List Packet} {s : State}
    (h : tget [] (pkVc k.hdr) (s.port p.val).inq = k :: rest) :
    exec (.packetRoute p k) s = if headerGood s k.hdr = false then .next (discardHeader k (takenIn p k rest s))
      else if straightOp k.hdr then .next s
      else .next (followWay (rimSite (portDir p)) (some (portDir p)) k (tableWay s k.hdr) (takenIn p k rest s)) := by
  show execPacketRoute p k s = _
  simp only [execPacketRoute, takeIn_head h, tableWay_takenIn, Bool.not_eq_true']

/-- Without injection at the port a packet goes to the end of its queue. -/
theorem joinQueue_plain {p : Nat} {k : Packet} {ring : Option Nat} {s : State} (h3 : (s.port p).inject.mode ≠ 3)
    (h4 : (s.port p).inject.mode ≠ 4) : ∃ h : BitVec 256, (∀ b, b ≠ 6 → h.getLsbD b = k.hdr.getLsbD b) ∧ joinQueue p k ring s =
      s.setPort p { s.port p with
        outq := tset (pkVc h) (tget [] (pkVc h) (s.port p).outq ++ [{ pkt := { k with hdr := h }, ring }]) (s.port p).outq } := by
  unfold joinQueue
  dsimp only
  rw [if_neg (not_or.mpr ⟨h3, h4⟩)]
  simp only [Bool.false_and, Bool.false_eq_true, false_and, if_false]
  split
  · exact ⟨_, fun b hb => getLsbD_putField_other (by omega), rfl⟩
  · exact ⟨k.hdr, fun _ _ => rfl, rfl⟩

/-- At the rim die of the port a packet joins its queue; only its dateline bit may change on the way (R202). -/
theorem sendOut_own_port {p : Nat} {inDir : Option Nat} {k : Packet} {s : State} (h3 : (s.port p).inject.mode ≠ 3)
    (h4 : (s.port p).inject.mode ≠ 4) :
    ∃ h : BitVec 256, (∀ b, b ≠ 6 → h.getLsbD b = k.hdr.getLsbD b) ∧ sendOut (rimSite (portDir p)) p inDir k s =
      s.setPort p { s.port p with
        outq := tset (pkVc h) (tget [] (pkVc h) (s.port p).outq ++ [{ pkt := { k with hdr := h }, ring := none }]) (s.port p).outq } := by
  obtain ⟨h, hbits, hq⟩ := joinQueue_plain (k := { k with hdr := putField k.hdr 6 1 (turnDl inDir (portDir p) (pkDl k.hdr)) })
    (ring := none) h3 h4
  exact ⟨h, fun b hb => (hbits b hb).trans (getLsbD_putField_other (by omega)), (if_pos rfl).trans hq⟩

/-! Ports that fall (R195, R204, R220). -/

theorem enterPort_port (p n j : Nat) (s : State) :
    (enterPort p n s).port j = if j = p then { s.port p with state := n } else s.port j := by
  unfold enterPort
  dsimp only
  split
  · next h =>
    split
    · next hj => rw [hj, ← h]
    · rfl
  · have hk := traceMake_keeps (rimSite (portDir p)) p 0x07 (leBytes 1 p ++ leBytes 1 (s.port p).state ++ leBytes 1 n)
      (s.setPort p { s.port p with state := n })
    rw [State.port, hk.ports rfl]
    split
    · next hj => rw [hj]; exact State.port_setPort ..
    · next hj => exact State.port_setPort_other _ _ hj

theorem enterPort_untouched (p n : Nat) (s : State) : Untouched logCounters s (enterPort p n s) := by
  unfold enterPort
  dsimp only
  exact .ite (.refl _ _) (traceMake_untouched _ _ _ _ (s.setPort p { s.port p with state := n }))

theorem portDown_eq {p : PortId} {b : Nat} {s : State} (hb : (s.port p.val).retrainAt = some b) (hs : (s.port p.val).state ≠ 2)
    (ht : b + 10000000 < s.beat) : exec (.portDown p) s = .next (portFalls p.val 0 s) := by
  show execPortDown p s = _
  simp only [execPortDown, hb, ne_eq, hs, not_false_eq_true, ht, and_self, if_true]

theorem portFalls_eq (p n : Nat) (s : State) :
    portFalls p n s = (heldPackets (s.port p)).foldl (fun v k => packetLost (rimSite (portDir p)) k.pkt
      (k.ring.elim v (fun key => ringFree key (ringUnits k.pkt) v))) (dropPort p n s) := by
  unfold portFalls
  refine List.foldl_ext _ _ _ fun v k _ => ?_
  cases k.ring <;> rfl

theorem rateTick_eq {s : State} (h : s.fabric.rateBeat + 4000 ≤ s.beat) :
    exec .rateIncreaseTick s = .next (drainPaced (s.fabric.paced.length + 1) { s with fabric := { s.fabric with
      rateBeat := s.beat
      rates := s.fabric.rates.map (fun e => if e.lastMark + 4000 ≤ s.beat then
        { refill s.beat e with rate := min 256 (e.rate + s.obj Obj.ccIncreaseStep) } else refill s.beat e) } }) := by
  show execRateIncreaseTick s = _
  rw [execRateIncreaseTick, if_neg (by omega)]
  rfl

/-- Settles O31, command by command. -/
theorem packetRouting : Obligations.PacketRouting := by
  refine ⟨?_, ?_, ?_, ?_, ?_, ?_, ?_, ?_, ?_, ?_, ?_, ?_⟩
  · intro p k rest s h hbad
    exact ⟨_, (packetRoute_eq h).trans (if_pos hbad), rfl⟩
  · intro p k rest s h hgood hs hw
    exact ⟨_, by rw [packetRoute_eq h, hgood, hs, hw]; rfl, rfl⟩
  · intro p q k rest s h hgood hs hw
    exact ⟨_, by rw [packetRoute_eq h, hgood, hs, hw]; rfl, rfl⟩
  · intro p k rest s h hgood hs hw
    exact ⟨_, by rw [packetRoute_eq h, hgood, hs, hw]; rfl, rfl⟩
  · intro p k s h
    refine ⟨s, ?_, rfl⟩
    show execPacketRoute p k s = _
    unfold execPacketRoute
    rcases h with h | ⟨hg, hs⟩
    · rw [h]
    · cases takeIn p k s <;> simp [hg, hs]
  · exact fun p inDir k s => sendOut_own_port
  · intro p b s hb hs ht hheld
    have he := enterPort_port p.val 0 p.val s
    rw [if_pos rfl] at he
    have hfall : portFalls p.val 0 s = dropPort p.val 0 s := by rw [portFalls_eq, hheld]; rfl
    refine ⟨_, (portDown_eq hb hs ht).trans (congrArg _ hfall), ?_, ?_, fun j hj => ?_, (dropPort_keeps p.val 0 s).eq⟩
    · rw [dropPort, State.port_setPort, he, (enterPort_keeps p.val 0 s).beat rfl]
    · exact enterPort_untouched p.val 0 s
    · rw [dropPort, State.port_setPort_other _ _ hj, enterPort_port, if_neg hj]
  · intro p b s hb hs ht
    exact ⟨_, portDown_eq hb hs ht, portFalls_eq p.val 0 s⟩
  · intro p s h
    refine ⟨s, ?_, rfl⟩
    show execPortDown p s = _
    unfold execPortDown
    dsimp only
    split
    · next b hb =>
      refine if_neg fun ⟨hs, ht⟩ => ?_
      rcases h with h | h
      · exact hs h
      · have := h b hb
        omega
    · rfl
  · exact fun s h => ⟨_, rateTick_eq h, rfl⟩
  · intro s h hp
    refine ⟨_, (rateTick_eq h).trans ?_, rfl⟩
    simp only [hp, List.length_nil, drainPaced, drainPaced.first]
  · exact fun s h => ⟨s, if_pos h, rfl⟩

/-! Reads at their target (R225, R228). -/

theorem load_dropped {p : PortId} {k : Packet} {u s : State} (h : arriveHere fLOAD k s = (false, u)) :
    exec (.load p k) s = .next u := by
  show execLoad p k s = _
  simp only [execLoad, h]

theorem get_dropped {p : PortId} {k : Packet} {u s : State} (h : arriveHere fGET k s = (false, u)) :
    exec (.get p k) s = .next u := by
  show execGet p k s = _
  simp only [execGet, h]

theorem load_near {p : PortId} {k : Packet} {u s : State} (h : arriveHere fLOAD k s = (true, u)) (hf : isFar k.hdr = false) :
    exec (.load p k) s = .next (localRead (portDir p.val) k.hdr u) := by
  show execLoad p k s = _
  simp only [execLoad, h, hf, Bool.false_eq_true, if_false]

theorem get_near {p : PortId} {k : Packet} {u s : State} (h : arriveHere fGET k s = (true, u)) (hf : isFar k.hdr = false) :
    exec (.get p k) s = .next (localRead (portDir p.val) k.hdr u) := by
  show execGet p k s = _
  simp only [execGet, h, hf, Bool.false_eq_true, if_false]

theorem arriveHere_mem {op : Nat} {k : Packet} {b : Bool} {u s : State} (h : arriveHere op k s = (b, u)) : u.mem = s.mem :=
  (arriveHere_keeps_eqk (m := 1572866) rfl h (Keeps.refl _ s)).mem rfl

/-- An admitted read begins an access and touches no memory. -/
theorem localRead_admitted {rim site addr : Nat} {h : BitVec 256} {u v : State}
    (hc : windowCheck u rim h (pkLength h) .read = .ok (site, addr)) (hv : v = (addOp rim h site addr true (pkLength h) u).2) :
    localRead rim h u = settleOps (opFuel v) v ∧ (settleOps (opFuel v) v).mem = u.mem := by
  subst hv
  exact ⟨by simp only [localRead, hc], (settleOps_keeps _ _).mem rfl⟩

theorem localRead_refused {rim : Nat} {h : BitVec 256} {x : Nat × Nat} {u : State}
    (hc : windowCheck u rim h (pkLength h) .read = .error x) :
    localRead rim h u = refuseAccess rim h x u ∧ (refuseAccess rim h x u).mem = u.mem :=
  ⟨by simp only [localRead, hc], (refuseAccess_keeps _ _ _ _).mem rfl⟩

/-- The window check refuses a need that the entry's permissions do not name (R228). -/
theorem windowCheck_denied {s : State} {rim n : Nat} {h e : BitVec 256} {need : Need}
    (hw : winFind s (pkJob h) (pkOffset h) n = some e) (hp : (winPerm e).testBit need.bit = false) :
    windowCheck s rim h n need = .error (0x03, if need = .read then 0x1104 else if (winPerm e).testBit 1 then 0x1103
      else s.freeWord.toNat % 65536) := by
  simp only [windowCheck, hw, hp, Bool.not_false, if_true]

/-- What has landed of a read leaves for its source; then the access goes on or is over. -/
theorem opLanded_eq {n tag : Nat} {x : RimOp} {s : State} (h : s.rmem.ops.find? (fun y => y.n == n) = some x) (u : State)
    (hu : u = if pkOp x.hdr = fLOAD then
        replyTo (rimSite x.rim) fLOADDATA (pkOffset x.hdr) (min x.left 4096) 0 0
          (s.load (memKey (rimSite x.rim) (opLanding tag)) (min x.left 4096)) x.hdr s
      else (List.range (ceilDiv (min x.left 4096) 1024)).foldl (fun w i =>
        let part := ((s.load (memKey (rimSite x.rim) (opLanding tag)) (min x.left 4096)).drop (1024 * i)).take 1024
        replyTo (rimSite x.rim) fGETDATA (x.got + 1024 * i) part.length 0 0 part x.hdr w) s) :
    opLanded n tag s = settleOps (opFuel (modOp n (fun y => { y with
      left := y.left - min x.left 4096, got := y.got + min x.left 4096
      doneAt := if y.left ≤ min x.left 4096 then some u.beat else y.doneAt }) u))
      (modOp n (fun y => { y with
        left := y.left - min x.left 4096, got := y.got + min x.left 4096
        doneAt := if y.left ≤ min x.left 4096 then some u.beat else y.doneAt }) u) := by
  subst hu
  simp only [opLanded, h]

/-- Settles O33, by what `localRead`, `windowCheck`, `opLanded` and `endOp` do. -/
theorem targetReads : Obligations.TargetReads := by
  refine ⟨?_, ?_, ?_, ?_, ?_, ?_, ?_, ?_, ?_, ?_, ?_, ?_⟩
  · exact fun p k u s h => ⟨u, load_dropped h, rfl⟩
  · intro p k u site addr v s h hf hc hv
    obtain ⟨he, hm⟩ := localRead_admitted hc hv
    exact ⟨_, load_near h hf, he, (congrArg State.mem he).trans (hm.trans (arriveHere_mem h))⟩
  · intro p k u x s h hf hc
    obtain ⟨he, hm⟩ := localRead_refused hc
    exact ⟨_, load_near h hf, he, (congrArg State.mem he).trans (hm.trans (arriveHere_mem h))⟩
  · exact fun p k u s h => ⟨u, get_dropped h, rfl⟩
  · intro p k u site addr v s h hf hc hv
    obtain ⟨he, hm⟩ := localRead_admitted hc hv
    exact ⟨_, get_near h hf, he, (congrArg State.mem he).trans (hm.trans (arriveHere_mem h))⟩
  · intro p k u x s h hf hc
    obtain ⟨he, hm⟩ := localRead_refused hc
    exact ⟨_, get_near h hf, he, (congrArg State.mem he).trans (hm.trans (arriveHere_mem h))⟩
  · intro s rim n h need hw
    simp only [windowCheck, hw]
  · exact fun s rim n h e hw hp => windowCheck_denied (need := .read) hw hp
  · intro s rim n h need e hw hn hp hr
    rw [windowCheck_denied hw hp, if_neg hn, if_pos hr]
  · intro n tag x s u v hx hop hu hv
    rw [opLanded_eq hx u (by rw [if_pos hop, hu]), hv]
  · intro n tag x s u v hx hop hle hpos hu hv
    have hk : min x.left 4096 = x.left := by omega
    have hone : ceilDiv x.left 1024 = 1 := by unfold ceilDiv; omega
    have hlen : (s.load (memKey (rimSite x.rim) (opLanding tag)) x.left).length = x.left := length_readN ..
    rw [opLanded_eq hx u ?_, hv]
    rw [if_neg hop, hk, hone, hu]
    simp only [List.range_one, List.foldl_cons, List.foldl_nil, Nat.mul_zero, List.drop_zero, Nat.add_zero,
      List.take_of_length_le (hlen.trans_le hle), hlen]
  · intro x s u hu
    subst hu
    cases hx : x.failed <;> simp only [endOp, hx] <;> rfl

end Sys2Proof.Machine
end

section

/-! PROOFS. Stores over a memory that is not in canonical form: the two obligations that say a stored byte reads back
in every state. `Memory.write` takes a zero byte at a key below the first listed cell for a byte that is not listed, so
it leaves a cell listed out of order as it was. -/

namespace Sys2Proof.Machine

/-- Two cells in the wrong order: the second is listed below the first. -/
def looseCells (a : Nat) : List Host.Cell := [(a + 100, 1), (a, 255)]

theorem looseCells_not_wf (a : Nat) : Memory.wf (looseCells a) = false := by
  simp [looseCells, Memory.wf]

/-- A zero byte at the cell listed out of order is not stored. -/
theorem write_zero_looseCells (a : Nat) : Memory.write a 0 (looseCells a) = looseCells a := by
  simp [looseCells, Memory.write]

/-- The byte that a step leaves at a key. -/
def byteAfter (c : Instr) (s : State) (a : Nat) : Byte :=
  match exec c s with
  | .next t => Memory.read t.mem a
  | _ => 0

/-- What `Stored` says of the first byte. -/
theorem Stored.head {a : Nat} {x : Byte} {b : Bytes} {s t : State} (h : Stored a (x :: b) s t) :
    Memory.read t.mem a = x := by
  have hb := h.1
  simp only [State.load, List.length_cons, Memory.readN] at hb
  exact (List.cons.inj hb).1

/-- A state that admits the packet of `looseBarrierPacket` at its word, which is listed out of order. -/
def looseBarrierState : State :=
  { State.reset with
    rmem := { table := [(0, BitVec.ofNat 256 (31 * 2 ^ 16 + 12 * 2 ^ 24 + 4096 * 2 ^ 80 + 64 * 2 ^ 128))] }
    tiles := [(12, { state := 0 })], strings := [(primaryString 25 12, { state := 0 })], mem := looseCells (memKey 12 64) }

/-- A BARRIER of fabric offset 0, which takes the word 255 to 256. -/
def looseBarrierPacket : Packet := { hdr := sealHeader (fabricHdr fBARRIER 0 0 0 0 4 0 5 0 0 0), payload := [9] }

theorem byteAfter_looseBarrier :
    byteAfter (.fabricBarrier 0 looseBarrierPacket) looseBarrierState (memKey 12 64) = 255 := by
  decide +kernel

/-- Refutes O34: the clauses of words below the DRAM areas ask for a read-back in every state, and where memory is not
in canonical form the low byte of a BARRIER that carries into the next byte stays 255. -/
theorem not_targetWrites : ¬ Obligations.TargetWrites := by
  unfold Obligations.TargetWrites
  intro h
  obtain ⟨-, -, -, -, -, -, -, -, -, -, -, -, -, -, -, -, -, -, -, -, -, -, -, -, -, -, -, hbarrier⟩ := h
  obtain ⟨t, ht, hs⟩ := hbarrier 0 looseBarrierPacket (arriveHere fBARRIER looseBarrierPacket looseBarrierState).2 12 64
    looseBarrierState (Prod.ext (by decide +kernel) rfl) (by decide +kernel) (by decide +kernel) (by decide +kernel)
  have h0 : Memory.read t.mem (memKey 12 64) = 0 := (Stored.head hs).trans (by decide +kernel)
  have h255 : Memory.read t.mem (memKey 12 64) = 255 := by
    simpa only [byteAfter, ht] using byteAfter_looseBarrier
  exact absurd (h0.symm.trans h255) (by decide)

/-- A state whose die 0 holds page 1 in entry 2, with the page's byte 4 listed out of order. -/
def looseCacheState : State :=
  { State.reset with
    dies := [(0, { dir := [(2, { page := 1, valid := true, dirty := false, pinned := false, age := 0 })] })]
    mem := looseCells (entryKey 0 2 4) }

theorem byteAfter_looseCache :
    byteAfter (.cacheAccess 0 65540 (some [0]) 0) looseCacheState (entryKey 0 2 4) = 255 := by
  decide +kernel

/-- Refutes O21: the clause of a store that hits asks for a read-back in every state, and where memory is not in
canonical form a stored zero byte leaves the 255 of its key. -/
theorem not_soundboardCache : ¬ Obligations.SoundboardCache := by
  unfold Obligations.SoundboardCache
  intro h
  obtain ⟨hhit, -⟩ := h
  obtain ⟨t, ht, -, hs, -⟩ := hhit 0 65540 2 0 [0] { page := 1, valid := true, dirty := false, pinned := false, age := 0 }
    looseCacheState (by decide) (by decide) (by decide) (by decide +kernel) (by decide +kernel) (by decide +kernel) rfl
  have h0 : Memory.read t.mem (entryKey 0 2 4) = 0 := Stored.head hs
  have h255 : Memory.read t.mem (entryKey 0 2 4) = 255 := by
    simpa only [byteAfter, ht] using byteAfter_looseCache
  exact absurd (h0.symm.trans h255) (by decide)

end Sys2Proof.Machine

end

section

/-! PROOFS. A stored configuration that names `boot_count`: its values come into force before the response is made, and
the response then carries another boot number than the state before it. -/

namespace Sys2Proof.Machine

/-- A WRITE over the UART of a whole value of one byte, from client 0 with boot number 0. -/
def uartByte (v : Byte) : WReq := ⟨⟨true, true, [], 1, 1, 4, 0, 9⟩, 6, 1, 0, true, [v]⟩

/-- Held, with a valid copy B that sets `boot_count` to 1. -/
def bootCountCopied : State :=
  { State.reset with
    dev := { state := 3 }
    config := { copyB := { status := 0, gen := 5, entries := [{ key := Obj.bootCount, ty := 7, data := [1, 0, 0, 0] }] } } }

/-- Refutes O57: `config_restore` puts the copy in force before it answers, so that a copy with an entry of `boot_count`
changes the boot number in the response. -/
theorem not_subscriptions : ¬ Obligations.Subscriptions := by
  unfold Obligations.Subscriptions
  intro h
  obtain ⟨-, -, -, -, -, -, -, -, -, -, -, -, -, -, -, -, -, -, hrestore, -, -⟩ := h
  obtain ⟨t, ht, -, -, -, -, -, -, hreply, -⟩ := hrestore (uartByte 1) 1 bootCountCopied
    (by decide +kernel) (by decide +kernel) (by decide) rfl (by decide) rfl rfl
  have hsent : (match exec (.configRestore (uartByte 1)) bootCountCopied with
      | .next t => t.pair.cur
      | _ => []) ≠ [dictReply (uartByte 1).hdr 2 (leBytes 2 0) bootCountCopied] := by
    decide +kernel
  rw [ht] at hsent
  exact hsent (congrArg Pair.cur hreply)

end Sys2Proof.Machine

end

section

/-! PROOFS. Partials in collective slots (O37, R212 to R216). -/

namespace Sys2Proof.Machine

/-- A packet that was taken stood at the head of its receive buffer. -/
theorem takeIn_some {p : Nat} {k : Packet} {s u : State} (h : takeIn p k s = some u) : ∃ rest, u = takenIn p k rest s := by
  unfold takeIn at h
  dsimp only at h
  split at h
  · next x rest _ =>
    split at h
    · exact ⟨rest, (Option.some.inj h).symm⟩
    · cases h
  · cases h

theorem takeIn_mem {p : Nat} {k : Packet} {s u : State} (h : takeIn p k s = some u) : u.mem = s.mem := by
  obtain ⟨rest, rfl⟩ := takeIn_some h
  rfl

theorem takeIn_fabric {p : Nat} {k : Packet} {s u : State} (h : takeIn p k s = some u) : u.fabric = s.fabric := by
  obtain ⟨rest, rfl⟩ := takeIn_some h
  rfl

theorem checkSeq_colls (h : BitVec 256) (s : State) : (checkSeq h s).fabric.colls = s.fabric.colls := by
  unfold checkSeq
  dsimp only
  split
  · rfl
  · split
    · rfl
    · split <;> rfl

theorem noteNode_colls (h : BitVec 256) (s : State) : (noteNode h s).fabric.colls = s.fabric.colls := by
  unfold noteNode
  dsimp only
  split <;> rfl

/-- A packet that is not for this module, or does not stand at its head, changes nothing. -/
theorem cpart_other {p : PortId} {k : Packet} {s : State} (h : pkOp k.hdr ≠ fCPART ∨ takeIn p.val k s = none) :
    exec (.cpart p k) s = .next s := by
  show execCpart p k s = _
  unfold execCpart
  dsimp only
  split
  · rfl
  · next hop => rw [h.resolve_left hop]

theorem addPart_arm {r : CollRes} {slot arm off : Nat} {data : Bytes} {s u : State} {place : ColPlace} {x : CollSlot}
    (hp : colPlace s r.desc = some place) (ha : place.arms.contains arm = true)
    (hx : x = { slotNow s r slot with parts := (List.range (ceilDiv data.length 64)).foldl (fun (y : Tab Bytes) i => tset (65536 * arm + off / 64 + i) (fitBytes 64 (data.drop (64 * i))) y) (slotNow s r slot).parts, began := some ((slotNow s r slot).began.getD s.beat) })
    (hu : u = setSlot (collKey r.rim slot) x s) :
    addPart r slot arm off data s = if slotComplete r.desc place x = false then u
      else sendTotal r place x.inst (((List.range (colChunks r.desc)).flatMap (chunkSum (colType r.desc) place x.parts)).take (colLength r.desc))
        (setSlot (collKey r.rim slot) { inst := (x.inst + max 1 (colSlots r.desc)) % 65536 } u) := by
  subst hu hx
  simp only [addPart, hp, ha, Bool.not_true, Bool.false_eq_true, if_false, Bool.not_eq_true']

/-- A counter of at most 64 bits that a log entry goes with. -/
theorem countLog_counts {key : Nat} (sev code site unit : Nat) (detail : Bytes) (s : State) (hk : key ∉ logCounters)
    (hb : objBits key ≤ 64) :
    (countLog key sev code site unit detail s).obj key = (s.obj key + 1) % 2 ^ objBits key := by
  rw [countLog_obj _ _ _ _ _ _ _ hk]
  exact Nat.mod_eq_of_lt ((Nat.mod_lt _ (Nat.two_pow_pos _)).trans_le (Nat.pow_le_pow_right (by decide) hb))

/-- COLL_TIMEOUT of a slot that began long enough ago. -/
theorem collTimeout_due {rim : RimId} {slot : Byte} {r : CollRes} {first b : Nat} {s : State}
    (ho : slotOwner s rim.val slot.toNat = some (r, first)) (hb : (slotNow s r first).began = some b)
    (hd : b + 1000 * s.obj Obj.collTimeoutUs ≤ s.beat) : exec (.collTimeout rim slot) s = .next (timeOutSlot r first s) := by
  show execCollTimeout rim slot s = _
  simp only [execCollTimeout, ho, hb, if_neg (Nat.not_lt.mpr hd)]

theorem timeOutSlot_result (r : CollRes) (first : Nat) (s : State) :
    (timeOutSlot r first s).fabric = { s.fabric with colls := tset (collKey r.rim first) { inst := ((slotNow s r first).inst + max 1 (colSlots r.desc)) % 65536 } s.fabric.colls } ∧
      (timeOutSlot r first s).obj Obj.collTimeouts = (s.obj Obj.collTimeouts + 1) % 2 ^ objBits Obj.collTimeouts ∧
      Untouched (Obj.collTimeouts :: logCounters) s (timeOutSlot r first s) ∧
      timeOutSlot r first s = { s with
        od := (timeOutSlot r first s).od, fabric := (timeOutSlot r first s).fabric
        beagle := (timeOutSlot r first s).beagle, log := (timeOutSlot r first s).log } := by
  refine ⟨(countLog_keeps ..).fabric rfl, countLog_counts 2 0 _ _ _ _ (by decide) (by decide), countLog_untouched _ _ _ _ _ _ _, ?_⟩
  exact (countLog_keeps_k (m := 206158954498) (by decide) (Keeps.u524288 (by decide) (Keeps.refl _ s))).eq

/-- Settles O37: the branches of CPART and COLL_TIMEOUT in the order of the model. -/
theorem inNetworkReduction : Obligations.InNetworkReduction := by
  unfold Obligations.InNetworkReduction
  refine ⟨fun p k s h => ⟨_, cpart_other h, rfl⟩, ?_, ?_, ?_, ?_, ?_, ?_, ?_, ?_, ?_, ?_⟩
  · intro p k u s hop hu hg
    refine ⟨_, (?_ : execCpart p k s = _), rfl⟩
    simp only [execCpart, hop, hu, hg, ne_eq, not_true, if_false, Bool.not_false, if_true]
    rfl
  · intro p k u v s hop hu hg hv hf
    subst hv
    refine ⟨_, (?_ : execCpart p k s = _), rfl⟩
    simp only [execCpart, hop, hu, hg, hf, ne_eq, not_true, if_false, Bool.not_true, Bool.false_eq_true]
  · intro p k u v r s hop hu hg hv hf hbad
    subst hv
    refine ⟨_, (?_ : execCpart p k s = _), rfl⟩
    simp only [execCpart, hop, hu, hg, hf, not_true, if_false, Bool.not_true, Bool.false_eq_true, hbad, if_true, ne_eq]
  · intro p k u v r s hop hu hg hv hf hgood hconf
    have hkeep : v.fabric.colls = s.fabric.colls ∧ v.mem = s.mem := by
      subst hv
      exact ⟨(noteNode_colls ..).trans ((checkSeq_colls ..).trans (congrArg Fabric.colls (takeIn_fabric hu))),
        ((noteNode_keeps ..).mem rfl).trans (((checkSeq_keeps ..).mem rfl).trans (takeIn_mem hu))⟩
    obtain ⟨hcolls, hmem⟩ := hkeep
    have hk := countLog_keeps Obj.collSlotConflicts 2 0 (rimSite r.rim) (instSlot r (pkSpecC k.hdr)) (leBytes 2 (pkSpecC k.hdr)) v
    refine ⟨_, (?_ : execCpart p k s = _), rfl, (congrArg Fabric.colls (hk.fabric rfl)).trans hcolls, (hk.mem rfl).trans hmem⟩
    subst hv
    simp only [execCpart, hop, hu, hg, hf, not_true, if_false, Bool.not_true, Bool.false_eq_true, hgood, ne_eq]
    rw [if_pos hconf]
  · intro p k u v r w s hop hu hg hv hf hgood hfree hw hrim
    subst hv hw
    refine ⟨_, (?_ : execCpart p k s = _), rfl⟩
    simp only [execCpart, hop, hu, hg, hf, not_true, if_false, Bool.not_true, Bool.false_eq_true, hgood, ne_eq]
    rw [if_neg hfree, if_pos hrim, hrim]
  · intro p k u v r w s hop hu hg hv hf hgood hfree hw hrim
    subst hv hw
    refine ⟨_, (?_ : execCpart p k s = _), rfl⟩
    simp only [execCpart, hop, hu, hg, hf, not_true, if_false, Bool.not_true, Bool.false_eq_true, hgood, ne_eq]
    rw [if_neg hfree, if_neg hrim]
  · intro r slot arm off data s u place x hp ha hx hu hc
    rw [addPart_arm hp ha hx hu, if_pos hc]
  · intro r slot arm off data s u place x hp ha hx hu hc
    rw [addPart_arm hp ha hx hu, if_neg (by rw [hc]; decide)]
  · intro rim slot s x hx b hb hd
    refine ⟨s, (?_ : execCollTimeout rim slot s = _), rfl⟩
    simp only [execCollTimeout, Option.mem_def.mp hx, Option.mem_def.mp hb, if_pos hd]
  · intro rim slot r first b s ho hb hd
    exact ⟨_, collTimeout_due ho hb hd, timeOutSlot_result r first s⟩

end Sys2Proof.Machine

end

section

/-! PROOFS. Data frames that their receiver discards, relays or refuses (O40, R129, R130, R145). -/

namespace Sys2Proof.Machine

section
variable {n op : Nat} {f g : Frame} {here : Nat → Frame → State → State} {free : Bool} {s u : State}

/-- A frame that the receiver does not accept. -/
theorem deliverFrame_none (h : receive n op f s = (none, u)) : deliverFrame n op f here free s = u ∧ u.mem = s.mem := by
  have hk := receive_keeps n op f s
  rw [h] at hk
  exact ⟨by simp only [deliverFrame, acceptData, h], hk.mem rfl⟩

/-- An accepted frame for a site that is not assigned. -/
theorem deliverFrame_unassigned (h : receive n op f s = (some g, u)) (hd : 29 ≤ hDest g.hdr) :
    deliverFrame n op f here free s = freeCredit n (rxBuffer n g.hdr) (u.count Obj.unassignedSiteDiscards 1) ∧
      (deliverFrame n op f here free s).mem = s.mem := by
  have hk := receive_keeps n op f s
  rw [h] at hk
  have he : deliverFrame n op f here free s = freeCredit n (rxBuffer n g.hdr) (u.count Obj.unassignedSiteDiscards 1) := by
    simp only [deliverFrame, acceptData, h, if_pos hd]
  exact ⟨he, by rw [he]; exact hk.mem rfl⟩

/-- An accepted frame for another site. -/
theorem deliverFrame_elsewhere (h : receive n op f s = (some g, u)) (hd : hDest g.hdr < 29)
    (hs : hDest g.hdr ≠ (stringEnds n).2) :
    deliverFrame n op f here free s = freeCredit n (rxBuffer n g.hdr)
        (if hRelay g.hdr = true then forwardFrame (stringEnds n).2 g u else u.count Obj.refusedAddresses 1) ∧
      (deliverFrame n op f here free s).mem = s.mem := by
  have hk := receive_keeps n op f s
  rw [h] at hk
  have he : deliverFrame n op f here free s = freeCredit n (rxBuffer n g.hdr)
      (if hRelay g.hdr = true then forwardFrame (stringEnds n).2 g u else u.count Obj.refusedAddresses 1) := by
    simp only [deliverFrame, acceptData, h, if_neg (Nat.not_le.mpr hd), if_pos hs]
  refine ⟨he, ?_⟩
  rw [he]
  split
  · exact ((forwardFrame_keeps ..).mem rfl).trans (hk.mem rfl)
  · exact hk.mem rfl

end

/-- Settles O40: each of the eight commands is `deliverFrame` of its opcode. -/
theorem frameDelivery : Obligations.FrameDelivery := by
  unfold Obligations.FrameDelivery
  refine ⟨?_, ?_, ?_, ?_, ?_, ?_, ?_, ?_, ?_, ?_, ?_, ?_, ?_, ?_, ?_, ?_, ?_, ?_, ?_, ?_, ?_, ?_, ?_, ?_, ?_⟩
  case refine_25 =>
    rintro site m f x s rfl rfl
    rfl
  all_goals intro n f
  case refine_1 | refine_4 | refine_7 | refine_10 | refine_13 | refine_16 | refine_19 | refine_22 =>
    intro u s h
    obtain ⟨he, hm⟩ := deliverFrame_none h
    exact ⟨_, rfl, he, (congrArg State.mem he).trans hm⟩
  case refine_2 | refine_5 | refine_8 | refine_11 | refine_14 | refine_17 | refine_20 | refine_23 =>
    exact fun g u s h hd => ⟨_, rfl, deliverFrame_unassigned h hd⟩
  all_goals exact fun g u s h hd hs => ⟨_, rfl, deliverFrame_elsewhere h hd hs⟩

end Sys2Proof.Machine

end

section

/-! PROOFS. Frames leave and arrive at a string (O22, R127 to R136). -/

namespace Sys2Proof.Machine

/-- A string and the one of the other direction are two, but for the buses. -/
theorem reverseString_ne {n : Nat} (h : isBus n = false) : reverseString n ≠ n := by
  have hn : n < 1076 := Nat.lt_of_not_le (of_decide_eq_false h)
  unfold reverseString
  split
  · next hs =>
    simp only [stringEnds, if_pos hs, primaryString]
    split <;> split <;> omega
  · split
    · omega
    · split
      · omega
      · split
        · omega
        · omega

theorem stringLive_not_bus {s : State} {n : Nat} (h : stringLive s n = true) : isBus n = false := by
  rw [stringLive, Bool.and_eq_true, Bool.not_eq_true'] at h
  exact h.1

/-- Setting a string keeps what a string says of f where the new value keeps it. -/
theorem str_setStr_field {α : Type} (f : Str → α) {m : Nat} {x : Str} {s : State} (h : f x = f (s.str m)) (n : Nat) :
    f ((s.setStr m x).str n) = f (s.str n) := by
  by_cases hn : n = m
  · rw [hn, State.str_setStr, h]
  · rw [State.str_setStr_other _ _ hn]

/-! One frame leaves. -/

/-- One frame went on string n, and its frame count stands. -/
def FrameSent (n : Nat) (s t : State) : Prop :=
  (∃ f w, t.out = s.out ++ [.frame n f w]) ∧ (t.str n).count = (s.str n).count

/-- What comes before the frame sends nothing and keeps the count. -/
theorem FrameSent.after {n : Nat} {s u t : State} (h : FrameSent n u t) (ho : u.out = s.out)
    (hc : (u.str n).count = (s.str n).count) : FrameSent n s t := by
  obtain ⟨hf, hcount⟩ := h
  exact ⟨ho ▸ hf, hcount.trans hc⟩

theorem emitFrame_sent (n : Nat) (f : Frame) (s : State) : FrameSent n s (emitFrame n f s) :=
  ⟨⟨f, _, rfl⟩, by rw [emitFrame, State.str_setStr]⟩

theorem putFrame_sent (n : Nat) (h : BitVec 96) (seq : Nat) (payload : Bytes) (s : State) :
    FrameSent n s (putFrame n h seq payload s) := by
  unfold putFrame
  dsimp only
  split
  · exact (emitFrame_sent ..).after rfl (str_setStr_field Str.count (by rfl) n)
  · exact emitFrame_sent ..

theorem takeRelay_count {n : Nat} {s u : State} {p : Bytes} (h : takeRelay n s = some (p, u)) :
    u.out = s.out ∧ (u.str n).count = (s.str n).count := by
  unfold takeRelay at h
  dsimp only at h
  split at h
  · obtain ⟨-, rfl⟩ := Prod.mk.inj (Option.some.inj h)
    exact ⟨rfl, str_setStr_field Str.count (by rfl) n⟩
  · cases h

theorem sendMap_count (n : Nat) (p : Bytes) (s : State) :
    (sendMap n p s).2.out = s.out ∧ ((sendMap n p s).2.str n).count = (s.str n).count := by
  unfold sendMap
  dsimp only
  split
  · exact ⟨rfl, rfl⟩
  · exact ⟨rfl, str_setStr_field Str.count (by rfl) n⟩

theorem takeCtrl_count {n : Nat} {s u : State} {p : Bytes} (h : takeCtrl n s = some (p, u)) :
    u.out = s.out ∧ (u.str n).count = (s.str n).count := by
  unfold takeCtrl at h
  dsimp only at h
  split at h
  · obtain ⟨-, rfl⟩ := Prod.mk.inj (Option.some.inj h)
    exact ⟨rfl, rfl⟩
  · split at h
    · obtain ⟨-, rfl⟩ := Prod.mk.inj (Option.some.inj h)
      exact ⟨rfl, str_setStr_field Str.count (by rfl) n⟩
    · split at h
      · obtain ⟨-, rfl⟩ := Prod.mk.inj (Option.some.inj h)
        exact ⟨rfl, str_setStr_field Str.count (by rfl) n⟩
      · split at h
        · next c q _ =>
          have hu := congrArg Prod.snd (Option.some.inj h)
          dsimp only at hu
          subst hu
          have hs : ((s.setStr n { s.str n with ctrlq := q }).str n).count = (s.str n).count :=
            str_setStr_field Str.count (by rfl) n
          split
          · exact ⟨(sendMap_count n c _).1, (sendMap_count n c _).2.trans hs⟩
          · exact ⟨rfl, hs⟩
        · exact takeRelay_count h

theorem ctrlOrIdle_sent (n : Nat) (s : State) : FrameSent n s (ctrlOrIdle n s) := by
  unfold ctrlOrIdle
  split
  · next c u h => exact (putFrame_sent ..).after (takeCtrl_count h).1 (takeCtrl_count h).2
  · exact putFrame_sent ..

/-- An injected fault counts, and IDLE goes instead of the frame. -/
theorem frameOrIdle_sent {n : Nat} {h : BitVec 96} {seq : Nat} {payload : Bytes} {c : Prop} [Decidable c] {s u : State}
    (ho : u.out = s.out) (hc : (u.str n).count = (s.str n).count) :
    FrameSent n s (if c then putIdle n (if c then u.count Obj.sfiEvents 1 else u)
      else putFrame n h seq payload (if c then u.count Obj.sfiEvents 1 else u)) := by
  split
  · exact FrameSent.after (putFrame_sent ..) ho hc
  · exact FrameSent.after (putFrame_sent ..) ho hc

theorem sendNew_sent (n c : Nat) (f : TxFrame) (s : State) : FrameSent n s (sendNew n c f s) :=
  frameOrIdle_sent (by rfl) (str_setStr_field Str.count (by rfl) n)

theorem resendFrame_sent (n : Nat) (q : Byte) (f : TxFrame) (rest : List (Byte × TxFrame)) (s : State) :
    FrameSent n s (resendFrame n q f rest s) :=
  (putFrame_sent ..).after rfl (str_setStr_field Str.count (by rfl) n)

theorem traceSlot_sent (n : Nat) (free : Bool) (s : State) : FrameSent n s (traceSlot n free s) := by
  unfold traceSlot
  dsimp only
  split
  · exact ctrlOrIdle_sent n s
  · split
    · exact ctrlOrIdle_sent n s
    · next r u hr =>
      have hk := traceTake_keeps_eqk (m := 68719476736) (by decide) hr (Keeps.refl _ s)
      split
      · exact (sendNew_sent ..).after (hk.out rfl) (by rw [State.str_setStr])
      · exact ctrlOrIdle_sent n s

theorem sendPick_sent {n : Nat} {owner : Option Nat} {slot : Nat} {free : Bool} {idle : State → State} {s : State}
    (h : FrameSent n s (idle s)) : FrameSent n s (sendPick n owner slot free idle s) := by
  unfold sendPick
  dsimp only
  split
  · split
    · exact (sendNew_sent ..).after rfl (str_setStr_field Str.count (by rfl) n)
    · exact h
  · exact h

theorem sendChoice_sent (n : Nat) (s : State) : FrameSent n s (sendChoice n s) := by
  unfold sendChoice
  dsimp only
  split
  · split
    · split
      · split
        · exact sendNew_sent ..
        · exact sendNew_sent ..
        · exact sendNew_sent ..
        · exact sendNew_sent ..
        · exact ctrlOrIdle_sent ..
      · exact ctrlOrIdle_sent ..
    · exact (putFrame_sent ..).after rfl (str_setStr_field Str.count (by rfl) n)
  · split
    · split
      · exact resendFrame_sent ..
      · exact sendPick_sent (putFrame_sent ..)
    · split
      · split
        · exact ctrlOrIdle_sent ..
        · exact resendFrame_sent ..
      · split
        · next c u h =>
          have ht : takeRelay n s = some (c, u) := by
            split at h
            · exact h
            · cases h
          exact (putFrame_sent ..).after (takeRelay_count ht).1 (takeRelay_count ht).2
        · exact sendPick_sent (traceSlot_sent ..)

/-- FRAME_TIME of a live string. -/
theorem frameTime_live {n : StringId} {s : State} (h : stringLive s n.val = true) :
    exec (.frameTime n) s = .next (let u := injectAlarms 64 n.val s
      let v := if (u.str n.val).state = 6 then ctrlOrIdle n.val u else sendChoice n.val u
      v.setStr n.val { v.str n.val with count := (v.str n.val).count + 1 }) := by
  show execFrameTime n s = _
  simp only [execFrameTime, h, stringLive_not_bus h, Bool.false_eq_true, if_false, Bool.not_true]

theorem injectAlarms_none {fuel n : Nat} {s : State} (h : (s.str n).inject.mode ≠ 4) : injectAlarms fuel n s = s := by
  cases fuel with
  | zero => rfl
  | succ fuel => exact if_neg fun hc => h hc.1

/-! A new frame. -/

/-- A new frame of a string without injection: its number, its place in the retry buffer and the credit it spends. -/
theorem sendNew_plain {n c : Nat} {f : TxFrame} {s : State} (hi : (s.str n).inject.mode = 0) (hr : (s.str n).resend = []) :
    sendNew n c f s = putFrame n f.hdr (s.str n).txSeq.toNat f.payload (s.setStr n { s.str n with
      txSeq := (s.str n).txSeq + 1, unacked := (s.str n).unacked ++ [((s.str n).txSeq, { f with sent := s.beat })]
      spent := tset (rxBuffer n f.hdr) (tget 0 (rxBuffer n f.hdr) (s.str n).spent + 1) (s.str n).spent
      txq := tset c ((tget [] c (s.str n).txq).filter (fun g => g.n != f.n)) (s.str n).txq
      lastSrc := tset c (sourceOf f) (s.str n).lastSrc }) := by
  have hresend : (if (s.str n).resend.isEmpty = true then [] else
      (s.str n).resend ++ [((s.str n).txSeq, { f with sent := s.beat })]) = (s.str n).resend := by
    rw [hr]
    rfl
  have hmode : ((s.str n).inject.mode == 1 || (s.str n).inject.mode == 3) = false := by
    rw [hi]
    rfl
  unfold sendNew
  dsimp only
  rw [hresend]
  simp only [hmode, Bool.false_and, Bool.false_eq_true, if_false]
  rfl

theorem emitFrame_str (n : Nat) (f : Frame) (s : State) : ∃ scr, (emitFrame n f s).str n = { s.str n with scr := scr } :=
  ⟨_, State.str_setStr ..⟩

theorem emitFrame_str_other {n k : Nat} (f : Frame) (s : State) (h : k ≠ n) : (emitFrame n f s).str k = s.str k :=
  State.str_setStr_other _ _ h

/-- What the header of a frame takes from the reverse string, which only reports a credit. -/
theorem putFrame_result {n : Nat} (hb : reverseString n ≠ n) (h : BitVec 96) (seq : Nat) (payload : Bytes) (s : State) :
    (∃ scr, (putFrame n h seq payload s).str n = { s.str n with scr := scr }) ∧
      (∀ k, k ≠ n → ∃ l, (putFrame n h seq payload s).str k = { s.str k with unreported := l }) ∧
      (∃ ack cls cnt w, (putFrame n h seq payload s).out = s.out ++ [.frame n (mkFrame (withLink h n seq ack cls cnt) payload) w]) := by
  unfold putFrame
  dsimp only
  split
  · next b _ =>
    refine ⟨?_, fun k hk => ?_, _, _, _, _, rfl⟩
    · rw [← State.str_setStr_other s { s.str (reverseString n) with
        unreported := (s.str (reverseString n)).unreported.filter (· != b) } hb.symm]
      exact emitFrame_str ..
    · rw [emitFrame_str_other _ _ hk]
      by_cases hm : k = reverseString n
      · exact ⟨(s.str k).unreported.filter (· != b), by subst hm; exact State.str_setStr ..⟩
      · exact ⟨(s.str k).unreported, State.str_setStr_other _ _ hm⟩
  · exact ⟨emitFrame_str .., fun k hk => ⟨_, emitFrame_str_other _ _ hk⟩, _, _, _, _, rfl⟩

theorem queueHeads_subset {l : List TxFrame} {seen : List Nat} {f : TxFrame} (h : f ∈ queueHeads l seen) : f ∈ l := by
  induction l generalizing seen with
  | nil => cases h
  | cons x r ih =>
    rw [queueHeads] at h
    split at h
    · exact List.mem_cons_of_mem _ (ih h)
    · rcases List.mem_cons.mp h with rfl | h
      · exact List.mem_cons_self ..
      · exact List.mem_cons_of_mem _ (ih h)

/-- The frame that a class sends is a frame of its queue that the slot allows. -/
theorem classPick_some {n : Nat} {t : Str} {owner : Option Nat} {slot c : Nat} {f : TxFrame}
    (h : classPick n t owner slot c = some f) : f ∈ tget [] c t.txq ∧ slotAllows owner slot f = true := by
  suffices hin : ∀ x, classPick n t owner slot c = some x → x ∈ (queueHeads (tget [] c t.txq) []).filter
      (fun f => slotAllows owner slot f && hasCredit n t f && inOrder n t f) by
    obtain ⟨hq, ha⟩ := List.mem_filter.mp (hin f h)
    rw [Bool.and_eq_true, Bool.and_eq_true] at ha
    exact ⟨queueHeads_subset hq, ha.1.1⟩
  unfold classPick
  dsimp only
  refine List.foldlRecOn _ _ (motive := fun o => ∀ x, o = some x → x ∈ (queueHeads (tget [] c t.txq) []).filter
      (fun f => slotAllows owner slot f && hasCredit n t f && inOrder n t f)) (fun x hx => nomatch hx) ?_
  intro o ih g hg x hx
  split at hx
  · rw [← Option.some.inj hx]
    exact hg
  · split at hx
    · rw [← Option.some.inj hx]
      exact hg
    · exact ih x hx

/-- In a slot that a window has reserved only its own frames go (R134). -/
theorem slotAllows_win {w slot : Nat} {f : TxFrame} (h : slotAllows (some w) slot f = true) : f.win = some w := by
  rw [slotAllows, Bool.and_eq_true] at h
  exact beq_iff_eq.mp h.1

theorem sendPick_idle {n slot : Nat} {owner : Option Nat} {free : Bool} {idle : State → State} {s : State}
    (h : ∀ c, c < 4 → classPick n (s.str n) owner slot c = none) : sendPick n owner slot free idle s = idle s := by
  have hready : (if free = true then [0, 1, 2, 3].filter (fun c => (classPick n (s.str n) owner slot c).isSome) else []) = [] := by
    split
    · simp [h]
    · rfl
  unfold sendPick
  dsimp only
  rw [hready]
  rfl

/-- A reserved slot without a frame of its window sends IDLE. -/
theorem sendChoice_reserved {n w : Nat} {s : State} (hswap : (s.str n).swap = [])
    (ho : stringOwner s n ((s.str n).count.toNat % 16) = some w) (hr : ∀ x ∈ (s.str n).resend, x.2.win ≠ some w)
    (hq : ∀ c, c < 4 → ∀ g ∈ tget [] c (s.str n).txq, g.win ≠ some w) : sendChoice n s = putIdle n s := by
  have hresend : (if (s.str n).held = true then none else
      (s.str n).resend.find? (fun x => slotAllows (some w) ((s.str n).count.toNat % 16) x.2)) = none := by
    split
    · rfl
    · exact List.find?_eq_none.mpr fun x hx hs => hr x hx (slotAllows_win hs)
  have hpick : ∀ c, c < 4 → classPick n (s.str n) (some w) ((s.str n).count.toNat % 16) c = none := by
    intro c hc
    refine Option.eq_none_iff_forall_ne_some.mpr fun f hf => ?_
    obtain ⟨hf, ha⟩ := classPick_some hf
    exact hq c hc f hf (slotAllows_win ha)
  unfold sendChoice
  dsimp only
  rw [hswap, ho]
  simp only [Option.isSome_some, if_true, hresend]
  exact sendPick_idle hpick

theorem sendPick_class {n c slot : Nat} {owner : Option Nat} {free : Bool} {idle : State → State} {f : TxFrame} {s : State}
    (ht : classTurn (s.str n) (if free then [0, 1, 2, 3].filter (fun c => (classPick n (s.str n) owner slot c).isSome) else []) = some c)
    (hc : classPick n (s.str n) owner slot c = some f) :
    ∃ p, sendPick n owner slot free idle s = sendNew n c f (s.setStr n { s.str n with passed := p }) := by
  unfold sendPick
  dsimp only
  rw [ht]
  dsimp only
  rw [hc]
  exact ⟨_, rfl⟩

/-- Without a swap, a retransmission or credits that are due, the classes take their turns. -/
theorem sendChoice_pick {n : Nat} {own : Option Nat} {s : State} (hswap : (s.str n).swap = []) (hr : (s.str n).resend = [])
    (ho : stringOwner s n ((s.str n).count.toNat % 16) = own) (hd : own ≠ none ∨ relayDue n s = false) :
    ∃ idle, sendChoice n s = sendPick n own ((s.str n).count.toNat % 16)
      (!(s.str n).held && !(s.str n).stopped && decide ((s.str n).unacked.length < 64)) idle s := by
  unfold sendChoice
  dsimp only
  rw [hswap, hr, ho]
  cases own with
  | none => exact ⟨_, by simp [hd.resolve_left fun h => h rfl]; rfl⟩
  | some w => exact ⟨putIdle n, by simp⟩

/-- A new frame of a string without injection goes whole. -/
theorem frameTime_new {n : StringId} {c : Nat} {f : TxFrame} {own : Option Nat} {s : State} (hst : (s.str n.val).state ≤ 2)
    (hb : isBus n.val = false) (hi : (s.str n.val).inject.mode = 0) (hswap : (s.str n.val).swap = [])
    (hr : (s.str n.val).resend = []) (ho : stringOwner s n.val ((s.str n.val).count.toNat % 16) = own)
    (hd : own ≠ none ∨ relayDue n.val s = false)
    (ht : classTurn (s.str n.val) (if (s.str n.val).held = false ∧ (s.str n.val).stopped = false ∧ (s.str n.val).unacked.length < 64 then
      [0, 1, 2, 3].filter (fun c => (classPick n.val (s.str n.val) own ((s.str n.val).count.toNat % 16) c).isSome) else []) = some c)
    (hc : classPick n.val (s.str n.val) own ((s.str n.val).count.toNat % 16) c = some f) :
    ∃ p, exec (.frameTime n) s = .next (let x : Str := { s.str n.val with
        txSeq := (s.str n.val).txSeq + 1, unacked := (s.str n.val).unacked ++ [((s.str n.val).txSeq, { f with sent := s.beat })]
        spent := tset (rxBuffer n.val f.hdr) (tget 0 (rxBuffer n.val f.hdr) (s.str n.val).spent + 1) (s.str n.val).spent
        txq := tset c ((tget [] c (s.str n.val).txq).filter (fun g => g.n != f.n)) (s.str n.val).txq
        lastSrc := tset c (sourceOf f) (s.str n.val).lastSrc, passed := p }
      let v := putFrame n.val f.hdr (s.str n.val).txSeq.toNat f.payload ((s.setStr n.val { s.str n.val with passed := p }).setStr n.val x)
      v.setStr n.val { v.str n.val with count := (v.str n.val).count + 1 }) := by
  have hl : stringLive s n.val = true := by simp [stringLive, hb, hst]
  have h6 : (s.str n.val).state ≠ 6 := by omega
  obtain ⟨idle, hpick⟩ := sendChoice_pick hswap hr ho hd
  obtain ⟨p, hnew⟩ := sendPick_class (idle := idle)
    (free := !(s.str n.val).held && !(s.str n.val).stopped && decide ((s.str n.val).unacked.length < 64))
    (by simpa [and_assoc] using ht) hc
  refine ⟨p, ?_⟩
  rw [frameTime_live hl, injectAlarms_none (by omega)]
  dsimp only
  rw [if_neg h6, hpick, hnew, sendNew_plain (by rw [State.str_setStr]; exact hi) (by rw [State.str_setStr]; exact hr),
    State.str_setStr]
  rfl

/-! One frame arrives. -/

theorem injectRx_none {n : Nat} {f : Frame} {s : State} (h : (s.str n).inject.mode ≠ 2) : injectRx n f s = (f, s) :=
  if_neg fun hc => h hc.1

/-- The place of a number among the unacknowledged frames. -/
def ackPlace (t : Str) (a : Nat) : Option Nat :=
  (List.range t.unacked.length).find? (fun i => ((t.unacked.map (fun x => x.1.toNat)).getD i 256) == a)

/-- A string whose frames up to place i are acknowledged. -/
def ackedStr (t : Str) (i : Nat) : Str :=
  { t with
    unacked := t.unacked.drop (i + 1), timeouts := 0
    resend := t.resend.filter (fun x => !((t.unacked.take (i + 1)).any (fun d => d.1 == x.1)))
    swap := t.swap.filter (fun x => !((t.unacked.take (i + 1)).any (fun d => d.1 == x.1))) }

theorem ackTo_unknown {n a : Nat} {s : State} (h : ackPlace (s.str n) a = none) : ackTo n a s = s := by
  unfold ackTo
  dsimp only
  rw [ackPlace] at h
  rw [h]

/-- The strings after an acknowledgement: the senders' channels are told beside them. -/
theorem ackTo_strings {n a i : Nat} {s : State} (h : ackPlace (s.str n) a = some i) :
    (ackTo n a s).strings = (s.setStr n (ackedStr (s.str n) i)).strings := by
  unfold ackTo
  dsimp only
  rw [ackPlace] at h
  rw [h]
  refine Keeps.strings (m := 1048592) (Keeps.foldl (Keeps.refl _ _) fun x b hx => ?_) rfl
  split
  · exact chanFrameDone_keeps_k (by decide) hx
  · exact hx

theorem ackTo_str_other {n k a : Nat} {s : State} (h : k ≠ n) : (ackTo n a s).str k = s.str k := by
  cases hp : ackPlace (s.str n) a with
  | none => rw [ackTo_unknown hp]
  | some i =>
    rw [State.str, ackTo_strings hp]
    exact State.str_setStr_other _ _ h

/-- The oldest frame is acknowledged. -/
theorem ackTo_first {n : Nat} {q : Byte} {x : TxFrame} {rest : List (Byte × TxFrame)} {s : State}
    (h : (s.str n).unacked = (q, x) :: rest) :
    ((ackTo n q.toNat s).str n).unacked = rest ∧ ((ackTo n q.toNat s).str n).timeouts = 0 := by
  have hp : ackPlace (s.str n) q.toNat = some 0 := by
    rw [ackPlace, h, List.length_cons, List.range_succ_eq_map, List.find?_cons]
    simp
  have hstr : (ackTo n q.toNat s).str n = ackedStr (s.str n) 0 := by
    rw [State.str, ackTo_strings hp]
    exact State.str_setStr ..
  rw [hstr]
  exact ⟨congrArg (List.drop 1) h, rfl⟩

theorem creditTo_str (n b mod v : Nat) (s : State) :
    ((creditTo n b mod v s).str n).unacked = (s.str n).unacked ∧ ((creditTo n b mod v s).str n).timeouts = (s.str n).timeouts :=
  ⟨str_setStr_field Str.unacked (by rfl) n, str_setStr_field Str.timeouts (by rfl) n⟩

theorem creditTo_str_other {n k : Nat} (b mod v : Nat) (s : State) (h : k ≠ n) : (creditTo n b mod v s).str k = s.str k :=
  State.str_setStr_other _ _ h

/-- A frame of string n speaks of the other direction alone. -/
theorem linkIn_str_other {n k : Nat} {h : BitVec 96} {s : State} (hk : k ≠ reverseString n) :
    (linkIn n h s).str k = s.str k := by
  unfold linkIn
  dsimp only
  split
  · rfl
  · split
    · rw [creditTo_str_other _ _ _ _ hk, ackTo_str_other hk]
    · rw [creditTo_str_other _ _ _ _ hk, ackTo_str_other hk]

theorem linkIn_first {n : Nat} {h : BitVec 96} {q : Byte} {x : TxFrame} {rest : List (Byte × TxFrame)} {s : State}
    (hst : (s.str (reverseString n)).state ≤ 2) (hu : (s.str (reverseString n)).unacked = (q, x) :: rest)
    (ha : hAck h = q.toNat) : ((linkIn n h s).str (reverseString n)).unacked = rest ∧
      ((linkIn n h s).str (reverseString n)).timeouts = 0 := by
  obtain ⟨hack, htime⟩ := ackTo_first hu
  unfold linkIn
  dsimp only
  rw [if_neg (Nat.not_lt.mpr hst), ha]
  split
  · exact ⟨(creditTo_str ..).1.trans hack, (creditTo_str ..).2.trans htime⟩
  · exact ⟨(creditTo_str ..).1.trans hack, (creditTo_str ..).2.trans htime⟩

section
variable {n op : Nat} {f : Frame} {s : State}

theorem receive_bad (hl : stringLive s n = true) (hi : (s.str n).inject.mode ≠ 2) (hf : frameOk n f = false) :
    receive n op f s = (none, s.count Obj.crcErrors 1) := by
  simp [receive, hl, injectRx_none hi, hf]

theorem receive_unassigned (hl : stringLive s n = true) (hi : (s.str n).inject.mode ≠ 2) (hf : frameOk n f = true)
    (ho : hOp f.hdr = op) (hq : opSequenced op = false) (hd : 29 ≤ hDest f.hdr) :
    receive n op f s = (none, s.count Obj.unassignedSiteDiscards 1) := by
  simp [receive, hl, injectRx_none hi, hf, ho, hq, hd]

theorem receive_plain (hl : stringLive s n = true) (hi : (s.str n).inject.mode ≠ 2) (hf : frameOk n f = true)
    (ho : hOp f.hdr = op) (hq : opSequenced op = false) (hd : hDest f.hdr < 29) :
    receive n op f s = (some f, linkIn n f.hdr s) := by
  simp [receive, hl, injectRx_none hi, hf, ho, hq, Nat.not_le.mpr hd]

theorem linkIn_own_string (hl : stringLive s n = true) : (linkIn n f.hdr s).str n = s.str n :=
  linkIn_str_other (reverseString_ne (stringLive_not_bus hl)).symm

theorem receive_sequenced (hl : stringLive s n = true) (hi : (s.str n).inject.mode ≠ 2) (hf : frameOk n f = true)
    (ho : hOp f.hdr = op) (hq : opSequenced op = true) (hst : (s.str n).state ≤ 2) (hs : hSeq f.hdr = (s.str n).rxSeq.toNat) :
    receive n op f s = (some f, (linkIn n f.hdr s).setStr n
      { s.str n with rxSeq := (s.str n).rxSeq + 1, rxAck := (s.str n).rxSeq }) := by
  have h6 : (s.str n).state ≠ 6 := by omega
  simp [receive, hl, injectRx_none hi, hf, ho, hq, linkIn_own_string hl, h6, hs]

theorem receive_other_number (hl : stringLive s n = true) (hi : (s.str n).inject.mode ≠ 2) (hf : frameOk n f = true)
    (ho : hOp f.hdr = op) (hq : opSequenced op = true) (hs : (s.str n).state = 6 ∨ hSeq f.hdr ≠ (s.str n).rxSeq.toNat) :
    receive n op f s = (none, linkIn n f.hdr s) := by
  simp [receive, hl, injectRx_none hi, hf, ho, hq, linkIn_own_string hl, hs]

end

/-- Settles O22: one frame for each way through `sendChoice`, and the branches of `receive`. -/
theorem frameTimes : Obligations.FrameTimes := by
  unfold Obligations.FrameTimes
  refine ⟨?_, ?_, ?_, ?_, ?_, ?_, ?_, ?_, ?_, ?_, ?_, ?_, ?_, ?_, ?_, ?_⟩
  · intro n s hl hi
    have hsent : FrameSent n.val s (if (s.str n.val).state = 6 then ctrlOrIdle n.val s else sendChoice n.val s) := by
      split
      · exact ctrlOrIdle_sent ..
      · exact sendChoice_sent ..
    have he := frameTime_live hl
    rw [injectAlarms_none hi] at he
    dsimp only at he
    refine ⟨_, he, hsent.1, ?_, Keeps.eq (m := 1890420401523) (State_setStr_keeps_k (by decide) ?_)⟩
    · rw [State.str_setStr, hsent.2]
    · split
      · exact (ctrlOrIdle_keeps ..).mono (by decide)
      · exact (sendChoice_keeps ..).mono (by decide)
  · intro n u v s hl hu hv
    subst hu hv
    exact ⟨_, frameTime_live hl, rfl⟩
  · intro n c f own s hst hb hi hswap hr ho hd ht hc
    obtain ⟨p, he⟩ := frameTime_new hst hb hi hswap hr ho hd ht hc
    obtain ⟨⟨scr, hn⟩, hother, ack, cls, cnt, w, hout⟩ := putFrame_result (reverseString_ne hb) f.hdr
      (s.str n.val).txSeq.toNat f.payload (State.setStr _ n.val _)
    refine ⟨_, he, ?_, fun w hw => slotAllows_win (hw ▸ (classPick_some hc).2), fun k hk => ?_, ack, cls, cnt, w, hout, ?_⟩
    · dsimp only
      rw [State.str_setStr, hn, State.str_setStr]
    · obtain ⟨l, hl⟩ := hother k hk
      dsimp only
      rw [State.str_setStr_other _ _ hk, hl, State.str_setStr_other _ _ hk, State.str_setStr_other _ _ hk]
    · exact (State_setStr_keeps_k (m := 549755814912) (by decide) (putFrame_keeps_k (by decide) (State_setStr_keeps_k (by decide)
        (State_setStr_keeps_k (by decide) (Keeps.refl _ s))))).eq
  · intro n s hb hp
    refine ⟨_, (?_ : execFrameTime n s = _), rfl⟩
    simp only [execFrameTime, hb, hp, if_true]
  · rintro n s (⟨hb, hp⟩ | ⟨hb, hl⟩)
    · refine ⟨s, (?_ : execFrameTime n s = _), rfl⟩
      simp only [execFrameTime, hb, hp, if_true, Bool.false_eq_true, if_false]
    · refine ⟨s, (?_ : execFrameTime n s = _), rfl⟩
      simp only [execFrameTime, hb, hl, Bool.not_false, if_true, Bool.false_eq_true, if_false]
  · intro n q f r s hswap hr hh ho
    simp [sendChoice, hswap, hr, hh, ho]
  · intro n p s u hswap hr hd ho ht
    simp [sendChoice, hswap, hr, hd, ho, ht]
  · intro n w s hswap ho hr hq
    exact sendChoice_reserved hswap ho hr hq
  · intro n f s hb
    refine ⟨_, (?_ : execIdleFrame n f s = _), rfl⟩
    simp only [execIdleFrame, hb, Bool.false_eq_true, if_false]
  · intro n f s hb
    refine ⟨_, (?_ : execIdleFrame n f s = _), rfl⟩
    simp only [execIdleFrame, hb, if_true]
  · intro n f q x rest s hl ho hd hi hf hst hu ha
    have he : exec (.idleFrame n f) s = .next (linkIn n.val f.hdr s) := by
      show execIdleFrame n f s = _
      rw [execIdleFrame, stringLive_not_bus hl, receive_plain hl hi hf ho rfl hd]
      rfl
    obtain ⟨hun, htime⟩ := linkIn_first hst hu ha
    exact ⟨_, he, hun, htime, fun k hk => linkIn_str_other hk, (linkIn_keeps ..).eq⟩
  · exact fun n op f s => receive_bad
  · exact fun n op f s => receive_unassigned
  · exact fun n op f s => receive_plain
  · exact fun n op f s => receive_sequenced
  · exact fun n op f s => receive_other_number

end Sys2Proof.Machine

end

section

/-! PROOFS. Route activation, drain and coordination (O32, R217 to R219). -/

namespace Sys2Proof.Machine

/-! What a packet on its way leaves of the drain. -/

/-- The coordinator and the time of its last query stand. -/
def CoordKept (s t : State) : Prop := t.fabric.queried = s.fabric.queried ∧ t.fabric.coord = s.fabric.coord

theorem CoordKept.refl (s : State) : CoordKept s s := ⟨rfl, rfl⟩

theorem CoordKept.trans {s t u : State} (h : CoordKept s t) (k : CoordKept t u) : CoordKept s u :=
  ⟨k.1.trans h.1, k.2.trans h.2⟩

theorem CoordKept.of_fabric {s t : State} (h : t.fabric = s.fabric) : CoordKept s t := by
  rw [CoordKept, h]
  exact ⟨rfl, rfl⟩

theorem ringFree_coord (key units : Nat) (s : State) : CoordKept s (ringFree key units s) := by
  unfold ringFree
  dsimp only
  rw [CoordKept, (sendWrite_keeps ..).fabric rfl]
  exact ⟨rfl, rfl⟩

theorem joinQueue_coord (p : Nat) (k : Packet) (ring : Option Nat) (s : State) : CoordKept s (joinQueue p k ring s) := by
  unfold joinQueue
  dsimp only
  generalize (if crossesDateline _ _ _ _ = true then ({ k with hdr := _ } : Packet) else k) = k'
  generalize (if (s.port p).inject.mode = 3 ∨ (s.port p).inject.mode = 4 then injectUnit _ p 0 else _) = r
  split
  · split
    · exact CoordKept.trans ⟨rfl, rfl⟩ (ringFree_coord ..)
    · exact ⟨rfl, rfl⟩
  · split
    · exact ⟨rfl, rfl⟩
    · exact ⟨rfl, rfl⟩

theorem ringDrain_coord (fuel key : Nat) (s : State) : CoordKept s (ringDrain fuel key s) := by
  induction fuel generalizing s with
  | zero => exact .refl s
  | succ fuel ih =>
    unfold ringDrain
    dsimp only
    split
    · exact .refl s
    · split
      · exact .refl s
      · refine CoordKept.trans ?_ (ih _)
        rw [CoordKept, (Keeps.foldl (m := 1049618) (Keeps.refl _ _)
          fun x i hx => sendWrite_keeps_k (by decide) hx).fabric rfl]
        exact ⟨rfl, rfl⟩

theorem ringSend_coord (recv src : Nat) (k : Packet) (s : State) : CoordKept s (ringSend recv src k s) :=
  CoordKept.trans ⟨rfl, rfl⟩ (ringDrain_coord ..)

theorem sendOut_coord (site p : Nat) (inDir : Option Nat) (k : Packet) (s : State) :
    CoordKept s (sendOut site p inDir k s) := by
  unfold sendOut
  dsimp only
  split
  · exact joinQueue_coord ..
  · split
    · exact ringSend_coord ..
    · split
      · exact CoordKept.trans ⟨rfl, rfl⟩ (ringSend_coord ..)
      · exact CoordKept.trans ⟨rfl, rfl⟩ (ringSend_coord ..)

theorem injectStamped_coord (site : Nat) (k : Packet) (s : State) : CoordKept s (injectStamped site k s) := by
  unfold injectStamped
  split
  · exact ⟨rfl, rfl⟩
  · exact sendOut_coord ..
  · exact ⟨rfl, rfl⟩

theorem replyTo_coord (site op offset length a b : Nat) (payload : Bytes) (h : BitVec 256) (s : State) :
    CoordKept s (replyTo site op offset length a b payload h s) :=
  CoordKept.trans ⟨rfl, rfl⟩ (injectStamped_coord ..)

/-! Arrival at this module. -/

theorem arriveHere_other {op : Nat} {k : Packet} {s : State} (h : pkOp k.hdr ≠ op) : arriveHere op k s = (false, s) :=
  if_pos h

theorem arriveHere_discarded {k : Packet} {s : State} (h : headerGood s k.hdr = false) :
    arriveHere (pkOp k.hdr) k s = (false, s.count Obj.fabricHeaderDiscards 1) := by
  simp [arriveHere, h]

theorem arriveHere_taken {k : Packet} {s : State} (h : headerGood s k.hdr = true) :
    arriveHere (pkOp k.hdr) k s = (true, noteNode k.hdr (checkSeq k.hdr s)) := by
  simp [arriveHere, h]

theorem arriveHere_beat {op : Nat} {k : Packet} {b : Bool} {s u : State} (h : arriveHere op k s = (b, u)) : u.beat = s.beat := by
  have hk := arriveHere_keeps op k s
  rw [h] at hk
  exact hk.beat rfl

/-- A round in which every remaining member has answered, empty and in balance, ends the drain. -/
theorem judgeDrain_done {s : State} (hd : s.fabric.drain = true) (hc : s.fabric.coord = s.fabric.node)
    (hx : s.fabric.excluded = []) (hm : ∀ m ∈ activeMembers s, ∃ r ∈ s.fabric.reports, r.1.toNat = m ∧ r.2.1 = 0)
    (hr : ∀ r ∈ s.fabric.reports, r.2.1 = 0 ∧ r.2.2.1 = r.2.2.2) : judgeDrain s = drainDone s := by
  have hleft : (activeMembers s).filter (fun m => !s.fabric.excluded.contains (BitVec.ofNat 16 m)) = activeMembers s := by
    rw [hx]
    exact List.filter_eq_self.mpr fun _ _ => rfl
  have hall : (activeMembers s).all (fun m => (s.fabric.reports.filter (fun r => (activeMembers s).contains r.1.toNat)).any
      (fun r => r.1.toNat == m)) = true := by
    refine List.all_eq_true.mpr fun m hmem => List.any_eq_true.mpr ?_
    obtain ⟨r, hrep, hrm, -⟩ := hm m hmem
    exact ⟨r, List.mem_filter.mpr ⟨hrep, by rw [hrm]; exact List.contains_iff_mem.mpr hmem⟩, beq_iff_eq.mpr hrm⟩
  have hempty : (s.fabric.reports.filter (fun r => (activeMembers s).contains r.1.toNat)).any (fun r => r.2.1 != 0) = false := by
    refine List.any_eq_false.mpr fun r hmem => ?_
    rw [(hr r (List.mem_filter.mp hmem).1).1]
    decide
  have hsum : ((s.fabric.reports.filter (fun r => (activeMembers s).contains r.1.toNat)).map (fun r => r.2.2.1)).sum =
      ((s.fabric.reports.filter (fun r => (activeMembers s).contains r.1.toNat)).map (fun r => r.2.2.2)).sum :=
    congrArg List.sum (List.map_congr_left fun r hmem => (hr r (List.mem_filter.mp hmem).1).2)
  unfold judgeDrain
  dsimp only
  rw [hleft, if_neg (by rw [hd, hc, hall]; simp), if_neg (by rw [hempty]; decide), if_pos (by rw [hx]; rfl), if_pos hsum]

/-- Settles O32: the branches of the commands of R217 to R219. -/
theorem routeChange : Obligations.RouteChange := by
  unfold Obligations.RouteChange
  refine ⟨?_, ?_, ?_, ?_, fun op k s => arriveHere_other, fun k s => arriveHere_discarded, fun k s => arriveHere_taken,
    ?_, ?_, ?_, ?_, ?_, ?_, ?_, ?_, ?_, ?_, ?_, ?_, ?_, ?_, fun s => judgeDrain_done⟩
  · rintro b u s ha ⟨hb, hv, hd⟩ rfl
    refine ⟨_, (?_ : execRouteActivation s = _), rfl⟩
    simp only [execRouteActivation, ha, hv, hd, Nat.not_lt.mpr hb, Bool.not_true, Bool.false_eq_true, ne_eq, not_true,
      or_self, if_false]
  · intro s b ha hn
    refine ⟨s, (?_ : execRouteActivation s = _), rfl⟩
    simp only [execRouteActivation, Option.mem_def.mp ha]
    refine if_pos ?_
    by_contra hc
    simp only [not_or, Nat.not_lt, Bool.not_eq_true', Bool.not_eq_false, not_not, ne_eq] at hc
    exact hn hc
  · rintro round u v s ⟨hd, hc, hb, hr⟩ rfl rfl rfl
    refine ⟨_, (?_ : execDrainRound s = _), rfl⟩
    refine if_neg ?_
    simp only [hd, hc, Bool.not_true, Bool.false_eq_true, ne_eq, not_true, false_or]
    omega
  · intro s hn
    refine ⟨s, (?_ : execDrainRound s = _), rfl⟩
    refine if_pos ?_
    by_contra hc
    simp only [not_or, Nat.not_lt, Bool.not_eq_true', Bool.not_eq_false, not_not, ne_eq, not_and_or] at hc
    exact hn hc
  · intro p k u s h
    refine ⟨u, (?_ : execRouteQuery p k s = _), rfl⟩
    simp only [execRouteQuery, h]
  · rintro p k u v r s h rfl rfl
    refine ⟨_, (?_ : execRouteQuery p k s = _), rfl, (replyTo_coord ..).1.trans (arriveHere_beat h), (replyTo_coord ..).2⟩
    simp only [execRouteQuery, h]
  · intro k u s h
    refine ⟨u, (?_ : execRouteReport k s = _), rfl⟩
    simp only [execRouteReport, h]
  · rintro k u v s h rfl hn
    refine ⟨_, (?_ : execRouteReport k s = _), rfl⟩
    simp only [execRouteReport, h]
    refine if_pos ?_
    by_contra hc
    simp only [not_or, Bool.not_eq_true', Bool.not_eq_false, not_not, ne_eq] at hc
    exact hn hc
  · rintro k u v s h rfl ⟨hd, hc, hr⟩
    refine ⟨_, (?_ : execRouteReport k s = _), rfl⟩
    simp only [execRouteReport, h]
    refine if_neg ?_
    simp only [not_or, Bool.not_eq_true', Bool.not_eq_false, not_not, ne_eq]
    exact ⟨hd, hc, hr⟩
  · intro p k u s h
    refine ⟨u, (?_ : execRouteRelease p k s = _), rfl⟩
    simp only [execRouteRelease, h]
  · intro p k u s h
    refine ⟨_, (?_ : execRouteRelease p k s = _), rfl⟩
    simp only [execRouteRelease, h]
  · intro s hd
    simp only [releaseBank, hd, Bool.not_true, Bool.false_eq_true, if_false]
  · rintro node s ⟨hd, hc, hn, hm, hx, hb⟩
    refine ⟨_, (?_ : execSilentMemberExpiry node s = _), rfl⟩
    refine if_neg ?_
    simp only [not_or, Bool.not_eq_true', Bool.not_eq_false, not_not, ne_eq, Bool.not_eq_true, Nat.not_lt]
    exact ⟨hd, hc, hn, hm, hx, hb⟩
  · intro node s hn
    refine ⟨s, (?_ : execSilentMemberExpiry node s = _), rfl⟩
    refine if_pos ?_
    by_contra hc
    simp only [not_or, Bool.not_eq_true', Bool.not_eq_false, not_not, ne_eq, Bool.not_eq_true, Nat.not_lt] at hc
    exact hn hc
  · rintro s ⟨hd, hc, hf, hb⟩
    refine ⟨_, (?_ : execCoordinatorTakeover s = _), rfl⟩
    refine if_neg ?_
    simp only [not_or, Bool.not_eq_true', Bool.not_eq_false, Nat.not_lt]
    exact ⟨hd, hc, hf, hb⟩
  · intro s hn
    refine ⟨s, (?_ : execCoordinatorTakeover s = _), rfl⟩
    refine if_pos ?_
    by_contra hc
    simp only [not_or, Bool.not_eq_true', Bool.not_eq_false, Nat.not_lt] at hc
    exact hn hc
  · rintro node s ⟨hd, hc, hm, ha, hx, hb⟩
    obtain ⟨hlog, hobj⟩ := logEvent_on (s := s) (x := { s with fabric := { s.fabric with missed := s.fabric.missed ++ [node] } })
      Obj.routeDrainPending 0 0 0xFF 0 (leBytes 2 node.toNat)
    refine ⟨_, (?_ : execActivationMissed node s = _), (logEvent_keeps ..).fabric rfl, hobj, hlog,
      (logEvent_keeps_k (m := 206158954498) (by decide) (Keeps.u524288 (by decide) (Keeps.refl _ s))).eq⟩
    refine if_neg ?_
    simp only [not_or, Bool.not_eq_true', Bool.not_eq_false, not_not, ne_eq, Bool.not_eq_true, Nat.not_lt]
    exact ⟨hd, hc, hm, ha, hx, hb⟩
  · intro node s hn
    refine ⟨s, (?_ : execActivationMissed node s = _), rfl⟩
    refine if_pos ?_
    by_contra hc
    simp only [not_or, Bool.not_eq_true', Bool.not_eq_false, not_not, ne_eq, Bool.not_eq_true, Nat.not_lt] at hc
    exact hn hc

end Sys2Proof.Machine

end

section

/-! PROOFS. Fabric ports train (O29, R191, R192, R195). -/

namespace Sys2Proof.Machine

theorem port_setPort (p j : Nat) (q : FPort) (s : State) : (s.setPort p q).port j = if j = p then q else s.port j := by
  split
  · next h => rw [h, State.port_setPort]
  · next h => exact State.port_setPort_other _ _ h

/-- A port that begins to train. -/
theorem trainPort_port (p j : Nat) (s : State) : (trainPort p s).port j = if j = p then
    { s.port p with state := 1, offerGot := false, acceptSent := false, acceptGot := false, tried := s.beat } else s.port j := by
  rw [trainPort, enterPort_port, State.port_setPort]
  split
  · rfl
  · next h => exact State.port_setPort_other _ _ h

theorem trainPort_untouched (p : Nat) (s : State) : Untouched logCounters s (trainPort p s) :=
  fun k hk => enterPort_untouched p 1 (s.setPort p _) k hk

/-- What training begins with leaves the rest of the state alone. -/
theorem trainPort_result (p : Nat) (s : State) :
    (trainPort p s).port p = { s.port p with state := 1, offerGot := false, acceptSent := false, acceptGot := false, tried := s.beat } ∧
      Untouched logCounters s (trainPort p s) ∧ (∀ k, k ≠ p → (trainPort p s).port k = s.port k) ∧
      trainPort p s = { s with
        od := (trainPort p s).od, ports := (trainPort p s).ports, beagle := (trainPort p s).beagle } :=
  ⟨by rw [trainPort_port, if_pos rfl], trainPort_untouched p s, fun k hk => by rw [trainPort_port, if_neg hk],
    (trainPort_keeps p s).eq⟩

theorem retrainPort_port (p j : Nat) (s : State) : (retrainPort p s).port j = if j = p then
    { s.port p with
      state := 1, offerGot := false, acceptSent := false, acceptGot := false, tried := s.beat, timeouts := 0, resend := []
      retrainAt := some s.beat } else s.port j := by
  rw [retrainPort, trainPort_port, State.port_setPort]
  split
  · rfl
  · next h => exact State.port_setPort_other _ _ h

/-- The right neighbour depends on the torus alone. -/
theorem rightNeighbour_congr {s t : State} (h : t.fabric = s.fabric) (p : Nat) (r : TrainRec) :
    rightNeighbour t p r = rightNeighbour s p r := by
  simp only [rightNeighbour, nextNode, h]

theorem rightNeighbour_retrain (p : Nat) (r : TrainRec) (s : State) :
    rightNeighbour (retrainPort p s) p r = rightNeighbour s p r :=
  rightNeighbour_congr ((retrainPort_keeps p s).fabric rfl) p r

/-- A port that is refused or held: its record, its log entry, and nothing else. -/
theorem portRefused_result {p n code : Nat} (detail : Bytes) (w : W16) (s : State) :
    let t := logEvent (Obj.portStateP + p) 0 code (rimSite (portDir p)) p detail
      (enterPort p n (s.setPort p { s.port p with tried := s.beat, neighbour := w }))
    t.port p = { s.port p with state := n, tried := s.beat, neighbour := w } ∧ Untouched logCounters s t ∧
      Logged (Obj.portStateP + p) 0 code (rimSite (portDir p)) p detail s t ∧ (∀ k, k ≠ p → t.port k = s.port k) ∧
      t = { s with od := t.od, ports := t.ports, beagle := t.beagle, log := t.log } := by
  intro t
  have hk := enterPort_keeps p n (s.setPort p { s.port p with tried := s.beat, neighbour := w })
  have hports : ∀ k, t.port k = (enterPort p n (s.setPort p { s.port p with tried := s.beat, neighbour := w })).port k :=
    fun k => congrArg (fun l => tget ({} : FPort) k l) (Keeps.ports (logEvent_keeps _ _ _ _ _ _ (enterPort p n _)) rfl)
  refine ⟨?_, ?_, ?_, fun k hne => ?_, ?_⟩
  · rw [hports, enterPort_port, if_pos rfl, State.port_setPort]
  · exact (enterPort_untouched p n (s.setPort p _)).trans (logEvent_untouched _ _ _ _ _ _ _) fun _ h => h
  · have h := logEvent_logged (Obj.portStateP + p) 0 code (rimSite (portDir p)) p detail
      (enterPort p n (s.setPort p { s.port p with tried := s.beat, neighbour := w }))
    unfold Logged at h ⊢
    rwa [hk.beat rfl, hk.log rfl] at h
  · rw [hports, enterPort_port, if_neg hne, State.port_setPort_other _ _ hne]
  · exact (logEvent_keeps_k (m := 206158692354) (by decide) (enterPort_keeps_k (by decide)
      (State_setPort_keeps_k (by decide) (Keeps.refl _ s)))).eq

/-- A port that has sent and received its accept is up. -/
theorem portUp_eq {p : Nat} {s : State} (h1 : (s.port p).state = 1) (hs : (s.port p).acceptSent = true)
    (hg : (s.port p).acceptGot = true) :
    portUp p s = (enterPort p 2 s).setPort p (if (s.port p).retrainAt.isSome then
      { s.port p with
        state := 2, retrainAt := none, timeouts := 0, resend := (s.port p).unacked.map (·.1)
        ctrlq := (s.port p).ctrlq ++ [[0x04]], echo := none }
      else { s.port p with
        state := 2, txSeq := 0, unacked := [], resend := [], flight := [], timeouts := 0, rxSeq := 0, rxAck := 0, granted := []
        spent := [], freed := [], unreported := List.range 8, passed := [], partial_ := []
        ctrlq := (s.port p).ctrlq ++ [[0x04]], echo := none }) := by
  unfold portUp
  dsimp only
  rw [if_neg (by simp [h1, hs, hg]), enterPort_port, if_pos rfl]
  dsimp only
  split
  · rfl
  · rfl

/-- The port that comes up takes its new record, and nothing but the trace goes with it. -/
theorem enterPort_setPort_result {p n : Nat} {q x : FPort} {s : State} :
    let t := (enterPort p n (s.setPort p q)).setPort p x
    t.port p = x ∧ Untouched logCounters s t ∧ (∀ k, k ≠ p → t.port k = s.port k) ∧
      t = { s with od := t.od, ports := t.ports, beagle := t.beagle } := by
  intro t
  refine ⟨State.port_setPort .., enterPort_untouched p n (s.setPort p q), fun k hk => ?_, ?_⟩
  · rw [State.port_setPort_other _ _ hk, enterPort_port, if_neg hk, State.port_setPort_other _ _ hk]
  · exact (State_setPort_keeps_k (m := 68719738882) (by decide) (enterPort_keeps_k (by decide)
      (State_setPort_keeps_k (by decide) (Keeps.refl _ s)))).eq

/-- FABRIC_TRAIN_ACCEPT at the agreed level from the right neighbour. -/
theorem trainAccept_eq {p : PortId} {r : TrainRec} {s : State} (h1 : (s.port p.val).state = 1) (ha : r.agreed = 1)
    (hr : rightNeighbour s p.val r = true) : exec (.fabricTrainAccept p r) s =
      .next (portUp p.val (s.setPort p.val { s.port p.val with acceptGot := true, neighbour := r.node })) := by
  show execFabricTrainAccept p r s = _
  refine if_neg ?_
  simp only [h1, ha, hr]
  decide

/-- Settles O29: the branches of the commands of R191 and R192. -/
theorem portTraining : Obligations.PortTraining := by
  unfold Obligations.PortTraining
  refine ⟨?_, ?_, ?_, ?_, ?_, ?_, ?_, ?_, ?_, ?_, ?_, ?_, ?_, ?_, ?_, ?_, ?_, ?_⟩
  · rintro p s hp hu ⟨he, hl, hst⟩
    refine ⟨_, (?_ : execPortPhyLock p s = _), trainPort_result p.val s⟩
    simp only [execPortPhyLock, hp, hu, he, hl, hst, Bool.not_true, Bool.false_eq_true, or_self, if_false, if_true]
  · intro p s h
    refine ⟨s, (?_ : execPortPhyLock p s = _), rfl⟩
    unfold execPortPhyLock
    dsimp only
    split
    · rfl
    · next hn =>
      simp only [not_or, Bool.not_eq_true', Bool.not_eq_false] at hn
      obtain ⟨hp, hu, he⟩ := hn
      split
      · rfl
      · next hl =>
        split
        · next hst =>
          rw [hp, hu] at h
          exact absurd ⟨he, hl, hst⟩ ((h.resolve_left (by decide)).resolve_left (by decide))
        · rfl
  · rintro p s hp hu ⟨h2, h5, ht⟩
    refine ⟨_, (?_ : execPortTrainRetry p s = _), trainPort_result p.val s⟩
    simp only [execPortTrainRetry, hp, hu, h2, h5, Nat.not_lt.mpr ht, Bool.not_true, Bool.false_eq_true, or_self, if_false]
  · intro p s h
    refine ⟨s, (?_ : execPortTrainRetry p s = _), rfl⟩
    refine if_pos ?_
    by_contra hn
    simp only [not_or, Bool.not_eq_true', Bool.not_eq_false, Nat.not_lt] at hn
    obtain ⟨hp, hu, h2, h5, ht⟩ := hn
    rw [hp, hu] at h
    exact absurd ⟨h2, h5, ht⟩ ((h.resolve_left (by decide)).resolve_left (by decide))
  · intro p r s h1 hl hr
    refine ⟨_, (?_ : execFabricTrainOffer p r s = _), rfl⟩
    simp [execFabricTrainOffer, h1, hl, hr]
  · intro p r s h1 hl
    refine ⟨_, (?_ : execFabricTrainOffer p r s = _), portRefused_result [] r.node s⟩
    simp [execFabricTrainOffer, h1, hl]
  · intro p r s h1 hl hr
    refine ⟨_, (?_ : execFabricTrainOffer p r s = _), portRefused_result (leBytes 2 r.node.toNat) r.node s⟩
    simp [execFabricTrainOffer, h1, hl, hr]
  · rintro p r u s h2 rfl hl hr
    refine ⟨_, (?_ : execFabricTrainOffer p r s = _), rfl⟩
    simp [execFabricTrainOffer, h2, hl, hr, rightNeighbour_retrain, retrainPort_port]
  · rintro p r u s h2 rfl hl
    refine ⟨_, (?_ : execFabricTrainOffer p r s = _), rfl⟩
    by_cases hlev : r.level = 0 ∨ 1 < r.lowest
    · simp [execFabricTrainOffer, h2, hlev, retrainPort_port]
    · have hr : rightNeighbour s p.val r = false := by
        rw [← or_assoc] at hl
        exact hl.resolve_left hlev
      simp [execFabricTrainOffer, h2, hlev, hr, rightNeighbour_retrain, retrainPort_port]
  · rintro p r s ⟨h1, h2⟩
    refine ⟨s, (?_ : execFabricTrainOffer p r s = _), rfl⟩
    simp [execFabricTrainOffer, h1, h2]
  · intro p s _
    exact ⟨by rw [retrainPort_port, if_pos rfl], fun k hk => by rw [retrainPort_port, if_neg hk]⟩
  · intro p r s h1 ha hr hs
    refine ⟨_, trainAccept_eq h1 ha hr, ?_⟩
    simp [portUp, State.port_setPort, hs]
  · intro p r s h1 ha hr hs hn
    have hup := portUp_eq (p := p.val) (s := s.setPort p.val { s.port p.val with acceptGot := true, neighbour := r.node })
      (by rw [State.port_setPort]; exact h1) (by rw [State.port_setPort]; exact hs) (by rw [State.port_setPort])
    rw [State.port_setPort] at hup
    dsimp only at hup
    rw [if_neg (by rw [hn]; decide)] at hup
    refine ⟨_, (trainAccept_eq h1 ha hr).trans (by rw [hup]), ?_⟩
    obtain ⟨hpt, hrest⟩ := enterPort_setPort_result (p := p.val) (n := 2) (q := { s.port p.val with acceptGot := true, neighbour := r.node })
      (x := _) (s := s)
    exact ⟨hpt, hrest⟩
  · intro p r s h1 ha hr hs hn
    have hup := portUp_eq (p := p.val) (s := s.setPort p.val { s.port p.val with acceptGot := true, neighbour := r.node })
      (by rw [State.port_setPort]; exact h1) (by rw [State.port_setPort]; exact hs) (by rw [State.port_setPort])
    rw [State.port_setPort] at hup
    dsimp only at hup
    rw [if_pos (Option.isSome_iff_ne_none.mpr hn)] at hup
    refine ⟨_, (trainAccept_eq h1 ha hr).trans (by rw [hup]), ?_⟩
    exact enterPort_setPort_result
  · intro p r s h
    refine ⟨s, (?_ : execFabricTrainAccept p r s = _), rfl⟩
    refine if_pos ?_
    rcases h with h | h | h
    · exact .inl h
    · exact .inr (.inl h)
    · exact .inr (.inr (by rw [h]; rfl))
  · intro p beat s h2 he hb
    refine ⟨_, (?_ : execFabricEcho p beat true s = _), rfl⟩
    simp [execFabricEcho, h2, he, Nat.not_lt.mpr hb]
  · intro p beat s h2
    refine ⟨_, (?_ : execFabricEcho p beat false s = _), rfl⟩
    simp [execFabricEcho, h2]
  · intro p beat own s h
    refine ⟨s, (?_ : execFabricEcho p beat own s = _), rfl⟩
    unfold execFabricEcho
    dsimp only
    split
    · rfl
    · next h2 =>
      obtain ⟨ho, hcond⟩ := h.resolve_left h2
      rw [if_pos ho, if_pos hcond]

end Sys2Proof.Machine

end

section

/-! PROOFS. Blocks on a port (O30, R192 to R195). -/

namespace Sys2Proof.Machine

theorem tset_tset_same {α : Type} (k : Nat) (v w : α) (t : Tab α) : tset k v (tset k w t) = tset k v t := by
  induction t with
  | nil => simp [tset]
  | cons x r ih =>
    by_cases hlt : k < x.1
    · simp [tset, hlt]
    · by_cases he : k = x.1
      · simp [tset, he]
      · simp [tset, hlt, he, ih]

theorem setPort_setPort (p : Nat) (q x : FPort) (s : State) : (s.setPort p q).setPort p x = s.setPort p x := by
  simp only [State.setPort, tset_tset_same]

theorem fitBytes_fit {n : Nat} {b : Bytes} (h : b.length = n) : fitBytes n b = b := by
  rw [fitBytes, h, Nat.sub_self, List.replicate_zero, List.append_nil, ← h, List.take_length]

/-! One block leaves. -/

/-- The port once it has reported its oldest credit counter. -/
def reported (q : FPort) : FPort := { q with unreported := q.unreported.drop 1 ++ [q.unreported.headD 0] }

/-- The block that a port sends. -/
def blockOf (p kind seq : Nat) (flits : Bytes) (q : FPort) : Output :=
  .block p (blockCtl kind seq q.rxAck.toNat (q.unreported.headD 0) (tget 0 (q.unreported.headD 0) q.freed) (fitBytes 256 flits))
    (fitBytes 256 flits)

theorem putBlock_eq (p kind seq : Nat) (flits : Bytes) (s : State) :
    putBlock p kind seq flits s = (s.setPort p (reported (s.port p))).emit (blockOf p kind seq flits (s.port p)) := rfl

/-- A block put on a port whose record has just been set. -/
theorem putBlock_set (p kind seq : Nat) (flits : Bytes) (q : FPort) (s : State) :
    putBlock p kind seq flits (s.setPort p q) = (s.setPort p (reported q)).emit (blockOf p kind seq flits q) := by
  rw [putBlock_eq, State.port_setPort, setPort_setPort]

/-- The port of a block time that is not skipped. -/
def evened (p : Nat) (s : State) : State := s.setPort p { s.port p with even := true }

section
variable {p : Nat} {s : State}

theorem blockChoice_resend {a : BitVec 10} {rest : List (BitVec 10)} (h : ¬((s.port p).skip = true ∧ (s.port p).even = true))
    (hc : carries s = true) (hr : (s.port p).resend = a :: rest) : blockChoice p s = resendBlock p a rest (evened p s) := by
  have hce : carries (evened p s) = true := hc
  have hagain : (if carries (evened p s) = true then (s.port p).resend else []) = a :: rest := by rw [hce, if_pos rfl, hr]
  rw [evened] at hagain ⊢
  unfold blockChoice
  dsimp only
  rw [if_neg h, hagain]

/-- No block goes again. -/
theorem nothing_again (hr : carries s = false ∨ (s.port p).resend = []) :
    (if carries (evened p s) = true then (s.port p).resend else []) = [] := by
  have hce : carries (evened p s) = carries s := rfl
  rw [hce]
  split
  · next hc => exact hr.resolve_left (by rw [hc]; decide)
  · rfl

theorem blockChoice_record {c : Bytes} {r : List Bytes} (h : ¬((s.port p).skip = true ∧ (s.port p).even = true))
    (hr : carries s = false ∨ (s.port p).resend = []) (hq : (s.port p).ctrlq = c :: r) :
    blockChoice p s = sendRecord p c r (evened p s) := by
  have hagain := nothing_again hr
  rw [evened] at hagain ⊢
  unfold blockChoice
  dsimp only
  rw [if_neg h, hagain, hq]

theorem blockChoice_data (h : ¬((s.port p).skip = true ∧ (s.port p).even = true))
    (hr : carries s = false ∨ (s.port p).resend = []) (hq : (s.port p).ctrlq = []) :
    blockChoice p s = if (s.port p).unacked.length < 512 ∧ carries s = true ∧
        ((s.port p).under.isSome = true ∨ (vcTurn (s.port p)).isSome = true) then sendBlock p (evened p s)
      else putBlock p 1 (s.port p).txSeq.toNat [] (evened p s) := by
  have hagain := nothing_again hr
  rw [evened] at hagain ⊢
  unfold blockChoice
  dsimp only
  rw [if_neg h, hagain, hq]
  rfl

end

/-- BLOCK_TIME of a port that is up. -/
theorem blockTime_up {p : PortId} {s : State} (h : (s.port p.val).state = 2) :
    exec (.blockTime p) s = .next (blockChoice p.val s) := by
  show execBlockTime p s = _
  unfold execBlockTime
  dsimp only
  rw [if_neg (by rw [h]; decide), if_pos h]

theorem fillRecord_setPort (p : Nat) (c : Bytes) (q : FPort) (s : State) (h3 : q.syncT3 = (s.port p).syncT3)
    (h4 : q.syncT4 = (s.port p).syncT4) : fillRecord (s.setPort p q) p c = fillRecord s p c := by
  unfold fillRecord syncRecord
  rw [State.port_setPort, h3, h4]
  rfl

/-- The flits of the packet under way fill the block while they last. -/
theorem layFlits_under {n p : Nat} {seq : BitVec 10} {acc b : Bytes} {k : Packet} {s : State}
    (hu : (s.port p).under = some (k, b)) (hb : 32 * (n + 1) < b.length) :
    layFlits (n + 1) p seq acc s = (acc ++ b.take (32 * (n + 1)),
      s.setPort p { s.port p with under := some (k, b.drop (32 * (n + 1))) }) := by
  have hrest : (b.drop 32).isEmpty = false := by
    rw [List.isEmpty_eq_false_iff, ne_eq, List.drop_eq_nil_iff]
    omega
  have hone : layFlits (n + 1) p seq acc s = layFlits n p seq (acc ++ b.take 32)
      (s.setPort p { s.port p with under := some (k, b.drop 32) }) := by
    rw [layFlits]
    simp only [hu, Option.isNone_some, Bool.false_eq_true, if_false, hrest]
  induction n generalizing acc b s with
  | zero => rw [hone]; rfl
  | succ n ih =>
    have hrest' : ((b.drop 32).drop 32).isEmpty = false := by
      rw [List.isEmpty_eq_false_iff, ne_eq, List.drop_eq_nil_iff, List.length_drop]
      omega
    have hu' : ((s.setPort p { s.port p with under := some (k, b.drop 32) }).port p).under = some (k, b.drop 32) := by
      rw [State.port_setPort]
    rw [hone, ih hu' (by rw [List.length_drop]; omega) hrest' (by
      rw [layFlits]
      simp only [hu', Option.isNone_some, Bool.false_eq_true, if_false, hrest'])]
    rw [State.port_setPort, setPort_setPort, List.drop_drop, List.append_assoc, ← List.take_add]
    simp only [Nat.mul_add, Nat.mul_one, Nat.add_comm 32]

/-- A block of the packet under way, which goes on after it. -/
theorem sendBlock_under {p : Nat} {k : Packet} {b : Bytes} {s : State} (hu : (s.port p).under = some (k, b))
    (hb : 256 < b.length) (hi : (s.port p).inject.mode ≠ 1) :
    sendBlock p s = putBlock p 0 (s.port p).txSeq.toNat (b.take 256) (s.setPort p { s.port p with
      under := some (k, b.drop 256), txSeq := (s.port p).txSeq + 1
      unacked := (s.port p).unacked ++ [((s.port p).txSeq, b.take 256, s.beat)] }) := by
  have hlay : layFlits 8 p (s.port p).txSeq [] s = (b.take 256, s.setPort p { s.port p with under := some (k, b.drop 256) }) :=
    layFlits_under hu hb
  have hfit : fitBytes 256 (b.take 256) = b.take 256 := fitBytes_fit (by rw [List.length_take]; omega)
  unfold sendBlock
  dsimp only
  rw [hlay]
  dsimp only
  rw [State.port_setPort]
  simp only [if_neg hi, Bool.false_and, Bool.false_eq_true, if_false, hfit, setPort_setPort]
  rfl

/-! One block arrives. -/

/-- A counter of at most 64 bits. -/
theorem obj_count_same {k : Nat} (s : State) (n : Nat) (hb : objBits k ≤ 64) :
    (s.count k n).obj k = (s.obj k + n) % 2 ^ objBits k := by
  rw [State.count, State.obj_setObj]
  exact Nat.mod_eq_of_lt ((Nat.mod_lt _ (Nat.two_pow_pos _)).trans_le (Nat.pow_le_pow_right (by decide) hb))

theorem count_untouched (k n : Nat) (s : State) : Untouched [k] s (s.count k n) :=
  fun _ hj => State.obj_count_other _ _ fun e => hj (List.mem_singleton.mpr e)

/-- Placing flits keeps the receiver's numbers and the other ports. -/
theorem placeFlits_port (n p : Nat) (b : Bytes) (s : State) :
    ((placeFlits n p b s).port p).rxSeq = (s.port p).rxSeq ∧ ((placeFlits n p b s).port p).rxAck = (s.port p).rxAck ∧
      ∀ k, k ≠ p → (placeFlits n p b s).port k = s.port k := by
  induction n generalizing b s with
  | zero => exact ⟨rfl, rfl, fun _ _ => rfl⟩
  | succ n ih =>
    unfold placeFlits
    dsimp only
    split
    · exact ⟨rfl, rfl, fun _ _ => rfl⟩
    · split
      · obtain ⟨hs, ha, ho⟩ := ih (b.drop 32) (s.setPort p _)
        rw [State.port_setPort] at hs ha
        exact ⟨hs, ha, fun k hk => (ho k hk).trans (State.port_setPort_other _ _ hk)⟩
      · obtain ⟨hs, ha, ho⟩ := ih (b.drop 32) (s.setPort p _)
        rw [State.port_setPort] at hs ha
        exact ⟨hs, ha, fun k hk => (ho k hk).trans (State.port_setPort_other _ _ hk)⟩

theorem blockAck_port (p a : Nat) (s : State) : ((blockAck p a s).port p).rxSeq = (s.port p).rxSeq ∧
    ∀ k, k ≠ p → (blockAck p a s).port k = s.port k := by
  unfold blockAck
  dsimp only
  split
  · exact ⟨rfl, fun _ _ => rfl⟩
  · exact ⟨by rw [State.port_setPort], fun k hk => State.port_setPort_other _ _ hk⟩

theorem blockCredit_port (p vc v : Nat) (s : State) : ((blockCredit p vc v s).port p).rxSeq = (s.port p).rxSeq ∧
    ∀ k, k ≠ p → (blockCredit p vc v s).port k = s.port k := by
  unfold blockCredit
  exact ⟨by rw [State.port_setPort], fun k hk => State.port_setPort_other _ _ hk⟩

/-- A credit counter is taken as the next value with its 12 bits (R194). -/
theorem blockCredit_granted {p vc v : Nat} {s : State} (hv : v < 4096) :
    tget 0 vc ((blockCredit p vc v s).port p).granted % 4096 = v ∧
      tget 0 vc (s.port p).granted ≤ tget 0 vc ((blockCredit p vc v s).port p).granted ∧
      tget 0 vc ((blockCredit p vc v s).port p).granted < tget 0 vc (s.port p).granted + 4096 := by
  have hg : tget 0 vc ((blockCredit p vc v s).port p).granted =
      tget 0 vc (s.port p).granted + (v + 4096 - tget 0 vc (s.port p).granted % 4096) % 4096 := by
    unfold blockCredit
    rw [State.port_setPort, tget_tset_same]
  rw [hg]
  omega

/-- A block whose check has been made: discarded, or its acknowledgement, credit and flits taken (R192 to R195). -/
def blockChecked (p : Nat) (ctl : BitVec 80) (flits : Bytes) (s : State) : State :=
  if fieldAt ctl 48 32 ≠ crc32c (leBytes 6 ctl.toNat ++ flits) then s.count Obj.linkCrcErrors 1
  else
    let u := blockCredit p (fieldAt ctl 22 3) (fieldAt ctl 25 12) (blockAck p (fieldAt ctl 12 10) s)
    if fieldAt ctl 0 2 ≠ 0 ∨ fieldAt ctl 2 10 ≠ (u.port p).rxSeq.toNat ∨ (!carries u) = true then u
    else placeFlits 8 p flits (u.setPort p { u.port p with rxAck := (u.port p).rxSeq, rxSeq := (u.port p).rxSeq + 1 })

/-- DATA_BLOCK on a port that is up, once fault injection has had its turn. -/
theorem dataBlock_eq {p : PortId} {ctl : BitVec 80} {flits : Bytes} {s : State} {r : Bool × Nat × Inject}
    (h2 : (s.port p.val).state = 2)
    (hx : (if (s.port p.val).inject.mode = 2 ∧ fieldAt ctl 0 2 = 0 then injectUnit (s.port p.val).inject p.val 0
      else (false, 0, (s.port p.val).inject)) = r) :
    exec (.dataBlock p ctl flits) s = .next (
      let u := s.setPort p.val { s.port p.val with inject := r.2.2 }
      let real := r.1 && (s.port p.val).inject.classes.testBit (arrivingClass (s.port p.val) (fitBytes 256 flits))
      if real = true then
        blockChecked p.val (flipBlock (r.2.1 % 2128) ctl (fitBytes 256 flits)).1 (flipBlock (r.2.1 % 2128) ctl (fitBytes 256 flits)).2
          (u.count Obj.fiEvents 1)
      else blockChecked p.val ctl (fitBytes 256 flits) u) := by
  show execDataBlock p ctl flits s = _
  unfold execDataBlock
  dsimp only
  rw [if_neg (not_not.mpr h2), hx]
  generalize (r.1 && (s.port p.val).inject.classes.testBit (arrivingClass (s.port p.val) (fitBytes 256 flits))) = real
  cases real with
  | true =>
    unfold blockChecked
    simp only [if_true]
    split
    · rfl
    · split
      · rfl
      · rfl
  | false =>
    unfold blockChecked
    simp only [Bool.false_eq_true, if_false]
    split
    · rfl
    · split
      · rfl
      · rfl

/-- Without an injected fault the block is checked as it came. -/
theorem dataBlock_plain {p : PortId} {ctl : BitVec 80} {flits : Bytes} {s : State} (h2 : (s.port p.val).state = 2)
    (hi : (s.port p.val).inject.mode ≠ 2 ∨ fieldAt ctl 0 2 ≠ 0) : exec (.dataBlock p ctl flits) s =
      .next (blockChecked p.val ctl (fitBytes 256 flits) (s.setPort p.val (s.port p.val))) :=
  dataBlock_eq h2 (if_neg (not_and_or.mpr hi))

/-- With a fault that does not hit, only the injector's count goes on. -/
theorem dataBlock_missed {p : PortId} {ctl : BitVec 80} {flits : Bytes} {s : State} (h2 : (s.port p.val).state = 2)
    (hm : (s.port p.val).inject.mode = 2) (hk : fieldAt ctl 0 2 = 0)
    (hh : (injectUnit (s.port p.val).inject p.val 0).1 = false ∨
      (s.port p.val).inject.classes.testBit (arrivingClass (s.port p.val) (fitBytes 256 flits)) = false) :
    exec (.dataBlock p ctl flits) s = .next (blockChecked p.val ctl (fitBytes 256 flits)
      (s.setPort p.val { s.port p.val with inject := (injectUnit (s.port p.val).inject p.val 0).2.2 })) := by
  rw [dataBlock_eq h2 (if_pos ⟨hm, hk⟩)]
  rw [if_neg (by rcases hh with h | h <;> simp [h])]

/-- With a fault that hits, the block is checked with the bit inverted. -/
theorem dataBlock_hit {p : PortId} {ctl : BitVec 80} {flits : Bytes} {s : State} (h2 : (s.port p.val).state = 2)
    (hm : (s.port p.val).inject.mode = 2) (hk : fieldAt ctl 0 2 = 0)
    (hh : ((injectUnit (s.port p.val).inject p.val 0).1 &&
      (s.port p.val).inject.classes.testBit (arrivingClass (s.port p.val) (fitBytes 256 flits))) = true) :
    exec (.dataBlock p ctl flits) s = .next (blockChecked p.val
      (flipBlock ((injectUnit (s.port p.val).inject p.val 0).2.1 % 2128) ctl (fitBytes 256 flits)).1
      (flipBlock ((injectUnit (s.port p.val).inject p.val 0).2.1 % 2128) ctl (fitBytes 256 flits)).2
      ((s.setPort p.val { s.port p.val with inject := (injectUnit (s.port p.val).inject p.val 0).2.2 }).count Obj.fiEvents 1)) := by
  rw [dataBlock_eq h2 (if_pos ⟨hm, hk⟩)]
  rw [if_pos hh]

section
variable {p : Nat} {ctl : BitVec 80} {flits : Bytes} {s u : State}

theorem blockChecked_bad (h : fieldAt ctl 48 32 ≠ crc32c (leBytes 6 ctl.toNat ++ flits)) :
    blockChecked p ctl flits s = s.count Obj.linkCrcErrors 1 := if_pos h

theorem blockChecked_taken (h : fieldAt ctl 48 32 = crc32c (leBytes 6 ctl.toNat ++ flits))
    (hu : u = blockCredit p (fieldAt ctl 22 3) (fieldAt ctl 25 12) (blockAck p (fieldAt ctl 12 10) s))
    (ht : fieldAt ctl 0 2 = 0 ∧ fieldAt ctl 2 10 = (u.port p).rxSeq.toNat ∧ carries u = true) : blockChecked p ctl flits s =
      placeFlits 8 p flits (u.setPort p { u.port p with rxAck := (u.port p).rxSeq, rxSeq := (u.port p).rxSeq + 1 }) := by
  subst hu
  obtain ⟨hk, hs, hc⟩ := ht
  unfold blockChecked
  dsimp only
  rw [if_neg (not_not.mpr h), if_neg (by rw [hc]; simp only [not_or, not_not]; exact ⟨hk, hs, by decide⟩)]

theorem blockChecked_other (h : fieldAt ctl 48 32 = crc32c (leBytes 6 ctl.toNat ++ flits))
    (hu : u = blockCredit p (fieldAt ctl 22 3) (fieldAt ctl 25 12) (blockAck p (fieldAt ctl 12 10) s))
    (ht : ¬(fieldAt ctl 0 2 = 0 ∧ fieldAt ctl 2 10 = (u.port p).rxSeq.toNat ∧ carries u = true)) :
    blockChecked p ctl flits s = u := by
  subst hu
  unfold blockChecked
  dsimp only
  rw [if_neg (not_not.mpr h), if_pos (by simpa only [not_and_or, Bool.not_eq_true, Bool.not_eq_true'] using ht)]

end

theorem retrainPort_untouched (p : Nat) (s : State) : Untouched logCounters s (retrainPort p s) :=
  fun k hk => trainPort_untouched p (s.setPort p _) k hk

/-- LINK_RETRY_TIMEOUT of a port whose oldest block went long enough ago. -/
theorem linkRetry_due {p : PortId} {a : BitVec 10} {flits : Bytes} {sent : Nat} {rest : List (BitVec 10 × Bytes × Nat)} {s : State}
    (hu : (s.port p.val).unacked = (a, flits, sent) :: rest) (h2 : (s.port p.val).state = 2) (hc : carries s = true)
    (hr : (s.port p.val).resend.contains a = false) (hb : sent + 2000 ≤ s.beat) :
    exec (.linkRetryTimeout p) s = .next (if (s.port p.val).timeouts = 7 then
      retrainPort p.val (countLog Obj.portRetrains 0 0 (rimSite (portDir p.val)) p.val [] (s.count Obj.linkRetryTimeouts 1))
      else (s.count Obj.linkRetryTimeouts 1).setPort p.val
        { s.port p.val with timeouts := (s.port p.val).timeouts + 1, resend := (s.port p.val).unacked.map (·.1) }) := by
  show execLinkRetryTimeout p s = _
  unfold execLinkRetryTimeout
  dsimp only
  rw [hu]
  dsimp only
  rw [if_neg (by rw [h2, hc, hr]; simp only [not_or]; exact ⟨by decide, by decide, by decide, by omega⟩)]
  split
  · rfl
  · rfl

/-- Settles O30: the choices of BLOCK_TIME, the checks of DATA_BLOCK and the retry timeout. -/
theorem linkBlocks : Obligations.LinkBlocks := by
  unfold Obligations.LinkBlocks
  refine ⟨?_, ?_, ?_, ?_, ?_, ?_, ?_, ?_, ?_, ?_, ?_, ?_, ?_, ?_, ?_, ?_, ?_, ?_, ?_, ?_, ?_⟩
  · intro p s h1 ho
    refine ⟨_, (?_ : execBlockTime p s = _), congrArg State.out (putBlock_eq ..), rfl, rfl⟩
    simp only [execBlockTime, h1, ho, if_true, Bool.not_false]
  · intro p s h1 ho ha
    refine ⟨_, (?_ : execBlockTime p s = _), rfl, ((portUp_keeps ..).out rfl).trans (congrArg State.out (putBlock_set ..))⟩
    simp only [execBlockTime, h1, ho, ha, if_true, Bool.not_false, Bool.not_true, Bool.false_eq_true, if_false]
  · intro p s h1 ho ha
    refine ⟨_, (?_ : execBlockTime p s = _), congrArg State.out (putBlock_eq ..), rfl, rfl⟩
    simp only [execBlockTime, h1, ho, ha, if_true, Bool.not_true, Bool.false_eq_true, if_false]
  · intro p s h2 hs
    have he := blockTime_up h2
    rw [blockChoice, if_pos hs, putBlock_set] at he
    exact ⟨_, he, rfl, rfl, rfl⟩
  · intro p a rest s h2 hs hc hr
    exact ⟨_, (blockTime_up h2).trans (by rw [blockChoice_resend hs hc hr]; rfl), rfl⟩
  · intro p a rest flits x s hx
    simp only [resendBlock, hx]
  · intro p c r s h2 hs hr hq
    have hfill : fillRecord (evened p.val s) p.val c = fillRecord s p.val c := fillRecord_setPort _ _ _ _ rfl rfl
    have he := blockTime_up h2
    rw [blockChoice_record hs hr hq, sendRecord, hfill, evened, State.port_setPort, setPort_setPort, putBlock_set] at he
    exact ⟨_, he, rfl, rfl, rfl⟩
  · intro p s h2 hs hr hq hd
    exact ⟨_, (blockTime_up h2).trans (by rw [blockChoice_data hs hr hq, if_pos hd]; rfl), rfl⟩
  · intro p k b s h2 hs hr hq hl hc hu hb hi
    have he := blockTime_up h2
    rw [blockChoice_data hs hr hq, if_pos ⟨hl, hc, .inl (by rw [hu]; rfl)⟩] at he
    have hfit : fitBytes 256 (b.take 256) = b.take 256 := fitBytes_fit (by rw [List.length_take]; omega)
    rw [sendBlock_under (k := k) (b := b) (by rw [evened, State.port_setPort]; exact hu) hb
      (by rw [evened, State.port_setPort]; exact hi), evened, State.port_setPort, setPort_setPort, putBlock_set, blockOf, hfit] at he
    exact ⟨_, he, rfl, State.port_setPort .., fun j hj => State.port_setPort_other _ _ hj, rfl⟩
  · intro p s h2 hs hr hq hd
    have he := blockTime_up h2
    rw [blockChoice_data hs hr hq, if_neg hd, evened, putBlock_set] at he
    exact ⟨_, he, rfl, rfl, rfl⟩
  · rintro p s ⟨h1, h2⟩
    refine ⟨s, (?_ : execBlockTime p s = _), rfl⟩
    simp only [execBlockTime, h1, h2, if_false]
  · intro p ctl flits s h2 hi hbad
    have he := dataBlock_plain (flits := flits) h2 hi
    rw [blockChecked_bad hbad] at he
    refine ⟨_, he, fun k => ?_, ?_, ?_, rfl⟩
    · by_cases hk : k = p.val
      · subst hk
        exact State.port_setPort ..
      · exact State.port_setPort_other _ _ hk
    · exact obj_count_same _ _ (by decide)
    · exact count_untouched _ _ _
  · intro p ctl flits u s h2 hi hcrc hu ht
    have he := dataBlock_plain (flits := flits) h2 hi
    rw [blockChecked_taken hcrc hu ht] at he
    have hseq : (u.port p.val).rxSeq = (s.port p.val).rxSeq := by
      rw [hu, (blockCredit_port ..).1, (blockAck_port ..).1, State.port_setPort]
    obtain ⟨hr, ha, ho⟩ := placeFlits_port 8 p.val (fitBytes 256 flits)
      (u.setPort p.val { u.port p.val with rxAck := (u.port p.val).rxSeq, rxSeq := (u.port p.val).rxSeq + 1 })
    rw [State.port_setPort] at hr ha
    refine ⟨_, he, rfl, hr.trans (congrArg (· + 1) hseq), ha.trans hseq, fun k hk => ?_⟩
    rw [ho k hk, State.port_setPort_other _ _ hk, hu, (blockCredit_port ..).2 k hk, (blockAck_port ..).2 k hk,
      State.port_setPort_other _ _ hk]
  · intro p ctl flits u s h2 hi hcrc hu ht
    exact ⟨_, dataBlock_plain h2 hi, blockChecked_other hcrc hu ht⟩
  · rintro p ctl flits hit s h2 hm hk rfl hh hbad
    have he := dataBlock_hit h2 hm hk hh
    rw [blockChecked_bad hbad] at he
    refine ⟨_, he, State.port_setPort .., ?_, ?_, fun k hne => ?_,
      fun k hne => State.port_setPort_other _ _ hne, rfl⟩
    · rw [State.obj_count_other _ _ (by decide)]
      exact obj_count_same _ _ (by decide)
    · rw [obj_count_same _ _ (by decide), State.obj_count_other _ _ (by decide)]
      rfl
    · rw [State.obj_count_other _ _ fun e => hne (by simp [e]), State.obj_count_other _ _ fun e => hne (by simp [e])]
      rfl
  · intro p ctl flits u s h2 hm hk hh hu
    refine ⟨_, dataBlock_missed h2 hm hk hh, ?_⟩
    split
    · next hbad => exact blockChecked_bad hbad
    · next hcrc =>
      split
      · next ht => exact blockChecked_taken (not_not.mp hcrc) hu ht
      · next ht => exact blockChecked_other (not_not.mp hcrc) hu ht
  · intro p ctl flits s h2
    refine ⟨s, (?_ : execDataBlock p ctl flits s = _), rfl⟩
    exact if_pos h2
  · intro p vc v s hv
    obtain ⟨hmod, hle, hlt⟩ := blockCredit_granted (p := p) (vc := vc) (s := s) hv
    exact ⟨hmod, hle, hlt, (blockCredit_port p vc v s).2⟩
  · intro p a flits sent rest s hu h2 hc hr hb h7
    exact ⟨_, (linkRetry_due hu h2 hc hr hb).trans (by rw [if_neg h7]), rfl⟩
  · intro p a flits sent rest s hu h2 hc hr hb h7
    have he := linkRetry_due hu h2 hc hr hb
    rw [if_pos h7] at he
    have hk := countLog_keeps Obj.portRetrains 0 0 (rimSite (portDir p.val)) p.val [] (s.count Obj.linkRetryTimeouts 1)
    have hport : ∀ k, (countLog Obj.portRetrains 0 0 (rimSite (portDir p.val)) p.val [] (s.count Obj.linkRetryTimeouts 1)).port k =
        s.port k := fun k => congrArg (fun l => tget ({} : FPort) k l) (hk.ports rfl)
    have hobj := retrainPort_untouched p.val
      (countLog Obj.portRetrains 0 0 (rimSite (portDir p.val)) p.val [] (s.count Obj.linkRetryTimeouts 1))
    have hlog := countLog_untouched Obj.portRetrains 0 0 (rimSite (portDir p.val)) p.val [] (s.count Obj.linkRetryTimeouts 1)
    refine ⟨_, he, ?_, fun k hne => ?_, ?_, ?_, fun k hne => ?_, ?_⟩
    · rw [retrainPort_port, if_pos rfl, hport, hk.beat rfl]
      rfl
    · rw [retrainPort_port, if_neg hne, hport]
    · rw [hobj _ (by decide), hlog _ (by decide)]
      exact obj_count_same _ _ (by decide)
    · rw [hobj _ (by decide), countLog_counts _ _ _ _ _ _ (by decide) (by decide), State.obj_count_other _ _ (by decide)]
    · simp only [List.cons_append, List.nil_append, List.mem_cons, not_or] at hne
      obtain ⟨h1, h2, h3⟩ := hne
      rw [hobj k h3, hlog k (List.not_mem_cons_of_ne_of_not_mem h2 h3), State.obj_count_other _ _ h1]
    · exact (retrainPort_keeps_k (m := 206158692354) (by decide) (countLog_keeps_k (by decide)
        (State_count_keeps_k (by decide) (Keeps.refl _ s)))).eq
  · intro p s h
    refine ⟨s, (?_ : execLinkRetryTimeout p s = _), rfl⟩
    unfold execLinkRetryTimeout
    dsimp only
    split
    · rfl
    · next a flits sent rest hu =>
      refine if_pos ?_
      rcases h with h | h | h | h
      · rw [hu] at h
        cases h
      · exact .inl h
      · exact .inr (.inl (by rw [h]; rfl))
      · exact .inr (.inr ((h (a, flits, sent) (by rw [hu]; rfl)).imp id id))

end Sys2Proof.Machine

end

section

/-! PROOFS. Loads end, slots drain and partitions reload (O51, R251 to R256). -/

namespace Sys2Proof.Machine

theorem imgSlot_setImgSlot_other {k n : Nat} (x : ImgSlot) (s : State) (h : k ≠ n) : (s.setImgSlot n x).imgSlot k = s.imgSlot k :=
  tget_tset_other _ _ _ h

/-- A refused load leaves its slot Empty with the code. -/
theorem refuseLoad_images (slot code : Nat) (s : State) : (refuseLoad slot code s).images = (s.setImgSlot slot { s.imgSlot slot with
    state := 0, digest := [], image := none, last := BitVec.ofNat 16 code, bootRefused := (s.imgSlot slot).bootRefused || decide (s.dev.state = 2) }).images :=
  ((settleBootRefused_keeps _).images rfl).trans ((countLog_keeps ..).images rfl)

/-- Slots are read from the record of images. -/
theorem imgSlot_of_images {s t : State} (h : t.images = s.images) (k : Nat) : t.imgSlot k = s.imgSlot k :=
  congrArg (fun i : Images => tget ({} : ImgSlot) k i.slots) h

theorem slotLoadDone_none {slot : SlotId} {s : State} (h : (s.imgSlot slot.val).state = 1 ∧ s.images.order.head? = some slot.val ∧
    ((s.dev.state = 2 ∧ s.dev.started = true) ∨ (3 ≤ s.dev.state ∧ s.dev.state ≤ 7)))
    (hf : s.images.store.find? (fun im => im.digest == (s.imgSlot slot.val).digest) = none) :
    execSlotLoadDone slot s = .next (refuseLoad slot.val 0x1205 { s with images := { s.images with order := s.images.order.drop 1 } }) := by
  obtain ⟨h1, ho, hu⟩ := h
  simp only [execSlotLoadDone, h1, ho, hu, hf, ne_eq, not_true, or_self, if_false]

theorem slotLoadDone_some {slot : SlotId} {im : Image} {u : State} {s : State} (h : (s.imgSlot slot.val).state = 1 ∧ s.images.order.head? = some slot.val ∧
    ((s.dev.state = 2 ∧ s.dev.started = true) ∨ (3 ≤ s.dev.state ∧ s.dev.state ≤ 7)))
    (hu : u = { s with images := { s.images with order := s.images.order.drop 1 } })
    (hf : s.images.store.find? (fun im => im.digest == (s.imgSlot slot.val).digest) = some im) :
    execSlotLoadDone slot s = .next (if loadResult u im slot.val = 0 then installImage slot.val im u else refuseLoad slot.val (loadResult u im slot.val) u) := by
  obtain ⟨h1, ho, hup⟩ := h
  subst hu
  simp only [execSlotLoadDone, h1, ho, hup, hf, ne_eq, not_true, or_self, if_false]

/-- What a placed image leaves in the record of images. -/
theorem placeImage_images (slot job : Nat) (im : Image) (pages : List Nat) (cols : List CollRes) (s : State) :
    (placeImage slot job im pages cols s).images = (s.setImgSlot slot { s.imgSlot slot with
      state := 2, digest := im.digest, image := some im, job := BitVec.ofNat 16 job, last := 0, pages, bootRefused := false }).images := by
  unfold placeImage
  dsimp only
  refine ((settleBootRefused_keeps _).images rfl).trans (((settleStaging_keeps _).images rfl).trans (((State_count_keeps ..).images rfl).trans ?_))
  have hi : ∀ v : State, v.images = s.images → ({ (v.setImgSlot slot { v.imgSlot slot with
      state := 2, digest := im.digest, image := some im, job := BitVec.ofNat 16 job, last := 0, pages, bootRefused := false }) with
        fabric := { v.fabric with colRes := cols }, serve := { v.serve with rate := terase slot v.serve.rate } } : State).images =
      (s.setImgSlot slot { s.imgSlot slot with
      state := 2, digest := im.digest, image := some im, job := BitVec.ofNat 16 job, last := 0, pages, bootRefused := false }).images := by
    intro v hv
    simp only [State.setImgSlot, imgSlot_of_images hv, hv]
  refine hi _ (((installWindows_keeps ..).images rfl).trans ?_)
  refine (Keeps.foldl (m := 1374390592602) ?_ (fun _ _ hk => placeSection_keeps_k (by decide) hk)).images rfl
  refine Keeps.foldl ?_ (fun _ _ hk => addPartition_keeps_k (by decide) hk)
  exact Keeps.foldl (Keeps.refl _ _) (fun _ _ hk => writeImagePage_keeps_k (by decide) hk)

theorem placeImage_fabric (slot job : Nat) (im : Image) (pages : List Nat) (cols : List CollRes) (s : State) :
    (placeImage slot job im pages cols s).fabric = { s.fabric with colRes := cols } := by
  unfold placeImage
  dsimp only
  refine ((settleBootRefused_keeps _).fabric rfl).trans (((settleStaging_keeps _).fabric rfl).trans (((State_count_keeps ..).fabric rfl).trans ?_))
  refine congrArg (fun f : Fabric => { f with colRes := cols }) (((installWindows_keeps slot job im _).fabric rfl).trans ?_)
  refine (Keeps.foldl (m := 1374390592602) ?_ (fun _ _ hk => placeSection_keeps_k (by decide) hk)).fabric rfl
  refine Keeps.foldl ?_ (fun _ _ hk => addPartition_keeps_k (by decide) hk)
  exact Keeps.foldl (Keeps.refl _ _) (fun _ _ hk => writeImagePage_keeps_k (by decide) hk)

theorem installImage_eq {slot : Nat} {im : Image} {pages : List Nat} {cols : List CollRes} {s v : State}
    (ha : allocPages (.image slot) (imgDramPages im) s = some (pages, v)) (hc : placeColls s slot im.collectives s.fabric.colRes = some cols) :
    installImage slot im s = placeImage slot (s.obj (slotKey Obj.slotJob slot)) im pages cols v := by
  unfold installImage
  rw [ha, hc]

/-- No partition of slot `k` is left on any die. -/
def NoParts (k : Nat) (s : State) : Prop := ∀ p ∈ s.dies, ∀ q ∈ p.2.parts, q.slot ≠ k

theorem mem_tset {α : Type} {k : Nat} {v : α} {t : Tab α} {p : Nat × α} (h : p ∈ tset k v t) : p = (k, v) ∨ p ∈ t := by
  induction t with
  | nil => exact .inl (List.mem_singleton.mp h)
  | cons q r ih =>
    unfold tset at h
    split at h
    · exact List.mem_cons.mp h
    · split at h
      · exact (List.mem_cons.mp h).imp id (List.mem_cons_of_mem q)
      · rcases List.mem_cons.mp h with h | h
        · exact .inr (h ▸ List.mem_cons_self)
        · exact (ih h).imp id (List.mem_cons_of_mem q)

theorem tget_mem_or {α : Type} (d : α) (k : Nat) (t : Tab α) : tget d k t = d ∨ (k, tget d k t) ∈ t := by
  induction t with
  | nil => exact .inl rfl
  | cons p r ih =>
    unfold tget tfind
    split
    · next h => exact .inr (by rw [h]; exact List.mem_cons_self)
    · exact ih.imp id (List.mem_cons_of_mem p)

theorem NoParts.die {k : Nat} {s : State} (h : NoParts k s) (n : Nat) : ∀ q ∈ (s.die n).parts, q.slot ≠ k := by
  rcases tget_mem_or ({} : Die) n s.dies with hd | hd
  · intro q hq
    rw [State.die, hd] at hq
    cases hq
  · exact h _ hd

theorem NoParts.setDie {k n : Nat} {d : Die} {s : State} (h : NoParts k s) (hd : d.parts = (s.die n).parts) : NoParts k (s.setDie n d) := by
  intro p hp
  rcases mem_tset hp with rfl | hp
  · exact hd ▸ h.die n
  · exact h p hp

theorem NoParts.freePage {k : Nat} {s : State} (p : Nat) (h : NoParts k s) : NoParts k (freePage p s) := by
  intro x hx
  obtain ⟨y, hy, rfl⟩ := List.mem_map.mp hx
  exact h y hy

theorem NoParts.settleStaging {k : Nat} {s : State} (h : NoParts k s) : NoParts k (settleStaging s) := by
  unfold Machine.settleStaging
  exact List.foldlRecOn _ _ h (fun _ hu _ _ => hu.setDie rfl)

theorem NoParts.of_dies {k : Nat} {s t : State} (h : NoParts k s) (hd : t.dies = s.dies) : NoParts k t := by
  unfold NoParts
  rwa [hd]

theorem unloadImage_noParts (slot : Nat) (s : State) : NoParts slot (unloadImage slot s) := by
  unfold unloadImage
  dsimp only
  refine NoParts.of_dies (NoParts.settleStaging (List.foldlRecOn _ _ ?_ (fun _ hu p _ => hu.freePage p))) ((settleDram_keeps _).dies rfl)
  intro p hp
  obtain ⟨y, -, rfl⟩ := List.mem_map.mp hp
  intro q hq
  exact bne_iff_ne.mp (List.mem_filter.mp hq).2

/-- What emptying a slot leaves in the records of images, collectives and windows. -/
theorem unloadImage_result (slot : Nat) (s : State) :
    (unloadImage slot s).images = (s.setImgSlot slot { s.imgSlot slot with state := 0, digest := [], image := none, job := 0, pages := [] }).images ∧
      (unloadImage slot s).fabric.colRes = s.fabric.colRes.filter (fun r => r.slot != slot) ∧
      (unloadImage slot s).rmem.loader = s.rmem.loader.filter (fun p => p.2 != slot) ∧
      (unloadImage slot s).rmem.table = s.rmem.table.filter (fun p =>
        !((s.rmem.loader.filter (fun q => q.2 == slot)).map (fun q => q.1)).contains p.1) := by
  unfold unloadImage
  dsimp only
  have hk : ∀ l v, Keeps 103700374595 v (settleDram (settleStaging (List.foldl (fun s p => freePage p s) v l))) := fun l v =>
    settleDram_keeps_k (by decide) (settleStaging_keeps_k (by decide) (Keeps.foldl (Keeps.refl _ _) (fun _ _ hk => freePage_keeps_k (by decide) hk)))
  refine ⟨((hk ..).images rfl).trans rfl, ?_, ?_, ?_⟩
  · rw [(hk ..).fabric rfl]
    rfl
  · rw [(hk ..).rmem rfl]
    rfl
  · rw [(hk ..).rmem rfl]
    rfl

theorem tfind_filter_none {α : Type} {k : Nat} {f : Nat × α → Bool} (h : ∀ v, f (k, v) = false) (t : Tab α) : tfind k (t.filter f) = none := by
  induction t with
  | nil => rfl
  | cons p r ih =>
    by_cases hp : f p = true
    · rw [List.filter_cons_of_pos hp, tfind, if_neg, ih]
      rintro rfl
      exact Bool.false_ne_true ((h p.2).symm.trans hp)
    · rw [List.filter_cons_of_neg hp, ih]

/-- The locked sections of slot `p`'s partition on a die, put back. -/
def partReloaded (die : Nat) (s : State) (p : Partition) : State :=
  (imageOf s p.slot).elim s (fun im =>
    (im.sections.filter (fun x => x.kind.toNat == 8 && x.target.toNat == die)).foldl (placeSection p.slot) s)

/-- The locked sections of a die that lost its Soundboard, put back. -/
def partsReloaded (die : Nat) (s : State) : State := (s.die die).parts.foldl (partReloaded die) s

theorem partReloaded_keeps (die : Nat) (s : State) (p : Partition) : Keeps 274877906952 s (partReloaded die s p) := by
  unfold partReloaded
  cases imageOf s p.slot with
  | none => exact Keeps.refl _ s
  | some im => exact Keeps.foldl (Keeps.refl _ s) (fun _ _ h => placeSection_keeps_k (by decide) h)

theorem partsReloaded_keeps (die : Nat) (s : State) : Keeps 274877906952 s (partsReloaded die s) :=
  Keeps.foldl (Keeps.refl _ s) (fun v p hk => hk.tr (partReloaded_keeps die v p))

theorem partitionReload_due {die : DieId} {s : State} (h : (s.die die.val).sbLost = true ∧ (s.die die.val).off = false ∧ (s.die die.val).reset = none) :
    execPartitionReloadDone die s = .next (settleDram ((partsReloaded die.val s).setDie die.val { (partsReloaded die.val s).die die.val with sbLost := false })) := by
  obtain ⟨h1, h2, h3⟩ := h
  unfold execPartitionReloadDone
  simp only [h1, h2, h3, Bool.not_true, Bool.false_eq_true, Option.isSome_none, or_self, if_false]
  have hstep : ∀ (g : State → Partition → State), (∀ v p, g v p = partReloaded die.val v p) → (s.die die.val).parts.foldl g s = partsReloaded die.val s :=
    fun g hg => by rw [show g = partReloaded die.val from funext fun v => funext fun p => hg v p]; rfl
  rw [hstep _ (fun v p => by unfold partReloaded; cases imageOf v p.slot <;> rfl)]

/-- A die put back in service keeps its partitions, and the other dies theirs. -/
theorem partitionReload_result (die : Nat) (s : State) :
    ((settleDram ((partsReloaded die s).setDie die { (partsReloaded die s).die die with sbLost := false })).die die).sbLost = false ∧
      ((settleDram ((partsReloaded die s).setDie die { (partsReloaded die s).die die with sbLost := false })).die die).parts = (s.die die).parts ∧
      (∀ k, k ≠ die → (settleDram ((partsReloaded die s).setDie die { (partsReloaded die s).die die with sbLost := false })).die k = s.die k) ∧
      Keeps 378578142283 s (settleDram ((partsReloaded die s).setDie die { (partsReloaded die s).die die with sbLost := false })) := by
  have hd : ∀ k v, (settleDram v).die k = v.die k := fun k v => congrArg (tget ({} : Die) k) ((settleDram_keeps v).dies rfl)
  have hp : ∀ k, (partsReloaded die s).die k = s.die k := fun k => congrArg (tget ({} : Die) k) ((partsReloaded_keeps die s).dies rfl)
  refine ⟨?_, ?_, fun k hk => ?_, ?_⟩
  · rw [hd, State.die_setDie]
  · rw [hd, State.die_setDie, hp]
  · rw [hd, ← hp]
    exact tget_tset_other _ _ _ hk
  · exact settleDram_keeps_k (by decide) (State_setDie_keeps_k (by decide) ((partsReloaded_keeps die s).mono (by decide)))

/-- Settles O51: the branches of SLOT_LOAD_DONE, SLOT_DRAINED and PARTITION_RELOAD_DONE in the order of the model. -/
theorem imageSlots : Obligations.ImageSlots := by
  unfold Obligations.ImageSlots
  refine ⟨?_, ?_, ?_, ?_, ?_, ?_, ?_, ?_, ?_, ?_, ?_⟩
  · intro slot s hn
    refine ⟨s, (?_ : execSlotLoadDone slot s = _), rfl⟩
    refine if_pos ?_
    by_contra hc
    obtain ⟨h1, hc⟩ := not_or.mp hc
    obtain ⟨ho, hu⟩ := not_or.mp hc
    exact hn ⟨not_not.mp h1, not_not.mp ho, not_not.mp hu⟩
  · intro slot u s h hu hf
    subst hu
    refine ⟨_, slotLoadDone_none h hf, rfl, ?_, ?_, ?_, fun k hk => ?_, ?_⟩
    · rw [imgSlot_of_images (refuseLoad_images ..), State.imgSlot_setImgSlot]
      rfl
    · rw [refuseLoad_images]
      rfl
    · rw [refuseLoad_images]
      rfl
    · rw [imgSlot_of_images (refuseLoad_images ..), imgSlot_setImgSlot_other _ _ hk]
      rfl
    · exact (refuseLoad_keeps_k (m := 241147577347) (by decide) (Keeps.u8388608 (by decide) (Keeps.refl _ s))).eq
  · intro slot im u s h hu hf hc
    have he := slotLoadDone_some h hu hf
    have hku : Keeps 8388608 s u := hu ▸ Keeps.u8388608 (by decide) (Keeps.refl _ s)
    have himg : u.images = { s.images with order := s.images.order.drop 1 } := by rw [hu]
    have hdev : u.dev = s.dev := hku.dev rfl
    generalize loadResult u im slot.val = code at he hc ⊢
    rw [if_neg hc] at he
    refine ⟨_, he, rfl, ?_, ?_, ?_⟩
    · rw [imgSlot_of_images (refuseLoad_images ..), State.imgSlot_setImgSlot]
      simp only [State.imgSlot, himg, hdev]
    · rw [refuseLoad_images]
      simp only [State.setImgSlot, himg]
    · exact (refuseLoad_keeps_k (m := 241147577347) (by decide) (hku.mono (by decide))).eq
  · intro slot im pages cols u v s h hu hf hc hp hv hcol
    have he := slotLoadDone_some h hu hf
    rw [if_pos hc] at he
    obtain ⟨⟨pages, w⟩, ha, hx⟩ := Option.map_eq_some_iff.mp hp
    obtain rfl : pages = _ := hx
    rw [ha] at hv
    obtain rfl : v = w := hv
    have hku : Keeps 8388608 s u := hu ▸ Keeps.u8388608 (by decide) (Keeps.refl _ s)
    have hui : u.images = { s.images with order := s.images.order.drop 1 } := by rw [hu]
    have hin := installImage_eq ha ((congrArg (fun f : Fabric => placeColls u slot.val im.collectives f.colRes) (hku.fabric rfl)).trans hcol)
    rw [State.obj_of_od (hku.od rfl)] at hin
    have hk := allocPages_keeps _ _ _ _ _ ha
    have him : v.images = { s.images with order := s.images.order.drop 1 } := (hk.images rfl).trans hui
    clear hu
    rw [hin] at he
    refine ⟨_, he, rfl, ?_, ?_, ?_, fun k hne => ?_, ?_⟩
    · rw [imgSlot_of_images (placeImage_images ..), State.imgSlot_setImgSlot]
    · rw [placeImage_images, State.setImgSlot, him]
    · rw [placeImage_fabric, hk.fabric rfl, hku.fabric rfl]
    · rw [imgSlot_of_images (placeImage_images ..), imgSlot_setImgSlot_other _ _ hne]
      simp only [State.imgSlot, him]
    · exact (placeImage_keeps_k (m := 1615543018587) (by decide) ((hku.mono (by decide)).tr (hk.mono (by decide)))).eq
  · intro slot s x
    unfold placeSection
    dsimp only
    split
    · next h => rw [if_pos h]
    · next h =>
      rw [h, if_neg (by decide), if_pos rfl]
      cases partitionOf s x.target.toNat slot <;> rfl
    · next h => rw [h, if_neg (by decide), if_neg (by decide), if_pos rfl]
    · next h7 h8 h10 => rw [if_neg h7, if_neg h8, if_neg h10]
  · intro slot job im s
    unfold installWindows
    simp only [List.foldl_map]
  · intro slot s h
    obtain ⟨him, hcol, hload, htab⟩ := unloadImage_result slot.val s
    refine ⟨_, (if_pos h : execSlotDrained slot s = _), rfl, ?_, fun k hk => ?_, hcol, unloadImage_noParts slot.val s, hload, fun p hp => ?_,
      (unloadImage_keeps _ s).eq⟩
    · rw [imgSlot_of_images him, State.imgSlot_setImgSlot]
    · rw [imgSlot_of_images him, imgSlot_setImgSlot_other _ _ hk]
    · rw [htab]
      refine tfind_filter_none (fun v => ?_) _
      simp only [Bool.not_eq_false', List.contains_iff_mem]
      exact List.mem_map.mpr ⟨(p, slot.val), List.mem_filter.mpr ⟨hp, by simp⟩, rfl⟩
  · intro slot s h
    exact ⟨s, (if_neg h : execSlotDrained slot s = _), rfl⟩
  · intro die u s h hu
    obtain ⟨h1, h2, h3, hk⟩ := partitionReload_result die.val s
    have hp : u = partsReloaded die.val s := hu
    rw [← hp] at h1 h2 h3 hk
    exact ⟨_, hp ▸ partitionReload_due h, rfl, h1, h2, h3, hk.eq⟩
  · intro die s h hp
    have hs : partsReloaded die.val s = s := by rw [partsReloaded, hp]; rfl
    obtain ⟨-, -, -, hk⟩ := partitionReload_result die.val s
    refine ⟨_, partitionReload_due h, ?_, ?_, hk.eq⟩
    · rw [hs]
      exact (settleDram_keeps _).mem rfl
    · rw [hs]
      exact (settleDram_keeps _).bad rfl
  · intro die s hn
    refine ⟨s, (?_ : execPartitionReloadDone die s = _), rfl⟩
    refine if_pos ?_
    by_contra hc
    simp only [not_or, Bool.not_eq_true', Bool.not_eq_false, Bool.not_eq_true, Option.isSome_eq_false_iff, Option.isNone_iff_eq_none] at hc
    exact hn hc

end Sys2Proof.Machine

end

section

/-! PROOFS. An uncorrectable word in a page that no directory holds but that a fill is still under way for: the page leaves
the fills of its die, which the clause takes to stay. -/

namespace Sys2Proof.Machine

/-- Die 0 fills the page of unit 7 of stack 3, and no directory entry names it. -/
def bareFillState : State :=
  { State.reset with dies := [(0, { fills := [(offsetHome 3 448 / 65536, 4)] })] }

/-- Refutes O19: the clause of a free page that no directory entry names lets no die change, but the fills of the poisoned
page are dropped with it. -/
theorem not_dramStacks : ¬ Obligations.DramStacks := by
  unfold Obligations.DramStacks
  intro h
  obtain ⟨-, -, -, -, -, -, -, -, -, -, -, -, hfree, -⟩ := h
  obtain ⟨t, ht, -, -, -, -, -, -, hframe⟩ := hfree 3 7 (offsetHome 3 448) (0, 8) bareFillState
    (by decide +kernel) (by decide +kernel) (by decide +kernel) rfl (by decide +kernel) (by decide +kernel) (by decide +kernel)
    (by decide +kernel)
  have hdies : (match exec (.dramScrub 3 7 2) bareFillState with
      | .next t => t.dies
      | _ => []) ≠ bareFillState.dies := by
    decide +kernel
  rw [ht] at hdies
  exact hdies (by rw [hframe])

end Sys2Proof.Machine

end

section

/-! PROOFS. The measured input of a control cycle: the limit it is judged by is that of the voltage just measured, which a
clause of O52 takes from the state before. -/

namespace Sys2Proof.Machine

/-- Serving, with 400 V measured in the last cycle. -/
def inputSagState : State := { State.reset with dev := { state := 5 }, power := { mv := 400000 } }

/-- Refutes O52: with 400 V measured before, 1 W lies within the limit of the state, but a cycle that measures 0 V and 1 W
lies beyond the limit at 0 V and notes since when. -/
theorem not_controllerPair : ¬ Obligations.ControllerPair := by
  unfold Obligations.ControllerPair
  intro h
  obtain ⟨-, -, -, -, -, -, -, -, -, -, -, -, hwithin, -⟩ := h
  have hnote := hwithin 0 1 inputSagState (.inl (by decide +kernel))
  have hsince : (notePower 0 1 inputSagState).power.capSince ≠ none := by
    decide +kernel
  exact hsince (by rw [hnote]; rfl)

end Sys2Proof.Machine

end

section

/-! PROOFS. Sources of time (R243, R244): when one is gained, lost and chosen again, and what an offset from it does. -/

namespace Sys2Proof.Machine

theorem gainSource_valid {src : Nat} {s : State} (h : (tfind src s.time.valid).isSome = true) : gainSource src s = s :=
  if_pos h

theorem gainSource_new {src : Nat} {s : State} (h : tfind src s.time.valid = none) :
    gainSource src s = if s.time.source = 0 then reselect { s with time := { s.time with valid := tset src s.beat s.time.valid } }
      else { s with time := { s.time with valid := tset src s.beat s.time.valid } } := by
  simp only [gainSource, h, Option.isSome_none, Bool.false_eq_true, if_false]

theorem reselect_best {b : Nat} {s : State} (h : ([1, 2, 3] : List Nat).find? (sourceUsable s) = some b) :
    reselect s = switchTo b s := by
  simp only [reselect, h]

theorem reselect_none {s : State} (h : ([1, 2, 3] : List Nat).find? (sourceUsable s) = none) :
    reselect s = if s.time.source = 0 then s
      else ({ s with time := { s.time with source := 0, state := 3, within := none } } : State).count Obj.holdoverEntries 1 := by
  simp only [reselect, h]

theorem sourceUsable_of_no_valid {s : State} (h : s.time.valid = []) (src : Nat) : sourceUsable s src = false := by
  simp only [sourceUsable, h]; rfl

/-- The loss of the source in use, the last one that was valid, leads to holdover. -/
theorem loseSource_last {src : Nat} {s : State} (h0 : src ≠ 0) (hs : s.time.source = src) (hv : terase src s.time.valid = []) :
    loseSource src s =
      ({ s with time := { s.time with valid := [], source := 0, state := 3, within := none } } : State).count
        Obj.holdoverEntries 1 := by
  have hnone : ([1, 2, 3] : List Nat).find? (sourceUsable { s with time := { s.time with valid := terase src s.time.valid } }) =
      none := List.find?_eq_none.2 (fun x _ => by rw [sourceUsable_of_no_valid (by exact hv)]; exact Bool.false_ne_true)
  rw [loseSource, if_pos (by exact hs), reselect_none hnone, if_neg (by exact fun h => h0 (hs ▸ h)), hv]

/-- An edge at an input in tolerance counts, gains REF with the fourth, and disciplines the count while REF is followed. -/
theorem ppsEdge_in_tolerance {interval n : Nat} {ppb phase : Int} {s u v : State} (hp : s.powered = true) (ht : ppb.natAbs ≤ 2000)
    (hn : n = (if s.time.ppsGood ≠ 0 ∧ 999999900 ≤ interval ∧ interval ≤ 1000000100 then s.time.ppsGood + 1 else 1))
    (hu : u = { s with time := { s.time with ppsGood := min n 4 } }) (hv : v = (if 4 ≤ n then gainSource 1 u else u)) :
    exec (.ppsEdge interval ppb phase) s =
      if v.time.source ≠ 1 then .next v
      else if v.time.refSecs then .next (applyOffset ((v.obj Obj.ppsDelayPs : Int) - phase) v)
      else .next (applyOffset (((v.obj Obj.ppsDelayPs : Int) - phase) +
          (refSeconds ((v.obj Obj.ppsDelayPs : Int) - phase) v).1)
        { v with time := { v.time with
          refSecs := true, anchored := (refSeconds ((v.obj Obj.ppsDelayPs : Int) - phase) v).2 } }) := by
  have hgood : ((s.time.ppsGood != 0 && decide (999999900 ≤ interval ∧ interval ≤ 1000000100)) = true) =
      (s.time.ppsGood ≠ 0 ∧ 999999900 ≤ interval ∧ interval ≤ 1000000100) := by
    simp only [Bool.and_eq_true, bne_iff_ne, decide_eq_true_eq]
  subst hv hu hn
  show execPpsEdge interval ppb phase s = _
  simp only [execPpsEdge, hp, Bool.not_true, Bool.false_eq_true, if_false, Nat.not_lt.2 ht, hgood]

/-- An offset within the slewing limit, outside Boot and Held, is slewed off. -/
theorem applyOffset_slewed {off : Int} {s : State} (hs : 4 ≤ s.dev.state) (ho : off.natAbs ≤ 1000 * s.obj Obj.beatSlewLimitNs) :
    applyOffset off s =
      { s with
        time := { s.time with
          offset := off, bound := s.freeWord.toNat % 0xFFFF,
          within := if off.natAbs ≤ lockBound s.time.source then some (s.time.within.getD s.beat) else none,
          state := if off.natAbs ≤ lockBound s.time.source then s.time.state else 1, slew := off * 10, pendingOff := 0 }
        free := (s.drawn 1).free } := by
  have hstate : ¬ (s.dev.state = 2 ∨ s.dev.state = 3) := by omega
  simp only [applyOffset, decide_eq_true_eq]
  rw [if_neg (fun h => hstate h.1), if_pos (by exact ho)]
  rfl

/-- PTP_SYNC keeps the offset of its master, gains PTP at 16 within the spread, and disciplines the count while PTP is followed. -/
theorem ptpSync_powered {offset : Int} {tai n : Nat} {utc : Option W16} {master : W64} {offs : List Int} {s u v w : State}
    (hp : s.powered = true) (hn : n = (if s.time.master = master then s.time.ptpN else 0) + 1)
    (ho : offs = ((1000 * ((tai : Int) - s.beat) + offset) :: (if s.time.master = master then s.time.ptpOff else [])).take 16)
    (hu : u = { s with time := { s.time with master, ptpN := min n 16, ptpOff := offs } })
    (hv : v = utc.elim u (fun x => u.setObj Obj.utcOffsetS x.toNat))
    (hw : w = (if 16 ≤ n ∧ spread offs < 200000 then gainSource 2 v else v)) :
    exec (.ptpSync offset tai utc master) s =
      if w.time.source = 2 then
        .next (applyOffset (1000 * ((tai : Int) - s.beat) + offset) { w with time := { w.time with anchored := 2 } })
      else .next w := by
  subst hw hv hu ho hn
  show execPtpSync offset tai utc master s = _
  simp only [execPtpSync, hp, Bool.not_true, Bool.false_eq_true, if_false, beq_iff_eq]
  cases utc <;> rfl

/-- Settles O45. -/
theorem timeSources : Obligations.TimeSources := by
  refine ⟨?_, ?_, ?_, ?_, ?_, ?_, ?_, ?_, ?_, ?_, ?_, ?_, ?_, ?_, ?_, ?_, ?_, ?_, ?_, ?_, ?_, ?_, ?_, ?_⟩
  · exact fun interval ppb phase s h => ⟨s, by
      show execPpsEdge interval ppb phase s = _; simp only [execPpsEdge, h, Bool.not_false, if_true], rfl⟩
  · exact fun interval ppb phase s h hf => ⟨_, by
      show execPpsEdge interval ppb phase s = _
      simp only [execPpsEdge, h, Bool.not_true, Bool.false_eq_true, if_false, hf, if_true], rfl⟩
  · exact fun interval ppb phase n u v s h ht hn hu hv hs => ⟨v, by rw [ppsEdge_in_tolerance h ht hn hu hv, if_pos hs], rfl⟩
  · exact fun interval ppb phase n u v s h ht hn hu hv hs hr => ⟨_, by
      rw [ppsEdge_in_tolerance h ht hn hu hv, if_neg (not_not.2 hs), if_pos hr], rfl⟩
  · exact fun interval ppb phase n u v r s h ht hn hu hv hs hr hsec => ⟨_, by
      rw [ppsEdge_in_tolerance h ht hn hu hv, if_neg (not_not.2 hs), if_neg (by simp only [hr, Bool.false_eq_true, not_false_iff])],
      by rw [hsec]⟩
  · intro interval ppb phase s hst h ht hsrc hr hval ho
    have hgain := fun n : Nat => gainSource_valid (src := 1) (s := { s with time := { s.time with ppsGood := n } }) hval
    have hv : ∀ n : Nat, { s with time := { s.time with ppsGood := min n 4 } } = (if 4 ≤ n
        then gainSource 1 { s with time := { s.time with ppsGood := min n 4 } }
        else { s with time := { s.time with ppsGood := min n 4 } }) := fun n => by rw [hgain, ite_self]
    refine ⟨_, by rw [ppsEdge_in_tolerance h ht rfl rfl (hv _), if_neg (not_not.2 hsrc), if_pos hr], ?_⟩
    rw [applyOffset_slewed (by exact hst) (by exact ho)]
    exact ⟨rfl, rfl, rfl, hsrc, rfl, rfl, rfl⟩
  · exact fun s => ⟨_, rfl, rfl⟩
  · exact fun s hs hv => ⟨_, rfl, loseSource_last (by decide) hs hv⟩
  · exact fun s => ⟨_, rfl, rfl⟩
  · exact fun s hs hv => ⟨_, rfl, loseSource_last (by decide) hs hv⟩
  · exact fun offset tai utc master s h => ⟨s, by
      show execPtpSync offset tai utc master s = _; simp only [execPtpSync, h, Bool.not_false, if_true], rfl⟩
  · exact fun offset tai utc master n offs u v w s h hn ho hu hv hw hs => ⟨w, by
      rw [ptpSync_powered h hn ho hu hv hw, if_neg hs], rfl⟩
  · exact fun offset tai utc master n offs u v w s h hn ho hu hv hw hs => ⟨_, by
      rw [ptpSync_powered h hn ho hu hv hw, if_pos hs], rfl⟩
  · rintro offset tai _ s h hsrc rfl hn hsp hval
    have hs0 : s.time.source ≠ 0 := by omega
    have hs2 : s.time.source ≠ 2 := by omega
    refine ⟨_, (ptpSync_powered h rfl rfl rfl rfl ?_).trans (if_neg (by exact hs2)), rfl⟩
    simp only [if_true, Option.elim]
    rw [if_pos ⟨by omega, hsp⟩, gainSource_new (by exact hval), if_neg (by exact hs0),
      show min (s.time.ptpN + 1) 16 = 16 by omega]
  · intro src s h
    obtain ⟨-, -, hlt, -⟩ := id h
    exact ⟨_, if_pos h, if_neg (Nat.ne_of_gt hlt)⟩
  · exact fun src s h => ⟨s, if_neg h, rfl⟩
  · exact fun b s hb h => ⟨_, by show execTimeLock s = _; simp only [execTimeLock, hb]; rw [if_pos h], rfl⟩
  · exact fun s b hb h => ⟨s, by
      show execTimeLock s = _; simp only [execTimeLock, Option.mem_def.1 hb]; rw [if_neg h], rfl⟩
  · exact fun src s h => gainSource_valid h
  · rintro src s _ h rfl
    exact gainSource_new h
  · rintro src s _ rfl
    rfl
  · intro b s hb
    rw [reselect_best hb]; rfl
  · exact fun s h => reselect_none h
  · rintro off s _ rfl
    simp only [applyOffset, decide_eq_true_eq, Bool.not_eq_true']
    rfl

end Sys2Proof.Machine

end

section

/-! PROOFS. Tallies between the controllers and the Metering Pod (R304), and the time that the Pod takes (R305). -/

namespace Sys2Proof.Machine

theorem podFlag_under_way {bit : Nat} {p : Pod} (h : p.clock < intervalEnd p) :
    podFlag bit p = { p with flags := p.flags ||| 2 ^ bit } := by
  rw [podFlag, podGather, if_neg (Nat.not_le.2 h)]

theorem podFlag_past_end {bit : Nat} {p : Pod} (h : intervalEnd p ≤ p.clock) :
    podFlag bit p = { p with next := { p.next with flags := p.next.flags ||| 2 ^ bit } } := by
  rw [podFlag, podGather, if_pos h]

theorem sealTally_crc (m : Tally) : (sealTally m).crc.toNat = crc32c (tallyBytes (sealTally m)) :=
  (BitVec.toNat_ofNat ..).trans (Nat.mod_eq_of_lt (crc32c_lt _))

/-- Two messages that differ in nothing but the jump: what is held when seven days of tallies are unacknowledged (R304). -/
theorem head_jumps (l : List Tally) :
    (match l with | [] => [] | x :: r => { x with jump := true } :: r) =
      (l.take 1).map (fun x => { x with jump := true }) ++ l.drop 1 := by
  cases l <;> rfl

/-- The number of the next tally in sequence. -/
def tallyWanted (s : State) : Nat := (s.pod.seqLast.map (fun l => l.toNat + 1)).getD 0

/-- A tally in sequence, or one above it that carries the jump, is gathered, flagged and answered (R304). -/
theorem tally_accepted {m : Tally} {s : State} (hp : s.pod.powered = true) (hc : m.crc.toNat = crc32c (tallyBytes m))
    (hn : m.seq.toNat = tallyWanted s ∨ (m.jump = true ∧ tallyWanted s < m.seq.toNat)) {gap : Nat}
    (hg : gap = m.seq.toNat - tallyWanted s) {a b c : Pod} {u : State}
    (ha : a = podGather s.pod.clock (fun y => { y with counts := m.entries.foldl addCounts y.counts, gaps := y.gaps + gap })
      { s.pod with seqLast := some m.seq })
    (hb : b = (if 0 < gap then podFlag 5 a else a)) (hcc : c = (if m.beat.toNat + 2000000000 < s.beat then podFlag 6 b else b))
    (hu : u = { s with pod := tallySecond s.beat m c }) :
    exec (.tally m) s = .next ((if 0 < gap then u.count Obj.tallyGapsTotal gap else u).emit (podMessage 3 m.seq.toNat 0)) := by
  subst hu hcc hb ha hg
  show execTally m s = _
  have hok : ¬ ((!s.pod.powered) = true ∨ m.crc.toNat ≠ crc32c (tallyBytes m)) := by simp [hp, hc]
  rw [execTally, if_neg hok, if_pos (by exact hn)]
  rfl

theorem podGather_under_way {time : Nat} {f : PodAcc → PodAcc} {p : Pod} (h : time < intervalEnd p) :
    podGather time f p =
      { p with
        counts := (f { counts := p.counts, testSec := p.testSec, flags := p.flags, gaps := p.gaps }).counts
        testSec := (f { counts := p.counts, testSec := p.testSec, flags := p.flags, gaps := p.gaps }).testSec
        flags := (f { counts := p.counts, testSec := p.testSec, flags := p.flags, gaps := p.gaps }).flags
        gaps := (f { counts := p.counts, testSec := p.testSec, flags := p.flags, gaps := p.gaps }).gaps } := by
  rw [podGather, if_neg (Nat.not_le.2 h)]

/-- A tally out of test mode has no second of test time. -/
theorem tallySecond_untested {beat : Nat} {m : Tally} {p : Pod} (h : m.flags.toNat.testBit 0 = false) :
    tallySecond beat m p = p := by
  rw [tallySecond, if_neg (by rw [h]; exact Bool.false_ne_true)]

/-- A repeated or earlier tally is answered with the last number accepted. -/
theorem tally_duplicate {m : Tally} {s : State} (hp : s.pod.powered = true) (hc : m.crc.toNat = crc32c (tallyBytes m))
    (hn : m.seq.toNat < tallyWanted s) : exec (.tally m) s = .next (s.emit (podMessage 3 (tallyWanted s - 1) 0)) := by
  show execTally m s = _
  have hok : ¬ ((!s.pod.powered) = true ∨ m.crc.toNat ≠ crc32c (tallyBytes m)) := by simp [hp, hc]
  have hseq : ¬ (m.seq.toNat = tallyWanted s ∨ (m.jump = true ∧ tallyWanted s < m.seq.toNat)) := by omega
  rw [execTally, if_neg hok, if_neg (by exact hseq), if_pos (by exact hn)]
  rfl

/-- A tally with a bad CRC, a gap without the jump, or without power is not taken. -/
theorem tally_dropped {m : Tally} {s : State} (h : s.pod.powered = false ∨ m.crc.toNat ≠ crc32c (tallyBytes m) ∨
    (tallyWanted s < m.seq.toNat ∧ m.jump = false)) : exec (.tally m) s = .next s := by
  show execTally m s = _
  rcases h with hp | hc | ⟨hn, hj⟩
  · rw [execTally, if_pos (.inl (by rw [hp]; rfl))]
  · rw [execTally, if_pos (.inr hc)]
  · have hseq : ¬ (m.seq.toNat = tallyWanted s ∨ (m.jump = true ∧ tallyWanted s < m.seq.toNat)) := by
      simp only [hj, Bool.false_eq_true, false_and, or_false]; omega
    rw [execTally, if_neg (c := m.seq.toNat = _ ∨ _) (by exact hseq), if_neg (c := m.seq.toNat < _) (by exact Nat.lt_asymm hn), ite_self]

/-- TIME below a millisecond, or without power, changes nothing. -/
theorem time_small {utc : W64} {s : State} (hl : s.pod.lost = false) (ho : ((utc.toNat : Int) - s.pod.clock).natAbs < 1000000) :
    exec (.time utc) s = .next s := by
  show execTime utc s = _
  simp only [execTime, hl, ho, if_true, Bool.false_eq_true, if_false, ite_self]

/-- TIME within two seconds a day is slewed off, logged and flagged. -/
theorem time_slewed {utc : W64} {q : Pod} {s : State} (hp : s.pod.powered = true) (hl : s.pod.lost = false)
    (ho : 1000000 ≤ ((utc.toNat : Int) - s.pod.clock).natAbs)
    (ha : adjusted s.pod + ((utc.toNat : Int) - s.pod.clock).natAbs ≤ 2000000000)
    (hq : q = (if s.pod.refusing then podFlag 4 s.pod else s.pod)) :
    exec (.time utc) s = .next { (s.setObjI Obj.clockLastAdjustUs (((utc.toNat : Int) - s.pod.clock) / 1000)) with
      pod := podFlag 3 (podLog 1 (offsetBytes ((utc.toNat : Int) - s.pod.clock)) { q with
        slew := ((utc.toNat : Int) - s.pod.clock), refusing := false,
        adjusts := q.adjusts.filter (fun a => decide (q.clock < a.1 + 86400000000000)) ++
          [(q.clock, ((utc.toNat : Int) - q.clock).natAbs)] }) } := by
  have hclock : q.clock = s.pod.clock := by rw [hq]; split; exacts [podGather_clock .., rfl]
  rw [hclock]
  subst hq
  show execTime utc s = _
  simp only [execTime, hp, Bool.not_true, Bool.false_eq_true, if_false, hl, Nat.not_lt.2 ho, ha, if_true, hclock]

/-- TIME beyond two seconds a day is refused, counted, logged and flagged. -/
theorem time_refused {utc : W64} {s : State} (hp : s.pod.powered = true) (hl : s.pod.lost = false)
    (ho : 1000000 ≤ ((utc.toNat : Int) - s.pod.clock).natAbs)
    (ha : 2000000000 < adjusted s.pod + ((utc.toNat : Int) - s.pod.clock).natAbs) :
    exec (.time utc) s = .next { (s.count Obj.clockRefusals 1) with
      pod := podFlag 4 (podLog 2 (offsetBytes ((utc.toNat : Int) - s.pod.clock)) { s.pod with refusing := true }) } := by
  show execTime utc s = _
  rw [execTime, if_neg (by rw [hp]; decide), if_neg (by rw [hl]; decide), if_neg (Nat.not_lt.2 ho), if_neg (Nat.not_le.2 ha)]
  rfl

/-- Settles O47. -/
theorem tallyLink : Obligations.TallyLink := by
  refine ⟨?_, ?_, ?_, ?_, ?_, ?_, ?_, ?_, ?_, ?_, ?_, ?_, ?_, ?_, ?_, ?_, ?_, ?_, ?_, ?_, ?_, ?_⟩
  · intro s h
    refine ⟨s, if_pos ?_, rfl⟩
    by_contra hc
    simp only [not_or, Bool.not_eq_true', Bool.not_eq_false, Nat.not_lt] at hc
    exact h hc
  · rintro m kept s ⟨hp, hst, hb⟩ rfl rfl
    refine ⟨_, ?_, rfl, sealTally_crc _⟩
    have hgo : ¬ ((!s.powered) = true ∨ s.dev.state = 8 ∨ s.beat < s.tallies.last + 1000000000) := by
      simp only [not_or, Bool.not_eq_true', Bool.not_eq_false, Nat.not_lt]
      exact ⟨hp, hst, hb⟩
    refine (if_neg hgo).trans ?_
    have hkept : (if tallyHeld ≤ s.tallies.unacked.length then
          (s.tallies.unacked.drop 1 |>.take 1).map (fun x => { x with jump := true }) ++ (s.tallies.unacked.drop 1).drop 1
        else s.tallies.unacked) =
        if s.tallies.unacked.length < tallyHeld then s.tallies.unacked
        else (s.tallies.unacked.drop 1 |>.take 1).map (fun x => { x with jump := true }) ++ s.tallies.unacked.drop 2 := by
      rw [List.drop_drop]
      by_cases hl : s.tallies.unacked.length < tallyHeld
      · rw [if_pos hl, if_neg (Nat.not_le.2 hl)]
      · rw [if_neg hl, if_pos (Nat.not_lt.1 hl)]
    rw [← hkept, ← head_jumps] <;> rfl
  · intro seq s h
    refine ⟨_, if_neg ?_, rfl⟩
    obtain ⟨x, hx, hle⟩ := List.any_eq_true.1 h
    refine fun e => absurd (List.length_filter_eq_length_iff.1 e x hx) ?_
    rw [hle]; exact Bool.false_ne_true
  · intro seq s h
    refine ⟨s, if_pos (List.length_filter_eq_length_iff.2 fun x hx => ?_), rfl⟩
    rw [Bool.eq_false_iff.2 fun e => Bool.eq_false_iff.1 h (List.any_eq_true.2 ⟨x, hx, e⟩)]; rfl
  · rintro s ⟨hp, hst, hu, hb⟩
    refine ⟨_, if_neg ?_, rfl⟩
    simp only [not_or, Bool.not_eq_true', Bool.not_eq_false, Nat.not_lt, List.isEmpty_iff]
    exact ⟨hp, hst, hu, hb⟩
  · intro s h
    refine ⟨s, if_pos ?_, rfl⟩
    by_contra hc
    simp only [not_or, Bool.not_eq_true', Bool.not_eq_false, Nat.not_lt, List.isEmpty_iff] at hc
    exact h hc
  · rintro s ⟨hp, hst, ha, hb⟩
    refine ⟨_, if_neg ?_, rfl⟩
    simp only [not_or, Bool.not_eq_true', Bool.not_eq_false, Nat.not_lt, not_not]
    exact ⟨hst, hp, ha, hb⟩
  · intro s h
    refine ⟨s, if_pos ?_, rfl⟩
    by_contra hc
    simp only [not_or, Bool.not_eq_true', Bool.not_eq_false, Nat.not_lt, ne_eq, not_not] at hc
    obtain ⟨hst, hp, ha, hb⟩ := hc
    exact h ⟨hp, hst, ha, hb⟩
  · exact fun o s => rfl
  · exact fun m gap a b c u s hp hc hn hg ha hb hcc hu => ⟨_, tally_accepted hp hc hn hg ha hb hcc hu, rfl⟩
  · intro m s hp hc hn hbeat hf hclk
    refine ⟨_, tally_accepted hp hc (.inl hn) rfl rfl rfl rfl rfl, ?_⟩
    have hgap : m.seq.toNat - tallyWanted s = 0 := Nat.sub_eq_zero_of_le hn.le
    rw [hgap, if_neg (Nat.lt_irrefl 0), if_neg (Nat.lt_irrefl 0), if_neg (Nat.not_lt.2 hbeat), tallySecond_untested hf,
      podGather_under_way (by exact hclk)]
    rfl
  · intro m s hp hc hj hn hbeat hf hclk
    refine ⟨_, tally_accepted hp hc (.inr ⟨hj, hn⟩) rfl rfl rfl rfl rfl, ?_⟩
    have hgap : 0 < m.seq.toNat - tallyWanted s := Nat.sub_pos_of_lt hn
    rw [if_pos hgap, if_pos hgap, if_neg (Nat.not_lt.2 hbeat), tallySecond_untested hf, podGather_under_way (by exact hclk),
      podFlag_under_way (by exact hclk)]
    exact ⟨rfl, rfl, obj_count_same _ _ (by decide), count_untouched _ _ _, rfl⟩
  · exact fun m s hp hc hn => ⟨_, tally_duplicate hp hc hn, rfl⟩
  · exact fun m s h => ⟨s, tally_dropped h, rfl⟩
  · exact fun utc s h => ⟨s, by show execTime utc s = _; simp only [execTime, h, Bool.not_false, if_true], rfl⟩
  · exact fun utc s hp hl => ⟨_, by
      show execTime utc s = _; simp only [execTime, hp, hl, Bool.not_true, Bool.false_eq_true, if_false, if_true], rfl⟩
  · exact fun utc s hp hl ho => ⟨s, time_small hl ho, rfl⟩
  · exact fun utc q s hp hl ho ha hq => ⟨_, time_slewed hp hl ho ha hq, rfl⟩
  · intro utc s hp hl ho ha hr hclk
    refine ⟨_, time_slewed (q := s.pod) hp hl ho ha (by rw [hr]; rfl), ?_⟩
    rw [podFlag_under_way (by exact hclk)]
    refine ⟨?_, setObj_untouched (List.mem_singleton.2 rfl) _ _, rfl⟩
    simp only [podLog, hr]
    rfl
  · intro utc s hp hl ho ha
    have hod : ∀ q : Pod, State.obj { s.count Obj.clockRefusals 1 with pod := q } Obj.clockRefusals =
        (s.count Obj.clockRefusals 1).obj Obj.clockRefusals := fun q => State.obj_of_od rfl _
    exact ⟨_, time_refused hp hl ho ha, rfl, (hod _).trans (obj_count_same _ _ (by decide))⟩
  · exact fun bit p h => podFlag_under_way h
  · exact fun bit p h => podFlag_past_end h

end Sys2Proof.Machine

end

section

/-! PROOFS. Records, clock, cover and calibration of the Metering Pod (R306 to R312). -/

namespace Sys2Proof.Machine

/-- Nothing leaves an archive that fits its store. -/
theorem trimArchive_fits {now size : Nat} {l : List PodRecord} (h : size ≤ 3 * 2 ^ 30) : trimArchive now size l = l := by
  cases l with
  | nil => rfl
  | cons r rest => exact if_neg fun hc => Nat.not_lt.2 h hc.1

theorem apportion_length (k e : Nat) (c : Tab (Nat × Nat)) : (apportion k e c).1.length ≤ c.length := by
  simp only [apportion, List.length_map]
  exact List.length_filter_le ..

/-- The record of an interval of which `e` mWh were measured, before it is numbered, chained and signed. -/
def intervalRecord (start : Nat) (s : State) : PodRecord :=
  { kind := 1
    flags := s.pod.flags ||| standingFlags start (start + quarterNs) s.pod ||| (if 0 < s.pod.testSec then 1 else 0)
    number := 0, start, length := 900, energy := s.pod.energy / 1000
    unattr := (apportion (s.obj Obj.allocInputWeight) (s.pod.energy / 1000) s.pod.counts).2
    testSec := s.pod.testSec, outage := s.pod.outage, gaps := s.pod.gaps
    entries := (apportion (s.obj Obj.allocInputWeight) (s.pod.energy / 1000) s.pod.counts).1, prev := [], sig := [] }

/-- The record with its number, its predecessor's digest and its signature. -/
def chainedRecord (r : PodRecord) (s : State) : PodRecord :=
  { r with
    number := s.pod.number
    prev := (s.pod.archive.getLast?.map (fun l => sha256 (recordBytes s l))).getD (List.replicate 32 0)
    sig := Sys2Proof.Config.podSignature (recordBody s { r with
      number := s.pod.number
      prev := (s.pod.archive.getLast?.map (fun l => sha256 (recordBytes s l))).getD (List.replicate 32 0) }) }

theorem signRecord_chained (r : PodRecord) (s : State) :
    signRecord r s =
      { s with pod := { s.pod with
        number := s.pod.number + 1
        archive := trimArchive s.pod.clock ((s.pod.archive ++ [chainedRecord r s]).map recordLength).sum
          (s.pod.archive ++ [chainedRecord r s]) } } := by
  rw [signRecord, chainedRecord]
  cases s.pod.archive.getLast? <;> rfl

theorem closeInterval_eq (start next : Nat) (s : State) :
    closeInterval start next s =
      { (signRecord (intervalRecord start s) s).count Obj.testSecondsTotal s.pod.testSec with
        pod := { (signRecord (intervalRecord start s) s).pod with
          start := next, energy := 0, counts := s.pod.next.counts, testSec := s.pod.next.testSec, flags := s.pod.next.flags
          gaps := s.pod.next.gaps, outage := 0, next := {} } } := rfl

/-- Where the archive has room, an interval's record is the last one of it. -/
theorem closeInterval_archive {start next : Nat} {s : State}
    (h : (s.pod.archive.map recordLength).sum + 96 + 16 * s.pod.counts.length + 64 ≤ 3 * 2 ^ 30) :
    (closeInterval start next s).pod.archive = s.pod.archive ++ [chainedRecord (intervalRecord start s) s] := by
  have hlen : (intervalRecord start s).entries.length ≤ s.pod.counts.length := apportion_length ..
  have hrec : recordLength (chainedRecord (intervalRecord start s) s) = 96 + 16 * (intervalRecord start s).entries.length + 64 := rfl
  rw [closeInterval_eq, signRecord_chained]
  refine trimArchive_fits ?_
  rw [List.map_append, List.sum_append, List.map_singleton, List.sum_singleton, hrec]
  omega

/-- A run starts with the cover open, with power and with no run under way. -/
theorem calRun_refused {s : State} (h : s.pod.coverOpen = false ∨ s.pod.powered = false ∨ s.pod.calRun ≠ 0) :
    ¬ (s.pod.coverOpen = true ∧ s.pod.powered = true ∧ s.pod.calRun = 0) := by
  rintro ⟨hc, hp, hr⟩
  rcases h with h | h | h
  · rw [hc] at h; exact absurd h (by decide)
  · rw [hp] at h; exact absurd h (by decide)
  · exact h hr

theorem closeOutage_within {lost now : Nat} {s : State} (h : lost < intervalEnd s.pod)
    (hn : now / quarterNs * quarterNs < intervalEnd s.pod) :
    closeOutage lost now s = { s with pod := noteOutage (now - lost) s.pod } := by
  simp only [closeOutage, if_neg (Nat.not_le.2 h), if_pos hn]

/-- Settles O48. -/
theorem meteringPod : Obligations.MeteringPod := by
  refine ⟨?_, ?_, ?_, ?_, ?_, ?_, ?_, ?_, ?_, ?_, ?_, ?_, ?_, ?_, ?_, ?_, ?_, ?_, ?_, ?_, ?_, ?_, ?_, ?_, ?_, ?_, ?_, ?_, ?_, ?_, ?_, ?_,
    ?_, ?_, ?_, ?_⟩
  · intro uwh s h
    refine ⟨s, if_pos ?_, rfl⟩
    by_contra hc
    simp only [not_or, Bool.not_eq_true', Bool.not_eq_false, Nat.not_lt] at hc
    exact h hc
  · rintro uwh s ⟨hp, hc⟩
    refine ⟨_, if_neg ?_, rfl⟩
    simp only [not_or, Bool.not_eq_true', Bool.not_eq_false, Nat.not_lt]
    exact ⟨hp, hc⟩
  · rintro uwh s ⟨hp, hc⟩ hroom
    refine ⟨_, if_neg ?_, ?_⟩
    · simp only [not_or, Bool.not_eq_true', Bool.not_eq_false, Nat.not_lt]
      exact ⟨hp, hc⟩
    · rw [closeInterval_archive (by exact hroom)]
      refine ⟨⟨_, List.getLast?_concat .., rfl, rfl, rfl, rfl, rfl, rfl, rfl, rfl, rfl, rfl⟩, ?_⟩
      exact ⟨rfl, rfl, rfl, rfl, rfl, rfl, rfl, rfl, rfl, rfl, rfl, count_untouched _ _ _, rfl⟩
  · exact fun uwh s h => ⟨_, by show execPodPowerLoss uwh s = _; rw [execPodPowerLoss, if_neg (by rw [h]; decide)]; rfl, rfl⟩
  · exact fun uwh s h => ⟨s, if_pos (by rw [h]; rfl), rfl⟩
  · exact fun clockNow s h => ⟨s, if_pos h, rfl⟩
  · intro clockNow s h hl
    refine ⟨_, ?_, rfl⟩
    show execPodPowerUp clockNow s = _
    simp only [execPodPowerUp, h, hl, Bool.false_eq_true, if_false, Option.isNone_none, Bool.not_true, and_false, if_true]
  · rintro clockNow l _ s h hl rfl
    refine ⟨_, ?_, rfl⟩
    show execPodPowerUp clockNow s = _
    simp only [execPodPowerUp, h, hl, Bool.false_eq_true, if_false, Option.isNone_some, Bool.not_false, and_true, Option.getD_some]
  · exact fun lost now s h hn => closeOutage_within h hn
  · rintro lost now s _ _ _ h hn rfl rfl rfl
    have hgap : ∀ {α : Type} (x y : α), (if now / quarterNs * quarterNs - intervalEnd s.pod = 0 then x else y) =
        if now / quarterNs * quarterNs = intervalEnd s.pod then x else y := fun x y =>
      if_congr ⟨fun e => Nat.le_antisymm (Nat.sub_eq_zero_iff_le.1 e) hn, fun e => Nat.sub_eq_zero_of_le e.le⟩ rfl rfl
    simp only [closeOutage, if_neg (Nat.not_le.2 h), if_neg (Nat.not_lt.2 hn), hgap]
  · rintro lost now s _ h rfl hn
    simp only [closeOutage, if_pos h, if_neg (Nat.not_le.2 hn)]
  · exact fun s h => ⟨_, if_pos (by simpa only [Bool.not_eq_true'] using h), rfl⟩
  · exact fun s h => ⟨s, if_neg (by simpa only [Bool.not_eq_true'] using h), rfl⟩
  · exact fun s h => ⟨_, if_pos (by simpa only [Bool.not_eq_true'] using h), rfl⟩
  · exact fun s h => ⟨s, if_neg (by simpa only [Bool.not_eq_true'] using h), rfl⟩
  · intro s h
    have hod : ∀ q : Pod, ∀ k, State.obj { s.count Obj.tamperCount 1 with pod := q } k = (s.count Obj.tamperCount 1).obj k :=
      fun q => State.obj_of_od rfl
    refine ⟨_, ?_, rfl, (hod _ _).trans (obj_count_same _ _ (by decide)), fun k hk => (hod _ _).trans (count_untouched _ _ _ k hk)⟩
    show execCoverOpen s = _
    rw [execCoverOpen, if_neg (by rw [h]; decide)]
    rfl
  · exact fun s h => ⟨s, if_pos h, rfl⟩
  · exact fun s h hv => ⟨_, by
      show execCoverClose s = _; rw [execCoverClose, if_neg (by rw [h]; decide), if_pos hv], rfl⟩
  · exact fun s h hv => ⟨_, by
      show execCoverClose s = _; rw [execCoverClose, if_neg (by rw [h]; decide), if_neg (by rw [hv]; decide)], rfl⟩
  · exact fun s h => ⟨s, if_pos (by rw [h]; rfl), rfl⟩
  · exact fun s h => ⟨_, if_pos h, rfl⟩
  · exact fun s h => ⟨s, if_neg (by rw [h]; decide), rfl⟩
  · exact fun s hc hp hr => ⟨_, if_pos ⟨hc, hp, hr⟩, rfl⟩
  · exact fun s h => ⟨s, if_neg (calRun_refused h), rfl⟩
  · exact fun s hc hp hr => ⟨_, if_pos ⟨hc, hp, hr⟩, rfl⟩
  · exact fun s h => ⟨s, if_neg (calRun_refused h), rfl⟩
  · exact fun mv refOk temp first repeated s h => ⟨s, if_pos h, rfl⟩
  · exact fun mv refOk temp first repeated s h hcode => ⟨_, by
      show execCalRunDone _ _ _ _ _ = _; rw [execCalRunDone, if_neg (not_not.2 h), if_pos hcode]; rfl, rfl⟩
  · exact fun mv refOk temp first repeated s h => ⟨s, if_pos h, rfl⟩
  · exact fun mv refOk temp first repeated s h hcode => ⟨_, by
      show execVerifyDone _ _ _ _ _ = _; rw [execVerifyDone, if_neg (not_not.2 h), if_pos hcode]; rfl, rfl⟩
  · rintro mv refOk temp first repeated _ _ s h hcode rfl rfl
    refine ⟨_, by show execCalRunDone _ _ _ _ _ = _; rw [execCalRunDone, if_neg (not_not.2 h), if_neg (not_not.2 hcode)],
      rfl, ?_, rfl⟩
    rw [hcode]; rfl
  · rintro mv refOk temp first repeated _ _ _ s h hcode rfl rfl rfl
    refine ⟨_, by show execVerifyDone _ _ _ _ _ = _; rw [execVerifyDone, if_neg (not_not.2 h), if_neg (not_not.2 hcode)],
      rfl, ?_, rfl⟩
    rw [hcode]; rfl
  · exact ⟨rfl, rfl, rfl, rfl⟩
  · intro mv refOk temp first repeated
    simp only [runCode, Bool.not_eq_true']
    cases runsAgree first repeated <;> rfl
  · exact fun version digest s hc hp => ⟨_, if_pos ⟨hc, hp⟩, rfl⟩
  · exact fun version digest s h => ⟨s, if_neg (fun ⟨hc, hp⟩ => by
      rcases h with h | h
      · rw [hc] at h; exact absurd h (by decide)
      · rw [hp] at h; exact absurd h (by decide)), rfl⟩

end Sys2Proof.Machine

end

section

/-! PROOFS. Sessions between gateways (R234 to R236): what a received message does, and how a session opens, goes on and ends. -/

namespace Sys2Proof.Machine

@[simp] theorem State.gw_setGw (s : State) (pod : Nat) (x : GwSess) : (s.setGw pod x).gw pod = x := tget_tset_same ..

/-- A message that this gateway may take: of its kind, version and pod (R235). -/
def GwAddressed (kind : Nat) (m : GwMsg) (s : State) : Prop :=
  s.retr.enabled = true ∧ m.kind.toNat = kind ∧ m.version = 1 ∧ m.dstPod.toNat = nodePod s.fabric.node.toNat

/-- A message under the key and number of a session that is not closed. -/
def GwAuthentic (m : GwMsg) (s : State) : Prop :=
  m.key = (s.gw m.srcPod.toNat).key ∧ m.session = (s.gw m.srcPod.toNat).number ∧ (s.gw m.srcPod.toNat).state ≠ 0

theorem GwAddressed.checks {kind : Nat} {m : GwMsg} {s : State} (h : GwAddressed kind m s) :
    ¬ ((!s.retr.enabled) = true ∨ m.kind.toNat ≠ kind ∨ m.version ≠ 1 ∨ m.dstPod.toNat ≠ nodePod s.fabric.node.toNat) := by
  simp only [not_or, Bool.not_eq_true', Bool.not_eq_false, ne_eq, not_not]
  exact h

theorem not_gwAddressed {kind : Nat} {m : GwMsg} {s : State} (h : ¬ GwAddressed kind m s) :
    (!s.retr.enabled) = true ∨ m.kind.toNat ≠ kind ∨ m.version ≠ 1 ∨ m.dstPod.toNat ≠ nodePod s.fabric.node.toNat := by
  by_contra hc
  simp only [not_or, Bool.not_eq_true', Bool.not_eq_false, ne_eq, not_not] at hc
  exact h hc

theorem GwAuthentic.checks {m : GwMsg} {s : State} (h : GwAuthentic m s) :
    ¬ (m.key ≠ (s.gw m.srcPod.toNat).key ∨ m.session ≠ (s.gw m.srcPod.toNat).number ∨ (s.gw m.srcPod.toNat).state = 0) := by
  simp only [not_or, ne_eq, not_not]
  exact h

theorem gwReceive_refused {kind : Nat} {m : GwMsg} {s : State} (h : ¬ GwAddressed kind m s) : gwReceive kind m s = (false, s) :=
  if_pos (not_gwAddressed h)

theorem gwReceive_unauthentic {kind : Nat} {m : GwMsg} {s : State} (h : GwAddressed kind m s) (ha : ¬ GwAuthentic m s) :
    gwReceive kind m s = (false, s.count Obj.retrieverAuthFailures 1) := by
  refine (if_neg h.checks).trans (if_pos ?_)
  by_contra hc
  simp only [not_or, ne_eq, not_not] at hc
  exact ha hc

theorem gwReceive_out_of_sequence {kind : Nat} {m : GwMsg} {s : State} (h : GwAddressed kind m s) (ha : GwAuthentic m s)
    (hn : m.seq.toNat ≠ (s.gw m.srcPod.toNat).rxSeq) :
    gwReceive kind m s = (false, if m.seq.toNat < (s.gw m.srcPod.toNat).rxSeq ∧ (s.gw m.srcPod.toNat).state = 2 ∧
      (s.gw m.srcPod.toNat).unacked = [] then gwSend m.srcPod.toNat gwIDLE 0 [] s else s) := by
  refine ((if_neg h.checks).trans (if_neg ha.checks)).trans ((if_pos hn).trans ?_)
  simp only [List.isEmpty_iff]

/-- The session after a message in sequence: its ack, its credits and what it acknowledges. -/
def gwTaken (m : GwMsg) (now : Nat) (x : GwSess) : GwSess :=
  { x with
    rxSeq := x.rxSeq + 1, rxAck := m.seq.toNat, unacked := x.unacked.filter (fun u => m.ack.toNat < u.1)
    readCr := gwCredit x.readCr m.readCr.toNat, storeCr := gwCredit x.storeCr m.storeCr.toNat
    progress := if (x.unacked.filter (fun u => m.ack.toNat < u.1)).length < x.unacked.length then now else x.progress }

theorem gwReceive_in_sequence {kind : Nat} {m : GwMsg} {s : State} (h : GwAddressed kind m s) (ha : GwAuthentic m s)
    (hn : m.seq.toNat = (s.gw m.srcPod.toNat).rxSeq) :
    gwReceive kind m s = (true, s.setGw m.srcPod.toNat (gwTaken m s.beat (s.gw m.srcPod.toNat))) :=
  ((if_neg h.checks).trans (if_neg ha.checks)).trans (if_neg (not_not.2 hn))

/-- A message leaves on the wire alone, and only where the gateway's link is up. -/
theorem gwEmit_eq (pod kind seq : Nat) (body : BitVec 256) (payload : Bytes) (s : State) :
    gwEmit pod kind seq body payload s = { s with out := (gwEmit pod kind seq body payload s).out } := by
  rw [gwEmit]; split <;> rfl

theorem gwEmit_length (pod kind seq : Nat) (body : BitVec 256) (payload : Bytes) (s : State) :
    (gwEmit pod kind seq body payload s).out.length = s.out.length + (if s.serve.links.getD 1 false then 1 else 0) := by
  rw [gwEmit]; split
  · exact List.length_append
  · rfl

/-- A session with one message more on its way. -/
def gwWith (now kind : Nat) (body : BitVec 256) (payload : Bytes) (x : GwSess) : GwSess :=
  { x with
    txSeq := x.txSeq + 1, unacked := x.unacked ++ [(x.txSeq, kind, body, payload)]
    progress := if x.unacked.isEmpty then now else x.progress }

theorem gwSend_eq (pod kind : Nat) (body : BitVec 256) (payload : Bytes) (s : State) :
    gwSend pod kind body payload s =
      { s.setGw pod (gwWith s.beat kind body payload (s.gw pod)) with out := (gwSend pod kind body payload s).out } :=
  gwEmit_eq ..

theorem gwSend_gw (pod kind : Nat) (body : BitVec 256) (payload : Bytes) (s : State) :
    (gwSend pod kind body payload s).gw pod = gwWith s.beat kind body payload (s.gw pod) := by
  rw [gwSend_eq]; exact State.gw_setGw ..

theorem gwSend_bufs (pod kind : Nat) (body : BitVec 256) (payload : Bytes) (s : State) :
    (gwSend pod kind body payload s).retr.bufs = s.retr.bufs := by
  rw [gwSend_eq]; rfl

theorem count_untouched_of_od {k n : Nat} {s u : State} (h : u.od = s.od) : Untouched [k] s (u.count k n) :=
  fun j hj => (count_untouched k n u j hj).trans (State.obj_of_od h j)

theorem obj_count_of_od {k n : Nat} {s u : State} (h : u.od = s.od) (hb : objBits k ≤ 64) :
    (u.count k n).obj k = (s.obj k + n) % 2 ^ objBits k := by
  rw [obj_count_same _ _ hb, State.obj_of_od h]

@[simp] theorem State.gw_count (s : State) (pod k n : Nat) : (s.count k n).gw pod = s.gw pod := rfl

/-- The session that a pod with a counted session number `n` asks for. -/
def gwAsked (pod : Nat) (s : State) : GwSess :=
  gwWith s.beat gwOPEN 0 (levelPayload (tget 0 pod s.retr.counter + 1))
    { state := 1, number := tget 0 pod s.retr.counter + 1, key := s.objB (Obj.retrieverKeyQ + pod), txSeq := 1, rxSeq := 1
      progress := s.beat, resent := s.beat }

theorem gwOpen_eq (pod : Nat) (s : State) :
    gwOpen pod s =
      { s with
        retr := { s.retr with
          counter := tset pod (tget 0 pod s.retr.counter + 1) s.retr.counter
          sessions := (gwOpen pod s).retr.sessions }
        out := (gwOpen pod s).out } := by
  rw [gwOpen, gwSend_eq]
  rfl

theorem gwOpen_gw (pod : Nat) (s : State) : (gwOpen pod s).gw pod = gwAsked pod s := by
  rw [gwOpen, gwSend_gw, State.gw_setGw]
  rfl

theorem setGw_count_frame (s : State) (pod k n : Nat) (x y z : GwSess) :
    (((s.setGw pod x).setGw pod y).setGw pod z).count k n =
      { s with
        od := ((((s.setGw pod x).setGw pod y).setGw pod z).count k n).od
        retr := ((((s.setGw pod x).setGw pod y).setGw pod z).count k n).retr } :=
  (State_count_keeps_k (m := 2097154) (by decide) (State_setGw_keeps_k (by decide) (State_setGw_keeps_k (by decide)
    (State_setGw_keeps_k (by decide) (Keeps.refl _ s))))).eq

/-- With no buffer open there is nothing to let go. -/
theorem gwPumpAll_idle {s : State} (h : s.retr.bufs = []) : gwPumpAll s = s := by
  simp only [gwPumpAll, gwPump, h, gwNext]

theorem gwDrop_idle {pod : Nat} {s : State} (h : s.retr.bufs = []) :
    gwDrop pod s = { s with retr := { s.retr with serving := s.retr.serving.filter (fun v => v.pod != pod) } } := by
  simp only [gwDrop, h, List.filter_nil, List.foldl_nil]

theorem gwRetry_idle {n : Nat} {s : State} (h : s.retr.held = []) : gwRetry n s = s := by
  cases n with
  | zero => rfl
  | succ n => simp only [gwRetry, h, gwNextHeld]

/-- Sending again what is unacknowledged changes nothing but the wire. -/
theorem gwResend_eq (pod : Nat) (l : List (Nat × Nat × BitVec 256 × Bytes)) (s : State) :
    l.foldl (fun v u => gwEmit pod u.2.1 u.1 u.2.2.1 u.2.2.2 v) s =
      { s with out := (l.foldl (fun v u => gwEmit pod u.2.1 u.1 u.2.2.1 u.2.2.2 v) s).out } := by
  induction l generalizing s with
  | nil => rfl
  | cons x l ih =>
    rw [List.foldl_cons, ih, gwEmit_eq]

theorem gwResend_length (pod : Nat) (l : List (Nat × Nat × BitVec 256 × Bytes)) (s : State) :
    (l.foldl (fun v u => gwEmit pod u.2.1 u.1 u.2.2.1 u.2.2.2 v) s).out.length =
      s.out.length + (if s.serve.links.getD 1 false then l.length else 0) := by
  induction l generalizing s with
  | nil => simp
  | cons x l ih =>
    have hserve : (gwEmit pod x.2.1 x.1 x.2.2.1 x.2.2.2 s).serve = s.serve := by rw [gwEmit_eq]
    rw [List.foldl_cons, ih, gwEmit_length, hserve, List.length_cons]
    split <;> omega

/-- The session that an OPEN in order makes. -/
def gwOpened (m : GwMsg) (now : Nat) : GwSess :=
  { state := 2, number := m.session, key := m.key, txSeq := 1, rxSeq := m.seq.toNat + 1, rxAck := m.seq.toNat
    readCr := m.readCr.toNat, storeCr := m.storeCr.toNat, progress := now, resent := now }

/-- The pod's count of session numbers raised to the one that an OPEN names. -/
def gwCounted (m : GwMsg) (s : State) : State :=
  { s with retr := { s.retr with
    counter := tset m.srcPod.toNat (BitVec.ofNat 32 (max (tget 0 m.srcPod.toNat s.retr.counter).toNat m.session.toNat))
      s.retr.counter } }

theorem open_taken {m : GwMsg} {s : State} (h : GwAddressed gwOPEN m s) (hk : m.key = s.objB (Obj.retrieverKeyQ + m.srcPod.toNat))
    (hl : leAt m.payload 0 1 ≠ 0) (hc : ¬ ((s.gw m.srcPod.toNat).state = 1 ∧ nodePod s.fabric.node.toNat < m.srcPod.toNat)) :
    exec (.retrieverOpen m) s = .next (gwPumpAll (gwSend m.srcPod.toNat gwACCEPT 0 (levelPayload m.session)
      (((gwCounted m (gwDrop m.srcPod.toNat s)).setGw m.srcPod.toNat (gwOpened m s.beat)).count
        Obj.retrieverSessionOpens 1))) := by
  have hbeat : gwOpened m (gwDrop m.srcPod.toNat s).beat = gwOpened m s.beat := by rw [(gwDrop_keeps ..).beat rfl]
  rw [← hbeat]
  exact ((if_neg h.checks).trans (if_neg (not_not.2 hk))).trans ((if_neg hl).trans (if_neg hc))

theorem accept_taken {m : GwMsg} {s : State} (hs : (s.gw m.srcPod.toNat).state = 1) (hl : leAt m.payload 0 1 = 1) :
    exec (.retrieverAccept m) s =
      let r := gwReceive gwACCEPT m (s.setGw m.srcPod.toNat { (s.gw m.srcPod.toNat) with rxSeq := m.seq.toNat })
      .next (if r.1 then gwPumpAll ((r.2.setGw m.srcPod.toNat { r.2.gw m.srcPod.toNat with state := 2 }).count
        Obj.retrieverSessionOpens 1) else r.2) := by
  have hgo : ¬ ((s.gw m.srcPod.toNat).state ≠ 1 ∨ leAt m.payload 0 1 ≠ 1) := by
    simp only [not_or, ne_eq, not_not]; exact ⟨hs, hl⟩
  refine (if_neg hgo).trans ?_
  dsimp only
  generalize gwReceive gwACCEPT m (s.setGw m.srcPod.toNat { (s.gw m.srcPod.toNat) with rxSeq := m.seq.toNat }) = r
  obtain ⟨ok, u⟩ := r
  cases ok <;> rfl

theorem idle_taken (m : GwMsg) (s : State) :
    exec (.retrieverIdle m) s =
      .next (if (gwReceive gwIDLE m s).1 then gwPumpAll (gwReceive gwIDLE m s).2 else (gwReceive gwIDLE m s).2) := by
  show execRetrieverIdle m s = _
  rw [execRetrieverIdle]
  generalize gwReceive gwIDLE m s = r
  obtain ⟨ok, u⟩ := r
  cases ok <;> rfl

theorem resend_due {q : PodId} {s : State}
    (h : (s.gw q.val).unacked ≠ [] ∧ max (s.gw q.val).progress (s.gw q.val).resent + 50000 ≤ s.beat) :
    exec (.retrieverResend q) s = .next ((s.gw q.val).unacked.foldl (fun v u => gwEmit q.val u.2.1 u.1 u.2.2.1 u.2.2.2 v)
      ((s.setGw q.val { (s.gw q.val) with resent := s.beat }).count Obj.retrieverResends (s.gw q.val).unacked.length)) := by
  refine if_neg ?_
  simp only [not_or, List.isEmpty_iff, Nat.not_lt]
  exact h

theorem sessionTimeout_due {q : PodId} {s : State} (h : (s.gw q.val).state ≠ 0 ∧ (s.gw q.val).unacked ≠ [] ∧
      (s.gw q.val).progress + 10000000 ≤ s.beat) {u v w : State}
    (hu : u = gwDrop q.val { s with retr := { s.retr with
      held := s.retr.held.filter (fun x => nodePod (pkSpecC x.2.hdr) != q.val) } })
    (hv : v = (u.retr.bufs.filter (fun b => b.pod == q.val)).foldl (fun y b => gwLose b y) u)
    (hw : w = (s.retr.held.filter (fun x => nodePod (pkSpecC x.2.hdr) == q.val)).foldl (fun y x => gwHeldLost x y) v) :
    exec (.retrieverSessionTimeout q) s = .next (gwRetry (v.retr.held.length + 1) (gwOpen q.val w)) := by
  subst hw hv hu
  refine if_neg ?_
  simp only [not_or, List.isEmpty_iff, Nat.not_lt]
  exact h

/-- Settles O38. -/
theorem gatewaySessions : Obligations.GatewaySessions := by
  refine ⟨?_, ?_, ?_, ?_, ?_, ?_, ?_, ?_, ?_, ?_, ?_, ?_, ?_, ?_, ?_, ?_, ?_, ?_, ?_, ?_, ?_, ?_, ?_, ?_, ?_⟩
  · refine fun kind m s h => if_pos ?_
    simpa only [Bool.not_eq_true'] using h
  · exact fun kind m s he hk hv hd ha => gwReceive_unauthentic ⟨he, hk, hv, hd⟩ ha
  · exact fun kind m s he hk hv hd ha hn => gwReceive_out_of_sequence ⟨he, hk, hv, hd⟩ ha hn
  · rintro kind m s _ he hk hv hd ha hn rfl
    exact gwReceive_in_sequence ⟨he, hk, hv, hd⟩ ha hn
  · intro seen v hv
    simp only [gwCredit]
    omega
  · exact fun m s h => ⟨s, if_pos (not_gwAddressed h), rfl⟩
  · exact fun m s h hk => ⟨_, (if_neg (GwAddressed.checks h)).trans (if_pos hk), rfl⟩
  · exact fun m s h hk hl => ⟨_, ((if_neg (GwAddressed.checks h)).trans (if_neg (not_not.2 hk))).trans (if_pos hl), rfl,
      (logEvent_keeps ..).retr rfl, (logEvent_keeps ..).out rfl⟩
  · exact fun m s h hk hl hc => ⟨s, ((if_neg (GwAddressed.checks h)).trans (if_neg (not_not.2 hk))).trans
      ((if_neg hl).trans (if_pos hc)), rfl⟩
  · rintro m _ _ _ s h hk hl hc rfl rfl rfl
    exact ⟨_, open_taken h hk hl hc, rfl⟩
  · intro m s h hk hl hc hb
    refine ⟨_, open_taken h hk hl hc, ?_⟩
    rw [gwDrop_idle hb, gwPumpAll_idle (by rw [gwSend_bufs]; exact hb), gwSend_gw, State.gw_count, State.gw_setGw, gwSend_eq]
    exact ⟨rfl, rfl, rfl, rfl, rfl, rfl, rfl, rfl, obj_count_of_od rfl (by decide), count_untouched_of_od rfl, rfl⟩
  · exact fun pod s => rfl
  · exact fun m s h => ⟨s, if_pos h, rfl⟩
  · rintro m v u s hs hl rfl hr
    exact ⟨_, accept_taken hs hl, by rw [hr]; rfl⟩
  · rintro m v u s hs hl rfl hr
    exact ⟨_, accept_taken hs hl, by rw [hr]; rfl⟩
  · intro m s he hk hv hd hkey hnum hs hl hb
    refine ⟨_, accept_taken hs hl, ?_⟩
    have hr := gwReceive_in_sequence (kind := gwACCEPT) (m := m)
      (s := s.setGw m.srcPod.toNat { (s.gw m.srcPod.toNat) with rxSeq := m.seq.toNat }) ⟨he, hk, hv, hd⟩
      (by rw [GwAuthentic, State.gw_setGw]; exact ⟨hkey, hnum, by rw [hs]; decide⟩) (by rw [State.gw_setGw])
    simp only [hr, if_true, State.gw_setGw]
    rw [gwPumpAll_idle (by exact hb), State.gw_count, State.gw_setGw]
    exact ⟨rfl, rfl, rfl, obj_count_of_od rfl (by decide), count_untouched_of_od rfl, setGw_count_frame ..⟩
  · exact fun m u s hr => ⟨_, idle_taken m s, by rw [hr]; rfl⟩
  · exact fun m u s hr => ⟨_, idle_taken m s, by rw [hr]; rfl⟩
  · intro m s he hk hv hd hkey hnum hs hn hb
    refine ⟨_, idle_taken m s, ?_⟩
    have hr := gwReceive_in_sequence (kind := gwIDLE) ⟨he, hk, hv, hd⟩ ⟨hkey, hnum, by rw [hs]; decide⟩ hn
    simp only [hr, if_true]
    rw [gwPumpAll_idle (by exact hb), State.gw_setGw]
    rfl
  · intro q s h
    refine ⟨s, if_pos ?_, rfl⟩
    by_contra hc
    simp only [not_or, List.isEmpty_iff, Nat.not_lt] at hc
    exact h hc
  · exact fun q s h => ⟨_, resend_due h, rfl⟩
  · intro q s h
    refine ⟨_, resend_due h, ?_⟩
    refine ⟨?_, ?_, ?_, ?_, ?_⟩
    · rw [gwResend_eq]; exact State.gw_setGw ..
    · rw [gwResend_eq]; exact obj_count_of_od rfl (by decide)
    · rw [gwResend_eq]; exact count_untouched_of_od rfl
    · exact gwResend_length ..
    · rw [gwResend_eq]; rfl
  · intro q s h
    refine ⟨s, if_pos ?_, rfl⟩
    by_contra hc
    simp only [not_or, List.isEmpty_iff, Nat.not_lt] at hc
    exact h hc
  · exact fun q u v w s h hu hv hw => ⟨_, sessionTimeout_due h hu hv hw, rfl⟩
  · intro q s h hb hh
    have hdrop : gwDrop q.val { s with retr := { s.retr with
          held := s.retr.held.filter (fun x => nodePod (pkSpecC x.2.hdr) != q.val) } } =
        { s with retr := { s.retr with serving := s.retr.serving.filter (fun v => v.pod != q.val) } } := by
      have hheld : s.retr.held.filter (fun x => nodePod (pkSpecC x.2.hdr) != q.val) = s.retr.held := by rw [hh]; rfl
      rw [hheld]
      exact gwDrop_idle hb
    refine ⟨_, sessionTimeout_due h hdrop.symm rfl rfl, ?_⟩
    simp only [hb, hh, List.filter_nil, List.foldl_nil]
    rw [gwRetry_idle (by rw [gwOpen_eq]), gwOpen_gw, gwOpen_eq]
    exact ⟨rfl, rfl, rfl, rfl, rfl, rfl⟩

end Sys2Proof.Machine

end

section

/-! PROOFS. Serving sessions (R238 to R243): the session table, records in and out, and how a session ends. -/

namespace Sys2Proof.Machine

/-- Looking a session up after an update that keeps numbers. -/
theorem sessOf_modSess {num : W32} {f : Sess → Sess} {q : Sess} {s : State} (hf : ∀ x, (f x).num = x.num)
    (h : sessOf s num = some q) : sessOf (modSess num f s) num = some (f q) := by
  have hq : q.num = num := by simpa using List.find?_some h
  have hp : ((fun x : Sess => x.num == num) ∘ fun x : Sess => if x.num = num then f x else x) = fun x : Sess => x.num == num := by
    funext x
    by_cases hx : x.num = num
    · simp only [Function.comp, if_pos hx, hf]
    · simp only [Function.comp, if_neg hx]
  have hfind : s.serve.sessions.find? (fun x => x.num == num) = some q := h
  show List.find? _ (List.map _ _) = _
  rw [List.find?_map, hp, hfind, Option.map_some, if_pos hq]

theorem sessOf_num {num : W32} {q : Sess} {s : State} (h : sessOf s num = some q) : q.num = num := by
  simpa using List.find?_some h

/-- A datagram's session is found under its own number. -/
theorem datagramSession_sessOf {d : Dgram} {q : Sess} {s : State} (h : datagramSession s d = some q) : sessOf s q.num = some q := by
  rw [datagramSession] at h
  split at h
  · cases hs : sessOf s d.session with
    | none => simp only [hs, reduceCtorEq] at h
    | some x =>
      simp only [hs] at h
      split at h
      · rw [← Option.some.inj h, sessOf_num hs, hs]
      · cases h
  · cases h

theorem servePortUp_congr {s t : State} {p : Nat} (hod : t.od = s.od) (hl : t.serve.links = s.serve.links) (hd : t.dev = s.dev) :
    servePortUp t p = servePortUp s p := by
  simp only [servePortUp, State.obj_of_od hod, hl, hd]

/-! ### Records out -/

theorem serveOut_eq {num : W32} {seq kind : Nat} {body : Bytes} {q : Sess} {s : State} (h : sessOf s num = some q) :
    serveOut num seq kind body s =
      (modSess num (fun x => { x with due := false }) (if servePortUp s q.port then
        s.emit (.serve q.port (serveHeader kind q.tenant num.toNat seq (ackField s q)) (serveNonce num.toNat seq) body) else s)).drawn 1 := by
  simp only [serveOut, h]

theorem sessOf_serveOut {num : W32} {seq kind : Nat} {body : Bytes} {q : Sess} {s : State} (h : sessOf s num = some q) :
    sessOf (serveOut num seq kind body s) num = some { q with due := false } := by
  rw [serveOut_eq h]
  refine sessOf_modSess (f := fun x => { x with due := false }) (fun _ => rfl) ?_
  split <;> exact h

theorem serveOut_links (num : W32) (seq kind : Nat) (body : Bytes) (s : State) :
    (serveOut num seq kind body s).serve.links = s.serve.links := by
  rw [serveOut]
  cases sessOf s num with
  | none => rfl
  | some q =>
    dsimp only
    split <;> rfl

theorem serveOut_portUp (num : W32) (seq kind : Nat) (body : Bytes) (s : State) (p : Nat) :
    servePortUp (serveOut num seq kind body s) p = servePortUp s p :=
  servePortUp_congr ((serveOut_keeps ..).od rfl) (serveOut_links ..) ((serveOut_keeps ..).dev rfl)

theorem serveOut_out {num : W32} {seq kind : Nat} {body : Bytes} {q : Sess} {s : State} (h : sessOf s num = some q)
    (hp : servePortUp s q.port = true) :
    (serveOut num seq kind body s).out = s.out ++ [.serve q.port (serveHeader kind q.tenant num.toNat seq (ackField s q))
      (serveNonce num.toNat seq) body] := by
  rw [serveOut_eq h, if_pos hp]; rfl

/-- Records sent again on a port that is up are one message each. -/
theorem serveOuts_length {num : W32} {q : Sess} (l : List ServeRec) {s : State} (h : sessOf s num = some q)
    (hp : servePortUp s q.port = true) :
    (l.foldl (fun v r => serveOut num r.seq r.kind r.body v) s).out.length = s.out.length + l.length := by
  induction l generalizing s q with
  | nil => rfl
  | cons r l ih =>
    rw [List.foldl_cons, ih (sessOf_serveOut h) (by rw [serveOut_portUp]; exact hp), serveOut_out h hp, List.length_append,
      List.length_cons, List.length_cons, List.length_nil]
    omega

theorem serveOuts_keeps {num : W32} (l : List ServeRec) {s t : State} (h : Keeps 1649271635968 s t) :
    Keeps 1649271635968 s (l.foldl (fun v r => serveOut num r.seq r.kind r.body v) t) :=
  h.foldl fun _ _ hv => serveOut_keeps_k (by decide) hv

/-! ### Acknowledgement and the end of a session -/

theorem closeSession_open {num : W32} {q : Sess} {s : State} (h : sessOf s num = some q) (hc : q.closing = false ∨ q.due = true) :
    closeSession num s = s := by
  have hgo : ¬ (q.closing = true ∧ q.unacked.isEmpty = true ∧ (!q.due) = true ∧ (!s.serve.ctxs.any (fun c => c.session == num)) = true) := by
    rintro ⟨hcl, -, hd, -⟩
    rcases hc with hc | hc
    · rw [hc] at hcl; exact Bool.false_ne_true hcl
    · rw [hc] at hd; exact Bool.false_ne_true hd
  simp only [closeSession, h]
  exact if_neg hgo

theorem takeAck_eq {num : W32} {ack : Nat} {q : Sess} {s : State} (h : sessOf s num = some q) :
    takeAck num ack s = if q.unacked.any (fun r => decide (r.seq ≤ ack)) = true ∧ ack < q.txNext then
      closeSession num (sendQueued num (modSess num (fun x =>
        { x with unacked := x.unacked.filter (fun r => !decide (r.seq ≤ ack)), progress := s.beat }) s)) else s := by
  simp only [takeAck, h]

theorem takeAck_nothing {num : W32} {ack : Nat} {q : Sess} {s : State} (h : sessOf s num = some q) (hu : q.unacked = []) :
    takeAck num ack s = s := by
  rw [takeAck_eq h, if_neg (by rw [hu]; exact fun hc => Bool.false_ne_true hc.1)]

/-- What sending keeps of a session. -/
def SessKept (x y : Sess) : Prop :=
  y.ackRx = x.ackRx ∧ y.progress = x.progress ∧ y.closing = x.closing ∧ y.unacked.map (fun r => r.seq) = x.unacked.map (fun r => r.seq)

theorem sendQueued_kept {num : W32} {q : Sess} {s : State} (h : sessOf s num = some q) :
    ∃ x, sessOf (sendQueued num s) num = some x ∧ SessKept q x := by
  simp only [sendQueued, h]
  refine List.foldlRecOn (motive := fun v => ∃ x, sessOf v num = some x ∧ SessKept q x) _ _ ⟨q, h, rfl, rfl, rfl, rfl⟩ ?_
  rintro v ⟨x, hx, hr, hp, hc, hu⟩ r -
  have hsent : sessOf (modSess num (fun y => { y with
      unacked := y.unacked.map (fun z => if z.seq = r.seq then { z with sent := some v.beat } else z) }) v) num =
      some { x with unacked := x.unacked.map (fun z => if z.seq = r.seq then { z with sent := some v.beat } else z) } :=
    sessOf_modSess (f := fun y => { y with
      unacked := y.unacked.map (fun z => if z.seq = r.seq then { z with sent := some v.beat } else z) }) (fun _ => rfl) hx
  refine ⟨_, sessOf_serveOut hsent, hr, hp, hc, ?_⟩
  show List.map _ (List.map _ _) = _
  rw [List.map_map, ← hu]
  refine List.map_congr_left fun z _ => ?_
  show (if z.seq = r.seq then { z with sent := some v.beat } else z : ServeRec).seq = z.seq
  split <;> rfl

/-! ### Numbered records -/

theorem takeInOrder_down {d : Dgram} {op : Sess → State → State} {s : State} (h : servePortUp s d.port.val = false) :
    takeInOrder d op s = s := by
  simp only [takeInOrder, h, Bool.not_false, if_true]

theorem takeInOrder_unknown {d : Dgram} {op : Sess → State → State} {s : State} (h : servePortUp s d.port.val = true)
    (hq : datagramSession s d = none) : takeInOrder d op s = s.count Obj.serveAuthDrops 1 := by
  simp only [takeInOrder, h, hq, Bool.not_true, Bool.false_eq_true, if_false]
  rfl

theorem takeInOrder_out_of_order {d : Dgram} {op : Sess → State → State} {q : Sess} {s : State}
    (h : servePortUp s d.port.val = true) (hq : datagramSession s d = some q) (hn : d.seq.toNat % 2 ^ 63 ≠ q.rxNext) :
    takeInOrder d op s = modSess q.num (fun x => { x with due := true }) s := by
  simp only [takeInOrder, h, hq, Bool.not_true, Bool.false_eq_true, if_false, hn]

theorem takeInOrder_in_order {d : Dgram} {op : Sess → State → State} {q x : Sess} {s u : State}
    (h : servePortUp s d.port.val = true) (hq : datagramSession s d = some q) (hn : d.seq.toNat % 2 ^ 63 = q.rxNext)
    (hu : u = takeAck q.num d.ack.toNat (modSess q.num (fun x => { x with rxNext := x.rxNext + 1 })
      (modSess q.num (fun x => { x with due := true }) s))) (hx : sessOf u q.num = some x) :
    takeInOrder d op s = op x u := by
  rw [hu] at hx
  simp only [takeInOrder, h, hq, Bool.not_true, Bool.false_eq_true, if_false, hn, if_true, hx, hu]

/-- The session and the state that take a record in order where nothing waits for an acknowledgement. -/
def recordTaken (q : Sess) (s : State) : State :=
  modSess q.num (fun x => { x with rxNext := x.rxNext + 1 }) (modSess q.num (fun x => { x with due := true }) s)

theorem sessOf_recordTaken {d : Dgram} {q : Sess} {s : State} (hq : datagramSession s d = some q) :
    sessOf (recordTaken q s) q.num = some { q with due := true, rxNext := q.rxNext + 1 } :=
  sessOf_modSess (f := fun x => { x with rxNext := x.rxNext + 1 }) (fun _ => rfl)
    (sessOf_modSess (f := fun x => { x with due := true }) (fun _ => rfl) (datagramSession_sessOf hq))

theorem takeInOrder_unacked_none {d : Dgram} {op : Sess → State → State} {q : Sess} {s : State}
    (h : servePortUp s d.port.val = true) (hq : datagramSession s d = some q) (hn : d.seq.toNat % 2 ^ 63 = q.rxNext)
    (hu : q.unacked = []) : takeInOrder d op s = op { q with due := true, rxNext := q.rxNext + 1 } (recordTaken q s) := by
  have hnone : takeAck q.num d.ack.toNat (recordTaken q s) = recordTaken q s := takeAck_nothing (sessOf_recordTaken hq) hu
  exact takeInOrder_in_order h hq hn hnone.symm (sessOf_recordTaken hq)

theorem recordTaken_eq (q : Sess) (s : State) : recordTaken q s = { s with serve := (recordTaken q s).serve } := rfl

theorem cancelSession_none {num : W32} {s : State} (ha : s.serve.asm.filter (fun a => a.session == num) = [])
    (hc : s.serve.ctxs.filter (fun c => c.session == num) = []) : cancelSession num s = s := by
  simp only [cancelSession, ha, List.foldl_nil, endRequests, hc, List.map_nil]

/-- CLOSE of a session without requests: it waits for its own acknowledgement. -/
theorem close_idle {d : Dgram} {q : Sess} {s : State} (h : servePortUp s d.port.val = true) (hq : datagramSession s d = some q)
    (hn : d.seq.toNat % 2 ^ 63 = q.rxNext) (hu : q.unacked = []) (ha : s.serve.asm.filter (fun a => a.session == q.num) = [])
    (hc : s.serve.ctxs.filter (fun c => c.session == q.num) = []) :
    exec (.close d) s = .next (modSess q.num (fun x => { x with closing := true }) (recordTaken q s)) := by
  have hx : sessOf (modSess q.num (fun x => { x with closing := true }) (recordTaken q s)) q.num =
      some { q with due := true, rxNext := q.rxNext + 1, closing := true } :=
    sessOf_modSess (f := fun x => { x with closing := true }) (fun _ => rfl) (sessOf_recordTaken hq)
  show Host.Outcome.next (takeInOrder _ _ _) = _
  rw [takeInOrder_unacked_none h hq hn hu, cancelSession_none (by exact ha) (by exact hc), closeSession_open hx (.inr rfl)]

/-! ### Acknowledgements, sessions that open, and times -/

theorem serveAck_taken {d : Dgram} {q : Sess} {s : State} (h : servePortUp s d.port.val = true) (hq : datagramSession s d = some q)
    (hn : d.seq.toNat.testBit 62 = true ∧ ∀ h ∈ q.ackRx, h < d.seq.toNat % 2 ^ 62) :
    exec (.serveAck d) s = .next (takeAck q.num d.ack.toNat (modSess q.num (fun x => { x with ackRx := some (d.seq.toNat % 2 ^ 62) }) s)) := by
  have hgo : (d.seq.toNat.testBit 62 && (q.ackRx.map (fun h => decide (h < d.seq.toNat % 2 ^ 62))).getD true) = true := by
    rw [hn.1, Bool.true_and]
    cases hr : q.ackRx with
    | none => rfl
    | some a => exact decide_eq_true (hn.2 a hr)
  show execServeAck d s = _
  simp only [execServeAck, h, hq, Bool.not_true, Bool.false_eq_true, if_false]
  rw [if_pos hgo]

theorem serveAck_ignored {d : Dgram} {q : Sess} {s : State} (h : servePortUp s d.port.val = true) (hq : datagramSession s d = some q)
    (hn : ¬ (d.seq.toNat.testBit 62 = true ∧ ∀ h ∈ q.ackRx, h < d.seq.toNat % 2 ^ 62)) : exec (.serveAck d) s = .next s := by
  have hgo : ¬ (d.seq.toNat.testBit 62 && (q.ackRx.map (fun h => decide (h < d.seq.toNat % 2 ^ 62))).getD true) = true := by
    intro hc
    obtain ⟨hb, hlt⟩ := Bool.and_eq_true_iff.1 hc
    refine hn ⟨hb, fun a ha => ?_⟩
    rw [Option.mem_def.1 ha] at hlt
    exact of_decide_eq_true hlt
  show execServeAck d s = _
  simp only [execServeAck, h, hq, Bool.not_true, Bool.false_eq_true, if_false]
  rw [if_neg hgo]

/-- A SERVE_ACK that covers records of an open session releases them. -/
theorem serveAck_releases {d : Dgram} {q : Sess} {n : Nat} {s : State} (hq : datagramSession s d = some q)
    (hany : q.unacked.any (fun r => decide (r.seq ≤ d.ack.toNat)) = true) (ht : d.ack.toNat < q.txNext) (hc : q.closing = false) :
    ∃ x, sessOf (takeAck q.num d.ack.toNat (modSess q.num (fun x => { x with ackRx := some n }) s)) q.num = some x ∧
      x.ackRx = some n ∧ x.progress = s.beat ∧
      x.unacked.map (fun r => r.seq) = (q.unacked.filter (fun r => !decide (r.seq ≤ d.ack.toNat))).map (fun r => r.seq) := by
  have hx : sessOf (modSess q.num (fun x => { x with ackRx := some n }) s) q.num = some { q with ackRx := some n } :=
    sessOf_modSess (f := fun x => { x with ackRx := some n }) (fun _ => rfl) (datagramSession_sessOf hq)
  rw [takeAck_eq hx, if_pos ⟨hany, ht⟩]
  obtain ⟨x, hy, hr, hp, hcl, hu⟩ := sendQueued_kept (sessOf_modSess (f := fun x => { x with
    unacked := x.unacked.filter (fun r => !decide (r.seq ≤ d.ack.toNat)), progress := s.beat }) (fun _ => rfl) hx)
  rw [show (modSess q.num (fun x => { x with ackRx := some n }) s).beat = s.beat from rfl,
    closeSession_open hy (.inl (hcl.trans hc))]
  exact ⟨x, hy, hr, hp, hu⟩

/-- A session with one record more that leaves at once. -/
def recordSent (kind : Nat) (body : Bytes) (now : Nat) (x : Sess) : Sess :=
  { x with
    txNext := x.txNext + 1, unacked := x.unacked ++ [{ seq := x.txNext, kind, body, sent := some now }]
    progress := if x.unacked.isEmpty then now else x.progress }

theorem serveSend_fits {num : W32} {kind : Nat} {body : Bytes} {q : Sess} {s : State} (h : sessOf s num = some q)
    (hl : q.unacked.length < s.obj Obj.serveWindowRecords) :
    serveSend num kind body s = serveOut num q.txNext kind body (modSess num (recordSent kind body s.beat) s) := by
  simp only [serveSend, h, hl, decide_true, if_true]
  rfl

theorem openSession_known {d : Dgram} {s : State} (h : servePortUp s d.port.val = true) (hk : datagramKnown s d = true)
    (hkey : s.objB (tenantKeyOf Obj.tenantKey d.tenant.toNat) = d.key) :
    ¬ (!servePortUp s d.port.val) = true ∧
      ¬ (!datagramKnown s d || s.objB (tenantKeyOf Obj.tenantKey d.tenant.toNat) != d.key) = true := by
  rw [h, hk, hkey, bne_self_eq_false]
  exact ⟨Bool.false_ne_true, Bool.false_ne_true⟩

/-- The body of the ACCEPT that answers an OPEN (R239). -/
def acceptBody (d : Dgram) (s : State) : Bytes :=
  leBytes 1 1 ++ leBytes 2 (acceptLimits s d.tenant.toNat).1 ++ leBytes 1 (acceptLimits s d.tenant.toNat).2.1 ++
    leBytes 1 (acceptLimits s d.tenant.toNat).2.2 ++ leBytes 3 0

/-- The session that an accepted OPEN adds. -/
def sessOpened (d : Dgram) (s : State) : Sess :=
  { num := s.serve.nextSess, tenant := d.tenant.toNat, port := d.port.val, key := d.key }

/-- The state with that session under the next number. -/
def withSession (d : Dgram) (s : State) : State :=
  { s with serve := { s.serve with nextSess := s.serve.nextSess + 1, sessions := s.serve.sessions ++ [sessOpened d s] } }

theorem openSession_accepted {d : Dgram} {s : State} (h : servePortUp s d.port.val = true) (hk : datagramKnown s d = true)
    (hkey : s.objB (tenantKeyOf Obj.tenantKey d.tenant.toNat) = d.key) (hc : openCode s d = 0) :
    exec (.openSession d) s = .next (serveSend s.serve.nextSess 0x02 (acceptBody d s) (withSession d s)) := by
  obtain ⟨hup, hauth⟩ := openSession_known h hk hkey
  exact ((if_neg hup).trans (if_neg hauth)).trans (if_neg (not_not.2 hc))

theorem sessOf_withSession {d : Dgram} {s : State} (h : sessOf s s.serve.nextSess = none) :
    sessOf (withSession d s) s.serve.nextSess = some (sessOpened d s) := by
  have hnone : s.serve.sessions.find? (fun x => x.num == s.serve.nextSess) = none := h
  show List.find? _ (_ ++ _) = _
  rw [List.find?_append, hnone, Option.none_or, List.find?_singleton]
  exact if_pos (beq_self_eq_true _)

/-- An update of a session that no other one shares its number with leaves the others. -/
theorem modSess_appended {f : Sess → Sess} {s u : State} {x : Sess} (h : sessOf s s.serve.nextSess = none)
    (hu : u.serve.sessions = s.serve.sessions ++ [x]) (hx : x.num = s.serve.nextSess) :
    (modSess s.serve.nextSess f u).serve.sessions = s.serve.sessions ++ [f x] := by
  show List.map _ _ = _
  rw [hu, List.map_append, List.map_singleton, if_pos hx]
  refine congrArg (· ++ _) ((List.map_congr_left fun y hy => if_neg fun e => ?_).trans (List.map_id _))
  exact absurd (beq_iff_eq.2 e) (List.find?_eq_none.1 h y hy)

theorem serveResend_due {session : W32} {q : Sess} {b : Nat} {s : State} (hq : sessOf s session = some q)
    (hb : q.unacked.head?.bind (fun r => r.sent) = some b) (hd : b + 1000 * s.obj Obj.serveResendUs ≤ s.beat) :
    exec (.serveResend session) s = .next (((q.unacked.filter (fun r => r.sent.isSome)).foldl
      (fun v r => serveOut session r.seq r.kind r.body v) (modSess session (fun x => { x with
        unacked := x.unacked.map (fun r => if r.sent.isSome then { r with sent := some s.beat } else r) }) s)).count
      Obj.serveResends (q.unacked.filter (fun r => r.sent.isSome)).length) := by
  show execServeResend session s = _
  simp only [execServeResend, hq, hb, hd, if_true]

theorem ackDue_sent {session : W32} {q : Sess} {s : State} (hq : sessOf s session = some q) (hd : q.due = true) :
    exec (.ackDue session) s = .next (closeSession session (modSess session (fun x => { x with ackTx := x.ackTx + 1 })
      (serveOut session (2 ^ 62 + q.ackTx) 0x09 [] s))) := by
  show execAckDue session s = _
  simp only [execAckDue, hq, hd, if_true]

theorem sessionTimeout_expired {session : W32} {q : Sess} {s : State} (hq : sessOf s session = some q) (hu : q.unacked ≠ [])
    (hd : q.progress + 1000000 * s.obj Obj.serveSessionTimeoutMs ≤ s.beat) :
    exec (.sessionTimeout session) s = .next { cancelSession session s with serve := { (cancelSession session s).serve with
      sessions := (cancelSession session s).serve.sessions.filter (fun x => x.num != session) } } := by
  have hgo : (!q.unacked.isEmpty) = true ∧ q.progress + 1000000 * s.obj Obj.serveSessionTimeoutMs ≤ s.beat := by
    rw [Bool.not_eq_true', List.isEmpty_eq_false_iff]; exact ⟨hu, hd⟩
  show execSessionTimeout session s = _
  simp only [execSessionTimeout, hq]
  exact if_pos hgo

/-- A SERVE_ACK's number carries bit 62. -/
theorem ackNumber {seq n : Nat} (h : seq = 2 ^ 62 + n) (hn : n < 2 ^ 62) : seq.testBit 62 = true ∧ seq % 2 ^ 62 = n := by
  rw [h, Nat.testBit_two_pow_add_eq, Nat.testBit_lt_two_pow hn, Nat.add_mod_left, Nat.mod_eq_of_lt hn]
  exact ⟨rfl, rfl⟩

/-- Settles O43. -/
theorem servingSessions : Obligations.ServingSessions := by
  refine ⟨?_, ?_, ?_, ?_, ?_, ?_, ?_, ?_, ?_, ?_, ?_, ?_, ?_, ?_, ?_, ?_, ?_, ?_, ?_, ?_, ?_, ?_, ?_, ?_, ?_, ?_, ?_, ?_, ?_, ?_, ?_, ?_,
    ?_, ?_, ?_, ?_, ?_, ?_, ?_, ?_, ?_, ?_, ?_, ?_, ?_, ?_⟩
  · exact fun d s h => ⟨_, rfl, takeInOrder_down h⟩
  · exact fun d s h => ⟨_, rfl, takeInOrder_down h⟩
  · exact fun d s h => ⟨_, rfl, takeInOrder_down h⟩
  · exact fun d s h => ⟨_, rfl, takeInOrder_down h⟩
  · exact fun d s h => ⟨_, rfl, takeInOrder_down h⟩
  · exact fun d s h => ⟨s, if_pos (by rw [h]; rfl), rfl⟩
  · exact fun d s h => ⟨s, if_pos (by rw [h]; rfl), rfl⟩
  · rintro d _ _ s h hk hkey hc rfl rfl
    exact ⟨_, openSession_accepted h hk hkey hc, rfl⟩
  · intro d s h hk hkey hc hnone hw
    have hx := sessOf_withSession (d := d) hnone
    have hy : sessOf (modSess s.serve.nextSess (recordSent 0x02 (acceptBody d s) s.beat) (withSession d s)) s.serve.nextSess =
        some (recordSent 0x02 (acceptBody d s) s.beat (sessOpened d s)) := sessOf_modSess (fun _ => rfl) hx
    refine ⟨_, openSession_accepted h hk hkey hc, ?_⟩
    rw [serveSend_fits hx (by exact hw)]
    refine ⟨⟨{ recordSent 0x02 (acceptBody d s) s.beat (sessOpened d s) with due := false }, ?_, rfl, rfl, rfl, rfl, rfl, rfl, rfl⟩,
      ?_, ?_, ?_, ?_⟩
    · rw [serveOut_eq (by exact hy)]
      refine modSess_appended (f := fun x => { x with due := false }) (x := recordSent 0x02 (acceptBody d s) s.beat (sessOpened d s))
        hnone ?_ rfl
      rw [if_pos (by exact h)]
      exact modSess_appended hnone rfl rfl
    · rw [serveOut_eq (by exact hy), if_pos (by exact h)]; rfl
    · rw [serveOut_out (by exact hy) (by exact h)]
      exact List.length_append
    · exact fun k _ => State.obj_of_od ((serveOut_keeps ..).od rfl) k
    · exact (serveOut_keeps_k (m := 1649271635968) (by decide) (modSess_keeps_k (by decide)
        (Keeps.u4194304 (by decide) (Keeps.refl _ s)))).eq
  · intro d s h hk hkey hc
    obtain ⟨hup, hauth⟩ := openSession_known h hk hkey
    exact ⟨_, ((if_neg hup).trans (if_neg hauth)).trans (if_pos hc), rfl, obj_count_same _ _ (by decide), count_untouched _ _ _, rfl, rfl⟩
  · intro d s h hbad
    refine ⟨_, (if_neg (by rw [h]; decide)).trans (if_pos ?_), rfl⟩
    rw [Bool.or_eq_true, Bool.not_eq_true', bne_iff_ne]
    exact hbad
  · exact fun d s h hq => ⟨_, rfl, takeInOrder_unknown h hq⟩
  · exact fun d s h hq => ⟨_, rfl, takeInOrder_unknown h hq⟩
  · exact fun d s h hq => ⟨_, rfl, takeInOrder_unknown h hq⟩
  · exact fun d s h hq => ⟨_, rfl, takeInOrder_unknown h hq⟩
  · exact fun d s h hq => ⟨_, rfl, takeInOrder_unknown h hq⟩
  · exact fun d s h hq => ⟨_, by
      show execServeAck d s = _; simp only [execServeAck, h, hq, Bool.not_true, Bool.false_eq_true, if_false]; rfl, rfl⟩
  · exact fun d q s h hq hn => ⟨_, rfl, takeInOrder_out_of_order h hq hn⟩
  · exact fun d q s h hq hn => ⟨_, rfl, takeInOrder_out_of_order h hq hn⟩
  · exact fun d q s h hq hn => ⟨_, rfl, takeInOrder_out_of_order h hq hn⟩
  · exact fun d q s h hq hn => ⟨_, rfl, takeInOrder_out_of_order h hq hn⟩
  · exact fun d q s h hq hn => ⟨_, rfl, takeInOrder_out_of_order h hq hn⟩
  · exact fun d q x u s h hq hn hu hx => ⟨_, rfl, takeInOrder_in_order h hq hn hu hx⟩
  · intro d q s h hq hn hu
    refine ⟨_, congrArg Host.Outcome.next (takeInOrder_unacked_none h hq hn hu), ⟨_, sessOf_recordTaken hq, rfl⟩, obj_count_same _ _ (by decide),
      count_untouched_of_od rfl, rfl⟩
  · exact fun d q x u s h hq hn hu hx => ⟨_, rfl, takeInOrder_in_order h hq hn hu hx⟩
  · exact fun d q s h hq hn hu ha hc => ⟨_, close_idle h hq hn hu ha hc,
      ⟨_, sessOf_modSess (f := fun x => { x with closing := true }) (fun _ => rfl) (sessOf_recordTaken hq), rfl, rfl⟩, rfl, rfl, rfl⟩
  · exact fun d q s h hq hn => ⟨_, serveAck_taken h hq hn, rfl⟩
  · exact fun d q s h hq hn => ⟨s, serveAck_ignored h hq hn, rfl⟩
  · intro d q n s h hq hseq hlt a ha hlast hany ht hc
    obtain ⟨hbit, hmod⟩ := ackNumber hseq hlt
    have hnew : ∀ b ∈ q.ackRx, b < d.seq.toNat % 2 ^ 62 := fun b hb => by
      rw [Option.mem_def.1 ha] at hb
      rw [hmod, ← Option.some.inj hb]; exact hlast
    refine ⟨_, serveAck_taken h hq ⟨hbit, hnew⟩, ?_⟩
    rw [hmod]
    exact serveAck_releases hq hany ht hc
  · intro session s q hq b hb hd
    refine ⟨s, ?_, rfl⟩
    show execServeResend session s = _
    simp only [execServeResend, Option.mem_def.1 hq, Option.mem_def.1 hb, Nat.not_le.2 hd, if_false]
  · rintro session q b _ s hq hb hd rfl
    exact ⟨_, serveResend_due hq hb hd, rfl⟩
  · intro session q b s hq hb hd
    have hx := sessOf_modSess (f := fun x : Sess => { x with
      unacked := x.unacked.map (fun r => if r.sent.isSome then { r with sent := some s.beat } else r) }) (fun _ => rfl) hq
    have hkept : Keeps 1649271635968 s ((q.unacked.filter (fun r => r.sent.isSome)).foldl
        (fun v r => serveOut session r.seq r.kind r.body v) (modSess session (fun x => { x with
          unacked := x.unacked.map (fun r => if r.sent.isSome then { r with sent := some s.beat } else r) }) s)) :=
      serveOuts_keeps _ (modSess_keeps_k (by decide) (Keeps.refl _ s))
    exact ⟨_, serveResend_due hq hb hd, obj_count_of_od (hkept.od rfl) (by decide), count_untouched_of_od (hkept.od rfl),
      fun hp => serveOuts_length _ hx hp, (State_count_keeps_k (m := 1649271635970) (by decide) (hkept.mono (by decide))).eq⟩
  · intro session s q hq hd
    refine ⟨s, ?_, rfl⟩
    show execAckDue session s = _
    simp only [execAckDue, Option.mem_def.1 hq, hd, Bool.false_eq_true, if_false]
  · exact fun session q s hq hd => ⟨_, ackDue_sent hq hd, rfl⟩
  · intro session q s hq hd hc hp
    have hx := sessOf_modSess (f := fun x : Sess => { x with ackTx := x.ackTx + 1 }) (fun _ => rfl)
      (sessOf_serveOut (seq := 2 ^ 62 + q.ackTx) (kind := 0x09) (body := []) hq)
    refine ⟨_, ackDue_sent hq hd, ?_⟩
    rw [closeSession_open hx (.inl hc)]
    exact ⟨serveOut_out hq hp, ⟨_, hx, rfl, rfl⟩, (modSess_keeps_k (m := 1649271635968) (by decide) (serveOut_keeps ..)).eq⟩
  · intro session s q hq h
    refine ⟨s, ?_, rfl⟩
    have hgo : ¬ ((!q.unacked.isEmpty) = true ∧ q.progress + 1000000 * s.obj Obj.serveSessionTimeoutMs ≤ s.beat) := by
      rintro ⟨hu, hd⟩
      rw [Bool.not_eq_true', List.isEmpty_eq_false_iff] at hu
      exact h.elim hu (Nat.not_lt.2 hd)
    show execSessionTimeout session s = _
    simp only [execSessionTimeout, Option.mem_def.1 hq]
    exact if_neg hgo
  · rintro session q _ s hq hu hd rfl
    exact ⟨_, sessionTimeout_expired hq hu hd, rfl⟩
  · intro session q s hq hu hd ha hc
    refine ⟨_, sessionTimeout_expired hq hu hd, ?_⟩
    rw [cancelSession_none ha hc]
  · exact fun port up s => ⟨_, rfl, rfl⟩
  · exact fun port s h => ⟨_, if_pos h, rfl⟩
  · exact fun port s h => ⟨s, if_neg (by rw [h]; decide), rfl⟩
  · exact fun port data s h => ⟨_, (if_neg (by rw [h]; decide)).trans (if_pos rfl), rfl⟩
  · exact fun port data s h ha => ⟨_, (if_neg (by rw [h]; decide)).trans ((if_neg (by decide)).trans (if_pos ⟨rfl, ha⟩)), rfl⟩
  · intro port type data s h
    refine ⟨s, ?_, rfl⟩
    rcases h with h | ⟨h1, h2⟩
    · exact if_pos (by rw [h]; rfl)
    · exact (ite_eq_left_iff.2 fun _ => (if_neg h1).trans (if_neg h2))
  · exact fun num ack q s h => takeAck_eq h
  · rintro num kind body q _ s h hl rfl
    exact serveSend_fits h hl

end Sys2Proof.Machine

end

section

/-! PROOFS. Ensembles (R294 to R300): a member's own record, the roll, the start, heartbeats and the stop. -/

namespace Sys2Proof.Machine

/-! ### A member's own record -/

theorem erKind_ensRec (s : State) {kind : Nat} (beat : Nat) (h : kind < 256) : erKind (ensRec s kind beat) = kind := by
  unfold erKind ensRec
  iterate 11 rw [List.append_assoc]
  exact (fieldAt_leBytes (n := 1) _ _ (by simp) (by decide)).trans (Nat.mod_eq_of_lt h)

theorem erNode_ensRec (s : State) (kind beat : Nat) : erNode (ensRec s kind beat) = s.fabric.node.toNat := by
  unfold erNode ensRec
  iterate 9 rw [List.append_assoc]
  exact (fieldAt_leBytes (n := 2) _ _ (by simp) (by decide)).trans (Nat.mod_eq_of_lt s.fabric.node.isLt)

theorem publish_ens (kind beat : Nat) (s : State) :
    (publish kind beat s).ens = { s.ens with own := ensRec s kind beat, lastBeat := s.beat } := rfl

theorem publish_beat (kind beat : Nat) (s : State) : (publish kind beat s).beat = s.beat := by simp only [publish]

theorem publish_fabric (kind beat : Nat) (s : State) : (publish kind beat s).fabric = s.fabric := by simp only [publish]

theorem publish_dev (kind beat : Nat) (s : State) : (publish kind beat s).dev = s.dev := by simp only [publish]

theorem publish_kind (s : State) {kind : Nat} (beat : Nat) (h : kind < 256) : erKind (publish kind beat s).ens.own = kind := by
  rw [publish_ens]; exact erKind_ensRec s beat h

theorem publish_node (kind beat : Nat) (s : State) : erNode (publish kind beat s).ens.own = s.fabric.node.toNat := by
  rw [publish_ens]; exact erNode_ensRec s kind beat

theorem memberNodes_congr {s t : State} (h : t.odb = s.odb) : memberNodes t = memberNodes s := by
  unfold memberNodes State.objB; rw [h]

theorem anyStop_congr {s t : State} (ho : t.ens.own = s.ens.own) (hr : t.ens.records = s.ens.records) : anyStop t = anyStop s := by
  unfold anyStop; rw [ho, hr]

/-! ### The roll -/

theorem noteItems_ens (items node : Nat) (s : State) :
    (noteItems items node s).ens = { s.ens with items, badNode := BitVec.ofNat 16 node } := by
  unfold noteItems
  dsimp only
  split
  · rw [(logEvent_keeps ..).ens rfl]
  · rfl

theorem judgeRoll_eq (s : State) {u : State} (hu : u = noteItems (rollItems s).1 (rollItems s).2 s) :
    judgeRoll s = if ((rollItems s).1 ≠ 0 ∧ (fullSet u = true ∨ (u.ens.start.isSome = true ∧ (rollItems s).1 ≠ 64))) then (if
      erKind u.ens.own = 1 ∨ erKind u.ens.own = 3 then publish 4 u.beat { u with ens := { u.ens with start := none } } else
      { u with ens := { u.ens with start := none } })
      else if ((rollItems s).1 = 0 ∧ anyStop u = false ∧ u.ens.start = none ∧ erKind u.ens.own = 1 ∧ lowestNode (memberNodes
        u) = u.fabric.node.toNat) then publish 3 (u.beat + 10000000)
        { u with ens := { u.ens with start := some (u.beat + 10000000) } } else u := by
  subst hu
  simp only [judgeRoll, Bool.not_eq_true', Option.isNone_iff_eq_none]

/-- What judging the roll keeps of a member that has published its roll call. -/
def RollKept (s v : State) : Prop :=
  v.ens.lastBeat = s.beat ∧ v.ens.state = s.ens.state ∧ v.ens.records = s.ens.records ∧
    (erKind v.ens.own = 1 ∨ erKind v.ens.own = 3 ∨ erKind v.ens.own = 4) ∧ erNode v.ens.own = s.fabric.node.toNat

theorem judgeRoll_kept {s : State} (hb : s.ens.lastBeat = s.beat) (hk : erKind s.ens.own = 1)
    (hn : erNode s.ens.own = s.fabric.node.toNat) : RollKept s (judgeRoll s) := by
  have hens := noteItems_ens (rollItems s).1 (rollItems s).2 s
  have hbeat : (noteItems (rollItems s).1 (rollItems s).2 s).beat = s.beat := (noteItems_keeps ..).beat rfl
  have hfab : (noteItems (rollItems s).1 (rollItems s).2 s).fabric = s.fabric := (noteItems_keeps ..).fabric rfl
  rw [judgeRoll_eq s rfl]
  generalize noteItems (rollItems s).1 (rollItems s).2 s = u at *
  have hstate : u.ens.state = s.ens.state := by rw [hens]
  have hrecords : u.ens.records = s.ens.records := by rw [hens]
  have hown : u.ens.own = s.ens.own := by rw [hens]
  have hpub (kind b : Nat) (h4 : kind < 256) (hkind : kind = 3 ∨ kind = 4) (v : State) (hv : v.beat = u.beat)
      (hf : v.fabric = u.fabric) (hs : v.ens.state = u.ens.state) (hr : v.ens.records = u.ens.records) :
      RollKept s (publish kind b v) := by
    refine ⟨?_, ?_, ?_, .inr ?_, ?_⟩
    · rw [publish_ens]; exact hv.trans hbeat
    · rw [publish_ens]; exact hs.trans hstate
    · rw [publish_ens]; exact hr.trans hrecords
    · rw [publish_kind v b h4]; exact hkind
    · rw [publish_node, hf, hfab]
  have hstay (v : State) (hl : v.ens.lastBeat = u.ens.lastBeat) (hs : v.ens.state = u.ens.state)
      (hr : v.ens.records = u.ens.records) (ho : v.ens.own = u.ens.own) : RollKept s v :=
    ⟨hl.trans (by rw [hens]; exact hb), hs.trans hstate, hr.trans hrecords, .inl (by rw [ho, hown, hk]),
      by rw [ho, hown, hn]⟩
  split
  · split
    · exact hpub _ _ (by decide) (.inr rfl) _ rfl rfl rfl rfl
    · exact hstay _ rfl rfl rfl rfl
  · split
    · exact hpub _ _ (by decide) (.inl rfl) _ rfl rfl rfl rfl
    · exact hstay u rfl rfl rfl rfl

/-- What a roll call keeps. -/
theorem rollCall_kept (s : State) : RollKept s (judgeRoll (publish 1 s.beat s)) := by
  obtain ⟨hb, hs, hr, hk, hn⟩ := judgeRoll_kept (s := publish 1 s.beat s) (by rw [publish_ens, publish_beat])
    (publish_kind s _ (by decide)) (by rw [publish_node, publish_fabric])
  rw [publish_ens] at hs hr
  rw [publish_beat] at hb
  rw [publish_fabric] at hn
  exact ⟨hb, hs, hr, hk, hn⟩

theorem rollCall_due {s : State} (h : s.ens.state = 1 ∧ 3 ≤ s.dev.state ∧ s.dev.state ≠ 8 ∧ (erKind s.ens.own = 0 ∨
      (erKind s.ens.own ≠ 3 ∧ s.ens.lastBeat + 1000000000 ≤ s.beat))) :
    exec .rollCall s = .next (judgeRoll (publish 1 s.beat s)) := by
  obtain ⟨he, hl, hf, hdue⟩ := h
  refine if_neg ?_
  simp only [not_or, ne_eq, not_not, Nat.not_lt, not_and_or]
  refine ⟨he, hl, hf, ?_, hdue.imp id (·.2)⟩
  rcases hdue with h | ⟨h, -⟩
  · rw [h]; decide
  · exact h

/-! ### Records of other members -/

/-- A record that a member takes: under the key of the ensemble, of another member of it. -/
def RecordTaken (key : Bytes) (r : BitVec 512) (s : State) : Prop :=
  s.objB Obj.ensKey ≠ [] ∧ key = s.objB Obj.ensKey ∧ inEnsemble s = true ∧ erNode r ≠ s.fabric.node.toNat ∧
    (memberNodes s).contains (erNode r) = true

theorem ensRecord_powered {s : State} (h : s.dev.state ≠ 0 ∧ s.dev.state ≠ 8) : ¬ ((!s.powered) = true ∨ s.faultStop = true) := by
  simp only [State.powered, State.faultStop, Bool.not_eq_true', bne_eq_false_iff_eq, beq_iff_eq, not_or]
  exact h

/-- What a member in its roll call takes from a record: a STOP ends the start it knows of, and the lowest member's START
sets it (R297). -/
def startTaken (r : BitVec 512) (s v : State) : State :=
  if erKind r = 4 then { v with ens := { v.ens with start := none } }
  else if erKind r = 3 ∧ erNode r = lowestNode (memberNodes s) ∧ anyStop v = false then
    { v with ens := { v.ens with start := some (erBeat r) } }
  else v

theorem startTaken_own (r : BitVec 512) (s v : State) : (startTaken r s v).ens.own = v.ens.own := by
  unfold startTaken
  split
  · rfl
  · split <;> rfl

section
variable {key : Bytes} {r : BitVec 512} {s : State}

theorem RecordTaken.checks (ht : RecordTaken key r s) :
    ¬ (s.objB Obj.ensKey = [] ∨ key ≠ s.objB Obj.ensKey) ∧
      ¬ ((!inEnsemble s) = true ∨ erNode r = s.fabric.node.toNat ∨ (!(memberNodes s).contains (erNode r)) = true) := by
  obtain ⟨hk, hkey, hin, hn, hm⟩ := ht
  simp only [not_or, ne_eq, not_not, Bool.not_eq_true', Bool.not_eq_false]
  exact ⟨⟨hk, hkey⟩, hin, hn, hm⟩

theorem ensRecord_rollCall (h : s.dev.state ≠ 0 ∧ s.dev.state ≠ 8) (ht : RecordTaken key r s) (hs : s.ens.state = 1) :
    exec (.ensRecord key r) s = .next (if erKind (keepRecord r s).ens.own = 0 then startTaken r s (keepRecord r s)
      else judgeRoll (startTaken r s (keepRecord r s))) := by
  obtain ⟨hauth, hmember⟩ := ht.checks
  rw [← startTaken_own r s (keepRecord r s)]
  refine ((if_neg (ensRecord_powered h)).trans (if_neg hauth)).trans ((if_neg hmember).trans ?_)
  dsimp only
  split
  · simp only [Bool.not_eq_true']
    rfl
  · exact absurd (hs.symm.trans ‹_›) (by decide)
  · exact absurd hs ‹_›

theorem ensRecord_running (h : s.dev.state ≠ 0 ∧ s.dev.state ≠ 8) (ht : RecordTaken key r s) (hs : s.ens.state = 2) :
    exec (.ensRecord key r) s = .next (if erKind r = 4 then stopEnsemble (keepRecord r s)
      else if erKind r = 2 then judgeHeartbeat r (keepRecord r s) else keepRecord r s) := by
  obtain ⟨hauth, hmember⟩ := ht.checks
  refine ((if_neg (ensRecord_powered h)).trans (if_neg hauth)).trans ((if_neg hmember).trans ?_)
  dsimp only
  split
  · exact absurd (hs.symm.trans ‹_›) (by decide)
  · split
    · rfl
    · split <;> rfl
  · exact absurd hs ‹_›

theorem ensRecord_other (h : s.dev.state ≠ 0 ∧ s.dev.state ≠ 8) (ht : RecordTaken key r s) (h1 : s.ens.state ≠ 1)
    (h2 : s.ens.state ≠ 2) : exec (.ensRecord key r) s = .next (keepRecord r s) := by
  obtain ⟨hauth, hmember⟩ := ht.checks
  refine ((if_neg (ensRecord_powered h)).trans (if_neg hauth)).trans ((if_neg hmember).trans ?_)
  dsimp only
  split
  · exact absurd ‹_› h1
  · exact absurd ‹_› h2
  · rfl

end

/-! ### The stop -/

theorem stopEnsemble_ens (s : State) : (stopEnsemble s).ens = { s.ens with state := 3, start := none } := by
  unfold stopEnsemble
  dsimp only
  split
  · rw [(enterState_keeps 3 (by decide) _).ens rfl, (endRequests_keeps ..).ens rfl, (logEvent_keeps ..).ens rfl]
  · rfl

theorem stopEnsemble_held {s : State} (h : 4 ≤ s.dev.state ∧ s.dev.state ≤ 7) : (stopEnsemble s).dev.state = 3 := by
  unfold stopEnsemble
  dsimp only
  rw [if_pos h, enterState_dev]

theorem judgeHeartbeat_eq {r : BitVec 512} {s u : State} {bound : Bool} {m : Nat}
    (hb : bound = (!timeGood r && erLocked r && erRef r))
    (hm : m = (if tget 0 (BitVec.ofNat 16 (erNode r)).toNat s.ens.maps = BitVec.ofNat 32 (erMap r) then
      recordItems s (ensRec s 2 s.beat) r 0 else recordItems s (ensRec s 2 s.beat) r 0 ||| 16))
    (hu : u = { s with ens := { s.ens with
      slow := if bound = true
        then (BitVec.ofNat 16 (erNode r)) :: s.ens.slow.filter (· != (BitVec.ofNat 16 (erNode r)))
        else s.ens.slow.filter (· != (BitVec.ofNat 16 (erNode r))) } }) :
    judgeHeartbeat r s =
      if (if (bound && !s.ens.slow.contains (BitVec.ofNat 16 (erNode r)) && m.testBit 5) = true then m - 32 else m) = 0 then u
      else detectStop (if (bound && !s.ens.slow.contains (BitVec.ofNat 16 (erNode r)) && m.testBit 5) = true then m - 32 else m)
        (BitVec.ofNat 16 (erNode r)).toNat u := by
  subst hu hm hb
  rfl

/-! ### The start -/

/-- The member's maps at the start: that of each member whose record it holds. -/
theorem startMaps_eq (u : State) (l : List Nat) (g : Tab W32 → Nat → Tab W32)
    (hg : ∀ x n, g x n = (rollRecord u n).elim x (fun r => tset n (BitVec.ofNat 32 (erMap r)) x)) (x : Tab W32) :
    l.foldl g x = l.foldl (fun x n => (rollRecord u n).elim x (fun r => tset n (BitVec.ofNat 32 (erMap r)) x)) x := by
  have : g = fun x n => (rollRecord u n).elim x (fun r => tset n (BitVec.ofNat 32 (erMap r)) x) := by
    funext x n; exact hg x n
  rw [this]

theorem start_due {s : State} (h : s.ens.start.any (fun b => decide (b ≤ s.beat)) = true) :
    ∃ b, s.ens.start = some b ∧ b ≤ s.beat := by
  cases hb : s.ens.start with
  | none => rw [hb] at h; exact absurd h Bool.false_ne_true
  | some b => rw [hb] at h; exact ⟨b, rfl, of_decide_eq_true h⟩

theorem ensembleStart_due {b : Nat} {s : State} (hb : s.ens.start = some b) (hd : b ≤ s.beat)
    (h : s.ens.state = 1 ∧ 3 ≤ s.dev.state ∧ s.dev.state ≠ 8) {u : State}
    (hu : u = noteItems (rollItems s).1 (rollItems s).2 { s with ens := { s.ens with start := none } }) :
    exec .ensembleStart s = if (rollItems s).1 ≠ 0 ∨ anyStop s = true then .next (publish 4 u.beat u)
      else
        let v : State := { u with ens := { u.ens with
          state := 2
          maps := (memberNodes s).foldl (fun x n => (rollRecord u n).elim x (fun r => tset n (BitVec.ofNat 32 (erMap r)) x)) []
          records := s.ens.records.map (fun x => (x.1, x.2.1, s.beat)), slow := [], lastBeat := s.beat } }
        .next (if s.dev.state = 3 then goServe v else v) := by
  have hgo : ¬ (s.ens.state ≠ 1 ∨ s.beat < b ∨ s.dev.state < 3 ∨ s.dev.state = 8) := by
    obtain ⟨he, hl, hf⟩ := h
    simp only [not_or, ne_eq, not_not, Nat.not_lt]
    exact ⟨he, hd, hl, hf⟩
  have hens : u.ens = { s.ens with start := none, items := (rollItems s).1, badNode := BitVec.ofNat 16 (rollItems s).2 } := by
    rw [hu, noteItems_ens]
  have hkeep : Keeps 206426865666 s u := by
    rw [hu]; exact noteItems_keeps_k (by decide) (Keeps.u268435456 (by decide) (Keeps.refl _ s))
  have hstop : anyStop u = anyStop s := anyStop_congr (by rw [hens]) (by rw [hens])
  have hmem : memberNodes u = memberNodes s := memberNodes_congr (hkeep.odb rfl)
  show execEnsembleStart s = _
  simp only [execEnsembleStart, hb]
  rw [if_neg hgo]
  simp only [← hu, hstop, hmem, hkeep.dev rfl, hkeep.beat rfl]
  rw [startMaps_eq u _ _ (fun x n => by cases rollRecord u n <;> rfl), show u.ens.records = s.ens.records by rw [hens]]

theorem goServe_ens (s : State) : (goServe s).ens = s.ens := (goServe_keeps s).ens rfl

theorem heartbeatMissing_due {node : W16} {s : State} (h : s.ens.state = 2 ∧ node ≠ s.fabric.node ∧
      (memberNodes s).contains node.toNat = true)
    (hr : (s.ens.records.find? (fun x => x.1 == node)).any
      (fun x => decide (x.2.2 + 3 * (1000000 * s.obj Obj.ensHeartbeatMs) ≤ s.beat)) = true) :
    exec (.heartbeatMissing node) s = .next (detectStop 64 node.toNat s) := by
  have hgo : ¬ (s.ens.state ≠ 2 ∨ node = s.fabric.node ∨ (!(memberNodes s).contains node.toNat) = true) := by
    simp only [not_or, ne_eq, not_not, Bool.not_eq_true', Bool.not_eq_false]; exact h
  refine (if_neg hgo).trans ?_
  cases hf : s.ens.records.find? (fun x => x.1 == node) with
  | none => rw [hf] at hr; exact absurd hr Bool.false_ne_true
  | some x =>
    obtain ⟨a, y, b⟩ := x
    rw [hf] at hr
    simp only
    exact if_pos (of_decide_eq_true hr)

theorem heartbeatMissing_not {node : W16} {s : State} (h : ¬ (s.ens.state = 2 ∧ node ≠ s.fabric.node ∧
      (memberNodes s).contains node.toNat = true ∧
      (s.ens.records.find? (fun x => x.1 == node)).any
        (fun x => decide (x.2.2 + 3 * (1000000 * s.obj Obj.ensHeartbeatMs) ≤ s.beat)) = true)) :
    exec (.heartbeatMissing node) s = .next s := by
  show execHeartbeatMissing node s = _
  unfold execHeartbeatMissing
  split
  · rfl
  · next hgo =>
    simp only [not_or, ne_eq, not_not, Bool.not_eq_true', Bool.not_eq_false] at hgo
    obtain ⟨h2, hn, hm⟩ := hgo
    cases hf : s.ens.records.find? (fun x => x.1 == node) with
    | none => rfl
    | some x =>
      obtain ⟨a, y, b⟩ := x
      simp only
      refine if_neg fun hd => h ⟨h2, hn, hm, ?_⟩
      rw [hf]
      exact decide_eq_true hd

/-- A stop that a member detects is published by it. -/
theorem detectStop_stopped (items : Nat) (node : W16) (s : State) :
    (detectStop items node.toNat s).ens.state = 3 ∧ (detectStop items node.toNat s).ens.items = items ∧
      (detectStop items node.toNat s).ens.badNode = node ∧ erKind (detectStop items node.toNat s).ens.own = 4 ∧
      (4 ≤ s.dev.state ∧ s.dev.state ≤ 7 → (detectStop items node.toNat s).dev.state = 3) := by
  unfold detectStop
  dsimp only
  refine ⟨?_, ?_, ?_, ?_, fun hd => stopEnsemble_held hd⟩
  · rw [stopEnsemble_ens]
  · rw [stopEnsemble_ens, publish_ens]
  · rw [stopEnsemble_ens, publish_ens]
    exact (BitVec.ofNat_toNat _ _).trans (BitVec.setWidth_eq _)
  · rw [stopEnsemble_ens]
    exact publish_kind _ _ (by decide)

/-- Settles O54. -/
theorem ensembles : Obligations.Ensembles := by
  refine ⟨?_, ?_, ?_, ?_, ?_, ?_, ?_, ?_, ?_, ?_, ?_, ?_, ?_, ?_, ?_, ?_, ?_, ?_, ?_, ?_, ?_, ?_⟩
  · rintro _ s h rfl
    obtain ⟨hb, hs, hr, hk, hn⟩ := rollCall_kept s
    exact ⟨_, rollCall_due h, rfl, hb, hs.trans h.1, hr, hk, hn,
      (judgeRoll_keeps_k (m := 206426865666) (by decide) (publish_keeps_k (by decide) (Keeps.refl _ s))).eq⟩
  · intro s h
    refine ⟨s, if_pos ?_, rfl⟩
    by_contra hc
    simp only [not_or, ne_eq, not_not, Nat.not_lt, not_and_or] at hc
    obtain ⟨he, hl, hf, h3, hd⟩ := hc
    exact h ⟨he, hl, hf, hd.imp id fun hb => ⟨h3, hb⟩⟩
  · exact fun s u hu => judgeRoll_eq s hu
  · intro key r s h
    refine ⟨s, if_pos ?_, rfl⟩
    simp only [State.powered, State.faultStop, Bool.not_eq_true', bne_eq_false_iff_eq, beq_iff_eq]
    by_contra hc
    exact h (not_or.1 hc)
  · exact fun key r s h hk => ⟨_, (if_neg (ensRecord_powered h)).trans (if_pos hk), rfl, obj_count_same _ _ (by decide)⟩
  · intro key r s h hk hkey hm
    refine ⟨s, ((if_neg (ensRecord_powered h)).trans (if_neg ?_)).trans (if_pos ?_), rfl⟩
    · simp only [not_or, ne_eq, not_not]; exact ⟨hk, hkey⟩
    · simpa only [Bool.not_eq_true'] using hm
  · rintro key r _ s h ht rfl hs
    rcases hs with ⟨h1, h2⟩ | ⟨h2, h4, hk2⟩
    · exact ⟨_, ensRecord_other h ht h1 h2, rfl⟩
    · exact ⟨_, ensRecord_running h ht h2, (if_neg h4).trans (if_neg hk2)⟩
  · rintro key r _ _ s h ht rfl hs rfl hk
    exact ⟨_, ensRecord_rollCall h ht hs, if_pos hk⟩
  · rintro key r _ _ s h ht rfl hs rfl hk
    exact ⟨_, ensRecord_rollCall h ht hs, if_neg hk⟩
  · rintro key r _ s h ht rfl hs hk
    have hens := stopEnsemble_ens (keepRecord r s)
    refine ⟨stopEnsemble (keepRecord r s), (ensRecord_running h ht hs).trans (by rw [if_pos hk]), rfl, ?_⟩
    exact ⟨congrArg Ens.state hens, congrArg Ens.start hens, by rw [hens]; rfl, fun hd => stopEnsemble_held hd⟩
  · rintro key r _ s h ht rfl hs hk
    exact ⟨_, ensRecord_running h ht hs, (if_neg (by rw [hk]; decide)).trans (if_pos hk)⟩
  · exact fun r s u bound m hb hm hu => judgeHeartbeat_eq hb hm hu
  · exact fun items node s => rfl
  · rintro s _ rfl
    rfl
  · intro s h
    refine ⟨s, ?_, rfl⟩
    show execEnsembleStart s = _
    unfold execEnsembleStart
    cases hb : s.ens.start with
    | none => rfl
    | some b =>
      refine if_pos ?_
      by_contra hc
      simp only [not_or, ne_eq, not_not, Nat.not_lt] at hc
      obtain ⟨he, hd, hl, hf⟩ := hc
      exact h ⟨by rw [hb]; exact decide_eq_true hd, he, hl, hf⟩
  · rintro _ s hst h hbad rfl
    obtain ⟨b, hb, hd⟩ := start_due hst
    have hens := noteItems_ens (rollItems s).1 (rollItems s).2 { s with ens := { s.ens with start := none } }
    have hkeep : Keeps 206426865666 s (noteItems (rollItems s).1 (rollItems s).2 { s with ens := { s.ens with start := none } }) :=
      noteItems_keeps_k (by decide) (Keeps.u268435456 (by decide) (Keeps.refl _ s))
    refine ⟨_, (ensembleStart_due hb hd h rfl).trans (if_pos hbad), ?_⟩
    rw [hkeep.beat rfl]
    generalize noteItems (rollItems s).1 (rollItems s).2 { s with ens := { s.ens with start := none } } = u at *
    rw [publish_dev, hkeep.dev rfl]
    exact ⟨rfl, by rw [publish_ens, hens]; exact h.1, by rw [publish_ens, hens], publish_kind _ _ (by decide), rfl, (publish_keeps_k (m := 206426865666) (by decide) hkeep).eq⟩
  · rintro _ _ s hst h hgood rfl rfl
    obtain ⟨b, hb, hd⟩ := start_due hst
    have hens := noteItems_ens (rollItems s).1 (rollItems s).2 { s with ens := { s.ens with start := none } }
    have hbad : ¬ ((rollItems s).1 ≠ 0 ∨ anyStop s = true) := by
      simp only [not_or, ne_eq, not_not, Bool.not_eq_true]; exact hgood
    refine ⟨_, (ensembleStart_due hb hd h rfl).trans (if_neg hbad), rfl, ?_⟩
    generalize noteItems (rollItems s).1 (rollItems s).2 { s with ens := { s.ens with start := none } } = u at *
    split
    · rw [goServe_ens]
      exact ⟨rfl, congrArg Ens.start hens, rfl, rfl⟩
    · exact ⟨rfl, congrArg Ens.start hens, rfl, rfl⟩
  · exact fun s => rfl
  · exact fun s h => ⟨_, if_pos h, rfl⟩
  · exact fun s h => ⟨s, if_neg h, rfl⟩
  · rintro node s ⟨he, hn, hm, hr⟩
    exact ⟨_, heartbeatMissing_due ⟨he, hn, hm⟩ hr, rfl, detectStop_stopped 64 node s⟩
  · exact fun node s h => ⟨s, heartbeatMissing_not h, rfl⟩

end Sys2Proof.Machine

end

section

/-! PROOFS. Device states: a drain that ends, the start and the end of a boot (R286, R288, R290). -/

namespace Sys2Proof.Machine

/-! ### The device record while a module boots -/

theorem settleReasons_idle {s : State} (h5 : s.dev.state ≠ 5) (h6 : s.dev.state ≠ 6) : settleReasons s = s := by
  rw [settleReasons, if_neg fun h => h5 h.1, if_neg fun h => h6 h.1]

section
variable {s : State} (h : s.dev.state = 2)
include h

theorem setReason_dev (bit : Nat) (on : Bool) : (setReason bit on s).dev = s.dev := by
  unfold setReason
  dsimp only
  rw [settleReasons_idle (by exact fun e => by simp [h] at e) (by exact fun e => by simp [h] at e)]
  rfl

theorem settleThermal_dev : (settleThermal s).dev = s.dev := setReason_dev h ..

theorem settleDram_dev : (settleDram s).dev = s.dev := by
  unfold settleDram
  split
  · rfl
  · exact setReason_dev h ..

theorem settleHarp_dev : (settleHarp s).dev = s.dev := by
  unfold settleHarp
  dsimp only
  split
  · rfl
  · exact setReason_dev h ..

theorem settleBootRefused_dev : (settleBootRefused s).dev = s.dev := by
  unfold settleBootRefused
  dsimp only
  split
  · rfl
  · exact setReason_dev h ..

theorem isolateUnit_dev (unit : Nat) : (isolateUnit unit s).dev = s.dev := by
  unfold isolateUnit
  split
  · rfl
  · have hlog : (logEvent Obj.mapChangeCount 3 0 (unitSite unit) unit [] (mapChange unit true s)).dev = s.dev :=
      ((logEvent_keeps ..).dev rfl).trans rfl
    exact (setReason_dev (by rw [hlog]; exact h) ..).trans hlog

theorem bootReasons_dev : (bootReasons s).dev = s.dev := by
  unfold bootReasons
  dsimp only
  have h0 := setReason_dev (s := s.setObj Obj.stateReasons 0) h 0 (anyIsolated (s.setObj Obj.stateReasons 0))
  generalize setReason 0 (anyIsolated (s.setObj Obj.stateReasons 0)) (s.setObj Obj.stateReasons 0) = u at *
  have h2 : u.dev = s.dev := h0
  have h5 := (setReason_dev (h2.symm ▸ h) 5 (u.pair.state != 0)).trans h2
  generalize setReason 5 (u.pair.state != 0) u = v at *
  have hh := (settleHarp_dev (h5.symm ▸ h)).trans h5
  have hd := (settleDram_dev (hh.symm ▸ h)).trans hh
  exact (settleThermal_dev (hd.symm ▸ h)).trans hd

theorem bootTests_dev (fails : List Nat) : (bootTests fails s).dev = s.dev := by
  unfold bootTests
  refine List.foldlRecOn (motive := fun v : State => v.dev = s.dev) _ _ rfl ?_
  intro v hv u _
  exact (isolateUnit_dev (s := v.count Obj.katFailures 1) (by show v.dev.state = 2; rw [hv, h]) u).trans hv

theorem refuseLoad_dev (slot code : Nat) : (refuseLoad slot code s).dev = s.dev := by
  unfold refuseLoad
  dsimp only
  generalize hw : countLog _ _ _ _ _ _ _ = w
  have hdev : w.dev = s.dev := by
    rw [← hw, (countLog_keeps ..).dev rfl, (State_setImgSlot_keeps ..).dev rfl]
  exact (settleBootRefused_dev (hdev.symm ▸ h)).trans hdev

theorem startBootLoads_dev : (startBootLoads s).dev = s.dev := by
  unfold startBootLoads
  refine List.foldlRecOn (motive := fun v : State => v.dev = s.dev) _ _ rfl ?_
  intro v hv sl _
  dsimp only
  split
  · exact ((startLoad_keeps _ _ v).dev rfl).trans hv
  · exact (refuseLoad_dev (hv.symm ▸ h) ..).trans hv

end

/-! ### The boot -/

section
variable (n0 n1 : List NorCopy) (p0 p1 : Bool) (c0 c1 : Bytes) (fails : List Nat) (s : State)

/-- The state with both halves started and the configuration copies read. -/
def bootRead : State :=
  bootConfig c0 c1 { bootPair ((norStart n0).getD 0) ((norStart n1).getD 0) (p0 && (norStart n0).isSome) (p1 && (norStart n1).isSome)
    (s.count Obj.bootCount 1) with ens := {} }

/-- The state with the rails up, the tests counted and the configuration in force. -/
def bootTaken (v : State) : State :=
  takeConfig (bootReasons (bootTests fails (bootRails (v.setObj Obj.mapDigest (crc32c (mapBytes v))))))

theorem bootPair_eq (f0 f1 : W32) (a b : Bool) :
    (bootPair f0 f1 a b s).dev = { s.dev with firmware := if a then f0 else f1 } ∧
      (bootPair f0 f1 a b s).pair.active = (if a then 0 else 1) ∧ (bootPair f0 f1 a b s).pair.recover = none ∧
      (a = true ∨ b = true → (bootPair f0 f1 a b s).pair.state = if a ∧ b then (if f0 = f1 then 0 else 3) else if a then 1 else 2) := by
  unfold bootPair
  dsimp only
  generalize hu : ({ s with pair := _, dev := _ } : State) = u
  have hdev : u.dev = { s.dev with firmware := if a then f0 else f1 } := by
    rw [← hu]
    cases a <;> rfl
  have hact : u.pair.active = (if a then 0 else 1) := by rw [← hu]
  have hrec : u.pair.recover = none := by rw [← hu]
  have hst : a = true ∨ b = true → u.pair.state = if a ∧ b then (if f0 = f1 then 0 else 3) else if a then 1 else 2 := by
    rw [← hu]
    intro hab
    cases a <;> cases b <;> simp_all [simplexOn]
  simp only [apply_ite State.dev, apply_ite State.pair, (logEvent_keeps ..).dev rfl, (logEvent_keeps ..).pair rfl, ite_self]
  exact ⟨hdev, hact, hrec, hst⟩

theorem bootConfig_config :
    (bootConfig c0 c1 s).config =
      { s.config with
        copyA := readCopy c0, copyB := readCopy c1, staged := [], owner := none, subs := [], segs := [], seqs := [], notifies := []
        gen := if configGood { s.config with copyA := readCopy c0, copyB := readCopy c1 } then (readCopy c0).gen else 0 } := by
  unfold bootConfig
  dsimp only
  split
  · exact (Keeps.foldl (m := 6) (Keeps.refl _ _) fun _ _ hx => putValue_keeps_k (by decide) hx).config rfl
  · rfl

/-- The state with every rail up, before the domains without a cartridge are marked. -/
def railsUp : State :=
  { (s.setObj Obj.dramTrainMode 0).setObj Obj.dramPagesPoisoned 0 with
    power := { s.power with rails := 127 }
    dies := (List.range 16).map (fun n => (n, { ({} : Die) with reset := some s.beat, clock := s.obj Obj.mcClockMhz }))
    dram := { s.dram with stackSt := (List.range 8).map (fun k => (k, 3)) }
    harps := s.harps.map (fun (p : Nat × Harp) => (p.1, if p.2.role = 0 then p.2 else { p.2 with role := 3, shutter := true }))
    images := { s.images with slots := [], order := [] }
    dev := { s.dev with started := true, heldAtBoot := false, marginRun := 0, bootBeat := s.beat } }

theorem bootRails_kept : Keeps 32768 (railsUp s) (bootRails s) := by
  refine Keeps.foldl (Keeps.refl _ _) fun x d hx => ?_
  split
  · exact State_setDomain_keeps_k (by decide) hx
  · exact hx

/-- What a boot leaves of the state that its rails and tests found. -/
theorem bootTaken_kept {v : State} (h : v.dev.state = 2) :
    (bootTaken fails v).power = { v.power with rails := 127 } ∧
      (bootTaken fails v).dev = { v.dev with started := true, heldAtBoot := false, marginRun := 0, bootBeat := v.beat } ∧
      (bootTaken fails v).dies = (railsUp v).dies ∧
      (bootTaken fails v).dram.stackSt = (List.range 8).map (fun k => (k, 3)) ∧
      (bootTaken fails v).pair = v.pair ∧ (bootTaken fails v).config = v.config ∧ (bootTaken fails v).mem = v.mem := by
  have hw := bootRails_kept (v.setObj Obj.mapDigest (crc32c (mapBytes v)))
  have hdies : (railsUp (v.setObj Obj.mapDigest (crc32c (mapBytes v)))).dies = (railsUp v).dies := by
    simp only [railsUp, State.obj_setObj_other v _ (show Obj.mcClockMhz ≠ Obj.mapDigest by decide)]
    rfl
  have hdev2 : (bootRails (v.setObj Obj.mapDigest (crc32c (mapBytes v)))).dev.state = 2 := by rw [hw.dev rfl]; exact h
  have htests := bootTests_dev hdev2 fails
  have hreasons := bootReasons_dev (htests.symm ▸ hdev2)
  unfold bootTaken
  refine ⟨?_, ?_, ?_, ?_, ?_, ?_, ?_⟩
  · rw [(takeConfig_keeps _).power rfl, (bootReasons_keeps _).power rfl, (bootTests_keeps ..).power rfl, hw.power rfl]; rfl
  · rw [(takeConfig_keeps _).dev rfl, hreasons, htests, hw.dev rfl]; rfl
  · rw [(takeConfig_keeps _).dies rfl, (bootReasons_keeps _).dies rfl, (bootTests_keeps ..).dies rfl, hw.dies rfl, hdies]
  · rw [(takeConfig_keeps _).dram rfl, (bootReasons_keeps _).dram rfl, (bootTests_keeps ..).dram rfl, hw.dram rfl]; rfl
  · rw [(takeConfig_keeps _).pair rfl, (bootReasons_keeps _).pair rfl, (bootTests_keeps ..).pair rfl, hw.pair rfl]; rfl
  · rw [(takeConfig_keeps _).config rfl, (bootReasons_keeps _).config rfl, (bootTests_keeps ..).config rfl, hw.config rfl]; rfl
  · rw [(takeConfig_keeps _).mem rfl, (bootReasons_keeps _).mem rfl, (bootTests_keeps ..).mem rfl, hw.mem rfl]; rfl

end

/-! ### The newest copy that verifies -/

/-- The newest of a version known so far and those of a list. -/
theorem norFold (l : List NorCopy) (g : Option W32 → NorCopy → Option W32)
    (hg : ∀ o c, g o c = some (o.elim c.version (fun v => if v < c.version then c.version else v))) (o : Option W32) :
    (l.foldl g o = none ↔ o = none ∧ l = []) ∧
      ∀ v, l.foldl g o = some v → ((o = some v ∨ ∃ c ∈ l, c.version = v) ∧ (∀ w ∈ o, w ≤ v) ∧ ∀ c ∈ l, c.version ≤ v) := by
  induction l generalizing o with
  | nil =>
    refine ⟨by simp, fun v hv => ?_⟩
    have hv : o = some v := hv
    exact ⟨.inl hv, fun w hw => by rw [hv] at hw; exact (Option.some.inj hw) ▸ BitVec.le_refl _, fun c hc => absurd hc List.not_mem_nil⟩
  | cons c l ih =>
    rw [List.foldl_cons, hg]
    obtain ⟨hnone, hsome⟩ := ih (some (o.elim c.version (fun v => if v < c.version then c.version else v)))
    refine ⟨⟨fun h => absurd (hnone.1 h).1 (by simp), fun h => absurd h.2 (List.cons_ne_nil _ _)⟩, fun v hv => ?_⟩
    obtain ⟨hin, hle, hl⟩ := hsome v hv
    have htop := hle _ rfl
    refine ⟨?_, ?_, ?_⟩
    · rcases hin with h | ⟨x, hx, he⟩
      · have h := Option.some.inj h
        cases o with
        | none => exact .inr ⟨c, List.mem_cons_self, h⟩
        | some w =>
          by_cases hw : w < c.version
          · exact .inr ⟨c, List.mem_cons_self, by simpa [hw] using h⟩
          · exact .inl (by simpa [hw] using h)
      · exact .inr ⟨x, List.mem_cons_of_mem _ hx, he⟩
    · intro w hw
      rw [Option.mem_def.1 hw] at htop
      by_cases hlt : w < c.version
      · have htop : c.version ≤ v := by simpa [hlt] using htop
        bv_omega
      · simpa [hlt] using htop
    · intro x hx
      rcases List.mem_cons.1 hx with rfl | hx
      · cases o with
        | none => exact htop
        | some w =>
          by_cases hlt : w < x.version
          · simpa [hlt] using htop
          · have htop : w ≤ v := by simpa [hlt] using htop
            bv_omega
      · exact hl x hx

theorem norStart_of_fold (l : List NorCopy) (g : Option W32 → NorCopy → Option W32) (hfold : norStart l = (l.filter (·.valid)).foldl g none)
    (hg : ∀ o c, g o c = some (o.elim c.version (fun v => if v < c.version then c.version else v))) :
    (norStart l = none ↔ ∀ c ∈ l, c.valid = false) ∧
      (∀ v, norStart l = some v → (∃ c ∈ l, c.valid = true ∧ c.version = v) ∧ ∀ c ∈ l, c.valid = true → c.version ≤ v) := by
  obtain ⟨hnone, hsome⟩ := norFold (l.filter (·.valid)) g hg none
  rw [hfold]
  refine ⟨hnone.trans ?_, fun v hv => ?_⟩
  · simp only [true_and, List.filter_eq_nil_iff, Bool.not_eq_true]
  · obtain ⟨hin, -, hle⟩ := hsome v hv
    refine ⟨?_, fun c hc hval => hle c (List.mem_filter.2 ⟨hc, hval⟩)⟩
    rcases hin with h | ⟨c, hc, he⟩
    · exact absurd h (by simp)
    · obtain ⟨hc, hval⟩ := List.mem_filter.1 hc
      exact ⟨c, hc, hval, he⟩

theorem norStart_spec (l : List NorCopy) : (norStart l = none ↔ ∀ c ∈ l, c.valid = false) ∧
    (∀ v, norStart l = some v → (∃ c ∈ l, c.valid = true ∧ c.version = v) ∧ ∀ c ∈ l, c.valid = true → c.version ≤ v) := by
  refine norStart_of_fold l _ rfl ?_
  intro o c
  cases o <;> rfl

/-! ### The boot as a whole -/

section
variable (n0 n1 : List NorCopy) (p0 p1 : Bool) (c0 c1 : Bytes) (fails : List Nat) {s : State}

theorem bootRead_dev : (bootRead n0 n1 p0 p1 c0 c1 s).dev =
    { s.dev with firmware := if (p0 && (norStart n0).isSome) = true then (norStart n0).getD 0 else (norStart n1).getD 0 } :=
  ((bootConfig_keeps ..).dev rfl).trans (bootPair_eq (s.count Obj.bootCount 1) _ _ _ _).1

theorem bootRead_pair : (bootRead n0 n1 p0 p1 c0 c1 s).pair =
    (bootPair ((norStart n0).getD 0) ((norStart n1).getD 0) (p0 && (norStart n0).isSome) (p1 && (norStart n1).isSome)
      (s.count Obj.bootCount 1)).pair :=
  (bootConfig_keeps ..).pair rfl

theorem bootStart_failed (h : s.dev.state = 2 ∧ s.dev.started = false) (ha : (p0 && (norStart n0).isSome) = false)
    (hb : (p1 && (norStart n1).isSome) = false) : exec (.bootStart n0 n1 p0 p1 c0 c1 fails) s = .next (faultStop s) := by
  obtain ⟨h2, hs⟩ := h
  have hgo : ¬ (s.dev.state ≠ 2 ∨ s.dev.started = true) := by
    rw [hs]; simp only [h2, ne_eq, not_true_eq_false, Bool.false_eq_true, or_self, not_false_iff]
  have hfail : (!(p0 && (norStart n0).isSome)) = true ∧ (!(p1 && (norStart n1).isSome)) = true := by rw [ha, hb]; decide
  show execBootStart _ _ _ _ _ _ _ _ = _
  unfold execBootStart
  dsimp only
  rw [if_neg hgo, if_pos hfail]

theorem bootStart_started (h : s.dev.state = 2 ∧ s.dev.started = false)
    (hp : (p0 && (norStart n0).isSome) = true ∨ (p1 && (norStart n1).isSome) = true) :
    exec (.bootStart n0 n1 p0 p1 c0 c1 fails) s =
      .next (if configGood (bootRead n0 n1 p0 p1 c0 c1 s).config
        then startBootLoads (bootTaken fails (bootRead n0 n1 p0 p1 c0 c1 s))
        else bootTaken fails (bootRead n0 n1 p0 p1 c0 c1 s)) := by
  obtain ⟨h2, hs⟩ := h
  have hgo : ¬ (s.dev.state ≠ 2 ∨ s.dev.started = true) := by
    rw [hs]; simp only [h2, ne_eq, not_true_eq_false, Bool.false_eq_true, or_self, not_false_iff]
  have hpass : ¬ ((!(p0 && (norStart n0).isSome)) = true ∧ (!(p1 && (norStart n1).isSome)) = true) := by
    simp only [Bool.not_eq_true', not_and_or, Bool.not_eq_false]; exact hp
  have hconfig : (bootTaken fails (bootRead n0 n1 p0 p1 c0 c1 s)).config = (bootRead n0 n1 p0 p1 c0 c1 s).config := by
    obtain ⟨-, -, -, -, -, hc, -⟩ := bootTaken_kept fails (v := bootRead n0 n1 p0 p1 c0 c1 s) (by rw [bootRead_dev]; exact h2)
    exact hc
  rw [← hconfig]
  exact (if_neg hgo).trans (if_neg hpass)

end

/-- The state at the end of BOOT_START. -/
def bootStarted (n0 n1 : List NorCopy) (p0 p1 : Bool) (c0 c1 : Bytes) (fails : List Nat) (s : State) : State :=
  if configGood (bootRead n0 n1 p0 p1 c0 c1 s).config
  then startBootLoads (bootTaken fails (bootRead n0 n1 p0 p1 c0 c1 s))
  else bootTaken fails (bootRead n0 n1 p0 p1 c0 c1 s)

theorem railsUp_reset (s : State) {n : Nat} (hn : n < 16) : (tget ({} : Die) n (railsUp s).dies).reset.isSome = true := by
  interval_cases n <;> rfl

theorem stacksInTraining {k : Nat} (hk : k < 8) : tget 0 k ((List.range 8).map (fun k => (k, 3))) = 3 := by
  interval_cases k <;> rfl

section
variable (n0 n1 : List NorCopy) (p0 p1 : Bool) (c0 c1 : Bytes) (fails : List Nat) {s : State}

/-- What a started boot keeps of its rails, its pair, its configuration and its memory. -/
theorem bootStarted_kept (h : s.dev.state = 2) :
    (bootStarted n0 n1 p0 p1 c0 c1 fails s).power = { s.power with rails := 127 } ∧
      (bootStarted n0 n1 p0 p1 c0 c1 fails s).dev = { (bootRead n0 n1 p0 p1 c0 c1 s).dev with
        started := true, heldAtBoot := false, marginRun := 0, bootBeat := (bootRead n0 n1 p0 p1 c0 c1 s).beat } ∧
      (bootStarted n0 n1 p0 p1 c0 c1 fails s).dies = (railsUp (bootRead n0 n1 p0 p1 c0 c1 s)).dies ∧
      (bootStarted n0 n1 p0 p1 c0 c1 fails s).dram.stackSt = (List.range 8).map (fun k => (k, 3)) ∧
      (bootStarted n0 n1 p0 p1 c0 c1 fails s).pair = (bootRead n0 n1 p0 p1 c0 c1 s).pair ∧
      (bootStarted n0 n1 p0 p1 c0 c1 fails s).config = (bootRead n0 n1 p0 p1 c0 c1 s).config ∧
      (bootStarted n0 n1 p0 p1 c0 c1 fails s).mem = s.mem := by
  have hread2 : (bootRead n0 n1 p0 p1 c0 c1 s).dev.state = 2 := by rw [bootRead_dev]; exact h
  obtain ⟨hpow, hdev, hdies, hdram, hpair, hconf, hmem⟩ := bootTaken_kept fails hread2
  have hpow' : (bootRead n0 n1 p0 p1 c0 c1 s).power = s.power :=
    ((bootConfig_keeps ..).power rfl).trans ((bootPair_keeps ..).power rfl)
  have hmem' : (bootRead n0 n1 p0 p1 c0 c1 s).mem = s.mem :=
    ((bootConfig_keeps ..).mem rfl).trans ((bootPair_keeps ..).mem rfl)
  rw [hpow'] at hpow
  rw [hmem'] at hmem
  unfold bootStarted
  split
  · have h2 : (bootTaken fails (bootRead n0 n1 p0 p1 c0 c1 s)).dev.state = 2 := by rw [hdev]; exact hread2
    rw [(startBootLoads_keeps _).power rfl, startBootLoads_dev h2, (startBootLoads_keeps _).dies rfl,
      (startBootLoads_keeps _).dram rfl, (startBootLoads_keeps _).pair rfl, (startBootLoads_keeps _).config rfl,
      (startBootLoads_keeps _).mem rfl]
    exact ⟨hpow, hdev, hdies, hdram, hpair, hconf, hmem⟩
  · exact ⟨hpow, hdev, hdies, hdram, hpair, hconf, hmem⟩

theorem bootStarted_frame : Keeps 544387104767 s (bootStarted n0 n1 p0 p1 c0 c1 fails s) := by
  have hread : Keeps 544387104767 s (bootRead n0 n1 p0 p1 c0 c1 s) :=
    bootConfig_keeps_k (by decide) (Keeps.u268435456 (by decide) (bootPair_keeps_k (by decide)
      (State_count_keeps_k (by decide) (Keeps.refl _ s))))
  have htaken : Keeps 544387104767 s (bootTaken fails (bootRead n0 n1 p0 p1 c0 c1 s)) :=
    takeConfig_keeps_k (by decide) (bootReasons_keeps_k (by decide) (bootTests_keeps_k (by decide) (bootRails_keeps_k (by decide)
      (State_setObj_keeps_k (by decide) hread))))
  unfold bootStarted
  split
  · exact startBootLoads_keeps_k (by decide) htaken
  · exact htaken

theorem bootRead_config : (bootRead n0 n1 p0 p1 c0 c1 s).config =
    { s.config with
      copyA := readCopy c0, copyB := readCopy c1, staged := [], owner := none, subs := [], segs := [], seqs := [], notifies := []
      gen := if configGood { s.config with copyA := readCopy c0, copyB := readCopy c1 } then (readCopy c0).gen else 0 } := by
  rw [bootRead, bootConfig_config]
  dsimp only
  rw [(bootPair_keeps ..).config rfl]
  rfl

theorem configGood_eq (c : CfgState) (x y : ConfigCopy) :
    (if configGood { c with copyA := x, copyB := y } then x.gen else 0) =
      if x.status = 0 ∧ y.status = 0 ∧ x.gen = y.gen then x.gen else 0 := by
  simp only [configGood, Bool.and_eq_true, beq_iff_eq, and_assoc]

theorem bootStarted_spec (h : s.dev.state = 2 ∧ s.dev.started = false) {a b : Bool} (ha : a = (p0 && (norStart n0).isSome))
    (hb : b = (p1 && (norStart n1).isSome)) (hp : a = true ∨ b = true) :
    let t := bootStarted n0 n1 p0 p1 c0 c1 fails s
    t.power.rails = 127 ∧ t.dev.started = true ∧ t.dev.state = 2 ∧
      t.dev.firmware = (if a then (norStart n0).getD 0 else (norStart n1).getD 0) ∧ t.pair.active = (if a then 0 else 1) ∧
      t.pair.state = (if a ∧ b then (if (norStart n0).getD 0 = (norStart n1).getD 0 then 0 else 3) else if a then 1 else 2) ∧
      t.pair.recover = none ∧ t.config.copyA = readCopy c0 ∧ t.config.copyB = readCopy c1 ∧
      t.config.gen = (if (readCopy c0).status = 0 ∧ (readCopy c1).status = 0 ∧ (readCopy c0).gen = (readCopy c1).gen then
        (readCopy c0).gen else 0) ∧
      (∀ k, k < 8 → tget 0 k t.dram.stackSt = 3) ∧ (∀ n, n < 16 → (t.die n).reset.isSome = true) ∧ t.config.staged = [] ∧
      t.config.owner = none ∧ t.mem = s.mem ∧
      t = { s with
          beat := t.beat, od := t.od, odb := t.odb, mem := t.mem, cores := t.cores, wins := t.wins, dies := t.dies
          whips := t.whips, sched := t.sched, arbs := t.arbs, strings := t.strings, tiles := t.tiles, bus := t.bus
          tags := t.tags, harps := t.harps, domains := t.domains, sounding := t.sounding, dram := t.dram
          ports := t.ports, fabric := t.fabric, rmem := t.rmem, retr := t.retr, serve := t.serve, images := t.images
          time := t.time, config := t.config, dev := t.dev, pair := t.pair, ens := t.ens, pod := t.pod
          power := t.power, cvus := t.cvus, kat := t.kat, test := t.test, beagle := t.beagle, log := t.log
          bad := t.bad } := by
  obtain ⟨h2, -⟩ := h
  obtain ⟨hpow, hdev, hdies, hdram, hpair, hconf, hmem⟩ := bootStarted_kept n0 n1 p0 p1 c0 c1 fails h2
  obtain ⟨-, hact, hrec, hst⟩ := bootPair_eq (s.count Obj.bootCount 1) ((norStart n0).getD 0) ((norStart n1).getD 0)
    (p0 && (norStart n0).isSome) (p1 && (norStart n1).isSome)
  have hframe := bootStarted_frame n0 n1 p0 p1 c0 c1 fails (s := s)
  rw [bootRead_pair] at hpair
  rw [bootRead_dev] at hdev
  rw [bootRead_config] at hconf
  generalize bootStarted n0 n1 p0 p1 c0 c1 fails s = t at *
  dsimp only
  refine ⟨by rw [hpow], by rw [hdev], by rw [hdev]; exact h2, by rw [hdev, ha], by rw [hpair, hact, ha], ?_, by rw [hpair, hrec],
    by rw [hconf], by rw [hconf], by rw [hconf]; exact configGood_eq .., fun k hk => by rw [hdram]; exact stacksInTraining hk,
    fun n hn => by rw [State.die, hdies]; exact railsUp_reset _ hn, by rw [hconf], by rw [hconf], hmem, hframe.eq⟩
  rw [hpair, hst (by rw [← ha, ← hb]; exact hp), ha, hb]

end

/-! ### The end of a boot -/

theorem stepPending_untouched (s : State) : Untouched [Obj.beatSteps] s (stepPending s) := by
  unfold stepPending
  split
  · exact Untouched.refl _ _
  · exact count_untouched_of_od rfl

theorem enterState_held_untouched (s : State) : Untouched (Obj.beatSteps :: logCounters) s (enterState 3 s) := by
  unfold enterState
  split
  · exact Untouched.refl _ _
  · dsimp only
    rw [if_neg (c := 3 = 2 ∨ 3 = 0 ∨ 3 = 8) (by decide), if_pos (c := 3 = 2 ∨ 3 = 3) (by decide)]
    have hstep := stepPending_untouched { s with dev := { s.dev with state := 3 } }
    exact Untouched.trans (hstep.mono (fun x hx => List.mem_cons.2 (.inl (List.mem_singleton.1 hx))))
      (Untouched.mono (traceMake_untouched _ _ _ _ _) fun x hx => List.mem_cons_of_mem _ hx) (fun _ hx => hx)

/-- A state of service changes the device state alone, with its trace record. -/
theorem enterServed_keeps {n : Nat} (hn : 4 ≤ n ∧ n ≤ 7) {s t : State} (h : Keeps 68786585602 s t) :
    Keeps 68786585602 s (enterState n t) := by
  obtain ⟨h4, h7⟩ := hn
  unfold enterState
  split
  · exact h
  · dsimp only
    rw [if_neg (by omega), if_neg (by omega)]
    exact traceMake_keeps_k (by decide) (Keeps.u67108864 (by decide) (fun _ => (by omega : n ≤ 8)) h)

theorem bootComplete_ready {ms : W32} {s : State} (h : s.dev.state = 2 ∧ s.dev.started = true ∧ bootQuiet s = true) :
    exec (.bootComplete ms) s =
      if s.config.gen = 0 then .next (enterState 3 { s.setObj Obj.bootElapsedMs ms.toNat with dev := { s.dev with heldAtBoot := true } })
      else if inEnsemble s = true then .next (startRollCall (enterState 3 (s.setObj Obj.bootElapsedMs ms.toNat)))
      else .next (goServe (s.setObj Obj.bootElapsedMs ms.toNat)) := by
  obtain ⟨h2, hs, hq⟩ := h
  have hgo : ¬ (s.dev.state ≠ 2 ∨ (!s.dev.started) = true ∨ (!bootQuiet s) = true) := by
    simp only [h2, hs, hq, ne_eq, not_true_eq_false, Bool.not_true, Bool.false_eq_true, or_self, not_false_iff]
  have hens : inEnsemble (s.setObj Obj.bootElapsedMs ms.toNat) = inEnsemble s := by
    unfold inEnsemble
    rw [State.obj_setObj_other _ _ (by decide)]
  refine (if_neg hgo).trans ?_
  simp only [hens]
  rfl

theorem elapsed_setObj (ms : W32) (s : State) : (s.setObj Obj.bootElapsedMs ms.toNat).obj Obj.bootElapsedMs = ms.toNat :=
  (State.obj_setObj ..).trans (Nat.mod_eq_of_lt (ms.isLt.trans (by decide)))

theorem portReady_setObj {k v : Nat} {s : State} (h0 : Obj.servePortModeS + 0 ≠ k) (h1 : Obj.servePortModeS + 1 ≠ k)
    (hr : Obj.retrieverEnable ≠ k) : portReady (s.setObj k v) = portReady s := by
  simp only [portReady, List.any_cons, List.any_nil, State.obj_setObj_other s v h0, State.obj_setObj_other s v h1,
    State.obj_setObj_other s v hr]
  rfl

/-- Entering a state of service leaves every object but the elapsed time of the boot and the log's counters. -/
theorem bootServed_frame {n : Nat} (hn : 4 ≤ n ∧ n ≤ 7) (ms : W32) (s : State) :
    (enterState n (s.setObj Obj.bootElapsedMs ms.toNat)).obj Obj.bootElapsedMs = ms.toNat ∧
      Untouched (Obj.bootElapsedMs :: logCounters) s (enterState n (s.setObj Obj.bootElapsedMs ms.toNat)) ∧
      Keeps 68786585602 s (enterState n (s.setObj Obj.bootElapsedMs ms.toNat)) := by
  have hu := enterState_untouched n (.inr hn) (s.setObj Obj.bootElapsedMs ms.toNat)
  refine ⟨(hu _ (by decide)).trans (elapsed_setObj ms s), ?_, ?_⟩
  · exact Untouched.trans (setObj_untouched (List.mem_singleton.2 rfl) _ _ |>.mono fun x hx => List.mem_cons.2 (.inl (List.mem_singleton.1 hx)))
      (hu.mono fun x hx => List.mem_cons_of_mem _ hx) (fun _ hx => hx)
  · exact enterServed_keeps hn (State_setObj_keeps_k (by decide) (Keeps.refl _ s))

/-- Settles O53. -/
theorem deviceStates : Obligations.DeviceStates := by
  refine ⟨?_, ?_, ?_, ?_, ?_, ?_, ?_, ?_, ?_, ?_, ?_, ?_, ?_, ?_, ?_, ?_⟩
  · exact fun s h => ⟨s, if_neg (by simpa only [List.isEmpty_iff] using h), rfl⟩
  · intro s h h2
    refine ⟨_, (if_pos (by simpa only [List.isEmpty_iff] using h)).trans (congrArg _ (if_neg h2)), rfl, enterState_dev 4 s,
      enterState_untouched 4 (.inr ⟨by decide, by decide⟩) s, (enterServed_keeps ⟨by decide, by decide⟩ (Keeps.refl _ s)).eq⟩
  · intro s h h2
    refine ⟨_, (if_pos (by simpa only [List.isEmpty_iff] using h)).trans (congrArg _ (if_pos h2)), rfl, ?_⟩
    have hk := enterState_keeps 1 (by decide) (railsOff s)
    rw [enterState_dev, hk.mem rfl, hk.dies rfl, hk.power rfl, hk.images rfl, hk.config rfl]
    exact ⟨rfl, rfl, rfl, rfl, rfl, rfl⟩
  · intro n0 n1 p0 p1 c0 c1 fails s h
    refine ⟨s, if_pos ?_, rfl⟩
    by_contra hc
    simp only [not_or, ne_eq, not_not, Bool.not_eq_true] at hc
    exact h hc
  · rintro n0 n1 p0 p1 c0 c1 fails _ _ s ⟨h2, hs⟩ rfl rfl ⟨ha, hb⟩
    refine ⟨_, bootStart_failed n0 n1 p0 p1 c0 c1 fails ⟨h2, hs⟩ ha hb, rfl, ?_⟩
    rw [faultStop, if_neg (by rw [h2]; decide)]
    show (logEvent _ _ _ _ _ _ _).dev.state = 8
    rw [(logEvent_keeps ..).dev rfl, enterState_dev]
  · intro n0 n1 p0 p1 c0 c1 fails a b u v w x s h ha hb hp hu hv hw hx
    have hread : v = bootRead n0 n1 p0 p1 c0 c1 s := by rw [hv, hu, ha, hb, bootRead]
    have htaken : x = bootTaken fails (bootRead n0 n1 p0 p1 c0 c1 s) := by rw [hx, hw, hread, bootTaken]
    exact ⟨_, bootStart_started n0 n1 p0 p1 c0 c1 fails h (by rw [← ha, ← hb]; exact hp), by rw [hread, htaken]⟩
  · intro n0 n1 p0 p1 c0 c1 fails a b s h ha hb hp
    exact ⟨bootStarted n0 n1 p0 p1 c0 c1 fails s, bootStart_started n0 n1 p0 p1 c0 c1 fails h (by rw [← ha, ← hb]; exact hp),
      bootStarted_spec n0 n1 p0 p1 c0 c1 fails h ha hb hp⟩
  · exact norStart_spec
  · intro ms s h
    refine ⟨s, if_pos ?_, rfl⟩
    by_contra hc
    simp only [not_or, ne_eq, not_not, Bool.not_eq_true', Bool.not_eq_false] at hc
    exact h hc
  · rintro ms _ s h hg rfl
    refine ⟨_, (bootComplete_ready h).trans (if_pos hg), rfl, ?_, ?_, ?_⟩
    · rw [enterState_dev]
    · exact (enterState_held_untouched _ _ (by decide)).trans (elapsed_setObj ms s)
    · exact (enterState_keeps 3 (by decide) _).ens rfl
  · rintro ms _ s h hg hens rfl
    refine ⟨_, (bootComplete_ready h).trans ((if_neg hg).trans (if_pos hens)), rfl, ?_⟩
    unfold startRollCall
    rw [(subscribeMembers_keeps _).dev rfl, (subscribeMembers_keeps _).ens rfl]
    dsimp only
    rw [enterState_dev]
    exact ⟨rfl, rfl, rfl⟩
  · intro ms s h hg hens hno
    have hno' : ¬ ((s.setObj Obj.bootElapsedMs ms.toNat).obj Obj.serveEnable = 1 ∧ anyResident (s.setObj Obj.bootElapsedMs ms.toNat) = true ∧
        portReady (s.setObj Obj.bootElapsedMs ms.toNat) = true) := by
      rw [portReady_setObj (by decide) (by decide) (by decide), State.obj_setObj_other _ _ (by decide)]
      exact hno
    obtain ⟨he, hu, hk⟩ := bootServed_frame (n := 4) ⟨by decide, by decide⟩ ms s
    refine ⟨_, (bootComplete_ready h).trans ((if_neg hg).trans (if_neg (by rw [hens]; decide))), ?_⟩
    rw [goServe, if_neg hno']
    exact ⟨enterState_dev _ _, he, hu, hk.eq⟩
  · intro ms s h hg hens hyes
    have hyes' : (s.setObj Obj.bootElapsedMs ms.toNat).obj Obj.serveEnable = 1 ∧ anyResident (s.setObj Obj.bootElapsedMs ms.toNat) = true ∧
        portReady (s.setObj Obj.bootElapsedMs ms.toNat) = true := by
      rw [portReady_setObj (by decide) (by decide) (by decide), State.obj_setObj_other _ _ (by decide)]
      exact hyes
    have hn : 4 ≤ (if s.obj Obj.stateReasons = 0 then 5 else 6) ∧ (if s.obj Obj.stateReasons = 0 then 5 else 6) ≤ 7 := by
      split <;> decide
    obtain ⟨he, hu, hk⟩ := bootServed_frame hn ms s
    refine ⟨_, (bootComplete_ready h).trans ((if_neg hg).trans (if_neg (by rw [hens]; decide))), ?_⟩
    rw [goServe, if_pos hyes', enterService, State.obj_setObj_other s _ (show Obj.stateReasons ≠ Obj.bootElapsedMs by decide)]
    exact ⟨enterState_dev _ _, he, hu, hk.eq⟩
  · exact fun s h => ⟨_, if_pos h, rfl⟩
  · exact fun s h => ⟨s, if_neg h, rfl⟩
  · exact fun s => ⟨_, rfl, rfl⟩

end Sys2Proof.Machine

end

section

/-! PROOFS. The vector slot (R61, R67, R68): an operation that issues, its operands, and its result in flight. -/

namespace Sys2Proof.Machine

/-! ### Registers -/

/-- A register read at a tick reads the same at every later one. -/
theorem VecReg.at_later {r : VecReg} {l : List W32} {T0 T : Nat} (h : r.at T0 = some l) (hT : T0 ≤ T) : r.at T = some l := by
  unfold VecReg.at at h ⊢
  split at h
  · cases h
  · next hno =>
    rw [if_neg, ← h]
    intro hany
    obtain ⟨x, hx, hlt⟩ := List.any_eq_true.1 hany
    exact hno (List.any_eq_true.2 ⟨x, hx, decide_eq_true (Nat.lt_of_le_of_lt hT (of_decide_eq_true hlt))⟩)

theorem VecReg.at_settled (l : List W32) (T : Nat) : VecReg.at { lanes := l, flight := [] } T = some l := rfl

/-- The registers of a core with the operands settled at a tick. -/
def settledRegs (c : Core) (T : Nat) (rs : List Nat) : Tab VecReg :=
  rs.foldl (fun t r => ((c.vreg r).at T).elim t (fun l => tset r { lanes := l, flight := [] } t)) c.regs

theorem settledRegs_of_step {c : Core} {T : Nat} {rs : List Nat} {g : Tab VecReg → Nat → Tab VecReg}
    (hg : ∀ t r, g t r = ((c.vreg r).at T).elim t (fun l => tset r { lanes := l, flight := [] } t)) :
    rs.foldl g c.regs = settledRegs c T rs := by
  have : g = fun t r => ((c.vreg r).at T).elim t (fun l => tset r { lanes := l, flight := [] } t) := by
    funext t r; exact hg t r
  rw [this, settledRegs]

/-- Settling operands changes no register as it is read from then on, and leaves no more in flight than there was. -/
theorem settledRegs_read (c : Core) (T : Nat) (rs : List Nat) (x : Nat) :
    (∀ T', T ≤ T' → (tget ({} : VecReg) x (settledRegs c T rs)).at T' = (c.vreg x).at T') ∧
      ((tget ({} : VecReg) x (settledRegs c T rs)).flight = [] ∨
        (tget ({} : VecReg) x (settledRegs c T rs)).flight = (c.vreg x).flight) := by
  unfold settledRegs
  refine List.foldlRecOn (motive := fun t => (∀ T', T ≤ T' → (tget ({} : VecReg) x t).at T' = (c.vreg x).at T') ∧
    ((tget ({} : VecReg) x t).flight = [] ∨ (tget ({} : VecReg) x t).flight = (c.vreg x).flight)) _ _ ⟨fun _ _ => rfl, .inr rfl⟩ ?_
  intro t ht r _
  cases hr : (c.vreg r).at T with
  | none => exact ht
  | some l =>
    by_cases hx : x = r
    · subst hx
      refine ⟨fun T' hT => ?_, .inl ?_⟩
      · show VecReg.at (tget ({} : VecReg) x (tset x _ t)) T' = _
        rw [tget_tset_same, VecReg.at_settled, VecReg.at_later hr hT]
      · show (tget ({} : VecReg) x (tset x _ t)).flight = _
        rw [tget_tset_same]
    · show (∀ T', T ≤ T' → (tget ({} : VecReg) x (tset r _ t)).at T' = _) ∧ ((tget ({} : VecReg) x (tset r _ t)).flight = [] ∨
        (tget ({} : VecReg) x (tset r _ t)).flight = _)
      rw [tget_tset_other _ _ _ hx]
      exact ht

theorem withRegs_some {n T : Nat} {rs : List Nat} {f : List (List W32) → State → State} {ls : List (List W32)} {s : State}
    (h : rs.mapM (fun r => ((s.core n).vreg r).at T) = some ls) :
    withRegs n T rs f s = f ls (s.setCore n { s.core n with regs := settledRegs (s.core n) T rs }) := by
  simp only [withRegs, h]
  rw [settledRegs_of_step (fun t r => by cases ((s.core n).vreg r).at T <;> rfl)]

theorem putResult_free {n vd due : Nat} {lanes : List W32} {s : State} (h : ∀ x ∈ ((s.core n).vreg vd).flight, x.1 ≠ due) :
    putResult n vd due lanes s = s.setCore n { s.core n with
      regs := tset vd { (s.core n).vreg vd with flight := ((s.core n).vreg vd).flight ++ [(due, lanes)] } (s.core n).regs } := by
  refine if_neg fun hany => ?_
  obtain ⟨x, hx, he⟩ := List.any_eq_true.1 hany
  exact h x hx (beq_iff_eq.1 he)

/-! ### Issue -/

/-- An operation that issues does its work on the state with its slot marked. -/
theorem issue_issued {i : Issue} {u : SlotUse} {s : State} (h : Issues i u s) (f : Nat → Nat → State → State) :
    issue i u f s = f i.core.val (issueTick i s) (issued i u s) := by
  obtain ⟨h1, h2, h3, h4, h5⟩ := h
  obtain ⟨m, hm⟩ := Option.isSome_iff_exists.1 h2
  have hat : atTick i s = m := by rw [atTick, hm]; rfl
  have hdue : dueDone i s = progress i.core.val (m.core i.core.val).tick m := by rw [dueDone, issueTick, hat]
  rw [hat] at h3
  rw [issueTick, hat] at h5
  rw [issue, if_neg (by rw [h1]; decide), hm]
  dsimp only
  rw [if_neg (by rw [h3]; decide), ← hdue, if_neg (by rw [h4]; decide), if_neg (Nat.not_le.2 h5), issueTick, hat, issued]

theorem onlyCore_setCore {n : Nat} {u t : State} {c : Core} (h : OnlyCore n u t) : OnlyCore n u (t.setCore n c) := by
  obtain ⟨hcores, ht⟩ := h
  refine ⟨fun m hm => (State.core_setCore_other _ _ hm).trans (hcores m hm), ?_⟩
  rw [State.setCore, ht]

theorem OnlyCore.refl (n : Nat) (u : State) : OnlyCore n u u := ⟨fun _ _ => rfl, rfl⟩

section
variable {i : Issue} {u : SlotUse} {s : State}

/-- The core of an operation that raises flags and is counted, over settled registers. -/
def countedCore (c : Core) (regs : Tab VecReg) (flags : Flags) : Core :=
  { c with
    regs, astat := c.astat ||| BitVec.ofNat 16 (flags % 128), acts := tset 6 (tget 0 6 c.acts + 1) c.acts }

/-- A result put into a core with settled registers. -/
theorem putResult_result {vd : VReg} {latency : Nat} {r : List W32 × Flags} {rs : List Nat} {x : State}
    (hx : OnlyCore i.core.val (issued i u s) x)
    (hcore : x.core i.core.val = countedCore (issuedCore i u s) (settledRegs (issuedCore i u s) (issueTick i s) rs) r.2)
    (hc : NoClash i u s vd latency) :
    VectorResult i u vd latency r s (putResult i.core.val vd.val (issueTick i s + latency) r.1 x) := by
  have hread := settledRegs_read (issuedCore i u s) (issueTick i s) rs
  have hfree : ∀ y ∈ ((x.core i.core.val).vreg vd.val).flight, y.1 ≠ issueTick i s + latency := by
    rw [hcore]
    obtain ⟨-, hempty | hsame⟩ := hread vd.val
    · intro y hy
      have hy : y ∈ (tget ({} : VecReg) vd.val (settledRegs (issuedCore i u s) (issueTick i s) rs)).flight := hy
      rw [hempty] at hy
      exact absurd hy List.not_mem_nil
    · intro y hy
      have hy : y ∈ (tget ({} : VecReg) vd.val (settledRegs (issuedCore i u s) (issueTick i s) rs)).flight := hy
      rw [hsame] at hy
      exact hc y hy
  rw [putResult_free hfree]
  refine ⟨?_, fun y T hy hT => ?_, ?_, onlyCore_setCore hx⟩
  · rw [State.core_setCore]
    show _ ∈ (tget ({} : VecReg) vd.val (tset vd.val _ _)).flight
    rw [tget_tset_same]
    exact List.mem_append_right _ (List.mem_singleton.2 rfl)
  · rw [State.core_setCore, hcore]
    show (tget ({} : VecReg) y (tset vd.val _ _)).at T = _
    rw [tget_tset_other _ _ _ hy]
    exact (hread y).1 T hT
  · rw [State.core_setCore, hcore]
    rfl

/-- A vector operation with its operands in and no write clash: its result is due, its flags are raised, it is counted. -/
theorem opVector_result {vd : VReg} {latency : Nat} {rs : List Nat} {f : Bool → List (List W32) → List W32 × Flags}
    {ls : List (List W32)} {r : List W32 × Flags}
    (hops : rs.mapM (fun r => ((issuedCore i u s).vreg r).at (issueTick i s)) = some ls) (hc : NoClash i u s vd latency)
    (hr : f (issuedCore i u s).ftz ls = r) :
    VectorResult i u vd latency r s (opVector vd.val latency rs f i.core.val (issueTick i s) (issued i u s)) := by
  rw [← hr]
  unfold opVector
  rw [withRegs_some hops]
  dsimp only
  rw [State.core_setCore]
  refine putResult_result (rs := rs) (onlyCore_setCore (onlyCore_setCore (onlyCore_setCore (OnlyCore.refl _ _)))) ?_ hc
  rw [raiseCore, State.core_setCore, coreAct, State.core_setCore, State.core_setCore]
  rfl

theorem operands1 {va : VReg} {a : List W32} (ha : Operand i u s va a) :
    [va.val].mapM (fun r => ((issuedCore i u s).vreg r).at (issueTick i s)) = some [a] := by
  simp only [List.mapM_cons, List.mapM_nil, ha]; rfl

theorem operands2 {va vb : VReg} {a b : List W32} (ha : Operand i u s va a) (hb : Operand i u s vb b) :
    [va.val, vb.val].mapM (fun r => ((issuedCore i u s).vreg r).at (issueTick i s)) = some [a, b] := by
  simp only [List.mapM_cons, List.mapM_nil, ha, hb]; rfl

theorem operands3 {va vb vc : VReg} {a b c : List W32} (ha : Operand i u s va a) (hb : Operand i u s vb b)
    (hc : Operand i u s vc c) :
    [va.val, vb.val, vc.val].mapM (fun r => ((issuedCore i u s).vreg r).at (issueTick i s)) = some [a, b, c] := by
  simp only [List.mapM_cons, List.mapM_nil, ha, hb, hc]; rfl

/-- A vector operation that issues with its operands in. -/
theorem vector_issues {vd : VReg} {latency : Nat} {rs : List Nat} {f : Bool → List (List W32) → List W32 × Flags}
    {ls : List (List W32)} {r : List W32 × Flags} (hi : Issues i u s)
    (hops : rs.mapM (fun r => ((issuedCore i u s).vreg r).at (issueTick i s)) = some ls) (hc : NoClash i u s vd latency)
    (hr : f (issuedCore i u s).ftz ls = r) :
    VectorResult i u vd latency r s (issue i u (opVector vd.val latency rs f) s) := by
  rw [issue_issued hi]
  exact opVector_result hops hc hr

end

theorem gatherFlags_noFlags (l : List W32) : gatherFlags (l.map noFlags) = (l, 0) := by
  have hflags : ∀ l : List W32, (l.map noFlags).foldl (fun a x => a ||| x.2) (0 : Flags) = 0 := fun l => by
    induction l with
    | nil => rfl
    | cons x l ih => simpa [noFlags] using ih
  refine Prod.ext ?_ (hflags l)
  show List.map _ (List.map _ _) = _
  rw [List.map_map]
  exact List.map_id l

theorem lanes2_noFlags (f : W32 → W32 → W32) (a b : List W32) :
    lanes2 (fun x y => noFlags (f x y)) a b = (List.zipWith f a b, 0) := by
  rw [lanes2, ← gatherFlags_noFlags, List.map_zipWith]

/-- VCVT to TRIT5, to a reserved format, or stochastic to a format without it. -/
theorem vcvt_refused {i : Issue} {u : SlotUse} {vd va vc : VReg} {fmt : BitVec 5} {m : CvtMode} {s : State}
    (hu : u = useVec 0x0F vd.val [va.val] [(21, 5, vc.val), (26, 5, fmt.toNat), (31, 1, bitOf m.sat), (32, 2, bitOf m.stoch),
      (34, 6, m.conv.val)]) (h : Issues i u s)
    (hf : fmt.toNat = fmtTRIT5 ∨ fmtSupported fmt.toNat = false ∨ (m.stoch = true ∧ stochAllowed fmt.toNat = false)) :
    exec (.vcvt i vd va vc fmt m) s = .next (endCore i.core.val exitFORMAT (issued i u s)) := by
  subst hu
  show Host.Outcome.next (issue _ _ _ _) = _
  rw [issue_issued h, if_pos (by simpa only [Bool.not_eq_true'] using hf)]

theorem vcvt_issues {i : Issue} {u : SlotUse} {vd va vc : VReg} {fmt : BitVec 5} {m : CvtMode} {s : State}
    (hu : u = useVec 0x0F vd.val [va.val] [(21, 5, vc.val), (26, 5, fmt.toNat), (31, 1, bitOf m.sat), (32, 2, bitOf m.stoch),
      (34, 6, m.conv.val)]) (h : Issues i u s) (ht : fmt.toNat ≠ fmtTRIT5) (hs : fmtSupported fmt.toNat = true)
    (hst : m.stoch = true → stochAllowed fmt.toNat = true) :
    exec (.vcvt i vd va vc fmt m) s = .next (opVector vd.val 3 (if m.stoch then [va.val, vc.val] else [va.val]) (fun z l =>
      vcvtLanes fmt.toNat (cvtMode m (windowSeeds (issued i u s) i.core.val 0).1 (windowSeeds (issued i u s) i.core.val 0).2
        ((issuedCore i u s).convId m.conv) ((arg l 1).headD 0).toNat 0) m.sat z (arg l 0)) i.core.val (issueTick i s)
      (issued i u s)) := by
  subst hu
  have hgo : ¬ (fmt.toNat = fmtTRIT5 ∨ (!fmtSupported fmt.toNat) = true ∨ (m.stoch = true ∧ (!stochAllowed fmt.toNat) = true)) := by
    simp only [not_or, not_and, Bool.not_eq_true', Bool.not_eq_false]
    exact ⟨ht, hs, hst⟩
  show Host.Outcome.next (issue _ _ _ _) = _
  rw [issue_issued h, if_neg hgo]
  rfl

/-- ACC2V of a row that is ready. -/
theorem acc2v_issues {i : Issue} {u : SlotUse} {vd : VReg} {imm : BitVec 9} {s : State}
    (h : Issues i u s) (hready : ((issuedCore i u s).accRow (bitsAt imm.toNat 6 2) (bitsAt imm.toNat 0 6)).ready ≤ issueTick i s)
    (hc : NoClash i u s vd 2) :
    VectorResult i u vd 2 (((issuedCore i u s).accRow (bitsAt imm.toNat 6 2) (bitsAt imm.toNat 0 6)).vals, 0) s
      (issue i u (opAcc2v vd.val imm.toNat) s) := by
  rw [issue_issued h, opAcc2v, if_neg (by exact Nat.not_lt.2 hready)]
  refine putResult_result (rs := []) (r := (_, 0)) (onlyCore_setCore (OnlyCore.refl _ _)) ?_ hc
  have hflags : (issuedCore i u s).astat ||| BitVec.ofNat 16 (0 % 128) = (issuedCore i u s).astat := BitVec.or_zero
  rw [coreAct, State.core_setCore, countedCore, hflags]
  rfl

/-- Settles O12. -/
theorem vectorOperations : Obligations.VectorOperations := by
  refine ⟨?_, ?_, ?_, ?_, ?_, ?_, ?_, ?_, ?_, ?_, ?_, ?_, ?_, ?_, ?_, ?_, ?_, ?_, ?_, ?_, ?_, ?_, ?_, ?_, ?_, ?_⟩
  · rintro i _ vd va vb a b s rfl h ha hb hc
    exact ⟨_, rfl, vector_issues h (operands2 ha hb) hc rfl⟩
  · rintro i _ vd va vb a b s rfl h ha hb hc
    exact ⟨_, rfl, vector_issues h (operands2 ha hb) hc rfl⟩
  · rintro i _ vd va vb a b s rfl h ha hb hc
    exact ⟨_, rfl, vector_issues h (operands2 ha hb) hc rfl⟩
  · rintro i _ vd va vb vc a b c s rfl h ha hb hc hn
    exact ⟨_, rfl, vector_issues h (operands3 ha hb hc) hn rfl⟩
  · rintro i _ vd va vb a b s rfl h ha hb hc
    rw [← lanes2_noFlags]
    exact ⟨_, rfl, vector_issues h (operands2 ha hb) hc rfl⟩
  · rintro i _ vd va vb a b s rfl h ha hb hc
    rw [← lanes2_noFlags]
    exact ⟨_, rfl, vector_issues h (operands2 ha hb) hc rfl⟩
  · rintro i _ vd va vb a b s rfl h ha hb hc
    exact ⟨_, rfl, vector_issues h (operands2 ha hb) hc rfl⟩
  · rintro i _ vd va vb vc a b c s rfl h ha hb hc hn
    exact ⟨_, rfl, vector_issues h (operands3 ha hb hc) hn rfl⟩
  · rintro i _ vd va vb a b s rfl h ha hb hc
    exact ⟨_, rfl, vector_issues h (operands2 ha hb) hc rfl⟩
  · rintro i _ vd va a s rfl h ha hc
    exact ⟨_, rfl, vector_issues h (operands1 ha) hc rfl⟩
  · rintro i _ vd va a s rfl h ha hc
    exact ⟨_, rfl, vector_issues h (operands1 ha) hc rfl⟩
  · rintro i _ vd va a s rfl h ha hc
    exact ⟨_, rfl, vector_issues h (operands1 ha) hc rfl⟩
  · rintro i _ vd va a s rfl h ha hc
    exact ⟨_, rfl, vector_issues h (operands1 ha) hc rfl⟩
  · rintro i _ vd va a s rfl h ha hc
    refine ⟨_, rfl, vector_issues h (operands1 ha) hc ?_⟩
    show (match laneTree (f32Add (issuedCore i _ s).ftz) 9 a with | (x, f) => (List.replicate 512 x, f)) = _
    generalize laneTree (f32Add (issuedCore i _ s).ftz) 9 a = p
    rfl
  · rintro i _ vd va a s rfl h ha hc
    exact ⟨_, rfl, vector_issues h (operands1 ha) hc rfl⟩
  · rintro i _ vd va imm a s rfl h ha hc
    exact ⟨_, rfl, vector_issues h (operands1 ha) hc rfl⟩
  · intro i u vd va vc fmt sat conv a c s hu h ht hs ha _ hn
    exact ⟨_, vcvt_issues (m := { sat, stoch := false, conv }) hu h ht hs (fun h => absurd h Bool.false_ne_true),
      opVector_result (operands1 ha) hn rfl⟩
  · intro i u vd va vc fmt sat conv a c s hu h hst ht hs ha hc hn
    exact ⟨_, vcvt_issues (m := { sat, stoch := true, conv }) hu h ht hs (fun _ => hst), opVector_result (operands2 ha hc) hn rfl⟩
  · exact fun i u vd va vc fmt m s hu h hf => ⟨_, vcvt_refused hu h hf, rfl⟩
  · rintro i _ vd va a s rfl h ha hc
    exact ⟨_, rfl, vector_issues h (operands1 ha) hc rfl⟩
  · rintro i _ vd va a s rfl h ha hc
    exact ⟨_, rfl, vector_issues h (operands1 ha) hc rfl⟩
  · rintro i _ vd va a s rfl h ha hc
    exact ⟨_, rfl, vector_issues h (operands1 ha) hc rfl⟩
  · rintro i _ vd va a s rfl h ha hc
    exact ⟨_, rfl, vector_issues h (operands1 ha) hc rfl⟩
  · rintro i _ vd imm s rfl h hready hc
    exact ⟨_, rfl, acc2v_issues h hready hc⟩
  · rintro i _ s rfl h
    exact ⟨_, rfl, issue_issued h _⟩
  · rintro i _ s rfl h
    exact ⟨_, rfl, issue_issued h _⟩

end Sys2Proof.Machine

end

section

/-! PROOFS. Training of a string, lane maps, relay credits and echoes (R123 to R126, R132 to R139). -/

namespace Sys2Proof.Machine

/-! ### Tables written over a range of keys -/

/-- A value written at n keys in a row. -/
def fillTab (b v : Nat) (n : Nat) (g : Tab Nat) : Tab Nat := (List.range n).foldl (fun g k => tset (b + k) v g) g

theorem tget_fillTab (b v n j : Nat) (g : Tab Nat) :
    tget 0 j (fillTab b v n g) = if b ≤ j ∧ j < b + n then v else tget 0 j g := by
  induction n with
  | zero => rw [if_neg (by omega)]; rfl
  | succ n ih =>
    rw [fillTab, List.range_succ, List.foldl_append]
    show tget 0 j (tset (b + n) v (fillTab b v n g)) = _
    by_cases hj : j = b + n
    · rw [hj, tget_tset_same, if_pos (by omega)]
    · rw [tget_tset_other _ _ _ hj, ih]
      exact if_congr (by omega) rfl rfl

/-- A value found in a table whose entries are changed each by its own key. -/
theorem tget_map_entry {α : Type} (d : α) (k : Nat) (g : Nat × α → Nat × α) (hg : ∀ p, (g p).1 = p.1) (t : Tab α) :
    tget d k (t.map g) = d ∧ tget d k t = d ∨ tget d k (t.map g) = (g (k, tget d k t)).2 := by
  induction t with
  | nil => exact .inl ⟨rfl, rfl⟩
  | cons p t ih =>
    by_cases hk : k = p.1
    · right
      have h1 : tget d k ((p :: t).map g) = (g p).2 := by
        simp only [List.map_cons, tget, tfind, hg, if_pos hk, Option.getD_some]
      have h2 : tget d k (p :: t) = p.2 := by simp only [tget, tfind, if_pos hk, Option.getD_some]
      rw [h1, h2, hk]
    · have h1 : tget d k ((p :: t).map g) = tget d k (t.map g) := by
        simp only [List.map_cons, tget, tfind, hg, if_neg hk]
      have h2 : tget d k (p :: t) = tget d k t := by simp only [tget, tfind, if_neg hk]
      rw [h1, h2]
      exact ih

/-! ### Credits at training -/

/-- The table of credits with those of an offer: of the three buffers, of four classes and of 64 relays. -/
def offeredCredits (p : Bytes) (g : Tab Nat) : Tab Nat :=
  fillTab 132 (leAt p 12 1) 64 (fillTab 116 (leAt p 9 1) 4
    (tset 100 (leAt p 5 2) (tset 101 (leAt p 7 2) (tset 103 (leAt p 10 2) g))))

theorem noteCredits_training {n : Nat} {p : Bytes} {s : State} (h : (s.str n).state = 6) :
    noteCredits n p s = s.setStr n { s.str n with granted := offeredCredits p (s.str n).granted } :=
  if_neg (not_not.2 h)

theorem noteCredits_other {n : Nat} {p : Bytes} {s : State} (h : (s.str n).state ≠ 6) : noteCredits n p s = s := if_pos h

theorem tget_offeredCredits (p : Bytes) (g : Tab Nat) :
    tget 0 100 (offeredCredits p g) = leAt p 5 2 ∧ tget 0 101 (offeredCredits p g) = leAt p 7 2 ∧
      tget 0 103 (offeredCredits p g) = leAt p 10 2 ∧ (∀ k, k < 4 → tget 0 (116 + k) (offeredCredits p g) = leAt p 9 1) ∧
      (∀ k, k < 64 → tget 0 (132 + k) (offeredCredits p g) = leAt p 12 1) := by
  unfold offeredCredits
  simp only [tget_fillTab]
  refine ⟨?_, ?_, ?_, fun k hk => ?_, fun k hk => ?_⟩
  · rw [if_neg (by decide), if_neg (by decide), tget_tset_same]
  · rw [if_neg (by decide), if_neg (by decide), tget_tset_other _ _ _ (by decide), tget_tset_same]
  · rw [if_neg (by decide), if_neg (by decide), tget_tset_other _ _ _ (by decide), tget_tset_other _ _ _ (by decide),
      tget_tset_same]
  · rw [if_neg (by omega), if_pos (by omega)]
  · rw [if_pos (by omega)]

/-! ### A string that leaves training -/

/-- Entering a state other than OUT, FROZEN and DOWN changes the string alone, with its trace record. -/
theorem enterString_plain {n new : Nat} {s : State} (h3 : new ≠ 3) (h4 : new ≠ 4) (h5 : new ≠ 5) (hs : (s.str n).state ≠ new) :
    enterString n new s = traceMake (stringEnds n).1 n 0x05 (leBytes 2 n ++ leBytes 1 (s.str n).state ++ leBytes 1 new)
      (s.setStr n { s.str n with
        state := new, frozenAt := none, resetAt := if new = 4 ∨ new = 6 then (s.str n).resetAt else none
        checked := (s.str n).checked }) := by
  have h35 : ¬ (new = 3 ∨ new = 5) := not_or.2 ⟨h3, h5⟩
  have h345 : ¬ (new = 3 ∨ new = 4 ∨ new = 5) := not_or.2 ⟨h3, not_or.2 ⟨h4, h5⟩⟩
  simp only [enterString, if_neg hs, if_neg h345, List.foldl_nil, if_neg h3, if_neg h4, if_neg h5, if_neg h35]

/-- The frames of a pair's old link that are sent again over the new one. -/
def keptFrames (t : Str) : List (Byte × TxFrame) :=
  (List.range (t.unacked.filter (fun x => (x.1 - t.rxSeq).toNat < 128)).length).map (fun i => (BitVec.ofNat 8 i,
    ((t.unacked.filter (fun x => (x.1 - t.rxSeq).toNat < 128)).getD i (0, { hdr := 0, payload := [] })).2))

/-- What a fresh link keeps of a string's numbers, frames and scramblers. -/
def FreshLink (x t : Str) : Prop :=
  x.level = 1 ∧ x.rxSeq = 0 ∧ x.rxAck = 0xFF ∧ x.count = 0 ∧ x.freed = [] ∧ x.stopped = false ∧ x.echoDue = t.measure ∧
    x.txSeq = BitVec.ofNat 8 x.unacked.length ∧ x.resend = x.unacked ∧
    x.scr = (List.range 16).map (fun j => BitVec.ofNat 31 (j + 1))

theorem stateOf_usable {u : Nat} (h : 13 ≤ u) : stateOf u ≤ 2 := by
  unfold stateOf
  split
  · decide
  · split
    · decide
    · exact Nat.le_refl 2

theorem trainDone_fresh {n : Nat} {s : State} (h6 : (s.str n).state = 6) (hu : 13 ≤ (usableLines (s.str n)).length) :
    ((trainDone n s).str n).state = stateOf (usableLines (s.str n)).length ∧ FreshLink ((trainDone n s).str n) (s.str n) ∧
      (∀ k, k ≠ n → (trainDone n s).str k = s.str k) := by
  unfold trainDone
  dsimp only
  rw [if_neg (not_not.2 h6)]
  generalize hx : ({ s.str n with
    count := _, level := _, txSeq := _, unacked := _, resend := _, swap := _, spent := _, granted := _
    passed := _, timeouts := _, rxSeq := _, rxAck := _, freed := _, unreported := _, waiting := _, stopped := _, echo := _
    echoDue := _, measure := _, echoBack := _, announced := _, scr := _ } : Str) = x
  generalize hw : List.foldl _ (s.setStr n x) _ = w
  have hstr : w.strings = (s.setStr n x).strings := by
    rw [← hw]
    refine (Keeps.foldl (m := 1048592) (Keeps.refl _ _) fun v y hv => ?_).strings rfl
    cases y.2.chan with
    | none => exact hv
    | some c => exact chanFrameDone_keeps_k (by decide) hv
  have hwn : w.str n = x := by rw [State.str, hstr]; exact State.str_setStr ..
  have hother : ∀ k, k ≠ n → w.str k = s.str k := fun k hk => by rw [State.str, hstr]; exact State.str_setStr_other _ _ hk
  have hlines : usableLines x = usableLines (s.str n) := by rw [← hx]; rfl
  have hx6 : x.state = 6 := by rw [← hx]; exact h6
  have hst : stateOf (usableLines x).length ≤ 2 := by rw [hlines]; exact stateOf_usable hu
  rw [hwn, enterString_plain (by omega) (by omega) (by omega) (by rw [hwn, hx6]; omega)]
  refine ⟨?_, ?_, fun k hk => ?_⟩
  · rw [State.str, (traceMake_keeps ..).strings rfl]
    exact (congrArg Str.state (State.str_setStr ..)).trans (by rw [hlines])
  · rw [State.str, (traceMake_keeps ..).strings rfl]
    show FreshLink ((w.setStr n _).str n) _
    rw [State.str_setStr, hwn, ← hx]
    refine ⟨rfl, rfl, rfl, rfl, rfl, rfl, rfl, ?_, rfl, rfl⟩
    rfl
  · rw [State.str, (traceMake_keeps ..).strings rfl]
    exact (State.str_setStr_other _ _ hk).trans (hother k hk)

/-! ### Relay credits -/

theorem creditTo_granted (n b mod v : Nat) (s : State) :
    (creditTo n b mod v s).str n = { s.str n with
      granted := tset b (tget 0 (100 + b) (s.str n).granted + (tget 0 b (s.str n).granted - tget 0 (100 + b) (s.str n).granted) +
        (v + mod - (tget 0 b (s.str n).granted - tget 0 (100 + b) (s.str n).granted) % mod) % mod) (s.str n).granted } :=
  State.str_setStr ..

/-- The counter of relay buffer c of string m, moved to the value v modulo 64. -/
def relayMoved (g : Tab Nat) (c v : Nat) : Nat :=
  tget 0 (132 + c) g + (tget 0 (32 + c) g - tget 0 (132 + c) g) +
    (v + 64 - (tget 0 (32 + c) g - tget 0 (132 + c) g) % 64) % 64

/-- The relay counters of a string, moved to the values that a field carries modulo 64. -/
def relaysMoved (m x n : Nat) (s : State) : State :=
  (List.range n).foldl (fun s c => creditTo m (32 + c) 64 (bitsAt x (6 * c) 6) s) s

theorem relaysMoved_spec (m x n : Nat) (s : State) (hn : n ≤ 64) :
    (∀ c, c < n → tget 0 (32 + c) ((relaysMoved m x n s).str m).granted =
      relayMoved (s.str m).granted c (bitsAt x (6 * c) 6)) ∧
      (∀ b, b < 32 ∨ 32 + n ≤ b → tget 0 b ((relaysMoved m x n s).str m).granted = tget 0 b (s.str m).granted) ∧
      (relaysMoved m x n s).str m = { s.str m with granted := ((relaysMoved m x n s).str m).granted } ∧
      (∀ k, k ≠ m → (relaysMoved m x n s).str k = s.str k) := by
  induction n with
  | zero => exact ⟨fun c hc => absurd hc (Nat.not_lt_zero c), fun _ _ => rfl, rfl, fun _ _ => rfl⟩
  | succ n ih =>
    obtain ⟨hmoved, hsame, hstr, hother⟩ := ih (by omega)
    have hnext : relaysMoved m x (n + 1) s = creditTo m (32 + n) 64 (bitsAt x (6 * n) 6) (relaysMoved m x n s) := by
      rw [relaysMoved, List.range_succ, List.foldl_append]; rfl
    have hg := creditTo_granted m (32 + n) 64 (bitsAt x (6 * n) 6) (relaysMoved m x n s)
    rw [show 100 + (32 + n) = 132 + n by omega, hsame (132 + n) (.inr (by omega)), hsame (32 + n) (.inr (by omega))] at hg
    rw [hnext]
    refine ⟨fun c hc => ?_, fun b hb => ?_, ?_, fun k hk => ?_⟩
    · rw [hg]
      by_cases hcn : c = n
      · rw [hcn]
        exact tget_tset_same ..
      · exact (tget_tset_other _ _ _ (by omega)).trans (hmoved c (by omega))
    · rw [hg]
      exact (tget_tset_other _ _ _ (by omega)).trans (hsame b (by omega))
    · rw [hg, hstr]
    · rw [creditTo_str_other _ _ _ _ hk, hother k hk]

theorem relayMoved_spec {g : Tab Nat} {c v : Nat} (hv : v < 64) (h : tget 0 (132 + c) g ≤ tget 0 (32 + c) g) :
    (relayMoved g c v - tget 0 (132 + c) g) % 64 = v ∧ tget 0 (32 + c) g ≤ relayMoved g c v ∧
      relayMoved g c v < tget 0 (32 + c) g + 64 := by
  unfold relayMoved
  generalize tget 0 (132 + c) g = a at *
  generalize tget 0 (32 + c) g = b at *
  omega

theorem bitsAt_lt (x lo n : Nat) : bitsAt x lo n < 2 ^ n := Nat.mod_lt _ (Nat.two_pow_pos _)

/-! ### Lane maps -/

/-- A ring of a line that a new map leaves out is to be parked. -/
def parkedPeg (m : List Nat) (p : Nat × Peg) : Nat × Peg :=
  if p.1 % 8 = 0 ∧ (p.2.state = 1 ∨ (p.2.state = 2 ∧ 0 < p.2.steps)) ∧ (!(m.take 16).contains (p.1 / 8)) = true then
    (p.1, { p.2 with state := 4 }) else p

theorem parkedPeg_key (m : List Nat) (p : Nat × Peg) : (parkedPeg m p).1 = p.1 := by
  unfold parkedPeg; split <;> rfl

theorem parkedPeg_state (m : List Nat) (p : Nat × Peg) : (parkedPeg m p).2 = { p.2 with state := (parkedPeg m p).2.state } ∧
    ((parkedPeg m p).2.state ≠ p.2.state → p.1 % 8 = 0 ∧ p.1 / 8 ∉ m.take 16 ∧ (parkedPeg m p).2.state = 4) := by
  unfold parkedPeg
  split
  · next h =>
    obtain ⟨h8, -, hm⟩ := h
    refine ⟨rfl, fun _ => ⟨h8, ?_, rfl⟩⟩
    rw [Bool.not_eq_true', ← Bool.not_eq_true, List.contains_iff_mem] at hm
    exact hm
  · exact ⟨rfl, fun h => absurd rfl h⟩

theorem parkedPegs_peg (m : List Nat) (t : Tab Peg) (line ring : Nat) (hr : ring < 8) :
    tget ({} : Peg) (pegKey line ring) (t.map (parkedPeg m)) = { tget ({} : Peg) (pegKey line ring) t with
      state := (tget ({} : Peg) (pegKey line ring) (t.map (parkedPeg m))).state } ∧
      ((tget ({} : Peg) (pegKey line ring) (t.map (parkedPeg m))).state ≠ (tget ({} : Peg) (pegKey line ring) t).state →
        ring = 0 ∧ line ∉ m.take 16 ∧ (tget ({} : Peg) (pegKey line ring) (t.map (parkedPeg m))).state = 4) := by
  have hmod : pegKey line ring % 8 = ring := by unfold pegKey; omega
  have hdiv : pegKey line ring / 8 = line := by unfold pegKey; omega
  rcases tget_map_entry ({} : Peg) (pegKey line ring) (parkedPeg m) (parkedPeg_key m) t with ⟨h1, h2⟩ | h
  · rw [h1, h2]
    exact ⟨rfl, fun h => absurd rfl h⟩
  · have hp := parkedPeg_state m (pegKey line ring, tget ({} : Peg) (pegKey line ring) t)
    rw [h]
    rw [hmod, hdiv] at hp
    exact hp

theorem laneMapEffect_due {n : StringId} {at_ : Nat} {m : List Nat} {s : State} (hm : (s.str n.val).newMap = some (at_, m))
    (ha : (s.str n.val).announced = true) (hd : ((s.str n.val).count.toNat + 65536 - at_) % 65536 < 32768) :
    exec (.laneMapEffect n) s = .next (traceMake (stringEnds n.val).1 n.val 0x06
      (leBytes 2 n.val ++ leBytes 2 at_ ++ m.map (fun l => BitVec.ofNat 8 l)) (s.setStr n.val { s.str n.val with
        map := m, newMap := none, announced := false, pegs := (s.str n.val).pegs.map (parkedPeg m) })) := by
  have hgo : ¬ ((!(s.str n.val).announced) = true ∨ 32768 ≤ ((s.str n.val).count.toNat + 65536 - at_) % 65536) := by
    rw [ha]; simp only [Bool.not_true, Bool.false_eq_true, false_or]; omega
  show execLaneMapEffect n s = _
  simp only [execLaneMapEffect, hm]
  rw [if_neg hgo]
  rfl

/-! ### Echoes -/

theorem noteLatency_eq (n ps : Nat) (s : State) :
    (noteLatency n ps s).strings = (s.setStr n { s.str n with latency := min ps 35000 }).strings ∧
      noteLatency n ps s = { s with
        strings := (noteLatency n ps s).strings, sched := { s.sched with latency := (noteLatency n ps s).sched.latency } } := by
  unfold noteLatency
  dsimp only
  split
  · split
    · exact ⟨rfl, rfl⟩
    · exact ⟨rfl, rfl⟩
  · exact ⟨rfl, rfl⟩

/-- Settles O23. -/
theorem linkTraining : Obligations.LinkTraining := by
  refine ⟨?_, ?_, ?_, ?_, ?_, ?_, ?_, ?_, ?_, ?_, ?_, ?_, ?_, ?_, ?_, ?_, ?_, ?_, ?_, ?_, ?_⟩
  · exact fun n f u s h => ⟨u, by show execTrainOffer n f s = _; simp only [execTrainOffer, h], rfl⟩
  · intro n f p u s h hno
    have hgo : (!pairTraining u n.val) = true ∨ leAt p 2 2 ≠ n.val := by
      rw [Bool.not_eq_true', ← Bool.not_eq_true]; exact not_and_or.1 hno
    exact ⟨u, by show execTrainOffer n f s = _; simp only [execTrainOffer, h]; rw [if_pos hgo], rfl⟩
  · intro n f p u s h ht hn h0
    have hgo : ¬ ((!pairTraining u n.val) = true ∨ leAt p 2 2 ≠ n.val) := by simp [ht, hn]
    exact ⟨_, by show execTrainOffer n f s = _; simp only [execTrainOffer, h]; rw [if_neg hgo, if_pos h0], rfl⟩
  · intro n f p u s h ht hn h0
    have hgo : ¬ ((!pairTraining u n.val) = true ∨ leAt p 2 2 ≠ n.val) := by simp [ht, hn]
    exact ⟨_, by show execTrainOffer n f s = _; simp only [execTrainOffer, h]; rw [if_neg hgo, if_neg h0], rfl⟩
  · intro n p s h6
    rw [noteCredits_training h6, State.str_setStr]
    dsimp only
    obtain ⟨h0, h1, h3, hk, hr⟩ := tget_offeredCredits p (s.str n).granted
    exact ⟨h0, h1, h3, hk, hr, fun m hm => State.str_setStr_other _ _ hm⟩
  · intro n p s h
    exact noteCredits_other h
  · exact fun n f u s h => ⟨u, by show execTrainAccept n f s = _; simp only [execTrainAccept, h], rfl⟩
  · intro n f p u s h hno
    have hgo : (!pairTraining u n.val) = true ∨ leAt p 2 2 ≠ n.val ∨ leAt p 1 1 ≠ 1 := by
      rw [Bool.not_eq_true', ← Bool.not_eq_true, ne_eq, ne_eq, ← not_and_or, ← not_and_or]; exact hno
    exact ⟨u, by show execTrainAccept n f s = _; simp only [execTrainAccept, h]; rw [if_pos hgo], rfl⟩
  · intro n f p u v s h ht hn h1 hv hb
    have hgo : ¬ ((!pairTraining u n.val) = true ∨ leAt p 2 2 ≠ n.val ∨ leAt p 1 1 ≠ 1) := by simp [ht, hn, h1]
    exact ⟨_, by show execTrainAccept n f s = _; simp only [execTrainAccept, h]; rw [if_neg hgo, ← hv, if_neg (by rw [hb]; decide)], rfl⟩
  · intro n f p u v s h ht hn h1 hv hb
    have hgo : ¬ ((!pairTraining u n.val) = true ∨ leAt p 2 2 ≠ n.val ∨ leAt p 1 1 ≠ 1) := by simp [ht, hn, h1]
    exact ⟨_, by show execTrainAccept n f s = _; simp only [execTrainAccept, h]; rw [if_neg hgo, ← hv, if_pos hb], rfl⟩
  · intro n s h6 hu
    obtain ⟨hst, ⟨h1, h2, h3, h4, h5, h7, h8, h9, h10, h11⟩, hother⟩ := trainDone_fresh h6 hu
    exact ⟨hst, h1, h2, h3, h4, h5, h7, h8, h9, h10, h11, hother⟩
  · exact fun n f u s h => ⟨u, by show execLaneMap n f s = _; simp only [execLaneMap, h], rfl⟩
  · exact fun n f p u s h hm => ⟨_, by show execLaneMap n f s = _; simp only [execLaneMap, h]; rw [if_neg hm], rfl⟩
  · exact fun n f p u s h hm => ⟨u, by show execLaneMap n f s = _; simp only [execLaneMap, h]; rw [if_pos hm], rfl⟩
  · intro n at_ m s hm ha hd
    refine ⟨_, laneMapEffect_due hm ha hd, ?_⟩
    generalize hx : ({ s.str n.val with
      map := m, newMap := none, announced := false
      pegs := (s.str n.val).pegs.map (parkedPeg m) } : Str) = x
    have hk := traceMake_keeps (stringEnds n.val).1 n.val 0x06 (leBytes 2 n.val ++ leBytes 2 at_ ++ m.map (fun l => BitVec.ofNat 8 l))
      (s.setStr n.val x)
    have hu := traceMake_untouched (stringEnds n.val).1 n.val 0x06
      (leBytes 2 n.val ++ leBytes 2 at_ ++ m.map (fun l => BitVec.ofNat 8 l)) (s.setStr n.val x)
    generalize traceMake _ _ _ _ (s.setStr n.val x) = t at *
    have hn : t.str n.val = x := by rw [State.str, hk.strings rfl]; exact State.str_setStr ..
    rw [hn]
    refine ⟨by rw [← hx], fun line ring hr => ?_, fun line ring hr => ?_, fun k hk' => hu k hk', fun k hkn => ?_, ?_⟩
    · rw [← hx]; exact (parkedPegs_peg m (s.str n.val).pegs line ring hr).1
    · rw [← hx]; exact (parkedPegs_peg m (s.str n.val).pegs line ring hr).2
    · rw [State.str, hk.strings rfl]; exact State.str_setStr_other _ _ hkn
    · exact (Keeps.tr (m := 68719477762) (State_setStr_keeps_k (by decide) (Keeps.refl _ s)) (hk.mono (by decide))).eq
  · intro n s h
    refine ⟨s, ?_, rfl⟩
    show execLaneMapEffect n s = _
    unfold execLaneMapEffect
    cases hm : (s.str n.val).newMap with
    | none => simp only [hm]
    | some x =>
      obtain ⟨at_, m⟩ := x
      simp only [hm]
      refine if_pos ?_
      rw [Bool.not_eq_true']
      rcases h with h | h | ⟨y, hy, hd⟩
      · rw [hm] at h; cases h
      · exact .inl h
      · rw [hm] at hy
        rw [← Option.some.inj hy] at hd
        exact .inr hd
  · exact fun n f u s h => ⟨u, by show execRelayCredits n f s = _; simp only [execRelayCredits, h], rfl⟩
  · intro n f p u s h
    obtain ⟨hmoved, hsame, hstr, hother⟩ := relaysMoved_spec (reverseString n.val) (leAt p 1 48) 64 u (le_refl _)
    refine ⟨relaysMoved (reverseString n.val) (leAt p 1 48) 64 u, by
      show execRelayCredits n f s = _; simp only [execRelayCredits, h]; rfl, fun c hc hle => ?_, hsame, hstr, hother, ?_⟩
    · rw [hmoved c hc]
      exact relayMoved_spec (bitsAt_lt ..) hle
    · exact (Keeps.foldl (m := 1024) (Keeps.refl _ u) fun v c hv => creditTo_keeps_k (by decide) hv).eq
  · exact fun n f u s h => ⟨u, by show execEcho n f s = _; simp only [execEcho, h], rfl⟩
  · intro n f p u s h ho
    refine ⟨_, ?_, rfl⟩
    show execEcho n f s = _
    simp only [execEcho, h]
    rw [if_neg]
    rcases ho with ho | ho
    · rw [ho]; simp
    · simp [ho]
  · intro n f p u s h ho hm
    refine ⟨noteLatency (reverseString n.val) ((u.beat - leAt p 1 8) * 500) (u.setStr (reverseString n.val)
      { u.str (reverseString n.val) with echo := none }), ?_, ?_⟩
    · show execEcho n f s = _
      simp only [execEcho, h]
      rw [if_pos (by rw [ho, hm]; simp)]
    · obtain ⟨hstr, heq⟩ := noteLatency_eq (reverseString n.val) ((u.beat - leAt p 1 8) * 500) (u.setStr (reverseString n.val)
        { u.str (reverseString n.val) with echo := none })
      refine ⟨?_, fun k hk => ?_, heq⟩
      · rw [State.str, hstr]
        exact (State.str_setStr ..).trans (by rw [State.str_setStr])
      · rw [State.str, hstr]
        exact (State.str_setStr_other _ _ hk).trans (State.str_setStr_other _ _ hk)

end Sys2Proof.Machine

end

section
/-! PROOFS. The counter of uncorrectable words of die-shared SRAM has 64 bits, and a clause of O20 has it count modulo 2^32. -/

namespace Sys2Proof.Machine

/-- The counter of uncorrectable words stands at the highest value of 32 bits. -/
def wideSramCount : State := State.reset.setObj Obj.sramUncorrected (2 ^ 32 - 1)

/-- Refutes O20: the first scrub pass of die 0, with one uncorrectable word, takes `sram_uncorrected` from 2^32 - 1 to 2^32,
which the clause has begin anew at 0. -/
theorem not_arbitersAndResets : ¬ Obligations.ArbitersAndResets := by
  unfold Obligations.ArbitersAndResets
  intro h
  obtain ⟨-, -, -, -, -, -, -, -, -, -, -, -, hbad, -⟩ := h
  obtain ⟨t, ht, -, -, -, ⟨hcount, -⟩, -⟩ := hbad 0 dieSramBase wideSramCount (by decide +kernel) (by decide +kernel)
    (by decide +kernel)
  have hnext : (match exec (.scrubPass 0 [(dieSramBase, 2)]) wideSramCount with
      | .next u => u.obj Obj.sramUncorrected
      | _ => 0) = 2 ^ 32 := by
    decide +kernel
  rw [ht] at hnext
  have hzero : (wideSramCount.obj Obj.sramUncorrected + 1) % 2 ^ 32 = 0 := by
    decide +kernel
  exact absurd (hnext.symm.trans (hcount.trans hzero)) (by decide)

end Sys2Proof.Machine
end

section
/-! PROOFS. The counter of retrains has 64 bits, and a clause of O24 has it count modulo 2^32. -/

namespace Sys2Proof.Machine

/-- The counter of retrains stands at the highest value of 32 bits. -/
def wideRetrains : State := State.reset.setObj Obj.retrains (2 ^ 32 - 1)

/-- Refutes O24: a retrain of string 0 takes `retrains` from 2^32 - 1 to 2^32, which the clause has begin anew at 0. -/
theorem not_linkRecovery : ¬ Obligations.LinkRecovery := by
  unfold Obligations.LinkRecovery
  intro h
  obtain ⟨-, -, -, hretrain, -⟩ := h
  obtain ⟨-, -, ⟨hcount, -⟩, -⟩ := hretrain 0 wideRetrains (by decide +kernel)
  have hnext : (retrain 0 wideRetrains).obj Obj.retrains = 2 ^ 32 := by
    decide +kernel
  have hzero : (wideRetrains.obj Obj.retrains + 1) % 2 ^ 32 = 0 := by
    decide +kernel
  exact absurd (hnext.symm.trans (hcount.trans hzero)) (by decide)

end Sys2Proof.Machine
end

section
/-! PROOFS. What the operations on a string leave of it and of the objects: a change of state, a line that drops out or comes
back, a retrain (O25 to O28). -/

namespace Sys2Proof.Machine

/-! ### Folds -/

/-- A projection that each step of a fold keeps is kept by the fold. -/
theorem foldl_kept {α σ β : Type} {p : σ → β} {g : σ → α → σ} (hg : ∀ s a, p (g s a) = p s) (l : List α) (s : σ) :
    p (l.foldl g s) = p s := by
  induction l generalizing s with
  | nil => rfl
  | cons a l ih => exact (ih _).trans (hg s a)

theorem foldl_untouched {α : Type} {l : List Nat} {g : State → α → State} (hg : ∀ s a, Untouched l s (g s a)) (r : List α)
    (s : State) : Untouched l s (r.foldl g s) :=
  fun k hk => foldl_kept (p := fun s : State => s.obj k) (fun s a => hg s a k hk) r s

theorem Untouched.of_od {l : List Nat} {s t : State} (h : t.od = s.od) : Untouched l s t := fun k _ => State.obj_of_od h k

theorem State.str_of_strings {s t : State} (h : t.strings = s.strings) (j : Nat) : t.str j = s.str j := by
  rw [State.str, State.str, h]

/-! ### Frames that do not arrive -/

theorem pathLost_untouched (ch : Option (Nat × Nat)) (s : State) : Untouched [Obj.pathLostTransfers] s (pathLost ch s) := by
  intro k hk
  unfold pathLost
  cases ch with
  | none => exact count_untouched _ _ s k hk
  | some x =>
    refine (State.obj_of_od ?_ k).trans (count_untouched _ 1 s k hk)
    refine ((chanFrameDone_keeps ..).od rfl).trans ?_
    split
    · exact (opFail_keeps ..).od rfl
    · rfl

theorem frameLost_untouched (f : TxFrame) (s : State) : Untouched [Obj.pathLostTransfers] s (frameLost f s) := by
  have h := pathLost_untouched f.chan s
  have hr (site tag status : Nat) : Untouched [Obj.pathLostTransfers] s (readEnds site tag status (pathLost f.chan s)) :=
    h.trans (.of_od ((readEnds_keeps ..).od rfl)) fun _ hx => hx
  unfold frameLost
  dsimp only
  split
  · exact hr _ _ _
  · split
    · cases landingTag (pathLost f.chan s) (hDest f.hdr) (64 * hUnit f.hdr + hOffset f.hdr) with
      | none => exact h
      | some t => exact hr _ _ _
    · split
      · exact hr _ _ _
      · exact h

/-! ### A string without its sender's queues -/

/-- A string but for what its sender holds to send. -/
def Str.fixed (t : Str) : Str := { t with unacked := [], resend := [], swap := [], txq := [], timeouts := 0, enq := 0 }

theorem fixed_setStr {s : State} {n : Nat} {d : Str} (h : d.fixed = (s.str n).fixed) (j : Nat) :
    ((s.setStr n d).str j).fixed = (s.str j).fixed := by
  by_cases hj : j = n
  · rw [hj, State.str_setStr, h]
  · rw [State.str_setStr_other _ _ hj]

theorem enqueueFrame_fixed (n : Nat) (f : TxFrame) (s : State) (j : Nat) :
    ((enqueueFrame n f s).str j).fixed = (s.str j).fixed := by
  refine fixed_setStr ?_ j
  rfl

theorem clearTx_fixed (n : Nat) (s : State) (j : Nat) : ((clearTx n s).str j).fixed = (s.str j).fixed := by
  refine fixed_setStr ?_ j
  rfl


theorem replayOver_fixed (n : Nat) (s : State) (j : Nat) : ((replayOver n s).str j).fixed = (s.str j).fixed := by
  unfold replayOver
  refine (foldl_kept (p := fun s : State => (s.str j).fixed) (fun s f => ?_) _ _).trans
    ((foldl_kept (p := fun s : State => (s.str j).fixed) (fun s x => ?_) _ _).trans (clearTx_fixed n s j))
  · have hl := congrArg Str.fixed (State.str_of_strings ((frameLost_keeps f s).strings rfl) j)
    dsimp only
    split
    · exact hl
    · split
      · exact hl
      · exact enqueueFrame_fixed _ _ s j
  · obtain ⟨q, f⟩ := x
    cases f.chan with
    | none => rfl
    | some c => exact congrArg Str.fixed (State.str_of_strings ((chanFrameDone_keeps ..).strings rfl) j)

theorem replayOver_untouched (n : Nat) (s : State) : Untouched [Obj.pathLostTransfers] s (replayOver n s) := by
  unfold replayOver
  refine Untouched.trans (l := [Obj.pathLostTransfers]) ?_ (foldl_untouched (fun s f => ?_) _ _) fun _ h => h
  · refine Untouched.trans (.of_od ((clearTx_keeps n s).od rfl)) (foldl_untouched (fun s x => ?_) _ _) fun _ h => h
    obtain ⟨q, f⟩ := x
    cases f.chan with
    | none => exact Untouched.refl _ s
    | some c => exact .of_od ((chanFrameDone_keeps ..).od rfl)
  · dsimp only
    split
    · exact frameLost_untouched f s
    · split
      · exact frameLost_untouched f s
      · exact .of_od ((enqueueFrame_keeps ..).od rfl)

/-! ### A change of a string's state -/

/-- A string as it enters a state at a beat. -/
def Str.entered (t : Str) (new beat : Nat) : Str :=
  { t with
    state := new, frozenAt := if new = 4 then some beat else none
    resetAt := if new = 4 ∨ new = 6 then t.resetAt else none
    checked := if new = 3 ∨ new = 5 then beat else t.checked }

/-- A string enters a state other than DOWN: its record, its trace record, the windows over it, and the frames of a string that
falls out. -/
def stringEnters (n new : Nat) (s : State) : State :=
  (if new = 3 ∨ new = 4 ∨ new = 5 then s.wins.filter (fun w => w.phase = 2 && windowOver s w [n]) else []).foldl
    (fun s w => endWindow w.id exitPATHLOST s)
    (traceMake (stringEnds n).1 n 0x05 (leBytes 2 n ++ leBytes 1 (s.str n).state ++ leBytes 1 new)
      (s.setStr n ((s.str n).entered new s.beat)))

theorem enterString_self {n new : Nat} {s : State} (h : (s.str n).state = new) : enterString n new s = s := if_pos h

theorem enterString_eq {n new : Nat} {s : State} (h5 : new ≠ 5) (h : (s.str n).state ≠ new) :
    enterString n new s = if new = 3 then replayOver n (stringEnters n new s) else stringEnters n new s := by
  unfold enterString
  refine (if_neg h).trans ?_
  simp only [if_neg h5]
  rfl

theorem stringEnters_strings (n new : Nat) (s : State) :
    (stringEnters n new s).strings = (s.setStr n ((s.str n).entered new s.beat)).strings :=
  (foldl_kept (p := State.strings) (fun s w => (endWindow_keeps ..).strings rfl) _ _).trans ((traceMake_keeps ..).strings rfl)

theorem stringEnters_untouched (n new : Nat) (s : State) : Untouched logCounters s (stringEnters n new s) := by
  refine Untouched.trans (l := logCounters) ?_ (foldl_untouched (fun s w => .of_od ((endWindow_keeps ..).od rfl)) _ _)
    fun _ h => h
  exact Untouched.trans (l := []) (.of_od rfl) (traceMake_untouched _ _ _ _ _) (by simp)

/-- What a string may touch beside itself as it enters a state: windows and cores, tags and accesses, the trace. -/
theorem enterString_kept {n new : Nat} {s : State} (h5 : new ≠ 5) : Keeps 68720534642 s (enterString n new s) := by
  by_cases h : (s.str n).state = new
  · rw [enterString_self h]
    exact Keeps.refl _ s
  · rw [enterString_eq h5 h]
    have hs : Keeps 68720534642 s (stringEnters n new s) := by
      refine Keeps.foldl ?_ fun x w hx => endWindow_keeps_k (by decide) hx
      exact traceMake_keeps_k (by decide) (State_setStr_keeps_k (by decide) (Keeps.refl _ s))
    split
    · exact replayOver_keeps_k (by decide) hs
    · exact hs

theorem enterString_fixed {n new : Nat} {s : State} (h5 : new ≠ 5) (h : (s.str n).state ≠ new) (j : Nat) :
    ((enterString n new s).str j).fixed = ((s.setStr n ((s.str n).entered new s.beat)).str j).fixed := by
  have hs := congrArg Str.fixed (State.str_of_strings (stringEnters_strings n new s) j)
  rw [enterString_eq h5 h]
  split
  · exact (replayOver_fixed ..).trans hs
  · exact hs

theorem enterString_untouched {n new : Nat} {s : State} (h5 : new ≠ 5) :
    Untouched (Obj.pathLostTransfers :: logCounters) s (enterString n new s) := by
  by_cases h : (s.str n).state = new
  · rw [enterString_self h]
    exact Untouched.refl _ s
  · rw [enterString_eq h5 h]
    have hs : Untouched (Obj.pathLostTransfers :: logCounters) s (stringEnters n new s) :=
      (stringEnters_untouched n new s).mono fun _ h => List.mem_cons_of_mem _ h
    split
    · exact hs.trans ((replayOver_untouched n _).mono (by simp)) fun _ h => h
    · exact hs

/-- A string as far as no change of state touches it. -/
def Str.body (t : Str) : Str := { t.fixed with state := 0, frozenAt := none, resetAt := none, checked := 0 }

theorem body_of_fixed {t u : Str} (h : t.fixed = u.fixed) : t.body = u.body :=
  congrArg (fun x : Str => { x with state := 0, frozenAt := none, resetAt := none, checked := 0 }) h

theorem body_setStr {s : State} {n : Nat} {d : Str} (h : d.body = (s.str n).body) (j : Nat) :
    ((s.setStr n d).str j).body = (s.str j).body := by
  by_cases hj : j = n
  · rw [hj, State.str_setStr, h]
  · rw [State.str_setStr_other _ _ hj]

theorem enterString_body {n new : Nat} {s : State} (h5 : new ≠ 5) (j : Nat) :
    ((enterString n new s).str j).body = (s.str j).body := by
  by_cases h : (s.str n).state = new
  · rw [enterString_self h]
  · refine (body_of_fixed (enterString_fixed h5 h j)).trans (body_setStr ?_ j)
    rfl

theorem enterString_state {n new : Nat} {s : State} (h5 : new ≠ 5) : ((enterString n new s).str n).state = new := by
  by_cases h : (s.str n).state = new
  · rw [enterString_self h]; exact h
  · have hf := congrArg Str.state (enterString_fixed h5 h n)
    rw [State.str_setStr] at hf
    exact hf

theorem enterString_state_other {n new j : Nat} {s : State} (h5 : new ≠ 5) (hj : j ≠ n) :
    ((enterString n new s).str j).state = (s.str j).state := by
  by_cases h : (s.str n).state = new
  · rw [enterString_self h]
  · have hf := congrArg Str.state (enterString_fixed h5 h j)
    rw [State.str_setStr_other _ _ hj] at hf
    exact hf

theorem stateOf_le (u : Nat) : stateOf u ≤ 3 := by
  unfold stateOf
  split
  · decide
  · split
    · decide
    · split <;> decide

/-! ### Training begins -/

/-- A string that begins to train as it stands before it enters that state. -/
def Str.retraining (t : Str) : Str := { t with map := freshMap (usableLines t), newMap := none, waiting := t.state == 3 }

/-- A string that has neither had nor sent an offer's answer. -/
def Str.unasked (t : Str) : Str := { t with offerGot := false, acceptSent := false, acceptGot := false }

theorem startTraining_eq (n : Nat) (s : State) :
    startTraining n s = (fun u : State => (u.setStr n (u.str n).unasked).setStr (reverseString n)
      ((u.setStr n (u.str n).unasked).str (reverseString n)).unasked)
      (enterString n 6 (s.setStr n (s.str n).retraining)) := rfl

/-- What is kept by every string: its lines, rings, latency, hold and turn. -/
def Str.plant (t : Str) : Tab Lane × Tab Peg × Nat × Bool × Option Nat × Option Nat :=
  (t.lanes, t.pegs, t.latency, t.held, t.turn, t.rotate)

theorem plant_of_body {t u : Str} (h : t.body = u.body) : t.plant = u.plant := (congrArg Str.plant h : t.body.plant = u.body.plant)

theorem plant_setStr {s : State} {n : Nat} {d : Str} (h : d.plant = (s.str n).plant) (j : Nat) :
    ((s.setStr n d).str j).plant = (s.str j).plant := by
  by_cases hj : j = n
  · rw [hj, State.str_setStr, h]
  · rw [State.str_setStr_other _ _ hj]

theorem startTraining_plant (n : Nat) (s : State) (j : Nat) : ((startTraining n s).str j).plant = (s.str j).plant := by
  rw [startTraining_eq]
  refine (plant_setStr ?_ j).trans ((plant_setStr ?_ j).trans
    ((plant_of_body (enterString_body (by decide) j)).trans (plant_setStr ?_ j))) <;> rfl

theorem startTraining_kept (n : Nat) (s : State) : Keeps 68720534642 s (startTraining n s) := by
  rw [startTraining_eq]
  refine State_setStr_keeps_k (by decide) (State_setStr_keeps_k (by decide) ?_)
  exact (State_setStr_keeps_k (m := 68720534642) (by decide) (Keeps.refl _ s)).tr (enterString_kept (by decide))

theorem startTraining_untouched (n : Nat) (s : State) :
    Untouched (Obj.pathLostTransfers :: logCounters) s (startTraining n s) := by
  rw [startTraining_eq]
  exact Untouched.trans (l := []) (.of_od rfl) (enterString_untouched (by decide)) (by simp)

theorem afterLaneCheck_plant (n : Nat) (s : State) (j : Nat) : ((afterLaneCheck n s).str j).plant = (s.str j).plant := by
  unfold afterLaneCheck
  split
  · exact startTraining_plant n s j
  · exact plant_of_body (enterString_body (by decide) j)

theorem afterLaneCheck_kept (n : Nat) (s : State) : Keeps 68720534642 s (afterLaneCheck n s) := by
  unfold afterLaneCheck
  split
  · exact startTraining_kept n s
  · exact enterString_kept (by decide)

theorem afterLaneCheck_untouched (n : Nat) (s : State) :
    Untouched (Obj.pathLostTransfers :: logCounters) s (afterLaneCheck n s) := by
  unfold afterLaneCheck
  split
  · exact startTraining_untouched n s
  · exact enterString_untouched (by decide)

/-! ### A line that drops out -/

theorem settleString_plant (n : Nat) (s : State) (j : Nat) : ((settleString n s).str j).plant = (s.str j).plant := by
  unfold settleString
  split
  · exact plant_of_body (enterString_body (ne_of_lt (Nat.lt_of_le_of_lt (stateOf_le _) (by decide))) j)
  · rfl

theorem settleString_kept (n : Nat) (s : State) : Keeps 68720534642 s (settleString n s) := by
  unfold settleString
  split
  · exact enterString_kept (ne_of_lt (Nat.lt_of_le_of_lt (stateOf_le _) (by decide)))
  · exact Keeps.refl _ s

theorem settleString_untouched (n : Nat) (s : State) :
    Untouched (Obj.pathLostTransfers :: logCounters) s (settleString n s) := by
  unfold settleString
  split
  · exact enterString_untouched (ne_of_lt (Nat.lt_of_le_of_lt (stateOf_le _) (by decide)))
  · exact Untouched.refl _ s

theorem announceMap_plant (n : Nat) (map : List Nat) (r : Bool) (s : State) (j : Nat) :
    ((announceMap n map r s).str j).plant = (s.str j).plant := by
  unfold announceMap
  dsimp only
  split
  · refine plant_setStr ?_ j
    rfl
  · refine (plant_setStr ?_ j).trans (plant_setStr ?_ j) <;> rfl

/-- A string whose line drops out: unusable, with the lane it had, and its turn is over. -/
def Str.dropped (t : Str) (line : Nat) : Str :=
  { t with
    lanes := tset line { tget {} line t.lanes with usable := false, lane := (indexIn line (mapAhead t)).filter (· < 16) } t.lanes
    turn := none, rotate := none }

/-- The map that a string whose line has dropped out announces, where the line was counted. -/
def dropAnnounces (n line : Nat) (r : Bool) (t : Str) (s : State) : State :=
  let u := if ((indexIn line (mapAhead t)).filter (· < 16)).isSome then s.count Obj.laneMapouts 1 else s
  if (t.dropped line).state ≤ 2 ∨ isBus n then
    announceMap n (remap (mapAhead t) (usableLines (t.dropped line))) r u
  else u

theorem dropLine_eq (n line : Nat) (r : Bool) (s : State) :
    dropLine n line r s = if (tget {} line (s.str n).lanes).usable then
      settleString n (dropAnnounces n line r (s.str n) (s.setStr n ((s.str n).dropped line)))
    else s.setStr n ((s.str n).dropped line) := by
  unfold dropLine
  by_cases h : (tget {} line (s.str n).lanes).usable = true
  · rw [if_pos h]
    exact if_neg (by simpa using h)
  · rw [if_neg h]
    exact if_pos (by simpa using h)

theorem dropAnnounces_plant (n line : Nat) (r : Bool) (t : Str) (s : State) (j : Nat) :
    ((dropAnnounces n line r t s).str j).plant = (s.str j).plant := by
  have hc : (if ((indexIn line (mapAhead t)).filter (· < 16)).isSome then s.count Obj.laneMapouts 1 else s).strings =
      s.strings := by
    split <;> rfl
  unfold dropAnnounces
  dsimp only
  split
  · exact (announceMap_plant ..).trans (congrArg Str.plant (State.str_of_strings hc j))
  · exact congrArg Str.plant (State.str_of_strings hc j)

theorem dropAnnounces_untouched (n line : Nat) (r : Bool) (t : Str) (s : State) :
    Untouched [Obj.laneMapouts] s (dropAnnounces n line r t s) := by
  have hc : Untouched [Obj.laneMapouts] s
      (if ((indexIn line (mapAhead t)).filter (· < 16)).isSome then s.count Obj.laneMapouts 1 else s) := by
    split
    · exact count_untouched _ _ s
    · exact Untouched.refl _ s
  unfold dropAnnounces
  dsimp only
  split
  · exact hc.trans (.of_od ((announceMap_keeps ..).od rfl)) fun _ h => h
  · exact hc

theorem dropAnnounces_kept {m : Nat} (n line : Nat) (r : Bool) (t : Str) {s u : State} (e : 1026 ||| m = m) (h : Keeps m s u) :
    Keeps m s (dropAnnounces n line r t u) := by
  refine h.tr (Keeps.mono ?_ e)
  unfold dropAnnounces
  dsimp only
  have hc : Keeps 1026 u (if ((indexIn line (mapAhead t)).filter (· < 16)).isSome then u.count Obj.laneMapouts 1 else u) := by
    split
    · exact State_count_keeps_k (by decide) (Keeps.refl _ u)
    · exact Keeps.refl _ u
  split
  · exact announceMap_keeps_k (by decide) hc
  · exact hc

theorem dropLine_plant (n line : Nat) (r : Bool) (s : State) (j : Nat) :
    ((dropLine n line r s).str j).plant = ((s.setStr n ((s.str n).dropped line)).str j).plant := by
  rw [dropLine_eq]
  split
  · exact (settleString_plant ..).trans (dropAnnounces_plant ..)
  · rfl

theorem dropLine_untouched (n line : Nat) (r : Bool) (s : State) :
    Untouched (Obj.laneMapouts :: Obj.pathLostTransfers :: logCounters) s (dropLine n line r s) := by
  rw [dropLine_eq]
  split
  · refine Untouched.trans (l := [Obj.laneMapouts]) ?_ ((settleString_untouched n _).mono fun _ h => List.mem_cons_of_mem _ h)
      (by simp)
    exact Untouched.trans (l := []) (.of_od rfl) (dropAnnounces_untouched _ _ _ _ _) (by simp)
  · exact .of_od rfl

theorem dropLine_kept (n line : Nat) (r : Bool) (s : State) : Keeps 68720534642 s (dropLine n line r s) := by
  have h0 : Keeps 68720534642 s (s.setStr n ((s.str n).dropped line)) :=
    State_setStr_keeps_k (by decide) (Keeps.refl _ s)
  rw [dropLine_eq]
  split
  · exact (dropAnnounces_kept n line r (s.str n) (by decide) h0).tr (settleString_kept n _)
  · exact h0

/-- The line that has dropped out is unusable and keeps its measurements. -/
theorem dropLine_lane (n line : Nat) (r : Bool) (s : State) :
    ∃ j, tget {} line ((dropLine n line r s).str n).lanes =
      { tget {} line (s.str n).lanes with usable := false, lane := j } := by
  have h := congrArg Prod.fst (dropLine_plant n line r s n)
  rw [State.str_setStr] at h
  refine ⟨(indexIn line (mapAhead (s.str n))).filter (· < 16), ?_⟩
  exact (congrArg (tget {} line) h).trans (tget_tset_same ..)

theorem dropLine_pegs (n line : Nat) (r : Bool) (s : State) (j : Nat) :
    ((dropLine n line r s).str j).pegs = (s.str j).pegs := by
  have h := congrArg (fun x => x.2.1) (dropLine_plant n line r s j)
  refine h.trans ?_
  by_cases hj : j = n
  · rw [hj, State.str_setStr]; rfl
  · rw [State.str_setStr_other _ _ hj]; rfl

theorem dropLine_turn (n line : Nat) (r : Bool) (s : State) : ((dropLine n line r s).str n).turn = none := by
  have h := congrArg (fun x => x.2.2.2.2.1) (dropLine_plant n line r s n)
  rw [State.str_setStr] at h
  exact h

end Sys2Proof.Machine
end

section
/-! PROOFS. Margin tests, margin estimates and broadcast buses (O25). -/

namespace Sys2Proof.Machine

/-! ### A margin test that ends -/

/-- The measurements of a test in its strings, with their latencies. -/
def testMeasured (lanes : List LaneMeas) (s : State) : State :=
  lanes.foldl (fun s m => noteLatency m.string m.latency s) (lanes.foldl measureLane s)

/-- The tested strings go on: one to its training or out, a bus to a fresh map. -/
def testSettled (ns : List Nat) (s : State) : State :=
  (ns.filter isBus).foldl (fun s n => s.setStr n { s.str n with map := freshMap (usableLines (s.str n)) })
    ((ns.filter (fun n => !isBus n)).foldl (fun s n => afterLaneCheck n (s.setStr n { s.str n with measure := true })) s)

/-- The lines of little margin, counted and logged, and the references of the domains. -/
def testWarned (weak : List LaneMeas) (s : State) : State :=
  (List.range 8).foldl (fun s d => setReference d s)
    (weak.foldl (fun s m => logEvent Obj.lanesWarning 1 0 (stringEnds m.string).2 m.string (leBytes 1 m.line) s)
      (s.setObj Obj.lanesWarning weak.length))

/-- The result of a commissioning test or of the first test. -/
def testResult (ns : List Nat) (s : State) : State :=
  if s.dev.marginRun = 2 ∨ s.obj Obj.commissionResult = 0 then
    (s.setObj Obj.commissionResult (if (serviceMargins s ns).all (fun m => 300 ≤ m) then 1 else 2)).setObjI
      Obj.commissionWorstMargin (listMin 0 (serviceMargins s ns))
  else s

def inRange (m : LaneMeas) : Bool := m.string < 1126 && m.line < 17
def isWeak (m : LaneMeas) : Bool := 100 ≤ m.margin && 20 ≤ m.eye && m.margin < 200

/-- The state before the result of a test is given. -/
def testBefore (lanes : List LaneMeas) (s : State) : State :=
  testWarned ((lanes.filter inRange).filter isWeak)
    (testSettled ((lanes.filter inRange).map (·.string)).eraseDups (testMeasured (lanes.filter inRange) s))

theorem marginTestDone_of {lanes : List LaneMeas} {s : State} (h : s.dev.marginRun = 1 ∨ s.dev.marginRun = 2) :
    execMarginTestDone lanes s = .next { testResult ((lanes.filter inRange).map (·.string)).eraseDups (testBefore lanes s) with
      dev := { (testResult ((lanes.filter inRange).map (·.string)).eraseDups (testBefore lanes s)).dev with marginRun := 0 } } := by
  refine if_neg ?_
  omega

theorem testMeasured_kept (lanes : List LaneMeas) (s : State) : Keeps 206159521138 s (testMeasured lanes s) :=
  Keeps.foldl (Keeps.foldl (Keeps.refl _ s) fun x m hx => measureLane_keeps_k (by decide) hx)
    fun x m hx => noteLatency_keeps_k (by decide) hx

theorem testSettled_kept {s u : State} (ns : List Nat) (h : Keeps 206159521138 s u) : Keeps 206159521138 s (testSettled ns u) := by
  refine Keeps.foldl (Keeps.foldl h fun x n hx => ?_) fun x n hx => State_setStr_keeps_k (by decide) hx
  exact (State_setStr_keeps_k (m := 206159521138) (by decide) hx).tr ((afterLaneCheck_kept n _).mono (by decide))

theorem testWarned_kept {s u : State} (weak : List LaneMeas) (h : Keeps 206159521138 s u) :
    Keeps 206159521138 s (testWarned weak u) := by
  refine Keeps.foldl (Keeps.foldl (State_setObj_keeps_k (by decide) h) fun x m hx => logEvent_keeps_k (by decide) hx)
    fun x d hx => setReference_keeps_k (by decide) hx

/-- A test leaves the device and all but these fields alone until its result is given. -/
theorem testBefore_kept (lanes : List LaneMeas) (s : State) : Keeps 206159521138 s (testBefore lanes s) :=
  testWarned_kept _ (testSettled_kept _ (testMeasured_kept _ s))

theorem testResult_kept {s u : State} (ns : List Nat) (h : Keeps 206159521138 s u) :
    Keeps 206159521138 s (testResult ns u) := by
  unfold testResult
  split
  · exact State_setObjI_keeps_k (by decide) (State_setObj_keeps_k (by decide) h)
  · exact h

theorem testSettled_untouched (ns : List Nat) (s : State) :
    Untouched (Obj.pathLostTransfers :: logCounters) s (testSettled ns s) := by
  unfold testSettled
  refine Untouched.trans (l := Obj.pathLostTransfers :: logCounters) (foldl_untouched (fun s n => ?_) _ _)
    (foldl_untouched (fun s n => ?_) _ _) fun _ h => h
  case refine_2 => exact .of_od rfl
  exact Untouched.trans (l := []) (.of_od rfl) (afterLaneCheck_untouched n _) (by simp)

/-- Of the objects a test writes before its result: the count of weak lines, the lost transfers, the log's. -/
theorem testBefore_obj (lanes : List LaneMeas) (s : State) :
    (testBefore lanes s).obj Obj.lanesWarning = ((lanes.filter inRange).filter isWeak).length % 2 ^ 64 ∧
      (testBefore lanes s).obj Obj.commissionResult = s.obj Obj.commissionResult := by
  have hw (weak : List LaneMeas) (u : State) : Untouched logCounters (u.setObj Obj.lanesWarning weak.length) (testWarned weak u) :=
    Untouched.trans (l := logCounters) (foldl_untouched (fun s m => logEvent_untouched _ _ _ _ _ _ s) _ _)
      (foldl_untouched (fun s d => .of_od ((setReference_keeps d s).od rfl)) _ _) fun _ h => h
  have hm : (testMeasured (lanes.filter inRange) s).od = s.od :=
    (foldl_kept (p := State.od) (fun s m => (noteLatency_keeps ..).od rfl) _ _).trans
      (foldl_kept (p := State.od) (fun s m => (measureLane_keeps ..).od rfl) _ _)
  constructor
  · exact (hw _ _ _ (by decide)).trans (State.obj_setObj ..)
  · refine (hw _ _ _ (by decide)).trans ((State.obj_setObj_other _ _ (by decide)).trans ?_)
    exact (testSettled_untouched _ _ _ (by decide)).trans (State.obj_of_od hm _)

theorem testBefore_dev (lanes : List LaneMeas) (s : State) : (testBefore lanes s).dev = s.dev :=
  (testBefore_kept lanes s).dev rfl

theorem testResult_obj {ns : List Nat} {s : State} :
    (testResult ns s).obj Obj.lanesWarning = s.obj Obj.lanesWarning ∧
      (s.dev.marginRun = 2 ∨ s.obj Obj.commissionResult = 0 →
        (testResult ns s).obj Obj.commissionResult = 1 ∨ (testResult ns s).obj Obj.commissionResult = 2) ∧
      (¬ (s.dev.marginRun = 2 ∨ s.obj Obj.commissionResult = 0) →
        (testResult ns s).obj Obj.commissionResult = s.obj Obj.commissionResult) := by
  unfold testResult
  by_cases h : s.dev.marginRun = 2 ∨ s.obj Obj.commissionResult = 0
  · rw [if_pos h]
    refine ⟨?_, fun _ => ?_, fun hn => absurd h hn⟩
    · exact (State.obj_setObj_other _ _ (by decide)).trans (State.obj_setObj_other _ _ (by decide))
    · rw [State.setObjI, State.obj_setObj_other _ _ (by decide), State.obj_setObj]
      split
      · exact .inl rfl
      · exact .inr rfl
  · rw [if_neg h]
    exact ⟨rfl, fun hn => absurd hn h, fun _ => rfl⟩

/-! ### The references of the domains -/

theorem setReference_other {d k : Nat} (s : State) (h : k ≠ d) : (setReference d s).domain k = s.domain k :=
  State.domain_setDomain_other _ _ h

/-- A reference as a test leaves it: no fall, no samples. -/
def Fresh (x : Domain) : Prop := x.fall = List.replicate 17 0 ∧ x.samples = [] ∧ x.hourSum = 0 ∧ x.hourN = 0

theorem setReference_fresh (d : Nat) (s : State) : Fresh ((setReference d s).domain d) := by
  rw [setReference, State.domain_setDomain]
  exact ⟨rfl, rfl, rfl, rfl⟩

theorem setReferences_fresh (n : Nat) (s : State) :
    ∀ d, d < n → Fresh (((List.range n).foldl (fun s d => setReference d s) s).domain d) := by
  induction n with
  | zero => exact fun d h => absurd h (Nat.not_lt_zero d)
  | succ n ih =>
    intro d hd
    rw [List.range_succ, List.foldl_append]
    change Fresh ((setReference n _).domain d)
    by_cases h : d = n
    · rw [h]
      exact setReference_fresh ..
    · rw [setReference_other _ h]
      exact ih d (by omega)

/-! ### The strings of a test -/

theorem testSettled_plant (ns : List Nat) (s : State) (j : Nat) : ((testSettled ns s).str j).plant = (s.str j).plant := by
  unfold testSettled
  refine (foldl_kept (p := fun s : State => (s.str j).plant) (fun s n => ?_) _ _).trans
    (foldl_kept (p := fun s : State => (s.str j).plant) (fun s n => ?_) _ _)
  · refine plant_setStr ?_ j
    rfl
  · refine (afterLaneCheck_plant ..).trans (plant_setStr ?_ j)
    rfl

theorem testWarned_strings (weak : List LaneMeas) (s : State) : (testWarned weak s).strings = s.strings :=
  (foldl_kept (p := State.strings) (fun s d => (setReference_keeps ..).strings rfl) _ _).trans
    (foldl_kept (p := State.strings) (fun s m => (logEvent_keeps ..).strings rfl) _ _)

theorem testResult_strings (ns : List Nat) (s : State) : (testResult ns s).strings = s.strings := by
  unfold testResult
  split <;> rfl

/-- The measured line of a test of one line, and its string's latency. -/
theorem testMeasured_one (m : LaneMeas) (s : State) :
    ((testMeasured [m] s).str m.string).latency = min m.latency 35000 ∧
      tget {} m.line ((testMeasured [m] s).str m.string).lanes = { tget {} m.line (s.str m.string).lanes with
        rx := m.rx, eye := m.eye, margin := m.margin, testRx := m.rx, testMargin := m.margin
        usable := decide (100 ≤ m.margin) && decide (20 ≤ m.eye) && ringsLocked s m.string m.line, lane := none } := by
  have h : (testMeasured [m] s).str m.string = { (measureLane s m).str m.string with latency := min m.latency 35000 } := by
    refine (State.str_of_strings (noteLatency_eq m.string m.latency (measureLane s m)).1 m.string).trans ?_
    exact State.str_setStr ..
  rw [h]
  refine ⟨rfl, ?_⟩
  change tget {} m.line ((measureLane s m).str m.string).lanes = _
  rw [measureLane, State.str_setStr]
  exact tget_tset_same ..

/-! ### Depth records -/

theorem foldl_other {σ α : Type} {get : σ → α} {step : σ → Nat → σ} {l : List Nat}
    (ho : ∀ s, ∀ t ∈ l, get (step s t) = get s) (s : σ) : get (l.foldl step s) = get s := by
  induction l generalizing s with
  | nil => rfl
  | cons a l ih =>
    exact (ih (fun s t ht => ho s t (List.mem_cons_of_mem _ ht)) _).trans (ho s a List.mem_cons_self)

/-- A fold over keys that differ changes what is read at one of them once. -/
theorem foldl_once {σ α : Type} {get : σ → α} {step : σ → Nat → σ} {f : α → α} {k : Nat} {l : List Nat} (hn : l.Nodup)
    (hk : k ∈ l) (hs : ∀ s, get (step s k) = f (get s)) (ho : ∀ s, ∀ t ∈ l, t ≠ k → get (step s t) = get s) (s : σ) :
    get (l.foldl step s) = f (get s) := by
  induction l generalizing s with
  | nil => exact absurd hk List.not_mem_nil
  | cons a l ih =>
    obtain ⟨ha, hn⟩ := List.nodup_cons.1 hn
    have hl : ∀ s, ∀ t ∈ l, t ≠ k → get (step s t) = get s := fun s t ht => ho s t (List.mem_cons_of_mem _ ht)
    rcases List.mem_cons.1 hk with rfl | hk
    · exact (foldl_other (fun s t ht => hl s t ht fun e => ha (e ▸ ht)) _).trans (hs s)
    · refine (ih hn hk hl _).trans (congrArg f ?_)
      exact ho s a List.mem_cons_self fun e => ha (e ▸ hk)

/-- The averages of a thief after a depth record of a die. -/
def depthAvg (src : Nat) (p : Bytes) (a : Tab W16) : Tab W16 :=
  ((List.range 5).map (fun j => (if j < 4 then 4 * src + j else 64 + src, leAt p (1 + 2 * j) 2))).foldl
    (fun (a : Tab W16) q => tset q.1 (depthAverage (tget 0 q.1 a) q.2) a) a

theorem depthAvg_queue {src j : Nat} (p : Bytes) (a : Tab W16) (hs : src < 16) (hj : j < 4) :
    tget 0 (4 * src + j) (depthAvg src p a) = depthAverage (tget 0 (4 * src + j) a) (leAt p (1 + 2 * j) 2) := by
  unfold depthAvg
  rw [List.foldl_map]
  refine foldl_once (get := tget 0 (4 * src + j)) (f := fun v => depthAverage v (leAt p (1 + 2 * j) 2)) (k := j)
    List.nodup_range (List.mem_range.2 (by omega)) (fun a => ?_) (fun a t ht hne => tget_tset_other _ _ _ ?_) a
  · simp only [if_pos hj]
    exact tget_tset_same ..
  · dsimp only
    split <;> omega

/-- One thief takes a depth record in. -/
def thiefAverages (src : Nat) (p : Bytes) (s : State) (t : Nat) : State :=
  { s with sched := { s.sched with
    thieves := tset t { tget {} t s.sched.thieves with avg := depthAvg src p (tget {} t s.sched.thieves).avg } s.sched.thieves } }

theorem depthRecord_eq (die src : Nat) (p : Bytes) (s : State) :
    depthRecord die src p s = ((List.range 4).map (fun j => 4 * die + j) ++ (List.range 16).map (fun j => 64 + 16 * die + j)).foldl
      (thiefAverages src p) s := rfl

/-- The averages of one thief in a state. -/
def thiefAvg (k : Nat) (s : State) : Tab W16 := (tget {} k s.sched.thieves).avg

theorem thiefAverages_same (src : Nat) (p : Bytes) (s : State) (k : Nat) :
    thiefAvg k (thiefAverages src p s k) = depthAvg src p (thiefAvg k s) := by
  unfold thiefAvg thiefAverages
  rw [tget_tset_same]

theorem thiefAverages_other (src : Nat) (p : Bytes) (s : State) {k t : Nat} (h : k ≠ t) :
    thiefAvg k (thiefAverages src p s t) = thiefAvg k s := by
  unfold thiefAvg thiefAverages
  rw [tget_tset_other _ _ _ h]

theorem depthRecord_thief {d src i : Nat} (p : Bytes) (s : State) (hi : i < 4) :
    thiefAvg (4 * d + i) (depthRecord d src p s) = depthAvg src p (thiefAvg (4 * d + i) s) := by
  rw [depthRecord_eq, List.foldl_append, List.foldl_map, List.foldl_map]
  refine (foldl_kept (p := thiefAvg (4 * d + i)) (fun s t => thiefAverages_other src p s (by omega)) _ _).trans ?_
  exact foldl_once (get := thiefAvg (4 * d + i)) (k := i) (f := depthAvg src p) List.nodup_range (List.mem_range.2 hi)
    (fun s => thiefAverages_same ..) (fun s t _ hne => thiefAverages_other src p s (by omega)) s

theorem depthRecord_avg {d src i j : Nat} (p : Bytes) (s : State) (hs : src < 16) (hi : i < 4) (hj : j < 4) :
    tget 0 (4 * src + j) (tget {} (4 * d + i) (depthRecord d src p s).sched.thieves).avg =
      depthAverage (tget 0 (4 * src + j) (tget {} (4 * d + i) s.sched.thieves).avg) (leAt p (1 + 2 * j) 2) := by
  change tget 0 (4 * src + j) (thiefAvg (4 * d + i) (depthRecord d src p s)) = _
  rw [depthRecord_thief p s hi, depthAvg_queue p _ hs hj]
  rfl

/-! ### Margin estimates -/

theorem ptp_of_live {s : State} {n : StringId} (h : (s.str n.val).state ≤ 2 ∨ isBus n.val = true) :
    ¬ (2 < (s.str n.val).state ∧ (!isBus n.val) = true) := by
  rintro ⟨h2, hb⟩
  rcases h with h | h
  · omega
  · rw [h] at hb; exact absurd hb (by decide)

/-- A line whose estimate holds, or whose fall a handover explains, is not dropped. -/
theorem marginDrops_not {s : State} {d line : Nat} {l : Lane} {rx est : Int} (he : est = l.testMargin - 10 * (l.testRx - rx))
    (hok : 100 ≤ est ∨ ((s.domain d).state ≠ 0 ∧ 100 ≤ est + (s.domain d).fall.getD line 0))
    (hc : l.testMargin - 10 * (l.testRx - rx) < 100 ∧ (!((s.domain d).state != 0 &&
      decide (100 ≤ l.testMargin - 10 * (l.testRx - rx) + (s.domain d).fall.getD line 0))) = true) : False := by
  rw [← he] at hc
  obtain ⟨hlow, hsp⟩ := hc
  rcases hok with h | ⟨h0, h1⟩
  · omega
  · rw [decide_eq_true h1, bne_iff_ne.2 h0] at hsp
    exact absurd hsp (by decide)

theorem marginDrops {s : State} {d line : Nat} {l : Lane} {rx est : Int} (he : est = l.testMargin - 10 * (l.testRx - rx))
    (hlow : est < 100) (hno : ¬ ((s.domain d).state ≠ 0 ∧ 100 ≤ est + (s.domain d).fall.getD line 0)) :
    l.testMargin - 10 * (l.testRx - rx) < 100 ∧ (!((s.domain d).state != 0 &&
      decide (100 ≤ l.testMargin - 10 * (l.testRx - rx) + (s.domain d).fall.getD line 0))) = true := by
  rw [← he]
  refine ⟨hlow, ?_⟩
  rw [Bool.not_eq_true', ← Bool.not_eq_true, Bool.and_eq_true, bne_iff_ne, decide_eq_true_eq]
  exact hno

theorem marginTestDone_frame {lanes : List LaneMeas} {s t : State} (ns : List Nat)
    (ht : t = { testResult ns (testBefore lanes s) with
      dev := { (testResult ns (testBefore lanes s)).dev with marginRun := 0 } }) :
    t = { s with
          beat := t.beat, od := t.od, cores := t.cores, wins := t.wins, dies := t.dies, sched := t.sched
          strings := t.strings, tags := t.tags, domains := t.domains, dram := t.dram, ports := t.ports
          rmem := t.rmem, serve := t.serve, images := t.images, time := t.time, dev := t.dev, pod := t.pod
          test := t.test, beagle := t.beagle, log := t.log, out := t.out, free := t.free } := by
  have hk : Keeps 1890420434291 s t := by
    rw [ht]
    exact Keeps.u67108864 (by decide) (fun h => h) ((testResult_kept ns (testBefore_kept lanes s)).mono (by decide))
  exact hk.eq

/-- The result of a commissioning test is given by it or by the first test, and by no other. -/
theorem testDone_commission {lanes : List LaneMeas} {s : State} (ns : List Nat) :
    (s.dev.marginRun = 2 ∨ s.obj Obj.commissionResult = 0 →
      (testResult ns (testBefore lanes s)).obj Obj.commissionResult = 1 ∨
        (testResult ns (testBefore lanes s)).obj Obj.commissionResult = 2) ∧
      (s.dev.marginRun = 1 ∧ s.obj Obj.commissionResult ≠ 0 →
        (testResult ns (testBefore lanes s)).obj Obj.commissionResult = s.obj Obj.commissionResult) := by
  obtain ⟨-, hset, hkeep⟩ := testResult_obj (ns := ns) (s := testBefore lanes s)
  rw [testBefore_dev, (testBefore_obj lanes s).2] at hset hkeep
  exact ⟨hset, fun h => hkeep (by omega)⟩

/-- Every domain has a fresh reference after a test. -/
theorem testDone_fresh {lanes : List LaneMeas} {s : State} (ns : List Nat) {d : Nat} (hd : d < 8) :
    Fresh ((testResult ns (testBefore lanes s)).domain d) := by
  have hdom : (testResult ns (testBefore lanes s)).domains = (testBefore lanes s).domains := by
    unfold testResult
    split <;> rfl
  rw [State.domain, hdom]
  unfold testBefore testWarned
  exact setReferences_fresh 8 _ d hd

theorem inRange_one {m : LaneMeas} (hs : m.string < 1126) (hl : m.line < 17) : [m].filter inRange = [m] := by
  rw [List.filter_cons_of_pos (by simp [inRange, hs, hl]), List.filter_nil]

/-- A record kept at a tap. -/
def tapKeeps (n tap : Nat) (g : Frame) (u : State) : State :=
  { u with bus := tset (4096 * tap + 64 * (stringEnds n).1 + leAt g.payload 0 1) { payload := fitBytes 64 g.payload, beat := u.beat } u.bus }

/-- What the thieves of a tap make of a record of a kind. -/
def tapTakes (kind : Nat) (die src : Option Nat) (p : Bytes) (v : State) : Out :=
  match kind, die, src with
  | 1, some d, some r => .next (depthRecord d r p v)
  | _, _, _ => .next v

/-- A frame of a bus that its tap looks at. -/
theorem bcast_taken {n : StringId} {tap : SiteId} {f g : Frame} {s u : State}
    (h : isBus n.val = true ∧ busTap n.val tap.val = true ∧ (hOp f.hdr = opBCAST ∨ frameOk n.val f = false))
    (hi : injectRx n.val f s = (g, u)) :
    execBcast n tap f s = if (!frameOk n.val g) = true ∨ hDest g.hdr ≠ hSrc g.hdr ∨ hSrc g.hdr ≠ (stringEnds n.val).1 then
        .next (u.count Obj.busDrops 1)
      else if leAt g.payload 0 1 ≠ 1 ∧ leAt g.payload 0 1 ≠ 2 then .next u
      else tapTakes (leAt g.payload 0 1) (siteDie tap.val) (siteDie (stringEnds n.val).1) g.payload (tapKeeps n.val tap.val g u) := by
  obtain ⟨hb, ht, hf⟩ := h
  unfold execBcast
  refine (if_neg ?_).trans ?_
  · rw [hb, ht]
    rcases hf with hf | hf
    · simp [hf]
    · simp [hf]
  · simp only [hi] <;> rfl

theorem tapTakes_kept {kind : Nat} {a b : Option Nat} (p : Bytes) (v : State) (h : kind ≠ 1 ∨ a = none ∨ b = none) :
    tapTakes kind a b p v = .next v := by
  unfold tapTakes
  split
  · rcases h with h | h | h
    · exact absurd rfl h
    · cases h
    · cases h
  · rfl

/-- A record of a die or a site on its bus. -/
def busRecord (n : Nat) (p : Bytes) : Frame :=
  mkFrame (withLink (mkHdr opBCAST (stringEnds n).1 (stringEnds n).1 63 0 0 false) n 0 0 0 0) p

/-- What is sent of a kind by an owner that has a die or none. -/
def busSent (n kind : Nat) (die : Option Nat) (s : State) : Out :=
  match kind, die with
  | 1, some d => if dieUp s d then
      .next (busSend n (busRecord n (depthPayload s d)) (if n < 1101 then depthRecord d d (depthPayload s d) s else s))
    else .next s
  | 2, _ => .next (busSend n (busRecord n (thermalPayload s (stringEnds n).1)) s)
  | _, _ => .next s

theorem bcastSend_on {n : StringId} {kind : Byte} {s : State} (hb : isBus n.val = true) (hp : s.powered = true) :
    execBcastSend n kind s = busSent n.val kind.toNat (siteDie (stringEnds n.val).1) s := by
  unfold execBcastSend
  refine (if_neg ?_).trans rfl
  rw [hb, hp]
  decide

theorem busSent_none {n kind : Nat} {die : Option Nat} {s : State} (h2 : kind ≠ 2)
    (h1 : kind = 1 → ∀ d ∈ die, dieUp s d = false) : busSent n kind die s = .next s := by
  unfold busSent
  split
  · rename_i d
    rw [if_neg (by rw [h1 rfl d rfl]; decide)]
  · exact absurd rfl h2
  · rfl

/-- Settles O25. -/
theorem marginsAndBuses : Obligations.MarginsAndBuses := by
  unfold Obligations.MarginsAndBuses
  refine ⟨?_, ?_, ?_, ?_, ?_, ?_, ?_, ?_, ?_, ?_, ?_, ?_, ?_, ?_, ?_, ?_, ?_, ?_, ?_⟩
  · rintro s ⟨h2, hst, hr, hw⟩
    exact ⟨_, if_pos ⟨h2, hst, hr, by rw [hw]; rfl⟩, rfl⟩
  · rintro s ⟨hr, hd⟩
    refine ⟨_, (if_neg ?_).trans (if_pos ⟨hr, by rw [hd]; rfl⟩), rfl⟩
    rintro ⟨-, -, h0, -⟩
    omega
  · intro s h1 h2
    refine ⟨s, (if_neg ?_).trans (if_neg ?_), rfl⟩
    · rw [Bool.not_eq_true']; exact h1
    · rw [Bool.not_eq_true']; exact h2
  · intro lanes s h
    refine ⟨_, marginTestDone_of h, rfl, ?_, ?_, ?_, ?_, marginTestDone_frame _ rfl⟩
    · exact (testResult_obj.1).trans (testBefore_obj lanes s).1
    · exact (testDone_commission _).1
    · exact (testDone_commission _).2
    · exact fun d hd => testDone_fresh _ hd
  · intro m s h hs hl
    have hp : ((testResult (([m].filter inRange).map (·.string)).eraseDups (testBefore [m] s)).str m.string).plant =
        ((testMeasured [m] s).str m.string).plant := by
      refine (congrArg Str.plant (State.str_of_strings (testResult_strings ..) _)).trans
        ((congrArg Str.plant (State.str_of_strings (testWarned_strings ..) _)).trans
          ((testSettled_plant ..).trans ?_))
      rw [inRange_one hs hl]
    obtain ⟨hlat, hlane⟩ := testMeasured_one m s
    have hlanes := congrArg (tget {} m.line) (congrArg Prod.fst hp)
    refine ⟨_, marginTestDone_of h, ?_, ?_, ?_, ?_, ?_, rfl, marginTestDone_frame _ rfl⟩
    · exact congrArg Lane.usable (hlanes.trans hlane)
    · exact congrArg Lane.margin (hlanes.trans hlane)
    · exact congrArg Lane.testMargin (hlanes.trans hlane)
    · exact congrArg Lane.testRx (hlanes.trans hlane)
    · exact (congrArg (fun x => x.2.2.1) hp).trans hlat
  · intro lanes s h
    refine ⟨s, if_pos ?_, rfl⟩
    omega
  · intro n line rx est s hu hlive he hok
    refine ⟨_, (if_neg ?_).trans (if_neg ?_), ?_⟩
    · rw [not_or]
      exact ⟨by simpa using hu, ptp_of_live hlive⟩
    · exact fun hc => marginDrops_not he hok hc
    · rw [he]
  · intro n line rx est u s hu hlive he hlow hno hv
    refine ⟨dropLine n.val line.val true (logEvent Obj.laneMapouts 1 0 (stringEnds n.val).2 n.val (leBytes 1 line.val) u),
      (if_neg ?_).trans ((if_pos (marginDrops he hlow hno)).trans ?_), rfl, ?_⟩
    · rw [not_or]
      exact ⟨by simpa using hu, ptp_of_live hlive⟩
    · rw [hv, he]
    · obtain ⟨j, hj⟩ := dropLine_lane n.val line.val true
        (logEvent Obj.laneMapouts 1 0 (stringEnds n.val).2 n.val (leBytes 1 line.val) u)
      rw [hj, State.str_of_strings ((logEvent_keeps ..).strings rfl), hv, State.str_setStr]
      exact ⟨rfl, congrArg Lane.margin (tget_tset_same ..)⟩
  · intro n line rx s h
    refine ⟨s, if_pos ?_, rfl⟩
    rcases h with h | ⟨h2, hb⟩
    · left; rw [h]; rfl
    · right; exact ⟨h2, by rw [hb]; rfl⟩
  · intro n tap f s h
    refine ⟨s, if_pos ?_, rfl⟩
    by_contra hc
    refine h ?_
    simpa [not_or, or_iff_not_imp_left] using hc
  · intro n tap f g u s h hi hbad
    refine ⟨_, (bcast_taken h hi).trans (if_pos ?_), rfl⟩
    rwa [Bool.not_eq_true']
  · intro n tap f g u s h hi hok hk
    refine ⟨u, (bcast_taken h hi).trans ((if_neg ?_).trans (if_pos hk)), rfl⟩
    rwa [Bool.not_eq_true']
  · intro n tap f g u s h hi hok hk
    refine ⟨_, (bcast_taken h hi).trans ((if_neg ?_).trans ((if_neg ?_).trans ?_)), rfl⟩
    · rwa [Bool.not_eq_true']
    · omega
    · rcases hk with hk | ⟨hk, hd⟩
      · exact tapTakes_kept _ _ (.inl (by omega))
      · exact tapTakes_kept _ _ (.inr hd)
  · intro n tap f g u d src s h hi hok hk hd hs
    refine ⟨_, (bcast_taken h hi).trans ((if_neg ?_).trans ((if_neg ?_).trans ?_)), rfl⟩
    · rwa [Bool.not_eq_true']
    · omega
    · rw [hk, hd, hs, tapTakes, tapKeeps, hk]
  · exact fun d src i j p s hs hi hj => depthRecord_avg p s hs hi hj
  · exact fun n f s h => if_neg fun hc => h hc.1
  · intro n d s hb hp hd hu
    refine ⟨_, (bcastSend_on hb hp).trans ?_, rfl⟩
    rw [hd]
    exact if_pos hu
  · exact fun n s hb hp => ⟨_, (bcastSend_on (kind := 2) hb hp).trans rfl, rfl⟩
  · intro n kind s h
    refine ⟨s, ?_, rfl⟩
    by_cases hon : isBus n.val = true ∧ s.powered = true
    · obtain ⟨hb, hp⟩ := hon
      refine (bcastSend_on hb hp).trans (busSent_none (fun h2 => ?_) fun h1 => ?_)
      · have hk : kind = 2 := BitVec.eq_of_toNat_eq h2
        subst hk
        simp [hb, hp] at h
      · have hk : kind = 1 := BitVec.eq_of_toNat_eq h1
        subst hk
        simpa [hb, hp] using h
    · refine if_pos ?_
      rwa [Bool.not_eq_true', Bool.not_eq_true', ← Bool.not_eq_true, ← Bool.not_eq_true, ← not_and_or]

end Sys2Proof.Machine
end

section
/-! PROOFS. Peg loops, fret checks, calibration turns and Sounding (O28). -/

namespace Sys2Proof.Machine

/-! ### One ring's record -/

theorem setPeg_str (n line ring : Nat) (p : Peg) (s : State) :
    (setPeg n line ring p s).str n = { s.str n with pegs := tset (pegKey line ring) p (s.str n).pegs } := State.str_setStr ..

theorem setPeg_peg (n line ring : Nat) (p : Peg) (s : State) : ((setPeg n line ring p s).str n).peg line ring = p := by
  rw [setPeg_str]
  exact tget_tset_same ..

theorem setPeg_peg_other {n line ring r : Nat} (p : Peg) (s : State) (h : r ≠ ring) :
    ((setPeg n line ring p s).str n).peg line r = (s.str n).peg line r := by
  rw [setPeg_str]
  refine tget_tset_other _ _ _ ?_
  unfold pegKey
  omega

theorem setPeg_str_other {n j line ring : Nat} (p : Peg) (s : State) (h : j ≠ n) :
    (setPeg n line ring p s).str j = s.str j := State.str_setStr_other _ _ h

theorem dropLine_peg (n line : Nat) (r : Bool) (s : State) (l ring : Nat) :
    ((dropLine n line r s).str n).peg l ring = (s.str n).peg l ring := by
  unfold Str.peg
  rw [dropLine_pegs]

/-! ### A sample of a loop -/

/-- A ring with its sample. -/
def Peg.sampled (p : Peg) (detuning : Int) (heater : W16) : Peg := { p with detuning, heater, frozen := false }

/-- The heater of a sample with the feed-forward of the ring's neighbours. -/
def forwarded (n : StringId) (ring : Fin 5) (heater : W16) (s : State) : W16 :=
  heater + BitVec.ofInt 16 (Sys2Proof.Config.pegForward (neighbourPower s (ringSite n.val ring.val)))

/-- What a loop that is sampled does next. -/
def pegStep (n : StringId) (line : LineId) (ring : Fin 5) (detuning : Int) (p : Peg) (s : State) : Out :=
  if p.state = 3 then
    if pegLimit < detuning.natAbs then
      if 1 ≤ p.beyond ∧ !(s.str n).held then .next (pegAlarm n line ring (setPeg n line ring p s))
      else .next (setPeg n line ring { p with beyond := p.beyond + 1 } s)
    else .next (setPeg n line ring { p with beyond := 0 } s)
  else if (p.state = 1 ∨ p.state = 4) ∧ detuning.natAbs ≤ pegHeld then .next (setPeg n line ring { p with state := 2 } s)
  else .next (setPeg n line ring p s)

/-- A loop that runs: not frozen, or its domain's light has settled, and not failed on a string in service. -/
def PegRuns (n : StringId) (line : LineId) (ring : Fin 5) (s : State) : Prop :=
  (((s.str n.val).peg line.val ring.val).frozen = false ∨ ((s.domain (stringDomain n.val)).state = 3 ∧
    (s.domain (stringDomain n.val)).switched = true ∧ (s.domain (stringDomain n.val)).holdBeat + 41000 ≤ s.beat)) ∧
    (((s.str n.val).peg line.val ring.val).state ≠ 5 ∨ 2 < (s.str n.val).state) ∧ ring.val < ringCount n.val

theorem pegSample_runs {n : StringId} {line : LineId} {ring : Fin 5} {detuning : Int} {heater : W16} {s : State}
    (h : PegRuns n line ring s) :
    execPegSample n line ring detuning heater s = pegStep n line ring detuning
      (if (((s.str n.val).peg line.val ring.val).state = 0 ∧ lit s n.val) ∨ ((s.str n.val).peg line.val ring.val).state = 5 then
        { ((s.str n.val).peg line.val ring.val).sampled detuning (forwarded n ring heater s) with
          state := 1, cold := true, steps := 0 }
        else ((s.str n.val).peg line.val ring.val).sampled detuning (forwarded n ring heater s)) s := by
  obtain ⟨hf, h5, hr⟩ := h
  refine if_neg ?_
  rintro (⟨hfr, hl⟩ | ⟨h5', h2⟩ | hr')
  · rcases hf with hf | ⟨h3, hsw, hb⟩
    · exact absurd (hf.symm.trans hfr) (by decide)
    · rw [h3, hsw, decide_eq_true hb] at hl
      exact absurd hl (by decide)
  · rcases h5 with h5 | h5
    · exact h5 h5'
    · omega
  · omega

theorem pegSample_stands {n : StringId} {line : LineId} {ring : Fin 5} {detuning : Int} {heater : W16} {s : State}
    (h : ¬ PegRuns n line ring s) : execPegSample n line ring detuning heater s = .next s := by
  refine if_pos ?_
  by_contra hc
  refine h ?_
  obtain ⟨hf, h5, hr⟩ := (not_or.1 hc).imp_right not_or.1
  refine ⟨?_, ?_, by omega⟩
  · rw [not_and_or, Bool.not_eq_true, Bool.not_eq_true', Bool.not_eq_false, Bool.and_eq_true, Bool.and_eq_true, beq_iff_eq,
      decide_eq_true_eq, and_assoc] at hf
    exact hf
  · by_contra hn
    rw [not_or, not_not] at hn
    exact h5 ⟨hn.1, by omega⟩

/-- The sampled ring of a loop that holds. -/
theorem pegSample_locked {n : StringId} {line : LineId} {ring : Fin 5} {detuning : Int} {heater : W16} {s : State}
    (h : PegRuns n line ring s) (h3 : ((s.str n.val).peg line.val ring.val).state = 3) :
    execPegSample n line ring detuning heater s = pegStep n line ring detuning
      (((s.str n.val).peg line.val ring.val).sampled detuning (forwarded n ring heater s)) s := by
  rw [pegSample_runs h, if_neg]
  omega

/-- An alarm sets the ring sweeping, counts, and drops the line. -/
theorem pegAlarm_spec {n line ring : Nat} {s : State} (h : (s.str n).held = false) :
    ((pegAlarm n line ring s).str n).peg line ring = { (s.str n).peg line ring with state := 1, beyond := 0, steps := 0 } ∧
      (pegAlarm n line ring s).obj Obj.pegAlarms = (s.obj Obj.pegAlarms + 1) % 2 ^ objBits Obj.pegAlarms := by
  unfold pegAlarm
  rw [if_neg (by rw [h]; decide)]
  dsimp only
  have hstr (d : Bytes) (k : Nat) : (countLog Obj.pegAlarms 1 0 k n d s).str n = s.str n :=
    State.str_of_strings ((countLog_keeps ..).strings rfl) n
  constructor
  · rw [dropLine_peg, setPeg_peg, hstr]
  · rw [dropLine_untouched n line (ring != 0) _ _ (by decide), State.obj_of_od ((setPeg_keeps ..).od rfl)]
    exact countLog_counts 1 0 _ _ _ _ (by decide) (by decide)

/-! ### A fret check that ends -/

/-- A line that fails its check rotates no more. -/
def endRotate (n line : Nat) (s : State) : State :=
  s.setStr n { s.str n with rotate := if (s.str n).rotate = some line then none else (s.str n).rotate }

/-- What a failed fret check does to its line. -/
def fretDrops (n line ring : Nat) (s : State) : State :=
  if (tget {} line ((endRotate n line s).str n).lanes).usable then dropLine n line (ring != 0) (endRotate n line s)
  else endRotate n line s

theorem fretDrops_spec (n line ring : Nat) (s : State) :
    ((fretDrops n line ring s).str n).peg line ring = (s.str n).peg line ring ∧
      (tget {} line ((fretDrops n line ring s).str n).lanes).usable = false ∧
      Untouched (Obj.laneMapouts :: Obj.pathLostTransfers :: logCounters) s (fretDrops n line ring s) := by
  have hp : ((endRotate n line s).str n).peg line ring = (s.str n).peg line ring := by
    rw [endRotate, State.str_setStr]
    rfl
  have hu : Untouched [] s (endRotate n line s) := .of_od rfl
  unfold fretDrops
  split
  · obtain ⟨j, hj⟩ := dropLine_lane n line (ring != 0) (endRotate n line s)
    exact ⟨(dropLine_peg ..).trans hp, congrArg Lane.usable hj, hu.trans (dropLine_untouched _ _ _ _) (by simp)⟩
  · rename_i hn
    exact ⟨hp, by simpa using hn, hu.mono (by simp)⟩

section
variable {n : StringId} {line : LineId} {ring : Fin 5} {expected : Int} {tones : List Int} {s : State}
  (h2 : ((s.str n.val).peg line.val ring.val).state = 2) (hr : ring.val < ringCount n.val)
include h2 hr

theorem fret_locks (hf : fretResult line.val expected tones = none) :
    execFretCheckDone n line ring expected tones s = .next (lineLocked n.val line.val ring.val (setPeg n.val line.val ring.val
        { ((s.str n.val).peg line.val ring.val) with
          state := 3, fret := line.val, steps := 0, toward := 0, beyond := 0, cold := false
          setPoint := ringSet s n.val line.val ring.val } s)) := by
  unfold execFretCheckDone
  refine (if_neg (by omega)).trans ?_
  rw [hf]

theorem fret_dark (hf : fretResult line.val expected tones = some 0xFF) :
    execFretCheckDone n line ring expected tones s = .next (fretDrops n.val line.val ring.val
      (countLog Obj.fretFailures 1 0 (stringEnds n.val).2 n.val (leBytes 1 line.val) (setPeg n.val line.val ring.val
        { ((s.str n.val).peg line.val ring.val) with state := 5, fret := 0xFF } s))) := by
  unfold execFretCheckDone
  refine (if_neg (by omega)).trans ?_
  rw [hf]
  rfl

theorem fret_sweeps {l : Nat} (hf : fretResult line.val expected tones = some l) (hl : l ≠ 0xFF)
    (hc : ((s.str n.val).peg line.val ring.val).cold = true) :
    execFretCheckDone n line ring expected tones s = .next (fretDrops n.val line.val ring.val
      (setPeg n.val line.val ring.val { ((s.str n.val).peg line.val ring.val) with state := 1, fret := l }
        (s.count Obj.fretFailures 1))) := by
  unfold execFretCheckDone
  refine (if_neg (by omega)).trans ?_
  rw [hf]
  split
  · rename_i hn; cases hn
  · rename_i he; exact absurd (Option.some.inj he) hl
  · rename_i he
    cases he
    exact if_pos hc

theorem fret_wrong {l : Nat} (hf : fretResult line.val expected tones = some l) (hl : l ≠ 0xFF)
    (hc : ((s.str n.val).peg line.val ring.val).cold = false) :
    execFretCheckDone n line ring expected tones s = .next (fretDrops n.val line.val ring.val
      (setPeg n.val line.val ring.val
        { ((s.str n.val).peg line.val ring.val) with
          state := if ((s.str n.val).peg line.val ring.val).steps = 4 then 5 else 2
          steps := min (((s.str n.val).peg line.val ring.val).steps + 1) 4, fret := l
          toward := if ((s.str n.val).peg line.val ring.val).steps = 4 then ((s.str n.val).peg line.val ring.val).toward
            else ((s.str n.val).peg line.val ring.val).toward + (if l < line.val then 1 else -1) }
        (countLog Obj.wrongLineLocks 1 0 (stringEnds n.val).2 n.val (leBytes 1 line.val ++ leBytes 1 l)
          (s.count Obj.fretFailures 1)))) := by
  unfold execFretCheckDone
  refine (if_neg (by omega)).trans ?_
  rw [hf]
  split
  · rename_i hn; cases hn
  · rename_i he; exact absurd (Option.some.inj he) hl
  · rename_i he
    cases he
    exact if_neg (by rw [hc]; decide)

end

theorem lineLocked_open {n line ring r : Nat} {s : State} (hr : r < ringCount n) (h : ((s.str n).peg line r).state ≠ 3) :
    lineLocked n line ring s = s := by
  refine if_pos ?_
  rw [Bool.not_eq_true', ringsLocked, List.all_eq_false]
  exact ⟨r, List.mem_range.2 hr, by simpa using h⟩

/-! ### A calibration turn that ends -/

/-- A ring of a line whose new values are applied goes on to its check, at its new set point. -/
def recheckRing (n line r : Nat) (s : State) : State :=
  setPeg n line r { (s.str n).peg line r with state := 2, setPoint := ringSet s n line r } s

theorem recheckRings_pegs {n line r : Nat} {s t : State} (ht : t = recheckRing n line 1 (recheckRing n line 0 s)) (hr : r < 2) :
    (t.str n).peg line r = { (s.str n).peg line r with state := 2, setPoint := ((t.str n).peg line r).setPoint } := by
  have h : ((t.str n).peg line r) = { (s.str n).peg line r with
      state := 2, setPoint := ringSet (if r = 0 then s else recheckRing n line 0 s) n line r } := by
    rcases (by omega : r = 0 ∨ r = 1) with rfl | rfl
    · rw [ht, recheckRing, setPeg_peg_other _ _ (by decide), recheckRing, setPeg_peg]
      rfl
    · rw [ht, recheckRing, setPeg_peg]
      conv_lhs => rw [recheckRing, setPeg_peg_other _ _ (by decide)]
      rfl
  rw [h]

theorem recheckRing_str (n line r : Nat) (s : State) :
    (recheckRing n line r s).str n = { s.str n with pegs := ((recheckRing n line r s).str n).pegs } := by
  rw [recheckRing, setPeg_str]

theorem recheckRings_str {n line : Nat} (s : State) :
    ∃ g, (recheckRing n line 1 (recheckRing n line 0 s)).str n = { s.str n with pegs := g } :=
  ⟨_, (recheckRing_str n line 1 _).trans (congrArg (fun t : Str =>
    { t with pegs := ((recheckRing n line 1 (recheckRing n line 0 s)).str n).pegs }) (recheckRing_str n line 0 s))⟩

theorem recheckRings_other {n line k : Nat} (s : State) (h : k ≠ n) :
    (recheckRing n line 1 (recheckRing n line 0 s)).str k = s.str k :=
  (setPeg_str_other _ _ h).trans (setPeg_str_other _ _ h)

theorem recheckRings_kept {m n line : Nat} {s u : State} (e : 1024 ||| m = m) (h : Keeps m s u) :
    Keeps m s (recheckRing n line 1 (recheckRing n line 0 u)) :=
  setPeg_keeps_k e (setPeg_keeps_k e h)

/-- What a turn waits for, as it is tested. -/
theorem calTurn_due {n : StringId} {line : LineId} {s : State} :
    (s.obj Obj.calEnable = 1 ∧ (!isBus n.val) = true ∧ (s.str n.val).state = 0 ∧ (s.str n.val).turn.isNone = true ∧
      (s.str n.val).rotate.isNone = true ∧ (s.str n.val).newMap.isNone = true ∧ (s.str n.val).map.getD 16 0x1F = line.val ∧
      (s.domain (stringDomain n.val)).state = 0 ∧
      (decide ((s.str n.val).turnBeat + 1000000000 * s.obj Obj.calTurnIntervalS ≤ s.beat) ||
        decide (10 * s.obj Obj.calTempTriggerC < (tileTemp s (stringEnds n.val).1 - (tget {} line.val (s.str n.val).lanes).calTx).natAbs) ||
        decide (10 * s.obj Obj.calTempTriggerC < (tileTemp s (stringEnds n.val).2 - (tget {} line.val (s.str n.val).lanes).calRx).natAbs)) = true) ↔
    (s.obj Obj.calEnable = 1 ∧ isBus n.val = false ∧ (s.str n.val).state = 0 ∧ (s.str n.val).turn = none ∧
      (s.str n.val).rotate = none ∧ (s.str n.val).newMap = none ∧ (s.str n.val).map.getD 16 0x1F = line.val ∧
      (s.domain (stringDomain n.val)).state = 0 ∧
      ((s.str n.val).turnBeat + 1000000000 * s.obj Obj.calTurnIntervalS ≤ s.beat ∨
        10 * s.obj Obj.calTempTriggerC < (tileTemp s (stringEnds n.val).1 - (tget {} line.val (s.str n.val).lanes).calTx).natAbs ∨
        10 * s.obj Obj.calTempTriggerC < (tileTemp s (stringEnds n.val).2 - (tget {} line.val (s.str n.val).lanes).calRx).natAbs)) := by
  rw [Bool.not_eq_true', Option.isNone_iff_eq_none, Option.isNone_iff_eq_none, Option.isNone_iff_eq_none, Bool.or_eq_true,
    Bool.or_eq_true, decide_eq_true_eq, decide_eq_true_eq, decide_eq_true_eq, or_assoc]

/-- The state as a turn's measurements are applied or refused, before its checks and its log entry. -/
def turnApplied (n : StringId) (line : Nat) (first : CalMeas) (s : State) : State :=
  (s.setStr n.val { s.str n.val with
    turn := none, rotate := some line
    lanes := tset line (calApply s n.val (tget {} line (s.str n.val).lanes) first) (s.str n.val).lanes }).count Obj.calAccepted 1

def turnRefused (n : StringId) (line : Nat) (s : State) : State :=
  s.setStr n.val { s.str n.val with
    turn := none
    lanes := tset line { (tget {} line (s.str n.val).lanes) with refusals := (tget {} line (s.str n.val).lanes).refusals + 1 }
      (s.str n.val).lanes }

theorem calTurn_applies {n : StringId} {first repeated : CalMeas} {line : Nat} {s : State} (h : (s.str n.val).turn = some line)
    (ha : (first.margin - repeated.margin).natAbs ≤ s.obj Obj.calTolMargin ∧ (first.eye - repeated.eye).natAbs ≤ s.obj Obj.calTolEye) :
    execCalTurnDone n first repeated s = .next (recheckRing n.val line 1 (recheckRing n.val line 0 (turnApplied n line first s))) := by
  unfold execCalTurnDone
  simp only [h]
  exact if_pos ha

theorem calTurn_refuses {n : StringId} {first repeated : CalMeas} {line : Nat} {s : State} (h : (s.str n.val).turn = some line)
    (ha : ¬ ((first.margin - repeated.margin).natAbs ≤ s.obj Obj.calTolMargin ∧
      (first.eye - repeated.eye).natAbs ≤ s.obj Obj.calTolEye)) :
    execCalTurnDone n first repeated s = .next
      (if (countLog Obj.calRefused 0 0x1801 (stringEnds n.val).1 n.val (leBytes 1 line) (turnRefused n line s)).obj
          Obj.calRefusalLimit ≤ (tget {} line (s.str n.val).lanes).refusals + 1 then
        dropLine n.val line false (countLog Obj.calRefused 0 0x1801 (stringEnds n.val).1 n.val (leBytes 1 line) (turnRefused n line s))
      else countLog Obj.calRefused 0 0x1801 (stringEnds n.val).1 n.val (leBytes 1 line) (turnRefused n line s)) := by
  unfold execCalTurnDone
  simp only [h]
  exact if_neg ha

/-! ### A Sounding that ends -/

/-- A string that enters training is changed alone, with its trace record. -/
theorem enterTraining_kept (n : Nat) (s : State) : Keeps 68719477762 s (enterString n 6 s) := by
  by_cases h : (s.str n).state = 6
  · rw [enterString_self h]
    exact Keeps.refl _ s
  · rw [enterString_plain (by decide) (by decide) (by decide) h]
    exact traceMake_keeps_k (by decide) (State_setStr_keeps_k (by decide) (Keeps.refl _ s))

theorem enterTraining_untouched (n : Nat) (s : State) : Untouched logCounters s (enterString n 6 s) := by
  by_cases h : (s.str n).state = 6
  · rw [enterString_self h]
    exact Untouched.refl _ s
  · rw [enterString_eq (by decide) h]
    exact stringEnters_untouched n 6 s

theorem enterTraining_other {n j : Nat} (s : State) (hj : j ≠ n) : (enterString n 6 s).str j = s.str j := by
  by_cases h : (s.str n).state = 6
  · rw [enterString_self h]
  · rw [enterString_eq (by decide) h]
    exact (State.str_of_strings (stringEnters_strings n 6 s) j).trans (State.str_setStr_other _ _ hj)

theorem unasked_state (s : State) (m n : Nat) : ((s.setStr m (s.str m).unasked).str n).state = (s.str n).state := by
  by_cases h : n = m
  · rw [h, State.str_setStr]
    rfl
  · rw [State.str_setStr_other _ _ h]

/-- Training begins: the string's state, and what is left alone. -/
theorem startTraining_spec (n : Nat) (s : State) :
    ((startTraining n s).str n).state = 6 ∧ (∀ k, k ≠ n → k ≠ reverseString n → (startTraining n s).str k = s.str k) ∧
      Untouched logCounters s (startTraining n s) ∧ Keeps 68719477762 s (startTraining n s) := by
  rw [startTraining_eq]
  refine ⟨?_, fun k hk hr => ?_, ?_, ?_⟩
  · exact (unasked_state ..).trans ((unasked_state ..).trans (enterString_state (by decide)))
  · refine (State.str_setStr_other _ _ hr).trans ((State.str_setStr_other _ _ hk).trans ?_)
    exact (enterTraining_other _ hk).trans (State.str_setStr_other _ _ hk)
  · exact Untouched.trans (l := []) (.of_od rfl) (enterTraining_untouched n _) (by simp)
  · refine State_setStr_keeps_k (by decide) (State_setStr_keeps_k (by decide) ?_)
    exact (State_setStr_keeps_k (m := 68719477762) (by decide) (Keeps.refl _ s)).tr (enterTraining_kept n _)

/-- The state with a run's points, before its string trains. -/
def soundingKept (powers : List Int) (s : State) : State :=
  (({ s with sounding := { s.sounding with state := 2, points := powers.take (17 * (s.sounding.half + 1)) } } :
    State).setObj Obj.soundingPoints (17 * (s.sounding.half + 1))).count Obj.soundingRuns 1

theorem soundingKept_runs (powers : List Int) (s : State) :
    (soundingKept powers s).obj Obj.soundingRuns = (s.obj Obj.soundingRuns + 1) % 2 ^ objBits Obj.soundingRuns := by
  unfold soundingKept
  rw [obj_count_same _ _ (by decide), State.obj_setObj_other _ _ (by decide)]
  rfl

theorem soundingKept_points (powers : List Int) (s : State) :
    (soundingKept powers s).obj Obj.soundingPoints = 17 * (s.sounding.half + 1) % 2 ^ 64 := by
  unfold soundingKept
  rw [State.obj_count_other _ _ (by decide), State.obj_setObj]

theorem soundingKept_untouched (powers : List Int) (s : State) :
    Untouched [Obj.soundingRuns, Obj.soundingPoints] s (soundingKept powers s) := by
  intro k hk
  simp only [List.mem_cons, List.not_mem_nil, or_false, not_or] at hk
  unfold soundingKept
  rw [State.obj_count_other _ _ hk.1, State.obj_setObj_other _ _ hk.2]
  rfl

theorem soundingKept_kept (powers : List Int) (s : State) : Keeps 68719543298 s (soundingKept powers s) :=
  State_count_keeps_k (by decide) (State_setObj_keeps_k (by decide) (Keeps.u65536 (by decide) (Keeps.refl _ s)))

/-- Settles O28. -/
theorem pegsAndCalibration : Obligations.PegsAndCalibration := by
  unfold Obligations.PegsAndCalibration
  refine ⟨?_, ?_, ?_, ?_, ?_, ?_, ?_, ?_, ?_, ?_, ?_, ?_, ?_, ?_, ?_, ?_, ?_, ?_, ?_, ?_⟩
  · intro n line ring detuning heater s h h3 hd
    exact ⟨_, (pegSample_locked h h3).trans ((if_pos h3).trans (if_neg (by omega))), rfl⟩
  · intro n line ring detuning heater s h h3 hd hb
    refine ⟨_, (pegSample_locked h h3).trans ((if_pos h3).trans ((if_pos hd).trans (if_neg ?_))), rfl⟩
    rintro ⟨hb1, hh⟩
    rcases hb with hb | hb
    · exact absurd (show 1 ≤ ((s.str n.val).peg line.val ring.val).beyond from hb1) (by omega)
    · rw [hb] at hh
      exact absurd hh (by decide)
  · intro n line ring detuning heater s h h3 hd hb hh
    obtain ⟨hpeg, hobj⟩ := pegAlarm_spec (n := n.val) (line := line.val) (ring := ring.val)
      (s := setPeg n.val line.val ring.val (((s.str n.val).peg line.val ring.val).sampled detuning (forwarded n ring heater s)) s)
      (by rw [setPeg_str]; exact hh)
    refine ⟨_, (pegSample_locked h h3).trans ((if_pos h3).trans ((if_pos hd).trans (if_pos ⟨hb, by rw [hh]; rfl⟩))), rfl, ?_, ?_⟩
    · exact congrArg Peg.state hpeg
    · exact hobj
  · intro n line ring detuning heater s h hc
    refine ⟨_, (pegSample_runs h).trans ?_, rfl⟩
    rw [if_pos hc]
    unfold pegStep
    by_cases hd : detuning.natAbs ≤ pegHeld
    · rw [if_pos hd]
      exact (if_neg (by simp)).trans (if_pos ⟨.inl rfl, hd⟩)
    · rw [if_neg hd]
      exact (if_neg (by simp)).trans (if_neg fun hx => hd hx.2)
  · intro n line ring detuning heater s h hc h3
    refine ⟨_, (pegSample_runs h).trans ?_, rfl⟩
    rw [if_neg hc]
    unfold pegStep
    refine (if_neg h3).trans ?_
    by_cases hd : (((s.str n.val).peg line.val ring.val).state = 1 ∨ ((s.str n.val).peg line.val ring.val).state = 4) ∧
        detuning.natAbs ≤ pegHeld
    · rw [if_pos hd]
      exact if_pos hd
    · rw [if_neg hd]
      exact if_neg hd
  · exact fun n line ring detuning heater s h => ⟨s, pegSample_stands h, rfl⟩
  · exact fun n line ring expected tones s h2 hr hf => ⟨_, fret_locks h2 hr hf, rfl⟩
  · rintro n line ring expected tones s h2 hr hf ⟨r, hrc, hne, h3⟩
    refine ⟨_, (fret_locks h2 hr hf).trans (congrArg _ (lineLocked_open hrc ?_)), rfl⟩
    rw [setPeg_peg_other _ _ hne]
    exact h3
  · intro n line ring expected tones u v s h2 hr hf hu hv
    obtain ⟨hpeg, husable, hunt⟩ := fretDrops_spec n.val line.val ring.val u
    have hp : (u.str n.val).peg line.val ring.val = { ((s.str n.val).peg line.val ring.val) with state := 5, fret := 0xFF } := by
      rw [hu, State.str_of_strings ((countLog_keeps ..).strings rfl), setPeg_peg]
    refine ⟨fretDrops n.val line.val ring.val u, (fret_dark h2 hr hf).trans (by rw [hu]), by rw [hv]; rfl, ?_, ?_, ?_, husable⟩
    · rw [hpeg, hp]
    · rw [hpeg, hp]
    · rw [hunt _ (by decide), hu, countLog_counts 1 0 _ _ _ _ (by decide) (by decide)]
      rfl
  · intro n line ring expected tones l u v s h2 hr hf hl hc hu hv
    obtain ⟨hpeg, husable, hunt⟩ := fretDrops_spec n.val line.val ring.val u
    refine ⟨fretDrops n.val line.val ring.val u, (fret_sweeps h2 hr hf hl hc).trans (by rw [hu]), by rw [hv]; rfl, ?_, ?_, husable⟩
    · rw [hpeg, hu, setPeg_peg]
    · rw [hunt _ (by decide), hu]
      exact obj_count_same s 1 (by decide)
  · intro n line ring expected tones l u v s h2 hr hf hl hc hu hv
    obtain ⟨hpeg, husable, hunt⟩ := fretDrops_spec n.val line.val ring.val u
    refine ⟨fretDrops n.val line.val ring.val u, (fret_wrong h2 hr hf hl hc).trans (by rw [hu]), by rw [hv]; rfl, ?_, ?_, ?_, husable⟩
    · rw [hpeg, hu, setPeg_peg]
    · rw [hunt _ (by decide), hu, State.obj_of_od ((setPeg_keeps ..).od rfl),
        countLog_counts 1 0 _ _ _ _ (by decide) (by decide), State.obj_count_other _ _ (by decide)]
    · rw [hunt _ (by decide), hu, State.obj_of_od ((setPeg_keeps ..).od rfl), countLog_untouched _ _ _ _ _ _ _ _ (by decide)]
      exact obj_count_same s 1 (by decide)
  · intro n line ring expected tones s h
    exact ⟨s, if_pos h, rfl⟩
  · intro n line s h
    exact ⟨_, if_pos (calTurn_due.2 h), rfl⟩
  · intro n line s h
    exact ⟨s, if_neg fun hc => h (calTurn_due.1 hc), rfl⟩
  · intro n first repeated line s h ha
    obtain ⟨g, hg⟩ := recheckRings_str (n := n.val) (line := line) (turnApplied n line first s)
    have hu : (turnApplied n line first s).str n.val = { s.str n.val with
        turn := none, rotate := some line
        lanes := tset line (calApply s n.val (tget {} line (s.str n.val).lanes) first) (s.str n.val).lanes } := State.str_setStr ..
    have hk : Keeps 1026 s (turnApplied n line first s) :=
      State_count_keeps_k (by decide) (State_setStr_keeps_k (by decide) (Keeps.refl _ s))
    have hod := (recheckRings_kept (m := 1024) (n := n.val) (line := line) (by decide) (Keeps.refl _ (turnApplied n line first s))).od rfl
    refine ⟨_, calTurn_applies h ha, ?_, ?_, ?_, ?_, fun r hr => ?_, fun k hk => ?_, ?_, ?_, (recheckRings_kept (by decide) hk).eq⟩
    · rw [hg, hu]
      exact tget_tset_same ..
    · rw [hg, hu]
    · rw [hg, hu]
    · rw [hg, hu]
    · have hp := recheckRings_pegs (n := n.val) (line := line) (s := turnApplied n line first s) rfl hr
      rw [hu] at hp
      exact hp
    · exact (recheckRings_other _ hk).trans (State.str_setStr_other _ _ hk)
    · rw [State.obj_of_od hod]
      exact obj_count_of_od rfl (by decide)
    · exact fun k hk => (State.obj_of_od hod k).trans (count_untouched_of_od rfl k hk)
  · intro n first repeated line u s h ha hu
    have hlim : (countLog Obj.calRefused 0 0x1801 (stringEnds n.val).1 n.val (leBytes 1 line) u).obj Obj.calRefusalLimit =
        s.obj Obj.calRefusalLimit :=
      (countLog_untouched _ _ _ _ _ _ _ _ (by decide)).trans (State.obj_of_od (by rw [hu]; rfl) _)
    have hcount : (countLog Obj.calRefused 0 0x1801 (stringEnds n.val).1 n.val (leBytes 1 line) u).obj Obj.calRefused =
        (s.obj Obj.calRefused + 1) % 2 ^ objBits Obj.calRefused :=
      (countLog_counts 0 0x1801 _ _ _ _ (by decide) (by decide)).trans (by rw [State.obj_of_od (s := s) (by rw [hu]; rfl)])
    refine ⟨_, (calTurn_refuses h ha).trans ?_, rfl, ?_, ?_⟩
    · rw [← hlim, hu]
      rfl
    · split
      · exact dropLine_turn ..
      · rw [State.str_of_strings ((countLog_keeps ..).strings rfl), hu, State.str_setStr]
    · split
      · exact (dropLine_untouched _ _ _ _ _ (by decide)).trans hcount
      · exact hcount
  · intro n first repeated s h
    refine ⟨s, ?_, rfl⟩
    show execCalTurnDone n first repeated s = _
    unfold execCalTurnDone
    simp only [h]
  · intro powers u s h hu
    obtain ⟨h6, -, hunt, hk⟩ := startTraining_spec s.sounding.string u
    refine ⟨_, (if_neg (not_not.2 h)).trans (by rw [hu]; rfl), rfl, ?_, h6, ?_⟩
    · exact (hk.sounding rfl).trans (by rw [hu]; rfl)
    · rw [hunt _ (by decide), hu]
      exact soundingKept_runs powers s
  · intro powers s h
    obtain ⟨h6, hother, hunt, hk⟩ := startTraining_spec s.sounding.string (soundingKept powers s)
    refine ⟨startTraining s.sounding.string (soundingKept powers s), if_neg (not_not.2 h), hk.sounding rfl, h6, fun k hn hr => ?_, ?_, ?_, ?_, ?_⟩
    · exact hother k hn hr
    · rw [hunt _ (by decide), soundingKept_points]
    · rw [hunt _ (by decide), soundingKept_runs]
    · intro k hk
      rw [List.mem_append, not_or] at hk
      exact (hunt k hk.2).trans (soundingKept_untouched powers s k hk.1)
    · exact ((soundingKept_kept powers s).tr (hk.mono (by decide))).eq
  · exact fun powers s h => ⟨s, if_pos h, rfl⟩

end Sys2Proof.Machine
end

section
/-! PROOFS. Cartridges and the spares they are asked for (O26): what a request for a spare and an abrupt loss leave of the domains
and the cartridges. -/

namespace Sys2Proof.Machine

/-! ### The reason that cartridges give -/

theorem enterServed_untouched {n : Nat} (hn : 4 ≤ n ∧ n ≤ 7) (s : State) : Untouched logCounters s (enterState n s) := by
  obtain ⟨h4, h7⟩ := hn
  unfold enterState
  split
  · exact Untouched.refl _ s
  · dsimp only
    rw [if_neg (by omega), if_neg (by omega)]
    exact Untouched.trans (l := []) (.of_od rfl) (traceMake_untouched _ _ _ _ _) (by simp)

theorem settleReasons_kept (s : State) : Keeps 68786585602 s (settleReasons s) := by
  unfold settleReasons
  split
  · exact enterServed_keeps (n := 6) (by decide) (Keeps.refl _ s)
  · split
    · exact enterServed_keeps (n := 5) (by decide) (Keeps.refl _ s)
    · exact Keeps.refl _ s

theorem settleReasons_untouched (s : State) : Untouched logCounters s (settleReasons s) := by
  unfold settleReasons
  split
  · exact enterServed_untouched (n := 6) (by decide) s
  · split
    · exact enterServed_untouched (n := 5) (by decide) s
    · exact Untouched.refl _ s

theorem setReason_kept (bit : Nat) (on : Bool) (s : State) : Keeps 68786585602 s (setReason bit on s) := by
  unfold setReason
  exact (State_setObj_keeps_k (m := 68786585602) (by decide) (Keeps.refl _ s)).tr (settleReasons_kept _)

theorem setReason_untouched (bit : Nat) (on : Bool) (s : State) :
    Untouched (Obj.stateReasons :: logCounters) s (setReason bit on s) := by
  intro k hk
  rw [List.mem_cons, not_or] at hk
  unfold setReason
  exact (settleReasons_untouched _ k hk.2).trans (State.obj_setObj_other _ _ hk.1)

theorem settleHarp_kept (s : State) : Keeps 68786585602 s (settleHarp s) := by
  unfold settleHarp
  dsimp only
  split
  · exact Keeps.refl _ s
  · exact setReason_kept ..

theorem settleHarp_untouched (s : State) : Untouched (Obj.stateReasons :: logCounters) s (settleHarp s) := by
  unfold settleHarp
  dsimp only
  split
  · exact Untouched.refl _ s
  · exact setReason_untouched _ _ _

/-! ### A request for a spare -/

theorem State.domain_of_domains {s t : State} (h : t.domains = s.domains) (j : Nat) : t.domain j = s.domain j := by
  rw [State.domain, State.domain, h]

theorem State.harp_of_harps {s t : State} (h : t.harps = s.harps) (j : Nat) : t.harp j = s.harp j := by
  rw [State.harp, State.harp, h]

/-- The spare that a domain may have: one of the two in its place that is cold or ready, that feeds and serves no domain, and
that the domain has not refused. -/
def freeSpare (s : State) (d k : Nat) : Bool :=
  ((s.harp k).role == 2 || (s.harp k).role == 4) && (fedBy s k).isNone && (assignedTo s k).isNone &&
    !(s.domain d).refused.contains k

/-- A spare on its way to a domain. -/
def spareComes (d k : Nat) (s : State) : State :=
  let role := if (s.harp k).role = 4 then 4 else 3
  settleHarp (traceStep d 1 (((setRole k role s).setHarp k { (setRole k role s).harp k with led := 0 }).setDomain d
    { s.domain d with target := some k, state := if (s.harp k).role = 4 then 2 else 1, switched := false }))

/-- A domain without a spare. -/
def spareMissing (d : Nat) (s : State) : State :=
  settleHarp (logEvent (Obj.handoverStateD + d) 1 0 0xFF d [] (s.setDomain d { s.domain d with target := none, state := 5 }))

theorem requestSpare_cases (d : Nat) (s : State) :
    (∃ k, (k = 8 ∨ k = 9) ∧ freeSpare s d k = true ∧ requestSpare d s = spareComes d k s) ∨
      requestSpare d s = spareMissing d s := by
  unfold requestSpare
  dsimp only
  split
  · rename_i k hk
    left
    refine ⟨k, by simpa using List.mem_of_find?_eq_some hk, ?_, ?_⟩
    · have := List.find?_some hk
      exact this
    · unfold spareComes
      by_cases h4 : (s.harp k).role = 4
      · simp only [h4, decide_true, if_true]
      · simp only [h4, decide_false, if_false, Bool.false_eq_true]
  · exact .inr rfl

theorem requestSpare_kept (d : Nat) (s : State) : Keeps 206225588226 s (requestSpare d s) := by
  rcases requestSpare_cases d s with ⟨k, -, -, h⟩ | h
  · rw [h]
    refine Keeps.tr ?_ ((settleHarp_kept _).mono (by decide))
    exact traceStep_keeps_k (by decide) (State_setDomain_keeps_k (by decide) (State_setHarp_keeps_k (by decide)
      (setRole_keeps_k (by decide) (Keeps.refl _ s))))
  · rw [h]
    refine Keeps.tr ?_ ((settleHarp_kept _).mono (by decide))
    exact logEvent_keeps_k (by decide) (State_setDomain_keeps_k (by decide) (Keeps.refl _ s))

theorem requestSpare_untouched (d : Nat) (s : State) : Untouched (Obj.stateReasons :: logCounters) s (requestSpare d s) := by
  rcases requestSpare_cases d s with ⟨k, -, -, h⟩ | h
  · rw [h]
    refine Untouched.trans (l := Obj.stateReasons :: logCounters) ?_ (settleHarp_untouched _) fun _ hx => hx
    exact Untouched.trans (l := []) (.of_od rfl)
      ((traceMake_untouched _ _ _ _ _).mono fun _ hx => List.mem_cons_of_mem _ hx) (by simp)
  · rw [h]
    refine Untouched.trans (l := Obj.stateReasons :: logCounters) ?_ (settleHarp_untouched _) fun _ hx => hx
    exact Untouched.trans (l := []) (.of_od rfl)
      ((logEvent_untouched _ _ _ _ _ _ _).mono fun _ hx => List.mem_cons_of_mem _ hx) (by simp)

/-- A domain but for the spare it waits for. -/
def Domain.gauged (x : Domain) : Domain := { x with target := none, state := 0, switched := false }

theorem spareComes_domains (d k : Nat) (s : State) : (spareComes d k s).domains = (s.setDomain d
    { s.domain d with target := some k, state := if (s.harp k).role = 4 then 2 else 1, switched := false }).domains :=
  ((settleHarp_kept _).domains rfl).trans ((traceStep_keeps ..).domains rfl)

theorem spareMissing_domains (d : Nat) (s : State) :
    (spareMissing d s).domains = (s.setDomain d { s.domain d with target := none, state := 5 }).domains :=
  ((settleHarp_kept _).domains rfl).trans ((logEvent_keeps ..).domains rfl)

theorem requestSpare_other {d k : Nat} (s : State) (h : k ≠ d) : (requestSpare d s).domain k = s.domain k := by
  rcases requestSpare_cases d s with ⟨j, -, -, he⟩ | he
  · rw [he, State.domain_of_domains (spareComes_domains ..), State.domain_setDomain_other _ _ h]
  · rw [he, State.domain_of_domains (spareMissing_domains ..), State.domain_setDomain_other _ _ h]

/-- A domain that asks for a spare keeps its source, its measurements and what it has refused. -/
theorem requestSpare_gauged (d : Nat) (s : State) : ((requestSpare d s).domain d).gauged =
    { (s.domain d).gauged with switched := ((requestSpare d s).domain d).gauged.switched } := by
  rcases requestSpare_cases d s with ⟨j, -, -, he⟩ | he
  · rw [he, State.domain_of_domains (spareComes_domains ..), State.domain_setDomain]
    rfl
  · rw [he, State.domain_of_domains (spareMissing_domains ..), State.domain_setDomain]
    rfl

theorem requestSpare_gauged_any (d j : Nat) (s : State) : ((requestSpare d s).domain j).gauged = (s.domain j).gauged := by
  by_cases h : j = d
  · rw [h, requestSpare_gauged]
    rfl
  · rw [requestSpare_other s h]

/-- A spare is not one that its domain has refused. -/
theorem requestSpare_target {d k : Nat} {s : State} (h : k ∈ (s.domain d).refused) :
    ((requestSpare d s).domain d).target ≠ some k := by
  rcases requestSpare_cases d s with ⟨j, -, hf, he⟩ | he
  · rw [he, State.domain_of_domains (spareComes_domains ..), State.domain_setDomain]
    intro hj
    rw [Option.some.inj hj] at hf
    unfold freeSpare at hf
    rw [Bool.and_eq_true, Bool.not_eq_true', ← Bool.not_eq_true, List.contains_iff_mem] at hf
    exact hf.2 h
  · rw [he, State.domain_of_domains (spareMissing_domains ..), State.domain_setDomain]
    exact fun hj => by cases hj

theorem spareMissing_harps (d : Nat) (s : State) : (spareMissing d s).harps = s.harps :=
  ((settleHarp_kept _).harps rfl).trans ((logEvent_keeps ..).harps rfl)

theorem spareComes_harps (d k : Nat) (s : State) : (spareComes d k s).harps =
    ((setRole k (if (s.harp k).role = 4 then 4 else 3) s).setHarp k
      { (setRole k (if (s.harp k).role = 4 then 4 else 3) s).harp k with led := 0 }).harps :=
  ((settleHarp_kept _).harps rfl).trans ((traceStep_keeps ..).harps rfl)

/-- A request for a spare keeps every cartridge's powers. -/
theorem requestSpare_power (d j : Nat) (s : State) : ((requestSpare d s).harp j).power = (s.harp j).power := by
  rcases requestSpare_cases d s with ⟨k, -, -, he⟩ | he
  · rw [he, State.harp_of_harps (spareComes_harps ..)]
    by_cases h : j = k
    · rw [h, State.harp_setHarp]
      unfold setRole
      rw [State.harp_setHarp]
    · rw [State.harp_setHarp_other _ _ h]
      unfold setRole
      rw [State.harp_setHarp_other _ _ h]
  · rw [he, State.harp_of_harps (spareMissing_harps ..)]

/-- A request for a spare leaves every cartridge alone that is neither cold nor ready. -/
theorem requestSpare_harp {d j : Nat} {s : State} (h2 : (s.harp j).role ≠ 2) (h4 : (s.harp j).role ≠ 4) :
    (requestSpare d s).harp j = s.harp j := by
  rcases requestSpare_cases d s with ⟨k, -, hf, he⟩ | he
  · have h : j ≠ k := by
      rintro rfl
      unfold freeSpare at hf
      rw [beq_false_of_ne h2, beq_false_of_ne h4] at hf
      exact absurd hf (by simp)
    rw [he, State.harp_of_harps (spareComes_harps ..), State.harp_setHarp_other _ _ h]
    unfold setRole
    rw [State.harp_setHarp_other _ _ h]
  · rw [he, State.harp_of_harps (spareMissing_harps ..)]

/-! ### An abrupt loss -/

/-- A domain whose light is lost at once. -/
def Domain.cut (x : Domain) : Domain := { x with abrupt := true, lost := true }

/-- A loss as far as its lines and rings, before a spare is asked for. -/
def lossSettled (d : Nat) (lines : List Nat) (s : State) : State :=
  settleHarp (linePegs d lines (fun p => { p with frozen := true }) (darken d lines
    (countLog Obj.harpAbruptLosses 1 0 0xFF d [] (s.setDomain d (s.domain d).cut))))

theorem abruptLoss_eq (d : Nat) (lines : List Nat) (s : State) : abruptLoss d lines s =
    if handoverOn (lossSettled d lines s) d then lossSettled d lines s else requestSpare d (lossSettled d lines s) := rfl

theorem lossSettled_domains (d : Nat) (lines : List Nat) (s : State) :
    (lossSettled d lines s).domains = (s.setDomain d (s.domain d).cut).domains :=
  ((settleHarp_kept _).domains rfl).trans (((linePegs_keeps ..).domains rfl).trans
    (((darken_keeps ..).domains rfl).trans ((countLog_keeps ..).domains rfl)))

theorem lossSettled_harps (d : Nat) (lines : List Nat) (s : State) : (lossSettled d lines s).harps = s.harps :=
  ((settleHarp_kept _).harps rfl).trans (((linePegs_keeps ..).harps rfl).trans
    (((darken_keeps ..).harps rfl).trans ((countLog_keeps ..).harps rfl)))

theorem lossSettled_kept (d : Nat) (lines : List Nat) (s : State) : Keeps 1890420450675 s (lossSettled d lines s) := by
  refine Keeps.tr ?_ ((settleHarp_kept _).mono (by decide))
  exact linePegs_keeps_k (by decide) (darken_keeps_k (by decide) (countLog_keeps_k (by decide)
    (State_setDomain_keeps_k (by decide) (Keeps.refl _ s))))

theorem abruptLoss_kept (d : Nat) (lines : List Nat) (s : State) : Keeps 1890420450675 s (abruptLoss d lines s) := by
  rw [abruptLoss_eq]
  split
  · exact lossSettled_kept ..
  · exact (lossSettled_kept ..).tr ((requestSpare_kept ..).mono (by decide))

theorem abruptLoss_gauged (d j : Nat) (lines : List Nat) (s : State) :
    ((abruptLoss d lines s).domain j).gauged = ((s.setDomain d (s.domain d).cut).domain j).gauged := by
  have h := State.domain_of_domains (lossSettled_domains d lines s) j
  rw [abruptLoss_eq]
  split
  · rw [h]
  · rw [requestSpare_gauged_any, h]

theorem abruptLoss_other {d j : Nat} (lines : List Nat) (s : State) (hj : j ≠ d) :
    (abruptLoss d lines s).domain j = s.domain j := by
  have h := (State.domain_of_domains (lossSettled_domains d lines s) j).trans (State.domain_setDomain_other _ _ hj)
  rw [abruptLoss_eq]
  split
  · exact h
  · exact (requestSpare_other _ hj).trans h

theorem abruptLoss_power (d j : Nat) (lines : List Nat) (s : State) :
    ((abruptLoss d lines s).harp j).power = (s.harp j).power := by
  have h := congrArg Harp.power (State.harp_of_harps (lossSettled_harps d lines s) j)
  rw [abruptLoss_eq]
  split
  · exact h
  · exact (requestSpare_power ..).trans h

end Sys2Proof.Machine
end

section
/-! PROOFS. Cartridges inserted, tested, removed and monitored (O26). -/

namespace Sys2Proof.Machine

/-! ### A cartridge inserted or removed -/

theorem newCartridge_domain (slot : Nat) (s : State) (k : Nat) :
    (newCartridge slot s).domain k = { s.domain k with refused := (s.domain k).refused.filter (· != slot) } := by
  rcases tget_map_entry ({} : Domain) k (fun p => (p.1, { p.2 with refused := p.2.refused.filter (· != slot) }))
    (fun _ => rfl) s.domains with ⟨h0, h1⟩ | h
  · have hk : s.domain k = {} := h1
    rw [hk]
    exact h0
  · exact h

/-- A cartridge as it is inserted. -/
def inserted (slot : Nat) (serial : W64) (hours : W32) (s : State) : State :=
  newCartridge slot (s.setHarp slot { role := 3, serial, hours, latch := true, shutter := s.dev.started })

theorem inserted_spec (slot : Nat) (serial : W64) (hours : W32) (s : State) :
    (inserted slot serial hours s).harp slot = { role := 3, serial, hours, latch := true, shutter := s.dev.started } ∧
      (∀ k, k ≠ slot → (inserted slot serial hours s).harp k = s.harp k) ∧
      (∀ k, (inserted slot serial hours s).domain k =
        { s.domain k with refused := (s.domain k).refused.filter (· != slot) }) :=
  ⟨tget_tset_same .., fun _ hk => tget_tset_other _ _ _ hk, fun k => newCartridge_domain ..⟩

/-- The state without a cartridge, its handover asking for the other spare. -/
def withdrawn (slot : Nat) (s : State) : State :=
  (assignedTo s slot).elim (newCartridge slot (s.setHarp slot {})) fun d =>
    if (s.domain d).state = 3 then newCartridge slot (s.setHarp slot {})
    else requestSpare d ((newCartridge slot (s.setHarp slot {})).setDomain d
      { (newCartridge slot (s.setHarp slot {})).domain d with target := none })

theorem cartridgeRemoved_eq {slot : HarpSlot} {s : State} (h : (s.harp slot.val).role ≠ 0) :
    execCartridgeRemoved slot s = .next ((fedBy s slot.val).elim (withdrawn slot.val s) fun d =>
      abruptLoss d (List.range 17) ((withdrawn slot.val s).setDomain d { (withdrawn slot.val s).domain d with source := 3 })) := by
  have hstate (d : Nat) : ((newCartridge slot.val (s.setHarp slot.val {})).domain d).state = (s.domain d).state := by
    rw [newCartridge_domain]
    rfl
  unfold execCartridgeRemoved withdrawn
  refine (if_neg h).trans ?_
  cases assignedTo s slot.val with
  | none => cases fedBy s slot.val <;> rfl
  | some d =>
    dsimp only [Option.elim_some]
    rw [hstate]
    cases fedBy s slot.val <;> rfl

/-! ### A test that ends -/

/-- A cartridge with the levels of its test. -/
def harpMeasured (slot : Nat) (lines : List HarpLine) (s : State) : State :=
  s.setHarp slot { (s.harp slot) with power := lines.map (·.power), offset := lines.map (·.offset) }

section
variable {slot : HarpSlot} {lines : List HarpLine} {s : State}
  (hr : (s.harp slot.val).role = 3 ∨ (s.harp slot.val).role = 7) (ha : assignedTo s slot.val = none)
include hr ha

theorem harpTest_guard : ¬ ((!decide ((s.harp slot.val).role = 3 ∨ (s.harp slot.val).role = 7)) = true ∨
    (assignedTo s slot.val).isSome = true) := by
  rw [decide_eq_true hr, ha]
  decide

theorem harpTest_passes (hp : harpPasses lines = true) :
    execHarpTestDone slot lines s = if 8 ≤ slot.val then .next (serveWaiting (setRole slot.val 2 (harpMeasured slot lines s)))
      else if (s.domain slot.val).source = 3 then
        .next (serveWaiting (settleHarp (State.setDomain ((s.domain slot.val).target.elim
          (setRole slot.val 1 (harpMeasured slot lines s)) fun t => setRole t 2 (setRole slot.val 1 (harpMeasured slot lines s)))
          slot.val { s.domain slot.val with source := 0, state := 0, target := none, lost := false })))
      else .next (startReturn slot.val (setRole slot.val 8 (harpMeasured slot lines s))) := by
  unfold execHarpTestDone
  refine (if_neg (harpTest_guard hr ha)).trans ((if_neg (by rw [hp]; decide)).trans ?_)
  have hm : ((s.setHarp slot.val { (s.harp slot.val) with power := lines.map (·.power), offset := lines.map (·.offset) }).domain
      slot.val).target = (s.domain slot.val).target := rfl
  cases ht : (s.domain slot.val).target with
  | none =>
    rw [ht] at hm
    simp only [hm]
    rfl
  | some t =>
    rw [ht] at hm
    simp only [hm]
    rfl

theorem harpTest_fails (hp : harpPasses lines = false) :
    execHarpTestDone slot lines s = .next (if slot.val < 8 ∧ (s.domain slot.val).source = 3 ∧ (!handoverOn s slot.val) = true then
      requestSpare slot.val (harpFails slot.val (testCode lines) (harpMeasured slot lines s))
      else harpFails slot.val (testCode lines) (harpMeasured slot lines s)) := by
  have hd : (harpFails slot.val (testCode lines) (harpMeasured slot lines s)).domains = s.domains :=
    (harpFails_keeps ..).domains rfl
  have hs : ((harpFails slot.val (testCode lines) (harpMeasured slot lines s)).domain slot.val) = s.domain slot.val :=
    State.domain_of_domains hd _
  have hh : handoverOn (harpFails slot.val (testCode lines) (harpMeasured slot lines s)) slot.val = handoverOn s slot.val := by
    unfold handoverOn
    rw [hs]
  unfold execHarpTestDone
  refine (if_neg (harpTest_guard hr ha)).trans ((if_pos (by rw [hp]; rfl)).trans ?_)
  rw [← hh, ← hs]
  rfl

end

theorem harpFails_harp (slot code : Nat) (s : State) :
    (harpFails slot code s).harp slot = { s.harp slot with role := 6, led := 2, shutter := false } := by
  unfold harpFails
  rw [State.harp_of_harps ((logEvent_keeps ..).harps rfl), State.harp_setHarp]

/-! ### A monitor's sample -/

/-- A cartridge with the powers of a sample, under test once every line is at its level. -/
def levelled (slot : Nat) (power : List Int) (s : State) : State :=
  s.setHarp slot { (s.harp slot) with
    power, role := if (s.harp slot).role = 3 ∧ power.all (fun p => 2100 ≤ p && p ≤ 2200) then 7 else (s.harp slot).role }

def fallOf (s : State) (d : Nat) (power : List Int) : List Int :=
  (List.range 17).map (fun l => (s.domain d).ref.getD l 0 - power.getD l 0)

def marginOf (s : State) (d : Nat) (fall : List Int) : Int :=
  listMin 800 ((List.range 17).map (fun l => (s.domain d).base.getD l 800 - fall.getD l 0))

def crossedOf (s : State) (d : Nat) (dm : Int) : List Bool :=
  if (s.domain d).base.isEmpty then (s.domain d).crossed else crossings (domainThresholds s) (s.domain d).crossed dm

/-- A domain with the falls of a sample. -/
def gaugeSet (slot d : Nat) (power : List Int) (s : State) : State :=
  (levelled slot power s).setDomain d { s.domain d with
    fall := fallOf s d power, margin := marginOf s d (fallOf s d power)
    crossed := crossedOf s d (marginOf s d (fallOf s d power))
    hourSum := (s.domain d).hourSum + listMax 0 (fallOf s d power), hourN := (s.domain d).hourN + 1
    forced := (s.domain d).forced || (crossedOf s d (marginOf s d (fallOf s d power))).getD 2 false }

/-- The warning of a sample. -/
def gaugeWarned (d : Nat) (dm : Int) (now old : List Bool) (u : State) : State :=
  if now.getD 0 false && !old.getD 0 false then
    logEvent (Obj.domainMarginD + d) 1 0 0xFF d (leBytes 2 (wrapTo 16 dm)) u
  else u

/-- The spare that a sample asks for. -/
def gaugeAsked (d : Nat) (now : List Bool) (v : State) : State :=
  if now.getD 1 false = true ∧ handoverOn v d = false ∧ (v.domain d).state ≠ 5 then requestSpare d v else v

/-- The reason that a sample gives. -/
def gaugeFailing (d : Nat) (now old : List Bool) (w : State) : State :=
  settleHarp (if now.getD 3 false && !old.getD 3 false then logEvent (Obj.handoverStateD + d) 1 0 0xFF d [] w else w)

/-- The lines whose light is lost at once. -/
def linesLost (slot : Nat) (power : List Int) (s : State) : List Nat :=
  (List.range 17).filter (fun l => (s.harp slot).power.getD l 0 - power.getD l 0 > 300)

/-- The state of a sample before its losses. -/
def gauged (slot d : Nat) (power : List Int) (s : State) : State :=
  gaugeFailing d (crossedOf s d (marginOf s d (fallOf s d power))) (s.domain d).crossed
    (gaugeAsked d (crossedOf s d (marginOf s d (fallOf s d power)))
      (gaugeWarned d (marginOf s d (fallOf s d power)) (crossedOf s d (marginOf s d (fallOf s d power))) (s.domain d).crossed
        (gaugeSet slot d power s)))

theorem gaugeAsked_eq (d : Nat) (now : List Bool) (v : State) :
    (if now.getD 1 false = true ∧ (!handoverOn v d) = true ∧ (v.domain d).state ≠ 5 then requestSpare d v else v) =
      gaugeAsked d now v := if_congr (by rw [Bool.not_eq_true']) rfl rfl

theorem levelled_eq (slot : Nat) (power : List Int) (s : State) :
    s.setHarp slot { (s.harp slot) with
      power, role := if (decide ((s.harp slot).role = 3) && power.all (fun p => 2100 ≤ p && p ≤ 2200)) = true then 7
        else (s.harp slot).role } = levelled slot power s := by
  have h : (if (decide ((s.harp slot).role = 3) && power.all (fun p => decide (2100 ≤ p) && decide (p ≤ 2200))) = true then 7
      else (s.harp slot).role) = if (s.harp slot).role = 3 ∧ power.all (fun p => decide (2100 ≤ p) && decide (p ≤ 2200)) = true
      then 7 else (s.harp slot).role := if_congr (by rw [Bool.and_eq_true, decide_eq_true_eq]) rfl rfl
  rw [h]
  rfl

theorem monitor_unfed {slot : HarpSlot} {power : List Int} {s : State} (h0 : (s.harp slot.val).role ≠ 0)
    (hl : power.length = 17) (hf : fedBy s slot.val = none) :
    execHarpMonitorSample slot power s = .next (levelled slot.val power s) := by
  have hf' : fedBy (levelled slot.val power s) slot.val = none := hf
  unfold execHarpMonitorSample
  refine (if_neg (by rw [not_or, not_not]; exact ⟨h0, hl⟩)).trans ?_
  dsimp only
  rw [levelled_eq]
  simp only [hf']

theorem monitor_fed {slot : HarpSlot} {d : Nat} {power : List Int} {s : State} (h0 : (s.harp slot.val).role ≠ 0)
    (hl : power.length = 17) (hf : fedBy s slot.val = some d) :
    execHarpMonitorSample slot power s = .next (if (linesLost slot power s).isEmpty then gauged slot d power s
      else abruptLoss d (linesLost slot power s) (gauged slot d power s)) := by
  have hf' : fedBy (levelled slot.val power s) slot.val = some d := hf
  unfold execHarpMonitorSample
  refine (if_neg (by rw [not_or, not_not]; exact ⟨h0, hl⟩)).trans ?_
  dsimp only
  rw [levelled_eq]
  simp only [hf', gaugeAsked_eq]
  rfl

/-! ### What a sample leaves of the domains -/

/-- What a domain measures of its feeding cartridge. -/
def Domain.gauge (x : Domain) : List Int × Int × List Bool × Int × Nat × Bool × List Int × List Int :=
  (x.fall, x.margin, x.crossed, x.hourSum, x.hourN, x.forced, x.ref, x.base)

theorem gaugeWarned_kept (d : Nat) (dm : Int) (now old : List Bool) (u : State) :
    Keeps 206158430210 u (gaugeWarned d dm now old u) := by
  unfold gaugeWarned
  split
  · exact logEvent_keeps ..
  · exact Keeps.refl _ u

theorem gaugeFailing_kept (d : Nat) (now old : List Bool) (u : State) :
    Keeps 206225539074 u (gaugeFailing d now old u) := by
  unfold gaugeFailing
  refine Keeps.tr ?_ ((settleHarp_kept _).mono (by decide))
  split
  · exact logEvent_keeps_k (by decide) (Keeps.refl _ u)
  · exact Keeps.refl _ u

theorem gaugeAsked_kept (d : Nat) (now : List Bool) (v : State) : Keeps 206225588226 v (gaugeAsked d now v) := by
  unfold gaugeAsked
  split
  · exact requestSpare_kept d v
  · exact Keeps.refl _ v

theorem gaugeAsked_domain (d j : Nat) (now : List Bool) (v : State) :
    ((gaugeAsked d now v).domain j).gauge = (v.domain j).gauge ∧ (j ≠ d → (gaugeAsked d now v).domain j = v.domain j) ∧
      ((gaugeAsked d now v).harp j).power = (v.harp j).power := by
  unfold gaugeAsked
  split
  · exact ⟨(congrArg Domain.gauge (requestSpare_gauged_any d j v) :
      ((requestSpare d v).domain j).gauged.gauge = (v.domain j).gauged.gauge), requestSpare_other v, requestSpare_power d j v⟩
  · exact ⟨rfl, fun _ => rfl, rfl⟩

theorem gauged_spec (slot d : Nat) (power : List Int) (s : State) :
    ((gauged slot d power s).domain d).gauge = ((gaugeSet slot d power s).domain d).gauge ∧
      (∀ j, j ≠ d → (gauged slot d power s).domain j = s.domain j) ∧ ((gauged slot d power s).harp slot).power = power := by
  have hf (now old : List Bool) (u : State) := gaugeFailing_kept d now old u
  have hw (dm : Int) (now old : List Bool) (u : State) := gaugeWarned_kept d dm now old u
  unfold gauged
  refine ⟨?_, fun j hj => ?_, ?_⟩
  · rw [State.domain_of_domains ((hf ..).domains rfl), (gaugeAsked_domain ..).1, State.domain_of_domains ((hw ..).domains rfl)]
  · rw [State.domain_of_domains ((hf ..).domains rfl), (gaugeAsked_domain ..).2.1 hj, State.domain_of_domains ((hw ..).domains rfl)]
    exact State.domain_setDomain_other _ _ hj
  · rw [State.harp_of_harps ((hf ..).harps rfl), (gaugeAsked_domain ..).2.2, State.harp_of_harps ((hw ..).harps rfl)]
    exact congrArg Harp.power (State.harp_setHarp s slot _)

theorem gauged_kept (slot d : Nat) (power : List Int) (s : State) : Keeps 1890420450675 s (gauged slot d power s) := by
  have h : Keeps 1890420450675 s (gaugeSet slot d power s) :=
    State_setDomain_keeps_k (by decide) (State_setHarp_keeps_k (by decide) (Keeps.refl _ s))
  exact ((h.tr ((gaugeWarned_kept ..).mono (by decide))).tr ((gaugeAsked_kept ..).mono (by decide))).tr
    ((gaugeFailing_kept ..).mono (by decide))

theorem gaugeSet_gauge (slot d : Nat) (power : List Int) (s : State) : ((gaugeSet slot d power s).domain d).gauge =
    (fallOf s d power, marginOf s d (fallOf s d power), crossedOf s d (marginOf s d (fallOf s d power)),
      (s.domain d).hourSum + listMax 0 (fallOf s d power), (s.domain d).hourN + 1,
      ((s.domain d).forced || (crossedOf s d (marginOf s d (fallOf s d power))).getD 2 false), (s.domain d).ref,
      (s.domain d).base) := congrArg Domain.gauge (State.domain_setDomain (levelled slot power s) d _)

/-- What a sample of the feeding cartridge leaves. -/
theorem monitored_spec (slot d : Nat) (power : List Int) (lost : List Nat) {s t : State}
    (ht : t = if lost.isEmpty then gauged slot d power s else abruptLoss d lost (gauged slot d power s)) :
    (t.domain d).gauge = ((gaugeSet slot d power s).domain d).gauge ∧ (∀ j, j ≠ d → t.domain j = s.domain j) ∧
      (t.harp slot).power = power ∧ Keeps 1890420450675 s t := by
  obtain ⟨hg, ho, hp⟩ := gauged_spec slot d power s
  have hk := gauged_kept slot d power s
  by_cases hl : lost.isEmpty = true
  · rw [if_pos hl] at ht
    rw [ht]
    exact ⟨hg, ho, hp, hk⟩
  · rw [if_neg hl] at ht
    rw [ht]
    refine ⟨?_, fun j hj => (abruptLoss_other _ _ hj).trans (ho j hj), (abruptLoss_power ..).trans hp, hk.tr (abruptLoss_kept ..)⟩
    have h := abruptLoss_gauged d d lost (gauged slot d power s)
    rw [State.domain_setDomain] at h
    exact (congrArg Domain.gauge h :
      ((abruptLoss d lost (gauged slot d power s)).domain d).gauged.gauge = ((gauged slot d power s).domain d).cut.gauged.gauge).trans hg

/-- Settles O26. -/
theorem cartridges : Obligations.Cartridges := by
  unfold Obligations.Cartridges
  refine ⟨?_, ?_, ?_, ?_, ?_, ?_, ?_, ?_, ?_, ?_, ?_, ?_, ?_, ?_, ?_, ?_, ?_, ?_⟩
  · intro slot serial hours s h
    obtain ⟨hh, ho, hd⟩ := inserted_spec slot.val serial hours s
    refine ⟨if s.powered then (inserted slot.val serial hours s).count Obj.harpInsertions 1 else inserted slot.val serial hours s,
      if_neg (not_not.2 h), ?_⟩
    by_cases hp : s.powered = true
    · rw [if_pos hp, if_pos hp]
      exact ⟨hh, ho, hd, fun _ => obj_count_of_od rfl (by decide), count_untouched_of_od rfl, rfl⟩
    · rw [if_neg hp, if_neg hp]
      exact ⟨hh, ho, hd, fun h => absurd h hp, .of_od rfl, rfl⟩
  · exact fun slot serial hours s h => ⟨s, if_pos h, rfl⟩
  · intro slot lines u s hr ha hu hp h8
    exact ⟨_, (harpTest_passes hr ha hp).trans (if_pos h8), by rw [hu]; rfl⟩
  · intro slot lines u s hr ha hu hp h8 hsrc htgt
    refine ⟨_, (harpTest_passes hr ha hp).trans ((if_neg (by omega)).trans (if_pos hsrc)), ?_⟩
    rw [htgt, hu]
    rfl
  · intro slot lines u k s hr ha hu hp h8 hsrc htgt
    refine ⟨_, (harpTest_passes hr ha hp).trans ((if_neg (by omega)).trans (if_pos hsrc)), ?_⟩
    rw [htgt, hu]
    rfl
  · intro slot lines u s hr ha hu hp h8 hsrc
    exact ⟨_, (harpTest_passes hr ha hp).trans ((if_neg (by omega)).trans (if_neg hsrc)), by rw [hu]; rfl⟩
  · intro slot lines u s hr ha hu hp hno
    have hno' : ¬ (slot.val < 8 ∧ (s.domain slot.val).source = 3 ∧ (!handoverOn s slot.val) = true) := by
      rw [Bool.not_eq_true']; exact hno
    refine ⟨harpFails slot.val (testCode lines) u, (harpTest_fails hr ha hp).trans ?_, rfl, ?_, ?_⟩
    · rw [if_neg hno', hu]; rfl
    · rw [harpFails_harp]
    · rw [harpFails_harp]
  · rintro slot lines u s hr ha hu hp ⟨h8, hsrc, hh⟩
    refine ⟨_, (harpTest_fails hr ha hp).trans (congrArg _ (if_pos ⟨h8, hsrc, by rw [hh]; rfl⟩)), ?_⟩
    rw [hu]
    rfl
  · intro slot lines s h
    refine ⟨s, if_pos ?_, rfl⟩
    rcases h with ⟨h3, h7⟩ | h
    · left
      simp [h3, h7]
    · right
      rwa [Option.isSome_iff_ne_none]
  · intro slot s h hf ha
    refine ⟨_, (cartridgeRemoved_eq h).trans (by rw [hf, Option.elim_none]), ?_, ?_⟩
    · unfold withdrawn
      rw [ha]
      rfl
    · unfold withdrawn
      rw [ha]
      exact tget_tset_same ..
  · intro slot u s h hu
    have hw : withdrawn slot.val s = u := by
      unfold withdrawn
      rw [hu]
      cases assignedTo s slot.val <;> rfl
    refine ⟨_, cartridgeRemoved_eq h, ?_⟩
    rw [hw]
    cases fedBy s slot.val <;> rfl
  · exact fun slot s h => ⟨s, if_pos h, rfl⟩
  · exact fun slot power s h0 hl hf => ⟨_, monitor_unfed h0 hl hf, rfl⟩
  · exact fun slot power s h => ⟨s, if_pos h, rfl⟩
  · intro slot d power fall dm now lost u v w x s h0 hl hf hfall hdm hnow hlost hu hv hw hx
    have hu' : u = gaugeSet slot d power s := by
      rw [hu, hnow, hdm, hfall]
      rfl
    have hx' : x = gauged slot d power s := by
      rw [hx, hw, hv, hu', hnow, hdm, hfall]
      rfl
    refine ⟨_, monitor_fed h0 hl hf, ?_⟩
    rw [hx', hlost]
    rfl
  · intro slot d power fall dm now s h0 hl hf hfall hdm hnow
    obtain ⟨hg, ho, hp, hk⟩ := monitored_spec slot d power (linesLost slot power s) (s := s) rfl
    rw [gaugeSet_gauge] at hg
    simp only [Domain.gauge, Prod.mk.injEq] at hg
    obtain ⟨g1, g2, g3, g4, g5, g6, g7, g8⟩ := hg
    have e1 : fallOf s d power = fall := hfall.symm
    rw [e1] at g1 g2 g3 g4 g6
    have e2 : marginOf s d fall = dm := by rw [hdm]; rfl
    rw [e2] at g2 g3 g6
    have e3 : crossedOf s d dm = now := by rw [hnow]; rfl
    rw [e3] at g3 g6
    exact ⟨_, monitor_fed h0 hl hf, hp, g1, g2, g3, g4, g5, g6, g7, g8, ho, hk.eq⟩
  · exact fun d s h => ⟨_, if_neg h, rfl⟩
  · exact fun d s h => ⟨s, if_pos h, rfl⟩

end Sys2Proof.Machine
end

section
/-! PROOFS. Handovers: the hold, the switch, the release and the fallback (O27). -/

namespace Sys2Proof.Machine

/-! ### A retrain -/

theorem retrain_eq (n : Nat) (s : State) : retrain n s =
    enterString n 4 (countLog Obj.retrains 0 0 (stringEnds n).1 n [] (s.setStr n (recheckRings (s.str n)))) := rfl

theorem enterFrozen_other {n j : Nat} (s : State) (h : j ≠ n) : (enterString n 4 s).str j = s.str j := by
  by_cases h4 : (s.str n).state = 4
  · rw [enterString_self h4]
  · rw [enterString_eq (by decide) h4]
    exact (State.str_of_strings (stringEnters_strings n 4 s) j).trans (State.str_setStr_other _ _ h)

theorem retrain_other {n j : Nat} (s : State) (h : j ≠ n) : (retrain n s).str j = s.str j := by
  rw [retrain_eq, enterFrozen_other _ h, State.str_of_strings ((countLog_keeps ..).strings rfl), State.str_setStr_other _ _ h]

theorem retrain_state (n : Nat) (s : State) : ((retrain n s).str n).state = 4 := enterString_state (by decide)

/-- A string whose rings are to be checked anew, its retrain counted. -/
def retrainNoted (n : Nat) (s : State) : State :=
  countLog Obj.retrains 0 0 (stringEnds n).1 n [] (s.setStr n (recheckRings (s.str n)))

theorem held_of_body {t u : Str} (h : t.body = u.body) : t.held = u.held :=
  (congrArg Str.held h : t.body.held = u.body.held)

theorem retrain_held (n : Nat) (s : State) : ((retrain n s).str n).held = (s.str n).held := by
  have hs : (retrainNoted n s).str n = recheckRings (s.str n) := by
    unfold retrainNoted
    rw [State.str_of_strings ((countLog_keeps ..).strings rfl), State.str_setStr]
  have h : ((enterString n 4 (retrainNoted n s)).str n).body = ((retrainNoted n s).str n).body := enterString_body (by decide) n
  refine (held_of_body h).trans ?_
  rw [hs]
  rfl

theorem retrainNoted_untouched (n : Nat) (s : State) : Untouched (Obj.retrains :: logCounters) s (retrainNoted n s) := by
  intro k hk
  exact (countLog_untouched _ _ _ _ _ _ _ k hk).trans (State.obj_of_od rfl k)

theorem retrain_untouched {n k : Nat} {s : State} (h1 : k ≠ Obj.retrains) (h2 : k ≠ Obj.pathLostTransfers) (h3 : k ∉ logCounters) :
    (retrain n s).obj k = s.obj k := by
  have he : Untouched (Obj.pathLostTransfers :: logCounters) (retrainNoted n s) (enterString n 4 (retrainNoted n s)) :=
    enterString_untouched (by decide)
  refine (he k ?_).trans (retrainNoted_untouched n s k ?_)
  · exact List.not_mem_cons_of_ne_of_not_mem h2 h3
  · exact List.not_mem_cons_of_ne_of_not_mem h1 h3

/-! ### Rings of a domain -/

/-- A string but for its rings. -/
def Str.unpegged (t : Str) : Str := { t with pegs := [] }

theorem linePegs_unpegged (d : Nat) (lines : List Nat) (f : Peg → Peg) (s : State) (n : Nat) :
    ((linePegs d lines f s).str n).unpegged = (s.str n).unpegged := by
  rcases tget_map_entry ({} : Str) n (fun p => if p.1 % 8 = d then (p.1, { p.2 with
      pegs := p.2.pegs.map (fun (q : Nat × Peg) => (q.1, if lines.contains (q.1 / 8) then f q.2 else q.2)) }) else p)
      (fun p => by split <;> rfl) s.strings with ⟨h0, h1⟩ | h
  · exact (congrArg Str.unpegged h0).trans (congrArg Str.unpegged h1).symm
  · refine (congrArg Str.unpegged h).trans ?_
    dsimp only
    split <;> rfl

theorem domainPegs_unpegged (d : Nat) (f : Peg → Peg) (s : State) (n : Nat) :
    ((domainPegs d f s).str n).unpegged = (s.str n).unpegged := linePegs_unpegged ..

/-! ### A handover that is done -/

/-- What a domain is fed by, and how its handover stands. -/
def Domain.feed (x : Domain) : Nat × Bool × Bool × List Nat := (x.source, x.lost, x.forced, x.refused)

theorem feed_of_gauged {x y : Domain} (h : x.gauged = y.gauged) : x.feed = y.feed :=
  (congrArg Domain.feed h : x.gauged.feed = y.gauged.feed)

theorem requestSpare_switched {d j : Nat} {s : State} (h : (s.domain j).switched = false) :
    ((requestSpare d s).domain j).switched = false := by
  by_cases hj : j = d
  · rcases requestSpare_cases d s with ⟨k, -, -, he⟩ | he
    · rw [he, State.domain_of_domains (spareComes_domains ..), hj, State.domain_setDomain]
    · rw [he, State.domain_of_domains (spareMissing_domains ..), hj, State.domain_setDomain]
      rw [hj] at h
      exact h
  · rw [requestSpare_other s hj]
    exact h

/-- What holds of a state where no waiting domain has asked, and is kept by a request, holds once all have asked. -/
theorem serveWaiting_induct {p : State → Prop} {s : State} (h0 : p s) (h : ∀ d u, p u → p (requestSpare d u)) :
    p (serveWaiting s) := by
  unfold serveWaiting
  refine List.foldlRecOn (motive := p) _ _ h0 fun u hu d _ => ?_
  split
  · exact h d u hu
  · exact hu

theorem serveWaiting_kept (s : State) : Keeps 206225588226 s (serveWaiting s) :=
  serveWaiting_induct (Keeps.refl _ s) fun d u hu => hu.tr (requestSpare_kept d u)

theorem serveWaiting_untouched (s : State) : Untouched (Obj.stateReasons :: logCounters) s (serveWaiting s) :=
  serveWaiting_induct (Untouched.refl _ s) fun d u hu => hu.trans (requestSpare_untouched d u) fun _ h => h

theorem serveWaiting_feed (s : State) (j : Nat) : ((serveWaiting s).domain j).feed = (s.domain j).feed :=
  serveWaiting_induct (p := fun u => (u.domain j).feed = (s.domain j).feed) rfl
    fun d u hu => (feed_of_gauged (requestSpare_gauged_any d j u)).trans hu

theorem serveWaiting_switched {s : State} {j : Nat} (h : (s.domain j).switched = false) :
    ((serveWaiting s).domain j).switched = false :=
  serveWaiting_induct (p := fun u => (u.domain j).switched = false) h fun _ _ hu => requestSpare_switched hu

theorem startReturn_feed (d : Nat) (s : State) : ((startReturn d s).domain d).feed = (s.domain d).feed ∧
    ((s.domain d).switched = false → ((startReturn d s).domain d).switched = false) := by
  unfold startReturn
  dsimp only
  split
  · rw [State.domain_of_domains ((traceStep_keeps ..).domains rfl), State.domain_setDomain]
    exact ⟨rfl, fun _ => rfl⟩
  · exact ⟨rfl, fun h => h⟩

theorem startReturn_untouched (d : Nat) (s : State) : Untouched logCounters s (startReturn d s) := by
  unfold startReturn
  dsimp only
  split
  · exact Untouched.trans (l := []) (.of_od rfl) (traceMake_untouched _ _ _ _ _) (by simp)
  · exact Untouched.refl _ s

/-- The source of a handover is left, its target lit. -/
def sourceLeft (d : Nat) (failed : Bool) (s : State) : State :=
  leaveSource (s.domain d).from_ d failed ((s.domain d).target.elim s fun t =>
    (setRole t 1 s).setHarp t { (setRole t 1 s).harp t with led := 0 })

/-- A domain whose handover is over. -/
def Domain.over (x : Domain) : Domain :=
  { x with state := 0, target := none, forced := false, switched := false, lost := false, refused := [] }

/-- A handover as it is over, before returns and spares are looked for. -/
def handoverOver (d : Nat) (failed : Bool) (s : State) : State :=
  setReference d ((domainPegs d (fun p => if p.state = 5 then { p with state := 1, cold := true, steps := 0 } else p)
    (sourceLeft d failed s)).setDomain d (s.domain d).over)

/-- The thresholds of a domain as its new margin crosses them. -/
def recrossed (d : Nat) (s : State) : State :=
  s.setDomain d { s.domain d with crossed := crossings (domainThresholds s) (s.domain d).crossed (s.domain d).margin }

theorem handoverDone_eq (d : Nat) (failed : Bool) (s : State) : handoverDone d failed s =
    serveWaiting (startReturn d (settleHarp (recrossed d (handoverOver d failed s)))) := by
  unfold handoverDone
  refine congrArg serveWaiting (congrArg (startReturn d) (congrArg settleHarp (congrArg (recrossed d) ?_)))
  unfold handoverOver sourceLeft
  cases (s.domain d).target <;> rfl

theorem sourceLeft_kept (d : Nat) (failed : Bool) (s : State) : Keeps 16384 s (sourceLeft d failed s) := by
  unfold sourceLeft
  refine leaveSource_keeps_k (by decide) ?_
  cases (s.domain d).target with
  | none => exact Keeps.refl _ s
  | some t => exact State_setHarp_keeps_k (by decide) (setRole_keeps_k (by decide) (Keeps.refl _ s))

theorem handoverOver_kept (d : Nat) (failed : Bool) (s : State) : Keeps 50176 s (handoverOver d failed s) := by
  unfold handoverOver
  exact setReference_keeps_k (by decide) (State_setDomain_keeps_k (by decide) (domainPegs_keeps_k (by decide)
    ((sourceLeft_kept d failed s).mono (by decide))))

theorem handoverDone_kept (d : Nat) (failed : Bool) (s : State) : Keeps 206225589250 s (handoverDone d failed s) := by
  rw [handoverDone_eq]
  have h : Keeps 206225589250 s (recrossed d (handoverOver d failed s)) :=
    State_setDomain_keeps_k (by decide) ((handoverOver_kept d failed s).mono (by decide))
  exact (startReturn_keeps_k (by decide) (h.tr ((settleHarp_kept _).mono (by decide)))).tr ((serveWaiting_kept _).mono (by decide))

theorem handoverDone_untouched (d : Nat) (failed : Bool) (s : State) :
    Untouched (Obj.stateReasons :: logCounters) s (handoverDone d failed s) := by
  rw [handoverDone_eq]
  have h0 : Untouched (Obj.stateReasons :: logCounters) s (recrossed d (handoverOver d failed s)) :=
    .of_od ((handoverOver_kept d failed s).od rfl)
  refine (h0.trans (settleHarp_untouched _) fun _ h => h).trans ?_ fun _ h => h
  exact Untouched.trans ((startReturn_untouched _ _).mono fun _ h => List.mem_cons_of_mem _ h) (serveWaiting_untouched _)
    fun _ h => h

/-- A handover that is done leaves its strings but for rings that had failed, and its domain at rest with the source it has. -/
theorem handoverDone_spec (d : Nat) (failed : Bool) (s : State) :
    (∀ n, ((handoverDone d failed s).str n).unpegged = (s.str n).unpegged) ∧
      ((handoverDone d failed s).domain d).feed = ((s.domain d).source, false, false, []) ∧
      ((handoverDone d failed s).domain d).switched = false := by
  have hd : ((handoverOver d failed s).domain d).feed = ((s.domain d).source, false, false, []) ∧
      ((handoverOver d failed s).domain d).switched = false := by
    unfold handoverOver setReference
    rw [State.domain_setDomain, State.domain_setDomain]
    exact ⟨rfl, rfl⟩
  have hr : ((recrossed d (handoverOver d failed s)).domain d).feed = ((s.domain d).source, false, false, []) ∧
      ((recrossed d (handoverOver d failed s)).domain d).switched = false := by
    unfold recrossed
    rw [State.domain_setDomain]
    exact hd
  have hs : (settleHarp (recrossed d (handoverOver d failed s))).domain d = (recrossed d (handoverOver d failed s)).domain d :=
    State.domain_of_domains ((settleHarp_kept _).domains rfl) d
  obtain ⟨hf, hsw⟩ := startReturn_feed d (settleHarp (recrossed d (handoverOver d failed s)))
  rw [handoverDone_eq]
  refine ⟨fun n => ?_, ?_, ?_⟩
  · rw [State.str_of_strings ((serveWaiting_kept _).strings rfl), State.str_of_strings ((startReturn_keeps ..).strings rfl),
      State.str_of_strings ((settleHarp_kept _).strings rfl)]
    refine Eq.trans (b := ((domainPegs d (fun p => if p.state = 5 then { p with state := 1, cold := true, steps := 0 } else p)
      (sourceLeft d failed s)).str n).unpegged) rfl ?_
    rw [domainPegs_unpegged, State.str_of_strings ((sourceLeft_kept ..).strings rfl)]
  · rw [serveWaiting_feed, hf, hs]
    exact hr.1
  · refine serveWaiting_switched (hsw ?_)
    rw [hs]
    exact hr.2

/-! ### Losses that are over -/

/-- A domain but for its abrupt loss. -/
def Domain.settled (x : Domain) : Domain := { x with abrupt := false }

theorem settleAbrupt_spec (s : State) : Keeps 68786618370 s (settleAbrupt s) ∧
    ∀ j, ((settleAbrupt s).domain j).settled = (s.domain j).settled := by
  have h : ∀ u : State, (Keeps 68786618370 s u ∧ ∀ j, (u.domain j).settled = (s.domain j).settled) →
      (Keeps 68786618370 s (settleHarp u) ∧ ∀ j, ((settleHarp u).domain j).settled = (s.domain j).settled) := by
    rintro u ⟨hk, hd⟩
    refine ⟨hk.tr ((settleHarp_kept u).mono (by decide)), fun j => ?_⟩
    rw [State.domain_of_domains ((settleHarp_kept u).domains rfl)]
    exact hd j
  unfold settleAbrupt
  refine h _ (List.foldlRecOn (motive := fun u => Keeps 68786618370 s u ∧ ∀ j, (u.domain j).settled = (s.domain j).settled) _ _
    ⟨Keeps.refl _ s, fun _ => rfl⟩ fun u hu d _ => ?_)
  obtain ⟨hk, hd⟩ := hu
  dsimp only
  split
  · refine ⟨State_setDomain_keeps_k (by decide) hk, fun j => ?_⟩
    by_cases hj : j = d
    · rw [hj, State.domain_setDomain, ← hd d]
      rfl
    · rw [State.domain_setDomain_other _ _ hj, hd j]
  · exact ⟨hk, hd⟩

/-! ### The strings of a domain -/

theorem domainStrings_nodup (d : Nat) : (domainStrings d).Nodup := List.nodup_range.filter _

/-- A fold that changes each string of a list by itself changes each of them once. -/
theorem foldl_str {α : Type} {p : Str → α} {f : Nat → α → α} {g : State → Nat → State} {l : List Nat} (hn : l.Nodup)
    (hs : ∀ s n, p ((g s n).str n) = f n (p (s.str n))) (ho : ∀ s n k, k ≠ n → (g s n).str k = s.str k) (s : State) :
    (∀ n ∈ l, p ((l.foldl g s).str n) = f n (p (s.str n))) ∧ ∀ n, n ∉ l → (l.foldl g s).str n = s.str n := by
  refine ⟨fun n hm => ?_, fun n hm => ?_⟩
  · exact foldl_once (get := fun s : State => p (s.str n)) (k := n) hn hm (fun s => hs s n)
      (fun s t _ hne => congrArg p (ho s t n hne.symm)) s
  · exact foldl_other (get := fun s : State => s.str n) (fun s t ht => ho s t n fun e => hm (e ▸ ht)) s

/-- A string as a hold finds it. -/
def Str.onHold (t : Str) : Str := { t with held := true, turn := none, rotate := none }

/-- A hold of every string of a list. -/
def holdAll (l : List Nat) (s : State) : State := l.foldl (fun s n => s.setStr n (s.str n).onHold) s

theorem holdAll_str {l : List Nat} (hl : l.Nodup) (s : State) :
    (∀ n ∈ l, (holdAll l s).str n = (s.str n).onHold) ∧ ∀ n, n ∉ l → (holdAll l s).str n = s.str n := by
  unfold holdAll
  exact foldl_str (p := id) (f := fun _ => Str.onHold) hl (fun s n => State.str_setStr ..)
    (fun s n k hk => State.str_setStr_other _ _ hk) s

theorem holdAll_kept (l : List Nat) (s : State) : Keeps 1024 s (holdAll l s) :=
  Keeps.foldl (Keeps.refl _ s) fun x n hx => State_setStr_keeps_k (by decide) hx

/-- A domain whose hold begins at a beat. -/
def Domain.holding (x : Domain) (beat : Nat) : Domain :=
  { x with state := 3, holdBeat := beat, switched := false, from_ := x.source }

/-- A domain's hold as it begins, its strings held. -/
def holdBegins (d : Nat) (u : State) : State := traceStep d 4 (u.setDomain d ((u.domain d).holding u.beat))

theorem holdStart_of {d : DomainId} {s : State} (h : holdReady s d.val = true)
    (ho : (List.range 8).any (fun e => (s.domain e).state == 3 || (e < d.val && holdReady s e)) = false) :
    execCreditHoldStart d s = .next (holdBegins d.val (holdAll (domainStrings d.val)
      (if s.sounding.state = 1 ∧ stringDomain s.sounding.string = d.val then abortSounding s else s))) := by
  unfold execCreditHoldStart
  generalize domainStrings d.val = l
  refine (if_neg ?_).trans rfl
  rw [h, ho]
  decide

/-! ### A switch -/

/-- The domain's light at its target's input, its loops free. -/
def cutOver (d : Nat) (s : State) : State :=
  domainPegs d (fun p => { p with frozen := false }) (s.setDomain d
    { s.domain d with from_ := (s.domain d).source, source := (((s.domain d).target.map inputOf).getD 3) })

/-- The strings of a list after an abrupt switch: those in service retrain, the rings of its buses are checked anew. -/
def cutTrained (l : List Nat) (u : State) : State :=
  (l.filter isBus).foldl (fun s n => s.setStr n (recheckRings (s.str n)))
    ((l.filter (fun n => !isBus n && decide ((u.str n).state ≤ 2))).foldl (fun s n => retrain n s) u)

theorem cutOver_kept (d : Nat) (s : State) : Keeps 33792 s (cutOver d s) :=
  domainPegs_keeps_k (by decide) (State_setDomain_keeps_k (by decide) (Keeps.refl _ s))

theorem cutTrained_kept (l : List Nat) (u : State) : Keeps 1890420401523 u (cutTrained l u) :=
  Keeps.foldl (Keeps.foldl (Keeps.refl _ u) fun x n hx => retrain_keeps_k (by decide) hx)
    fun x n hx => State_setStr_keeps_k (by decide) hx

theorem recheckBus_state (s : State) (m n : Nat) : ((s.setStr m (recheckRings (s.str m))).str n).state = (s.str n).state := by
  by_cases hm : n = m
  · rw [hm, State.str_setStr]
    rfl
  · rw [State.str_setStr_other _ _ hm]

theorem cutTrained_state {l : List Nat} {n : Nat} {u : State} (hl : l.Nodup) (hn : n ∈ l) (hb : isBus n = false)
    (h2 : (u.str n).state ≤ 2) : ((cutTrained l u).str n).state = 4 := by
  unfold cutTrained
  refine (foldl_kept (p := fun s : State => (s.str n).state) (fun u m => recheckBus_state u m n) _ _).trans ?_
  refine (foldl_str (p := Str.state) (f := fun _ _ => 4) (hl.filter _) (fun u m => retrain_state m u)
    (fun u m k hk => retrain_other u hk) u).1 n (List.mem_filter.2 ⟨hn, ?_⟩)
  rw [hb, decide_eq_true h2]
  rfl

theorem state_of_unpegged {t u : Str} (h : t.unpegged = u.unpegged) : t.state = u.state ∧ t.held = u.held ∧
    t.frozenAt = u.frozenAt :=
  ⟨(congrArg Str.state h : t.unpegged.state = u.unpegged.state), (congrArg Str.held h : t.unpegged.held = u.unpegged.held),
    (congrArg Str.frozenAt h : t.unpegged.frozenAt = u.unpegged.frozenAt)⟩

theorem cutOver_state (d n : Nat) (s : State) : ((cutOver d s).str n).state = (s.str n).state := by
  unfold cutOver
  exact (state_of_unpegged (domainPegs_unpegged ..)).1

theorem switch_abrupt {d : DomainId} {s : State} (hl : (s.domain d.val).lost = true)
    (h24 : (s.domain d.val).state = 2 ∨ (s.domain d.val).state = 4) :
    execSelectorSwitch d s = .next (settleAbrupt (handoverDone d.val true (traceStep d.val 5
      (cutTrained (domainStrings d.val) (cutOver d.val s))))) := by
  unfold execSelectorSwitch
  generalize domainStrings d.val = l
  exact (if_pos ⟨hl, h24⟩).trans rfl

/-! ### A release -/

/-- The strings of a list that are held send their unacknowledged frames again. -/
def freeHeld (l : List Nat) (s : State) : State := l.foldl (fun s n => if (s.str n).held then releaseHold n s else s) s

/-- A released hold: the strings go on, the loops run. -/
def holdReleased (d : Nat) (l : List Nat) (s : State) : State :=
  domainPegs d (fun p => { p with frozen := false }) (freeHeld l s)

theorem holdReleased_kept (d : Nat) (l : List Nat) (s : State) : Keeps 1024 s (holdReleased d l s) := by
  refine domainPegs_keeps_k (by decide) (Keeps.foldl (Keeps.refl _ s) fun x n hx => ?_)
  split
  · exact releaseHold_keeps_k (by decide) hx
  · exact hx

theorem releaseIfHeld_same (u : State) (m : Nat) :
    ((if (u.str m).held then releaseHold m u else u).str m).held = false := by
  split
  · exact congrArg Str.held (State.str_setStr ..)
  · rename_i hh
    simpa using hh

theorem releaseIfHeld_other (u : State) {m k : Nat} (hk : k ≠ m) :
    (if (u.str m).held then releaseHold m u else u).str k = u.str k := by
  split
  · exact State.str_setStr_other _ _ hk
  · rfl

theorem holdReleased_held {d n : Nat} {l : List Nat} {s : State} (hl : l.Nodup) (hn : n ∈ l) :
    ((holdReleased d l s).str n).held = false := by
  unfold holdReleased
  refine (state_of_unpegged (domainPegs_unpegged ..)).2.1.trans ?_
  unfold freeHeld
  exact (foldl_str (p := Str.held) (f := fun _ _ => false) hl (fun u m => releaseIfHeld_same u m)
    (fun u m k hk => releaseIfHeld_other u hk) s).1 n hn

/-- The counter of a handover: planned or forced. -/
def handoverCounter (x : Domain) : Nat := if x.forced then Obj.handoversForced else Obj.handoversPlanned

theorem handoverRelease_of {d : DomainId} {s : State} (h3 : (s.domain d.val).state = 3) (hsw : (s.domain d.val).switched = true)
    (hc : checksOver s d.val = true) (hb : s.beat ≤ (s.domain d.val).holdBeat + 1000 * s.obj Obj.handoverHoldLimitUs) :
    execHandoverRelease d s = .next (handoverDone d.val (s.domain d.val).lost (traceStep d.val 10
      ((holdReleased d.val (domainStrings d.val) s).count (handoverCounter (s.domain d.val)) 1))) := by
  unfold execHandoverRelease
  generalize domainStrings d.val = l
  refine (if_neg ?_).trans (congrArg Host.Outcome.next (congrArg (handoverDone d.val (s.domain d.val).lost)
    (congrArg (traceStep d.val 10) rfl)))
  rintro (h | h | h | h)
  · exact h h3
  · rw [hsw] at h
    exact absurd h (by decide)
  · rw [hc] at h
    exact absurd h (by decide)
  · omega

/-! ### A fallback -/

/-- One string of a hold that is over its limit: released, and retrained where it is in service. -/
def fallString (beat : Nat) (s : State) (n : Nat) : State :=
  let u := s.setStr n { s.str n with held := false }
  if (u.str n).state ≤ 2 ∧ !isBus n then
    (retrain n u).setStr n { (retrain n u).str n with frozenAt := some beat, resetAt := some beat }
  else u

/-- What a fallback changes of a string. -/
def Str.fall (t : Str) : Bool × Nat × Option Nat := (t.held, t.state, t.frozenAt)

theorem fallString_same (beat : Nat) (s : State) (n : Nat) : ((fallString beat s n).str n).fall =
    if (s.str n).fall.2.1 ≤ 2 ∧ (!isBus n) = true then (false, 4, some beat)
    else (false, (s.str n).fall.2.1, (s.str n).fall.2.2) := by
  have hu : (s.setStr n { s.str n with held := false }).str n = { s.str n with held := false } := State.str_setStr ..
  change _ = if (s.str n).state ≤ 2 ∧ (!isBus n) = true then (false, 4, some beat)
    else (false, (s.str n).state, (s.str n).frozenAt)
  unfold fallString
  dsimp only
  rw [hu]
  by_cases h : (s.str n).state ≤ 2 ∧ (!isBus n) = true
  · rw [if_pos h, if_pos h, State.str_setStr]
    unfold Str.fall
    dsimp only
    rw [retrain_held, retrain_state, hu]
  · rw [if_neg h, if_neg h, hu]
    rfl

theorem fallString_other (beat : Nat) (s : State) {n k : Nat} (h : k ≠ n) : (fallString beat s n).str k = s.str k := by
  unfold fallString
  dsimp only
  split
  · rw [State.str_setStr_other _ _ h, retrain_other _ h, State.str_setStr_other _ _ h]
  · exact State.str_setStr_other _ _ h

theorem fallString_kept {m beat n : Nat} {s u : State} (e : 1890420401523 ||| m = m) (h : Keeps m s u) :
    Keeps m s (fallString beat u n) := by
  refine h.tr (Keeps.mono ?_ e)
  have h0 : Keeps 1890420401523 u (u.setStr n { u.str n with held := false }) := State_setStr_keeps_k (by decide) (Keeps.refl _ u)
  unfold fallString
  dsimp only
  split
  · exact State_setStr_keeps_k (by decide) (retrain_keeps_k (by decide) h0)
  · exact h0

theorem fallString_obj {beat n k : Nat} {s : State} (h1 : k ≠ Obj.retrains) (h2 : k ≠ Obj.pathLostTransfers)
    (h3 : k ∉ logCounters) : (fallString beat s n).obj k = s.obj k := by
  unfold fallString
  dsimp only
  split
  · exact (State.obj_of_od rfl k).trans ((retrain_untouched h1 h2 h3).trans (State.obj_of_od rfl k))
  · exact State.obj_of_od rfl k

/-- The fallback of a domain, counted, its loops free. -/
def fallNoted (d : Nat) (s : State) : State :=
  domainPegs d (fun p => { p with frozen := false }) (countLog Obj.handoverFallbacks 2 0 0xFF d [] s)

theorem fallNoted_kept (d : Nat) (s : State) : Keeps 206158431234 s (fallNoted d s) :=
  domainPegs_keeps_k (by decide) (countLog_keeps_k (by decide) (Keeps.refl _ s))

theorem fall_of_unpegged {t u : Str} (h : t.unpegged = u.unpegged) : t.fall = u.fall := by
  obtain ⟨h1, h2, h3⟩ := state_of_unpegged h
  unfold Str.fall
  rw [h1, h2, h3]

theorem fallNoted_fall (d n : Nat) (s : State) : ((fallNoted d s).str n).fall = (s.str n).fall := by
  unfold fallNoted
  refine (fall_of_unpegged (domainPegs_unpegged ..)).trans ?_
  rw [State.str_of_strings ((countLog_keeps ..).strings rfl)]

/-- The strings of a list as their hold falls back. -/
def fallAll (l : List Nat) (beat : Nat) (u : State) : State := l.foldl (fallString beat) u

theorem fallAll_kept (l : List Nat) (beat : Nat) (u : State) : Keeps 1890420401523 u (fallAll l beat u) :=
  Keeps.foldl (Keeps.refl _ u) fun _ _ hx => fallString_kept (by decide) hx

theorem fallAll_fall {l : List Nat} {beat n : Nat} {u : State} (hl : l.Nodup) (hn : n ∈ l) : ((fallAll l beat u).str n).fall =
    if (u.str n).fall.2.1 ≤ 2 ∧ (!isBus n) = true then (false, 4, some beat)
    else (false, (u.str n).fall.2.1, (u.str n).fall.2.2) := by
  unfold fallAll
  exact (foldl_str (p := Str.fall) (f := fun n x => if x.2.1 ≤ 2 ∧ (!isBus n) = true then (false, 4, some beat)
    else (false, x.2.1, x.2.2)) hl (fun u m => fallString_same beat u m) (fun u m k hk => fallString_other beat u hk) u).1 n hn

theorem fallAll_obj {l : List Nat} {beat k : Nat} {u : State} (h1 : k ≠ Obj.retrains) (h2 : k ≠ Obj.pathLostTransfers)
    (h3 : k ∉ logCounters) : (fallAll l beat u).obj k = u.obj k := by
  unfold fallAll
  exact foldl_kept (p := fun s : State => s.obj k) (fun _ _ => fallString_obj h1 h2 h3) _ _

/-- The spare of a fallback has failed. -/
def spareFailed (target : Option Nat) (s : State) : State :=
  target.elim s fun t => if (s.harp t).role = 0 then s else harpFails t 0 s

theorem spareFailed_kept (target : Option Nat) (s : State) : Keeps 206158446594 s (spareFailed target s) := by
  unfold spareFailed
  cases target with
  | none => exact Keeps.refl _ s
  | some t =>
    dsimp only [Option.elim_some]
    split
    · exact Keeps.refl _ s
    · exact harpFails_keeps ..

theorem spareFailed_untouched (target : Option Nat) (s : State) : Untouched logCounters s (spareFailed target s) := by
  unfold spareFailed
  cases target with
  | none => exact Untouched.refl _ s
  | some t =>
    dsimp only [Option.elim_some]
    split
    · exact Untouched.refl _ s
    · exact Untouched.trans (l := []) (.of_od rfl) (logEvent_untouched _ _ _ _ _ _ _) (by simp)

theorem spareFailed_role {k : Nat} {s : State} (h : (s.harp k).role ≠ 0) : ((spareFailed (some k) s).harp k).role = 6 := by
  unfold spareFailed
  rw [Option.elim_some, if_neg h, harpFails_harp]

/-- A domain back at the source it had. -/
def Domain.fellBack (x : Domain) : Domain :=
  { x with source := x.from_, target := none, switched := false, refused := x.refused ++ x.target.toList }

/-- The state of a hold over its limit, before the other spare is asked for. -/
def fellBack (d : Nat) (l : List Nat) (s : State) : State :=
  (spareFailed (s.domain d).target (fallAll l (s.domain d).holdBeat (fallNoted d s))).setDomain d (s.domain d).fellBack

theorem holdLimit_of {d : DomainId} {s : State} (h3 : (s.domain d.val).state = 3)
    (hb : (s.domain d.val).holdBeat + 1000 * s.obj Obj.handoverHoldLimitUs ≤ s.beat) :
    execHoldLimitExpiry d s = .next (requestSpare d.val (fellBack d.val (domainStrings d.val) s)) := by
  unfold execHoldLimitExpiry fellBack spareFailed Domain.fellBack
  generalize domainStrings d.val = l
  refine (if_neg (by omega)).trans ?_
  cases (s.domain d.val).target <;> rfl

/-! ### What each command leaves -/

/-- A hold begins: the domain, its strings, and what is left alone. -/
theorem holdBegins_spec {d : Nat} {l : List Nat} (hl : l.Nodup) {s t : State} (ht : t = holdBegins d (holdAll l s)) :
    t.domain d = (s.domain d).holding s.beat ∧ (∀ k, k ≠ d → t.domain k = s.domain k) ∧
      (∀ n ∈ l, t.str n = (s.str n).onHold) ∧ (∀ n, n ∉ l → t.str n = s.str n) ∧ Untouched logCounters s t ∧
      Keeps 68719510530 s t := by
  have hk := holdAll_kept l s
  obtain ⟨hin, hout⟩ := holdAll_str hl s
  have hd : ∀ k, (holdAll l s).domain k = s.domain k := State.domain_of_domains (hk.domains rfl)
  have htd : t.domains = ((holdAll l s).setDomain d (((holdAll l s).domain d).holding (holdAll l s).beat)).domains := by
    rw [ht]
    exact (traceStep_keeps ..).domains rfl
  have hts : t.strings = (holdAll l s).strings := by
    rw [ht]
    exact (traceStep_keeps ..).strings rfl
  refine ⟨?_, fun k hne => ?_, fun n hn => ?_, fun n hn => ?_, ?_, ?_⟩
  · rw [State.domain_of_domains htd, State.domain_setDomain, hd, hk.beat rfl]
  · rw [State.domain_of_domains htd, State.domain_setDomain_other _ _ hne, hd]
  · rw [State.str_of_strings hts, hin n hn]
  · rw [State.str_of_strings hts, hout n hn]
  · intro k hkc
    rw [ht]
    exact (traceMake_untouched _ _ _ _ _ k hkc).trans (State.obj_of_od (hk.od rfl) k)
  · rw [ht]
    exact traceStep_keeps_k (by decide) (State_setDomain_keeps_k (by decide) (hk.mono (by decide)))

theorem settled_feed {x y : Domain} (h : x.settled = y.settled) : x.feed = y.feed :=
  (congrArg Domain.feed h : x.settled.feed = y.settled.feed)

/-- An abrupt switch: the domain's source, its strings, and what is left alone. -/
theorem abruptSwitch_spec {d : Nat} {l : List Nat} (hl : l.Nodup) {s t : State}
    (ht : t = settleAbrupt (handoverDone d true (traceStep d 5 (cutTrained l (cutOver d s))))) :
    (t.domain d).source = (((s.domain d).target.map inputOf).getD 3) ∧ (t.domain d).lost = false ∧
      (∀ n ∈ l, isBus n = false → (s.str n).state ≤ 2 → (t.str n).state = 4) ∧ Keeps 1890420450675 s t := by
  obtain ⟨hstr, hfeed, -⟩ := handoverDone_spec d true (traceStep d 5 (cutTrained l (cutOver d s)))
  obtain ⟨hsk, hsd⟩ := settleAbrupt_spec (handoverDone d true (traceStep d 5 (cutTrained l (cutOver d s))))
  have hdom : (traceStep d 5 (cutTrained l (cutOver d s))).domain d = { s.domain d with
      from_ := (s.domain d).source, source := (((s.domain d).target.map inputOf).getD 3) } := by
    rw [State.domain_of_domains ((traceStep_keeps ..).domains rfl), State.domain_of_domains ((cutTrained_kept ..).domains rfl)]
    unfold cutOver
    rw [State.domain_of_domains ((domainPegs_keeps ..).domains rfl), State.domain_setDomain]
  have hf := (settled_feed (hsd d)).trans hfeed
  rw [hdom, ← ht] at hf
  refine ⟨congrArg Prod.fst hf, congrArg (fun x => x.2.1) hf, fun n hn hb h2 => ?_, ?_⟩
  · rw [ht, State.str_of_strings (hsk.strings rfl), (state_of_unpegged (hstr n)).1,
      State.str_of_strings ((traceStep_keeps ..).strings rfl)]
    exact cutTrained_state hl hn hb (by rw [cutOver_state]; exact h2)
  · rw [ht]
    have h0 : Keeps 1890420450675 s (traceStep d 5 (cutTrained l (cutOver d s))) :=
      traceStep_keeps_k (by decide) (((cutOver_kept d s).mono (by decide)).tr ((cutTrained_kept ..).mono (by decide)))
    exact (h0.tr ((handoverDone_kept ..).mono (by decide))).tr (hsk.mono (by decide))

/-- A release: the strings, the domain, the counter of the handover, and what is left alone. -/
theorem release_spec {d : Nat} {l : List Nat} (hl : l.Nodup) {s t : State}
    (ht : t = handoverDone d (s.domain d).lost (traceStep d 10 ((holdReleased d l s).count (handoverCounter (s.domain d)) 1))) :
    (∀ n ∈ l, (t.str n).held = false) ∧ (t.domain d).switched = false ∧
      (t.domain d).feed = ((s.domain d).source, false, false, []) ∧
      t.obj (handoverCounter (s.domain d)) = (s.obj (handoverCounter (s.domain d)) + 1) % 2 ^ objBits (handoverCounter (s.domain d)) ∧
      Keeps 206225589250 s t := by
  obtain ⟨hstr, hfeed, hsw⟩ := handoverDone_spec d (s.domain d).lost
    (traceStep d 10 ((holdReleased d l s).count (handoverCounter (s.domain d)) 1))
  have hk := holdReleased_kept d l s
  have hdom : (traceStep d 10 ((holdReleased d l s).count (handoverCounter (s.domain d)) 1)).domain d = s.domain d := by
    rw [State.domain_of_domains ((traceStep_keeps ..).domains rfl)]
    exact State.domain_of_domains (hk.domains rfl) d
  have hcounter : handoverCounter (s.domain d) = Obj.handoversForced ∨ handoverCounter (s.domain d) = Obj.handoversPlanned := by
    unfold handoverCounter
    split
    · exact .inl rfl
    · exact .inr rfl
  rw [hdom] at hfeed
  refine ⟨fun n hn => ?_, by rw [ht]; exact hsw, by rw [ht]; exact hfeed, ?_, ?_⟩
  · rw [ht, (state_of_unpegged (hstr n)).2.1, State.str_of_strings ((traceStep_keeps ..).strings rfl)]
    exact holdReleased_held hl hn
  · generalize handoverCounter (s.domain d) = c at ht hcounter ⊢
    have hno : c ∉ Obj.stateReasons :: logCounters := by rcases hcounter with rfl | rfl <;> decide
    have hbits : objBits c ≤ 64 := by rcases hcounter with rfl | rfl <;> decide
    rw [ht, handoverDone_untouched _ _ _ _ hno]
    unfold traceStep
    rw [traceMake_untouched _ _ _ _ _ _ fun hc => hno (List.mem_cons_of_mem _ hc)]
    exact obj_count_of_od (hk.od rfl) hbits
  · rw [ht]
    exact (traceStep_keeps_k (m := 206225589250) (by decide) (State_count_keeps_k (by decide) (hk.mono (by decide)))).tr
      (handoverDone_kept ..)

/-- A fallback: the strings, the domain, its counter, its failed spare, and what is left alone. -/
theorem fallback_spec {d : Nat} {l : List Nat} (hl : l.Nodup) {s t : State} (ht : t = requestSpare d (fellBack d l s)) :
    (∀ n ∈ l, (t.str n).fall = if (s.str n).state ≤ 2 ∧ (!isBus n) = true then (false, 4, some (s.domain d).holdBeat)
        else (false, (s.str n).state, (s.str n).frozenAt)) ∧
      (t.domain d).source = (s.domain d).from_ ∧ (t.domain d).switched = false ∧
      (t.domain d).refused = (s.domain d).refused ++ (s.domain d).target.toList ∧
      t.obj Obj.handoverFallbacks = (s.obj Obj.handoverFallbacks + 1) % 2 ^ objBits Obj.handoverFallbacks ∧
      (∀ k ∈ (s.domain d).target, (s.harp k).role ≠ 0 → (t.harp k).role = 6) ∧ Keeps 1890420450675 s t := by
  have hfall := fallAll_kept l (s.domain d).holdBeat (fallNoted d s)
  have hspare := spareFailed_kept (s.domain d).target (fallAll l (s.domain d).holdBeat (fallNoted d s))
  have hdom : (fellBack d l s).domain d = (s.domain d).fellBack := State.domain_setDomain ..
  have hfeed := feed_of_gauged (requestSpare_gauged_any d d (fellBack d l s))
  rw [hdom, ← ht] at hfeed
  refine ⟨fun n hn => ?_, congrArg Prod.fst hfeed, ?_, congrArg (fun x => x.2.2.2) hfeed, ?_, fun k hk hr => ?_, ?_⟩
  · rw [ht, State.str_of_strings ((requestSpare_kept ..).strings rfl)]
    unfold fellBack
    rw [State.str_of_strings ((State_setDomain_keeps ..).strings rfl), State.str_of_strings (hspare.strings rfl),
      fallAll_fall hl hn, fallNoted_fall]
    rfl
  · rw [ht]
    refine requestSpare_switched ?_
    rw [hdom]
    rfl
  · rw [ht, requestSpare_untouched _ _ _ (by decide)]
    unfold fellBack
    rw [State.obj_of_od ((State_setDomain_keeps ..).od rfl), spareFailed_untouched _ _ _ (by decide),
      fallAll_obj (by decide) (by decide) (by decide)]
    unfold fallNoted
    rw [State.obj_of_od ((domainPegs_keeps ..).od rfl)]
    exact countLog_counts 2 0 _ _ _ _ (by decide) (by decide)
  · have hk' : (s.domain d).target = some k := hk
    have h6 : ((fellBack d l s).harp k).role = 6 := by
      unfold fellBack
      rw [State.harp_of_harps ((State_setDomain_keeps ..).harps rfl), hk']
      refine spareFailed_role ?_
      rw [State.harp_of_harps (hfall.harps rfl), State.harp_of_harps ((fallNoted_kept d s).harps rfl)]
      exact hr
    rw [ht, requestSpare_harp (by rw [h6]; decide) (by rw [h6]; decide), h6]
  · rw [ht]
    have h0 : Keeps 1890420450675 s (fellBack d l s) :=
      State_setDomain_keeps_k (by decide) ((((fallNoted_kept d s).mono (by decide)).tr (hfall.mono (by decide))).tr
        (hspare.mono (by decide)))
    exact h0.tr ((requestSpare_kept ..).mono (by decide))

/-! ### A spare that is tested -/

section
variable {slot : HarpSlot} {lines : List HarpLine} {d : Nat} {s : State} (ha : assignedTo s slot.val = some d)
  (h : (s.domain d).state = 1 ∧ ((s.harp slot.val).role = 3 ∨ (s.harp slot.val).role = 7))
include ha h

theorem spareReady_passes (hp : harpPasses lines = true) : execSpareReady slot lines s =
    .next (traceStep d 3 ((setRole slot.val 4 (harpMeasured slot.val lines s)).setDomain d { s.domain d with state := 2 })) := by
  obtain ⟨h1, hr⟩ := h
  unfold execSpareReady
  simp only [ha]
  refine (if_neg ?_).trans ((if_pos hp).trans rfl)
  rw [decide_eq_true hr, h1]
  decide

theorem spareReady_fails (hp : harpPasses lines = false) : execSpareReady slot lines s =
    .next (requestSpare d ((harpFails slot.val (testCode lines) (harpMeasured slot.val lines s)).setDomain d
      { s.domain d with target := none, refused := (s.domain d).refused ++ [slot.val] })) := by
  obtain ⟨h1, hr⟩ := h
  unfold execSpareReady
  simp only [ha]
  refine (if_neg ?_).trans ((if_neg (by rw [hp]; decide)).trans rfl)
  rw [decide_eq_true hr, h1]
  decide

end

theorem Domain.feed_fields {x : Domain} {a : Nat} {b c : Bool} {r : List Nat} (h : x.feed = (a, b, c, r)) :
    x.source = a ∧ x.lost = b ∧ x.forced = c := by
  unfold Domain.feed at h
  obtain ⟨ha, hr⟩ := Prod.mk.inj h
  obtain ⟨hb, hr⟩ := Prod.mk.inj hr
  exact ⟨ha, hb, (Prod.mk.inj hr).1⟩

theorem Str.fall_fields {x : Str} {a : Bool} {b : Nat} {c : Option Nat} (h : x.fall = (a, b, c)) :
    x.held = a ∧ x.state = b ∧ x.frozenAt = c := by
  unfold Str.fall at h
  obtain ⟨ha, hr⟩ := Prod.mk.inj h
  obtain ⟨hb, hc⟩ := Prod.mk.inj hr
  exact ⟨ha, hb, hc⟩

/-- Settles O27. -/
theorem handovers : Obligations.Handovers := by
  unfold Obligations.Handovers
  refine ⟨?_, ?_, ?_, ?_, ?_, ?_, ?_, ?_, ?_, ?_, ?_, ?_, ?_, ?_, ?_⟩
  · intro slot lines d u s ha h hu hp
    refine ⟨_, spareReady_passes ha h hp, by rw [hu]; rfl, ?_, ?_⟩
    · rw [State.harp_of_harps ((traceStep_keeps ..).harps rfl)]
      exact congrArg Harp.role (State.harp_setHarp (harpMeasured slot.val lines s) slot.val _)
    · rw [State.domain_of_domains ((traceStep_keeps ..).domains rfl), State.domain_setDomain]
  · intro slot lines d u s ha h hu hp
    have hharp : (((harpFails slot.val (testCode lines) (harpMeasured slot.val lines s)).setDomain d
        { s.domain d with target := none, refused := (s.domain d).refused ++ [slot.val] }).harp slot.val) =
        { (harpMeasured slot.val lines s).harp slot.val with role := 6, led := 2, shutter := false } := harpFails_harp ..
    have hk := requestSpare_harp (d := d) (j := slot.val)
      (s := (harpFails slot.val (testCode lines) (harpMeasured slot.val lines s)).setDomain d
        { s.domain d with target := none, refused := (s.domain d).refused ++ [slot.val] })
      (by rw [hharp]; exact (by decide : (6 : Nat) ≠ 2)) (by rw [hharp]; exact (by decide : (6 : Nat) ≠ 4))
    refine ⟨_, spareReady_fails ha h hp, by rw [hu]; rfl, ?_, ?_, ?_⟩
    · rw [hk, hharp]
    · rw [hk, hharp]
    · refine requestSpare_target ?_
      rw [State.domain_setDomain]
      exact List.mem_append_right _ List.mem_cons_self
  · intro slot lines s d ha h
    refine ⟨s, ?_, rfl⟩
    show execSpareReady slot lines s = _
    unfold execSpareReady
    simp only [show assignedTo s slot.val = some d from ha]
    refine if_pos ?_
    by_contra hc
    refine h ?_
    rw [not_or, not_not, Bool.not_eq_true', Bool.not_eq_false, decide_eq_true_eq] at hc
    exact hc
  · intro d u s h ho hu
    refine ⟨_, holdStart_of h ho, ?_⟩
    rw [hu]
    generalize domainStrings d.val = l
    rfl
  · intro d s h ho hns
    obtain ⟨t, ht⟩ : ∃ t, t = holdBegins d.val (holdAll (domainStrings d.val) s) := ⟨_, rfl⟩
    obtain ⟨hd, hother, hin, hout, hunt, hk⟩ := holdBegins_spec (domainStrings_nodup d.val) ht
    exact ⟨t, (holdStart_of h ho).trans (by rw [if_neg hns, ht]), hd, hother, hin, hout, hunt, hk.eq⟩
  · intro d s h
    refine ⟨s, if_pos ?_, rfl⟩
    rwa [Bool.not_eq_true']
  · intro d s hn h3 hsw hb
    refine ⟨_, (if_neg hn).trans (if_pos ⟨h3, by rw [hsw]; rfl, hb⟩), rfl⟩
  · intro d u v s hl h24 hu hv
    refine ⟨_, switch_abrupt hl h24, ?_⟩
    rw [hv, hu]
    generalize domainStrings d.val = l
    rfl
  · intro d s hl h24
    obtain ⟨t, ht⟩ : ∃ t, t = settleAbrupt (handoverDone d.val true (traceStep d.val 5
      (cutTrained (domainStrings d.val) (cutOver d.val s)))) := ⟨_, rfl⟩
    obtain ⟨hsrc, hlost, hstr, hk⟩ := abruptSwitch_spec (domainStrings_nodup d.val) ht
    exact ⟨t, (switch_abrupt hl h24).trans (by rw [ht]), hsrc, hlost, hstr, hk.eq⟩
  · intro d s hn h
    refine ⟨s, (if_neg hn).trans (if_neg ?_), rfl⟩
    rintro ⟨h3, hsw, hb⟩
    rcases h with h | h | h
    · exact h h3
    · rw [h] at hsw
      exact absurd hsw (by decide)
    · omega
  · intro d u s h3 hsw hc hb hu
    refine ⟨_, handoverRelease_of h3 hsw hc hb, ?_⟩
    rw [hu]
    unfold holdReleased freeHeld handoverCounter
    rfl
  · intro d s h3 hsw hc hb
    obtain ⟨t, ht⟩ : ∃ t, t = handoverDone d.val (s.domain d.val).lost (traceStep d.val 10
      ((holdReleased d.val (domainStrings d.val) s).count (handoverCounter (s.domain d.val)) 1)) := ⟨_, rfl⟩
    obtain ⟨hheld, hswt, hfeed, hcount, hk⟩ := release_spec (domainStrings_nodup d.val) ht
    obtain ⟨hsrc, hlost, hforced⟩ := Domain.feed_fields hfeed
    refine ⟨t, (handoverRelease_of h3 hsw hc hb).trans (by rw [ht]), hheld, hswt, hforced, hlost, hsrc, fun hf => ?_, fun hf => ?_,
      (hk.mono (n := 241139237891) (by decide)).eq⟩
    · have hc' : handoverCounter (s.domain d.val) = Obj.handoversPlanned := by rw [handoverCounter, hf]; rfl
      rw [hc'] at hcount
      exact hcount
    · have hc' : handoverCounter (s.domain d.val) = Obj.handoversForced := by rw [handoverCounter, hf]; rfl
      rw [hc'] at hcount
      exact hcount
  · intro d s h
    refine ⟨s, if_pos ?_, rfl⟩
    rwa [Bool.not_eq_true', Bool.not_eq_true']
  · intro d s h3 hb
    obtain ⟨t, ht⟩ : ∃ t, t = requestSpare d.val (fellBack d.val (domainStrings d.val) s) := ⟨_, rfl⟩
    obtain ⟨hfall, hsrc, hsw, href, hcount, hrole, hk⟩ := fallback_spec (domainStrings_nodup d.val) ht
    refine ⟨t, (holdLimit_of h3 hb).trans (by rw [ht]), fun n hn => ?_, fun n hn hbus h2 => ?_, hsrc, hsw, href, hcount, hrole, hk.eq⟩
    · have h := hfall n hn
      split at h
      · exact (Str.fall_fields h).1
      · exact (Str.fall_fields h).1
    · exact (Str.fall_fields ((hfall n hn).trans (if_pos ⟨h2, by rw [hbus]; rfl⟩))).2
  · exact fun d s h => ⟨s, if_pos h, rfl⟩

end Sys2Proof.Machine
end

section
/-! PROOFS. READ_REQ, STATUS, FLAG, BARRIER and LAUNCH at their destination (O42). -/

namespace Sys2Proof.Machine

section
variable {n op : Nat} {f g : Frame} {here : Nat → Frame → State → State} {s u : State}

/-- An accepted frame at its destination. -/
theorem deliverFrame_here (h : receive n op f s = (some g, u)) (hd : hDest g.hdr = (stringEnds n).2) (h29 : hDest g.hdr < 29) :
    deliverFrame n op f here true s = freeCredit n (rxBuffer n g.hdr) (here (stringEnds n).2 g u) := by
  simp only [deliverFrame, acceptData, h, if_neg (Nat.not_le.mpr h29), if_neg (not_not.2 hd), if_pos]

theorem receive_some_kept (h : receive n op f s = (some g, u)) : u.mem = s.mem ∧ u.tags = s.tags := by
  have hk := receive_keeps n op f s
  rw [h] at hk
  exact ⟨hk.mem rfl, hk.tags rfl⟩

/-- The same where what happens there leaves memory alone. -/
theorem delivered_mem {v : State} (h : receive n op f s = (some g, u)) (hv : v.mem = u.mem) :
    (freeCredit n (rxBuffer n g.hdr) v).mem = s.mem := hv.trans (receive_some_kept h).1

end

/-! ### Sites -/

theorem siteDie_stack {site k : Nat} (h : siteStack site = some k) : siteDie site = none := by
  have hk : stackSite k = site := by simpa using List.find?_some h
  have h8 : k < 8 := by simpa using List.mem_of_find?_eq_some h
  rw [← hk]
  exact (by decide : ∀ k < 8, siteDie (stackSite k) = none) k h8

theorem siteDie_hub : siteDie hubSite = none := by decide
theorem siteStack_hub : siteStack hubSite = none := by decide

theorem siteDie_lt {site d : Nat} (h : siteDie site = some d) : d < 16 := by
  simpa using List.mem_of_find?_eq_some h

/-! ### What a target gives of its bytes -/

section
variable {site src addr n d : Nat} {s : State} (hd : siteDie site = some d)
include hd

theorem readTarget_down (hu : dieUp s d = false) : readTarget site src addr n s = ((none, 1), s) := by
  unfold readTarget
  simp only [hd]
  exact if_pos (by rw [hu]; rfl)

variable (hu : dieUp s d = true)
include hu

theorem readTarget_outside (ha : inArea (siteAreas site (lockedAreas s site)) addr n = false) :
    readTarget site src addr n s = ((none, 3), s) := by
  unfold readTarget
  simp only [hd]
  exact (if_neg (by rw [hu]; decide)).trans (if_pos (by rw [ha]; rfl))

variable (ha : inArea (siteAreas site (lockedAreas s site)) addr n = true)
include ha

theorem readTarget_unowned (hb : dramHomeBase ≤ addr) (ho : ownsPages s d (addr - dramHomeBase) n = false) :
    readTarget site src addr n s = ((none, 4), s) := by
  unfold readTarget
  simp only [hd]
  exact (if_neg (by rw [hu]; decide)).trans ((if_neg (by rw [ha]; decide)).trans ((if_pos hb).trans (if_pos (by rw [ho]; rfl))))

/-- Home bytes that no reason keeps from being read are bytes of the die's own pages. -/
theorem ownsPages_of_memFail (hb : dramHomeBase ≤ addr) (hm : memFail s site addr n = none) :
    ownsPages s d (addr - dramHomeBase) n = true := by
  by_contra ho
  unfold memFail at hm
  rw [if_neg (by rw [ha]; decide)] at hm
  simp only [hd, if_pos hb] at hm
  rw [if_pos (by simpa using ho)] at hm
  cases hm

theorem readTarget_home (hb : dramHomeBase ≤ addr) (hm : memFail s site addr n = none) :
    readTarget site src addr n s = ((some (siteRead s site addr n), 0), siteTouch site addr n s) := by
  have ho := ownsPages_of_memFail hd hu ha hb hm
  unfold readTarget
  simp only [hd]
  refine (if_neg (by rw [hu]; decide)).trans ((if_neg (by rw [ha]; decide)).trans ((if_pos hb).trans
    ((if_neg (by rw [ho]; decide)).trans ?_)))
  simp only [hm]

theorem readTarget_sram (hb : addr < dramHomeBase) (hs : ¬ (dieSramBase ≤ addr ∧ addr < dieSramBase + dieSramSize)) :
    readTarget site src addr n s = if rangeBad s (memKey site addr) n then ((some (s.load (memKey site addr) n), 2),
      sramBad site addr s) else ((some (s.load (memKey site addr) n), 0), sramRead addr s) := by
  unfold readTarget
  simp only [hd]
  refine (if_neg (by rw [hu]; decide)).trans ((if_neg (by rw [ha]; decide)).trans ((if_neg (by omega)).trans ?_))
  rw [if_neg hs]

end

theorem readTarget_stack {site src addr n k : Nat} {s : State} (hk : siteStack site = some k) (ha : addr + n ≤ 0x1800000000) :
    readTarget site src addr n s = if stackFailed s k then ((none, 1), s) else if rangeBad s (memKey site addr) n then
      ((none, 2), uncorrectable (offsetHome k addr) s) else ((some (s.load (memKey site addr) n), 0), demandRead k addr s) := by
  unfold readTarget
  simp only [hk, siteDie_stack hk]
  exact if_neg (by omega)

theorem readTarget_hub {src addr n : Nat} {s : State} : readTarget hubSite src addr n s =
    if addr + n ≤ 0x4000000 then ((some (s.load (memKey hubSite addr) n), 0), s) else ((none, 3), s) := by
  unfold readTarget
  simp only [siteDie_hub, siteStack_hub]
  exact if_congr (by simp) rfl rfl

/-! ### The answer to a READ_REQ -/

/-- The bytes that a READ_REQ asks for. -/
def reqLen (g : Frame) : Nat := min (leAt g.payload 5 2 + 1) 4096

/-- The answer of a target: what it refuses counted, a STATUS unless it gives everything, its bytes in frames. -/
def answerRead (site : Nat) (g : Frame) (r : (Option Bytes × Nat) × State) : State :=
  let v := if r.1.2 = 3 ∨ r.1.2 = 4 then r.2.count Obj.refusedAddresses 1 else r.2
  let w := if r.1.2 = 0 then v else sendBack site (hSrc g.hdr) (hUnit g.hdr) opSTATUS 63 0 0
    (leBytes 1 r.1.2 ++ leBytes 4 (leAt g.payload 7 1)) v
  (List.range (ceilDiv (r.1.1.getD []).length 64)).foldl (fun y i => sendBack site (hSrc g.hdr) (hUnit g.hdr) opREADDATA
    ((((r.1.1.getD []).drop (64 * i)).take 64).length - 1) 0 (leAt g.payload 0 5 % 2 ^ 35 + i)
    (((r.1.1.getD []).drop (64 * i)).take 64) y) w

theorem readHere_assigned {site : Nat} {g : Frame} {s : State} (h : hSrc g.hdr < 29) :
    readHere site g s = answerRead site g (readTarget site (hSrc g.hdr) (frameAddr g) (reqLen g) s) := by
  unfold readHere reqLen
  refine (if_neg (by omega)).trans ?_
  rw [Nat.mul_div_cancel_left _ (by decide)]
  rfl

theorem answerRead_kept (site : Nat) (g : Frame) (r : (Option Bytes × Nat) × State) : (answerRead site g r).mem = r.2.mem := by
  have hk : Keeps 1057874 r.2 (answerRead site g r) := by
    unfold answerRead
    refine Keeps.foldl ?_ fun x i hx => sendBack_keeps_k (by decide) hx
    have hv : Keeps 1057874 r.2 (if r.1.2 = 3 ∨ r.1.2 = 4 then r.2.count Obj.refusedAddresses 1 else r.2) := by
      split
      · exact State_count_keeps_k (by decide) (Keeps.refl _ r.2)
      · exact Keeps.refl _ r.2
    split
    · exact hv
    · exact sendBack_keeps_k (by decide) hv
  exact hk.mem rfl

/-- The answer of at most one frame of bytes. -/
theorem answerRead_one {site : Nat} {g : Frame} {b : Bytes} {s : State} (h0 : 0 < b.length) (h64 : b.length ≤ 64) :
    answerRead site g ((some b, 0), s) = sendBack site (hSrc g.hdr) (hUnit g.hdr) opREADDATA (b.length - 1) 0
      (leAt g.payload 0 5 % 2 ^ 35) b s := by
  have hc : ceilDiv b.length 64 = 1 := by
    unfold ceilDiv
    omega
  have ht : (b.drop (64 * 0)).take 64 = b := by
    rw [Nat.mul_zero, List.drop_zero]
    exact List.take_of_length_le h64
  unfold answerRead
  simp only [Option.getD_some, hc, List.range_one, List.foldl_cons, List.foldl_nil, ht]
  rfl

theorem answerRead_refused {site : Nat} {g : Frame} {s : State} : answerRead site g ((none, 3), s) =
    sendBack site (hSrc g.hdr) (hUnit g.hdr) opSTATUS 63 0 0 (leBytes 1 3 ++ leBytes 4 (leAt g.payload 7 1))
      (s.count Obj.refusedAddresses 1) := by
  have hc : ceilDiv ((none : Option Bytes).getD []).length 64 = 0 := by decide
  unfold answerRead
  simp only [hc, List.range_zero, List.foldl_nil]
  exact (if_neg (by decide)).trans (by rw [if_pos (Or.inl trivial)])

theorem Memory.readN_length (m : List Host.Cell) (a n : Nat) : (Memory.readN m a n).length = n := by
  induction n generalizing a with
  | zero => rfl
  | succ n ih => simp [Memory.readN, ih]

theorem State.load_congr {s u : State} (h : u.mem = s.mem) (a n : Nat) : u.load a n = s.load a n := by
  unfold State.load
  rw [h]

theorem State.load_length (s : State) (a n : Nat) : (s.load a n).length = n := Memory.readN_length ..

/-! ### STATUS, FLAG, BARRIER and LAUNCH -/

section
variable {site : Nat} {g : Frame} {s : State}

theorem statusHere_lost (h : hUnit g.hdr = 1) : statusHere site g s = if leAt g.payload 0 1 ≠ 1 then s
    else if 25 ≤ site then opFail (leAt g.payload 1 4) 1 0 s else lostHere site (leAt g.payload 1 4) s := by
  unfold statusHere
  exact if_pos h

/-- The state in which a STATUS has ended the read of its tag. -/
def statusEnds (site : Nat) (g : Frame) (s : State) : State := readEnds site (leAt g.payload 1 4) (leAt g.payload 0 1)
  (if leAt g.payload 0 1 = 1 then s.count Obj.pathLostTransfers 1 else s)

theorem statusHere_read (h : hUnit g.hdr ≠ 1) :
    statusHere site g s = settleOps (opFuel (statusEnds site g s)) (statusEnds site g s) := by
  unfold statusHere
  exact if_neg h

theorem settleOps_idle (h : s.rmem.ops = []) : settleOps (opFuel s) s = s := by
  simp only [opFuel, h, List.length_nil, settleOps, List.find?_nil]

/-- A path-lost STATUS of a read that nothing waits for frees its tag. -/
theorem statusEnds_free {tg : ReadTag}
    (hf : s.tags.find? (fun x => x.site == site && x.tag == leAt g.payload 1 4) = some tg) (hp : tg.purpose = 2)
    (h1 : leAt g.payload 0 1 = 1) : statusEnds site g s = { s.count Obj.pathLostTransfers 1 with
      tags := s.tags.filter fun x => !(x.site == site && x.tag == leAt g.payload 1 4) } := by
  have ht : (s.count Obj.pathLostTransfers 1).tags = s.tags := (State_count_keeps _ _ s).tags rfl
  unfold statusEnds readEnds readFails
  rw [if_pos h1, ht, hf]
  simp only [hp]
  rfl

theorem flagHere_refused (h : siteDie site = none ∨ siteDie (hSrc g.hdr) = none) :
    flagHere site g s = s.count Obj.refusedAddresses 1 := by
  unfold flagHere
  rcases h with h | h
  · simp only [h]
  · cases hd : siteDie site <;> simp only [h]

theorem barrierHere_refused (h : siteDie site = none ∨ siteDie (hSrc g.hdr) = none) :
    barrierHere site g s = s.count Obj.refusedAddresses 1 := by
  unfold barrierHere
  rcases h with h | h
  · simp only [h]
  · cases hd : siteDie site <;> simp only [h]

/-- The core that a FLAG or BARRIER for die `d` is for. -/
def signalCore (d : Nat) (g : Frame) : Nat := 4 * d + frameAddr g / 0x4000000 % 4

/-- The FLAG as it waits for the sums and writes of its source. -/
def flagOf (d src : Nat) (g : Frame) (s : State) : FlagWait :=
  { core := signalCore d g, num := leAt g.payload 0 1 % 64, value := BitVec.ofNat 32 (leAt g.payload 1 4), src := none
    deps := openSums s d (fun i => coreDie i == src), writes := openWrites s d (hSrc g.hdr) }

/-- The arrival as it waits for the sums and writes of its source. -/
def arrivalOf (d src : Nat) (g : Frame) (s : State) : FlagWait :=
  { core := signalCore d g, num := leAt g.payload 0 1, value := 0, src := some src
    deps := openSums s d (fun i => coreDie i == src), writes := openWrites s d (hSrc g.hdr) }

variable {d src : Nat} (hd : siteDie site = some d) (hs : siteDie (hSrc g.hdr) = some src)
include hd hs

theorem flagHere_dies : flagHere site g s = if !dieUp s d then lostBack site (hSrc g.hdr) s
    else if (s.core (signalCore d g)).state ≠ 1 then s
    else holdFlag d (flagOf d src g s) (beatTick s (signalCore d g)) s := by
  unfold flagHere
  simp only [hd, hs]
  rfl

theorem barrierHere_dies : barrierHere site g s = if !dieUp s d then lostBack site (hSrc g.hdr) s
    else if (s.core (signalCore d g)).state ≠ 1 ∨ windowIdOf s (signalCore d g) ≠ leAt g.payload 1 4 then s
    else holdFlag d (arrivalOf d src g s) (beatTick s (signalCore d g)) s := by
  unfold barrierHere
  simp only [hd, hs]
  rfl

end

section
variable {d src j t : Nat} {f : FlagWait} {s : State} (hdeps : f.deps = []) (hw : f.writes = [])
include hdeps hw

/-- Nothing to wait for: the flag is entered. -/
theorem holdFlag_flag (hs : f.src = none) : holdFlag d f t s = s.setCore f.core
    { s.core f.core with flagIn := addFlag (t, f.num, f.value) (s.core f.core).flagIn } := by
  unfold holdFlag applyFlag
  simp only [hdeps, hw, hs]
  rfl

/-- Nothing to wait for: the lowest core of the source that the barrier awaits has arrived. -/
theorem holdFlag_arrive (hs : f.src = some src)
    (hj : (List.range 4).find? (fun j => ((((s.core f.core).win.bind s.win).map (fun (w : Win) => w.barriers.getD f.num 0)).getD
      0).getLsbD (4 * src + j) && !(tget 0 f.num (s.core f.core).arrivals).getLsbD (4 * src + j)) = some j) :
    holdFlag d f t s = arrive f.core f.num (4 * src + j) s := by
  unfold holdFlag applyFlag
  simp only [hdeps, hw, hs, hj]
  rfl

end

theorem arrive_arrived {k bar who : Nat} (s : State) (h : who < 64) :
    (tget 0 bar ((arrive k bar who s).core k).arrivals).getLsbD who = true := by
  unfold arrive
  rw [State.core_setCore]
  simp only [tget_tset_same, BitVec.getLsbD_or, BitVec.getLsbD_ofNat, h, Nat.testBit_two_pow_self, decide_true, Bool.and_self,
    Bool.or_true]

section
variable {n : Nat} {f g : Frame} {u v s : State}

theorem freeCredit_core (n b k : Nat) (v : State) : (freeCredit n b v).core k = v.core k := rfl

end

/-- Settles O42: each frame at its destination is what its handler does there, and its buffer is freed. -/
theorem otherFrames : Obligations.OtherFrames := by
  unfold Obligations.OtherFrames
  refine ⟨?_, ?_, ?_, ?_, ?_, ?_, ?_, ?_, ?_, ?_, ?_, ?_, ?_, ?_, ?_, ?_, ?_, ?_, ?_, ?_, ?_, ?_, ?_, ?_, ?_, ?_⟩
  case _ =>
    intro n f g u s h hd h29 hs
    refine ⟨_, congrArg Host.Outcome.next (deliverFrame_here h hd h29), ?_⟩
    rw [show readHere (stringEnds n.val).2 g u = u from if_pos hs]
  case _ =>
    intro n f g u r v w b s h hd h29 hs hr hv hw hb
    refine ⟨_, congrArg Host.Outcome.next (deliverFrame_here h hd h29), ?_⟩
    rw [readHere_assigned hs, ← show r = readTarget (stringEnds n.val).2 (hSrc g.hdr) (frameAddr g) (reqLen g) u from hr]
    subst hw hb hv
    rfl
  case _ =>
    intro n f g u s h hd h29 hs hub ha h64
    have hm := (receive_some_kept h).1
    have hn : 0 < reqLen g := by unfold reqLen; omega
    have hr : readHere (stringEnds n.val).2 g u = sendBack hubSite (hSrc g.hdr) (hUnit g.hdr) opREADDATA (reqLen g - 1) 0
        (leAt g.payload 0 5 % 2 ^ 35) (s.load (memKey hubSite (frameAddr g)) (reqLen g)) u := by
      rw [readHere_assigned hs, hub, readTarget_hub, if_pos (show _ + reqLen g ≤ _ from ha), answerRead_one (by rwa [State.load_length])
        (by rw [State.load_length]; exact h64), State.load_length, State.load_congr hm]
    refine ⟨_, congrArg Host.Outcome.next (deliverFrame_here h hd h29), ?_, ?_⟩
    · rw [hr]; rfl
    · refine delivered_mem h ?_
      rw [hr]
      exact (sendBack_keeps ..).mem rfl
  case _ =>
    intro n f g u s h hd h29 hs hub ha
    have hr : readHere (stringEnds n.val).2 g u = sendBack hubSite (hSrc g.hdr) (hUnit g.hdr) opSTATUS 63 0 0
        (leBytes 1 3 ++ leBytes 4 (leAt g.payload 7 1)) (u.count Obj.refusedAddresses 1) := by
      rw [readHere_assigned hs, hub, readTarget_hub, if_neg (show ¬ _ + reqLen g ≤ _ from Nat.not_le.mpr ha), answerRead_refused]
    refine ⟨_, congrArg Host.Outcome.next (deliverFrame_here h hd h29), ?_, ?_⟩
    · rw [hr]
    · refine delivered_mem h ?_
      rw [hr]
      exact ((sendBack_keeps ..).mem rfl).trans ((State_count_keeps ..).mem rfl)
  case _ => exact fun site src addr n s d hd hu => readTarget_down hd hu
  case _ => exact fun site src addr n s d hd hu ha => readTarget_outside hd hu ha
  case _ => exact fun site src addr n s d hd hu ha hb ho => readTarget_unowned hd hu ha hb ho
  case _ => exact fun site src addr n s d hd hu ha hb hm => readTarget_home hd hu ha hb hm
  case _ => exact fun site src addr n s d hd hu ha hb hs => readTarget_sram hd hu ha hb hs
  case _ => exact fun site src addr n s k hk ha => readTarget_stack hk ha
  case _ =>
    intro n f g u s h hd h29 h1
    exact ⟨_, congrArg Host.Outcome.next (deliverFrame_here h hd h29), by rw [statusHere_lost h1]⟩
  case _ =>
    intro n f g u v s h hd h29 h1 hv
    refine ⟨_, congrArg Host.Outcome.next (deliverFrame_here h hd h29), ?_⟩
    rw [statusHere_read h1, ← show v = statusEnds (stringEnds n.val).2 g u from hv]
  case _ =>
    intro n f g u tg s h hd h29 h1 ho hf hp hst
    have he := statusEnds_free hf hp hst
    have hi : (statusEnds (stringEnds n.val).2 g u).rmem.ops = [] := by
      rw [he]
      exact (congrArg Rmem.ops ((State_count_keeps Obj.pathLostTransfers 1 u).rmem rfl)).trans ho
    obtain ⟨hm, ht⟩ := receive_some_kept h
    refine ⟨_, congrArg Host.Outcome.next (deliverFrame_here h hd h29), ?_, ?_⟩
    · rw [statusHere_read h1, settleOps_idle hi, he, ← ht]
      rfl
    · refine delivered_mem h ?_
      rw [statusHere_read h1, settleOps_idle hi, he]
      exact (State_count_keeps Obj.pathLostTransfers 1 u).mem rfl
  case _ =>
    intro n f g u s h hd h29 hn
    have hr := flagHere_refused (s := u) hn
    refine ⟨_, congrArg Host.Outcome.next (deliverFrame_here h hd h29), by rw [hr], delivered_mem h ?_⟩
    rw [hr]
    exact (State_count_keeps ..).mem rfl
  case _ =>
    intro n f g u d src s h hd h29 hdie hsrc hu
    have hr := (flagHere_dies (s := u) hdie hsrc).trans (if_pos (by rw [hu]; rfl))
    refine ⟨_, congrArg Host.Outcome.next (deliverFrame_here h hd h29), by rw [hr], delivered_mem h ?_⟩
    rw [hr]
    exact (lostBack_keeps ..).mem rfl
  case _ =>
    intro n f g u d src s h hd h29 hdie hsrc hu hc
    have hr := (flagHere_dies (s := u) hdie hsrc).trans ((if_neg (by rw [hu]; decide)).trans (if_pos hc))
    exact ⟨_, congrArg Host.Outcome.next (deliverFrame_here h hd h29), by rw [hr], delivered_mem h (by rw [hr])⟩
  case _ =>
    intro n f g u d src x s h hd h29 hdie hsrc hu hc hx
    have hr := (flagHere_dies (s := u) hdie hsrc).trans ((if_neg (by rw [hu]; decide)).trans (if_neg hc))
    refine ⟨_, congrArg Host.Outcome.next (deliverFrame_here h hd h29), ?_, delivered_mem h ?_⟩
    · rw [hr, hx]
      rfl
    · rw [hr]
      exact (holdFlag_keeps ..).mem rfl
  case _ =>
    intro n f g u s h hd h29 hn
    have hr := barrierHere_refused (s := u) hn
    refine ⟨_, congrArg Host.Outcome.next (deliverFrame_here h hd h29), by rw [hr], delivered_mem h ?_⟩
    rw [hr]
    exact (State_count_keeps ..).mem rfl
  case _ =>
    intro n f g u d src s h hd h29 hdie hsrc hu
    have hr := (barrierHere_dies (s := u) hdie hsrc).trans (if_pos (by rw [hu]; rfl))
    refine ⟨_, congrArg Host.Outcome.next (deliverFrame_here h hd h29), by rw [hr], delivered_mem h ?_⟩
    rw [hr]
    exact (lostBack_keeps ..).mem rfl
  case _ =>
    intro n f g u d src s h hd h29 hdie hsrc hu hc
    have hr := (barrierHere_dies (s := u) hdie hsrc).trans ((if_neg (by rw [hu]; decide)).trans (if_pos hc))
    exact ⟨_, congrArg Host.Outcome.next (deliverFrame_here h hd h29), by rw [hr], delivered_mem h (by rw [hr])⟩
  case _ =>
    intro n f g u d src x s h hd h29 hdie hsrc hu hc hx
    have hr := (barrierHere_dies (s := u) hdie hsrc).trans ((if_neg (by rw [hu]; decide)).trans (if_neg hc))
    refine ⟨_, congrArg Host.Outcome.next (deliverFrame_here h hd h29), ?_, delivered_mem h ?_⟩
    · rw [hr, hx]
      rfl
    · rw [hr]
      exact (holdFlag_keeps ..).mem rfl
  case _ =>
    intro n f g u d src s h hd h29 hdie hu hsrc hc hdeps hw
    have hr := (flagHere_dies (s := u) hdie hsrc).trans ((if_neg (by rw [hu]; decide)).trans ((if_neg (not_not.2 hc)).trans
      (holdFlag_flag (f := flagOf d src g u) hdeps hw rfl)))
    refine ⟨_, congrArg Host.Outcome.next (deliverFrame_here h hd h29), ?_⟩
    rw [hr]
    rfl
  case _ =>
    intro n f g u d src j s h hd h29 hdie hu hsrc hc hdeps hw hwin hj
    have hr := (barrierHere_dies (s := u) hdie hsrc).trans ((if_neg (by rw [hu]; decide)).trans ((if_neg
      (not_or.2 ⟨not_not.2 hc, not_not.2 hwin⟩)).trans (holdFlag_arrive (f := arrivalOf d src g u) hdeps hw rfl hj)))
    have h4 : j < 4 := by simpa using List.mem_of_find?_eq_some hj
    have h16 := siteDie_lt hsrc
    refine ⟨_, congrArg Host.Outcome.next (deliverFrame_here h hd h29), ?_, ?_⟩
    · rw [hr]
      rfl
    · rw [freeCredit_core, hr]
      exact arrive_arrived u (by omega)
  case _ =>
    intro n f g u d s h hd h29 hdie hu
    refine ⟨_, congrArg Host.Outcome.next (deliverFrame_here h hd h29), ?_⟩
    rw [show launchHere (stringEnds n.val).2 g u = _ by unfold launchHere; simp only [hdie]; exact if_neg (by rw [hu]; decide)]
  case _ =>
    intro n f g u d s h hd h29 hdie hu
    refine ⟨_, congrArg Host.Outcome.next (deliverFrame_here h hd h29), ?_⟩
    rw [show launchHere (stringEnds n.val).2 g u = _ by unfold launchHere; simp only [hdie]; exact if_pos (by rw [hu]; rfl)]
  case _ =>
    intro n f g u s h hd h29 hn
    have hr : launchHere (stringEnds n.val).2 g u = u.count Obj.refusedAddresses 1 := by
      unfold launchHere
      simp only [hn]
    refine ⟨_, congrArg Host.Outcome.next (deliverFrame_here h hd h29), by rw [hr], delivered_mem h ?_⟩
    rw [hr]
    exact (State_count_keeps ..).mem rfl

end Sys2Proof.Machine
end

section
/-! PROOFS. Known-answer tests, test mode, trace records and the log's second (O50). -/

namespace Sys2Proof.Machine

theorem State.core_of_cores {s t : State} (h : t.cores = s.cores) (j : Nat) : t.core j = s.core j := by
  rw [State.core, State.core, h]

theorem State.whip_of_whips {s t : State} (h : t.whips = s.whips) (j : Nat) : t.whip j = s.whip j := by
  rw [State.whip, State.whip, h]

/-! ### Which core test is due -/

/-- The request for a core of a die that is up that comes first. -/
def coreDue (s : State) : Option KatReq := [1, 2, 3, 4].findSome? fun p =>
  (s.kat.queue.filter (fun r => r.unit < 64 && dieUp s (coreDie r.unit))).find? fun r => r.prio == p

/-- The core whose test is due. -/
def dueCore (s : State) : Option Nat := if s.kat.core.isSome then s.kat.core else (coreDue s).map (·.unit)

theorem settleKat_eq (s : State) : settleKat s = { s with kat := { s.kat with core := dueCore s } } := by
  unfold settleKat dueCore
  split
  · rfl
  · next h =>
    have hn : s.kat.core = none := by simpa using h
    dsimp only
    change (match coreDue s with
      | some r => { s with kat := { s.kat with core := some r.unit } }
      | none => s : State) = _
    cases coreDue s with
    | none => rw [Option.map_none, ← hn]
    | some r => rfl

theorem settleKat_idle {s : State} (hq : s.kat.queue = []) : settleKat s = s := by
  have hn : coreDue s = none := by
    unfold coreDue
    rw [hq]
    rfl
  rw [settleKat_eq]
  unfold dueCore
  split
  · rfl
  · next h => rw [hn, Option.map_none, ← show s.kat.core = none by simpa using h]

/-- Of a list of priorities in ascending order, the first for which the queue holds a request. -/
theorem first_prio {l : List Nat} (hl : l.Pairwise (· < ·)) {q : List KatReq} {r x : KatReq}
    (h : l.findSome? (fun p => q.find? fun r => r.prio == p) = some r) (hx : x ∈ q) (hp : x.prio ∈ l) : ¬ x.prio < r.prio := by
  obtain ⟨before, p, after, rfl, hr, hbefore⟩ := List.findSome?_eq_some_iff.mp h
  have hrp : r.prio = p := by simpa using List.find?_some hr
  rw [hrp]
  obtain ⟨-, hafter, -⟩ := List.pairwise_append.mp hl
  rcases List.mem_append.mp hp with hm | hm
  · exact absurd (List.find?_eq_none.mp (hbefore _ hm) x hx) (by simp)
  · rcases List.mem_cons.mp hm with he | ha
    · omega
    · have := List.rel_of_pairwise_cons hafter ha
      omega

theorem coreDue_first {s : State} {r : KatReq} (h : coreDue s = some r) : r.unit < 64 ∧ dieUp s (coreDie r.unit) = true ∧
    r ∈ s.kat.queue ∧ ∀ x ∈ s.kat.queue, x.unit < 64 → dieUp s (coreDie x.unit) = true → 1 ≤ x.prio → x.prio < r.prio → False := by
  obtain ⟨p, hp, hr⟩ := List.exists_of_findSome?_eq_some h
  obtain ⟨hm, hrc⟩ := List.mem_filter.mp (List.mem_of_find?_eq_some hr)
  have hrp : r.prio = p := by simpa using List.find?_some hr
  simp only [Bool.and_eq_true, decide_eq_true_eq] at hrc
  refine ⟨hrc.1, hrc.2, hm, fun x hx hu hd h1 hlt => first_prio (by decide) h (List.mem_filter.mpr ⟨hx, by simp [hu, hd]⟩) ?_ hlt⟩
  simp only [List.mem_cons, List.not_mem_nil, or_false] at hp ⊢
  omega

/-- What `settleKat` finds: the test under way, or the first request for a core. -/
theorem dueCore_spec (s : State) : (s.kat.core.isSome = true → dueCore s = s.kat.core) ∧
    (s.kat.core = none → ∀ n, dueCore s = some n → n < 64 ∧ dieUp s (coreDie n) = true ∧ ∃ r ∈ s.kat.queue, r.unit = n ∧
      ∀ x ∈ s.kat.queue, x.unit < 64 → dieUp s (coreDie x.unit) = true → 1 ≤ x.prio → x.prio < r.prio → False) := by
  unfold dueCore
  refine ⟨fun h => if_pos h, fun hn n h => ?_⟩
  rw [hn] at h
  obtain ⟨r, hr, rfl⟩ := Option.map_eq_some_iff.mp (show (coreDue s).map (·.unit) = some n from h)
  obtain ⟨hu, hd, hm, hfirst⟩ := coreDue_first hr
  exact ⟨hu, hd, r, hm, rfl, hfirst⟩

/-! ### The start of a test -/

section
variable (unit : Nat) (s : State)

/-- The requests of a unit as its test starts. -/
def katTaken (unit : Nat) (s : State) : State := { s with kat := { s.kat with
  queue := s.kat.queue.filter (fun r => r.unit != unit), running := s.kat.running ++ s.kat.queue.filter (fun r => r.unit == unit) } }

theorem katStart_eq : katStart unit s = (katTaken unit s).count Obj.katRuns 1 := rfl

theorem katStart_runs : (katStart unit s).obj Obj.katRuns = (s.obj Obj.katRuns + 1) % 2 ^ objBits Obj.katRuns :=
  obj_count_of_od (u := katTaken unit s) rfl (by decide)

theorem katStart_kat : (katStart unit s).kat = (katTaken unit s).kat := (State_count_keeps Obj.katRuns 1 (katTaken unit s)).kat rfl

end

/-! ### The end of a test -/

theorem endCtx_untouched (id reason cause : Nat) (s : State) :
    Untouched (Obj.deadlineExpiries :: logCounters) s (endCtx id reason cause s) := by
  unfold endCtx
  cases s.ctx id with
  | none => exact Untouched.refl _ s
  | some c =>
    dsimp only
    intro k hk
    have hod {v : State} : (closeSession c.session (joinActive 256 v)).od = v.od :=
      ((closeSession_keeps _ _).od rfl).trans ((joinActive_keeps _ _).od rfl)
    refine (State.obj_of_od hod k).trans ?_
    obtain ⟨hk1, hk2⟩ := not_or.mp (mt List.mem_cons.mpr hk)
    have hdrop : ∀ v : State, (dropStreams id (releasePages c v)).od = v.od := fun v =>
      ((dropStreams_keeps _ _).od rfl).trans ((releasePages_keeps _ _).od rfl)
    have hsend := (serveSend_keeps c.session 0x07 (finalBody c reason cause s.beat) s).od rfl
    split
    · exact (countLog_untouched Obj.deadlineExpiries _ _ _ _ _ _ k hk).trans ((State.obj_of_od (hdrop _) k).trans (State.obj_of_od (s := s) hsend k))
    · split
      · exact (logEvent_untouched _ _ _ _ _ _ _ k hk2).trans ((State.obj_of_od (hdrop _) k).trans (State.obj_of_od (s := s) hsend k))
      · exact (State.obj_of_od (hdrop _) k).trans (State.obj_of_od (s := s) hsend k)

theorem settleEnding_untouched (id : Nat) (s : State) :
    Untouched (Obj.deadlineExpiries :: logCounters) s (settleEnding id s) := by
  unfold settleEnding
  cases s.ctx id with
  | none => exact Untouched.refl _ s
  | some c =>
    dsimp only
    cases c.ending with
    | none => exact Untouched.refl _ s
    | some e => exact Untouched.ite (Untouched.refl _ s) (endCtx_untouched _ _ _ s)

theorem endRequests_untouched (p : Ctx → Bool) (reason cause : Nat) (s : State) :
    Untouched (Obj.deadlineExpiries :: logCounters) s (endRequests p reason cause s) := by
  unfold endRequests
  refine foldl_untouched (fun v id => ?_) _ s
  exact Untouched.trans (l := []) (.of_od ((markEnding_keeps _ _ _ v).od rfl)) (settleEnding_untouched id _) (by simp)

/-- A work item that no enabled variant can serve ends with its requests. -/
def itemDead (s : State) (it : WorkItem) : State :=
  match it.ctx with
  | some c => endRequests (fun x => x.id == c) 5 3 s
  | none =>
    let ids := ((tget {} it.set_ s.sched.sets).streams).map (·.1)
    let s := ids.foldl (fun s id => markEnding id 5 3 s) s
    let s := { s with sched := { s.sched with
      items := s.sched.items.filter (fun x => x.set_ != it.set_ || x.status == 1), sets := terase it.set_ s.sched.sets } }
    ids.foldl (fun s id => settleEnding id s) s

theorem itemDead_untouched (s : State) (it : WorkItem) : Untouched (Obj.deadlineExpiries :: logCounters) s (itemDead s it) := by
  unfold itemDead
  cases it.ctx with
  | some c => exact endRequests_untouched _ _ _ s
  | none =>
    dsimp only
    refine Untouched.trans (l := []) (.of_od ?_) (foldl_untouched (fun v id => settleEnding_untouched id v) _ _) (by simp)
    exact foldl_kept (p := State.od) (fun v id => (markEnding_keeps id 5 3 v).od rfl) _ s

theorem failUnlaunchable_untouched (s : State) : Untouched (Obj.deadlineExpiries :: logCounters) s (failUnlaunchable s) := by
  unfold failUnlaunchable
  exact Untouched.trans (l := []) (.of_od rfl) (foldl_untouched itemDead_untouched _ _) (by simp)

/-- The object and the bit of the disable map that stand for a unit. -/
def mapBit (unit : Nat) : Nat := if unit < 64 then unit else (unit - 64) % 64

theorem mapBit_lt (unit : Nat) : mapBit unit < 64 := by
  unfold mapBit
  split <;> omega

/-- No object of the map is one that a test or an isolation counts in. -/
theorem mapKey_alone {unit : Nat} (h : unit < 320) : mapKey unit ∉ ([Obj.katLastUnit, Obj.katLastResult, Obj.katLastBeat,
    Obj.katTransients, Obj.katFailures, Obj.mapDigest, Obj.mapChangeCount, Obj.stateReasons, Obj.deadlineExpiries] ++ logCounters) := by
  have hk : mapKey unit ∈ [Obj.coreDisableMask, Obj.whippetDisableMask0, Obj.whippetDisableMask0 + 1, Obj.whippetDisableMask0 + 2,
      Obj.whippetDisableMask0 + 3] := by
    unfold mapKey
    simp only [List.mem_cons, List.not_mem_nil, or_false]
    split
    · exact Or.inl rfl
    · omega
  exact (by decide : ∀ k ∈ [Obj.coreDisableMask, Obj.whippetDisableMask0, Obj.whippetDisableMask0 + 1,
    Obj.whippetDisableMask0 + 2, Obj.whippetDisableMask0 + 3], k ∉ ([Obj.katLastUnit, Obj.katLastResult, Obj.katLastBeat,
    Obj.katTransients, Obj.katFailures, Obj.mapDigest, Obj.mapChangeCount, Obj.stateReasons, Obj.deadlineExpiries] ++ logCounters))
    _ hk

section
variable {unit : Nat} (h : unit < 320) (s : State)
include h

theorem mapChange_disabled (hu : unitDisabled s unit = false) : unitDisabled (mapChange unit true s) unit = true := by
  have hk := mapKey_alone h
  simp only [List.mem_append, List.mem_cons, not_or] at hk
  obtain ⟨⟨-, -, -, -, -, hdigest, hcount, -⟩, -⟩ := hk
  unfold unitDisabled at hu ⊢
  change ((mapChange unit true s).obj (mapKey unit)).testBit (mapBit unit) = true
  have hb : (s.obj (mapKey unit)).testBit (mapBit unit) = false := hu
  have hv : (mapChange unit true s).obj (mapKey unit) = (s.obj (mapKey unit) + 2 ^ mapBit unit) % 2 ^ 64 := by
    unfold mapChange
    dsimp only
    rw [State.obj_count_other _ _ hcount, State.obj_setObj_other _ _ hdigest, State.obj_setObj]
    change ((if (s.obj (mapKey unit)).testBit (mapBit unit) then _ else _) + 2 ^ mapBit unit) % _ = _
    rw [if_neg (by rw [hb]; decide)]
  rw [hv, Nat.testBit_mod_two_pow, Nat.add_comm, Nat.testBit_two_pow_add_eq, hb]
  simpa using mapBit_lt unit

theorem unitDisabled_untouched {t : State} {l : List Nat} (hl : Untouched l s t) (hm : ∀ x ∈ l, x ∈ ([Obj.katLastUnit,
    Obj.katLastResult, Obj.katLastBeat, Obj.katTransients, Obj.katFailures, Obj.mapDigest, Obj.mapChangeCount, Obj.stateReasons,
    Obj.deadlineExpiries] ++ logCounters)) : unitDisabled t unit = unitDisabled s unit := by
  unfold unitDisabled
  rw [hl _ fun hk => mapKey_alone h (hm _ hk)]

theorem isolate_disabled (hu : unitDisabled s unit = false) : unitDisabled (isolate unit s) unit = true := by
  unfold isolate isolateUnit
  rw [if_neg (by rw [hu]; decide), unitDisabled_untouched h _ (failUnlaunchable_untouched _) (by decide),
    unitDisabled_untouched h _ (setReason_untouched _ _ _) (by decide),
    unitDisabled_untouched h _ (logEvent_untouched _ _ _ _ _ _ _) (by decide), mapChange_disabled h s hu]

end

section
variable (unit result : Nat) (s : State)

/-- The last result as the dictionary shows it. -/
def katNoted (unit result : Nat) (s : State) : State :=
  ((s.setObj Obj.katLastUnit unit).setObj Obj.katLastResult result).setObj Obj.katLastBeat s.beat

/-- A transient counted and logged. -/
def katTransient (unit result : Nat) (s : State) : State :=
  if result = 1 then countLog Obj.katTransients 0 0 (unitSite unit) unit [] s else s

/-- A failed unit isolated. -/
def katIsolated (unit result : Nat) (s : State) : State :=
  if result = 2 ∧ !unitDisabled s unit then isolate unit (s.count Obj.katFailures 1) else s

/-- The test of a core is no longer awaited by a work item. -/
def katAwaited (unit : Nat) (s : State) : State := if unit < 64 then
    { s with sched := { s.sched with items := s.sched.items.map (fun it =>
      { it with tests := it.tests &&& ~~~(BitVec.ofNat 64 (2 ^ unit)) }) } }
  else s

theorem katResult_eq : katResult unit result s =
    katAnswers unit (result ≠ 2) (katAwaited unit (katIsolated unit result (katTransient unit result (katNoted unit result s)))) := rfl

theorem katAwaited_od : (katAwaited unit s).od = s.od := by
  unfold katAwaited
  split <;> rfl

theorem katAwaited_kat : (katAwaited unit s).kat = s.kat := by
  unfold katAwaited
  split <;> rfl

theorem katTransient_untouched : Untouched (Obj.katTransients :: logCounters) s (katTransient unit result s) :=
  Untouched.ite (countLog_untouched _ _ _ _ _ _ s) (Untouched.refl _ s)

theorem katNoted_untouched : Untouched [Obj.katLastUnit, Obj.katLastResult, Obj.katLastBeat] s (katNoted unit result s) := by
  intro k hk
  simp only [List.mem_cons, List.not_mem_nil, or_false, not_or] at hk
  obtain ⟨h1, h2, h3⟩ := hk
  unfold katNoted
  rw [State.obj_setObj_other _ _ h3, State.obj_setObj_other _ _ h2, State.obj_setObj_other _ _ h1]

theorem katIsolated_kat : (katIsolated unit result s).kat = s.kat := by
  unfold katIsolated
  split
  · exact ((isolate_keeps _ _).kat rfl).trans ((State_count_keeps _ _ s).kat rfl)
  · rfl

theorem katTransient_kat : (katTransient unit result s).kat = s.kat := by
  unfold katTransient
  split
  · exact (countLog_keeps ..).kat rfl
  · rfl

/-- No request waits for the test that ends. -/
theorem katAnswers_idle {pass : Bool} {s : State} (h : s.kat.running = []) : katAnswers unit pass s = s := by
  unfold katAnswers
  simp only [h, List.filter_nil, List.isEmpty_nil, Bool.not_true, Bool.and_false, Bool.false_and, Bool.false_eq_true, if_false,
    List.foldl_nil]
  rw [← h]

variable {s} (h : s.kat.running = [])
include h

/-- The end of a test that no request waits for. -/
theorem katResult_idle : katResult unit result s =
    katAwaited unit (katIsolated unit result (katTransient unit result (katNoted unit result s))) := by
  rw [katResult_eq]
  refine katAnswers_idle unit (Eq.trans (congrArg Kat.running ?_) h)
  rw [katAwaited_kat, katIsolated_kat, katTransient_kat]
  rfl

theorem katResult_kat : (katResult unit result s).kat = s.kat := by
  rw [katResult_idle unit result h, katAwaited_kat, katIsolated_kat, katTransient_kat]
  rfl

theorem katResult_last {unit result : Nat} (hu : unit < 320) (hr : result < 2) :
    (katResult unit result s).obj Obj.katLastUnit = unit ∧ (katResult unit result s).obj Obj.katLastResult = result := by
  have hi : katIsolated unit result (katTransient unit result (katNoted unit result s)) =
      katTransient unit result (katNoted unit result s) := if_neg fun hc => absurd hc.1 (by omega)
  have hk {k : Nat} (hk : k ∉ Obj.katTransients :: logCounters) :
      (katResult unit result s).obj k = (katNoted unit result s).obj k := by
    rw [katResult_idle unit result h, State.obj_of_od (katAwaited_od _ _), hi]
    exact katTransient_untouched unit result _ k hk
  rw [hk (by decide), hk (by decide)]
  unfold katNoted
  rw [State.obj_setObj_other _ _ (by decide), State.obj_setObj_other _ _ (by decide), State.obj_setObj,
    State.obj_setObj_other _ _ (by decide), State.obj_setObj]
  omega

theorem katResult_disabled {unit : Nat} (hu : unit < 320) : unitDisabled (katResult unit 2 s) unit = true := by
  rw [katResult_idle unit 2 h, unitDisabled_untouched hu _ (Untouched.of_od (l := []) (katAwaited_od unit _)) (by simp)]
  generalize katTransient unit 2 (katNoted unit 2 s) = v
  unfold katIsolated
  cases hv : unitDisabled v unit with
  | true => rw [if_neg (by simp), hv]
  | false =>
    rw [if_pos (by simp), isolate_disabled hu]
    rw [unitDisabled_untouched hu _ (count_untouched Obj.katFailures 1 v) (by decide), hv]

end

/-! ### The commands -/

section
variable {s : State} {c : CoreId} {w : WhipId}

theorem exec_matrixCoreKat (c : CoreId) (s : State) : exec (.matrixCoreKat c) s =
    if (settleKat s).kat.core = some c.val ∧ (s.core c.val).state = 0 ∧ s.wins.any (fun w => w.parts.getLsbD c.val) = false ∧
      dieUp s (coreDie c.val) = true ∧ (s.die (coreDie c.val)).want = none
    then .next (katStart c.val ((settleKat s).setCore c.val { s.core c.val with state := 3, katRepeat := false, katAt := s.beat }))
    else .next (settleKat s) := by
  change execMatrixCoreKat c s = _
  unfold execMatrixCoreKat
  rw [settleKat_eq]
  refine if_congr ?_ rfl rfl
  rw [Option.isNone_iff_eq_none, Bool.not_eq_true']
  rfl

theorem katDone_core {x : Core} {pass : Bool} (h : (s.core c.val).state = 3 ∧ (s.core c.val).katAt + katLength (s.die (coreDie
    c.val)) ≤ s.beat) (hp : pass = true ∨ (s.core c.val).katRepeat = true)
    (hx : x = { s.core c.val with state := 0, katRepeat := false }) : exec (.matrixCoreKatDone c pass) s =
    .next (settleKat (katResult c.val (if pass = false then 2 else if (s.core c.val).katRepeat then 1 else 0)
      { s.setCore c.val x with kat := { s.kat with core := none } })) := by
  change execMatrixCoreKatDone c pass s = _
  subst hx
  unfold execMatrixCoreKatDone
  refine (if_neg (by omega)).trans ((if_neg ?_).trans ?_)
  · rcases hp with hp | hp <;> simp [hp]
  · cases pass <;> rfl

theorem katDone_whip {x : Whip} {pass : Bool} (h : (s.whip w.val).state = 2) (hp : pass = true ∨ (s.whip w.val).katRepeat = true)
    (hx : x = { s.whip w.val with state := 0, katRepeat := false }) : exec (.whippetKatDone w pass) s =
    .next (katResult (64 + w.val) (if pass = false then 2 else if (s.whip w.val).katRepeat then 1 else 0) (s.setWhip w.val x)) := by
  change execWhippetKatDone w pass s = _
  subst hx
  unfold execWhippetKatDone
  refine (if_neg (not_not.2 h)).trans ((if_neg ?_).trans ?_)
  · rcases hp with hp | hp <;> simp [hp]
  · cases pass <;> rfl

/-- A core as its test ends. -/
def coreFreed (c : Nat) (s : State) : State :=
  { s.setCore c { s.core c with state := 0, katRepeat := false } with kat := { s.kat with core := none } }

/-- A Whippet as its test ends. -/
def whipFreed (w : Nat) (s : State) : State := s.setWhip w { s.whip w with state := 0, katRepeat := false }

/-- A core test that no request waits for ends: no test is due. -/
theorem katDone_core_idle {pass : Bool} (h : (s.core c.val).state = 3 ∧ (s.core c.val).katAt + katLength (s.die (coreDie
    c.val)) ≤ s.beat) (hp : pass = true ∨ (s.core c.val).katRepeat = true) (hq : s.kat.queue = []) (hr : s.kat.running = []) :
    exec (.matrixCoreKatDone c pass) s = .next (katResult c.val (if pass = false then 2 else if (s.core c.val).katRepeat then 1
      else 0) (coreFreed c.val s)) := by
  rw [katDone_core h hp rfl, settleKat_idle]
  · rfl
  · rw [katResult_kat _ _ (by exact hr)]
    exact hq

/-- What the end of a core test leaves, where no request waits for it. -/
theorem katResult_coreFreed (k r : Nat) (hr : s.kat.running = []) :
    (katResult k r (coreFreed k s)).core k = { s.core k with state := 0, katRepeat := false } ∧
    (∀ n, n ≠ k → (katResult k r (coreFreed k s)).core n = s.core n) ∧ (katResult k r (coreFreed k s)).kat.core = none ∧
    Keeps 1907725051219 s (katResult k r (coreFreed k s)) := by
  have hcores := fun n => State.core_of_cores ((katResult_keeps k r (coreFreed k s)).cores rfl) n
  have hk : (katResult k r (coreFreed k s)).kat = { s.kat with core := none } := katResult_kat (s := coreFreed k s) k r hr
  refine ⟨(hcores k).trans (State.core_setCore ..), fun n hn => (hcores n).trans (State.core_setCore_other s _ hn), ?_, ?_⟩
  · rw [hk]
  · exact katResult_keeps_k (by decide) (Keeps.u17179869184 (by decide) (State_setCore_keeps_k (by decide) (Keeps.refl _ s)))

/-- What the end of a Whippet's test leaves. -/
theorem katResult_whipFreed (unit k r : Nat) (s : State) :
    (katResult unit r (whipFreed k s)).whip k = { s.whip k with state := 0, katRepeat := false } ∧
    (∀ n, n ≠ k → (katResult unit r (whipFreed k s)).whip n = s.whip n) ∧
    Keeps 1907725051331 s (katResult unit r (whipFreed k s)) := by
  have hwhips := fun n => State.whip_of_whips ((katResult_keeps unit r (whipFreed k s)).whips rfl) n
  exact ⟨(hwhips k).trans (State.whip_setWhip ..), fun n hn => (hwhips n).trans (State.whip_setWhip_other s _ hn),
    katResult_keeps_k (by decide) (State_setWhip_keeps_k (by decide) (Keeps.refl _ s))⟩

theorem exec_testModeExpiry (s : State) : exec .testModeExpiry s =
    if s.test.unlocked = true ∧ s.test.since + s.obj Obj.testModeMaxS * 1000000000 ≤ s.beat then .next (lockTest s) else .next s := rfl

/-- A record of kind 1 to 12. -/
theorem exec_traceRecord (site : SiteId) (unit : W16) (kind : Byte) (payload : Bytes) (s : State) :
    exec (.traceRecord site unit kind payload) s = if kind.toNat = 0 ∨ 0x0C < kind.toNat then .next s
      else .next (traceMake site.val unit.toNat kind.toNat payload s) := rfl

end

/-- Test mode locked, but for the objects that show it. -/
def testLocked (s : State) : State := { s with
  test := { s.test with unlocked := false }
  ports := s.ports.map (fun (p : Nat × FPort) => (p.1, { p.2 with inject := { p.2.inject with mode := 0 } }))
  strings := s.strings.map (fun (p : Nat × Str) => (p.1, { p.2 with inject := { p.2.inject with mode := 0 } }))
  pod := { s.pod with testLine := false } }

section
variable {site unit kind : Nat} {payload : Bytes} {s : State}
  (h : s.beagle.state = 1 ∧ (s.obj Obj.beagleSourceMask).testBit (kind - 1) = true)
include h

/-- A record of an enabled kind finds room in its site's queue. -/
theorem traceMake_queued (hq : (tget [] site s.beagle.queues).length < traceQueueLen) : traceMake site unit kind payload s =
    { s with beagle := { s.beagle with queues := tset site ((tget [] site s.beagle.queues) ++ [{ beat := s.beat, kind, site, unit, lost := tget false site s.beagle.lostAt, seq := tget 0 site s.beagle.seqs, payload := fitBytes 32 payload }]) s.beagle.queues, lostAt := tset site false s.beagle.lostAt, seqs := tset site ((tget 0 site s.beagle.seqs + 1) % 2 ^ 24) s.beagle.seqs } } := by
  unfold traceMake
  exact (if_pos h).trans (if_neg (Nat.not_le.mpr hq))

/-- A record for a full queue is lost and counted. -/
theorem traceMake_lost (hq : traceQueueLen ≤ (tget [] site s.beagle.queues).length) : traceMake site unit kind payload s =
    ({ s with beagle := { s.beagle with lostAt := tset site true s.beagle.lostAt, seqs := tset site ((tget 0 site s.beagle.seqs + 1) % 2 ^ 24) s.beagle.seqs } }
      : State).count Obj.beagleLost 1 := by
  unfold traceMake
  exact (if_pos h).trans (if_pos hq)

end

/-- What was suppressed in the second, summarised in the log. -/
def secondSummed (s : State) : State := s.log.second.foldl (fun v r => if 0 < r.2.2.1 then
  logWrite r.1.1 r.2.2.2 r.1.2.2.2 r.1.2.1 r.1.2.2.1 4 (leBytes 4 r.2.2.1) v else v) s

theorem closeSecond_eq (s : State) : closeSecond s = { secondSummed s with
    log := { (secondSummed s).log with second := [], secondNo := (secondSummed s).beat / 1000000000 } } := rfl

theorem secondSummed_beat (s : State) : (secondSummed s).beat = s.beat := by
  unfold secondSummed
  refine foldl_kept (p := State.beat) (fun v r => ?_) _ s
  split
  · exact (logWrite_keeps ..).beat rfl
  · rfl

/-- Nothing was suppressed, so nothing is summarised. -/
theorem closeSecond_quiet {s : State} (h : s.log.second.all (fun r => r.2.2.1 == 0) = true) :
    closeSecond s = { s with log := { s.log with second := [], secondNo := s.beat / 1000000000 } } := by
  unfold closeSecond
  generalize s.log.second = l at h
  have hf : l.foldl (fun v r => if 0 < r.2.2.1 then logWrite r.1.1 r.2.2.2 r.1.2.2.2 r.1.2.1 r.1.2.2.1 4 (leBytes 4 r.2.2.1) v
      else v) s = s := by
    induction l with
    | nil => rfl
    | cons r l ih =>
      rw [List.all_cons, Bool.and_eq_true, beq_iff_eq] at h
      rw [List.foldl_cons, if_neg (by omega), ih h.2]
  rw [hf]

/-- Settles O50: which test is due comes from `dueCore_spec`, what a result leaves from the parts of `katResult`. -/
theorem knownAnswerTests : Obligations.KnownAnswerTests := by
  unfold Obligations.KnownAnswerTests
  refine ⟨?_, ?_, ?_, ?_, ?_, ?_, ?_, ?_, ?_, ?_, ?_, ?_, ?_, ?_, ?_, ?_, ?_, ?_, ?_, ?_, ?_, ?_, ?_, ?_, ?_, ?_⟩
  case _ =>
    intro unit s ⟨hh, h3, h7, hu, hn, ht⟩
    exact ⟨_, (if_neg (by omega)).trans ((if_pos hu).trans (if_pos ⟨hn, ht⟩)), rfl⟩
  case _ =>
    intro unit s ⟨hh, h3, h7, h64, hu, hn, ht⟩
    exact ⟨_, (if_neg (by omega)).trans ((if_neg (by omega)).trans (if_pos ⟨hn, ht⟩)), rfl⟩
  case _ =>
    intro unit s hcore hwhip
    refine ⟨s, ?_, rfl⟩
    change execKatPeriodic unit s = _
    unfold execKatPeriodic
    refine ite_eq_left_iff.mpr fun hg => ?_
    by_cases hu : unit < 64
    · exact (if_pos hu).trans (if_neg fun hc => hcore ⟨by omega, by omega, by omega, hu, hc.1, hc.2⟩)
    · exact (if_neg hu).trans (if_neg fun hc => hwhip ⟨by omega, by omega, by omega, by omega, by omega, hc.1, hc.2⟩)
  case _ => exact fun s => ⟨dueCore s, settleKat_eq s, dueCore_spec s⟩
  case _ =>
    intro c s h
    obtain ⟨x, hx⟩ : ∃ x : Core, x = { s.core c.val with state := 3, katRepeat := false, katAt := s.beat } := ⟨_, rfl⟩
    have he := (exec_matrixCoreKat c s).trans (if_pos h)
    rw [← hx] at he ⊢
    have hk := katStart_kat c.val ((settleKat s).setCore c.val x)
    have hr := katStart_runs c.val ((settleKat s).setCore c.val x)
    have hc := State.core_of_cores ((katStart_keeps c.val ((settleKat s).setCore c.val x)).cores rfl) c.val
    have ht : Keeps 17179869202 s (katStart c.val ((settleKat s).setCore c.val x)) :=
      katStart_keeps_k (by decide) (State_setCore_keeps_k (by decide) (settleKat_keeps_k (by decide) (Keeps.refl _ s)))
    refine ⟨_, he, rfl, hr.trans ?_, hc.trans (State.core_setCore ..), ?_, ?_, ht.eq⟩
    · rw [settleKat_eq]; rfl
    · rw [hk, settleKat_eq]; rfl
    · rw [hk, settleKat_eq]; rfl
  case _ => exact fun c s h => ⟨_, (exec_matrixCoreKat c s).trans (if_neg h), rfl⟩
  case _ =>
    intro c pass s h
    exact ⟨s, if_pos (by omega), rfl⟩
  case _ =>
    intro c s h hr
    exact ⟨_, (if_neg (by omega)).trans (if_pos (by simp [hr])), rfl⟩
  case _ =>
    intro c pass u s h hp hu
    exact ⟨_, katDone_core h hp rfl, by rw [hu]⟩
  case _ =>
    intro c s h hq hr
    have he := katDone_core_idle h (.inl rfl) hq hr
    rw [if_neg (by decide)] at he
    generalize hres : (if (s.core c.val).katRepeat = true then 1 else 0) = r at he
    have hr2 : r < 2 := by rw [← hres]; split <;> omega
    obtain ⟨hlast, hresult⟩ := katResult_last (s := coreFreed c.val s) hr (show c.val < 320 by omega) hr2
    obtain ⟨hc, ho, hk, ht⟩ := katResult_coreFreed c.val r hr
    exact ⟨_, he, hc, ho, hk, hlast, hresult, ht.eq⟩
  case _ =>
    intro c s h hrep hq hr
    obtain ⟨hc, -, hk, ht⟩ := katResult_coreFreed c.val 2 hr
    exact ⟨_, katDone_core_idle h (.inr hrep) hq hr, hc, hk, katResult_disabled (s := coreFreed c.val s) hr (by omega), ht.eq⟩
  case _ =>
    intro w s h
    obtain ⟨x, hx⟩ : ∃ x : Whip, x = { s.whip w.val with state := 2, katRepeat := false } := ⟨_, rfl⟩
    have he : exec (.whippetKat w) s = .next (katStart (64 + w.val) (s.setWhip w.val
      { s.whip w.val with state := 2, katRepeat := false })) := if_pos h
    rw [← hx] at he ⊢
    have hk := katStart_kat (64 + w.val) (s.setWhip w.val x)
    have hr := katStart_runs (64 + w.val) (s.setWhip w.val x)
    have hc := State.whip_of_whips ((katStart_keeps (64 + w.val) (s.setWhip w.val x)).whips rfl) w.val
    have ht : Keeps 17179869314 s (katStart (64 + w.val) (s.setWhip w.val x)) :=
      katStart_keeps_k (by decide) (State_setWhip_keeps_k (by decide) (Keeps.refl _ s))
    refine ⟨_, he, rfl, hr, hc.trans (State.whip_setWhip ..), ?_, ?_, ht.eq⟩
    · rw [hk]; rfl
    · rw [hk]; rfl
  case _ => exact fun w s h => ⟨s, if_neg h, rfl⟩
  case _ => exact fun w pass s h => ⟨s, if_pos h, rfl⟩
  case _ =>
    intro w s h hr
    exact ⟨_, (if_neg (not_not.2 h)).trans (if_pos (by simp [hr])), rfl⟩
  case _ => exact fun w pass s h hp => ⟨_, katDone_whip h hp rfl, rfl⟩
  case _ =>
    intro w s h hr
    have he := katDone_whip h (.inl rfl) rfl
    rw [if_neg (by decide)] at he
    generalize hres : (if (s.whip w.val).katRepeat = true then 1 else 0) = r at he
    have hr2 : r < 2 := by rw [← hres]; split <;> omega
    obtain ⟨hlast, hresult⟩ := katResult_last (s := whipFreed w.val s) hr (show 64 + w.val < 320 by omega) hr2
    obtain ⟨hw, ho, ht⟩ := katResult_whipFreed (64 + w.val) w.val r s
    exact ⟨_, he, hw, ho, hlast, hresult, ht.eq⟩
  case _ =>
    intro w s h hrep hr
    obtain ⟨hw, -, ht⟩ := katResult_whipFreed (64 + w.val) w.val 2 s
    exact ⟨_, katDone_whip h (.inr hrep) rfl, hw, katResult_disabled (s := whipFreed w.val s) hr (by omega), ht.eq⟩
  case _ =>
    intro s h
    obtain ⟨t, ht⟩ : ∃ t, t = lockTest s := ⟨_, rfl⟩
    have he : t = ((((testLocked s).setObj Obj.ballastEnable 1).setObj Obj.fiMode 0).setObj Obj.sfiMode 0) := ht.trans (if_pos h.1)
    refine ⟨t, (exec_testModeExpiry s).trans ((if_pos h).trans (by rw [ht])), ?_, ?_, ?_, ?_, ?_, ?_, ?_, ?_, ?_⟩
    · rw [he]; rfl
    · rw [he]; rfl
    · rw [he]; rfl
    · rw [he]; rfl
    · rw [he, State.obj_setObj_other _ _ (by decide), State.obj_setObj_other _ _ (by decide), State.obj_setObj]; rfl
    · rw [he, State.obj_setObj_other _ _ (by decide), State.obj_setObj]; rfl
    · rw [he, State.obj_setObj]; rfl
    · intro k hk
      simp only [List.mem_cons, List.not_mem_nil, or_false, not_or] at hk
      obtain ⟨h1, h2, h3⟩ := hk
      rw [he, State.obj_setObj_other _ _ h3, State.obj_setObj_other _ _ h2, State.obj_setObj_other _ _ h1]
      rfl
    · rw [ht]
      exact (lockTest_keeps s).eq
  case _ => exact fun s h => ⟨s, if_neg h, rfl⟩
  case _ =>
    intro site unit kind payload s ⟨h0, hk, hb, hm⟩ hq
    exact ⟨_, (if_neg (by omega)).trans (congrArg Host.Outcome.next (traceMake_queued ⟨hb, hm⟩ hq)), rfl⟩
  case _ =>
    intro site unit kind payload s ⟨h0, hk, hb, hm⟩ hq
    exact ⟨_, (if_neg (by omega)).trans (congrArg Host.Outcome.next (traceMake_lost ⟨hb, hm⟩ hq)), rfl,
      obj_count_of_od rfl (by decide), count_untouched_of_od rfl⟩
  case _ =>
    intro site unit kind payload s h
    refine ⟨s, (exec_traceRecord ..).trans ?_, rfl⟩
    by_cases hk : kind.toNat = 0 ∨ 0x0C < kind.toNat
    · exact if_pos hk
    · exact (if_neg hk).trans (congrArg Host.Outcome.next (if_neg fun hc => h ⟨by omega, by omega, hc⟩))
  case _ =>
    intro u s h hu
    refine ⟨_, if_pos h, ?_⟩
    rw [closeSecond_eq, secondSummed_beat, hu]
    rfl
  case _ => exact fun s h hq => ⟨_, if_pos h, closeSecond_quiet hq⟩
  case _ => exact fun s h => ⟨s, if_neg h, rfl⟩

end Sys2Proof.Machine
end

section
/-! PROOFS. A WRITE of one object: whether it is let in, what is said of its value, what an accepted one does, and its answer. -/

namespace Sys2Proof.Machine

section
variable {w : WReq} {k : Nat} {x : WAux} {s : State}

theorem dictAdmit_admitted {msg : Nat} {h : DictHdr} (op : State → State) (ha : Admitted h s) :
    dictAdmit msg h op s = op (noteRequest h s) := by
  obtain ⟨hp, hin, hboot, hlevel⟩ := ha
  unfold dictAdmit
  rw [if_neg (by rw [hp]; decide)]
  cases hu : h.uart with
  | true =>
    obtain ⟨hhunt, hcrc⟩ : s.config.uartHunt = false ∧ h.crcOk = true := by simpa [hu] using hin
    refine (if_neg (by rw [hhunt, hcrc]; decide)).trans ((if_neg (by simp)).trans ?_)
    exact (if_neg (not_not.2 hboot)).trans (if_neg (by rw [hlevel]; decide))
  | false =>
    obtain ⟨hauth, hseq⟩ : authentic s h = true ∧ seqFresh s h = true := by simpa [hu] using hin
    refine (if_neg (by simp)).trans ((if_neg (by simp [hauth, hseq])).trans ?_)
    exact (if_neg (not_not.2 hboot)).trans (if_neg (by rw [hlevel]; decide))

/-- The state with the value of object `k` taken from the segments of a WRITE. -/
def valueTaken (h : DictHdr) (k : Nat) (s : State) : State := { s with config := taken h k s }

/-- A value that comes whole in one WRITE. -/
def Complete (w : WReq) (b : Bytes) : Prop := w.offset = 0 ∧ w.last = true ∧ w.total = b.length ∧ w.data = b

theorem Complete.of_whole {ty : Nat} {b : Bytes} (h : Whole w ty b) : Complete w b := h.2

theorem takeSegment_complete {b : Bytes} (hw : Complete w b) :
    takeSegment w.hdr k w (noteRequest w.hdr s) = .whole b (valueTaken w.hdr k s) := by
  obtain ⟨ho, hl, ht, rfl⟩ := hw
  unfold takeSegment
  simp only [ho, if_true, List.nil_append, List.length_nil]
  rw [if_neg (by rw [hl, ht]; simp), if_pos hl]
  rfl

theorem openCodeOf_note (h : DictHdr) : openCodeOf (noteRequest h s) h k w = openCodeOf s h k w := rfl

/-- A WRITE refused before its value is looked at. -/
theorem write_refused {c : Nat} (ha : Admitted w.hdr s) (hc : openCodeOf s w.hdr k w = c) (h0 : c ≠ 0) :
    writeMessage k w x s = answerWrite w.hdr c (noteRequest w.hdr s) := by
  subst hc
  exact (dictAdmit_admitted _ ha).trans (if_pos h0)

variable {b : Bytes} (ha : Admitted w.hdr s) (hw : Complete w b) (hc : openCodeOf s w.hdr k w = 0)
include ha hw hc

theorem write_complete : writeMessage k w x s = if valueCode (valueTaken w.hdr k s) k b ≠ 0
    then answerWrite w.hdr (valueCode (valueTaken w.hdr k s) k b) (valueTaken w.hdr k s)
    else writeWhole w.hdr k w b x (valueTaken w.hdr k s) := by
  refine (dictAdmit_admitted _ ha).trans ?_
  unfold dictWrite
  refine (if_neg (not_not.2 hc)).trans ?_
  rw [takeSegment_complete hw]

/-- A value refused for itself. -/
theorem write_value_refused {c : Nat} (hv : valueCode (valueTaken w.hdr k s) k b = c) (h0 : c ≠ 0) :
    writeMessage k w x s = answerWrite w.hdr c (valueTaken w.hdr k s) := by
  subst hv
  exact (write_complete ha hw hc).trans (if_pos h0)

variable (hv : valueCode (valueTaken w.hdr k s) k b = 0)
include hv

theorem write_value_taken : writeMessage k w x s = writeWhole w.hdr k w b x (valueTaken w.hdr k s) :=
  (write_complete ha hw hc).trans (if_neg (not_not.2 hv))

end


/-! ### The row of an object -/

/-- Object `k` is written as an unsigned number of type `ty` and `len` bytes from `lo` to `hi`, and is no byte string. -/
def RowIs (k ty len : Nat) (lo hi : Int) : Prop := ∃ r, objRow k = some r ∧ k / 0x100000 ≠ 9 ∧ r.acc ≠ 1 ∧ r.ty = ty ∧
  lengthOk r len = true ∧ r.lo = lo ∧ r.hi = hi ∧ byteType ty = false ∧ signedType ty = false

/-- The same as a test of the table. -/
def rowIs (k ty len : Nat) (lo hi : Int) : Bool := (objRow k).any fun r => decide (k / 0x100000 ≠ 9 ∧ r.acc ≠ 1 ∧ r.ty = ty ∧
  lengthOk r len = true ∧ r.lo = lo ∧ r.hi = hi ∧ byteType ty = false ∧ signedType ty = false)

theorem RowIs.of_table {k ty len : Nat} {lo hi : Int} (h : rowIs k ty len lo hi = true) : RowIs k ty len lo hi := by
  obtain ⟨r, hr, hd⟩ := (Option.any_eq_true ..).mp h
  exact ⟨r, hr, of_decide_eq_true hd⟩

section
variable {w : WReq} {k ty len : Nat} {lo hi : Int} {b : Bytes} {s : State} (hr : RowIs k ty len lo hi)
include hr

theorem openCodeOf_row (hw : Whole w ty b) (hb : b.length = len) (h8 : s.dev.state ≠ 8 ∨ k = Obj.restartRequest) :
    openCodeOf s w.hdr k w = stateCode s w.hdr.uart k := by
  obtain ⟨r, hrow, h9, hacc, hty, hlen, -⟩ := hr
  obtain ⟨hwty, -, -, hwt, -⟩ := hw
  have hex : existsCode k = 0 := by unfold existsCode; rw [hrow]
  have hac : accessOf k = r.acc := by unfold accessOf; rw [hrow]
  unfold openCodeOf
  refine (if_neg ?_).trans ?_
  · rintro ⟨hf, hk, -⟩
    exact h8.elim (fun h => h (by simpa [State.faultStop] using hf)) hk
  · simp only [hex, ne_eq, not_true_eq_false, if_false, if_neg h9, hac, if_neg hacc, hrow]
    rw [if_neg (c := w.ty.toNat ≠ r.ty ∨ _) (by simp [hwty, hty, hwt, hb, hlen])]
    split
    · rfl
    · next h => exact (not_not.mp h).symm

theorem valueCode_row (hlo : lo ≤ leNat b) (hhi : (leNat b : Int) ≤ hi) (hs : k ≠ Obj.storeSel) (hl : k ≠ Obj.logSel) :
    valueCode s k b = if stateCodeOf s k (leNat b) ≠ 0 then 0x1105 else if ownRule s k (leNat b) ≠ 0 then 0x1204
      else lockCode s k (leNat b) := by
  obtain ⟨r, hrow, h9, hacc, hty, hlen, rfl, rfl, hbyte, hsign⟩ := hr
  have hrange : rangeCode r b = 0 := by
    unfold rangeCode
    rw [hty, if_neg (by rw [hbyte]; decide)]
    simp only [hsign, Bool.false_eq_true, if_false]
    rw [if_neg (by omega), if_neg (by omega)]
  unfold valueCode
  simp only [hrow, hrange, ne_eq, not_true_eq_false, if_false]
  rw [if_neg (fun h => hs h.1), if_neg (fun h => hl h.1)]

end

/-! ### What an accepted value does -/

/-- An object that an accepted value sets nothing of: it acts. -/
def actsOnly (k : Nat) : Bool := match objRow k with | some r => !(r.acc == 3 || r.flags.testBit 0) | none => true

/-- An object outside the configuration that is neither of the two that manage the staged set. -/
def unkept (k : Nat) : Bool := k != Obj.stageDiscard && k != Obj.configRestore &&
  !(match objRow k with | some r => r.flags.testBit 0 | none => false)

/-- The action of an object that acts. -/
def actionOf (hdr : Option DictHdr) (client k : Nat) (b : Bytes) (x : WAux) (s : State) : State :=
  actTest hdr k (leNat b) (actDevice client k (leNat b) x (actImage k (leNat b) b x (actLight k (leNat b) s)))

theorem applyObj_acts {k : Nat} (hk : actsOnly k = true) (hdr : Option DictHdr) (client : Nat) (ty : Byte) (b : Bytes) (x : WAux)
    (s : State) : applyObj hdr client { key := k, ty, data := b } x s = actionOf hdr client k b x s := by
  unfold applyObj
  refine if_neg ?_
  unfold actsOnly at hk
  dsimp only
  cases hr : objRow k with
  | none => simp
  | some r =>
    rw [hr] at hk
    simpa using hk

section
variable {h : DictHdr} {w : WReq} {k : Nat} {b : Bytes} {x : WAux} {s : State} (hk : unkept k = true)
include hk

theorem writeWhole_unkept : writeWhole h k w b x s = if actCode s k (leNat b) b x ≠ 0 then
      answerWrite h (actCode s k (leNat b) b x) s
    else if k = Obj.isolationClear then applyObj (some h) h.client.toNat { key := k, ty := w.ty, data := b } x s
    else answerWrite h 0 (applyObj (some h) h.client.toNat { key := k, ty := w.ty, data := b } x s) := by
  unfold unkept at hk
  simp only [Bool.and_eq_true, bne_iff_ne, ne_eq, Bool.not_eq_true'] at hk
  obtain ⟨⟨hd, hc⟩, hp⟩ := hk
  have hper : persistent { key := k, ty := w.ty, data := b } = false := hp
  unfold writeWhole
  refine (if_neg hd).trans ((if_neg ?_).trans ((if_neg hc).trans ((if_neg ?_).trans rfl)))
  · rintro ⟨-, h | h⟩
    · rw [hper] at h
      cases h
    · exact hc h
  · rw [hper]
    decide

end

/-! ### The commands -/

section
variable {w : WReq} {k : Nat} {x : WAux} {b : Bytes} {s : State} (ha : Admitted w.hdr s) (hw : Complete w b)
  (hc : openCodeOf s w.hdr k w = 0) (hv : valueCode (valueTaken w.hdr k s) k b = 0) (hk : unkept k = true)
include ha hw hc hv hk

/-- A value that its object's action refuses. -/
theorem write_act_refused {c : Nat} (hact : actCode (valueTaken w.hdr k s) k (leNat b) b x = c) (h0 : c ≠ 0) :
    writeMessage k w x s = answerWrite w.hdr c (valueTaken w.hdr k s) := by
  subst hact
  exact (write_value_taken ha hw hc hv).trans ((writeWhole_unkept hk).trans (if_pos h0))

/-- An accepted value of an object outside the configuration. -/
theorem write_applied (hact : actCode (valueTaken w.hdr k s) k (leNat b) b x = 0) (hi : k ≠ Obj.isolationClear) :
    writeMessage k w x s = answerWrite w.hdr 0 (applyObj (some w.hdr) w.hdr.client.toNat { key := k, ty := w.ty, data := b } x
      (valueTaken w.hdr k s)) :=
  (write_value_taken ha hw hc hv).trans ((writeWhole_unkept hk).trans ((if_neg (not_not.2 hact)).trans (if_neg hi)))

/-- An accepted value of an object that acts. -/
theorem write_acted (hact : actCode (valueTaken w.hdr k s) k (leNat b) b x = 0) (hi : k ≠ Obj.isolationClear)
    (ho : actsOnly k = true) : writeMessage k w x s =
    answerWrite w.hdr 0 (actionOf (some w.hdr) w.hdr.client.toNat k b x (valueTaken w.hdr k s)) := by
  rw [write_applied ha hw hc hv hk hact hi, applyObj_acts ho]

end

/-! ### Answers -/

theorem answerWrite_eq {h : DictHdr} {c : Nat} {s : State} (h8 : s.dev.state ≠ 8) :
    answerWrite h c s = { s with pair := { s.pair with cur := s.pair.cur ++ [dictReply h 2 (leBytes 2 c) s] } } :=
  if_neg (by simpa [State.faultStop] using h8)

/-- An answer where nothing else has happened but to the configuration side. -/
theorem answered_plain {h : DictHdr} {c : Nat} {cfg : CfgState} {s : State} (h8 : s.dev.state ≠ 8) :
    (answerWrite h c { s with config := cfg }).config = cfg ∧
    Replied h 2 (leBytes 2 c) s (answerWrite h c { s with config := cfg }) ∧ answerWrite h c { s with config := cfg } =
      { s with config := (answerWrite h c { s with config := cfg }).config, pair := (answerWrite h c { s with config := cfg }).pair } := by
  rw [answerWrite_eq (by exact h8)]
  exact ⟨rfl, rfl, rfl⟩


/-- What an answer adds to the pair where the number of boots stays. -/
theorem answerWrite_pair {h : DictHdr} {c : Nat} {s v : State} (h8 : v.dev.state ≠ 8)
    (hboot : v.obj Obj.bootCount = s.obj Obj.bootCount) :
    (answerWrite h c v).pair = { v.pair with cur := v.pair.cur ++ [dictReply h 2 (leBytes 2 c) s] } := by
  have hreply : dictReply h 2 (leBytes 2 c) v = dictReply h 2 (leBytes 2 c) s := by
    unfold dictReply
    rw [hboot]
  rw [answerWrite_eq h8, hreply]

theorem answerWrite_kept {h : DictHdr} {c m n : Nat} {s v : State} (hv : Keeps m s v) (e : (m ||| 134217728) ||| n = n)
    (h8 : v.dev.state ≠ 8) : Keeps n s (answerWrite h c v) := by
  rw [answerWrite_eq h8]
  refine Keeps.mono (Keeps.u134217728 ?_ (hv.mono (n := m ||| 134217728) ?_)) e
  · rw [Nat.or_comm, Nat.or_assoc, Nat.or_self]
  · rw [← Nat.or_assoc, Nat.or_self]

/-- An answer after what leaves the pair and the number of boots alone. -/
theorem answered {h : DictHdr} {c m n : Nat} {s v : State} (hv : Keeps m s v) (hpair : m.testBit 27 = false)
    (e : (m ||| 134217728) ||| n = n) (h8 : v.dev.state ≠ 8) (hboot : v.obj Obj.bootCount = s.obj Obj.bootCount) :
    (answerWrite h c v).config = v.config ∧ Replied h 2 (leBytes 2 c) s (answerWrite h c v) ∧ Keeps n s (answerWrite h c v) := by
  refine ⟨by rw [answerWrite_eq h8], ?_, answerWrite_kept hv e h8⟩
  unfold Replied
  rw [answerWrite_pair h8 hboot, hv.pair hpair]

/-- An answer after an action that leaves the configuration alone too. -/
theorem answered_act {h : DictHdr} {c k m n : Nat} {s v : State} (hv : Keeps m (valueTaken h k s) v)
    (hcfg : m.testBit 25 = false) (hpair : m.testBit 27 = false) (e : (m ||| 167772160) ||| n = n) (h8 : v.dev.state ≠ 8)
    (hboot : v.obj Obj.bootCount = s.obj Obj.bootCount) : (answerWrite h c v).config = taken h k s ∧
    Replied h 2 (leBytes 2 c) s (answerWrite h c v) ∧ Keeps n s (answerWrite h c v) := by
  have hu : Keeps (m ||| 33554432) s v := by
    refine Keeps.tr (Keeps.mono (m := 33554432) (Keeps.u33554432 (by decide) (Keeps.refl _ s)) ?_) (hv.mono ?_)
    · rw [Nat.or_comm, Nat.or_assoc, Nat.or_self]
    · rw [← Nat.or_assoc, Nat.or_self]
  have hp : (m ||| 33554432).testBit 27 = false := by
    rw [Nat.testBit_or, hpair]
    decide
  obtain ⟨hc, hr, hk⟩ := answered (h := h) (c := c) hu hp (n := n) (by rw [Nat.or_assoc m]; exact e) h8 hboot
  exact ⟨hc.trans (hv.config hcfg), hr, hk⟩

/-! ### An object of the configuration -/

section
variable {h : DictHdr} {k v : Nat} {ty : Byte} {b : Bytes} {client digest : Nat} {e : Entry} {x : WAux} {s : State}

/-- The configuration with one entry more: both copies are the next generation. -/
def withEntry (e : Entry) (c : CfgState) : CfgState :=
  let base := (baseCopy c).getD {}
  let gen : W64 := (if (baseCopy c).isSome then base.gen else 0) + 1
  let copy : ConfigCopy :=
    { status := 0, gen, entries := putEntry e (if (baseCopy c).isSome then base.entries else []) }
  { c with copyA := copy, copyB := copy, gen }

theorem committedOne_iff {t : State} : CommittedOne h e s t ↔ t.config = withEntry e (taken h e.key s) := Iff.rfl

theorem storeEntries_config : (storeEntries client digest [e] s).config = withEntry e s.config := by
  have ht : (storeEntries client digest [e] s).config =
      (newGeneration (((baseCopy s.config).map (fun (c : ConfigCopy) => c.entries)).getD []) [e] s).config :=
    (traceMake_keeps ..).config rfl
  rw [ht]
  unfold newGeneration withEntry
  cases baseCopy s.config <;> rfl

theorem storeEntries_untouched : Untouched logCounters s (storeEntries client digest [e] s) :=
  Untouched.trans (l := []) (.of_od rfl) (traceMake_untouched _ _ _ _ _) (by simp)

/-- The commit of one entry outside the window table and the ensemble. -/
theorem applySet_one (hp : persistent e = true) (hw : isOneOf Obj.winEntryN 128 e.key = false)
    (he : isOneOf Obj.ensId 4 e.key = false) : applySet client [e] x s =
    resumeBoot (applyObj none client e x (storeEntries client (entriesDigest [e]) [e] s)) := by
  have hf : [e].filter persistent = [e] := by simp [hp]
  unfold applySet
  simp only [hf, List.any_cons, List.any_nil, hw, he, Bool.or_false, Bool.false_eq_true, if_false]
  rfl

theorem resumeBoot_idle (hs : ¬ (s.dev.state = 3 ∧ s.dev.heldAtBoot = true)) : resumeBoot s = s := if_neg hs

/-- An unsigned value kept as it is, and what follows from it. -/
theorem applyObj_kept (hk : actsOnly k = false) (hl : lockedValue k = none) (hb : byteType ty.toNat = false)
    (hs : signedType ty.toNat = false) (hdr : Option DictHdr) : applyObj hdr client { key := k, ty, data := b } x s =
    afterValue k (leNat b) (s.setObj k (leNat b)) := by
  unfold applyObj
  refine (if_pos ?_).trans ?_
  · unfold actsOnly at hk
    dsimp only
    cases hr : objRow k with
    | none => rw [hr] at hk; cases hk
    | some r =>
      rw [hr] at hk
      cases hc : r.acc == 3 || r.flags.testBit 0 with
      | true => exact hc
      | false =>
        dsimp only at hk
        rw [hc] at hk
        cases hk
  · simp only [hl, Option.getD_none, ite_self, hb, Bool.false_eq_true, if_false]
    unfold putValue widen
    simp only [hb, hs, Bool.false_eq_true, if_false, leNat_leBytes, Nat.mod_eq_of_lt (leNat_lt b)]

end

/-- An object of the configuration that is kept as it is and belongs to no table. -/
def setAlone (k : Nat) : Bool := k != Obj.stageDiscard && k != Obj.configRestore && !actsOnly k &&
  (match objRow k with | some r => r.flags.testBit 0 | none => false) && (lockedValue k).isNone &&
  !isOneOf Obj.winEntryN 128 k && !isOneOf Obj.ensId 4 k

section
variable {w : WReq} {k : Nat} {x : WAux} {b : Bytes} {s : State}

/-- The state with the value of a WRITE committed, before what follows from it. -/
def committed (w : WReq) (k : Nat) (b : Bytes) (s : State) : State :=
  (storeEntries w.hdr.client.toNat (entriesDigest [{ key := k, ty := w.ty, data := b }]) [{ key := k, ty := w.ty, data := b }]
    (valueTaken w.hdr k s)).setObj k (leNat b)

theorem committed_keeps : Keeps 68753031170 s (committed w k b s) := by
  unfold committed valueTaken
  exact State_setObj_keeps_k (by decide) (storeEntries_keeps_k (by decide) (Keeps.u33554432 (by decide) (Keeps.refl _ s)))

theorem committed_config : (committed w k b s).config = withEntry { key := k, ty := w.ty, data := b } (taken w.hdr k s) :=
  ((State_setObj_keeps ..).config rfl).trans storeEntries_config

theorem committed_obj : (committed w k b s).obj k = leNat b % 2 ^ 64 := State.obj_setObj ..

theorem committed_untouched : Untouched (k :: logCounters) s (committed w k b s) := by
  intro j hj
  obtain ⟨h1, h2⟩ := not_or.mp (mt List.mem_cons.mpr hj)
  exact (State.obj_setObj_other _ _ h1).trans (storeEntries_untouched j h2)

variable (ha : Admitted w.hdr s) (hw : Complete w b) (hc : openCodeOf s w.hdr k w = 0)
  (hv : valueCode (valueTaken w.hdr k s) k b = 0) (hk : setAlone k = true) (hi : s.power.input ≠ 3)
  (ho : s.config.owner = none ∨ s.config.owner = some w.hdr.client)
include ha hw hc hv hk hi ho

/-- An accepted value of an object of the configuration is a set of one. -/
theorem write_set (hset : setCode [{ key := k, ty := w.ty, data := b }] x (valueTaken w.hdr k s) = none) : writeMessage k w x s =
    answerWrite w.hdr 0 (applySet w.hdr.client.toNat [{ key := k, ty := w.ty, data := b }] x (valueTaken w.hdr k s)) := by
  simp only [setAlone, Bool.and_eq_true, bne_iff_ne, ne_eq] at hk
  obtain ⟨⟨⟨⟨⟨⟨hd, hr⟩, -⟩, hp⟩, -⟩, -⟩, -⟩ := hk
  have hper : persistent { key := k, ty := w.ty, data := b } = true := hp
  have hstop : commitsStopped (valueTaken w.hdr k s) = false := by
    change (s.power.input == 3) = false
    simpa using hi
  have hown : ownedByOther (valueTaken w.hdr k s) w.hdr = false := by
    change (s.config.owner.isSome && s.config.owner != some w.hdr.client) = false
    rcases ho with ho | ho <;> simp [ho]
  refine (write_value_taken ha hw hc hv).trans ?_
  unfold writeWhole
  refine (if_neg hd).trans ((if_neg (by rw [hstop]; simp)).trans ((if_neg hr).trans ((if_pos hper).trans
    ((if_neg (by rw [hown]; decide)).trans ?_))))
  rw [hset]

/-- What the accepted value of an object that stands alone does. -/
theorem write_kept (hset : setCode [{ key := k, ty := w.ty, data := b }] x (valueTaken w.hdr k s) = none)
    (hb : byteType w.ty.toNat = false) (hs : signedType w.ty.toNat = false)
    (hheld : ¬ ((afterValue k (leNat b) (committed w k b s)).dev.state = 3 ∧
      (afterValue k (leNat b) (committed w k b s)).dev.heldAtBoot = true)) : writeMessage k w x s =
    answerWrite w.hdr 0 (afterValue k (leNat b) (committed w k b s)) := by
  rw [write_set ha hw hc hv hk hi ho hset]
  simp only [setAlone, Bool.and_eq_true, bne_iff_ne, ne_eq, Bool.not_eq_true', Option.isNone_iff_eq_none] at hk
  obtain ⟨⟨⟨⟨⟨-, hacts⟩, hp⟩, hl⟩, hwin⟩, hens⟩ := hk
  rw [applySet_one (e := { key := k, ty := w.ty, data := b }) hp hwin hens, applyObj_kept hacts hl hb hs]
  exact congrArg _ (resumeBoot_idle hheld)

end

/-- The value of an entry does not depend on the configuration side. -/
theorem putValue_config (e : Entry) (c : CfgState) (s : State) :
    putValue e { s with config := c } = { putValue e s with config := c } := by
  unfold putValue
  split <;> rfl

theorem setRules_config (e : Entry) (c : CfgState) (s : State) : setRules [e] { s with config := c } = setRules [e] s := by
  have h : stagedState [e] { s with config := c } = { stagedState [e] s with config := c } := putValue_config e c s
  unfold setRules
  rw [h]
  rfl

/-- One good entry whose object has no rule of its own makes a good set. -/
theorem setCode_none {e : Entry} {x : WAux} {s u : State} (hu : setRules [e] u = setRules [e] s)
    (hr : (setRules [e] s).all (fun r => r.2) = true) (ha : actCode (stagedState [e] u) e.key (leNat e.data) e.data x = 0) :
    setCode [e] x u = none := by
  have hf : (setRules [e] u).filter (fun r => !r.2) = [] := by
    rw [hu]
    exact List.filter_eq_nil_iff.mpr fun r hm => by simpa using List.all_eq_true.mp hr r hm
  unfold setCode
  simp only [hf, List.map_nil, List.nil_append, List.map_cons, ha]
  rfl

/-- The answer to an accepted value of the configuration after which the pair, the configuration and the number of boots stay. -/
theorem answered_kept {w : WReq} {k m n : Nat} {b : Bytes} {s v : State} (hv : Keeps m (committed w k b s) v)
    (hcfg : m.testBit 25 = false) (hpair : m.testBit 27 = false) (e : (m ||| 68887248898) ||| n = n) (h8 : v.dev.state ≠ 8)
    (hboot : v.obj Obj.bootCount = s.obj Obj.bootCount) :
    CommittedOne w.hdr { key := k, ty := w.ty, data := b } s (answerWrite w.hdr 0 v) ∧
    Replied w.hdr 2 (leBytes 2 0) s (answerWrite w.hdr 0 v) ∧ Keeps n s (answerWrite w.hdr 0 v) := by
  have hu : Keeps (m ||| 68753031170) s v := by
    refine Keeps.tr (committed_keeps.mono ?_) (hv.mono ?_)
    · rw [Nat.or_comm, Nat.or_assoc, Nat.or_self]
    · rw [← Nat.or_assoc, Nat.or_self]
  have hp : (m ||| 68753031170).testBit 27 = false := by
    rw [Nat.testBit_or, hpair]
    decide
  obtain ⟨hc, hr, hk⟩ := answered (h := w.hdr) (c := 0) hu hp (n := n) (by rw [Nat.or_assoc m]; exact e) h8 hboot
  exact ⟨hc.trans ((hv.config hcfg).trans committed_config), hr, hk⟩


/-! ### Requests -/

/-- An object that acts, with no rule of its own for its value but its range. -/
def actsPlainly (k ty len : Nat) (lo hi : Int) : Bool := rowIs k ty len lo hi && unkept k && actsOnly k && k != Obj.isolationClear &&
  k != Obj.storeSel && k != Obj.logSel

/-- An object of the configuration that stands alone, with the range of its values. -/
def setPlainly (k ty len : Nat) (lo hi : Int) : Bool := rowIs k ty len lo hi && setAlone k && k != Obj.storeSel && k != Obj.logSel

/-- The value meets the rules of its object other than its range. -/
def Unruled (k v : Nat) (s : State) : Prop := stateCodeOf s k v = 0 ∧ ownRule s k v = 0 ∧ lockCode s k v = 0

section
variable {w : WReq} {k ty len : Nat} {lo hi : Int} {b : Bytes} {x : WAux} {s : State}

theorem valueCode_unruled (hr : RowIs k ty len lo hi) (hlo : lo ≤ leNat b) (hhi : (leNat b : Int) ≤ hi) (hs : k ≠ Obj.storeSel)
    (hl : k ≠ Obj.logSel) (hu : Unruled k (leNat b) s) : valueCode s k b = 0 := by
  obtain ⟨h1, h2, h3⟩ := hu
  rw [valueCode_row hr hlo hhi hs hl, h1, h2, h3]
  rfl

variable (ha : Admitted w.hdr s) (hw : Whole w ty b) (hb : b.length = len) (h8 : s.dev.state ≠ 8 ∨ k = Obj.restartRequest)
include ha hw hb h8

/-- A request that the state of the module refuses. -/
theorem request_refused {c : Nat} (hr : rowIs k ty len lo hi = true) (hs : s.dev.state ≠ 8)
    (hc : stateCode s w.hdr.uart k = c) (h0 : c ≠ 0) : ∃ t, Host.Outcome.next (writeMessage k w x s) = (.next t : Out) ∧
    t.config = (noteRequest w.hdr s).config ∧ Replied w.hdr 2 (leBytes 2 c) s t ∧
    t = { s with config := t.config, pair := t.pair } :=
  ⟨_, congrArg _ (write_refused ha ((openCodeOf_row (.of_table hr) hw hb h8).trans hc) h0),
    answered_plain (cfg := (noteRequest w.hdr s).config) hs⟩

/-- A request whose value or action is refused. -/
theorem request_value_refused {c : Nat} (hr : rowIs k ty len lo hi = true) (hs : s.dev.state ≠ 8)
    (hst : stateCode s w.hdr.uart k = 0) (hv : valueCode (valueTaken w.hdr k s) k b = c) (h0 : c ≠ 0) :
    ∃ t, Host.Outcome.next (writeMessage k w x s) = (.next t : Out) ∧
    t.config = taken w.hdr k s ∧ Replied w.hdr 2 (leBytes 2 c) s t ∧ t = { s with config := t.config, pair := t.pair } :=
  ⟨_, congrArg _ (write_value_refused ha hw.2 ((openCodeOf_row (.of_table hr) hw hb h8).trans hst) hv h0),
    answered_plain (cfg := taken w.hdr k s) hs⟩

theorem request_act_refused {c : Nat} (hr : rowIs k ty len lo hi = true) (hk : unkept k = true) (hs : s.dev.state ≠ 8)
    (hst : stateCode s w.hdr.uart k = 0) (hv : valueCode (valueTaken w.hdr k s) k b = 0)
    (hact : actCode (valueTaken w.hdr k s) k (leNat b) b x = c) (h0 : c ≠ 0) :
    ∃ t, Host.Outcome.next (writeMessage k w x s) = (.next t : Out) ∧
    t.config = taken w.hdr k s ∧ Replied w.hdr 2 (leBytes 2 c) s t ∧ t = { s with config := t.config, pair := t.pair } :=
  ⟨_, congrArg _ (write_act_refused ha hw.2 ((openCodeOf_row (.of_table hr) hw hb h8).trans hst) hv hk hact h0),
    answered_plain (cfg := taken w.hdr k s) hs⟩

/-- A request that is accepted. -/
theorem request_acted (hk : actsPlainly k ty len lo hi = true) (hst : stateCode s w.hdr.uart k = 0) (hlo : lo ≤ leNat b)
    (hhi : (leNat b : Int) ≤ hi) (hu : Unruled k (leNat b) (valueTaken w.hdr k s))
    (hact : actCode (valueTaken w.hdr k s) k (leNat b) b x = 0) : writeMessage k w x s =
    answerWrite w.hdr 0 (actionOf (some w.hdr) w.hdr.client.toNat k b x (valueTaken w.hdr k s)) := by
  simp only [actsPlainly, Bool.and_eq_true, bne_iff_ne, ne_eq] at hk
  obtain ⟨⟨⟨⟨⟨hr, hk⟩, ho⟩, hi⟩, hs⟩, hl⟩ := hk
  exact write_acted ha hw.2 ((openCodeOf_row (.of_table hr) hw hb h8).trans hst)
    (valueCode_unruled (.of_table hr) hlo hhi hs hl hu) hk hact hi ho

omit h8 in
/-- A value of the configuration that is accepted. -/
theorem request_set (h8 : s.dev.state ≠ 8) (hk : setPlainly k ty len lo hi = true) (hst : stateCode s w.hdr.uart k = 0)
    (hlo : lo ≤ leNat b) (hhi : (leNat b : Int) ≤ hi) (hu : Unruled k (leNat b) (valueTaken w.hdr k s))
    (hgood : SetGood w.hdr { key := k, ty := w.ty, data := b } s)
    (hact : actCode (stagedState [{ key := k, ty := w.ty, data := b }] (valueTaken w.hdr k s)) k (leNat b) b x = 0)
    (hheld : ¬ ((afterValue k (leNat b) (committed w k b s)).dev.state = 3 ∧
      (afterValue k (leNat b) (committed w k b s)).dev.heldAtBoot = true)) : writeMessage k w x s =
    answerWrite w.hdr 0 (afterValue k (leNat b) (committed w k b s)) := by
  simp only [setPlainly, Bool.and_eq_true, bne_iff_ne, ne_eq] at hk
  obtain ⟨⟨⟨hr, hk⟩, hs⟩, hl⟩ := hk
  obtain ⟨hi, ho, hrules, -⟩ := hgood
  have hrow := RowIs.of_table hr
  have hty : w.ty.toNat = ty := hw.1
  obtain ⟨-, -, -, -, -, -, -, -, hbyte, hsign⟩ := id hrow
  exact write_kept ha hw.2 ((openCodeOf_row hrow hw hb (.inl h8)).trans hst) (valueCode_unruled hrow hlo hhi hs hl hu) hk hi ho
    (setCode_none (setRules_config _ _ s) hrules hact) (by rw [hty]; exact hbyte) (by rw [hty]; exact hsign) hheld

end

/-- Whatever else is said of a value that is accepted, its object's action is what it does. -/
theorem request_action {w : WReq} {k : Nat} {b : Bytes} {x : WAux} {s u : State} (ha : Admitted w.hdr s) (hw : Complete w b)
    (hc : openCodeOf s w.hdr k w = 0) (hu : u = { s with config := taken w.hdr k s }) (hv : valueCode u k b = 0)
    (hact : actCode u k (leNat b) b x = 0) (hk : (unkept k && actsOnly k && k != Obj.isolationClear) = true) :
    writeMessage k w x s = answerWrite w.hdr 0 (actionOf (some w.hdr) w.hdr.client.toNat k b x u) := by
  subst hu
  simp only [Bool.and_eq_true, bne_iff_ne, ne_eq] at hk
  exact write_acted ha hw hc hv hk.1.1 hact hk.2 hk.1.2

end Sys2Proof.Machine
end

section
/-! PROOFS. Requests that move the device, its controllers and its ensemble (O58). -/

namespace Sys2Proof.Machine

/-! ### What the state of the module allows -/

section
variable {s : State} {u : Bool} (h8 : s.dev.state ≠ 8)
include h8

theorem stateCode_running {k c : Nat} (h : stateCode s u k = if s.faultStop then
    (if k = Obj.restartRequest then restartCode s else if k = Obj.mgmtKey ∧ u then 0 else 0x1105) else c) : stateCode s u k = c :=
  h.trans (if_neg (by simpa [State.faultStop] using h8))

theorem stateCode_powerOn : stateCode s u Obj.powerOnRequest = powerOnCode s := stateCode_running h8 rfl
theorem stateCode_serve : stateCode s u Obj.serveEnable = 0 := stateCode_running h8 rfl
theorem stateCode_drain : stateCode s u Obj.drainRequest = drainCode s := stateCode_running h8 rfl
theorem stateCode_restore : stateCode s u Obj.controllerRestore = if s.dev.state = 2 then 0x1105 else 0 := stateCode_running h8 rfl
theorem stateCode_drill : stateCode s u Obj.takeoverDrill = drillCode s := stateCode_running h8 rfl
theorem stateCode_resume : stateCode s u Obj.ensResume = resumeCode s := stateCode_running h8 rfl
theorem stateCode_dissolve : stateCode s u Obj.ensDissolve = 0 := stateCode_running h8 rfl
theorem stateCode_clear : stateCode s u Obj.thermalShutdownClear = 0 := stateCode_running h8 rfl

end

/-- A restart is asked for in Fault-stop too. -/
theorem stateCode_restart (s : State) (u : Bool) : stateCode s u Obj.restartRequest = restartCode s := by
  have h : stateCode s u Obj.restartRequest = if s.faultStop then restartCode s else restartCode s := rfl
  rw [h, ite_self]

/-! ### Device states -/

/-- Entering Boot sets no object but those of test mode, of a step of time, and of the trace. -/
theorem enterState_boot_untouched (s : State) :
    Untouched ([Obj.ballastEnable, Obj.fiMode, Obj.sfiMode, Obj.beatSteps] ++ logCounters) s (enterState 2 s) := by
  unfold enterState
  split
  · exact Untouched.refl _ _
  · dsimp only
    rw [if_pos (by decide), if_pos (by decide)]
    intro k hk
    simp only [List.mem_append, List.mem_cons, List.not_mem_nil, or_false, not_or] at hk
    obtain ⟨⟨hb, hf, hs, hk1⟩, hk2⟩ := hk
    refine (traceMake_untouched _ _ _ _ _ k (by simpa [logCounters] using hk2)).trans
      ((stepPending_untouched _ k (by simpa using hk1)).trans ?_)
    unfold lockTest
    split
    · rw [State.obj_setObj_other _ _ hs, State.obj_setObj_other _ _ hf, State.obj_setObj_other _ _ hb]
      rfl
    · rfl

theorem enterState_boot_locked {s : State} (h : s.dev.state ≠ 2) : (enterState 2 s).test.unlocked = false := by
  unfold enterState
  rw [if_neg h]
  dsimp only
  rw [if_pos (by decide), if_pos (by decide), (traceMake_keeps ..).test rfl, (stepPending_keeps _).test rfl]
  exact lockTest_locked _

/-- The reasons take no module into Fault-stop, and leave what the device record holds besides its state. -/
theorem settleReasons_state (s : State) : (settleReasons s).dev = { s.dev with state := (settleReasons s).dev.state } ∧
    (s.dev.state ≠ 8 → (settleReasons s).dev.state ≠ 8) := by
  unfold settleReasons
  split
  · rw [enterState_dev]
    exact ⟨rfl, fun _ => by simp⟩
  · split
    · rw [enterState_dev]
      exact ⟨rfl, fun _ => by simp⟩
    · exact ⟨rfl, id⟩

theorem setReason_state (bit : Nat) (on : Bool) (s : State) :
    (setReason bit on s).dev = { s.dev with state := (setReason bit on s).dev.state } ∧
    (s.dev.state ≠ 8 → (setReason bit on s).dev.state ≠ 8) := settleReasons_state (s.setObj _ _)

theorem testBit_sub_two_pow {n i : Nat} (h : n.testBit i = true) : (n - 2 ^ i).testBit i = false := by
  have hle : 2 ^ i ≤ n := Nat.ge_two_pow_of_testBit h
  have hb := Nat.testBit_two_pow_add_eq (n - 2 ^ i) i
  rw [Nat.add_sub_cancel' hle, h] at hb
  simpa using hb.symm

/-- A reason that no longer holds. -/
theorem setReason_cleared (bit : Nat) (s : State) : ((setReason bit false s).obj Obj.stateReasons).testBit bit = false := by
  unfold setReason
  rw [settleReasons_untouched _ _ (by decide), State.obj_setObj, Nat.testBit_mod_two_pow]
  rw [if_neg (by decide)]
  split
  · next h => rw [testBit_sub_two_pow h, Bool.and_false]
  · next h => rw [Bool.eq_false_iff.mpr h, Bool.and_false]


/-! ### What the requests do -/

section
variable (hdr : Option DictHdr) (client : Nat) (b : Bytes) (x : WAux) (s : State)

theorem actionOf_powerOn : actionOf hdr client Obj.powerOnRequest b x s = powerOn s := rfl
theorem actionOf_drain : actionOf hdr client Obj.drainRequest b x s = startDrain (leNat b) s := rfl
theorem actionOf_restart : actionOf hdr client Obj.restartRequest b x s = restart (leNat b) s := rfl
theorem actionOf_restore (pass : Bool) :
    actionOf hdr client Obj.controllerRestore b { pass := some pass } s = restorePair pass s := rfl
theorem actionOf_drill : actionOf hdr client Obj.takeoverDrill b x s = askDrill s := rfl
theorem actionOf_resume : actionOf hdr client Obj.ensResume b x s = startRollCall s := rfl
theorem actionOf_dissolve : actionOf hdr client Obj.ensDissolve b x s = dissolve client s := rfl
theorem actionOf_clear : actionOf hdr client Obj.thermalShutdownClear b x s = clearSite (leNat b) s := rfl

end

theorem powerOn_boot {h : DictHdr} {k : Nat} (s : State) : (powerOn (valueTaken h k s)).obj Obj.bootCount = s.obj Obj.bootCount :=
  enterState_boot_untouched (valueTaken h k s) _ (by decide)

section
variable (v : Nat) (s : State)

/-- The rails off and no latched overtemperature left. -/
def railsCold (s : State) : State := { railsOff s with
  therm := { (railsOff s).therm with dies := (railsOff s).therm.dies.map (fun (p : Nat × ThermDie) =>
    (p.1, if p.2.level = 3 then { p.2 with level := 0 } else p.2)) } }

/-- What a restart leaves once no session and no context is left. -/
def restarted (v : Nat) (s : State) : State :=
  if v = 1 then enterState 2 (if (settleThermal (railsCold s)).dev.state = 2 then lockTest (settleThermal (railsCold s))
    else settleThermal (railsCold s)) else enterState 1 (settleThermal (railsCold s))

theorem restart_eq {v : Nat} {s : State} (hs : s.serve.sessions = []) (hc : s.serve.ctxs = []) : restart v s = restarted v s := by
  have h : endStreams s = s := by
    unfold endStreams closeAll
    simp only [hs, hc, List.map_nil, List.foldl_nil]
  unfold restart
  rw [h]
  rfl

theorem restarted_dev : (restarted v s).dev =
    { (railsOff s).dev with state := if v = 1 then 2 else 1 } := by
  have h : (settleThermal (railsCold s)).dev = { (railsOff s).dev with state := (settleThermal (railsCold s)).dev.state } :=
    (setReason_state 6 _ (railsCold s)).1
  unfold restarted
  split
  · rw [enterState_dev]
    split
    · rw [lockTest_dev, h]
    · rw [h]
  · rw [enterState_dev, h]

theorem restarted_keeps : Keeps 103700235267 (railsCold s) (restarted v s) := by
  have h : Keeps 103700235267 (railsCold s) (settleThermal (railsCold s)) := settleThermal_keeps _
  unfold restarted
  split
  · refine enterState_keeps_k (by decide) (by decide) ?_
    split
    · exact lockTest_keeps_k (by decide) h
    · exact h
  · exact enterState_keeps_k (by decide) (by decide) h

end

/-- What the answer to a restart leaves. -/
theorem restart_answered {h : DictHdr} {v : Nat} {s : State} (hs : s.serve.sessions = [] ∧ s.serve.ctxs = []) {t : State}
    (ht : t = answerWrite h 0 (restart v (valueTaken h Obj.restartRequest s))) :
    t.dev.state = (if v = 1 then 2 else 1) ∧ t.dev.started = false ∧ t.mem = [] ∧ t.cores = [] ∧ t.dies = [] ∧ t.wins = [] ∧
    t.images.store = s.images.store ∧ t.power.rails = s.power.rails % 4 ∧ t.odb = s.odb ∧ t.config.copyA = s.config.copyA ∧
    t.config.gen = s.config.gen := by
  rw [restart_eq (s := valueTaken h Obj.restartRequest s) hs.1 hs.2] at ht
  have hk := restarted_keeps v (valueTaken h Obj.restartRequest s)
  have hd := restarted_dev v (valueTaken h Obj.restartRequest s)
  generalize restarted v (valueTaken h Obj.restartRequest s) = r at ht hk hd
  have hr : Keeps 549890031616 r t := by rw [ht]; exact answerWrite_keeps ..
  refine ⟨?_, ?_, (hr.mem rfl).trans (hk.mem rfl), (hr.cores rfl).trans (hk.cores rfl), (hr.dies rfl).trans (hk.dies rfl),
    (hr.wins rfl).trans (hk.wins rfl), ?_, ?_, (hr.odb rfl).trans (hk.odb rfl), ?_, ?_⟩
  · rw [hr.dev rfl, hd]
  · rw [hr.dev rfl, hd]
    rfl
  · rw [hr.images rfl, hk.images rfl]
    rfl
  · rw [hr.power rfl, hk.power rfl]
    rfl
  · rw [hr.config rfl, hk.config rfl]
    rfl
  · rw [hr.config rfl, hk.config rfl]
    rfl

/-- An accepted restart request. -/
theorem restart_written {w : WReq} {v : Nat} {s : State} (ha : Admitted w.hdr s) (hw : Whole w 6 (leBytes 1 v)) (hv : 1 ≤ v ∧ v ≤ 2)
    (hcool : latchedCool s = true) : exec (.restartRequest w) s =
    .next (answerWrite w.hdr 0 (restart v (valueTaken w.hdr Obj.restartRequest s))) := by
  have hval : leNat (leBytes 1 v) = v := by rw [leNat_leBytes]; omega
  refine congrArg Host.Outcome.next ((request_acted (x := {}) ha hw (length_leBytes ..) (.inr rfl)
    (by decide +kernel : actsPlainly Obj.restartRequest 6 1 1 2 = true) ((stateCode_restart ..).trans (if_pos hcool)) (by omega) (by omega)
    ⟨rfl, rfl, rfl⟩ rfl).trans ?_)
  rw [actionOf_restart, hval]

/-! ### Serving enabled and disabled -/

section
variable {w : WReq} {b : Bytes} {s : State}

theorem ty_of_toNat {w : WReq} {ty : Byte} (h : w.ty.toNat = ty.toNat) : w.ty = ty := BitVec.eq_of_toNat_eq h

/-- What a WRITE commits of the value, before serving begins or ends. -/
abbrev serveStored (w : WReq) (b : Bytes) (s : State) : State := committed w Obj.serveEnable b s

theorem serveStored_reasons : (serveStored w b s).obj Obj.stateReasons = s.obj Obj.stateReasons :=
  committed_untouched _ (by decide)

variable (ha : Admitted w.hdr s) (h8 : s.dev.state ≠ 8) (hw : Whole w 1 b) (hb : b = [0] ∨ b = [1])
  (hgood : SetGood w.hdr { key := Obj.serveEnable, ty := 1, data := b } s)
include ha h8 hw hb hgood

theorem serve_written (hheld : ¬ ((serveSwitch (leNat b) (serveStored w b s)).dev.state = 3 ∧
    (serveSwitch (leNat b) (serveStored w b s)).dev.heldAtBoot = true)) : exec (.serveEnable w) s =
    .next (answerWrite w.hdr 0 (serveSwitch (leNat b) (serveStored w b s))) := by
  have hlen : b.length = 1 := by rcases hb with rfl | rfl <;> rfl
  have hlo : (0 : Int) ≤ leNat b := by omega
  have hhi : (leNat b : Int) ≤ 1 := by rcases hb with rfl | rfl <;> decide
  have hk : setPlainly Obj.serveEnable 1 1 0 1 = true := by decide +kernel
  rw [← ty_of_toNat (ty := 1) hw.1] at hgood
  exact congrArg Host.Outcome.next (request_set ha hw hlen h8 hk (stateCode_serve h8) hlo hhi ⟨rfl, rfl, rfl⟩ hgood rfl hheld)

/-- Serving begins or ends with the value. -/
theorem serve_entered {n : Nat} (hn : 4 ≤ n ∧ n ≤ 7) (hsw : serveSwitch (leNat b) (serveStored w b s) = enterState n (serveStored w b s)) :
    ∃ t, exec (.serveEnable w) s = .next t ∧ CommittedOne w.hdr { key := Obj.serveEnable, ty := 1, data := b } s t ∧
      Replied w.hdr 2 (leBytes 2 0) s t ∧ t.obj Obj.serveEnable = leNat b ∧ t.dev.state = n ∧
      Untouched (Obj.serveEnable :: logCounters) s t ∧
      t = { s with od := t.od, beagle := t.beagle, config := t.config, pair := t.pair, dev := t.dev } := by
  have hdev := enterState_dev n (serveStored w b s)
  have he := serve_written ha h8 hw hb hgood (by rw [hsw, hdev]; rintro ⟨h3, -⟩; exact absurd h3 (by simp; omega))
  rw [hsw] at he
  have hent := enterServed_untouched hn (serveStored w b s)
  have hobj : (enterState n (serveStored w b s)).obj Obj.serveEnable = leNat b := by
    rw [hent _ (by decide), committed_obj]
    rcases hb with rfl | rfl <;> rfl
  have hunt : Untouched (Obj.serveEnable :: logCounters) s (enterState n (serveStored w b s)) :=
    Untouched.trans committed_untouched (hent.mono fun x hx => List.mem_cons_of_mem _ hx) fun x hx => hx
  obtain ⟨hcfg, hrep, hk⟩ := answered_kept (k := Obj.serveEnable) (n := 68954357762) (enterServed_keeps hn (Keeps.refl _ (serveStored w b s)))
    rfl rfl (by decide) (by rw [hdev]; simp; omega) (hunt _ (by decide))
  have hod := (answerWrite_keeps w.hdr 0 (enterState n (serveStored w b s))).od rfl
  rw [ty_of_toNat (ty := 1) hw.1] at hcfg
  refine ⟨_, he, hcfg, hrep, (State.obj_of_od hod _).trans hobj, ?_, fun j hj => (State.obj_of_od hod _).trans (hunt j hj), hk.eq⟩
  rw [(answerWrite_keeps ..).dev rfl, hdev]

/-- The value alone is committed. -/
theorem serve_same (hsw : serveSwitch (leNat b) (serveStored w b s) = serveStored w b s) :
    ∃ t, exec (.serveEnable w) s = .next t ∧ CommittedOne w.hdr { key := Obj.serveEnable, ty := 1, data := b } s t ∧
      Replied w.hdr 2 (leBytes 2 0) s t ∧ t.obj Obj.serveEnable = leNat b ∧ t.dev = s.dev ∧
      Untouched (Obj.serveEnable :: logCounters) s t ∧
      t = { s with od := t.od, beagle := t.beagle, config := t.config, pair := t.pair } := by
  have hdev : (serveStored w b s).dev = s.dev := committed_keeps.dev rfl
  have he := serve_written ha h8 hw hb hgood (by rw [hsw, hdev]; exact hgood.2.2.2)
  rw [hsw] at he
  have hobj : (serveStored w b s).obj Obj.serveEnable = leNat b := by
    rw [committed_obj]
    rcases hb with rfl | rfl <;> rfl
  have hunt : Untouched (Obj.serveEnable :: logCounters) s (serveStored w b s) := committed_untouched
  obtain ⟨hcfg, hrep, hk⟩ := answered_kept (k := Obj.serveEnable) (m := 0) (n := 68887248898) (Keeps.refl _ (serveStored w b s))
    rfl rfl (by decide) (by rw [hdev]; exact h8) (hunt _ (by decide))
  have hod := (answerWrite_keeps w.hdr 0 (serveStored w b s)).od rfl
  rw [ty_of_toNat (ty := 1) hw.1] at hcfg
  exact ⟨_, he, hcfg, hrep, (State.obj_of_od hod _).trans hobj, ((answerWrite_keeps ..).dev rfl).trans hdev,
    fun j hj => (State.obj_of_od hod _).trans (hunt j hj), hk.eq⟩

end

/-- Serving begins where an image is resident. -/
theorem serveSwitch_on {s : State} (h4 : s.dev.state = 4) (hr : anyResident s = true) :
    serveSwitch 1 s = enterState (if s.obj Obj.stateReasons = 0 then 5 else 6) s := if_pos ⟨rfl, h4, hr⟩

/-- Serving ends; no session is left to close. -/
theorem serveSwitch_off {s : State} (h : s.dev.state = 5 ∨ s.dev.state = 6) (hs : s.serve.sessions = []) :
    serveSwitch 0 s = enterState 4 s := by
  have hc : closeAll s = s := by
    unfold closeAll
    rw [hs]
    rfl
  refine (if_neg (by simp)).trans ((if_pos ⟨rfl, h⟩).trans ?_)
  rw [hc]

theorem serveSwitch_on_idle {s : State} (h : s.dev.state ≠ 4 ∨ anyResident s = false) : serveSwitch 1 s = s := by
  refine (if_neg ?_).trans (if_neg (by simp))
  rintro ⟨-, h4, hr⟩
  rcases h with h | h
  · exact h h4
  · rw [h] at hr
    cases hr

theorem serveSwitch_off_idle {s : State} (h : s.dev.state ≠ 5 ∧ s.dev.state ≠ 6) : serveSwitch 0 s = s :=
  (if_neg (by simp)).trans (if_neg (by omega))

/-! ### The controller pair -/

section
variable {w : WReq} {s : State}

/-- An accepted request to take a half back. -/
theorem restore_written {pass : Bool} (ha : Admitted w.hdr s) (hw : Whole w 6 [1]) (h8 : s.dev.state ≠ 8) (h2 : s.dev.state ≠ 2) :
    exec (.controllerRestore w pass) s =
    .next (answerWrite w.hdr 0 (restorePair pass (valueTaken w.hdr Obj.controllerRestore s))) :=
  congrArg Host.Outcome.next (request_acted ha hw rfl (.inl h8)
    (by decide +kernel : actsPlainly Obj.controllerRestore 6 1 1 1 = true) ((stateCode_restore h8).trans (if_neg h2)) (by decide)
    (by decide) ⟨rfl, rfl, rfl⟩ rfl)

/-- The pair and the result of a request to take a half back. -/
def pairNoted (p : Pair) (result : Nat) (s : State) : State := ({ s with pair := p } : State).setObj Obj.pairLastResult result

theorem restorePair_failed {s : State} (h0 : s.pair.state ≠ 0) (hd : s.pair.differ = false) :
    restorePair false s = pairNoted { s.pair with state := s.pair.active + 1 } 0x1205 s := by
  unfold restorePair
  exact (if_neg (by simp [simplex, h0])).trans ((if_neg (by simp [hd])).trans (if_pos (by decide)))

theorem restorePair_passed {s : State} (h0 : s.pair.state ≠ 0) (hd : s.pair.differ = false) :
    restorePair true s = setReason 5 false (tracePair 3 (pairNoted { s.pair with state := 0, second := false } 0 s)) := by
  unfold restorePair
  exact (if_neg (by simp [simplex, h0])).trans ((if_neg (by simp [hd])).trans (if_neg (by decide)))

theorem restorePair_differs {pass : Bool} {s : State} (h0 : s.pair.state ≠ 0) (hd : s.pair.differ = true) :
    restorePair pass s = pairNoted s.pair 0x1205 s := by
  unfold restorePair
  exact (if_neg (by simp [simplex, h0])).trans (if_pos hd)

theorem restorePair_paired {pass : Bool} {s : State} (h0 : s.pair.state = 0) : restorePair pass s = pairNoted s.pair 0 s := by
  unfold restorePair
  exact if_pos (by simp [simplex, h0])

/-- The answer where nothing but the pair and its last result has changed. -/
theorem pairNoted_answered {h : DictHdr} {k r : Nat} {p : Pair} {s t : State} (h8 : s.dev.state ≠ 8) (hr : r < 2 ^ 64)
    (ht : t = answerWrite h 0 (pairNoted p r (valueTaken h k s))) : t.config = taken h k s ∧
    t.pair = { p with cur := p.cur ++ [dictReply h 2 (leBytes 2 0) s] } ∧ t.obj Obj.pairLastResult = r ∧
    Untouched [Obj.pairLastResult] s t ∧ t = { s with od := t.od, config := t.config, pair := t.pair } := by
  have hunt : Untouched [Obj.pairLastResult] s (pairNoted p r (valueTaken h k s)) := fun j hj =>
    State.obj_setObj_other _ _ (by simpa using hj)
  have hobj : (pairNoted p r (valueTaken h k s)).obj Obj.pairLastResult = r :=
    (State.obj_setObj ..).trans (Nat.mod_eq_of_lt hr)
  have hpair : t.pair = { p with cur := p.cur ++ [dictReply h 2 (leBytes 2 0) s] } := by
    rw [ht, answerWrite_pair (s := s) (by exact h8) (hunt _ (by decide))]
    rfl
  have hk : Keeps 549890031616 (pairNoted p r (valueTaken h k s)) t := by rw [ht]; exact answerWrite_keeps ..
  have hod := hk.od rfl
  refine ⟨hk.config rfl, hpair, (State.obj_of_od hod _).trans hobj, fun j hj => (State.obj_of_od hod _).trans (hunt j hj), ?_⟩
  rw [ht, answerWrite_eq (by exact h8)]
  rfl

end

/-- The answer where a half has been taken back. -/
theorem restorePair_answered {h : DictHdr} {k : Nat} {s t : State} (h8 : s.dev.state ≠ 8) (h0 : s.pair.state ≠ 0)
    (hd : s.pair.differ = false) (ht : t = answerWrite h 0 (restorePair true (valueTaken h k s))) : t.config = taken h k s ∧
    t.pair = { { s.pair with state := 0, second := false } with cur := s.pair.cur ++ [dictReply h 2 (leBytes 2 0) s] } ∧
    t.obj Obj.pairLastResult = 0 ∧ (t.obj Obj.stateReasons).testBit 5 = false ∧
    t = { s with od := t.od, dev := t.dev, config := t.config, pair := t.pair, beagle := t.beagle } := by
  rw [restorePair_passed (s := valueTaken h k s) h0 hd] at ht
  obtain ⟨v, hv⟩ : ∃ v, v = pairNoted { s.pair with state := 0, second := false } 0 (valueTaken h k s) := ⟨_, rfl⟩
  change t = answerWrite h 0 (setReason 5 false (tracePair 3 (pairNoted { s.pair with state := 0, second := false } 0
    (valueTaken h k s)))) at ht
  rw [← hv] at ht
  have hclear := setReason_cleared 5 (tracePair 3 v)
  have htrace : Keeps 68719476738 v (tracePair 3 v) := traceMake_keeps ..
  have hkeep : Keeps 68786585602 v (setReason 5 false (tracePair 3 v)) := (htrace.mono (by decide)).tr (setReason_kept ..)
  have hunt : Untouched (Obj.stateReasons :: logCounters) v (setReason 5 false (tracePair 3 v)) :=
    Untouched.trans (l := logCounters) (traceMake_untouched _ _ _ _ v) (setReason_untouched _ _ _)
      fun x hx => List.mem_cons_of_mem _ hx
  have hst : (setReason 5 false (tracePair 3 v)).dev.state ≠ 8 :=
    (setReason_state 5 false (tracePair 3 v)).2 (by rw [htrace.dev rfl, hv]; exact h8)
  generalize setReason 5 false (tracePair 3 v) = u at ht hclear hkeep hunt hst
  have hvobj : ∀ j, j ≠ Obj.pairLastResult → v.obj j = s.obj j := fun j hj => by
    rw [hv]
    exact State.obj_setObj_other _ _ hj
  have hk : Keeps 549890031616 u t := by rw [ht]; exact answerWrite_keeps ..
  have hod := hk.od rfl
  have hs : Keeps 167772162 s v := by
    rw [hv]
    exact State_setObj_keeps_k (by decide) (Keeps.u134217728 (by decide) (Keeps.u33554432 (by decide) (Keeps.refl _ s)))
  have ht' : Keeps 68954357762 s t := by
    rw [ht]
    exact answerWrite_kept ((hs.mono (by decide)).tr (hkeep.mono (n := 68954357762) (by decide))) (by decide) hst
  refine ⟨?_, ?_, ?_, ?_, ht'.eq⟩
  · rw [hk.config rfl, hkeep.config rfl, hv]
    rfl
  · rw [ht, answerWrite_pair (s := s) hst ((hunt _ (by decide)).trans (hvobj _ (by decide))), hkeep.pair rfl, hv]
    rfl
  · rw [State.obj_of_od hod, hunt _ (by decide), hv]
    exact State.obj_setObj ..
  · rw [State.obj_of_od hod]
    exact hclear

/-! ### The ensemble -/

/-- No member but this module is subscribed to. -/
theorem subscribeMembers_alone {s : State} (h : (memberNodes s).all (fun n => n == s.fabric.node.toNat) = true) :
    subscribeMembers s = s := by
  unfold subscribeMembers
  generalize hl : memberNodes s = l at h
  have hm : ∀ i ∈ List.range l.length, l.getD i s.fabric.node.toNat = s.fabric.node.toNat := fun i hi => by
    have hi : i < l.length := by simpa using hi
    rw [List.getD_eq_getElem _ _ hi]
    simpa using List.all_eq_true.mp h _ (List.getElem_mem hi)
  generalize List.range l.length = r at hm
  dsimp only
  induction r with
  | nil => rfl
  | cons i r ih =>
    rw [List.foldl_cons, hl, if_pos (hm i (by simp))]
    exact ih fun j hj => hm j (by simp [hj])

section
variable {client : Nat} {s : State}

/-- The entry that says a module is an ensemble of its own. -/
def aloneEntry : Entry := { key := Obj.ensSize, ty := 7, data := leBytes 2 1 }

/-- An ensemble is left where no image stands in its slot and the module does not wait for it. -/
theorem dissolve_eq (hs : s.dev.state ≠ 3 ∨ s.dev.heldAtBoot = true) (hi : (s.imgSlot (s.obj Obj.ensSlot)).image = none) :
    dissolve client s = { (storeEntries client (entriesDigest [aloneEntry]) [aloneEntry] s).setObj Obj.ensSize 1 with ens := {} } := by
  have hk : Keeps 68753031170 s (storeEntries client (entriesDigest [aloneEntry]) [aloneEntry] s) := storeEntries_keeps ..
  have hunt : Untouched logCounters s (storeEntries client (entriesDigest [aloneEntry]) [aloneEntry] s) := storeEntries_untouched
  obtain ⟨v, hv⟩ : ∃ v : State, v = { (storeEntries client (entriesDigest [aloneEntry]) [aloneEntry] s).setObj Obj.ensSize 1 with ens := {} } :=
    ⟨_, rfl⟩
  have hslot : (v.imgSlot (v.obj Obj.ensSlot)).image = none := by
    have ho : v.obj Obj.ensSlot = s.obj Obj.ensSlot := by
      rw [hv]
      exact (State.obj_setObj_other _ _ (by decide)).trans (hunt _ (by decide))
    have himg : v.images = s.images := by
      rw [hv]
      exact hk.images rfl
    rw [State.imgSlot, ho, himg]
    exact hi
  have hdev : v.dev = s.dev := by
    rw [hv]
    exact hk.dev rfl
  rw [← hv]
  have hd : dissolve client s = (let x := match (v.imgSlot (v.obj Obj.ensSlot)).image with
      | some im => if 2 ≤ (v.imgSlot (v.obj Obj.ensSlot)).state ∧ imgMf im 8 2 ≠ 1 then forceSlot (v.obj Obj.ensSlot) v else v
      | none => v
    if x.dev.state = 3 ∧ !x.dev.heldAtBoot then goServe x else x) := by
    rw [hv]
    rfl
  rw [hd]
  simp only [hslot]
  refine if_neg ?_
  rw [hdev]
  rcases hs with hs | hs <;> simp [hs]

end

/-- The answer where an ensemble has been left. -/
theorem dissolve_answered {h : DictHdr} {k : Nat} {s t : State} (h8 : s.dev.state ≠ 8)
    (hs : s.dev.state ≠ 3 ∨ s.dev.heldAtBoot = true) (hi : (s.imgSlot (s.obj Obj.ensSlot)).image = none)
    (ht : t = answerWrite h 0 (dissolve h.client.toNat (valueTaken h k s))) :
    Replied h 2 (leBytes 2 0) s t ∧ t.obj Obj.ensSize = 1 ∧ t.ens = {} ∧ t.config.gen = ((baseCopy s.config).map (fun
      (c : ConfigCopy) => c.gen)).getD 0 + 1 ∧ t.config.copyA = t.config.copyB ∧ t.dev = s.dev ∧ Untouched (Obj.ensSize ::
      logCounters) s t ∧ t = { s with od := t.od, ens := t.ens, beagle := t.beagle, config := t.config, pair := t.pair } := by
  rw [dissolve_eq (s := valueTaken h k s) hs hi] at ht
  obtain ⟨u, hu⟩ : ∃ u, u = storeEntries h.client.toNat (entriesDigest [aloneEntry]) [aloneEntry] (valueTaken h k s) := ⟨_, rfl⟩
  rw [← hu] at ht
  have hcfg : u.config = withEntry aloneEntry (taken h k s) := by
    rw [hu]
    exact storeEntries_config
  have hunt : Untouched logCounters s u := by
    rw [hu]
    exact Untouched.trans (l := []) (.of_od rfl) storeEntries_untouched (by simp)
  have hk : Keeps 68753031170 s u := by
    rw [hu]
    exact storeEntries_keeps_k (by decide) (Keeps.u33554432 (by decide) (Keeps.refl _ s))
  obtain ⟨v, hv⟩ : ∃ v : State, v = { u.setObj Obj.ensSize 1 with ens := {} } := ⟨_, rfl⟩
  rw [← hv] at ht
  have hkv : Keeps 69021466626 s v := by
    rw [hv]
    exact Keeps.u268435456 (by decide) (State_setObj_keeps_k (by decide) (hk.mono (by decide)))
  have huntv : Untouched (Obj.ensSize :: logCounters) s v := fun j hj => by
    obtain ⟨h1, h2⟩ := not_or.mp (mt List.mem_cons.mpr hj)
    rw [hv]
    exact (State.obj_setObj_other _ _ h1).trans (hunt j h2)
  have hdev : v.dev = s.dev := hkv.dev rfl
  obtain ⟨hc, hr, hkt⟩ := answered (h := h) (c := 0) (n := 69155684354) hkv rfl (by decide) (by rw [hdev]; exact h8)
    (huntv _ (by decide))
  have hk' : Keeps 549890031616 v t := by rw [ht]; exact answerWrite_keeps ..
  have hod := hk'.od rfl
  rw [← ht] at hc hr hkt
  have hvc : v.config = withEntry aloneEntry (taken h k s) := by rw [hv]; exact hcfg
  refine ⟨hr, ?_, ?_, ?_, ?_, (hk'.dev rfl).trans hdev, fun j hj => (State.obj_of_od hod _).trans (huntv j hj), hkt.eq⟩
  · rw [State.obj_of_od hod, hv]
    exact State.obj_setObj ..
  · rw [hk'.ens rfl, hv]
  · rw [hc, hvc]
    change (if (baseCopy s.config).isSome then ((baseCopy s.config).getD {}).gen else 0) + 1 = _
    cases baseCopy s.config <;> rfl
  · rw [hc, hvc]
    rfl

/-! ### A latched overtemperature -/

section
variable {v : Nat} {s : State}

theorem stateCodeOf_clear (v : Nat) (s : State) : stateCodeOf s Obj.thermalShutdownClear v =
    if shutdownClearCode v s == 0x1105 then 0x1105 else 0 := rfl

/-- The code of a site that is cool or a stack. -/
theorem shutdownClearCode_cool (h : siteCool s v = true ∨ (siteStack v).isSome = true) (h0 : shutdownClearCode v s ≠ 0) :
    shutdownClearCode v s = 0x1205 ∨ shutdownClearCode v s = 0x1303 := by
  unfold shutdownClearCode at h0 ⊢
  by_cases hst : (siteStack v).isSome = true
  · exact .inl (if_pos hst)
  · have hcool := h.resolve_right hst
    rw [if_neg hst, if_neg (by rw [hcool]; decide)] at h0 ⊢
    by_cases hd : ((siteDie v).any (fun d => (s.die d).sbLost && !(s.die d).off)) = true
    · exact .inr (if_pos hd)
    · exact absurd (if_neg hd) h0

variable (hv : v ≤ 28)
include hv

theorem clear_value : leNat (leBytes 1 v) = v := by rw [leNat_leBytes]; omega

theorem clear_rowIs : rowIs Obj.thermalShutdownClear 6 1 0 28 = true := by decide +kernel

theorem clear_valueCode (h : DictHdr) (k : Nat) : valueCode (valueTaken h k s) Obj.thermalShutdownClear (leBytes 1 v) =
    if shutdownClearCode v s = 0x1105 then 0x1105 else 0 := by
  have hc : stateCodeOf (valueTaken h k s) Obj.thermalShutdownClear (leNat (leBytes 1 v)) =
      if shutdownClearCode v s = 0x1105 then 0x1105 else 0 := by
    rw [clear_value hv, stateCodeOf_clear]
    exact if_congr (by simp; rfl) rfl rfl
  have hval := clear_value hv
  rw [valueCode_row (.of_table (clear_rowIs hv)) (by omega) (by omega) (by decide) (by decide), hc]
  split
  · rfl
  · rfl

/-- The latch of the dies of a site cleared. -/
def latchCleared (v : Nat) (s : State) : State := { s with therm := { s.therm with
  dies := s.therm.dies.map (fun (p : Nat × ThermDie) => if p.1 / 16 = v ∧ p.2.level = 3 then (p.1, { p.2 with level := 0 }) else p) } }

omit hv in
theorem clearSite_eq (hd : siteDie v = none) : clearSite v s = settleThermal (latchCleared v s) := by
  unfold clearSite
  simp only [hd]
  rfl

omit hv in
/-- The answer where a cool site that is no die has been cleared. -/
theorem clear_answered {h : DictHdr} {k : Nat} {t : State} (h8 : s.dev.state ≠ 8) (hd : siteDie v = none)
    (ht : t = answerWrite h 0 (clearSite v (valueTaken h k s))) : t.config = taken h k s ∧ Replied h 2 (leBytes 2 0) s t ∧
    t.therm.dies = s.therm.dies.map (fun (p : Nat × ThermDie) => if p.1 / 16 = v ∧ p.2.level = 3 then
      (p.1, { p.2 with level := 0 }) else p) ∧ Keeps 108162974723 s t := by
  rw [clearSite_eq hd] at ht
  have hkeep : Keeps 103700235267 (latchCleared v (valueTaken h k s)) (settleThermal (latchCleared v (valueTaken h k s))) :=
    settleThermal_keeps _
  have hunt : Untouched (Obj.stateReasons :: logCounters) s (settleThermal (latchCleared v (valueTaken h k s))) :=
    setReason_untouched _ _ (latchCleared v (valueTaken h k s))
  have hst := (setReason_state 6 ((latchCleared v (valueTaken h k s)).therm.dies.any
    (fun (p : Nat × ThermDie) => decide (2 ≤ p.2.level)) || s.dies.any (fun (p : Nat × Die) => p.2.sbLost))
    (latchCleared v (valueTaken h k s))).2 h8
  change (settleThermal (latchCleared v (valueTaken h k s))).dev.state ≠ 8 at hst
  have hl : Keeps 107995202563 (valueTaken h k s) (latchCleared v (valueTaken h k s)) :=
    Keeps.u4294967296 (by decide) (Keeps.refl _ _)
  have hm := hl.tr (hkeep.mono (n := 107995202563) (by decide))
  have hth := hkeep.therm rfl
  generalize settleThermal (latchCleared v (valueTaken h k s)) = u at ht hkeep hunt hst hm hth
  obtain ⟨hc, hr, hk⟩ := answered_act (h := h) (c := 0) (n := 108162974723) hm rfl rfl (by decide) hst (hunt _ (by decide))
  rw [← ht] at hc hr hk
  refine ⟨hc, hr, ?_, hk⟩
  rw [ht, (answerWrite_keeps ..).therm rfl, hth]
  rfl

end

/-- Settles O58: the checks of a WRITE come from `request_acted`, `request_set` and their refusals, and the rest from what each
action leaves. -/
theorem deviceRequests : Obligations.DeviceRequests := by
  unfold Obligations.DeviceRequests
  refine ⟨?_, ?_, ?_, ?_, ?_, ?_, ?_, ?_, ?_, ?_, ?_, ?_, ?_, ?_, ?_, ?_, ?_, ?_, ?_, ?_, ?_, ?_, ?_, ?_, ?_, ?_, ?_, ?_, ?_, ?_,
    ?_, ?_, ?_, ?_, ?_, ?_, ?_, ?_, ?_, ?_, ?_, ?_⟩
  case _ =>
    intro w s ha hw h1
    have he := request_acted (x := {}) ha hw rfl (.inl (by omega)) (by decide +kernel : actsPlainly Obj.powerOnRequest 6 1 1 1 = true)
      ((stateCode_powerOn (by omega)).trans (if_pos h1)) (by decide) (by decide) ⟨rfl, rfl, rfl⟩ rfl
    have hdev : (powerOn (valueTaken w.hdr Obj.powerOnRequest s)).dev = { s.dev with state := 2 } := enterState_dev ..
    obtain ⟨hcfg, hrep, hk⟩ := answered_act (h := w.hdr) (c := 0) (n := 103868007427) (powerOn_keeps (valueTaken w.hdr Obj.powerOnRequest s)) rfl rfl
      (by decide) (by rw [hdev]; simp) (powerOn_boot s)
    have ht : (powerOn (valueTaken w.hdr Obj.powerOnRequest s)).test.unlocked = false :=
      enterState_boot_locked (fun h2 => by rw [show s.dev.state = 2 from h2] at h1; cases h1)
    exact ⟨_, congrArg Host.Outcome.next he, hcfg, hrep, ((answerWrite_keeps ..).dev rfl).trans hdev,
      (congrArg TestMode.unlocked ((answerWrite_keeps ..).test rfl)).trans ht, hk.mem rfl, hk.eq⟩
  case _ =>
    intro w s ha hw h8 h0 h1
    exact request_refused ha hw rfl (.inl h8) (by decide +kernel : rowIs Obj.powerOnRequest 6 1 1 1 = true) h8
      ((stateCode_powerOn h8).trans (if_neg h1)) (by decide)
  case _ =>
    intro w s ha hw h8 h0 h5 h6
    exact request_refused ha hw rfl (.inl h8) (by decide +kernel : rowIs Obj.drainRequest 6 1 1 2 = true) h8
      ((stateCode_drain h8).trans (if_neg (by omega))) (by decide)
  case _ =>
    intro w s ha hw h8 hc
    have hcode : drillCode s = 0x1105 := (ite_eq_or_eq ..).resolve_left hc
    exact request_refused ha hw rfl (.inl h8) (by decide +kernel : rowIs Obj.takeoverDrill 6 1 1 1 = true) h8
      ((stateCode_drill h8).trans hcode) (by decide)
  case _ =>
    intro w s ha hw h8 hc
    exact request_refused ha hw rfl (.inl h8) (by decide +kernel : rowIs Obj.ensResume 6 1 1 1 = true) h8
      ((stateCode_resume h8).trans (if_neg (by omega))) (by decide)
  case _ =>
    intro w s ha h8 hw hgood h4 hr
    have hdev : (serveStored w [1] s).dev = s.dev := committed_keeps.dev rfl
    have himg : (serveStored w [1] s).images = s.images := committed_keeps.images rfl
    have hsw := serveSwitch_on (s := serveStored w [1] s) (by rw [hdev, h4]) (by unfold anyResident; rw [himg]; exact hr)
    rw [serveStored_reasons] at hsw
    exact serve_entered ha h8 hw (.inr rfl) hgood (by split <;> omega) hsw
  case _ =>
    intro w s ha h8 hw hgood h56 hs
    have hdev : (serveStored w [0] s).dev = s.dev := committed_keeps.dev rfl
    have hserve : (serveStored w [0] s).serve = s.serve := committed_keeps.serve rfl
    exact serve_entered ha h8 hw (.inl rfl) hgood (by omega) (serveSwitch_off (by rw [hdev]; exact h56) (by rw [hserve]; exact hs))
  case _ =>
    intro w s ha h8 hw hgood h0 h4 hr
    have himg : (serveStored w [1] s).images = s.images := committed_keeps.images rfl
    exact serve_same ha h8 hw (.inr rfl) hgood (serveSwitch_on_idle (.inr (by unfold anyResident; rw [himg]; exact hr)))
  case _ =>
    intro w s ha h8 hw hgood h0 h56
    have hdev : (serveStored w [0] s).dev = s.dev := committed_keeps.dev rfl
    exact serve_same ha h8 hw (.inl rfl) hgood (serveSwitch_off_idle (by rw [hdev]; exact h56))
  case _ =>
    intro w s ha h8 hw hgood h0 h4
    have hdev : (serveStored w [1] s).dev = s.dev := committed_keeps.dev rfl
    obtain ⟨t, he, hcfg, hrep, hobj, hd, -, hk⟩ := serve_same ha h8 hw (.inr rfl) hgood (serveSwitch_on_idle (.inl (by rw [hdev]; exact h4)))
    exact ⟨t, he, hcfg, hrep, hobj, hd, hk⟩
  case _ =>
    intro w v s ha hw hv h56
    have hval : leNat (leBytes 1 v) = v := by rw [leNat_leBytes]; omega
    have he := request_acted (x := {}) ha hw (length_leBytes ..) (.inl (by omega)) (by decide +kernel : actsPlainly Obj.drainRequest 6 1 1 2 = true)
      ((stateCode_drain (by omega)).trans (if_pos h56)) (by omega) (by omega) ⟨rfl, rfl, rfl⟩ rfl
    rw [actionOf_drain, hval] at he
    have hdev : (startDrain v (valueTaken w.hdr Obj.drainRequest s)).dev = { s.dev with state := 7, drainTo := v } := enterState_dev ..
    have hunt : Untouched logCounters s (startDrain v (valueTaken w.hdr Obj.drainRequest s)) :=
      enterServed_untouched (n := 7) (by decide) _
    have hkeep : Keeps 68786585602 (valueTaken w.hdr Obj.drainRequest s) (startDrain v (valueTaken w.hdr Obj.drainRequest s)) :=
      enterServed_keeps (n := 7) (by decide) (Keeps.u67108864 (by decide) (fun h => h) (Keeps.refl _ _))
    obtain ⟨hcfg, hrep, hk⟩ := answered_act (h := w.hdr) (c := 0) (n := 68954357762) hkeep rfl rfl (by decide) (by rw [hdev]; simp)
      (hunt _ (by decide))
    have hod := (answerWrite_keeps w.hdr 0 (startDrain v (valueTaken w.hdr Obj.drainRequest s))).od rfl
    exact ⟨_, congrArg Host.Outcome.next he, hcfg, hrep, ((answerWrite_keeps ..).dev rfl).trans hdev,
      fun j hj => (State.obj_of_od hod _).trans (hunt j hj), hk.eq⟩
  case _ =>
    intro w v s ha hw hv hcool hst hs
    obtain ⟨t, ht⟩ : ∃ t, t = answerWrite w.hdr 0 (restart v (valueTaken w.hdr Obj.restartRequest s)) := ⟨_, rfl⟩
    exact ⟨t, (restart_written ha hw hv hcool).trans (by rw [ht]), restart_answered hs ht⟩
  case _ =>
    intro w v s ha hw hv hcool hst hs
    obtain ⟨t, ht⟩ : ∃ t, t = answerWrite w.hdr 0 (restart v (valueTaken w.hdr Obj.restartRequest s)) := ⟨_, rfl⟩
    obtain ⟨hstate, -, hmem, hcores, -, -, hstore, -⟩ := restart_answered hs ht
    exact ⟨t, (restart_written ha hw hv hcool).trans (by rw [ht]), hstate, hmem, hcores, hstore⟩
  case _ =>
    intro w s ha hw h8 hcool
    exact request_refused ha hw rfl (.inl h8) (by decide +kernel : rowIs Obj.restartRequest 6 1 1 2 = true) h8
      ((stateCode_restart ..).trans (if_neg (by rw [hcool]; decide))) (by decide)
  case _ =>
    intro w s ha hw h8 h2 h0 hd
    have he := (restore_written (pass := false) ha hw h8 h2).trans (by rw [restorePair_failed (s := valueTaken ..) h0 hd])
    exact ⟨_, he, pairNoted_answered h8 (by decide) rfl⟩
  case _ =>
    intro w s ha hw h8 h2 h0 hd h4
    exact ⟨_, restore_written ha hw h8 h2, restorePair_answered h8 h0 hd rfl⟩
  case _ =>
    intro w pass s ha hw h8 h2 h0 hd
    have he := (restore_written (pass := pass) ha hw h8 h2).trans (by rw [restorePair_differs (s := valueTaken ..) h0 hd])
    exact ⟨_, he, pairNoted_answered h8 (by decide) rfl⟩
  case _ =>
    intro w pass s ha hw h8 h2 h0
    have he := (restore_written (pass := pass) ha hw h8 h2).trans (by rw [restorePair_paired (s := valueTaken ..) h0])
    exact ⟨_, he, pairNoted_answered h8 (by decide) rfl⟩
  case _ =>
    intro w s ha hw hc
    have hgood : s.dev.state ≠ 8 := fun h => by
      unfold drillCode at hc
      rw [if_neg (by omega)] at hc
      cases hc
    have he := request_acted (x := {}) ha hw rfl (.inl hgood) (by decide +kernel : actsPlainly Obj.takeoverDrill 6 1 1 1 = true)
      ((stateCode_drill hgood).trans hc) (by decide) (by decide) ⟨rfl, rfl, rfl⟩ rfl
    rw [actionOf_drill] at he
    refine ⟨_, congrArg Host.Outcome.next he, ?_⟩
    rw [answerWrite_eq (by exact hgood)]
    exact ⟨rfl, rfl, rfl⟩
  case _ =>
    intro w s ha hw h3 hens hall
    have h8 : s.dev.state ≠ 8 := by omega
    have he := request_acted (x := {}) ha hw rfl (.inl h8) (by decide +kernel : actsPlainly Obj.ensResume 6 1 1 1 = true)
      ((stateCode_resume h8).trans (if_pos ⟨h3, hens⟩)) (by decide) (by decide) ⟨rfl, rfl, rfl⟩ rfl
    rw [actionOf_resume, startRollCall, subscribeMembers_alone (by exact hall)] at he
    refine ⟨_, congrArg Host.Outcome.next he, ?_⟩
    rw [answerWrite_eq (by exact h8)]
    exact ⟨rfl, rfl, rfl, rfl⟩
  case _ =>
    intro w s ha hw h8 hs hi
    have he := request_acted (x := {}) ha hw rfl (.inl h8) (by decide +kernel : actsPlainly Obj.ensDissolve 6 1 1 1 = true)
      (stateCode_dissolve h8) (by decide) (by decide) ⟨rfl, rfl, rfl⟩ rfl
    rw [actionOf_dissolve] at he
    exact ⟨_, congrArg Host.Outcome.next he, dissolve_answered h8 hs hi rfl⟩
  case _ =>
    intro w v s ha hw h8 hv hst hcool hd
    have hval := clear_value hv
    have hcode : shutdownClearCode v s = 0 := by
      unfold shutdownClearCode
      rw [if_neg (by rw [hst]; decide), if_neg (by rw [show siteCool s v = true from hcool]; decide), hd]
      rfl
    have hact : actCode (valueTaken w.hdr Obj.thermalShutdownClear s) Obj.thermalShutdownClear (leNat (leBytes 1 v)) (leBytes 1 v) {} = 0 := by
      rw [hval]
      exact hcode
    have he := write_acted ha hw.2 ((openCodeOf_row (.of_table (clear_rowIs hv)) hw (length_leBytes ..) (.inl h8)).trans (stateCode_clear h8))
      ((clear_valueCode hv _ _).trans (by rw [hcode]; rfl)) (by decide +kernel) hact (by decide) (by decide +kernel)
    rw [actionOf_clear, hval] at he
    obtain ⟨hc, hr, ht, hk⟩ := clear_answered (h := w.hdr) (k := Obj.thermalShutdownClear) h8 hd rfl
    exact ⟨_, congrArg Host.Outcome.next he, hc, hr, ht, hk.eq⟩
  case _ =>
    intro w v s ha hw h8 hv hst hcool
    have hcode : shutdownClearCode v s = 0x1105 := by
      unfold shutdownClearCode
      rw [if_neg (by rw [hst]; decide), if_pos (by rw [hcool]; rfl)]
    exact request_value_refused ha hw (length_leBytes ..) (.inl h8) (clear_rowIs hv) h8 (stateCode_clear h8)
      ((clear_valueCode hv _ _).trans (if_pos hcode)) (by decide)
  case _ =>
    intro w v c s ha hw h8 hv hcool hc h0
    have hcode := shutdownClearCode_cool hcool (by rw [← hc]; exact h0)
    rw [← hc] at hcode
    have hact : actCode (valueTaken w.hdr Obj.thermalShutdownClear s) Obj.thermalShutdownClear (leNat (leBytes 1 v)) (leBytes 1 v) {} = c := by
      rw [clear_value hv]
      exact hc.symm
    obtain ⟨t, ht, hcfg, hrep, hk⟩ := request_act_refused ha hw (length_leBytes ..) (.inl h8) (clear_rowIs hv) (by decide +kernel) h8
      (stateCode_clear h8) ((clear_valueCode hv _ _).trans (if_neg (by omega))) hact h0
    exact ⟨t, ht, hcfg, hrep, hcode, hk⟩
  case _ => exact fun w s => ⟨_, rfl, rfl⟩
  case _ =>
    intro w b u s ha ho hl ht hd hu hc hv hact
    exact ⟨_, congrArg Host.Outcome.next (request_action ha ⟨ho, hl, ht, hd⟩ hc hu hv hact (by decide +kernel)), rfl⟩
  case _ => exact fun w s => ⟨_, rfl, rfl⟩
  case _ =>
    intro w b e u s ha hi hown ho hl ht hd he hu hc hv hset
    subst he hu
    exact ⟨_, congrArg Host.Outcome.next (write_set ha ⟨ho, hl, ht, hd⟩ hc hv (by decide +kernel) hi hown hset), rfl⟩
  case _ => exact fun w s => ⟨_, rfl, rfl⟩
  case _ =>
    intro w b u s ha ho hl ht hd hu hc hv hact
    exact ⟨_, congrArg Host.Outcome.next (request_action ha ⟨ho, hl, ht, hd⟩ hc hu hv hact (by decide +kernel)), rfl⟩
  case _ => exact fun w s => ⟨_, rfl, rfl⟩
  case _ =>
    intro w b u s ha ho hl ht hd hu hc hv hact
    exact ⟨_, congrArg Host.Outcome.next (request_action ha ⟨ho, hl, ht, hd⟩ hc hu hv hact (by decide +kernel)), rfl⟩
  case _ => exact fun w pass s => ⟨_, rfl, rfl⟩
  case _ =>
    intro w pass b u s ha ho hl ht hd hu hc hv hact
    exact ⟨_, congrArg Host.Outcome.next (request_action ha ⟨ho, hl, ht, hd⟩ hc hu hv hact (by decide +kernel)), rfl⟩
  case _ => exact fun w s => ⟨_, rfl, rfl⟩
  case _ =>
    intro w b u s ha ho hl ht hd hu hc hv hact
    exact ⟨_, congrArg Host.Outcome.next (request_action ha ⟨ho, hl, ht, hd⟩ hc hu hv hact (by decide +kernel)), rfl⟩
  case _ => exact fun w s => ⟨_, rfl, rfl⟩
  case _ =>
    intro w b u s ha ho hl ht hd hu hc hv hact
    exact ⟨_, congrArg Host.Outcome.next (request_action ha ⟨ho, hl, ht, hd⟩ hc hu hv hact (by decide +kernel)), rfl⟩
  case _ => exact fun w s => ⟨_, rfl, rfl⟩
  case _ =>
    intro w b u s ha ho hl ht hd hu hc hv hact
    exact ⟨_, congrArg Host.Outcome.next (request_action ha ⟨ho, hl, ht, hd⟩ hc hu hv hact (by decide +kernel)), rfl⟩
  case _ => exact fun w s => ⟨_, rfl, rfl⟩
  case _ =>
    intro w b u s ha ho hl ht hd hu hc hv hact
    exact ⟨_, congrArg Host.Outcome.next (request_action ha ⟨ho, hl, ht, hd⟩ hc hu hv hact (by decide +kernel)), rfl⟩

end Sys2Proof.Machine
end

section
/-! PROOFS. Requests on time, tests, injection, the trace and the log (O60). -/

namespace Sys2Proof.Machine

/-! ### What the state of the module allows -/

section
variable {s : State} {u : Bool} (h8 : s.dev.state ≠ 8)
include h8

theorem stateCode_seconds : stateCode s u Obj.beatSecondsSet = if s.dev.state = 3 then 0 else 0x1105 := stateCode_running h8 rfl
theorem stateCode_reference : stateCode s u Obj.syncReferenceNode = 0 := stateCode_running h8 rfl
theorem stateCode_isolation : stateCode s u Obj.isolationClear = if s.dev.state = 2 then 0x1105 else 0 := stateCode_running h8 rfl
theorem stateCode_kat : stateCode s u Obj.katRequest = if s.dev.state = 2 then 0x1105 else 0 := stateCode_running h8 rfl
theorem stateCode_permit : stateCode s u Obj.testModePermit = heldReady s := stateCode_running h8 rfl
theorem stateCode_unlock : stateCode s u Obj.testModeUnlock = if s.dev.state = 2 then 0x1105 else 0 := stateCode_running h8 rfl
theorem stateCode_lock : stateCode s u Obj.testModeLock = 0 := stateCode_running h8 rfl
theorem stateCode_inject : stateCode s u Obj.sfiApply = 0 := stateCode_running h8 rfl
theorem stateCode_stop : stateCode s u Obj.fiStopAll = 0 := stateCode_running h8 rfl
theorem stateCode_capture : stateCode s u Obj.beagleEnable = 0 := stateCode_running h8 rfl
theorem stateCode_empty : stateCode s u Obj.beagleClear = beagleClearCode s := stateCode_running h8 rfl
theorem stateCode_select : stateCode s u Obj.logSel = 0 := stateCode_running h8 rfl
theorem stateCode_logClear : stateCode s u Obj.logClear = heldReady s := stateCode_running h8 rfl

end

/-! ### What the requests do -/

section
variable (hdr : Option DictHdr) (client : Nat) (b : Bytes) (x : WAux) (s : State)

theorem actionOf_seconds : actionOf hdr client Obj.beatSecondsSet b x s = setSeconds (leNat b) s := rfl
theorem actionOf_isolation : actionOf hdr client Obj.isolationClear b x s = queueKat (leNat b) 2 hdr s := rfl
theorem actionOf_kat : actionOf hdr client Obj.katRequest b x s = queueKat (leNat b) 3 none s := rfl
theorem actionOf_unlock : actionOf hdr client Obj.testModeUnlock b x s = unlockTest s := rfl
theorem actionOf_lock : actionOf hdr client Obj.testModeLock b x s = lockTest s := rfl
theorem actionOf_inject : actionOf hdr client Obj.sfiApply b x s = sfiApplyDo s := rfl
theorem actionOf_stop : actionOf hdr client Obj.fiStopAll b x s = stopInjection s := rfl
theorem actionOf_empty : actionOf hdr client Obj.beagleClear b x s = beagleEmpty s := rfl
theorem actionOf_logClear : actionOf hdr client Obj.logClear b x s = logEmpty s := rfl

end

theorem leNat_leBytes_of_lt {n v : Nat} (h : v < 256 ^ n) : leNat (leBytes n v) = v := by
  rw [leNat_leBytes, Nat.mod_eq_of_lt h]

/-! ### Tests of units -/

section
variable {w : WReq} {v : Nat} {s : State} (h319 : v ≤ 319)
include h319

theorem unit_value : leNat (leBytes 2 v) = v := leNat_leBytes_of_lt (by omega)

omit h319 in
theorem ownRule_isolation (v : Nat) (s : State) : ownRule s Obj.isolationClear v = if unitFused s v then 0x1204 else 0 := rfl

omit h319 in
theorem ownRule_kat (v : Nat) (s : State) : ownRule s Obj.katRequest v = if unitFused s v then 0x1204 else 0 := rfl

theorem valueCode_isolation : valueCode s Obj.isolationClear (leBytes 2 v) = if unitFused s v then 0x1204 else 0 := by
  have hval := unit_value h319
  rw [valueCode_row (.of_table (by decide +kernel : rowIs Obj.isolationClear 7 2 0 319 = true)) (by omega) (by omega) (by decide)
    (by decide), hval, ownRule_isolation]
  refine (if_neg (by rw [show stateCodeOf s Obj.isolationClear v = 0 from rfl]; decide)).trans ?_
  split <;> rfl

variable (ha : Admitted w.hdr s) (hw : Whole w 7 (leBytes 2 v)) (h8 : s.dev.state ≠ 8) (h2 : s.dev.state ≠ 2)
  (hfused : unitFused s v = false)
include ha hw h8 h2 hfused

/-- The test of an isolated unit is queued, and answered once it has run. -/
theorem isolation_written (hd : unitDisabled s v = true) : exec (.isolationClear w) s =
    .next (queueKat v 2 (some w.hdr) (valueTaken w.hdr Obj.isolationClear s)) := by
  have hval := unit_value h319
  have hact : actCode (valueTaken w.hdr Obj.isolationClear s) Obj.isolationClear (leNat (leBytes 2 v)) (leBytes 2 v) {} = 0 := by
    rw [hval]
    change isolationClearCode s v = 0
    unfold isolationClearCode
    rw [if_neg (by omega), if_neg (by rw [hfused]; decide), if_neg (by rw [hd]; decide)]
  refine congrArg Host.Outcome.next ((write_value_taken ha hw.2 ((openCodeOf_row (.of_table
    (by decide +kernel : rowIs Obj.isolationClear 7 2 0 319 = true)) hw (length_leBytes ..) (.inl h8)).trans
    ((stateCode_isolation h8).trans (if_neg h2))) ((valueCode_isolation h319).trans (if_neg (by
      rw [show unitFused (valueTaken w.hdr Obj.isolationClear s) v = false from hfused]; decide)))).trans ?_)
  rw [writeWhole_unkept (by decide +kernel), if_neg (not_not.2 hact), if_pos rfl, applyObj_acts (by decide +kernel), actionOf_isolation,
    hval]

end

/-- A request joins the queue while a core's test is under way. -/
theorem queueKat_busy {unit prio c : Nat} {answer : Option DictHdr} {s : State} (h : s.kat.core = some c) :
    queueKat unit prio answer s = { s with kat := { s.kat with queue := s.kat.queue ++ [{ unit, prio, answer }] } } := by
  unfold queueKat settleKat
  exact if_pos (by simp [h])


/-! ### Injection stopped and test mode locked -/

/-- No injection of a string or a port. -/
theorem stopInjection_port (s : State) (p : Nat) :
    (stopInjection s).port p = { s.port p with inject := { (s.port p).inject with mode := 0 } } := by
  rcases tget_map_entry ({} : FPort) p (fun p => (p.1, { p.2 with inject := { p.2.inject with mode := 0 } })) (fun _ => rfl) s.ports
    with ⟨hm, hd⟩ | hm
  · refine hm.trans ?_
    rw [State.port, hd]
  · exact hm

theorem stopInjection_str (s : State) (n : Nat) :
    (stopInjection s).str n = { s.str n with inject := { (s.str n).inject with mode := 0 } } := by
  rcases tget_map_entry ({} : Str) n (fun p => (p.1, { p.2 with inject := { p.2.inject with mode := 0 } })) (fun _ => rfl) s.strings
    with ⟨hm, hd⟩ | hm
  · refine hm.trans ?_
    rw [State.str, hd]
  · exact hm

/-- What locking test mode leaves of it, of the Pod's line and of the ports and strings. -/
theorem lockTest_unlocked {s : State} (h : s.test.unlocked = true) : (lockTest s).test.unlocked = false ∧
    (lockTest s).obj Obj.ballastEnable = 1 ∧ (lockTest s).pod = { s.pod with testLine := false } ∧
    (lockTest s).ports = (stopInjection s).ports ∧ (lockTest s).strings = (stopInjection s).strings ∧
    Untouched [Obj.ballastEnable, Obj.fiMode, Obj.sfiMode] s (lockTest s) := by
  have he : lockTest s = ((((testLocked s).setObj Obj.ballastEnable 1).setObj Obj.fiMode 0).setObj Obj.sfiMode 0) := if_pos h
  rw [he]
  refine ⟨rfl, ?_, rfl, rfl, rfl, fun k hk => ?_⟩
  · rw [State.obj_setObj_other _ _ (by decide), State.obj_setObj_other _ _ (by decide), State.obj_setObj]
    rfl
  · simp only [List.mem_cons, List.not_mem_nil, or_false, not_or] at hk
    obtain ⟨h1, h2, h3⟩ := hk
    rw [State.obj_setObj_other _ _ h3, State.obj_setObj_other _ _ h2, State.obj_setObj_other _ _ h1]
    rfl

/-- No port and no string injects once test mode is locked. -/
theorem lockTest_quiet {s t : State} (h : s.test.unlocked = true) (hp : t.ports = (lockTest s).ports)
    (hs : t.strings = (lockTest s).strings) : (∀ p, (t.port p).inject.mode = 0) ∧ ∀ n, (t.str n).inject.mode = 0 := by
  obtain ⟨-, -, -, hports, hstrings, -⟩ := lockTest_unlocked h
  constructor
  · intro p
    rw [State.port, hp, hports, show tget {} p (stopInjection s).ports = (stopInjection s).port p from rfl, stopInjection_port]
  · intro n
    rw [State.str, hs, hstrings, show tget {} n (stopInjection s).strings = (stopInjection s).str n from rfl, stopInjection_str]

/-! ### Values of the configuration -/

section
variable {w : WReq} {k ty : Nat} {b : Bytes} {s v : State}

/-- The answer to an accepted value of the configuration, seen from the state before it. -/
theorem set_answered {m n : Nat} (hv : Keeps m (committed w k b s) v) (hcfg : m.testBit 25 = false) (hpair : m.testBit 27 = false)
    (e : (m ||| 68887248898) ||| n = n) (h8 : v.dev.state ≠ 8) (hboot : v.obj Obj.bootCount = s.obj Obj.bootCount)
    {t : State} (ht : t = answerWrite w.hdr 0 v) {y : Byte} (hy : w.ty = y) :
    CommittedOne w.hdr { key := k, ty := y, data := b } s t ∧ Replied w.hdr 2 (leBytes 2 0) s t ∧ Keeps 549890031616 v t ∧
    Keeps n s t := by
  obtain ⟨hc, hr, hk⟩ := answered_kept hv hcfg hpair e h8 hboot
  rw [← ht] at hc hr hk
  rw [hy] at hc
  exact ⟨hc, hr, by rw [ht]; exact answerWrite_keeps .., hk⟩

end

/-- With no port trained no neighbour gives the time. -/
theorem chooseUpstream_none {s : State} (h : s.ports = []) : chooseUpstream s = none := by
  have hp : ∀ p, upstreamHops s (s.port p) = none := fun p => by
    rw [State.port, h]
    rfl
  unfold chooseUpstream
  simp only [hp, Option.map_none]
  refine (ite_eq_left_iff.mpr fun _ => ?_)
  rfl

/-- A new reference node, where none is followed and no port is trained. -/
theorem reacquireFabric_none {s : State} (hs : s.time.source ≠ 3) (hp : s.ports = []) : reacquireFabric s =
    { s with time := { s.time with valid := terase 3 s.time.valid, upstream := 0xFF, hops := 0xFF } } := by
  have hports : ({ s with ports := s.ports.map (fun (p : Nat × FPort) => (p.1, { p.2 with delays := [], offsets := [] })) } : State) = s := by
    rw [hp, List.map_nil, ← hp]
  unfold reacquireFabric
  rw [hports]
  dsimp only
  have hl : loseSource 3 s = { s with time := { s.time with valid := terase 3 s.time.valid } } := if_neg hs
  rw [hl]
  unfold takeUpstream
  rw [chooseUpstream_none (by exact hp)]

/-- Where no trace is captured none of an event is kept. -/
theorem traceMake_off {site unit kind : Nat} {p : Bytes} {s : State} (h : s.beagle.state ≠ 1) : traceMake site unit kind p s = s :=
  if_neg fun hc => h hc.1

/-! ### The log -/

section
variable {v : Nat} {s : State} (h32 : v < 2 ^ 32)
include h32

theorem log_value : leNat (leBytes 4 v) = v := leNat_leBytes_of_lt (by omega)

theorem valueCode_logSel : valueCode s Obj.logSel (leBytes 4 v) = logSelCode s v := by
  obtain ⟨r, hrow, -, -, hty, -, hlo, hhi, hbyte, hsign⟩ :=
    RowIs.of_table (by decide +kernel : rowIs Obj.logSel 8 4 0 4294967295 = true)
  have hval := log_value h32
  have hrange : rangeCode r (leBytes 4 v) = 0 := by
    unfold rangeCode
    rw [hty, if_neg (by rw [hbyte]; decide)]
    simp only [hsign, Bool.false_eq_true, if_false, hval, hlo, hhi]
    rw [if_neg (by omega), if_neg (by omega)]
  unfold valueCode
  simp only [hrow, hrange, ne_eq, not_true_eq_false, if_false, hval]
  refine (if_neg fun h => absurd h.1 (by decide)).trans ?_
  by_cases hc : logSelCode s v = 0
  · rw [if_neg (by simp [hc]), hc]
    rfl
  · exact if_pos ⟨trivial, hc⟩

end

/-- The log left with the entry of its own clearing. -/
theorem logEmpty_log (s : State) : (logEmpty s).log.entries.length = 1 ∧ (∀ e, e ∈ (logEmpty s).log.entries →
    e.key = Obj.logClear ∧ e.sev = 0 ∧ e.seq = s.log.nextSeq % 2 ^ 32) ∧ (logEmpty s).log.nextSeq = s.log.nextSeq + 1 := by
  unfold logEmpty logWrite
  dsimp only
  rw [(traceMake_keeps ..).log rfl]
  simp only [List.length_nil, show ¬ logCapacity ≤ 0 by decide, if_false, List.nil_append, List.length_singleton, List.mem_singleton]
  exact ⟨trivial, fun e he => by rw [he]; exact ⟨rfl, rfl, rfl⟩, trivial⟩

theorem logEmpty_untouched (s : State) : Untouched logCounters s (logEmpty s) :=
  Untouched.trans (l := []) (.of_od rfl) (logWrite_untouched _ _ _ _ _ _ _ _) (by simp)


/-! ### Test mode permitted, the reference node and the trace -/

theorem actCode_reference (s : State) (v : Nat) (b : Bytes) :
    actCode s Obj.syncReferenceNode v b {} = if inEnsemble s then 0x1205 else 0 := rfl

theorem afterValue_capture (v : Nat) (s : State) : afterValue Obj.beagleEnable v s = beagleSwitch (v == 1) s := rfl

section
variable {w : WReq} {v : Nat} {s : State} (ha : Admitted w.hdr s) (h8 : s.dev.state ≠ 8)
include ha h8

/-- What an accepted permit leaves before its answer. -/
theorem permit_written (hw : Whole w 1 (leBytes 1 v)) (hv : v ≤ 1)
    (hgood : SetGood w.hdr { key := Obj.testModePermit, ty := 1, data := leBytes 1 v } s) (h34 : s.dev.state = 3 ∨ s.dev.state = 4) :
    exec (.testModePermit w) s = .next (answerWrite w.hdr 0 (if v = 0 then lockTest (committed w Obj.testModePermit (leBytes 1 v) s)
      else committed w Obj.testModePermit (leBytes 1 v) s)) := by
  have hval : leNat (leBytes 1 v) = v := leNat_leBytes_of_lt (by omega)
  have hafter : afterValue Obj.testModePermit (leNat (leBytes 1 v)) (committed w Obj.testModePermit (leBytes 1 v) s) =
      if v = 0 then lockTest (committed w Obj.testModePermit (leBytes 1 v) s) else committed w Obj.testModePermit (leBytes 1 v) s := by
    rw [hval]
    rfl
  have hdev : (if v = 0 then lockTest (committed w Obj.testModePermit (leBytes 1 v) s) else
      committed w Obj.testModePermit (leBytes 1 v) s).dev = s.dev := by
    split
    · exact (lockTest_dev _).trans (committed_keeps.dev rfl)
    · exact committed_keeps.dev rfl
  have hheld := hgood.2.2.2
  rw [← ty_of_toNat (ty := 1) hw.1] at hgood
  have he := request_set (x := {}) ha hw (length_leBytes ..) h8 (by decide +kernel : setPlainly Obj.testModePermit 1 1 0 1 = true)
    ((stateCode_permit h8).trans (if_pos h34)) (by omega) (by omega) ⟨rfl, rfl, rfl⟩ hgood rfl (by rw [hafter, hdev]; exact hheld)
  rw [hafter] at he
  exact congrArg Host.Outcome.next he

/-- What an accepted reference node leaves before its answer. -/
theorem reference_written (hw : Whole w 7 (leBytes 2 v)) (hv : v ≤ 0x0FFF) (hin : inEnsemble s = false)
    (hgood : SetGood w.hdr { key := Obj.syncReferenceNode, ty := 7, data := leBytes 2 v } s) (hsrc : s.time.source ≠ 3)
    (hp : s.ports = []) : exec (.syncReferenceNode w) s = .next (answerWrite w.hdr 0
      { committed w Obj.syncReferenceNode (leBytes 2 v) s with
        time := { s.time with valid := terase 3 s.time.valid, upstream := 0xFF, hops := 0xFF } }) := by
  have hval : leNat (leBytes 2 v) = v := leNat_leBytes_of_lt (by omega)
  have htime : (committed w Obj.syncReferenceNode (leBytes 2 v) s).time = s.time := committed_keeps.time rfl
  have hports : (committed w Obj.syncReferenceNode (leBytes 2 v) s).ports = s.ports := committed_keeps.ports rfl
  have hdev : (committed w Obj.syncReferenceNode (leBytes 2 v) s).dev = s.dev := committed_keeps.dev rfl
  have hafter : afterValue Obj.syncReferenceNode (leNat (leBytes 2 v)) (committed w Obj.syncReferenceNode (leBytes 2 v) s) =
      { committed w Obj.syncReferenceNode (leBytes 2 v) s with
        time := { s.time with valid := terase 3 s.time.valid, upstream := 0xFF, hops := 0xFF } } := by
    rw [← htime]
    exact reacquireFabric_none (by rw [htime]; exact hsrc) (by rw [hports]; exact hp)
  have hheld := hgood.2.2.2
  have hty := ty_of_toNat (ty := 7) hw.1
  have hact : actCode (stagedState [{ key := Obj.syncReferenceNode, ty := w.ty, data := leBytes 2 v }]
      (valueTaken w.hdr Obj.syncReferenceNode s)) Obj.syncReferenceNode (leNat (leBytes 2 v)) (leBytes 2 v) {} = 0 := by
    rw [hty]
    have hsize : (stagedState [{ key := Obj.syncReferenceNode, ty := 7, data := leBytes 2 v }]
        (valueTaken w.hdr Obj.syncReferenceNode s)).obj Obj.ensSize = s.obj Obj.ensSize :=
      State.obj_setObj_other (valueTaken w.hdr Obj.syncReferenceNode s) _ (show Obj.ensSize ≠ Obj.syncReferenceNode by decide)
    rw [actCode_reference]
    refine if_neg ?_
    unfold inEnsemble at hin ⊢
    rw [hsize, hin]
    decide
  have hown : ownRule (valueTaken w.hdr Obj.syncReferenceNode s) Obj.syncReferenceNode (leNat (leBytes 2 v)) = 0 := by
    rw [hval]
    change (if decide (0x0FFF < v ∧ v ≠ 0xFFFF) = true then 0x1204 else 0) = 0
    exact if_neg (by simp; omega)
  rw [← hty] at hgood
  have he := request_set (x := {}) ha hw (length_leBytes ..) h8 (by decide +kernel : setPlainly Obj.syncReferenceNode 7 2 0 65535 = true)
    (stateCode_reference h8) (by omega) (by omega) ⟨rfl, hown, rfl⟩ hgood hact
    (by rw [hafter]; exact fun hc => hheld (by rw [← hdev]; exact hc))
  rw [hafter] at he
  exact congrArg Host.Outcome.next he

/-- What an accepted value of the capture leaves before its answer. -/
theorem capture_written {b : Bytes} (hw : Whole w 1 b) (hb : b = [0] ∨ b = [1])
    (hgood : SetGood w.hdr { key := Obj.beagleEnable, ty := 1, data := b } s) : exec (.beagleEnable w) s =
    .next (answerWrite w.hdr 0 (beagleSwitch (leNat b == 1) (committed w Obj.beagleEnable b s))) := by
  have hlen : b.length = 1 := by rcases hb with rfl | rfl <;> rfl
  have hhi : (leNat b : Int) ≤ 1 := by rcases hb with rfl | rfl <;> decide
  have hdev : (beagleSwitch (leNat b == 1) (committed w Obj.beagleEnable b s)).dev = s.dev :=
    ((beagleSwitch_keeps ..).dev rfl).trans (committed_keeps.dev rfl)
  have hheld := hgood.2.2.2
  rw [← ty_of_toNat (ty := 1) hw.1] at hgood
  exact congrArg Host.Outcome.next (request_set (x := {}) ha hw hlen h8
    (by decide +kernel : setPlainly Obj.beagleEnable 1 1 0 1 = true) (stateCode_capture h8) (by omega) hhi ⟨rfl, rfl, rfl⟩ hgood rfl
    (by
      rw [afterValue_capture, hdev]
      exact hheld))

end

/-! ### The requests with the most to say -/

/-- A reference node is taken where none is followed and no port is trained. -/
theorem reference_accepted : ∀ (w : WReq) (v : Nat) (s : State), Admitted w.hdr s → s.dev.state ≠ 8 → Whole w 7 (leBytes 2 v) → SetGood w.hdr
    ({ key := Obj.syncReferenceNode, ty := 7, data := leBytes 2 v } : Entry) s → s.dev.state ≠ 0 → v ≤ 0x0FFF → inEnsemble s
    = false → s.time.source ≠ 3 → s.ports = [] →
    ∃ t, exec (.syncReferenceNode w) s = .next t ∧
      CommittedOne w.hdr ({ key := Obj.syncReferenceNode, ty := 7, data := leBytes 2 v } : Entry) s t ∧ Replied w.hdr 2
        (leBytes 2 0) s t ∧ t.obj Obj.syncReferenceNode = v ∧ t.time =
        { s.time with valid := terase 3 s.time.valid, upstream := 0xFF, hops := 0xFF } ∧
      t = { s with od := t.od, beagle := t.beagle, config := t.config, pair := t.pair, time := t.time } := by
  intro w v s ha h8 hw hgood h0 hv hin hsrc hp
  have he := reference_written ha h8 hw hv hin hgood hsrc hp
  obtain ⟨c, hc⟩ : ∃ c, c = committed w Obj.syncReferenceNode (leBytes 2 v) s := ⟨_, rfl⟩
  have hdev : c.dev = s.dev := by rw [hc]; exact committed_keeps.dev rfl
  have hobj : c.obj Obj.syncReferenceNode = v := by
    rw [hc, committed_obj, leNat_leBytes_of_lt (by omega)]
    omega
  obtain ⟨u, hu⟩ : ∃ u : State, u = { c with
    time := { s.time with valid := terase 3 s.time.valid, upstream := 0xFF, hops := 0xFF } } := ⟨_, rfl⟩
  obtain ⟨t, ht⟩ : ∃ t, t = answerWrite w.hdr 0 u := ⟨_, rfl⟩
  rw [← hc, ← hu, ← ht] at he
  have hunt : Untouched (Obj.syncReferenceNode :: logCounters) s c := by rw [hc]; exact committed_untouched
  have huc : Keeps 16777216 c u := by rw [hu]; exact Keeps.u16777216 (by decide) (Keeps.refl _ c)
  obtain ⟨hcfg, hrep, hk, hks⟩ := set_answered (w := w) (k := Obj.syncReferenceNode) (b := leBytes 2 v) (s := s) (m := 16777216)
    (n := 68904026114) (by rw [← hc]; exact huc) rfl rfl (by decide) (by rw [huc.dev rfl, hdev]; exact h8)
    ((State.obj_of_od (huc.od rfl) _).trans (hunt _ (by decide))) ht (ty_of_toNat (ty := 7) hw.1)
  refine ⟨t, he, hcfg, hrep, ?_, ?_, hks.eq⟩
  · rw [State.obj_of_od (hk.od rfl), State.obj_of_od (huc.od rfl), hobj]
  · rw [hk.time rfl, hu]

/-- Withdrawing the permit locks test mode. -/
theorem permit_withdrawn : ∀ (w : WReq) (s : State), Admitted w.hdr s → s.dev.state ≠ 8 → Whole w 1 ([0]) → SetGood w.hdr
    ({ key := Obj.testModePermit, ty := 1, data := [0] } : Entry) s → s.dev.state = 3 ∨ s.dev.state = 4 → s.test.unlocked =
    true →
    ∃ t, exec (.testModePermit w) s = .next t ∧
      CommittedOne w.hdr ({ key := Obj.testModePermit, ty := 1, data := [0] } : Entry) s t ∧ Replied w.hdr 2 (leBytes 2 0) s
        t ∧ t.obj Obj.testModePermit = 0 ∧ t.test.unlocked = false ∧ t.obj Obj.ballastEnable = 1 ∧ t.pod =
        { s.pod with testLine := false } ∧ (∀ p, (t.port p).inject.mode = 0) ∧ (∀ n, (t.str n).inject.mode = 0) ∧
      t = { s with
          od := t.od, beagle := t.beagle, config := t.config, pair := t.pair, strings := t.strings, ports := t.ports
          pod := t.pod, test := t.test } := by
  intro w s ha h8 hw hgood h34 hun
  have he := permit_written (v := 0) ha h8 hw (by decide) hgood h34
  rw [if_pos rfl] at he
  obtain ⟨c, hc⟩ : ∃ c, c = committed w Obj.testModePermit (leBytes 1 0) s := ⟨_, rfl⟩
  have hck : Keeps 68753031170 s c := by rw [hc]; exact committed_keeps
  have hunt : Untouched (Obj.testModePermit :: logCounters) s c := by rw [hc]; exact committed_untouched
  have hzero : c.obj Obj.testModePermit = 0 := by rw [hc]; exact committed_obj
  have hcun : c.test.unlocked = true := by rw [hck.test rfl]; exact hun
  obtain ⟨hlocked, hballast, hpod, -, -, hluntouched⟩ := lockTest_unlocked hcun
  have hlk := lockTest_keeps c
  obtain ⟨t, ht⟩ : ∃ t, t = answerWrite w.hdr 0 (lockTest c) := ⟨_, rfl⟩
  obtain ⟨hcfg, hrep, hk, hks⟩ := set_answered (w := w) (k := Obj.testModePermit) (b := leBytes 1 0) (s := s) (m := 34896872450)
    (n := 103784121346) (by rw [← hc]; exact hlk) rfl rfl (by decide) (by rw [lockTest_dev, hck.dev rfl]; exact h8)
    ((hluntouched _ (by decide)).trans (hunt _ (by decide))) ht (ty_of_toNat (ty := 1) hw.1)
  obtain ⟨hports, hstrs⟩ := lockTest_quiet hcun (hk.ports rfl) (hk.strings rfl)
  have hobj : t.obj Obj.testModePermit = 0 := by
    rw [State.obj_of_od (hk.od rfl), hluntouched _ (by decide), hzero]
  refine ⟨t, he.trans (by rw [ht, hc]), hcfg, hrep, hobj, ?_, ?_, ?_, hports, hstrs, hks.eq⟩
  · rw [hk.test rfl]; exact hlocked
  · rw [State.obj_of_od (hk.od rfl)]; exact hballast
  · rw [hk.pod rfl, hpod, hck.pod rfl]

/-- Test mode unlocked is counted and logged, and drives the line of the Pod. -/
theorem unlock_accepted : ∀ (w : WReq) (s : State), Admitted w.hdr s → Whole w 6 ([1]) → s.dev.state ≠ 8 → s.dev.state ≠ 2 → s.obj
    Obj.testModePermit = 1 → s.test.unlocked = false →
    ∃ t, exec (.testModeUnlock w) s = .next t ∧
      t.config = taken w.hdr Obj.testModeUnlock s ∧ Replied w.hdr 2 (leBytes 2 0) s t ∧ t.test =
        { s.test with unlocked := true, since := s.beat } ∧ t.pod = { s.pod with testLine := true } ∧ t.tallies =
        { s.tallies with tested := true } ∧ t.obj Obj.testModeUnlocks = (s.obj Obj.testModeUnlocks + 1) % 2 ^ objBits
        Obj.testModeUnlocks ∧ Untouched (Obj.testModeUnlocks :: logCounters) s t ∧
      t = { s with
          config := t.config, pair := t.pair, od := t.od, pod := t.pod, tallies := t.tallies, test := t.test
          beagle := t.beagle, log := t.log } := by
  intro w s ha hw h8 h2 hp hun
  have hact : testUnlockCode (valueTaken w.hdr Obj.testModeUnlock s) = 0 := (if_neg (by simp; exact ⟨h2, h8⟩)).trans (if_pos hp)
  have he := request_acted (x := {}) ha hw rfl (.inl h8) (by decide +kernel : actsPlainly Obj.testModeUnlock 6 1 1 1 = true)
    ((stateCode_unlock h8).trans (if_neg h2)) (by decide) (by decide) ⟨rfl, rfl, rfl⟩ hact
  rw [actionOf_unlock] at he
  obtain ⟨u, hu⟩ : ∃ u : State, u = { valueTaken w.hdr Obj.testModeUnlock s with
    test := { s.test with unlocked := true, since := s.beat }, pod := { s.pod with testLine := true }
    tallies := { s.tallies with tested := true } } := ⟨_, rfl⟩
  have hul : unlockTest (valueTaken w.hdr Obj.testModeUnlock s) = countLog Obj.testModeUnlocks 0 0 0xFF 0 [] u := by
    rw [hu]
    exact if_neg (by rw [show (valueTaken w.hdr Obj.testModeUnlock s).test.unlocked = false from hun]; decide)
  have huod : u.od = s.od := by rw [hu]; rfl
  have hunt := (countLog_untouched Obj.testModeUnlocks 0 0 0xFF 0 [] u)
  have hcount := (countLog_obj Obj.testModeUnlocks 0 0 0xFF 0 [] u (by decide))
  have hlk := countLog_keeps Obj.testModeUnlocks 0 0 0xFF 0 [] u
  rw [State.obj_of_od huod] at hcount
  have hkv := unlockTest_keeps (valueTaken w.hdr Obj.testModeUnlock s)
  rw [hul] at he hkv
  have hunt' : Untouched (Obj.testModeUnlocks :: logCounters) s (countLog Obj.testModeUnlocks 0 0 0xFF 0 [] u) :=
    fun j hj => (hunt j hj).trans (State.obj_of_od huod j)
  generalize countLog Obj.testModeUnlocks 0 0 0xFF 0 [] u = v at he hkv hunt' hcount hlk
  obtain ⟨t, ht⟩ : ∃ t, t = answerWrite w.hdr 0 v := ⟨_, rfl⟩
  obtain ⟨hcfg, hrep, hks⟩ := answered_act (h := w.hdr) (c := 0) (n := 242296553474) hkv rfl rfl (by decide)
    (by rw [hlk.dev rfl, hu]; exact h8) (hunt' _ (by decide))
  have hk : Keeps 549890031616 v t := by rw [ht]; exact answerWrite_keeps ..
  rw [← ht] at hcfg hrep hks
  refine ⟨t, (congrArg Host.Outcome.next he).trans (by rw [ht]), hcfg, hrep, ?_, ?_, ?_, ?_, fun j hj => ?_, hks.eq⟩
  · rw [hk.test rfl, hlk.test rfl, hu]
  · rw [hk.pod rfl, hlk.pod rfl, hu]
  · rw [hk.tallies rfl, hlk.tallies rfl, hu]
  · rw [State.obj_of_od (hk.od rfl), hcount]
    exact Nat.mod_eq_of_lt ((Nat.mod_lt _ (by decide)).trans_le (by decide))
  · exact (State.obj_of_od (hk.od rfl) j).trans (hunt' j hj)

/-- Locking test mode ends every injection and puts ballast on. -/
theorem lock_accepted : ∀ (w : WReq) (s : State), Admitted w.hdr s → Whole w 6 ([1]) → s.dev.state ≠ 8 → s.test.unlocked = true →
    ∃ t, exec (.testModeLock w) s = .next t ∧
      t.config = taken w.hdr Obj.testModeLock s ∧ Replied w.hdr 2 (leBytes 2 0) s t ∧ t.test.unlocked = false ∧ t.obj
        Obj.ballastEnable = 1 ∧ t.pod = { s.pod with testLine := false } ∧ (∀ p, (t.port p).inject.mode = 0) ∧ (∀ n, (t.str
        n).inject.mode = 0) ∧
      t = { s with
          config := t.config, pair := t.pair, od := t.od, strings := t.strings, ports := t.ports, pod := t.pod
          test := t.test } := by
  intro w s ha hw h8 hun
  have he := request_acted (x := {}) ha hw rfl (.inl h8) (by decide +kernel : actsPlainly Obj.testModeLock 6 1 1 1 = true)
    (stateCode_lock h8) (by decide) (by decide) ⟨rfl, rfl, rfl⟩ rfl
  rw [actionOf_lock] at he
  have hlk := lockTest_keeps (valueTaken w.hdr Obj.testModeLock s)
  obtain ⟨hlocked, hballast, hpod, -, -, hunt⟩ := lockTest_unlocked (s := valueTaken w.hdr Obj.testModeLock s) hun
  obtain ⟨hcfg, hrep, hks⟩ := answered_act (h := w.hdr) (c := 0) (n := 35064644610) hlk rfl rfl (by decide)
    (by rw [lockTest_dev]; exact h8) (hunt _ (by decide))
  have hk : Keeps 549890031616 (lockTest (valueTaken w.hdr Obj.testModeLock s))
    (answerWrite w.hdr 0 (lockTest (valueTaken w.hdr Obj.testModeLock s))) := answerWrite_keeps ..
  obtain ⟨hports, hstrs⟩ := lockTest_quiet (s := valueTaken w.hdr Obj.testModeLock s) hun (hk.ports rfl) (hk.strings rfl)
  refine ⟨_, congrArg Host.Outcome.next he, hcfg, hrep, ?_, ?_, ?_, hports, hstrs, hks.eq⟩
  · rw [hk.test rfl]; exact hlocked
  · rw [State.obj_of_od (hk.od rfl)]; exact hballast
  · rw [hk.pod rfl, hpod]; rfl

/-- An injection starts where it is allowed and there is room for it. -/
theorem inject_accepted : ∀ (w : WReq) (s : State), Admitted w.hdr s → Whole w 6 ([1]) → s.dev.state ≠ 8 → s.test.unlocked = true → isBus (s.obj
    Obj.sfiString) = false ∨ s.obj Obj.sfiMode ≤ 2 → s.obj Obj.sfiMode = 0 ∨ (s.str (s.obj Obj.sfiString)).inject.mode ≠ 0 ∨
    injecting s ≤ 63 →
    ∃ t, exec (.sfiApply w) s = .next t ∧
      t.config = taken w.hdr Obj.sfiApply s ∧ Replied w.hdr 2 (leBytes 2 0) s t ∧ t.strings = (s.setStr (s.obj Obj.sfiString)
        { s.str (s.obj Obj.sfiString) with inject := { mode := s.obj Obj.sfiMode, rate := s.obj Obj.sfiRateLog2, pattern := s.obj Obj.sfiPattern, burst := s.obj Obj.sfiBurstLen, seed := BitVec.ofNat 32 (s.obj Obj.sfiSeed), classes := s.obj Obj.sfiClassMask, at_ := s.beat } }).strings
        ∧
      t = { s with config := t.config, pair := t.pair, strings := t.strings } := by
  intro w s ha hw h8 hun hbus hroom
  have hact : sfiApplyCode (valueTaken w.hdr Obj.sfiApply s) = 0 := by
    change (if !s.test.unlocked then _ else if isBus (s.obj Obj.sfiString) ∧ 3 ≤ s.obj Obj.sfiMode then _ else
      if s.obj Obj.sfiMode ≠ 0 ∧ (s.str (s.obj Obj.sfiString)).inject.mode = 0 ∧ 64 ≤ injecting s then _ else _) = _
    rw [if_neg (by rw [hun]; decide), if_neg, if_neg]
    · rintro ⟨hm, hs, hi⟩
      rcases hroom with h | h | h
      · exact hm h
      · exact h hs
      · omega
    · rintro ⟨hb, hm⟩
      rcases hbus with h | h
      · rw [h] at hb; cases hb
      · omega
  have he := request_acted (x := {}) ha hw rfl (.inl h8) (by decide +kernel : actsPlainly Obj.sfiApply 6 1 1 1 = true)
    (stateCode_inject h8) (by decide) (by decide) ⟨rfl, rfl, rfl⟩ hact
  rw [actionOf_inject, answerWrite_eq (by exact h8)] at he
  exact ⟨_, congrArg Host.Outcome.next he, rfl, rfl, rfl, rfl⟩

/-- The capture begins, with the buffer cut to its size. -/
theorem capture_begun : ∀ (w : WReq) (s : State), Admitted w.hdr s → s.dev.state ≠ 8 → Whole w 1 ([1]) → SetGood w.hdr
    ({ key := Obj.beagleEnable, ty := 1, data := [1] } : Entry) s → s.dev.state ≠ 0 → s.beagle.state = 0 →
    ∃ t, exec (.beagleEnable w) s = .next t ∧
      CommittedOne w.hdr ({ key := Obj.beagleEnable, ty := 1, data := [1] } : Entry) s t ∧ Replied w.hdr 2 (leBytes 2 0) s t
        ∧ t.obj Obj.beagleEnable = 1 ∧ t.beagle =
        { s.beagle with state := 1, post := none, sizeMib := s.obj Obj.beagleBufferMib, buffer := s.beagle.buffer.drop (s.beagle.buffer.length - s.obj Obj.beagleBufferMib * 2 ^ 20 / 48) }
        ∧
      t = { s with od := t.od, beagle := t.beagle, config := t.config, pair := t.pair } := by
  intro w s ha h8 hw hgood h0 hst
  have he := capture_written ha h8 hw (.inr rfl) hgood
  obtain ⟨c, hc⟩ : ∃ c, c = committed w Obj.beagleEnable [1] s := ⟨_, rfl⟩
  have hck : Keeps 68753031170 s c := by rw [hc]; exact committed_keeps
  have hunt : Untouched (Obj.beagleEnable :: logCounters) s c := by rw [hc]; exact committed_untouched
  have hone : c.obj Obj.beagleEnable = 1 := by rw [hc]; exact committed_obj
  have hbeagle : c.beagle = s.beagle := by
    rw [hc]
    unfold committed storeEntries
    dsimp only
    rw [traceMake_off (by
      change s.beagle.state ≠ 1
      rw [hst]
      decide)]
    rfl
  have hsw : beagleSwitch (leNat [1] == 1) c = { c with beagle := { s.beagle with state := 1, post := none, sizeMib := s.obj Obj.beagleBufferMib, buffer := s.beagle.buffer.drop (s.beagle.buffer.length - s.obj Obj.beagleBufferMib * 2 ^ 20 / 48) } } := by
    rw [← hbeagle, ← hunt Obj.beagleBufferMib (by decide)]
    exact if_pos ⟨rfl, by rw [hbeagle]; exact hst⟩
  obtain ⟨t, ht⟩ : ∃ t, t = answerWrite w.hdr 0 (beagleSwitch (leNat [1] == 1) c) := ⟨_, rfl⟩
  rw [← hc, ← ht] at he
  have hsk : Keeps 68719476736 c (beagleSwitch (leNat [1] == 1) c) := beagleSwitch_keeps ..
  obtain ⟨hcfg, hrep, hk, hks⟩ := set_answered (w := w) (k := Obj.beagleEnable) (b := [1]) (s := s) (m := 68719476736) (n := 68887248898)
    (by rw [← hc]; exact hsk) rfl rfl (by decide) (by rw [hsk.dev rfl, hck.dev rfl]; exact h8)
    ((State.obj_of_od (hsk.od rfl) _).trans (hunt _ (by decide))) ht (ty_of_toNat (ty := 1) hw.1)
  refine ⟨t, he, hcfg, hrep, ?_, ?_, hks.eq⟩
  · rw [State.obj_of_od (hk.od rfl), State.obj_of_od (hsk.od rfl), hone]
  · rw [hk.beagle rfl, hsw]

/-- The capture ends. -/
theorem capture_ended : ∀ (w : WReq) (s : State), Admitted w.hdr s → s.dev.state ≠ 8 → Whole w 1 ([0]) → SetGood w.hdr
    ({ key := Obj.beagleEnable, ty := 1, data := [0] } : Entry) s → s.dev.state ≠ 0 →
    ∃ t, exec (.beagleEnable w) s = .next t ∧
      CommittedOne w.hdr ({ key := Obj.beagleEnable, ty := 1, data := [0] } : Entry) s t ∧ Replied w.hdr 2 (leBytes 2 0) s t
        ∧ t.obj Obj.beagleEnable = 0 ∧ t.beagle.state = 0 ∧ t.beagle.post = none ∧
      t = { s with od := t.od, beagle := t.beagle, config := t.config, pair := t.pair } := by
  intro w s ha h8 hw hgood h0
  have he := capture_written ha h8 hw (.inl rfl) hgood
  obtain ⟨c, hc⟩ : ∃ c, c = committed w Obj.beagleEnable [0] s := ⟨_, rfl⟩
  have hck : Keeps 68753031170 s c := by rw [hc]; exact committed_keeps
  have hunt : Untouched (Obj.beagleEnable :: logCounters) s c := by rw [hc]; exact committed_untouched
  have hzero : c.obj Obj.beagleEnable = 0 := by rw [hc]; exact committed_obj
  have hsw : beagleSwitch (leNat [0] == 1) c = { c with beagle := { c.beagle with state := 0, post := none } } :=
    (if_neg (by rintro ⟨h, -⟩; cases h)).trans (if_pos rfl)
  obtain ⟨t, ht⟩ : ∃ t, t = answerWrite w.hdr 0 (beagleSwitch (leNat [0] == 1) c) := ⟨_, rfl⟩
  rw [← hc, ← ht] at he
  have hsk : Keeps 68719476736 c (beagleSwitch (leNat [0] == 1) c) := beagleSwitch_keeps ..
  obtain ⟨hcfg, hrep, hk, hks⟩ := set_answered (w := w) (k := Obj.beagleEnable) (b := [0]) (s := s) (m := 68719476736) (n := 68887248898)
    (by rw [← hc]; exact hsk) rfl rfl (by decide) (by rw [hsk.dev rfl, hck.dev rfl]; exact h8)
    ((State.obj_of_od (hsk.od rfl) _).trans (hunt _ (by decide))) ht (ty_of_toNat (ty := 1) hw.1)
  refine ⟨t, he, hcfg, hrep, ?_, ?_, ?_, hks.eq⟩
  · rw [State.obj_of_od (hk.od rfl), State.obj_of_od (hsk.od rfl), hzero]
  · rw [hk.beagle rfl, hsw]
  · rw [hk.beagle rfl, hsw]

/-- An entry that the log holds is selected. -/
theorem logSel_accepted : ∀ (w : WReq) (v : Nat) (s : State), Admitted w.hdr s → Whole w 8 (leBytes 4 v) → s.dev.state ≠ 8 → v < 2 ^ 32 → logOldest
    s ≤ v ∧ v ≤ logNewest s →
    ∃ t, exec (.logSel w) s = .next t ∧
      t.config = taken w.hdr Obj.logSel s ∧ Replied w.hdr 2 (leBytes 2 0) s t ∧ t.obj Obj.logSel = v ∧ Untouched [Obj.logSel]
        s t ∧
      t = { s with config := t.config, pair := t.pair, od := t.od } := by
  intro w v s ha hw h8 hv hrange
  have hval := log_value hv
  have hrow : rowIs Obj.logSel 8 4 0 4294967295 = true := by decide +kernel
  have hcode : logSelCode s v = 0 := (if_neg (by omega)).trans (if_neg (by omega))
  have he := write_applied (x := {}) ha hw.2 ((openCodeOf_row (.of_table hrow) hw (length_leBytes ..) (.inl h8)).trans (stateCode_select h8))
    ((valueCode_logSel hv).trans hcode) (by decide +kernel) (by rw [hval]; exact hcode) (by decide)
  rw [applyObj_kept (by decide +kernel) rfl (by rw [show w.ty.toNat = 8 from hw.1]; rfl) (by rw [show w.ty.toNat = 8 from hw.1]; rfl),
    hval, show ∀ u, afterValue Obj.logSel v u = u from fun _ => rfl, answerWrite_eq (by exact h8)] at he
  have hunt : Untouched [Obj.logSel] s ((valueTaken w.hdr Obj.logSel s).setObj Obj.logSel v) := fun j hj =>
    State.obj_setObj_other _ _ (by simpa using hj)
  have hreply : dictReply w.hdr 2 (leBytes 2 0) ((valueTaken w.hdr Obj.logSel s).setObj Obj.logSel v) = dictReply w.hdr 2 (leBytes 2 0) s := by
    unfold dictReply
    rw [hunt _ (by decide)]
  rw [hreply] at he
  exact ⟨_, congrArg Host.Outcome.next he, rfl, rfl, (State.obj_setObj ..).trans (by omega), hunt, rfl⟩

/-- The log is cleared. -/
theorem logClear_accepted : ∀ (w : WReq) (s : State), Admitted w.hdr s → Whole w 6 ([1]) → s.dev.state = 3 ∨ s.dev.state = 4 →
    ∃ t, exec (.logClear w) s = .next t ∧
      t.config = taken w.hdr Obj.logClear s ∧ Replied w.hdr 2 (leBytes 2 0) s t ∧ t.log.entries.length = 1 ∧ (∀ e, e ∈
        t.log.entries → e.key = Obj.logClear ∧ e.sev = 0 ∧ e.seq = s.log.nextSeq % 2 ^ 32) ∧ t.log.nextSeq = s.log.nextSeq +
        1 ∧
      t = { s with config := t.config, pair := t.pair, od := t.od, beagle := t.beagle, log := t.log } := by
  intro w s ha hw h34
  have h8 : s.dev.state ≠ 8 := by omega
  have he := request_acted (x := {}) ha hw rfl (.inl h8) (by decide +kernel : actsPlainly Obj.logClear 6 1 1 1 = true)
    ((stateCode_logClear h8).trans (if_pos h34)) (by decide) (by decide) ⟨rfl, rfl, rfl⟩ rfl
  rw [actionOf_logClear] at he
  obtain ⟨hlen, hent, hseq⟩ := logEmpty_log (valueTaken w.hdr Obj.logClear s)
  have hlk := logEmpty_keeps (valueTaken w.hdr Obj.logClear s)
  have hunt := logEmpty_untouched (valueTaken w.hdr Obj.logClear s)
  generalize logEmpty (valueTaken w.hdr Obj.logClear s) = v at he hlen hent hseq hlk hunt
  obtain ⟨hcfg, hrep, hks⟩ := answered_act (h := w.hdr) (c := 0) (n := 206326202370) hlk rfl rfl (by decide)
    (by rw [hlk.dev rfl]; exact h8) (hunt _ (by decide))
  have hlog : (answerWrite w.hdr 0 v).log = v.log := (answerWrite_keeps ..).log rfl
  exact ⟨_, congrArg Host.Outcome.next he, hcfg, hrep, by rw [hlog]; exact hlen, by rw [hlog]; exact hent, by rw [hlog]; exact hseq, hks.eq⟩

/-- Settles O60: the checks of a WRITE come from `request_acted`, `request_set` and their refusals, and the rest from what each
action leaves. -/
theorem timeAndTestRequests : Obligations.TimeAndTestRequests := by
  unfold Obligations.TimeAndTestRequests
  refine ⟨?_, ?_, ?_, ?_, ?_, ?_, ?_, ?_, ?_, ?_, ?_, ?_, ?_, ?_, ?_, ?_, ?_, ?_, ?_, ?_, ?_, ?_, ?_, ?_, ?_, ?_, ?_, ?_, ?_, ?_,
    ?_, ?_, ?_, ?_, ?_, ?_, ?_, ?_, ?_, ?_, ?_, ?_, ?_, ?_, ?_, ?_, ?_, ?_, ?_, ?_, ?_, ?_⟩
  case _ =>
    intro w v s ha hw hv h3
    have h8 : s.dev.state ≠ 8 := by omega
    have hval : leNat (leBytes 8 v) = v := leNat_leBytes_of_lt hv
    have he := request_acted (x := {}) ha hw (length_leBytes ..) (.inl h8)
      (by decide +kernel : actsPlainly Obj.beatSecondsSet 9 8 0 18446744073709551615 = true)
      ((stateCode_seconds h8).trans (if_pos h3)) (by omega) (by omega) ⟨rfl, rfl, rfl⟩ rfl
    rw [actionOf_seconds, hval, answerWrite_eq (by exact h8)] at he
    exact ⟨_, congrArg Host.Outcome.next he, rfl, rfl, rfl, rfl, rfl⟩
  case _ =>
    intro w v s ha hw h8 h3
    exact request_refused ha hw (length_leBytes ..) (.inl h8)
      (by decide +kernel : rowIs Obj.beatSecondsSet 9 8 0 18446744073709551615 = true) h8
      ((stateCode_seconds h8).trans (if_neg h3)) (by decide)
  case _ => exact reference_accepted
  case _ =>
    intro w v c s ha hw h8 h0 h2 hv hf hd hc
    have he := isolation_written hv ha hw h8 h2 hf hd
    rw [queueKat_busy (by exact hc)] at he
    exact ⟨_, he, rfl, rfl, rfl, rfl⟩
  case _ =>
    intro w v s ha hw h8 h0 h2 hv hf hd
    have hact : actCode (valueTaken w.hdr Obj.isolationClear s) Obj.isolationClear (leNat (leBytes 2 v)) (leBytes 2 v) {} = 0x1205 := by
      rw [unit_value hv]
      change isolationClearCode s v = _
      unfold isolationClearCode
      rw [if_neg (by omega), if_neg (by rw [hf]; decide), if_pos (by rw [hd]; rfl)]
    exact request_act_refused ha hw (length_leBytes ..) (.inl h8) (by decide +kernel : rowIs Obj.isolationClear 7 2 0 319 = true)
      (by decide +kernel) h8 ((stateCode_isolation h8).trans (if_neg h2))
      ((valueCode_isolation hv).trans (if_neg (by rw [show unitFused (valueTaken w.hdr Obj.isolationClear s) v = false from hf]; decide)))
      hact (by decide)
  case _ =>
    intro w v s ha hw h8 h0 h2 hv hf
    exact request_value_refused ha hw (length_leBytes ..) (.inl h8) (by decide +kernel : rowIs Obj.isolationClear 7 2 0 319 = true) h8
      ((stateCode_isolation h8).trans (if_neg h2)) ((valueCode_isolation hv).trans (if_pos hf)) (by decide)
  case _ =>
    intro w v c s ha hw h8 h0 h2 hv hf hc
    have hval := unit_value hv
    have hown : ownRule (valueTaken w.hdr Obj.katRequest s) Obj.katRequest (leNat (leBytes 2 v)) = 0 := by
      rw [hval, ownRule_kat]
      exact if_neg (by rw [show unitFused (valueTaken w.hdr Obj.katRequest s) v = false from hf]; decide)
    have he := request_acted (x := {}) ha hw (length_leBytes ..) (.inl h8) (by decide +kernel : actsPlainly Obj.katRequest 7 2 0 319 = true)
      ((stateCode_kat h8).trans (if_neg h2)) (by omega) (by omega) ⟨rfl, hown, rfl⟩ rfl
    rw [actionOf_kat, hval, queueKat_busy (by exact hc), answerWrite_eq (by exact h8)] at he
    exact ⟨_, congrArg Host.Outcome.next he, rfl, rfl, rfl, rfl⟩
  case _ =>
    intro w v s ha h8 hw hgood h34 hv1 hv
    have he := permit_written ha h8 hw hv1 hgood h34
    have hval : leNat (leBytes 1 v) = v := leNat_leBytes_of_lt (by omega)
    have hlock : (if v = 0 then lockTest (committed w Obj.testModePermit (leBytes 1 v) s) else
        committed w Obj.testModePermit (leBytes 1 v) s) = committed w Obj.testModePermit (leBytes 1 v) s := by
      rcases hv with hv | hv
      · exact if_neg (by omega)
      · rw [lockTest_eq_self (by rw [committed_keeps.test rfl]; exact hv), ite_self]
    rw [hlock] at he
    have hdev : (committed w Obj.testModePermit (leBytes 1 v) s).dev = s.dev := committed_keeps.dev rfl
    obtain ⟨t, ht⟩ : ∃ t, t = answerWrite w.hdr 0 (committed w Obj.testModePermit (leBytes 1 v) s) := ⟨_, rfl⟩
    obtain ⟨hcfg, hrep, hk, hks⟩ := set_answered (w := w) (s := s) (m := 0) (n := 68887248898) (Keeps.refl _ (committed w Obj.testModePermit (leBytes 1 v) s)) rfl rfl
      (by decide) (by rw [hdev]; exact h8) (committed_untouched _ (by decide)) ht (ty_of_toNat (ty := 1) hw.1)
    refine ⟨t, he.trans (by rw [ht]), hcfg, hrep, ?_, (hk.test rfl).trans (committed_keeps.test rfl), hks.eq⟩
    rw [State.obj_of_od (hk.od rfl), committed_obj, hval]
    omega
  case _ => exact permit_withdrawn
  case _ => exact unlock_accepted
  case _ =>
    intro w s ha hw h8 h2 hp hun
    have hact : testUnlockCode (valueTaken w.hdr Obj.testModeUnlock s) = 0 := (if_neg (by simp; exact ⟨h2, h8⟩)).trans (if_pos hp)
    have he := request_acted (x := {}) ha hw rfl (.inl h8) (by decide +kernel : actsPlainly Obj.testModeUnlock 6 1 1 1 = true)
      ((stateCode_unlock h8).trans (if_neg h2)) (by decide) (by decide) ⟨rfl, rfl, rfl⟩ hact
    rw [actionOf_unlock, show unlockTest (valueTaken w.hdr Obj.testModeUnlock s) = _ from if_pos hun] at he
    exact ⟨_, congrArg Host.Outcome.next he, answered_plain h8⟩
  case _ =>
    intro w s ha hw h8 h2 hp
    have hact : testUnlockCode (valueTaken w.hdr Obj.testModeUnlock s) = 0x1701 := (if_neg (by simp; exact ⟨h2, h8⟩)).trans (if_neg hp)
    have hrow : rowIs Obj.testModeUnlock 6 1 1 1 = true := by decide +kernel
    exact request_act_refused ha hw rfl (.inl h8) hrow (by decide +kernel) h8 ((stateCode_unlock h8).trans (if_neg h2))
      (valueCode_unruled (.of_table hrow) (by decide) (by decide) (by decide) (by decide) ⟨rfl, rfl, rfl⟩) hact (by decide)
  case _ => exact lock_accepted
  case _ =>
    intro w s ha hw h8 hun
    have he := request_acted (x := {}) ha hw rfl (.inl h8) (by decide +kernel : actsPlainly Obj.testModeLock 6 1 1 1 = true)
      (stateCode_lock h8) (by decide) (by decide) ⟨rfl, rfl, rfl⟩ rfl
    rw [actionOf_lock, lockTest_eq_self (by exact hun)] at he
    exact ⟨_, congrArg Host.Outcome.next he, answered_plain h8⟩
  case _ => exact inject_accepted
  case _ =>
    intro w s ha hw h8 hun hbad
    have hact : sfiApplyCode (valueTaken w.hdr Obj.sfiApply s) = 0x1205 := by
      change (if !s.test.unlocked then _ else if isBus (s.obj Obj.sfiString) ∧ 3 ≤ s.obj Obj.sfiMode then _ else
        if s.obj Obj.sfiMode ≠ 0 ∧ (s.str (s.obj Obj.sfiString)).inject.mode = 0 ∧ 64 ≤ injecting s then _ else _) = _
      rw [if_neg (by rw [hun]; decide)]
      rcases hbad with h | h
      · exact if_pos h
      · rw [if_pos h, ite_self]
    have hrow : rowIs Obj.sfiApply 6 1 1 1 = true := by decide +kernel
    exact request_act_refused ha hw rfl (.inl h8) hrow (by decide +kernel) h8 (stateCode_inject h8)
      (valueCode_unruled (.of_table hrow) (by decide) (by decide) (by decide) (by decide) ⟨rfl, rfl, rfl⟩) hact (by decide)
  case _ =>
    intro w s ha hw h8 hun
    have hact : sfiApplyCode (valueTaken w.hdr Obj.sfiApply s) = 0x1701 :=
      if_pos (by rw [show (valueTaken w.hdr Obj.sfiApply s).test.unlocked = false from hun]; rfl)
    have hrow : rowIs Obj.sfiApply 6 1 1 1 = true := by decide +kernel
    exact request_act_refused ha hw rfl (.inl h8) hrow (by decide +kernel) h8 (stateCode_inject h8)
      (valueCode_unruled (.of_table hrow) (by decide) (by decide) (by decide) (by decide) ⟨rfl, rfl, rfl⟩) hact (by decide)
  case _ =>
    intro w s ha hw h8
    have he := request_acted (x := {}) ha hw rfl (.inl h8) (by decide +kernel : actsPlainly Obj.fiStopAll 6 1 1 1 = true)
      (stateCode_stop h8) (by decide) (by decide) ⟨rfl, rfl, rfl⟩ rfl
    rw [actionOf_stop, answerWrite_eq (by exact h8)] at he
    exact ⟨_, congrArg Host.Outcome.next he, rfl, rfl, stopInjection_port s, stopInjection_str s, rfl⟩
  case _ => exact capture_begun
  case _ => exact capture_ended
  case _ =>
    intro w s ha hw h8 hst
    have he := request_acted (x := {}) ha hw rfl (.inl h8) (by decide +kernel : actsPlainly Obj.beagleClear 6 1 1 1 = true)
      ((stateCode_empty h8).trans (if_neg hst)) (by decide) (by decide) ⟨rfl, rfl, rfl⟩ rfl
    rw [actionOf_empty, answerWrite_eq (by exact h8)] at he
    exact ⟨_, congrArg Host.Outcome.next he, rfl, rfl, rfl, rfl⟩
  case _ =>
    intro w s ha hw h8 hst
    exact request_refused ha hw rfl (.inl h8) (by decide +kernel : rowIs Obj.beagleClear 6 1 1 1 = true) h8
      ((stateCode_empty h8).trans (if_pos hst)) (by decide)
  case _ => exact logSel_accepted
  case _ =>
    intro w v s ha hw h8 hlow hv
    exact request_value_refused ha hw (length_leBytes ..) (.inl h8) (by decide +kernel : rowIs Obj.logSel 8 4 0 4294967295 = true) h8
      (stateCode_select h8) ((valueCode_logSel hv).trans (if_pos hlow)) (by decide)
  case _ =>
    intro w v s ha hw h8 hv hle hhigh
    exact request_value_refused ha hw (length_leBytes ..) (.inl h8) (by decide +kernel : rowIs Obj.logSel 8 4 0 4294967295 = true) h8
      (stateCode_select h8) ((valueCode_logSel hv).trans ((if_neg (show ¬ v < logOldest s by omega)).trans (if_pos hhigh))) (by decide)
  case _ => exact logClear_accepted
  case _ => exact fun w s => ⟨_, rfl, rfl⟩
  case _ =>
    intro w b u s ha ho hl ht hd hu hc hv hact
    subst hu
    exact ⟨_, congrArg Host.Outcome.next ((write_value_taken ha ⟨ho, hl, ht, hd⟩ hc hv).trans
      ((writeWhole_unkept (by decide +kernel)).trans ((if_neg (not_not.2 hact)).trans ((if_pos rfl).trans
        (applyObj_acts (by decide +kernel) ..))))), rfl⟩
  case _ => exact fun w s => ⟨_, rfl, rfl⟩
  case _ =>
    intro w b u s ha ho hl ht hd hu hc hv hact
    exact ⟨_, congrArg Host.Outcome.next (request_action ha ⟨ho, hl, ht, hd⟩ hc hu hv hact (by decide +kernel)), rfl⟩
  case _ => exact fun w s => ⟨_, rfl, rfl⟩
  case _ =>
    intro w b u s ha ho hl ht hd hu hc hv hact
    exact ⟨_, congrArg Host.Outcome.next (request_action ha ⟨ho, hl, ht, hd⟩ hc hu hv hact (by decide +kernel)), rfl⟩
  case _ => exact fun w s => ⟨_, rfl, rfl⟩
  case _ =>
    intro w b e u s ha hi hown ho hl ht hd he hu hc hv hset
    subst he hu
    exact ⟨_, congrArg Host.Outcome.next (write_set ha ⟨ho, hl, ht, hd⟩ hc hv (by decide +kernel) hi hown hset), rfl⟩
  case _ => exact fun w s => ⟨_, rfl, rfl⟩
  case _ =>
    intro w b e u s ha hi hown ho hl ht hd he hu hc hv hset
    subst he hu
    exact ⟨_, congrArg Host.Outcome.next (write_set ha ⟨ho, hl, ht, hd⟩ hc hv (by decide +kernel) hi hown hset), rfl⟩
  case _ => exact fun w s => ⟨_, rfl, rfl⟩
  case _ =>
    intro w b u s ha ho hl ht hd hu hc hv hact
    exact ⟨_, congrArg Host.Outcome.next (request_action ha ⟨ho, hl, ht, hd⟩ hc hu hv hact (by decide +kernel)), rfl⟩
  case _ => exact fun w s => ⟨_, rfl, rfl⟩
  case _ =>
    intro w b u s ha ho hl ht hd hu hc hv hact
    exact ⟨_, congrArg Host.Outcome.next (request_action ha ⟨ho, hl, ht, hd⟩ hc hu hv hact (by decide +kernel)), rfl⟩
  case _ => exact fun w s => ⟨_, rfl, rfl⟩
  case _ =>
    intro w b u s ha ho hl ht hd hu hc hv hact
    exact ⟨_, congrArg Host.Outcome.next (request_action ha ⟨ho, hl, ht, hd⟩ hc hu hv hact (by decide +kernel)), rfl⟩
  case _ => exact fun w s => ⟨_, rfl, rfl⟩
  case _ =>
    intro w b u s ha ho hl ht hd hu hc hv hact
    exact ⟨_, congrArg Host.Outcome.next (request_action ha ⟨ho, hl, ht, hd⟩ hc hu hv hact (by decide +kernel)), rfl⟩
  case _ => exact fun w s => ⟨_, rfl, rfl⟩
  case _ =>
    intro w b e u s ha hi hown ho hl ht hd he hu hc hv hset
    subst he hu
    exact ⟨_, congrArg Host.Outcome.next (write_set ha ⟨ho, hl, ht, hd⟩ hc hv (by decide +kernel) hi hown hset), rfl⟩
  case _ => exact fun w s => ⟨_, rfl, rfl⟩
  case _ =>
    intro w b u s ha ho hl ht hd hu hc hv hact
    exact ⟨_, congrArg Host.Outcome.next (request_action ha ⟨ho, hl, ht, hd⟩ hc hu hv hact (by decide +kernel)), rfl⟩
  case _ => exact fun w s => ⟨_, rfl, rfl⟩
  case _ =>
    intro w b u s ha ho hl ht hd hu hc hv hact
    subst hu
    exact ⟨_, congrArg Host.Outcome.next (write_applied ha ⟨ho, hl, ht, hd⟩ hc hv (by decide +kernel) hact (by decide)), rfl⟩
  case _ => exact fun w s => ⟨_, rfl, rfl⟩
  case _ =>
    intro w b u s ha ho hl ht hd hu hc hv hact
    exact ⟨_, congrArg Host.Outcome.next (request_action ha ⟨ho, hl, ht, hd⟩ hc hu hv hact (by decide +kernel)), rfl⟩

end Sys2Proof.Machine
end
